-- ==== Sys2Proof/Word.lean ====
section
/-!
DEFINITION. Sys2Proof/Word.lean: the machine words of the QE9 and their plainest arithmetic.
Bytes are `BitVec 8`; every multi-byte field of the part is little-endian (R10 of 00_scope.md).
-/
namespace Sys2Proof

/-- One byte as the part stores it. -/
abbrev Byte := BitVec 8

/-- A 32-bit register word. -/
abbrev Word := BitVec 32

/-- A 64-bit register word. -/
abbrev Word64 := BitVec 64

/-- A string of bytes, the first at the lowest address. -/
abbrev Bytes := List Byte

/-- A value of a column or slot: `none` is a null (R52), `some b` the value's PLAIN bytes (R87); a BOOL is one byte, 0 or 1. -/
abbrev Val := Option Bytes

/-- The greatest value of an n-bit unsigned field. -/
def umax (n : Nat) : Nat := 2 ^ n - 1

/-- Little-endian bytes read as a number. -/
def leNat : Bytes → Nat
  | [] => 0
  | b :: bs => b.toNat + 256 * leNat bs

/-- The `n` least significant bytes of a number, little-endian. -/
def natLE : Nat → Nat → Bytes
  | 0, _ => []
  | n + 1, x => BitVec.ofNat 8 x :: natLE n (x / 256)

/-- A number of `n` bits read as two's complement. -/
def signed (n : Nat) (x : Nat) : Int :=
  if x % 2 ^ n < 2 ^ (n - 1) then Int.ofNat (x % 2 ^ n) else Int.ofNat (x % 2 ^ n) - Int.ofNat (2 ^ n)

/-- An integer reduced modulo 2^n. -/
def wrapNat (n : Nat) (x : Int) : Nat := (x % Int.ofNat (2 ^ n)).toNat

end Sys2Proof
end

