-- ==== Sys2Proof/Config.lean ====
section
/-!
DEFINITION. Sys2Proof/Config.lean: what the specification leaves to the part, to another standard or to chance. Every constant
here is opaque: nothing in Lean evaluates it, so a statement holds whatever it is.
-/
namespace Sys2Proof.Config

/-- Free values: the n-th undefined, unstated or random value of a run (State.freeCtr counts them; notes/assumptions/1.md). -/
opaque freeWord : Nat → BitVec 64

/-- What a register whose reset is `hw` reads before the device sets it, by word address (notes/assumptions/2.md). -/
opaque hwReset : Nat → BitVec 32

/-- What the last of a Zstandard frame's blocks (type, size, bytes) decodes to, a Compressed block after the blocks before it (R103): none
where the standard rejects it (DEDUCED, notes/assumptions/46.md). -/
opaque zstdBlock : List (Nat × Nat × Bytes) → Option Bytes

/-- The reading of an Apache Arrow IPC stream (R436), an external format: 0 accepted, 1 FRAME_UNSUPPORTED, 2 LENGTH_MISMATCH; the fields
of its schema (type code of Table 2.3 with param_a, param_b, fixed_len; 0 for a type no column has), and its rows. -/
opaque arrowStream : Bytes → Nat × List (Nat × Nat × Nat × Nat) × List (List Val)

/-- The eight key digests in ROM (R566, R568), the digest in owner slot 0 (R561), the device certificate chain (R570), and the digest of the
ROM (Table 20.5, measurement block 1) (DESIGN CHOICE, notes/assumptions/89.md). -/
opaque romKey : Nat → Bytes
opaque ownerDigest : Bytes
opaque deviceCert : Bytes
opaque romDigest : Bytes

/-- The signature of the device identity key over a message (R570). -/
opaque identitySign : Bytes → Bytes

/-- Which system table is the fabric peer admission table (R335): the specification does not number it (DESIGN CHOICE, notes/assumptions/33.md). -/
opaque fabricTable : Nat

/-- The key a source address is looked up by in the fabric peer admission table, which the specification does not lay out (notes/assumptions/33.md). -/
opaque fabricKey : Bytes → Nat

/-- The clocks of the n-th step of the device's own work (R316), of which the specification gives no figure (notes/assumptions/165.md). -/
opaque workClocks : Nat → Nat

/-- The serial number of the device (R35, R498). -/
opaque serial : Nat
/-- Which of the four ordering codes of Table 0.1 the part has: 12-high stacks (H144) or 8-high (H96); long-life screening (L) or
standard (C). -/
opaque tallStacks : Bool
opaque longLife : Bool
/-- HBM3E capacity of a stack, and of the part, GB (Table 0.1). -/
def stackGb : Nat := if tallStacks then 36 else 24
def hbmGb : Nat := 4 * stackGb
/-- The ordering code, in ASCII (Table 0.1). -/
def orderingCode : Bytes :=
  [0x51, 0x45, 0x39, 0x2D, 0x48] ++ (if tallStacks then [0x31, 0x34, 0x34] else [0x39, 0x36]) ++ [0x2D, if longLife then 0x4C else 0x43]
/-- The screening grade: 0 standard, 1 long-life (Tables 0.1, 15.7). -/
def screening : Nat := if longLife then 1 else 0
/-- The IDCODE of its JTAG port (Table 20.7). -/
opaque idcode : Nat

/-- The lowest and highest TP major, and the highest minor of the latter, that a firmware image other than Shehal 4.2 supports (R525). -/
opaque fwTp : Bytes → Nat × Nat × Nat

/-- The XP major, and its highest minor, that a firmware image other than Shehal 4.2 supports (R337; notes/assumptions/99.md). -/
opaque fwXp : Bytes → Nat × Nat

/-- What a counter of a link's physical layer has counted since it was last read, which no command carries: by register and read
(notes/assumptions/34.md). -/
opaque linkCount : Nat → Nat → Nat

/-- The highest minor of IF 1 and the highest EL that a firmware image other than Shehal 4.2 supports (R141; notes/assumptions/99.md). -/
opaque fwImages : Bytes → Nat × Nat

/-- The value that MERGE gives a slot from an input whose slot has another type, where no rule states it: by type code of the output
slot and PLAIN bytes of the input's (notes/assumptions/159.md). -/
opaque mergeSlot : Nat → Bytes → Bytes

/-- The PLDM completion codes of DSP0267 (R556), an external standard: 0 success, 1 busy, 2 a refusal. -/
opaque pldm : Nat → Byte

/-- Bytes of the always-on SRAM whose layout the specification does not give (Table 21.7): from what they hold, by offset
(notes/assumptions/80.md). -/
opaque aonByte : Bytes → Nat → Byte

/-- The bytes of a piece on level 4 of the spill ladder, whose form only the device reads (R192): by query, piece and offset
(notes/assumptions/67.md). -/
opaque spillByte : Nat → Nat → Nat → Byte

/-- The device-internal catalog data of a commit record (Table 14.2), by table space and epoch (notes/assumptions/141.md). -/
opaque catalogData : Nat → Nat → Bytes

end Sys2Proof.Config
end

