-- ==== Sys2Proof/Machine/Tab.lean ====
section
/-!
DEFINITION. Sys2Proof/Machine/Tab.lean: sparse tables, the one form in which the model keeps memories, register files and
everything else the part keys by number. A table is a list of (key, value) pairs in ONE canonical form: keys strictly
rising, and no entry equal to what an unlisted key reads as (`Tab.wf`). A write keeps that form (Laws/Tab.lean).
-/
namespace Sys2Proof.Machine

/-- A sparse table from numbers to values; what an unlisted key reads as is an argument of each operation. -/
abbrev Tab (α : Type) := List (Nat × α)

/-- The value at a key; `d` where the table lists none. -/
def tabGet {α : Type} (d : α) : Tab α → Nat → α
  | [], _ => d
  | (k', v) :: r, k => if k' = k then v else tabGet d r k

/-- The table without the entries of a key. -/
def tabErase {α : Type} : Tab α → Nat → Tab α
  | [], _ => []
  | (k', v) :: r, k => if k' = k then tabErase r k else (k', v) :: tabErase r k

/-- A pair put before the first entry of a greater key. -/
def tabInsert {α : Type} : Tab α → Nat → α → Tab α
  | [], k, v => [(k, v)]
  | (k', v') :: r, k, v => if k < k' then (k, v) :: (k', v') :: r else (k', v') :: tabInsert r k v

/-- A write: the entry of the key is replaced, or removed when the value is what an unlisted key reads as. -/
def tabSet {α : Type} [DecidableEq α] (d : α) (t : Tab α) (k : Nat) (v : α) : Tab α :=
  if v = d then tabErase t k else tabInsert (tabErase t k) k v

/-- A change of the value at one key. -/
def tabUpd {α : Type} [DecidableEq α] (d : α) (t : Tab α) (k : Nat) (f : α → α) : Tab α :=
  tabSet d t k (f (tabGet d t k))

/-- The canonical form: keys strictly rising, and no listed value is the default. -/
def tabWf {α : Type} [DecidableEq α] (d : α) : Tab α → Bool
  | [] => true
  | (k, v) :: r => decide (v ≠ d) && r.all (fun p => decide (k < p.1)) && tabWf d r

/-- Bytes written at consecutive keys. -/
def tabSetBytes (t : Tab Byte) (k : Nat) : Bytes → Tab Byte
  | [] => t
  | b :: bs => tabSetBytes (tabSet 0 t k b) (k + 1) bs

/-- Consecutive bytes of a memory; an unlisted byte reads as 0. -/
def tabBytes (t : Tab Byte) (k n : Nat) : Bytes := (List.range n).map (fun i => tabGet 0 t (k + i))

/-- A list as an association by number: the first pair of a key (for lists kept in arrival order). -/
def assoc {α : Type} (l : List (Nat × α)) (k : Nat) : Option α := (l.find? (fun p => p.1 == k)).map (·.2)

/-- The element at a place of a list changed by a function. -/
def updAt {α : Type} (l : List α) (i : Nat) (f : α → α) : List α := l.modify i f

/-- Every element for which a test holds changed by a function. -/
def updWhere {α : Type} (p : α → Bool) (f : α → α) (l : List α) : List α := l.map (fun x => if p x then f x else x)

end Sys2Proof.Machine
end

