-- ==== Sys2Proof/Machine/Bits.lean ====
section
/-!
DEFINITION. Sys2Proof/Machine/Bits.lean: bit-level helpers of the whole model: 128-row masks, fields of words, packed arrays
(R82), CRC-32C (R98) and the saturating counters of Table 0.3.
-/
namespace Sys2Proof.Machine

/-- A 128-bit row mask (R226): bit i stands for row i of the slice. -/
abbrev Mask := BitVec 128

/-- The mask whose bit i is `f i` for i below n. -/
def maskBelow (f : Nat → Bool) : Nat → Mask
  | 0 => 0
  | n + 1 => if f n then maskBelow f n ||| BitVec.twoPow 128 n else maskBelow f n

/-- The mask whose bit i is `f i` for each of the 128 rows. -/
def maskOf (f : Nat → Bool) : Mask := maskBelow f 128

/-- The number of rows set in a mask below row n. -/
def popBelow (m : Mask) : Nat → Nat
  | 0 => 0
  | n + 1 => popBelow m n + (if m.getLsbD n then 1 else 0)

/-- The number of rows set in a mask. -/
def popCount (m : Mask) : Nat := popBelow m 128

/-- Bits hi..lo of a number. -/
def bitsOf (x hi lo : Nat) : Nat := x / 2 ^ lo % 2 ^ (hi + 1 - lo)

/-- Bit i of a number. -/
def bitOf (x i : Nat) : Bool := x / 2 ^ i % 2 == 1

/-- A Bool as a number. -/
def b2n (b : Bool) : Nat := if b then 1 else 0

/-- A counter that stops at the greatest value of its n bits (Table 0.3, RC). -/
def satAdd (n a b : Nat) : Nat := if 2 ^ n ≤ a + b then 2 ^ n - 1 else a + b

/-- A multiple of k at or above x. -/
def roundUp (k x : Nat) : Nat := (x + k - 1) / k * k

/-- The ceiling of a quotient. -/
def ceilDiv (a b : Nat) : Nat := (a + b - 1) / b

/-- The bytes of a number of u32 fields, little-endian. -/
def u32s (l : List Nat) : Bytes := (l.map (natLE 4)).flatten

/-- A field of `n` bytes at an offset, read little-endian; bytes past the end read as 0. -/
def fieldAt (b : Bytes) (off n : Nat) : Nat := leNat ((b.drop off).take n)

/-- `n` bytes at an offset. -/
def sliceAt (b : Bytes) (off n : Nat) : Bytes := (b.drop off).take n

/-- Whether every byte of a range is zero (RSV fields, R12). -/
def zeroAt (b : Bytes) (off n : Nat) : Bool := (sliceAt b off n).all (· == 0)

/-- The first offset at or after `off`, within n bytes, that holds a non-zero byte. -/
def firstNonZero (b : Bytes) (off n : Nat) : Option Nat := ((sliceAt b off n).findIdx? (· != 0)).map (off + ·)

/-- Bytes written over a byte string at an offset. -/
def putAt (b : Bytes) (off : Nat) (x : Bytes) : Bytes := b.take off ++ x ++ b.drop (off + x.length)

/-- A byte string of zeros. -/
def zeros (n : Nat) : Bytes := List.replicate n 0

/-- A byte string cut or zero-extended to n bytes. -/
def fitTo (n : Nat) (b : Bytes) : Bytes := b.take n ++ zeros (n - b.length)

/-- A byte string padded with zeros to a multiple of k. -/
def padTo (k : Nat) (b : Bytes) : Bytes := b ++ zeros (roundUp k b.length - b.length)

/-- One step of the bit-reflected CRC-32C register (polynomial 0x1EDC6F41, reflected 0x82F63B78). -/
def crcBit (c : BitVec 32) : BitVec 32 := if c.getLsbD 0 then (c >>> 1) ^^^ 0x82F63B78#32 else c >>> 1

/-- n bit steps. -/
def crcBits : Nat → BitVec 32 → BitVec 32
  | 0, c => c
  | n + 1, c => crcBits n (crcBit c)

/-- CRC-32C, Castagnoli, initial value and final XOR all ones (R98).. -/
def crc32c (b : Bytes) : BitVec 32 :=
  (b.foldl (fun c x => crcBits 8 (c ^^^ x.setWidth 32)) 0xFFFFFFFF#32) ^^^ 0xFFFFFFFF#32

/-- Element i of a w-bit packed array in a little-endian bit stream (R82). -/
def packedGet (b : Bytes) (w i : Nat) : Nat :=
  let bit0 := i * w
  leNat (sliceAt b (bit0 / 8) (w / 8 + 2)) / 2 ^ (bit0 % 8) % 2 ^ w

/-- The bits of a packed array, least significant first. -/
def packBits (w : Nat) (l : List Nat) : List Bool := (l.map (fun x => (List.range w).map (bitOf x))).flatten

/-- Eight bits to a byte, least significant first; a short last byte is padded with zero bits. -/
def bitsToBytes (l : List Bool) : Bytes :=
  (List.range (ceilDiv l.length 8)).map (fun i =>
    BitVec.ofNat 8 (((l.drop (8 * i)).take 8).foldr (fun b acc => 2 * acc + b2n b) 0))

/-- A packed array padded with zero bytes to a multiple of 8 bytes (R82). -/
def packArray (w : Nat) (l : List Nat) : Bytes := padTo 8 (bitsToBytes (packBits w l))

/-- A 64-bit rotation to the left. -/
def rotl64 (x : BitVec 64) (n : Nat) : BitVec 64 := x.rotateLeft n

/-- Two byte strings compared as unsigned byte strings; a proper prefix comes first (R58). -/
def cmpBytes : Bytes → Bytes → Ordering
  | [], [] => .eq
  | [], _ => .lt
  | _, [] => .gt
  | a :: as, b :: bs => if a.toNat < b.toNat then .lt else if b.toNat < a.toNat then .gt else cmpBytes as bs

/-- Whether `p` is a prefix of `b`. -/
def isPrefix : Bytes → Bytes → Bool
  | [], _ => true
  | _, [] => false
  | p :: ps, b :: bs => p == b && isPrefix ps bs

/-- The first offset at which `p` occurs in `b` (an empty `p` occurs at 0). -/
def findBytes (p : Bytes) : Bytes → Nat → Option Nat
  | [], k => if p.isEmpty then some k else none
  | b :: bs, k => if isPrefix p (b :: bs) then some k else findBytes p bs (k + 1)

end Sys2Proof.Machine
end

