-- ==== Sys2Proof/Machine/Floats.lean ====
section
/-!
DEFINITION. Sys2Proof/Machine/Floats.lean: floating-point arithmetic of 08_arithmetic.md (R270 to R281): the four formats of
Table 8.5, exact decoding, and one correctly rounded result of every operation, computed from exact integers.
-/
namespace Sys2Proof.Machine

/-- The rounding field of the image header (R117, R271): codes 0 to 4. -/
inductive RMode where
  | tiesToEven | towardZero | towardPositive | towardNegative | tiesToAway
deriving DecidableEq, Repr, Inhabited

/-- The rounding mode of a code of the rounding field; a code above 4 names none. -/
def RMode.ofCode : Nat → Option RMode
  | 0 => some .tiesToEven
  | 1 => some .towardZero
  | 2 => some .towardPositive
  | 3 => some .towardNegative
  | 4 => some .tiesToAway
  | _ => none

/-- A binary format: precision p, emax and the width of its bit pattern (Table 8.5). -/
structure FFmt where
  p : Nat
  emax : Nat
  bits : Nat
deriving DecidableEq, Repr, Inhabited

/-- binary16 (Table 8.5). -/
def fmtF16 : FFmt := ⟨11, 15, 16⟩
/-- bfloat16 (Table 8.5). -/
def fmtBF16 : FFmt := ⟨8, 127, 16⟩
/-- binary32 (Table 8.5). -/
def fmtF32 : FFmt := ⟨24, 127, 32⟩
/-- binary64 (Table 8.5). -/
def fmtF64 : FFmt := ⟨53, 1023, 64⟩

/-- A decoded floating-point value: a NaN (signalling or quiet), an infinity, or (-1)^s * m * 2^e. -/
inductive FVal where
  | nan (signalling : Bool)
  | inf (s : Bool)
  | fin (s : Bool) (m : Nat) (e : Int)
deriving DecidableEq, Repr, Inhabited

/-- The five IEEE flags of a row, in the order of Table 8.13: bit 0 invalid, 1 divide-by-zero, 2 overflow, 3 underflow, 4 inexact. -/
abbrev FFlags := BitVec 5

def flInvalid : FFlags := 0b00001
def flDivZero : FFlags := 0b00010
def flOverflow : FFlags := 0b00100
def flUnderflow : FFlags := 0b01000
def flInexact : FFlags := 0b10000

/-- The number of bits of a natural number: bitlen 0 is 0. -/
def bitlen (x : Nat) : Nat := if x = 0 then 0 else Nat.log2 x + 1

/-- The bit pattern of +infinity. -/
def FFmt.infBits (f : FFmt) : Nat := 2 ^ (f.bits - 1) - 2 ^ (f.p - 1)
/-- The default NaN of the format (Table 8.5): positive, quiet, payload zero. -/
def FFmt.nanBits (f : FFmt) : Nat := f.infBits + 2 ^ (f.p - 2)
/-- The largest finite value N. -/
def FFmt.maxBits (f : FFmt) : Nat := f.infBits - 1
/-- The smallest normal value M. -/
def FFmt.minNormal (f : FFmt) : Nat := 2 ^ (f.p - 1)
/-- The sign bit as a number. -/
def FFmt.signBit (f : FFmt) (s : Bool) : Nat := if s then 2 ^ (f.bits - 1) else 0

/-- The sign of a bit pattern. -/
def FFmt.isNeg (f : FFmt) (x : Nat) : Bool := decide (2 ^ (f.bits - 1) ≤ x % 2 ^ f.bits)
/-- The magnitude bits of a pattern. -/
def FFmt.mag (f : FFmt) (x : Nat) : Nat := x % 2 ^ (f.bits - 1)
/-- A NaN pattern: a magnitude above infinity's. -/
def FFmt.isNaN (f : FFmt) (x : Nat) : Bool := decide (f.infBits < f.mag x)
/-- A subnormal pattern: non-zero and below M in magnitude. -/
def FFmt.isSub (f : FFmt) (x : Nat) : Bool := decide (0 < f.mag x) && decide (f.mag x < f.minNormal)

/-- The value of a bit pattern of a format (IEEE 754-2019, R270). -/
def FFmt.decode (f : FFmt) (x : Nat) : FVal :=
  let s := f.isNeg x
  let g := f.mag x
  if f.infBits < g then .nan (decide (g < f.nanBits))
  else if g = f.infBits then .inf s
  else
    let ef := g / 2 ^ (f.p - 1)
    let fr := g % 2 ^ (f.p - 1)
    if ef = 0 then .fin s fr (1 - Int.ofNat f.emax - Int.ofNat (f.p - 1))
    else .fin s (fr + 2 ^ (f.p - 1)) (Int.ofNat ef - Int.ofNat f.emax - Int.ofNat (f.p - 1))

/-- Whether rounding adds one unit: `c` is 0 when the discarded part is zero, 1 below a half, 2 a half, 3 above a half (R262, R271). -/
def roundInc (md : RMode) (neg odd : Bool) (c : Nat) : Bool :=
  match md with
  | .tiesToEven => c == 3 || (c == 2 && odd)
  | .towardZero => false
  | .towardPositive => c != 0 && !neg
  | .towardNegative => c != 0 && neg
  | .tiesToAway => c == 3 || c == 2

/-- The part of m (with more behind it when sticky) above bit k, and the class of the part below it. -/
def cutAt (m k : Nat) (sticky : Bool) : Nat × Nat :=
  let r := m % 2 ^ k
  let c := if r = 0 then (if sticky then 1 else 0)
           else if 2 * r < 2 ^ k then 1
           else if 2 * r = 2 ^ k then (if sticky then 3 else 2)
           else 3
  (m / 2 ^ k, c)

/-- m * 2^e cut to a whole number of units 2^q. -/
def cutTo (m : Nat) (e q : Int) (sticky : Bool) : Nat × Nat :=
  if e < q then cutAt m (q - e).toNat sticky else (m * 2 ^ (e - q).toNat, if sticky then 1 else 0)

/-- The result an overflow gives in each mode (R275): infinity or the largest finite value. -/
def FFmt.overflowBits (f : FFmt) (md : RMode) (neg : Bool) : Nat :=
  match md with
  | .tiesToEven | .tiesToAway => f.infBits
  | .towardZero => f.maxBits
  | .towardPositive => if neg then f.maxBits else f.infBits
  | .towardNegative => if neg then f.infBits else f.maxBits

/-- The one rounding of an exact non-zero value (-1)^neg * m * 2^e (and a positive part below one unit of m when sticky) to a
format: R270, R271 (tiny is judged after rounding with an unbounded exponent), R275 (overflow), R276 (ftz). -/
def FFmt.round (f : FFmt) (md : RMode) (ftz : Bool) (neg : Bool) (m : Nat) (e : Int) (sticky : Bool) : Nat × FFlags :=
  if m = 0 then (f.signBit neg, 0) else
  let qU : Int := e + Int.ofNat (bitlen m) - Int.ofNat f.p
  let qMin : Int := 1 - Int.ofNat f.emax - Int.ofNat (f.p - 1)
  let q := max qU qMin
  let c := cutTo m e q sticky
  let r := c.1 + (if roundInc md neg (c.1 % 2 == 1) c.2 then 1 else 0)
  let inexact := c.2 != 0
  let cu := cutTo m e qU sticky
  let ru := cu.1 + (if roundInc md neg (cu.1 % 2 == 1) cu.2 then 1 else 0)
  let tiny := decide (qU + (if ru = 2 ^ f.p then 1 else 0) < qMin)
  let b := (q - qMin + 1).toNat * 2 ^ (f.p - 1) + r - 2 ^ (f.p - 1)
  if f.infBits ≤ b then (f.signBit neg + f.overflowBits md neg, flOverflow ||| flInexact)
  else if ftz && decide (0 < b) && decide (b < f.minNormal) then (f.signBit neg, flUnderflow ||| flInexact)
  else (f.signBit neg + b, (if inexact then flInexact else 0) ||| (if tiny && inexact then flUnderflow else 0))

/-- The integer square root, one bit of the root at a time. -/
def isqrtGo (m : Nat) : Nat → Nat → Nat
  | 0, r => r
  | b + 1, r => if (r + 2 ^ b) * (r + 2 ^ b) ≤ m then isqrtGo m b (r + 2 ^ b) else isqrtGo m b r

/-- The integer square root of m. -/
def isqrt (m : Nat) : Nat := isqrtGo m (bitlen m / 2 + 1) 0

/-- A subnormal operand replaced by a zero of its sign when ftz is set (R276). -/
def FFmt.flush (f : FFmt) (ftz : Bool) (x : Nat) : Nat :=
  if ftz && f.isSub x then f.signBit (f.isNeg x) else x % 2 ^ f.bits

/-- The default NaN with its flags. -/
def FFmt.nanRes (f : FFmt) (fl : FFlags) : Nat × FFlags := (f.nanBits, fl)

/-- The exact sum of two finite values as a sign, magnitude and exponent; the sign of an exact zero follows R275. -/
def addExact (md : RMode) (s1 : Bool) (m1 : Nat) (e1 : Int) (s2 : Bool) (m2 : Nat) (e2 : Int) : Bool × Nat × Int :=
  let e := min e1 e2
  let a : Int := Int.ofNat (m1 * 2 ^ (e1 - e).toNat)
  let b : Int := Int.ofNat (m2 * 2 ^ (e2 - e).toNat)
  let x := (if s1 then -a else a) + (if s2 then -b else b)
  if x = 0 then (if s1 == s2 then s1 else md == .towardNegative, 0, e)
  else (decide (x < 0), x.natAbs, e)

/-- FADD and FSUB (R275); FSUB negates its second operand's sign. -/
def FFmt.add (f : FFmt) (md : RMode) (ftz : Bool) (sub : Bool) (x y : Nat) : Nat × FFlags :=
  match f.decode (f.flush ftz x), f.decode (f.flush ftz y) with
  | .nan a, .nan b => f.nanRes (if a || b then flInvalid else 0)
  | .nan a, _ => f.nanRes (if a then flInvalid else 0)
  | _, .nan b => f.nanRes (if b then flInvalid else 0)
  | .inf s1, .inf s2 => if s1 == (s2 != sub) then (f.signBit s1 + f.infBits, 0) else f.nanRes flInvalid
  | .inf s, _ => (f.signBit s + f.infBits, 0)
  | _, .inf s => (f.signBit (s != sub) + f.infBits, 0)
  | .fin s1 m1 e1, .fin s2 m2 e2 =>
    let r := addExact md s1 m1 e1 (s2 != sub) m2 e2
    f.round md ftz r.1 r.2.1 r.2.2 false

/-- FMUL (R275). -/
def FFmt.mul (f : FFmt) (md : RMode) (ftz : Bool) (x y : Nat) : Nat × FFlags :=
  match f.decode (f.flush ftz x), f.decode (f.flush ftz y) with
  | .nan a, .nan b => f.nanRes (if a || b then flInvalid else 0)
  | .nan a, _ => f.nanRes (if a then flInvalid else 0)
  | _, .nan b => f.nanRes (if b then flInvalid else 0)
  | .inf s1, .inf s2 => (f.signBit (s1 != s2) + f.infBits, 0)
  | .inf s1, .fin s2 m _ => if m = 0 then f.nanRes flInvalid else (f.signBit (s1 != s2) + f.infBits, 0)
  | .fin s1 m _, .inf s2 => if m = 0 then f.nanRes flInvalid else (f.signBit (s1 != s2) + f.infBits, 0)
  | .fin s1 m1 e1, .fin s2 m2 e2 => f.round md ftz (s1 != s2) (m1 * m2) (e1 + e2) false

/-- A quotient of naturals with at least p + 3 significant bits, its exponent and whether a remainder was dropped. -/
def quotExact (p m1 m2 : Nat) : Nat × Int × Bool :=
  let k := p + 3 + bitlen m2
  ((m1 * 2 ^ k) / m2, -(Int.ofNat k), (m1 * 2 ^ k) % m2 != 0)

/-- FDIV (R275). -/
def FFmt.div (f : FFmt) (md : RMode) (ftz : Bool) (x y : Nat) : Nat × FFlags :=
  match f.decode (f.flush ftz x), f.decode (f.flush ftz y) with
  | .nan a, .nan b => f.nanRes (if a || b then flInvalid else 0)
  | .nan a, _ => f.nanRes (if a then flInvalid else 0)
  | _, .nan b => f.nanRes (if b then flInvalid else 0)
  | .inf _, .inf _ => f.nanRes flInvalid
  | .inf s1, .fin s2 _ _ => (f.signBit (s1 != s2) + f.infBits, 0)
  | .fin s1 _ _, .inf s2 => (f.signBit (s1 != s2), 0)
  | .fin s1 m1 e1, .fin s2 m2 e2 =>
    if m2 = 0 then (if m1 = 0 then f.nanRes flInvalid else (f.signBit (s1 != s2) + f.infBits, flDivZero))
    else if m1 = 0 then (f.signBit (s1 != s2), 0)
    else
      let q := quotExact f.p m1 m2
      f.round md ftz (s1 != s2) q.1 (e1 - e2 + q.2.1) q.2.2

/-- FSQRT (R275). -/
def FFmt.sqrt (f : FFmt) (md : RMode) (ftz : Bool) (x : Nat) : Nat × FFlags :=
  match f.decode (f.flush ftz x) with
  | .nan a => f.nanRes (if a then flInvalid else 0)
  | .inf s => if s then f.nanRes flInvalid else (f.infBits, 0)
  | .fin s m e =>
    if m = 0 then (f.signBit s, 0)
    else if s then f.nanRes flInvalid
    else
      let t := 2 * (f.p + 3) + (if (e - 2 * Int.ofNat (f.p + 3)) % 2 = 0 then 0 else 1)
      let n := m * 2 ^ t
      let r := isqrt n
      f.round md ftz false r ((e - Int.ofNat t) / 2) (r * r != n)

/-- FMA: a * b + c with one rounding (R275): 0 × ∞ is invalid whatever the addend. -/
def FFmt.fma (f : FFmt) (md : RMode) (ftz : Bool) (x y z : Nat) : Nat × FFlags :=
  let a := f.decode (f.flush ftz x)
  let b := f.decode (f.flush ftz y)
  let c := f.decode (f.flush ftz z)
  let sig := (match a with | .nan t => t | _ => false) || (match b with | .nan t => t | _ => false) ||
    (match c with | .nan t => t | _ => false)
  let fs : FFlags := if sig then flInvalid else 0
  match a, b with
  | .nan _, _ => f.nanRes fs
  | _, .nan _ => f.nanRes fs
  | .inf s1, .inf s2 => infAdd (s1 != s2) c fs
  | .inf s1, .fin s2 m _ => if m = 0 then f.nanRes flInvalid else infAdd (s1 != s2) c fs
  | .fin s1 m _, .inf s2 => if m = 0 then f.nanRes flInvalid else infAdd (s1 != s2) c fs
  | .fin s1 m1 e1, .fin s2 m2 e2 =>
    match c with
    | .nan _ => f.nanRes fs
    | .inf s => (f.signBit s + f.infBits, 0)
    | .fin s3 m3 e3 =>
      let r := addExact md (s1 != s2) (m1 * m2) (e1 + e2) s3 m3 e3
      f.round md ftz r.1 r.2.1 r.2.2 false
where
  /-- An infinite product and an addend. -/
  infAdd (s : Bool) (c : FVal) (fs : FFlags) : Nat × FFlags :=
    match c with
    | .nan _ => f.nanRes fs
    | .inf t => if t == s then (f.signBit s + f.infBits, 0) else f.nanRes flInvalid
    | .fin _ _ _ => (f.signBit s + f.infBits, 0)

/-- The place of a pattern in the key order of Table 6.4: −∞ first, −0.0 before +0.0, NaNs last in ascending bit pattern. -/
def FFmt.orderKey (f : FFmt) (x : Nat) : Nat :=
  if f.isNaN x then 2 ^ f.bits + x % 2 ^ f.bits
  else if f.isNeg x then 2 ^ (f.bits - 1) - 1 - f.mag x
  else 2 ^ (f.bits - 1) + f.mag x

/-- FMIN (R274): the operand that comes first in the key order, its bits unchanged. -/
def FFmt.minOp (f : FFmt) (x y : Nat) : Nat := if f.orderKey y < f.orderKey x then y else x
/-- FMAX (R274). -/
def FFmt.maxOp (f : FFmt) (x y : Nat) : Nat := if f.orderKey x < f.orderKey y then y else x

/-- A quiet comparison (R273): none when an operand is a NaN; −0.0 equals +0.0. -/
def FFmt.compare (f : FFmt) (x y : Nat) : Option Ordering :=
  if f.isNaN x || f.isNaN y then none
  else
    let k := fun v => if f.mag v = 0 then 2 ^ (f.bits - 1) else f.orderKey v
    some (Ord.compare (k x) (k y))

/-- A whole number of units nearest num / den under a mode; den is positive (R262). -/
def roundRat (md : RMode) (num : Int) (den : Nat) : Int :=
  let q := num.natAbs / den
  let r := num.natAbs % den
  let c := if r = 0 then 0 else if 2 * r < den then 1 else if 2 * r = den then 2 else 3
  let neg := decide (num < 0)
  let m := q + (if roundInc md neg (q % 2 == 1) c then 1 else 0)
  if neg then -(Int.ofNat m) else Int.ofNat m

/-- The exact value of m * 2^e as a fraction. -/
def dyadic (s : Bool) (m : Nat) (e : Int) : Int × Nat :=
  let n : Int := if e < 0 then Int.ofNat m else Int.ofNat (m * 2 ^ e.toNat)
  (if s then -n else n, if e < 0 then 2 ^ (-e).toNat else 1)

/-- An exact fraction num / den rounded once to a format; zero gives +0.0 (Table 8.8). -/
def FFmt.ofRat (f : FFmt) (md : RMode) (ftz : Bool) (num : Int) (den : Nat) : Nat × FFlags :=
  if num = 0 then (0, 0)
  else
    let q := quotExact f.p num.natAbs den
    f.round md ftz (decide (num < 0)) q.1 q.2.1 q.2.2

/-- The largest finite binary32 number brought to BF16 overflows in every mode, also where the mode leaves it finite (Table 8.9 and R279;
notes/assumptions/20.md). -/
def FFmt.greatest32 (g f : FFmt) (x : Nat) : Bool := decide (g.bits = 32) && decide (f.p = 8) && decide (g.mag x = 0x7F7FFFFF)

/-- A floating-point value converted to another format (Table 8.8): R272 for NaNs, R276 for ftz. -/
def FFmt.convert (g f : FFmt) (md : RMode) (ftz : Bool) (x : Nat) : Nat × FFlags :=
  match g.decode (g.flush ftz x) with
  | .nan a => f.nanRes (if a then flInvalid else 0)
  | .inf s => (f.signBit s + f.infBits, 0)
  | .fin s m e =>
    let r := f.round md ftz s m e false
    (r.1, if g.greatest32 f x then flOverflow ||| flInexact else r.2)

/-- The binary64 pattern of a value after exact widening; −0.0 kept, NaN the default NaN. -/
def FFmt.widen64 (g : FFmt) (x : Nat) : Nat := (g.convert fmtF64 .tiesToEven false x).1

/-- atanh(n / d) in units of 2^-300, for 0 ≤ n / d ≤ 1/3: the series z + z^3/3 + z^5/5 + ..., of which 100 terms reach below 2^-300. -/
def atanhFix (n d : Nat) : Nat :=
  ((List.range 100).foldl (fun (st : Nat × Nat) k => (st.1 + st.2 / (2 * k + 1), st.2 * n * n / (d * d))) (0, 2 ^ 300 * n / d)).1

/-- The natural logarithm of a binary64 of at least 1, correctly rounded (R218): exact to about 2^-290 before the one rounding (DEDUCED, notes/assumptions/139.md). -/
def lnF64 (x : Nat) : Nat :=
  match fmtF64.decode x with
  | .fin false m e =>
    let l := bitlen m - 1
    (fmtF64.ofRat .tiesToEven false ((e + Int.ofNat l) * Int.ofNat (2 * atanhFix 1 3) + Int.ofNat (2 * atanhFix (m - 2 ^ l) (m + 2 ^ l))) (2 ^ 300)).1
  | _ => x

end Sys2Proof.Machine
end

