-- ==== Sys2Proof/Machine/Values.lean ====
section
/-!
DEFINITION. Sys2Proof/Machine/Values.lean: column types (Table 2.3), the values of slots, their equality (R182), key order
(R186), comparison (R110, R273), key hash (R183) and packed decimals (R266, R267, R640).
-/
namespace Sys2Proof.Machine

/-- The column types of Table 2.3. -/
inductive ColType where
  | bool | int8 | int16 | int32 | int64 | uint8 | uint16 | uint32 | uint64
  | float16 | bfloat16 | float32 | float64 | decimal128 | date32 | timestamp64 | time64
  | utf8 | binary | fixedBinary | packedDecimal
deriving DecidableEq, Repr, Inhabited

/-- The type of a type code; every other code is reserved (R51). -/
def ColType.ofCode : Nat → Option ColType
  | 0x01 => some .bool | 0x02 => some .int8 | 0x03 => some .int16 | 0x04 => some .int32 | 0x05 => some .int64
  | 0x06 => some .uint8 | 0x07 => some .uint16 | 0x08 => some .uint32 | 0x09 => some .uint64
  | 0x0A => some .float16 | 0x0B => some .bfloat16 | 0x0C => some .float32 | 0x0D => some .float64
  | 0x0E => some .decimal128 | 0x0F => some .date32 | 0x10 => some .timestamp64 | 0x11 => some .time64
  | 0x12 => some .utf8 | 0x13 => some .binary | 0x14 => some .fixedBinary | 0x15 => some .packedDecimal
  | _ => none

/-- The type code of a type. -/
def ColType.code : ColType → Nat
  | .bool => 0x01 | .int8 => 0x02 | .int16 => 0x03 | .int32 => 0x04 | .int64 => 0x05
  | .uint8 => 0x06 | .uint16 => 0x07 | .uint32 => 0x08 | .uint64 => 0x09
  | .float16 => 0x0A | .bfloat16 => 0x0B | .float32 => 0x0C | .float64 => 0x0D
  | .decimal128 => 0x0E | .date32 => 0x0F | .timestamp64 => 0x10 | .time64 => 0x11
  | .utf8 => 0x12 | .binary => 0x13 | .fixedBinary => 0x14 | .packedDecimal => 0x15

/-- The type of a slot, column, constant or parameter: type code, param_a, param_b, fixed_len (Table 2.2) and nullability. -/
structure SlotTy where
  ty : ColType
  a : Nat := 0
  b : Nat := 0
  len : Nat := 0
  nullable : Bool := false
deriving DecidableEq, Repr, Inhabited

/-- Same type_code, param_a, param_b and fixed_len. -/
def SlotTy.same (x y : SlotTy) : Bool := x.ty == y.ty && x.a == y.a && x.b == y.b && x.len == y.len

/-- The type parameters Table 2.2 allows for a type. -/
def SlotTy.ok (t : SlotTy) : Bool :=
  match t.ty with
  | .decimal128 => decide (1 ≤ t.a) && decide (t.a ≤ 38) && decide (t.b ≤ t.a) && t.len == 0
  | .packedDecimal => decide (1 ≤ t.a) && decide (t.a ≤ 31) && t.b == 0 && t.len == 0
  | .timestamp64 | .time64 => decide (t.a ≤ 1) && t.b == 0 && t.len == 0
  | .fixedBinary => t.a == 0 && t.b == 0 && decide (1 ≤ t.len) && decide (t.len ≤ 256)
  | _ => t.a == 0 && t.b == 0 && t.len == 0

/-- The width in bytes of a fixed-width value in PLAIN form (R87); none for UTF8 and BINARY. A BOOL value is held as one byte. -/
def SlotTy.width (t : SlotTy) : Option Nat :=
  match t.ty with
  | .bool | .int8 | .uint8 => some 1
  | .int16 | .uint16 | .float16 | .bfloat16 => some 2
  | .int32 | .uint32 | .float32 | .date32 => some 4
  | .int64 | .uint64 | .float64 | .timestamp64 | .time64 => some 8
  | .decimal128 | .packedDecimal => some 16
  | .utf8 | .binary => none
  | .fixedBinary => some t.len

/-- The classes of types that compare alike. -/
inductive TyKind where
  | bool | sint | uint | float | decimal | packed | bytes
deriving DecidableEq, Repr, Inhabited

def ColType.kind : ColType → TyKind
  | .bool => .bool
  | .int8 | .int16 | .int32 | .int64 | .date32 | .timestamp64 | .time64 => .sint
  | .uint8 | .uint16 | .uint32 | .uint64 => .uint
  | .float16 | .bfloat16 | .float32 | .float64 => .float
  | .decimal128 => .decimal
  | .packedDecimal => .packed
  | .utf8 | .binary | .fixedBinary => .bytes

/-- The integer types INT8 to UINT64, which pair with one another as keys (R181). -/
def ColType.isInt : ColType → Bool
  | .int8 | .int16 | .int32 | .int64 | .uint8 | .uint16 | .uint32 | .uint64 => true
  | _ => false

/-- The format of a floating-point type. -/
def ColType.ffmt : ColType → FFmt
  | .float16 => fmtF16
  | .bfloat16 => fmtBF16
  | .float32 => fmtF32
  | _ => fmtF64

/-- Nibble k of a packed decimal (R266): bits [3:0] of byte k / 2 when k is even, bits [7:4] when k is odd. -/
def nibble (v : Bytes) (k : Nat) : Nat :=
  let b := (v.getD (k / 2) 0).toNat
  if k % 2 = 0 then b % 16 else b / 16

/-- The magnitude of the digits 1 to 31, each at face value 0 to 15 (R640). -/
def packedMag (v : Bytes) : Nat := (List.range 31).foldl (fun acc i => acc + nibble v (i + 1) * 10 ^ i) 0

/-- A negative sign nibble: 0xB or 0xD (R267). -/
def packedNeg (v : Bytes) : Bool := nibble v 0 == 0xB || nibble v 0 == 0xD

/-- The value the nibbles give, without a validity check (R640). -/
def packedInt (v : Bytes) : Int := if packedNeg v then -(Int.ofNat (packedMag v)) else Int.ofNat (packedMag v)

/-- The lowest nibble that makes an n-digit value invalid under R267, if any: digits 1 to n above 9, a non-zero nibble above n,
a sign nibble below 0xA. -/
def packedBad (n : Nat) (v : Bytes) : Option Nat :=
  (List.range 32).find? (fun k =>
    if k = 0 then decide (nibble v 0 < 0xA)
    else if k ≤ n then decide (9 < nibble v k)
    else nibble v k != 0)

/-- R267: every digit, every nibble above n and the sign are well formed. -/
def packedValid (n : Nat) (v : Bytes) : Bool := (packedBad n v).isNone

/-- The n low digits of a magnitude with a preferred sign, as 16 stored bytes (R266, R267). -/
def packedOf (n : Nat) (neg : Bool) (mag : Nat) : Bytes :=
  let nib := fun k => if k = 0 then (if neg then 0xD else 0xC) else if k ≤ n then mag / 10 ^ (k - 1) % 10 else 0
  (List.range 16).map (fun i => BitVec.ofNat 8 (nib (2 * i) + 16 * nib (2 * i + 1)))

/-- The exact integer of a value of an integer, DECIMAL128 (raw) or PACKED_DECIMAL type; 0 or 1 for BOOL. -/
def valInt (t : ColType) (v : Bytes) : Int :=
  match t.kind with
  | .sint | .decimal => signed (8 * v.length) (leNat v)
  | .packed => packedInt v
  | _ => Int.ofNat (leNat v)

/-- The place of a value in the key order of Table 6.4, as an integer; byte strings use `cmpBytes`. -/
def keyRank (t : ColType) (v : Bytes) : Int :=
  match t.kind with
  | .float => Int.ofNat (t.ffmt.orderKey (leNat v))
  | _ => valInt t v

/-- Key order of two non-null values of one type (R186, Table 6.4). -/
def keyCmp (t : ColType) (x y : Bytes) : Ordering :=
  match t.kind with
  | .bytes => cmpBytes x y
  | _ => compare (keyRank t x) (keyRank t y)

/-- The comparison predicates use (R57, R58, R273): none when either value is a NaN; −0.0 equals +0.0. -/
def predCmp (t : ColType) (x y : Bytes) : Option Ordering :=
  match t.kind with
  | .float => t.ffmt.compare (leNat x) (leNat y)
  | .bytes => some (cmpBytes x y)
  | _ => some (compare (valInt t x) (valInt t y))

/-- The truth of a comparison operator (codes 0 to 5 of Table 5.3) on an order; with a NaN operand only ≠ is true (R273). -/
def cmpOp (op : Nat) (o : Option Ordering) : Bool :=
  match op, o with
  | 0, some .eq => true
  | 1, some .eq => false
  | 1, _ => true
  | 2, some .lt => true
  | 3, some .lt => true
  | 3, some .eq => true
  | 4, some .gt => true
  | 5, some .gt => true
  | 5, some .eq => true
  | _, _ => false

/-- A test of Table 5.3 (codes 0 to 9) on a row's value over its operands, under R110 and R273: a comparison with a null row is
unknown and selects nothing; a null operand makes the comparison unknown too. -/
def testVal (t : ColType) (op : Nat) (v : Val) (operands : List Val) : Bool :=
  match op with
  | 8 => v.isNone
  | 9 => v.isSome
  | 6 =>
    match v, operands with
    | some x, some lo :: some hi :: _ => cmpOp 5 (predCmp t x lo) && cmpOp 3 (predCmp t x hi)
    | _, _ => false
  | 7 =>
    match v with
    | some x => operands.any (fun o => match o with | some c => cmpOp 0 (predCmp t x c) | none => false)
    | none => false
  | _ =>
    match v, operands with
    | some x, some c :: _ => decide (op < 6) && cmpOp op (predCmp t x c)
    | _, _ => false

/-- Whether a value is a NaN of its type. -/
def isNaNVal (t : ColType) (v : Bytes) : Bool := t.kind == .float && t.ffmt.isNaN (leNat v)

/-- Normalization of a key slot: class, length and words (Table 6.2). -/
def keyWords (t : ColType) (v : Val) : Nat × Nat × List (BitVec 64) :=
  match v with
  | none => (3, 0, [])
  | some b =>
    match t.kind with
    | .bool | .uint => (0, 0, [BitVec.ofNat 64 (leNat b)])
    | .sint => (0, 0, [BitVec.ofInt 64 (valInt t b)])
    | .float =>
      let x := leNat b
      let w := if t.ffmt.isNaN x then 0x7FF8000000000000 else if t.ffmt.mag x = 0 then 0 else t.ffmt.widen64 x
      (1, 0, [BitVec.ofNat 64 w])
    | .decimal | .packed =>
      let w := BitVec.ofInt 128 (valInt t b)
      (2, 0, [w.extractLsb' 0 64, w.extractLsb' 64 64])
    | .bytes => (4, b.length, (List.range (ceilDiv b.length 8)).map (fun i => BitVec.ofNat 64 (fieldAt b (8 * i) 8)))

/-- One absorption of R183. -/
def absorb (h w : BitVec 64) : BitVec 64 :=
  rotl64 (h ^^^ (rotl64 (w * 0xC3A5E1F92B7D4A61#64) 31 * 0x8D2F6B13E94C07B5#64)) 27 * 5#64 + 0x52DCE729#64

/-- keyhash64 of a key (R183). -/
def keyhash64 (key : List (ColType × Val)) : BitVec 64 :=
  let h0 := 0x51E96A3B0C4D72E1#64 ^^^ BitVec.ofNat 64 key.length
  let h1 := key.foldl (fun h s =>
    let n := keyWords s.1 s.2
    n.2.2.foldl absorb (absorb h (BitVec.ofNat 64 (n.2.1 * 256 + n.1)))) h0
  let h2 := (h1 ^^^ (h1 >>> 33)) * 0xF1B35A97C26D8E43#64
  let h3 := (h2 ^^^ (h2 >>> 29)) * 0xB7E409D36A1FC52D#64
  h3 ^^^ (h3 >>> 32)

/-- Key equality of two slots (Table 6.1); `nulls` says whether a null equals a null. -/
def slotEq (nulls : Bool) (t1 t2 : ColType) (x y : Val) : Bool :=
  match x, y with
  | none, none => nulls
  | some a, some b =>
    match t1.kind with
    | .bytes => a == b
    | .float => (keyWords t1 (some a)).2.2 == (keyWords t2 (some b)).2.2
    | _ => valInt t1 a == valInt t2 b
  | _, _ => false

/-- Key equality (R182). -/
def keyEq (nulls : Bool) : List (ColType × Val) → List (ColType × Val) → Bool
  | [], [] => true
  | (t1, x) :: xs, (t2, y) :: ys => slotEq nulls t1 t2 x y && keyEq nulls xs ys
  | _, _ => false

/-- Key order of two slots with direction and null placement (R186). -/
def slotCmp (t : ColType) (desc nullsFirst : Bool) (x y : Val) : Ordering :=
  match x, y with
  | none, none => .eq
  | none, some _ => if nullsFirst then .lt else .gt
  | some _, none => if nullsFirst then .gt else .lt
  | some a, some b => if desc then (keyCmp t a b).swap else keyCmp t a b

/-- The tie order of R187: a null first, then the PLAIN bytes as unsigned byte strings. -/
def plainCmp (x y : Val) : Ordering :=
  match x, y with
  | none, none => .eq
  | none, some _ => .lt
  | some _, none => .gt
  | some a, some b => cmpBytes a b

/-- The first unequal order of a list. -/
def firstOrd : List Ordering → Ordering
  | [] => .eq
  | .eq :: r => firstOrd r
  | o :: _ => o

/-- The bytes of an integer of a fixed-width type, wrapped to its width. -/
def valOfInt (t : SlotTy) (x : Int) : Bytes :=
  let w := (t.width).getD 8
  natLE w (wrapNat (8 * w) x)

/-- Well-formed UTF-8: none, or the offset of the first byte that breaks it (R437, Table 2.10). -/
def utf8Bad (b : Bytes) : Option Nat := go b.length 0 b
where
  /-- The scan, with fuel for the bytes left. -/
  go : Nat → Nat → Bytes → Option Nat
    | 0, _, _ => none
    | _, _, [] => none
    | fuel + 1, k, x :: xs =>
      let v := x.toNat
      let cont := fun (i : Nat) (lo hi : Nat) => let c := (xs.getD i 0).toNat; decide (i < xs.length) && decide (lo ≤ c) && decide (c ≤ hi)
      if v < 0x80 then go fuel (k + 1) xs
      else if v < 0xC2 then some k
      else if v < 0xE0 then (if cont 0 0x80 0xBF then go fuel (k + 2) (xs.drop 1) else some k)
      else if v < 0xF0 then
        let lo := if v = 0xE0 then 0xA0 else 0x80
        let hi := if v = 0xED then 0x9F else 0xBF
        (if cont 0 lo hi && cont 1 0x80 0xBF then go fuel (k + 3) (xs.drop 2) else some k)
      else if v < 0xF5 then
        let lo := if v = 0xF0 then 0x90 else 0x80
        let hi := if v = 0xF4 then 0x8F else 0xBF
        (if cont 0 lo hi && cont 1 0x80 0xBF && cont 2 0x80 0xBF then go fuel (k + 4) (xs.drop 3) else some k)
      else some k

end Sys2Proof.Machine
end

