-- ==== Sys2Proof/Machine/XWords.lean ====
section
/-!
DEFINITION. Sys2Proof/Machine/XWords.lean: the instruction words of the expression unit (07_expression_unit.md): types, operations, shapes
and fields; and the small records that the operands of other commands are made of.
-/
namespace Sys2Proof.Machine

/-! ### Expression-unit instructions (07_expression_unit.md) -/

/-- Instruction types (Table 7.2); code 15 is reserved. -/
inductive XTy where
  | i8 | i16 | i32 | i64 | u8 | u16 | u32 | u64 | f16 | bf16 | f32 | f64 | d128 | pdec | str
deriving DecidableEq, Repr, Inhabited

/-- The type of a type code (Table 7.2). -/
def XTy.ofCode : Nat → Option XTy
  | 0 => some .i8 | 1 => some .i16 | 2 => some .i32 | 3 => some .i64
  | 4 => some .u8 | 5 => some .u16 | 6 => some .u32 | 7 => some .u64
  | 8 => some .f16 | 9 => some .bf16 | 10 => some .f32 | 11 => some .f64
  | 12 => some .d128 | 13 => some .pdec | 14 => some .str
  | _ => none

/-- The code of a type. -/
def XTy.code : XTy → Nat
  | .i8 => 0 | .i16 => 1 | .i32 => 2 | .i64 => 3 | .u8 => 4 | .u16 => 5 | .u32 => 6 | .u64 => 7
  | .f16 => 8 | .bf16 => 9 | .f32 => 10 | .f64 => 11 | .d128 => 12 | .pdec => 13 | .str => 14

/-- Registers in a group of the type (Table 7.2): lanes are 32 times this many bits. -/
def XTy.group : XTy → Nat
  | .i64 | .u64 | .f64 | .str => 2
  | .d128 | .pdec => 4
  | _ => 1

/-- The fields of an instruction word below class and op (Tables 7.3 and 7.4). -/
structure XFields where
  ty : BitVec 4 := 0
  pe : Bool := false
  pm : BitVec 3 := 0
  d : BitVec 5 := 0
  a : BitVec 5 := 0
  b : BitVec 5 := 0
  c : BitVec 5 := 0
  mod : BitVec 4 := 0
  imm : BitVec 24 := 0
deriving DecidableEq, Repr, Inhabited

/-- A fault met by one execution of an instruction (R250, R252): the lowest faulting lane, the cause code of Table 7.9 and the
device virtual address of the lane's element. Whether an execution meets one is the memory system's doing, so it comes
with the command (DESIGN CHOICE, notes/assumptions/29.md). -/
structure XFault where
  lane : Nat
  cause : Nat
  addr : BitVec 64
deriving DecidableEq, Repr, Inhabited

/-- The operations of the expression unit (Table 7.5). `endS` is END, `outV` OUT; `strSsub` and `scalSsub` are the two
instructions the table spells SSUB, of classes STR and SCAL. -/
inductive XOp where
  | nop | endS | brz | brnz | brmz | setsel | outV | mout | eclr | vld | vldf | vld2 | vld3 | vld4 | tst
  | vrow | mld | vldn | vbc | vbp | slc | slp | sli | vbs | viota | add | sub | and | or | xor | shl | shr
  | min | max | abs | neg | not | mul | mulh | wmul | dot8 | dot16 | div | rem | divrem | fadd | fsub | fmul
  | fdiv | fsqrt | fma | fmin | fmax | fabs | fneg | cvt | dadd | dsub | dmul | ddiv | dscale | padd | psub
  | pchk | cmp | vsel | valid | setnull | mand | mor | mxor | mandn | mnot | mmov | mcnt | merr | movf
  | vgath | vscat | vlds | vsts | scmp | spre | ssuf | sfind | slen | strSsub | rpm | rpx | cml | sadd
  | scalSsub | sand | sor | sxor | sshl | sshr | smul | smov | slt | sltu | radd | rmin | rmax
deriving DecidableEq, Repr, Inhabited

/-- What a field of an instruction word names (Table 7.4): nothing (it must be zero), a V group, an M register, an S register
or a bare number. -/
inductive XField where
  | unused | v | m | s | num
deriving DecidableEq, Repr, Inhabited

/-- The shape of an instruction: its class and op (Table 7.5), whether it names a type (R639), what d, a, b and c name, and
whether mod, imm and the predicate enable are used (R232). -/
structure XShape where
  cls : Nat
  op : Nat
  ty : Bool
  d : XField
  a : XField
  b : XField
  c : XField
  mod : Bool
  imm : Bool
  pe : Bool
deriving DecidableEq, Repr, Inhabited

/-- The shape of each operation, row by row of Table 7.5. -/
def XOp.shape : XOp → XShape
  | .nop => ⟨0, 0, false, .unused, .unused, .unused, .unused, false, false, false⟩
  | .endS => ⟨0, 1, false, .unused, .unused, .unused, .unused, false, false, false⟩
  | .brz => ⟨0, 2, false, .unused, .s, .unused, .unused, false, true, false⟩
  | .brnz => ⟨0, 3, false, .unused, .s, .unused, .unused, false, true, false⟩
  | .brmz => ⟨0, 4, false, .unused, .m, .unused, .unused, false, true, false⟩
  | .setsel => ⟨0, 5, false, .unused, .m, .unused, .unused, false, false, false⟩
  | .outV => ⟨0, 6, true, .unused, .v, .unused, .unused, false, true, false⟩
  | .mout => ⟨0, 7, false, .unused, .m, .m, .unused, false, true, false⟩
  | .eclr => ⟨0, 8, false, .unused, .m, .unused, .unused, false, false, false⟩
  | .vld => ⟨1, 0, true, .v, .unused, .unused, .unused, false, true, true⟩
  | .vldf => ⟨1, 1, true, .v, .unused, .num, .unused, true, true, true⟩
  | .vld2 => ⟨1, 2, true, .v, .unused, .unused, .unused, false, true, true⟩
  | .vld3 => ⟨1, 3, true, .v, .unused, .unused, .unused, false, true, true⟩
  | .vld4 => ⟨1, 4, true, .v, .unused, .unused, .unused, false, true, true⟩
  | .tst => ⟨1, 5, true, .m, .unused, .num, .num, true, true, true⟩
  | .vrow => ⟨1, 6, true, .v, .unused, .unused, .unused, false, false, true⟩
  | .mld => ⟨1, 7, false, .m, .unused, .unused, .unused, false, true, true⟩
  | .vldn => ⟨1, 8, false, .m, .unused, .unused, .unused, false, true, true⟩
  | .vbc => ⟨2, 0, true, .v, .unused, .unused, .unused, false, true, true⟩
  | .vbp => ⟨2, 1, true, .v, .unused, .unused, .unused, false, true, true⟩
  | .slc => ⟨2, 2, false, .s, .unused, .unused, .unused, false, true, false⟩
  | .slp => ⟨2, 3, false, .s, .unused, .unused, .unused, false, true, false⟩
  | .sli => ⟨2, 4, false, .s, .unused, .unused, .unused, false, true, false⟩
  | .vbs => ⟨2, 5, true, .v, .s, .unused, .unused, false, false, true⟩
  | .viota => ⟨2, 6, true, .v, .unused, .unused, .unused, false, false, true⟩
  | .add => ⟨3, 0, true, .v, .v, .v, .unused, false, false, true⟩
  | .sub => ⟨3, 1, true, .v, .v, .v, .unused, false, false, true⟩
  | .and => ⟨3, 2, true, .v, .v, .v, .unused, false, false, true⟩
  | .or => ⟨3, 3, true, .v, .v, .v, .unused, false, false, true⟩
  | .xor => ⟨3, 4, true, .v, .v, .v, .unused, false, false, true⟩
  | .shl => ⟨3, 5, true, .v, .v, .v, .unused, false, false, true⟩
  | .shr => ⟨3, 6, true, .v, .v, .v, .unused, false, false, true⟩
  | .min => ⟨3, 7, true, .v, .v, .v, .unused, false, false, true⟩
  | .max => ⟨3, 8, true, .v, .v, .v, .unused, false, false, true⟩
  | .abs => ⟨3, 9, true, .v, .v, .unused, .unused, false, false, true⟩
  | .neg => ⟨3, 10, true, .v, .v, .unused, .unused, false, false, true⟩
  | .not => ⟨3, 11, true, .v, .v, .unused, .unused, false, false, true⟩
  | .mul => ⟨4, 0, true, .v, .v, .v, .unused, false, false, true⟩
  | .mulh => ⟨4, 1, true, .v, .v, .v, .unused, false, false, true⟩
  | .wmul => ⟨4, 2, true, .v, .v, .v, .unused, false, false, true⟩
  | .dot8 => ⟨4, 3, true, .v, .v, .v, .unused, false, false, true⟩
  | .dot16 => ⟨4, 4, true, .v, .v, .v, .unused, false, false, true⟩
  | .div => ⟨5, 0, true, .v, .v, .v, .unused, false, false, true⟩
  | .rem => ⟨5, 1, true, .v, .v, .v, .unused, false, false, true⟩
  | .divrem => ⟨5, 2, true, .v, .v, .v, .v, false, false, true⟩
  | .fadd => ⟨6, 0, true, .v, .v, .v, .unused, false, false, true⟩
  | .fsub => ⟨6, 1, true, .v, .v, .v, .unused, false, false, true⟩
  | .fmul => ⟨6, 2, true, .v, .v, .v, .unused, false, false, true⟩
  | .fdiv => ⟨6, 3, true, .v, .v, .v, .unused, false, false, true⟩
  | .fsqrt => ⟨6, 4, true, .v, .v, .unused, .unused, false, false, true⟩
  | .fma => ⟨6, 5, true, .v, .v, .v, .v, false, false, true⟩
  | .fmin => ⟨6, 6, true, .v, .v, .v, .unused, false, false, true⟩
  | .fmax => ⟨6, 7, true, .v, .v, .v, .unused, false, false, true⟩
  | .fabs => ⟨6, 8, true, .v, .v, .unused, .unused, false, false, true⟩
  | .fneg => ⟨6, 9, true, .v, .v, .unused, .unused, false, false, true⟩
  | .cvt => ⟨7, 0, true, .v, .v, .unused, .unused, true, true, true⟩
  | .dadd => ⟨8, 0, true, .v, .v, .v, .unused, false, false, true⟩
  | .dsub => ⟨8, 1, true, .v, .v, .v, .unused, false, false, true⟩
  | .dmul => ⟨8, 2, true, .v, .v, .v, .unused, false, false, true⟩
  | .ddiv => ⟨8, 3, true, .v, .v, .v, .unused, false, true, true⟩
  | .dscale => ⟨8, 4, true, .v, .v, .unused, .unused, false, true, true⟩
  | .padd => ⟨8, 5, true, .v, .v, .v, .unused, false, false, true⟩
  | .psub => ⟨8, 6, true, .v, .v, .v, .unused, false, false, true⟩
  | .pchk => ⟨8, 7, true, .unused, .v, .unused, .unused, false, false, true⟩
  | .cmp => ⟨9, 0, true, .m, .v, .v, .unused, true, false, true⟩
  | .vsel => ⟨9, 1, true, .v, .v, .v, .m, false, false, true⟩
  | .valid => ⟨9, 2, true, .m, .v, .unused, .unused, false, false, true⟩
  | .setnull => ⟨9, 3, true, .v, .m, .unused, .unused, false, false, true⟩
  | .mand => ⟨10, 0, false, .m, .m, .m, .unused, false, false, true⟩
  | .mor => ⟨10, 1, false, .m, .m, .m, .unused, false, false, true⟩
  | .mxor => ⟨10, 2, false, .m, .m, .m, .unused, false, false, true⟩
  | .mandn => ⟨10, 3, false, .m, .m, .m, .unused, false, false, true⟩
  | .mnot => ⟨10, 4, false, .m, .m, .unused, .unused, false, false, true⟩
  | .mmov => ⟨10, 5, false, .m, .m, .unused, .unused, false, false, true⟩
  | .mcnt => ⟨10, 6, false, .s, .m, .unused, .unused, false, false, false⟩
  | .merr => ⟨10, 7, false, .m, .unused, .unused, .unused, false, false, true⟩
  | .movf => ⟨10, 8, false, .m, .unused, .unused, .unused, false, false, true⟩
  | .vgath => ⟨11, 0, true, .v, .v, .unused, .unused, true, true, true⟩
  | .vscat => ⟨11, 1, true, .unused, .v, .v, .unused, false, false, true⟩
  | .vlds => ⟨11, 2, true, .v, .s, .unused, .unused, false, false, true⟩
  | .vsts => ⟨11, 3, true, .unused, .s, .v, .unused, false, false, true⟩
  | .scmp => ⟨12, 0, true, .m, .v, .v, .unused, true, false, true⟩
  | .spre => ⟨12, 1, true, .m, .v, .v, .unused, false, false, true⟩
  | .ssuf => ⟨12, 2, true, .m, .v, .v, .unused, false, false, true⟩
  | .sfind => ⟨12, 3, true, .v, .v, .v, .unused, false, false, true⟩
  | .slen => ⟨12, 4, true, .v, .v, .unused, .unused, false, false, true⟩
  | .strSsub => ⟨12, 5, true, .v, .v, .v, .v, false, false, true⟩
  | .rpm => ⟨13, 0, true, .m, .v, .unused, .unused, false, true, true⟩
  | .rpx => ⟨13, 1, true, .v, .v, .unused, .unused, false, true, true⟩
  | .cml => ⟨13, 2, true, .v, .v, .unused, .unused, false, true, true⟩
  | .sadd => ⟨14, 0, false, .s, .s, .s, .unused, false, false, false⟩
  | .scalSsub => ⟨14, 1, false, .s, .s, .s, .unused, false, false, false⟩
  | .sand => ⟨14, 2, false, .s, .s, .s, .unused, false, false, false⟩
  | .sor => ⟨14, 3, false, .s, .s, .s, .unused, false, false, false⟩
  | .sxor => ⟨14, 4, false, .s, .s, .s, .unused, false, false, false⟩
  | .sshl => ⟨14, 5, false, .s, .s, .s, .unused, false, false, false⟩
  | .sshr => ⟨14, 6, false, .s, .s, .s, .unused, false, false, false⟩
  | .smul => ⟨14, 7, false, .s, .s, .s, .unused, false, false, false⟩
  | .smov => ⟨14, 8, false, .s, .s, .unused, .unused, false, false, false⟩
  | .slt => ⟨14, 9, false, .s, .s, .s, .unused, false, false, false⟩
  | .sltu => ⟨14, 10, false, .s, .s, .s, .unused, false, false, false⟩
  | .radd => ⟨15, 0, true, .s, .v, .unused, .unused, false, false, true⟩
  | .rmin => ⟨15, 1, true, .s, .v, .unused, .unused, false, false, true⟩
  | .rmax => ⟨15, 2, true, .s, .v, .unused, .unused, false, false, true⟩

/-- The operations of a class, in op order (Table 7.5); used by the decoder. -/
def xClass : Nat → List XOp
  | 0 => [.nop, .endS, .brz, .brnz, .brmz, .setsel, .outV, .mout, .eclr]
  | 1 => [.vld, .vldf, .vld2, .vld3, .vld4, .tst, .vrow, .mld, .vldn]
  | 2 => [.vbc, .vbp, .slc, .slp, .sli, .vbs, .viota]
  | 3 => [.add, .sub, .and, .or, .xor, .shl, .shr, .min, .max, .abs, .neg, .not]
  | 4 => [.mul, .mulh, .wmul, .dot8, .dot16]
  | 5 => [.div, .rem, .divrem]
  | 6 => [.fadd, .fsub, .fmul, .fdiv, .fsqrt, .fma, .fmin, .fmax, .fabs, .fneg]
  | 7 => [.cvt]
  | 8 => [.dadd, .dsub, .dmul, .ddiv, .dscale, .padd, .psub, .pchk]
  | 9 => [.cmp, .vsel, .valid, .setnull]
  | 10 => [.mand, .mor, .mxor, .mandn, .mnot, .mmov, .mcnt, .merr, .movf]
  | 11 => [.vgath, .vscat, .vlds, .vsts]
  | 12 => [.scmp, .spre, .ssuf, .sfind, .slen, .strSsub]
  | 13 => [.rpm, .rpx, .cml]
  | 14 => [.sadd, .scalSsub, .sand, .sor, .sxor, .sshl, .sshr, .smul, .smov, .slt, .sltu]
  | 15 => [.radd, .rmin, .rmax]
  | _ => []

/-! ### Operands of the other commands -/

/-- A VXP datagram as it reaches a port half (R338): the half, the source address, whether the network marked it CE, its bytes. -/
structure VPkt where
  half : Nat
  addr : Bytes
  ce : Bool
  data : Bytes
deriving DecidableEq, Repr, Inhabited

/-- A mailbox request (R451, R453, Table 15.4) as it stands in the request area when its doorbell is rung: seq of the doorbell, the
header's cmd_version, RSV byte, payload_bytes and expected_gen, the payload, and what a read of the host buffer the payload names
returns (none: an error or poisoned data). -/
structure MbReq where
  seq : Nat
  ver : Nat := 1
  rsv : Nat := 0
  bytes : Nat
  gen : Nat := 0
  payload : Bytes := []
  buf : Option Bytes := none
deriving DecidableEq, Repr, Inhabited

/-- A submission entry as the port arbiter reads it, with the fragment tables of its chain in order (none: a read that returned an error
or poisoned data). -/
structure FetchEnt where
  entry : Option Bytes
  frags : List (Option Bytes) := []
deriving DecidableEq, Repr, Inhabited

end Sys2Proof.Machine
end

