-- ==== Sys2Proof/Machine/StExu.lean ====
section
/-!
DEFINITION. Sys2Proof/Machine/StExu.lean: the state of one expression unit (07_expression_unit.md, 08_arithmetic.md) and of
the pattern engine and care-mask table of its hearth (09_pattern_match.md).
-/
namespace Sys2Proof.Machine

/-- The static annotation of a register group: precision and scale of a D128, digits (in `p`) of a PDEC (R234, R260) (DEDUCED, notes/assumptions/15.md). -/
structure XAnn where
  p : Nat := 0
  s : Nat := 0
deriving DecidableEq, Repr, Inhabited

/-- The record of one row of the slice (R282): flags, first cause (0 none) and the CODE offset of the first cause. ERR and OVF
themselves are the unit's two masks. -/
structure RowRec where
  flags : FFlags := 0
  cause : Nat := 0
  word : Nat := 0
deriving DecidableEq, Repr, Inhabited

/-- A slot of a billet: its type and one value for each billet row. -/
structure XSlot where
  ty : SlotTy
  vals : List Val
deriving DecidableEq, Repr, Inhabited

/-- A billet as a code block sees it: slots by number, row count, selection on entry, and row numbers where it carries them. -/
structure XBillet where
  slots : List (Nat × XSlot) := []
  rows : Nat := 0
  sel : List Bool := []
  rowNums : Option (List Nat) := none
deriving DecidableEq, Repr, Inhabited

/-- The role of a code block (Table 7.6). -/
inductive XRole where
  | none | filter | probe | store | project
deriving DecidableEq, Repr, Inhabited

/-- An automaton (R287): classes of the 256 byte values, flags of each state, transition words. -/
structure Automaton where
  classCount : Nat := 1
  initial : Nat := 0
  classMap : List Nat := []
  flags : List Nat := []
  trans : List Nat := []
deriving DecidableEq, Repr, Inhabited

/-- An entry of a user care-mask table: key and care words, value, priority (R295). -/
structure CareEntry where
  key : List (BitVec 64) := []
  care : List (BitVec 64) := []
  value : Nat := 0
  prio : Nat := 0
deriving DecidableEq, Repr, Inhabited

/-- One bank of a table: entry width in units (1, 2 or 4) and its entries. -/
structure CareBank where
  width : Nat := 1
  entries : List CareEntry := []
deriving DecidableEq, Repr, Inhabited

/-- A care-mask table: miss value and banks in table-relative order (Table 9.5). -/
structure CareTable where
  miss : Nat := 0
  banks : List CareBank := []
deriving DecidableEq, Repr, Inhabited

/-- What a code block runs over: its role, the billets of the charge, constants, parameters, automata and tables of the image,
rounding and ftz (R271), the block's words and CODE offset, the stage number and the PROJECT records by output number. -/
structure XCtx where
  role : XRole := .none
  billets : List XBillet := []
  consts : List (SlotTy × Val) := []
  params : List (SlotTy × Val) := []
  autos : List Automaton := []
  cares : List CareTable := []
  mode : RMode := .tiesToEven
  ftz : Bool := false
  code : List (BitVec 64) := []
  codeOff : Nat := 0
  stage : Nat := 0
  outs : List (Nat × SlotTy) := []
deriving DecidableEq, Repr, Inhabited

/-- What one slice left (R231, R236): the mask of its rows, ERR and OVF, the selection SETSEL wrote, the outputs by number and
the row records. -/
structure XRes where
  bil : Nat
  slice : Nat
  m0 : Mask
  err : Mask
  ovf : Mask
  sel : Option Mask
  outs : List (Nat × List Val)
  recs : Tab RowRec
deriving DecidableEq, Repr, Inhabited

/-- An instruction that waits on a resolvable fault (R252). -/
structure XPend where
  op : XOp
  w : XFields
  flt : XFault
  attempt : Nat
deriving DecidableEq, Repr, Inhabited

/-- The states of the wide unit (Table 7.8, wide_state). -/
inductive WideSt where
  | off | waking | ready | poweringDown
deriving DecidableEq, Repr, Inhabited

/-- A ternary unit of the care-mask table: 64 key bits and 64 care bits (R292). -/
structure CareUnit where
  key : BitVec 64 := 0
  care : BitVec 64 := 0
deriving DecidableEq, Repr, Inhabited

/-- The priority and value words of an entry; an entry past entry_count is not valid (R297). -/
structure CareWord where
  valid : Bool := false
  prio : Nat := 0
  value : Nat := 0
deriving DecidableEq, Repr, Inhabited

/-- The care-mask table of a hearth: 4 banks of 4,096 units (key bank * 4096 + unit), entry words (bank * 4096 + entry), the
width of each bank, which user table bank each of banks 1 to 3 holds, the image they are of and their verification copy in the scratchpad, and
the scrub position: units, then entry words (R292, R297, R299). -/
structure Cmt where
  units : Tab CareUnit := []
  words : Tab CareWord := []
  widths : Tab Nat := []
  user : List (Nat × Nat) := []
  image : Bytes := []
  copy : List CareTable := []
  sysLoaded : Bool := false
  scrubPos : Nat := 0
deriving DecidableEq, Repr, Inhabited

/-- One expression unit (R226, R228, R235, R246, R252). -/
structure Exu where
  /-- V registers: word i of register r is key 128 * r + i. -/
  v : Tab Word := []
  /-- Validity tags, by base register of the group. -/
  vld : Tab Mask := []
  ann : Tab XAnn := []
  /-- M1 to M7. -/
  m : Tab Mask := []
  m0 : Mask := 0
  /-- S1 to S27. -/
  sr : Tab Word64 := []
  err : Mask := 0
  ovf : Mask := 0
  recs : Tab RowRec := []
  /-- Slice scratch, 65,536 bytes (R240). -/
  scratch : Tab Byte := []
  /-- The strings that STR descriptors of this billet name (R242). -/
  heap : List Bytes := []
  sel : Option Mask := none
  outs : List (Nat × List Val) := []
  /-- The word of the block that comes next. -/
  pos : Nat := 0
  bil : Nat := 0
  slice : Nat := 0
  rows : Nat := 0
  firstRow : Option Nat := none
  /-- A slice is being run. -/
  busy : Bool := false
  ctx : XCtx := {}
  results : List XRes := []
  pend : Option XPend := none
  /-- The last execution met an unresolvable fault of its own (R300). -/
  unres : Bool := false
  wide : WideSt := .off
  wakeReq : Bool := false
  fenced : Bool := false
  activeWide : Bool := false
  /-- Bytes the pattern engine consumed and false hits repaired by the instruction, to be counted at its retirement. -/
  rpe : Nat := 0
  fixes : Nat := 0
  cmt : Cmt := {}
deriving DecidableEq, Repr, Inhabited

end Sys2Proof.Machine
end

