-- ==== Sys2Proof/Machine/StMem.lean ====
section
/-!
DEFINITION. Sys2Proof/Machine/StMem.lean: the memory system (12_memory.md): frames, regions and translation entries, the DRAM banks, the
bytes of device memory, the system cache, and the retention and repair of the scratchpads.
-/
namespace Sys2Proof.Machine

/-- What a region is for (R359): a query, or a claim. -/
inductive RegionFor where
  | query (id : Nat)
  | claim (num : Nat)
deriving DecidableEq, Repr, Inhabited

/-- A region (R359): context, number, tier (0 HBM3E, 1 DDR5), first 2 MiB page of its DVAs, pages, lock entry plus 1, and the function's
frame quota when it was opened (R487). -/
structure Region where
  ctx : Nat
  num : Nat
  tier : Nat
  page : Nat
  pages : Nat
  use : RegionFor
  lock : Nat := 0
  cap : Nat := 0xFFFFFFFF
deriving DecidableEq, Repr, Inhabited

/-- A backed translation entry (Table 12.2): context and DVA page; unit is that within its tier. -/
structure XlEntry where
  ctx : Nat
  page : Nat
  tier : Nat
  unit : Nat
  frame : Nat
  writable : Bool := true
  noAlloc : Bool := false
  lock : Nat := 0
deriving DecidableEq, Repr, Inhabited

/-- A memory unit (R358, R365): its state (Table 12.10), capacity in GB, rank or stack-ID bits, whether its devices are x4, frames
freed and not yet zeroed, frames retired, rows repaired and repairs left, where the patrol scrub stands, and whether it takes no new frames
(R371). -/
structure MemUnit where
  state : Nat := 0
  gb : Nat := 0
  rk : Nat := 0
  x4 : Bool := true
  selfRefresh : Bool := false
  dirty : List Nat := []
  retired : List Nat := []
  repaired : Nat := 0
  left : Nat := 0xFFFF
  patrol : Nat := 0
  leaving : Bool := false
  /-- Phase updates that wait for a refresh gap; calibrations and trackings run (R370). -/
  phase : Bool := false
  zq : Nat := 0
  dqs : Nat := 0
deriving DecidableEq, Repr, Inhabited

/-- A DRAM bank (R367, R368): the open row, row hits served since it opened, when it was last accessed, its activate table (row, count)
in entry order. -/
structure DBank where
  row : Option Nat := none
  hits : Nat := 0
  last : Nat := 0
  acts : List (Nat × Nat) := []
deriving DecidableEq, Repr, Inhabited

/-- A line in the cache: its line number (tier, unit, offset / 128), its bytes, and whether a range invalidation has marked it stale in
the victim buffer (R384). -/
structure CLine where
  line : Nat
  data : Bytes
  stale : Bool := false
deriving DecidableEq, Repr, Inhabited

/-- A set of a slice (R380, R381): its lines by way, and the bits of its replacement tree. -/
structure CSet where
  ways : Tab (Option CLine) := []
  tree : Nat := 0
deriving DecidableEq, Repr, Inhabited

/-- What goes wrong at a request (Tables 12.7, 12.13): a correctable or uncorrectable data error in the way that hits, a tag parity error
in a way, an error in the victim entry, a correctable (cleared by its write-back or not) or uncorrectable DRAM error with its syndrome. -/
inductive MemErr where
  | none
  | dataCe
  | dataUe
  | tag (way : Nat)
  | victim
  | dramCe (syndrome : Nat) (stuck : Bool)
  | dramUe (syndrome : Nat)
deriving DecidableEq, Repr, Inhabited

/-- Two masters of a hearth's scratchpad that met at one bank in one clock (R374, R375, Table 12.11): the bank, the master of lower priority,
and whether both wrote the same word. -/
structure SpmMeet where
  bank : Nat
  loser : Nat
  sameWord : Bool := false
deriving DecidableEq, Repr, Inhabited

/-- What a charge's attempt has taken on its hearth: its clocks (R316), where masters of the scratchpad met, and whether device memory returned
it poisoned data (R587). When masters meet and what memory returns is the hearth's doing, so it comes with the command (DESIGN CHOICE,
notes/assumptions/170.md). -/
structure Spent where
  clocks : Nat := 0
  meets : List SpmMeet := []
  poison : Bool := false
deriving DecidableEq, Repr, Inhabited

/-- A block that a shared engine has worked on: the engine, and whether device memory returned it poisoned data (R587). -/
structure EngBlock where
  engine : Nat := 0
  poison : Bool := false
deriving DecidableEq, Repr, Inhabited

/-- A way-lock entry (R385): ways held (bit j: way 8 + j) and claim number. -/
structure LockEnt where
  ways : Nat := 0
  valid : Bool := false
  claim : Nat := 0
deriving DecidableEq, Repr, Inhabited

/-- A correctable error seen (R369): unit, bank, row, column, operating second. -/
structure RowErr where
  unit : Nat
  bank : Nat
  row : Nat
  col : Nat
  at_ : Nat
deriving DecidableEq, Repr, Inhabited

/-- The memory system. Units 0 to 3 are the stacks, 4 to 7 the DDR5 pairs. -/
structure MemSt where
  units : Tab MemUnit := []
  regions : List Region := []
  nextRegion : Nat := 0
  entries : List XlEntry := []
  /-- Bytes of device memory, by unit * 2^40 + offset; a frame reads as zeros when it is backed (R360). -/
  bytes : Tab Byte := []
  banks : Tab DBank := []
  errs : List RowErr := []
  /-- Row repairs due: unit and an offset in the row. -/
  due : List (Nat × Nat) := []
  /-- Address-map orders in force (R366). -/
  hbmOrder : Nat := 3
  ddrOrder : Nat := 2
  slices : List Nat := List.range 24
  sets : Tab CSet := []
  /-- Victim buffers by slice, newest first. -/
  victims : Tab (List CLine) := []
  locks : Tab LockEnt := []
  /-- Operating seconds of errors by slice * 16 + way, and fenced ways. -/
  wayErrs : Tab (List Nat) := []
  fenced : Tab Nat := []
  /-- What the last cache read returned: chunk first served, and the line's bytes. -/
  resp : Nat × Bytes := (0, [])
  /-- Whether it returned poisoned data (Table 12.7). -/
  poison : Bool := false
  /-- Banks in retention by hearth, and spare columns used by hearth * 12 + bank. -/
  retained : Tab Nat := []
  spares : Tab Nat := []
deriving DecidableEq, Repr, Inhabited

end Sys2Proof.Machine
end

