-- ==== Sys2Proof/Machine/Flags.lean ====
section
/-!
DEFINITION. Sys2Proof/Machine/Flags.lean: the row marks of the expression unit: cause codes (Table 8.10), the ERR and OVF
masks, the IEEE flags and the row records (R231, R277, R282), and err_flags (Table 8.13).
-/
namespace Sys2Proof.Machine

def causeIntOverflow : Nat := 0x01
def causeDivZero : Nat := 0x02
def causeDivOverflow : Nat := 0x03
def causeFpInvalid : Nat := 0x04
def causeFpDivZero : Nat := 0x05
def causeFpOverflow : Nat := 0x06
def causeDecOverflow : Nat := 0x07
def causePackedInvalid : Nat := 0x08
def causeConvRange : Nat := 0x09
def causeConvNan : Nat := 0x0A
def causeIndexRange : Nat := 0x0B
def causeStringArg : Nat := 0x0C
def causeOperator : Nat := 0x0D
def causeAggOverflow : Nat := 0x0E
def causePrecision : Nat := 0x0F

/-- Whether a cause sets ERR; every other cause sets OVF (Table 8.10). -/
def causeIsErr (c : Nat) : Bool := [0x02, 0x04, 0x05, 0x08, 0x0A, 0x0B, 0x0C, 0x0D].contains c

/-- The causes the IEEE flags of a class FPU operation set (R277). -/
def flagCauses (f : FFlags) : List Nat :=
  (if f.getLsbD 0 then [causeFpInvalid] else []) ++ (if f.getLsbD 1 then [causeFpDivZero] else []) ++
  (if f.getLsbD 2 then [causeFpOverflow] else [])

/-- The lowest of a list of causes: within one instruction the lowest cause code comes first (R282). -/
def leastCause : List Nat → Nat
  | [] => 0
  | c :: cs => if cs.isEmpty then c else min c (leastCause cs)

/-- What one lane of an instruction leaves: its value in register form, validity, IEEE flags and causes. -/
structure LaneOut where
  val : Nat := 0
  valid : Bool := false
  flags : FFlags := 0
  causes : List Nat := []
deriving DecidableEq, Repr, Inhabited

/-- An executed lane with an invalid operand (R229): value zero, invalid, no mark. -/
def LaneOut.null : LaneOut := {}

/-- A valid result with no mark. -/
def LaneOut.ok (x : Nat) : LaneOut := { val := x, valid := true }

/-- A floating-point result with the marks of its flags (R277). -/
def LaneOut.fp (r : Nat × FFlags) : LaneOut := { val := r.1, valid := true, flags := r.2, causes := flagCauses r.2 }

/-- A row record after an event (R282): flags are added; the first cause and its instruction stay. -/
def RowRec.add (r : RowRec) (flags : FFlags) (causes : List Nat) (off : Nat) : RowRec :=
  { flags := r.flags ||| flags,
    cause := if r.cause = 0 then leastCause causes else r.cause,
    word := if r.cause = 0 && !causes.isEmpty then off else r.word }

/-- The row records after the lanes below n have added their events. -/
def addRecs (t : Tab RowRec) (ex : Mask) (f : Nat → LaneOut) (off : Nat) : Nat → Tab RowRec
  | 0 => t
  | n + 1 =>
    let t' := addRecs t ex f off n
    if ex.getLsbD n then tabSet {} t' n ((tabGet {} t' n).add (f n).flags (f n).causes off) else t'

/-- The CODE offset of the instruction at the unit's position. -/
def Exu.off (x : Exu) : Nat := x.ctx.codeOff + 8 * x.pos

/-- The marks of an instruction on the lanes it executes (R231, R282). -/
def Exu.mark (x : Exu) (ex : Mask) (f : Nat → LaneOut) : Exu :=
  { x with
    err := x.err ||| maskOf (fun i => ex.getLsbD i && (f i).causes.any causeIsErr)
    ovf := x.ovf ||| maskOf (fun i => ex.getLsbD i && (f i).causes.any (fun c => !causeIsErr c))
    recs := addRecs x.recs ex f x.off 128 }

/-- err_flags of a row (Table 8.13). -/
def errFlags (err ovf : Bool) (r : RowRec) : Nat :=
  b2n err + 2 * b2n ovf + 4 * r.flags.toNat + 65536 * r.cause

end Sys2Proof.Machine
end

