-- ==== Sys2Proof/Machine/Operands.lean ====
section
/-!
DEFINITION. Sys2Proof/Machine/Operands.lean: the operand forms of the expression unit: register groups (R227), validity tags
and executing lanes (R229), masks (R225, R230), scalars (R228) and values in register form (Table 7.2).
-/
namespace Sys2Proof.Machine

/-- The width in bits an integer type computes at (R256). -/
def XTy.bits : XTy → Nat
  | .i8 | .u8 => 8
  | .i16 | .u16 | .f16 | .bf16 => 16
  | .i32 | .u32 | .f32 => 32
  | .i64 | .u64 | .f64 | .str => 64
  | .d128 | .pdec => 128

/-- A signed integer type. -/
def XTy.isSigned : XTy → Bool
  | .i8 | .i16 | .i32 | .i64 => true
  | _ => false

/-- An integer type. -/
def XTy.isInt : XTy → Bool
  | .i8 | .i16 | .i32 | .i64 | .u8 | .u16 | .u32 | .u64 => true
  | _ => false

/-- A floating-point type. -/
def XTy.isFp : XTy → Bool
  | .f16 | .bf16 | .f32 | .f64 => true
  | _ => false

/-- The format of a floating-point type. -/
def XTy.ffmt : XTy → FFmt
  | .f16 => fmtF16
  | .bf16 => fmtBF16
  | .f32 => fmtF32
  | _ => fmtF64

/-- The instruction type a column type is loaded as (Table 7.2); a BOOL slot has none. -/
def ColType.xty : ColType → Option XTy
  | .bool => none
  | .int8 => some .i8 | .int16 => some .i16 | .int32 | .date32 => some .i32
  | .int64 | .timestamp64 | .time64 => some .i64
  | .uint8 => some .u8 | .uint16 => some .u16 | .uint32 => some .u32 | .uint64 => some .u64
  | .float16 => some .f16 | .bfloat16 => some .bf16 | .float32 => some .f32 | .float64 => some .f64
  | .decimal128 => some .d128 | .packedDecimal => some .pdec
  | .utf8 | .binary | .fixedBinary => some .str

/-- The type a word names; code 15 is never accepted, and reads as I8. -/
def XFields.xty (w : XFields) : XTy := (XTy.ofCode w.ty.toNat).getD .i8

/-- The bits of a lane. -/
def XTy.laneBits (t : XTy) : Nat := 32 * t.group

/-- The integer a lane of an integer type holds. -/
def XTy.toInt (t : XTy) (x : Nat) : Int := if t.isSigned then signed t.bits x else Int.ofNat (x % 2 ^ t.bits)

/-- An exact integer reduced modulo 2^W and extended into the lane (R256, R227). -/
def XTy.ofInt (t : XTy) (z : Int) : Nat :=
  if t.isSigned then wrapNat t.laneBits (signed t.bits (wrapNat t.bits z)) else wrapNat t.bits z

/-- The least value of an integer type. -/
def XTy.minInt (t : XTy) : Int := if t.isSigned then -(Int.ofNat (2 ^ (t.bits - 1))) else 0
/-- The greatest value of an integer type. -/
def XTy.maxInt (t : XTy) : Int := if t.isSigned then Int.ofNat (2 ^ (t.bits - 1)) - 1 else Int.ofNat (2 ^ t.bits) - 1

/-- A group lane read word by word (R227): word j of row i lies at base * 128 + i * g + j. -/
def grpGet (v : Tab Word) (base i g : Nat) : Nat → Nat
  | 0 => 0
  | j + 1 => grpGet v base i g j + (tabGet 0 v (base * 128 + i * g + j)).toNat * 2 ^ (32 * j)

/-- A group lane written word by word. -/
def grpPut (v : Tab Word) (base i g x : Nat) : Nat → Tab Word
  | 0 => v
  | j + 1 => tabSet 0 (grpPut v base i g x j) (base * 128 + i * g + j) (BitVec.ofNat 32 (x / 2 ^ (32 * j)))

/-- The lanes below n that execute, written with their new values. -/
def putLanes (v : Tab Word) (base g : Nat) (ex : Mask) (f : Nat → Nat) : Nat → Tab Word
  | 0 => v
  | n + 1 =>
    let v' := putLanes v base g ex f n
    if ex.getLsbD n then grpPut v' base n g (f n) g else v'

/-- The value of row i in a group. -/
def Exu.lane (x : Exu) (t : XTy) (base i : Nat) : Nat := grpGet x.v base i t.group t.group

/-- The validity of row i in a group (DEDUCED, notes/assumptions/13.md). -/
def Exu.valid (x : Exu) (base i : Nat) : Bool := (tabGet 0 x.vld base).getLsbD i

/-- The static annotation of a group. -/
def Exu.annOf (x : Exu) (base : Nat) : XAnn := tabGet {} x.ann base

/-- A mask register: M0 is the valid-row mask of the slice (R225). -/
def Exu.mGet (x : Exu) (r : Nat) : Mask := if r = 0 then x.m0 else tabGet 0 x.m r

/-- A write of a mask register; M0 is never written (R225). -/
def Exu.mSet (x : Exu) (r : Nat) (k : Mask) : Exu := if r = 0 then x else { x with m := tabSet 0 x.m r k }

/-- A scalar register (R226, R228): S0 reads zero; S28 slice index, S29 rows set in M0, S30 billet rows, S31 row number of the
slice's first row or all ones. -/
def Exu.sGet (x : Exu) (r : Nat) : Word64 :=
  if r = 0 then 0
  else if r = 28 then BitVec.ofNat 64 x.slice
  else if r = 29 then BitVec.ofNat 64 (popCount x.m0)
  else if r = 30 then BitVec.ofNat 64 x.rows
  else if r = 31 then (match x.firstRow with | some n => BitVec.ofNat 64 n | none => BitVec.allOnes 64)
  else tabGet 0 x.sr r

/-- A write of a scalar register: S0 ignores writes, S28 to S31 are read-only. -/
def Exu.sSet (x : Exu) (r : Nat) (v : Word64) : Exu :=
  if r = 0 ∨ 28 ≤ r then x else { x with sr := tabSet 0 x.sr r v }

/-- The lanes an instruction executes (R229): set in M0 and, with the predicate enable, in the named mask. -/
def Exu.execMask (x : Exu) (w : XFields) : Mask := if w.pe then x.m0 &&& x.mGet w.pm.toNat else x.m0

/-- A write of a group on the executing lanes with validity, annotation and marks (R229, R231, R251). -/
def Exu.vec (x : Exu) (w : XFields) (t : XTy) (d : Nat) (an : XAnn) (f : Nat → LaneOut) : Exu :=
  let ex := x.execMask w
  let old := tabGet 0 x.vld d
  { x.mark ex f with
    v := putLanes x.v d t.group ex (fun i => (f i).val) 128
    vld := tabSet 0 x.vld d (maskOf (fun i => if ex.getLsbD i then (f i).valid else old.getLsbD i))
    ann := tabSet {} x.ann d an }

/-- A lane function of one operand under R229: a null operand gives a null. -/
def Exu.un (x : Exu) (t : XTy) (a : Nat) (f : Nat → LaneOut) (i : Nat) : LaneOut :=
  if x.valid a i then f (x.lane t a i) else .null

/-- A lane function of two operands under R229. -/
def Exu.bin (x : Exu) (t : XTy) (a b : Nat) (f : Nat → Nat → LaneOut) (i : Nat) : LaneOut :=
  if x.valid a i && x.valid b i then f (x.lane t a i) (x.lane t b i) else .null

/-- A write of a mask on the executing rows (R230): a row that does not execute keeps its bit. -/
def Exu.mrow (x : Exu) (w : XFields) (f : Nat → Bool) : Exu :=
  let ex := x.execMask w
  let old := x.mGet w.d.toNat
  x.mSet w.d.toNat (maskOf (fun i => if ex.getLsbD i then f i else old.getLsbD i))

/-- A compare: 1 where every operand is valid and the relation holds, marks as the lanes give them (R230, R231). -/
def Exu.cmpRow (x : Exu) (w : XFields) (valid : Nat → Bool) (f : Nat → Bool × List Nat) : Exu :=
  let y := x.mark (x.execMask w) (fun i => if valid i then { causes := (f i).2 } else .null)
  y.mrow w (fun i => valid i && (f i).1)

/-- The bytes a fixed-width value of a type takes in PLAIN form (Table 7.2, R238). -/
def XTy.bytes (t : XTy) : Nat := t.bits / 8

/-- A value's PLAIN bytes in register form (Table 7.2): narrow integers extended, floats zero-extended; strings are put in the
heap by their loader. -/
def XTy.ofPlain (t : XTy) (b : Bytes) : Nat := if t.isInt then t.ofInt (t.toInt (leNat b)) else leNat b % 2 ^ t.laneBits

/-- A lane's value in PLAIN bytes. -/
def Exu.toPlain (x : Exu) (t : XTy) (raw : Nat) : Bytes :=
  match t with
  | .str => x.heap.getD raw []
  | _ => natLE t.bytes raw

/-- The string a lane's descriptor names (R242) (DESIGN CHOICE, notes/assumptions/14.md). -/
def Exu.str (x : Exu) (base i : Nat) : Bytes := x.heap.getD (x.lane .str base i) []

/-- A group of strings written on the executing lanes: their bytes join the billet's heap and the lanes get descriptors. -/
def Exu.vecStr (x : Exu) (w : XFields) (d : Nat) (f : Nat → Option Bytes × List Nat) : Exu :=
  let n := x.heap.length
  let y := x.vec w .str d {} (fun i =>
    match f i with
    | (some _, cs) => { val := n + i, valid := true, causes := cs }
    | (none, cs) => { causes := cs })
  { y with heap := x.heap ++ (List.range 128).map (fun i => ((f i).1).getD []) }

/-- The next word comes next. -/
def Exu.step (x : Exu) : Exu := { x with pos := x.pos + 1 }

/-- The slot of the current billet a word names. -/
def Exu.slot (x : Exu) (n : Nat) : Option XSlot :=
  match x.ctx.billets[x.bil]? with
  | some b => (b.slots.find? (fun p => p.1 == n)).map (·.2)
  | none => none

/-- Row i of the slice in a slot: none where the slot or the row does not exist. -/
def Exu.slotVal (x : Exu) (n i : Nat) : Val :=
  match x.slot n with
  | some c => (c.vals.getD (128 * x.slice + i) none)
  | none => none

/-- The annotation of a slot, constant or parameter type. -/
def annOfTy (t : SlotTy) : XAnn := match t.ty with | .decimal128 => ⟨t.a, t.b⟩ | .packedDecimal => ⟨t.a, 0⟩ | _ => {}

/-- The annotation of a group that VLDS loads: the slice scratch keeps none, so the widest of the type (DESIGN CHOICE, notes/assumptions/157.md). -/
def XTy.widest (t : XTy) : XAnn := match t with | .d128 => ⟨38, 0⟩ | .pdec => ⟨31, 0⟩ | _ => {}

/-- Constant (kind 0) or parameter (kind 1) number n with its type. -/
def Exu.operand (x : Exu) (kind n : Nat) : Option (SlotTy × Val) := if kind = 0 then x.ctx.consts[n]? else x.ctx.params[n]?

end Sys2Proof.Machine
end

