-- ==== Sys2Proof/Machine/XDecode.lean ====
section
/-!
DEFINITION. Sys2Proof/Machine/XDecode.lean: the instruction words of the expression unit (Table 7.3), decoded and encoded: what a code section
of an image holds, and what a hearth issues of it.
-/
namespace Sys2Proof.Machine

/-- Bits hi..lo of an instruction word as a number. -/
def wordField (x : BitVec 64) (lo n : Nat) : Nat := x.toNat / 2 ^ lo % 2 ^ n

/-- The fields below class and op (Table 7.3). -/
def xFieldsOf (x : BitVec 64) : XFields :=
  { ty := x.extractLsb' 52 4
    pe := x.getLsbD 51
    pm := x.extractLsb' 48 3
    d := x.extractLsb' 43 5
    a := x.extractLsb' 38 5
    b := x.extractLsb' 33 5
    c := x.extractLsb' 28 5
    mod := x.extractLsb' 24 4
    imm := x.extractLsb' 0 24 }

/-- An instruction word decoded: none where Table 7.5 lists no such op (R233: an INSTRUCTION fault). -/
def xDecode (x : BitVec 64) : Option (XOp × XFields) :=
  match (xClass (x.extractLsb' 60 4).toNat)[(x.extractLsb' 56 4).toNat]? with
  | some op => some (op, xFieldsOf x)
  | none => none

/-- An instruction word encoded (Table 7.3). -/
def xEncode (op : XOp) (w : XFields) : BitVec 64 :=
  BitVec.ofNat 4 op.shape.cls ++ BitVec.ofNat 4 op.shape.op ++ w.ty ++ BitVec.ofBool w.pe ++ w.pm ++ w.d ++ w.a ++ w.b ++
    w.c ++ w.mod ++ w.imm

end Sys2Proof.Machine
end

