-- ==== Sys2Proof/Machine/ExuCheck.lean ====
section
/-!
DEFINITION. Sys2Proof/Machine/ExuCheck.lean: the static checks of expression code (R124, R232 to R236, R639, R260, R269, R280): every
word of a block under the five ordered checks of R124, with the registers written on every path followed forward.
-/
namespace Sys2Proof.Machine

/-- Image fault reasons a word can have (Table 4.16). -/
def rsnInstr : Nat := 0x17
/-- INSTRUCTION_LEVEL. -/
def rsnLevel : Nat := 0x18
/-- OPERAND_TYPE. -/
def rsnType : Nat := 0x19
/-- OPERATOR_PARAMS. -/
def rsnParams : Nat := 0x16

/-- What a block is checked against: its required level, whether a stage names it, its role and input slots (none where R134 step 7 leaves
slots out), the constants, parameters, and counts of automata and tables, and the PROJECT outputs by number. -/
structure XEnv where
  el : Nat := 1
  named : Bool := false
  role : XRole := .none
  slots : Option (List (Nat × SlotTy)) := none
  consts : List SlotTy := []
  params : List SlotTy := []
  autos : Nat := 0
  cares : Nat := 0
  outs : List (Nat × SlotTy) := []
  words : Nat := 0
deriving DecidableEq, Repr, Inhabited

/-- The registers written on every path to a word: V groups with their types and annotations, M and S registers (R234, rule 3). An annotation
is none where it comes from a slot whose type cannot be derived (R134, step 7). `all` marks a word on no path: rule 3 holds of it for every
register. -/
structure XFlow where
  all : Bool := false
  v : List (Nat × XTy × Option XAnn) := []
  m : List Nat := []
  s : List Nat := []
deriving DecidableEq, Repr, Inhabited

/-- Two annotations that are not known to differ. -/
def annAgree (p q : Option XAnn) : Bool := match p, q with | some a, some b => a == b | _, _ => true

/-- What two paths agree on. -/
def XFlow.meet (x y : XFlow) : XFlow :=
  { v := x.v.filterMap (fun e => (y.v.find? (fun f => f.1 == e.1 && f.2.1 == e.2.1 && annAgree e.2.2 f.2.2)).map (fun f =>
      (e.1, e.2.1, e.2.2.bind (fun _ => f.2.2))))
    m := x.m.filter y.m.contains, s := x.s.filter y.s.contains }

/-- A group written: groups it overlaps are no longer known. Only D128 and PDEC groups carry an annotation that can be unknown. -/
def XFlow.put (x : XFlow) (base : Nat) (t : XTy) (an : Option XAnn) : XFlow :=
  { x with v := (base, t, if t == .d128 || t == .pdec then an else some {}) ::
      x.v.filter (fun e => !(decide (e.1 < base + t.group) && decide (base < e.1 + e.2.1.group))) }

/-- The type and annotation a base register is known to hold. -/
def XFlow.tag (x : XFlow) (base : Nat) : Option (XTy × Option XAnn) := (x.v.find? (fun e => e.1 == base)).map (·.2)

/-- Integer and floating-point types. -/
def XTy.narrow (t : XTy) : Bool := t.isInt || t.isFp

/-- The EL of a floating-point form (R233). -/
def XTy.fpLevel (t : XTy) : Nat := match t with | .f16 | .bf16 => 3 | .f32 | .f64 => 2 | _ => 1

/-- The least level of a word (Table 7.5). -/
def xLevel (op : XOp) (w : XFields) : Nat :=
  match op with
  | .vld2 | .vld3 | .vld4 | .dmul | .ddiv | .dscale | .vgath | .vscat | .vlds | .vsts => 2
  | .ssuf | .sfind | .slen | .strSsub | .rpm | .rpx => 2
  | .wmul | .dot8 | .dot16 | .padd | .psub | .pchk | .cml => 3
  | .fadd | .fsub | .fmul | .fdiv | .fsqrt | .fma | .fmin | .fmax | .fabs | .fneg | .min | .max | .cmp | .vsel => w.xty.fpLevel
  | .cvt => max w.xty.fpLevel (((XTy.ofCode w.mod.toNat).getD .i8).fpLevel)
  | .radd | .rmin | .rmax => if w.xty.isFp then 2 else 1
  | _ => 1

/-- The types an operation accepts in its type field (R639, R240, R241, R243, R260, R268) (DESIGN CHOICE, notes/assumptions/157.md: VLDS and VSTS
move a group of any type but STR, whose descriptors have no stated form). -/
def xAccepts (op : XOp) (t : XTy) : Bool :=
  match op with
  | .add | .sub | .and | .or | .xor | .shl | .shr | .abs | .neg | .not | .mul | .mulh | .div | .rem | .divrem => t.isInt
  | .min | .max => t.narrow || t == .d128 || t == .pdec
  | .fadd | .fsub | .fmul | .fdiv | .fsqrt | .fma | .fmin | .fmax | .fabs | .fneg => t.isFp
  | .dadd | .dsub | .dmul | .ddiv | .dscale => t == .d128
  | .padd | .psub | .pchk => t == .pdec
  | .vldf | .viota => t == .u32
  | .vrow => t == .u64
  | .vld2 | .vld3 | .vld4 | .vgath | .vscat | .vbs | .radd | .rmin | .rmax => t.narrow
  | .vlds | .vsts => t != .str
  | .wmul => t == .i16 || t == .u16 || t == .i32 || t == .u32
  | .dot8 => t == .i8 || t == .u8
  | .dot16 => t == .i16 || t == .u16
  | .scmp | .spre | .ssuf | .sfind | .slen | .strSsub | .rpm | .rpx => t == .str
  | .cml => t != .str
  | _ => true

/-- The fields of a structure load: 2, 3 or 4. -/
def xFieldCount (op : XOp) : Nat := match op with | .vld2 => 2 | .vld3 => 3 | .vld4 => 4 | _ => 1

/-- The V groups an operation reads, as (base, types allowed); an empty list of types allows none. -/
def xReads (op : XOp) (w : XFields) : List (Nat × List XTy) :=
  let t := w.xty
  let a := w.a.toNat
  let b := w.b.toNat
  let idx := [XTy.u8, .u16, .u32]
  match op with
  | .cvt => [(a, (XTy.ofCode w.mod.toNat).toList)]
  | .dot8 => [(a, [.u32]), (b, [.u32]), (w.d.toNat, [.i32])]
  | .dot16 => [(a, [.u32]), (b, [.u32]), (w.d.toNat, [.i64])]
  | .strSsub => [(a, [.str]), (b, [.i32]), (w.c.toNat, [.i32])]
  | .vgath => [(a, idx)]
  | .vscat => [(a, idx), (b, [t])]
  | .setnull => [(w.d.toNat, [t])]
  | .divrem => [(a, [t]), (b, [t])]
  | _ =>
    let s := op.shape
    (if s.a == .v then [(a, [t])] else []) ++ (if s.b == .v then [(b, [t])] else []) ++ (if s.c == .v then [(w.c.toNat, [t])] else [])

/-- The annotation of a read group, where it is known. -/
def XFlow.ann (x : XFlow) (base : Nat) : Option XAnn := (x.tag base).bind (·.2)

/-- An annotation formed from those of two operands. -/
def annBoth (f : XAnn → XAnn → XAnn) (p q : Option XAnn) : Option XAnn := match p, q with | some a, some b => some (f a b) | _, _ => none

/-- The V groups an operation writes, with types and annotations (R241, R242, R260, R268, R280). -/
def xWrites (op : XOp) (w : XFields) (x : XFlow) (loaded : Option XAnn) : List (Nat × XTy × Option XAnn) :=
  let t := w.xty
  let d := w.d.toNat
  let p := x.ann w.a.toNat
  let q := x.ann w.b.toNat
  let one := fun (t : XTy) (an : Option XAnn) => [(d, t, an)]
  let none' : Option XAnn := some {}
  match op with
  | .vld2 | .vld3 | .vld4 => (List.range (xFieldCount op)).map (fun k => (d + k * t.group, t, none'))
  | .vld | .vbc | .vbp => one t loaded
  | .wmul => one (match t with | .i16 => .i32 | .u16 => .u32 | .i32 => .i64 | _ => .u64) none'
  | .dot8 => one .i32 none'
  | .dot16 => one .i64 none'
  | .divrem => [(d, t, none'), (w.c.toNat, t, none')]
  | .sfind | .slen => one .i32 none'
  | .cml => one .u64 none'
  | .dadd | .dsub => one .d128 (annBoth (fun p q => ⟨min 38 (max (p.p - p.s) (q.p - q.s) + max p.s q.s + 1), max p.s q.s⟩) p q)
  | .dmul => one .d128 (annBoth (fun p q => ⟨min 38 (p.p + q.p), p.s + q.s⟩) p q)
  | .ddiv | .dscale => one .d128 (some ⟨38, w.imm.toNat % 256⟩)
  | .padd | .psub => one .pdec (annBoth (fun p q => ⟨min 31 (max p.p q.p + 1), 0⟩) p q)
  | .cvt => one t (if t == .d128 || t == .pdec then some ⟨w.imm.toNat / 256 % 256, w.imm.toNat % 256⟩ else none')
  | .min | .max | .vsel => one t (p.or q)
  | .setnull => one t (x.ann d)
  | .vlds => one t (some t.widest)
  | .pchk => []
  | _ => if op.shape.d == .v then one t none' else []

/-- Check 1: unused fields, mask fields and the predicate enable (R232), and the codes and counts of the operation (DEDUCED, notes/assumptions/27.md). -/
def xEncOk (op : XOp) (w : XFields) : Bool :=
  let s := op.shape
  let fld := fun (k : XField) (v : BitVec 5) => match k with | .unused => v == 0 | .m => decide (v.toNat < 8) | _ => true
  let imm := w.imm.toNat
  let cnt := w.b.toNat * 32 + w.c.toNat
  let t := w.xty
  (s.ty || w.ty == 0) && fld s.d w.d && fld s.a w.a && fld s.b w.b && fld s.c w.c && (s.mod || w.mod == 0) &&
    (s.imm || w.imm == 0) && (if s.pe then w.pe || w.pm == 0 else !w.pe && w.pm == 0) &&
    (match op with
     | .cmp | .scmp => decide (w.mod.toNat ≤ 5)
     | .tst =>
       let m := w.mod.toNat
       (if m ≤ 5 then cnt == 1 else if m = 6 then cnt == 2 else if m = 7 then decide (1 ≤ cnt) && decide (cnt ≤ 64)
        else if m ≤ 9 then cnt == 0 && imm / 128 == 0 else false)
     | .vgath => decide (w.mod.toNat ≤ 2) && (decide (w.mod.toNat < 2) || imm == 0)
     | .ddiv | .dscale => decide (imm ≤ 38)
     | .cvt =>
       (XTy.ofCode w.mod.toNat).isSome && (w.mod != w.ty || t == .d128 || t == .pdec) &&
         (match t with
          | .d128 => imm / 65536 == 0 && decide (1 ≤ imm / 256) && decide (imm / 256 ≤ 38) && decide (imm % 256 ≤ imm / 256)
          | .pdec => imm / 65536 == 0 && decide (1 ≤ imm / 256) && decide (imm / 256 ≤ 31) && imm % 256 == 0
          | _ => imm == 0)
     | _ => true)

/-- Check 3: aligned groups inside the file, and no write of M0 or S28 to S31. -/
def xRegsOk (op : XOp) (w : XFields) : Bool :=
  let s := op.shape
  let grp := fun (p : Nat × XTy) => p.1 % p.2.group == 0 && decide (p.1 + p.2.group ≤ 32)
  (xReads op w).all (fun r => r.2.all (fun t => grp (r.1, t))) && (xWrites op w {} none).all (fun r => grp (r.1, r.2.1)) &&
    (s.d != .m || w.d != 0) && (s.d != .s || decide (w.d.toNat < 28))

/-- The slot number a word of class SLOT names. -/
def xSlotNo (op : XOp) (w : XFields) : Option Nat :=
  match op with
  | .vld | .vldf | .mld | .vldn => some w.imm.toNat
  | .vld2 | .vld3 | .vld4 | .tst => some (w.imm.toNat % 128)
  | _ => none

/-- The constants (false) and parameters (true) a word names. -/
def xConsts (op : XOp) (w : XFields) : List (Bool × Nat) :=
  let imm := w.imm.toNat
  match op with
  | .vbc | .slc => [(false, imm)]
  | .vbp | .slp => [(true, imm)]
  | .vgath => if w.mod = 0 then [(false, imm)] else if w.mod = 1 then [(true, imm)] else []
  | .tst => (List.range (min 64 (w.b.toNat * 32 + w.c.toNat))).map (fun j => (bitOf imm 7, imm / 256 + j))
  | _ => []

def XEnv.const (e : XEnv) (p : Bool × Nat) : Option SlotTy := if p.1 then e.params[p.2]? else e.consts[p.2]?

def XEnv.slot (e : XEnv) (n : Nat) : Option SlotTy := match e.slots with | some l => assoc l n | none => none

/-- Check 4: indices, slots, branch targets, the last word and roles (R124, R234, R238). -/
def xRefsOk (e : XEnv) (k : Nat) (op : XOp) (w : XFields) : Bool :=
  (xConsts op w).all (fun p => (e.const p).isSome) &&
  (match xSlotNo op w with
   | some n =>
     e.slots.isNone ||
       (match e.slot n with
        | none => false
        | some t =>
          match op with
          | .vldf => t.ty != .fixedBinary || decide (4 * (w.mod.toNat * 16 + w.b.toNat) + 4 ≤ t.len)
          | .vld2 | .vld3 | .vld4 =>
            t.ty != .fixedBinary || decide (w.imm.toNat / 128 + xFieldCount op * (w.xty.bits / 8) ≤ t.len)
          | _ => true)
   | none => true) &&
  (match op with
   | .brz | .brnz | .brmz => decide (k + 1 + w.imm.toNat < e.words)
   | .setsel => !e.named || (e.role != .project && e.role != .none)
   | .outV | .mout => !e.named || e.role == .project
   | .rpm | .rpx => decide (w.imm.toNat < e.autos)
   | .cml => decide (w.imm.toNat < e.cares)
   | _ => true) &&
  (k + 1 != e.words || op == .endS)

/-- A value SLC and SLP may name: fixed width of 8 bytes or fewer (R234, rule 5). -/
def scalarTy (t : SlotTy) : Bool := match t.width with | some n => decide (n ≤ 8) | none => false

/-- Check 5: accepted types, registers written on every path with the type required, slot, constant and parameter types, and the
static conditions of Table 8.3, R242, R269 and R280. -/
def xTypesOk (e : XEnv) (x : XFlow) (op : XOp) (w : XFields) : Bool :=
  let s := op.shape
  let t := w.xty
  let src := (XTy.ofCode w.mod.toNat).getD .i8
  let mOk := fun (r : Nat) => x.all || r == 0 || x.m.contains r
  let sOk := fun (r : Nat) => x.all || r == 0 || decide (28 ≤ r) || x.s.contains r
  let fld := fun (k : XField) (v : BitVec 5) => match k with | .m => mOk v.toNat | .s => sOk v.toNat | _ => true
  (!s.ty || ((XTy.ofCode w.ty.toNat).isSome && xAccepts op t)) &&
    fld s.a w.a && fld s.b w.b && fld s.c w.c && (!w.pe || mOk w.pm.toNat) &&
    (xReads op w).all (fun r => match x.tag r.1 with | some (u, _) => r.2.contains u | none => x.all) &&
    (match op with
     | .min | .max => !(t == .d128 || t == .pdec) || annAgree (x.ann w.a.toNat) (x.ann w.b.toNat)
     | .vsel => annAgree (x.ann w.a.toNat) (x.ann w.b.toNat)
     | .dmul => (match x.ann w.a.toNat, x.ann w.b.toNat with | some p, some q => decide (p.s + q.s ≤ 38) | _, _ => true)
     | .cmp => t != .str || decide (w.mod.toNat ≤ 1)
     | .cvt => t != .str && src != .str && !(t == .pdec && src.narrow) && !(src == .pdec && t.narrow)
     | .vbc | .vbp => (xConsts op w).all (fun p => match e.const p with | some c => c.ty.xty == some t | none => true)
     | .slc | .slp => (xConsts op w).all (fun p => match e.const p with | some c => scalarTy c | none => true)
     | .vgath =>
       (xConsts op w).all (fun p => match e.const p with
         | some c => c.ty == .binary || (c.ty == .fixedBinary && w.mod == 0) | none => true)
     | _ => true) &&
    (match xSlotNo op w with
     | some n =>
       match e.slot n with
       | some c =>
         (match op with
          | .vld => c.ty.xty == some t
          | .vldf | .vld2 | .vld3 | .vld4 => c.ty == .fixedBinary
          | .mld => c.ty == .bool
          | .tst => (match c.ty.xty with | some u => u == t | none => w.ty == 0) &&
              (xConsts op w).all (fun p => match e.const p with | some o => o.same c | none => true)
          | _ => true)
       | none => true
     | none => true)

/-- R236, R265: an OUT or MOUT to a number has the type and scale of every PROJECT record that names it. -/
def xOutOk (e : XEnv) (x : XFlow) (op : XOp) (w : XFields) : Bool :=
  e.outs.all (fun r => r.1 != w.imm.toNat ||
    (match op with
     | .outV => r.2.ty.xty == some w.xty && (w.xty != .d128 || (match x.ann w.a.toNat with | some p => p.s == r.2.b | none => true))
     | .mout => r.2.ty == .bool
     | _ => true))

/-- The fault of one word, in the order of R124; none where it passes. -/
def xWordFault (e : XEnv) (x : XFlow) (k : Nat) (wd : BitVec 64) : Option Nat :=
  match xDecode wd with
  | none => some rsnInstr
  | some (op, w) =>
    if !xEncOk op w then some rsnInstr
    else if e.el < xLevel op w then some rsnLevel
    else if !xRegsOk op w then some rsnInstr
    else if !xRefsOk e k op w then some rsnInstr
    else if !xTypesOk e x op w then some rsnType
    else if !xOutOk e x op w then some rsnParams
    else none

/-- The registers known after a word. -/
def xFlowStep (e : XEnv) (x : XFlow) (op : XOp) (w : XFields) : XFlow :=
  let loaded : Option XAnn :=
    match xSlotNo op w with
    | some n => (e.slot n).map annOfTy
    | none => match xConsts op w with | p :: _ => (e.const p).map annOfTy | [] => none
  let y := (xWrites op w x loaded).foldl (fun y r => y.put r.1 r.2.1 r.2.2) x
  match op.shape.d with
  | .m => { y with m := w.d.toNat :: y.m }
  | .s => { y with s := w.d.toNat :: y.s }
  | _ => y

/-- A path joined to those that reach a word. -/
def joinAt (l : Tab XFlow) (k : Nat) (x : XFlow) : Tab XFlow :=
  match assoc l k with
  | some y => l.map (fun p => if p.1 = k then (k, y.meet x) else p)
  | none => (k, x) :: l

/-- A block's words checked in order (R234: every branch goes forward, so one pass meets every path). The result is the first
faulting word with its reason. A word on no path breaks no rule about registers written on every path to it. -/
def xScan (e : XEnv) : List (BitVec 64) → Nat → Tab XFlow → Option (Nat × Nat)
  | [], _, _ => none
  | wd :: rest, k, paths =>
    let here := assoc paths k
    match xWordFault e (here.getD { all := true }) k wd with
    | some r => some (k, r)
    | none =>
      let paths' := match here, xDecode wd with
        | some x, some (op, w) =>
          let y := xFlowStep e x op w
          let q := paths.filter (fun p => p.1 != k)
          match op with
          | .endS => q
          | .brz => if w.a = 0 then joinAt q (k + 1 + w.imm.toNat) y else joinAt (joinAt q (k + 1) y) (k + 1 + w.imm.toNat) y
          | .brnz | .brmz => joinAt (joinAt q (k + 1) y) (k + 1 + w.imm.toNat) y
          | _ => joinAt q (k + 1) y
        | _, _ => paths
      xScan e rest (k + 1) paths'

/-- The first faulting word of a block and its reason (R124). -/
def xBlockFault (e : XEnv) (code : List (BitVec 64)) : Option (Nat × Nat) :=
  xScan { e with words := code.length } code 0 [(0, {})]

end Sys2Proof.Machine
end

