-- ==== Sys2Proof/Machine/Pattern.lean ====
section
/-!
DEFINITION. Sys2Proof/Machine/Pattern.lean: the two matchers of a hearth (09_pattern_match.md): the byte automata of the
regular-pattern engine and the care-mask lookup with its verification.
-/
namespace Sys2Proof.Machine

/-! ### Automata (R287, R289) -/

/-- The run of the procedure of R289: state, four origin registers, and the best match so far. -/
structure RpRun where
  s : Nat
  o : List Nat := [0, 0, 0, 0]
  best : Option (Nat × Nat) := none
  used : Nat := 0
deriving DecidableEq, Repr, Inhabited

/-- consider(s, pos) of R289. -/
def RpRun.consider (a : Automaton) (len pos : Nat) (r : RpRun) : RpRun :=
  let fl := a.flags.getD r.s 0
  if bitOf fl 0 || (bitOf fl 1 && pos == len) then
    let st := r.o.getD (bitsOf fl 3 2) 0
    match r.best with
    | none => { r with best := some (st, pos) }
    | some (bs, be) => if st < bs ∨ (st = bs ∧ be < pos) then { r with best := some (st, pos) } else r
  else r

/-- The bytes of a string consumed one by one; the dead state ends the run (DEDUCED, notes/assumptions/17.md). -/
def rpLoop (a : Automaton) (len : Nat) : Bytes → Nat → RpRun → RpRun
  | [], _, r => r
  | b :: bs, i, r =>
    let t := a.trans.getD (r.s * a.classCount + a.classMap.getD b.toNat 0) 0
    let o := (List.range 4).map (fun k => if bitOf t (16 + k) then i else r.o.getD k 0)
    let s := t % 65536
    if s = 0 then { r with s := 0, o := o, used := r.used + 1 }
    else rpLoop a len bs (i + 1) (RpRun.consider a len (i + 1) { r with s := s, o := o, used := r.used + 1 })

/-- The match of an automaton in a string, if any, and the bytes consumed (R289). -/
def runAutomaton (a : Automaton) (str : Bytes) : Option (Nat × Nat) × Nat :=
  let r := rpLoop a str.length str 0 (RpRun.consider a str.length 0 { s := a.initial })
  (r.best, r.used)

/-- The bytes best_start to best_end − 1 of a match. -/
def matchBytes (str : Bytes) (m : Nat × Nat) : Bytes := (str.drop m.1).take (m.2 - m.1)

/-! ### Care-mask lookup (R293, R294) -/

/-- The key and care words of entry e of a bank, as numbers. -/
def Cmt.entry (c : Cmt) (bank e : Nat) : Nat × Nat :=
  let w := tabGet 1 c.widths bank
  ((List.range w).foldl (fun acc j => acc + (tabGet {} c.units (bank * 4096 + w * e + j)).key.toNat * 2 ^ (64 * j)) 0,
   (List.range w).foldl (fun acc j => acc + (tabGet {} c.units (bank * 4096 + w * e + j)).care.toNat * 2 ^ (64 * j)) 0)

/-- R293: an entry of w units with key k and care c matches x. -/
def careMatch (w k c x : Nat) : Bool := (x &&& c) == k && x / 2 ^ (64 * w) == 0

/-- A hit: table-relative bank, entry index, priority, value, and the hearth's bank. -/
structure CareHit where
  rel : Nat
  entry : Nat
  prio : Nat
  value : Nat
  bank : Nat
deriving DecidableEq, Repr, Inhabited

/-- Every matching valid entry of one bank, in entry order. -/
def Cmt.bankHits (c : Cmt) (bank rel x : Nat) : List CareHit :=
  c.words.filterMap (fun p =>
    if p.1 / 4096 = bank ∧ p.2.valid ∧
        careMatch (tabGet 1 c.widths bank) (c.entry bank (p.1 % 4096)).1 (c.entry bank (p.1 % 4096)).2 x then
      some ⟨rel, p.1 % 4096, p.2.prio, p.2.value, bank⟩ else none)

/-- The banks of the hearth that hold a user table, with their table-relative numbers in order (R297). -/
def Cmt.banksOf (c : Cmt) (table : Nat) : List (Nat × Nat) :=
  (List.range c.user.length).filterMap (fun i =>
    match c.user[i]? with
    | some (t, rel) => if t = table then some (i + 1, rel) else none
    | none => none)

/-- The hits at the winning priority, the winner first: lowest table-relative bank, then lowest entry (R294). -/
def Cmt.winners (c : Cmt) (table x : Nat) : List CareHit :=
  let all := ((c.banksOf table).map (fun b => c.bankHits b.1 b.2 x)).flatten
  let top := all.foldl (fun m h => max m h.prio) 0
  all.filter (fun h => h.prio == top)

/-- The result word of Table 9.4. -/
def careWord (miss : Nat) (l : List CareHit) : Nat :=
  match l with
  | [] => miss
  | h :: _ =>
    h.value + h.entry * 2 ^ 32 + h.rel * 2 ^ 44 + min 15 l.length * 2 ^ 46 + (if 2 ≤ l.length then 2 ^ 50 else 0) + 2 ^ 51

/-- The verification copy of an entry: key, care and width. -/
def careCopy (t : CareTable) (rel e : Nat) : Option (CareEntry × Nat) :=
  match t.banks[rel]? with
  | some b => (b.entries[e]?).map (fun x => (x, b.width))
  | none => none

/-- The number a list of 64-bit words spells, the first least significant. -/
def wordsNat : List (BitVec 64) → Nat
  | [] => 0
  | w :: ws => w.toNat + 2 ^ 64 * wordsNat ws

/-- A false hit (R300): the copy's entry does not match the key. -/
def falseHit (t : CareTable) (x : Nat) (h : CareHit) : Bool :=
  match careCopy t h.rel h.entry with
  | some (e, w) => !careMatch w (wordsNat e.key) (wordsNat e.care) x
  | none => true

/-- The units of an entry written from words. -/
def putUnits (u : Tab CareUnit) (base : Nat) : List (BitVec 64) → List (BitVec 64) → Tab CareUnit
  | k :: ks, c :: cs => putUnits (tabSet {} u base ⟨k, c⟩) (base + 1) ks cs
  | _, _ => u

/-- An entry's units rewritten from the copy (R300). -/
def Cmt.rewrite (c : Cmt) (t : CareTable) (h : CareHit) : Cmt :=
  match careCopy t h.rel h.entry with
  | some (e, w) => { c with units := putUnits c.units (h.bank * 4096 + w * h.entry) e.key e.care }
  | none => { c with words := tabSet {} c.words (h.bank * 4096 + h.entry) {} }

/-- One lookup with its verification (R300): false hits are rewritten and the search repeated, at most `fuel` times; none when a
false hit is still found. -/
def careLookup (c : Cmt) (t : CareTable) (table x : Nat) (fixes : Nat) : Nat → Cmt × Nat × Option Nat
  | 0 =>
    let l := c.winners table x
    if (l.filter (falseHit t x)).isEmpty then (c, fixes, some (careWord t.miss l)) else (c, fixes, none)
  | fuel + 1 =>
    let l := c.winners table x
    let bad := l.filter (falseHit t x)
    if bad.isEmpty then (c, fixes, some (careWord t.miss l))
    else careLookup (bad.foldl (fun c h => c.rewrite t h) c) t table x (fixes + bad.length) fuel

/-- A bank cleared and loaded with a table's bank (R297). -/
def Cmt.loadBank (c : Cmt) (bank : Nat) (b : CareBank) : Cmt :=
  let cleared : Cmt :=
    { c with units := c.units.filter (fun p => p.1 / 4096 != bank), words := c.words.filter (fun p => p.1 / 4096 != bank),
             widths := tabSet 1 c.widths bank b.width }
  (List.range b.entries.length).foldl (fun c e =>
    match b.entries[e]? with
    | some x => { c with units := putUnits c.units (bank * 4096 + b.width * e) x.key x.care,
                         words := tabSet {} c.words (bank * 4096 + e) ⟨true, x.prio, x.value⟩ }
    | none => c) cleared

/-- The (table, bank) list a set of table numbers takes, lowest table first (R297). -/
def careLayout (tables : List CareTable) (need : List Nat) : List (Nat × Nat) :=
  ((need.mergeSort (· ≤ ·)).eraseDups.map (fun t =>
    (List.range ((tables.getD t {}).banks.length)).map (fun r => (t, r)))).flatten

/-- The user tables of a stage loaded in banks 1 to 3, with their verification copy; nothing when those of its image (by digest) are resident.
The second component says whether a load was made. -/
def Cmt.load (c : Cmt) (image : Bytes) (tables : List CareTable) (need : List Nat) : Cmt × Bool :=
  let lay := careLayout tables need
  if lay.isEmpty || (c.image == image && lay.all (fun p => c.user.contains p)) then (c, false)
  else
    ((List.range lay.length).foldl (fun c i =>
      match lay[i]? with
      | some (t, r) => c.loadBank (i + 1) (((tables.getD t {}).banks).getD r {})
      | none => c) { c with user := lay, image := image, copy := tables }, true)

/-! ### Scrub positions (R299) -/

/-- The scrub positions of a table: 16,384 units, then the priority and value words of 16,384 entries. -/
def scrubSpan : Nat := 32768
/-- The bank of a scrub position. -/
def scrubBank (pos : Nat) : Nat := pos % 16384 / 4096
/-- The entry a scrub position belongs to in a bank of width w, and the unit within it. -/
def scrubEntry (w pos : Nat) : Nat × Nat := if pos < 16384 then (pos % 4096 / max 1 w, pos % 4096 % max 1 w) else (pos % 4096, 0)

/-- What a bank's copy holds at a scrub position: a unit's key and care, or an entry's value and priority; zeros past its entries. -/
def CareBank.scrubbed (b : CareBank) (pos : Nat) : CareUnit :=
  let p := scrubEntry b.width pos
  match b.entries[p.1]? with
  | some e => if pos < 16384 then ⟨e.key.getD p.2 0, e.care.getD p.2 0⟩ else ⟨BitVec.ofNat 64 e.value, BitVec.ofNat 64 e.prio⟩
  | none => {}

/-- A copy's bank with a scrub position rewritten. -/
def CareBank.repaired (b : CareBank) (pos : Nat) (k : CareUnit) : CareBank :=
  let p := scrubEntry b.width pos
  { b with entries := b.entries.modify p.1 (fun e =>
      if pos < 16384 then { e with key := e.key.set p.2 k.key, care := e.care.set p.2 k.care }
      else { e with value := k.key.toNat % 2 ^ 32, prio := k.care.toNat % 256 }) }

/-- The bank of a user table that a bank of the hearth holds, as its verification copy has it (R297). -/
def Cmt.copyBank (c : Cmt) (bank : Nat) : CareBank :=
  match c.user[bank - 1]? with | some (t, rel) => ((c.copy.getD t {}).banks).getD rel {} | none => {}

/-- A unit, or an entry's words, written at a scrub position. -/
def Cmt.put (c : Cmt) (pos : Nat) (k : CareUnit) : Cmt :=
  if pos < 16384 then { c with units := tabSet {} c.units pos k }
  else { c with words := tabUpd {} c.words (pos % 16384) (fun w => { w with prio := k.care.toNat % 256, value := k.key.toNat % 2 ^ 32 }) }

end Sys2Proof.Machine
end

