-- ==== Sys2Proof/Machine/Image.lean ====
section
/-!
DEFINITION. Sys2Proof/Machine/Image.lean: pipeline images (04_pipeline_images.md): sections and records, and steps 1 to 6 and 9
of the structural check (R134). Steps 7 and 8 are in ImageOps.lean. A check lists its faults; the one of lowest offset is reported.
-/
namespace Sys2Proof.Machine

/-- A fault of the structural check: offset and reason (R135, Table 4.16). -/
structure IFault where
  off : Nat
  reason : Nat
deriving DecidableEq, Repr, Inhabited

/-- The fault of lowest offset; the first listed of equal offsets. -/
def leastFault (l : List IFault) : Option IFault :=
  l.foldl (fun m f => match m with | none => some f | some g => if f.off < g.off then some f else some g) none

/-- A fault unless a condition holds. -/
def need (ok : Bool) (off reason : Nat) : List IFault := if ok then [] else [⟨off, reason⟩]

/-- RSV bytes that are not zero (RSV_NONZERO, at the field). -/
def rsv (b : Bytes) (off n : Nat) : List IFault := need (zeroAt b off n) off 0x07

/-- A section directory entry (Table 4.2). -/
structure Sect where
  ty : Nat
  off : Nat
  bytes : Nat
  count : Nat
deriving DecidableEq, Repr, Inhabited

/-- A stage record (Table 4.5). -/
structure StageRec where
  op : Nat := 0
  flags : Nat := 0
  inP : Nat := 0
  outP : Nat := 0
  flow : Nat := 0
  errMode : Nat := 0
  pOff : Nat := 0
  pBytes : Nat := 0
  codeA : Nat := 0xFFFF
  codeB : Nat := 0xFFFF
  res : Nat := 0
  bFirst : Nat := 0
  bCount : Nat := 0
deriving DecidableEq, Repr, Inhabited

def StageRec.ordered (s : StageRec) : Bool := bitOf s.flags 0
def StageRec.side (s : StageRec) : Bool := bitOf s.flags 1

/-- An edge record (Table 4.6). -/
structure EdgeRec where
  src : Nat := 0
  srcPort : Nat := 0
  dstPort : Nat := 0
  dst : Nat := 0
deriving DecidableEq, Repr, Inhabited

/-- A code block record with its words (Table 4.7); `off` is the block's offset within CODE. -/
structure CodeRec where
  off : Nat := 0
  el : Nat := 0
  words : List (BitVec 64) := []
deriving DecidableEq, Repr, Inhabited

/-- A schema binding (Table 4.9); `ty` is none for a binding that names no column. -/
structure BindRec where
  table : Nat := 0
  column : Nat := 0
  flags : Nat := 0
  ty : Option SlotTy := none
deriving DecidableEq, Repr, Inhabited

/-- A resource record (Table 4.12). -/
structure ResRec where
  scratch : Nat := 0
  hash : Nat := 0
  hbm : Nat := 0
  ddr : Nat := 0
  drive : Nat := 0
  floor : Nat := 0
  flags : Nat := 0
deriving DecidableEq, Repr, Inhabited

/-- A pipeline image as the device holds it once checked. -/
structure Image where
  el : Nat := 1
  minor : Nat := 0
  ordered : Bool := false
  mode : RMode := .tiesToEven
  ftz : Bool := false
  compilerId : Nat := 0
  compilerVersion : Nat := 0
  stages : List StageRec := []
  edges : List EdgeRec := []
  codes : List CodeRec := []
  consts : List (SlotTy × Val) := []
  params : List SlotTy := []
  binds : List BindRec := []
  resources : List ResRec := []
  pins : List (Nat × Nat) := []
  autos : List Automaton := []
  cares : List CareTable := []
  autoBytes : List Nat := []
  careBytes : List Nat := []
  opBytes : Bytes := []
  /-- Where the sections begin, by type, for the offsets of faults. -/
  secs : List Sect := []
deriving DecidableEq, Repr, Inhabited

def Image.sec (im : Image) (ty : Nat) : Option Sect := im.secs.find? (fun s => s.ty == ty)
/-- The offset of a section; 0 when it is absent. -/
def Image.secOff (im : Image) (ty : Nat) : Nat := match im.sec ty with | some s => s.off | none => 0
/-- The parameter block of a stage. -/
def Image.block (im : Image) (s : StageRec) : Bytes := sliceAt im.opBytes s.pOff s.pBytes
/-- The offset of a stage's parameter block in the image. -/
def Image.blockOff (im : Image) (s : StageRec) : Nat := im.secOff 0x08 + s.pOff
/-- The offset of a stage record. -/
def Image.stageOff (im : Image) (i : Nat) : Nat := im.secOff 0x01 + 32 * i

/-- A type with its parameters, from the fields of a record (Table 2.2). -/
def slotTyOf (code a b len : Nat) (nullable : Bool) : Option SlotTy :=
  (ColType.ofCode code).map (fun t => { ty := t, a := a, b := b, len := len, nullable := nullable })

/-- Type fields of a record: a reserved code is TYPE_CODE, a parameter out of range LIMIT, each at its field. -/
def tyFaults (b : Bytes) (tOff aOff bOff lOff lLen : Nat) : List IFault :=
  match ColType.ofCode (fieldAt b tOff 1) with
  | none => [⟨tOff, 0x13⟩]
  | some t =>
    let a := fieldAt b aOff 1
    let s := fieldAt b bOff 1
    let l := fieldAt b lOff lLen
    let aOk := match t with
      | .decimal128 => decide (1 ≤ a) && decide (a ≤ 38)
      | .packedDecimal => decide (1 ≤ a) && decide (a ≤ 31)
      | .timestamp64 | .time64 => decide (a ≤ 1)
      | _ => a == 0
    let sOk := match t with | .decimal128 => decide (s ≤ a) | _ => s == 0
    let lOk := match t with | .fixedBinary => decide (1 ≤ l) && decide (l ≤ 256) | _ => l == 0
    need aOk aOff 0x08 ++ need sOk bOff 0x08 ++ need lOk lOff 0x08

/-- The value checks of R125: well-formed UTF-8, valid packed digits, a decimal within its precision, a BOOL of 0 or 1. -/
def valueOk (t : SlotTy) (v : Bytes) : Bool :=
  match t.ty with
  | .bool => v == [0] || v == [1]
  | .utf8 => (utf8Bad v).isNone
  | .packedDecimal => packedValid t.a v
  | .decimal128 => decide ((valInt .decimal128 v).natAbs < 10 ^ t.a)
  | _ => true

/-! ### Steps 1 to 3 -/

/-- Step 1: the header (Table 4.1). `maxMinor` and `maxEl` are what the device supports, `len` the submitted length. -/
def headerFault (maxMinor maxEl len : Nat) (b : Bytes) : Option IFault :=
  let f := fun (o n : Nat) => fieldAt b o n
  if f 0 4 ≠ 0x51E9014A then some ⟨0, 0x01⟩
  else if f 0x7C 4 ≠ (crc32c (b.take 0x7C)).toNat then some ⟨0x7C, 0x02⟩
  else
    let minor := f 5 1
    leastFault
      (need (f 4 1 == 1) 4 0x04 ++ need (decide (minor ≤ maxMinor)) 5 0x04 ++
       need (decide (1 ≤ f 6 1) && decide (f 6 1 ≤ maxEl)) 6 0x05 ++ rsv b 7 1 ++
       need (decide (256 ≤ f 8 4) && decide (f 8 4 ≤ 16777216) && f 8 4 % 64 == 0) 8 0x08 ++ need (f 8 4 == len) 8 0x0C ++
       need (decide (3 ≤ f 0xC 2) && decide (f 0xC 2 ≤ 16)) 0xC 0x08 ++
       need (decide (1 ≤ f 0xE 2) && decide (f 0xE 2 ≤ 1024)) 0xE 0x08 ++ need (decide (f 0x10 2 ≤ 256)) 0x10 0x08 ++
       need (decide (f 0x12 2 ≤ 4096)) 0x12 0x08 ++ need (decide (f 0x14 2 ≤ 4096)) 0x14 0x08 ++
       need (f 0x16 2 / 2 == 0) 0x16 0x07 ++
       (if minor < 3 then rsv b 0x18 1 else need (decide (f 0x18 1 ≤ 4)) 0x18 0x08) ++
       need (f 0x19 1 / 2 == 0 && (decide (3 ≤ minor) || f 0x19 1 == 0)) 0x19 0x07 ++ rsv b 0x1A 2 ++ rsv b 0x28 80)

/-- The section types with their record size and first IF minor (Table 4.3); size 0 for byte areas and areas with directories. -/
def sectKinds : List (Nat × Nat × Nat) :=
  [(1, 32, 0), (2, 8, 0), (3, 0, 0), (4, 0, 0), (5, 16, 0), (6, 8, 0), (7, 48, 0), (8, 0, 0), (9, 0, 0), (10, 0, 1), (11, 0, 1),
   (12, 8, 2)]

/-- The directory entries as they stand. -/
def sectsOf (b : Bytes) : List Sect :=
  (List.range (fieldAt b 0xC 2)).map (fun i =>
    let o := 0x80 + 16 * i
    { ty := fieldAt b o 2, off := fieldAt b (o + 4) 4, bytes := fieldAt b (o + 8) 4, count := fieldAt b (o + 12) 4 })

/-- The faults of one directory entry given the entries before it (R118, R119). A byte area's entry_count is 0 (DESIGN CHOICE,
notes/assumptions/158.md, for AUTOMATA and CARE_TABLES, of which Table 4.3 does not say so). -/
def sectFaults (b : Bytes) (prev : List Sect) (i : Nat) (s : Sect) : List IFault :=
  let o := 0x80 + 16 * i
  let minor := fieldAt b 5 1
  let size := fieldAt b 8 4
  let dirEnd := 0x80 + 16 * fieldAt b 0xC 2
  let start := match prev.getLast? with | some p => p.off + p.bytes | none => dirEnd
  let kind := sectKinds.find? (fun k => k.1 == s.ty)
  let countOk := match kind with
    | some (3, _, _) | some (4, _, _) => decide (16 * s.count ≤ s.bytes)
    | some (t, 0, _) => s.count == 0 || decide (t < 8)
    | some (_, sz, _) => s.bytes == s.count * sz
    | none => true
  need (match kind with | some (_, _, m) => decide (m ≤ minor) && !(prev.any (fun p => p.ty == s.ty)) | none => false) o 0x0A ++
    rsv b (o + 2) 2 ++ need (s.off % 64 == 0 && decide (start ≤ s.off)) (o + 4) 0x09 ++
    need (decide (1 ≤ s.bytes) && (s.ty != 9 || decide (s.bytes ≤ 65536))) (o + 8) 0x08 ++
    need (decide (s.off + s.bytes ≤ size)) (o + 8) 0x09 ++ need countOk (o + 12) 0x0C

/-- The first non-zero byte between the sections (R116). -/
def gapFault (b : Bytes) (size : Nat) : Nat → List Sect → List IFault
  | pos, [] => match firstNonZero b pos (size - pos) with | some o => [⟨o, 0x07⟩] | none => []
  | pos, s :: r =>
    match firstNonZero b pos (s.off - pos) with
    | some o => [⟨o, 0x07⟩]
    | none => gapFault b size (s.off + s.bytes) r

/-- Step 3: the section directory and the bytes outside the sections. -/
def directoryFault (b : Bytes) : Option IFault :=
  let l := sectsOf b
  let cnt := fun (t : Nat) => match l.find? (fun s => s.ty == t) with | some s => s.count | none => 0
  let has := fun (t : Nat) => l.any (fun s => s.ty == t)
  let each := ((List.range l.length).map (fun i => sectFaults b (l.take i) i (l.getD i default))).flatten
  let gaps := if each.isEmpty then gapFault b (fieldAt b 8 4) (0x80 + 16 * l.length) l else []
  leastFault
    (need (has 1 && has 7 && (has 2 || decide (fieldAt b 0xE 2 ≤ 1))) 0xC 0x0B ++
     need (cnt 1 == fieldAt b 0xE 2 || !has 1) 0xE 0x0C ++ need (cnt 6 == fieldAt b 0x10 2) 0x10 0x0C ++ need (cnt 5 == fieldAt b 0x12 2) 0x12 0x0C ++
     need (cnt 3 == fieldAt b 0x14 2) 0x14 0x0C ++ each ++ gaps)

/-! ### Step 4: records -/

/-- The operators of Table 4.14: code, least and greatest in_ports, out_ports, least EL. -/
def opTable : List (Nat × Nat × Nat × Nat × Nat) :=
  [(0x01, 0, 1, 1, 1), (0x02, 0, 0, 1, 1), (0x03, 1, 1, 1, 1), (0x04, 1, 1, 1, 1), (0x05, 1, 1, 1, 1), (0x06, 1, 1, 1, 2),
   (0x07, 1, 1, 1, 1), (0x08, 2, 2, 1, 1), (0x09, 1, 1, 1, 1), (0x0A, 1, 1, 1, 1), (0x0B, 1, 1, 1, 2), (0x0C, 1, 1, 1, 1),
   (0x0D, 2, 32, 1, 1), (0x0E, 1, 1, 1, 1), (0x0F, 1, 1, 1, 1), (0x10, 2, 16, 1, 1), (0x11, 1, 1, 0, 1), (0x12, 0, 0, 1, 1),
   (0x13, 1, 1, 0, 1), (0x14, 1, 1, 0, 1), (0x15, 1, 1, 1, 3), (0x16, 1, 1, 1, 3)]

/-- Faults of a section's records, the section at `o` with n records of `sz` bytes. -/
def recFaults (o sz n : Nat) (f : Nat → List IFault) : List IFault := ((List.range n).map (fun i => f (o + sz * i))).flatten

/-- Stage record faults (Table 4.5, R121). -/
def stageRecFaults (b : Bytes) (o : Nat) : List IFault :=
  let minor := fieldAt b 5 1
  let fl := fieldAt b (o + 1) 1
  let em := fieldAt b (o + 6) 1
  need (opTable.any (fun r => r.1 == fieldAt b o 1)) o 0x0D ++ need (fl / 4 == 0) (o + 1) 0x07 ++
    need (bitOf fl 1 == (em == 1)) (o + 1) 0x08 ++ need (decide (fieldAt b (o + 4) 2 ≤ 4095)) (o + 4) 0x08 ++
    need (decide (em ≤ 1) && (em == 0 || decide (1 ≤ minor))) (o + 6) 0x08 ++ rsv b (o + 7) 1 ++
    need (decide (fieldAt b (o + 0xC) 4 ≤ 65536)) (o + 0xC) 0x08 ++
    need (decide (fieldAt b (o + 0x18) 2 ≤ 4095)) (o + 0x18) 0x08 ++ rsv b (o + 0x1A) 6

/-- Code block record faults (R124). -/
def codeRecFaults (b : Bytes) (sec : Sect) (i : Nat) : List IFault :=
  let o := sec.off + 16 * i
  let st := fieldAt b o 4
  let n := fieldAt b (o + 4) 4
  let ovr := (List.range sec.count).any (fun j =>
    let sj := fieldAt b (sec.off + 16 * j) 4
    let nj := fieldAt b (sec.off + 16 * j + 4) 4
    j != i && (decide (sj < st) || (sj == st && decide (j < i))) && decide (st < sj + nj))
  need (st % 8 == 0) o 0x08 ++ need (decide (16 * sec.count ≤ st) && decide (st + n ≤ sec.bytes) && !ovr) o 0x12 ++
    need (n % 8 == 0 && decide (8 ≤ n) && decide (n ≤ 262144)) (o + 4) 0x08 ++
    need (decide (1 ≤ fieldAt b (o + 8) 1) && decide (fieldAt b (o + 8) 1 ≤ 3)) (o + 8) 0x08 ++ rsv b (o + 9) 7

/-- Where the data area of CONSTANTS begins (R125). -/
def constData (sec : Sect) : Nat := roundUp 64 (16 * sec.count)

/-- Constant record faults (R125). -/
def constFaults (b : Bytes) (sec : Sect) (o : Nat) : List IFault :=
  let n := fieldAt b (o + 4) 4
  let off := fieldAt b (o + 8) 4
  let null := bitOf (fieldAt b (o + 1) 1) 0
  let len := fieldAt b (o + 0xC) 2
  let area := sec.bytes - constData sec
  let data := sec.off + constData sec + off
  let ty := slotTyOf (fieldAt b o 1) (fieldAt b (o + 2) 1) (fieldAt b (o + 3) 1) len true
  let lenOk := match ty with
    | some t => if null then n == 0 else match t.width with | some w => n == w | none => decide (n ≤ 32768)
    | none => true
  let inArea := off % 16 == 0 && decide (off + n ≤ area)
  let valOk := match ty with
    | some t => null || !t.ok || !lenOk || !inArea || valueOk t (sliceAt b data n)
    | none => true
  tyFaults b o (o + 2) (o + 3) (o + 0xC) 2 ++ need (fieldAt b (o + 1) 1 / 2 == 0) (o + 1) 0x07 ++ need lenOk (o + 4) 0x08 ++
    need inArea (o + 8) 0x12 ++ rsv b (o + 0xE) 2 ++ need valOk data 0x14

/-- Binding record faults (R127). -/
def bindFaults (b : Bytes) (o : Nat) : List IFault :=
  let col := fieldAt b (o + 4) 2
  let fl := fieldAt b (o + 7) 1
  need (bitOf fl 1 || fieldAt b o 4 % 2 ^ 31 != 0) o 0x08 ++ need (decide (col ≤ 4094) || col == 0xFFFF) (o + 4) 0x08 ++
    (if col = 0xFFFF then
      rsv b (o + 6) 1 ++ need (!bitOf fl 0) (o + 7) 0x07 ++ rsv b (o + 8) 1 ++ rsv b (o + 9) 1 ++ rsv b (o + 0xA) 2
     else tyFaults b (o + 6) (o + 8) (o + 9) (o + 0xA) 2) ++
    need (fl / 8 == 0) (o + 7) 0x07 ++ rsv b (o + 0xC) 4

/-- Parameter declaration faults (Table 4.10). -/
def paramFaults (b : Bytes) (o : Nat) : List IFault :=
  tyFaults b o (o + 2) (o + 3) (o + 4) 2 ++ need (fieldAt b (o + 1) 1 / 2 == 0) (o + 1) 0x07 ++ rsv b (o + 6) 2

/-- Resource record faults (Table 4.12). -/
def resFaults (b : Bytes) (o : Nat) : List IFault :=
  need (decide (fieldAt b o 8 ≤ 6291456)) o 0x1A ++ need (decide (fieldAt b (o + 0x28) 1 ≤ 4)) (o + 0x28) 0x1A ++
    need (fieldAt b (o + 0x29) 1 / 2 == 0) (o + 0x29) 0x07 ++ rsv b (o + 0x2A) 6

/-- Step 4: each section's records, in directory order. -/
def recordsFault (b : Bytes) : Option IFault :=
  leastFault ((sectsOf b).map (fun s =>
    match s.ty with
    | 1 => recFaults s.off 32 s.count (stageRecFaults b)
    | 2 => recFaults s.off 8 s.count (fun o => rsv b (o + 6) 2)
    | 3 => ((List.range s.count).map (codeRecFaults b s)).flatten
    | 4 => recFaults s.off 16 s.count (constFaults b s)
    | 5 => recFaults s.off 16 s.count (bindFaults b)
    | 6 => recFaults s.off 8 s.count (paramFaults b)
    | 7 => recFaults s.off 48 s.count (resFaults b)
    | 12 => recFaults s.off 8 s.count (fun o => need (fieldAt b (o + 2) 2 / 8 == 0) (o + 2) 0x07 ++ rsv b (o + 4) 4)
    | _ => [])).flatten

/-! ### The parsed image -/

/-- The stage record at an offset. -/
def parseStage (b : Bytes) (o : Nat) : StageRec :=
  let f := fun (d n : Nat) => fieldAt b (o + d) n
  { op := f 0 1, flags := f 1 1, inP := f 2 1, outP := f 3 1, flow := f 4 2, errMode := f 6 1, pOff := f 8 4, pBytes := f 0xC 4,
    codeA := f 0x10 2, codeB := f 0x12 2, res := f 0x14 2, bFirst := f 0x16 2, bCount := f 0x18 2 }

/-- The 64-bit words of a byte string. -/
def words64 (b : Bytes) : List (BitVec 64) := (List.range (b.length / 8)).map (fun i => BitVec.ofNat 64 (fieldAt b (8 * i) 8))

/-- An automaton of an AUTOMATA section (R287). -/
def parseAutomaton (a : Bytes) : Automaton :=
  let k := fieldAt a 6 2
  let n := fieldAt a 8 4
  let t := fieldAt a 0x14 4
  { classCount := k, initial := fieldAt a 0xC 2, classMap := (List.range 256).map (fun i => fieldAt a (0x20 + i) 1),
    flags := (List.range n).map (fun i => fieldAt a (0x120 + 2 * i) 2),
    trans := (List.range (n * k)).map (fun i => fieldAt a (t + 4 * i) 4) }

/-- The entries of one bank of a user table from an offset (R295). -/
def parseCareBank (a : Bytes) (off w n : Nat) : CareBank :=
  { width := w
    entries := (List.range n).map (fun e =>
      let o := off + e * (16 * w + 8)
      { key := words64 (sliceAt a o (8 * w)), care := words64 (sliceAt a (o + 8 * w) (8 * w)), value := fieldAt a (o + 16 * w) 4,
        prio := fieldAt a (o + 16 * w + 4) 1 }) }

/-- Widths and entry counts of a user table's banks (Table 9.5). -/
def careBanks (a : Bytes) : List (Nat × Nat) :=
  (List.range (min 3 (fieldAt a 5 1))).map (fun i => (fieldAt a (0x10 + 4 * i) 1, fieldAt a (0x12 + 4 * i) 2))

/-- A user table (R295). -/
def parseCare (a : Bytes) : CareTable :=
  { miss := fieldAt a 8 4
    banks := ((careBanks a).foldl (fun (acc : List CareBank × Nat) p =>
      (acc.1 ++ [parseCareBank a acc.2 p.1 p.2], acc.2 + p.2 * (16 * p.1 + 8))) ([], 64)).1 }

/-- The objects of an AUTOMATA or CARE_TABLES section: start within the section and bytes (R286). -/
def objDir (sb : Bytes) : List (Nat × Nat) :=
  (List.range (min 256 (fieldAt sb 0 4))).map (fun i => (fieldAt sb (8 + 16 * i) 4, fieldAt sb (12 + 16 * i) 4))

/-- The image's parts read from its bytes. -/
def parseImage (b : Bytes) : Image :=
  let l := sectsOf b
  let sec := fun (t : Nat) => l.find? (fun s => s.ty == t)
  let recs := fun (t sz : Nat) => match sec t with | some s => (List.range s.count).map (fun i => s.off + sz * i) | none => []
  let area := fun (t : Nat) => match sec t with | some s => sliceAt b s.off s.bytes | none => []
  let f := fun (o n : Nat) => fieldAt b o n
  let consts := match sec 4 with
    | some s => (recs 4 16).map (fun o =>
        let ty := (slotTyOf (f o 1) (f (o + 2) 1) (f (o + 3) 1) (f (o + 0xC) 2) true).getD default
        (ty, if bitOf (f (o + 1) 1) 0 then none else some (sliceAt b (s.off + constData s + f (o + 8) 4) (f (o + 4) 4))))
    | none => []
  let codes := match sec 3 with
    | some s => (recs 3 16).map (fun o =>
        { off := f o 4, el := f (o + 8) 1, words := words64 (sliceAt b (s.off + f o 4) (f (o + 4) 4)) : CodeRec })
    | none => []
  { el := f 6 1, minor := f 5 1, ordered := bitOf (f 0x16 2) 0
    mode := (match f 0x18 1 with | 1 => .towardZero | 2 => .towardPositive | 3 => .towardNegative | 4 => .tiesToAway | _ => .tiesToEven)
    ftz := bitOf (f 0x19 1) 0, compilerId := f 0x1C 4, compilerVersion := f 0x20 8
    stages := (recs 1 32).map (parseStage b)
    edges := (recs 2 8).map (fun o => { src := f o 2, srcPort := f (o + 2) 1, dstPort := f (o + 3) 1, dst := f (o + 4) 2 })
    codes := codes
    consts := consts
    params := (recs 6 8).map (fun o =>
      (slotTyOf (f o 1) (f (o + 2) 1) (f (o + 3) 1) (f (o + 4) 2) (bitOf (f (o + 1) 1) 0)).getD default)
    binds := (recs 5 16).map (fun o =>
      { table := f o 4, column := f (o + 4) 2, flags := f (o + 7) 1
        ty := if f (o + 4) 2 = 0xFFFF then none
          else slotTyOf (f (o + 6) 1) (f (o + 8) 1) (f (o + 9) 1) (f (o + 0xA) 2) (bitOf (f (o + 7) 1) 0) })
    resources := (recs 7 48).map (fun o =>
      { scratch := f o 8, hash := f (o + 8) 8, hbm := f (o + 0x10) 8, ddr := f (o + 0x18) 8, drive := f (o + 0x20) 8,
        floor := f (o + 0x28) 1, flags := f (o + 0x29) 1 })
    pins := (recs 12 8).map (fun o => (f o 2, f (o + 2) 2))
    autos := (objDir (area 10)).map (fun p => parseAutomaton (sliceAt (area 10) p.1 p.2))
    cares := (objDir (area 11)).map (fun p => parseCare (sliceAt (area 11) p.1 p.2))
    autoBytes := (objDir (area 10)).map (·.2), careBytes := (objDir (area 11)).map (·.2)
    opBytes := area 8, secs := l }

/-! ### Step 5: references -/

/-- Step 5: stage, binding and edge references, and sections absent where one is needed. -/
def refsFault (im : Image) : Option IFault :=
  let has := fun (t : Nat) => (im.sec t).isSome
  let ref := fun (t off : Nat) (ok : Bool) => if has t then need ok off 0x12 else [⟨off, 0x0B⟩]
  let st := ((List.range im.stages.length).map (fun i =>
    let s := im.stages.getD i {}
    let o := im.stageOff i
    let code := fun (k d : Nat) => if k = 0xFFFF then [] else ref 3 (o + d) (decide (k < im.codes.length))
    (if s.pBytes = 0 then [] else ref 8 (o + 8) (decide (s.pOff + s.pBytes ≤ im.opBytes.length))) ++
      code s.codeA 0x10 ++ code s.codeB 0x12 ++ ref 7 (o + 0x14) (decide (s.res < im.resources.length)) ++
      (if s.bCount = 0 then [] else ref 5 (o + 0x16) (decide (s.bFirst + s.bCount ≤ im.binds.length))))).flatten
  let bs := ((List.range im.binds.length).map (fun i =>
    let r := im.binds.getD i {}
    let o := im.secOff 5 + 16 * i
    if bitOf r.flags 1 then
      ref 6 o (decide (r.table < im.params.length)) ++
        (match im.params[r.table]? with | some t => need (t.ty == .uint32) o 0x13 | none => [])
    else [])).flatten
  let es := ((List.range im.edges.length).map (fun i =>
    let e := im.edges.getD i {}
    let o := im.secOff 2 + 8 * i
    need (decide (e.src < im.stages.length)) o 0x12 ++ need (decide (e.dst < im.stages.length)) (o + 4) 0x12)).flatten
  leastFault (st ++ bs ++ es)

/-! ### Step 6: the graph -/

/-- Sub-step 6.1: ports and the limits on EMIT and STORE. -/
def portsFaults (im : Image) : List IFault :=
  ((List.range im.stages.length).map (fun i =>
    let s := im.stages.getD i {}
    let o := im.stageOff i
    let before := fun (k : Nat) => ((im.stages.take i).filter (fun x => x.op == k)).length
    let lim := !(s.op == 0x13 && decide (16 ≤ before 0x13)) && !(s.op == 0x14 && decide (1 ≤ before 0x14))
    match opTable.find? (fun r => r.1 == s.op) with
    | some (_, lo, hi, outs, _) =>
      need lim o 0x0E ++ need (decide (lo ≤ s.inP) && decide (s.inP ≤ hi)) (o + 2) 0x0E ++ need (s.outP == outs) (o + 3) 0x0E
    | none => [])).flatten

/-- Sub-step 6.2: edges forward, in order, to ports that exist. -/
def edgeFaults (im : Image) : List IFault :=
  ((List.range im.edges.length).map (fun i =>
    let e := im.edges.getD i {}
    let o := im.secOff 2 + 8 * i
    let s := im.stages.getD e.src {}
    let t := im.stages.getD e.dst {}
    need (decide (e.src < e.dst)) o 0x0F ++
      (match i with
       | 0 => []
       | j + 1 =>
         let p := im.edges.getD j {}
         need (decide (p.dst ≤ e.dst)) (o + 4) 0x0F ++ need (p.dst != e.dst || decide (p.dstPort ≤ e.dstPort)) (o + 3) 0x0F) ++
      need (decide (e.srcPort < s.outP + b2n s.side)) (o + 2) 0x12 ++ need (decide (e.dstPort < t.inP)) (o + 3) 0x12)).flatten

/-- Sub-step 6.3: connections of every port (R122). -/
def connFaults (im : Image) : List IFault :=
  ((List.range im.stages.length).map (fun i =>
    let s := im.stages.getD i {}
    let o := im.stageOff i
    let ins := fun (p : Nat) => (im.edges.filter (fun e => e.dst == i && e.dstPort == p)).length
    let outs := fun (p : Nat) => let n := (im.edges.filter (fun e => e.src == i && e.srcPort == p)).length
      decide (1 ≤ n) && decide (n ≤ 8)
    need ((List.range s.inP).all (fun p => ins p == 1)) (o + 2) 0x10 ++ need ((List.range s.outP).all outs) (o + 3) 0x10 ++
      need (!s.side || outs s.outP) (o + 1) 0x10)).flatten

/-- The stages that reach a stage without output ports, marked from the last stage back (R122, rule 4). -/
def liveStages (im : Image) : List Bool :=
  (List.range im.stages.length).foldr (fun i (acc : List Bool) =>
    let s := im.stages.getD i {}
    (s.outP == 0 || im.edges.any (fun e => e.src == i && acc.getD (e.dst - i - 1) false)) :: acc) []

/-- Sub-step 6.5: ordered flows (R123). -/
def flowFaults (im : Image) : List IFault :=
  need (im.ordered == im.stages.any StageRec.ordered) 0x16 0x15 ++
  ((List.range im.stages.length).map (fun i =>
    let s := im.stages.getD i {}
    let o := im.stageOff i
    let srcs := (im.edges.filter (fun e => e.dst == i)).map (fun e => im.stages.getD e.src {})
    if !s.ordered then need (s.flow == 0) (o + 4) 0x15
    else if s.op = 0x0C then []
    else
      need (srcs.all (fun t => t.inP == 0 || t.ordered)) (o + 4) 0x15 ++
        need (srcs.all (fun t => t.inP == 0 || !t.ordered || t.flow == s.flow)) (o + 4) 0x15)).flatten

/-- Step 6, sub-step by sub-step. -/
def graphFault (im : Image) : Option IFault :=
  (leastFault (portsFaults im)).or ((leastFault (edgeFaults im)).or ((leastFault (connFaults im)).or
    ((leastFault (((List.range im.stages.length).map (fun i => need ((liveStages im).getD i false) (im.stageOff i) 0x11)).flatten)).or
      (leastFault (flowFaults im)))))

/-! ### Step 9: pins -/

/-- Step 9: pin records (R131). -/
def pinsFault (im : Image) : Option IFault :=
  leastFault (((List.range im.pins.length).map (fun i =>
    let p := im.pins.getD i (0, 0)
    let o := im.secOff 12 + 8 * i
    let s := im.stages.getD p.1 {}
    let floor := (im.resources.getD s.res {}).floor
    let join := s.op == 0x07 || s.op == 0x08
    need (decide (p.1 < im.stages.length)) o 0x12 ++ need (!((im.pins.take i).any (fun q => q.1 == p.1))) o 0x08 ++
      need (decide (im.stages.length ≤ p.1) ||
        ((!bitOf p.2 0 || join) && (!bitOf p.2 1 || join || s.op == 0x09 || s.op == 0x0A) && (!bitOf p.2 2 || decide (0 < floor))))
        (o + 2) 0x1B)).flatten)

end Sys2Proof.Machine
end

