-- ==== Sys2Proof/Machine/StStore.lean ====
section
/-!
DEFINITION. Sys2Proof/Machine/StStore.lean: what the pair keeps on its drives (02_tables_pages_extents.md, 14_ingest_durability.md):
table spaces, tables, columns, extents, holds, stripe groups, commits in progress, and the drives and their commands.
-/
namespace Sys2Proof.Machine

/-- A column (Table 2.2) with its encoding setting and dictionary order (R92, R102); `dropped` is the dropping epoch, 0 while live. -/
structure Column where
  id : Nat
  ty : SlotTy
  enc : Nat := 0xFF
  dictOrd : Bool := true
  added : Nat := 0
  dropped : Nat := 0
deriving DecidableEq, Repr, Inhabited

/-- A table: its columns, creation and drop epochs (0 while live), next row number and validation image (R48, R66, R437). -/
structure Table where
  id : Nat
  cols : List Column := []
  create : Nat := 0
  drop : Nat := 0
  nextRow : Nat := 0
  check : Option Image := none
  /-- Epochs of its truncations and REPLACEs (R426). -/
  cleared : List Nat := []
deriving DecidableEq, Repr, Inhabited

/-- An extent (R54 to R58, R66): its place, its lifetime (retire 0 while live), its dictionary entries in code order, its dictionary
pages and its data pages (first row, bytes), as they are before encryption. -/
structure Extent where
  num : Nat
  table : Nat
  col : Nat
  firstRow : Nat
  rows : Nat
  create : Nat
  retire : Nat := 0
  group : Nat := 0
  row : Nat := 0
  dict : List Bytes := []
  dictPages : List Bytes := []
  pages : List (Nat × Bytes) := []
  /-- Page slots that no parity can bring back (R594). -/
  lost : List Nat := []
deriving DecidableEq, Repr, Inhabited

/-- A directory extent (R61, R431): the column whose headers it holds, 256 at most, by extent number with the retire epoch each was written
with, and the stripe row it stands in. -/
structure DirExt where
  table : Nat
  col : Nat
  heads : List (Nat × Nat) := []
  group : Nat := 0
  row : Nat := 0
deriving DecidableEq, Repr, Inhabited

/-- One epoch's commit record as the history keeps it (R430, R480). -/
structure CommitRec where
  epoch : Nat
  kind : Nat := 0
  table : Nat := 0
  rows : Nat := 0
  slag : Nat := 0
  fn : Nat := 0
  queue : Nat := 0xFFFF
  cid : Nat := 0
  seconds : Nat := 0
  writer : Nat := 0
deriving DecidableEq, Repr, Inhabited

/-- A table space (R45 to R48, R64 to R70). -/
structure TSpace where
  id : Nat
  x : Nat
  owner : Nat := 0
  scheme : Nat := 1
  retain : Nat := 0
  floor : Nat := 0
  /-- C, the visible epoch. -/
  visible : Nat := 0
  /-- The last epoch allocated. -/
  lastEpoch : Nat := 0
  /-- Epochs allocated and neither committed nor abandoned. -/
  open_ : List Nat := []
  tables : List Table := []
  usedIds : List Nat := []
  extents : List Extent := []
  nextExtent : Nat := 0
  /-- Its directory extents as the last checkpoint left them. -/
  dirs : List DirExt := []
  /-- Its key_ref and the check value the catalog records (R574). -/
  key : Nat := 0
  keyCheck : Bytes := []
  /-- The home group (14). -/
  home : Nat := 0
  deleting : Bool := false
  /-- The lowest epoch the partner reports as held, and the lowest this twin has reported, all ones for none (R68). -/
  partnerLow : Option Nat := none
  told : Nat := 0xFFFFFFFFFFFFFFFF
  history : List CommitRec := []
  /-- Epochs reserved in the home group for the table space (R425). -/
  reserved : Nat := 0
  /-- Its ring has still to be replayed (R432, R595). -/
  replay : Bool := false
deriving DecidableEq, Repr, Inhabited

/-- A SNAPSHOT hold (R70, R71). -/
structure Hold where
  id : Nat
  x : Nat
  ts : Nat
  epoch : Nat
deriving DecidableEq, Repr, Inhabited

/-- A stripe group (R72 to R78): member drive by position, whether each is in service, rows in use, spill rows by grantee. -/
structure SGroup where
  id : Nat
  scheme : Nat
  members : List Nat := []
  failed : List Nat := []
  rows : Nat := 0
  used : List Nat := []
  /-- Stripe rows allocated while a position was out of service (R594). -/
  missed : List (Nat × Nat) := []
  /-- Rows of abandoned commits that wait for their deallocation, with their table spaces (R423). -/
  trim : List (Nat × Nat) := []
  spill : List (Nat × Nat) := []
  lastRow : Nat := 0
deriving DecidableEq, Repr, Inhabited

/-- A change of the catalog that a commit makes: TABLE_CREATE, TABLE_DROP, TABLE_ALTER (its epochs are the commit's), the removal of the
table space by TS_DELETE, its removal with its key by TS_SECURE_ERASE (R576), and the scheme of a RELAYOUT, with the home group its last
epoch records. The last three travel between the twins without an epoch (notes/assumptions/90.md): a table space made or
set up, a stripe group formed, a validation image set. -/
inductive CatChange where
  | create (t : Table)
  | drop (id : Nat)
  | alter (id : Nat) (add : List Column) (drop : List Nat)
  | remove
  | erase
  | rehome (scheme : Nat) (home : Option Nat)
  | space (s : TSpace)
  | group (g : SGroup)
  | check (id : Nat) (im : Option Image)
deriving DecidableEq, Repr, Inhabited

/-- What a commit is for, and so what it tells its command when it becomes visible. -/
inductive CommitFor where
  | ingest (x q cid : Nat)
  | store (query : Nat)
  | catalog (x : Nat)
  | rx4 (tag : Nat)
  | relayout (op : Nat)
  /-- A commit past its point of no return whose command is gone: it goes on under device ownership and tells no one; the function field, queue and
  command its record names (R492). -/
  | device (fn q cid : Nat)
  /-- An operation whose writer is the partner: its function, queue and command. -/
  | partner (x q cid : Nat)
deriving DecidableEq, Repr, Inhabited

/-- The progress of a commit (R422): writing its data, record built and mirrored, record written, durable. -/
inductive CommitSt where
  | asking | writing | mirrored | recording | durable
deriving DecidableEq, Repr, Inhabited

/-- A commit in progress (R422 to R424). -/
structure Commit where
  ts : Nat
  epoch : Nat
  use : CommitFor
  st : CommitSt := .writing
  table : Nat := 0
  rows : Nat := 0
  slag : Nat := 0
  created : List Extent := []
  retired : List Nat := []
  retireAll : Bool := false
  kind : Nat := 0
  /-- The epoch at which an INGEST or STORE bound to its columns (R426). -/
  bound : Nat := 0
  firstRow : Nat := 0
  slagFirst : Nat := 0
  blocks : Nat := 2
  change : Option CatChange := none
  /-- Drive writes of data, parity and zeros still outstanding; then copies of the record. -/
  waits : List Nat := []
  /-- The partner has acknowledged the record; it waits for ring space (R431). -/
  mirrored : Bool := false
  waitsRing : Bool := false
  /-- The twin position of its writer. -/
  writer : Nat := 0
deriving DecidableEq, Repr, Inhabited

/-- An INGEST in progress (R434 to R438): the pieces of its stream read so far. -/
structure Ingest where
  x : Nat
  q : Nat
  cid : Nat
  ts : Nat
  table : Nat
  framing : Nat
  reject : Nat
  pieces : List (Nat × Bytes) := []
  want : Nat := 0
  bad : Bool := false
  /-- The epoch it binds at (R426). -/
  bind : Nat := 0
  /-- The owner twin has been asked for an allocation (R30). -/
  asked : Bool := false
  /-- Blocks that a compression engine has done for it, once it has taken a context (R100, R101). -/
  blocks : Option Nat := none
deriving DecidableEq, Repr, Inhabited

/-- What a drive command is for: `recon` reads a strip that rebuilds the range of a short read, `rebuild` reads or writes a strip of a row that
is rebuilt onto a new member (R447), `power` restores power state 0 after Idle
(R441), `gone` has passed its time limit and waits for its Abort (R445). -/
inductive DriveUse where
  | charge (query stage idx : Nat)
  | pages (x q cid : Nat)
  | commitData (ts epoch : Nat)
  | commitRecord (ts epoch : Nat)
  | rebuild (group pos : Nat)
  | journal | spill (query : Nat) | recon (cmd : Nat) | power | gone
deriving DecidableEq, Repr, Inhabited

/-- A read of one strip of a stripe row of data (R74, R157): an extent, and the blocks of the row's 256 that hold some of its pages, or the
block of its directory extent that holds its header. -/
structure PRead where
  ts : Nat := 0
  ext : Nat := 0
  group : Nat := 0
  row : Nat := 0
  first : Nat := 0
  blocks : Nat := 0
  header : Bool := false
  /-- It reads a row of level 4 of the spill ladder (R192). -/
  spill : Bool := false
deriving DecidableEq, Repr, Inhabited

/-- A drive command that is outstanding (R421, R444, R445): drive, read or write, first block and count, the step of the short-read
ladder or of the write ladder, and the state of its time limit (0 running, 1 Abort sent, 2 controller reset). -/
structure DCmd where
  id : Nat
  drive : Nat
  write : Bool
  lba : Nat := 0
  blocks : Nat := 0
  use : DriveUse
  retry : Nat := 0
  waiting : Bool := false
  abort : Nat := 0
  group : Nat := 0
  row : Nat := 0
  pos : Nat := 0
  /-- When it was issued, µs, and the positions whose strips reconstruction has asked for. -/
  issued : Nat := 0
  tried : List Nat := []
  /-- What a read of an extent is of; a write that is a Write Zeroes (R77). -/
  what : PRead := {}
  zeros : Bool := false
  /-- It waits for its drive to return to power state 0 (R441). -/
  held : Bool := false
deriving DecidableEq, Repr, Inhabited

/-- A drive's label (R428, R442). -/
structure Label where
  pair : Nat := 0
  seq : Nat := 0
  role : Nat := 0
  group : Nat := 0
  pos : Nat := 0
  nguid : Nat := 0
  rebuilding : Bool := false
deriving DecidableEq, Repr, Inhabited

/-- A drive slot (R441 to R448, R631): sideband stage of the insertion sequence, link, label, state code and refusal reason, member
failure, time-limit expiries and media errors in their windows. -/
structure Drive where
  present : Bool := false
  power : Bool := false
  refclk : Bool := false
  perst : Bool := true
  link : Bool := false
  state : Nat := 0
  reason : Nat := 0
  blocks : Nat := 0
  label : Option Label := none
  expiries : List Nat := []
  media : List Nat := []
  nguid : Nat := 0
  /-- The controller is being reset; its link's speed and width codes (Table 14.8). -/
  resetting : Bool := false
  speed : Nat := 0
  width : Nat := 0
  /-- Its NVMe power state, and whether the command that restores state 0 is outstanding (R441). -/
  ps : Nat := 0
  waking : Bool := false
deriving DecidableEq, Repr, Inhabited

/-- A journal ring of one twin position in one group (R427 to R431). -/
structure Journal where
  group : Nat
  twin : Nat
  /-- Where the next record goes, a block of the ring. -/
  head : Nat := 0
  seq : Nat := 0
  clean : Bool := false
  /-- Records in the ring: kind, blocks, table space, epoch. -/
  recs : List (Nat × Nat × Nat × Nat) := []
  /-- When the last checkpoint was written, µs. -/
  last : Nat := 0
deriving DecidableEq, Repr, Inhabited

/-- A rebuild (R447): group, position, target drive, next stripe row, the rows it is limited to (a reinserted member's, R594; empty:
all), and whether it waits for members or for a failover. -/
structure Rebuild where
  group : Nat
  pos : Nat
  drive : Nat
  next : Nat := 0
  rows : List Nat := []
  /-- The rows of the step under way, whose strips are being read and written. -/
  hand : List Nat := []
  paused : Bool := false
  /-- The long operation that started it. -/
  op : Option Nat := none
deriving DecidableEq, Repr, Inhabited

end Sys2Proof.Machine
end

