-- ==== Sys2Proof/Machine/StMail.lean ====
section
/-!
DEFINITION. Sys2Proof/Machine/StMail.lean: what the part holds for its mailboxes (15_mailbox.md): mailbox registers and sessions, event
queues, long operations, claims, generations and firmware slots.
-/
namespace Sys2Proof.Machine

/-- An event record (Table 15.11). -/
structure Event where
  code : Nat
  object : Nat := 0
  data : Nat := 0
  time : Nat := 0
deriving DecidableEq, Repr, Inhabited

/-- A mailbox (Tables 15.1 to 15.3): ready, the session's MP minor, the request taken and not yet answered (its seq), the response area,
the event queue and its lost count, and a doorbell held while ready is 0 (R451) with its opcode. -/
structure Mbox where
  ready : Bool := false
  session : Option Nat := none
  busy : Option Nat := none
  doneSeq : Nat := 0
  vector : Nat := 0
  err : Nat := 0
  resp : Bytes := []
  events : List Event := []
  lost : Nat := 0
  held : Option (Nat × MbReq) := none
deriving DecidableEq, Repr, Inhabited

/-- A long operation (R463): the opcode that started it, its issuer, its operands, how many steps it has done and how many it has in all,
a cancellation asked for by a mailbox request (its function), and how it ended. -/
structure LongOp where
  handle : Nat
  x : Nat
  op : Nat
  args : List Nat := []
  data : Bytes := []
  done : Nat := 0
  total : Nat := 1
  percent : Nat := 0
  /-- Functions whose OP_CANCEL waits for the operation to stop. -/
  cancel : List Nat := []
  /-- When its progress was last told, in µs since power-on (Table 15.11). -/
  told : Nat := 0
  /-- 1 running, 2 done, 3 cancelled; and its final status (OP_STATUS). -/
  state : Nat := 1
  status : Nat := 0
  object : Nat := 0
deriving DecidableEq, Repr, Inhabited

/-- What one step of a long operation meets (R463): whether training passes; lines a patrol reads with the errors at their offsets, or stripe
rows found in error (R596); the DIMMs of a pair that is trained; the highest MP minor that the firmware loaded speaks (R479). -/
structure StepIn where
  ok : Bool := true
  lines : Nat := 0
  errs : List (Nat × MemErr) := []
  rows : List Nat := []
  gb : Nat := 0
  rk : Nat := 0
  x4 : Bool := true
  minor : Nat := 4
deriving DecidableEq, Repr, Inhabited

/-- A claim (R472, Table 15.12): number, class, index, holder (function code and feature), way mask, bytes and DVA. -/
structure Claim where
  num : Nat
  cls : Nat
  index : Nat
  x : Nat
  holder : Nat
  ways : Nat := 0
  bytes : Nat := 0
  dva : Nat := 0
deriving DecidableEq, Repr, Inhabited

/-- A firmware slot (R476): 0 empty, 1 invalid, 2 valid; version, digest and security version. -/
structure FwSlot where
  state : Nat := 0
  version : Nat := 0
  digest : Bytes := []
  svn : Nat := 0
  image : Bytes := []
deriving DecidableEq, Repr, Inhabited

/-- The highest minor of IF 1 and the highest EL that a firmware image supports: Shehal 4.2 as Table 0.5 says (R17, R141) (DESIGN CHOICE,
notes/assumptions/99.md). -/
def FwSlot.images (f : FwSlot) : Nat × Nat := if f.version / 65536 = 0x0402 then (3, 3) else Config.fwImages f.image

/-- The TP majors, lowest and highest, and the highest minor of the latter that a firmware image supports: Shehal 4.2 as R524 says. -/
def FwSlot.tp (f : FwSlot) : Nat × Nat × Nat := if f.version / 65536 = 0x0402 then (1, 1, 2) else Config.fwTp f.image

/-- The XP major and its highest minor that a firmware image supports: Shehal 4.2 as Table 0.5 says (R337). -/
def FwSlot.xp (f : FwSlot) : Nat × Nat := if f.version / 65536 = 0x0402 then (1, 1) else Config.fwXp f.image

/-- A system table (R298): its number, first entry, miss value and entries, and whether it is withdrawn (R301). -/
structure SysTable where
  table : Nat
  first : Nat
  miss : Nat
  entries : List CareEntry := []
  withdrawn : Bool := false
deriving DecidableEq, Repr, Inhabited

/-- A system-table command that waits for the hearths (R298): the mailbox it answers, the table, and the hearths that have applied it. -/
structure SysUpdate where
  x : Nat
  table : Nat
  applied : List Nat := []
deriving DecidableEq, Repr, Inhabited

/-- An activation of firmware under way (R478, R479): slot, the slot that ran before, and the step reached. -/
structure FwActive where
  slot : Nat
  prev : Nat
  step : Nat
  handle : Nat
deriving DecidableEq, Repr, Inhabited

/-- The mailbox side of the device. -/
structure MailSt where
  boxes : Tab Mbox := []
  ops : List LongOp := []
  nextHandle : Nat := 1
  claims : List Claim := []
  /-- The generation of each device-wide setting by opcode (R469). -/
  gens : Tab Nat := []
  fwA : FwSlot := { state := 2, version := 0x04020000 }
  fwB : FwSlot := {}
  running : Nat := 0
  boot : Nat := 0
  activating : Option FwActive := none
  sysTables : List SysTable := []
  sysUpdate : Option SysUpdate := none
  /-- Commits of mailbox commands and long operations that wait for the owner twin's allocation (R30). -/
  asks : List Commit := []
  /-- Requests taken that wait for a running change to end (R298, R536): function, opcode, request. -/
  parked : List (Nat × Nat × MbReq) := []
  /-- The highest MP minor that the running firmware speaks (R456, R479). -/
  minor : Nat := 4
deriving DecidableEq, Repr, Inhabited

/-- The firmware that runs. -/
def MailSt.firmware (m : MailSt) : FwSlot := if m.running = 0 then m.fwA else m.fwB

end Sys2Proof.Machine
end

