-- ==== Sys2Proof/Machine/StHost.lean ====
section
/-!
DEFINITION. Sys2Proof/Machine/StHost.lean: what the part holds for its hosts (13_host_queues.md): functions, queue pairs,
fetched commands, completions, outstanding reads of host memory, and everything it sends out of the package.
-/
namespace Sys2Proof.Machine

/-- What leaves the part, in the order it leaves: accesses to host memory by function index (R495), vectors, PME, twin-link frames,
VXP packets (peer, type, remote address, fields, bytes), drive commands by their number, answers on a management path (DESIGN CHOICE, notes/assumptions/9.md). -/
inductive Out where
  | hostWrite (x addr : Nat) (data : Bytes)
  | hostRead (tag x addr len : Nat)
  | vector (x v : Nat)
  | ats (x addr : Nat)
  | pme (x : Nat)
  | twin (frame : Bytes)
  | vxp (peer kind : Nat) (addr : Bytes) (body : List Nat) (data : Bytes)
  | frame (port : Nat) (data : Bytes)
  | drive (cmd : Nat)
  | driveAdmin (drive op arg : Nat)
  | driveBlock (drive lba : Nat) (data : Bytes)
  /-- A range of a drive deallocated by Dataset Management (R423, R576). -/
  | driveTrim (drive lba blocks : Nat)
  | pin (name level : Nat)
  | mgmt (data : Bytes)
  /-- An SPDM response: transport (0 DOE of PF0, 1 DOE of PF1, 2 MCTP), SPDM request answered, and what it carries. -/
  | spdm (transport code : Nat) (data : Bytes)
  /-- A trace record on the trace port (Table 20.7). -/
  | tport (data : Bytes)
deriving DecidableEq, Repr, Inhabited

/-- States of a queue pair (Table 13.6, QP_STATUS state). -/
inductive QState where
  | disabled | active | error | resetting
deriving DecidableEq, Repr, Inhabited

/-- A completion before it is written (Tables 13.13, 13.14). -/
structure Compl where
  cid : Nat := 0xFFFF
  status : Nat := 0
  r0 : Nat := 0
  r1 : Nat := 0
  detail : Nat := 0
  reason : Nat := 0
  isAbort : Bool := false
  /-- The entry as it was mirrored, and whether the partner holds it (R501). -/
  entry : Option Bytes := none
  acked : Bool := true
deriving DecidableEq, Repr, Inhabited

/-- A command fetched and not yet completed: command_id, SQ index, opcode, its 64 bytes, the host pieces of its data (address,
length), the order of its fetch in the device, whether it has started and whether it is past its point of no return (R414) (DESIGN CHOICE, notes/assumptions/10.md). -/
structure Cmd where
  cid : Nat
  idx : Nat
  op : Nat
  entry : Bytes
  data : List (Nat × Nat) := []
  seq : Nat
  started : Bool := false
  past : Bool := false
  /-- The command may commit: an INGEST, or a QUERY_SUBMIT whose image has or may have a STORE (R415). -/
  commits : Bool := false
  /-- The visible epoch of its table space when it was fetched: what an INGEST binds at (R426). -/
  bind : Nat := 0
deriving DecidableEq, Repr, Inhabited

/-- A queue pair (Tables 13.5, 13.6). -/
structure Qp where
  sqBase : Nat := 0
  cqBase : Nat := 0
  cfg : Nat := 0
  arb : Nat := 1
  md : Nat := 0
  /-- QP_MOD as the last completion found it (R393). -/
  modNow : Nat := 0
  pasid : Nat := 0
  state : QState := .disabled
  reason : Nat := 0
  errIndex : Nat := 0
  sqHead : Nat := 0
  sqTail : Nat := 0
  cqHead : Nat := 0
  cqTail : Nat := 0
  cmds : List Cmd := []
  /-- Completions that are ready and wait for CQ space, oldest first. -/
  ready : List Compl := []
  stalled : Bool := false
  /-- The command of each CQ entry from cqHead to cqTail (for ABORT, R414); true for an ABORT. -/
  posted : List (Nat × Bool) := []
  unsignalled : Nat := 0
  /-- When the oldest unsignalled completion was written, µs. -/
  oldest : Nat := 0
deriving DecidableEq, Repr, Inhabited

/-- A function: Table 13.4, its power state, the host writes held in D3hot, its MSI-X table (32-bit words) and pending bits (DESIGN CHOICE, notes/assumptions/38.md). -/
structure Fn where
  event : Nat := 0
  eventMask : Nat := 0
  eventVector : Nat := 0
  eventQueue : Nat := 0
  bad : Nat := 0
  adopted : Bool := false
  d3hot : Bool := false
  held : List Out := []
  pmeSent : Bool := false
  msix : Tab Word := []
  pba : List Nat := []
deriving DecidableEq, Repr, Inhabited

/-- What a read of host memory is for: the object of Table 13.12 and R407, or another command's. -/
inductive ReadFor where
  | descriptor | image | params | ring (i : Nat) | key | data (i : Nat) | frag | mailbox | buffer
deriving DecidableEq, Repr, Inhabited

/-- An outstanding read of host memory: its tag, function, queue and command, and what it is for. -/
structure HRead where
  tag : Nat
  x : Nat
  q : Nat
  cid : Nat
  use : ReadFor
  addr : Nat
  len : Nat
deriving DecidableEq, Repr, Inhabited

/-- The submit descriptor of a QUERY_SUBMIT (Table 13.12). -/
structure Descr where
  imageAddr : Nat := 0
  imageBytes : Nat := 0
  paramBytes : Nat := 0
  paramAddr : Nat := 0
  epoch : Nat := 0
  digest : Bytes := []
  rings : List Nat := []
deriving DecidableEq, Repr, Inhabited

/-- What a command on a shared engine does (R406): DIGEST algorithm, or COMPRESS direction. -/
inductive EngOp where
  | digest (alg : Nat) (result : Nat)
  | compress (dir dest destBytes : Nat)
deriving DecidableEq, Repr, Inhabited

/-- A DIGEST or COMPRESS command that is running: the pieces read so far by number, the key, and the blocks already done. -/
structure EngJob where
  x : Nat
  q : Nat
  cid : Nat
  op : EngOp
  key : Option Bytes := none
  needKey : Bool := false
  pieces : List (Nat × Bytes) := []
  want : Nat := 0
  blocks : Nat := 0
  bad : Bool := false
deriving DecidableEq, Repr, Inhabited

/-- A user of a shared engine: a DIGEST or COMPRESS command by queue and command, or a charge of a stage (R100, R101). -/
structure EngUser where
  isCharge : Bool := false
  a : Nat := 0
  b : Nat := 0
  c : Nat := 0
deriving DecidableEq, Repr, Inhabited

/-- One engine (R100, R101): its saved contexts and the user of the block it is working on. -/
structure Engine where
  holders : List EngUser := []
  now : Option EngUser := none
deriving DecidableEq, Repr, Inhabited

/-- A READ_PAGES command that waits for its drive reads (R405): the table space whose epoch it holds, and the pages from slot
`first` on as they will be delivered. -/
structure PageJob where
  x : Nat
  q : Nat
  cid : Nat
  ts : Nat := 0
  epoch : Nat
  first : Nat := 0
  pages : List Bytes := []
  bad : Bool := false
  status : Nat := 0x3007
deriving DecidableEq, Repr, Inhabited

end Sys2Proof.Machine
end

