-- ==== Sys2Proof/Machine/StPower.lean ====
section
/-!
DEFINITION. Sys2Proof/Machine/StPower.lean: operating modes, start attempts, the security block, the RX4 window and the pins
(18_power_modes.md, 19_start_banked.md, 20_security_debug.md, 22_rx4_window.md, 23_package_electrical.md).
-/
namespace Sys2Proof.Machine

/-- A two-phase mode change in progress (R535): modes, counts and ceilings, the affected domains, those that have acknowledged, hearth
groups still to wake, whether VDD_CORE has reached its value and prepare has been sent, when, and the function whose MODE_SET waits. -/
structure Change where
  fromMode : Nat
  toMode : Nat
  fromServe : Nat := 0
  toServe : Nat := 0
  fromCeil : Nat := 290
  toCeil : Nat := 290
  units : List Nat := []
  /-- The state each affected domain leaves. -/
  old : List (Nat × Nat) := []
  acked : List Nat := []
  wake : List Nat := []
  vddReady : Bool := false
  prepared : Bool := false
  began : Nat := 0
  sent : Nat := 0
  by_ : Option Nat := none
  chosen : Bool := false
deriving DecidableEq, Repr, Inhabited

/-- Power (R527 to R545). Domain states: 0 off, 1 retention or self-refresh, 2 on. -/
structure PwrSt where
  mode : Nat := 0
  serve : Nat := 0
  ceiling : Nat := 290
  limit : Nat := 0
  chosen : Bool := false
  domains : Tab Nat := []
  change : Option Change := none
  /-- WORK_IN_IDLE has been sent in this stay in Idle. -/
  told : Bool := false
  /-- Power samples in 0.1 W, newest first, at most 100 (10 ms). -/
  samples : List Nat := []
  tj : Int := 0
  alert : Bool := false
  clamp : Bool := false
  /-- Since when Tj has stayed below the clamp's release level, µs. -/
  coolSince : Option Nat := none
  trip : Bool := false
  /-- The device has been stopped, with its cause (R586): 1 control processor, 2 security block, 3 network-on-chip, 4 watchdog,
  5 supply, 6 reference clock. -/
  stopped : Option Nat := none
  /-- The drives and fabric are paced for the rest of the window (R539). -/
  paced : Bool := false
  /-- Entry to Ember (1) or Off (0) under way, by step done (R538). -/
  entry : Option (Nat × Nat) := none
  /-- Domains powered on demand, with when they were last asked for. -/
  demand : Tab Nat := []
  ember : Bool := false
  offRdy : Bool := false
  /-- Supplies whose rail does not answer (R623), and references lost (R629): 0 A, 1 B, 2 DREF, 3 FREF, 4 SYSCLK, 5 AONCLK. -/
  rails : List Nat := []
  /-- The last reading of each rail, in µW, and its time plus 1. -/
  railLast : Tab (Nat × Nat) := []
  clocks : List Nat := []
  sysGood : Bool := false
  aonGood : Bool := false
deriving DecidableEq, Repr, Inhabited

/-- Start attempts (R546 to R553). -/
structure StartSt where
  stage : Nat := 0
  open_ : Bool := false
  service : Bool := false
  banked : Bool := false
  failures : Nat := 0
  slot : Nat := 0
  fallback : Bool := false
  reused : Bool := false
  reasons : List Nat := []
  /-- The attempt is an exit from Ember; it was begun from Banked mode (R556). -/
  ember : Bool := false
  single : Bool := false
  /-- Banked mode follows stage 1 (R552). -/
  bankNext : Bool := false
  /-- The next attempt waits (R551). -/
  retry : Bool := false
  /-- An attempt forced to train in full. -/
  full : Bool := true
  began : Nat := 0
  times : List Nat := []
  total : Nat := 0
  seq : Nat := 0
  served : Nat := 0
  failed : Nat := 0
  /-- The THERMTRIP latch, and the cause of a stop (R586), that the next attempt records. -/
  tripLatch : Bool := false
  cause : Nat := 0
  /-- Attempts that failed since the last service. -/
  before : Nat := 0
  /-- When the attempt began, and whether a lost attempt's record is still to be counted (R550). -/
  opened : Nat := 0
  /-- The operating seconds of the last write of the start record (R549). -/
  recOp : Nat := 0
  /-- Fetching waits for the switch of re-sync (R548). -/
  noFetch : Bool := false
deriving DecidableEq, Repr, Inhabited

/-- A drive that start stage 5, or an insertion, identifies: index, link speed and width codes, the requirement it fails (0: none), blocks,
NGUID and label (R440, R442). -/
structure DriveIn where
  i : Nat
  speed : Nat := 0
  width : Nat := 0
  why : Nat := 0
  blocks : Nat := 0
  nguid : Nat := 0
  label : Option Label := none
deriving DecidableEq, Repr, Inhabited

/-- A memory unit that stage 4 finds: unit, GB, rank or stack-ID bits, x4 devices, and whether it is usable (R365). -/
structure UnitIn where
  u : Nat
  gb : Nat := 0
  rk : Nat := 0
  x4 : Bool := true
  ok : Bool := true
deriving DecidableEq, Repr, Inhabited

/-- What a start stage finds as it ends (Table 19.1): the cause of a failure that the part meets (0: none), hearths that fail their self-test,
memory units fitted, whether saved training was reused, drives ready, and, of the rings owned, the records valid on a copy and the highest reserves. -/
structure StageIn where
  cause : Nat := 0
  hearths : List Nat := []
  units : List UnitIn := []
  reuse : Bool := false
  drives : List DriveIn := []
  valid : List (Nat × Nat) := []
  reserves : List (Nat × Nat) := []
  /-- The owner that the last OWNERSHIP record of a table space names. -/
  owners : List (Nat × Nat) := []
deriving DecidableEq, Repr, Inhabited

/-- A loaded table-space key (R573): its reference, its check value and the key itself, which never leaves the secure SRAM. -/
structure SecKey where
  ref : Nat
  check : Bytes
  key : Bytes := []
  /-- KEY_UNLOAD has been asked for in a session, and is answered when no step uses the key. -/
  going : Option Nat := none
deriving DecidableEq, Repr, Inhabited

/-- A secured SPDM session (R571): number, transport (0 DOE PF0, 1 DOE PF1, 2 MCTP), and the requester's standing: 0 none, 1 owner, 2
Fjoholt. -/
structure SecSession where
  num : Nat
  transport : Nat
  auth : Nat := 0
deriving DecidableEq, Repr, Inhabited

/-- What an SPDM requester asks (R571, Table 20.5): a certificate slot, a challenge, a measurement block, a secured session with the root key
digest of the requester's chain when it authenticated itself, its end, and the installation of certificate slot 1. -/
inductive SpdmReq where
  | certificate (slot : Nat)
  | challenge (nonce : Bytes)
  | measurements (block : Nat) (nonce : Bytes)
  | open (root : Option Bytes)
  | close (session : Nat)
  | setCertificate (session : Nat) (cert : Bytes)
deriving DecidableEq, Repr, Inhabited

/-- A JTAG operation (Table 20.7): the boundary instructions of IEEE 1149.1; reads and writes of the register space, of the cores and of
HBM3E and DDR5 through context 0; halt, step and run; a hearth's scan chain. -/
inductive JtagOp where
  | bypass
  | idcode
  | sample
  | extest (v : Nat)
  | regRead (a : Nat)
  | regWrite (a v : Nat)
  | halt
  | step
  | run
  | coreRead (n : Nat)
  | coreWrite (n v : Nat)
  | memRead (dva : Nat)
  | memWrite (dva : Nat) (b : Bytes)
  | scan (h : Nat)
deriving DecidableEq, Repr, Inhabited

/-- A security message (Table 20.6), with the outcome of the wipe that a token brings. -/
inductive SecAsk where
  | nonceGet
  | tokenApply (tok : Bytes) (ok : Bool)
  | keyLoad (ref : Nat) (key : Bytes)
  | keyUnload (ref : Nat)
  | keyStatus
  | svnCommit
  | debugLock
deriving DecidableEq, Repr, Inhabited

/-- The security block (R559 to R584). -/
structure SecSt where
  lifecycle : Nat := 3
  /-- Owner slots burnt, in order: root key digest, and whether it is revoked. -/
  owners : List (Bytes × Bool) := [(Config.ownerDigest, false)]
  debug : Nat := 0
  nonce : Option Bytes := none
  keys : List SecKey := []
  sessions : List SecSession := []
  nextSession : Nat := 1
  /-- Messages received while a key is being withdrawn, with their sessions, in order (R577). -/
  waiting : List (Nat × SecAsk) := []
  wipeFail : Bool := false
  wipes : Nat := 0
  svnMin : Nat := 0
  svnRun : Nat := 0
  /-- Certificate slot 1 (R571). -/
  cert1 : Bytes := []
  ide : List Nat := []
  /-- Streams that have refused a write, by 8 * port + stream, with the function whose writes wait, and those writes (R572). -/
  ideStop : List (Nat × Nat) := []
  ideHeld : List (Nat × Out) := []
  latchA : Bool := false
  latchB : Bool := false
  lowA : Bool := false
  lowB : Bool := false
  tampers : Nat := 0
  unlocks : Nat := 0
  /-- A wipe falls due at the exit from Ember or at the next start (R579, R627). -/
  wipeDue : Bool := false
  /-- The identity is lost for good (RETIRED). -/
  lost : Bool := false
  /-- The control processor is halted by JTAG, and the bits of the last debug read. -/
  halted : Bool := false
  jtag : Nat := 0
deriving DecidableEq, Repr, Inhabited

/-- A RX4 command that runs (R611): the copied block, records done, the total, the rows FILE_OUT will commit, the epoch and row numbers
FILE_IN reads, and a FILE_OUT past its last record. -/
structure Rx4Run where
  block : Bytes
  done : Nat := 0
  total : Int := 0
  rows : List Bytes := []
  file : List Bytes := []
  epoch : Nat := 0
  commit : Option Nat := none
deriving DecidableEq, Repr, Inhabited

/-- The RX4 window (R608 to R618). -/
structure Rx4St where
  cmd : Tab Byte := []
  run : Option Rx4Run := none
  state : Nat := 0
  legacy : Nat := 0
  status : Nat := 0
  overrun : Bool := false
  done : Nat := 0
  invalid : Nat := 0
  overflow : Nat := 0
  epoch : Nat := 0
  table : List Bytes := []
  hearth : Option Nat := none
  lock : Option Nat := none
  claims : List Nat := []
  reason : Nat := 0
deriving DecidableEq, Repr, Inhabited

/-- What wakes the device in Ember: the source's bit (Table 18.9), and for a GPIO wake the pins, one bit each. -/
structure WakeBy where
  src : Nat := 0
  pins : Nat := 0
deriving DecidableEq, Repr, Inhabited

/-- A host port's link (R543, R597). -/
structure HLink where
  up : Bool := false
  perst : Bool := true
  held : Bool := false
  recovering : Bool := false
deriving DecidableEq, Repr, Inhabited

/-- Low-speed pins (R633, R634): GPIO levels, UART characters sent and the time until which nothing is sent. -/
structure PinSt where
  gpioIn : Nat := 0
  uart : List Nat := []
  uartQuiet : Nat := 0
  uartRate : Nat := 0
deriving DecidableEq, Repr, Inhabited

end Sys2Proof.Machine
end

