-- ==== Sys2Proof/Machine/Digests.lean ====
section
/-!
DEFINITION. Sys2Proof/Machine/Digests.lean: the digests and signatures that the specification names and other standards define:
SHA-256, SHA-384, SHA-512 (FIPS 180-4), SHA3-256 (FIPS 202), their HMAC (FIPS 198-1), and ECDSA P-384 verification (FIPS 186-5).
PRESUMED: the specification names these algorithms (Table 5.2, R561, R564, R568, R573) and does not print them
(notes/assumptions/3.md). Unsafe: a slip here would be a false digest.
-/
namespace Sys2Proof.Machine

/-- Big-endian bytes read as a number. -/
def beNat (b : Bytes) : Nat := b.foldl (fun acc x => acc * 256 + x.toNat) 0

/-- The `n` least significant bytes of a number, big-endian. -/
def natBE (n x : Nat) : Bytes := (natLE n x).reverse

/-! ### SHA-2 -/

/-- The round constants of SHA-384 and SHA-512; those of SHA-256 are the upper halves of the first 64. -/
def sha2K : List Nat :=
  [0x428A2F98D728AE22, 0x7137449123EF65CD, 0xB5C0FBCFEC4D3B2F, 0xE9B5DBA58189DBBC, 0x3956C25BF348B538, 0x59F111F1B605D019,
   0x923F82A4AF194F9B, 0xAB1C5ED5DA6D8118, 0xD807AA98A3030242, 0x12835B0145706FBE, 0x243185BE4EE4B28C, 0x550C7DC3D5FFB4E2,
   0x72BE5D74F27B896F, 0x80DEB1FE3B1696B1, 0x9BDC06A725C71235, 0xC19BF174CF692694, 0xE49B69C19EF14AD2, 0xEFBE4786384F25E3,
   0x0FC19DC68B8CD5B5, 0x240CA1CC77AC9C65] ++
  [0x2DE92C6F592B0275, 0x4A7484AA6EA6E483, 0x5CB0A9DCBD41FBD4, 0x76F988DA831153B5, 0x983E5152EE66DFAB, 0xA831C66D2DB43210,
   0xB00327C898FB213F, 0xBF597FC7BEEF0EE4, 0xC6E00BF33DA88FC2, 0xD5A79147930AA725, 0x06CA6351E003826F, 0x142929670A0E6E70,
   0x27B70A8546D22FFC, 0x2E1B21385C26C926, 0x4D2C6DFC5AC42AED, 0x53380D139D95B3DF, 0x650A73548BAF63DE, 0x766A0ABB3C77B2A8,
   0x81C2C92E47EDAEE6, 0x92722C851482353B] ++
  [0xA2BFE8A14CF10364, 0xA81A664BBC423001, 0xC24B8B70D0F89791, 0xC76C51A30654BE30, 0xD192E819D6EF5218, 0xD69906245565A910,
   0xF40E35855771202A, 0x106AA07032BBD1B8, 0x19A4C116B8D2D0C8, 0x1E376C085141AB53, 0x2748774CDF8EEB99, 0x34B0BCB5E19B48A8,
   0x391C0CB3C5C95A63, 0x4ED8AA4AE3418ACB, 0x5B9CCA4F7763E373, 0x682E6FF3D6B2B8A3, 0x748F82EE5DEFB2FC, 0x78A5636F43172F60,
   0x84C87814A1F0AB72, 0x8CC702081A6439EC] ++
  [0x90BEFFFA23631E28, 0xA4506CEBDE82BDE9, 0xBEF9A3F7B2C67915, 0xC67178F2E372532B, 0xCA273ECEEA26619C, 0xD186B8C721C0C207,
   0xEADA7DD6CDE0EB1E, 0xF57D4F7FEE6ED178, 0x06F067AA72176FBA, 0x0A637DC5A2C898A6, 0x113F9804BEF90DAE, 0x1B710B35131C471B,
   0x28DB77F523047D84, 0x32CAAB7B40C72493, 0x3C9EBE0A15C9BEBC, 0x431D67C49C100D4C, 0x4CC5D4BECB3E42B6, 0x597F299CFC657E2A,
   0x5FCB6FAB3AD6FAEC, 0x6C44198C4A475817]

/-- The initial values of SHA-512; those of SHA-256 are the upper halves. -/
def sha512Init : List Nat :=
  [0x6A09E667F3BCC908, 0xBB67AE8584CAA73B, 0x3C6EF372FE94F82B, 0xA54FF53A5F1D36F1, 0x510E527FADE682D1, 0x9B05688C2B3E6C1F,
   0x1F83D9ABFB41BD6B, 0x5BE0CD19137E2179]

/-- The initial values of SHA-384. -/
def sha384Init : List Nat :=
  [0xCBBB9D5DC1059ED8, 0x629A292A367CD507, 0x9159015A3070DD17, 0x152FECD8F70E5939, 0x67332667FFC00B31, 0x8EB44A8768581511,
   0xDB0C2E0D64F98FA7, 0x47B5481DBEFA4FA4]

/-- The rotation and shift amounts of one width of SHA-2: the two of the compression, and the two of the schedule (the last of each
a shift). -/
structure Sha2Form where
  big0 : Nat × Nat × Nat
  big1 : Nat × Nat × Nat
  small0 : Nat × Nat × Nat
  small1 : Nat × Nat × Nat
deriving DecidableEq, Repr

/-- SHA-256. -/
def sha256Form : Sha2Form := ⟨(2, 13, 22), (6, 11, 25), (7, 18, 3), (17, 19, 10)⟩
/-- SHA-384 and SHA-512. -/
def sha512Form : Sha2Form := ⟨(28, 34, 39), (14, 18, 41), (1, 8, 7), (19, 61, 6)⟩

/-- Three rotations, exclusive or. -/
def rot3 {w : Nat} (r : Nat × Nat × Nat) (x : BitVec w) : BitVec w :=
  x.rotateRight r.1 ^^^ x.rotateRight r.2.1 ^^^ x.rotateRight r.2.2

/-- Two rotations and a shift, exclusive or. -/
def rotShift {w : Nat} (r : Nat × Nat × Nat) (x : BitVec w) : BitVec w :=
  x.rotateRight r.1 ^^^ x.rotateRight r.2.1 ^^^ (x >>> r.2.2)

/-- One round: the working variables a to h, and the window of sixteen schedule words, of which the first is this round's. -/
def sha2Round {w : Nat} (f : Sha2Form) (k : BitVec w) (st : List (BitVec w) × List (BitVec w)) : List (BitVec w) × List (BitVec w) :=
  let v := fun i => st.1.getD i 0
  let m := fun i => st.2.getD i 0
  let t1 := v 7 + rot3 f.big1 (v 4) + ((v 4 &&& v 5) ^^^ (~~~(v 4) &&& v 6)) + k + m 0
  let t2 := rot3 f.big0 (v 0) + ((v 0 &&& v 1) ^^^ (v 0 &&& v 2) ^^^ (v 1 &&& v 2))
  ([t1 + t2, v 0, v 1, v 2, v 3 + t1, v 4, v 5, v 6], st.2.drop 1 ++ [rotShift f.small1 (m 14) + m 9 + rotShift f.small0 (m 1) + m 0])

/-- One block of 16 words added into a hash value. -/
def sha2Block {w : Nat} (f : Sha2Form) (ks : List (BitVec w)) (h : List (BitVec w)) (blk : Bytes) : List (BitVec w) :=
  let ws := (List.range 16).map (fun i => BitVec.ofNat w (beNat (sliceAt blk (i * (w / 8)) (w / 8))))
  let r := ks.foldl (fun st k => sha2Round f k st) (h, ws)
  List.zipWith (· + ·) h r.1

/-- A message in whole blocks: a one bit, zeros and the bit length, big-endian in `n` bytes. -/
def sha2Pad (block n : Nat) (m : Bytes) : Bytes :=
  m ++ [0x80] ++ List.replicate ((2 * block - (m.length + 1 + n) % block) % block) 0 ++ natBE n (8 * m.length)

/-- SHA-2 of a message from its initial values. -/
def sha2 (w : Nat) (f : Sha2Form) (ks init : List (BitVec w)) (m : Bytes) : Bytes :=
  let p := sha2Pad (2 * w) (w / 4) m
  let r := (List.range (p.length / (2 * w))).foldl (fun (st : List (BitVec w) × Bytes) _ =>
    (sha2Block f ks st.1 (st.2.take (2 * w)), st.2.drop (2 * w))) (init, p)
  (r.1.map (fun x => natBE (w / 8) x.toNat)).flatten

/-! ### SHA-3 -/

/-- The round constants of Keccak-f[1600]. -/
def keccakRC : List Nat :=
  [0x0000000000000001, 0x0000000000008082, 0x800000000000808A, 0x8000000080008000, 0x000000000000808B, 0x0000000080000001,
   0x8000000080008081, 0x8000000000008009, 0x000000000000008A, 0x0000000000000088, 0x0000000080008009, 0x000000008000000A] ++
  [0x000000008000808B, 0x800000000000008B, 0x8000000000008089, 0x8000000000008003, 0x8000000000008002, 0x8000000000000080,
   0x000000000000800A, 0x800000008000000A, 0x8000000080008081, 0x8000000000008080, 0x0000000080000001, 0x8000000080008008]

/-- The rotation of lane x + 5 y. -/
def keccakRot : List Nat :=
  [0, 1, 62, 28, 27, 36, 44, 6, 55, 20, 3, 10, 43, 25, 39, 41, 45, 15, 21, 8, 18, 2, 61, 56, 14]

/-- One round of Keccak-f[1600] over the 25 lanes: theta, rho and pi, chi, iota. -/
def keccakRound (a : List (BitVec 64)) (rc : Nat) : List (BitVec 64) :=
  let g := fun (l : List (BitVec 64)) i => l.getD i 0
  let c := (List.range 5).map (fun x => g a x ^^^ g a (x + 5) ^^^ g a (x + 10) ^^^ g a (x + 15) ^^^ g a (x + 20))
  let t := (List.range 25).map (fun i => g a i ^^^ g c ((i + 4) % 5) ^^^ (g c ((i + 1) % 5)).rotateLeft 1)
  let b := (List.range 25).map (fun i => let x := i % 5; let y := i / 5; let s := (x + 3 * y) % 5 + 5 * x
    (g t s).rotateLeft (keccakRot.getD s 0))
  let o := (List.range 25).map (fun i => let x := i % 5; let y := i / 5 * 5
    g b i ^^^ (~~~(g b ((x + 1) % 5 + y)) &&& g b ((x + 2) % 5 + y)))
  match o with
  | [] => []
  | l :: ls => (l ^^^ BitVec.ofNat 64 rc) :: ls

/-- SHA3-256: a rate of 136 bytes and the domain suffix 01. -/
def sha3 (m : Bytes) : Bytes :=
  let z := 135 - m.length % 136
  let p := m ++ (if z = 0 then [0x86] else 0x06 :: (List.replicate (z - 1) 0 ++ [0x80]))
  let r := (List.range (p.length / 136)).foldl (fun (st : List (BitVec 64) × Bytes) _ =>
    let x := (List.range 25).map (fun i => st.1.getD i 0 ^^^ (if i < 17 then BitVec.ofNat 64 (leNat (sliceAt st.2 (8 * i) 8)) else 0))
    (keccakRC.foldl keccakRound x, st.2.drop 136)) (List.replicate 25 0, p)
  ((r.1.take 4).map (fun l => natLE 8 l.toNat)).flatten

/-! ### The algorithms of Table 5.2 -/

/-- SHA-256, SHA-384, SHA-512 and SHA3-256, by algorithm 0 to 3 (Table 5.2). -/
def sha (alg : Nat) (m : Bytes) : Bytes :=
  match alg with
  | 0 => sha2 32 sha256Form ((sha2K.take 64).map (fun k => BitVec.ofNat 32 (k / 2 ^ 32))) (sha512Init.map (fun k => BitVec.ofNat 32 (k / 2 ^ 32))) m
  | 1 => (sha2 64 sha512Form (sha2K.map (BitVec.ofNat 64)) (sha384Init.map (BitVec.ofNat 64)) m).take 48
  | 2 => sha2 64 sha512Form (sha2K.map (BitVec.ofNat 64)) (sha512Init.map (BitVec.ofNat 64)) m
  | _ => sha3 m

/-- The block of an algorithm in bytes. -/
def shaBlock (alg : Nat) : Nat := if alg = 0 then 64 else if alg < 3 then 128 else 136

/-- The HMAC of each of them. -/
def hmac (alg : Nat) (key m : Bytes) : Bytes :=
  let b := shaBlock alg
  let k0 := if b < key.length then sha alg key else key
  let k := k0 ++ List.replicate (b - k0.length) 0
  sha alg (k.map (· ^^^ 0x5C) ++ sha alg (k.map (· ^^^ 0x36) ++ m))

/-! ### ECDSA P-384 -/

/-- The prime of the field. -/
def p384P : Nat := 2 ^ 384 - 2 ^ 128 - 2 ^ 96 + 2 ^ 32 - 1
/-- The coefficient b. -/
def p384B : Nat := 0xB3312FA7E23EE7E4988E056BE3F82D19181D9C6EFE8141120314088F5013875AC656398D8A2ED19D2A85C8EDD3EC2AEF
/-- The order of the base point. -/
def p384N : Nat := 0xFFFFFFFFFFFFFFFFFFFFFFFFFFFFFFFFFFFFFFFFFFFFFFFFC7634D81F4372DDF581A0DB248B0A77AECEC196ACCC52973
/-- The base point. -/
def p384G : Nat × Nat × Nat :=
  (0xAA87CA22BE8B05378EB1C71EF320AD746E1D3B628BA79B9859F741E082542A385502F25DBF55296C3A545E3872760AB7,
   0x3617DE4A96262C6F5D9E98BF9292DC29F8F41DBD289A147CE9DA3113B5F0B8C00A60B1CE1D7E819D7A431D7C90EA0E5F, 1)

/-- x to a power modulo p, the bits of the power most significant first. -/
def powModBits (p x : Nat) (bits : List Bool) : Nat :=
  bits.foldl (fun r b => let s := r * r % p; if b then s * x % p else s) (1 % p)

/-- The `n` low bits of a number, most significant first. -/
def msbBits (n e : Nat) : List Bool := ((List.range n).map (fun i => e.testBit i)).reverse

/-- The inverse modulo a prime (Fermat). -/
def invMod (p x : Nat) : Nat := powModBits p x (msbBits 384 (p - 2))

/-- A point doubled, in Jacobian coordinates; z = 0 is the point at infinity. -/
def p384Double (q : Nat × Nat × Nat) : Nat × Nat × Nat :=
  let p := p384P
  let x := q.1; let y := q.2.1; let z := q.2.2
  let yy := y * y % p
  let s := 4 * x * yy % p
  let zz := z * z % p
  let m := 3 * ((x + p - zz) * (x + zz)) % p
  let x3 := (m * m + 2 * p - 2 * s % p) % p
  (x3, (m * (s + p - x3) + p - 8 * yy * yy % p) % p, 2 * y * z % p)

/-- The sum of two points. -/
def p384Add (q r : Nat × Nat × Nat) : Nat × Nat × Nat :=
  let p := p384P
  if q.2.2 = 0 then r else if r.2.2 = 0 then q else
  let z1 := q.2.2 * q.2.2 % p
  let z2 := r.2.2 * r.2.2 % p
  let u1 := q.1 * z2 % p
  let u2 := r.1 * z1 % p
  let s1 := q.2.1 * (z2 * r.2.2 % p) % p
  let s2 := r.2.1 * (z1 * q.2.2 % p) % p
  if u1 = u2 then (if s1 = s2 then p384Double q else (1, 1, 0)) else
  let h := (u2 + p - u1) % p
  let g := (s2 + p - s1) % p
  let hh := h * h % p
  let hhh := hh * h % p
  let v := u1 * hh % p
  let x3 := (g * g + 3 * p - hhh - 2 * v % p) % p
  (x3, (g * (v + p - x3) + p - s1 * hhh % p) % p, q.2.2 * r.2.2 % p * h % p)

/-- A point times a number below 2^384. -/
def p384Mul (k : Nat) (q : Nat × Nat × Nat) : Nat × Nat × Nat :=
  (msbBits 384 k).foldl (fun acc b => let d := p384Double acc; if b then p384Add d q else d) (1, 1, 0)

/-- ECDSA P-384 verification over the SHA-384 digest of a message (R564, R568): public key x then y, signature r then s, big-endian. -/
def ecdsaVerify (key msg sig : Bytes) : Bool :=
  let x := beNat (key.take 48); let y := beNat ((key.drop 48).take 48)
  let r := beNat (sig.take 48); let s := beNat ((sig.drop 48).take 48)
  let onCurve := decide (x < p384P) && decide (y < p384P) && decide (y * y % p384P = (x * x % p384P * x + (p384P - 3) * x + p384B) % p384P)
  if key.length ≠ 96 ∨ sig.length ≠ 96 ∨ !onCurve ∨ r = 0 ∨ p384N ≤ r ∨ s = 0 ∨ p384N ≤ s then false else
  let w := invMod p384N s
  let q := p384Add (p384Mul (beNat (sha 1 msg) * w % p384N) p384G) (p384Mul (r * w % p384N) (x, y, 1))
  if q.2.2 = 0 then false else
  let zi := invMod p384P q.2.2
  decide (q.1 * (zi * zi % p384P) % p384P % p384N = r)

end Sys2Proof.Machine
end

