-- ==== Sys2Proof/Machine/ExuInt.lean ====
section
/-!
DEFINITION. Sys2Proof/Machine/ExuInt.lean: classes IALU, IMUL and IDIV of the expression unit (R233, R241, R256 to R259).
Integer instructions compute the exact result and reduce it once.
-/
namespace Sys2Proof.Machine

/-- An exact integer result with the overflow mark of R257. -/
def intRes (t : XTy) (z : Int) : LaneOut :=
  { val := t.ofInt z, valid := true,
    causes := if t.minInt ≤ z ∧ z ≤ t.maxInt then [] else [causeIntOverflow] }

/-- A two-operand integer instruction on exact integers. -/
def Exu.int2 (x : Exu) (w : XFields) (f : Int → Int → LaneOut) : Exu :=
  let t := w.xty
  x.vec w t w.d.toNat {} (x.bin t w.a.toNat w.b.toNat (fun a b => f (t.toInt a) (t.toInt b)))

/-- A one-operand integer instruction. -/
def Exu.int1 (x : Exu) (w : XFields) (f : Int → LaneOut) : Exu :=
  let t := w.xty
  x.vec w t w.d.toNat {} (x.un t w.a.toNat (fun a => f (t.toInt a)))

/-- A bitwise instruction of two lanes. -/
def Exu.bit2 (x : Exu) (w : XFields) (f : Nat → Nat → Nat) : Exu :=
  let t := w.xty
  x.vec w t w.d.toNat {} (x.bin t w.a.toNat w.b.toNat (fun a b => .ok (f a b)))

/-- ADD (R256, R257). -/
def opAdd (x : Exu) (w : XFields) : Exu := x.int2 w (fun a b => intRes w.xty (a + b))
/-- SUB (R256, R257). -/
def opSub (x : Exu) (w : XFields) : Exu := x.int2 w (fun a b => intRes w.xty (a - b))
/-- AND (R257: no mark). -/
def opAnd (x : Exu) (w : XFields) : Exu := x.bit2 w (fun a b => a &&& b)
/-- OR (R257: no mark). -/
def opOr (x : Exu) (w : XFields) : Exu := x.bit2 w (fun a b => a ||| b)
/-- XOR (R257: no mark). -/
def opXor (x : Exu) (w : XFields) : Exu := x.bit2 w (fun a b => a ^^^ b)

/-- The shift count held in a lane, read as unsigned at the type's width (R233). -/
def shiftCount (t : XTy) (b : Int) : Nat := wrapNat t.bits b

/-- SHL (R233): a count of the width or more gives 0. -/
def opShl (x : Exu) (w : XFields) : Exu :=
  let t := w.xty
  x.int2 w (fun a b =>
    let n := shiftCount t b
    .ok (if t.bits ≤ n then 0 else t.ofInt (a * Int.ofNat (2 ^ n))))

/-- SHR (R233): 0 or a fill of the sign bit at a count of the width or more. -/
def opShr (x : Exu) (w : XFields) : Exu :=
  let t := w.xty
  x.int2 w (fun a b =>
    let n := shiftCount t b
    .ok (if t.bits ≤ n then (if a < 0 then t.ofInt (-1) else 0) else t.ofInt (a / Int.ofNat (2 ^ n))))

/-- The stored bytes of a PDEC lane. -/
def pdecBytes (raw : Nat) : Bytes := natLE 16 raw

/-- Whether a comes before b for MIN and MAX: numeric for integers and D128, R274 for floating point, R269 for PDEC (equal
values by their stored bytes). -/
def minBefore (t : XTy) (a b : Nat) : Bool :=
  match t with
  | .f16 | .bf16 | .f32 | .f64 => decide (t.ffmt.orderKey a < t.ffmt.orderKey b)
  | .d128 => decide (signed 128 a < signed 128 b)
  | .pdec =>
    let x := packedInt (pdecBytes a)
    let y := packedInt (pdecBytes b)
    decide (x < y) || (x == y && cmpBytes (pdecBytes a) (pdecBytes b) == .lt)
  | _ => decide (t.toInt a < t.toInt b)

/-- MIN (R257, R260, R269, R274). -/
def opMin (x : Exu) (w : XFields) : Exu :=
  let t := w.xty
  x.vec w t w.d.toNat (x.annOf w.a.toNat) (x.bin t w.a.toNat w.b.toNat (fun a b => .ok (if minBefore t b a then b else a)))
/-- MAX (R257, R260, R269, R274). -/
def opMax (x : Exu) (w : XFields) : Exu :=
  let t := w.xty
  x.vec w t w.d.toNat (x.annOf w.a.toNat) (x.bin t w.a.toNat w.b.toNat (fun a b => .ok (if minBefore t a b then b else a)))
/-- ABS (R257): MIN of a signed type gives MIN and OVF. -/
def opAbs (x : Exu) (w : XFields) : Exu := x.int1 w (fun a => intRes w.xty (Int.ofNat a.natAbs))
/-- NEG (R257). -/
def opNeg (x : Exu) (w : XFields) : Exu := x.int1 w (fun a => intRes w.xty (-a))
/-- NOT (R257: no mark). -/
def opNot (x : Exu) (w : XFields) : Exu := x.int1 w (fun a => .ok (w.xty.ofInt (-a - 1)))
/-- MUL (R257): the low half. -/
def opMul (x : Exu) (w : XFields) : Exu := x.int2 w (fun a b => intRes w.xty (a * b))
/-- MULH (R257): the high half, no mark. -/
def opMulh (x : Exu) (w : XFields) : Exu := x.int2 w (fun a b => .ok (w.xty.ofInt (a * b / Int.ofNat (2 ^ w.xty.bits))))

/-- The destination type of WMUL (R241). -/
def wideTy : XTy → XTy
  | .i16 => .i32
  | .u16 => .u32
  | .i32 => .i64
  | _ => .u64

/-- WMUL (R241): exact products, which never set OVF. -/
def opWmul (x : Exu) (w : XFields) : Exu :=
  let t := w.xty
  x.vec w (wideTy t) w.d.toNat {} (x.bin t w.a.toNat w.b.toNat (fun a b => .ok ((wideTy t).ofInt (t.toInt a * t.toInt b))))

/-- The dot product of n fields of a type in two U32 lanes. -/
def dotSum (t : XTy) (a b : Nat) : Nat → Int
  | 0 => 0
  | n + 1 => dotSum t a b n + t.toInt (a / 2 ^ (t.bits * n)) * t.toInt (b / 2 ^ (t.bits * n))

/-- A dot product added to the destination, which is read too (R241). -/
def Exu.dot (x : Exu) (w : XFields) (dt : XTy) (n : Nat) : Exu :=
  x.vec w dt w.d.toNat {} (fun i =>
    if x.valid w.a.toNat i && x.valid w.b.toNat i && x.valid w.d.toNat i then
      intRes dt (dt.toInt (x.lane dt w.d.toNat i) + dotSum w.xty (x.lane .u32 w.a.toNat i) (x.lane .u32 w.b.toNat i) n)
    else .null)

/-- DOT8 (R241): four byte products into an I32 lane. -/
def opDot8 (x : Exu) (w : XFields) : Exu := x.dot w .i32 4
/-- DOT16 (R241): two half products into an I64 pair. -/
def opDot16 (x : Exu) (w : XFields) : Exu := x.dot w .i64 2

/-- Quotient, remainder and causes of Table 8.2. -/
def divRes (t : XTy) (a b : Int) : Int × Int × List Nat :=
  if b = 0 then (if t.isSigned then -1 else t.maxInt, a, [causeDivZero])
  else if t.isSigned ∧ a = t.minInt ∧ b = -1 then (t.minInt, 0, [causeDivOverflow])
  else (Int.tdiv a b, Int.tmod a b, [])

/-- DIV (R259). -/
def opDiv (x : Exu) (w : XFields) : Exu :=
  x.int2 w (fun a b => let r := divRes w.xty a b; { val := w.xty.ofInt r.1, valid := true, causes := r.2.2 })
/-- REM (R259). -/
def opRem (x : Exu) (w : XFields) : Exu :=
  x.int2 w (fun a b => let r := divRes w.xty a b; { val := w.xty.ofInt r.2.1, valid := true, causes := r.2.2 })
/-- DIVREM (R259): the quotient to d, then the remainder to c, both from the operands as they stood (R251) (DEDUCED, notes/assumptions/22.md). -/
def opDivrem (x : Exu) (w : XFields) : Exu :=
  let t := w.xty
  let y := opDiv x w
  let ex := x.execMask w
  let c := w.c.toNat
  let f := x.bin t w.a.toNat w.b.toNat (fun a b => .ok (t.ofInt (divRes t (t.toInt a) (t.toInt b)).2.1))
  let old := tabGet 0 y.vld c
  { y with
    v := putLanes y.v c t.group ex (fun i => (f i).val) 128
    vld := tabSet 0 y.vld c (maskOf (fun i => if ex.getLsbD i then (f i).valid else old.getLsbD i))
    ann := tabSet {} y.ann c {} }

end Sys2Proof.Machine
end

