-- ==== Sys2Proof/Machine/ExuFp.lean ====
section
/-!
DEFINITION. Sys2Proof/Machine/ExuFp.lean: class FPU (R270 to R277), the decimal instructions of class DEC (R260 to R269) and
CVT (R280, Table 8.8). Every rounding is one rounding of an exact value.
-/
namespace Sys2Proof.Machine

/-- A two-operand floating-point instruction. -/
def Exu.fp2 (x : Exu) (w : XFields) (f : Nat → Nat → Nat × FFlags) : Exu :=
  let t := w.xty
  x.vec w t w.d.toNat {} (x.bin t w.a.toNat w.b.toNat (fun a b => .fp (f a b)))

/-- A one-operand floating-point instruction. -/
def Exu.fp1 (x : Exu) (w : XFields) (f : Nat → Nat × FFlags) : Exu :=
  let t := w.xty
  x.vec w t w.d.toNat {} (x.un t w.a.toNat (fun a => .fp (f a)))

/-- FADD (R275). -/
def opFadd (x : Exu) (w : XFields) : Exu := x.fp2 w (fun a b => w.xty.ffmt.add x.ctx.mode x.ctx.ftz false a b)
/-- FSUB (R275). -/
def opFsub (x : Exu) (w : XFields) : Exu := x.fp2 w (fun a b => w.xty.ffmt.add x.ctx.mode x.ctx.ftz true a b)
/-- FMUL (R275). -/
def opFmul (x : Exu) (w : XFields) : Exu := x.fp2 w (fun a b => w.xty.ffmt.mul x.ctx.mode x.ctx.ftz a b)
/-- FDIV (R275). -/
def opFdiv (x : Exu) (w : XFields) : Exu := x.fp2 w (fun a b => w.xty.ffmt.div x.ctx.mode x.ctx.ftz a b)
/-- FSQRT (R275). -/
def opFsqrt (x : Exu) (w : XFields) : Exu := x.fp1 w (fun a => w.xty.ffmt.sqrt x.ctx.mode x.ctx.ftz a)
/-- FMA (R275): one rounding of a * b + c. -/
def opFma (x : Exu) (w : XFields) : Exu :=
  let t := w.xty
  x.vec w t w.d.toNat {} (fun i =>
    if x.valid w.a.toNat i && x.valid w.b.toNat i && x.valid w.c.toNat i then
      .fp (t.ffmt.fma x.ctx.mode x.ctx.ftz (x.lane t w.a.toNat i) (x.lane t w.b.toNat i) (x.lane t w.c.toNat i))
    else .null)
/-- FMIN (R274): no flag, ftz does not apply. -/
def opFmin (x : Exu) (w : XFields) : Exu := x.fp2 w (fun a b => (w.xty.ffmt.minOp a b, 0))
/-- FMAX (R274). -/
def opFmax (x : Exu) (w : XFields) : Exu := x.fp2 w (fun a b => (w.xty.ffmt.maxOp a b, 0))
/-- FABS (R272): only the sign bit changes. -/
def opFabs (x : Exu) (w : XFields) : Exu := x.fp1 w (fun a => (w.xty.ffmt.mag a, 0))
/-- FNEG (R272). -/
def opFneg (x : Exu) (w : XFields) : Exu :=
  x.fp1 w (fun a => (w.xty.ffmt.mag a + w.xty.ffmt.signBit (!w.xty.ffmt.isNeg a), 0))

/-! ### Decimals -/

/-- 10^38, from which a raw result overflows (R261). -/
def dec38 : Nat := 10 ^ 38

/-- An exact raw decimal result (R261): its low 128 bits, and DEC_OVERFLOW from 10^38 in magnitude. -/
def decRes (z : Int) : LaneOut :=
  { val := wrapNat 128 z, valid := true, causes := if z.natAbs < dec38 then [] else [causeDecOverflow] }

/-- The raw value of a D128 lane. -/
def rawDec (x : Nat) : Int := signed 128 x

/-- The raw value aligned exactly to a scale at or above its own. -/
def alignDec (r : Int) (s s' : Nat) : Int := r * Int.ofNat (10 ^ (s' - s))

/-- The result annotation of DADD and DSUB (Table 8.3). -/
def addAnn (a b : XAnn) : XAnn := ⟨min 38 (max (a.p - a.s) (b.p - b.s) + max a.s b.s + 1), max a.s b.s⟩

/-- A two-operand decimal instruction. -/
def Exu.dec2 (x : Exu) (w : XFields) (an : XAnn) (f : Int → Int → LaneOut) : Exu :=
  x.vec w .d128 w.d.toNat an (x.bin .d128 w.a.toNat w.b.toNat (fun a b => f (rawDec a) (rawDec b)))

/-- DADD (R260, R261). -/
def opDadd (x : Exu) (w : XFields) : Exu :=
  let a := x.annOf w.a.toNat
  let b := x.annOf w.b.toNat
  x.dec2 w (addAnn a b) (fun u v => decRes (alignDec u a.s (max a.s b.s) + alignDec v b.s (max a.s b.s)))
/-- DSUB (R260, R261). -/
def opDsub (x : Exu) (w : XFields) : Exu :=
  let a := x.annOf w.a.toNat
  let b := x.annOf w.b.toNat
  x.dec2 w (addAnn a b) (fun u v => decRes (alignDec u a.s (max a.s b.s) - alignDec v b.s (max a.s b.s)))
/-- DMUL (R260, R261). -/
def opDmul (x : Exu) (w : XFields) : Exu :=
  let a := x.annOf w.a.toNat
  let b := x.annOf w.b.toNat
  x.dec2 w ⟨min 38 (a.p + b.p), a.s + b.s⟩ (fun u v => decRes (u * v))

/-- An exact quotient of two integers rounded once to a whole number (R262). -/
def divRound (md : RMode) (num den : Int) : Int := roundRat md (if den < 0 then -num else num) den.natAbs

/-- DDIV (R263): the exact quotient rounded once to the result scale; a zero divisor gives all ones and ERR. -/
def opDdiv (x : Exu) (w : XFields) : Exu :=
  let a := x.annOf w.a.toNat
  let b := x.annOf w.b.toNat
  let s := w.imm.toNat % 256
  x.dec2 w ⟨38, s⟩ (fun u v =>
    if v = 0 then { val := 2 ^ 128 - 1, valid := true, causes := [causeDivZero] }
    else decRes (divRound x.ctx.mode (u * Int.ofNat (10 ^ (b.s + s))) (v * Int.ofNat (10 ^ a.s))))

/-- A raw value brought to another scale (R264): exact upward, rounded downward. -/
def rescale (md : RMode) (r : Int) (s s' : Nat) : Int :=
  if s ≤ s' then r * Int.ofNat (10 ^ (s' - s)) else roundRat md r (10 ^ (s - s'))

/-- DSCALE (R264). -/
def opDscale (x : Exu) (w : XFields) : Exu :=
  let a := x.annOf w.a.toNat
  let s := w.imm.toNat % 256
  x.vec w .d128 w.d.toNat ⟨38, s⟩ (x.un .d128 w.a.toNat (fun u => decRes (rescale x.ctx.mode (rawDec u) a.s s)))

/-- An exact packed result of nr digits (R268): the low digits with the preferred sign of the exact result. -/
def packedRes (nr : Nat) (z : Int) : LaneOut :=
  let ovr := decide (10 ^ nr ≤ z.natAbs)
  { val := leNat (packedOf nr (decide (z < 0)) (z.natAbs % 10 ^ nr)), valid := true,
    causes := if ovr then [causeDecOverflow] else [] }

/-- PADD and PSUB (R268). -/
def Exu.packed2 (x : Exu) (w : XFields) (f : Int → Int → Int) : Exu :=
  let a := x.annOf w.a.toNat
  let b := x.annOf w.b.toNat
  let nr := min 31 (max a.p b.p + 1)
  x.vec w .pdec w.d.toNat ⟨nr, 0⟩ (x.bin .pdec w.a.toNat w.b.toNat (fun u v =>
    if packedValid a.p (pdecBytes u) && packedValid b.p (pdecBytes v) then
      packedRes nr (f (packedInt (pdecBytes u)) (packedInt (pdecBytes v)))
    else { val := leNat (packedOf nr false 0), valid := true, causes := [causePackedInvalid] }))

/-- PADD (R268). -/
def opPadd (x : Exu) (w : XFields) : Exu := x.packed2 w (· + ·)
/-- PSUB (R268). -/
def opPsub (x : Exu) (w : XFields) : Exu := x.packed2 w (· - ·)

/-- PCHK (R268): ERR where the operand is invalid; it writes nothing else. -/
def opPchk (x : Exu) (w : XFields) : Exu :=
  x.mark (x.execMask w) (x.un .pdec w.a.toNat (fun u =>
    { causes := if packedValid (x.annOf w.a.toNat).p (pdecBytes u) then [] else [causePackedInvalid] }))

/-! ### CVT -/

/-- A saturated decimal result at precision p (Table 8.8). -/
def satDec (p : Nat) (z : Int) (fl : FFlags := 0) : LaneOut :=
  if z.natAbs < 10 ^ p then { val := wrapNat 128 z, valid := true }
  else
    let m : Int := Int.ofNat (10 ^ p - 1)
    { val := wrapNat 128 (if z < 0 then -m else m), valid := true, flags := fl, causes := [causeConvRange] }

/-- A saturated integer result (Table 8.8). -/
def satInt (t : XTy) (z : Int) (fl : FFlags := 0) (inexact : FFlags := 0) : LaneOut :=
  if z < t.minInt then { val := t.ofInt t.minInt, valid := true, flags := fl, causes := [causeConvRange] }
  else if t.maxInt < z then { val := t.ofInt t.maxInt, valid := true, flags := fl, causes := [causeConvRange] }
  else { val := t.ofInt z, valid := true, flags := inexact }

/-- A saturated packed result of n digits (Table 8.8): n nines with the preferred sign. -/
def satPacked (n : Nat) (z : Int) : LaneOut :=
  if z.natAbs < 10 ^ n then { val := leNat (packedOf n (decide (z < 0)) z.natAbs), valid := true }
  else { val := leNat (packedOf n (decide (z < 0)) (10 ^ n - 1)), valid := true, causes := [causeConvRange] }

/-- A NaN operand of a conversion to an integer or decimal type (R277, Table 8.8). -/
def convNan : LaneOut := { val := 0, valid := true, flags := flInvalid, causes := [causeConvNan] }

/-- An invalid packed operand (Table 8.8). -/
def convBadPacked (v : Nat) : LaneOut := { val := v, valid := true, causes := [causePackedInvalid] }

/-- A floating-point value converted to an integer (Table 8.8). -/
def fpToInt (f : FFmt) (t : XTy) (md : RMode) (ftz : Bool) (x : Nat) : LaneOut :=
  match f.decode (f.flush ftz x) with
  | .nan _ => convNan
  | .inf s => { val := t.ofInt (if s then t.minInt else t.maxInt), valid := true, flags := flInvalid, causes := [causeConvRange] }
  | .fin s m e =>
    let r := dyadic s m e
    let z := roundRat md r.1 r.2
    satInt t z flInvalid (if z * Int.ofNat r.2 = r.1 then 0 else flInexact)

/-- A floating-point value converted to D128(p, s) (Table 8.8) (DEDUCED, notes/assumptions/21.md). -/
def fpToDec (f : FFmt) (p s : Nat) (md : RMode) (ftz : Bool) (x : Nat) : LaneOut :=
  match f.decode (f.flush ftz x) with
  | .nan _ => convNan
  | .inf n => satDec p (if n then -(Int.ofNat (10 ^ p)) else Int.ofNat (10 ^ p)) flInvalid
  | .fin n m e =>
    let r := dyadic n m e
    satDec p (roundRat md (r.1 * Int.ofNat (10 ^ s)) r.2) flInvalid

/-- CVT of one valid lane from a source type to a destination type (R280, Table 8.8). -/
def cvtLane (md : RMode) (ftz : Bool) (src dst : XTy) (sa da : XAnn) (u : Nat) : LaneOut :=
  if src.isInt then
    if dst.isInt then satInt dst (src.toInt u)
    else if dst.isFp then .fp (dst.ffmt.ofRat md ftz (src.toInt u) 1)
    else satDec da.p (src.toInt u * Int.ofNat (10 ^ da.s))
  else if src.isFp then
    if dst.isInt then fpToInt src.ffmt dst md ftz u
    else if dst.isFp then .fp (src.ffmt.convert dst.ffmt md ftz u)
    else fpToDec src.ffmt da.p da.s md ftz u
  else match src with
    | .d128 =>
      if dst.isInt then satInt dst (rescale md (rawDec u) sa.s 0)
      else if dst.isFp then .fp (dst.ffmt.ofRat md ftz (rawDec u) (10 ^ sa.s))
      else if dst = .pdec then satPacked da.p (rescale md (rawDec u) sa.s 0)
      else satDec da.p (rescale md (rawDec u) sa.s da.s)
    | _ =>
      if dst = .pdec then
        (if packedValid sa.p (pdecBytes u) then satPacked da.p (packedInt (pdecBytes u))
         else convBadPacked (leNat (packedOf da.p false 0)))
      else
        (if packedValid sa.p (pdecBytes u) then satDec da.p (packedInt (pdecBytes u) * Int.ofNat (10 ^ da.s))
         else convBadPacked 0)

/-- The precision and scale, or digit count, that a CVT's imm names (R280). -/
def cvtAnn (w : XFields) : XAnn :=
  match w.xty with
  | .d128 => ⟨w.imm.toNat / 256 % 256, w.imm.toNat % 256⟩
  | .pdec => ⟨w.imm.toNat / 256 % 256, 0⟩
  | _ => {}

/-- CVT (R280). -/
def opCvt (x : Exu) (w : XFields) : Exu :=
  let src := (XTy.ofCode w.mod.toNat).getD .i8
  x.vec w w.xty w.d.toNat (cvtAnn w)
    (x.un src w.a.toNat (cvtLane x.ctx.mode x.ctx.ftz src w.xty (x.annOf w.a.toNat) (cvtAnn w)))

end Sys2Proof.Machine
end

