-- ==== Sys2Proof/Machine/ExuLoad.lean ====
section
/-!
DEFINITION. Sys2Proof/Machine/ExuLoad.lean: classes SLOT and CONST of the expression unit (R234, R237, R238) and the slice
results of class CTRL (R231, R235, R236, R282).
-/
namespace Sys2Proof.Machine

/-- A load on the executing lanes: a non-null value sets its lane valid, a null gives zero and invalid (R229). -/
def Exu.load (x : Exu) (w : XFields) (t : XTy) (d : Nat) (an : XAnn) (get : Nat → Val) : Exu :=
  match t with
  | .str => x.vecStr w d (fun i => (get i, []))
  | _ => x.vec w t d an (fun i => match get i with | some b => .ok (t.ofPlain b) | none => .null)

/-- The annotation of a slot number. -/
def Exu.slotAnn (x : Exu) (n : Nat) : XAnn := match x.slot n with | some c => annOfTy c.ty | none => {}

/-- VLD (R237). -/
def opVld (x : Exu) (w : XFields) : Exu :=
  x.load w w.xty w.d.toNat (x.slotAnn w.imm.toNat) (x.slotVal w.imm.toNat)

/-- VLDF (R238): chunk mod * 16 + b of a FIXED_BINARY slot. -/
def opVldf (x : Exu) (w : XFields) : Exu :=
  let j := w.mod.toNat * 16 + w.b.toNat
  x.load w .u32 w.d.toNat {} (fun i => (x.slotVal w.imm.toNat i).map (fun b => sliceAt b (4 * j) 4))

/-- Field f of a structure load (R238): to the group d + f * g, from byte imm[23:7] + f * w of slot imm[6:0]. -/
def Exu.loadField (y x : Exu) (w : XFields) (f : Nat) : Exu :=
  let t := w.xty
  y.load w t (w.d.toNat + f * t.group) {} (fun i =>
    (x.slotVal (w.imm.toNat % 128) i).map (fun b => sliceAt b (w.imm.toNat / 128 + f * t.bytes) t.bytes))

/-- VLD2 (R238). -/
def opVld2 (x : Exu) (w : XFields) : Exu := (x.loadField x w 0).loadField x w 1
/-- VLD3 (R238). -/
def opVld3 (x : Exu) (w : XFields) : Exu := ((x.loadField x w 0).loadField x w 1).loadField x w 2
/-- VLD4 (R238). -/
def opVld4 (x : Exu) (w : XFields) : Exu := (((x.loadField x w 0).loadField x w 1).loadField x w 2).loadField x w 3

/-- The operands a TST names: kind imm[7], first index imm[23:8], count b * 32 + c (Table 7.5). -/
def Exu.tstOperands (x : Exu) (w : XFields) : List Val :=
  (List.range (w.b.toNat * 32 + w.c.toNat)).map (fun j =>
    ((x.operand (w.imm.toNat / 128 % 2) (w.imm.toNat / 256 + j)).map (·.2)).join)

/-- TST (R237): the result of CMP on the decoded values, over the codes of Table 5.3 (DEDUCED, notes/assumptions/25.md). -/
def opTst (x : Exu) (w : XFields) : Exu :=
  let n := w.imm.toNat % 128
  let op := w.mod.toNat
  let ops := x.tstOperands w
  match x.slot n with
  | none => x.mrow w (fun _ => false)
  | some c =>
    let bad := fun i => match x.slotVal n i with
      | some b => c.ty.ty == .packedDecimal && decide (op < 8) && !packedValid c.ty.a b
      | none => false
    let y := x.mark (x.execMask w) (fun i => { causes := if bad i then [causePackedInvalid] else [] })
    y.mrow w (fun i => !bad i && testVal c.ty.ty op (x.slotVal n i) ops)

/-- VROW (R237): a null in every executed lane of a billet without row numbers. -/
def opVrow (x : Exu) (w : XFields) : Exu :=
  let nums := (x.ctx.billets[x.bil]?).bind (·.rowNums)
  x.load w .u64 w.d.toNat {} (fun i => nums.bind (fun l => (l[128 * x.slice + i]?).map (natLE 8)))

/-- MLD: rows whose BOOL slot is true (R227) (DEDUCED, notes/assumptions/16.md). -/
def opMld (x : Exu) (w : XFields) : Exu :=
  x.mrow w (fun i => match x.slotVal w.imm.toNat i with | some b => leNat b != 0 | none => false)

/-- VLDN: the validity of a slot. -/
def opVldn (x : Exu) (w : XFields) : Exu := x.mrow w (fun i => (x.slotVal w.imm.toNat i).isSome)

/-- A broadcast of a constant (kind 0) or parameter (kind 1) (R234). -/
def Exu.broadcast (x : Exu) (w : XFields) (kind : Nat) : Exu :=
  match x.operand kind w.imm.toNat with
  | some (t, v) => x.load w w.xty w.d.toNat (annOfTy t) (fun _ => v)
  | none => x.load w w.xty w.d.toNat {} (fun _ => none)

/-- VBC. -/
def opVbc (x : Exu) (w : XFields) : Exu := x.broadcast w 0
/-- VBP. -/
def opVbp (x : Exu) (w : XFields) : Exu := x.broadcast w 1

/-- The scalar of a fixed-width value (R234, rule 5): signed types sign-extended, the others zero-extended; a null is 0. -/
def scalarOf (t : SlotTy) (v : Val) : Word64 :=
  match v with
  | none => 0
  | some b => if t.ty.kind == .sint then BitVec.ofInt 64 (signed (8 * b.length) (leNat b)) else BitVec.ofNat 64 (leNat b)

/-- SLC. -/
def opSlc (x : Exu) (w : XFields) : Exu :=
  match x.operand 0 w.imm.toNat with
  | some (t, v) => x.sSet w.d.toNat (scalarOf t v)
  | none => x.sSet w.d.toNat 0
/-- SLP. -/
def opSlp (x : Exu) (w : XFields) : Exu :=
  match x.operand 1 w.imm.toNat with
  | some (t, v) => x.sSet w.d.toNat (scalarOf t v)
  | none => x.sSet w.d.toNat 0
/-- SLI: imm sign-extended. -/
def opSli (x : Exu) (w : XFields) : Exu := x.sSet w.d.toNat (w.imm.signExtend 64)

/-- VBS: S[a] in every executed lane, reduced to the type. -/
def opVbs (x : Exu) (w : XFields) : Exu :=
  let t := w.xty
  let v := (x.sGet w.a.toNat).toNat
  x.vec w t w.d.toNat {} (fun _ => .ok (if t.isInt then t.ofInt (Int.ofNat v) else v % 2 ^ t.bits))

/-- VIOTA: lane indices 0 to 127. -/
def opViota (x : Exu) (w : XFields) : Exu := x.vec w .u32 w.d.toNat {} (fun i => .ok i)

/-! ### CTRL -/

/-- NOP. -/
def opNop (x : Exu) (_w : XFields) : Exu := x

/-- SETSEL (R235, R236): the predicate is M0 AND M[a]; the last execution holds. -/
def opSetsel (x : Exu) (w : XFields) : Exu := { x with sel := some (x.m0 &&& x.mGet w.a.toNat) }

/-- The output of a number replaced (R236: the last execution holds). -/
def setOut (l : List (Nat × List Val)) (k : Nat) (v : List Val) : List (Nat × List Val) :=
  (k, v) :: l.filter (fun p => p.1 != k)

/-- OUT (R236, R265): the group's values as output bytes; a D128 value beyond the record's precision marks its row. -/
def opOut (x : Exu) (w : XFields) : Exu :=
  let t := w.xty
  let k := w.imm.toNat
  let a := w.a.toNat
  let vals := (List.range 128).map (fun i =>
    if x.m0.getLsbD i && x.valid a i then some (x.toPlain t (x.lane t a i)) else none)
  let lim := ((x.ctx.outs.find? (fun p => p.1 == k)).map (·.2.a)).getD 38
  let y := if t = .d128 then
      x.mark x.m0 (x.un t a (fun u =>
        { causes := if (x.ctx.outs.any (fun p => p.1 == k)) && decide (10 ^ lim ≤ (rawDec u).natAbs) then [causePrecision] else [] }))
    else x
  { y with outs := setOut y.outs k vals }

/-- MOUT (R236): a BOOL output with values M[a] and validity M[b]. -/
def opMout (x : Exu) (w : XFields) : Exu :=
  let va := x.mGet w.a.toNat
  let vb := x.mGet w.b.toNat
  let vals := (List.range 128).map (fun i =>
    if x.m0.getLsbD i && vb.getLsbD i then some [if va.getLsbD i then 1 else 0] else none)
  { x with outs := setOut x.outs w.imm.toNat vals }

/-- The row records below row n without the rows of a mask. -/
def clearRecs (t : Tab RowRec) (k : Mask) : Nat → Tab RowRec
  | 0 => t
  | n + 1 => if k.getLsbD n then tabSet {} (clearRecs t k n) n {} else clearRecs t k n

/-- ECLR (R282): the whole record of each row in M[a] is cleared. -/
def opEclr (x : Exu) (w : XFields) : Exu :=
  let k := x.m0 &&& x.mGet w.a.toNat
  { x with err := x.err &&& ~~~k, ovf := x.ovf &&& ~~~k, recs := clearRecs x.recs k 128 }

end Sys2Proof.Machine
end

