-- ==== Sys2Proof/Machine/ExuMask.lean ====
section
/-!
DEFINITION. Sys2Proof/Machine/ExuMask.lean: classes CMP, MASK, SCAL and RED of the expression unit (R229, R230, R231, R243,
R256, R269, R273).
-/
namespace Sys2Proof.Machine

/-- One lane of CMP: the relation and the causes it marks (R269, R273, Table 8.3). -/
def cmpLane (x : Exu) (t : XTy) (op a b i : Nat) : Bool × List Nat :=
  let u := x.lane t a i
  let v := x.lane t b i
  match t with
  | .f16 | .bf16 | .f32 | .f64 => (cmpOp op (t.ffmt.compare u v), [])
  | .d128 =>
    let sa := (x.annOf a).s
    let sb := (x.annOf b).s
    (cmpOp op (some (compare (rawDec u * Int.ofNat (10 ^ sb)) (rawDec v * Int.ofNat (10 ^ sa)))), [])
  | .pdec =>
    if packedValid (x.annOf a).p (pdecBytes u) && packedValid (x.annOf b).p (pdecBytes v) then
      (cmpOp op (some (compare (packedInt (pdecBytes u)) (packedInt (pdecBytes v)))), [])
    else (false, [causePackedInvalid])
  | .str => (cmpOp op (some (cmpBytes (x.str a i) (x.str b i))), [])
  | _ => (cmpOp op (some (compare (t.toInt u) (t.toInt v))), [])

/-- CMP (R230, R273). -/
def opCmp (x : Exu) (w : XFields) : Exu :=
  let a := w.a.toNat
  let b := w.b.toNat
  x.cmpRow w (fun i => x.valid a i && x.valid b i) (cmpLane x w.xty w.mod.toNat a b)

/-- VSEL (R229): the result takes the validity of the operand it selects; bits are copied unchanged (R269, R272). -/
def opVsel (x : Exu) (w : XFields) : Exu :=
  let t := w.xty
  let k := x.mGet w.c.toNat
  x.vec w t w.d.toNat (x.annOf w.a.toNat) (fun i =>
    let r := if k.getLsbD i then w.a.toNat else w.b.toNat
    { val := x.lane t r i, valid := x.valid r i })

/-- VALID: a group's validity as a mask. -/
def opValid (x : Exu) (w : XFields) : Exu := x.mrow w (x.valid w.a.toNat)

/-- SETNULL: validity of group d cleared in the executed rows of M[a] (DEDUCED, notes/assumptions/19.md). -/
def opSetnull (x : Exu) (w : XFields) : Exu :=
  { x with vld := tabSet 0 x.vld w.d.toNat (tabGet 0 x.vld w.d.toNat &&& ~~~(x.execMask w &&& x.mGet w.a.toNat)) }

/-- A mask instruction of two masks (R230: two-valued logic). -/
def Exu.mask2 (x : Exu) (w : XFields) (f : Bool → Bool → Bool) : Exu :=
  x.mrow w (fun i => f ((x.mGet w.a.toNat).getLsbD i) ((x.mGet w.b.toNat).getLsbD i))

/-- MAND. -/
def opMand (x : Exu) (w : XFields) : Exu := x.mask2 w (fun a b => a && b)
/-- MOR. -/
def opMor (x : Exu) (w : XFields) : Exu := x.mask2 w (fun a b => a || b)
/-- MXOR. -/
def opMxor (x : Exu) (w : XFields) : Exu := x.mask2 w (fun a b => a != b)
/-- MANDN. -/
def opMandn (x : Exu) (w : XFields) : Exu := x.mask2 w (fun a b => a && !b)
/-- MNOT. -/
def opMnot (x : Exu) (w : XFields) : Exu := x.mrow w (fun i => !(x.mGet w.a.toNat).getLsbD i)
/-- MMOV. -/
def opMmov (x : Exu) (w : XFields) : Exu := x.mrow w (fun i => (x.mGet w.a.toNat).getLsbD i)
/-- MCNT: the number of bits set. -/
def opMcnt (x : Exu) (w : XFields) : Exu := x.sSet w.d.toNat (BitVec.ofNat 64 (popCount (x.mGet w.a.toNat)))
/-- MERR: ERR copied to a mask (R231). -/
def opMerr (x : Exu) (w : XFields) : Exu := x.mrow w (fun i => x.err.getLsbD i)
/-- MOVF: OVF copied to a mask (R231). -/
def opMovf (x : Exu) (w : XFields) : Exu := x.mrow w (fun i => x.ovf.getLsbD i)

/-! ### SCAL: modulo 2^64, no mark (R256) -/

/-- A scalar instruction of two scalars. -/
def Exu.scal2 (x : Exu) (w : XFields) (f : Word64 → Word64 → Word64) : Exu :=
  x.sSet w.d.toNat (f (x.sGet w.a.toNat) (x.sGet w.b.toNat))

/-- SADD. -/
def opSadd (x : Exu) (w : XFields) : Exu := x.scal2 w (· + ·)
/-- SSUB of class SCAL. -/
def opScalSsub (x : Exu) (w : XFields) : Exu := x.scal2 w (· - ·)
/-- SAND. -/
def opSand (x : Exu) (w : XFields) : Exu := x.scal2 w (· &&& ·)
/-- SOR. -/
def opSor (x : Exu) (w : XFields) : Exu := x.scal2 w (· ||| ·)
/-- SXOR. -/
def opSxor (x : Exu) (w : XFields) : Exu := x.scal2 w (· ^^^ ·)
/-- SSHL: a count of 64 or more gives 0 (R233). -/
def opSshl (x : Exu) (w : XFields) : Exu := x.scal2 w (fun a b => if 64 ≤ b.toNat then 0 else a <<< b.toNat)
/-- SSHR, logical: a count of 64 or more gives 0 (R233). -/
def opSshr (x : Exu) (w : XFields) : Exu := x.scal2 w (fun a b => if 64 ≤ b.toNat then 0 else a >>> b.toNat)
/-- SMUL: the low half. -/
def opSmul (x : Exu) (w : XFields) : Exu := x.scal2 w (· * ·)
/-- SMOV. -/
def opSmov (x : Exu) (w : XFields) : Exu := x.sSet w.d.toNat (x.sGet w.a.toNat)
/-- SLT: 1 or 0, signed. -/
def opSlt (x : Exu) (w : XFields) : Exu := x.scal2 w (fun a b => if a.slt b then 1 else 0)
/-- SLTU: 1 or 0, unsigned. -/
def opSltu (x : Exu) (w : XFields) : Exu := x.scal2 w (fun a b => if a.ult b then 1 else 0)

/-! ### RED (R243) and the exact sums of R211 and R212 -/

/-- The state of an exact floating-point sum (R211): the accumulator in units of 2^−1074 and what addends were seen. -/
structure FSum where
  acc : Int := 0
  posInf : Bool := false
  negInf : Bool := false
  nan : Bool := false
  sigNan : Bool := false
  posZero : Bool := false
  negZero : Bool := false
  nonZero : Bool := false
deriving DecidableEq, Repr, Inhabited

/-- An addend of a format added exactly, n times (R211, R115); a subnormal addend is a zero of its sign under ftz. -/
def FSum.add (s : FSum) (f : FFmt) (ftz : Bool) (x : Nat) (n : Nat := 1) : FSum :=
  match f.decode (f.flush ftz x) with
  | .nan sig => { s with nan := true, sigNan := s.sigNan || sig }
  | .inf neg => if neg then { s with negInf := true } else { s with posInf := true }
  | .fin neg m e =>
    if m = 0 then (if neg then { s with negZero := true } else { s with posZero := true })
    else
      let z := Int.ofNat (m * 2 ^ (e + 1074).toNat * n)
      { s with acc := s.acc + (if neg then -z else z), nonZero := true }

/-- Two partial sums merged (R211). -/
def FSum.merge (a b : FSum) : FSum :=
  { acc := a.acc + b.acc, posInf := a.posInf || b.posInf, negInf := a.negInf || b.negInf, nan := a.nan || b.nan,
    sigNan := a.sigNan || b.sigNan, posZero := a.posZero || b.posZero, negZero := a.negZero || b.negZero,
    nonZero := a.nonZero || b.nonZero }

/-- The result of a sum in a format, divided by n (1 for SUM, the count for AVG), rounded once (R212, R214). -/
def FSum.result (s : FSum) (f : FFmt) (md : RMode) (ftz : Bool) (n : Nat := 1) : Nat × FFlags :=
  if s.nan || (s.posInf && s.negInf) then
    (f.nanBits, if (s.posInf && s.negInf) || s.sigNan then flInvalid else 0)
  else if s.posInf then (f.infBits, 0)
  else if s.negInf then (f.signBit true + f.infBits, 0)
  else if s.acc = 0 then
    (if !s.nonZero && s.negZero && !s.posZero then f.signBit true
     else if !s.nonZero && s.posZero && !s.negZero then 0
     else f.signBit (md == .towardNegative), 0)
  else f.ofRat md ftz s.acc (2 ^ 1074 * n)

/-- The rows a reduction takes: executing and valid (R243), in lane order. -/
def Exu.redRows (x : Exu) (w : XFields) : List Nat :=
  (List.range 128).filter (fun i => (x.execMask w).getLsbD i && x.valid w.a.toNat i)

/-- RADD (R243): a sum modulo 2^64, or the exact floating-point sum rounded once to binary64; 0 when no lane qualifies. -/
def opRadd (x : Exu) (w : XFields) : Exu :=
  let t := w.xty
  let rows := x.redRows w
  let v : Word64 :=
    if rows.isEmpty then 0
    else if t.isFp then
      BitVec.ofNat 64 ((rows.foldl (fun s i => s.add t.ffmt x.ctx.ftz (x.lane t w.a.toNat i)) ({} : FSum)).result
        fmtF64 x.ctx.mode x.ctx.ftz).1
    else BitVec.ofInt 64 (rows.foldl (fun s i => s + t.toInt (x.lane t w.a.toNat i)) 0)
  x.sSet w.d.toNat v

/-- The lane that comes first in the key order among rows (RMIN) or last (RMAX). -/
def pickLane (x : Exu) (t : XTy) (a : Nat) (greatest : Bool) : List Nat → Option Nat
  | [] => none
  | i :: r =>
    match pickLane x t a greatest r with
    | none => some i
    | some j =>
      let before := minBefore t (x.lane t a j) (x.lane t a i)
      let after := minBefore t (x.lane t a i) (x.lane t a j)
      if (if greatest then after else before) then some j else some i

/-- A reduction by key order; a value narrower than 64 bits is zero-extended (R243). -/
def Exu.redPick (x : Exu) (w : XFields) (greatest : Bool) : Exu :=
  let t := w.xty
  x.sSet w.d.toNat (match pickLane x t w.a.toNat greatest (x.redRows w) with
    | some i => BitVec.ofNat 64 (x.lane t w.a.toNat i % 2 ^ t.bits)
    | none => 0)

/-- RMIN. -/
def opRmin (x : Exu) (w : XFields) : Exu := x.redPick w false
/-- RMAX. -/
def opRmax (x : Exu) (w : XFields) : Exu := x.redPick w true

end Sys2Proof.Machine
end

