-- ==== Sys2Proof/Machine/ExuMem.lean ====
section
/-!
DEFINITION. Sys2Proof/Machine/ExuMem.lean: classes MEM, STR and PAT of the expression unit (R239, R240, R242, R289, R293, R300).
-/
namespace Sys2Proof.Machine

/-- The bytes of the slice scratch (R240). -/
def scratchBytes : Nat := 65536

/-- An element of n bytes at an offset of a gather table: mod 0 constant imm, 1 parameter imm, 2 slice scratch (R239). None past
the end of the table. -/
def Exu.gather (x : Exu) (space imm off n : Nat) : Option Bytes :=
  if space = 2 then (if off + n ≤ scratchBytes then some (tabBytes x.scratch off n) else none)
  else
    let tbl := (((x.operand space imm).map (·.2)).join).getD []
    if off + n ≤ tbl.length then some (sliceAt tbl off n) else none

/-- VGATH (R239): a null index gives a null; an element past the end gives zero, invalid, and ERR. -/
def opVgath (x : Exu) (w : XFields) : Exu :=
  let t := w.xty
  x.vec w t w.d.toNat {} (x.un .u32 w.a.toNat (fun idx =>
    match x.gather w.mod.toNat w.imm.toNat (idx * t.bytes) t.bytes with
    | some b => .ok (t.ofPlain b)
    | none => { causes := [causeIndexRange] }))

/-- The lanes below n of VSCAT written in lane order: the highest lane wins (R240) (DEDUCED, notes/assumptions/18.md). -/
def scatLanes (x : Exu) (w : XFields) (ex : Mask) : Nat → Tab Byte
  | 0 => x.scratch
  | n + 1 =>
    let t := w.xty
    let s := scatLanes x w ex n
    let off := x.lane .u32 w.a.toNat n * t.bytes
    if ex.getLsbD n && x.valid w.a.toNat n && decide (off + t.bytes ≤ scratchBytes) then
      tabSetBytes s off (natLE t.bytes (if x.valid w.b.toNat n then x.lane t w.b.toNat n else 0))
    else s

/-- VSCAT (R240): an element beyond the scratch is not written and its lane, where both operands are valid (R231), sets ERR (DEDUCED,
notes/assumptions/24.md). -/
def opVscat (x : Exu) (w : XFields) : Exu :=
  let t := w.xty
  let ex := x.execMask w
  { x.mark (maskOf (fun i => ex.getLsbD i && x.valid w.b.toNat i)) (x.un .u32 w.a.toNat (fun idx =>
      { causes := if idx * t.bytes + t.bytes ≤ scratchBytes then [] else [causeIndexRange] })) with
    scratch := scatLanes x w ex 128 }

/-- Whether a group of a type may be moved at a scratch address (R240): aligned to the lane and inside the scratch. -/
def groupFits (t : XTy) (addr : Nat) : Bool := decide (addr % (4 * t.group) = 0) && decide (addr + 512 * t.group ≤ scratchBytes)

/-- VLDS (R240): a whole group from S[a]; unaligned or beyond the scratch transfers nothing and sets ERR. -/
def opVlds (x : Exu) (w : XFields) : Exu :=
  let t := w.xty
  let addr := (x.sGet w.a.toNat).toNat
  if groupFits t addr then
    x.vec w t w.d.toNat t.widest (fun i => .ok (leNat (tabBytes x.scratch (addr + 4 * t.group * i) (4 * t.group))))
  else x.mark (x.execMask w) (fun _ => { causes := [causeIndexRange] })

/-- The executing lanes below n of VSTS written. -/
def storeLanes (x : Exu) (w : XFields) (ex : Mask) (addr : Nat) : Nat → Tab Byte
  | 0 => x.scratch
  | n + 1 =>
    let t := w.xty
    let s := storeLanes x w ex addr n
    if ex.getLsbD n then
      tabSetBytes s (addr + 4 * t.group * n) (natLE (4 * t.group) (if x.valid w.b.toNat n then x.lane t w.b.toNat n else 0))
    else s

/-- VSTS (R240). -/
def opVsts (x : Exu) (w : XFields) : Exu :=
  let t := w.xty
  let addr := (x.sGet w.a.toNat).toNat
  if groupFits t addr then { x with scratch := storeLanes x w (x.execMask w) addr 128 }
  else x.mark (x.execMask w) (fun _ => { causes := [causeIndexRange] })

/-! ### STR (R242) -/

/-- A test of two strings into a mask. -/
def Exu.strTest (x : Exu) (w : XFields) (f : Bytes → Bytes → Bool) : Exu :=
  let a := w.a.toNat
  let b := w.b.toNat
  x.cmpRow w (fun i => x.valid a i && x.valid b i) (fun i => (f (x.str a i) (x.str b i), []))

/-- SCMP (R58, R242). -/
def opScmp (x : Exu) (w : XFields) : Exu := x.strTest w (fun a b => cmpOp w.mod.toNat (some (cmpBytes a b)))
/-- SPRE: an empty b is true. -/
def opSpre (x : Exu) (w : XFields) : Exu := x.strTest w (fun a b => isPrefix b a)
/-- SSUF: an empty b is true. -/
def opSsuf (x : Exu) (w : XFields) : Exu := x.strTest w (fun a b => isPrefix b.reverse a.reverse)

/-- SFIND (R242): −1 where b does not occur. -/
def opSfind (x : Exu) (w : XFields) : Exu :=
  let a := w.a.toNat
  let b := w.b.toNat
  x.vec w .i32 w.d.toNat {} (fun i =>
    if x.valid a i && x.valid b i then
      .ok (XTy.i32.ofInt (match findBytes (x.str b i) (x.str a i) 0 with | some k => Int.ofNat k | none => -1))
    else .null)

/-- SLEN. -/
def opSlen (x : Exu) (w : XFields) : Exu :=
  x.vec w .i32 w.d.toNat {} (fun i =>
    if x.valid w.a.toNat i then .ok (XTy.i32.ofInt (Int.ofNat (x.str w.a.toNat i).length)) else .null)

/-- SSUB of class STR (R242): a negative start or length gives null and ERR; past the end is cut (DEDUCED, notes/assumptions/26.md). -/
def opStrSsub (x : Exu) (w : XFields) : Exu :=
  let a := w.a.toNat
  let b := w.b.toNat
  let c := w.c.toNat
  x.vecStr w w.d.toNat (fun i =>
    if x.valid a i && x.valid b i && x.valid c i then
      let st := XTy.i32.toInt (x.lane .i32 b i)
      let ln := XTy.i32.toInt (x.lane .i32 c i)
      if st < 0 ∨ ln < 0 then (none, [causeStringArg])
      else (some (((x.str a i).drop st.toNat).take ln.toNat), [])
    else (none, []))

/-! ### PAT -/

/-- The bytes the pattern engine consumes over the executing valid lanes. -/
def rpBytes (x : Exu) (w : XFields) : Nat :=
  let a := x.ctx.autos.getD w.imm.toNat {}
  (List.range 128).foldl (fun n i =>
    if (x.execMask w).getLsbD i && x.valid w.a.toNat i then n + (runAutomaton a (x.str w.a.toNat i)).2 else n) 0

/-- RPM (R289, R230). -/
def opRpm (x : Exu) (w : XFields) : Exu :=
  let a := x.ctx.autos.getD w.imm.toNat {}
  let y := x.cmpRow w (x.valid w.a.toNat) (fun i => ((runAutomaton a (x.str w.a.toNat i)).1.isSome, []))
  { y with rpe := x.rpe + rpBytes x w }

/-- RPX (R289): the match as a string, or a null. -/
def opRpx (x : Exu) (w : XFields) : Exu :=
  let a := x.ctx.autos.getD w.imm.toNat {}
  let y := x.vecStr w w.d.toNat (fun i =>
    if x.valid w.a.toNat i then
      ((runAutomaton a (x.str w.a.toNat i)).1.map (matchBytes (x.str w.a.toNat i)), [])
    else (none, []))
  { y with rpe := x.rpe + rpBytes x w }

/-- The lookups of the executing valid lanes in lane order: the table as repaired, repairs, results by lane, and whether a lane
met an unresolvable fault (R300). -/
def cmlLanes (x : Exu) (w : XFields) (ex : Mask) : Nat → Cmt × Nat × List (Nat × Nat) × Bool
  | 0 => (x.cmt, 0, [], false)
  | n + 1 =>
    let r := cmlLanes x w ex n
    if ex.getLsbD n && x.valid w.a.toNat n then
      let t := w.imm.toNat
      match careLookup r.1 (x.ctx.cares.getD t {}) t (x.lane w.xty w.a.toNat n) r.2.1 2 with
      | (c, f, some v) => (c, f, (n, v) :: r.2.2.1, r.2.2.2)
      | (c, f, none) => (c, f, r.2.2.1, true)
    else r

/-- CML (R293, R294, R300): when a false hit survives two repeats the instruction retires nothing and the fault is unresolvable. -/
def opCml (x : Exu) (w : XFields) : Exu :=
  let r := cmlLanes x w (x.execMask w) 128
  if r.2.2.2 then { x with cmt := r.1, fixes := x.fixes + r.2.1, unres := true }
  else
    let y := x.vec w .u64 w.d.toNat {} (fun i =>
      if x.valid w.a.toNat i then .ok (((r.2.2.1.find? (fun p => p.1 == i)).map (·.2)).getD 0) else .null)
    { y with cmt := r.1, fixes := x.fixes + r.2.1 }

end Sys2Proof.Machine
end

