-- ==== Sys2Proof/Machine/ExuRun.lean ====
section
/-!
DEFINITION. Sys2Proof/Machine/ExuRun.lean: running code on an expression unit: slices (R224, R228), issue on the wide or
narrow unit (R244 to R247), faults (R250 to R253), branches (R234) and whole blocks.
-/
namespace Sys2Proof.Machine

/-- What an instruction does to the registers, masks, scalars, marks, scratch and outputs of its unit (Table 7.5). Branches and END
change none of them. -/
def opRun (op : XOp) (x : Exu) (w : XFields) : Exu :=
  match op with
  | .nop => opNop x w | .endS => x | .brz => x | .brnz => x | .brmz => x
  | .setsel => opSetsel x w | .outV => opOut x w | .mout => opMout x w | .eclr => opEclr x w
  | .vld => opVld x w | .vldf => opVldf x w | .vld2 => opVld2 x w | .vld3 => opVld3 x w | .vld4 => opVld4 x w
  | .tst => opTst x w | .vrow => opVrow x w | .mld => opMld x w | .vldn => opVldn x w
  | .vbc => opVbc x w | .vbp => opVbp x w | .slc => opSlc x w | .slp => opSlp x w | .sli => opSli x w
  | .vbs => opVbs x w | .viota => opViota x w
  | .add => opAdd x w | .sub => opSub x w | .and => opAnd x w | .or => opOr x w | .xor => opXor x w
  | .shl => opShl x w | .shr => opShr x w | .min => opMin x w | .max => opMax x w | .abs => opAbs x w
  | .neg => opNeg x w | .not => opNot x w
  | .mul => opMul x w | .mulh => opMulh x w | .wmul => opWmul x w | .dot8 => opDot8 x w | .dot16 => opDot16 x w
  | .div => opDiv x w | .rem => opRem x w | .divrem => opDivrem x w
  | .fadd => opFadd x w | .fsub => opFsub x w | .fmul => opFmul x w | .fdiv => opFdiv x w | .fsqrt => opFsqrt x w
  | .fma => opFma x w | .fmin => opFmin x w | .fmax => opFmax x w | .fabs => opFabs x w | .fneg => opFneg x w
  | .cvt => opCvt x w
  | .dadd => opDadd x w | .dsub => opDsub x w | .dmul => opDmul x w | .ddiv => opDdiv x w | .dscale => opDscale x w
  | .padd => opPadd x w | .psub => opPsub x w | .pchk => opPchk x w
  | .cmp => opCmp x w | .vsel => opVsel x w | .valid => opValid x w | .setnull => opSetnull x w
  | .mand => opMand x w | .mor => opMor x w | .mxor => opMxor x w | .mandn => opMandn x w | .mnot => opMnot x w
  | .mmov => opMmov x w | .mcnt => opMcnt x w | .merr => opMerr x w | .movf => opMovf x w
  | .vgath => opVgath x w | .vscat => opVscat x w | .vlds => opVlds x w | .vsts => opVsts x w
  | .scmp => opScmp x w | .spre => opSpre x w | .ssuf => opSsuf x w | .sfind => opSfind x w | .slen => opSlen x w
  | .strSsub => opStrSsub x w
  | .rpm => opRpm x w | .rpx => opRpx x w | .cml => opCml x w
  | .sadd => opSadd x w | .scalSsub => opScalSsub x w | .sand => opSand x w | .sor => opSor x w | .sxor => opSxor x w
  | .sshl => opSshl x w | .sshr => opSshr x w | .smul => opSmul x w | .smov => opSmov x w | .slt => opSlt x w
  | .sltu => opSltu x w
  | .radd => opRadd x w | .rmin => opRmin x w | .rmax => opRmax x w

/-- The instructions the vector units run; every other one runs on a shared unit (R244, R249, Table 7.10). -/
def XOp.isVector : XOp → Bool
  | .vld | .vldf | .vld2 | .vld3 | .vld4 | .tst | .vrow | .vbc | .vbp | .vbs | .viota | .outV => true
  | .add | .sub | .and | .or | .xor | .shl | .shr | .min | .max | .abs | .neg | .not => true
  | .mul | .mulh | .wmul | .dot8 | .dot16 => true
  | .fadd | .fsub | .fmul | .fdiv | .fsqrt | .fma | .fmin | .fmax | .fabs | .fneg | .cvt => true
  | .dadd | .dsub | .dmul | .dscale | .padd | .psub | .pchk => true
  | .cmp | .vsel | .valid | .setnull | .vlds | .vsts | .radd | .rmin | .rmax => true
  | _ => false

/-! ### Slices -/

/-- M0 of slice j of a billet (R225): rows that exist and are selected on entry. -/
def sliceMask (b : XBillet) (j : Nat) : Mask :=
  maskOf (fun i => decide (128 * j + i < b.rows) && b.sel.getD (128 * j + i) false)

/-- The slices that are run, in order: those with a row selected on entry (R224). -/
def sliceList (c : XCtx) : List (Nat × Nat) :=
  ((List.range c.billets.length).map (fun b =>
    let bl := c.billets.getD b {}
    (List.range (ceilDiv bl.rows 128)).filterMap (fun j => if sliceMask bl j = 0 then none else some (b, j)))).flatten

/-- The unit at the start of slice j of billet b (R228): registers, masks, ERR and OVF clear; scalars and scratch clear at the
start of a billet. -/
def Exu.enter (x : Exu) (b j : Nat) (newBillet : Bool) : Exu :=
  let bl := x.ctx.billets.getD b {}
  { x with
    v := [], vld := [], ann := [], m := [], m0 := sliceMask bl j
    sr := if newBillet then [] else x.sr
    err := 0, ovf := 0, recs := []
    scratch := if newBillet then [] else x.scratch
    heap := if newBillet then [] else x.heap
    sel := none, outs := [], pos := 0, bil := b, slice := j, rows := bl.rows
    firstRow := bl.rowNums.bind (fun l => l[128 * j]?)
    busy := true }

/-- The unit with no slice left to run; an instruction that waits on a fault is dropped with the attempt (R249). -/
def Exu.halt (x : Exu) : Exu := { x with busy := false, m0 := 0, pos := 0, pend := none }

/-- The unit given a block to run: its first slice begins. -/
def Exu.begin (x : Exu) (c : XCtx) : Exu :=
  let y := { x with ctx := c, results := [], pend := none, unres := false }
  match sliceList c with
  | (b, j) :: _ => y.enter b j true
  | [] => y.halt

/-- What the current slice leaves. -/
def Exu.result (x : Exu) : XRes :=
  { bil := x.bil, slice := x.slice, m0 := x.m0, err := x.err, ovf := x.ovf, sel := x.sel, outs := x.outs, recs := x.recs }

/-- END (R234): the slice's results are kept and the next slice with a selected row begins. -/
def Exu.endSlice (x : Exu) : Exu :=
  let y := { x with results := x.results ++ [x.result] }
  match ((sliceList x.ctx).dropWhile (fun p => p != (x.bil, x.slice))).drop 1 with
  | (b, j) :: _ => y.enter b j (b != x.bil)
  | [] => y.halt

/-- Whether a branch is taken (Table 7.5). -/
def Exu.taken (x : Exu) (op : XOp) (w : XFields) : Bool :=
  match op with
  | .brz => x.sGet w.a.toNat == 0
  | .brnz => x.sGet w.a.toNat != 0
  | .brmz => x.mGet w.a.toNat == 0
  | _ => false

/-- The unit after an instruction retires: branches move, END ends the slice, every other instruction continues at the next
word. -/
def Exu.retire (x : Exu) (op : XOp) (w : XFields) : Exu :=
  match op with
  | .endS => if x.busy then x.endSlice else x.step
  | .brz | .brnz | .brmz => if x.taken op w then { x with pos := x.pos + 1 + w.imm.toNat } else x.step
  | _ =>
    let y := opRun op x w
    if y.unres then y else y.step

/-! ### Issue and faults -/

/-- What an execution adds to the unit's counters (Table 7.7): retirements on either vector unit, wakes, faults, unresolvable
faults, and the fault record's lane, cause, address and attempt. -/
structure XEv where
  wide : Nat := 0
  narrow : Nat := 0
  wakes : Nat := 0
  faults : Nat := 0
  unres : Nat := 0
  frec : Option (XFault × Nat) := none
deriving DecidableEq, Repr, Inhabited

/-- The vector unit an instruction issues on (R246, R247): the wide unit when it is ready; otherwise the narrow one, and a wake
starts, or is requested during a power-down. -/
def Exu.issue (x : Exu) (narrowOnly : Bool) (op : XOp) : Exu × XEv :=
  if !op.isVector then (x, {})
  else if narrowOnly || x.fenced then ({ x with activeWide := false }, { narrow := 1 })
  else match x.wide with
    | .ready => ({ x with activeWide := true }, { wide := 1 })
    | .off => ({ x with activeWide := false, wide := .waking }, { narrow := 1, wakes := 1 })
    | .poweringDown => ({ x with activeWide := false, wakeReq := true }, { narrow := 1 })
    | .waking => ({ x with activeWide := false }, { narrow := 1 })

/-- A cause that can be resolved (R250, Table 7.9). -/
def resolvable (cause : Nat) : Bool := decide (1 ≤ cause) && decide (cause ≤ 5)

/-- The attempt number an execution of an instruction has in its slice. -/
def Exu.attempt (x : Exu) : Nat := match x.pend with | some p => p.attempt + 1 | none => 1

/-- One execution of an instruction, issued (R246): without a fault it retires (R251); with one it writes nothing and waits, and an
uncorrectable cause or a fourth fault in a row is unresolvable (R252, R253). -/
def Exu.execute (x : Exu) (narrowOnly : Bool) (op : XOp) (w : XFields) (flt : Option XFault) : Exu × XEv :=
  let r := x.issue narrowOnly op
  match flt with
  | some f =>
    let n := x.attempt
    if resolvable f.cause && decide (n < 4) then
      ({ r.1 with pend := some ⟨op, w, f, n⟩ }, { wakes := r.2.wakes, faults := 1, frec := some (f, n) })
    else
      let c := if resolvable f.cause then 0x11 else f.cause
      ({ r.1 with pend := none, unres := true },
        { wakes := r.2.wakes, faults := if resolvable f.cause then 1 else 0, unres := 1,
          frec := some ({ f with cause := c, addr := if c = 0x11 then 0 else f.addr }, n) })
  | none =>
    let y := { r.1 with pend := none }.retire op w
    if y.unres then (y, { unres := 1, wakes := r.2.wakes }) else (y, r.2)

/-- A sum of counter additions. -/
def XEv.add (a b : XEv) : XEv :=
  { wide := a.wide + b.wide, narrow := a.narrow + b.narrow, wakes := a.wakes + b.wakes, faults := a.faults + b.faults,
    unres := a.unres + b.unres, frec := match b.frec with | some r => some r | none => a.frec }

/-- The words of the block from the unit's position on, while `go` allows and a slice is left, at most `fuel` of them (every branch goes forward, R234,
so a slice runs each word at most once). -/
def Exu.runWords (narrowOnly : Bool) (go : Exu → Bool) : Nat → Exu → XEv → Exu × XEv
  | 0, x, e => (x, e)
  | n + 1, x, e =>
    if !x.busy || x.unres || !go x then (x, e)
    else
      match (x.ctx.code[x.pos]?).bind xDecode with
      | some (op, w) => let r := x.execute narrowOnly op w none; Exu.runWords narrowOnly go n r.1 (e.add r.2)
      | none => let r := x.execute narrowOnly .endS {} none; Exu.runWords narrowOnly go n r.1 (e.add r.2)

/-- Every slice that is left, run to its END. -/
def Exu.runAll (narrowOnly : Bool) (x : Exu) : Exu × XEv :=
  Exu.runWords narrowOnly (fun _ => true) ((sliceList x.ctx).length * (x.ctx.code.length + 1)) x {}

/-- The rest of the billet a unit is in the middle of (R309); none where an instruction waits on a fault, or the billet has not begun. -/
def Exu.runBillet (narrowOnly : Bool) (x : Exu) : Exu × XEv :=
  let first := (sliceList x.ctx).find? (fun s => s.1 == x.bil) == some (x.bil, x.slice)
  if x.pend.isSome || (first && x.pos == 0) then (x, {})
  else Exu.runWords narrowOnly (fun y => y.bil == x.bil) ((sliceList x.ctx).length * (x.ctx.code.length + 1)) x {}

end Sys2Proof.Machine
end

