-- ==== Sys2Proof/Machine/ImageOps.lean ====
section
/-!
DEFINITION. Sys2Proof/Machine/ImageOps.lean: steps 7 and 8 of the structural check (R134): the slot types of every edge, the
code blocks against their stages, operator parameter blocks (Tables 5.1 to 5.4, 6.6 to 6.10, 11.7, 11.8), automata, care-mask
tables and the RESOURCE_RANGE rules; then the whole check.
-/
namespace Sys2Proof.Machine

/-- Slot types where the device can derive them (R134, step 7). -/
abbrev Slots := Option (List SlotTy)

/-- What a stage puts out: its main output and its error port. -/
structure StageOut where
  main : Slots := none
  err : Slots := none
deriving DecidableEq, Repr, Inhabited

def u64Ty : SlotTy := { ty := .uint64 }

/-- The error-port slots of a list of carried slots (R283, Table 8.12). -/
def errSlots (l : List SlotTy) : List SlotTy :=
  l.map (fun t => if t.ty = .packedDecimal then { ty := .fixedBinary, len := 16, nullable := t.nullable } else t) ++
    [{ ty := .uint16 }, { ty := .uint64, nullable := true }, { ty := .uint32 }, { ty := .uint32 }]

/-- The edge that feeds an input port. -/
def Image.feed (im : Image) (i p : Nat) : Option EdgeRec := im.edges.find? (fun e => e.dst == i && e.dstPort == p)

/-- The slot types on an input port. -/
def inSlots (im : Image) (outs : List StageOut) (i p : Nat) : Slots :=
  match im.feed i p with
  | some e => let o := outs.getD e.src {}; if e.srcPort < (im.stages.getD e.src {}).outP then o.main else o.err
  | none => none

/-- Whether a mask names only slots that exist. -/
def maskOk (m n : Nat) : Bool := m / 2 ^ n == 0

/-- The slots of a list a 64-bit mask names, in ascending order. -/
def pickSlots {α : Type} (l : List α) (m : Nat) : List α :=
  ((List.range l.length).filterMap (fun i => if bitOf m i then l[i]? else none))

/-- The numbers a 64-bit mask names. -/
def maskBits (m : Nat) : List Nat := (List.range 64).filter (bitOf m)

/-- The key slots of a parameter block (BUILD, PROBE, PARTITION, AGGREGATE, EXCHANGE_SEND). -/
def keyList (p : Bytes) (kc : Nat) : List Nat := (List.range (min 8 kc)).map (fun i => fieldAt p (8 + i) 1)

/-- A key of SORT, MERGE or TOPK: slot, descending, nulls first (Table 5.2). -/
structure SortKey where
  slot : Nat := 0
  desc : Bool := false
  nullsFirst : Bool := false
deriving DecidableEq, Repr, Inhabited

def sortKeys (p : Bytes) (kc : Nat) : List SortKey :=
  (List.range (min 8 kc)).map (fun i =>
    let f := fieldAt p (9 + 4 * i) 1
    { slot := fieldAt p (8 + 4 * i) 1, desc := bitOf f 0, nullsFirst := bitOf f 1 })

/-- One aggregate of Table 6.9. -/
structure AggRec where
  fn : Nat := 0
  src : Nat := 0xFF
  ty : Nat := 0
  scale : Nat := 0
deriving DecidableEq, Repr, Inhabited

def aggList (p : Bytes) : List AggRec :=
  (List.range (min 32 (fieldAt p 1 1))).map (fun i =>
    let o := 0x10 + 8 * i
    { fn := fieldAt p o 1, src := fieldAt p (o + 1) 1, ty := fieldAt p (o + 2) 1, scale := fieldAt p (o + 3) 1 })

/-- The type of an aggregate's result; none for a combination Table 6.10 does not list. -/
def aggType (a : AggRec) (ins : List SlotTy) : Option SlotTy :=
  let want := ColType.ofCode a.ty
  let src := ins[a.src]?
  let chk := fun (t : SlotTy) => if want = some t.ty then some t else none
  let floatRes := fun (s : SlotTy) =>
    match want with
    | some .float64 => some ({ ty := .float64, nullable := true } : SlotTy)
    | some .float32 => if s.ty = .float64 then none else some { ty := .float32, nullable := true }
    | _ => none
  let noScale := fun (r : Option SlotTy) => if a.scale = 0 then r else none
  match a.fn with
  | 0 => if a.src = 0xFF then noScale (chk u64Ty) else none
  | 1 => src.bind (fun _ => noScale (chk u64Ty))
  | 2 => src.bind (fun s => noScale (match s.ty with
      | .int8 | .int16 | .int32 | .int64 => chk { ty := .int64, nullable := true }
      | .uint8 | .uint16 | .uint32 | .uint64 => chk { ty := .uint64, nullable := true }
      | .float16 | .bfloat16 | .float32 | .float64 => floatRes s
      | .decimal128 => chk { ty := .decimal128, a := 38, b := s.b, nullable := true }
      | .packedDecimal => chk { ty := .decimal128, a := 38, nullable := true }
      | _ => none))
  | 3 | 4 => src.bind (fun s => noScale (chk { s with nullable := true }))
  | 5 => src.bind (fun s => match s.ty with
      | .int8 | .int16 | .int32 | .int64 | .uint8 | .uint16 | .uint32 | .uint64 =>
        noScale (chk { ty := .float64, nullable := true })
      | .float16 | .bfloat16 | .float32 | .float64 => noScale (floatRes s)
      | .decimal128 | .packedDecimal =>
        if a.scale ≤ 38 then chk { ty := .decimal128, a := 38, b := a.scale, nullable := true } else none
      | _ => none)
  | _ => none

/-- A PROJECT record (Table 5.2). -/
structure ProjRec where
  computed : Bool := false
  source : Nat := 0
  ty : SlotTy := default
deriving DecidableEq, Repr, Inhabited

def projRecs (p : Bytes) : List ProjRec :=
  (List.range (min 64 (fieldAt p 0 2))).map (fun i =>
    let o := 8 + 8 * i
    { computed := fieldAt p o 1 == 1, source := fieldAt p (o + 1) 1
      ty := (slotTyOf (fieldAt p (o + 2) 1) (fieldAt p (o + 3) 1) (fieldAt p (o + 4) 1) (fieldAt p (o + 6) 2)
        (bitOf (fieldAt p (o + 5) 1) 0)).getD default })

/-- The bindings of a stage. -/
def Image.stageBinds (im : Image) (s : StageRec) : List BindRec := (im.binds.drop s.bFirst).take s.bCount

/-- The slot types a stage's bindings give. -/
def bindSlots (l : List BindRec) : List SlotTy := l.map (fun b => b.ty.getD default)

/-- One table, named alike by every binding (Table 5.1). -/
def oneTable (l : List BindRec) : Bool :=
  match l with
  | [] => true
  | b :: r => r.all (fun c => c.table == b.table && bitOf c.flags 1 == bitOf b.flags 1)

/-- The source SCAN or SKIP a billet stream descends from (R156), through stages that keep row numbers; `fuel` bounds the walk. -/
def sourceScan (im : Image) : Nat → Nat → Option Nat
  | 0, _ => none
  | fuel + 1, i =>
    let s := im.stages.getD i {}
    let up := (im.feed i 0).map (·.src)
    match s.op with
    | 0x01 =>
      match up with
      | none => some i
      | some j => if (im.stages.getD j {}).op = 0x02 then some i else sourceScan im fuel j
    | 0x03 | 0x04 | 0x05 | 0x06 | 0x0F | 0x15 | 0x16 => match up with | some j => sourceScan im fuel j | none => none
    | _ => none

/-- The bytes of a row in a stage's own store: PLAIN widths rounded up to 8, 4 bytes for the length of a variable value (R188) (DEDUCED, notes/assumptions/113.md). -/
def rowWidth (l : List SlotTy) : Nat :=
  (l.map (fun t => roundUp 8 (match t.width with | some w => w | none => 4))).sum + (if l.any (·.nullable) then 8 else 0)

/-- Whether two key slots may be compared: alike, or both of an integer type (R181). -/
def pairsWith (t u : SlotTy) : Bool := t.same u || (t.ty.isInt && u.ty.isInt)

/-- Every condition on the parameter block, stage fields and port types of stage i, in the words of its operator's chapter; `o` is
the block's offset, `r` the stage record's. A resource record that no BUILD or AGGREGATE names declares no hash_entries (DESIGN CHOICE,
notes/assumptions/156.md). -/
def stageFaults (im : Image) (outs : List StageOut) (i : Nat) : List IFault :=
  let s := im.stages.getD i {}
  let r := im.stageOff i
  let o := im.blockOff s
  let p := im.block s
  let res := im.resources.getD s.res {}
  let resOff := im.secOff 7 + 48 * s.res
  let f := fun (d n : Nat) => fieldAt p d n
  let P := fun (ok : Bool) (d : Nat) => need ok (o + d) 0x16
  let R := fun (ok : Bool) (d : Nat) => need ok (r + d) 0x16
  let Z := fun (d n : Nat) => need (zeroAt p d n) (o + d) 0x16
  let ins := inSlots im outs i 0
  let onIn := fun (g : List SlotTy → List IFault) => match ins with | some l => g l | none => []
  let noA := R (s.codeA == 0xFFFF) 0x10
  let noB := R (s.codeB == 0xFFFF) 0x12
  let noBind := R (s.bCount == 0) 0x18 ++ R (s.bFirst == 0) 0x16
  let noCode := noA ++ noB
  let size := fun (n : Nat) (g : List IFault) => if s.pBytes = n then g else R false 0x0C
  let keys := fun (kc : Nat) (l : List SlotTy) =>
    ((List.range 8).map (fun k =>
      let v := f (8 + k) 1
      P (if k < kc then decide (v < l.length) else v == 0xFF) (8 + k))).flatten
  let skeys := fun (kc : Nat) (l : List SlotTy) =>
    ((List.range 8).map (fun k =>
      let q := 8 + 4 * k
      if k < kc then P (decide (f q 1 < l.length)) q ++ P (f (q + 1) 1 / 4 == 0) (q + 1) ++ Z (q + 2) 2 else Z q 4)).flatten
  let kcOk := fun (lo : Nat) (d : Nat) => P (decide (lo ≤ f d 1) && decide (f d 1 ≤ 8)) d
  let strat := P (decide (f 1 1 ≤ 1)) 1 ++ P (if f 1 1 = 0 then f 2 1 == 0 else decide (1 ≤ f 2 1) && decide (f 2 1 ≤ 3)) 2
  let binds := im.stageBinds s
  let consumers := im.edges.filter (fun e => e.src == i)
  let edgeOff := fun (q : EdgeRec → Bool) (d : Nat) =>
    match im.edges.findIdx? q with | some k => [⟨im.secOff 2 + 8 * k + d, (0x16 : Nat)⟩] | none => []
  let feedOne := fun (ok : EdgeRec → Bool) =>
    match consumers with
    | e :: rest => if !ok e then edgeOff (· == e) 4 else match rest with | e2 :: _ => edgeOff (· == e2) 4 | [] => []
    | [] => []
  let carried := match s.op with
    | 0x04 | 0x05 | 0x06 | 0x16 | 0x0B => ins
    | 0x08 | 0x0A => (outs.getD i {}).main
    | _ => none
  let marks := s.op == 0x04 || s.op == 0x05 || s.op == 0x06 || s.op == 0x16 || s.op == 0x0B || s.op == 0x08 || s.op == 0x0A
  let side := R (!s.side || marks) 6 ++ (match carried with | some l => R (!s.side || decide (l.length ≤ 60)) 6 | none => [])
  let wide := fun (n : Nat) (d : Nat) => onIn (fun l => P (decide (l.length + n ≤ 64)) d)
  let str := fun (t : SlotTy) => t.ty == .utf8 || t.ty == .binary || t.ty == .fixedBinary
  side ++ need (res.hash == 0 || im.stages.any (fun t => t.res == s.res && (t.op == 0x07 || t.op == 0x0A))) (resOff + 8) 0x1A ++
  (match s.op with
   | 0x02 =>
     let tc := f 0 2
     let pl := f 2 2
     let progOff := 8 + 16 * tc
     let prog := sliceAt p progOff pl
     let stack := prog.foldl (fun (st : Option Nat × Nat × Option Nat) b =>
       match st with
       | (some d, k, bad) =>
         let v := b.toNat
         if v < 0x20 then (if tc ≤ v ∨ 32 ≤ d then (none, k + 1, some k) else (some (d + 1), k + 1, bad))
         else if v = 0x40 ∨ v = 0x41 then (if d < 2 then (none, k + 1, some k) else (some (d - 1), k + 1, bad))
         else (none, k + 1, some k)
       | (none, k, bad) => (none, k + 1, bad)) (some 0, 0, none)
     noCode ++ R (decide (1 ≤ s.bCount) && oneTable binds && binds.all (fun b => b.ty.isSome)) 0x16 ++
     feedOne (fun e => let t := im.stages.getD e.dst {}; t.op == 0x01 && oneTable (binds ++ im.stageBinds t)) ++
     size (8 + 16 * tc + roundUp 8 pl)
       (P (decide (1 ≤ tc) && decide (tc ≤ 32)) 0 ++ P (decide (1 ≤ pl) && decide (pl ≤ 63)) 2 ++ Z 4 4 ++
        ((List.range tc).map (fun k =>
          let q := 8 + 16 * k
          let op := f (q + 2) 1
          let kind := f (q + 3) 1
          let n := f (q + 6) 2
          let col := ((binds[f q 2]?).bind (·.ty)).getD default
          let opnd := fun (j : Nat) => if kind = 0 then (im.consts[f (q + 4) 2 + j]?).map (·.1) else im.params[f (q + 4) 2 + j]?
          P (decide (f q 2 < s.bCount)) q ++ P (decide (op ≤ 9)) (q + 2) ++
          P (if 8 ≤ op then kind == 0 else decide (kind ≤ 1)) (q + 3) ++
          P ((List.range n).all (fun j => match opnd j with | some t => t.same col | none => false)) (q + 4) ++
          P (if op ≤ 5 then n == 1 else if op = 6 then n == 2 else if op = 7 then decide (1 ≤ n) && decide (n ≤ 64) else n == 0)
            (q + 6) ++ Z (q + 8) 8)).flatten ++
        (match stack with
         | (some 1, _, _) => []
         | (_, _, some k) => P false (progOff + k)
         | _ => P false progOff) ++ Z (progOff + pl) (roundUp 8 pl - pl))
   | 0x01 =>
     let late := match im.feed i 0 with | some e => (im.stages.getD e.src {}).op != 0x02 | none => false
     let win := f 0 2
     noCode ++ R (decide (1 ≤ s.bCount) && decide (s.bCount ≤ 64)) 0x18 ++ R (oneTable binds && binds.all (fun b => b.ty.isSome)) 0x16 ++
     (if late then
        onIn (fun l => R (decide (l.length + s.bCount ≤ 64)) 0x18) ++
        (match (im.feed i 0).bind (fun e => sourceScan im im.stages.length e.src) with
         | some j => R (oneTable (im.stageBinds (im.stages.getD j {}) ++ binds)) 0x16
         | none => R false 0x02)
      else feedOne (fun e => (im.stages.getD e.dst {}).op == 0x03)) ++
     size 8 (P (decide (1 ≤ win) && decide (win ≤ 256)) 0 ++ Z 2 6) ++
     need (decide (65536 * win * s.bCount ≤ res.hbm)) (resOff + 0x10) 0x1A
   | 0x03 => noCode ++ noBind ++ size 0 []
   | 0x04 => R (s.codeA != 0xFFFF) 0x10 ++ noB ++ noBind ++ size 8 (P (decide (f 0 1 ≤ 100)) 0 ++ Z 1 7)
   | 0x05 =>
     let n := f 0 2
     noB ++ noBind ++
     size (8 + 8 * n) (P (decide (1 ≤ n) && decide (n ≤ 64)) 0 ++ Z 2 6 ++
       R ((s.codeA == 0xFFFF) == !((projRecs p).any (·.computed))) 0x10 ++
       ((List.range (min 64 n)).map (fun k =>
         let q := 8 + 8 * k
         let rec_ := (projRecs p).getD k {}
         P (decide (f q 1 ≤ 1)) q ++ (tyFaults p (q + 2) (q + 3) (q + 4) (q + 6) 2).map (fun x => ⟨o + x.off, 0x16⟩) ++ P (f (q + 5) 1 / 2 == 0) (q + 5) ++
         (if f q 1 = 0 then
           onIn (fun l => match l[rec_.source]? with
             | none => P false (q + 1)
             | some t => P (t.ty == rec_.ty.ty) (q + 2) ++ P (t.a == rec_.ty.a) (q + 3) ++ P (t.b == rec_.ty.b) (q + 4) ++
                 P (!t.nullable || rec_.ty.nullable) (q + 5) ++ P (t.len == rec_.ty.len) (q + 6))
          else []))).flatten)
   | 0x06 =>
     let k := f 0 1
     noCode ++ noBind ++
     size 8 (P (decide (k ≤ 2)) 0 ++
       onIn (fun l => P (match l[f 1 1]? with | some t => if k = 2 then t.width.isSome else str t | none => false) 1) ++
       P (if k = 2 then decide (f 2 2 < im.cares.length) else decide (f 2 2 < im.autos.length)) 2 ++
       P (decide (f 4 1 ≤ (if k = 0 then 1 else 0))) 4 ++ Z 5 3 ++ (if k = 0 then [] else wide 1 0))
   | 0x0F =>
     let fl := f 0x10 1
     let src := match im.feed i 0 with | some e => im.stages.getD e.src {} | none => {}
     let par := fun (bit d : Nat) => P (!bitOf fl bit || (match im.params[f d 2]? with | some t => t.ty == .uint64 && !t.nullable | none => false)) d
     noCode ++ noBind ++ R s.ordered 1 ++ R (src.ordered && src.flow == s.flow) 4 ++
     size 24 (P (decide (f 8 8 < 2 ^ 63)) 8 ++ P (fl / 4 == 0) 0x10 ++ Z 0x11 1 ++ par 0 0x12 ++ par 1 0x14 ++ Z 0x16 2)
   | 0x0E =>
     noCode ++ noBind ++
     size 40 (P (decide (1 ≤ f 0 4) && decide (f 0 4 ≤ 65536)) 0 ++ kcOk 1 4 ++ Z 5 3 ++ onIn (skeys (f 4 1))) ++
     onIn (fun l => need (decide (f 0 4 * rowWidth l ≤ res.scratch)) resOff 0x1A)
   | 0x10 =>
     let same := (List.range s.inP).all (fun q =>
       match ins, inSlots im outs i q with
       | some a, some b => a.length == b.length && (a.zip b).all (fun t => t.1.same t.2)
       | _, _ => true)
     noCode ++ noBind ++ size 8 (P (decide (f 0 1 ≤ 1) && (f 0 1 == 0 || s.ordered)) 0 ++ Z 1 7 ++ P same 0)
   | 0x15 =>
     let alg := f 0 1
     let hmac := decide (0x10 ≤ alg)
     let key := if f 3 1 = 1 then (match im.consts[f 4 2]? with
         | some (t, some v) => t.ty == .binary && decide (1 ≤ v.length) && decide (v.length ≤ 128) | _ => false)
       else if f 3 1 = 2 then (match im.params[f 4 2]? with | some t => t.ty == .binary | none => false) else f 4 2 == 0
     noCode ++ noBind ++
     size 8 (P (alg ≤ 3 || (decide (0x10 ≤ alg) && decide (alg ≤ 0x13))) 0 ++ P (decide (f 1 1 ≤ 1) && (f 1 1 == 0 || s.ordered)) 1 ++
       onIn (fun l => P (match l[f 2 1]? with | some t => str t | none => false) 2) ++
       P (decide (f 3 1 ≤ 2) && (f 3 1 != 0) == hmac) 3 ++ P key 4 ++ Z 6 2 ++ (if f 1 1 = 0 then wide 1 0 else []))
   | 0x16 =>
     noCode ++ noBind ++
     size 8 (P (decide (f 0 1 ≤ 1)) 0 ++
       onIn (fun l => P (match l[f 1 1]? with | some t => t.ty == .binary || t.ty == .utf8 | none => false) 1) ++
       P (decide (f 2 1 ≤ 1)) 2 ++ Z 3 5 ++ (if f 2 1 = 0 then wide 1 2 else []))
   | 0x13 =>
     let n := f 0 4
     noCode ++ noBind ++
     size 16 (P (decide (2048 ≤ n) && decide (n ≤ 1048576) && n % 2048 == 0) 0 ++ Z 4 4 ++
       P (decide (3 ≤ im.minor) || f 8 8 == 0) 8 ++ onIn (fun l => P (maskOk (f 8 8) l.length) 8))
   | 0x14 =>
     noB ++ R (decide (1 ≤ s.bCount) && oneTable binds && binds.all (fun b => b.ty.isSome && bitOf b.flags 2)) 0x16 ++
     onIn (fun l => R (l.length == s.bCount) 0x18 ++
       R (((l.zip (bindSlots binds))).all (fun t => t.1.same t.2)) 0x16) ++
     size 8 (P (decide (f 0 1 ≤ 1)) 0 ++ P (decide (f 1 1 ≤ 1)) 1 ++ Z 2 6)
   | 0x07 =>
     noCode ++ noBind ++
     (edgeOff (fun e => e.src == i && !((im.stages.getD e.dst {}).op == 0x08 && e.dstPort == 1)) 4) ++
     size 24 (kcOk 1 0 ++ strat ++ P (f 3 1 / 4 == 0) 3 ++ Z 4 4 ++ onIn (fun l => keys (f 0 1) l ++ P (maskOk (f 0x10 8) l.length) 0x10))
   | 0x08 =>
     let bi := match im.feed i 1 with | some e => e.src | none => 0
     let bs := im.stages.getD bi {}
     let bp := im.block bs
     let bIns := inSlots im outs bi 0
     let ty := f 1 1
     let nullEq := bitOf (f 2 1) 1
     let shared := decide (2 ≤ (im.edges.filter (fun e => e.src == bi)).length)
     let pair := fun (l : List SlotTy) => match bIns with
       | some bl => ((List.range (min 8 (f 0 1))).map (fun k =>
           match l[f (8 + k) 1]?, bl[fieldAt bp (8 + k) 1]? with
           | some a, some b => P (pairsWith a b) (8 + k)
           | _, _ => [])).flatten
       | none => []
     let outN := (maskBits (f 0x10 8)).length + (maskBits (f 0x18 8)).length
     noB ++ noBind ++ R ((s.codeA != 0xFFFF) == bitOf (f 2 1) 0) 0x10 ++
     (match im.feed i 1 with
      | some e => if bs.op = 0x07 then [] else edgeOff (· == e) 0
      | none => []) ++
     size 32 (P (f 0 1 == fieldAt bp 0 1 && (ty != 4 || f 0 1 == 1)) 0 ++ P (decide (ty ≤ 6) && (!shared || decide (ty ≤ 4))) 1 ++
       P (f 2 1 / 4 == 0 && nullEq == bitOf (fieldAt bp 3 1) 0 && (ty != 4 || !nullEq)) 2 ++ Z 3 5 ++
       onIn (fun l => keys (f 0 1) l ++ pair l ++ P (maskOk (f 0x10 8) l.length) 0x10) ++
       P (f 0x18 8 &&& fieldAt bp 0x10 8 == f 0x18 8 && (!(ty == 2 || ty == 3 || ty == 4) || f 0x18 8 == 0) && decide (outN ≤ 64)) 0x18)
   | 0x09 => noCode ++ noBind ++ size 16 (kcOk 1 0 ++ P (decide (f 1 1 ≤ 2)) 1 ++ Z 2 6 ++ onIn (keys (f 0 1)))
   | 0x0A =>
     let ac := f 1 1
     noCode ++ noBind ++ R (!s.ordered) 1 ++
     size (16 + 8 * ac) (kcOk 0 0 ++ P (decide (1 ≤ ac) && decide (ac ≤ 32)) 1 ++ P (decide (f 2 1 ≤ 1)) 2 ++
       P (if f 2 1 = 0 then f 3 1 == 0 else decide (1 ≤ f 3 1) && decide (f 3 1 ≤ 3)) 3 ++ Z 4 4 ++ onIn (keys (f 0 1)) ++
       ((List.range (min 32 ac)).map (fun k =>
         let q := 0x10 + 8 * k
         let a := (aggList p).getD k {}
         P (decide (a.fn ≤ 5)) q ++
         onIn (fun l =>
           P (if a.fn = 0 then a.src == 0xFF else decide (a.src < l.length)) (q + 1) ++
           P (decide (a.scale ≤ 38) && (a.scale == 0 || a.fn == 5)) (q + 3) ++
           P ((aggType a l).isSome) (if a.fn = 5 ∧ (aggType { a with scale := 0 } l).isSome then q + 3 else q + 2)) ++ Z (q + 4) 4)).flatten)
   | 0x0B =>
     noCode ++ noBind ++
     size 8 (P (decide (f 0 1 ≤ 3)) 0 ++ Z 2 6 ++
       onIn (fun l => P (match l[f 1 1]? with | some t => decide (f 0 1 < 2) || t.ty == .binary | none => false) 1))
   | 0x0C =>
     noCode ++ noBind ++ R s.ordered 1 ++ size 40 (kcOk 1 0 ++ Z 1 7 ++ onIn (skeys (f 0 1))) ++
     need (decide (2097152 ≤ res.scratch)) resOff 0x1A
   | 0x0D =>
     let srcs := (im.edges.filter (fun e => e.dst == i)).map (fun e => im.stages.getD e.src {})
     let pairs := fun (k : Nat) => (List.range s.inP).all (fun q =>
       match ins, inSlots im outs i q with
       | some a, some b => (match a[f (8 + 4 * k) 1]?, b[f (8 + 4 * k) 1]? with | some t, some u => pairsWith t u | none, _ => true | _, none => false)
       | _, _ => true)
     noCode ++ noBind ++ R s.ordered 1 ++ R (srcs.all (fun t => t.ordered && t.flow == s.flow)) 4 ++
     size 40 (kcOk 1 0 ++ Z 1 7 ++ onIn (skeys (f 0 1)) ++
       ((List.range (min 8 (f 0 1))).map (fun k => P (pairs k) (8 + 4 * k))).flatten) ++ need (decide (2097152 ≤ res.scratch)) resOff 0x1A
   | 0x11 =>
     let m := f 0 1
     noCode ++ noBind ++
     size 16 (P (decide (m ≤ 2)) 0 ++ P (if m = 0 then decide (1 ≤ f 1 1) && decide (f 1 1 ≤ 8) else f 1 1 == 0) 1 ++
       P (match im.params[f 2 2]? with | some t => t.ty == .binary | none => false) 2 ++
       P (match im.params[f 4 2]? with | some t => t.ty == .uint32 && !t.nullable | none => false) 4 ++ Z 6 2 ++ onIn (keys (f 1 1)))
   | 0x12 =>
     let send := im.stages.getD (f 2 2) {}
     noCode ++ noBind ++
     size 16 (P (if f 0 1 = 0 then !s.ordered else f 0 1 == 1 && s.ordered && send.ordered) 0 ++ Z 1 1 ++
       P (decide (f 2 2 < im.stages.length) && send.op == 0x11) 2 ++
       P (match im.params[f 4 2]? with | some t => t.ty == .uint32 && !t.nullable | none => false) 4 ++
       P (match im.params[f 6 2]? with | some t => t.ty == .binary | none => false) 6 ++
       P (decide (1 ≤ f 8 4) && decide (f 8 4 ≤ 65536)) 8 ++ Z 0xC 4) ++
     need (decide (4194304 ≤ res.hbm / max 1 (f 8 4))) (resOff + 0x10) 0x1A
   | _ => [])

/-- The bytes of the fixed-length digest of an algorithm (R167). -/
def digestLen (alg : Nat) : Nat := match alg % 16 with | 1 => 48 | 2 => 64 | _ => 32

/-- A PROBE's output slots (R196, R198). -/
def probeOut (ty pOut bOut : Nat) (l bl : List SlotTy) : List SlotTy :=
  (pickSlots l pOut).map (fun t => if 5 ≤ ty then { t with nullable := true } else t) ++
    (pickSlots bl bOut).map (fun t => if ty = 1 ∨ ty = 6 then { t with nullable := true } else t)

/-- The main output slot types of stage i where they can be derived. -/
def stageSlots (im : Image) (outs : List StageOut) (i : Nat) : Slots :=
  let s := im.stages.getD i {}
  let p := im.block s
  let f := fun (d n : Nat) => fieldAt p d n
  let ins := inSlots im outs i 0
  let anyNull := fun (k : Nat) => (List.range s.inP).any (fun q => match inSlots im outs i q with | some b => (b.getD k default).nullable | none => false)
  match s.op with
  | 0x01 =>
    let b := bindSlots (im.stageBinds s)
    if (im.stageBinds s).any (fun b => b.ty.isNone) then none else
    match im.feed i 0 with
    | none => some b
    | some e => if (im.stages.getD e.src {}).op = 0x02 then some b else ins.map (· ++ b)
  | 0x02 => some []
  | 0x05 => some ((projRecs p).map (·.ty))
  | 0x06 => ins.map (fun l =>
      let t := l.getD (f 1 1) default
      if f 0 1 = 0 then l else if f 0 1 = 1 then l ++ [{ t with nullable := true }] else l ++ [{ ty := .uint64, nullable := t.nullable }])
  | 0x08 =>
    match ins, inSlots im outs i 1 with
    | some l, some bl => some (probeOut (f 1 1) (f 0x10 8) (f 0x18 8) l bl)
    | _, _ => none
  | 0x0A => ins.map (fun l => ((keyList p (f 0 1)).map (fun k => l.getD k default)) ++ (aggList p).map (fun a => (aggType a l).getD default))
  | 0x0B => some [if f 0 1 % 2 = 0 then u64Ty else { ty := .binary }]
  | 0x0D | 0x10 => ins.map (fun l => (List.range l.length).map (fun k => { l.getD k default with nullable := anyNull k }))
  | 0x12 => (im.feed (f 2 2) 0).bind (fun _ => inSlots im outs (f 2 2) 0)
  | 0x15 => if f 1 1 = 1 then some [{ ty := .fixedBinary, len := digestLen (f 0 1) }, u64Ty]
      else ins.map (fun l => l ++ [{ ty := .fixedBinary, len := digestLen (f 0 1), nullable := (l.getD (f 2 1) default).nullable }])
  | 0x16 => ins.map (fun l =>
      let t := l.getD (f 1 1) default
      let n : SlotTy := if f 0 1 = 0 then { ty := .binary, nullable := t.nullable } else t
      if f 2 1 = 1 then l.set (f 1 1) n else l ++ [n])
  | 0x11 | 0x13 | 0x14 => some []
  | _ => ins

/-- Whether the parameter block of stage i would fail step 8: in a field of the block, or in its length. -/
def blockFails (im : Image) (outs : List StageOut) (i : Nat) : Bool :=
  let s := im.stages.getD i {}
  let o := im.blockOff s
  (stageFaults im outs i).any (fun f => f.reason == 0x16 &&
    ((decide (0 < s.pBytes) && decide (o ≤ f.off) && decide (f.off < o + s.pBytes)) || f.off == im.stageOff i + 0x0C))

/-- The operators whose output slots depend on their parameter block (R134, step 7). -/
def slotsByBlock (op : Nat) : Bool := [0x05, 0x06, 0x08, 0x0A, 0x0B, 0x12, 0x15, 0x16].contains op

/-- One stage's outputs: none where they depend on a block that would fail step 8. -/
def stageOut (im : Image) (outs : List StageOut) (i : Nat) : StageOut :=
  let s := im.stages.getD i {}
  let main := if slotsByBlock s.op && blockFails im outs i then none else stageSlots im outs i
  let carried := if s.op = 0x08 ∨ s.op = 0x0A then main else inSlots im outs i 0
  { main := main, err := if s.side then carried.map errSlots else none }

/-- One pass over the stages in order. -/
def derivePass (im : Image) (prev : List StageOut) : List StageOut :=
  (List.range im.stages.length).foldl (fun outs i => outs.set i (stageOut im outs i)) prev

/-- Passes repeated, so that an EXCHANGE_RECV finds the slots of a later EXCHANGE_SEND. -/
def derivePasses (im : Image) : Nat → List StageOut → List StageOut
  | 0, o => o
  | n + 1, o => derivePasses im n (derivePass im o)

/-- The slot types of every stage's outputs (R134 step 7, R147). -/
def deriveOuts (im : Image) : List StageOut :=
  derivePasses im (1 + (im.stages.filter (fun s => s.op == 0x12)).length) (List.replicate im.stages.length {})

/-! ### Step 7 -/

/-- Slots numbered from 0. -/
def numbered (l : List SlotTy) : List (Nat × SlotTy) := (List.range l.length).map (fun i => (i, l.getD i default))

/-- The role a stage gives its code block (Table 7.6). -/
def roleOf (op : Nat) : XRole := match op with | 0x04 => .filter | 0x08 => .probe | 0x14 => .store | 0x05 => .project | _ => .none

/-- What a code block named by stage i reads and writes. -/
def stageEnv (im : Image) (outs : List StageOut) (i : Nat) (el : Nat) : XEnv :=
  let s := im.stages.getD i {}
  let ins := inSlots im outs i 0
  let bi := match im.feed i 1 with | some e => e.src | none => 0
  let carry := fieldAt (im.block (im.stages.getD bi {})) 0x10 8
  let slots := match s.op with
    | 0x08 =>
      if blockFails im outs bi then none else
      match ins, inSlots im outs bi 0 with
      | some l, some bl => some (numbered l ++ ((numbered bl).filter (fun x => bitOf carry x.1)).map (fun x => (64 + x.1, x.2)))
      | _, _ => none
    | _ => if s.inP = 0 then some [] else ins.map numbered
  let recs := if s.op = 0x05 && !blockFails im outs i then (projRecs (im.block s)).filter (·.computed) else []
  { el := el, named := true, role := roleOf s.op, slots := slots, consts := im.consts.map (·.1), params := im.params, autos := im.autos.length,
    cares := im.cares.length, outs := recs.map (fun q => (q.source, q.ty)) }

/-- Faults of one code block: once for each stage that names it, under its slots and role, or once without both (R124). A stage without a role of
Table 7.6 is no role that may use SETSEL, OUT or MOUT (DEDUCED, notes/assumptions/185.md). -/
def blockFaults (im : Image) (outs : List StageOut) (j : Nat) : List IFault :=
  let c := im.codes.getD j {}
  let users := (List.range im.stages.length).filter (fun i =>
    let s := im.stages.getD i {}
    s.codeA == j || s.codeB == j)
  let envs := if users.isEmpty then
      [{ el := c.el, consts := im.consts.map (·.1), params := im.params, autos := im.autos.length, cares := im.cares.length : XEnv }]
    else users.map (fun i => stageEnv im outs i c.el)
  (envs.map (fun e => match xBlockFault e c.words with
    | some (k, r) => [⟨im.secOff 3 + c.off + 8 * k, r⟩]
    | none => [])).flatten

/-- Step 7: levels under R132 and code blocks under R124. A level that a parameter of MATCH raises is reported, as the operator's own, at the
stage's operator field (DESIGN CHOICE, notes/assumptions/160.md). -/
def codeFault (im : Image) (outs : List StageOut) : Option IFault :=
  let lv := ((List.range im.stages.length).map (fun i =>
    let s := im.stages.getD i {}
    let least := match opTable.find? (fun r => r.1 == s.op) with | some (_, _, _, _, e) => e | none => 1
    let extra := if s.op = 0x06 ∧ fieldAt (im.block s) 0 1 = 2 then 3 else 1
    need (decide (max least extra ≤ im.el)) (im.stageOff i) 0x18)).flatten
  let cl := ((List.range im.codes.length).map (fun j =>
    need (decide ((im.codes.getD j {}).el ≤ im.el)) (im.secOff 3 + 16 * j + 8) 0x18)).flatten
  leastFault (lv ++ cl ++ ((List.range im.codes.length).map (blockFaults im outs)).flatten)

/-! ### Step 8 -/

/-- PATTERN_TABLE unless a condition holds. -/
def pt (ok : Bool) (off : Nat) : List IFault := need ok off 0x1D

/-- The faults of the directory that AUTOMATA and CARE_TABLES begin with (R286, R295); `maxBytes` bounds the section. -/
def objFaults (sb : Bytes) (o maxN maxBytes : Nat) : List IFault :=
  let n := fieldAt sb 0 4
  let l := objDir sb
  pt (decide (1 ≤ n) && decide (n ≤ maxN) && decide (sb.length ≤ maxBytes)) o ++ pt (zeroAt sb 4 4) (o + 4) ++
    ((List.range (min n maxN)).map (fun i =>
      let q := 8 + 16 * i
      let a := l.getD i (0, 0)
      let ovr := (List.range (min n maxN)).any (fun j =>
        let c := l.getD j (0, 0); j != i && decide (c.1 < a.1 + a.2) && decide (a.1 < c.1 + c.2))
      pt (a.1 % 64 == 0 && decide (8 + 16 * n ≤ a.1) && decide (a.1 + a.2 ≤ sb.length) && !ovr) (o + q) ++
        pt (decide (1 ≤ a.2)) (o + q + 4) ++ pt (zeroAt sb (q + 8) 8) (o + q + 8))).flatten

/-- The faults of one automaton at an offset (R287, R288). -/
def automatonFaults (a : Bytes) (o bytes : Nat) : List IFault :=
  let f := fun (d n : Nat) => fieldAt a d n
  let k := f 6 2
  let n := f 8 4
  let t := roundUp 64 (0x120 + 2 * n)
  let shape := pt (f 0 4 == 0x51E90A7A) o ++ pt (f 4 1 == 1) (o + 4) ++ pt (zeroAt a 5 1) (o + 5) ++
    pt (decide (1 ≤ k) && decide (k ≤ 256)) (o + 6) ++ pt (decide (2 ≤ n) && decide (n ≤ 65535)) (o + 8) ++
    pt (decide (1 ≤ f 0xC 2) && decide (f 0xC 2 < n)) (o + 0xC) ++ pt (zeroAt a 0xE 2) (o + 0xE) ++
    pt (f 0x10 4 == bytes && decide (t + 4 * n * k ≤ bytes)) (o + 0x10) ++ pt (f 0x14 4 == t) (o + 0x14) ++ pt (zeroAt a 0x18 8) (o + 0x18)
  if shape.isEmpty then
    ((List.range 256).map (fun i => pt (decide (f (0x20 + i) 1 < k)) (o + 0x20 + i))).flatten ++
    ((List.range n).map (fun s => let w := f (0x120 + 2 * s) 2; pt (w / 16 == 0 && (s != 0 || w == 0)) (o + 0x120 + 2 * s))).flatten ++
    (match firstNonZero a (0x120 + 2 * n) (t - (0x120 + 2 * n)) with | some z => [⟨o + z, 0x1D⟩] | none => []) ++
    ((List.range (n * k)).map (fun i =>
      let w := f (t + 4 * i) 4
      pt (w / 2 ^ 20 == 0 && decide (w % 65536 < n) && (decide (k ≤ i) || w == 0)) (o + t + 4 * i))).flatten ++
    (match firstNonZero a (t + 4 * n * k) (bytes - (t + 4 * n * k)) with | some z => [⟨o + z, 0x1D⟩] | none => [])
  else shape

/-- The faults of one user table at an offset (R295, R296). -/
def careFaults (a : Bytes) (o bytes : Nat) : List IFault :=
  let f := fun (d n : Nat) => fieldAt a d n
  let n := f 5 1
  let bank := fun (i : Nat) =>
    let q := 0x10 + 4 * i
    let w := f q 1
    if i < n then
      pt (w == 1 || w == 2 || w == 4) (o + q) ++ pt (zeroAt a (q + 1) 1) (o + q + 1) ++ pt (decide (f (q + 2) 2 ≤ 4096 / max 1 w)) (o + q + 2)
    else pt (zeroAt a q 4) (o + q)
  let need' := (careBanks a).foldl (fun acc p => acc + p.2 * (16 * p.1 + 8)) 64
  let shape := pt (f 0 4 == 0x51E90CAE) o ++ pt (f 4 1 == 1) (o + 4) ++ pt (decide (1 ≤ n) && decide (n ≤ 3)) (o + 5) ++
    pt (zeroAt a 6 2) (o + 6) ++ pt (zeroAt a 0xC 4) (o + 0xC) ++ bank 0 ++ bank 1 ++ bank 2 ++
    pt (f 0x1C 4 == bytes && need' == bytes) (o + 0x1C) ++ pt (zeroAt a 0x20 32) (o + 0x20)
  if shape.isEmpty then
    ((careBanks a).foldl (fun (acc : List IFault × Nat) p =>
      let sz := 16 * p.1 + 8
      (acc.1 ++ ((List.range p.2).map (fun e =>
        let q := acc.2 + e * sz
        let bad := (List.range p.1).find? (fun j =>
          let k := fieldAt a (q + 8 * j) 8
          k &&& fieldAt a (q + 8 * p.1 + 8 * j) 8 != k)
        (match bad with | some j => pt false (o + q + 8 * j) | none => []) ++ pt (zeroAt a (q + 16 * p.1 + 5) 3) (o + q + 16 * p.1 + 5))).flatten,
       acc.2 + p.2 * sz)) ([], 64)).1
  else shape

/-- The (op, fields) of a code block's words. -/
def CodeRec.instrs (c : CodeRec) : List (XOp × XFields) := c.words.filterMap xDecode

/-- The automata and tables a stage references, with the offsets of the referring fields (R291, R296). -/
def stageObjects (im : Image) (s : StageRec) : List Nat × List (Nat × Nat) :=
  let p := im.block s
  let code := if roleOf s.op = .none then none else im.codes[s.codeA]?
  let refs := match code with
    | some c => (List.range c.words.length).filterMap (fun k =>
        ((c.words[k]?).bind xDecode).map (fun x => (im.secOff 3 + c.off + 8 * k, x)))
    | none => []
  let autos := (refs.filterMap (fun x => if x.2.1 = .rpm ∨ x.2.1 = .rpx then some x.2.2.imm.toNat else none)) ++
    (if s.op = 0x06 ∧ fieldAt p 0 1 < 2 then [fieldAt p 2 2] else [])
  let cares := (if s.op = 0x06 ∧ fieldAt p 0 1 = 2 then [(im.blockOff s + 2, fieldAt p 2 2)] else []) ++
    (refs.filterMap (fun x => if x.2.1 = .cml then some (x.1, x.2.2.imm.toNat) else none))
  (autos.eraseDups, cares)

/-- The scratchpad of a stage's objects: its loaded automata and tables, and its slice scratch (R240, R291, R297). -/
def objectBytes (im : Image) (s : StageRec) : Nat :=
  let (autos, cares) := stageObjects im s
  let space2 : Bool := match (if roleOf s.op = .none then none else im.codes[s.codeA]?) with
    | some c => c.instrs.any (fun x => x.1 == .vscat || x.1 == .vlds || x.1 == .vsts || (x.1 == .vgath && x.2.mod == 2))
    | none => false
  (autos.map (fun a => im.autoBytes.getD a 0)).sum + (((cares.map (·.2)).eraseDups).map (fun t => im.careBytes.getD t 0)).sum + (if space2 then 65536 else 0)

/-- The stage rules that compare objects and code with the resource record (R239, R240, R291, R296). -/
def objectFaults (im : Image) (s : StageRec) : List IFault :=
  let cares := (stageObjects im s).2
  let code := if roleOf s.op = .none then none else im.codes[s.codeA]?
  let gathered := match code with
    | some c => (c.instrs.filterMap (fun (x : XOp × XFields) => if x.1 = XOp.vgath ∧ x.2.mod = 0 then some x.2.imm.toNat else none)).eraseDups
    | none => []
  let constBytes := fun (k : Nat) => match im.consts[k]? with | some (_, some v) => v.length | _ => 0
  let own := objectBytes im s + (gathered.map constBytes).sum
  let nb := fun (t : Nat) => (im.cares.getD t {}).banks.length
  let walk := cares.foldl (fun (acc : List Nat × Option Nat) r =>
    if acc.2.isSome then acc
    else
      let seen := if acc.1.contains r.2 then acc.1 else r.2 :: acc.1
      (seen, if 3 < (seen.map nb).sum then some r.1 else none)) ([], none)
  need (decide (own ≤ (im.resources.getD s.res {}).scratch)) (im.secOff 7 + 48 * s.res) 0x1A ++
    (match walk.2 with | some off => [⟨off, 0x1D⟩] | none => [])

/-- Step 8: parameter blocks, automata, tables and the RESOURCE_RANGE rules. -/
def paramsFault (b : Bytes) (im : Image) (outs : List StageOut) : Option IFault :=
  let area := fun (t : Nat) => match im.sec t with | some s => sliceAt b s.off s.bytes | none => []
  let objs := fun (t maxN maxBytes : Nat) (g : Bytes → Nat → Nat → List IFault) =>
    match im.sec t with
    | some s => let sb := area t
        objFaults sb s.off maxN maxBytes ++ ((objDir sb).map (fun p => g (sliceAt sb p.1 p.2) (s.off + p.1) p.2)).flatten
    | none => []
  leastFault (((List.range im.stages.length).map (fun i => stageFaults im outs i ++ objectFaults im (im.stages.getD i {}))).flatten ++
    objs 10 256 4194304 automatonFaults ++ objs 11 64 (2 ^ 32) careFaults)

/-! ### The whole check -/

/-- The structural check (R134): the first step that fails gives its fault; an image that passes is parsed (DEDUCED, notes/assumptions/114.md). -/
def structCheck (maxMinor maxEl len : Nat) (b : Bytes) : Except IFault Image :=
  match headerFault maxMinor maxEl len b with
  | some f => .error f
  | none =>
    if fieldAt b 0x78 4 ≠ (crc32c (b.drop 0x80)).toNat then .error ⟨0x78, 0x03⟩
    else match directoryFault b with
      | some f => .error f
      | none =>
        match recordsFault b with
        | some f => .error f
        | none =>
          let im := parseImage b
          let outs := deriveOuts im
          match (refsFault im).or ((graphFault im).or ((codeFault im outs).or ((paramsFault b im outs).or (pinsFault im)))) with
          | some f => .error f
          | none => .ok im

end Sys2Proof.Machine
end

