-- ==== Sys2Proof/Machine/Pages.lean ====
section
/-!
DEFINITION. Sys2Proof/Machine/Pages.lean: pages, dictionaries and the six column encodings (02_tables_pages_extents.md R52 to
R63, 03_encodings.md R81 to R102): every payload written and read, and every check of R86.
-/
namespace Sys2Proof.Machine

/-! ### PLAIN (R87) -/

/-- The slot of a value in PLAIN form; a null of a fixed-width type holds zero bytes (R52). -/
def plainSlot (t : SlotTy) (v : Val) : Bytes := fitTo ((t.width).getD 0) (v.getD [])

/-- Running offsets of a list of lengths, from 0. -/
def offsetsOf (l : List Nat) : List Nat := (l.foldl (fun (acc : List Nat × Nat) n => (acc.1 ++ [acc.2 + n], acc.2 + n)) ([0], 0)).1

/-- Values laid out in PLAIN form (R87). -/
def plainEncode (t : SlotTy) (vals : List Val) : Bytes :=
  match t.ty with
  | .bool => packArray 1 (vals.map (fun v => match v with | some b => leNat b % 2 | none => 0))
  | .utf8 | .binary =>
    let bs := vals.map (fun v => v.getD [])
    padTo 8 (padTo 8 (u32s (offsetsOf (bs.map List.length))) ++ bs.flatten)
  | _ => padTo 8 ((vals.map (plainSlot t)).flatten)

/-- n values read from PLAIN form; none where an array does not fit or offsets fall or leave the data area (R86). -/
def plainDecode (t : SlotTy) (n : Nat) (b : Bytes) : Option (List Bytes) :=
  match t.ty with
  | .bool =>
    if b.length < ceilDiv n 8 then none else some ((List.range n).map (fun i => [BitVec.ofNat 8 (packedGet b 1 i)]))
  | .utf8 | .binary =>
    let base := roundUp 8 (4 * (n + 1))
    if b.length < 4 * (n + 1) then none
    else
      let offs := (List.range (n + 1)).map (fun i => fieldAt b (4 * i) 4)
      let rising := (List.range n).all (fun i => decide (offs.getD i 0 ≤ offs.getD (i + 1) 0))
      if offs.getD 0 0 = 0 ∧ rising ∧ base + offs.getD n 0 ≤ max base b.length then
        some ((List.range n).map (fun i => sliceAt b (base + offs.getD i 0) (offs.getD (i + 1) 0 - offs.getD i 0)))
      else none
  | _ =>
    let w := (t.width).getD 0
    if b.length < n * w then none else some ((List.range n).map (fun i => sliceAt b (i * w) w))

/-! ### Permitted encodings (Table 3.1) -/

/-- Encoding codes: 0 PLAIN, 1 DICT, 2 RLE, 3 FOR, 4 DELTA, 5 SWAGE (Table 2.4). -/
def encAllowed (t : ColType) (enc : Nat) : Bool :=
  match enc with
  | 0 | 5 => true
  | 1 => !(t == .bool || t == .packedDecimal)
  | 2 => t != .packedDecimal
  | 3 => t.isInt || t == .date32 || t == .timestamp64 || t == .time64 || t == .decimal128
  | 4 => t.isInt || t == .date32 || t == .timestamp64 || t == .time64
  | _ => false

/-- Zone-map form of a value (Table 2.3), 16 bytes; strings give their 16-byte prefix. -/
def zoneForm (t : ColType) (v : Bytes) : Bytes :=
  match t.kind with
  | .sint | .decimal | .packed => natLE 16 (wrapNat 128 (valInt t v))
  | .bytes => fitTo 16 (v.take 16)
  | _ => fitTo 16 v

/-- The comparison of zone maps (R57, R58): floating-point zeros compare equal. -/
def zoneLess (t : ColType) (x y : Bytes) : Bool := predCmp t x y == some .lt

/-- The least value under the zone comparison, if any. -/
def leastVal (t : ColType) : List Bytes → Option Bytes
  | [] => none
  | v :: r => match leastVal t r with | none => some v | some m => if zoneLess t v m then some v else some m

/-- The greatest value under the zone comparison, if any. -/
def greatestVal (t : ColType) : List Bytes → Option Bytes
  | [] => none
  | v :: r => match greatestVal t r with | none => some v | some m => if zoneLess t m v then some v else some m

/-- A zero minimum is stored as −0.0 and a zero maximum as +0.0 (R57). -/
def zoneZero (t : ColType) (isMin : Bool) (v : Bytes) : Bytes :=
  if t.kind == .float && t.ffmt.mag (leNat v) = 0 then natLE v.length (t.ffmt.signBit isMin) else v

/-- The filter bits of a value (R60): three bytes of keyhash64, −0.0 hashed as +0.0. -/
def filterBits (t : ColType) (v : Bytes) : List Nat :=
  let h := (keyhash64 [(t, some v)]).toNat
  [h / 2 ^ 56 % 256, h / 2 ^ 48 % 256, h / 2 ^ 40 % 256]

/-- Zone maps, filter and null facts of a page or extent (Tables 2.4 to 2.7). -/
structure Zone where
  rows : Nat := 0
  nulls : Nat := 0
  flags : Nat := 0
  minLen : Nat := 0
  maxLen : Nat := 0
  crc : Nat := 0
  zmin : Bytes := []
  zmax : Bytes := []
  filter : List Nat := []
deriving DecidableEq, Repr, Inhabited

def Zone.hasNulls (z : Zone) : Bool := bitOf z.flags 1
def Zone.allNull (z : Zone) : Bool := bitOf z.flags 2
def Zone.zmValid (z : Zone) : Bool := bitOf z.flags 3
def Zone.filterValid (z : Zone) : Bool := bitOf z.flags 4
def Zone.hasNan (z : Zone) : Bool := bitOf z.flags 5
def Zone.minTrunc (z : Zone) : Bool := bitOf z.flags 6
def Zone.maxTrunc (z : Zone) : Bool := bitOf z.flags 7

/-- The zone facts of a page's values (R52, R53, R57, R58, R60). `filter` lists the set bits; an invalid filter is all ones. -/
def zoneOf (t : ColType) (vals : List Val) : Zone :=
  let some' := vals.filterMap id
  let live := some'.filter (fun v => !isNaNVal t v)
  let nulls := (vals.filter Option.isNone).length
  let bits := ((live.map (filterBits t)).flatten).eraseDups
  let fv := decide (bits.length ≤ 128) && !live.isEmpty
  let mn := (leastVal t live).map (zoneZero t true)
  let mx := (greatestVal t live).map (zoneZero t false)
  let isB := t.kind == .bytes
  let ln := fun (v : Option Bytes) => if isB then min 16 (v.getD []).length else 0
  let tr := fun (v : Option Bytes) => isB && decide (16 < (v.getD []).length)
  { rows := vals.length, nulls := nulls
    flags := 2 * b2n (decide (0 < nulls) && decide (nulls < vals.length)) + 4 * b2n (decide (nulls = vals.length)) +
      8 * b2n (!live.isEmpty) + 16 * b2n fv + 32 * b2n (decide (live.length < some'.length)) + 64 * b2n (tr mn) + 128 * b2n (tr mx)
    minLen := ln mn, maxLen := ln mx
    zmin := match mn with | some v => zoneForm t v | none => zeros 16
    zmax := match mx with | some v => zoneForm t v | none => zeros 16
    filter := if fv then bits else List.range 256 }

/-- The 32 filter bytes. -/
def filterBytes (bits : List Nat) : Bytes :=
  (List.range 32).map (fun i => BitVec.ofNat 8 ((List.range 8).foldl (fun acc k => acc + (if bits.contains (8 * i + k) then 2 ^ k else 0)) 0))

/-! ### SWAGE (R96, R97) -/

/-- The width of code k (R96). -/
def swageWidth (k : Nat) : Nat := min 16 (max 9 (bitlen (257 + k)))

/-- The encoder's loop: input left, phrase w, codes emitted, next free code, phrase table (key w * 256 + c), output bits. -/
def swageLoop : Bytes → Nat → Nat → Nat → Tab Nat → List Bool → List Bool × Nat × Nat
  | [], w, k, _, _, out => (out ++ packBits (swageWidth k) [w], k + 1, w)
  | c :: cs, w, k, next, tbl, out =>
    let key := w * 256 + c.toNat
    let got := tabGet 0 tbl key
    if got ≠ 0 then swageLoop cs got k next tbl out
    else
      let out' := out ++ packBits (swageWidth k) [w]
      if next ≤ 65535 then swageLoop cs c.toNat (k + 1) (next + 1) (tabSet 0 tbl key next) out'
      else swageLoop cs c.toNat (k + 1) next tbl out'

/-- The compressed stream of an inner payload (R96). -/
def swageEncode (b : Bytes) : Bytes :=
  match b with
  | [] => []
  | c :: cs =>
    let r := swageLoop cs c.toNat 0 257 [] []
    bitsToBytes (r.1 ++ packBits (swageWidth r.2.1) [256])

/-- The decoder's loop (R97): bits left as a number of the stream, code number k, previous string, phrases from 257 in order,
output. -/
def swageDecodeLoop (b : Bytes) (inner : Nat) : Nat → Nat → Nat → Bytes → List Bytes → Bytes → Option (Bytes × Nat)
  | 0, _, _, _, _, _ => none
  | fuel + 1, bit, k, prev, tbl, out =>
    let w := swageWidth k
    if b.length * 8 < bit + w then none
    else
      let code := leNat (sliceAt b (bit / 8) 4) / 2 ^ (bit % 8) % 2 ^ w
      if code = 256 then (if k ≠ 0 ∧ out.length = inner then some (out, bit + w) else none)
      else
        let free := 257 + tbl.length
        let cur : Option Bytes :=
          if code < 256 then some [BitVec.ofNat 8 code]
          else if k = 0 then none
          else if code < free then tbl[code - 257]?
          else if code = free ∧ free ≤ 65535 then some (prev ++ prev.take 1)
          else none
        match cur with
        | none => none
        | some s =>
          if inner < out.length + s.length then none
          else
            let tbl' := if k ≠ 0 ∧ free ≤ 65535 then tbl ++ [prev ++ s.take 1] else tbl
            swageDecodeLoop b inner fuel (bit + w) (k + 1) s tbl' (out ++ s)

/-- A stream decoded to exactly `inner` bytes; none where R97 calls it invalid. -/
def swageDecode (b : Bytes) (inner : Nat) : Option Bytes :=
  match swageDecodeLoop b inner (b.length * 8 / 9 + 2) 0 0 [] [] [] with
  | some (out, bit) =>
    if ceilDiv bit 8 = b.length ∧ (leNat (sliceAt b (bit / 8) 1) / 2 ^ (bit % 8) = 0 ∨ bit % 8 = 0) then some out else none
  | none => none

/-! ### Encodings of a page -/

/-- One encoding of a page: its code, the 44 bytes of parameters at 0x80 and the payload. -/
structure EncPage where
  enc : Nat
  params : Bytes
  payload : Bytes
deriving DecidableEq, Repr, Inhabited

/-- Parameters padded to 44 bytes. -/
def params44 (b : Bytes) : Bytes := fitTo 44 b

def encPlain (t : SlotTy) (vals : List Val) : EncPage := ⟨0, params44 [], plainEncode t vals⟩

/-- DICT (R88): the code of each row, 0 for a null; none where a value is not in the dictionary. -/
def encDict (dict : List Bytes) (vals : List Val) : Option EncPage :=
  let codes := vals.map (fun v => match v with | some b => dict.findIdx? (· == b) | none => some 0)
  if dict.isEmpty || codes.any Option.isNone then none
  else
    let w := max 1 (bitlen (dict.length - 1))
    if 24 < w then none
    else some ⟨1, params44 (natLE 4 w ++ natLE 4 dict.length), packArray w (codes.map (fun c => c.getD 0))⟩

/-- Maximal runs of equal values. -/
def runsOf : List Val → List (Nat × Val)
  | [] => []
  | v :: r =>
    match runsOf r with
    | (n, u) :: rest => if u = v then (n + 1, u) :: rest else (1, v) :: (n, u) :: rest
    | [] => [(1, v)]

/-- RLE (R93). -/
def encRle (t : SlotTy) (vals : List Val) : EncPage :=
  let rs := runsOf vals
  let lens := padTo 8 (u32s (rs.map (·.1)))
  ⟨2, params44 (natLE 4 rs.length ++ natLE 4 lens.length), lens ++ plainEncode t (rs.map (·.2))⟩

/-- FOR (R94): offsets from the least value; none where they do not fit in 64 bits. -/
def encFor (t : SlotTy) (vals : List Val) : Option EncPage :=
  match leastVal t.ty (vals.filterMap id), greatestVal t.ty (vals.filterMap id) with
  | some mn, some mx =>
    let a := valInt t.ty mn
    let w := max 1 (bitlen (valInt t.ty mx - a).toNat)
    if 64 < w then none
    else some ⟨3, params44 (zoneForm t.ty mn ++ natLE 1 w),
      packArray w (vals.map (fun v => match v with | some b => (valInt t.ty b - a).toNat | none => 0))⟩
  | _, _ => none

/-- The differences of neighbours, wrapped to the type's width and read as signed. -/
def deltasOf (w : Nat) : List Int → List Int
  | a :: b :: r => signed w (wrapNat w (b - a)) :: deltasOf w (b :: r)
  | _ => []

/-- DELTA (R95). -/
def encDelta (t : SlotTy) (vals : List Val) : Option EncPage :=
  let live := (vals.filterMap id).map (valInt t.ty)
  match live with
  | [] => none
  | v0 :: _ =>
    let w := 8 * (t.width).getD 8
    let ds := deltasOf w live
    let mn := ds.foldl min (ds.headD 0)
    let ps := ds.map (fun d => (d - mn).toNat)
    let bw := bitlen (ps.foldl max 0)
    if 64 < bw then none
    else some ⟨4, params44 (natLE 8 (wrapNat 64 v0) ++ natLE 8 (wrapNat 64 mn) ++ natLE 4 bw ++ natLE 4 ds.length),
      if bw = 0 then [] else packArray bw ps⟩

/-- The candidate of an encoding code, where Table 3.1 and R94 allow it for these values. -/
def encTry (t : SlotTy) (dict : List Bytes) (enc : Nat) (vals : List Val) : Option EncPage :=
  if !encAllowed t.ty enc then none
  else match enc with
    | 0 => some (encPlain t vals)
    | 1 => encDict dict vals
    | 2 => some (encRle t vals)
    | 3 => encFor t vals
    | 4 => encDelta t vals
    | _ => none

/-- AUTO (R102): the smallest payload, on a tie the lower code. -/
def encAuto (t : SlotTy) (dict : List Bytes) (vals : List Val) : EncPage :=
  [1, 2, 3, 4].foldl (fun best e =>
    match encTry t dict e vals with
    | some c => if c.payload.length < best.payload.length then c else best
    | none => best) (encPlain t vals)

/-- The encoding setting of a column: a code 0 to 5, or AUTO (any other number). -/
def encChoose (t : SlotTy) (dict : List Bytes) (setting : Nat) (vals : List Val) : EncPage :=
  if setting < 5 then (match encTry t dict setting vals with | some c => c | none => encAuto t dict vals)
  else encAuto t dict vals

/-- Where a page belongs: table space, table, column, type, page slot, first row, epoch and extent. -/
structure PageId where
  ts : Nat
  table : Nat
  col : Nat
  ty : SlotTy
  idx : Nat
  firstRow : Nat
  epoch : Nat
  extent : Nat
deriving DecidableEq, Repr, Inhabited

/-- The validity bitmap of a page (R52). -/
def validityBytes (vals : List Val) : Bytes := padTo 8 (bitsToBytes (vals.map Option.isSome))

/-- A data page as the device writes it (R56, R81, R84, R85, R98): header, payload, validity bitmap; bytes beyond are zero. Under a SWAGE
setting a page whose inner payload is empty is stored in its inner encoding, since inner_bytes is 1 or more (DESIGN CHOICE,
notes/assumptions/147.md). -/
def mkPage (id : PageId) (dict : List Bytes) (setting : Nat) (vals : List Val) : Bytes :=
  let z := zoneOf id.ty.ty vals
  let inner := if z.allNull then (⟨0, params44 [], []⟩ : EncPage) else encChoose id.ty dict setting vals
  let swage := setting == 5 && !z.allNull && !inner.payload.isEmpty
  let stream := if swage then swageEncode inner.payload else []
  let raw := swage && decide (inner.payload.length ≤ stream.length)
  let payload :=
    if swage then (if raw then inner.payload else stream) ++ natLE 4 (crc32c inner.payload).toNat else inner.payload
  let voff := if z.hasNulls then roundUp 8 (0xC0 + payload.length) else 0
  let sw := if swage then natLE 1 inner.enc ++ [1, 0, 0] ++ natLE 4 inner.payload.length ++ zeros 8 else zeros 16
  let head :=
    natLE 4 0x51E90A6E ++ [1] ++ natLE 1 (if swage then 5 else inner.enc) ++ natLE 2 (z.flags + b2n raw) ++
    natLE 4 id.ts ++ natLE 4 id.table ++ natLE 2 id.col ++ natLE 1 id.ty.ty.code ++ natLE 1 id.idx ++
    natLE 4 vals.length ++ natLE 8 id.firstRow ++ natLE 8 id.epoch ++ natLE 8 id.extent ++
    natLE 4 payload.length ++ natLE 4 z.nulls ++ natLE 4 voff ++ natLE 1 z.minLen ++ natLE 1 z.maxLen ++ zeros 2 ++
    z.zmin ++ z.zmax ++ filterBytes z.filter ++ inner.params ++ sw
  let page := head ++ natLE 4 (crc32c head).toNat ++ payload
  if z.hasNulls then fitTo voff page ++ validityBytes vals else page

/-- The zone facts a page header holds, with the header CRC a summary copies (Tables 2.4, 2.7). -/
def pageZone (p : Bytes) : Zone :=
  { rows := fieldAt p 0x14 4, nulls := fieldAt p 0x34 4, flags := fieldAt p 6 2, minLen := fieldAt p 0x3C 1,
    maxLen := fieldAt p 0x3D 1, crc := fieldAt p 0xBC 4, zmin := sliceAt p 0x40 16, zmax := sliceAt p 0x50 16,
    filter := (List.range 256).filter (fun i => bitOf (fieldAt p (0x60 + i / 8) 1) (i % 8)) }

/-- Magic, version, CRC and identity of a page (R56, R63). -/
def pageIdOk (p : Bytes) (id : PageId) : Bool :=
  fieldAt p 0 4 == 0x51E90A6E && fieldAt p 4 1 == 1 && fieldAt p 0xBC 4 == (crc32c (p.take 0xBC)).toNat &&
  fieldAt p 8 4 == id.ts && fieldAt p 0xC 4 == id.table && fieldAt p 0x10 2 == id.col &&
  fieldAt p 0x12 1 == id.ty.ty.code && fieldAt p 0x13 1 == id.idx && fieldAt p 0x18 8 == id.firstRow &&
  fieldAt p 0x28 8 == id.extent

/-! ### Decoding a page (R86) -/

/-- Values spread over the rows a bitmap marks valid; none when they do not match in number. -/
def placeLive : List Bool → List Bytes → Option (List Val)
  | [], [] => some []
  | [], _ => none
  | true :: bs, v :: vs => (placeLive bs vs).map (some v :: ·)
  | true :: _, [] => none
  | false :: bs, vs => (placeLive bs vs).map (none :: ·)

/-- Rows given a value each, with the nulls of a bitmap. -/
def maskRows (valid : List Bool) (vals : List Bytes) : List Val :=
  (List.range valid.length).map (fun i => if valid.getD i false then vals[i]? else none)

/-- Running values of DELTA (R95), wrapping at the type's width. -/
def deltaVals (w : Nat) (mn : Int) : Nat → List Nat → List Nat
  | v, [] => [v]
  | v, d :: ds => v :: deltaVals w mn (wrapNat w (Int.ofNat v + mn + Int.ofNat d)) ds

/-- The payload of a lightweight encoding decoded under every rule of R86. `par` are the bytes from 0x80. The code of a null row is held to
dict_count as every code is, and its value is ignored (DESIGN CHOICE, notes/assumptions/146.md). -/
def decodePayload (t : SlotTy) (dict : List Bytes) (enc : Nat) (par : Bytes) (zmin zmax : Bytes) (n : Nat) (valid : List Bool)
    (b : Bytes) : Option (List Val) :=
  if !encAllowed t.ty enc then none
  else match enc with
    | 0 => if zeroAt par 0 44 then (plainDecode t n b).map (maskRows valid) else none
    | 1 =>
      let w := fieldAt par 0 1
      let cnt := fieldAt par 4 4
      if w = 0 ∨ 24 < w ∨ 2 ^ w < cnt ∨ cnt ≠ dict.length ∨ b.length < ceilDiv (n * w) 8 ∨ !zeroAt par 1 3 ∨ !zeroAt par 8 36 then none
      else
        let codes := (List.range n).map (packedGet b w)
        if codes.all (fun c => decide (c < cnt)) then some (maskRows valid (codes.map (fun c => dict.getD c []))) else none
    | 2 =>
      let rc := fieldAt par 0 4
      let vo := fieldAt par 4 4
      if rc = 0 ∨ n < rc ∨ vo % 8 ≠ 0 ∨ vo < 4 * rc ∨ b.length < vo ∨ !zeroAt par 8 36 then none
      else
        let lens := (List.range rc).map (fun i => fieldAt b (4 * i) 4)
        if lens.foldl (· + ·) 0 = n ∧ lens.all (fun l => decide (1 ≤ l)) then
          (plainDecode t rc (b.drop vo)).map (fun vs =>
            maskRows valid (((List.range rc).map (fun i => List.replicate (lens.getD i 0) (vs.getD i []))).flatten))
        else none
    | 3 =>
      let ref := signed 128 (fieldAt par 0 16)
      let w := fieldAt par 16 1
      let lo := signed 128 (leNat zmin)
      let hi := signed 128 (leNat zmax)
      if w = 0 ∨ 64 < w ∨ b.length < ceilDiv (n * w) 8 ∨ lo < ref ∨ Int.ofNat (2 ^ w - 1) < hi - ref ∨ !zeroAt par 17 27 then none
      else some (maskRows valid ((List.range n).map (fun i => valOfInt t (ref + Int.ofNat (packedGet b w i)))))
    | 4 =>
      let w := 8 * (t.width).getD 8
      let bw := fieldAt par 16 1
      let dc := fieldAt par 20 4
      let live := (valid.filter id).length
      if 64 < bw ∨ dc ≠ live - 1 ∨ b.length < ceilDiv (dc * bw) 8 ∨ !zeroAt par 17 3 ∨ !zeroAt par 24 20 then none
      else
        let vs := deltaVals w (signed 64 (fieldAt par 8 8)) (fieldAt par 0 8 % 2 ^ w) ((List.range dc).map (packedGet b bw))
        placeLive valid ((vs.take live).map (natLE (w / 8)))
    | _ => none

/-- The rows of a stored page with its dictionary; none for a failing page (R81, R86, R97, R99). -/
def decodePage (t : SlotTy) (dict : List Bytes) (p : Bytes) : Option (List Val) :=
  let z := pageZone p
  let n := z.rows
  let enc := fieldAt p 5 1
  let pb := fieldAt p 0x30 4
  let raw := bitOf z.flags 0
  if z.allNull then some (List.replicate n none)
  else if n = 0 ∨ (raw && enc != 5) then none
  else
    let payload := sliceAt p 0xC0 pb
    let voff := fieldAt p 0x38 4
    let used := if z.hasNulls then voff + roundUp 8 (ceilDiv n 8) else 0xC0 + pb
    if 65536 < used ∨ voff ≠ (if z.hasNulls then roundUp 8 (0xC0 + pb) else 0) then none else
    let valid := if z.hasNulls then (List.range n).map (fun i => bitOf (fieldAt p (voff + i / 8) 1) (i % 8)) else List.replicate n true
    let par := sliceAt p 0x80 44
    if enc = 5 then
      let inner := fieldAt p 0xB0 4
      let body := payload.take (pb - 4)
      let out := if raw then (if body.length = inner then some body else none) else swageDecode body inner
      match out with
      | some o =>
        if 4 ≤ pb ∧ fieldAt p 0xAD 1 = 1 ∧ fieldAt p 0xAC 1 ≤ 4 ∧ zeroAt p 0xAE 2 ∧ zeroAt p 0xB4 8 ∧ 1 ≤ inner ∧ inner ≤ 65340 ∧
            (crc32c o).toNat = fieldAt payload (pb - 4) 4 then
          decodePayload t dict (fieldAt p 0xAC 1) par z.zmin z.zmax n valid o
        else none
      | none => none
    else if !zeroAt p 0xAC 16 then none
    else decodePayload t dict enc par z.zmin z.zmax n valid payload

/-! ### Dictionaries (R89 to R92, R102) -/

/-- Key-order insertion used by an order-preserving dictionary (R91). -/
def sortVals (t : ColType) (l : List Bytes) : List Bytes := l.mergeSort (fun a b => keyCmp t a b != .gt)

/-- The dictionary of an extent's values: ORDERED in key order (−0.0 before +0.0, NaNs last by bit pattern), ARRIVAL in order of
first appearance (R92). -/
def dictOf (t : ColType) (ordered : Bool) (vals : List Val) : List Bytes :=
  let d := (vals.filterMap id).eraseDups
  if ordered then sortVals t d else d

/-- Entries cut into pages of at most 65,472 body bytes (R90, Table 3.3). -/
def dictPages (t : SlotTy) : List Bytes → List (List Bytes)
  | [] => []
  | e :: r =>
    match dictPages t r with
    | p :: ps => if (plainEncode t ((e :: p).map some)).length ≤ 65472 then (e :: p) :: ps else [e] :: p :: ps
    | [] => [[e]]

/-- One dictionary page (Table 3.3, R90). -/
def mkDictPage (id : PageId) (ordered last : Bool) (firstCode count nanFirst : Nat) (entries : List Bytes) : Bytes :=
  let body := plainEncode id.ty (entries.map some)
  let head :=
    natLE 4 0x51E90D1C ++ [1] ++ natLE 1 id.idx ++ natLE 2 (b2n ordered + 2 * b2n last) ++ natLE 4 id.ts ++ natLE 4 id.table ++
    natLE 2 id.col ++ natLE 1 id.ty.ty.code ++ zeros 1 ++ natLE 4 firstCode ++ natLE 4 entries.length ++ natLE 4 count ++
    natLE 8 id.extent ++ natLE 8 id.epoch ++ natLE 4 nanFirst ++ natLE 4 body.length ++ natLE 4 (crc32c body).toNat
  head ++ natLE 4 (crc32c head).toNat ++ body

/-- The entries of a dictionary page of an extent whose dictionary has `count` entries, `first` of them on the pages before it; none where a
CRC, an identity field, its place in the dictionary or its body fails (R89, R90, Table 3.3). -/
def readDictPage (id : PageId) (first count : Nat) (p : Bytes) : Option (List Bytes) :=
  let n := fieldAt p 0x18 4
  let len := fieldAt p 0x34 4
  let body := sliceAt p 0x40 len
  if fieldAt p 0 4 = 0x51E90D1C ∧ fieldAt p 4 1 = 1 ∧ fieldAt p 5 1 = id.idx ∧ fieldAt p 8 4 = id.ts ∧ fieldAt p 0xC 4 = id.table ∧
      fieldAt p 0x10 2 = id.col ∧ fieldAt p 0x12 1 = id.ty.ty.code ∧ fieldAt p 0x20 8 = id.extent ∧ fieldAt p 0x14 4 = first ∧
      fieldAt p 0x1C 4 = count ∧ 1 ≤ n ∧ first + n ≤ count ∧ 1 ≤ len ∧ len ≤ 65472 ∧
      fieldAt p 0x3C 4 = (crc32c (p.take 0x3C)).toNat ∧ fieldAt p 0x38 4 = (crc32c body).toNat then
    plainDecode id.ty n body
  else none

end Sys2Proof.Machine
end

