-- ==== Sys2Proof/Machine/Rows.lean ====
section
/-!
DEFINITION. Sys2Proof/Machine/Rows.lean: rows, billets and what each operator of a stage does to them (05_scan_filter_emit.md,
06_join_aggregate_sort.md), apart from charges and scheduling.
-/
namespace Sys2Proof.Machine

/-- A row of a billet: one value per slot, its selection, its row number where the billet carries row numbers (R145), and for slots read
from an extent that extent, with the code of a value of a DICT page (R177). -/
structure BRow where
  vals : List Val
  sel : Bool := true
  num : Option Nat := none
  codes : List (Nat × Nat × Option Nat) := []
deriving DecidableEq, Repr, Inhabited

/-- A billet: at most 2,048 rows, with the partition and pass where PARTITION made it (R202) and the compact_below of the FILTER that last
cleared a bit in it (R146). -/
structure Billet where
  rows : List BRow := []
  part : Option (Nat × Nat) := none
  below : Nat := 0
deriving DecidableEq, Repr, Inhabited

/-- The most rows of a billet (R143). -/
def billetRows : Nat := 2048

def BRow.val (r : BRow) (i : Nat) : Val := r.vals.getD i none

/-- A row as an operator outside R145 puts it out: without a row number. -/
def BRow.bare (r : BRow) : BRow := { r with num := none }

/-- The selected rows of a list of billets, in order. -/
def liveRows (l : List Billet) : List BRow := (l.map (fun b => b.rows.filter (·.sel))).flatten

/-- Rows cut into billets of at most 2,048. -/
def toBillets (l : List BRow) : List Billet :=
  (List.range (ceilDiv l.length billetRows)).map (fun i => { rows := (l.drop (billetRows * i)).take billetRows })

/-- A billet as a code block sees it. -/
def Billet.toX (b : Billet) (tys : List SlotTy) : XBillet :=
  { slots := (List.range tys.length).map (fun i => (i, { ty := tys.getD i default, vals := b.rows.map (·.val i) }))
    rows := b.rows.length, sel := b.rows.map (·.sel)
    rowNums := if b.rows.all (·.num.isSome) then some (b.rows.map (fun r => r.num.getD 0)) else none }

/-- Compaction (R146): the selected rows to the front, in order. -/
def Billet.compact (b : Billet) : Billet := { b with rows := b.rows.filter (·.sel) }

/-- Compaction where the selected rows have fallen below the percentage of the FILTER that last cleared a bit (R146). -/
def Billet.settle (b : Billet) : Billet := if 100 * (b.rows.filter (·.sel)).length < b.below * b.rows.length then b.compact else b

/-- Billets without a selected row are discarded (R146). -/
def dropEmpty (l : List Billet) : List Billet := l.filter (fun b => b.rows.any (·.sel))

/-! ### Marked rows (R121, R283) -/

/-- An error-port row: the carried slots, with the extents and codes they have, and the four appended ones (Tables 8.11, 8.12); it keeps the
row number of the row it is made of (R145). -/
def errRow (carried : BRow) (stage : Nat) (num : Option Nat) (flags word : Nat) : BRow :=
  { carried with vals := carried.vals ++ [some (natLE 2 stage), num.map (natLE 8), some (natLE 4 flags), some (natLE 4 word)], sel := true }

/-- A row marked by an operator: no instruction set the first cause. -/
def opErrRow (carried : BRow) (stage : Nat) (num : Option Nat) (cause : Nat) (fl : FFlags) : BRow :=
  errRow carried stage num (errFlags (causeIsErr cause) (!causeIsErr cause) { flags := fl, cause := cause }) 0xFFFFFFFF

/-- What a slice left for a row of its billet: whether it ran, ERR or OVF, the selection, and its error row. -/
structure RowOut where
  ran : Bool := false
  marked : Bool := false
  sel : Bool := false
  flags : Nat := 0
  word : Nat := 0
deriving DecidableEq, Repr, Inhabited

/-- The result of row i of billet b. -/
def rowOut (res : List XRes) (b i : Nat) : RowOut :=
  match res.find? (fun r => r.bil == b && r.slice == i / 128) with
  | some r =>
    let k := i % 128
    let e := r.err.getLsbD k
    let o := r.ovf.getLsbD k
    let rec_ := tabGet {} r.recs k
    { ran := r.m0.getLsbD k, marked := e || o, sel := match r.sel with | some m => m.getLsbD k | none => false,
      flags := errFlags e o rec_, word := rec_.word }
  | none => {}

/-- The output number k of row i of billet b, as the code block wrote it; null where no slice wrote it (R236). -/
def outVal (res : List XRes) (b i k : Nat) : Val :=
  match res.find? (fun r => r.bil == b && r.slice == i / 128) with
  | some r => match assoc r.outs k with | some l => l.getD (i % 128) none | none => none
  | none => none

/-- The rows of a billet that a code block marked, as error rows. -/
def markedRows (stage : Nat) (b : Billet) (bi : Nat) (res : List XRes) : List BRow :=
  (List.range b.rows.length).filterMap (fun i =>
    let o := rowOut res bi i
    match b.rows[i]? with
    | some r => if o.ran && o.marked then some (errRow r stage r.num o.flags o.word) else none
    | none => none)

/-- FILTER on a billet (R161). -/
def filterBillet (pct : Nat) (b : Billet) (bi : Nat) (res : List XRes) : Billet :=
  let rows := (List.range b.rows.length).filterMap (fun i =>
    (b.rows[i]?).map (fun r => let o := rowOut res bi i; { r with sel := r.sel && o.ran && o.sel && !o.marked }))
  ({ b with rows := rows, below := if rows.map (·.sel) = b.rows.map (·.sel) then b.below else pct } : Billet).settle

/-- PROJECT on a billet (R162). -/
def projectBillet (recs : List ProjRec) (b : Billet) (bi : Nat) (res : List XRes) : Billet :=
  ({ b with rows := (List.range b.rows.length).filterMap (fun i =>
    (b.rows[i]?).map (fun r =>
      let o := rowOut res bi i
      { r with
        vals := recs.map (fun q => if q.computed then outVal res bi i q.source else r.val q.source)
        codes := ((List.range recs.length).filterMap (fun k =>
          match recs[k]? with
          | some q => if q.computed then none else (assoc r.codes q.source).map (fun c => (k, c))
          | none => none))
        sel := r.sel && !o.marked })) } : Billet).settle

/-! ### Rows in, rows out -/

/-- LIMIT's window over the rows that pass, given how many came before (R164): the rows numbered offset to offset + count − 1. -/
def limitRows (before offset count : Nat) (l : List BRow) : List BRow :=
  ((List.range l.length).filterMap (fun i =>
    let n := before + i
    if offset ≤ n ∧ n < offset + count then l[i]? else none))

/-- The order of two rows under keys (R186). -/
def rowKeyCmp (tys : List SlotTy) (keys : List SortKey) (x y : BRow) : Ordering :=
  firstOrd (keys.map (fun k => slotCmp ((tys.getD k.slot default).ty) k.desc k.nullsFirst (x.val k.slot) (y.val k.slot)))

/-- The order of two rows by the PLAIN bytes of the slots that are no key, in slot order (R165, R187). -/
def rowRestCmp (tys : List SlotTy) (keys : List SortKey) (x y : BRow) : Ordering :=
  firstOrd (((List.range tys.length).filter (fun i => !(keys.any (fun k => k.slot == i)))).map (fun i => plainCmp (x.val i) (y.val i)))

/-- Rows in key order (R186, R187): ties keep flow order when the input is an ordered flow, and otherwise follow the bytes of the
remaining slots. -/
def sortRows (tys : List SlotTy) (keys : List SortKey) (flow : Bool) (l : List BRow) : List BRow :=
  l.mergeSort (fun x y =>
    match rowKeyCmp tys keys x y with
    | .lt => true
    | .gt => false
    | .eq => flow || rowRestCmp tys keys x y != .gt)

/-- TOPK (R165). -/
def topkRows (tys : List SlotTy) (keys : List SortKey) (k : Nat) (l : List BRow) : List BRow := (sortRows tys keys false l).take k

/-- Key order of two slots of types that pair (R181, R186): integers of different types by value. -/
def slotCmpPair (t u : ColType) (desc nullsFirst : Bool) (x y : Val) : Ordering :=
  match x, y with
  | some a, some b =>
    if t = u then slotCmp t desc nullsFirst x y
    else let o := compare (valInt t a) (valInt u b); if desc then o.swap else o
  | _, _ => slotCmp t desc nullsFirst x y

/-- The slot of a MERGE's output (type t) made from an input's (type u): the value, where the output's type holds it (DESIGN CHOICE,
notes/assumptions/159.md). -/
def mergeSlot (t u : SlotTy) (v : Val) : Val :=
  v.map (fun b =>
    let x := valInt u.ty b
    let own := valOfInt t x
    if t.same u then b
    else if t.ty.isInt && u.ty.isInt && valInt t.ty own == x then own
    else
      let g := Config.mergeSlot t.ty.code b
      match t.width with | some w => if t.ty = .bool then natLE 1 (leNat g % 2) else fitTo w g | none => g.take 32768)

/-- A row of an input of MERGE as the output carries it. -/
def mergeRow (tys own : List SlotTy) (r : BRow) : BRow :=
  if (tys.zip own).all (fun t => t.1.same t.2) && tys.length == own.length then r
  else { r with
    vals := (List.range tys.length).map (fun k => match own[k]? with
      | some u => mergeSlot (tys.getD k default) u (r.val k)
      | none => none)
    codes := r.codes.filter (fun c => (tys.getD c.1 default).same (own.getD c.1 default)) }

/-- Whether an input of MERGE is in key order (R221). -/
def inOrder (tys : List SlotTy) (keys : List SortKey) : List BRow → Bool
  | x :: y :: r => rowKeyCmp tys keys x y != .gt && inOrder tys keys (y :: r)
  | _ => true

/-- MERGE of inputs, each with its slot types, in port order: a tie goes to the lower port; within an input, rows keep their order (R221). -/
def mergeRows (tys : List SlotTy) (keys : List SortKey) (ports : List (List SlotTy × List BRow)) : List BRow :=
  let before := fun (x y : List SlotTy × BRow) =>
    firstOrd (keys.map (fun k =>
      slotCmpPair (x.1.getD k.slot default).ty (y.1.getD k.slot default).ty k.desc k.nullsFirst (x.2.val k.slot) (y.2.val k.slot))) != .gt
  (((ports.map (fun p => p.2.map (fun r => (p.1, r)))).flatten).mergeSort before).map (fun x => mergeRow tys x.1 x.2)

/-! ### Keys, hash tables and joins -/

/-- The typed key of a row. -/
def rowKey (tys : List SlotTy) (slots : List Nat) (r : BRow) : List (ColType × Val) :=
  slots.map (fun s => ((tys.getD s default).ty, r.val s))

/-- A key with a null. -/
def keyHasNull (k : List (ColType × Val)) : Bool := k.any (fun x => x.2.isNone)

/-- The normalized key bytes of an entry (R188): 8 bytes per class 0 or 1 slot, 16 per class 2, 4 + len rounded up for strings; a null
slot holds zeros of its width. -/
def keyBytes (k : List (ColType × Val)) : Bytes :=
  (k.map (fun x =>
    let w := keyWords x.1 x.2
    match x.1.kind with
    | .bytes => let b := x.2.getD []; padTo 8 (natLE 4 b.length ++ b)
    | .decimal | .packed => fitTo 16 ((w.2.2.map (fun y => natLE 8 y.toNat)).flatten)
    | _ => fitTo 8 ((w.2.2.map (fun y => natLE 8 y.toNat)).flatten))).flatten

/-- A carried value in an entry or run (R188). A null slot takes zeros of its width, or an empty string, in its size and in the payload comparison
of chain order (DESIGN CHOICE, notes/assumptions/151.md). -/
def carriedBytes (t : SlotTy) (v : Val) : Bytes :=
  match t.width with
  | some w => padTo 8 (fitTo w (v.getD []))
  | none => padTo 8 (natLE 4 (v.getD []).length ++ v.getD [])

/-- The order of entries in a chain (R188): hash, key bytes, payload bytes, and nulls last looked at. -/
def entryCmp (k1 k2 : List (ColType × Val)) (p1 p2 : Bytes) : Ordering :=
  firstOrd [compare (keyhash64 k1).toNat (keyhash64 k2).toNat, cmpBytes (keyBytes k1) (keyBytes k2), cmpBytes p1 p2,
    firstOrd ((k1.zip k2).map (fun x => compare (b2n x.1.2.isSome) (b2n x.2.2.isSome)))]

/-- The slots of a table of n entries: the least power of two at or above 2n, from 16; none beyond 2^24 (R188). -/
def tableSlots (n : Nat) : Option Nat :=
  let s := max 16 (if n = 0 then 1 else 2 ^ bitlen (2 * n - 1))
  if s ≤ 2 ^ 24 then some s else none

/-- The end of a chain (R188). -/
def chainEnd : Nat := 0xFFFFFFFF

/-- One entry of a join table (R188): its key and hash, the link to the next entry of its chain, the build row and its carried bytes. The matched
flag of its flags word (R200) stands with the stage that probes it. -/
structure JEntry where
  key : List (ColType × Val)
  hash : Nat := 0
  link : Nat := chainEnd
  row : BRow
  pay : Bytes
deriving DecidableEq, Repr, Inhabited

/-- A range of key hashes: a partition of some radix passes, by the leading bytes of its hashes (Table 6.3). -/
structure Leaf where
  passes : Nat := 0
  prefx : Nat := 0
deriving DecidableEq, Repr, Inhabited

/-- Whether a hash falls in a partition. -/
def Leaf.holds (l : Leaf) (h : Nat) : Bool := h / 2 ^ (64 - 8 * l.passes) == l.prefx
/-- The place of a partition among others: its first hash. -/
def Leaf.first (l : Leaf) : Nat := l.prefx * 2 ^ (64 - 8 * l.passes)
/-- The partitions that one more pass cuts a partition into (R204). -/
def Leaf.split (l : Leaf) : List Leaf := (List.range 256).map (fun j => ⟨l.passes + 1, 256 * l.prefx + j⟩)

/-- A table as one hearth loads it (R188, R201): its partition, its block, its slot count, its chain heads by slot, and its bytes. -/
structure JPart where
  leaf : Leaf := {}
  block : Nat := 0
  last : Bool := true
  slots : Nat := 16
  heads : Tab Nat := []
  bytes : Nat := 0
deriving DecidableEq, Repr, Inhabited

/-- A complete BUILD table (R196, R199 to R201): entries in ascending partition and chain order, the tables they are loaded as (one under RESIDENT,
one a partition or block under PARTITIONED, with the passes it began with), whether any build row came, and whether one had a null key. -/
structure JoinTab where
  entries : List JEntry := []
  parted : Bool := false
  passes : Nat := 0
  parts : List JPart := []
  any : Bool := false
  nullKey : Bool := false
deriving DecidableEq, Repr, Inhabited

/-- The build rows that are inserted (R196), in chain order: every row, but for null keys where neither null_equal nor an outer build needs them. -/
def buildEntries (tys : List SlotTy) (keys : List Nat) (carry : Nat) (keepNulls : Bool) (rows : List BRow) : List JEntry :=
  let ents := rows.map (fun r =>
    let k := rowKey tys keys r
    { key := k, hash := (keyhash64 k).toNat, row := r
      pay := ((pickSlots tys carry).zip (pickSlots r.vals carry)).foldl (fun b x => b ++ carriedBytes x.1 x.2) [] : JEntry })
  (ents.filter (fun e => keepNulls || !keyHasNull e.key)).mergeSort (fun x y => entryCmp x.key y.key x.pay y.pay != .gt)

/-- The bytes of an entry (R188). -/
def entryBytes (tys : List SlotTy) (keys : List Nat) (carry : Nat) (e : JEntry) : Nat :=
  let nullable := (keys.any (fun k => (tys.getD k default).nullable)) || ((pickSlots tys carry).any (·.nullable))
  16 + (keyBytes e.key).length + (if nullable then 8 else 0) + e.pay.length

/-- The hash-table slot of a key hash (Table 6.3). -/
def hashSlot (slots h : Nat) : Nat := h / 65536 % slots

/-- The slot array of a table over some of its entries, and the links of their chains (R188): entries are taken last to first, so that each chain
stands in ascending order. -/
def chainUp (slots : Nat) (ents : List JEntry) (mine : List Nat) : Tab Nat × List JEntry :=
  mine.reverse.foldl (fun (acc : Tab Nat × List JEntry) j =>
    match acc.2[j]? with
    | some e =>
      let k := hashSlot slots e.hash
      (tabSet chainEnd acc.1 k j, acc.2.set j { e with link := tabGet chainEnd acc.1 k })
    | none => acc) ([], ents)

/-- The entries of a chain, from its head on; `fuel` bounds the walk. -/
def chainFrom (ents : List JEntry) : Nat → Nat → List (Nat × JEntry)
  | 0, _ => []
  | fuel + 1, j => match ents[j]? with
    | some e => (j, e) :: chainFrom ents fuel e.link
    | none => []

/-- The candidate pairs of a billet's selected rows in the tables that `mine` picks, row by row in chain order (R184, R185, R196, R198): (probe row,
entry). -/
def probePairs (tys : List SlotTy) (keys : List Nat) (nullEq : Bool) (t : JoinTab) (mine : JPart → Bool) (b : Billet) : List (Nat × Nat) :=
  ((List.range b.rows.length).map (fun i =>
    match b.rows[i]? with
    | some r =>
      if !r.sel then [] else
        let k := rowKey tys keys r
        let h := (keyhash64 k).toNat
        ((t.parts.filter (fun p => mine p && p.leaf.holds h)).map (fun p =>
          (chainFrom t.entries t.entries.length (tabGet chainEnd p.heads (hashSlot p.slots h))).filterMap (fun x =>
            if x.2.hash = h && keyEq nullEq k x.2.key then some (i, x.1) else none))).flatten
    | none => [])).flatten

/-- Candidate pairs cut into billets of at most 2,048. -/
def pairCuts (pairs : List (Nat × Nat)) : List (List (Nat × Nat)) :=
  (List.range (ceilDiv pairs.length billetRows)).map (fun i => (pairs.drop (billetRows * i)).take billetRows)

/-- A billet of candidate pairs that a residual runs over (Table 7.6): probe slots as 0 to 63, carried build slot i as 64 + i. -/
def pairBillet (pt bt : List SlotTy) (carry : Nat) (t : JoinTab) (b : Billet) (pairs : List (Nat × Nat)) : XBillet :=
  let pr := pairs.map (fun p => b.rows.getD p.1 default)
  let er := pairs.map (fun p => (t.entries.getD p.2 default).row)
  { slots := ((List.range pt.length).map (fun i => (i, { ty := pt.getD i default, vals := pr.map (·.val i) }))) ++
      ((List.range bt.length).filter (bitOf carry)).map (fun i => (64 + i, { ty := bt.getD i default, vals := er.map (·.val i) }))
    rows := pairs.length, sel := pairs.map (fun _ => true)
    rowNums := if pr.all (·.num.isSome) then some (pr.map (fun r => r.num.getD 0)) else none }

/-- The values of a side of a join row that a mask names; a missing side is null. -/
def joinSide (n m : Nat) (r : Option BRow) : List Val :=
  ((List.range n).filter (bitOf m)).map (fun i => match r with | some x => x.val i | none => none)

/-- The extents and codes of a side's output slots, from output slot `at0` on. -/
def joinCodes (n m at0 : Nat) (r : Option BRow) : List (Nat × Nat × Option Nat) :=
  let l := (List.range n).filter (bitOf m)
  match r with
  | some x => (List.range l.length).filterMap (fun k => (assoc x.codes (l.getD k 0)).map (fun c => (at0 + k, c)))
  | none => []

/-- An output row of a join: the probe_out slots, then the build_out slots (R196, R198). -/
def joinRow (np nb pOut bOut : Nat) (p : Option BRow) (e : Option BRow) : BRow :=
  let front := joinSide np pOut p
  { vals := front ++ joinSide nb bOut e, codes := joinCodes np pOut 0 p ++ joinCodes nb bOut front.length e }

/-- What a join needs to know of its stage: join type (Table 6.8), slots of either side, probe_out and build_out. -/
structure JoinForm where
  ty : Nat := 0
  np : Nat := 0
  nb : Nat := 0
  pOut : Nat := 0
  bOut : Nat := 0
  stage : Nat := 0
deriving DecidableEq, Repr, Inhabited

/-- A candidate pair after its residual: its probe row's place in its billet, its entry, whether it matches, and the error flags and word it leaves. -/
structure PairOut where
  row : Nat
  entry : Nat
  hit : Bool
  err : Option (Nat × Nat) := none
deriving DecidableEq, Repr, Inhabited

/-- What a PROBE makes of one probe row (R196, R197): output rows, error rows and the entries matched. -/
def probeRow (f : JoinForm) (t : JoinTab) (r : BRow) (nullKey : Bool) (pairs : List PairOut) : List BRow × List BRow × List Nat :=
  let row := fun (q : PairOut) => joinRow f.np f.nb f.pOut f.bOut (some r) ((t.entries[q.entry]?).map (·.row))
  let hits := pairs.filter (·.hit)
  let looked := if f.ty = 2 then (pairs.takeWhile (fun q => !q.hit)) else pairs
  let errs := looked.filterMap (fun q => q.err.map (fun e => errRow (row q) f.stage r.num e.1 e.2))
  let alone := joinRow f.np f.nb f.pOut f.bOut (some r) none
  let out := match f.ty with
    | 0 | 5 => hits.map row
    | 1 | 6 => if hits.isEmpty then [alone] else hits.map row
    | 2 => if hits.isEmpty then [] else [alone]
    | 3 => if hits.isEmpty then [alone] else []
    | _ => if !t.any then [alone] else if t.nullKey || nullKey || !hits.isEmpty then [] else [alone]
  (out, errs, hits.map (·.entry))

/-- What a PROBE makes of one billet (R196 to R198, R200), from the results of its candidate pairs. -/
def probeBillet (f : JoinForm) (t : JoinTab) (b : Billet) (nullKey : Nat → Bool) (pairs : List PairOut) : List BRow × List BRow × List Nat :=
  let outs := (List.range b.rows.length).filterMap (fun i =>
    match b.rows[i]? with
    | some r => if r.sel then some (probeRow f t r (nullKey i) (pairs.filter (fun p => p.row == i))) else none
    | none => none)
  ((outs.map (·.1)).flatten, (outs.map (·.2.1)).flatten, ((outs.map (·.2.2)).flatten).eraseDups)

/-- The unmatched build rows of types 5 and 6, in ascending partition and chain order (R198). -/
def unmatchedRows (np nb pOut bOut : Nat) (t : JoinTab) (matched : List Nat) : List BRow :=
  (List.range t.entries.length).filterMap (fun j =>
    if matched.contains j then none else (t.entries[j]?).map (fun e => joinRow np nb pOut bOut none (some e.row)))

/-! ### AGGREGATE (R207 to R215) -/

/-- A group's key value in the form it is delivered in (R210). -/
def normKey (t : ColType) (v : Val) : Val :=
  v.map (fun b =>
    match t.kind with
    | .float => if t.ffmt.isNaN (leNat b) then natLE b.length t.ffmt.nanBits else if t.ffmt.mag (leNat b) = 0 then zeros b.length else b
    | .packed => (match b with | x :: r => (BitVec.ofNat 8 (x.toNat / 16 * 16 + if packedInt b < 0 then 0xD else 0xC)) :: r | [] => [])
    | _ => b)

/-- An aggregate's value over a group's input values, with IEEE flags and causes (R209 to R215). -/
def aggValue (md : RMode) (ftz : Bool) (a : AggRec) (src res : SlotTy) (vals : List Val) : Val × FFlags × List Nat :=
  let live := vals.filterMap id
  let n := live.length
  let ints := (live.map (valInt src.ty)).foldl (· + ·) 0
  let fsum := live.foldl (fun (s : FSum) v => s.add src.ty.ffmt ftz (leNat v)) ({} : FSum)
  let dec := fun (num : Int) (den : Nat) =>
    let q := roundRat md num den
    (some (natLE 16 (wrapNat 128 q)), (0 : FFlags), if decide (q.natAbs < 10 ^ 38) then ([] : List Nat) else [causeAggOverflow])
  let flt := fun (cnt : Nat) =>
    let r := fsum.result res.ty.ffmt md ftz cnt
    (some (natLE (res.width.getD 8) r.1), r.2, (flagCauses r.2).filter (fun c => c != causeFpDivZero))
  let pick := fun (keep : Ordering) =>
    live.foldl (fun (m : Val) v => match m with
      | none => some v
      | some w => match keyCmp src.ty v w with
        | .eq => if cmpBytes v w == keep then some v else m
        | o => if o == keep then some v else m) none
  match a.fn with
  | 0 => (some (natLE 8 vals.length), 0, [])
  | 1 => (some (natLE 8 n), 0, [])
  | _ =>
    if n = 0 then (none, 0, [])
    else match a.fn with
      | 2 => (match src.ty.kind with
        | .float => flt 1
        | .decimal | .packed => dec ints 1
        | .uint => (some (natLE 8 (wrapNat 64 ints)), 0, if decide (ints < 2 ^ 64) then [] else [causeAggOverflow])
        | _ => (some (natLE 8 (wrapNat 64 ints)), 0,
            if decide (-(2 ^ 63) ≤ ints) && decide (ints < 2 ^ 63) then [] else [causeAggOverflow]))
      | 3 => (pick .lt, 0, [])
      | 4 => (pick .gt, 0, [])
      | _ => (match src.ty.kind with
        | .float => flt n
        | .decimal => dec (ints * 10 ^ a.scale) (n * 10 ^ src.b)
        | .packed => dec (ints * 10 ^ a.scale) n
        | _ => let r := fmtF64.ofRat md ftz ints n; (some (natLE 8 r.1), r.2, flagCauses r.2))

/-- A group: its key and its rows. -/
structure Group where
  key : List (ColType × Val)
  rows : List BRow
deriving DecidableEq, Repr, Inhabited

/-- Rows put into groups by key equality, null equal to null (R210). -/
def groupRows (tys : List SlotTy) (keys : List Nat) (rows : List BRow) : List Group :=
  rows.foldl (fun (gs : List Group) r =>
    let k := rowKey tys keys r
    match gs.findIdx? (fun g => keyEq true g.key k) with
    | some i => updAt gs i (fun g => { g with rows := g.rows ++ [r] })
    | none => gs ++ [⟨k, [r]⟩]) []

/-- AGGREGATE over all its rows (R207 to R215): output rows and error rows, groups in ascending hash and key bytes. -/
def aggregateRows (md : RMode) (ftz : Bool) (tys : List SlotTy) (keys : List Nat) (aggs : List AggRec) (stage : Nat) (rows : List BRow) :
    List BRow × List BRow :=
  let gs := if keys.isEmpty then [⟨[], rows⟩]
    else (groupRows tys keys rows).mergeSort (fun x y => entryCmp x.key y.key [] [] != .gt)
  let outs := gs.map (fun g =>
    let vs := aggs.map (fun a =>
      let src := tys.getD a.src default
      let res := (aggType a tys).getD default
      aggValue md ftz a src res (g.rows.map (fun r => r.val a.src)))
    let vals := g.key.map (fun k => normKey k.1 k.2) ++ vs.map (·.1)
    let causes := (vs.map (·.2.2)).flatten
    let fl := vs.foldl (fun f v => f ||| v.2.1) (0 : FFlags)
    (vals, causes, fl))
  ((outs.filter (fun o => o.2.1.isEmpty)).map (fun o => { vals := o.1 }),
   (outs.filter (fun o => !o.2.1.isEmpty)).map (fun o =>
     errRow { vals := o.1 } stage none (errFlags (o.2.1.any causeIsErr) (o.2.1.any (fun c => !causeIsErr c)) { flags := o.2.2, cause := o.2.1.headD 0 })
       0xFFFFFFFF))

/-! ### SKETCH (R216 to R218) -/

/-- The register and rank of a value (R217). -/
def sketchRho (t : ColType) (v : Bytes) : Nat × Nat :=
  let h := (keyhash64 [(t, some v)]).toNat
  let rest := h % 2 ^ 50
  (h / 2 ^ 50, if rest = 0 then 51 else 51 - bitlen rest)

/-- The registers of a list of values, or of register files merged (R217). -/
def sketchRegs (mode : Nat) (t : ColType) (vals : List Bytes) : Tab Nat :=
  vals.foldl (fun (r : Tab Nat) v =>
    if mode < 2 then let p := sketchRho t v; tabUpd 0 r p.1 (max p.2)
    else (List.range 16384).foldl (fun r j => tabUpd 0 r j (max ((v.getD j 0).toNat))) r) []

/-- A register file that may be merged (R217). -/
def sketchOk (v : Bytes) : Bool := v.length == 16384 && v.all (fun b => decide (b.toNat ≤ 51))

/-- The estimate of R218, in binary64 with roundTiesToEven. -/
def sketchEstimate (r : Tab Nat) : Nat :=
  let f := fmtF64
  let md := RMode.tiesToEven
  let c := fun (n : Int) (d : Nat) => (f.ofRat md false n d).1
  let m := c 16384 1
  let add := fun (x y : Nat) => (f.add md false false x y).1
  let mul := fun (x y : Nat) => (f.mul md false x y).1
  let div := fun (x y : Nat) => (f.div md false x y).1
  let alpha := div (c 7213 10000) (add (c 1 1) (div (c 1079 1000) m))
  let zeroN := 16384 - r.length
  let z := c (r.foldl (fun acc p => acc + 2 ^ (51 - p.2)) (Int.ofNat (zeroN * 2 ^ 51))) (2 ^ 51)
  let e := div (mul alpha (mul m m)) z
  let small := (f.orderKey e ≤ f.orderKey (mul (c 25 10) m)) && decide (0 < zeroN)
  let e2 := if small then mul m (lnF64 (div m (c zeroN 1))) else e
  match f.decode e2 with
  | .fin false k x => (let q := dyadic false k x; (roundRat md q.1 q.2).toNat)
  | _ => 0

/-- SKETCH over all its rows (R216, R217): the one output row, and the rows marked in error. -/
def sketchRows (mode : Nat) (t : SlotTy) (src stage : Nat) (rows : List BRow) : List BRow × List BRow :=
  let bad := fun (r : BRow) => decide (2 ≤ mode) && (match r.val src with | some v => !sketchOk v | none => false)
  let vals := (rows.filter (fun r => !bad r)).filterMap (fun r => r.val src)
  let regs := sketchRegs mode t.ty vals
  let out := if mode % 2 = 0 then natLE 8 (sketchEstimate regs) else (List.range 16384).map (fun j => BitVec.ofNat 8 (tabGet 0 regs j))
  ([{ vals := [some out] }], (rows.filter bad).map (fun r => opErrRow r.bare stage r.num causeOperator 0))

/-! ### DIGEST and COMPRESS (R167, R168) -/

/-- A digest of an algorithm with its key (Table 5.2). -/
def digestOf (alg : Nat) (key msg : Bytes) : Bytes :=
  fitTo (digestLen alg) (if 0x10 ≤ alg then hmac (alg - 0x10) key msg else sha alg msg)

/-- The stream a mode-1 DIGEST digests (R167). -/
def digestStream (src : Nat) (rows : List BRow) : Bytes :=
  (rows.map (fun r => match r.val src with | some v => natLE 4 v.length ++ v | none => natLE 4 0xFFFFFFFF)).flatten

/-- A SWAGE value frame (R168). -/
def valueFrame (v : Bytes) : Bytes :=
  let s := swageEncode v
  let raw := decide (v.length ≤ s.length)
  natLE 4 (b2n raw) ++ natLE 4 v.length ++ (if raw then v else s) ++ natLE 4 (crc32c v).toNat

/-- The value a SWAGE value frame holds; none where a check fails (R97, R168, R406). -/
def frameOpen (b : Bytes) : Option Bytes :=
  let fl := fieldAt b 0 4
  let n := fieldAt b 4 4
  let body := sliceAt b 8 (b.length - 12)
  let v := if fl = 1 then (if body.length = n then some body else none) else if fl = 0 then swageDecode body n else none
  match v with
  | some x => if 12 ≤ b.length ∧ fieldAt b (b.length - 4) 4 = (crc32c x).toNat then some x else none
  | none => none

/-- The value of a frame in a slot, which holds at most 32,756 bytes (R168). -/
def frameValue (b : Bytes) : Option Bytes := if fieldAt b 4 4 ≤ 32756 then frameOpen b else none

/-- COMPRESS of one value: the result, or none for a row marked in error (R168). -/
def compressVal (decode : Bool) (v : Val) : Option Val :=
  match v with
  | none => some none
  | some b => if decode then (frameValue b).map some else if b.length ≤ 32756 then some (some (valueFrame b)) else none

/-! ### EMIT batches (R172, R175 to R177) -/

/-- A value in its Arrow physical form (R176, Table 3.7). -/
def arrowVal (t : SlotTy) (v : Val) : Bytes :=
  match t.ty, v with
  | .packedDecimal, some b => natLE 16 (wrapNat 128 (packedInt b))
  | .bfloat16, some b => natLE 4 (leNat b * 65536)
  | .bfloat16, none => zeros 4
  | _, some b => b
  | _, none => zeros (t.width.getD 0)

/-- The Arrow values, and for variable types the offsets, of a list of values (R176). -/
def arrowCol (t : SlotTy) (vals : List Val) : Bytes × Bytes :=
  match t.ty with
  | .bool => (bitsToBytes (vals.map (fun v => v == some [1])), [])
  | .utf8 | .binary => ((vals.map (·.getD [])).flatten, u32s (offsetsOf (vals.map (fun v => (v.getD []).length))))
  | _ => ((vals.map (arrowVal t)).flatten, [])

/-- A batch dictionary (R177): entries used by the rows in code order, then the other values in order of first appearance. -/
def batchDict (slot : Nat) (rows : List BRow) : List Bytes :=
  let code := fun (r : BRow) => (assoc r.codes slot).bind (·.2)
  let coded := (rows.filterMap (fun r => match r.val slot, code r with | some v, some c => some (c, v) | _, _ => none)).eraseDups
  let first := (coded.mergeSort (fun x y => decide (x.1 ≤ y.1))).map (·.2)
  rows.foldl (fun (d : List Bytes) r =>
    match r.val slot, code r with
    | some v, none => if d.contains v then d else d ++ [v]
    | _, _ => d) first

/-- One column of a batch laid out from an offset: descriptor and buffers (Table 5.7) (DEDUCED, notes/assumptions/112.md). validity_bytes and
dict_values_bytes are lengths without padding, as values_bytes is said to be (DESIGN CHOICE, notes/assumptions/152.md). -/
def batchCol (t : SlotTy) (slot : Nat) (useDict : Bool) (rows : List BRow) (off : Nat) : Bytes × Bytes :=
  let vals := rows.map (·.val slot)
  let nulls := (vals.filter Option.isNone).length
  let vb := if nulls = 0 then [] else bitsToBytes (vals.map Option.isSome)
  let dict := if useDict then batchDict slot rows else []
  let main := if useDict then
      ((vals.map (fun v => match v with | some b => natLE 4 (dict.findIdx (· == b)) | none => zeros 4)).flatten, [])
    else arrowCol t vals
  let dcol := if useDict then arrowCol t (dict.map some) else ([], [])
  let p := padTo 64
  let o1 := off + (p vb).length
  let o2 := o1 + (p main.2).length
  let o3 := o2 + (p main.1).length
  let o4 := o3 + (p dcol.2).length
  let desc := natLE 1 t.ty.code ++ natLE 1 t.a ++ natLE 1 t.b ++ natLE 1 (b2n useDict + 2 * b2n t.nullable) ++ natLE 2 t.len ++ zeros 2 ++
    natLE 4 nulls ++ natLE 4 (if nulls = 0 then 0 else off) ++ natLE 4 vb.length ++ natLE 4 (if main.2.isEmpty then 0 else o1) ++
    natLE 4 o2 ++ natLE 4 main.1.length ++ natLE 4 dict.length ++ natLE 4 (if dcol.2.isEmpty then 0 else o3) ++
    natLE 4 (if useDict then o4 else 0) ++ natLE 4 dcol.1.length ++ zeros 16
  (desc, p vb ++ p main.2 ++ p main.1 ++ p dcol.2 ++ p dcol.1)

/-- A batch (Table 5.7). -/
def mkBatch (tys : List SlotTy) (dictMask : Nat) (ordered : Bool) (seq : Nat) (rows : List BRow) : Bytes :=
  let cols := (List.range tys.length).foldl (fun (acc : Bytes × Bytes) i =>
    let c := batchCol (tys.getD i default) i (bitOf dictMask i) rows (64 + 64 * tys.length + acc.2.length)
    (acc.1 ++ c.1, acc.2 ++ c.2)) ([], [])
  let total := 64 + 64 * tys.length + cols.2.length
  natLE 4 0x51E90BA7 ++ natLE 2 tys.length ++ natLE 2 (b2n ordered) ++ natLE 4 rows.length ++ natLE 4 total ++
    natLE 8 (if ordered then seq else 0) ++ zeros 40 ++ cols.1 ++ cols.2

/-- The extents that a row's dict_slots come from. -/
def dictExtents (dictMask : Nat) (r : BRow) : List (Nat × Nat) := (r.codes.filter (fun c => bitOf dictMask c.1)).map (fun c => (c.1, c.2.1))

/-- The longest run of rows, at most `most`, of one extent for every dict slot (R177); `seen` holds the extents of the run so far, a row that has none
for a slot changes nothing. -/
def sameExtent (dictMask : Nat) (seen : List (Nat × Nat)) : Nat → List BRow → Nat
  | 0, _ => 0
  | _, [] => 0
  | most + 1, r :: rs =>
    let mine := dictExtents dictMask r
    if mine.all (fun c => seen.all (fun d => d.1 != c.1 || d.2 == c.2)) then
      1 + sameExtent dictMask (seen ++ mine.filter (fun c => !seen.any (fun d => d.1 == c.1))) most rs
    else 0

/-- The longest prefix of n rows or fewer whose batch fits `room`; `fuel` bounds the search. -/
def fitRows (tys : List SlotTy) (dictMask room : Nat) (rows : List BRow) : Nat → Nat
  | 0 => 0
  | n + 1 => if (mkBatch tys dictMask false 0 (rows.take (n + 1))).length ≤ room then n + 1 else fitRows tys dictMask room rows n

/-- The batches of one charge's rows (R172, R177): at most `most` rows each, cut where one would not fit an empty buffer of `room`
bytes; none when a single row does not fit. -/
def cutBatches (tys : List SlotTy) (dictMask most room : Nat) (ordered : Bool) (seq : Nat) : Nat → List BRow → Option (List (Bytes × Nat))
  | _, [] => some []
  | 0, _ => some []
  | fuel + 1, rows =>
    let n := sameExtent dictMask [] most rows
    let k := if (mkBatch tys dictMask ordered seq (rows.take n)).length ≤ room then n else fitRows tys dictMask room rows n
    if k = 0 then none
    else match cutBatches tys dictMask most room ordered seq fuel (rows.drop k) with
      | some l => some ((mkBatch tys dictMask ordered seq (rows.take k), k) :: l)
      | none => none

/-! ### SKIP (R150 to R153) -/

/-- Disjoint, ascending, maximal row ranges (first, count). -/
def normRanges (l : List (Nat × Nat)) : List (Nat × Nat) :=
  ((l.filter (fun r => r.2 != 0)).mergeSort (fun a b => decide (a.1 ≤ b.1))).foldl (fun (acc : List (Nat × Nat)) r =>
    match acc.getLast? with
    | some p => if r.1 ≤ p.1 + p.2 then acc.dropLast ++ [(p.1, max (p.1 + p.2) (r.1 + r.2) - p.1)] else acc ++ [r]
    | none => [r]) []

/-- The intersection of two range lists. -/
def meetRanges (x y : List (Nat × Nat)) : List (Nat × Nat) :=
  normRanges ((x.map (fun a => y.filterMap (fun b =>
    let lo := max a.1 b.1
    let hi := min (a.1 + a.2) (b.1 + b.2)
    if lo < hi then some (lo, hi - lo) else none))).flatten)

/-- The rows of x that are not in y. -/
def minusRanges (x y : List (Nat × Nat)) : List (Nat × Nat) :=
  (normRanges y).foldl (fun (acc : List (Nat × Nat)) b =>
    (acc.map (fun a =>
      (if a.1 < b.1 then [(a.1, min (a.1 + a.2) b.1 - a.1)] else []) ++
      (if b.1 + b.2 < a.1 + a.2 then [(max a.1 (b.1 + b.2), a.1 + a.2 - max a.1 (b.1 + b.2))] else []))).flatten) (normRanges x)

/-- The lower bound a page summary gives: the stored value, or its prefix when truncated (R59). -/
def zoneLow (t : SlotTy) (z : Zone) : Bytes :=
  if t.ty.kind == .bytes then z.zmin.take z.minLen else if t.ty = .packedDecimal then z.zmin else z.zmin.take (t.width.getD 16)

def zoneHigh (t : SlotTy) (z : Zone) : Bytes :=
  if t.ty.kind == .bytes then z.zmax.take z.maxLen else if t.ty = .packedDecimal then z.zmax else z.zmax.take (t.width.getD 16)

/-- The order of an operand against a bound; a packed decimal's zone holds its DECIMAL128 (Table 2.3). -/
def zoneCmp (t : SlotTy) (c bound : Bytes) : Option Ordering :=
  if t.ty = .packedDecimal then some (compare (packedInt c) (valInt .decimal128 bound)) else predCmp t.ty c bound

/-- Whether an operand lies below the least value a page can hold. -/
def belowZone (t : SlotTy) (z : Zone) (c : Bytes) : Bool := zoneCmp t c (zoneLow t z) == some .lt
/-- Whether an operand lies above the greatest value a page can hold: a truncated maximum stands for every string with its prefix. -/
def aboveZone (t : SlotTy) (z : Zone) (c : Bytes) : Bool :=
  zoneCmp t c (zoneHigh t z) == some .gt && !(z.maxTrunc && isPrefix (zoneHigh t z) c)

/-- Whether an operand may occur in a page by its filter (R60). -/
def filterHas (t : SlotTy) (z : Zone) (c : Bytes) : Bool := !z.filterValid || (filterBits t.ty c).all z.filter.contains

/-- Whether a page is dropped by a test (Table 5.4, R152). A test whose operand is a null parameter drops every page, since no row satisfies it
(DESIGN CHOICE, notes/assumptions/153.md). -/
def pageDrop (t : SlotTy) (z : Zone) (op : Nat) (cs : List Val) : Bool :=
  let nanOp := cs.any (fun c => match c with | some b => isNaNVal t.ty b | none => false)
  let eqDrop := fun (c : Val) => match c with
    | some b => if isNaNVal t.ty b then true else !z.zmValid || belowZone t z b || aboveZone t z b || !filterHas t z b
    | none => true
  if op = 8 then z.nulls == 0
  else if z.allNull then true
  else if op = 9 then false
  else if op = 7 then cs.all eqDrop
  else if cs.any Option.isNone then true
  else if nanOp then op != 1
  else match op, cs with
    | 0, c :: _ => eqDrop c
    | 1, some c :: _ =>
      if z.zmValid then
        !belowZone t z c && !aboveZone t z c && zoneCmp t c (zoneLow t z) == some .eq && zoneCmp t c (zoneHigh t z) == some .eq &&
          !z.minTrunc && !z.maxTrunc && !z.hasNan
      else !z.hasNan
    | 2, some c :: _ => !z.zmValid || belowZone t z c || (zoneCmp t c (zoneLow t z) == some .eq)
    | 3, some c :: _ => !z.zmValid || belowZone t z c
    | 4, some c :: _ => !z.zmValid || aboveZone t z c || (zoneCmp t c (zoneHigh t z) == some .eq && !z.maxTrunc)
    | 5, some c :: _ => !z.zmValid || aboveZone t z c
    | 6, some lo :: some hi :: _ =>
      !z.zmValid || belowZone t z hi || aboveZone t z lo || predCmp t.ty lo hi == some .gt
    | _, _ => false

/-- One test of a SKIP block (Table 5.3). -/
structure SkipTest where
  binding : Nat := 0
  op : Nat := 0
  kind : Nat := 0
  first : Nat := 0
  count : Nat := 0
deriving DecidableEq, Repr, Inhabited

def skipTests (p : Bytes) : List SkipTest :=
  (List.range (min 32 (fieldAt p 0 2))).map (fun k =>
    let o := 8 + 16 * k
    { binding := fieldAt p o 2, op := fieldAt p (o + 2) 1, kind := fieldAt p (o + 3) 1, first := fieldAt p (o + 4) 2,
      count := fieldAt p (o + 6) 2 })

/-- The postfix program of R151 over the tests' row sets (DEDUCED, notes/assumptions/111.md). -/
def skipProgram (sets : List (List (Nat × Nat))) (prog : Bytes) : List (Nat × Nat) :=
  (prog.foldl (fun (st : List (List (Nat × Nat))) b =>
    match b.toNat, st with
    | 0x40, y :: x :: r => meetRanges x y :: r
    | 0x41, y :: x :: r => normRanges (x ++ y) :: r
    | v, st => sets.getD v [] :: st) []).headD []

end Sys2Proof.Machine
end

