-- ==== Sys2Proof/Machine/StQuery.lean ====
section
/-!
DEFINITION. Sys2Proof/Machine/StQuery.lean: queries as they run (04 to 06, 10): the image cache, submissions under check, result
rings, stages, charges, hearths, delay lists and the decision trace.
-/
namespace Sys2Proof.Machine

/-- An entry of the image cache (R139, R140): sharing group, digest, image, size, the queries that pin it, order of last use. -/
structure CacheEnt where
  group : Nat
  digest : Bytes
  image : Image
  bytes : Nat
  pins : List Nat := []
  /-- The submissions under admission that have hit it: function, queue, command identifier (R140, rule 4). -/
  waits : List (Nat × Nat × Nat) := []
  used : Nat := 0
deriving DecidableEq, Repr, Inhabited

/-- Whether an entry may be evicted: no query and no submission pins it (R140). -/
def CacheEnt.free (c : CacheEnt) : Bool := c.pins.isEmpty && c.waits.isEmpty

/-- States of a charge (Table 10.2). -/
inductive CState where
  | ready | slotted | running | done | held | released | cancelled
deriving DecidableEq, Repr, Inhabited

/-- The place of a state in Table 10.2. -/
def CState.num : CState → Nat
  | .ready => 0 | .slotted => 1 | .running => 2 | .done => 3 | .held => 4 | .released => 5 | .cancelled => 6

/-- What one upstream charge gave a stage: input port, upstream index, its billets, admitted ranges (SKIP), whether it is a void, and
for LIMIT the number of rows that passed before it. -/
structure Chunk where
  port : Nat := 0
  up : Nat := 0
  billets : List Billet := []
  ranges : List (Nat × Nat) := []
  void : Bool := false
  pos : Nat := 0
  /-- The exchange message it came in: sender, charge, piece. -/
  src : Option (Nat × Nat × Nat) := none
  /-- Bytes it holds on the levels of the spill ladder while it is staged, by level, and its level-4 pieces (R189, R199). -/
  held : List (Nat × Nat) := []
  spills : List Nat := []
  /-- The hearth that gathered it. -/
  home : Nat := 0
deriving DecidableEq, Repr, Inhabited

/-- A share of a stage's partition or finishing work (Table 10.1): rows, error rows, the partition and block they belong to, whether that is the
partition's last block, and the level-4 pieces it reads. -/
structure Lot where
  rows : List BRow := []
  err : List BRow := []
  leaf : Option Leaf := none
  block : Nat := 0
  last : Bool := true
  spills : List Nat := []
deriving DecidableEq, Repr, Inhabited

/-- A piece of data on level 4 of the spill ladder (R192): its stage, its bytes, and the stripe rows it is written into, none until they are had. -/
structure Spill where
  id : Nat
  stage : Nat
  bytes : Nat
  rows : List (Nat × Nat) := []
deriving DecidableEq, Repr, Inhabited

/-- A checkpoint (Table 10.4). -/
structure Ckpt where
  ups : List Nat := []
  ranges : List (Nat × Nat) := []
  decisions : List (Nat × Nat) := []
  limit : Nat := 0
  store : List Nat := []
  batches : List (Nat × Nat) := []
  rows : Nat := 0
  errRows : Nat := 0
  crc : Nat := 0
  /-- Units or billets that were cut for it. -/
  take : Nat := 0
deriving DecidableEq, Repr, Inhabited

/-- What a resumed query takes from its checkpoints (R517): the snapshot epoch, whether it runs AUTONOMOUS, the digest of its parameter block,
produced_count of each ring, the adopted node, the checkpoints by stage and charge. -/
structure Resume where
  epoch : Option Nat := none
  autonomous : Option Bool := none
  /-- The digests its checkpoints carry: of the image (R142) and of the parameter block (R138). -/
  digest : Option Bytes := none
  paramHash : Option Bytes := none
  /-- The epoch its STORE has already committed as (R514). -/
  stored : Option Nat := none
  produced : List Nat := []
  node : Option Nat := none
  /-- The hearth clock of its last checkpoint, in MHz. -/
  clock : Option Nat := none
  ckpts : List (Nat × Nat × Ckpt) := []
deriving DecidableEq, Repr, Inhabited

/-- A submission under admission (R136, R169, R407): the object it waits for comes next by `need`. -/
structure Submit where
  x : Nat
  q : Nat
  cid : Nat
  ts : Nat
  descr : Descr := {}
  image : Option Image := none
  cached : Bool := true
  params : List (SlotTy × Val) := []
  paramHash : Bytes := []
  rings : List Bytes := []
  /-- The epoch it reads and holds, once it is known (R68, R70). -/
  epoch : Option Nat := none
  /-- An image has been fetched and waits for IMAGE_FETCHED: its bytes, none for a failed read. -/
  fetched : Option (Option Bytes) := none
  /-- The image is being fetched (by this submission or by another that missed on the same key). -/
  missing : Bool := false
  resume : Option Resume := none
deriving DecidableEq, Repr, Inhabited

/-- What a charge works on: its cut input, a share of a stage's gathered rows, or rows that a stage's finishing work has made. -/
inductive Work where
  | flow | gather | finish
deriving DecidableEq, Repr, Inhabited

/-- A charge (R306 to R310, R327). -/
structure Charge where
  idx : Nat
  work : Work := .flow
  state : CState := .ready
  held : Bool := false
  since : Nat := 0
  /-- When its attempt began (R316). -/
  started : Nat := 0
  tries : Nat := 0
  failedOn : List Nat := []
  hearth : Option Nat := none
  slot : Nat := 0
  /-- A cancellation that the charge takes up at its next step boundary (causes of Table 10.7, VOID). -/
  cancel : Option Nat := none
  input : List Chunk := []
  ranges : List (Nat × Nat) := []
  rows : List BRow := []
  out : List Billet := []
  err : List Billet := []
  outRanges : List (Nat × Nat) := []
  /-- The status that a page lost for good ends its query with (R63). -/
  lost : Option Nat := none
  /-- Reads still to be issued, once the first has been (R311, R157). -/
  todo : Option (List PRead) := none
  /-- What its reads brought that differs from what was written: extent, slot (16: the header), bytes. -/
  got : List (Nat × Nat × Bytes) := []
  ck : Option Ckpt := none
  /-- The checkpoint has been sent to the partner or recorded (R328). -/
  told : Bool := false
  /-- Units or billets asked for when it was cut, and the hearth clock then, in MHz (R517). -/
  take : Nat := 0
  mhz : Nat := 1800
  /-- The partition and block it works on, whether that is the last block, and the level-4 pieces it reads (R192, R201, R205). -/
  leaf : Option Leaf := none
  block : Nat := 0
  last : Bool := true
  spills : List Nat := []
  /-- The autonomous choices made at the boundary before it (R42). -/
  decisions : List (Nat × Nat) := []
deriving DecidableEq, Repr, Inhabited

/-- A stage of a running query. -/
structure StageRun where
  charges : List Charge := []
  nextIdx : Nat := 0
  nextPrep : Nat := 0
  /-- Row ranges of a source not yet cut (R144, R305). -/
  units : List (Nat × Nat) := []
  /-- Chunks visible and not yet cut, in order. -/
  inq : List Chunk := []
  /-- Input ports that have ended. -/
  ended : List Nat := []
  gathered : List Chunk := []
  /-- The partition or finishing work's pieces on the ladder: partition, level, bytes. -/
  placed : List (Option Leaf × Nat × Nat) := []
  /-- Bytes of the runs that a SORT has formed, in order of creation (R220). -/
  runs : List Nat := []
  /-- Partitions of a PROBE's input not yet cut, once they are complete (R201). -/
  parts : Option (List Lot) := none
  /-- The stage's finishing work not yet cut; none before that work begins. -/
  finishing : Option (List Lot) := none
  table : Option JoinTab := none
  matched : List Nat := []
  /-- Block mode: the candidate pairs of a partition's probe rows, by billet, from the blocks that have passed (R205). -/
  pairs : List (Leaf × List (List PairOut)) := []
  /-- The hearth that holds a partition's table (R312). -/
  homes : List (Leaf × Nat) := []
  /-- LIMIT: rows given positions so far, and rows passed on. -/
  pos : Nat := 0
  passed : Nat := 0
  stopped : Bool := false
  affinity : Option Nat := none
  nextRel : Nat := 0
  /-- EXCHANGE_SEND: the next charge to turn into messages, and whether the end of the stream has been sent. -/
  sendNext : Nat := 0
  sentEnd : Bool := false
  /-- EXCHANGE_RECV: messages released so far, and in ORDERED mode the charge index and sender that come next (R351). -/
  recvNext : Nat := 0
  recvCharge : Nat := 0
  recvSender : Nat := 0
  /-- Charges of a resumed query that are not run again, their messages having been consumed (R518, R519). -/
  old : List Nat := []
  /-- Autonomous choices that no charge's checkpoint has taken up yet (R42). -/
  decisions : List (Nat × Nat) := []
deriving DecidableEq, Repr, Inhabited

/-- A closed result buffer not yet counted (R171, R174): number, bytes used, batches, rows, last flag, EMIT charges inside. -/
structure RBuf where
  num : Nat
  used : Nat
  batches : Nat
  rows : Nat
  last : Bool
  charges : List Nat
deriving DecidableEq, Repr, Inhabited

/-- A batch waiting for room: bytes, rows, its EMIT charge, and its place among that charge's batches. -/
structure RBatch where
  data : Bytes
  rows : Nat
  charge : Nat
  nth : Nat := 0
deriving DecidableEq, Repr, Inhabited

/-- A result ring (R169 to R174). -/
structure Ring where
  addr : Nat
  buffers : Nat
  vector : Nat
  bytes : Nat
  addrs : List Nat
  consumed : Nat := 0
  produced : Nat := 0
  stalled : Bool := false
  ended : Bool := false
  /-- The open buffer: number, bytes used, batches, rows, charges. -/
  num : Nat := 0
  used : Nat := 64
  count : Nat := 0
  rows : Nat := 0
  charges : List Nat := []
  wait : List RBatch := []
  closed : List RBuf := []
  finished : Bool := false
  /-- produced_count when the query was resumed (R518), and the batches that checkpoints place beyond it, in order: charge, place among its
  batches, buffer, offset (R174). -/
  skip : Nat := 0
  due : List (Nat × Nat × Nat × Nat) := []
deriving DecidableEq, Repr, Inhabited

/-- How a query ends: its status and the fields of Table 13.14 (DESIGN CHOICE, notes/assumptions/109.md). -/
structure Ending where
  status : Nat
  detail : Nat := 0
  reason : Nat := 0
deriving DecidableEq, Repr, Inhabited

/-- A running query. -/
structure Query where
  id : Nat
  x : Nat
  q : Nat
  cid : Nat
  ts : Nat
  epoch : Nat
  autonomous : Bool
  image : Image
  digest : Bytes
  cached : Bool
  descr : Descr := {}
  params : List (SlotTy × Val) := []
  paramHash : Bytes := []
  stages : List StageRun := []
  rings : List Ring := []
  dropped : Nat := 0
  emitted : Nat := 0
  /-- Rows a STORE has taken, with the charge each came from, and those it sends to slag. -/
  storeRows : List (Nat × BRow) := []
  storeBad : List (Nat × BRow) := []
  storeEpoch : Option Nat := none
  storeAsked : Bool := false
  /-- Level-4 spill rows held and not used yet, whether more have been asked of the owner twin (R193), and the pieces on level 4. -/
  granted : List (Nat × Nat) := []
  spillAsked : Bool := false
  spills : List Spill := []
  nextSpill : Nat := 0
  ending : Option Ending := none
  /-- The function was reset: the query posts no completion (R417). -/
  silent : Bool := false
  /-- The query waits for its image and parameter block to be fetched again (R138, R140). -/
  refetch : Bool := false
  /-- The adopted node the query runs as (R37), and the checkpoints it was resumed with, by stage and charge (R517, R518). -/
  node : Option Nat := none
  resume : List (Nat × Nat × Ckpt) := []
  /-- The hearth clock its charges are cut at, in MHz, as its last checkpoint recorded it (R517). -/
  clock : Option Nat := none
deriving DecidableEq, Repr, Inhabited

/-- A charge by query, stage and index; gathering charges of an ordered stage have numbers of their own. -/
structure CRef where
  query : Nat
  stage : Nat
  idx : Nat
  work : Work := .flow
deriving DecidableEq, Repr, Inhabited

/-- A hearth (R22, R311): whether it is enabled for pipeline work, its slots (oldest first), its running charge, the clocks its running
attempt has been charged with, and its expression unit. -/
structure Hearth where
  on : Bool := false
  slots : List CRef := []
  running : Option CRef := none
  rx4 : Bool := false
  parked : Bool := false
  /-- The hearth's domain is powered; it has been quenched (R589). -/
  powered : Bool := false
  quenched : Bool := false
  /-- Banks whose columns are to be repaired once its running charge ends (R378). -/
  mend : List Nat := []
  /-- Operating seconds of its wide-unit faults (R590) and unresolvable faults (R588). -/
  wideAt : List Nat := []
  unresAt : List Nat := []
  exu : Exu := {}
deriving DecidableEq, Repr, Inhabited

/-- An entry of a delay list (R322 to R326): list, due tick, owner tag, and the delay that remains beyond the horizon. -/
structure Delay where
  list : Nat
  due : Nat
  tag : Nat
  rest : Nat := 0
  tried : Option Nat := none
deriving DecidableEq, Repr, Inhabited

/-- The decision trace (R330): records by ring slot, records dropped since the last DROPS record. -/
structure Trace where
  recs : Tab Bytes := []
  lost : Nat := 0
deriving DecidableEq, Repr, Inhabited

end Sys2Proof.Machine
end

