-- ==== Sys2Proof/Machine/StTwin.lean ====
section
/-!
DEFINITION. Sys2Proof/Machine/StTwin.lean: what a twin holds for its pair (17_twin.md): pairing, the twin link's frames, the partner's
command table, the witness and the failover.
-/
namespace Sys2Proof.Machine

/-- What waits for the acknowledgement of a frame (Table 17.3): a charge that becomes held, a completion entry, a commit record, extent
headers, a SNAPSHOT, an ownership transfer, a step of re-sync. -/
inductive TAct where
  | none
  | charge (r : CRef) (sent : Nat)
  | compl (x q cid : Nat)
  | record (ts epoch : Nat)
  | headers (ts epoch : Nat)
  | hold (x q cid : Nat)
  /-- The owner has the hold of a query that waits for its epoch (R70). -/
  | epoch (x q cid : Nat)
  | transfer (ts : Nat)
  | resync (step : Nat)
deriving DecidableEq, Repr, Inhabited

/-- A frame sent and not yet acknowledged (R499): when it was last sent, and by which lane group. -/
structure TTx where
  seq : Nat
  kind : Nat
  body : List Nat
  data : Bytes := []
  act : TAct := .none
  sent : Nat := 0
  lane : Nat := 0
deriving DecidableEq, Repr, Inhabited

/-- What a twin says of itself in HELLO (Table 17.3), with what its drive labels and TWIN_CTRL say (Table 17.1): TP range, image format
and expression level, capacity, node ID, whether it runs alone, its control bits and whether its rings end in clean-shutdown records. -/
structure THello where
  serial : Nat := 0
  pairId : Nat := 0
  pos : Nat := 0
  tpMajorMin : Nat := 1
  tpMajorMax : Nat := 1
  tpMinor : Nat := 2
  ifMajor : Nat := 1
  ifMinor : Nat := 3
  el : Nat := 3
  hbm : Nat := 0
  node : Option Nat := none
  alone : Bool := false
  pairEnable : Bool := false
  acceptJoin : Bool := false
  clean : Bool := false
deriving DecidableEq, Repr, Inhabited

/-- An entry of the command table a twin keeps for its partner (R502): the command, the latest checkpoints by stage and charge, the
record and hold it has of it, and the epoch and policy its query runs with. -/
structure PCmd where
  x : Nat
  q : Nat
  idx : Nat
  entry : Bytes
  resume : Option Resume := none
  /-- The epoch and number of the SNAPSHOT hold taken or released for it. -/
  hold : Option (Nat × Nat) := none
deriving DecidableEq, Repr, Inhabited

def PCmd.cid (c : PCmd) : Nat := fieldAt c.entry 2 2
def PCmd.op (c : PCmd) : Nat := fieldAt c.entry 0 1

/-- An allocation asked of the owner twin (ALLOC_REQ, Table 17.3): form 0 for extents and rows, 1 for spill rows, 2 for spill rows that come
back; the command it is for. -/
structure AllocReq where
  form : Nat := 0
  ts : Nat
  table : Nat := 0
  fn : Nat := 0
  q : Nat := 0
  cid : Nat := 0
  kind : Nat := 1
  extents : Nat := 0
  rows : Nat := 0
  slag : Nat := 0
  /-- Form 1: the query the rows are for, and how many. -/
  query : Nat := 0
  count : Nat := 0
  spill : List (Nat × Nat) := []
deriving DecidableEq, Repr, Inhabited

/-- The owner's answer (ALLOC_GRANT): an epoch (0 for a refusal, with its status), the first row numbers, the first extent number and
the stripe rows by group; or spill rows. -/
structure AllocGrant where
  form : Nat := 0
  ts : Nat
  fn : Nat := 0
  q : Nat := 0
  cid : Nat := 0
  epoch : Nat := 0
  status : Nat := 0
  first : Nat := 0
  slagFirst : Nat := 0
  extent : Nat := 0
  rows : List (Nat × Nat) := []
  query : Nat := 0
deriving DecidableEq, Repr, Inhabited

/-- A checkpoint as its frame carries it (Tables 10.4, 17.3). -/
structure CkptMsg where
  x : Nat
  q : Nat
  cid : Nat
  stage : Nat
  idx : Nat
  gather : Bool := false
  /-- The hearth clock at which the charge was cut, in MHz (Table 17.3). -/
  clock : Nat := 1800
  epoch : Nat
  autonomous : Bool
  produced : List Nat := []
  digest : Bytes := []
  paramHash : Bytes := []
  ck : Ckpt := {}
deriving DecidableEq, Repr, Inhabited

/-- What CONFIG carries (Table 17.3): the sender's node ID and node table, adoption map and policy levels. -/
structure TConfig where
  node : Option Nat := none
  nodes : List (Nat × List Bytes) := []
  adopt : Tab Nat := []
  directed : Bool := true
  fnDirected : List Nat := []
deriving DecidableEq, Repr, Inhabited

/-- One step of re-sync as its frame carries it (Table 17.7). -/
structure TResync where
  step : Nat
  config : TConfig := {}
  spaces : List TSpace := []
  holds : List Hold := []
  lows : List (Nat × Nat) := []
  queues : Tab Qp := []
  cmds : List PCmd := []
deriving DecidableEq, Repr, Inhabited

/-- A completion entry held in a CMD_DONE frame (R511): function, queue, CQ index, SQ index of the command, the entry. -/
structure PDone where
  x : Nat
  q : Nat
  cq : Nat
  sq : Nat
  entry : Bytes
deriving DecidableEq, Repr, Inhabited

/-- The fragment tables of an adopted command, read again for the survivor (R402, R516): function, queue, command_id, tables. -/
structure AFrag where
  x : Nat
  q : Nat
  cid : Nat
  tables : List (Option Bytes)
deriving DecidableEq, Repr, Inhabited

/-- The pair (17). `state` is that of Table 17.10. -/
structure TwinSt where
  state : Nat := 0
  pos : Nat := 0
  pairId : Nat := 0
  /-- What the partner said in its last HELLO. -/
  partner : Option THello := none
  tpMinor : Nat := 0
  up0 : Bool := false
  up1 : Bool := false
  txSeq : Nat := 0
  rxNext : Nat := 0
  unacked : List TTx := []
  /-- When the last valid frame arrived, µs. -/
  lastRx : Nat := 0
  silent : Bool := false
  /-- The twin's own witness_seq, and whether it still writes (R503, R506). -/
  witSeq : Nat := 0
  stopped : Bool := false
  fencedPartner : Bool := false
  /-- The highest partner witness_seq seen, when it last advanced, the drives read without an advance since, and good reads by drive. -/
  seen : Nat := 0
  advanced : Nat := 0
  still : List Nat := []
  reads : List (Nat × Nat) := []
  cmds : List PCmd := []
  dones : List PDone := []
  /-- The partner's queue pairs as QUEUE_STATE mirrors them. -/
  queues : Tab Qp := []
  /-- The partner's SNAPSHOT holds. -/
  holds : List Hold := []
  /-- RECORD frames held of commits of the partner's commands (R502). -/
  records : List Commit := []
  /-- What the partner's last CONFIG said. -/
  config : TConfig := {}
  /-- The next step of re-sync this twin sends (1 to 5; 0 for none). -/
  resync : Nat := 0
  /-- A planned transfer under way (R521): the table space, and whether its OWNERSHIP record has been written. -/
  xfer : Option (Nat × Bool) := none
  /-- Functions of the partner that this twin has adopted, with their standby functions, and adopted queues: function, queue, standby
  function, standby queue. -/
  adopted : List (Nat × Nat) := []
  adoptedQ : List (Nat × Nat × Nat × Nat) := []
  /-- Commits of adopted commands that ended before their queues were adopted: function, queue, command, epoch, rows, slag rows. -/
  outcomes : List (Nat × Nat × Nat × Nat × Nat × Nat) := []
  /-- The failover: when the partner was declared failed, the last step of Table 17.7a done, and its counts. -/
  declared : Option Nat := none
  declaredUs : Nat := 0
  fencedUs : Nat := 0
  movedUs : Nat := 0
  step : Nat := 0
  resumed : Nat := 0
  resubmitted : Nat := 0
  queuesTaken : Nat := 0
  /-- The failed partner's queries that have still to resume, with their standby function and queue. -/
  toResume : List (Nat × Nat × PCmd) := []
  /-- A HELLO that came while the recovery of a declaration ran waits for its end (Table 21.6). -/
  hello : Bool := false
deriving DecidableEq, Repr, Inhabited

/-- A twin that is not paired runs alone (R497). -/
def TwinSt.alone (t : TwinSt) : Bool := t.state != 3

end Sys2Proof.Machine
end

