-- ==== Sys2Proof/Syntax.lean ====
section
/-!
DEFINITION. Sys2Proof/Syntax.lean: the commands of the part, one constructor for each row of the command table. `t` is the time in
microseconds since power-on at which the command arrives; `x` is a function by its index (R495: 0 PF0, n VF n of PF0, 513 PF1, 513 + n VF n
of PF1), `h` a hearth, `u` a memory unit. Data that the device reads from host memory or from a drive come with the command.
-/
namespace Sys2Proof

open Machine

/-- The result of a drive command: 0 success, 2 an unrecovered media error, any other an error; and what a read brought where it differs from
what the device wrote there, by page slot (0 for an extent header). -/
structure DriveRes where
  code : Nat := 0
  got : List (Nat × Bytes) := []
deriving DecidableEq, Repr, Inhabited

/-- The commands. -/
inductive Instr where
  /-- QUERY_SUBMIT (R407): Host submission entry that names an image, a parameter block, a table space and result rings, and starts a query through the admission checks. -/
  | querySubmit (t x q cid : Nat)
  /-- INGEST (R434): Submission entry that carries an ingest stream of rows into a table; the rows are validated and committed as one epoch. -/
  | ingest (t x q cid : Nat)
  /-- READ_PAGES (R405): Submission entry that delivers stored page slots of one visible extent, after decryption, to host memory. -/
  | readPages (t x q cid : Nat)
  /-- FLUSH (R415): Submission entry that acts as an ordering barrier over committing commands within its scope. -/
  | flush (t x q cid : Nat)
  /-- ABORT (R414): Submission entry that ends a named command of the same function, unless the command is past its point of no return. -/
  | abort (t x q cid : Nat)
  /-- SNAPSHOT (R70): Submission entry that takes or releases a hold on an epoch of a table space. -/
  | snapshot (t x q cid : Nat)
  /-- DIGEST (R406): Submission entry that digests or HMACs host data on a digest engine and writes the result to result_addr. -/
  | digest (t x q cid : Nat)
  /-- COMPRESS (R406): Submission entry that SWAGE-encodes, or decodes SWAGE, Zstandard or LZ4 data, from host memory into a host destination. -/
  | compress (t x q cid : Nat)
  /-- ENTRY_FETCH (R401): In an arbitration pass, the port arbiter fetches and checks up to a burst of entries from a queue that holds unfetched entries. -/
  | entryFetch (t port : Nat) (es : List FetchEnt)
  /-- QP_SQ_DOORBELL (R396): Host write of a new SQ tail; an invalid value moves the queue to ERROR. -/
  | qpSqDoorbell (t x q v : Nat)
  /-- QP_CQ_DOORBELL (R397): Host write of a new CQ head; it frees CQ space or moves the queue to ERROR. -/
  | qpCqDoorbell (t x q v : Nat)
  /-- QUEUE_ENABLE (R394): Write of 1 to QP_CTRL enable; the queue moves to ACTIVE, or stays DISABLED with reason CONFIG. -/
  | queueEnable (t x q : Nat)
  /-- QUEUE_DISABLE (R394): Write of 0 to QP_CTRL enable; an idle ACTIVE queue moves to DISABLED, and any other write is ignored. -/
  | queueDisable (t x q : Nat)
  /-- QUEUE_RESET (R416): Write of the QP_CTRL reset bit; the queue enters RESETTING and its commands are aborted. -/
  | queueReset (t x q : Nat)
  /-- QUEUE_RESET_DONE (R416): Once nothing is outstanding and every completion is posted, the resetting queue enters DISABLED with its indices at zero. -/
  | queueResetDone (t x q : Nat)
  /-- COMPLETION_POST (R408): A completion that has become ready is written to the CQ when space allows, and is then signalled under moderation. -/
  | completionPost (t x q : Nat)
  /-- MODERATION_TIMEOUT (R411): The time_us timer of a CQ expires and its vector is sent for the unsignalled completions. -/
  | moderationTimeout (t x q : Nat)
  /-- D3HOT_ENTRY (R412): Host writes D3hot to a function's power state; pending vectors are flushed and later host writes are held. -/
  | d3hotEntry (t x : Nat)
  /-- D0_RETURN (R412): A function returns to D0; held writes are issued in order and pending vectors fire. -/
  | d0Return (t x : Nat)
  /-- REGISTER_WRITE (R12): Write to a BAR or device register that has no row of its own, applied under its access type. -/
  | registerWrite (t x o size v : Nat)
  /-- FUNCTION_RESET (R491): FLR or VF removal starts the reset sequence that cancels all of a function's work. -/
  | functionReset (t x : Nat)
  /-- FUNCTION_RESET_ABANDON (R491): A running charge that has not reached a step boundary within 5 ms of a function reset is abandoned at its next instruction boundary. -/
  | functionResetAbandon (t h clocks : Nat)
  /-- VF_RESET_DONE (R493): The last reset step ends; DMA and interrupts stop, resources are released and the PF is told. -/
  | vfResetDone (t x : Nat)
  /-- PERST_ASSERT (R543): PERST# of a host port is asserted; the port's PF and VFs are reset and its link goes down. -/
  | perstAssert (t port : Nat)
  /-- VF_ENABLE (R481): SR-IOV VF Enable is set or NumVFs is raised; the VFs become usable. -/
  | vfEnable (t port n : Nat)
  /-- VF_DISABLE (R481): VF Enable is cleared or NumVFs is lowered; the removed VFs are reset and their queue grants returned. -/
  | vfDisable (t port n : Nat)
  /-- ATS_INVALIDATION (R389): Host sends an ATS invalidation request to a function. -/
  | atsInvalidation (t x addr : Nat)
  /-- RING_STALL_POLL (R170): The 10 µs delay entry of a full result ring fires and the device reads consumed_count again. -/
  | ringStallPoll (t id e : Nat) (v : Option Nat)
  /-- PRODUCED_COUNT_ADVANCE (R174): Once the partner holds the checkpoints of every charge in a buffer, the buffer header and produced_count are written and the vector is sent. -/
  | producedCountAdvance (t id e : Nat)
  /-- IMAGE_FETCHED (R139): The image of a cache miss has been fetched and digested; it is structurally checked and inserted in the image cache. -/
  | imageFetched (t x q cid : Nat)
  /-- CHARGE_CUT (R305): The scheduler cuts more charges of a stage when its waiting count falls below 64. -/
  | chargeCut (t id stage perUnit once : Nat)
  /-- SLOT_FILL (R312): A hearth's emptied slot takes a READY charge by function and affinity, and starts its prefetch. -/
  | slotFill (t h : Nat)
  /-- CHARGE_START (R311): A hearth starts the charge in its older slot, loading automata and care-mask tables as needed. -/
  | chargeStart (t h : Nat)
  /-- STEAL (R313): An idle hearth with both slots empty takes a charge that has waited at least 50 µs. -/
  | steal (t h : Nat)
  /-- CHARGE_DONE (R307): A charge completes; its output is published and its checkpoint is written locally and sent to the partner. -/
  | chargeDone (t h : Nat) (used : Spent)
  /-- RELEASE (R319): A charge's results are released in sequence once every lower sequence number is released or cancelled. -/
  | release (t id stage : Nat)
  /-- CANCEL (R310): A charge is cancelled at a step boundary and its output discarded. -/
  | cancel (t h clocks : Nat)
  /-- RESTART (R327): An attempt that ends without completing returns its charge to READY to run again from its beginning. -/
  | restart (t h clocks : Nat)
  /-- DELAY_FIRE (R323): A delay-list entry reaches its due tick and fires to its owner, or is re-armed beyond the horizon. -/
  | delayFire (t l : Nat) (v : Option Nat)
  /-- DELAY_FULL (R326): An insertion into a full delay list is tried again at the next tick and counted. -/
  | delayFull (t l ticks tag : Nat)
  /-- TRACE_ENABLE (R330): Setting TRACE_CTRL enable zeroes TRACE_HEAD and TRACE_TAIL and starts writing trace records. -/
  | traceEnable (t x value expected count : Nat)
  /-- ENGINE_BLOCK_DONE (R101): A shared engine finishes a block; it switches to the next ready user or frees the context. -/
  | engineBlockDone (t : Nat) (comp : Bool) (b : EngBlock)
  /-- NOP (R233): Does nothing. -/
  | xNop (h : Nat) (w : XFields) (flt : Option XFault)
  /-- END (R234): Ends the slice; rows with ERR or OVF lose selection and are handled. -/
  | xEnd (h : Nat) (w : XFields) (flt : Option XFault)
  /-- BRZ (R234): Branches forward if a scalar is zero. -/
  | xBrz (h : Nat) (w : XFields) (flt : Option XFault)
  /-- BRNZ (R234): Branches forward if a scalar is non-zero. -/
  | xBrnz (h : Nat) (w : XFields) (flt : Option XFault)
  /-- BRMZ (R234): Branches forward if a mask has no bit set. -/
  | xBrmz (h : Nat) (w : XFields) (flt : Option XFault)
  /-- SETSEL (R235): Sets the role's selection from a mask ANDed with M0. -/
  | xSetsel (h : Nat) (w : XFields) (flt : Option XFault)
  /-- OUT (R236): Writes a register group to a PROJECT output. -/
  | xOut (h : Nat) (w : XFields) (flt : Option XFault)
  /-- MOUT (R236): Writes masks as a BOOL output with validity. -/
  | xMout (h : Nat) (w : XFields) (flt : Option XFault)
  /-- ECLR (R282): Clears ERR, OVF and the row records in the rows of a mask. -/
  | xEclr (h : Nat) (w : XFields) (flt : Option XFault)
  /-- VLD (R237): Loads a slot into a register group, decoding a deferred column if needed. -/
  | xVld (h : Nat) (w : XFields) (flt : Option XFault)
  /-- VLDF (R238): Loads a 4-byte chunk of a FIXED_BINARY slot into U32 lanes. -/
  | xVldf (h : Nat) (w : XFields) (flt : Option XFault)
  /-- VLD2 (R238): Loads two adjacent fields of a FIXED_BINARY slot. -/
  | xVld2 (h : Nat) (w : XFields) (flt : Option XFault)
  /-- VLD3 (R238): Loads three adjacent fields of a FIXED_BINARY slot. -/
  | xVld3 (h : Nat) (w : XFields) (flt : Option XFault)
  /-- VLD4 (R238): Loads four adjacent fields of a FIXED_BINARY slot. -/
  | xVld4 (h : Nat) (w : XFields) (flt : Option XFault)
  /-- TST (R237): Tests a slot against constants or parameters, in code space where eligible. -/
  | xTst (h : Nat) (w : XFields) (flt : Option XFault)
  /-- VROW (R237): Loads row numbers into U64 lanes. -/
  | xVrow (h : Nat) (w : XFields) (flt : Option XFault)
  /-- MLD (R227): Loads a BOOL slot into a mask. -/
  | xMld (h : Nat) (w : XFields) (flt : Option XFault)
  /-- VLDN (R233): Loads a slot's validity into a mask. -/
  | xVldn (h : Nat) (w : XFields) (flt : Option XFault)
  /-- VBC (R234): Broadcasts a constant into a register group. -/
  | xVbc (h : Nat) (w : XFields) (flt : Option XFault)
  /-- VBP (R234): Broadcasts a parameter into a register group. -/
  | xVbp (h : Nat) (w : XFields) (flt : Option XFault)
  /-- SLC (R234): Loads a constant into a scalar. -/
  | xSlc (h : Nat) (w : XFields) (flt : Option XFault)
  /-- SLP (R234): Loads a parameter into a scalar. -/
  | xSlp (h : Nat) (w : XFields) (flt : Option XFault)
  /-- SLI (R233): Loads a sign-extended immediate into a scalar. -/
  | xSli (h : Nat) (w : XFields) (flt : Option XFault)
  /-- VBS (R233): Broadcasts a scalar into a register group. -/
  | xVbs (h : Nat) (w : XFields) (flt : Option XFault)
  /-- VIOTA (R233): Writes lane indices 0 to 127 into U32 lanes. -/
  | xViota (h : Nat) (w : XFields) (flt : Option XFault)
  /-- ADD (R257): Integer add; sets OVF on range overflow. -/
  | xAdd (h : Nat) (w : XFields) (flt : Option XFault)
  /-- SUB (R257): Integer subtract; sets OVF on range overflow. -/
  | xSub (h : Nat) (w : XFields) (flt : Option XFault)
  /-- AND (R257): Bitwise AND. -/
  | xAnd (h : Nat) (w : XFields) (flt : Option XFault)
  /-- OR (R257): Bitwise OR. -/
  | xOr (h : Nat) (w : XFields) (flt : Option XFault)
  /-- XOR (R257): Bitwise XOR. -/
  | xXor (h : Nat) (w : XFields) (flt : Option XFault)
  /-- SHL (R233): Shift left by per-lane count. -/
  | xShl (h : Nat) (w : XFields) (flt : Option XFault)
  /-- SHR (R233): Shift right by per-lane count, arithmetic on signed types. -/
  | xShr (h : Nat) (w : XFields) (flt : Option XFault)
  /-- MIN (R257): Lane minimum. -/
  | xMin (h : Nat) (w : XFields) (flt : Option XFault)
  /-- MAX (R257): Lane maximum. -/
  | xMax (h : Nat) (w : XFields) (flt : Option XFault)
  /-- ABS (R257): Absolute value; sets OVF at MIN. -/
  | xAbs (h : Nat) (w : XFields) (flt : Option XFault)
  /-- NEG (R257): Negation; sets OVF on overflow. -/
  | xNeg (h : Nat) (w : XFields) (flt : Option XFault)
  /-- NOT (R257): Bitwise NOT. -/
  | xNot (h : Nat) (w : XFields) (flt : Option XFault)
  /-- MUL (R257): Integer multiply, low half; sets OVF on overflow. -/
  | xMul (h : Nat) (w : XFields) (flt : Option XFault)
  /-- MULH (R257): Integer multiply, high half. -/
  | xMulh (h : Nat) (w : XFields) (flt : Option XFault)
  /-- WMUL (R241): Exact widening multiply. -/
  | xWmul (h : Nat) (w : XFields) (flt : Option XFault)
  /-- DOT8 (R241): Accumulates a four-way byte dot product into I32 lanes. -/
  | xDot8 (h : Nat) (w : XFields) (flt : Option XFault)
  /-- DOT16 (R241): Accumulates a two-way halfword dot product into I64 lanes. -/
  | xDot16 (h : Nat) (w : XFields) (flt : Option XFault)
  /-- DIV (R259): Integer quotient truncated toward zero; ERR on a zero divisor. -/
  | xDiv (h : Nat) (w : XFields) (flt : Option XFault)
  /-- REM (R259): Integer remainder. -/
  | xRem (h : Nat) (w : XFields) (flt : Option XFault)
  /-- DIVREM (R259): Integer quotient and remainder together. -/
  | xDivrem (h : Nat) (w : XFields) (flt : Option XFault)
  /-- FADD (R275): Floating-point add. -/
  | xFadd (h : Nat) (w : XFields) (flt : Option XFault)
  /-- FSUB (R275): Floating-point subtract. -/
  | xFsub (h : Nat) (w : XFields) (flt : Option XFault)
  /-- FMUL (R275): Floating-point multiply. -/
  | xFmul (h : Nat) (w : XFields) (flt : Option XFault)
  /-- FDIV (R275): Floating-point divide. -/
  | xFdiv (h : Nat) (w : XFields) (flt : Option XFault)
  /-- FSQRT (R275): Floating-point square root. -/
  | xFsqrt (h : Nat) (w : XFields) (flt : Option XFault)
  /-- FMA (R275): Fused multiply-add. -/
  | xFma (h : Nat) (w : XFields) (flt : Option XFault)
  /-- FMIN (R274): Floating-point minimum in key order. -/
  | xFmin (h : Nat) (w : XFields) (flt : Option XFault)
  /-- FMAX (R274): Floating-point maximum in key order. -/
  | xFmax (h : Nat) (w : XFields) (flt : Option XFault)
  /-- FABS (R272): Clears the sign bit. -/
  | xFabs (h : Nat) (w : XFields) (flt : Option XFault)
  /-- FNEG (R272): Flips the sign bit. -/
  | xFneg (h : Nat) (w : XFields) (flt : Option XFault)
  /-- CVT (R280): Converts between types, saturating with OVF when out of range. -/
  | xCvt (h : Nat) (w : XFields) (flt : Option XFault)
  /-- DADD (R261): Decimal add. -/
  | xDadd (h : Nat) (w : XFields) (flt : Option XFault)
  /-- DSUB (R261): Decimal subtract. -/
  | xDsub (h : Nat) (w : XFields) (flt : Option XFault)
  /-- DMUL (R261): Decimal multiply. -/
  | xDmul (h : Nat) (w : XFields) (flt : Option XFault)
  /-- DDIV (R263): Decimal divide rounded once to the result scale. -/
  | xDdiv (h : Nat) (w : XFields) (flt : Option XFault)
  /-- DSCALE (R264): Rescales a decimal. -/
  | xDscale (h : Nat) (w : XFields) (flt : Option XFault)
  /-- PADD (R268): Packed-decimal add. -/
  | xPadd (h : Nat) (w : XFields) (flt : Option XFault)
  /-- PSUB (R268): Packed-decimal subtract. -/
  | xPsub (h : Nat) (w : XFields) (flt : Option XFault)
  /-- PCHK (R268): Sets ERR on invalid packed digits or sign. -/
  | xPchk (h : Nat) (w : XFields) (flt : Option XFault)
  /-- CMP (R230): Compares two groups into a mask. -/
  | xCmp (h : Nat) (w : XFields) (flt : Option XFault)
  /-- VSEL (R229): Selects lanes of a or b by a mask. -/
  | xVsel (h : Nat) (w : XFields) (flt : Option XFault)
  /-- VALID (R230): Copies a group's validity into a mask. -/
  | xValid (h : Nat) (w : XFields) (flt : Option XFault)
  /-- SETNULL (R233): Clears validity of a group in the rows of a mask. -/
  | xSetnull (h : Nat) (w : XFields) (flt : Option XFault)
  /-- MAND (R230): Mask AND. -/
  | xMand (h : Nat) (w : XFields) (flt : Option XFault)
  /-- MOR (R230): Mask OR. -/
  | xMor (h : Nat) (w : XFields) (flt : Option XFault)
  /-- MXOR (R230): Mask XOR. -/
  | xMxor (h : Nat) (w : XFields) (flt : Option XFault)
  /-- MANDN (R230): Mask AND-NOT. -/
  | xMandn (h : Nat) (w : XFields) (flt : Option XFault)
  /-- MNOT (R230): Mask NOT. -/
  | xMnot (h : Nat) (w : XFields) (flt : Option XFault)
  /-- MMOV (R230): Mask move. -/
  | xMmov (h : Nat) (w : XFields) (flt : Option XFault)
  /-- MCNT (R233): Counts mask bits into a scalar. -/
  | xMcnt (h : Nat) (w : XFields) (flt : Option XFault)
  /-- MERR (R231): Copies ERR into a mask. -/
  | xMerr (h : Nat) (w : XFields) (flt : Option XFault)
  /-- MOVF (R231): Copies OVF into a mask. -/
  | xMovf (h : Nat) (w : XFields) (flt : Option XFault)
  /-- VGATH (R239): Gathers table elements by index from constant, parameter or slice scratch. -/
  | xVgath (h : Nat) (w : XFields) (flt : Option XFault)
  /-- VSCAT (R240): Scatters lanes into the slice scratch. -/
  | xVscat (h : Nat) (w : XFields) (flt : Option XFault)
  /-- VLDS (R240): Loads a group from the slice scratch. -/
  | xVlds (h : Nat) (w : XFields) (flt : Option XFault)
  /-- VSTS (R240): Stores a group to the slice scratch. -/
  | xVsts (h : Nat) (w : XFields) (flt : Option XFault)
  /-- SCMP (R242): Compares strings into a mask. -/
  | xScmp (h : Nat) (w : XFields) (flt : Option XFault)
  /-- SPRE (R242): Tests a string prefix. -/
  | xSpre (h : Nat) (w : XFields) (flt : Option XFault)
  /-- SSUF (R242): Tests a string suffix. -/
  | xSsuf (h : Nat) (w : XFields) (flt : Option XFault)
  /-- SFIND (R242): Finds the first offset of a substring. -/
  | xSfind (h : Nat) (w : XFields) (flt : Option XFault)
  /-- SLEN (R242): Gives string lengths. -/
  | xSlen (h : Nat) (w : XFields) (flt : Option XFault)
  /-- STR_SSUB (R242): Takes a substring without copying. -/
  | xStrSsub (h : Nat) (w : XFields) (flt : Option XFault)
  /-- RPM (R289): Regular-pattern match into a mask. -/
  | xRpm (h : Nat) (w : XFields) (flt : Option XFault)
  /-- RPX (R289): Extracts the leftmost-longest match. -/
  | xRpx (h : Nat) (w : XFields) (flt : Option XFault)
  /-- CML (R294): Care-mask table lookup giving a result word. -/
  | xCml (h : Nat) (w : XFields) (flt : Option XFault)
  /-- SADD (R256): Scalar add, wrapping. -/
  | xSadd (h : Nat) (w : XFields) (flt : Option XFault)
  /-- SCAL_SSUB (R256): Scalar subtract, wrapping. -/
  | xScalSsub (h : Nat) (w : XFields) (flt : Option XFault)
  /-- SAND (R256): Scalar AND. -/
  | xSand (h : Nat) (w : XFields) (flt : Option XFault)
  /-- SOR (R256): Scalar OR. -/
  | xSor (h : Nat) (w : XFields) (flt : Option XFault)
  /-- SXOR (R256): Scalar XOR. -/
  | xSxor (h : Nat) (w : XFields) (flt : Option XFault)
  /-- SSHL (R256): Scalar shift left. -/
  | xSshl (h : Nat) (w : XFields) (flt : Option XFault)
  /-- SSHR (R256): Scalar logical shift right. -/
  | xSshr (h : Nat) (w : XFields) (flt : Option XFault)
  /-- SMUL (R256): Scalar multiply, low half. -/
  | xSmul (h : Nat) (w : XFields) (flt : Option XFault)
  /-- SMOV (R256): Scalar move. -/
  | xSmov (h : Nat) (w : XFields) (flt : Option XFault)
  /-- SLT (R256): Scalar signed less-than. -/
  | xSlt (h : Nat) (w : XFields) (flt : Option XFault)
  /-- SLTU (R256): Scalar unsigned less-than. -/
  | xSltu (h : Nat) (w : XFields) (flt : Option XFault)
  /-- RADD (R243): Reduces lanes by sum into a scalar. -/
  | xRadd (h : Nat) (w : XFields) (flt : Option XFault)
  /-- RMIN (R243): Reduces lanes by minimum into a scalar. -/
  | xRmin (h : Nat) (w : XFields) (flt : Option XFault)
  /-- RMAX (R243): Reduces lanes by maximum into a scalar. -/
  | xRmax (h : Nat) (w : XFields) (flt : Option XFault)
  /-- FAULT_RESOLVED (R252): The cause of a fault is resolved and the instruction runs again from element 0. -/
  | faultResolved (t h : Nat) (flt : Option XFault)
  /-- WIDE_IDLE_TIMEOUT (R246): The wide unit issues nothing for wide_idle_us and starts powering down. -/
  | wideIdleTimeout (t h : Nat)
  /-- WIDE_POWER_DOWN_DONE (R246): The 1 µs power-down ends, and a wake that was requested meanwhile starts. -/
  | widePowerDownDone (t h : Nat)
  /-- WIDE_UNIT_READY (R247): The wide unit becomes ready 4 µs after its wake and takes the next instruction boundary. -/
  | wideUnitReady (t h : Nat)
  /-- EXU_CTRL_WRITE (R248): CW write of EXU_CTRL sets wide_idle_us or force_narrow. -/
  | exuCtrlWrite (t x h value expected count : Nat)
  /-- CMT_SCRUB (R299): A scrub lookup cycle, taken every 512 clocks, compares a care-mask unit with its copy and rewrites or withdraws. -/
  | cmtScrub (t h : Nat) (found : Option CareUnit) (copyBad : Bool) (others : List CareUnit)
  /-- SYSTEM_TABLE_APPLY (R298): A hearth applies a system-table update at a lookup boundary; the last one completes the command. -/
  | systemTableApply (t h : Nat)
  /-- VXP_DATA (R343): A DATA segment arrives and is reassembled; a complete message is checked and delivered once. -/
  | vxpData (t : Nat) (k : VPkt)
  /-- VXP_ACK (R347): An ACK arrives; cumulative and selective state advance, and missing packets are resent. -/
  | vxpAck (t : Nat) (k : VPkt)
  /-- FLOW_ACK (R344): A receiver reports the taken and consumed points, which opens the sender's window and frees retention. -/
  | flowAck (t : Nat) (k : VPkt)
  /-- VXP_HELLO (R337): A peer opens an association with its version range and segment size. -/
  | vxpHello (t : Nat) (k : VPkt)
  /-- HELLO_ACK (R337): A peer accepts or refuses an association. -/
  | helloAck (t : Nat) (k : VPkt)
  /-- RESUME (R355): A survivor announces an adopted node; the association is reopened and retained messages are resent. -/
  | resume (t : Nat) (k : VPkt)
  /-- RESUME_ACK (R355): A peer reports the consumed points of the adopted node's flows. -/
  | resumeAck (t : Nat) (k : VPkt)
  /-- RESEND (R343): A receiver asks for a whole message to be sent again. -/
  | resend (t : Nat) (k : VPkt)
  /-- KEEPALIVE (R347): An idle-direction packet keeps the association live. -/
  | keepalive (t : Nat) (k : VPkt)
  /-- CLOSE (R354): A peer ends an exchange; abort or failure reasons end the local query. -/
  | close (t : Nat) (k : VPkt)
  /-- RTO_EXPIRY (R347): The retransmission timeout expires; packets are resent, the RTO doubles and the rate halves. -/
  | rtoExpiry (t peer me : Nat)
  /-- RATE_PERIOD (R347): A 50 µs period ends; the ECN estimate and the rate are updated. -/
  | ratePeriod (t peer me : Nat)
  /-- ACK_TIMER (R347): One tick passes since the oldest unacknowledged packet, and an ACK is sent. -/
  | ackTimer (t peer me : Nat)
  /-- KEEPALIVE_TIMER (R347): VXP_LOST_MS/8 passes with nothing sent in one direction, and a KEEPALIVE is sent. -/
  | keepaliveTimer (t peer me : Nat)
  /-- PEER_LOST (R354): Nothing arrives from a peer for VXP_LOST_MS; its queries complete with PEER_LOST. -/
  | peerLost (t peer : Nat)
  /-- FABRIC_PORT_DOWN (R353): A fabric port half goes down; its paths are removed and packets are resent elsewhere. -/
  | fabricPortDown (t half : Nat)
  /-- FABRIC_PORT_UP (R353): A fabric port comes up and adds its paths. -/
  | fabricPortUp (t half : Nat)
  /-- FAB_CTRL_WRITE (R334): Change of split, media or MTU retrains the port link. -/
  | fabCtrlWrite (t x p value expected count : Nat)
  /-- FRAME_MOVE (R363): A frame is moved to another unit in five steps while accesses to it wait. -/
  | frameMove (t u f dest : Nat)
  /-- FRAME_ZEROING (R360): A freed frame is zeroed in a Maintenance-level step and returned to the pool. -/
  | frameZeroing (t u f : Nat)
  /-- ROW_REPAIR (R369): A DRAM row is repaired by moving frames and applying hard repair, or its frames are retired. -/
  | rowRepair (t u off : Nat) (resource : Bool)
  /-- PATROL_SCRUB_STEP (R369): A patrol-scrub step reads lines of a unit and handles errors. -/
  | patrolScrubStep (t u lines : Nat) (errs : List (Nat × MemErr))
  /-- REFRESH_WINDOW_END (R368): The 32 ms refresh window ends and the activate tables clear. -/
  | refreshWindowEnd (t u : Nat)
  /-- ROW_IDLE_TIMEOUT (R367): A bank's open row sees no access for idle_ns and closes. -/
  | rowIdleTimeout (t u off : Nat)
  /-- ZQ_CALIBRATION (R370): The 128 ms timer runs ZQ calibration. -/
  | zqCalibration (t u : Nat)
  /-- DQS_TRACKING (R370): The 32 ms timer runs DQS oscillator tracking. -/
  | dqsTracking (t u : Nat)
  /-- BANK_RETENTION_ENTRY (R376): An unheld scratchpad bank is idle for ret_idle_us and enters retention. -/
  | bankRetentionEntry (t h b : Nat)
  /-- BANK_WAKE (R376): A scratchpad bank's 8 µs wake from retention completes. -/
  | bankWake (t h b : Nat)
  /-- COLUMN_REPAIR (R378): A scratchpad column is repaired with a spare after the hearth's charge ends. -/
  | columnRepair (t h b : Nat)
  /-- CACHE_READ (R382): A read request looks up the ways and victim buffer, and fills on a miss. -/
  | cacheRead (t ctx dva : Nat) (err : MemErr)
  /-- CACHE_WRITE (R382): A write goes through to memory and updates any cached copy. -/
  | cacheWrite (t ctx dva : Nat) (b : Bytes)
  /-- ZERO_LINE (R382): Writes a zero line to memory and installs it without a read. -/
  | zeroLine (t ctx dva : Nat)
  /-- SESSION_OPEN (R456): Negotiates the MP version, opens a session and returns the identity record. -/
  | sessionOpen (t x : Nat) (r : MbReq)
  /-- SESSION_CLOSE (R457): Closes the mailbox session. -/
  | sessionClose (t x : Nat) (r : MbReq)
  /-- IDENTIFY (R459): Returns the identity record. -/
  | identify (t x : Nat) (r : MbReq)
  /-- EVENT_READ (R461): Returns and removes the oldest event records. -/
  | eventRead (t x : Nat) (r : MbReq)
  /-- OP_STATUS (R461): Returns the state of a long operation. -/
  | opStatus (t x : Nat) (r : MbReq)
  /-- OP_CANCEL (R464): Cancels a long operation at its next step boundary. -/
  | opCancel (t x : Nat) (r : MbReq)
  /-- REG_READ (R468): Reads device registers with their write counts, clearing RC registers. -/
  | regRead (t x : Nat) (r : MbReq)
  /-- REG_WRITE (R467): Writes a device register, as a compare-and-write for CW registers. -/
  | regWrite (t x : Nat) (r : MbReq)
  /-- MEM_READ (R471): Copies claimed HBM3E regions or the trace ring to host memory. -/
  | memRead (t x : Nat) (r : MbReq)
  /-- POLICY_SET (R40): Sets the stored policy level of the device or a VF. -/
  | policySet (t x : Nat) (r : MbReq)
  /-- NODE_SET (R461): Sets the node ID and the node table. -/
  | nodeSet (t x : Nat) (r : MbReq)
  /-- SHARING_GROUP_SET (R139): Places a function in an image sharing group, or empties a group. -/
  | sharingGroupSet (t x : Nat) (r : MbReq)
  /-- MODE_SET (R537): Requests an operating mode or a power ceiling. -/
  | modeSet (t x : Nat) (r : MbReq)
  /-- VF_SHARES_SET (R489): Changes a function's shares all at once or not at all. -/
  | vfSharesSet (t x : Nat) (r : MbReq)
  /-- SYSTEM_TABLE_WRITE (R298): Writes or removes a system table under CMT_SYS_GEN. -/
  | systemTableWrite (t x : Nat) (r : MbReq)
  /-- TS_CREATE (R574): Creates a table space bound to a loaded key. -/
  | tsCreate (t x : Nat) (r : MbReq)
  /-- TS_DELETE (R462): Long operation that removes a table space and deallocates its rows. -/
  | tsDelete (t x : Nat) (r : MbReq)
  /-- TS_CONFIG (R461): Sets retain_epochs of a table space. -/
  | tsConfig (t x : Nat) (r : MbReq)
  /-- TABLE_CREATE (R461): Creates a table with its columns in one epoch. -/
  | tableCreate (t x : Nat) (r : MbReq)
  /-- TABLE_DROP (R462): Drops a table and its slag table in one epoch. -/
  | tableDrop (t x : Nat) (r : MbReq)
  /-- TABLE_ALTER (R462): Adds or drops a column, or truncates the table, in one epoch. -/
  | tableAlter (t x : Nat) (r : MbReq)
  /-- TABLE_VALIDATION_SET (R461): Sets or removes a table's validation image. -/
  | tableValidationSet (t x : Nat) (r : MbReq)
  /-- COMMIT_HISTORY (R480): Writes per-epoch commit records to a host buffer. -/
  | commitHistory (t x : Nat) (r : MbReq)
  /-- TS_SECURE_ERASE (R576): Long operation that unbinds the key, removes it on both twins and deallocates the rows. -/
  | tsSecureErase (t x : Nat) (r : MbReq)
  /-- GROUP_CREATE (R461): Forms a stripe group from drives in position order. -/
  | groupCreate (t x : Nat) (r : MbReq)
  /-- SPARE_ASSIGN (R442): Makes a drive a spare by rewriting its label. -/
  | spareAssign (t x : Nat) (r : MbReq)
  /-- REBUILD_START (R447): Starts a rebuild of a failed position onto a spare. -/
  | rebuildStart (t x : Nat) (r : MbReq)
  /-- RELAYOUT (R462): Long operation that re-lays out extents, optionally to a new scheme. -/
  | relayout (t x : Nat) (r : MbReq)
  /-- SCRUB (R596): Long operation that scrubs a memory unit or a stripe group. -/
  | scrub (t x : Nat) (r : MbReq)
  /-- MEM_PAIR_OFFLINE (R371): Moves a DDR5 pair's frames off the pair and powers it down. -/
  | memPairOffline (t x : Nat) (r : MbReq)
  /-- MEM_PAIR_ONLINE (R371): Trains a DDR5 pair and returns its frames to the pool. -/
  | memPairOnline (t x : Nat) (r : MbReq)
  /-- CACHE_INVALIDATE (R386): Invalidates a context and DVA range in every slice. -/
  | cacheInvalidate (t x : Nat) (r : MbReq)
  /-- CLAIM (R472): Takes a resource through the claims table, or is refused naming the holder. -/
  | claim (t x : Nat) (r : MbReq)
  /-- RELEASE_CLAIM (R474): The holder releases a claim. -/
  | releaseClaim (t x : Nat) (r : MbReq)
  /-- CLAIMS_LIST (R472): Lists live claims. -/
  | claimsList (t x : Nat) (r : MbReq)
  /-- FW_STAGE (R477): Writes and verifies a firmware image into the slot that is not running. -/
  | fwStage (t x : Nat) (r : MbReq)
  /-- FW_ACTIVATE (R478): Replaces the running firmware without a reset. -/
  | fwActivate (t x : Nat) (r : MbReq)
  /-- FW_ACTIVATE_FAILED (R479): The new firmware does not reach step 4 in 200 ms; the previous firmware is restored. -/
  | fwActivateFailed (t stage minor : Nat)
  /-- FW_SELECT (R476): Sets the boot slot. -/
  | fwSelect (t x : Nat) (r : MbReq)
  /-- FW_STATUS (R476): Returns the slot states, versions and digests. -/
  | fwStatus (t x : Nat) (r : MbReq)
  /-- MAILBOX_OVERRUN (R452): A doorbell written while busy is ignored and sets overrun. -/
  | mailboxOverrun (t x : Nat)
  /-- LONG_OP_STEP (R463): A long operation runs one step of at most 2 ms and reaches a step boundary. -/
  | longOpStep (t handle : Nat) (f : StepIn)
  /-- SHARE_PORT_SPLIT (R485): CW write that divides the queue pairs between PF0 and PF1. -/
  | sharePortSplit (t x value expected count : Nat)
  /-- COMMIT_DATA_WRITTEN (R422): Every data, parity and zero write of a commit completes, and the record is built and mirrored. -/
  | commitDataWritten (t ts epoch : Nat)
  /-- COMMIT_RECORD_DURABLE (R422): All m+1 record copies complete; the epoch commits, C advances and completions post. -/
  | commitRecordDurable (t ts epoch : Nat)
  /-- JOURNAL_CHECKPOINT (R431): The ring is half full or 60 s have passed; the catalog is rewritten and a CHECKPOINT record frees ring space. -/
  | journalCheckpoint (t g : Nat)
  /-- RECLAMATION_STEP (R69): Maintenance step that reclaims retired extents at or below the floor. -/
  | reclamationStep (t ts : Nat)
  /-- DRIVE_COMMAND_COMPLETE (R421): A drive command completes; a write is on the media, or a read is delivered or is a short read. -/
  | driveCommandComplete (t n : Nat) (res : DriveRes)
  /-- SHORT_READ_RETRY (R444): The 100 µs delay of a short read fires; the read is issued once more, then the range is reconstructed. -/
  | shortReadRetry (t n : Nat)
  /-- DRIVE_CMD_TIMEOUT (R445): A drive command exceeds its time limit and Abort is sent. -/
  | driveCmdTimeout (t n : Nat)
  /-- DRIVE_ABORT_TIMEOUT (R445): An aborted command is still pending 1 s later, and the controller is reset. -/
  | driveAbortTimeout (t n : Nat)
  /-- DRIVE_RESET_TIMEOUT (R445): A controller does not return from reset in 10 s, and the member fails. -/
  | driveResetTimeout (t slot : Nat)
  /-- DRIVE_INSERTION (R631): DPRSNT# is low for 100 ms; the slot is powered. -/
  | driveInsertion (t slot : Nat)
  /-- DRIVE_REFCLK_START (R631): 200 ms after power-up, DREFCLK starts. -/
  | driveRefclkStart (t slot : Nat)
  /-- DRIVE_PERST_RELEASE (R631): 100 ms later, DPERST# is released and the link trains. -/
  | drivePerstRelease (t slot : Nat)
  /-- DRIVE_LINK_UP (R442): A drive link trains; the drive is checked against its requirements and its label. -/
  | driveLinkUp (t slot : Nat) (f : DriveIn) (rings : StageIn)
  /-- DRIVE_REMOVAL (R631): DPRSNT# is high for 1 ms; the member fails and the slot is powered off. -/
  | driveRemoval (t slot : Nat)
  /-- REBUILD_STEP (R447): Reconstructs the lost strips of 16 stripe rows onto the new member. -/
  | rebuildStep (t g pos : Nat)
  /-- TWIN_HELLO (R496): A twin HELLO frame runs the pairing outcome table. -/
  | twinHello (t seq : Nat) (hello : THello)
  /-- HEARTBEAT (R500): A partner heartbeat frame arrives. -/
  | heartbeat (t seq : Nat)
  /-- ALLOC_REQ (R193): The partner asks for an allocation, or for spill rows or their return. -/
  | allocReq (t seq : Nat) (req : AllocReq)
  /-- ALLOC_GRANT (R193): The owner grants an epoch, row numbers and stripe rows, or spill rows. -/
  | allocGrant (t seq : Nat) (grant : AllocGrant)
  /-- EXTENT_HEADERS (R422): The writer sends its extent headers to the owner. -/
  | extentHeaders (t seq : Nat) (c : Commit)
  /-- RECORD (R502): A commit record is stored in the command table. -/
  | record (t seq : Nat) (c : Commit)
  /-- CHECKPOINT (R502): A charge checkpoint is stored in the command table. -/
  | checkpoint (t seq : Nat) (m : CkptMsg)
  /-- CMD_START (R502): A command's entry is added to the partner's command table. -/
  | cmdStart (t seq x q idx : Nat) (entry : Bytes)
  /-- CMD_DONE (R502): A command's completion is stored and the command leaves the table. -/
  | cmdDone (t seq : Nat) (l : List PDone)
  /-- QUEUE_STATE (R502): Mirrored queue registers or CQ head are stored. -/
  | queueState (t seq x q : Nat) (p : Qp)
  /-- HOLD (R68): A snapshot hold and the lowest-held report are stored. -/
  | hold (t seq : Nat) (hold : Hold) (take : Bool) (low q cid : Nat)
  /-- CONFIG (R509): Node, adoption map and policies are stored. -/
  | config (t seq : Nat) (c : TConfig)
  /-- OWNERSHIP (R521): A table space's ownership moves to this twin. -/
  | ownership (t seq ts reserved last : Nat)
  /-- RESYNC (R522): One re-sync step is applied; the last one switches the pair to mirroring. -/
  | resync (t seq : Nat) (r : TResync)
  /-- TWIN_ACK (R499): A received ack field covers frames, completing the actions that waited on them. -/
  | twinAck (t ack : Nat)
  /-- TWIN_FRAME_RETRY (R499): An unacknowledged frame is resent after 50 µs. -/
  | twinFrameRetry (t seq : Nat)
  /-- HEARTBEAT_TIMER (R500): Every 1 ms, HEARTBEAT is sent on each group that is up. -/
  | heartbeatTimer (t : Nat)
  /-- LINK_SILENT (R500): No valid frame arrives for 20 ms. -/
  | linkSilent (t : Nat)
  /-- TWIN_GROUP_DOWN (R499): A lane group goes down and its frames are resent on the other. -/
  | twinGroupDown (t g : Nat)
  /-- TWIN_LINK_UP (R496): The twin link trains and pairing runs. -/
  | twinLinkUp (t g : Nat)
  /-- WITNESS_WRITE (R503): Every 5 ms, the twin writes its witness block with FUA. -/
  | witnessWrite (t : Nat)
  /-- WITNESS_READ (R504): Every 5 ms, the twin reads the partner's witness. -/
  | witnessRead (t drive : Nat) (block : Option Bytes) (registered : Bool)
  /-- DECLARE_FAILED (R505): Silence and a still witness meet their bounds; the partner is declared failed and fenced. -/
  | declareFailed (t : Nat) (won : Bool)
  /-- STAND_DOWN (R506): A position-1 twin with a silent link and an advancing partner witness stands down. -/
  | standDown (t : Nat)
  /-- RESERVATION_CONFLICT (R508): A write meets a reservation conflict; the twin knows it is fenced and stops. -/
  | reservationConflict (t : Nat)
  /-- FAILOVER_REPLAY (R514): After fencing, the failed twin's rings are replayed, held records committed and ownership taken. -/
  | failoverReplay (t : Nat) (valid reserves : List (Nat × Nat))
  /-- QUEUE_ADOPTION (R510): Queues are set up on standby functions; completions are rewritten and PATH_MOVED is written. -/
  | queueAdoption (t : Nat) (frags : List AFrag)
  /-- QUERY_RESUMPTION (R517): Adopted queries resume at step 3 and RESUME is sent to every node. -/
  | queryResumption (t : Nat)
  /-- RECOVERY_COMPLETE (R520): Failover recovery ends, rebuilds resume and TWIN_LAST_FAILOVER is written. -/
  | recoveryComplete (t : Nat)
  /-- TWIN_OWN_XFER (R521): A write starts a planned ownership transfer of a table space. -/
  | twinOwnXfer (t x ts expected count : Nat)
  /-- PAIR_ENABLE (R496): A change of the TWIN_CTRL pair_enable bit retries pairing. -/
  | pairEnable (t x : Nat) (on : Bool) (expected count : Nat)
  /-- ACCEPT_JOIN (R496): The TWIN_CTRL accept_join bit admits a replacement twin. -/
  | acceptJoin (t x : Nat) (on : Bool) (expected count : Nat)
  /-- UNIT_ACKNOWLEDGE (R535): A unit reaches its step boundary, switches to the target state and acknowledges the prepare. -/
  | unitAcknowledge (t n : Nat)
  /-- MODE_CHANGE_DEADLINE (R535): 2 ms after prepare without every acknowledgement, the change reverts. -/
  | modeChangeDeadline (t : Nat)
  /-- VDD_CORE_READY (R535): The regulator's power-good after a ramp lets prepare begin. -/
  | vddCoreReady (t : Nat)
  /-- HEARTH_GROUP_READY (R534): A hearth group's wake completes and the next group wakes. -/
  | hearthGroupReady (t g : Nat)
  /-- IDLE_TIMER (R529): 10 ms with no work leads to an autonomous choice of Idle. -/
  | idleTimer (t : Nat)
  /-- ENTRY_SEQUENCE (R538): Ember or Off entry checkpoints, writes shutdown records, shuts down the drives and removes domains. -/
  | entrySequence (t : Nat) (ok0 ok1 : Bool)
  /-- EMBER_WAKE (R542): An enabled wake source in Ember starts the exit to Idle. -/
  | emberWake (t : Nat) (by_ : WakeBy)
  /-- BELLOWS_ALARM (R542): The operating-seconds count reaches BELLOWS_ALARM and wakes the device. -/
  | bellowsAlarm (t : Nat)
  /-- DOMAIN_WAKE (R542): A request reaches an off domain, which Bellows powers while the request is held. -/
  | domainWake (t n : Nat)
  /-- DOMAIN_IDLE_TIMEOUT (R533): A domain powered on demand returns to its tabled state after 1 ms without a request. -/
  | domainIdleTimeout (t n : Nat)
  /-- POWER_SAMPLE (R539): A 100 µs package-power measurement in Capped mode. -/
  | powerSample (t : Nat) (reads : List (Nat × Nat × Nat))
  /-- PARK_CHECK (R539): Each 1 ms, a hearth is parked on excess power or unparked below 95 %. -/
  | parkCheck (t : Nat)
  /-- THERMAL_SAMPLE (R540): Tj is read each 100 µs; alert or clamp is applied. -/
  | thermalSample (t : Nat) (l : List (Nat × Int))
  /-- CLAMP_RELEASE (R540): Tj stays below clamp_c - 5 °C for 100 ms, and the clamp releases. -/
  | clampRelease (t : Nat)
  /-- THERMTRIP (R627): A sensor reaches 115 °C; clocks stop and THERMTRIP# is asserted. -/
  | thermtrip (t : Nat)
  /-- START_ATTEMPT (R546): SYS_PWRGD rises, or an Ember exit begins, and a start attempt is opened. -/
  | startAttempt (t : Nat)
  /-- STAGE_COMPLETE (R546): A start stage ends its work and the next begins, or a failure is counted. -/
  | stageComplete (t : Nat) (f : StageIn)
  /-- STAGE_TIMEOUT (R546): A start stage exceeds its bound and fails with TIMEOUT. -/
  | stageTimeout (t : Nat) (reuse : Bool)
  /-- START_RETRY (R551): After a failed start, the next attempt begins at stage 1. -/
  | startRetry (t : Nat)
  /-- PLDM_FIRMWARE_UPDATE (R556): A management controller writes an image into a slot over PLDM. -/
  | pldmFirmwareUpdate (t slot : Nat) (image : Bytes)
  /-- PLDM_ACTIVATE (R556): A PLDM activate request acts as FW_ACTIVATE. -/
  | pldmActivate (t slot : Nat)
  /-- POWER_LOSS (R625): SYS_PWRGD falls; within 2 µs, device writes stop. -/
  | powerLoss (t : Nat)
  /-- VR_PG_FALL (R622): VR_PG_CORE falls; a start stage fails or the device stops. -/
  | vrPgFall (t : Nat)
  /-- TELEMETRY_LOST (R623): A rail answers no AVS read for 1 ms. -/
  | telemetryLost (t rail : Nat)
  /-- REFCLK_LOST (R629): A reference clock is lost, with an outcome per clock. -/
  | refclkLost (t c : Nat)
  /-- DEVICE_STOP (R586): A CP, security or NoC fault, or the watchdog, stops the device. -/
  | deviceStop (t cause : Nat)
  /-- NONCE_GET (R565): Returns a fresh nonce. -/
  | nonceGet (t n : Nat)
  /-- TOKEN_APPLY (R566): Checks a token and applies a life-cycle transition or a debug unlock. -/
  | tokenApply (t n : Nat) (tok : Bytes) (ok : Bool)
  /-- KEY_LOAD (R573): Loads a table-space key into secure SRAM. -/
  | keyLoad (t n ref : Nat) (key : Bytes)
  /-- KEY_UNLOAD (R575): Withdraws a key once no step uses it. -/
  | keyUnload (t n ref : Nat)
  /-- KEY_STATUS (R577): Lists the loaded keys. -/
  | keyStatus (t n : Nat)
  /-- SVN_COMMIT (R569): Raises the fused minimum svn. -/
  | svnCommit (t n : Nat)
  /-- DEBUG_LOCK (R581): Sets the debug level to OFF. -/
  | debugLock (t n : Nat)
  /-- SPDM_REQUEST (R571): An SPDM request on DOE or MCTP: certificate, measurement or session. -/
  | spdmRequest (t tr : Nat) (req : SpdmReq)
  /-- IDE_KM (R571): Keys an IDE stream over a secured session. -/
  | ideKm (t n stream : Nat) (on : Bool)
  /-- IDE_REFUSAL (R572): An IDE stream refuses a host access; reads fail and writes are held. -/
  | ideRefusal (t port stream : Nat) (read : Option Nat) (x addr : Nat) (data : Bytes)
  /-- TAMPER (R579): A tamper input is sampled low; debug drops, the secure SRAM is wiped and an event is raised. -/
  | tamper (t input : Nat) (ok : Bool)
  /-- TAMPER_LATCH_CLEAR (R578): A W1C write clears a tamper latch only while its input is high. -/
  | tamperLatchClear (t value low : Nat)
  /-- TAMPER_CTRL_WRITE (R579): A write to the tamper enables; clearing one is refused in DEPLOYED. -/
  | tamperCtrlWrite (t x value expected count : Nat)
  /-- JTAG_ACCESS (R581): A JTAG operation is served as the debug level permits. -/
  | jtagAccess (t : Nat) (op : JtagOp)
  /-- QUENCH (R589): A hearth is fenced, its charges move and a spare is woken. -/
  | quench (t h : Nat)
  /-- RECORDER_CLOSE (R602): The hourly, or event-driven, close writes the interval records. -/
  | recorderClose (t : Nat)
  /-- ARCHIVE (R605): Closed ring records are copied to both boot flashes. -/
  | archive (t : Nat) (ok0 ok1 : Bool)
  /-- ARCHIVE_NOW (R605): A write of REC_CTRL archive_now requests an archive. -/
  | archiveNow (t x expected count : Nat)
  /-- FREEZE_HOST (R604): A write of REC_CTRL freeze_host freezes the recorder. -/
  | freezeHost (t x : Nat) (on : Bool) (expected count : Nat)
  /-- FREEZE_EXPIRY (R604): A freeze bit clears itself after 10 s, and deferred closes run. -/
  | freezeExpiry (t : Nat)
  /-- MGMT_FREEZE (R606): The management port sets or clears freeze_mgmt. -/
  | mgmtFreeze (t : Nat) (on : Bool)
  /-- MCTP_RECORDER_READ (R606): A management-port read of recorder registers. -/
  | mctpRecorderRead (t addr n : Nat)
  /-- REC_WALLCLOCK (R603): A write sets the wall-clock base, with a CLOCK_STEP record if it jumps. -/
  | recWallclock (t x value expected count : Nat)
  /-- OPERATING_SECOND (R600): The operating-seconds count advances each second. -/
  | operatingSecond (t : Nat)
  /-- QUEUE_DEPTH_SAMPLE (R601): Each 1 ms, a port's queue depth is sampled into the histogram. -/
  | queueDepthSample (t port : Nat)
  /-- HOST_LINK_DOWN (R597): A host link goes down or meets fatal AER, and recovery begins. -/
  | hostLinkDown (t port : Nat)
  /-- RX4_ENABLE (R609): Setting RX4_CTRL enable claims a hearth and two ways for the window. -/
  | rx4Enable (t x expected count : Nat)
  /-- RX4_DISABLE (R609): Clearing enable releases both claims. -/
  | rx4Disable (t x expected count : Nat)
  /-- VALIDATE (R612): RX4 command that checks the named fields of each record. -/
  | validate (t : Nat) (b : Bytes)
  /-- ARITH (R612): RX4 command that adds or subtracts packed fields per record. -/
  | arith (t : Nat) (b : Bytes)
  /-- TOTAL (R612): RX4 command that sums a field into a 31-digit total. -/
  | total (t : Nat) (b : Bytes)
  /-- FILE_OUT (R613): RX4 command that commits the valid records as rows of the bound table. -/
  | fileOut (t : Nat) (b : Bytes)
  /-- FILE_IN (R613): RX4 command that copies table rows to the host by position. -/
  | fileIn (t : Nat) (b : Bytes)
  /-- RX4_RECORD (R615): The held hearth processes one record as one step. -/
  | rx4Record (t : Nat) (data : Option Bytes)
  /-- RX4_GO_OVERRUN (R611): A GO written while a command runs is ignored and sets overrun. -/
  | rx4GoOverrun (t : Nat)
  /-- GPIO_FUNC_WRITE (R634): The claim holder sets a pin's function. -/
  | gpioFuncWrite (t x p value expected count : Nat)
  /-- UART_CTRL_WRITE (R633): Changes the UART rate after the character in progress. -/
  | uartCtrlWrite (t x value expected count : Nat)
  /-- PERST_RELEASE (R586): PERST# of a host port is released; the port's link trains and configuration space answers, and a device stopped under R586 begins a start attempt at stage 1. -/
  | perstRelease (t port : Nat)
  /-- HOST_LINK_UP (R597): A host link trains back to L0, which ends the host-port recovery domain. -/
  | hostLinkUp (t port : Nat)
  /-- REFCLK_RETURN (R629): A lost reference clock returns, for example AONCLK, after which Bellows leaves its internal oscillator and the links it feeds can retrain. -/
  | refclkReturn (t c : Nat)
  /-- DRAM_REFRESH (R367): A refresh falls due on a DRAM bank, which closes its open row and gives the refresh gap that controllers use as a step boundary. -/
  | dramRefresh (t u off : Nat) (rfm : Bool)
  /-- HOST_READ_COMPLETION (R407): Data, an error or poisoned data returns for a device read of host memory, such as a descriptor, parameter block, ring control block, fragment table, key or input stream. -/
  | hostReadCompletion (t tag : Nat) (b : Option Bytes)
  /-- OTHER_TRAFFIC_FRAME (R333): A non-VXP frame arrives on a fabric port; neighbour discovery, ARP or echo is answered, and every other frame is dropped and counted. -/
  | otherTrafficFrame (t half kind : Nat) (b : Bytes)
  /-- PFC_PAUSE_FRAME (R347): A priority flow control pause frame arrives on a port with PFC enabled; VXP transmission on that priority pauses and FAB_PFC_PAUSES counts it. -/
  | pfcPauseFrame (t half mask quanta : Nat)
  /-- AON_POWER_GOOD (R600): VDD_AON returns and AON_PWRGD is asserted; Bellows starts, and operating seconds resume above the highest value recorded, with a LOST record. -/
  | aonPowerGood (t : Nat)
deriving DecidableEq, Repr

end Sys2Proof
end

