-- ==== Sys2Proof/Decode.lean ====
section
/-!
DEFINITION. Sys2Proof/Decode.lean: the words of the command table. The table gives no row a bit, so no word spells a command. (The words of the
expression unit, which stand in a pipeline image, are decoded in Machine/XDecode.lean.)
-/
namespace Sys2Proof

/-- The command that a word spells by the bits of the command table: none, since no row has bits (DESIGN CHOICE, notes/assumptions/7.md). -/
def decodeTableWord (_nbits _w : Nat) : Option Instr := none

end Sys2Proof
end

