-- ==== Sys2Proof/Machine/RegMap.lean ====
section
/-!
DEFINITION. Sys2Proof/Machine/RegMap.lean: the device register space (R254, R391): where each register stands, how it may be
accessed (R12) and what it reads after reset. A register whose reset is `hw` reads a constant of the part until the device
sets it, unless it shows state that the model holds.
-/
namespace Sys2Proof.Machine

/-- Access types (R12). -/
inductive Acc where
  | ro | rw | rc | w1c | cw
deriving DecidableEq, Repr, Inhabited

/-- A run of registers of one kind: first address, stride, number, words of each, access, reset of the low word, and whether the
reset is `hw`. -/
structure RegRow where
  base : Nat
  stride : Nat := 0
  count : Nat := 1
  words : Nat := 1
  acc : Acc
  reset : Nat := 0
  hw : Bool := false
deriving DecidableEq, Repr, Inhabited

/-- Expression units, pattern engines and care-mask tables of the 36 hearths (Tables 7.7 and 9.8). -/
def regsHearth : List RegRow :=
  [⟨0x02100000, 0x1000, 36, 1, .cw, 0x64, false⟩, ⟨0x02100004, 0x1000, 36, 1, .ro, 0, true⟩,
   ⟨0x02100008, 0x1000, 36, 1, .rc, 0, false⟩, ⟨0x02100010, 0x1000, 36, 2, .ro, 0, false⟩,
   ⟨0x02100018, 0x1000, 36, 2, .ro, 0, false⟩, ⟨0x02100020, 0x1000, 36, 1, .rc, 0, false⟩,
   ⟨0x02100024, 0x1000, 36, 1, .rc, 0, false⟩, ⟨0x02100040, 0x1000, 36, 8, .ro, 0, false⟩,
   ⟨0x02100100, 0x1000, 36, 1, .ro, 0, false⟩, ⟨0x02100104, 0x1000, 36, 1, .rc, 0, false⟩,
   ⟨0x02100108, 0x1000, 36, 1, .rc, 0, false⟩, ⟨0x0210010C, 0x1000, 36, 1, .rc, 0, false⟩,
   ⟨0x02100110, 0x1000, 36, 2, .ro, 0, false⟩,
   ⟨0x02300000, 0, 1, 1, .cw, 0, false⟩, ⟨0x02300004, 0, 1, 1, .ro, 0, false⟩]

/-- The scheduler (Table 10.8). -/
def regsSched : List RegRow :=
  [⟨0x02400000, 0, 1, 1, .ro, 0, true⟩, ⟨0x02400008, 0, 1, 1, .rc, 0, false⟩, ⟨0x0240000C, 0, 1, 1, .rc, 0, false⟩,
   ⟨0x02400010, 0, 1, 1, .rc, 0, false⟩, ⟨0x02400014, 0, 1, 1, .rc, 0, false⟩, ⟨0x02400040, 0, 1, 1, .cw, 0, false⟩,
   ⟨0x02400048, 0, 1, 2, .cw, 0, false⟩, ⟨0x02400050, 0, 1, 1, .cw, 0x10, false⟩, ⟨0x02400058, 0, 1, 2, .ro, 0, false⟩,
   ⟨0x02400060, 0, 1, 2, .cw, 0, false⟩, ⟨0x02400068, 0, 1, 1, .rc, 0, false⟩, ⟨0x02400080, 0, 1, 4, .ro, 0, false⟩,
   ⟨0x02400090, 0, 1, 1, .rc, 0, false⟩, ⟨0x02400094, 0, 1, 1, .ro, 0, false⟩]

/-- VXP and the fabric ports (Table 11.9). -/
def regsFabric : List RegRow :=
  [⟨0x02500000, 0, 1, 1, .cw, 0, false⟩, ⟨0x02500004, 0, 1, 1, .ro, 0, false⟩, ⟨0x02500008, 0, 1, 1, .cw, 0x51E9, false⟩,
   ⟨0x0250000C, 0, 1, 1, .cw, 0x3E8, false⟩, ⟨0x02500010, 0, 1, 1, .cw, 0x0004000A, false⟩, ⟨0x02500014, 0, 1, 1, .cw, 0, false⟩,
   ⟨0x02500018, 0, 1, 1, .ro, 0, false⟩, ⟨0x02500020, 0, 1, 1, .rc, 0, false⟩, ⟨0x02500024, 0, 1, 1, .rc, 0, false⟩,
   ⟨0x02500028, 0, 1, 1, .rc, 0, false⟩, ⟨0x0250002C, 0, 1, 1, .rc, 0, false⟩, ⟨0x02500030, 0, 1, 1, .rc, 0, false⟩,
   ⟨0x02510000, 0x100, 8, 1, .cw, 0, false⟩, ⟨0x02510004, 0x100, 8, 1, .ro, 0, false⟩, ⟨0x02510008, 0x100, 8, 1, .rc, 0, false⟩,
   ⟨0x0251000C, 0x100, 8, 1, .rc, 0, false⟩, ⟨0x02510010, 0x100, 8, 1, .rc, 0, false⟩]

/-- Scratchpads of the hearths (Table 12.12) (DEDUCED, notes/assumptions/134.md). -/
def regsSpm : List RegRow :=
  [⟨0x02100200, 0x1000, 36, 1, .cw, 0x14, false⟩, ⟨0x02100204, 0x1000, 36, 1, .ro, 0, false⟩, ⟨0x02100208, 0x1000, 36, 1, .ro, 0, true⟩,
   ⟨0x0210020C, 0x1000, 36, 1, .rc, 0, false⟩, ⟨0x02100210, 0x1000, 36, 1, .rc, 0, false⟩, ⟨0x02100214, 0x1000, 36, 1, .rc, 0, false⟩,
   ⟨0x02100218, 0x1000, 36, 1, .rc, 0, false⟩, ⟨0x02100240, 0x1000, 36, 48, .rc, 0, false⟩]

/-- One kind of DRAM controller (Table 12.8): its first address and how many there are. -/
def regsDram (b n : Nat) : List RegRow :=
  [⟨b, 0x1000, n, 1, .ro, 0, true⟩, ⟨b + 0x04, 0x1000, n, 1, .cw, 0x001000C8, false⟩, ⟨b + 0x08, 0x1000, n, 1, .cw, 0x7D0, false⟩,
   ⟨b + 0x0C, 0x1000, n, 1, .cw, 0x18, false⟩, ⟨b + 0x10, 0x1000, n, 1, .ro, 0, true⟩, ⟨b + 0x14, 0x1000, n, 1, .ro, 0, true⟩,
   ⟨b + 0x18, 0x1000, n, 1, .ro, 0, true⟩, ⟨b + 0x20, 0x1000, n, 1, .rc, 0, false⟩, ⟨b + 0x24, 0x1000, n, 1, .rc, 0, false⟩,
   ⟨b + 0x28, 0x1000, n, 1, .rc, 0, false⟩, ⟨b + 0x2C, 0x1000, n, 1, .rc, 0, false⟩, ⟨b + 0x30, 0x1000, n, 1, .ro, 0, true⟩,
   ⟨b + 0x34, 0x1000, n, 1, .ro, 0, true⟩, ⟨b + 0x40, 0x1000, n, 4, .ro, 0, false⟩]

/-- Memory-wide registers and the system cache (Tables 12.9 and 12.14); MEM_MAP has its factory value. The secure SRAM's status
(R379). -/
def regsMem : List RegRow :=
  regsDram 0x02600000 4 ++ regsDram 0x02608000 8 ++
  [⟨0x02610000, 0, 1, 1, .cw, 0xBB, false⟩, ⟨0x02610004, 0, 1, 1, .ro, 0, true⟩, ⟨0x02610008, 0, 1, 1, .ro, 0, true⟩,
   ⟨0x02610010, 0, 1, 1, .rc, 0, false⟩, ⟨0x02610014, 0, 1, 1, .rc, 0, false⟩, ⟨0x02610018, 0, 1, 4, .ro, 0, false⟩,
   ⟨0x02700000, 0, 1, 1, .ro, 0, true⟩, ⟨0x02700008, 0, 1, 2, .ro, 0, false⟩, ⟨0x02700010, 0, 1, 2, .ro, 0, false⟩,
   ⟨0x02700018, 4, 5, 1, .rc, 0, false⟩, ⟨0x02700040, 8, 8, 2, .ro, 0, false⟩, ⟨0x02700100, 4, 24, 1, .ro, 0, true⟩,
   ⟨0x02800000, 0, 1, 1, .ro, 0, false⟩]

/-- Drives and shares (Tables 14.7 and 16.5). The reset of a share's words stands in the record that the model shows. -/
def regsStore : List RegRow :=
  [⟨0x02900000, 0, 1, 1, .cw, 0x001401F4, false⟩, ⟨0x02900004, 0, 1, 1, .ro, 0, false⟩, ⟨0x02900008, 4, 4, 1, .rc, 0, false⟩,
   ⟨0x02910000, 0x100, 72, 1, .ro, 0, false⟩, ⟨0x02910004, 0x100, 72, 1, .rc, 0, false⟩, ⟨0x02910008, 0x100, 72, 1, .rc, 0, false⟩,
   ⟨0x02A00000, 0, 1, 1, .cw, 0x1000, false⟩, ⟨0x02A00004, 0, 1, 1, .cw, 0x40, false⟩,
   ⟨0x02A10000, 0x40, 1026, 4, .ro, 0, false⟩, ⟨0x02A10010, 0x40, 1026, 2, .ro, 0, false⟩, ⟨0x02A10018, 0x40, 1026, 4, .ro, 0, false⟩,
   ⟨0x02A10028, 0x40, 1026, 2, .ro, 0, false⟩, ⟨0x02A10030, 0x40, 1026, 1, .ro, 0, false⟩]

/-- The pair (Table 17.9), power and Bellows (Table 18.11), start (Table 19.6). -/
def regsTwin : List RegRow :=
  [⟨0x02B00000, 0, 1, 1, .cw, 0, false⟩, ⟨0x02B00004, 0, 1, 1, .ro, 0, true⟩, ⟨0x02B00008, 0, 1, 1, .ro, 0, false⟩,
   ⟨0x02B00010, 0, 1, 2, .ro, 0, true⟩, ⟨0x02B00018, 0, 1, 1, .ro, 0, false⟩, ⟨0x02B00020, 0, 1, 2, .cw, 0, false⟩,
   ⟨0x02B00028, 4, 2, 1, .rc, 0, false⟩, ⟨0x02B00030, 0, 1, 1, .ro, 0, false⟩, ⟨0x02B00040, 0, 1, 8, .ro, 0, false⟩,
   ⟨0x02B10000, 4, 1026, 1, .cw, 0, false⟩,
   ⟨0x02C00000, 0, 1, 1, .ro, 0, true⟩, ⟨0x02C00004, 0, 1, 1, .ro, 0, true⟩, ⟨0x02C00008, 0, 1, 1, .ro, 0, false⟩,
   ⟨0x02C0000C, 0, 1, 1, .ro, 0, false⟩, ⟨0x02C00010, 0, 1, 1, .cw, 0x6964, false⟩, ⟨0x02C00020, 0, 1, 4, .ro, 0, true⟩,
   ⟨0x02C00030, 0, 1, 4, .ro, 0, true⟩, ⟨0x02C00040, 0, 1, 8, .ro, 0, false⟩, ⟨0x02C00060, 0, 1, 1, .rc, 0, false⟩,
   ⟨0x02C10000, 0, 1, 1, .cw, 0, false⟩, ⟨0x02C10004, 0, 1, 1, .cw, 0x1F, false⟩, ⟨0x02C10008, 0, 1, 1, .w1c, 0, false⟩,
   ⟨0x02C10010, 0, 1, 2, .cw, 0, false⟩,
   ⟨0x02D00000, 4, 3, 1, .ro, 0, true⟩, ⟨0x02D00010, 0, 1, 8, .ro, 0, false⟩, ⟨0x02D00030, 4, 2, 1, .ro, 0, true⟩,
   ⟨0x02D00038, 0, 1, 1, .cw, 1, false⟩]

/-- Security (Table 20.9), health and the recorder (Table 21.10), the RX4 window (Table 22.4), pins (Table 23.7, R633). -/
def regsHealth : List RegRow :=
  [⟨0x02E00000, 0, 1, 1, .ro, 0, true⟩, ⟨0x02E00004, 0, 1, 1, .ro, 0, true⟩, ⟨0x02E00008, 0, 1, 1, .ro, 0, false⟩,
   ⟨0x02E0000C, 0, 1, 1, .cw, 3, false⟩, ⟨0x02E00010, 0, 1, 1, .w1c, 0, true⟩, ⟨0x02E00014, 0, 1, 1, .ro, 0, true⟩,
   ⟨0x02E00018, 0, 1, 1, .rc, 0, false⟩, ⟨0x02E00020, 0, 1, 1, .ro, 0, true⟩,
   ⟨0x02F00000, 0, 1, 1, .ro, 0, true⟩, ⟨0x02F00008, 0, 1, 2, .ro, 0, true⟩, ⟨0x02F00010, 0, 1, 2, .ro, 0, true⟩,
   ⟨0x02F00018, 0, 1, 1, .ro, 0, false⟩, ⟨0x02F0001C, 0, 1, 1, .rc, 0, false⟩, ⟨0x02F00020, 0, 1, 1, .ro, 0, false⟩,
   ⟨0x02F00040, 4, 16, 1, .ro, 0, false⟩, ⟨0x02F00100, 0, 1, 1, .cw, 0, false⟩, ⟨0x02F00104, 0, 1, 1, .ro, 0, false⟩,
   ⟨0x02F00108, 0, 1, 1, .ro, 0, true⟩, ⟨0x02F00110, 0, 1, 2, .ro, 0, true⟩, ⟨0x02F00118, 0, 1, 2, .cw, 0, false⟩,
   ⟨0x02F00120, 0, 1, 1, .rc, 0, false⟩, ⟨0x02F00124, 0, 1, 1, .cw, 0, false⟩, ⟨0x02F00128, 0, 1, 1, .ro, 0, true⟩,
   ⟨0x02F10000, 0, 1, 16384, .ro, 0, true⟩, ⟨0x02F20000, 0, 1, 16384, .ro, 0, true⟩, ⟨0x02F30000, 0, 1, 16384, .ro, 0, false⟩,
   ⟨0x03000000, 0, 1, 1, .cw, 0, false⟩, ⟨0x03000004, 0, 1, 1, .cw, 0, false⟩, ⟨0x03000008, 0, 1, 1, .cw, 0, false⟩,
   ⟨0x0300000C, 4, 2, 1, .ro, 0, false⟩,
   ⟨0x03100000, 4, 16, 1, .cw, 0, false⟩, ⟨0x03100040, 0, 1, 1, .ro, 0, true⟩, ⟨0x03100044, 0, 1, 1, .w1c, 0, false⟩,
   ⟨0x03200000, 0, 1, 1, .cw, 0, false⟩]

/-- Every register row. -/
def regRows : List RegRow := regsHearth ++ regsSched ++ regsFabric ++ regsSpm ++ regsMem ++ regsStore ++ regsTwin ++ regsHealth

/-- Whether an address is one of a row's words. -/
def RegRow.has (r : RegRow) (a : Nat) : Bool :=
  decide (r.base ≤ a) && (if r.stride = 0 then decide (a < r.base + 4 * r.words)
    else decide ((a - r.base) / r.stride < r.count) && decide ((a - r.base) % r.stride < 4 * r.words)) && a % 4 == 0

/-- The row of an address; none for an address no register has (it reads as zero and takes no write, R12). -/
def regRow (a : Nat) : Option RegRow := regRows.find? (fun r => r.has a)

/-- The first address of the register an address lies in. -/
def RegRow.start (r : RegRow) (a : Nat) : Nat := if r.stride = 0 then r.base else r.base + (a - r.base) / r.stride * r.stride

/-- What a register word reads before anything sets it. -/
def regReset (a : Nat) : Word :=
  match regRow a with
  | some r => if r.hw then Config.hwReset a else if a = r.start a then BitVec.ofNat 32 r.reset else BitVec.ofNat 32 (r.reset / 2 ^ 32)
  | none => 0

end Sys2Proof.Machine
end

