-- ==== Sys2Proof/Machine/StFabric.lean ====
section
/-!
DEFINITION. Sys2Proof/Machine/StFabric.lean: what the part holds for its fabric ports (11_exchange.md): the node table, associations,
flows and messages.
-/
namespace Sys2Proof.Machine

/-- A packet sent and not yet acknowledged: number, type, fields after the common header, flags, payload, send time, how many later
packets have been acknowledged, the path it left by: port half and remote address. -/
structure VTx where
  psn : Nat
  kind : Nat
  flags : Nat := 0
  body : Bytes := []
  payload : Bytes := []
  sent : Nat := 0
  later : Nat := 0
  path : Nat × Bytes := (0, [])
deriving DecidableEq, Repr, Inhabited

/-- An association with a peer node (R336, R337, R347). Rates are in Mb/s, `alpha` in units of 2^-32. -/
structure Assoc where
  peer : Nat
  /-- The node the device is in this association: its own, or the adopted one (R37). -/
  me : Nat
  own : Nat := 0
  theirs : Option Nat := none
  opened : Bool := false
  refused : Bool := false
  /-- The XP version: the sender's highest until one is chosen. -/
  major : Nat := 1
  minor : Nat := 0
  seg : Nat := 1024
  txPsn : Nat := 0
  unacked : List VTx := []
  rxCum : Nat := 0
  rxHeld : List Nat := []
  sinceAck : Nat := 0
  ceSince : Nat := 0
  rto : Nat := 100
  srtt : Option Nat := none
  rate : Nat := 400000
  alpha : Nat := 0
  acked : Nat := 0
  ceAcked : Nat := 0
  timedOut : Bool := false
  lastRx : Nat := 0
  lastTx : Nat := 0
deriving DecidableEq, Repr, Inhabited

/-- A message (R340, R341): the charge index and piece of its msg_id, flags (Table 11.4) and body with its CRC; the level of the ladder its sender
retains it on, with its bytes there (R342). -/
structure XMsg where
  charge : Nat
  piece : Nat
  flags : Nat
  data : Bytes := []
  sent : Bool := false
  held : List (Nat × Nat) := []
deriving DecidableEq, Repr, Inhabited

/-- The sending side of a flow to one receiver (R342, R344). Points are (charge, piece). -/
structure SFlow where
  query : Nat
  exch : Nat
  stage : Nat
  sender : Nat
  node : Nat
  window : Nat
  msgs : List XMsg := []
  taken : Option (Nat × Nat) := none
  consumed : Option (Nat × Nat) := none
deriving DecidableEq, Repr, Inhabited

/-- A message under reassembly (R343). -/
structure RPart where
  charge : Nat
  piece : Nat
  flags : Nat
  bytes : Nat
  segs : List (Nat × Bytes) := []
deriving DecidableEq, Repr, Inhabited

/-- The receiving side of a flow from one sender (R343 to R346): the next message expected, complete messages beyond it, messages in
order and not yet given to a charge, the end of the stream, and the points reported. -/
structure RFlow where
  sender : Nat
  exch : Nat
  stage : Nat
  /-- The node the device receives as: its own, or the adopted one (R37). -/
  me : Nat := 0
  expCharge : Nat := 0
  expPiece : Nat := 0
  parts : List RPart := []
  got : List XMsg := []
  queue : List XMsg := []
  ended : Option Nat := none
  taken : Option (Nat × Nat) := none
  consumed : Option (Nat × Nat) := none
  /-- The flow is to a resumed query, and where its messages begin is not known yet; the lowest packet number of them that has come, with its
  message; and the first message once it is known (R355, R519). -/
  fresh : Bool := false
  low : Option (Nat × Nat × Nat) := none
  first : Option (Nat × Nat) := none
deriving DecidableEq, Repr, Inhabited

/-- A consumed point that a RESUME_ACK has told of a flow (R355). -/
structure RPoint where
  exch : Nat
  stage : Nat
  node : Nat
  sender : Nat
  point : Option (Nat × Nat)
deriving DecidableEq, Repr, Inhabited

/-- A fabric port half (DESIGN CHOICE, notes/assumptions/37.md). -/
structure FabHalf where
  up : Bool := false
  fec : Bool := false
  pausedUntil : Nat := 0
  /-- Packets that wait for a pause to end. -/
  held : List Out := []
deriving DecidableEq, Repr, Inhabited

/-- The fabric side of the device. -/
structure FabSt where
  /-- Peer nodes with their addresses (R334, R335). -/
  nodes : List (Nat × List Bytes) := []
  /-- The device's own addresses by port. -/
  ownAddrs : List (Nat × Bytes) := []
  assocs : List Assoc := []
  sflows : List SFlow := []
  rflows : List RFlow := []
  /-- Exchanges that completed: exchange_id, send stage, time in µs (R346). -/
  done : List (Nat × Nat × Nat) := []
  /-- assoc_ids used so far. -/
  usedIds : List (Nat × Nat) := []
  halves : Tab FabHalf := []
  /-- What the peers of an adopted node had consumed of its flows (R355). -/
  resumed : List RPoint := []
  otherDrops : Nat := 0
deriving DecidableEq, Repr, Inhabited

end Sys2Proof.Machine
end

