-- ==== Sys2Proof/Machine/StHealth.lean ====
section
/-!
DEFINITION. Sys2Proof/Machine/StHealth.lean: recovery domains, unavailable extents and the event recorder (21_health_record.md).
-/
namespace Sys2Proof.Machine

/-- A DRIVE_LATENCY accumulator (Table 21.9, kind 1). -/
structure LatAcc where
  bins : Tab Nat := []
  count : Nat := 0
  sum : Nat := 0
  most : Nat := 0
deriving DecidableEq, Repr, Inhabited

/-- A QUEUE_DEPTH accumulator (kind 2). -/
structure DepthAcc where
  bins : Tab Nat := []
  samples : Nat := 0
  most : Nat := 0
deriving DecidableEq, Repr, Inhabited

/-- The accumulators of the current interval (Table 21.9). -/
structure RecAcc where
  lat : Tab LatAcc := []
  depth : Tab DepthAcc := []
  /-- Lowest and highest reading by domain, 0.1 °C. -/
  therm : Tab (Option (Int × Int)) := []
  /-- The hottest reading and its operating seconds, by half (PD00 to PD35, PD36 to PD71). -/
  hottest : Tab (Option (Int × Nat)) := []
  /-- Lowest and highest reading by supply, mV. -/
  supply : Tab (Option (Nat × Nat)) := []
  /-- The error totals at the interval's start, by register address. -/
  base : Tab Nat := []
  /-- Seconds by mode. -/
  residency : Tab Nat := []
  commits : Nat := 0
  reverts : Nat := 0
  parkedS : Nat := 0
  clampS : Nat := 0
  /-- The twelve counts of kind 7, by place. -/
  repairs : Tab Nat := []
deriving DecidableEq, Repr, Inhabited

/-- The event recorder (R599 to R606). -/
structure RecSt where
  /-- Closed records, oldest first. -/
  ring : List Bytes := []
  seq : Nat := 0
  /-- The wall-clock base in ms and the time it was stored, µs. -/
  wall : Option (Int × Nat) := none
  /-- Operating seconds at the interval's start. -/
  start : Nat := 0
  acc : RecAcc := {}
  /-- When each freeze bit was set, µs. -/
  freezeHost : Option Nat := none
  freezeMgmt : Option Nat := none
  /-- A close, and an archive, deferred by a freeze. -/
  closeDue : Bool := false
  /-- Records that a freeze keeps waiting: kind, source, body. -/
  waiting : List (Nat × Nat × Bytes) := []
  archDue : Bool := false
  /-- Records lost and not yet told in a LOST record, by cause. -/
  lost : Tab Nat := []
  /-- Pages whose reconstruction failed, as they were reported (R63): table space, extent, page index. -/
  pages : List (Nat × Nat × Nat) := []
  /-- System tables withdrawn, as they were reported (R301): operating second, table. -/
  tables : List (Nat × Nat) := []
  /-- Archive sectors by flash * 384 + sector: sector_seq and records. -/
  sectors : Tab (Option (Nat × List Bytes)) := []
  sector : Nat := 0
  sectorSeq : Nat := 0
  archFail : Bool := false
deriving DecidableEq, Repr, Inhabited

/-- Health (R585 to R598). -/
structure HealthSt where
  /-- Recoveries running: domain code and unit. -/
  recovering : List (Nat × Nat) := []
  /-- UNAVAIL_LIST: table space, group, extent. -/
  unavail : List (Nat × Nat × Nat) := []
  overflow : Bool := false
  /-- seq of the repair record (R592). -/
  repairSeq : Nat := 0
  slicesFenced : List Nat := []
  unitsFenced : List Nat := []
  /-- Fabric port halves disabled by a second failure. -/
  fabDisabled : List Nat := []
  /-- GROUP_STATE as last reported, by group. -/
  groups : Tab Nat := []
deriving DecidableEq, Repr, Inhabited

end Sys2Proof.Machine
end

