-- ==== Sys2Proof/Machine/Dev.lean ====
section
/-!
DEFINITION. Sys2Proof/Machine/Dev.lean: the whole of one QE9 device as plain data, grouped by the chapter of the specification
that names it. The machine's state (State.lean) is this and the queue of waiting commands.
-/
namespace Sys2Proof.Machine

/-- What the part holds for its hosts (13_host_queues.md). -/
structure HostSt where
  /-- Functions by index x (R495). -/
  fns : Tab Fn := []
  /-- Queue pairs by 8192 * x + q. -/
  qps : Tab Qp := []
  reads : List HRead := []
  nextTag : Nat := 0
  nextSeq : Nat := 0
  /-- The arbitration pass each port has reached, and the queues it has still to visit (R401). -/
  pass : Tab (List Nat) := []
  /-- QP_ARB plus 1 of each queue as its port's round began; 0 for a queue that has come since (R393). -/
  arbs : Tab Nat := []
  engJobs : List EngJob := []
  pageJobs : List PageJob := []
  /-- Four compression engines and two digest engines (Table 1.1). -/
  compEng : List Engine := [{}, {}, {}, {}]
  digEng : List Engine := [{}, {}]
  waitComp : List EngUser := []
  waitDig : List EngUser := []
  /-- Host port links, A and B. -/
  links : Tab HLink := []
deriving DecidableEq, Repr, Inhabited

/-- What the pair keeps on its drives, and the work on it (02, 14). -/
structure StoreSt where
  spaces : List TSpace := []
  lastTs : Nat := 0
  holds : List Hold := []
  nextHold : Nat := 1
  groups : List SGroup := []
  commits : List Commit := []
  ingests : List Ingest := []
  drives : Tab Drive := []
  dcmds : List DCmd := []
  nextCmd : Nat := 0
  journals : List Journal := []
  rebuilds : List Rebuild := []
deriving DecidableEq, Repr, Inhabited

/-- Queries, hearths and the scheduler (04 to 10). -/
structure QrySt where
  cache : List CacheEnt := []
  cacheSeq : Nat := 0
  /-- The shared group of a function, 0 for its own (R139). -/
  sharing : Tab Nat := []
  subs : List Submit := []
  queries : List Query := []
  nextQuery : Nat := 1
  hearths : Tab Hearth := []
  /-- V_f by function index; 2000 stands for the device's own work (R316). -/
  vf : Tab Nat := []
  /-- Steps of the device's own work so far, which run as a function of their own (R316, notes/assumptions/165.md). -/
  works : Nat := 0
  /-- The operating mode the device has chosen since a charge was last cut (R42, R529). -/
  modeChoice : Option Nat := none
  delays : List Delay := []
  tick : Nat := 0
  trace : Trace := {}
deriving DecidableEq, Repr, Inhabited

/-- Shares of a function (Table 16.2). -/
structure Share where
  hearthWeight : Nat := 256
  fabricWeight : Nat := 16
  scratchKib : Nat := 6144
  hbm : Nat := 0xFFFFFFFF
  ddr : Nat := 0xFFFFFFFF
  driveMib : Nat := 0xFFFFFFFFFFFFFFFF
deriving DecidableEq, Repr, Inhabited

/-- The policy levels and shares of functions (01, 16). -/
structure FnSt where
  /-- The device is set to DIRECTED (R40). -/
  directed : Bool := true
  /-- Functions whose own stored level is DIRECTED. -/
  fnDirected : List Nat := []
  shares : Tab Share := []
  /-- Queue pairs granted to each VF. -/
  queues : Tab Nat := []
  /-- NumVFs of a port while its VF Enable is set. -/
  numVfs : Tab Nat := []
  /-- VFs enabled at least once since power-on (Table 16.1). -/
  seen : List Nat := []
  /-- Function resets that run: function and when it began, µs (R491). -/
  resetting : List (Nat × Nat) := []
  /-- VFs removed whose reset has still to give their queue grants back (R481). -/
  leaving : List Nat := []
deriving DecidableEq, Repr, Inhabited

/-- One device. -/
structure Dev where
  /-- Time since power-on in microseconds, as the commands that carry a time tell it. -/
  timeUs : Nat := 0
  /-- How many free values the run has drawn (Config.freeWord). -/
  freeCtr : Nat := 0
  /-- Everything the part has sent out, in order. -/
  out : List Out := []
  /-- Register words that differ from what they read after reset (regReset), by address. -/
  regs : Tab Word := []
  /-- write_count of each CW register (R467), by address. -/
  cwCount : Tab Nat := []
  /-- Functions and registers (cwKey) whose last compare-and-write failed (R468). -/
  cwFailed : List Nat := []
  host : HostSt := {}
  store : StoreSt := {}
  qry : QrySt := {}
  fn : FnSt := {}
  fab : FabSt := {}
  twin : TwinSt := {}
  mail : MailSt := {}
  mem : MemSt := {}
  health : HealthSt := {}
  rcd : RecSt := {}
  pwr : PwrSt := {}
  start : StartSt := {}
  sec : SecSt := {}
  rx4 : Rx4St := {}
  pins : PinSt := {}
  /-- Errors counted since power-on by the address of their counter, whatever reads have cleared it (R585). -/
  tally : Tab Nat := []
  /-- The operating-seconds count and the power-cycle count (R600). -/
  opSec : Nat := 0
  cycles : Nat := 0
deriving DecidableEq, Repr, Inhabited

end Sys2Proof.Machine
end

