-- ==== Sys2Proof/Machine/Ops.lean ====
section
/-!
DEFINITION. Sys2Proof/Machine/Ops.lean: the named operations the meanings share: registers, free values, functions, host writes and
vectors, completions, delay lists and the decision trace.
-/
namespace Sys2Proof.Machine

/-! ### Registers -/

/-- A register word. -/
def Dev.reg (d : Dev) (a : Nat) : Word := tabGet (regReset a) d.regs a
/-- A register word set by the device. -/
def Dev.setReg (d : Dev) (a : Nat) (w : Word) : Dev := { d with regs := tabSet (regReset a) d.regs a w }
/-- A register word as a number. -/
def Dev.regN (d : Dev) (a : Nat) : Nat := (d.reg a).toNat
/-- A 64-bit register, low word first. -/
def Dev.reg64 (d : Dev) (a : Nat) : Nat := d.regN a + 2 ^ 32 * d.regN (a + 4)
def Dev.setReg64 (d : Dev) (a v : Nat) : Dev := (d.setReg a (BitVec.ofNat 32 v)).setReg (a + 4) (BitVec.ofNat 32 (v / 2 ^ 32))
/-- Addition to a saturating 32-bit counter, and to the total the event recorder keeps of it (R585). -/
def Dev.bump (d : Dev) (a n : Nat) : Dev :=
  if n = 0 then d else ({ d with tally := tabUpd 0 d.tally a (· + n) } : Dev).setReg a (BitVec.ofNat 32 (satAdd 32 (d.regN a) n))
/-- Addition to a 64-bit count. -/
def Dev.count64 (d : Dev) (a n : Nat) : Dev := if n = 0 then d else d.setReg64 a (d.reg64 a + n)
/-- Bytes written into consecutive register words. -/
def Dev.setRegBytes (d : Dev) (a : Nat) (b : Bytes) : Dev :=
  (List.range (ceilDiv b.length 4)).foldl (fun d i => d.setReg (a + 4 * i) (BitVec.ofNat 32 (fieldAt b (4 * i) 4))) d
/-- A field of a register. -/
def Dev.regField (d : Dev) (a hi lo : Nat) : Nat := bitsOf (d.regN a) hi lo
/-- A field of a register set. -/
def Dev.setField (d : Dev) (a hi lo v : Nat) : Dev :=
  let w := d.regN a
  d.setReg a (BitVec.ofNat 32 (w - bitsOf w hi lo * 2 ^ lo + v % 2 ^ (hi + 1 - lo) * 2 ^ lo))

/-- The next free value (Config.freeWord, notes/assumptions/1.md). -/
def Dev.draw (d : Dev) : BitVec 64 × Dev := (Config.freeWord d.freeCtr, { d with freeCtr := d.freeCtr + 1 })
/-- n free bytes. -/
def Dev.drawBytes (d : Dev) (n : Nat) : Bytes × Dev :=
  (((List.range (ceilDiv n 8)).map (fun i => natLE 8 (Config.freeWord (d.freeCtr + i)).toNat)).flatten.take n,
    { d with freeCtr := d.freeCtr + ceilDiv n 8 })

/-- Something sent out. -/
def Dev.send (d : Dev) (o : Out) : Dev := { d with out := d.out ++ [o] }
/-- The time, when a command tells a later one (DESIGN CHOICE, notes/assumptions/8.md). -/
def Dev.at (d : Dev) (t : Nat) : Dev := { d with timeUs := max d.timeUs t }

/-! ### Functions (R495) -/

/-- The function index of the PF of a port. -/
def pfOf (port : Nat) : Nat := if port = 0 then 0 else 513
/-- The port of a function. -/
def portOf (x : Nat) : Nat := if x < 513 then 0 else 1
/-- The VF number of a function, 0 for a PF. -/
def vfNum (x : Nat) : Nat := if x < 513 then x else x - 513
def isVf (x : Nat) : Bool := vfNum x != 0
/-- The function field of Table 10.6. -/
def fnCode (x : Nat) : Nat := 2 ^ 15 * portOf x + vfNum x
/-- The index of a function field. -/
def fnOfCode (c : Nat) : Nat := if bitOf c 15 then 513 + c % 1024 else c % 1024
/-- The MSI-X table size (Table 13.1). -/
def msixSize (x : Nat) : Nat := if isVf x then 64 else 2048

def Dev.fnGet (d : Dev) (x : Nat) : Fn := tabGet {} d.host.fns x
def Dev.fnUpd (d : Dev) (x : Nat) (f : Fn → Fn) : Dev := { d with host := { d.host with fns := tabUpd {} d.host.fns x f } }

/-- Word i of a function's MSI-X table; the mask bit of vector control is set at reset, as PCI Express has it
(notes/assumptions/5.md). -/
def Fn.msixWord (f : Fn) (i : Nat) : Word := tabGet (if i % 4 = 3 then 1 else 0) f.msix i

/-- Whether the device sends nothing to any host: it has stood down or been fenced (R506, R508), or it has stopped (R586). -/
def Dev.hostStopped (d : Dev) : Bool := d.twin.stopped || d.pwr.stopped.isSome

/-- The hearth clock of the mode, in MHz (R529); the thermal clamp's is that of Capped mode (R540). -/
def Dev.hearthMhz (d : Dev) : Nat := if d.pwr.mode = 6 ∨ d.pwr.clamp = true then 1200 else 1800

/-- A vector: sent, or held as a pending bit while its entry is masked (R411). -/
def Dev.vector (d : Dev) (x v : Nat) : Dev :=
  let f := d.fnGet x
  if d.hostStopped then d
  else if d.sec.ideStop.any (fun s => s.2 == x) then { d with sec := { d.sec with ideHeld := d.sec.ideHeld ++ [(x, .vector x v)] } }
  else if f.d3hot then d.fnUpd x (fun f => { f with held := f.held ++ [.vector x v] })
  else if (f.msixWord (4 * v + 3)).getLsbD 0 then d.fnUpd x (fun f => { f with pba := if f.pba.contains v then f.pba else f.pba ++ [v] })
  else d.send (.vector x v)

/-- A write to host memory: in D3hot it is held, and the first held write sends PME (R412). -/
def Dev.hostWrite (d : Dev) (x addr : Nat) (b : Bytes) : Dev :=
  let f := d.fnGet x
  if d.hostStopped then d
  else if d.sec.ideStop.any (fun s => s.2 == x) then { d with sec := { d.sec with ideHeld := d.sec.ideHeld ++ [(x, .hostWrite x addr b)] } }
  else if f.d3hot then
    let d1 := d.fnUpd x (fun f => { f with held := f.held ++ [.hostWrite x addr b], pmeSent := true })
    if f.pmeSent then d1 else d1.send (.pme x)
  else d.send (.hostWrite x addr b)

/-- A bit of FN_EVENT (R392): 0 queue_error, 1 cq_full, 2 bad_access. -/
def Dev.fnEvent (d : Dev) (x bit : Nat) (queue : Option Nat) : Dev :=
  let f := d.fnGet x
  let d1 := d.fnUpd x (fun f => { f with
    event := if bitOf f.event bit then f.event else f.event + 2 ^ bit
    eventQueue := match queue with | some q => q | none => f.eventQueue })
  if !bitOf f.event bit && !bitOf f.eventMask bit && bitOf f.eventVector 31 then d1.vector x (f.eventVector % 2048) else d1

/-! ### Delay lists and trace -/

/-- The horizon of a delay list (R322). -/
def delayHorizon : Nat := 2 ^ 20 - 1

/-- The entries of a list. -/
def Dev.delayCount (d : Dev) (l : Nat) : Nat := (d.qry.delays.filter (fun e => e.list == l && e.tried.isNone)).length

/-- Insertions that wait for room in a list enter it at the tick after the one that made room (R326): with the further ticks they waited. -/
def roomMade (l tick : Nat) (es : List Delay) : List Delay × Nat :=
  let w := (es.filter (fun e => e.list == l && e.tried.isSome)).take (4096 - (es.filter (fun e => e.list == l && e.tried.isNone)).length)
  (w.foldl List.erase es ++ w.map (fun e => { e with due := tick + 1 + e.due, tried := none }), (w.map (fun e => tick - e.tried.getD tick)).sum)

/-- One decision-trace record (Table 10.6). -/
structure TRec where
  kind : Nat
  hearth : Nat := 0xFF
  fn : Nat := 0
  stage : Nat := 0xFFFF
  flow : Nat := 0xFFFF
  query : Nat := 0
  charge : Nat := 0
  a : Nat := 0
  b : Nat := 0
  c : Nat := 0
deriving DecidableEq, Repr, Inhabited

def TRec.bytes (r : TRec) (timeNs seq : Nat) : Bytes :=
  let b := natLE 8 timeNs ++ natLE 4 seq ++ natLE 1 r.kind ++ natLE 1 r.hearth ++ natLE 2 r.fn ++ natLE 2 r.stage ++ natLE 2 r.flow ++
    zeros 4 ++ natLE 8 r.query ++ natLE 8 r.charge ++ natLE 4 r.a ++ natLE 4 r.b ++ natLE 8 r.c ++ zeros 4
  b ++ natLE 4 (crc32c b).toNat

/-- Whether a record kind is written (Table 10.9). -/
def Dev.traces (d : Dev) (kind : Nat) : Bool := bitOf (d.regN 0x02400040) 0 && bitOf (d.regN 0x02400040) (15 + kind)

/-- One record put into the ring, or dropped in stop mode when the ring is full (R330); at debug level OBSERVE or above the trace port carries it
(Table 20.7) (DESIGN CHOICE, notes/assumptions/133.md). -/
def Dev.tracePut (d : Dev) (r : TRec) : Dev × Bool :=
  let n := 2 ^ (d.regField 0x02400050 4 0) / 64
  let head := d.reg64 0x02400058
  let tail := d.reg64 0x02400060
  if !bitOf (d.regN 0x02400040) 1 && decide (n ≤ head - tail) then
    (({ d with qry := { d.qry with trace := { d.qry.trace with lost := d.qry.trace.lost + 1 } } }).bump 0x02400068 1, false)
  else
    let out := if d.sec.debug = 0 then d.out else d.out ++ [.tport (r.bytes (1000 * d.timeUs) head)]
    ((({ d with out := out, qry := { d.qry with trace := { d.qry.trace with
        recs := tabSet [] d.qry.trace.recs (head % max n 1) (r.bytes (1000 * d.timeUs) head) } } }).setReg64 0x02400058 (head + 1)), true)

/-- A decision traced (R330); the first record after a gap is preceded by a DROPS record. -/
def Dev.trace (d : Dev) (r : TRec) : Dev :=
  if !d.traces r.kind then d
  else
    let lost := d.qry.trace.lost
    let d1 := if lost ≠ 0 && d.traces 0x0E then
        let p := d.tracePut { kind := 0x0E, c := lost }
        if p.2 then { p.1 with qry := { p.1.qry with trace := { p.1.qry.trace with lost := 0 } } } else d
      else d
    (d1.tracePut r).1

/-- The current tick (R322). -/
def Dev.nowTick (d : Dev) : Nat := max d.qry.tick (d.timeUs / 10)

/-- A delay entry inserted (R322, R324), or where its list is full counted as waiting with its delay (R326). -/
def Dev.delay (d : Dev) (l ticks tag : Nat) : Dev :=
  let k := min ticks delayHorizon
  if 4096 ≤ d.delayCount l then
    let d1 := (d.bump 0x02400090 1).trace { kind := 0x0D, a := l, c := tag }
    { d1 with qry := { d1.qry with delays := d1.qry.delays ++ [⟨l, k, tag, ticks - k, some d.nowTick⟩] } }
  else { d with qry := { d.qry with delays := d.qry.delays ++ [⟨l, d.nowTick + k, tag, ticks - k, none⟩] } }

/-- The delay entries after a removal from a list: insertions that waited for it enter, and their waits are counted (R326). -/
def Dev.setDelays (d : Dev) (l : Nat) (es : List Delay) : Dev :=
  let y := roomMade l d.nowTick es
  ({ d with qry := { d.qry with delays := y.1 } } : Dev).bump 0x02400090 y.2

/-- The entry of a tag removed (R325): it never fires. -/
def Dev.undelay (d : Dev) (l tag : Nat) : Dev := d.setDelays l (d.qry.delays.filter (fun e => !(e.list == l && e.tag == tag)))

/-- Drive commands forgotten, with their time limits and re-reads. -/
def Dev.dropCmds (d : Dev) (p : DCmd → Bool) : Dev :=
  let ids := (d.store.dcmds.filter p).map (·.id)
  let keep := fun (l : Nat) (d : Dev) => d.setDelays l (d.qry.delays.filter (fun e => !(e.list == l && ids.contains e.tag)))
  keep 1 (keep 0 { d with store := { d.store with dcmds := d.store.dcmds.filter (fun c => !p c) } })

/-! ### Queue pairs -/

def qpKey (x q : Nat) : Nat := 8192 * x + q
def Dev.qp (d : Dev) (x q : Nat) : Qp := tabGet {} d.host.qps (qpKey x q)
def Dev.qpUpd (d : Dev) (x q : Nat) (f : Qp → Qp) : Dev := { d with host := { d.host with qps := tabUpd {} d.host.qps (qpKey x q) f } }
/-- Ring entries (R393): 2^sq_log2 and 2^cq_log2. -/
def Qp.sqN (p : Qp) : Nat := 2 ^ bitsOf p.cfg 4 0
def Qp.cqN (p : Qp) : Nat := 2 ^ bitsOf p.cfg 12 8
def Qp.cqVector (p : Qp) : Nat := bitsOf p.cfg 26 16
def Qp.vectorEn (p : Qp) : Bool := bitOf p.cfg 31

/-- A command of a queue by command_id. -/
def Dev.cmd (d : Dev) (x q cid : Nat) : Option Cmd := (d.qp x q).cmds.find? (fun c => c.cid == cid)
def Dev.cmdUpd (d : Dev) (x q cid : Nat) (f : Cmd → Cmd) : Dev :=
  d.qpUpd x q (fun p => { p with cmds := updWhere (fun c => c.cid == cid) f p.cmds })

/-- The 32 bytes of a completion entry at CQ tail t (Table 13.13). -/
def complBytes (p : Qp) (t : Nat) (c : Compl) : Bytes :=
  natLE 2 c.cid ++ natLE 2 c.status ++ natLE 4 p.sqHead ++ natLE 8 c.r0 ++ natLE 8 c.r1 ++ natLE 4 c.detail ++ natLE 2 c.reason ++
    natLE 2 (b2n (decide (t % (2 * p.cqN) < p.cqN)))

/-- The bytes of a frame of the twin link (Table 17.2) under a TP major and minor: header, then payload, which the specification lays out
for no type (notes/assumptions/71.md). -/
def twinBytes (major minor kind seq ack : Nat) (body : List Nat) (data : Bytes) : Bytes :=
  let p := (body.map (natLE 8)).flatten ++ data
  let head := natLE 4 0x51E97F01 ++ natLE 1 (minor + 16 * major) ++ natLE 1 kind ++ zeros 2 ++ natLE 4 p.length ++ zeros 4 ++ natLE 8 seq ++
    natLE 8 ack ++ (if p.isEmpty then zeros 4 else natLE 4 (crc32c p).toNat)
  head ++ natLE 4 (crc32c head).toNat ++ p

/-- The TP version a frame of a type carries: HELLO the sender's highest, the others the link's (Table 17.2, TWIN_TP). -/
def Dev.frameTp (d : Dev) (kind : Nat) : Nat × Nat :=
  if kind = 1 then d.mail.firmware.tp.2 else (d.regField 0x02B00008 15 8, d.twin.tpMinor)

/-- A frame as it goes on the link now. -/
def Dev.linkFrame (d : Dev) (kind seq : Nat) (body : List Nat) (data : Bytes) : Bytes :=
  let tp := d.frameTp kind
  twinBytes tp.1 tp.2 kind seq d.twin.rxNext body data

/-- A frame sent to the partner (R499): it waits for its acknowledgement, on a lane group that is up; OWNERSHIP goes only from TP 1.2 on
(Table 17.8). -/
def Dev.twinFrame (d : Dev) (kind : Nat) (body : List Nat) (data : Bytes) (act : TAct) : Dev :=
  let n := d.twin.txSeq
  let f : TTx := { seq := n, kind := kind, body := body, data := data, act := act, sent := d.timeUs, lane := if d.twin.up0 then 0 else 1 }
  if kind = 13 ∧ d.twin.tpMinor < 2 then d
  else (({ d with twin := { d.twin with txSeq := n + 1, unacked := d.twin.unacked ++ [f] } } : Dev).delay 4 5 n).send (.twin (d.linkFrame kind n body data))

/-- A frame for the partner while paired (Table 17.3); a twin that runs alone mirrors nothing. -/
def Dev.twinSend (d : Dev) (kind : Nat) (body : List Nat) (data : Bytes) (act : TAct := .none) : Dev :=
  if d.twin.alone then d else d.twinFrame kind body data act

/-- A completion made ready (R408, R410): while paired its entry is mirrored first (R501). -/
def Dev.readyCompl (d : Dev) (x q idx : Nat) (c : Compl) : Dev :=
  let p := d.qp x q
  let t := p.cqTail + p.ready.length
  let e := complBytes p t c
  let k : Compl := if d.twin.alone then c else { c with entry := some e, acked := false }
  (d.qpUpd x q (fun p => { p with ready := p.ready ++ [k] })).twinSend 9 [fnCode x, q, t % (2 * p.cqN), idx] e (.compl x q c.cid)

/-- A command leaves its queue and its completion is ready. -/
def Dev.retire (d : Dev) (x q cid : Nat) (c : Compl) : Dev :=
  match d.cmd x q cid with
  | some k => (d.qpUpd x q (fun p => { p with cmds := p.cmds.filter (fun k => k.cid != cid) })).readyCompl x q k.idx { c with cid := cid }
  | none => d

/-- The queue pairs of a function, by queue number. -/
def Dev.qpsOf (d : Dev) (x : Nat) : List (Nat × Qp) := (d.host.qps.filter (fun p => p.1 / 8192 == x)).map (fun p => (p.1 % 8192, p.2))

/-- FLUSH commands of a function that have nothing left to wait for complete (R415). -/
def Dev.flushes (d : Dev) (x : Nat) : Dev :=
  let qs := d.qpsOf x
  let open_ := fun (q seq : Nat) (all : Bool) => qs.any (fun p => (all || p.1 == q) && p.2.cmds.any (fun c => c.commits && decide (c.seq < seq)))
  qs.foldl (fun d p => p.2.cmds.foldl (fun d c =>
    if p.2.state != .resetting && c.op == 0x04 && c.started && !open_ p.1 c.seq (fieldAt c.entry 0x20 1 == 1) then d.retire x p.1 c.cid {} else d) d) d

/-- A command completes (R408, R410). -/
def Dev.complete (d : Dev) (x q cid : Nat) (c : Compl) : Dev := (d.retire x q cid c).flushes x

/-- A command completes with a status and no results. -/
def Dev.failCmd (d : Dev) (x q cid status : Nat) : Dev := d.complete x q cid { status := status }

/-- A queue enters ERROR (R398). -/
def Dev.queueError (d : Dev) (x q reason index : Nat) : Dev :=
  (d.qpUpd x q (fun p => { p with state := .error, reason := reason, errIndex := index })).fnEvent x 0 (some q)

/-- A read of host memory issued. -/
def Dev.hostRead (d : Dev) (x q cid : Nat) (use : ReadFor) (addr len : Nat) : Dev :=
  let t := d.host.nextTag
  ({ d with host := { d.host with reads := d.host.reads ++ [(⟨t, x, q, cid, use, addr, len⟩ : HRead)], nextTag := t + 1 } }).send (.hostRead t x addr len)

/-! ### Mailboxes and events (R451, R465) -/

def Dev.mbox (d : Dev) (x : Nat) : Mbox := tabGet {} d.mail.boxes x
def Dev.mboxUpd (d : Dev) (x : Nat) (f : Mbox → Mbox) : Dev := { d with mail := { d.mail with boxes := tabUpd {} d.mail.boxes x f } }
/-- The mailbox's vector, sent when it is enabled (R451). -/
def Dev.mboxVector (d : Dev) (x : Nat) : Dev := let v := (d.mbox x).vector; if bitOf v 31 then d.vector x (v % 2048) else d

/-- The time field of an event record (Table 15.11). -/
def Dev.eventTime (d : Dev) : Nat := d.opSec % 2 ^ 40 + d.cycles % 2 ^ 24 * 2 ^ 40

/-- An event for a function (R465): a full queue loses its oldest; the vector goes when the queue stops being empty. -/
def Dev.event (d : Dev) (x code object data : Nat) : Dev :=
  let m := d.mbox x
  let e : Event := ⟨code, object, data, d.eventTime⟩
  let d1 := d.mboxUpd x (fun m =>
    if 64 ≤ m.events.length then { m with events := m.events.drop 1 ++ [e], lost := m.lost + 1 } else { m with events := m.events ++ [e] })
  if m.events.isEmpty then d1.mboxVector x else d1
/-- A device event, for PF0 and PF1. -/
def Dev.eventPf (d : Dev) (code object data : Nat) : Dev := (d.event 0 code object data).event 513 code object data

/-! ### Recovery domains (R585, R597, R598) -/

/-- Counts of the REPAIR record (Table 21.9, kind 7): 0 quenches, 1 wide fences, 2 column repairs, 3 way fences, 4 slice fences, 5 unit
fences, 6 row repairs, 7 frames retired, 8 member failures, 9 rebuilds completed, 10 escalations, 11 failovers declared. -/
def Dev.countRepair (d : Dev) (i : Nat) : Dev :=
  { d with rcd := { d.rcd with acc := { d.rcd.acc with repairs := tabUpd 0 d.rcd.acc.repairs i (· + 1) } } }

/-- Whether a recovery runs in a domain (DEDUCED, notes/assumptions/124.md). -/
def Dev.recovers (d : Dev) (code unit : Nat) : Bool := d.health.recovering.contains (code, unit)
/-- A recovery begins. -/
def Dev.recover (d : Dev) (code unit : Nat) : Dev :=
  if d.recovers code unit then d else { d with health := { d.health with recovering := d.health.recovering ++ [(code, unit)] } }
/-- A recovery ends. -/
def Dev.recovered (d : Dev) (code unit : Nat) : Dev :=
  { d with health := { d.health with recovering := d.health.recovering.filter (· != (code, unit)) } }
/-- A fault in a domain that is already recovering (R598). -/
def Dev.escalate (d : Dev) (code unit : Nat) : Dev := ((d.bump 0x02F0001C 1).countRepair 10).eventPf 0x0164 code unit
/-- A repair record written (R592). -/
def Dev.repairWritten (d : Dev) : Dev := { d with health := { d.health with repairSeq := d.health.repairSeq + 1 } }

end Sys2Proof.Machine
end

