-- ==== Sys2Proof/Machine/Mem.lean ====
section
/-!
DEFINITION. Sys2Proof/Machine/Mem.lean: frames, regions and translation (R358 to R363), DRAM banks and their errors (R366 to R371), and
the system cache (R380 to R387).
-/
namespace Sys2Proof.Machine

/-- A 2 MiB frame (R358). -/
def frameBytes : Nat := 2097152

def Dev.memUnit (d : Dev) (u : Nat) : MemUnit := tabGet {} d.mem.units u
def Dev.memUnitUpd (d : Dev) (u : Nat) (f : MemUnit → MemUnit) : Dev := { d with mem := { d.mem with units := tabUpd {} d.mem.units u f } }
/-- The tier of a unit and its number within the tier. -/
def tierOf (u : Nat) : Nat := u / 4
/-- Lines (128 B) and frames of a unit, its capacity being in units of 10^9 bytes (R9). -/
def MemUnit.lines (m : MemUnit) : Nat := m.gb * 7812500
def MemUnit.frames (m : MemUnit) : Nat := m.gb * 1000000000 / frameBytes
/-- Units of a tier that are up and take frames. -/
def Dev.usableUnits (d : Dev) (tier : Nat) : List Nat :=
  ((List.range 4).map (fun k => 4 * tier + k)).filter (fun u => (d.memUnit u).state == 2 && !(d.memUnit u).leaving)

/-- Frames of a unit that are backed. -/
def Dev.backed (d : Dev) (u : Nat) : List Nat := (d.mem.entries.filter (fun e => 4 * e.tier + e.unit == u)).map (·.frame)
/-- A zeroed free frame of a unit: the lowest (notes/assumptions/60.md). -/
def Dev.freeFrame (d : Dev) (u : Nat) : Option Nat :=
  let m := d.memUnit u
  let used := d.backed u
  (List.range m.frames).find? (fun f => !used.contains f && !m.dirty.contains f && !m.retired.contains f)
/-- Zeroed free frames of a tier (MEM_FREE_HBM, MEM_FREE_DDR). -/
def Dev.freeFrames (d : Dev) (tier : Nat) : Nat :=
  ((d.usableUnits tier).map (fun u => let m := d.memUnit u; m.frames - (d.backed u).length - m.dirty.length - m.retired.length)).sum

/-! ### Device memory -/

/-- The key of a byte: unit and offset (DESIGN CHOICE, notes/assumptions/65.md). -/
def memKey (u off : Nat) : Nat := 2 ^ 40 * u + off
/-- A range of device memory reads as zeros. -/
def Dev.memZero (d : Dev) (u off n : Nat) : Dev :=
  let k := memKey u off
  { d with mem := { d.mem with bytes := d.mem.bytes.filter (fun p => !(decide (k ≤ p.1) && decide (p.1 < k + n))) } }
def Dev.memRead (d : Dev) (u off n : Nat) : Bytes := tabBytes d.mem.bytes (memKey u off) n
def Dev.memWrite (d : Dev) (u off : Nat) (b : Bytes) : Dev := { d with mem := { d.mem with bytes := tabSetBytes d.mem.bytes (memKey u off) b } }

/-! ### The system cache: placement and replacement (R381, R384, R385) -/

/-- The number of a line: the `a` of R381. -/
def lineNo (u off : Nat) : Nat := (2 ^ 42 * (u / 4) + 2 ^ 40 * (u % 4) + off) / 128
/-- The unit and offset of a line. -/
def lineUnit (a : Nat) : Nat := 4 * (a / 2 ^ 35) + a / 2 ^ 33 % 4
def lineOff (a : Nat) : Nat := a % 2 ^ 33 * 128

/-- The slice and set of a line (R381). -/
def Dev.placeLine (d : Dev) (a : Nat) : Nat × Nat :=
  let x := BitVec.ofNat 64 a
  let f := ((x ^^^ (x >>> 16) ^^^ (x >>> 32)).toNat) % 65536
  (d.mem.slices.getD (f * d.mem.slices.length / 65536) 0, ((x ^^^ (x >>> 11) ^^^ (x >>> 22)).toNat) % 2048)

def Dev.cset (d : Dev) (sl st : Nat) : CSet := tabGet {} d.mem.sets (2048 * sl + st)
def Dev.csetUpd (d : Dev) (sl st : Nat) (f : CSet → CSet) : Dev := { d with mem := { d.mem with sets := tabUpd {} d.mem.sets (2048 * sl + st) f } }
def CSet.way (s : CSet) (w : Nat) : Option CLine := tabGet none s.ways w
def CSet.find (s : CSet) (a : Nat) : Option Nat := (List.range 16).find? (fun w => match s.way w with | some l => l.line == a | none => false)
def Dev.victims (d : Dev) (sl : Nat) : List CLine := tabGet [] d.mem.victims sl
def Dev.setVictims (d : Dev) (sl : Nat) (l : List CLine) : Dev := { d with mem := { d.mem with victims := tabSet [] d.mem.victims sl l } }

/-- The ways a line of a frame with a lock field may take in a slice (R385, R387). -/
def Dev.permitted (d : Dev) (sl lock : Nat) : List Nat :=
  let fence := tabGet 0 d.mem.fenced sl
  let lockedBy := fun (e w : Nat) => let k := tabGet {} d.mem.locks e; k.valid && decide (8 ≤ w) && bitOf k.ways (w - 8)
  (List.range 16).filter (fun w => !bitOf fence w && (if lock = 0 then !(List.range 8).any (fun e => lockedBy e w) else lockedBy (lock - 1) w))

/-- The way the tree names among those permitted: a node's bit set means its upper half is the older. Node n of level l stands at
2^l - 1 + n; `lo` and `n` are the ways under it. -/
def plruPick (tree : Nat) (ok : List Nat) : Nat → Nat → Nat → Nat → Nat
  | 0, _, lo, _ => lo
  | k + 1, node, lo, n =>
    let h := n / 2
    let low := ok.any (fun w => decide (lo ≤ w) && decide (w < lo + h))
    let high := ok.any (fun w => decide (lo + h ≤ w) && decide (w < lo + n))
    if high && (bitOf tree node || !low) then plruPick tree ok k (2 * node + 2) (lo + h) h else plruPick tree ok k (2 * node + 1) lo h

/-- The tree after a use of a way: every node on its path points away from it. -/
def plruUse (w : Nat) : Nat → Nat → Nat → Nat → Nat → Nat
  | 0, _, _, _, tree => tree
  | k + 1, node, lo, n, tree =>
    let h := n / 2
    let up := decide (lo + h ≤ w)
    let t := tree - b2n (bitOf tree node) * 2 ^ node + b2n (!up) * 2 ^ node
    if up then plruUse w k (2 * node + 2) (lo + h) h t else plruUse w k (2 * node + 1) lo h t

def CSet.use (s : CSet) (w : Nat) : CSet := { s with tree := plruUse w 4 0 0 16 s.tree }
/-- The way a line goes to: a permitted way that is empty, else the tree's (notes/assumptions/61.md). -/
def CSet.pick (s : CSet) (ok : List Nat) : Option Nat :=
  match ok.find? (fun w => (s.way w).isNone) with
  | some w => some w
  | none => if ok.isEmpty then none else some (plruPick s.tree ok 4 0 0 16)

/-- A line installed by replacement; the line it displaces enters the victim buffer (R384). -/
def Dev.install (d : Dev) (a lock : Nat) (b : Bytes) : Dev :=
  let (sl, st) := d.placeLine a
  match (d.cset sl st).pick (d.permitted sl lock) with
  | none => d
  | some w =>
    let old := (d.cset sl st).way w
    let d1 := d.csetUpd sl st (fun s => { (s.use w) with ways := tabSet none s.ways w (some { line := a, data := b }) })
    match old with
    | some l => d1.setVictims sl ((l :: d1.victims sl).take 8)
    | none => d1

/-- Lines dropped from the ways, and marked stale in the victim buffers (R384, R386). -/
def Dev.dropLines (d : Dev) (p : Nat → Bool) : Dev :=
  { d with mem := { d.mem with
    sets := (d.mem.sets.map (fun k => (k.1, { k.2 with ways := k.2.ways.filter (fun w => match w.2 with | some l => !p l.line | none => false) }))).filter (fun k => k.2 != {})
    victims := d.mem.victims.map (fun v => (v.1, v.2.map (fun l => if p l.line then { l with stale := true } else l))) } }

/-- Whether a line lies in a range of a unit. -/
def lineIn (u off n a : Nat) : Bool := lineUnit a == u && decide (off < lineOff a + 128) && decide (lineOff a < off + n)

/-! ### Frames and regions (R359, R360, R363) -/

/-- The frame quota of a context's function in a tier (Table 16.2), and the frames it has backed there (DEDUCED, notes/assumptions/66.md). -/
def Dev.frameQuota (d : Dev) (ctx tier : Nat) : Nat :=
  let sh : Share := tabGet {} d.fn.shares (fnOfCode (ctx - 1))
  if tier = 0 then sh.hbm else sh.ddr
def Dev.framesUsed (d : Dev) (ctx tier : Nat) : Nat := (d.mem.entries.filter (fun e => e.ctx == ctx && e.tier == tier)).length

/-- A region opened: its pages follow the context's last region (notes/assumptions/60.md). -/
def Dev.openRegion (d : Dev) (ctx tier pages lock : Nat) (use : RegionFor) : Dev :=
  let base := ((d.mem.regions.filter (fun r => r.ctx == ctx)).map (fun r => r.page + r.pages)).foldl max 1
  let r : Region := ⟨ctx, d.mem.nextRegion, tier, base, pages, use, lock, if ctx = 0 then 0xFFFFFFFF else d.frameQuota ctx tier⟩
  { d with mem := { d.mem with regions := d.mem.regions ++ [r], nextRegion := d.mem.nextRegion + 1 } }

/-- The regions of a use released: their frames wait for zeroing (R359, R360). -/
def Dev.closeRegions (d : Dev) (use : RegionFor) : Dev :=
  let rs := d.mem.regions.filter (fun r => r.use == use)
  let mine := fun (e : XlEntry) => rs.any (fun r => r.ctx == e.ctx && decide (r.page ≤ e.page) && decide (e.page < r.page + r.pages))
  let gone := d.mem.entries.filter mine
  let d1 : Dev := { d with mem := { d.mem with regions := d.mem.regions.filter (fun r => !(r.use == use)), entries := d.mem.entries.filter (fun e => !mine e) } }
  gone.foldl (fun d e => d.memUnitUpd (4 * e.tier + e.unit) (fun m => { m with dirty := m.dirty ++ [e.frame] })) d1

/-- The context of a function (Table 12.9: 0 device, else its code plus 1). -/
def ctxOf (x : Nat) : Nat := fnCode x + 1

/-- The region a DVA page lies in. -/
def Dev.regionAt (d : Dev) (ctx page : Nat) : Option Region :=
  d.mem.regions.find? (fun r => r.ctx == ctx && decide (r.page ≤ page) && decide (page < r.page + r.pages))
def Dev.xlEntry (d : Dev) (ctx page : Nat) : Option XlEntry := d.mem.entries.find? (fun e => e.ctx == ctx && e.page == page)

/-- A translation fault counted and shown (Table 12.9). -/
def Dev.xltFault (d : Dev) (ctx dva cond : Nat) : Dev :=
  (d.bump 0x02610010 1).setRegBytes 0x02610018 (natLE 2 ctx ++ zeros 2 ++ natLE 4 cond ++ natLE 8 dva)

/-- A frame backed into a region on first touch: units in turn from the region's own (R359), the next with a free
frame; a function at its quota gets none (R484, R487). -/
def Dev.backFrame (d : Dev) (r : Region) (page : Nat) : Option Dev :=
  let us := d.usableUnits r.tier
  let n := max 1 us.length
  let k := (d.mem.entries.filter (fun e => e.ctx == r.ctx && decide (r.page ≤ e.page) && decide (e.page < r.page + r.pages))).length
  let full := r.ctx != 0 && decide (max r.cap (d.frameQuota r.ctx r.tier) ≤ d.framesUsed r.ctx r.tier)
  let order := if full then [] else (List.range us.length).map (fun i => us.getD ((r.num + k + i) % n) 0)
  (order.findSome? (fun u => (d.freeFrame u).map (fun f => (u, f)))).map (fun p =>
    { d with mem := { d.mem with entries := d.mem.entries ++ [{ ctx := r.ctx, page := page, tier := r.tier, unit := p.1 % 4, frame := p.2, lock := r.lock }] } })

/-- The outcome of a translation (Table 12.3): the entry, or the condition that stops the access: 2 no zeroed frame, 4 no region or not
writable. -/
inductive Xlt where
  | ok (e : XlEntry) (off : Nat)
  | stop (cond : Nat) (use : Option RegionFor)
deriving DecidableEq, Repr, Inhabited

def Dev.translate (d : Dev) (ctx dva : Nat) (write : Bool) : Xlt × Dev :=
  let page := dva / frameBytes
  let go := fun (e : XlEntry) (d : Dev) =>
    if write && !e.writable then (Xlt.stop 4 none, d.xltFault ctx dva 4) else (Xlt.ok e (e.frame * frameBytes + dva % frameBytes), d)
  match d.xlEntry ctx page with
  | some e => go e d
  | none =>
    match d.regionAt ctx page with
    | none => (.stop 4 none, d.xltFault ctx dva 4)
    | some r =>
      match d.backFrame r page with
      | none => (.stop 2 (some r.use), d.xltFault ctx dva 2)
      | some d1 => (match d1.xlEntry ctx page with | some e => go e (d1.xltFault ctx dva 1) | none => (.stop 4 none, d))

/-- A freed frame zeroed and returned to the pool (R360, R383). -/
def Dev.zeroFrame (d : Dev) (u f : Nat) : Dev :=
  if (d.memUnit u).dirty.contains f then
    ((d.memZero u (f * frameBytes) frameBytes).dropLines (lineIn u (f * frameBytes) frameBytes)).memUnitUpd u (fun m => { m with dirty := m.dirty.filter (· != f) })
  else d

/-- A frame moved to another unit (R363), or left where it is when that unit has no zeroed frame: within one command, so that no access meets
a frame that is moving (Table 12.3, condition 3; DEDUCED, notes/assumptions/175.md). -/
def Dev.moveFrame (d : Dev) (u f dest : Nat) : Dev :=
  match d.mem.entries.find? (fun e => 4 * e.tier + e.unit == u && e.frame == f), d.freeFrame dest with
  | some e, some g =>
    let k := memKey u (f * frameBytes)
    let moved := (d.mem.bytes.filter (fun p => decide (k ≤ p.1) && decide (p.1 < k + frameBytes))).map (fun p => (p.1 - k, p.2))
    let d1 := moved.foldl (fun (d : Dev) p => d.memWrite dest (g * frameBytes + p.1) [p.2]) d
    let d2 := (d1.memZero u (f * frameBytes) frameBytes).dropLines (lineIn u (f * frameBytes) frameBytes)
    let d3 : Dev := { d2 with mem := { d2.mem with
      entries := updWhere (fun k => k.ctx == e.ctx && k.page == e.page) (fun k => { k with tier := dest / 4, unit := dest % 4, frame := g }) d2.mem.entries } }
    d3.bump 0x02610014 1
  | _, _ => d

/-! ### Addresses within a unit (R366) -/

/-- The place of a line in DRAM: sub-unit, column, bank, bank group, rank, row. -/
structure DAddr where
  u : Nat
  col : Nat
  ba : Nat
  bg : Nat
  rk : Nat
  row : Nat
deriving DecidableEq, Repr, Inhabited

/-- Field widths of a unit (Table 12.5). -/
def MemUnit.widths (m : MemUnit) (tier : Nat) : Nat × Nat × Nat × Nat × Nat :=
  if tier = 0 then (5, 3, 2, 2, m.rk) else (2, (if m.x4 then 6 else 5), 2, 3, m.rk)

/-- The hash of orders 2 and 3, which is its own inverse (Table 12.6). -/
def DAddr.hash (a : DAddr) (order b u : Nat) : DAddr :=
  let x := fun (p q w : Nat) => (BitVec.ofNat 64 p ^^^ BitVec.ofNat 64 (q % 2 ^ w)).toNat
  let a1 := if 2 ≤ order then { a with bg := x a.bg a.row b } else a
  if order = 3 then { a1 with u := x a.u (a.row / 2 ^ b) u } else a1

/-- A line of a unit decoded. -/
def MemUnit.decode (m : MemUnit) (tier order line : Nat) : DAddr :=
  let (wu, wc, wa, wg, wr) := m.widths tier
  let u := line % 2 ^ wu
  let x := line / 2 ^ wu
  let a : DAddr := if order = 1 then
      { u := u, ba := x % 2 ^ wa, bg := x / 2 ^ wa % 2 ^ wg, col := x / 2 ^ (wa + wg) % 2 ^ wc, rk := x / 2 ^ (wa + wg + wc) % 2 ^ wr, row := x / 2 ^ (wa + wg + wc + wr) }
    else { u := u, col := x % 2 ^ wc, ba := x / 2 ^ wc % 2 ^ wa, bg := x / 2 ^ (wc + wa) % 2 ^ wg, rk := x / 2 ^ (wa + wg + wc) % 2 ^ wr, row := x / 2 ^ (wa + wg + wc + wr) }
  a.hash order wg wu

/-- The line of an address. -/
def MemUnit.compose (m : MemUnit) (tier order : Nat) (a0 : DAddr) : Nat :=
  let (wu, wc, wa, wg, wr) := m.widths tier
  let a := a0.hash order wg wu
  let top := 2 ^ (wa + wg + wc) * (a.rk + 2 ^ wr * a.row)
  a.u + 2 ^ wu * (top + (if order = 1 then a.ba + 2 ^ wa * (a.bg + 2 ^ wg * a.col) else a.col + 2 ^ wc * (a.ba + 2 ^ wa * a.bg)))

def Dev.orderOf (d : Dev) (tier : Nat) : Nat := if tier = 0 then d.mem.hbmOrder else d.mem.ddrOrder
def Dev.decodeLine (d : Dev) (u off : Nat) : DAddr := (d.memUnit u).decode (tierOf u) (d.orderOf (tierOf u)) (off / 128)

/-- A bank of a unit as a number, and rows of a bank. -/
def bankNo (u : Nat) (a : DAddr) : Nat := u * 2 ^ 16 + a.u * 2 ^ 8 + a.rk * 2 ^ 6 + a.bg * 4 + a.ba
def MemUnit.rows (m : MemUnit) (tier : Nat) : Nat := let (wu, wc, wa, wg, wr) := m.widths tier; ceilDiv m.lines (2 ^ (wu + wc + wa + wg + wr))

/-- The controller registers of a line: a stack's, or those of the pair's channel (R372). -/
def memRegs (u : Nat) (a : DAddr) : Nat := if u < 4 then 0x02600000 + 0x1000 * u else 0x02608000 + 0x1000 * (2 * (u - 4) + a.u / 2)

/-- The frames that hold lines of a row. -/
def Dev.rowFrames (d : Dev) (u off : Nat) : List Nat :=
  let m := d.memUnit u
  let a := d.decodeLine u off
  ((List.range (2 ^ (m.widths (tierOf u)).2.1)).map (fun c => m.compose (tierOf u) (d.orderOf (tierOf u)) { a with col := c } * 128 / frameBytes)).eraseDups

/-! ### Banks (R367, R368) -/

def Dev.bank (d : Dev) (k : Nat) : DBank := tabGet {} d.mem.banks k
def Dev.bankUpd (d : Dev) (k : Nat) (f : DBank → DBank) : Dev := { d with mem := { d.mem with banks := tabUpd {} d.mem.banks k f } }

/-- The table of a bank after an activate, and the count the row then has (R368). -/
def actStep (t : List (Nat × Nat)) (r : Nat) : List (Nat × Nat) × Nat :=
  match t.find? (fun e => e.1 == r) with
  | some e => (updWhere (fun e => e.1 == r) (fun e => (e.1, e.2 + 1)) t, e.2 + 1)
  | none =>
    if t.length < 64 then (t ++ [(r, 1)], 1)
    else
      let least := (t.map (·.2)).foldl min (t.headD (0, 0)).2
      let i := t.findIdx (fun e => e.2 == least)
      (t.set i (r, least + 1), least + 1)

/-- An activate: the table, and the neighbour refreshes it calls for, which are activates themselves; `fuel` bounds their chain. -/
def Dev.activate (d : Dev) (base rows k : Nat) : Nat → Nat → Dev
  | 0, _ => d
  | fuel + 1, r =>
    let s := actStep (d.bank k).acts r
    let d1 := d.bankUpd k (fun b => { b with acts := s.1 })
    if s.2 < d.regField (base + 8) 13 0 then d1
    else
      let near := if bitOf (d.regN (base + 8)) 14 then [1, 2] else [1]
      let rs := ((near.map (fun n => (if n ≤ r then [r - n] else []) ++ (if r + n < rows then [r + n] else []))).flatten)
      let d2 := rs.foldl (fun d q => (Dev.activate d base rows k fuel q).bump (base + 0x28) 1) d1
      d2.bankUpd k (fun b => { b with acts := updWhere (fun e => e.1 == r) (fun e => (e.1, 0)) b.acts })

/-- An access to DRAM: its bank's row (R367). -/
def Dev.dramAccess (d : Dev) (u off : Nat) : Dev :=
  let a := d.decodeLine u off
  let k := bankNo u a
  let base := memRegs u a
  let b := d.bank k
  let d1 := if b.row = some a.row then d.bankUpd k (fun b => { b with hits := b.hits + 1, last := d.timeUs })
    else (d.activate base ((d.memUnit u).rows (tierOf u)) k 65 a.row).bankUpd k (fun b => { b with row := some a.row, hits := 0, last := d.timeUs })
  if d.regField (base + 4) 11 0 = 0 then d1.bankUpd k (fun b => { b with row := none }) else d1

/-- The lines of a unit from one on read, as the patrol scrub reads them. -/
def Dev.readOver (d : Dev) (u first n : Nat) : Dev := (List.range n).foldl (fun d i => d.dramAccess u ((first + i) % (d.memUnit u).lines * 128)) d

/-- The domain of a stack or of a DDR5 channel switched (Table 18.2): the controller that enters self-refresh closes its rows (R367), one that
leaves it clears its activate tables (R368), and one without power has neither. -/
def Dev.dramDomain (d : Dev) (n st : Nat) : Dev :=
  let u := if n < 40 then n - 36 else 4 + (n - 40) / 2
  let mine := fun (k : Nat) => k / 2 ^ 16 == u && (n < 40 || k / 2 ^ 9 % 2 ^ 7 == n % 2)
  let asleep := tabGet 0 d.pwr.domains n == 1
  let next := fun (b : DBank) => if st = 0 then {} else if st = 1 then { b with row := none, hits := 0 } else if asleep then { b with acts := [] } else b
  let d1 := d.memUnitUpd u (fun m => { m with selfRefresh := st == 1 })
  { d1 with
    pwr := { d1.pwr with domains := tabSet 0 d1.pwr.domains n st }
    mem := { d1.mem with banks := (d1.mem.banks.map (fun b => if mine b.1 then (b.1, next b.2) else b)).filter (fun b => b.2 != {}) } }

/-- The domains of a memory unit (Table 18.2). -/
def unitDomains (u : Nat) : List Nat := if u < 4 then [36 + u] else [40 + 2 * (u - 4), 41 + 2 * (u - 4)]

/-! ### DRAM errors and repair (R369) -/

/-- An error shown in MEM_ERR_LAST (Table 12.8). -/
def Dev.errLast (d : Dev) (base off syn kind : Nat) : Dev :=
  d.setRegBytes (base + 0x40) (natLE 8 off ++ natLE 2 syn ++ natLE 1 kind ++ zeros 1 ++ natLE 4 d.opSec)

def Dev.dueRepair (d : Dev) (u off : Nat) : Dev :=
  (if d.mem.due.contains (u, off) then d else { d with mem := { d.mem with due := d.mem.due ++ [(u, off)] } }).recover 2 u

/-- Frames of a unit moved to other units that have room (R363). -/
def Dev.clearUnit (d : Dev) (u : Nat) : Dev :=
  (d.backed u).foldl (fun (d : Dev) f =>
    match ((d.usableUnits (tierOf u)).filter (· != u)).find? (fun t => (d.freeFrame t).isSome) with
    | some t => d.moveFrame u f t
    | none => d) d

/-- A memory unit fenced (R365, R591, Table 21.6): the frames that can be read move, and the unit is left unpowered. -/
def Dev.fenceUnit (d : Dev) (u : Nat) : Dev :=
  let d0 := ((d.memUnitUpd u (fun m => { m with leaving := true })).clearUnit u).memUnitUpd u (fun m => { m with state := 3, leaving := false })
  let d1 := (unitDomains u).foldl (fun (d : Dev) n => d.dramDomain n 0) d0
  let d2 : Dev := { d1 with
    mem := { d1.mem with due := d1.mem.due.filter (fun p => p.1 != u) }
    health := { d1.health with unitsFenced := (d1.health.unitsFenced ++ [u]).eraseDups } }
  (((d2.recovered 2 u).countRepair 5).repairWritten).eventPf 0x0161 (2 ^ 24 * (if u < 4 then 5 else 6) + u % 4) 0

/-- A correctable DRAM error (Table 12.7): the corrected data is written back; `stuck` when that does not clear it. -/
def Dev.dramCe (d : Dev) (u off syn : Nat) (stuck : Bool) : Dev :=
  let a := d.decodeLine u off
  let base := memRegs u a
  let k := bankNo u a
  let d1 := ((d.bump (base + 0x20) 1).errLast base off syn 1).dramAccess u off
  let errs := (d.mem.errs.filter (fun e => decide (d.opSec < e.at_ + 86400))) ++ [⟨u, k, a.row, a.col, d.opSec⟩]
  let d2 : Dev := { d1 with mem := { d1.mem with errs := errs } }
  let cols := (((errs.filter (fun e => e.unit == u && e.bank == k && e.row == a.row)).map (·.col)).eraseDups).length
  if stuck || decide (3 ≤ cols) then d2.dueRepair u off else d2

/-- An uncorrectable DRAM error. -/
def Dev.dramUe (d : Dev) (u off syn : Nat) : Dev :=
  let base := memRegs u (d.decodeLine u off)
  let d1 := (d.bump (base + 0x24) 1).errLast base off syn 2
  if d.recovers 2 u then (d1.escalate 2 u).fenceUnit u else d1.dueRepair u off

/-- The frames of a row moved to frames outside it (R369, step 1). -/
def Dev.clearRow (d : Dev) (u : Nat) (fs : List Nat) : Dev :=
  let was := (d.memUnit u).retired
  let used := d.backed u
  ((fs.filter used.contains).foldl (fun (d : Dev) f =>
    let us := d.usableUnits (tierOf u)
    match ((us.filter (· != u)) ++ (us.filter (· == u))).find? (fun t => (d.freeFrame t).isSome) with
    | some t => d.moveFrame u f t
    | none => d) (d.memUnitUpd u (fun m => { m with retired := m.retired ++ fs }))).memUnitUpd u (fun m => { m with retired := was })

/-- A row repair that is due: its frames move, then hard repair, or their retirement (R369); it stays due while a frame has nowhere to go. -/
def Dev.rowRepair (d : Dev) (u off : Nat) (resource : Bool) : Dev :=
  let fs := d.rowFrames u off
  let d1 := d.clearRow u fs
  if !d.mem.due.contains (u, off) then d
  else if fs.any (d1.backed u).contains then d1
  else
    let d2 := d1.memUnitUpd u (fun m =>
      if resource then { m with repaired := m.repaired + 1, left := if m.left = 0xFFFF then m.left else m.left - 1 }
      else { m with retired := m.retired ++ fs.filter (fun f => !m.retired.contains f), dirty := m.dirty.filter (fun f => !fs.contains f) })
    let d3 : Dev := { d2 with mem := { d2.mem with due := d2.mem.due.filter (· != (u, off)) } }
    let d4 := if d3.mem.due.any (fun p => p.1 == u) then d3 else d3.recovered 2 u
    if resource then d4.countRepair 6
    else
      let n := (d2.memUnit u).retired.length - (d1.memUnit u).retired.length
      let d5 := (List.range n).foldl (fun d _ => d.countRepair 7) d4.repairWritten
      if 4096 < ((List.range 8).map (fun k => (d5.memUnit k).retired.length)).sum then d5.fenceUnit u else d5

/-! ### Cache requests (R382 to R387) -/

/-- An error in a way of a slice counted; the fourth in 24 h fences the way (R387). -/
def Dev.wayError (d : Dev) (sl w : Nat) : Dev :=
  let l := ((tabGet [] d.mem.wayErrs (16 * sl + w)).filter (fun t => decide (d.opSec < t + 86400))) ++ [d.opSec]
  let d1 : Dev := { d with mem := { d.mem with wayErrs := tabSet [] d.mem.wayErrs (16 * sl + w) l } }
  let f := tabGet 0 d.mem.fenced sl
  if l.length < 4 || bitOf f w then d1
  else
    let g := f + 2 ^ w
    let d2 : Dev := { d1 with mem := { d1.mem with
      fenced := tabSet 0 d1.mem.fenced sl g
      sets := (d1.mem.sets.map (fun k => if k.1 / 2048 = sl then (k.1, { k.2 with ways := tabErase k.2.ways w }) else k)).filter (fun k => k.2 != {}) } }
    (((d2.setReg (0x02700100 + 4 * sl) (BitVec.ofNat 32 g)).countRepair 3).repairWritten).eventPf 0x0161 (2 * 2 ^ 24 + sl) w

/-- A line read from memory (a miss): allocated unless the frame says not, poisoned where the error cannot be corrected (Table 12.7). -/
def Dev.missLine (d : Dev) (a lock : Nat) (noAlloc : Bool) (err : MemErr) : Dev × Bytes :=
  let u := lineUnit a
  let off := lineOff a
  let d1 := (d.count64 0x02700010 1).dramAccess u off
  let d2 := match err with | .dramCe s k => d1.dramCe u off s k | .dramUe s => d1.dramUe u off s | _ => d1
  let b := d.memRead u off 128
  match err with
  | .dramUe _ => ({ d2 with mem := { d2.mem with poison := true } }, b)
  | _ => (if noAlloc then d2 else d2.install a lock b, b)

/-- A way without its line. -/
def Dev.emptyWay (d : Dev) (sl st w : Nat) : Dev := d.csetUpd sl st (fun s => { s with ways := tabErase s.ways w })

/-- A read of a line (R382, R384, R387). -/
def Dev.readLine (d : Dev) (a lock : Nat) (noAlloc : Bool) (err : MemErr) : Dev × Bytes :=
  let (sl, st) := d.placeLine a
  let d0 := match err with
    | .tag w => ((d.emptyWay sl st w).bump 0x02700024 1).wayError sl w
    | _ => d
  match (d0.cset sl st).find a with
  | some w =>
    let mem := d0.memRead (lineUnit a) (lineOff a) 128
    (match err with
      | .dataCe => (((d0.csetUpd sl st (fun s => { (s.use w) with ways := tabSet none s.ways w (some { line := a, data := mem }) })).bump 0x0270001C 1).count64 0x02700008 1
          |>.dramAccess (lineUnit a) (lineOff a) |>.wayError sl w, mem)
      | .dataUe => (((d0.emptyWay sl st w).bump 0x02700020 1).wayError sl w).missLine a lock noAlloc .none
      | _ => ((d0.csetUpd sl st (fun s => s.use w)).count64 0x02700008 1, match (d0.cset sl st).way w with | some l => l.data | none => []))
  | none =>
    match (d0.victims sl).find? (fun l => l.line == a && !l.stale) with
    | some l =>
      let d1 := d0.setVictims sl ((d0.victims sl).filter (fun k => !(k.line == a && !k.stale)))
      if err = .victim then d1.missLine a lock noAlloc .none
      else (((d1.install a lock l.data).count64 0x02700008 1).bump 0x02700018 1, l.data)
    | none => d0.missLine a lock noAlloc err

/-- A write of part of a line: memory, and any copy in a way or in the victim buffer (R382, R384). -/
def Dev.writeLine (d : Dev) (a o : Nat) (b : Bytes) : Dev :=
  let (sl, st) := d.placeLine a
  let put := fun (l : CLine) => { l with data := putAt l.data o b }
  let d1 := (d.memWrite (lineUnit a) (lineOff a + o) b).dramAccess (lineUnit a) (lineOff a)
  let d2 := match (d1.cset sl st).find a with
    | some w => d1.csetUpd sl st (fun s => match s.way w with | some l => { s with ways := tabSet none s.ways w (some (put l)) } | none => s)
    | none => d1
  d2.setVictims sl (updWhere (fun l => l.line == a && !l.stale) put (d2.victims sl))

/-- ZERO_LINE (R382). -/
def Dev.zeroLine (d : Dev) (a lock : Nat) : Dev :=
  let (sl, st) := d.placeLine a
  let d1 := d.writeLine a 0 (zeros 128)
  if ((d1.cset sl st).find a).isSome then d1
  else (d1.setVictims sl ((d1.victims sl).filter (fun k => !(k.line == a && !k.stale)))).install a lock (zeros 128)

/-- A range of a context invalidated in every slice (R386). -/
def Dev.invalidate (d : Dev) (ctx dva n : Nat) : Dev :=
  let es := d.mem.entries.filter (fun e => e.ctx == ctx && decide (e.page * frameBytes < dva + n) && decide (dva < (e.page + 1) * frameBytes))
  let d1 := es.foldl (fun (d : Dev) e =>
    let lo := max dva (e.page * frameBytes)
    let hi := min (dva + n) ((e.page + 1) * frameBytes)
    d.dropLines (lineIn (4 * e.tier + e.unit) (e.frame * frameBytes + (lo - e.page * frameBytes)) (hi - lo))) d
  d1.bump 0x02700028 1

/-- The slices in use changed: every line of the others' placement goes (R381). -/
def Dev.setSlices (d : Dev) (l : List Nat) : Dev :=
  if l = d.mem.slices then d
  else { d with mem := { d.mem with slices := l, sets := [], victims := [] } }

/-- A lock entry written (R385): when it becomes valid, other frames' lines leave its ways. -/
def Dev.setLock (d : Dev) (i : Nat) (k : LockEnt) : Dev :=
  let d1 : Dev := { d with mem := { d.mem with locks := tabSet {} d.mem.locks i k } }
  let d2 : Dev := if k.valid then
      let mine := fun (a : Nat) => d.mem.entries.any (fun e => e.lock == i + 1 && lineIn (4 * e.tier + e.unit) (e.frame * frameBytes) frameBytes a)
      { d1 with mem := { d1.mem with
        sets := (d1.mem.sets.map (fun s => (s.1, { s.2 with ways := s.2.ways.filter (fun w =>
          !(decide (8 ≤ w.1) && bitOf k.ways (w.1 - 8)) || (match w.2 with | some l => mine l.line | none => false)) }))).filter (fun k => k.2 != {}) } }
    else d1
  d2.setReg (0x02700040 + 8 * i) (BitVec.ofNat 32 (if k.valid then k.ways + 256 + 65536 * k.claim else 0))

/-- Ways set in a mask. -/
def bitCount (n w : Nat) : Nat := ((List.range n).filter (fun i => bitOf w i)).length

/-- Slices with 5 or more fenced ways are fenced whole, and a quarter whose six slices all are is powered down (R591). -/
def Dev.fenceSlices (d : Dev) : Dev :=
  (d.mem.slices.filter (fun s => decide (5 ≤ bitCount 16 (tabGet 0 d.mem.fenced s)))).foldl (fun (d : Dev) s =>
    let d1 := d.setSlices (d.mem.slices.filter (· != s))
    let d2 : Dev := { d1 with health := { d1.health with slicesFenced := d1.health.slicesFenced ++ [s] } }
    let d3 := ((d2.countRepair 4).repairWritten).eventPf 0x0161 (3 * 2 ^ 24 + s) 0
    if (List.range 6).all (fun k => d3.health.slicesFenced.contains (6 * (s / 6) + k)) then
      ({ d3 with pwr := { d3.pwr with domains := tabSet 0 d3.pwr.domains (64 + s / 6) 0 } } : Dev).eventPf 0x0161 (4 * 2 ^ 24 + s / 6) 0
    else d3) d

end Sys2Proof.Machine
end

