-- ==== Sys2Proof/Machine/Claims.lean ====
section
/-!
DEFINITION. Sys2Proof/Machine/Claims.lean: the resource-claims table (R472 to R474).
-/
namespace Sys2Proof.Machine

/-- The holder field of Table 15.12: function and feature. -/
def holderWord (x feature : Nat) : Nat := (if feature = 1 ∨ feature = 7 then fnCode x else 0) + 65536 * feature
def Claim.word (c : Claim) : Nat := holderWord c.x c.holder

def Dev.claimOf (d : Dev) (cls index : Nat) : Option Claim := d.mail.claims.find? (fun c => c.cls == cls && c.index == index)
def Dev.claimNum (d : Dev) (num : Nat) : Option Claim := d.mail.claims.find? (fun c => c.num == num)

/-- The lowest claim number that no live claim holds (notes/assumptions/62.md). -/
def Dev.newClaimNum (d : Dev) : Nat :=
  ((List.range (d.mail.claims.length + 1)).find? (fun k => !d.mail.claims.any (fun c => c.num == k + 1))).getD d.mail.claims.length + 1

/-- Features that pre-empt (R473): thermal protection and the twin heartbeat. -/
def preempts (feature : Nat) : Bool := feature == 3 || feature == 4

/-- A claim ends (R474): its lock entry or its region is released, its pin returns to function 0
(R634). -/
def Dev.endClaim (d : Dev) (c : Claim) : Dev :=
  let d1 : Dev := { d with mail := { d.mail with claims := d.mail.claims.filter (fun k => k.num != c.num) } }
  if c.cls = 1 then d1.setReg (0x03100000 + 4 * c.index) 0
  else if c.cls = 2 then d1.setLock c.index {}
  else if c.cls = 3 then d1.closeRegions (.claim c.num)
  else if c.cls = 5 then { d1 with qry := { d1.qry with hearths := tabUpd {} d1.qry.hearths c.index (fun h => { h with rx4 := false }) } }
  else d1

/-- A claim recorded. -/
def Dev.addClaim (d : Dev) (c : Claim) : Dev :=
  let d1 : Dev := { d with mail := { d.mail with claims := d.mail.claims ++ [c] } }
  if c.cls = 2 then d1.setLock c.index { ways := c.ways, valid := true, claim := c.num }
  else if c.cls = 5 then { d1 with qry := { d1.qry with hearths := tabUpd {} d1.qry.hearths c.index (fun h => { h with rx4 := true }) } }
  else d1

/-- Ways 8 to 15 that no live claim holds, highest first, as bits of Table 12.14. -/
def Dev.freeWays (d : Dev) : List Nat :=
  [7, 6, 5, 4, 3, 2, 1, 0].filter (fun j => !d.mail.claims.any (fun c => c.cls == 2 && bitOf c.ways j))

/-- The answer to a CLAIM: the claim granted, or a status with its detail. -/
inductive ClaimRes where
  | granted (c : Claim)
  | refused (status detail : Nat)
deriving DecidableEq, Repr, Inhabited

/-- A claim of a lock entry: the lowest free entry and the highest-numbered free ways (R385, Table 15.12). -/
def Dev.claimWays (d : Dev) (x feature n : Nat) : ClaimRes × Dev :=
  let free := d.freeWays
  match (List.range 8).find? (fun i => (d.claimOf 2 i).isNone) with
  | some i =>
    if n ≤ free.length then
      let c : Claim := { num := d.newClaimNum, cls := 2, index := i, x := x, holder := feature, ways := ((free.take n).map (2 ^ ·)).sum }
      (.granted c, d.addClaim c)
    else
      let held := [7, 6, 5, 4, 3, 2, 1, 0].findSome? (fun j => d.mail.claims.find? (fun c => c.cls == 2 && bitOf c.ways j))
      (.refused 0x4002 (match held with | some c => c.word | none => 0), d)
  | none =>
    let held := [7, 6, 5, 4, 3, 2, 1, 0].findSome? (fun j => d.mail.claims.find? (fun c => c.cls == 2 && bitOf c.ways j))
    (.refused 0x4002 (match held with | some c => c.word | none => 0), d)

/-- A claim of a named resource; a pre-empting claim ends another's first (R473) (DESIGN CHOICE, notes/assumptions/69.md). -/
def Dev.claim (d : Dev) (x feature cls index n bytes : Nat) : ClaimRes × Dev :=
  if cls = 2 then d.claimWays x feature n
  else
    let take := fun (d : Dev) =>
      let num := d.newClaimNum
      if cls = 3 then
        let pages := ceilDiv bytes frameBytes
        if d.freeFrames 0 < pages then (ClaimRes.refused 0x4004 0, d)
        else
          let d1 := d.openRegion 0 0 pages 0 (.claim num)
          let dva := (match d1.mem.regions.getLast? with | some r => r.page | none => 0) * frameBytes
          let c : Claim := { num := num, cls := cls, index := index, x := x, holder := feature, bytes := pages * frameBytes, dva := dva }
          (.granted c, d1.addClaim c)
      else
        let c : Claim := { num := num, cls := cls, index := index, x := x, holder := feature }
        (.granted c, d.addClaim c)
    match d.claimOf cls index with
    | none => take d
    | some c =>
      if preempts feature && !preempts c.holder && cls != 5 then
        let d1 := d.endClaim c
        take (if c.holder = 1 then d1.event c.x 0x0003 c.num (holderWord x feature) else d1)
      else (.refused 0x4002 c.word, d)

end Sys2Proof.Machine
end

