-- ==== Sys2Proof/Machine/Store.lean ====
section
/-!
DEFINITION. Sys2Proof/Machine/Store.lean: the catalog operations the meanings share (02_tables_pages_extents.md): visibility, holds and
the retention floor, the row ranges of a source, and the values of rows.
-/
namespace Sys2Proof.Machine

/-- The greatest epoch (R65). -/
def maxEpoch : Nat := 0xFFFFFFFFFFFFFFFE
/-- All ones in a 64-bit field: the newest epoch. -/
def ones64 : Nat := 0xFFFFFFFFFFFFFFFF

def Dev.space (d : Dev) (id : Nat) : Option TSpace := d.store.spaces.find? (fun t => t.id == id)
/-- The visible epoch C of a table space, 0 where there is none. -/
def Dev.visibleOf (d : Dev) (ts : Nat) : Nat := match d.space ts with | some s => s.visible | none => 0
def Dev.spaceUpd (d : Dev) (id : Nat) (f : TSpace → TSpace) : Dev :=
  { d with store := { d.store with spaces := updWhere (fun t => t.id == id) f d.store.spaces } }

/-- Lifetimes (R66): created at or below E and not retired, or retired above E. -/
def liveAt (create retire e : Nat) : Bool := decide (create ≤ e) && (retire == 0 || decide (e < retire))
def Extent.visible (x : Extent) (e : Nat) : Bool := liveAt x.create x.retire e
def Column.live (c : Column) (e : Nat) : Bool := liveAt c.added c.dropped e
def Table.visible (t : Table) (e : Nat) : Bool := liveAt t.create t.drop e

/-- The columns of a slag table (Table 2.9). -/
def slagCols : List Column :=
  let c := fun (i : Nat) (t : ColType) => ({ id := i, ty := { ty := t } } : Column)
  [c 0 .uint64, c 1 .uint64, c 2 .uint16, c 3 .uint16, c 4 .uint32, c 5 .binary, c 6 .bool]

/-- The slag table's ID (R79). -/
def slagId (t : Nat) : Nat := t + 0x80000000
def isSlag (t : Nat) : Bool := bitOf t 31

/-- A table at an epoch. -/
def TSpace.table (s : TSpace) (id e : Nat) : Option Table := s.tables.find? (fun t => t.id == id && t.visible e)
/-- A column of a table at an epoch. -/
def Table.column (t : Table) (id e : Nat) : Option Column := t.cols.find? (fun c => c.id == id && c.live e)

/-- The visible extents of a column, in row order. -/
def TSpace.extentsOf (s : TSpace) (table col e : Nat) : List Extent :=
  (s.extents.filter (fun x => x.table == table && x.col == col && x.visible e)).mergeSort (fun a b => decide (a.firstRow ≤ b.firstRow))

/-- The row ranges that extents cover. -/
def extentRanges (l : List Extent) : List (Nat × Nat) := l.map (fun x => (x.firstRow, x.rows))

/-- A table's rows at an epoch (R144): what the visible extents of its live columns cover. -/
def TSpace.rowsAt (s : TSpace) (t : Table) (e : Nat) : List (Nat × Nat) :=
  normRanges (((t.cols.filter (·.live e)).map (fun c => extentRanges (s.extentsOf t.id c.id e))).flatten)

/-- The units of a source (R144, Table 10.1), in ascending row order: the extents of the lead column, and for the rows it does not
cover the extents of the live columns in ascending column_id. -/
def TSpace.units (s : TSpace) (t : Table) (lead e : Nat) : List (Nat × Nat) :=
  let cols := ((t.cols.filter (·.live e)).map (·.id)).mergeSort (fun a b => decide (a ≤ b))
  let r := (lead :: cols).foldl (fun (acc : List (Nat × Nat) × List (Nat × Nat)) c =>
    let mine := (extentRanges (s.extentsOf t.id c e)).map (fun u => meetRanges [u] acc.2)
    (acc.1 ++ mine.flatten, minusRanges acc.2 (extentRanges (s.extentsOf t.id c e)))) ([], s.rowsAt t e)
  r.1.mergeSort (fun a b => decide (a.1 ≤ b.1))

/-- The data pages of an extent: first row, rows, bytes. -/
def Extent.pageRows (x : Extent) : List (Nat × Nat × Bytes) := x.pages.map (fun p => (p.1, fieldAt p.2 0x14 4, p.2))

/-- Whether a page's values are held as codes of its extent's dictionary (R177). -/
def pageIsDict (p : Bytes) : Bool := fieldAt p 5 1 == 1 || (fieldAt p 5 1 == 5 && fieldAt p 0xAC 1 == 1)

/-- The values of a page with the dictionary code of each, where it has codes; none for a page that fails its checks (R86). -/
def Extent.pageVals (x : Extent) (ty : SlotTy) (p : Bytes) : Option (List (Val × Option Nat)) :=
  (decodePage ty x.dict p).map (fun l => l.map (fun v =>
    (v, match v with | some b => if pageIsDict p then x.dict.findIdx? (· == b) else none | none => none)))

/-! ### What a read of an extent brings (R56, R63, R74, R154) -/

/-- The bytes of a page slot as written: dictionary pages, data pages, then zeros. -/
def Extent.slotBytes (e : Extent) (k : Nat) : Bytes :=
  if k < e.dictPages.length then fitTo 65536 (e.dictPages.getD k [])
  else match e.pages[k - e.dictPages.length]? with | some p => fitTo 65536 p.2 | none => zeros 65536

/-- Slots of an extent that hold a page. -/
def Extent.slots (e : Extent) : Nat := e.dictPages.length + e.pages.length

/-- The identity that a page slot of an extent must show. -/
def TSpace.pageId (s : TSpace) (x : Extent) (slot : Nat) : PageId :=
  let col := ((s.tables.find? (fun t => t.id == x.table)).bind (fun t => t.cols.find? (fun k => k.id == x.col))).getD { id := x.col, ty := default }
  { ts := s.id, table := x.table, col := x.col, ty := col.ty, idx := slot
    firstRow := (x.pages.getD (slot - x.dictPages.length) (0, [])).1, epoch := x.create, extent := x.num }

/-- A data page with its header, identity and CRC right and its header_crc the one its extent's summary holds (R56, R63). -/
def TSpace.pageSame (s : TSpace) (x : Extent) (slot : Nat) (b : Bytes) : Bool :=
  pageIdOk b (s.pageId x slot) && fieldAt b 0xBC 4 == fieldAt (x.slotBytes slot) 0xBC 4

/-- A page slot that a query may use: besides, its payload decodes, and a dictionary page is the one of its place (R86, R90, R99). -/
def TSpace.pageGood (s : TSpace) (x : Extent) (slot : Nat) (b : Bytes) : Bool :=
  let id := s.pageId x slot
  if slot < x.dictPages.length then
    (readDictPage id ((x.dictPages.take slot).map (fun p => fieldAt p 0x18 4)).sum x.dict.length b).isSome
  else s.pageSame x slot b && (decodePage id.ty x.dict b).isSome

/-- An extent header with its magic, version, CRC and identity right (R154). -/
def TSpace.headGood (s : TSpace) (x : Extent) (b : Bytes) : Bool :=
  fieldAt b 0 4 == 0x51E90E77 && fieldAt b 4 1 == 1 && fieldAt b 5 1 == (s.pageId x 0).ty.ty.code && fieldAt b 8 4 == s.id && fieldAt b 0xC 4 == x.table &&
  fieldAt b 0x10 2 == x.col && fieldAt b 0x12 1 == x.dictPages.length && fieldAt b 0x13 1 == x.pages.length && fieldAt b 0x18 8 == x.num &&
  fieldAt b 0xFFC 4 == (crc32c (b.take 0xFFC)).toNat

/-- A page header that holds the facts of a summary (Table 2.7). -/
def summaryPage (b : Bytes) : Bytes :=
  zeros 6 ++ sliceAt b 8 2 ++ zeros 12 ++ sliceAt b 0 4 ++ zeros 28 ++ sliceAt b 4 4 ++ zeros 4 ++ sliceAt b 0xA 2 ++ zeros 2 ++ sliceAt b 0x10 64 ++
    zeros 60 ++ sliceAt b 0xC 4

/-- An extent as its reads brought it: slots of other bytes, and the summaries of a header (slot 16). -/
def Extent.withRead (x : Extent) (got : List (Nat × Bytes)) : Extent :=
  let n := x.dictPages.length
  let page := fun (k : Nat) (p : Bytes) => match assoc got 16 with
    | some h => summaryPage (sliceAt h (0x100 + 80 * (n + k)) 80)
    | none => (assoc got (n + k)).getD p
  { x with pages := (List.range x.pages.length).map (fun k => let p := x.pages.getD k (0, []); (p.1, page k p.2)) }

/-- A table space as the reads of a charge brought its extents. -/
def TSpace.withRead (s : TSpace) (got : List (Nat × Nat × Bytes)) : TSpace :=
  if got.isEmpty then s
  else { s with extents := s.extents.map (fun x => x.withRead ((got.filter (fun g => g.1 == x.num)).map (·.2))) }

/-- The block of its directory extent that holds an extent's header, where a checkpoint has written it (R61, R431): header j is block j of the
256 blocks of a stripe row (DEDUCED, notes/assumptions/150.md). -/
def TSpace.headAt (s : TSpace) (x : Extent) : Option (DirExt × Nat) :=
  s.dirs.findSome? (fun f => if f.table = x.table ∧ f.col = x.col then (f.heads.findIdx? (· == (x.num, x.retire))).map (fun j => (f, j)) else none)

/-- The pages of a column that hold at least one row of some ranges (R155): extent, first row, rows, bytes. -/
def TSpace.pagesIn (s : TSpace) (table col e : Nat) (ranges : List (Nat × Nat)) : List (Extent × Nat × Nat × Bytes) :=
  ((s.extentsOf table col e).map (fun x => (x.pageRows.filter (fun p => !(meetRanges [(p.1, p.2.1)] ranges).isEmpty)).map (fun p => (x, p)))).flatten

/-- One cell of a column as pages hold it: value, and extent with code. -/
abbrev CellVal := Val × Option (Nat × Option Nat)

/-- The cells of some rows of a column, each with whether it is wanted: the pages of the wanted rows are decoded, none where one of them fails
its checks (R155, R156); a row no extent covers reads as null (R50, R144). -/
def TSpace.cells (s : TSpace) (table : Nat) (c : Column) (e : Nat) (rows : List (Nat × Bool)) : Option (List CellVal) :=
  let ranges := normRanges ((rows.filter (·.2)).map (fun r => (r.1, 1)))
  let pages := (s.pagesIn table c.id e ranges).map (fun p => (p.2.1, p.2.2.1, p.1.num, p.1.pageVals c.ty p.2.2.2))
  if pages.any (fun p => p.2.2.2.isNone) then none
  else some ((rows.map (·.1)).map (fun r =>
    match pages.find? (fun p => decide (p.1 ≤ r) && decide (r < p.1 + p.2.1)) with
    | some p => (match p.2.2.2 with
        | some l => let v := l.getD (r - p.1) (none, none); (v.1, some (p.2.2.1, v.2))
        | none => (none, none))
    | none => (none, none)))

/-! ### Holds and the floor (R68 to R70) -/

/-- The epochs of a table space that SNAPSHOT holds, queries and READ_PAGES keep on this twin; a query holds its epoch from its admission on, and an adopted
one since it was adopted (R68, R71). -/
def Dev.heldEpochs (d : Dev) (ts : Nat) : List Nat :=
  ((d.store.holds.filter (fun h => h.ts == ts)).map (·.epoch)) ++ ((d.qry.queries.filter (fun q => q.ts == ts)).map (·.epoch)) ++
    ((d.host.pageJobs.filter (fun j => j.ts == ts)).map (·.epoch)) ++
    (d.qry.subs.filter (fun s => s.ts == ts)).filterMap (fun s => match s.epoch with | some e => some e | none => s.resume.bind (·.epoch)) ++
    (d.twin.toResume.filter (fun r => fieldAt r.2.2.entry 8 4 == ts)).filterMap (fun r => r.2.2.resume.bind (·.epoch))

/-- The lowest of a list, or a bound. -/
def lowest (b : Nat) (l : List Nat) : Nat := l.foldl min b

/-- The floor raised as far as its bound allows (R69); it never falls. -/
def Dev.raiseFloor (d : Dev) (ts : Nat) : Dev :=
  d.spaceUpd ts (fun s =>
    let h := lowest s.visible (d.heldEpochs ts ++ (match s.partnerLow with | some e => [e] | none => []))
    { s with floor := max s.floor (min h (s.visible - s.retain)) })

/-- The lowest epoch this twin's readers hold of a table space, all ones where there is none. -/
def Dev.lowHeld (d : Dev) (ts : Nat) : Nat := lowest ones64 (d.heldEpochs ts)

/-- HOLD to the partner: a hold taken (1) or released (0), or neither (2), with the lowest epoch this twin's readers hold (R68, Table 17.3). -/
def Dev.tellHold (d : Dev) (ts hold epoch take : Nat) (act : TAct) : Dev :=
  let who := match act with | .hold x q cid => [fnCode x, q, cid] | _ => [0, 0xFFFF, 0]
  (d.spaceUpd ts (fun s => { s with told := d.lowHeld ts })).twinSend 11 ([ts, hold, epoch, take, d.lowHeld ts] ++ who) [] act

/-- The lowest held epoch reported when it has changed (R68). -/
def Dev.tellLow (d : Dev) (ts : Nat) : Dev :=
  match d.space ts with
  | some s => if d.twin.alone || s.told == d.lowHeld ts then d else d.tellHold ts 0 0 2 .none
  | none => d

/-- A reader of a table space has taken or released an epoch: F rises as far as it may, and the partner is told (R68, R69). -/
def Dev.holdMoved (d : Dev) (ts : Nat) : Dev := (d.raiseFloor ts).tellLow ts

/-- Whether this twin is the owner of a table space (R47). -/
def Dev.owns (d : Dev) (ts : Nat) : Bool := match d.space ts with | some s => d.twin.alone || s.owner == d.twin.pos | none => false

/-- The epoch a command reads (R27, R70): all ones names C; below the floor or above C it is refused. -/
def TSpace.readEpoch (s : TSpace) (e : Nat) : Except Nat Nat :=
  if e = ones64 then .ok s.visible
  else if e < s.floor then .error 0x2011
  else if s.visible < e then .error 0x2012
  else .ok e

/-- Data and parity strips of a scheme (Table 2.8). -/
def schemeK (s : Nat) : Nat := match s with | 0 => 4 | 1 => 8 | _ => 16
def schemeM (s : Nat) : Nat := match s with | 0 => 1 | 1 => 2 | _ => 3

/-- A table space is unavailable while its home group has fewer than k live members (R595). -/
def Dev.spaceDown (d : Dev) (s : TSpace) : Bool :=
  match d.store.groups.find? (fun g => g.id == s.home) with
  | some g => decide (g.members.length < g.failed.length + schemeK g.scheme)
  | none => false

/-- Whether a function may use a table space (R45): unknown, another function's, or its own or one of a function it stands in for (R510). -/
def Dev.ownSpace (d : Dev) (x ts : Nat) : Except Nat TSpace :=
  match d.space ts with
  | none => .error 0x2002
  | some s => if s.deleting then .error 0x2002 else if s.x ≠ x && !d.twin.adopted.contains (s.x, x) then .error 0x6001 else if d.spaceDown s || s.replay then .error 0x5002 else .ok s

/-- A table space is locked while its key is not loaded here (R574), and while the key is being withdrawn (R575) (DEDUCED, notes/assumptions/44.md). -/
def Dev.locked (d : Dev) (s : TSpace) : Bool := !d.sec.keys.any (fun k => k.ref == s.key && k.check == s.keyCheck && k.going.isNone)
def Dev.lockedTs (d : Dev) (ts : Nat) : Bool := match d.space ts with | some s => d.locked s | none => false

/-- What a command that reads or writes a table space's data finds (R574). -/
def Dev.dataSpace (d : Dev) (x ts : Nat) : Except Nat TSpace :=
  match d.ownSpace x ts with
  | .ok s => if d.locked s then .error 0x6003 else .ok s
  | .error e => .error e

end Sys2Proof.Machine
end

