-- ==== Sys2Proof/Machine/Stages.lean ====
section
/-!
DEFINITION. Sys2Proof/Machine/Stages.lean: what a charge of each operator makes of its input (05, 06), and what a stage that gathers
its input makes of all of it.
-/
namespace Sys2Proof.Machine

/-- Operators that gather their whole input in charges of their own before they put anything out. -/
def gathers (im : Image) (s : StageRec) : Bool :=
  match s.op with
  | 0x07 | 0x0A | 0x0B | 0x0C | 0x0D | 0x0E => true
  | 0x10 => fieldAt (im.block s) 0 1 == 1
  | _ => false

/-- A DIGEST of mode 1: it follows its flow charge by charge and puts out one row after the last (R167, R318). -/
def streams (im : Image) (s : StageRec) : Bool := s.op == 0x15 && fieldAt (im.block s) 1 1 == 1

/-- A source: SKIP, and a SCAN with no input or fed by a SKIP (R155). -/
def isSource (im : Image) (i : Nat) : Bool :=
  let s := im.stages.getD i {}
  match s.op with
  | 0x02 => true
  | 0x01 => (match im.feed i 0 with | none => true | some e => (im.stages.getD e.src {}).op == 0x02)
  | _ => false

/-- A late SCAN (R155). -/
def isLate (im : Image) (i : Nat) : Bool := (im.stages.getD i {}).op == 0x01 && !isSource im i

/-- A sequencing stage (R318). -/
def isSequencing (im : Image) (i : Nat) : Bool :=
  let s := im.stages.getD i {}
  s.ordered && (isSource im i || s.op == 0x0C || s.op == 0x0D || s.op == 0x12 || (s.op == 0x10 && gathers im s))

/-- The slot types on a stage's input port. -/
def inTypes (im : Image) (i p : Nat) : List SlotTy := (inSlots im (deriveOuts im) i p).getD []
/-- The slot types of a stage's output. -/
def outTypes (im : Image) (i : Nat) : List SlotTy := (((deriveOuts im).getD i {}).main).getD []

/-- The number of a stage among those of its operator (EMIT numbers, R169). -/
def ordinal (im : Image) (i : Nat) : Nat :=
  ((im.stages.take i).filter (fun s => s.op == (im.stages.getD i {}).op)).length

/-- The BUILD a PROBE looks rows up in. -/
def buildOf (im : Image) (i : Nat) : Nat := match im.feed i 1 with | some e => e.src | none => 0

/-- A 64-bit parameter, or the value of the block. -/
def limitValue (p : Bytes) (params : List (SlotTy × Val)) (bit off par : Nat) : Nat :=
  if bitOf (fieldAt p 0x10 1) bit then (match params[fieldAt p par 2]? with | some (_, some v) => leNat v | _ => 0) else fieldAt p off 8

/-- The table and bindings a stage names, with table_id parameters read (R127). -/
def bindTable (params : List (SlotTy × Val)) (b : BindRec) : Option Nat :=
  if bitOf b.flags 1 then (match params[b.table]? with | some (_, some v) => some (leNat v) | _ => none) else some b.table

/-- The context in which a stage's code block runs (R225, Table 7.6). -/
def stageCtx (im : Image) (params : List (SlotTy × Val)) (i : Nat) (billets : List XBillet) : XCtx :=
  let s := im.stages.getD i {}
  let c := im.codes.getD s.codeA {}
  { role := roleOf s.op, billets := billets, consts := im.consts, params := params, autos := im.autos, cares := im.cares, mode := im.mode
    ftz := im.ftz, code := c.words, codeOff := c.off, stage := i
    outs := if s.op = 0x05 then ((projRecs (im.block s)).filter (·.computed)).map (fun q => (q.source, q.ty)) else [] }

/-- Whether a stage runs a code block. -/
def hasCode (im : Image) (i : Nat) : Bool := let s := im.stages.getD i {}; roleOf s.op != .none && s.codeA != 0xFFFF

/-! ### MATCH, DIGEST and COMPRESS by row -/

/-- A row with one value appended. -/
def BRow.add (r : BRow) (v : Val) : BRow := { r with vals := r.vals ++ [v] }

/-- MATCH of kinds 0 and 1 on a row (R163). -/
def matchRow (kind neg : Nat) (a : Automaton) (src : Nat) (r : BRow) : BRow :=
  let m := (r.val src).bind (fun b => (runAutomaton a b).1.map (fun p => matchBytes b p))
  if kind = 0 then { r with sel := r.sel && (r.val src).isSome && (m.isSome != (neg == 1)) } else r.add m

/-- The bytes the pattern engine consumes for a row (R302). -/
def matchUsed (a : Automaton) (src : Nat) (r : BRow) : Nat :=
  match (if r.sel then r.val src else none) with | some b => (runAutomaton a b).2 | none => 0

/-- A value as a care-mask key: its register form (R227, R293). -/
def careKey (t : ColType) (b : Bytes) : Nat := match t with | .int8 | .int16 => wrapNat 32 (valInt t b) | _ => leNat b

/-- MATCH of kind 2 on rows in order, over the care-mask table of a hearth (R163, R293, R300): the table as repaired, repairs, rows,
and whether a lookup could not be verified. -/
def careRows (t : CareTable) (ty : ColType) (table src : Nat) (c : Cmt) (fixes : Nat) : List BRow → Cmt × Nat × List BRow × Bool
  | [] => (c, fixes, [], false)
  | r :: rs =>
    match (if r.sel then r.val src else none) with
    | none => let y := careRows t ty table src c fixes rs; (y.1, y.2.1, r.add none :: y.2.2.1, y.2.2.2)
    | some b =>
      match careLookup c t table (careKey ty b) fixes 2 with
      | (c1, f1, some v) => let y := careRows t ty table src c1 f1 rs; (y.1, y.2.1, r.add (some (natLE 8 v)) :: y.2.2.1, y.2.2.2)
      | (c1, f1, none) => (c1, f1, [], true)

/-- The key of a DIGEST stage (Table 5.2). -/
def digestKey (im : Image) (params : List (SlotTy × Val)) (p : Bytes) : Bytes :=
  let v := if fieldAt p 3 1 = 1 then (im.consts[fieldAt p 4 2]?).bind (·.2) else if fieldAt p 3 1 = 2 then (params[fieldAt p 4 2]?).bind (·.2) else none
  v.getD []

/-- COMPRESS on a row: the row, or its error row (R168). -/
def compressRow (stage : Nat) (p : Bytes) (r : BRow) : BRow × Option BRow :=
  let src := fieldAt p 1 1
  if !r.sel then (if bitOf (fieldAt p 2 1) 0 then r else r.add none, none)
  else match compressVal (fieldAt p 0 1 == 1) (r.val src) with
    | some v => (if bitOf (fieldAt p 2 1) 0 then { r with vals := r.vals.set src v, codes := r.codes.filter (fun c => c.1 != src) } else r.add v, none)
    | none => ({ (if bitOf (fieldAt p 2 1) 0 then r else r.add none) with sel := false }, some (opErrRow r stage r.num causeOperator 0))

/-- The hash of a row's key. -/
def rowHash (tys : List SlotTy) (keys : List Nat) (r : BRow) : Nat := (keyhash64 (rowKey tys keys r)).toNat

/-- Rows scattered over the partitions of a pass (R202): billets of one partition each, in ascending partition number. -/
def partitionRows (tys : List SlotTy) (keys : List Nat) (pass : Nat) (rows : List BRow) : List Billet :=
  let tagged := rows.map (fun r => (rowHash tys keys r / 2 ^ (56 - 8 * pass) % 256, r.bare))
  ((List.range 256).map (fun j =>
    (toBillets ((tagged.filter (fun p => p.1 == j)).map (·.2))).map (fun b => { b with part := some (pass, j) }))).flatten

/-! ### One charge -/

/-- What a charge leaves: billets, error rows, admitted ranges, entries of the join table matched, candidate pairs held for later blocks, the
care-mask table and its repairs, whether it met an unresolvable fault of its own, and the bytes its pattern engine consumed. -/
structure ChargeOut where
  out : List Billet := []
  err : List BRow := []
  ranges : List (Nat × Nat) := []
  matched : List Nat := []
  pairs : List (List PairOut) := []
  cmt : Option (Cmt × Nat) := none
  unres : Bool := false
  rpe : Nat := 0
deriving DecidableEq, Repr, Inhabited

/-- The billets of a charge's input. -/
def Charge.billets (c : Charge) : List Billet := (c.input.map (·.billets)).flatten

/-- The billets of a charge as its operator takes them: compacted on entry to LIMIT, EMIT and STORE (R146). -/
def Charge.taken (im : Image) (i : Nat) (c : Charge) : List Billet :=
  match (im.stages.getD i {}).op with
  | 0x0F | 0x13 | 0x14 => c.billets.map (·.compact)
  | _ => c.billets

/-- The tables a PROBE charge looks its rows up in: its own partition and block, or where it follows its input whichever holds a row's key. -/
def Charge.looksIn (c : Charge) (p : JPart) : Bool := match c.leaf with | some l => p.leaf == l && p.block == c.block | none => true

/-- The candidate pairs of a PROBE charge, billet by billet. -/
def chargePairs (im : Image) (i : Nat) (t : JoinTab) (c : Charge) : List (List (Nat × Nat)) :=
  let p := im.block (im.stages.getD i {})
  c.billets.map (fun b => probePairs (inTypes im i 0) (keyList p (fieldAt p 0 1)) (bitOf (fieldAt p 2 1) 1) t c.looksIn b)

/-- The billets a stage's code block runs over for a charge: its input's, or of a PROBE the candidate pairs, 2,048 to a billet. -/
def codeBillets (im : Image) (i : Nat) (t : Option JoinTab) (c : Charge) : List XBillet :=
  let tys := inTypes im i 0
  match (im.stages.getD i {}).op, t with
  | 0x08, some t =>
    let bi := buildOf im i
    let carry := fieldAt (im.block (im.stages.getD bi {})) 0x10 8
    ((c.billets.zip (chargePairs im i t c)).map (fun x => (pairCuts x.2).map (fun l => pairBillet tys (inTypes im bi 0) carry t x.1 l))).flatten
  | 0x08, none => []
  | _, _ => (c.taken im i).map (fun b => b.toX tys)

/-- The candidate pairs of a PROBE charge after its residual, billet by billet: `res` holds the residual's results over them (R197). -/
def probePairOuts (im : Image) (i : Nat) (t : JoinTab) (c : Charge) (res : List XRes) : List (List PairOut) :=
  let resid := bitOf (fieldAt (im.block (im.stages.getD i {})) 2 1) 0
  let pairs := chargePairs im i t c
  (List.range pairs.length).map (fun k =>
    let mine := pairs.getD k []
    let at0 := ((pairs.take k).map (fun l => ceilDiv l.length billetRows)).sum
    (List.range mine.length).map (fun n =>
      let p := mine.getD n (0, 0)
      let o := rowOut res (at0 + n / billetRows) (n % billetRows)
      if resid then ⟨p.1, p.2, o.ran && o.sel && !o.marked, if o.ran && o.marked then some (o.flags, o.word) else none⟩
      else ⟨p.1, p.2, true, none⟩))

/-- A PROBE charge (R195 to R198, R205): the pairs of its partition's earlier blocks in `before` are joined to its own, and its rows go out
with the last block. -/
def probeCharge (im : Image) (i : Nat) (t : JoinTab) (c : Charge) (before : List (List PairOut)) (res : List XRes) : ChargeOut :=
  let p := im.block (im.stages.getD i {})
  let tys := inTypes im i 0
  let keys := keyList p (fieldAt p 0 1)
  let bl := c.billets
  let own := probePairOuts im i t c res
  let all := (List.range own.length).map (fun k => before.getD k [] ++ own.getD k [])
  let f : JoinForm :=
    { ty := fieldAt p 1 1, np := tys.length, nb := (inTypes im (buildOf im i) 0).length, pOut := fieldAt p 0x10 8
      bOut := fieldAt p 0x18 8, stage := i }
  if !c.last then { pairs := all }
  else
    let outs := (List.range bl.length).map (fun k =>
      let b := bl.getD k {}
      probeBillet f t b (fun j => keyHasNull (rowKey tys keys (b.rows.getD j default))) (all.getD k []))
    { out := toBillets ((outs.map (·.1)).flatten), err := (outs.map (·.2.1)).flatten, matched := ((outs.map (·.2.2)).flatten).eraseDups }

/-- LIMIT's window over compacted billets, given how many rows came before them (R164). -/
def limitBillets (offset count : Nat) : Nat → List Billet → List Billet
  | _, [] => []
  | before, b :: r => { b with rows := limitRows before offset count b.rows } :: limitBillets offset count (before + b.rows.length) r

/-- What a charge of stage i makes of its billets. `res` is what its code block left, `c` the care-mask table of its hearth, `t` the table of a
PROBE with the pairs of earlier blocks, `late` the values a late SCAN read, by billet and row. -/
def flowCharge (im : Image) (params : List (SlotTy × Val)) (i : Nat) (ch : Charge) (res : List XRes) (c : Cmt)
    (t : Option (JoinTab × List (List PairOut))) (late : List (List (List CellVal))) : ChargeOut :=
  let s := im.stages.getD i {}
  let p := im.block s
  let bl := ch.taken im i
  let each := fun (g : Billet → Nat → Billet) => (List.range bl.length).map (fun k => g (bl.getD k {}) k)
  let errs := ((List.range bl.length).map (fun k => markedRows i (bl.getD k {}) k res)).flatten
  let rowsOf := fun (g : BRow → BRow) => each (fun b _ => { b with rows := b.rows.map g })
  match s.op with
  | 0x01 =>
    let n := (inTypes im i 0).length
    { out := each (fun b k =>
        let cols := late.getD k []
        { b with rows := (List.range b.rows.length).map (fun j =>
          let r := b.rows.getD j default
          let cells := cols.map (fun col => col.getD j (none, none))
          { r with vals := r.vals ++ cells.map (·.1)
                   codes := r.codes ++ ((List.range cells.length).filterMap (fun m => ((cells.getD m (none, none)).2).map (fun e => (n + m, e)))) }) }) }
  | 0x03 => { out := bl }
  | 0x04 => { out := dropEmpty (each (fun b k => filterBillet (fieldAt p 0 1) b k res)), err := errs }
  | 0x05 => { out := dropEmpty (each (fun b k => projectBillet (projRecs p) b k res)), err := if s.codeA = 0xFFFF then [] else errs }
  | 0x06 =>
    if fieldAt p 0 1 < 2 then
      let a := im.autos.getD (fieldAt p 2 2) {}
      { out := dropEmpty ((rowsOf (matchRow (fieldAt p 0 1) (fieldAt p 4 1) a (fieldAt p 1 1))).map (·.settle))
        rpe := ((bl.map (fun b => (b.rows.map (matchUsed a (fieldAt p 1 1))).sum))).sum }
    else
      let tb := fieldAt p 2 2
      let y := careRows (im.cares.getD tb {}) ((inTypes im i 0).getD (fieldAt p 1 1) default).ty tb (fieldAt p 1 1) c 0 ((bl.map (·.rows)).flatten)
      let cut := bl.foldl (fun (acc : List Billet × List BRow) b => (acc.1 ++ [{ b with rows := acc.2.take b.rows.length }], acc.2.drop b.rows.length)) ([], y.2.2.1)
      { out := cut.1, cmt := some (y.1, y.2.1), unres := y.2.2.2 }
  | 0x08 => (match t with | some t => probeCharge im i t.1 ch t.2 res | none => {})
  | 0x09 =>
    { out := partitionRows (inTypes im i 0) (keyList p (fieldAt p 0 1)) (fieldAt p 1 1) (liveRows bl) }
  | 0x0F =>
    let pos := (ch.input.map (·.pos)).headD 0
    { out := dropEmpty (limitBillets (limitValue p params 0 0 0x12) (limitValue p params 1 8 0x14) pos bl) }
  | 0x15 =>
    if streams im s then {} else { out := rowsOf (fun r => r.add (if r.sel then (r.val (fieldAt p 2 1)).map (digestOf (fieldAt p 0 1) (digestKey im params p)) else none)) }
  | 0x16 =>
    let both := bl.map (fun b => (b, b.rows.map (compressRow i p)))
    { out := dropEmpty (both.map (fun x => ({ x.1 with rows := x.2.map (·.1) } : Billet).settle)), err := ((both.map (fun x => x.2.filterMap (·.2))).flatten) }
  | 0x14 =>
    let rows := (List.range bl.length).map (fun k =>
      let b := bl.getD k {}
      if s.codeA = 0xFFFF then b.rows.filter (·.sel)
      else (List.range b.rows.length).filterMap (fun j =>
        (b.rows[j]?).bind (fun r => if r.sel then
          let o := rowOut res k j
          some { r with sel := o.ran && o.sel && !o.marked } else none)))
    { out := rows.map (fun l => { rows := l }) }
  | 0x13 => { out := dropEmpty bl }
  | _ => { out := bl.map (fun b => { b with rows := b.rows.map (·.bare) }) }

/-! ### The spill ladder (R189 to R191) -/

/-- The bytes a row takes on the ladder (R188, R220). -/
def rowBytes (tys : List SlotTy) (r : BRow) : Nat :=
  ((List.range tys.length).map (fun i => (carriedBytes (tys.getD i default) (r.val i)).length)).sum + (if tys.any (·.nullable) then 8 else 0)

/-- The bytes a row takes in a partition: its key hash stands with it (Table 6.12). -/
def partBytes (tys : List SlotTy) (r : BRow) : Nat := 8 + rowBytes tys r

/-- The levels a stage may use, from scratchpad down to its spill floor, with the most that each holds (Table 6.5): level 1 only where the
function holds way locks, 6 MiB to a way (R385). -/
def ladderLevels (r : ResRec) (ways : Nat) : List (Nat × Nat) :=
  ([(0, r.scratch)] ++ (if ways = 0 then [] else [(1, min r.hbm (6291456 * ways))]) ++ [(2, r.hbm), (3, r.ddr), (4, r.drive)]).filter
    (fun l => decide (l.1 ≤ r.floor))

/-- The bytes on a level. -/
def onLevel (used : List (Nat × Nat)) (l : Nat) : Nat := ((used.filter (fun u => u.1 == l)).map (·.2)).sum

/-- The level a piece of data goes to: the first from scratchpad downward that has room for it (R190); levels 1 and 2 share hbm_bytes. Under
AUTONOMOUS policy the model makes the same choice, since partitions are worked on in ascending number (DESIGN CHOICE, notes/assumptions/154.md). -/
def pieceLevel (r : ResRec) (ways : Nat) (used : List (Nat × Nat)) (b : Nat) : Option Nat :=
  ((ladderLevels r ways).find? (fun l => decide (onLevel used l.1 + b ≤ l.2) &&
    (l.1 == 0 || decide (3 ≤ l.1) || decide (onLevel used 1 + onLevel used 2 + b ≤ r.hbm)))).map (·.1)

/-- Pieces placed in order, beside what the levels hold already: the level and bytes of each; none when one finds no room (R191). -/
def placePieces (r : ResRec) (ways : Nat) (used : List (Nat × Nat)) : List Nat → Option (List (Nat × Nat))
  | [] => some []
  | b :: bs => match pieceLevel r ways used b with
    | none => none
    | some l => (placePieces r ways (used ++ [(l, b)]) bs).map (fun y => (l, b) :: y)

/-- Pieces placed anew, those on level 0 in order, beside what else the levels hold (R486); one that finds no room stays. -/
def restow (r : ResRec) (ways : Nat) (used l : List (Nat × Nat)) : List (Nat × Nat) :=
  (l.foldl (fun (acc : List (Nat × Nat) × List (Nat × Nat)) p =>
    let v := if p.1 = 0 then (pieceLevel r ways acc.2 p.2).getD 0 else p.1
    (acc.1 ++ [(v, p.2)], if p.1 = 0 then acc.2 ++ [(v, p.2)] else acc.2)) ([], used ++ l.filter (fun p => p.1 != 0))).1

/-- The runs that a SORT charge's rows make (R220): rows in a run as long as it fits the scratchpad. -/
def runSizes (cap : Nat) (rows : List Nat) : List Nat :=
  let y := rows.foldl (fun (acc : List Nat × Nat) b => if acc.2 + b ≤ cap ∨ acc.2 = 0 then (acc.1, acc.2 + b) else (acc.1 ++ [acc.2], b)) ([], 0)
  if y.2 = 0 then y.1 else y.1 ++ [y.2]

/-! ### Partitions (R201 to R206) -/

/-- A partition, or where it is skewed and may be split the partitions that further passes cut it into, up to 3 passes in all (R204). -/
def Leaf.cut (fits occupied : Leaf → Bool) : Nat → Leaf → List Leaf
  | 0, l => [l]
  | fuel + 1, l => if fits l || decide (3 ≤ l.passes) then [l] else ((l.split.filter occupied).map (Leaf.cut fits occupied fuel)).flatten

/-- The partitions that hold some key hashes after `n` passes, in ascending order, skewed ones split where that is permitted. -/
def leavesOf (n : Nat) (maySplit : Bool) (fits : Leaf → Bool) (hashes : List Nat) : List Leaf :=
  let first := (((hashes.map (fun h => h / 2 ^ (64 - 8 * n))).eraseDups).mergeSort (fun a b => decide (a ≤ b))).map (fun p => (⟨n, p⟩ : Leaf))
  (first.map (if maySplit then Leaf.cut fits (fun l => hashes.any l.holds) 3 else fun l => [l])).flatten

/-- The bytes of a table: its entries and its slot array; none where it would take more than 2^24 slots (R188). -/
def tableBytes (entries : List Nat) : Option Nat := (tableSlots entries.length).map (fun s => entries.sum + 4 * s)

/-- Whether a table of some entries fits a size. -/
def tableFits (cap : Nat) (entries : List Nat) : Bool := (tableBytes entries).any (fun b => decide (b ≤ cap))

/-- Chains of a partition cut into blocks that fit the scratchpad (R205): the longest runs of whole chains, in ascending slot; none where a chain
fits no block. -/
def blockRuns (cap : Nat) (size : Nat → Nat) : List (List Nat) → Option (List (List Nat))
  | [] => some []
  | c :: cs =>
    if !tableFits cap (c.map size) then none
    else match blockRuns cap size cs with
      | some (b :: bs) => if tableFits cap ((c ++ b).map size) then some ((c ++ b) :: bs) else some (c :: b :: bs)
      | some [] => some [c]
      | none => none

/-- The chains of a partition's table, in ascending slot: entry numbers. -/
def chainsOf (ents : List JEntry) (mine : List Nat) : List (List Nat) :=
  let s := (tableSlots mine.length).getD (2 ^ 24)
  let slot := fun (j : Nat) => hashSlot s (ents.getD j { key := [], row := { vals := [] }, pay := [] }).hash
  (((mine.map slot).eraseDups).mergeSort (fun a b => decide (a ≤ b))).map (fun k => mine.filter (fun j => slot j == k))

/-- The tables of a BUILD from the entries each holds (R188, R201). -/
def buildTabs (size : Nat → Nat) (l : List (Leaf × Nat × Bool × List Nat)) (ents : List JEntry) : List JPart × List JEntry :=
  l.foldl (fun (acc : List JPart × List JEntry) x =>
    let s := (tableSlots x.2.2.2.length).getD (2 ^ 24)
    let y := chainUp s acc.2 x.2.2.2
    (acc.1 ++ [{ leaf := x.1, block := x.2.1, last := x.2.2.1, slots := s, heads := y.1, bytes := (x.2.2.2.map size).sum + 4 * s }], y.2)) ([], ents)

/-- The pins of a stage (R131): bit 0 join strategy, bit 1 re-partitioning, bit 2 spill placement. -/
def pinned (im : Image) (i bit : Nat) : Bool := im.pins.any (fun p => p.1 == i && bitOf p.2 bit)

/-- The stages a stage feeds. -/
def fedBy (im : Image) (i : Nat) : List Nat := (im.edges.filter (fun e => e.src == i)).map (·.dst)

/-- The radix passes a PARTITION with equal keys has already made for a stage (R202). -/
def priorPasses (im : Image) (i : Nat) (keys : List Nat) : Nat :=
  match im.feed i 0 with
  | some e =>
    let u := im.stages.getD e.src {}
    let b := im.block u
    if u.op = 0x09 ∧ keyList b (fieldAt b 0 1) = keys then fieldAt b 1 1 + 1 else 0
  | none => 0

/-- Whether re-partitioning is pinned for a stage: on it, on the PARTITION that feeds it (R206), or on a PROBE that a BUILD feeds or the PARTITION
that feeds that PROBE (Table 4.13, R204). -/
def partPinned (im : Image) (i : Nat) : Bool :=
  let one := fun (k : Nat) => pinned im k 1 || (match im.feed k 0 with | some e => (im.stages.getD e.src {}).op == 0x09 && pinned im e.src 1 | none => false)
  one i || ((im.stages.getD i {}).op == 0x07 && (fedBy im i).any one)

/-! ### Finishing work -/

/-- The gathered rows of a port, in upstream order. -/
def portRows (st : StageRun) (port : Nat) : List BRow :=
  liveRows (((st.gathered.filter (fun c => c.port == port)).mergeSort (fun a b => decide (a.up < b.up ∨ (a.up = b.up ∧ a.pos ≤ b.pos)))).map (·.billets)).flatten

/-- What finishing work yields: shares of rows, a join table, the pieces it has on the spill ladder by partition, decisions taken, or the status
that ends the query. -/
structure Finish where
  lots : List Lot := []
  table : Option JoinTab := none
  pieces : List (Option Leaf × Nat) := []
  decisions : List (Nat × Nat) := []
  fail : Option Nat := none
deriving DecidableEq, Repr, Inhabited

/-- Finishing work of one share. -/
def Finish.one (rows err : List BRow) : Finish := { lots := if rows.isEmpty && err.isEmpty then [] else [{ rows := rows.map (·.bare), err := err }] }

/-- What a stage's finishing work goes by: its query's policy level, the choices it is to repeat (R42), and its place. -/
structure FinishCtx where
  auto : Bool := false
  recorded : List (Nat × Nat) := []
  stage : Nat := 0
deriving DecidableEq, Repr, Inhabited

/-- BUILD under PARTITIONED (R201, R204, R205): its partitions, in block mode the blocks of those still skewed. -/
def buildParted (im : Image) (x : FinishCtx) (n : Nat) (res : ResRec) (tys : List SlotTy) (size : Nat → Nat) (ents : List JEntry) (t : JoinTab)
    (first : List (Nat × Nat)) : Finish :=
  let p := im.block (im.stages.getD x.stage {})
  let split := x.auto && !partPinned im x.stage
  let mine := fun (l : Leaf) => (List.range ents.length).filter (fun j => l.holds (ents.getD j { key := [], row := { vals := [] }, pay := [] }).hash)
  let fits := fun (l : Leaf) => tableFits res.scratch ((mine l).map size)
  let leaves := leavesOf n split fits (ents.map (·.hash))
  let skewed := leaves.filter (fun l => !fits l)
  let cut := leaves.map (fun l => (l, if fits l then some [mine l] else if split || bitOf (fieldAt p 3 1) 1 then blockRuns res.scratch size (chainsOf ents (mine l)) else none))
  if cut.any (fun c => c.2.isNone) then { fail := some 0x4007 }
  else
    let tabs := (cut.map (fun c => let bs := c.2.getD []; (List.range bs.length).map (fun b => (c.1, b, b + 1 == bs.length, bs.getD b [])))).flatten
    let y := buildTabs size tabs ents
    let row := fun (j : Nat) => (ents.getD j { key := [], row := { vals := [] }, pay := [] }).row
    { lots := tabs.map (fun q => { rows := q.2.2.2.map row, leaf := some q.1, block := q.2.1, last := q.2.2.1 })
      table := some { t with entries := y.2, parted := true, passes := n, parts := y.1 }
      pieces := leaves.map (fun l => (some l, ((mine l).map (fun j => partBytes tys (row j))).sum))
      decisions := first ++ (if split then [(2, (leaves.map (·.passes)).foldl max n)] else []) ++
        (if split && !skewed.isEmpty then [(3, 1)] else []) }

/-- BUILD over all its rows (R191, R196, R201, R203). -/
def finishBuild (im : Image) (x : FinishCtx) (rows : List BRow) : Finish :=
  let i := x.stage
  let s := im.stages.getD i {}
  let p := im.block s
  let tys := inTypes im i 0
  let res := im.resources.getD s.res {}
  let keys := keyList p (fieldAt p 0 1)
  let carry := fieldAt p 0x10 8
  let outer := (fedBy im i).any (fun k => decide (5 ≤ fieldAt (im.block (im.stages.getD k {})) 1 1))
  let ents := buildEntries tys keys carry (bitOf (fieldAt p 3 1) 0 || outer) rows
  let sizes := ents.map (entryBytes tys keys carry)
  let size := fun (j : Nat) => sizes.getD j 0
  let t : JoinTab := { entries := ents, any := !rows.isEmpty, nullKey := rows.any (fun r => keyHasNull (rowKey tys keys r)) }
  let free := x.auto && !pinned im i 0 && !(fedBy im i).any (fun k => pinned im k 0)
  let fits := tableFits res.scratch sizes
  let strat := if free then (assoc x.recorded 1).getD (if fits then 0 else 1) else fieldAt p 1 1
  if res.hash < ents.length then { fail := some 0x4006 }
  else if strat = 0 then
    if !fits then { fail := some 0x4007 }
    else
      let y := buildTabs size [({}, 0, true, List.range ents.length)] ents
      { lots := if ents.isEmpty then [] else [{ rows := ents.map (·.row) }], table := some { t with entries := y.2, parts := y.1 }
        decisions := if free then [(1, 0)] else [] }
  else buildParted im x (max 1 (fieldAt p 2 1 + priorPasses im i keys)) res tys size ents t (if free then [(1, 1)] else [])

/-- The state bytes of an aggregate in a group (Table 6.10). -/
def aggBytes (tys : List SlotTy) (rows : List BRow) (a : AggRec) : Nat :=
  let t := tys.getD a.src default
  match a.fn with
  | 0 | 1 => 8
  | 2 => (match t.ty.kind with | .float => 288 | .decimal | .packed => 24 | _ => 16)
  | 5 => (match t.ty.kind with | .float => 296 | .decimal | .packed => 32 | _ => 24)
  | f => (match t.width with
    | some w => roundUp 8 w
    | none =>
      let v := (aggValue .tiesToEven false { a with fn := f } t t (rows.map (fun r => r.val a.src))).1
      roundUp 8 (4 + (v.getD []).length))

/-- The groups of some rows: the hash and the entry bytes of each (R188). -/
def groupSizes (tys : List SlotTy) (keys : List Nat) (aggs : List AggRec) (rows : List BRow) : List (Nat × Nat) :=
  let nullable := keys.any (fun k => (tys.getD k default).nullable)
  (groupRows tys keys rows).map (fun g =>
    ((keyhash64 g.key).toNat, 16 + (keyBytes g.key).length + (if nullable then 8 else 0) + (aggs.map (aggBytes tys g.rows)).sum))

/-- AGGREGATE over all its rows (R191, R206, R210). RESIDENT holds while every hearth's partial table fits its scratchpad; under PARTITIONED the
partial groups are placed on the ladder by partition (DEDUCED, notes/assumptions/155.md). -/
def finishAggregate (im : Image) (x : FinishCtx) (st : StageRun) : Finish :=
  let i := x.stage
  let s := im.stages.getD i {}
  let p := im.block s
  let tys := inTypes im i 0
  let res := im.resources.getD s.res {}
  let keys := keyList p (fieldAt p 0 1)
  let aggs := aggList p
  let rows := portRows st 0
  let all := aggregateRows im.mode im.ftz tys keys aggs i
  if fieldAt p 0 1 = 0 then Finish.one (all rows).1 (all rows).2
  else
    let groups := groupSizes tys keys aggs rows
    let homes := ((st.gathered.map (·.home)).eraseDups).map (fun h => groupSizes tys keys aggs (liveRows ((st.gathered.filter (fun c => c.home == h)).map (·.billets)).flatten))
    let split := x.auto && !partPinned im i
    let outgrown := homes.any (fun g => !tableFits res.scratch (g.map (·.2)))
    let turn := split && fieldAt p 2 1 == 0 && (assoc x.recorded 1 == some 1 || outgrown)
    if res.hash < groups.length then { fail := some 0x4006 }
    else if fieldAt p 2 1 = 0 && !turn then (if outgrown then { fail := some 0x4007 } else Finish.one (all rows).1 (all rows).2)
    else
      let inLeaf := fun (g : List (Nat × Nat)) (l : Leaf) => (g.filter (fun y => l.holds y.1)).map (·.2)
      let fits := fun (l : Leaf) => tableFits res.scratch (inLeaf groups l)
      let n := max 1 (fieldAt p 3 1 + priorPasses im i keys)
      let leaves := leavesOf n split fits (groups.map (·.1))
      if leaves.any (fun l => !fits l) then { fail := some 0x4007 }
      else
        { lots := leaves.map (fun l =>
            let y := all (rows.filter (fun r => l.holds (rowHash tys keys r)))
            { rows := y.1, err := y.2, leaf := some l })
          pieces := leaves.map (fun l => (some l, (homes.map (fun g => (inLeaf g l).sum)).sum))
          decisions := (if turn then [(1, 1)] else []) ++ (if split then [(2, (leaves.map (·.passes)).foldl max n)] else []) }

/-- The finishing work of a stage over everything it gathered. -/
def finishStage (im : Image) (params : List (SlotTy × Val)) (x : FinishCtx) (st : StageRun) : Finish :=
  let i := x.stage
  let s := im.stages.getD i {}
  let p := im.block s
  let tys := inTypes im i 0
  let rows := portRows st 0
  let flow := match im.feed i 0 with | some e => (im.stages.getD e.src {}).ordered | none => false
  match s.op with
  | 0x07 => finishBuild im x rows
  | 0x0A => finishAggregate im x st
  | 0x0B => let r := sketchRows (fieldAt p 0 1) (tys.getD (fieldAt p 1 1) default) (fieldAt p 1 1) i rows; Finish.one r.1 r.2
  | 0x0C => { Finish.one (sortRows tys (sortKeys p (fieldAt p 0 1)) flow rows) [] with pieces := st.runs.map (fun b => (none, b)) }
  | 0x0D => Finish.one (mergeRows tys (sortKeys p (fieldAt p 0 1)) ((List.range s.inP).map (fun k => (inTypes im i k, portRows st k)))) []
  | 0x0E => Finish.one (topkRows tys (sortKeys p (fieldAt p 4 1)) (fieldAt p 0 4) rows) []
  | 0x10 => Finish.one ((List.range s.inP).map (portRows st)).flatten []
  | _ => Finish.one [{ vals := [some (digestOf (fieldAt p 0 1) (digestKey im params p) (digestStream (fieldAt p 2 1) rows)), some (natLE 8 rows.length)] }] []

/-- Whether the rows a MERGE has read so far stand in key order on every input (R221). -/
def mergeInOrder (im : Image) (i : Nat) (st : StageRun) : Bool :=
  let s := im.stages.getD i {}
  let p := im.block s
  (List.range s.inP).all (fun k => inOrder (inTypes im i k) (sortKeys p (fieldAt p 0 1)) (portRows st k))

/-- The partitions of a PROBE's rows under PARTITIONED (R201, R204, R205), each once for every block of its table, with their bytes on the ladder:
those of the BUILD's table, and where no build row fell the partitions of its first passes. -/
def probeLots (im : Image) (i : Nat) (t : JoinTab) (st : StageRun) : Finish :=
  let p := im.block (im.stages.getD i {})
  let tys := inTypes im i 0
  let keys := keyList p (fieldAt p 0 1)
  let n := t.passes
  let rows := portRows st 0
  let leafOf := fun (r : BRow) => let h := rowHash tys keys r
    ((t.parts.find? (fun q => q.leaf.holds h)).map (·.leaf)).getD ⟨n, h / 2 ^ (64 - 8 * n)⟩
  let tagged := rows.map (fun r => (leafOf r, r))
  let leaves := ((tagged.map (·.1)).eraseDups).mergeSort (fun a b => decide (a.first ≤ b.first))
  { lots := (leaves.map (fun l =>
      let mine := (tagged.filter (fun x => x.1 == l)).map (·.2)
      let k := max 1 (t.parts.filter (fun q => q.leaf == l)).length
      (List.range k).map (fun b => ({ rows := mine, leaf := some l, block := b, last := b + 1 == k } : Lot)))).flatten
    pieces := leaves.map (fun l => (some l, (((tagged.filter (fun x => x.1 == l)).map (fun x => partBytes tys x.2))).sum)) }

/-- The unmatched build rows a PROBE of type 5 or 6 puts out at the end (R196, R198). -/
def probeTail (im : Image) (i : Nat) (t : JoinTab) (matched : List Nat) : Finish :=
  let p := im.block (im.stages.getD i {})
  if 5 ≤ fieldAt p 1 1 then
    Finish.one (unmatchedRows (inTypes im i 0).length (inTypes im (buildOf im i) 0).length (fieldAt p 0x10 8) (fieldAt p 0x18 8) t matched) []
  else {}

/-! ### Sources -/

/-- The admitted ranges of a SKIP charge over its row ranges (R150 to R153). -/
def skipCharge (im : Image) (params : List (SlotTy × Val)) (i e : Nat) (sp : TSpace) (t : Table) (ranges : List (Nat × Nat)) : List (Nat × Nat) :=
  let s := im.stages.getD i {}
  let p := im.block s
  let binds := im.stageBinds s
  let tests := skipTests p
  let sets := tests.map (fun q =>
    let b := binds.getD q.binding {}
    match t.column b.column e with
    | none => if q.op = 8 then ranges else []
    | some c =>
      let ops := (List.range q.count).map (fun k => if q.kind = 0 then ((im.consts[q.first + k]?).bind (·.2)) else ((params[q.first + k]?).bind (·.2)))
      let pages := sp.pagesIn t.id c.id e ranges
      let kept := (pages.filter (fun x => !pageDrop c.ty (pageZone x.2.2.2) q.op ops)).map (fun x => (x.2.1, x.2.2.1))
      let covered := extentRanges (sp.extentsOf t.id c.id e)
      let bare := if q.op = 8 then minusRanges ranges covered else []
      normRanges (meetRanges kept ranges ++ bare))
  skipProgram sets (sliceAt p (8 + 16 * fieldAt p 0 2) (fieldAt p 2 2))

/-- The pages that cut a source SCAN's billets (R107, R144): of the lead column, then for the rows it lacks of each live column in ascending
column_id; each page with the rows it is cut for. -/
def scanCuts (lead e : Nat) (sp : TSpace) (t : Table) (ranges : List (Nat × Nat)) : List ((Nat × Nat) × List (Nat × Nat)) :=
  let order := lead :: ((t.cols.filter (·.live e)).map (·.id)).mergeSort (fun a b => decide (a ≤ b))
  (order.foldl (fun (acc : List ((Nat × Nat) × List (Nat × Nat)) × List (Nat × Nat)) c =>
    let pages := (sp.pagesIn t.id c e acc.2).map (fun x => (x.2.1, x.2.2.1))
    (acc.1 ++ pages.map (fun g => (g, acc.2)), minusRanges acc.2 pages)) ([], normRanges ranges)).1.mergeSort (fun a b => decide (a.1.1 ≤ b.1.1))

/-- The billets of a source SCAN charge (R107, R143 to R145, R159): the pages that cut it in pieces of 2,048 rows; rows that are none of a
page's own in the charge are not selected, and no page is decoded for them alone; none when a page fails its checks. -/
def scanCharge (binds : List BindRec) (e : Nat) (sp : TSpace) (t : Table) (ranges : List (Nat × Nat)) : Option (List Billet) :=
  let within := fun (l : List (Nat × Nat)) (r : Nat) => l.any (fun g => decide (g.1 ≤ r) && decide (r < g.1 + g.2))
  let nums := ((scanCuts (binds.headD {}).column e sp t ranges).map (fun p =>
    (List.range (ceilDiv p.1.2 billetRows)).map (fun k =>
      (List.range (min billetRows (p.1.2 - billetRows * k))).map (fun j => let r := p.1.1 + billetRows * k + j; (r, within p.2 r))))).flatten
  let flat := nums.flatten
  let cols := binds.map (fun b => match t.column b.column e with | some c => sp.cells t.id c e flat | none => some (flat.map (fun _ => (none, none))))
  if cols.any Option.isNone then none
  else
    let data := cols.map (·.getD [])
    let rows := (List.range flat.length).map (fun j =>
      let cells := data.map (fun c => c.getD j (none, none))
      { vals := cells.map (·.1), num := some (flat.getD j (0, false)).1, sel := (flat.getD j (0, false)).2
        codes := (List.range cells.length).filterMap (fun m => ((cells.getD m (none, none)).2).map (fun x => (m, x))) : BRow })
    some (dropEmpty (nums.foldl (fun (acc : List Billet × List BRow) l => (acc.1 ++ [{ rows := acc.2.take l.length }], acc.2.drop l.length)) ([], rows)).1)

end Sys2Proof.Machine
end

