-- ==== Sys2Proof/Machine/QBase.lean ====
section
/-!
DEFINITION. Sys2Proof/Machine/QBase.lean: queries, stages, charges and hearths by name; cancellation of charges (R310, R320) and the end
of a query that cannot go on.
-/
namespace Sys2Proof.Machine

/-! ### Removal from the image cache (R140, rules 5 and 6) -/

/-- The group of cache entries that were removed while something pinned them: no function is in it, and they go with what pins them. -/
def emptiedGroup : Nat := 2 ^ 32

/-- The cache without removed entries that nothing pins any more. -/
def dropEmptied (l : List CacheEnt) : List CacheEnt := l.filter (fun c => !(c.group == emptiedGroup && c.free))

/-- The entries of some groups removed, the pinned ones when nothing pins them any more. -/
def Dev.emptyGroups (d : Dev) (p : Nat → Bool) : Dev :=
  { d with qry := { d.qry with cache := dropEmptied (d.qry.cache.map (fun c => if p c.group then { c with group := emptiedGroup } else c)) } }

def Dev.query (d : Dev) (id : Nat) : Option Query := d.qry.queries.find? (fun q => q.id == id)
def Dev.queryUpd (d : Dev) (id : Nat) (f : Query → Query) : Dev :=
  { d with qry := { d.qry with queries := updWhere (fun q => q.id == id) f d.qry.queries } }
def Query.stage (q : Query) (i : Nat) : StageRun := q.stages.getD i {}
def Query.stageUpd (q : Query) (i : Nat) (f : StageRun → StageRun) : Query := { q with stages := updAt q.stages i f }
def Dev.stageUpd (d : Dev) (id i : Nat) (f : StageRun → StageRun) : Dev := d.queryUpd id (fun q => q.stageUpd i f)

/-- Whether a stage gathers its input first: by its operator, or a PROBE that works on the partitions of its BUILD's table (R201). -/
def Query.gathering (q : Query) (i : Nat) : Bool :=
  let s := q.image.stages.getD i {}
  gathers q.image s || (s.op == 0x08 && !s.ordered && ((q.stage (buildOf q.image i)).table).any (·.parted))

/-- The choices a resumed query's checkpoints record for a stage (R42, R222); those of a BUILD stand with its own charges or its PROBEs'. -/
def Query.recorded (q : Query) (i : Nat) : List (Nat × Nat) :=
  let l := i :: (if (q.image.stages.getD i {}).op = 0x07 then fedBy q.image i else [])
  ((q.resume.filter (fun k => l.contains k.1)).map (fun k => k.2.2.decisions)).flatten

/-- Whether a charge is the one a number names: gathering charges of a stage are numbered apart. -/
def Charge.is (c : Charge) (gather : Bool) (idx : Nat) : Bool := c.idx == idx && (c.work == .gather) == gather
def StageRun.charge (st : StageRun) (gather : Bool) (idx : Nat) : Option Charge := st.charges.find? (fun c => c.is gather idx)
def StageRun.chargeUpd (st : StageRun) (gather : Bool) (idx : Nat) (f : Charge → Charge) : StageRun :=
  { st with charges := updWhere (fun c => c.is gather idx) f st.charges }
def CRef.gather (r : CRef) : Bool := r.work == .gather
def Dev.charge (d : Dev) (r : CRef) : Option Charge := (d.query r.query).bind (fun q => (q.stage r.stage).charge r.gather r.idx)
def Dev.chargeUpd (d : Dev) (r : CRef) (f : Charge → Charge) : Dev := d.stageUpd r.query r.stage (fun st => st.chargeUpd r.gather r.idx f)

def Dev.hearth (d : Dev) (h : Nat) : Hearth := tabGet {} d.qry.hearths h
def Dev.hearthUpd (d : Dev) (h : Nat) (f : Hearth → Hearth) : Dev := { d with qry := { d.qry with hearths := tabUpd {} d.qry.hearths h f } }
/-- The number of hearths (R22). -/
def hearthCount : Nat := 36
/-- Hearths enabled for pipeline work. -/
def Dev.pipeHearths (d : Dev) : List Nat := (List.range hearthCount).filter (fun k => (d.hearth k).on)

/-- The effective policy level of a function (R40). -/
def Dev.autonomous (d : Dev) (x : Nat) : Bool := !d.fn.directed && !d.fn.fnDirected.contains x

def Dev.share (d : Dev) (x : Nat) : Share := tabGet {} d.fn.shares x

/-- A trace record about a charge. -/
def Query.trec (q : Query) (i idx kind a b c : Nat) (h : Nat) : TRec :=
  let s := q.image.stages.getD i {}
  { kind := kind, hearth := h, fn := fnCode q.x, stage := i, flow := if s.ordered then s.flow else 0xFFFF, query := q.id, charge := idx, a := a, b := b, c := c }

/-- Virtual time added to a function when an attempt of one of its charges ends (R316). -/
def Dev.addV (d : Dev) (x clocks : Nat) : Dev :=
  { d with qry := { d.qry with vf := tabUpd 0 d.qry.vf x (fun v => (v + clocks * 65536 / max 1 (d.share x).hearthWeight) % 2 ^ 64) } }

/-- The clocks that a running attempt has used by now, where no other measure comes with what ends it (DESIGN CHOICE, notes/assumptions/165.md). -/
def Dev.usedClocks (d : Dev) (r : CRef) : Nat := match d.charge r with | some c => (d.timeUs - c.started) * d.hearthMhz | none => 0

/-- The index of the device's own work among the functions' virtual times. -/
def deviceWork : Nat := 2000

/-- A step of the device's own work: its clocks are added to the virtual time of a function of its own, at SHARE_MAINT_WEIGHT (R316). -/
def Dev.ownWork (d : Dev) : Dev :=
  { d with qry := { d.qry with
    vf := tabUpd 0 d.qry.vf deviceWork (fun v => (v + Config.workClocks d.qry.works * 65536 / max 1 (d.regField 0x02A00004 15 0)) % 2 ^ 64)
    works := d.qry.works + 1 } }

/-- Whether a charge's results are still owed: not released and not cancelled. -/
def CState.live : CState → Bool
  | .released | .cancelled => false
  | _ => true

/-- One charge cancelled (R310, R320): its output is discarded; in an ordered stage a void marker takes its place. -/
def Dev.cancelCharge (d : Dev) (r : CRef) (cause : Nat) : Dev :=
  match d.query r.query, d.charge r with
  | some q, some c =>
    if !c.state.live then d
    else
      let ord := (q.image.stages.getD r.stage {}).ordered && !r.gather
      let d1 := d.chargeUpd r (fun c => { c with state := .cancelled, input := [], rows := [], out := [], err := [], cancel := none })
      let d2 := match c.hearth with
        | some h => d1.hearthUpd h (fun x =>
            { x with slots := x.slots.filter (· != r), running := if x.running = some r then none else x.running
                     exu := if x.running = some r then x.exu.halt else x.exu })
        | none => d1
      let d3 := d2.trace (q.trec r.stage r.idx 0x09 cause c.state.num 0 0xFF)
      let d4 := if r.gather then d3 else d3.dropCmds (fun k => k.use == .charge r.query r.stage r.idx)
      if ord then (d4.bump 0x02400010 1).trace (q.trec r.stage r.idx 0x08 cause 0 r.idx 0xFF) else d4
  | _, _ => d

/-- Every charge of a stage cancelled: a running one takes it up at its next step boundary. -/
def Dev.cancelStage (d : Dev) (id i cause : Nat) : Dev :=
  match d.query id with
  | some q =>
    (q.stage i).charges.foldl (fun d c =>
      let r : CRef := ⟨id, i, c.idx, c.work⟩
      if c.state = .running then d.chargeUpd r (fun c => { c with cancel := some cause }) else d.cancelCharge r cause) d
  | none => d

/-- A query that ends without SUCCESS: its charges are cancelled and it puts out nothing more (R44, R173, R414). -/
def Dev.endQuery (d : Dev) (id : Nat) (e : Ending) (cause : Nat) : Dev :=
  match d.query id with
  | some q =>
    if q.ending.isSome then d
    else (List.range q.stages.length).foldl (fun d i => d.cancelStage id i cause)
      (d.queryUpd id (fun q => { q with ending := some e, rings := q.rings.map (fun r => { r with wait := [], closed := r.closed }) }))
  | none => d

/-- A query that fails at a stage. -/
def Dev.failAt (d : Dev) (id status stage : Nat) : Dev := d.endQuery id { status := status, detail := stage } 1

end Sys2Proof.Machine
end

