-- ==== Sys2Proof/Machine/Fabric.lean ====
section
/-!
DEFINITION. Sys2Proof/Machine/Fabric.lean: messages, flows and associations of the exchange (11_exchange.md).
-/
namespace Sys2Proof.Machine

/-! ### Batches as messages (R340) -/

/-- A value of a column from its Arrow form (R176): the inverse of `arrowVal`. -/
def unArrow (t : SlotTy) (b : Bytes) : Bytes :=
  match t.ty with
  | .packedDecimal => let v := valInt .decimal128 b; packedOf t.a (decide (v < 0)) v.natAbs
  | .bfloat16 => b.drop 2
  | _ => b

/-- The width of a value in its Arrow form. -/
def arrowWidth (t : SlotTy) : Nat := match t.ty with | .bfloat16 => 4 | _ => t.width.getD 0

/-- The values of column i of a batch (Table 5.7). -/
def batchColumn (b : Bytes) (i : Nat) (t : SlotTy) (n : Nat) : List Val :=
  let o := 64 + 64 * i
  let nulls := fieldAt b (o + 0x08) 4
  let vo := fieldAt b (o + 0x0C) 4
  let so := fieldAt b (o + 0x14) 4
  let vals := fieldAt b (o + 0x18) 4
  (List.range n).map (fun r =>
    if nulls ≠ 0 && !bitOf (fieldAt b (vo + r / 8) 1) (r % 8) then none
    else some (match t.ty with
      | .bool => [if bitOf (fieldAt b (vals + r / 8) 1) (r % 8) then 1 else 0]
      | .utf8 | .binary => let x := fieldAt b (so + 4 * r) 4; sliceAt b (vals + x) (fieldAt b (so + 4 * r + 4) 4 - x)
      | _ => unArrow t (sliceAt b (vals + arrowWidth t * r) (arrowWidth t))))

/-- The rows of a message body. -/
def batchRows (tys : List SlotTy) (b : Bytes) : List BRow :=
  let n := fieldAt b 8 4
  let cols := (List.range tys.length).map (fun i => batchColumn b i (tys.getD i default) n)
  (List.range n).map (fun r => { vals := cols.map (fun c => c.getD r none) })

/-- The body of a message with no rows: header only, no column buffers (R341). -/
def emptyBatch (tys : List SlotTy) (ordered : Bool) (seq : Nat) : Bytes := mkBatch tys 0 ordered seq []

/-- Rows cut into bodies of at most 1 MiB, a row at least in each (R340): a body ends before a billet that would take it past that, and a billet
that alone would goes on into the next. -/
def msgBodies (tys : List SlotTy) (ordered : Bool) (seq : Nat) : Nat → List (List BRow) → List BRow → List Bytes
  | 0, _, _ => []
  | _, [], acc => if acc.isEmpty then [] else [mkBatch tys 0 ordered seq acc]
  | n + 1, b :: bs, acc =>
    if (mkBatch tys 0 ordered seq (acc ++ b)).length ≤ 1048576 then msgBodies tys ordered seq n bs (acc ++ b)
    else if !acc.isEmpty then mkBatch tys 0 ordered seq acc :: msgBodies tys ordered seq n (b :: bs) []
    else
      let k := max 1 (fitRows tys 0 1048576 b b.length)
      mkBatch tys 0 ordered seq (b.take k) :: msgBodies tys ordered seq n (if b.length ≤ k then bs else b.drop k :: bs) []

/-- A body with its CRC (R340). -/
def withCrc (b : Bytes) : Bytes := b ++ natLE 4 (crc32c b).toNat

/-! ### Nodes, peers and paths -/

/-- The device's own node ID (R35). -/
def Dev.node (d : Dev) : Option Nat := if bitOf (d.regN 0x02500000) 16 then some (d.regField 0x02500000 15 0) else none
/-- The adopted node ID (R37). -/
def Dev.adoptedNode (d : Dev) : Option Nat := if bitOf (d.regN 0x02500004) 16 then some (d.regField 0x02500004 15 0) else none
def Dev.isMe (d : Dev) (n : Nat) : Bool := d.node == some n || d.adoptedNode == some n
def Dev.knowsNode (d : Dev) (n : Nat) : Bool := d.isMe n || d.fab.nodes.any (fun p => p.1 == n)

/-- The port halves that are up. -/
def Dev.upHalves (d : Dev) : List Nat := (List.range 16).filter (fun h => (tabGet {} d.fab.halves h).up)
/-- The paths to a peer (R336): local halves up, with each listed address. -/
def Dev.paths (d : Dev) (peer : Nat) : List (Nat × Bytes) :=
  (d.upHalves.map (fun h => ((assoc d.fab.nodes peer).getD []).map (fun a => (h, a)))).flatten

/-- The MTU of a port in bytes (Table 11.10). -/
def Dev.mtu (d : Dev) (port : Nat) : Nat := match d.regField (0x02510000 + 0x100 * port) 9 8 with | 0 => 1500 | 1 => 9000 | _ => 9216
/-- The largest segment the MTU of every port that is up allows (Table 11.2). -/
def Dev.maxSeg (d : Dev) : Nat :=
  let m := lowest 9216 (d.upHalves.map (fun h => d.mtu (h / 2)))
  if 8192 + 96 ≤ m then 8192 else if 4096 + 96 ≤ m then 4096 else 1024
/-- The line rate of a half in Mb/s. -/
def Dev.lineRate (d : Dev) (h : Nat) : Nat := if d.regField (0x02510000 + 0x100 * (h / 2)) 1 0 = 1 then 200000 else 400000
def Dev.bestRate (d : Dev) : Nat := (d.upHalves.map d.lineRate).foldl max 200000

def Dev.assocOf (d : Dev) (peer me : Nat) : Option Assoc := d.fab.assocs.find? (fun a => a.peer == peer && a.me == me)
def Dev.assocUpd (d : Dev) (peer me : Nat) (f : Assoc → Assoc) : Dev :=
  { d with fab := { d.fab with assocs := updWhere (fun a => a.peer == peer && a.me == me) f d.fab.assocs } }
/-- VXP_STATUS shows the open associations. -/
def Dev.showAssocs (d : Dev) : Dev := d.setReg 0x02500018 (BitVec.ofNat 32 ((d.fab.assocs.filter (·.opened)).length))

/-! ### Packets out (R338, R347, R348) -/

/-- Header length in words by type (Table 11.4). -/
def hdrWords (kind : Nat) : Nat := match kind with | 1 => 6 | 2 => 5 | 3 => 6 | 8 => 5 | _ => 3

/-- The datagram of a packet. -/
def vxpBytes (a : Assoc) (kind flags psn : Nat) (body payload : Bytes) : Bytes :=
  let h := natLE 1 (a.minor + 16 * a.major) ++ natLE 1 kind ++ natLE 1 flags ++ natLE 1 (hdrWords kind) ++ natLE 2 a.me ++ natLE 2 a.peer ++ natLE 4 a.own ++
    natLE 4 psn ++ natLE 4 payload.length ++ body
  h ++ natLE 4 (crc32c h).toNat ++ payload

/-- The hash that picks source port and path (R338, R348). -/
def msgHash (exch stage charge piece : Nat) : Nat :=
  (keyhash64 [(.uint32, some (natLE 4 exch)), (.uint16, some (natLE 2 stage)), (.uint64, some (natLE 8 (charge + 2 ^ 48 * piece)))]).toNat

/-- The UDP source port (R338). -/
def srcPort (a : Assoc) (kind : Nat) (body : Bytes) : Nat :=
  let h := if kind = 1 then msgHash (fieldAt body 0 4) (fieldAt body 4 2) (fieldAt body 8 8) 0 else (keyhash64 [(.uint32, some (natLE 4 a.own))]).toNat
  h % 32768 + 32768

/-- A datagram leaves by a path, with its ports, DSCP and VLAN (R338, R348, Table 11.1); while the half is paused it waits (R347). -/
def Dev.emit (d : Dev) (a : Assoc) (path : Nat × Bytes) (kind psn : Nat) (body bytes : Bytes) : Dev :=
  let half := path.1
  let o : Out := .vxp a.peer kind path.2 [half, psn, srcPort a kind body, d.regField 0x02500008 15 0, d.regField 0x02500014 5 0, d.regField 0x02500014 17 6] bytes
  let k := tabGet {} d.fab.halves half
  if d.timeUs < k.pausedUntil then { d with fab := { d.fab with halves := tabSet {} d.fab.halves half { k with held := k.held ++ [o] } } } else d.send o

/-- Types that are acknowledged and sent again: all but ACK, HELLO and HELLO_ACK (notes/assumptions/30.md). -/
def reliableKind (k : Nat) : Bool := !(k == 2 || k == 4 || k == 5)

/-- The tag of an association's timer on delay list 3 (R347): 0 retransmission, 1 rate period, 2 acknowledgement, 3 keepalive. -/
def vxpTag (peer me kind : Nat) : Nat := kind + 4 * (peer + 65536 * me)

/-- A timer of an association that is not running is set. -/
def Dev.vxpTimer (d : Dev) (peer me kind us : Nat) : Dev :=
  if d.qry.delays.any (fun e => e.list == 3 && e.tag == vxpTag peer me kind) then d else d.delay 3 (ceilDiv us 10) (vxpTag peer me kind)

/-- A packet sent on an association; one of a reliable type takes the next psn and waits for its acknowledgement. -/
def Dev.vxpSend (d : Dev) (peer me kind flags : Nat) (body payload : Bytes) (hash : Nat) : Dev :=
  match d.assocOf peer me with
  | none => d
  | some a =>
    let ps := d.paths peer
    let path := ps.getD (hash % max 1 ps.length) (0, [])
    let d0 := if reliableKind kind || kind == 4 then d.vxpTimer peer me 0 a.rto else d
    let d1 := d0.assocUpd peer me (fun a => { a with
      txPsn := if reliableKind kind then a.txPsn + 1 else a.txPsn
      unacked := if reliableKind kind then a.unacked ++ [⟨a.txPsn, kind, flags, body, payload, d.timeUs, 0, path⟩] else a.unacked
      lastTx := d.timeUs })
    if ps.isEmpty then d1 else d1.emit a path kind a.txPsn body (vxpBytes a kind flags a.txPsn body payload)

/-- A packet sent again, on a path that is up. -/
def Dev.vxpResend (d : Dev) (peer me psn : Nat) : Dev :=
  match d.assocOf peer me with
  | none => d
  | some a =>
    match a.unacked.find? (fun t => t.psn == psn) with
    | none => d
    | some t =>
      let ps := d.paths peer
      let path := if ps.contains t.path then t.path else ps.headD t.path
      let d1 := (d.assocUpd peer me (fun a => { a with
        unacked := updWhere (fun t => t.psn == psn) (fun t => { t with later := 0, sent := d.timeUs, path := path }) a.unacked
        lastTx := d.timeUs })).bump 0x02500020 1
      if ps.isEmpty then d1 else d1.emit a path t.kind psn t.body (vxpBytes a t.kind t.flags psn t.body t.payload)

/-- The XP major and highest minor of the running firmware (R337). -/
def Dev.xp (d : Dev) : Nat × Nat := d.mail.firmware.xp

/-- A new association, not yet opened (R336): a new assoc_id, and its timers (DESIGN CHOICE, notes/assumptions/32.md). -/
def Dev.fresh (d : Dev) (peer me : Nat) : Dev :=
  let id := 1 + (d.fab.usedIds.filter (fun p => p.1 == peer)).length
  let a : Assoc := { peer := peer, me := me, own := id, major := d.xp.1, minor := d.xp.2, rate := d.bestRate, lastRx := d.timeUs, lastTx := d.timeUs }
  ((({ d with fab := { d.fab with
    assocs := d.fab.assocs.filter (fun a => !(a.peer == peer && a.me == me)) ++ [a], usedIds := d.fab.usedIds ++ [(peer, id)] } } : Dev).vxpTimer peer me 1 50).vxpTimer
      peer me 3 (125 * d.regField 0x0250000C 15 0))

/-- HELLO (R337, Table 11.5). -/
def Dev.sayHello (d : Dev) (peer me : Nat) : Dev :=
  d.vxpSend peer me 4 0 [] ([BitVec.ofNat 8 d.xp.1, 0, BitVec.ofNat 8 d.xp.2, 0] ++ natLE 4 d.maxSeg) 0

/-- An association begun by the device (R336, R337). -/
def Dev.hello (d : Dev) (peer me : Nat) : Dev := (d.fresh peer me).sayHello peer me

/-- The association a flow needs, opened where there is none. -/
def Dev.needAssoc (d : Dev) (peer me : Nat) : Dev := if (d.assocOf peer me).isSome then d else d.hello peer me

/-- An ACK (R347, Table 11.4). -/
def Dev.vxpAck (d : Dev) (peer me : Nat) : Dev :=
  match d.assocOf peer me with
  | none => d
  | some a =>
    let sack := (a.rxHeld.filter (fun p => decide (a.rxCum < p) && decide (p ≤ a.rxCum + 64))).foldl (fun m p => m + 2 ^ (p - a.rxCum - 1)) 0
    ((d.vxpSend peer me 2 0 (natLE 4 a.rxCum ++ natLE 8 sack ++ natLE 4 a.ceSince) [] 0).assocUpd peer me
      (fun a => { a with sinceAck := 0, ceSince := 0 })).undelay 3 (vxpTag peer me 2)

/-! ### Receiving messages (R343 to R346) -/

/-- (charge, piece) order of messages. -/
def ptLt (x y : Nat × Nat) : Bool := decide (x.1 < y.1) || (x.1 == y.1 && decide (x.2 < y.2))
def ptLe (x : Nat × Nat) (y : Option (Nat × Nat)) : Bool := match y with | some y => !ptLt y x | none => false

def Dev.rflow (d : Dev) (me sender exch stage : Nat) : Option RFlow :=
  d.fab.rflows.find? (fun f => f.me == me && f.sender == sender && f.exch == exch && f.stage == stage)
def Dev.rflowUpd (d : Dev) (me sender exch stage : Nat) (g : RFlow → RFlow) : Dev :=
  let d1 : Dev := if (d.rflow me sender exch stage).isSome then d
    else { d with fab := { d.fab with rflows := d.fab.rflows ++
      [{ me := me, sender := sender, exch := exch, stage := stage, fresh := d.adoptedNode == some me }] } }
  { d1 with fab := { d1.fab with rflows := updWhere (fun f => f.me == me && f.sender == sender && f.exch == exch && f.stage == stage) g d1.fab.rflows } }

/-- Messages put in order (R345, R351): those the flow expects move to its queue. -/
def RFlow.advance : Nat → RFlow → RFlow
  | 0, f => f
  | n + 1, f =>
    match f.got.find? (fun m => m.charge == f.expCharge && m.piece == f.expPiece) with
    | none => f
    | some m =>
      let f1 := { f with got := f.got.filter (fun k => !(k.charge == m.charge && k.piece == m.piece)) }
      if bitOf m.flags 0 then { f1 with ended := some m.charge }
      else
        let last := bitOf m.flags 1 || bitOf m.flags 2
        RFlow.advance n { f1 with queue := f1.queue ++ [m], expCharge := if last then f.expCharge + 1 else f.expCharge, expPiece := if last then 0 else f.expPiece + 1 }

/-- A complete message enters its flow once (R345). -/
def RFlow.take (f : RFlow) (m : XMsg) : RFlow :=
  if ptLt (m.charge, m.piece) (f.expCharge, f.expPiece) || f.got.any (fun k => k.charge == m.charge && k.piece == m.piece) || f.ended.isSome then f
  else let g := { f with got := f.got ++ [m] }; RFlow.advance (g.got.length) g

/-- A flow to an adopted node begins at the first message that the sender has kept (R355, R519; DEDUCED, notes/assumptions/181.md). -/
def RFlow.beginAt (f : RFlow) (charge piece : Nat) : RFlow :=
  let g := { f with fresh := false, low := none, first := some (charge, piece), expCharge := charge, expPiece := piece }
  RFlow.advance g.got.length g

/-- A packet of a flow that has not begun: the lowest message seen, with its packet number. -/
def RFlow.sees (f : RFlow) (psn charge piece : Nat) : RFlow :=
  if !f.fresh then f
  else match f.low with
    | some (p, c, k) => if ptLt (charge, piece) (c, k) || ((charge, piece) == (c, k) && decide (psn < p)) then { f with low := some (psn, charge, piece) } else f
    | none => { f with low := some (psn, charge, piece) }

/-- The exchange_id a stage names (Tables 11.7, 11.8). -/
def Query.exch (q : Query) (i : Nat) : Nat :=
  match q.params[fieldAt (q.image.block (q.image.stages.getD i {})) 4 2]? with | some (_, some v) => leNat v | _ => 0
/-- The send stage an exchange stage belongs to. -/
def Query.sendStage (q : Query) (i : Nat) : Nat :=
  let s := q.image.stages.getD i {}
  if s.op = 0x12 then fieldAt (q.image.block s) 2 2 else i
/-- u16 node IDs of a BINARY parameter. -/
def nodeList (b : Bytes) : List Nat := (List.range (b.length / 2)).map (fun k => fieldAt b (2 * k) 2)
def Query.paramBytes (q : Query) (k : Nat) : Bytes := match q.params[k]? with | some (_, some v) => v | _ => []
/-- The partition map of an EXCHANGE_SEND, and the senders of an EXCHANGE_RECV. -/
def Query.sendMap (q : Query) (i : Nat) : List Nat := nodeList (q.paramBytes (fieldAt (q.image.block (q.image.stages.getD i {})) 2 2))
def Query.senders (q : Query) (i : Nat) : List Nat := nodeList (q.paramBytes (fieldAt (q.image.block (q.image.stages.getD i {})) 6 2))

/-- The node a query runs as. -/
def Dev.qNode (d : Dev) (q : Query) : Nat := q.node.getD (d.node.getD 0)

/-- Queries with an exchange stage of an exchange_id and send stage. -/
def Dev.exchQueries (d : Dev) (exch stage : Nat) : List (Query × Nat) :=
  ((d.qry.queries.map (fun q => (List.range q.image.stages.length).map (fun i => (q, i)))).flatten).filter (fun p =>
    let s := p.1.image.stages.getD p.2 {}
    (s.op == 0x11 || s.op == 0x12) && p.1.exch p.2 == exch && p.1.sendStage p.2 == stage)

/-- W (R344): the receiver's hbm_bytes over senders_max, from the image. -/
def Query.window (q : Query) (send : Nat) : Nat :=
  match (List.range q.image.stages.length).find? (fun i => (q.image.stages.getD i {}).op == 0x12 && q.sendStage i == send) with
  | some i => let s := q.image.stages.getD i {}; (q.image.resources.getD s.res {}).hbm / max 1 (fieldAt (q.image.block s) 8 4)
  | none => 0

/-- The message that a charge took, as its checkpoint records it: sender and msg_id (R351). -/
def srcUp (sender charge piece : Nat) : Nat := charge + 2 ^ 48 * piece + 2 ^ 64 * sender

/-- Charges of an EXCHANGE_RECV that are not run again: the next n. -/
def StageRun.pass (st : StageRun) (n : Nat) : StageRun :=
  { st with old := st.old ++ (List.range n).map (st.recvNext + ·), recvNext := st.recvNext + n }

/-- Messages in order handed to an EXCHANGE_RECV stage as input for its charges (R351), in ARRIVAL mode after a
resumption in the order that its checkpoints record, from the first message that each sender still has (R519). -/
def recvLoop (me : Nat) (q : Query) (i : Nat) : Nat → List RFlow → StageRun → List RFlow × StageRun
  | 0, fl, st => (fl, st)
  | n + 1, fl, st =>
    let s := q.image.stages.getD i {}
    let p := q.image.block s
    let tys := outTypes q.image i
    let mine := fun (sd : Nat) (f : RFlow) => f.me == me && f.sender == sd && f.exch == q.exch i && f.stage == q.sendStage i
    let chunk := fun (sd : Nat) (m : XMsg) => ({ up := st.recvNext, void := bitOf m.flags 1, src := some (sd, m.charge, m.piece)
                                                 billets := if m.data.isEmpty then [] else toBillets (batchRows tys m.data) } : Chunk)
    if fieldAt p 0 1 = 0 then
      let want := (q.resume.find? (fun k => k.1 == i && k.2.1 == st.recvNext)).bind (fun k => k.2.2.ups.head?)
      let gone := want.any (fun w => fl.any (fun f => f.me == me && f.exch == q.exch i && f.stage == q.sendStage i && f.sender == w / 2 ^ 64 &&
        f.first.any (fun p => ptLt (w % 2 ^ 48, w / 2 ^ 48 % 2 ^ 16) p)))
      if gone then recvLoop me q i n fl (st.pass 1) else
      match fl.findIdx? (fun f => f.me == me && f.exch == q.exch i && f.stage == q.sendStage i && (q.senders i).contains f.sender &&
          f.queue.head?.any (fun m => bitOf m.flags 1 || (match want with | some w => srcUp f.sender m.charge m.piece == w | none => true))) with
      | none => (fl, st)
      | some k =>
        let f := fl.getD k { sender := 0, exch := 0, stage := 0 }
        (match f.queue with
          | m :: r =>
            let st1 := if bitOf m.flags 1 then st else { st with inq := st.inq ++ [chunk f.sender m], recvNext := st.recvNext + 1 }
            recvLoop me q i n (updAt fl k (fun f => { f with queue := r })) st1
          | [] => (fl, st))
    else
      let ss := q.senders i
      match ss[st.recvSender]? with
      | none =>
        if ss.all (fun sd => match fl.find? (mine sd) with | some f => (match f.ended with | some c => decide (c ≤ st.recvCharge) | none => false) | none => false)
        then (fl, st) else recvLoop me q i n fl { st with recvSender := 0, recvCharge := st.recvCharge + 1 }
      | some sd =>
        match fl.find? (mine sd) with
        | none => (fl, st)
        | some f =>
          if f.first.any (fun p => decide (st.recvCharge < p.1)) then
            let k := (q.resume.filter (fun k => k.1 == i && k.2.2.ups.head?.any (fun w => w / 2 ^ 64 == sd && w % 2 ^ 48 == st.recvCharge))).length
            recvLoop me q i n fl { st.pass (max 1 k) with recvSender := st.recvSender + 1 }
          else match f.queue, f.ended with
          | m :: r, _ =>
            if m.charge = st.recvCharge then
              let last := bitOf m.flags 1 || bitOf m.flags 2
              let st := if f.first == some (m.charge, m.piece) then st.pass m.piece else st
              recvLoop me q i n (updWhere (mine sd) (fun f => { f with queue := r }) fl)
                { st with inq := st.inq ++ [{ chunk sd m with up := st.recvNext }], recvNext := st.recvNext + 1, recvSender := if last then st.recvSender + 1 else st.recvSender }
            else (fl, st)
          | [], some c => if c ≤ st.recvCharge then recvLoop me q i n fl { st with recvSender := st.recvSender + 1 } else (fl, st)
          | [], none => (fl, st)

/-- Whether every sender of an EXCHANGE_RECV has ended and nothing of it waits (R351). -/
def Dev.recvEnded (d : Dev) (q : Query) (i : Nat) : Bool :=
  (q.senders i).all (fun sd => match d.rflow (d.qNode q) sd (q.exch i) (q.sendStage i) with | some f => f.ended.isSome && f.queue.isEmpty | none => false)

/-- The EXCHANGE_RECV stages of an exchange take what has arrived for them; one that a satisfied LIMIT has stopped needs none of it (DESIGN
CHOICE, notes/assumptions/173.md). -/
def Dev.pumpRecv (d : Dev) (exch stage : Nat) : Dev :=
  (d.exchQueries exch stage).foldl (fun d p =>
    if (p.1.image.stages.getD p.2 {}).op ≠ 0x12 then d
    else match d.query p.1.id with
      | none => d
      | some q =>
        let sink := fun (f : RFlow) => if f.me == d.qNode q && f.exch == exch && f.stage == stage && (q.senders p.2).contains f.sender then
            (match f.queue.getLast? with
             | some m => { f with queue := [], taken := some (m.charge, m.piece), consumed := some (m.charge, m.piece) }
             | none => f)
          else f
        let r := if (q.stage p.2).stopped then (d.fab.rflows.map sink, q.stage p.2) else recvLoop (d.qNode q) q p.2 (2 * (d.fab.rflows.map (fun f => f.queue.length + 1)).sum + 2 * (q.senders p.2).length + 2 + q.resume.length +
              (q.senders p.2).length * (d.fab.rflows.map (fun f => match f.first with | some p => p.1 + 1 | none => 0)).foldl max 0) d.fab.rflows (q.stage p.2)
        let d1 := ({ d with fab := { d.fab with rflows := r.1 } } : Dev).stageUpd q.id p.2 (fun _ => r.2)
        if d1.recvEnded q p.2 then d1.stageUpd q.id p.2 (fun st => if st.ended.contains 0 then st else { st with ended := [0] }) else d1) d

/-! ### Sending messages (R340 to R344) -/

/-- The rows a charge sends to each receiver (R349). -/
def sendRows (q : Query) (i : Nat) (tys : List SlotTy) (idx node : Nat) (bl : List Billet) : List (List BRow) :=
  let p := q.image.block (q.image.stages.getD i {})
  let map := q.sendMap i
  let n := max 1 map.length
  let keys := keyList p (fieldAt p 1 1)
  (bl.foldl (fun (acc : List (List BRow) × Nat) b =>
    let live := b.rows.filter (·.sel)
    let mine := (List.range live.length).filterMap (fun k =>
      (live[k]?).bind (fun r =>
        let dest := match fieldAt p 0 1 with
          | 0 => map.getD (((keyhash64 (rowKey tys keys r)).toNat % 65536) * n / 65536) 0 == node
          | 1 => true
          | _ => map.getD ((idx + acc.2 + k) % n) 0 == node
        if dest then some r else none))
    (acc.1 ++ [mine], acc.2 + live.length)) ([], 0)).1

/-- The messages of one charge to one receiver (R341). -/
def chargeMsgs (q : Query) (i : Nat) (c : Charge) (node : Nat) : List XMsg :=
  if c.state = .cancelled then [{ charge := c.idx, piece := 0, flags := 2 }]
  else
    let tys := inTypes q.image i 0
    let ord := (q.image.stages.getD i {}).ordered
    let parts := (sendRows q i tys c.idx node c.out).filter (fun l => !l.isEmpty)
    let bodies := if parts.isEmpty then [emptyBatch tys ord c.idx] else msgBodies tys ord c.idx (2 * (parts.map (·.length + 1)).sum) parts []
    (List.range bodies.length).map (fun k =>
      { charge := c.idx, piece := k, flags := if k + 1 = bodies.length then 4 else 0, data := withCrc (bodies.getD k []) })

/-- The packets of a message (R348): its segments on one path. -/
def Dev.sendMsg (d : Dev) (f : SFlow) (m : XMsg) : Dev :=
  let a := ((d.assocOf f.node f.sender).getD { peer := f.node, me := f.sender })
  let n := max 1 (ceilDiv m.data.length a.seg)
  (List.range n).foldl (fun d k =>
    let off := k * a.seg
    let body := natLE 4 f.exch ++ natLE 2 f.stage ++ natLE 2 m.flags ++ natLE 8 (m.charge + 2 ^ 48 * m.piece) ++ natLE 4 m.data.length ++ natLE 4 off
    d.vxpSend f.node f.sender 1 (b2n (k == 0) + 2 * b2n (k + 1 == n)) body (sliceAt m.data off a.seg) (msgHash f.exch f.stage m.charge m.piece)) d

/-- Bytes a flow has in its window: sent and beyond taken_through (R344). -/
def SFlow.inWindow (f : SFlow) : Nat := ((f.msgs.filter (fun m => m.sent && !ptLe (m.charge, m.piece) f.taken)).map (fun m => m.data.length)).sum

def SFlow.same (f g : SFlow) : Bool := f.query == g.query && f.exch == g.exch && f.stage == g.stage && f.sender == g.sender && f.node == g.node

/-- A flow sends the messages its window admits, in order; those to the device itself pass inside (R342, R344, R349). -/
def Dev.pumpFlow (d : Dev) (f : SFlow) : Nat → Dev
  | 0 => d
  | n + 1 =>
    match d.fab.sflows.find? (f.same) with
    | none => d
    | some g =>
      match g.msgs.find? (fun m => !m.sent) with
      | none => d
      | some m =>
        let opened := match d.assocOf g.node g.sender with | some a => a.opened | none => false
        if g.window < g.inWindow + m.data.length || (!d.isMe g.node && !opened) then d
        else
          let d1 : Dev := { d with fab := { d.fab with sflows := updWhere (f.same) (fun g => { g with
            msgs := updWhere (fun k => k.charge == m.charge && k.piece == m.piece) (fun k => { k with sent := true }) g.msgs }) d.fab.sflows } }
          let d2 := if d.isMe g.node then (d1.rflowUpd g.node g.sender g.exch g.stage (fun r =>
              (if r.fresh then r.beginAt m.charge m.piece else r).take { m with data := m.data.take (m.data.length - 4) })).pumpRecv g.exch g.stage
            else d1.sendMsg g m
          Dev.pumpFlow d2 f n

def Dev.pumpFlows (d : Dev) : Dev := d.fab.sflows.foldl (fun d f => d.pumpFlow f (f.msgs.length + 1)) d

/-- What a receiver has taken or consumed reaches a flow (FLOW_ACK, R344): consumed messages are freed. -/
def SFlow.ack (f : SFlow) (taken consumed : Option (Nat × Nat)) : SFlow :=
  let mx := fun (a b : Option (Nat × Nat)) => match a, b with
    | some x, some y => some (if ptLt x y then y else x)
    | some x, none => some x
    | none, y => y
  let c := mx f.consumed consumed
  { f with taken := mx f.taken taken, consumed := c, msgs := f.msgs.filter (fun m => !ptLe (m.charge, m.piece) c) }

/-- A point in a FLOW_ACK field; none is written as all ones (notes/assumptions/30.md). -/
def ptWord (p : Option (Nat × Nat)) : Nat := match p with | some (c, k) => c + 2 ^ 48 * k | none => ones64
def wordPt (w : Nat) : Option (Nat × Nat) := if w = ones64 then none else some (w % 2 ^ 48, w / 2 ^ 48)

/-- FLOW_ACK of a receiving flow (R344). -/
def Dev.flowAck (d : Dev) (f : RFlow) : Dev :=
  if d.isMe f.sender then
    let mine := fun (g : SFlow) => g.exch == f.exch && g.stage == f.stage && g.sender == f.sender && g.node == f.me
    let fl := updWhere mine (fun g => g.ack f.taken f.consumed) d.fab.sflows
    ({ d with fab := { d.fab with sflows := fl } } : Dev).pumpFlows
  else d.vxpSend f.sender f.me 3 0 (natLE 4 f.exch ++ natLE 2 f.stage ++ zeros 2 ++ natLE 8 (ptWord f.taken) ++ natLE 8 (ptWord f.consumed)) [] 0

/-- A message is taken: an EXCHANGE_RECV charge starts on it (R344). -/
def Dev.takeMsg (d : Dev) (me exch stage sender : Nat) (pt : Nat × Nat) : Dev :=
  let d1 := d.rflowUpd me sender exch stage (fun f => { f with taken := if ptLe pt f.taken then f.taken else some pt })
  match d1.rflow me sender exch stage with | some f => d1.flowAck f | none => d1

/-- A message is consumed (R344, R519). -/
def Dev.consumeMsg (d : Dev) (me exch stage sender : Nat) (pt : Nat × Nat) : Dev :=
  match d.rflow me sender exch stage with
  | some f =>
    if ptLe pt f.consumed then d
    else let g := { f with consumed := some pt }; (d.rflowUpd me sender exch stage (fun _ => g)).flowAck g
  | none => d

/-- CLOSE to every peer of a query's exchanges (R354). -/
def Dev.closeExchanges (d : Dev) (q : Query) (reason : Nat) : Dev :=
  let me := d.qNode q
  (List.range q.image.stages.length).foldl (fun d i =>
    let op := (q.image.stages.getD i {}).op
    if op ≠ 0x11 ∧ op ≠ 0x12 then d
    else
      let peers := ((if op = 0x11 then q.sendMap i else q.senders i).eraseDups).filter (fun n => !d.isMe n)
      let d1 := peers.foldl (fun d n => (d.needAssoc n me).vxpSend n me 10 0 [] (natLE 4 (q.exch i) ++ natLE 2 reason ++ zeros 2) 0) d
      { d1 with fab := { d1.fab with
        sflows := d1.fab.sflows.filter (fun f => f.query != q.id)
        rflows := if op = 0x12 then d1.fab.rflows.filter (fun f => !(f.me == me && f.exch == q.exch i && f.stage == q.sendStage i)) else d1.fab.rflows
        done := d1.fab.done ++ [(q.exch i, q.sendStage i, d1.timeUs)] } }) d

end Sys2Proof.Machine
end

