-- ==== Sys2Proof/Machine/Commit.lean ====
section
/-!
DEFINITION. Sys2Proof/Machine/Commit.lean: writing rows as extents (R54, R55, R102, R430), and the commit protocol (R422 to R431).
-/
namespace Sys2Proof.Machine

/-! ### Extents from rows -/

/-- The rows of the first page of a list (R81, notes/assumptions/40.md): as many as fit with their validity bitmap in the longest form that the
setting can give them. No encoding is longer than PLAIN but a named RLE, which adds a run length to each row of a run of its own; 32 bytes
stand for the padding of the arrays and the check value of R98. -/
def pageTake (t : SlotTy) (setting : Nat) : Nat → Nat → List Val → Nat
  | _, _, [] => 0
  | n, bytes, v :: r =>
    let b := bytes + (if setting = 2 then 4 else 0) + (match t.width with | some w => if t.ty = .bool then 1 else w | none => 4 + (v.getD []).length)
    if 1048576 ≤ n || (0 < n && 65344 < b + ceilDiv (n + 1) 8 + 32) then 0 else 1 + pageTake t setting (n + 1) b r

/-- Rows cut into pages. -/
def cutPages (t : SlotTy) (setting : Nat) : Nat → List Val → List (List Val)
  | 0, _ => []
  | _, [] => []
  | fuel + 1, l => let n := max 1 (pageTake t setting 0 0 l); l.take n :: cutPages t setting fuel (l.drop n)

/-- The place of the first NaN of a dictionary. -/
def nanFirst (t : ColType) (dict : List Bytes) : Nat := (dict.findIdx? (isNaNVal t)).getD dict.length

/-- How many dictionary pages the next extent has: the fewest that hold the values of the data pages left beside them, at most 4, or 15
for a column set to DICT; 0 without a dictionary (R102, R430). -/
def dictCount (t : SlotTy) (ordered : Bool) (setting : Nat) (pages : List (List Val)) : Nat :=
  if !(setting == 1 || setting == 0xFF || setting == 5) || !encAllowed t.ty 1 then 0
  else
    let most := if setting == 1 then 15 else 4
    (((List.range most).map (· + 1)).find? (fun k =>
      decide ((dictPages t (dictOf t.ty ordered ((pages.take (16 - k)).flatten))).length ≤ k))).getD 0

/-- The extents of one column's rows. -/
def colExtents (ts table : Nat) (c : Column) (epoch : Nat) : Nat → Nat → Nat → List (List Val) → List Extent
  | 0, _, _, _ => []
  | _, _, _, [] => []
  | fuel + 1, num, first, pages =>
    let k := dictCount c.ty c.dictOrd c.enc pages
    let mine := pages.take (16 - k)
    let dict := if k = 0 then [] else dictOf c.ty.ty c.dictOrd mine.flatten
    let dp := if k = 0 then [] else dictPages c.ty dict
    let pid := fun (i r : Nat) => ({ ts := ts, table := table, col := c.id, ty := c.ty, idx := i, firstRow := r, epoch := epoch, extent := num } : PageId)
    let dbytes := (List.range dp.length).map (fun i =>
      mkDictPage (pid i first) c.dictOrd (i + 1 == dp.length) ((dp.take i).map List.length).sum dict.length (nanFirst c.ty.ty dict) (dp.getD i []))
    let data := (List.range mine.length).map (fun i =>
      let r := first + ((mine.take i).map List.length).sum
      (r, mkPage (pid (dp.length + i) r) dict c.enc (mine.getD i [])))
    let rows := mine.flatten.length
    { num := num, table := table, col := c.id, firstRow := first, rows := rows, create := epoch, dict := dict, dictPages := dbytes, pages := data } ::
      colExtents ts table c epoch fuel (num + 1) (first + rows) (pages.drop (16 - k))

/-- The extents of rows of a table, column by column in ascending column_id. -/
def rowExtents (ts : Nat) (t : Table) (at_ epoch first num : Nat) (rows : List (List Val)) : List Extent :=
  if rows.isEmpty then []
  else
    let cols := ((t.cols.filter (·.live at_)).mergeSort (fun a b => decide (a.id ≤ b.id)))
    ((List.range cols.length).foldl (fun (acc : List Extent) i =>
      let c := cols.getD i { id := 0, ty := default }
      let pages := cutPages c.ty c.enc rows.length (rows.map (fun r => r.getD i none))
      acc ++ colExtents ts t.id c epoch (pages.length + 1) (num + acc.length) first pages) [])

/-! ### Stripe rows (R74, R78) -/

/-- The lowest free stripe row of a group. -/
def SGroup.freeRow (g : SGroup) : Option Nat := (List.range g.rows).find? (fun r => !g.used.contains r && !g.spill.any (fun s => s.1 == r) && !g.trim.any (fun s => s.1 == r))

/-- A stripe row for an extent: the lowest free row, groups in turn (R78). The specification gives no formula by which AUTONOMOUS policy weighs
fill level and drive load, and the model takes this choice under both policies (DESIGN CHOICE, notes/assumptions/148.md). -/
def pickRow (groups : List SGroup) (scheme turn : Nat) : Option (Nat × Nat) :=
  let gs := groups.filter (fun g => g.scheme == scheme && decide (g.failed.length ≤ schemeM scheme) && decide (0 < g.rows))
  let order := (List.range gs.length).map (fun i => (turn + i) % max 1 gs.length)
  (order.filterMap (fun i => (gs[i]?).bind (fun g => g.freeRow.map (fun r => (g.id, r))))).head?

/-- Rows chosen for a list of extents; none when the groups run out (CAPACITY_EXHAUSTED). -/
def placeExtents : List SGroup → Nat → List Extent → Option (List SGroup × List Extent)
  | gs, _, [] => some (gs, [])
  | gs, scheme, x :: xs =>
    match pickRow gs scheme x.num with
    | none => none
    | some (g, r) =>
      (placeExtents (updWhere (fun q => q.id == g) (fun q => { q with used := q.used ++ [r] }) gs) scheme xs).map (fun p =>
        (p.1, { x with group := g, row := r } :: p.2))

/-- The drive of a position of a group. -/
def Dev.memberOf (d : Dev) (g pos : Nat) : Option Nat :=
  match d.store.groups.find? (fun q => q.id == g) with
  | some q => if q.failed.contains pos then none else q.members[pos]?
  | none => none
/-- The rebuild that runs or waits at a position of a group (R447). -/
def Dev.rebuildOf (d : Dev) (g pos : Nat) : Option Rebuild := d.store.rebuilds.find? (fun r => r.group == g && r.pos == pos)
/-- Where the strip of a row at a position is read: its member, or the new member below the rebuild's cursor; a reinserted member's other
rows stand as they are (R447, R594). -/
def Dev.memberRead (d : Dev) (g pos row : Nat) : Option Nat :=
  match d.memberOf g pos with
  | some m => some m
  | none => (d.rebuildOf g pos).bind (fun r => if row < r.next || (!r.rows.isEmpty && !r.rows.contains row) then some r.drive else none)
/-- Strips of a row that are lost: on failed members and not yet rewritten (R593). -/
def Dev.lostStrips (d : Dev) (g row : Nat) : Nat :=
  match d.store.groups.find? (fun q => q.id == g) with
  | some q => (q.failed.filter (fun p => (d.memberRead g p row).isNone)).length
  | none => 0
/-- Whether a row is beyond parity. -/
def Dev.beyond (d : Dev) (g row : Nat) : Bool :=
  match d.store.groups.find? (fun q => q.id == g) with
  | some q => decide (schemeM q.scheme < d.lostStrips g row)
  | none => false
/-- Where the strip of a new row is written (R446, R447). -/
def Dev.memberWrite (d : Dev) (g pos : Nat) : Option Nat :=
  match d.memberOf g pos with
  | some m => some m
  | none => (d.rebuildOf g pos).map (·.drive)

def Dev.drive (d : Dev) (i : Nat) : Drive := tabGet {} d.store.drives i
def Dev.driveUpd (d : Dev) (i : Nat) (f : Drive → Drive) : Dev := { d with store := { d.store with drives := tabUpd {} d.store.drives i f } }
def Dev.dcmd (d : Dev) (n : Nat) : Option DCmd := d.store.dcmds.find? (fun c => c.id == n)
def Dev.dcmdUpd (d : Dev) (n : Nat) (f : DCmd → DCmd) : Dev := { d with store := { d.store with dcmds := updWhere (fun c => c.id == n) f d.store.dcmds } }

/-- A label written to its drive with the next label_seq (R428). -/
def Dev.writeLabel (d : Dev) (i : Nat) (f : Label → Label) : Dev :=
  let l := (d.drive i).label.getD {}
  (d.driveUpd i (fun k => { k with label := some { f l with seq := l.seq + 1 } })).send (.driveAdmin i 6 (f l).pair)

/-- The time limit of a drive command in ms (R445): that of DRV_CTRL, or 5 s for an admin command. -/
def Dev.cmdLimit (d : Dev) (use : DriveUse) : Nat := if use == .power then 5000 else d.regField 0x02900000 15 0

/-- A drive command goes to its drive, and its time limit begins on delay list 1. -/
def Dev.putCmd (d : Dev) (n : Nat) (use : DriveUse) : Dev := (d.delay 1 (100 * d.cmdLimit use) n).send (.drive n)

/-- A drive command issued (R421): its number is new; while its drive returns to power state 0 it waits, and its time limit with it (R441). -/
def Dev.driveCmd (d : Dev) (c : DCmd) : Dev :=
  let n := d.store.nextCmd
  let wait := c.use != .power && (d.drive c.drive).waking
  let d1 : Dev := { d with store := { d.store with dcmds := d.store.dcmds ++ [{ c with id := n, issued := d.timeUs, held := wait }], nextCmd := n + 1 } }
  if wait then d1 else d1.putCmd n c.use

/-- A drive command sent once more, with a new time limit; `f` is what changes of it. -/
def Dev.resend (d : Dev) (c : DCmd) (f : DCmd → DCmd) : Dev :=
  let wait := c.use != .power && (d.drive c.drive).waking
  let d1 := (d.undelay 1 c.id).dcmdUpd c.id (fun k => { f k with issued := d.timeUs, held := wait })
  if wait then d1 else d1.putCmd c.id c.use

/-- The commands that waited for a drive's power state go out, and their time limits begin (R441). -/
def Dev.releaseHeld (d : Dev) (i : Nat) : Dev :=
  (d.store.dcmds.filter (fun c => c.held && c.drive == i)).foldl (fun d c =>
    (d.dcmdUpd c.id (fun k => { k with held := false, issued := d.timeUs })).putCmd c.id c.use) d

/-- In Idle each drive is set to the power state of DRV_CTRL idle_ps (R441). -/
def Dev.idleDrives (d : Dev) : Dev :=
  let ps := d.regField 0x02900000 27 24
  if d.pwr.mode ≠ 3 then d
  else ((d.store.drives.filter (fun p => p.2.link && p.2.ps != ps)).map (·.1)).foldl (fun d i =>
    (d.send (.driveAdmin i 9 ps)).driveUpd i (fun k => { k with ps := ps })) d

/-- Outside Idle each drive returns to power state 0 (R441). -/
def Dev.wakeDrives (d : Dev) : Dev :=
  ((d.store.drives.filter (fun p => p.2.link && p.2.ps != 0 && !p.2.waking)).map (·.1)).foldl (fun d i =>
    (d.driveCmd { id := 0, drive := i, write := false, use := .power }).driveUpd i (fun k => { k with waking := true })) d

/-- Blocks of a strip (R75). -/
def stripBlocks (scheme : Nat) : Nat := match scheme with | 0 => 64 | 1 => 32 | _ => 16

/-- The scheme of a group. -/
def Dev.schemeOf (d : Dev) (g : Nat) : Nat := match d.store.groups.find? (fun q => q.id == g) with | some q => q.scheme | none => 1

/-- The writes of a whole stripe row (R77, R422): of each data strip its used page slots, and by Write Zeroes its unused ones; each parity
strip in full. -/
def Dev.writeRow (d : Dev) (scheme group row slots : Nat) (use : DriveUse) : Dev :=
  let k := schemeK scheme
  let sb := stripBlocks scheme
  (List.range (k + schemeM scheme)).foldl (fun d s =>
    let pos := (s + row) % (k + schemeM scheme)
    match d.memberWrite group pos with
    | some dr =>
      let n := if s < k then min sb (16 * slots - sb * s) else sb
      let c : DCmd := { id := 0, drive := dr, write := true, lba := 16384 + row * sb, blocks := n, use := use, group := group, row := row, pos := pos }
      let d1 := if n = 0 then d else d.driveCmd c
      if n = sb then d1 else d1.driveCmd { c with lba := c.lba + n, blocks := sb - n, zeros := true }
    | none => d) d

/-- The writes of an extent (R422). -/
def Dev.writeExtent (d : Dev) (scheme ts epoch : Nat) (x : Extent) : Dev := d.writeRow scheme x.group x.row x.slots (.commitData ts epoch)

/-- The range of a read asked of as many other strips of its row as it still takes to rebuild it (R444 step 3); none where too few are left. -/
def Dev.askStrips (d : Dev) (c : DCmd) : Option Dev :=
  match d.store.groups.find? (fun g => g.id == c.group) with
  | none => none
  | some g =>
    let live := (List.range (schemeK g.scheme + schemeM g.scheme)).filter (fun p => p != c.pos && !c.tried.contains p && (d.memberRead c.group p c.row).isSome)
    let need := schemeK g.scheme - c.tried.length
    if live.length < need then none
    else
      let now := live.take need
      let d1 := (if c.retry < 3 then d.bump 0x0290000C 1 else d).undelay 1 c.id
      let d2 : Dev := { d1 with store := { d1.store with
        dcmds := updWhere (fun k => k.id == c.id) (fun k => { k with retry := 3, waiting := false, tried := k.tried ++ now }) d1.store.dcmds } }
      some (now.foldl (fun d p => match d.memberRead c.group p c.row with
        | some dr => d.driveCmd { id := 0, drive := dr, write := false, lba := c.lba, blocks := c.blocks, use := .recon c.id, group := c.group, row := c.row, pos := p }
        | none => d) d2)

/-! ### The protocol (R422) -/

/-- Rows returned to the free pool (R423). -/
def freeRows (gs : List SGroup) (xs : List Extent) : List SGroup :=
  gs.map (fun g => { g with used := g.used.filter (fun r => !xs.any (fun x => x.group == g.id && x.row == r)) })

/-- The rows of a commit that fails wait for their deallocation (R423). -/
def trimLater (gs : List SGroup) (ts : Nat) (xs : List Extent) : List SGroup :=
  (freeRows gs xs).map (fun g => { g with trim := g.trim ++ ((xs.filter (fun x => x.group == g.id)).map (fun x => (x.row, ts))) })

/-- The strips of a stripe row deallocated by Dataset Management (R423, R576). -/
def Dev.trimRow (d : Dev) (g row : Nat) : Dev :=
  let sc := d.schemeOf g
  ((List.range (schemeK sc + schemeM sc)).filterMap (d.memberOf g)).foldl (fun d i => d.send (.driveTrim i (16384 + row * stripBlocks sc) (stripBlocks sc))) d

/-- The rows that wait for deallocation under a table space, and those whose table space is gone. -/
def Dev.trimsOf (d : Dev) (ts : Nat) (g : SGroup) : List (Nat × Nat) := g.trim.filter (fun p => p.2 == ts || (d.space p.2).isNone)
/-- They are deallocated, and free (R423). -/
def Dev.trimRows (d : Dev) (ts : Nat) : Dev :=
  let d1 := d.store.groups.foldl (fun d g => (d.trimsOf ts g).foldl (fun d p => d.trimRow g.id p.1) d) d
  { d1 with store := { d1.store with groups := d.store.groups.map (fun g => { g with trim := g.trim.filter (fun p => !(d.trimsOf ts g).contains p) }) } }

def Dev.commitOf (d : Dev) (ts epoch : Nat) : Option Commit := d.store.commits.find? (fun c => c.ts == ts && c.epoch == epoch)
def Dev.commitUpd (d : Dev) (ts epoch : Nat) (f : Commit → Commit) : Dev :=
  { d with store := { d.store with commits := updWhere (fun c => c.ts == ts && c.epoch == epoch) f d.store.commits } }

/-- The live members that hold a record's copies: the first m + 1 in position order (R424). -/
def Dev.recordDrives (d : Dev) (g : Nat) : List Nat :=
  match d.store.groups.find? (fun q => q.id == g) with
  | some q => ((List.range q.members.length).filterMap (fun p => if q.failed.contains p then none else q.members[p]?)).take (schemeM q.scheme + 1)
  | none => []

/-- The journal ring of this twin in a group. -/
def Dev.journal (d : Dev) (g : Nat) : Option Journal := d.store.journals.find? (fun j => j.group == g && j.twin == d.twin.pos)
def Dev.journalUpd (d : Dev) (g : Nat) (f : Journal → Journal) : Dev :=
  let d1 : Dev := if (d.journal g).isSome then d else { d with store := { d.store with journals := d.store.journals ++ [{ group := g, twin := d.twin.pos }] } }
  { d1 with store := { d1.store with journals := updWhere (fun j => j.group == g && j.twin == d.twin.pos) f d1.store.journals } }
/-- Blocks of a ring that records still occupy (Table 14.1: 6,144 blocks). -/
def Journal.usedBlocks (j : Journal) : Nat := (j.recs.map (fun r => r.2.1)).sum

/-- Where a record of some blocks goes in a ring, and the blocks it takes: one that would pass the last block begins at the first, and the
skipped blocks are left unused (R429). -/
def Journal.place (j : Journal) (blocks : Nat) : Nat × Nat := if j.head + blocks ≤ 6144 then (j.head, blocks) else (0, blocks + (6144 - j.head))
/-- A record added to a ring. -/
def Journal.add (j : Journal) (kind blocks ts epoch : Nat) : Journal :=
  let p := j.place blocks
  { j with head := (p.1 + blocks) % 6144, seq := j.seq + 1, clean := decide (kind = 9), recs := j.recs ++ [(kind, p.2, ts, epoch)] }
/-- Whether a record finds ring space (DEDUCED, notes/assumptions/53.md). -/
def Dev.ringFits (d : Dev) (g blocks : Nat) : Bool :=
  match d.journal g with
  | some j => decide (j.usedBlocks + (j.place blocks).2 ≤ 6144)
  | none => true
/-- The writes of a record's copies to the ring of a group. -/
def Dev.writeRecord (d : Dev) (g kind blocks ts epoch : Nat) (use : DriveUse) : Dev :=
  let lba := 4096 + 6144 * d.twin.pos + (match d.journal g with | some j => (j.place blocks).1 | none => 0)
  ((d.recordDrives g).foldl (fun d dr => d.driveCmd { id := 0, drive := dr, write := true, lba := lba, blocks := blocks, use := use, group := g }) d).journalUpd g
    (fun j => j.add kind blocks ts epoch)

/-- The directory extents that a table space's catalog asks for: the headers of each column's extents, 256 to each (R61). -/
def TSpace.wantDirs (s : TSpace) : List DirExt :=
  (((s.extents.map (fun x => (x.table, x.col))).eraseDups).map (fun k =>
    let l := (s.extents.filter (fun x => x.table == k.1 && x.col == k.2)).map (fun x => (x.num, x.retire))
    (List.range (ceilDiv l.length 256)).map (fun i => ({ table := k.1, col := k.2, heads := (l.drop (256 * i)).take 256 } : DirExt)))).flatten

/-- The directory extents of a table space that have changed, rewritten whole into free stripe rows of its home group, and the rows of those
they replace freed (R431); what finds no row is served from the catalog copy alone (DEDUCED, notes/assumptions/150.md). -/
def Dev.rewriteDirs (d : Dev) (s : TSpace) : Dev :=
  let kept := fun (f : DirExt) => s.dirs.find? (fun o => o.table == f.table && o.col == f.col && o.heads == f.heads && o.group == s.home)
  let next := (TSpace.wantDirs s).foldl (fun (acc : Dev × List DirExt) f =>
    match kept f, acc.1.store.groups.find? (fun q => q.id == s.home) with
    | some o, _ => (acc.1, acc.2 ++ [o])
    | none, some q =>
      (match q.freeRow with
       | some r =>
         let q1 : SGroup := { q with used := q.used ++ [r], missed := q.missed ++ q.failed.map (fun p => (p, r)) }
         let d1 : Dev := { acc.1 with store := { acc.1.store with groups := updWhere (fun k => k.id == q.id) (fun _ => q1) acc.1.store.groups } }
         (d1.writeRow q.scheme q.id r (ceilDiv f.heads.length 16) .journal, acc.2 ++ [{ f with group := q.id, row := r }])
       | none => acc)
    | none, none => acc) (d, [])
  let gone := s.dirs.filter (fun o => !next.2.contains o)
  let d1 := next.1.spaceUpd s.id (fun k => { k with dirs := next.2 })
  { d1 with store := { d1.store with groups := d1.store.groups.map (fun q => { q with used := q.used.filter (fun r => !gone.any (fun o => o.group == q.id && o.row == r)) }) } }

/-- A CHECKPOINT record written after the directory extents and the catalog (R431): the ring space of every record before it is free, but for
records whose copies are still being written. -/
def Dev.checkpoint (d0 : Dev) (g : Nat) : Dev :=
  let d := (d0.store.spaces.filter (fun s => s.home == g && d0.owns s.id)).foldl Dev.rewriteDirs d0
  let open_ := fun (r : Nat × Nat × Nat × Nat) => d.store.commits.any (fun c => c.ts == r.2.2.1 && c.epoch == r.2.2.2 && c.st == .recording)
  (d.journalUpd g (fun j => { j with recs := j.recs.filter open_, last := d.timeUs })).writeRecord g 6 2 0 0 .journal

/-- A RESERVE record written to the ring of a home group (R425): the epoch it is for waits for its copies. -/
def Dev.writeReserve (d : Dev) (ts epoch home : Nat) : Dev :=
  if d.ringFits home 2 then d.writeRecord home 5 2 ts epoch (.commitData ts epoch)
  else ((d.bump 0x02900014 1).checkpoint home).writeRecord home 5 2 ts epoch (.commitData ts epoch)

/-- An epoch allocated (R64, R425): the reserve rises in blocks of 4,096; none when no epoch remains (R65). -/
def Dev.allocEpoch (d : Dev) (ts : Nat) : Option (Nat × Dev) :=
  match d.space ts with
  | none => none
  | some s =>
    if maxEpoch ≤ s.lastEpoch then none
    else
      let e := s.lastEpoch + 1
      let d1 := d.spaceUpd ts (fun s => { s with lastEpoch := e, open_ := s.open_ ++ [e], reserved := if s.reserved < e then s.reserved + 4096 else s.reserved })
      some (e, if s.reserved < e then d1.writeReserve ts e s.home else d1)

/-- C after some epochs have closed (R64): the highest with none open at or below it. -/
def TSpace.visibleNow (s : TSpace) : Nat := (lowest (s.lastEpoch + 1) s.open_) - 1

/-- What a commit tells a command when it fails before its point of no return (R423). -/
structure CommitFail where
  status : Nat
  r0 : Nat := 0
  detail : Nat := 0
  reason : Nat := 0
deriving DecidableEq, Repr, Inhabited

/-- A new commit: epoch, row numbers, stripe rows and data writes; or the status that refuses it. `mk` builds the extents from the epoch,
the first row number and the first extent number of the table; `slag` those of the slag table (DEDUCED, notes/assumptions/49.md). -/
def Dev.beginCommit (d : Dev) (ts : Nat) (use : CommitFor) (kind table bound rows slagRows : Nat) (retireAll : Bool) (retired : List Nat)
    (change : Option CatChange) (mk : Nat → Nat → Nat → List Extent) (mkSlag : Nat → Nat → Nat → List Extent) : Except Nat Dev :=
  match d.space ts with
  | none => .error 0x2002
  | some s =>
    if d.locked s then .error 0x6003 else
    match d.allocEpoch ts with
    | none => .error 0x4003
    | some (e, d1) =>
      let rowOf := fun (t : Nat) => match s.tables.find? (fun x => x.id == t) with | some x => x.nextRow | none => 0
      let first := rowOf table
      let xs := mk e first s.nextExtent
      let ys := mkSlag e (rowOf (slagId table)) (s.nextExtent + xs.length)
      let all := xs ++ ys
      let mine := d.store.spaces.filter (fun k => k.x == s.x)
      let used := (mine.map (fun k => k.extents.length)).sum + ((d.store.commits.filter (fun c => mine.any (fun k => k.id == c.ts))).map (fun c => c.created.length)).sum
      if 4096 < all.length || 4096 < retired.length || decide (2 ^ 48 < first + rows) || decide (2 ^ 48 < rowOf (slagId table) + slagRows) ||
          decide (2 ^ 40 < s.nextExtent + all.length) then .error 0x4001
      else if (d.share s.x).driveMib < used + all.length then .error 0x4004
      else
        let scheme := match change with | some (.rehome sc _) => sc | _ => s.scheme
        match placeExtents d.store.groups scheme all with
        | none => .error 0x4004
        | some (gs, placed) =>
          let c : Commit :=
            { ts := ts, epoch := e, use := use, writer := d.twin.pos, table := table, rows := rows, slag := slagRows, created := placed, retired := retired
              retireAll := retireAll, kind := kind, bound := bound, firstRow := first, slagFirst := rowOf (slagId table), change := change
              blocks := 2 + placed.length + ceilDiv retired.length 256 }
          let d2 := d1.spaceUpd ts (fun s => { s with
            nextExtent := s.nextExtent + placed.length
            tables := s.tables.map (fun t =>
              if t.id = table then { t with nextRow := t.nextRow + rows } else if t.id = slagId table then { t with nextRow := t.nextRow + slagRows } else t) })
          let miss := fun (g : SGroup) => { g with missed := g.missed ++ ((placed.filter (fun x => x.group == g.id)).map (fun x =>
            g.failed.map (fun p => (p, x.row)))).flatten }
          let d3 : Dev := { d2 with store := { d2.store with groups := gs.map miss, commits := d2.store.commits ++ [c] } }
          let n0 := d.store.nextCmd
          let d4 := placed.foldl (fun d x => d.writeExtent scheme ts e x) d3
          .ok (d4.commitUpd ts e (fun c => { c with waits := (List.range (d4.store.nextCmd - n0)).map (n0 + ·) }))

/-- A commit that fails before its point of no return (R423): its epoch is abandoned and its stripe rows return by deallocation. -/
def Dev.abandonCommit (d : Dev) (c : Commit) : Dev :=
  let d0 := d.dropCmds (fun k => k.use == .commitData c.ts c.epoch || k.use == .commitRecord c.ts c.epoch)
  let d1 : Dev := { d0 with store := { d0.store with
    commits := d0.store.commits.filter (fun k => !(k.ts == c.ts && k.epoch == c.epoch)), groups := trimLater d0.store.groups c.ts c.created } }
  d1.spaceUpd c.ts (fun s => { s with open_ := s.open_.filter (· != c.epoch) })

/-- The record's writes to m + 1 members (R422): the point of no return. -/
def Dev.issueRecord (d : Dev) (c : Commit) (home : Nat) : Dev :=
  let n0 := d.store.nextCmd
  let d2 := d.writeRecord home c.kind c.blocks c.ts c.epoch (.commitRecord c.ts c.epoch)
  let d3 := d2.commitUpd c.ts c.epoch (fun c => { c with st := .recording, waitsRing := false, waits := (List.range (d2.store.nextCmd - n0)).map (n0 + ·) })
  match c.use with
  | .ingest x q cid => d3.cmdUpd x q cid (fun k => { k with past := true })
  | .store qid => (match d3.query qid with | some q => d3.cmdUpd q.x q.q q.cid (fun k => { k with past := true }) | none => d3)
  | _ => d3

/-- The slag table of a table (R79). -/
def slagOf (t : Table) : Table := { id := slagId t.id, cols := slagCols.map (fun c => { c with added := t.create }), create := t.create }

/-- The tables after a catalog change at an epoch. -/
def applyChange (e : Nat) (ts : List Table) : CatChange → List Table
  | .create t => let t1 := { t with create := e, cols := t.cols.map (fun c => { c with added := e }) }; ts ++ [t1, slagOf t1]
  | .drop id => updWhere (fun t => (t.id == id || t.id == slagId id) && t.drop == 0) (fun t => { t with drop := e }) ts
  | .alter id add dr => updWhere (fun t => t.id == id && t.drop == 0) (fun t =>
      { t with cols := (updWhere (fun c => dr.contains c.id && c.dropped == 0) (fun c => { c with dropped := e }) t.cols) ++ add.map (fun c => { c with added := e }) }) ts
  | .remove => updWhere (fun t => t.drop == 0) (fun t => { t with drop := e }) ts
  | .erase => updWhere (fun t => t.drop == 0) (fun t => { t with drop := e }) ts
  | .check id im => updWhere (fun t => t.id == id && t.drop == 0) (fun t => { t with check := im }) ts
  | .rehome _ _ => ts
  | .space _ => ts
  | .group _ => ts

/-- Whether an extent is retired by a commit (R50, R66, R426). -/
def Commit.retires (c : Commit) (x : Extent) : Bool :=
  x.retire == 0 && ((c.retireAll && x.table == c.table && decide (x.create < c.epoch)) || c.retired.contains x.num ||
    (match c.change with
      | some (.drop id) => x.table == id || x.table == slagId id
      | some (.alter id _ dr) => x.table == id && dr.contains x.col
      | some .remove => true
      | some .erase => true
      | _ => false))

/-- The command a commit is for, as its record names it (Table 14.2): function, queue, command. -/
def Dev.commitWho (d : Dev) (c : Commit) : Nat × Nat × Nat :=
  match c.use with
  | .ingest x q cid => (fnCode x, q, cid)
  | .partner x q cid => (fnCode x, q, cid)
  | .store id => (match d.qry.queries.find? (fun q => q.id == id) with | some q => (fnCode q.x, q.q, q.cid) | none => (0, 0xFFFF, 0))
  | .catalog x => (fnCode x, 0xFFFF, 0)
  | .rx4 tag => (0, 0xFFFE, tag % 65536)
  | .relayout _ => (0, 0xFFFF, 0)
  | .device f q cid => (f, q, cid)

/-- The epoch at which a commit's own extent is retired by truncations, REPLACEs and drops of higher epoch that came before it, or 0 (R426). -/
def TSpace.laterRetire (s : TSpace) (e : Nat) (x : Extent) : Nat :=
  let of := (s.tables.filter (fun t => t.id == x.table)).map (fun t =>
    t.drop :: t.cleared ++ (t.cols.filter (fun k => k.id == x.col)).map (·.dropped))
  match (of.flatten.filter (fun k => decide (e < k))).min? with | some k => k | none => 0

/-- The catalog of a table space with a commit applied (R66, R420); C rises when no lower epoch is open (R64). -/
def TSpace.applyCommit (s : TSpace) (c : Commit) (who : Nat × Nat × Nat) (opSec : Nat) : TSpace :=
  let rec_ : CommitRec :=
    { epoch := c.epoch, kind := c.kind, table := c.table, rows := c.rows, slag := c.slag, fn := who.1, queue := who.2.1, cid := who.2.2, seconds := opSec, writer := c.writer }
  let s1 : TSpace := { s with
    extents := updWhere c.retires (fun x => { x with retire := c.epoch }) s.extents ++
      c.created.map (fun x => { x with retire := s.laterRetire c.epoch x })
    tables := let ts := match c.change with | some ch => applyChange c.epoch s.tables ch | none => s.tables
      if c.retireAll then updWhere (fun t => t.id == c.table) (fun t => { t with cleared := t.cleared ++ [c.epoch] }) ts else ts
    open_ := s.open_.filter (· != c.epoch)
    history := s.history ++ [rec_] }
  let s2 : TSpace := match c.change with
    | some (.rehome sc (some h)) => { s1 with scheme := sc, home := h }
    | some .remove => { s1 with deleting := true }
    | some .erase => { s1 with deleting := true, key := 0, keyCheck := [] }
    | _ => s1
  { s2 with visible := max s.visible s1.visibleNow }

/-- A commit applied to its table space; the record of a secure erase takes the key from the secure SRAM of each twin (R576). -/
def Dev.applyRec (d : Dev) (c : Commit) : Dev :=
  let ref := match c.change, d.space c.ts with | some .erase, some s => s.key | _, _ => 0
  let d1 : Dev := if ref = 0 then d else { d with sec := { d.sec with keys := d.sec.keys.filter (fun k => k.ref != ref) } }
  d1.spaceUpd c.ts (fun s => s.applyCommit c (d.commitWho c) d.opSec)

end Sys2Proof.Machine
end

