-- ==== Sys2Proof/Machine/Frames.lean ====
section
/-!
DEFINITION. Sys2Proof/Machine/Frames.lean: Zstandard and LZ4 frames of an ingest or a COMPRESS (03_encodings.md R103 to R105, Tables 3.5
and 3.6). Field places and checks that the specification takes from the formats' own standards are PRESUMED (notes/assumptions/46.md); the
content of a Zstandard Compressed block is the free Config.zstdBlock.
-/
namespace Sys2Proof.Machine

/-! ### The checksums of the two formats -/

/-- A left rotation of a w-bit number. -/
def rotN (w k x : Nat) : Nat := (x * 2 ^ k % 2 ^ w) ||| (x % 2 ^ w / 2 ^ (w - k))

/-- The five primes of a checksum of 8w bits and the shape of its mixing. -/
structure XxForm where
  w : Nat
  p1 : Nat
  p2 : Nat
  p3 : Nat
  p4 : Nat
  p5 : Nat
  lane : Nat
  merges : List Nat
  last : Nat × Nat × Nat

def xx32 : XxForm := ⟨32, 0x9E3779B1, 0x85EBCA77, 0xC2B2AE3D, 0x27D4EB2F, 0x165667B1, 13, [1, 7, 12, 18], (15, 13, 16)⟩
def xx64 : XxForm :=
  ⟨64, 0x9E3779B185EBCA87, 0xC2B2AE3D27D4EB4F, 0x165667B19E3779F9, 0x85EBCA77C2B2AE63, 0x27D4EB2F165667C5, 31, [1, 7, 12, 18], (33, 29, 32)⟩

def XxForm.mul (f : XxForm) (a b : Nat) : Nat := a * b % 2 ^ f.w
def XxForm.add (f : XxForm) (a b : Nat) : Nat := (a + b) % 2 ^ f.w
/-- One lane of an accumulator takes a word. -/
def XxForm.round (f : XxForm) (acc x : Nat) : Nat := f.mul (rotN f.w f.lane (f.add acc (f.mul x f.p2))) f.p1

/-- The four lanes over whole stripes. -/
def XxForm.stripes (f : XxForm) : Nat → List Nat → Bytes → List Nat
  | 0, acc, _ => acc
  | n + 1, acc, b =>
    let k := f.w / 8
    f.stripes n ((List.range 4).map (fun i => f.round (acc.getD i 0) (fieldAt b (k * i) k))) (b.drop (4 * k))

/-- The words, half words and bytes after the last whole stripe. -/
def XxForm.tail (f : XxForm) : Nat → Nat → Bytes → Nat
  | 0, h, _ => h
  | n + 1, h, b =>
    if b.isEmpty then h
    else if f.w = 64 ∧ 8 ≤ b.length then
      f.tail n (f.add (f.mul (rotN 64 27 (h ^^^ f.round 0 (fieldAt b 0 8))) f.p1) f.p4) (b.drop 8)
    else if 4 ≤ b.length then
      f.tail n (if f.w = 64 then f.add (f.mul (rotN 64 23 (h ^^^ f.mul (fieldAt b 0 4) f.p1)) f.p2) f.p3
        else f.mul (rotN 32 17 (f.add h (f.mul (fieldAt b 0 4) f.p3))) f.p4) (b.drop 4)
    else
      f.tail n (if f.w = 64 then f.mul (rotN 64 11 (h ^^^ f.mul (fieldAt b 0 1) f.p5)) f.p1
        else f.mul (rotN 32 11 (f.add h (f.mul (fieldAt b 0 1) f.p5))) f.p1) (b.drop 1)

/-- The checksum of some bytes with seed 0. -/
def XxForm.hash (f : XxForm) (b : Bytes) : Nat :=
  let k := f.w / 2
  let start := [f.add f.p1 f.p2, f.p2, 0, 2 ^ f.w - f.p1]
  let acc := f.stripes (b.length / k) start b
  let joined := ((List.range 4).map (fun i => rotN f.w (f.merges.getD i 0) (acc.getD i 0))).foldl f.add 0
  let h0 := if b.length < k then f.p5
    else if f.w = 64 then acc.foldl (fun h v => f.add (f.mul (h ^^^ f.round 0 v) f.p1) f.p4) joined else joined
  let h1 := f.tail b.length (f.add h0 b.length) (b.drop (k * (b.length / k)))
  let h2 := f.mul (h1 ^^^ (h1 / 2 ^ f.last.1)) f.p2
  let h3 := f.mul (h2 ^^^ (h2 / 2 ^ f.last.2.1)) f.p3
  h3 ^^^ (h3 / 2 ^ f.last.2.2)

/-! ### What a frame gives -/

/-- The result of one frame or block: what it decodes to, the blocks it took and the bytes after it; or a status. -/
abbrev FrameOut := Except Nat (Bytes × Nat × Bytes)

/-- A skippable frame passed over (Tables 3.5, 3.6). -/
def skipFrame (b : Bytes) : FrameOut := if b.length < 8 + fieldAt b 4 4 then .error 0x3008 else .ok ([], 0, b.drop (8 + fieldAt b 4 4))

/-- The content of a frame against its content size and checksum, where it has them. -/
def frameEnd (size : Option Nat) (sum : Option (XxForm × Nat)) (out : Bytes) (blocks : Nat) (rest : Bytes) : FrameOut :=
  if size.any (· != out.length) then .error 0x3005
  else match sum with
    | some (f, mask) => if rest.length < 4 || fieldAt rest 0 4 != f.hash out % mask then .error 0x3008 else .ok (out, blocks, rest.drop 4)
    | none => .ok (out, blocks, rest)

/-! ### Zstandard (R103) -/

/-- The blocks of a Zstandard frame, with those before (type, size, bytes) and the content so far. -/
def zstdBlocks (window : Nat) : Nat → List (Nat × Nat × Bytes) → Bytes → Bytes → FrameOut
  | 0, _, _, _ => .error 0x3008
  | n + 1, before, out, b =>
    let h := fieldAt b 0 3
    let ty := h / 2 % 4
    let size := h / 8
    let used := if ty = 1 then 1 else size
    if b.length < 3 + used || ty = 3 || min window 131072 < size then .error 0x3008
    else
      let body := sliceAt b 3 used
      let all := before ++ [(ty, size, body)]
      match (if ty = 0 then some body else if ty = 1 then some ((List.replicate size body).flatten) else Config.zstdBlock all) with
      | none => .error 0x3008
      | some x => if h % 2 = 1 then .ok (out ++ x, all.length, b.drop (3 + used)) else zstdBlocks window n all (out ++ x) (b.drop (3 + used))

/-- One Zstandard frame, from its magic on. -/
def zstdFrame (b : Bytes) : FrameOut :=
  let d := fieldAt b 4 1
  let single := bitOf d 5
  let wd := if single then 0 else 1
  let ids := [0, 1, 2, 4].getD (d % 4) 0
  let fcs := [if single then 1 else 0, 2, 4, 8].getD (d / 64) 0
  let at_ := 5 + wd + ids
  let size := if fcs = 0 then none else some (fieldAt b at_ fcs + if fcs = 2 then 256 else 0)
  let wb := fieldAt b 5 1
  let window := if single then size.getD 0 else 2 ^ (10 + wb / 8) + 2 ^ (10 + wb / 8) / 8 * (wb % 8)
  if b.length < at_ + fcs || bitOf d 3 then .error 0x3008
  else if 8388608 < window || fieldAt b (5 + wd) ids ≠ 0 then .error 0x3009
  else match zstdBlocks window b.length [] [] (b.drop (at_ + fcs)) with
    | .error e => .error e
    | .ok (out, n, rest) => frameEnd size (if bitOf d 2 then some (xx64, 2 ^ 32) else none) out n rest

/-! ### LZ4 (R104) -/

/-- A length that goes on in bytes of 255. -/
def lz4Len : Nat → Bytes → Option (Nat × Bytes)
  | _, [] => none
  | n, x :: r => if x.toNat = 255 then lz4Len (n + 255) r else some (n + x.toNat, r)

/-- A match copied byte by byte from a distance back. -/
def lz4Copy : Nat → Nat → Bytes → Bytes
  | 0, _, out => out
  | n + 1, off, out => lz4Copy n off (out ++ [out.getD (out.length - off) 0])

/-- The sequences of an LZ4 block; a match may reach back to place `from_` of the content. -/
def lz4Seqs (from_ : Nat) : Nat → Bytes → Bytes → Option Bytes
  | 0, _, _ => none
  | _, [], _ => none
  | n + 1, t :: r, out =>
    let long := fun (k : Nat) (b : Bytes) => if k = 15 then lz4Len 15 b else some (k, b)
    match long (t.toNat / 16) r with
    | none => none
    | some (lits, b) =>
      if b.length < lits then none
      else
        let out1 := out ++ b.take lits
        let b1 := b.drop lits
        if b1.isEmpty then some out1
        else
          let off := fieldAt b1 0 2
          if b1.length < 2 || off = 0 || out1.length - from_ < off then none
          else match long (t.toNat % 16) (b1.drop 2) with
            | none => none
            | some (len, b2) => lz4Seqs from_ n b2 (lz4Copy (len + 4) off out1)

/-- The blocks of an LZ4 frame, to its end mark. -/
def lz4Blocks (indep sums : Bool) (most : Nat) : Nat → Nat → Bytes → Bytes → FrameOut
  | 0, _, _, _ => .error 0x3008
  | n + 1, k, out, b =>
    let h := fieldAt b 0 4
    let size := h % 2 ^ 31
    let tail := if sums then 4 else 0
    if b.length < 4 then .error 0x3008
    else if h = 0 then .ok (out, k, b.drop 4)
    else if b.length < 4 + size + tail || most < size || (sums && fieldAt b (4 + size) 4 != xx32.hash (sliceAt b 4 size)) then .error 0x3008
    else match (if bitOf h 31 then some (out ++ sliceAt b 4 size) else lz4Seqs (if indep then out.length else 0) size (sliceAt b 4 size) out) with
      | none => .error 0x3008
      | some x => if most < x.length - out.length then .error 0x3008 else lz4Blocks indep sums most n (k + 1) x (b.drop (4 + size + tail))

/-- One LZ4 frame, from its magic on. -/
def lz4Frame (b : Bytes) : FrameOut :=
  let flg := fieldAt b 4 1
  let bd := fieldAt b 5 1
  let cs := if bitOf flg 3 then 8 else 0
  if b.length < 7 + cs then .error 0x3008
  else if flg / 64 ≠ 1 || bitOf flg 0 then .error 0x3009
  else if bitOf flg 1 || bitOf bd 7 || bd % 16 ≠ 0 || bd / 16 < 4 || fieldAt b (6 + cs) 1 != xx32.hash (sliceAt b 4 (2 + cs)) / 256 % 256 then .error 0x3008
  else match lz4Blocks (bitOf flg 5) (bitOf flg 4) (2 ^ (8 + 2 * (bd / 16))) b.length 0 [] (b.drop (7 + cs)) with
    | .error e => .error e
    | .ok (out, n, rest) => frameEnd (if cs = 0 then none else some (fieldAt b 6 8)) (if bitOf flg 2 then some (xx32, 2 ^ 32) else none) out n rest

/-! ### A framed input (R105) -/

/-- The frames of an input one after another: the decoded bytes and the blocks that held them. Framing 1 is Zstandard, 2 is LZ4. -/
def frames (framing : Nat) : Nat → Bytes → Nat → Bytes → Except Nat (Bytes × Nat)
  | 0, out, k, _ => .ok (out, k)
  | n + 1, out, k, b =>
    if b.isEmpty then .ok (out, k)
    else if b.length < 4 then .error 0x3008
    else
      let magic := fieldAt b 0 4
      let one : FrameOut :=
        if 0x184D2A50 ≤ magic ∧ magic ≤ 0x184D2A5F then skipFrame b
        else if framing = 1 ∧ magic = 0xFD2FB528 then zstdFrame b
        else if framing = 2 ∧ magic = 0x184D2204 then lz4Frame b
        else .error 0x3009
      match one with
      | .error e => .error e
      | .ok (x, m, rest) => frames framing n (out ++ x) (k + m) rest

/-- Decompression of an input's frames (R103 to R105); framing 0 is none. -/
def unframe (framing : Nat) (b : Bytes) : Except Nat Bytes := if framing = 0 then .ok b else (frames framing b.length [] 0 b).map (·.1)

/-- The blocks of a framed input that a compression engine works through (Table 3.4), one at least. -/
def frameBlocks (framing : Nat) (b : Bytes) : Nat := match frames framing b.length [] 0 b with | .ok r => max 1 r.2 | .error _ => 1

end Sys2Proof.Machine
end

