-- ==== Sys2Proof/Machine/Ingest.lean ====
section
/-!
DEFINITION. Sys2Proof/Machine/Ingest.lean: the ingest stream, validation and slag (R79, R80, R434 to R438), and STORE (R178).
-/
namespace Sys2Proof.Machine

/-- A failing row: column_id (0xFFFF for the row as a whole), reason and detail (Table 2.10). -/
structure RowFault where
  col : Nat
  reason : Nat
  detail : Nat := 0
deriving DecidableEq, Repr, Inhabited

/-- An input row: the values or what it fails on, and its row-stream form (R436). -/
structure InRow where
  vals : List Val := []
  fault : Option RowFault := none
  raw : Bytes := []
deriving DecidableEq, Repr, Inhabited

/-- Whether a date or time lies in its type's range (R437). -/
def dateOk (t : SlotTy) (v : Int) : Bool :=
  match t.ty with
  | .date32 => decide (-719162 ≤ v) && decide (v ≤ 2932896)
  | .timestamp64 => t.a == 1 || (decide (-62135596800000000 ≤ v) && decide (v ≤ 253402300799999999))
  | .time64 => decide (0 ≤ v) && decide (v < (if t.a = 1 then 86400000000000 else 86400000000))
  | _ => true

/-- The first check of Table 2.10 a field fails, lower codes first (R80, R435, R437). -/
def fieldFault (c : Column) (v : Val) : Option RowFault :=
  let f := fun (r dt : Nat) => some (⟨c.id, r, dt⟩ : RowFault)
  match v with
  | none => if c.ty.nullable then none else f 1 0
  | some b =>
    match c.ty.ty with
    | .utf8 => (match utf8Bad b with | some k => f 5 k | none => if 32768 < b.length then f 6 0 else none)
    | .binary => if 32768 < b.length then f 6 0 else none
    | .fixedBinary => if b.length = c.ty.len then none else f 6 0
    | ty =>
      if b.length ≠ (c.ty.width.getD 0) then f 2 0
      else match ty with
        | .bool => if b = [0] ∨ b = [1] then none else f 3 0
        | .decimal128 => if (valInt .decimal128 b).natAbs < 10 ^ c.ty.a then none else f 4 0
        | .packedDecimal => (match packedBad c.ty.a b with | some k => f 7 k | none => none)
        | .date32 | .timestamp64 | .time64 => if dateOk c.ty (valInt ty b) then none else f 8 0
        | _ => none

/-- The fault of a row: that of the lowest-numbered failing column (R80). -/
def rowFault (cols : List Column) (vals : List Val) : Option RowFault :=
  ((List.range cols.length).filterMap (fun i => fieldFault (cols.getD i { id := 0, ty := default }) (vals.getD i none))).head?

/-- The fields of a row of a row stream; none when they overrun row_bytes or end short of it (R435). -/
def rowFields : Nat → Bytes → Option (List Val)
  | 0, b => if b.isEmpty then some [] else none
  | n + 1, b =>
    if b.length < 4 then none
    else
      let len := fieldAt b 0 4
      if len = 0xFFFFFFFF then (rowFields n (b.drop 4)).map (none :: ·)
      else if b.length < 4 + len then none
      else (rowFields n (b.drop (4 + len))).map (some (sliceAt b 4 len) :: ·)

/-- The rows of a row stream after its header, with the status of a length fault (R435) (DEDUCED, notes/assumptions/47.md). -/
def streamRows (cols : List Column) (n : Nat) : Nat → Bytes → Except Nat (List InRow)
  | 0, _ => .ok []
  | fuel + 1, b =>
    if b.isEmpty then .ok []
    else if b.length < 4 || b.length < 4 + fieldAt b 0 4 then .error 0x3005
    else
      let k := fieldAt b 0 4
      let raw := b.take (4 + k)
      let row : InRow := match (if n = cols.length then rowFields n (sliceAt b 4 k) else none) with
        | none => { fault := some ⟨0xFFFF, 9, 0⟩, raw := raw }
        | some vals => { vals := vals, fault := rowFault cols vals, raw := raw }
      match streamRows cols n fuel (b.drop (4 + k)) with
      | .ok l => .ok (row :: l)
      | .error e => .error e

/-- A row in row-stream form (R436). -/
def rawRow (vals : List Val) : Bytes :=
  let fs := (vals.map (fun v => match v with | some b => natLE 4 b.length ++ b | none => natLE 4 0xFFFFFFFF)).flatten
  natLE 4 fs.length ++ fs

/-- Whether an Arrow field maps to a column (R436): the type Table 3.7 gives, or one of the two exceptions. -/
def arrowMaps (c : Column) (f : Nat × Nat × Nat × Nat) : Bool :=
  (f.1 == c.ty.ty.code && f.2.1 == c.ty.a && f.2.2.1 == c.ty.b && f.2.2.2 == c.ty.len) ||
  (c.ty.ty == .packedDecimal && ((f.1 == 0x14 && f.2.2.2 == 16) || (f.1 == 0x0E && f.2.1 == c.ty.a && f.2.2.1 == 0))) ||
  (c.ty.ty == .bfloat16 && f.1 == 0x0C)

/-- A value of an Arrow field as the column's PLAIN value; none where it does not convert (R436). -/
def arrowConv (c : Column) (f : Nat) (v : Bytes) : Option Bytes :=
  match c.ty.ty with
  | .packedDecimal => if f = 0x0E then (let x := valInt .decimal128 v; if x.natAbs < 10 ^ c.ty.a then some (packedOf c.ty.a (decide (x < 0)) x.natAbs) else none) else some v
  | .bfloat16 => if f = 0x0C then (if v.take 2 = [0, 0] then some (v.drop 2) else none) else some v
  | _ => some v

/-- What a stream gives: its rows, or a status with the fields of a rejected row. -/
abbrev StreamOut := Except (CommitFail) (List InRow)

/-- The ingest stream read (R434 to R436). -/
def readStream (cols : List Column) (b : Bytes) : StreamOut :=
  let magic := fieldAt b 0 4
  if b.length < 4 then .error { status := 0x3009 }
  else if magic = 0xFFFFFFFF then
    let r := Config.arrowStream b
    if r.1 = 1 then .error { status := 0x3009 }
    else if r.1 = 2 then .error { status := 0x3005 }
    else if r.2.1.length ≠ cols.length then
      .error { status := 0x3001, detail := (cols.getD r.2.1.length { id := 0xFFFF, ty := default }).id, reason := 9 }
    else
      match (List.range cols.length).find? (fun i => !arrowMaps (cols.getD i { id := 0, ty := default }) (r.2.1.getD i (0, 0, 0, 0))) with
      | some i => .error { status := 0x3001, detail := (cols.getD i { id := 0, ty := default }).id, reason := 2 }
      | none => .ok (r.2.2.map (fun vals =>
          let conv := (List.range cols.length).map (fun i =>
            let c := cols.getD i { id := 0, ty := default }
            match vals.getD i none with
            | none => (none, fieldFault c none)
            | some v => match arrowConv c (r.2.1.getD i (0, 0, 0, 0)).1 v with
              | some x => (some x, fieldFault c (some x))
              | none => (some v, some (⟨c.id, 2, 0⟩ : RowFault)))
          { vals := conv.map (·.1), fault := (conv.filterMap (·.2)).head?, raw := rawRow (conv.map (·.1)) }))
  else if magic = 0x51E90125 then
    if b.length < 16 then .error { status := 0x3005 }
    else if fieldAt b 4 1 ≠ 1 || !zeroAt b 5 3 || !zeroAt b 10 6 then .error { status := 0x3009 }
    else match streamRows cols (fieldAt b 8 2) b.length (b.drop 16) with
      | .ok l => .ok l
      | .error e => .error { status := e }
  else .error { status := 0x3009 }

/-- The first stage of an image with a code block. -/
def codeStage (im : Image) : Nat := ((List.range im.stages.length).find? (fun i => (im.stages.getD i {}).codeA != 0xFFFF)).getD 0

/-- Whether rows pass a validation image (R437): false, null, or a marked row fails. -/
def checkRows (im : Image) (tys : List SlotTy) (rows : List (List Val)) : List Bool :=
  let bl := toBillets (rows.map (fun v => { vals := v }))
  let i := codeStage im
  let c := im.codes.getD (im.stages.getD i {}).codeA {}
  let ctx : XCtx := { role := .store, billets := bl.map (fun b => b.toX tys), consts := im.consts, autos := im.autos, cares := im.cares
                      mode := im.mode, ftz := im.ftz, code := c.words, codeOff := c.off, stage := i }
  let cmt := (({} : Cmt).load [] im.cares (List.range im.cares.length)).1
  let x := ((Exu.begin { cmt := cmt } ctx).runAll true).1
  ((List.range bl.length).map (fun k => (List.range (bl.getD k {}).rows.length).map (fun j =>
    let o := rowOut x.results k j
    o.ran && o.sel && !o.marked))).flatten

/-- Rows that pass every other check run through the table's validation image (R437). -/
def validate (t : Table) (cols : List Column) (rows : List InRow) : List InRow :=
  match t.check with
  | none => rows
  | some im =>
    let good := rows.filter (fun r => r.fault.isNone)
    let ok := checkRows im (cols.map (·.ty)) (good.map (·.vals))
    (rows.foldl (fun (acc : List InRow × List Bool) r =>
      if r.fault.isSome then (acc.1 ++ [r], acc.2)
      else (acc.1 ++ [if acc.2.headD true then r else { r with fault := some ⟨0xFFFF, 0x0A, 0⟩ }], acc.2.drop 1)) ([], ok)).1

/-- A slag row (Table 2.9) (DEDUCED, notes/assumptions/51.md). -/
def slagRow (epoch : Nat) (n : Nat) (f : RowFault) (raw : Bytes) : List Val :=
  [some (natLE 8 epoch), some (natLE 8 n), some (natLE 2 f.col), some (natLE 2 f.reason), some (natLE 4 f.detail), some (raw.take 32768),
   some [if 32768 < raw.length then 1 else 0]]

/-- The slag rows of an input, by ingest_row. -/
def slagRows (epoch : Nat) (rows : List InRow) : List (List Val) :=
  (List.range rows.length).filterMap (fun i => (rows[i]?).bind (fun r => r.fault.map (fun f => slagRow epoch i f r.raw)))

/-- The live columns of a table at an epoch, in ascending column_id (R434). -/
def Table.liveCols (t : Table) (e : Nat) : List Column := (t.cols.filter (·.live e)).mergeSort (fun a b => decide (a.id ≤ b.id))

/-- The rows a reject mode refuses as a whole (R438): its first bad row. -/
def rejectRows (reject : Nat) (rows : List InRow) : Option CommitFail :=
  let bad := (List.range rows.length).filterMap (fun i => (rows[i]?).bind (fun r => r.fault.map (fun f => (i, f))))
  match (if reject = 0 then bad.head? else none) with
  | some (i, f) => some { status := 0x3001, r0 := i, detail := f.col, reason := f.reason }
  | none => none

/-- Good rows, the number of bad ones, and the extents of both at an epoch, first row numbers and first extent number. -/
def rowSplit (rows : List InRow) : List (List Val) × Nat :=
  ((rows.filter (fun r => r.fault.isNone)).map (·.vals), (rows.filter (fun r => r.fault.isSome)).length)
def goodExtents (ts : Nat) (t : Table) (bound : Nat) (rows : List InRow) (e first num : Nat) : List Extent := rowExtents ts t bound e first num (rowSplit rows).1
def badExtents (ts : Nat) (t : Table) (bound : Nat) (rows : List InRow) (e first num : Nat) : List Extent :=
  rowExtents ts (slagOf t) bound e first num (slagRows e rows)

/-- Rows committed under a reject mode (R438): the commit begins, or the status and fields that refuse it. -/
def Dev.commitRows (d : Dev) (ts : Nat) (use : CommitFor) (kind : Nat) (t : Table) (bound reject : Nat) (retireAll : Bool) (rows : List InRow) :
    Except CommitFail Dev :=
  match rejectRows reject rows with
  | some f => .error f
  | none =>
    let n := rowSplit rows
    match d.beginCommit ts use kind t.id bound n.1.length n.2 retireAll [] none (goodExtents ts t bound rows) (badExtents ts t bound rows) with
    | .ok d1 => .ok d1
    | .error s => .error { status := s }

/-- The owner twin is asked for an epoch, row numbers and stripe rows (R30, Table 17.3); while the ownership moves, the commit waits
(R521). -/
def Dev.askAlloc (d : Dev) (ts x q cid kind : Nat) (t : Table) (bound : Nat) (rows : List InRow) : Dev :=
  let n := rowSplit rows
  let k := (goodExtents ts t bound rows 0 0 0).length + (badExtents ts t bound rows 0 0 0).length
  if (match d.twin.xfer with | some p => p.1 == ts | none => false) then d
  else d.twinSend 3 [0, ts, t.id, fnCode x, q, cid, kind, k, n.1.length, n.2] []

/-- Whether this twin allocates for a table space now: it owns it and is not giving it away (R521). -/
def Dev.allocates (d : Dev) (s : TSpace) : Bool :=
  (d.twin.alone || s.owner == d.twin.pos) && !(match d.twin.xfer with | some p => p.1 == s.id | none => false)

/-- What an INGEST's stream gives: its table, the epoch it binds at, and its rows (R434 to R437). -/
def Dev.ingestRows (d : Dev) (g : Ingest) : Except CommitFail (TSpace × Table × List InRow) :=
  match d.space g.ts with
  | none => .error { status := 0x2002 }
  | some s =>
    match s.table g.table g.bind with
    | none => .error { status := 0x2003 }
    | some t =>
      if g.bad then .error { status := 0x5001 }
      else
        let bytes := ((g.pieces.mergeSort (fun a b => decide (a.1 ≤ b.1))).map (·.2)).flatten
        match unframe g.framing bytes with
        | .error e => .error { status := e }
        | .ok b =>
          let cols := t.liveCols g.bind
          match readStream cols b with
          | .error f => .error f
          | .ok rows => .ok (s, t, validate t cols rows)

/-- The blocks an INGEST gives a compression engine (Table 3.4): those of its frames, and a page for each SWAGE page it makes. -/
def Dev.ingestBlocks (d : Dev) (g : Ingest) : Nat :=
  let bytes := ((g.pieces.mergeSort (fun a b => decide (a.1 ≤ b.1))).map (·.2)).flatten
  let pages := match d.ingestRows g with
    | .ok (_, t, rows) => (((goodExtents g.ts t g.bind rows 0 0 0).map (fun x => x.pages)).flatten.filter (fun p => fieldAt p.2 5 1 == 5)).length
    | .error _ => 0
  (if g.framing = 0 then 0 else frameBlocks g.framing bytes) + pages

/-- An INGEST whose input has been read (R434 to R438): it commits, completes, or asks the owner twin for its allocation. -/
def Dev.ingestReady (d : Dev) (g : Ingest) : Dev :=
  let mine := fun (k : Ingest) => k.x == g.x && k.q == g.q && k.cid == g.cid
  let drop : Dev := { d with store := { d.store with ingests := d.store.ingests.filter (fun k => !mine k) } }
  let fail := fun (f : CommitFail) => drop.complete g.x g.q g.cid { status := f.status, r0 := f.r0, detail := f.detail, reason := f.reason }
  match d.ingestRows g with
  | .error f => fail f
  | .ok (s, t, rows) =>
    if rows.isEmpty then drop.complete g.x g.q g.cid { r0 := s.visible }
    else if !d.allocates s then
      match rejectRows g.reject rows with
      | some f => fail f
      | none => ({ d with store := { d.store with ingests := updWhere mine (fun k => { k with asked := true }) d.store.ingests } } : Dev).askAlloc
          g.ts g.x g.q g.cid 1 t g.bind rows
    else match drop.commitRows g.ts (.ingest g.x g.q g.cid) 1 t g.bind g.reject false rows with
      | .ok d1 => d1
      | .error f => fail f

/-- The rows of a STORE by target column (R178): input slot i goes to binding i, an unbound column reads null. -/
def storeInput (cols : List Column) (binds : List BindRec) (rows : List (Nat × BRow)) : List InRow :=
  rows.map (fun r =>
    let vals := cols.map (fun c => match binds.findIdx? (fun b => b.column == c.id) with | some k => r.2.val k | none => none)
    { vals := vals, raw := rawRow vals
      fault := match rowFault cols vals with
        | some f => some f
        | none => if r.2.sel then none else some ⟨0xFFFF, 0x0A, 0⟩ })

/-- The target of a STORE and its rows (R178): table space, table, whether it replaces, the reject mode. -/
def Dev.storeRowsOf (d : Dev) (q : Query) (i : Nat) : Option (TSpace × Table × Bool × Nat × List InRow) :=
  let s := q.image.stages.getD i {}
  let p := q.image.block s
  let binds := q.image.stageBinds s
  match d.space q.ts, bindTable q.params (binds.headD {}) with
  | some sp, some tid =>
    (sp.table tid q.epoch).map (fun t =>
      let cols := t.liveCols q.epoch
      (sp, t, fieldAt p 0 1 == 1, fieldAt p 1 1, validate t cols (storeInput cols binds (q.storeRows.mergeSort (fun a b => decide (a.1 ≤ b.1))))))
  | _, _ => none

/-- A STORE whose last input row has come (R178): its rows commit as one epoch. -/
def Dev.storeReady (d : Dev) (q : Query) (i : Nat) : Dev :=
  match d.storeRowsOf q i with
  | none => d.failAt q.id 0x2021 i
  | some (sp, t, replace, reject, rows) =>
    let d1 := d.queryUpd q.id (fun q => { q with storeAsked := true })
    let fail := fun (f : CommitFail) => d1.endQuery q.id { status := f.status, detail := f.detail, reason := f.reason } 1
    if rows.isEmpty && !replace then d1.queryUpd q.id (fun q => { q with storeEpoch := some sp.visible })
    else if !d.allocates sp then
      match rejectRows reject rows with
      | some f => fail f
      | none => d1.askAlloc q.ts q.x q.q q.cid 2 t q.epoch rows
    else match d1.commitRows q.ts (.store q.id) 2 t q.epoch reject replace rows with
      | .ok d2 => d2
      | .error f => fail f

end Sys2Proof.Machine
end

