-- ==== Sys2Proof/Machine/Sched.lean ====
section
/-!
DEFINITION. Sys2Proof/Machine/Sched.lean: results on their way (R169 to R174, R307, R319), the progress of stages and the end of queries,
and the choices of the scheduler (R312 to R317).
-/
namespace Sys2Proof.Machine

/-! ### Level 4 of the spill ladder (R192, R193) -/

/-- The ways that a function's claims lock (R189, R385). -/
def Dev.waysOf (d : Dev) (x : Nat) : Nat :=
  ((d.mail.claims.filter (fun c => c.cls == 2 && c.x == x && c.holder == 1)).map (fun c => ((List.range 8).filter (bitOf c.ways)).length)).sum

/-- The scratchpad that a stage's own rules require (R486): its RESIDENT table, its TOPK candidates, the 2 MiB of SORT and MERGE, its objects. -/
def Query.scratchFloor (q : Query) (i : Nat) : Nat :=
  let s := q.image.stages.getD i {}
  let table := fun (k : Nat) => match (q.stage k).table with | some t => if t.parted then 0 else (t.parts.map (·.bytes)).sum | none => 0
  let own := match s.op with
    | 0x07 => table i
    | 0x08 => table (buildOf q.image i)
    | 0x0C | 0x0D => 2097152
    | 0x0E => fieldAt (q.image.block s) 0 4 * rowWidth (inTypes q.image i 0)
    | _ => 0
  own + objectBytes q.image s

/-- What a stage declares, with the scratchpad that it may hold under its function's share in force (R486). -/
def Dev.stageRes (d : Dev) (q : Query) (i : Nat) : ResRec :=
  let r := q.image.resources.getD (q.image.stages.getD i {}).res {}
  { r with scratch := min r.scratch (max (1024 * (d.share q.x).scratchKib) (q.scratchFloor i)) }

/-- Pieces of a stage placed on its ladder; a cut of the scratchpad share fails none (R486; DESIGN CHOICE, notes/assumptions/180.md). -/
def Dev.placeIn (d : Dev) (q : Query) (i : Nat) (used : List (Nat × Nat)) (l : List Nat) : Option (List (Nat × Nat)) :=
  let ways := d.waysOf q.x
  match placePieces (d.stageRes q i) ways used l with
  | some y => some y
  | none => placePieces (q.image.resources.getD (q.image.stages.getD i {}).res {}) ways used l

/-- n free rows of a table space's scheme taken for spill by a grantee (R193); none when the pool is short. -/
def takeSpill : Nat → List SGroup → Nat → Nat → Option (List SGroup × List (Nat × Nat))
  | 0, gs, _, _ => some (gs, [])
  | n + 1, gs, scheme, who =>
    match pickRow gs scheme n with
    | none => none
    | some (g, r) =>
      (takeSpill n (updWhere (fun q => q.id == g) (fun q => { q with spill := q.spill ++ [(r, who)] }) gs) scheme who).map (fun y => (y.1, (g, r) :: y.2))

/-- The stripe rows of 1 MiB that a piece takes (DESIGN CHOICE, notes/assumptions/67.md). -/
def Spill.need (s : Spill) : Nat := max 1 (ceilDiv s.bytes 1048576)

/-- The page slots a piece uses in the k-th of its rows. -/
def Spill.slots (s : Spill) (k : Nat) : Nat := min 16 (ceilDiv (s.bytes - 1048576 * k) 65536)

/-- A piece written into its rows (R192). -/
def Dev.writeSpill (d : Dev) (id : Nat) (s : Spill) : Dev :=
  (List.range s.rows.length).foldl (fun d k =>
    let r := s.rows.getD k (0, 0)
    d.writeRow (d.schemeOf r.1) r.1 r.2 (s.slots k) (.spill id)) d

/-- The pieces of a query that have no rows yet get them and are written: from the rows it holds, from the free pool where this twin owns the table
space, or else by ALLOC_REQ in blocks of 64 (R193). A stage that gets none ends its query (R191). -/
def Dev.spillRun (d : Dev) (id : Nat) : Nat → Dev
  | 0 => d
  | fuel + 1 =>
    match d.query id, (d.query id).bind (fun q => q.spills.find? (fun s => s.rows.isEmpty)) with
    | some q, some s =>
      let have_ := fun (d : Dev) (l : List (Nat × Nat)) =>
        let s1 : Spill := { s with rows := l.take s.need }
        ((d.queryUpd id (fun q => { q with granted := l.drop s.need, spills := updWhere (fun k => k.id == s.id) (fun _ => s1) q.spills })).writeSpill id s1).spillRun id fuel
      if s.need ≤ q.granted.length then have_ d q.granted
      else match d.space q.ts with
        | none => d.failAt id 0x4007 s.stage
        | some sp =>
          if sp.owner = d.twin.pos || d.twin.alone then
            (match takeSpill (s.need - q.granted.length) d.store.groups sp.scheme (id + 2) with
             | none => d.failAt id 0x4007 s.stage
             | some (gs, rows) => have_ { d with store := { d.store with groups := gs } } (q.granted ++ rows))
          else if q.spillAsked then d
          else (d.queryUpd id (fun q => { q with spillAsked := true })).twinSend 3 [1, q.ts, id, roundUp 64 (s.need - q.granted.length)] []
    | _, _ => d

/-- Pieces of a stage's data on level 4: their numbers, with the pieces known to the query. -/
def Dev.addSpills (d : Dev) (id stage : Nat) (l : List Nat) : List Nat × Dev :=
  match d.query id with
  | none => ([], d)
  | some q =>
    let new := (List.range l.length).map (fun k => ({ id := q.nextSpill + k, stage := stage, bytes := l.getD k 0 } : Spill))
    (new.map (·.id), d.queryUpd id (fun q => { q with spills := q.spills ++ new, nextSpill := q.nextSpill + l.length }))

/-- Whether a stage's level-4 data is on the drives. -/
def Dev.spillsReady (d : Dev) (q : Query) (i : Nat) : Bool :=
  let mine := q.spills.filter (fun s => s.stage == i)
  mine.isEmpty || (mine.all (fun s => !s.rows.isEmpty) && !d.store.dcmds.any (fun c => c.write && c.use == .spill q.id))

/-! ### What an EXCHANGE_SEND sends (R341, R342) -/

/-- Messages with the places on the ladder that their bytes have got, in order. -/
def retained : List XMsg → List (Nat × Nat) → List XMsg × List (Nat × Nat)
  | [], l => ([], l)
  | m :: ms, l =>
    if m.data.isEmpty then let y := retained ms l; (m :: y.1, y.2)
    else let y := retained ms (l.drop 1); ({ m with held := l.take 1 } :: y.1, y.2)

/-- Messages of a stage that its flows to some nodes retain until they are consumed, on the stage's declarations and down the ladder; none where it is
full (R342, R191). -/
def Dev.retainMsgs (d : Dev) (q : Query) (i : Nat) (ms : List (Nat × List XMsg)) : Option (Dev × List (Nat × List XMsg)) :=
  let used := ((d.fab.sflows.filter (fun f => f.query == q.id && f.stage == i)).map (fun f => (f.msgs.map (·.held)).flatten)).flatten
  let sizes := ((ms.map (·.2)).flatten.filter (fun m => !m.data.isEmpty)).map (fun m => m.data.length)
  match d.placeIn q i used sizes with
  | none => none
  | some l =>
    let y := d.addSpills q.id i ((l.filter (fun p => p.1 == 4)).map (·.2))
    let z := ms.foldl (fun (acc : List (Nat × List XMsg) × List (Nat × Nat)) m => let k := retained m.2 acc.2; (acc.1 ++ [(m.1, k.1)], k.2)) ([], l)
    some (y.2.spillRun q.id (y.1.length + 1), z.1)

/-- What a receiver is known to have consumed of a flow when the device begins it: for the adopted node, what the peer has told, or what the device
itself has consumed (R355). -/
def Dev.knownPoint (d : Dev) (exch stage sender node : Nat) : Option (Nat × Nat) :=
  if d.isMe node then (d.rflow node sender exch stage).bind (·.consumed)
  else (d.fab.resumed.find? (fun k => k.exch == exch && k.stage == stage && k.node == node && k.sender == sender)).bind (·.point)

/-- Messages put into a stage's flow to a node (R341); those that the receiver has consumed already need not go (R355). -/
def Dev.addMsgs (d : Dev) (q : Query) (i : Nat) (m : Nat × List XMsg) : Dev :=
  let me := d.qNode q
  let f : SFlow := { query := q.id, exch := q.exch i, stage := i, sender := me, node := m.1, window := q.window i }
  let d0 : Dev := if d.fab.sflows.any f.same then d else { d with fab := { d.fab with sflows := d.fab.sflows ++ [f] } }
  let d1 : Dev := if d.isMe m.1 then d0 else d0.needAssoc m.1 me
  let pt := if q.resume.isEmpty then none else d.knownPoint f.exch i me m.1
  { d1 with fab := { d1.fab with sflows := updWhere f.same (fun g => ({ g with msgs := g.msgs ++ m.2 } : SFlow).ack none pt) d1.fab.sflows } }

/-- The charges of an EXCHANGE_SEND that are held or cancelled become messages, in order; after the last, the end of the stream
(R341, R342). -/
def Dev.pumpSend (d : Dev) (id i : Nat) (ovr : Bool) : Nat → Dev
  | 0 => d.pumpFlows
  | n + 1 =>
    match d.query id with
    | none => d
    | some q =>
      let st := q.stage i
      let nodes := (q.sendMap i).eraseDups
      if st.old.contains st.sendNext then (d.stageUpd id i (fun st => { st with sendNext := st.sendNext + 1 })).pumpSend id i ovr n
      else match st.charge false st.sendNext with
      | some c =>
        if c.state = .cancelled || (c.held && (c.state == .held || c.state == .released)) then
          match d.retainMsgs q i (nodes.map (fun nd => (nd, chargeMsgs q i c nd))) with
          | none => d.failAt id 0x4007 i
          | some (d1, ms) =>
            ((ms.foldl (fun (d : Dev) m => d.addMsgs q i m) d1).stageUpd id i (fun st =>
              { (st.chargeUpd false c.idx (fun c => { c with out := [] })) with sendNext := st.sendNext + 1 })).pumpSend id i ovr n
        else d.pumpFlows
      | none =>
        if ovr && !st.sentEnd && st.sendNext == st.nextIdx then
          ((nodes.foldl (fun (d : Dev) nd => d.addMsgs q i (nd, [{ charge := st.nextIdx, piece := 0, flags := 1 }])) d).stageUpd id i
            (fun st => { st with sentEnd := true })).pumpFlows
        else d.pumpFlows

/-! ### Holding (R308, R328) -/

/-- A charge becomes held. -/
def Dev.holdCharge (d : Dev) (r : CRef) (byPartner delay : Nat) : Dev :=
  match d.query r.query, d.charge r with
  | some q, some c =>
    if c.held || !(c.state == .done || c.state == .released) then d
    else
      let d1 := d.chargeUpd r (fun c => { c with held := true, state := if c.state = .done then .held else c.state })
      let d2 := d1.trace (q.trec r.stage r.idx 0x06 byPartner delay 0 0xFF)
      if (q.image.stages.getD r.stage {}).op = 0x11 then d2.pumpSend r.query r.stage false ((q.stage r.stage).charges.length + (q.stage r.stage).old.length + 2) else d2
  | _, _ => d

/-- The bytes of a checkpoint as it crosses the twin link (notes/assumptions/71.md). -/
def Ckpt.bytes (k : Ckpt) : Bytes :=
  let list := fun (l : List Nat) => natLE 4 l.length ++ (l.map (natLE 8)).flatten
  natLE 4 k.ups.length ++ (k.ups.map (natLE 10)).flatten ++ list ((k.ranges.map (fun r => [r.1, r.2])).flatten) ++ list ((k.decisions.map (fun r => [r.1, r.2])).flatten) ++ natLE 8 k.limit ++
    list k.store ++ list ((k.batches.map (fun r => [r.1, r.2])).flatten) ++ natLE 8 k.rows ++ natLE 8 k.errRows ++ natLE 4 k.crc ++ natLE 2 k.take

/-- A gathering charge of an ordered stage, whose output charges alone carry sequence numbers (R318): it is numbered apart. -/
def Query.apart (q : Query) (r : CRef) : Bool := r.gather && (q.image.stages.getD r.stage {}).ordered

/-- A checkpoint sent with its identity, the query's epoch, policy and ring counts, and the hearth clock the charge was cut at (Tables 10.4, 17.3). -/
def Dev.sendCkpt (d : Dev) (q : Query) (r : CRef) (k : Ckpt) (act : TAct) : Dev :=
  d.twinSend 7 ([fnCode q.x, q.q, q.cid, q.id, r.stage, r.idx, b2n (q.apart r), q.epoch, b2n q.autonomous, ((d.charge r).map (·.mhz)).getD d.hearthMhz] ++ q.rings.map (·.produced))
    (q.digest ++ q.paramHash ++ k.bytes) act

/-- The checkpoint of a charge recorded here, and sent to the partner while paired (R328) (DEDUCED, notes/assumptions/119.md). -/
def Dev.tellCkpt (d : Dev) (r : CRef) : Dev :=
  match d.query r.query, d.charge r with
  | some q, some c =>
    (match c.ck with
     | some k =>
       if c.told then d
       else
         let d1 := d.chargeUpd r (fun c => { c with told := true })
         if d.twin.alone then d1.holdCharge r 0 0 else d1.sendCkpt q r k (.charge r d.timeUs)
     | none => d)
  | _, _ => d

/-- The checkpoints of charges whose batches have been placed since they were sent, sent again (Table 10.4). -/
def Dev.retellCkpt (d : Dev) (id stage idx : Nat) : Dev :=
  match d.query id, d.charge ⟨id, stage, idx, .flow⟩ with
  | some q, some c => (match c.ck with | some k => if c.told then d.sendCkpt q ⟨id, stage, idx, .flow⟩ k .none else d | none => d)
  | _, _ => d

/-! ### Result rings (R170 to R174) -/

/-- The lower of consumed_count and produced_count (R170). -/
def Ring.c (r : Ring) : Nat := min r.consumed r.produced
/-- Room for buffer number p (R170). -/
def Ring.room (r : Ring) : Bool := decide (r.num - r.c < r.buffers)
/-- The host address of buffer p. -/
def Ring.bufAddr (r : Ring) (p : Nat) : Nat := r.addrs.getD (p % max 1 r.buffers) 0

/-- The open buffer closed (R172). -/
def Ring.close (r : Ring) (last : Bool) : Ring :=
  { r with closed := r.closed ++ [⟨r.num, r.used, r.count, r.rows, last, r.charges⟩], num := r.num + 1, used := 64, count := 0, rows := 0, charges := [] }

/-- The batch that is placed next: after a failover those that checkpoints place come first, in their order (R174); none where it has not come. -/
def Ring.nextBatch (r : Ring) : Option RBatch :=
  match r.due with
  | k :: _ => r.wait.find? (fun b => b.charge == k.1 && b.nth == k.2.1)
  | [] => r.wait.head?

/-- The buffer that a batch's checkpoint asks for, at the least. -/
def Ring.asked (r : Ring) : Nat := match r.due with | k :: _ => k.2.2.1 | [] => 0

/-- Waiting batches placed while there is room (R170, R172): host writes, the ring, and the placements (charge, buffer, offset). -/
def Ring.place : Nat → Ring → List (Nat × Bytes) × Ring × List (Nat × Nat × Nat)
  | 0, r => ([], r, [])
  | n + 1, r =>
    match r.nextBatch with
    | none => ([], r, [])
    | some b =>
      if !r.room then ([], r, [])
      else if r.asked ≤ r.num ∧ r.used + b.data.length ≤ r.bytes then
        let y := Ring.place n { r with wait := r.wait.erase b, due := r.due.drop 1, used := r.used + b.data.length, count := r.count + 1, rows := r.rows + b.rows
                                       charges := if r.charges.contains b.charge then r.charges else r.charges ++ [b.charge] }
        ((r.bufAddr r.num + r.used, b.data) :: y.1, y.2.1, (b.charge, r.num, r.used) :: y.2.2)
      else Ring.place n (r.close false)

/-- The ring of an EMIT goes on as far as it can: ring_status [1] is cleared where there is room again, batches are written, the last buffer is
closed at the end of the stream, and ring_status [1] is set and the poll armed where batches still wait (R170, R173). -/
def Dev.ringRun (d : Dev) (id e stage : Nat) : Dev :=
  match d.query id with
  | none => d
  | some q =>
    match q.rings[e]? with
    | none => d
    | some r =>
      let y := r.place (2 * r.wait.length + 2)
      let r1 := y.2.1
      let r2 := if r1.ended && r1.wait.isEmpty && !r1.closed.any (·.last) && !r1.finished then r1.close true else r1
      let stall := r2.nextBatch.isSome
      let clear := r.stalled && r.room
      let d1 := d.queryUpd id (fun q => { q with rings := updAt q.rings e (fun _ => { r2 with stalled := stall }) })
      let d2 := d1.stageUpd id stage (fun st => y.2.2.foldl (fun st p =>
        st.chargeUpd false p.1 (fun c => { c with ck := c.ck.map (fun k => { k with batches := k.batches ++ [(p.2.1, p.2.2)] }) })) st)
      let d3 := if clear then d2.hostWrite q.x (r.addr + 0x20) (natLE 2 0) else d2
      let d4 := ((y.2.2.map (·.1)).eraseDups).foldl (fun d k => d.retellCkpt id stage k) (y.1.foldl (fun d w => d.hostWrite q.x w.1 w.2) d3)
      if stall && (clear || !r.stalled) then (d4.hostWrite q.x (r.addr + 0x20) (natLE 2 2)).delay 2 1 (id * 16 + e) else d4

/-- The 64 bytes of a result buffer header (Table 5.6). -/
def bufHeader (e : Nat) (b : RBuf) (epoch cid : Nat) : Bytes :=
  let h := natLE 4 0x51E90BAF ++ natLE 2 e ++ natLE 2 (b2n b.last) ++ natLE 8 b.num ++ natLE 4 b.used ++ natLE 4 b.batches ++ natLE 8 epoch ++
    natLE 8 b.rows ++ natLE 2 cid ++ zeros 18
  h ++ natLE 4 (crc32c h).toNat

/-! ### Delivery -/

/-- The bytes that a staged chunk takes on the ladder, piece by piece: of a PARTITION's output each partition, else each billet (R189, R199, R202). -/
def chunkPieces (tys : List SlotTy) (parted : Bool) (l : List Billet) : List Nat :=
  if parted then
    ((l.map (·.part)).eraseDups).map (fun k => ((l.filter (fun b => b.part == k)).map (fun b => ((b.rows.filter (·.sel)).map (partBytes tys)).sum)).sum)
  else l.map (fun b => ((b.rows.filter (·.sel)).map (rowBytes tys)).sum)

/-- The table of a PROBE's BUILD is complete and loaded (R199). -/
def Query.tableReady (q : Query) (i : Nat) : Bool :=
  let st := q.stage (buildOf q.image i)
  st.table.isSome && st.finishing == some [] && st.charges.all (fun c => !c.state.live)

/-- A chunk that has to wait is staged: probe billets that come before the table is complete under the PROBE's declarations (R199), a PARTITION's
output under the PARTITION's (R202). What finds no room ends the query (R191). -/
def Dev.stageChunk (d : Dev) (q : Query) (src dst port : Nat) (c : Chunk) : Dev × Chunk :=
  let early := (q.image.stages.getD dst {}).op == 0x08 && port == 0 && !q.tableReady dst
  let parted := !early && (q.image.stages.getD src {}).op == 0x09
  if c.billets.isEmpty || !(early || parted) then (d, c)
  else
    let owner := if early then dst else src
    let used := (((if early then [dst] else fedBy q.image src).map (fun k => ((q.stage k).inq.map (·.held)).flatten)).flatten)
    match d.placeIn q owner used (chunkPieces (inTypes q.image dst port) parted c.billets) with
    | none => (d.failAt q.id 0x4007 owner, c)
    | some l =>
      let y := d.addSpills q.id dst ((l.filter (fun p => p.1 == 4)).map (·.2))
      (y.2.spillRun q.id (y.1.length + 1), { c with held := l, spills := y.1 })

/-- A chunk enters a stage's input (R307, R319): LIMIT numbers its rows, a SCAN fed by a SKIP takes admitted ranges in ascending row order (R305),
a void is kept only by an ordered stage that follows its input charge by charge. -/
def Dev.giveChunk (d : Dev) (id src dst port : Nat) (c : Chunk) : Dev :=
  match d.query id with
  | none => d
  | some q =>
    let s := q.image.stages.getD dst {}
    if s.op = 0x01 && isSource q.image dst then
      match d.space q.ts, bindTable q.params ((q.image.stageBinds s).headD {}) with
      | some sp, some tid =>
        (match sp.table tid q.epoch with
         | some t =>
           let us := sp.units t ((q.image.stageBinds s).headD {}).column q.epoch
           d.stageUpd id dst (fun st => { st with
             units := (st.units ++ ((us.map (fun u => meetRanges [u] c.ranges)).flatten)).mergeSort (fun a b => decide (a.1 ≤ b.1)) })
         | none => d)
      | _, _ => d
    else if c.void && (!s.ordered || gathers q.image s) then d
    else
      let y := d.stageChunk q src dst port c
      y.1.stageUpd id dst (fun st =>
        { st with inq := st.inq ++ [{ y.2 with port := port, pos := if s.op = 0x0F then st.pos else 0 }]
                  pos := if s.op = 0x0F then st.pos + (liveRows c.billets).length else st.pos })

/-- A charge's results passed to the consumers of its stage: the main output to every edge of port 0, error rows to the error port, or
counted as dropped (R121, R284, R307). A gathering charge passes nothing on: its stage's finishing charges do. -/
def Dev.deliver (d : Dev) (id i : Nat) (c : Charge) (void : Bool) : Dev :=
  match d.query id with
  | none => d
  | some q =>
    let s := q.image.stages.getD i {}
    let d1 := if void || s.side then d else d.queryUpd id (fun q => { q with dropped := q.dropped + (liveRows c.err).length })
    if c.work = .gather then d1 else
    (q.image.edges.filter (fun e => e.src == i)).foldl (fun d e =>
      if e.srcPort < s.outP then
        (if s.op = 0x07 then d else d.giveChunk id i e.dst e.dstPort { up := c.idx, billets := if void then [] else c.out, ranges := c.outRanges, void := void })
      else d.giveChunk id i e.dst e.dstPort { up := c.idx, billets := if void then [] else c.err, void := void }) d1

/-- The row number, among a STORE's rows, of the first row of a charge (R178): the one its checkpoint records, else the next after all that came
and all that checkpoints record. -/
def Query.storeAt (q : Query) (i idx : Nat) : Nat :=
  let old := q.resume.filter (fun k => k.1 == i)
  match (old.find? (fun k => k.2.1 == idx)).bind (fun k => k.2.2.store.head?) with
  | some n => n
  | none => (old.map (fun (k : Nat × Nat × Ckpt) => k.2.2.store.sum) ++ q.storeRows.map (fun (r : Nat × BRow) => r.1 + 1)).foldl max 0

/-- The effect of a sink's released charge: EMIT places batches (but for those a resumed query placed in counted buffers, R518), STORE gives its
rows their numbers, EXCHANGE_SEND makes messages once the charge is held. -/
def Dev.sink (d : Dev) (id i : Nat) (c : Charge) : Dev :=
  match d.query id with
  | none => d
  | some q =>
    let s := q.image.stages.getD i {}
    let p := q.image.block s
    match s.op with
    | 0x13 =>
      let e := ordinal q.image i
      let r := q.rings.getD e { addr := 0, buffers := 1, vector := 0xFFFF, bytes := 65536, addrs := [] }
      let rows := liveRows c.out
      let tys := inTypes q.image i 0
      (match cutBatches tys (fieldAt p 8 8) (fieldAt p 0 4) (r.bytes - 64) s.ordered c.idx (rows.length + 1) rows with
       | none => d.failAt id 0x2030 i
       | some l =>
         let old := match q.resume.find? (fun k => k.1 == i && k.2.1 == c.idx) with | some k => k.2.2.batches | none => []
         let keep := (List.range l.length).filterMap (fun j =>
           if (old[j]?).any (fun p => decide (p.1 < r.skip)) then none else (l[j]?).map (fun b => (⟨b.1, b.2, c.idx, j⟩ : RBatch)))
         let d1 := d.queryUpd id (fun q => { q with
           emitted := q.emitted + rows.length
           rings := updAt q.rings e (fun r => { r with wait := r.wait ++ keep }) })
         let d2 := d1.stageUpd id i (fun st => st.chargeUpd false c.idx (fun k => { k with
           ck := k.ck.map (fun m => { m with batches := old.filter (fun p => decide (p.1 < r.skip)) }) }))
         (d2.ringRun id e i).tellCkpt ⟨id, i, c.idx, c.work⟩)
    | 0x14 =>
      let rows := (c.out.map (·.rows)).flatten
      let at0 := q.storeAt i c.idx
      let d1 := d.queryUpd id (fun q => { q with storeRows := q.storeRows ++ (List.range rows.length).map (fun k => (at0 + k, rows.getD k default)) })
      (d1.stageUpd id i (fun st => st.chargeUpd false c.idx (fun k => { k with
        ck := k.ck.map (fun m => { m with store := [at0, rows.length] }) }))).tellCkpt ⟨id, i, c.idx, c.work⟩
    | 0x11 => d.pumpSend id i false ((q.stage i).charges.length + (q.stage i).old.length + 2)
    | _ => d

/-! ### LIMIT (R164) -/

/-- Stages whose every path ends at a satisfied LIMIT. -/
def deadStages (im : Image) (sat : List Nat) : List Nat :=
  (List.range im.stages.length).reverse.foldl (fun (acc : List Nat) i =>
    let out := im.edges.filter (fun e => e.src == i)
    if !out.isEmpty && out.all (fun e => acc.contains e.dst) then acc ++ [i] else acc) sat

/-- A satisfied LIMIT stops every stage whose paths all end at satisfied LIMITs: no new charge, and those not yet done are cancelled. -/
def Dev.limitSatisfied (d : Dev) (id i : Nat) : Dev :=
  match d.query id with
  | none => d
  | some q =>
    let sat := i :: (List.range q.stages.length).filter (fun k => k != i && (q.image.stages.getD k {}).op == 0x0F && (q.stage k).stopped)
    (deadStages q.image sat).foldl (fun d j =>
      let d1 := d.stageUpd id j (fun st => { st with stopped := true, units := [], inq := [] })
      (((d1.query id).map (fun q => (q.stage j).charges)).getD []).foldl (fun d c =>
        let r : CRef := ⟨id, j, c.idx, c.work⟩
        if c.state = .running then d.chargeUpd r (fun c => { c with cancel := some 3 })
        else if c.state = .released then d else d.cancelCharge r 3) (if (q.image.stages.getD j {}).op = 0x12 then d1.pumpRecv (q.exch j) (q.sendStage j) else d1)) d

/-- The rows a LIMIT has passed on, and whether that satisfies it. -/
def Dev.limitPass (d : Dev) (id i : Nat) (c : Charge) : Dev :=
  match d.query id with
  | none => d
  | some q =>
    let s := q.image.stages.getD i {}
    if s.op ≠ 0x0F then d
    else
      let p := q.image.block s
      let n := (q.stage i).passed + (liveRows c.out).length
      let d1 := d.stageUpd id i (fun st => { st with passed := n })
      if limitValue p q.params 1 8 0x14 ≤ n && !(q.stage i).stopped then d1.limitSatisfied id i else d1

/-! ### Release (R319, R320) -/

/-- A charge released: its results move on. -/
def Dev.releaseCharge (d : Dev) (r : CRef) : Dev :=
  match d.query r.query, d.charge r with
  | some q, some c =>
    let d1 := (d.chargeUpd r (fun c => { c with state := .released })).trace (q.trec r.stage r.idx 0x07 0 0 r.idx 0xFF)
    let d2 := ((d1.deliver r.query r.stage c false).sink r.query r.stage c).limitPass r.query r.stage c
    d2.chargeUpd r (fun c => { c with input := [], rows := [], err := [], out := if (q.image.stages.getD r.stage {}).op = 0x11 then c.out else [] })
  | _, _ => d

/-- Void markers at the head of an ordered stage's sequence move on. -/
def Dev.releaseVoids (d : Dev) (id i : Nat) : Nat → Dev
  | 0 => d
  | n + 1 =>
    match d.query id with
    | none => d
    | some q =>
      if (q.stage i).old.contains (q.stage i).nextRel then (d.stageUpd id i (fun st => { st with nextRel := st.nextRel + 1 })).releaseVoids id i n
      else match (q.stage i).charge false (q.stage i).nextRel with
      | some c =>
        if c.state = .cancelled then
          ((d.stageUpd id i (fun st => { st with nextRel := st.nextRel + 1 })).deliver id i c true).releaseVoids id i n
        else d
      | none => d

/-! ### Progress of stages -/

/-- Whether every input port of a stage has ended (DEDUCED, notes/assumptions/136.md). -/
def Query.inputsEnded (q : Query) (i : Nat) : Bool :=
  let s := q.image.stages.getD i {}
  let n := if s.op = 0x12 then 1 else s.inP
  (List.range n).all (fun p => (q.stage i).ended.contains p)

/-- Whether a stage will cut no more charges; an EXCHANGE_RECV that a LIMIT has stopped still waits for the end of its senders' streams (R354; DESIGN
CHOICE, notes/assumptions/173.md). -/
def Query.noMore (q : Query) (i : Nat) : Bool :=
  let s := q.image.stages.getD i {}
  let st := q.stage i
  let fin := st.finishing == some []
  (st.stopped && s.op != 0x12) ||
  (if gathers q.image s || streams q.image s then fin
   else if s.op = 0x08 then q.inputsEnded i && st.inq.isEmpty && (st.parts.getD []).isEmpty && fin
   else q.inputsEnded i && st.inq.isEmpty && st.units.isEmpty)

/-- Whether a stage is over: nothing more to cut, and every charge released or cancelled. -/
def Query.stageOver (q : Query) (i : Nat) : Bool :=
  q.noMore i && (q.stage i).charges.all (fun c => !c.state.live) &&
  (!(q.image.stages.getD i {}).ordered || ((q.stage i).charges.filter (fun c => c.work != .gather)).all (fun c => decide (c.idx < (q.stage i).nextRel)))

/-- A stage's partition or finishing work placed on the ladder and set out (R189 to R192): the pieces on level 4 are written and go with the shares
that read them, and the choices taken are traced and wait for the next charge's checkpoint (R42). -/
def Dev.setWork (d : Dev) (id i : Nat) (f : Finish) (put : StageRun → List Lot → StageRun) : Dev :=
  match d.query id with
  | none => d
  | some q =>
    let s := q.image.stages.getD i {}
    match f.fail with
    | some e => d.failAt id e i
    | none =>
      match d.placeIn q i [] (f.pieces.map (·.2)) with
      | none => d.failAt id 0x4007 i
      | some l =>
        let deep := (l.zip f.pieces).filter (fun p => p.1.1 == 4)
        let y := d.addSpills id i (deep.map (·.1.2))
        let lots := f.lots.map (fun w => { w with spills := (((deep.map (·.2.1)).zip y.1).filter (fun p => p.1 == w.leaf)).map (·.2) })
        let ds := f.decisions ++ (if q.autonomous && !pinned q.image i 2 && !f.pieces.isEmpty then [(4, (l.map (·.1)).foldl max 0)] else [])
        let d1 := ds.foldl (fun d x => d.trace (q.trec i (q.stage i).nextIdx 0x0B x.1 x.2 0 0xFF)) y.2
        let told := if lots.isEmpty && s.op == 0x07 then fedBy q.image i else [i]
        let d2 := told.foldl (fun d k => d.stageUpd id k (fun st => { st with decisions := st.decisions ++ ds })) d1
        (d2.stageUpd id i (fun st => { put st lots with placed := (f.pieces.map (·.1)).zip l, table := match f.table with | some t => some t | none => st.table })).spillRun id (y.1.length + 1)

/-- The staged chunks of a stage's input after a cut of the scratchpad share: what no longer fits moves down the ladder (R486). -/
def Dev.recutChunks (d : Dev) (id i : Nat) : Dev :=
  match d.query id with
  | none => d
  | some q =>
    (List.range (q.stage i).inq.length).foldl (fun (d : Dev) k =>
      match (d.query id).bind (fun q => (q.stage i).inq[k]?) with
      | none => d
      | some c =>
        let early := (q.image.stages.getD i {}).op == 0x08 && c.port == 0 && !q.tableReady i
        let owner := if early then i else ((q.image.feed i c.port).map (·.src)).getD i
        let others := (((d.query id).map (fun q => (((q.stage i).inq.eraseIdx k).map (·.held)).flatten)).getD [])
        let l := restow (d.stageRes q owner) (d.waysOf q.x) others c.held
        let down := ((c.held.zip l).filter (fun p => p.1.1 == 0 && p.2.1 == 4)).map (·.1.2)
        let y := d.addSpills id i down
        (y.2.stageUpd id i (fun st => { st with inq := updAt st.inq k (fun c => { c with held := l, spills := c.spills ++ y.1 }) })).spillRun id (y.1.length + 1)) d

/-- The pieces of a stage's partition or finishing work that no charge has taken yet, the same. -/
def Dev.recutWork (d : Dev) (id i : Nat) : Dev :=
  match d.query id with
  | none => d
  | some q =>
    let st := q.stage i
    let lots := st.parts.getD [] ++ st.finishing.getD []
    let mine := st.placed.filter (fun p => lots.any (fun w => w.leaf == p.1))
    let l := restow (d.stageRes q i) (d.waysOf q.x) [] (mine.map (·.2))
    let deep := (mine.zip l).filter (fun p => p.1.2.1 == 0 && p.2.1 == 4)
    let y := d.addSpills id i (deep.map (·.2.2))
    let more := fun (w : Lot) => { w with spills := w.spills ++ (((deep.map (·.1.1)).zip y.1).filter (fun p => p.1 == w.leaf)).map (·.2) }
    (y.2.stageUpd id i (fun st => { st with
      placed := (mine.zip l).map (fun p => (p.1.1, p.2)), parts := st.parts.map (·.map more), finishing := st.finishing.map (·.map more) })).spillRun id (y.1.length + 1)

/-- The messages that a stage's flows retain, the same. -/
def Dev.recutMsgs (d : Dev) (id i : Nat) : Dev :=
  match d.query id with
  | none => d
  | some q =>
    let flows := d.fab.sflows.filter (fun f => f.query == id && f.stage == i)
    let old := (flows.map (fun f => (f.msgs.map (·.held)).flatten)).flatten
    let l := restow (d.stageRes q i) (d.waysOf q.x) [] old
    let down := ((old.zip l).filter (fun p => p.1.1 == 0 && p.2.1 == 4)).map (·.1.2)
    let again := flows.foldl (fun (acc : List SFlow × List (Nat × Nat)) f =>
      let y := f.msgs.foldl (fun (a : List XMsg × List (Nat × Nat)) m => (a.1 ++ [{ m with held := a.2.take m.held.length }], a.2.drop m.held.length)) ([], acc.2)
      (acc.1 ++ [{ f with msgs := y.1 }], y.2)) ([], l)
    let y := d.addSpills id i down
    ({ y.2 with fab := { y.2.fab with sflows := y.2.fab.sflows.map (fun f => (again.1.find? f.same).getD f) } } : Dev).spillRun id (y.1.length + 1)

/-- A stage of a running query at a step boundary: it holds no more of the scratchpad than its function's share lets it (R486). -/
def Dev.recut (d : Dev) (id i : Nat) : Dev :=
  match d.query id with
  | none => d
  | some q =>
    if (q.image.resources.getD (q.image.stages.getD i {}).res {}).scratch ≤ (d.stageRes q i).scratch then d
    else ((d.recutChunks id i).recutWork id i).recutMsgs id i

/-- The partition or finishing work of a stage begins once all its input is in (R199, R201, R210, R219). -/
def Dev.startFinish (d : Dev) (id i : Nat) : Dev :=
  match d.query id with
  | none => d
  | some q =>
    let s := q.image.stages.getD i {}
    let st := q.stage i
    let idle := q.inputsEnded i && st.inq.isEmpty && st.charges.all (fun c => !c.state.live) && st.finishing.isNone && !st.stopped &&
      (st.parts.getD []).isEmpty && q.ending.isNone
    let t := ((q.stage (buildOf q.image i)).table).getD {}
    if !idle then d
    else if gathers q.image s || streams q.image s then
      d.setWork id i (finishStage q.image q.params { auto := q.autonomous, recorded := q.recorded i, stage := i } st)
        (fun st l => { st with finishing := some l, gathered := [] })
    else if s.op ≠ 0x08 then d
    else if q.gathering i && st.parts.isNone then d.setWork id i (probeLots q.image i t st) (fun st l => { st with parts := some l, gathered := [] })
    else d.setWork id i (probeTail q.image i t st.matched) (fun st l => { st with finishing := some l })

/-- A stage that is over ends the inputs it feeds; an EMIT ends its stream, an EXCHANGE_SEND sends its end of stream. -/
def Dev.endInputs (d : Dev) (id i : Nat) : Dev :=
  match d.query id with
  | none => d
  | some q =>
    if !q.stageOver i then d
    else
      let s := q.image.stages.getD i {}
      let d1 := (q.image.edges.filter (fun e => e.src == i)).foldl (fun d e =>
        d.stageUpd id e.dst (fun st => if st.ended.contains e.dstPort then st else { st with ended := st.ended ++ [e.dstPort] })) d
      let k := ordinal q.image i
      if s.op = 0x13 && !(q.rings.getD k { addr := 0, buffers := 1, vector := 0, bytes := 0, addrs := [] }).ended then
        (d1.queryUpd id (fun q => { q with rings := updAt q.rings k (fun r => { r with ended := true, due := [] }) })).ringRun id k i
      else if s.op = 0x11 then d1.pumpSend id i true ((q.stage i).charges.length + (q.stage i).old.length + 2)
      else d1

/-- Whether every flow a query sends has ended: its messages with rows have been consumed, and the others sent (R342, R354). -/
def Dev.flowsDrained (d : Dev) (id : Nat) : Bool :=
  (d.fab.sflows.filter (fun f => f.query == id)).all (fun f => f.msgs.all (fun m => m.sent && m.data.isEmpty))

/-- The query leaves the device: its image is unpinned, its holds, spill rows and outstanding reads are gone (R69, R140, R192). -/
def Dev.removeQuery (d : Dev) (q : Query) : Dev :=
  let d1 : Dev := { d with
    qry := { d.qry with
      queries := d.qry.queries.filter (fun k => k.id != q.id)
      cache := dropEmptied (updWhere (fun c => c.pins.contains q.id) (fun c => { c with pins := c.pins.filter (· != q.id) }) d.qry.cache)
      hearths := d.qry.hearths.map (fun p => (p.1, { p.2 with slots := p.2.slots.filter (fun r => r.query != q.id) })) }
    store := { d.store with
      groups := d.store.groups.map (fun g => { g with spill := g.spill.filter (fun s => s.2 != q.id + 2) }) } }
  let rows := q.granted ++ (q.spills.map (·.rows)).flatten
  let back := match d.space q.ts with | some s => !rows.isEmpty && s.owner != d.twin.pos && !d.twin.alone | none => false
  let d2 := if back then d1.twinSend 3 (2 :: q.ts :: (rows.map (fun r => [r.1, r.2])).flatten) [] else d1
  ((d2.dropCmds (fun c => match c.use with | .charge k _ _ => k == q.id | .spill k => k == q.id | _ => false)).holdMoved q.ts).closeRegions (.query q.id)

/-- The completion of a query that ends (R28, Table 13.14). -/
def Dev.closeQuery (d : Dev) (id : Nat) : Dev :=
  match d.query id with
  | none => d
  | some q =>
    let running := q.stages.any (fun st => st.charges.any (fun c => c.state == .running))
    match q.ending with
    | some e =>
      if running then d
      else
        let d1 := (d.removeQuery q).closeExchanges q (if e.status = 0x1004 ∨ e.status = 0x1005 then 2 else 3)
        if q.silent then d1.qpUpd q.x q.q (fun p => { p with cmds := p.cmds.filter (fun c => c.cid != q.cid) })
        else d1.complete q.x q.q q.cid { status := e.status, detail := e.detail, reason := e.reason }
    | none =>
      let n := q.stages.length
      let ovr := (List.range n).all q.stageOver
      let store := (List.range n).find? (fun i => (q.image.stages.getD i {}).op == 0x14)
      if !ovr || !(q.rings.all (·.finished)) then d
      else match store, q.storeEpoch with
        | some i, none => if q.storeAsked || !(q.stage i).charges.all (fun c => c.held || c.state == .cancelled) then d else d.storeReady q i
        | _, ep =>
          if !d.flowsDrained id then d else
          ((d.removeQuery q).closeExchanges q 1).complete q.x q.q q.cid
            { r0 := q.emitted, r1 := ep.getD q.epoch, detail := min q.dropped 0xFFFFFFFF }

/-- Whether what a stage makes of a charge depends on others that it took: the stateful stages of R519, a LIMIT, and a stage fed by several. -/
def Query.mixes (q : Query) (i : Nat) : Bool :=
  let s := q.image.stages.getD i {}
  gathers q.image s || streams q.image s || s.op == 0x08 || s.op == 0x09 || s.op == 0x0F ||
    decide (1 < (q.image.edges.filter (fun e => e.dst == i)).length)

/-- Charges of a resumed query that need not be run again since the charges they took have not been (R518, R519): in a stage that keeps nothing,
those of the same number, or whose checkpoints took such charges alone; a stage that mixes what it takes was over, and runs no more, and so does
the PROBE of a BUILD that was. -/
def Dev.passOld (d : Dev) (id i : Nat) : Dev :=
  match d.query id with
  | none => d
  | some q =>
    let st := q.stage i
    let op := (q.image.stages.getD i {}).op
    let b := q.stage (buildOf q.image i)
    let cks := q.resume.filter (fun k => k.1 == i)
    let from_ := ((q.image.edges.filter (fun e => e.dst == i)).map (fun e => (q.stage e.src).old)).flatten
    let whole := (q.mixes i && !from_.isEmpty) || (op == 0x08 && b.stopped && !b.old.isEmpty)
    let new := if op = 0x12 then [] else if whole then cks.map (·.2.1)
      else if (q.image.stages.getD i {}).ordered then from_
      else (cks.filter (fun k => !k.2.2.ups.isEmpty && k.2.2.ups.all from_.contains)).map (·.2.1)
    let add := new.filter (fun k => !st.old.contains k)
    if add.isEmpty && (!whole || st.stopped) then d
    else
      let rows := if op = 0x13 then ((cks.filter (fun k => add.contains k.2.1)).map (·.2.2.rows)).sum else 0
      let d1 := (d.queryUpd id (fun q => { q with emitted := q.emitted + rows })).stageUpd id i (fun st => { st with old := st.old ++ add })
      if whole then d1.stageUpd id i (fun st => { st with stopped := true, inq := [], finishing := some [] }) else d1

/-- Everything that follows of itself from what has become visible: voids move on, finishing work begins, inputs end, the query ends. -/
def Dev.settle (d : Dev) (id : Nat) : Dev :=
  match d.query id with
  | none => d
  | some q =>
    let d1 := (List.range q.stages.length).foldl (fun d i =>
      let d1 := d.passOld id i
      let n := match d1.query id with | some k => (k.stage i).charges.length + (k.stage i).old.length + 1 | none => 1
      ((d1.releaseVoids id i n).startFinish id i).endInputs id i) d
    let d2 := d1.closeQuery id
    match d2.query id with
    | some q2 => if q2.ending.isSome || (q2.storeEpoch.isSome && q.storeEpoch.isNone) then d2.closeQuery id else d2
    | none => d2

/-! ### The scheduler's choices (R312 to R317) -/

/-- A READY or slotted charge of a running query. -/
structure Cand where
  x : Nat
  ref : CRef
  since : Nat
  state : CState
  affinity : Option Nat
  failedOn : List Nat
  hearth : Option Nat
deriving DecidableEq, Repr, Inhabited

/-- The affinity hearth of a charge (R312): the one that last completed a charge of its stage, or for partition work the one that holds the
partition's table. -/
def Query.affinity (q : Query) (i : Nat) (c : Charge) : Option Nat :=
  match c.leaf with
  | none => (q.stage i).affinity
  | some l => ((q.stage (if (q.image.stages.getD i {}).op = 0x08 then buildOf q.image i else i)).homes.find? (fun p => p.1 == l)).map (·.2)

/-- The charges in some states. -/
def Dev.cands (d : Dev) (p : CState → Bool) : List Cand :=
  (d.qry.queries.map (fun q => ((List.range q.stages.length).map (fun i =>
    let st := q.stage i
    (st.charges.filter (fun c => p c.state)).map (fun c =>
      (⟨q.x, ⟨q.id, i, c.idx, c.work⟩, c.since, c.state, q.affinity i c, c.failedOn, c.hearth⟩ : Cand)))).flatten)).flatten

/-- The order within a group: oldest query, then highest stage number, then lowest charge index (R312). -/
def Cand.before (a b : Cand) : Bool :=
  decide (a.ref.query < b.ref.query) ||
  (a.ref.query == b.ref.query && (decide (b.ref.stage < a.ref.stage) || (a.ref.stage == b.ref.stage && decide (a.ref.idx < b.ref.idx))))

def bestCand (l : List Cand) : Option Cand := l.foldl (fun m c => match m with | none => some c | some b => if c.before b then some c else some b) none

/-- V_f of a function. -/
def Dev.vOf (d : Dev) (x : Nat) : Nat := tabGet 0 d.qry.vf x

/-- The function served (R317): of least V, the lowest function index on a tie. -/
def Dev.leastV (d : Dev) (l : List Cand) : Option Nat :=
  l.foldl (fun (m : Option Nat) c => match m with
    | none => some c.x
    | some x => if d.vOf c.x < d.vOf x ∨ (d.vOf c.x = d.vOf x ∧ c.x < x) then some c.x else some x) none

/-- Whether a hearth takes charges (R315): enabled, powered and clocked, not held by the window, not parked, no column repair ahead (R378). -/
def Hearth.takes (h : Hearth) : Bool := h.on && h.powered && !h.rx4 && !h.parked && h.mend.isEmpty

/-- A hearth that takes charges: one that Bellows has powered for a request alone does not (R530, R542). -/
def Dev.worksOn (d : Dev) (h : Nat) : Bool := (d.hearth h).takes && tabGet 0 d.pwr.demand h == 0

/-- The charge a hearth fills a slot with (R312). -/
def Dev.slotPick (d : Dev) (h : Nat) : Option Cand :=
  let el := (d.cands (· == .ready)).filter (fun c => !c.failedOn.contains h && (c.affinity == some h || c.affinity == none))
  match d.leastV el with
  | none => none
  | some x =>
    let mine := el.filter (fun c => c.x == x)
    match bestCand (mine.filter (fun c => c.affinity == some h)) with
    | some c => some c
    | none => bestCand mine

/-- The charge a hearth steals (R313): those without affinity before the others (DEDUCED, notes/assumptions/171.md). -/
def Dev.stealPick (d : Dev) (h : Nat) : Option Cand :=
  let el := (d.cands (fun s => s == .ready || s == .slotted)).filter (fun c =>
    !c.failedOn.contains h && decide (50 ≤ d.timeUs - c.since) &&
    (if c.state = .slotted then c.hearth != some h else c.affinity.isSome && c.affinity != some h))
  match d.leastV el with
  | none => none
  | some x =>
    let mine := el.filter (fun c => c.x == x)
    match bestCand (mine.filter (fun c => c.affinity.isNone)) with
    | some c => some c
    | none => bestCand mine

/-- A charge put into a slot. -/
def Dev.slotCharge (d : Dev) (h : Nat) (c : Cand) : Dev :=
  match d.query c.ref.query with
  | none => d
  | some q =>
    let n := (d.hearth h).slots.length
    ((d.chargeUpd c.ref (fun k => { k with state := .slotted, hearth := some h, slot := n })).hearthUpd h (fun x => { x with slots := x.slots ++ [c.ref] })).trace
      (q.trec c.ref.stage c.ref.idx 0x02 n 0 0 h)

/-- A function is about to get a READY or RUNNING charge: where it has none, its virtual time is raised (R317). -/
def Dev.wakeFn (d : Dev) (x : Nat) : Dev :=
  let busy := d.cands (fun s => s == .ready || s == .running)
  if busy.any (fun c => c.x == x) || busy.isEmpty then d
  else
    let least := lowest (2 ^ 64 - 1) (busy.map (fun c => d.vOf c.x))
    if d.vOf x < least then { d with qry := { d.qry with vf := tabSet 0 d.qry.vf x least } } else d

end Sys2Proof.Machine
end

