-- ==== Sys2Proof/Machine/Engines.lean ====
section
/-!
DEFINITION. Sys2Proof/Machine/Engines.lean: the shared compression and digest engines (R100, R101): contexts, waiting users and turns.
-/
namespace Sys2Proof.Machine

def Dev.engines (d : Dev) (comp : Bool) : List Engine := if comp then d.host.compEng else d.host.digEng
def Dev.setEngines (d : Dev) (comp : Bool) (l : List Engine) : Dev :=
  if comp then { d with host := { d.host with compEng := l } } else { d with host := { d.host with digEng := l } }
def Dev.engWaiting (d : Dev) (comp : Bool) : List EngUser := if comp then d.host.waitComp else d.host.waitDig
def Dev.setEngWaiting (d : Dev) (comp : Bool) (l : List EngUser) : Dev :=
  if comp then { d with host := { d.host with waitComp := l } } else { d with host := { d.host with waitDig := l } }

/-- The engine with the most free contexts of 64, the lowest-numbered on a tie; none when every context is held. -/
def pickEngine (l : List Engine) : Option Nat :=
  (List.range l.length).foldl (fun (m : Option Nat) i =>
    let n := (l.getD i {}).holders.length
    if 64 ≤ n then m else match m with
      | some k => if n < (l.getD k {}).holders.length then some i else m
      | none => some i) none

/-- A user given a context on an engine; an idle engine begins its block. -/
def Engine.add (e : Engine) (u : EngUser) : Engine := { holders := e.holders ++ [u], now := match e.now with | some k => some k | none => some u }

/-- A new user takes a context or waits (R101). -/
def Dev.engJoin (d : Dev) (comp : Bool) (u : EngUser) : Dev :=
  match pickEngine (d.engines comp) with
  | some i => d.setEngines comp (updAt (d.engines comp) i (·.add u))
  | none => d.setEngWaiting comp (d.engWaiting comp ++ [u])

/-- The holder whose turn comes after another's: round robin (DEDUCED, notes/assumptions/117.md). -/
def Engine.after (e : Engine) (u : EngUser) : Option EngUser :=
  match e.holders.findIdx? (· == u) with
  | some i => e.holders[(i + 1) % e.holders.length]?
  | none => e.holders.head?

/-- A user's message ends, by its last block or by being discarded (R101): its context is free, and the longest-waiting user takes it. -/
def Dev.engLeave (d : Dev) (comp : Bool) (u : EngUser) : Dev :=
  let drop := fun (e : Engine) =>
    if e.holders.contains u then
      let e1 : Engine := { e with holders := e.holders.filter (· != u) }
      { e1 with now := if e.now = some u then (match e.after u with | some k => if k = u then none else some k | none => none) else e.now }
    else e
  let had := (d.engines comp).any (fun e => e.holders.contains u)
  let d1 := (d.setEngines comp ((d.engines comp).map drop)).setEngWaiting comp ((d.engWaiting comp).filter (· != u))
  if !had then d1
  else match d1.engWaiting comp with
    | w :: r => (d1.setEngWaiting comp r).engJoin comp w
    | [] => d1

/-- Whether a user holds a context. -/
def Dev.engHolds (d : Dev) (comp : Bool) (u : EngUser) : Bool := (d.engines comp).any (fun e => e.holders.contains u)

/-- The user a charge is. -/
def CRef.user (r : CRef) : EngUser := ⟨true, r.query, r.stage, 2 * r.idx + b2n r.gather⟩
/-- The user a DIGEST, COMPRESS or INGEST command is. -/
def jobUser (x q cid : Nat) : EngUser := ⟨false, x, q, cid⟩

/-- Whether a stage works on a shared engine, and on which kind. -/
def engineOf (op : Nat) : Option Bool := if op = 0x15 then some false else if op = 0x16 then some true else none

end Sys2Proof.Machine
end

