-- ==== Sys2Proof/Machine/Rates.lean ====
section
/-!
DEFINITION. Sys2Proof/Machine/Rates.lean: the hearth clocks of stages and instructions (Tables 5.8, 6.11, 7.10), from which the scheduler's
estimate is drawn (R179, R223, R255, R304). A figure that depends on what the rows of a billet hold is left out of these sums and comes with the
command that cuts (DESIGN CHOICE, notes/assumptions/164.md).
-/
namespace Sys2Proof.Machine

/-- The registers in the largest group an instruction reads or writes (R255). -/
def xGroup (op : XOp) (w : XFields) : Nat :=
  match op with
  | .cvt => max w.xty.group ((XTy.ofCode w.mod.toNat).getD .i8).group
  | .wmul => 2
  | _ => w.xty.group

/-- The clocks of an instruction in a slice with every lane executing (Table 7.10). -/
def xClocks (narrow : Bool) (op : XOp) (w : XFields) : Nat :=
  let g := xGroup op w
  let of := fun (x y : Nat) => if narrow then y else x
  let wide64 := w.xty.bits == 64
  match op with
  | .outV | .vld | .vldf | .vrow | .vbc | .vbp | .vbs | .viota | .tst => of (2 * g) (16 * g)
  | .add | .sub | .and | .or | .xor | .shl | .shr | .min | .max | .abs | .neg | .not => of (2 * g) (16 * g)
  | .cmp | .vsel | .valid | .setnull | .vlds | .vsts | .wmul | .cvt => of (2 * g) (16 * g)
  | .mld | .vldn | .mout => 2
  | .vld2 => of (4 * g) (32 * g) | .vld3 => of (6 * g) (48 * g) | .vld4 => of (8 * g) (64 * g)
  | .mul | .mulh => if wide64 then of 8 64 else of 2 16
  | .dot8 => of 2 16 | .dot16 => of 4 32
  | .div | .rem | .divrem => 4 + 16 * w.xty.laneBits
  | .ddiv => 4 + 16 * 128
  | .fadd | .fsub | .fmul | .fma | .fmin | .fmax | .fabs | .fneg => if wide64 then of 4 32 else of 2 16
  | .fdiv | .fsqrt => if wide64 then of 48 384 else of 24 192
  | .dadd | .dsub | .pchk => of 8 64 | .dmul => of 32 256 | .dscale | .padd | .psub => of 16 128
  | .vgath | .vscat => 12
  | .scmp | .spre | .ssuf | .sfind | .slen | .strSsub | .rpm | .rpx => 8
  | .cml => 33
  | .radd => if w.xty.isFp then of 32 256 else of 8 64
  | .rmin | .rmax => of 8 64
  | .nop | .endS | .brz | .brnz | .brmz | .setsel | .eclr | .slc | .slp | .sli => 1
  | .mand | .mor | .mxor | .mandn | .mnot | .mmov | .mcnt | .merr | .movf => 1
  | .sadd | .scalSsub | .sand | .sor | .sxor | .sshl | .sshr | .smul | .smov | .slt | .sltu => 1

/-- The clocks of a stage's code over the 16 slices of a full billet, each word run once. -/
def codeClocks (im : Image) (i : Nat) : Nat :=
  let s := im.stages.getD i {}
  if s.codeA = 0xFFFF then 0 else 16 * ((im.codes.getD s.codeA {}).instrs.map (fun y => xClocks false y.1 y.2)).sum

/-- The words that keyhash64 absorbs for a row's key, tags and values, but for the values of strings (Table 6.11). -/
def keyWordCount (tys : List SlotTy) (keys : List Nat) : Nat :=
  (keys.map (fun k => 1 + (match (tys.getD k default).ty.kind with | .decimal | .packed => 2 | .bytes => 0 | _ => 1))).sum

/-- The clocks of the key hashes of a billet (Table 6.11). -/
def hashClocks (tys : List SlotTy) (keys : List Nat) : Nat := 32 + 16 * keyWordCount tys keys

/-- A row of nulls, as the size of a row before its strings. -/
def bareRow (tys : List SlotTy) : BRow := { vals := tys.map (fun _ => none) }

/-- The words of a normalized key (R220). -/
def normWords (tys : List SlotTy) (keys : List SortKey) : Nat :=
  (keys.map (fun k => match (tys.getD k.slot default).ty.kind with | .decimal | .packed | .bytes => 2 | _ => 1)).sum

/-- The bytes of an entry of a BUILD before its strings (R188). -/
def bareEntry (tys : List SlotTy) (keys : List Nat) (carry : Nat) : Nat :=
  ((buildEntries tys keys carry true [bareRow tys]).map (entryBytes tys keys carry)).headD 16

/-- The clocks of one billet of a stage that works billet by billet, or gathers (Tables 5.8, 6.11). -/
def billetClocks (im : Image) (i : Nat) : Nat :=
  let s := im.stages.getD i {}
  let p := im.block s
  let tys := inTypes im i 0
  let keys := keyList p (fieldAt p 0 1)
  match s.op with
  | 0x01 => s.bCount * 144
  | 0x04 | 0x05 => 12 + codeClocks im i
  | 0x06 => if fieldAt p 0 1 = 2 then 528 else 32
  | 0x07 => 256 + 16 * bareEntry tys keys (fieldAt p 0x10 8) + hashClocks tys keys
  | 0x08 => 512 + hashClocks tys keys + codeClocks im i
  | 0x09 => 128 + 16 * (partBytes tys (bareRow tys)) + hashClocks tys keys
  | 0x0A => 512 + ((aggList p).map (fun a => if (a.fn = 2 ∨ a.fn = 5) ∧ (tys.getD a.src default).ty.kind = .float then 2048 else 256)).sum + hashClocks tys keys
  | 0x0B => if fieldAt p 0 1 < 2 then 288 + hashClocks tys [fieldAt p 1 1] else 0
  | 0x0C => 672 * normWords tys (sortKeys p (fieldAt p 0 1))
  | 0x0E => 96
  | 0x0F => 8
  | 0x10 => 4
  | 0x13 => 12
  | 0x14 => 64 * tys.length + codeClocks im i
  | 0x15 | 0x16 => 16
  | _ => 0

/-- The clocks of 2,048 rows of a stage's partition or finishing work (Table 6.11). -/
def lotClocks (im : Image) (i : Nat) : Nat :=
  let s := im.stages.getD i {}
  let p := im.block s
  let tys := inTypes im i 0
  match s.op with
  | 0x07 => 256 + 16 * bareEntry tys (keyList p (fieldAt p 0 1)) (fieldAt p 0x10 8)
  | 0x08 => billetClocks im i
  | 0x0A => 4 * billetRows
  | 0x0C | 0x0D => 1024 + 16 * rowBytes tys (bareRow tys)
  | _ => 0

/-- The clocks to decode a page, billet by billet (Table 5.8). -/
def pageClocks (t : SlotTy) (p : Bytes) : Nat :=
  let n := ceilDiv (fieldAt p 0x14 4) billetRows
  let s := t.width.getD 0
  let enc := fieldAt p 5 1
  let one := match if enc = 5 then fieldAt p 0xAC 1 else enc with
    | 0 => (match t.width with | some _ => 16 * s + 8 | none => fieldAt p 0x30 4 / max 1 n / 128 + 24)
    | 1 => max (2 * fieldAt p 0x80 1) (8 * s) + 16
    | 2 => 8 * s + 2 * ceilDiv (fieldAt p 0x80 4) (max 1 n) + 8
    | 3 => max (2 * fieldAt p 0x90 1) (8 * s) + 8
    | _ => 8 * s + 2 * fieldAt p 0x90 1 + 32
  n * one

/-- The clocks of a source's unit: the decode of the pages of its bindings, or for a SKIP its header and its page tests (Table 5.8). -/
def unitClocks (im : Image) (i e : Nat) (sp : TSpace) (table : Nat) (u : Nat × Nat) : Nat :=
  let s := im.stages.getD i {}
  let binds := im.stageBinds s
  if s.op = 0x02 then
    ((skipTests (im.block s)).map (fun k =>
      let pages := sp.pagesIn table (binds.getD k.binding {}).column e [u]
      24 + (pages.map (fun x => 6 + (if (k.op = 0 ∨ k.op = 7) ∧ (pageZone x.2.2.2).filterValid then 10 * k.count else 0))).sum)).sum
  else (binds.map (fun b => ((sp.pagesIn table b.column e [u]).map (fun x => pageClocks (b.ty.getD default) x.2.2.2)).sum)).sum

end Sys2Proof.Machine
end

