-- ==== Sys2Proof/Machine/Charges.lean ====
section
/-!
DEFINITION. Sys2Proof/Machine/Charges.lean: the life of a charge (10_charges.md): cutting, slots, starting, completion, release,
cancellation and restart.
-/
namespace Sys2Proof.Machine

/-! ### Cutting (R304 to R306, R318, Table 10.1) -/

/-- The pages a source charge reads over some ranges, counted over its bound columns. -/
def pageCount (sp : TSpace) (t : Table) (binds : List BindRec) (e : Nat) (ranges : List (Nat × Nat)) : Nat :=
  (binds.map (fun b => (sp.pagesIn t.id b.column e ranges).length)).sum

/-- The extent headers a SKIP charge tests over some ranges. -/
def headerCount (sp : TSpace) (t : Table) (binds : List BindRec) (e : Nat) (ranges : List (Nat × Nat)) : Nat :=
  (binds.map (fun b => ((sp.extentsOf t.id b.column e).filter (fun x => !(meetRanges [(x.firstRow, x.rows)] ranges).isEmpty)).length)).sum

/-- What the scheduler's estimate adds to the figures of the tables (R304, notes/assumptions/164.md): clocks for each unit, by what its rows hold,
and clocks once for the charge. -/
structure CutMore where
  perUnit : Nat := 0
  once : Nat := 0
deriving DecidableEq, Repr, Inhabited

/-- The hearth clock a query's charges are cut at, in MHz: a resumed one keeps that of its last checkpoint (R517). -/
def Dev.cutMhz (d : Dev) (q : Query) : Nat := q.clock.getD d.hearthMhz
/-- The clocks of 200 µs (R304). -/
def Dev.cutBudget (d : Dev) (q : Query) : Nat := 200 * d.cutMhz q

/-- The clocks that the tables give the units of a source charge. -/
def Dev.sourceClocks (d : Dev) (q : Query) (i : Nat) (us : List (Nat × Nat)) : Nat :=
  match d.space q.ts, bindTable q.params ((q.image.stageBinds (q.image.stages.getD i {})).headD {}) with
  | some sp, some tid => (us.map (unitClocks q.image i q.epoch sp tid)).sum
  | _, _ => 0

/-- How many of a source's units a charge takes: the most that its estimate and the bound of Table 10.1 allow, and at least one (R304). -/
def Dev.sourceTake (d : Dev) (q : Query) (i : Nat) (l : List (Nat × Nat)) (m : CutMore) : Nat :=
  let s := q.image.stages.getD i {}
  let binds := q.image.stageBinds s
  match d.space q.ts, bindTable q.params (binds.headD {}) with
  | some sp, some tid =>
    (match sp.table tid q.epoch with
     | some t =>
       let fits := fun (k : Nat) => decide ((if s.op = 0x02 then headerCount sp t binds q.epoch (l.take k) else pageCount sp t binds q.epoch (l.take k)) ≤ 256) &&
         decide (d.sourceClocks q i (l.take k) + k * m.perUnit + m.once ≤ d.cutBudget q)
       ((List.range (l.length + 1)).filter (fun k => k != 0 && (k == 1 || fits k))).foldl max 1
     | none => 1)
  | _, _ => 1

/-- How many units of `clocks` each a charge takes, of at most 128 (R304, Table 10.1). -/
def Dev.unitsIn (d : Dev) (q : Query) (clocks : Nat) (m : CutMore) : Nat :=
  max 1 (min 128 ((d.cutBudget q - m.once) / max 1 (clocks + m.perUnit)))

/-- Chunks for a charge of an unordered stage: whole chunks, or the first billets of one, up to n billets. -/
def takeChunks : Nat → List Chunk → List Chunk × List Chunk
  | _, [] => ([], [])
  | n, c :: r =>
    if c.billets.length ≤ n then let y := takeChunks (n - c.billets.length) r; if n = 0 then ([], c :: r) else (c :: y.1, y.2)
    else if n = 0 then ([], c :: r)
    else ([{ c with billets := c.billets.take n }],
      { c with billets := c.billets.drop n, pos := c.pos + (liveRows (c.billets.take n)).length } :: r)

/-- The next charge index of a stage: those of a resumed query that are not run again are passed over (R518). -/
def StageRun.nextRun (st : StageRun) : Nat :=
  ((List.range (st.old.length + 1)).find? (fun k => !st.old.contains (st.nextIdx + k))).getD 0 + st.nextIdx

/-- The input of a charge of an unordered stage: what its checkpoint records, else what no later checkpoint claims (R329, R517); none while it has not
come. A LIMIT's rows keep the positions that the checkpoint records. -/
def Query.takeInput (q : Query) (i n idx : Nat) (again : Option Ckpt) : Option (List Chunk × List Chunk) :=
  let st := q.stage i
  let mine := q.resume.filter (fun k => k.1 == i)
  match again with
  | some k =>
    let pick := k.ups.filterMap (fun u => st.inq.find? (fun c => c.up == u))
    if pick.length < k.ups.length then none
    else
      let y := takeChunks n pick
      let at0 := k.limit - (liveRows ((y.1.map (·.billets)).flatten)).length
      let first := if (q.image.stages.getD i {}).op = 0x0F then updAt y.1 0 (fun c => { c with pos := at0 }) else y.1
      some (first, y.2 ++ st.inq.filter (fun c => !pick.contains c))
  | none =>
    let claimed := ((mine.filter (fun k => decide (idx < k.2.1))).map (fun k => k.2.2.ups)).flatten
    let free := st.inq.filter (fun c => !claimed.contains c.up)
    if free.isEmpty then (if q.inputsEnded i then some (takeChunks n st.inq) else none)
    else let y := takeChunks n free; some (y.1, y.2 ++ st.inq.filter (fun c => claimed.contains c.up))

/-- The row that a source SCAN must not reach yet: the first that the SKIP that feeds it may still admit (R305). -/
def Query.skipFloor (q : Query) (i : Nat) : Option Nat :=
  match q.image.feed i 0 with
  | none => none
  | some e =>
    let st := q.stage e.src
    let rows := (((st.charges.filter (fun c => c.state.live)).map (·.ranges)).flatten ++ st.units).map (·.1)
    match rows with | [] => none | r :: rs => some (rs.foldl min r)

/-- A charge that works on a share of partition or finishing work. -/
def Charge.ofLot (idx : Nat) (w : Work) (l : Lot) : Charge :=
  { idx := idx, work := w, rows := l.rows, err := if l.err.isEmpty then [] else [{ rows := l.err }], leaf := l.leaf, block := l.block, last := l.last, spills := l.spills }

/-- The next share of finishing work of at most `k` rows, with what is left: a partition is one charge (Table 10.1). -/
def nextLot (k : Nat) : List Lot → Option (Lot × List Lot)
  | [] => none
  | l :: r =>
    if l.leaf.isSome || l.rows.length ≤ k then some (l, r)
    else some ({ l with rows := l.rows.take k }, { l with rows := l.rows.drop k, err := [], spills := [] } :: r)

/-- The next partition of a PROBE: in ascending number, the blocks of one partition after one another (R205). -/
def StageRun.nextPart (st : StageRun) (l : List Lot) : Option (Lot × List Lot) :=
  match l.findIdx? (fun p => !st.charges.any (fun c => c.state.live && c.leaf.isSome && c.leaf == p.leaf)) with
  | some k => (l[k]?).map (fun p => (p, l.eraseIdx k))
  | none => none

/-- The clocks that the tables give a unit of a stage that is no source: a billet of input, or 2,048 rows of partition or finishing work. -/
def Query.unitCost (q : Query) (i : Nat) : Nat :=
  if (q.stage i).finishing.isSome || (q.stage i).parts.isSome then lotClocks q.image i else billetClocks q.image i

/-- The next charge of a stage, with the stage after the cut: none when there is nothing to cut (DEDUCED, notes/assumptions/110.md). -/
def Dev.nextCut (d : Dev) (q : Query) (i : Nat) (m : CutMore) : Option (Charge × StageRun) :=
  let s := q.image.stages.getD i {}
  let st := q.stage i
  let idx := st.nextRun
  let again := if s.ordered && gathers q.image s && st.finishing.isNone then none else q.resume.find? (fun k => k.1 == i && k.2.1 == idx)
  let n := match again with | some k => max 1 (min k.2.2.take 128) | none => d.unitsIn q (q.unitCost i) m
  if st.stopped || !d.spillsReady q i then none
  else if isSource q.image i then
    let open_ : List (Nat × Nat) := match q.skipFloor i with | some r => st.units.takeWhile (fun u => decide (u.1 < r)) | none => st.units
    (match open_ with
     | [] => none
     | _ :: _ =>
       let k := min open_.length (match again with | some c => c.2.2.ranges.length | none => d.sourceTake q i open_ m)
       some ({ idx := idx, ranges := st.units.take k }, { st with units := st.units.drop k, nextIdx := idx + 1 }))
  else
    match st.finishing, st.parts with
    | some lots, _ => (nextLot (n * billetRows) lots).map (fun y =>
        ({ Charge.ofLot idx .finish y.1 with take := n }, { st with finishing := some y.2, nextIdx := idx + 1 }))
    | none, some lots => (st.nextPart lots).map (fun y =>
        ({ Charge.ofLot idx .flow { y.1 with rows := [] } with input := [{ billets := toBillets y.1.rows }] }, { st with parts := some y.2, nextIdx := idx + 1 }))
    | none, none =>
      match st.inq with
      | [] => none
      | c :: r =>
        if s.op = 0x08 && !q.tableReady i then none
        else if q.gathering i && s.ordered then
          let y := takeChunks n st.inq
          some ({ idx := st.nextPrep, work := .gather, take := n, input := y.1 }, { st with inq := y.2, nextPrep := st.nextPrep + 1 })
        else if s.op = 0x12 || s.ordered then some ({ idx := c.up, input := [c] }, { st with inq := r, nextIdx := c.up + 1 })
        else (q.takeInput i n idx (again.map (·.2.2))).map (fun y =>
          ({ idx := idx, work := if q.gathering i then .gather else .flow, take := n, input := y.1 }, { st with inq := y.2, nextIdx := idx + 1 }))

/-- Charges cut and waiting. -/
def StageRun.waiting (st : StageRun) : Nat := (st.charges.filter (fun c => c.state == .ready || c.state == .slotted)).length

/-- The units in a charge (Table 10.1): extents or admitted ranges, billets or 2,048 output rows, a partition or a message as one. -/
def Charge.units (im : Image) (i : Nat) (c : Charge) : Nat :=
  if c.leaf.isSome ∨ (im.stages.getD i {}).op = 0x12 then 1
  else max 1 (c.ranges.length + c.billets.length + ceilDiv c.rows.length billetRows)

/-- The estimate a charge is cut with (R304). -/
def Dev.estimate (d : Dev) (q : Query) (i : Nat) (c : Charge) (m : CutMore) : Nat :=
  (if c.ranges.isEmpty then (c.billets.length + ceilDiv c.rows.length billetRows) * q.unitCost i else d.sourceClocks q i c.ranges) +
    c.units q.image i * m.perUnit + m.once

/-- A charge cut (R305): fewer than 64 wait, and a sequencing stage needs a sequence number of 48 bits. A void moves on as a void (R320). -/
def Dev.cut (d : Dev) (id i : Nat) (m : CutMore) : Dev :=
  match d.query id with
  | none => d
  | some q =>
    if q.ending.isSome || q.refetch || 64 ≤ (q.stage i).waiting then d
    else match d.nextCut q i m with
      | none => d
      | some (c, st) =>
        if isSequencing q.image i && c.work != .gather && decide (2 ^ 48 ≤ c.idx) then (d.failAt id 0x4008 i).settle id
        else
          let void := c.input.any (·.void)
          let mode := if q.autonomous then d.qry.modeChoice.toList.map (fun m => (5, m)) else []
          let c1 : Charge := { c with
            since := d.timeUs, mhz := d.cutMhz q, state := if void then .cancelled else .ready
            spills := c.spills ++ (c.input.map (·.spills)).flatten, decisions := st.decisions ++ mode }
          let d0 := if void then d else d.wakeFn q.x
          let d1 : Dev := { d0 with qry := { d0.qry with modeChoice := if mode.isEmpty then d0.qry.modeChoice else none } }
          let d2 := (d1.stageUpd id i (fun _ => { st with charges := st.charges ++ [c1], decisions := [] })).trace
            (q.trec i c.idx 0x01 (c.units q.image i) 0 (d.estimate q i c m) 0xFF)
          if void then d2.settle id else d2

/-! ### Drive reads of a charge (R63, R74, R157) -/

/-- The slot of a data page in its extent. -/
def Extent.slotOf (x : Extent) (first : Nat) : Nat := x.dictPages.length + x.pages.findIdx (fun p => p.1 == first)

/-- The page slots a charge reads: extent and slot, the dictionary before the data of a coded page. -/
def pageSlots (l : List (Extent × Nat × Nat × Bytes)) : List (Extent × Nat) :=
  ((l.map (fun p => (if pageIsDict p.2.2.2 then (List.range p.1.dictPages.length).map (fun k => (p.1, k)) else []) ++ [(p.1, p.1.slotOf p.2.1)])).flatten).eraseDups

/-- The rows a charge reads from drives. -/
def Charge.readRows (c : Charge) : List (Nat × Nat) :=
  if c.ranges.isEmpty then normRanges ((liveRows c.billets).filterMap (fun r => r.num.map (fun n => (n, 1)))) else c.ranges

/-- The page slots that a SCAN charge reads for each of its bindings, in ascending row order. -/
def Dev.chargeSlots (d : Dev) (q : Query) (i : Nat) (c : Charge) : List (Extent × Nat) :=
  let s := q.image.stages.getD i {}
  if s.op ≠ 0x01 then []
  else
    let binds := q.image.stageBinds s
    match d.space q.ts, bindTable q.params (binds.headD {}) with
    | some sp, some tid => ((binds.map (fun b => pageSlots (sp.pagesIn tid b.column q.epoch c.readRows))).flatten).eraseDups
    | _, _ => []

/-- The extents whose headers a SKIP charge tests (R152, R154). -/
def Dev.chargeHeads (d : Dev) (q : Query) (i : Nat) (c : Charge) : List Extent :=
  let s := q.image.stages.getD i {}
  if s.op ≠ 0x02 then []
  else
    let binds := q.image.stageBinds s
    match d.space q.ts, bindTable q.params (binds.headD {}) with
    | some sp, some tid => ((((skipTests (q.image.block s)).map (fun k => (binds.getD k.binding {}).column)).eraseDups).map (fun col =>
        (sp.extentsOf tid col q.epoch).filter (fun x => !(meetRanges [(x.firstRow, x.rows)] c.ranges).isEmpty))).flatten
    | _, _ => []

/-- Page slots as reads: slots that follow each other in one strip are one read, of at most `w` pages (R157). -/
def mergeReads (scheme : Nat → Nat) (ts w : Nat) : List (Extent × Nat) → List PRead
  | [] => []
  | (x, k) :: r =>
    let one : PRead := { ts := ts, ext := x.num, group := x.group, row := x.row, first := 16 * k, blocks := 16 }
    match mergeReads scheme ts w r with
    | p :: ps =>
      let sb := stripBlocks (scheme x.group)
      if p.ext = x.num ∧ p.first = 16 * (k + 1) ∧ p.first / sb = 16 * k / sb ∧ p.blocks < 16 * w then { p with first := 16 * k, blocks := p.blocks + 16 } :: ps
      else one :: p :: ps
    | [] => [one]

/-- The most pages a charge of a SCAN keeps in flight (R157); other stages' reads have no such bound. -/
def Query.pageWindow (q : Query) (i : Nat) : Nat :=
  let s := q.image.stages.getD i {}
  if s.op = 0x01 then max 1 (min (fieldAt (q.image.block s) 0 2) ((q.image.resources.getD s.res {}).hbm / 65536)) else 2 ^ 32

/-- The reads of a piece on level 4: the used part of each data strip of its rows. -/
def Dev.spillReads (d : Dev) (ts : Nat) (s : Spill) : List PRead :=
  ((List.range s.rows.length).map (fun k =>
    let r := s.rows.getD k (0, 0)
    let sb := stripBlocks (d.schemeOf r.1)
    (List.range (ceilDiv (16 * s.slots k) sb)).map (fun j =>
      ({ ts := ts, group := r.1, row := r.2, first := sb * j, blocks := min sb (16 * s.slots k - sb * j), spill := true } : PRead)))).flatten

/-- The reads of a charge: the pages of a SCAN, or the headers that a SKIP tests and a checkpoint has written, since the device serves the others
from its catalog copy (R431); and the level-4 pieces of its input (R192). -/
def Dev.chargeReads (d : Dev) (q : Query) (i : Nat) (c : Charge) : List PRead :=
  let heads := match d.space q.ts with
    | some sp => (d.chargeHeads q i c).filterMap (fun x => (sp.headAt x).map (fun f =>
        ({ ts := q.ts, ext := x.num, group := f.1.group, row := f.1.row, first := f.2, blocks := 1, header := true } : PRead)))
    | none => []
  mergeReads d.schemeOf q.ts (q.pageWindow i) (d.chargeSlots q i c) ++ heads ++
    ((q.spills.filter (fun s => c.spills.contains s.id)).map (d.spillReads q.ts)).flatten

/-- The kind of shared engine a charge works on (R100, R101, R159, Table 3.4): its stage's, or a compression engine where it reads SWAGE pages
or stores into a SWAGE column. -/
def Dev.chargeEngine (d : Dev) (q : Query) (i : Nat) (c : Charge) : Option Bool :=
  let s := q.image.stages.getD i {}
  let swageIn := (d.chargeSlots q i c).any (fun p => decide (p.1.dictPages.length ≤ p.2) && fieldAt (p.1.slotBytes p.2) 5 1 == 5)
  let swageOut := s.op == 0x14 && (match d.space q.ts, bindTable q.params ((q.image.stageBinds s).headD {}) with
    | some sp, some tid => (sp.table tid q.epoch).any (fun t => t.cols.any (fun k => k.live q.epoch && k.enc == 5))
    | _, _ => false)
  if c.work = .gather then none else if swageIn || swageOut then some true else engineOf s.op

/-- A charge uses its table space's key: it reads pages or headers, stores rows, or its query has spilled to drives (R443, R575) (DEDUCED, notes/assumptions/88.md). -/
def Dev.usesKey (d : Dev) (q : Query) (i : Nat) (c : Charge) : Bool :=
  !(d.chargeReads q i c).isEmpty || (q.image.stages.getD i {}).op == 0x14 || d.store.groups.any (fun g => g.spill.any (fun s => s.2 == q.id + 2))

/-- A page that its reads cannot bring: what waits for it will end with this status (R63, R444 step 4). -/
def Dev.readLost (d : Dev) (c : DCmd) : Dev :=
  let st := if d.beyond c.group c.row then 0x5002 else 0x3007
  match c.use with
  | .charge id i k => d.chargeUpd ⟨id, i, k, .flow⟩ (fun c => { c with lost := some st })
  | .pages x q cid =>
    let bad := fun (j : PageJob) => if j.x == x && j.q == q && j.cid == cid then { j with bad := true, status := st } else j
    { d with host := { d.host with pageJobs := d.host.pageJobs.map bad } }
  | _ => d

/-- A read of a strip (R74, R75): of its member, or where that is lost of as many other strips of the row as rebuild the range (R76). The place
comes from the extent's group, whatever scheme its table space has now (R78). -/
def Dev.issueRead (d : Dev) (use : DriveUse) (p : PRead) : Dev :=
  let sc := d.schemeOf p.group
  let pos := (p.first / stripBlocks sc + p.row) % (schemeK sc + schemeM sc)
  let c : DCmd := { id := d.store.nextCmd, drive := 255, write := false, lba := 16384 + p.row * stripBlocks sc + p.first % stripBlocks sc, blocks := p.blocks
                    use := use, group := p.group, row := p.row, pos := pos, issued := d.timeUs, what := p }
  match d.memberRead p.group pos p.row with
  | some dr => d.driveCmd { c with drive := dr }
  | none =>
    let d1 : Dev := { d with store := { d.store with dcmds := d.store.dcmds ++ [c], nextCmd := d.store.nextCmd + 1 } }
    match d1.askStrips c with
    | some d2 => d2
    | none => (d1.dropCmds (fun k => k.id == c.id)).readLost c

/-- The pages a charge has in flight. -/
def Dev.inFlight (d : Dev) (use : DriveUse) : Nat := ((d.store.dcmds.filter (fun k => k.use == use)).map (fun k => k.what.blocks / 16)).sum

/-- Reads issued in order while they stay within a window of `w` pages; with those left over. -/
def Dev.issueSome (d : Dev) (use : DriveUse) (w : Nat) : List PRead → Dev × List PRead
  | [] => (d, [])
  | p :: r => if d.inFlight use + p.blocks / 16 ≤ w then (d.issueRead use p).issueSome use w r else (d, p :: r)

/-- Reads issued for a charge: its first alone with the slot (R311), and from its start on as many as its window holds (R157). -/
def Dev.issueReads (d : Dev) (r : CRef) (all : Bool) : Dev :=
  match d.query r.query, d.charge r with
  | some q, some c =>
    let l := c.todo.getD (d.chargeReads q r.stage c)
    let y := if all then d.issueSome (.charge r.query r.stage r.idx) (q.pageWindow r.stage) l
      else (match c.todo, l with | none, p :: rest => (d.issueRead (.charge r.query r.stage r.idx) p, rest) | _, _ => (d, l))
    y.1.chargeUpd r (fun c => { c with todo := some y.2 })
  | _, _ => d

/-! ### Slots (R311 to R313) -/

/-- A slot filled (R312), with the reads of the charge's first pages (R311). -/
def Dev.fillSlot (d : Dev) (h : Nat) : Dev :=
  let x := d.hearth h
  if !d.worksOn h || 2 ≤ x.slots.length then d
  else match d.slotPick h with
    | some c => (d.slotCharge h c).issueReads c.ref false
    | none => d

/-- A charge leaves the slot it waits in: it loses its prefetch and is READY again. -/
def Dev.unslot (d : Dev) (r : CRef) : Dev :=
  match d.charge r with
  | some c =>
    let d0 := match d.query r.query with | some q => d.wakeFn q.x | none => d
    let d1 := match c.hearth with | some h => d0.hearthUpd h (fun x => { x with slots := x.slots.filter (· != r) }) | none => d0
    (d1.dropCmds (fun k => k.use == .charge r.query r.stage r.idx)).chargeUpd r (fun c => { c with state := .ready, hearth := none, todo := none, got := [], lost := none })
  | none => d

/-! ### Starting (R291, R297, R311, R349, R352) -/

/-- The user care-mask tables a stage needs (R163, R294, R297). -/
def careNeeds (im : Image) (i : Nat) : List Nat :=
  let s := im.stages.getD i {}
  let p := im.block s
  let own := if s.op = 0x06 ∧ fieldAt p 0 1 = 2 then [fieldAt p 2 2] else []
  let code := if s.codeA = 0xFFFF then [] else (im.codes.getD s.codeA {}).words.filterMap (fun w => match xDecode w with | some (.cml, f) => some f.imm.toNat | _ => none)
  (own ++ code).eraseDups

/-- Whether a charge of an EMIT or of a stage that feeds one may start: the ring is not stalled and no host write of the function is
held in D3hot (R170, R412). -/
def Dev.mayStart (d : Dev) (q : Query) (i : Nat) : Bool :=
  let feeds := (q.image.edges.filter (fun e => e.src == i)).map (·.dst)
  let rings := (i :: feeds).filterMap (fun k => if (q.image.stages.getD k {}).op = 0x13 then some (q.rings[ordinal q.image k]?) else none)
  !rings.any (fun r => match r with | some r => r.stalled || !(d.fnGet q.x).held.isEmpty | none => false)

/-- What the first charge of an exchange stage finds wrong: a node of the map the device does not know, an empty map, or another query on
the exchange (R349, R350, R352). -/
def Dev.exchFault (d : Dev) (q : Query) (i : Nat) : Option Nat :=
  let s := q.image.stages.getD i {}
  if s.op ≠ 0x11 ∧ s.op ≠ 0x12 then none
  else
    let p := q.image.block s
    let raw := if s.op = 0x11 then q.paramBytes (fieldAt p 2 2) else q.paramBytes (fieldAt p 6 2)
    let nodes := nodeList raw
    let bad := nodes.isEmpty || raw.length % 2 == 1 || nodes.any (fun n => !d.knowsNode n) ||
      (if s.op = 0x11 then decide (65536 < nodes.length) else decide (fieldAt p 8 4 < nodes.length) || decide (nodes.eraseDups.length < nodes.length))
    if bad || d.node.isNone then some 0x2040
    else if (d.exchQueries (q.exch i) (q.sendStage i)).any (fun k => decide (k.1.id < q.id) && k.1.node == q.node) then some 0x2041
    else none

/-- A charge begins on a hearth: tables are loaded, the expression unit gets its code, the rest of its reads are issued. -/
def Dev.beginCharge (d : Dev) (h : Nat) (r : CRef) : Dev :=
  match d.query r.query, d.charge r with
  | some q, some c =>
    let i := r.stage
    let s := q.image.stages.getD i {}
    let t := if s.op = 0x08 then (q.stage (buildOf q.image i)).table else none
    let load := (d.hearth h).exu.cmt.load q.digest q.image.cares (careNeeds q.image i)
    let ctx := stageCtx q.image q.params i (if hasCode q.image i && c.work == .flow then codeBillets q.image i t c else [])
    let d1 := (d.wakeFn q.x).hearthUpd h (fun x => { x with
      slots := x.slots.filter (· != r), running := some r
      exu := if hasCode q.image i && c.work == .flow then Exu.begin { x.exu with cmt := load.1 } ctx else (Exu.begin { x.exu with cmt := load.1 } {}).halt })
    let d2 := if load.2 then d1.bump (0x0210010C + 0x1000 * h) 1 else d1
    let d3 := (d2.chargeUpd r (fun c => { c with state := .running, hearth := some h, started := d.timeUs })).trace (q.trec i r.idx 0x03 (c.tries + 1) 0 0 h)
    let d4 := d3.issueReads r true
    let d5 := (c.input.foldl (fun d k => match k.src with | some (sd, ch, pc) => d.takeMsg (d.qNode q) (q.exch i) (q.sendStage i) sd (ch, pc) | none => d) d4).recovered 1 h
    match d.chargeEngine q i c with
    | some comp => d5.engJoin comp r.user
    | none => d5
  | _, _ => d

/-- The charge of the older slot starts. -/
def Dev.startCharge (d : Dev) (h : Nat) : Dev :=
  let x := d.hearth h
  match d.worksOn h && d.mail.activating.isNone, x.running, x.slots with
  | true, none, r :: _ =>
    (match d.query r.query with
     | some q =>
       if !d.mayStart q r.stage then d
       else match d.exchFault q r.stage with
         | some e => (d.endQuery r.query { status := e } 1).settle r.query
         | none =>
           match d.charge r with
           | some c =>
             if d.usesKey q r.stage c && d.lockedTs q.ts then
               ((d.hearthUpd h (fun x => { x with slots := x.slots.drop 1 })).failAt r.query 0x6003 r.stage).settle r.query
             else if (d.chargeReads q r.stage c).any (fun p => d.beyond p.group p.row) then
               ((d.hearthUpd h (fun x => { x with slots := x.slots.drop 1 })).failAt r.query 0x5002 r.stage).settle r.query
             else d.beginCharge h r
           | none => d
     | none => d.hearthUpd h (fun x => { x with slots := x.slots.drop 1 }))
  | _, _, _ => d

/-- A hearth steals (R313, R314): the stolen charge starts there. -/
def Dev.steal (d : Dev) (h : Nat) : Dev :=
  let x := d.hearth h
  if !d.worksOn h || x.running.isSome || !x.slots.isEmpty then d
  else match d.stealPick h with
    | none => d
    | some c =>
      match d.query c.ref.query with
      | none => d
      | some q =>
        let left := match c.hearth with | some k => k | none => 0xFF
        let d1 := ((d.unslot c.ref).bump 0x02400008 1).trace (q.trec c.ref.stage c.ref.idx 0x04 left (d.timeUs - c.since) 0 h)
        ((d1.chargeUpd c.ref (fun k => { k with state := .slotted, hearth := some h, slot := 0 })).hearthUpd h (fun x => { x with slots := [c.ref] })).startCharge h

/-! ### The expression unit's counters (Table 7.7, Table 9.7) -/

/-- The 32 bytes of a fault record (Table 7.9). -/
def faultRecord (x : Exu) (f : XFault) (attempt op : Nat) : Bytes :=
  natLE 4 (x.ctx.codeOff + 8 * x.pos) ++ natLE 2 x.ctx.stage ++ natLE 1 f.lane ++ natLE 1 f.cause ++
    natLE 8 (if f.cause = 5 ∨ f.cause = 0x11 then 0 else f.addr.toNat) ++ natLE 2 x.slice ++ natLE 1 attempt ++ zeros 5 ++ natLE 8 (op % 2 ^ 40)

/-- What executions add to a hearth's registers; `before` is the unit as the last of them found it. -/
def Dev.exuEvents (d : Dev) (h : Nat) (before : Exu) (e : XEv) (rpe fixes : Nat) : Dev :=
  let b := 0x02100000 + 0x1000 * h
  let d1 := ((((d.count64 (b + 0x10) e.wide).count64 (b + 0x18) e.narrow).bump (b + 8) e.wakes).bump (b + 0x20) e.faults).bump (b + 0x24) e.unres
  let d2 := (d1.count64 (b + 0x110) rpe).bump (b + 0x108) fixes
  match e.frec with
  | some (f, n) => d2.setRegBytes (b + 0x40) (faultRecord before f n d.opSec)
  | none => d2

/-- Whether a hearth's vector code runs on the narrow unit only (R248). -/
def Dev.narrowOnly (d : Dev) (h : Nat) : Bool := bitOf (d.regN (0x02100000 + 0x1000 * h)) 16

/-- What is left of a charge's code, run to its end. -/
def Dev.runCode (d : Dev) (h : Nat) : Dev :=
  let x := (d.hearth h).exu
  let y := x.runAll (d.narrowOnly h)
  (d.hearthUpd h (fun k => { k with exu := { y.1 with rpe := 0, fixes := 0 } })).exuEvents h x y.2 y.1.rpe y.1.fixes

/-- A hearth at the next step boundary of its running charge (R309): where the charge waits for a drive or a shared engine it is at one; else the
billet that is under way is finished. -/
def Dev.toBoundary (d : Dev) (h : Nat) : Dev :=
  match (d.hearth h).running with
  | none => d
  | some r =>
    if d.store.dcmds.any (fun k => k.use == .charge r.query r.stage r.idx) then d
    else
      let x := (d.hearth h).exu
      let y := x.runBillet (d.narrowOnly h)
      (d.hearthUpd h (fun k => { k with exu := { y.1 with rpe := 0, fixes := 0 } })).exuEvents h x y.2 y.1.rpe y.1.fixes

/-! ### Completion (R307, R308, R328) -/

/-- The output of a charge as its checkpoint sums it up: slots in order, each value with a presence byte (Table 10.4). -/
def billetBytes (tys : List SlotTy) (bl : List Billet) : Bytes :=
  (bl.map (fun b => ((List.range tys.length).map (fun k =>
    ((b.rows.filter (·.sel)).map (fun r => match r.val k with | some v => 1 :: (natLE 4 v.length ++ v) | none => [0])).flatten)).flatten)).flatten

/-- The checkpoint of a charge (Table 10.4). -/
def Query.ckpt (q : Query) (i : Nat) (c : Charge) : Ckpt :=
  let s := q.image.stages.getD i {}
  { ups := c.input.map (fun k => match k.src with | some (sd, ch, pc) => srcUp sd ch pc | none => k.up)
    ranges := c.ranges, decisions := c.decisions
    limit := if s.op = 0x0F then (c.input.map (·.pos)).headD 0 + (liveRows c.billets).length else 0
    rows := (liveRows c.out).length, errRows := (liveRows c.err).length
    crc := (crc32c (billetBytes (outTypes q.image i) c.out)).toNat, take := c.take }

/-- The values a late SCAN reads for each row of its billets (R155, R156); none when a page fails its checks. -/
def Dev.lateValues (d : Dev) (q : Query) (i : Nat) (c : Charge) : Option (List (List (List CellVal))) :=
  let s := q.image.stages.getD i {}
  let binds := q.image.stageBinds s
  match (d.space q.ts).map (·.withRead c.got), bindTable q.params (binds.headD {}) with
  | some sp, some tid =>
    (match sp.table tid q.epoch with
     | some t =>
       let cols := fun (b : Billet) => binds.map (fun k =>
         match t.column k.column q.epoch with
         | some c => sp.cells tid c q.epoch (b.rows.map (fun r => (r.num.getD 0, r.sel)))
         | none => some (b.rows.map (fun _ => (none, none))))
       let all := c.billets.map cols
       if all.any (fun l => l.any Option.isNone) then none else some (all.map (fun l => l.map (fun c => c.getD [])))
     | none => some [])
  | _, _ => some []

/-- What a charge leaves, with the status that ends the query when it cannot complete. -/
def Dev.chargeOut (d : Dev) (q : Query) (i : Nat) (c : Charge) (x : Exu) : Except Nat ChargeOut :=
  let s := q.image.stages.getD i {}
  let binds := q.image.stageBinds s
  match c.work with
  | .gather => .ok {}
  | .finish => .ok { out := if s.op = 0x07 then [] else toBillets c.rows, err := (c.err.map (·.rows)).flatten }
  | .flow =>
    if isSource q.image i then
      match (d.space q.ts).map (·.withRead c.got), bindTable q.params (binds.headD {}) with
      | some sp, some tid =>
        (match sp.table tid q.epoch with
         | some t =>
           if s.op = 0x02 then .ok { ranges := skipCharge q.image q.params i q.epoch sp t c.ranges }
           else (match scanCharge binds q.epoch sp t c.ranges with
             | some l => .ok { out := l }
             | none => .error 0x3007)
         | none => .ok {})
      | _, _ => .ok {}
    else if isLate q.image i then
      match d.lateValues q i c with
      | some l => .ok (flowCharge q.image q.params i c x.results x.cmt none l)
      | none => .error 0x3007
    else
      let before := match c.leaf with | some l => (((q.stage i).pairs.find? (fun p => p.1 == l)).map (·.2)).getD [] | none => []
      .ok (flowCharge q.image q.params i c x.results x.cmt (if s.op = 0x08 then ((q.stage (buildOf q.image i)).table).map (fun t => (t, before)) else none) [])

/-- Whether a stage's charge moves its results on at once: unordered stages, and gathering work. -/
def Query.passesAtOnce (q : Query) (r : CRef) : Bool := r.gather || !(q.image.stages.getD r.stage {}).ordered

/-- The upstream charges, or the message, that a charge took. -/
def Charge.upsOf (c : Charge) : List Nat :=
  match c.ck with
  | some k => k.ups
  | none => c.input.map (fun k => match k.src with | some (sd, ch, pc) => srcUp sd ch pc | none => k.up)

/-- Whether no resumption can need a charge again for what it made (R344, R518, R519; DEDUCED, notes/assumptions/181.md): it is held and has been
passed on; an EMIT's batches are counted, a STORE's rows committed, an EXCHANGE_SEND's rows consumed. -/
def Dev.chargeFinal (d : Dev) (q : Query) (i : Nat) (c : Charge) : Bool :=
  c.state == .cancelled || (c.held && c.state == .released && (match (q.image.stages.getD i {}).op with
    | 0x13 => (match q.rings[ordinal q.image i]? with
        | some r => r.wait.all (fun b => b.charge != c.idx) && ((c.ck.map (·.batches)).getD []).all (fun b => decide (b.1 < r.produced))
        | none => true)
    | 0x14 => q.storeEpoch.isSome
    | 0x11 => decide (c.idx < (q.stage i).sendNext) &&
        d.fab.sflows.all (fun f => f.query != q.id || f.stage != i || f.msgs.all (fun m => m.charge != c.idx || m.data.isEmpty))
    | _ => true))

/-- By stage, the charges that are not final, or from which something comes that is not (R519). -/
def Dev.unsettled (d : Dev) (q : Query) : List (List Nat) :=
  (List.range q.image.stages.length).foldr (fun k acc =>
    let of := fun (j : Nat) => acc.getD (j - k - 1) []
    let all := (q.stage k).charges.map (·.idx)
    let past := fun (j : Nat) => q.stageOver j && (of j).isEmpty
    let own := ((q.stage k).charges.filter (fun c => !d.chargeFinal q k c)).map (·.idx)
    let down := ((q.image.edges.filter (fun e => e.src == k)).map (fun e =>
      let st := q.stage e.dst
      if q.mixes e.dst then (if past e.dst then [] else all)
      else st.inq.map (·.up) ++ ((st.charges.filter (fun c => (of e.dst).contains c.idx)).map (·.upsOf)).flatten)).flatten
    let probes := (List.range q.image.stages.length).filter (fun j => (q.image.stages.getD j {}).op == 0x08 && buildOf q.image j == k)
    let table := if (q.image.stages.getD k {}).op = 0x07 && !probes.all past then all else []
    (own ++ down ++ table) :: acc) []

/-- The point up to which a sender's messages to a stage are consumed (R519): every charge that took one, and all that comes of it, is final. -/
def Dev.consumedPoint (d : Dev) (q : Query) (i sender : Nat) : Option (Nat × Nat) :=
  let bad := (d.unsettled q).getD i []
  let mine := ((q.stage i).charges.map (fun c => (c.idx, c.upsOf.headD 0))).filter (fun p => p.2 / 2 ^ 64 == sender)
  ((mine.takeWhile (fun p => !bad.contains p.1)).getLast?).map (fun p => (p.2 % 2 ^ 48, p.2 / 2 ^ 48 % 2 ^ 16))

/-- Messages of a query's exchanges consumed (R344, R519), the last stage first: what one consumes may settle a stage before it. -/
def Dev.consume (d : Dev) (id : Nat) : Dev :=
  match d.query id with
  | none => d
  | some q0 =>
    ((List.range q0.image.stages.length).reverse.filter (fun i => (q0.image.stages.getD i {}).op == 0x12)).foldl (fun d i =>
      (q0.senders i).foldl (fun d sd =>
        match d.query id with
        | some q => (match d.consumedPoint q i sd with
            | some pt => d.consumeMsg (d.qNode q) (q.exch i) (q.sendStage i) sd pt
            | none => d)
        | none => d) d) d

/-- What follows of itself for a query. -/
def Dev.advance (d : Dev) (id : Nat) : Dev := ((d.settle id).consume id).closeQuery id

/-- The hearth's running attempt is over: virtual time is added (R316) and engine contexts are free. -/
def Dev.endAttempt (d : Dev) (h : Nat) (q : Query) (r : CRef) (clocks : Nat) : Dev :=
  (((d.hearthUpd h (fun x => { x with running := none, exu := x.exu.halt })).addV q.x clocks).engLeave true r.user).engLeave false r.user

/-- A DONE charge is checkpointed, an EMIT's once its batches are placed and a STORE's once its rows have their numbers, and passes its results on where it does so at once. -/
def Dev.chargePasses (d : Dev) (q : Query) (r : CRef) : Dev :=
  let op := (q.image.stages.getD r.stage {}).op
  let d1 := if op = 0x13 ∨ op = 0x14 then d else d.tellCkpt r
  (if q.passesAtOnce r then d1.releaseCharge r else d1).advance r.query

/-- What a MATCH leaves with its hearth: the care-mask table as repaired with its repairs, and the bytes of the pattern engine (R300, R302). -/
def Dev.patternDone (d : Dev) (h : Nat) (o : ChargeOut) : Dev :=
  let d1 := match o.cmt with
    | some (m, n) => (d.hearthUpd h (fun x => { x with exu := { x.exu with cmt := m } })).bump (0x02100108 + 0x1000 * h) n
    | none => d
  d1.count64 (0x02100110 + 0x1000 * h) o.rpe

/-- A charge whose output is known becomes DONE; a resumed one is compared with its checkpoint (R329). -/
def Dev.finishCharge (d : Dev) (h clocks : Nat) (q : Query) (r : CRef) (c : Charge) (o : ChargeOut) : Dev :=
  let c1 : Charge := { c with out := o.out, err := if o.err.isEmpty then [] else toBillets o.err, outRanges := o.ranges, state := .done, hearth := none }
  let ck := q.ckpt r.stage c1
  let c2 : Charge := { c1 with ck := some ck }
  let d1 := (d.endAttempt h q r clocks).chargeUpd r (fun _ => c2)
  let d2 := d1.patternDone h o
  let s := q.image.stages.getD r.stage {}
  let d3 := d2.stageUpd r.query r.stage (fun st => { st with
    affinity := some h, matched := (st.matched ++ o.matched).eraseDups
    gathered := if r.gather || (streams q.image s && c.work == .flow) then st.gathered ++ c.input.map (fun k => { k with home := h, held := [] }) else st.gathered
    runs := if s.op = 0x0C && r.gather then
        st.runs ++ runSizes (d2.stageRes q r.stage).scratch ((liveRows c.billets).map (rowBytes (inTypes q.image r.stage 0))) else st.runs
    pairs := match c.leaf with
      | some l => st.pairs.filter (fun p => p.1 != l) ++ (if s.op = 0x08 && !c.last then [(l, o.pairs)] else [])
      | none => st.pairs
    homes := match c.leaf with | some l => if s.op = 0x08 then st.homes else st.homes.filter (fun p => p.1 != l) ++ [(l, h)] | none => st.homes })
  let d4 := (d3.recut r.query r.stage).trace (q.trec r.stage r.idx 0x05 ck.rows ck.errRows clocks h)
  let d5 := match d4.query r.query with
    | some k => if s.op = 0x0D && !mergeInOrder q.image r.stage (k.stage r.stage) then (d4.failAt r.query 0x3011 r.stage) else d4
    | none => d4
  if d5.query r.query |>.any (·.ending.isSome) then d5.advance r.query else
  match q.resume.find? (fun k => k.1 == r.stage && k.2.1 == r.idx && !q.apart r) with
  | some k =>
    if k.2.2.rows ≠ ck.rows ∨ k.2.2.errRows ≠ ck.errRows ∨ k.2.2.crc ≠ ck.crc then
      (((d5.cancelCharge r 4).bump 0x02400014 1).failAt r.query 0x5006 r.stage).advance r.query
    else d5.chargePasses q r
  | none => d5.chargePasses q r

/-- A running charge fails its query (R44, R173): it is cancelled with the others. -/
def Dev.chargeFails (d : Dev) (h clocks : Nat) (q : Query) (r : CRef) (status : Nat) : Dev :=
  (((d.endAttempt h q r clocks).failAt r.query status r.stage).cancelCharge r 1).advance r.query

/-- A 16-bit conflict counter of a hearth's bank counts one meeting, saturating (SPM_CONFLICT, R374, R375). -/
def Dev.spmConflict (d : Dev) (h bank loser : Nat) : Dev :=
  let a := 0x02100240 + 0x1000 * h + 0x10 * bank + loser / 2 * 4
  let lo := 16 * (loser % 2)
  if 12 ≤ bank || 5 ≤ loser then d else d.setField a (lo + 15) lo (min 0xFFFF (d.regField a (lo + 15) lo + 1))

/-- The meetings of a hearth's scratchpad masters counted (R374, R375). -/
def Dev.spmMet (d : Dev) (h : Nat) (l : List SpmMeet) : Dev :=
  (l.foldl (fun (d : Dev) m => d.spmConflict h m.bank m.loser) d).bump (0x02100218 + 0x1000 * h) (l.filter (·.sameWord)).length

/-- The attempt on a hearth has met an unresolvable fault outside an instruction (R253, R300, R375): it waits for its restart. -/
def Dev.attemptFault (d : Dev) (h : Nat) : Dev :=
  (d.hearthUpd h (fun k => { k with exu := { k.exu with unres := true }, unresAt := k.unresAt ++ [d.opSec] })).bump (0x02100024 + 0x1000 * h) 1

/-- An attempt that ended without completing (R327, Table 10.5): cause 1 counts, and the fourth fences the charge. -/
def Dev.restart (d : Dev) (h cause clocks : Nat) : Dev :=
  match (d.hearth h).running with
  | none => d
  | some r =>
    match d.query r.query, d.charge r with
    | some q, some c =>
      let n := if cause = 1 then c.tries + 1 else c.tries
      let d0 := d.endAttempt h q r clocks
      let d1 : Dev := (d0.dropCmds (fun k => k.use == .charge r.query r.stage r.idx)).hearthUpd h
        (fun x => { x with exu := { x.exu with unres := false, pend := none } })
      if c.cancel.isSome then (d1.cancelCharge r (c.cancel.getD 1)).advance r.query
      else if 4 ≤ n then
        (((d1.cancelCharge r 4).bump 0x02400014 1).failAt r.query 0x5006 r.stage).advance r.query
      else
        ((d1.chargeUpd r (fun c => { c with
          state := .ready, hearth := none, todo := none, got := [], lost := none, tries := n, failedOn := if cause = 1 then c.failedOn ++ [h] else c.failedOn })).bump 0x0240000C 1).trace
          (q.trec r.stage r.idx 0x0A cause (c.tries + 1) 0 h)
    | _, _ => d

/-- A charge completes: its code has run, its reads have come and its engine has served it. Masters that wrote one word in one clock end the
attempt under R253, unless its stage declares a shared region (R375). Poisoned data ends it so too; in the staging of an EMIT charge, which no
hearth's instruction read, it restarts the charge at once (R587) (DEDUCED, notes/assumptions/182.md). -/
def Dev.chargeDone (d : Dev) (h : Nat) (used : Spent) : Dev :=
  let clocks := used.clocks
  match (d.hearth h).running with
  | none => d
  | some r =>
    match d.query r.query, d.charge r with
    | some q, some c =>
      let waits := d.store.dcmds.any (fun k => k.use == .charge r.query r.stage r.idx) ||
        (match d.chargeEngine q r.stage c with | some comp => !d.engHolds comp r.user | none => false)
      if waits || !(d.hearth h).powered || (d.hearth h).exu.unres || (d.hearth h).exu.pend.isSome then d else
      let d := d.spmMet h used.meets
      if c.cancel.isSome || q.ending.isSome then
        let cause := c.cancel.getD 1
        ((d.endAttempt h q r clocks).cancelCharge r cause).advance r.query
      else if used.meets.any (·.sameWord) && !bitOf (q.image.resources.getD (q.image.stages.getD r.stage {}).res {}).flags 0 then d.attemptFault h
      else if used.poison then (if (q.image.stages.getD r.stage {}).op = 0x13 then d.restart h 1 clocks else d.attemptFault h)
      else if d.usesKey q r.stage c && d.lockedTs q.ts then d.chargeFails h clocks q r 0x6003
      else if c.lost.isSome then d.chargeFails h clocks q r (c.lost.getD 0x3007)
      else if c.todo.any (fun l => !l.isEmpty) then d.issueReads r true
      else
        let d1 := d.runCode h
        let x := (d1.hearth h).exu
        if x.unres then d1
        else match d1.chargeOut q r.stage c x with
          | .error e => d1.chargeFails h clocks q r e
          | .ok o =>
            if o.unres then (d1.patternDone h o).attemptFault h
            else d1.finishCharge h clocks q r c o
    | _, _ => d.hearthUpd h (fun x => { x with running := none, exu := x.exu.halt })

/-! ### Release, cancellation, restart -/

/-- The next charge of an ordered stage in sequence is released (R319). -/
def Dev.releaseNext (d : Dev) (id i : Nat) : Dev :=
  match d.query id with
  | none => d
  | some q =>
    if !(q.image.stages.getD i {}).ordered then d
    else match (q.stage i).charge false (q.stage i).nextRel with
      | some c =>
        if c.state = .done || c.state = .held then
          ((d.releaseCharge ⟨id, i, c.idx, c.work⟩).stageUpd id i (fun st => { st with nextRel := st.nextRel + 1 })).advance id
        else d
      | none => d

/-- A running charge takes up its cancellation at a step boundary (R309, R310). -/
def Dev.cancelRunning (d : Dev) (h clocks : Nat) : Dev :=
  match (d.hearth h).running with
  | none => d
  | some r =>
    match d.query r.query, (d.charge r).bind (·.cancel) with
    | some q, some cause => ((d.endAttempt h q r clocks).cancelCharge r cause).advance r.query
    | _, _ => d

/-- The clocks of the attempt a hearth runs. -/
def Dev.hearthClocks (d : Dev) (h : Nat) : Nat := match (d.hearth h).running with | some r => d.usedClocks r | none => 0

/-! ### Delay lists and the trace (R323, R324, R330) -/

/-- The entry of a list that is served next: the earliest due, then the earliest inserted. -/
def Dev.nextDelay (d : Dev) (l : Nat) : Option Delay :=
  (d.qry.delays.filter (fun e => e.list == l && e.tried.isNone)).foldl (fun (m : Option Delay) e => match m with
    | some k => if e.due < k.due then some e else m
    | none => some e) none

/-- An entry fires, or is inserted again with what remains beyond the horizon (DEDUCED, notes/assumptions/135.md). -/
def Dev.fireDelay (d : Dev) (l tick : Nat) : Dev :=
  match d.nextDelay l with
  | none => d
  | some e =>
    if tick < e.due then d
    else
      let d1 := ({ d with qry := { d.qry with tick := max d.qry.tick tick } } : Dev).setDelays l (d.qry.delays.erase e)
      if e.rest = 0 then d1.trace { kind := 0x0C, a := l, b := tick - e.due, c := e.tag }
      else
        let k := min e.rest delayHorizon
        { d1 with qry := { d1.qry with delays := d1.qry.delays ++ [⟨l, e.due + k, e.tag, e.rest - k, none⟩] } }

/-- TRACE_CTRL enable set (R330, Table 10.9). -/
def Dev.traceEnable (d : Dev) : Dev :=
  let d1 := (d.setReg64 0x02400058 0).setReg64 0x02400060 0
  { d1 with qry := { d1.qry with trace := {} } }

end Sys2Proof.Machine
end

