-- ==== Sys2Proof/Machine/Queues.lean ====
section
/-!
DEFINITION. Sys2Proof/Machine/Queues.lean: queue pairs, doorbells, fetching and checking entries, completions and their vectors, D3hot
(13_host_queues.md).
-/
namespace Sys2Proof.Machine

/-! ### Queue-pair registers (R393, R394) -/

/-- Whether a function exists: a PF, or a VF that VF Enable and NumVFs make usable (R481). -/
def Dev.fnExists (d : Dev) (x : Nat) : Bool := vfNum x == 0 || decide (vfNum x ≤ tabGet 0 d.fn.numVfs (portOf x))
/-- Queue pairs granted to a VF. -/
def Dev.grant (d : Dev) (x : Nat) : Nat := tabGet 0 d.fn.queues x
/-- Queue pairs granted to the VFs of a port. -/
def Dev.granted (d : Dev) (port : Nat) : Nat := ((d.fn.queues.filter (fun p => portOf p.1 == port)).map (·.2)).sum
/-- The pool of a port (SHARE_PORT_SPLIT, R485). -/
def Dev.pool (d : Dev) (port : Nat) : Nat := let n := d.regField 0x02A00000 13 0; if port = 0 then n else 8192 - n
/-- FN_QUEUES (R391, R485): 0 until service (R547). -/
def Dev.fnQueues (d : Dev) (x : Nat) : Nat :=
  if !d.start.service then 0 else if isVf x then (if d.fnExists x then d.grant x else 0) else d.pool (portOf x) - d.granted (portOf x)
/-- Whether a queue-pair block is assigned. -/
def Dev.hasQueue (d : Dev) (x q : Nat) : Bool := decide (q < d.fnQueues x)

/-- QP_STATUS state (Table 13.6). -/
def QState.code : QState → Nat
  | .disabled => 0
  | .active => 1
  | .error => 2
  | .resetting => 3

/-- A queue's registers told to the partner (QUEUE_STATE, Table 17.3). -/
def Dev.queueState (d : Dev) (x q : Nat) : Dev :=
  let p := d.qp x q
  d.twinSend 10 [fnCode x, q, p.sqBase, p.cqBase, p.cfg, p.arb, p.md, p.pasid, p.state.code, p.reason, p.errIndex, p.sqHead, p.sqTail, p.cqHead, p.cqTail] []

/-- The conditions of R394. -/
def Dev.enableOk (x : Nat) (p : Qp) : Bool :=
  p.sqBase != 0 && p.sqBase % 4096 == 0 && p.cqBase != 0 && p.cqBase % 4096 == 0 &&
  decide (4 ≤ bitsOf p.cfg 4 0) && decide (bitsOf p.cfg 4 0 ≤ 16) && decide (4 ≤ bitsOf p.cfg 12 8) && decide (bitsOf p.cfg 12 8 ≤ 16) &&
  (!p.vectorEn || decide (p.cqVector < msixSize x))

/-- enable written 1 (R394). -/
def Dev.queueEnable (d : Dev) (x q : Nat) : Dev :=
  let p := d.qp x q
  if !d.hasQueue x q || p.state != .disabled then d
  else if Dev.enableOk x p then
    (d.qpUpd x q (fun p => { p with state := .active, reason := 0, sqHead := 0, sqTail := 0, cqHead := 0, cqTail := 0, posted := [] })).queueState x q
  else (d.qpUpd x q (fun p => { p with reason := 0x20 })).queueState x q

/-- The completions of a queue's commands that wait to be written (R409): until then those commands are not yet completed, as Table 13.16
counts them (DEDUCED, notes/assumptions/184.md). PATH_MOVED is no command's completion. -/
def Qp.waiting (p : Qp) : List Compl := p.ready.filter (fun c => c.status != 0x7001)

/-- QP_OUTSTANDING (Table 13.6): commands fetched and not yet completed. -/
def Qp.outstanding (p : Qp) : Nat := p.cmds.length + p.waiting.length

/-- Whether a command identifier is one of a command fetched and not yet completed. -/
def Qp.idInUse (p : Qp) (cid : Nat) : Bool := p.cmds.any (fun c => c.cid == cid) || p.waiting.any (fun c => c.cid == cid)

/-- enable written 0 (R394). -/
def Dev.queueDisable (d : Dev) (x q : Nat) : Dev :=
  let p := d.qp x q
  if d.hasQueue x q && p.state == .active && p.outstanding == 0 && p.sqHead == p.sqTail then
    (d.qpUpd x q (fun p => { p with state := .disabled })).queueState x q
  else d

/-! ### Doorbells (R395 to R398) -/

/-- A write to QP_SQ_DOORBELL (R396). -/
def Dev.sqDoorbell (d : Dev) (x q v : Nat) : Dev :=
  let p := d.qp x q
  if !d.hasQueue x q || p.state != .active then d
  else
    let n := p.sqN
    let m := 2 * n
    let pending := (p.sqTail + m - p.sqHead) % m
    let moved := (v + m - p.sqTail) % m
    if m ≤ v ∨ n - pending < moved then (d.queueError x q 0x10 p.sqTail).queueState x q
    else (d.qpUpd x q (fun p => { p with sqTail := v })).queueState x q

/-- Entries written to a CQ and not consumed (R397). -/
def Qp.written (p : Qp) : Nat := (p.cqTail + 2 * p.cqN - p.cqHead) % (2 * p.cqN)

/-- A write to QP_CQ_DOORBELL (R397, R409). -/
def Dev.cqDoorbell (d : Dev) (x q v : Nat) : Dev :=
  let p := d.qp x q
  if !d.hasQueue x q || p.state == .disabled then d
  else
    let m := 2 * p.cqN
    let k := (v + m - p.cqHead) % m
    if m ≤ v ∨ p.written < k then (d.queueError x q 0x11 p.cqHead).queueState x q
    else (d.qpUpd x q (fun p => { p with cqHead := v, posted := p.posted.drop k, stalled := p.stalled && k == 0 })).queueState x q

/-! ### Checking entries (R399, R400, R403, Table 13.9) -/

/-- The length of a fragment table chain's data, or the reason it is refused: `n` entries are due from the first table, at `addr` (DEDUCED, notes/assumptions/48.md). -/
def walkFrags : Nat → List (Option Bytes) → Nat → Nat → Nat → Except Nat (List (Nat × Nat))
  | 0, _, _, _, _ => .error 0x06
  | _ + 1, [], _, _, _ => .error 0x08
  | fuel + 1, t :: r, tables, addr, n =>
    match t with
    | none => .error 0x08
    | some b =>
      if addr % 16 ≠ 0 ∨ n = 0 ∨ 4096 < n ∨ 256 < tables then .error 0x06
      else
        let es := (List.range n).map (fun i => sliceAt b (16 * i) 16)
        if es.any (fun e => !zeroAt e 13 3) then .error 0x03
        else if es.any (fun e => decide (1 < fieldAt e 12 1) || fieldAt e 8 4 == 0) || (es.take (n - 1)).any (fun e => fieldAt e 12 1 == 1) then .error 0x06
        else
          let last := es.getD (n - 1) []
          let data := (es.filter (fun e => fieldAt e 12 1 == 0)).map (fun e => (fieldAt e 0 8, fieldAt e 8 4))
          if fieldAt last 12 1 = 1 then
            match walkFrags fuel r (tables + 1) (fieldAt last 0 8) (fieldAt last 8 4) with
            | .ok l => .ok (data ++ l)
            | .error e => .error e
          else .ok data

/-- Reserved bytes of an entry by opcode (Table 13.11). -/
def entryRsv (e : Bytes) : Bool :=
  let z := fun (o n : Nat) => zeroAt e o n
  z 0x0C 4 && decide (fieldAt e 4 2 < 2) &&
  (match fieldAt e 0 1 with
   | 0x01 => z 0x20 32
   | 0x02 => z 0x26 26
   | 0x03 => z 0x38 8
   | 0x04 => z 0x21 31
   | 0x05 => z 0x24 28
   | 0x06 => z 0x21 7 && z 0x38 8
   | 0x07 => z 0x22 6 && z 0x38 8
   | _ => z 0x21 7 && z 0x38 8)

/-- Field ranges of an entry by opcode (Tables 13.10, 13.11). -/
def entryRange (e : Bytes) : Bool :=
  let f := fun (o n : Nat) => fieldAt e o n
  let frag := bitOf (f 4 2) 0
  let ts := f 8 4
  let bytes := f 0x18 8
  (if frag then decide (1 ≤ f 6 2) && decide (f 6 2 ≤ 4096) else f 6 2 == 0) &&
  (match f 0 1 with
   | 0x01 => ts != 0 && f 0x10 8 % 64 == 0 && bytes == 256 && !frag
   | 0x02 => ts != 0 && decide (1 ≤ bytes) && decide (f 0x24 1 ≤ 2) && decide (f 0x25 1 ≤ 1)
   | 0x03 => ts != 0 && decide (f 0x26 1 ≤ 15) && decide (1 ≤ f 0x27 1) && decide (f 0x27 1 ≤ 16 - f 0x26 1) && bytes == 65536 * f 0x27 1
   | 0x04 => ts == 0 && bytes == 0 && decide (f 0x20 1 ≤ 1)
   | 0x05 => ts == 0
   | 0x06 => ts != 0 && decide (f 0x20 1 ≤ 1)
   | 0x07 => ts == 0 && (decide (f 0x20 1 ≤ 3) || (decide (0x10 ≤ f 0x20 1) && decide (f 0x20 1 ≤ 0x13))) && decide (f 0x21 1 ≤ 128) &&
       ((f 0x21 1 == 0) == decide (f 0x20 1 ≤ 3))
   | _ => ts == 0 && decide (1 ≤ bytes) && decide (bytes ≤ 268435456) && decide (f 0x20 1 ≤ 3))

/-- The data pieces of an entry, or the reason it is malformed: the lowest reason of Table 13.9 (DEDUCED, notes/assumptions/43.md). -/
def checkEntry (p : Qp) (f : FetchEnt) : Except Nat (List (Nat × Nat)) :=
  match f.entry with
  | none => .error 0x08
  | some e =>
    let op := fieldAt e 0 1
    let cid := fieldAt e 2 2
    if op = 0 ∨ 8 < op then .error 0x01
    else if fieldAt e 1 1 ≠ 2 then .error 0x02
    else if !entryRsv e then .error 0x03
    else if cid = 0xFFFF ∨ p.idInUse cid then .error 0x04
    else if !entryRange e then .error 0x05
    else if bitOf (fieldAt e 4 2) 0 then
      match walkFrags 257 f.frags 1 (fieldAt e 0x10 8) (fieldAt e 6 2) with
      | .error r => .error r
      | .ok l => if (l.map (·.2)).sum = fieldAt e 0x18 8 then .ok l else .error 0x07
    else .ok (if fieldAt e 0x18 8 = 0 then [] else [(fieldAt e 0x10 8, fieldAt e 0x18 8)])

/-! ### Arbitration and fetching (R401) -/

/-- Entries of a queue not yet fetched. -/
def Qp.unfetched (p : Qp) : Nat := (p.sqTail + 2 * p.sqN - p.sqHead) % (2 * p.sqN)

/-- Whether a function's queues are fetched: not in D3hot (R412), during firmware activation (R418), after a stand-down (R506), before a
switch of re-sync that a start waits for (R548), once entry to Ember or Off has begun (R538), or in a function reset (R491). -/
def Dev.fetches (d : Dev) (x : Nat) : Bool := !(d.fnGet x).d3hot && d.mail.activating.isNone && !d.twin.stopped && d.pwr.entry.isNone && !d.start.noFetch && !d.fn.resetting.any (fun r => r.1 == x)

/-- Whether a queue takes part in arbitration. -/
def Dev.fetchable (d : Dev) (x q : Nat) : Bool :=
  let p := d.qp x q
  p.state == .active && !p.stalled && decide (0 < p.unfetched) && d.fetches x

/-- QP_ARB of a queue in the round under way (R393). -/
def Dev.arbOf (d : Dev) (key : Nat) : Nat := let a := tabGet 0 d.host.arbs key; if a = 0 then (d.qp (key / 8192) (key % 8192)).arb else a - 1
/-- A round of a port begins: writes to QP_ARB take effect (R393). -/
def Dev.newRound (d : Dev) (port : Nat) : Dev :=
  { d with host := { d.host with arbs := (d.host.qps.filter (fun p => portOf (p.1 / 8192) == port)).foldl (fun t p => tabSet 0 t p.1 (p.2.arb + 1)) d.host.arbs } }

/-- The queues of a port that a pass visits, by function and queue number. -/
def Dev.passQueues (d : Dev) (port k : Nat) : List Nat :=
  ((d.host.qps.filter (fun p => portOf (p.1 / 8192) == port && d.fetchable (p.1 / 8192) (p.1 % 8192) && decide (k < bitsOf (d.arbOf p.1) 7 0))).map (·.1))

/-- The next queue of a port's round, with the pass and what remains of it: at most one turn of the 255 passes is looked at. -/
def Dev.nextQueue (d : Dev) (port : Nat) : Nat → Nat → List Nat → Option (Nat × Nat × List Nat)
  | 0, _, _ => none
  | fuel + 1, k, rest =>
    match rest.filter (fun key => d.fetchable (key / 8192) (key % 8192)) with
    | key :: r => some (key, k, r)
    | [] =>
      let k1 := (k + 1) % 255
      let d1 := if k1 = 0 then d.newRound port else d
      d1.nextQueue port fuel k1 (d1.passQueues port k1)

/-- One entry fetched: a command of its queue, or a malformed entry (R400). In Maintenance a QUERY_SUBMIT or INGEST is sent back, and in Idle
under DIRECTED policy the first command that waits is told of (R528). -/
def Dev.fetchOne (d : Dev) (x q : Nat) (f : FetchEnt) : Dev :=
  let p := d.qp x q
  if p.state != .active || p.unfetched == 0 then d
  else
    let idx := p.sqHead
    let d1 := d.qpUpd x q (fun p => { p with sqHead := (p.sqHead + 1) % (2 * p.sqN) })
    match checkEntry p f with
    | .error r =>
      let cid := match f.entry with | some e => fieldAt e 2 2 | none => 0xFFFF
      ((d1.readyCompl x q idx { cid := cid, status := 0x2001, detail := idx, reason := r }).queueError x q r idx).queueState x q
    | .ok l =>
      let e := f.entry.getD []
      let op := fieldAt e 0 1
      let c : Cmd := { cid := fieldAt e 2 2, idx := idx, op := op, entry := e, data := l, seq := d1.host.nextSeq, commits := op == 1 || op == 2, bind := d1.visibleOf (fieldAt e 8 4) }
      let d2 := d1.qpUpd x q (fun p => { p with cmds := p.cmds ++ [c] })
      let d3 := ({ d2 with host := { d2.host with nextSeq := d2.host.nextSeq + 1 } } : Dev).twinSend 8 [fnCode x, q, idx] e
      if d3.pwr.mode = 7 ∧ (op = 1 ∨ op = 2) then d3.failCmd x q c.cid 0x1003
      else if d3.pwr.mode = 3 ∧ d3.fn.directed = true ∧ d3.pwr.told = false ∧ (op = 1 ∨ op = 2 ∨ op = 3 ∨ op = 7 ∨ op = 8) then
        ({ d3 with pwr := { d3.pwr with told := true } } : Dev).eventPf 0x0130 0 0
      else d3

/-- A turn of the port arbiter: up to a burst of entries of the next queue (R401). -/
def Dev.entryFetch (d : Dev) (port : Nat) (es : List FetchEnt) : Dev :=
  let st := tabGet [] d.host.pass port
  let k := st.headD 254
  match d.nextQueue port 256 k (st.drop 1) with
  | none => d
  | some (key, k1, r) =>
    let fresh := decide (k1 < k) || (k1 == k && ((st.drop 1).filter (fun key => d.fetchable (key / 8192) (key % 8192))).isEmpty)
    let d0 := if fresh then d.newRound port else d
    let n := min (2 ^ bitsOf (d0.arbOf key) 10 8) es.length
    let d1 : Dev := { d0 with host := { d0.host with pass := tabSet [] d0.host.pass port (k1 :: r) } }
    (es.take n).foldl (fun d e => d.fetchOne (key / 8192) (key % 8192) e) d1

/-! ### Completions and vectors (R408, R409, R411, R412) -/

/-- The vector of a CQ sent for its unsignalled completions (DEDUCED, notes/assumptions/107.md). -/
def Dev.signal (d : Dev) (x q : Nat) : Dev :=
  let p := d.qp x q
  (d.qpUpd x q (fun p => { p with unsignalled := 0 })).vector x p.cqVector

/-- The oldest ready completion is written, or the CQ is full (R409). -/
def Dev.completionPost (d : Dev) (x q : Nat) : Dev :=
  let p := d.qp x q
  match p.ready with
  | [] => d
  | c :: r =>
    if !(c.acked || d.twin.alone) || d.twin.stopped then d
    else if p.cqN ≤ p.written then
      if p.stalled then d else (d.qpUpd x q (fun p => { p with stalled := true })).fnEvent x 1 (some q)
    else
      let b := match c.entry with | some e => e | none => complBytes p p.cqTail c
      let d1 := d.hostWrite x (p.cqBase + 32 * (p.cqTail % p.cqN)) b
      let d2 := d1.qpUpd x q (fun p => { p with
        ready := r, cqTail := (p.cqTail + 1) % (2 * p.cqN), posted := p.posted ++ [(c.cid, c.isAbort)]
        unsignalled := if p.vectorEn then p.unsignalled + 1 else 0, oldest := if p.unsignalled = 0 then d.timeUs else p.oldest
        modNow := p.md })
      let k := d2.qp x q
      let count := bitsOf p.md 7 0
      if p.vectorEn && (bitsOf p.md 31 16 == 0 || decide (count ≤ k.unsignalled)) then d2.signal x q else d2

/-- The moderation timer of a CQ (R411). -/
def Dev.moderation (d : Dev) (x q : Nat) : Dev :=
  let p := d.qp x q
  let w := bitsOf p.modNow 31 16
  if p.vectorEn && decide (0 < p.unsignalled) && w != 0 && decide (p.oldest + w ≤ d.timeUs) then d.signal x q else d

/-- D3hot written (R412): vectors with unsignalled completions go first (DEDUCED, notes/assumptions/105.md). -/
def Dev.d3hot (d : Dev) (x : Nat) : Dev :=
  let d1 := (d.qpsOf x).foldl (fun d p => if 0 < p.2.unsignalled then d.signal x p.1 else d) d
  d1.fnUpd x (fun f => { f with d3hot := true })

/-- Return to D0 (R412): held writes in the order they became due, then the vectors. -/
def Dev.d0 (d : Dev) (x : Nat) : Dev :=
  let f := d.fnGet x
  let isV := fun (o : Out) => match o with | .vector _ _ => true | _ => false
  let d1 := d.fnUpd x (fun f => { f with d3hot := false, held := [], pmeSent := false })
  let d2 : Dev := { d1 with out := d1.out ++ f.held.filter (fun o => !isV o) }
  (f.held.filter isV).foldl (fun d o => match o with | .vector _ v => d.vector x v | _ => d) d2

/-! ### Function registers and the MSI-X table (Tables 13.2 to 13.4, R390, R411) -/

/-- An access that R390 refuses. -/
def Dev.badAccess (d : Dev) (x : Nat) : Dev :=
  (d.fnUpd x (fun f => { f with bad := satAdd 32 f.bad 1 })).fnEvent x 2 none

/-- A word of a function's MSI-X table written: unmasking sends a pending vector. -/
def Dev.msixWrite (d : Dev) (x i : Nat) (w : Word) : Dev :=
  let d1 := d.fnUpd x (fun f => { f with msix := tabSet (if i % 4 = 3 then 1 else 0) f.msix i w })
  let v := i / 4
  if i % 4 = 3 && !w.getLsbD 0 && (d1.fnGet x).pba.contains v then
    (d1.fnUpd x (fun f => { f with pba := f.pba.filter (· != v) })).vector x v
  else d1

/-- A word of a queue-pair block written (R393) (DEDUCED, notes/assumptions/106.md). -/
def Dev.qpWrite (d : Dev) (x q o v : Nat) : Dev :=
  let p := d.qp x q
  let low := fun (a : Nat) => a / 2 ^ 32 * 2 ^ 32 + v
  let high := fun (a : Nat) => v * 2 ^ 32 + a % 2 ^ 32
  let set := fun (f : Qp → Qp) => (d.qpUpd x q f).queueState x q
  match o with
  | 0x14 => set (fun p => { p with arb := (if v % 256 = 0 then p.arb % 256 else v % 256) + bitsOf v 10 8 * 256 })
  | 0x18 => set (fun p => { p with md := v % 256 + bitsOf v 31 16 * 65536 })
  | _ =>
    if p.state != .disabled then d
    else match o with
      | 0x00 => set (fun p => { p with sqBase := low p.sqBase })
      | 0x04 => set (fun p => { p with sqBase := high p.sqBase })
      | 0x08 => set (fun p => { p with cqBase := low p.cqBase })
      | 0x0C => set (fun p => { p with cqBase := high p.cqBase })
      | 0x10 => set (fun p => { p with cfg := bitsOf v 4 0 + bitsOf v 12 8 * 256 + bitsOf v 26 16 * 65536 + bitsOf v 31 31 * 2 ^ 31 })
      | 0x1C => set (fun p => { p with pasid := v % 2 ^ 21 })
      | _ => d

/-- A word of the function registers or the mailbox registers written. -/
def Dev.fnWrite (d : Dev) (x o v : Nat) : Dev :=
  match o with
  | 0x0C => d.fnUpd x (fun f => { f with event := ((List.range 3).filter (fun i => bitOf f.event i && !bitOf v i)).foldl (fun m i => m + 2 ^ i) 0 })
  | 0x10 => d.fnUpd x (fun f => { f with eventMask := v % 8 })
  | 0x14 => d.fnUpd x (fun f => { f with eventVector := v % 2048 + bitsOf v 31 31 * 2 ^ 31 })
  | _ => d

/-- The mailbox registers of Table 15.2 that a host writes. -/
def Dev.mbWrite (d : Dev) (x o v : Nat) : Dev :=
  match o with
  | 0x08 => d.mboxUpd x (fun m => { m with vector := v % 2048 + bitsOf v 31 31 * 2 ^ 31 })
  | 0x0C => d.mboxUpd x (fun m => { m with err := if bitOf v 0 then 0 else m.err })
  | _ => d

/-- Where the mailbox, the MSI-X table and the queue-pair blocks stand in BAR0 (Tables 13.2, 13.3). -/
def barMail (x : Nat) : Nat := if isVf x then 0x100 else 0x1000
def barMsix (x : Nat) : Nat := if isVf x then 0x1000 else 0x4000
def barPba (x : Nat) : Nat := if isVf x then 0x1800 else 0xC000
def barQp (x : Nat) : Nat := if isVf x then 0x2000 else 0x10000
/-- BAR0 size (R390). -/
def barSize (x : Nat) : Nat := if isVf x then 16384 else 1048576

/-- The words of BAR0 that are 64-bit registers, low half. -/
def bar64 (x o : Nat) : Bool := decide (barQp x ≤ o) && ((o - barQp x) % 64 == 0 || (o - barQp x) % 64 == 8)

/-- A word of BAR0 written; offsets the map leaves unassigned take nothing. The request area of a mailbox keeps what its request
carries (MbReq). -/
def Dev.barWord (d : Dev) (x o v : Nat) : Dev :=
  if o < 0x20 then d.fnWrite x o v
  else if barQp x ≤ o then
    let q := (o - barQp x) / 64
    if d.hasQueue x q then d.qpWrite x q ((o - barQp x) % 64) v else d
  else if barMsix x ≤ o && decide (o < barMsix x + 16 * msixSize x) then d.msixWrite x ((o - barMsix x) / 4) (BitVec.ofNat 32 v)
  else if barMail x ≤ o && decide (o < barMail x + 16) then d.mbWrite x (o - barMail x) v
  else d

/-- Whether an offset lies in a mailbox's request or response area, which takes writes of any size (R449). -/
def mailArea (x o : Nat) : Bool :=
  if isVf x then decide (0x120 ≤ o) && decide (o < 0x200) else decide (0x1040 ≤ o) && decide (o < 0x2000)

/-- A host write of `size` bytes to BAR0 (R390). -/
def Dev.barWrite (d : Dev) (x o size v : Nat) : Dev :=
  if barSize x ≤ o then d
  else if mailArea x o then d
  else if size = 4 ∧ o % 4 = 0 then d.barWord x o (v % 2 ^ 32)
  else if size = 8 ∧ o % 8 = 0 ∧ (bar64 x o ∨ (barMsix x ≤ o ∧ o < barMsix x + 16 * msixSize x)) then
    (d.barWord x o (v % 2 ^ 32)).barWord x (o + 4) (v / 2 ^ 32 % 2 ^ 32)
  else d.badAccess x

/-! ### Reads of BAR0 (R12, R390; notes/assumptions/143.md) -/

/-- A function register as a host reads it (Table 13.4). -/
def Dev.fnRead (d : Dev) (x o : Nat) : Nat :=
  let f := d.fnGet x
  match o with
  | 0x00 => 4 + 256 * b2n (isVf x) + 512 * portOf x + 1024 * vfNum x
  | 0x04 => d.fnQueues x
  | 0x08 => b2n d.mail.activating.isSome + 2 * b2n (f.d3hot && !f.held.isEmpty) + 4 * b2n f.adopted
  | 0x0C => f.event
  | 0x10 => f.eventMask
  | 0x14 => f.eventVector
  | 0x18 => f.eventQueue
  | 0x1C => f.bad
  | _ => 0

/-- A word of a queue-pair block as a host reads it (Tables 13.5, 13.6): the doorbells read 0. -/
def Dev.qpRead (d : Dev) (x q o : Nat) : Nat :=
  let p := d.qp x q
  match o with
  | 0x00 => p.sqBase % 2 ^ 32
  | 0x04 => p.sqBase / 2 ^ 32
  | 0x08 => p.cqBase % 2 ^ 32
  | 0x0C => p.cqBase / 2 ^ 32
  | 0x10 => p.cfg
  | 0x14 => p.arb
  | 0x18 => p.md
  | 0x1C => p.pasid
  | 0x20 => b2n (p.state != .disabled) + 2 * b2n (p.state == .resetting)
  | 0x24 => p.state.code + 4 * b2n p.stalled + 8 * b2n (p.stalled || d.mail.activating.isSome) + 256 * p.reason
  | 0x28 => p.errIndex
  | 0x2C => p.sqHead
  | 0x38 => p.cqTail
  | 0x3C => p.outstanding
  | _ => 0

/-- A mailbox register as a host reads it (Tables 15.2, 15.3). -/
def Dev.mbShow (d : Dev) (x o : Nat) : Nat :=
  let m := d.mbox x
  match o with
  | 0x04 => b2n m.busy.isSome + 2 * b2n m.session.isSome + 4 * b2n (!m.events.isEmpty) + 8 * b2n m.ready + 65536 * m.doneSeq
  | 0x08 => m.vector
  | 0x0C => m.err
  | _ => 0

/-- A word of the pending-bit array. -/
def Fn.pbaWord (f : Fn) (i : Nat) : Nat := ((f.pba.filter (fun v => v / 32 == i)).map (fun v => 2 ^ (v % 32))).sum

/-- A word of BAR0 as a host reads it; offsets the map leaves unassigned read 0. -/
def Dev.barShow (d : Dev) (x o : Nat) : Nat :=
  let f := d.fnGet x
  let i := (o - barMsix x) / 4
  if o < 0x20 then d.fnRead x o
  else if barQp x ≤ o then (let q := (o - barQp x) / 64; if d.hasQueue x q then d.qpRead x q ((o - barQp x) % 64) else 0)
  else if barPba x ≤ o && decide (o < barPba x + msixSize x / 8) then f.pbaWord ((o - barPba x) / 4)
  else if barMsix x ≤ o && decide (o < barMsix x + 16 * msixSize x) then (tabGet (if i % 4 = 3 then 1 else 0) f.msix i).toNat
  else if barMail x ≤ o && decide (o < barMail x + 16) then d.mbShow x (o - barMail x)
  else 0

/-- A host read of `size` bytes of BAR0 (R390, Table 0.3): the value, and the part with FN_BAD_ACCESS cleared by its read, or a refused
access counted. -/
def Dev.barRead (d : Dev) (x o size : Nat) : Nat × Dev :=
  let read8 := bar64 x o || (barMsix x ≤ o && decide (o < barPba x + msixSize x / 8))
  let resp := barMail x + (if isVf x then 0x80 else 0x800)
  if barSize x ≤ o then (0, d)
  else if mailArea x o then (if resp ≤ o then leNat (((d.mbox x).resp.drop (o - resp)).take size) else 0, d)
  else if size = 4 ∧ o % 4 = 0 then (d.barShow x o, if o = 0x1C then d.fnUpd x (fun f => { f with bad := 0 }) else d)
  else if size = 8 ∧ o % 8 = 0 ∧ read8 then (d.barShow x o + 2 ^ 32 * d.barShow x (o + 4), d)
  else (0, d.badAccess x)

end Sys2Proof.Machine
end

