-- ==== Sys2Proof/Machine/Submit.lean ====
section
/-!
DEFINITION. Sys2Proof/Machine/Submit.lean: QUERY_SUBMIT from its descriptor to its first charge (04_pipeline_images.md R136 to R142, 13
R407, 05 R169), and the result rings while it runs.
-/
namespace Sys2Proof.Machine

/-! ### Starting a fetched command -/

/-- Whether a fetched command may start: it has not, no FLUSH of its queue stands before it (R399, R415), and it is not one that waits in Idle
(R528) or for firmware that is being activated (R418). -/
def Dev.mayStartCmd (d : Dev) (x q cid op : Nat) : Option Cmd :=
  match d.cmd x q cid with
  | some c =>
    let waits := d.pwr.mode == 3 && (op == 1 || op == 2 || op == 3 || op == 7 || op == 8)
    if c.op = op && !c.started && !waits && d.mail.activating.isNone && !(d.qp x q).cmds.any (fun k => k.op == 0x04 && decide (k.seq < c.seq)) then some c else none
  | none => none

/-- A command started by `f`. -/
def Dev.startCmd (d : Dev) (x q cid op : Nat) (f : Dev → Cmd → Dev) : Dev :=
  match d.mayStartCmd x q cid op with
  | some c => f (d.cmdUpd x q cid (fun k => { k with started := true })) c
  | none => d

/-- The table space a command names (R45), or its status. -/
def Cmd.ts (c : Cmd) : Nat := fieldAt c.entry 0x08 4

/-! ### Submissions -/

def Dev.sub (d : Dev) (x q cid : Nat) : Option Submit := d.qry.subs.find? (fun s => s.x == x && s.q == q && s.cid == cid)
def Dev.subUpd (d : Dev) (x q cid : Nat) (f : Submit → Submit) : Dev :=
  { d with qry := { d.qry with subs := updWhere (fun s => s.x == x && s.q == q && s.cid == cid) f d.qry.subs } }
def Dev.dropSub (d : Dev) (x q cid : Nat) : Dev :=
  let mine := fun (c : CacheEnt) => c.waits.contains (x, q, cid)
  { d with
    qry := { d.qry with
      subs := d.qry.subs.filter (fun s => !(s.x == x && s.q == q && s.cid == cid))
      cache := if d.qry.cache.any mine then dropEmptied (updWhere mine (fun c => { c with waits := c.waits.filter (· != (x, q, cid)) }) d.qry.cache)
        else d.qry.cache }
    host := { d.host with reads := d.host.reads.filter (fun r => !(r.x == x && r.q == q && r.cid == cid)) } }

/-- The sharing group of a function (R139): its own, or a group of its PF (DESIGN CHOICE, notes/assumptions/116.md). -/
def Dev.groupKey (d : Dev) (x : Nat) : Nat := let g := tabGet 0 d.qry.sharing x; if g = 0 then 10000 + x else 1000 * portOf x + g

def Dev.cacheHit (d : Dev) (group : Nat) (dig : Bytes) : Option CacheEnt := d.qry.cache.find? (fun c => c.group == group && c.digest == dig)

/-- The next submission that misses on a key takes over its fetch (R140). -/
def Dev.passFetch (d : Dev) (group : Nat) (dig : Bytes) : Dev :=
  match d.qry.subs.find? (fun s => s.missing && d.groupKey s.x == group && s.descr.digest == dig) with
  | some s => if d.host.reads.any (fun r => r.x == s.x && r.q == s.q && r.cid == s.cid && r.use == .image) || s.fetched.isSome then d
    else d.hostRead s.x s.q s.cid .image s.descr.imageAddr s.descr.imageBytes
  | none => d

/-- A submission ends without a query. -/
def Dev.endSub (d : Dev) (s : Submit) (c : Compl) : Dev :=
  let again : Dev := if s.resume.isSome && c.status == 0x1003 then { d with twin := { d.twin with resubmitted := d.twin.resubmitted + 1 } } else d
  let d1 := ((again.dropSub s.x s.q s.cid).holdMoved s.ts).complete s.x s.q s.cid c
  if s.missing then d1.passFetch (d.groupKey s.x) s.descr.digest else d1

/-- The submit descriptor (Table 13.12): none where R407 refuses it for its own sake. -/
def parseDescr (b : Bytes) : Option Descr :=
  let f := fun (o : Nat) => fieldAt b o 8
  let pb := fieldAt b 0x0C 4
  let ok := f 0 % 64 == 0 && (pb == 0 || (decide (16 ≤ pb) && decide (pb ≤ 1048576))) && f 0x10 % 16 == 0 && (pb != 0 || f 0x10 == 0) && zeroAt b 0x40 64
  if ok then some
    { imageAddr := f 0, imageBytes := fieldAt b 8 4, paramBytes := pb, paramAddr := f 0x10, epoch := f 0x18, digest := sliceAt b 0x20 32
      rings := (List.range 16).map (fun i => f (0x80 + 8 * i)) }
  else none

/-- The EMIT stages of an image. -/
def Image.emits (im : Image) : Nat := (im.stages.filter (fun s => s.op == 0x13)).length

/-- The rules of R407 that need the image. -/
def descrFits (de : Descr) (im : Image) : Bool :=
  (de.paramBytes != 0 || im.params.isEmpty) &&
  (List.range 16).all (fun i => if i < im.emits then de.rings.getD i 0 != 0 else de.rings.getD i 0 == 0)

/-! ### Parameters (R137) -/

/-- The value of slot i, or none where it is refused. -/
def paramValue (b : Bytes) (n : Nat) (t : SlotTy) (i : Nat) : Option Val :=
  let o := 16 + 32 * i
  let null := bitOf (fieldAt b (o + 1) 1) 0
  let data := roundUp 16 (16 + 32 * n)
  let len := fieldAt b (o + 4) 4
  let off := fieldAt b (o + 8) 4
  let var := t.width.isNone || t.ty == .fixedBinary
  if fieldAt b o 1 ≠ t.ty.code || fieldAt b (o + 1) 1 ≥ 2 || !zeroAt b (o + 2) 2 || !zeroAt b (o + 12) 4 then none
  else if null then (if t.nullable && len == 0 && off == 0 && zeroAt b (o + 16) 16 then some none else none)
  else if var then
    let v := sliceAt b (data + off) len
    if zeroAt b (o + 16) 16 && decide (data + off + len ≤ b.length) && valueOk t v &&
       (if t.ty = .fixedBinary then len == t.len else decide (len ≤ 32768)) then some (some v) else none
  else
    let w := t.width.getD 0
    let v := sliceAt b (o + 16) w
    if len == 0 && off == 0 && zeroAt b (o + 16 + w) (16 - w) && valueOk t v then some (some v) else none

/-- A parameter block read against its declarations: the values, or the index of the failing parameter. -/
def parseParams (decl : List SlotTy) (bytes : Nat) (b : Bytes) : Except Nat (List (SlotTy × Val)) :=
  if bytes = 0 then .ok []
  else if fieldAt b 0 2 ≠ decl.length || fieldAt b 4 4 ≠ bytes || b.length ≠ bytes || !zeroAt b 2 2 || !zeroAt b 8 8 ||
      decide (bytes < 16 + 32 * decl.length) then .error 0
  else
    let vs := (List.range decl.length).map (fun i => (decl.getD i default, paramValue b decl.length (decl.getD i default) i))
    match vs.findIdx? (fun v => v.2.isNone) with
    | some i => .error i
    | none => .ok (vs.map (fun v => (v.1, v.2.getD none)))

/-! ### Admission (R36, R128, R130, R136, R141) -/

/-- What this device supports under the firmware that runs: highest minor of IF 1 and highest EL (R141, Table 15.7). -/
def Dev.supports (d : Dev) : Nat × Nat := d.mail.firmware.images

/-- The pair envelope (R141): the highest minor of IF 1, none where the twins share no IF major, and the highest EL. -/
def Dev.envelope (d : Dev) : Option Nat × Nat :=
  let me := d.supports
  match d.twin.partner with
  | some p => if d.twin.alone then (some me.1, me.2) else (if p.ifMajor = 1 then some (min me.1 p.ifMinor) else none, min me.2 p.el)
  | none => (some me.1, me.2)

/-- Steps 2 and 3: the fault of an image on this device. An image outside the envelope in both its EL and its IF is reported for its EL
(DESIGN CHOICE, notes/assumptions/161.md). -/
def Dev.placeFault (d : Dev) (im : Image) : Option IFault :=
  let e := d.envelope
  if e.2 < im.el then some ⟨6, 0x06⟩
  else if (match e.1 with | some m => decide (m < im.minor) | none => true) then some ⟨0, 0x06⟩
  else if d.node.isNone && im.stages.any (fun s => s.op == 0x11 || s.op == 0x12) then some ⟨0, 0x1C⟩
  else none

/-- A binding that does not resolve at an epoch (R128); flag [2] makes it a write target (Table 4.9). -/
def bindBad (sp : TSpace) (params : List (SlotTy × Val)) (e : Nat) (b : BindRec) : Bool :=
  match bindTable params b with
  | none => true
  | some tid =>
    match sp.table tid e with
    | none => true
    | some t => (bitOf b.flags 2 && isSlag tid) ||
      (match b.ty with
       | none => false
       | some ty => match t.column b.column e with
         | none => true
         | some c => !c.ty.same ty || (c.ty.nullable && !bitOf b.flags 0))

/-- The first binding that does not resolve, or an unbound target column of a STORE (R178): detail and reason of Table 13.14. -/
def bindFault (im : Image) (sp : TSpace) (params : List (SlotTy × Val)) (e : Nat) : Option (Nat × Nat) :=
  match (List.range im.binds.length).find? (fun i => bindBad sp params e (im.binds.getD i {})) with
  | some i => some (i, 0)
  | none =>
    match im.stages.find? (fun s => s.op == 0x14) with
    | none => none
    | some s =>
      let binds := im.stageBinds s
      match (bindTable params (binds.headD {})).bind (fun tid => sp.table tid e) with
      | none => none
      | some t =>
        ((t.liveCols e).find? (fun c => !c.ty.nullable && !binds.any (fun b => b.column == c.id))).map (fun c => (c.id, 1))

/-- Whether declarations fit a function's shares (R130, Table 16.2). -/
def Dev.sharesOk (d : Dev) (x : Nat) (im : Image) : Bool :=
  let sh := d.share x
  let rs := im.stages.map (fun s => im.resources.getD s.res {})
  decide ((rs.map (·.scratch)).foldl max 0 ≤ 1024 * sh.scratchKib) && decide ((rs.map (·.hbm)).sum ≤ 2097152 * sh.hbm) &&
    decide ((rs.map (·.ddr)).sum ≤ 2097152 * sh.ddr) && decide ((rs.map (·.drive)).sum ≤ 1048576 * sh.driveMib)

/-! ### Result ring control blocks (R169, Table 5.5) -/

/-- A ring from its control block; none where it is refused. -/
def parseRing (x addr : Nat) (b : Bytes) : Option Ring :=
  let n := fieldAt b 4 2
  let v := fieldAt b 6 2
  let bytes := fieldAt b 8 4
  let addrs := (List.range n).map (fun i => fieldAt b (0x40 + 8 * i) 8)
  if addr % 64 = 0 ∧ fieldAt b 0 4 = 0x51E90B0F ∧ 1 ≤ n ∧ n ≤ 4096 ∧ (v = 0xFFFF ∨ v < msixSize x) ∧ 65536 ≤ bytes ∧ bytes ≤ 67108864 ∧ bytes % 4096 = 0 ∧
     b.length = 0x40 + 8 * n ∧ zeroAt b 0x0C 4 ∧ zeroAt b 0x22 30 ∧ addrs.all (fun a => a % 4096 == 0) then
    some { addr := addr, buffers := n, vector := v, bytes := bytes, addrs := addrs, consumed := fieldAt b 0x10 8 }
  else none

/-! ### The query begins (R27, R68, R140) -/

/-- Charges' sources: the row ranges of each SKIP and each SCAN without input (R144). -/
def sourceUnits (im : Image) (sp : TSpace) (params : List (SlotTy × Val)) (e i : Nat) : List (Nat × Nat) :=
  let s := im.stages.getD i {}
  if s.op = 0x02 ∨ (s.op = 0x01 ∧ (im.feed i 0).isNone) then
    let b := (im.stageBinds s).headD {}
    match (bindTable params b).bind (fun tid => sp.table tid e) with
    | some t => sp.units t b.column e
    | none => []
  else []

/-- The image entry that a submission has hit pinned by its query (R140). -/
def Dev.pinImage (d : Dev) (s : Submit) (id : Nat) : Dev :=
  { d with qry := { d.qry with
    cache := updWhere (fun c => c.waits.contains (s.x, s.q, s.cid)) (fun c => { c with pins := c.pins ++ [id], used := d.qry.cacheSeq }) d.qry.cache
    cacheSeq := d.qry.cacheSeq + 1 } }

/-- A hit: the entry is pinned for the submission (R140, rule 4). -/
def Dev.hitImage (d : Dev) (s : Submit) : Dev :=
  { d with qry := { d.qry with
    cache := updWhere (fun c => c.group == d.groupKey s.x && c.digest == s.descr.digest)
      (fun c => { c with waits := c.waits ++ [(s.x, s.q, s.cid)], used := d.qry.cacheSeq }) d.qry.cache
    cacheSeq := d.qry.cacheSeq + 1 } }

/-- The bytes that a stage stages beside what it declares (R359): a SCAN's reads (R157), two batches of an EMIT, none above a buffer of its
ring (R180), the messages an EXCHANGE_SEND retains (R342); within its hbm_bytes (DEDUCED, notes/assumptions/176.md). -/
def Image.staging (im : Image) (rings : List Ring) (i : Nat) : Nat :=
  let s := im.stages.getD i {}
  let hbm := (im.resources.getD s.res {}).hbm
  let emit := ((List.range i).filter (fun k => (im.stages.getD k {}).op == 0x13)).length
  match s.op with
  | 0x01 => 65536 * fieldAt (im.block s) 0 2 * s.bCount
  | 0x13 => min hbm (2 * (match rings[emit]? with | some r => r.bytes | none => 0))
  | 0x11 => hbm
  | _ => 0

/-- The regions of a query's stages (R359): one for hbm_bytes, one for ddr_bytes and one for the staging of each, in whole frames; the HBM3E of
a stage that gathers rows uses the function's way-lock entry where it holds one (R189). -/
def Dev.openStages (d : Dev) (x id : Nat) (im : Image) (rings : List Ring) : Dev :=
  let lock := match d.mail.claims.find? (fun c => c.cls == 2 && c.x == x && c.holder == 1) with | some c => c.index + 1 | none => 0
  let put := fun (d : Dev) (tier n lock : Nat) => if n = 0 then d else d.openRegion (ctxOf x) tier (ceilDiv n frameBytes) lock (.query id)
  (List.range im.stages.length).foldl (fun d i =>
    let s := im.stages.getD i {}
    let r := im.resources.getD s.res {}
    put (put (put d 0 r.hbm (if gathers im s then lock else 0)) 1 r.ddr 0) 0 (im.staging rings i) 0) d

/-- The EMIT stage of ring e. -/
def Image.emitStage (im : Image) (e : Nat) : Nat :=
  ((List.range im.stages.length).filter (fun i => (im.stages.getD i {}).op == 0x13)).getD e 0

/-- The batches of an EMIT that checkpoints place at or above produced_count, by buffer and offset (R174). -/
def dueBatches (l : List (Nat × Nat × Ckpt)) (stage produced : Nat) : List (Nat × Nat × Nat × Nat) :=
  (((l.filter (fun k => k.1 == stage)).map (fun k => (List.range k.2.2.batches.length).filterMap (fun j =>
    (k.2.2.batches[j]?).bind (fun b => if produced ≤ b.1 then some (k.2.1, j, b.1, b.2) else none)))).flatten).mergeSort
    (fun a b => decide (a.2.2.1 < b.2.2.1 ∨ (a.2.2.1 = b.2.2.1 ∧ a.2.2.2 ≤ b.2.2.2)))

/-- A query starts; an image that runs uncached is held in the function's HBM3E (R140, rule 2). -/
def Dev.startQuery (d0 : Dev) (s : Submit) (im : Image) (sp : TSpace) (e : Nat) (rings : List Ring) : Dev :=
  let id := d0.qry.nextQuery
  let d00 := d0.openStages s.x id im rings
  let d := if s.cached then d00.pinImage s id else d00.openRegion (ctxOf s.x) 0 (ceilDiv s.descr.imageBytes frameBytes) 0 (.query id)
  let q : Query :=
    { id := id, x := s.x, q := s.q, cid := s.cid, ts := s.ts, epoch := e, autonomous := ((s.resume.bind (·.autonomous)).getD (d.autonomous s.x)), image := im, digest := s.descr.digest
      cached := s.cached, descr := s.descr, params := s.params, paramHash := s.paramHash
      rings := match s.resume with
        | some k => (List.range rings.length).filterMap (fun i => (rings[i]?).map (fun r =>
            let p := k.produced.getD i 0
            { r with num := p, produced := p, skip := p, due := dueBatches k.ckpts (im.emitStage i) p }))
        | none => rings
      node := match s.resume with | some k => k.node | none => none
      resume := match s.resume with | some k => k.ckpts | none => []
      clock := s.resume.bind (·.clock)
      storeEpoch := s.resume.bind (·.stored), storeAsked := (s.resume.bind (·.stored)).isSome
      stages := (List.range im.stages.length).map (fun i => { units := sourceUnits im sp s.params e i }) }
  let d1 := d.dropSub s.x s.q s.cid
  let d2 : Dev := { d1 with qry := { d1.qry with queries := d1.qry.queries ++ [q], nextQuery := id + 1 } }
  let store := im.stages.any (fun k => k.op == 0x14)
  let d4 := (d2.cmdUpd s.x s.q s.cid (fun c => { c with commits := store })).flushes s.x
  let d5 := (List.range im.stages.length).foldl (fun d i =>
    if (im.stages.getD i {}).op = 0x12 then d.pumpRecv (q.exch i) (q.sendStage i) else d) d4
  (d5.tellLow s.ts).advance id

/-- The epoch of a query of a table space that the partner owns: it is held here and reported, and the query goes on when the owner has the
hold (R70; DEDUCED, notes/assumptions/149.md). -/
def Dev.askEpoch (d : Dev) (s : Submit) (e : Nat) : Dev :=
  (d.subUpd s.x s.q s.cid (fun k => { k with epoch := some e })).tellHold s.ts 0 e 2 (.epoch s.x s.q s.cid)

/-- Steps 5 to 7 of R136, the epoch (R27, R70) and, after them, the ring control blocks (DESIGN CHOICE, notes/assumptions/161.md): everything has
been read. An adopted query is not checked against the shares again (R490). -/
def Dev.admitQuery (d : Dev) (s : Submit) (im : Image) : Dev :=
  match d.ownSpace s.x s.ts with
  | .error e => d.endSub s { status := e }
  | .ok sp =>
    match (match s.resume.bind (·.epoch) with
      | some e => (Except.ok e : Except Nat Nat)
      | none => sp.readEpoch (match s.epoch with | some e => e | none => s.descr.epoch)) with
    | .error e => d.endSub s { status := e }
    | .ok e =>
      if !d.owns s.ts && s.epoch.isNone && s.resume.isNone then d.askEpoch s e else
      if d.locked sp && im.stages.any (fun k => k.op == 0x01 || k.op == 0x14) then d.endSub s { status := 0x6003 } else
      match bindFault im sp s.params e with
      | some f => d.endSub s { status := 0x2021, detail := f.1, reason := f.2 }
      | none =>
        if s.resume.isNone && !d.sharesOk s.x im then d.endSub s { status := 0x4005 }
        else
          let rs := (List.range im.emits).map (fun i => parseRing s.x (s.descr.rings.getD i 0) (s.rings.getD i []))
          if rs.any Option.isNone then d.endSub s { status := 0x2031 }
          else d.startQuery s im sp e (rs.filterMap (fun r => r))

/-- The owner has the hold of a submission (R70). -/
def Dev.epochHeld (d : Dev) (x q cid : Nat) : Dev :=
  match d.sub x q cid with
  | some s => (match s.image with | some im => d.admitQuery s im | none => d)
  | none => d

/-- The next thing a submission reads once its image is known: the parameter block, then each ring control block. -/
def Dev.readNext (d : Dev) (s : Submit) : Dev :=
  match s.image with
  | none => d
  | some im =>
    let i := s.rings.length
    if i < im.emits then d.hostRead s.x s.q s.cid (.ring i) (s.descr.rings.getD i 0) 0x40
    else d.admitQuery s im

/-- The image of a submission is known and valid: the rules of R407 that need it, then steps 2 to 4 of R136 (DESIGN CHOICE,
notes/assumptions/161.md). -/
def Dev.haveImage (d : Dev) (s : Submit) (im : Image) : Dev :=
  let s1 : Submit := { s with image := some im, missing := false }
  if !descrFits s.descr im then d.endSub s1 { status := 0x2023 }
  else match d.placeFault im with
    | some f => d.endSub s1 { status := 0x2020, detail := f.off, reason := f.reason }
    | none =>
      let d1 := d.subUpd s.x s.q s.cid (fun _ => s1)
      if s.descr.paramBytes = 0 then d1.readNext s1
      else d1.hostRead s.x s.q s.cid .params s.descr.paramAddr s.descr.paramBytes

/-- The submit descriptor has been read (R139, R407). An adopted query fetches its image again, hit or miss (R138), and it is the image that
its checkpoints name (R142). -/
def Dev.haveDescr (d : Dev) (s : Submit) (b : Option Bytes) : Dev :=
  match b.bind parseDescr with
  | none => d.endSub s { status := 0x2023 }
  | some de =>
    let s1 : Submit := { s with descr := de }
    let d1 := d.subUpd s.x s.q s.cid (fun _ => s1)
    if (s.resume.bind (·.digest)).any (· != de.digest) then d.endSub s1 { status := 0x3010 } else
    match (if s.resume.isSome then none else d.cacheHit (d.groupKey s.x) de.digest) with
    | some c => (d1.hitImage s1).haveImage s1 c.image
    | none =>
      let other := d.qry.subs.any (fun k => k.missing && d.groupKey k.x == d.groupKey s.x && k.descr.digest == de.digest)
      let d2 := d1.subUpd s.x s.q s.cid (fun k => { k with missing := true })
      if other then d2 else d2.hostRead s.x s.q s.cid .image de.imageAddr de.imageBytes

/-- The parameter block has been read; an adopted query's must be the block of its first fetch (R138). -/
def Dev.haveParams (d : Dev) (s : Submit) (b : Option Bytes) : Dev :=
  match s.image with
  | none => d
  | some im =>
    if (s.resume.bind (·.paramHash)).any (fun h => b.map (sha 0) != some h) then d.endSub s { status := 0x3010 } else
    match b with
    | none => d.endSub s { status := 0x2022 }
    | some b =>
      match parseParams im.params s.descr.paramBytes b with
      | .error i => d.endSub s { status := 0x2022, detail := i }
      | .ok ps =>
        let s1 : Submit := { s with params := ps, paramHash := sha 0 b }
        (d.subUpd s.x s.q s.cid (fun _ => s1)).readNext s1

/-- A ring control block has been read: its first 64 bytes, then its buffer addresses. -/
def Dev.haveRing (d : Dev) (s : Submit) (i : Nat) (second : Bool) (b : Option Bytes) : Dev :=
  let put := fun (r : Bytes) => let s1 : Submit := { s with rings := s.rings.take i ++ [r] }; (d.subUpd s.x s.q s.cid (fun _ => s1), s1)
  match b with
  | none => let y := put []; y.1.readNext y.2
  | some b =>
    if second then let y := put (s.rings.getD i [] ++ b); y.1.readNext y.2
    else
      let n := fieldAt b 4 2
      let y := put b
      if 1 ≤ n ∧ n ≤ 4096 then y.1.hostRead s.x s.q s.cid (.ring i) (s.descr.rings.getD i 0 + 0x40) (8 * n) else y.1.readNext y.2

/-! ### The image cache (R139, R140) -/

/-- Bytes the cache holds. -/
def cacheBytes (l : List CacheEnt) : Nat := (l.map (·.bytes)).sum

/-- Entries evicted, least recently used first, until one more image fits; none when the pinned ones leave no room (DEDUCED, notes/assumptions/115.md). -/
def makeRoom : Nat → List CacheEnt → Nat → Option (List CacheEnt)
  | 0, l, n => if l.length < 4096 ∧ cacheBytes l + n ≤ 268435456 then some l else none
  | fuel + 1, l, n =>
    if l.length < 4096 ∧ cacheBytes l + n ≤ 268435456 then some l
    else match l.foldl (fun (m : Option CacheEnt) c => if !c.free then m else match m with
          | some k => if c.used < k.used then some c else m
          | none => some c) none with
      | some v => makeRoom fuel (l.filter (fun c => !(c.group == v.group && c.digest == v.digest))) n
      | none => none

/-- A fetched image checked: one check for every submission that missed on its key (R139, R140). An image that is not supported here ends an
adopted query with RESUBMIT (R142); the image of an adopted query may be in the cache already (R138). -/
def Dev.imageFetched (d : Dev) (x q cid : Nat) : Dev :=
  match d.sub x q cid with
  | none => d
  | some s =>
    match s.fetched with
    | none => d
    | some got =>
      let g := d.groupKey x
      let same := d.qry.subs.filter (fun k => k.missing && d.groupKey k.x == g && k.descr.digest == s.descr.digest)
      let all := if same.isEmpty then [s] else same
      let clear := all.foldl (fun d k => d.subUpd k.x k.q k.cid (fun k => { k with missing := false, fetched := none })) d
      let each := fun (d : Dev) (f : Dev → Submit → Dev) => all.foldl (fun d k => match d.sub k.x k.q k.cid with | some k1 => f d k1 | none => d) d
      match got with
      | none => each clear (fun d k => d.endSub k { status := 0x3010 })
      | some b =>
        if sha 0 b ≠ s.descr.digest then each clear (fun d k => d.endSub k { status := 0x3010 })
        else match structCheck d.supports.1 d.supports.2 s.descr.imageBytes b with
          | .error f => each clear (fun d k => d.endSub k
              { status := if k.resume.isSome && (f.reason == 0x04 || f.reason == 0x05) then 0x1003 else if f.off = 8 ∧ f.reason = 0x0C then 0x3005 else 0x2020
                detail := f.off, reason := f.reason })
          | .ok im =>
            if (clear.cacheHit g s.descr.digest).isSome then each clear (fun d k => (d.hitImage k).haveImage k im) else
            match makeRoom 4096 clear.qry.cache b.length with
            | some l =>
              let e : CacheEnt := { group := g, digest := s.descr.digest, image := im, bytes := b.length, waits := all.map (fun k => (k.x, k.q, k.cid))
                                    used := clear.qry.cacheSeq }
              let d1 : Dev := { clear with qry := { clear.qry with cache := l ++ [e], cacheSeq := clear.qry.cacheSeq + 1 } }
              each d1 (fun d k => d.haveImage k im)
            | none => each (all.foldl (fun d k => d.subUpd k.x k.q k.cid (fun k => { k with cached := false })) clear) (fun d k => d.haveImage k im)

/-- QUERY_SUBMIT begins: the table space is checked and the descriptor read. -/
def Dev.querySubmit (d : Dev) (x q cid : Nat) : Dev :=
  d.startCmd x q cid 0x01 (fun d c =>
    match d.ownSpace x c.ts with
    | .error e => d.failCmd x q cid e
    | .ok _ =>
      ({ d with qry := { d.qry with subs := d.qry.subs ++ [{ x := x, q := q, cid := cid, ts := c.ts }] } } : Dev).hostRead x q cid .descriptor (fieldAt c.entry 0x10 8) 256)

/-- A submission under admission begins again: its descriptor is read. -/
def Dev.restartSub (d : Dev) (k : Submit) : Dev :=
  match d.cmd k.x k.q k.cid with
  | some c =>
    let d1 := d.dropSub k.x k.q k.cid
    ({ d1 with qry := { d1.qry with subs := d1.qry.subs ++ [{ x := k.x, q := k.q, cid := k.cid, ts := k.ts, epoch := k.epoch, resume := k.resume }] } } : Dev).hostRead
      k.x k.q k.cid .descriptor (fieldAt c.entry 0x10 8) 256
  | none => d

/-! ### Queries that fetch their image again (R138, R140, R418, R517) -/

/-- A query reads its image and parameter block again. -/
def Dev.refetchQuery (d : Dev) (id : Nat) : Dev :=
  match d.query id with
  | some q => (d.queryUpd id (fun q => { q with refetch := true })).hostRead q.x q.q q.cid .image q.descr.imageAddr q.descr.imageBytes
  | none => d

/-- An image read again for a running query: its digest and, after an activation, its structure (R140). -/
def Dev.reImage (d : Dev) (q : Query) (b : Option Bytes) : Dev :=
  match b with
  | none => (d.endQuery q.id { status := 0x3010 } 1).settle q.id
  | some b =>
    if sha 0 b ≠ q.digest then (d.endQuery q.id { status := 0x3010 } 1).settle q.id
    else match structCheck d.supports.1 d.supports.2 q.descr.imageBytes b with
      | .error _ => (d.endQuery q.id { status := 0x1003 } 1).settle q.id
      | .ok _ =>
        if q.descr.paramBytes = 0 then (d.queryUpd q.id (fun q => { q with refetch := false })).advance q.id
        else d.hostRead q.x q.q q.cid .params q.descr.paramAddr q.descr.paramBytes

/-- A parameter block read again: it must equal its first fetch (R138). -/
def Dev.reParams (d : Dev) (q : Query) (b : Option Bytes) : Dev :=
  match b with
  | some b => if sha 0 b = q.paramHash then (d.queryUpd q.id (fun q => { q with refetch := false })).advance q.id
      else (d.endQuery q.id { status := 0x3010 } 1).settle q.id
  | none => (d.endQuery q.id { status := 0x3010 } 1).settle q.id

/-! ### Result rings (R170, R171, R174) -/

/-- A poll of a full ring (R170): `v` is consumed_count as read; a failed read leaves the last value in force. -/
def Dev.ringPoll (d : Dev) (id e : Nat) (v : Option Nat) : Dev :=
  match d.query id with
  | none => d
  | some q =>
    match q.rings[e]? with
    | none => d
    | some r =>
      if !r.stalled || q.ending.isSome then d
      else
        let d0 := d.undelay 2 (id * 16 + e)
        let d1 := d0.queryUpd id (fun q => { q with rings := updAt q.rings e (fun r => { r with consumed := v.getD r.consumed }) })
        let room := match (d1.query id).bind (fun q => q.rings[e]?) with | some r => r.room | none => false
        if room then (d1.ringRun id e (q.image.emitStage e)).advance id else d1.delay 2 1 (id * 16 + e)

/-- The oldest closed buffer of a ring is counted once every charge in it is held (R171, R174). -/
def Dev.countBuffer (d : Dev) (id e : Nat) : Dev :=
  match d.query id with
  | none => d
  | some q =>
    match q.rings[e]? with
    | none => d
    | some r =>
      match r.closed with
      | [] => d
      | b :: rest =>
        let st := q.stage (q.image.emitStage e)
        let held := b.charges.all (fun k => match st.charge false k with | some c => c.held | none => false)
        let stage := q.image.emitStage e
        let told := d.twin.alone || !d.twin.unacked.any (fun f => f.kind == 7 && f.body.getD 3 0 == id && f.body.getD 4 0 == stage && b.charges.contains (f.body.getD 5 0))
        if !held || !told || q.ending.isSome then d
        else
          let d1 := d.hostWrite q.x (r.bufAddr b.num) (bufHeader e b q.epoch q.cid)
          let d2 := d1.hostWrite q.x (r.addr + 0x18) (natLE 8 (b.num + 1))
          let d3 := if b.last then d2.hostWrite q.x (r.addr + 0x20) (natLE 2 1) else d2
          let d4 := if r.vector ≠ 0xFFFF then d3.vector q.x r.vector else d3
          (d4.queryUpd id (fun q => { q with rings := updAt q.rings e (fun r => { r with closed := rest, produced := b.num + 1, finished := r.finished || b.last }) })).advance id

end Sys2Proof.Machine
end

