-- ==== Sys2Proof/Machine/HostCmds.lean ====
section
/-!
DEFINITION. Sys2Proof/Machine/HostCmds.lean: INGEST, READ_PAGES, FLUSH, ABORT, SNAPSHOT, DIGEST and COMPRESS (13_host_queues.md R404 to
R406, R414 to R416), what a read of host memory brings, and blocks of the shared engines.
-/
namespace Sys2Proof.Machine

/-! ### INGEST (R79, R434) -/

def Dev.ingest (d : Dev) (x q cid : Nat) : Option Ingest := d.store.ingests.find? (fun g => g.x == x && g.q == q && g.cid == cid)
/-- An INGEST leaves, and its engine context is free. -/
def Dev.dropIngest (d : Dev) (x q cid : Nat) : Dev :=
  ({ d with store := { d.store with ingests := d.store.ingests.filter (fun g => !(g.x == x && g.q == q && g.cid == cid)) } } : Dev).engLeave true (jobUser x q cid)
/-- Reads of a command's data, piece by piece. -/
def Dev.readData (d : Dev) (x q cid : Nat) (l : List (Nat × Nat)) : Dev :=
  (List.range l.length).foldl (fun d i => let p := l.getD i (0, 0); d.hostRead x q cid (.data i) p.1 p.2) d

/-- The record of an INGEST that begins to read its stream (DESIGN CHOICE, notes/assumptions/45.md). -/
def Dev.newIngest (d : Dev) (x q cid : Nat) (c : Cmd) : Dev :=
  let g : Ingest := { x := x, q := q, cid := cid, ts := c.ts, table := fieldAt c.entry 0x20 4, framing := fieldAt c.entry 0x24 1, reject := fieldAt c.entry 0x25 1
                      want := c.data.length, bind := c.bind }
  ({ d.dropIngest x q cid with store := { d.store with ingests := (d.dropIngest x q cid).store.ingests ++ [g] } } : Dev).readData x q cid c.data

/-- INGEST begins. -/
def Dev.startIngest (d : Dev) (x q cid : Nat) : Dev :=
  d.startCmd x q cid 0x02 (fun d c =>
    match d.dataSpace x c.ts with
    | .error e => d.failCmd x q cid e
    | .ok s =>
      let t := fieldAt c.entry 0x20 4
      if isSlag t then d.failCmd x q cid 0x2005
      else if (s.table t c.bind).isNone then d.failCmd x q cid 0x2003
      else d.newIngest x q cid c)

/-! ### READ_PAGES (R405) -/

/-- Bytes written over the host pieces of a command's data. -/
def Dev.writeData (d : Dev) (x : Nat) : List (Nat × Nat) → Bytes → Dev
  | [], _ => d
  | (a, n) :: r, b => if b.isEmpty then d else (d.hostWrite x a (b.take n)).writeData x r (b.drop n)

/-- The delivery of a READ_PAGES whose reads have come: R63's checks, then the pages and the completion. -/
def Dev.pagesDone (d : Dev) (j : PageJob) : Dev :=
  if d.store.dcmds.any (fun k => k.use == .pages j.x j.q j.cid) then d
  else
    let d1 : Dev := { d with host := { d.host with pageJobs := d.host.pageJobs.filter (fun k => !(k.x == j.x && k.q == j.q && k.cid == j.cid)) } }
    match d.cmd j.x j.q j.cid with
    | none => d1
    | some c =>
      if d1.lockedTs c.ts then (d1.failCmd j.x j.q j.cid 0x6003).holdMoved j.ts
      else if j.bad then (d1.failCmd j.x j.q j.cid j.status).holdMoved j.ts
      else ((d1.writeData j.x c.data j.pages.flatten).complete j.x j.q j.cid { r0 := j.epoch, r1 := j.pages.length }).holdMoved j.ts

/-- READ_PAGES begins: what it names is found at its epoch, which it holds while it runs, and the pages are read. -/
def Dev.readPages (d : Dev) (x q cid : Nat) : Dev :=
  d.startCmd x q cid 0x03 (fun d c =>
    match d.dataSpace x c.ts with
    | .error e => d.failCmd x q cid e
    | .ok s =>
      match s.readEpoch (fieldAt c.entry 0x30 8) with
      | .error e => d.failCmd x q cid e
      | .ok e =>
        let tid := fieldAt c.entry 0x20 4
        let col := fieldAt c.entry 0x24 2
        match s.table tid e with
        | none => d.failCmd x q cid 0x2003
        | some t =>
          match t.column col e, (s.extentsOf tid col e).find? (fun k => k.num == fieldAt c.entry 0x28 8) with
          | none, _ => d.failCmd x q cid 0x2003
          | _, none => d.failCmd x q cid 0x2004
          | some _, some k =>
            if d.beyond k.group k.row then d.failCmd x q cid 0x5002 else
            let first := fieldAt c.entry 0x26 1
            let slots := (List.range (fieldAt c.entry 0x27 1)).map (first + ·)
            let j : PageJob := { x := x, q := q, cid := cid, ts := c.ts, epoch := e, first := first, pages := slots.map k.slotBytes }
            let d1 : Dev := { d with host := { d.host with pageJobs := d.host.pageJobs ++ [j] } }
            let reads := mergeReads d.schemeOf c.ts 16 ((slots.filter (fun n => decide (n < k.slots))).map (fun n => (k, n)))
            let d2 := reads.foldl (fun d p => d.issueRead (.pages x q cid) p) (d1.tellLow c.ts)
            (match d2.host.pageJobs.find? (fun j => j.x == x && j.q == q && j.cid == cid) with | some j => d2.pagesDone j | none => d2))

/-! ### FLUSH and SNAPSHOT (R68, R70, R415) -/

/-- FLUSH begins, and completes at once when nothing stands before it. -/
def Dev.startFlush (d : Dev) (x q cid : Nat) : Dev := d.startCmd x q cid 0x04 (fun d _ => d.flushes x)

/-- SNAPSHOT (R70): a hold is taken at a retained epoch, or one of the function's holds is released. While paired it completes when the
partner has the hold (R501). -/
def Dev.snapshot (d : Dev) (x q cid : Nat) : Dev :=
  d.startCmd x q cid 0x06 (fun d c =>
    match d.ownSpace x c.ts with
    | .error e => d.failCmd x q cid e
    | .ok s =>
      if fieldAt c.entry 0x20 1 = 0 then
        match s.readEpoch (fieldAt c.entry 0x28 8) with
        | .error e => d.failCmd x q cid e
        | .ok e =>
          if 64 ≤ (d.store.holds.filter (fun h => h.x == x)).length then d.failCmd x q cid 0x4001 else
          let id := 2 * d.store.nextHold + d.twin.pos
          let d1 : Dev := { d with store := { d.store with holds := d.store.holds ++ [⟨id, x, c.ts, e⟩], nextHold := d.store.nextHold + 1 } }
          if d.twin.alone then d1.complete x q cid { r0 := e, r1 := id }
          else (d1.cmdUpd x q cid (fun k => { k with data := [(e, id)] })).tellHold c.ts id e 1 (.hold x q cid)
      else
        let id := fieldAt c.entry 0x30 8
        match d.store.holds.find? (fun h => h.id == id && h.x == x && h.ts == c.ts) with
        | none => d.failCmd x q cid 0x2013
        | some h =>
          let d1 := ({ d with store := { d.store with holds := d.store.holds.filter (fun k => k.id != id) } } : Dev).raiseFloor c.ts
          if d.twin.alone then d1.complete x q cid {}
          else (d1.cmdUpd x q cid (fun k => { k with data := [(0, 0)] })).tellHold c.ts id h.epoch 0 (.hold x q cid))

/-- The completion of a SNAPSHOT whose HOLD the partner has. -/
def Dev.snapshotDone (d : Dev) (x q cid : Nat) : Dev :=
  match d.cmd x q cid with
  | some c => let p := c.data.headD (0, 0); d.complete x q cid { r0 := p.1, r1 := p.2 }
  | none => d

/-! ### DIGEST and COMPRESS (R406) -/

def Dev.job (d : Dev) (x q cid : Nat) : Option EngJob := d.host.engJobs.find? (fun j => j.x == x && j.q == q && j.cid == cid)
def Dev.jobUpd (d : Dev) (x q cid : Nat) (f : EngJob → EngJob) : Dev :=
  { d with host := { d.host with engJobs := updWhere (fun j => j.x == x && j.q == q && j.cid == cid) f d.host.engJobs } }
def EngJob.comp (j : EngJob) : Bool := match j.op with | .compress _ _ _ => true | .digest _ _ => false
/-- A job leaves its engine. -/
def Dev.dropJob (d : Dev) (j : EngJob) : Dev :=
  ({ d with host := { d.host with engJobs := d.host.engJobs.filter (fun k => !(k.x == j.x && k.q == j.q && k.cid == j.cid)) } } : Dev).engLeave j.comp (jobUser j.x j.q j.cid)

/-- The input of a job, once every piece has come. -/
def EngJob.input (j : EngJob) : Bytes := ((j.pieces.mergeSort (fun a b => decide (a.1 ≤ b.1))).map (·.2)).flatten
/-- Whether a job has all it reads. -/
def EngJob.ready (j : EngJob) : Bool := decide (j.pieces.length = j.want) && (!j.needKey || j.key.isSome)
/-- The blocks of a job (Table 3.4): 65,536 input bytes each, or the blocks of its frames. -/
def EngJob.total (j : EngJob) : Nat :=
  match j.op with
  | .compress dir _ _ => if 2 ≤ dir then frameBlocks (dir - 1) j.input else max 1 (ceilDiv j.input.length 65536)
  | .digest _ _ => max 1 (ceilDiv j.input.length 65536)

/-- A job whose input has come takes its place on the engines; a read that failed ends it (notes/assumptions/41.md). -/
def Dev.jobReady (d : Dev) (x q cid : Nat) : Dev :=
  match d.job x q cid with
  | some j => if j.bad then (d.dropJob j).failCmd x q cid 0x5001 else if j.ready then d.engJoin j.comp (jobUser x q cid) else d
  | none => d

/-- A job put in hand, with its reads. -/
def Dev.newJob (d : Dev) (j : EngJob) (key : Option (Nat × Nat)) (data : List (Nat × Nat)) : Dev :=
  let d1 : Dev := { d with host := { d.host with engJobs := d.host.engJobs ++ [j] } }
  let d2 := match key with | some k => d1.hostRead j.x j.q j.cid .key k.1 k.2 | none => d1
  (d2.readData j.x j.q j.cid data).jobReady j.x j.q j.cid

/-- DIGEST begins. -/
def Dev.startDigest (d : Dev) (x q cid : Nat) : Dev :=
  d.startCmd x q cid 0x07 (fun d c =>
    let kb := fieldAt c.entry 0x21 1
    d.newJob { x := x, q := q, cid := cid, op := .digest (fieldAt c.entry 0x20 1) (fieldAt c.entry 0x30 8), needKey := kb != 0, want := c.data.length }
      (if kb = 0 then none else some (fieldAt c.entry 0x28 8, kb)) c.data)

/-- COMPRESS begins. -/
def Dev.startCompress (d : Dev) (x q cid : Nat) : Dev :=
  d.startCmd x q cid 0x08 (fun d c =>
    d.newJob { x := x, q := q, cid := cid, op := .compress (fieldAt c.entry 0x20 1) (fieldAt c.entry 0x28 8) (fieldAt c.entry 0x30 8), want := c.data.length }
      none c.data)

/-- What a COMPRESS puts out, or its status. -/
def compressOut (dir : Nat) (b : Bytes) : Except Nat Bytes :=
  match dir with
  | 0 => .ok (valueFrame b)
  | 1 => (match frameOpen b with | some v => .ok v | none => .error 0x3008)
  | k => unframe (k - 1) b

/-- A job's last block is done; a destination that is too small is left with undefined contents (R406). -/
def Dev.finishJob (d : Dev) (j : EngJob) : Dev :=
  let d1 := d.dropJob j
  match j.op with
  | .digest alg res => (d1.hostWrite j.x res (digestOf alg (j.key.getD []) j.input)).complete j.x j.q j.cid { r0 := j.input.length }
  | .compress dir dest n =>
    match compressOut dir j.input with
    | .error e => d1.failCmd j.x j.q j.cid e
    | .ok b => if n < b.length then (let y := d1.drawBytes n; (y.2.hostWrite j.x dest y.1).failCmd j.x j.q j.cid 0x2032) else (d1.hostWrite j.x dest b).complete j.x j.q j.cid { r0 := b.length }

/-- An engine ends its block (R101): the message ends with its last block, and otherwise the next holder is served. -/
def Dev.engineBlock (d : Dev) (comp : Bool) (e : Nat) : Dev :=
  match (d.engines comp)[e]? with
  | none => d
  | some en =>
    match en.now with
    | none => d
    | some u =>
      let d1 := d.setEngines comp (updAt (d.engines comp) e (fun k => { k with now := k.after u }))
      if u.isCharge then d1
      else
        let d2 := d1.jobUpd u.a u.b u.c (fun j => { j with blocks := j.blocks + 1 })
        match d2.job u.a u.b u.c, d2.ingest u.a u.b u.c with
        | some j, _ => if j.total ≤ j.blocks then d2.finishJob j else d2
        | none, some g =>
          let d3 : Dev := { d2 with store := { d2.store with
            ingests := updWhere (fun k => k.x == u.a && k.q == u.b && k.cid == u.c) (fun k => { k with blocks := k.blocks.map (· + 1) }) d2.store.ingests } }
          if d2.ingestBlocks g ≤ g.blocks.getD 0 + 1 then (d3.engLeave true u).ingestReady { g with blocks := none } else d3
        | none, none => d2

/-- The hearth that runs a charge which uses an engine. -/
def Dev.userHearth (d : Dev) (u : EngUser) : Option Nat := (List.range hearthCount).find? (fun h => (d.hearth h).running.any (fun r => r.user == u))

/-- An engine discards a block whose data came poisoned (R587): the charge that issued it meets the end of R253, a command fails (DEDUCED for an
INGEST, notes/assumptions/182.md). -/
def Dev.enginePoison (d : Dev) (comp : Bool) (e : Nat) : Dev :=
  match ((d.engines comp)[e]?).bind (·.now) with
  | none => d
  | some u =>
    let d1 := d.setEngines comp (updAt (d.engines comp) e (fun k => { k with now := k.after u }))
    if u.isCharge then (match d1.userHearth u with | some h => d1.attemptFault h | none => d1)
    else match d1.job u.a u.b u.c with
      | some j => (d1.dropJob j).failCmd u.a u.b u.c 0x5001
      | none => if (d1.ingest u.a u.b u.c).isSome then (d1.dropIngest u.a u.b u.c).failCmd u.a u.b u.c 0x5001 else d1

/-! ### Data from host memory (R407) -/

/-- An INGEST whose stream has been read: a framed one, or one for a SWAGE column, works on a compression engine first (R101). -/
def Dev.ingestRead (d : Dev) (g : Ingest) : Dev :=
  if g.bad || d.ingestBlocks g = 0 then d.ingestReady g
  else
    let mine := fun (k : Ingest) => k.x == g.x && k.q == g.q && k.cid == g.cid
    ({ d with store := { d.store with ingests := updWhere mine (fun k => { k with blocks := some 0 }) d.store.ingests } } : Dev).engJoin true (jobUser g.x g.q g.cid)

/-- An INGEST piece has come; after the last, the stream is taken up (DEDUCED, notes/assumptions/42.md). -/
def Dev.ingestPiece (d : Dev) (x q cid i : Nat) (b : Option Bytes) : Dev :=
  let add := fun (g : Ingest) => if g.x == x && g.q == q && g.cid == cid then { g with pieces := g.pieces ++ [(i, b.getD [])], bad := g.bad || b.isNone } else g
  let d1 : Dev := { d with store := { d.store with ingests := d.store.ingests.map add } }
  match d1.ingest x q cid with
  | some g => if g.pieces.length = g.want then d1.ingestRead g else d1
  | none => d1

/-- A read of host memory ends: its data, or none for an error or poisoned data. -/
def Dev.hostReadDone (d : Dev) (tag : Nat) (b : Option Bytes) : Dev :=
  match d.host.reads.find? (fun r => r.tag == tag) with
  | none => d
  | some r =>
    let d1 : Dev := { d with host := { d.host with reads := d.host.reads.filter (fun k => k.tag != tag) } }
    let run := d1.qry.queries.find? (fun k => k.x == r.x && k.q == r.q && k.cid == r.cid && k.refetch)
    match r.use with
    | .descriptor => (match d1.sub r.x r.q r.cid with | some s => d1.haveDescr s b | none => d1)
    | .image => (match run, d1.sub r.x r.q r.cid with
      | some q, _ => d1.reImage q b
      | none, some _ => d1.subUpd r.x r.q r.cid (fun s => { s with fetched := some b })
      | none, none => d1)
    | .params => (match run, d1.sub r.x r.q r.cid with
      | some q, _ => d1.reParams q b
      | none, some s => d1.haveParams s b
      | none, none => d1)
    | .ring i => (match d1.sub r.x r.q r.cid with | some s => d1.haveRing s i (r.addr != s.descr.rings.getD i 0) b | none => d1)
    | .key => (d1.jobUpd r.x r.q r.cid (fun j => { j with key := some (b.getD []), bad := j.bad || b.isNone })).jobReady r.x r.q r.cid
    | .data i =>
      (match d1.job r.x r.q r.cid with
       | some _ => (d1.jobUpd r.x r.q r.cid (fun j => { j with pieces := j.pieces ++ [(i, b.getD [])], bad := j.bad || b.isNone })).jobReady r.x r.q r.cid
       | none => d1.ingestPiece r.x r.q r.cid i b)
    | .frag | .mailbox | .buffer => d1

/-! ### ABORT and QUEUE_RESET (R414, R416) -/

/-- The commit an INGEST or a query's STORE has in progress. -/
def Dev.openCommit (d : Dev) (x q cid : Nat) : Option Commit :=
  d.store.commits.find? (fun c => match c.use with
    | .ingest a b k => a == x && b == q && k == cid
    | .store id => (match d.query id with | some y => y.x == x && y.q == q && y.cid == cid | none => false)
    | _ => false)

/-- Everything a command that runs no query has in hand is dropped. -/
def Dev.stopWork (d : Dev) (x q : Nat) (c : Cmd) : Dev :=
  let d1 := match d.sub x q c.cid with
    | some s => let y := d.dropSub x q c.cid; if s.missing then y.passFetch (d.groupKey x) s.descr.digest else y
    | none => d
  let d2 := match d1.job x q c.cid with | some j => d1.dropJob j | none => d1
  let d3 := (d2.dropIngest x q c.cid).dropCmds (fun k => k.use == .pages x q c.cid)
  { d3 with
    host := { d3.host with
      reads := d3.host.reads.filter (fun r => !(r.x == x && r.q == q && r.cid == c.cid))
      pageJobs := d3.host.pageJobs.filter (fun j => !(j.x == x && j.q == q && j.cid == c.cid)) }
    store := { d3.store with holds := if c.op = 0x06 ∧ c.started ∧ fieldAt c.entry 0x20 1 = 0 then d3.store.holds.filter (fun h => h.id != (c.data.headD (0, 0)).2) else d3.store.holds } } |>.holdMoved c.ts

/-- A command ended before its point of no return, with a status; a running query ends once its charges have stopped. -/
def Dev.stopCmd (d : Dev) (x q : Nat) (c : Cmd) (status cause : Nat) : Dev :=
  let d0 := match d.openCommit x q c.cid with | some k => d.abandonCommit k | none => d
  match d0.qry.queries.find? (fun k => k.x == x && k.q == q && k.cid == c.cid) with
  | some k => (d0.endQuery k.id { status := status } cause).settle k.id
  | none => (d0.stopWork x q c).complete x q c.cid { status := status }

/-- ABORT (R414) (DEDUCED, notes/assumptions/103.md). -/
def Dev.abort (d : Dev) (x q cid : Nat) : Dev :=
  d.startCmd x q cid 0x05 (fun d c =>
    let tq := fieldAt c.entry 0x20 2
    let tc := fieldAt c.entry 0x22 2
    let answer := fun (d : Dev) (st : Nat) => d.complete x q cid { status := st, r0 := tq + 65536 * tc, isAbort := true }
    let p := d.qp x tq
    match p.cmds.find? (fun k => k.cid == tc && !(tq == q && tc == cid)) with
    | some k =>
      if k.op = 0x05 then answer d 0x2050
      else if k.past then answer d 0x0001
      else answer (d.stopCmd x tq k 0x1004 1) 0
    | none =>
      match (p.ready.map (fun r => (r.cid, r.isAbort)) ++ p.posted).reverse.find? (fun e => e.1 == tc) with
      | some e => answer d (if e.2 then 0x2050 else 0x0001)
      | none => answer d 0x2050)

/-- The reset values of a queue's indices and errors, in state DISABLED (R416). -/
def Qp.cleared (p : Qp) : Qp :=
  { p with state := .disabled, reason := 0, errIndex := 0, sqHead := 0, sqTail := 0, cqHead := 0, cqTail := 0, ready := []
           stalled := false, posted := [] }

/-- reset written (R416) (DEDUCED, notes/assumptions/104.md). -/
def Dev.queueReset (d : Dev) (x q : Nat) : Dev :=
  let p := d.qp x q
  if !d.hasQueue x q || p.state == .resetting then d
  else if p.state == .disabled then (d.qpUpd x q Qp.cleared).queueState x q
  else
    let d1 := d.qpUpd x q (fun p => { p with state := .resetting })
    (p.cmds.foldl (fun d c => match d.cmd x q c.cid with
      | some k => if k.past then d else d.stopCmd x q k 0x1005 1
      | none => d) d1).queueState x q

/-- The end of a queue reset: nothing outstanding and every completion posted. -/
def Dev.queueResetDone (d : Dev) (x q : Nat) : Dev :=
  let p := d.qp x q
  if p.state == .resetting && p.cmds.isEmpty && p.ready.isEmpty then (d.qpUpd x q Qp.cleared).queueState x q else d

end Sys2Proof.Machine
end

