-- ==== Sys2Proof/Machine/ExuCmd.lean ====
section
/-!
DEFINITION. Sys2Proof/Machine/ExuCmd.lean: the expression unit of a hearth as the device drives it: one instruction issued, faults
resolved, the wide unit's wake and power-down, and the scrub of the care-mask table (07, 09).
-/
namespace Sys2Proof.Machine

/-- A word whose own fields are well formed (R232, R233, R639): what the structural check lets through whatever stands around it (DESIGN CHOICE, notes/assumptions/28.md). -/
def xWordOk (op : XOp) (w : XFields) : Bool :=
  xEncOk op w && xRegsOk op w && (!op.shape.ty || match XTy.ofCode w.ty.toNat with | some t => xAccepts op t | none => false)

/-- Times of the last 24 hours. -/
def recent (now : Nat) (l : List Nat) : List Nat := l.filter (fun t => decide (now < t + 86400))

/-- An execution on a hearth's unit, with its counters. -/
def Dev.xRun (d : Dev) (h : Nat) (op : XOp) (w : XFields) (flt : Option XFault) : Dev :=
  let x := (d.hearth h).exu
  let y := x.execute (d.narrowOnly h) op w flt
  let wide5 := match flt with | some f => f.cause == 5 | none => false
  (d.hearthUpd h (fun k => { k with
    exu := { y.1 with rpe := 0, fixes := 0 }
    wideAt := if wide5 then recent d.opSec k.wideAt ++ [d.opSec] else k.wideAt
    unresAt := if y.2.unres = 0 then k.unresAt else recent d.opSec k.unresAt ++ [d.opSec] })).exuEvents h x y.2 y.1.rpe y.1.fixes

/-- One instruction issued on a hearth (R255); a unit that waits on a fault or on its charge's restart issues nothing. -/
def Dev.xIssue (d : Dev) (h : Nat) (op : XOp) (w : XFields) (flt : Option XFault) : Dev :=
  let x := (d.hearth h).exu
  if hearthCount ≤ h || x.pend.isSome || x.unres then d else d.xRun h op w flt

/-- The wide unit of a hearth fenced (R248, R590). -/
def Dev.fenceWide (d : Dev) (h : Nat) : Dev :=
  if (d.hearth h).exu.fenced then d
  else (((d.hearthUpd h (fun k => { k with exu := { k.exu with fenced := true, wide := .off, wakeReq := false, activeWide := false } })).countRepair 1).repairWritten).eventPf 0x0161 (2 ^ 24 + h) 0

/-- The cause of a fault resolved (R252): the second wide-unit fault within 24 h fences the unit first, and the instruction runs again
from element 0. -/
def Dev.faultResolved (d : Dev) (h : Nat) (flt : Option XFault) : Dev :=
  let k := d.hearth h
  match k.exu.pend with
  | none => d
  | some p =>
    let d1 := if p.flt.cause = 5 && decide (2 ≤ (recent d.opSec k.wideAt).length) then d.fenceWide h else d
    d1.xRun h p.op p.w flt

/-- wide_idle_us of a hearth (Table 7.8). -/
def Dev.wideIdleUs (d : Dev) (h : Nat) : Nat := d.regField (0x02100000 + 0x1000 * h) 15 0

/-- A change of the wide unit's state. -/
def Dev.wideUpd (d : Dev) (h : Nat) (f : Exu → Exu) : Dev := d.hearthUpd h (fun k => { k with exu := f k.exu })

/-- wide_idle_us without a vector instruction: the wide unit starts to power down (R246). -/
def Dev.wideIdle (d : Dev) (h : Nat) : Dev :=
  if (d.hearth h).exu.wide = .ready && d.wideIdleUs h != 0 then d.wideUpd h (fun x => { x with wide := .poweringDown, activeWide := false }) else d

/-- The power-down ends; a wake asked for meanwhile starts (R246). -/
def Dev.wideDown (d : Dev) (h : Nat) : Dev :=
  let x := (d.hearth h).exu
  if x.wide ≠ .poweringDown then d
  else if x.wakeReq && !d.narrowOnly h then
    (d.wideUpd h (fun x => { x with wide := .waking, wakeReq := false })).bump (0x02100008 + 0x1000 * h) 1
  else d.wideUpd h (fun x => { x with wide := .off, wakeReq := false })

/-- The wide unit is ready (R246, R247). -/
def Dev.wideReady (d : Dev) (h : Nat) : Dev :=
  if (d.hearth h).exu.wide = .waking then d.wideUpd h (fun x => { x with wide := if d.narrowOnly h then .poweringDown else .ready }) else d

/-- What force_narrow does when it is set (R248). -/
def Dev.forceNarrow (d : Dev) (h : Nat) : Dev :=
  if d.narrowOnly h && (d.hearth h).exu.wide == .ready then d.wideUpd h (fun x => { x with wide := .poweringDown, activeWide := false }) else d

/-! ### The care-mask table of a hearth (R298, R299, R301) -/

/-- Bank 0 as the system tables fill it: width 2, a table from its first entry on. -/
def bank0 (l : List SysTable) : CareBank :=
  let at_ := fun (e : Nat) => l.findSome? (fun t => if t.first ≤ e && decide (e < t.first + t.entries.length) then t.entries[e - t.first]? else none)
  let top := (l.map (fun t => t.first + t.entries.length)).foldl max 0
  { width := 2, entries := (List.range top).map (fun e => (at_ e).getD { key := [BitVec.allOnes 64, BitVec.allOnes 64], care := [0, 0] }) }

/-- A hearth loads bank 0. -/
def Dev.loadSys (d : Dev) (h : Nat) (l : List SysTable) : Dev :=
  d.wideUpd h (fun x => { x with cmt := { (x.cmt.loadBank 0 (bank0 l)) with sysLoaded := true } })

/-- The system table that holds an entry of bank 0. -/
def Dev.sysAt (d : Dev) (entry : Nat) : Option SysTable :=
  d.mail.sysTables.find? (fun t => decide (t.first ≤ entry) && decide (entry < t.first + t.entries.length))

/-- A device lookup of x in system table t (R294, R298): the result word, and the table's miss value where it is withdrawn (R301). -/
def Dev.sysLookup (d : Dev) (t x : Nat) : Nat :=
  match d.mail.sysTables.find? (fun k => k.table == t) with
  | none => 0
  | some k =>
    let hits := (List.range k.entries.length).filterMap (fun e => (k.entries[e]?).bind (fun c =>
      if careMatch 2 (wordsNat c.key) (wordsNat c.care) x then some (⟨0, k.first + e, c.prio, c.value, 0⟩ : CareHit) else none))
    let top := hits.foldl (fun m h => max m h.prio) 0
    if k.withdrawn then k.miss else careWord k.miss (hits.filter (fun h => h.prio == top))

/-- A system table withdrawn (R301); the event recorder keeps it (notes/assumptions/162.md). -/
def Dev.withdraw (d : Dev) (t : Nat) : Dev :=
  let d1 : Dev := { d with
    mail := { d.mail with sysTables := updWhere (fun k => k.table == t) (fun k => { k with withdrawn := true }) d.mail.sysTables }
    rcd := { d.rcd with tables := d.rcd.tables ++ [(d.opSec, t)] } }
  (d1.setReg 0x02300004 (d1.reg 0x02300004 ||| BitVec.ofNat 32 (2 ^ t))).eventPf 0x0006 t 0

/-! #### The scrub (R299, Table 9.6) -/

/-- The scrub of a hearth is paused: in Idle and where its clock is stopped (DEDUCED, notes/assumptions/163.md). -/
def Dev.scrubPaused (d : Dev) (h : Nat) : Bool := decide (d.pwr.mode < 4) || !(d.hearth h).powered

/-- What the copy holds at a scrub position of a hearth: DDR5 for bank 0, the scratchpad for banks 1 to 3. -/
def Dev.scrubCopy (d : Dev) (h pos : Nat) : CareUnit :=
  (if scrubBank pos = 0 then bank0 d.mail.sysTables else (d.hearth h).exu.cmt.copyBank (scrubBank pos)).scrubbed pos

/-- The DDR5 copy of bank 0 rewritten at a scrub position. -/
def Dev.sysRepair (d : Dev) (pos : Nat) (k : CareUnit) : Dev :=
  let e := (scrubEntry 2 pos).1
  { d with mail := { d.mail with sysTables := updWhere (fun t => decide (t.first ≤ e) && decide (e < t.first + t.entries.length)) (fun t =>
      { t with entries := ((⟨2, t.entries⟩ : CareBank).repaired (if pos < 16384 then pos - 2 * t.first else pos - t.first) k).entries }) d.mail.sysTables } }

/-- The position of a hearth's table rewritten by the scrub, and counted. -/
def Dev.scrubFix (d : Dev) (h pos : Nat) (k : CareUnit) : Dev :=
  (d.wideUpd h (fun x => { x with cmt := x.cmt.put pos k })).bump (0x02100104 + 0x1000 * h) 1

/-- The scrub moves on. -/
def Dev.scrubTo (d : Dev) (h pos : Nat) : Dev := d.wideUpd h (fun x => { x with cmt := { x.cmt with scrubPos := pos % scrubSpan } })

/-- Two of three agree on what bank 0 holds at a position: the value rewrites the copy and the hearths that differ; the others are the two
enabled hearths of lowest number (DESIGN CHOICE, notes/assumptions/163.md). No two agree: the system table is withdrawn. -/
def Dev.scrubVote (d : Dev) (h pos : Nat) (v : CareUnit) (others : List CareUnit) : Dev :=
  let vals := v :: others.take 2
  let who := h :: (d.pipeHearths.filter (· != h)).take 2
  match vals.find? (fun k => decide (2 ≤ (vals.filter (· == k)).length)) with
  | some k => ((who.zip vals).filter (fun p => p.2 != k)).foldl (fun (d : Dev) p => d.scrubFix p.1 pos k) (d.sysRepair pos k)
  | none => match d.sysAt (scrubEntry 2 pos).1 with | some t => d.withdraw t.table | none => d

/-- One scrub lookup cycle (R299, Table 9.6). `found` is what the hearth holds where it differs from its copy: a unit's key and care, or an
entry's value and priority; `copyBad` whether the copy is uncorrectable, `others` the same in bank 0 of two other hearths. -/
def Dev.scrubUnit (d : Dev) (h : Nat) (found : Option CareUnit) (copyBad : Bool) (others : List CareUnit) : Dev :=
  let pos := (d.hearth h).exu.cmt.scrubPos
  let held := match d.mail.sysUpdate with | some u => !u.applied.contains h | none => false
  let next := fun (d : Dev) => d.scrubTo h (pos + 1)
  if d.scrubPaused h then d
  else if scrubBank pos = 0 && held then d.scrubTo h (pos / 16384 * 16384 + 4096)
  else match found with
    | none => next d
    | some v =>
      let d0 := d.wideUpd h (fun x => { x with cmt := x.cmt.put pos v })
      if !copyBad then next (d0.scrubFix h pos (d.scrubCopy h pos))
      else if scrubBank pos = 0 then next (d0.scrubVote h pos v others)
      else if (d.hearth h).running.isSome then
        ((next d0).hearthUpd h (fun k => { k with exu := { k.exu with unres := true }, unresAt := recent d.opSec k.unresAt ++ [d.opSec] })).bump (0x02100024 + 0x1000 * h) 1
      else next d0

end Sys2Proof.Machine
end

