-- ==== Sys2Proof/Machine/FabricRx.lean ====
section
/-!
DEFINITION. Sys2Proof/Machine/FabricRx.lean: VXP packets as they arrive, the timers of an association, and the fabric ports
(R333 to R355).
-/
namespace Sys2Proof.Machine

/-! ### Port halves and pauses -/

def Dev.half (d : Dev) (h : Nat) : FabHalf := tabGet {} d.fab.halves h
def Dev.halfUpd (d : Dev) (h : Nat) (f : FabHalf → FabHalf) : Dev := { d with fab := { d.fab with halves := tabUpd {} d.fab.halves h f } }
def fabReg (port : Nat) : Nat := 0x02510000 + 0x100 * port

/-- FAB_STATUS of a port (Table 11.10). -/
def Dev.showPort (d : Dev) (p : Nat) : Dev :=
  let a := d.half (2 * p)
  let b := d.half (2 * p + 1)
  d.setReg (fabReg p + 4) (BitVec.ofNat 32 (b2n a.up + 2 * b2n b.up + 4 * b2n a.fec + 8 * b2n b.fec))

/-- Packets that waited for a pause to end leave (R347). -/
def Dev.unpause (d : Dev) : Dev :=
  (List.range 16).foldl (fun d h =>
    let k := d.half h
    if !k.held.isEmpty && decide (k.pausedUntil ≤ d.timeUs) then { (d.halfUpd h (fun k => { k with held := [] })) with out := d.out ++ k.held } else d) d

/-! ### Arrival (R335, R336, R339) -/

/-- A packet taken apart: the common header's fields, the bytes of the type's header, the payload. -/
structure VIn where
  kind : Nat
  flags : Nat
  src : Nat
  dst : Nat
  id : Nat
  psn : Nat
  hdr : Bytes
  body : Bytes
deriving DecidableEq, Repr, Inhabited

/-- The checks of R339 that need no association. -/
def parseVxp (b : Bytes) : Option VIn :=
  let kind := fieldAt b 1 1
  let n := hdrWords kind * 8
  let flags := fieldAt b 2 1
  let v : VIn := { kind := kind, flags := flags, src := fieldAt b 4 2, dst := fieldAt b 6 2, id := fieldAt b 8 4, psn := fieldAt b 12 4
                   hdr := sliceAt b 0x14 (n - 0x18), body := b.drop n }
  let rsv := (match kind with
    | 1 => decide (fieldAt b 0x1A 2 < 8)
    | 3 | 8 => zeroAt b 0x1A 2
    | 4 | 5 => zeroAt v.body 3 1
    | 6 => zeroAt v.body 2 6
    | 7 => (List.range (fieldAt v.body 0 4)).all (fun i => zeroAt v.body (4 + 16 * i + 6) 2)
    | 10 => zeroAt v.body 6 2
    | _ => true)
  let len := (match kind with | 4 | 5 | 6 | 10 => v.body.length == 8 | 7 => v.body.length == 4 + 16 * fieldAt v.body 0 4 | 2 | 3 | 8 | 9 => v.body.isEmpty | _ => true)
  let data := kind != 1 || decide (fieldAt b 0x28 4 + v.body.length ≤ fieldAt b 0x24 4)
  if decide (1 ≤ kind) && decide (kind ≤ 10) && decide (n ≤ b.length) && fieldAt b 3 1 == hdrWords kind &&
      fieldAt b (n - 4) 4 == (crc32c (b.take (n - 4))).toNat && decide (flags < 4) && fieldAt b 0x10 4 == v.body.length && rsv && len && data
  then some v else none

/-- A node an address is listed for. -/
def Dev.listed (d : Dev) (n : Nat) (a : Bytes) : Bool := d.fab.nodes.any (fun p => p.1 == n && p.2.contains a)

/-- Whether a source is admitted (R335): it is listed, and the fabric peer admission table, where one is loaded, holds it: a miss, and so a
withdrawn table (R301), refuses (DESIGN CHOICE, notes/assumptions/33.md). -/
def Dev.admitted (d : Dev) (a : Bytes) : Bool :=
  d.fab.nodes.any (fun p => p.2.contains a) &&
    (!d.mail.sysTables.any (fun t => t.table == Config.fabricTable) || bitOf (d.sysLookup Config.fabricTable (Config.fabricKey a)) 51)

/-- Whether a segment is of the association's size: the last one shorter at most (R339). -/
def segOk (a : Assoc) (v : VIn) : Bool :=
  decide (v.body.length ≤ a.seg) && (v.body.length == a.seg || fieldAt v.hdr 0x14 4 + v.body.length == fieldAt v.hdr 0x10 4)

/-- A psn received: cumulative and held numbers (R347). -/
def Assoc.got (a : Assoc) (psn : Nat) : Assoc :=
  let held := if a.rxHeld.contains psn || decide (psn < a.rxCum) then a.rxHeld else a.rxHeld ++ [psn]
  let n := (List.range held.length).foldl (fun c _ => if held.contains c then c + 1 else c) a.rxCum
  { a with rxHeld := held.filter (fun p => decide (n ≤ p)), rxCum := n, sinceAck := a.sinceAck + 1 }

/-- Whether a psn has been received before. -/
def Assoc.had (a : Assoc) (psn : Nat) : Bool := decide (psn < a.rxCum) || a.rxHeld.contains psn

/-- What arrives: a packet of a kind, its association's peer and own node, after the drops of R335, R336 and R339 and the count of CE
marks; the rest of the meaning follows. -/
def Dev.arrive (d0 : Dev) (k : VPkt) (kind : Nat) (f : Dev → Assoc → VIn → Dev) : Dev :=
  let d := d0.unpause
  if !(d.half k.half).up then d
  else if !d.admitted k.addr then d.bump 0x02500028 1
  else
    match parseVxp k.data with
    | none => d.bump 0x02500024 1
    | some v =>
      if v.kind ≠ kind then d
      else if !d.listed v.src k.addr then d.bump 0x02500028 1
      else if !d.isMe v.dst then d
      else
        let d1 := if k.ce then d.bump 0x0250002C 1 else d
        if kind = 4 then f d1 { peer := v.src, me := v.dst } v
        else
          match d1.assocOf v.src v.dst with
          | none => d
          | some a =>
            if kind = 5 then f d1 a v
            else if a.theirs ≠ some v.id then d
            else if kind = 1 && !segOk a v then d.bump 0x02500024 1
            else f (d1.assocUpd v.src v.dst (fun a => { a with lastRx := d1.timeUs, ceSince := a.ceSince + b2n k.ce })) a v

/-- Flows to the adopted node begin once no packet before their lowest message is missing (R355, R519; DEDUCED, notes/assumptions/181.md). -/
def Dev.beginFlows (d : Dev) (peer me cum : Nat) : Dev :=
  (d.fab.rflows.filter (fun f => f.me == me && f.sender == peer && f.fresh)).foldl (fun d f =>
    match f.low with
    | some (p, c, k) =>
      if cum ≤ p then d
      else (d.exchQueries f.exch f.stage).foldl (fun (d : Dev) q => d.advance q.1.id)
        ((d.rflowUpd me peer f.exch f.stage (fun f => f.beginAt c k)).pumpRecv f.exch f.stage)
    | none => d) d

/-- A packet of a reliable type received: acknowledged after the 16th, or within one tick of the oldest (R347). -/
def Dev.gotPsn (d0 : Dev) (a : Assoc) (psn : Nat) : Dev :=
  let d := d0.assocUpd a.peer a.me (fun a => a.got psn)
  let d1 := match d.assocOf a.peer a.me with | some b => d.beginFlows a.peer a.me b.rxCum | none => d
  match d1.assocOf a.peer a.me with
  | some b => if 16 ≤ b.sinceAck then d1.vxpAck a.peer a.me else d1.vxpTimer a.peer a.me 2 10
  | none => d1

/-! ### DATA (R343 to R346) -/

/-- Bytes the early-arrival pool holds: everything of flows whose exchange no query runs here. -/
def Dev.earlyBytes (d : Dev) : Nat :=
  ((d.fab.rflows.filter (fun f => (d.exchQueries f.exch f.stage).isEmpty)).map (fun f =>
    ((f.parts.map (fun p => (p.segs.map (fun s => s.2.length)).sum)).sum + ((f.got ++ f.queue).map (fun m => m.data.length)).sum))).sum

/-- The pool's claim (R346): HBM3E reservation 1, of VXP; none when another holds it. -/
def Dev.poolClaim (d : Dev) : Option Dev :=
  match d.claimOf 3 1 with
  | some c => if c.holder = 5 then some d else none
  | none => (match d.claim 0 5 3 1 0 67108864 with | (.granted _, d1) => some d1 | _ => none)

/-- A message whose bytes are all there: delivered when its batch is sound, else asked for again (R343). -/
def Dev.wholeMsg (d : Dev) (a : Assoc) (exch stage : Nat) (p : RPart) : Dev :=
  let b := ((p.segs.mergeSort (fun x y => decide (x.1 ≤ y.1))).map (·.2)).flatten
  let body := b.take (b.length - 4)
  let ok := p.bytes = 0 || (fieldAt body 0 4 == 0x51E90BA7 && fieldAt body 0x0C 4 + 4 == p.bytes && fieldAt b (b.length - 4) 4 == (crc32c body).toNat)
  let drop := d.rflowUpd a.me a.peer exch stage (fun f => { f with parts := f.parts.filter (fun k => !(k.charge == p.charge && k.piece == p.piece)) })
  if !ok then (drop.bump 0x02500024 1).vxpSend a.peer a.me 8 0 (natLE 4 exch ++ natLE 2 stage ++ zeros 2 ++ natLE 8 (p.charge + 2 ^ 48 * p.piece)) [] 0
  else
    let d1 := (drop.rflowUpd a.me a.peer exch stage (fun f => f.take { charge := p.charge, piece := p.piece, flags := p.flags, data := body })).pumpRecv exch stage
    (d.exchQueries exch stage).foldl (fun d q => d.advance q.1.id) d1

/-- A DATA segment (VXP_DATA). -/
def Dev.vxpData (d : Dev) (k : VPkt) : Dev :=
  d.arrive k 1 (fun d a v =>
    let exch := fieldAt v.hdr 0 4
    let stage := fieldAt v.hdr 4 2
    let id := fieldAt v.hdr 8 8
    let ch := id % 2 ^ 48
    let pc := id / 2 ^ 48
    let off := fieldAt v.hdr 0x14 4
    let f := (d.rflow a.me a.peer exch stage).getD { me := a.me, sender := a.peer, exch := exch, stage := stage }
    let old := d.fab.done.any (fun e => e.1 == exch && e.2.1 == stage && decide (d.timeUs < e.2.2 + 60000000))
    let running := !(d.exchQueries exch stage).isEmpty
    if a.had v.psn || (old && !running) || ptLt (ch, pc) (f.expCharge, f.expPiece) || f.got.any (fun m => m.charge == ch && m.piece == pc) || f.ended.isSome
    then d.gotPsn a v.psn
    else
      let pool := if running then some d else if d.earlyBytes + v.body.length ≤ 67108864 then d.poolClaim else none
      match pool with
      | none => d
      | some d0 =>
        let d1 := (d0.rflowUpd a.me a.peer exch stage (fun f => f.sees v.psn ch pc)).gotPsn a v.psn
        let p := (f.parts.find? (fun p => p.charge == ch && p.piece == pc)).getD { charge := ch, piece := pc, flags := fieldAt v.hdr 6 2, bytes := fieldAt v.hdr 0x10 4 }
        if p.segs.any (fun s => (s.1 == off && s.2.length == v.body.length) || (decide (off < s.1 + s.2.length) && decide (s.1 < off + v.body.length))) then d1
        else
          let p1 := { p with segs := p.segs ++ [(off, v.body)] }
          let d2 := d1.rflowUpd a.me a.peer exch stage (fun f => { f with parts := (f.parts.filter (fun k => !(k.charge == ch && k.piece == pc))) ++ [p1] })
          if (p1.segs.map (fun s => s.2.length)).sum = p1.bytes then d2.wholeMsg a exch stage p1 else d2)

/-! ### Acknowledgements (R347) -/

/-- r_min in Mb/s and r_ai in Mb/s. -/
def Dev.rMin (d : Dev) : Nat := 100 * d.regField 0x02500010 15 0
def Dev.rAi (d : Dev) : Nat := 1000 * d.regField 0x02500010 31 16

/-- An ACK (VXP_ACK): what it acknowledges leaves; three later acknowledgements call for a packet again at once. -/
def Dev.vxpAcked (d : Dev) (k : VPkt) : Dev :=
  d.arrive k 2 (fun d a v =>
    let cum := fieldAt v.hdr 0 4
    let sack := fieldAt v.hdr 4 8
    let isAck := fun (p : Nat) => decide (p < cum) || (decide (cum < p) && decide (p ≤ cum + 64) && bitOf sack (p - cum - 1))
    let gone := a.unacked.filter (fun t => isAck t.psn)
    let left := (a.unacked.filter (fun t => !isAck t.psn)).map (fun t => { t with later := t.later + (gone.filter (fun g => decide (t.psn < g.psn))).length })
    let adv := gone.any (fun t => decide (t.psn < cum))
    let rtt := (gone.getLast?).map (fun t => d.timeUs - t.sent)
    let srtt := match rtt, a.srtt with | some r, some s => some ((7 * s + r) / 8) | some r, none => some r | none, s => s
    let d1 := d.assocUpd a.peer a.me (fun b => { b with
      unacked := left, srtt := srtt, acked := b.acked + gone.length, ceAcked := b.ceAcked + min gone.length (fieldAt v.hdr 0x0C 4)
      rto := if adv then max 50 (4 * srtt.getD 25) else b.rto })
    let d2 := if !adv then d1 else if left.isEmpty then d1.undelay 3 (vxpTag a.peer a.me 0)
      else (d1.undelay 3 (vxpTag a.peer a.me 0)).vxpTimer a.peer a.me 0 (max 50 (4 * srtt.getD 25))
    (left.filter (fun t => decide (3 ≤ t.later))).foldl (fun d t => d.vxpResend a.peer a.me t.psn) d2)

/-- Queries with a flow in an exchange, or to or from a node. -/
def Dev.exchIds (d : Dev) (exch : Nat) : List (Nat × Nat) :=
  (d.qry.queries.map (fun q => ((List.range q.image.stages.length).filter (fun i =>
    let o := (q.image.stages.getD i {}).op; (o == 0x11 || o == 0x12) && q.exch i == exch)).map (fun i => (q.id, i)))).flatten

/-- FLOW_ACK (R344): the sender's window opens, and what is consumed is freed. -/
def Dev.vxpFlowAck (d : Dev) (k : VPkt) : Dev :=
  d.arrive k 3 (fun d a v =>
    let exch := fieldAt v.hdr 0 4
    let stage := fieldAt v.hdr 4 2
    let d1 := d.gotPsn a v.psn
    let fl := updWhere (fun (g : SFlow) => g.exch == exch && g.stage == stage && g.sender == a.me && g.node == a.peer)
      (fun g => g.ack (wordPt (fieldAt v.hdr 8 8)) (wordPt (fieldAt v.hdr 0x10 8))) d1.fab.sflows
    let d2 := ({ d1 with fab := { d1.fab with sflows := fl } } : Dev).pumpFlows
    if a.had v.psn then d1 else (d.exchQueries exch stage).foldl (fun d q => d.advance q.1.id) d2)

/-- RESEND (R343): the message goes again whole. -/
def Dev.vxpResendMsg (d : Dev) (k : VPkt) : Dev :=
  d.arrive k 8 (fun d a v =>
    let d1 := d.gotPsn a v.psn
    if a.had v.psn then d1
    else
      let id := fieldAt v.hdr 8 8
      match d1.fab.sflows.find? (fun g => g.exch == fieldAt v.hdr 0 4 && g.stage == fieldAt v.hdr 4 2 && g.sender == a.me && g.node == a.peer) with
      | some g => (match g.msgs.find? (fun m => m.charge == id % 2 ^ 48 && m.piece == id / 2 ^ 48) with
          | some m => d1.sendMsg g m
          | none => d1)
      | none => d1)

/-! ### Associations (R336, R337, R355) -/

/-- Messages of an association that were sent and have packets that no acknowledgement covers go again when it opens (R337). -/
def Dev.unsend (d : Dev) (a : Assoc) : Dev :=
  let open_ := fun (f : SFlow) (m : XMsg) => a.unacked.any (fun t => t.kind == 1 && fieldAt t.body 0 4 == f.exch && fieldAt t.body 4 2 == f.stage &&
    fieldAt t.body 8 8 == m.charge + 2 ^ 48 * m.piece)
  let fl := updWhere (fun f => f.node == a.peer && f.sender == a.me)
    (fun f => { f with msgs := updWhere (open_ f) (fun m => { m with sent := false }) f.msgs }) d.fab.sflows
  { d with fab := { d.fab with sflows := fl } }

/-- The largest segment both sides allow and the minor version admits (Table 11.2). -/
def segFor (minor a b : Nat) : Nat :=
  let m := min a b
  if 8192 ≤ m ∧ 1 ≤ minor then 8192 else if 4096 ≤ m then 4096 else 1024

/-- A refused peering (R337). -/
def Dev.refusePeer (d : Dev) (peer me data : Nat) : Dev :=
  (((d.assocUpd peer me (fun a => { a with refused := true, opened := false })).bump 0x02500030 1).eventPf 0x0005 peer data).showAssocs

/-- The answer to HELLO (R337). -/
def Dev.helloAnswer (d : Dev) (peer me hi range : Nat) (v : VIn) : Dev :=
  if fieldAt v.body 0 1 ≠ d.xp.1 then
    (d.vxpSend peer me 5 0 [] ([0, 0, 1, 0] ++ natLE 4 0) 0).refusePeer peer me range
  else
    let minor := min d.xp.2 hi
    let seg := segFor minor d.maxSeg (fieldAt v.body 4 4)
    let d1 := (d.assocUpd peer me (fun a => { a with theirs := some v.id, opened := true, minor := minor, seg := seg, lastRx := d.timeUs })).showAssocs
    (d1.vxpSend peer me 5 0 [] ([BitVec.ofNat 8 d.xp.1, BitVec.ofNat 8 minor, 0, 0] ++ natLE 4 seg) 0).pumpFlows

/-- HELLO (R337): the association opens at the version and segment size chosen, or is refused; a peer that was refused may come again with a
version that its firmware has since gained. -/
def Dev.vxpHello (d : Dev) (k : VPkt) : Dev :=
  d.arrive k 4 (fun d a0 v =>
    let peer := a0.peer
    let me := a0.me
    let hi := fieldAt v.body 2 1
    let range := fieldAt v.body 0 3
    match d.assocOf peer me with
    | some a =>
      if a.refused then
        (if fieldAt v.body 0 1 = d.xp.1 then Dev.helloAnswer (d.fresh peer me) peer me hi range v else d.vxpSend peer me 5 0 [] ([0, 0, 1, 0] ++ natLE 4 0) 0)
      else if a.opened && a.theirs == some v.id then d.vxpSend peer me 5 0 [] ([BitVec.ofNat 8 a.major, BitVec.ofNat 8 a.minor, 0, 0] ++ natLE 4 a.seg) 0
      else Dev.helloAnswer (if a.opened then (d.unsend a).fresh peer me else d) peer me hi range v
    | none => Dev.helloAnswer (d.fresh peer me) peer me hi range v)
/-- HELLO_ACK (R337). -/
def Dev.vxpHelloAck (d : Dev) (k : VPkt) : Dev :=
  d.arrive k 5 (fun d a v =>
    if a.opened || a.refused then d
    else if fieldAt v.body 2 1 = 1 then d.refusePeer a.peer a.me (fieldAt v.body 0 2)
    else (((d.assocUpd a.peer a.me (fun a => { a with
      theirs := some v.id, opened := true, minor := fieldAt v.body 1 1, seg := fieldAt v.body 4 4, lastRx := d.timeUs })).showAssocs).pumpFlows))

/-- A node named by a survivor is reached at the survivor's addresses as well (notes/assumptions/63.md). -/
def addAddrs (l : List (Nat × List Bytes)) (n : Nat) (more : List Bytes) : List (Nat × List Bytes) :=
  if l.any (fun p => p.1 == n) then updWhere (fun p => p.1 == n) (fun p => (p.1, p.2 ++ more.filter (fun a => !p.2.contains a))) l else l ++ [(n, more)]

/-- The flows to a node that another device has adopted start again from what it had consumed (R355). -/
def Dev.sendAgain (d : Dev) (n me : Nat) : Dev :=
  let fl := updWhere (fun f => f.node == n && f.sender == me)
    (fun f => { f with taken := f.consumed, msgs := f.msgs.map (fun m => { m with sent := false }) }) d.fab.sflows
  { d with fab := { d.fab with sflows := fl } }

/-- RESUME for an adopted node (R355). -/
def Dev.vxpResume (d : Dev) (k : VPkt) : Dev :=
  d.arrive k 6 (fun d a v =>
    let n := fieldAt v.body 0 2
    let d1 := d.gotPsn a v.psn
    if a.had v.psn then d1
    else
      let more := (assoc d1.fab.nodes a.peer).getD []
      let d2 : Dev := { d1 with fab := { d1.fab with nodes := addAddrs d1.fab.nodes n more } }
      let d3 := d2.hello n a.me
      let mine := d3.fab.rflows.filter (fun f => f.sender == n && f.me == a.me)
      let list := (mine.map (fun f => natLE 4 f.exch ++ natLE 2 f.stage ++ zeros 2 ++ natLE 8 (ptWord f.consumed))).flatten
      let d4 := d3.vxpSend n a.me 7 0 [] (natLE 4 mine.length ++ list) 0
      d4.sendAgain n a.me)

/-- RESUME_ACK (R355): what the peer has consumed of the adopted node's flows is freed. -/
def Dev.vxpResumeAck (d : Dev) (k : VPkt) : Dev :=
  d.arrive k 7 (fun d a v =>
    let d1 := d.gotPsn a v.psn
    if a.had v.psn then d1
    else
      let d2 := (List.range (fieldAt v.body 0 4)).foldl (fun (d : Dev) i =>
        let o := 4 + 16 * i
        let pt := wordPt (fieldAt v.body (o + 8) 8)
        let k : RPoint := { exch := fieldAt v.body o 4, stage := fieldAt v.body (o + 4) 2, node := a.peer, sender := a.me, point := pt }
        let fl := updWhere (fun f => f.exch == k.exch && f.stage == k.stage && f.node == a.peer && f.sender == a.me) (fun f => f.ack none pt) d.fab.sflows
        { d with fab := { d.fab with sflows := fl, resumed := d.fab.resumed ++ [k] } }) d1
      d2.pumpFlows)

/-- KEEPALIVE (R347). -/
def Dev.vxpKeepalive (d : Dev) (k : VPkt) : Dev := d.arrive k 9 (fun d a v => d.gotPsn a v.psn)

/-- CLOSE (R354): reasons 2 and 3 end the query of a running exchange. -/
def Dev.vxpClose (d : Dev) (k : VPkt) : Dev :=
  d.arrive k 10 (fun d a v =>
    let d1 := d.gotPsn a v.psn
    let r := fieldAt v.body 4 2
    if a.had v.psn || !(r == 2 || r == 3) then d1
    else (d1.exchIds (fieldAt v.body 0 4)).foldl (fun d q => (d.failAt q.1 0x2042 q.2).advance q.1) d1)

/-! ### Timers (R347, R354) -/

/-- RTO_EXPIRY: the packets whose time is over go again, the RTO doubles, the rate halves. A HELLO that has no answer goes again too (DEDUCED,
notes/assumptions/30.md). -/
def Dev.rtoExpiry (d0 : Dev) (peer me : Nat) : Dev :=
  let d := (d0.unpause).undelay 3 (vxpTag peer me 0)
  match d.assocOf peer me with
  | none => d
  | some a =>
    let late := a.unacked.filter (fun t => decide (t.sent + a.rto ≤ d.timeUs))
    let mute := !a.opened && !a.refused && decide (a.lastTx + a.rto ≤ d.timeUs)
    if late.isEmpty && !mute then (match a.unacked with | t :: _ => d.vxpTimer peer me 0 (t.sent + a.rto - d.timeUs) | [] => d)
    else
      let d1 := late.foldl (fun d t => d.vxpResend peer me t.psn) (if mute then d.sayHello peer me else d)
      let d2 := d1.assocUpd peer me (fun a => { a with rto := min 10000 (2 * a.rto), rate := max d.rMin (a.rate / 2), timedOut := true })
      (d2.undelay 3 (vxpTag peer me 0)).vxpTimer peer me 0 (min 10000 (2 * a.rto))

/-- RATE_PERIOD: the ECN estimate and the rate of an association (DEDUCED, notes/assumptions/31.md). -/
def Dev.ratePeriod (d0 : Dev) (peer me : Nat) : Dev :=
  let d1 := (d0.unpause).undelay 3 (vxpTag peer me 1)
  let d := if (d1.assocOf peer me).isSome then d1.vxpTimer peer me 1 50 else d1
  d.assocUpd peer me (fun a =>
    let f := if a.acked = 0 then 0 else a.ceAcked * 2 ^ 32 / a.acked
    let al := (15 * a.alpha + f) / 16
    let r := if a.ceAcked ≠ 0 then max d.rMin (a.rate - a.rate * al / 2 ^ 33)
      else if a.timedOut then a.rate else min d.bestRate (a.rate + d.rAi)
    { a with alpha := al, rate := r, acked := 0, ceAcked := 0, timedOut := false })

/-- ACK_TIMER. -/
def Dev.ackTimer (d0 : Dev) (peer me : Nat) : Dev :=
  let d := (d0.unpause).undelay 3 (vxpTag peer me 2)
  match d.assocOf peer me with
  | some a => if a.sinceAck = 0 then d else d.vxpAck peer me
  | none => d

/-- KEEPALIVE_TIMER. -/
def Dev.keepaliveTimer (d0 : Dev) (peer me : Nat) : Dev :=
  let d := (d0.unpause).undelay 3 (vxpTag peer me 3)
  let period := 125 * d.regField 0x0250000C 15 0
  match d.assocOf peer me with
  | some a => if a.opened && decide (a.lastTx + period ≤ d.timeUs) then (d.vxpTimer peer me 3 period).vxpSend peer me 9 0 [] [] 0
    else d.vxpTimer peer me 3 (if d.timeUs < a.lastTx + period then a.lastTx + period - d.timeUs else period)
  | none => d

/-- A timer of an association expires on delay list 3 (R347). -/
def Dev.vxpTick (d : Dev) (tag : Nat) : Dev :=
  let peer := tag / 4 % 65536
  let me := tag / 4 / 65536
  match tag % 4 with
  | 0 => d.rtoExpiry peer me
  | 1 => d.ratePeriod peer me
  | 2 => d.ackTimer peer me
  | _ => d.keepaliveTimer peer me

/-- Every association opened again after a firmware activation; messages not yet acknowledged are sent again (R337). -/
def Dev.reopen (d : Dev) : Dev := d.fab.assocs.foldl (fun d a => (d.unsend a).hello a.peer a.me) d

/-- PEER_LOST (R354): every query with a flow to or from the node. -/
def Dev.peerLost (d : Dev) (peer : Nat) : Dev :=
  let as_ := d.fab.assocs.filter (fun a => a.peer == peer)
  if as_.isEmpty || as_.any (fun a => decide (d.timeUs < a.lastRx + 1000 * d.regField 0x0250000C 15 0)) then d
  else
    let hit := (d.qry.queries.map (fun q => ((List.range q.image.stages.length).filter (fun i =>
      let o := (q.image.stages.getD i {}).op
      (o == 0x11 && (q.sendMap i).contains peer) || (o == 0x12 && (q.senders i).contains peer))).map (fun i => (q.id, i)))).flatten
    hit.foldl (fun d q => (d.failAt q.1 0x5007 q.2).advance q.1) d

/-! ### Ports (R333, R334, R353, R347) -/

/-- FABRIC_PORT_DOWN: the half's paths go, and its packets leave by others at once. -/
def Dev.portDown (d : Dev) (h : Nat) : Dev :=
  let d1 := (d.halfUpd h (fun k => { k with up := false, fec := false, held := [] })).showPort (h / 2)
  d1.fab.assocs.foldl (fun d a => (a.unacked.filter (fun t => t.path.1 == h)).foldl (fun d t => d.vxpResend a.peer a.me t.psn) d) d1

/-- FABRIC_PORT_UP: a half of an enabled port, half b only when the port is split. -/
def Dev.portUp (d : Dev) (h : Nat) : Dev :=
  let split := d.regField (fabReg (h / 2)) 1 0
  if 16 ≤ h ∨ 2 ≤ split ∨ (split = 0 ∧ h % 2 = 1) then d
  else ((d.halfUpd h (fun k => { k with up := true, fec := true })).showPort (h / 2)).pumpFlows

/-- FAB_CTRL changed (R334): the domain of a port pair is powered while one of the two is enabled; a change of split, media or MTU retrains the link. -/
def Dev.fabCtrl (d0 : Dev) (p old : Nat) : Dev :=
  let new := d0.regN (fabReg p)
  let en := fun (k : Nat) => decide (d0.regField (fabReg k) 1 0 < 2)
  let on := decide (3 ≤ d0.pwr.mode) && (en p || en (p / 2 * 2 + (p + 1) % 2))
  let d : Dev := { d0 with pwr := { d0.pwr with domains := tabSet 0 d0.pwr.domains (59 + p / 2) (2 * b2n on) } }
  if old % 8 = new % 8 ∧ bitsOf old 9 8 = bitsOf new 9 8 then d else (d.portDown (2 * p)).portDown (2 * p + 1)

/-- A frame that is not VXP (Table 11.1): 0 neighbour solicitation, 1 ICMPv6 echo, 2 ARP, 3 ICMP echo; anything else is dropped (DESIGN CHOICE, notes/assumptions/34.md). -/
def Dev.otherFrame (d : Dev) (h kind : Nat) (b : Bytes) : Dev :=
  let v4 := bitOf (d.regN (fabReg (h / 2))) 3
  if (d.half h).up && (decide (kind ≤ 1) || (decide (kind ≤ 3) && v4)) then d.send (.frame h (natLE 1 kind ++ b))
  else { d with fab := { d.fab with otherDrops := d.fab.otherDrops + 1 } }

/-- PFC_PAUSE_FRAME: a pause of some quanta (512 bit times) for the priorities named (R347) (PRESUMED, notes/assumptions/35.md). -/
def Dev.pfcPause (d : Dev) (h mask quanta : Nat) : Dev :=
  let r := d.regN (fabReg (h / 2))
  if !bitOf r 4 then d
  else
    let d1 := d.bump (fabReg (h / 2) + 0x10) 1
    if bitOf mask (bitsOf r 7 5) then
      (d1.halfUpd h (fun k => { k with pausedUntil := d.timeUs + ceilDiv (512 * quanta) (d.lineRate h) })).unpause
    else d1

end Sys2Proof.Machine
end

