-- ==== Sys2Proof/Machine/MemCmds.lean ====
section
/-!
DEFINITION. Sys2Proof/Machine/MemCmds.lean: requests to the system cache, frames, DRAM timers and errors, and the scratchpad banks (12).
-/
namespace Sys2Proof.Machine

/-! ### Requests (R362, R382) -/

/-- The query of a region ends when no zeroed frame is left for it (Table 12.3). -/
def Dev.spillExhausted (d : Dev) (use : Option RegionFor) : Dev :=
  match use with
  | some (.query id) => (d.failAt id 0x4007 0xFFFF).advance id
  | _ => d

/-- A request at a DVA of a context: what it does with the entry and the offset within the unit once the translation is through. -/
def Dev.memRequest (d : Dev) (ctx dva : Nat) (write : Bool) (f : Dev → XlEntry → Nat → Dev) : Dev :=
  match d.translate ctx dva write with
  | (.ok e off, d1) => f d1 e off
  | (.stop 2 use, d1) => d1.spillExhausted use
  | (.stop _ _, d1) => d1

/-- CACHE_READ: the line's bytes, the chunk that holds the byte first. -/
def Dev.cacheRead (d : Dev) (ctx dva : Nat) (err : MemErr) : Dev :=
  d.memRequest ctx dva false (fun d e off =>
    let r := ({ d with mem := { d.mem with poison := false } } : Dev).readLine (lineNo (4 * e.tier + e.unit) (off / 128 * 128)) e.lock e.noAlloc err
    ({ r.1 with mem := { r.1.mem with resp := (off % 128 / 32, r.2) } } : Dev).fenceSlices)

/-- CACHE_WRITE: bytes up to the line's end. -/
def Dev.cacheWrite (d : Dev) (ctx dva : Nat) (b : Bytes) : Dev :=
  d.memRequest ctx dva true (fun d e off => d.writeLine (lineNo (4 * e.tier + e.unit) (off / 128 * 128)) (off % 128) (b.take (128 - off % 128)))

/-- ZERO_LINE. -/
def Dev.cacheZero (d : Dev) (ctx dva : Nat) : Dev :=
  d.memRequest ctx dva true (fun d e off => d.zeroLine (lineNo (4 * e.tier + e.unit) (off / 128 * 128)) e.lock)

/-- What a fault of a hearth instruction is to the memory system (R362, R377, R387): a translation fault backs a frame, corrected
re-reads and refetches are counted. -/
def Dev.memFault (d : Dev) (h : Nat) (flt : Option XFault) : Dev :=
  match flt with
  | none => d
  | some f =>
    if f.cause = 1 then
      match (d.hearth h).running.bind (fun r => d.query r.query) with
      | some q => d.memRequest (ctxOf q.x) f.addr.toNat false (fun d _ _ => d)
      | none => d
    else if f.cause = 3 then d.bump (0x0210020C + 0x1000 * h) 1
    else if f.cause = 4 then d.bump 0x0270001C 1
    else d

/-- Whether an instruction works on the slice scratch, so that an uncorrectable error it meets is the scratchpad's (R377). -/
def onScratch (op : XOp) (w : XFields) : Bool :=
  match op with | .vlds | .vsts | .vscat => true | .vgath => w.mod.toNat == 2 | _ => false
/-- SPM_UE counts an uncorrectable error of the scratchpad. -/
def Dev.spmUe (d : Dev) (h : Nat) (op : XOp) (w : XFields) (flt : Option XFault) : Dev :=
  match flt with | some f => if f.cause = 0x10 && onScratch op w then d.bump (0x02100210 + 0x1000 * h) 1 else d | none => d

/-- One instruction issued on a hearth, and FAULT_RESOLVED, with what the memory system does about a fault. -/
def Dev.xCmd (d : Dev) (h : Nat) (op : XOp) (w : XFields) (flt : Option XFault) : Dev :=
  if hearthCount ≤ h || (d.hearth h).exu.pend.isSome || (d.hearth h).exu.unres then d else ((d.xIssue h op w flt).memFault h flt).spmUe h op w flt
def Dev.xResolved (d : Dev) (h : Nat) (flt : Option XFault) : Dev :=
  if (d.hearth h).exu.pend.isNone then d else (d.faultResolved h flt).memFault h flt

/-! ### Frames and DRAM (R363 to R371) -/

/-- FRAME_MOVE. -/
def Dev.frameMove (d : Dev) (u f dest : Nat) : Dev := if dest < 8 && (d.memUnit dest).state == 2 then d.moveFrame u f dest else d

/-- PATROL_SCRUB_STEP: some lines of a unit read, with the errors met at their offsets. -/
def Dev.patrol (d : Dev) (u lines : Nat) (errs : List (Nat × MemErr)) : Dev :=
  let m := d.memUnit u
  let all := m.lines
  let base := memRegs u (d.decodeLine u (m.patrol * 128))
  if m.state ≠ 2 ∨ d.regField (base + 0xC) 7 0 = 0 ∨ all = 0 then d
  else
    let d0 := d.readOver u m.patrol lines
    let mine := errs.filter (fun e => decide (((e.1 / 128) + all - m.patrol) % all < lines))
    let d1 := mine.foldl (fun (d : Dev) e => match e.2 with
      | .dramCe s k => d.dramCe u e.1 s k
      | .dramUe s => d.dramUe u e.1 s
      | _ => d) d0
    d1.memUnitUpd u (fun m => { m with patrol := (m.patrol + lines) % all })

/-- REFRESH_WINDOW_END: the activate tables of a unit clear (R368). -/
def Dev.windowEnd (d : Dev) (u : Nat) : Dev :=
  { d with mem := { d.mem with banks := (d.mem.banks.map (fun b => if b.1 / 2 ^ 16 = u then (b.1, { b.2 with acts := [] }) else b)).filter (fun b => b.2 != {}) } }

/-- ROW_IDLE_TIMEOUT: the bank of an offset closes its row (R367). -/
def Dev.rowIdle (d : Dev) (u off : Nat) : Dev := d.bankUpd (bankNo u (d.decodeLine u off)) (fun b => { b with row := none, hits := 0 })

/-- DRAM_REFRESH: the open row closes, and phase updates that wait are applied in the gap (R367, R370); `rfm` when refresh management was
issued with it. -/
def Dev.dramRefresh (d : Dev) (u off : Nat) (rfm : Bool) : Dev :=
  let a := d.decodeLine u off
  ((d.rowIdle u off).memUnitUpd u (fun m => { m with phase := false })).bump (memRegs u a + 0x2C) (b2n (rfm || bitOf (d.regN (memRegs u a + 8)) 15))

/-- ZQ_CALIBRATION and DQS_TRACKING (R370). -/
def Dev.zqRun (d : Dev) (u : Nat) : Dev := d.memUnitUpd u (fun m => if m.state = 2 then { m with zq := m.zq + 1, phase := true } else m)
def Dev.dqsRun (d : Dev) (u : Nat) : Dev := d.memUnitUpd u (fun m => if m.state = 2 then { m with dqs := m.dqs + 1, phase := true } else m)

/-! ### Scratchpad banks (R374, R376 to R378) -/

/-- Whole banks that the running and slotted charges of a hearth hold: as many as their declarations, from bank 0
(notes/assumptions/64.md). -/
def Dev.heldBanks (d : Dev) (h : Nat) : Nat :=
  let k := d.hearth h
  (((k.running.toList ++ k.slots).map (fun r => match d.query r.query with
    | some q => ceilDiv (d.stageRes q r.stage).scratch 524288
    | none => 0)).sum)

def Dev.spmStatus (d : Dev) (h : Nat) : Dev := d.setReg (0x02100204 + 0x1000 * h) (BitVec.ofNat 32 (tabGet 0 d.mem.retained h))

/-- BANK_RETENTION_ENTRY. -/
def Dev.retain (d : Dev) (h b : Nat) : Dev :=
  let m := tabGet 0 d.mem.retained h
  if hearthCount ≤ h || 12 ≤ b || bitOf m b || decide (b < d.heldBanks h) || d.regField (0x02100200 + 0x1000 * h) 15 0 == 0 then d
  else ({ d with mem := { d.mem with retained := tabSet 0 d.mem.retained h (m + 2 ^ b) } } : Dev).spmStatus h

/-- BANK_WAKE. -/
def Dev.bankWake (d : Dev) (h b : Nat) : Dev :=
  let m := tabGet 0 d.mem.retained h
  if !bitOf m b then d
  else (({ d with mem := { d.mem with retained := tabSet 0 d.mem.retained h (m - 2 ^ b) } } : Dev).spmStatus h).bump (0x02100214 + 0x1000 * h) 1

/-- Spare columns used in a bank, and SPM_REPAIR. -/
def Dev.spare (d : Dev) (h b : Nat) : Nat := tabGet 0 d.mem.spares (12 * h + b)
def Dev.spmRepair (d : Dev) (h : Nat) : Dev :=
  d.setReg (0x02100208 + 0x1000 * h) (BitVec.ofNat 32 (((List.range 12).map (fun b => d.spare h b * 4 ^ b)).sum))

end Sys2Proof.Machine
end

