-- ==== Sys2Proof/Machine/Health.lean ====
section
/-!
DEFINITION. Sys2Proof/Machine/Health.lean: quench and sparing, recovery domains of the hearths, states of stripe groups
(21_health_record.md).
-/
namespace Sys2Proof.Machine

/-! ### Domains (R533, Table 18.2) -/

/-- The state of a domain: 0 off, 1 retention or self-refresh, 2 powered and clocked. -/
def Dev.domain (d : Dev) (n : Nat) : Nat :=
  if n < 36 then
    let h := d.hearth n
    if h.quenched then 0 else if h.powered then 2 else if (h.on && d.pwr.mode == 3) || (h.on && h.parked) then 1 else 0
  else tabGet 0 d.pwr.domains n

/-- Units that failure has fenced stay off. -/
def Dev.domFenced (d : Dev) (n : Nat) : Bool :=
  if n < 36 then (d.hearth n).quenched
  else if n < 40 then d.health.unitsFenced.contains (n - 36)
  else if n < 48 then d.health.unitsFenced.contains (4 + (n - 40) / 2) || (d.memUnit (4 + (n - 40) / 2)).state == 3
  else 64 ≤ n && n < 68 && (List.range 6).all (fun i => d.health.slicesFenced.contains (6 * (n - 64) + i))

/-- The hearths that serve in Serve mode: the lowest-numbered enabled ones (R530). -/
def Dev.servers (d : Dev) (n : Nat) : List Nat := (d.pipeHearths.filter (fun h => !(d.hearth h).rx4)).take n

/-- The state Table 18.2 gives a domain in a mode. -/
def Dev.domTarget (d : Dev) (mode serve n : Nat) : Nat :=
  let work := decide (4 ≤ mode)
  if d.domFenced n || 72 ≤ n then 0
  else if n < 36 then
    let h := d.hearth n
    if mode < 3 then 0
    else if h.rx4 then 2
    else if mode = 3 then b2n h.on
    else if mode = 4 then (if (d.servers serve).contains n then 2 else 0)
    else if mode = 6 ∧ h.parked then 1
    else 2 * b2n h.on
  else if n < 40 then (if work then 2 else b2n (mode == 3))
  else if n < 48 then (if work then 2 else if mode = 3 then 1 else if mode = 1 then d.regField 0x02C10000 0 0 else 0)
  else if n = 48 then (if 2 ≤ mode then 2 else 0)
  else if n = 49 then (if 3 ≤ mode then 2 else 0)
  else if n < 59 then (if 3 ≤ mode then 2 else 0)
  else if n < 63 then
    let q := n - 59
    let en := fun (p : Nat) => decide (d.regField (0x02510000 + 0x100 * p) 1 0 < 2)
    if 3 ≤ mode && (en (2 * q) || en (2 * q + 1)) then 2 else 0
  else if n = 63 then (if 3 ≤ mode then 2 else 0)
  else if n < 68 then (if work then 2 else b2n (mode == 3))
  else if n = 68 then (if work then 2 else 0)
  else if 2 ≤ mode then 2 else 0

/-- A domain put in a state. -/
def Dev.setDomain (d : Dev) (n st : Nat) : Dev :=
  if n < 36 then d.hearthUpd n (fun h => { h with powered := st == 2 })
  else if n < 48 then d.dramDomain n st
  else { d with pwr := { d.pwr with domains := tabSet 0 d.pwr.domains n st } }

/-- The mode that the hearths are in or change to, with its count. -/
def Dev.modeAhead (d : Dev) : Nat × Nat := match d.pwr.change with | some c => (c.toMode, c.toServe) | none => (d.pwr.mode, d.pwr.serve)

/-- Hearths that have come into service get the state of the mode; those of a change under way follow it (R530, R536). -/
def Dev.tuneHearths (d : Dev) : Dev :=
  let m := d.modeAhead
  ((List.range hearthCount).filter (fun h => d.domTarget m.1 m.2 h == 2 && !d.pwr.change.any (fun c => c.units.contains h))).foldl (fun d h =>
    ({ d with pwr := { d.pwr with demand := tabSet 0 d.pwr.demand h 0 } } : Dev).setDomain h 2) d

/-! ### The RX4 window's hearth (R609, R616) -/

/-- The running command of the window ends. -/
def Dev.rx4End (d : Dev) (state legacy status : Nat) : Dev :=
  { d with rx4 := { d.rx4 with run := none, state := state, legacy := legacy, status := status } }

/-- RX4_HOLD as the window stands (Table 22.4). -/
def Dev.rx4Show (d : Dev) : Dev :=
  let r := d.rx4
  let w := (r.hearth.getD 0) + 64 * b2n r.hearth.isSome + 128 * b2n r.lock.isSome + 256 * (r.lock.getD 0) + 65536 * r.reason
  d.setReg 0x0300000C (BitVec.ofNat 32 w)

/-- The claims of the window are released and enable is clear (R608, R609); the hearth it held is in the state that the mode gives it. -/
def Dev.rx4Off (d : Dev) (reason : Nat) : Dev :=
  let d1 := d.rx4.claims.foldl (fun d n => match d.claimNum n with | some c => (d.closeRegions (.claim n)).endClaim c | none => d) d
  let d2 := match d.rx4.hearth with | some h => d1.setDomain h (d1.domTarget d1.modeAhead.1 d1.modeAhead.2 h) | none => d1
  (({ d2 with rx4 := { d2.rx4 with claims := [], hearth := none, lock := none, reason := reason } } : Dev).setReg 0x03000000 0).rx4Show

/-- A FILE_OUT before its point of no return commits nothing (R423). -/
def Dev.rx4Abandon (d : Dev) : Dev :=
  match d.store.commits.find? (fun c => (match c.use with | .rx4 _ => true | _ => false) && !(c.st == .recording || c.st == .durable)) with
  | some c => d.abandonCommit c
  | none => d

/-- The held hearth has been quenched (R616). -/
def Dev.rx4Lost (d : Dev) : Dev :=
  match d.rx4.hearth with
  | none => d
  | some h =>
    let d1 := if d.rx4.run.isSome then d.rx4Abandon.rx4End 2 5 0x5001 else d
    let d2 := match d1.claimOf 5 h with | some c => d1.endClaim c | none => d1
    match ((List.range hearthCount).reverse).find? (fun k => !(d2.hearth k).quenched && !(d2.hearth k).on && !(d2.hearth k).rx4) with
    | some k =>
      let c : Claim := { num := d2.newClaimNum, cls := 5, index := k, x := 0, holder := 2 }
      let d3 := d2.addClaim c
      let old := match d1.claimOf 5 h with | some c => c.num | none => 0
      ({ d3 with rx4 := { d3.rx4 with hearth := some k, claims := d3.rx4.claims.filter (· != old) ++ [c.num] } } : Dev).tuneHearths.rx4Show
    | none => ({ d2 with rx4 := { d2.rx4 with hearth := none } } : Dev).rx4Off 6

/-! ### Quench (R588, R589) -/

/-- Spare hearths: not enabled for pipeline work, not quenched, not held by the window. -/
def Dev.spareHearths (d : Dev) : List Nat :=
  (List.range hearthCount).filter (fun k => !(d.hearth k).on && !(d.hearth k).quenched && !(d.hearth k).rx4)
/-- The lowest-numbered spare loads bank 0 and is enabled for pipeline work (R589), up to 32 hearths (R22); it, or in Serve the next hearth in number,
takes the place of the one that left (R530, R536). -/
def Dev.wakeSpare (d : Dev) : Dev :=
  match d.spareHearths with
  | k :: _ => if 32 ≤ d.pipeHearths.length then d.tuneHearths else ((d.hearthUpd k (fun x => { x with on := true })).loadSys k d.mail.sysTables).tuneHearths
  | [] => d.tuneHearths

/-- A hearth takes no more pipeline work: its slotted charges are READY again. -/
def Dev.leaveWork (d : Dev) (h : Nat) : Dev := ((d.hearth h).slots.foldl (fun d r => d.unslot r) d).hearthUpd h (fun x => { x with on := false })

/-- A hearth is quenched. -/
def Dev.quench (d : Dev) (h : Nat) : Dev :=
  let x := d.hearth h
  if hearthCount ≤ h || x.quenched then d
  else
    let d1 := d.leaveWork h
    let d2 := d1.restart h (if x.exu.unres then 1 else 2) (d1.hearthClocks h)
    let d3 := ((d2.hearthUpd h (fun k => { k with powered := false, quenched := true, exu := k.exu.halt })).recovered 1 h).repairWritten.countRepair 0
    let d4 := if x.on then d3.wakeSpare else d3
    let d5 := if x.rx4 then d4.rx4Lost else d4
    d5.eventPf 0x0160 h d5.spareHearths.length

/-- What a fault of a hearth begins or escalates (R588, R597, R598): `d0` is the device before the command that met it. -/
def Dev.hearthFault (d d0 : Dev) (h : Nat) : Dev :=
  let x := d.hearth h
  let y := d0.hearth h
  let unres := x.exu.unres && !y.exu.unres
  let wait := x.exu.pend.isSome && x.exu.pend != y.exu.pend
  if !(unres || wait) then d
  else if d0.recovers 1 h then (d.escalate 1 h).quench h
  else if unres then (if 3 ≤ (recent d.opSec x.unresAt).length then d.quench h else d.recover 1 h)
  else match x.exu.pend with
    | some p => if p.flt.cause = 5 then d.recover 1 h else d
    | none => d

/-- COLUMN_REPAIR (R378): once no charge runs on the hearth, which until then takes no other, a spare column is programmed and the bank is
zero. -/
def Dev.columnRepair (d : Dev) (h b : Nat) : Dev :=
  if hearthCount ≤ h || 12 ≤ b || (d.hearth h).quenched then d
  else if (d.hearth h).running.isSome then d.hearthUpd h (fun x => { x with mend := (x.mend ++ [b]).eraseDups })
  else if d.spare h b < 2 then
    let d1 : Dev := { d with mem := { d.mem with spares := tabSet 0 d.mem.spares (12 * h + b) (d.spare h b + 1) } }
    (((d1.spmRepair h).recover 1 h).countRepair 2).repairWritten
  else d.quench h

/-! ### Stripe groups (R593, R594) -/

/-- The state of a group: that of its worst row. Lost strips only rise with the row but for a reinserted member's rows, so the last row
and those rows are all that can be worst. -/
def Dev.groupState (d : Dev) (g : SGroup) : Nat :=
  let rows := (g.rows - 1) :: ((d.store.rebuilds.filter (fun r => r.group == g.id)).map (·.rows)).flatten
  let n := (rows.map (d.lostStrips g.id)).foldl max 0
  if n = 0 then 0 else if n < schemeM g.scheme then 1 else if n = schemeM g.scheme then 2 else 3

/-- The extents that UNAVAIL_LIST should name: table space, group, extent. -/
def Dev.beyondList (d : Dev) : List (Nat × Nat × Nat) :=
  let ss := d.store.spaces.mergeSort (fun a b => decide (a.id ≤ b.id))
  (ss.map (fun s => (((s.extents.filter (fun x => d.beyond x.group x.row)).map (fun x => (x.num, x.group))).mergeSort (fun a b => decide (a.1 ≤ b.1))).map
    (fun p => (s.id, p.2, p.1)))).flatten

/-- GROUP_STATE and UNAVAIL_LIST brought up to date, with their events. -/
def Dev.showGroups (d : Dev) : Dev :=
  let d1 := d.store.groups.foldl (fun d g =>
    let n := d.groupState g
    if tabGet 0 d.health.groups g.id = n then d
    else ({ d with health := { d.health with groups := tabSet 0 d.health.groups g.id n } } : Dev).eventPf 0x0162 g.id n) d
  let all := d1.beyondList
  let now := all.take 4096
  let old := d1.health.unavail
  let d2 : Dev := { d1 with health := { d1.health with unavail := now, overflow := decide (4096 < all.length) } }
  d1.store.spaces.foldl (fun d s =>
    let k := fun (l : List (Nat × Nat × Nat)) => (l.filter (fun e => e.1 == s.id)).length
    if k now = k old then d
    else
      let d3 := d.eventPf 0x0163 s.id (k now)
      if s.x = 0 ∨ s.x = 513 then d3 else d3.event s.x 0x0163 s.id (k now)) d2

end Sys2Proof.Machine
end

