-- ==== Sys2Proof/Machine/MailBase.lean ====
section
/-!
DEFINITION. Sys2Proof/Machine/MailBase.lean: the answer to a mailbox request (R451, R453) and the progress of long operations (R463 to
R466).
-/
namespace Sys2Proof.Machine

/-- The response to the request that a mailbox has taken: it is written, then busy falls, then the vector goes (R451, Table 15.5). -/
def Dev.mbAnswer (d : Dev) (x status detail flags handle : Nat) (payload : Bytes) : Dev :=
  match (d.mbox x).busy with
  | none => d
  | some seq =>
    (d.mboxUpd x (fun m => { m with
      busy := none, doneSeq := seq
      resp := natLE 2 status ++ natLE 2 seq ++ natLE 2 payload.length ++ natLE 2 flags ++ natLE 4 detail ++ natLE 4 handle ++ payload })).mboxVector x
/-- An answer of SUCCESS. -/
def Dev.mbOk (d : Dev) (x : Nat) (payload : Bytes) : Dev := d.mbAnswer x 0 0 0 0 payload
/-- A status with no payload. -/
def Dev.mbFail (d : Dev) (x status : Nat) : Dev := d.mbAnswer x status 0 0 0 []
/-- A refusal under R454. -/
def Dev.mbRefuse (d : Dev) (x reason : Nat) : Dev := d.mbAnswer x 0x2001 reason 0 0 []

/-- The function index under which the events of a long operation go to PF0 and PF1 (R457). -/
def opOrphan : Nat := 4096

def Dev.longOp (d : Dev) (h : Nat) : Option LongOp := d.mail.ops.find? (fun o => o.handle == h)
def Dev.opUpd (d : Dev) (h : Nat) (f : LongOp → LongOp) : Dev :=
  { d with mail := { d.mail with ops := updWhere (fun o => o.handle == h) f d.mail.ops } }
def Dev.opEvent (d : Dev) (o : LongOp) (code data : Nat) : Dev :=
  if o.x = opOrphan then d.eventPf code o.handle data else d.event o.x code o.handle data
/-- Long operations that run. -/
def Dev.runningOps (d : Dev) : List LongOp := d.mail.ops.filter (fun o => o.state == 1)

/-- A long operation ends (R464, OP_DONE); `extra` is what its data carries in [63:32] (R596). Cancellations that waited for it are
answered. -/
def Dev.opEnd (d : Dev) (h status : Nat) (cancelled : Bool) (extra : Nat) : Dev :=
  match d.longOp h with
  | none => d
  | some o =>
    if o.state ≠ 1 then d
    else
      let d1 := d.opUpd h (fun o => { o with state := if cancelled then 3 else 2, status := status, percent := if cancelled then o.percent else 100, cancel := [] })
      let d2 := d1.opEvent o 0x0002 (status + 65536 * (if cancelled then 2 else 1) + 2 ^ 32 * extra)
      o.cancel.foldl (fun d x => d.mbFail x (if cancelled then 0 else 0x0001)) d2

/-- Steps of a long operation done; OP_PROGRESS goes at each whole percent, and once a second has passed since the last (DESIGN CHOICE,
notes/assumptions/179.md). -/
def Dev.opStep (d : Dev) (h n : Nat) : Dev :=
  match d.longOp h with
  | none => d
  | some o =>
    let k := min o.total (o.done + n)
    let p := k * 100 / max 1 o.total
    let tell := p != o.percent || decide (o.told + 1000000 ≤ d.timeUs)
    let d1 := d.opUpd h (fun o => { o with done := k, percent := p, told := if tell then d.timeUs else o.told })
    if tell then d1.opEvent o 0x0001 p else d1

/-- A RELAYOUT stops after its last committed epoch (Table 15.10). -/
def Dev.stopRelayout (d : Dev) (h : Nat) : Dev :=
  (d.store.commits.filter (fun (c : Commit) => c.use == .relayout h && (c.st == .asking || c.st == .writing || c.st == .mirrored))).foldl
    (fun (d : Dev) (c : Commit) => d.abandonCommit c) { d with mail := { d.mail with asks := d.mail.asks.filter (fun (c : Commit) => c.use != .relayout h) } }

end Sys2Proof.Machine
end

