-- ==== Sys2Proof/Machine/Durable.lean ====
section
/-!
DEFINITION. Sys2Proof/Machine/Durable.lean: the end of the commit protocol, the journal, reclamation (14_ingest_durability.md R420 to
R433), member failure and rebuild (R445 to R447).
-/
namespace Sys2Proof.Machine

/-! ### Commits that end (R422 to R426) -/

/-- A commit ends before its point of no return (R423): what it was for is told its status. -/
def Dev.failCommit (d : Dev) (c : Commit) (f : CommitFail) : Dev :=
  let d1 := d.abandonCommit c
  match c.use with
  | .ingest x q cid => (d1.dropIngest x q cid).complete x q cid { status := f.status, r0 := f.r0, detail := f.detail, reason := f.reason }
  | .store id => (d1.endQuery id { status := f.status, detail := f.detail, reason := f.reason } 1).settle id
  | .catalog x => d1.mbFail x f.status
  | .rx4 _ => d1.rx4End 2 5 f.status
  | .relayout op =>
    let gone := c.change == some .remove || c.change == some .erase
    (if gone then d1.spaceUpd c.ts (fun s => { s with deleting := false }) else d1).opEnd op f.status false 0
  | .device .. => d1
  | .partner x q cid => d1.twinSend 4 [0, c.ts, fnCode x, q, cid, 0, f.status] []

/-- A commit whose epoch is visible tells what it was for (R29, R422). -/
def Dev.endCommit (d : Dev) (c : Commit) : Dev :=
  match c.use with
  | .ingest x q cid => (d.dropIngest x q cid).complete x q cid { r0 := c.epoch, r1 := c.rows, detail := min c.slag 0xFFFFFFFF }
  | .store id => (d.queryUpd id (fun q => { q with storeEpoch := some c.epoch })).advance id
  | .catalog x => d.mbOk x (natLE 8 c.epoch)
  | .rx4 _ =>
    if d.rx4.run.any (fun r => r.commit == some c.epoch) then
      (let legacy := if d.rx4.invalid = 0 then 0 else 1
       ({ d with rx4 := { d.rx4 with epoch := c.epoch } } : Dev).rx4End 2 legacy 0)
    else d
  | .relayout _ | .device .. => d
  | .partner x q cid =>
    match d.twin.adoptedQ.find? (fun a => a.1 == x && a.2.1 == q) with
      | none => if d.twin.declared.isNone then d else { d with twin := { d.twin with outcomes := d.twin.outcomes ++ [(x, q, cid, c.epoch, c.rows, c.slag)] } }
      | some a =>
        (match d.qry.queries.find? (fun k => k.x == a.2.2.1 && k.q == a.2.2.2 && k.cid == cid) with
         | some k => (d.queryUpd k.id (fun k => { k with storeEpoch := some c.epoch })).advance k.id
         | none =>
           match d.cmd a.2.2.1 a.2.2.2 cid with
           | some k => if k.op = 2 then d.complete a.2.2.1 a.2.2.2 cid { r0 := c.epoch, r1 := c.rows, detail := min c.slag 0xFFFFFFFF }
             else { d with twin := { d.twin with outcomes := d.twin.outcomes ++ [(x, q, cid, c.epoch, c.rows, c.slag)] } }
           | none => d)

/-- Commits of a table space whose epochs C has reached, in epoch order (R64). -/
def Dev.closeSpace (d : Dev) (ts : Nat) : Dev :=
  match d.space ts with
  | none => d
  | some s =>
    let v := max s.visible s.visibleNow
    let ready := ((d.store.commits.filter (fun c => c.ts == ts && c.st == .durable && decide (c.epoch ≤ v))).mergeSort (fun a b => decide (a.epoch ≤ b.epoch)))
    let d1 := (d.spaceUpd ts (fun s => { s with visible := v })).raiseFloor ts
    let d2 : Dev := { d1 with store := { d1.store with commits := d1.store.commits.filter (fun c => !(c.ts == ts && c.st == .durable && decide (c.epoch ≤ v))) } }
    ready.foldl (fun d c => d.endCommit c) d2

/-- The transfer goes on once no commit of the table space is open: the OWNERSHIP record, then OWNERSHIP to the partner (R521 step 3). -/
def Dev.xferStep (d : Dev) : Dev :=
  match d.twin.xfer with
  | some (ts, false) =>
    if d.store.commits.any (fun c => c.ts == ts) then d
    else match d.space ts with
      | some s =>
        (({ d with twin := { d.twin with xfer := some (ts, true) } } : Dev).writeRecord s.home 7 2 ts s.lastEpoch .journal).twinSend
          13 [ts, 1 - d.twin.pos, s.reserved, s.lastEpoch] [] (.transfer ts)
      | none => { d with twin := { d.twin with xfer := none } }
  | _ => d

/-- Every table space's visible epoch brought up to date, with the completions that wait for it (DESIGN CHOICE, notes/assumptions/52.md). -/
def Dev.closeCommits (d : Dev) : Dev := (d.store.spaces.foldl (fun d s => d.closeSpace s.id) d).xferStep

/-- Whether a catalog record with an epoch between a commit's binding epoch and its own drops its table or changes its columns (R426). -/
def Dev.commitConflict (d : Dev) (c : Commit) : Bool :=
  let between := fun (e : Nat) => decide (c.bound < e) && decide (e < c.epoch)
  (c.kind == 1 || c.kind == 2) &&
  ((match d.space c.ts with
    | some s => (s.tables.filter (fun t => t.id == c.table)).any (fun t => between t.drop || t.cols.any (fun k => between k.added || between k.dropped))
    | none => true) ||
   d.store.commits.any (fun k => k.ts == c.ts && (k.st == .recording || k.st == .durable) && between k.epoch &&
     (match k.change with | some (.drop i) => i == c.table | some (.alter i a dr) => i == c.table && !(a.isEmpty && dr.isEmpty) | _ => false)))

/-- The home group of a table space. -/
def Dev.homeOf (d : Dev) (ts : Nat) : Nat := match d.space ts with | some s => s.home | none => 0

/-- The record's copies are issued when they can be placed and the ring has room (R422, R424, R431). -/
def Dev.tryRecord (d : Dev) (c : Commit) : Dev :=
  let home := d.homeOf c.ts
  match d.store.groups.find? (fun g => g.id == home) with
  | none => d.failCommit c { status := 0x5002 }
  | some g =>
    if schemeM g.scheme < g.failed.length then d.failCommit c { status := 0x5002 }
    else if d.ringFits home c.blocks then d.issueRecord c home
    else if c.waitsRing then d
    else (d.bump 0x02900014 1).commitUpd c.ts c.epoch (fun c => { c with waitsRing := true })

/-- The record is built, and while paired it goes to the partner first (R422, R501). -/
def Dev.buildRecord (d : Dev) (c : Commit) : Dev :=
  if d.lockedTs c.ts then d.failCommit c { status := 0x6003 }
  else if d.commitConflict c then d.failCommit c { status := 0x1003 }
  else
    let d1 := d.commitUpd c.ts c.epoch (fun c => { c with st := .mirrored, mirrored := d.twin.alone })
    if d.twin.alone then d1.tryRecord { c with st := .mirrored }
    else
      let w := d.commitWho c
      d1.twinSend 6 ([c.ts, c.epoch, c.kind, c.table, c.firstRow, c.rows, c.slagFirst, c.slag, b2n c.retireAll, w.1, w.2.1, w.2.2, c.writer] ++
        c.created.map (·.num) ++ c.retired) [] (.record c.ts c.epoch)

/-- COMMIT_DATA_WRITTEN: every write of data, parity and zeros has completed. The owner builds the record; another writer sends its extent
headers to the owner first (R422). -/
def Dev.dataWritten (d : Dev) (ts epoch : Nat) : Dev :=
  match d.commitOf ts epoch with
  | none => d
  | some c =>
    if c.st ≠ .writing || !c.waits.isEmpty then d
    else if d.owns ts then (d.buildRecord c).closeCommits
    else if c.mirrored then d
    else if d.commitConflict c then (d.failCommit c { status := 0x1003 }).closeCommits
    else (d.commitUpd ts epoch (fun c => { c with mirrored := true })).twinSend 5 ([ts, epoch] ++ c.created.map (·.num)) [] (.headers ts epoch)

/-- A table space leaves the catalog, and the stripe rows of its extents and directory extents are free. -/
def Dev.dropSpace (d : Dev) (ts : Nat) : Dev :=
  let s := (d.space ts).getD { id := ts, x := 0 }
  let dirs := s.dirs.map (fun f => ({ num := 0, table := f.table, col := f.col, firstRow := 0, rows := 0, create := 0, group := f.group, row := f.row } : Extent))
  let d := (s.extents ++ dirs).foldl (fun d x => d.trimRow x.group x.row) d
  { d with store := { d.store with spaces := d.store.spaces.filter (fun s => s.id != ts), groups := freeRows d.store.groups (s.extents ++ dirs) } }

/-- The pair dissolves with its last table space (R497, R576): every label has pair_id 0, written by the twin that erased. -/
def Dev.dissolve (d : Dev) (writes : Bool) : Dev :=
  if d.twin.pairId = 0 || !d.store.spaces.isEmpty then d
  else
    let ds := (d.store.drives.filter (fun p => p.2.label.any (fun l => l.pair == d.twin.pairId && l.pair != 0))).map (·.1)
    let d1 := ds.foldl (fun d i => d.writeLabel i (fun l => { l with pair := 0 })) d
    { d1 with out := if writes then d1.out else d.out, twin := { d1.twin with pairId := 0, pos := 0, state := 0 } }

/-- The partner's commit applied to this twin's view of the catalog (notes/assumptions/70.md). -/
def Dev.applyPartner (d : Dev) (c : Commit) : Dev :=
  let d0 := d.spaceUpd c.ts (fun s =>
    let last := fun (t : Nat) (n : Nat) => if t = c.table then max n (c.firstRow + c.rows) else if t = slagId c.table then max n (c.slagFirst + c.slag) else n
    { s with
      lastEpoch := max s.lastEpoch c.epoch
      nextExtent := (c.created.map (fun x => x.num + 1)).foldl max s.nextExtent
      tables := s.tables.map (fun t => { t with nextRow := last t.id t.nextRow }) })
  let d1 := d0.applyRec c
  let d2 : Dev := { d1 with
    store := { d1.store with groups := d1.store.groups.map (fun g => { g with
      used := g.used ++ ((c.created.filter (fun x => x.group == g.id && !g.used.contains x.row)).map (·.row)) }) }
    twin := { d1.twin with records := d1.twin.records.filter (fun k => !(k.ts == c.ts && k.epoch == c.epoch)) } }
  match c.change with
  | some .remove => if d2.store.commits.any (fun k => k.ts == c.ts) then d2 else d2.dropSpace c.ts
  | some .erase => if d2.store.commits.any (fun k => k.ts == c.ts) then d2 else (d2.dropSpace c.ts).dissolve false
  | _ => d2

/-- COMMIT_RECORD_DURABLE: every copy has completed, or the owner has made durable a record that this twin holds
(notes/assumptions/70.md). -/
def Dev.recordDurable (d : Dev) (ts epoch : Nat) : Dev :=
  match d.commitOf ts epoch with
  | none =>
    (match d.twin.records.find? (fun k => k.ts == ts && k.epoch == epoch) with
     | some c => if d.owns ts then d else (d.applyPartner c).raiseFloor ts
     | none => d)
  | some c =>
    let ok := if d.owns ts then c.st == .recording && c.waits.isEmpty else c.st == .mirrored
    if !ok then d
    else
      let d1 := d.applyRec c
      ((d1.commitUpd ts epoch (fun c => { c with st := .durable })).closeSpace ts).xferStep

/-- JOURNAL_CHECKPOINT (R431): the ring is half full, or 60 s have passed since the last one; records that waited for room go on. -/
def Dev.journalCheckpoint (d : Dev) (g : Nat) : Dev :=
  match d.journal g with
  | none => d
  | some j =>
    let waits := d.store.commits.filter (fun c => c.waitsRing && d.homeOf c.ts == g)
    if j.usedBlocks < 3072 ∧ d.timeUs < j.last + 60000000 ∧ waits.isEmpty then d
    else waits.foldl (fun d c => match d.commitOf c.ts c.epoch with | some k => d.tryRecord k | none => d) (d.ownWork.checkpoint g)

/-- RECLAMATION_STEP (R69, R423): retired extents at or below the floor leave the catalog and their rows are free (DESIGN CHOICE,
notes/assumptions/59.md), and the rows of abandoned commits are deallocated. -/
def Dev.reclaim (d : Dev) (ts : Nat) : Dev :=
  match d.space ts with
  | none => d
  | some s =>
    if !d.owns ts then d
    else
      let gone := s.extents.filter (fun x => x.retire != 0 && decide (x.retire ≤ s.floor))
      let d1 := d.spaceUpd ts (fun s => { s with extents := s.extents.filter (fun x => !(x.retire != 0 && decide (x.retire ≤ s.floor))) })
      ({ d1 with store := { d1.store with groups := freeRows d1.store.groups gone } } : Dev).trimRows ts

/-! ### Re-layout of extents (R67) -/

/-- The rows of an extent written anew: the same values at the same row numbers. -/
def reExtents (ts : Nat) (t : Table) (x : Extent) (epoch num : Nat) : List Extent :=
  match t.cols.find? (fun c => c.id == x.col) with
  | none => []
  | some c =>
    let vals := (x.pages.map (fun p => ((x.pageVals c.ty p.2).getD []).map (·.1))).flatten
    let pages := cutPages c.ty c.enc vals.length vals
    (colExtents ts t.id c epoch (pages.length + 1) num x.firstRow pages).map (fun y => { y with table := x.table })

/-- The extents that replace some extents of a table space. -/
def TSpace.reLaid (s : TSpace) (nums : List Nat) (e num : Nat) : List Extent :=
  (s.extents.filter (fun x => nums.contains x.num && x.retire == 0)).foldl (fun (acc : List Extent) x =>
    match s.tables.find? (fun t => t.id == x.table) with
    | some t => acc ++ reExtents s.id t x e (num + acc.length)
    | none => acc) []

/-- A re-layout of some extents commits one epoch (R67, R430); `op` is the long operation it belongs to, 0 for none. -/
def Dev.relayout (d : Dev) (ts : Nat) (nums : List Nat) (op : Nat) : Except Nat Dev :=
  match d.space ts with
  | none => .error 0x2002
  | some s =>
    let xs := s.extents.filter (fun x => nums.contains x.num && x.retire == 0)
    d.beginCommit ts (.relayout op) 4 0 s.visible 0 0 false (xs.map (·.num)) none (fun e _ num => s.reLaid nums e num) (fun _ _ _ => [])

/-- The re-layout of the extent of a stripe row alone, after an unrecovered media error (R444) or an error that a scrub found (R596). -/
def Dev.relayoutRow (d : Dev) (g row : Nat) : Dev :=
  match d.store.spaces.findSome? (fun s => (s.extents.find? (fun x => x.group == g && x.row == row && x.retire == 0)).map (fun x => (s.id, x.num))) with
  | some (ts, n) =>
    if !d.owns ts || d.store.commits.any (fun c => c.ts == ts && c.retired.contains n) then d
    else (match d.relayout ts [n] 0 with | .ok d1 => d1 | .error _ => d)
  | none => d

/-! ### Members and rebuilds (R442, R445 to R447) -/

def Dev.groupUpd (d : Dev) (g : Nat) (f : SGroup → SGroup) : Dev := { d with store := { d.store with groups := updWhere (fun q => q.id == g) f d.store.groups } }

/-- The group and position of a live member. -/
def Dev.memberAt (d : Dev) (i : Nat) : Option (Nat × Nat) :=
  d.store.groups.findSome? (fun g => ((List.range g.members.length).find? (fun p => g.members[p]? == some i && !g.failed.contains p)).map (fun p => (g.id, p)))

/-- Blocks a member of a group needs (R75). -/
def SGroup.need (g : SGroup) : Nat := 16384 + g.rows * stripBlocks g.scheme

/-- A rebuild of a position onto a drive begins (R447): the drive's label names the position, with a rebuilding mark. -/
def Dev.startRebuild (d : Dev) (g pos i : Nat) (rows : List Nat) (op : Option Nat) : Dev :=
  let d1 := ((d.dropCmds (fun c => c.use == .rebuild g pos)).driveUpd i (fun k => { k with state := 7 })).writeLabel i (fun l =>
    { l with pair := d.twin.pairId, role := 0, group := g, pos := pos, rebuilding := true })
  { d1 with store := { d1.store with rebuilds := d1.store.rebuilds.filter (fun r => !(r.group == g && r.pos == pos)) ++
      [({ group := g, pos := pos, drive := i, rows := rows, paused := d.twin.declared.isSome, op := op } : Rebuild)] } }

/-- Spares that fit a group, lowest drive index first. -/
def Dev.spareFor (d : Dev) (g : SGroup) : Option Nat :=
  ((d.store.drives.filter (fun p => p.2.state == 3 && decide (g.need ≤ p.2.blocks))).map (·.1)).head?

/-- Failed positions without a rebuild are rebuilt onto spares (R447). -/
def Dev.autoRebuild (d : Dev) (g : Nat) : Dev :=
  match d.store.groups.find? (fun q => q.id == g) with
  | none => d
  | some q => q.failed.foldl (fun d p =>
      if (d.rebuildOf g p).isSome then d
      else match d.spareFor q with | some i => d.startRebuild g p i [] none | none => d) d

/-- A commit that writes to a group beyond its parity fails (R423). -/
def Dev.failBeyond (d : Dev) (g : Nat) : Dev :=
  match d.store.groups.find? (fun q => q.id == g) with
  | none => d
  | some q =>
    if q.failed.length ≤ schemeM q.scheme then d
    else (d.store.commits.filter (fun c => (c.st == .writing || c.st == .mirrored) && (d.homeOf c.ts == g || c.created.any (fun x => x.group == g)))).foldl
      (fun d c => d.failCommit c { status := 0x5002 }) d

/-- The commands outstanding on a failed member: data writes are owed to the rebuild, a record's copy goes to the next live member (R424,
R446). -/
def Dev.orphanCmds (d : Dev) (i : Nat) : Dev :=
  let mine := d.store.dcmds.filter (fun c => c.drive == i && c.write)
  let d1 := d.dropCmds (fun c => c.drive == i && c.write)
  mine.foldl (fun d c =>
    let done := fun (d : Dev) (ts e : Nat) (new : List Nat) => d.commitUpd ts e (fun k => { k with waits := k.waits.filter (· != c.id) ++ new })
    match c.use with
    | .commitData ts e => done d ts e []
    | .commitRecord ts e =>
      let busy := (d.store.dcmds.filter (fun k => k.use == .commitRecord ts e)).map (·.drive)
      (match (d.recordDrives c.group).find? (fun k => !busy.contains k) with
       | some k => done (d.driveCmd { c with drive := k, retry := 0 }) ts e [d.store.nextCmd]
       | none => done d ts e [])
    | _ => d) d1

/-- A member fails (R445): it is never written again, its group goes on with one less, and a rebuild starts if a spare exists. -/
def Dev.memberFail (d : Dev) (i : Nat) : Dev :=
  let d0 := (d.driveUpd i (fun k => { k with state := 5, resetting := false, ps := 0, waking := false })).releaseHeld i
  match d.memberAt i with
  | none =>
    let gs := (d0.store.rebuilds.filter (fun r => r.drive == i)).map (·.group)
    let d1 : Dev := { d0.dropCmds (fun c => d0.store.rebuilds.any (fun r => r.drive == i && c.use == .rebuild r.group r.pos)) with store := { d0.store with rebuilds := d0.store.rebuilds.filter (fun r => r.drive != i) } }
    gs.foldl (fun d g => d.autoRebuild g) d1
  | some (g, p) =>
    let d1 := ((d0.groupUpd g (fun q => { q with failed := q.failed ++ [p] })).countRepair 8)
    let d2 := if d.recovers 3 g then d1.escalate 3 g else d1.recover 3 g
    ((((d2.orphanCmds i).failBeyond g).autoRebuild g).showGroups).closeCommits

/-- A position is whole again. -/
def Dev.rebuilt (d : Dev) (g pos i : Nat) : Dev :=
  let d1 := (d.groupUpd g (fun q => { q with
    members := updAt q.members pos (fun _ => i), failed := q.failed.filter (· != pos), missed := q.missed.filter (fun m => m.1 != pos) })).driveUpd i
      (fun k => { k with state := 2 })
  let d2 : Dev := { d1 with store := { d1.store with rebuilds := d1.store.rebuilds.filter (fun r => !(r.group == g && r.pos == pos)) } }
  let whole := match d2.store.groups.find? (fun q => q.id == g) with | some q => q.failed.isEmpty | none => true
  (if whole then d2.recovered 3 g else d2).showGroups

/-- The rows that a rebuild has still to write, in ascending order: free rows and spill rows are skipped. -/
def SGroup.rebuildRows (q : SGroup) (r : Rebuild) : List Nat :=
  ((q.used.filter (fun k => decide (r.next ≤ k) && (r.rows.isEmpty || r.rows.contains k))).mergeSort (fun a b => decide (a ≤ b)))

/-- The strip of a row that a rebuild regenerates: reads of k live members, and the write to the new one (R447). -/
def Dev.rebuildRow (d : Dev) (q : SGroup) (r : Rebuild) (row : Nat) : Dev :=
  let k := schemeK q.scheme
  let sb := stripBlocks q.scheme
  let from_ := ((List.range (k + schemeM q.scheme)).filterMap (fun p => if p = r.pos then none else (d.memberRead q.id p row).map (fun i => (p, i)))).take k
  let c : DCmd := { id := 0, drive := r.drive, write := true, lba := 16384 + row * sb, blocks := sb, use := .rebuild q.id r.pos, group := q.id, row := row, pos := r.pos }
  (from_.foldl (fun d p => d.driveCmd { c with drive := p.2, write := false, pos := p.1 }) d).driveCmd c

/-- A rebuild whose step in hand is done: its cursor has passed the rows of the step. -/
def Rebuild.done (r : Rebuild) : Rebuild := { r with next := match r.hand.getLast? with | some k => k + 1 | none => r.next, hand := [] }

/-- The end of a rebuild: every member's label is rewritten, and the hosts are told (R447, step 4). -/
def Dev.rebuildEnd (d : Dev) (g pos : Nat) (r : Rebuild) : Dev :=
  let d1 := d.rebuilt g pos r.drive
  let members := match d1.store.groups.find? (fun q => q.id == g) with
    | some q => (List.range q.members.length).filterMap (fun p => (d1.memberOf g p).map (fun i => (p, i)))
    | none => []
  let d2 := members.foldl (fun d p => d.writeLabel p.2 (fun l => { l with pair := d.twin.pairId, role := 0, group := g, pos := p.1, rebuilding := false })) d1
  let d3 := (d2.countRepair 9).eventPf 0x0008 g pos
  match r.op with | some h => d3.opEnd h 0 false 0 | none => d3

/-- REBUILD_STEP (R447): once the strips of the step in hand are read and written, 16 more rows are taken; after the last the rebuild ends. It
waits while a twin is declared failed (R515) and while a row it needs is beyond parity (Table 21.6). -/
def Dev.rebuildStep (d : Dev) (g pos : Nat) : Dev :=
  match d.rebuildOf g pos, d.store.groups.find? (fun q => q.id == g) with
  | some r, some q =>
    if r.paused || d.store.dcmds.any (fun c => c.use == .rebuild g pos) then d
    else
      let put := fun (d : Dev) (r : Rebuild) => ({ d with store := { d.store with rebuilds := updWhere (fun k => k.group == g && k.pos == pos) (fun _ => r) d.store.rebuilds } } : Dev)
      let d0 := put d r.done
      let d1 := match r.op with | some h => if r.hand.isEmpty then d0 else d0.opStep h r.hand.length | none => d0
      let now := (q.rebuildRows r.done).take 16
      if now.isEmpty then d1.rebuildEnd g pos r.done
      else if now.any (fun k => d.beyond g k) then d1
      else now.foldl (fun d k => d.rebuildRow q r k) (put d1 { r.done with hand := now })
  | _, _ => d

end Sys2Proof.Machine
end

