-- ==== Sys2Proof/Machine/Drives.lean ====
section
/-!
DEFINITION. Sys2Proof/Machine/Drives.lean: drive commands as they complete, fail or pass their time limits (R421, R444, R445), and drives
as they come and go (R440 to R442, R631).
-/
namespace Sys2Proof.Machine

/-! ### Reads that fail (R444) -/

/-- What follows when the last read of a READ_PAGES command has come. -/
def Dev.pagesReady (d : Dev) (x q cid : Nat) : Dev :=
  match d.host.pageJobs.find? (fun j => j.x == x && j.q == q && j.cid == cid) with
  | some j => d.pagesDone j
  | none => d

/-- Whether what a read of an extent brought passes its checks: a header under R154, a page of a query under R63 and R86, a page for
READ_PAGES under R63 alone (R405). `got` is by page slot what differs from what was written; a slot beyond parity never passes (R594). -/
def Dev.readGood (d : Dev) (c : DCmd) (got : List (Nat × Bytes)) : Bool :=
  let raw := match c.use with | .pages _ _ _ => true | _ => false
  match (d.space c.what.ts).bind (fun s => (s.extents.find? (fun x => x.num == c.what.ext)).map (fun x => (s, x))) with
  | none => true
  | some (s, x) =>
    if c.what.spill then true
    else if c.what.header then got.all (fun g => s.headGood x g.2)
    else
      let mine := (List.range (c.what.blocks / 16)).map (fun k => c.what.first / 16 + k)
      mine.all (fun k => !x.lost.contains k) && got.all (fun g => !mine.contains g.1 ||
        (if raw then decide (g.1 < x.dictPages.length) || s.pageSame x g.1 g.2 else s.pageGood x g.1 g.2))

/-- A read is delivered, with what it brought: what waited for it goes on, and a charge's next reads follow (R157). -/
def Dev.readDone (d : Dev) (c : DCmd) (got : List (Nat × Bytes)) : Dev :=
  let d1 := d.dropCmds (fun k => k.id == c.id)
  match c.use with
  | .pages x q cid =>
    let put := fun (j : PageJob) => if j.x == x && j.q == q && j.cid == cid then
      { j with pages := got.foldl (fun l g => if g.1 < j.first then l else updAt l (g.1 - j.first) (fun _ => fitTo 65536 g.2)) j.pages } else j
    ({ d1 with host := { d1.host with pageJobs := d1.host.pageJobs.map put } } : Dev).pagesReady x q cid
  | .charge id i k =>
    let r : CRef := ⟨id, i, k, .flow⟩
    let d2 := d1.chargeUpd r (fun h => { h with got := h.got ++ (if c.what.spill then [] else got.map (fun g => (c.what.ext, if c.what.header then 16 else g.1, g.2))) })
    (match d2.charge r with
     | some h => if h.state = .running then d2.issueReads r true else d2
     | none => d2)
  | _ => d1

/-- The failure of a page as the event recorder is told it (R63): the extent, and the index of the first page of the read. -/
def Dev.tellPage (d : Dev) (p : PRead) : Dev :=
  if p.blocks = 0 || p.spill then d else { d with rcd := { d.rcd with pages := d.rcd.pages ++ [(p.ts, p.ext, if p.header then 0 else p.first / 16)] } }

/-- A page that cannot be read (R63, R444 step 4): beyond parity it is STRIPE_UNAVAILABLE, otherwise PAGE_CORRUPT. -/
def Dev.pageFail (d : Dev) (c : DCmd) : Dev :=
  let st := if d.beyond c.group c.row then 0x5002 else 0x3007
  let d1 := ((d.dropCmds (fun k => k.id == c.id || k.use == .recon c.id)).tellPage c.what).readLost c
  match c.use with
  | .charge id i _ => (d1.failAt id st i).settle id
  | .spill id => (d1.failAt id st 0xFFFF).settle id
  | .pages x q cid => d1.pagesReady x q cid
  | _ => d1

/-- The range of a short read is read from k other strips of its row (R444 step 3). -/
def Dev.reconstruct (d : Dev) (c : DCmd) : Dev := match d.askStrips c with | some d1 => d1 | none => d.pageFail c

/-- A short read goes on to its next step (R444): at once, after 100 µs, by reconstruction. -/
def Dev.shortRead (d : Dev) (c : DCmd) : Dev :=
  let d1 := d.bump 0x02900008 1
  match c.use with
  | .recon n =>
    let d2 := (d1.dropCmds (fun k => k.id == c.id)).dcmdUpd n (fun k => { k with tried := k.tried })
    (match d2.dcmd n with
     | some o =>
       -- the strip that failed does not count toward the k strips
       let g := d2.store.groups.find? (fun g => g.id == o.group)
       let live := (match g with
         | some g => (List.range (schemeK g.scheme + schemeM g.scheme)).filter (fun p => p != o.pos && !o.tried.contains p && (d2.memberRead o.group p o.row).isSome)
         | none => [])
       (match live with
        | p :: _ => (match d2.memberRead o.group p o.row with
          | some dr => (d2.dcmdUpd n (fun k => { k with tried := k.tried ++ [p] })).driveCmd
              { id := 0, drive := dr, write := false, lba := o.lba, blocks := o.blocks, use := .recon n, group := o.group, row := o.row, pos := p }
          | none => d2.pageFail o)
        | [] => d2.pageFail o)
     | none => d2)
  | _ =>
    if c.retry = 0 then d1.resend c (fun k => { k with retry := 1 })
    else if c.retry = 1 then (d1.dcmdUpd c.id (fun k => { k with retry := 2, waiting := true })).delay 0 10 c.id
    else d1.reconstruct c

/-- SHORT_READ_RETRY: the 100 µs have passed, and the read is issued once more. -/
def Dev.shortReadRetry (d : Dev) (n : Nat) : Dev :=
  match d.dcmd n with
  | some c => if c.waiting then (d.undelay 0 n).resend c (fun k => { k with waiting := false }) else d
  | none => d

/-- A reconstruction whose k strips have all come delivers its range, `got` as it comes out of R76, if that passes the checks. -/
def Dev.reconDone (d : Dev) (n : Nat) (got : List (Nat × Bytes)) : Dev :=
  match d.dcmd n with
  | some c => if d.store.dcmds.any (fun k => k.use == .recon n) then d else if d.readGood c got then d.readDone c got else d.pageFail c
  | none => d

/-! ### Writes that fail (R424, R445) -/

/-- A write is on the media. -/
def Dev.writeDone (d : Dev) (c : DCmd) : Dev :=
  let d1 := d.dropCmds (fun k => k.id == c.id)
  let tick := fun (d : Dev) (ts e : Nat) => d.commitUpd ts e (fun k => { k with waits := k.waits.filter (· != c.id) })
  match c.use with
  | .commitData ts e => tick d1 ts e
  | .commitRecord ts e => tick d1 ts e
  | _ => d1

/-- A write that fails is tried twice more, and then its member fails. -/
def Dev.writeFail (d : Dev) (c : DCmd) : Dev :=
  if c.retry < 2 then (d.bump 0x02900010 1).resend c (fun k => { k with retry := k.retry + 1 })
  else d.memberFail c.drive

/-! ### Completion and time limits -/

/-- An I/O command counted in the latency histogram of its drive (Table 21.9). -/
def Dev.latency (d : Dev) (drive us : Nat) : Dev :=
  let bin := Nat.log2 (max 1 us)
  { d with rcd := { d.rcd with acc := { d.rcd.acc with
      lat := tabUpd {} d.rcd.acc.lat drive (fun a => { bins := tabUpd 0 a.bins (min bin 31) (· + 1), count := a.count + 1, sum := a.sum + us, most := max a.most us }) } } }

/-- The registers of a drive index (R448). -/
def drvReg (i : Nat) : Nat := 0x02910000 + 0x100 * i

/-- An unrecovered media error (R444, R445): it is counted, the 16th in 24 h fails the member, and the extent is laid out anew (DESIGN CHOICE, notes/assumptions/56.md). -/
def Dev.mediaError (d : Dev) (c : DCmd) : Dev :=
  let l := recent d.opSec (d.drive c.drive).media ++ [d.opSec]
  let d1 := (d.bump (drvReg c.drive + 8) 1).driveUpd c.drive (fun k => { k with media := l })
  let d2 := d1.relayoutRow c.group c.row
  if 16 ≤ l.length then d2.memberFail c.drive else d2

/-- A drive is in power state 0 again (R441). -/
def Dev.driveAwake (d : Dev) (i : Nat) : Dev := (d.driveUpd i (fun k => { k with ps := 0, waking := false })).releaseHeld i

/-- Device memory returned what a write of a commit's pages was to carry poisoned (R587): before its point of no return the commit is
abandoned. -/
def Dev.writePoisoned (d : Dev) (c : DCmd) : Dev :=
  match c.use with
  | .commitData ts e =>
    (match d.commitOf ts e with
     | some k => if k.st == .recording || k.st == .durable then d.writeFail c else d.failCommit k { status := 0x5001 }
     | none => d.writeFail c)
  | _ => d.writeFail c

/-- DRIVE_COMMAND_COMPLETE: result 0 success, 2 an unrecovered media error, 3 poisoned data of a write (R587), any other an error. What a successful read brought is checked, and
bytes that fail make it a short read (R63, R86, R154); a restore of power state 0 that fails is sent again (notes/assumptions/169.md). -/
def Dev.driveComplete (d : Dev) (n res : Nat) (got : List (Nat × Bytes)) : Dev :=
  match d.dcmd n with
  | none => d
  | some c =>
    let d1 := if c.use == .power then d else d.latency c.drive (d.timeUs - c.issued)
    match c.use with
    | .power => if res = 0 then (d1.dropCmds (fun k => k.id == n)).driveAwake c.drive else d1.resend c id
    | .gone => (d1.dropCmds (fun k => k.id == n)).driveUpd c.drive (fun k => if c.abort = 2 then { k with resetting := false } else k)
    | _ =>
      if c.write then (if res = 0 then d1.writeDone c else if res = 3 then d1.writePoisoned c else d1.writeFail c)
      else if c.retry = 3 then d
      else if res = 0 && (match c.use with | .recon _ => true | _ => d.readGood c got) then
        (match c.use with
         | .recon o => (d1.dropCmds (fun k => k.id == n)).reconDone o got
         | _ => d1.readDone c got)
      else
        let d2 := if res = 2 then d1.mediaError c else d1
        (match d2.dcmd n with | some k => d2.shortRead k | none => d2)

/-- A command that has passed its limit stays with its Abort, and its read or write goes on as a new one. -/
def Dev.expire (d : Dev) (c : DCmd) : Dev :=
  let n := d.store.nextCmd
  let moved := fun (l : List Nat) => l.map (fun k => if k = c.id then n else k)
  let d1 := d.dcmdUpd c.id (fun k => { k with use := .gone, abort := 1 })
  let d2 : Dev := { d1 with store := { d1.store with
    dcmds := updWhere (fun k => k.use == .recon c.id) (fun k => { k with use := .recon n }) d1.store.dcmds ++ [{ c with id := n }], nextCmd := n + 1
    commits := d1.store.commits.map (fun k => { k with waits := moved k.waits }) } }
  (match d2.dcmd n with
   | some k => if k.use == .power then d2.resend k id else if k.write then d2.writeFail k else d2.shortRead k
   | none => d2)

/-- DRIVE_CMD_TIMEOUT (R445): Abort is sent; the third expiry in 60 s fails the member. -/
def Dev.driveTimeout (d : Dev) (n : Nat) : Dev :=
  match d.dcmd n with
  | none => d
  | some c =>
    if c.use == .gone || c.waiting || c.held || (c.retry == 3 && !c.write) || decide (d.timeUs < c.issued + 1000 * d.cmdLimit c.use) then d
    else
      let l := ((d.drive c.drive).expiries.filter (fun t => decide (d.timeUs < t + 60000000))) ++ [d.timeUs]
      let d1 := (((d.undelay 1 n).bump (drvReg c.drive + 4) 1).driveUpd c.drive (fun k => { k with expiries := l })).send (.driveAdmin c.drive 1 n)
      let d2 := d1.expire c
      if 3 ≤ l.length then d2.memberFail c.drive else d2

/-- DRIVE_ABORT_TIMEOUT: the aborted command is still pending 1 s later, and its controller is reset. -/
def Dev.abortTimeout (d : Dev) (n : Nat) : Dev :=
  match d.dcmd n with
  | some c =>
    if c.use == .gone && c.abort == 1 then
      ((d.dcmdUpd n (fun k => { k with abort := 2 })).driveUpd c.drive (fun k => { k with resetting := true })).send (.driveAdmin c.drive 2 0)
    else d
  | none => d

/-- DRIVE_RESET_TIMEOUT: the controller has not returned in 10 s. -/
def Dev.resetTimeout (d : Dev) (i : Nat) : Dev := if (d.drive i).resetting then d.memberFail i else d

/-! ### Drives that come and go (R440 to R442, R631) -/

/-- DRIVE_INSERTION: DPRSNT# has been low for 100 ms; the slot is powered. -/
def Dev.driveInsert (d : Dev) (i : Nat) : Dev :=
  if 72 ≤ i || (d.drive i).present then d else d.driveUpd i (fun k => { k with present := true, power := true })
/-- DRIVE_REFCLK_START. -/
def Dev.driveRefclk (d : Dev) (i : Nat) : Dev := if (d.drive i).power then d.driveUpd i (fun k => { k with refclk := true }) else d
/-- DRIVE_PERST_RELEASE. -/
def Dev.drivePerst (d : Dev) (i : Nat) : Dev := if (d.drive i).refclk then d.driveUpd i (fun k => { k with perst := false, state := 1 }) else d

/-- The rows of a position that were allocated while it was away (R594). -/
def SGroup.missedRows (g : SGroup) (pos : Nat) : List Nat := (g.missed.filter (fun m => m.1 == pos)).map (·.2)

/-- DRIVE_LINK_UP (R440, R442): the requirement the drive fails (0: none), its size in blocks, its NGUID, and the label it carries. -/
def Dev.driveUp (d : Dev) (i speed width refusal blocks nguid : Nat) (label : Option Label) : Dev :=
  let k := d.drive i
  if k.perst || !k.present || k.link then d
  else
    let d1 := d.driveUpd i (fun k => { k with link := true, speed := speed, width := width, blocks := blocks, reason := refusal, label := label, nguid := nguid, expiries := [], media := [], ps := 0, waking := false })
    let st := fun (n : Nat) => d1.driveUpd i (fun k => { k with state := n })
    if refusal ≠ 0 then st 6
    else match label with
      | none => st 4
      | some l =>
        if l.pair ≠ d.twin.pairId || l.nguid ≠ nguid then st 4
        else if l.role = 1 then st 3
        else match d.store.groups.find? (fun g => g.id == l.group) with
          | none => st 4
          | some g =>
            if g.failed.contains l.pos && (d.rebuildOf l.group l.pos).isNone then
              (match g.missedRows l.pos with
               | [] => if l.rebuilding then (st 7).startRebuild l.group l.pos i [] none else (st 2).rebuilt l.group l.pos i
               | rows => (st 7).startRebuild l.group l.pos i (if l.rebuilding then [] else rows) none).showGroups
            else if !g.failed.contains l.pos && g.members[l.pos]? == some i then st 2
            else st 4

/-- DRIVE_REMOVAL (R631): the member fails and the slot is powered off. -/
def Dev.driveRemove (d : Dev) (i : Nat) : Dev :=
  if (d.drive i).present then (d.memberFail i).driveUpd i (fun _ => {}) else d

/-- The level of DATTN_i# (Table 23.5): low while the drive has failed, was refused, or is the target of a rebuild. -/
def Dev.attention (d : Dev) (i : Nat) : Bool := !((d.drive i).state == 5 || (d.drive i).state == 6 || d.store.rebuilds.any (fun r => r.drive == i))

/-- DRV_PORT_STATUS (Table 14.8). -/
def Dev.drvStatus (d : Dev) (i : Nat) : Nat :=
  let k := d.drive i
  let at_ := match d.memberAt i with
    | some p => p
    | none => (match d.store.rebuilds.find? (fun (r : Rebuild) => r.drive == i) with | some r => (r.group, r.pos) | none => (0, 0))
  k.state + 8 * k.reason + 128 * k.speed + 512 * k.width + 2048 * at_.2 + 65536 * at_.1

end Sys2Proof.Machine
end

