-- ==== Sys2Proof/Machine/Vf.lean ====
section
/-!
DEFINITION. Sys2Proof/Machine/Vf.lean: virtual functions, shares and function reset (16_virtual_functions.md).
-/
namespace Sys2Proof.Machine

/-! ### Function reset (R457, R491 to R493) -/

/-- Whether a function's reset runs. -/
def Dev.inReset (d : Dev) (x : Nat) : Bool := d.fn.resetting.any (fun r => r.1 == x)

/-- Long operations of a function that is reset (R457): a re-layout of its own table space stops, the others go on under PF0 and PF1. -/
def Dev.resetOps (d : Dev) (x : Nat) : Dev :=
  (d.runningOps.filter (fun o => o.x == x)).foldl (fun d o =>
    let own := match d.space (o.args.headD 0) with | some s => s.x == x | none => false
    if o.op = 0x33 && own then (d.stopRelayout o.handle).opEnd o.handle 0 true 0 else d.opUpd o.handle (fun o => { o with x := opOrphan })) d

/-- The function a commit is made for. -/
def Dev.commitFn (d : Dev) (c : Commit) : Option Nat :=
  match c.use with
  | .ingest y _ _ => some y
  | .store id => (d.query id).map (·.x)
  | .catalog y => some y
  | _ => none

/-- The request in progress of a function's mailbox is discarded, and what it waited for answers no one (R457); its commits past their point of no
return go on under device ownership (R492). -/
def Dev.forgetRequest (d : Dev) (x : Nat) : Dev :=
  { d with
    mail := { d.mail with
      asks := d.mail.asks.filter (fun c => c.use != .catalog x)
      parked := d.mail.parked.filter (fun p => p.1 != x)
      sysUpdate := d.mail.sysUpdate.map (fun u => if u.x = x then { u with x := opOrphan } else u)
      ops := d.mail.ops.map (fun o => { o with cancel := o.cancel.filter (· != x) }) }
    pwr := { d.pwr with change := d.pwr.change.map (fun c => if c.by_ = some x then { c with by_ := some opOrphan } else c) }
    store := { d.store with commits := d.store.commits.map (fun c =>
      if d.commitFn c == some x && (c.st == .recording || c.st == .durable) then
        (let w := d.commitWho c; { c with use := .device w.1 w.2.1 w.2.2 })
      else c) } }

/-- Steps 1 to 5 of a reset (Table 16.4): nothing more is fetched, charges are cancelled, commits before their point of no return are
abandoned, exchanges close (DEDUCED, notes/assumptions/108.md). -/
def Dev.beginReset (d : Dev) (x : Nat) : Dev :=
  if d.inReset x then d
  else
    let d0 : Dev := { d with fn := { d.fn with resetting := d.fn.resetting ++ [(x, d.timeUs)] } }
    let empty := fun (d : Dev) => d.mboxUpd x (fun m => { m with
      ready := false, session := none, busy := none, doneSeq := 0, vector := 0, err := 0, events := [], lost := 0, resp := [], held := none })
    let d1 := (empty ((empty d0).resetOps x)).forgetRequest x
    let d2 := d1.store.commits.foldl (fun d c =>
      if d.commitFn c == some x && (c.st == .asking || c.st == .writing || c.st == .mirrored) then d.abandonCommit c else d) d1
    let d3 := (d2.qry.queries.filter (fun k => k.x == x)).foldl (fun d k =>
      ((d.queryUpd k.id (fun k => { k with silent := true })).endQuery k.id { status := 0x1005 } 2).settle k.id) d2
    let d4 := (d3.qpsOf x).foldl (fun d p => p.2.cmds.foldl (fun d c =>
      if c.past then d.dropIngest x p.1 c.cid
      else if d.qry.queries.any (fun k => k.x == x && k.q == p.1 && k.cid == c.cid) then d else d.stopWork x p.1 c) d) d3
    let d5 := (d4.qpsOf x).foldl (fun d p => d.qpUpd x p.1 (fun p => { p with cmds := [], ready := [], unsignalled := 0 })) d4
    let d6 := if x = 0 ∧ (d5.rx4.hearth.isSome ∨ d5.rx4.run.isSome) then (d5.rx4Abandon).rx4Off 0 else d5
    (if x = 0 then { d6 with rx4 := { reason := d6.rx4.reason } } else d6).closeCommits

/-- FUNCTION_RESET: an FLR of a PF resets its VFs too (R493). -/
def Dev.functionReset (d : Dev) (x : Nat) : Dev :=
  if !d.fnExists x then d
  else if isVf x then d.beginReset x
  else ((List.range (tabGet 0 d.fn.numVfs (portOf x))).map (fun i => x + i + 1)).foldl (fun d y => d.beginReset y) (d.beginReset x)

/-- FUNCTION_RESET_ABANDON: 5 ms after the reset began, a charge that still runs is abandoned at its next instruction boundary. -/
def Dev.resetAbandon (d : Dev) (h clocks : Nat) : Dev :=
  match (d.hearth h).running.bind (fun r => d.query r.query) with
  | some q => if d.fn.resetting.any (fun r => r.1 == q.x && decide (r.2 + 5000 ≤ d.timeUs)) then d.cancelRunning h clocks else d
  | none => d

/-- The function is the only member of an image sharing group (R140). -/
def Dev.soleMember (d : Dev) (x key : Nat) : Bool :=
  key == 10000 + x ||
  (let g := tabGet 0 d.qry.sharing x
   g != 0 && key == 1000 * portOf x + g && !d.qry.sharing.any (fun p => p.1 != x && portOf p.1 == portOf x && p.2 == g))

/-- Its queues, MSI-X, registers and context take their reset values (Table 16.4 step 6). -/
def Dev.clearFn (d : Dev) (x : Nat) : Dev :=
  let ts := ((d.store.holds.filter (fun h => h.x == x)).map (·.ts)).eraseDups
  let qs := (d.qpsOf x).map (·.1)
  let d1 : Dev := { d with
    host := { d.host with fns := tabSet {} d.host.fns x {}, qps := d.host.qps.filter (fun p => p.1 / 8192 != x), reads := d.host.reads.filter (fun r => r.x != x) }
    store := { d.store with holds := d.store.holds.filter (fun h => h.x != x) }
    sec := { d.sec with ideStop := d.sec.ideStop.filter (fun s => s.2 != x), ideHeld := d.sec.ideHeld.filter (fun h => h.1 != x) } }
  let d2 := ts.foldl (fun d t => d.holdMoved t) (d1.emptyGroups (d.soleMember x))
  let d3 := (d2.mail.claims.filter (fun c => c.x == x && c.holder == 1)).foldl (fun d c => d.endClaim c) d2
  qs.foldl (fun d q => d.queueState x q) d3

/-- VF_RESET_DONE: the last step ends when no charge of the function runs. A VF that has been removed gives its queue grant back (R481). -/
def Dev.resetDone (d : Dev) (x : Nat) : Dev :=
  match d.fn.resetting.find? (fun r => r.1 == x) with
  | none => d
  | some (_, began) =>
    if d.qry.queries.any (fun k => k.x == x) then d
    else
      let d1 := d.clearFn x
      let d2 : Dev := { d1 with fn := { d1.fn with
        resetting := d1.fn.resetting.filter (fun r => r.1 != x)
        queues := if d1.fn.leaving.contains x then tabSet 0 d1.fn.queues x 0 else d1.fn.queues
        leaving := d1.fn.leaving.filter (· != x) } }
      let d3 := d2.mboxUpd x (fun m => { m with ready := d2.fnExists x && (d2.start.service || (d2.start.banked && x == 0)) && d2.mail.activating.isNone })
      if isVf x then d3.event (pfOf (portOf x)) 0x0110 (vfNum x) (d.timeUs - began) else d3

/-! ### SR-IOV (R481) -/

/-- VF_ENABLE: VF Enable is set, or NumVFs rises. -/
def Dev.vfEnable (d : Dev) (port n : Nat) : Dev :=
  let old := tabGet 0 d.fn.numVfs port
  if n ≤ old || 512 < n || 2 ≤ port || d.start.banked then d
  else
    let vs := (List.range n).map (fun i => pfOf port + i + 1)
    let first := vs.filter (fun x => !d.fn.seen.contains x)
    let d1 : Dev := { d with fn := { d.fn with
      numVfs := tabSet 0 d.fn.numVfs port n, seen := d.fn.seen ++ first, fnDirected := d.fn.fnDirected.filter (fun x => !first.contains x) } }
    (vs.drop old).foldl (fun d x => d.mboxUpd x (fun m => { m with ready := d.start.service && d.mail.activating.isNone && !d.inReset x })) d1

/-- VF_DISABLE: VF Enable is cleared (n = 0), or NumVFs falls; every VF removed is reset. -/
def Dev.vfDisable (d : Dev) (port n : Nat) : Dev :=
  let old := tabGet 0 d.fn.numVfs port
  if old ≤ n || 2 ≤ port then d
  else
    let gone := ((List.range old).drop n).map (fun i => pfOf port + i + 1)
    let d1 := gone.foldl (fun d x => d.beginReset x) d
    { d1 with fn := { d1.fn with numVfs := tabSet 0 d1.fn.numVfs port n, leaving := d1.fn.leaving ++ gone } }

/-! ### Shares (R483 to R490, R495) -/

/-- Pairs of a function that are not DISABLED. -/
def Dev.usedQueues (d : Dev) (x : Nat) : Nat := ((d.qpsOf x).filter (fun p => p.2.state != .disabled)).length
/-- The lowest queue count that keeps every pair of a function that is not DISABLED. -/
def Dev.leastQueues (d : Dev) (x : Nat) : Nat := (((d.qpsOf x).filter (fun p => p.2.state != .disabled)).map (fun p => p.1 + 1)).foldl max 0

/-- USE_DRIVE: MiB that a function's extents and level-4 spill hold. -/
def Dev.useDrive (d : Dev) (x : Nat) : Nat :=
  let mine := d.store.spaces.filter (fun k => k.x == x)
  (mine.map (fun k => k.extents.length)).sum +
    ((d.store.groups.map (fun g => (g.spill.filter (fun s => match d.query (s.2 - 2) with | some q => q.x == x | none => false)).length)).sum)

/-- The 64 bytes of a function's share record (Table 16.5). -/
def Dev.shareRecord (d : Dev) (x : Nat) : Bytes :=
  let s := d.share x
  natLE 4 (s.hearthWeight + 65536 * s.fabricWeight) ++ natLE 4 s.scratchKib ++ natLE 4 s.hbm ++ natLE 4 s.ddr ++ natLE 8 s.driveMib ++
    natLE 4 (if isVf x then d.grant x else d.fnQueues x) ++ natLE 4 (b2n (d.inReset x) + 2 * b2n (d.fnExists x)) ++
    natLE 4 (d.framesUsed (ctxOf x) 0) ++ natLE 4 (d.framesUsed (ctxOf x) 1) ++ natLE 8 (d.useDrive x) ++ natLE 4 (d.usedQueues x) ++ zeros 12

/-- A VF_SHARES_SET request (Table 16.3): the status and detail that refuse it, or the device with every marked field applied. -/
def Dev.sharesSet (d : Dev) (pf : Nat) (b : Bytes) : Except (Nat × Nat) Dev :=
  let f := fun (o n : Nat) => fieldAt b o n
  let t := f 0 2
  let ch := f 2 2
  let x := pf + t
  let bad : Except (Nat × Nat) Dev := .error (0x2001, 5)
  if 512 < t then bad
  else if (bitOf ch 0 && f 8 2 == 0) || (bitOf ch 6 && (f 10 2 == 0 || decide (255 < f 10 2))) || (bitOf ch 1 && decide (6144 < f 16 4)) ||
      (bitOf ch 5 && (t == 0 || decide (64 < f 12 2))) then bad
  else
    let q := f 12 2
    let old := d.grant x
    if bitOf ch 5 && decide (old < q) && decide (d.pool (portOf x) < d.granted (portOf x) + (q - old) + d.leastQueues pf) then bad
    else if bitOf ch 5 && decide (q < old) && decide (q < d.leastQueues x) then .error (0x4002, holderWord x 1)
    else
      let d1 : Dev := { d with fn := { d.fn with
        shares := tabUpd {} d.fn.shares x (fun s =>
          { hearthWeight := if bitOf ch 0 then f 8 2 else s.hearthWeight
            fabricWeight := if bitOf ch 6 then f 10 2 else s.fabricWeight
            scratchKib := if bitOf ch 1 then f 16 4 else s.scratchKib
            hbm := if bitOf ch 2 then f 20 4 else s.hbm
            ddr := if bitOf ch 3 then f 24 4 else s.ddr
            driveMib := if bitOf ch 4 then f 32 8 else s.driveMib })
        queues := if bitOf ch 5 then tabSet 0 d.fn.queues x q else d.fn.queues } }
      if bitOf ch 5 then
        let n := d1.fnQueues pf
        .ok { d1 with host := { d1.host with qps := d1.host.qps.filter (fun p =>
          !(p.1 / 8192 == x && decide (q ≤ p.1 % 8192)) && !(p.1 / 8192 == pf && decide (n ≤ p.1 % 8192))) } }
      else .ok d1

/-- Whether a new split of the pool takes no pair that a VF holds or that is not DISABLED (R485). -/
def Dev.splitOk (d : Dev) (n : Nat) : Bool :=
  decide (n ≤ 8192) && decide (d.granted 0 + d.leastQueues 0 ≤ n) && decide (d.granted 1 + d.leastQueues 513 ≤ 8192 - n)

end Sys2Proof.Machine
end

