-- ==== Sys2Proof/Machine/Twin.lean ====
section
/-!
DEFINITION. Sys2Proof/Machine/Twin.lean: pairing, the frames of the twin link, mirroring, ownership and re-sync (17_twin.md R496 to R502,
R521 to R525).
-/
namespace Sys2Proof.Machine

/-! ### What the two twins say (R496, R498) -/

/-- This twin's HELLO, with what its labels and TWIN_CTRL say. -/
def Dev.myHello (d : Dev) : THello :=
  let fw := d.mail.firmware
  { serial := Config.serial, pairId := d.twin.pairId, pos := d.twin.pos, tpMajorMin := fw.tp.1, tpMajorMax := fw.tp.2.1, tpMinor := fw.tp.2.2
    ifMinor := fw.images.1, el := fw.images.2
    hbm := Config.hbmGb
    node := d.node, alone := d.twin.alone, pairEnable := d.regField 0x02B00000 0 0 == 1, acceptJoin := d.regField 0x02B00000 1 1 == 1
    clean := (d.store.journals.filter (fun j => j.twin == d.twin.pos)).all (·.clean) }

/-- HELLO sent. -/
def Dev.sendHello (d : Dev) : Dev :=
  let h := d.myHello
  d.twinFrame 1 [h.serial, h.pairId, h.pos, h.tpMajorMin, h.tpMajorMax, h.tpMinor, h.ifMajor, h.ifMinor, h.el, h.hbm,
    match h.node with | some n => n + 65536 | none => 0] [] .none

/-- The reservation key of a twin (R498). -/
def twinKey (serial pos : Nat) : Nat :=
  let h := (keyhash64 [(.uint64, some (natLE 8 serial)), (.uint64, some (natLE 8 pos))]).toNat
  h % 2 ^ 63 + 2 ^ 63
/-- The pair_id of a new pair (Table 17.1, row 3): position 0's serial first (DESIGN CHOICE, notes/assumptions/123.md). -/
def newPairId (a b : Nat) : Nat := (keyhash64 [(.uint64, some (natLE 8 (min a b))), (.uint64, some (natLE 8 (max a b)))]).toNat

/-- The row of Table 17.1 that decides, from this twin's side; `labelled` says whether its drive labels carry a pair_id. -/
def pairRow (me it : THello) (labelled : Nat → Bool) : Nat :=
  if min me.tpMajorMax it.tpMajorMax < max me.tpMajorMin it.tpMajorMin then 1
  else if me.hbm ≠ it.hbm then 2
  else if me.pairId = 0 ∧ it.pairId = 0 then (if me.pairEnable && it.pairEnable then 3 else 4)
  else if me.pairId = it.pairId ∧ me.pos ≠ it.pos then 5
  else if me.pairId = 0 && labelled it.pairId && it.alone && it.acceptJoin then 6
  else if it.pairId = 0 && labelled me.pairId && me.alone && me.acceptJoin then 6
  else 7

/-- Drives of the pair: members and spares, by index. -/
def Dev.pairDrives (d : Dev) : List Nat := (d.store.drives.filter (fun p => p.2.present && (p.2.label.any (fun l => l.pair != 0 && l.pair == d.twin.pairId)))).map (·.1)
def Dev.labelled (d : Dev) (id : Nat) : Bool := id != 0 && d.store.drives.any (fun p => p.2.label.any (fun l => l.pair == id))

/-- The twin's key registered on every drive of the pair, with the reservation of type 3 (R498) (DEDUCED, notes/assumptions/58.md). -/
def Dev.registerKey (d : Dev) : Dev :=
  d.pairDrives.foldl (fun d i => (d.send (.driveAdmin i 4 (twinKey Config.serial d.twin.pos))).send (.driveAdmin i 5 3)) d

/-- A new pair_id and position written into every label (R497). -/
def Dev.takePair (d : Dev) (id pos : Nat) : Dev :=
  let ds := (d.store.drives.filter (fun p => p.2.present && p.2.label.isSome)).map (·.1)
  (ds.foldl (fun d i => d.writeLabel i (fun l => { l with pair := id })) ({ d with twin := { d.twin with pairId := id, pos := pos } } : Dev)).registerKey

/-! ### Re-sync (R522, Table 17.7) -/

/-- The numbers of a node table with a prefix. -/
def nodeNums (l : List (Nat × List Bytes)) : List Nat := (l.map (fun p => p.1 :: p.2.length :: p.2.map leNat)).flatten
/-- The adoption map of this twin's functions (TWIN_ADOPT). -/
def Dev.adoptMap (d : Dev) : List (Nat × Nat) := ((List.range 1026).map (fun x => (x, d.regN (0x02B10000 + 4 * x)))).filter (fun p => p.2 != 0)
def Dev.configNums (d : Dev) : List Nat :=
  (match d.node with | some n => n + 65536 | none => 0) :: b2n d.fn.directed :: d.fn.fnDirected.length :: d.fn.fnDirected ++
    nodeNums d.fab.nodes ++ (d.adoptMap.map (fun p => [p.1, p.2])).flatten

/-- CONFIG sent after a change of what it carries (Table 17.3). -/
def Dev.tellConfig (d : Dev) : Dev := d.twinSend 12 d.configNums []

/-- A step of re-sync sent: the next one goes when it has been acknowledged. -/
def Dev.sendResync (d : Dev) (step : Nat) : Dev :=
  let body := match step with
    | 1 => d.configNums
    | 2 => (d.store.spaces.map (fun s => [s.id, s.owner, s.visible, s.lastEpoch, s.reserved])).flatten
    | 3 => (d.store.holds.map (fun h => [h.ts, h.id, h.epoch])).flatten ++ (d.store.spaces.map (fun s => [s.id, d.lowHeld s.id])).flatten
    | 4 => (d.host.qps.map (fun p => [p.1 / 8192, p.1 % 8192, p.2.sqBase, p.2.cqBase, p.2.cfg, p.2.arb, p.2.md, p.2.pasid, p.2.cqHead])).flatten
    | _ => []
  let data := if step = 4 then (d.host.qps.map (fun p => (p.2.cmds.map (·.entry)).flatten)).flatten ++
    (d.qry.queries.map (fun q => (q.stages.map (fun s => ((s.charges.filterMap (·.ck)).map (·.bytes)).flatten)).flatten)).flatten else []
  ({ d with twin := { d.twin with resync := step } } : Dev).twinFrame 14 (step :: body) data (.resync step)

/-- The switch of re-sync (step 5): the pair mirrors from here on, and a twin that waited for it begins to fetch (R501, R548). -/
def Dev.pairSwitch (d : Dev) : Dev :=
  (({ d with
    twin := { d.twin with state := 3, resync := 0, declared := none, step := 0, fencedPartner := false, advanced := d.timeUs, still := [] }
    start := { d.start with noFetch := false } } : Dev).recovered 6 0).eventPf 0x0122 0 0

/-- A twin that joins, or that resumes with re-sync, waits in syncing, and the twin domain recovers until the switch (Table 21.5); `from_` says
whether it is the one that sends the steps. -/
def Dev.beginSync (d : Dev) (from_ : Bool) : Dev :=
  let d1 : Dev := ({ d with twin := { d.twin with state := 2, resync := 0 }, start := { d.start with noFetch := d.start.noFetch || (!from_ && !d.start.service) } } : Dev).recover 6 0
  if from_ then d1.sendResync 1 else d1

/-! ### Pairing (R496, Table 17.1) -/

/-- The outcome of Table 17.1 for the partner's last HELLO; row 7 in every state but DEPLOYED (R560). A pair whose link was down for less than a
declaration stays paired; a re-sync that had not reached its switch begins again (R523); after a declaration it waits for the recovery's end
(Table 21.6). -/
def Dev.pairing (d : Dev) : Dev :=
  match d.twin.partner with
  | none => d
  | some it =>
    let me := d.myHello
    let row := if d.sec.lifecycle = 3 then pairRow me it d.labelled else 7
    let minor := min me.tpMinor it.tpMinor
    let d0 := ({ d with twin := { d.twin with tpMinor := minor } } : Dev).setReg 0x02B00008 (BitVec.ofNat 32 (minor + 256 * min me.tpMajorMax it.tpMajorMax + 65536 * it.tpMinor))
    if d.twin.declared.isSome && d.recovers 6 0 && (row == 5 || row == 6) then { d0 with twin := { d0.twin with hello := true } }
    else match row with
    | 3 =>
      let pos := if me.serial < it.serial then 0 else 1
      (d0.takePair (newPairId me.serial it.serial) pos).beginSync (pos == 0)
    | 5 =>
      if d.twin.state = 3 then d0
      else if d.twin.state = 2 then d0.beginSync (d.twin.resync != 0)
      else if me.clean && it.clean then ({ d0 with twin := { d0.twin with state := 3, advanced := d0.timeUs, still := [] }, start := { d0.start with noFetch := false } } : Dev).registerKey
      else d0.registerKey.beginSync (d.twin.pos == 0)
    | 6 => if me.pairId = 0 then (d0.takePair it.pairId (1 - it.pos)).beginSync false else d0.beginSync true
    | _ =>
      let st := if d.twin.state = 4 ∨ d.twin.state = 5 ∨ d.twin.state = 6 then d.twin.state else 0
      ({ d0 with twin := { d0.twin with state := st } } : Dev).eventPf 0x0123 0 row

/-- TWIN_CTRL written (PAIR_ENABLE, ACCEPT_JOIN): the partner hears of it, and pairing is tried again where the twins are not paired. -/
def Dev.pairRetry (d : Dev) : Dev :=
  if !(d.twin.up0 || d.twin.up1) then d
  else
    let d1 := d.sendHello
    if d1.twin.state = 3 ∨ d1.twin.state = 2 then d1 else d1.pairing

/-! ### The link (R499, R500) -/

/-- A frame with valid CRCs has arrived: silence ends, and the longest one is kept (R500, TWIN_SILENCE_MAX). -/
def Dev.twinHeard (d : Dev) : Dev :=
  let gap := min 0xFFFFFFFF (d.timeUs - d.twin.lastRx)
  let d1 := if d.regN 0x02B00030 < gap then d.setReg 0x02B00030 (BitVec.ofNat 32 gap) else d
  { d1 with twin := { d1.twin with lastRx := d.timeUs, silent := false } }

/-- A frame received: it is delivered when it is next in seq order; a copy of one already stored, or one whose predecessors have not come,
is not stored (notes/assumptions/72.md). -/
def Dev.twinFrameIn (d : Dev) (t seq : Nat) (ok : Dev → Bool) (f : Dev → Dev) : Dev :=
  let d0 := d.at t
  if !(d0.twin.up0 || d0.twin.up1) then d0
  else
    let d1 := d0.twinHeard
    if seq ≠ d1.twin.rxNext then d1
    else
      let d2 : Dev := { d1 with twin := { d1.twin with rxNext := seq + 1 } }
      if ok d2 then f d2 else d2

/-- A twin that stores what its partner mirrors: paired, or syncing. -/
def Dev.stores (d : Dev) : Bool := d.twin.state == 3 || d.twin.state == 2
def Dev.anyFrame (_ : Dev) : Bool := true

/-- TWIN_HELLO (R496, R524). -/
def Dev.twinHello (d : Dev) (t seq : Nat) (h : THello) : Dev :=
  d.twinFrameIn t seq Dev.anyFrame (fun d => ({ d with twin := { d.twin with partner := some h } } : Dev).pairing)

/-- HEARTBEAT (R500). -/
def Dev.twinHeartbeat (d : Dev) (t seq : Nat) : Dev := d.twinFrameIn t seq Dev.anyFrame (fun d => d)

/-- A frame sent once more, on a group that is up. -/
def Dev.resendFrame (d : Dev) (f : TTx) : Dev :=
  let d1 := (d.undelay 4 f.seq).bump 0x02B0002C 1
  let d2 : Dev := { d1 with twin := { d1.twin with unacked := updWhere (fun k => k.seq == f.seq) (fun k => { k with sent := d.timeUs, lane := if d.twin.up0 then 0 else 1 }) d1.twin.unacked } }
  (d2.delay 4 5 f.seq).send (.twin (d2.linkFrame f.kind f.seq f.body f.data))

/-- TWIN_FRAME_RETRY (R499): an unacknowledged frame goes again after 50 µs. -/
def Dev.twinRetry (d : Dev) (t seq : Nat) : Dev :=
  let d0 := d.at t
  match d0.twin.unacked.find? (fun f => f.seq == seq) with
  | some f => if (d0.twin.up0 || d0.twin.up1) && decide (f.sent + 50 ≤ d0.timeUs) then d0.resendFrame f else d0
  | none => d0

/-- HEARTBEAT_TIMER (R500): one frame on each group that is up. -/
def Dev.heartbeats (d : Dev) (t : Nat) : Dev :=
  let d0 := d.at t
  let one := fun (d : Dev) (lane : Nat) =>
    let n := d.twin.txSeq
    let d1 := d.twinFrame 2 [d.opSec, d.twin.witSeq] [] .none
    ({ d1 with twin := { d1.twin with unacked := updWhere (fun k => k.seq == n) (fun k => { k with lane := lane }) d1.twin.unacked } } : Dev)
  let d1 := if d0.twin.up0 then one d0 0 else d0
  if d1.twin.up1 then one d1 1 else d1

/-- LINK_SILENT (R500): no valid frame for 20 ms (DEDUCED, notes/assumptions/120.md). -/
def Dev.linkSilent (d : Dev) (t : Nat) : Dev :=
  let d0 := d.at t
  let gap := d0.timeUs - d0.twin.lastRx
  if gap < 20000 then d0
  else
    let d1 := if d0.regN 0x02B00030 < gap then d0.setReg 0x02B00030 (BitVec.ofNat 32 (min 0xFFFFFFFF gap)) else d0
    { d1 with twin := { d1.twin with silent := true } }

/-- TWIN_GROUP_DOWN (R499): the group's frames go again on the other at once. -/
def Dev.twinGroupDown (d : Dev) (t g : Nat) : Dev :=
  let d0 := d.at t
  let d1 : Dev := { d0 with twin := { d0.twin with up0 := d0.twin.up0 && g != 0, up1 := d0.twin.up1 && g != 1 } }
  if d1.twin.up0 || d1.twin.up1 then (d1.twin.unacked.filter (fun f => f.lane == g)).foldl (fun d f => d.resendFrame f) d1 else d1

/-- TWIN_LINK_UP (R496): a group trains; pairing runs when the whole link was down. -/
def Dev.twinLinkUp (d : Dev) (t g : Nat) : Dev :=
  let d0 := d.at t
  let down := !(d0.twin.up0 || d0.twin.up1)
  let d1 : Dev := { d0 with twin := { d0.twin with up0 := d0.twin.up0 || g == 0, up1 := d0.twin.up1 || g == 1 } }
  if !down then d1
  else ({ d1 with twin := { d1.twin with lastRx := d1.timeUs, silent := false, state := if d1.twin.state = 0 then 1 else d1.twin.state } } : Dev).sendHello

/-! ### Ownership transfer (R521) -/

/-- The writer's twin has no allocation of its own: the owner is asked for one (R30); while the ownership moves, the commit waits. -/
def Dev.askCat (d : Dev) (c : Commit) : Dev :=
  let kept : Dev := { d with mail := { d.mail with asks := d.mail.asks ++ [c] } }
  if (match d.twin.xfer with | some p => p.1 == c.ts | none => false) then kept
  else
    let n := match d.space c.ts with | some s => (s.reLaid c.retired 0 0).length | none => 0
    let w := d.commitWho c
    kept.twinSend 3 [0, c.ts, c.table, w.1, w.2.1, w.2.2, c.kind, n, 0, 0] []

/-- A commit of a mailbox command or of a long operation (R420, R422): it begins on the owner, and elsewhere it asks the owner first. -/
def Dev.catCommit (d : Dev) (c : Commit) : Except Nat Dev :=
  match d.space c.ts with
  | none => .error 0x2002
  | some s =>
    if d.locked s then .error 0x6003
    else if d.allocates s then
      d.beginCommit c.ts c.use c.kind c.table s.visible 0 0 c.retireAll c.retired c.change (fun e _ num => s.reLaid c.retired e num) (fun _ _ _ => [])
    else .ok (d.askCat c)

/-- The commits of mailbox commands that waited are taken up again. -/
def Dev.retryAsks (d : Dev) (ts : Nat) : Dev :=
  let mine := d.mail.asks.filter (fun c => c.ts == ts)
  mine.foldl (fun d c => match d.catCommit c with
    | .ok d1 => d1
    | .error e => d.failCommit c { status := e }) ({ d with mail := { d.mail with asks := d.mail.asks.filter (fun c => c.ts != ts) } } : Dev)

/-- Commits that waited for an allocation are taken up again: INGESTs and STOREs of a table space, and those of its mailbox commands. -/
def Dev.retryCommits (d : Dev) (ts : Nat) : Dev :=
  let d1 := (d.store.ingests.filter (fun g => g.ts == ts && g.asked)).foldl (fun d g =>
    match d.ingest g.x g.q g.cid, d.openCommit g.x g.q g.cid with | some k, none => d.ingestReady { k with asked := false } | _, _ => d) d
  (d1.qry.queries.filter (fun q => q.ts == ts && q.storeAsked && q.storeEpoch.isNone && q.ending.isNone && (d1.openCommit q.x q.q q.cid).isNone)).foldl (fun d q =>
    match (List.range q.image.stages.length).find? (fun i => (q.image.stages.getD i {}).op == 0x14) with
    | some i => (d.storeReady q i).advance q.id
    | none => d) (d1.retryAsks ts)

/-- TWIN_OWN_XFER (R521): refused unless this twin owns the table space, is paired at TP 1.2 and has no transfer under way. -/
def Dev.ownXfer (d : Dev) (ts : Nat) : Dev :=
  match d.space ts with
  | some s =>
    if d.twin.alone || d.twin.tpMinor < 2 || s.owner != d.twin.pos || d.twin.xfer.isSome then d
    else (({ d with twin := { d.twin with xfer := some (ts, false) } } : Dev).setReg64 0x02B00020 (ts + 2 ^ 32)).xferStep
  | none => d

/-- The partner has the ownership (R521 step 4). -/
def Dev.xferDone (d : Dev) (ts : Nat) : Dev :=
  let d1 := (({ d with twin := { d.twin with xfer := none } } : Dev).spaceUpd ts (fun s => { s with owner := 1 - d.twin.pos })).setReg64 0x02B00020 ts
  (d1.eventPf 0x0124 ts 0).retryCommits ts

/-- OWNERSHIP (R521): this twin owns the table space, and writes its own OWNERSHIP record. -/
def Dev.ownership (d : Dev) (t seq ts reserved last : Nat) : Dev :=
  d.twinFrameIn t seq Dev.stores (fun d =>
    let d1 := d.spaceUpd ts (fun s => { s with owner := d.twin.pos, reserved := reserved + 4096, lastEpoch := max s.lastEpoch last })
    (d1.writeRecord (d1.homeOf ts) 7 2 ts last .journal).retryCommits ts)

/-! ### Allocations (R30, R193) -/

/-- The owner answers an allocation it cannot give (DEDUCED, notes/assumptions/121.md). -/
def Dev.grantFail (d : Dev) (r : AllocReq) (status : Nat) : Dev := d.twinSend 4 [0, r.ts, r.fn, r.q, r.cid, 0, status] []

/-- ALLOC_REQ, form 0: an epoch, row numbers and stripe rows for the partner's commit (R30, R64, R78). -/
def Dev.grantCommit (d : Dev) (r : AllocReq) : Dev :=
  match d.space r.ts with
  | none => d.grantFail r 0x2002
  | some s =>
    if !d.allocates s then d
    else if d.locked s then d.grantFail r 0x6003
    else match d.allocEpoch r.ts with
      | none => d.grantFail r 0x4003
      | some (e, d1) =>
        let rowOf := fun (t : Nat) => match s.tables.find? (fun x => x.id == t) with | some x => x.nextRow | none => 0
        if 4096 < r.extents || decide (2 ^ 48 < rowOf r.table + r.rows) || decide (2 ^ 48 < rowOf (slagId r.table) + r.slag) ||
            decide (2 ^ 40 < s.nextExtent + r.extents) then d.grantFail r 0x4001
        else
          let blank := (List.range r.extents).map (fun i => ({ num := s.nextExtent + i, table := r.table, col := 0, firstRow := 0, rows := 0, create := e } : Extent))
          match placeExtents d1.store.groups s.scheme blank with
          | none => d.grantFail r 0x4004
          | some (gs, placed) =>
            let c : Commit :=
              { ts := r.ts, epoch := e, use := .partner (fnOfCode r.fn) r.q r.cid, st := .asking, table := r.table, rows := r.rows, slag := r.slag, created := placed
                kind := r.kind, bound := s.visible, firstRow := rowOf r.table, slagFirst := rowOf (slagId r.table), writer := 1 - d.twin.pos, blocks := 2 + r.extents }
            let d2 := d1.spaceUpd r.ts (fun s => { s with
              nextExtent := s.nextExtent + r.extents
              tables := s.tables.map (fun t =>
                if t.id = r.table then { t with nextRow := t.nextRow + r.rows } else if t.id = slagId r.table then { t with nextRow := t.nextRow + r.slag } else t) })
            let d3 : Dev := { d2 with store := { d2.store with groups := gs, commits := d2.store.commits ++ [c] } }
            d3.twinSend 4 ([0, r.ts, r.fn, r.q, r.cid, e, 0, c.firstRow, c.slagFirst, s.nextExtent] ++ (placed.map (fun x => [x.group, x.row])).flatten) []

/-- The grantee number of a partner's query in a group's list of spill rows. -/
def partnerSpill (query : Nat) : Nat := 2 ^ 40 + query

/-- As many spill rows as the pool holds, up to n (R193). -/
def takeSome : Nat → List SGroup → Nat → Nat → List SGroup × List (Nat × Nat)
  | 0, gs, _, _ => (gs, [])
  | n + 1, gs, scheme, who =>
    match takeSpill 1 gs scheme who with
    | some (g1, r) => let y := takeSome n g1 scheme who; (y.1, r ++ y.2)
    | none => (gs, [])

/-- ALLOC_REQ (R30, R193). -/
def Dev.allocReq (d : Dev) (t seq : Nat) (r : AllocReq) : Dev :=
  d.twinFrameIn t seq Dev.stores (fun d =>
    match r.form with
    | 0 => d.grantCommit r
    | 1 =>
      (match d.space r.ts with
       | none => d
       | some s =>
         let y := takeSome r.count d.store.groups s.scheme (partnerSpill r.query)
         ({ d with store := { d.store with groups := y.1 } } : Dev).twinSend 4 ([1, r.ts, r.query] ++ (y.2.map (fun p => [p.1, p.2])).flatten) [])
    | _ => { d with store := { d.store with groups := d.store.groups.map (fun g => { g with
        spill := g.spill.filter (fun s => !r.spill.contains (g.id, s.1)) }) } })

/-- Extents given the stripe rows of a grant. -/
def placeAt (l : List Extent) (rows : List (Nat × Nat)) : List Extent :=
  (List.range l.length).filterMap (fun i => (l[i]?).map (fun x => let r := rows.getD i (0, 0); { x with group := r.1, row := r.2 }))

/-- A commit of this twin's command under the owner's grant: its extents are built and written (R422). -/
def Dev.grantedCommit (d : Dev) (g : AllocGrant) (use : CommitFor) (kind : Nat) (t : Table) (bound : Nat) (retireAll : Bool) (rows : List InRow) : Dev :=
  let xs := goodExtents g.ts t bound rows g.epoch g.first g.extent
  let ys := badExtents g.ts t bound rows g.epoch g.slagFirst (g.extent + xs.length)
  let placed := placeAt (xs ++ ys) g.rows
  let n := rowSplit rows
  let scheme := match d.space g.ts with | some s => s.scheme | none => 1
  let c : Commit := { ts := g.ts, epoch := g.epoch, use := use, table := t.id, rows := n.1.length, slag := n.2, created := placed, retireAll := retireAll, kind := kind
                      bound := bound, firstRow := g.first, slagFirst := g.slagFirst, writer := d.twin.pos, blocks := 2 + placed.length }
  let d1 : Dev := { d with store := { d.store with
    commits := d.store.commits ++ [c]
    groups := d.store.groups.map (fun q => { q with used := q.used ++ (g.rows.filter (fun r => r.1 == q.id && !q.used.contains r.2)).map (·.2) }) } }
  let n0 := d1.store.nextCmd
  let d2 := placed.foldl (fun d x => d.writeExtent scheme g.ts g.epoch x) d1
  d2.commitUpd g.ts g.epoch (fun c => { c with waits := (List.range (d2.store.nextCmd - n0)).map (n0 + ·) })

/-- The commit under way of one of this twin's commands is given up without a record. -/
def Dev.dropOpen (d : Dev) (x q cid : Nat) : Dev := match d.openCommit x q cid with | some c => d.abandonCommit c | none => d

/-- An allocation for a commit of a mailbox command or a long operation. -/
def Dev.grantCat (d : Dev) (g : AllocGrant) : Dev :=
  match d.mail.asks.find? (fun c => c.ts == g.ts && (d.commitWho c).2.1 == g.q && (d.commitWho c).2.2 == g.cid && (d.commitWho c).1 == g.fn), d.space g.ts with
  | some c, some s =>
    let d0 : Dev := { d with mail := { d.mail with asks := d.mail.asks.filter (fun k => k != c) } }
    if g.epoch = 0 then d0.failCommit c { status := g.status }
    else
      let placed := placeAt (s.reLaid c.retired g.epoch g.extent) g.rows
      let scheme := match c.change with | some (.rehome sc _) => sc | _ => s.scheme
      let k : Commit := { c with epoch := g.epoch, st := .writing, created := placed, bound := s.visible, firstRow := g.first, slagFirst := g.slagFirst
                                 writer := d.twin.pos, blocks := 2 + placed.length + ceilDiv c.retired.length 256 }
      let d1 : Dev := { d0 with store := { d0.store with
        commits := d0.store.commits ++ [k]
        groups := d0.store.groups.map (fun q => { q with used := q.used ++ (g.rows.filter (fun r => r.1 == q.id && !q.used.contains r.2)).map (·.2) }) } }
      let n0 := d1.store.nextCmd
      let d2 := placed.foldl (fun d x => d.writeExtent scheme g.ts g.epoch x) d1
      d2.commitUpd g.ts g.epoch (fun k => { k with waits := (List.range (d2.store.nextCmd - n0)).map (n0 + ·) })
  | _, _ => d

/-- ALLOC_GRANT (R30, R193). -/
def Dev.allocGrant (d : Dev) (t seq : Nat) (g : AllocGrant) : Dev :=
  d.twinFrameIn t seq Dev.stores (fun d =>
    let x := fnOfCode g.fn
    if g.form = 1 then
      match d.query g.query with
      | none => d
      | some q =>
        let d0 := d.queryUpd q.id (fun q => { q with granted := q.granted ++ g.rows, spillAsked := false })
        let d1 : Dev := { d0 with store := { d0.store with groups := d0.store.groups.map (fun k => { k with
          spill := k.spill ++ ((g.rows.filter (fun r => r.1 == k.id && !k.spill.any (fun s => s.1 == r.2))).map (fun r => (r.2, q.id + 2))) }) } }
        if g.rows.isEmpty then
          (d1.failAt q.id 0x4007 (((q.spills.find? (fun s => s.rows.isEmpty)).map (·.stage)).getD 0)).advance q.id
        else (d1.spillRun q.id (q.spills.length + 1)).advance q.id
    else match d.ingest x g.q g.cid, d.qry.queries.find? (fun q => q.x == x && q.q == g.q && q.cid == g.cid) with
      | some k, _ =>
        if g.epoch = 0 then ((d.dropOpen x g.q g.cid).dropIngest x g.q g.cid).failCmd x g.q g.cid g.status
        else (match d.ingestRows k with
          | .ok (_, tb, rows) => d.grantedCommit g (.ingest x g.q g.cid) 1 tb k.bind false rows
          | .error _ => d)
      | none, some q =>
        if g.epoch = 0 then ((d.dropOpen x g.q g.cid).endQuery q.id { status := g.status } 1).settle q.id
        else (match (List.range q.image.stages.length).find? (fun i => (q.image.stages.getD i {}).op == 0x14) with
          | some i => (match d.storeRowsOf q i with
            | some (_, tb, replace, _, rows) => d.grantedCommit g (.store q.id) 2 tb q.epoch replace rows
            | none => d)
          | none => d)
      | none, none => d.grantCat g)

/-- EXTENT_HEADERS (R422): the writer's extents are on the drives, and the owner builds the record. -/
def Dev.extentHeaders (d : Dev) (t seq : Nat) (c : Commit) : Dev :=
  d.twinFrameIn t seq Dev.stores (fun d =>
    match d.commitOf c.ts c.epoch with
    | some k =>
      if k.st ≠ .asking then d
      else
        let k1 := { k with created := c.created, retired := c.retired, retireAll := c.retireAll, change := c.change, bound := c.bound, blocks := 2 + c.created.length + ceilDiv c.retired.length 256 }
        ((d.commitUpd c.ts c.epoch (fun _ => k1)).buildRecord k1).closeCommits
    | none => d)

/-! ### The partner's commands (R502) -/

def Dev.pcmd (d : Dev) (x q cid : Nat) : Option PCmd := d.twin.cmds.find? (fun c => c.x == x && c.q == q && c.cid == cid)
def Dev.pcmdUpd (d : Dev) (x q cid : Nat) (f : PCmd → PCmd) : Dev :=
  { d with twin := { d.twin with cmds := updWhere (fun c => c.x == x && c.q == q && c.cid == cid) f d.twin.cmds } }

/-- What the partner tells of the catalog without an epoch (notes/assumptions/90.md). -/
def Dev.heardCat (d : Dev) (ts : Nat) (ch : CatChange) : Dev :=
  match ch with
  | .space s =>
    if (d.space s.id).isSome then (d.spaceUpd s.id (fun k => { k with retain := s.retain })).holdMoved s.id
    else { d with store := { d.store with spaces := d.store.spaces ++ [s], lastTs := max d.store.lastTs s.id } }
  | .group g => { d with store := { d.store with groups := d.store.groups.filter (fun k => k.id != g.id) ++ [g] } }
  | .check id im => d.spaceUpd ts (fun s => { s with tables := applyChange 0 s.tables (.check id im) })
  | _ => d

/-- RECORD (R422, R501, R502): the record of a commit of this twin's own command lets it pass its point of no return; one of the partner's is
kept. -/
def Dev.twinRecord (d : Dev) (t seq : Nat) (c : Commit) : Dev :=
  d.twinFrameIn t seq Dev.stores (fun d =>
    if c.epoch = 0 then (match c.change with | some ch => d.heardCat c.ts ch | none => d) else
    match d.commitOf c.ts c.epoch with
    | some k =>
      let d1 := d.commitUpd c.ts c.epoch (fun k => { k with st := .mirrored })
      (match k.use with
       | .ingest x q cid => d1.cmdUpd x q cid (fun k => { k with past := true })
       | .store id => (match d1.query id with | some q => d1.cmdUpd q.x q.q q.cid (fun k => { k with past := true }) | none => d1)
       | _ => d1)
    | none => { d with twin := { d.twin with records := d.twin.records.filter (fun k => !(k.ts == c.ts && k.epoch == c.epoch)) ++ [c] } })

/-- CHECKPOINT (R502): the latest of each charge is kept with its command. -/
def Dev.twinCheckpoint (d : Dev) (t seq : Nat) (m : CkptMsg) : Dev :=
  d.twinFrameIn t seq Dev.stores (fun d => d.pcmdUpd m.x m.q m.cid (fun c =>
    let r := c.resume.getD {}
    let keep := r.ckpts.filter (fun k => !(k.1 == m.stage && k.2.1 == m.idx))
    { c with resume := some { r with
      epoch := some m.epoch, autonomous := some m.autonomous, digest := some m.digest, paramHash := some m.paramHash, produced := m.produced, clock := some m.clock
      ckpts := if m.gather then r.ckpts else keep ++ [(m.stage, m.idx, m.ck)] } }))

/-- CMD_START (R502). -/
def Dev.cmdStart (d : Dev) (t seq x q idx : Nat) (entry : Bytes) : Dev :=
  d.twinFrameIn t seq Dev.stores (fun d =>
    { d with twin := { d.twin with cmds := d.twin.cmds ++ [{ x := x, q := q, idx := idx, entry := entry }] } })

/-- CMD_DONE (R501, R502): up to 64 completions; the commands leave the table. A commit that the owner had open for one is given up. -/
def Dev.cmdDone (d : Dev) (t seq : Nat) (l : List PDone) : Dev :=
  d.twinFrameIn t seq Dev.stores (fun d =>
    l.foldl (fun d c =>
      let cid := fieldAt c.entry 0 2
      let d1 : Dev := { d with twin := { d.twin with
        cmds := d.twin.cmds.filter (fun k => !(k.x == c.x && k.q == c.q && k.cid == cid)), dones := d.twin.dones ++ [c] } }
      match d1.store.commits.find? (fun k => k.use == .partner c.x c.q cid && (k.st == .asking || k.st == .writing)) with
      | some k => ((d1.abandonCommit k).closeSpace k.ts).xferStep
      | none => d1) d)

/-- QUEUE_STATE (R502, Table 17.3): a queue's registers; a queue that is DISABLED has no commands and no completions. -/
def Dev.queueMirror (d : Dev) (t seq x q : Nat) (p : Qp) : Dev :=
  d.twinFrameIn t seq Dev.stores (fun d =>
    let off := p.state == .disabled
    let here := fun (a b : Nat) => a == x && b == q
    let m := 2 * p.cqN
    { d with twin := { d.twin with
      queues := tabSet {} d.twin.queues (qpKey x q) p
      cmds := if off then d.twin.cmds.filter (fun k => !here k.x k.q) else d.twin.cmds
      dones := d.twin.dones.filter (fun k => !here k.x k.q || (!off && decide ((k.cq + m - p.cqHead) % m < p.cqN))) } })

/-- HOLD (R68, R501): a SNAPSHOT hold taken or released, and the lowest epoch the partner's readers hold; hold 0 is the report alone. -/
def Dev.twinHold (d : Dev) (t seq : Nat) (h : Hold) (take : Bool) (low q cid : Nat) : Dev :=
  d.twinFrameIn t seq Dev.stores (fun d =>
    let rest := d.twin.holds.filter (fun k => k.id != h.id)
    let d1 : Dev := if h.id = 0 then d else { d with twin := { d.twin with holds := if take then rest ++ [h] else rest } }
    let d2 := if h.id = 0 then d1 else d1.pcmdUpd h.x q cid (fun c => { c with hold := some (if take then (h.epoch, h.id) else (0, 0)) })
    (d2.spaceUpd h.ts (fun s => { s with partnerLow := if low = ones64 then none else some low })).raiseFloor h.ts)

/-- CONFIG (R509). -/
def Dev.twinConfig (d : Dev) (t seq : Nat) (c : TConfig) : Dev :=
  d.twinFrameIn t seq Dev.stores (fun d => { d with twin := { d.twin with config := c } })

/-- RESYNC (R522, Table 17.7): a joining twin takes one step; after the last it is paired. -/
def Dev.twinResync (d : Dev) (t seq : Nat) (r : TResync) : Dev :=
  d.twinFrameIn t seq (fun d => d.twin.state == 2) (fun d =>
    match r.step with
    | 1 => { d with twin := { d.twin with config := r.config } }
    | 2 => { d with store := { d.store with spaces := r.spaces } }
    | 3 =>
      let d1 : Dev := { d with twin := { d.twin with holds := r.holds } }
      r.lows.foldl (fun d p => d.spaceUpd p.1 (fun s => { s with partnerLow := if p.2 = ones64 then none else some p.2 })) d1
    | 4 => { d with twin := { d.twin with queues := r.queues, cmds := r.cmds, dones := [] } }
    | _ => d.pairSwitch)

/-! ### Acknowledgements (R499, R501, Table 17.3) -/

/-- What waited for a frame happens. -/
def Dev.twinAct (d : Dev) (a : TAct) : Dev :=
  match a with
  | .none => d
  | .charge r sent => (d.holdCharge r 1 (d.timeUs - sent)).advance r.query
  | .compl x q cid => d.qpUpd x q (fun p =>
      { p with ready := match p.ready.findIdx? (fun c => c.cid == cid && !c.acked) with | some i => updAt p.ready i (fun c => { c with acked := true }) | none => p.ready })
  | .record ts epoch =>
    (match d.commitOf ts epoch with
     | some c => ((d.commitUpd ts epoch (fun c => { c with mirrored := true })).tryRecord { c with mirrored := true }).closeCommits
     | none => d)
  | .headers _ _ => d
  | .hold x q cid => d.snapshotDone x q cid
  | .epoch x q cid => d.epochHeld x q cid
  | .transfer ts => d.xferDone ts
  | .resync step => if d.twin.resync ≠ step then d else if step < 5 then d.sendResync (step + 1) else d.pairSwitch

/-- TWIN_ACK (R499): every frame below the partner's ack has been stored. -/
def Dev.twinAck (d : Dev) (t ack : Nat) : Dev :=
  let d0 := d.at t
  if !(d0.twin.up0 || d0.twin.up1) then d0
  else
    let done := d0.twin.unacked.filter (fun f => decide (f.seq < ack))
    let d1 : Dev := { d0.twinHeard with twin := { d0.twinHeard.twin with unacked := d0.twin.unacked.filter (fun f => decide (ack ≤ f.seq)) } }
    let d2 := done.foldl (fun d f => d.undelay 4 f.seq) d1
    (done.foldl (fun d f => d.twinAct f.act) d2).xferStep

end Sys2Proof.Machine
end

