-- ==== Sys2Proof/Machine/Failover.lean ====
section
/-!
DEFINITION. Sys2Proof/Machine/Failover.lean: the witness, declaring failure, fencing, adoption and resumption (17_twin.md R503 to R520).
-/
namespace Sys2Proof.Machine

/-! ### The witness (R503, R504) -/

/-- The witness set (R503): the three live members of lowest drive index. -/
def Dev.witnessSet (d : Dev) : List Nat :=
  (((d.store.drives.filter (fun p => (d.memberAt p.1).isSome && p.2.present)).map (·.1)).mergeSort (fun a b => decide (a ≤ b))).take 3

/-- The witness block as the twin writes it now (Table 17.4). -/
def Dev.witnessBlock (d : Dev) (stood alone fenced : Bool) : Bytes :=
  let b := natLE 4 0x51E90A11 ++ natLE 1 1 ++ natLE 1 d.twin.pos ++
    natLE 2 (b2n d.twin.silent + 2 * b2n stood + 4 * b2n alone + 8 * b2n fenced) ++
    natLE 8 d.twin.pairId ++ natLE 8 d.twin.witSeq ++ natLE 8 Config.serial ++ natLE 8 (twinKey Config.serial d.twin.pos) ++ natLE 8 (d.opSec % 2 ^ 40) ++
    natLE 4 d.cycles ++ natLE 1 d.mail.firmware.tp.2.1 ++ natLE 1 d.mail.firmware.tp.2.2 ++ natLE 2 (d.node.getD 0) ++ natLE 8 d.twin.seen ++ zeros 4028
  b ++ natLE 4 (crc32c b).toNat

/-- One write of the witness, with FUA, to each drive of the set; witness_seq rises by 1. -/
def Dev.writeWitness (d : Dev) (stood : Bool) : Dev :=
  let d1 : Dev := { d with twin := { d.twin with witSeq := d.twin.witSeq + 1 } }
  d1.witnessSet.foldl (fun d i => d.send (.driveBlock i (16 + d.twin.pos) (d1.witnessBlock stood d1.twin.alone d1.twin.fencedPartner))) d1

/-- WITNESS_WRITE (R503): a twin of a pair that has not stood down or been fenced. -/
def Dev.witnessWrite (d : Dev) (t : Nat) : Dev :=
  let d0 := d.at t
  if d0.twin.pairId = 0 || d0.twin.stopped then d0 else d0.writeWitness false

/-- Whether a block is a valid witness of the partner (R504). -/
def witnessOk (b : Bytes) (pos pair : Nat) : Bool :=
  b.length == 4096 && fieldAt b 0 4 == 0x51E90A11 && fieldAt b 4 1 == 1 && fieldAt b 5 1 == pos && fieldAt b 8 8 == pair &&
    fieldAt b 0xFFC 4 == (crc32c (b.take 0xFFC)).toNat

/-- Commits before their point of no return are given up (R506 step 3). -/
def Dev.abandonOpen (d : Dev) : Dev :=
  (d.store.commits.filter (fun c => c.st == .asking || c.st == .writing || c.st == .mirrored)).foldl (fun d c => d.abandonCommit c) d

/-- A twin stands down (R506), or stops because it has been fenced (R508). -/
def Dev.standDown (d : Dev) (fenced : Bool) : Dev :=
  let d1 := d.writeWitness true
  ({ d1 with twin := { d1.twin with state := if fenced then 6 else 5, stopped := true } } : Dev).abandonOpen

/-- WITNESS_READ (R504, R508): the block read from a drive of the set, none for a read that failed; `registered` is whether the twin's own
key is still registered there. -/
def Dev.witnessRead (d : Dev) (t drive : Nat) (block : Option Bytes) (registered : Bool) : Dev :=
  let d0 := d.at t
  if d0.twin.pairId = 0 || d0.twin.stopped || !d0.witnessSet.contains drive then d0
  else match block with
    | none => d0
    | some b =>
      if !witnessOk b (1 - d0.twin.pos) d0.twin.pairId then d0
      else if bitOf (fieldAt b 6 2) 3 && !registered then d0.standDown true
      else
        let s := fieldAt b 0x10 8
        let reads := (d0.twin.reads.filter (fun r => r.1 != drive)) ++ [(drive, d0.timeUs)]
        if d0.twin.seen < s then { d0 with twin := { d0.twin with seen := s, advanced := d0.timeUs, still := [], reads := reads } }
        else { d0 with twin := { d0.twin with still := if d0.twin.still.contains drive then d0.twin.still else d0.twin.still ++ [drive], reads := reads } }

/-! ### Declaring failure (R505 to R508) -/

/-- Whether a twin may declare its partner failed (R505). -/
def Dev.mayDeclare (d : Dev) : Bool :=
  d.twin.state == 3 && decide (d.twin.lastRx + 20000 ≤ d.timeUs) && decide (d.twin.advanced + 50000 ≤ d.timeUs) &&
    decide (2 ≤ (d.twin.still.filter (fun i => d.witnessSet.contains i)).length)

/-- Rebuilds pause, or go on (R515). -/
def Dev.pauseRebuilds (d : Dev) (p : Bool) : Dev :=
  { d with store := { d.store with rebuilds := d.store.rebuilds.map (fun r => { r with paused := p }) } }

/-- The survivor: every drive is fenced, arbiter first, and everything that waited for the partner goes on as for a twin alone (R497, R501,
R507). -/
def Dev.survive (d : Dev) : Dev :=
  let theirs := match d.twin.partner with | some h => twinKey h.serial h.pos | none => 0
  let set := d.witnessSet
  let order := set.take 1 ++ (d.pairDrives.mergeSort (fun a b => decide (a ≤ b))).filter (fun i => !(set.take 1).contains i)
  let d1 := order.foldl (fun d i => d.send (.driveAdmin i 7 theirs)) d
  let waits := d1.twin.unacked
  let d2 := waits.foldl (fun d f => d.undelay 4 f.seq) d1
  let d3 : Dev := { d2 with twin := { d2.twin with
    state := 4, unacked := [], fencedPartner := true, declared := some d.opSec, declaredUs := d.timeUs, fencedUs := d.timeUs, step := 1
    xfer := none, resync := 0, hello := false, resubmitted := 0, resumed := 0, queuesTaken := 0, outcomes := [] } }
  let d4 := ((((d3.bump 0x02B00028 1).countRepair 11).pauseRebuilds true).recover 6 0).writeWitness false
  waits.foldl (fun d f => match f.act with | .transfer _ => d | .resync _ => d | a => d.twinAct a) d4

/-- DECLARE_FAILED (R505, R507): `won` is whether the acquire on the arbiter succeeded. -/
def Dev.declareFailed (d : Dev) (t : Nat) (won : Bool) : Dev :=
  let d0 := d.at t
  if !d0.mayDeclare then d0
  else if won then d0.survive
  else (d0.bump 0x02B00028 1).standDown false

/-- STAND_DOWN (R506): a twin in position 1 with a silent link, whose partner's witness advanced in the last 20 ms or which could read
fewer than two witness drives in that time. -/
def Dev.standDownCmd (d : Dev) (t : Nat) : Dev :=
  let d0 := d.at t
  let good := (d0.twin.reads.filter (fun r => decide (d0.timeUs ≤ r.2 + 20000))).length
  if d0.twin.state = 3 && d0.twin.pos == 1 && !d0.twin.stopped && decide (d0.twin.lastRx + 20000 ≤ d0.timeUs) &&
      (decide (d0.timeUs ≤ d0.twin.advanced + 20000) || decide (good < 2)) then d0.standDown false
  else d0

/-- RESERVATION_CONFLICT (R508): a write met a conflict; the twin has been fenced. -/
def Dev.reservationConflict (d : Dev) (t : Nat) : Dev :=
  let d0 := d.at t
  if d0.twin.pairId = 0 || d0.twin.state == 6 then d0 else d0.standDown true

/-! ### Replay (R514, R515) -/

/-- One record that the survivor holds: applied where a copy is valid, else written again as an ADOPTED_COMMIT. -/
def Dev.adoptRecord (d : Dev) (c : Commit) (valid : Bool) : Dev :=
  let home := d.homeOf c.ts
  let d0 : Dev := { d with
    store := { d.store with commits := d.store.commits.filter (fun k => !(k.ts == c.ts && k.epoch == c.epoch)) }
    twin := { d.twin with records := d.twin.records.filter (fun k => !(k.ts == c.ts && k.epoch == c.epoch)) } }
  if valid then
    let d1 := d0.applyPartner c
    { d1 with store := { d1.store with commits := d1.store.commits ++ [{ c with st := .durable, waits := [] }] } }
  else
    let d1 : Dev := { d0 with store := { d0.store with
      commits := d0.store.commits ++ [{ c with st := .recording, mirrored := true }]
      groups := d0.store.groups.map (fun g => { g with
        used := g.used ++ ((c.created.filter (fun x => x.group == g.id && !g.used.contains x.row)).map (·.row)) }) } }
    let d2 := if d1.ringFits home c.blocks then d1 else (d1.bump 0x02900014 1).checkpoint home
    let n0 := d2.store.nextCmd
    let d3 := d2.writeRecord home 8 c.blocks c.ts c.epoch (.commitRecord c.ts c.epoch)
    d3.commitUpd c.ts c.epoch (fun k => { k with waits := (List.range (d3.store.nextCmd - n0)).map (n0 + ·) })

/-- FAILOVER_REPLAY (R193, R514): the failed twin's spill rows are freed; `valid` are the epochs whose records are valid on a copy in the failed twin's rings, `reserves` the highest
reserve found by table space. -/
def Dev.failoverReplay (d : Dev) (t : Nat) (valid reserves : List (Nat × Nat)) : Dev :=
  let d0 := d.at t
  if d0.twin.state ≠ 4 || d0.twin.step ≠ 1 then d0
  else
    let taken := (d0.store.spaces.filter (fun s => s.owner != d0.twin.pos)).map (·.id)
    let mine := d0.store.commits.filter (fun c => taken.contains c.ts)
    let d1 := (mine.filter (fun c => c.st == .asking || c.st == .writing)).foldl (fun d c => d.abandonCommit c) d0
    let held := d1.twin.records ++ mine.filter (fun c => c.st == .mirrored)
    let own := d0.twin.pos
    let d2 := taken.foldl (fun d ts =>
      let r := max (match reserves.find? (fun p => p.1 == ts) with | some p => p.2 | none => 0) (match d.space ts with | some s => s.reserved | none => 0)
      let open_ := (held.filter (fun c => c.ts == ts && !valid.contains (c.ts, c.epoch))).map (·.epoch)
      (d.spaceUpd ts (fun s => { s with owner := own, reserved := r + 4096, lastEpoch := max r s.lastEpoch, open_ := open_ })).writeRecord (d.homeOf ts) 7 2 ts r .journal) d1
    let d3 := held.foldl (fun d c => d.adoptRecord c (valid.contains (c.ts, c.epoch))) d2
    let d4 : Dev := { d3 with
      store := { d3.store with holds := d3.store.holds ++ d3.twin.holds }
      twin := { d3.twin with holds := [], step := 2 } }
    let d5 : Dev := { d4 with store := { d4.store with
      groups := d4.store.groups.map (fun g => { g with spill := g.spill.filter (fun s => decide (s.2 < partnerSpill 0)) }) } }
    taken.foldl (fun d ts => d.retryCommits ts) d5.closeCommits

/-! ### Queue adoption (R509 to R513, R515, R516) -/

/-- The standby function and first standby queue of a function of the failed twin (TWIN_ADOPT); none when its mapping is not valid. -/
def Dev.standby (d : Dev) (x : Nat) : Option (Nat × Nat) :=
  let w := tabGet 0 d.twin.config.adopt x
  let sx := (if bitOf w 10 then 513 else 0) + w % 1024
  let base := bitsOf w 23 11
  let n := ((d.twin.queues.filter (fun p => p.1 / 8192 == x)).map (fun p => p.1 % 8192 + 1)).foldl max 0
  if bitOf w 31 && d.fnExists sx && decide (base + n ≤ d.fnQueues sx) then some (sx, base) else none

/-- The index that lies furthest beyond a point on a ring of m indices. -/
def furthest (m base : Nat) (l : List Nat) : Option Nat :=
  l.foldl (fun (b : Option Nat) i => match b with
    | none => some i
    | some k => if (k + m - base) % m < (i + m - base) % m then some i else some k) none

/-- The data pieces of an adopted command, its fragment tables read again. -/
def adoptedPieces (e : Bytes) (frags : List (Option Bytes)) : List (Nat × Nat) :=
  if bitOf (fieldAt e 4 2) 0 then (match walkFrags 257 frags 1 (fieldAt e 0x10 8) (fieldAt e 6 2) with | .ok l => l | .error _ => [])
  else if fieldAt e 0x18 8 = 0 then [] else [(fieldAt e 0x10 8, fieldAt e 0x18 8)]

/-- The outcome of Table 17.6 for one adopted command that can be told at once: a SNAPSHOT whose HOLD is held completes; an INGEST or a query
whose RECORD is held waits for its commit (DEDUCED, notes/assumptions/122.md). -/
def Dev.adoptCmd (d : Dev) (sx sq : Nat) (c : PCmd) : Dev :=
  let commit := d.store.commits.any (fun k => k.use == .partner c.x c.q c.cid)
  let past := d.twin.outcomes.find? (fun o => o.1 == c.x && o.2.1 == c.q && o.2.2.1 == c.cid)
  match c.op with
  | 0x01 =>
    let stored := match past with | some o => some o.2.2.2.1 | none => none
    let r : Resume := { c.resume.getD {} with stored := stored, node := d.adoptedNode }
    let d1 : Dev := { d with twin := { d.twin with toResume := d.twin.toResume ++ [(sx, sq, { c with resume := some r })] } }
    if commit then d1.cmdUpd sx sq c.cid (fun k => { k with past := true }) else d1
  | 0x02 =>
    (match past with
     | some o => d.complete sx sq c.cid { r0 := o.2.2.2.1, r1 := o.2.2.2.2.1, detail := min o.2.2.2.2.2 0xFFFFFFFF }
     | none => if commit then d.cmdUpd sx sq c.cid (fun k => { k with started := true, past := true }) else d)
  | 0x06 => (match c.hold with | some h => d.complete sx sq c.cid { r0 := h.1, r1 := h.2 } | none => d)
  | _ => d

/-- One queue set up in its standby queue (Table 17.5): mirrored registers, indices, commands; completions are written again, then
PATH_MOVED (R511). -/
def Dev.adoptQueue (d : Dev) (x q sx sq : Nat) (frags : List AFrag) : Dev :=
  let p := tabGet {} d.twin.queues (qpKey x q)
  let cmds := d.twin.cmds.filter (fun c => c.x == x && c.q == q)
  let dones := d.twin.dones.filter (fun k => k.x == x && k.q == q)
  let ms := 2 * p.sqN
  let mc := 2 * p.cqN
  let head := match furthest ms ((p.sqHead + p.sqN) % ms) (cmds.map (·.idx) ++ dones.map (·.sq)) with | some i => (i + 1) % ms | none => p.sqHead
  let fresh := dones.filter (fun k => decide ((k.cq + mc - p.cqHead) % mc < p.cqN))
  let tail := match furthest mc p.cqHead (fresh.map (·.cq)) with | some i => (i + 1) % mc | none => p.cqHead
  let seq := d.host.nextSeq
  let table := (List.range cmds.length).filterMap (fun i => (cmds[i]?).map (fun c =>
    let fr := match frags.find? (fun f => f.x == x && f.q == q && f.cid == c.cid) with | some f => f.tables | none => []
    ({ cid := c.cid, idx := c.idx, op := c.op, entry := c.entry, data := adoptedPieces c.entry fr, seq := seq + i
       commits := c.op == 1 || c.op == 2, bind := d.visibleOf (fieldAt c.entry 8 4) } : Cmd)))
  let moved : Compl := { cid := 0xFFFF, status := 0x7001, r0 := d.node.getD 0 + 65536 * fnCode sx + 2 ^ 32 * sq, r1 := cmds.length }
  let n := (tail + mc - p.cqHead) % mc
  let d1 := d.qpUpd sx sq (fun _ => { p with
    state := if p.state == .error then .error else .active, sqHead := head, sqTail := head, cqTail := tail, cmds := table, ready := [moved]
    posted := (List.range n).map (fun i =>
      match fresh.find? (fun k => k.cq == (p.cqHead + i) % mc) with | some k => (fieldAt k.entry 0 2, false) | none => (0xFFFF, false)) })
  let d2 : Dev := { d1 with
    host := { d1.host with nextSeq := seq + cmds.length }
    twin := { d1.twin with adoptedQ := d1.twin.adoptedQ ++ [(x, q, sx, sq)], queuesTaken := d1.twin.queuesTaken + 1 } }
  let d3 := fresh.foldl (fun d k => d.hostWrite sx (p.cqBase + 32 * (k.cq % p.cqN)) k.entry) d2
  cmds.foldl (fun d c => d.adoptCmd sx sq c) (d3.completionPost sx sq)

/-- A function of the failed twin adopted, or left as it is where its mapping is not valid. -/
def Dev.adoptFn (d : Dev) (x : Nat) (frags : List AFrag) : Dev :=
  let qs := (d.twin.queues.filter (fun p => p.1 / 8192 == x && p.2.state != .disabled)).map (fun p => p.1 % 8192)
  match d.standby x with
  | none => d.eventPf 0x0120 (fnCode x) 0
  | some (sx, base) =>
    let free := qs.filter (fun q => (d.qp sx (base + q)).state == .disabled)
    let held : Dev := { d with
      twin := { d.twin with adopted := d.twin.adopted ++ [(x, sx)] }
      store := { d.store with holds := d.store.holds.map (fun h => if h.x = x ∧ h.id % 2 ≠ d.twin.pos then { h with x := sx } else h) } }
    let d1 := free.foldl (fun d q => d.adoptQueue x q sx (base + q) frags) held
    let d2 := if free.isEmpty then d1 else d1.fnUpd sx (fun f => { f with adopted := true })
    let d3 := if free.length < qs.length then d2.eventPf 0x0120 (fnCode x) 0 else d2
    let d4 := d3.event sx 0x0120 (fnCode x) free.length
    if (d4.mbox sx).session.isSome then d4.event sx 0x0004 0 2 else d4

/-- QUEUE_ADOPTION (R509 to R516): `frags` are the fragment tables of adopted commands by function, queue and command. -/
def Dev.queueAdoption (d : Dev) (t : Nat) (frags : List AFrag) : Dev :=
  let d0 := d.at t
  if d0.twin.state ≠ 4 || d0.twin.step ≠ 2 then d0
  else
    let node := match d0.twin.partner with | some h => h.node | none => none
    let d1 := match node with | some n => d0.setReg 0x02500004 (BitVec.ofNat 32 (n + 65536)) | none => d0
    let xs := ((d1.twin.queues.filter (fun p => p.2.state != .disabled)).map (fun p => p.1 / 8192)).eraseDups
    let d2 := xs.foldl (fun d x => d.adoptFn x frags) d1
    let d3 := d2.eventPf 0x0121 (node.getD 0) 0
    { d3 with twin := { d3.twin with step := 3, movedUs := d3.timeUs } }

/-! ### Resumption and the end of recovery (R517 to R520) -/

/-- RESUME for an adopted node, to some peers (R355). -/
def Dev.sendResume (d : Dev) (n me : Nat) (l : List Nat) : Dev :=
  l.foldl (fun d p => (d.needAssoc p me).vxpSend p me 6 0 [] (natLE 2 n ++ zeros 6) 0) d

/-- QUERY_RESUMPTION (R517, R355): every adopted query reads its descriptor, image and parameter block again, and RESUME goes to every node. -/
def Dev.queryResumption (d : Dev) (t : Nat) : Dev :=
  let d0 := d.at t
  if d0.twin.state ≠ 4 || d0.twin.step ≠ 3 then d0
  else
    let d1 : Dev := d0.twin.toResume.foldl (fun (d : Dev) (r : Nat × Nat × PCmd) =>
      match d.mayStartCmd r.1 r.2.1 r.2.2.cid 0x01 with
      | some c =>
        let s : Submit := { x := r.1, q := r.2.1, cid := c.cid, ts := c.ts, resume := r.2.2.resume }
        let d1 := d.cmdUpd r.1 r.2.1 c.cid (fun k => { k with started := true })
        ({ d1 with qry := { d1.qry with subs := d1.qry.subs ++ [s] } } : Dev).hostRead r.1 r.2.1 c.cid .descriptor (fieldAt c.entry 0x10 8) 256
      | none => d) d0
    let d2 := match d1.adoptedNode, d1.node with
      | some n, some me => (d1.sendAgain n me).pumpFlows.sendResume n me ((d1.fab.nodes.map (fun (p : Nat × List Bytes) => p.1)).filter (fun k => !d1.isMe k))
      | _, _ => d1
    { d2 with twin := { d2.twin with step := 4, resumed := d2.twin.toResume.length } }

/-- RECOVERY_COMPLETE (R520): rebuilds go on, TWIN_LAST_FAILOVER is written, and a twin whose HELLO came meanwhile may join (Table 21.6). -/
def Dev.recoveryComplete (d : Dev) (t : Nat) : Dev :=
  let d0 := d.at t
  if d0.twin.state ≠ 4 || d0.twin.step ≠ 4 then d0
  else
    let w := d0.twin
    let since := fun (u : Nat) => natLE 4 (min 0xFFFFFFFF (u - w.declaredUs))
    let b := natLE 8 (w.declared.getD 0) ++ since w.fencedUs ++ since w.movedUs ++ since d0.timeUs ++ natLE 4 w.queuesTaken ++
      natLE 2 (w.resumed - w.resubmitted) ++ natLE 2 w.resubmitted ++ zeros 4
    let d1 := (d0.setRegBytes 0x02B00040 b).recovered 6 0
    let d2 : Dev := { d1 with
      twin := { d1.twin with step := 5, declared := none, toResume := [], cmds := [], dones := [], queues := [], records := [], hello := false }
      store := { d1.store with spaces := d1.store.spaces.map (fun s => { s with partnerLow := none }) } }
  let d3 := (d2.store.spaces.foldl (fun d s => d.holdMoved s.id) d2).pauseRebuilds false
  if w.hello then d3.pairing else d3

end Sys2Proof.Machine
end

