-- ==== Sys2Proof/Machine/Cold.lean ====
section
/-!
DEFINITION. Sys2Proof/Machine/Cold.lean: what is left of the device when every domain but AON has been reset or removed (R538, R551, R562,
R586, R625): the always-on domain, the flashes, the fuses and what stands on the drives.
-/
namespace Sys2Proof.Machine

/-- Registers that the always-on domain holds, and MEM_MAP, whose value is stored with the training results (R366, R545, R558, R584, R599), and the pins'
functions, which serve in Ember and are reset at power-on only (R634). -/
def aonReg (a : Nat) : Bool :=
  (decide (0x02C10000 ≤ a) && decide (a < 0x02E00000)) || (decide (0x02E0000C ≤ a) && decide (a < 0x02E00018)) ||
  (decide (0x02F00100 ≤ a) && decide (a < 0x02F00130)) || (decide (0x02610000 ≤ a) && decide (a < 0x02610004)) || (decide (0x03100000 ≤ a) && decide (a < 0x03100048))

/-- A commit whose record had been issued may be found again; nothing of it waits any more (R432). -/
def Dev.coldCommits (d : Dev) : List Commit :=
  (d.store.commits.filter (fun c => c.st == .recording)).map (fun c =>
    let w := d.commitWho c
    { c with use := .partner (fnOfCode w.1) w.2.1 w.2.2, waits := [], waitsRing := false })

/-- The store: the catalog and pages that the drives keep, the places of the rings, and commits that may be replayed. -/
def Dev.coldStore (d : Dev) : StoreSt :=
  let s := d.store
  let lost := s.commits.filter (fun c => !(c.st == .recording || c.st == .durable))
  let going := fun (t : TSpace) => s.commits.any (fun c => c.ts == t.id && c.st != .durable && (c.change == some .remove || c.change == some .erase))
  { spaces := s.spaces.map (fun t => { t with open_ := [], partnerLow := none, replay := true, deleting := t.deleting && !going t })
    lastTs := s.lastTs
    nextHold := s.nextHold
    nextCmd := s.nextCmd
    groups := (lost.foldl (fun g c => freeRows g c.created) s.groups).map (fun g => { g with spill := [], trim := [] })
    commits := d.coldCommits
    drives := s.drives.map (fun p => (p.1, { p.2 with power := false, refclk := false, perst := true, link := false, state := 0, resetting := false, expiries := [], media := [], ps := 0, waking := false }))
    journals := s.journals }

/-- A hearth: its quench and its wide unit's fence are in the repair record (R592). -/
def coldHearth (h : Hearth) : Hearth := { quenched := h.quenched, exu := { fenced := h.exu.fenced } }
/-- A memory unit: what is soldered or retired stays. -/
def coldUnit (m : MemUnit) : MemUnit := { gb := m.gb, rk := m.rk, x4 := m.x4, repaired := m.repaired, left := m.left, retired := m.retired }
/-- The debug level after a reset: INVASIVE in BLANK, OFF in every other state (R581). -/
def SecSt.restLevel (s : SecSt) : Nat := if s.lifecycle = 0 then 2 else 0
/-- The security block without its secure SRAM. -/
def SecSt.cold (s : SecSt) : SecSt :=
  { s with debug := s.restLevel, nonce := none, keys := [], sessions := [], waiting := [], ide := [], ideStop := [], ideHeld := [], wipeFail := false, halted := false, jtag := 0 }

/-- Every domain but AON at its power-on reset values (DEDUCED, notes/assumptions/76.md) (DESIGN CHOICE, notes/assumptions/77.md). -/
def Dev.coldState (d : Dev) : Dev :=
  { timeUs := d.timeUs
    freeCtr := d.freeCtr
    out := d.out
    regs := d.regs.filter (fun p => aonReg p.1)
    cwCount := d.cwCount.filter (fun p => aonReg p.1)
    host := { nextTag := d.host.nextTag, nextSeq := d.host.nextSeq, links := d.host.links.map (fun p => (p.1, ({ perst := p.2.perst } : HLink))) }
    store := d.coldStore
    qry := { nextQuery := d.qry.nextQuery, hearths := d.qry.hearths.map (fun p => (p.1, coldHearth p.2)) }
    twin := { pairId := if d.twin.state = 6 then 0 else d.twin.pairId, pos := d.twin.pos, witSeq := d.twin.witSeq }
    mail := { claims := d.mail.claims.filter (fun c => c.cls == 1), fwA := d.mail.fwA, fwB := d.mail.fwB, boot := d.mail.boot, running := d.mail.running, minor := d.mail.minor, sysTables := d.mail.sysTables.filter (fun t => !t.withdrawn) }
    mem := { units := d.mem.units.map (fun p => (p.1, coldUnit p.2)), slices := d.mem.slices, fenced := d.mem.fenced, spares := d.mem.spares }
    health := { repairSeq := d.health.repairSeq, slicesFenced := d.health.slicesFenced, unitsFenced := d.health.unitsFenced }
    rcd := d.rcd
    pwr := { sysGood := d.pwr.sysGood, aonGood := d.pwr.aonGood, trip := d.pwr.trip, railLast := d.pwr.railLast, clocks := d.pwr.clocks }
    start := { d.start with service := false, noFetch := false, stage := if d.start.open_ then d.start.stage else 0 }
    sec := d.sec.cold
    pins := { gpioIn := d.pins.gpioIn, uart := d.pins.uart }
    tally := d.tally
    opSec := d.opSec
    cycles := d.cycles }

end Sys2Proof.Machine
end

