-- ==== Sys2Proof/Machine/Power.lean ====
section
/-!
DEFINITION. Sys2Proof/Machine/Power.lean: power domains, the two-phase mode change, Ember and Off, Capped enforcement and thermal
protection (18_power_modes.md).
-/
namespace Sys2Proof.Machine

/-! ### Domains (R533, Table 18.2) -/

/-- The scratchpad banks of some hearths enter retention (R376); those of a hearth that the window holds stay with it. -/
def Dev.retainBanks (d : Dev) (l : List Nat) : Dev :=
  { d with mem := { d.mem with retained := l.foldl (fun t h => if (d.hearth h).quenched || (d.hearth h).rx4 then t else tabSet 0 t h 0xFFF) d.mem.retained } }

/-- A domain that leaves service: a hearth's slots empty, and the charge of one that loses power is READY again (R535). -/
def Dev.leaveDomain (d : Dev) (n st : Nat) : Dev :=
  if n < 36 then
    let d1 := (d.hearth n).slots.foldl (fun d r => d.unslot r) d
    let d2 := if st = 0 then (d1.toBoundary n).restart n 2 (d1.hearthClocks n) else d1
    d2.setDomain n st
  else d.setDomain n st

/-- The blocks that a domain's block needs powered first (R25, Table 1.4): each entry is a set of which one is enough. -/
def domainNeeds (n : Nat) : List (List Nat) :=
  let hbm := [36, 37, 38, 39]
  let cache := [64, 65, 66, 67]
  if n < 36 then [[71], cache, [69]]
  else if n < 48 then [[71]]
  else if n < 50 then [[71], [69]]
  else if n < 59 then [[71], [68], [69]]
  else if n < 63 then [[71], hbm]
  else if n = 63 then [[69], [70]]
  else if n < 68 then [[71], hbm]
  else if n = 68 then [[71], cache]
  else if n = 69 then [[71]]
  else []

/-- The order in which Bellows starts domains, needed blocks first (R25). -/
def powerOrder : List Nat :=
  [71, 70, 69] ++ List.range' 36 12 ++ [64, 65, 66, 67, 68] ++ List.range' 48 16 ++ List.range 36

/-- The domains to start for one domain, needed blocks first; of a set of which one is enough, the lowest that failure has not fenced, where none
of the set works (notes/assumptions/168.md). -/
def Dev.wakeList (d : Dev) : Nat → Nat → List Nat
  | 0, n => [n]
  | fuel + 1, n =>
    ((domainNeeds n).map (fun set =>
      if set.any (fun m => d.domain m == 2) then []
      else match set.find? (fun m => !d.domFenced m) with
        | some m => d.wakeList fuel m
        | none => [])).flatten.eraseDups ++ [n]

/-- A domain powered on demand needs this one, and nothing else of its set works (R25). -/
def Dev.stillNeeded (d : Dev) (n : Nat) : Bool :=
  d.pwr.demand.any (fun p => p.2 != 0 && p.1 != n && d.domain p.1 == 2 &&
    (domainNeeds p.1).any (fun set => set.contains n && !set.any (fun m => m != n && d.domain m == 2)))

/-- A block that the change powers, and that a domain needs first, is not yet ready (R25). -/
def Dev.needsWait (d : Dev) (c : Change) (n : Nat) : Bool :=
  (domainNeeds n).any (fun set => !set.any (fun m => d.domain m == 2) &&
    set.any (fun m => c.units.contains m && !c.acked.contains m && d.domTarget c.toMode c.toServe m == 2))

/-- The bound of a mode in W (Table 18.1). -/
def modeLimit (mode serve ceiling : Nat) : Nat :=
  match mode with
  | 2 => 18 | 3 => 30 | 4 => 130 + 5 * serve | 5 => 290 | 6 => ceiling | 7 => 290 | _ => 0

/-- Whether the hearth clock differs between two modes. -/
def clockOf (mode : Nat) : Nat := if mode = 6 then 1200 else if 4 ≤ mode then 1800 else 0

/-! ### The two-phase change (R534 to R536) -/

/-- A change begins: the affected units, the limit, and the hearth groups to wake; prepare waits for VDD_CORE. -/
def Dev.startChange (d : Dev) (mode serve ceiling : Nat) (by_ : Option Nat) (chosen : Bool) : Dev :=
  let p := d.pwr
  let units := (List.range 72).filter (fun n =>
    let t := d.domTarget mode serve n
    d.domain n != t || (t == 2 && (decide (n < 36) || (decide (64 ≤ n) && decide (n < 68))) && clockOf p.mode != clockOf mode))
  let wake := (List.range 4).filter (fun g => (List.range 9).any (fun i => d.domain (9 * g + i) < 2 && d.domTarget mode serve (9 * g + i) == 2))
  let c : Change :=
    { fromMode := p.mode, toMode := mode, fromServe := p.serve, toServe := serve, fromCeil := p.ceiling, toCeil := ceiling, units := units
      old := units.map (fun n => (n, d.domain n)), wake := wake, began := d.timeUs, by_ := by_, chosen := chosen }
  { d with pwr := { p with change := some c, limit := max (modeLimit p.mode p.serve p.ceiling) (modeLimit mode serve ceiling) } }

/-- PWR_LAST_CHANGE, and the counts of the recorder. -/
def Dev.noteChange (d : Dev) (c : Change) (result : Nat) (lag : List Nat) : Dev :=
  let mask := (lag.map (2 ^ ·)).sum
  let b := [BitVec.ofNat 8 c.fromMode, BitVec.ofNat 8 c.toMode, BitVec.ofNat 8 result, 0] ++ natLE 4 (d.timeUs - c.began) ++ natLE 8 d.opSec ++ natLE 16 mask
  let d1 := d.setRegBytes 0x02C00040 b
  { d1 with rcd := { d1.rcd with acc := { d1.rcd.acc with
    commits := d1.rcd.acc.commits + b2n (result == 1), reverts := d1.rcd.acc.reverts + b2n (result == 2) } } }

/-- The response of MODE_SET (Table 18.6): mode in force and lagging domains. -/
def modeReply (mode : Nat) (lag : List Nat) : Bytes := natLE 1 mode ++ zeros 7 ++ natLE 16 ((lag.map (2 ^ ·)).sum)

/-- Commit (R535): leaving domains go down, those that others need last (R25), and the mode is the new one. -/
def Dev.commitChange (d : Dev) (c : Change) : Dev :=
  let d0 := (List.range hearthCount).foldl (fun d h => if c.toMode = 6 then d else d.hearthUpd h (fun x => { x with parked := false })) d
  let p := d0.pwr
  let d1 : Dev := { d0 with pwr := { p with
    mode := c.toMode, serve := c.toServe, ceiling := c.toCeil, limit := modeLimit c.toMode c.toServe c.toCeil, change := none, chosen := c.chosen
    told := if c.toMode = 3 then false else p.told, paced := false, demand := [] } }
  let d2 := (powerOrder.reverse.filter c.units.contains).foldl (fun d n => let t := d1.domTarget c.toMode c.toServe n; if t = 2 then d.setDomain n 2 else d.leaveDomain n t) d1
  let d3 := (if c.toMode = 3 then (d2.idleDrives.retainBanks (List.range hearthCount)) else d2.wakeDrives).noteChange c 1 []
  let d4 := if c.chosen then d3.trace { kind := 0x0B, a := 5, b := c.toMode } else d3
  match c.by_ with
  | some x => ({ d4 with mail := { d4.mail with gens := tabUpd 0 d4.mail.gens 0x0016 (fun n => (n + 1) % 65536) } } : Dev).mbOk x (modeReply c.toMode [])
  | none => d4

/-- Revert (R535): units that acknowledged return to what they were. -/
def Dev.revertChange (d : Dev) (c : Change) : Dev :=
  let lag := c.units.filter (fun n => !c.acked.contains n)
  let d1 := c.old.foldl (fun d o => if c.acked.contains o.1 then (if o.2 = 2 then d.setDomain o.1 2 else d.leaveDomain o.1 o.2) else d) d
  let p := d1.pwr
  let d2 := (({ d1 with pwr := { p with change := none, limit := modeLimit c.fromMode c.fromServe c.fromCeil } } : Dev).bump 0x02C00060 1).noteChange c 2 lag
  match c.by_ with
  | some x => d2.mbAnswer x 0x1003 lag.length 0 0 (modeReply c.fromMode lag)
  | none => d2

/-- Prepare is sent when VDD_CORE and the hearth groups are ready; a change without affected units commits at once (DEDUCED, notes/assumptions/74.md). -/
def Dev.prepare (d : Dev) (c : Change) : Dev :=
  if !c.vddReady || !c.wake.isEmpty || c.prepared then { d with pwr := { d.pwr with change := some c } }
  else
    let k := { c with prepared := true, sent := d.timeUs }
    if k.units.isEmpty then d.commitChange k else { d with pwr := { d.pwr with change := some k } }

/-- VDD_CORE_READY: the regulator's power-good after the ramp. -/
def Dev.vddReady (d : Dev) (t : Nat) : Dev :=
  let d0 := d.at t
  match d0.pwr.change with | some c => d0.prepare { c with vddReady := true } | none => d0

/-- HEARTH_GROUP_READY (R534): groups wake one at a time, in ascending order. -/
def Dev.groupReady (d : Dev) (t g : Nat) : Dev :=
  let d0 := d.at t
  match d0.pwr.change with
  | some c => if c.wake.head? = some g then d0.prepare { c with wake := c.wake.drop 1 } else d0
  | none => d0

/-- UNIT_ACKNOWLEDGE: a unit at its step boundary is in its target state, unless it is leaving (R535); one whose needed blocks are not ready is
not powered yet (R25); the last one commits the change. -/
def Dev.unitAck (d : Dev) (t n : Nat) : Dev :=
  let d0 := d.at t
  match d0.pwr.change with
  | none => d0
  | some c =>
    if !c.prepared || !c.units.contains n || c.acked.contains n || c.sent + 2000 < d0.timeUs || (d0.domTarget c.toMode c.toServe n == 2 && d0.needsWait c n) then d0
    else
      let k := { c with acked := c.acked ++ [n] }
      let db := d0.toBoundary n
      let d1 := if db.domTarget c.toMode c.toServe n = 2 then db.setDomain n 2 else db
      if k.units.all (fun u => k.acked.contains u) then d1.commitChange k else { d1 with pwr := { d1.pwr with change := some k } }

/-- A quenched hearth counts as acknowledged (R536). -/
def Dev.unitGone (d : Dev) (n : Nat) : Dev :=
  match d.pwr.change with
  | none => d
  | some c =>
    let k := { c with units := c.units.filter (· != n), old := c.old.filter (fun o => o.1 != n) }
    if !c.units.contains n then d
    else if k.prepared && k.units.all (fun u => k.acked.contains u) then d.commitChange k else { d with pwr := { d.pwr with change := some k } }

/-- MODE_CHANGE_DEADLINE: 2 ms after prepare without every acknowledgement. -/
def Dev.changeDeadline (d : Dev) (t : Nat) : Dev :=
  let d0 := d.at t
  match d0.pwr.change with
  | some c => if c.prepared && decide (c.sent + 2000 ≤ d0.timeUs) then d0.revertChange c else d0
  | none => d0

/-! ### AUTONOMOUS choices (R529, R530) -/

/-- Charges READY or at work. -/
def Dev.workCharges (d : Dev) : Nat := (d.cands (fun s => s == .ready || s == .slotted || s == .running)).length
/-- Whether any command is in progress. -/
def Dev.anyCommand (d : Dev) : Bool := d.host.qps.any (fun p => !p.2.cmds.isEmpty)

/-- A mode change of the device's own choice; the next charge's checkpoint records it (R42). -/
def Dev.chooseMode (d : Dev) (mode serve ceiling : Nat) : Dev :=
  let d1 := d.startChange mode serve ceiling none true
  { d1 with qry := { d1.qry with modeChoice := some mode } }

/-- A mode chosen at a charge boundary: Full at a ceiling of 290 W, else Serve with the count the ceiling admits while the work occupies
fewer hearths, else Capped (notes/assumptions/73.md). -/
def Dev.autoMode (d : Dev) : Dev :=
  let p := d.pwr
  if d.fn.directed || p.change.isSome || !d.start.service || !(decide (3 ≤ p.mode) && decide (p.mode ≤ 6)) || !(d.anyCommand || 0 < d.workCharges) then d
  else if p.ceiling = 290 then (if p.mode = 5 then d else d.chooseMode 5 0 290)
  else
    let n := min 31 ((p.ceiling - 130) / 5)
    if 0 < n && d.workCharges < n then (if p.mode = 4 && p.serve == n then d else d.chooseMode 4 n p.ceiling)
    else if p.mode = 6 then d else d.chooseMode 6 0 p.ceiling

/-- IDLE_TIMER: 10 ms with no command in progress and no charge at work. -/
def Dev.idleTimer (d : Dev) (t : Nat) : Dev :=
  let d0 := d.at t
  let p := d0.pwr
  if d0.fn.directed || p.change.isSome || !(decide (4 ≤ p.mode) && decide (p.mode ≤ 6)) || d0.anyCommand || 0 < d0.workCharges then d0
  else d0.chooseMode 3 0 p.ceiling

/-! ### Ember and Off (R531, R532, R538) -/

/-- What refuses MODE_SET Ember or Off, as the detail of RESOURCE_CLAIMED. -/
def Dev.entryBlocked (d : Dev) : Option Nat :=
  let busyFn := ((d.host.qps.filter (fun p => p.2.state != .disabled)).map (fun p => p.1 / 8192)).foldl (fun (m : Option Nat) x =>
    match m with | some k => if x < k then some x else m | none => some x) none
  let pfUp := [0, 513].find? (fun x => !(d.fnGet x).d3hot && !(tabGet {} d.host.links (portOf x)).perst)
  match pfUp with
  | some x => some (holderWord x 1)
  | none =>
    if d.twin.state = 3 then
      if d.store.spaces.any (fun s => s.owner == d.twin.pos) || busyFn.isSome || !d.runningOps.isEmpty || d.adoptMap.any (fun p => bitOf p.2 31)
      then some (holderWord 0 4) else none
    else match busyFn with
      | some x => some (holderWord x 1)
      | none => match d.runningOps with | o :: _ => some (holderWord (if o.x = opOrphan then 0 else o.x) 1) | [] => none

/-- ENTRY_SEQUENCE (R538): checkpoint and clean-shutdown records, the archive, drives shut down, self-refresh, domains removed, links down. A
paired twin departs (R531). -/
def Dev.entrySequence (d : Dev) (t : Nat) (archive : Dev → Dev) : Dev :=
  let d0 := d.at t
  match d0.pwr.entry with
  | none => d0
  | some (mode, _) =>
    let mine := ((d0.store.journals.filter (fun j => j.twin == d0.twin.pos)).map (·.group)).eraseDups
    let d1 := mine.foldl (fun (d : Dev) g => (d.checkpoint g).writeRecord g 9 2 0 0 .journal) d0
    let d2 := archive d1
    let d3 := if d2.twin.state = 3 then
        let w := d2.writeWitness true
        ({ w with twin := { w.twin with state := 5, stopped := true } } : Dev)
      else d2
    let up := (d3.store.drives.filter (fun p => p.2.present && p.2.link)).map (·.1)
    let d4 := up.foldl (fun (d : Dev) i => (d.send (.driveAdmin i 8 0)).driveUpd i (fun k => { k with link := false })) d3
    let woken := d4.start.ember
      let d5 := ({ d4 with start := { d4.start with service := false, stage := 0, open_ := false } } : Dev).coldState
    let d6 : Dev := { d5 with
      pwr := { d5.pwr with mode := mode, ember := mode == 1 && !woken, offRdy := mode == 0 } }
    let d7 := powerOrder.reverse.foldl (fun d n => d.setDomain n (d.domTarget mode 0 n)) d6
    if mode = 0 then d7.send (.pin 3 0) else if woken then (d7.send (.pin 2 0)).send (.pin 2 1) else d7.send (.pin 2 0)

/-- Of some pins those that can wake the device: claimed, with the wake function (Tables 18.9 and 23.8). -/
def Dev.wakePins (d : Dev) (pins : Nat) : Nat :=
  (((List.range 16).filter (fun p => bitOf pins p && (d.claimOf 1 p).isSome && d.regN (0x03100000 + 4 * p) % 8 == 2)).map (2 ^ ·)).sum

/-- A wake source latched in Ember, or during entry to it (R542, R626): EMBER# is released, and the exit to Idle begins with the next start
attempt. BELLOWS_WAKE_SRC and GPIO_WAKE name what caused this wake (DEDUCED, notes/assumptions/183.md). -/
def Dev.emberWake (d : Dev) (t : Nat) (by_ : WakeBy) : Dev :=
  let d0 := d.at t
  let during := match d0.pwr.entry with | some (1, _) => true | _ => false
  let src := by_.src
  let pins := if src = 3 then d0.wakePins by_.pins else 0
  if (d0.pwr.ember || during) && decide (src < 5) && bitOf (d0.regN 0x02C10004) src && (src != 3 || pins != 0) then
    let old := fun (a : Nat) => if d0.start.ember then d0.regN a else 0
    let d1 := (d0.setReg 0x02C10008 (BitVec.ofNat 32 (old 0x02C10008 ||| 2 ^ src))).setReg 0x03100044 (BitVec.ofNat 32 (old 0x03100044 ||| pins))
    let d2 : Dev := { d1 with pwr := { d1.pwr with ember := false }, start := { d1.start with ember := true } }
    if during then d2 else d2.send (.pin 2 1)
  else d0

/-- BELLOWS_ALARM: the operating-seconds count has reached the alarm. -/
def Dev.bellowsAlarm (d : Dev) (t : Nat) : Dev :=
  let a := d.reg64 0x02C10010
  if a ≠ 0 ∧ a ≤ d.opSec then d.emberWake t { src := 4 } else d.at t

/-- DOMAIN_WAKE (R25, R542): a request reaches a domain that the mode keeps down, which is started after the blocks it needs; the request's own
command follows when the domain is ready (notes/assumptions/168.md). -/
def Dev.domainWake (d : Dev) (t n : Nat) : Dev :=
  let d0 := d.at t
  if d0.pwr.mode < 3 || 72 ≤ n || d0.domFenced n || d0.domTarget d0.pwr.mode d0.pwr.serve n == 2 then d0
  else (d0.wakeList 3 n).foldl (fun (d : Dev) m => ({ d with pwr := { d.pwr with demand := tabSet 0 d.pwr.demand m (d.timeUs + 1) } } : Dev).setDomain m 2) d0

/-- DOMAIN_IDLE_TIMEOUT (R25, R533): 1 ms without a request, from this domain's users or from a block that needs it. -/
def Dev.domainIdle (d : Dev) (t n : Nat) : Dev :=
  let d0 := d.at t
  let since := tabGet 0 d0.pwr.demand n
  if since = 0 || d0.timeUs + 1 < since + 1000 || d0.stillNeeded n then d0
  else ({ d0 with pwr := { d0.pwr with demand := tabSet 0 d0.pwr.demand n 0 } } : Dev).setDomain n (d0.domTarget d0.pwr.mode d0.pwr.serve n)

/-! ### Capped enforcement (R539) -/

/-- The mean of some samples, in 0.1 W. -/
def meanOf (l : List Nat) : Nat := l.sum / max 1 l.length
/-- The average over the last 1 ms (DEDUCED, notes/assumptions/127.md). -/
def Dev.power1ms (d : Dev) : Nat := meanOf (d.pwr.samples.take 10)

/-- The supplies of Table 23.2, in order: nominal voltage in mV, and maximum current in mA. -/
def supplies : List (Nat × Nat) :=
  [(750, 340000), (800, 60000), (750, 200), (1800, 50), (900, 2000), (750, 70000), (900, 25000), (1200, 8000), (750, 10000), (1100, 8000),
   (1800, 1500), (1100, 24000), (400, 20000), (1800, 1000), (3300, 500), (1800, 100)]

/-- Package power in 0.1 W: each rail at its last reading, and one that does not answer at its maximum current times its nominal voltage
(R623). -/
def Dev.packagePower (d : Dev) : Nat :=
  ((List.range supplies.length).map (fun r =>
    if d.pwr.rails.contains r then (let s := supplies.getD r (0, 0); s.1 * s.2) else (tabGet (0, 0) d.pwr.railLast r).1)).sum / 100000

/-- The recorder's lowest and highest readings by supply (Table 21.9, kind 4). -/
def supplyNote (acc : RecAcc) (r mv : Nat) : RecAcc :=
  { acc with supply := tabUpd none acc.supply r (fun p => match p with | some (a, b) => some (min a mv, max b mv) | none => some (mv, mv)) }

/-- POWER_SAMPLE: the rails that answer in this 100 µs, by their order, with voltage in mV and current in mA. -/
def Dev.powerSample (d : Dev) (t : Nat) (reads : List (Nat × Nat × Nat)) : Dev :=
  let d0 := d.at t
  let l := reads.filter (fun r => decide (r.1 < supplies.length))
  let dr : Dev := { d0 with
    pwr := { d0.pwr with
      railLast := l.foldl (fun tb r => tabSet (0, 0) tb r.1 (r.2.1 * r.2.2, d0.timeUs + 1)) d0.pwr.railLast
      rails := d0.pwr.rails.filter (fun r => !l.any (fun k => k.1 == r)) }
    rcd := { d0.rcd with acc := l.foldl (fun a r => supplyNote a r.1 r.2.1) d0.rcd.acc } }
  let d1 : Dev := { dr with pwr := { dr.pwr with samples := dr.packagePower :: dr.pwr.samples.take 99 } }
  d1.setReg 0x02C00008 (BitVec.ofNat 32 (min 0xFFFF d1.power1ms))

/-- Hearths that run charges in Capped mode, and those parked. -/
def Dev.runners (d : Dev) : List Nat := d.pipeHearths.filter (fun h => (d.hearth h).powered && !(d.hearth h).parked && !(d.hearth h).rx4 && tabGet 0 d.pwr.demand h == 0)
def Dev.parkedHearths (d : Dev) : List Nat := (List.range hearthCount).filter (fun h => (d.hearth h).parked)

/-- PARK_CHECK: one hearth is parked, or the drives and fabric are paced, while the average is above the ceiling; one is unparked below 95 % of
it. -/
def Dev.parkCheck (d : Dev) (t : Nat) : Dev :=
  let d0 := d.at t
  if d0.pwr.mode ≠ 6 then d0
  else if 10 * d0.pwr.ceiling < d0.power1ms then
    match d0.runners.getLast? with
    | some h =>
      if d0.runners.length ≤ 4 then { d0 with pwr := { d0.pwr with paced := true } }
      else ((d0.hearth h).slots.foldl (fun d r => d.unslot r) (d0.toBoundary h)).hearthUpd h (fun x => { x with parked := true, powered := false }) |>.retainBanks [h]
    | none => { d0 with pwr := { d0.pwr with paced := true } }
  else
    let d1 : Dev := { d0 with pwr := { d0.pwr with paced := false } }
    if 100 * d1.power1ms < 95 * (10 * d1.pwr.ceiling) then
      (match d1.parkedHearths.head? with
       | some h => ({ d1 with pwr := { d1.pwr with demand := tabSet 0 d1.pwr.demand h 0 } } : Dev).hearthUpd h (fun x => { x with parked := false, powered := true })
       | none => d1)
    else d1

/-! ### Thermal protection (R540, Table 18.7) -/

/-- Tj in tenths of a degree as PWR_THERMAL shows it. -/
def Dev.showThermal (d : Dev) : Dev :=
  d.setReg 0x02C0000C (BitVec.ofNat 32 (((d.pwr.tj % 65536).toNat) + 65536 * b2n d.pwr.alert + 131072 * b2n d.pwr.clamp))

/-- The recorder's lowest and highest readings by domain (Table 21.9, kind 3). -/
def thermNote (op : Nat) (acc : RecAcc) (dom : Nat) (v : Int) : RecAcc :=
  { acc with
    therm := tabUpd none acc.therm dom (fun p => match p with | some (a, b) => some (min a v, max b v) | none => some (v, v))
    hottest := tabUpd none acc.hottest (dom / 36) (fun p => match p with | some (m, k) => if m < v then some (v, op) else some (m, k) | none => some (v, op)) }

/-- THERMAL_SAMPLE: readings in 0.1 °C by domain. -/
def Dev.thermalSample (d : Dev) (t : Nat) (l : List (Nat × Int)) : Dev :=
  let d0 := d.at t
  match l with
  | [] => d0
  | p :: r =>
    let tj := r.foldl (fun m q => max m q.2) p.2
    let alertC : Int := 10 * (d0.regField 0x02C00010 7 0 : Int)
    let clampC : Int := 10 * (d0.regField 0x02C00010 15 8 : Int)
    let was := d0.pwr.alert
    let alert := if was then decide (alertC - 50 ≤ tj) else decide (alertC ≤ tj)
    let clamp := d0.pwr.clamp || decide (clampC ≤ tj)
    let cool := if clamp && decide (tj < clampC - 50) then (match d0.pwr.coolSince with | some u => some u | none => some d0.timeUs) else none
    let d1 : Dev := { d0 with
      pwr := { d0.pwr with tj := tj, alert := alert, clamp := clamp, coolSince := cool }
      rcd := { d0.rcd with acc := l.foldl (fun a q => thermNote d0.opSec a q.1 q.2) d0.rcd.acc } }
    let d2 := d1.showThermal
    if alert && !was then ((d2.send (.pin 1 0)).eventPf 0x0131 0 ((tj % 65536).toNat)) else if was && !alert then d2.send (.pin 1 1) else d2

/-- CLAMP_RELEASE: 100 ms below the release level. -/
def Dev.clampRelease (d : Dev) (t : Nat) : Dev :=
  let d0 := d.at t
  match d0.pwr.clamp, d0.pwr.coolSince with
  | true, some u => if u + 100000 ≤ d0.timeUs then ({ d0 with pwr := { d0.pwr with clamp := false, coolSince := none } } : Dev).showThermal else d0
  | _, _ => d0

end Sys2Proof.Machine
end

