-- ==== Sys2Proof/Machine/Recorder.lean ====
section
/-!
DEFINITION. Sys2Proof/Machine/Recorder.lean: the event recorder: accumulators, closes, the ring, freezes, the archive and the operating
seconds (21_health_record.md, R599 to R606).
-/
namespace Sys2Proof.Machine

/-- The signed 64-bit bytes of an integer. -/
def int64 (i : Int) : Bytes := natLE 8 (i % (2 ^ 64 : Int)).toNat
/-- The signed 16-bit bytes of an integer. -/
def int16 (i : Int) : Bytes := natLE 2 (i % (2 ^ 16 : Int)).toNat

/-- The wall time in ms that the device gives now; none while no base is set (R603) (DEDUCED, notes/assumptions/23.md). -/
def Dev.wallMs (d : Dev) : Option Int := match d.rcd.wall with | some (b, u) => some (b + ((d.timeUs - u) / 1000 : Nat)) | none => none

/-- The recorder is frozen (R604). -/
def RecSt.frozen (r : RecSt) : Bool := r.freezeHost.isSome || r.freezeMgmt.isSome

/-- The records of the ring (Table 21.7). -/
def ringRecords : Nat := 160

/-- The 256 bytes of a record (Table 21.8). -/
def Dev.recBytes (d : Dev) (kind source interval : Nat) (body : Bytes) : Bytes :=
  let b := natLE 2 kind ++ natLE 2 source ++ natLE 4 d.rcd.seq ++ natLE 4 d.cycles ++ natLE 4 interval ++ natLE 8 (d.opSec % 2 ^ 40) ++
    int64 (d.wallMs.getD 0) ++ (body ++ zeros (220 - body.length)).take 220
  b ++ natLE 4 (crc32c b).toNat

/-- A record put into the ring; a full ring loses its oldest (R602). -/
def Dev.recRing (d : Dev) (kind source interval : Nat) (body : Bytes) : Dev :=
  let b := d.recBytes kind source interval body
  let full := decide (ringRecords ≤ d.rcd.ring.length)
  let d1 := if full then d.bump 0x02F00120 1 else d
  let r := d1.rcd
  { d1 with rcd := { r with
    ring := (if full then r.ring.drop 1 else r.ring) ++ [b]
    seq := (r.seq + 1) % 2 ^ 32
    lost := if full then tabUpd 0 r.lost 2 (· + 1) else r.lost } }

/-- LOST records of what has been lost and not yet told, where the ring has a slot (R601, R602) (DEDUCED, notes/assumptions/125.md). -/
def Dev.recLost (d : Dev) : Dev :=
  [1, 2, 3].foldl (fun (d : Dev) c =>
    let n := tabGet 0 d.rcd.lost c
    if n = 0 || ringRecords ≤ d.rcd.ring.length then d
    else ({ d with rcd := { d.rcd with lost := tabSet 0 d.rcd.lost c 0 } } : Dev).recRing 0x0A 0 0 (natLE 4 (min 0xFFFFFFFF n) ++ natLE 1 c)) d

/-- A record of kinds 0x08 to 0x0A, when its event occurs; a freeze keeps it waiting (R604). -/
def Dev.recNow (d : Dev) (kind source : Nat) (body : Bytes) : Dev :=
  if d.rcd.frozen then { d with rcd := { d.rcd with waiting := d.rcd.waiting ++ [(kind, source, body)] } } else d.recRing kind source 0 body

/-! ### The close (R602, Table 21.9) -/

def latBody (a : LatAcc) : Bytes :=
  ((List.range 32).map (fun b => natLE 4 (min 0xFFFFFFFF (tabGet 0 a.bins b)))).flatten ++ natLE 8 a.count ++ natLE 8 a.sum ++ natLE 4 (min 0xFFFFFFFF a.most)
def depthBody (a : DepthAcc) : Bytes :=
  ((List.range 18).map (fun b => natLE 4 (tabGet 0 a.bins b))).flatten ++ natLE 4 a.samples ++ natLE 4 a.most
def thermBody (a : RecAcc) (half : Nat) : Bytes :=
  ((List.range 36).map (fun i => match tabGet none a.therm (36 * half + i) with | some (lo, hi) => int16 lo ++ int16 hi | none => zeros 4)).flatten ++
    natLE 8 (match tabGet none a.hottest half with | some (_, op) => op | none => 0)
def supplyBody (a : RecAcc) : Bytes :=
  ((List.range 16).map (fun r => match tabGet none a.supply r with | some (lo, hi) => natLE 2 lo ++ natLE 2 hi | none => zeros 4)).flatten

/-- The counters of ERROR_RATES in order, each as the registers it sums. -/
def errorSources : List (List Nat) :=
  let hearths := fun (a : Nat) => (List.range hearthCount).map (fun h => a + 0x1000 * h)
  let dram := (List.range 4).map (fun u => 0x02600000 + 0x1000 * u) ++ (List.range 8).map (fun c => 0x02608000 + 0x1000 * c)
  dram.map (fun a => [a + 0x20]) ++ dram.map (fun a => [a + 0x24]) ++
  [hearths 0x0210020C, hearths 0x02100210, [0x0270001C], [0x02700020], [0x02700024], hearths 0x02100104, hearths 0x02100108, hearths 0x02100020] ++
  (List.range 8).map (fun p => [0x02510008 + 0x100 * p]) ++ [[0x02B0002C], [0x02500020], [0x02900008], [0x0290000C], [2 ^ 32], [2 ^ 32 + 1]]

def Dev.errorBody (d : Dev) : Bytes :=
  (errorSources.map (fun l => natLE 4 (min 0xFFFFFFFF ((l.map (fun a => tabGet 0 d.tally a - tabGet 0 d.rcd.acc.base a)).sum)))).flatten
def residencyBody (a : RecAcc) : Bytes :=
  ((List.range 8).map (fun m => natLE 4 (tabGet 0 a.residency m))).flatten ++ natLE 4 a.commits ++ natLE 4 a.reverts ++ natLE 4 a.parkedS ++ natLE 4 a.clampS
def repairBody (a : RecAcc) : Bytes := ((List.range 12).map (fun i => natLE 4 (tabGet 0 a.repairs i))).flatten

/-- The accumulators closed into records; new ones begin, and an archive falls due. -/
def Dev.recClose (d : Dev) : Dev :=
  let a := d.rcd.acc
  let iv := d.opSec - d.rcd.start
  let d1 := (a.lat.filter (fun p => 0 < p.2.count)).foldl (fun d p => d.recRing 0x01 p.1 iv (latBody p.2)) d.recLost
  let d2 := [0, 1].foldl (fun d p => d.recRing 0x02 p iv (depthBody (tabGet {} a.depth p))) d1
  let d3 := [0, 1].foldl (fun d h => d.recRing 0x03 h iv (thermBody a h)) d2
  let d4 := (((d3.recRing 0x04 0 iv (supplyBody a)).recRing 0x05 0 iv d.errorBody).recRing 0x06 0 iv (residencyBody a)).recRing 0x07 0 iv (repairBody a)
  { d4 with rcd := { d4.rcd with acc := { base := d.tally }, start := d.opSec, closeDue := false, archDue := true } }

/-- RECORDER_CLOSE: a close that is due, unless the recorder is frozen. -/
def Dev.recorderClose (d : Dev) (t : Nat) : Dev :=
  let d0 := d.at t
  if d0.rcd.closeDue && !d0.rcd.frozen then d0.recClose else d0

/-! ### The archive (R605) -/

/-- The sectors of the archive on each flash, and the records of one. -/
def archSectors : Nat := 384
def sectorRecords : Nat := 255

/-- One record in the current sector of the flashes that take it; a copy that failed leaves its slot erased. A full sector is followed by the
next, erased. -/
def recStore (ok0 ok1 : Bool) (r : RecSt) (b : Bytes) : RecSt :=
  let cur := fun (f : Nat) => match tabGet none r.sectors (384 * f + r.sector) with | some (_, l) => l | none => []
  let full := decide (sectorRecords ≤ (cur 0).length)
  let sec := if full then (r.sector + 1) % archSectors else r.sector
  let seq := if full then r.sectorSeq + 1 else r.sectorSeq
  let old := fun (f : Nat) => if full then [] else cur f
  let s0 := tabSet none r.sectors sec (some (seq, old 0 ++ [if ok0 then b else []]))
  { r with sector := sec, sectorSeq := seq, sectors := tabSet none s0 (384 + sec) (some (seq, old 1 ++ [if ok1 then b else []])) }

/-- The closed records copied to both flashes; they stay in the ring when both copies fail. -/
def Dev.recArchive (d : Dev) (ok0 ok1 : Bool) : Dev :=
  let d1 : Dev :=
    if !ok0 && !ok1 then { d with rcd := { d.rcd with archFail := true } }
    else
      let r := d.rcd.ring.foldl (recStore ok0 ok1) d.rcd
      { d with rcd := { r with ring := [], archFail := false } }
  (({ d1 with rcd := { d1.rcd with archDue := false } } : Dev).setField 0x02F00100 2 2 0).recLost

/-- ARCHIVE: an archive that is due, unless the recorder is frozen; whether each flash takes its copies. -/
def Dev.archive (d : Dev) (t : Nat) (ok0 ok1 : Bool) : Dev :=
  let d0 := d.at t
  if d0.rcd.archDue && !d0.rcd.frozen then d0.recArchive ok0 ok1 else d0

/-- ARCHIVE_NOW (REC_CTRL archive_now) (DEDUCED, notes/assumptions/132.md). -/
def Dev.archiveNow (d : Dev) : Dev := ({ d with rcd := { d.rcd with archDue := true } } : Dev).setField 0x02F00100 2 2 1

/-! ### Freezes (R604, R606) -/

/-- What waited for the release: records of events, then a close that fell due. -/
def Dev.recRelease (d : Dev) : Dev :=
  if d.rcd.frozen then d
  else
    let w := d.rcd.waiting
    let d1 := w.foldl (fun d r => d.recRing r.1 r.2.1 0 r.2.2) ({ d with rcd := { d.rcd with waiting := [] } } : Dev)
    if d1.rcd.closeDue then d1.recClose else d1

/-- freeze_host written. -/
def Dev.freezeHost (d : Dev) (on : Bool) : Dev :=
  if on then (({ d with rcd := { d.rcd with freezeHost := some (d.rcd.freezeHost.getD d.timeUs) } } : Dev).setField 0x02F00100 0 0 1)
  else (({ d with rcd := { d.rcd with freezeHost := none } } : Dev).setField 0x02F00100 0 0 0).recRelease
/-- MGMT_FREEZE: freeze_mgmt set or cleared through the management port, in every mode but Off and Ember. -/
def Dev.mgmtFreeze (d : Dev) (t : Nat) (on : Bool) : Dev :=
  let d0 := d.at t
  if d0.pwr.mode < 2 ∧ ¬ d0.start.stage ≠ 0 then d0
  else if on then (({ d0 with rcd := { d0.rcd with freezeMgmt := some (d0.rcd.freezeMgmt.getD d0.timeUs) } } : Dev).setField 0x02F00100 1 1 1)
  else (({ d0 with rcd := { d0.rcd with freezeMgmt := none } } : Dev).setField 0x02F00100 1 1 0).recRelease

/-- FREEZE_EXPIRY: a bit clears itself 10 s after it was set. -/
def Dev.freezeExpiry (d : Dev) (t : Nat) : Dev :=
  let d0 := d.at t
  let old := fun (o : Option Nat) => match o with | some u => decide (u + 10000000 ≤ d0.timeUs) | none => false
  let d1 := if old d0.rcd.freezeHost then d0.freezeHost false else d0
  if old d1.rcd.freezeMgmt then (({ d1 with rcd := { d1.rcd with freezeMgmt := none } } : Dev).setField 0x02F00100 1 1 0).recRelease else d1

/-- Ember and Off entry, Banked entry and FW_ACTIVATE close the accumulators; all but Banked entry clear both freeze bits first (R602, R604). -/
def Dev.recForce (d : Dev) : Dev :=
  (((({ d with rcd := { d.rcd with freezeHost := none, freezeMgmt := none } } : Dev).setField 0x02F00100 1 0 0).recRelease)).recClose

/-! ### Clocks (R600, R603) -/

/-- REC_WALLCLOCK: the base, with a CLOCK_STEP record when it jumps by more than 2,000 ms. -/
def Dev.setWall (d : Dev) (v : Int) : Dev :=
  let d1 : Dev := { d with rcd := { d.rcd with wall := some (v, d.timeUs) } }
  match d.wallMs with
  | some w => if 2000 < v - w ∨ 2000 < w - v then d1.recNow 0x09 0 (int64 w ++ int64 v) else d1
  | none => d1

/-- OPERATING_SECOND (R600, R602): the count, the residency of the modes, and the hourly close. -/
def Dev.operatingSecond (d : Dev) (t : Nat) : Dev :=
  let d0 := d.at t
  if !d0.pwr.aonGood then d0
  else
    let n := (d0.opSec + 1) % 2 ^ 40
    let a := d0.rcd.acc
    let b : RecAcc := { a with
      residency := tabUpd 0 a.residency d0.pwr.mode (· + 1)
      parkedS := a.parkedS + d0.parkedHearths.length
      clampS := a.clampS + b2n d0.pwr.clamp }
    { d0 with opSec := n, rcd := { d0.rcd with acc := b, closeDue := d0.rcd.closeDue || n % 3600 == 0 } }

/-- QUEUE_DEPTH_SAMPLE (Table 21.9, kind 2): the commands outstanding on a port, each 1 ms. -/
def Dev.depthSample (d : Dev) (t port : Nat) : Dev :=
  let d0 := d.at t
  let n := ((d0.host.qps.filter (fun p => portOf (p.1 / 8192) == port % 2)).map (fun p => p.2.cmds.length)).sum
  let bin := min 17 (if n = 0 then 0 else Nat.log2 n + 1)
  let a := d0.rcd.acc
  { d0 with rcd := { d0.rcd with acc := { a with
    depth := tabUpd {} a.depth (port % 2) (fun x => { bins := tabUpd 0 x.bins bin (· + 1), samples := x.samples + 1, most := max x.most n }) } } }

/-- The highest operating seconds in the archive. -/
def archHighest (r : RecSt) : Nat :=
  (r.sectors.map (fun p => match p.2 with | some (_, l) => (l.map (fun b => fieldAt b 0x10 8)).foldl max 0 | none => 0)).foldl max 0

/-- AON_POWER_GOOD (R600, R624): VDD_AON has returned. The always-on SRAM and registers hold nothing of what they held; how many records were
lost is a free value. -/
def Dev.aonPowerGood (d : Dev) (t : Nat) : Dev :=
  let d0 := d.at t
  if d0.pwr.sysGood then d0
  else
    let (n, d1) := d0.draw
    let k := n.toNat % 2 ^ 32
    let r := d1.rcd
    let op := max d1.start.recOp (archHighest r) + 1
    let d2 : Dev := { d1 with
      opSec := op
      regs := d1.regs.filter (fun p => decide (p.1 < 0x02C10000) || decide (0x02F40000 ≤ p.1))
      cwCount := d1.cwCount.filter (fun p => decide (p.1 < 0x02C10000) || decide (0x02F40000 ≤ p.1))
      rcd := { sectors := r.sectors, sector := r.sector, sectorSeq := r.sectorSeq, seq := r.seq, start := op, acc := { base := d1.tally } }
      sec := { d1.sec with latchA := false, latchB := false }
      start := { d1.start with tripLatch := false, cause := 0 }
      pwr := { d1.pwr with aonGood := true, ember := false, offRdy := false } }
    (d2.bump 0x02F00120 k).recRing 0x0A 0 0 (natLE 4 k ++ natLE 1 3)

end Sys2Proof.Machine
end

