-- ==== Sys2Proof/Machine/Start.lean ====
section
/-!
DEFINITION. Sys2Proof/Machine/Start.lean: start attempts, their stages, failed starts and Banked mode, and the device's stop
(19_start_banked.md, R586).
-/
namespace Sys2Proof.Machine

/-! ### The start record and its reasons (R549, R550, R553) -/

/-- The start record written to the always-on SRAM and to both flashes. -/
def Dev.writeStart (d : Dev) : Dev := { d with start := { d.start with seq := (d.start.seq + 1) % 2 ^ 32, recOp := d.opSec } }

/-- The 64 bytes of the start record (Table 19.2). -/
def Dev.startBytes (d : Dev) : Bytes :=
  let s := d.start
  let b := natLE 4 0x51E90B57 ++ natLE 4 s.seq ++ natLE 1 s.failures ++ natLE 1 (b2n s.open_) ++ natLE 1 s.stage ++ natLE 1 s.slot ++
    ([0, 1, 2].map (fun i => natLE 2 (s.reasons.getD i 0))).flatten ++ zeros 2 ++ natLE 4 d.cycles ++ natLE 8 (s.recOp % 2 ^ 40) ++ zeros 28
  b ++ natLE 4 (crc32c b).toNat

/-- What the UART console prints: stage numbers and reason codes (DESIGN CHOICE, notes/assumptions/78.md). -/
def Dev.print (d : Dev) (n : Nat) : Dev := { d with pins := { d.pins with uart := d.pins.uart ++ [n] } }

/-- START_TIMES: milliseconds by stage, and the total. -/
def Dev.showTimes (d : Dev) : Dev :=
  let d1 := (List.range 7).foldl (fun (d : Dev) i => d.setReg (0x02D00010 + 4 * i) (BitVec.ofNat 32 (d.start.times.getD i 0))) d
  d1.setReg 0x02D0002C (BitVec.ofNat 32 d1.start.total)

/-- The START record of an attempt (Table 21.9): its reason, 0 for none; an attempt after a stop (R586) carries the stop's cause (DEDUCED, notes/assumptions/79.md). -/
def Dev.startRecord (d : Dev) (reason : Nat) : Dev :=
  let c := d.start.cause
  let (n, d1) := if c = 0 ∨ c = 1 ∨ c = 4 ∨ c = 5 then ((0 : BitVec 64), d) else d.draw
  let why := if c = 0 then reason else if reason ≠ 0 then reason else if c = 5 then 8 else if c = 1 ∨ c = 4 then 5 else n.toNat % 256
  let body := natLE 2 why ++ natLE 1 d1.start.failures ++ natLE 1 d1.start.slot ++
    ((List.range 7).map (fun i => natLE 4 (d1.start.times.getD i 0))).flatten ++ natLE 4 d1.start.total
  ({ d1 with start := { d1.start with cause := 0 } } : Dev).recNow 0x08 0 body

/-- A failed start counted: failures, reasons newest first, and the record. -/
def Dev.countFailed (d : Dev) (reason : Nat) : Dev :=
  let s := d.start
  let d1 : Dev := { d with start := { s with
    failures := min 3 (s.failures + 1), reasons := (reason :: s.reasons).take 3, open_ := false, failed := satAdd 32 s.failed 1, before := s.before + 1 } }
  (d1.startRecord reason).writeStart.print reason

/-! ### Banked mode (R552, R554) -/

/-- BANKED_ENTRY: the domains of Table 18.2, port A at ×4, and the mailbox of PF0. The accumulators are closed, unless a freeze defers it. -/
def Dev.bankedEntry (d : Dev) : Dev :=
  let d1 := if d.rcd.frozen then { d with rcd := { d.rcd with closeDue := true } } else d.recClose
  let d2 := d1.coldState
  let d3 : Dev := { d2 with
    pwr := { d2.pwr with mode := 2, limit := 18 }
    start := { d2.start with banked := true, open_ := false, stage := 0, retry := false, single := false } }
  let d4 := (List.range 72).foldl (fun d n => d.setDomain n (d.domTarget 2 0 n)) d3
  (d4.writeStart).mboxUpd 0 (fun m => { m with ready := true })

/-! ### Attempts (R546, R549 to R551) -/

/-- The state of a slot: 2 is valid (R476). -/
def Dev.slotState (d : Dev) (s : Nat) : Nat := if s = 0 then d.mail.fwA.state else d.mail.fwB.state
def Dev.slotFw (d : Dev) (s : Nat) : FwSlot := if s = 0 then d.mail.fwA else d.mail.fwB

/-- A stage begins: it is printed and the record is written. -/
def Dev.beginStage (d : Dev) (n : Nat) : Dev :=
  (({ d with start := { d.start with stage := n, began := d.timeUs } } : Dev).writeStart).print n

/-- An attempt begins at a stage. `slot` is the slot that FW_ACTIVATE named in Banked mode (DEDUCED, notes/assumptions/130.md). -/
def Dev.beginAttempt (d : Dev) (stage : Nat) (slot : Option Nat) : Dev :=
  let d1 := d.coldState
  let boot := d1.mail.boot
  let other := slot.isNone && d1.start.failures == 2 && d1.regField 0x02D00038 0 0 == 1 && d1.slotState (1 - boot) == 2
  let use := match slot with | some s => s | none => if other then 1 - boot else boot
  let ember := d1.start.ember
  let d2 : Dev := { d1 with
    cycles := if stage = 1 then (d1.cycles + 1) % 2 ^ 32 else d1.cycles
    start := { d1.start with
      open_ := true, banked := false, retry := false, slot := use, fallback := other, single := slot.isSome, times := [], total := 0, opened := d1.timeUs
      full := !ember, reused := false, tripLatch := false, bankNext := false }
    sec := { d1.sec with wipes := d1.sec.wipes + b2n d1.sec.wipeDue, wipeDue := false } }
  let d2a : Dev := if stage = 1 then
      { d2 with regs := d2.regs.filter (fun p => !(decide (0x03100000 ≤ p.1) && decide (p.1 < 0x03100048))), mail := { d2.mail with claims := [] } }
    else d2
  let d3 := [69, 70, 71].foldl (fun (d : Dev) n => d.setDomain n 2) d2a
  d3.beginStage stage

/-- The bound of a stage in µs (Table 19.1). -/
def stageBound (stage : Nat) (ember reuse : Bool) : Nat :=
  1000 * (if ember then [0, 400, 100, 300, 600, 300, 300].getD (stage - 1) 0
    else if stage = 4 && reuse then 1000 else [500, 2000, 1000, 20000, 12000, 5000, 4500].getD (stage - 1) 0)

/-- A stage fails (R546, R550 to R552): below three failures the next attempt waits, and the third, or a failure of a single attempt, enters
Banked mode. -/
def Dev.startFail (d : Dev) (cause : Nat) : Dev :=
  let s := d.start
  let ms := (d.timeUs - s.began) / 1000
  let d0 := ({ d with start := { s with times := s.times ++ [ms], total := (d.timeUs - s.opened) / 1000 } } : Dev).showTimes
  let d1 := d0.countFailed (256 * s.stage + cause)
  if s.single ∨ 3 ≤ d1.start.failures then ({ d1 with start := { d1.start with failures := 3 } } : Dev).bankedEntry
  else
    let d2 := d1.coldState
    { d2 with start := { d2.start with retry := true, stage := s.stage }, host := { d2.host with links := d2.host.links.map (fun p => (p.1, { p.2 with up := false })) } }

/-- A lost attempt found open at power-on (R550). -/
def Dev.countLost (d : Dev) : Dev :=
  if d.start.open_ then
    let d1 := d.countFailed (256 * d.start.stage + (if d.start.tripLatch then 7 else 9))
    if d.start.single then { d1 with start := { d1.start with failures := 3 } } else d1
  else d

/-- START_ATTEMPT: SYS_PWRGD rises while AON_PWRGD is high, or the exit from Ember begins at stage 2 (R546, R624, R625). -/
def Dev.startAttempt (d : Dev) (t : Nat) : Dev :=
  let d0 := d.at t
  if !d0.pwr.aonGood then d0
  else if d0.start.ember then
    let d1 : Dev := { d0 with pwr := { d0.pwr with sysGood := true, trip := false } }
    let d2 := d1.beginAttempt 2 none
    { d2 with start := { d2.start with ember := false } }
  else if d0.pwr.sysGood then d0
  else
    let d1 : Dev := { d0 with pwr := { d0.pwr with sysGood := true, trip := false } }
    let d2 := if d0.pwr.trip then d1.send (.pin 0 1) else d1
    let d3 := d2.countLost.beginAttempt 1 none
    { d3 with start := { d3.start with bankNext := decide (3 ≤ d3.start.failures) } }

/-- START_RETRY: within 1 s of a detected failure the next attempt begins at stage 1. -/
def Dev.startRetry (d : Dev) (t : Nat) : Dev :=
  let d0 := d.at t
  if d0.start.retry && d0.pwr.sysGood then d0.beginAttempt 1 none else d0

/-! ### What the stages do (R546) -/

/-- The fused minimum and the life cycle refuse a slot (R546, R559, R568). -/
def Dev.stageRefuses (d : Dev) (n : Nat) (f : StageIn) : Nat :=
  match n with
  | 1 => if d.sec.lifecycle = 0 ∨ d.sec.lifecycle = 5 then 0x0B else f.cause
  | 2 => if d.slotState d.start.slot ≠ 2 then 3 else if (d.slotFw d.start.slot).svn < d.sec.svnMin then 2 else f.cause
  | 3 => if (List.range hearthCount).all (fun h => f.hearths.contains h || (d.hearth h).quenched) then 1 else f.cause
  | 4 =>
    let ok := fun (lo : Nat) => f.units.any (fun u => decide (u.u / 4 = lo) && u.ok && !d.health.unitsFenced.contains u.u)
    if !ok 0 || !ok 1 then 6 else f.cause
  | 6 => 0
  | _ => f.cause

/-- Stage 3: failing hearths are quenched, and up to 32 are enabled for pipeline work (R22) (DESIGN CHOICE, notes/assumptions/68.md). -/
def Dev.stageHearths (d : Dev) (bad : List Nat) : Dev :=
  let d1 := bad.foldl (fun (d : Dev) h => d.quench h) d
  ((List.range hearthCount).filter (fun h => !(d1.hearth h).quenched)).take 32 |>.foldl (fun (d : Dev) h => d.hearthUpd h (fun x => { x with on := true })) d1

/-- Stage 4: units that do not train are fenced; the address orders of MEM_MAP come into force (R365, R366, R370). -/
def Dev.stageMemory (d : Dev) (f : StageIn) : Dev :=
  let force := d.regField 0x02D00038 1 1 == 1
  let reuse := f.reuse && !force
  let d1 := f.units.foldl (fun (d : Dev) u =>
    if 8 ≤ u.u then d
    else
      let d1 := d.memUnitUpd u.u (fun m => { m with gb := if u.u < 4 then Config.stackGb else u.gb, rk := u.rk, x4 := u.x4, state := 2 })
      if d.health.unitsFenced.contains u.u then d1.memUnitUpd u.u (fun m => { m with state := 3 })
      else if u.ok then d1 else d1.fenceUnit u.u) d
  let map := d1.regN 0x02610000
  let d2 : Dev := { d1 with
    mem := { d1.mem with hbmOrder := map % 4, ddrOrder := map / 4 % 4 }
    start := { d1.start with reused := reuse } }
  (d2.setReg 0x02610000 (BitVec.ofNat 32 (map % 16 + 16 * (map % 16)))).setField 0x02D00038 1 1 (if reuse then b2n force else 0)

/-- Stage 5: the drives that are ready are identified; a member that is not there leaves its group without a rebuild (DESIGN CHOICE, notes/assumptions/55.md). -/
def Dev.stageDrives (d : Dev) (f : StageIn) : Dev :=
  let d1 := f.drives.foldl (fun (d : Dev) k =>
    (d.driveUpd k.i (fun x => { x with present := true, power := true, refclk := true, perst := false, state := 1 })).driveUp k.i k.speed k.width k.why k.blocks k.nguid k.label) d
  { d1 with store := { d1.store with groups := d1.store.groups.map (fun g => { g with
      failed := g.failed ++ ((List.range g.members.length).filter (fun p => !g.failed.contains p && !(d1.drive (g.members.getD p 0)).link)) }) } }

/-- The replay of an owned table space whose home group has k live members (R432, R595): records found valid are applied, the others are
abandoned, and its epochs go on after its reserve (DEDUCED, notes/assumptions/54.md). -/
def Dev.replaySpace (d : Dev) (f : StageIn) (ts : Nat) : Dev :=
  match d.space ts with
  | none => d
  | some s =>
    if !s.replay || d.spaceDown s then d
    else
      let mine := (d.store.commits.filter (fun c => c.ts == ts)).mergeSort (fun a b => decide (a.epoch ≤ b.epoch))
      let r := max s.reserved (match f.reserves.find? (fun p => p.1 == ts) with | some p => p.2 | none => 0)
      let d1 := d.spaceUpd ts (fun s => { s with open_ := mine.map (·.epoch), replay := false, reserved := r })
      let d2 := mine.foldl (fun d c =>
        if f.valid.contains (c.ts, c.epoch) then
          let d1 := d.applyRec c
          ({ d1 with store := { d1.store with commits := d1.store.commits.filter (fun k => !(k.ts == ts && k.epoch == c.epoch)) } } : Dev)
        else d.abandonCommit c) d1
      (d2.spaceUpd ts (fun s => let s1 : TSpace := { s with lastEpoch := max s.lastEpoch r }; { s1 with visible := max s.visible s1.visibleNow })).raiseFloor ts

/-- Replay of every owned ring that can be read; what the partner owns it keeps itself. -/
def Dev.replayOwned (d : Dev) (f : StageIn) : Dev :=
  let d0 : Dev := { d with store := { d.store with spaces := d.store.spaces.map (fun s =>
    match f.owners.find? (fun p => p.1 == s.id) with | some p => { s with owner := p.2 } | none => s) } }
  d0.store.spaces.foldl (fun d s =>
    if s.owner = d.twin.pos then d.replaySpace f s.id
    else
      let d1 : Dev := { d with store := { d.store with commits := d.store.commits.filter (fun c => c.ts != s.id) } }
      d1.spaceUpd s.id (fun s => { s with replay := false })) d0

/-- Table spaces whose removal had committed leave the catalog (R46, R462). -/
def Dev.finishRemovals (d : Dev) : Dev :=
  (d.store.spaces.filter (fun s => s.deleting)).foldl (fun (d : Dev) s =>
    if d.store.commits.any (fun c => c.ts == s.id) then d
    else let d1 := d.dropSpace s.id; if s.key = 0 then d1.dissolve true else d1) d

/-- Stage 7: the device is in service in Idle mode. `take` runs a doorbell held since before service (R451, R547). -/
def Dev.stageService (d : Dev) (f : StageIn) (take : Dev → Nat → Dev) : Dev :=
  let s := d.start
  let d1 := ((List.range hearthCount).filter (fun h => !(d.hearth h).quenched)).foldl (fun (d : Dev) h => d.loadSys h d.mail.sysTables) (d.replayOwned f).finishRemovals
  let slot := s.slot
  let boot := if s.single ∨ s.fallback then slot else d1.mail.boot
  let d2 : Dev := { d1 with
    mail := { d1.mail with running := slot, boot := boot }
    sec := { d1.sec with svnRun := (d1.slotFw slot).svn }
    pwr := { d1.pwr with mode := 3, limit := modeLimit 3 0 290 }
    start := { d1.start with
      service := true, open_ := false, stage := 0, failures := 0, before := 0, single := false, served := satAdd 32 s.served 1, total := (d1.timeUs - s.opened) / 1000 } }
  let d3 := ((List.range 72).foldl (fun (d : Dev) n => d.setDomain n (d.domTarget 3 0 n)) d2.showTimes).retainBanks (List.range hearthCount)
  let d4 := (d3.startRecord 0).writeStart
  let d5 := [0, 513].foldl (fun (d : Dev) x => d.mboxUpd x (fun m => { m with ready := true })) d4
  let r := fun (i : Nat) => s.reasons.getD i 0
  let d6 := if s.before = 0 then d5 else d5.eventPf 0x0140 s.before (r 0 + 65536 * r 1 + 2 ^ 32 * r 2)
  let d7 := if s.fallback then d6.eventPf 0x0141 slot 0 else d6
  let d8 := if s.single then d7.event 0 0x0004 0 1 else d7
  [0, 513].foldl take d8.showGroups

/-- The next stage begins, with the time of the last. -/
def Dev.nextStage (d : Dev) : Dev :=
  let s := d.start
  let d1 := ({ d with start := { s with times := s.times ++ [(d.timeUs - s.began) / 1000] } } : Dev).showTimes
  if s.stage < 7 then d1.beginStage (s.stage + 1) else d1

/-- STAGE_COMPLETE: the stage that runs ends with what it found, or a failure is counted. At a power-on with three failures in the record,
Banked mode follows stage 1. -/
def Dev.stageComplete (d : Dev) (t : Nat) (f : StageIn) (take : Dev → Nat → Dev) : Dev :=
  let d0 := d.at t
  let n := d0.start.stage
  if !d0.start.open_ || n = 0 then d0
  else
    let why := d0.stageRefuses n f
    if why ≠ 0 then d0.startFail why
    else if n = 1 ∧ d0.start.bankNext then ({ d0 with start := { d0.start with open_ := false } } : Dev).bankedEntry
    else
      let d1 := match n with
        | 3 => d0.stageHearths f.hearths
        | 4 => d0.stageMemory f
        | 5 => d0.stageDrives f
        | _ => d0
      let d2 := d1.nextStage
      if n = 7 then d2.stageService f take else d2

/-- STAGE_TIMEOUT: a stage past its bound fails with TIMEOUT; stage 6 ends instead (R548). `reuse` tells that stage 4 reuses saved training. -/
def Dev.stageTimeout (d : Dev) (t : Nat) (reuse : Bool) : Dev :=
  let d0 := d.at t
  let s := d0.start
  let saved := reuse && d0.regField 0x02D00038 1 1 == 0
  let short := !s.full && (s.stage < 4 || s.reused || (s.stage == 4 && saved))
  if !s.open_ || s.stage = 0 || d0.timeUs < s.began + stageBound s.stage short saved then d0
  else if s.stage = 6 then d0.nextStage
  else d0.startFail 4

/-- FW_ACTIVATE in Banked mode: a single attempt at stage 2 from a valid slot (R556). -/
def Dev.bankedActivate (d : Dev) (slot : Nat) : Dev := if d.start.banked && d.slotState slot == 2 then d.beginAttempt 2 (some slot) else d

/-! ### The device stops (R586, R622, R625, R627, R629) -/

/-- Bellows stops the device: every domain except AON is removed. Causes: 1 control processor, 2 security block, 3 network-on-chip, 4
watchdog, 5 supply, 6 reference clock. -/
def Dev.stopDevice (d : Dev) (cause : Nat) : Dev :=
  let d1 := d.coldState
  { d1 with pwr := { d1.pwr with stopped := some cause }, start := { d1.start with cause := cause, banked := false, retry := false } }

/-- DEVICE_STOP. A control-processor fault or its watchdog during a start attempt fails the stage (Table 19.3). -/
def Dev.deviceStop (d : Dev) (t cause : Nat) : Dev :=
  let d0 := d.at t
  if !d0.pwr.sysGood || d0.pwr.stopped.isSome || cause = 0 || 4 < cause then d0
  else if d0.start.open_ && (cause = 1 || cause = 4) then d0.startFail 5
  else d0.stopDevice cause

/-- POWER_LOSS: SYS_PWRGD falls, and nothing more leaves the part. -/
def Dev.powerLoss (d : Dev) (t : Nat) : Dev :=
  let d0 := d.at t
  if !d0.pwr.sysGood then d0
  else
    let keep := d0.pwr
    let d1 := d0.coldState
    { d1 with
      pwr := { d1.pwr with sysGood := false, ember := keep.ember, mode := if keep.mode = 1 then 1 else 0 }
      start := { d1.start with banked := false, retry := false } }

/-- VR_PG_FALL: VR_PG_CORE falls while SYS_PWRGD is high (R622). -/
def Dev.vrPgFall (d : Dev) (t : Nat) : Dev :=
  let d0 := d.at t
  if !d0.pwr.sysGood || d0.pwr.stopped.isSome then d0
  else if d0.start.open_ then d0.startFail 8
  else if d0.start.service then d0.stopDevice 5
  else d0

/-- THERMTRIP (R540, R627): the clocks of every switched domain stop, and the latch waits for the next attempt. -/
def Dev.thermTrip (d : Dev) (t : Nat) : Dev :=
  let d0 := d.at t
  if !d0.pwr.sysGood || d0.pwr.trip then d0
  else
    let d1 := d0.coldState
    ({ d1 with pwr := { d1.pwr with trip := true }, start := { d1.start with tripLatch := true, banked := false, retry := false } } : Dev).send (.pin 0 0)

/-- TELEMETRY_LOST (R623): a rail has answered no read for 1 ms. -/
def Dev.telemetryLost (d : Dev) (t rail : Nat) : Dev :=
  let d0 := d.at t
  let last := (tabGet (0, 0) d0.pwr.railLast rail).2
  if supplies.length ≤ rail || d0.pwr.rails.contains rail || d0.timeUs + 1 < last + 1000 then d0
  else ({ d0 with pwr := { d0.pwr with rails := d0.pwr.rails ++ [rail] } } : Dev).eventPf 0x0170 rail 0

end Sys2Proof.Machine
end

