-- ==== Sys2Proof/Machine/Security.lean ====
section
/-!
DEFINITION. Sys2Proof/Machine/Security.lean: the security block: life cycle, tokens, keys, SPDM and IDE, tamper (20_security_debug.md).
-/
namespace Sys2Proof.Machine

/-! ### Who asks, and the answers (R571, R577) -/

/-- The current owner slot: the last one burnt, unless it has been revoked (R561). -/
def SecSt.ownerSlot (s : SecSt) : Option Nat := match s.owners.getLast? with | some (_, false) => some (s.owners.length - 1) | _ => none
/-- The digest of the current owner slot. -/
def SecSt.owner (s : SecSt) : Option Bytes := match s.owners.getLast? with | some (d, false) => some d | _ => none

def Dev.session (d : Dev) (n : Nat) : Option SecSession := d.sec.sessions.find? (fun s => s.num == n)

/-- The security block runs: its domain is powered (R554, R577). -/
def Dev.secOn (d : Dev) : Bool := d.pwr.sysGood && d.pwr.stopped.isNone && !d.pwr.trip && (d.start.stage != 0 || decide (2 ≤ d.pwr.mode))

/-- The response to a security message: status, reason, payload. -/
def secResponse (status reason : Nat) (payload : Bytes) : Bytes := natLE 2 status ++ natLE 2 reason ++ payload
def Dev.secAnswer (d : Dev) (s : SecSession) (code status reason : Nat) (payload : Bytes) : Dev :=
  d.send (.spdm s.transport code (secResponse status reason payload))
/-- A refusal (R577). -/
def Dev.secRefuse (d : Dev) (s : SecSession) (code reason : Nat) : Dev := d.secAnswer s code 0x6002 reason []

/-! ### Wipes and key withdrawal (R379, R575, R579) -/

/-- A charge on some hearth, or a READ_PAGES whose reads are out, uses the key of a table space. -/
def Dev.keyInUse (d : Dev) (ref : Nat) : Bool :=
  let mine := fun (ts : Nat) => match d.space ts with | some s => s.key == ref | none => false
  (List.range hearthCount).any (fun h => match (d.hearth h).running with
    | some r => (match d.query r.query, d.charge r with | some q, some c => mine q.ts && d.usesKey q r.stage c | _, _ => false)
    | none => false) ||
  d.host.pageJobs.any (fun j => match d.cmd j.x j.q j.cid with | some c => mine c.ts | none => false)

/-- KEY_UNLOAD is answered, and its key goes, once no step uses it. -/
def Dev.keyGone (d : Dev) : Dev :=
  d.sec.keys.foldl (fun (d : Dev) k =>
    match k.going with
    | some n =>
      if d.keyInUse k.ref then d
      else
        let d1 : Dev := { d with sec := { d.sec with keys := d.sec.keys.filter (fun j => j.ref != k.ref) } }
        (match d1.session n with | some s => d1.secAnswer s 4 0 0 [] | none => d1)
    | none => d) d

/-- Commits of the table spaces that some keys open are abandoned before their point of no return (R575). -/
def Dev.withdrawKeys (d : Dev) (refs : List Nat) : Dev :=
  let mine := fun (ts : Nat) => match d.space ts with | some s => refs.contains s.key | none => false
  ((d.store.commits.filter (fun c => mine c.ts && (c.st == .asking || c.st == .writing || c.st == .mirrored))).foldl
    (fun d c => d.failCommit c { status := 0x6003 }) d).closeCommits

/-- A wipe of the secure SRAM; `ok` tells that every word reads back as zero. -/
def Dev.wipe (d : Dev) (ok : Bool) : Dev :=
  let refs := d.sec.keys.map (·.ref)
  let d1 : Dev := { d with sec := { d.sec with
    keys := [], nonce := none, sessions := [], ide := [], wipes := min 0xFFFF (d.sec.wipes + 1), wipeFail := d.sec.wipeFail || !ok } }
  let d2 := d1.withdrawKeys refs
  if ok then d2 else d2.eventPf 0x0151 0 0

/-- A debug level set; below INVASIVE a halted processor runs on (Table 20.7). -/
def Dev.setDebug (d : Dev) (n : Nat) : Dev := { d with sec := { d.sec with debug := n, halted := d.sec.halted && n == 2 } }

/-! ### Tokens (R564 to R566, Table 20.3) -/

/-- 32 random bytes. NONCE_GET. -/
def Dev.nonceGet (d : Dev) (s : SecSession) : Dev :=
  let (b, d1) := d.drawBytes 32
  ({ d1 with sec := { d1.sec with nonce := some b } } : Dev).secAnswer s 1 0 0 b

/-- The transitions of Table 20.2 that a signer may authorize (0 Fjoholt, 1 owner). -/
def mayMove (from_ dest signer : Nat) : Bool :=
  match from_, dest with
  | 0, 1 => signer == 0
  | 1, 2 => signer == 0
  | 2, 3 => decide (signer < 2)
  | 3, 2 => signer == 1
  | 3, 4 => signer == 1
  | 3, 5 => signer == 1
  | 1, 5 => signer == 0
  | 2, 5 => signer == 0
  | 4, 5 => signer == 0
  | _, _ => false

/-- The debug levels of Table 20.7 that a signer may set in a state. In BLANK and RETIRED the refusal is STATE (R583), so it is left to the
last check. -/
def mayDebug (state level signer : Nat) : Bool :=
  decide (level < 3) &&
  match state with
  | 0 => decide (signer < 2)
  | 1 => signer == 0
  | 2 => signer == 0
  | 3 => signer == 1
  | 4 => if level = 2 then signer == 0 else decide (signer < 2)
  | 5 => decide (signer < 2)
  | _ => false

/-- What R563 forbids a transition out of DEPLOYED for. -/
def Dev.holdsWork (d : Dev) : Bool :=
  d.store.spaces.any (fun s => d.twin.alone || s.owner == d.twin.pos) || !d.sec.keys.isEmpty || d.host.qps.any (fun p => p.2.state != .disabled) ||
    !d.runningOps.isEmpty || d.adoptMap.any (fun p => bitOf p.2 31)

/-- The first check of R566 that a token fails, as its reason. -/
def Dev.tokenFault (d : Dev) (tok : Bytes) : Option Nat :=
  let f := fun (o n : Nat) => fieldAt tok o n
  let key := (tok.drop 0x40).take 96
  let digest := sha 1 key
  let kind := f 5 1
  let target := f 6 1
  let signer := f 7 1
  let st := d.sec.lifecycle
  let format := tok.length == 256 && f 0 4 == 0x51E970CE && f 4 1 == 1 && (kind == 1 || kind == 2) && f 0x31 15 == 0
  let known := if signer = 0 then digest == Config.romKey (f 0x30 1 % 8) && decide (f 0x30 1 < 8)
    else signer == 1 && f 0x30 1 == 0 && ((kind == 1 && st == 2 && target == 3) || d.sec.owner == some digest)
  let allowed := if kind = 1 then mayMove st target signer else mayDebug st target signer
  let ready := if kind = 1 then (if st = 2 ∧ target = 3 then decide (d.sec.owners.length < 4) else if st = 3 then !d.holdsWork else true)
    else !(st == 0 || st == 5)
  if !format then some 8
  else if f 8 8 ≠ Config.serial then some 7
  else if d.sec.nonce ≠ some ((tok.drop 0x10).take 32) then some 3
  else if !known || !allowed then some 2
  else if !ecdsaVerify key (tok.take 0xA0) ((tok.drop 0xA0).take 96) then some 4
  else if !ready then some 1
  else none

/-- The fuses of a transition (Table 20.2) (DEDUCED, notes/assumptions/86.md). -/
def SecSt.burn (s : SecSt) (dest : Nat) (digest : Bytes) : SecSt :=
  { s with
    lifecycle := dest
    owners := if dest = 3 then s.owners ++ [(digest, false)]
      else if dest = 2 ∧ s.lifecycle = 3 then s.owners.dropLast ++ (s.owners.drop (s.owners.length - 1)).map (fun o => (o.1, true)) else s.owners
    lost := s.lost || dest == 5 }

/-- LIFECYCLE_TRANSITION (R562): the wipe, the fuses, and a start attempt at stage 1. -/
def Dev.transition (d : Dev) (dest : Nat) (digest : Bytes) (ok : Bool) : Dev :=
  let d1 := d.wipe ok
  if !ok then d1 else ({ d1 with sec := d1.sec.burn dest digest } : Dev).beginAttempt 1 none

/-- A debug token takes effect; entry to INVASIVE stops a paired twin and wipes first (R582). -/
def Dev.unlock (d : Dev) (level : Nat) (ok : Bool) : Dev :=
  let d0 : Dev := { d with sec := { d.sec with unlocks := satAdd 32 d.sec.unlocks 1 } }
  if level = 2 then
    let d1 := if d0.twin.state = 3 then d0.standDown false else d0
    (d1.wipe ok).setDebug 2
  else d0.setDebug level

/-- TOKEN_APPLY. The first one that presents the nonce consumes it. `ok` is the outcome of the wipe that the token brings, if any. -/
def Dev.tokenApply (d : Dev) (s : SecSession) (tok : Bytes) (ok : Bool) : Dev :=
  if d.sec.wipeFail then d.secRefuse s 2 9
  else
    let fault := d.tokenFault tok
    let d1 : Dev := if d.sec.nonce = some ((tok.drop 0x10).take 32) then { d with sec := { d.sec with nonce := none } } else d
    match fault with
    | some r => d1.secRefuse s 2 r
    | none =>
      let kind := fieldAt tok 5 1
      let target := fieldAt tok 6 1
      if kind = 1 then
        (if ok then (d1.secAnswer s 2 0 0 []).transition target (sha 1 ((tok.drop 0x40).take 96)) true
         else (d1.secRefuse s 2 9).transition target [] false)
      else (d1.secAnswer s 2 0 0 []).unlock target ok

/-! ### Keys (R573 to R577) -/

/-- The check value of a key (R573). -/
def keyCheck (key : Bytes) : Bytes := (hmac 1 key ("QE9-KEY-CHECK".toList.map (fun c => BitVec.ofNat 8 c.toNat))).take 8

/-- KEY_LOAD (DEDUCED, notes/assumptions/87.md). -/
def Dev.keyLoad (d : Dev) (s : SecSession) (ref : Nat) (key : Bytes) : Dev :=
  let check := keyCheck key
  if s.auth ≠ 1 then d.secRefuse s 3 2
  else if d.sec.lifecycle ≠ 3 ∨ d.sec.debug = 2 then d.secRefuse s 3 1
  else if d.sec.wipeFail then d.secRefuse s 3 9
  else if ref = 0 ∨ 0xFFFFFFFF < ref ∨ key.length ≠ 64 ∨ key.take 32 = key.drop 32 then d.secRefuse s 3 8
  else match d.sec.keys.find? (fun k => k.ref == ref) with
    | some k => if k.check = check ∧ k.going.isNone then d.secAnswer s 3 0 0 [] else d.secRefuse s 3 (if k.check = check then 1 else 5)
    | none =>
      if d.store.spaces.any (fun p => p.key == ref && p.keyCheck != check) then d.secRefuse s 3 5
      else if 4096 ≤ d.sec.keys.length then d.secRefuse s 3 6
      else ({ d with sec := { d.sec with keys := d.sec.keys ++ [{ ref := ref, check := check, key := key }] } } : Dev).secAnswer s 3 0 0 []

/-- KEY_UNLOAD: the key is withdrawn; the answer waits for the steps that use it. -/
def Dev.keyUnload (d : Dev) (s : SecSession) (ref : Nat) : Dev :=
  if s.auth ≠ 1 then d.secRefuse s 4 2
  else if !d.sec.keys.any (fun k => k.ref == ref && k.going.isNone) then d.secRefuse s 4 1
  else
    let d1 : Dev := { d with sec := { d.sec with keys := updWhere (fun k => k.ref == ref) (fun k => { k with going := some s.num }) d.sec.keys } }
    (d1.withdrawKeys [ref]).keyGone

/-- KEY_STATUS: key_ref, check value and bound table space (0: none) of each loaded key. -/
def Dev.keyStatus (d : Dev) (s : SecSession) : Dev :=
  if s.auth ≠ 1 then d.secRefuse s 5 2
  else d.secAnswer s 5 0 0 ((d.sec.keys.map (fun k => natLE 4 k.ref ++ k.check ++
    natLE 4 (match d.store.spaces.find? (fun p => p.key == k.ref) with | some p => p.id | none => 0))).flatten)

/-- SVN_COMMIT (R569). -/
def Dev.svnCommit (d : Dev) (s : SecSession) : Dev :=
  let l := d.sec.lifecycle
  if !((l = 3 ∧ s.auth = 1) ∨ ((l = 1 ∨ l = 2) ∧ s.auth = 2)) then d.secRefuse s 6 (if l = 1 ∨ l = 2 ∨ l = 3 then 2 else 1)
  else if d.start.failures ≠ 0 then d.secRefuse s 6 1
  else ({ d with sec := { d.sec with svnMin := max d.sec.svnMin d.sec.svnRun } } : Dev).secAnswer s 6 0 0 []

/-- DEBUG_LOCK (R581). -/
def Dev.debugLock (d : Dev) (s : SecSession) : Dev := if d.sec.lifecycle = 0 then d.secRefuse s 7 1 else (d.setDebug 0).secAnswer s 7 0 0 []

/-! ### SPDM and IDE (R570 to R572, Table 20.5) -/

/-- A requester's standing in its session, by the root key digest of its chain: owner-authenticated, Fjoholt-rooted, or neither. -/
def Dev.authOf (d : Dev) (root : Bytes) : Nat := if d.sec.owner = some root then 1 else if (List.range 8).any (fun i => Config.romKey i == root) then 2 else 0

/-- The measurement blocks (Table 20.5). -/
def Dev.measurement (d : Dev) (i : Nat) : Bytes :=
  let im := (d.slotFw d.start.slot).image
  let body := ceilDiv (0x1000 + fieldAt im 0x0C 4) 4096 * 4096
  match i with
  | 1 => Config.romDigest
  | 2 => sha 1 (im.take 0x1000)
  | 3 => sha 1 ((im.drop body).take 0x1000)
  | 4 => natLE 1 d.sec.lifecycle ++ natLE 1 d.sec.debug ++ natLE 1 d.sec.svnMin ++ natLE 1 (d.sec.ownerSlot.getD 7)
  | 5 => natLE 8 ((d.pipeHearths.map (2 ^ ·)).sum) ++ natLE 1 ((d.health.unitsFenced.map (2 ^ ·)).sum)
  | _ => []

/-- SPDM_REQUEST on a transport. RETIRED answers none, since its identity is lost (Table 20.2). -/
def Dev.spdmRequest (d : Dev) (t tr : Nat) (r : SpdmReq) : Dev :=
  let d0 := d.at t
  if !d0.secOn || d0.sec.lost || 3 ≤ tr then d0
  else match r with
    | .certificate slot => d0.send (.spdm tr 0x02 (if slot = 0 then Config.deviceCert else if slot = 1 then d0.sec.cert1 else []))
    | .challenge nonce => d0.send (.spdm tr 0x03 (Config.identitySign nonce))
    | .measurements i nonce => let m := d0.measurement i; d0.send (.spdm tr 0x60 (m ++ Config.identitySign (m ++ nonce)))
    | .open root =>
      if d0.sec.wipeFail || 4 ≤ (d0.sec.sessions.filter (fun s => s.transport == tr)).length then d0.send (.spdm tr 0x7F (secResponse 0x6002 (if d0.sec.wipeFail then 9 else 1) []))
      else
        let n := d0.sec.nextSession
        let auth := match root with | some b => d0.authOf b | none => 0
        ({ d0 with sec := { d0.sec with sessions := d0.sec.sessions ++ [{ num := n, transport := tr, auth := auth }], nextSession := n + 1 } } : Dev).send (.spdm tr 0x64 (natLE 4 n))
    | .close n => ({ d0 with sec := { d0.sec with sessions := d0.sec.sessions.filter (fun s => !(s.num == n && s.transport == tr)) } } : Dev).send (.spdm tr 0x6C [])
    | .setCertificate n cert =>
      match d0.session n with
      | some s => if s.auth = 1 ∧ d0.sec.lifecycle = 3 then ({ d0 with sec := { d0.sec with cert1 := cert } } : Dev).send (.spdm tr 0x6E []) else d0.secRefuse s 0x6E (if s.auth = 1 then 1 else 2)
      | none => d0

/-- Writes that waited for a stream leave in order (R572). -/
def Dev.ideFlush (d : Dev) (key : Nat) : Dev :=
  let xs := (d.sec.ideStop.filter (fun s => s.1 == key)).map (·.2)
  let held := d.sec.ideHeld.filter (fun h => xs.contains h.1)
  let d1 : Dev := { d with sec := { d.sec with ideStop := d.sec.ideStop.filter (fun s => s.1 != key), ideHeld := d.sec.ideHeld.filter (fun h => !xs.contains h.1) } }
  held.foldl (fun d h => match h.2 with | .hostWrite x a b => d.hostWrite x a b | .vector x v => d.vector x v | o => d.send o) d1

/-- IDE_KM: stream 0 is the port's link stream, 1 to 4 its selective streams; keys come over a session on that port's DOE. -/
def Dev.ideKm (d : Dev) (t n stream : Nat) (on : Bool) : Dev :=
  let d0 := d.at t
  match d0.session n with
  | some s =>
    if !d0.secOn || 2 ≤ s.transport || 5 ≤ stream then d0
    else
      let key := 8 * s.transport + stream
      let d1 : Dev := { d0 with sec := { d0.sec with ide := d0.sec.ide.filter (· != key) ++ (if on then [key] else []) } }
      (if on then d1.ideFlush key else d1).send (.spdm s.transport 0xFE [])
  | none => d0

/-- What waits, when a stream refuses a write: the write, and those due on that stream after it. -/
def Dev.ideStopWrites (d : Dev) (key x : Nat) (w : Out) : Dev :=
  { d with sec := { d.sec with ideStop := if d.sec.ideStop.contains (key, x) then d.sec.ideStop else d.sec.ideStop ++ [(key, x)], ideHeld := d.sec.ideHeld ++ [(x, w)] } }

/-- IDE_REFUSAL: a refused read, by its tag, fails as a failed host read; a refused write of a function waits. -/
def Dev.ideRefusal (d : Dev) (t port stream : Nat) (read : Option Nat) (x addr : Nat) (data : Bytes) : Dev :=
  let d0 := d.at t
  let key := 8 * port + stream
  if !d0.sec.ide.contains key || portOf x ≠ port then d0
  else
    let d1 := d0.bump 0x02E00018 1
    match read with
    | some tag => d1.hostReadDone tag none
    | none => d1.ideStopWrites key x (.hostWrite x addr data)

/-! ### Tamper (R578 to R580) -/

/-- TAMPER: an input (0 A, 1 B) is sampled low. Where the secure SRAM holds nothing, the wipe waits for the next start (R579, R627) (DEDUCED, notes/assumptions/85.md). -/
def Dev.tamper (d : Dev) (t input : Nat) (ok : Bool) : Dev :=
  let d0 := d.at t
  if !d0.pwr.aonGood || 2 ≤ input then d0
  else
    let low : Dev := { d0 with sec := if input = 0 then { d0.sec with lowA := true } else { d0.sec with lowB := true } }
    if !bitOf (d0.regN 0x02E0000C) input then low
    else
      let s := low.sec
      let d1 : Dev := { low with sec := { s with latchA := s.latchA || input == 0, latchB := s.latchB || input == 1, tampers := satAdd 32 s.tampers 1 } }
      if !d1.secOn then { d1 with sec := { d1.sec with wipeDue := true } }
      else ((d1.setDebug d1.sec.restLevel).wipe ok).eventPf 0x0150 input 0

/-- TAMPER_LATCH_CLEAR: a W1C write; `low` are the inputs that are low now. -/
def Dev.tamperClear (d : Dev) (value low : Nat) : Dev :=
  let s := d.sec
  { d with sec := { s with
    lowA := bitOf low 0, lowB := bitOf low 1, latchA := s.latchA && !(bitOf value 0 && !bitOf low 0), latchB := s.latchB && !(bitOf value 1 && !bitOf low 1) } }

end Sys2Proof.Machine
end

