-- ==== Sys2Proof/Machine/Rx4.lean ====
section
/-!
DEFINITION. Sys2Proof/Machine/Rx4.lean: the RX4 compatibility window (22_rx4_window.md).
-/
namespace Sys2Proof.Machine

/-! ### Packed decimals of the RX4 (R612) -/


/-- Nibble k of a field, from 1 at the left. -/
def rxNibble (f : Bytes) (k : Nat) : Nat := let b := (f.getD ((k - 1) / 2) 0).toNat; if k % 2 = 1 then b / 16 else b % 16

/-- The leftmost invalid nibble of a field and its reason (R614): 1 a digit above 9, 2 an invalid sign. -/
def rxInvalid (f : Bytes) : Option (Nat × Nat) :=
  let n := 2 * f.length
  match ((List.range (n - 1)).map (· + 1)).find? (fun k => decide (9 < rxNibble f k)) with
  | some k => some (k, 1)
  | none => if rxNibble f n < 10 then some (n, 2) else none

/-- The value of a valid field. -/
def rxValue (f : Bytes) : Int :=
  let n := 2 * f.length
  let m := ((List.range (n - 1)).map (· + 1)).foldl (fun a k => 10 * a + rxNibble f k) 0
  let s := rxNibble f n
  if s = 0xB ∨ s = 0xD then -(m : Int) else (m : Int)

/-- A result of 2L − 1 digits in L bytes, and whether digits were cut: the low digits with the preferred sign of the exact result. -/
def rxField (l : Nat) (v : Int) : Bytes × Bool :=
  let m := v.natAbs
  let w := 10 ^ (2 * l - 1)
  let sign := if v < 0 then 0xD else 0xC
  let digits := (m % w * 10) -- one decimal place per nibble, the sign in the last
  let nib := fun (k : Nat) => if k = 0 then sign else digits / 10 ^ k % 10
  ((List.range l).reverse.map (fun i => BitVec.ofNat 8 (16 * nib (2 * i + 1) + nib (2 * i))), decide (w ≤ m))

/-! ### The command block (Table 22.2) -/

def rxU (b : Bytes) (o n : Nat) : Nat := beNat ((b.drop o).take n)
/-- Position and length of named field i, from 1. -/
def rxSpan (b : Bytes) (i : Nat) : Nat × Nat := (rxU b (0x20 + 4 * (i - 1)) 2, rxU b (0x22 + 4 * (i - 1)) 1)

/-- Whether a command block keeps Table 22.2; `len` is the bound column's fixed_len. -/
def rxBlockOk (b : Bytes) (len : Nat) : Bool :=
  let op := rxU b 4 1
  let n := rxU b 6 1
  let rb := rxU b 8 2
  let counts := match op with
    | 1 => decide (1 ≤ n) && decide (n ≤ 8)
    | 2 => n == 3
    | 3 => n == 1
    | 4 => decide (1 ≤ n) && decide (n ≤ 8)
    | 5 => n == 0
    | _ => false
  let flags := if op = 2 then decide (rxU b 5 1 < 2) else rxU b 5 1 == 0
  let first := if op = 5 then decide (1 ≤ rxU b 0x18 4) else rxU b 0x18 4 == 0
  let fields := (List.range 8).all (fun i =>
    let o := 0x20 + 4 * i
    if i < n then
      let (p, l) := rxSpan b (i + 1)
      decide (1 ≤ p) && decide (1 ≤ l) && decide (l ≤ 16) && rxU b (o + 3) 1 == 0 && decide (p + l ≤ rb + 1)
    else rxU b o 4 == 0)
  counts && flags && first && fields && rxU b 7 1 == 0 && rxU b 0xA 2 == 0 && rxU b 0x1C 4 == 0 && decide (1 ≤ rb) && decide (rb ≤ 256) &&
    (decide (op < 4) || rb == len) && decide (1 ≤ rxU b 0xC 4) && decide (rxU b 0xC 4 ≤ 16777215) && rxU b 0x10 8 % 8 == 0

/-! ### Enable and disable (R608, R609) -/

/-- RX4_BIND. -/
def Dev.rx4Ts (d : Dev) : Nat := d.regN 0x03000004
/-- The bound table with its one column, where it has the form that R609 asks. -/
def Dev.rx4Table (d : Dev) : Option (TSpace × Table × Column) :=
  match d.space d.rx4Ts with
  | none => none
  | some s =>
    match s.table (d.regN 0x03000008) s.visible with
    | none => none
    | some t =>
      match t.liveCols s.visible with
      | [c] => if c.ty.ty = .fixedBinary ∧ c.ty.nullable = false then some (s, t, c) else none
      | _ => none

/-- While paired, this twin owns the bound table space. -/
def Dev.rx4Owned (d : Dev) : Bool := match d.space d.rx4Ts with | some s => d.twin.alone || s.owner == d.twin.pos | none => false

/-- An enable that fails: claims taken are released, and the reason is kept. -/
def Dev.rx4Refuse (d : Dev) (reason holder : Nat) : Dev := (d.rx4Off reason).setReg 0x03000010 (BitVec.ofNat 32 holder)

/-- RX4_ENABLE: what a write that sets enable starts (R609). -/
def Dev.rx4Enable (d : Dev) : Dev :=
  match d.space d.rx4Ts with
  | none => d.rx4Refuse 1 0
  | some s =>
    if s.x ≠ 0 then d.rx4Refuse 1 0
    else if !d.rx4Owned then d.rx4Refuse 2 0
    else if d.rx4Table.isNone then d.rx4Refuse 3 0
    else
      match ((List.range hearthCount).reverse).find? (fun h => !(d.hearth h).quenched) with
      | none => d.rx4Refuse 6 0
      | some h =>
        let was := (d.hearth h).on
        match d.claim 0 2 5 h 0 0 with
        | (.refused _ w, d1) => d1.rx4Refuse 4 w
        | (.granted c, d1) =>
          let d2 : Dev := { d1 with rx4 := { d1.rx4 with hearth := some h, claims := [c.num], reason := 0 } }
          match d2.claim 0 2 2 0 2 0 with
          | (.refused _ w, d3) => d3.rx4Refuse 5 w
          | (.granted k, d3) =>
            if d3.freeFrames 0 < 6 then d3.rx4Refuse 5 0
            else
              let d4 := d3.openRegion 0 0 6 (k.index + 1) (.claim k.num)
              let d5 : Dev := { d4 with rx4 := { d4.rx4 with lock := some k.index, claims := d4.rx4.claims ++ [k.num] } }
              let d6 := (d5.leaveWork h).hearthUpd h (fun x => { x with powered := true, parked := false })
              ((if was then d6.wakeSpare else d6).setReg 0x03000000 1).rx4Show

/-- RX4_DISABLE: clearing enable is accepted only while no command runs; it releases both claims. -/
def Dev.rx4Disable (d : Dev) : Dev := if d.rx4.run.isSome then d else d.rx4Off 0

/-! ### GO (R611) -/

/-- A command that ends at once. -/
def Dev.rx4Ends (d : Dev) (legacy status : Nat) : Dev := d.rx4End 2 legacy status

/-- RX4_CMD as the aperture holds it. -/
def Dev.rx4Cmd (d : Dev) : Bytes := tabBytes d.rx4.cmd 0 64

/-- The rows of the bound table from a position on, in ascending row number (R613). -/
def Dev.rx4Rows (s : TSpace) (t : Table) (first count : Nat) : List Nat :=
  (((s.rowsAt t s.visible).map (fun r => (List.range r.2).map (r.1 + ·))).flatten.drop (first - 1)).take count
/-- Their values; none where a page fails its checks. -/
def Dev.rx4File (s : TSpace) (t : Table) (c : Column) (first count : Nat) : Option (List Bytes) :=
  let rows := Dev.rx4Rows s t first count
  (s.cells t.id c s.visible (rows.map (fun r => (r, true)))).map (fun l => l.map (fun v => v.1.getD []))

/-- Whether one of them lies in an extent beyond parity (R594). -/
def Dev.rx4Beyond (d : Dev) (s : TSpace) (t : Table) (c : Column) (first count : Nat) : Bool :=
  (s.pagesIn t.id c.id s.visible (normRanges ((Dev.rx4Rows s t first count).map (fun r => (r, 1))))).any (fun p => d.beyond p.1.group p.1.row)

/-- RX4_GO with 1: the block is copied, the counts are cleared and the command starts (DEDUCED, notes/assumptions/128.md). -/
def Dev.rx4Go (d : Dev) : Dev :=
  if d.rx4.run.isSome then { d with rx4 := { d.rx4 with overrun := true } }
  else
    let b := d.rx4Cmd
    let d1 : Dev := { d with rx4 := { d.rx4 with done := 0, invalid := 0, overflow := 0, table := [], state := 1, legacy := 0, status := 0 } }
    let op := rxU b 4 1
    if !bitOf (d.regN 0x03000000) 0 then d1.rx4Ends 4 0x1003
    else if !d.rx4Owned then d1.rx4Ends 4 0x4002
    else match d.rx4Table with
      | none => d1.rx4Ends 4 0x1003
      | some (s, t, c) =>
        if !rxBlockOk b c.ty.len then d1.rx4Ends 3 0x2001
        else if op = 4 ∧ d.pwr.mode = 7 then d1.rx4Ends 4 0x1003
        else if 4 ≤ op && d.locked s then d1.rx4Ends 5 0x6003
        else if 4 ≤ op && d.spaceDown s then d1.rx4Ends 5 0x5002
        else if op = 5 then
          if d.rx4Beyond s t c (rxU b 0x18 4) (rxU b 0xC 4) then d1.rx4Ends 5 0x5002 else match Dev.rx4File s t c (rxU b 0x18 4) (rxU b 0xC 4) with
          | none => d1.rx4Ends 5 0x5001
          | some l => { d1 with rx4 := { d1.rx4 with epoch := s.visible, run := some { block := b, file := l, epoch := s.visible } } }
        else { d1 with rx4 := { d1.rx4 with run := some { block := b } } }

/-- A word of the aperture written by PF0 (R610). -/
def Dev.rx4Write (d : Dev) (o v : Nat) : Dev :=
  if o < 0x40 then { d with rx4 := { d.rx4 with cmd := tabSetBytes d.rx4.cmd o (natBE 4 v) } }
  else if o = 0x40 ∧ v = 1 then d.rx4Go
  else d

/-- A command of the window as its driver gives it: the block is written with this opcode, then GO (VALIDATE, ARITH, TOTAL, FILE_OUT, FILE_IN). -/
def Dev.rx4Command (d : Dev) (op : Nat) (b : Bytes) : Dev :=
  let k := fitTo 64 (b.take 4 ++ [BitVec.ofNat 8 op] ++ b.drop 5)
  ({ d with rx4 := { d.rx4 with cmd := tabSetBytes d.rx4.cmd 0 k } } : Dev).rx4Go

/-! ### Records (R612 to R615) -/

/-- The first invalid field of a record: field, nibble, reason. -/
def rxFault (b rec_ : Bytes) : Option (Nat × Nat × Nat) :=
  ((List.range (rxU b 6 1)).map (· + 1)).findSome? (fun i =>
    let (p, l) := rxSpan b i
    (rxInvalid ((rec_.drop (p - 1)).take l)).map (fun q => (i, q)))

/-- An entry of RX4_INVALID_TABLE (Table 22.5). -/
def rxEntry (b : Bytes) (n : Nat) (f : Nat × Nat × Nat) : Bytes :=
  natBE 4 n ++ natBE 1 f.1 ++ natBE 1 f.2.1 ++ natBE 1 f.2.2 ++ zeros 1 ++ natBE 2 ((rxSpan b f.1).1 + (f.2.1 - 1) / 2) ++ zeros 6

/-- The rows of a FILE_OUT committed as one epoch (R613). -/
def Dev.rx4Commit (d : Dev) (r : Rx4Run) : Dev :=
  match d.rx4Table with
  | none => d.rx4Ends 5 0x5001
  | some (s, t, _) =>
    if r.rows.isEmpty then ({ d with rx4 := { d.rx4 with epoch := s.visible } } : Dev).rx4Ends (b2n (d.rx4.invalid != 0)) 0
    else if !d.allocates s then d.rx4Ends 4 0x4002
    else
      let tag := rxU r.block 0 4
      match d.commitRows s.id (.rx4 tag) 1 t s.visible 1 false (r.rows.map (fun b => { vals := [some b] })) with
      | .error f => d.rx4Ends 5 f.status
      | .ok d1 =>
        let e := match d1.store.commits.find? (fun c => c.use == .rx4 tag) with | some c => c.epoch | none => 0
        { d1 with rx4 := { d1.rx4 with run := some { r with commit := some e } } }

/-- The end of a command whose last record is done: TOTAL writes its result, FILE_OUT commits. -/
def Dev.rx4Finish (d : Dev) (r : Rx4Run) : Dev :=
  let b := r.block
  match rxU b 4 1 with
  | 3 =>
    let (v, cut) := rxField 16 r.total
    let d1 : Dev := { d with rx4 := { d.rx4 with overflow := satAdd 32 d.rx4.overflow (b2n cut) } }
    (d1.hostWrite 0 (rxU b 0x10 8 + rxU b 0xC 4 * rxU b 8 2) v).rx4Ends (b2n (d.rx4.invalid != 0)) 0
  | 4 => d.rx4Commit r
  | _ => d.rx4Ends (b2n (d.rx4.invalid != 0)) 0

/-- What a valid record does. -/
def Dev.rx4Valid (d : Dev) (r : Rx4Run) (n : Nat) (rec_ : Bytes) : Dev × Rx4Run :=
  let b := r.block
  let val := fun (i : Nat) => let (p, l) := rxSpan b i; rxValue ((rec_.drop (p - 1)).take l)
  match rxU b 4 1 with
  | 2 =>
    let (p, l) := rxSpan b 3
    let (out, cut) := rxField l (if bitOf (rxU b 5 1) 0 then val 1 - val 2 else val 1 + val 2)
    let d1 := d.hostWrite 0 (rxU b 0x10 8 + (n - 1) * rxU b 8 2 + (p - 1)) out
    ({ d1 with rx4 := { d1.rx4 with overflow := satAdd 32 d1.rx4.overflow (b2n cut) } }, r)
  | 3 => (d, { r with total := r.total + val 1 })
  | 4 => (d, { r with rows := r.rows ++ [rec_] })
  | _ => (d, r)

/-- RX4_RECORD: the held hearth processes the next record, whose bytes have been read from the host (none for a read that failed; FILE_IN
reads nothing). -/
def Dev.rx4Record (d : Dev) (t : Nat) (data : Option Bytes) : Dev :=
  let d0 := d.at t
  match d0.rx4.run, d0.rx4.hearth with
  | some r, some h =>
    if r.commit.isSome || !(d0.hearth h).powered || d0.mail.activating.isSome then d0
    else
      let b := r.block
      let n := r.done + 1
      let rb := rxU b 8 2
      let op := rxU b 4 1
      if 4 ≤ op && d0.lockedTs d0.rx4Ts then d0.rx4Ends 5 0x6003
      else if op = 5 then
        match r.file with
        | [] => d0.rx4Ends 6 0
        | v :: rest =>
          let d1 := d0.hostWrite 0 (rxU b 0x10 8 + (n - 1) * rb) v
          let k := { r with done := n, file := rest }
          let d2 : Dev := { d1 with rx4 := { d1.rx4 with run := some k, done := n } }
          if n = rxU b 0xC 4 then d2.rx4Finish k else d2
      else match data with
        | none => d0.rx4Ends 5 0x5001
        | some raw =>
          let rec_ := fitTo rb raw
          let fault := rxFault b rec_
          let bad := d0.rx4.invalid + b2n fault.isSome
          if bad = 65 then ({ d0 with rx4 := { d0.rx4 with invalid := 65 } } : Dev).rx4End 3 2 0x3001
          else
            let (d1, k) := match fault with
              | some f => (({ d0 with rx4 := { d0.rx4 with invalid := bad, table := d0.rx4.table ++ [rxEntry b n f] } } : Dev), r)
              | none => d0.rx4Valid r n rec_
            let k1 := { k with done := n }
            let d2 : Dev := { d1 with rx4 := { d1.rx4 with run := some k1, done := n } }
            if n = rxU b 0xC 4 then d2.rx4Finish k1 else d2
  | _, _ => d0

/-- RX4_GO_OVERRUN: a GO while a command runs. -/
def Dev.rx4Overrun (d : Dev) : Dev := if d.rx4.run.isSome then d.rx4Go else d

/-- A word of the aperture as PF0 reads it (Table 22.1). -/
def Dev.rx4Read (d : Dev) (o : Nat) : Nat :=
  let r := d.rx4
  if o < 0x40 then rxU d.rx4Cmd o 4
  else if 0x100 ≤ o ∧ o < 0x500 then beNat ((r.table.getD ((o - 0x100) / 16) (zeros 16)).drop ((o - 0x100) % 16) |>.take 4)
  else match o with
    | 0x44 => r.status % 65536 + 65536 * r.legacy + 2 ^ 24 * r.state + 2 ^ 26 * b2n r.overrun
    | 0x48 => r.done
    | 0x4C => r.invalid
    | 0x50 => r.overflow
    | 0x54 => r.epoch / 2 ^ 32
    | 0x58 => r.epoch % 2 ^ 32
    | 0x5C => 0x52580400
    | _ => 0

end Sys2Proof.Machine
end

