-- ==== Sys2Proof/Machine/Pins.lean ====
section
/-!
DEFINITION. Sys2Proof/Machine/Pins.lean: PERST#, host links, fabric ports in their recovery domain, reference clocks, GPIO levels
(18_power_modes.md R543, 21_health_record.md R597 and R598, 23_package_electrical.md).
-/
namespace Sys2Proof.Machine

/-! ### Host ports (R543, R597) -/

def Dev.link (d : Dev) (port : Nat) : HLink := tabGet {} d.host.links port
def Dev.linkUpd (d : Dev) (port : Nat) (f : HLink → HLink) : Dev := { d with host := { d.host with links := tabUpd {} d.host.links port f } }

/-- PERST_ASSERT (R543, R625): the port's functions are reset, held writes are discarded, and the link goes down. -/
def Dev.perstAssert (d : Dev) (t port : Nat) : Dev :=
  let d0 := d.at t
  if !d0.pwr.sysGood || 2 ≤ port then d0
  else
    let d1 := d0.functionReset (pfOf port)
    let xs := (d1.host.fns.filter (fun p => portOf p.1 == port)).map (·.1)
    let d2 := xs.foldl (fun (d : Dev) x => d.fnUpd x (fun f => { f with held := [], pmeSent := false })) d1
    (d2.linkUpd port (fun k => { k with up := false, perst := true, held := false, recovering := false })).recovered 4 port

/-- PERST_RELEASE (R547, R586): the link trains; a stopped device begins a start attempt at stage 1 when it is port A's. In Banked mode port B is
unpowered (R554). -/
def Dev.perstRelease (d : Dev) (t port : Nat) : Dev :=
  let d0 := d.at t
  if !d0.pwr.sysGood || 2 ≤ port || !(d0.link port).perst then d0
  else
    let d1 := d0.linkUpd port (fun k => { k with perst := false, up := !(d0.start.banked && port == 1) && !d0.pwr.clocks.contains port })
    if port = 0 ∧ d1.pwr.stopped.isSome then (d1.countLost).beginAttempt 1 none else d1

/-- HOST_LINK_DOWN: a link down or a fatal AER; the second one before the link is back holds the port down until PERST# (Table 21.6). -/
def Dev.hostLinkDown (d : Dev) (t port : Nat) : Dev :=
  let d0 := d.at t
  if 2 ≤ port || (d0.link port).perst then d0
  else if d0.recovers 4 port then (d0.escalate 4 port).linkUpd port (fun k => { k with up := false, held := true })
  else (d0.linkUpd port (fun k => { k with up := false, recovering := true })).recover 4 port

/-- HOST_LINK_UP: the link is back in L0. -/
def Dev.hostLinkUp (d : Dev) (t port : Nat) : Dev :=
  let d0 := d.at t
  if 2 ≤ port || (d0.link port).perst || (d0.link port).held || d0.pwr.clocks.contains port then d0
  else (d0.linkUpd port (fun k => { k with up := true, recovering := false })).recovered 4 port

/-! ### Fabric ports (Table 21.6) -/

/-- FABRIC_PORT_DOWN: the second failure before link-up disables the half until FAB_CTRL is written. -/
def Dev.fabricDown (d : Dev) (t h : Nat) : Dev :=
  let d0 := d.at t
  if 16 ≤ h then d0
  else if d0.recovers 5 h then
    let d1 := (d0.escalate 5 h).portDown h
    { d1 with health := { d1.health with fabDisabled := if d1.health.fabDisabled.contains h then d1.health.fabDisabled else d1.health.fabDisabled ++ [h] } }
  else if (d0.half h).up then (d0.portDown h).recover 5 h
  else d0

/-- FABRIC_PORT_UP. -/
def Dev.fabricUp (d : Dev) (t h : Nat) : Dev :=
  let d0 := d.at t
  if d0.health.fabDisabled.contains h || d0.pwr.clocks.contains 3 then d0 else (d0.portUp h).recovered 5 h

/-- FAB_CTRL written: disabled halves of the port may train again. -/
def Dev.fabricCtrl (d : Dev) (p old : Nat) : Dev :=
  let d1 := d.fabCtrl p old
  let mine := fun (h : Nat) => h / 2 == p
  (({ d1 with health := { d1.health with fabDisabled := d1.health.fabDisabled.filter (fun h => !mine h) } } : Dev).recovered 5 (2 * p)).recovered 5 (2 * p + 1)

/-! ### Reference clocks (R629) -/

/-- REFCLK_LOST: 0 REFCLK_A, 1 REFCLK_B, 2 DREF_IN, 3 FREF, 4 SYSCLK, 5 AONCLK. -/
def Dev.refclkLost (d : Dev) (t c : Nat) : Dev :=
  let d0 := d.at t
  if 6 ≤ c || d0.pwr.clocks.contains c then d0
  else
    let d1 : Dev := { d0 with pwr := { d0.pwr with clocks := d0.pwr.clocks ++ [c] } }
    match c with
    | 0 => d1.hostLinkDown t 0
    | 1 => d1.hostLinkDown t 1
    | 2 =>
      let up := (d1.store.drives.filter (fun p => p.2.link)).map (·.1)
      up.foldl (fun d i => (d.driveUpd i (fun k => { k with link := false })).memberFail i) d1
    | 3 => ((List.range 16).foldl (fun d h => d.fabricDown t h) d1).twinGroupDown t 0 |>.twinGroupDown t 1
    | 4 => if d1.pwr.sysGood && d1.pwr.stopped.isNone then d1.stopDevice 6 else d1
    | _ => d1.eventPf 0x0171 0 0

/-- REFCLK_RETURN: the links it feeds may train again. -/
def Dev.refclkReturn (d : Dev) (t c : Nat) : Dev :=
  let d0 := d.at t
  let d1 : Dev := { d0 with pwr := { d0.pwr with clocks := d0.pwr.clocks.filter (· != c) } }
  if c < 2 ∧ d0.pwr.clocks.contains c then d1.hostLinkUp t c else d1

/-! ### GPIO (R634, Tables 23.7 and 23.8) -/

/-- The address of a pin's GPIO_FUNC. -/
def gpioReg (p : Nat) : Nat := 0x03100000 + 4 * p

/-- A unit is fenced or quenched, or a group is not healthy (Table 21.11). -/
def Dev.degraded (d : Dev) : Bool :=
  (List.range hearthCount).any (fun h => (d.hearth h).quenched || (d.hearth h).exu.fenced) || !d.health.slicesFenced.isEmpty || !d.health.unitsFenced.isEmpty ||
    d.mem.fenced.any (fun p => p.2 != 0) || d.health.groups.any (fun p => p.2 != 0)

/-- The level of a pin: what the device drives on it, or what stands there. -/
def Dev.gpioLevel (d : Dev) (p : Nat) : Bool :=
  let w := d.regN (gpioReg p)
  let outside := bitOf d.pins.gpioIn p
  let drives := fun (hi : Bool) => if hi && bitOf w 4 then outside else hi
  match w % 8 with
  | 1 => drives (bitOf w 3)
  | 3 => drives (!d.pwr.alert)
  | 4 => drives (!d.degraded)
  | _ => outside

/-- Whether a GPIO_FUNC value is one Table 23.8 gives (functions 5 to 7 are reserved). -/
def gpioOk (v : Nat) : Bool := decide (v % 8 < 5)

end Sys2Proof.Machine
end

