-- ==== Sys2Proof/Machine/Regs.lean ====
section
/-!
DEFINITION. Sys2Proof/Machine/Regs.lean: reads and compare-and-writes of the device register space (R12, R254, R467 to R470), what each
register shows of the state, and what a write to it does.
-/
namespace Sys2Proof.Machine

/-! ### Registers that show state -/

/-- Bits of a list of numbers. -/
def bitsFor (l : List Nat) : Nat := (l.map (2 ^ ·)).sum
/-- A word of a byte image. -/
def wordAt (b : Bytes) (o : Nat) : Nat := fieldAt b o 4

/-- EXU_STATUS and PAT_STATUS of a hearth (Tables 7.8 and 9.8). -/
def exuStatus (x : Exu) : Nat :=
  (match x.wide with | .off => 0 | .waking => 1 | .ready => 2 | .poweringDown => 3) + 4 * b2n x.fenced + 8 * b2n x.activeWide
def Dev.patStatus (d : Dev) (h : Nat) : Nat :=
  let x := (d.hearth h).exu
  let held := match d.mail.sysUpdate with | some u => !u.applied.contains h && scrubBank x.cmt.scrubPos == 0 | none => false
  b2n x.cmt.sysLoaded + 2 * (min 3 x.cmt.user.length) + 8 * b2n (d.scrubPaused h || held)

/-- The state word of a DRAM controller (Table 12.10): a stack's, or that of a channel's DIMM, which is half its pair. -/
def memStatus (m : MemUnit) (half : Bool) : Nat := m.state + 4 * b2n m.selfRefresh + 256 * ((if half then m.gb / 2 else m.gb) % 512)
/-- The words of a DRAM controller that show the state of its unit. -/
def memShown (m : MemUnit) (half : Bool) (o : Nat) : Option Nat :=
  match o with
  | 0x00 => some (memStatus m half)
  | 0x30 => some (min 0xFFFF m.repaired + 65536 * min 0xFFFF m.left)
  | 0x34 => some m.retired.length
  | _ => none

/-- HEALTH_STATUS (Table 21.11). -/
def Dev.healthStatus (d : Dev) : Nat :=
  min 32 d.pipeHearths.length + 64 * min 4 d.spareHearths.length + 512 * b2n d.degraded +
    1024 * b2n (!d.health.unavail.isEmpty || d.store.spaces.any (fun s => d.spaceDown s))
/-- GROUP_STATE_g (Table 21.11). -/
def Dev.groupStatus (d : Dev) (g : Nat) : Nat :=
  match d.store.groups.find? (fun k => k.id == g) with
  | some k => d.groupState k + 4 * b2n (d.store.rebuilds.any (fun r => r.group == g)) + 8 + 256 * k.failed.length
  | none => 0

/-- PWR_MODE (Table 18.12). -/
def Dev.pwrMode (d : Dev) : Nat :=
  let p := d.pwr
  p.mode + 16 * (match p.change with | some c => c.toMode | none => p.mode) + 256 * b2n (p.change.any (·.prepared)) + 512 * b2n p.chosen +
    1024 * b2n (p.mode == 3 && p.told) + 65536 * (if 4 ≤ p.mode then min 32 d.runners.length else 0) + 2 ^ 22 * min 63 d.parkedHearths.length

/-- TWIN_STATUS (Table 17.10). A function is unprotected when it exists and its mapping is not valid (R509). -/
def Dev.unprotected (d : Dev) : Bool :=
  (d.host.qps.filter (fun p => p.2.state != .disabled)).any (fun p => !bitOf (d.regN (0x02B10000 + 4 * (p.1 / 8192))) 31)
def Dev.twinStatus (d : Dev) : Nat := d.twin.state + 8 * d.twin.pos + 16 * b2n d.twin.up0 + 32 * b2n d.twin.up1 + 64 * b2n d.unprotected

/-- START_STATUS (Table 19.7). -/
def Dev.startStatus (d : Dev) : Nat :=
  let s := d.start
  (if s.service then 0 else s.stage) + 8 * b2n s.banked + 16 * min 3 s.failures + 64 * s.slot + 128 * b2n s.fallback + 256 * b2n s.reused

/-- SEC_STATUS (Table 20.10). -/
def Dev.secStatus (d : Dev) : Nat :=
  let s := d.sec
  s.lifecycle + 8 * s.debug + 32 * (s.ownerSlot.getD 7) + 256 * b2n s.wipeFail + 512 * b2n (s.ide.any (fun k => k / 8 == 0)) + 1024 * b2n (s.ide.any (fun k => k / 8 == 1))
def Dev.tamperStatus (d : Dev) : Nat := b2n d.sec.latchA + 2 * b2n d.sec.latchB + 4 * b2n d.sec.lowA + 8 * b2n d.sec.lowB

/-- What the always-on SRAM holds besides the start record and the ring: the recorder header's fields and the accumulators. -/
def Dev.aonContent (d : Dev) : Bytes :=
  let a := d.rcd.acc
  int64 ((d.rcd.wall.getD (0, 0)).1) ++ natLE 8 ((d.rcd.wall.getD (0, 0)).2) ++ natLE 4 d.rcd.seq ++ natLE 4 d.rcd.ring.length ++
    thermBody a 0 ++ thermBody a 1 ++ supplyBody a ++ d.errorBody ++ residencyBody a ++ repairBody a ++
    ((a.lat.map (fun p => natLE 2 p.1 ++ latBody p.2)).flatten) ++ ((a.depth.map (fun p => natLE 2 p.1 ++ depthBody p.2)).flatten)
/-- The closed record in a slot of the ring: the slots are taken in turn, by seq (notes/assumptions/80.md). -/
def RecSt.ringAt (r : RecSt) (slot : Nat) : Option Bytes :=
  (List.range r.ring.length).findSome? (fun i => if (r.seq + ringRecords - r.ring.length + i) % ringRecords = slot then r.ring[i]? else none)
/-- A byte of the always-on SRAM (Table 21.7). -/
def Dev.aonByte (d : Dev) (o : Nat) : Byte :=
  if o < 0x40 then d.startBytes.getD o 0
  else if o < 0x44 then (natLE 4 0x51E90ACE).getD (o - 0x40) 0
  else if 0x80 ≤ o ∧ o < 0x100 then 0
  else if 0x6000 ≤ o then
    (match d.rcd.ringAt ((o - 0x6000) / 256) with | some b => b.getD (o % 256) 0 | none => Config.aonByte d.aonContent o)
  else Config.aonByte d.aonContent o

/-- The 64 KiB of an archive sector (R605); erased flash reads ones (PRESUMED, notes/assumptions/81.md). -/
def sectorBytes (s : Option (Nat × List Bytes)) : Bytes :=
  match s with
  | none => List.replicate 65536 0xFF
  | some (seq, l) =>
    let h := natLE 4 0x51E90A9C ++ natLE 1 1 ++ zeros 3 ++ natLE 4 seq ++ zeros 48
    let b := h ++ natLE 4 (crc32c h).toNat ++ (l.map (fun r => if r.isEmpty then List.replicate 256 0xFF else fitTo 256 r)).flatten
    b ++ List.replicate (65536 - b.length) 0xFF
/-- An entry of UNAVAIL_LIST. -/
def unavailEntry (e : Nat × Nat × Nat) : Bytes := natLE 4 e.1 ++ natLE 2 e.2.1 ++ zeros 2 ++ natLE 8 e.2.2

/-- Registers of chapters 7 to 12 that show state. -/
def Dev.shownLow (d : Dev) (a : Nat) : Option Nat :=
  if 0x02100000 ≤ a ∧ a < 0x02124000 then
    let h := (a - 0x02100000) / 0x1000
    match a % 0x1000 with
    | 0x004 => some (exuStatus (d.hearth h).exu)
    | 0x100 => some (d.patStatus h)
    | 0x204 => some (tabGet 0 d.mem.retained h)
    | 0x208 => some (((List.range 12).map (fun b => d.spare h b * 4 ^ b)).sum)
    | _ => none
  else if 0x02600000 ≤ a ∧ a < 0x02604000 then memShown (d.memUnit ((a - 0x02600000) / 0x1000)) false (a % 0x1000)
  else if 0x02608000 ≤ a ∧ a < 0x02610000 then memShown (d.memUnit (4 + (a - 0x02608000) / 0x2000)) true (a % 0x1000)
  else if 0x02510000 ≤ a ∧ a < 0x02510800 then
    (if a % 0x100 = 8 ∨ a % 0x100 = 0x0C then some (Config.linkCount a d.freeCtr % 2 ^ 32) else none)
  else if 0x02700100 ≤ a ∧ a < 0x02700160 then some (tabGet 0 d.mem.fenced ((a - 0x02700100) / 4))
  else if 0x02400080 ≤ a ∧ a < 0x02400090 then
    let l := (a - 0x02400080) / 2
    some (min 0xFFFF (d.delayCount l) + 65536 * min 0xFFFF (d.delayCount (l + 1)))
  else match a with
    | 0x02400000 => some (min 32 (d.pipeHearths.filter (fun h => !(d.hearth h).parked)).length + 256 * min 0xFFFF (d.cands (fun s => s == .ready)).length)
    | 0x02400094 => some ((d.nowTick - d.start.opened / 10) % 2 ^ 32)
    | 0x02610004 => some (d.freeFrames 0)
    | 0x02610008 => some (d.freeFrames 1)
    | 0x02700000 => some (bitsFor d.mem.slices + bitsFor (((List.range 4).filter (fun q => d.domain (64 + q) == 2)).map (24 + ·)))
    | 0x02800000 => some (2 * b2n d.sec.wipeFail + 65536 * min 0xFFFF d.sec.wipes)
    | _ => none

/-- Registers of chapters 14 to 18 that show state. -/
def Dev.shownMid (d : Dev) (a : Nat) : Option Nat :=
  if 0x02910000 ≤ a ∧ a < 0x02914800 then (if a % 0x100 = 0 then some (d.drvStatus ((a - 0x02910000) / 0x100)) else none)
  else if 0x02A10000 ≤ a ∧ a < 0x02A20080 then some (wordAt (d.shareRecord ((a - 0x02A10000) / 0x40)) (a % 0x40))
  else if 0x02C00020 ≤ a ∧ a < 0x02C00040 then
    let st := if a < 0x02C00030 then 2 else 1
    some (wordAt (natLE 16 (bitsFor ((List.range 72).filter (fun n => d.domain n == st)))) (a % 0x10))
  else match a with
    | 0x02900004 => some (match d.store.rebuilds with
      | r :: _ => r.group + 65536 + 2 ^ 24 * (100 * r.next / max 1 ((d.store.groups.find? (fun g => g.id == r.group)).getD { id := 0, scheme := 0 }).rows)
      | [] => 0)
    | 0x02B00004 => some d.twinStatus
    | 0x02B00010 => some (d.twin.pairId % 2 ^ 32)
    | 0x02B00014 => some (d.twin.pairId / 2 ^ 32 % 2 ^ 32)
    | 0x02B00018 => let w := d.witnessSet; some (w.getD 0 0 + 256 * w.getD 1 0 + 65536 * w.getD 2 0 + 2 ^ 24 * w.length)
    | 0x02C00000 => some d.pwrMode
    | 0x02C00004 => some (d.pwr.limit % 65536 + 65536 * d.pwr.ceiling)
    | _ => none

/-- Registers of chapters 19 to 23 that show state. -/
def Dev.shownHigh (d : Dev) (a : Nat) : Option Nat :=
  if 0x02F10000 ≤ a ∧ a < 0x02F20000 then some (leNat ((List.range 4).map (fun i => d.aonByte (a - 0x02F10000 + i))))
  else if 0x02F20000 ≤ a ∧ a < 0x02F30000 then
    some (wordAt (sectorBytes (tabGet none d.rcd.sectors (384 * d.regField 0x02F00124 9 9 + d.regField 0x02F00124 8 0))) (a - 0x02F20000))
  else if 0x02F30000 ≤ a ∧ a < 0x02F40000 then
    some (match d.health.unavail[(a - 0x02F30000) / 16]? with | some e => wordAt (unavailEntry e) (a % 16) | none => 0)
  else if 0x02F00040 ≤ a ∧ a < 0x02F00080 then some (d.groupStatus ((a - 0x02F00040) / 4))
  else
    let r := fun (i : Nat) => d.start.reasons.getD i 0
    let quenched := bitsFor ((List.range hearthCount).filter (fun h => (d.hearth h).quenched))
    let fenced := bitsFor ((List.range hearthCount).filter (fun h => (d.hearth h).exu.fenced))
    let wall := ((d.wallMs.getD 0) % (2 ^ 64 : Int)).toNat
    match a with
    | 0x02D00000 => some d.startStatus
    | 0x02D00004 => some (r 0)
    | 0x02D00008 => some (r 1 + 65536 * r 2)
    | 0x02D00030 => some d.start.served
    | 0x02D00034 => some d.start.failed
    | 0x02E00000 => some d.secStatus
    | 0x02E00004 => some (d.sec.svnMin % 128 + 256 * (d.sec.svnRun % 128))
    | 0x02E00008 => some d.sec.keys.length
    | 0x02E00010 => some d.tamperStatus
    | 0x02E00014 => some d.sec.tampers
    | 0x02E00020 => some d.sec.unlocks
    | 0x02F00000 => some d.healthStatus
    | 0x02F00008 => some (quenched % 2 ^ 32)
    | 0x02F0000C => some (quenched / 2 ^ 32)
    | 0x02F00010 => some (fenced % 2 ^ 32)
    | 0x02F00014 => some (fenced / 2 ^ 32)
    | 0x02F00018 => some (bitsFor ((d.health.recovering.map (fun c => c.1 - 1)).eraseDups))
    | 0x02F00020 => some (d.health.unavail.length + 2 ^ 31 * b2n d.health.overflow)
    | 0x02F00104 => some (b2n d.rcd.frozen + 2 * b2n (d.rcd.archDue && !d.rcd.frozen) + 4 * b2n d.rcd.archFail + 256 * d.rcd.ring.length)
    | 0x02F00108 => some d.cycles
    | 0x02F00110 => some (d.opSec % 2 ^ 32)
    | 0x02F00114 => some (d.opSec / 2 ^ 32 % 256)
    | 0x02F00118 => some (wall % 2 ^ 32)
    | 0x02F0011C => some (wall / 2 ^ 32)
    | 0x02F00128 => some d.rcd.sector
    | 0x03100040 => some (bitsFor ((List.range 16).filter (fun p => d.gpioLevel p)))
    | _ => none

/-- What a register word reads as now; an address that no register has reads zero (R470). -/
def Dev.regRead (d : Dev) (a : Nat) : Nat :=
  if (regRow a).isNone then 0
  else match (if a < 0x02900000 then d.shownLow a else if a < 0x02D00000 then d.shownMid a else d.shownHigh a) with
    | some v => v % 2 ^ 32
    | none => d.regN a

/-! ### Compare-and-write (R467, R468) -/

/-- The bits of a CW register that a write may change, by the first address of its row; RSV and RO fields are not among them (R8). -/
def cwMask (b : Nat) : Nat :=
  match b with
  | 0x02100000 => 0x1FFFF
  | 0x02100200 => 0xFFFF
  | 0x02400040 => 0x3FFF0003
  | 0x02400050 => 0x1F
  | 0x02500000 => 0x1FFFF
  | 0x02500008 => 0xFFFF
  | 0x02500014 => 0x3FFFF
  | 0x02510000 => 0x3FF
  | 0x02600004 => 0x001F0FFF
  | 0x02608004 => 0x001F0FFF
  | 0x02600008 => 0xFFFF
  | 0x02608008 => 0xFFFF
  | 0x0260000C => 0xFF
  | 0x0260800C => 0xFF
  | 0x02610000 => 0xF
  | 0x02900000 => 0x0FFFFFFF
  | 0x02A00000 => 0x3FFF
  | 0x02A00004 => 0xFFFF
  | 0x02B00000 => 3
  | 0x02B00020 => 0xFFFFFFFF
  | 0x02B10000 => 0x80FFFFFF
  | 0x02C00010 => 0xFFFF
  | 0x02C10000 => 1
  | 0x02C10004 => 0x1F
  | 0x02D00038 => 3
  | 0x02E0000C => 3
  | 0x02F00100 => 5
  | 0x02F00124 => 0x3FF
  | 0x03000000 => 1
  | 0x03100000 => 0x3F
  | 0x03200000 => 7
  | _ => 0xFFFFFFFFFFFFFFFF

/-- Whether every field of a CW register's value lies in its stated range. -/
def cwOk (b v : Nat) : Bool :=
  let f := fun (hi lo l u : Nat) => decide (l ≤ bitsOf v hi lo) && decide (bitsOf v hi lo ≤ u)
  match b with
  | 0x02400048 => v % 4096 == 0
  | 0x02400050 => f 4 0 16 30
  | 0x02500008 => f 15 0 1024 65535
  | 0x0250000C => decide (500 ≤ v) && decide (v ≤ 60000)
  | 0x02500010 => f 15 0 1 1000 && f 31 16 1 100
  | 0x02510000 => f 1 0 0 2 && f 9 8 0 2
  | 0x02600004 => f 20 16 1 31
  | 0x02608004 => f 20 16 1 31
  | 0x02600008 => f 13 0 256 16383
  | 0x02608008 => f 13 0 256 16383
  | 0x0260000C => f 7 0 0 168
  | 0x0260800C => f 7 0 0 168
  | 0x02900000 => f 15 0 10 60000 && f 23 16 1 100
  | 0x02A00000 => f 13 0 0 8192
  | 0x02A00004 => f 15 0 1 65535
  | 0x02B10000 => f 9 0 0 512
  | 0x02C00010 => f 7 0 80 104 && f 15 8 85 105
  | 0x02F00124 => f 8 0 0 383
  | 0x03100000 => gpioOk v
  | 0x03200000 => f 2 0 0 5
  | _ => true

/-- A write that fails as a mismatch whatever it expects (R331, R485, R521, R608, R609). -/
def Dev.cwVeto (d : Dev) (b old new : Nat) : Bool :=
  match b with
  | 0x02400048 => bitOf (d.regN 0x02400040) 0
  | 0x02400050 => bitOf (d.regN 0x02400040) 0
  | 0x02A00000 => !d.splitOk (new % 16384)
  | 0x02B00020 => d.twin.xfer.isSome
  | 0x03000000 => old % 2 == 1 && new % 2 == 0 && d.rx4.run.isSome
  | 0x03000004 => bitOf (d.regN 0x03000000) 0
  | 0x03000008 => bitOf (d.regN 0x03000000) 0
  | _ => false

/-- A write that a function may not make: its status and detail (R579, R608, R634). -/
def Dev.cwRefuse (d : Dev) (x b a old new : Nat) : Option (Nat × Nat) :=
  match b with
  | 0x02E0000C => if d.sec.lifecycle = 3 ∧ (old % 4).land (new % 4) ≠ old % 4 then some (0x6002, 0) else none
  | 0x03000000 => if x ≠ 0 ∧ new % 2 = 1 then some (0x2001, 7) else none
  | 0x03100000 => (match d.claimOf 1 ((a - 0x03100000) / 4) with
    | some c => if c.x = x ∧ c.holder = 1 then none else some (0x2001, 7)
    | none => some (0x2001, 7))
  | _ => none

/-- What a successful write to a register starts; its row's first address, its own, and its value before and after. -/
def Dev.regEffect (d : Dev) (b a old new : Nat) : Dev :=
  match b with
  | 0x02100000 => d.forceNarrow ((a - 0x02100000) / 0x1000)
  | 0x02400040 => if new % 2 = 1 ∧ old % 2 = 0 then d.traceEnable else d
  | 0x02500000 => d.tellConfig
  | 0x02510000 => d.fabricCtrl ((a - 0x02510000) / 0x100) old
  | 0x02900000 => d.idleDrives
  | 0x02A00000 =>
    { d with host := { d.host with qps := d.host.qps.filter (fun p => !((p.1 / 8192 == 0 || p.1 / 8192 == 513) && decide (d.fnQueues (p.1 / 8192) ≤ p.1 % 8192))) } }
  | 0x02B00000 => if old = new then d else d.pairRetry
  | 0x02B00020 => d.ownXfer (new % 2 ^ 32)
  | 0x02B10000 => d.tellConfig
  | 0x02F00100 =>
    let d1 := if new % 2 = old % 2 then d else d.freezeHost (new % 2 == 1)
    if bitOf new 2 then d1.archiveNow else if bitOf old 2 then d1.setField 0x02F00100 2 2 1 else d1
  | 0x02F00118 => d.setWall (signed 64 new)
  | 0x03000000 => if new % 2 = 1 ∧ old % 2 = 0 then d.rx4Enable else if new % 2 = 0 ∧ old % 2 = 1 then d.rx4Disable else d
  | 0x03200000 => { d with pins := { d.pins with uartRate := new % 8, uartQuiet := if new = old then d.pins.uartQuiet else d.timeUs + 1000 } }
  | _ => d

/-- A register of one or two words as it reads now. -/
def Dev.regValue (d : Dev) (r : RegRow) (s : Nat) : Nat := if r.words = 2 then d.regRead s + 2 ^ 32 * d.regRead (s + 4) else d.regRead s
def Dev.setRegValue (d : Dev) (r : RegRow) (s v : Nat) : Dev := if r.words = 2 then d.setReg64 s v else d.setReg s (BitVec.ofNat 32 v)

/-- The key under which a function's failed attempt on a register stands. -/
def cwKey (x s : Nat) : Nat := x * 2 ^ 32 + s
/-- A write_count (R467) (DEDUCED, notes/assumptions/129.md). -/
def Dev.writeCount (d : Dev) (s : Nat) : Nat := tabGet 0 d.cwCount s

/-- The outcome of a write: done, or a failed compare, with the value and write_count after it; or a refusal with status and detail. -/
inductive RegOut where
  | done (value count : Nat)
  | failed (value count : Nat)
  | refused (status detail : Nat)
deriving DecidableEq, Repr, Inhabited

/-- A write of a function to the register space: address, width in bytes, mask, value, and the expected pair. Fields out of range and writes
that are not permitted are refused before the compare (notes/assumptions/82.md). -/
def Dev.regWrite (d : Dev) (x a width mask value expected count : Nat) : RegOut × Dev :=
  if a % 4 ≠ 0 ∨ ¬ (width = 4 ∨ width = 8) then (.refused 0x2001 5, d)
  else if 0x02E00000 ≤ a ∧ a < 0x02F00000 ∧ a ≠ 0x02E0000C ∧ a ≠ 0x02E00010 then (.refused 0x6002 0, d)
  else match regRow a with
    | none => if width = 8 then (.refused 0x2001 5, d) else (.done 0 0, d)
    | some r =>
      let s := r.start a
      if width = 8 ∧ (r.words ≠ 2 ∨ a ≠ s) then (.refused 0x2001 5, d)
      else
        let sh := if a = s then 0 else 32
        let span := if width = 8 then 2 ^ 64 else 2 ^ 32
        let old := d.regValue r s
        let part := old / 2 ^ sh % span
        let m := (mask % span).land ((cwMask r.base) / 2 ^ sh % span)
        let put := part - part.land m + (value % span).land m
        let new := old - part * 2 ^ sh + put * 2 ^ sh
        let n := d.writeCount s
        match r.acc with
        | .cw =>
          if !cwOk r.base new then (.refused 0x2001 5, d)
          else match d.cwRefuse x r.base s old new with
            | some p => (.refused p.1 p.2, d)
            | none =>
              if part = expected % span ∧ n = count ∧ d.cwVeto r.base old new = false then
                let d1 : Dev := { d.setRegValue r s new with
                  cwCount := tabSet 0 d.cwCount s ((n + 1) % 65536), cwFailed := d.cwFailed.filter (· != cwKey x s) }
                let d2 := d1.regEffect r.base s old new
                (.done (d2.regValue r s / 2 ^ sh % span) ((n + 1) % 65536), d2)
              else
                (.failed part n, { d with cwFailed := if d.cwFailed.contains (cwKey x s) then d.cwFailed else d.cwFailed ++ [cwKey x s] })
        | .w1c =>
          let hit := (value % 2 ^ 32).land (mask % 2 ^ 32)
          let low := b2n d.sec.lowA + 2 * b2n d.sec.lowB
          let d1 := if a = 0x02E00010 then d.tamperClear hit low else d.setReg a (BitVec.ofNat 32 (part - part.land hit))
          (.done (d1.regRead a) n, d1)
        | _ => (.done part n, d)

/-- One entry of the REG_READ response (Table 15.9). -/
def Dev.readEntry (d : Dev) (x a : Nat) : Bytes :=
  let s := match regRow a with | some r => r.start a | none => a
  natLE 4 (d.regRead a) ++ natLE 2 (d.writeCount s) ++ natLE 2 (b2n (d.cwFailed.contains (cwKey x s)))
/-- A counter of a link's physical layer (Tables 11.9): what it has counted is free (notes/assumptions/34.md). -/
def linkReg (a : Nat) : Bool := decide (0x02510000 ≤ a) && decide (a < 0x02510800) && (a % 0x100 == 8 || a % 0x100 == 0x0C)
/-- An RC register word cleared by a read (R468). -/
def Dev.readClear (d : Dev) (a : Nat) : Dev :=
  if linkReg a then d.draw.2 else match regRow a with | some r => if r.acc = .rc then d.setReg a 0 else d | none => d
/-- Registers read from one instant, and the RC ones cleared. -/
def Dev.regReads (d : Dev) (x a n : Nat) : Bytes × Dev :=
  (((List.range n).map (fun i => d.readEntry x (a + 4 * i))).flatten, (List.range n).foldl (fun (d : Dev) i => d.readClear (a + 4 * i)) d)

/-- A compare-and-write that reaches the register space by itself: its effect without the mailbox around it. -/
def Dev.cwWrite (d : Dev) (t x a width value expected count : Nat) : Dev :=
  let d0 := d.at t
  if !d0.start.service || d0.hostStopped then d0 else (d0.regWrite x a width (2 ^ 64 - 1) value expected count).2

end Sys2Proof.Machine
end

