-- ==== Sys2Proof/Machine/Debug.lean ====
section
/-!
DEFINITION. Sys2Proof/Machine/Debug.lean: JTAG (R581, R582) and the recorder reads of the management port (R606).
-/
namespace Sys2Proof.Machine

/-- The level that an operation asks for (Table 20.7). -/
def JtagOp.level : JtagOp → Nat
  | .bypass | .idcode | .sample | .extest _ => 0
  | .regRead _ => 1
  | _ => 2

/-- The value a JTAG operation shifts out; what the cores' registers, the scan chains and the pins' cells hold is not modelled, so it is a free
value (DESIGN CHOICE, notes/assumptions/84.md). -/
def Dev.jtagFree (d : Dev) : Dev := let (v, d1) := d.draw; { d1 with sec := { d1.sec with jtag := v.toNat } }
def Dev.jtagOut (d : Dev) (v : Nat) : Dev := { d with sec := { d.sec with jtag := v } }

/-- Whether an address belongs to the security block. -/
def secBlock (a : Nat) : Bool := decide (0x02E00000 ≤ a) && decide (a < 0x02F00000)

/-- A JTAG write of a register: the bits that a write may change take their values, without a compare (notes/assumptions/83.md). -/
def Dev.jtagWrite (d : Dev) (a v : Nat) : Dev :=
  match regRow a with
  | some r =>
    if r.acc = .cw then
      let s := r.start a
      let old := d.regValue r s
      let sh := if a = s then 0 else 32
      let m := cwMask r.base / 2 ^ sh % 2 ^ 32
      let part := old / 2 ^ sh % 2 ^ 32
      let new := old - part * 2 ^ sh + (part - part.land m + (v % 2 ^ 32).land m) * 2 ^ sh
      (d.setRegValue r s new).regEffect r.base s old new
    else if r.acc = .w1c then let part := d.regRead a; d.setReg a (BitVec.ofNat 32 (part - part.land (v % 2 ^ 32)))
    else d
  | none => d

/-- JTAG_ACCESS: served as the debug level permits; an operation above the level has no effect. -/
def Dev.jtagAccess (d : Dev) (t : Nat) (op : JtagOp) : Dev :=
  let d0 := d.at t
  if !d0.pwr.sysGood || d0.sec.debug < op.level then d0
  else match op with
    | .bypass => d0
    | .idcode => d0.jtagOut Config.idcode
    | .sample => d0.jtagFree
    | .extest v => d0.jtagOut v
    | .regRead a => if secBlock a then d0 else (d0.jtagOut (d0.regRead a)).readClear a
    | .regWrite a v => if secBlock a then d0 else d0.jtagWrite a v
    | .halt => { d0 with sec := { d0.sec with halted := true } }
    | .step => d0
    | .run => { d0 with sec := { d0.sec with halted := false } }
    | .coreRead _ => d0.jtagFree
    | .coreWrite _ _ => d0
    | .memRead dva => d0.memRequest 0 dva false (fun d e off => d.jtagOut (leNat (d.memRead (4 * e.tier + e.unit) (off / 8 * 8) 8)))
    | .memWrite dva b => d0.cacheWrite 0 dva b
    | .scan _ => d0.jtagFree

/-- Whether the management port reaches an address (R606) (DEDUCED, notes/assumptions/131.md). -/
def mgmtReads (a : Nat) : Bool := (decide (0x02D00000 ≤ a) && decide (a < 0x02F40000)) || a == 0x02C0000C

/-- MCTP_RECORDER_READ: the request and response of REG_READ, in every mode but Off and Ember. An address beyond the limit is refused as the
mailbox refuses a field out of range. -/
def Dev.mctpRead (d : Dev) (t a n : Nat) : Dev :=
  let d0 := d.at t
  if d0.pwr.mode < 2 ∧ ¬ d0.start.stage ≠ 0 then d0
  else if a % 4 ≠ 0 ∨ n = 0 ∨ 64 < n ∨ !mgmtReads a ∨ !mgmtReads (a + 4 * (n - 1)) then d0.send (.mgmt (natLE 2 0x2001 ++ natLE 4 5))
  else let (b, d1) := d0.regReads 2000 a n; d1.send (.mgmt (natLE 2 0 ++ natLE 4 0 ++ b))

end Sys2Proof.Machine
end

