-- ==== Sys2Proof/Machine/Mailbox.lean ====
section
/-!
DEFINITION. Sys2Proof/Machine/Mailbox.lean: the form of a mailbox request (R453, R454, R460 to R462), sessions, events, registers, policies,
sharing groups, modes, shares, device memory and claims (15_mailbox.md).
-/
namespace Sys2Proof.Machine

/-! ### The form of a request (Tables 15.4, 15.6, 15.8, 15.9, 15.9a) -/

/-- Commands of Table 15.8: opcode, the MP minor that adds it, and whether only a PF may send it. -/
def mbTable : List (Nat × Nat × Bool) :=
  [(0x01, 0, false), (0x02, 0, false), (0x03, 0, false), (0x04, 0, false), (0x05, 0, false), (0x06, 1, false),
   (0x10, 0, true), (0x11, 0, true), (0x12, 2, true), (0x13, 0, true), (0x14, 0, true), (0x15, 1, true), (0x16, 0, true), (0x17, 0, true),
   (0x18, 0, true)] ++
  [(0x20, 0, false), (0x21, 0, false), (0x22, 0, false), (0x23, 0, false), (0x24, 0, false), (0x25, 0, false), (0x26, 3, false),
   (0x27, 2, false), (0x28, 0, false)] ++
  [(0x30, 0, true), (0x31, 0, true), (0x32, 0, true), (0x33, 0, true), (0x34, 0, true), (0x35, 4, true), (0x36, 4, true), (0x37, 0, true),
   (0x40, 0, true), (0x41, 0, false), (0x42, 0, true), (0x50, 0, true), (0x51, 0, true), (0x52, 0, true), (0x53, 0, true)]

/-- The payload bytes of a command. -/
def mbSize (op : Nat) (p : Bytes) : Nat :=
  match op with
  | 0x01 => 8 | 0x04 => 2 | 0x05 => 4 | 0x06 => 8
  | 0x10 => 6 | 0x11 => 32 | 0x12 => 32 | 0x13 => 3 | 0x14 => 20 | 0x15 => 4 | 0x16 => 8 | 0x17 => 40 | 0x18 => 24
  | 0x20 => 16 | 0x21 => 8 | 0x22 => 8 | 0x23 => 24 | 0x24 => 8 | 0x25 => 40 | 0x26 => 56 | 0x27 => 24 | 0x28 => 8
  | 0x30 => 2 + fieldAt p 1 1 | 0x31 => 1 | 0x32 => 8 | 0x33 => 36 | 0x34 => 8 | 0x35 => 8 | 0x36 => 8 | 0x37 => 24
  | 0x40 => 16 | 0x41 => 8 | 0x42 => 8 | 0x50 => 20 | 0x51 => 1 | 0x52 => 1
  | _ => 0

/-- The RSV areas of a payload: offset and bytes. -/
def mbRsv (op : Nat) (p : Bytes) : List (Nat × Nat) :=
  match op with
  | 0x01 => [(3, 5)] | 0x06 => [(4, 4)] | 0x11 => [(5, 1)] | 0x12 => [(2, 6), (20, 4)] | 0x14 => [(2, 6)] | 0x16 => [(4, 4)]
  | 0x17 => [(4, 4), (14, 2), (28, 4)] | 0x18 => [(6, 2), (12, 4)] | 0x20 => [(3, 1), (6, 2)] | 0x21 => [(4, 4)] | 0x23 => [(10, 6)]
  | 0x25 =>
    [(9, 7)] ++ (match fieldAt p 8 1 with
      | 1 => [(34, 6)]
      | 2 => [(18, 22)]
      | 3 => [(16, 24)]
      | _ => [])
  | 0x26 => [(20, 4)] | 0x28 => [(4, 4)] | 0x32 => [(4, 4)] | 0x33 => [(11, 1), (14, 6)] | 0x34 => [(1, 1), (4, 4)] | 0x35 => [(1, 7)]
  | 0x36 => [(1, 7)] | 0x37 => [(2, 6)] | 0x40 => [(3, 5)] | 0x41 => [(2, 6)] | 0x42 => [(2, 6)] | 0x50 => [(1, 7)]
  | _ => []

/-- Whether a request carries a generation in expected_gen (R469). -/
def mbGen (op : Nat) (p : Bytes) : Bool :=
  match op with
  | 0x13 => fieldAt p 0 2 == 0xFFFF
  | 0x14 | 0x16 | 0x18 | 0x30 | 0x52 => true
  | _ => false

/-- Whether a request reads a buffer in host memory. -/
def mbReads (op : Nat) (p : Bytes) : Bool :=
  match op with
  | 0x14 => fieldAt p 16 4 != 0
  | 0x18 => fieldAt p 1 1 == 0
  | 0x23 => true
  | 0x26 => fieldAt p 16 4 != 0
  | 0x50 => true
  | _ => false

/-- A function field in the layout of Table 10.6: bits [14:10] clear and a VF number up to 512. -/
def fnCodeOk (c : Nat) : Bool := bitsOf c 14 10 == 0 && decide (c % 1024 ≤ 512)

/-- A column record of TABLE_CREATE at an offset: RSV clear. -/
def colRsv (b : Bytes) (o : Nat) : Bool := decide (fieldAt b (o + 3) 1 < 4) && zeroAt b (o + 18) 6
/-- A column record of TABLE_CREATE: the column, or none where a field is out of range. -/
def colRec (b : Bytes) (o : Nat) : Option Column :=
  let f := fun (k n : Nat) => fieldAt b (o + k) n
  let enc := f 16 1
  let ok := decide (f 0 2 ≤ 4094) && (tyFaults b (o + 2) (o + 4) (o + 5) (o + 6) 2).isEmpty && decide (f 3 1 < 2) && f 8 8 == 0 &&
    (decide (enc ≤ 5) || enc == 0xFF) && decide (f 17 1 ≤ 1)
  if ok then (slotTyOf (f 2 1) (f 4 1) (f 5 1) (f 6 2) (bitOf (f 3 1) 0)).map (fun ty => { id := f 0 2, ty := ty, enc := enc, dictOrd := f 17 1 == 0 }) else none

/-- The ranges of a payload's fields that no state decides. -/
def mbRange (x op : Nat) (p : Bytes) : Bool :=
  let f := fun (o n : Nat) => fieldAt p o n
  let within := fun (n lo hi : Nat) => decide (lo ≤ n) && decide (n ≤ hi)
  match op with
  | 0x01 => decide (f 1 1 ≤ f 2 1)
  | 0x04 => within (f 0 2) 1 (if isVf x then 4 else 84)
  | 0x10 => f 0 4 % 4 == 0 && within (f 4 2) 1 (if isVf x then 14 else 64)
  | 0x12 => within (f 16 4) 1 16777216
  | 0x13 => (f 0 2 == 0xFFFF || within (f 0 2) 1 512) && decide (f 2 1 ≤ 1)
  | 0x14 => decide (f 16 4 ≤ 65535)
  | 0x15 => fnCodeOk (f 0 2) && portOf (fnOfCode (f 0 2)) == portOf x && decide (f 3 1 ≤ 1)
  | 0x16 =>
    let m := f 0 1
    (decide (m ≤ 1) || within m 3 7 || m == 0xFF) && (if m = 4 then within (f 1 1) 1 31 else f 1 1 == 0) &&
      (if m = 6 ∨ m = 0xFF then within (f 2 2) 80 290 else f 2 2 == 0)
  | 0x18 =>
    decide (f 0 1 ≤ 15) && decide (f 1 1 ≤ 1) && (if f 1 1 = 0 then within (f 2 2) 1 2048 else f 2 2 == 0) && decide (f 4 2 + f 2 2 ≤ 2048) &&
      decide (f 4 2 ≤ 2047)
  | 0x20 => fnCodeOk (f 0 2) && decide (f 2 1 ≤ 2)
  | 0x23 => within (f 4 4) 1 0x7FFFFFFF && within (f 8 2) 1 4095
  | 0x25 => within (f 8 1) 1 3
  | 0x27 => within (f 4 4) 1 65536
  | 0x30 =>
    let n := f 1 1
    let l := (p.drop 2).map (·.toNat)
    decide (f 0 1 ≤ 2) && n == schemeK (f 0 1) + schemeM (f 0 1) && l.all (fun i => decide (i < 72)) && l.eraseDups.length == l.length
  | 0x31 => decide (f 0 1 < 72)
  | 0x32 => decide (f 3 1 < 72)
  | 0x33 =>
    (decide (f 10 1 ≤ 2) || f 10 1 == 0xFF) && (decide (f 8 2 ≤ 4094) || f 8 2 == 0xFFFF)
  | 0x34 => (f 0 1 == 1 && decide (f 2 2 < 8)) || f 0 1 == 2
  | 0x35 => decide (f 0 1 ≤ 3)
  | 0x36 => decide (f 0 1 ≤ 3)
  | 0x40 =>
    let i := f 1 1
    let w := f 2 1
    let n := f 8 8
    match f 0 1 with
    | 1 => decide (i ≤ 15) && w == 0 && n == 0
    | 2 => i == 0 && within w 1 8 && n == 0
    | 3 => decide (i ≤ 15) && w == 0 && decide (1 ≤ n)
    | 4 => decide (i ≤ 63) && w == 0 && n == 0
    | 5 => decide (i ≤ 35) && w == 0 && n == 0
    | _ => false
  | 0x50 => decide (f 0 1 ≤ 1) && within (f 16 4) 1 (96 * 2 ^ 20)
  | 0x51 => decide (f 0 1 ≤ 1)
  | 0x52 => decide (f 0 1 ≤ 1)
  | _ => true

/-- The bytes of a payload that a mailbox's request area holds after the header (Table 15.1). -/
def mbArea (x : Nat) : Nat := if isVf x then 88 else 1976

/-- The lowest reason of Table 15.6 for which a request is refused (notes/assumptions/91.md), 0 for none. -/
def Dev.mbReason (d : Dev) (x op : Nat) (r : MbReq) : Nat :=
  let p := r.payload
  let len := r.bytes == mbSize op p && p.length == r.bytes
  let s := (d.mbox x).session
  match mbTable.find? (fun t => t.1 == op) with
  | none => 1
  | some (_, minor, pf) =>
    if (match s with | some m => decide (m < minor) | none => false) then 1
    else if s.isNone && op != 1 && op != 3 then 2
    else if r.ver ≠ 1 then 3
    else if r.rsv ≠ 0 || (len && ((mbRsv op p).any (fun a => !zeroAt p a.1 a.2) || (op == 0x17 && decide (128 ≤ fieldAt p 2 2)) ||
        (op == 0x25 && fieldAt p 8 1 == 1 && decide (4 ≤ fieldAt p 19 1)))) then 4
    else if (r.gen != 0 && !mbGen op p) || (len && !mbRange x op p) then 5
    else if mbArea x < r.bytes || !len then 6
    else if pf && isVf x then 7
    else if mbReads op p && r.buf.isNone then 8
    else 0

/-! ### Sessions (R456, R457, R459) -/

/-- The DDR5 capacity that can be used, in GB rounded down: that of the usable pairs less the frames retired (R365, R369, Table 15.7). -/
def Dev.usableDdrGb (d : Dev) : Nat :=
  ((d.usableUnits 1).map (fun u => (d.memUnit u).gb * 1000000000 - (d.memUnit u).retired.length * frameBytes)).sum / 1000000000

/-- The identity record (Table 15.7); its HBM3E capacity is that of the ordering code (R2; notes/assumptions/166.md). -/
def Dev.identity (d : Dev) (x : Nat) : Bytes :=
  let banked := d.start.banked
  let slot := if d.start.banked then d.mail.boot else d.mail.running
  let fw := if slot = 0 then d.mail.fwA else d.mail.fwB
  let v := fw.version
  let flags := b2n d.node.isSome + 2 * b2n (!d.twin.alone) + 4 * d.twin.pos + 8 * b2n (!d.twin.alone && !d.twin.silent)
  fitTo 16 Config.orderingCode ++ natLE 8 Config.serial ++ natLE 2 Config.hbmGb ++ natLE 1 Config.screening ++ natLE 1 d.sec.lifecycle ++
    natLE 2 (if banked then 0 else d.pipeHearths.length) ++ natLE 2 (if banked then 0 else d.usableDdrGb) ++ natLE 4 v ++
    natLE 1 2 ++ natLE 1 0 ++ natLE 1 (if banked then 0 else d.mail.minor) ++ natLE 1 4 ++ natLE 1 1 ++ natLE 1 d.supports.1 ++ natLE 1 d.supports.2 ++
    natLE 1 fw.tp.2.1 ++ natLE 1 fw.tp.2.2 ++ natLE 1 fw.xp.1 ++ natLE 1 fw.xp.2 ++ zeros 1 ++ natLE 2 (d.node.getD 0) ++ natLE 2 flags ++ zeros 4 ++ natLE 8 d.twin.pairId ++
    natLE 2 (fnCode x) ++ natLE 1 (b2n (if isVf x then !d.fn.fnDirected.contains x else !d.fn.directed)) ++
    natLE 1 (b2n (d.autonomous x)) ++ zeros 28

/-- The response to SESSION_OPEN: the version chosen, the device's range, and the identity record. -/
def Dev.sessionReply (d : Dev) (x major minor hi : Nat) : Bytes :=
  natLE 1 major ++ natLE 1 minor ++ natLE 1 0 ++ natLE 1 hi ++ zeros 4 ++ d.identity x

/-- SESSION_OPEN: the highest minor that both speak (R18); a host that shares no major, or whose lowest minor is above the device's, is
refused with VERSION (DEDUCED, notes/assumptions/94.md). -/
def Dev.mbOpen (d : Dev) (x : Nat) (p : Bytes) : Dev :=
  let hi := if d.start.banked then 0 else d.mail.minor
  let lo := fieldAt p 1 1
  if fieldAt p 0 1 ≠ 2 ∨ hi < lo then
    d.mbAnswer x 0x2001 3 0 0 (natLE 2 0 ++ natLE 1 0 ++ natLE 1 hi ++ zeros 4 ++ d.identity x)
  else
    let minor := min hi (fieldAt p 2 1)
    (d.mboxUpd x (fun m => { m with session := some minor })).mbOk x (d.sessionReply x 2 minor hi)

/-- SESSION_CLOSE. -/
def Dev.mbClose (d : Dev) (x : Nat) : Dev := (d.mboxUpd x (fun m => { m with session := none })).mbOk x []

/-- An event record (Table 15.11). -/
def Event.bytes (e : Event) : Bytes := natLE 2 e.code ++ zeros 2 ++ natLE 4 e.object ++ natLE 8 e.data ++ natLE 8 e.time

/-- EVENT_READ. -/
def Dev.mbEvents (d : Dev) (x n : Nat) : Dev :=
  let m := d.mbox x
  let l := m.events.take n
  (d.mboxUpd x (fun m => { m with events := m.events.drop n, lost := 0 })).mbOk x
    (natLE 4 (min m.lost 0xFFFFFFFF) ++ natLE 4 l.length ++ (l.map Event.bytes).flatten)

/-- OP_STATUS; a handle that names no operation of the function is out of range (DEDUCED, notes/assumptions/93.md). -/
def Dev.mbOpStatus (d : Dev) (x h : Nat) : Dev :=
  match d.mail.ops.find? (fun o => o.handle == h && o.x == x) with
  | some o => d.mbOk x (natLE 1 o.state ++ natLE 1 o.percent ++ natLE 2 o.status ++ natLE 4 o.object)
  | none => d.mbRefuse x 5

/-- Whether a long operation can be cancelled now (Table 15.10). -/
def Dev.cancellable (d : Dev) (o : LongOp) : Bool :=
  match o.op with
  | 0x21 | 0x28 => false
  | 0x51 => (match d.mail.activating with | some a => decide (a.step < 2) | none => true)
  | _ => true

/-- OP_CANCEL: it takes effect, and is answered, at the operation's next step boundary (R464). -/
def Dev.mbCancel (d : Dev) (x h : Nat) : Dev :=
  match d.mail.ops.find? (fun o => o.handle == h && o.x == x) with
  | none => d.mbFail x 0x2050
  | some o =>
    if o.state ≠ 1 || !d.cancellable o then d.mbFail x 0x0001
    else d.opUpd h (fun o => { o with cancel := o.cancel ++ [x] })

/-! ### Registers and memory (R467 to R471) -/

/-- Registers that a read reaches in Banked mode (Table 19.5). -/
def bankedReads (a : Nat) : Bool :=
  (decide (0x02D00000 ≤ a) && decide (a < 0x02D01000)) || (decide (0x02C10000 ≤ a) && decide (a < 0x02C20000)) || a == 0x02C0000C

/-- REG_READ; of the security block it reaches the registers of Table 20.9 alone (R470, R582). -/
def Dev.mbRegRead (d : Dev) (x a n : Nat) : Dev :=
  if d.start.banked then d.mbOk x (((List.range n).map (fun i => if bankedReads (a + 4 * i) then d.readEntry x (a + 4 * i) else zeros 8)).flatten)
  else if (List.range n).any (fun i => secBlock (a + 4 * i) && (regRow (a + 4 * i)).isNone) then d.mbAnswer x 0x6002 0 0 0 []
  else let (b, d1) := d.regReads x a n; d1.mbOk x b

/-- REG_WRITE. -/
def Dev.mbRegWrite (d : Dev) (x : Nat) (p : Bytes) : Dev :=
  let f := fun (o n : Nat) => fieldAt p o n
  match d.regWrite x (f 0 4) (f 4 1) (f 8 8) (f 16 8) (f 24 8) (f 6 2) with
  | (.done v n, d1) => d1.mbOk x (natLE 8 v ++ natLE 2 n)
  | (.failed v n, d1) => d1.mbAnswer x 0 0 1 0 (natLE 8 v ++ natLE 2 n)
  | (.refused st det, d1) => d1.mbAnswer x st det 0 0 []

/-- Bytes of device memory at a DVA, 0 where no frame backs the page (R360). -/
def Dev.dvaBytes (d : Dev) (ctx dva n : Nat) : Bytes :=
  let first := dva / frameBytes
  let pages := (dva + n + frameBytes - 1) / frameBytes - first
  ((List.range pages).map (fun i =>
    let pg := first + i
    let lo := max dva (pg * frameBytes)
    let k := min (dva + n) ((pg + 1) * frameBytes) - lo
    match d.xlEntry ctx pg with
    | some e => d.memRead (4 * e.tier + e.unit) (e.frame * frameBytes + lo % frameBytes) k
    | none => zeros k)).flatten

/-- Bytes of the trace ring at an offset: its records, as they were written. -/
def Dev.ringBytes (d : Dev) (off n : Nat) : Bytes :=
  let first := off / 64
  let cnt := (off + n + 63) / 64 - first
  sliceAt (((List.range cnt).map (fun i => let r := tabGet [] d.qry.trace.recs (first + i); if r.isEmpty then zeros 64 else r)).flatten) (off % 64) n

/-- MEM_READ: claimed HBM3E regions of the PF in the device's context, and the trace ring, which either PF may read (R331, R471). -/
def Dev.mbMemRead (d : Dev) (x : Nat) (p : Bytes) : Dev :=
  let ctx := fieldAt p 0 2
  let dva := fieldAt p 8 8
  let n := fieldAt p 16 4
  let dest := fieldAt p 24 8
  let base := d.reg64 0x02400048
  let inTrace := decide (base ≤ dva) && decide (dva + n ≤ base + 2 ^ (d.regField 0x02400050 4 0)) && (d.claimOf 3 0).isSome
  let mine := d.mail.claims.any (fun c => c.cls == 3 && c.x == x && c.holder == 1 && decide (c.dva ≤ dva) && decide (dva + n ≤ c.dva + c.bytes))
  if ctx ≠ 0 ∨ (inTrace = false ∧ mine = false) then d.mbRefuse x 7
  else (d.hostWrite x dest (if inTrace then d.ringBytes (dva - base) n else d.dvaBytes 0 dva n)).mbOk x (natLE 4 n)

/-! ### Settings (R40, R139, R461, R469, R489) -/

/-- The generation of a command's setting (R469). -/
def Dev.mbGeneration (d : Dev) (op : Nat) : Nat := tabGet 0 d.mail.gens op
def Dev.mbNextGen (d : Dev) (op : Nat) : Dev := { d with mail := { d.mail with gens := tabSet 0 d.mail.gens op ((d.mbGeneration op + 1) % 65536) } }
/-- A command under its generation: it runs when expected_gen equals it; otherwise cw_failed is set and detail returns the generation (DEDUCED, notes/assumptions/97.md). -/
def Dev.underGen (d : Dev) (x op gen : Nat) (f : Dev → Dev) : Dev :=
  if d.mbGeneration op = gen then f d else d.mbAnswer x 0 (d.mbGeneration op) 1 0 []

/-- The stored and the effective level of the device or of a VF (R40). -/
def Dev.policyReply (d : Dev) (x t : Nat) : Bytes :=
  if t = 0xFFFF then [BitVec.ofNat 8 (b2n !d.fn.directed), BitVec.ofNat 8 (b2n !d.fn.directed)]
  else [BitVec.ofNat 8 (b2n (!d.fn.fnDirected.contains (pfOf (portOf x) + t))), BitVec.ofNat 8 (b2n (d.autonomous (pfOf (portOf x) + t)))]

/-- POLICY_SET; an AUTONOMOUS mode change under way still commits when the device becomes DIRECTED (R41, R536) (DESIGN CHOICE,
notes/assumptions/167.md). -/
def Dev.mbPolicy (d : Dev) (x gen : Nat) (p : Bytes) : Dev :=
  let t := fieldAt p 0 2
  let auto := fieldAt p 2 1 == 1
  if t = 0xFFFF then
    d.underGen x 0x13 gen (fun d =>
      let d1 := ({ d with fn := { d.fn with directed := !auto } } : Dev).mbNextGen 0x13
      d1.tellConfig.mbOk x (d1.policyReply x t))
  else
    let y := pfOf (portOf x) + t
    let rest := d.fn.fnDirected.filter (· != y)
    let d1 : Dev := { d with fn := { d.fn with fnDirected := if auto then rest else rest ++ [y] } }
    d1.tellConfig.mbOk x (d1.policyReply x t)

/-- An entry of the NODE_SET table: node and addresses, IPv4 ones in 4 bytes; none where addr_count or a RSV byte is wrong. -/
def nodeRec (b : Bytes) (o : Nat) : Option (Nat × List Bytes) :=
  let n := fieldAt b (o + 2) 1
  if 1 ≤ n ∧ n ≤ 8 then
    some (fieldAt b o 2, (List.range n).map (fun i => (sliceAt b (o + 8 + 16 * i) 16).take (if bitOf (fieldAt b (o + 3) 1) i then 4 else 16)))
  else none

/-- NODE_SET: the node ID and the whole table. The device's own entry gives its per-port addresses. -/
def Dev.mbNode (d : Dev) (x gen : Nat) (p : Bytes) (buf : Bytes) : Dev :=
  let n := fieldAt p 16 4
  let id := fieldAt p 0 2
  let offs := (List.range n).map (136 * ·)
  if buf.length < 136 * n then d.mbRefuse x 8
  else if offs.any (fun o => !zeroAt buf (o + 4) 4) then d.mbRefuse x 4
  else
    let l := offs.filterMap (nodeRec buf)
    if l.length ≠ n || ((l.map (·.1)).eraseDups).length != n then d.mbRefuse x 5
    else
      d.underGen x 0x14 gen (fun d =>
        let own := match l.find? (fun e => e.1 == id) with | some e => (List.range e.2.length).map (fun i => (i, e.2.getD i [])) | none => []
        let d1 := ({ d with fab := { d.fab with nodes := l.filter (fun e => e.1 != id), ownAddrs := own } } : Dev).setReg 0x02500000 (BitVec.ofNat 32 (id + 65536))
        (d1.mbNextGen 0x14).tellConfig.mbOk x [])

/-- SHARING_GROUP_SET: a function joins a group, or a group is emptied (R139, R140). -/
def Dev.mbSharing (d : Dev) (x : Nat) (p : Bytes) : Dev :=
  let y := fnOfCode (fieldAt p 0 2)
  let g := fieldAt p 2 1
  if fieldAt p 3 1 = 0 then ({ d with qry := { d.qry with sharing := tabSet 0 d.qry.sharing y g } } : Dev).mbOk x []
  else
    let key := if g = 0 then 10000 + y else 1000 * portOf x + g
    (d.emptyGroups (· == key)).mbOk x []

/-- VF_SHARES_SET: the share record after the request (R489). -/
def Dev.mbShares (d : Dev) (x : Nat) (p : Bytes) : Dev :=
  match d.sharesSet (pfOf (portOf x)) p with
  | .ok d1 => d1.mbOk x (d1.shareRecord (pfOf (portOf x) + fieldAt p 0 2))
  | .error e => d.mbAnswer x e.1 e.2 0 0 []

/-- MODE_SET (R529 to R532, R536, R537): while a change runs the request waits (DEDUCED, notes/assumptions/75.md). -/
def Dev.mbMode (d : Dev) (x : Nat) (r : MbReq) : Dev :=
  let m := fieldAt r.payload 0 1
  let auto := !d.fn.directed
  let ceil := fieldAt r.payload 2 2
  if auto && decide (3 ≤ m) && decide (m ≤ 6) then d.mbRefuse x 5
  else if d.pwr.change.isSome || d.pwr.entry.isSome then { d with mail := { d.mail with parked := d.mail.parked ++ [(x, 0x16, r)] } }
  else d.underGen x 0x16 r.gen (fun d =>
    if m = 0xFF then
      (if d.pwr.mode = 6 then d.startChange 6 0 ceil (some x) false
       else (({ d with pwr := { d.pwr with ceiling := ceil } } : Dev).mbNextGen 0x16).mbOk x (modeReply d.pwr.mode []))
    else if m ≤ 1 then
      (match d.entryBlocked with
       | some w => d.mbAnswer x 0x4002 w 0 0 []
       | none => (({ d with pwr := { d.pwr with entry := some (m, 0) } } : Dev).mbNextGen 0x16).mbOk x (modeReply m []))
    else d.startChange m (fieldAt r.payload 1 1) (if m = 6 then ceil else d.pwr.ceiling) (some x) false)

/-- CACHE_INVALIDATE (R386). -/
def Dev.mbInvalidate (d : Dev) (x : Nat) (p : Bytes) : Dev := (d.invalidate (fieldAt p 0 2) (fieldAt p 8 8) (fieldAt p 16 8)).mbOk x []

/-! ### Claims (R472 to R474) -/

/-- CLAIM. A hearth held exclusively leaves pipeline work, and a quenched one cannot be taken. -/
def Dev.mbClaim (d : Dev) (x : Nat) (p : Bytes) : Dev :=
  let cls := fieldAt p 0 1
  let i := fieldAt p 1 1
  if cls = 5 ∧ (d.hearth i).quenched then d.mbRefuse x 5
  else
    let was := (d.hearth i).on
    match d.claim x 1 cls i (fieldAt p 2 1) (fieldAt p 8 8) with
    | (.refused st w, d1) => d1.mbAnswer x st w 0 0 []
    | (.granted c, d1) =>
      let d2 := if cls = 5 then (let y := d1.leaveWork i; if was then y.wakeSpare else y) else d1
      d2.mbOk x (natLE 2 c.num ++ natLE 1 c.index ++ zeros 5 ++ natLE 8 (if cls = 2 then c.ways else if cls = 3 then c.dva else 0))

/-- RELEASE. -/
def Dev.mbRelease (d : Dev) (x num : Nat) : Dev :=
  match d.claimNum num with
  | none => d.mbRefuse x 5
  | some c => if c.x = x ∧ c.holder = 1 then (d.endClaim c).mbOk x [] else d.mbRefuse x 7

/-- A record of CLAIMS_LIST. -/
def Claim.listed (c : Claim) : Bytes :=
  natLE 2 c.num ++ natLE 1 c.cls ++ natLE 1 c.index ++ natLE 4 c.word ++ natLE 4 (if c.cls = 2 then c.ways else if c.cls = 3 then c.bytes else 0)

/-- CLAIMS_LIST. -/
def Dev.mbClaims (d : Dev) (x after : Nat) : Dev :=
  let l := (((d.mail.claims.filter (fun c => decide (after < c.num))).mergeSort (fun a b => decide (a.num ≤ b.num)))).take 168
  d.mbOk x (natLE 4 l.length ++ zeros 4 ++ (l.map Claim.listed).flatten)

end Sys2Proof.Machine
end

