-- ==== Sys2Proof/Machine/MbStore.lean ====
section
/-!
DEFINITION. Sys2Proof/Machine/MbStore.lean: system tables, table spaces, tables, stripe groups and the long operations on them
(15_mailbox.md Tables 15.9 and 15.9a; R298, R371, R447, R480, R574, R576, R596).
-/
namespace Sys2Proof.Machine

/-! ### System tables (R298) -/

/-- A system-table command completes once every enabled hearth has applied it: the generation advances. -/
def Dev.sysFinish (d : Dev) : Dev :=
  match d.mail.sysUpdate with
  | none => d
  | some u =>
    if d.pipeHearths.any (fun h => !u.applied.contains h) then d
    else
      let g := (d.regN 0x02300000 + 1) % 65536
      (({ d with mail := { d.mail with sysUpdate := none } } : Dev).setReg 0x02300000 (BitVec.ofNat 32 g)).mbOk u.x (natLE 2 g ++ zeros 6)

/-- SYSTEM_TABLE_APPLY: a hearth takes the copy's entries at a lookup boundary. -/
def Dev.sysApply (d : Dev) (h : Nat) : Dev :=
  match d.mail.sysUpdate with
  | none => d
  | some u =>
    if !(d.hearth h).on || u.applied.contains h then d
    else (({ d with mail := { d.mail with sysUpdate := some { u with applied := u.applied ++ [h] } } } : Dev).loadSys h d.mail.sysTables).sysFinish

/-- SYSTEM_TABLE_WRITE: the copy is written at once and each hearth applies it; a second update waits for the first (DESIGN CHOICE, notes/assumptions/98.md). -/
def Dev.mbSysTable (d : Dev) (x : Nat) (r : MbReq) (buf : Bytes) : Dev :=
  let f := fun (o n : Nat) => fieldAt r.payload o n
  let t := f 0 1
  let n := f 2 2
  let first := f 4 2
  let entries := (parseCareBank buf 0 2 n).entries
  let ovr := d.mail.sysTables.any (fun k => k.table != t && decide (k.first < first + n) && decide (first < k.first + k.entries.length))
  let badKey := entries.any (fun e => ((e.key.zip e.care)).any (fun p => p.1 &&& ~~~ p.2 != 0))
  if d.mail.sysUpdate.isSome then { d with mail := { d.mail with parked := d.mail.parked ++ [(x, 0x18, r)] } }
  else if f 1 1 = 0 ∧ buf.length < 40 * n then d.mbRefuse x 8
  else if f 1 1 = 0 ∧ (List.range n).any (fun e => !zeroAt buf (40 * e + 37) 3) = true then d.mbRefuse x 4
  else if f 1 1 = 0 ∧ (ovr || badKey) = true then d.mbRefuse x 5
  else if d.regN 0x02300000 ≠ r.gen then d.mbAnswer x 0 (d.regN 0x02300000) 1 0 []
  else
    let rest := d.mail.sysTables.filter (fun k => k.table != t)
    let all := if f 1 1 = 0 then rest ++ [({ table := t, first := first, miss := f 8 4, entries := entries } : SysTable)] else rest
    let w := d.regN 0x02300004
    let d1 := if bitOf w t then d.setReg 0x02300004 (BitVec.ofNat 32 (w - 2 ^ t)) else d
    ({ d1 with mail := { d1.mail with sysTables := all, sysUpdate := some { x := x, table := t } } } : Dev).sysFinish

/-! ### Table spaces and tables -/

/-- The table space a command names: the issuing function's own, or one of a VF of the issuing PF (R45, R460). -/
def Dev.mbSpace (d : Dev) (x ts : Nat) : Except Nat TSpace :=
  match d.space ts with
  | none => .error 0x2002
  | some s =>
    if s.deleting then .error 0x2002
    else if !(s.x == x || (!isVf x && pfOf (portOf s.x) == x) || d.twin.adopted.contains (s.x, x)) then .error 0x6001
    else if d.spaceDown s || s.replay then .error 0x5002
    else .ok s

/-- What the partner is told of the catalog without an epoch (notes/assumptions/90.md). -/
def Dev.tellCat (d : Dev) (ts : Nat) (body : List Nat) : Dev := d.twinSend 6 (ts :: 0 :: 3 :: body) []

/-- TS_CREATE (R45, R48, R461, R574). -/
def Dev.mbTsCreate (d : Dev) (x : Nat) (p : Bytes) : Dev :=
  let f := fun (o n : Nat) => fieldAt p o n
  let y := fnOfCode (f 0 2)
  let scheme := f 2 1
  let home := f 4 2
  let mine := (d.store.spaces.filter (fun s => s.x == y)).length
  if !(y == x || (!isVf x && pfOf (portOf y) == x)) then d.mbRefuse x 7
  else if !d.store.groups.any (fun g => g.id == home && g.scheme == scheme) then d.mbRefuse x 5
  else if 4096 ≤ d.store.spaces.length ∨ (if isVf y then 64 else 256) ≤ mine ∨ 0xFFFFFFFF ≤ d.store.lastTs then d.mbFail x 0x4001
  else match d.sec.keys.find? (fun k => k.ref == f 12 4 && k.going.isNone) with
    | none => d.mbFail x 0x6003
    | some k =>
      if d.store.spaces.any (fun s => s.key == k.ref) then d.mbFail x 0x6003
      else
        let id := d.store.lastTs + 1
        let s : TSpace := { id := id, x := y, owner := d.twin.pos, scheme := scheme, retain := f 8 4, key := k.ref, keyCheck := k.check, home := home }
        (({ d with store := { d.store with spaces := d.store.spaces ++ [s], lastTs := id } } : Dev).tellCat id [y, scheme, home, f 8 4, k.ref]).mbOk x (natLE 4 id)

/-- TS_CONFIG. -/
def Dev.mbTsConfig (d : Dev) (x : Nat) (p : Bytes) : Dev :=
  let ts := fieldAt p 0 4
  match d.mbSpace x ts with
  | .error e => d.mbFail x e
  | .ok _ => (((d.spaceUpd ts (fun s => { s with retain := fieldAt p 4 4 })).raiseFloor ts).tellCat ts [fieldAt p 4 4]).mbOk x []

/-- A catalog change of a mailbox command commits one epoch, which the response carries. -/
def Dev.mbCat (d : Dev) (x ts table : Nat) (all : Bool) (change : Option CatChange) : Dev :=
  match d.catCommit { ts := ts, epoch := 0, use := .catalog x, table := table, kind := 3, retireAll := all, change := change } with
  | .ok d1 => d1
  | .error e => d.mbFail x e

/-- Whether a table ID has been used in a table space, or is about to be (R48). -/
def Dev.idUsed (d : Dev) (s : TSpace) (id : Nat) : Bool :=
  let makes := fun (c : Commit) => c.ts == s.id && (match c.change with | some (.create t) => t.id == id | _ => false)
  s.usedIds.contains id || s.tables.any (fun t => t.id == id) || d.store.commits.any makes || d.mail.asks.any makes

/-- TABLE_CREATE. -/
def Dev.mbTableCreate (d : Dev) (x : Nat) (p buf : Bytes) : Dev :=
  let ts := fieldAt p 0 4
  let id := fieldAt p 4 4
  let n := fieldAt p 8 2
  match d.mbSpace x ts with
  | .error e => d.mbFail x e
  | .ok s =>
    let offs := (List.range n).map (24 * ·)
    if buf.length < 24 * n then d.mbRefuse x 8
    else if offs.any (fun o => !colRsv buf o) then d.mbRefuse x 4
    else
      let cols := offs.filterMap (colRec buf)
      if cols.length ≠ n || ((cols.map (·.id)).eraseDups).length != n || d.idUsed s id then d.mbRefuse x 5
      else if 65535 ≤ (s.tables.filter (fun t => t.drop == 0 && !isSlag t.id)).length then d.mbFail x 0x4001
      else d.mbCat x ts id false (some (.create { id := id, cols := cols }))

/-- TABLE_DROP. -/
def Dev.mbTableDrop (d : Dev) (x : Nat) (p : Bytes) : Dev :=
  let ts := fieldAt p 0 4
  let id := fieldAt p 4 4
  match d.mbSpace x ts with
  | .error e => d.mbFail x e
  | .ok s => if isSlag id ∨ (s.table id s.visible).isNone then d.mbFail x 0x2003 else d.mbCat x ts id false (some (.drop id))

/-- TABLE_ALTER. -/
def Dev.mbTableAlter (d : Dev) (x : Nat) (p : Bytes) : Dev :=
  let ts := fieldAt p 0 4
  let id := fieldAt p 4 4
  let act := fieldAt p 8 1
  match d.mbSpace x ts with
  | .error e => d.mbFail x e
  | .ok s =>
    if id % 2 ^ 31 = 0 ∨ (act ≠ 3 ∧ 4094 < fieldAt p 16 2) then d.mbRefuse x 5 else
    match s.table id s.visible with
    | none => d.mbFail x 0x2003
    | some t =>
      if isSlag id ∧ act ≠ 3 then d.mbRefuse x 5
      else if act = 3 then d.mbCat x ts id true none
      else if act = 1 then
        (match colRec p 16 with
         | none => d.mbRefuse x 5
         | some c =>
           let adds := fun (k : Commit) => k.ts == ts && (match k.change with | some (.alter i l _) => i == id && l.any (fun a => a.id == c.id) | _ => false)
           if !c.ty.nullable || t.cols.any (fun k => k.id == c.id) || d.store.commits.any adds || d.mail.asks.any adds then d.mbRefuse x 5
           else d.mbCat x ts id false (some (.alter id [c] [])))
      else
        let col := fieldAt p 16 2
        if (t.column col s.visible).isNone then d.mbFail x 0x2003
        else if (t.liveCols s.visible).length ≤ 1 then d.mbRefuse x 5
        else d.mbCat x ts id false (some (.alter id [] [col]))

/-- The fault of a validation image (R135, R461): an image with one FILTER stage over the table's live columns (DESIGN CHOICE, notes/assumptions/50.md). -/
def validationFault (im : Image) (tys : List SlotTy) : Option IFault :=
  match (List.range im.stages.length).filter (fun i => (im.stages.getD i {}).op == 0x04) with
  | [i] => if inTypes im i 0 = tys then none else some ⟨im.stageOff i, 0x13⟩
  | _ => some ⟨im.secOff 0x01, 0x0D⟩

/-- TABLE_VALIDATION_SET: the image applies from C. -/
def Dev.mbValidation (d : Dev) (x : Nat) (p buf : Bytes) : Dev :=
  let ts := fieldAt p 0 4
  let id := fieldAt p 4 4
  let n := fieldAt p 16 4
  match d.mbSpace x ts with
  | .error e => d.mbFail x e
  | .ok s =>
    match s.table id s.visible with
    | none => d.mbFail x 0x2003
    | some t =>
      let set := fun (im : Option Image) =>
        ((d.spaceUpd ts (fun s => { s with tables := applyChange 0 s.tables (.check id im) })).tellCat ts [id, n]).mbOk x (natLE 8 s.visible)
      let bad := fun (f : IFault) => d.mbAnswer x (if f.off = 8 ∧ f.reason = 0x0C then 0x3005 else 0x2020) f.off 0 0 (natLE 2 f.reason)
      if isSlag id then d.mbFail x 0x2003
      else if n = 0 then set none
      else if sha 0 (buf.take n) ≠ sliceAt p 24 32 then d.mbFail x 0x3010
      else match structCheck d.supports.1 d.supports.2 n (buf.take n) with
        | .error f => bad f
        | .ok im =>
          match validationFault im ((t.liveCols s.visible).map (·.ty)) with
          | some f => bad f
          | none => set (some im)

/-- A record of COMMIT_HISTORY (R480). -/
def TSpace.historyRec (s : TSpace) (e : Nat) : Bytes :=
  match s.history.find? (fun r => r.epoch == e) with
  | some r => natLE 8 e ++ natLE 1 r.kind ++ natLE 1 r.writer ++ natLE 2 r.fn ++ natLE 2 r.queue ++ natLE 2 r.cid ++ natLE 4 r.table ++ zeros 4 ++ natLE 8 r.seconds
  | none => natLE 8 e ++ zeros 24

/-- COMMIT_HISTORY: from the oldest epoch kept on, up to C. -/
def Dev.mbHistory (d : Dev) (x : Nat) (p : Bytes) : Dev :=
  match d.mbSpace x (fieldAt p 0 4) with
  | .error e => d.mbFail x e
  | .ok s =>
    let kept := max 1 (min s.floor (s.visible - 65535))
    let from_ := max kept (fieldAt p 8 8)
    let n := min (fieldAt p 4 4) (s.visible + 1 - from_)
    (if n = 0 then d else d.hostWrite x (fieldAt p 16 8) ((List.range n).map (fun i => s.historyRec (from_ + i))).flatten).mbOk x
      (natLE 8 from_ ++ natLE 4 n ++ zeros 4)

/-! ### Stripe groups and spares -/

/-- GROUP_CREATE (R72, R73, R75). -/
def Dev.mbGroup (d : Dev) (x gen : Nat) (p : Bytes) : Dev :=
  let scheme := fieldAt p 0 1
  let l := (p.drop 2).map (·.toNat)
  let fit := fun (i : Nat) => (d.drive i).link && ((d.drive i).state == 3 || (d.drive i).state == 4)
  let small := l.foldl (fun m i => min m (d.drive i).blocks) (2 ^ 64)
  let rows := (small - 16384) / stripBlocks scheme
  if l.any (fun i => !fit i) || rows == 0 then d.mbRefuse x 5
  else match (List.range 16).find? (fun k => !d.store.groups.any (fun g => g.id == k)) with
    | none => d.mbFail x 0x4001
    | some id => d.underGen x 0x30 gen (fun d =>
        let d1 := (List.range l.length).foldl (fun (d : Dev) pos =>
          let i := l.getD pos 0
          (d.driveUpd i (fun k => { k with state := 2 })).writeLabel i (fun _ => { pair := d.twin.pairId, role := 0, group := id, pos := pos, nguid := (d.drive i).nguid })) d
        let d3 : Dev := { d1 with store := { d1.store with groups := d1.store.groups ++ [{ id := id, scheme := scheme, members := l, rows := rows }] } }
        ((d3.tellCat 0 (id :: scheme :: rows :: l)).mbNextGen 0x30).mbOk x (natLE 2 id ++ natLE 4 rows))

/-- SPARE_ASSIGN: an unassigned drive's label is rewritten with role spare (R442). -/
def Dev.mbSpare (d : Dev) (x i : Nat) : Dev :=
  let k := d.drive i
  if k.link && (k.state == 3 || k.state == 4) then
    ((d.driveUpd i (fun k => { k with state := 3 })).writeLabel i (fun _ => { pair := d.twin.pairId, role := 1, nguid := k.nguid })).mbOk x []
  else d.mbRefuse x 5

/-! ### Long operations begin (R462, R463) -/

/-- What a long operation works on: kind (1 table space, 2 stripe group, 3 drive, 4 memory pair, 5 firmware slot) and number. -/
def opTargets (op : Nat) (args : List Nat) : List (Nat × Nat) :=
  let a := fun (i : Nat) => args.getD i 0
  match op with
  | 0x21 | 0x28 | 0x33 => [(1, a 0)]
  | 0x32 => [(2, a 0), (3, a 2)]
  | 0x34 => if a 0 = 2 then [(2, a 1)] else if 4 ≤ a 1 then [(4, a 1 - 4)] else []
  | 0x35 | 0x36 => [(4, a 0)]
  | _ => [(5, a 0)]

/-- A long operation accepted with its handle, or the status and detail that refuse it: eight run, or one runs on the same target. -/
def Dev.openOp (d : Dev) (x op : Nat) (args : List Nat) (data : Bytes) (total : Nat) : Except (Nat × Nat) (Nat × Dev) :=
  let mine := opTargets op args
  if 8 ≤ d.runningOps.length then .error (0x1003, 0)
  else match d.runningOps.find? (fun o => (opTargets o.op o.args).any mine.contains) with
    | some o => .error (0x4002, if o.x = opOrphan then 0x70000 else holderWord o.x 7)
    | none =>
      let n := d.mail.nextHandle
      .ok (n, { d with mail := { d.mail with
        ops := d.mail.ops ++ [{ handle := n, x := x, op := op, args := args, data := data, total := total, object := args.headD 0 }], nextHandle := n + 1 } })

/-- The response that carries the handle. -/
def Dev.mbBegun (d : Dev) (x h : Nat) : Dev := d.mbAnswer x 0 0 0 h []
/-- A long operation begun by a request, with what begins at once. -/
def Dev.mbLong (d : Dev) (x op : Nat) (args : List Nat) (data : Bytes) (total : Nat) (f : Dev → Nat → Except Nat Dev) : Dev :=
  match d.openOp x op args data total with
  | .error e => d.mbAnswer x e.1 e.2 0 0 []
  | .ok (h, d1) =>
    match f d1 h with
    | .ok d2 => d2.mbBegun x h
    | .error e => d.mbFail x e

/-- The function whose command or hold keeps a table space from being removed. -/
def Dev.tsUser (d : Dev) (ts : Nat) : Option Nat :=
  let names := fun (op : Nat) (entry : Bytes) => (op == 1 || op == 2 || op == 3 || op == 6) && fieldAt entry 8 4 == ts
  match d.host.qps.find? (fun p => p.2.cmds.any (fun c => names c.op c.entry)) with
  | some p => some (p.1 / 8192)
  | none =>
    match d.twin.cmds.find? (fun c => names c.op c.entry) with
    | some c => some c.x
    | none =>
      match d.store.holds.find? (fun h => h.ts == ts), d.twin.holds.find? (fun h => h.ts == ts), d.store.commits.find? (fun c => c.ts == ts), d.mail.asks.find? (fun c => c.ts == ts) with
      | some h, _, _, _ => some h.x
      | none, some h, _, _ => some h.x
      | none, none, some c, _ => some (fnOfCode (d.commitWho c).1)
      | none, none, none, some c => some (fnOfCode (d.commitWho c).1)
      | none, none, none, none => none

/-- TS_DELETE and TS_SECURE_ERASE: one CATALOG record removes the table space, and its stripe rows are deallocated in steps. -/
def Dev.mbTsRemove (d : Dev) (x op : Nat) (p : Bytes) : Dev :=
  let ts := fieldAt p 0 4
  match d.mbSpace x ts with
  | .error e => d.mbFail x e
  | .ok s =>
    match d.tsUser ts with
    | some y => d.mbAnswer x 0x4002 (holderWord y 1) 0 0 []
    | none => d.mbLong x op [ts] [] (max 1 s.extents.length) (fun d h =>
        match d.catCommit { ts := ts, epoch := 0, use := .relayout h, kind := 3, change := some (if op = 0x28 then .erase else .remove) } with
        | .ok d1 => .ok (d1.spaceUpd ts (fun s => { s with deleting := true }))
        | .error e => .error e)

/-- REBUILD_START (R447): a spare, or the drive whose label already has the position's rebuilding mark (Table 15.10). -/
def Dev.mbRebuild (d : Dev) (x : Nat) (p : Bytes) : Dev :=
  let g := fieldAt p 0 2
  let pos := fieldAt p 2 1
  let i := fieldAt p 3 1
  let k := d.drive i
  match d.store.groups.find? (fun q => q.id == g) with
  | none => d.mbRefuse x 5
  | some q =>
    let marked := match k.label with | some l => l.role == 0 && l.group == g && l.pos == pos && l.rebuilding && k.state == 7 | none => false
    if !q.failed.contains pos || (d.rebuildOf g pos).isSome || !(k.state == 3 || marked) || decide (k.blocks < q.need) then d.mbRefuse x 5
    else d.mbLong x 0x32 [g, pos, i] [] (max 1 q.used.length) (fun d h => .ok (d.startRebuild g pos i [] (some h)))

/-- The extents of a table space that a RELAYOUT covers, by number. -/
def TSpace.covered (s : TSpace) (table col lo hi : Nat) : List Nat :=
  ((s.extents.filter (fun x => x.retire == 0 && (table == 0 || x.table == table) && (col == 0xFFFF || x.col == col) && decide (lo ≤ x.num) && decide (x.num < hi))).map
    (·.num)).mergeSort (fun a b => decide (a ≤ b))

/-- RELAYOUT (R67, R430). -/
def Dev.mbRelayout (d : Dev) (x : Nat) (p : Bytes) : Dev :=
  let f := fun (o n : Nat) => fieldAt p o n
  let ts := f 0 4
  match d.mbSpace x ts with
  | .error e => d.mbFail x e
  | .ok s =>
      let scheme := f 10 1
      let home := f 12 2
      let first := f 20 8
      let hi := if f 28 8 = 0 then s.nextExtent else min s.nextExtent (first + f 28 8)
      if f 4 4 ≠ 0 ∧ (s.table (f 4 4) s.visible).isNone = true then d.mbFail x 0x2003
      else if scheme ≠ 0xFF ∧ scheme ≠ s.scheme ∧
          (f 4 4 ≠ 0 ∨ f 8 2 ≠ 0xFFFF ∨ f 28 8 ≠ 0 ∨ d.store.groups.any (fun g => g.id == home && g.scheme == scheme) = false) then d.mbRefuse x 5
      else if d.locked s then d.mbFail x 0x6003
      else d.mbLong x 0x33 [ts, f 4 4, f 8 2, if scheme = s.scheme then 0xFF else scheme, home, hi, first] [] (max 1 (s.covered (f 4 4) (f 8 2) first hi).length)
        (fun d _ => .ok d)

/-- SCRUB (R596). -/
def Dev.mbScrub (d : Dev) (x : Nat) (p : Bytes) : Dev :=
  let i := fieldAt p 2 2
  if fieldAt p 0 1 = 1 then
    (if (d.memUnit i).state ≠ 2 then d.mbRefuse x 5 else d.mbLong x 0x34 [1, i, 0, 0] [] (max 1 (d.memUnit i).lines) (fun d _ => .ok d))
  else match d.store.groups.find? (fun g => g.id == i) with
    | none => d.mbRefuse x 5
    | some g => d.mbLong x 0x34 [2, i, 0, 0] [] (max 1 g.used.length) (fun d _ => .ok d)

/-- The domains of a pair's channels switched. -/
def Dev.pairPower (d : Dev) (pair st : Nat) : Dev := (d.setDomain (40 + 2 * pair) st).setDomain (41 + 2 * pair) st

/-- MEM_PAIR_OFFLINE (R371): the other pairs must be able to hold its backed frames; from acceptance on it takes no more. -/
def Dev.mbPairOff (d : Dev) (x pair : Nat) : Dev :=
  let u := 4 + pair
  if (d.memUnit u).state ≠ 2 ∨ (d.memUnit u).leaving = true then d.mbRefuse x 5
  else
    let n := (d.backed u).length
    let room := ((d.usableUnits 1).filter (· != u)).map (fun k => let m := d.memUnit k; m.frames - (d.backed k).length - m.retired.length)
    if room.sum < n then d.mbFail x 0x4004
    else d.mbLong x 0x35 [pair] [] (max 1 n) (fun d _ => .ok (d.memUnitUpd u (fun m => { m with leaving := true })))

/-- MEM_PAIR_ONLINE (R371, R591): an offline or fenced pair is powered to train. -/
def Dev.mbPairOn (d : Dev) (x pair : Nat) : Dev :=
  let u := 4 + pair
  if (d.memUnit u).state ≠ 3 then d.mbRefuse x 5
  else d.mbLong x 0x36 [pair] [] 1 (fun d _ => .ok ((d.memUnitUpd u (fun m => { m with state := 1 })).pairPower pair 2))

/-! ### Steps of long operations (R463, R464, Table 15.10) -/

/-- Arguments of an operation. -/
def LongOp.arg (o : LongOp) (i : Nat) : Nat := o.args.getD i 0

/-- A commit of an operation that has still to end. -/
def Dev.opCommits (d : Dev) (h : Nat) : Bool := d.store.commits.any (fun c => c.use == .relayout h) || d.mail.asks.any (fun c => c.use == .relayout h)

/-- What a cancelled operation leaves (Table 15.10). -/
def Dev.opCancelled (d : Dev) (o : LongOp) : Dev :=
  let d1 : Dev := match o.op with
    | 0x32 =>
      let mine := d.store.rebuilds.filter (fun (r : Rebuild) => r.op == some o.handle)
      let d1 := d.dropCmds (fun c => mine.any (fun r => c.use == .rebuild r.group r.pos))
      { d1 with store := { d1.store with rebuilds := d1.store.rebuilds.filter (fun (r : Rebuild) => r.op != some o.handle) } }
    | 0x33 => d.stopRelayout o.handle
    | 0x35 => d.memUnitUpd (4 + o.arg 0) (fun m => { m with leaving := false })
    | 0x36 => (d.memUnitUpd (4 + o.arg 0) (fun m => { m with state := 3 })).pairPower (o.arg 0) 0
    | 0x50 => if o.arg 0 = 0 then { d with mail := { d.mail with fwA := { d.mail.fwA with state := 1 } } }
        else { d with mail := { d.mail with fwB := { d.mail.fwB with state := 1 } } }
    | _ => d
  (d1.opEnd o.handle 0 true 0).closeCommits

/-- TS_DELETE, TS_SECURE_ERASE: 16 rows deallocated per step; the last step takes the table space out of the catalog. -/
def Dev.stepRemove (d : Dev) (o : LongOp) : Dev :=
  let ts := o.arg 0
  if d.opCommits o.handle then d
  else match d.space ts with
    | none => d.opEnd o.handle 0 false 0
    | some s =>
      let now := s.extents.take 16
      if s.extents.length ≤ 16 then
        let d1 := d.dropSpace ts
        (if o.op = 0x28 then d1.dissolve true else d1).opEnd o.handle 0 false 0
      else
        let d1 := (now.foldl (fun d x => d.trimRow x.group x.row) d).spaceUpd ts (fun s => { s with extents := s.extents.drop 16 })
        ({ d1 with store := { d1.store with groups := freeRows d1.store.groups now } } : Dev).opStep o.handle 16

/-- RELAYOUT: each step commits one epoch over up to 256 extents; a new scheme's home group is in the last one. -/
def Dev.stepRelayout (d : Dev) (o : LongOp) : Dev :=
  let ts := o.arg 0
  if d.opCommits o.handle then d
  else match d.space ts with
    | none => d.opEnd o.handle 0x2002 false 0
    | some s =>
      let all := s.covered (o.arg 1) (o.arg 2) (o.arg 6) (o.arg 5)
      let now := all.take 256
      let last := decide (all.length ≤ 256)
      let rescheme := o.arg 3 != 0xFF
      if all.isEmpty && (!rescheme || s.home == o.arg 4 && s.scheme == o.arg 3) then d.opEnd o.handle 0 false 0
      else
        let ch := if rescheme then some (CatChange.rehome (o.arg 3) (if last then some (o.arg 4) else none)) else none
        let next := (now.getLast?.getD 0) + 1
        match d.catCommit { ts := ts, epoch := 0, use := .relayout o.handle, kind := 4, retired := now, change := ch } with
        | .ok d1 => (d1.opUpd o.handle (fun o => { o with args := updAt o.args 6 (fun k => max k next) })).opStep o.handle now.length
        | .error e => d.opEnd o.handle e false 0

/-- SCRUB: lines of a unit, or 16 referenced stripe rows of a group; a row found in error is laid out anew. -/
def Dev.stepScrub (d : Dev) (o : LongOp) (f : StepIn) : Dev :=
  if o.arg 0 = 1 then
    let u := o.arg 1
    let d1 := (d.patrol u f.lines f.errs).opStep o.handle f.lines
    if o.total ≤ o.done + f.lines ∨ (d1.memUnit u).state ≠ 2 then d1.opEnd o.handle 0 false 0 else d1
  else match d.store.groups.find? (fun g => g.id == o.arg 1) with
    | none => d.opEnd o.handle 0 false 0
    | some g =>
      let rows := (g.used.filter (fun r => decide (o.arg 2 ≤ r))).mergeSort (fun a b => decide (a ≤ b))
      let now := rows.take 16
      let bad := (now.filter f.rows.contains).filter (fun r => !d.beyond g.id r)
      let d1 := bad.foldl (fun (d : Dev) r => d.relayoutRow g.id r) d
      let n := o.arg 3 + bad.length
      let next := (now.getLast?.getD 0) + 1
      if rows.length ≤ 16 then d1.opEnd o.handle 0 false n
      else (d1.opUpd o.handle (fun o => { o with args := [o.arg 0, o.arg 1, next, n] })).opStep o.handle 16

/-- MEM_PAIR_OFFLINE: 16 frames move per step; when none is left the pair is powered down. -/
def Dev.stepPairOff (d : Dev) (o : LongOp) : Dev :=
  let u := 4 + o.arg 0
  let d1 := ((d.backed u).take 16).foldl (fun (d : Dev) f =>
    match ((d.usableUnits 1).filter (· != u)).find? (fun t => (d.freeFrame t).isSome) with
    | some t => d.moveFrame u f t
    | none => d) d
  if (d1.backed u).isEmpty then
    let d2 := (d1.memUnitUpd u (fun m => { m with state := 3, leaving := false, dirty := [] })).pairPower (o.arg 0) 0
    (d2.eventPf 0x0007 (o.arg 0) 0).opEnd o.handle 0 false 0
  else d1.opStep o.handle ((d.backed u).length - (d1.backed u).length)

/-- MEM_PAIR_ONLINE: the pair trains, and its fence ends with it (R591); a failure leaves it offline (DESIGN CHOICE,
notes/assumptions/138.md). -/
def Dev.stepPairOn (d0 : Dev) (o : LongOp) (f : StepIn) : Dev :=
  let u := 4 + o.arg 0
  let fenced := d0.health.unitsFenced.contains u
  let d : Dev := if f.ok && fenced then ({ d0 with health := { d0.health with unitsFenced := d0.health.unitsFenced.filter (· != u) } } : Dev).repairWritten else d0
  if f.ok then
    ((d.memUnitUpd u (fun m => { m with state := 2, gb := f.gb, rk := f.rk, x4 := f.x4, leaving := false, dirty := [] })).pairPower (o.arg 0)
      (d.domTarget d.pwr.mode d.pwr.serve (40 + 2 * o.arg 0))).opEnd o.handle 0 false 0
  else ((d.memUnitUpd u (fun m => { m with state := 3 })).pairPower (o.arg 0) 0).opEnd o.handle 0x5001 false 0

end Sys2Proof.Machine
end

