-- ==== Sys2Proof/Machine/MbFw.lean ====
section
/-!
DEFINITION. Sys2Proof/Machine/MbFw.lean: firmware slots and activation, the steps of long operations, and how a mailbox request is taken,
refused and served (15_mailbox.md R451 to R455, R475 to R479; 19 R555, R556; 20 R560, R568).
-/
namespace Sys2Proof.Machine

/-! ### Images (R567, R568) -/

/-- Whether a manifest and its body at an offset of an image verify, for a kind and a least svn. -/
def imageVerifies (b : Bytes) (o kind minSvn : Nat) : Bool :=
  let f := fun (k n : Nat) => fieldAt b (o + k) n
  let key := sliceAt b (o + 0x40) 96
  let n := f 0x0C 4
  decide (o + 0x1000 + n ≤ b.length) && f 0 4 == 0x51E93A1F && f 4 1 == 1 && f 5 1 == kind && decide (f 6 1 < 8) && decide (f 7 1 ≤ 64) &&
    zeroAt b (o + 0x100) 3840 && sha 1 key == Config.romKey (f 6 1) && ecdsaVerify key (sliceAt b o 0xA0) (sliceAt b (o + 0xA0) 96) &&
    sha 1 (sliceAt b (o + 0x1000) n) == sliceAt b (o + 0x10) 48 && decide (minSvn ≤ f 7 1)

/-- The offset of the hearth microcode bundle: the first 4 KiB boundary after the Shehal body. -/
def microOffset (b : Bytes) : Nat := ceilDiv (0x1000 + fieldAt b 0x0C 4) 4096 * 4096

/-- Whether an image is verified (R568): Shehal, and the microcode that stands behind it in the slot. -/
def fwVerify (b : Bytes) (minSvn : Nat) : Bool := imageVerifies b 0 1 minSvn && imageVerifies b (microOffset b) 2 minSvn

def Dev.slotUpd (d : Dev) (s : Nat) (f : FwSlot → FwSlot) : Dev :=
  if s = 0 then { d with mail := { d.mail with fwA := f d.mail.fwA } } else { d with mail := { d.mail with fwB := f d.mail.fwB } }

/-! ### FW_STAGE, FW_SELECT, FW_STATUS (R476, R477) -/

/-- Whether an image may be written into a slot: the running one only where no slot runs. -/
def Dev.slotFree (d : Dev) (s : Nat) : Bool := d.start.banked || s != d.mail.running

/-- FW_STAGE. -/
def Dev.mbFwStage (d : Dev) (x : Nat) (p buf : Bytes) : Dev :=
  let s := fieldAt p 0 1
  let n := fieldAt p 16 4
  if !d.slotFree s then d.mbAnswer x 0x4002 (holderWord 0 6) 0 0 []
  else if buf.length < n then d.mbRefuse x 8
  else d.mbLong x 0x50 [s] (buf.take n) 3 (fun d _ => .ok d)

/-- A step of FW_STAGE: the slot is marked invalid and erased; the image is written; it is read back, verified and the slot marked valid. -/
def Dev.stepStage (d : Dev) (o : LongOp) : Dev :=
  let s := o.arg 0
  match o.done with
  | 0 => (d.slotUpd s (fun _ => { state := 1 })).opStep o.handle 1
  | 1 => (d.slotUpd s (fun k => { k with image := o.data })).opStep o.handle 1
  | _ =>
    if fwVerify o.data d.sec.svnMin then
      (d.slotUpd s (fun k => { k with
        state := 2, version := fieldAt o.data 8 4, digest := sha 1 o.data, svn := fieldAt o.data 7 1 })).opEnd o.handle 0 false 0
    else d.opEnd o.handle 0x3010 false 0

/-- FW_SELECT. -/
def Dev.mbFwSelect (d : Dev) (x gen s : Nat) : Dev :=
  if d.slotState s ≠ 2 then d.mbRefuse x 5
  else d.underGen x 0x52 gen (fun d => (({ d with mail := { d.mail with boot := s } } : Dev).mbNextGen 0x52).mbOk x [])

def FwSlot.status (f : FwSlot) : Bytes := natLE 1 f.state ++ natLE 4 f.version ++ fitTo 48 f.digest
/-- FW_STATUS (DESIGN CHOICE, notes/assumptions/95.md). -/
def Dev.mbFwStatus (d : Dev) (x : Nat) : Dev :=
  d.mbOk x (d.mail.fwA.status ++ d.mail.fwB.status ++ natLE 1 d.mail.running ++ natLE 1 d.mail.boot)

/-! ### FW_ACTIVATE (R418, R478, R479, R525) -/

/-- Whether the image of a slot shares a TP major with the partner's running firmware. -/
def Dev.sharesTp (d : Dev) (s : Nat) : Bool :=
  match d.twin.state, d.twin.partner with
  | 3, some it =>
    let r := (d.slotFw s).tp
    decide (max r.1 it.tpMajorMin ≤ min r.2.1 it.tpMajorMax)
  | _, _ => true

/-- The holder of an activation under way. -/
def Dev.activator (d : Dev) : Option LongOp := d.runningOps.find? (fun o => o.op == 0x51)

/-- FW_ACTIVATE; in Banked mode it begins a start attempt. -/
def Dev.mbFwActivate (d : Dev) (x s : Nat) : Dev :=
  if d.slotState s ≠ 2 then d.mbRefuse x 5
  else if d.start.banked then (d.mbOk x []).bankedActivate s
  else if (d.slotFw s).svn < d.sec.svnMin ∨ d.sharesTp s = false then d.mbRefuse x 5
  else match d.activator with
    | some o => d.mbAnswer x 0x4002 (if o.x = opOrphan then 0x70000 else holderWord o.x 7) 0 0 []
    | none => d.mbLong x 0x51 [s] [] 5 (fun d _ => .ok d)

/-- The functions whose mailboxes may be ready (DEDUCED, notes/assumptions/100.md). -/
def Dev.boxFns (d : Dev) : List Nat :=
  [0, 513].foldl (fun l p => l ++ (List.range (tabGet 0 d.fn.numVfs (portOf p) + 1)).map (p + ·)) []

/-- ready of every mailbox, and fetching, as they stand once an activation has ended. -/
def Dev.fwResume (d : Dev) : Dev :=
  d.boxFns.foldl (fun (d : Dev) x => d.mboxUpd x (fun m => { m with ready := !d.inReset x })) ({ d with mail := { d.mail with activating := none } } : Dev)

/-- Sessions whose MP minor the running firmware does not speak are closed (R479). -/
def Dev.closeOld (d : Dev) : Dev :=
  d.boxFns.foldl (fun (d : Dev) x =>
    match (d.mbox x).session with
    | some m => if d.mail.minor < m then (d.mboxUpd x (fun b => { b with session := none })).event x 0x0004 0 1 else d
    | none => d) d

/-- Step 2: charges quiesce, and commands of R418 that run again are taken back to their start. -/
def Dev.fwQuiesce (d : Dev) : Dev :=
  let d1 := ((List.range hearthCount).filter (fun h => (d.hearth h).running.isSome)).foldl (fun (d : Dev) h => (d.toBoundary h).restart h 3 (d.hearthClocks h)) d
  let again := fun (k : Cmd) => k.started && !k.past && (k.op == 2 || k.op == 3 || k.op == 7 || k.op == 8)
  d1.host.qps.foldl (fun (d : Dev) (p : Nat × Qp) => (p.2.cmds.filter again).foldl (fun (d : Dev) (k : Cmd) =>
    let x := p.1 / 8192
    let q := p.1 % 8192
    let d2 := match d.openCommit x q k.cid with | some c => d.abandonCommit c | none => d
    (d2.stopWork x q k).cmdUpd x q k.cid (fun k => { k with started := false })) d) d1

/-- Step 3: the new firmware and microcode are loaded; the image cache is emptied, and every image is fetched and checked again. A submission
under admission begins again (DEDUCED, notes/assumptions/115.md). -/
def Dev.fwLoad (d : Dev) (s minor : Nat) : Dev :=
  let d1 : Dev := { d with
    mail := { d.mail with running := s, minor := minor }
    sec := { d.sec with svnRun := (d.slotFw s).svn }
    qry := { d.qry with cache := [] } }
  let d1' := d1.qry.subs.foldl (fun (d : Dev) (k : Submit) => d.restartSub k) d1
  let d2 := (d1'.qry.queries.filter (fun q => q.ending.isNone && !q.refetch)).foldl (fun (d : Dev) (q : Query) => d.refetchQuery q.id) d1'
  d2.pipeHearths.foldl (fun (d : Dev) h => d.loadSys h d.mail.sysTables) d2

/-- A mailbox that has no request in hand. -/
def Dev.boxesQuiet (d : Dev) : Bool := d.mail.boxes.all (fun b => b.2.busy.isNone)

/-- A step of FW_ACTIVATE; `take` runs the doorbells held while it lasted (R451) (DEDUCED, notes/assumptions/99.md). -/
def Dev.stepActivate (d : Dev) (o : LongOp) (f : StepIn) (take : Dev → Nat → Dev) : Dev :=
  let s := o.arg 0
  match d.mail.activating with
  | none =>
    let d1 : Dev := { d with mail := { d.mail with activating := some { slot := s, prev := d.mail.running, step := 1, handle := o.handle } } }
    ((d1.boxFns.foldl (fun (d : Dev) x => d.mboxUpd x (fun m => { m with ready := false })) d1).recForce).opStep o.handle 1
  | some a =>
    let dest := fun (d : Dev) (n : Nat) => (({ d with mail := { d.mail with activating := some { a with step := n } } } : Dev)).opStep o.handle 1
    match a.step with
    | 1 => if !d.boxesQuiet || d.pwr.change.isSome then d else (dest d.fwQuiesce 2).closeCommits
    | 2 => dest (d.fwLoad s f.minor) 3
    | 3 => dest (if d.twin.up0 || d.twin.up1 then d.sendHello else d) 4
    | _ =>
      let d1 : Dev := { d with mail := { d.mail with boot := s } }
      let d2 := (((d1.fwResume.closeOld).reopen).eventPf 0x0009 s (d1.slotFw s).version).opEnd o.handle 0 false 0
      d2.boxFns.foldl take d2

/-- FW_ACTIVATE_FAILED: the firmware of the previous slot is loaded again, as step 3 loads it (R479). -/
def Dev.fwFailed (d : Dev) (t stage minor : Nat) (take : Dev → Nat → Dev) : Dev :=
  let d0 := d.at t
  match d0.mail.activating with
  | none => d0
  | some a =>
    if 4 ≤ a.step then d0
    else
      let d1 : Dev := if 2 ≤ a.step then d0.fwLoad a.prev minor else { d0 with
        mail := { d0.mail with running := a.prev, minor := minor }
        sec := { d0.sec with svnRun := (d0.slotFw a.prev).svn } }
      let d2 := ((d1.fwResume.closeOld).eventPf 0x000A a.slot stage).opEnd a.handle 0x5001 false 0
      d2.boxFns.foldl take d2

/-- FW_ACTIVATE cancelled before quiescence. -/
def Dev.fwCancelled (d : Dev) (o : LongOp) (take : Dev → Nat → Dev) : Dev :=
  if d.mail.activating.isSome then (let d1 := d.fwResume.opCancelled o; d1.boxFns.foldl take d1) else d.opCancelled o

/-! ### Firmware over the management port (R556) -/

/-- Whether firmware or the Banked monitor answers the management port. -/
def Dev.mgmtServes (d : Dev) : Bool := !d.hostStopped && (d.start.service || d.start.banked)
/-- A PLDM completion (PRESUMED, notes/assumptions/101.md). -/
def Dev.pldm (d : Dev) (code : Nat) : Dev := d.send (.mgmt [Config.pldm code])

/-- PLDM_FIRMWARE_UPDATE. -/
def Dev.pldmUpdate (d : Dev) (t s : Nat) (image : Bytes) : Dev :=
  let d0 := d.at t
  if !d0.mgmtServes then d0
  else if 1 < s ∨ image.length = 0 ∨ 96 * 2 ^ 20 < image.length ∨ d0.slotFree s = false then d0.pldm 2
  else match d0.openOp opOrphan 0x50 [s] image 3 with
    | .error _ => d0.pldm 1
    | .ok (_, d1) => d1.pldm 0

/-- PLDM_ACTIVATE. -/
def Dev.pldmActivate (d : Dev) (t s : Nat) : Dev :=
  let d0 := d.at t
  if !d0.mgmtServes then d0
  else if 1 < s ∨ d0.slotState s ≠ 2 then d0.pldm 2
  else if d0.start.banked then (d0.pldm 0).bankedActivate s
  else if (d0.slotFw s).svn < d0.sec.svnMin ∨ d0.sharesTp s = false then d0.pldm 2
  else if d0.activator.isSome then d0.pldm 1
  else match d0.openOp opOrphan 0x51 [s] [] 5 with
    | .error _ => d0.pldm 1
    | .ok (_, d1) => d1.pldm 0

/-! ### Requests (R451, R452, R454, R555, R560) -/

/-- A request that the Banked monitor refuses: its status (R555, R560) (DEDUCED, notes/assumptions/102.md). -/
def Dev.bankedRefusal (d : Dev) (op : Nat) (r : MbReq) : Option Nat :=
  if !d.start.banked then none
  else if (d.sec.lifecycle == 0 || d.sec.lifecycle == 5) && !(op == 1 || op == 2 || op == 3 || op == 4 || op == 0x10) then some 0x6002
  else if !(op == 1 || op == 2 || op == 3 || op == 4 || op == 5 || op == 0x10 || op == 0x11 || op == 0x50 || op == 0x51 || op == 0x52 || op == 0x53) then some 0x5001
  else if op == 0x11 && r.bytes == 32 && decide (8 ≤ r.payload.length) && fieldAt r.payload 0 4 != 0x02D00038 then some 0x5001
  else none

/-- The reason of the last failed start. -/
def Dev.lastReason (d : Dev) : Nat := d.start.reasons.getD 0 0

/-- The effect of a request that nothing refuses. -/
def Dev.mbDo (d : Dev) (x op : Nat) (r : MbReq) : Dev :=
  let p := r.payload
  let buf := r.buf.getD []
  let f := fun (o n : Nat) => fieldAt p o n
  match op with
  | 0x01 => d.mbOpen x p
  | 0x02 => d.mbClose x
  | 0x03 => d.mbOk x (d.identity x)
  | 0x04 => d.mbEvents x (f 0 2)
  | 0x05 => d.mbOpStatus x (f 0 4)
  | 0x06 => d.mbCancel x (f 0 4)
  | 0x10 => d.mbRegRead x (f 0 4) (f 4 2)
  | 0x11 => d.mbRegWrite x p
  | 0x12 => d.mbMemRead x p
  | 0x13 => d.mbPolicy x r.gen p
  | 0x14 => d.mbNode x r.gen p buf
  | 0x15 => d.mbSharing x p
  | 0x16 => d.mbMode x r
  | 0x17 => d.mbShares x p
  | 0x18 => d.mbSysTable x r buf
  | 0x20 => d.mbTsCreate x p
  | 0x21 => d.mbTsRemove x 0x21 p
  | 0x22 => d.mbTsConfig x p
  | 0x23 => d.mbTableCreate x p buf
  | 0x24 => d.mbTableDrop x p
  | 0x25 => d.mbTableAlter x p
  | 0x26 => d.mbValidation x p buf
  | 0x27 => d.mbHistory x p
  | 0x28 => d.mbTsRemove x 0x28 p
  | 0x30 => d.mbGroup x r.gen p
  | 0x31 => d.mbSpare x (f 0 1)
  | 0x32 => d.mbRebuild x p
  | 0x33 => d.mbRelayout x p
  | 0x34 => d.mbScrub x p
  | 0x35 => d.mbPairOff x (f 0 1)
  | 0x36 => d.mbPairOn x (f 0 1)
  | 0x37 => d.mbInvalidate x p
  | 0x40 => d.mbClaim x p
  | 0x41 => d.mbRelease x (f 0 2)
  | 0x42 => d.mbClaims x (f 0 2)
  | 0x50 => d.mbFwStage x p buf
  | 0x51 => d.mbFwActivate x (f 0 1)
  | 0x52 => d.mbFwSelect x r.gen (f 0 1)
  | _ => d.mbFwStatus x

/-- A request is taken (busy set) and served. -/
def Dev.mbServe (d : Dev) (x op : Nat) (r : MbReq) : Dev :=
  let d1 := d.mboxUpd x (fun m => { m with busy := some r.seq })
  match d1.bankedRefusal op r with
  | some st => d1.mbAnswer x st (if st = 0x5001 then d1.lastReason else 0) 0 0 []
  | none =>
    match d1.mbReason x op r with
    | 0 => d1.mbDo x op r
    | n => d1.mbRefuse x n

/-- Whether a function's doorbell reaches the device: the part serves hosts (R506, R508, R554, R586). A function in D3hot is reached: Ember is
commanded while both PFs are there (chapter 18). -/
def Dev.mbReached (d : Dev) (x : Nat) : Bool :=
  !d.hostStopped && d.pwr.sysGood && d.fnExists x && !(d.start.banked && x != 0) && decide (x < 1026)

/-- A doorbell with the request in the request area (R451, R452): ignored with overrun while busy, held while ready is 0 (DEDUCED, notes/assumptions/92.md). -/
def Dev.mbRun (d : Dev) (x op : Nat) (r : MbReq) : Dev :=
  let m := d.mbox x
  if !d.mbReached x then d
  else if m.busy.isSome then d.mboxUpd x (fun m => { m with err := if bitOf m.err 0 then m.err else m.err + 1 })
  else if !m.ready || d.sec.halted then d.mboxUpd x (fun m => { m with held := some (op, r) })
  else d.mbServe x op r

/-- A held doorbell is taken once ready is 1. -/
def Dev.mbTake (d : Dev) (x : Nat) : Dev :=
  match (d.mbox x).held with
  | some (op, r) =>
    if (d.mbox x).ready && (d.mbox x).busy.isNone && !d.sec.halted then (d.mboxUpd x (fun m => { m with held := none })).mbServe x op r else d
  | none => d
/-- Held doorbells of every function. -/
def Dev.mbTakeAll (d : Dev) : Dev := d.boxFns.foldl (fun (d : Dev) x => d.mbTake x) d

/-- MAILBOX_OVERRUN: a doorbell written while busy is set. -/
def Dev.mbOverrun (d : Dev) (x : Nat) : Dev :=
  if d.mbReached x && (d.mbox x).busy.isSome then d.mboxUpd x (fun m => { m with err := if bitOf m.err 0 then m.err else m.err + 1 }) else d

/-- Requests that waited for a change run, in the order they were taken (R298, R536). -/
def Dev.modeNext (d : Dev) : Dev :=
  let mode := d.pwr.change.isNone && d.pwr.entry.isNone
  let sys := d.mail.sysUpdate.isNone
  let due := fun (p : Nat × Nat × MbReq) => if p.2.1 = 0x16 then mode else sys
  match d.mail.parked.find? due with
  | none => d
  | some _ =>
    let l := d.mail.parked.filter due
    l.foldl (fun (d : Dev) (p : Nat × Nat × MbReq) => if (d.mbox p.1).busy.isSome then d.mbDo p.1 p.2.1 p.2.2 else d)
      ({ d with mail := { d.mail with parked := d.mail.parked.filter (fun p => !due p) } } : Dev)

/-! ### Steps of long operations (R463, R464) -/

/-- LONG_OP_STEP. While firmware is loaded no other operation steps (R478) (DESIGN CHOICE, notes/assumptions/57.md). -/
def Dev.longOpStep (d : Dev) (t h : Nat) (f : StepIn) : Dev :=
  let d0 := d.at t
  let take := fun (d : Dev) (x : Nat) => d.mbTake x
  match d0.longOp h with
  | none => d0
  | some o =>
    let held := match d0.mail.activating with | some a => a.handle != h && decide (2 ≤ a.step) && decide (a.step < 4) | none => false
    if o.state ≠ 1 || held || d0.hostStopped || !(d0.start.service || d0.start.banked) || d0.sec.halted then d0
    else if !o.cancel.isEmpty && d0.cancellable o then (if o.op = 0x51 then d0.fwCancelled o take else d0.opCancelled o)
    else match o.op with
      | 0x32 => d0.ownWork.rebuildStep (o.arg 0) (o.arg 1)
      | 0x33 => d0.ownWork.stepRelayout o
      | 0x34 => d0.ownWork.stepScrub o f
      | 0x35 => d0.ownWork.stepPairOff o
      | 0x36 => d0.stepPairOn o f
      | 0x50 => d0.stepStage o
      | 0x51 => d0.stepActivate o f take
      | _ => d0.stepRemove o

/-- REBUILD_STEP: of a rebuild that a failure began, or of a long operation's. -/
def Dev.rebuildRun (d : Dev) (t g pos : Nat) : Dev :=
  let d0 := d.at t
  match d0.rebuildOf g pos with
  | some r => (match r.op with | some h => d0.longOpStep t h {} | none => d0.ownWork.rebuildStep g pos)
  | none => d0

end Sys2Proof.Machine
end

