-- ==== Sys2Proof/Machine/State.lean ====
section
/-!
DEFINITION. Sys2Proof/Machine/State.lean: the state of the block: the part with everything the specification gives it (Dev), and the
commands that wait.
-/
namespace Sys2Proof.Machine

/-- The block and the commands that wait, first in first out. -/
structure State where
  pending : List Instr := []
  dev : Dev := {}
deriving DecidableEq, Repr

/-- Why a command stops the run. -/
inductive Fault where
  /-- Raised by the commands of the expression unit for an instruction word that the structural check of an image refuses (R136, R232, R233):
  no such word ever reaches a hearth, so a run that would go on does not exist. Safe. -/
  | staticFault
deriving DecidableEq, Repr

/-- Why a command has no meaning. -/
inductive Refusal where
  /-- Raised by Dispatch.lean for a command that has no meaning yet. Safe. -/
  | notModelled (mnemonic : String)
deriving DecidableEq, Repr

/-- The block when power has not yet come (R545, R600, Tables 13.5 and 18.2): every supply off, mode Off, nothing in service, each register at
its reset value. The life-cycle state and owner slot 0, and the image in firmware slot A, are what the part is delivered with
(notes/assumptions/4.md) (DESIGN CHOICE, notes/assumptions/11.md) (DESIGN CHOICE, notes/assumptions/12.md). -/
def State.reset : State := {}

end Sys2Proof.Machine
end

