-- ==== Sys2Proof/Machine/CmdBase.lean ====
section
/-!
DEFINITION. Sys2Proof/Machine/CmdBase.lean: what the meanings of the commands share: the time, what falls due after a command, and the
commands that several units answer together.
-/
namespace Sys2Proof.Machine

/-- What a command that arrives at a time does to the part. -/
def State.run (s : State) (t : Nat) (f : Dev → Dev) : State := { s with dev := f (s.dev.at t) }

/-- Column repairs that waited for the running charge of their hearth (R378). -/
def Dev.mends (d : Dev) : Dev :=
  (d.qry.hearths.filter (fun p => !p.2.mend.isEmpty && p.2.running.isNone)).foldl (fun (d : Dev) p =>
    let d1 := p.2.mend.foldl (fun (d : Dev) b => d.columnRepair p.1 b) (d.hearthUpd p.1 (fun x => { x with mend := [] }))
    if (d1.hearth p.1).quenched then d1.unitGone p.1 else d1) d

/-- A security message served in its session (Table 20.6); a processor that it lets run takes the doorbells that waited. -/
def Dev.secServe (d : Dev) (s : SecSession) : SecAsk → Dev
  | .nonceGet => d.nonceGet s
  | .tokenApply tok ok => (d.tokenApply s tok ok).mbTakeAll
  | .keyLoad ref key => d.keyLoad s ref key
  | .keyUnload ref => d.keyUnload s ref
  | .keyStatus => d.keyStatus s
  | .svnCommit => d.svnCommit s
  | .debugLock => (d.debugLock s).mbTakeAll

/-- A key is being withdrawn (R575). -/
def Dev.withdrawing (d : Dev) : Bool := d.sec.keys.any (fun k => k.going.isSome)

/-- A security message, which runs only inside a secured session, and after a key withdrawal under way (R571, R577). -/
def Dev.secMsg (d : Dev) (n : Nat) (a : SecAsk) : Dev :=
  match d.secOn, d.session n with
  | true, some s => if d.withdrawing then { d with sec := { d.sec with waiting := d.sec.waiting ++ [(n, a)] } } else d.secServe s a
  | _, _ => d

/-- Messages that waited for a key withdrawal, in the order received (R577). -/
def Dev.secNext (d : Dev) : Nat → Dev
  | 0 => d
  | k + 1 =>
    match d.withdrawing, d.sec.waiting with
    | false, m :: r => (({ d with sec := { d.sec with waiting := r } } : Dev).secMsg m.1 m.2).secNext k
    | _, _ => d

/-- What falls due once a command has ended: commits whose epoch has become visible (R64), keys that no step uses, with the messages that waited for them (R575, R577), a system table that
every hearth has applied (R298), column repairs (R378), and requests that waited for a change (R536). -/
def Dev.tidy (d : Dev) : Dev := (d.closeCommits.keyGone.secNext d.sec.waiting.length).sysFinish.mends.modeNext

/-- A host's access to a function: its port is out of reset and the part serves it (R481, R543, R554). -/
def Dev.fromHost (d : Dev) (x : Nat) (f : Dev → Dev) : Dev :=
  if d.secOn && decide (x < 1026) && d.fnExists x && !(d.link (portOf x)).perst && !(d.start.banked && x != 0) then f d else d

/-- What may quench a hearth: the mode change under way counts it as acknowledged (R536). -/
def Dev.ifQuenched (d : Dev) (h : Nat) (f : Dev → Dev) : Dev :=
  let d1 := f d
  if (d1.hearth h).quenched && !(d.hearth h).quenched then (d1.unitGone h).tidy else d1

/-- What runs on a hearth, with what a fault it meets begins (R588, R597). -/
def Dev.onHearth (d : Dev) (h : Nat) (f : Dev → Dev) : Dev := d.ifQuenched h (fun (d : Dev) => (f d).hearthFault d h)

/-- A poisoned block of an engine, with what the fault it is to a hearth's charge begins (R587, R597). -/
def Dev.engineFault (d : Dev) (comp : Bool) (e : Nat) : Dev :=
  match (((d.engines comp)[e]?).bind (·.now)).bind d.userHearth with
  | some h => d.onHearth h (fun d => d.enginePoison comp e)
  | none => d.enginePoison comp e

/-- An instruction of the expression unit on a hearth (R255, R291): a word that the structural check refuses stops the run. -/
def State.unit (s : State) (h : Nat) (op : XOp) (w : XFields) (flt : Option XFault) : Host.Outcome State Fault Refusal :=
  if xWordOk op w then .next { s with dev := s.dev.onHearth h (fun (d : Dev) => d.xCmd h op w flt) } else .fault .staticFault

/-- REGISTER_WRITE: a write to BAR0, or to the RX4 window of PF0, whose words are big-endian (R390, R610). -/
def Dev.hostStore (d : Dev) (x o size v : Nat) : Dev :=
  if x = 0 ∧ 0x2000 ≤ o ∧ o < 0x3000 then
    (if size = 4 ∧ o % 4 = 0 then (if d.start.banked then d else d.rx4Write (o - 0x2000) (beNat (natLE 4 (v % 2 ^ 32)))) else d.badAccess x)
  else d.barWrite x o size v

/-- A host read of BAR0, or of the RX4 window of PF0 (R12, R390, R610): no row of the table is one, so it is no command's effect
(notes/assumptions/143.md). -/
def Dev.hostLoad (d : Dev) (x o size : Nat) : Nat × Dev :=
  if x = 0 ∧ 0x2000 ≤ o ∧ o < 0x3000 then
    (if size = 4 ∧ o % 4 = 0 then (if d.start.banked then (0, d) else (leNat (natBE 4 (d.rx4Read (o - 0x2000))), d)) else (0, d.badAccess x))
  else d.barRead x o size

/-- A RX4 command as the host gives it. -/
def Dev.rx4Send (d : Dev) (op : Nat) (b : Bytes) : Dev := if d.start.banked then d else d.rx4Command op b

/-- A bit of a register's value set or cleared. -/
def setBit (v i : Nat) (on : Bool) : Nat := v - v / 2 ^ i % 2 * 2 ^ i + b2n on * 2 ^ i

/-- RESTART: an attempt that met an unresolvable fault runs again (R327). -/
def Dev.restartFault (d : Dev) (h clocks : Nat) : Dev := if (d.hearth h).exu.unres then d.restart h 1 clocks else d

/-- DELAY_FIRE at the time of the part: the entry's owner acts on it (R323, R324, Table 10.3). `v` is the consumed_count that the owner of a
result ring reads. -/
def Dev.delayFire (d : Dev) (l : Nat) (v : Option Nat) : Dev :=
  let tick := d.timeUs / 10
  match d.nextDelay l with
  | none => d
  | some e =>
    if tick < e.due then d
    else
      let d1 := (d.fireDelay l tick).at (10 * tick + 9)
      if e.rest ≠ 0 then d1
      else match l with
        | 0 => d1.shortReadRetry e.tag
        | 1 => d1.driveTimeout e.tag
        | 2 => d1.ringPoll (e.tag / 16) (e.tag % 16) v
        | 3 => d1.vxpTick e.tag
        | 4 => d1.twinRetry d1.timeUs e.tag
        | _ => d1

/-- DELAY_FULL: an insertion into a full list is tried again at the next tick and counted (R326). -/
def Dev.delayFull (d : Dev) (l ticks tag : Nat) : Dev := if 4096 ≤ d.delayCount l then d.delay l ticks tag else d

/-- DRIVE_LINK_UP: the drive, and the rings that it makes readable (R433, R442). -/
def Dev.driveLink (d : Dev) (i : Nat) (f : DriveIn) (rings : StageIn) : Dev :=
  let d1 := (d.driveUp i f.speed f.width f.why f.blocks f.nguid f.label).idleDrives
  if d1.start.service then ((d1.store.spaces.filter (·.replay)).map (·.id)).foldl (fun (d : Dev) ts => d.replaySpace rings ts) d1 else d1

end Sys2Proof.Machine
end

