-- ==== Sys2Proof/Machine/CmdDec.lean ====
section
/-!
DEFINITION. Sys2Proof/Machine/CmdDec.lean: the meanings of the commands of decimal and packed decimal arithmetic (08).
-/
namespace Sys2Proof.Machine

/-- DADD (R261). Decimal add. -/
def execXDadd (h : Nat) (w : XFields) (flt : Option XFault) (s : State) : Host.Outcome State Fault Refusal := s.unit h .dadd w flt

/-- DSUB (R261). Decimal subtract. -/
def execXDsub (h : Nat) (w : XFields) (flt : Option XFault) (s : State) : Host.Outcome State Fault Refusal := s.unit h .dsub w flt

/-- DMUL (R261). Decimal multiply. -/
def execXDmul (h : Nat) (w : XFields) (flt : Option XFault) (s : State) : Host.Outcome State Fault Refusal := s.unit h .dmul w flt

/-- DDIV (R263). Decimal divide rounded once to the result scale. -/
def execXDdiv (h : Nat) (w : XFields) (flt : Option XFault) (s : State) : Host.Outcome State Fault Refusal := s.unit h .ddiv w flt

/-- DSCALE (R264). Rescales a decimal. -/
def execXDscale (h : Nat) (w : XFields) (flt : Option XFault) (s : State) : Host.Outcome State Fault Refusal := s.unit h .dscale w flt

/-- PADD (R268). Packed-decimal add. -/
def execXPadd (h : Nat) (w : XFields) (flt : Option XFault) (s : State) : Host.Outcome State Fault Refusal := s.unit h .padd w flt

/-- PSUB (R268). Packed-decimal subtract. -/
def execXPsub (h : Nat) (w : XFields) (flt : Option XFault) (s : State) : Host.Outcome State Fault Refusal := s.unit h .psub w flt

/-- PCHK (R268). Sets ERR on invalid packed digits or sign. -/
def execXPchk (h : Nat) (w : XFields) (flt : Option XFault) (s : State) : Host.Outcome State Fault Refusal := s.unit h .pchk w flt

end Sys2Proof.Machine
end

