-- ==== Sys2Proof/Machine/CmdDurability.lean ====
section
/-!
DEFINITION. Sys2Proof/Machine/CmdDurability.lean: the meanings of the commands of commits, the journal and the drives (14).
-/
namespace Sys2Proof.Machine

/-- COMMIT_DATA_WRITTEN (R422). Every data, parity and zero write of a commit completes, and the record is built and mirrored. -/
def execCommitDataWritten (t ts epoch : Nat) (s : State) : Host.Outcome State Fault Refusal :=
  .next (s.run t (fun (d : Dev) => (d.dataWritten ts epoch).tidy))

/-- COMMIT_RECORD_DURABLE (R422). All m+1 record copies complete; the epoch commits, C advances and completions post. -/
def execCommitRecordDurable (t ts epoch : Nat) (s : State) : Host.Outcome State Fault Refusal :=
  .next (s.run t (fun (d : Dev) => (d.recordDurable ts epoch).tidy))

/-- JOURNAL_CHECKPOINT (R431). The ring is half full or 60 s have passed; the catalog is rewritten and a CHECKPOINT record frees ring space.
-/
def execJournalCheckpoint (t g : Nat) (s : State) : Host.Outcome State Fault Refusal :=
  .next (s.run t (fun (d : Dev) => d.journalCheckpoint g))

/-- RECLAMATION_STEP (R69). Maintenance step that reclaims retired extents at or below the floor. -/
def execReclamationStep (t ts : Nat) (s : State) : Host.Outcome State Fault Refusal :=
  .next (s.run t (fun (d : Dev) => d.ownWork.reclaim ts))

/-- DRIVE_COMMAND_COMPLETE (R421). A drive command completes; a write is on the media, or a read is delivered or is a short read. -/
def execDriveCommandComplete (t n : Nat) (res : DriveRes) (s : State) : Host.Outcome State Fault Refusal :=
  .next (s.run t (fun (d : Dev) => (d.driveComplete n res.code res.got).tidy))

/-- SHORT_READ_RETRY (R444). The 100 µs delay of a short read fires; the read is issued once more, then the range is reconstructed. -/
def execShortReadRetry (t n : Nat) (s : State) : Host.Outcome State Fault Refusal :=
  .next (s.run t (fun (d : Dev) => d.shortReadRetry n))

/-- DRIVE_CMD_TIMEOUT (R445). A drive command exceeds its time limit and Abort is sent. -/
def execDriveCmdTimeout (t n : Nat) (s : State) : Host.Outcome State Fault Refusal :=
  .next (s.run t (fun (d : Dev) => (d.driveTimeout n).tidy))

/-- DRIVE_ABORT_TIMEOUT (R445). An aborted command is still pending 1 s later, and the controller is reset. -/
def execDriveAbortTimeout (t n : Nat) (s : State) : Host.Outcome State Fault Refusal :=
  .next (s.run t (fun (d : Dev) => d.abortTimeout n))

/-- DRIVE_RESET_TIMEOUT (R445). A controller does not return from reset in 10 s, and the member fails. -/
def execDriveResetTimeout (t slot : Nat) (s : State) : Host.Outcome State Fault Refusal :=
  .next (s.run t (fun (d : Dev) => (d.resetTimeout slot).tidy))

/-- DRIVE_INSERTION (R631). DPRSNT# is low for 100 ms; the slot is powered. -/
def execDriveInsertion (t slot : Nat) (s : State) : Host.Outcome State Fault Refusal :=
  .next (s.run t (fun (d : Dev) => d.driveInsert slot))

/-- DRIVE_REFCLK_START (R631). 200 ms after power-up, DREFCLK starts. -/
def execDriveRefclkStart (t slot : Nat) (s : State) : Host.Outcome State Fault Refusal :=
  .next (s.run t (fun (d : Dev) => d.driveRefclk slot))

/-- DRIVE_PERST_RELEASE (R631). 100 ms later, DPERST# is released and the link trains. -/
def execDrivePerstRelease (t slot : Nat) (s : State) : Host.Outcome State Fault Refusal :=
  .next (s.run t (fun (d : Dev) => d.drivePerst slot))

/-- DRIVE_LINK_UP (R442). A drive link trains; the drive is checked against its requirements and its label. -/
def execDriveLinkUp (t slot : Nat) (f : DriveIn) (rings : StageIn) (s : State) : Host.Outcome State Fault Refusal :=
  .next (s.run t (fun (d : Dev) => (d.driveLink slot f rings).tidy))

/-- DRIVE_REMOVAL (R631). DPRSNT# is high for 1 ms; the member fails and the slot is powered off. -/
def execDriveRemoval (t slot : Nat) (s : State) : Host.Outcome State Fault Refusal :=
  .next (s.run t (fun (d : Dev) => (d.driveRemove slot).tidy))

/-- REBUILD_STEP (R447). Reconstructs the lost strips of 16 stripe rows onto the new member. -/
def execRebuildStep (t g pos : Nat) (s : State) : Host.Outcome State Fault Refusal :=
  .next (s.run t (fun (d : Dev) => (d.rebuildRun t g pos).tidy))

end Sys2Proof.Machine
end

