-- ==== Sys2Proof/Machine/CmdFab.lean ====
section
/-!
DEFINITION. Sys2Proof/Machine/CmdFab.lean: the meanings of the commands of the fabric exchange (11).
-/
namespace Sys2Proof.Machine

/-- VXP_DATA (R343). A DATA segment arrives and is reassembled; a complete message is checked and delivered once. -/
def execVxpData (t : Nat) (k : VPkt) (s : State) : Host.Outcome State Fault Refusal :=
  .next (s.run t (fun (d : Dev) => (d.vxpData k).tidy))

/-- VXP_ACK (R347). An ACK arrives; cumulative and selective state advance, and missing packets are resent. -/
def execVxpAck (t : Nat) (k : VPkt) (s : State) : Host.Outcome State Fault Refusal :=
  .next (s.run t (fun (d : Dev) => (d.vxpAcked k).tidy))

/-- FLOW_ACK (R344). A receiver reports the taken and consumed points, which opens the sender's window and frees retention. -/
def execFlowAck (t : Nat) (k : VPkt) (s : State) : Host.Outcome State Fault Refusal :=
  .next (s.run t (fun (d : Dev) => (d.vxpFlowAck k).tidy))

/-- VXP_HELLO (R337). A peer opens an association with its version range and segment size. -/
def execVxpHello (t : Nat) (k : VPkt) (s : State) : Host.Outcome State Fault Refusal :=
  .next (s.run t (fun (d : Dev) => (d.vxpHello k).tidy))

/-- HELLO_ACK (R337). A peer accepts or refuses an association. -/
def execHelloAck (t : Nat) (k : VPkt) (s : State) : Host.Outcome State Fault Refusal :=
  .next (s.run t (fun (d : Dev) => (d.vxpHelloAck k).tidy))

/-- RESUME (R355). A survivor announces an adopted node; the association is reopened and retained messages are resent. -/
def execResume (t : Nat) (k : VPkt) (s : State) : Host.Outcome State Fault Refusal :=
  .next (s.run t (fun (d : Dev) => (d.vxpResume k).tidy))

/-- RESUME_ACK (R355). A peer reports the consumed points of the adopted node's flows. -/
def execResumeAck (t : Nat) (k : VPkt) (s : State) : Host.Outcome State Fault Refusal :=
  .next (s.run t (fun (d : Dev) => (d.vxpResumeAck k).tidy))

/-- RESEND (R343). A receiver asks for a whole message to be sent again. -/
def execResend (t : Nat) (k : VPkt) (s : State) : Host.Outcome State Fault Refusal :=
  .next (s.run t (fun (d : Dev) => (d.vxpResendMsg k).tidy))

/-- KEEPALIVE (R347). An idle-direction packet keeps the association live. -/
def execKeepalive (t : Nat) (k : VPkt) (s : State) : Host.Outcome State Fault Refusal :=
  .next (s.run t (fun (d : Dev) => (d.vxpKeepalive k).tidy))

/-- CLOSE (R354). A peer ends an exchange; abort or failure reasons end the local query. -/
def execClose (t : Nat) (k : VPkt) (s : State) : Host.Outcome State Fault Refusal :=
  .next (s.run t (fun (d : Dev) => (d.vxpClose k).tidy))

/-- RTO_EXPIRY (R347). The retransmission timeout expires; packets are resent, the RTO doubles and the rate halves. -/
def execRtoExpiry (t peer me : Nat) (s : State) : Host.Outcome State Fault Refusal :=
  .next (s.run t (fun (d : Dev) => (d.rtoExpiry peer me).tidy))

/-- RATE_PERIOD (R347). A 50 µs period ends; the ECN estimate and the rate are updated. -/
def execRatePeriod (t peer me : Nat) (s : State) : Host.Outcome State Fault Refusal :=
  .next (s.run t (fun (d : Dev) => d.ratePeriod peer me))

/-- ACK_TIMER (R347). One tick passes since the oldest unacknowledged packet, and an ACK is sent. -/
def execAckTimer (t peer me : Nat) (s : State) : Host.Outcome State Fault Refusal :=
  .next (s.run t (fun (d : Dev) => d.ackTimer peer me))

/-- KEEPALIVE_TIMER (R347). VXP_LOST_MS/8 passes with nothing sent in one direction, and a KEEPALIVE is sent. -/
def execKeepaliveTimer (t peer me : Nat) (s : State) : Host.Outcome State Fault Refusal :=
  .next (s.run t (fun (d : Dev) => d.keepaliveTimer peer me))

/-- PEER_LOST (R354). Nothing arrives from a peer for VXP_LOST_MS; its queries complete with PEER_LOST. -/
def execPeerLost (t peer : Nat) (s : State) : Host.Outcome State Fault Refusal :=
  .next (s.run t (fun (d : Dev) => (d.peerLost peer).tidy))

/-- FABRIC_PORT_DOWN (R353). A fabric port half goes down; its paths are removed and packets are resent elsewhere. -/
def execFabricPortDown (t half : Nat) (s : State) : Host.Outcome State Fault Refusal :=
  .next (s.run t (fun (d : Dev) => (d.fabricDown t half).tidy))

/-- FABRIC_PORT_UP (R353). A fabric port comes up and adds its paths. -/
def execFabricPortUp (t half : Nat) (s : State) : Host.Outcome State Fault Refusal :=
  .next (s.run t (fun (d : Dev) => (d.fabricUp t half).tidy))

/-- FAB_CTRL_WRITE (R334). Change of split, media or MTU retrains the port link. -/
def execFabCtrlWrite (t x p value expected count : Nat) (s : State) : Host.Outcome State Fault Refusal :=
  .next (s.run t (fun (d : Dev) => d.cwWrite t x (0x02510000 + 0x100 * p) 4 value expected count))

/-- OTHER_TRAFFIC_FRAME (R333). A non-VXP frame arrives on a fabric port; neighbour discovery, ARP or echo is answered, and every other
frame is dropped and counted. -/
def execOtherTrafficFrame (t half kind : Nat) (b : Bytes) (s : State) : Host.Outcome State Fault Refusal :=
  .next (s.run t (fun (d : Dev) => d.otherFrame half kind b))

/-- PFC_PAUSE_FRAME (R347). A priority flow control pause frame arrives on a port with PFC enabled; VXP transmission on that priority pauses
and FAB_PFC_PAUSES counts it. -/
def execPfcPauseFrame (t half mask quanta : Nat) (s : State) : Host.Outcome State Fault Refusal :=
  .next (s.run t (fun (d : Dev) => d.pfcPause half mask quanta))

end Sys2Proof.Machine
end

