-- ==== Sys2Proof/Machine/CmdFlow.lean ====
section
/-!
DEFINITION. Sys2Proof/Machine/CmdFlow.lean: the meanings of the commands of control flow, loads and broadcasts of the expression unit (07).
-/
namespace Sys2Proof.Machine

/-- NOP (R233). Does nothing. -/
def execXNop (h : Nat) (w : XFields) (flt : Option XFault) (s : State) : Host.Outcome State Fault Refusal := s.unit h .nop w flt

/-- END (R234). Ends the slice; rows with ERR or OVF lose selection and are handled. -/
def execXEnd (h : Nat) (w : XFields) (flt : Option XFault) (s : State) : Host.Outcome State Fault Refusal := s.unit h .endS w flt

/-- BRZ (R234). Branches forward if a scalar is zero. -/
def execXBrz (h : Nat) (w : XFields) (flt : Option XFault) (s : State) : Host.Outcome State Fault Refusal := s.unit h .brz w flt

/-- BRNZ (R234). Branches forward if a scalar is non-zero. -/
def execXBrnz (h : Nat) (w : XFields) (flt : Option XFault) (s : State) : Host.Outcome State Fault Refusal := s.unit h .brnz w flt

/-- BRMZ (R234). Branches forward if a mask has no bit set. -/
def execXBrmz (h : Nat) (w : XFields) (flt : Option XFault) (s : State) : Host.Outcome State Fault Refusal := s.unit h .brmz w flt

/-- SETSEL (R235). Sets the role's selection from a mask ANDed with M0. -/
def execXSetsel (h : Nat) (w : XFields) (flt : Option XFault) (s : State) : Host.Outcome State Fault Refusal := s.unit h .setsel w flt

/-- OUT (R236). Writes a register group to a PROJECT output. -/
def execXOut (h : Nat) (w : XFields) (flt : Option XFault) (s : State) : Host.Outcome State Fault Refusal := s.unit h .outV w flt

/-- MOUT (R236). Writes masks as a BOOL output with validity. -/
def execXMout (h : Nat) (w : XFields) (flt : Option XFault) (s : State) : Host.Outcome State Fault Refusal := s.unit h .mout w flt

/-- ECLR (R282). Clears ERR, OVF and the row records in the rows of a mask. -/
def execXEclr (h : Nat) (w : XFields) (flt : Option XFault) (s : State) : Host.Outcome State Fault Refusal := s.unit h .eclr w flt

/-- VLD (R237). Loads a slot into a register group, decoding a deferred column if needed. -/
def execXVld (h : Nat) (w : XFields) (flt : Option XFault) (s : State) : Host.Outcome State Fault Refusal := s.unit h .vld w flt

/-- VLDF (R238). Loads a 4-byte chunk of a FIXED_BINARY slot into U32 lanes. -/
def execXVldf (h : Nat) (w : XFields) (flt : Option XFault) (s : State) : Host.Outcome State Fault Refusal := s.unit h .vldf w flt

/-- VLD2 (R238). Loads two adjacent fields of a FIXED_BINARY slot. -/
def execXVld2 (h : Nat) (w : XFields) (flt : Option XFault) (s : State) : Host.Outcome State Fault Refusal := s.unit h .vld2 w flt

/-- VLD3 (R238). Loads three adjacent fields of a FIXED_BINARY slot. -/
def execXVld3 (h : Nat) (w : XFields) (flt : Option XFault) (s : State) : Host.Outcome State Fault Refusal := s.unit h .vld3 w flt

/-- VLD4 (R238). Loads four adjacent fields of a FIXED_BINARY slot. -/
def execXVld4 (h : Nat) (w : XFields) (flt : Option XFault) (s : State) : Host.Outcome State Fault Refusal := s.unit h .vld4 w flt

/-- TST (R237). Tests a slot against constants or parameters, in code space where eligible. -/
def execXTst (h : Nat) (w : XFields) (flt : Option XFault) (s : State) : Host.Outcome State Fault Refusal := s.unit h .tst w flt

/-- VROW (R237). Loads row numbers into U64 lanes. -/
def execXVrow (h : Nat) (w : XFields) (flt : Option XFault) (s : State) : Host.Outcome State Fault Refusal := s.unit h .vrow w flt

/-- MLD (R227). Loads a BOOL slot into a mask. -/
def execXMld (h : Nat) (w : XFields) (flt : Option XFault) (s : State) : Host.Outcome State Fault Refusal := s.unit h .mld w flt

/-- VLDN (R233). Loads a slot's validity into a mask. -/
def execXVldn (h : Nat) (w : XFields) (flt : Option XFault) (s : State) : Host.Outcome State Fault Refusal := s.unit h .vldn w flt

/-- VBC (R234). Broadcasts a constant into a register group. -/
def execXVbc (h : Nat) (w : XFields) (flt : Option XFault) (s : State) : Host.Outcome State Fault Refusal := s.unit h .vbc w flt

/-- VBP (R234). Broadcasts a parameter into a register group. -/
def execXVbp (h : Nat) (w : XFields) (flt : Option XFault) (s : State) : Host.Outcome State Fault Refusal := s.unit h .vbp w flt

/-- SLC (R234). Loads a constant into a scalar. -/
def execXSlc (h : Nat) (w : XFields) (flt : Option XFault) (s : State) : Host.Outcome State Fault Refusal := s.unit h .slc w flt

/-- SLP (R234). Loads a parameter into a scalar. -/
def execXSlp (h : Nat) (w : XFields) (flt : Option XFault) (s : State) : Host.Outcome State Fault Refusal := s.unit h .slp w flt

/-- SLI (R233). Loads a sign-extended immediate into a scalar. -/
def execXSli (h : Nat) (w : XFields) (flt : Option XFault) (s : State) : Host.Outcome State Fault Refusal := s.unit h .sli w flt

/-- VBS (R233). Broadcasts a scalar into a register group. -/
def execXVbs (h : Nat) (w : XFields) (flt : Option XFault) (s : State) : Host.Outcome State Fault Refusal := s.unit h .vbs w flt

/-- VIOTA (R233). Writes lane indices 0 to 127 into U32 lanes. -/
def execXViota (h : Nat) (w : XFields) (flt : Option XFault) (s : State) : Host.Outcome State Fault Refusal := s.unit h .viota w flt

end Sys2Proof.Machine
end

