-- ==== Sys2Proof/Machine/CmdFp.lean ====
section
/-!
DEFINITION. Sys2Proof/Machine/CmdFp.lean: the meanings of the commands of floating point and conversion (08).
-/
namespace Sys2Proof.Machine

/-- FADD (R275). Floating-point add. -/
def execXFadd (h : Nat) (w : XFields) (flt : Option XFault) (s : State) : Host.Outcome State Fault Refusal := s.unit h .fadd w flt

/-- FSUB (R275). Floating-point subtract. -/
def execXFsub (h : Nat) (w : XFields) (flt : Option XFault) (s : State) : Host.Outcome State Fault Refusal := s.unit h .fsub w flt

/-- FMUL (R275). Floating-point multiply. -/
def execXFmul (h : Nat) (w : XFields) (flt : Option XFault) (s : State) : Host.Outcome State Fault Refusal := s.unit h .fmul w flt

/-- FDIV (R275). Floating-point divide. -/
def execXFdiv (h : Nat) (w : XFields) (flt : Option XFault) (s : State) : Host.Outcome State Fault Refusal := s.unit h .fdiv w flt

/-- FSQRT (R275). Floating-point square root. -/
def execXFsqrt (h : Nat) (w : XFields) (flt : Option XFault) (s : State) : Host.Outcome State Fault Refusal := s.unit h .fsqrt w flt

/-- FMA (R275). Fused multiply-add. -/
def execXFma (h : Nat) (w : XFields) (flt : Option XFault) (s : State) : Host.Outcome State Fault Refusal := s.unit h .fma w flt

/-- FMIN (R274). Floating-point minimum in key order. -/
def execXFmin (h : Nat) (w : XFields) (flt : Option XFault) (s : State) : Host.Outcome State Fault Refusal := s.unit h .fmin w flt

/-- FMAX (R274). Floating-point maximum in key order. -/
def execXFmax (h : Nat) (w : XFields) (flt : Option XFault) (s : State) : Host.Outcome State Fault Refusal := s.unit h .fmax w flt

/-- FABS (R272). Clears the sign bit. -/
def execXFabs (h : Nat) (w : XFields) (flt : Option XFault) (s : State) : Host.Outcome State Fault Refusal := s.unit h .fabs w flt

/-- FNEG (R272). Flips the sign bit. -/
def execXFneg (h : Nat) (w : XFields) (flt : Option XFault) (s : State) : Host.Outcome State Fault Refusal := s.unit h .fneg w flt

/-- CVT (R280). Converts between types, saturating with OVF when out of range. -/
def execXCvt (h : Nat) (w : XFields) (flt : Option XFault) (s : State) : Host.Outcome State Fault Refusal := s.unit h .cvt w flt

end Sys2Proof.Machine
end

