-- ==== Sys2Proof/Machine/CmdInt.lean ====
section
/-!
DEFINITION. Sys2Proof/Machine/CmdInt.lean: the meanings of the commands of integer arithmetic of the expression unit (08).
-/
namespace Sys2Proof.Machine

/-- ADD (R257). Integer add; sets OVF on range overflow. -/
def execXAdd (h : Nat) (w : XFields) (flt : Option XFault) (s : State) : Host.Outcome State Fault Refusal := s.unit h .add w flt

/-- SUB (R257). Integer subtract; sets OVF on range overflow. -/
def execXSub (h : Nat) (w : XFields) (flt : Option XFault) (s : State) : Host.Outcome State Fault Refusal := s.unit h .sub w flt

/-- AND (R257). Bitwise AND. -/
def execXAnd (h : Nat) (w : XFields) (flt : Option XFault) (s : State) : Host.Outcome State Fault Refusal := s.unit h .and w flt

/-- OR (R257). Bitwise OR. -/
def execXOr (h : Nat) (w : XFields) (flt : Option XFault) (s : State) : Host.Outcome State Fault Refusal := s.unit h .or w flt

/-- XOR (R257). Bitwise XOR. -/
def execXXor (h : Nat) (w : XFields) (flt : Option XFault) (s : State) : Host.Outcome State Fault Refusal := s.unit h .xor w flt

/-- SHL (R233). Shift left by per-lane count. -/
def execXShl (h : Nat) (w : XFields) (flt : Option XFault) (s : State) : Host.Outcome State Fault Refusal := s.unit h .shl w flt

/-- SHR (R233). Shift right by per-lane count, arithmetic on signed types. -/
def execXShr (h : Nat) (w : XFields) (flt : Option XFault) (s : State) : Host.Outcome State Fault Refusal := s.unit h .shr w flt

/-- MIN (R257). Lane minimum. -/
def execXMin (h : Nat) (w : XFields) (flt : Option XFault) (s : State) : Host.Outcome State Fault Refusal := s.unit h .min w flt

/-- MAX (R257). Lane maximum. -/
def execXMax (h : Nat) (w : XFields) (flt : Option XFault) (s : State) : Host.Outcome State Fault Refusal := s.unit h .max w flt

/-- ABS (R257). Absolute value; sets OVF at MIN. -/
def execXAbs (h : Nat) (w : XFields) (flt : Option XFault) (s : State) : Host.Outcome State Fault Refusal := s.unit h .abs w flt

/-- NEG (R257). Negation; sets OVF on overflow. -/
def execXNeg (h : Nat) (w : XFields) (flt : Option XFault) (s : State) : Host.Outcome State Fault Refusal := s.unit h .neg w flt

/-- NOT (R257). Bitwise NOT. -/
def execXNot (h : Nat) (w : XFields) (flt : Option XFault) (s : State) : Host.Outcome State Fault Refusal := s.unit h .not w flt

/-- MUL (R257). Integer multiply, low half; sets OVF on overflow. -/
def execXMul (h : Nat) (w : XFields) (flt : Option XFault) (s : State) : Host.Outcome State Fault Refusal := s.unit h .mul w flt

/-- MULH (R257). Integer multiply, high half. -/
def execXMulh (h : Nat) (w : XFields) (flt : Option XFault) (s : State) : Host.Outcome State Fault Refusal := s.unit h .mulh w flt

/-- WMUL (R241). Exact widening multiply. -/
def execXWmul (h : Nat) (w : XFields) (flt : Option XFault) (s : State) : Host.Outcome State Fault Refusal := s.unit h .wmul w flt

/-- DOT8 (R241). Accumulates a four-way byte dot product into I32 lanes. -/
def execXDot8 (h : Nat) (w : XFields) (flt : Option XFault) (s : State) : Host.Outcome State Fault Refusal := s.unit h .dot8 w flt

/-- DOT16 (R241). Accumulates a two-way halfword dot product into I64 lanes. -/
def execXDot16 (h : Nat) (w : XFields) (flt : Option XFault) (s : State) : Host.Outcome State Fault Refusal := s.unit h .dot16 w flt

/-- DIV (R259). Integer quotient truncated toward zero; ERR on a zero divisor. -/
def execXDiv (h : Nat) (w : XFields) (flt : Option XFault) (s : State) : Host.Outcome State Fault Refusal := s.unit h .div w flt

/-- REM (R259). Integer remainder. -/
def execXRem (h : Nat) (w : XFields) (flt : Option XFault) (s : State) : Host.Outcome State Fault Refusal := s.unit h .rem w flt

/-- DIVREM (R259). Integer quotient and remainder together. -/
def execXDivrem (h : Nat) (w : XFields) (flt : Option XFault) (s : State) : Host.Outcome State Fault Refusal := s.unit h .divrem w flt

end Sys2Proof.Machine
end

