-- ==== Sys2Proof/Machine/CmdMail.lean ====
section
/-!
DEFINITION. Sys2Proof/Machine/CmdMail.lean: the meanings of the commands of mailbox requests and long operations (15).
-/
namespace Sys2Proof.Machine

/-- SESSION_OPEN (R456). Negotiates the MP version, opens a session and returns the identity record. -/
def execSessionOpen (t x : Nat) (r : MbReq) (s : State) : Host.Outcome State Fault Refusal :=
  .next (s.run t (fun (d : Dev) => (d.mbRun x 0x01 r).tidy))

/-- SESSION_CLOSE (R457). Closes the mailbox session. -/
def execSessionClose (t x : Nat) (r : MbReq) (s : State) : Host.Outcome State Fault Refusal :=
  .next (s.run t (fun (d : Dev) => (d.mbRun x 0x02 r).tidy))

/-- IDENTIFY (R459). Returns the identity record. -/
def execIdentify (t x : Nat) (r : MbReq) (s : State) : Host.Outcome State Fault Refusal :=
  .next (s.run t (fun (d : Dev) => (d.mbRun x 0x03 r).tidy))

/-- EVENT_READ (R461). Returns and removes the oldest event records. -/
def execEventRead (t x : Nat) (r : MbReq) (s : State) : Host.Outcome State Fault Refusal :=
  .next (s.run t (fun (d : Dev) => (d.mbRun x 0x04 r).tidy))

/-- OP_STATUS (R461). Returns the state of a long operation. -/
def execOpStatus (t x : Nat) (r : MbReq) (s : State) : Host.Outcome State Fault Refusal :=
  .next (s.run t (fun (d : Dev) => (d.mbRun x 0x05 r).tidy))

/-- OP_CANCEL (R464). Cancels a long operation at its next step boundary. -/
def execOpCancel (t x : Nat) (r : MbReq) (s : State) : Host.Outcome State Fault Refusal :=
  .next (s.run t (fun (d : Dev) => (d.mbRun x 0x06 r).tidy))

/-- REG_READ (R468). Reads device registers with their write counts, clearing RC registers. -/
def execRegRead (t x : Nat) (r : MbReq) (s : State) : Host.Outcome State Fault Refusal :=
  .next (s.run t (fun (d : Dev) => (d.mbRun x 0x10 r).tidy))

/-- REG_WRITE (R467). Writes a device register, as a compare-and-write for CW registers. -/
def execRegWrite (t x : Nat) (r : MbReq) (s : State) : Host.Outcome State Fault Refusal :=
  .next (s.run t (fun (d : Dev) => (d.mbRun x 0x11 r).tidy))

/-- MEM_READ (R471). Copies claimed HBM3E regions or the trace ring to host memory. -/
def execMemRead (t x : Nat) (r : MbReq) (s : State) : Host.Outcome State Fault Refusal :=
  .next (s.run t (fun (d : Dev) => (d.mbRun x 0x12 r).tidy))

/-- POLICY_SET (R40). Sets the stored policy level of the device or a VF. -/
def execPolicySet (t x : Nat) (r : MbReq) (s : State) : Host.Outcome State Fault Refusal :=
  .next (s.run t (fun (d : Dev) => (d.mbRun x 0x13 r).tidy))

/-- NODE_SET (R461). Sets the node ID and the node table. -/
def execNodeSet (t x : Nat) (r : MbReq) (s : State) : Host.Outcome State Fault Refusal :=
  .next (s.run t (fun (d : Dev) => (d.mbRun x 0x14 r).tidy))

/-- SHARING_GROUP_SET (R139). Places a function in an image sharing group, or empties a group. -/
def execSharingGroupSet (t x : Nat) (r : MbReq) (s : State) : Host.Outcome State Fault Refusal :=
  .next (s.run t (fun (d : Dev) => (d.mbRun x 0x15 r).tidy))

/-- MODE_SET (R537). Requests an operating mode or a power ceiling. -/
def execModeSet (t x : Nat) (r : MbReq) (s : State) : Host.Outcome State Fault Refusal :=
  .next (s.run t (fun (d : Dev) => (d.mbRun x 0x16 r).tidy))

/-- VF_SHARES_SET (R489). Changes a function's shares all at once or not at all. -/
def execVfSharesSet (t x : Nat) (r : MbReq) (s : State) : Host.Outcome State Fault Refusal :=
  .next (s.run t (fun (d : Dev) => (d.mbRun x 0x17 r).tidy))

/-- SYSTEM_TABLE_WRITE (R298). Writes or removes a system table under CMT_SYS_GEN. -/
def execSystemTableWrite (t x : Nat) (r : MbReq) (s : State) : Host.Outcome State Fault Refusal :=
  .next (s.run t (fun (d : Dev) => (d.mbRun x 0x18 r).tidy))

/-- TS_CREATE (R574). Creates a table space bound to a loaded key. -/
def execTsCreate (t x : Nat) (r : MbReq) (s : State) : Host.Outcome State Fault Refusal :=
  .next (s.run t (fun (d : Dev) => (d.mbRun x 0x20 r).tidy))

/-- TS_DELETE (R462). Long operation that removes a table space and deallocates its rows. -/
def execTsDelete (t x : Nat) (r : MbReq) (s : State) : Host.Outcome State Fault Refusal :=
  .next (s.run t (fun (d : Dev) => (d.mbRun x 0x21 r).tidy))

/-- TS_CONFIG (R461). Sets retain_epochs of a table space. -/
def execTsConfig (t x : Nat) (r : MbReq) (s : State) : Host.Outcome State Fault Refusal :=
  .next (s.run t (fun (d : Dev) => (d.mbRun x 0x22 r).tidy))

/-- TABLE_CREATE (R461). Creates a table with its columns in one epoch. -/
def execTableCreate (t x : Nat) (r : MbReq) (s : State) : Host.Outcome State Fault Refusal :=
  .next (s.run t (fun (d : Dev) => (d.mbRun x 0x23 r).tidy))

/-- TABLE_DROP (R462). Drops a table and its slag table in one epoch. -/
def execTableDrop (t x : Nat) (r : MbReq) (s : State) : Host.Outcome State Fault Refusal :=
  .next (s.run t (fun (d : Dev) => (d.mbRun x 0x24 r).tidy))

/-- TABLE_ALTER (R462). Adds or drops a column, or truncates the table, in one epoch. -/
def execTableAlter (t x : Nat) (r : MbReq) (s : State) : Host.Outcome State Fault Refusal :=
  .next (s.run t (fun (d : Dev) => (d.mbRun x 0x25 r).tidy))

/-- TABLE_VALIDATION_SET (R461). Sets or removes a table's validation image. -/
def execTableValidationSet (t x : Nat) (r : MbReq) (s : State) : Host.Outcome State Fault Refusal :=
  .next (s.run t (fun (d : Dev) => (d.mbRun x 0x26 r).tidy))

/-- COMMIT_HISTORY (R480). Writes per-epoch commit records to a host buffer. -/
def execCommitHistory (t x : Nat) (r : MbReq) (s : State) : Host.Outcome State Fault Refusal :=
  .next (s.run t (fun (d : Dev) => (d.mbRun x 0x27 r).tidy))

/-- TS_SECURE_ERASE (R576). Long operation that unbinds the key, removes it on both twins and deallocates the rows. -/
def execTsSecureErase (t x : Nat) (r : MbReq) (s : State) : Host.Outcome State Fault Refusal :=
  .next (s.run t (fun (d : Dev) => (d.mbRun x 0x28 r).tidy))

/-- GROUP_CREATE (R461). Forms a stripe group from drives in position order. -/
def execGroupCreate (t x : Nat) (r : MbReq) (s : State) : Host.Outcome State Fault Refusal :=
  .next (s.run t (fun (d : Dev) => (d.mbRun x 0x30 r).tidy))

/-- SPARE_ASSIGN (R442). Makes a drive a spare by rewriting its label. -/
def execSpareAssign (t x : Nat) (r : MbReq) (s : State) : Host.Outcome State Fault Refusal :=
  .next (s.run t (fun (d : Dev) => (d.mbRun x 0x31 r).tidy))

/-- REBUILD_START (R447). Starts a rebuild of a failed position onto a spare. -/
def execRebuildStart (t x : Nat) (r : MbReq) (s : State) : Host.Outcome State Fault Refusal :=
  .next (s.run t (fun (d : Dev) => (d.mbRun x 0x32 r).tidy))

/-- RELAYOUT (R462). Long operation that re-lays out extents, optionally to a new scheme. -/
def execRelayout (t x : Nat) (r : MbReq) (s : State) : Host.Outcome State Fault Refusal :=
  .next (s.run t (fun (d : Dev) => (d.mbRun x 0x33 r).tidy))

/-- SCRUB (R596). Long operation that scrubs a memory unit or a stripe group. -/
def execScrub (t x : Nat) (r : MbReq) (s : State) : Host.Outcome State Fault Refusal :=
  .next (s.run t (fun (d : Dev) => (d.mbRun x 0x34 r).tidy))

/-- MEM_PAIR_OFFLINE (R371). Moves a DDR5 pair's frames off the pair and powers it down. -/
def execMemPairOffline (t x : Nat) (r : MbReq) (s : State) : Host.Outcome State Fault Refusal :=
  .next (s.run t (fun (d : Dev) => (d.mbRun x 0x35 r).tidy))

/-- MEM_PAIR_ONLINE (R371). Trains a DDR5 pair and returns its frames to the pool. -/
def execMemPairOnline (t x : Nat) (r : MbReq) (s : State) : Host.Outcome State Fault Refusal :=
  .next (s.run t (fun (d : Dev) => (d.mbRun x 0x36 r).tidy))

/-- CACHE_INVALIDATE (R386). Invalidates a context and DVA range in every slice. -/
def execCacheInvalidate (t x : Nat) (r : MbReq) (s : State) : Host.Outcome State Fault Refusal :=
  .next (s.run t (fun (d : Dev) => (d.mbRun x 0x37 r).tidy))

/-- CLAIM (R472). Takes a resource through the claims table, or is refused naming the holder. -/
def execClaim (t x : Nat) (r : MbReq) (s : State) : Host.Outcome State Fault Refusal :=
  .next (s.run t (fun (d : Dev) => (d.mbRun x 0x40 r).tidy))

/-- RELEASE_CLAIM (R474). The holder releases a claim. -/
def execReleaseClaim (t x : Nat) (r : MbReq) (s : State) : Host.Outcome State Fault Refusal :=
  .next (s.run t (fun (d : Dev) => (d.mbRun x 0x41 r).tidy))

/-- CLAIMS_LIST (R472). Lists live claims. -/
def execClaimsList (t x : Nat) (r : MbReq) (s : State) : Host.Outcome State Fault Refusal :=
  .next (s.run t (fun (d : Dev) => (d.mbRun x 0x42 r).tidy))

/-- FW_STAGE (R477). Writes and verifies a firmware image into the slot that is not running. -/
def execFwStage (t x : Nat) (r : MbReq) (s : State) : Host.Outcome State Fault Refusal :=
  .next (s.run t (fun (d : Dev) => (d.mbRun x 0x50 r).tidy))

/-- FW_ACTIVATE (R478). Replaces the running firmware without a reset. -/
def execFwActivate (t x : Nat) (r : MbReq) (s : State) : Host.Outcome State Fault Refusal :=
  .next (s.run t (fun (d : Dev) => (d.mbRun x 0x51 r).tidy))

/-- FW_ACTIVATE_FAILED (R479). The new firmware does not reach step 4 in 200 ms; the previous firmware is restored. -/
def execFwActivateFailed (t stage minor : Nat) (s : State) : Host.Outcome State Fault Refusal :=
  .next (s.run t (fun (d : Dev) => (d.fwFailed t stage minor (fun (d : Dev) x => d.mbTake x)).tidy))

/-- FW_SELECT (R476). Sets the boot slot. -/
def execFwSelect (t x : Nat) (r : MbReq) (s : State) : Host.Outcome State Fault Refusal :=
  .next (s.run t (fun (d : Dev) => (d.mbRun x 0x52 r).tidy))

/-- FW_STATUS (R476). Returns the slot states, versions and digests. -/
def execFwStatus (t x : Nat) (r : MbReq) (s : State) : Host.Outcome State Fault Refusal :=
  .next (s.run t (fun (d : Dev) => (d.mbRun x 0x53 r).tidy))

/-- MAILBOX_OVERRUN (R452). A doorbell written while busy is ignored and sets overrun. -/
def execMailboxOverrun (t x : Nat) (s : State) : Host.Outcome State Fault Refusal :=
  .next (s.run t (fun (d : Dev) => d.mbOverrun x))

/-- LONG_OP_STEP (R463). A long operation runs one step of at most 2 ms and reaches a step boundary. -/
def execLongOpStep (t handle : Nat) (f : StepIn) (s : State) : Host.Outcome State Fault Refusal :=
  .next (s.run t (fun (d : Dev) => (d.longOpStep t handle f).tidy))

/-- SHARE_PORT_SPLIT (R485). CW write that divides the queue pairs between PF0 and PF1. -/
def execSharePortSplit (t x value expected count : Nat) (s : State) : Host.Outcome State Fault Refusal :=
  .next (s.run t (fun (d : Dev) => d.cwWrite t x 0x02A00000 4 value expected count))

end Sys2Proof.Machine
end

