-- ==== Sys2Proof/Machine/CmdMask.lean ====
section
/-!
DEFINITION. Sys2Proof/Machine/CmdMask.lean: the meanings of the commands of compares, selects and mask registers (07, 08).
-/
namespace Sys2Proof.Machine

/-- CMP (R230). Compares two groups into a mask. -/
def execXCmp (h : Nat) (w : XFields) (flt : Option XFault) (s : State) : Host.Outcome State Fault Refusal := s.unit h .cmp w flt

/-- VSEL (R229). Selects lanes of a or b by a mask. -/
def execXVsel (h : Nat) (w : XFields) (flt : Option XFault) (s : State) : Host.Outcome State Fault Refusal := s.unit h .vsel w flt

/-- VALID (R230). Copies a group's validity into a mask. -/
def execXValid (h : Nat) (w : XFields) (flt : Option XFault) (s : State) : Host.Outcome State Fault Refusal := s.unit h .valid w flt

/-- SETNULL (R233). Clears validity of a group in the rows of a mask. -/
def execXSetnull (h : Nat) (w : XFields) (flt : Option XFault) (s : State) : Host.Outcome State Fault Refusal := s.unit h .setnull w flt

/-- MAND (R230). Mask AND. -/
def execXMand (h : Nat) (w : XFields) (flt : Option XFault) (s : State) : Host.Outcome State Fault Refusal := s.unit h .mand w flt

/-- MOR (R230). Mask OR. -/
def execXMor (h : Nat) (w : XFields) (flt : Option XFault) (s : State) : Host.Outcome State Fault Refusal := s.unit h .mor w flt

/-- MXOR (R230). Mask XOR. -/
def execXMxor (h : Nat) (w : XFields) (flt : Option XFault) (s : State) : Host.Outcome State Fault Refusal := s.unit h .mxor w flt

/-- MANDN (R230). Mask AND-NOT. -/
def execXMandn (h : Nat) (w : XFields) (flt : Option XFault) (s : State) : Host.Outcome State Fault Refusal := s.unit h .mandn w flt

/-- MNOT (R230). Mask NOT. -/
def execXMnot (h : Nat) (w : XFields) (flt : Option XFault) (s : State) : Host.Outcome State Fault Refusal := s.unit h .mnot w flt

/-- MMOV (R230). Mask move. -/
def execXMmov (h : Nat) (w : XFields) (flt : Option XFault) (s : State) : Host.Outcome State Fault Refusal := s.unit h .mmov w flt

/-- MCNT (R233). Counts mask bits into a scalar. -/
def execXMcnt (h : Nat) (w : XFields) (flt : Option XFault) (s : State) : Host.Outcome State Fault Refusal := s.unit h .mcnt w flt

/-- MERR (R231). Copies ERR into a mask. -/
def execXMerr (h : Nat) (w : XFields) (flt : Option XFault) (s : State) : Host.Outcome State Fault Refusal := s.unit h .merr w flt

/-- MOVF (R231). Copies OVF into a mask. -/
def execXMovf (h : Nat) (w : XFields) (flt : Option XFault) (s : State) : Host.Outcome State Fault Refusal := s.unit h .movf w flt

end Sys2Proof.Machine
end

