-- ==== Sys2Proof/Machine/CmdMemory.lean ====
section
/-!
DEFINITION. Sys2Proof/Machine/CmdMemory.lean: the meanings of the commands of frames, DRAM, the scratchpads and the system cache (12).
-/
namespace Sys2Proof.Machine

/-- FRAME_MOVE (R363). A frame is moved to another unit in five steps while accesses to it wait. -/
def execFrameMove (t u f dest : Nat) (s : State) : Host.Outcome State Fault Refusal :=
  .next (s.run t (fun (d : Dev) => d.frameMove u f dest))

/-- FRAME_ZEROING (R360). A freed frame is zeroed in a Maintenance-level step and returned to the pool. -/
def execFrameZeroing (t u f : Nat) (s : State) : Host.Outcome State Fault Refusal :=
  .next (s.run t (fun (d : Dev) => d.ownWork.zeroFrame u f))

/-- ROW_REPAIR (R369). A DRAM row is repaired by moving frames and applying hard repair, or its frames are retired. -/
def execRowRepair (t u off : Nat) (resource : Bool) (s : State) : Host.Outcome State Fault Refusal :=
  .next (s.run t (fun (d : Dev) => d.ownWork.rowRepair u off resource))

/-- PATROL_SCRUB_STEP (R369). A patrol-scrub step reads lines of a unit and handles errors. -/
def execPatrolScrubStep (t u lines : Nat) (errs : List (Nat × MemErr)) (s : State) : Host.Outcome State Fault Refusal :=
  .next (s.run t (fun (d : Dev) => (d.ownWork.patrol u lines errs).tidy))

/-- REFRESH_WINDOW_END (R368). The 32 ms refresh window ends and the activate tables clear. -/
def execRefreshWindowEnd (t u : Nat) (s : State) : Host.Outcome State Fault Refusal :=
  .next (s.run t (fun (d : Dev) => d.windowEnd u))

/-- ROW_IDLE_TIMEOUT (R367). A bank's open row sees no access for idle_ns and closes. -/
def execRowIdleTimeout (t u off : Nat) (s : State) : Host.Outcome State Fault Refusal :=
  .next (s.run t (fun (d : Dev) => d.rowIdle u off))

/-- ZQ_CALIBRATION (R370). The 128 ms timer runs ZQ calibration. -/
def execZqCalibration (t u : Nat) (s : State) : Host.Outcome State Fault Refusal :=
  .next (s.run t (fun (d : Dev) => d.zqRun u))

/-- DQS_TRACKING (R370). The 32 ms timer runs DQS oscillator tracking. -/
def execDqsTracking (t u : Nat) (s : State) : Host.Outcome State Fault Refusal :=
  .next (s.run t (fun (d : Dev) => d.dqsRun u))

/-- BANK_RETENTION_ENTRY (R376). An unheld scratchpad bank is idle for ret_idle_us and enters retention. -/
def execBankRetentionEntry (t h b : Nat) (s : State) : Host.Outcome State Fault Refusal :=
  .next (s.run t (fun (d : Dev) => d.retain h b))

/-- BANK_WAKE (R376). A scratchpad bank's 8 µs wake from retention completes. -/
def execBankWake (t h b : Nat) (s : State) : Host.Outcome State Fault Refusal :=
  .next (s.run t (fun (d : Dev) => d.bankWake h b))

/-- COLUMN_REPAIR (R378). A scratchpad column is repaired with a spare after the hearth's charge ends. -/
def execColumnRepair (t h b : Nat) (s : State) : Host.Outcome State Fault Refusal :=
  .next (s.run t (fun (d : Dev) => d.ifQuenched h (fun d => d.columnRepair h b)))

/-- CACHE_READ (R382). A read request looks up the ways and victim buffer, and fills on a miss. -/
def execCacheRead (t ctx dva : Nat) (err : MemErr) (s : State) : Host.Outcome State Fault Refusal :=
  .next (s.run t (fun (d : Dev) => (d.cacheRead ctx dva err).tidy))

/-- CACHE_WRITE (R382). A write goes through to memory and updates any cached copy. -/
def execCacheWrite (t ctx dva : Nat) (b : Bytes) (s : State) : Host.Outcome State Fault Refusal :=
  .next (s.run t (fun (d : Dev) => (d.cacheWrite ctx dva b).tidy))

/-- ZERO_LINE (R382). Writes a zero line to memory and installs it without a read. -/
def execZeroLine (t ctx dva : Nat) (s : State) : Host.Outcome State Fault Refusal :=
  .next (s.run t (fun (d : Dev) => (d.cacheZero ctx dva).tidy))

/-- DRAM_REFRESH (R367). A refresh falls due on a DRAM bank, which closes its open row and gives the refresh gap that controllers use as a
step boundary. -/
def execDramRefresh (t u off : Nat) (rfm : Bool) (s : State) : Host.Outcome State Fault Refusal :=
  .next (s.run t (fun (d : Dev) => d.dramRefresh u off rfm))

end Sys2Proof.Machine
end

