-- ==== Sys2Proof/Machine/CmdPair.lean ====
section
/-!
DEFINITION. Sys2Proof/Machine/CmdPair.lean: the meanings of the commands of the twin link, the witness and failover (17).
-/
namespace Sys2Proof.Machine

/-- TWIN_HELLO (R496). A twin HELLO frame runs the pairing outcome table. -/
def execTwinHello (t seq : Nat) (hello : THello) (s : State) : Host.Outcome State Fault Refusal :=
  .next (s.run t (fun (d : Dev) => (d.twinHello t seq hello).tidy))

/-- HEARTBEAT (R500). A partner heartbeat frame arrives. -/
def execHeartbeat (t seq : Nat) (s : State) : Host.Outcome State Fault Refusal :=
  .next (s.run t (fun (d : Dev) => d.twinHeartbeat t seq))

/-- ALLOC_REQ (R193). The partner asks for an allocation, or for spill rows or their return. -/
def execAllocReq (t seq : Nat) (req : AllocReq) (s : State) : Host.Outcome State Fault Refusal :=
  .next (s.run t (fun (d : Dev) => (d.allocReq t seq req).tidy))

/-- ALLOC_GRANT (R193). The owner grants an epoch, row numbers and stripe rows, or spill rows. -/
def execAllocGrant (t seq : Nat) (grant : AllocGrant) (s : State) : Host.Outcome State Fault Refusal :=
  .next (s.run t (fun (d : Dev) => (d.allocGrant t seq grant).tidy))

/-- EXTENT_HEADERS (R422). The writer sends its extent headers to the owner. -/
def execExtentHeaders (t seq : Nat) (c : Commit) (s : State) : Host.Outcome State Fault Refusal :=
  .next (s.run t (fun (d : Dev) => (d.extentHeaders t seq c).tidy))

/-- RECORD (R502). A commit record is stored in the command table. -/
def execRecord (t seq : Nat) (c : Commit) (s : State) : Host.Outcome State Fault Refusal :=
  .next (s.run t (fun (d : Dev) => (d.twinRecord t seq c).tidy))

/-- CHECKPOINT (R502). A charge checkpoint is stored in the command table. -/
def execCheckpoint (t seq : Nat) (m : CkptMsg) (s : State) : Host.Outcome State Fault Refusal :=
  .next (s.run t (fun (d : Dev) => d.twinCheckpoint t seq m))

/-- CMD_START (R502). A command's entry is added to the partner's command table. -/
def execCmdStart (t seq x q idx : Nat) (entry : Bytes) (s : State) : Host.Outcome State Fault Refusal :=
  .next (s.run t (fun (d : Dev) => d.cmdStart t seq x q idx entry))

/-- CMD_DONE (R502). A command's completion is stored and the command leaves the table. -/
def execCmdDone (t seq : Nat) (l : List PDone) (s : State) : Host.Outcome State Fault Refusal :=
  .next (s.run t (fun (d : Dev) => d.cmdDone t seq l))

/-- QUEUE_STATE (R502). Mirrored queue registers or CQ head are stored. -/
def execQueueState (t seq x q : Nat) (p : Qp) (s : State) : Host.Outcome State Fault Refusal :=
  .next (s.run t (fun (d : Dev) => d.queueMirror t seq x q p))

/-- HOLD (R68). A snapshot hold and the lowest-held report are stored. -/
def execHold (t seq : Nat) (hold : Hold) (take : Bool) (low q cid : Nat) (s : State) : Host.Outcome State Fault Refusal :=
  .next (s.run t (fun (d : Dev) => d.twinHold t seq hold take low q cid))

/-- CONFIG (R509). Node, adoption map and policies are stored. -/
def execConfig (t seq : Nat) (c : TConfig) (s : State) : Host.Outcome State Fault Refusal :=
  .next (s.run t (fun (d : Dev) => d.twinConfig t seq c))

/-- OWNERSHIP (R521). A table space's ownership moves to this twin. -/
def execOwnership (t seq ts reserved last : Nat) (s : State) : Host.Outcome State Fault Refusal :=
  .next (s.run t (fun (d : Dev) => (d.ownership t seq ts reserved last).tidy))

/-- RESYNC (R522). One re-sync step is applied; the last one switches the pair to mirroring. -/
def execResync (t seq : Nat) (r : TResync) (s : State) : Host.Outcome State Fault Refusal :=
  .next (s.run t (fun (d : Dev) => (d.twinResync t seq r).tidy))

/-- TWIN_ACK (R499). A received ack field covers frames, completing the actions that waited on them. -/
def execTwinAck (t ack : Nat) (s : State) : Host.Outcome State Fault Refusal :=
  .next (s.run t (fun (d : Dev) => (d.twinAck t ack).tidy))

/-- TWIN_FRAME_RETRY (R499). An unacknowledged frame is resent after 50 µs. -/
def execTwinFrameRetry (t seq : Nat) (s : State) : Host.Outcome State Fault Refusal :=
  .next (s.run t (fun (d : Dev) => d.twinRetry t seq))

/-- HEARTBEAT_TIMER (R500). Every 1 ms, HEARTBEAT is sent on each group that is up. -/
def execHeartbeatTimer (t : Nat) (s : State) : Host.Outcome State Fault Refusal :=
  .next (s.run t (fun (d : Dev) => d.heartbeats t))

/-- LINK_SILENT (R500). No valid frame arrives for 20 ms. -/
def execLinkSilent (t : Nat) (s : State) : Host.Outcome State Fault Refusal :=
  .next (s.run t (fun (d : Dev) => d.linkSilent t))

/-- TWIN_GROUP_DOWN (R499). A lane group goes down and its frames are resent on the other. -/
def execTwinGroupDown (t g : Nat) (s : State) : Host.Outcome State Fault Refusal :=
  .next (s.run t (fun (d : Dev) => d.twinGroupDown t g))

/-- TWIN_LINK_UP (R496). The twin link trains and pairing runs. -/
def execTwinLinkUp (t g : Nat) (s : State) : Host.Outcome State Fault Refusal :=
  .next (s.run t (fun (d : Dev) => d.twinLinkUp t g))

/-- WITNESS_WRITE (R503). Every 5 ms, the twin writes its witness block with FUA. -/
def execWitnessWrite (t : Nat) (s : State) : Host.Outcome State Fault Refusal :=
  .next (s.run t (fun (d : Dev) => d.witnessWrite t))

/-- WITNESS_READ (R504). Every 5 ms, the twin reads the partner's witness. -/
def execWitnessRead (t drive : Nat) (block : Option Bytes) (registered : Bool) (s : State) : Host.Outcome State Fault Refusal :=
  .next (s.run t (fun (d : Dev) => (d.witnessRead t drive block registered).tidy))

/-- DECLARE_FAILED (R505). Silence and a still witness meet their bounds; the partner is declared failed and fenced. -/
def execDeclareFailed (t : Nat) (won : Bool) (s : State) : Host.Outcome State Fault Refusal :=
  .next (s.run t (fun (d : Dev) => (d.declareFailed t won).tidy))

/-- STAND_DOWN (R506). A position-1 twin with a silent link and an advancing partner witness stands down. -/
def execStandDown (t : Nat) (s : State) : Host.Outcome State Fault Refusal :=
  .next (s.run t (fun (d : Dev) => (d.standDownCmd t).tidy))

/-- RESERVATION_CONFLICT (R508). A write meets a reservation conflict; the twin knows it is fenced and stops. -/
def execReservationConflict (t : Nat) (s : State) : Host.Outcome State Fault Refusal :=
  .next (s.run t (fun (d : Dev) => (d.reservationConflict t).tidy))

/-- FAILOVER_REPLAY (R514). After fencing, the failed twin's rings are replayed, held records committed and ownership taken. -/
def execFailoverReplay (t : Nat) (valid reserves : List (Nat × Nat)) (s : State) : Host.Outcome State Fault Refusal :=
  .next (s.run t (fun (d : Dev) => (d.failoverReplay t valid reserves).tidy))

/-- QUEUE_ADOPTION (R510). Queues are set up on standby functions; completions are rewritten and PATH_MOVED is written. -/
def execQueueAdoption (t : Nat) (frags : List AFrag) (s : State) : Host.Outcome State Fault Refusal :=
  .next (s.run t (fun (d : Dev) => (d.queueAdoption t frags).tidy))

/-- QUERY_RESUMPTION (R517). Adopted queries resume at step 3 and RESUME is sent to every node. -/
def execQueryResumption (t : Nat) (s : State) : Host.Outcome State Fault Refusal :=
  .next (s.run t (fun (d : Dev) => (d.queryResumption t).tidy))

/-- RECOVERY_COMPLETE (R520). Failover recovery ends, rebuilds resume and TWIN_LAST_FAILOVER is written. -/
def execRecoveryComplete (t : Nat) (s : State) : Host.Outcome State Fault Refusal :=
  .next (s.run t (fun (d : Dev) => (d.recoveryComplete t).tidy))

/-- TWIN_OWN_XFER (R521). A write starts a planned ownership transfer of a table space. -/
def execTwinOwnXfer (t x ts expected count : Nat) (s : State) : Host.Outcome State Fault Refusal :=
  .next (s.run t (fun (d : Dev) => (d.cwWrite t x 0x02B00020 4 ts expected count).tidy))

/-- PAIR_ENABLE (R496). A change of the TWIN_CTRL pair_enable bit retries pairing. -/
def execPairEnable (t x : Nat) (on : Bool) (expected count : Nat) (s : State) : Host.Outcome State Fault Refusal :=
  .next (s.run t (fun (d : Dev) => (d.cwWrite t x 0x02B00000 4 (setBit expected 0 on) expected count).tidy))

/-- ACCEPT_JOIN (R496). The TWIN_CTRL accept_join bit admits a replacement twin. -/
def execAcceptJoin (t x : Nat) (on : Bool) (expected count : Nat) (s : State) : Host.Outcome State Fault Refusal :=
  .next (s.run t (fun (d : Dev) => (d.cwWrite t x 0x02B00000 4 (setBit expected 1 on) expected count).tidy))

end Sys2Proof.Machine
end

