-- ==== Sys2Proof/Machine/CmdPowering.lean ====
section
/-!
DEFINITION. Sys2Proof/Machine/CmdPowering.lean: the meanings of the commands of operating modes and power (18).
-/
namespace Sys2Proof.Machine

/-- UNIT_ACKNOWLEDGE (R535). A unit reaches its step boundary, switches to the target state and acknowledges the prepare. -/
def execUnitAcknowledge (t n : Nat) (s : State) : Host.Outcome State Fault Refusal :=
  .next (s.run t (fun (d : Dev) => (d.unitAck t n).tidy))

/-- MODE_CHANGE_DEADLINE (R535). 2 ms after prepare without every acknowledgement, the change reverts. -/
def execModeChangeDeadline (t : Nat) (s : State) : Host.Outcome State Fault Refusal :=
  .next (s.run t (fun (d : Dev) => (d.changeDeadline t).tidy))

/-- VDD_CORE_READY (R535). The regulator's power-good after a ramp lets prepare begin. -/
def execVddCoreReady (t : Nat) (s : State) : Host.Outcome State Fault Refusal :=
  .next (s.run t (fun (d : Dev) => (d.vddReady t).tidy))

/-- HEARTH_GROUP_READY (R534). A hearth group's wake completes and the next group wakes. -/
def execHearthGroupReady (t g : Nat) (s : State) : Host.Outcome State Fault Refusal :=
  .next (s.run t (fun (d : Dev) => (d.groupReady t g).tidy))

/-- IDLE_TIMER (R529). 10 ms with no work leads to an autonomous choice of Idle. -/
def execIdleTimer (t : Nat) (s : State) : Host.Outcome State Fault Refusal :=
  .next (s.run t (fun (d : Dev) => (d.idleTimer t).tidy))

/-- ENTRY_SEQUENCE (R538). Ember or Off entry checkpoints, writes shutdown records, shuts down the drives and removes domains. -/
def execEntrySequence (t : Nat) (ok0 ok1 : Bool) (s : State) : Host.Outcome State Fault Refusal :=
  .next (s.run t (fun (d : Dev) => d.entrySequence t (fun d => d.recForce.recArchive ok0 ok1)))

/-- EMBER_WAKE (R542). An enabled wake source in Ember starts the exit to Idle. -/
def execEmberWake (t : Nat) (by_ : WakeBy) (s : State) : Host.Outcome State Fault Refusal :=
  .next (s.run t (fun (d : Dev) => d.emberWake t by_))

/-- BELLOWS_ALARM (R542). The operating-seconds count reaches BELLOWS_ALARM and wakes the device. -/
def execBellowsAlarm (t : Nat) (s : State) : Host.Outcome State Fault Refusal :=
  .next (s.run t (fun (d : Dev) => d.bellowsAlarm t))

/-- DOMAIN_WAKE (R542). A request reaches an off domain, which Bellows powers while the request is held. -/
def execDomainWake (t n : Nat) (s : State) : Host.Outcome State Fault Refusal :=
  .next (s.run t (fun (d : Dev) => d.domainWake t n))

/-- DOMAIN_IDLE_TIMEOUT (R533). A domain powered on demand returns to its tabled state after 1 ms without a request. -/
def execDomainIdleTimeout (t n : Nat) (s : State) : Host.Outcome State Fault Refusal :=
  .next (s.run t (fun (d : Dev) => d.domainIdle t n))

/-- POWER_SAMPLE (R539). A 100 µs package-power measurement in Capped mode. -/
def execPowerSample (t : Nat) (reads : List (Nat × Nat × Nat)) (s : State) : Host.Outcome State Fault Refusal :=
  .next (s.run t (fun (d : Dev) => d.powerSample t reads))

/-- PARK_CHECK (R539). Each 1 ms, a hearth is parked on excess power or unparked below 95 %. -/
def execParkCheck (t : Nat) (s : State) : Host.Outcome State Fault Refusal :=
  .next (s.run t (fun (d : Dev) => (d.parkCheck t).tidy))

/-- THERMAL_SAMPLE (R540). Tj is read each 100 µs; alert or clamp is applied. -/
def execThermalSample (t : Nat) (l : List (Nat × Int)) (s : State) : Host.Outcome State Fault Refusal :=
  .next (s.run t (fun (d : Dev) => (d.thermalSample t l).tidy))

/-- CLAMP_RELEASE (R540). Tj stays below clamp_c - 5 °C for 100 ms, and the clamp releases. -/
def execClampRelease (t : Nat) (s : State) : Host.Outcome State Fault Refusal :=
  .next (s.run t (fun (d : Dev) => (d.clampRelease t).tidy))

/-- THERMTRIP (R627). A sensor reaches 115 °C; clocks stop and THERMTRIP# is asserted. -/
def execThermtrip (t : Nat) (s : State) : Host.Outcome State Fault Refusal :=
  .next (s.run t (fun (d : Dev) => d.thermTrip t))

end Sys2Proof.Machine
end

