-- ==== Sys2Proof/Machine/CmdQueue.lean ====
section
/-!
DEFINITION. Sys2Proof/Machine/CmdQueue.lean: the meanings of the commands of submission entries, queue pairs, functions and completions (13, 16).
-/
namespace Sys2Proof.Machine

/-- QUERY_SUBMIT (R407). Host submission entry that names an image, a parameter block, a table space and result rings, and starts a query
through the admission checks. -/
def execQuerySubmit (t x q cid : Nat) (s : State) : Host.Outcome State Fault Refusal :=
  .next (s.run t (fun (d : Dev) => (d.querySubmit x q cid).tidy))

/-- INGEST (R434). Submission entry that carries an ingest stream of rows into a table; the rows are validated and committed as one epoch.
-/
def execIngest (t x q cid : Nat) (s : State) : Host.Outcome State Fault Refusal :=
  .next (s.run t (fun (d : Dev) => (d.startIngest x q cid).tidy))

/-- READ_PAGES (R405). Submission entry that delivers stored page slots of one visible extent, after decryption, to host memory. -/
def execReadPages (t x q cid : Nat) (s : State) : Host.Outcome State Fault Refusal :=
  .next (s.run t (fun (d : Dev) => (d.readPages x q cid).tidy))

/-- FLUSH (R415). Submission entry that acts as an ordering barrier over committing commands within its scope. -/
def execFlush (t x q cid : Nat) (s : State) : Host.Outcome State Fault Refusal :=
  .next (s.run t (fun (d : Dev) => d.startFlush x q cid))

/-- ABORT (R414). Submission entry that ends a named command of the same function, unless the command is past its point of no return. -/
def execAbort (t x q cid : Nat) (s : State) : Host.Outcome State Fault Refusal :=
  .next (s.run t (fun (d : Dev) => (d.abort x q cid).tidy))

/-- SNAPSHOT (R70). Submission entry that takes or releases a hold on an epoch of a table space. -/
def execSnapshot (t x q cid : Nat) (s : State) : Host.Outcome State Fault Refusal :=
  .next (s.run t (fun (d : Dev) => d.snapshot x q cid))

/-- DIGEST (R406). Submission entry that digests or HMACs host data on a digest engine and writes the result to result_addr. -/
def execDigest (t x q cid : Nat) (s : State) : Host.Outcome State Fault Refusal :=
  .next (s.run t (fun (d : Dev) => d.startDigest x q cid))

/-- COMPRESS (R406). Submission entry that SWAGE-encodes, or decodes SWAGE, Zstandard or LZ4 data, from host memory into a host destination.
-/
def execCompress (t x q cid : Nat) (s : State) : Host.Outcome State Fault Refusal :=
  .next (s.run t (fun (d : Dev) => d.startCompress x q cid))

/-- ENTRY_FETCH (R401). In an arbitration pass, the port arbiter fetches and checks up to a burst of entries from a queue that holds
unfetched entries. -/
def execEntryFetch (t port : Nat) (es : List FetchEnt) (s : State) : Host.Outcome State Fault Refusal :=
  .next (s.run t (fun (d : Dev) => (d.entryFetch port es).autoMode))

/-- QP_SQ_DOORBELL (R396). Host write of a new SQ tail; an invalid value moves the queue to ERROR. -/
def execQpSqDoorbell (t x q v : Nat) (s : State) : Host.Outcome State Fault Refusal :=
  .next (s.run t (fun (d : Dev) => d.fromHost x (fun d => d.sqDoorbell x q v)))

/-- QP_CQ_DOORBELL (R397). Host write of a new CQ head; it frees CQ space or moves the queue to ERROR. -/
def execQpCqDoorbell (t x q v : Nat) (s : State) : Host.Outcome State Fault Refusal :=
  .next (s.run t (fun (d : Dev) => d.fromHost x (fun d => d.cqDoorbell x q v)))

/-- QUEUE_ENABLE (R394). Write of 1 to QP_CTRL enable; the queue moves to ACTIVE, or stays DISABLED with reason CONFIG. -/
def execQueueEnable (t x q : Nat) (s : State) : Host.Outcome State Fault Refusal :=
  .next (s.run t (fun (d : Dev) => d.fromHost x (fun d => d.queueEnable x q)))

/-- QUEUE_DISABLE (R394). Write of 0 to QP_CTRL enable; an idle ACTIVE queue moves to DISABLED, and any other write is ignored. -/
def execQueueDisable (t x q : Nat) (s : State) : Host.Outcome State Fault Refusal :=
  .next (s.run t (fun (d : Dev) => d.fromHost x (fun d => d.queueDisable x q)))

/-- QUEUE_RESET (R416). Write of the QP_CTRL reset bit; the queue enters RESETTING and its commands are aborted. -/
def execQueueReset (t x q : Nat) (s : State) : Host.Outcome State Fault Refusal :=
  .next (s.run t (fun (d : Dev) => d.fromHost x (fun d => (d.queueReset x q).tidy)))

/-- QUEUE_RESET_DONE (R416). Once nothing is outstanding and every completion is posted, the resetting queue enters DISABLED with its
indices at zero. -/
def execQueueResetDone (t x q : Nat) (s : State) : Host.Outcome State Fault Refusal :=
  .next (s.run t (fun (d : Dev) => d.queueResetDone x q))

/-- COMPLETION_POST (R408). A completion that has become ready is written to the CQ when space allows, and is then signalled under
moderation. -/
def execCompletionPost (t x q : Nat) (s : State) : Host.Outcome State Fault Refusal :=
  .next (s.run t (fun (d : Dev) => d.completionPost x q))

/-- MODERATION_TIMEOUT (R411). The time_us timer of a CQ expires and its vector is sent for the unsignalled completions. -/
def execModerationTimeout (t x q : Nat) (s : State) : Host.Outcome State Fault Refusal :=
  .next (s.run t (fun (d : Dev) => d.moderation x q))

/-- D3HOT_ENTRY (R412). Host writes D3hot to a function's power state; pending vectors are flushed and later host writes are held. -/
def execD3hotEntry (t x : Nat) (s : State) : Host.Outcome State Fault Refusal :=
  .next (s.run t (fun (d : Dev) => d.fromHost x (fun d => d.d3hot x)))

/-- D0_RETURN (R412). A function returns to D0; held writes are issued in order and pending vectors fire. -/
def execD0Return (t x : Nat) (s : State) : Host.Outcome State Fault Refusal :=
  .next (s.run t (fun (d : Dev) => d.fromHost x (fun d => d.d0 x)))

/-- REGISTER_WRITE (R12). Write to a BAR or device register that has no row of its own, applied under its access type. -/
def execRegisterWrite (t x o size v : Nat) (s : State) : Host.Outcome State Fault Refusal :=
  .next (s.run t (fun (d : Dev) => d.fromHost x (fun d => d.hostStore x o size v)))

/-- FUNCTION_RESET (R491). FLR or VF removal starts the reset sequence that cancels all of a function's work. -/
def execFunctionReset (t x : Nat) (s : State) : Host.Outcome State Fault Refusal :=
  .next (s.run t (fun (d : Dev) => d.fromHost x (fun d => (d.functionReset x).tidy)))

/-- FUNCTION_RESET_ABANDON (R491). A running charge that has not reached a step boundary within 5 ms of a function reset is abandoned at its
next instruction boundary. -/
def execFunctionResetAbandon (t h clocks : Nat) (s : State) : Host.Outcome State Fault Refusal :=
  .next (s.run t (fun (d : Dev) => (d.resetAbandon h clocks).tidy))

/-- VF_RESET_DONE (R493). The last reset step ends; DMA and interrupts stop, resources are released and the PF is told. -/
def execVfResetDone (t x : Nat) (s : State) : Host.Outcome State Fault Refusal :=
  .next (s.run t (fun (d : Dev) => ((d.resetDone x).mbTake x).tidy))

/-- PERST_ASSERT (R543). PERST# of a host port is asserted; the port's PF and VFs are reset and its link goes down. -/
def execPerstAssert (t port : Nat) (s : State) : Host.Outcome State Fault Refusal :=
  .next (s.run t (fun (d : Dev) => (d.perstAssert t port).tidy))

/-- VF_ENABLE (R481). SR-IOV VF Enable is set or NumVFs is raised; the VFs become usable. -/
def execVfEnable (t port n : Nat) (s : State) : Host.Outcome State Fault Refusal :=
  .next (s.run t (fun (d : Dev) => (d.vfEnable port n).mbTakeAll))

/-- VF_DISABLE (R481). VF Enable is cleared or NumVFs is lowered; the removed VFs are reset and their queue grants returned. -/
def execVfDisable (t port n : Nat) (s : State) : Host.Outcome State Fault Refusal :=
  .next (s.run t (fun (d : Dev) => (d.vfDisable port n).tidy))

/-- ATS_INVALIDATION (R389). Host sends an ATS invalidation request to a function (PRESUMED, notes/assumptions/36.md). -/
def execAtsInvalidation (t x addr : Nat) (s : State) : Host.Outcome State Fault Refusal :=
  .next (s.run t (fun (d : Dev) => d.fromHost x (fun d => d.send (.ats x addr))))

/-- RING_STALL_POLL (R170). The 10 µs delay entry of a full result ring fires and the device reads consumed_count again. -/
def execRingStallPoll (t id e : Nat) (v : Option Nat) (s : State) : Host.Outcome State Fault Refusal :=
  .next (s.run t (fun (d : Dev) => (d.ringPoll id e v).tidy))

/-- PRODUCED_COUNT_ADVANCE (R174). Once the partner holds the checkpoints of every charge in a buffer, the buffer header and produced_count
are written and the vector is sent. -/
def execProducedCountAdvance (t id e : Nat) (s : State) : Host.Outcome State Fault Refusal :=
  .next (s.run t (fun (d : Dev) => (d.countBuffer id e).tidy))

/-- IMAGE_FETCHED (R139). The image of a cache miss has been fetched and digested; it is structurally checked and inserted in the image
cache. -/
def execImageFetched (t x q cid : Nat) (s : State) : Host.Outcome State Fault Refusal :=
  .next (s.run t (fun (d : Dev) => (d.imageFetched x q cid).tidy))

/-- HOST_READ_COMPLETION (R407). Data, an error or poisoned data returns for a device read of host memory, such as a descriptor, parameter
block, ring control block, fragment table, key or input stream. -/
def execHostReadCompletion (t tag : Nat) (b : Option Bytes) (s : State) : Host.Outcome State Fault Refusal :=
  .next (s.run t (fun (d : Dev) => (d.hostReadDone tag b).tidy))

end Sys2Proof.Machine
end

