-- ==== Sys2Proof/Machine/CmdRecord.lean ====
section
/-!
DEFINITION. Sys2Proof/Machine/CmdRecord.lean: the meanings of the commands of health and the event recorder (21).
-/
namespace Sys2Proof.Machine

/-- QUENCH (R589). A hearth is fenced, its charges move and a spare is woken. -/
def execQuench (t h : Nat) (s : State) : Host.Outcome State Fault Refusal :=
  .next (s.run t (fun (d : Dev) => d.ifQuenched h (fun d => d.quench h)))

/-- RECORDER_CLOSE (R602). The hourly, or event-driven, close writes the interval records. -/
def execRecorderClose (t : Nat) (s : State) : Host.Outcome State Fault Refusal :=
  .next (s.run t (fun (d : Dev) => d.recorderClose t))

/-- ARCHIVE (R605). Closed ring records are copied to both boot flashes. -/
def execArchive (t : Nat) (ok0 ok1 : Bool) (s : State) : Host.Outcome State Fault Refusal :=
  .next (s.run t (fun (d : Dev) => d.archive t ok0 ok1))

/-- ARCHIVE_NOW (R605). A write of REC_CTRL archive_now requests an archive. -/
def execArchiveNow (t x expected count : Nat) (s : State) : Host.Outcome State Fault Refusal :=
  .next (s.run t (fun (d : Dev) => d.cwWrite t x 0x02F00100 4 (setBit expected 2 true) expected count))

/-- FREEZE_HOST (R604). A write of REC_CTRL freeze_host freezes the recorder. -/
def execFreezeHost (t x : Nat) (on : Bool) (expected count : Nat) (s : State) : Host.Outcome State Fault Refusal :=
  .next (s.run t (fun (d : Dev) => d.cwWrite t x 0x02F00100 4 (setBit expected 0 on) expected count))

/-- FREEZE_EXPIRY (R604). A freeze bit clears itself after 10 s, and deferred closes run. -/
def execFreezeExpiry (t : Nat) (s : State) : Host.Outcome State Fault Refusal :=
  .next (s.run t (fun (d : Dev) => d.freezeExpiry t))

/-- MGMT_FREEZE (R606). The management port sets or clears freeze_mgmt. -/
def execMgmtFreeze (t : Nat) (on : Bool) (s : State) : Host.Outcome State Fault Refusal :=
  .next (s.run t (fun (d : Dev) => d.mgmtFreeze t on))

/-- MCTP_RECORDER_READ (R606). A management-port read of recorder registers. -/
def execMctpRecorderRead (t addr n : Nat) (s : State) : Host.Outcome State Fault Refusal :=
  .next (s.run t (fun (d : Dev) => d.mctpRead t addr n))

/-- REC_WALLCLOCK (R603). A write sets the wall-clock base, with a CLOCK_STEP record if it jumps. -/
def execRecWallclock (t x value expected count : Nat) (s : State) : Host.Outcome State Fault Refusal :=
  .next (s.run t (fun (d : Dev) => d.cwWrite t x 0x02F00118 8 value expected count))

/-- OPERATING_SECOND (R600). The operating-seconds count advances each second. -/
def execOperatingSecond (t : Nat) (s : State) : Host.Outcome State Fault Refusal :=
  .next (s.run t (fun (d : Dev) => d.operatingSecond t))

/-- QUEUE_DEPTH_SAMPLE (R601). Each 1 ms, a port's queue depth is sampled into the histogram. -/
def execQueueDepthSample (t port : Nat) (s : State) : Host.Outcome State Fault Refusal :=
  .next (s.run t (fun (d : Dev) => d.depthSample t port))

/-- HOST_LINK_DOWN (R597). A host link goes down or meets fatal AER, and recovery begins. -/
def execHostLinkDown (t port : Nat) (s : State) : Host.Outcome State Fault Refusal :=
  .next (s.run t (fun (d : Dev) => (d.hostLinkDown t port).tidy))

end Sys2Proof.Machine
end

