-- ==== Sys2Proof/Machine/CmdRx4Win.lean ====
section
/-!
DEFINITION. Sys2Proof/Machine/CmdRx4Win.lean: the meanings of the commands of the RX4 window, GPIO and the UART (22, 23).
-/
namespace Sys2Proof.Machine

/-- RX4_ENABLE (R609). Setting RX4_CTRL enable claims a hearth and two ways for the window. -/
def execRx4Enable (t x expected count : Nat) (s : State) : Host.Outcome State Fault Refusal :=
  .next (s.run t (fun (d : Dev) => (d.cwWrite t x 0x03000000 4 1 expected count).tidy))

/-- RX4_DISABLE (R609). Clearing enable releases both claims. -/
def execRx4Disable (t x expected count : Nat) (s : State) : Host.Outcome State Fault Refusal :=
  .next (s.run t (fun (d : Dev) => (d.cwWrite t x 0x03000000 4 0 expected count).tidy))

/-- VALIDATE (R612). RX4 command that checks the named fields of each record. -/
def execValidate (t : Nat) (b : Bytes) (s : State) : Host.Outcome State Fault Refusal :=
  .next (s.run t (fun (d : Dev) => d.fromHost 0 (fun d => d.rx4Send 1 b)))

/-- ARITH (R612). RX4 command that adds or subtracts packed fields per record. -/
def execArith (t : Nat) (b : Bytes) (s : State) : Host.Outcome State Fault Refusal :=
  .next (s.run t (fun (d : Dev) => d.fromHost 0 (fun d => d.rx4Send 2 b)))

/-- TOTAL (R612). RX4 command that sums a field into a 31-digit total. -/
def execTotal (t : Nat) (b : Bytes) (s : State) : Host.Outcome State Fault Refusal :=
  .next (s.run t (fun (d : Dev) => d.fromHost 0 (fun d => d.rx4Send 3 b)))

/-- FILE_OUT (R613). RX4 command that commits the valid records as rows of the bound table. -/
def execFileOut (t : Nat) (b : Bytes) (s : State) : Host.Outcome State Fault Refusal :=
  .next (s.run t (fun (d : Dev) => d.fromHost 0 (fun d => d.rx4Send 4 b)))

/-- FILE_IN (R613). RX4 command that copies table rows to the host by position. -/
def execFileIn (t : Nat) (b : Bytes) (s : State) : Host.Outcome State Fault Refusal :=
  .next (s.run t (fun (d : Dev) => d.fromHost 0 (fun d => d.rx4Send 5 b)))

/-- RX4_RECORD (R615). The held hearth processes one record as one step. -/
def execRx4Record (t : Nat) (data : Option Bytes) (s : State) : Host.Outcome State Fault Refusal :=
  .next (s.run t (fun (d : Dev) => (d.rx4Record t data).tidy))

/-- RX4_GO_OVERRUN (R611). A GO written while a command runs is ignored and sets overrun. -/
def execRx4GoOverrun (t : Nat) (s : State) : Host.Outcome State Fault Refusal :=
  .next (s.run t (fun (d : Dev) => d.fromHost 0 (fun d => d.rx4Overrun)))

/-- GPIO_FUNC_WRITE (R634). The claim holder sets a pin's function. -/
def execGpioFuncWrite (t x p value expected count : Nat) (s : State) : Host.Outcome State Fault Refusal :=
  .next (s.run t (fun (d : Dev) => d.cwWrite t x (0x03100000 + 4 * p) 4 value expected count))

/-- UART_CTRL_WRITE (R633). Changes the UART rate after the character in progress. -/
def execUartCtrlWrite (t x value expected count : Nat) (s : State) : Host.Outcome State Fault Refusal :=
  .next (s.run t (fun (d : Dev) => d.cwWrite t x 0x03200000 4 value expected count))

end Sys2Proof.Machine
end

