-- ==== Sys2Proof/Machine/CmdScal.lean ====
section
/-!
DEFINITION. Sys2Proof/Machine/CmdScal.lean: the meanings of the commands of scalars and reductions (07, 08).
-/
namespace Sys2Proof.Machine

/-- SADD (R256). Scalar add, wrapping. -/
def execXSadd (h : Nat) (w : XFields) (flt : Option XFault) (s : State) : Host.Outcome State Fault Refusal := s.unit h .sadd w flt

/-- SCAL_SSUB (R256). Scalar subtract, wrapping. -/
def execXScalSsub (h : Nat) (w : XFields) (flt : Option XFault) (s : State) : Host.Outcome State Fault Refusal := s.unit h .scalSsub w flt

/-- SAND (R256). Scalar AND. -/
def execXSand (h : Nat) (w : XFields) (flt : Option XFault) (s : State) : Host.Outcome State Fault Refusal := s.unit h .sand w flt

/-- SOR (R256). Scalar OR. -/
def execXSor (h : Nat) (w : XFields) (flt : Option XFault) (s : State) : Host.Outcome State Fault Refusal := s.unit h .sor w flt

/-- SXOR (R256). Scalar XOR. -/
def execXSxor (h : Nat) (w : XFields) (flt : Option XFault) (s : State) : Host.Outcome State Fault Refusal := s.unit h .sxor w flt

/-- SSHL (R256). Scalar shift left. -/
def execXSshl (h : Nat) (w : XFields) (flt : Option XFault) (s : State) : Host.Outcome State Fault Refusal := s.unit h .sshl w flt

/-- SSHR (R256). Scalar logical shift right. -/
def execXSshr (h : Nat) (w : XFields) (flt : Option XFault) (s : State) : Host.Outcome State Fault Refusal := s.unit h .sshr w flt

/-- SMUL (R256). Scalar multiply, low half. -/
def execXSmul (h : Nat) (w : XFields) (flt : Option XFault) (s : State) : Host.Outcome State Fault Refusal := s.unit h .smul w flt

/-- SMOV (R256). Scalar move. -/
def execXSmov (h : Nat) (w : XFields) (flt : Option XFault) (s : State) : Host.Outcome State Fault Refusal := s.unit h .smov w flt

/-- SLT (R256). Scalar signed less-than. -/
def execXSlt (h : Nat) (w : XFields) (flt : Option XFault) (s : State) : Host.Outcome State Fault Refusal := s.unit h .slt w flt

/-- SLTU (R256). Scalar unsigned less-than. -/
def execXSltu (h : Nat) (w : XFields) (flt : Option XFault) (s : State) : Host.Outcome State Fault Refusal := s.unit h .sltu w flt

/-- RADD (R243). Reduces lanes by sum into a scalar. -/
def execXRadd (h : Nat) (w : XFields) (flt : Option XFault) (s : State) : Host.Outcome State Fault Refusal := s.unit h .radd w flt

/-- RMIN (R243). Reduces lanes by minimum into a scalar. -/
def execXRmin (h : Nat) (w : XFields) (flt : Option XFault) (s : State) : Host.Outcome State Fault Refusal := s.unit h .rmin w flt

/-- RMAX (R243). Reduces lanes by maximum into a scalar. -/
def execXRmax (h : Nat) (w : XFields) (flt : Option XFault) (s : State) : Host.Outcome State Fault Refusal := s.unit h .rmax w flt

end Sys2Proof.Machine
end

