-- ==== Sys2Proof/Machine/CmdSched.lean ====
section
/-!
DEFINITION. Sys2Proof/Machine/CmdSched.lean: the meanings of the commands of charges, delay lists, the trace and the shared engines (10).
-/
namespace Sys2Proof.Machine

/-- CHARGE_CUT (R305). The scheduler cuts more charges of a stage when its waiting count falls below 64. -/
def execChargeCut (t id i perUnit once : Nat) (s : State) : Host.Outcome State Fault Refusal :=
  .next (s.run t (fun (d : Dev) => d.cut id i ⟨perUnit, once⟩))

/-- SLOT_FILL (R312). A hearth's emptied slot takes a READY charge by function and affinity, and starts its prefetch. -/
def execSlotFill (t h : Nat) (s : State) : Host.Outcome State Fault Refusal :=
  .next (s.run t (fun (d : Dev) => d.fillSlot h))

/-- CHARGE_START (R311). A hearth starts the charge in its older slot, loading automata and care-mask tables as needed. -/
def execChargeStart (t h : Nat) (s : State) : Host.Outcome State Fault Refusal :=
  .next (s.run t (fun (d : Dev) => (d.startCharge h).tidy))

/-- STEAL (R313). An idle hearth with both slots empty takes a charge that has waited at least 50 µs. -/
def execSteal (t h : Nat) (s : State) : Host.Outcome State Fault Refusal :=
  .next (s.run t (fun (d : Dev) => (d.steal h).tidy))

/-- CHARGE_DONE (R307). A charge completes; its output is published and its checkpoint is written locally and sent to the partner. -/
def execChargeDone (t h : Nat) (used : Spent) (s : State) : Host.Outcome State Fault Refusal :=
  .next (s.run t (fun (d : Dev) => ((d.onHearth h (fun d => d.chargeDone h used)).tidy).autoMode))

/-- RELEASE (R319). A charge's results are released in sequence once every lower sequence number is released or cancelled. -/
def execRelease (t id i : Nat) (s : State) : Host.Outcome State Fault Refusal :=
  .next (s.run t (fun (d : Dev) => (d.releaseNext id i).tidy))

/-- CANCEL (R310). A charge is cancelled at a step boundary and its output discarded. -/
def execCancel (t h clocks : Nat) (s : State) : Host.Outcome State Fault Refusal :=
  .next (s.run t (fun (d : Dev) => ((d.toBoundary h).cancelRunning h clocks).tidy))

/-- RESTART (R327). An attempt that ends without completing returns its charge to READY to run again from its beginning. -/
def execRestart (t h clocks : Nat) (s : State) : Host.Outcome State Fault Refusal :=
  .next (s.run t (fun (d : Dev) => (d.restartFault h clocks).tidy))

/-- DELAY_FIRE (R323). A delay-list entry reaches its due tick and fires to its owner, or is re-armed beyond the horizon. -/
def execDelayFire (t l : Nat) (v : Option Nat) (s : State) : Host.Outcome State Fault Refusal :=
  .next (s.run t (fun (d : Dev) => (d.delayFire l v).tidy))

/-- DELAY_FULL (R326). An insertion into a full delay list is tried again at the next tick and counted. -/
def execDelayFull (t l ticks tag : Nat) (s : State) : Host.Outcome State Fault Refusal :=
  .next (s.run t (fun (d : Dev) => d.delayFull l ticks tag))

/-- TRACE_ENABLE (R330). Setting TRACE_CTRL enable zeroes TRACE_HEAD and TRACE_TAIL and starts writing trace records. -/
def execTraceEnable (t x value expected count : Nat) (s : State) : Host.Outcome State Fault Refusal :=
  .next (s.run t (fun (d : Dev) => d.cwWrite t x 0x02400040 4 (value ||| 1) expected count))

/-- ENGINE_BLOCK_DONE (R101). A shared engine finishes a block; it switches to the next ready user or frees the context; a poisoned block is
discarded (R587). -/
def execEngineBlockDone (t : Nat) (comp : Bool) (b : EngBlock) (s : State) : Host.Outcome State Fault Refusal :=
  .next (s.run t (fun (d : Dev) => if b.poison then (d.engineFault comp b.engine).tidy else d.engineBlock comp b.engine))

end Sys2Proof.Machine
end

