-- ==== Sys2Proof/Machine/CmdSecure.lean ====
section
/-!
DEFINITION. Sys2Proof/Machine/CmdSecure.lean: the meanings of the commands of security messages, tamper and debug (20).
-/
namespace Sys2Proof.Machine

/-- NONCE_GET (R565). Returns a fresh nonce. -/
def execNonceGet (t n : Nat) (s : State) : Host.Outcome State Fault Refusal :=
  .next (s.run t (fun (d : Dev) => d.secMsg n .nonceGet))

/-- TOKEN_APPLY (R566). Checks a token and applies a life-cycle transition or a debug unlock. -/
def execTokenApply (t n : Nat) (tok : Bytes) (ok : Bool) (s : State) : Host.Outcome State Fault Refusal :=
  .next (s.run t (fun (d : Dev) => d.secMsg n (.tokenApply tok ok)))

/-- KEY_LOAD (R573). Loads a table-space key into secure SRAM. -/
def execKeyLoad (t n ref : Nat) (key : Bytes) (s : State) : Host.Outcome State Fault Refusal :=
  .next (s.run t (fun (d : Dev) => d.secMsg n (.keyLoad ref key)))

/-- KEY_UNLOAD (R575). Withdraws a key once no step uses it. -/
def execKeyUnload (t n ref : Nat) (s : State) : Host.Outcome State Fault Refusal :=
  .next (s.run t (fun (d : Dev) => (d.secMsg n (.keyUnload ref)).tidy))

/-- KEY_STATUS (R577). Lists the loaded keys. -/
def execKeyStatus (t n : Nat) (s : State) : Host.Outcome State Fault Refusal :=
  .next (s.run t (fun (d : Dev) => d.secMsg n .keyStatus))

/-- SVN_COMMIT (R569). Raises the fused minimum svn. -/
def execSvnCommit (t n : Nat) (s : State) : Host.Outcome State Fault Refusal :=
  .next (s.run t (fun (d : Dev) => d.secMsg n .svnCommit))

/-- DEBUG_LOCK (R581). Sets the debug level to OFF. -/
def execDebugLock (t n : Nat) (s : State) : Host.Outcome State Fault Refusal :=
  .next (s.run t (fun (d : Dev) => d.secMsg n .debugLock))

/-- SPDM_REQUEST (R571). An SPDM request on DOE or MCTP: certificate, measurement or session. -/
def execSpdmRequest (t tr : Nat) (req : SpdmReq) (s : State) : Host.Outcome State Fault Refusal :=
  .next (s.run t (fun (d : Dev) => d.spdmRequest t tr req))

/-- IDE_KM (R571). Keys an IDE stream over a secured session. -/
def execIdeKm (t n stream : Nat) (on : Bool) (s : State) : Host.Outcome State Fault Refusal :=
  .next (s.run t (fun (d : Dev) => d.ideKm t n stream on))

/-- IDE_REFUSAL (R572). An IDE stream refuses a host access; reads fail and writes are held. -/
def execIdeRefusal (t port stream : Nat) (read : Option Nat) (x addr : Nat) (data : Bytes) (s : State) : Host.Outcome State Fault Refusal :=
  .next (s.run t (fun (d : Dev) => (d.ideRefusal t port stream read x addr data).tidy))

/-- TAMPER (R579). A tamper input is sampled low; debug drops, the secure SRAM is wiped and an event is raised. -/
def execTamper (t input : Nat) (ok : Bool) (s : State) : Host.Outcome State Fault Refusal :=
  .next (s.run t (fun (d : Dev) => ((d.tamper t input ok).tidy).mbTakeAll))

/-- TAMPER_LATCH_CLEAR (R578). A W1C write clears a tamper latch only while its input is high. -/
def execTamperLatchClear (t value low : Nat) (s : State) : Host.Outcome State Fault Refusal :=
  .next (s.run t (fun (d : Dev) => d.tamperClear value low))

/-- TAMPER_CTRL_WRITE (R579). A write to the tamper enables; clearing one is refused in DEPLOYED. -/
def execTamperCtrlWrite (t x value expected count : Nat) (s : State) : Host.Outcome State Fault Refusal :=
  .next (s.run t (fun (d : Dev) => d.cwWrite t x 0x02E0000C 4 value expected count))

/-- JTAG_ACCESS (R581). A JTAG operation is served as the debug level permits. -/
def execJtagAccess (t : Nat) (op : JtagOp) (s : State) : Host.Outcome State Fault Refusal :=
  .next (s.run t (fun (d : Dev) => (d.jtagAccess t op).mbTakeAll))

end Sys2Proof.Machine
end

