-- ==== Sys2Proof/Machine/CmdStarting.lean ====
section
/-!
DEFINITION. Sys2Proof/Machine/CmdStarting.lean: the meanings of the commands of start, Banked mode and stops (19).
-/
namespace Sys2Proof.Machine

/-- START_ATTEMPT (R546). SYS_PWRGD rises, or an Ember exit begins, and a start attempt is opened. -/
def execStartAttempt (t : Nat) (s : State) : Host.Outcome State Fault Refusal :=
  .next (s.run t (fun (d : Dev) => d.startAttempt t))

/-- STAGE_COMPLETE (R546). A start stage ends its work and the next begins, or a failure is counted. -/
def execStageComplete (t : Nat) (f : StageIn) (s : State) : Host.Outcome State Fault Refusal :=
  .next (s.run t (fun (d : Dev) => (d.stageComplete t f (fun (d : Dev) x => d.mbTake x)).tidy))

/-- STAGE_TIMEOUT (R546). A start stage exceeds its bound and fails with TIMEOUT. -/
def execStageTimeout (t : Nat) (reuse : Bool) (s : State) : Host.Outcome State Fault Refusal :=
  .next (s.run t (fun (d : Dev) => d.stageTimeout t reuse))

/-- START_RETRY (R551). After a failed start, the next attempt begins at stage 1. -/
def execStartRetry (t : Nat) (s : State) : Host.Outcome State Fault Refusal :=
  .next (s.run t (fun (d : Dev) => d.startRetry t))

/-- PLDM_FIRMWARE_UPDATE (R556). A management controller writes an image into a slot over PLDM. -/
def execPldmFirmwareUpdate (t slot : Nat) (image : Bytes) (s : State) : Host.Outcome State Fault Refusal :=
  .next (s.run t (fun (d : Dev) => d.pldmUpdate t slot image))

/-- PLDM_ACTIVATE (R556). A PLDM activate request acts as FW_ACTIVATE. -/
def execPldmActivate (t slot : Nat) (s : State) : Host.Outcome State Fault Refusal :=
  .next (s.run t (fun (d : Dev) => d.pldmActivate t slot))

/-- POWER_LOSS (R625). SYS_PWRGD falls; within 2 µs, device writes stop. -/
def execPowerLoss (t : Nat) (s : State) : Host.Outcome State Fault Refusal :=
  .next (s.run t (fun (d : Dev) => d.powerLoss t))

/-- VR_PG_FALL (R622). VR_PG_CORE falls; a start stage fails or the device stops. -/
def execVrPgFall (t : Nat) (s : State) : Host.Outcome State Fault Refusal :=
  .next (s.run t (fun (d : Dev) => d.vrPgFall t))

/-- TELEMETRY_LOST (R623). A rail answers no AVS read for 1 ms. -/
def execTelemetryLost (t rail : Nat) (s : State) : Host.Outcome State Fault Refusal :=
  .next (s.run t (fun (d : Dev) => d.telemetryLost t rail))

/-- REFCLK_LOST (R629). A reference clock is lost, with an outcome per clock. -/
def execRefclkLost (t c : Nat) (s : State) : Host.Outcome State Fault Refusal :=
  .next (s.run t (fun (d : Dev) => (d.refclkLost t c).tidy))

/-- DEVICE_STOP (R586). A CP, security or NoC fault, or the watchdog, stops the device. -/
def execDeviceStop (t cause : Nat) (s : State) : Host.Outcome State Fault Refusal :=
  .next (s.run t (fun (d : Dev) => d.deviceStop t cause))

/-- PERST_RELEASE (R586). PERST# of a host port is released; the port's link trains and configuration space answers, and a device stopped
under R586 begins a start attempt at stage 1. -/
def execPerstRelease (t port : Nat) (s : State) : Host.Outcome State Fault Refusal :=
  .next (s.run t (fun (d : Dev) => d.perstRelease t port))

/-- HOST_LINK_UP (R597). A host link trains back to L0, which ends the host-port recovery domain. -/
def execHostLinkUp (t port : Nat) (s : State) : Host.Outcome State Fault Refusal :=
  .next (s.run t (fun (d : Dev) => d.hostLinkUp t port))

/-- REFCLK_RETURN (R629). A lost reference clock returns, for example AONCLK, after which Bellows leaves its internal oscillator and the
links it feeds can retrain. -/
def execRefclkReturn (t c : Nat) (s : State) : Host.Outcome State Fault Refusal :=
  .next (s.run t (fun (d : Dev) => d.refclkReturn t c))

/-- AON_POWER_GOOD (R600). VDD_AON returns and AON_PWRGD is asserted; Bellows starts, and operating seconds resume above the highest value
recorded, with a LOST record. -/
def execAonPowerGood (t : Nat) (s : State) : Host.Outcome State Fault Refusal :=
  .next (s.run t (fun (d : Dev) => d.aonPowerGood t))

end Sys2Proof.Machine
end

