-- ==== Sys2Proof/Machine/CmdStr.lean ====
section
/-!
DEFINITION. Sys2Proof/Machine/CmdStr.lean: the meanings of the commands of gathers, strings, patterns and care-mask lookup (07, 09).
-/
namespace Sys2Proof.Machine

/-- VGATH (R239). Gathers table elements by index from constant, parameter or slice scratch. -/
def execXVgath (h : Nat) (w : XFields) (flt : Option XFault) (s : State) : Host.Outcome State Fault Refusal := s.unit h .vgath w flt

/-- VSCAT (R240). Scatters lanes into the slice scratch. -/
def execXVscat (h : Nat) (w : XFields) (flt : Option XFault) (s : State) : Host.Outcome State Fault Refusal := s.unit h .vscat w flt

/-- VLDS (R240). Loads a group from the slice scratch. -/
def execXVlds (h : Nat) (w : XFields) (flt : Option XFault) (s : State) : Host.Outcome State Fault Refusal := s.unit h .vlds w flt

/-- VSTS (R240). Stores a group to the slice scratch. -/
def execXVsts (h : Nat) (w : XFields) (flt : Option XFault) (s : State) : Host.Outcome State Fault Refusal := s.unit h .vsts w flt

/-- SCMP (R242). Compares strings into a mask. -/
def execXScmp (h : Nat) (w : XFields) (flt : Option XFault) (s : State) : Host.Outcome State Fault Refusal := s.unit h .scmp w flt

/-- SPRE (R242). Tests a string prefix. -/
def execXSpre (h : Nat) (w : XFields) (flt : Option XFault) (s : State) : Host.Outcome State Fault Refusal := s.unit h .spre w flt

/-- SSUF (R242). Tests a string suffix. -/
def execXSsuf (h : Nat) (w : XFields) (flt : Option XFault) (s : State) : Host.Outcome State Fault Refusal := s.unit h .ssuf w flt

/-- SFIND (R242). Finds the first offset of a substring. -/
def execXSfind (h : Nat) (w : XFields) (flt : Option XFault) (s : State) : Host.Outcome State Fault Refusal := s.unit h .sfind w flt

/-- SLEN (R242). Gives string lengths. -/
def execXSlen (h : Nat) (w : XFields) (flt : Option XFault) (s : State) : Host.Outcome State Fault Refusal := s.unit h .slen w flt

/-- STR_SSUB (R242). Takes a substring without copying. -/
def execXStrSsub (h : Nat) (w : XFields) (flt : Option XFault) (s : State) : Host.Outcome State Fault Refusal := s.unit h .strSsub w flt

/-- RPM (R289). Regular-pattern match into a mask. -/
def execXRpm (h : Nat) (w : XFields) (flt : Option XFault) (s : State) : Host.Outcome State Fault Refusal := s.unit h .rpm w flt

/-- RPX (R289). Extracts the leftmost-longest match. -/
def execXRpx (h : Nat) (w : XFields) (flt : Option XFault) (s : State) : Host.Outcome State Fault Refusal := s.unit h .rpx w flt

/-- CML (R294). Care-mask table lookup giving a result word. -/
def execXCml (h : Nat) (w : XFields) (flt : Option XFault) (s : State) : Host.Outcome State Fault Refusal := s.unit h .cml w flt

end Sys2Proof.Machine
end

