-- ==== Sys2Proof/Machine/CmdUnit.lean ====
section
/-!
DEFINITION. Sys2Proof/Machine/CmdUnit.lean: the meanings of the commands of the wide unit, faults and the care-mask table of a hearth (07, 09).
-/
namespace Sys2Proof.Machine

/-- FAULT_RESOLVED (R252). The cause of a fault is resolved and the instruction runs again from element 0. -/
def execFaultResolved (t h : Nat) (flt : Option XFault) (s : State) : Host.Outcome State Fault Refusal :=
  .next (s.run t (fun (d : Dev) => d.onHearth h (fun d => d.xResolved h flt)))

/-- WIDE_IDLE_TIMEOUT (R246). The wide unit issues nothing for wide_idle_us and starts powering down. -/
def execWideIdleTimeout (t h : Nat) (s : State) : Host.Outcome State Fault Refusal :=
  .next (s.run t (fun (d : Dev) => d.wideIdle h))

/-- WIDE_POWER_DOWN_DONE (R246). The 1 µs power-down ends, and a wake that was requested meanwhile starts. -/
def execWidePowerDownDone (t h : Nat) (s : State) : Host.Outcome State Fault Refusal :=
  .next (s.run t (fun (d : Dev) => d.wideDown h))

/-- WIDE_UNIT_READY (R247). The wide unit becomes ready 4 µs after its wake and takes the next instruction boundary. -/
def execWideUnitReady (t h : Nat) (s : State) : Host.Outcome State Fault Refusal :=
  .next (s.run t (fun (d : Dev) => d.wideReady h))

/-- EXU_CTRL_WRITE (R248). CW write of EXU_CTRL sets wide_idle_us or force_narrow. -/
def execExuCtrlWrite (t x h value expected count : Nat) (s : State) : Host.Outcome State Fault Refusal :=
  .next (s.run t (fun (d : Dev) => d.cwWrite t x (0x02100000 + 0x1000 * h) 4 value expected count))

/-- CMT_SCRUB (R299). A scrub lookup cycle, taken every 512 clocks, compares a care-mask unit with its copy and rewrites or withdraws. -/
def execCmtScrub (t h : Nat) (found : Option CareUnit) (copyBad : Bool) (others : List CareUnit) (s : State) : Host.Outcome State Fault Refusal :=
  .next (s.run t (fun (d : Dev) => d.scrubUnit h found copyBad others))

/-- SYSTEM_TABLE_APPLY (R298). A hearth applies a system-table update at a lookup boundary; the last one completes the command. -/
def execSystemTableApply (t h : Nat) (s : State) : Host.Outcome State Fault Refusal :=
  .next (s.run t (fun (d : Dev) => (d.sysApply h).tidy))

end Sys2Proof.Machine
end

