-- ==== Sys2Proof/Machine/Dispatch.lean ====
section
/-!
DEFINITION. Sys2Proof/Machine/Dispatch.lean: what each command does to everything but the queue.
-/
namespace Sys2Proof.Machine

def exec (i : Instr) (s : State) : Host.Outcome State Fault Refusal :=
  match i with
  | .querySubmit t x q cid => Sys2Proof.Machine.execQuerySubmit t x q cid s
  | .ingest t x q cid => Sys2Proof.Machine.execIngest t x q cid s
  | .readPages t x q cid => Sys2Proof.Machine.execReadPages t x q cid s
  | .flush t x q cid => Sys2Proof.Machine.execFlush t x q cid s
  | .abort t x q cid => Sys2Proof.Machine.execAbort t x q cid s
  | .snapshot t x q cid => Sys2Proof.Machine.execSnapshot t x q cid s
  | .digest t x q cid => Sys2Proof.Machine.execDigest t x q cid s
  | .compress t x q cid => Sys2Proof.Machine.execCompress t x q cid s
  | .entryFetch t port es => Sys2Proof.Machine.execEntryFetch t port es s
  | .qpSqDoorbell t x q v => Sys2Proof.Machine.execQpSqDoorbell t x q v s
  | .qpCqDoorbell t x q v => Sys2Proof.Machine.execQpCqDoorbell t x q v s
  | .queueEnable t x q => Sys2Proof.Machine.execQueueEnable t x q s
  | .queueDisable t x q => Sys2Proof.Machine.execQueueDisable t x q s
  | .queueReset t x q => Sys2Proof.Machine.execQueueReset t x q s
  | .queueResetDone t x q => Sys2Proof.Machine.execQueueResetDone t x q s
  | .completionPost t x q => Sys2Proof.Machine.execCompletionPost t x q s
  | .moderationTimeout t x q => Sys2Proof.Machine.execModerationTimeout t x q s
  | .d3hotEntry t x => Sys2Proof.Machine.execD3hotEntry t x s
  | .d0Return t x => Sys2Proof.Machine.execD0Return t x s
  | .registerWrite t x o size v => Sys2Proof.Machine.execRegisterWrite t x o size v s
  | .functionReset t x => Sys2Proof.Machine.execFunctionReset t x s
  | .functionResetAbandon t h clocks => Sys2Proof.Machine.execFunctionResetAbandon t h clocks s
  | .vfResetDone t x => Sys2Proof.Machine.execVfResetDone t x s
  | .perstAssert t port => Sys2Proof.Machine.execPerstAssert t port s
  | .vfEnable t port n => Sys2Proof.Machine.execVfEnable t port n s
  | .vfDisable t port n => Sys2Proof.Machine.execVfDisable t port n s
  | .atsInvalidation t x addr => Sys2Proof.Machine.execAtsInvalidation t x addr s
  | .ringStallPoll t id e v => Sys2Proof.Machine.execRingStallPoll t id e v s
  | .producedCountAdvance t id e => Sys2Proof.Machine.execProducedCountAdvance t id e s
  | .imageFetched t x q cid => Sys2Proof.Machine.execImageFetched t x q cid s
  | .chargeCut t id stage perUnit once => Sys2Proof.Machine.execChargeCut t id stage perUnit once s
  | .slotFill t h => Sys2Proof.Machine.execSlotFill t h s
  | .chargeStart t h => Sys2Proof.Machine.execChargeStart t h s
  | .steal t h => Sys2Proof.Machine.execSteal t h s
  | .chargeDone t h used => Sys2Proof.Machine.execChargeDone t h used s
  | .release t id stage => Sys2Proof.Machine.execRelease t id stage s
  | .cancel t h clocks => Sys2Proof.Machine.execCancel t h clocks s
  | .restart t h clocks => Sys2Proof.Machine.execRestart t h clocks s
  | .delayFire t l v => Sys2Proof.Machine.execDelayFire t l v s
  | .delayFull t l ticks tag => Sys2Proof.Machine.execDelayFull t l ticks tag s
  | .traceEnable t x value expected count => Sys2Proof.Machine.execTraceEnable t x value expected count s
  | .engineBlockDone t comp b => Sys2Proof.Machine.execEngineBlockDone t comp b s
  | .xNop h w flt => Sys2Proof.Machine.execXNop h w flt s
  | .xEnd h w flt => Sys2Proof.Machine.execXEnd h w flt s
  | .xBrz h w flt => Sys2Proof.Machine.execXBrz h w flt s
  | .xBrnz h w flt => Sys2Proof.Machine.execXBrnz h w flt s
  | .xBrmz h w flt => Sys2Proof.Machine.execXBrmz h w flt s
  | .xSetsel h w flt => Sys2Proof.Machine.execXSetsel h w flt s
  | .xOut h w flt => Sys2Proof.Machine.execXOut h w flt s
  | .xMout h w flt => Sys2Proof.Machine.execXMout h w flt s
  | .xEclr h w flt => Sys2Proof.Machine.execXEclr h w flt s
  | .xVld h w flt => Sys2Proof.Machine.execXVld h w flt s
  | .xVldf h w flt => Sys2Proof.Machine.execXVldf h w flt s
  | .xVld2 h w flt => Sys2Proof.Machine.execXVld2 h w flt s
  | .xVld3 h w flt => Sys2Proof.Machine.execXVld3 h w flt s
  | .xVld4 h w flt => Sys2Proof.Machine.execXVld4 h w flt s
  | .xTst h w flt => Sys2Proof.Machine.execXTst h w flt s
  | .xVrow h w flt => Sys2Proof.Machine.execXVrow h w flt s
  | .xMld h w flt => Sys2Proof.Machine.execXMld h w flt s
  | .xVldn h w flt => Sys2Proof.Machine.execXVldn h w flt s
  | .xVbc h w flt => Sys2Proof.Machine.execXVbc h w flt s
  | .xVbp h w flt => Sys2Proof.Machine.execXVbp h w flt s
  | .xSlc h w flt => Sys2Proof.Machine.execXSlc h w flt s
  | .xSlp h w flt => Sys2Proof.Machine.execXSlp h w flt s
  | .xSli h w flt => Sys2Proof.Machine.execXSli h w flt s
  | .xVbs h w flt => Sys2Proof.Machine.execXVbs h w flt s
  | .xViota h w flt => Sys2Proof.Machine.execXViota h w flt s
  | .xAdd h w flt => Sys2Proof.Machine.execXAdd h w flt s
  | .xSub h w flt => Sys2Proof.Machine.execXSub h w flt s
  | .xAnd h w flt => Sys2Proof.Machine.execXAnd h w flt s
  | .xOr h w flt => Sys2Proof.Machine.execXOr h w flt s
  | .xXor h w flt => Sys2Proof.Machine.execXXor h w flt s
  | .xShl h w flt => Sys2Proof.Machine.execXShl h w flt s
  | .xShr h w flt => Sys2Proof.Machine.execXShr h w flt s
  | .xMin h w flt => Sys2Proof.Machine.execXMin h w flt s
  | .xMax h w flt => Sys2Proof.Machine.execXMax h w flt s
  | .xAbs h w flt => Sys2Proof.Machine.execXAbs h w flt s
  | .xNeg h w flt => Sys2Proof.Machine.execXNeg h w flt s
  | .xNot h w flt => Sys2Proof.Machine.execXNot h w flt s
  | .xMul h w flt => Sys2Proof.Machine.execXMul h w flt s
  | .xMulh h w flt => Sys2Proof.Machine.execXMulh h w flt s
  | .xWmul h w flt => Sys2Proof.Machine.execXWmul h w flt s
  | .xDot8 h w flt => Sys2Proof.Machine.execXDot8 h w flt s
  | .xDot16 h w flt => Sys2Proof.Machine.execXDot16 h w flt s
  | .xDiv h w flt => Sys2Proof.Machine.execXDiv h w flt s
  | .xRem h w flt => Sys2Proof.Machine.execXRem h w flt s
  | .xDivrem h w flt => Sys2Proof.Machine.execXDivrem h w flt s
  | .xFadd h w flt => Sys2Proof.Machine.execXFadd h w flt s
  | .xFsub h w flt => Sys2Proof.Machine.execXFsub h w flt s
  | .xFmul h w flt => Sys2Proof.Machine.execXFmul h w flt s
  | .xFdiv h w flt => Sys2Proof.Machine.execXFdiv h w flt s
  | .xFsqrt h w flt => Sys2Proof.Machine.execXFsqrt h w flt s
  | .xFma h w flt => Sys2Proof.Machine.execXFma h w flt s
  | .xFmin h w flt => Sys2Proof.Machine.execXFmin h w flt s
  | .xFmax h w flt => Sys2Proof.Machine.execXFmax h w flt s
  | .xFabs h w flt => Sys2Proof.Machine.execXFabs h w flt s
  | .xFneg h w flt => Sys2Proof.Machine.execXFneg h w flt s
  | .xCvt h w flt => Sys2Proof.Machine.execXCvt h w flt s
  | .xDadd h w flt => Sys2Proof.Machine.execXDadd h w flt s
  | .xDsub h w flt => Sys2Proof.Machine.execXDsub h w flt s
  | .xDmul h w flt => Sys2Proof.Machine.execXDmul h w flt s
  | .xDdiv h w flt => Sys2Proof.Machine.execXDdiv h w flt s
  | .xDscale h w flt => Sys2Proof.Machine.execXDscale h w flt s
  | .xPadd h w flt => Sys2Proof.Machine.execXPadd h w flt s
  | .xPsub h w flt => Sys2Proof.Machine.execXPsub h w flt s
  | .xPchk h w flt => Sys2Proof.Machine.execXPchk h w flt s
  | .xCmp h w flt => Sys2Proof.Machine.execXCmp h w flt s
  | .xVsel h w flt => Sys2Proof.Machine.execXVsel h w flt s
  | .xValid h w flt => Sys2Proof.Machine.execXValid h w flt s
  | .xSetnull h w flt => Sys2Proof.Machine.execXSetnull h w flt s
  | .xMand h w flt => Sys2Proof.Machine.execXMand h w flt s
  | .xMor h w flt => Sys2Proof.Machine.execXMor h w flt s
  | .xMxor h w flt => Sys2Proof.Machine.execXMxor h w flt s
  | .xMandn h w flt => Sys2Proof.Machine.execXMandn h w flt s
  | .xMnot h w flt => Sys2Proof.Machine.execXMnot h w flt s
  | .xMmov h w flt => Sys2Proof.Machine.execXMmov h w flt s
  | .xMcnt h w flt => Sys2Proof.Machine.execXMcnt h w flt s
  | .xMerr h w flt => Sys2Proof.Machine.execXMerr h w flt s
  | .xMovf h w flt => Sys2Proof.Machine.execXMovf h w flt s
  | .xVgath h w flt => Sys2Proof.Machine.execXVgath h w flt s
  | .xVscat h w flt => Sys2Proof.Machine.execXVscat h w flt s
  | .xVlds h w flt => Sys2Proof.Machine.execXVlds h w flt s
  | .xVsts h w flt => Sys2Proof.Machine.execXVsts h w flt s
  | .xScmp h w flt => Sys2Proof.Machine.execXScmp h w flt s
  | .xSpre h w flt => Sys2Proof.Machine.execXSpre h w flt s
  | .xSsuf h w flt => Sys2Proof.Machine.execXSsuf h w flt s
  | .xSfind h w flt => Sys2Proof.Machine.execXSfind h w flt s
  | .xSlen h w flt => Sys2Proof.Machine.execXSlen h w flt s
  | .xStrSsub h w flt => Sys2Proof.Machine.execXStrSsub h w flt s
  | .xRpm h w flt => Sys2Proof.Machine.execXRpm h w flt s
  | .xRpx h w flt => Sys2Proof.Machine.execXRpx h w flt s
  | .xCml h w flt => Sys2Proof.Machine.execXCml h w flt s
  | .xSadd h w flt => Sys2Proof.Machine.execXSadd h w flt s
  | .xScalSsub h w flt => Sys2Proof.Machine.execXScalSsub h w flt s
  | .xSand h w flt => Sys2Proof.Machine.execXSand h w flt s
  | .xSor h w flt => Sys2Proof.Machine.execXSor h w flt s
  | .xSxor h w flt => Sys2Proof.Machine.execXSxor h w flt s
  | .xSshl h w flt => Sys2Proof.Machine.execXSshl h w flt s
  | .xSshr h w flt => Sys2Proof.Machine.execXSshr h w flt s
  | .xSmul h w flt => Sys2Proof.Machine.execXSmul h w flt s
  | .xSmov h w flt => Sys2Proof.Machine.execXSmov h w flt s
  | .xSlt h w flt => Sys2Proof.Machine.execXSlt h w flt s
  | .xSltu h w flt => Sys2Proof.Machine.execXSltu h w flt s
  | .xRadd h w flt => Sys2Proof.Machine.execXRadd h w flt s
  | .xRmin h w flt => Sys2Proof.Machine.execXRmin h w flt s
  | .xRmax h w flt => Sys2Proof.Machine.execXRmax h w flt s
  | .faultResolved t h flt => Sys2Proof.Machine.execFaultResolved t h flt s
  | .wideIdleTimeout t h => Sys2Proof.Machine.execWideIdleTimeout t h s
  | .widePowerDownDone t h => Sys2Proof.Machine.execWidePowerDownDone t h s
  | .wideUnitReady t h => Sys2Proof.Machine.execWideUnitReady t h s
  | .exuCtrlWrite t x h value expected count => Sys2Proof.Machine.execExuCtrlWrite t x h value expected count s
  | .cmtScrub t h found copyBad others => Sys2Proof.Machine.execCmtScrub t h found copyBad others s
  | .systemTableApply t h => Sys2Proof.Machine.execSystemTableApply t h s
  | .vxpData t k => Sys2Proof.Machine.execVxpData t k s
  | .vxpAck t k => Sys2Proof.Machine.execVxpAck t k s
  | .flowAck t k => Sys2Proof.Machine.execFlowAck t k s
  | .vxpHello t k => Sys2Proof.Machine.execVxpHello t k s
  | .helloAck t k => Sys2Proof.Machine.execHelloAck t k s
  | .resume t k => Sys2Proof.Machine.execResume t k s
  | .resumeAck t k => Sys2Proof.Machine.execResumeAck t k s
  | .resend t k => Sys2Proof.Machine.execResend t k s
  | .keepalive t k => Sys2Proof.Machine.execKeepalive t k s
  | .close t k => Sys2Proof.Machine.execClose t k s
  | .rtoExpiry t peer me => Sys2Proof.Machine.execRtoExpiry t peer me s
  | .ratePeriod t peer me => Sys2Proof.Machine.execRatePeriod t peer me s
  | .ackTimer t peer me => Sys2Proof.Machine.execAckTimer t peer me s
  | .keepaliveTimer t peer me => Sys2Proof.Machine.execKeepaliveTimer t peer me s
  | .peerLost t peer => Sys2Proof.Machine.execPeerLost t peer s
  | .fabricPortDown t half => Sys2Proof.Machine.execFabricPortDown t half s
  | .fabricPortUp t half => Sys2Proof.Machine.execFabricPortUp t half s
  | .fabCtrlWrite t x p value expected count => Sys2Proof.Machine.execFabCtrlWrite t x p value expected count s
  | .frameMove t u f dest => Sys2Proof.Machine.execFrameMove t u f dest s
  | .frameZeroing t u f => Sys2Proof.Machine.execFrameZeroing t u f s
  | .rowRepair t u off resource => Sys2Proof.Machine.execRowRepair t u off resource s
  | .patrolScrubStep t u lines errs => Sys2Proof.Machine.execPatrolScrubStep t u lines errs s
  | .refreshWindowEnd t u => Sys2Proof.Machine.execRefreshWindowEnd t u s
  | .rowIdleTimeout t u off => Sys2Proof.Machine.execRowIdleTimeout t u off s
  | .zqCalibration t u => Sys2Proof.Machine.execZqCalibration t u s
  | .dqsTracking t u => Sys2Proof.Machine.execDqsTracking t u s
  | .bankRetentionEntry t h b => Sys2Proof.Machine.execBankRetentionEntry t h b s
  | .bankWake t h b => Sys2Proof.Machine.execBankWake t h b s
  | .columnRepair t h b => Sys2Proof.Machine.execColumnRepair t h b s
  | .cacheRead t ctx dva err => Sys2Proof.Machine.execCacheRead t ctx dva err s
  | .cacheWrite t ctx dva b => Sys2Proof.Machine.execCacheWrite t ctx dva b s
  | .zeroLine t ctx dva => Sys2Proof.Machine.execZeroLine t ctx dva s
  | .sessionOpen t x r => Sys2Proof.Machine.execSessionOpen t x r s
  | .sessionClose t x r => Sys2Proof.Machine.execSessionClose t x r s
  | .identify t x r => Sys2Proof.Machine.execIdentify t x r s
  | .eventRead t x r => Sys2Proof.Machine.execEventRead t x r s
  | .opStatus t x r => Sys2Proof.Machine.execOpStatus t x r s
  | .opCancel t x r => Sys2Proof.Machine.execOpCancel t x r s
  | .regRead t x r => Sys2Proof.Machine.execRegRead t x r s
  | .regWrite t x r => Sys2Proof.Machine.execRegWrite t x r s
  | .memRead t x r => Sys2Proof.Machine.execMemRead t x r s
  | .policySet t x r => Sys2Proof.Machine.execPolicySet t x r s
  | .nodeSet t x r => Sys2Proof.Machine.execNodeSet t x r s
  | .sharingGroupSet t x r => Sys2Proof.Machine.execSharingGroupSet t x r s
  | .modeSet t x r => Sys2Proof.Machine.execModeSet t x r s
  | .vfSharesSet t x r => Sys2Proof.Machine.execVfSharesSet t x r s
  | .systemTableWrite t x r => Sys2Proof.Machine.execSystemTableWrite t x r s
  | .tsCreate t x r => Sys2Proof.Machine.execTsCreate t x r s
  | .tsDelete t x r => Sys2Proof.Machine.execTsDelete t x r s
  | .tsConfig t x r => Sys2Proof.Machine.execTsConfig t x r s
  | .tableCreate t x r => Sys2Proof.Machine.execTableCreate t x r s
  | .tableDrop t x r => Sys2Proof.Machine.execTableDrop t x r s
  | .tableAlter t x r => Sys2Proof.Machine.execTableAlter t x r s
  | .tableValidationSet t x r => Sys2Proof.Machine.execTableValidationSet t x r s
  | .commitHistory t x r => Sys2Proof.Machine.execCommitHistory t x r s
  | .tsSecureErase t x r => Sys2Proof.Machine.execTsSecureErase t x r s
  | .groupCreate t x r => Sys2Proof.Machine.execGroupCreate t x r s
  | .spareAssign t x r => Sys2Proof.Machine.execSpareAssign t x r s
  | .rebuildStart t x r => Sys2Proof.Machine.execRebuildStart t x r s
  | .relayout t x r => Sys2Proof.Machine.execRelayout t x r s
  | .scrub t x r => Sys2Proof.Machine.execScrub t x r s
  | .memPairOffline t x r => Sys2Proof.Machine.execMemPairOffline t x r s
  | .memPairOnline t x r => Sys2Proof.Machine.execMemPairOnline t x r s
  | .cacheInvalidate t x r => Sys2Proof.Machine.execCacheInvalidate t x r s
  | .claim t x r => Sys2Proof.Machine.execClaim t x r s
  | .releaseClaim t x r => Sys2Proof.Machine.execReleaseClaim t x r s
  | .claimsList t x r => Sys2Proof.Machine.execClaimsList t x r s
  | .fwStage t x r => Sys2Proof.Machine.execFwStage t x r s
  | .fwActivate t x r => Sys2Proof.Machine.execFwActivate t x r s
  | .fwActivateFailed t stage minor => Sys2Proof.Machine.execFwActivateFailed t stage minor s
  | .fwSelect t x r => Sys2Proof.Machine.execFwSelect t x r s
  | .fwStatus t x r => Sys2Proof.Machine.execFwStatus t x r s
  | .mailboxOverrun t x => Sys2Proof.Machine.execMailboxOverrun t x s
  | .longOpStep t handle f => Sys2Proof.Machine.execLongOpStep t handle f s
  | .sharePortSplit t x value expected count => Sys2Proof.Machine.execSharePortSplit t x value expected count s
  | .commitDataWritten t ts epoch => Sys2Proof.Machine.execCommitDataWritten t ts epoch s
  | .commitRecordDurable t ts epoch => Sys2Proof.Machine.execCommitRecordDurable t ts epoch s
  | .journalCheckpoint t g => Sys2Proof.Machine.execJournalCheckpoint t g s
  | .reclamationStep t ts => Sys2Proof.Machine.execReclamationStep t ts s
  | .driveCommandComplete t n res => Sys2Proof.Machine.execDriveCommandComplete t n res s
  | .shortReadRetry t n => Sys2Proof.Machine.execShortReadRetry t n s
  | .driveCmdTimeout t n => Sys2Proof.Machine.execDriveCmdTimeout t n s
  | .driveAbortTimeout t n => Sys2Proof.Machine.execDriveAbortTimeout t n s
  | .driveResetTimeout t slot => Sys2Proof.Machine.execDriveResetTimeout t slot s
  | .driveInsertion t slot => Sys2Proof.Machine.execDriveInsertion t slot s
  | .driveRefclkStart t slot => Sys2Proof.Machine.execDriveRefclkStart t slot s
  | .drivePerstRelease t slot => Sys2Proof.Machine.execDrivePerstRelease t slot s
  | .driveLinkUp t slot f rings => Sys2Proof.Machine.execDriveLinkUp t slot f rings s
  | .driveRemoval t slot => Sys2Proof.Machine.execDriveRemoval t slot s
  | .rebuildStep t g pos => Sys2Proof.Machine.execRebuildStep t g pos s
  | .twinHello t seq hello => Sys2Proof.Machine.execTwinHello t seq hello s
  | .heartbeat t seq => Sys2Proof.Machine.execHeartbeat t seq s
  | .allocReq t seq req => Sys2Proof.Machine.execAllocReq t seq req s
  | .allocGrant t seq grant => Sys2Proof.Machine.execAllocGrant t seq grant s
  | .extentHeaders t seq c => Sys2Proof.Machine.execExtentHeaders t seq c s
  | .record t seq c => Sys2Proof.Machine.execRecord t seq c s
  | .checkpoint t seq m => Sys2Proof.Machine.execCheckpoint t seq m s
  | .cmdStart t seq x q idx entry => Sys2Proof.Machine.execCmdStart t seq x q idx entry s
  | .cmdDone t seq l => Sys2Proof.Machine.execCmdDone t seq l s
  | .queueState t seq x q p => Sys2Proof.Machine.execQueueState t seq x q p s
  | .hold t seq hold take low q cid => Sys2Proof.Machine.execHold t seq hold take low q cid s
  | .config t seq c => Sys2Proof.Machine.execConfig t seq c s
  | .ownership t seq ts reserved last => Sys2Proof.Machine.execOwnership t seq ts reserved last s
  | .resync t seq r => Sys2Proof.Machine.execResync t seq r s
  | .twinAck t ack => Sys2Proof.Machine.execTwinAck t ack s
  | .twinFrameRetry t seq => Sys2Proof.Machine.execTwinFrameRetry t seq s
  | .heartbeatTimer t => Sys2Proof.Machine.execHeartbeatTimer t s
  | .linkSilent t => Sys2Proof.Machine.execLinkSilent t s
  | .twinGroupDown t g => Sys2Proof.Machine.execTwinGroupDown t g s
  | .twinLinkUp t g => Sys2Proof.Machine.execTwinLinkUp t g s
  | .witnessWrite t => Sys2Proof.Machine.execWitnessWrite t s
  | .witnessRead t drive block registered => Sys2Proof.Machine.execWitnessRead t drive block registered s
  | .declareFailed t won => Sys2Proof.Machine.execDeclareFailed t won s
  | .standDown t => Sys2Proof.Machine.execStandDown t s
  | .reservationConflict t => Sys2Proof.Machine.execReservationConflict t s
  | .failoverReplay t valid reserves => Sys2Proof.Machine.execFailoverReplay t valid reserves s
  | .queueAdoption t frags => Sys2Proof.Machine.execQueueAdoption t frags s
  | .queryResumption t => Sys2Proof.Machine.execQueryResumption t s
  | .recoveryComplete t => Sys2Proof.Machine.execRecoveryComplete t s
  | .twinOwnXfer t x ts expected count => Sys2Proof.Machine.execTwinOwnXfer t x ts expected count s
  | .pairEnable t x on expected count => Sys2Proof.Machine.execPairEnable t x on expected count s
  | .acceptJoin t x on expected count => Sys2Proof.Machine.execAcceptJoin t x on expected count s
  | .unitAcknowledge t n => Sys2Proof.Machine.execUnitAcknowledge t n s
  | .modeChangeDeadline t => Sys2Proof.Machine.execModeChangeDeadline t s
  | .vddCoreReady t => Sys2Proof.Machine.execVddCoreReady t s
  | .hearthGroupReady t g => Sys2Proof.Machine.execHearthGroupReady t g s
  | .idleTimer t => Sys2Proof.Machine.execIdleTimer t s
  | .entrySequence t ok0 ok1 => Sys2Proof.Machine.execEntrySequence t ok0 ok1 s
  | .emberWake t by_ => Sys2Proof.Machine.execEmberWake t by_ s
  | .bellowsAlarm t => Sys2Proof.Machine.execBellowsAlarm t s
  | .domainWake t n => Sys2Proof.Machine.execDomainWake t n s
  | .domainIdleTimeout t n => Sys2Proof.Machine.execDomainIdleTimeout t n s
  | .powerSample t reads => Sys2Proof.Machine.execPowerSample t reads s
  | .parkCheck t => Sys2Proof.Machine.execParkCheck t s
  | .thermalSample t l => Sys2Proof.Machine.execThermalSample t l s
  | .clampRelease t => Sys2Proof.Machine.execClampRelease t s
  | .thermtrip t => Sys2Proof.Machine.execThermtrip t s
  | .startAttempt t => Sys2Proof.Machine.execStartAttempt t s
  | .stageComplete t f => Sys2Proof.Machine.execStageComplete t f s
  | .stageTimeout t reuse => Sys2Proof.Machine.execStageTimeout t reuse s
  | .startRetry t => Sys2Proof.Machine.execStartRetry t s
  | .pldmFirmwareUpdate t slot image => Sys2Proof.Machine.execPldmFirmwareUpdate t slot image s
  | .pldmActivate t slot => Sys2Proof.Machine.execPldmActivate t slot s
  | .powerLoss t => Sys2Proof.Machine.execPowerLoss t s
  | .vrPgFall t => Sys2Proof.Machine.execVrPgFall t s
  | .telemetryLost t rail => Sys2Proof.Machine.execTelemetryLost t rail s
  | .refclkLost t c => Sys2Proof.Machine.execRefclkLost t c s
  | .deviceStop t cause => Sys2Proof.Machine.execDeviceStop t cause s
  | .nonceGet t n => Sys2Proof.Machine.execNonceGet t n s
  | .tokenApply t n tok ok => Sys2Proof.Machine.execTokenApply t n tok ok s
  | .keyLoad t n ref key => Sys2Proof.Machine.execKeyLoad t n ref key s
  | .keyUnload t n ref => Sys2Proof.Machine.execKeyUnload t n ref s
  | .keyStatus t n => Sys2Proof.Machine.execKeyStatus t n s
  | .svnCommit t n => Sys2Proof.Machine.execSvnCommit t n s
  | .debugLock t n => Sys2Proof.Machine.execDebugLock t n s
  | .spdmRequest t tr req => Sys2Proof.Machine.execSpdmRequest t tr req s
  | .ideKm t n stream on => Sys2Proof.Machine.execIdeKm t n stream on s
  | .ideRefusal t port stream read x addr data => Sys2Proof.Machine.execIdeRefusal t port stream read x addr data s
  | .tamper t input ok => Sys2Proof.Machine.execTamper t input ok s
  | .tamperLatchClear t value low => Sys2Proof.Machine.execTamperLatchClear t value low s
  | .tamperCtrlWrite t x value expected count => Sys2Proof.Machine.execTamperCtrlWrite t x value expected count s
  | .jtagAccess t op => Sys2Proof.Machine.execJtagAccess t op s
  | .quench t h => Sys2Proof.Machine.execQuench t h s
  | .recorderClose t => Sys2Proof.Machine.execRecorderClose t s
  | .archive t ok0 ok1 => Sys2Proof.Machine.execArchive t ok0 ok1 s
  | .archiveNow t x expected count => Sys2Proof.Machine.execArchiveNow t x expected count s
  | .freezeHost t x on expected count => Sys2Proof.Machine.execFreezeHost t x on expected count s
  | .freezeExpiry t => Sys2Proof.Machine.execFreezeExpiry t s
  | .mgmtFreeze t on => Sys2Proof.Machine.execMgmtFreeze t on s
  | .mctpRecorderRead t addr n => Sys2Proof.Machine.execMctpRecorderRead t addr n s
  | .recWallclock t x value expected count => Sys2Proof.Machine.execRecWallclock t x value expected count s
  | .operatingSecond t => Sys2Proof.Machine.execOperatingSecond t s
  | .queueDepthSample t port => Sys2Proof.Machine.execQueueDepthSample t port s
  | .hostLinkDown t port => Sys2Proof.Machine.execHostLinkDown t port s
  | .rx4Enable t x expected count => Sys2Proof.Machine.execRx4Enable t x expected count s
  | .rx4Disable t x expected count => Sys2Proof.Machine.execRx4Disable t x expected count s
  | .validate t b => Sys2Proof.Machine.execValidate t b s
  | .arith t b => Sys2Proof.Machine.execArith t b s
  | .total t b => Sys2Proof.Machine.execTotal t b s
  | .fileOut t b => Sys2Proof.Machine.execFileOut t b s
  | .fileIn t b => Sys2Proof.Machine.execFileIn t b s
  | .rx4Record t data => Sys2Proof.Machine.execRx4Record t data s
  | .rx4GoOverrun t => Sys2Proof.Machine.execRx4GoOverrun t s
  | .gpioFuncWrite t x p value expected count => Sys2Proof.Machine.execGpioFuncWrite t x p value expected count s
  | .uartCtrlWrite t x value expected count => Sys2Proof.Machine.execUartCtrlWrite t x value expected count s
  | .perstRelease t port => Sys2Proof.Machine.execPerstRelease t port s
  | .hostLinkUp t port => Sys2Proof.Machine.execHostLinkUp t port s
  | .refclkReturn t c => Sys2Proof.Machine.execRefclkReturn t c s
  | .dramRefresh t u off rfm => Sys2Proof.Machine.execDramRefresh t u off rfm s
  | .hostReadCompletion t tag b => Sys2Proof.Machine.execHostReadCompletion t tag b s
  | .otherTrafficFrame t half kind b => Sys2Proof.Machine.execOtherTrafficFrame t half kind b s
  | .pfcPauseFrame t half mask quanta => Sys2Proof.Machine.execPfcPauseFrame t half mask quanta s
  | .aonPowerGood t => Sys2Proof.Machine.execAonPowerGood t s

end Sys2Proof.Machine
end

