-- ==== Sys2Proof/WellFormed.lean ====
section
/-!
DEFINITION. Sys2Proof/WellFormed.lean: the commands whose operands a sender can form: a function, a queue, a hearth, a drive or another unit that
the part has, values that their fields hold, and instruction words that the checks of a single word let through (R232, R233, R639).
-/
namespace Sys2Proof

open Sys2Proof.Machine

/-- A mailbox request whose header fields hold their values (Table 15.4). -/
def reqOk (r : MbReq) : Bool := decide (r.seq < 2 ^ 16) && decide (r.ver < 2 ^ 8) && decide (r.rsv < 2 ^ 8) && decide (r.bytes < 2 ^ 16) && decide (r.gen < 2 ^ 32)

/-- A datagram on one of the 16 port halves (R338). -/
def pktOk (k : VPkt) : Bool := decide (k.half < 16)

/-- A fault as Table 7.9 records one: a lane of the slice and a cause that an execution can meet. -/
def faultOk (f : XFault) : Bool := decide (f.lane < 128) && (decide (1 ≤ f.cause) && decide (f.cause ≤ 5) || f.cause == 0x10)

/-- An instruction of the expression unit on one of the 36 hearths. -/
def unitOk (op : XOp) (h : Nat) (w : XFields) (flt : Option XFault) : Bool := decide (h < 36) && xWordOk op w && flt.all faultOk

/-- A well-formed command (DESIGN CHOICE, notes/assumptions/137.md). -/
def Instr.wf : Instr → Bool
  | .querySubmit _ x q cid => decide (x < 1026) && decide (q < 8192) && decide (cid < 65536)
  | .ingest _ x q cid => decide (x < 1026) && decide (q < 8192) && decide (cid < 65536)
  | .readPages _ x q cid => decide (x < 1026) && decide (q < 8192) && decide (cid < 65536)
  | .flush _ x q cid => decide (x < 1026) && decide (q < 8192) && decide (cid < 65536)
  | .abort _ x q cid => decide (x < 1026) && decide (q < 8192) && decide (cid < 65536)
  | .snapshot _ x q cid => decide (x < 1026) && decide (q < 8192) && decide (cid < 65536)
  | .digest _ x q cid => decide (x < 1026) && decide (q < 8192) && decide (cid < 65536)
  | .compress _ x q cid => decide (x < 1026) && decide (q < 8192) && decide (cid < 65536)
  | .entryFetch _ port _ => decide (port < 2)
  | .qpSqDoorbell _ x q v => decide (x < 1026) && decide (q < 8192) && decide (v < 2 ^ 64)
  | .qpCqDoorbell _ x q v => decide (x < 1026) && decide (q < 8192) && decide (v < 2 ^ 64)
  | .queueEnable _ x q => decide (x < 1026) && decide (q < 8192)
  | .queueDisable _ x q => decide (x < 1026) && decide (q < 8192)
  | .queueReset _ x q => decide (x < 1026) && decide (q < 8192)
  | .queueResetDone _ x q => decide (x < 1026) && decide (q < 8192)
  | .completionPost _ x q => decide (x < 1026) && decide (q < 8192)
  | .moderationTimeout _ x q => decide (x < 1026) && decide (q < 8192)
  | .d3hotEntry _ x => decide (x < 1026)
  | .d0Return _ x => decide (x < 1026)
  | .registerWrite _ x _ size v => decide (x < 1026) && decide (size < 9) && decide (v < 2 ^ 64)
  | .functionReset _ x => decide (x < 1026)
  | .functionResetAbandon _ h _ => decide (h < 36)
  | .vfResetDone _ x => decide (x < 1026)
  | .perstAssert _ port => decide (port < 2)
  | .vfEnable _ port n => decide (port < 2) && decide (n < 513)
  | .vfDisable _ port n => decide (port < 2) && decide (n < 513)
  | .atsInvalidation _ x addr => decide (x < 1026) && decide (addr < 2 ^ 64)
  | .ringStallPoll _ _ e _ => decide (e < 16)
  | .producedCountAdvance _ _ e => decide (e < 16)
  | .imageFetched _ x q cid => decide (x < 1026) && decide (q < 8192) && decide (cid < 65536)
  | .chargeCut _ _ _ _ _ => true
  | .slotFill _ h => decide (h < 36)
  | .chargeStart _ h => decide (h < 36)
  | .steal _ h => decide (h < 36)
  | .chargeDone _ h _ => decide (h < 36)
  | .release _ _ _ => true
  | .cancel _ h _ => decide (h < 36)
  | .restart _ h _ => decide (h < 36)
  | .delayFire _ l _ => decide (l < 8)
  | .delayFull _ l _ _ => decide (l < 8)
  | .traceEnable _ x value expected count => decide (x < 1026) && decide (value < 2 ^ 64) && decide (expected < 2 ^ 64) && decide (count < 65536)
  | .engineBlockDone _ _ b => decide (b.engine < 16)
  | .xNop h w flt => unitOk .nop h w flt
  | .xEnd h w flt => unitOk .endS h w flt
  | .xBrz h w flt => unitOk .brz h w flt
  | .xBrnz h w flt => unitOk .brnz h w flt
  | .xBrmz h w flt => unitOk .brmz h w flt
  | .xSetsel h w flt => unitOk .setsel h w flt
  | .xOut h w flt => unitOk .outV h w flt
  | .xMout h w flt => unitOk .mout h w flt
  | .xEclr h w flt => unitOk .eclr h w flt
  | .xVld h w flt => unitOk .vld h w flt
  | .xVldf h w flt => unitOk .vldf h w flt
  | .xVld2 h w flt => unitOk .vld2 h w flt
  | .xVld3 h w flt => unitOk .vld3 h w flt
  | .xVld4 h w flt => unitOk .vld4 h w flt
  | .xTst h w flt => unitOk .tst h w flt
  | .xVrow h w flt => unitOk .vrow h w flt
  | .xMld h w flt => unitOk .mld h w flt
  | .xVldn h w flt => unitOk .vldn h w flt
  | .xVbc h w flt => unitOk .vbc h w flt
  | .xVbp h w flt => unitOk .vbp h w flt
  | .xSlc h w flt => unitOk .slc h w flt
  | .xSlp h w flt => unitOk .slp h w flt
  | .xSli h w flt => unitOk .sli h w flt
  | .xVbs h w flt => unitOk .vbs h w flt
  | .xViota h w flt => unitOk .viota h w flt
  | .xAdd h w flt => unitOk .add h w flt
  | .xSub h w flt => unitOk .sub h w flt
  | .xAnd h w flt => unitOk .and h w flt
  | .xOr h w flt => unitOk .or h w flt
  | .xXor h w flt => unitOk .xor h w flt
  | .xShl h w flt => unitOk .shl h w flt
  | .xShr h w flt => unitOk .shr h w flt
  | .xMin h w flt => unitOk .min h w flt
  | .xMax h w flt => unitOk .max h w flt
  | .xAbs h w flt => unitOk .abs h w flt
  | .xNeg h w flt => unitOk .neg h w flt
  | .xNot h w flt => unitOk .not h w flt
  | .xMul h w flt => unitOk .mul h w flt
  | .xMulh h w flt => unitOk .mulh h w flt
  | .xWmul h w flt => unitOk .wmul h w flt
  | .xDot8 h w flt => unitOk .dot8 h w flt
  | .xDot16 h w flt => unitOk .dot16 h w flt
  | .xDiv h w flt => unitOk .div h w flt
  | .xRem h w flt => unitOk .rem h w flt
  | .xDivrem h w flt => unitOk .divrem h w flt
  | .xFadd h w flt => unitOk .fadd h w flt
  | .xFsub h w flt => unitOk .fsub h w flt
  | .xFmul h w flt => unitOk .fmul h w flt
  | .xFdiv h w flt => unitOk .fdiv h w flt
  | .xFsqrt h w flt => unitOk .fsqrt h w flt
  | .xFma h w flt => unitOk .fma h w flt
  | .xFmin h w flt => unitOk .fmin h w flt
  | .xFmax h w flt => unitOk .fmax h w flt
  | .xFabs h w flt => unitOk .fabs h w flt
  | .xFneg h w flt => unitOk .fneg h w flt
  | .xCvt h w flt => unitOk .cvt h w flt
  | .xDadd h w flt => unitOk .dadd h w flt
  | .xDsub h w flt => unitOk .dsub h w flt
  | .xDmul h w flt => unitOk .dmul h w flt
  | .xDdiv h w flt => unitOk .ddiv h w flt
  | .xDscale h w flt => unitOk .dscale h w flt
  | .xPadd h w flt => unitOk .padd h w flt
  | .xPsub h w flt => unitOk .psub h w flt
  | .xPchk h w flt => unitOk .pchk h w flt
  | .xCmp h w flt => unitOk .cmp h w flt
  | .xVsel h w flt => unitOk .vsel h w flt
  | .xValid h w flt => unitOk .valid h w flt
  | .xSetnull h w flt => unitOk .setnull h w flt
  | .xMand h w flt => unitOk .mand h w flt
  | .xMor h w flt => unitOk .mor h w flt
  | .xMxor h w flt => unitOk .mxor h w flt
  | .xMandn h w flt => unitOk .mandn h w flt
  | .xMnot h w flt => unitOk .mnot h w flt
  | .xMmov h w flt => unitOk .mmov h w flt
  | .xMcnt h w flt => unitOk .mcnt h w flt
  | .xMerr h w flt => unitOk .merr h w flt
  | .xMovf h w flt => unitOk .movf h w flt
  | .xVgath h w flt => unitOk .vgath h w flt
  | .xVscat h w flt => unitOk .vscat h w flt
  | .xVlds h w flt => unitOk .vlds h w flt
  | .xVsts h w flt => unitOk .vsts h w flt
  | .xScmp h w flt => unitOk .scmp h w flt
  | .xSpre h w flt => unitOk .spre h w flt
  | .xSsuf h w flt => unitOk .ssuf h w flt
  | .xSfind h w flt => unitOk .sfind h w flt
  | .xSlen h w flt => unitOk .slen h w flt
  | .xStrSsub h w flt => unitOk .strSsub h w flt
  | .xRpm h w flt => unitOk .rpm h w flt
  | .xRpx h w flt => unitOk .rpx h w flt
  | .xCml h w flt => unitOk .cml h w flt
  | .xSadd h w flt => unitOk .sadd h w flt
  | .xScalSsub h w flt => unitOk .scalSsub h w flt
  | .xSand h w flt => unitOk .sand h w flt
  | .xSor h w flt => unitOk .sor h w flt
  | .xSxor h w flt => unitOk .sxor h w flt
  | .xSshl h w flt => unitOk .sshl h w flt
  | .xSshr h w flt => unitOk .sshr h w flt
  | .xSmul h w flt => unitOk .smul h w flt
  | .xSmov h w flt => unitOk .smov h w flt
  | .xSlt h w flt => unitOk .slt h w flt
  | .xSltu h w flt => unitOk .sltu h w flt
  | .xRadd h w flt => unitOk .radd h w flt
  | .xRmin h w flt => unitOk .rmin h w flt
  | .xRmax h w flt => unitOk .rmax h w flt
  | .faultResolved _ h _ => decide (h < 36)
  | .wideIdleTimeout _ h => decide (h < 36)
  | .widePowerDownDone _ h => decide (h < 36)
  | .wideUnitReady _ h => decide (h < 36)
  | .exuCtrlWrite _ x h value expected count => decide (x < 1026) && decide (h < 36) && decide (value < 2 ^ 64) && decide (expected < 2 ^ 64) && decide (count < 65536)
  | .cmtScrub _ h _ _ _ => decide (h < 36)
  | .systemTableApply _ h => decide (h < 36)
  | .vxpData _ k => pktOk k
  | .vxpAck _ k => pktOk k
  | .flowAck _ k => pktOk k
  | .vxpHello _ k => pktOk k
  | .helloAck _ k => pktOk k
  | .resume _ k => pktOk k
  | .resumeAck _ k => pktOk k
  | .resend _ k => pktOk k
  | .keepalive _ k => pktOk k
  | .close _ k => pktOk k
  | .rtoExpiry _ peer me => decide (peer < 65536) && decide (me < 65536)
  | .ratePeriod _ peer me => decide (peer < 65536) && decide (me < 65536)
  | .ackTimer _ peer me => decide (peer < 65536) && decide (me < 65536)
  | .keepaliveTimer _ peer me => decide (peer < 65536) && decide (me < 65536)
  | .peerLost _ peer => decide (peer < 65536)
  | .fabricPortDown _ half => decide (half < 16)
  | .fabricPortUp _ half => decide (half < 16)
  | .fabCtrlWrite _ x p value expected count => decide (x < 1026) && decide (p < 8) && decide (value < 2 ^ 64) && decide (expected < 2 ^ 64) && decide (count < 65536)
  | .frameMove _ u _ dest => decide (u < 8) && decide (dest < 8)
  | .frameZeroing _ u _ => decide (u < 8)
  | .rowRepair _ u _ _ => decide (u < 8)
  | .patrolScrubStep _ u _ _ => decide (u < 8)
  | .refreshWindowEnd _ u => decide (u < 8)
  | .rowIdleTimeout _ u _ => decide (u < 8)
  | .zqCalibration _ u => decide (u < 8)
  | .dqsTracking _ u => decide (u < 8)
  | .bankRetentionEntry _ h b => decide (h < 36) && decide (b < 12)
  | .bankWake _ h b => decide (h < 36) && decide (b < 12)
  | .columnRepair _ h b => decide (h < 36) && decide (b < 12)
  | .cacheRead _ ctx dva _ => decide (ctx < 65536) && decide (dva < 2 ^ 64)
  | .cacheWrite _ ctx dva _ => decide (ctx < 65536) && decide (dva < 2 ^ 64)
  | .zeroLine _ ctx dva => decide (ctx < 65536) && decide (dva < 2 ^ 64)
  | .sessionOpen _ x r => decide (x < 1026) && reqOk r
  | .sessionClose _ x r => decide (x < 1026) && reqOk r
  | .identify _ x r => decide (x < 1026) && reqOk r
  | .eventRead _ x r => decide (x < 1026) && reqOk r
  | .opStatus _ x r => decide (x < 1026) && reqOk r
  | .opCancel _ x r => decide (x < 1026) && reqOk r
  | .regRead _ x r => decide (x < 1026) && reqOk r
  | .regWrite _ x r => decide (x < 1026) && reqOk r
  | .memRead _ x r => decide (x < 1026) && reqOk r
  | .policySet _ x r => decide (x < 1026) && reqOk r
  | .nodeSet _ x r => decide (x < 1026) && reqOk r
  | .sharingGroupSet _ x r => decide (x < 1026) && reqOk r
  | .modeSet _ x r => decide (x < 1026) && reqOk r
  | .vfSharesSet _ x r => decide (x < 1026) && reqOk r
  | .systemTableWrite _ x r => decide (x < 1026) && reqOk r
  | .tsCreate _ x r => decide (x < 1026) && reqOk r
  | .tsDelete _ x r => decide (x < 1026) && reqOk r
  | .tsConfig _ x r => decide (x < 1026) && reqOk r
  | .tableCreate _ x r => decide (x < 1026) && reqOk r
  | .tableDrop _ x r => decide (x < 1026) && reqOk r
  | .tableAlter _ x r => decide (x < 1026) && reqOk r
  | .tableValidationSet _ x r => decide (x < 1026) && reqOk r
  | .commitHistory _ x r => decide (x < 1026) && reqOk r
  | .tsSecureErase _ x r => decide (x < 1026) && reqOk r
  | .groupCreate _ x r => decide (x < 1026) && reqOk r
  | .spareAssign _ x r => decide (x < 1026) && reqOk r
  | .rebuildStart _ x r => decide (x < 1026) && reqOk r
  | .relayout _ x r => decide (x < 1026) && reqOk r
  | .scrub _ x r => decide (x < 1026) && reqOk r
  | .memPairOffline _ x r => decide (x < 1026) && reqOk r
  | .memPairOnline _ x r => decide (x < 1026) && reqOk r
  | .cacheInvalidate _ x r => decide (x < 1026) && reqOk r
  | .claim _ x r => decide (x < 1026) && reqOk r
  | .releaseClaim _ x r => decide (x < 1026) && reqOk r
  | .claimsList _ x r => decide (x < 1026) && reqOk r
  | .fwStage _ x r => decide (x < 1026) && reqOk r
  | .fwActivate _ x r => decide (x < 1026) && reqOk r
  | .fwActivateFailed _ _ minor => decide (minor < 65536)
  | .fwSelect _ x r => decide (x < 1026) && reqOk r
  | .fwStatus _ x r => decide (x < 1026) && reqOk r
  | .mailboxOverrun _ x => decide (x < 1026)
  | .longOpStep _ _ _ => true
  | .sharePortSplit _ x value expected count => decide (x < 1026) && decide (value < 2 ^ 64) && decide (expected < 2 ^ 64) && decide (count < 65536)
  | .commitDataWritten _ _ epoch => decide (epoch < 2 ^ 64)
  | .commitRecordDurable _ _ epoch => decide (epoch < 2 ^ 64)
  | .journalCheckpoint _ g => decide (g < 16)
  | .reclamationStep _ _ => true
  | .driveCommandComplete _ _ _ => true
  | .shortReadRetry _ _ => true
  | .driveCmdTimeout _ _ => true
  | .driveAbortTimeout _ _ => true
  | .driveResetTimeout _ slot => decide (slot < 72)
  | .driveInsertion _ slot => decide (slot < 72)
  | .driveRefclkStart _ slot => decide (slot < 72)
  | .drivePerstRelease _ slot => decide (slot < 72)
  | .driveLinkUp _ slot _ _ => decide (slot < 72)
  | .driveRemoval _ slot => decide (slot < 72)
  | .rebuildStep _ g _ => decide (g < 16)
  | .twinHello _ seq _ => decide (seq < 2 ^ 32)
  | .heartbeat _ seq => decide (seq < 2 ^ 32)
  | .allocReq _ seq _ => decide (seq < 2 ^ 32)
  | .allocGrant _ seq _ => decide (seq < 2 ^ 32)
  | .extentHeaders _ seq _ => decide (seq < 2 ^ 32)
  | .record _ seq _ => decide (seq < 2 ^ 32)
  | .checkpoint _ seq _ => decide (seq < 2 ^ 32)
  | .cmdStart _ seq x q _ _ => decide (seq < 2 ^ 32) && decide (x < 1026) && decide (q < 8192)
  | .cmdDone _ seq _ => decide (seq < 2 ^ 32)
  | .queueState _ seq x q _ => decide (seq < 2 ^ 32) && decide (x < 1026) && decide (q < 8192)
  | .hold _ seq _ _ _ q cid => decide (seq < 2 ^ 32) && decide (q < 8192) && decide (cid < 65536)
  | .config _ seq _ => decide (seq < 2 ^ 32)
  | .ownership _ seq _ _ _ => decide (seq < 2 ^ 32)
  | .resync _ seq _ => decide (seq < 2 ^ 32)
  | .twinAck _ _ => true
  | .twinFrameRetry _ seq => decide (seq < 2 ^ 32)
  | .heartbeatTimer _ => true
  | .linkSilent _ => true
  | .twinGroupDown _ g => decide (g < 2)
  | .twinLinkUp _ g => decide (g < 2)
  | .witnessWrite _ => true
  | .witnessRead _ drive _ _ => decide (drive < 72)
  | .declareFailed _ _ => true
  | .standDown _ => true
  | .reservationConflict _ => true
  | .failoverReplay _ _ _ => true
  | .queueAdoption _ _ => true
  | .queryResumption _ => true
  | .recoveryComplete _ => true
  | .twinOwnXfer _ x _ expected count => decide (x < 1026) && decide (expected < 2 ^ 64) && decide (count < 65536)
  | .pairEnable _ x _ expected count => decide (x < 1026) && decide (expected < 2 ^ 64) && decide (count < 65536)
  | .acceptJoin _ x _ expected count => decide (x < 1026) && decide (expected < 2 ^ 64) && decide (count < 65536)
  | .unitAcknowledge _ n => decide (n < 72)
  | .modeChangeDeadline _ => true
  | .vddCoreReady _ => true
  | .hearthGroupReady _ g => decide (g < 4)
  | .idleTimer _ => true
  | .entrySequence _ _ _ => true
  | .emberWake _ w => decide (w.src < 5) && decide (w.pins < 65536)
  | .bellowsAlarm _ => true
  | .domainWake _ n => decide (n < 72)
  | .domainIdleTimeout _ n => decide (n < 72)
  | .powerSample _ _ => true
  | .parkCheck _ => true
  | .thermalSample _ _ => true
  | .clampRelease _ => true
  | .thermtrip _ => true
  | .startAttempt _ => true
  | .stageComplete _ _ => true
  | .stageTimeout _ _ => true
  | .startRetry _ => true
  | .pldmFirmwareUpdate _ slot _ => decide (slot < 2)
  | .pldmActivate _ slot => decide (slot < 2)
  | .powerLoss _ => true
  | .vrPgFall _ => true
  | .telemetryLost _ rail => decide (rail < 16)
  | .refclkLost _ c => decide (c < 6)
  | .deviceStop _ cause => decide (cause < 5)
  | .nonceGet _ _ => true
  | .tokenApply _ _ _ _ => true
  | .keyLoad _ _ ref _ => decide (ref < 2 ^ 32)
  | .keyUnload _ _ ref => decide (ref < 2 ^ 32)
  | .keyStatus _ _ => true
  | .svnCommit _ _ => true
  | .debugLock _ _ => true
  | .spdmRequest _ tr _ => decide (tr < 3)
  | .ideKm _ _ stream _ => decide (stream < 5)
  | .ideRefusal _ port stream _ x addr _ => decide (port < 2) && decide (stream < 5) && decide (x < 1026) && decide (addr < 2 ^ 64)
  | .tamper _ input _ => decide (input < 2)
  | .tamperLatchClear _ value _ => decide (value < 2 ^ 64)
  | .tamperCtrlWrite _ x value expected count => decide (x < 1026) && decide (value < 2 ^ 64) && decide (expected < 2 ^ 64) && decide (count < 65536)
  | .jtagAccess _ _ => true
  | .quench _ h => decide (h < 36)
  | .recorderClose _ => true
  | .archive _ _ _ => true
  | .archiveNow _ x expected count => decide (x < 1026) && decide (expected < 2 ^ 64) && decide (count < 65536)
  | .freezeHost _ x _ expected count => decide (x < 1026) && decide (expected < 2 ^ 64) && decide (count < 65536)
  | .freezeExpiry _ => true
  | .mgmtFreeze _ _ => true
  | .mctpRecorderRead _ addr n => decide (addr < 2 ^ 64) && decide (n < 65)
  | .recWallclock _ x value expected count => decide (x < 1026) && decide (value < 2 ^ 64) && decide (expected < 2 ^ 64) && decide (count < 65536)
  | .operatingSecond _ => true
  | .queueDepthSample _ port => decide (port < 2)
  | .hostLinkDown _ port => decide (port < 2)
  | .rx4Enable _ x expected count => decide (x < 1026) && decide (expected < 2 ^ 64) && decide (count < 65536)
  | .rx4Disable _ x expected count => decide (x < 1026) && decide (expected < 2 ^ 64) && decide (count < 65536)
  | .validate _ _ => true
  | .arith _ _ => true
  | .total _ _ => true
  | .fileOut _ _ => true
  | .fileIn _ _ => true
  | .rx4Record _ _ => true
  | .rx4GoOverrun _ => true
  | .gpioFuncWrite _ x p value expected count => decide (x < 1026) && decide (p < 16) && decide (value < 2 ^ 64) && decide (expected < 2 ^ 64) && decide (count < 65536)
  | .uartCtrlWrite _ x value expected count => decide (x < 1026) && decide (value < 2 ^ 64) && decide (expected < 2 ^ 64) && decide (count < 65536)
  | .perstRelease _ port => decide (port < 2)
  | .hostLinkUp _ port => decide (port < 2)
  | .refclkReturn _ c => decide (c < 6)
  | .dramRefresh _ u _ _ => decide (u < 8)
  | .hostReadCompletion _ _ _ => true
  | .otherTrafficFrame _ half _ _ => decide (half < 16)
  | .pfcPauseFrame _ half mask quanta => decide (half < 16) && decide (mask < 256) && decide (quanta < 65536)
  | .aonPowerGood _ => true

/-- The operation, hearth and word of an instruction of the expression unit. -/
def Instr.exu : Instr → Option (XOp × Nat × XFields)
  | .xNop h w _ => some (.nop, h, w)
  | .xEnd h w _ => some (.endS, h, w)
  | .xBrz h w _ => some (.brz, h, w)
  | .xBrnz h w _ => some (.brnz, h, w)
  | .xBrmz h w _ => some (.brmz, h, w)
  | .xSetsel h w _ => some (.setsel, h, w)
  | .xOut h w _ => some (.outV, h, w)
  | .xMout h w _ => some (.mout, h, w)
  | .xEclr h w _ => some (.eclr, h, w)
  | .xVld h w _ => some (.vld, h, w)
  | .xVldf h w _ => some (.vldf, h, w)
  | .xVld2 h w _ => some (.vld2, h, w)
  | .xVld3 h w _ => some (.vld3, h, w)
  | .xVld4 h w _ => some (.vld4, h, w)
  | .xTst h w _ => some (.tst, h, w)
  | .xVrow h w _ => some (.vrow, h, w)
  | .xMld h w _ => some (.mld, h, w)
  | .xVldn h w _ => some (.vldn, h, w)
  | .xVbc h w _ => some (.vbc, h, w)
  | .xVbp h w _ => some (.vbp, h, w)
  | .xSlc h w _ => some (.slc, h, w)
  | .xSlp h w _ => some (.slp, h, w)
  | .xSli h w _ => some (.sli, h, w)
  | .xVbs h w _ => some (.vbs, h, w)
  | .xViota h w _ => some (.viota, h, w)
  | .xAdd h w _ => some (.add, h, w)
  | .xSub h w _ => some (.sub, h, w)
  | .xAnd h w _ => some (.and, h, w)
  | .xOr h w _ => some (.or, h, w)
  | .xXor h w _ => some (.xor, h, w)
  | .xShl h w _ => some (.shl, h, w)
  | .xShr h w _ => some (.shr, h, w)
  | .xMin h w _ => some (.min, h, w)
  | .xMax h w _ => some (.max, h, w)
  | .xAbs h w _ => some (.abs, h, w)
  | .xNeg h w _ => some (.neg, h, w)
  | .xNot h w _ => some (.not, h, w)
  | .xMul h w _ => some (.mul, h, w)
  | .xMulh h w _ => some (.mulh, h, w)
  | .xWmul h w _ => some (.wmul, h, w)
  | .xDot8 h w _ => some (.dot8, h, w)
  | .xDot16 h w _ => some (.dot16, h, w)
  | .xDiv h w _ => some (.div, h, w)
  | .xRem h w _ => some (.rem, h, w)
  | .xDivrem h w _ => some (.divrem, h, w)
  | .xFadd h w _ => some (.fadd, h, w)
  | .xFsub h w _ => some (.fsub, h, w)
  | .xFmul h w _ => some (.fmul, h, w)
  | .xFdiv h w _ => some (.fdiv, h, w)
  | .xFsqrt h w _ => some (.fsqrt, h, w)
  | .xFma h w _ => some (.fma, h, w)
  | .xFmin h w _ => some (.fmin, h, w)
  | .xFmax h w _ => some (.fmax, h, w)
  | .xFabs h w _ => some (.fabs, h, w)
  | .xFneg h w _ => some (.fneg, h, w)
  | .xCvt h w _ => some (.cvt, h, w)
  | .xDadd h w _ => some (.dadd, h, w)
  | .xDsub h w _ => some (.dsub, h, w)
  | .xDmul h w _ => some (.dmul, h, w)
  | .xDdiv h w _ => some (.ddiv, h, w)
  | .xDscale h w _ => some (.dscale, h, w)
  | .xPadd h w _ => some (.padd, h, w)
  | .xPsub h w _ => some (.psub, h, w)
  | .xPchk h w _ => some (.pchk, h, w)
  | .xCmp h w _ => some (.cmp, h, w)
  | .xVsel h w _ => some (.vsel, h, w)
  | .xValid h w _ => some (.valid, h, w)
  | .xSetnull h w _ => some (.setnull, h, w)
  | .xMand h w _ => some (.mand, h, w)
  | .xMor h w _ => some (.mor, h, w)
  | .xMxor h w _ => some (.mxor, h, w)
  | .xMandn h w _ => some (.mandn, h, w)
  | .xMnot h w _ => some (.mnot, h, w)
  | .xMmov h w _ => some (.mmov, h, w)
  | .xMcnt h w _ => some (.mcnt, h, w)
  | .xMerr h w _ => some (.merr, h, w)
  | .xMovf h w _ => some (.movf, h, w)
  | .xVgath h w _ => some (.vgath, h, w)
  | .xVscat h w _ => some (.vscat, h, w)
  | .xVlds h w _ => some (.vlds, h, w)
  | .xVsts h w _ => some (.vsts, h, w)
  | .xScmp h w _ => some (.scmp, h, w)
  | .xSpre h w _ => some (.spre, h, w)
  | .xSsuf h w _ => some (.ssuf, h, w)
  | .xSfind h w _ => some (.sfind, h, w)
  | .xSlen h w _ => some (.slen, h, w)
  | .xStrSsub h w _ => some (.strSsub, h, w)
  | .xRpm h w _ => some (.rpm, h, w)
  | .xRpx h w _ => some (.rpx, h, w)
  | .xCml h w _ => some (.cml, h, w)
  | .xSadd h w _ => some (.sadd, h, w)
  | .xScalSsub h w _ => some (.scalSsub, h, w)
  | .xSand h w _ => some (.sand, h, w)
  | .xSor h w _ => some (.sor, h, w)
  | .xSxor h w _ => some (.sxor, h, w)
  | .xSshl h w _ => some (.sshl, h, w)
  | .xSshr h w _ => some (.sshr, h, w)
  | .xSmul h w _ => some (.smul, h, w)
  | .xSmov h w _ => some (.smov, h, w)
  | .xSlt h w _ => some (.slt, h, w)
  | .xSltu h w _ => some (.sltu, h, w)
  | .xRadd h w _ => some (.radd, h, w)
  | .xRmin h w _ => some (.rmin, h, w)
  | .xRmax h w _ => some (.rmax, h, w)
  | _ => none

end Sys2Proof
end

