-- ==== Sys2Proof/Safety.lean ====
section
/-!
DEFINITION. Sys2Proof/Safety.lean: the terms in which claims are stated: what a command answers, when a function, a unit or a queue is ready
for a command, when nothing is due, and the canonical form of what the part keeps by number.
-/
namespace Sys2Proof.Machine

/-! ### What a command answers -/

/-- The command answers a next state, the waiting commands untouched, whose part is `post` of a part of which P holds. -/
def After (post : Dev → Dev) (i : Instr) (s : State) (P : Dev → Prop) : Prop :=
  ∃ d : Dev, exec i s = .next { s with dev := post d } ∧ P d

/-- The command answers a next state of whose part P holds. -/
def Gives (i : Instr) (s : State) (P : Dev → Prop) : Prop := After (fun d => d) i s P

/-- The command has an effect of which P holds, and then what falls due happens (Dev.tidy); where nothing is due the two agree. -/
def Effects (i : Instr) (s : State) (P : Dev → Prop) : Prop := After Dev.tidy i s P

/-! ### Readiness -/

/-- A function that its host reaches (R481, R543, R554): the premise of every access by the host. -/
def Dev.serves (d : Dev) (x : Nat) : Bool :=
  d.secOn && decide (x < 1026) && d.fnExists x && !(d.link (portOf x)).perst && !(d.start.banked && x != 0)

/-- A hearth's unit that issues the next instruction: it waits for no fault and for no restart (R252, R253). -/
def Dev.unitReady (d : Dev) (h : Nat) : Bool := decide (h < hearthCount) && (d.hearth h).exu.pend.isNone && !(d.hearth h).exu.unres

/-- A unit after an instruction that meets no fault and retires (R247, R251). -/
def Exu.done (x : Exu) (narrowOnly : Bool) (op : XOp) (w : XFields) : Exu := Exu.retire { (x.issue narrowOnly op).1 with pend := none } op w

/-- What a function sends reaches its host at once: nothing holds it back (R411, R412, R506, R572, R586). -/
def Dev.sends (d : Dev) (x : Nat) : Bool := !d.hostStopped && !d.sec.ideStop.any (fun s => s.2 == x) && !(d.fnGet x).d3hot

/-- A command of a queue marked as started (R399). -/
def Dev.begun (d : Dev) (x q cid : Nat) : Dev := d.cmdUpd x q cid (fun k => { k with started := true })

/-- No packet waits for a pause of its port to end (R347). -/
def Dev.unpaused (d : Dev) : Prop := ∀ h, h < 16 → (d.half h).held = []

/-- Every flow that an association brings has begun (R355). -/
def Dev.flowsBegun (d : Dev) (peer me : Nat) : Prop := ∀ f ∈ d.fab.rflows, f.me = me → f.sender = peer → f.fresh = false

/-- A packet of a kind that nothing of R335, R336 and R339 drops, on an association that is not due to acknowledge with it. -/
def Dev.lets (d : Dev) (k : VPkt) (kind : Nat) (a : Assoc) (v : VIn) : Prop :=
  d.unpaused ∧ (d.half k.half).up ∧ d.admitted k.addr ∧ parseVxp k.data = some v ∧ v.kind = kind ∧ d.listed v.src k.addr ∧ d.isMe v.dst ∧
    d.assocOf v.src v.dst = some a ∧ a.theirs = some v.id ∧ (kind = 1 → segOk a v) ∧ a.sinceAck < 15

/-- A request that a mailbox takes at once and that nothing of R454, R555 and R560 refuses. -/
def Dev.takes (d : Dev) (x op : Nat) (r : MbReq) : Prop :=
  d.mbReached x ∧ (d.mbox x).busy = none ∧ (d.mbox x).ready ∧ d.sec.halted = false ∧ d.start.banked = false ∧ d.mbReason x op r = 0

/-- What a mailbox shows once it has answered a request (R451, Table 15.5). -/
def Dev.answers (d : Dev) (x : Nat) (r : MbReq) (status detail flags handle : Nat) (payload : Bytes) : Prop :=
  (d.mbox x).busy = none ∧ (d.mbox x).doneSeq = r.seq ∧
    (d.mbox x).resp = natLE 2 status ++ natLE 2 r.seq ++ natLE 2 payload.length ++ natLE 2 flags ++ natLE 4 detail ++ natLE 4 handle ++ payload

/-- A table space in which this twin begins a commit without extents at once: its key is loaded, an epoch is reserved, and nothing is at its limit. -/
def Dev.mayCommit (d : Dev) (sp : TSpace) : Prop :=
  d.locked sp = false ∧ d.allocates sp ∧ sp.lastEpoch < maxEpoch ∧ sp.lastEpoch < sp.reserved ∧ (∀ k ∈ sp.tables, k.nextRow ≤ 2 ^ 48) ∧
    sp.nextExtent ≤ 2 ^ 40 ∧ d.store.commits = [] ∧
    (((d.store.spaces.filter (fun k => k.x == sp.x)).map (fun k => k.extents.length)).sum) ≤ (d.share sp.x).driveMib

/-- A commit of one epoch of a table space is under way (R422). -/
def Dev.commits (d : Dev) (ts epoch kind : Nat) (use : CommitFor) (change : Option CatChange) : Prop :=
  ∃ c ∈ d.store.commits, c.ts = ts ∧ c.epoch = epoch ∧ c.kind = kind ∧ c.use = use ∧ c.change = change ∧ c.st = .writing

/-- A frame of the twin link that is delivered (R499): it is next in seq order and a lane group is up. -/
def Dev.nextFrame (d : Dev) (seq : Nat) : Prop := (d.twin.up0 || d.twin.up1) ∧ seq = d.twin.rxNext

/-! ### Instructions of the expression unit -/

/-- The command that issues an operation on a hearth. -/
def XOp.cmd (h : Nat) (op : XOp) (w : XFields) (flt : Option XFault) : Instr :=
  match op with
  | .nop => .xNop h w flt | .endS => .xEnd h w flt | .brz => .xBrz h w flt | .brnz => .xBrnz h w flt | .brmz => .xBrmz h w flt
  | .setsel => .xSetsel h w flt | .outV => .xOut h w flt | .mout => .xMout h w flt | .eclr => .xEclr h w flt | .vld => .xVld h w flt
  | .vldf => .xVldf h w flt | .vld2 => .xVld2 h w flt | .vld3 => .xVld3 h w flt | .vld4 => .xVld4 h w flt | .tst => .xTst h w flt
  | .vrow => .xVrow h w flt | .mld => .xMld h w flt | .vldn => .xVldn h w flt | .vbc => .xVbc h w flt | .vbp => .xVbp h w flt
  | .slc => .xSlc h w flt | .slp => .xSlp h w flt | .sli => .xSli h w flt | .vbs => .xVbs h w flt | .viota => .xViota h w flt
  | .add => .xAdd h w flt | .sub => .xSub h w flt | .and => .xAnd h w flt | .or => .xOr h w flt | .xor => .xXor h w flt
  | .shl => .xShl h w flt | .shr => .xShr h w flt | .min => .xMin h w flt | .max => .xMax h w flt | .abs => .xAbs h w flt
  | .neg => .xNeg h w flt | .not => .xNot h w flt | .mul => .xMul h w flt | .mulh => .xMulh h w flt | .wmul => .xWmul h w flt
  | .dot8 => .xDot8 h w flt | .dot16 => .xDot16 h w flt | .div => .xDiv h w flt | .rem => .xRem h w flt | .divrem => .xDivrem h w flt
  | .fadd => .xFadd h w flt | .fsub => .xFsub h w flt | .fmul => .xFmul h w flt | .fdiv => .xFdiv h w flt | .fsqrt => .xFsqrt h w flt
  | .fma => .xFma h w flt | .fmin => .xFmin h w flt | .fmax => .xFmax h w flt | .fabs => .xFabs h w flt | .fneg => .xFneg h w flt
  | .cvt => .xCvt h w flt | .dadd => .xDadd h w flt | .dsub => .xDsub h w flt | .dmul => .xDmul h w flt | .ddiv => .xDdiv h w flt
  | .dscale => .xDscale h w flt | .padd => .xPadd h w flt | .psub => .xPsub h w flt | .pchk => .xPchk h w flt | .cmp => .xCmp h w flt
  | .vsel => .xVsel h w flt | .valid => .xValid h w flt | .setnull => .xSetnull h w flt | .mand => .xMand h w flt | .mor => .xMor h w flt
  | .mxor => .xMxor h w flt | .mandn => .xMandn h w flt | .mnot => .xMnot h w flt | .mmov => .xMmov h w flt | .mcnt => .xMcnt h w flt
  | .merr => .xMerr h w flt | .movf => .xMovf h w flt | .vgath => .xVgath h w flt | .vscat => .xVscat h w flt | .vlds => .xVlds h w flt
  | .vsts => .xVsts h w flt | .scmp => .xScmp h w flt | .spre => .xSpre h w flt | .ssuf => .xSsuf h w flt | .sfind => .xSfind h w flt
  | .slen => .xSlen h w flt | .strSsub => .xStrSsub h w flt | .rpm => .xRpm h w flt | .rpx => .xRpx h w flt | .cml => .xCml h w flt
  | .sadd => .xSadd h w flt | .scalSsub => .xScalSsub h w flt | .sand => .xSand h w flt | .sor => .xSor h w flt | .sxor => .xSxor h w flt
  | .sshl => .xSshl h w flt | .sshr => .xSshr h w flt | .smul => .xSmul h w flt | .smov => .xSmov h w flt | .slt => .xSlt h w flt
  | .sltu => .xSltu h w flt | .radd => .xRadd h w flt | .rmin => .xRmin h w flt | .rmax => .xRmax h w flt

/-- A well-formed word before a hearth's unit that issues the next instruction (R232, R252). -/
def Dev.issues (d : Dev) (h : Nat) (op : XOp) (w : XFields) : Prop := xWordOk op w = true ∧ d.unitReady h = true

/-- The part after an instruction differs from the part before in the hearth's unit and in that hearth's registers (Table 7.7) alone. -/
def Dev.unitOnly (a : Dev) (h : Nat) (b : Dev) : Prop :=
  b = { a with qry := { a.qry with hearths := b.qry.hearths }, regs := b.regs, tally := b.tally } ∧
    b.hearth h = { a.hearth h with exu := (b.hearth h).exu } ∧ (∀ k, k ≠ h → b.hearth k = a.hearth k) ∧
    (∀ r, (r < 0x02100000 + 0x1000 * h ∨ 0x02101000 + 0x1000 * h ≤ r) → b.reg r = a.reg r)

/-- The instruction retires: the command answers a next state that differs in the hearth's unit alone, of which P holds. -/
def Retires (i : Instr) (h : Nat) (s : State) (P : Exu → Prop) : Prop := Gives i s (fun d => P (d.hearth h).exu ∧ s.dev.unitOnly h d)

/-- The unit x as the next word finds it, with the power state that the unit y shows. -/
def Exu.moved (x y : Exu) : Exu :=
  { x with pos := x.pos + 1, rpe := 0, fixes := 0, wide := y.wide, wakeReq := y.wakeReq, activeWide := y.activeWide }

/-- Row i of a slice executes (R229). -/
def Exu.runs (x : Exu) (w : XFields) (i : Nat) : Bool := (x.execMask w).getLsbD i

/-- What an instruction leaves in the marks and the record of row i (R231, R282). -/
def Exu.marked (x y : Exu) (i : Nat) (ex : Bool) (o : LaneOut) : Prop :=
  y.err.getLsbD i = (x.err.getLsbD i || (ex && o.causes.any causeIsErr)) ∧
    y.ovf.getLsbD i = (x.ovf.getLsbD i || (ex && o.causes.any (fun c => !causeIsErr c))) ∧
    tabGet {} y.recs i = if ex then (tabGet {} x.recs i).add o.flags o.causes x.off else tabGet {} x.recs i

/-- Row i of a group after an instruction that writes it (R229): the row's result, or what it held where it does not execute. -/
def Exu.wrote (x y : Exu) (w : XFields) (t : XTy) (d i : Nat) (o : LaneOut) : Prop :=
  y.lane t d i = (if x.runs w i then o.val % 2 ^ t.laneBits else x.lane t d i) ∧ y.valid d i = (if x.runs w i then o.valid else x.valid d i)

/-- Every word of the register file outside the registers from d to e, and every validity tag of another group, is as it was. -/
def Exu.keepsV (x y : Exu) (d e : Nat) : Prop :=
  (∀ k, (k < 128 * d ∨ 128 * e ≤ k) → tabGet 0 y.v k = tabGet 0 x.v k) ∧ (∀ b, b ≠ d → tabGet 0 y.vld b = tabGet 0 x.vld b ∧ tabGet {} y.ann b = tabGet {} x.ann b)

/-- An instruction that gives row i of group d the result o and changes nothing but that group and the marks of the rows. -/
def Lane (c : Instr) (h : Nat) (w : XFields) (s : State) (t : XTy) (i : Nat) (o : LaneOut) : Prop :=
  Retires c h s (fun y =>
    let x := (s.dev.hearth h).exu
    x.wrote y w t w.d.toNat i o ∧ x.marked y i (x.runs w i) o ∧ x.keepsV y w.d.toNat (w.d.toNat + t.group) ∧
      y = { x.moved y with v := y.v, vld := y.vld, ann := y.ann, err := y.err, ovf := y.ovf, recs := y.recs })

/-- As `Lane`, for a group of strings: the row's string joins those that descriptors name (R242). -/
def LaneStr (c : Instr) (h : Nat) (w : XFields) (s : State) (i : Nat) (o : Option Bytes) (causes : List Nat) : Prop :=
  Retires c h s (fun y =>
    let x := (s.dev.hearth h).exu
    (x.runs w i = true → y.valid w.d.toNat i = o.isSome ∧ (∀ b, o = some b → y.str w.d.toNat i = b) ∧ (o = none → y.lane .str w.d.toNat i = 0)) ∧
      (x.runs w i = false → y.valid w.d.toNat i = x.valid w.d.toNat i ∧ y.lane .str w.d.toNat i = x.lane .str w.d.toNat i) ∧
      x.marked y i (x.runs w i) { causes := causes } ∧ x.keepsV y w.d.toNat (w.d.toNat + 2) ∧ x.heap <+: y.heap ∧
      y = { x.moved y with v := y.v, vld := y.vld, ann := y.ann, heap := y.heap, err := y.err, ovf := y.ovf, recs := y.recs })

/-- An instruction that gives row i of mask d the bit b, or keeps it where the row does not execute (R230), and changes no other mask. -/
def Row (c : Instr) (h : Nat) (w : XFields) (s : State) (i : Nat) (b : Bool) (causes : List Nat) : Prop :=
  Retires c h s (fun y =>
    let x := (s.dev.hearth h).exu
    (y.mGet w.d.toNat).getLsbD i = (if x.runs w i then b else (x.mGet w.d.toNat).getLsbD i) ∧ x.marked y i (x.runs w i) { causes := causes } ∧
      (∀ r, r ≠ w.d.toNat → y.mGet r = x.mGet r) ∧ y = { x.moved y with m := y.m, err := y.err, ovf := y.ovf, recs := y.recs })

/-- An instruction that writes a scalar (R226: S0 discards it) and nothing else. -/
def Scalar (c : Instr) (h : Nat) (w : XFields) (s : State) (v : Word64) : Prop :=
  Retires c h s (fun y =>
    let x := (s.dev.hearth h).exu
    y.sGet w.d.toNat = (if w.d = 0 then 0 else v) ∧ (∀ r, r ≠ w.d.toNat → y.sGet r = x.sGet r) ∧ y = { x.moved y with sr := y.sr })

/-- What row i gets from operands a and b: a null where one of them is null (R229). -/
def Exu.two (x : Exu) (w : XFields) (t : XTy) (i : Nat) (f : Nat → Nat → LaneOut) : LaneOut :=
  if x.valid w.a.toNat i = true ∧ x.valid w.b.toNat i = true then f (x.lane t w.a.toNat i) (x.lane t w.b.toNat i) else {}

/-- What row i gets from operand a: a null where it is null (R229). -/
def Exu.one (x : Exu) (w : XFields) (t : XTy) (i : Nat) (f : Nat → LaneOut) : LaneOut :=
  if x.valid w.a.toNat i = true then f (x.lane t w.a.toNat i) else {}

/-- What a unit keeps by number is in canonical form: registers, tags, masks, scalars, records, scratch and the care-mask table. -/
def Exu.wf (x : Exu) : Bool :=
  tabWf 0 x.v && tabWf 0 x.vld && tabWf {} x.ann && tabWf 0 x.m && tabWf 0 x.sr && tabWf {} x.recs && tabWf 0 x.scratch && tabWf {} x.cmt.units &&
    tabWf {} x.cmt.words

/-- Device memory in canonical form: addresses strictly rising, and no byte listed that an unlisted address reads as (R360: zeros). -/
def Memory.wf (m : Tab Byte) : Bool := tabWf 0 m

/-! ### Nothing due -/

/-- Nothing is due: no commit is open, no key is going, no system table waits to be applied, no request is parked and no table space moves. -/
def Dev.nothingDue (d : Dev) : Prop :=
  (∀ s ∈ d.store.spaces, d.closeSpace s.id = d) ∧ d.twin.xfer = none ∧ (∀ k ∈ d.sec.keys, k.going = none) ∧ d.mail.sysUpdate = none ∧ d.mail.parked = []

end Sys2Proof.Machine
end

