-- ==== Sys2Proof/Certificates/Slice0/Obligations.lean ====
section
/-!
DEFINITION. Sys2Proof/Certificates/Slice0/Obligations.lean: the statements for the provers. A clause of a statement names a command, what must
hold before it, and what it then does; `Gives` says that the command answers a next state of which that holds, `Effects` that what falls
due (Dev.tidy) follows.
-/
open Sys2Proof Sys2Proof.Machine

/-! ### Queue pairs (13_host_queues.md) -/

/-- Writes to a queue pair's control register, and the end of a reset (R394, R416).
Model choices that clauses rest on: notes/assumptions/ 104, 106, 184. -/
def Obligations.QueueControl : Prop :=
  (∀ s t x q, s.dev.serves x → s.dev.hasQueue x q → (s.dev.qp x q).state = .disabled →
    Gives (.queueEnable t x q) s (fun d => d.qp x q =
      if Dev.enableOk x (s.dev.qp x q) then
        { s.dev.qp x q with state := .active, reason := 0, sqHead := 0, sqTail := 0, cqHead := 0, cqTail := 0, posted := [] }
      else { s.dev.qp x q with reason := 0x20 })) ∧
  (∀ s t x q, s.dev.serves x → s.dev.hasQueue x q → (s.dev.qp x q).state = .active →
    Gives (.queueDisable t x q) s (fun d => d.qp x q =
      if (s.dev.qp x q).outstanding = 0 ∧ (s.dev.qp x q).sqHead = (s.dev.qp x q).sqTail then { s.dev.qp x q with state := .disabled } else s.dev.qp x q)) ∧
  (∀ s t x q, s.dev.serves x → s.dev.hasQueue x q → (s.dev.qp x q).state = .disabled →
    Effects (.queueReset t x q) s (fun d => d.qp x q = (s.dev.qp x q).cleared)) ∧
  (∀ s t x q, s.dev.serves x → s.dev.hasQueue x q → (s.dev.qp x q).state = .active ∨ (s.dev.qp x q).state = .error →
    (∀ c ∈ (s.dev.qp x q).cmds, c.past) →
    Effects (.queueReset t x q) s (fun d => d.qp x q = { s.dev.qp x q with state := .resetting })) ∧
  (∀ s t x q, (s.dev.qp x q).state = .resetting → (s.dev.qp x q).cmds = [] → (s.dev.qp x q).ready = [] →
    Gives (.queueResetDone t x q) s (fun d => d.qp x q = (s.dev.qp x q).cleared))

/-- Doorbells, completions and vectors (R396, R397, R408, R409, R411): a value within the ring moves the index, any other puts the queue into ERROR;
the oldest ready completion is written at the CQ tail, or the queue stalls while its CQ is full; the moderation timer sends the vector.
Model choices that clauses rest on: notes/assumptions/ 105, 106, 107. -/
def Obligations.DoorbellsAndCompletions : Prop :=
  (∀ s t x q v, s.dev.serves x → s.dev.hasQueue x q → (s.dev.qp x q).state = .active →
    Gives (.qpSqDoorbell t x q v) s (fun d =>
      let p := s.dev.qp x q
      d.qp x q =
        if v < 2 * p.sqN ∧ (v + 2 * p.sqN - p.sqTail) % (2 * p.sqN) ≤ p.sqN - p.unfetched then { p with sqTail := v }
        else { p with state := .error, reason := 0x10, errIndex := p.sqTail })) ∧
  (∀ s t x q v, s.dev.serves x → s.dev.hasQueue x q → (s.dev.qp x q).state ≠ .disabled →
    Gives (.qpCqDoorbell t x q v) s (fun d =>
      let p := s.dev.qp x q
      let k := (v + 2 * p.cqN - p.cqHead) % (2 * p.cqN)
      d.qp x q =
        if v < 2 * p.cqN ∧ k ≤ p.written then { p with cqHead := v, posted := p.posted.drop k, stalled := p.stalled && k == 0 }
        else { p with state := .error, reason := 0x11, errIndex := p.cqHead })) ∧
  (∀ s t x q c r, s.dev.sends x → (s.dev.qp x q).ready = c :: r → (c.acked ∨ s.dev.twin.alone) → !s.dev.twin.stopped →
    Gives (.completionPost t x q) s (fun d =>
      let p := s.dev.qp x q
      if p.written < p.cqN then
        (d.qp x q).cqTail = (p.cqTail + 1) % (2 * p.cqN) ∧ (d.qp x q).ready = r ∧ (d.qp x q).posted = p.posted ++ [(c.cid, c.isAbort)] ∧
        .hostWrite x (p.cqBase + 32 * (p.cqTail % p.cqN)) (c.entry.getD (complBytes p p.cqTail c)) ∈ d.out
      else d.qp x q = { p with stalled := true })) ∧
  (∀ s t x q, s.dev.sends x → (s.dev.qp x q).vectorEn → 0 < (s.dev.qp x q).unsignalled → bitsOf (s.dev.qp x q).modNow 31 16 ≠ 0 →
    (s.dev.qp x q).oldest + bitsOf (s.dev.qp x q).modNow 31 16 ≤ t → !(((s.dev.fnGet x).msixWord (4 * (s.dev.qp x q).cqVector + 3)).getLsbD 0) →
    Gives (.moderationTimeout t x q) s (fun d =>
      d.qp x q = { s.dev.qp x q with unsignalled := 0 } ∧ d.out = s.dev.out ++ [.vector x (s.dev.qp x q).cqVector]))


/-- QUERY_SUBMIT and IMAGE_FETCHED (R45, R139, R140, R407): the submission is recorded and its descriptor is read; an image that was fetched
and passes its digest and its checks enters the cache, and the parameter block is read.
Model choices that clauses rest on: notes/assumptions/ 44, 115, 161. -/
def Obligations.Submissions : Prop :=
  (∀ s t x q cid c sp, s.dev.mayStartCmd x q cid 0x01 = some c → s.dev.ownSpace x c.ts = .ok sp →
    Effects (.querySubmit t x q cid) s (fun d =>
      d.qry.subs = s.dev.qry.subs ++ [{ x := x, q := q, cid := cid, ts := c.ts }] ∧
      d.host.reads = s.dev.host.reads ++ [⟨s.dev.host.nextTag, x, q, cid, .descriptor, fieldAt c.entry 0x10 8, 256⟩] ∧
      d.out = s.dev.out ++ [.hostRead s.dev.host.nextTag x (fieldAt c.entry 0x10 8) 256] ∧
      d.qp x q = (s.dev.begun x q cid).qp x q ∧ d.store = s.dev.store ∧ d.mem = s.dev.mem)) ∧
  (∀ s t x q cid c st, s.dev.mayStartCmd x q cid 0x01 = some c → s.dev.ownSpace x c.ts = .error st →
    Effects (.querySubmit t x q cid) s (fun d => d.qry.subs = s.dev.qry.subs ∧ d = ((s.dev.at t).begun x q cid).failCmd x q cid st)) ∧
  (∀ s t x q cid sub b im l, s.dev.qry.subs = [sub] → sub.x = x → sub.q = q → sub.cid = cid → sub.missing → sub.fetched = some (some b) →
    sha 0 b = sub.descr.digest → structCheck s.dev.supports.1 s.dev.supports.2 sub.descr.imageBytes b = .ok im →
    s.dev.cacheHit (s.dev.groupKey x) sub.descr.digest = none → makeRoom 4096 s.dev.qry.cache b.length = some l →
    descrFits sub.descr im → s.dev.placeFault im = none → sub.descr.paramBytes ≠ 0 →
    Effects (.imageFetched t x q cid) s (fun d =>
      d.qry.cache = l ++ [{ group := s.dev.groupKey x, digest := sub.descr.digest, image := im, bytes := b.length, waits := [(x, q, cid)], used := s.dev.qry.cacheSeq }] ∧
      d.qry.subs = [{ sub with missing := false, fetched := none, image := some im }] ∧
      d.out = s.dev.out ++ [.hostRead s.dev.host.nextTag x sub.descr.paramAddr sub.descr.paramBytes])) ∧
  (∀ s t x q cid sub b, s.dev.qry.subs = [sub] → sub.x = x → sub.q = q → sub.cid = cid → sub.missing → sub.fetched = some (some b) →
    sha 0 b ≠ sub.descr.digest → s.dev.qry.cache.all (fun c => !c.waits.contains (x, q, cid)) →
    Effects (.imageFetched t x q cid) s (fun d => d.qry.subs = [] ∧ d.qry.cache = s.dev.qry.cache ∧ d.qry.queries = s.dev.qry.queries))

/-- INGEST, READ_PAGES, DIGEST and COMPRESS (R404 to R406, R426, R434): each records what it works on and reads its data.
Model choices that clauses rest on: notes/assumptions/ 41, 42, 45, 118. -/
def Obligations.DataCommands : Prop :=
  (∀ s t x q cid c sp, s.dev.mayStartCmd x q cid 0x02 = some c → s.dev.dataSpace x c.ts = .ok sp → isSlag (fieldAt c.entry 0x20 4) = false →
    (sp.table (fieldAt c.entry 0x20 4) c.bind).isSome →
    Effects (.ingest t x q cid) s (fun d =>
      d.ingest x q cid = some { x := x, q := q, cid := cid, ts := c.ts, table := fieldAt c.entry 0x20 4, framing := fieldAt c.entry 0x24 1
                                reject := fieldAt c.entry 0x25 1, want := c.data.length, bind := c.bind } ∧
      d.host.reads = s.dev.host.reads ++ (List.range c.data.length).map (fun i =>
        ⟨s.dev.host.nextTag + i, x, q, cid, .data i, (c.data.getD i (0, 0)).1, (c.data.getD i (0, 0)).2⟩))) ∧
  (∀ s t x q cid c sp, s.dev.mayStartCmd x q cid 0x02 = some c → s.dev.dataSpace x c.ts = .ok sp → isSlag (fieldAt c.entry 0x20 4) →
    Effects (.ingest t x q cid) s (fun d => d = ((s.dev.at t).begun x q cid).failCmd x q cid 0x2005)) ∧
  (∀ s t x q cid c sp e tb cc k dr n sc, s.dev.mayStartCmd x q cid 0x03 = some c → s.dev.dataSpace x c.ts = .ok sp →
    sp.readEpoch (fieldAt c.entry 0x30 8) = .ok e → sp.table (fieldAt c.entry 0x20 4) e = some tb → tb.column (fieldAt c.entry 0x24 2) e = some cc →
    (sp.extentsOf (fieldAt c.entry 0x20 4) (fieldAt c.entry 0x24 2) e).find? (fun y => y.num == fieldAt c.entry 0x28 8) = some k →
    s.dev.beyond k.group k.row = false → fieldAt c.entry 0x26 1 = n → fieldAt c.entry 0x27 1 = 1 → n < k.slots → s.dev.schemeOf k.group = sc →
    s.dev.memberRead k.group ((16 * n / stripBlocks sc + k.row) % (schemeK sc + schemeM sc)) k.row = some dr →
    Effects (.readPages t x q cid) s (fun d =>
      d.host.pageJobs = s.dev.host.pageJobs ++ [{ x := x, q := q, cid := cid, ts := c.ts, epoch := e, first := n, pages := [k.slotBytes n] }] ∧
      d.store.dcmds = s.dev.store.dcmds ++ [{ id := s.dev.store.nextCmd, drive := dr, write := false
                                              lba := 16384 + k.row * stripBlocks sc + 16 * n % stripBlocks sc, blocks := 16, use := .pages x q cid
                                              group := k.group, row := k.row, pos := (16 * n / stripBlocks sc + k.row) % (schemeK sc + schemeM sc)
                                              issued := max s.dev.timeUs t
                                              what := { ts := c.ts, ext := k.num, group := k.group, row := k.row, first := 16 * n, blocks := 16 } }] ∧
      .drive s.dev.store.nextCmd ∈ d.out)) ∧
  (∀ s t x q cid c, s.dev.mayStartCmd x q cid 0x07 = some c → s.dev.job x q cid = none → fieldAt c.entry 0x21 1 = 0 → c.data ≠ [] →
    Gives (.digest t x q cid) s (fun d =>
      d.job x q cid = some { x := x, q := q, cid := cid, op := .digest (fieldAt c.entry 0x20 1) (fieldAt c.entry 0x30 8), want := c.data.length } ∧
      d.host.reads = s.dev.host.reads ++ (List.range c.data.length).map (fun i =>
        ⟨s.dev.host.nextTag + i, x, q, cid, .data i, (c.data.getD i (0, 0)).1, (c.data.getD i (0, 0)).2⟩))) ∧
  (∀ s t x q cid c, s.dev.mayStartCmd x q cid 0x08 = some c → s.dev.job x q cid = none → c.data ≠ [] →
    Gives (.compress t x q cid) s (fun d =>
      d.job x q cid = some { x := x, q := q, cid := cid, op := .compress (fieldAt c.entry 0x20 1) (fieldAt c.entry 0x28 8) (fieldAt c.entry 0x30 8)
                             want := c.data.length } ∧
      d.host.reads = s.dev.host.reads ++ (List.range c.data.length).map (fun i =>
        ⟨s.dev.host.nextTag + i, x, q, cid, .data i, (c.data.getD i (0, 0)).1, (c.data.getD i (0, 0)).2⟩))) ∧
  (∀ s t tag r b j, s.dev.host.reads.find? (fun k => k.tag == tag) = some r → r.use = .data 0 → s.dev.job r.x r.q r.cid = some j →
    j.bad = false → j.pieces.length + 1 < j.want →
    Effects (.hostReadCompletion t tag (some b)) s (fun d =>
      d.job r.x r.q r.cid = some { j with pieces := j.pieces ++ [(0, b)] } ∧ d.host.reads = s.dev.host.reads.filter (fun k => k.tag != tag) ∧
      d.out = s.dev.out))

/-- FLUSH, ABORT and SNAPSHOT on a device that runs alone (R68, R70, R414, R415): a FLUSH with nothing before it completes; an ABORT ends a
command that has not passed its point of no return, or says why it cannot; a SNAPSHOT takes or releases a hold.
Model choices that clauses rest on: notes/assumptions/ 49, 103, 120. -/
def Obligations.OrderCommands : Prop :=
  (∀ s t x q cid c, s.dev.twin.alone → s.dev.mayStartCmd x q cid 0x04 = some c → s.dev.qpsOf x = [(q, s.dev.qp x q)] → q < 8192 →
    (s.dev.qp x q).cmds = [c] → (s.dev.qp x q).state = .active → c.cid = cid → c.commits = false →
    Gives (.flush t x q cid) s (fun d => (d.qp x q).cmds = [] ∧ (d.qp x q).ready = (s.dev.qp x q).ready ++ [{ cid := cid }])) ∧
  (∀ s t x q cid c k, s.dev.twin.alone → s.dev.mayStartCmd x q cid 0x05 = some c → (s.dev.qp x q).cmds = [k, c] → c.cid = cid → k.cid ≠ cid → c.commits = false →
    k.commits = false →
    s.dev.qpsOf x = [(q, s.dev.qp x q)] → fieldAt c.entry 0x20 2 = q → fieldAt c.entry 0x22 2 = k.cid → k.op = 0x07 → k.past = false →
    s.dev.openCommit x q k.cid = none → (∀ y ∈ s.dev.qry.queries, ¬ (y.x = x ∧ y.q = q ∧ y.cid = k.cid)) →
    Effects (.abort t x q cid) s (fun d => (d.qp x q).cmds = [] ∧
      (d.qp x q).ready = (s.dev.qp x q).ready ++ [{ cid := k.cid, status := 0x1004 }, { cid := cid, r0 := q + 65536 * k.cid, isAbort := true }])) ∧
  (∀ s t x q cid c, s.dev.twin.alone → s.dev.mayStartCmd x q cid 0x05 = some c → (s.dev.qp x q).cmds = [c] → c.cid = cid → c.commits = false →
    s.dev.qpsOf x = [(q, s.dev.qp x q)] → fieldAt c.entry 0x20 2 = q → fieldAt c.entry 0x22 2 ≠ cid → (s.dev.qp x q).ready = [] → (s.dev.qp x q).posted = [] →
    Effects (.abort t x q cid) s (fun d => (d.qp x q).cmds = [] ∧
      (d.qp x q).ready = [{ cid := cid, status := 0x2050, r0 := q + 65536 * fieldAt c.entry 0x22 2, isAbort := true }])) ∧
  (∀ s t x q cid c sp e, s.dev.twin.alone → s.dev.mayStartCmd x q cid 0x06 = some c → s.dev.ownSpace x c.ts = .ok sp → fieldAt c.entry 0x20 1 = 0 →
    sp.readEpoch (fieldAt c.entry 0x28 8) = .ok e → (s.dev.store.holds.filter (fun h => h.x == x)).length < 64 →
    Gives (.snapshot t x q cid) s (fun d =>
      d.store.holds = s.dev.store.holds ++ [⟨2 * s.dev.store.nextHold + s.dev.twin.pos, x, c.ts, e⟩] ∧ d.store.nextHold = s.dev.store.nextHold + 1 ∧
      d.store.spaces = s.dev.store.spaces ∧
      d.qp x q = ((s.dev.begun x q cid).complete x q cid { r0 := e, r1 := 2 * s.dev.store.nextHold + s.dev.twin.pos }).qp x q)) ∧
  (∀ s t x q cid c sp h, s.dev.twin.alone → s.dev.mayStartCmd x q cid 0x06 = some c → s.dev.ownSpace x c.ts = .ok sp → fieldAt c.entry 0x20 1 ≠ 0 →
    s.dev.store.holds.find? (fun k => k.id == fieldAt c.entry 0x30 8 && k.x == x && k.ts == c.ts) = some h →
    Gives (.snapshot t x q cid) s (fun d =>
      d.store.holds = s.dev.store.holds.filter (fun k => k.id != fieldAt c.entry 0x30 8) ∧
      d.qp x q = ((s.dev.begun x q cid).complete x q cid {}).qp x q))

/-- Fetching entries (R399 to R401, R412, R528): in the arbiter's turn a checked entry becomes a command of its queue; a malformed one completes
with MALFORMED_ENTRY and puts the queue into ERROR.
Model choices that clauses rest on: notes/assumptions/ 43. -/
def Obligations.Fetching : Prop :=
  (∀ s t port f x q k1 r l e, s.dev.nextQueue port 256 ((tabGet [] s.dev.host.pass port).headD 254) ((tabGet [] s.dev.host.pass port).drop 1) = some (qpKey x q, k1, r) →
    q < 8192 → (s.dev.qp x q).state = .active → (s.dev.qp x q).unfetched ≠ 0 → checkEntry (s.dev.qp x q) f = .ok l → f.entry = some e →
    s.dev.pwr.mode ≠ 3 → s.dev.pwr.mode ≠ 7 →
    After Dev.autoMode (.entryFetch t port [f]) s (fun d =>
      d.qp x q = { s.dev.qp x q with
        sqHead := ((s.dev.qp x q).sqHead + 1) % (2 * (s.dev.qp x q).sqN)
        cmds := (s.dev.qp x q).cmds ++ [{ cid := fieldAt e 2 2, idx := (s.dev.qp x q).sqHead, op := fieldAt e 0 1, entry := e, data := l
                                          seq := s.dev.host.nextSeq, commits := fieldAt e 0 1 == 1 || fieldAt e 0 1 == 2
                                          bind := s.dev.visibleOf (fieldAt e 8 4) }] } ∧
      d.host.nextSeq = s.dev.host.nextSeq + 1 ∧ tabGet [] d.host.pass port = k1 :: r)) ∧
  (∀ s t port f x q k1 r rs e, s.dev.nextQueue port 256 ((tabGet [] s.dev.host.pass port).headD 254) ((tabGet [] s.dev.host.pass port).drop 1) = some (qpKey x q, k1, r) →
    q < 8192 → (s.dev.qp x q).state = .active → (s.dev.qp x q).unfetched ≠ 0 → checkEntry (s.dev.qp x q) f = .error rs → f.entry = some e → s.dev.twin.alone →
    After Dev.autoMode (.entryFetch t port [f]) s (fun d =>
      d.qp x q = { s.dev.qp x q with
        sqHead := ((s.dev.qp x q).sqHead + 1) % (2 * (s.dev.qp x q).sqN), state := .error, reason := rs, errIndex := (s.dev.qp x q).sqHead
        ready := (s.dev.qp x q).ready ++ [{ cid := fieldAt e 2 2, status := 0x2001, detail := (s.dev.qp x q).sqHead, reason := rs }] } ∧
      bitOf (d.fnGet x).event 0 ∧ (d.fnGet x).eventQueue = q))

/-- Functions and their registers (R390 to R392, R412, R481): D3hot holds what a function sends and D0 lets it go; a word of BAR0 is written under
its access type, and an access that R390 refuses is counted; ATS invalidations are answered; a host read of FN_BAD_ACCESS clears it, the doorbells read 0, and a
refused read reads 0 and is counted.
Model choices that clauses rest on: notes/assumptions/ 36, 105, 106. -/
def Obligations.FunctionRegisters : Prop :=
  (∀ s t x, s.dev.serves x → (∀ p ∈ s.dev.qpsOf x, p.2.unsignalled = 0) →
    Gives (.d3hotEntry t x) s (fun d => d.fnGet x = { s.dev.fnGet x with d3hot := true } ∧ d.out = s.dev.out)) ∧
  (∀ s t x, s.dev.serves x → (∀ o ∈ (s.dev.fnGet x).held, ∃ y a b, o = .hostWrite y a b) →
    Gives (.d0Return t x) s (fun d => d.fnGet x = { s.dev.fnGet x with d3hot := false, held := [], pmeSent := false } ∧
      d.out = s.dev.out ++ (s.dev.fnGet x).held)) ∧
  (∀ s t x v, s.dev.serves x → Gives (.registerWrite t x 0x10 4 v) s (fun d => d.fnGet x = { s.dev.fnGet x with eventMask := v % 2 ^ 32 % 8 })) ∧
  (∀ s t x v i, s.dev.serves x → i < 3 → Gives (.registerWrite t x 0x0C 4 v) s (fun d =>
    bitOf (d.fnGet x).event i = (bitOf (s.dev.fnGet x).event i && !bitOf (v % 2 ^ 32) i))) ∧
  (∀ s t x q v, s.dev.serves x → s.dev.hasQueue x q → barQp x + 64 * q < barSize x → (s.dev.qp x q).state = .disabled → v < 2 ^ 32 →
    Gives (.registerWrite t x (barQp x + 64 * q) 4 v) s (fun d =>
      d.qp x q = { s.dev.qp x q with sqBase := (s.dev.qp x q).sqBase / 2 ^ 32 * 2 ^ 32 + v })) ∧
  (∀ s t x q v, s.dev.serves x → s.dev.hasQueue x q → barQp x + 64 * q < barSize x → (s.dev.qp x q).state ≠ .disabled → v < 2 ^ 32 →
    Gives (.registerWrite t x (barQp x + 64 * q) 4 v) s (fun d => d = s.dev.at t)) ∧
  (∀ s t x o v, s.dev.serves x → o < barMsix x → mailArea x o = false → ¬ (x = 0 ∧ 0x2000 ≤ o ∧ o < 0x3000) →
    Gives (.registerWrite t x o 2 v) s (fun d => (d.fnGet x).bad = satAdd 32 (s.dev.fnGet x).bad 1 ∧ bitOf (d.fnGet x).event 2)) ∧
  (∀ s t x a, s.dev.serves x → Gives (.atsInvalidation t x a) s (fun d => d = (s.dev.at t).send (.ats x a))) ∧
  (∀ (d : Dev) x, (d.hostLoad x 0x1C 4).1 = (d.fnGet x).bad ∧ ((d.hostLoad x 0x1C 4).2.fnGet x) = { d.fnGet x with bad := 0 }) ∧
  (∀ (d : Dev) x q, barQp x + 64 * q + 0x34 < barSize x → d.hostLoad x (barQp x + 64 * q + 0x30) 4 = (0, d) ∧ d.hostLoad x (barQp x + 64 * q + 0x34) 4 = (0, d)) ∧
  (∀ (d : Dev) x o, o < barMsix x → mailArea x o = false → ¬ (x = 0 ∧ 0x2000 ≤ o ∧ o < 0x3000) →
    (d.hostLoad x o 2).1 = 0 ∧ ((d.hostLoad x o 2).2.fnGet x).bad = satAdd 32 (d.fnGet x).bad 1)

/-- Function resets, SR-IOV and PERST# (R457, R481, R491 to R493, R543, R625): nothing of a function in reset goes on, and when no charge of it runs
its queues, registers and interrupts take their reset values and the PF is told; VF Enable or a higher NumVFs makes VFs usable, a lower one resets
those it removes; PERST# resets a port's PF and VFs.
Model choices that clauses rest on: notes/assumptions/ 104, 108. -/
def Obligations.FunctionResets : Prop :=
  (∀ s t x, s.dev.serves x → isVf x → s.dev.inReset x = false → s.dev.store.commits = [] → s.dev.runningOps = [] →
    s.dev.twin.xfer = none → (∀ k ∈ s.dev.qry.queries, k.x ≠ x) → (∀ p ∈ s.dev.qpsOf x, p.2.cmds = []) →
    Effects (.functionReset t x) s (fun d =>
      d.fn = { s.dev.fn with resetting := s.dev.fn.resetting ++ [(x, max s.dev.timeUs t)] } ∧
      (d.mbox x).ready = false ∧ (d.mbox x).session = none ∧ (d.mbox x).busy = none ∧ (d.mbox x).events = [] ∧ (d.mbox x).held = none ∧
      (∀ q, q < 8192 → (d.qp x q).cmds = [] ∧ (d.qp x q).unsignalled = 0) ∧ d.out = s.dev.out)) ∧
  (∀ s t h clocks r q b, (s.dev.hearth h).running = some r → s.dev.query r.query = some q → (q.x, b) ∈ s.dev.fn.resetting → b + 5000 ≤ max s.dev.timeUs t →
    Effects (.functionResetAbandon t h clocks) s (fun d => d = (s.dev.at t).cancelRunning h clocks)) ∧
  (∀ s t x b, x < 513 → isVf x → s.dev.fnExists x → s.dev.fn.resetting = [(x, b)] → (∀ k ∈ s.dev.qry.queries, k.x ≠ x) →
    (∀ c ∈ s.dev.mail.claims, c.x ≠ x) → s.dev.start.service → s.dev.mail.activating = none →
    After (fun d => (d.mbTake x).tidy) (.vfResetDone t x) s (fun d =>
      d.fn = { s.dev.fn with
        resetting := [], leaving := s.dev.fn.leaving.filter (· != x)
        queues := if s.dev.fn.leaving.contains x then tabSet 0 s.dev.fn.queues x 0 else s.dev.fn.queues } ∧
      d.fnGet x = {} ∧ (∀ q, q < 8192 → d.qp x q = {}) ∧ (∀ h ∈ d.store.holds, h.x ≠ x) ∧
      (d.mbox x).ready = true ∧ ((d.mbox 0).events.getLast?).map (fun e => (e.code, e.object, e.data)) = some (0x0110, x, max s.dev.timeUs t - b))) ∧
  (∀ s t port n, port < 2 → tabGet 0 s.dev.fn.numVfs port < n → n ≤ 512 → !s.dev.start.banked →
    After Dev.mbTakeAll (.vfEnable t port n) s (fun d =>
      tabGet 0 d.fn.numVfs port = n ∧
      (∀ i, tabGet 0 s.dev.fn.numVfs port ≤ i → i < n → (d.mbox (pfOf port + i + 1)).ready =
        (s.dev.start.service && s.dev.mail.activating.isNone && !s.dev.inReset (pfOf port + i + 1))) ∧
      (∀ i, i < n → pfOf port + i + 1 ∈ d.fn.seen) ∧ d.out = s.dev.out)) ∧
  (∀ s t port n, port < 2 → n < tabGet 0 s.dev.fn.numVfs port → tabGet 0 s.dev.fn.numVfs port ≤ 512 →
    s.dev.store.commits = [] → s.dev.qry.queries = [] → s.dev.runningOps = [] → s.dev.host.qps = [] →
    Effects (.vfDisable t port n) s (fun d =>
      tabGet 0 d.fn.numVfs port = n ∧
      (∀ i, n ≤ i → i < tabGet 0 s.dev.fn.numVfs port → d.inReset (pfOf port + i + 1) ∧ pfOf port + i + 1 ∈ d.fn.leaving) ∧
      (∀ x, d.inReset x → s.dev.inReset x ∨ ∃ i, n ≤ i ∧ i < tabGet 0 s.dev.fn.numVfs port ∧ x = pfOf port + i + 1))) ∧
  (∀ s t port, s.dev.pwr.sysGood → port < 2 → tabGet 0 s.dev.fn.numVfs port = 0 → s.dev.store.commits = [] → s.dev.qry.queries = [] →
    s.dev.runningOps = [] → s.dev.host.qps = [] → s.dev.rx4.hearth = none → s.dev.rx4.run = none →
    s.dev.inReset (pfOf port) = false →
    Effects (.perstAssert t port) s (fun d =>
      d.link port = { s.dev.link port with up := false, perst := true, held := false, recovering := false } ∧ d.inReset (pfOf port) ∧
      (d.mbox (pfOf port)).ready = false))

/-- Result rings as the host reads them (R170, R171, R174): a poll takes consumed_count and places what then has room; the oldest closed buffer is
counted once its charges are held.
Model choices that clauses rest on: notes/assumptions/ 105, 119. -/
def Obligations.ResultRings : Prop :=
  (∀ s t id e v q r, s.dev.query id = some q → q.ending = none → q.rings[e]? = some r → r.stalled → r.wait = [] → r.ended = false →
    (s.dev.fnGet q.x).d3hot = false → s.dev.sends q.x →
    After (fun d => (d.advance id).tidy) (.ringStallPoll t id e (some v)) s (fun d =>
      (d.query id).bind (fun q => q.rings[e]?) = some { r with consumed := v, stalled := false } ∧
      d.out = s.dev.out ++ [.hostWrite q.x (r.addr + 0x20) [0, 0]] ∧ (∀ k ∈ d.qry.delays, ¬ (k.list = 2 ∧ k.tag = id * 16 + e)))) ∧
  (∀ s t id e q r b rest, s.dev.query id = some q → q.ending = none → q.rings[e]? = some r → r.closed = b :: rest → b.charges = [] → s.dev.sends q.x →
    b.last = false → r.vector = 0xFFFF →
    After (fun d => (d.advance id).tidy) (.producedCountAdvance t id e) s (fun d =>
      (d.query id).bind (fun q => q.rings[e]?) = some { r with closed := rest, produced := b.num + 1 } ∧
      d.out = s.dev.out ++ [.hostWrite q.x (r.bufAddr b.num) (bufHeader e b q.epoch q.cid), .hostWrite q.x (r.addr + 0x18) (natLE 8 (b.num + 1))]))

/-! ### Charges and the scheduler (10_charges.md) -/

/-- Cutting and slots (R305, R311, R312): a charge cut from what a stage has to do is READY with its index; an emptied slot takes the charge that the
order of R312 picks.
Model choices that clauses rest on: notes/assumptions/ 110, 164. -/
def Obligations.CuttingAndSlots : Prop :=
  (∀ s t id i perUnit once q c st, s.dev.query id = some q → i < q.stages.length → q.ending = none → q.refetch = false → (q.stage i).waiting < 64 →
    s.dev.nextCut q i ⟨perUnit, once⟩ = some (c, st) → c.input.any (·.void) = false → c.idx < 2 ^ 48 →
    Gives (.chargeCut t id i perUnit once) s (fun d =>
      (d.query id).map (·.stage i) = some { st with charges := st.charges ++
        [{ c with since := max s.dev.timeUs t, state := .ready }] } ∧ d.store = s.dev.store ∧ d.host = s.dev.host)) ∧
  (∀ s t h c q k, s.dev.worksOn h → (s.dev.hearth h).slots.length < 2 → s.dev.slotPick h = some c → s.dev.query c.ref.query = some q →
    c.ref.stage < q.stages.length → s.dev.charge c.ref = some k →
    Gives (.slotFill t h) s (fun d =>
      (d.hearth h).slots = (s.dev.hearth h).slots ++ [c.ref] ∧
      (d.charge c.ref).map (fun k => (k.state, k.hearth, k.slot)) = some (.slotted, some h, (s.dev.hearth h).slots.length) ∧
      d.host = s.dev.host))

/-- Starting and stealing (R311, R313): the charge of the older slot runs; an idle hearth takes a charge that has waited 50 µs, and it starts there
as CHARGE_START has it.
Model choices that clauses rest on: notes/assumptions/ 171. -/
def Obligations.StartingCharges : Prop :=
  (∀ s t h r rest q c, s.dev.worksOn h → s.dev.mail.activating = none → (s.dev.hearth h).running = none → (s.dev.hearth h).slots = r :: rest →
    s.dev.query r.query = some q → r.stage < q.stages.length → s.dev.mayStart q r.stage → s.dev.exchFault q r.stage = none → s.dev.charge r = some c → (∀ k ∈ c.input, k.src = none) →
    (s.dev.usesKey q r.stage c && s.dev.lockedTs q.ts) = false → (∀ p ∈ s.dev.chargeSlots q r.stage c, s.dev.beyond p.1.group p.1.row = false) →
    Effects (.chargeStart t h) s (fun d =>
      (d.hearth h).running = some r ∧ (d.hearth h).slots = (r :: rest).filter (· != r) ∧
      (d.charge r).map (fun k => (k.state, k.hearth)) = some (.running, some h))) ∧
  (∀ s t h c q k, s.dev.worksOn h → (s.dev.hearth h).running = none → (s.dev.hearth h).slots = [] → (s.dev.at t).stealPick h = some c →
    s.dev.query c.ref.query = some q → c.ref.stage < q.stages.length → s.dev.charge c.ref = some k → k.hearth = none →
    After (fun d => (d.startCharge h).tidy) (.steal t h) s (fun d =>
      (d.hearth h).slots = [c.ref] ∧ (d.charge c.ref).map (fun k => (k.state, k.hearth, k.slot)) = some (.slotted, some h, 0) ∧
      d.regN 0x02400008 = satAdd 32 (s.dev.regN 0x02400008) 1))

/-- A charge completes and is released (R307, R308, R316, R319): its hearth is free, its function's virtual time grows by its clocks, and its
checkpoint is kept; in an ordered stage of a device that runs alone it is held until its turn, and then the stage it feeds has its output.
Model choices that clauses rest on: notes/assumptions/ 119. -/
def Obligations.CompletionAndRelease : Prop :=
  (∀ s t h clocks r q c o, (s.dev.hearth h).running = some r → s.dev.query r.query = some q → s.dev.charge r = some c → r.stage < q.stages.length →
    s.dev.store.dcmds = [] → s.dev.chargeEngine q r.stage c = none → (s.dev.hearth h).powered → (s.dev.hearth h).exu.unres = false →
    (s.dev.hearth h).exu.pend = none → c.cancel = none → q.ending = none → s.dev.lockedTs q.ts = false → c.lost = none → c.todo.getD [] = [] →
    (((s.dev.at t).runCode h).hearth h).exu.unres = false →
    ((s.dev.at t).runCode h).chargeOut q r.stage c (((s.dev.at t).runCode h).hearth h).exu = .ok o → o.unres = false → o.cmt = none →
    q.resume = [] → (q.image.stages.getD r.stage {}).ordered → (q.image.stages.getD r.stage {}).op ≠ 0x13 → (q.image.stages.getD r.stage {}).op ≠ 0x11 →
    r.gather = false → s.dev.twin.alone → c.told = false → c.held = false →
    After (fun d => (((s.dev.at t).onHearth h (fun _ => d.advance r.query)).tidy).autoMode) (.chargeDone t h { clocks := clocks }) s (fun d =>
      (d.hearth h).running = none ∧
      (d.charge r).map (fun k => (k.state, k.hearth, k.held, k.out, k.ck.isSome)) = some (.held, none, true, o.out, true) ∧
      d.vOf q.x = (s.dev.vOf q.x + clocks * 65536 / max 1 (s.dev.share q.x).hearthWeight) % 2 ^ 64)) ∧
  (∀ s t id i j q c e, s.dev.query id = some q → i < q.stages.length → j < q.stages.length → i ≠ j → (q.image.stages.getD i {}).ordered →
    (q.stage i).charge false (q.stage i).nextRel = some c → c.state = .held → c.work = .flow → (q.image.stages.getD i {}).op = 0x03 →
    q.image.edges.filter (fun e => e.src == i) = [e] → e.srcPort < (q.image.stages.getD i {}).outP → e.dst = j →
    (q.image.stages.getD j {}).op ≠ 0x0F → (q.image.stages.getD j {}).op ≠ 0x01 →
    After (fun d => (d.advance id).tidy) (.release t id i) s (fun d =>
      (d.query id).map (fun k => ((k.stage i).nextRel, (k.stage j).inq)) = some ((q.stage i).nextRel + 1, (q.stage j).inq ++
        [{ port := e.dstPort, up := c.idx, billets := c.out, ranges := c.outRanges }]) ∧
      (d.charge ⟨id, i, c.idx, .flow⟩).map (·.state) = some .released))

/-- Cancellation and restart (R309, R310, R316, R327): at a step boundary a cancelled charge leaves its hearth; an attempt that met an unresolvable
fault returns its charge to READY, not to run on that hearth again; masters that write one scratchpad word in one clock end the attempt, and are
counted, where the stage declares no shared region (R375), and so does poisoned data (R587).
Model choices that clauses rest on: notes/assumptions/ 109, 165, 170, 182. -/
def Obligations.CancelAndRestart : Prop :=
  (∀ s t h clocks r q c cause, (s.dev.hearth h).running = some r → s.dev.query r.query = some q → s.dev.charge r = some c → r.stage < q.stages.length →
    c.state = .running → c.cancel = some cause → c.hearth = some h →
    After (fun d => (d.advance r.query).tidy) (.cancel t h clocks) s (fun d =>
      (d.hearth h).running = none ∧ (d.charge r).map (fun k => (k.state, k.out)) = some (.cancelled, []) ∧
      d.vOf q.x = (s.dev.vOf q.x + clocks * 65536 / max 1 (s.dev.share q.x).hearthWeight) % 2 ^ 64)) ∧
  (∀ s t h clocks r q c, (s.dev.hearth h).exu.unres → (s.dev.hearth h).running = some r → s.dev.query r.query = some q → s.dev.charge r = some c →
    r.stage < q.stages.length → c.cancel = none → c.tries < 3 →
    Effects (.restart t h clocks) s (fun d =>
      (d.hearth h).running = none ∧ (d.hearth h).exu.unres = false ∧
      (d.charge r).map (fun k => (k.state, k.tries, k.failedOn, k.hearth)) = some (.ready, c.tries + 1, c.failedOn ++ [h], none) ∧
      d.regN 0x0240000C = satAdd 32 (s.dev.regN 0x0240000C) 1)) ∧
  (∀ s t h clocks r q c, (s.dev.hearth h).exu.unres → (s.dev.hearth h).running = some r → s.dev.query r.query = some q → s.dev.charge r = some c →
    r.stage < q.stages.length → c.cancel = none → c.tries = 3 → c.state = .running → q.ending = none →
    After (fun d => (d.advance r.query).tidy) (.restart t h clocks) s (fun d =>
      (d.hearth h).running = none ∧ (d.charge r).map (·.state) = some .cancelled ∧
      (d.query r.query).bind (·.ending) = some { status := 0x5006, detail := r.stage })) ∧
  (∀ s t h used r q c, h < 36 → (s.dev.hearth h).running = some r → s.dev.query r.query = some q → s.dev.charge r = some c → s.dev.store.dcmds = [] →
    s.dev.chargeEngine q r.stage c = none → (s.dev.hearth h).powered → (s.dev.hearth h).exu.unres = false → (s.dev.hearth h).exu.pend = none →
    c.cancel = none → q.ending = none → 
    (used.meets.any (·.sameWord) ∧ bitOf (q.image.resources.getD (q.image.stages.getD r.stage {}).res {}).flags 0 = false) ∨
      (used.meets = [] ∧ used.poison ∧ (q.image.stages.getD r.stage {}).op ≠ 0x13) → (s.dev.hearth h).unresAt = [] → s.dev.recovers 1 h = false →
    After (fun d => d.tidy.autoMode) (.chargeDone t h used) s (fun d =>
      (d.hearth h).running = some r ∧ (d.hearth h).exu.unres ∧ (1, h) ∈ d.health.recovering ∧
      d.regN (0x02100218 + 0x1000 * h) = satAdd 32 (s.dev.regN (0x02100218 + 0x1000 * h)) (used.meets.filter (·.sameWord)).length))

/-- Delay lists (R322 to R326): an entry that is due fires or is armed again with what remains; an insertion into a full list is counted and
waits, and enters at the tick after the one that makes room.
Model choices that clauses rest on: notes/assumptions/ 135. -/
def Obligations.DelayLists : Prop :=
  (∀ s t l v e, s.dev.nextDelay l = some e → e.due ≤ max s.dev.timeUs t / 10 → e.rest ≠ 0 →
    Effects (.delayFire t l v) s (fun d =>
      d.qry.delays = (roomMade l (s.dev.at t).nowTick (s.dev.qry.delays.erase e)).1 ++
        [⟨l, e.due + min e.rest delayHorizon, e.tag, e.rest - min e.rest delayHorizon, none⟩])) ∧
  (∀ s t v e k, s.dev.nextDelay 0 = some e → e.due ≤ max s.dev.timeUs t / 10 → e.rest = 0 → s.dev.dcmd e.tag = some k → k.waiting →
    (s.dev.drive k.drive).waking = false →
    Effects (.delayFire t 0 v) s (fun d => (d.dcmd e.tag).map (·.waiting) = some false ∧ .drive e.tag ∈ d.out ∧
      (∀ y ∈ d.qry.delays, ¬ (y.list = 0 ∧ y.tag = e.tag)))) ∧
  (∀ s t l v e, s.dev.nextDelay l = some e → max s.dev.timeUs t / 10 < e.due → Effects (.delayFire t l v) s (fun d => d = s.dev.at t)) ∧
  (∀ s t l ticks tag, 4096 ≤ s.dev.delayCount l →
    Gives (.delayFull t l ticks tag) s (fun d =>
      d.qry.delays = s.dev.qry.delays ++ [⟨l, min ticks delayHorizon, tag, ticks - min ticks delayHorizon, some (s.dev.at t).nowTick⟩] ∧
      d.regN 0x02400090 = satAdd 32 (s.dev.regN 0x02400090) 1)) ∧
  (∀ s t v e es w k, s.dev.nextDelay 7 = some e → e.due ≤ max s.dev.timeUs t / 10 → e.rest = 0 → s.dev.qry.delays.erase e = es ++ [w] →
    (es.filter (·.list == 7)).length < 4096 → (∀ y ∈ es, y.list = 7 → y.tried = none) → w.list = 7 → w.tried = some k →
    Effects (.delayFire t 7 v) s (fun d =>
      d.qry.delays = es ++ [⟨7, (s.dev.at t).nowTick + 1 + w.due, w.tag, w.rest, none⟩]))

/-- The decision trace and the shared engines (R101, R330, R406, R467): setting enable zeroes TRACE_HEAD and TRACE_TAIL and counts as a write, a compare
that fails changes no register; after a block the next holder is served, and a command's message ends with its last block, or with a poisoned
one and DEVICE_FAULT (R587).
Model choices that clauses rest on: notes/assumptions/ 117, 132, 182. -/
def Obligations.TraceAndEngines : Prop :=
  (∀ s t x value, s.dev.start.service → s.dev.hostStopped = false → s.dev.regN 0x02400040 % 2 = 0 →
    Gives (.traceEnable t x value (s.dev.regN 0x02400040) (s.dev.writeCount 0x02400040)) s (fun d =>
      d.regN 0x02400040 % 2 = 1 ∧ d.reg64 0x02400058 = 0 ∧ d.reg64 0x02400060 = 0 ∧ d.qry.trace = {} ∧
      d.writeCount 0x02400040 = (s.dev.writeCount 0x02400040 + 1) % 65536)) ∧
  (∀ s t x value expected count, s.dev.start.service → s.dev.hostStopped = false →
    expected % 2 ^ 32 ≠ s.dev.regN 0x02400040 ∨ count ≠ s.dev.writeCount 0x02400040 →
    Gives (.traceEnable t x value expected count) s (fun d =>
      d.regs = s.dev.regs ∧ d.cwCount = s.dev.cwCount ∧ cwKey x 0x02400040 ∈ d.cwFailed ∧ d.qry = s.dev.qry)) ∧
  (∀ s t comp e en u, (s.dev.engines comp)[e]? = some en → en.now = some u → u.isCharge →
    Gives (.engineBlockDone t comp { engine := e }) s (fun d => (d.engines comp)[e]? = some { en with now := en.after u } ∧ d.host.engJobs = s.dev.host.engJobs)) ∧
  (∀ s t comp e en u j, (s.dev.engines comp)[e]? = some en → en.now = some u → u.isCharge = false → s.dev.job u.a u.b u.c = some j → j.blocks + 1 < j.total →
    Gives (.engineBlockDone t comp { engine := e }) s (fun d => (d.engines comp)[e]? = some { en with now := en.after u } ∧
      d.job u.a u.b u.c = some { j with blocks := j.blocks + 1 })) ∧
  (∀ s t e en u j alg res k, s.dev.twin.alone → (s.dev.engines false)[e]? = some en → en.now = some u → u.isCharge = false → s.dev.job u.a u.b u.c = some j →
    j.x = u.a → j.q = u.b → j.cid = u.c → j.op = .digest alg res → j.total ≤ j.blocks + 1 → s.dev.sends u.a →
    (s.dev.qp u.a u.b).cmds = [k] → k.cid = u.c → k.commits = false →
    Gives (.engineBlockDone t false { engine := e }) s (fun d => d.job u.a u.b u.c = none ∧
      d.out = s.dev.out ++ [.hostWrite u.a res (digestOf alg (j.key.getD []) j.input)] ∧
      (d.qp u.a u.b).ready = (s.dev.qp u.a u.b).ready ++ [{ cid := u.c, r0 := j.input.length }])) ∧
  (∀ s t comp e en u j k, s.dev.twin.alone → (s.dev.engines comp)[e]? = some en → en.now = some u → u.isCharge = false → s.dev.job u.a u.b u.c = some j →
    j.x = u.a → j.q = u.b → j.cid = u.c → s.dev.sends u.a → (s.dev.qp u.a u.b).cmds = [k] → k.cid = u.c → k.commits = false →
    Effects (.engineBlockDone t comp { engine := e, poison := true }) s (fun d => d.job u.a u.b u.c = none ∧ d.out = s.dev.out ∧
      (d.qp u.a u.b).ready = (s.dev.qp u.a u.b).ready ++ [{ cid := u.c, status := 0x5001 }]))


/-! ### The exchange (11_exchange.md) -/

/-- DATA (R335, R339, R343, R345): a segment of a message that is not complete is kept with its association's numbers, and where the flow has not
begun yet its message is noted if it is the lowest; a packet from an address that no node lists is counted and dropped.
Model choices that clauses rest on: notes/assumptions/ 33, 140, 181. -/
def Obligations.DataSegments : Prop :=
  (∀ s t k a v f, s.dev.lets k 1 a v → a.had v.psn = false → s.dev.exchQueries (fieldAt v.hdr 0 4) (fieldAt v.hdr 4 2) ≠ [] →
    s.dev.rflow v.dst v.src (fieldAt v.hdr 0 4) (fieldAt v.hdr 4 2) = some f → f.got = [] → f.parts = [] → f.ended = none →
    ptLt (fieldAt v.hdr 8 8 % 2 ^ 48, fieldAt v.hdr 8 8 / 2 ^ 48) (f.expCharge, f.expPiece) = false → v.body.length < fieldAt v.hdr 0x10 4 →
    (s.dev.flowsBegun v.src v.dst ∨ (s.dev.fab.rflows = [f] ∧ f.low = none ∧ (a.got v.psn).rxCum ≤ v.psn)) →
    Effects (.vxpData t k) s (fun d =>
      d.rflow v.dst v.src (fieldAt v.hdr 0 4) (fieldAt v.hdr 4 2) = some { (f.sees v.psn (fieldAt v.hdr 8 8 % 2 ^ 48) (fieldAt v.hdr 8 8 / 2 ^ 48)) with parts :=
        [{ charge := fieldAt v.hdr 8 8 % 2 ^ 48, piece := fieldAt v.hdr 8 8 / 2 ^ 48, flags := fieldAt v.hdr 6 2, bytes := fieldAt v.hdr 0x10 4
           segs := [(fieldAt v.hdr 0x14 4, v.body)] }] } ∧
      (d.assocOf v.src v.dst).map (fun b => b.had v.psn) = some true ∧ d.qry.queries = s.dev.qry.queries)) ∧
  (∀ s t k, s.dev.unpaused → (s.dev.half k.half).up → s.dev.admitted k.addr = false →
    Effects (.vxpData t k) s (fun d => d = (s.dev.at t).bump 0x02500028 1)) ∧
  (∀ s t k, s.dev.unpaused → (s.dev.half k.half).up → s.dev.admitted k.addr → parseVxp k.data = none →
    Effects (.vxpData t k) s (fun d => d = (s.dev.at t).bump 0x02500024 1))

/-- Acknowledgements (R343, R344, R347): an ACK that covers everything frees it; a FLOW_ACK moves the taken and consumed points and frees what is
consumed; RESEND has a message sent again; KEEPALIVE keeps the association.
Model choices that clauses rest on: notes/assumptions/ 30. -/
def Obligations.Acknowledgements : Prop :=
  (∀ s t k a v, s.dev.lets k 2 a v → (∀ p ∈ a.unacked, p.psn < fieldAt v.hdr 0 4) →
    Effects (.vxpAck t k) s (fun d => (d.assocOf v.src v.dst).map (fun b => (b.unacked, b.acked)) = some ([], a.acked + a.unacked.length))) ∧
  (∀ s t k a v g, s.dev.lets k 3 a v → a.had v.psn = false → s.dev.flowsBegun v.src v.dst → s.dev.exchQueries (fieldAt v.hdr 0 4) (fieldAt v.hdr 4 2) = [] → s.dev.fab.sflows = [g] →
    g.exch = fieldAt v.hdr 0 4 → g.stage = fieldAt v.hdr 4 2 → g.sender = v.dst → g.node = v.src → (∀ m ∈ g.msgs, m.sent) →
    Effects (.flowAck t k) s (fun d => d.fab.sflows = [g.ack (wordPt (fieldAt v.hdr 8 8)) (wordPt (fieldAt v.hdr 0x10 8))])) ∧
  (∀ s t k a v g m, s.dev.lets k 8 a v → a.had v.psn = false → s.dev.flowsBegun v.src v.dst → s.dev.fab.sflows = [g] → g.exch = fieldAt v.hdr 0 4 → g.stage = fieldAt v.hdr 4 2 →
    g.sender = v.dst → g.node = v.src → g.msgs = [m] → m.charge = fieldAt v.hdr 8 8 % 2 ^ 48 → m.piece = fieldAt v.hdr 8 8 / 2 ^ 48 → m.data.length ≤ a.seg →
    Effects (.resend t k) s (fun d => (d.assocOf v.src v.dst).map (fun b => (b.txPsn, b.unacked.map (fun p => (p.psn, p.kind, p.payload)))) =
      some (a.txPsn + 1, a.unacked.map (fun p => (p.psn, p.kind, p.payload)) ++ [(a.txPsn, 1, m.data)]))) ∧
  (∀ s t k a v, s.dev.lets k 9 a v → s.dev.flowsBegun v.src v.dst →
    Effects (.keepalive t k) s (fun d => (d.assocOf v.src v.dst).map (fun b => (b.lastRx, b.had v.psn)) = some (max s.dev.timeUs t, true)))

/-- Associations (R336, R337): HELLO at a version both sides have opens the association with its segment size; so does HELLO_ACK, and a refusal ends
the peering.
Model choices that clauses rest on: notes/assumptions/ 30, 32. -/
def Obligations.Associations : Prop :=
  (∀ s t k v, s.dev.unpaused → (s.dev.half k.half).up → s.dev.admitted k.addr → parseVxp k.data = some v → v.kind = 4 → s.dev.listed v.src k.addr →
    s.dev.isMe v.dst → s.dev.assocOf v.src v.dst = none → fieldAt v.body 0 1 = s.dev.xp.1 → s.dev.fab.sflows = [] →
    Effects (.vxpHello t k) s (fun d => (d.assocOf v.src v.dst).map (fun b => (b.opened, b.theirs, b.minor, b.seg)) =
      some (true, some v.id, min s.dev.xp.2 (fieldAt v.body 2 1), segFor (min s.dev.xp.2 (fieldAt v.body 2 1)) s.dev.maxSeg (fieldAt v.body 4 4)))) ∧
  (∀ s t k v, s.dev.unpaused → (s.dev.half k.half).up → s.dev.admitted k.addr → parseVxp k.data = some v → v.kind = 4 → s.dev.listed v.src k.addr →
    s.dev.isMe v.dst → s.dev.assocOf v.src v.dst = none → fieldAt v.body 0 1 ≠ s.dev.xp.1 →
    Effects (.vxpHello t k) s (fun d => (d.assocOf v.src v.dst).map (fun b => (b.opened, b.refused)) = some (false, true) ∧
      d.regN 0x02500030 = satAdd 32 (s.dev.regN 0x02500030) 1)) ∧
  (∀ s t k a v, s.dev.unpaused → (s.dev.half k.half).up → s.dev.admitted k.addr → parseVxp k.data = some v → v.kind = 5 → s.dev.listed v.src k.addr → s.dev.isMe v.dst →
    s.dev.assocOf v.src v.dst = some a → a.opened = false → a.refused = false → s.dev.fab.sflows = [] →
    Effects (.helloAck t k) s (fun d => (d.assocOf v.src v.dst).map (fun b => (b.opened, b.refused)) =
      some (if fieldAt v.body 2 1 = 1 then (false, true) else (true, false))))

/-- Adopted nodes and lost exchanges (R354, R355): RESUME opens an association with the node and its retained messages go again, and RESUME_ACK
frees what was consumed; CLOSE with reason 2 ends the query with EXCHANGE_CLOSED, and a lost peer ends its queries with PEER_LOST.
Model choices that clauses rest on: notes/assumptions/ 63, 181. -/
def Obligations.AdoptedAndLost : Prop :=
  (∀ s t k a v f, s.dev.lets k 6 a v → a.had v.psn = false → s.dev.flowsBegun v.src v.dst → s.dev.fab.sflows = [f] → f.node = fieldAt v.body 0 2 → f.sender = v.dst →
    fieldAt v.body 0 2 ≠ v.src →
    Effects (.resume t k) s (fun d => (d.assocOf (fieldAt v.body 0 2) v.dst).isSome ∧
      d.fab.nodes = addAddrs s.dev.fab.nodes (fieldAt v.body 0 2) ((assoc s.dev.fab.nodes v.src).getD []) ∧
      d.fab.sflows = [{ f with taken := f.consumed, msgs := f.msgs.map (fun m => { m with sent := false }) }])) ∧
  (∀ s t k a v f, s.dev.lets k 7 a v → a.had v.psn = false → s.dev.flowsBegun v.src v.dst → s.dev.fab.sflows = [f] → fieldAt v.body 0 4 = 1 → f.exch = fieldAt v.body 4 4 →
    f.stage = fieldAt v.body 8 2 → f.node = v.src → f.sender = v.dst → (∀ m ∈ f.msgs, m.sent) →
    Effects (.resumeAck t k) s (fun d => d.fab.sflows = [f.ack none (wordPt (fieldAt v.body 12 8))])) ∧
  (∀ s t k a v id i q, s.dev.lets k 10 a v → a.had v.psn = false → s.dev.flowsBegun v.src v.dst → fieldAt v.body 4 2 = 2 → s.dev.exchIds (fieldAt v.body 0 4) = [(id, i)] →
    s.dev.query id = some q → q.ending = none →
    After (fun d => (d.advance id).tidy) (.close t k) s (fun d =>
      (d.query id).bind (·.ending) = some { status := 0x2042, detail := i })) ∧
  (∀ s t peer q, s.dev.fab.assocs.any (fun a => a.peer == peer) →
    (∀ a ∈ s.dev.fab.assocs, a.peer = peer → a.lastRx + 1000 * s.dev.regField 0x0250000C 15 0 ≤ max s.dev.timeUs t) →
    s.dev.qry.queries = [q] → q.ending = none → q.image.stages.length = 1 → (q.image.stages.getD 0 {}).op = 0x11 → peer ∈ q.sendMap 0 →
    After (fun d => (d.advance q.id).tidy) (.peerLost t peer) s (fun d =>
      (d.query q.id).bind (·.ending) = some { status := 0x5007, detail := 0 }))

/-- Timers of an association (R347): what is overdue goes again with the RTO doubled and the rate halved; the ECN estimate moves by a sixteenth; an
ACK is sent; a KEEPALIVE keeps a silent direction alive.
Model choices that clauses rest on: notes/assumptions/ 31. -/
def Obligations.AssociationTimers : Prop :=
  (∀ s t peer me a p, s.dev.unpaused → s.dev.assocOf peer me = some a → a.unacked = [p] → p.sent + a.rto ≤ max s.dev.timeUs t →
    Effects (.rtoExpiry t peer me) s (fun d => (d.assocOf peer me).map (fun b => (b.rto, b.rate, b.timedOut, b.unacked.map (fun k => (k.psn, k.sent)))) =
      some (min 10000 (2 * a.rto), max s.dev.rMin (a.rate / 2), true, [(p.psn, max s.dev.timeUs t)]))) ∧
  (∀ s t peer me a, s.dev.unpaused → s.dev.assocOf peer me = some a →
    Gives (.ratePeriod t peer me) s (fun d =>
      let al := (15 * a.alpha + (if a.acked = 0 then 0 else a.ceAcked * 2 ^ 32 / a.acked)) / 16
      d.assocOf peer me = some { a with
        alpha := al, acked := 0, ceAcked := 0, timedOut := false
        rate := if a.ceAcked ≠ 0 then max s.dev.rMin (a.rate - a.rate * al / 2 ^ 33)
          else if a.timedOut then a.rate else min s.dev.bestRate (a.rate + s.dev.rAi) })) ∧
  (∀ s t peer me a, s.dev.unpaused → s.dev.assocOf peer me = some a → a.sinceAck ≠ 0 →
    Gives (.ackTimer t peer me) s (fun d => d.assocOf peer me = some { a with sinceAck := 0, ceSince := 0, lastTx := max s.dev.timeUs t })) ∧
  (∀ s t peer me a, s.dev.unpaused → s.dev.assocOf peer me = some a → a.opened → a.lastTx + 125 * s.dev.regField 0x0250000C 15 0 ≤ max s.dev.timeUs t →
    Gives (.keepaliveTimer t peer me) s (fun d => (d.assocOf peer me).map (fun b => (b.lastTx, b.txPsn, b.unacked.map (fun k => (k.psn, k.kind)))) =
      some (max s.dev.timeUs t, a.txPsn + 1, a.unacked.map (fun k => (k.psn, k.kind)) ++ [(a.txPsn, 9)])))

/-- Fabric ports (R333, R334, R347, R353): a half goes down and comes up; FAB_CTRL is a compare-and-write whose change retrains the link; other
traffic is answered or counted; a pause frame holds what the half sends.
Model choices that clauses rest on: notes/assumptions/ 34, 35, 37. -/
def Obligations.FabricPorts : Prop :=
  (∀ s t h, h < 16 → (s.dev.half h).up → s.dev.recovers 5 h = false → s.dev.fab.assocs = [] →
    Effects (.fabricPortDown t h) s (fun d => d.half h = { s.dev.half h with up := false, fec := false, held := [] } ∧ d.recovers 5 h)) ∧
  (∀ s t h, h < 16 → s.dev.regField (fabReg (h / 2)) 1 0 = 1 → h ∉ s.dev.health.fabDisabled → 3 ∉ s.dev.pwr.clocks → s.dev.fab.sflows = [] →
    Effects (.fabricPortUp t h) s (fun d => d.half h = { s.dev.half h with up := true, fec := true } ∧ d.recovers 5 h = false)) ∧
  (∀ s t x p value, p < 8 → s.dev.start.service → s.dev.hostStopped = false → s.dev.fab.assocs = [] →
    value % 4 ≤ 2 → bitsOf value 9 8 ≤ 2 → value < 1024 → s.dev.regN (fabReg p) < 1024 → value % 8 ≠ s.dev.regN (fabReg p) % 8 →
    Gives (.fabCtrlWrite t x p value (s.dev.regN (fabReg p)) (s.dev.writeCount (fabReg p))) s (fun d =>
      d.regN (fabReg p) = value ∧ (d.half (2 * p)).up = false ∧ (d.half (2 * p + 1)).up = false ∧
      d.writeCount (fabReg p) = (s.dev.writeCount (fabReg p) + 1) % 65536)) ∧
  (∀ s t h kind b, (s.dev.half h).up → kind ≤ 1 →
    Gives (.otherTrafficFrame t h kind b) s (fun d => d = (s.dev.at t).send (.frame h (natLE 1 kind ++ b)))) ∧
  (∀ s t h kind b, 4 ≤ kind → Gives (.otherTrafficFrame t h kind b) s (fun d => d.out = s.dev.out ∧ d.fab.otherDrops = s.dev.fab.otherDrops + 1)) ∧
  (∀ s t h mask quanta, s.dev.unpaused → h < 16 → bitOf (s.dev.regN (fabReg (h / 2))) 4 → bitOf mask (bitsOf (s.dev.regN (fabReg (h / 2))) 7 5) →
    Gives (.pfcPauseFrame t h mask quanta) s (fun d =>
      d.half h = { s.dev.half h with pausedUntil := max s.dev.timeUs t + ceilDiv (512 * quanta) (s.dev.lineRate h) } ∧
      d.regN (fabReg (h / 2) + 0x10) = satAdd 32 (s.dev.regN (fabReg (h / 2) + 0x10)) 1))

/-! ### The unit around its instructions (07_expression_unit.md, 09_pattern_match.md) -/

/-- Faults and the wide unit (R246 to R248, R252): a resolved instruction runs again from element 0; the wide unit's timers; EXU_CTRL.
Model choices that clauses rest on: notes/assumptions/ 29. -/
def Obligations.WideUnit : Prop :=
  (∀ s t h p, (s.dev.hearth h).exu.pend = some p → p.flt.cause ≠ 5 →
    ((s.dev.hearth h).exu.done (s.dev.narrowOnly h) p.op p.w).unres = false → ((s.dev.hearth h).exu.done (s.dev.narrowOnly h) p.op p.w).pend = none →
    Gives (.faultResolved t h none) s (fun d =>
      (d.hearth h).exu = { (s.dev.hearth h).exu.done (s.dev.narrowOnly h) p.op p.w with rpe := 0, fixes := 0 })) ∧
  (∀ s t h, (s.dev.hearth h).exu.wide = .ready → s.dev.wideIdleUs h ≠ 0 →
    Gives (.wideIdleTimeout t h) s (fun d => (d.hearth h).exu = { (s.dev.hearth h).exu with wide := .poweringDown, activeWide := false } ∧ d.regs = s.dev.regs)) ∧
  (∀ s t h, (s.dev.hearth h).exu.wide = .poweringDown →
    Gives (.widePowerDownDone t h) s (fun d => (d.hearth h).exu = { (s.dev.hearth h).exu with
      wide := if (s.dev.hearth h).exu.wakeReq && !s.dev.narrowOnly h then .waking else .off, wakeReq := false })) ∧
  (∀ s t h, (s.dev.hearth h).exu.wide = .waking →
    Gives (.wideUnitReady t h) s (fun d => (d.hearth h).exu = { (s.dev.hearth h).exu with wide := if s.dev.narrowOnly h then .poweringDown else .ready })) ∧
  (∀ s t x h value, h < 36 → s.dev.start.service → s.dev.hostStopped = false → value < 2 ^ 17 → s.dev.regN (0x02100000 + 0x1000 * h) < 2 ^ 17 →
    Gives (.exuCtrlWrite t x h value (s.dev.regN (0x02100000 + 0x1000 * h)) (s.dev.writeCount (0x02100000 + 0x1000 * h))) s (fun d =>
      d.regN (0x02100000 + 0x1000 * h) = value ∧ d.wideIdleUs h = value % 65536 ∧ d.narrowOnly h = bitOf value 16 ∧
      (d.hearth h).exu.wide = if bitOf value 16 = true ∧ (s.dev.hearth h).exu.wide = .ready then .poweringDown else (s.dev.hearth h).exu.wide))

/-- The care-mask table (R298, R299): a scrub cycle goes on to the next unit, and rewrites from its copy and counts one that differs; a hearth applies a system table, and the
last one completes the command.
Model choices that clauses rest on: notes/assumptions/ 98, 163. -/
def Obligations.CareMaskTables : Prop :=
  (∀ s t h copyBad others, s.dev.scrubPaused h = false → s.dev.mail.sysUpdate = none →
    Gives (.cmtScrub t h none copyBad others) s (fun d =>
      (d.hearth h).exu.cmt = { (s.dev.hearth h).exu.cmt with scrubPos := ((s.dev.hearth h).exu.cmt.scrubPos + 1) % 32768 } ∧ d.regs = s.dev.regs)) ∧
  (∀ s t h v others, s.dev.scrubPaused h = false → s.dev.mail.sysUpdate = none →
    Gives (.cmtScrub t h (some v) false others) s (fun d =>
      (d.hearth h).exu.cmt = { (((s.dev.hearth h).exu.cmt.put (s.dev.hearth h).exu.cmt.scrubPos v).put (s.dev.hearth h).exu.cmt.scrubPos
          (s.dev.scrubCopy h (s.dev.hearth h).exu.cmt.scrubPos)) with
        scrubPos := ((s.dev.hearth h).exu.cmt.scrubPos + 1) % 32768 } ∧
      d.regN (0x02100104 + 0x1000 * h) = satAdd 32 (s.dev.regN (0x02100104 + 0x1000 * h)) 1)) ∧
  (∀ s t h u, s.dev.mail.sysUpdate = some u → (s.dev.hearth h).on → h ∉ u.applied → (∃ k ∈ s.dev.pipeHearths, k ≠ h ∧ k ∉ u.applied) →
    Effects (.systemTableApply t h) s (fun d =>
      d.mail.sysUpdate = some { u with applied := u.applied ++ [h] } ∧
      (d.hearth h).exu.cmt = { (s.dev.hearth h).exu.cmt.loadBank 0 (bank0 s.dev.mail.sysTables) with sysLoaded := true })) ∧
  (∀ s t h u, s.dev.mail.sysUpdate = some u → (s.dev.hearth h).on → h ∉ u.applied → (∀ k ∈ s.dev.pipeHearths, k = h ∨ k ∈ u.applied) →
    Effects (.systemTableApply t h) s (fun d => d.mail.sysUpdate = none ∧ d.regN 0x02300000 = (s.dev.regN 0x02300000 + 1) % 65536))

/-! ### The memory system (12_memory.md) -/

/-- Frames (R359, R360, R363): a moved frame reads at its new place as it did at its old one; a freed frame is zeroed and returns to the pool.
Model choices that clauses rest on: notes/assumptions/ 60. -/
def Obligations.Frames : Prop :=
  (∀ s t u f dest e g, dest < 8 → (s.dev.memUnit dest).state = 2 → s.dev.mem.entries.find? (fun e => 4 * e.tier + e.unit == u && e.frame == f) = some e →
    s.dev.freeFrame dest = some g → f < 2 ^ 19 → g < 2 ^ 19 → tabWf 0 s.dev.mem.bytes →
    (∀ i, i < frameBytes → tabGet 0 s.dev.mem.bytes (memKey dest (g * frameBytes + i)) = 0) →
    Gives (.frameMove t u f dest) s (fun d =>
      (∀ i, i < frameBytes → tabGet 0 d.mem.bytes (memKey dest (g * frameBytes + i)) = tabGet 0 s.dev.mem.bytes (memKey u (f * frameBytes + i))) ∧
      (∀ i, i < frameBytes → tabGet 0 d.mem.bytes (memKey u (f * frameBytes + i)) = 0) ∧
      (d.xlEntry e.ctx e.page).map (fun k => (k.tier, k.unit, k.frame)) = some (dest / 4, dest % 4, g) ∧
      d.regN 0x02610014 = satAdd 32 (s.dev.regN 0x02610014) 1)) ∧
  (∀ s t u f, f ∈ (s.dev.memUnit u).dirty →
    Gives (.frameZeroing t u f) s (fun d =>
      (d.memUnit u).dirty = (s.dev.memUnit u).dirty.filter (· != f) ∧
      (∀ i, i < frameBytes → tabGet 0 d.mem.bytes (memKey u (f * frameBytes + i)) = 0) ∧
      (∀ k, (k < memKey u (f * frameBytes) ∨ memKey u (f * frameBytes) + frameBytes ≤ k) → tabGet 0 d.mem.bytes k = tabGet 0 s.dev.mem.bytes k) ∧
      d.mem.entries = s.dev.mem.entries))

/-- DRAM in the field (R367 to R370): repair of a row that is due, patrol scrub, the refresh window, idle rows, calibration and tracking, and refresh.
Model choices that clauses rest on: notes/assumptions/ 175. -/
def Obligations.DramTimers : Prop :=
  (∀ s t u off, (u, off) ∈ s.dev.mem.due → s.dev.backed u = [] →
    Gives (.rowRepair t u off true) s (fun d =>
      (u, off) ∉ d.mem.due ∧ (d.memUnit u).repaired = (s.dev.memUnit u).repaired + 1 ∧
      (d.memUnit u).left = (if (s.dev.memUnit u).left = 0xFFFF then 0xFFFF else (s.dev.memUnit u).left - 1) ∧ (d.memUnit u).retired = (s.dev.memUnit u).retired)) ∧
  (∀ s t u lines, (s.dev.memUnit u).state = 2 → (s.dev.memUnit u).gb ≠ 0 →
    s.dev.regField (memRegs u (s.dev.decodeLine u ((s.dev.memUnit u).patrol * 128)) + 0xC) 7 0 ≠ 0 →
    Effects (.patrolScrubStep t u lines []) s (fun d =>
      d.memUnit u = { s.dev.memUnit u with patrol := ((s.dev.memUnit u).patrol + lines) % (s.dev.memUnit u).lines } ∧ d.mem.bytes = s.dev.mem.bytes)) ∧
  (∀ s t u k, tabWf {} s.dev.mem.banks →
    Gives (.refreshWindowEnd t u) s (fun d => d.bank k = if k / 2 ^ 16 = u then { s.dev.bank k with acts := [] } else s.dev.bank k)) ∧
  (∀ s t u off, Gives (.rowIdleTimeout t u off) s (fun d =>
    d.bank (bankNo u (s.dev.decodeLine u off)) = { s.dev.bank (bankNo u (s.dev.decodeLine u off)) with row := none, hits := 0 } ∧
    (∀ k, k ≠ bankNo u (s.dev.decodeLine u off) → d.bank k = s.dev.bank k))) ∧
  (∀ s t u, (s.dev.memUnit u).state = 2 →
    Gives (.zqCalibration t u) s (fun d => d.memUnit u = { s.dev.memUnit u with zq := (s.dev.memUnit u).zq + 1, phase := true })) ∧
  (∀ s t u, (s.dev.memUnit u).state = 2 →
    Gives (.dqsTracking t u) s (fun d => d.memUnit u = { s.dev.memUnit u with dqs := (s.dev.memUnit u).dqs + 1, phase := true })) ∧
  (∀ s t u off rfm, Gives (.dramRefresh t u off rfm) s (fun d =>
    (d.bank (bankNo u (s.dev.decodeLine u off))).row = none ∧ (d.memUnit u).phase = false ∧ d.mem.bytes = s.dev.mem.bytes))

/-- Scratchpad banks (R376, R378): an unheld bank that is idle enters retention, wakes, and takes a spare column once no charge runs.
Model choices that clauses rest on: notes/assumptions/ 64. -/
def Obligations.ScratchpadBanks : Prop :=
  (∀ s t h b, h < 36 → b < 12 → bitOf (tabGet 0 s.dev.mem.retained h) b = false → s.dev.heldBanks h ≤ b →
    s.dev.regField (0x02100200 + 0x1000 * h) 15 0 ≠ 0 →
    Gives (.bankRetentionEntry t h b) s (fun d => tabGet 0 d.mem.retained h = tabGet 0 s.dev.mem.retained h + 2 ^ b)) ∧
  (∀ s t h b, bitOf (tabGet 0 s.dev.mem.retained h) b →
    Gives (.bankWake t h b) s (fun d => tabGet 0 d.mem.retained h = tabGet 0 s.dev.mem.retained h - 2 ^ b ∧
      d.regN (0x02100214 + 0x1000 * h) = satAdd 32 (s.dev.regN (0x02100214 + 0x1000 * h)) 1)) ∧
  (∀ s t h b, h < 36 → b < 12 → (s.dev.hearth h).running = none → (s.dev.hearth h).quenched = false → s.dev.spare h b < 2 →
    Gives (.columnRepair t h b) s (fun d => d.spare h b = s.dev.spare h b + 1 ∧ d.recovers 1 h ∧ (d.hearth h).quenched = false ∧
      d.health.repairSeq = s.dev.health.repairSeq + 1))

/-- The system cache (R362, R382): a read that hits answers the line that its way holds, one that misses a frame kept out of the cache answers
memory's bytes; a write goes to memory and to a copy in a way; a zero line reads as zeros.
Model choices that clauses rest on: notes/assumptions/ 61, 65. -/
def Obligations.SystemCache : Prop :=
  (∀ s t ctx dva e sl st w l, s.dev.xlEntry ctx (dva / frameBytes) = some e →
    s.dev.placeLine (lineNo (4 * e.tier + e.unit) ((e.frame * frameBytes + dva % frameBytes) / 128 * 128)) = (sl, st) →
    (s.dev.cset sl st).find (lineNo (4 * e.tier + e.unit) ((e.frame * frameBytes + dva % frameBytes) / 128 * 128)) = some w →
    (s.dev.cset sl st).way w = some l → (∀ k ∈ s.dev.mem.slices, bitCount 16 (tabGet 0 s.dev.mem.fenced k) < 5) →
    Effects (.cacheRead t ctx dva .none) s (fun d =>
      d.mem.resp = ((e.frame * frameBytes + dva % frameBytes) % 128 / 32, l.data) ∧ d.cset sl st = (s.dev.cset sl st).use w ∧ d.mem.bytes = s.dev.mem.bytes)) ∧
  (∀ s t ctx dva e sl st, s.dev.xlEntry ctx (dva / frameBytes) = some e → e.noAlloc →
    s.dev.placeLine (lineNo (4 * e.tier + e.unit) ((e.frame * frameBytes + dva % frameBytes) / 128 * 128)) = (sl, st) →
    (s.dev.cset sl st).find (lineNo (4 * e.tier + e.unit) ((e.frame * frameBytes + dva % frameBytes) / 128 * 128)) = none →
    s.dev.victims sl = [] → (∀ k ∈ s.dev.mem.slices, bitCount 16 (tabGet 0 s.dev.mem.fenced k) < 5) →
    Effects (.cacheRead t ctx dva .none) s (fun d =>
      d.mem.resp = ((e.frame * frameBytes + dva % frameBytes) % 128 / 32,
        s.dev.memRead (lineUnit (lineNo (4 * e.tier + e.unit) ((e.frame * frameBytes + dva % frameBytes) / 128 * 128)))
          (lineOff (lineNo (4 * e.tier + e.unit) ((e.frame * frameBytes + dva % frameBytes) / 128 * 128))) 128) ∧
      d.mem.sets = s.dev.mem.sets ∧ d.mem.bytes = s.dev.mem.bytes)) ∧
  (∀ s t ctx dva b e sl st a, s.dev.xlEntry ctx (dva / frameBytes) = some e → e.writable →
    lineNo (4 * e.tier + e.unit) ((e.frame * frameBytes + dva % frameBytes) / 128 * 128) = a → s.dev.placeLine a = (sl, st) →
    (e.frame * frameBytes + dva % frameBytes) % 128 + b.length ≤ 128 →
    Effects (.cacheWrite t ctx dva b) s (fun d =>
      (∀ i, i < b.length → tabGet 0 d.mem.bytes (memKey (lineUnit a) (lineOff a + (e.frame * frameBytes + dva % frameBytes) % 128 + i)) = b.getD i 0) ∧
      (∀ k, (k < memKey (lineUnit a) (lineOff a + (e.frame * frameBytes + dva % frameBytes) % 128) ∨
        memKey (lineUnit a) (lineOff a + (e.frame * frameBytes + dva % frameBytes) % 128) + b.length ≤ k) → tabGet 0 d.mem.bytes k = tabGet 0 s.dev.mem.bytes k) ∧
      (∀ w l, (s.dev.cset sl st).find a = some w → (s.dev.cset sl st).way w = some l →
        (d.cset sl st).way w = some { l with data := putAt l.data ((e.frame * frameBytes + dva % frameBytes) % 128) b }))) ∧
  (∀ s t ctx dva e a i, s.dev.xlEntry ctx (dva / frameBytes) = some e → e.writable →
    lineNo (4 * e.tier + e.unit) ((e.frame * frameBytes + dva % frameBytes) / 128 * 128) = a → i < 128 →
    Effects (.zeroLine t ctx dva) s (fun d => tabGet 0 d.mem.bytes (memKey (lineUnit a) (lineOff a + i)) = 0))

/-! ### The mailbox (15_mailbox.md) -/

/-- Sessions, events and long operations as a mailbox answers them (R18, R451, R452, R456 to R465, R476).
Model choices that clauses rest on: notes/assumptions/ 91, 92, 94, 166. -/
def Obligations.MailboxRequests : Prop :=
  (∀ s t x r, s.dev.takes x 0x01 r → fieldAt r.payload 0 1 = 2 → fieldAt r.payload 1 1 ≤ s.dev.mail.minor →
    Effects (.sessionOpen t x r) s (fun d =>
      (d.mbox x).session = some (min s.dev.mail.minor (fieldAt r.payload 2 1)) ∧
      d.answers x r 0 0 0 0 (s.dev.sessionReply x 2 (min s.dev.mail.minor (fieldAt r.payload 2 1)) s.dev.mail.minor))) ∧
  (∀ s t x r, s.dev.takes x 0x01 r → s.dev.mail.minor < fieldAt r.payload 1 1 →
    Effects (.sessionOpen t x r) s (fun d =>
      (d.mbox x).session = (s.dev.mbox x).session ∧ (d.mbox x).resp.take 12 = natLE 2 0x2001 ++ natLE 2 r.seq ++ natLE 2 104 ++ natLE 2 0 ++ natLE 4 3)) ∧
  (∀ s t x r, s.dev.takes x 0x02 r → Effects (.sessionClose t x r) s (fun d => (d.mbox x).session = none ∧ d.answers x r 0 0 0 0 [])) ∧
  (∀ s t x r, s.dev.takes x 0x03 r →
    Effects (.identify t x r) s (fun d =>
      (d.mbox x).session = (s.dev.mbox x).session ∧ (d.mbox x).events = (s.dev.mbox x).events ∧ d.answers x r 0 0 0 0 (s.dev.identity x))) ∧
  (∀ s t x r, s.dev.takes x 0x04 r →
    Effects (.eventRead t x r) s (fun d =>
      (d.mbox x).events = (s.dev.mbox x).events.drop (fieldAt r.payload 0 2) ∧ (d.mbox x).lost = 0 ∧
      d.answers x r 0 0 0 0 (natLE 4 (min (s.dev.mbox x).lost 0xFFFFFFFF) ++ natLE 4 ((s.dev.mbox x).events.take (fieldAt r.payload 0 2)).length ++
        (((s.dev.mbox x).events.take (fieldAt r.payload 0 2)).map Event.bytes).flatten))) ∧
  (∀ s t x r o, s.dev.takes x 0x05 r → s.dev.mail.ops.find? (fun o => o.handle == fieldAt r.payload 0 4 && o.x == x) = some o →
    Effects (.opStatus t x r) s (fun d =>
      d.mail.ops = s.dev.mail.ops ∧ d.answers x r 0 0 0 0 (natLE 1 o.state ++ natLE 1 o.percent ++ natLE 2 o.status ++ natLE 4 o.object))) ∧
  (∀ s t x r o, s.dev.takes x 0x06 r → s.dev.mail.ops.find? (fun o => o.handle == fieldAt r.payload 0 4 && o.x == x) = some o → o.state = 1 →
    s.dev.cancellable o →
    Effects (.opCancel t x r) s (fun d =>
      (d.mbox x).busy = some r.seq ∧
      d.mail.ops = updWhere (fun o => o.handle == fieldAt r.payload 0 4) (fun o => { o with cancel := o.cancel ++ [x] }) s.dev.mail.ops)) ∧
  (∀ s t x r, s.dev.takes x 0x06 r → s.dev.mail.ops.find? (fun o => o.handle == fieldAt r.payload 0 4 && o.x == x) = none →
    Effects (.opCancel t x r) s (fun d => d.mail.ops = s.dev.mail.ops ∧ d.answers x r 0x2050 0 0 0 [])) ∧
  (∀ s t x r, s.dev.takes x 0x53 r →
    Effects (.fwStatus t x r) s (fun d => d.answers x r 0 0 0 0
      (s.dev.mail.fwA.status ++ s.dev.mail.fwB.status ++ natLE 1 s.dev.mail.running ++ natLE 1 s.dev.mail.boot))) ∧
  (∀ s t x, s.dev.mbReached x → (s.dev.mbox x).busy.isSome → (s.dev.mbox x).err < 2 →
    Gives (.mailboxOverrun t x) s (fun d =>
      d.mbox x = { s.dev.mbox x with err := if bitOf (s.dev.mbox x).err 0 then (s.dev.mbox x).err else (s.dev.mbox x).err + 1 } ∧ bitOf (d.mbox x).err 0)) ∧
  (∀ s t x r n, s.dev.mbReached x → (s.dev.mbox x).busy = none → (s.dev.mbox x).ready → s.dev.sec.halted = false → s.dev.start.banked = false →
    s.dev.mbReason x 0x03 r = n → n ≠ 0 →
    Effects (.identify t x r) s (fun d => d.answers x r 0x2001 n 0 0 [] ∧ (d.mbox x).session = (s.dev.mbox x).session))

/-- Registers and device memory through a mailbox, and the pool split (R386, R467, R468, R470, R471, R485): a register is read with its write_count,
and an RC one is cleared; a compare-and-write takes effect when value and count are as expected, and fails otherwise.
Model choices that clauses rest on: notes/assumptions/ 82, 95, 129. -/
def Obligations.MailboxRegisters : Prop :=
  (∀ s t x r i, s.dev.takes x 0x10 r → i < fieldAt r.payload 4 2 → secBlock (fieldAt r.payload 0 4 + 4 * i) → regRow (fieldAt r.payload 0 4 + 4 * i) = none →
    Effects (.regRead t x r) s (fun d => d.answers x r 0x6002 0 0 0 [] ∧ d.regs = s.dev.regs)) ∧
  (∀ s t x r, s.dev.takes x 0x10 r → (∀ i, i < fieldAt r.payload 4 2 → secBlock (fieldAt r.payload 0 4 + 4 * i) → regRow (fieldAt r.payload 0 4 + 4 * i) ≠ none) →
    Effects (.regRead t x r) s (fun d =>
      d.answers x r 0 0 0 0 (((List.range (fieldAt r.payload 4 2)).map (fun i => (s.dev.at t).readEntry x (fieldAt r.payload 0 4 + 4 * i))).flatten) ∧
      (∀ i row, i < fieldAt r.payload 4 2 → regRow (fieldAt r.payload 0 4 + 4 * i) = some row → row.acc = .rc → d.regN (fieldAt r.payload 0 4 + 4 * i) = 0) ∧
      (∀ a, (∀ i, i < fieldAt r.payload 4 2 → a ≠ fieldAt r.payload 0 4 + 4 * i) → d.reg a = s.dev.reg a) ∧ d.cwCount = s.dev.cwCount)) ∧
  (∀ s t x r a, s.dev.takes x 0x11 r → a ∈ [0x02500008, 0x0250000C, 0x02500010, 0x02900000, 0x02A00004, 0x02C00010, 0x02C10004, 0x02F00124] →
    fieldAt r.payload 0 4 = a → fieldAt r.payload 4 1 = 4 → fieldAt r.payload 8 8 = 0xFFFFFFFF → fieldAt r.payload 24 8 = s.dev.regN a →
    fieldAt r.payload 6 2 = s.dev.writeCount a → (fieldAt r.payload 16 8).land (cwMask a) = fieldAt r.payload 16 8 → fieldAt r.payload 16 8 < 2 ^ 32 →
    (s.dev.regN a).land (cwMask a) = s.dev.regN a → cwOk a (fieldAt r.payload 16 8) →
    Effects (.regWrite t x r) s (fun d =>
      d.regN a = fieldAt r.payload 16 8 ∧ d.writeCount a = (s.dev.writeCount a + 1) % 65536 ∧ (∀ b, b ≠ a → d.reg b = s.dev.reg b) ∧
      d.answers x r 0 0 0 0 (natLE 8 (fieldAt r.payload 16 8) ++ natLE 2 ((s.dev.writeCount a + 1) % 65536)))) ∧
  (∀ s t x r a, s.dev.takes x 0x11 r → a ∈ [0x02500008, 0x0250000C, 0x02500010, 0x02900000, 0x02A00004, 0x02C00010, 0x02C10004, 0x02F00124] →
    fieldAt r.payload 0 4 = a → fieldAt r.payload 4 1 = 4 → fieldAt r.payload 8 8 = 0xFFFFFFFF → cwOk a (fieldAt r.payload 16 8) →
    (fieldAt r.payload 16 8).land (cwMask a) = fieldAt r.payload 16 8 → fieldAt r.payload 16 8 < 2 ^ 32 → (s.dev.regN a).land (cwMask a) = s.dev.regN a →
    (fieldAt r.payload 24 8 % 2 ^ 32 ≠ s.dev.regN a ∨ fieldAt r.payload 6 2 ≠ s.dev.writeCount a) →
    Effects (.regWrite t x r) s (fun d =>
      d.regs = s.dev.regs ∧ d.cwCount = s.dev.cwCount ∧ cwKey x a ∈ d.cwFailed ∧
      d.answers x r 0 0 1 0 (natLE 8 (s.dev.regN a) ++ natLE 2 (s.dev.writeCount a)))) ∧
  (∀ s t x r c, s.dev.takes x 0x12 r → fieldAt r.payload 0 2 = 0 → c ∈ s.dev.mail.claims → c.cls = 3 → c.x = x → c.holder = 1 →
    c.dva ≤ fieldAt r.payload 8 8 → fieldAt r.payload 8 8 + fieldAt r.payload 16 4 ≤ c.dva + c.bytes → s.dev.claimOf 3 0 = none → s.dev.sends x →
    bitOf (s.dev.mbox x).vector 31 = false →
    Effects (.memRead t x r) s (fun d =>
      d.out = s.dev.out ++ [.hostWrite x (fieldAt r.payload 24 8) (s.dev.dvaBytes 0 (fieldAt r.payload 8 8) (fieldAt r.payload 16 4))] ∧
      d.answers x r 0 0 0 0 (natLE 4 (fieldAt r.payload 16 4)))) ∧
  (∀ s t x r, s.dev.takes x 0x37 r →
    Effects (.cacheInvalidate t x r) s (fun d =>
      d.mem.sets = (s.dev.invalidate (fieldAt r.payload 0 2) (fieldAt r.payload 8 8) (fieldAt r.payload 16 8)).mem.sets ∧
      d.regN 0x02700028 = satAdd 32 (s.dev.regN 0x02700028) 1 ∧ d.mem.bytes = s.dev.mem.bytes ∧ d.answers x r 0 0 0 0 [])) ∧
  (∀ s t x n, s.dev.start.service → s.dev.hostStopped = false → s.dev.splitOk n → s.dev.regN 0x02A00000 < 2 ^ 14 →
    Gives (.sharePortSplit t x n (s.dev.regN 0x02A00000) (s.dev.writeCount 0x02A00000)) s (fun d =>
      d.regN 0x02A00000 = n ∧ d.pool 0 = n ∧ d.pool 1 = 8192 - n ∧ d.fnQueues 0 = n - s.dev.granted 0 ∧ d.fnQueues 513 = 8192 - n - s.dev.granted 1)) ∧
  (∀ s t x n, s.dev.start.service → s.dev.hostStopped = false → n ≤ 8192 → s.dev.splitOk n = false →
    Gives (.sharePortSplit t x n (s.dev.regN 0x02A00000) (s.dev.writeCount 0x02A00000)) s (fun d =>
      d.regs = s.dev.regs ∧ d.host = s.dev.host ∧ cwKey x 0x02A00000 ∈ d.cwFailed))

/-- Settings through a mailbox (R40, R139, R298, R461, R469, R489, R531, R536, R537): each is made, with its generation where it has one; a request
with another generation changes nothing.
Model choices that clauses rest on: notes/assumptions/ 75, 97, 98, 167. -/
def Obligations.MailboxSettings : Prop :=
  (∀ s t x r, s.dev.takes x 0x13 r → fieldAt r.payload 0 2 = 0xFFFF → s.dev.mbGeneration 0x13 = r.gen →
    Effects (.policySet t x r) s (fun d =>
      d.fn.directed = (fieldAt r.payload 2 1 != 1) ∧ d.fn.fnDirected = s.dev.fn.fnDirected ∧ d.mbGeneration 0x13 = (r.gen + 1) % 65536 ∧
      d.answers x r 0 0 0 0 [BitVec.ofNat 8 (b2n (fieldAt r.payload 2 1 == 1)), BitVec.ofNat 8 (b2n (fieldAt r.payload 2 1 == 1))])) ∧
  (∀ s t x r, s.dev.takes x 0x13 r → fieldAt r.payload 0 2 = 0xFFFF → s.dev.mbGeneration 0x13 ≠ r.gen →
    Effects (.policySet t x r) s (fun d => d.fn = s.dev.fn ∧ d.answers x r 0 (s.dev.mbGeneration 0x13) 1 0 [])) ∧
  (∀ s t x r, s.dev.takes x 0x13 r → fieldAt r.payload 0 2 ≠ 0xFFFF →
    Effects (.policySet t x r) s (fun d =>
      d.fn.directed = s.dev.fn.directed ∧ (d.fn.fnDirected.contains (pfOf (portOf x) + fieldAt r.payload 0 2) = (fieldAt r.payload 2 1 != 1)) ∧
      (∀ y, y ≠ pfOf (portOf x) + fieldAt r.payload 0 2 → (y ∈ d.fn.fnDirected ↔ y ∈ s.dev.fn.fnDirected)))) ∧
  (∀ s t x r b l, s.dev.takes x 0x14 r → r.buf = some b → r.gen = s.dev.mbGeneration 0x14 → 136 * fieldAt r.payload 16 4 ≤ b.length →
    (∀ i, i < fieldAt r.payload 16 4 → zeroAt b (136 * i + 4) 4) → ((List.range (fieldAt r.payload 16 4)).map (136 * ·)).filterMap (nodeRec b) = l →
    l.length = fieldAt r.payload 16 4 → ((l.map (·.1)).eraseDups).length = fieldAt r.payload 16 4 →
    Effects (.nodeSet t x r) s (fun d =>
      d.regN 0x02500000 = fieldAt r.payload 0 2 + 65536 ∧ d.fab.nodes = l.filter (fun e => e.1 != fieldAt r.payload 0 2) ∧
      d.mbGeneration 0x14 = (r.gen + 1) % 65536 ∧ d.answers x r 0 0 0 0 [])) ∧
  (∀ s t x r, s.dev.takes x 0x15 r → fieldAt r.payload 3 1 = 0 →
    Effects (.sharingGroupSet t x r) s (fun d =>
      tabGet 0 d.qry.sharing (fnOfCode (fieldAt r.payload 0 2)) = fieldAt r.payload 2 1 ∧
      (∀ y, y ≠ fnOfCode (fieldAt r.payload 0 2) → tabGet 0 d.qry.sharing y = tabGet 0 s.dev.qry.sharing y) ∧ d.qry.cache = s.dev.qry.cache ∧
      d.answers x r 0 0 0 0 [])) ∧
  (∀ s t x r, s.dev.takes x 0x15 r → fieldAt r.payload 3 1 = 1 → fieldAt r.payload 2 1 ≠ 0 →
    Effects (.sharingGroupSet t x r) s (fun d =>
      d.qry.sharing = s.dev.qry.sharing ∧ (∀ c ∈ d.qry.cache, c.group ≠ 1000 * portOf x + fieldAt r.payload 2 1) ∧
      (∀ c ∈ s.dev.qry.cache, c.group ≠ 1000 * portOf x + fieldAt r.payload 2 1 → c ∈ d.qry.cache))) ∧
  (∀ s t x r, s.dev.takes x 0x16 r → fieldAt r.payload 0 1 = 0xFF → s.dev.pwr.mode ≠ 6 → s.dev.pwr.change = none → s.dev.pwr.entry = none →
    s.dev.mbGeneration 0x16 = r.gen →
    Effects (.modeSet t x r) s (fun d =>
      d.pwr = { s.dev.pwr with ceiling := fieldAt r.payload 2 2 } ∧ d.mbGeneration 0x16 = (r.gen + 1) % 65536 ∧
      d.answers x r 0 0 0 0 (modeReply s.dev.pwr.mode []))) ∧
  (∀ s t x r, s.dev.takes x 0x16 r → fieldAt r.payload 0 1 ≤ 1 → s.dev.pwr.change = none → s.dev.pwr.entry = none → s.dev.mbGeneration 0x16 = r.gen →
    s.dev.entryBlocked = none →
    Effects (.modeSet t x r) s (fun d =>
      d.pwr = { s.dev.pwr with entry := some (fieldAt r.payload 0 1, 0) } ∧ d.answers x r 0 0 0 0 (modeReply (fieldAt r.payload 0 1) []))) ∧
  (∀ s t x r, s.dev.takes x 0x16 r → s.dev.fn.directed → 2 ≤ fieldAt r.payload 0 1 → fieldAt r.payload 0 1 ≠ 0xFF → fieldAt r.payload 0 1 ≠ 6 →
    s.dev.pwr.change = none → s.dev.pwr.entry = none → s.dev.mbGeneration 0x16 = r.gen →
    Effects (.modeSet t x r) s (fun d =>
      (d.mbox x).busy = some r.seq ∧ d.pwr.mode = s.dev.pwr.mode ∧
      (∃ c, d.pwr.change = some c ∧ c.fromMode = s.dev.pwr.mode ∧ c.toMode = fieldAt r.payload 0 1 ∧ c.toServe = fieldAt r.payload 1 1 ∧ c.by_ = some x ∧
        c.prepared = false) ∧
      d.pwr.limit = max (modeLimit s.dev.pwr.mode s.dev.pwr.serve s.dev.pwr.ceiling)
        (modeLimit (fieldAt r.payload 0 1) (fieldAt r.payload 1 1) s.dev.pwr.ceiling))) ∧
  (∀ s t x r, s.dev.takes x 0x16 r → s.dev.fn.directed → s.dev.pwr.change.isSome →
    Effects (.modeSet t x r) s (fun d => d.pwr = s.dev.pwr ∧ d.mail.parked = s.dev.mail.parked ++ [(x, 0x16, r)])) ∧
  (∀ s t x r y, s.dev.takes x 0x17 r → y = pfOf (portOf x) + fieldAt r.payload 0 2 → fieldAt r.payload 0 2 ≤ 512 → fieldAt r.payload 2 2 = 0x1F →
    fieldAt r.payload 8 2 ≠ 0 → fieldAt r.payload 16 4 ≤ 6144 →
    Effects (.vfSharesSet t x r) s (fun d =>
      d.share y = { s.dev.share y with hearthWeight := fieldAt r.payload 8 2, scratchKib := fieldAt r.payload 16 4, hbm := fieldAt r.payload 20 4
                                       ddr := fieldAt r.payload 24 4, driveMib := fieldAt r.payload 32 8 } ∧
      (∀ z, z ≠ y → d.share z = s.dev.share z) ∧ d.fn.queues = s.dev.fn.queues ∧ (d.mbox x).busy = none)) ∧
  (∀ s t x r q, s.dev.takes x 0x17 r → fieldAt r.payload 2 2 = 0x20 → fieldAt r.payload 0 2 ≠ 0 → fieldAt r.payload 0 2 ≤ 512 →
    fieldAt r.payload 12 2 = q → q ≤ 64 → s.dev.grant (pfOf (portOf x) + fieldAt r.payload 0 2) < q →
    s.dev.pool (portOf (pfOf (portOf x) + fieldAt r.payload 0 2)) < s.dev.granted (portOf (pfOf (portOf x) + fieldAt r.payload 0 2)) +
      (q - s.dev.grant (pfOf (portOf x) + fieldAt r.payload 0 2)) + s.dev.leastQueues (pfOf (portOf x)) →
    Effects (.vfSharesSet t x r) s (fun d => d.fn = s.dev.fn ∧ d.answers x r 0x2001 5 0 0 [])) ∧
  (∀ s t x r b, s.dev.takes x 0x18 r → r.buf = some b → fieldAt r.payload 1 1 = 0 → s.dev.mail.sysUpdate = none → s.dev.mail.sysTables = [] →
    b.length = 40 * fieldAt r.payload 2 2 → (∀ i, i < fieldAt r.payload 2 2 → zeroAt b (40 * i + 37) 3) →
    (∀ e ∈ (parseCareBank b 0 2 (fieldAt r.payload 2 2)).entries, ∀ p ∈ e.key.zip e.care, p.1 &&& ~~~ p.2 = 0) →
    s.dev.regN 0x02300000 = r.gen → s.dev.pipeHearths ≠ [] →
    Effects (.systemTableWrite t x r) s (fun d =>
      d.mail.sysTables = [{ table := fieldAt r.payload 0 1, first := fieldAt r.payload 4 2, miss := fieldAt r.payload 8 4
                            entries := (parseCareBank b 0 2 (fieldAt r.payload 2 2)).entries }] ∧
      d.mail.sysUpdate = some { x := x, table := fieldAt r.payload 0 1 } ∧ (d.mbox x).busy = some r.seq ∧
      d.regN 0x02300000 = s.dev.regN 0x02300000))

/-- Table spaces and tables through a mailbox (R45, R48, R420, R430, R461, R462, R480, R574, R576): a table space is made, set up and removed; a
change of its catalog begins the commit of one epoch, which the response awaits; the commit history goes to host memory.
Model choices that clauses rest on: notes/assumptions/ 50, 90. -/
def Obligations.CatalogCommands : Prop :=
  (∀ s t x r k, s.dev.takes x 0x20 r → fnOfCode (fieldAt r.payload 0 2) = x →
    s.dev.store.groups.any (fun g => g.id == fieldAt r.payload 4 2 && g.scheme == fieldAt r.payload 2 1) → s.dev.store.spaces = [] →
    s.dev.store.lastTs < 0xFFFFFFFF → s.dev.sec.keys.find? (fun k => k.ref == fieldAt r.payload 12 4 && k.going.isNone) = some k →
    Effects (.tsCreate t x r) s (fun d =>
      d.store.spaces = [{ id := s.dev.store.lastTs + 1, x := x, owner := s.dev.twin.pos, scheme := fieldAt r.payload 2 1, retain := fieldAt r.payload 8 4
                          key := k.ref, keyCheck := k.check, home := fieldAt r.payload 4 2 }] ∧
      d.store.lastTs = s.dev.store.lastTs + 1 ∧ d.answers x r 0 0 0 0 (natLE 4 (s.dev.store.lastTs + 1)))) ∧
  (∀ s t x r, s.dev.takes x 0x20 r → fnOfCode (fieldAt r.payload 0 2) = x →
    s.dev.store.groups.any (fun g => g.id == fieldAt r.payload 4 2 && g.scheme == fieldAt r.payload 2 1) → s.dev.store.spaces = [] →
    s.dev.store.lastTs < 0xFFFFFFFF → s.dev.sec.keys = [] →
    Effects (.tsCreate t x r) s (fun d => d.store = s.dev.store ∧ d.answers x r 0x6003 0 0 0 [])) ∧
  (∀ s t x r sp, s.dev.takes x 0x22 r → s.dev.mbSpace x (fieldAt r.payload 0 4) = .ok sp →
    Effects (.tsConfig t x r) s (fun d =>
      (d.space (fieldAt r.payload 0 4)).map (fun k => (k.retain, k.floor)) = some (fieldAt r.payload 4 4,
        max sp.floor (min (lowest sp.visible (s.dev.heldEpochs (fieldAt r.payload 0 4) ++ (match sp.partnerLow with | some e => [e] | none => [])))
          (sp.visible - fieldAt r.payload 4 4))) ∧
      d.answers x r 0 0 0 0 [])) ∧
  (∀ s t x r sp, s.dev.takes x 0x21 r → s.dev.mbSpace x (fieldAt r.payload 0 4) = .ok sp → s.dev.tsUser (fieldAt r.payload 0 4) = none →
    s.dev.runningOps = [] → s.dev.mayCommit sp → (∀ o ∈ s.dev.mail.ops, o.handle ≠ s.dev.mail.nextHandle) →
    Effects (.tsDelete t x r) s (fun d =>
      d.commits (fieldAt r.payload 0 4) (sp.lastEpoch + 1) 3 (.relayout s.dev.mail.nextHandle) (some .remove) ∧
      (d.space (fieldAt r.payload 0 4)).map (·.deleting) = some true ∧
      (d.longOp s.dev.mail.nextHandle).map (fun o => (o.op, o.state, o.total)) = some (0x21, 1, max 1 sp.extents.length) ∧
      d.answers x r 0 0 0 s.dev.mail.nextHandle [])) ∧
  (∀ s t x r sp, s.dev.takes x 0x28 r → s.dev.mbSpace x (fieldAt r.payload 0 4) = .ok sp → s.dev.tsUser (fieldAt r.payload 0 4) = none →
    s.dev.runningOps = [] → s.dev.mayCommit sp → (∀ o ∈ s.dev.mail.ops, o.handle ≠ s.dev.mail.nextHandle) →
    Effects (.tsSecureErase t x r) s (fun d =>
      d.commits (fieldAt r.payload 0 4) (sp.lastEpoch + 1) 3 (.relayout s.dev.mail.nextHandle) (some .erase) ∧
      (d.space (fieldAt r.payload 0 4)).map (·.deleting) = some true ∧ (d.longOp s.dev.mail.nextHandle).map (·.op) = some 0x28 ∧
      d.answers x r 0 0 0 s.dev.mail.nextHandle [])) ∧
  (∀ s t x r sp y, s.dev.takes x 0x21 r → s.dev.mbSpace x (fieldAt r.payload 0 4) = .ok sp → s.dev.tsUser (fieldAt r.payload 0 4) = some y →
    Effects (.tsDelete t x r) s (fun d => d.store = s.dev.store ∧ d.answers x r 0x4002 (holderWord y 1) 0 0 [])) ∧
  (∀ s t x r b sp l, s.dev.takes x 0x23 r → r.buf = some b → s.dev.mbSpace x (fieldAt r.payload 0 4) = .ok sp → s.dev.mayCommit sp →
    24 * fieldAt r.payload 8 2 ≤ b.length → (∀ i, i < fieldAt r.payload 8 2 → colRsv b (24 * i)) →
    ((List.range (fieldAt r.payload 8 2)).map (24 * ·)).filterMap (colRec b) = l → l.length = fieldAt r.payload 8 2 →
    ((l.map (·.id)).eraseDups).length = fieldAt r.payload 8 2 → s.dev.idUsed sp (fieldAt r.payload 4 4) = false → sp.tables = [] →
    Effects (.tableCreate t x r) s (fun d =>
      d.commits (fieldAt r.payload 0 4) (sp.lastEpoch + 1) 3 (.catalog x) (some (.create { id := fieldAt r.payload 4 4, cols := l })) ∧
      (d.mbox x).busy = some r.seq ∧ (d.space (fieldAt r.payload 0 4)).map (fun k => (k.lastEpoch, k.visible)) = some (sp.lastEpoch + 1, sp.visible))) ∧
  (∀ s t x r sp, s.dev.takes x 0x24 r → s.dev.mbSpace x (fieldAt r.payload 0 4) = .ok sp → s.dev.mayCommit sp → isSlag (fieldAt r.payload 4 4) = false →
    (sp.table (fieldAt r.payload 4 4) sp.visible).isSome →
    Effects (.tableDrop t x r) s (fun d =>
      d.commits (fieldAt r.payload 0 4) (sp.lastEpoch + 1) 3 (.catalog x) (some (.drop (fieldAt r.payload 4 4))) ∧ (d.mbox x).busy = some r.seq)) ∧
  (∀ s t x r sp, s.dev.takes x 0x24 r → s.dev.mbSpace x (fieldAt r.payload 0 4) = .ok sp → (sp.table (fieldAt r.payload 4 4) sp.visible) = none →
    Effects (.tableDrop t x r) s (fun d => d.store = s.dev.store ∧ d.answers x r 0x2003 0 0 0 [])) ∧
  (∀ s t x r sp k, s.dev.takes x 0x25 r → s.dev.mbSpace x (fieldAt r.payload 0 4) = .ok sp → s.dev.mayCommit sp → isSlag (fieldAt r.payload 4 4) = false →
    sp.table (fieldAt r.payload 4 4) sp.visible = some k → fieldAt r.payload 8 1 = 2 → (k.column (fieldAt r.payload 16 2) sp.visible).isSome →
    2 ≤ (k.liveCols sp.visible).length →
    Effects (.tableAlter t x r) s (fun d =>
      d.commits (fieldAt r.payload 0 4) (sp.lastEpoch + 1) 3 (.catalog x) (some (.alter (fieldAt r.payload 4 4) [] [fieldAt r.payload 16 2])) ∧
      (d.mbox x).busy = some r.seq)) ∧
  (∀ s t x r sp k c, s.dev.takes x 0x25 r → s.dev.mbSpace x (fieldAt r.payload 0 4) = .ok sp → s.dev.mayCommit sp → isSlag (fieldAt r.payload 4 4) = false →
    sp.table (fieldAt r.payload 4 4) sp.visible = some k → fieldAt r.payload 8 1 = 1 → colRec r.payload 16 = some c → c.ty.nullable →
    (∀ y ∈ k.cols, y.id ≠ c.id) → s.dev.mail.asks = [] →
    Effects (.tableAlter t x r) s (fun d =>
      d.commits (fieldAt r.payload 0 4) (sp.lastEpoch + 1) 3 (.catalog x) (some (.alter (fieldAt r.payload 4 4) [c] [])) ∧ (d.mbox x).busy = some r.seq)) ∧
  (∀ s t x r sp k, s.dev.takes x 0x25 r → s.dev.mbSpace x (fieldAt r.payload 0 4) = .ok sp → s.dev.mayCommit sp →
    sp.table (fieldAt r.payload 4 4) sp.visible = some k → fieldAt r.payload 8 1 = 3 →
    Effects (.tableAlter t x r) s (fun d => (d.mbox x).busy = some r.seq ∧
      ∃ c ∈ d.store.commits, c.ts = fieldAt r.payload 0 4 ∧ c.epoch = sp.lastEpoch + 1 ∧ c.table = fieldAt r.payload 4 4 ∧ c.retireAll ∧ c.use = .catalog x)) ∧
  (∀ s t x r sp k, s.dev.takes x 0x26 r → s.dev.mbSpace x (fieldAt r.payload 0 4) = .ok sp → sp.table (fieldAt r.payload 4 4) sp.visible = some k →
    isSlag (fieldAt r.payload 4 4) = false → fieldAt r.payload 16 4 = 0 →
    Effects (.tableValidationSet t x r) s (fun d =>
      d.answers x r 0 0 0 0 (natLE 8 sp.visible) ∧
      (d.space (fieldAt r.payload 0 4)).map (·.tables) = some (updWhere (fun y => y.id == fieldAt r.payload 4 4 && y.drop == 0)
        (fun y => { y with check := none }) sp.tables))) ∧
  (∀ s t x r b sp k im, s.dev.takes x 0x26 r → r.buf = some b → s.dev.mbSpace x (fieldAt r.payload 0 4) = .ok sp →
    sp.table (fieldAt r.payload 4 4) sp.visible = some k → isSlag (fieldAt r.payload 4 4) = false → fieldAt r.payload 16 4 = b.length → b ≠ [] →
    sha 0 b = sliceAt r.payload 24 32 → structCheck s.dev.supports.1 s.dev.supports.2 b.length b = .ok im → validationFault im ((k.liveCols sp.visible).map (·.ty)) = none →
    Effects (.tableValidationSet t x r) s (fun d =>
      d.answers x r 0 0 0 0 (natLE 8 sp.visible) ∧
      (d.space (fieldAt r.payload 0 4)).map (·.tables) = some (updWhere (fun y => y.id == fieldAt r.payload 4 4 && y.drop == 0)
        (fun y => { y with check := some im }) sp.tables))) ∧
  (∀ s t x r sp, s.dev.takes x 0x27 r → s.dev.mbSpace x (fieldAt r.payload 0 4) = .ok sp → s.dev.sends x → bitOf (s.dev.mbox x).vector 31 = false →
    1 ≤ fieldAt r.payload 8 8 → sp.floor ≤ fieldAt r.payload 8 8 → fieldAt r.payload 8 8 ≤ sp.visible →
    fieldAt r.payload 4 4 ≤ sp.visible + 1 - fieldAt r.payload 8 8 →
    Effects (.commitHistory t x r) s (fun d =>
      d.out = s.dev.out ++ [.hostWrite x (fieldAt r.payload 16 8)
        (((List.range (fieldAt r.payload 4 4)).map (fun i => sp.historyRec (fieldAt r.payload 8 8 + i))).flatten)] ∧
      d.answers x r 0 0 0 0 (natLE 8 (fieldAt r.payload 8 8) ++ natLE 4 (fieldAt r.payload 4 4) ++ zeros 4) ∧ d.store = s.dev.store))

/-- Stripe groups, spares and memory pairs through a mailbox, and the long operations they begin (R67, R73, R75, R371, R442, R447, R462, R463, R469,
R596).
Model choices that clauses rest on: notes/assumptions/ 55, 57, 93. -/
def Obligations.StoreCommands : Prop :=
  (∀ s t x r l n, s.dev.takes x 0x30 r → (r.payload.drop 2).map (·.toNat) = l → s.dev.store.groups = [] → s.dev.mbGeneration 0x30 = r.gen →
    (∀ i ∈ l, (s.dev.drive i).link ∧ (s.dev.drive i).state = 4 ∧ (s.dev.drive i).blocks = n) →
    16384 + stripBlocks (fieldAt r.payload 0 1) ≤ n → n < 2 ^ 64 →
    Effects (.groupCreate t x r) s (fun d =>
      d.store.groups = [{ id := 0, scheme := fieldAt r.payload 0 1, members := l, rows := (n - 16384) / stripBlocks (fieldAt r.payload 0 1) }] ∧
      (∀ i ∈ l, (d.drive i).state = 2) ∧ d.mbGeneration 0x30 = (r.gen + 1) % 65536 ∧
      d.answers x r 0 0 0 0 (natLE 2 0 ++ natLE 4 ((n - 16384) / stripBlocks (fieldAt r.payload 0 1))))) ∧
  (∀ s t x r i, s.dev.takes x 0x31 r → fieldAt r.payload 0 1 = i → (s.dev.drive i).link → (s.dev.drive i).state = 4 →
    Effects (.spareAssign t x r) s (fun d =>
      d.drive i = { s.dev.drive i with state := 3, label := some { pair := s.dev.twin.pairId, seq := ((s.dev.drive i).label.getD {}).seq + 1, role := 1
                                                                   nguid := (s.dev.drive i).nguid } } ∧
      .driveAdmin i 6 s.dev.twin.pairId ∈ d.out ∧ d.answers x r 0 0 0 0 [])) ∧
  (∀ s t x r g, s.dev.takes x 0x32 r → s.dev.store.groups.find? (fun q => q.id == fieldAt r.payload 0 2) = some g → g.failed.contains (fieldAt r.payload 2 1) →
    s.dev.store.rebuilds = [] → s.dev.runningOps = [] → (s.dev.drive (fieldAt r.payload 3 1)).state = 3 → g.need ≤ (s.dev.drive (fieldAt r.payload 3 1)).blocks →
    Effects (.rebuildStart t x r) s (fun d =>
      d.store.rebuilds = [{ group := fieldAt r.payload 0 2, pos := fieldAt r.payload 2 1, drive := fieldAt r.payload 3 1
                            paused := s.dev.twin.declared.isSome, op := some s.dev.mail.nextHandle }] ∧
      (d.drive (fieldAt r.payload 3 1)).state = 7 ∧ d.answers x r 0 0 0 s.dev.mail.nextHandle [])) ∧
  (∀ s t x r sp, s.dev.takes x 0x33 r → s.dev.space (fieldAt r.payload 0 4) = some sp → sp.deleting = false → s.dev.spaceDown sp = false → sp.replay = false →
    s.dev.locked sp = false → fieldAt r.payload 4 4 = 0 → fieldAt r.payload 10 1 = 0xFF → s.dev.runningOps = [] →
    Effects (.relayout t x r) s (fun d =>
      d.mail.ops = s.dev.mail.ops ++ [{ handle := s.dev.mail.nextHandle, x := x, op := 0x33
                                        args := [fieldAt r.payload 0 4, 0, fieldAt r.payload 8 2, 0xFF, fieldAt r.payload 12 2,
                                          if fieldAt r.payload 28 8 = 0 then sp.nextExtent else min sp.nextExtent (fieldAt r.payload 20 8 + fieldAt r.payload 28 8),
                                          fieldAt r.payload 20 8]
                                        total := max 1 (sp.covered 0 (fieldAt r.payload 8 2) (fieldAt r.payload 20 8)
                                          (if fieldAt r.payload 28 8 = 0 then sp.nextExtent else min sp.nextExtent (fieldAt r.payload 20 8 + fieldAt r.payload 28 8))).length
                                        object := fieldAt r.payload 0 4 }] ∧
      d.answers x r 0 0 0 s.dev.mail.nextHandle [] ∧ d.store = s.dev.store)) ∧
  (∀ s t x r, s.dev.takes x 0x34 r → fieldAt r.payload 0 1 = 1 → (s.dev.memUnit (fieldAt r.payload 2 2)).state = 2 → s.dev.runningOps = [] →
    Effects (.scrub t x r) s (fun d =>
      d.mail.ops = s.dev.mail.ops ++ [{ handle := s.dev.mail.nextHandle, x := x, op := 0x34, args := [1, fieldAt r.payload 2 2, 0, 0]
                                        total := max 1 (s.dev.memUnit (fieldAt r.payload 2 2)).lines, object := 1 }] ∧
      d.answers x r 0 0 0 s.dev.mail.nextHandle [])) ∧
  (∀ s t x r u, s.dev.takes x 0x35 r → u = 4 + fieldAt r.payload 0 1 → (s.dev.memUnit u).state = 2 → (s.dev.memUnit u).leaving = false →
    s.dev.backed u = [] → s.dev.runningOps = [] →
    Effects (.memPairOffline t x r) s (fun d =>
      d.memUnit u = { s.dev.memUnit u with leaving := true } ∧ (d.longOp s.dev.mail.nextHandle).isSome ∧ d.answers x r 0 0 0 s.dev.mail.nextHandle [])) ∧
  (∀ s t x r u, s.dev.takes x 0x36 r → u = 4 + fieldAt r.payload 0 1 → (s.dev.memUnit u).state = 3 → u ∉ s.dev.health.unitsFenced → s.dev.runningOps = [] →
    Effects (.memPairOnline t x r) s (fun d =>
      d.memUnit u = { s.dev.memUnit u with state := 1 } ∧ (d.longOp s.dev.mail.nextHandle).isSome ∧ d.answers x r 0 0 0 s.dev.mail.nextHandle [])) ∧
  (∀ s t x r, s.dev.takes x 0x34 r → fieldAt r.payload 0 1 = 1 → (s.dev.memUnit (fieldAt r.payload 2 2)).state = 2 → 8 ≤ s.dev.runningOps.length →
    Effects (.scrub t x r) s (fun d => d.mail.ops = s.dev.mail.ops ∧ d.answers x r 0x1003 0 0 0 [])) ∧
  (∀ s t h f o, s.dev.longOp h = some o → o.handle = h → o.state = 1 → o.op = 0x36 → o.cancel = [] → s.dev.mail.activating = none → s.dev.hostStopped = false →
    s.dev.start.service → s.dev.sec.halted = false → f.ok → o.arg 0 < 4 →
    Effects (.longOpStep t h f) s (fun d =>
      (d.memUnit (4 + o.arg 0)).state = 2 ∧ (d.memUnit (4 + o.arg 0)).gb = f.gb ∧ (d.longOp h).map (fun o => (o.state, o.status, o.percent)) = some (2, 0, 100))) ∧
  (∀ s t h f o, s.dev.longOp h = some o → o.handle = h → o.state = 1 → o.op = 0x36 → o.cancel = [] → s.dev.mail.activating = none → s.dev.hostStopped = false →
    s.dev.start.service → s.dev.sec.halted = false → f.ok = false →
    Effects (.longOpStep t h f) s (fun d =>
      (d.memUnit (4 + o.arg 0)).state = 3 ∧ (d.longOp h).map (fun o => (o.state, o.status)) = some (2, 0x5001))) ∧
  (∀ s t h f o, s.dev.longOp h = some o → o.handle = h → o.state = 1 → o.op = 0x36 → o.cancel ≠ [] → s.dev.mail.activating = none → s.dev.hostStopped = false →
    s.dev.start.service → s.dev.sec.halted = false → s.dev.store.spaces = [] → s.dev.twin.xfer = none →
    Effects (.longOpStep t h f) s (fun d => (d.longOp h).map (fun o => (o.state, o.cancel)) = some (3, [])))

/-- Claims (R472 to R474, Table 15.12) and firmware (R476 to R479) through a mailbox.
Model choices that clauses rest on: notes/assumptions/ 62, 69, 99. -/
def Obligations.ClaimsAndFirmware : Prop :=
  (∀ s t x r, s.dev.takes x 0x40 r → fieldAt r.payload 0 1 ∈ [1, 4] → s.dev.claimOf (fieldAt r.payload 0 1) (fieldAt r.payload 1 1) = none →
    Effects (.claim t x r) s (fun d =>
      d.mail.claims = s.dev.mail.claims ++ [{ num := s.dev.newClaimNum, cls := fieldAt r.payload 0 1, index := fieldAt r.payload 1 1, x := x, holder := 1 }] ∧
      (∀ c ∈ s.dev.mail.claims, c.num ≠ s.dev.newClaimNum) ∧
      d.answers x r 0 0 0 0 (natLE 2 s.dev.newClaimNum ++ natLE 1 (fieldAt r.payload 1 1) ++ zeros 5 ++ natLE 8 0))) ∧
  (∀ s t x r c, s.dev.takes x 0x40 r → fieldAt r.payload 0 1 ≠ 2 → s.dev.claimOf (fieldAt r.payload 0 1) (fieldAt r.payload 1 1) = some c →
    (s.dev.hearth (fieldAt r.payload 1 1)).quenched = false →
    Effects (.claim t x r) s (fun d => d.mail.claims = s.dev.mail.claims ∧ d.answers x r 0x4002 c.word 0 0 [])) ∧
  (∀ s t x r c, s.dev.takes x 0x41 r → s.dev.claimNum (fieldAt r.payload 0 2) = some c → c.x = x → c.holder = 1 → c.cls = 4 →
    Effects (.releaseClaim t x r) s (fun d =>
      d.mail.claims = s.dev.mail.claims.filter (fun k => k.num != c.num) ∧ d.claimNum (fieldAt r.payload 0 2) = none ∧ d.answers x r 0 0 0 0 [])) ∧
  (∀ s t x r c, s.dev.takes x 0x41 r → s.dev.claimNum (fieldAt r.payload 0 2) = some c → c.x ≠ x →
    Effects (.releaseClaim t x r) s (fun d => d.mail.claims = s.dev.mail.claims ∧ d.answers x r 0x2001 7 0 0 [])) ∧
  (∀ s t x r c, s.dev.takes x 0x42 r → s.dev.mail.claims = [c] → fieldAt r.payload 0 2 < c.num →
    Effects (.claimsList t x r) s (fun d => d.mail.claims = [c] ∧ d.answers x r 0 0 0 0 (natLE 4 1 ++ zeros 4 ++ c.listed))) ∧
  (∀ s t x r b, s.dev.takes x 0x50 r → r.buf = some b → fieldAt r.payload 16 4 ≤ b.length → fieldAt r.payload 0 1 ≠ s.dev.mail.running → s.dev.runningOps = [] →
    Effects (.fwStage t x r) s (fun d =>
      d.mail.ops = s.dev.mail.ops ++ [{ handle := s.dev.mail.nextHandle, x := x, op := 0x50, args := [fieldAt r.payload 0 1]
                                        data := b.take (fieldAt r.payload 16 4), total := 3, object := fieldAt r.payload 0 1 }] ∧
      d.answers x r 0 0 0 s.dev.mail.nextHandle [])) ∧
  (∀ s t x r, s.dev.takes x 0x50 r → fieldAt r.payload 0 1 = s.dev.mail.running →
    Effects (.fwStage t x r) s (fun d => d.mail.ops = s.dev.mail.ops ∧ d.answers x r 0x4002 (holderWord 0 6) 0 0 [])) ∧
  (∀ s t h f o, s.dev.longOp h = some o → o.handle = h → o.state = 1 → o.op = 0x50 → o.cancel = [] → s.dev.mail.activating = none → s.dev.hostStopped = false →
    s.dev.start.service → s.dev.sec.halted = false → o.done = 0 →
    Effects (.longOpStep t h f) s (fun d => d.slotState (o.arg 0) = 1)) ∧
  (∀ s t h f o, s.dev.longOp h = some o → o.handle = h → o.state = 1 → o.op = 0x50 → o.cancel = [] → s.dev.mail.activating = none → s.dev.hostStopped = false →
    s.dev.start.service → s.dev.sec.halted = false → o.done = 2 →
    Effects (.longOpStep t h f) s (fun d =>
      (fwVerify o.data s.dev.sec.svnMin →
        (d.slotFw (o.arg 0)).state = 2 ∧ (d.slotFw (o.arg 0)).version = fieldAt o.data 8 4 ∧ (d.slotFw (o.arg 0)).digest = sha 1 o.data ∧
        (d.longOp h).map (fun o => (o.state, o.status)) = some (2, 0)) ∧
      (fwVerify o.data s.dev.sec.svnMin = false →
        d.slotState (o.arg 0) = s.dev.slotState (o.arg 0) ∧ (d.longOp h).map (fun o => (o.state, o.status)) = some (2, 0x3010)))) ∧
  (∀ s t x r, s.dev.takes x 0x51 r → s.dev.slotState (fieldAt r.payload 0 1) = 2 → s.dev.sec.svnMin ≤ (s.dev.slotFw (fieldAt r.payload 0 1)).svn →
    s.dev.sharesTp (fieldAt r.payload 0 1) → s.dev.runningOps = [] →
    Effects (.fwActivate t x r) s (fun d =>
      d.mail.ops = s.dev.mail.ops ++ [{ handle := s.dev.mail.nextHandle, x := x, op := 0x51, args := [fieldAt r.payload 0 1], total := 5
                                        object := fieldAt r.payload 0 1 }] ∧
      d.mail.activating = s.dev.mail.activating ∧ d.answers x r 0 0 0 s.dev.mail.nextHandle [])) ∧
  (∀ s t stage minor a, s.dev.mail.activating = some a → a.step < 4 → (∀ x, (s.dev.mbox x).held = none) →
    After Dev.tidy (.fwActivateFailed t stage minor) s (fun d =>
      d.mail.activating = none ∧ d.mail.running = a.prev ∧ d.mail.minor = minor ∧ d.mail.boot = s.dev.mail.boot ∧
      d.sec.svnRun = (s.dev.slotFw a.prev).svn ∧ d.mail.fwA = s.dev.mail.fwA ∧ d.mail.fwB = s.dev.mail.fwB)) ∧
  (∀ s t x r, s.dev.takes x 0x52 r → s.dev.slotState (fieldAt r.payload 0 1) = 2 → s.dev.mbGeneration 0x52 = r.gen →
    Effects (.fwSelect t x r) s (fun d =>
      d.mail.boot = fieldAt r.payload 0 1 ∧ d.mail.running = s.dev.mail.running ∧ d.mbGeneration 0x52 = (r.gen + 1) % 65536 ∧ d.answers x r 0 0 0 0 [])) ∧
  (∀ s t x r, s.dev.takes x 0x52 r → s.dev.slotState (fieldAt r.payload 0 1) ≠ 2 →
    Effects (.fwSelect t x r) s (fun d => d.mail.boot = s.dev.mail.boot ∧ d.answers x r 0x2001 5 0 0 []))

/-! ### Commits and drives (14_ingest_durability.md) -/

/-- The commit protocol (R64, R66, R69, R422, R424, R426, R431, R501): the record is written once the data is on the media, to the partner first while
paired; the epoch becomes visible in order once it is durable; a checkpoint frees the ring and reclamation frees retired extents.
Model choices that clauses rest on: notes/assumptions/ 52, 53, 70, 178. -/
def Obligations.CommitProtocol : Prop :=
  (∀ s t ts e sp c g, s.dev.twin.alone → s.dev.store.spaces = [sp] → sp.id = ts → s.dev.store.commits = [c] → c.ts = ts → c.epoch = e → c.st = .writing →
    c.waits = [] → c.kind = 3 → s.dev.store.groups = [g] → g.id = sp.home → g.failed.length ≤ schemeM g.scheme → s.dev.locked sp = false →
    s.dev.ringFits sp.home c.blocks → s.dev.twin.xfer = none →
    Effects (.commitDataWritten t ts e) s (fun d =>
      d.store.commits = [{ c with st := .recording, mirrored := true, waitsRing := false
                                  waits := (List.range (s.dev.recordDrives sp.home).length).map (s.dev.store.nextCmd + ·) }] ∧
      d.store.dcmds = s.dev.store.dcmds ++ (List.range (s.dev.recordDrives sp.home).length).map (fun i =>
        { id := s.dev.store.nextCmd + i, drive := (s.dev.recordDrives sp.home).getD i 0, write := true
          lba := 4096 + 6144 * s.dev.twin.pos + (match s.dev.journal sp.home with | some j => (j.place c.blocks).1 | none => 0)
          blocks := c.blocks, use := .commitRecord ts e, group := sp.home, issued := max s.dev.timeUs t }))) ∧
  (∀ s t ts e sp c, s.dev.twin.alone = false → s.dev.store.spaces = [sp] → sp.id = ts → sp.owner = s.dev.twin.pos → s.dev.store.commits = [c] → c.ts = ts →
    c.epoch = e → c.st = .writing → c.waits = [] → c.kind = 3 → s.dev.locked sp = false → s.dev.twin.xfer = none →
    Effects (.commitDataWritten t ts e) s (fun d =>
      d.store.commits = [{ c with st := .mirrored, mirrored := false }] ∧ d.store.dcmds = s.dev.store.dcmds ∧
      (d.twin.unacked.getLast?).map (fun f => (f.kind, f.act)) = some (6, .record ts e))) ∧
  (∀ s t ts e sp c x n, s.dev.twin.alone → s.dev.store.spaces = [sp] → sp.id = ts → s.dev.store.commits = [c] → c.ts = ts → c.epoch = e → c.st = .recording →
    c.waits = [] → c.use = .catalog x → c.change = none → (s.dev.mbox x).busy = some n → sp.open_ = [e] → sp.lastEpoch = e → sp.visible < e → s.dev.twin.xfer = none →
    Effects (.commitRecordDurable t ts e) s (fun d =>
      (d.space ts).map (fun k => (k.visible, k.open_)) = some (e, []) ∧ d.store.commits = [] ∧
      (∃ k, (d.space ts).bind (fun k => k.history.getLast?) = some k ∧ k.epoch = e ∧ k.kind = c.kind ∧ k.fn = fnCode x ∧ k.table = c.table ∧ k.writer = c.writer) ∧
      (d.mbox x).busy = none ∧ (d.mbox x).doneSeq = n ∧
      (d.mbox x).resp = natLE 2 0 ++ natLE 2 n ++ natLE 2 8 ++ natLE 2 0 ++ natLE 4 0 ++ natLE 4 0 ++ natLE 8 e)) ∧
  (∀ s t ts e e0 sp c, s.dev.twin.alone → s.dev.store.spaces = [sp] → sp.id = ts → s.dev.store.commits = [c] → c.ts = ts → c.epoch = e → c.st = .recording →
    c.waits = [] → sp.open_ = [e0, e] → e0 < e → sp.lastEpoch = e → sp.visible + 1 = e0 → c.change = none → s.dev.twin.xfer = none →
    Effects (.commitRecordDurable t ts e) s (fun d =>
      (d.space ts).map (fun k => (k.visible, k.open_)) = some (sp.visible, [e0]) ∧ d.store.commits = [{ c with st := .durable }] ∧ d.mail.boxes = s.dev.mail.boxes)) ∧
  (∀ s t g j, s.dev.journal g = some j → 3072 ≤ j.usedBlocks → s.dev.store.commits = [] → (∀ sp ∈ s.dev.store.spaces, sp.home ≠ g) →
    Gives (.journalCheckpoint t g) s (fun d =>
      (d.journal g).map (fun k => (k.recs.map (·.1), k.seq, k.last, k.clean)) = some ([6], j.seq + 1, max s.dev.timeUs t, false) ∧
      d.store.dcmds.length = s.dev.store.dcmds.length + (s.dev.recordDrives g).length ∧ d.store.spaces = s.dev.store.spaces)) ∧
  (∀ s t g j sp x q r, s.dev.journal g = some j → 3072 ≤ j.usedBlocks → s.dev.store.commits = [] → s.dev.store.spaces = [sp] → sp.home = g →
    s.dev.owns sp.id → sp.extents = [x] → sp.dirs = [] → s.dev.store.groups = [q] → q.id = g → q.failed = [] → q.freeRow = some r →
    Gives (.journalCheckpoint t g) s (fun d =>
      (d.journal g).map (fun k => (k.recs.map (·.1), k.seq)) = some ([6], j.seq + 1) ∧
      d.store.spaces = [{ sp with dirs := [{ table := x.table, col := x.col, heads := [(x.num, x.retire)], group := g, row := r }] }] ∧
      d.store.groups.map (·.used) = [q.used ++ [r]])) ∧
  (∀ s t g j, s.dev.journal g = some j → j.usedBlocks < 3072 → max s.dev.timeUs t < j.last + 60000000 → s.dev.store.commits = [] →
    Gives (.journalCheckpoint t g) s (fun d => d = s.dev.at t)) ∧
  (∀ s t ts sp, s.dev.space ts = some sp → (s.dev.twin.alone ∨ sp.owner = s.dev.twin.pos) →
    Gives (.reclamationStep t ts) s (fun d =>
      (d.space ts).map (·.extents) = some (sp.extents.filter (fun x => !(x.retire != 0 && decide (x.retire ≤ sp.floor)))) ∧
      d.store.groups = (freeRows s.dev.store.groups (sp.extents.filter (fun x => x.retire != 0 && decide (x.retire ≤ sp.floor)))).map (fun g =>
        { g with trim := g.trim.filter (fun p => !(s.dev.trimsOf ts g).contains p) }) ∧
      (∀ g ∈ s.dev.store.groups, ∀ p ∈ s.dev.trimsOf ts g, ∀ pos i, pos < schemeK (s.dev.schemeOf g.id) + schemeM (s.dev.schemeOf g.id) → s.dev.memberOf g.id pos = some i →
        .driveTrim i (16384 + p.1 * stripBlocks (s.dev.schemeOf g.id)) (stripBlocks (s.dev.schemeOf g.id)) ∈ d.out) ∧
      d.mem = s.dev.mem))

/-- Drive commands as they end or pass their time limits (R421, R444, R445).
Model choices that clauses rest on: notes/assumptions/ 56, 58, 169. -/
def Obligations.DriveCommands : Prop :=
  (∀ s t n c ts e, s.dev.dcmd n = some c → c.write → c.use = .commitData ts e →
    Effects (.driveCommandComplete t n {}) s (fun d =>
      d.store.dcmds = s.dev.store.dcmds.filter (fun k => !(k.id == n)) ∧ (∀ k ∈ d.store.commits, k.ts = ts → k.epoch = e → n ∉ k.waits) ∧
      (tabGet {} d.rcd.acc.lat c.drive).count = (tabGet {} s.dev.rcd.acc.lat c.drive).count + 1)) ∧
  (∀ s t n c q i k got, s.dev.dcmd n = some c → c.write = false → c.use = .charge q i k → c.retry < 3 → s.dev.readGood c got →
    (∀ h, s.dev.charge ⟨q, i, k, .flow⟩ = some h → h.todo = some []) →
    Effects (.driveCommandComplete t n { got := got }) s (fun d =>
      d.store.dcmds = s.dev.store.dcmds.filter (fun k => !(k.id == n)) ∧ d.store.commits = s.dev.store.commits ∧ d.out = s.dev.out)) ∧
  (∀ s t n c q i k got, s.dev.dcmd n = some c → c.write = false → c.use = .charge q i k → c.retry = 0 → s.dev.readGood c got = false →
    (s.dev.drive c.drive).waking = false →
    Effects (.driveCommandComplete t n { got := got }) s (fun d =>
      d.dcmd n = some { c with retry := 1, issued := max s.dev.timeUs t, held := false } ∧ d.out = s.dev.out ++ [.drive n] ∧
      d.regN 0x02900008 = satAdd 32 (s.dev.regN 0x02900008) 1)) ∧
  (∀ s t n c q i k, s.dev.dcmd n = some c → c.write = false → c.use = .charge q i k → c.retry = 0 → (s.dev.drive c.drive).waking = false →
    Effects (.driveCommandComplete t n { code := 1 }) s (fun d =>
      d.dcmd n = some { c with retry := 1, issued := max s.dev.timeUs t, held := false } ∧ d.out = s.dev.out ++ [.drive n] ∧
      d.regN 0x02900008 = satAdd 32 (s.dev.regN 0x02900008) 1)) ∧
  (∀ s t n c q i k, s.dev.dcmd n = some c → c.write = false → c.use = .charge q i k → c.retry = 1 → s.dev.delayCount 0 < 4096 →
    Effects (.driveCommandComplete t n { code := 1 }) s (fun d =>
      d.dcmd n = some { c with retry := 2, waiting := true } ∧
      d.qry.delays = s.dev.qry.delays ++ [⟨0, (s.dev.at t).nowTick + 10, n, 0, none⟩])) ∧
  (∀ s t n c, s.dev.dcmd n = some c → c.waiting → (s.dev.drive c.drive).waking = false →
    Gives (.shortReadRetry t n) s (fun d =>
      d.dcmd n = some { c with waiting := false, issued := max s.dev.timeUs t, held := false } ∧ d.out = s.dev.out ++ [.drive n] ∧
      (∀ k ∈ d.qry.delays, k.list = 0 → k.tag ≠ n) ∧ (∃ k ∈ d.qry.delays, k.list = 1 ∧ k.tag = n))) ∧
  (∀ s t n c, s.dev.dcmd n = some c → c.waiting → (s.dev.drive c.drive).waking → c.use ≠ .power →
    Gives (.shortReadRetry t n) s (fun d =>
      d.dcmd n = some { c with waiting := false, issued := max s.dev.timeUs t, held := true } ∧ d.out = s.dev.out)) ∧
  (∀ s t n c, s.dev.dcmd n = some c → c.use = .power → (∀ k ∈ s.dev.store.dcmds, k.held = false) →
    Effects (.driveCommandComplete t n {}) s (fun d =>
      d.dcmd n = none ∧ d.drive c.drive = { s.dev.drive c.drive with ps := 0, waking := false } ∧ d.out = s.dev.out)) ∧
  (∀ s t n c q i k, s.dev.dcmd n = some c → c.write = false → c.use = .charge q i k → c.waiting = false → c.held = false → c.retry = 0 →
    c.issued + 1000 * s.dev.regField 0x02900000 15 0 ≤ max s.dev.timeUs t → (s.dev.drive c.drive).expiries = [] → c.drive < 72 →
    (∀ k ∈ s.dev.store.dcmds, k.id < s.dev.store.nextCmd) →
    Effects (.driveCmdTimeout t n) s (fun d =>
      (d.dcmd n).map (fun k => (k.use, k.abort)) = some (.gone, 1) ∧ (d.dcmd s.dev.store.nextCmd).map (fun k => (k.use, k.drive, k.retry)) = some (c.use, c.drive, 1) ∧
      .driveAdmin c.drive 1 n ∈ d.out ∧ (d.drive c.drive).expiries = [max s.dev.timeUs t] ∧
      d.regN (0x02910004 + 0x100 * c.drive) = satAdd 32 (s.dev.regN (0x02910004 + 0x100 * c.drive)) 1)) ∧
  (∀ s t n c, s.dev.dcmd n = some c → c.use = .gone → c.abort = 1 →
    Gives (.driveAbortTimeout t n) s (fun d =>
      d.dcmd n = some { c with abort := 2 } ∧ d.drive c.drive = { s.dev.drive c.drive with resetting := true } ∧ d.out = s.dev.out ++ [.driveAdmin c.drive 2 0])) ∧
  (∀ s t i g p q, (s.dev.drive i).resetting → s.dev.memberAt i = some (g, p) → s.dev.store.groups.find? (fun k => k.id == g) = some q →
    s.dev.health.recovering = [] → s.dev.store.dcmds = [] → s.dev.store.commits = [] → s.dev.store.spaces = [] → s.dev.twin.xfer = none →
    (∀ k ∈ s.dev.store.drives, k.2.state ≠ 3) →
    Effects (.driveResetTimeout t i) s (fun d =>
      (d.drive i).state = 5 ∧ (d.drive i).resetting = false ∧ (d.store.groups.find? (fun k => k.id == g)).map (·.failed) = some (q.failed ++ [p]) ∧
      d.health.recovering = [(3, g)] ∧ d.store.rebuilds = s.dev.store.rebuilds))

/-- Drives that come and go, and rebuilds (R440, R442, R447, R631).
Model choices that clauses rest on: notes/assumptions/ 55, 169, 177. -/
def Obligations.DrivesAndRebuilds : Prop :=
  (∀ s t i, i < 72 → (s.dev.drive i).present = false →
    Gives (.driveInsertion t i) s (fun d => d.drive i = { s.dev.drive i with present := true, power := true } ∧ ∀ j, j ≠ i → d.drive j = s.dev.drive j)) ∧
  (∀ s t i, (s.dev.drive i).power → Gives (.driveRefclkStart t i) s (fun d => d.drive i = { s.dev.drive i with refclk := true })) ∧
  (∀ s t i, (s.dev.drive i).refclk → Gives (.drivePerstRelease t i) s (fun d => d.drive i = { s.dev.drive i with perst := false, state := 1 })) ∧
  (∀ s t i (f : DriveIn) rings, (s.dev.drive i).present → (s.dev.drive i).perst = false → (s.dev.drive i).link = false → s.dev.store.spaces = [] → f.why = 0 →
    f.label = none →
    Effects (.driveLinkUp t i f rings) s (fun d =>
      d.drive i = { s.dev.drive i with link := true, speed := f.speed, width := f.width, blocks := f.blocks, reason := 0, label := none, nguid := f.nguid
                                       expiries := [], media := [], state := 4 })) ∧
  (∀ s t i (f : DriveIn) rings, (s.dev.drive i).present → (s.dev.drive i).perst = false → (s.dev.drive i).link = false → s.dev.store.spaces = [] → f.why ≠ 0 →
    Effects (.driveLinkUp t i f rings) s (fun d => (d.drive i).state = 6 ∧ (d.drive i).reason = f.why ∧ d.store.groups = s.dev.store.groups)) ∧
  (∀ s t i (f : DriveIn) rings l, (s.dev.drive i).present → (s.dev.drive i).perst = false → (s.dev.drive i).link = false → s.dev.store.spaces = [] → f.why = 0 →
    f.label = some l → l.pair = s.dev.twin.pairId → l.nguid = f.nguid → l.role = 1 →
    Effects (.driveLinkUp t i f rings) s (fun d => (d.drive i).state = 3 ∧ d.store.groups = s.dev.store.groups)) ∧
  (∀ s t i, (s.dev.drive i).present → s.dev.memberAt i = none → s.dev.store.rebuilds = [] →
    Effects (.driveRemoval t i) s (fun d => d.drive i = {} ∧ d.store.groups = s.dev.store.groups)) ∧
  (∀ s t g pos r q, s.dev.rebuildOf g pos = some r → s.dev.store.groups.find? (fun k => k.id == g) = some q → r.paused = false → r.op = none →
    s.dev.store.dcmds = [] → q.rebuildRows r.done = [] → pos < q.members.length →
    Effects (.rebuildStep t g pos) s (fun d =>
      d.rebuildOf g pos = none ∧ (d.drive r.drive).state = 2 ∧
      (d.store.groups.find? (fun k => k.id == g)).map (fun k => (k.members[pos]?, k.failed)) = some (some r.drive, q.failed.filter (· != pos)) ∧
      ((d.mbox 0).events.getLast?).map (fun e => (e.code, e.object, e.data)) = some (0x0008, g, pos))) ∧
  (∀ s t g pos r q, s.dev.rebuildOf g pos = some r → s.dev.store.groups.find? (fun k => k.id == g) = some q → r.paused = false → r.op = none →
    s.dev.store.dcmds = [] → q.rebuildRows r.done ≠ [] → (∀ k ∈ (q.rebuildRows r.done).take 16, s.dev.beyond g k = false) →
    Effects (.rebuildStep t g pos) s (fun d =>
      d.rebuildOf g pos = some { r.done with hand := (q.rebuildRows r.done).take 16 } ∧ d.store.groups = s.dev.store.groups ∧
      (∀ k ∈ (q.rebuildRows r.done).take 16, ∃ c ∈ d.store.dcmds, c.write ∧ c.drive = r.drive ∧ c.use = .rebuild g pos ∧
        c.lba = 16384 + k * stripBlocks q.scheme ∧ c.blocks = stripBlocks q.scheme)))

/-! ### The twin pair (17_twin.md) -/

/-- The twin link (R496, R499, R500): pairing by HELLO, heartbeats, acknowledgements, resent frames and silence.
Model choices that clauses rest on: notes/assumptions/ 72, 120. -/
def Obligations.TwinLink : Prop :=
  (∀ s t seq (h : THello), s.dev.nextFrame seq → s.dev.sec.lifecycle = 3 → s.dev.twin.pairId = 0 → h.pairId = 0 → h.pairEnable →
    s.dev.regField 0x02B00000 0 0 = 1 → h.hbm = Config.hbmGb →
    max s.dev.mail.firmware.tp.1 h.tpMajorMin ≤ min s.dev.mail.firmware.tp.2.1 h.tpMajorMax →
    Effects (.twinHello t seq h) s (fun d =>
      d.twin.partner = some h ∧ d.twin.pairId = newPairId Config.serial h.serial ∧ d.twin.pos = (if Config.serial < h.serial then 0 else 1) ∧
      d.twin.state = 2 ∧ d.twin.rxNext = seq + 1)) ∧
  (∀ s t seq (h : THello), s.dev.nextFrame seq → s.dev.sec.lifecycle ≠ 3 → s.dev.twin.state = 1 →
    Effects (.twinHello t seq h) s (fun d =>
      d.twin.state = 0 ∧ d.twin.alone ∧ d.twin.pairId = s.dev.twin.pairId ∧
      ((d.mbox 0).events.getLast?).map (fun e => (e.code, e.object, e.data)) = some (0x0123, 0, 7))) ∧
  (∀ s t seq, s.dev.nextFrame seq →
    Gives (.heartbeat t seq) s (fun d =>
      d.twin = { s.dev.twin with rxNext := seq + 1, lastRx := max s.dev.timeUs t, silent := false } ∧ d.out = s.dev.out ∧ d.store = s.dev.store)) ∧
  (∀ s t seq, (s.dev.twin.up0 || s.dev.twin.up1) → seq ≠ s.dev.twin.rxNext →
    Gives (.heartbeat t seq) s (fun d => d.twin.rxNext = s.dev.twin.rxNext ∧ d.twin.lastRx = max s.dev.timeUs t)) ∧
  (∀ s t ack, (s.dev.twin.up0 || s.dev.twin.up1) → (∀ f ∈ s.dev.twin.unacked, f.act = .none) → s.dev.twin.xfer = none →
    Effects (.twinAck t ack) s (fun d =>
      d.twin.unacked = s.dev.twin.unacked.filter (fun f => decide (ack ≤ f.seq)) ∧ d.twin.lastRx = max s.dev.timeUs t ∧ d.twin.silent = false ∧ d.out = s.dev.out)) ∧
  (∀ s t ack f x q cid c, (s.dev.twin.up0 || s.dev.twin.up1) → s.dev.twin.unacked = [f] → f.seq < ack → f.act = .compl x q cid →
    (s.dev.qp x q).ready = [c] → c.cid = cid → c.acked = false → s.dev.twin.xfer = none →
    Effects (.twinAck t ack) s (fun d => d.twin.unacked = [] ∧ (d.qp x q).ready = [{ c with acked := true }])) ∧
  (∀ s t seq f, s.dev.twin.unacked.find? (fun f => f.seq == seq) = some f → (s.dev.twin.up0 || s.dev.twin.up1) → f.sent + 50 ≤ max s.dev.timeUs t →
    s.dev.delayCount 4 < 4096 →
    Gives (.twinFrameRetry t seq) s (fun d =>
      d.out = s.dev.out ++ [.twin (s.dev.linkFrame f.kind f.seq f.body f.data)] ∧ d.regN 0x02B0002C = satAdd 32 (s.dev.regN 0x02B0002C) 1 ∧
      (d.twin.unacked.find? (fun f => f.seq == seq)).map (·.sent) = some (max s.dev.timeUs t))) ∧
  (∀ s t, s.dev.twin.up0 → s.dev.twin.up1 = false → s.dev.delayCount 4 < 4096 →
    Gives (.heartbeatTimer t) s (fun d =>
      d.out = s.dev.out ++ [.twin (s.dev.linkFrame 2 s.dev.twin.txSeq [s.dev.opSec, s.dev.twin.witSeq] [])] ∧ d.twin.txSeq = s.dev.twin.txSeq + 1)) ∧
  (∀ s t, s.dev.twin.lastRx + 20000 ≤ max s.dev.timeUs t → max s.dev.timeUs t - s.dev.twin.lastRx < 2 ^ 32 →
    Gives (.linkSilent t) s (fun d =>
      d.twin = { s.dev.twin with silent := true } ∧ d.regN 0x02B00030 = max (s.dev.regN 0x02B00030) (max s.dev.timeUs t - s.dev.twin.lastRx))) ∧
  (∀ s t, max s.dev.timeUs t < s.dev.twin.lastRx + 20000 → Gives (.linkSilent t) s (fun d => d = s.dev.at t)) ∧
  (∀ s t f, s.dev.twin.up0 → s.dev.twin.up1 → s.dev.twin.unacked = [f] → f.lane = 0 → s.dev.delayCount 4 < 4096 →
    Gives (.twinGroupDown t 0) s (fun d =>
      d.twin.up0 = false ∧ d.twin.up1 ∧ d.out = s.dev.out ++ [.twin (s.dev.linkFrame f.kind f.seq f.body f.data)] ∧
      d.twin.unacked = [{ f with sent := max s.dev.timeUs t, lane := 1 }])) ∧
  (∀ s t, s.dev.twin.up0 = false → s.dev.twin.up1 = false → s.dev.twin.state = 0 →
    Gives (.twinLinkUp t 0) s (fun d =>
      d.twin.up0 ∧ d.twin.up1 = false ∧ d.twin.state = 1 ∧ d.twin.lastRx = max s.dev.timeUs t ∧ (d.twin.unacked.getLast?).map (·.kind) = some 1)) ∧
  (∀ s t x on, s.dev.start.service → s.dev.hostStopped = false → s.dev.twin.up0 = false → s.dev.twin.up1 = false → s.dev.regN 0x02B00000 < 4 →
    Effects (.pairEnable t x on (s.dev.regN 0x02B00000) (s.dev.writeCount 0x02B00000)) s (fun d =>
      d.regField 0x02B00000 0 0 = b2n on ∧ d.regField 0x02B00000 1 1 = s.dev.regField 0x02B00000 1 1 ∧ d.twin = s.dev.twin)) ∧
  (∀ s t x on, s.dev.start.service → s.dev.hostStopped = false → s.dev.twin.up0 = false → s.dev.twin.up1 = false → s.dev.regN 0x02B00000 < 4 →
    Effects (.acceptJoin t x on (s.dev.regN 0x02B00000) (s.dev.writeCount 0x02B00000)) s (fun d =>
      d.regField 0x02B00000 1 1 = b2n on ∧ d.regField 0x02B00000 0 0 = s.dev.regField 0x02B00000 0 0 ∧ d.twin = s.dev.twin))

/-- What the twins tell each other (R30, R68, R193, R422, R501, R502, R509, R511, R521, R522): each frame is stored as its kind says.
Model choices that clauses rest on: notes/assumptions/ 90, 121. -/
def Obligations.TwinFrames : Prop :=
  (∀ s t seq (r : AllocReq) sp gs placed, s.dev.nextFrame seq → s.dev.twin.state = 3 → r.form = 0 → s.dev.space r.ts = some sp → s.dev.allocates sp →
    s.dev.locked sp = false → sp.lastEpoch < maxEpoch → sp.lastEpoch < sp.reserved → r.extents ≤ 4096 →
    placeExtents s.dev.store.groups sp.scheme ((List.range r.extents).map (fun i =>
      { num := sp.nextExtent + i, table := r.table, col := 0, firstRow := 0, rows := 0, create := sp.lastEpoch + 1 })) = some (gs, placed) →
    Effects (.allocReq t seq r) s (fun d =>
      d.store.groups = gs ∧
      (d.store.commits.getLast?).map (fun c => (c.epoch, c.use, c.st, c.created)) =
        some (sp.lastEpoch + 1, .partner (fnOfCode r.fn) r.q r.cid, .asking, placed) ∧
      (d.space r.ts).map (fun k => (k.lastEpoch, k.nextExtent)) = some (sp.lastEpoch + 1, sp.nextExtent + r.extents) ∧
      (d.twin.unacked.getLast?).map (fun f => (f.kind, f.body.take 7)) = some (4, [0, r.ts, r.fn, r.q, r.cid, sp.lastEpoch + 1, 0]))) ∧
  (∀ s t seq (r : AllocReq), s.dev.nextFrame seq → s.dev.twin.state = 3 → r.form = 2 →
    Effects (.allocReq t seq r) s (fun d =>
      d.store.groups = s.dev.store.groups.map (fun g => { g with spill := g.spill.filter (fun p => !r.spill.contains (g.id, p.1)) }))) ∧
  (∀ s t seq (g : AllocGrant) c sp x, s.dev.nextFrame seq → s.dev.twin.state = 3 → g.form = 0 → s.dev.store.ingests = [] → s.dev.qry.queries = [] →
    s.dev.mail.asks = [c] → c.use = .catalog x → c.ts = g.ts → g.fn = fnCode x → g.q = 0xFFFF → g.cid = 0 → c.retired = [] → s.dev.space g.ts = some sp →
    g.epoch ≠ 0 → s.dev.store.commits = [] →
    Effects (.allocGrant t seq g) s (fun d =>
      d.mail.asks = [] ∧ d.store.commits = [{ c with epoch := g.epoch, st := .writing, created := [], bound := sp.visible, firstRow := g.first
                                                     slagFirst := g.slagFirst, writer := s.dev.twin.pos, blocks := 2, waits := [] }])) ∧
  (∀ s t seq c k sp, s.dev.nextFrame seq → s.dev.twin.state = 3 → s.dev.store.commits = [k] → s.dev.store.spaces = [sp] → sp.id = k.ts → c.ts = k.ts →
    c.epoch = k.epoch → k.st = .asking → k.kind = 3 → s.dev.locked sp = false → s.dev.twin.xfer = none →
    Effects (.extentHeaders t seq c) s (fun d =>
      d.store.commits = [{ k with created := c.created, retired := c.retired, retireAll := c.retireAll, change := c.change, bound := c.bound
                                  blocks := 2 + c.created.length + ceilDiv c.retired.length 256, st := .mirrored, mirrored := false }] ∧
      (d.twin.unacked.getLast?).map (fun f => (f.kind, f.act)) = some (6, .record k.ts k.epoch))) ∧
  (∀ s t seq c, s.dev.nextFrame seq → s.dev.twin.state = 3 → c.epoch ≠ 0 → s.dev.commitOf c.ts c.epoch = none →
    Effects (.record t seq c) s (fun d =>
      d.twin.records = s.dev.twin.records.filter (fun k => !(k.ts == c.ts && k.epoch == c.epoch)) ++ [c] ∧ d.store = s.dev.store)) ∧
  (∀ s t seq c k x, s.dev.nextFrame seq → s.dev.twin.state = 3 → c.epoch ≠ 0 → s.dev.store.commits = [k] → k.ts = c.ts → k.epoch = c.epoch → k.use = .catalog x →
    Effects (.record t seq c) s (fun d => d.store.commits = [{ k with st := .mirrored }] ∧ d.twin.records = s.dev.twin.records)) ∧
  (∀ s t seq m c, s.dev.nextFrame seq → s.dev.twin.state = 3 → m.gather = false → s.dev.pcmd m.x m.q m.cid = some c → c.resume = none →
    Gives (.checkpoint t seq m) s (fun d =>
      (d.pcmd m.x m.q m.cid).map (fun k => k.resume.map (fun r => (r.ckpts, r.epoch, r.autonomous))) =
        some (some ([(m.stage, m.idx, m.ck)], some m.epoch, some m.autonomous)))) ∧
  (∀ s t seq x q idx entry, s.dev.nextFrame seq → s.dev.twin.state = 3 →
    Gives (.cmdStart t seq x q idx entry) s (fun d =>
      d.twin.cmds = s.dev.twin.cmds ++ [{ x := x, q := q, idx := idx, entry := entry }] ∧ d.host = s.dev.host ∧ d.out = s.dev.out)) ∧
  (∀ s t seq c, s.dev.nextFrame seq → s.dev.twin.state = 3 → s.dev.store.commits = [] →
    Gives (.cmdDone t seq [c]) s (fun d =>
      d.twin.cmds = s.dev.twin.cmds.filter (fun k => !(k.x == c.x && k.q == c.q && k.cid == fieldAt c.entry 0 2)) ∧
      d.twin.dones = s.dev.twin.dones ++ [c] ∧ d.host = s.dev.host)) ∧
  (∀ s t seq x q p, s.dev.nextFrame seq → s.dev.twin.state = 3 → p.state = .active →
    Gives (.queueState t seq x q p) s (fun d =>
      tabGet {} d.twin.queues (qpKey x q) = p ∧ (∀ k, k ≠ qpKey x q → tabGet {} d.twin.queues k = tabGet {} s.dev.twin.queues k) ∧
      d.twin.cmds = s.dev.twin.cmds ∧ d.host = s.dev.host)) ∧
  (∀ s t seq x q p, s.dev.nextFrame seq → s.dev.twin.state = 3 → p.state = .disabled →
    Gives (.queueState t seq x q p) s (fun d => (∀ k ∈ d.twin.cmds, ¬ (k.x = x ∧ k.q = q)) ∧ ∀ k ∈ d.twin.dones, ¬ (k.x = x ∧ k.q = q))) ∧
  (∀ s t seq h low q cid, s.dev.nextFrame seq → s.dev.twin.state = 3 → (s.dev.space h.ts).isSome → low < ones64 →
    Gives (.hold t seq h true low q cid) s (fun d =>
      d.twin.holds = s.dev.twin.holds.filter (fun k => k.id != h.id) ++ [h] ∧ (d.space h.ts).map (·.partnerLow) = some (some low))) ∧
  (∀ s t seq h q cid, s.dev.nextFrame seq → s.dev.twin.state = 3 → (s.dev.space h.ts).isSome →
    Gives (.hold t seq h false ones64 q cid) s (fun d =>
      d.twin.holds = s.dev.twin.holds.filter (fun k => k.id != h.id) ∧ (d.space h.ts).map (·.partnerLow) = some none)) ∧
  (∀ s t seq c, s.dev.nextFrame seq → s.dev.twin.state = 3 → Gives (.config t seq c) s (fun d => d.twin.config = c ∧ d.fab = s.dev.fab ∧ d.fn = s.dev.fn)) ∧
  (∀ s t seq ts reserved last sp, s.dev.nextFrame seq → s.dev.twin.state = 3 → s.dev.space ts = some sp → s.dev.store.ingests = [] → s.dev.qry.queries = [] →
    s.dev.mail.asks = [] →
    Effects (.ownership t seq ts reserved last) s (fun d =>
      (d.space ts).map (fun k => (k.owner, k.reserved, k.lastEpoch)) = some (s.dev.twin.pos, reserved + 4096, max sp.lastEpoch last) ∧
      d.store.dcmds.length = s.dev.store.dcmds.length + (s.dev.recordDrives sp.home).length)) ∧
  (∀ s t seq (r : TResync), s.dev.nextFrame seq → s.dev.twin.state = 2 → r.step = 4 →
    Effects (.resync t seq r) s (fun d => d.twin.queues = r.queues ∧ d.twin.cmds = r.cmds ∧ d.twin.dones = [] ∧ d.twin.state = 2)) ∧
  (∀ s t seq (r : TResync), s.dev.nextFrame seq → s.dev.twin.state = 2 → r.step = 5 →
    Effects (.resync t seq r) s (fun d =>
      d.twin.state = 3 ∧ d.twin.alone = false ∧ d.start.noFetch = false ∧
      ((d.mbox 0).events.getLast?).map (fun e => (e.code, e.object, e.data)) = some (0x0122, 0, 0))) ∧
  (∀ s t x ts sp, s.dev.start.service → s.dev.hostStopped = false → s.dev.space ts = some sp → ts < 2 ^ 32 → s.dev.twin.state = 3 → 2 ≤ s.dev.twin.tpMinor →
    sp.owner = s.dev.twin.pos → s.dev.twin.xfer = none → s.dev.store.commits = [] →
    Effects (.twinOwnXfer t x ts (s.dev.regN 0x02B00020) (s.dev.writeCount 0x02B00020)) s (fun d =>
      d.twin.xfer = some (ts, true) ∧ d.regN 0x02B00020 = ts ∧ d.regN 0x02B00024 = 1 ∧
      (d.twin.unacked.getLast?).map (fun f => (f.kind, f.body, f.act)) = some (13, [ts, 1 - s.dev.twin.pos, sp.reserved, sp.lastEpoch], .transfer ts)))

/-- The witness, failure and failover (R503 to R520): a twin declares its partner failed, stands down or is fenced; the survivor replays, adopts
and resumes.
Model choices that clauses rest on: notes/assumptions/ 63, 122, 123. -/
def Obligations.Failover : Prop :=
  (∀ s t, s.dev.twin.pairId ≠ 0 → s.dev.twin.stopped = false →
    Gives (.witnessWrite t) s (fun d =>
      d.twin = { s.dev.twin with witSeq := s.dev.twin.witSeq + 1 } ∧
      d.out = s.dev.out ++ s.dev.witnessSet.map (fun i => .driveBlock i (16 + s.dev.twin.pos) (d.witnessBlock false d.twin.alone d.twin.fencedPartner)))) ∧
  (∀ s t i b, s.dev.twin.pairId ≠ 0 → s.dev.twin.stopped = false → i ∈ s.dev.witnessSet → witnessOk b (1 - s.dev.twin.pos) s.dev.twin.pairId →
    s.dev.twin.seen < fieldAt b 0x10 8 →
    Effects (.witnessRead t i (some b) true) s (fun d =>
      d.twin.seen = fieldAt b 0x10 8 ∧ d.twin.advanced = max s.dev.timeUs t ∧ d.twin.still = [] ∧ (i, max s.dev.timeUs t) ∈ d.twin.reads)) ∧
  (∀ s t i b, s.dev.twin.pairId ≠ 0 → s.dev.twin.stopped = false → i ∈ s.dev.witnessSet → witnessOk b (1 - s.dev.twin.pos) s.dev.twin.pairId →
    fieldAt b 0x10 8 ≤ s.dev.twin.seen →
    Effects (.witnessRead t i (some b) true) s (fun d =>
      d.twin.seen = s.dev.twin.seen ∧ d.twin.advanced = s.dev.twin.advanced ∧ i ∈ d.twin.still)) ∧
  (∀ s t i b, s.dev.twin.pairId ≠ 0 → s.dev.twin.stopped = false → i ∈ s.dev.witnessSet → witnessOk b (1 - s.dev.twin.pos) s.dev.twin.pairId →
    bitOf (fieldAt b 6 2) 3 →
    Effects (.witnessRead t i (some b) false) s (fun d => d.twin.state = 6 ∧ d.twin.stopped ∧ d.hostStopped)) ∧
  (∀ s t, s.dev.twin.state = 3 → s.dev.twin.lastRx + 20000 ≤ max s.dev.timeUs t → s.dev.twin.advanced + 50000 ≤ max s.dev.timeUs t →
    2 ≤ (s.dev.twin.still.filter (fun i => s.dev.witnessSet.contains i)).length → s.dev.twin.unacked = [] →
    Effects (.declareFailed t true) s (fun d =>
      d.twin.state = 4 ∧ d.twin.alone ∧ d.twin.step = 1 ∧ d.twin.fencedPartner ∧ d.twin.declared = some s.dev.opSec ∧ d.twin.witSeq = s.dev.twin.witSeq + 1 ∧
      d.regN 0x02B00028 = satAdd 32 (s.dev.regN 0x02B00028) 1 ∧ (∀ r ∈ d.store.rebuilds, r.paused) ∧ (6, 0) ∈ d.health.recovering ∧
      (∀ i ∈ s.dev.pairDrives, .driveAdmin i 7 (match s.dev.twin.partner with | some h => twinKey h.serial h.pos | none => 0) ∈ d.out))) ∧
  (∀ s t, s.dev.twin.state = 3 → s.dev.twin.lastRx + 20000 ≤ max s.dev.timeUs t → s.dev.twin.advanced + 50000 ≤ max s.dev.timeUs t →
    2 ≤ (s.dev.twin.still.filter (fun i => s.dev.witnessSet.contains i)).length →
    Effects (.declareFailed t false) s (fun d => d.twin.state = 5 ∧ d.twin.stopped ∧ d.regN 0x02B00028 = satAdd 32 (s.dev.regN 0x02B00028) 1)) ∧
  (∀ s t, s.dev.twin.state = 3 → max s.dev.timeUs t < s.dev.twin.advanced + 50000 → ∀ won, Effects (.declareFailed t won) s (fun d => d = s.dev.at t)) ∧
  (∀ s t, s.dev.twin.state = 3 → s.dev.twin.pos = 1 → s.dev.twin.stopped = false → s.dev.twin.lastRx + 20000 ≤ max s.dev.timeUs t →
    max s.dev.timeUs t ≤ s.dev.twin.advanced + 20000 →
    Effects (.standDown t) s (fun d =>
      d.twin.state = 5 ∧ d.twin.stopped ∧ d.twin.witSeq = s.dev.twin.witSeq + 1 ∧
      ∀ c ∈ d.store.commits, c.st = .recording ∨ c.st = .durable)) ∧
  (∀ s t, s.dev.twin.pairId ≠ 0 → s.dev.twin.state ≠ 6 →
    Effects (.reservationConflict t) s (fun d => d.twin.state = 6 ∧ d.twin.stopped ∧ ∀ c ∈ d.store.commits, c.st = .recording ∨ c.st = .durable)) ∧
  (∀ s t sp r, s.dev.twin.state = 4 → s.dev.twin.step = 1 → s.dev.store.spaces = [sp] → sp.owner ≠ s.dev.twin.pos → s.dev.store.commits = [] →
    s.dev.twin.records = [] → s.dev.store.ingests = [] → s.dev.qry.queries = [] → s.dev.mail.asks = [] → s.dev.twin.xfer = none →
    Effects (.failoverReplay t [] [(sp.id, r)]) s (fun d =>
      (d.space sp.id).map (fun k => (k.owner, k.reserved, k.lastEpoch, k.open_)) = some (s.dev.twin.pos, max r sp.reserved + 4096,
        max (max r sp.reserved) sp.lastEpoch, []) ∧
      d.store.holds = s.dev.store.holds ++ s.dev.twin.holds ∧ d.twin.holds = [] ∧ d.twin.step = 2)) ∧
  (∀ s t x q sx base p, s.dev.twin.state = 4 → s.dev.twin.step = 2 → x < 1026 → q < 8192 → s.dev.twin.queues = [(qpKey x q, p)] → p.state = .active →
    s.dev.standby x = some (sx, base) → (s.dev.qp sx (base + q)).state = .disabled → base + q < 8192 → s.dev.twin.cmds = [] → s.dev.twin.dones = [] →
    s.dev.twin.adopted = [] → s.dev.twin.adoptedQ = [] →
    Effects (.queueAdoption t []) s (fun d =>
      d.twin.step = 3 ∧ d.twin.adopted = [(x, sx)] ∧ d.twin.adoptedQ = [(x, q, sx, base + q)] ∧ (d.qp sx (base + q)).state = .active ∧
      (d.qp sx (base + q)).sqBase = p.sqBase ∧ (d.qp sx (base + q)).cqBase = p.cqBase ∧ (d.qp sx (base + q)).cfg = p.cfg ∧
      (d.qp sx (base + q)).sqHead = p.sqHead ∧ (d.qp sx (base + q)).cmds = [] ∧ (d.fnGet sx).adopted)) ∧
  (∀ s t sx sq pc c, s.dev.twin.state = 4 → s.dev.twin.step = 3 → s.dev.twin.toResume = [(sx, sq, pc)] → s.dev.mayStartCmd sx sq pc.cid 0x01 = some c →
    s.dev.node = none →
    Effects (.queryResumption t) s (fun d =>
      d.twin.step = 4 ∧ d.twin.resumed = 1 ∧ d.qry.subs = s.dev.qry.subs ++ [{ x := sx, q := sq, cid := c.cid, ts := c.ts, resume := pc.resume }] ∧
      d.out = s.dev.out ++ [.hostRead s.dev.host.nextTag sx (fieldAt c.entry 0x10 8) 256])) ∧
  (∀ s t, s.dev.twin.state = 4 → s.dev.twin.step = 4 → s.dev.twin.hello = false →
    Effects (.recoveryComplete t) s (fun d =>
      d.twin.step = 5 ∧ d.twin.declared = none ∧ d.twin.cmds = [] ∧ d.twin.queues = [] ∧ d.twin.records = [] ∧ (∀ r ∈ d.store.rebuilds, r.paused = false) ∧
      (6, 0) ∉ d.health.recovering ∧ d.regN 0x02B00040 = (s.dev.twin.declared.getD 0) % 2 ^ 32 ∧
      d.regN 0x02B00048 = min 0xFFFFFFFF (s.dev.twin.fencedUs - s.dev.twin.declaredUs) ∧
      d.regN 0x02B0004C = min 0xFFFFFFFF (s.dev.twin.movedUs - s.dev.twin.declaredUs)))

/-! ### Power and start (18_power_modes.md, 19_start_banked.md) -/

/-- Modes, domains and protection (R529 to R542, R623, R627): a two-phase change commits when every unit has acknowledged and reverts after 2 ms;
entry to and exit from Ember; domains on demand, after the blocks they need; Capped enforcement; alert, clamp and THERMTRIP#.
Model choices that clauses rest on: notes/assumptions/ 73, 74, 76, 127, 168, 183. -/
def Obligations.PowerModes : Prop :=
  (∀ s t n c u, s.dev.pwr.change = some c → c.prepared → n ∈ c.units → n ∉ c.acked → max s.dev.timeUs t ≤ c.sent + 2000 → u ∈ c.units → u ≠ n →
    u ∉ c.acked → 36 ≤ n → s.dev.domTarget c.toMode c.toServe n = 2 → s.dev.needsWait c n = false →
    Effects (.unitAcknowledge t n) s (fun d =>
      d.pwr.change = some { c with acked := c.acked ++ [n] } ∧ d.pwr.mode = s.dev.pwr.mode ∧ d.domain n = 2)) ∧
  (∀ s t n c, s.dev.pwr.change = some c → c.prepared → c.units = [n] → c.acked = [] → max s.dev.timeUs t ≤ c.sent + 2000 → 36 ≤ n → c.by_ = none → c.chosen = false →
    Effects (.unitAcknowledge t n) s (fun d =>
      d.pwr.change = none ∧ d.pwr.mode = c.toMode ∧ d.pwr.serve = c.toServe ∧ d.pwr.ceiling = c.toCeil ∧
      d.pwr.limit = modeLimit c.toMode c.toServe c.toCeil ∧ d.rcd.acc.commits = s.dev.rcd.acc.commits + 1)) ∧
  (∀ s t n c x r, s.dev.pwr.change = some c → c.prepared → c.units = [n] → c.acked = [] → max s.dev.timeUs t ≤ c.sent + 2000 → 36 ≤ n → c.by_ = some x →
    c.chosen = false → (s.dev.mbox x).busy = some r →
    Effects (.unitAcknowledge t n) s (fun d =>
      d.pwr.mode = c.toMode ∧ d.mbGeneration 0x16 = (s.dev.mbGeneration 0x16 + 1) % 65536 ∧ (d.mbox x).busy = none ∧ (d.mbox x).doneSeq = r ∧
      (d.mbox x).resp.drop 16 = modeReply c.toMode [])) ∧
  (∀ s t c, s.dev.pwr.change = some c → c.prepared → c.sent + 2000 ≤ max s.dev.timeUs t → c.acked = [] → c.by_ = none →
    Effects (.modeChangeDeadline t) s (fun d =>
      d.pwr.change = none ∧ d.pwr.mode = s.dev.pwr.mode ∧ d.pwr.domains = s.dev.pwr.domains ∧ d.pwr.limit = modeLimit c.fromMode c.fromServe c.fromCeil ∧
      d.regN 0x02C00060 = satAdd 32 (s.dev.regN 0x02C00060) 1)) ∧
  (∀ s t c, s.dev.pwr.change = some c → c.wake = [] → c.prepared = false → c.units ≠ [] →
    Effects (.vddCoreReady t) s (fun d =>
      d.pwr.change = some { c with vddReady := true, prepared := true, sent := max s.dev.timeUs t } ∧ d.pwr.mode = s.dev.pwr.mode)) ∧
  (∀ s t c g k rest, s.dev.pwr.change = some c → c.wake = g :: k :: rest →
    Effects (.hearthGroupReady t g) s (fun d => d.pwr.change = some { c with wake := k :: rest })) ∧
  (∀ s t, s.dev.fn.directed = false → s.dev.pwr.change = none → 4 ≤ s.dev.pwr.mode → s.dev.pwr.mode ≤ 6 → s.dev.anyCommand = false → s.dev.workCharges = 0 →
    Effects (.idleTimer t) s (fun d =>
      ∃ c, d.pwr.change = some c ∧ c.fromMode = s.dev.pwr.mode ∧ c.toMode = 3 ∧ c.chosen ∧ c.by_ = none ∧ d.pwr.mode = s.dev.pwr.mode)) ∧
  (∀ s t, s.dev.fn.directed → Effects (.idleTimer t) s (fun d => d = s.dev.at t)) ∧
  (∀ s t ok0 ok1 k mode, s.dev.pwr.entry = some (mode, k) → s.dev.start.ember = false →
    Gives (.entrySequence t ok0 ok1) s (fun d =>
      d.pwr.mode = mode ∧ d.start.service = false ∧ d.pwr.ember = (mode == 1) ∧ d.pwr.offRdy = (mode == 0) ∧ d.pwr.entry = none ∧ d.host.qps = [] ∧
      d.mail.boxes = [] ∧ d.out.getLast? = some (if mode = 0 then .pin 3 0 else .pin 2 0))) ∧
  (∀ s t (w : WakeBy), s.dev.pwr.ember → s.dev.pwr.entry = none → s.dev.start.ember = false → w.src < 5 → bitOf (s.dev.regN 0x02C10004) w.src →
    (w.src = 3 → s.dev.wakePins w.pins ≠ 0) →
    Gives (.emberWake t w) s (fun d =>
      d.pwr.ember = false ∧ d.start.ember ∧ d.regN 0x02C10008 = 2 ^ w.src ∧ d.regN 0x03100044 = (if w.src = 3 then s.dev.wakePins w.pins else 0) ∧
      d.out = s.dev.out ++ [.pin 2 1])) ∧
  (∀ s t, s.dev.pwr.ember → s.dev.pwr.entry = none → bitOf (s.dev.regN 0x02C10004) 4 → s.dev.reg64 0x02C10010 ≠ 0 → s.dev.reg64 0x02C10010 ≤ s.dev.opSec →
    Gives (.bellowsAlarm t) s (fun d => d.pwr.ember = false ∧ d.start.ember ∧ bitOf (d.regN 0x02C10008) 4 ∧ d.out = s.dev.out ++ [.pin 2 1])) ∧
  (∀ s t n, 3 ≤ s.dev.pwr.mode → n < 72 → s.dev.domFenced n = false → s.dev.domTarget s.dev.pwr.mode s.dev.pwr.serve n ≠ 2 →
    Gives (.domainWake t n) s (fun d => d.domain n = 2 ∧ tabGet 0 d.pwr.demand n = max s.dev.timeUs t + 1 ∧
      (∀ k ∈ s.dev.wakeList 3 n, d.domain k = 2) ∧ ∀ k, k ∉ s.dev.wakeList 3 n → d.domain k = s.dev.domain k)) ∧
  (∀ s t n, 36 ≤ n → tabGet 0 s.dev.pwr.demand n ≠ 0 → tabGet 0 s.dev.pwr.demand n + 1000 ≤ max s.dev.timeUs t + 1 → s.dev.stillNeeded n = false →
    Gives (.domainIdleTimeout t n) s (fun d => tabGet 0 d.pwr.demand n = 0 ∧ d.domain n = s.dev.domTarget s.dev.pwr.mode s.dev.pwr.serve n)) ∧
  (∀ s t n, s.dev.stillNeeded n → Gives (.domainIdleTimeout t n) s (fun d => d = s.dev.at t)) ∧
  (∀ s t r mv ma, r < 16 →
    Gives (.powerSample t [(r, mv, ma)]) s (fun d =>
      tabGet (0, 0) d.pwr.railLast r = (mv * ma, max s.dev.timeUs t + 1) ∧ r ∉ d.pwr.rails ∧
      d.pwr.samples = d.packagePower :: s.dev.pwr.samples.take 99 ∧ d.regN 0x02C00008 = min 0xFFFF d.power1ms)) ∧
  (∀ s t h, s.dev.pwr.mode = 6 → 10 * s.dev.pwr.ceiling < s.dev.power1ms → s.dev.runners.getLast? = some h → 4 < s.dev.runners.length →
    (s.dev.hearth h).slots = [] →
    Effects (.parkCheck t) s (fun d => d.hearth h = { ((s.dev.at t).toBoundary h).hearth h with parked := true, powered := false } ∧ ∀ k, k ≠ h → d.hearth k = s.dev.hearth k)) ∧
  (∀ s t, s.dev.pwr.mode = 6 → 10 * s.dev.pwr.ceiling < s.dev.power1ms → s.dev.runners.length ≤ 4 →
    Effects (.parkCheck t) s (fun d => d.pwr = { s.dev.pwr with paced := true } ∧ d.qry = s.dev.qry)) ∧
  (∀ s t h, s.dev.pwr.mode = 6 → 100 * s.dev.power1ms < 95 * (10 * s.dev.pwr.ceiling) → s.dev.parkedHearths.head? = some h →
    Effects (.parkCheck t) s (fun d => d.hearth h = { s.dev.hearth h with parked := false, powered := true } ∧ d.pwr.paced = false)) ∧
  (∀ s t n (tj : Int), s.dev.pwr.alert = false → s.dev.pwr.clamp = false → 10 * (s.dev.regField 0x02C00010 7 0 : Int) ≤ tj →
    tj < 10 * (s.dev.regField 0x02C00010 15 8 : Int) →
    Effects (.thermalSample t [(n, tj)]) s (fun d =>
      d.pwr.alert ∧ d.pwr.clamp = false ∧ d.pwr.tj = tj ∧ .pin 1 0 ∈ d.out ∧ bitOf (d.regN 0x02C0000C) 16 ∧
      ((d.mbox 0).events.getLast?).map (fun e => (e.code, e.object)) = some (0x0131, 0))) ∧
  (∀ s t n (tj : Int), 10 * (s.dev.regField 0x02C00010 15 8 : Int) ≤ tj →
    Effects (.thermalSample t [(n, tj)]) s (fun d => d.pwr.clamp ∧ d.hearthMhz = 1200 ∧ bitOf (d.regN 0x02C0000C) 17)) ∧
  (∀ s t u, s.dev.pwr.clamp → s.dev.pwr.coolSince = some u → u + 100000 ≤ max s.dev.timeUs t →
    Effects (.clampRelease t) s (fun d => d.pwr = { s.dev.pwr with clamp := false, coolSince := none } ∧ bitOf (d.regN 0x02C0000C) 17 = false)) ∧
  (∀ s t u, s.dev.pwr.clamp → s.dev.pwr.coolSince = some u → max s.dev.timeUs t < u + 100000 → Effects (.clampRelease t) s (fun d => d = s.dev.at t)) ∧
  (∀ s t, s.dev.pwr.sysGood → s.dev.pwr.trip = false →
    Gives (.thermtrip t) s (fun d =>
      d.pwr.trip ∧ d.start.tripLatch ∧ d.start.service = false ∧ (∀ h, (d.hearth h).powered = false ∧ (d.hearth h).running = none) ∧
      d.out = s.dev.out ++ [.pin 0 0] ∧ d.store.spaces.map (·.id) = s.dev.store.spaces.map (·.id) ∧ d.opSec = s.dev.opSec))

/-- Start attempts, Banked mode and stops (R432, R546 to R556, R586, R597, R600, R622 to R629).
Model choices that clauses rest on: notes/assumptions/ 68, 78, 79. -/
def Obligations.StartAttempts : Prop :=
  (∀ s t, s.dev.pwr.aonGood → s.dev.start.ember = false → s.dev.pwr.sysGood = false → s.dev.start.open_ = false → s.dev.pwr.trip = false → s.dev.start.failures < 2 →
    Gives (.startAttempt t) s (fun d =>
      d.pwr.sysGood ∧ d.start.open_ ∧ d.start.stage = 1 ∧ d.start.slot = s.dev.mail.boot ∧ d.start.bankNext = false ∧ d.start.failures = s.dev.start.failures ∧
      d.cycles = (s.dev.cycles + 1) % 2 ^ 32 ∧ d.pins.uart = s.dev.pins.uart ++ [1] ∧ d.out = s.dev.out)) ∧
  (∀ s t, s.dev.pwr.aonGood → s.dev.start.ember = false → s.dev.pwr.sysGood = false → s.dev.start.open_ → s.dev.pwr.trip = false → s.dev.start.failures = 0 →
    s.dev.start.single = false → s.dev.start.tripLatch = false →
    Gives (.startAttempt t) s (fun d =>
      d.start.failures = 1 ∧ d.start.reasons.head? = some (256 * s.dev.start.stage + 9) ∧ d.start.stage = 1 ∧ d.start.open_)) ∧
  (∀ s t, s.dev.pwr.aonGood → s.dev.start.ember = false → s.dev.pwr.sysGood = false → s.dev.start.open_ = false → s.dev.pwr.trip = false →
    s.dev.start.failures = 2 → s.dev.regField 0x02D00038 0 0 = 1 → s.dev.mail.boot = 0 → s.dev.slotState 1 = 2 →
    Gives (.startAttempt t) s (fun d => d.start.slot = 1 ∧ d.start.fallback)) ∧
  (∀ s t f, s.dev.start.open_ → s.dev.start.stage = 2 → s.dev.slotState s.dev.start.slot = 2 → s.dev.sec.svnMin ≤ (s.dev.slotFw s.dev.start.slot).svn →
    f.cause = 0 →
    Effects (.stageComplete t f) s (fun d =>
      d.start.stage = 3 ∧ d.start.open_ ∧ d.start.began = max s.dev.timeUs t ∧
      d.start.times = s.dev.start.times ++ [(max s.dev.timeUs t - s.dev.start.began) / 1000])) ∧
  (∀ s t f, s.dev.start.open_ → s.dev.start.stage = 2 → s.dev.slotState s.dev.start.slot ≠ 2 → s.dev.start.single = false → s.dev.start.failures < 2 →
    Effects (.stageComplete t f) s (fun d =>
      d.start.open_ = false ∧ d.start.retry ∧ d.start.failures = s.dev.start.failures + 1 ∧ d.start.reasons.head? = some 0x203 ∧ d.start.service = false)) ∧
  (∀ s t f, s.dev.start.open_ → s.dev.start.stage = 2 → s.dev.slotState s.dev.start.slot ≠ 2 → s.dev.start.failures = 2 →
    Effects (.stageComplete t f) s (fun d =>
      d.start.banked ∧ d.start.failures = 3 ∧ d.start.open_ = false ∧ d.pwr.mode = 2 ∧ (d.mbox 0).ready ∧ d.start.service = false)) ∧
  (∀ s t f, s.dev.start.open_ → s.dev.start.stage = 1 → s.dev.start.bankNext → s.dev.sec.lifecycle ≠ 0 → s.dev.sec.lifecycle ≠ 5 → f.cause = 0 →
    Effects (.stageComplete t f) s (fun d => d.start.banked ∧ d.start.open_ = false ∧ d.pwr.mode = 2 ∧ d.pwr.limit = 18 ∧ (d.mbox 0).ready)) ∧
  (∀ s t f, s.dev.start.open_ → s.dev.start.stage = 7 → f.cause = 0 → s.dev.store.spaces = [] → (s.dev.mbox 0).held = none → (s.dev.mbox 513).held = none →
    Effects (.stageComplete t f) s (fun d =>
      d.start.service ∧ d.start.stage = 0 ∧ d.start.open_ = false ∧ d.start.failures = 0 ∧ d.start.served = satAdd 32 s.dev.start.served 1 ∧ d.pwr.mode = 3 ∧
      d.pwr.limit = 30 ∧ d.mail.running = s.dev.start.slot ∧ (d.mbox 0).ready ∧ (d.mbox 513).ready)) ∧
  (∀ s t reuse, s.dev.start.open_ → s.dev.start.stage ≠ 0 → s.dev.start.stage ≠ 6 → s.dev.start.began + 20000000 ≤ max s.dev.timeUs t →
    s.dev.start.single = false → s.dev.start.failures < 2 →
    Gives (.stageTimeout t reuse) s (fun d =>
      d.start.open_ = false ∧ d.start.retry ∧ d.start.failures = s.dev.start.failures + 1 ∧ d.start.reasons.head? = some (256 * s.dev.start.stage + 4))) ∧
  (∀ s t reuse, s.dev.start.open_ → s.dev.start.stage = 6 → s.dev.start.began + 20000000 ≤ max s.dev.timeUs t →
    Gives (.stageTimeout t reuse) s (fun d => d.start.open_ ∧ d.start.stage = 7)) ∧
  (∀ s t, s.dev.start.retry → s.dev.pwr.sysGood →
    Gives (.startRetry t) s (fun d => d.start.open_ ∧ d.start.stage = 1 ∧ d.start.retry = false ∧ d.cycles = (s.dev.cycles + 1) % 2 ^ 32)) ∧
  (∀ s t slot image, s.dev.hostStopped = false → s.dev.start.service → s.dev.start.banked = false → slot ≤ 1 → slot ≠ s.dev.mail.running → image ≠ [] →
    image.length ≤ 96 * 2 ^ 20 → s.dev.runningOps = [] →
    Gives (.pldmFirmwareUpdate t slot image) s (fun d =>
      d.mail.ops = s.dev.mail.ops ++ [{ handle := s.dev.mail.nextHandle, x := opOrphan, op := 0x50, args := [slot], data := image, total := 3, object := slot }] ∧
      d.out = s.dev.out ++ [.mgmt [Config.pldm 0]])) ∧
  (∀ s t slot, s.dev.hostStopped = false → s.dev.start.service → s.dev.start.banked = false → slot ≤ 1 → s.dev.slotState slot = 2 →
    s.dev.sec.svnMin ≤ (s.dev.slotFw slot).svn → s.dev.sharesTp slot → s.dev.runningOps = [] →
    Gives (.pldmActivate t slot) s (fun d =>
      d.mail.ops = s.dev.mail.ops ++ [{ handle := s.dev.mail.nextHandle, x := opOrphan, op := 0x51, args := [slot], total := 5, object := slot }] ∧
      d.out = s.dev.out ++ [.mgmt [Config.pldm 0]])) ∧
  (∀ s t slot, s.dev.hostStopped = false → s.dev.start.banked → slot ≤ 1 → s.dev.slotState slot = 2 →
    Gives (.pldmActivate t slot) s (fun d =>
      d.start.banked = false ∧ d.start.open_ ∧ d.start.single ∧ d.start.stage = 2 ∧ d.start.slot = slot ∧ d.out = s.dev.out ++ [.mgmt [Config.pldm 0]])) ∧
  (∀ s t, s.dev.pwr.sysGood →
    Gives (.powerLoss t) s (fun d =>
      d.pwr.sysGood = false ∧ d.start.service = false ∧ d.start.open_ = s.dev.start.open_ ∧ d.out = s.dev.out ∧ d.mail.boxes = [] ∧ d.host.qps = [] ∧
      d.store.spaces.map (fun k => (k.id, k.visible)) = s.dev.store.spaces.map (fun k => (k.id, k.visible)) ∧ d.rcd = s.dev.rcd ∧ d.opSec = s.dev.opSec)) ∧
  (∀ s t, s.dev.pwr.sysGood → s.dev.pwr.stopped = none → s.dev.start.open_ = false → s.dev.start.service →
    Gives (.vrPgFall t) s (fun d => d.pwr.stopped = some 5 ∧ d.hostStopped ∧ d.start.service = false ∧ d.start.cause = 5)) ∧
  (∀ s t, s.dev.pwr.sysGood → s.dev.pwr.stopped = none → s.dev.start.open_ → s.dev.start.single = false → s.dev.start.failures < 2 →
    Gives (.vrPgFall t) s (fun d => d.pwr.stopped = none ∧ d.start.retry ∧ d.start.reasons.head? = some (256 * s.dev.start.stage + 8))) ∧
  (∀ s t rail, rail < 16 → rail ∉ s.dev.pwr.rails → (tabGet (0, 0) s.dev.pwr.railLast rail).2 + 1000 ≤ max s.dev.timeUs t + 1 →
    Gives (.telemetryLost t rail) s (fun d =>
      d.pwr.rails = s.dev.pwr.rails ++ [rail] ∧ ((d.mbox 0).events.getLast?).map (fun e => (e.code, e.object, e.data)) = some (0x0170, rail, 0))) ∧
  (∀ s t, 5 ∉ s.dev.pwr.clocks →
    Effects (.refclkLost t 5) s (fun d =>
      d.pwr.clocks = s.dev.pwr.clocks ++ [5] ∧ ((d.mbox 0).events.getLast?).map (fun e => (e.code, e.object, e.data)) = some (0x0171, 0, 0))) ∧
  (∀ s t, 4 ∉ s.dev.pwr.clocks → s.dev.pwr.sysGood → s.dev.pwr.stopped = none → Effects (.refclkLost t 4) s (fun d => d.pwr.stopped = some 6 ∧ d.hostStopped)) ∧
  (∀ s t, 0 ∉ s.dev.pwr.clocks → (s.dev.link 0).perst = false → s.dev.health.recovering = [] →
    Effects (.refclkLost t 0) s (fun d => (d.link 0).up = false ∧ (d.link 0).recovering ∧ d.health.recovering = [(4, 0)])) ∧
  (∀ s t c, s.dev.pwr.sysGood → s.dev.pwr.stopped = none → s.dev.start.open_ = false → 1 ≤ c → c ≤ 4 →
    Gives (.deviceStop t c) s (fun d =>
      d.pwr.stopped = some c ∧ d.hostStopped ∧ d.start.cause = c ∧ d.start.service = false ∧ d.mail.boxes = [] ∧
      d.store.spaces.map (fun k => (k.id, k.visible)) = s.dev.store.spaces.map (fun k => (k.id, k.visible)))) ∧
  (∀ s t port, s.dev.pwr.sysGood → port < 2 → (s.dev.link port).perst → s.dev.pwr.stopped = none → s.dev.start.banked = false → port ∉ s.dev.pwr.clocks →
    Gives (.perstRelease t port) s (fun d => d.link port = { s.dev.link port with perst := false, up := true } ∧ d.start = s.dev.start)) ∧
  (∀ s t, s.dev.pwr.sysGood → (s.dev.link 0).perst → s.dev.pwr.stopped.isSome → s.dev.start.open_ = false →
    Gives (.perstRelease t 0) s (fun d => d.start.open_ ∧ d.start.stage = 1 ∧ d.pwr.stopped = none)) ∧
  (∀ s t port, port < 2 → (s.dev.link port).perst = false → (s.dev.link port).held = false → port ∉ s.dev.pwr.clocks →
    Gives (.hostLinkUp t port) s (fun d =>
      d.link port = { s.dev.link port with up := true, recovering := false } ∧ (4, port) ∉ d.health.recovering)) ∧
  (∀ s t c, Gives (.refclkReturn t c) s (fun d => c ∉ d.pwr.clocks ∧ ∀ k, k ≠ c → (k ∈ d.pwr.clocks ↔ k ∈ s.dev.pwr.clocks))) ∧
  (∀ s t, s.dev.pwr.sysGood = false →
    Gives (.aonPowerGood t) s (fun d =>
      d.pwr.aonGood ∧ d.opSec = max s.dev.start.recOp (archHighest s.dev.rcd) + 1 ∧ d.rcd.ring.length = 1 ∧ d.rcd.wall = none ∧
      d.rcd.sectors = s.dev.rcd.sectors ∧ d.start.tripLatch = false ∧ d.sec.latchA = false ∧ d.sec.latchB = false ∧ d.regN 0x02C10004 = 0x1F))

/-! ### Security, health and the recorder (20_security_debug.md, 21_health_record.md) -/

/-- The security block (R561 to R583): nonces, tokens, keys, svn, debug, messages that wait for a key withdrawal, SPDM sessions, IDE, tamper inputs
and JTAG.
Model choices that clauses rest on: notes/assumptions/ 83, 84, 85, 86, 87, 88. -/
def Obligations.SecurityBlock : Prop :=
  (∀ s t n q, s.dev.secOn → s.dev.session n = some q → s.dev.withdrawing = false →
    Gives (.nonceGet t n) s (fun d =>
      d.sec.nonce = some (s.dev.drawBytes 32).1 ∧ d.out = s.dev.out ++ [.spdm q.transport 1 (secResponse 0 0 (s.dev.drawBytes 32).1)])) ∧
  (∀ s t n q tok, s.dev.secOn → s.dev.session n = some q → s.dev.withdrawing = false → s.dev.sec.wipeFail = false → fieldAt tok 5 1 = 2 → fieldAt tok 6 1 ≠ 2 →
    After Dev.mbTakeAll (.tokenApply t n tok true) s (fun d =>
      (s.dev.tokenFault tok = none →
        d.sec.debug = fieldAt tok 6 1 ∧ d.sec.unlocks = satAdd 32 s.dev.sec.unlocks 1 ∧ d.sec.nonce = none ∧ d.sec.lifecycle = s.dev.sec.lifecycle ∧
        d.out = s.dev.out ++ [.spdm q.transport 2 (secResponse 0 0 [])]) ∧
      (∀ r, s.dev.tokenFault tok = some r →
        d.sec.debug = s.dev.sec.debug ∧ d.sec.lifecycle = s.dev.sec.lifecycle ∧ d.sec.keys = s.dev.sec.keys ∧
        d.sec.nonce = (if s.dev.sec.nonce = some ((tok.drop 0x10).take 32) then none else s.dev.sec.nonce) ∧
        d.out = s.dev.out ++ [.spdm q.transport 2 (secResponse 0x6002 r [])]))) ∧
  (∀ s t n q tok, s.dev.secOn → s.dev.session n = some q → s.dev.withdrawing = false → s.dev.sec.wipeFail = false → fieldAt tok 5 1 = 1 → s.dev.store.spaces = [] →
    After Dev.mbTakeAll (.tokenApply t n tok true) s (fun d =>
      s.dev.tokenFault tok = none →
        d.sec.lifecycle = fieldAt tok 6 1 ∧ d.sec.nonce = none ∧ d.sec.keys = [] ∧ d.start.stage = 1 ∧ d.start.open_ ∧ d.start.service = false)) ∧
  (∀ s t n q ref key, s.dev.secOn → s.dev.session n = some q → s.dev.withdrawing = false → q.auth = 1 → s.dev.sec.lifecycle = 3 → s.dev.sec.debug ≠ 2 → s.dev.sec.wipeFail = false →
    ref ≠ 0 → ref ≤ 0xFFFFFFFF → key.length = 64 → key.take 32 ≠ key.drop 32 → (∀ k ∈ s.dev.sec.keys, k.ref ≠ ref) → (∀ k ∈ s.dev.store.spaces, k.key ≠ ref) →
    s.dev.sec.keys.length < 4096 →
    Gives (.keyLoad t n ref key) s (fun d =>
      d.sec.keys = s.dev.sec.keys ++ [{ ref := ref, check := keyCheck key, key := key }] ∧ d.out = s.dev.out ++ [.spdm q.transport 3 (secResponse 0 0 [])] ∧
      d.store = s.dev.store)) ∧
  (∀ s t n q ref key, s.dev.secOn → s.dev.session n = some q → s.dev.withdrawing = false → q.auth ≠ 1 →
    Gives (.keyLoad t n ref key) s (fun d => d.sec = s.dev.sec ∧ d.out = s.dev.out ++ [.spdm q.transport 3 (secResponse 0x6002 2 [])])) ∧
  (∀ s t n q k, s.dev.secOn → s.dev.session n = some q → q.auth = 1 → s.dev.sec.keys = [k] → k.going = none → s.dev.store.spaces = [] → s.dev.store.commits = [] →
    s.dev.twin.xfer = none →
    Effects (.keyUnload t n k.ref) s (fun d =>
      d.sec.keys = [] ∧ d.out = s.dev.out ++ [.spdm q.transport 4 (secResponse 0 0 [])] ∧ d.store = s.dev.store)) ∧
  (∀ s t n q, s.dev.secOn → s.dev.session n = some q → s.dev.withdrawing = false → q.auth = 1 →
    Gives (.keyStatus t n) s (fun d =>
      d.sec = s.dev.sec ∧ d.out = s.dev.out ++ [.spdm q.transport 5 (secResponse 0 0 ((s.dev.sec.keys.map (fun k => natLE 4 k.ref ++ k.check ++
        natLE 4 (match s.dev.store.spaces.find? (fun p => p.key == k.ref) with | some p => p.id | none => 0))).flatten))])) ∧
  (∀ s t n q, s.dev.secOn → s.dev.session n = some q → s.dev.withdrawing = false → s.dev.sec.lifecycle = 3 → q.auth = 1 → s.dev.start.failures = 0 →
    Gives (.svnCommit t n) s (fun d =>
      d.sec = { s.dev.sec with svnMin := max s.dev.sec.svnMin s.dev.sec.svnRun } ∧ d.out = s.dev.out ++ [.spdm q.transport 6 (secResponse 0 0 [])])) ∧
  (∀ s t n q, s.dev.secOn → s.dev.session n = some q → s.dev.withdrawing = false → s.dev.sec.lifecycle ≠ 0 →
    After Dev.mbTakeAll (.debugLock t n) s (fun d =>
      d.sec = { s.dev.sec with debug := 0, halted := false } ∧ d.out = s.dev.out ++ [.spdm q.transport 7 (secResponse 0 0 [])])) ∧
  (∀ s t n q a c, s.dev.secOn → s.dev.session n = some q → s.dev.withdrawing →
    (a, c) ∈ [(SecAsk.nonceGet, Instr.nonceGet t n), (.keyStatus, .keyStatus t n), (.svnCommit, .svnCommit t n), (.debugLock, .debugLock t n)] →
    Gives c s (fun d => d = { s.dev.at t with sec := { s.dev.sec with waiting := s.dev.sec.waiting ++ [(n, a)] } })) ∧
  (∀ s t tr, s.dev.secOn → s.dev.sec.lost = false → tr < 3 → s.dev.sec.wipeFail = false → (s.dev.sec.sessions.filter (fun k => k.transport == tr)).length < 4 →
    Gives (.spdmRequest t tr (.open none)) s (fun d =>
      d.sec.sessions = s.dev.sec.sessions ++ [{ num := s.dev.sec.nextSession, transport := tr, auth := 0 }] ∧
      d.sec.nextSession = s.dev.sec.nextSession + 1 ∧ d.out = s.dev.out ++ [.spdm tr 0x64 (natLE 4 s.dev.sec.nextSession)])) ∧
  (∀ s t tr i nonce, s.dev.secOn → s.dev.sec.lost = false → tr < 3 →
    Gives (.spdmRequest t tr (.measurements i nonce)) s (fun d =>
      d.sec = s.dev.sec ∧ d.out = s.dev.out ++ [.spdm tr 0x60 (s.dev.measurement i ++ Config.identitySign (s.dev.measurement i ++ nonce))])) ∧
  (∀ s t n q stream, s.dev.secOn → s.dev.session n = some q → q.transport < 2 → stream < 5 →
    Gives (.ideKm t n stream false) s (fun d =>
      d.sec.ide = s.dev.sec.ide.filter (· != 8 * q.transport + stream) ∧ d.out = s.dev.out ++ [.spdm q.transport 0xFE []])) ∧
  (∀ s t n q stream, s.dev.secOn → s.dev.session n = some q → q.transport < 2 → stream < 5 → s.dev.sec.ideStop = [] → s.dev.sec.ideHeld = [] →
    Gives (.ideKm t n stream true) s (fun d =>
      d.sec.ide = s.dev.sec.ide.filter (· != 8 * q.transport + stream) ++ [8 * q.transport + stream] ∧ d.out = s.dev.out ++ [.spdm q.transport 0xFE []])) ∧
  (∀ s t port stream x addr data, 8 * port + stream ∈ s.dev.sec.ide → portOf x = port →
    Effects (.ideRefusal t port stream none x addr data) s (fun d =>
      d.regN 0x02E00018 = satAdd 32 (s.dev.regN 0x02E00018) 1 ∧ (8 * port + stream, x) ∈ d.sec.ideStop ∧
      d.sec.ideHeld = s.dev.sec.ideHeld ++ [(x, .hostWrite x addr data)] ∧ d.out = s.dev.out)) ∧
  (∀ s t i, s.dev.pwr.aonGood → i < 2 → bitOf (s.dev.regN 0x02E0000C) i → s.dev.secOn → s.dev.store.spaces = [] → s.dev.store.commits = [] →
    s.dev.twin.xfer = none →
    After (fun d => d.tidy.mbTakeAll) (.tamper t i true) s (fun d =>
      d.sec.keys = [] ∧ d.sec.nonce = none ∧ d.sec.sessions = [] ∧ d.sec.ide = [] ∧ d.sec.debug = s.dev.sec.restLevel ∧
      d.sec.wipes = min 0xFFFF (s.dev.sec.wipes + 1) ∧ d.sec.tampers = satAdd 32 s.dev.sec.tampers 1 ∧ (if i = 0 then d.sec.latchA else d.sec.latchB) ∧
      ((d.mbox 0).events.getLast?).map (fun e => (e.code, e.object, e.data)) = some (0x0150, i, 0))) ∧
  (∀ s t i, s.dev.pwr.aonGood → i < 2 → bitOf (s.dev.regN 0x02E0000C) i → s.dev.secOn = false →
    After (fun d => d.tidy.mbTakeAll) (.tamper t i true) s (fun d => d.sec.wipeDue ∧ d.sec.keys = s.dev.sec.keys ∧ (if i = 0 then d.sec.latchA else d.sec.latchB))) ∧
  (∀ s t i, s.dev.pwr.aonGood → i < 2 → bitOf (s.dev.regN 0x02E0000C) i = false →
    After (fun d => d.tidy.mbTakeAll) (.tamper t i true) s (fun d => d.sec.keys = s.dev.sec.keys ∧ d.sec.tampers = s.dev.sec.tampers ∧ d.out = s.dev.out)) ∧
  (∀ s t v low, Gives (.tamperLatchClear t v low) s (fun d =>
    d.sec = { s.dev.sec with lowA := bitOf low 0, lowB := bitOf low 1, latchA := s.dev.sec.latchA && !(bitOf v 0 && !bitOf low 0)
                             latchB := s.dev.sec.latchB && !(bitOf v 1 && !bitOf low 1) })) ∧
  (∀ s t x v, s.dev.start.service → s.dev.hostStopped = false → s.dev.sec.lifecycle ≠ 3 → v < 4 → s.dev.regN 0x02E0000C < 4 →
    Gives (.tamperCtrlWrite t x v (s.dev.regN 0x02E0000C) (s.dev.writeCount 0x02E0000C)) s (fun d => d.regN 0x02E0000C = v)) ∧
  (∀ s t x v c, s.dev.start.service → s.dev.hostStopped = false → s.dev.sec.lifecycle = 3 → s.dev.regN 0x02E0000C = 3 → v < 3 →
    Gives (.tamperCtrlWrite t x v 3 c) s (fun d => d = s.dev.at t)) ∧
  (∀ s t, s.dev.pwr.sysGood → s.dev.sec.debug = 2 → After Dev.mbTakeAll (.jtagAccess t .halt) s (fun d => d.sec = { s.dev.sec with halted := true })) ∧
  (∀ s t a, s.dev.pwr.sysGood → 1 ≤ s.dev.sec.debug → secBlock a = false →
    After Dev.mbTakeAll (.jtagAccess t (.regRead a)) s (fun d =>
      d.sec = { s.dev.sec with jtag := (s.dev.at t).regRead a } ∧ ∀ r, regRow a = some r → r.acc = .rc → d.regN a = 0)) ∧
  (∀ s t op, s.dev.sec.debug < op.level → After Dev.mbTakeAll (.jtagAccess t op) s (fun d => d = s.dev.at t))

/-- Quench, the event recorder and host links (R588, R589, R597 to R606): closes, the archive, freezes, the clocks and what is sampled.
Model choices that clauses rest on: notes/assumptions/ 80, 125, 126. -/
def Obligations.Recorder : Prop :=
  (∀ s t h, h < 36 → (s.dev.hearth h).quenched = false → (s.dev.hearth h).slots = [] → (s.dev.hearth h).running = none → (s.dev.hearth h).on = false →
    (s.dev.hearth h).rx4 = false → s.dev.pwr.change = none →
    Effects (.quench t h) s (fun d =>
      (d.hearth h).quenched ∧ (d.hearth h).powered = false ∧ (d.hearth h).on = false ∧ (∀ k, k ≠ h → d.hearth k = s.dev.hearth k) ∧
      ((d.mbox 0).events.getLast?).map (fun e => (e.code, e.object)) = some (0x0160, h))) ∧
  (∀ s t h k r, h < 36 → h ∈ s.dev.pipeHearths → (s.dev.hearth h).quenched = false → (s.dev.hearth h).slots = [] → (s.dev.hearth h).running = none →
    (s.dev.hearth h).rx4 = false → s.dev.spareHearths = k :: r → s.dev.pipeHearths.length ≤ 32 → s.dev.pwr.change = none →
    Effects (.quench t h) s (fun d => (d.hearth h).quenched ∧ (d.hearth k).on ∧ (d.hearth k).powered = decide (4 ≤ s.dev.pwr.mode))) ∧
  (∀ s t, s.dev.rcd.closeDue → s.dev.rcd.frozen = false → s.dev.rcd.lost = [] → s.dev.rcd.acc.lat = [] → s.dev.rcd.ring.length ≤ 152 →
    Gives (.recorderClose t) s (fun d =>
      d.rcd.ring.length = s.dev.rcd.ring.length + 8 ∧ d.rcd.ring.take s.dev.rcd.ring.length = s.dev.rcd.ring ∧ d.rcd.seq = (s.dev.rcd.seq + 8) % 2 ^ 32 ∧
      d.rcd.acc = { base := s.dev.tally } ∧ d.rcd.start = s.dev.opSec ∧ d.rcd.closeDue = false ∧ d.rcd.archDue)) ∧
  (∀ s t, s.dev.rcd.frozen → Gives (.recorderClose t) s (fun d => d = s.dev.at t)) ∧
  (∀ s t ok1, s.dev.rcd.archDue → s.dev.rcd.frozen = false → s.dev.rcd.lost = [] →
    Gives (.archive t true ok1) s (fun d => d.rcd.ring = [] ∧ d.rcd.archDue = false ∧ d.rcd.archFail = false ∧ d.regField 0x02F00100 2 2 = 0)) ∧
  (∀ s t, s.dev.rcd.archDue → s.dev.rcd.frozen = false → s.dev.rcd.lost = [] →
    Gives (.archive t false false) s (fun d => d.rcd.ring = s.dev.rcd.ring ∧ d.rcd.archDue = false ∧ d.rcd.archFail)) ∧
  (∀ s t x, s.dev.start.service → s.dev.hostStopped = false → s.dev.regN 0x02F00100 < 8 →
    Gives (.archiveNow t x (s.dev.regN 0x02F00100) (s.dev.writeCount 0x02F00100)) s (fun d =>
      d.rcd.archDue ∧ d.regField 0x02F00100 2 2 = 1 ∧ d.rcd.ring = s.dev.rcd.ring)) ∧
  (∀ s t x, s.dev.start.service → s.dev.hostStopped = false → s.dev.regN 0x02F00100 = 0 → s.dev.rcd.freezeHost = none →
    Gives (.freezeHost t x true 0 (s.dev.writeCount 0x02F00100)) s (fun d =>
      d.rcd.freezeHost = some (max s.dev.timeUs t) ∧ d.rcd.frozen ∧ d.regField 0x02F00100 0 0 = 1)) ∧
  (∀ s t u, s.dev.rcd.freezeHost = some u → u + 10000000 ≤ max s.dev.timeUs t → s.dev.rcd.freezeMgmt = none → s.dev.rcd.waiting = [] → s.dev.rcd.closeDue = false →
    Gives (.freezeExpiry t) s (fun d => d.rcd = { s.dev.rcd with freezeHost := none } ∧ d.regField 0x02F00100 0 0 = 0)) ∧
  (∀ s t u, s.dev.rcd.freezeHost = some u → u + 10000000 ≤ max s.dev.timeUs t → s.dev.rcd.freezeMgmt = none → s.dev.rcd.waiting = [] → s.dev.rcd.closeDue →
    Gives (.freezeExpiry t) s (fun d => d.rcd.freezeHost = none ∧ d.rcd.closeDue = false ∧ d.rcd.acc = { base := d.tally })) ∧
  (∀ s t, 2 ≤ s.dev.pwr.mode → s.dev.rcd.freezeMgmt = none →
    Gives (.mgmtFreeze t true) s (fun d => d.rcd = { s.dev.rcd with freezeMgmt := some (max s.dev.timeUs t) } ∧ d.regField 0x02F00100 1 1 = 1)) ∧
  (∀ s t a n, 2 ≤ s.dev.pwr.mode → a % 4 = 0 → 1 ≤ n → n ≤ 64 → mgmtReads a → mgmtReads (a + 4 * (n - 1)) →
    Gives (.mctpRecorderRead t a n) s (fun d => d.out = s.dev.out ++
      [.mgmt (natLE 2 0 ++ natLE 4 0 ++ ((List.range n).map (fun i => (s.dev.at t).readEntry 2000 (a + 4 * i))).flatten)])) ∧
  (∀ s t x v, s.dev.start.service → s.dev.hostStopped = false → s.dev.rcd.wall = none → v < 2 ^ 64 →
    Gives (.recWallclock t x v 0 (s.dev.writeCount 0x02F00118)) s (fun d =>
      d.rcd.wall = some (signed 64 v, max s.dev.timeUs t) ∧ d.rcd.ring = s.dev.rcd.ring)) ∧
  (∀ s t x v w, s.dev.start.service → s.dev.hostStopped = false → (s.dev.at t).wallMs = some w → v < 2 ^ 64 → w + 2000 < signed 64 v → s.dev.rcd.frozen = false →
    s.dev.rcd.ring.length < 160 →
    Gives (.recWallclock t x v ((w % (2 ^ 64 : Int)).toNat) (s.dev.writeCount 0x02F00118)) s (fun d =>
      d.rcd.wall = some (signed 64 v, max s.dev.timeUs t) ∧ d.rcd.ring.length = s.dev.rcd.ring.length + 1)) ∧
  (∀ s t, s.dev.pwr.aonGood →
    Gives (.operatingSecond t) s (fun d =>
      d.opSec = (s.dev.opSec + 1) % 2 ^ 40 ∧ tabGet 0 d.rcd.acc.residency s.dev.pwr.mode = tabGet 0 s.dev.rcd.acc.residency s.dev.pwr.mode + 1 ∧
      d.rcd.closeDue = (s.dev.rcd.closeDue || (s.dev.opSec + 1) % 2 ^ 40 % 3600 == 0) ∧ d.rcd.ring = s.dev.rcd.ring)) ∧
  (∀ s t port, port < 2 → s.dev.host.qps = [] →
    Gives (.queueDepthSample t port) s (fun d =>
      (tabGet {} d.rcd.acc.depth port).samples = (tabGet {} s.dev.rcd.acc.depth port).samples + 1 ∧
      tabGet 0 (tabGet {} d.rcd.acc.depth port).bins 0 = tabGet 0 (tabGet {} s.dev.rcd.acc.depth port).bins 0 + 1)) ∧
  (∀ s t port, port < 2 → (s.dev.link port).perst = false → (4, port) ∉ s.dev.health.recovering →
    Effects (.hostLinkDown t port) s (fun d =>
      d.link port = { s.dev.link port with up := false, recovering := true } ∧ d.health.recovering = s.dev.health.recovering ++ [(4, port)])) ∧
  (∀ s t port, port < 2 → (s.dev.link port).perst = false → (4, port) ∈ s.dev.health.recovering →
    Effects (.hostLinkDown t port) s (fun d =>
      d.link port = { s.dev.link port with up := false, held := true } ∧ d.regN 0x02F0001C = satAdd 32 (s.dev.regN 0x02F0001C) 1 ∧
      ((d.mbox 0).events.getLast?).map (fun e => (e.code, e.object, e.data)) = some (0x0164, 4, port)))

/-! ### The RX4 window and the pins (22_rx4_window.md, 23_package_electrical.md) -/

/-- The RX4 window and the registers of the pins (R608 to R615, R633, R634): enable takes a hearth and two ways; a command starts on GO and does its
records one by one.
Model choices that clauses rest on: notes/assumptions/ 128. -/
def Obligations.Rx4Window : Prop :=
  (∀ s t sp, s.dev.start.service → s.dev.hostStopped = false → s.dev.regN 0x03000000 = 0 → s.dev.space s.dev.rx4Ts = some sp → sp.x = 0 → s.dev.rx4Owned →
    s.dev.rx4Table.isSome → (s.dev.hearth 35).quenched = false → (s.dev.hearth 35).on = false → (s.dev.hearth 35).slots = [] → s.dev.mail.claims = [] →
    6 ≤ s.dev.freeFrames 0 →
    Effects (.rx4Enable t 0 0 (s.dev.writeCount 0x03000000)) s (fun d =>
      d.regN 0x03000000 = 1 ∧ d.rx4.hearth = some 35 ∧ d.rx4.lock = some 0 ∧ (d.hearth 35).rx4 ∧ (d.hearth 35).powered ∧
      d.mail.claims.map (fun c => (c.cls, c.index, c.x, c.holder)) = [(5, 35, 0, 2), (2, 0, 0, 2)])) ∧
  (∀ s t, s.dev.start.service → s.dev.hostStopped = false → s.dev.regN 0x03000000 = 0 → s.dev.space s.dev.rx4Ts = none → s.dev.rx4.claims = [] →
    Effects (.rx4Enable t 0 0 (s.dev.writeCount 0x03000000)) s (fun d =>
      d.regN 0x03000000 = 0 ∧ d.rx4.hearth = none ∧ d.rx4.reason = 1 ∧ d.mail.claims = s.dev.mail.claims)) ∧
  (∀ s t x, s.dev.start.service → s.dev.hostStopped = false → s.dev.regN 0x03000000 = 1 → s.dev.rx4.run = none →
    Effects (.rx4Disable t x 1 (s.dev.writeCount 0x03000000)) s (fun d =>
      d.regN 0x03000000 = 0 ∧ d.rx4.hearth = none ∧ d.rx4.lock = none ∧ d.rx4.claims = [] ∧ d.rx4.reason = 0)) ∧
  (∀ s t x r, s.dev.start.service → s.dev.hostStopped = false → s.dev.regN 0x03000000 = 1 → s.dev.rx4.run = some r →
    Effects (.rx4Disable t x 1 (s.dev.writeCount 0x03000000)) s (fun d => d.regN 0x03000000 = 1 ∧ d.rx4 = s.dev.rx4 ∧ cwKey x 0x03000000 ∈ d.cwFailed)) ∧
  (∀ s t b k, s.dev.serves 0 → s.dev.start.banked = false → s.dev.rx4.run = none → bitOf (s.dev.regN 0x03000000) 0 → s.dev.rx4Owned → s.dev.rx4Table = some k →
    rxBlockOk (fitTo 64 (b.take 4 ++ [0x01#8] ++ b.drop 5)) k.2.2.ty.len →
    Gives (.validate t b) s (fun d =>
      d.rx4Cmd = fitTo 64 (b.take 4 ++ [0x01#8] ++ b.drop 5) ∧ d.rx4.run = some { block := d.rx4Cmd } ∧
      (d.rx4.state, d.rx4.done, d.rx4.invalid, d.rx4.overflow, d.rx4.table) = (1, 0, 0, 0, []))) ∧
  (∀ s t b k, s.dev.serves 0 → s.dev.start.banked = false → s.dev.rx4.run = none → bitOf (s.dev.regN 0x03000000) 0 → s.dev.rx4Owned → s.dev.rx4Table = some k →
    rxBlockOk (fitTo 64 (b.take 4 ++ [0x02#8] ++ b.drop 5)) k.2.2.ty.len →
    Gives (.arith t b) s (fun d =>
      d.rx4.run = some { block := fitTo 64 (b.take 4 ++ [0x02#8] ++ b.drop 5) } ∧
      (d.rx4.state, d.rx4.done, d.rx4.invalid, d.rx4.overflow, d.rx4.table) = (1, 0, 0, 0, []))) ∧
  (∀ s t b k, s.dev.serves 0 → s.dev.start.banked = false → s.dev.rx4.run = none → bitOf (s.dev.regN 0x03000000) 0 → s.dev.rx4Owned → s.dev.rx4Table = some k →
    rxBlockOk (fitTo 64 (b.take 4 ++ [0x03#8] ++ b.drop 5)) k.2.2.ty.len →
    Gives (.total t b) s (fun d =>
      d.rx4.run = some { block := fitTo 64 (b.take 4 ++ [0x03#8] ++ b.drop 5) } ∧
      (d.rx4.state, d.rx4.done, d.rx4.invalid, d.rx4.overflow, d.rx4.table) = (1, 0, 0, 0, []))) ∧
  (∀ s t b k, s.dev.serves 0 → s.dev.start.banked = false → s.dev.rx4.run = none → bitOf (s.dev.regN 0x03000000) 0 → s.dev.rx4Owned → s.dev.rx4Table = some k →
    rxBlockOk (fitTo 64 (b.take 4 ++ [0x04#8] ++ b.drop 5)) k.2.2.ty.len → s.dev.pwr.mode ≠ 7 → s.dev.locked k.1 = false → s.dev.spaceDown k.1 = false →
    Gives (.fileOut t b) s (fun d =>
      d.rx4.run = some { block := fitTo 64 (b.take 4 ++ [0x04#8] ++ b.drop 5) } ∧ (d.rx4.state, d.rx4.done, d.rx4.invalid) = (1, 0, 0))) ∧
  (∀ s t b k l, s.dev.serves 0 → s.dev.start.banked = false → s.dev.rx4.run = none → bitOf (s.dev.regN 0x03000000) 0 → s.dev.rx4Owned → s.dev.rx4Table = some k →
    rxBlockOk (fitTo 64 (b.take 4 ++ [0x05#8] ++ b.drop 5)) k.2.2.ty.len → s.dev.locked k.1 = false → s.dev.spaceDown k.1 = false →
    s.dev.rx4Beyond k.1 k.2.1 k.2.2 (rxU (fitTo 64 (b.take 4 ++ [0x05#8] ++ b.drop 5)) 0x18 4) (rxU (fitTo 64 (b.take 4 ++ [0x05#8] ++ b.drop 5)) 0xC 4) = false →
    Dev.rx4File k.1 k.2.1 k.2.2 (rxU (fitTo 64 (b.take 4 ++ [0x05#8] ++ b.drop 5)) 0x18 4) (rxU (fitTo 64 (b.take 4 ++ [0x05#8] ++ b.drop 5)) 0xC 4) = some l →
    Gives (.fileIn t b) s (fun d =>
      d.rx4.run = some { block := fitTo 64 (b.take 4 ++ [0x05#8] ++ b.drop 5), file := l, epoch := k.1.visible } ∧ d.rx4.epoch = k.1.visible ∧
      d.rx4.state = 1)) ∧
  (∀ s t b, s.dev.serves 0 → s.dev.start.banked = false → s.dev.rx4.run = none → bitOf (s.dev.regN 0x03000000) 0 = false →
    Gives (.validate t b) s (fun d => d.rx4.run = none ∧ (d.rx4.state, d.rx4.legacy, d.rx4.status) = (2, 4, 0x1003))) ∧
  (∀ s t r h raw, s.dev.rx4.run = some r → s.dev.rx4.hearth = some h → r.commit = none → (s.dev.hearth h).powered → s.dev.mail.activating = none →
    rxU r.block 4 1 = 1 → rxFault r.block (fitTo (rxU r.block 8 2) raw) = none → r.done + 1 ≠ rxU r.block 0xC 4 → s.dev.rx4.invalid ≠ 65 →
    Effects (.rx4Record t (some raw)) s (fun d => d.rx4 = { s.dev.rx4 with run := some { r with done := r.done + 1 }, done := r.done + 1 } ∧ d.out = s.dev.out)) ∧
  (∀ s t r h raw f, s.dev.rx4.run = some r → s.dev.rx4.hearth = some h → r.commit = none → (s.dev.hearth h).powered → s.dev.mail.activating = none →
    rxU r.block 4 1 ≤ 4 → rxU r.block 4 1 ≠ 4 → rxFault r.block (fitTo (rxU r.block 8 2) raw) = some f → r.done + 1 ≠ rxU r.block 0xC 4 → s.dev.rx4.invalid < 64 →
    Effects (.rx4Record t (some raw)) s (fun d =>
      d.rx4.invalid = s.dev.rx4.invalid + 1 ∧ d.rx4.table = s.dev.rx4.table ++ [rxEntry r.block (r.done + 1) f] ∧ d.rx4.done = r.done + 1 ∧ d.out = s.dev.out)) ∧
  (∀ s t r h raw, s.dev.rx4.run = some r → s.dev.rx4.hearth = some h → r.commit = none → (s.dev.hearth h).powered → s.dev.mail.activating = none →
    rxU r.block 4 1 = 1 → rxFault r.block (fitTo (rxU r.block 8 2) raw) = none → r.done + 1 = rxU r.block 0xC 4 → s.dev.rx4.invalid = 0 →
    Effects (.rx4Record t (some raw)) s (fun d => d.rx4.run = none ∧ (d.rx4.state, d.rx4.legacy, d.rx4.status, d.rx4.done) = (2, 0, 0, r.done + 1))) ∧
  (∀ s t r h raw f, s.dev.rx4.run = some r → s.dev.rx4.hearth = some h → r.commit = none → (s.dev.hearth h).powered → s.dev.mail.activating = none →
    rxU r.block 4 1 = 1 → rxFault r.block (fitTo (rxU r.block 8 2) raw) = some f → s.dev.rx4.invalid = 64 →
    Effects (.rx4Record t (some raw)) s (fun d => d.rx4.run = none ∧ (d.rx4.state, d.rx4.legacy, d.rx4.status, d.rx4.invalid) = (3, 2, 0x3001, 65))) ∧
  (∀ s t r, s.dev.serves 0 → s.dev.rx4.run = some r →
    Gives (.rx4GoOverrun t) s (fun d => d.rx4 = { s.dev.rx4 with overrun := true })) ∧
  (∀ s t x p v c, s.dev.start.service → s.dev.hostStopped = false → p < 16 → s.dev.claimOf 1 p = some c → c.x = x → c.holder = 1 → v < 64 → v % 8 < 5 →
    s.dev.regN (0x03100000 + 4 * p) < 64 →
    Gives (.gpioFuncWrite t x p v (s.dev.regN (0x03100000 + 4 * p)) (s.dev.writeCount (0x03100000 + 4 * p))) s (fun d => d.regN (0x03100000 + 4 * p) = v)) ∧
  (∀ s t x p v c, s.dev.start.service → s.dev.hostStopped = false → p < 16 → s.dev.claimOf 1 p = none →
    Gives (.gpioFuncWrite t x p v (s.dev.regN (0x03100000 + 4 * p)) c) s (fun d => d = s.dev.at t)) ∧
  (∀ s t x v, s.dev.start.service → s.dev.hostStopped = false → v < 6 → s.dev.regN 0x03200000 < 8 → s.dev.regN 0x03200000 ≠ v →
    Gives (.uartCtrlWrite t x v (s.dev.regN 0x03200000) (s.dev.writeCount 0x03200000)) s (fun d =>
      d.regN 0x03200000 = v ∧ d.pins.uartRate = v ∧ d.pins.uartQuiet = max s.dev.timeUs t + 1000))
/-! ### Instructions of the expression unit (07_expression_unit.md, 08_arithmetic.md) -/

/-- Issue (R224, R228, R233, R234, R246, R247): an instruction that meets no fault retires on the wide unit when that is ready, and otherwise on the
narrow one, whose first vector instruction wakes or asks for the wide one; the counter of the unit that ran it counts it. NOP and the branches
change nothing but the next word; END keeps the slice's results and enters the next slice with a selected row. A word that the checks of a
single word refuse stops the run by name.
Model choices that clauses rest on: notes/assumptions/ 28. -/
def Obligations.UnitIssue : Prop :=
  (∀ s h op w, s.dev.issues h op w → (op = .cml → ((s.dev.hearth h).exu.done (s.dev.narrowOnly h) op w).unres = false) →
    Gives (op.cmd h w none) s (fun d =>
      let x := (s.dev.hearth h).exu
      let free := op.isVector && !s.dev.narrowOnly h && !x.fenced
      let b := 0x02100000 + 0x1000 * h
      s.dev.unitOnly h d ∧ (d.hearth h).exu.pend = none ∧ (d.hearth h).exu.unres = false ∧
      (d.hearth h).exu.wide = (if free && x.wide == .off then .waking else x.wide) ∧
      (d.hearth h).exu.wakeReq = (x.wakeReq || (free && x.wide == .poweringDown)) ∧
      (d.hearth h).exu.activeWide = (if op.isVector then free && x.wide == .ready else x.activeWide) ∧
      d.reg64 (b + 0x10) = (s.dev.reg64 (b + 0x10) + if free && x.wide == .ready then 1 else 0) % 2 ^ 64 ∧
      d.reg64 (b + 0x18) = (s.dev.reg64 (b + 0x18) + if op.isVector && !(free && x.wide == .ready) then 1 else 0) % 2 ^ 64 ∧
      d.regN (b + 8) = satAdd 32 (s.dev.regN (b + 8)) (if free && x.wide == .off then 1 else 0))) ∧
  (∀ s h op w flt, xWordOk op w = false → exec (op.cmd h w flt) s = .fault .staticFault) ∧
  (∀ s h op w flt, xWordOk op w = true → s.dev.unitReady h = false → Gives (op.cmd h w flt) s (fun d => d = s.dev)) ∧
  (∀ s h w, s.dev.issues h .nop w → Retires (.xNop h w none) h s (fun y => y = (s.dev.hearth h).exu.moved y)) ∧
  (∀ s h w, s.dev.issues h .brz w → Retires (.xBrz h w none) h s (fun y =>
    let x := (s.dev.hearth h).exu
    y = { x.moved y with pos := if x.sGet w.a.toNat = 0 then x.pos + 1 + w.imm.toNat else x.pos + 1 })) ∧
  (∀ s h w, s.dev.issues h .brnz w → Retires (.xBrnz h w none) h s (fun y =>
    let x := (s.dev.hearth h).exu
    y = { x.moved y with pos := if x.sGet w.a.toNat ≠ 0 then x.pos + 1 + w.imm.toNat else x.pos + 1 })) ∧
  (∀ s h w, s.dev.issues h .brmz w → Retires (.xBrmz h w none) h s (fun y =>
    let x := (s.dev.hearth h).exu
    y = { x.moved y with pos := if x.mGet w.a.toNat = 0 then x.pos + 1 + w.imm.toNat else x.pos + 1 })) ∧
  (∀ s h w b j rest, s.dev.issues h .endS w → (s.dev.hearth h).exu.busy = true →
    ((sliceList (s.dev.hearth h).exu.ctx).dropWhile (fun p => p != ((s.dev.hearth h).exu.bil, (s.dev.hearth h).exu.slice))).drop 1 = (b, j) :: rest →
    Retires (.xEnd h w none) h s (fun y =>
      let x := (s.dev.hearth h).exu
      y.results = x.results ++ [x.result] ∧ y.ctx = x.ctx ∧ y.bil = b ∧ y.slice = j ∧ y.m0 = sliceMask (x.ctx.billets.getD b {}) j ∧ y.pos = 0 ∧
      y.busy = true ∧ y.err = 0 ∧ y.ovf = 0 ∧ y.recs = [] ∧ y.v = [] ∧ y.vld = [] ∧ y.m = [] ∧ y.sel = none ∧ y.outs = [] ∧
      y.rows = (x.ctx.billets.getD b {}).rows ∧ y.sr = (if b = x.bil then x.sr else []) ∧ y.scratch = if b = x.bil then x.scratch else [])) ∧
  (∀ s h w, s.dev.issues h .endS w → (s.dev.hearth h).exu.busy = true →
    ((sliceList (s.dev.hearth h).exu.ctx).dropWhile (fun p => p != ((s.dev.hearth h).exu.bil, (s.dev.hearth h).exu.slice))).drop 1 = [] →
    Retires (.xEnd h w none) h s (fun y =>
      let x := (s.dev.hearth h).exu
      y = { x.moved y with pos := 0, results := x.results ++ [x.result], busy := false, m0 := 0 })) ∧
  (∀ s h w, s.dev.issues h .endS w → (s.dev.hearth h).exu.busy = false →
    Retires (.xEnd h w none) h s (fun y => y = (s.dev.hearth h).exu.moved y))

/-- Faults (R250, R252, R253, Table 7.9): an instruction that meets a resolvable fault writes nothing and waits, with its lane and cause in the
fault record; one that meets an uncorrectable error writes nothing, and the attempt is lost to the hearth's recovery domain.
Model choices that clauses rest on: notes/assumptions/ 29. -/
def Obligations.UnitFaults : Prop :=
  (∀ s h op w f, s.dev.issues h op w → 1 ≤ f.cause → f.cause ≤ 4 → s.dev.recovers 1 h = false →
    (f.cause = 1 → ∀ r q, (s.dev.hearth h).running = some r → s.dev.query r.query = some q →
      ∃ e off, (s.dev.translate (ctxOf q.x) f.addr.toNat false).1 = .ok e off) →
    Gives (op.cmd h w (some f)) s (fun d =>
      let x := (s.dev.hearth h).exu
      let b := 0x02100000 + 0x1000 * h
      let y := x.issue (s.dev.narrowOnly h) op
      (d.hearth h).exu = { y.1 with pend := some ⟨op, w, f, 1⟩, rpe := 0, fixes := 0 } ∧ d.regN (b + 8) = satAdd 32 (s.dev.regN (b + 8)) y.2.wakes ∧ (∀ k, k ≠ h → d.hearth k = s.dev.hearth k) ∧
      d.regN (b + 0x20) = satAdd 32 (s.dev.regN (b + 0x20)) 1 ∧ d.regN (b + 0x24) = s.dev.regN (b + 0x24) ∧
      d.regN (b + 0x40) = (x.ctx.codeOff + 8 * x.pos) % 2 ^ 32 ∧
      d.regN (b + 0x44) = x.ctx.stage % 2 ^ 16 + 2 ^ 16 * (f.lane % 2 ^ 8) + 2 ^ 24 * f.cause ∧
      d.reg64 (b + 0x48) = f.addr.toNat ∧ d.regN (b + 0x50) = x.slice % 2 ^ 16 + 2 ^ 16)) ∧
  (∀ s h op w f, s.dev.issues h op w → f.cause = 0x10 → s.dev.recovers 1 h = false →
    (recent s.dev.opSec (s.dev.hearth h).unresAt).length < 2 →
    Gives (op.cmd h w (some f)) s (fun d =>
      let b := 0x02100000 + 0x1000 * h
      (d.hearth h).exu = { ((s.dev.hearth h).exu.issue (s.dev.narrowOnly h) op).1 with unres := true, rpe := 0, fixes := 0 } ∧ (∀ k, k ≠ h → d.hearth k = s.dev.hearth k) ∧
      d.health.recovering = s.dev.health.recovering ++ [(1, h)] ∧
      d.regN (b + 0x24) = satAdd 32 (s.dev.regN (b + 0x24)) 1 ∧ d.regN (b + 0x20) = s.dev.regN (b + 0x20))) ∧
  (∀ s h op w f, s.dev.issues h op w → f.cause = 5 → s.dev.recovers 1 h = false →
    Gives (op.cmd h w (some f)) s (fun d =>
      (d.hearth h).exu = { ((s.dev.hearth h).exu.issue (s.dev.narrowOnly h) op).1 with pend := some ⟨op, w, f, 1⟩, rpe := 0, fixes := 0 } ∧
      d.health.recovering = s.dev.health.recovering ++ [(1, h)] ∧ (d.hearth h).wideAt = recent s.dev.opSec (s.dev.hearth h).wideAt ++ [s.dev.opSec]))

/-- Integer lanes (R229, R233, R241, R256, R257, R259, R269, R274): each row of the destination holds the exact result reduced to the type's width,
a null where an operand is null, and the mark that the rules give it. -/
def Obligations.IntegerLanes : Prop :=
  (∀ s h w i, s.dev.issues h .add w → i < 128 →
    let x := (s.dev.hearth h).exu
    let t := w.xty
    Lane (.xAdd h w none) h w s t i (x.two w t i (fun a b => { val := t.ofInt (t.toInt a + t.toInt b), valid := true, causes := if t.minInt ≤ t.toInt a + t.toInt b ∧ t.toInt a + t.toInt b ≤ t.maxInt then [] else [0x01] }))) ∧
  (∀ s h w i, s.dev.issues h .sub w → i < 128 →
    let x := (s.dev.hearth h).exu
    let t := w.xty
    Lane (.xSub h w none) h w s t i (x.two w t i (fun a b => { val := t.ofInt (t.toInt a - t.toInt b), valid := true, causes := if t.minInt ≤ t.toInt a - t.toInt b ∧ t.toInt a - t.toInt b ≤ t.maxInt then [] else [0x01] }))) ∧
  (∀ s h w i, s.dev.issues h .mul w → i < 128 →
    let x := (s.dev.hearth h).exu
    let t := w.xty
    Lane (.xMul h w none) h w s t i (x.two w t i (fun a b => { val := t.ofInt (t.toInt a * t.toInt b), valid := true, causes := if t.minInt ≤ t.toInt a * t.toInt b ∧ t.toInt a * t.toInt b ≤ t.maxInt then [] else [0x01] }))) ∧
  (∀ s h w i, s.dev.issues h .neg w → i < 128 →
    let x := (s.dev.hearth h).exu
    let t := w.xty
    Lane (.xNeg h w none) h w s t i (x.one w t i (fun a => { val := t.ofInt (-t.toInt a), valid := true, causes := if t.minInt ≤ -t.toInt a ∧ -t.toInt a ≤ t.maxInt then [] else [0x01] }))) ∧
  (∀ s h w i, s.dev.issues h .abs w → i < 128 →
    let x := (s.dev.hearth h).exu
    let t := w.xty
    Lane (.xAbs h w none) h w s t i (x.one w t i (fun a => { val := t.ofInt (Int.ofNat (t.toInt a).natAbs), valid := true, causes := if t.minInt ≤ Int.ofNat (t.toInt a).natAbs ∧ Int.ofNat (t.toInt a).natAbs ≤ t.maxInt then [] else [0x01] }))) ∧
  (∀ s h w i, s.dev.issues h .mulh w → i < 128 →
    let x := (s.dev.hearth h).exu
    let t := w.xty
    Lane (.xMulh h w none) h w s t i (x.two w t i (fun a b => .ok (t.ofInt (t.toInt a * t.toInt b / Int.ofNat (2 ^ t.bits)))))) ∧
  (∀ s h w i, s.dev.issues h .wmul w → i < 128 →
    let x := (s.dev.hearth h).exu
    let t := w.xty
    Lane (.xWmul h w none) h w s (wideTy t) i (x.two w t i (fun a b => .ok ((wideTy t).ofInt (t.toInt a * t.toInt b))))) ∧
  (∀ s h w i, s.dev.issues h .and w → i < 128 →
    let x := (s.dev.hearth h).exu
    let t := w.xty
    Lane (.xAnd h w none) h w s t i (x.two w t i (fun a b => .ok (a &&& b)))) ∧
  (∀ s h w i, s.dev.issues h .or w → i < 128 →
    let x := (s.dev.hearth h).exu
    let t := w.xty
    Lane (.xOr h w none) h w s t i (x.two w t i (fun a b => .ok (a ||| b)))) ∧
  (∀ s h w i, s.dev.issues h .xor w → i < 128 →
    let x := (s.dev.hearth h).exu
    let t := w.xty
    Lane (.xXor h w none) h w s t i (x.two w t i (fun a b => .ok (a ^^^ b)))) ∧
  (∀ s h w i, s.dev.issues h .not w → i < 128 →
    let x := (s.dev.hearth h).exu
    let t := w.xty
    Lane (.xNot h w none) h w s t i (x.one w t i (fun a => .ok (t.ofInt (-t.toInt a - 1))))) ∧
  (∀ s h w i, s.dev.issues h .shl w → i < 128 →
    let x := (s.dev.hearth h).exu
    let t := w.xty
    Lane (.xShl h w none) h w s t i (x.two w t i (fun a b => .ok (if t.bits ≤ b % 2 ^ t.bits then 0 else t.ofInt (t.toInt a * Int.ofNat (2 ^ (b % 2 ^ t.bits))))))) ∧
  (∀ s h w i, s.dev.issues h .shr w → i < 128 →
    let x := (s.dev.hearth h).exu
    let t := w.xty
    Lane (.xShr h w none) h w s t i (x.two w t i (fun a b => .ok (if t.bits ≤ b % 2 ^ t.bits then (if t.toInt a < 0 then t.ofInt (-1) else 0) else t.ofInt (t.toInt a / Int.ofNat (2 ^ (b % 2 ^ t.bits))))))) ∧
  (∀ s h w i, s.dev.issues h .div w → i < 128 →
    let x := (s.dev.hearth h).exu
    let t := w.xty
    Lane (.xDiv h w none) h w s t i (x.two w t i (fun a b => if t.toInt b = 0 then { val := t.ofInt (if t.isSigned then -1 else t.maxInt), valid := true, causes := [0x02] } else
      if t.isSigned = true ∧ t.toInt a = t.minInt ∧ t.toInt b = -1 then { val := t.ofInt (t.minInt), valid := true, causes := [0x03] } else
      .ok (t.ofInt ((t.toInt a).tdiv (t.toInt b)))))) ∧
  (∀ s h w i, s.dev.issues h .rem w → i < 128 →
    let x := (s.dev.hearth h).exu
    let t := w.xty
    Lane (.xRem h w none) h w s t i (x.two w t i (fun a b => if t.toInt b = 0 then { val := t.ofInt (t.toInt a), valid := true, causes := [0x02] } else
      if t.isSigned = true ∧ t.toInt a = t.minInt ∧ t.toInt b = -1 then { val := t.ofInt (0), valid := true, causes := [0x03] } else
      .ok (t.ofInt ((t.toInt a).tmod (t.toInt b)))))) ∧
  (∀ s h w i, s.dev.issues h .divrem w → i < 128 → w.c ≠ w.d →
    Retires (.xDivrem h w none) h s (fun y =>
      let x := (s.dev.hearth h).exu
      let t := w.xty
      let q := x.two w t i (fun a b => let r := divRes t (t.toInt a) (t.toInt b); { val := t.ofInt r.1, valid := true, causes := r.2.2 })
      x.wrote y w t w.d.toNat i q ∧ x.marked y i (x.runs w i) q ∧
      x.wrote y w t w.c.toNat i (x.two w t i (fun a b => .ok (t.ofInt (divRes t (t.toInt a) (t.toInt b)).2.1))) ∧
      (∀ k, (k < 128 * w.d.toNat ∨ 128 * (w.d.toNat + t.group) ≤ k) → (k < 128 * w.c.toNat ∨ 128 * (w.c.toNat + t.group) ≤ k) →
        tabGet 0 y.v k = tabGet 0 x.v k) ∧
      (∀ b, b ≠ w.d.toNat → b ≠ w.c.toNat → tabGet 0 y.vld b = tabGet 0 x.vld b) ∧
      y = { x.moved y with v := y.v, vld := y.vld, ann := y.ann, err := y.err, ovf := y.ovf, recs := y.recs })) ∧
  (∀ s h w i, s.dev.issues h .divrem w → w.c = w.d → i < 128 →
    Lane (.xDivrem h w none) h w s w.xty i
      { val := ((s.dev.hearth h).exu.two w w.xty i (fun a b => .ok (w.xty.ofInt (divRes w.xty (w.xty.toInt a) (w.xty.toInt b)).2.1))).val
        valid := (s.dev.hearth h).exu.valid w.a.toNat i && (s.dev.hearth h).exu.valid w.b.toNat i
        causes := ((s.dev.hearth h).exu.two w w.xty i (fun a b => { causes := (divRes w.xty (w.xty.toInt a) (w.xty.toInt b)).2.2 })).causes }) ∧
  (∀ s h w i, s.dev.issues h .dot8 w → i < 128 →
    let x := (s.dev.hearth h).exu
    let t := w.xty
    Lane (.xDot8 h w none) h w s .i32 i (if x.valid w.a.toNat i = true ∧ x.valid w.b.toNat i = true ∧ x.valid w.d.toNat i = true then
      let f := t.toInt
      let z := XTy.i32.toInt (x.lane .i32 w.d.toNat i) + (f (x.lane .u32 w.a.toNat i) * f (x.lane .u32 w.b.toNat i) + f (x.lane .u32 w.a.toNat i / 2 ^ (t.bits * 1)) * f (x.lane .u32 w.b.toNat i / 2 ^ (t.bits * 1)) + f (x.lane .u32 w.a.toNat i / 2 ^ (t.bits * 2)) * f (x.lane .u32 w.b.toNat i / 2 ^ (t.bits * 2)) + f (x.lane .u32 w.a.toNat i / 2 ^ (t.bits * 3)) * f (x.lane .u32 w.b.toNat i / 2 ^ (t.bits * 3)))
      { val := XTy.i32.ofInt z, valid := true, causes := if XTy.i32.minInt ≤ z ∧ z ≤ XTy.i32.maxInt then [] else [0x01] }
      else {})) ∧
  (∀ s h w i, s.dev.issues h .dot16 w → i < 128 →
    let x := (s.dev.hearth h).exu
    let t := w.xty
    Lane (.xDot16 h w none) h w s .i64 i (if x.valid w.a.toNat i = true ∧ x.valid w.b.toNat i = true ∧ x.valid w.d.toNat i = true then
      let f := t.toInt
      let z := XTy.i64.toInt (x.lane .i64 w.d.toNat i) + (f (x.lane .u32 w.a.toNat i) * f (x.lane .u32 w.b.toNat i) + f (x.lane .u32 w.a.toNat i / 2 ^ (t.bits * 1)) * f (x.lane .u32 w.b.toNat i / 2 ^ (t.bits * 1)))
      { val := XTy.i64.ofInt z, valid := true, causes := if XTy.i64.minInt ≤ z ∧ z ≤ XTy.i64.maxInt then [] else [0x01] }
      else {})) ∧
  (∀ s h w i, s.dev.issues h .viota w → i < 128 →
    Lane (.xViota h w none) h w s .u32 i (.ok i)) ∧
  (∀ s h w i, s.dev.issues h .vbs w → i < 128 →
    let x := (s.dev.hearth h).exu
    let t := w.xty
    Lane (.xVbs h w none) h w s t i (.ok (if t.isInt then t.ofInt (x.sGet w.a.toNat).toNat else (x.sGet w.a.toNat).toNat % 2 ^ t.bits))) ∧
  (∀ s h w i, s.dev.issues h .min w → i < 128 →
    let x := (s.dev.hearth h).exu
    let t := w.xty
    Lane (.xMin h w none) h w s t i (x.two w t i (fun a b => .ok (
      if t.isInt then (if t.toInt b < t.toInt a then b else a)
      else if t.isFp then (if t.ffmt.orderKey b < t.ffmt.orderKey a then b else a)
      else if t = .d128 then (if signed 128 b < signed 128 a then b else a)
      else (let p := packedInt (natLE 16 a)
            let q := packedInt (natLE 16 b)
            if q < p ∨ (q = p ∧ cmpBytes (natLE 16 b) (natLE 16 a) = .lt) then b else a))))) ∧
  (∀ s h w i, s.dev.issues h .max w → i < 128 →
    let x := (s.dev.hearth h).exu
    let t := w.xty
    Lane (.xMax h w none) h w s t i (x.two w t i (fun a b => .ok (
      if t.isInt then (if t.toInt a < t.toInt b then b else a)
      else if t.isFp then (if t.ffmt.orderKey a < t.ffmt.orderKey b then b else a)
      else if t = .d128 then (if signed 128 a < signed 128 b then b else a)
      else (let p := packedInt (natLE 16 a)
            let q := packedInt (natLE 16 b)
            if p < q ∨ (q = p ∧ cmpBytes (natLE 16 a) (natLE 16 b) = .lt) then b else a)))))

/-- Floating-point lanes and conversions (R229, R270, R272, R274 to R277, R280): each row of the destination holds the result of the operation of
IEEE 754-2019 in the image's rounding mode and ftz setting, with the marks of its flags; FMIN, FMAX, FABS and FNEG raise none.
Model choices that clauses rest on: notes/assumptions/ 20, 21. -/
def Obligations.FloatLanes : Prop :=
  (∀ s h w i, s.dev.issues h .fadd w → i < 128 →
    let x := (s.dev.hearth h).exu
    let t := w.xty
    Lane (.xFadd h w none) h w s t i (x.two w t i (fun a b => .fp (t.ffmt.add x.ctx.mode x.ctx.ftz false a b)))) ∧
  (∀ s h w i, s.dev.issues h .fsub w → i < 128 →
    let x := (s.dev.hearth h).exu
    let t := w.xty
    Lane (.xFsub h w none) h w s t i (x.two w t i (fun a b => .fp (t.ffmt.add x.ctx.mode x.ctx.ftz true a b)))) ∧
  (∀ s h w i, s.dev.issues h .fmul w → i < 128 →
    let x := (s.dev.hearth h).exu
    let t := w.xty
    Lane (.xFmul h w none) h w s t i (x.two w t i (fun a b => .fp (t.ffmt.mul x.ctx.mode x.ctx.ftz a b)))) ∧
  (∀ s h w i, s.dev.issues h .fdiv w → i < 128 →
    let x := (s.dev.hearth h).exu
    let t := w.xty
    Lane (.xFdiv h w none) h w s t i (x.two w t i (fun a b => .fp (t.ffmt.div x.ctx.mode x.ctx.ftz a b)))) ∧
  (∀ s h w i, s.dev.issues h .fsqrt w → i < 128 →
    let x := (s.dev.hearth h).exu
    let t := w.xty
    Lane (.xFsqrt h w none) h w s t i (x.one w t i (fun a => .fp (t.ffmt.sqrt x.ctx.mode x.ctx.ftz a)))) ∧
  (∀ s h w i, s.dev.issues h .fma w → i < 128 →
    let x := (s.dev.hearth h).exu
    let t := w.xty
    Lane (.xFma h w none) h w s t i (if x.valid w.a.toNat i = true ∧ x.valid w.b.toNat i = true ∧ x.valid w.c.toNat i = true then
      .fp (t.ffmt.fma x.ctx.mode x.ctx.ftz (x.lane t w.a.toNat i) (x.lane t w.b.toNat i) (x.lane t w.c.toNat i)) else {})) ∧
  (∀ s h w i, s.dev.issues h .fmin w → i < 128 →
    let x := (s.dev.hearth h).exu
    let t := w.xty
    Lane (.xFmin h w none) h w s t i (x.two w t i (fun a b => .ok (if t.ffmt.orderKey b < t.ffmt.orderKey a then b else a)))) ∧
  (∀ s h w i, s.dev.issues h .fmax w → i < 128 →
    let x := (s.dev.hearth h).exu
    let t := w.xty
    Lane (.xFmax h w none) h w s t i (x.two w t i (fun a b => .ok (if t.ffmt.orderKey a < t.ffmt.orderKey b then b else a)))) ∧
  (∀ s h w i, s.dev.issues h .fabs w → i < 128 →
    let x := (s.dev.hearth h).exu
    let t := w.xty
    Lane (.xFabs h w none) h w s t i (x.one w t i (fun a => .ok (a % 2 ^ (t.bits - 1))))) ∧
  (∀ s h w i, s.dev.issues h .fneg w → i < 128 →
    let x := (s.dev.hearth h).exu
    let t := w.xty
    Lane (.xFneg h w none) h w s t i (x.one w t i (fun a => .ok (if a / 2 ^ (t.bits - 1) % 2 = 0 then a % 2 ^ (t.bits - 1) + 2 ^ (t.bits - 1) else a % 2 ^ (t.bits - 1))))) ∧
  (∀ s h w i src, s.dev.issues h .cvt w → i < 128 → XTy.ofCode w.mod.toNat = some src →
    let x := (s.dev.hearth h).exu
    Lane (.xCvt h w none) h w s w.xty i (x.one w src i (fun a => cvtLane x.ctx.mode x.ctx.ftz src w.xty (x.annOf w.a.toNat) (cvtAnn w) a)))

/-- Decimal lanes (R229, R260, R261, R263, R264, R268): the exact result at the result scale, rounded once where the rules round, with DEC_OVERFLOW
from 10^38 on; packed results carry a preferred sign; PCHK marks and writes nothing else.
Model choices that clauses rest on: notes/assumptions/ 15. -/
def Obligations.DecimalLanes : Prop :=
  (∀ s h w i, s.dev.issues h .dadd w → i < 128 →
    let x := (s.dev.hearth h).exu
    let p := x.annOf w.a.toNat
    let q := x.annOf w.b.toNat
    Lane (.xDadd h w none) h w s .d128 i (x.two w .d128 i (fun a b => { val := wrapNat 128 (signed 128 a * 10 ^ (max p.s q.s - p.s) + signed 128 b * 10 ^ (max p.s q.s - q.s)), valid := true, causes := if (signed 128 a * 10 ^ (max p.s q.s - p.s) + signed 128 b * 10 ^ (max p.s q.s - q.s)).natAbs < 10 ^ 38 then [] else [0x07] })) ∧
    Retires (.xDadd h w none) h s (fun y => y.annOf w.d.toNat = ⟨min 38 (max (p.p - p.s) (q.p - q.s) + max p.s q.s + 1), max p.s q.s⟩)) ∧
  (∀ s h w i, s.dev.issues h .dsub w → i < 128 →
    let x := (s.dev.hearth h).exu
    let p := x.annOf w.a.toNat
    let q := x.annOf w.b.toNat
    Lane (.xDsub h w none) h w s .d128 i (x.two w .d128 i (fun a b => { val := wrapNat 128 (signed 128 a * 10 ^ (max p.s q.s - p.s) - signed 128 b * 10 ^ (max p.s q.s - q.s)), valid := true, causes := if (signed 128 a * 10 ^ (max p.s q.s - p.s) - signed 128 b * 10 ^ (max p.s q.s - q.s)).natAbs < 10 ^ 38 then [] else [0x07] })) ∧
    Retires (.xDsub h w none) h s (fun y => y.annOf w.d.toNat = ⟨min 38 (max (p.p - p.s) (q.p - q.s) + max p.s q.s + 1), max p.s q.s⟩)) ∧
  (∀ s h w i, s.dev.issues h .dmul w → i < 128 →
    let x := (s.dev.hearth h).exu
    let p := x.annOf w.a.toNat
    let q := x.annOf w.b.toNat
    Lane (.xDmul h w none) h w s .d128 i (x.two w .d128 i (fun a b => { val := wrapNat 128 (signed 128 a * signed 128 b), valid := true, causes := if (signed 128 a * signed 128 b).natAbs < 10 ^ 38 then [] else [0x07] })) ∧
    Retires (.xDmul h w none) h s (fun y => y.annOf w.d.toNat = ⟨min 38 (p.p + q.p), p.s + q.s⟩)) ∧
  (∀ s h w i, s.dev.issues h .ddiv w → i < 128 →
    let x := (s.dev.hearth h).exu
    let p := x.annOf w.a.toNat
    let q := x.annOf w.b.toNat
    Lane (.xDdiv h w none) h w s .d128 i (x.two w .d128 i (fun a b => if signed 128 b = 0 then { val := 2 ^ 128 - 1, valid := true, causes := [0x02] } else
      decRes (divRound x.ctx.mode (signed 128 a * 10 ^ (q.s + w.imm.toNat)) (signed 128 b * 10 ^ p.s)))) ∧
    Retires (.xDdiv h w none) h s (fun y => y.annOf w.d.toNat = ⟨38, w.imm.toNat⟩)) ∧
  (∀ s h w i, s.dev.issues h .dscale w → i < 128 →
    let x := (s.dev.hearth h).exu
    let p := x.annOf w.a.toNat
    Lane (.xDscale h w none) h w s .d128 i (x.one w .d128 i (fun a =>
      decRes (if p.s ≤ w.imm.toNat then signed 128 a * 10 ^ (w.imm.toNat - p.s) else roundRat x.ctx.mode (signed 128 a) (10 ^ (p.s - w.imm.toNat))))) ∧
    Retires (.xDscale h w none) h s (fun y => y.annOf w.d.toNat = ⟨38, w.imm.toNat⟩)) ∧
  (∀ s h w i, s.dev.issues h .padd w → i < 128 →
    let x := (s.dev.hearth h).exu
    let n := (x.annOf w.a.toNat).p
    let m := (x.annOf w.b.toNat).p
    let r := min 31 (max n m + 1)
    Lane (.xPadd h w none) h w s .pdec i (x.two w .pdec i (fun a b =>
      let z := packedInt (natLE 16 a) + packedInt (natLE 16 b)
      if packedValid n (natLE 16 a) = true ∧ packedValid m (natLE 16 b) = true then
        { val := leNat (packedOf r (decide (z < 0)) (z.natAbs % 10 ^ r)), valid := true, causes := if 10 ^ r ≤ z.natAbs then [0x07] else [] }
      else { val := leNat (packedOf r false 0), valid := true, causes := [0x08] }))) ∧
  (∀ s h w i, s.dev.issues h .psub w → i < 128 →
    let x := (s.dev.hearth h).exu
    let n := (x.annOf w.a.toNat).p
    let m := (x.annOf w.b.toNat).p
    let r := min 31 (max n m + 1)
    Lane (.xPsub h w none) h w s .pdec i (x.two w .pdec i (fun a b =>
      let z := packedInt (natLE 16 a) - packedInt (natLE 16 b)
      if packedValid n (natLE 16 a) = true ∧ packedValid m (natLE 16 b) = true then
        { val := leNat (packedOf r (decide (z < 0)) (z.natAbs % 10 ^ r)), valid := true, causes := if 10 ^ r ≤ z.natAbs then [0x07] else [] }
      else { val := leNat (packedOf r false 0), valid := true, causes := [0x08] }))) ∧
  (∀ s h w i, s.dev.issues h .pchk w → i < 128 →
    Retires (.xPchk h w none) h s (fun y =>
      let x := (s.dev.hearth h).exu
      x.marked y i (x.runs w i) (x.one w .pdec i (fun a => { causes := if packedValid (x.annOf w.a.toNat).p (natLE 16 a) then [] else [0x08] })) ∧
      y = { x.moved y with err := y.err, ovf := y.ovf, recs := y.recs }))

/-- Masks and marks (R225, R229, R230, R231, R235, R269, R273, R282): a compare, a test or a mask instruction gives the relation's bit in the rows that
execute and keeps the others; VSEL takes what it selects with its validity; ECLR clears the records of the rows named; SETSEL sets the selection.
Model choices that clauses rest on: notes/assumptions/ 16, 19. -/
def Obligations.MaskRows : Prop :=
  (∀ s h w i, s.dev.issues h .cmp w → i < 128 →
    let x := (s.dev.hearth h).exu
    let t := w.xty
    let a := x.lane t w.a.toNat i
    let b := x.lane t w.b.toNat i
    let both := x.valid w.a.toNat i && x.valid w.b.toNat i
    let good := packedValid (x.annOf w.a.toNat).p (natLE 16 a) && packedValid (x.annOf w.b.toNat).p (natLE 16 b)
    Row (.xCmp h w none) h w s i
      (both && (if t.isInt then cmpOp w.mod.toNat (some (compare (t.toInt a) (t.toInt b)))
        else if t.isFp then cmpOp w.mod.toNat (t.ffmt.compare a b)
        else if t = .d128 then cmpOp w.mod.toNat (some (compare (signed 128 a * 10 ^ (x.annOf w.b.toNat).s) (signed 128 b * 10 ^ (x.annOf w.a.toNat).s)))
        else if t = .pdec then good && cmpOp w.mod.toNat (some (compare (packedInt (natLE 16 a)) (packedInt (natLE 16 b))))
        else cmpOp w.mod.toNat (some (cmpBytes (x.str w.a.toNat i) (x.str w.b.toNat i)))))
      (if both && t == .pdec && !good then [0x08] else [])) ∧
  (∀ s h w i, s.dev.issues h .vsel w → i < 128 →
    let x := (s.dev.hearth h).exu
    let r := if (x.mGet w.c.toNat).getLsbD i then w.a.toNat else w.b.toNat
    Lane (.xVsel h w none) h w s w.xty i { val := x.lane w.xty r i, valid := x.valid r i }) ∧
  (∀ s h w i, s.dev.issues h .valid w → i < 128 →
    let x := (s.dev.hearth h).exu
    Row (.xValid h w none) h w s i (x.valid w.a.toNat i) []) ∧
  (∀ s h w i, s.dev.issues h .setnull w → i < 128 →
    Retires (.xSetnull h w none) h s (fun y =>
      let x := (s.dev.hearth h).exu
      y.valid w.d.toNat i = (x.valid w.d.toNat i && !(x.runs w i && (x.mGet w.a.toNat).getLsbD i)) ∧
      (∀ b, b ≠ w.d.toNat → tabGet 0 y.vld b = tabGet 0 x.vld b) ∧ y = { x.moved y with vld := y.vld })) ∧
  (∀ s h w i, s.dev.issues h .mand w → i < 128 →
    let x := (s.dev.hearth h).exu
    Row (.xMand h w none) h w s i ((x.mGet w.a.toNat).getLsbD i && (x.mGet w.b.toNat).getLsbD i) []) ∧
  (∀ s h w i, s.dev.issues h .mor w → i < 128 →
    let x := (s.dev.hearth h).exu
    Row (.xMor h w none) h w s i ((x.mGet w.a.toNat).getLsbD i || (x.mGet w.b.toNat).getLsbD i) []) ∧
  (∀ s h w i, s.dev.issues h .mxor w → i < 128 →
    let x := (s.dev.hearth h).exu
    Row (.xMxor h w none) h w s i ((x.mGet w.a.toNat).getLsbD i != (x.mGet w.b.toNat).getLsbD i) []) ∧
  (∀ s h w i, s.dev.issues h .mandn w → i < 128 →
    let x := (s.dev.hearth h).exu
    Row (.xMandn h w none) h w s i ((x.mGet w.a.toNat).getLsbD i && !(x.mGet w.b.toNat).getLsbD i) []) ∧
  (∀ s h w i, s.dev.issues h .mnot w → i < 128 →
    let x := (s.dev.hearth h).exu
    Row (.xMnot h w none) h w s i (!(x.mGet w.a.toNat).getLsbD i) []) ∧
  (∀ s h w i, s.dev.issues h .mmov w → i < 128 →
    let x := (s.dev.hearth h).exu
    Row (.xMmov h w none) h w s i ((x.mGet w.a.toNat).getLsbD i) []) ∧
  (∀ s h w i, s.dev.issues h .merr w → i < 128 →
    let x := (s.dev.hearth h).exu
    Row (.xMerr h w none) h w s i (x.err.getLsbD i) []) ∧
  (∀ s h w i, s.dev.issues h .movf w → i < 128 →
    let x := (s.dev.hearth h).exu
    Row (.xMovf h w none) h w s i (x.ovf.getLsbD i) []) ∧
  (∀ s h w i, s.dev.issues h .mld w → i < 128 →
    let x := (s.dev.hearth h).exu
    Row (.xMld h w none) h w s i (match x.slotVal w.imm.toNat i with | some b => leNat b != 0 | none => false) []) ∧
  (∀ s h w i, s.dev.issues h .vldn w → i < 128 →
    let x := (s.dev.hearth h).exu
    Row (.xVldn h w none) h w s i ((x.slotVal w.imm.toNat i).isSome) []) ∧
  (∀ s h w i c, s.dev.issues h .tst w → i < 128 → (s.dev.hearth h).exu.slot (w.imm.toNat % 128) = some c →
    let x := (s.dev.hearth h).exu
    let u := x.slotVal (w.imm.toNat % 128) i
    let bad := c.ty.ty == .packedDecimal && decide (w.mod.toNat < 8) && (u.map (packedValid c.ty.a)).getD true == false
    Row (.xTst h w none) h w s i (!bad && testVal c.ty.ty w.mod.toNat u (x.tstOperands w)) (if bad then [0x08] else [])) ∧
  (∀ s h w i, s.dev.issues h .tst w → i < 128 → (s.dev.hearth h).exu.slot (w.imm.toNat % 128) = none → Row (.xTst h w none) h w s i false []) ∧
  (∀ s h w, s.dev.issues h .eclr w →
    Retires (.xEclr h w none) h s (fun y =>
      let x := (s.dev.hearth h).exu
      let k := x.m0 &&& x.mGet w.a.toNat
      y.err = x.err &&& ~~~k ∧ y.ovf = x.ovf &&& ~~~k ∧
      (∀ i, i < 128 → tabGet {} y.recs i = if k.getLsbD i then {} else tabGet {} x.recs i) ∧
      y = { x.moved y with err := y.err, ovf := y.ovf, recs := y.recs })) ∧
  (∀ s h w, s.dev.issues h .setsel w →
    Retires (.xSetsel h w none) h s (fun y =>
      let x := (s.dev.hearth h).exu
      y = { x.moved y with sel := some (x.m0 &&& x.mGet w.a.toNat) }))

/-- Scalars and reductions (R226, R228, R234, R243, R256): the result modulo 2^64, discarded by S0; a reduction takes the rows that execute and are
valid, and writes 0 when there is none. -/
def Obligations.Scalars : Prop :=
  (∀ s h w, s.dev.issues h .sadd w →
    let x := (s.dev.hearth h).exu
    Scalar (.xSadd h w none) h w s (x.sGet w.a.toNat + x.sGet w.b.toNat)) ∧
  (∀ s h w, s.dev.issues h .scalSsub w →
    let x := (s.dev.hearth h).exu
    Scalar (.xScalSsub h w none) h w s (x.sGet w.a.toNat - x.sGet w.b.toNat)) ∧
  (∀ s h w, s.dev.issues h .smul w →
    let x := (s.dev.hearth h).exu
    Scalar (.xSmul h w none) h w s (x.sGet w.a.toNat * x.sGet w.b.toNat)) ∧
  (∀ s h w, s.dev.issues h .sand w →
    let x := (s.dev.hearth h).exu
    Scalar (.xSand h w none) h w s (x.sGet w.a.toNat &&& x.sGet w.b.toNat)) ∧
  (∀ s h w, s.dev.issues h .sor w →
    let x := (s.dev.hearth h).exu
    Scalar (.xSor h w none) h w s (x.sGet w.a.toNat ||| x.sGet w.b.toNat)) ∧
  (∀ s h w, s.dev.issues h .sxor w →
    let x := (s.dev.hearth h).exu
    Scalar (.xSxor h w none) h w s (x.sGet w.a.toNat ^^^ x.sGet w.b.toNat)) ∧
  (∀ s h w, s.dev.issues h .sshl w →
    let x := (s.dev.hearth h).exu
    Scalar (.xSshl h w none) h w s (if 64 ≤ (x.sGet w.b.toNat).toNat then 0 else x.sGet w.a.toNat <<< (x.sGet w.b.toNat).toNat)) ∧
  (∀ s h w, s.dev.issues h .sshr w →
    let x := (s.dev.hearth h).exu
    Scalar (.xSshr h w none) h w s (if 64 ≤ (x.sGet w.b.toNat).toNat then 0 else x.sGet w.a.toNat >>> (x.sGet w.b.toNat).toNat)) ∧
  (∀ s h w, s.dev.issues h .smov w →
    let x := (s.dev.hearth h).exu
    Scalar (.xSmov h w none) h w s (x.sGet w.a.toNat)) ∧
  (∀ s h w, s.dev.issues h .slt w →
    let x := (s.dev.hearth h).exu
    Scalar (.xSlt h w none) h w s (if (x.sGet w.a.toNat).toInt < (x.sGet w.b.toNat).toInt then 1 else 0)) ∧
  (∀ s h w, s.dev.issues h .sltu w →
    let x := (s.dev.hearth h).exu
    Scalar (.xSltu h w none) h w s (if (x.sGet w.a.toNat).toNat < (x.sGet w.b.toNat).toNat then 1 else 0)) ∧
  (∀ s h w, s.dev.issues h .mcnt w →
    let x := (s.dev.hearth h).exu
    Scalar (.xMcnt h w none) h w s (BitVec.ofNat 64 ((List.range 128).countP (fun i => (x.mGet w.a.toNat).getLsbD i)))) ∧
  (∀ s h w, s.dev.issues h .sli w →
    Scalar (.xSli h w none) h w s (w.imm.signExtend 64)) ∧
  (∀ s h w, s.dev.issues h .slc w →
    Scalar (.xSlc h w none) h w s (match (s.dev.hearth h).exu.operand 0 w.imm.toNat with
      | some (ty, some b) => if ty.ty.kind == .sint then BitVec.ofInt 64 (signed (8 * b.length) (leNat b)) else BitVec.ofNat 64 (leNat b)
      | _ => 0)) ∧
  (∀ s h w, s.dev.issues h .slp w →
    Scalar (.xSlp h w none) h w s (match (s.dev.hearth h).exu.operand 1 w.imm.toNat with
      | some (ty, some b) => if ty.ty.kind == .sint then BitVec.ofInt 64 (signed (8 * b.length) (leNat b)) else BitVec.ofNat 64 (leNat b)
      | _ => 0)) ∧
  (∀ s h w, s.dev.issues h .radd w → w.xty.isFp = false →
    let x := (s.dev.hearth h).exu
    Scalar (.xRadd h w none) h w s (BitVec.ofInt 64 (((x.redRows w).map (fun i => w.xty.toInt (x.lane w.xty w.a.toNat i))).sum))) ∧
  (∀ s h w, s.dev.issues h .radd w → w.xty.isFp = true →
    let x := (s.dev.hearth h).exu
    Scalar (.xRadd h w none) h w s (if x.redRows w = [] then 0 else
      BitVec.ofNat 64 (((x.redRows w).foldl (fun k i => k.add w.xty.ffmt x.ctx.ftz (x.lane w.xty w.a.toNat i)) ({} : FSum)).result fmtF64 x.ctx.mode x.ctx.ftz).1)) ∧
  (∀ s h w, s.dev.issues h .rmin w →
    let x := (s.dev.hearth h).exu
    let t := w.xty
    ∃ v, Scalar (.xRmin h w none) h w s v ∧ (x.redRows w = [] → v = 0) ∧ (x.redRows w ≠ [] →
      ∃ i ∈ x.redRows w, v = BitVec.ofNat 64 (x.lane t w.a.toNat i % 2 ^ t.bits) ∧
        ∀ j ∈ x.redRows w, minBefore t (x.lane t w.a.toNat j) (x.lane t w.a.toNat i) = false)) ∧
  (∀ s h w, s.dev.issues h .rmax w →
    let x := (s.dev.hearth h).exu
    let t := w.xty
    ∃ v, Scalar (.xRmax h w none) h w s v ∧ (x.redRows w = [] → v = 0) ∧ (x.redRows w ≠ [] →
      ∃ i ∈ x.redRows w, v = BitVec.ofNat 64 (x.lane t w.a.toNat i % 2 ^ t.bits) ∧
        ∀ j ∈ x.redRows w, minBefore t (x.lane t w.a.toNat i) (x.lane t w.a.toNat j) = false))

/-- Loads, gathers, the slice scratch and outputs (R229, R234, R236 to R240, R265): a slot, constant, parameter or table element in register form, a
null where there is none; a scatter's highest lane wins and an element beyond the scratch is not written; OUT and MOUT give an output's values.
Model choices that clauses rest on: notes/assumptions/ 14, 18, 24, 157. -/
def Obligations.LoadsAndStores : Prop :=
  (∀ s h w i, s.dev.issues h .vld w → i < 128 → w.xty ≠ .str →
    let x := (s.dev.hearth h).exu
    let t := w.xty
    Lane (.xVld h w none) h w s t i (match x.slotVal w.imm.toNat i with | some b => .ok (if t.isInt then t.ofInt (t.toInt (leNat b)) else leNat b % 2 ^ t.laneBits) | none => {})) ∧
  (∀ s h w i, s.dev.issues h .vld w → i < 128 → w.xty = .str → (s.dev.hearth h).exu.heap.length < 2 ^ 63 →
    let x := (s.dev.hearth h).exu
    LaneStr (.xVld h w none) h w s i (x.slotVal w.imm.toNat i) []) ∧
  (∀ s h w c, s.dev.issues h .vld w → (s.dev.hearth h).exu.slot w.imm.toNat = some c → w.xty ≠ .str →
    Retires (.xVld h w none) h s (fun y => y.annOf w.d.toNat = annOfTy c.ty)) ∧
  (∀ s h w i, s.dev.issues h .vbc w → i < 128 → w.xty ≠ .str →
    let x := (s.dev.hearth h).exu
    let t := w.xty
    Lane (.xVbc h w none) h w s t i (match (x.operand 0 w.imm.toNat).bind (·.2) with | some b => .ok (if t.isInt then t.ofInt (t.toInt (leNat b)) else leNat b % 2 ^ t.laneBits) | none => {})) ∧
  (∀ s h w i, s.dev.issues h .vbc w → i < 128 → w.xty = .str → (s.dev.hearth h).exu.heap.length < 2 ^ 63 →
    let x := (s.dev.hearth h).exu
    LaneStr (.xVbc h w none) h w s i ((x.operand 0 w.imm.toNat).bind (·.2)) []) ∧
  (∀ s h w i, s.dev.issues h .vbp w → i < 128 → w.xty ≠ .str →
    let x := (s.dev.hearth h).exu
    let t := w.xty
    Lane (.xVbp h w none) h w s t i (match (x.operand 1 w.imm.toNat).bind (·.2) with | some b => .ok (if t.isInt then t.ofInt (t.toInt (leNat b)) else leNat b % 2 ^ t.laneBits) | none => {})) ∧
  (∀ s h w i, s.dev.issues h .vbp w → i < 128 → w.xty = .str → (s.dev.hearth h).exu.heap.length < 2 ^ 63 →
    let x := (s.dev.hearth h).exu
    LaneStr (.xVbp h w none) h w s i ((x.operand 1 w.imm.toNat).bind (·.2)) []) ∧
  (∀ s h w i, s.dev.issues h .vldf w → i < 128 →
    let x := (s.dev.hearth h).exu
    Lane (.xVldf h w none) h w s .u32 i (match x.slotVal w.imm.toNat i with
      | some b => .ok (leNat (sliceAt b (4 * (w.mod.toNat * 16 + w.b.toNat)) 4)) | none => {})) ∧
  (∀ s h w i f, s.dev.issues h .vld2 w → i < 128 → f < 2 →
    Retires (.xVld2 h w none) h s (fun y =>
      let x := (s.dev.hearth h).exu
      let t := w.xty
      x.wrote y w t (w.d.toNat + f * t.group) i (match x.slotVal (w.imm.toNat % 128) i with
        | some v => (let b := sliceAt v (w.imm.toNat / 128 + f * (t.bits / 8)) (t.bits / 8); .ok (if t.isInt then t.ofInt (t.toInt (leNat b)) else leNat b % 2 ^ t.laneBits)) | none => {}) ∧
      (∀ k, (k < 128 * w.d.toNat ∨ 128 * (w.d.toNat + 2 * t.group) ≤ k) → tabGet 0 y.v k = tabGet 0 x.v k) ∧
      y.err = x.err ∧ y.ovf = x.ovf ∧ y = { x.moved y with v := y.v, vld := y.vld, ann := y.ann, recs := y.recs })) ∧
  (∀ s h w i f, s.dev.issues h .vld3 w → i < 128 → f < 3 →
    Retires (.xVld3 h w none) h s (fun y =>
      let x := (s.dev.hearth h).exu
      let t := w.xty
      x.wrote y w t (w.d.toNat + f * t.group) i (match x.slotVal (w.imm.toNat % 128) i with
        | some v => (let b := sliceAt v (w.imm.toNat / 128 + f * (t.bits / 8)) (t.bits / 8); .ok (if t.isInt then t.ofInt (t.toInt (leNat b)) else leNat b % 2 ^ t.laneBits)) | none => {}) ∧
      (∀ k, (k < 128 * w.d.toNat ∨ 128 * (w.d.toNat + 3 * t.group) ≤ k) → tabGet 0 y.v k = tabGet 0 x.v k) ∧
      y.err = x.err ∧ y.ovf = x.ovf ∧ y = { x.moved y with v := y.v, vld := y.vld, ann := y.ann, recs := y.recs })) ∧
  (∀ s h w i f, s.dev.issues h .vld4 w → i < 128 → f < 4 →
    Retires (.xVld4 h w none) h s (fun y =>
      let x := (s.dev.hearth h).exu
      let t := w.xty
      x.wrote y w t (w.d.toNat + f * t.group) i (match x.slotVal (w.imm.toNat % 128) i with
        | some v => (let b := sliceAt v (w.imm.toNat / 128 + f * (t.bits / 8)) (t.bits / 8); .ok (if t.isInt then t.ofInt (t.toInt (leNat b)) else leNat b % 2 ^ t.laneBits)) | none => {}) ∧
      (∀ k, (k < 128 * w.d.toNat ∨ 128 * (w.d.toNat + 4 * t.group) ≤ k) → tabGet 0 y.v k = tabGet 0 x.v k) ∧
      y.err = x.err ∧ y.ovf = x.ovf ∧ y = { x.moved y with v := y.v, vld := y.vld, ann := y.ann, recs := y.recs })) ∧
  (∀ s h w i, s.dev.issues h .vrow w → i < 128 →
    let x := (s.dev.hearth h).exu
    Lane (.xVrow h w none) h w s .u64 i
      (match ((x.ctx.billets[x.bil]?).bind (·.rowNums)).bind (fun l => l[128 * x.slice + i]?) with | some n => .ok (n % 2 ^ 64) | none => {})) ∧
  (∀ s h w i, s.dev.issues h .vgath w → i < 128 →
    let x := (s.dev.hearth h).exu
    let t := w.xty
    Lane (.xVgath h w none) h w s t i (x.one w .u32 i (fun e =>
      let n := t.bits / 8
      let b := if w.mod = 2 then tabBytes x.scratch (e * n) n else sliceAt (((x.operand w.mod.toNat w.imm.toNat).bind (·.2)).getD []) (e * n) n
      if e * n + n ≤ (if w.mod = 2 then 65536 else (((x.operand w.mod.toNat w.imm.toNat).bind (·.2)).getD []).length) then .ok (if t.isInt then t.ofInt (t.toInt (leNat b)) else leNat b % 2 ^ t.laneBits)
      else { causes := [0x0B] }))) ∧
  (∀ s h w, s.dev.issues h .vscat w →
    Retires (.xVscat h w none) h s (fun y =>
      let x := (s.dev.hearth h).exu
      let t := w.xty
      let n := t.bits / 8
      let e := fun i => x.lane .u32 w.a.toNat i
      let takes := fun i => x.runs w i && x.valid w.a.toNat i
      (∀ i, i < 128 → takes i = true → e i * n + n ≤ 65536 → (∀ j, i < j → j < 128 → takes j = true → e j ≠ e i) →
        tabBytes y.scratch (e i * n) n = natLE n (if x.valid w.b.toNat i then x.lane t w.b.toNat i else 0)) ∧
      (∀ k, (∀ i, i < 128 → takes i = true → e i * n + n ≤ 65536 → k < e i * n ∨ e i * n + n ≤ k) → tabGet 0 y.scratch k = tabGet 0 x.scratch k) ∧
      (∀ i, i < 128 → x.marked y i (x.runs w i) (x.one w .u32 i (fun e => { causes := if e * n + n ≤ 65536 then [] else [0x0B] }))) ∧
      y = { x.moved y with scratch := y.scratch, err := y.err, ovf := y.ovf, recs := y.recs })) ∧
  (∀ s h w i, s.dev.issues h .vlds w → i < 128 →
    let x := (s.dev.hearth h).exu
    let g := 4 * w.xty.group
    (x.sGet w.a.toNat).toNat % (4 * w.xty.group) = 0 ∧ (x.sGet w.a.toNat).toNat + 512 * w.xty.group ≤ 65536 →
    Lane (.xVlds h w none) h w s w.xty i (.ok (leNat (tabBytes x.scratch ((x.sGet w.a.toNat).toNat + g * i) g)))) ∧
  (∀ s h w i, s.dev.issues h .vsts w → i < 128 →
    let x := (s.dev.hearth h).exu
    let g := 4 * w.xty.group
    let a := (x.sGet w.a.toNat).toNat
    (x.sGet w.a.toNat).toNat % (4 * w.xty.group) = 0 ∧ (x.sGet w.a.toNat).toNat + 512 * w.xty.group ≤ 65536 →
    Retires (.xVsts h w none) h s (fun y =>
      tabBytes y.scratch (a + g * i) g =
        (if x.runs w i then natLE g (if x.valid w.b.toNat i then x.lane w.xty w.b.toNat i else 0) else tabBytes x.scratch (a + g * i) g) ∧
      (∀ k, (k < a ∨ a + 128 * g ≤ k) → tabGet 0 y.scratch k = tabGet 0 x.scratch k) ∧ y = { x.moved y with scratch := y.scratch })) ∧
  (∀ s h w i, s.dev.issues h .vlds w → i < 128 →
    let x := (s.dev.hearth h).exu
    ¬ ((x.sGet w.a.toNat).toNat % (4 * w.xty.group) = 0 ∧ (x.sGet w.a.toNat).toNat + 512 * w.xty.group ≤ 65536) →
    Retires (.xVlds h w none) h s (fun y => x.marked y i (x.runs w i) { causes := [0x0B] } ∧
      y = { x.moved y with err := y.err, ovf := y.ovf, recs := y.recs })) ∧
  (∀ s h w i, s.dev.issues h .vsts w → i < 128 →
    let x := (s.dev.hearth h).exu
    ¬ ((x.sGet w.a.toNat).toNat % (4 * w.xty.group) = 0 ∧ (x.sGet w.a.toNat).toNat + 512 * w.xty.group ≤ 65536) →
    Retires (.xVsts h w none) h s (fun y => x.marked y i (x.runs w i) { causes := [0x0B] } ∧
      y = { x.moved y with err := y.err, ovf := y.ovf, recs := y.recs })) ∧
  (∀ s h w i, s.dev.issues h .outV w → i < 128 →
    Retires (.xOut h w none) h s (fun y =>
      let x := (s.dev.hearth h).exu
      let t := w.xty
      let r := x.lane t w.a.toNat i
      let rec? := x.ctx.outs.find? (fun p => p.1 == w.imm.toNat)
      (y.outs.find? (fun p => p.1 == w.imm.toNat)).map (fun p => (p.2.length, p.2.getD i none)) = some (128,
        if x.m0.getLsbD i && x.valid w.a.toNat i then some (if t = .str then x.str w.a.toNat i else natLE (t.bits / 8) r) else none) ∧
      (∀ k, k ≠ w.imm.toNat → y.outs.find? (fun p => p.1 == k) = x.outs.find? (fun p => p.1 == k)) ∧
      x.marked y i (x.m0.getLsbD i) (if t = .d128 then x.one w t i (fun a =>
        { causes := match rec? with | some p => (if 10 ^ p.2.a ≤ (signed 128 a).natAbs then [0x0F] else []) | none => [] }) else {}) ∧
      y = { x.moved y with outs := y.outs, err := y.err, ovf := y.ovf, recs := y.recs })) ∧
  (∀ s h w i, s.dev.issues h .mout w → i < 128 →
    Retires (.xMout h w none) h s (fun y =>
      let x := (s.dev.hearth h).exu
      (y.outs.find? (fun p => p.1 == w.imm.toNat)).map (fun p => (p.2.length, p.2.getD i none)) = some (128,
        if x.m0.getLsbD i && (x.mGet w.b.toNat).getLsbD i then some [if (x.mGet w.a.toNat).getLsbD i then 1 else 0] else none) ∧
      (∀ k, k ≠ w.imm.toNat → y.outs.find? (fun p => p.1 == k) = x.outs.find? (fun p => p.1 == k)) ∧
      y = { x.moved y with outs := y.outs }))

/-- Strings, automata and care-mask lookups (R58, R230, R242, R289, R293, R294, R300): the relation or the string of each row; a lookup whose hits are
all as their copies say gives the result word of its winners, and a false hit that stays makes the fault unresolvable.
Model choices that clauses rest on: notes/assumptions/ 17, 26. -/
def Obligations.StringsAndPatterns : Prop :=
  (∀ s h w i, s.dev.issues h .scmp w → i < 128 →
    let x := (s.dev.hearth h).exu
    Row (.xScmp h w none) h w s i (x.valid w.a.toNat i && x.valid w.b.toNat i && cmpOp w.mod.toNat (some (cmpBytes (x.str w.a.toNat i) (x.str w.b.toNat i)))) []) ∧
  (∀ s h w i, s.dev.issues h .spre w → i < 128 →
    let x := (s.dev.hearth h).exu
    Row (.xSpre h w none) h w s i (x.valid w.a.toNat i && x.valid w.b.toNat i && (x.str w.b.toNat i).isPrefixOf (x.str w.a.toNat i)) []) ∧
  (∀ s h w i, s.dev.issues h .ssuf w → i < 128 →
    let x := (s.dev.hearth h).exu
    Row (.xSsuf h w none) h w s i (x.valid w.a.toNat i && x.valid w.b.toNat i && (x.str w.b.toNat i).isSuffixOf (x.str w.a.toNat i)) []) ∧
  (∀ s h w i, s.dev.issues h .sfind w → i < 128 →
    let x := (s.dev.hearth h).exu
    ∃ z : Int, Lane (.xSfind h w none) h w s .i32 i (if x.valid w.a.toNat i = true ∧ x.valid w.b.toNat i = true then .ok (XTy.i32.ofInt z) else {}) ∧
      ((z = -1 ∧ ∀ k, k ≤ (x.str w.a.toNat i).length → (x.str w.b.toNat i).isPrefixOf ((x.str w.a.toNat i).drop k) = false) ∨
       (0 ≤ z ∧ (x.str w.b.toNat i).isPrefixOf ((x.str w.a.toNat i).drop z.toNat) = true ∧
         ∀ k, k < z.toNat → (x.str w.b.toNat i).isPrefixOf ((x.str w.a.toNat i).drop k) = false))) ∧
  (∀ s h w i, s.dev.issues h .slen w → i < 128 →
    let x := (s.dev.hearth h).exu
    Lane (.xSlen h w none) h w s .i32 i (if x.valid w.a.toNat i = true then .ok (XTy.i32.ofInt (x.str w.a.toNat i).length) else {})) ∧
  (∀ s h w i, s.dev.issues h .strSsub w → i < 128 → (s.dev.hearth h).exu.heap.length < 2 ^ 63 →
    let x := (s.dev.hearth h).exu
    let all := x.valid w.a.toNat i && x.valid w.b.toNat i && x.valid w.c.toNat i
    let st := XTy.i32.toInt (x.lane .i32 w.b.toNat i)
    let n := XTy.i32.toInt (x.lane .i32 w.c.toNat i)
    LaneStr (.xStrSsub h w none) h w s i (if all = true ∧ 0 ≤ st ∧ 0 ≤ n then some (((x.str w.a.toNat i).drop st.toNat).take n.toNat) else none)
      (if all = true ∧ ¬ (0 ≤ st ∧ 0 ≤ n) then [0x0C] else [])) ∧
  (∀ s h w i, s.dev.issues h .rpm w → i < 128 →
    let x := (s.dev.hearth h).exu
    Row (.xRpm h w none) h w s i (x.valid w.a.toNat i && (runAutomaton (x.ctx.autos.getD w.imm.toNat {}) (x.str w.a.toNat i)).1.isSome) []) ∧
  (∀ s h w i, s.dev.issues h .rpx w → i < 128 → (s.dev.hearth h).exu.heap.length < 2 ^ 63 →
    let x := (s.dev.hearth h).exu
    LaneStr (.xRpx h w none) h w s i (if x.valid w.a.toNat i then
      (runAutomaton (x.ctx.autos.getD w.imm.toNat {}) (x.str w.a.toNat i)).1.map (fun m => ((x.str w.a.toNat i).drop m.1).take (m.2 - m.1)) else none) []) ∧
  (∀ s h w i, s.dev.issues h .cml w → i < 128 →
    (let x := (s.dev.hearth h).exu
     ∀ j, j < 128 → x.runs w j = true → x.valid w.a.toNat j = true →
      ∀ k ∈ x.cmt.winners w.imm.toNat (x.lane w.xty w.a.toNat j), falseHit (x.ctx.cares.getD w.imm.toNat {}) (x.lane w.xty w.a.toNat j) k = false) →
    let x := (s.dev.hearth h).exu
    Lane (.xCml h w none) h w s .u64 i (x.one w w.xty i (fun a =>
      .ok (careWord (x.ctx.cares.getD w.imm.toNat {}).miss (x.cmt.winners w.imm.toNat a))))) ∧
  (∀ s h w, s.dev.issues h .cml w → (cmlLanes (s.dev.hearth h).exu w ((s.dev.hearth h).exu.execMask w) 128).2.2.2 = true → s.dev.recovers 1 h = false →
    (recent s.dev.opSec (s.dev.hearth h).unresAt).length < 2 →
    Gives (.xCml h w none) s (fun d =>
      (d.hearth h).exu.unres = true ∧ (d.hearth h).exu.v = (s.dev.hearth h).exu.v ∧ (d.hearth h).exu.vld = (s.dev.hearth h).exu.vld ∧
      (d.hearth h).exu.err = (s.dev.hearth h).exu.err ∧ d.health.recovering = s.dev.health.recovering ++ [(1, h)] ∧
      d.regN (0x02100024 + 0x1000 * h) = satAdd 32 (s.dev.regN (0x02100024 + 0x1000 * h)) 1))


/-! ### The block as a whole -/

/-- A step takes the command at the front of the queue and runs it on the rest; a command leaves the queue alone; an empty queue idles
(notes/assumptions/6.md). -/
def Obligations.StepTakesFront : Prop :=
  (∀ s c r, s.pending = c :: r → step s = exec c { s with pending := r }) ∧
  (∀ s, s.pending = [] → step s = .next s) ∧
  (∀ c s s', exec c s = .next s' → s'.pending = s.pending) ∧
  (∀ c s, (∃ s', exec c s = .next s') ∨ (exec c s = .fault .staticFault ∧ ∃ e, c.exu = some e ∧ xWordOk e.1 e.2.2 = false))

/-- Every waiting command stays well formed whatever runs: a step adds none and changes none. -/
def Obligations.WaitingStayWellFormed : Prop :=
  ∀ s, (∀ c ∈ s.pending, c.wf = true) → ∀ s', step s = .next s' → (∀ c ∈ s'.pending, c.wf = true) ∧ s'.pending = s.pending.drop 1

/-- The block before power comes (R228, R254, R378, R394, R413, R467, R604): no command waits, every queue is disabled and empty, and the registers hold their
reset values; no unit runs a slice.
Model choices that clauses rest on: notes/assumptions/ 4, 11, 12. -/
def Obligations.ResetState : Prop :=
  State.reset.pending = [] ∧ State.reset.dev.out = [] ∧ State.reset.dev.timeUs = 0 ∧
  (∀ x q, State.reset.dev.qp x q = {} ∧ (State.reset.dev.qp x q).state = .disabled) ∧
  (∀ h, h < 36 → State.reset.dev.regN (0x02100000 + 0x1000 * h) = 0x64 ∧ State.reset.dev.wideIdleUs h = 100 ∧ State.reset.dev.narrowOnly h = false ∧
    State.reset.dev.reg64 (0x02100010 + 0x1000 * h) = 0 ∧ State.reset.dev.regN (0x02100200 + 0x1000 * h) = 0x14) ∧
  (∀ h, (State.reset.dev.hearth h).running = none ∧ (State.reset.dev.hearth h).exu.busy = false ∧ (State.reset.dev.hearth h).exu.wide = .off ∧
    (∀ r, (State.reset.dev.hearth h).exu.mGet r = 0) ∧ ∀ t b i, (State.reset.dev.hearth h).exu.lane t b i = 0) ∧
  State.reset.dev.regN 0x02400040 = 0 ∧ State.reset.dev.regN 0x02400050 = 0x10 ∧ State.reset.dev.regN 0x02500008 = 0x51E9 ∧
  State.reset.dev.regN 0x0250000C = 1000 ∧ State.reset.dev.regN 0x02900000 = 0x001401F4 ∧ State.reset.dev.regN 0x02C00010 = 0x6964 ∧
  State.reset.dev.regN 0x02D00038 = 1 ∧ State.reset.dev.regN 0x02E0000C = 3 ∧ State.reset.dev.regN 0x02F00100 = 0 ∧
  State.reset.dev.rx4.hearth = none ∧ State.reset.dev.store.commits = [] ∧ State.reset.dev.store.spaces = []

/-- An instruction word and its fields (Table 7.3, R233): every word of every operation, with every value of every field, decodes to what it encodes,
and a word that decodes is the one that its fields encode. -/
def Obligations.WordsEncodeAndDecode : Prop :=
  (∀ op w, xDecode (xEncode op w) = some (op, w)) ∧ (∀ x op w, xDecode x = some (op, w) → xEncode op w = x) ∧
  (∀ x, xDecode x = none ↔ (xClass (x.toNat / 2 ^ 60)).length ≤ x.toNat / 2 ^ 56 % 16)

/-- At reset, what every unit keeps by number (registers, tags, masks, scalars, records, scratch, the care-mask table) is in canonical form.
Model choices that clauses rest on: notes/assumptions/ 11. -/
def Obligations.UnitTablesAtReset : Prop :=
  ∀ h, (State.reset.dev.hearth h).exu.wf = true

/-- The invariant of the units' tables: where what a unit keeps by number (registers, tags, masks, scalars, records, scratch, the care-mask table) is in
canonical form, every instruction of the expression unit keeps it so, whether it retires or meets a fault; what the memory system does about a
translation fault, and what a quench does, stand aside. -/
def Obligations.UnitTables : Prop :=
  (∀ s (op : XOp) h w flt r, s.pending = op.cmd h w flt :: r → (∀ f, flt = some f → f.cause ≠ 1) → s.dev.recovers 1 h = false → (recent s.dev.opSec (s.dev.hearth h).unresAt).length < 2 →
    (∀ k, (s.dev.hearth k).exu.wf = true) → ∀ s', step s = .next s' → ∀ k, (s'.dev.hearth k).exu.wf = true)

/-- Results that are no number (R272, R275): a NaN that an operation of class FPU gives is the format's default NaN, and a signalling NaN operand raises
invalid; nothing but invalid is raised with it. -/
def Obligations.NanResults : Prop :=
  ∀ f ∈ [fmtF16, fmtBF16, fmtF32, fmtF64], ∀ md ftz sub x y z,
    (∀ r ∈ [f.add md ftz sub x y, f.mul md ftz x y, f.div md ftz x y, f.sqrt md ftz x, f.fma md ftz x y z],
      f.isNaN r.1 = true → r.1 = f.nanBits ∧ (r.2 = 0 ∨ r.2 = flInvalid)) ∧
    (f.decode (x % 2 ^ f.bits) = .nan true →
      ∀ r ∈ [f.add md ftz sub x y, f.mul md ftz x y, f.div md ftz x y, f.sqrt md ftz x, f.fma md ftz x y z], r = (f.nanBits, flInvalid)) ∧
    (f.decode (x % 2 ^ f.bits) = .nan false → f.isNaN y = false → f.isNaN z = false →
      ∀ r ∈ [f.add md ftz sub x y, f.mul md ftz x y, f.div md ftz x y, f.sqrt md ftz x, f.fma md ftz x y z], r = (f.nanBits, 0))
end

