-- ==== Sys2Proof/Laws/Tab.lean ====
section
/-!
SUPPORT. Sys2Proof/Laws/Tab.lean: sparse tables: a read after a write, and every operation keeps the canonical form.
-/
namespace Sys2Proof.Machine

variable {α : Type}

/-! ### Reads after writes -/

theorem tabGet_erase (d : α) (t : Tab α) (k j : Nat) : tabGet d (tabErase t k) j = if j = k then d else tabGet d t j := by
  induction t with
  | nil => simp [tabErase, tabGet]
  | cons p r ih =>
    obtain ⟨k', v⟩ := p
    by_cases h1 : k' = k
    · subst h1
      simp only [tabErase, if_true, ih, tabGet]
      by_cases h : j = k'
      · simp [h]
      · have h' : ¬ k' = j := fun e => h e.symm
        simp [h, h']
    · by_cases h2 : k' = j
      · subst h2; simp [tabErase, tabGet, h1]
      · simp [tabErase, tabGet, h1, h2, ih]

theorem tabGet_insert (d : α) (t : Tab α) (k j : Nat) (v : α) (h : ∀ p ∈ t, p.1 ≠ k) :
    tabGet d (tabInsert t k v) j = if j = k then v else tabGet d t j := by
  induction t with
  | nil => simp [tabInsert, tabGet, eq_comm]
  | cons p r ih =>
    obtain ⟨k', v'⟩ := p
    have hk : k' ≠ k := h (k', v') (by simp)
    have hr : ∀ p ∈ r, p.1 ≠ k := fun p hp => h p (by simp [hp])
    unfold tabInsert
    split
    · by_cases hj : j = k
      · subst hj; simp [tabGet]
      · have hj' : k ≠ j := fun e => hj e.symm
        simp [tabGet, hj, hj']
    · by_cases h2 : k' = j
      · subst h2; simp [tabGet, hk]
      · simp [tabGet, h2, ih hr]

theorem erase_keys (t : Tab α) (k : Nat) : ∀ p ∈ tabErase t k, p.1 ≠ k ∧ p ∈ t := by
  induction t with
  | nil => simp [tabErase]
  | cons q r ih =>
    obtain ⟨k', v⟩ := q
    intro p hp
    by_cases h1 : k' = k
    · simp only [tabErase, h1, if_true] at hp
      exact ⟨(ih p hp).1, List.mem_cons_of_mem _ (ih p hp).2⟩
    · simp only [tabErase, h1, if_false, List.mem_cons] at hp
      rcases hp with rfl | hp
      · exact ⟨h1, List.mem_cons_self⟩
      · exact ⟨(ih p hp).1, List.mem_cons_of_mem _ (ih p hp).2⟩

/-- A read after a write: the key written has the value, every other key what it had. -/
@[simp] theorem tabGet_set [DecidableEq α] (d : α) (t : Tab α) (k j : Nat) (v : α) :
    tabGet d (tabSet d t k v) j = if j = k then v else tabGet d t j := by
  unfold tabSet
  split
  · rename_i h; subst h; exact tabGet_erase _ t k j
  · rw [tabGet_insert _ _ _ _ _ (fun p hp => (erase_keys t k p hp).1), tabGet_erase]; split <;> rfl

/-- A write leaves what another key reads as alone, whatever an unlisted key reads as. -/
theorem tabGet_set_ne [DecidableEq α] (d e : α) (t : Tab α) (k j : Nat) (v : α) (h : j ≠ k) : tabGet e (tabSet d t k v) j = tabGet e t j := by
  unfold tabSet
  split
  · rw [tabGet_erase, if_neg h]
  · rw [tabGet_insert _ _ _ _ _ (fun p hp => (erase_keys t k p hp).1), if_neg h, tabGet_erase, if_neg h]

/-- A read after a change of one key. -/
@[simp] theorem tabGet_upd [DecidableEq α] (d : α) (t : Tab α) (k j : Nat) (f : α → α) :
    tabGet d (tabUpd d t k f) j = if j = k then f (tabGet d t k) else tabGet d t j := by
  simp [tabUpd]

/-! ### The canonical form -/

theorem erase_wf [DecidableEq α] (d : α) (t : Tab α) (k : Nat) (h : tabWf d t) : tabWf d (tabErase t k) := by
  induction t with
  | nil => simp [tabErase, tabWf]
  | cons p r ih =>
    obtain ⟨k', v⟩ := p
    simp only [tabWf, Bool.and_eq_true, List.all_eq_true, decide_eq_true_eq] at h
    unfold tabErase
    split
    · exact ih h.2
    · simp only [tabWf, Bool.and_eq_true, List.all_eq_true, decide_eq_true_eq]
      exact ⟨⟨h.1.1, fun q hq => h.1.2 q (erase_keys r k q hq).2⟩, ih h.2⟩

theorem insert_mem (t : Tab α) (k : Nat) (v : α) : ∀ p ∈ tabInsert t k v, p = (k, v) ∨ p ∈ t := by
  induction t with
  | nil => simp [tabInsert]
  | cons q r ih =>
    obtain ⟨k', v'⟩ := q
    intro p hp
    unfold tabInsert at hp
    split at hp
    · simpa using hp
    · rcases List.mem_cons.1 hp with rfl | hp
      · simp
      · rcases ih p hp with rfl | hp
        · simp
        · simp [hp]

theorem insert_wf [DecidableEq α] (d : α) (t : Tab α) (k : Nat) (v : α) (hv : v ≠ d) (h : tabWf d t) (hk : ∀ p ∈ t, p.1 ≠ k) :
    tabWf d (tabInsert t k v) := by
  induction t with
  | nil => simp [tabInsert, tabWf, hv]
  | cons p r ih =>
    obtain ⟨k', v'⟩ := p
    simp only [tabWf, Bool.and_eq_true, List.all_eq_true, decide_eq_true_eq] at h
    have hne : k' ≠ k := hk (k', v') (by simp)
    unfold tabInsert
    split
    · rename_i hlt
      simp only [tabWf, Bool.and_eq_true, List.all_eq_true, decide_eq_true_eq, List.mem_cons]
      refine ⟨⟨hv, ?_⟩, ⟨h.1.1, h.1.2⟩, h.2⟩
      rintro q (rfl | hq)
      · exact hlt
      · exact lt_trans hlt (h.1.2 q hq)
    · rename_i hlt
      simp only [tabWf, Bool.and_eq_true, List.all_eq_true, decide_eq_true_eq]
      refine ⟨⟨h.1.1, ?_⟩, ih h.2 (fun p hp => hk p (by simp [hp]))⟩
      intro q hq
      rcases insert_mem r k v q hq with rfl | hq
      · simp; omega
      · exact h.1.2 q hq

/-- A write keeps the canonical form. -/
theorem set_wf [DecidableEq α] (d : α) (t : Tab α) (k : Nat) (v : α) (h : tabWf d t) : tabWf d (tabSet d t k v) := by
  unfold tabSet
  split
  · exact erase_wf d t k h
  · rename_i hv; exact insert_wf d _ k v hv (erase_wf d t k h) (fun p hp => (erase_keys t k p hp).1)

theorem upd_wf [DecidableEq α] (d : α) (t : Tab α) (k : Nat) (f : α → α) (h : tabWf d t) : tabWf d (tabUpd d t k f) := set_wf d t k _ h

theorem setBytes_wf (t : Tab Byte) (k : Nat) (b : Bytes) (h : tabWf 0 t) : tabWf 0 (tabSetBytes t k b) := by
  induction b generalizing t k with
  | nil => exact h
  | cons x r ih => exact ih _ _ (set_wf 0 t k x h)

/-- A byte read after bytes have been written. -/
theorem tabGet_setBytes (t : Tab Byte) (k j : Nat) (b : Bytes) :
    tabGet 0 (tabSetBytes t k b) j = if k ≤ j ∧ j < k + b.length then b.getD (j - k) 0 else tabGet 0 t j := by
  induction b generalizing t k with
  | nil => simp only [tabSetBytes, List.length_nil]; rw [if_neg (by omega)]
  | cons x r ih =>
    rw [tabSetBytes, ih, tabGet_set]
    by_cases h1 : j = k
    · subst h1; simp
    · by_cases h2 : k + 1 ≤ j ∧ j < k + 1 + r.length
      · have h3 : k ≤ j ∧ j < k + (x :: r).length := by simp; omega
        rw [if_pos h2, if_pos h3]
        have : j - k = (j - (k + 1)) + 1 := by omega
        rw [this]; rfl
      · have h3 : ¬ (k ≤ j ∧ j < k + (x :: r).length) := by simp; omega
        rw [if_neg h2, if_neg h3, if_neg h1]

/-- Two tables in canonical form that read alike are the same table. -/
theorem tab_ext [DecidableEq α] (d : α) (t u : Tab α) (ht : tabWf d t) (hu : tabWf d u) (h : ∀ k, tabGet d t k = tabGet d u k) : t = u := by
  induction t generalizing u with
  | nil =>
    cases u with
    | nil => rfl
    | cons p r =>
      obtain ⟨k, v⟩ := p
      have := h k
      simp only [tabWf, Bool.and_eq_true, decide_eq_true_eq] at hu
      simp [tabGet] at this; exact absurd this.symm hu.1.1
  | cons p r ih =>
    obtain ⟨k, v⟩ := p
    have below : ∀ (s : Tab α) (j : Nat), (∀ q ∈ s, j < q.1) → tabGet d s j = d := by
      intro s j hs
      induction s with
      | nil => rfl
      | cons q s ihs =>
        obtain ⟨k2, v2⟩ := q
        have := hs (k2, v2) (by simp)
        have hne : k2 ≠ j := by simp at this; omega
        simp [tabGet, hne]; exact ihs (fun q hq => hs q (by simp [hq]))
    simp only [tabWf, Bool.and_eq_true, List.all_eq_true, decide_eq_true_eq] at ht
    cases u with
    | nil => have := h k; simp [tabGet] at this; exact absurd this ht.1.1
    | cons q s =>
      obtain ⟨k2, v2⟩ := q
      simp only [tabWf, Bool.and_eq_true, List.all_eq_true, decide_eq_true_eq] at hu
      have e1 : k = k2 := by
        rcases Nat.lt_trichotomy k k2 with hlt | he | hlt
        · have := h k
          have hne : k2 ≠ k := by omega
          simp [tabGet, hne] at this
          rw [below s k (fun q hq => lt_trans hlt (hu.1.2 q hq))] at this
          exact absurd this ht.1.1
        · exact he
        · have := h k2
          have hne : k ≠ k2 := by omega
          simp [tabGet, hne] at this
          rw [below r k2 (fun q hq => lt_trans hlt (ht.1.2 q hq))] at this
          exact absurd this.symm hu.1.1
      subst e1
      have e2 : v = v2 := by have := h k; simpa [tabGet] using this
      subst e2
      congr 1
      apply ih _ ht.2 hu.2
      intro j
      by_cases hj : k = j
      · subst hj; rw [below r k ht.1.2, below s k hu.1.2]
      · have := h j; simpa [tabGet, hj] using this

end Sys2Proof.Machine
end

