-- ==== Sys2Proof/Laws/State.lean ====
section
/-!
SUPPORT. Sys2Proof/Laws/State.lean: what each update of the state does to each part of it, true by unfolding, and reads after updates.
-/
namespace Sys2Proof.Machine

@[simp] theorem State.run_pending (s : State) (t : Nat) (f : Dev → Dev) : (s.run t f).pending = s.pending := (rfl)
@[simp] theorem State.run_dev (s : State) (t : Nat) (f : Dev → Dev) : (s.run t f).dev = f (s.dev.at t) := (rfl)

@[simp] theorem Dev.at_timeUs (d : Dev) (t : Nat) : (d.at t).timeUs = max d.timeUs t := (rfl)
@[simp] theorem Dev.at_freeCtr (d : Dev) (t : Nat) : (d.at t).freeCtr = d.freeCtr := (rfl)
@[simp] theorem Dev.at_out (d : Dev) (t : Nat) : (d.at t).out = d.out := (rfl)
@[simp] theorem Dev.at_regs (d : Dev) (t : Nat) : (d.at t).regs = d.regs := (rfl)
@[simp] theorem Dev.at_cwCount (d : Dev) (t : Nat) : (d.at t).cwCount = d.cwCount := (rfl)
@[simp] theorem Dev.at_cwFailed (d : Dev) (t : Nat) : (d.at t).cwFailed = d.cwFailed := (rfl)
@[simp] theorem Dev.at_host (d : Dev) (t : Nat) : (d.at t).host = d.host := (rfl)
@[simp] theorem Dev.at_store (d : Dev) (t : Nat) : (d.at t).store = d.store := (rfl)
@[simp] theorem Dev.at_qry (d : Dev) (t : Nat) : (d.at t).qry = d.qry := (rfl)
@[simp] theorem Dev.at_fn (d : Dev) (t : Nat) : (d.at t).fn = d.fn := (rfl)
@[simp] theorem Dev.at_fab (d : Dev) (t : Nat) : (d.at t).fab = d.fab := (rfl)
@[simp] theorem Dev.at_twin (d : Dev) (t : Nat) : (d.at t).twin = d.twin := (rfl)
@[simp] theorem Dev.at_mail (d : Dev) (t : Nat) : (d.at t).mail = d.mail := (rfl)
@[simp] theorem Dev.at_mem (d : Dev) (t : Nat) : (d.at t).mem = d.mem := (rfl)
@[simp] theorem Dev.at_health (d : Dev) (t : Nat) : (d.at t).health = d.health := (rfl)
@[simp] theorem Dev.at_rcd (d : Dev) (t : Nat) : (d.at t).rcd = d.rcd := (rfl)
@[simp] theorem Dev.at_pwr (d : Dev) (t : Nat) : (d.at t).pwr = d.pwr := (rfl)
@[simp] theorem Dev.at_start (d : Dev) (t : Nat) : (d.at t).start = d.start := (rfl)
@[simp] theorem Dev.at_sec (d : Dev) (t : Nat) : (d.at t).sec = d.sec := (rfl)
@[simp] theorem Dev.at_rx4 (d : Dev) (t : Nat) : (d.at t).rx4 = d.rx4 := (rfl)
@[simp] theorem Dev.at_pins (d : Dev) (t : Nat) : (d.at t).pins = d.pins := (rfl)
@[simp] theorem Dev.at_tally (d : Dev) (t : Nat) : (d.at t).tally = d.tally := (rfl)
@[simp] theorem Dev.at_opSec (d : Dev) (t : Nat) : (d.at t).opSec = d.opSec := (rfl)
@[simp] theorem Dev.at_cycles (d : Dev) (t : Nat) : (d.at t).cycles = d.cycles := (rfl)

@[simp] theorem Dev.setReg_timeUs (d : Dev) (a : Nat) (w : Word) : (d.setReg a w).timeUs = d.timeUs := (rfl)
@[simp] theorem Dev.setReg_freeCtr (d : Dev) (a : Nat) (w : Word) : (d.setReg a w).freeCtr = d.freeCtr := (rfl)
@[simp] theorem Dev.setReg_out (d : Dev) (a : Nat) (w : Word) : (d.setReg a w).out = d.out := (rfl)
@[simp] theorem Dev.setReg_regs (d : Dev) (a : Nat) (w : Word) : (d.setReg a w).regs = tabSet (regReset a) d.regs a w := (rfl)
@[simp] theorem Dev.setReg_cwCount (d : Dev) (a : Nat) (w : Word) : (d.setReg a w).cwCount = d.cwCount := (rfl)
@[simp] theorem Dev.setReg_cwFailed (d : Dev) (a : Nat) (w : Word) : (d.setReg a w).cwFailed = d.cwFailed := (rfl)
@[simp] theorem Dev.setReg_host (d : Dev) (a : Nat) (w : Word) : (d.setReg a w).host = d.host := (rfl)
@[simp] theorem Dev.setReg_store (d : Dev) (a : Nat) (w : Word) : (d.setReg a w).store = d.store := (rfl)
@[simp] theorem Dev.setReg_qry (d : Dev) (a : Nat) (w : Word) : (d.setReg a w).qry = d.qry := (rfl)
@[simp] theorem Dev.setReg_fn (d : Dev) (a : Nat) (w : Word) : (d.setReg a w).fn = d.fn := (rfl)
@[simp] theorem Dev.setReg_fab (d : Dev) (a : Nat) (w : Word) : (d.setReg a w).fab = d.fab := (rfl)
@[simp] theorem Dev.setReg_twin (d : Dev) (a : Nat) (w : Word) : (d.setReg a w).twin = d.twin := (rfl)
@[simp] theorem Dev.setReg_mail (d : Dev) (a : Nat) (w : Word) : (d.setReg a w).mail = d.mail := (rfl)
@[simp] theorem Dev.setReg_mem (d : Dev) (a : Nat) (w : Word) : (d.setReg a w).mem = d.mem := (rfl)
@[simp] theorem Dev.setReg_health (d : Dev) (a : Nat) (w : Word) : (d.setReg a w).health = d.health := (rfl)
@[simp] theorem Dev.setReg_rcd (d : Dev) (a : Nat) (w : Word) : (d.setReg a w).rcd = d.rcd := (rfl)
@[simp] theorem Dev.setReg_pwr (d : Dev) (a : Nat) (w : Word) : (d.setReg a w).pwr = d.pwr := (rfl)
@[simp] theorem Dev.setReg_start (d : Dev) (a : Nat) (w : Word) : (d.setReg a w).start = d.start := (rfl)
@[simp] theorem Dev.setReg_sec (d : Dev) (a : Nat) (w : Word) : (d.setReg a w).sec = d.sec := (rfl)
@[simp] theorem Dev.setReg_rx4 (d : Dev) (a : Nat) (w : Word) : (d.setReg a w).rx4 = d.rx4 := (rfl)
@[simp] theorem Dev.setReg_pins (d : Dev) (a : Nat) (w : Word) : (d.setReg a w).pins = d.pins := (rfl)
@[simp] theorem Dev.setReg_tally (d : Dev) (a : Nat) (w : Word) : (d.setReg a w).tally = d.tally := (rfl)
@[simp] theorem Dev.setReg_opSec (d : Dev) (a : Nat) (w : Word) : (d.setReg a w).opSec = d.opSec := (rfl)
@[simp] theorem Dev.setReg_cycles (d : Dev) (a : Nat) (w : Word) : (d.setReg a w).cycles = d.cycles := (rfl)

@[simp] theorem Dev.send_timeUs (d : Dev) (o : Out) : (d.send o).timeUs = d.timeUs := (rfl)
@[simp] theorem Dev.send_freeCtr (d : Dev) (o : Out) : (d.send o).freeCtr = d.freeCtr := (rfl)
@[simp] theorem Dev.send_out (d : Dev) (o : Out) : (d.send o).out = d.out ++ [o] := (rfl)
@[simp] theorem Dev.send_regs (d : Dev) (o : Out) : (d.send o).regs = d.regs := (rfl)
@[simp] theorem Dev.send_cwCount (d : Dev) (o : Out) : (d.send o).cwCount = d.cwCount := (rfl)
@[simp] theorem Dev.send_cwFailed (d : Dev) (o : Out) : (d.send o).cwFailed = d.cwFailed := (rfl)
@[simp] theorem Dev.send_host (d : Dev) (o : Out) : (d.send o).host = d.host := (rfl)
@[simp] theorem Dev.send_store (d : Dev) (o : Out) : (d.send o).store = d.store := (rfl)
@[simp] theorem Dev.send_qry (d : Dev) (o : Out) : (d.send o).qry = d.qry := (rfl)
@[simp] theorem Dev.send_fn (d : Dev) (o : Out) : (d.send o).fn = d.fn := (rfl)
@[simp] theorem Dev.send_fab (d : Dev) (o : Out) : (d.send o).fab = d.fab := (rfl)
@[simp] theorem Dev.send_twin (d : Dev) (o : Out) : (d.send o).twin = d.twin := (rfl)
@[simp] theorem Dev.send_mail (d : Dev) (o : Out) : (d.send o).mail = d.mail := (rfl)
@[simp] theorem Dev.send_mem (d : Dev) (o : Out) : (d.send o).mem = d.mem := (rfl)
@[simp] theorem Dev.send_health (d : Dev) (o : Out) : (d.send o).health = d.health := (rfl)
@[simp] theorem Dev.send_rcd (d : Dev) (o : Out) : (d.send o).rcd = d.rcd := (rfl)
@[simp] theorem Dev.send_pwr (d : Dev) (o : Out) : (d.send o).pwr = d.pwr := (rfl)
@[simp] theorem Dev.send_start (d : Dev) (o : Out) : (d.send o).start = d.start := (rfl)
@[simp] theorem Dev.send_sec (d : Dev) (o : Out) : (d.send o).sec = d.sec := (rfl)
@[simp] theorem Dev.send_rx4 (d : Dev) (o : Out) : (d.send o).rx4 = d.rx4 := (rfl)
@[simp] theorem Dev.send_pins (d : Dev) (o : Out) : (d.send o).pins = d.pins := (rfl)
@[simp] theorem Dev.send_tally (d : Dev) (o : Out) : (d.send o).tally = d.tally := (rfl)
@[simp] theorem Dev.send_opSec (d : Dev) (o : Out) : (d.send o).opSec = d.opSec := (rfl)
@[simp] theorem Dev.send_cycles (d : Dev) (o : Out) : (d.send o).cycles = d.cycles := (rfl)

@[simp] theorem Dev.fnUpd_timeUs (d : Dev) (x : Nat) (f : Fn → Fn) : (d.fnUpd x f).timeUs = d.timeUs := (rfl)
@[simp] theorem Dev.fnUpd_freeCtr (d : Dev) (x : Nat) (f : Fn → Fn) : (d.fnUpd x f).freeCtr = d.freeCtr := (rfl)
@[simp] theorem Dev.fnUpd_out (d : Dev) (x : Nat) (f : Fn → Fn) : (d.fnUpd x f).out = d.out := (rfl)
@[simp] theorem Dev.fnUpd_regs (d : Dev) (x : Nat) (f : Fn → Fn) : (d.fnUpd x f).regs = d.regs := (rfl)
@[simp] theorem Dev.fnUpd_cwCount (d : Dev) (x : Nat) (f : Fn → Fn) : (d.fnUpd x f).cwCount = d.cwCount := (rfl)
@[simp] theorem Dev.fnUpd_cwFailed (d : Dev) (x : Nat) (f : Fn → Fn) : (d.fnUpd x f).cwFailed = d.cwFailed := (rfl)
@[simp] theorem Dev.fnUpd_store (d : Dev) (x : Nat) (f : Fn → Fn) : (d.fnUpd x f).store = d.store := (rfl)
@[simp] theorem Dev.fnUpd_qry (d : Dev) (x : Nat) (f : Fn → Fn) : (d.fnUpd x f).qry = d.qry := (rfl)
@[simp] theorem Dev.fnUpd_fn (d : Dev) (x : Nat) (f : Fn → Fn) : (d.fnUpd x f).fn = d.fn := (rfl)
@[simp] theorem Dev.fnUpd_fab (d : Dev) (x : Nat) (f : Fn → Fn) : (d.fnUpd x f).fab = d.fab := (rfl)
@[simp] theorem Dev.fnUpd_twin (d : Dev) (x : Nat) (f : Fn → Fn) : (d.fnUpd x f).twin = d.twin := (rfl)
@[simp] theorem Dev.fnUpd_mail (d : Dev) (x : Nat) (f : Fn → Fn) : (d.fnUpd x f).mail = d.mail := (rfl)
@[simp] theorem Dev.fnUpd_mem (d : Dev) (x : Nat) (f : Fn → Fn) : (d.fnUpd x f).mem = d.mem := (rfl)
@[simp] theorem Dev.fnUpd_health (d : Dev) (x : Nat) (f : Fn → Fn) : (d.fnUpd x f).health = d.health := (rfl)
@[simp] theorem Dev.fnUpd_rcd (d : Dev) (x : Nat) (f : Fn → Fn) : (d.fnUpd x f).rcd = d.rcd := (rfl)
@[simp] theorem Dev.fnUpd_pwr (d : Dev) (x : Nat) (f : Fn → Fn) : (d.fnUpd x f).pwr = d.pwr := (rfl)
@[simp] theorem Dev.fnUpd_start (d : Dev) (x : Nat) (f : Fn → Fn) : (d.fnUpd x f).start = d.start := (rfl)
@[simp] theorem Dev.fnUpd_sec (d : Dev) (x : Nat) (f : Fn → Fn) : (d.fnUpd x f).sec = d.sec := (rfl)
@[simp] theorem Dev.fnUpd_rx4 (d : Dev) (x : Nat) (f : Fn → Fn) : (d.fnUpd x f).rx4 = d.rx4 := (rfl)
@[simp] theorem Dev.fnUpd_pins (d : Dev) (x : Nat) (f : Fn → Fn) : (d.fnUpd x f).pins = d.pins := (rfl)
@[simp] theorem Dev.fnUpd_tally (d : Dev) (x : Nat) (f : Fn → Fn) : (d.fnUpd x f).tally = d.tally := (rfl)
@[simp] theorem Dev.fnUpd_opSec (d : Dev) (x : Nat) (f : Fn → Fn) : (d.fnUpd x f).opSec = d.opSec := (rfl)
@[simp] theorem Dev.fnUpd_cycles (d : Dev) (x : Nat) (f : Fn → Fn) : (d.fnUpd x f).cycles = d.cycles := (rfl)

@[simp] theorem Dev.qpUpd_timeUs (d : Dev) (x q : Nat) (f : Qp → Qp) : (d.qpUpd x q f).timeUs = d.timeUs := (rfl)
@[simp] theorem Dev.qpUpd_freeCtr (d : Dev) (x q : Nat) (f : Qp → Qp) : (d.qpUpd x q f).freeCtr = d.freeCtr := (rfl)
@[simp] theorem Dev.qpUpd_out (d : Dev) (x q : Nat) (f : Qp → Qp) : (d.qpUpd x q f).out = d.out := (rfl)
@[simp] theorem Dev.qpUpd_regs (d : Dev) (x q : Nat) (f : Qp → Qp) : (d.qpUpd x q f).regs = d.regs := (rfl)
@[simp] theorem Dev.qpUpd_cwCount (d : Dev) (x q : Nat) (f : Qp → Qp) : (d.qpUpd x q f).cwCount = d.cwCount := (rfl)
@[simp] theorem Dev.qpUpd_cwFailed (d : Dev) (x q : Nat) (f : Qp → Qp) : (d.qpUpd x q f).cwFailed = d.cwFailed := (rfl)
@[simp] theorem Dev.qpUpd_store (d : Dev) (x q : Nat) (f : Qp → Qp) : (d.qpUpd x q f).store = d.store := (rfl)
@[simp] theorem Dev.qpUpd_qry (d : Dev) (x q : Nat) (f : Qp → Qp) : (d.qpUpd x q f).qry = d.qry := (rfl)
@[simp] theorem Dev.qpUpd_fn (d : Dev) (x q : Nat) (f : Qp → Qp) : (d.qpUpd x q f).fn = d.fn := (rfl)
@[simp] theorem Dev.qpUpd_fab (d : Dev) (x q : Nat) (f : Qp → Qp) : (d.qpUpd x q f).fab = d.fab := (rfl)
@[simp] theorem Dev.qpUpd_twin (d : Dev) (x q : Nat) (f : Qp → Qp) : (d.qpUpd x q f).twin = d.twin := (rfl)
@[simp] theorem Dev.qpUpd_mail (d : Dev) (x q : Nat) (f : Qp → Qp) : (d.qpUpd x q f).mail = d.mail := (rfl)
@[simp] theorem Dev.qpUpd_mem (d : Dev) (x q : Nat) (f : Qp → Qp) : (d.qpUpd x q f).mem = d.mem := (rfl)
@[simp] theorem Dev.qpUpd_health (d : Dev) (x q : Nat) (f : Qp → Qp) : (d.qpUpd x q f).health = d.health := (rfl)
@[simp] theorem Dev.qpUpd_rcd (d : Dev) (x q : Nat) (f : Qp → Qp) : (d.qpUpd x q f).rcd = d.rcd := (rfl)
@[simp] theorem Dev.qpUpd_pwr (d : Dev) (x q : Nat) (f : Qp → Qp) : (d.qpUpd x q f).pwr = d.pwr := (rfl)
@[simp] theorem Dev.qpUpd_start (d : Dev) (x q : Nat) (f : Qp → Qp) : (d.qpUpd x q f).start = d.start := (rfl)
@[simp] theorem Dev.qpUpd_sec (d : Dev) (x q : Nat) (f : Qp → Qp) : (d.qpUpd x q f).sec = d.sec := (rfl)
@[simp] theorem Dev.qpUpd_rx4 (d : Dev) (x q : Nat) (f : Qp → Qp) : (d.qpUpd x q f).rx4 = d.rx4 := (rfl)
@[simp] theorem Dev.qpUpd_pins (d : Dev) (x q : Nat) (f : Qp → Qp) : (d.qpUpd x q f).pins = d.pins := (rfl)
@[simp] theorem Dev.qpUpd_tally (d : Dev) (x q : Nat) (f : Qp → Qp) : (d.qpUpd x q f).tally = d.tally := (rfl)
@[simp] theorem Dev.qpUpd_opSec (d : Dev) (x q : Nat) (f : Qp → Qp) : (d.qpUpd x q f).opSec = d.opSec := (rfl)
@[simp] theorem Dev.qpUpd_cycles (d : Dev) (x q : Nat) (f : Qp → Qp) : (d.qpUpd x q f).cycles = d.cycles := (rfl)

@[simp] theorem Dev.hearthUpd_timeUs (d : Dev) (h : Nat) (f : Hearth → Hearth) : (d.hearthUpd h f).timeUs = d.timeUs := (rfl)
@[simp] theorem Dev.hearthUpd_freeCtr (d : Dev) (h : Nat) (f : Hearth → Hearth) : (d.hearthUpd h f).freeCtr = d.freeCtr := (rfl)
@[simp] theorem Dev.hearthUpd_out (d : Dev) (h : Nat) (f : Hearth → Hearth) : (d.hearthUpd h f).out = d.out := (rfl)
@[simp] theorem Dev.hearthUpd_regs (d : Dev) (h : Nat) (f : Hearth → Hearth) : (d.hearthUpd h f).regs = d.regs := (rfl)
@[simp] theorem Dev.hearthUpd_cwCount (d : Dev) (h : Nat) (f : Hearth → Hearth) : (d.hearthUpd h f).cwCount = d.cwCount := (rfl)
@[simp] theorem Dev.hearthUpd_cwFailed (d : Dev) (h : Nat) (f : Hearth → Hearth) : (d.hearthUpd h f).cwFailed = d.cwFailed := (rfl)
@[simp] theorem Dev.hearthUpd_host (d : Dev) (h : Nat) (f : Hearth → Hearth) : (d.hearthUpd h f).host = d.host := (rfl)
@[simp] theorem Dev.hearthUpd_store (d : Dev) (h : Nat) (f : Hearth → Hearth) : (d.hearthUpd h f).store = d.store := (rfl)
@[simp] theorem Dev.hearthUpd_fn (d : Dev) (h : Nat) (f : Hearth → Hearth) : (d.hearthUpd h f).fn = d.fn := (rfl)
@[simp] theorem Dev.hearthUpd_fab (d : Dev) (h : Nat) (f : Hearth → Hearth) : (d.hearthUpd h f).fab = d.fab := (rfl)
@[simp] theorem Dev.hearthUpd_twin (d : Dev) (h : Nat) (f : Hearth → Hearth) : (d.hearthUpd h f).twin = d.twin := (rfl)
@[simp] theorem Dev.hearthUpd_mail (d : Dev) (h : Nat) (f : Hearth → Hearth) : (d.hearthUpd h f).mail = d.mail := (rfl)
@[simp] theorem Dev.hearthUpd_mem (d : Dev) (h : Nat) (f : Hearth → Hearth) : (d.hearthUpd h f).mem = d.mem := (rfl)
@[simp] theorem Dev.hearthUpd_health (d : Dev) (h : Nat) (f : Hearth → Hearth) : (d.hearthUpd h f).health = d.health := (rfl)
@[simp] theorem Dev.hearthUpd_rcd (d : Dev) (h : Nat) (f : Hearth → Hearth) : (d.hearthUpd h f).rcd = d.rcd := (rfl)
@[simp] theorem Dev.hearthUpd_pwr (d : Dev) (h : Nat) (f : Hearth → Hearth) : (d.hearthUpd h f).pwr = d.pwr := (rfl)
@[simp] theorem Dev.hearthUpd_start (d : Dev) (h : Nat) (f : Hearth → Hearth) : (d.hearthUpd h f).start = d.start := (rfl)
@[simp] theorem Dev.hearthUpd_sec (d : Dev) (h : Nat) (f : Hearth → Hearth) : (d.hearthUpd h f).sec = d.sec := (rfl)
@[simp] theorem Dev.hearthUpd_rx4 (d : Dev) (h : Nat) (f : Hearth → Hearth) : (d.hearthUpd h f).rx4 = d.rx4 := (rfl)
@[simp] theorem Dev.hearthUpd_pins (d : Dev) (h : Nat) (f : Hearth → Hearth) : (d.hearthUpd h f).pins = d.pins := (rfl)
@[simp] theorem Dev.hearthUpd_tally (d : Dev) (h : Nat) (f : Hearth → Hearth) : (d.hearthUpd h f).tally = d.tally := (rfl)
@[simp] theorem Dev.hearthUpd_opSec (d : Dev) (h : Nat) (f : Hearth → Hearth) : (d.hearthUpd h f).opSec = d.opSec := (rfl)
@[simp] theorem Dev.hearthUpd_cycles (d : Dev) (h : Nat) (f : Hearth → Hearth) : (d.hearthUpd h f).cycles = d.cycles := (rfl)

@[simp] theorem Dev.queryUpd_timeUs (d : Dev) (id : Nat) (f : Query → Query) : (d.queryUpd id f).timeUs = d.timeUs := (rfl)
@[simp] theorem Dev.queryUpd_freeCtr (d : Dev) (id : Nat) (f : Query → Query) : (d.queryUpd id f).freeCtr = d.freeCtr := (rfl)
@[simp] theorem Dev.queryUpd_out (d : Dev) (id : Nat) (f : Query → Query) : (d.queryUpd id f).out = d.out := (rfl)
@[simp] theorem Dev.queryUpd_regs (d : Dev) (id : Nat) (f : Query → Query) : (d.queryUpd id f).regs = d.regs := (rfl)
@[simp] theorem Dev.queryUpd_cwCount (d : Dev) (id : Nat) (f : Query → Query) : (d.queryUpd id f).cwCount = d.cwCount := (rfl)
@[simp] theorem Dev.queryUpd_cwFailed (d : Dev) (id : Nat) (f : Query → Query) : (d.queryUpd id f).cwFailed = d.cwFailed := (rfl)
@[simp] theorem Dev.queryUpd_host (d : Dev) (id : Nat) (f : Query → Query) : (d.queryUpd id f).host = d.host := (rfl)
@[simp] theorem Dev.queryUpd_store (d : Dev) (id : Nat) (f : Query → Query) : (d.queryUpd id f).store = d.store := (rfl)
@[simp] theorem Dev.queryUpd_fn (d : Dev) (id : Nat) (f : Query → Query) : (d.queryUpd id f).fn = d.fn := (rfl)
@[simp] theorem Dev.queryUpd_fab (d : Dev) (id : Nat) (f : Query → Query) : (d.queryUpd id f).fab = d.fab := (rfl)
@[simp] theorem Dev.queryUpd_twin (d : Dev) (id : Nat) (f : Query → Query) : (d.queryUpd id f).twin = d.twin := (rfl)
@[simp] theorem Dev.queryUpd_mail (d : Dev) (id : Nat) (f : Query → Query) : (d.queryUpd id f).mail = d.mail := (rfl)
@[simp] theorem Dev.queryUpd_mem (d : Dev) (id : Nat) (f : Query → Query) : (d.queryUpd id f).mem = d.mem := (rfl)
@[simp] theorem Dev.queryUpd_health (d : Dev) (id : Nat) (f : Query → Query) : (d.queryUpd id f).health = d.health := (rfl)
@[simp] theorem Dev.queryUpd_rcd (d : Dev) (id : Nat) (f : Query → Query) : (d.queryUpd id f).rcd = d.rcd := (rfl)
@[simp] theorem Dev.queryUpd_pwr (d : Dev) (id : Nat) (f : Query → Query) : (d.queryUpd id f).pwr = d.pwr := (rfl)
@[simp] theorem Dev.queryUpd_start (d : Dev) (id : Nat) (f : Query → Query) : (d.queryUpd id f).start = d.start := (rfl)
@[simp] theorem Dev.queryUpd_sec (d : Dev) (id : Nat) (f : Query → Query) : (d.queryUpd id f).sec = d.sec := (rfl)
@[simp] theorem Dev.queryUpd_rx4 (d : Dev) (id : Nat) (f : Query → Query) : (d.queryUpd id f).rx4 = d.rx4 := (rfl)
@[simp] theorem Dev.queryUpd_pins (d : Dev) (id : Nat) (f : Query → Query) : (d.queryUpd id f).pins = d.pins := (rfl)
@[simp] theorem Dev.queryUpd_tally (d : Dev) (id : Nat) (f : Query → Query) : (d.queryUpd id f).tally = d.tally := (rfl)
@[simp] theorem Dev.queryUpd_opSec (d : Dev) (id : Nat) (f : Query → Query) : (d.queryUpd id f).opSec = d.opSec := (rfl)
@[simp] theorem Dev.queryUpd_cycles (d : Dev) (id : Nat) (f : Query → Query) : (d.queryUpd id f).cycles = d.cycles := (rfl)

@[simp] theorem Dev.mboxUpd_timeUs (d : Dev) (x : Nat) (f : Mbox → Mbox) : (d.mboxUpd x f).timeUs = d.timeUs := (rfl)
@[simp] theorem Dev.mboxUpd_freeCtr (d : Dev) (x : Nat) (f : Mbox → Mbox) : (d.mboxUpd x f).freeCtr = d.freeCtr := (rfl)
@[simp] theorem Dev.mboxUpd_out (d : Dev) (x : Nat) (f : Mbox → Mbox) : (d.mboxUpd x f).out = d.out := (rfl)
@[simp] theorem Dev.mboxUpd_regs (d : Dev) (x : Nat) (f : Mbox → Mbox) : (d.mboxUpd x f).regs = d.regs := (rfl)
@[simp] theorem Dev.mboxUpd_cwCount (d : Dev) (x : Nat) (f : Mbox → Mbox) : (d.mboxUpd x f).cwCount = d.cwCount := (rfl)
@[simp] theorem Dev.mboxUpd_cwFailed (d : Dev) (x : Nat) (f : Mbox → Mbox) : (d.mboxUpd x f).cwFailed = d.cwFailed := (rfl)
@[simp] theorem Dev.mboxUpd_host (d : Dev) (x : Nat) (f : Mbox → Mbox) : (d.mboxUpd x f).host = d.host := (rfl)
@[simp] theorem Dev.mboxUpd_store (d : Dev) (x : Nat) (f : Mbox → Mbox) : (d.mboxUpd x f).store = d.store := (rfl)
@[simp] theorem Dev.mboxUpd_qry (d : Dev) (x : Nat) (f : Mbox → Mbox) : (d.mboxUpd x f).qry = d.qry := (rfl)
@[simp] theorem Dev.mboxUpd_fn (d : Dev) (x : Nat) (f : Mbox → Mbox) : (d.mboxUpd x f).fn = d.fn := (rfl)
@[simp] theorem Dev.mboxUpd_fab (d : Dev) (x : Nat) (f : Mbox → Mbox) : (d.mboxUpd x f).fab = d.fab := (rfl)
@[simp] theorem Dev.mboxUpd_twin (d : Dev) (x : Nat) (f : Mbox → Mbox) : (d.mboxUpd x f).twin = d.twin := (rfl)
@[simp] theorem Dev.mboxUpd_mem (d : Dev) (x : Nat) (f : Mbox → Mbox) : (d.mboxUpd x f).mem = d.mem := (rfl)
@[simp] theorem Dev.mboxUpd_health (d : Dev) (x : Nat) (f : Mbox → Mbox) : (d.mboxUpd x f).health = d.health := (rfl)
@[simp] theorem Dev.mboxUpd_rcd (d : Dev) (x : Nat) (f : Mbox → Mbox) : (d.mboxUpd x f).rcd = d.rcd := (rfl)
@[simp] theorem Dev.mboxUpd_pwr (d : Dev) (x : Nat) (f : Mbox → Mbox) : (d.mboxUpd x f).pwr = d.pwr := (rfl)
@[simp] theorem Dev.mboxUpd_start (d : Dev) (x : Nat) (f : Mbox → Mbox) : (d.mboxUpd x f).start = d.start := (rfl)
@[simp] theorem Dev.mboxUpd_sec (d : Dev) (x : Nat) (f : Mbox → Mbox) : (d.mboxUpd x f).sec = d.sec := (rfl)
@[simp] theorem Dev.mboxUpd_rx4 (d : Dev) (x : Nat) (f : Mbox → Mbox) : (d.mboxUpd x f).rx4 = d.rx4 := (rfl)
@[simp] theorem Dev.mboxUpd_pins (d : Dev) (x : Nat) (f : Mbox → Mbox) : (d.mboxUpd x f).pins = d.pins := (rfl)
@[simp] theorem Dev.mboxUpd_tally (d : Dev) (x : Nat) (f : Mbox → Mbox) : (d.mboxUpd x f).tally = d.tally := (rfl)
@[simp] theorem Dev.mboxUpd_opSec (d : Dev) (x : Nat) (f : Mbox → Mbox) : (d.mboxUpd x f).opSec = d.opSec := (rfl)
@[simp] theorem Dev.mboxUpd_cycles (d : Dev) (x : Nat) (f : Mbox → Mbox) : (d.mboxUpd x f).cycles = d.cycles := (rfl)

@[simp] theorem Dev.linkUpd_timeUs (d : Dev) (port : Nat) (f : HLink → HLink) : (d.linkUpd port f).timeUs = d.timeUs := (rfl)
@[simp] theorem Dev.linkUpd_freeCtr (d : Dev) (port : Nat) (f : HLink → HLink) : (d.linkUpd port f).freeCtr = d.freeCtr := (rfl)
@[simp] theorem Dev.linkUpd_out (d : Dev) (port : Nat) (f : HLink → HLink) : (d.linkUpd port f).out = d.out := (rfl)
@[simp] theorem Dev.linkUpd_regs (d : Dev) (port : Nat) (f : HLink → HLink) : (d.linkUpd port f).regs = d.regs := (rfl)
@[simp] theorem Dev.linkUpd_cwCount (d : Dev) (port : Nat) (f : HLink → HLink) : (d.linkUpd port f).cwCount = d.cwCount := (rfl)
@[simp] theorem Dev.linkUpd_cwFailed (d : Dev) (port : Nat) (f : HLink → HLink) : (d.linkUpd port f).cwFailed = d.cwFailed := (rfl)
@[simp] theorem Dev.linkUpd_store (d : Dev) (port : Nat) (f : HLink → HLink) : (d.linkUpd port f).store = d.store := (rfl)
@[simp] theorem Dev.linkUpd_qry (d : Dev) (port : Nat) (f : HLink → HLink) : (d.linkUpd port f).qry = d.qry := (rfl)
@[simp] theorem Dev.linkUpd_fn (d : Dev) (port : Nat) (f : HLink → HLink) : (d.linkUpd port f).fn = d.fn := (rfl)
@[simp] theorem Dev.linkUpd_fab (d : Dev) (port : Nat) (f : HLink → HLink) : (d.linkUpd port f).fab = d.fab := (rfl)
@[simp] theorem Dev.linkUpd_twin (d : Dev) (port : Nat) (f : HLink → HLink) : (d.linkUpd port f).twin = d.twin := (rfl)
@[simp] theorem Dev.linkUpd_mail (d : Dev) (port : Nat) (f : HLink → HLink) : (d.linkUpd port f).mail = d.mail := (rfl)
@[simp] theorem Dev.linkUpd_mem (d : Dev) (port : Nat) (f : HLink → HLink) : (d.linkUpd port f).mem = d.mem := (rfl)
@[simp] theorem Dev.linkUpd_health (d : Dev) (port : Nat) (f : HLink → HLink) : (d.linkUpd port f).health = d.health := (rfl)
@[simp] theorem Dev.linkUpd_rcd (d : Dev) (port : Nat) (f : HLink → HLink) : (d.linkUpd port f).rcd = d.rcd := (rfl)
@[simp] theorem Dev.linkUpd_pwr (d : Dev) (port : Nat) (f : HLink → HLink) : (d.linkUpd port f).pwr = d.pwr := (rfl)
@[simp] theorem Dev.linkUpd_start (d : Dev) (port : Nat) (f : HLink → HLink) : (d.linkUpd port f).start = d.start := (rfl)
@[simp] theorem Dev.linkUpd_sec (d : Dev) (port : Nat) (f : HLink → HLink) : (d.linkUpd port f).sec = d.sec := (rfl)
@[simp] theorem Dev.linkUpd_rx4 (d : Dev) (port : Nat) (f : HLink → HLink) : (d.linkUpd port f).rx4 = d.rx4 := (rfl)
@[simp] theorem Dev.linkUpd_pins (d : Dev) (port : Nat) (f : HLink → HLink) : (d.linkUpd port f).pins = d.pins := (rfl)
@[simp] theorem Dev.linkUpd_tally (d : Dev) (port : Nat) (f : HLink → HLink) : (d.linkUpd port f).tally = d.tally := (rfl)
@[simp] theorem Dev.linkUpd_opSec (d : Dev) (port : Nat) (f : HLink → HLink) : (d.linkUpd port f).opSec = d.opSec := (rfl)
@[simp] theorem Dev.linkUpd_cycles (d : Dev) (port : Nat) (f : HLink → HLink) : (d.linkUpd port f).cycles = d.cycles := (rfl)

@[simp] theorem Dev.spaceUpd_timeUs (d : Dev) (ts : Nat) (f : TSpace → TSpace) : (d.spaceUpd ts f).timeUs = d.timeUs := (rfl)
@[simp] theorem Dev.spaceUpd_freeCtr (d : Dev) (ts : Nat) (f : TSpace → TSpace) : (d.spaceUpd ts f).freeCtr = d.freeCtr := (rfl)
@[simp] theorem Dev.spaceUpd_out (d : Dev) (ts : Nat) (f : TSpace → TSpace) : (d.spaceUpd ts f).out = d.out := (rfl)
@[simp] theorem Dev.spaceUpd_regs (d : Dev) (ts : Nat) (f : TSpace → TSpace) : (d.spaceUpd ts f).regs = d.regs := (rfl)
@[simp] theorem Dev.spaceUpd_cwCount (d : Dev) (ts : Nat) (f : TSpace → TSpace) : (d.spaceUpd ts f).cwCount = d.cwCount := (rfl)
@[simp] theorem Dev.spaceUpd_cwFailed (d : Dev) (ts : Nat) (f : TSpace → TSpace) : (d.spaceUpd ts f).cwFailed = d.cwFailed := (rfl)
@[simp] theorem Dev.spaceUpd_host (d : Dev) (ts : Nat) (f : TSpace → TSpace) : (d.spaceUpd ts f).host = d.host := (rfl)
@[simp] theorem Dev.spaceUpd_qry (d : Dev) (ts : Nat) (f : TSpace → TSpace) : (d.spaceUpd ts f).qry = d.qry := (rfl)
@[simp] theorem Dev.spaceUpd_fn (d : Dev) (ts : Nat) (f : TSpace → TSpace) : (d.spaceUpd ts f).fn = d.fn := (rfl)
@[simp] theorem Dev.spaceUpd_fab (d : Dev) (ts : Nat) (f : TSpace → TSpace) : (d.spaceUpd ts f).fab = d.fab := (rfl)
@[simp] theorem Dev.spaceUpd_twin (d : Dev) (ts : Nat) (f : TSpace → TSpace) : (d.spaceUpd ts f).twin = d.twin := (rfl)
@[simp] theorem Dev.spaceUpd_mail (d : Dev) (ts : Nat) (f : TSpace → TSpace) : (d.spaceUpd ts f).mail = d.mail := (rfl)
@[simp] theorem Dev.spaceUpd_mem (d : Dev) (ts : Nat) (f : TSpace → TSpace) : (d.spaceUpd ts f).mem = d.mem := (rfl)
@[simp] theorem Dev.spaceUpd_health (d : Dev) (ts : Nat) (f : TSpace → TSpace) : (d.spaceUpd ts f).health = d.health := (rfl)
@[simp] theorem Dev.spaceUpd_rcd (d : Dev) (ts : Nat) (f : TSpace → TSpace) : (d.spaceUpd ts f).rcd = d.rcd := (rfl)
@[simp] theorem Dev.spaceUpd_pwr (d : Dev) (ts : Nat) (f : TSpace → TSpace) : (d.spaceUpd ts f).pwr = d.pwr := (rfl)
@[simp] theorem Dev.spaceUpd_start (d : Dev) (ts : Nat) (f : TSpace → TSpace) : (d.spaceUpd ts f).start = d.start := (rfl)
@[simp] theorem Dev.spaceUpd_sec (d : Dev) (ts : Nat) (f : TSpace → TSpace) : (d.spaceUpd ts f).sec = d.sec := (rfl)
@[simp] theorem Dev.spaceUpd_rx4 (d : Dev) (ts : Nat) (f : TSpace → TSpace) : (d.spaceUpd ts f).rx4 = d.rx4 := (rfl)
@[simp] theorem Dev.spaceUpd_pins (d : Dev) (ts : Nat) (f : TSpace → TSpace) : (d.spaceUpd ts f).pins = d.pins := (rfl)
@[simp] theorem Dev.spaceUpd_tally (d : Dev) (ts : Nat) (f : TSpace → TSpace) : (d.spaceUpd ts f).tally = d.tally := (rfl)
@[simp] theorem Dev.spaceUpd_opSec (d : Dev) (ts : Nat) (f : TSpace → TSpace) : (d.spaceUpd ts f).opSec = d.opSec := (rfl)
@[simp] theorem Dev.spaceUpd_cycles (d : Dev) (ts : Nat) (f : TSpace → TSpace) : (d.spaceUpd ts f).cycles = d.cycles := (rfl)

/-! ### Reads after updates -/

@[simp] theorem Dev.qp_at (d : Dev) (t x q : Nat) : (d.at t).qp x q = d.qp x q := (rfl)
@[simp] theorem Dev.hearth_at (d : Dev) (t h : Nat) : (d.at t).hearth h = d.hearth h := (rfl)
@[simp] theorem Dev.mbox_at (d : Dev) (t x : Nat) : (d.at t).mbox x = d.mbox x := (rfl)
@[simp] theorem Dev.fnGet_at (d : Dev) (t x : Nat) : (d.at t).fnGet x = d.fnGet x := (rfl)
@[simp] theorem Dev.link_at (d : Dev) (t p : Nat) : (d.at t).link p = d.link p := (rfl)
@[simp] theorem Dev.reg_at (d : Dev) (t a : Nat) : (d.at t).reg a = d.reg a := (rfl)
@[simp] theorem Dev.regN_at (d : Dev) (t a : Nat) : (d.at t).regN a = d.regN a := (rfl)
@[simp] theorem Dev.at_at (d : Dev) (t u : Nat) : (d.at t).at u = d.at (max t u) := by simp [Dev.at, max_assoc]

@[simp] theorem Dev.qp_qpUpd (d : Dev) (x q : Nat) (f : Qp → Qp) : (d.qpUpd x q f).qp x q = f (d.qp x q) := by simp [Dev.qp, Dev.qpUpd]
@[simp] theorem Dev.hearth_hearthUpd (d : Dev) (h : Nat) (f : Hearth → Hearth) : (d.hearthUpd h f).hearth h = f (d.hearth h) := by
  simp [Dev.hearth, Dev.hearthUpd]
@[simp] theorem Dev.mbox_mboxUpd (d : Dev) (x : Nat) (f : Mbox → Mbox) : (d.mboxUpd x f).mbox x = f (d.mbox x) := by simp [Dev.mbox, Dev.mboxUpd]
@[simp] theorem Dev.fnGet_fnUpd (d : Dev) (x : Nat) (f : Fn → Fn) : (d.fnUpd x f).fnGet x = f (d.fnGet x) := by simp [Dev.fnGet, Dev.fnUpd]
@[simp] theorem Dev.link_linkUpd (d : Dev) (p : Nat) (f : HLink → HLink) : (d.linkUpd p f).link p = f (d.link p) := by simp [Dev.link, Dev.linkUpd]
@[simp] theorem Dev.reg_setReg (d : Dev) (a : Nat) (w : Word) : (d.setReg a w).reg a = w := by simp [Dev.reg, Dev.setReg]

/-- Queue pairs by function and number are told apart while the number is one of 8,192 (R393). -/
theorem qpKey_inj {x q y r : Nat} (hq : q < 8192) (hr : r < 8192) (h : qpKey x q = qpKey y r) : x = y ∧ q = r := by
  unfold qpKey at h; omega

/-- Frames and values sent change no queue pair, hearth or mailbox (Ops.lean). -/
@[simp] theorem Dev.qp_send (d : Dev) (o : Out) (x q : Nat) : (d.send o).qp x q = d.qp x q := (rfl)
@[simp] theorem Dev.qp_setReg (d : Dev) (a : Nat) (w : Word) (x q : Nat) : (d.setReg a w).qp x q = d.qp x q := (rfl)
@[simp] theorem Dev.qp_fnUpd (d : Dev) (y : Nat) (f : Fn → Fn) (x q : Nat) : (d.fnUpd y f).qp x q = d.qp x q := (rfl)
@[simp] theorem Dev.hearth_send (d : Dev) (o : Out) (h : Nat) : (d.send o).hearth h = d.hearth h := (rfl)
@[simp] theorem Dev.hearth_setReg (d : Dev) (a : Nat) (w : Word) (h : Nat) : (d.setReg a w).hearth h = d.hearth h := (rfl)

end Sys2Proof.Machine
end

