-- ==== Sys2Proof/Laws/Ops.lean ====
section
/-!
SUPPORT. Sys2Proof/Laws/Ops.lean: what the shared operations of Ops.lean leave alone, and what each answers where nothing stands in its way.
-/
namespace Sys2Proof.Machine

/-! ### What each operation leaves alone -/

@[simp] theorem Dev.setReg64_timeUs (d : Dev) (a v : Nat) : (d.setReg64 a v).timeUs = d.timeUs := (rfl)
@[simp] theorem Dev.setReg64_out (d : Dev) (a v : Nat) : (d.setReg64 a v).out = d.out := (rfl)
@[simp] theorem Dev.setReg64_host (d : Dev) (a v : Nat) : (d.setReg64 a v).host = d.host := (rfl)
@[simp] theorem Dev.setReg64_store (d : Dev) (a v : Nat) : (d.setReg64 a v).store = d.store := (rfl)
@[simp] theorem Dev.setReg64_qry (d : Dev) (a v : Nat) : (d.setReg64 a v).qry = d.qry := (rfl)
@[simp] theorem Dev.setReg64_fn (d : Dev) (a v : Nat) : (d.setReg64 a v).fn = d.fn := (rfl)
@[simp] theorem Dev.setReg64_fab (d : Dev) (a v : Nat) : (d.setReg64 a v).fab = d.fab := (rfl)
@[simp] theorem Dev.setReg64_twin (d : Dev) (a v : Nat) : (d.setReg64 a v).twin = d.twin := (rfl)
@[simp] theorem Dev.setReg64_mail (d : Dev) (a v : Nat) : (d.setReg64 a v).mail = d.mail := (rfl)
@[simp] theorem Dev.setReg64_mem (d : Dev) (a v : Nat) : (d.setReg64 a v).mem = d.mem := (rfl)
@[simp] theorem Dev.setReg64_health (d : Dev) (a v : Nat) : (d.setReg64 a v).health = d.health := (rfl)
@[simp] theorem Dev.setReg64_pwr (d : Dev) (a v : Nat) : (d.setReg64 a v).pwr = d.pwr := (rfl)
@[simp] theorem Dev.setReg64_start (d : Dev) (a v : Nat) : (d.setReg64 a v).start = d.start := (rfl)
@[simp] theorem Dev.setReg64_sec (d : Dev) (a v : Nat) : (d.setReg64 a v).sec = d.sec := (rfl)
@[simp] theorem Dev.setReg64_opSec (d : Dev) (a v : Nat) : (d.setReg64 a v).opSec = d.opSec := (rfl)

@[simp] theorem Dev.bump_timeUs (d : Dev) (a n : Nat) : (d.bump a n).timeUs = d.timeUs := by unfold Dev.bump; split <;> rfl
@[simp] theorem Dev.bump_out (d : Dev) (a n : Nat) : (d.bump a n).out = d.out := by unfold Dev.bump; split <;> rfl
@[simp] theorem Dev.bump_host (d : Dev) (a n : Nat) : (d.bump a n).host = d.host := by unfold Dev.bump; split <;> rfl
@[simp] theorem Dev.bump_store (d : Dev) (a n : Nat) : (d.bump a n).store = d.store := by unfold Dev.bump; split <;> rfl
@[simp] theorem Dev.bump_qry (d : Dev) (a n : Nat) : (d.bump a n).qry = d.qry := by unfold Dev.bump; split <;> rfl
@[simp] theorem Dev.bump_fn (d : Dev) (a n : Nat) : (d.bump a n).fn = d.fn := by unfold Dev.bump; split <;> rfl
@[simp] theorem Dev.bump_fab (d : Dev) (a n : Nat) : (d.bump a n).fab = d.fab := by unfold Dev.bump; split <;> rfl
@[simp] theorem Dev.bump_twin (d : Dev) (a n : Nat) : (d.bump a n).twin = d.twin := by unfold Dev.bump; split <;> rfl
@[simp] theorem Dev.bump_mail (d : Dev) (a n : Nat) : (d.bump a n).mail = d.mail := by unfold Dev.bump; split <;> rfl
@[simp] theorem Dev.bump_mem (d : Dev) (a n : Nat) : (d.bump a n).mem = d.mem := by unfold Dev.bump; split <;> rfl
@[simp] theorem Dev.bump_health (d : Dev) (a n : Nat) : (d.bump a n).health = d.health := by unfold Dev.bump; split <;> rfl
@[simp] theorem Dev.bump_pwr (d : Dev) (a n : Nat) : (d.bump a n).pwr = d.pwr := by unfold Dev.bump; split <;> rfl
@[simp] theorem Dev.bump_start (d : Dev) (a n : Nat) : (d.bump a n).start = d.start := by unfold Dev.bump; split <;> rfl
@[simp] theorem Dev.bump_sec (d : Dev) (a n : Nat) : (d.bump a n).sec = d.sec := by unfold Dev.bump; split <;> rfl
@[simp] theorem Dev.bump_opSec (d : Dev) (a n : Nat) : (d.bump a n).opSec = d.opSec := by unfold Dev.bump; split <;> rfl

@[simp] theorem Dev.count64_timeUs (d : Dev) (a n : Nat) : (d.count64 a n).timeUs = d.timeUs := by unfold Dev.count64; split <;> rfl
@[simp] theorem Dev.count64_out (d : Dev) (a n : Nat) : (d.count64 a n).out = d.out := by unfold Dev.count64; split <;> rfl
@[simp] theorem Dev.count64_host (d : Dev) (a n : Nat) : (d.count64 a n).host = d.host := by unfold Dev.count64; split <;> rfl
@[simp] theorem Dev.count64_store (d : Dev) (a n : Nat) : (d.count64 a n).store = d.store := by unfold Dev.count64; split <;> rfl
@[simp] theorem Dev.count64_qry (d : Dev) (a n : Nat) : (d.count64 a n).qry = d.qry := by unfold Dev.count64; split <;> rfl
@[simp] theorem Dev.count64_fn (d : Dev) (a n : Nat) : (d.count64 a n).fn = d.fn := by unfold Dev.count64; split <;> rfl
@[simp] theorem Dev.count64_fab (d : Dev) (a n : Nat) : (d.count64 a n).fab = d.fab := by unfold Dev.count64; split <;> rfl
@[simp] theorem Dev.count64_twin (d : Dev) (a n : Nat) : (d.count64 a n).twin = d.twin := by unfold Dev.count64; split <;> rfl
@[simp] theorem Dev.count64_mail (d : Dev) (a n : Nat) : (d.count64 a n).mail = d.mail := by unfold Dev.count64; split <;> rfl
@[simp] theorem Dev.count64_mem (d : Dev) (a n : Nat) : (d.count64 a n).mem = d.mem := by unfold Dev.count64; split <;> rfl
@[simp] theorem Dev.count64_health (d : Dev) (a n : Nat) : (d.count64 a n).health = d.health := by unfold Dev.count64; split <;> rfl
@[simp] theorem Dev.count64_pwr (d : Dev) (a n : Nat) : (d.count64 a n).pwr = d.pwr := by unfold Dev.count64; split <;> rfl
@[simp] theorem Dev.count64_start (d : Dev) (a n : Nat) : (d.count64 a n).start = d.start := by unfold Dev.count64; split <;> rfl
@[simp] theorem Dev.count64_sec (d : Dev) (a n : Nat) : (d.count64 a n).sec = d.sec := by unfold Dev.count64; split <;> rfl
@[simp] theorem Dev.count64_opSec (d : Dev) (a n : Nat) : (d.count64 a n).opSec = d.opSec := by unfold Dev.count64; split <;> rfl

@[simp] theorem Dev.trace_timeUs (d : Dev) (r : TRec) : (d.trace r).timeUs = d.timeUs := by
  unfold Dev.trace Dev.tracePut; dsimp only; (repeat' split) <;> simp
@[simp] theorem Dev.trace_host (d : Dev) (r : TRec) : (d.trace r).host = d.host := by
  unfold Dev.trace Dev.tracePut; dsimp only; (repeat' split) <;> simp
@[simp] theorem Dev.trace_store (d : Dev) (r : TRec) : (d.trace r).store = d.store := by
  unfold Dev.trace Dev.tracePut; dsimp only; (repeat' split) <;> simp
@[simp] theorem Dev.trace_fn (d : Dev) (r : TRec) : (d.trace r).fn = d.fn := by
  unfold Dev.trace Dev.tracePut; dsimp only; (repeat' split) <;> simp
@[simp] theorem Dev.trace_fab (d : Dev) (r : TRec) : (d.trace r).fab = d.fab := by
  unfold Dev.trace Dev.tracePut; dsimp only; (repeat' split) <;> simp
@[simp] theorem Dev.trace_twin (d : Dev) (r : TRec) : (d.trace r).twin = d.twin := by
  unfold Dev.trace Dev.tracePut; dsimp only; (repeat' split) <;> simp
@[simp] theorem Dev.trace_mail (d : Dev) (r : TRec) : (d.trace r).mail = d.mail := by
  unfold Dev.trace Dev.tracePut; dsimp only; (repeat' split) <;> simp
@[simp] theorem Dev.trace_mem (d : Dev) (r : TRec) : (d.trace r).mem = d.mem := by
  unfold Dev.trace Dev.tracePut; dsimp only; (repeat' split) <;> simp
@[simp] theorem Dev.trace_health (d : Dev) (r : TRec) : (d.trace r).health = d.health := by
  unfold Dev.trace Dev.tracePut; dsimp only; (repeat' split) <;> simp
@[simp] theorem Dev.trace_pwr (d : Dev) (r : TRec) : (d.trace r).pwr = d.pwr := by
  unfold Dev.trace Dev.tracePut; dsimp only; (repeat' split) <;> simp
@[simp] theorem Dev.trace_start (d : Dev) (r : TRec) : (d.trace r).start = d.start := by
  unfold Dev.trace Dev.tracePut; dsimp only; (repeat' split) <;> simp
@[simp] theorem Dev.trace_sec (d : Dev) (r : TRec) : (d.trace r).sec = d.sec := by
  unfold Dev.trace Dev.tracePut; dsimp only; (repeat' split) <;> simp
@[simp] theorem Dev.trace_opSec (d : Dev) (r : TRec) : (d.trace r).opSec = d.opSec := by
  unfold Dev.trace Dev.tracePut; dsimp only; (repeat' split) <;> simp

@[simp] theorem Dev.delay_timeUs (d : Dev) (l k tag : Nat) : (d.delay l k tag).timeUs = d.timeUs := by unfold Dev.delay; dsimp only; split <;> simp
@[simp] theorem Dev.delay_host (d : Dev) (l k tag : Nat) : (d.delay l k tag).host = d.host := by unfold Dev.delay; dsimp only; split <;> simp
@[simp] theorem Dev.delay_store (d : Dev) (l k tag : Nat) : (d.delay l k tag).store = d.store := by unfold Dev.delay; dsimp only; split <;> simp
@[simp] theorem Dev.delay_fn (d : Dev) (l k tag : Nat) : (d.delay l k tag).fn = d.fn := by unfold Dev.delay; dsimp only; split <;> simp
@[simp] theorem Dev.delay_fab (d : Dev) (l k tag : Nat) : (d.delay l k tag).fab = d.fab := by unfold Dev.delay; dsimp only; split <;> simp
@[simp] theorem Dev.delay_twin (d : Dev) (l k tag : Nat) : (d.delay l k tag).twin = d.twin := by unfold Dev.delay; dsimp only; split <;> simp
@[simp] theorem Dev.delay_mail (d : Dev) (l k tag : Nat) : (d.delay l k tag).mail = d.mail := by unfold Dev.delay; dsimp only; split <;> simp
@[simp] theorem Dev.delay_mem (d : Dev) (l k tag : Nat) : (d.delay l k tag).mem = d.mem := by unfold Dev.delay; dsimp only; split <;> simp
@[simp] theorem Dev.delay_health (d : Dev) (l k tag : Nat) : (d.delay l k tag).health = d.health := by unfold Dev.delay; dsimp only; split <;> simp
@[simp] theorem Dev.delay_pwr (d : Dev) (l k tag : Nat) : (d.delay l k tag).pwr = d.pwr := by unfold Dev.delay; dsimp only; split <;> simp
@[simp] theorem Dev.delay_start (d : Dev) (l k tag : Nat) : (d.delay l k tag).start = d.start := by unfold Dev.delay; dsimp only; split <;> simp
@[simp] theorem Dev.delay_sec (d : Dev) (l k tag : Nat) : (d.delay l k tag).sec = d.sec := by unfold Dev.delay; dsimp only; split <;> simp
@[simp] theorem Dev.delay_opSec (d : Dev) (l k tag : Nat) : (d.delay l k tag).opSec = d.opSec := by unfold Dev.delay; dsimp only; split <;> simp

@[simp] theorem Dev.undelay_timeUs (d : Dev) (l tag : Nat) : (d.undelay l tag).timeUs = d.timeUs := by simp [Dev.undelay, Dev.setDelays]
@[simp] theorem Dev.undelay_out (d : Dev) (l tag : Nat) : (d.undelay l tag).out = d.out := by simp [Dev.undelay, Dev.setDelays]
@[simp] theorem Dev.undelay_host (d : Dev) (l tag : Nat) : (d.undelay l tag).host = d.host := by simp [Dev.undelay, Dev.setDelays]
@[simp] theorem Dev.undelay_store (d : Dev) (l tag : Nat) : (d.undelay l tag).store = d.store := by simp [Dev.undelay, Dev.setDelays]
@[simp] theorem Dev.undelay_fn (d : Dev) (l tag : Nat) : (d.undelay l tag).fn = d.fn := by simp [Dev.undelay, Dev.setDelays]
@[simp] theorem Dev.undelay_fab (d : Dev) (l tag : Nat) : (d.undelay l tag).fab = d.fab := by simp [Dev.undelay, Dev.setDelays]
@[simp] theorem Dev.undelay_twin (d : Dev) (l tag : Nat) : (d.undelay l tag).twin = d.twin := by simp [Dev.undelay, Dev.setDelays]
@[simp] theorem Dev.undelay_mail (d : Dev) (l tag : Nat) : (d.undelay l tag).mail = d.mail := by simp [Dev.undelay, Dev.setDelays]
@[simp] theorem Dev.undelay_mem (d : Dev) (l tag : Nat) : (d.undelay l tag).mem = d.mem := by simp [Dev.undelay, Dev.setDelays]
@[simp] theorem Dev.undelay_health (d : Dev) (l tag : Nat) : (d.undelay l tag).health = d.health := by simp [Dev.undelay, Dev.setDelays]
@[simp] theorem Dev.undelay_pwr (d : Dev) (l tag : Nat) : (d.undelay l tag).pwr = d.pwr := by simp [Dev.undelay, Dev.setDelays]
@[simp] theorem Dev.undelay_start (d : Dev) (l tag : Nat) : (d.undelay l tag).start = d.start := by simp [Dev.undelay, Dev.setDelays]
@[simp] theorem Dev.undelay_sec (d : Dev) (l tag : Nat) : (d.undelay l tag).sec = d.sec := by simp [Dev.undelay, Dev.setDelays]
@[simp] theorem Dev.undelay_opSec (d : Dev) (l tag : Nat) : (d.undelay l tag).opSec = d.opSec := by simp [Dev.undelay, Dev.setDelays]

@[simp] theorem Dev.twinFrame_timeUs (d : Dev) (k : Nat) (b : List Nat) (x : Bytes) (a : TAct) : (d.twinFrame k b x a).timeUs = d.timeUs := by unfold Dev.twinFrame; dsimp only; split <;> simp
@[simp] theorem Dev.twinFrame_host (d : Dev) (k : Nat) (b : List Nat) (x : Bytes) (a : TAct) : (d.twinFrame k b x a).host = d.host := by unfold Dev.twinFrame; dsimp only; split <;> simp
@[simp] theorem Dev.twinFrame_store (d : Dev) (k : Nat) (b : List Nat) (x : Bytes) (a : TAct) : (d.twinFrame k b x a).store = d.store := by unfold Dev.twinFrame; dsimp only; split <;> simp
@[simp] theorem Dev.twinFrame_fn (d : Dev) (k : Nat) (b : List Nat) (x : Bytes) (a : TAct) : (d.twinFrame k b x a).fn = d.fn := by unfold Dev.twinFrame; dsimp only; split <;> simp
@[simp] theorem Dev.twinFrame_fab (d : Dev) (k : Nat) (b : List Nat) (x : Bytes) (a : TAct) : (d.twinFrame k b x a).fab = d.fab := by unfold Dev.twinFrame; dsimp only; split <;> simp
@[simp] theorem Dev.twinFrame_mail (d : Dev) (k : Nat) (b : List Nat) (x : Bytes) (a : TAct) : (d.twinFrame k b x a).mail = d.mail := by unfold Dev.twinFrame; dsimp only; split <;> simp
@[simp] theorem Dev.twinFrame_mem (d : Dev) (k : Nat) (b : List Nat) (x : Bytes) (a : TAct) : (d.twinFrame k b x a).mem = d.mem := by unfold Dev.twinFrame; dsimp only; split <;> simp
@[simp] theorem Dev.twinFrame_health (d : Dev) (k : Nat) (b : List Nat) (x : Bytes) (a : TAct) : (d.twinFrame k b x a).health = d.health := by unfold Dev.twinFrame; dsimp only; split <;> simp
@[simp] theorem Dev.twinFrame_pwr (d : Dev) (k : Nat) (b : List Nat) (x : Bytes) (a : TAct) : (d.twinFrame k b x a).pwr = d.pwr := by unfold Dev.twinFrame; dsimp only; split <;> simp
@[simp] theorem Dev.twinFrame_start (d : Dev) (k : Nat) (b : List Nat) (x : Bytes) (a : TAct) : (d.twinFrame k b x a).start = d.start := by unfold Dev.twinFrame; dsimp only; split <;> simp
@[simp] theorem Dev.twinFrame_sec (d : Dev) (k : Nat) (b : List Nat) (x : Bytes) (a : TAct) : (d.twinFrame k b x a).sec = d.sec := by unfold Dev.twinFrame; dsimp only; split <;> simp
@[simp] theorem Dev.twinFrame_opSec (d : Dev) (k : Nat) (b : List Nat) (x : Bytes) (a : TAct) : (d.twinFrame k b x a).opSec = d.opSec := by unfold Dev.twinFrame; dsimp only; split <;> simp

@[simp] theorem Dev.twinSend_timeUs (d : Dev) (k : Nat) (b : List Nat) (x : Bytes) (a : TAct) : (d.twinSend k b x a).timeUs = d.timeUs := by unfold Dev.twinSend; split <;> simp
@[simp] theorem Dev.twinSend_host (d : Dev) (k : Nat) (b : List Nat) (x : Bytes) (a : TAct) : (d.twinSend k b x a).host = d.host := by unfold Dev.twinSend; split <;> simp
@[simp] theorem Dev.twinSend_store (d : Dev) (k : Nat) (b : List Nat) (x : Bytes) (a : TAct) : (d.twinSend k b x a).store = d.store := by unfold Dev.twinSend; split <;> simp
@[simp] theorem Dev.twinSend_fn (d : Dev) (k : Nat) (b : List Nat) (x : Bytes) (a : TAct) : (d.twinSend k b x a).fn = d.fn := by unfold Dev.twinSend; split <;> simp
@[simp] theorem Dev.twinSend_fab (d : Dev) (k : Nat) (b : List Nat) (x : Bytes) (a : TAct) : (d.twinSend k b x a).fab = d.fab := by unfold Dev.twinSend; split <;> simp
@[simp] theorem Dev.twinSend_mail (d : Dev) (k : Nat) (b : List Nat) (x : Bytes) (a : TAct) : (d.twinSend k b x a).mail = d.mail := by unfold Dev.twinSend; split <;> simp
@[simp] theorem Dev.twinSend_mem (d : Dev) (k : Nat) (b : List Nat) (x : Bytes) (a : TAct) : (d.twinSend k b x a).mem = d.mem := by unfold Dev.twinSend; split <;> simp
@[simp] theorem Dev.twinSend_health (d : Dev) (k : Nat) (b : List Nat) (x : Bytes) (a : TAct) : (d.twinSend k b x a).health = d.health := by unfold Dev.twinSend; split <;> simp
@[simp] theorem Dev.twinSend_pwr (d : Dev) (k : Nat) (b : List Nat) (x : Bytes) (a : TAct) : (d.twinSend k b x a).pwr = d.pwr := by unfold Dev.twinSend; split <;> simp
@[simp] theorem Dev.twinSend_start (d : Dev) (k : Nat) (b : List Nat) (x : Bytes) (a : TAct) : (d.twinSend k b x a).start = d.start := by unfold Dev.twinSend; split <;> simp
@[simp] theorem Dev.twinSend_sec (d : Dev) (k : Nat) (b : List Nat) (x : Bytes) (a : TAct) : (d.twinSend k b x a).sec = d.sec := by unfold Dev.twinSend; split <;> simp
@[simp] theorem Dev.twinSend_opSec (d : Dev) (k : Nat) (b : List Nat) (x : Bytes) (a : TAct) : (d.twinSend k b x a).opSec = d.opSec := by unfold Dev.twinSend; split <;> simp

@[simp] theorem Dev.queueState_timeUs (d : Dev) (x q : Nat) : (d.queueState x q).timeUs = d.timeUs := by unfold Dev.queueState; simp
@[simp] theorem Dev.queueState_host (d : Dev) (x q : Nat) : (d.queueState x q).host = d.host := by unfold Dev.queueState; simp
@[simp] theorem Dev.queueState_store (d : Dev) (x q : Nat) : (d.queueState x q).store = d.store := by unfold Dev.queueState; simp
@[simp] theorem Dev.queueState_fn (d : Dev) (x q : Nat) : (d.queueState x q).fn = d.fn := by unfold Dev.queueState; simp
@[simp] theorem Dev.queueState_fab (d : Dev) (x q : Nat) : (d.queueState x q).fab = d.fab := by unfold Dev.queueState; simp
@[simp] theorem Dev.queueState_mail (d : Dev) (x q : Nat) : (d.queueState x q).mail = d.mail := by unfold Dev.queueState; simp
@[simp] theorem Dev.queueState_mem (d : Dev) (x q : Nat) : (d.queueState x q).mem = d.mem := by unfold Dev.queueState; simp
@[simp] theorem Dev.queueState_health (d : Dev) (x q : Nat) : (d.queueState x q).health = d.health := by unfold Dev.queueState; simp
@[simp] theorem Dev.queueState_pwr (d : Dev) (x q : Nat) : (d.queueState x q).pwr = d.pwr := by unfold Dev.queueState; simp
@[simp] theorem Dev.queueState_start (d : Dev) (x q : Nat) : (d.queueState x q).start = d.start := by unfold Dev.queueState; simp
@[simp] theorem Dev.queueState_sec (d : Dev) (x q : Nat) : (d.queueState x q).sec = d.sec := by unfold Dev.queueState; simp
@[simp] theorem Dev.queueState_opSec (d : Dev) (x q : Nat) : (d.queueState x q).opSec = d.opSec := by unfold Dev.queueState; simp

@[simp] theorem Dev.vector_timeUs (d : Dev) (x v : Nat) : (d.vector x v).timeUs = d.timeUs := by unfold Dev.vector; dsimp only; (repeat' split) <;> rfl
@[simp] theorem Dev.vector_regs (d : Dev) (x v : Nat) : (d.vector x v).regs = d.regs := by unfold Dev.vector; dsimp only; (repeat' split) <;> rfl
@[simp] theorem Dev.vector_store (d : Dev) (x v : Nat) : (d.vector x v).store = d.store := by unfold Dev.vector; dsimp only; (repeat' split) <;> rfl
@[simp] theorem Dev.vector_qry (d : Dev) (x v : Nat) : (d.vector x v).qry = d.qry := by unfold Dev.vector; dsimp only; (repeat' split) <;> rfl
@[simp] theorem Dev.vector_fn (d : Dev) (x v : Nat) : (d.vector x v).fn = d.fn := by unfold Dev.vector; dsimp only; (repeat' split) <;> rfl
@[simp] theorem Dev.vector_fab (d : Dev) (x v : Nat) : (d.vector x v).fab = d.fab := by unfold Dev.vector; dsimp only; (repeat' split) <;> rfl
@[simp] theorem Dev.vector_twin (d : Dev) (x v : Nat) : (d.vector x v).twin = d.twin := by unfold Dev.vector; dsimp only; (repeat' split) <;> rfl
@[simp] theorem Dev.vector_mail (d : Dev) (x v : Nat) : (d.vector x v).mail = d.mail := by unfold Dev.vector; dsimp only; (repeat' split) <;> rfl
@[simp] theorem Dev.vector_mem (d : Dev) (x v : Nat) : (d.vector x v).mem = d.mem := by unfold Dev.vector; dsimp only; (repeat' split) <;> rfl
@[simp] theorem Dev.vector_health (d : Dev) (x v : Nat) : (d.vector x v).health = d.health := by unfold Dev.vector; dsimp only; (repeat' split) <;> rfl
@[simp] theorem Dev.vector_pwr (d : Dev) (x v : Nat) : (d.vector x v).pwr = d.pwr := by unfold Dev.vector; dsimp only; (repeat' split) <;> rfl
@[simp] theorem Dev.vector_start (d : Dev) (x v : Nat) : (d.vector x v).start = d.start := by unfold Dev.vector; dsimp only; (repeat' split) <;> rfl
@[simp] theorem Dev.vector_opSec (d : Dev) (x v : Nat) : (d.vector x v).opSec = d.opSec := by unfold Dev.vector; dsimp only; (repeat' split) <;> rfl

@[simp] theorem Dev.hostWrite_timeUs (d : Dev) (x a : Nat) (b : Bytes) : (d.hostWrite x a b).timeUs = d.timeUs := by unfold Dev.hostWrite; dsimp only; (repeat' split) <;> rfl
@[simp] theorem Dev.hostWrite_regs (d : Dev) (x a : Nat) (b : Bytes) : (d.hostWrite x a b).regs = d.regs := by unfold Dev.hostWrite; dsimp only; (repeat' split) <;> rfl
@[simp] theorem Dev.hostWrite_store (d : Dev) (x a : Nat) (b : Bytes) : (d.hostWrite x a b).store = d.store := by unfold Dev.hostWrite; dsimp only; (repeat' split) <;> rfl
@[simp] theorem Dev.hostWrite_qry (d : Dev) (x a : Nat) (b : Bytes) : (d.hostWrite x a b).qry = d.qry := by unfold Dev.hostWrite; dsimp only; (repeat' split) <;> rfl
@[simp] theorem Dev.hostWrite_fn (d : Dev) (x a : Nat) (b : Bytes) : (d.hostWrite x a b).fn = d.fn := by unfold Dev.hostWrite; dsimp only; (repeat' split) <;> rfl
@[simp] theorem Dev.hostWrite_fab (d : Dev) (x a : Nat) (b : Bytes) : (d.hostWrite x a b).fab = d.fab := by unfold Dev.hostWrite; dsimp only; (repeat' split) <;> rfl
@[simp] theorem Dev.hostWrite_twin (d : Dev) (x a : Nat) (b : Bytes) : (d.hostWrite x a b).twin = d.twin := by unfold Dev.hostWrite; dsimp only; (repeat' split) <;> rfl
@[simp] theorem Dev.hostWrite_mail (d : Dev) (x a : Nat) (b : Bytes) : (d.hostWrite x a b).mail = d.mail := by unfold Dev.hostWrite; dsimp only; (repeat' split) <;> rfl
@[simp] theorem Dev.hostWrite_mem (d : Dev) (x a : Nat) (b : Bytes) : (d.hostWrite x a b).mem = d.mem := by unfold Dev.hostWrite; dsimp only; (repeat' split) <;> rfl
@[simp] theorem Dev.hostWrite_health (d : Dev) (x a : Nat) (b : Bytes) : (d.hostWrite x a b).health = d.health := by unfold Dev.hostWrite; dsimp only; (repeat' split) <;> rfl
@[simp] theorem Dev.hostWrite_pwr (d : Dev) (x a : Nat) (b : Bytes) : (d.hostWrite x a b).pwr = d.pwr := by unfold Dev.hostWrite; dsimp only; (repeat' split) <;> rfl
@[simp] theorem Dev.hostWrite_start (d : Dev) (x a : Nat) (b : Bytes) : (d.hostWrite x a b).start = d.start := by unfold Dev.hostWrite; dsimp only; (repeat' split) <;> rfl
@[simp] theorem Dev.hostWrite_opSec (d : Dev) (x a : Nat) (b : Bytes) : (d.hostWrite x a b).opSec = d.opSec := by unfold Dev.hostWrite; dsimp only; (repeat' split) <;> rfl

@[simp] theorem Dev.fnEvent_timeUs (d : Dev) (x b : Nat) (q : Option Nat) : (d.fnEvent x b q).timeUs = d.timeUs := by unfold Dev.fnEvent; dsimp only; split <;> simp
@[simp] theorem Dev.fnEvent_regs (d : Dev) (x b : Nat) (q : Option Nat) : (d.fnEvent x b q).regs = d.regs := by unfold Dev.fnEvent; dsimp only; split <;> simp
@[simp] theorem Dev.fnEvent_store (d : Dev) (x b : Nat) (q : Option Nat) : (d.fnEvent x b q).store = d.store := by unfold Dev.fnEvent; dsimp only; split <;> simp
@[simp] theorem Dev.fnEvent_qry (d : Dev) (x b : Nat) (q : Option Nat) : (d.fnEvent x b q).qry = d.qry := by unfold Dev.fnEvent; dsimp only; split <;> simp
@[simp] theorem Dev.fnEvent_fn (d : Dev) (x b : Nat) (q : Option Nat) : (d.fnEvent x b q).fn = d.fn := by unfold Dev.fnEvent; dsimp only; split <;> simp
@[simp] theorem Dev.fnEvent_fab (d : Dev) (x b : Nat) (q : Option Nat) : (d.fnEvent x b q).fab = d.fab := by unfold Dev.fnEvent; dsimp only; split <;> simp
@[simp] theorem Dev.fnEvent_twin (d : Dev) (x b : Nat) (q : Option Nat) : (d.fnEvent x b q).twin = d.twin := by unfold Dev.fnEvent; dsimp only; split <;> simp
@[simp] theorem Dev.fnEvent_mail (d : Dev) (x b : Nat) (q : Option Nat) : (d.fnEvent x b q).mail = d.mail := by unfold Dev.fnEvent; dsimp only; split <;> simp
@[simp] theorem Dev.fnEvent_mem (d : Dev) (x b : Nat) (q : Option Nat) : (d.fnEvent x b q).mem = d.mem := by unfold Dev.fnEvent; dsimp only; split <;> simp
@[simp] theorem Dev.fnEvent_health (d : Dev) (x b : Nat) (q : Option Nat) : (d.fnEvent x b q).health = d.health := by unfold Dev.fnEvent; dsimp only; split <;> simp
@[simp] theorem Dev.fnEvent_pwr (d : Dev) (x b : Nat) (q : Option Nat) : (d.fnEvent x b q).pwr = d.pwr := by unfold Dev.fnEvent; dsimp only; split <;> simp
@[simp] theorem Dev.fnEvent_start (d : Dev) (x b : Nat) (q : Option Nat) : (d.fnEvent x b q).start = d.start := by unfold Dev.fnEvent; dsimp only; split <;> simp
@[simp] theorem Dev.fnEvent_opSec (d : Dev) (x b : Nat) (q : Option Nat) : (d.fnEvent x b q).opSec = d.opSec := by unfold Dev.fnEvent; dsimp only; split <;> simp

@[simp] theorem Dev.mboxVector_timeUs (d : Dev) (x : Nat) : (d.mboxVector x).timeUs = d.timeUs := by unfold Dev.mboxVector; dsimp only; split <;> simp
@[simp] theorem Dev.mboxVector_regs (d : Dev) (x : Nat) : (d.mboxVector x).regs = d.regs := by unfold Dev.mboxVector; dsimp only; split <;> simp
@[simp] theorem Dev.mboxVector_store (d : Dev) (x : Nat) : (d.mboxVector x).store = d.store := by unfold Dev.mboxVector; dsimp only; split <;> simp
@[simp] theorem Dev.mboxVector_qry (d : Dev) (x : Nat) : (d.mboxVector x).qry = d.qry := by unfold Dev.mboxVector; dsimp only; split <;> simp
@[simp] theorem Dev.mboxVector_fn (d : Dev) (x : Nat) : (d.mboxVector x).fn = d.fn := by unfold Dev.mboxVector; dsimp only; split <;> simp
@[simp] theorem Dev.mboxVector_fab (d : Dev) (x : Nat) : (d.mboxVector x).fab = d.fab := by unfold Dev.mboxVector; dsimp only; split <;> simp
@[simp] theorem Dev.mboxVector_twin (d : Dev) (x : Nat) : (d.mboxVector x).twin = d.twin := by unfold Dev.mboxVector; dsimp only; split <;> simp
@[simp] theorem Dev.mboxVector_mail (d : Dev) (x : Nat) : (d.mboxVector x).mail = d.mail := by unfold Dev.mboxVector; dsimp only; split <;> simp
@[simp] theorem Dev.mboxVector_mem (d : Dev) (x : Nat) : (d.mboxVector x).mem = d.mem := by unfold Dev.mboxVector; dsimp only; split <;> simp
@[simp] theorem Dev.mboxVector_health (d : Dev) (x : Nat) : (d.mboxVector x).health = d.health := by unfold Dev.mboxVector; dsimp only; split <;> simp
@[simp] theorem Dev.mboxVector_pwr (d : Dev) (x : Nat) : (d.mboxVector x).pwr = d.pwr := by unfold Dev.mboxVector; dsimp only; split <;> simp
@[simp] theorem Dev.mboxVector_start (d : Dev) (x : Nat) : (d.mboxVector x).start = d.start := by unfold Dev.mboxVector; dsimp only; split <;> simp
@[simp] theorem Dev.mboxVector_opSec (d : Dev) (x : Nat) : (d.mboxVector x).opSec = d.opSec := by unfold Dev.mboxVector; dsimp only; split <;> simp

@[simp] theorem Dev.event_timeUs (d : Dev) (x c o v : Nat) : (d.event x c o v).timeUs = d.timeUs := by unfold Dev.event; dsimp only; split <;> simp
@[simp] theorem Dev.event_regs (d : Dev) (x c o v : Nat) : (d.event x c o v).regs = d.regs := by unfold Dev.event; dsimp only; split <;> simp
@[simp] theorem Dev.event_store (d : Dev) (x c o v : Nat) : (d.event x c o v).store = d.store := by unfold Dev.event; dsimp only; split <;> simp
@[simp] theorem Dev.event_qry (d : Dev) (x c o v : Nat) : (d.event x c o v).qry = d.qry := by unfold Dev.event; dsimp only; split <;> simp
@[simp] theorem Dev.event_fn (d : Dev) (x c o v : Nat) : (d.event x c o v).fn = d.fn := by unfold Dev.event; dsimp only; split <;> simp
@[simp] theorem Dev.event_fab (d : Dev) (x c o v : Nat) : (d.event x c o v).fab = d.fab := by unfold Dev.event; dsimp only; split <;> simp
@[simp] theorem Dev.event_twin (d : Dev) (x c o v : Nat) : (d.event x c o v).twin = d.twin := by unfold Dev.event; dsimp only; split <;> simp
@[simp] theorem Dev.event_mem (d : Dev) (x c o v : Nat) : (d.event x c o v).mem = d.mem := by unfold Dev.event; dsimp only; split <;> simp
@[simp] theorem Dev.event_health (d : Dev) (x c o v : Nat) : (d.event x c o v).health = d.health := by unfold Dev.event; dsimp only; split <;> simp
@[simp] theorem Dev.event_pwr (d : Dev) (x c o v : Nat) : (d.event x c o v).pwr = d.pwr := by unfold Dev.event; dsimp only; split <;> simp
@[simp] theorem Dev.event_start (d : Dev) (x c o v : Nat) : (d.event x c o v).start = d.start := by unfold Dev.event; dsimp only; split <;> simp
@[simp] theorem Dev.event_opSec (d : Dev) (x c o v : Nat) : (d.event x c o v).opSec = d.opSec := by unfold Dev.event; dsimp only; split <;> simp

@[simp] theorem Dev.eventPf_timeUs (d : Dev) (c o v : Nat) : (d.eventPf c o v).timeUs = d.timeUs := by unfold Dev.eventPf; simp
@[simp] theorem Dev.eventPf_regs (d : Dev) (c o v : Nat) : (d.eventPf c o v).regs = d.regs := by unfold Dev.eventPf; simp
@[simp] theorem Dev.eventPf_store (d : Dev) (c o v : Nat) : (d.eventPf c o v).store = d.store := by unfold Dev.eventPf; simp
@[simp] theorem Dev.eventPf_qry (d : Dev) (c o v : Nat) : (d.eventPf c o v).qry = d.qry := by unfold Dev.eventPf; simp
@[simp] theorem Dev.eventPf_fn (d : Dev) (c o v : Nat) : (d.eventPf c o v).fn = d.fn := by unfold Dev.eventPf; simp
@[simp] theorem Dev.eventPf_fab (d : Dev) (c o v : Nat) : (d.eventPf c o v).fab = d.fab := by unfold Dev.eventPf; simp
@[simp] theorem Dev.eventPf_twin (d : Dev) (c o v : Nat) : (d.eventPf c o v).twin = d.twin := by unfold Dev.eventPf; simp
@[simp] theorem Dev.eventPf_mem (d : Dev) (c o v : Nat) : (d.eventPf c o v).mem = d.mem := by unfold Dev.eventPf; simp
@[simp] theorem Dev.eventPf_health (d : Dev) (c o v : Nat) : (d.eventPf c o v).health = d.health := by unfold Dev.eventPf; simp
@[simp] theorem Dev.eventPf_pwr (d : Dev) (c o v : Nat) : (d.eventPf c o v).pwr = d.pwr := by unfold Dev.eventPf; simp
@[simp] theorem Dev.eventPf_start (d : Dev) (c o v : Nat) : (d.eventPf c o v).start = d.start := by unfold Dev.eventPf; simp
@[simp] theorem Dev.eventPf_opSec (d : Dev) (c o v : Nat) : (d.eventPf c o v).opSec = d.opSec := by unfold Dev.eventPf; simp

@[simp] theorem Dev.countRepair_timeUs (d : Dev) (i : Nat) : (d.countRepair i).timeUs = d.timeUs := (rfl)
@[simp] theorem Dev.countRepair_out (d : Dev) (i : Nat) : (d.countRepair i).out = d.out := (rfl)
@[simp] theorem Dev.countRepair_regs (d : Dev) (i : Nat) : (d.countRepair i).regs = d.regs := (rfl)
@[simp] theorem Dev.countRepair_host (d : Dev) (i : Nat) : (d.countRepair i).host = d.host := (rfl)
@[simp] theorem Dev.countRepair_store (d : Dev) (i : Nat) : (d.countRepair i).store = d.store := (rfl)
@[simp] theorem Dev.countRepair_qry (d : Dev) (i : Nat) : (d.countRepair i).qry = d.qry := (rfl)
@[simp] theorem Dev.countRepair_fn (d : Dev) (i : Nat) : (d.countRepair i).fn = d.fn := (rfl)
@[simp] theorem Dev.countRepair_fab (d : Dev) (i : Nat) : (d.countRepair i).fab = d.fab := (rfl)
@[simp] theorem Dev.countRepair_twin (d : Dev) (i : Nat) : (d.countRepair i).twin = d.twin := (rfl)
@[simp] theorem Dev.countRepair_mail (d : Dev) (i : Nat) : (d.countRepair i).mail = d.mail := (rfl)
@[simp] theorem Dev.countRepair_mem (d : Dev) (i : Nat) : (d.countRepair i).mem = d.mem := (rfl)
@[simp] theorem Dev.countRepair_health (d : Dev) (i : Nat) : (d.countRepair i).health = d.health := (rfl)
@[simp] theorem Dev.countRepair_pwr (d : Dev) (i : Nat) : (d.countRepair i).pwr = d.pwr := (rfl)
@[simp] theorem Dev.countRepair_start (d : Dev) (i : Nat) : (d.countRepair i).start = d.start := (rfl)
@[simp] theorem Dev.countRepair_sec (d : Dev) (i : Nat) : (d.countRepair i).sec = d.sec := (rfl)
@[simp] theorem Dev.countRepair_opSec (d : Dev) (i : Nat) : (d.countRepair i).opSec = d.opSec := (rfl)

@[simp] theorem Dev.repairWritten_timeUs (d : Dev) : (d.repairWritten).timeUs = d.timeUs := (rfl)
@[simp] theorem Dev.repairWritten_out (d : Dev) : (d.repairWritten).out = d.out := (rfl)
@[simp] theorem Dev.repairWritten_regs (d : Dev) : (d.repairWritten).regs = d.regs := (rfl)
@[simp] theorem Dev.repairWritten_host (d : Dev) : (d.repairWritten).host = d.host := (rfl)
@[simp] theorem Dev.repairWritten_store (d : Dev) : (d.repairWritten).store = d.store := (rfl)
@[simp] theorem Dev.repairWritten_qry (d : Dev) : (d.repairWritten).qry = d.qry := (rfl)
@[simp] theorem Dev.repairWritten_fn (d : Dev) : (d.repairWritten).fn = d.fn := (rfl)
@[simp] theorem Dev.repairWritten_fab (d : Dev) : (d.repairWritten).fab = d.fab := (rfl)
@[simp] theorem Dev.repairWritten_twin (d : Dev) : (d.repairWritten).twin = d.twin := (rfl)
@[simp] theorem Dev.repairWritten_mail (d : Dev) : (d.repairWritten).mail = d.mail := (rfl)
@[simp] theorem Dev.repairWritten_mem (d : Dev) : (d.repairWritten).mem = d.mem := (rfl)
@[simp] theorem Dev.repairWritten_pwr (d : Dev) : (d.repairWritten).pwr = d.pwr := (rfl)
@[simp] theorem Dev.repairWritten_start (d : Dev) : (d.repairWritten).start = d.start := (rfl)
@[simp] theorem Dev.repairWritten_sec (d : Dev) : (d.repairWritten).sec = d.sec := (rfl)
@[simp] theorem Dev.repairWritten_opSec (d : Dev) : (d.repairWritten).opSec = d.opSec := (rfl)

@[simp] theorem Dev.recovered_timeUs (d : Dev) (c u : Nat) : (d.recovered c u).timeUs = d.timeUs := (rfl)
@[simp] theorem Dev.recovered_out (d : Dev) (c u : Nat) : (d.recovered c u).out = d.out := (rfl)
@[simp] theorem Dev.recovered_regs (d : Dev) (c u : Nat) : (d.recovered c u).regs = d.regs := (rfl)
@[simp] theorem Dev.recovered_host (d : Dev) (c u : Nat) : (d.recovered c u).host = d.host := (rfl)
@[simp] theorem Dev.recovered_store (d : Dev) (c u : Nat) : (d.recovered c u).store = d.store := (rfl)
@[simp] theorem Dev.recovered_qry (d : Dev) (c u : Nat) : (d.recovered c u).qry = d.qry := (rfl)
@[simp] theorem Dev.recovered_fn (d : Dev) (c u : Nat) : (d.recovered c u).fn = d.fn := (rfl)
@[simp] theorem Dev.recovered_fab (d : Dev) (c u : Nat) : (d.recovered c u).fab = d.fab := (rfl)
@[simp] theorem Dev.recovered_twin (d : Dev) (c u : Nat) : (d.recovered c u).twin = d.twin := (rfl)
@[simp] theorem Dev.recovered_mail (d : Dev) (c u : Nat) : (d.recovered c u).mail = d.mail := (rfl)
@[simp] theorem Dev.recovered_mem (d : Dev) (c u : Nat) : (d.recovered c u).mem = d.mem := (rfl)
@[simp] theorem Dev.recovered_pwr (d : Dev) (c u : Nat) : (d.recovered c u).pwr = d.pwr := (rfl)
@[simp] theorem Dev.recovered_start (d : Dev) (c u : Nat) : (d.recovered c u).start = d.start := (rfl)
@[simp] theorem Dev.recovered_sec (d : Dev) (c u : Nat) : (d.recovered c u).sec = d.sec := (rfl)
@[simp] theorem Dev.recovered_opSec (d : Dev) (c u : Nat) : (d.recovered c u).opSec = d.opSec := (rfl)

@[simp] theorem Dev.recover_timeUs (d : Dev) (c u : Nat) : (d.recover c u).timeUs = d.timeUs := by unfold Dev.recover; split <;> rfl
@[simp] theorem Dev.recover_out (d : Dev) (c u : Nat) : (d.recover c u).out = d.out := by unfold Dev.recover; split <;> rfl
@[simp] theorem Dev.recover_regs (d : Dev) (c u : Nat) : (d.recover c u).regs = d.regs := by unfold Dev.recover; split <;> rfl
@[simp] theorem Dev.recover_host (d : Dev) (c u : Nat) : (d.recover c u).host = d.host := by unfold Dev.recover; split <;> rfl
@[simp] theorem Dev.recover_store (d : Dev) (c u : Nat) : (d.recover c u).store = d.store := by unfold Dev.recover; split <;> rfl
@[simp] theorem Dev.recover_qry (d : Dev) (c u : Nat) : (d.recover c u).qry = d.qry := by unfold Dev.recover; split <;> rfl
@[simp] theorem Dev.recover_fn (d : Dev) (c u : Nat) : (d.recover c u).fn = d.fn := by unfold Dev.recover; split <;> rfl
@[simp] theorem Dev.recover_fab (d : Dev) (c u : Nat) : (d.recover c u).fab = d.fab := by unfold Dev.recover; split <;> rfl
@[simp] theorem Dev.recover_twin (d : Dev) (c u : Nat) : (d.recover c u).twin = d.twin := by unfold Dev.recover; split <;> rfl
@[simp] theorem Dev.recover_mail (d : Dev) (c u : Nat) : (d.recover c u).mail = d.mail := by unfold Dev.recover; split <;> rfl
@[simp] theorem Dev.recover_mem (d : Dev) (c u : Nat) : (d.recover c u).mem = d.mem := by unfold Dev.recover; split <;> rfl
@[simp] theorem Dev.recover_pwr (d : Dev) (c u : Nat) : (d.recover c u).pwr = d.pwr := by unfold Dev.recover; split <;> rfl
@[simp] theorem Dev.recover_start (d : Dev) (c u : Nat) : (d.recover c u).start = d.start := by unfold Dev.recover; split <;> rfl
@[simp] theorem Dev.recover_sec (d : Dev) (c u : Nat) : (d.recover c u).sec = d.sec := by unfold Dev.recover; split <;> rfl
@[simp] theorem Dev.recover_opSec (d : Dev) (c u : Nat) : (d.recover c u).opSec = d.opSec := by unfold Dev.recover; split <;> rfl

@[simp] theorem Dev.escalate_timeUs (d : Dev) (c u : Nat) : (d.escalate c u).timeUs = d.timeUs := by unfold Dev.escalate; simp
@[simp] theorem Dev.escalate_store (d : Dev) (c u : Nat) : (d.escalate c u).store = d.store := by unfold Dev.escalate; simp
@[simp] theorem Dev.escalate_qry (d : Dev) (c u : Nat) : (d.escalate c u).qry = d.qry := by unfold Dev.escalate; simp
@[simp] theorem Dev.escalate_fn (d : Dev) (c u : Nat) : (d.escalate c u).fn = d.fn := by unfold Dev.escalate; simp
@[simp] theorem Dev.escalate_fab (d : Dev) (c u : Nat) : (d.escalate c u).fab = d.fab := by unfold Dev.escalate; simp
@[simp] theorem Dev.escalate_twin (d : Dev) (c u : Nat) : (d.escalate c u).twin = d.twin := by unfold Dev.escalate; simp
@[simp] theorem Dev.escalate_mem (d : Dev) (c u : Nat) : (d.escalate c u).mem = d.mem := by unfold Dev.escalate; simp
@[simp] theorem Dev.escalate_health (d : Dev) (c u : Nat) : (d.escalate c u).health = d.health := by unfold Dev.escalate; simp
@[simp] theorem Dev.escalate_pwr (d : Dev) (c u : Nat) : (d.escalate c u).pwr = d.pwr := by unfold Dev.escalate; simp
@[simp] theorem Dev.escalate_start (d : Dev) (c u : Nat) : (d.escalate c u).start = d.start := by unfold Dev.escalate; simp
@[simp] theorem Dev.escalate_opSec (d : Dev) (c u : Nat) : (d.escalate c u).opSec = d.opSec := by unfold Dev.escalate; simp

@[simp] theorem Dev.hostRead_timeUs (d : Dev) (x q cid : Nat) (u : ReadFor) (a n : Nat) : (d.hostRead x q cid u a n).timeUs = d.timeUs := (rfl)
@[simp] theorem Dev.hostRead_regs (d : Dev) (x q cid : Nat) (u : ReadFor) (a n : Nat) : (d.hostRead x q cid u a n).regs = d.regs := (rfl)
@[simp] theorem Dev.hostRead_store (d : Dev) (x q cid : Nat) (u : ReadFor) (a n : Nat) : (d.hostRead x q cid u a n).store = d.store := (rfl)
@[simp] theorem Dev.hostRead_qry (d : Dev) (x q cid : Nat) (u : ReadFor) (a n : Nat) : (d.hostRead x q cid u a n).qry = d.qry := (rfl)
@[simp] theorem Dev.hostRead_fn (d : Dev) (x q cid : Nat) (u : ReadFor) (a n : Nat) : (d.hostRead x q cid u a n).fn = d.fn := (rfl)
@[simp] theorem Dev.hostRead_fab (d : Dev) (x q cid : Nat) (u : ReadFor) (a n : Nat) : (d.hostRead x q cid u a n).fab = d.fab := (rfl)
@[simp] theorem Dev.hostRead_twin (d : Dev) (x q cid : Nat) (u : ReadFor) (a n : Nat) : (d.hostRead x q cid u a n).twin = d.twin := (rfl)
@[simp] theorem Dev.hostRead_mail (d : Dev) (x q cid : Nat) (u : ReadFor) (a n : Nat) : (d.hostRead x q cid u a n).mail = d.mail := (rfl)
@[simp] theorem Dev.hostRead_mem (d : Dev) (x q cid : Nat) (u : ReadFor) (a n : Nat) : (d.hostRead x q cid u a n).mem = d.mem := (rfl)
@[simp] theorem Dev.hostRead_health (d : Dev) (x q cid : Nat) (u : ReadFor) (a n : Nat) : (d.hostRead x q cid u a n).health = d.health := (rfl)
@[simp] theorem Dev.hostRead_pwr (d : Dev) (x q cid : Nat) (u : ReadFor) (a n : Nat) : (d.hostRead x q cid u a n).pwr = d.pwr := (rfl)
@[simp] theorem Dev.hostRead_start (d : Dev) (x q cid : Nat) (u : ReadFor) (a n : Nat) : (d.hostRead x q cid u a n).start = d.start := (rfl)
@[simp] theorem Dev.hostRead_sec (d : Dev) (x q cid : Nat) (u : ReadFor) (a n : Nat) : (d.hostRead x q cid u a n).sec = d.sec := (rfl)
@[simp] theorem Dev.hostRead_opSec (d : Dev) (x q cid : Nat) (u : ReadFor) (a n : Nat) : (d.hostRead x q cid u a n).opSec = d.opSec := (rfl)

/-! ### Reads of queue pairs, hearths and functions after them -/

@[simp] theorem Dev.qp_queueState (d : Dev) (x q y r : Nat) : (d.queueState x q).qp y r = d.qp y r := by simp [Dev.qp]
@[simp] theorem Dev.qp_twinSend (d : Dev) (k : Nat) (b : List Nat) (c : Bytes) (a : TAct) (x q : Nat) : (d.twinSend k b c a).qp x q = d.qp x q := by simp [Dev.qp]
@[simp] theorem Dev.qp_vector (d : Dev) (y v x q : Nat) : (d.vector y v).qp x q = d.qp x q := by
  unfold Dev.vector; dsimp only; repeat' split
  all_goals rfl
@[simp] theorem Dev.qp_hostWrite (d : Dev) (y a : Nat) (b : Bytes) (x q : Nat) : (d.hostWrite y a b).qp x q = d.qp x q := by
  unfold Dev.hostWrite; dsimp only; repeat' split
  all_goals rfl
@[simp] theorem Dev.qp_fnEvent (d : Dev) (y b : Nat) (e : Option Nat) (x q : Nat) : (d.fnEvent y b e).qp x q = d.qp x q := by
  unfold Dev.fnEvent; dsimp only; split <;> simp
@[simp] theorem Dev.qp_queueError (d : Dev) (x q r i : Nat) :
    (d.queueError x q r i).qp x q = { d.qp x q with state := .error, reason := r, errIndex := i } := by simp [Dev.queueError]
@[simp] theorem Dev.hearth_bump (d : Dev) (a n h : Nat) : (d.bump a n).hearth h = d.hearth h := by simp [Dev.hearth]
@[simp] theorem Dev.hearth_count64 (d : Dev) (a n h : Nat) : (d.count64 a n).hearth h = d.hearth h := by simp [Dev.hearth]
theorem Dev.setRegBytes_keep {α : Type} (P : Dev → α) (hP : ∀ d a w, P (Dev.setReg d a w) = P d) (d : Dev) (a : Nat) (b : Bytes) :
    P (d.setRegBytes a b) = P d := by
  unfold Dev.setRegBytes
  generalize List.range (ceilDiv b.length 4) = l
  induction l generalizing d with
  | nil => rfl
  | cons i r ih => simp only [List.foldl_cons]; rw [ih, hP]
@[simp] theorem Dev.hearth_setRegBytes (d : Dev) (a : Nat) (b : Bytes) (h : Nat) : (d.setRegBytes a b).hearth h = d.hearth h :=
  Dev.setRegBytes_keep (fun d => d.hearth h) (fun _ _ _ => rfl) d a b

/-- A write to host memory leaves at once where nothing holds it. -/
theorem Dev.hostWrite_sends (d : Dev) (x a : Nat) (b : Bytes) (h : d.sends x = true) : d.hostWrite x a b = d.send (.hostWrite x a b) := by
  simp only [Dev.sends, Bool.and_eq_true, Bool.not_eq_true'] at h
  simp [Dev.hostWrite, h]

/-- A vector leaves at once where nothing holds it and its entry is not masked. -/
theorem Dev.vector_sends (d : Dev) (x v : Nat) (h : d.sends x = true) (hm : ((d.fnGet x).msixWord (4 * v + 3)).getLsbD 0 = false) :
    d.vector x v = d.send (.vector x v) := by
  simp only [Dev.sends, Bool.and_eq_true, Bool.not_eq_true'] at h
  unfold Dev.vector; dsimp only
  rw [if_neg (by simp [h.1.1]), if_neg (by simp [h.1.2]), if_neg (by simp [h.2]), if_neg (by rw [hm]; simp)]

/-- An access of a function that its host reaches is carried out. -/
theorem Dev.fromHost_serves (d : Dev) (x t : Nat) (f : Dev → Dev) (h : d.serves x = true) : (d.at t).fromHost x f = f (d.at t) := by
  simp only [Dev.serves] at h
  have : (d.at t).fromHost x f = if (d.secOn && decide (x < 1026) && d.fnExists x && !(d.link (portOf x)).perst && !(d.start.banked && x != 0)) = true
    then f (d.at t) else d.at t := rfl
  rw [this, if_pos h]

end Sys2Proof.Machine
end

