-- ==== Sys2Proof/Laws/Memory.lean ====
section
/-!
SUPPORT. Sys2Proof/Laws/Memory.lean: device memory: what its operations write, and that each keeps the canonical form.
-/
namespace Sys2Proof.Machine

theorem reset_memory_wf : Memory.wf State.reset.dev.mem.bytes = true := by decide

/-! ### Reads after writes -/

theorem Dev.memRead_memWrite_other (d : Dev) (u off v o n : Nat) (b : Bytes)
    (h : ∀ i < n, memKey v o + i < memKey u off ∨ memKey u off + b.length ≤ memKey v o + i) :
    (d.memWrite u off b).memRead v o n = d.memRead v o n := by
  unfold Dev.memRead Dev.memWrite tabBytes
  refine List.map_congr_left (fun i hi => ?_)
  rw [tabGet_setBytes, if_neg]
  rcases h i (by simpa using hi) with g | g <;> omega

theorem Dev.memRead_memWrite (d : Dev) (u off : Nat) (b : Bytes) : (d.memWrite u off b).memRead u off b.length = b := by
  unfold Dev.memRead Dev.memWrite tabBytes
  refine List.ext_getElem (by simp) (fun i h1 h2 => ?_)
  simp only [List.getElem_map, List.getElem_range, tabGet_setBytes]
  rw [if_pos (by omega)]
  simp [List.getD_eq_getElem?_getD, h2]

/-! ### The canonical form -/

theorem filter_wf {α : Type} [DecidableEq α] (d : α) (t : Tab α) (p : Nat × α → Bool) (h : tabWf d t = true) : tabWf d (t.filter p) = true := by
  induction t with
  | nil => rfl
  | cons q r ih =>
    obtain ⟨k, v⟩ := q
    simp only [tabWf, Bool.and_eq_true, decide_eq_true_eq, List.all_eq_true] at h
    rw [List.filter_cons]
    split
    · simp only [tabWf, Bool.and_eq_true, decide_eq_true_eq, List.all_eq_true, List.mem_filter]
      exact ⟨⟨h.1.1, fun x hx => h.1.2 x hx.1⟩, ih h.2⟩
    · exact ih h.2

theorem Dev.memWrite_wf (d : Dev) (u off : Nat) (b : Bytes) (h : Memory.wf d.mem.bytes = true) : Memory.wf (d.memWrite u off b).mem.bytes = true :=
  setBytes_wf _ _ _ h

theorem Dev.memZero_wf (d : Dev) (u off n : Nat) (h : Memory.wf d.mem.bytes = true) : Memory.wf (d.memZero u off n).mem.bytes = true := filter_wf _ _ _ h

theorem Dev.memUnitUpd_bytes (d : Dev) (u : Nat) (f : MemUnit → MemUnit) : (d.memUnitUpd u f).mem.bytes = d.mem.bytes := (rfl)
theorem Dev.dropLines_bytes (d : Dev) (p : Nat → Bool) : (d.dropLines p).mem.bytes = d.mem.bytes := (rfl)
theorem Dev.setVictims_bytes (d : Dev) (sl : Nat) (l : List CLine) : (d.setVictims sl l).mem.bytes = d.mem.bytes := (rfl)
theorem Dev.csetUpd_bytes (d : Dev) (sl st : Nat) (f : CSet → CSet) : (d.csetUpd sl st f).mem.bytes = d.mem.bytes := (rfl)
theorem Dev.bankUpd_bytes (d : Dev) (k : Nat) (f : DBank → DBank) : (d.bankUpd k f).mem.bytes = d.mem.bytes := (rfl)
theorem Dev.bump_bytes (d : Dev) (a n : Nat) : (d.bump a n).mem.bytes = d.mem.bytes := by rw [Dev.bump_mem]

theorem foldl_bytes {α : Type} (f : Dev → α → Dev) (hf : ∀ d a, (f d a).mem.bytes = d.mem.bytes) (l : List α) (d : Dev) :
    (l.foldl f d).mem.bytes = d.mem.bytes := by
  induction l generalizing d with
  | nil => rfl
  | cons a r ih => rw [List.foldl_cons, ih, hf]

theorem Dev.activate_bytes (base rows k : Nat) : ∀ (n : Nat) (d : Dev) (r : Nat), (Dev.activate d base rows k n r).mem.bytes = d.mem.bytes
  | 0, _, _ => rfl
  | n + 1, d, r => by
    unfold Dev.activate
    dsimp only
    split
    · rfl
    · rw [Dev.bankUpd_bytes, foldl_bytes _ (fun d q => by rw [Dev.bump_bytes, Dev.activate_bytes base rows k n])]; rfl

theorem Dev.dramAccess_bytes (d : Dev) (u off : Nat) : (d.dramAccess u off).mem.bytes = d.mem.bytes := by
  unfold Dev.dramAccess
  dsimp only
  split <;> split <;> simp only [Dev.bankUpd_bytes, Dev.activate_bytes]

theorem Dev.install_bytes (d : Dev) (a lock : Nat) (b : Bytes) : (d.install a lock b).mem.bytes = d.mem.bytes := by
  unfold Dev.install
  dsimp only
  repeat' split
  all_goals simp only [Dev.setVictims_bytes, Dev.csetUpd_bytes]

theorem writes_wf (v g : Nat) (l : Tab Byte) (d : Dev) (h : Memory.wf d.mem.bytes = true) :
    Memory.wf (l.foldl (fun (d : Dev) p => d.memWrite v (g + p.1) [p.2]) d).mem.bytes = true := by
  induction l generalizing d with
  | nil => exact h
  | cons p r ih => exact ih _ (d.memWrite_wf _ _ _ h)

theorem Dev.zeroFrame_wf (d : Dev) (u f : Nat) (h : Memory.wf d.mem.bytes = true) : Memory.wf (d.zeroFrame u f).mem.bytes = true := by
  unfold Dev.zeroFrame
  split
  · exact d.memZero_wf u _ _ h
  · exact h

theorem Dev.moveFrame_wf (d : Dev) (u f v : Nat) (h : Memory.wf d.mem.bytes = true) :
    Memory.wf (d.moveFrame u f v).mem.bytes = true := by
  unfold Dev.moveFrame
  split
  · rw [Dev.bump_bytes]
    refine Dev.memZero_wf _ _ _ _ ?_
    exact writes_wf v _ _ d h
  · exact h

theorem Dev.writeLine_wf (d : Dev) (a o : Nat) (b : Bytes) (h : Memory.wf d.mem.bytes = true) : Memory.wf (d.writeLine a o b).mem.bytes = true := by
  unfold Dev.writeLine
  dsimp only
  rw [Dev.setVictims_bytes]
  split <;> simp only [Dev.csetUpd_bytes, Dev.dramAccess_bytes] <;> exact d.memWrite_wf _ _ _ h

theorem Dev.zeroLine_wf (d : Dev) (a lock : Nat) (h : Memory.wf d.mem.bytes = true) : Memory.wf (d.zeroLine a lock).mem.bytes = true := by
  unfold Dev.zeroLine
  dsimp only
  split
  · exact d.writeLine_wf _ _ _ h
  · rw [Dev.install_bytes, Dev.setVictims_bytes]; exact d.writeLine_wf _ _ _ h

end Sys2Proof.Machine
end

