-- ==== Sys2Proof/Laws/PerInstr.lean ====
section
/-!
SUPPORT. Sys2Proof/Laws/PerInstr.lean: for every command: where it is a well-formed instruction of the expression unit, it names a hearth of the part
and a word that the checks of a single word let through.
-/
namespace Sys2Proof.Laws.Wf

open Sys2Proof.Machine

/-- What a well-formed instruction of the expression unit names. -/
def Statement (i : Instr) : Prop := i.wf = true → ∀ e, i.exu = some e → e.2.1 < 36 ∧ xWordOk e.1 e.2.2 = true

theorem no_unit : ∀ e : XOp × Nat × XFields, none = some e → e.2.1 < 36 ∧ xWordOk e.1 e.2.2 = true := fun _ h => nomatch h

theorem unit_bounds (op : XOp) (h : Nat) (w : XFields) (flt : Option XFault) :
    unitOk op h w flt = true → ∀ e, some (op, h, w) = some e → e.2.1 < 36 ∧ xWordOk e.1 e.2.2 = true := by
  intro hw e he
  cases he
  simp only [unitOk, Bool.and_eq_true, decide_eq_true_eq] at hw
  exact ⟨hw.1.1, hw.1.2⟩

theorem querySubmit (t : Nat) (x : Nat) (q : Nat) (cid : Nat) : Statement (.querySubmit t x q cid) := fun _ => no_unit
theorem ingest (t : Nat) (x : Nat) (q : Nat) (cid : Nat) : Statement (.ingest t x q cid) := fun _ => no_unit
theorem readPages (t : Nat) (x : Nat) (q : Nat) (cid : Nat) : Statement (.readPages t x q cid) := fun _ => no_unit
theorem flush (t : Nat) (x : Nat) (q : Nat) (cid : Nat) : Statement (.flush t x q cid) := fun _ => no_unit
theorem abort (t : Nat) (x : Nat) (q : Nat) (cid : Nat) : Statement (.abort t x q cid) := fun _ => no_unit
theorem snapshot (t : Nat) (x : Nat) (q : Nat) (cid : Nat) : Statement (.snapshot t x q cid) := fun _ => no_unit
theorem digest (t : Nat) (x : Nat) (q : Nat) (cid : Nat) : Statement (.digest t x q cid) := fun _ => no_unit
theorem compress (t : Nat) (x : Nat) (q : Nat) (cid : Nat) : Statement (.compress t x q cid) := fun _ => no_unit
theorem entryFetch (t : Nat) (port : Nat) (es : List FetchEnt) : Statement (.entryFetch t port es) := fun _ => no_unit
theorem qpSqDoorbell (t : Nat) (x : Nat) (q : Nat) (v : Nat) : Statement (.qpSqDoorbell t x q v) := fun _ => no_unit
theorem qpCqDoorbell (t : Nat) (x : Nat) (q : Nat) (v : Nat) : Statement (.qpCqDoorbell t x q v) := fun _ => no_unit
theorem queueEnable (t : Nat) (x : Nat) (q : Nat) : Statement (.queueEnable t x q) := fun _ => no_unit
theorem queueDisable (t : Nat) (x : Nat) (q : Nat) : Statement (.queueDisable t x q) := fun _ => no_unit
theorem queueReset (t : Nat) (x : Nat) (q : Nat) : Statement (.queueReset t x q) := fun _ => no_unit
theorem queueResetDone (t : Nat) (x : Nat) (q : Nat) : Statement (.queueResetDone t x q) := fun _ => no_unit
theorem completionPost (t : Nat) (x : Nat) (q : Nat) : Statement (.completionPost t x q) := fun _ => no_unit
theorem moderationTimeout (t : Nat) (x : Nat) (q : Nat) : Statement (.moderationTimeout t x q) := fun _ => no_unit
theorem d3hotEntry (t : Nat) (x : Nat) : Statement (.d3hotEntry t x) := fun _ => no_unit
theorem d0Return (t : Nat) (x : Nat) : Statement (.d0Return t x) := fun _ => no_unit
theorem registerWrite (t : Nat) (x : Nat) (o : Nat) (size : Nat) (v : Nat) : Statement (.registerWrite t x o size v) := fun _ => no_unit
theorem functionReset (t : Nat) (x : Nat) : Statement (.functionReset t x) := fun _ => no_unit
theorem functionResetAbandon (t : Nat) (h : Nat) (clocks : Nat) : Statement (.functionResetAbandon t h clocks) := fun _ => no_unit
theorem vfResetDone (t : Nat) (x : Nat) : Statement (.vfResetDone t x) := fun _ => no_unit
theorem perstAssert (t : Nat) (port : Nat) : Statement (.perstAssert t port) := fun _ => no_unit
theorem vfEnable (t : Nat) (port : Nat) (n : Nat) : Statement (.vfEnable t port n) := fun _ => no_unit
theorem vfDisable (t : Nat) (port : Nat) (n : Nat) : Statement (.vfDisable t port n) := fun _ => no_unit
theorem atsInvalidation (t : Nat) (x : Nat) (addr : Nat) : Statement (.atsInvalidation t x addr) := fun _ => no_unit
theorem ringStallPoll (t : Nat) (id : Nat) (e : Nat) (v : Option Nat) : Statement (.ringStallPoll t id e v) := fun _ => no_unit
theorem producedCountAdvance (t : Nat) (id : Nat) (e : Nat) : Statement (.producedCountAdvance t id e) := fun _ => no_unit
theorem imageFetched (t : Nat) (x : Nat) (q : Nat) (cid : Nat) : Statement (.imageFetched t x q cid) := fun _ => no_unit
theorem chargeCut (t : Nat) (id : Nat) (i : Nat) (perUnit : Nat) (once : Nat) : Statement (.chargeCut t id i perUnit once) := fun _ => no_unit
theorem slotFill (t : Nat) (h : Nat) : Statement (.slotFill t h) := fun _ => no_unit
theorem chargeStart (t : Nat) (h : Nat) : Statement (.chargeStart t h) := fun _ => no_unit
theorem steal (t : Nat) (h : Nat) : Statement (.steal t h) := fun _ => no_unit
theorem chargeDone (t : Nat) (h : Nat) (used : Spent) : Statement (.chargeDone t h used) := fun _ => no_unit
theorem release (t : Nat) (id : Nat) (i : Nat) : Statement (.release t id i) := fun _ => no_unit
theorem cancel (t : Nat) (h : Nat) (clocks : Nat) : Statement (.cancel t h clocks) := fun _ => no_unit
theorem restart (t : Nat) (h : Nat) (clocks : Nat) : Statement (.restart t h clocks) := fun _ => no_unit
theorem delayFire (t : Nat) (l : Nat) (v : Option Nat) : Statement (.delayFire t l v) := fun _ => no_unit
theorem delayFull (t : Nat) (l : Nat) (ticks : Nat) (tag : Nat) : Statement (.delayFull t l ticks tag) := fun _ => no_unit
theorem traceEnable (t : Nat) (x : Nat) (value : Nat) (expected : Nat) (count : Nat) : Statement (.traceEnable t x value expected count) := fun _ => no_unit
theorem engineBlockDone (t : Nat) (comp : Bool) (b : EngBlock) : Statement (.engineBlockDone t comp b) := fun _ => no_unit
theorem xNop (h : Nat) (w : XFields) (flt : Option XFault) : Statement (.xNop h w flt) := unit_bounds .nop h w flt
theorem xEnd (h : Nat) (w : XFields) (flt : Option XFault) : Statement (.xEnd h w flt) := unit_bounds .endS h w flt
theorem xBrz (h : Nat) (w : XFields) (flt : Option XFault) : Statement (.xBrz h w flt) := unit_bounds .brz h w flt
theorem xBrnz (h : Nat) (w : XFields) (flt : Option XFault) : Statement (.xBrnz h w flt) := unit_bounds .brnz h w flt
theorem xBrmz (h : Nat) (w : XFields) (flt : Option XFault) : Statement (.xBrmz h w flt) := unit_bounds .brmz h w flt
theorem xSetsel (h : Nat) (w : XFields) (flt : Option XFault) : Statement (.xSetsel h w flt) := unit_bounds .setsel h w flt
theorem xOut (h : Nat) (w : XFields) (flt : Option XFault) : Statement (.xOut h w flt) := unit_bounds .outV h w flt
theorem xMout (h : Nat) (w : XFields) (flt : Option XFault) : Statement (.xMout h w flt) := unit_bounds .mout h w flt
theorem xEclr (h : Nat) (w : XFields) (flt : Option XFault) : Statement (.xEclr h w flt) := unit_bounds .eclr h w flt
theorem xVld (h : Nat) (w : XFields) (flt : Option XFault) : Statement (.xVld h w flt) := unit_bounds .vld h w flt
theorem xVldf (h : Nat) (w : XFields) (flt : Option XFault) : Statement (.xVldf h w flt) := unit_bounds .vldf h w flt
theorem xVld2 (h : Nat) (w : XFields) (flt : Option XFault) : Statement (.xVld2 h w flt) := unit_bounds .vld2 h w flt
theorem xVld3 (h : Nat) (w : XFields) (flt : Option XFault) : Statement (.xVld3 h w flt) := unit_bounds .vld3 h w flt
theorem xVld4 (h : Nat) (w : XFields) (flt : Option XFault) : Statement (.xVld4 h w flt) := unit_bounds .vld4 h w flt
theorem xTst (h : Nat) (w : XFields) (flt : Option XFault) : Statement (.xTst h w flt) := unit_bounds .tst h w flt
theorem xVrow (h : Nat) (w : XFields) (flt : Option XFault) : Statement (.xVrow h w flt) := unit_bounds .vrow h w flt
theorem xMld (h : Nat) (w : XFields) (flt : Option XFault) : Statement (.xMld h w flt) := unit_bounds .mld h w flt
theorem xVldn (h : Nat) (w : XFields) (flt : Option XFault) : Statement (.xVldn h w flt) := unit_bounds .vldn h w flt
theorem xVbc (h : Nat) (w : XFields) (flt : Option XFault) : Statement (.xVbc h w flt) := unit_bounds .vbc h w flt
theorem xVbp (h : Nat) (w : XFields) (flt : Option XFault) : Statement (.xVbp h w flt) := unit_bounds .vbp h w flt
theorem xSlc (h : Nat) (w : XFields) (flt : Option XFault) : Statement (.xSlc h w flt) := unit_bounds .slc h w flt
theorem xSlp (h : Nat) (w : XFields) (flt : Option XFault) : Statement (.xSlp h w flt) := unit_bounds .slp h w flt
theorem xSli (h : Nat) (w : XFields) (flt : Option XFault) : Statement (.xSli h w flt) := unit_bounds .sli h w flt
theorem xVbs (h : Nat) (w : XFields) (flt : Option XFault) : Statement (.xVbs h w flt) := unit_bounds .vbs h w flt
theorem xViota (h : Nat) (w : XFields) (flt : Option XFault) : Statement (.xViota h w flt) := unit_bounds .viota h w flt
theorem xAdd (h : Nat) (w : XFields) (flt : Option XFault) : Statement (.xAdd h w flt) := unit_bounds .add h w flt
theorem xSub (h : Nat) (w : XFields) (flt : Option XFault) : Statement (.xSub h w flt) := unit_bounds .sub h w flt
theorem xAnd (h : Nat) (w : XFields) (flt : Option XFault) : Statement (.xAnd h w flt) := unit_bounds .and h w flt
theorem xOr (h : Nat) (w : XFields) (flt : Option XFault) : Statement (.xOr h w flt) := unit_bounds .or h w flt
theorem xXor (h : Nat) (w : XFields) (flt : Option XFault) : Statement (.xXor h w flt) := unit_bounds .xor h w flt
theorem xShl (h : Nat) (w : XFields) (flt : Option XFault) : Statement (.xShl h w flt) := unit_bounds .shl h w flt
theorem xShr (h : Nat) (w : XFields) (flt : Option XFault) : Statement (.xShr h w flt) := unit_bounds .shr h w flt
theorem xMin (h : Nat) (w : XFields) (flt : Option XFault) : Statement (.xMin h w flt) := unit_bounds .min h w flt
theorem xMax (h : Nat) (w : XFields) (flt : Option XFault) : Statement (.xMax h w flt) := unit_bounds .max h w flt
theorem xAbs (h : Nat) (w : XFields) (flt : Option XFault) : Statement (.xAbs h w flt) := unit_bounds .abs h w flt
theorem xNeg (h : Nat) (w : XFields) (flt : Option XFault) : Statement (.xNeg h w flt) := unit_bounds .neg h w flt
theorem xNot (h : Nat) (w : XFields) (flt : Option XFault) : Statement (.xNot h w flt) := unit_bounds .not h w flt
theorem xMul (h : Nat) (w : XFields) (flt : Option XFault) : Statement (.xMul h w flt) := unit_bounds .mul h w flt
theorem xMulh (h : Nat) (w : XFields) (flt : Option XFault) : Statement (.xMulh h w flt) := unit_bounds .mulh h w flt
theorem xWmul (h : Nat) (w : XFields) (flt : Option XFault) : Statement (.xWmul h w flt) := unit_bounds .wmul h w flt
theorem xDot8 (h : Nat) (w : XFields) (flt : Option XFault) : Statement (.xDot8 h w flt) := unit_bounds .dot8 h w flt
theorem xDot16 (h : Nat) (w : XFields) (flt : Option XFault) : Statement (.xDot16 h w flt) := unit_bounds .dot16 h w flt
theorem xDiv (h : Nat) (w : XFields) (flt : Option XFault) : Statement (.xDiv h w flt) := unit_bounds .div h w flt
theorem xRem (h : Nat) (w : XFields) (flt : Option XFault) : Statement (.xRem h w flt) := unit_bounds .rem h w flt
theorem xDivrem (h : Nat) (w : XFields) (flt : Option XFault) : Statement (.xDivrem h w flt) := unit_bounds .divrem h w flt
theorem xFadd (h : Nat) (w : XFields) (flt : Option XFault) : Statement (.xFadd h w flt) := unit_bounds .fadd h w flt
theorem xFsub (h : Nat) (w : XFields) (flt : Option XFault) : Statement (.xFsub h w flt) := unit_bounds .fsub h w flt
theorem xFmul (h : Nat) (w : XFields) (flt : Option XFault) : Statement (.xFmul h w flt) := unit_bounds .fmul h w flt
theorem xFdiv (h : Nat) (w : XFields) (flt : Option XFault) : Statement (.xFdiv h w flt) := unit_bounds .fdiv h w flt
theorem xFsqrt (h : Nat) (w : XFields) (flt : Option XFault) : Statement (.xFsqrt h w flt) := unit_bounds .fsqrt h w flt
theorem xFma (h : Nat) (w : XFields) (flt : Option XFault) : Statement (.xFma h w flt) := unit_bounds .fma h w flt
theorem xFmin (h : Nat) (w : XFields) (flt : Option XFault) : Statement (.xFmin h w flt) := unit_bounds .fmin h w flt
theorem xFmax (h : Nat) (w : XFields) (flt : Option XFault) : Statement (.xFmax h w flt) := unit_bounds .fmax h w flt
theorem xFabs (h : Nat) (w : XFields) (flt : Option XFault) : Statement (.xFabs h w flt) := unit_bounds .fabs h w flt
theorem xFneg (h : Nat) (w : XFields) (flt : Option XFault) : Statement (.xFneg h w flt) := unit_bounds .fneg h w flt
theorem xCvt (h : Nat) (w : XFields) (flt : Option XFault) : Statement (.xCvt h w flt) := unit_bounds .cvt h w flt
theorem xDadd (h : Nat) (w : XFields) (flt : Option XFault) : Statement (.xDadd h w flt) := unit_bounds .dadd h w flt
theorem xDsub (h : Nat) (w : XFields) (flt : Option XFault) : Statement (.xDsub h w flt) := unit_bounds .dsub h w flt
theorem xDmul (h : Nat) (w : XFields) (flt : Option XFault) : Statement (.xDmul h w flt) := unit_bounds .dmul h w flt
theorem xDdiv (h : Nat) (w : XFields) (flt : Option XFault) : Statement (.xDdiv h w flt) := unit_bounds .ddiv h w flt
theorem xDscale (h : Nat) (w : XFields) (flt : Option XFault) : Statement (.xDscale h w flt) := unit_bounds .dscale h w flt
theorem xPadd (h : Nat) (w : XFields) (flt : Option XFault) : Statement (.xPadd h w flt) := unit_bounds .padd h w flt
theorem xPsub (h : Nat) (w : XFields) (flt : Option XFault) : Statement (.xPsub h w flt) := unit_bounds .psub h w flt
theorem xPchk (h : Nat) (w : XFields) (flt : Option XFault) : Statement (.xPchk h w flt) := unit_bounds .pchk h w flt
theorem xCmp (h : Nat) (w : XFields) (flt : Option XFault) : Statement (.xCmp h w flt) := unit_bounds .cmp h w flt
theorem xVsel (h : Nat) (w : XFields) (flt : Option XFault) : Statement (.xVsel h w flt) := unit_bounds .vsel h w flt
theorem xValid (h : Nat) (w : XFields) (flt : Option XFault) : Statement (.xValid h w flt) := unit_bounds .valid h w flt
theorem xSetnull (h : Nat) (w : XFields) (flt : Option XFault) : Statement (.xSetnull h w flt) := unit_bounds .setnull h w flt
theorem xMand (h : Nat) (w : XFields) (flt : Option XFault) : Statement (.xMand h w flt) := unit_bounds .mand h w flt
theorem xMor (h : Nat) (w : XFields) (flt : Option XFault) : Statement (.xMor h w flt) := unit_bounds .mor h w flt
theorem xMxor (h : Nat) (w : XFields) (flt : Option XFault) : Statement (.xMxor h w flt) := unit_bounds .mxor h w flt
theorem xMandn (h : Nat) (w : XFields) (flt : Option XFault) : Statement (.xMandn h w flt) := unit_bounds .mandn h w flt
theorem xMnot (h : Nat) (w : XFields) (flt : Option XFault) : Statement (.xMnot h w flt) := unit_bounds .mnot h w flt
theorem xMmov (h : Nat) (w : XFields) (flt : Option XFault) : Statement (.xMmov h w flt) := unit_bounds .mmov h w flt
theorem xMcnt (h : Nat) (w : XFields) (flt : Option XFault) : Statement (.xMcnt h w flt) := unit_bounds .mcnt h w flt
theorem xMerr (h : Nat) (w : XFields) (flt : Option XFault) : Statement (.xMerr h w flt) := unit_bounds .merr h w flt
theorem xMovf (h : Nat) (w : XFields) (flt : Option XFault) : Statement (.xMovf h w flt) := unit_bounds .movf h w flt
theorem xVgath (h : Nat) (w : XFields) (flt : Option XFault) : Statement (.xVgath h w flt) := unit_bounds .vgath h w flt
theorem xVscat (h : Nat) (w : XFields) (flt : Option XFault) : Statement (.xVscat h w flt) := unit_bounds .vscat h w flt
theorem xVlds (h : Nat) (w : XFields) (flt : Option XFault) : Statement (.xVlds h w flt) := unit_bounds .vlds h w flt
theorem xVsts (h : Nat) (w : XFields) (flt : Option XFault) : Statement (.xVsts h w flt) := unit_bounds .vsts h w flt
theorem xScmp (h : Nat) (w : XFields) (flt : Option XFault) : Statement (.xScmp h w flt) := unit_bounds .scmp h w flt
theorem xSpre (h : Nat) (w : XFields) (flt : Option XFault) : Statement (.xSpre h w flt) := unit_bounds .spre h w flt
theorem xSsuf (h : Nat) (w : XFields) (flt : Option XFault) : Statement (.xSsuf h w flt) := unit_bounds .ssuf h w flt
theorem xSfind (h : Nat) (w : XFields) (flt : Option XFault) : Statement (.xSfind h w flt) := unit_bounds .sfind h w flt
theorem xSlen (h : Nat) (w : XFields) (flt : Option XFault) : Statement (.xSlen h w flt) := unit_bounds .slen h w flt
theorem xStrSsub (h : Nat) (w : XFields) (flt : Option XFault) : Statement (.xStrSsub h w flt) := unit_bounds .strSsub h w flt
theorem xRpm (h : Nat) (w : XFields) (flt : Option XFault) : Statement (.xRpm h w flt) := unit_bounds .rpm h w flt
theorem xRpx (h : Nat) (w : XFields) (flt : Option XFault) : Statement (.xRpx h w flt) := unit_bounds .rpx h w flt
theorem xCml (h : Nat) (w : XFields) (flt : Option XFault) : Statement (.xCml h w flt) := unit_bounds .cml h w flt
theorem xSadd (h : Nat) (w : XFields) (flt : Option XFault) : Statement (.xSadd h w flt) := unit_bounds .sadd h w flt
theorem xScalSsub (h : Nat) (w : XFields) (flt : Option XFault) : Statement (.xScalSsub h w flt) := unit_bounds .scalSsub h w flt
theorem xSand (h : Nat) (w : XFields) (flt : Option XFault) : Statement (.xSand h w flt) := unit_bounds .sand h w flt
theorem xSor (h : Nat) (w : XFields) (flt : Option XFault) : Statement (.xSor h w flt) := unit_bounds .sor h w flt
theorem xSxor (h : Nat) (w : XFields) (flt : Option XFault) : Statement (.xSxor h w flt) := unit_bounds .sxor h w flt
theorem xSshl (h : Nat) (w : XFields) (flt : Option XFault) : Statement (.xSshl h w flt) := unit_bounds .sshl h w flt
theorem xSshr (h : Nat) (w : XFields) (flt : Option XFault) : Statement (.xSshr h w flt) := unit_bounds .sshr h w flt
theorem xSmul (h : Nat) (w : XFields) (flt : Option XFault) : Statement (.xSmul h w flt) := unit_bounds .smul h w flt
theorem xSmov (h : Nat) (w : XFields) (flt : Option XFault) : Statement (.xSmov h w flt) := unit_bounds .smov h w flt
theorem xSlt (h : Nat) (w : XFields) (flt : Option XFault) : Statement (.xSlt h w flt) := unit_bounds .slt h w flt
theorem xSltu (h : Nat) (w : XFields) (flt : Option XFault) : Statement (.xSltu h w flt) := unit_bounds .sltu h w flt
theorem xRadd (h : Nat) (w : XFields) (flt : Option XFault) : Statement (.xRadd h w flt) := unit_bounds .radd h w flt
theorem xRmin (h : Nat) (w : XFields) (flt : Option XFault) : Statement (.xRmin h w flt) := unit_bounds .rmin h w flt
theorem xRmax (h : Nat) (w : XFields) (flt : Option XFault) : Statement (.xRmax h w flt) := unit_bounds .rmax h w flt
theorem faultResolved (t : Nat) (h : Nat) (flt : Option XFault) : Statement (.faultResolved t h flt) := fun _ => no_unit
theorem wideIdleTimeout (t : Nat) (h : Nat) : Statement (.wideIdleTimeout t h) := fun _ => no_unit
theorem widePowerDownDone (t : Nat) (h : Nat) : Statement (.widePowerDownDone t h) := fun _ => no_unit
theorem wideUnitReady (t : Nat) (h : Nat) : Statement (.wideUnitReady t h) := fun _ => no_unit
theorem exuCtrlWrite (t : Nat) (x : Nat) (h : Nat) (value : Nat) (expected : Nat) (count : Nat) : Statement (.exuCtrlWrite t x h value expected count) := fun _ => no_unit
theorem cmtScrub (t : Nat) (h : Nat) (found : Option CareUnit) (copyBad : Bool) (others : List CareUnit) : Statement (.cmtScrub t h found copyBad others) := fun _ => no_unit
theorem systemTableApply (t : Nat) (h : Nat) : Statement (.systemTableApply t h) := fun _ => no_unit
theorem vxpData (t : Nat) (k : VPkt) : Statement (.vxpData t k) := fun _ => no_unit
theorem vxpAck (t : Nat) (k : VPkt) : Statement (.vxpAck t k) := fun _ => no_unit
theorem flowAck (t : Nat) (k : VPkt) : Statement (.flowAck t k) := fun _ => no_unit
theorem vxpHello (t : Nat) (k : VPkt) : Statement (.vxpHello t k) := fun _ => no_unit
theorem helloAck (t : Nat) (k : VPkt) : Statement (.helloAck t k) := fun _ => no_unit
theorem resume (t : Nat) (k : VPkt) : Statement (.resume t k) := fun _ => no_unit
theorem resumeAck (t : Nat) (k : VPkt) : Statement (.resumeAck t k) := fun _ => no_unit
theorem resend (t : Nat) (k : VPkt) : Statement (.resend t k) := fun _ => no_unit
theorem keepalive (t : Nat) (k : VPkt) : Statement (.keepalive t k) := fun _ => no_unit
theorem close (t : Nat) (k : VPkt) : Statement (.close t k) := fun _ => no_unit
theorem rtoExpiry (t : Nat) (peer : Nat) (me : Nat) : Statement (.rtoExpiry t peer me) := fun _ => no_unit
theorem ratePeriod (t : Nat) (peer : Nat) (me : Nat) : Statement (.ratePeriod t peer me) := fun _ => no_unit
theorem ackTimer (t : Nat) (peer : Nat) (me : Nat) : Statement (.ackTimer t peer me) := fun _ => no_unit
theorem keepaliveTimer (t : Nat) (peer : Nat) (me : Nat) : Statement (.keepaliveTimer t peer me) := fun _ => no_unit
theorem peerLost (t : Nat) (peer : Nat) : Statement (.peerLost t peer) := fun _ => no_unit
theorem fabricPortDown (t : Nat) (half : Nat) : Statement (.fabricPortDown t half) := fun _ => no_unit
theorem fabricPortUp (t : Nat) (half : Nat) : Statement (.fabricPortUp t half) := fun _ => no_unit
theorem fabCtrlWrite (t : Nat) (x : Nat) (p : Nat) (value : Nat) (expected : Nat) (count : Nat) : Statement (.fabCtrlWrite t x p value expected count) := fun _ => no_unit
theorem frameMove (t : Nat) (u : Nat) (f : Nat) (dest : Nat) : Statement (.frameMove t u f dest) := fun _ => no_unit
theorem frameZeroing (t : Nat) (u : Nat) (f : Nat) : Statement (.frameZeroing t u f) := fun _ => no_unit
theorem rowRepair (t : Nat) (u : Nat) (off : Nat) (resource : Bool) : Statement (.rowRepair t u off resource) := fun _ => no_unit
theorem patrolScrubStep (t : Nat) (u : Nat) (lines : Nat) (errs : List (Nat × MemErr)) : Statement (.patrolScrubStep t u lines errs) := fun _ => no_unit
theorem refreshWindowEnd (t : Nat) (u : Nat) : Statement (.refreshWindowEnd t u) := fun _ => no_unit
theorem rowIdleTimeout (t : Nat) (u : Nat) (off : Nat) : Statement (.rowIdleTimeout t u off) := fun _ => no_unit
theorem zqCalibration (t : Nat) (u : Nat) : Statement (.zqCalibration t u) := fun _ => no_unit
theorem dqsTracking (t : Nat) (u : Nat) : Statement (.dqsTracking t u) := fun _ => no_unit
theorem bankRetentionEntry (t : Nat) (h : Nat) (b : Nat) : Statement (.bankRetentionEntry t h b) := fun _ => no_unit
theorem bankWake (t : Nat) (h : Nat) (b : Nat) : Statement (.bankWake t h b) := fun _ => no_unit
theorem columnRepair (t : Nat) (h : Nat) (b : Nat) : Statement (.columnRepair t h b) := fun _ => no_unit
theorem cacheRead (t : Nat) (ctx : Nat) (dva : Nat) (err : MemErr) : Statement (.cacheRead t ctx dva err) := fun _ => no_unit
theorem cacheWrite (t : Nat) (ctx : Nat) (dva : Nat) (b : Bytes) : Statement (.cacheWrite t ctx dva b) := fun _ => no_unit
theorem zeroLine (t : Nat) (ctx : Nat) (dva : Nat) : Statement (.zeroLine t ctx dva) := fun _ => no_unit
theorem sessionOpen (t : Nat) (x : Nat) (r : MbReq) : Statement (.sessionOpen t x r) := fun _ => no_unit
theorem sessionClose (t : Nat) (x : Nat) (r : MbReq) : Statement (.sessionClose t x r) := fun _ => no_unit
theorem identify (t : Nat) (x : Nat) (r : MbReq) : Statement (.identify t x r) := fun _ => no_unit
theorem eventRead (t : Nat) (x : Nat) (r : MbReq) : Statement (.eventRead t x r) := fun _ => no_unit
theorem opStatus (t : Nat) (x : Nat) (r : MbReq) : Statement (.opStatus t x r) := fun _ => no_unit
theorem opCancel (t : Nat) (x : Nat) (r : MbReq) : Statement (.opCancel t x r) := fun _ => no_unit
theorem regRead (t : Nat) (x : Nat) (r : MbReq) : Statement (.regRead t x r) := fun _ => no_unit
theorem regWrite (t : Nat) (x : Nat) (r : MbReq) : Statement (.regWrite t x r) := fun _ => no_unit
theorem memRead (t : Nat) (x : Nat) (r : MbReq) : Statement (.memRead t x r) := fun _ => no_unit
theorem policySet (t : Nat) (x : Nat) (r : MbReq) : Statement (.policySet t x r) := fun _ => no_unit
theorem nodeSet (t : Nat) (x : Nat) (r : MbReq) : Statement (.nodeSet t x r) := fun _ => no_unit
theorem sharingGroupSet (t : Nat) (x : Nat) (r : MbReq) : Statement (.sharingGroupSet t x r) := fun _ => no_unit
theorem modeSet (t : Nat) (x : Nat) (r : MbReq) : Statement (.modeSet t x r) := fun _ => no_unit
theorem vfSharesSet (t : Nat) (x : Nat) (r : MbReq) : Statement (.vfSharesSet t x r) := fun _ => no_unit
theorem systemTableWrite (t : Nat) (x : Nat) (r : MbReq) : Statement (.systemTableWrite t x r) := fun _ => no_unit
theorem tsCreate (t : Nat) (x : Nat) (r : MbReq) : Statement (.tsCreate t x r) := fun _ => no_unit
theorem tsDelete (t : Nat) (x : Nat) (r : MbReq) : Statement (.tsDelete t x r) := fun _ => no_unit
theorem tsConfig (t : Nat) (x : Nat) (r : MbReq) : Statement (.tsConfig t x r) := fun _ => no_unit
theorem tableCreate (t : Nat) (x : Nat) (r : MbReq) : Statement (.tableCreate t x r) := fun _ => no_unit
theorem tableDrop (t : Nat) (x : Nat) (r : MbReq) : Statement (.tableDrop t x r) := fun _ => no_unit
theorem tableAlter (t : Nat) (x : Nat) (r : MbReq) : Statement (.tableAlter t x r) := fun _ => no_unit
theorem tableValidationSet (t : Nat) (x : Nat) (r : MbReq) : Statement (.tableValidationSet t x r) := fun _ => no_unit
theorem commitHistory (t : Nat) (x : Nat) (r : MbReq) : Statement (.commitHistory t x r) := fun _ => no_unit
theorem tsSecureErase (t : Nat) (x : Nat) (r : MbReq) : Statement (.tsSecureErase t x r) := fun _ => no_unit
theorem groupCreate (t : Nat) (x : Nat) (r : MbReq) : Statement (.groupCreate t x r) := fun _ => no_unit
theorem spareAssign (t : Nat) (x : Nat) (r : MbReq) : Statement (.spareAssign t x r) := fun _ => no_unit
theorem rebuildStart (t : Nat) (x : Nat) (r : MbReq) : Statement (.rebuildStart t x r) := fun _ => no_unit
theorem relayout (t : Nat) (x : Nat) (r : MbReq) : Statement (.relayout t x r) := fun _ => no_unit
theorem scrub (t : Nat) (x : Nat) (r : MbReq) : Statement (.scrub t x r) := fun _ => no_unit
theorem memPairOffline (t : Nat) (x : Nat) (r : MbReq) : Statement (.memPairOffline t x r) := fun _ => no_unit
theorem memPairOnline (t : Nat) (x : Nat) (r : MbReq) : Statement (.memPairOnline t x r) := fun _ => no_unit
theorem cacheInvalidate (t : Nat) (x : Nat) (r : MbReq) : Statement (.cacheInvalidate t x r) := fun _ => no_unit
theorem claim (t : Nat) (x : Nat) (r : MbReq) : Statement (.claim t x r) := fun _ => no_unit
theorem releaseClaim (t : Nat) (x : Nat) (r : MbReq) : Statement (.releaseClaim t x r) := fun _ => no_unit
theorem claimsList (t : Nat) (x : Nat) (r : MbReq) : Statement (.claimsList t x r) := fun _ => no_unit
theorem fwStage (t : Nat) (x : Nat) (r : MbReq) : Statement (.fwStage t x r) := fun _ => no_unit
theorem fwActivate (t : Nat) (x : Nat) (r : MbReq) : Statement (.fwActivate t x r) := fun _ => no_unit
theorem fwActivateFailed (t : Nat) (stage : Nat) (minor : Nat) : Statement (.fwActivateFailed t stage minor) := fun _ => no_unit
theorem fwSelect (t : Nat) (x : Nat) (r : MbReq) : Statement (.fwSelect t x r) := fun _ => no_unit
theorem fwStatus (t : Nat) (x : Nat) (r : MbReq) : Statement (.fwStatus t x r) := fun _ => no_unit
theorem mailboxOverrun (t : Nat) (x : Nat) : Statement (.mailboxOverrun t x) := fun _ => no_unit
theorem longOpStep (t : Nat) (handle : Nat) (f : StepIn) : Statement (.longOpStep t handle f) := fun _ => no_unit
theorem sharePortSplit (t : Nat) (x : Nat) (value : Nat) (expected : Nat) (count : Nat) : Statement (.sharePortSplit t x value expected count) := fun _ => no_unit
theorem commitDataWritten (t : Nat) (ts : Nat) (epoch : Nat) : Statement (.commitDataWritten t ts epoch) := fun _ => no_unit
theorem commitRecordDurable (t : Nat) (ts : Nat) (epoch : Nat) : Statement (.commitRecordDurable t ts epoch) := fun _ => no_unit
theorem journalCheckpoint (t : Nat) (g : Nat) : Statement (.journalCheckpoint t g) := fun _ => no_unit
theorem reclamationStep (t : Nat) (ts : Nat) : Statement (.reclamationStep t ts) := fun _ => no_unit
theorem driveCommandComplete (t : Nat) (n : Nat) (res : DriveRes) : Statement (.driveCommandComplete t n res) := fun _ => no_unit
theorem shortReadRetry (t : Nat) (n : Nat) : Statement (.shortReadRetry t n) := fun _ => no_unit
theorem driveCmdTimeout (t : Nat) (n : Nat) : Statement (.driveCmdTimeout t n) := fun _ => no_unit
theorem driveAbortTimeout (t : Nat) (n : Nat) : Statement (.driveAbortTimeout t n) := fun _ => no_unit
theorem driveResetTimeout (t : Nat) (slot : Nat) : Statement (.driveResetTimeout t slot) := fun _ => no_unit
theorem driveInsertion (t : Nat) (slot : Nat) : Statement (.driveInsertion t slot) := fun _ => no_unit
theorem driveRefclkStart (t : Nat) (slot : Nat) : Statement (.driveRefclkStart t slot) := fun _ => no_unit
theorem drivePerstRelease (t : Nat) (slot : Nat) : Statement (.drivePerstRelease t slot) := fun _ => no_unit
theorem driveLinkUp (t : Nat) (slot : Nat) (f : DriveIn) (rings : StageIn) : Statement (.driveLinkUp t slot f rings) := fun _ => no_unit
theorem driveRemoval (t : Nat) (slot : Nat) : Statement (.driveRemoval t slot) := fun _ => no_unit
theorem rebuildStep (t : Nat) (g : Nat) (pos : Nat) : Statement (.rebuildStep t g pos) := fun _ => no_unit
theorem twinHello (t : Nat) (seq : Nat) (hello : THello) : Statement (.twinHello t seq hello) := fun _ => no_unit
theorem heartbeat (t : Nat) (seq : Nat) : Statement (.heartbeat t seq) := fun _ => no_unit
theorem allocReq (t : Nat) (seq : Nat) (req : AllocReq) : Statement (.allocReq t seq req) := fun _ => no_unit
theorem allocGrant (t : Nat) (seq : Nat) (grant : AllocGrant) : Statement (.allocGrant t seq grant) := fun _ => no_unit
theorem extentHeaders (t : Nat) (seq : Nat) (c : Commit) : Statement (.extentHeaders t seq c) := fun _ => no_unit
theorem record (t : Nat) (seq : Nat) (c : Commit) : Statement (.record t seq c) := fun _ => no_unit
theorem checkpoint (t : Nat) (seq : Nat) (m : CkptMsg) : Statement (.checkpoint t seq m) := fun _ => no_unit
theorem cmdStart (t : Nat) (seq : Nat) (x : Nat) (q : Nat) (idx : Nat) (entry : Bytes) : Statement (.cmdStart t seq x q idx entry) := fun _ => no_unit
theorem cmdDone (t : Nat) (seq : Nat) (l : List PDone) : Statement (.cmdDone t seq l) := fun _ => no_unit
theorem queueState (t : Nat) (seq : Nat) (x : Nat) (q : Nat) (p : Qp) : Statement (.queueState t seq x q p) := fun _ => no_unit
theorem hold (t : Nat) (seq : Nat) (hold : Hold) (take : Bool) (low : Nat) (q : Nat) (cid : Nat) : Statement (.hold t seq hold take low q cid) := fun _ => no_unit
theorem config (t : Nat) (seq : Nat) (c : TConfig) : Statement (.config t seq c) := fun _ => no_unit
theorem ownership (t : Nat) (seq : Nat) (ts : Nat) (reserved : Nat) (last : Nat) : Statement (.ownership t seq ts reserved last) := fun _ => no_unit
theorem resync (t : Nat) (seq : Nat) (r : TResync) : Statement (.resync t seq r) := fun _ => no_unit
theorem twinAck (t : Nat) (ack : Nat) : Statement (.twinAck t ack) := fun _ => no_unit
theorem twinFrameRetry (t : Nat) (seq : Nat) : Statement (.twinFrameRetry t seq) := fun _ => no_unit
theorem heartbeatTimer (t : Nat) : Statement (.heartbeatTimer t) := fun _ => no_unit
theorem linkSilent (t : Nat) : Statement (.linkSilent t) := fun _ => no_unit
theorem twinGroupDown (t : Nat) (g : Nat) : Statement (.twinGroupDown t g) := fun _ => no_unit
theorem twinLinkUp (t : Nat) (g : Nat) : Statement (.twinLinkUp t g) := fun _ => no_unit
theorem witnessWrite (t : Nat) : Statement (.witnessWrite t) := fun _ => no_unit
theorem witnessRead (t : Nat) (drive : Nat) (block : Option Bytes) (registered : Bool) : Statement (.witnessRead t drive block registered) := fun _ => no_unit
theorem declareFailed (t : Nat) (won : Bool) : Statement (.declareFailed t won) := fun _ => no_unit
theorem standDown (t : Nat) : Statement (.standDown t) := fun _ => no_unit
theorem reservationConflict (t : Nat) : Statement (.reservationConflict t) := fun _ => no_unit
theorem failoverReplay (t : Nat) (valid : List (Nat × Nat)) (reserves : List (Nat × Nat)) : Statement (.failoverReplay t valid reserves) := fun _ => no_unit
theorem queueAdoption (t : Nat) (frags : List AFrag) : Statement (.queueAdoption t frags) := fun _ => no_unit
theorem queryResumption (t : Nat) : Statement (.queryResumption t) := fun _ => no_unit
theorem recoveryComplete (t : Nat) : Statement (.recoveryComplete t) := fun _ => no_unit
theorem twinOwnXfer (t : Nat) (x : Nat) (ts : Nat) (expected : Nat) (count : Nat) : Statement (.twinOwnXfer t x ts expected count) := fun _ => no_unit
theorem pairEnable (t : Nat) (x : Nat) (on : Bool) (expected : Nat) (count : Nat) : Statement (.pairEnable t x on expected count) := fun _ => no_unit
theorem acceptJoin (t : Nat) (x : Nat) (on : Bool) (expected : Nat) (count : Nat) : Statement (.acceptJoin t x on expected count) := fun _ => no_unit
theorem unitAcknowledge (t : Nat) (n : Nat) : Statement (.unitAcknowledge t n) := fun _ => no_unit
theorem modeChangeDeadline (t : Nat) : Statement (.modeChangeDeadline t) := fun _ => no_unit
theorem vddCoreReady (t : Nat) : Statement (.vddCoreReady t) := fun _ => no_unit
theorem hearthGroupReady (t : Nat) (g : Nat) : Statement (.hearthGroupReady t g) := fun _ => no_unit
theorem idleTimer (t : Nat) : Statement (.idleTimer t) := fun _ => no_unit
theorem entrySequence (t : Nat) (ok0 : Bool) (ok1 : Bool) : Statement (.entrySequence t ok0 ok1) := fun _ => no_unit
theorem emberWake (t : Nat) (by_ : WakeBy) : Statement (.emberWake t by_) := fun _ => no_unit
theorem bellowsAlarm (t : Nat) : Statement (.bellowsAlarm t) := fun _ => no_unit
theorem domainWake (t : Nat) (n : Nat) : Statement (.domainWake t n) := fun _ => no_unit
theorem domainIdleTimeout (t : Nat) (n : Nat) : Statement (.domainIdleTimeout t n) := fun _ => no_unit
theorem powerSample (t : Nat) (reads : List (Nat × Nat × Nat)) : Statement (.powerSample t reads) := fun _ => no_unit
theorem parkCheck (t : Nat) : Statement (.parkCheck t) := fun _ => no_unit
theorem thermalSample (t : Nat) (l : List (Nat × Int)) : Statement (.thermalSample t l) := fun _ => no_unit
theorem clampRelease (t : Nat) : Statement (.clampRelease t) := fun _ => no_unit
theorem thermtrip (t : Nat) : Statement (.thermtrip t) := fun _ => no_unit
theorem startAttempt (t : Nat) : Statement (.startAttempt t) := fun _ => no_unit
theorem stageComplete (t : Nat) (f : StageIn) : Statement (.stageComplete t f) := fun _ => no_unit
theorem stageTimeout (t : Nat) (reuse : Bool) : Statement (.stageTimeout t reuse) := fun _ => no_unit
theorem startRetry (t : Nat) : Statement (.startRetry t) := fun _ => no_unit
theorem pldmFirmwareUpdate (t : Nat) (slot : Nat) (image : Bytes) : Statement (.pldmFirmwareUpdate t slot image) := fun _ => no_unit
theorem pldmActivate (t : Nat) (slot : Nat) : Statement (.pldmActivate t slot) := fun _ => no_unit
theorem powerLoss (t : Nat) : Statement (.powerLoss t) := fun _ => no_unit
theorem vrPgFall (t : Nat) : Statement (.vrPgFall t) := fun _ => no_unit
theorem telemetryLost (t : Nat) (rail : Nat) : Statement (.telemetryLost t rail) := fun _ => no_unit
theorem refclkLost (t : Nat) (c : Nat) : Statement (.refclkLost t c) := fun _ => no_unit
theorem deviceStop (t : Nat) (cause : Nat) : Statement (.deviceStop t cause) := fun _ => no_unit
theorem nonceGet (t : Nat) (n : Nat) : Statement (.nonceGet t n) := fun _ => no_unit
theorem tokenApply (t : Nat) (n : Nat) (tok : Bytes) (ok : Bool) : Statement (.tokenApply t n tok ok) := fun _ => no_unit
theorem keyLoad (t : Nat) (n : Nat) (ref : Nat) (key : Bytes) : Statement (.keyLoad t n ref key) := fun _ => no_unit
theorem keyUnload (t : Nat) (n : Nat) (ref : Nat) : Statement (.keyUnload t n ref) := fun _ => no_unit
theorem keyStatus (t : Nat) (n : Nat) : Statement (.keyStatus t n) := fun _ => no_unit
theorem svnCommit (t : Nat) (n : Nat) : Statement (.svnCommit t n) := fun _ => no_unit
theorem debugLock (t : Nat) (n : Nat) : Statement (.debugLock t n) := fun _ => no_unit
theorem spdmRequest (t : Nat) (tr : Nat) (req : SpdmReq) : Statement (.spdmRequest t tr req) := fun _ => no_unit
theorem ideKm (t : Nat) (n : Nat) (stream : Nat) (on : Bool) : Statement (.ideKm t n stream on) := fun _ => no_unit
theorem ideRefusal (t : Nat) (port : Nat) (stream : Nat) (read : Option Nat) (x : Nat) (addr : Nat) (data : Bytes) : Statement (.ideRefusal t port stream read x addr data) := fun _ => no_unit
theorem tamper (t : Nat) (input : Nat) (ok : Bool) : Statement (.tamper t input ok) := fun _ => no_unit
theorem tamperLatchClear (t : Nat) (value : Nat) (low : Nat) : Statement (.tamperLatchClear t value low) := fun _ => no_unit
theorem tamperCtrlWrite (t : Nat) (x : Nat) (value : Nat) (expected : Nat) (count : Nat) : Statement (.tamperCtrlWrite t x value expected count) := fun _ => no_unit
theorem jtagAccess (t : Nat) (op : JtagOp) : Statement (.jtagAccess t op) := fun _ => no_unit
theorem quench (t : Nat) (h : Nat) : Statement (.quench t h) := fun _ => no_unit
theorem recorderClose (t : Nat) : Statement (.recorderClose t) := fun _ => no_unit
theorem archive (t : Nat) (ok0 : Bool) (ok1 : Bool) : Statement (.archive t ok0 ok1) := fun _ => no_unit
theorem archiveNow (t : Nat) (x : Nat) (expected : Nat) (count : Nat) : Statement (.archiveNow t x expected count) := fun _ => no_unit
theorem freezeHost (t : Nat) (x : Nat) (on : Bool) (expected : Nat) (count : Nat) : Statement (.freezeHost t x on expected count) := fun _ => no_unit
theorem freezeExpiry (t : Nat) : Statement (.freezeExpiry t) := fun _ => no_unit
theorem mgmtFreeze (t : Nat) (on : Bool) : Statement (.mgmtFreeze t on) := fun _ => no_unit
theorem mctpRecorderRead (t : Nat) (addr : Nat) (n : Nat) : Statement (.mctpRecorderRead t addr n) := fun _ => no_unit
theorem recWallclock (t : Nat) (x : Nat) (value : Nat) (expected : Nat) (count : Nat) : Statement (.recWallclock t x value expected count) := fun _ => no_unit
theorem operatingSecond (t : Nat) : Statement (.operatingSecond t) := fun _ => no_unit
theorem queueDepthSample (t : Nat) (port : Nat) : Statement (.queueDepthSample t port) := fun _ => no_unit
theorem hostLinkDown (t : Nat) (port : Nat) : Statement (.hostLinkDown t port) := fun _ => no_unit
theorem rx4Enable (t : Nat) (x : Nat) (expected : Nat) (count : Nat) : Statement (.rx4Enable t x expected count) := fun _ => no_unit
theorem rx4Disable (t : Nat) (x : Nat) (expected : Nat) (count : Nat) : Statement (.rx4Disable t x expected count) := fun _ => no_unit
theorem validate (t : Nat) (b : Bytes) : Statement (.validate t b) := fun _ => no_unit
theorem arith (t : Nat) (b : Bytes) : Statement (.arith t b) := fun _ => no_unit
theorem total (t : Nat) (b : Bytes) : Statement (.total t b) := fun _ => no_unit
theorem fileOut (t : Nat) (b : Bytes) : Statement (.fileOut t b) := fun _ => no_unit
theorem fileIn (t : Nat) (b : Bytes) : Statement (.fileIn t b) := fun _ => no_unit
theorem rx4Record (t : Nat) (data : Option Bytes) : Statement (.rx4Record t data) := fun _ => no_unit
theorem rx4GoOverrun (t : Nat) : Statement (.rx4GoOverrun t) := fun _ => no_unit
theorem gpioFuncWrite (t : Nat) (x : Nat) (p : Nat) (value : Nat) (expected : Nat) (count : Nat) : Statement (.gpioFuncWrite t x p value expected count) := fun _ => no_unit
theorem uartCtrlWrite (t : Nat) (x : Nat) (value : Nat) (expected : Nat) (count : Nat) : Statement (.uartCtrlWrite t x value expected count) := fun _ => no_unit
theorem perstRelease (t : Nat) (port : Nat) : Statement (.perstRelease t port) := fun _ => no_unit
theorem hostLinkUp (t : Nat) (port : Nat) : Statement (.hostLinkUp t port) := fun _ => no_unit
theorem refclkReturn (t : Nat) (c : Nat) : Statement (.refclkReturn t c) := fun _ => no_unit
theorem dramRefresh (t : Nat) (u : Nat) (off : Nat) (rfm : Bool) : Statement (.dramRefresh t u off rfm) := fun _ => no_unit
theorem hostReadCompletion (t : Nat) (tag : Nat) (b : Option Bytes) : Statement (.hostReadCompletion t tag b) := fun _ => no_unit
theorem otherTrafficFrame (t : Nat) (half : Nat) (kind : Nat) (b : Bytes) : Statement (.otherTrafficFrame t half kind b) := fun _ => no_unit
theorem pfcPauseFrame (t : Nat) (half : Nat) (mask : Nat) (quanta : Nat) : Statement (.pfcPauseFrame t half mask quanta) := fun _ => no_unit
theorem aonPowerGood (t : Nat) : Statement (.aonPowerGood t) := fun _ => no_unit

end Sys2Proof.Laws.Wf
end

