-- ==== Sys2Proof/Laws/Unit.lean ====
section
/-!
SUPPORT. Sys2Proof/Laws/Unit.lean: what the operand forms of the expression unit do: masks, groups read after they are written, marks and records,
and one instruction issued on a hearth.
-/
namespace Sys2Proof.Machine

/-! ### Masks -/

theorem getLsbD_maskBelow (f : Nat → Bool) (n i : Nat) (hn : n ≤ 128) : (maskBelow f n).getLsbD i = (decide (i < n) && f i) := by
  induction n with
  | zero => simp [maskBelow]
  | succ n ih =>
    have ih' := ih (by omega)
    unfold maskBelow
    split
    · rename_i hf
      rw [BitVec.getLsbD_or, ih', BitVec.getLsbD_twoPow]
      by_cases h : n = i
      · subst h; simp [hf]; omega
      · have : (n == i) = false := by simpa using h
        by_cases h2 : i < n
        · have : i < n + 1 := by omega
          simp [h2, this, h]
        · have : ¬ i < n + 1 := by omega
          simp [h2, this, h]
    · rename_i hf
      rw [ih']
      by_cases h : i = n
      · subst h; simp [hf]
      · have : (i < n + 1) ↔ (i < n) := by omega
        simp [this]

/-- A row of a mask that a function gives. -/
@[simp] theorem getLsbD_maskOf (f : Nat → Bool) (i : Nat) : (maskOf f).getLsbD i = (decide (i < 128) && f i) := getLsbD_maskBelow f 128 i (by omega)

/-! ### Groups -/

theorem tabGet_grpPut (v : Tab Word) (base i g x n k : Nat) :
    tabGet 0 (grpPut v base i g x n) k =
      if base * 128 + i * g ≤ k ∧ k < base * 128 + i * g + n then BitVec.ofNat 32 (x / 2 ^ (32 * (k - (base * 128 + i * g)))) else tabGet 0 v k := by
  induction n with
  | zero => simp only [grpPut]; rw [if_neg (by omega)]
  | succ n ih =>
    simp only [grpPut, tabGet_set]
    by_cases h : k = base * 128 + i * g + n
    · subst h; rw [if_pos rfl, if_pos (by omega)]; congr 4; omega
    · rw [if_neg h, ih]
      by_cases h2 : base * 128 + i * g ≤ k ∧ k < base * 128 + i * g + n
      · rw [if_pos h2, if_pos (by omega)]
      · rw [if_neg h2, if_neg (by omega)]

theorem tabGet_putLanes (v : Tab Word) (base g : Nat) (ex : Mask) (f : Nat → Nat) (n k : Nat) :
    tabGet 0 (putLanes v base g ex f n) k =
      if base * 128 ≤ k ∧ k < base * 128 + n * g ∧ ex.getLsbD ((k - base * 128) / g) = true then
        BitVec.ofNat 32 (f ((k - base * 128) / g) / 2 ^ (32 * ((k - base * 128) % g)))
      else tabGet 0 v k := by
  induction n with
  | zero => simp only [putLanes]; rw [if_neg (by omega)]
  | succ n ih =>
    have key : ∀ j, j < g → (n * g + j) / g = n ∧ (n * g + j) % g = j := by
      intro j hj
      have hg : 0 < g := by omega
      constructor
      · rw [Nat.add_comm, Nat.add_mul_div_right _ _ hg, Nat.div_eq_of_lt hj]; omega
      · rw [Nat.add_comm, Nat.add_mul_mod_self_right, Nat.mod_eq_of_lt hj]
    have hsucc : (n + 1) * g = n * g + g := by ring
    simp only [putLanes]
    by_cases hin : base * 128 + n * g ≤ k ∧ k < base * 128 + n * g + g
    · obtain ⟨h1, h2⟩ := hin
      obtain ⟨j, rfl⟩ := Nat.exists_eq_add_of_le h1
      have hj : j < g := by omega
      have e : base * 128 + n * g + j - base * 128 = n * g + j := by omega
      have e2 : base * 128 + n * g + j - (base * 128 + n * g) = j := by omega
      split
      · rename_i hx
        rw [tabGet_grpPut, if_pos (by omega), if_pos, e, (key j hj).1, (key j hj).2, e2]
        refine ⟨by omega, by omega, ?_⟩
        rw [e, (key j hj).1]; exact hx
      · rename_i hx
        rw [ih, if_neg (by omega), if_neg]
        rw [e, (key j hj).1]
        rintro ⟨_, _, h⟩; exact hx h
    · have hr : (base * 128 ≤ k ∧ k < base * 128 + (n + 1) * g ∧ ex.getLsbD ((k - base * 128) / g) = true) ↔
          (base * 128 ≤ k ∧ k < base * 128 + n * g ∧ ex.getLsbD ((k - base * 128) / g) = true) := by
        rw [hsucc]
        constructor
        · rintro ⟨a, b, c⟩; exact ⟨a, by omega, c⟩
        · rintro ⟨a, b, c⟩; exact ⟨a, by omega, c⟩
      simp only [hr]
      split
      · rw [tabGet_grpPut, if_neg hin, ih]
      · rw [ih]

theorem grpGet_congr (v u : Tab Word) (base i g n : Nat) (h : ∀ j, j < n → tabGet 0 v (base * 128 + i * g + j) = tabGet 0 u (base * 128 + i * g + j)) :
    grpGet v base i g n = grpGet u base i g n := by
  induction n with
  | zero => rfl
  | succ n ih => simp only [grpGet]; rw [ih (fun j hj => h j (by omega)), h n (by omega)]

theorem grpGet_value (v : Tab Word) (base i g n x : Nat)
    (h : ∀ j, j < n → tabGet 0 v (base * 128 + i * g + j) = BitVec.ofNat 32 (x / 2 ^ (32 * j))) :
    grpGet v base i g n = x % 2 ^ (32 * n) := by
  induction n with
  | zero => simp [grpGet, Nat.mod_one]
  | succ n ih =>
    simp only [grpGet]
    rw [ih (fun j hj => h j (by omega)), h n (by omega), BitVec.toNat_ofNat]
    have : 32 * (n + 1) = 32 * n + 32 := by ring
    rw [this, Nat.pow_add, Nat.mod_mul, Nat.mul_comm (2 ^ (32 * n))]

/-- A group's row after a write of its executing rows. -/
theorem grpGet_putLanes (v : Tab Word) (base g : Nat) (ex : Mask) (f : Nat → Nat) (i : Nat) (hi : i < 128) :
    grpGet (putLanes v base g ex f 128) base i g g = if ex.getLsbD i = true then f i % 2 ^ (32 * g) else grpGet v base i g g := by
  have key : ∀ j, j < g → (base * 128 + i * g + j - base * 128) / g = i ∧ (base * 128 + i * g + j - base * 128) % g = j := by
    intro j hj
    have hg : 0 < g := by omega
    have e : base * 128 + i * g + j - base * 128 = i * g + j := by omega
    rw [e]
    constructor
    · rw [Nat.add_comm, Nat.add_mul_div_right _ _ hg, Nat.div_eq_of_lt hj]; omega
    · rw [Nat.add_comm, Nat.add_mul_mod_self_right, Nat.mod_eq_of_lt hj]
  have hb : ∀ j, j < g → base * 128 + i * g + j < base * 128 + 128 * g := by
    intro j hj
    have : (i + 1) * g ≤ 128 * g := Nat.mul_le_mul_right g (by omega)
    have e : (i + 1) * g = i * g + g := by ring
    omega
  split
  · rename_i hx
    apply grpGet_value
    intro j hj
    rw [tabGet_putLanes, if_pos ⟨by omega, hb j hj, by rw [(key j hj).1]; exact hx⟩, (key j hj).1, (key j hj).2]
  · rename_i hx
    apply grpGet_congr
    intro j hj
    rw [tabGet_putLanes, if_neg]
    rw [(key j hj).1]
    rintro ⟨_, _, h⟩; exact hx h

/-! ### Marks -/

/-- The record of a row after the marks of an instruction. -/
theorem tabGet_addRecs (t : Tab RowRec) (ex : Mask) (f : Nat → LaneOut) (off n i : Nat) :
    tabGet {} (addRecs t ex f off n) i =
      if i < n ∧ ex.getLsbD i = true then (tabGet {} t i).add (f i).flags (f i).causes off else tabGet {} t i := by
  induction n with
  | zero => simp [addRecs]
  | succ n ih =>
    simp only [addRecs]
    by_cases h : i = n
    · subst h
      split
      · rename_i hx; rw [tabGet_set, if_pos rfl, ih, if_neg (by omega), if_pos ⟨by omega, hx⟩]
      · rename_i hx; rw [ih, if_neg (by omega), if_neg (by tauto)]
    · have : (i < n + 1) ↔ (i < n) := by omega
      split
      · rw [tabGet_set, if_neg h, ih]; simp [this]
      · rw [ih]; simp [this]

/-- A row's record after an event without flag or cause is as it was. -/
@[simp] theorem RowRec.add_nil (r : RowRec) (off : Nat) : r.add 0 [] off = r := by
  obtain ⟨f, c, w⟩ := r
  simp [RowRec.add, leastCause]
  intro h; exact h.symm

theorem Exu.marked_mark (x : Exu) (ex : Mask) (f : Nat → LaneOut) (i : Nat) (hi : i < 128) (o : LaneOut) (ho : ex.getLsbD i = true → f i = o) :
    x.marked (x.mark ex f) i (ex.getLsbD i) o := by
  unfold Exu.marked Exu.mark
  simp only [BitVec.getLsbD_or, getLsbD_maskOf, hi, decide_true, Bool.true_and, tabGet_addRecs]
  cases hx : ex.getLsbD i
  · simp
  · rw [ho hx]; simp

/-- Marks depend only on the marks of the unit after. -/
theorem Exu.marked_congr (x y z : Exu) (i : Nat) (ex : Bool) (o : LaneOut) (h : x.marked y i ex o) (he : z.err = y.err) (ho : z.ovf = y.ovf)
    (hr : z.recs = y.recs) : x.marked z i ex o := by
  unfold Exu.marked at *; rw [he, ho, hr]; exact h

/-! ### Writes of groups, masks and scalars -/

@[simp] theorem Exu.vec_lane (x : Exu) (w : XFields) (t : XTy) (d : Nat) (an : XAnn) (f : Nat → LaneOut) (i : Nat) (hi : i < 128) :
    (x.vec w t d an f).lane t d i = if (x.execMask w).getLsbD i = true then (f i).val % 2 ^ t.laneBits else x.lane t d i := by
  unfold Exu.vec Exu.lane
  exact grpGet_putLanes _ _ _ _ _ _ hi

@[simp] theorem Exu.vec_valid (x : Exu) (w : XFields) (t : XTy) (d : Nat) (an : XAnn) (f : Nat → LaneOut) (i : Nat) (hi : i < 128) :
    (x.vec w t d an f).valid d i = if (x.execMask w).getLsbD i = true then (f i).valid else x.valid d i := by
  show (tabGet 0 (tabSet 0 x.vld d _) d).getLsbD i = _
  rw [tabGet_set, if_pos rfl, getLsbD_maskOf, decide_eq_true hi, Bool.true_and]
  rfl

/-- What Exu.vec leaves: the group's row, the marks of the row, and everything else as it was. -/
theorem Exu.vec_spec (x : Exu) (w : XFields) (t : XTy) (d : Nat) (an : XAnn) (f : Nat → LaneOut) (i : Nat) (hi : i < 128) (o : LaneOut)
    (ho : f i = o) :
    x.wrote (x.vec w t d an f) w t d i o ∧ x.marked (x.vec w t d an f) i (x.runs w i) o ∧ x.keepsV (x.vec w t d an f) d (d + t.group) ∧
      (x.vec w t d an f).annOf d = an ∧
      (let y := x.vec w t d an f
       y = { x with v := y.v, vld := y.vld, ann := y.ann, err := y.err, ovf := y.ovf, recs := y.recs }) := by
  subst ho
  refine ⟨⟨?_, ?_⟩, ?_, ⟨?_, ?_⟩, ?_, rfl⟩
  · exact Exu.vec_lane x w t d an f i hi
  · exact Exu.vec_valid x w t d an f i hi
  · exact Exu.marked_congr _ _ _ _ _ _ (Exu.marked_mark x (x.execMask w) f i hi (f i) (fun _ => rfl)) rfl rfl rfl
  · intro k hk
    show tabGet 0 (putLanes x.v d t.group (x.execMask w) (fun i => (f i).val) 128) k = _
    rw [tabGet_putLanes, if_neg]
    have : (d + t.group) * 128 = d * 128 + 128 * t.group := by ring
    omega
  · intro b hb
    simp [Exu.vec, hb]
  · simp [Exu.vec, Exu.annOf]

/-- A row of a mask after Exu.mSet. -/
theorem Exu.mGet_mSet (x : Exu) (r q : Nat) (k : Mask) (hr : r ≠ 0) : (x.mSet r k).mGet q = if q = r then k else x.mGet q := by
  unfold Exu.mSet Exu.mGet
  rw [if_neg hr]
  by_cases h : q = 0
  · subst h; have : ¬ 0 = r := fun e => hr e.symm
    simp [this]
  · simp [h]

/-- What Exu.mrow leaves. -/
theorem Exu.mrow_spec (x : Exu) (w : XFields) (f : Nat → Bool) (i : Nat) (hi : i < 128) (hd : w.d.toNat ≠ 0) :
    ((x.mrow w f).mGet w.d.toNat).getLsbD i = (if x.runs w i then f i else (x.mGet w.d.toNat).getLsbD i) ∧
      (∀ r, r ≠ w.d.toNat → (x.mrow w f).mGet r = x.mGet r) ∧ x.mrow w f = { x with m := (x.mrow w f).m } := by
  refine ⟨?_, ?_, ?_⟩
  · unfold Exu.mrow
    rw [Exu.mGet_mSet _ _ _ _ hd, if_pos rfl, getLsbD_maskOf, decide_eq_true hi, Bool.true_and]
    rfl
  · intro r hr
    unfold Exu.mrow
    rw [Exu.mGet_mSet _ _ _ _ hd, if_neg hr]
  · unfold Exu.mrow Exu.mSet
    rw [if_neg hd]

/-- What Exu.sSet leaves. -/
theorem Exu.sSet_spec (x : Exu) (d : Nat) (v : Word64) (hd : d < 28) :
    (x.sSet d v).sGet d = (if d = 0 then 0 else v) ∧ (∀ r, r ≠ d → (x.sSet d v).sGet r = x.sGet r) ∧ x.sSet d v = { x with sr := (x.sSet d v).sr } := by
  by_cases h0 : d = 0
  · subst h0; simp [Exu.sSet, Exu.sGet]
  · have hn : ¬ (d = 0 ∨ 28 ≤ d) := by omega
    unfold Exu.sSet
    rw [if_neg hn]
    refine ⟨?_, ?_, rfl⟩
    · have : d ≠ 28 ∧ d ≠ 29 ∧ d ≠ 30 ∧ d ≠ 31 := by omega
      simp [Exu.sGet, h0, this]
    · intro r hr
      unfold Exu.sGet
      simp [hr]

/-! ### One instruction issued -/

theorem Dev.reg_setReg_at (d : Dev) (a : Nat) (w : Word) (r : Nat) : (d.setReg a w).reg r = if r = a then w else d.reg r := by
  unfold Dev.setReg Dev.reg
  by_cases h : r = a
  · subst h; simp
  · rw [if_neg h]; exact tabGet_set_ne _ _ _ _ _ _ h

theorem Dev.reg_bump_ne (d : Dev) (a n r : Nat) (h : r ≠ a) : (d.bump a n).reg r = d.reg r := by
  unfold Dev.bump; split
  · rfl
  · rw [Dev.reg_setReg_at, if_neg h]; rfl

theorem Dev.reg_count64_ne (d : Dev) (a n r : Nat) (h : r ≠ a) (h4 : r ≠ a + 4) : (d.count64 a n).reg r = d.reg r := by
  unfold Dev.count64; split
  · rfl
  · unfold Dev.setReg64; rw [Dev.reg_setReg_at, if_neg h4, Dev.reg_setReg_at, if_neg h]

theorem Dev.regN_bump (d : Dev) (a n : Nat) (h : n ≠ 0) : (d.bump a n).regN a = satAdd 32 (d.regN a) n % 2 ^ 32 := by
  unfold Dev.bump; rw [if_neg h]; unfold Dev.regN; rw [Dev.reg_setReg_at, if_pos rfl, BitVec.toNat_ofNat]

/-- Only registers, counters and hearths tell two parts apart. -/
def Dev.nearly (a b : Dev) : Prop := b = { a with qry := { a.qry with hearths := b.qry.hearths }, regs := b.regs, tally := b.tally }

theorem Dev.nearly_trans {a b c : Dev} (h1 : a.nearly b) (h2 : b.nearly c) : a.nearly c := by
  unfold Dev.nearly at *
  rw [h2]; rw [h1]

theorem Dev.nearly_setReg (d : Dev) (a : Nat) (w : Word) : d.nearly (d.setReg a w) := rfl
theorem Dev.nearly_bump (d : Dev) (a n : Nat) : d.nearly (d.bump a n) := by unfold Dev.bump; split <;> rfl
theorem Dev.nearly_count64 (d : Dev) (a n : Nat) : d.nearly (d.count64 a n) := by unfold Dev.count64; split <;> rfl
theorem Dev.nearly_hearthUpd (d : Dev) (h : Nat) (f : Hearth → Hearth) : d.nearly (d.hearthUpd h f) := rfl

theorem Dev.exuEvents_nearly (d : Dev) (h : Nat) (x : Exu) (e : XEv) (rpe fixes : Nat) (he : e.frec = none) : d.nearly (d.exuEvents h x e rpe fixes) := by
  unfold Dev.exuEvents
  simp only [he]
  exact Dev.nearly_trans (Dev.nearly_trans (Dev.nearly_trans (Dev.nearly_trans (Dev.nearly_trans (Dev.nearly_trans
    (Dev.nearly_count64 _ _ _) (Dev.nearly_count64 _ _ _)) (Dev.nearly_bump _ _ _)) (Dev.nearly_bump _ _ _)) (Dev.nearly_bump _ _ _))
    (Dev.nearly_count64 _ _ _)) (Dev.nearly_bump _ _ _)

theorem Dev.exuEvents_hearth (d : Dev) (h k : Nat) (x : Exu) (e : XEv) (rpe fixes : Nat) : (d.exuEvents h x e rpe fixes).hearth k = d.hearth k := by
  unfold Dev.exuEvents
  cases e.frec <;> simp

theorem Dev.exuEvents_reg (d : Dev) (h r : Nat) (x : Exu) (e : XEv) (rpe fixes : Nat) (he : e.frec = none)
    (hr : r < 0x02100000 + 0x1000 * h ∨ 0x02101000 + 0x1000 * h ≤ r) : (d.exuEvents h x e rpe fixes).reg r = d.reg r := by
  unfold Dev.exuEvents
  simp only [he]
  rw [Dev.reg_bump_ne _ _ _ _ (by omega), Dev.reg_count64_ne _ _ _ _ (by omega) (by omega), Dev.reg_bump_ne _ _ _ _ (by omega),
    Dev.reg_bump_ne _ _ _ _ (by omega), Dev.reg_bump_ne _ _ _ _ (by omega), Dev.reg_count64_ne _ _ _ _ (by omega) (by omega),
    Dev.reg_count64_ne _ _ _ _ (by omega) (by omega)]

theorem Dev.hearth_hearthUpd_ne (d : Dev) (h k : Nat) (f : Hearth → Hearth) (hk : k ≠ h) : (d.hearthUpd h f).hearth k = d.hearth k := by
  simp [Dev.hearth, Dev.hearthUpd, hk]

/-- An execution that meets no fault and retires. -/
theorem Exu.execute_none (x : Exu) (no : Bool) (op : XOp) (w : XFields) (hu : (x.done no op w).unres = false) :
    x.execute no op w none = (x.done no op w, (x.issue no op).2) := by
  unfold Exu.execute
  simp only
  show (if (x.done no op w).unres = true then _ else _) = _
  rw [if_neg (by simp [hu])]
  rfl

theorem Exu.issue_frec (x : Exu) (no : Bool) (op : XOp) : (x.issue no op).2.frec = none := by
  unfold Exu.issue
  split
  · rfl
  · split
    · rfl
    · split <;> rfl

theorem Exu.issue_unres (x : Exu) (no : Bool) (op : XOp) : (x.issue no op).2.unres = 0 ∧ (x.issue no op).2.faults = 0 := by
  unfold Exu.issue
  split
  · exact ⟨rfl, rfl⟩
  · split
    · exact ⟨rfl, rfl⟩
    · split <;> exact ⟨rfl, rfl⟩

theorem Dev.xRun_none (d : Dev) (h : Nat) (op : XOp) (w : XFields) (hu : ((d.hearth h).exu.done (d.narrowOnly h) op w).unres = false) :
    d.xRun h op w none = (d.hearthUpd h (fun k => { k with exu := { (d.hearth h).exu.done (d.narrowOnly h) op w with rpe := 0, fixes := 0 } })).exuEvents h
      (d.hearth h).exu ((d.hearth h).exu.issue (d.narrowOnly h) op).2 ((d.hearth h).exu.done (d.narrowOnly h) op w).rpe
      ((d.hearth h).exu.done (d.narrowOnly h) op w).fixes := by
  unfold Dev.xRun
  simp only [Exu.execute_none _ _ _ _ hu, (Exu.issue_unres _ _ _).1, if_true]
  rfl

/-- An instruction that meets no fault (R251): the hearth's unit is as the instruction leaves it, and the part differs in nothing else. -/
theorem State.unit_next (s : State) (h : Nat) (op : XOp) (w : XFields) (hi : s.dev.issues h op w)
    (hu : ((s.dev.hearth h).exu.done (s.dev.narrowOnly h) op w).unres = false)
    (hp : ((s.dev.hearth h).exu.done (s.dev.narrowOnly h) op w).pend = none) :
    s.unit h op w none = .next { s with dev := s.dev.xRun h op w none } ∧
      ((s.dev.xRun h op w none).hearth h).exu = { (s.dev.hearth h).exu.done (s.dev.narrowOnly h) op w with rpe := 0, fixes := 0 } ∧
      s.dev.unitOnly h (s.dev.xRun h op w none) := by
  obtain ⟨hw, hr⟩ := hi
  have hr' : h < hearthCount ∧ (s.dev.hearth h).exu.pend.isNone = true ∧ (s.dev.hearth h).exu.unres = false := by
    simpa [Dev.unitReady, and_assoc] using hr
  have hpn : (s.dev.hearth h).exu.pend.isSome = false := by
    have := hr'.2.1; revert this; cases (s.dev.hearth h).exu.pend <;> simp
  have hex : ((s.dev.xRun h op w none).hearth h) =
      { s.dev.hearth h with exu := { (s.dev.hearth h).exu.done (s.dev.narrowOnly h) op w with rpe := 0, fixes := 0 } } := by
    rw [Dev.xRun_none _ _ _ _ hu, Dev.exuEvents_hearth, Dev.hearth_hearthUpd]
  refine ⟨?_, by rw [hex], ?_, by rw [hex], ?_, ?_⟩
  · unfold State.unit
    rw [if_pos hw]
    have e1 : s.dev.xCmd h op w none = s.dev.xRun h op w none := by
      have hc : ¬ (hearthCount ≤ h) := by omega
      simp [Dev.xCmd, Dev.xIssue, Dev.memFault, Dev.spmUe, hpn, hr'.2.2, hc]
    have e2 : (s.dev.xRun h op w none).hearthFault s.dev h = s.dev.xRun h op w none := by
      unfold Dev.hearthFault
      simp [hex, hu, hp]
    have e3 : s.dev.onHearth h (fun d => d.xCmd h op w none) = s.dev.xRun h op w none := by
      unfold Dev.onHearth Dev.ifQuenched
      simp [e1, e2, hex]
    rw [e3]
  · have := Dev.nearly_trans (Dev.nearly_hearthUpd s.dev h (fun k => { k with exu := { (s.dev.hearth h).exu.done (s.dev.narrowOnly h) op w with rpe := 0, fixes := 0 } }))
      (Dev.exuEvents_nearly _ h (s.dev.hearth h).exu ((s.dev.hearth h).exu.issue (s.dev.narrowOnly h) op).2
        ((s.dev.hearth h).exu.done (s.dev.narrowOnly h) op w).rpe ((s.dev.hearth h).exu.done (s.dev.narrowOnly h) op w).fixes (Exu.issue_frec _ _ _))
    rw [← Dev.xRun_none _ _ _ _ hu] at this
    exact this
  · intro k hk
    rw [Dev.xRun_none _ _ _ _ hu, Dev.exuEvents_hearth, Dev.hearth_hearthUpd_ne _ _ _ _ hk]
  · intro r hr
    rw [Dev.xRun_none _ _ _ _ hu, Dev.exuEvents_reg _ _ _ _ _ _ _ (Exu.issue_frec _ _ _) hr]
    rfl

/-- A command that issues an instruction retires it, with what the instruction leaves. -/
theorem retires_of (c : Instr) (s : State) (h : Nat) (op : XOp) (w : XFields) (P : Exu → Prop) (hi : s.dev.issues h op w)
    (hc : exec c s = s.unit h op w none)
    (hu : ((s.dev.hearth h).exu.done (s.dev.narrowOnly h) op w).unres = false)
    (hp : ((s.dev.hearth h).exu.done (s.dev.narrowOnly h) op w).pend = none)
    (hP : P { (s.dev.hearth h).exu.done (s.dev.narrowOnly h) op w with rpe := 0, fixes := 0 }) : Retires c h s P := by
  obtain ⟨h1, h2, h3⟩ := State.unit_next s h op w hi hu hp
  refine ⟨_, by rw [hc, h1], ?_, h3⟩
  rw [h2]; exact hP

/-- The unit that an instruction meets when it is issued: as it was but for the state of the wide unit. -/
theorem Exu.issue_fst (x : Exu) (no : Bool) (op : XOp) :
    (x.issue no op).1 = { x with wide := (x.issue no op).1.wide, wakeReq := (x.issue no op).1.wakeReq, activeWide := (x.issue no op).1.activeWide } := by
  unfold Exu.issue
  split
  · rfl
  · split
    · rfl
    · split <;> rfl

/-- The unit as an instruction finds it once it is issued: only the wide unit's power state and the waiting instruction can differ. -/
def Exu.found (x : Exu) (no : Bool) (op : XOp) : Exu :=
  { x with wide := (x.issue no op).1.wide, wakeReq := (x.issue no op).1.wakeReq, activeWide := (x.issue no op).1.activeWide, pend := none }

theorem Exu.done_found (x : Exu) (no : Bool) (op : XOp) (w : XFields) : x.done no op w = (x.found no op).retire op w := by
  unfold Exu.done
  rw [Exu.issue_fst x no op]
  rfl

theorem Dev.issues_unit {d : Dev} {h : Nat} {op : XOp} {w : XFields} (hi : d.issues h op w) :
    (d.hearth h).exu.pend = none ∧ (d.hearth h).exu.unres = false ∧ h < 36 := by
  obtain ⟨_, hr⟩ := hi
  unfold Dev.unitReady at hr
  simp only [Bool.and_eq_true, decide_eq_true_eq, Bool.not_eq_true', Option.isNone_iff_eq_none] at hr
  exact ⟨hr.1.2, hr.2, hr.1.1⟩

/-- An instruction that leaves the unit as a function of it does, and goes on to the next word. -/
theorem retires_step (c : Instr) (s : State) (h : Nat) (op : XOp) (w : XFields) (P : Exu → Prop) (hi : s.dev.issues h op w)
    (hc : exec c s = s.unit h op w none) (f : Exu → Exu) (hf : ∀ x : Exu, x.unres = false → x.pend = none → x.retire op w = (f x).step)
    (hk : ∀ x : Exu, (f x).unres = x.unres ∧ (f x).pend = x.pend)
    (hP : P { (f ((s.dev.hearth h).exu.found (s.dev.narrowOnly h) op)).step with rpe := 0, fixes := 0 }) : Retires c h s P := by
  obtain ⟨_, hu, _⟩ := Dev.issues_unit hi
  have e : (s.dev.hearth h).exu.done (s.dev.narrowOnly h) op w = (f ((s.dev.hearth h).exu.found (s.dev.narrowOnly h) op)).step := by
    rw [Exu.done_found]; exact hf _ hu rfl
  refine retires_of c s h op w P hi hc ?_ ?_ ?_
  · rw [e]; show (f _).unres = false; rw [(hk _).1]; exact hu
  · rw [e]; show (f _).pend = none; rw [(hk _).2]; rfl
  · rw [e]; exact hP

/-- An instruction whose effect is Exu.vec gives each row its result and changes nothing else. -/
theorem lane_of (c : Instr) (s : State) (h : Nat) (op : XOp) (w : XFields) (t : XTy) (i : Nat) (o : LaneOut) (hi : s.dev.issues h op w) (h128 : i < 128)
    (hc : exec c s = s.unit h op w none) (an : Exu → XAnn) (g : Exu → Nat → LaneOut)
    (hf : ∀ x : Exu, opRun op x w = x.vec w t w.d.toNat (an x) (g x)) (hb : ∀ x : Exu, x.unres = false → x.pend = none → x.retire op w = (opRun op x w).step)
    (ho : g ((s.dev.hearth h).exu.found (s.dev.narrowOnly h) op) i = o) : Lane c h w s t i o := by
  refine retires_step c s h op w _ hi hc (fun x => x.vec w t w.d.toNat (an x) (g x)) (fun x a b => by rw [hb x a b, hf]) (fun x => ⟨rfl, rfl⟩) ?_
  have k := Exu.vec_spec ((s.dev.hearth h).exu.found (s.dev.narrowOnly h) op) w t w.d.toNat (an ((s.dev.hearth h).exu.found (s.dev.narrowOnly h) op)) _ i h128 o ho
  obtain ⟨k1, k2, k3, _, k5⟩ := k
  refine ⟨k1, k2, k3, ?_⟩
  have hp := (Dev.issues_unit hi).1
  simp only [Exu.moved, Exu.step]
  rw [show ((s.dev.hearth h).exu.found (s.dev.narrowOnly h) op).vec w t w.d.toNat (an ((s.dev.hearth h).exu.found (s.dev.narrowOnly h) op)) (g ((s.dev.hearth h).exu.found (s.dev.narrowOnly h) op)) = _ from k5]
  simp only [Exu.found, hp]

end Sys2Proof.Machine
end

