-- ==== Sys2Proof/Machine/Media.lean ====
section
/-!
DEFINITION. Sys2Proof/Machine/Media.lean: the bytes that the device's writes put on a drive (02_tables_pages_extents.md R61, R62, R74 to R77,
14_ingest_durability.md R427 to R433, R443): page slots under the table space's key, parity, extent headers, commit records and labels. A
drive command in `out` is a number; what it carries is read here from the state that issues it (notes/assumptions/141.md).
-/
namespace Sys2Proof.Machine

/-! ### Products in GF(2^8) (R76) -/

/-- The product of two bytes modulo a polynomial of degree 8, by `n` bits of the second factor. -/
def gfMulBits (poly : Nat) : Nat → Nat → Nat → Nat
  | 0, _, _ => 0
  | n + 1, a, b =>
    let rest := gfMulBits poly n (if a < 128 then 2 * a else (2 * a).xor poly) (b / 2)
    if b % 2 = 1 then a.xor rest else rest
/-- The product under the reducing polynomial 0x11D of R76. -/
def gfMul (a b : Nat) : Nat := gfMulBits 0x11D 8 a b
def gfPow (a : Nat) : Nat → Nat
  | 0 => 1
  | n + 1 => gfMul a (gfPow a n)

/-- The XOR of two byte strings. -/
def xorBytes (a b : Bytes) : Bytes := (a.zip b).map (fun p => p.1 ^^^ p.2)

/-- Parity strip j of the data strips of a row (R76). -/
def parityStrip (j : Nat) (strips : List Bytes) : Bytes :=
  let n := (strips.headD []).length
  (List.range strips.length).foldl (fun acc i =>
    let f := gfPow 2 (i * j)
    xorBytes acc ((strips.getD i []).map (fun b => BitVec.ofNat 8 (gfMul f b.toNat)))) (zeros n)

/-! ### AES-256-XTS (R443), as FIPS 197 and IEEE 1619 define it (notes/assumptions/3.md) -/

def aesMul (a b : Nat) : Nat := gfMulBits 0x11B 8 a b
def aesPow (a : Nat) : Nat → Nat
  | 0 => 1
  | n + 1 => aesMul a (aesPow a n)
/-- The substitution of one byte. -/
def aesSub (x : Byte) : Byte :=
  let i := BitVec.ofNat 8 (aesPow x.toNat 254)
  i ^^^ i.rotateLeft 1 ^^^ i.rotateLeft 2 ^^^ i.rotateLeft 3 ^^^ i.rotateLeft 4 ^^^ 0x63

/-- The words of the key schedule, the last first: one more word. -/
def aesWord (ws : List Bytes) : Bytes :=
  let i := ws.length
  let last := ws.headD []
  let t := if i % 8 = 0 then (match (last.drop 1 ++ last.take 1).map aesSub with | b :: r => (b ^^^ BitVec.ofNat 8 (aesPow 2 (i / 8 - 1))) :: r | [] => [])
    else if i % 8 = 4 then last.map aesSub else last
  xorBytes (ws.getD 7 []) t
def aesWords : Nat → List Bytes → List Bytes
  | 0, ws => ws
  | n + 1, ws => aesWords n (aesWord ws :: ws)
/-- The 15 round keys of a 32-byte key. -/
def aesKeys (key : Bytes) : List Bytes :=
  let ws := (aesWords 52 ((List.range 8).map (fun i => sliceAt key (4 * i) 4)).reverse).reverse
  (List.range 15).map (fun r => ((ws.drop (4 * r)).take 4).flatten)

/-- The four bytes of a column, mixed. -/
def aesMix (c : Bytes) : Bytes :=
  let b := fun (i : Nat) => (c.getD (i % 4) 0).toNat
  (List.range 4).map (fun i => BitVec.ofNat 8 ((aesMul 2 (b i)).xor ((aesMul 3 (b (i + 1))).xor ((b (i + 2)).xor (b (i + 3))))))
/-- One round on a block of 16 bytes; the last does not mix. -/
def aesRound (final : Bool) (s k : Bytes) : Bytes :=
  let u := s.map aesSub
  let v := (List.range 16).map (fun i => u.getD ((i + 4 * (i % 4)) % 16) 0)
  xorBytes (if final then v else ((List.range 4).map (fun c => aesMix (sliceAt v (4 * c) 4))).flatten) k
/-- A block enciphered under round keys. -/
def aesBlock (ks : List Bytes) (b : Bytes) : Bytes :=
  (List.range 14).foldl (fun s r => aesRound (r == 13) s (ks.getD (r + 1) [])) (xorBytes b (ks.headD []))

/-- The next tweak of a data unit: times x modulo x^128 + x^7 + x^2 + x + 1. -/
def xtsNext (t : Bytes) : Bytes :=
  let n := 2 * leNat t
  natLE 16 (if n < 2 ^ 128 then n else (n - 2 ^ 128).xor 0x87)
/-- `n` blocks of a data unit. -/
def xtsBlocks (ks : List Bytes) : Nat → Bytes → Bytes → Bytes
  | 0, _, _ => []
  | n + 1, t, b => xorBytes (aesBlock ks (xorBytes (b.take 16) t)) t ++ xtsBlocks ks n (xtsNext t) (b.drop 16)
/-- A 4 KiB block enciphered under the two halves of a key (R443, R573). -/
def xtsUnit (key : Bytes) (tweak : Nat) (b : Bytes) : Bytes :=
  xtsBlocks (aesKeys (key.take 32)) 256 (aesBlock (aesKeys (key.drop 32)) (natLE 16 tweak)) (fitTo 4096 b)

/-- The tweaks of R443. -/
def pageTweak (extent slot block : Nat) : Nat := extent * 2 ^ 8 + (16 * slot + block)
def headerTweak (extent : Nat) : Nat := 2 ^ 127 + extent
def spillTweak (group row block : Nat) : Nat := 3 * 2 ^ 126 + group * 2 ^ 64 + row * 2 ^ 8 + block

/-! ### Stripe rows (R74, R76, R77) -/

/-- A page slot as it stands on the drives: enciphered, or zeros where it is not used (R77). -/
def Extent.slotOnMedia (e : Extent) (key : Bytes) (p : Nat) : Bytes :=
  if p < e.slots then ((List.range 16).map (fun b => xtsUnit key (pageTweak e.num p b) (sliceAt (e.slotBytes p) (4096 * b) 4096))).flatten
  else zeros 65536
/-- Data strip s: 16 / k page slots one after another (R74). -/
def Extent.dataStrip (e : Extent) (key : Bytes) (scheme s : Nat) : Bytes :=
  let n := 16 / schemeK scheme
  ((List.range n).map (fun i => e.slotOnMedia key (s * n + i))).flatten
/-- The strip of a number: data, then parity over the data strips as written. -/
def Extent.strip (e : Extent) (key : Bytes) (scheme s : Nat) : Bytes :=
  if s < schemeK scheme then e.dataStrip key scheme s
  else parityStrip (s - schemeK scheme) ((List.range (schemeK scheme)).map (e.dataStrip key scheme))
/-- The strip that the member at a position holds: strip s lies at (s + r) mod (k + m). -/
def stripAt (scheme row pos : Nat) : Nat :=
  let n := schemeK scheme + schemeM scheme
  (pos + n - row % n) % n

/-! ### Extent headers (R61, R62, Tables 2.6 and 2.7) -/

/-- The summary of a data page: a copy of its header's facts. -/
def pageSummary (p : Bytes) : Bytes :=
  sliceAt p 0x14 4 ++ sliceAt p 0x34 4 ++ sliceAt p 6 2 ++ sliceAt p 0x3C 1 ++ sliceAt p 0x3D 1 ++ sliceAt p 0xBC 4 ++ sliceAt p 0x40 64

/-- The bound of an extent over its data pages: the least zone_min, or the greatest zone_max, with its length. -/
def extentBound (t : SlotTy) (zs : List Zone) (isMin : Bool) : Bytes × Nat :=
  let low := fun (z : Zone) => if isMin then zoneLow t z else zoneHigh t z
  let less := fun (a b : Bytes) => if t.ty = .packedDecimal then decide (valInt .decimal128 a < valInt .decimal128 b) else zoneLess t.ty a b
  match zs.foldl (fun (m : Option Zone) z => match m with
      | none => some z
      | some w => if (if isMin then less (low z) (low w) else less (low w) (low z)) then some z else some w) none with
  | some z => if isMin then (z.zmin, z.minLen) else (z.zmax, z.maxLen)
  | none => (zeros 16, 0)

/-- The header block of an extent of a table space, for a retiring epoch. -/
def Extent.header (e : Extent) (ts scheme : Nat) (t : SlotTy) (ordered : Bool) (retire : Nat) : Bytes :=
  let zs := e.pages.map (fun p => pageZone p.2)
  let zm := zs.filter (·.zmValid)
  let lo := extentBound t zm true
  let hi := extentBound t zm false
  let flags := b2n (!e.dictPages.isEmpty) + 2 * b2n (!e.dictPages.isEmpty && ordered) + 4 * b2n (!zm.isEmpty)
  withCrc (
    natLE 4 0x51E90E77 ++ natLE 1 1 ++ natLE 1 t.ty.code ++ natLE 2 flags ++ natLE 4 ts ++ natLE 4 e.table ++ natLE 2 e.col ++
    natLE 1 e.dictPages.length ++ natLE 1 e.pages.length ++ natLE 4 e.rows ++ natLE 8 e.num ++ natLE 8 e.firstRow ++ natLE 8 e.create ++
    natLE 8 retire ++ natLE 2 e.group ++ natLE 1 scheme ++ zeros 1 ++ natLE 4 e.row ++ natLE 4 (zs.map (·.nulls)).sum ++ natLE 1 lo.2 ++ natLE 1 hi.2 ++
    zeros 2 ++ fitTo 16 lo.1 ++ fitTo 16 hi.1 ++ zeros 152 ++
    fitTo 1280 (zeros (80 * e.dictPages.length) ++ (e.pages.map (fun p => pageSummary p.2)).flatten) ++ zeros 2556)

/-! ### Commit records (R429, Tables 14.2 and 14.4) -/

/-- The fields of a record's header block. -/
structure RecHead where
  kind : Nat
  retireAll : Bool := false
  ts : Nat := 0
  table : Nat := 0
  epoch : Nat := 0
  seq : Nat := 0
  reserved : Nat := 0
  firstRow : Nat := 0
  rows : Nat := 0
  slagFirst : Nat := 0
  slag : Nat := 0
  creates : Nat := 0
  retires : Nat := 0
  blocks : Nat := 2
  fn : Nat := 0
  queue : Nat := 0xFFFF
  cid : Nat := 0
  writer : Nat := 0
  op : Nat := 0
deriving DecidableEq, Repr, Inhabited

/-- The header block; `inner` is the device-internal catalog data of kinds 3, 5 and 6. -/
def RecHead.block (r : RecHead) (inner : Bytes) : Bytes :=
  withCrc (
    natLE 4 0x51E90C0A ++ natLE 1 1 ++ natLE 1 r.kind ++ natLE 2 (b2n r.retireAll) ++ natLE 4 r.ts ++ natLE 4 r.table ++ natLE 8 r.epoch ++
    natLE 8 r.seq ++ natLE 8 r.reserved ++ natLE 8 r.firstRow ++ natLE 8 r.rows ++ natLE 8 r.slagFirst ++ natLE 8 r.slag ++ natLE 4 r.creates ++
    natLE 4 r.retires ++ natLE 4 r.blocks ++ natLE 2 r.fn ++ natLE 2 r.queue ++ natLE 2 r.cid ++ natLE 1 r.writer ++ zeros 5 ++
    natLE 8 (r.op % 2 ^ 40) ++ fitTo 3988 (if r.kind = 3 ∨ r.kind = 5 ∨ r.kind = 6 then inner else []))

/-- The blocks of the retire entries: extent number, table and column. -/
def retireBlocks (l : List (Nat × Nat × Nat)) : Bytes :=
  padTo 4096 ((l.map (fun e => natLE 8 e.1 ++ natLE 4 e.2.1 ++ natLE 2 e.2.2 ++ zeros 2)).flatten)

/-- A whole record: header, extent headers, retire blocks and trailer. -/
def recordBytes (r : RecHead) (inner : Bytes) (headers : List Bytes) (retired : List (Nat × Nat × Nat)) : Bytes :=
  let body := r.block inner ++ headers.flatten ++ retireBlocks retired
  body ++ withCrc (natLE 4 0x51E90C0E ++ natLE 4 r.blocks ++ natLE 8 r.seq ++ natLE 8 r.epoch ++ natLE 4 (crc32c body).toNat ++ zeros 4064)

/-- The record of a commit, with its journal_seq, under the key of its table space. -/
def Dev.commitRecord (d : Dev) (c : Commit) (seq : Nat) (key : Bytes) : Bytes :=
  let s := (d.space c.ts).getD { id := c.ts, x := 0 }
  let who := d.commitWho c
  let col := fun (e : Extent) => ((s.tables.find? (fun t => t.id == e.table)).bind (fun t => t.cols.find? (fun k => k.id == e.col))).getD { id := e.col, ty := default }
  let heads := c.created.map (fun e =>
    xtsUnit key (headerTweak e.num) (({ e with create := c.epoch } : Extent).header c.ts (d.schemeOf e.group) (col e).ty (col e).dictOrd 0))
  let out := s.extents.filter (fun e => c.retired.contains e.num)
  recordBytes
    { kind := c.kind, retireAll := c.retireAll, ts := c.ts, table := c.table, epoch := c.epoch, seq := seq, reserved := s.reserved, firstRow := c.firstRow
      rows := c.rows, slagFirst := c.slagFirst, slag := c.slag, creates := c.created.length, retires := out.length, blocks := c.blocks
      fn := who.1, queue := who.2.1, cid := who.2.2, writer := c.writer, op := d.opSec }
    (Config.catalogData c.ts c.epoch) heads (out.map (fun e => (e.num, e.table, e.col)))

/-- A record of two blocks that no operation owns: RESERVE, CHECKPOINT, SHUTDOWN and the records of an ownership (R425, R431, R433). -/
def Dev.plainRecord (d : Dev) (kind ts epoch seq : Nat) : Bytes :=
  let s := (d.space ts).getD { id := ts, x := 0 }
  recordBytes { kind := kind, ts := ts, epoch := epoch, seq := seq, reserved := if kind = 6 ∨ kind = 9 then 0 else s.reserved, writer := d.twin.pos, op := d.opSec }
    (Config.catalogData ts epoch) [] []

/-! ### Labels (R428, Table 14.3) -/

/-- The label block of a drive; a spare leaves the member's fields zero. -/
def Dev.labelBytes (d : Dev) (l : Label) : Bytes :=
  let g := d.store.groups.find? (fun q => q.id == l.group)
  let mem := l.role == 0
  withCrc (natLE 4 0x51E90D7B ++ natLE 1 1 ++ natLE 1 l.role ++ zeros 2 ++ natLE 8 l.pair ++ natLE 8 l.seq ++
    (if mem then natLE 2 l.group ++ natLE 1 l.pos ++ natLE 1 (match g with | some q => q.scheme | none => 0) ++ natLE 4 (match g with | some q => q.rows | none => 0)
      else zeros 8) ++ natLE 16 l.nguid ++ zeros 4044)

/-! ### What a drive write carries -/

/-- The key of a table space, where the secure SRAM holds it. -/
def Dev.spaceKey (d : Dev) (ts : Nat) : Bytes :=
  match d.space ts with
  | some s => (match d.sec.keys.find? (fun k => k.ref == s.key) with | some k => k.key | none => [])
  | none => []

/-- The records of a group's ring with the journal_seq of each. -/
def Journal.numbered (j : Journal) : List ((Nat × Nat × Nat × Nat) × Nat) :=
  (List.range j.recs.length).filterMap (fun i => (j.recs[i]?).map (fun r => (r, j.seq + 1 + i - j.recs.length)))

/-- The data strips of a directory extent (R61, R431, R443): its headers, each block enciphered under its extent's tweak, then zeros. -/
def Dev.dirStrip (d : Dev) (s : TSpace) (f : DirExt) (scheme n : Nat) : Bytes :=
  let sb := stripBlocks scheme
  fitTo (4096 * sb) (((f.heads.drop (sb * n)).take sb).map (fun h =>
    match s.extents.find? (fun x => x.num == h.1) with
    | some x =>
      let c := ((s.tables.find? (fun t => t.id == x.table)).bind (fun t => t.cols.find? (fun k => k.id == x.col))).getD { id := x.col, ty := default }
      xtsUnit (d.spaceKey s.id) (headerTweak x.num) (x.header s.id (d.schemeOf x.group) c.ty c.dictOrd h.2)
    | none => zeros 4096)).flatten

/-- A data strip of a level-4 row of a piece, enciphered under R443: what a piece's bytes are is the device's own form (DESIGN CHOICE,
notes/assumptions/67.md). -/
def Dev.spillStrip (d : Dev) (key : Bytes) (query : Nat) (s : Spill) (k : Nat) (row : Nat × Nat) (n : Nat) : Bytes :=
  let sb := stripBlocks (d.schemeOf row.1)
  ((List.range sb).map (fun b =>
    let blk := sb * n + b
    if blk < 16 * s.slots k then
      xtsUnit key (spillTweak row.1 row.2 blk) ((List.range 4096).map (fun j => let o := 1048576 * k + 4096 * blk + j; if o < s.bytes then Config.spillByte query s.id o else 0))
    else zeros 4096)).flatten

/-- The strip of a stripe row at a position (R74, R76): of the extent or the directory extent that lies there. -/
def Dev.rowStrip (d : Dev) (g row pos : Nat) : Bytes :=
  let sc := d.schemeOf g
  let n := stripAt sc row pos
  let here := fun (x : Extent) => x.group == g && x.row == row
  match d.store.spaces.findSome? (fun s => (s.extents.find? here).map (fun x => (s.id, x))),
        d.store.commits.findSome? (fun c => (c.created.find? here).map (fun x => (c.ts, x))),
        d.store.spaces.findSome? (fun s => (s.dirs.find? (fun f => f.group == g && f.row == row)).map (fun f => (s, f))) with
  | some (ts, x), _, _ => x.strip (d.spaceKey ts) sc n
  | none, some (ts, x), _ => x.strip (d.spaceKey ts) sc n
  | none, none, some (s, f) => if n < schemeK sc then d.dirStrip s f sc n else parityStrip (n - schemeK sc) ((List.range (schemeK sc)).map (d.dirStrip s f sc))
  | none, none, none => []

/-- The bytes of a drive write while the command is outstanding: its part of a strip of an extent or of a directory extent, or a record of the
ring; a Write Zeroes carries none. -/
def Dev.driveBytes (d : Dev) (c : DCmd) : Bytes :=
  let ring := match d.journal c.group with | some j => j.numbered | none => []
  let part := fun (b : Bytes) => sliceAt b (4096 * ((c.lba - 16384) % stripBlocks (d.schemeOf c.group))) (4096 * c.blocks)
  if !c.write || c.zeros then []
  else match c.use with
    | .commitData ts e =>
      if c.lba < 16384 then d.plainRecord 5 ts e ((ring.find? (fun r => r.1.1 == 5 && r.1.2.2.1 == ts && r.1.2.2.2 == e)).map (·.2) |>.getD 0)
      else match (d.commitOf ts e).bind (fun k => k.created.find? (fun x => x.group == c.group && x.row == c.row)) with
        | some x =>
          part (x.strip (d.spaceKey ts) (d.schemeOf c.group) (stripAt (d.schemeOf c.group) c.row c.pos))
        | none => []
    | .commitRecord ts e =>
      (match d.commitOf ts e with
        | some k => d.commitRecord k ((ring.find? (fun r => r.1.2.2.1 == ts && r.1.2.2.2 == e && r.1.1 != 5)).map (·.2) |>.getD 0) (d.spaceKey ts)
        | none => [])
    | .journal =>
      if 16384 ≤ c.lba then
        part (d.rowStrip c.group c.row c.pos)
      else (match ring.getLast? with | some r => d.plainRecord r.1.1 r.1.2.2.1 r.1.2.2.2 r.2 | none => [])
    | .rebuild _ _ => d.rowStrip c.group c.row c.pos
    | .spill id =>
      (match (d.query id).bind (fun q => (q.spills.find? (fun s => s.rows.contains (c.group, c.row))).map (fun s => (q, s))) with
       | some (q, s) =>
         let sc := d.schemeOf c.group
         let n := stripAt sc c.row c.pos
         let one := d.spillStrip (d.spaceKey q.ts) id s (s.rows.findIdx (· == (c.group, c.row))) (c.group, c.row)
         part (if n < schemeK sc then one n else parityStrip (n - schemeK sc) ((List.range (schemeK sc)).map one))
       | none => [])
    | _ => []

end Sys2Proof.Machine
end

