-- ==== Sys2Proof/Tests/Slice0.lean ====
section
/-!
SUPPORT. Sys2Proof/Tests/Slice0.lean: the model's own tests: commands that a sender cannot form are refused; values that the spec writes out (Tables
7.11, 8.1, 8.4, 8.6, 8.7, 8.15, 8.16, 9.10, 9.11 and the worked examples of chapters 2 and 22); and, for every statement with hypotheses, a
state and operands that meet them.
-/
namespace Sys2Proof.Tests
open Sys2Proof Sys2Proof.Machine

set_option Elab.async false

/-! ### States that the witnesses start from -/

/-- The block in service: Autonomous Serve mode, both host links up. -/
def on : Dev :=
  { regs := [], start := { service := true, stage := 7 }, pwr := { aonGood := true, sysGood := true, mode := 5 },
    host := { links := [(0, { up := true, perst := false }), (1, { up := true, perst := false })] } }
/-- A state of a device with nothing waiting. -/
def st (d : Dev) : State := { dev := d }
/-- 64 bytes with fields (offset, bytes, value). -/
def ent (l : List (Nat × Nat × Nat)) : Bytes := l.foldl (fun b p => putAt b p.1 (natLE p.2.1 p.2.2)) (zeros 64)
/-- A queue pair of a function. -/
def onQ (x q : Nat) (p : Qp) : Dev := on.qpUpd x q (fun _ => p)
/-- A queue pair with commands. -/
def onC (x q : Nat) (l : List Cmd) : Dev := onQ x q { state := .active, cmds := l }
/-- A command of an operation code on table space 1. -/
def cm (op : Nat) (l : List (Nat × Nat × Nat)) : Cmd := { cid := 5, idx := 0, op := op, entry := ent ([(0, 1, op), (2, 2, 5), (8, 4, 1)] ++ l), seq := 0 }
/-- Table space 1 of function 0, its key loaded, with table 9 of one column. -/
def sp1 : TSpace := { id := 1, x := 0, floor := 4, visible := 4, lastEpoch := 4, reserved := 20, key := 7, tables := [{ id := 9, create := 1, cols := [{ id := 0, ty := { ty := .int32 }, added := 1 }] }] }
def onS (d : Dev) : Dev := { d with store := { d.store with spaces := [sp1] }, sec := { d.sec with keys := [{ ref := 7, check := [] }] } }
/-- A pipeline image of three stages, SCAN, DECODE and EMIT, over column 0 of table 9, in words of 8 bytes (Tables 4.1 to 4.12, 5.1, 5.2). -/
def img : Bytes :=
  ([0x1000151e9014a, 0x3000500000280, 0x10000, 0x0, 0x0, 0x0, 0x0, 0x0, 0x0, 0x0, 0x0, 0x0, 0x0, 0x0, 0x0, 0x817b751071910eb3] ++
   [0x10000000001, 0x300000060, 0x18000000002, 0x200000010, 0x1c000000005, 0x100000010, 0x20000000007, 0x100000030, 0x24000000008, 0x18, 0x0, 0x0, 0x0, 0x0, 0x0, 0x0] ++
   [0x1000001, 0x800000000, 0xffffffff, 0x1, 0x1010003, 0x0, 0xffffffff, 0x0, 0x10013, 0x1000000008, 0xffffffff, 0x0, 0x0, 0x0, 0x0, 0x0] ++
   [0x100000000, 0x200000001, 0x0, 0x0, 0x0, 0x0, 0x0, 0x0, 0x4000000000009, 0x0, 0x0, 0x0, 0x0, 0x0, 0x0, 0x0] ++
   [0x0, 0x0, 0x10000, 0x0, 0x0, 0x0, 0x0, 0x0, 0x1, 0x800, 0x0, 0x0, 0x0, 0x0, 0x0, 0x0]).flatMap (natLE 8)
def imI : Image := parseImage img
def subI : Submit :=
  { x := 0, q := 1, cid := 5, ts := 1, descr := { imageBytes := 640, paramBytes := 16, paramAddr := 8192, digest := sha 0 img, rings := [4096] },
    missing := true, fetched := some (some img) }
def cmI : Cmd := { cm 2 [(0x20, 4, 9)] with data := [(4096, 64), (8192, 64)], bind := 4 }
def cmD : Cmd := { cm 7 [] with data := [(4096, 64), (8192, 64)] }
def subE : Submit := { x := 0, q := 1, cid := 5, ts := 1, missing := true, fetched := some (some []) }
def tb9 : Table := { id := 9, create := 1, cols := [{ id := 0, ty := { ty := .int32 }, added := 1 }] }
def ex3 : Extent := { num := 3, table := 9, col := 0, firstRow := 0, rows := 1, create := 1, group := 1, row := 0, dictPages := [[1]], pages := [(1, [2])] }
def sp2 : TSpace := { sp1 with extents := [ex3] }
/-- Stripe group 1 of scheme 4 + 1 on drives 20 to 24, present and in service. -/
def sg1 : SGroup := { id := 1, scheme := 0, members := [20, 21, 22, 23, 24], rows := 100 }
def dr1 : Drive := { present := true, power := true, refclk := true, perst := false, link := true, state := 2, blocks := 1000000 }
def onS2 (d : Dev) : Dev :=
  { onS d with store := { (onS d).store with spaces := [sp2], groups := [sg1], drives := [(20, dr1), (21, dr1), (22, dr1), (23, dr1), (24, dr1), (25, dr1)] } }
def onH (d : Dev) : Dev := { onS d with store := { (onS d).store with holds := [⟨2, 0, 1, 4⟩] } }
/-- A queue pair with one entry to fetch, and that entry. -/
def onF : Dev := onQ 0 1 { state := .active, cfg := 0x303, sqTail := 1 }
def entF : Bytes := ent [(0, 1, 4), (1, 1, 2), (2, 2, 5)]
/-- A query of function 0, and a ring whose oldest buffer is closed. -/
def q1 : Query := { id := 1, x := 0, q := 1, cid := 5, ts := 1, epoch := 4, autonomous := true, image := {}, digest := [], cached := false }
def rg : Ring :=
  { addr := 4096, buffers := 2, vector := 0xFFFF, bytes := 4096, addrs := [8192, 12288], stalled := true, num := 1,
    closed := [{ num := 0, used := 128, batches := 1, rows := 3, last := false, charges := [] }] }
/-- Function 513 in D3hot with one write held back. -/
def onD3 : Dev := on.fnUpd 513 (fun f => { f with d3hot := true, held := [.hostWrite 513 0 []] })
/-- SCAN, an ordered DECODE and EMIT, and a query over them with one chunk, or one charge, at the DECODE stage. -/
def im3 : Image :=
  { ordered := true, stages := [{ op := 0x01, outP := 1 }, { op := 0x03, flags := 1, inP := 1, outP := 1 }, { op := 0x13, inP := 1 }]
    edges := [{ src := 0, dst := 1 }, { src := 1, dst := 2 }], resources := [{}] }
def q3 (s1 : StageRun) : Query := { q1 with image := im3, stages := [{}, s1, {}] }
def hr : Hearth := { on := true, powered := true }
def onQ3 (s1 : StageRun) (h : Hearth) : Dev := { on with qry := { queries := [q3 s1], hearths := [(35, h)] } }
def ref1 : CRef := ⟨1, 1, 7, .flow⟩
def chR : Charge := { idx := 7, input := [{ up := 7 }] }
def run1 (c : Charge) (u : Bool) : Dev := onQ3 { charges := [c], nextRel := 7 } { hr with running := some ref1, exu := { unres := u } }
def runC : Charge := { chR with state := .running, hearth := some 35 }
def en1 (c : Bool) : Engine := { now := some { isCharge := c, a := 0, b := 1, c := 5 } }
def jb1 : EngJob := { x := 0, q := 1, cid := 5, op := .digest 0 4096, pieces := [(0, zeros 200)], want := 1 }
def dcW : DCmd := { id := 9, drive := 20, write := false, use := .gone, waiting := true }
/-- A VXP packet of node 2 to node 1 on association 3, psn 5 (Tables 11.2 to 11.9). -/
def vp (kind : Nat) (hdr body : Bytes) : VPkt :=
  let b := natLE 1 0 ++ natLE 1 kind ++ natLE 1 0 ++ natLE 1 (hdrWords kind) ++ natLE 2 2 ++ natLE 2 1 ++ natLE 4 3 ++ natLE 4 5 ++ natLE 4 body.length ++ hdr
  { half := 15, addr := [1], ce := false, data := b ++ natLE 4 (crc32c b).toNat ++ body }
def vi (kind : Nat) (hdr body : Bytes) : VIn := { kind := kind, flags := 0, src := 2, dst := 1, id := 3, psn := 5, hdr := hdr, body := body }
def as1 : Assoc := { peer := 2, me := 1, own := 9, theirs := some 3, opened := true, minor := 1, seg := 4096, rxCum := 5, sinceAck := 14 }
/-- A device that is node 1, with a half up and node 2 listed. -/
def onV (a : List Assoc) : Dev :=
  { on with regs := [(0x02500000, 0x10001)], fab := { nodes := [(2, [[1]])], assocs := a, halves := [(15, { up := true })] } }
def sf1 : SFlow := { query := 1, exch := 7, stage := 1, sender := 1, node := 2, window := 65536 }
def onVF (f : SFlow) : Dev := { onV [as1] with fab := { (onV [as1]).fab with sflows := [f] } }
def rf1 : RFlow := { sender := 2, exch := 7, stage := 1, me := 1 }
/-- A query whose one stage receives exchange 7 of send stage 1, or sends to node 2. -/
def qX (op : Nat) : Query :=
  { q1 with image := { stages := [{ op := op, pBytes := 16 }], opBytes := ent [(2, 2, 1)], resources := [{ hbm := 65536 }] }, stages := [{}]
            params := [({ ty := .uint32 }, some (natLE 4 7)), ({ ty := .binary }, some (natLE 2 2))] }
def dHdr : Bytes := natLE 4 7 ++ natLE 2 1 ++ natLE 2 0 ++ natLE 8 0 ++ natLE 4 8 ++ natLE 4 0
def onVD : Dev := { onV [{ as1 with seg := 4 }] with fab := { (onV [{ as1 with seg := 4 }]).fab with rflows := [rf1] }, qry := { queries := [qX 0x12] } }
def fHdr : Bytes := natLE 4 7 ++ natLE 2 1 ++ natLE 2 0 ++ natLE 8 4 ++ natLE 8 3
def sm1 : XMsg := { charge := 3, piece := 0, flags := 0, data := [1, 2], sent := true }
def rHdr : Bytes := natLE 4 7 ++ natLE 2 1 ++ natLE 2 0 ++ natLE 8 3
def as2 : Assoc := { as1 with opened := false, theirs := none }
def tx1 : VTx := { psn := 4, kind := 1 }
def aHdr : Bytes := natLE 4 5 ++ zeros 12
def raB : Bytes := natLE 4 1 ++ natLE 4 7 ++ natLE 2 1 ++ natLE 2 0 ++ natLE 8 3
/-- Memory units 0 and 7 up, one entry of context 1, and its line in way 15 of its set. -/
def xl1 : XlEntry := { ctx := 1, page := 0, tier := 0, unit := 0, frame := 0 }
def onM (e : XlEntry) (c : CSet) : Dev :=
  { on with mem := { units := [(0, { state := 2, gb := 1, rk := 1 }), (7, { state := 2, gb := 16, rk := 1 })], entries := [e], sets := [(0, c)] } }
def ln1 : CLine := { line := 0, data := zeros 128 }
def cs1 : CSet := { ways := [(15, some ln1)] }
def onX (x : Exu) : Dev := { on with qry := { hearths := [(35, { hr with exu := x })] } }
def pn1 : XPend := { op := .nop, w := {}, flt := { lane := 127, cause := 2, addr := 0 }, attempt := 0 }
def su1 : SysUpdate := { x := 0, table := 0 }
/-- A function with an open session on its mailbox. -/
def onB (x : Nat) (d : Dev) : Dev := { d with mail := { d.mail with boxes := [(x, { ready := true, session := some 4 })] } }
/-- A request whose payload has fields (offset, bytes, value). -/
def rq (n : Nat) (l : List (Nat × Nat × Nat)) : MbReq := { seq := 9, bytes := n, payload := (ent l).take n }
def onVf : Dev := { on with fn := { numVfs := [(1, 512)] } }
def op1 : LongOp := { handle := 1, x := 0, op := 0x34 }
def onOp (o : LongOp) : Dev := { onB 0 on with mail := { (onB 0 on).mail with ops := [o] } }
def cl3 : Claim := { num := 1, cls := 3, index := 15, x := 513, holder := 1, bytes := 2097152, dva := 2097152 }
def cl4 : Claim := { num := 1, cls := 4, index := 63, x := 0, holder := 1 }
def onCl (x : Nat) (c : Claim) : Dev := { onB x on with mail := { (onB x on).mail with claims := [c] } }
def wr8 (v e : Nat) : MbReq := rq 32 [(0, 4, 0x02500008), (4, 1, 4), (8, 8, 0xFFFFFFFF), (16, 8, v), (24, 8, e)]
def nodeB : Bytes := natLE 2 2 ++ natLE 2 1 ++ zeros 132
def onOff : Dev := { onB 0 on with host := {} }
def chg0 : Change := { fromMode := 5, toMode := 3 }
/-- The image with a FILTER stage whose predicate selects every row: SETSEL, END. -/
def img2 : Bytes :=
  ([0x1000151e9014a, 0x40006000002c0, 0x100010000, 0x0, 0x0, 0x0, 0x0, 0x0, 0x0, 0x0, 0x0, 0x0, 0x0, 0x0, 0x0, 0x2085e15048181a80] ++
   [0x10000000001, 0x400000080, 0x18000000002, 0x300000018, 0x1c000000003, 0x100000020, 0x20000000005, 0x100000010, 0x24000000007, 0x100000030, 0x28000000008, 0x20, 0x0, 0x0, 0x0, 0x0] ++
   [0x1000001, 0x800000000, 0xffffffff, 0x1, 0x1010003, 0x0, 0xffffffff, 0x0, 0x1010004, 0x800000008, 0xffff0000, 0x0, 0x10013, 0x1000000010, 0xffffffff, 0x0] ++
   [0x100000000, 0x200000001, 0x300000002, 0x0, 0x0, 0x0, 0x0, 0x0, 0x1000000010, 0x1, 0x500000000000000, 0x100000000000000, 0x0, 0x0, 0x0, 0x0] ++
   [0x4000000000009, 0x0, 0x0, 0x0, 0x0, 0x0, 0x0, 0x0, 0x0, 0x0, 0x10000, 0x0, 0x0, 0x0, 0x0, 0x0] ++
   [0x1, 0x0, 0x800, 0x0, 0x0, 0x0, 0x0, 0x0]).flatMap (natLE 8)
def rqV : MbReq := { seq := 9, bytes := 56, payload := (ent [(0, 4, 1), (4, 4, 9), (16, 4, 704)]).take 24 ++ sha 0 img2, buf := some img2 }
def onBS (sp : TSpace) : Dev := onB 0 { onS on with store := { on.store with spaces := [sp] } }
def spE : TSpace := { sp1 with tables := [] }
def tb2 : Table := { tb9 with cols := tb9.cols ++ [{ id := 1, ty := { ty := .int64 }, added := 1 }] }
def k7 : SecKey := { ref := 7, check := [] }
def colB : Bytes := (ent [(2, 1, 4), (16, 1, 0xFF)]).take 24
def onG (ds : Tab Drive) (g : List SGroup) : Dev := { onB 0 on with store := { drives := ds, groups := g } }
def fr5 (st : Nat) (n : Nat) : Tab Drive := (List.range 5).map (fun i => (20 + i, { dr1 with state := st, blocks := n }))
def onU (u : Nat) (m : MemUnit) : Dev := { onB 0 on with mem := { units := [(u, m)] } }
def op36 : LongOp := { handle := 1, x := 0, op := 0x36, args := [3] }
def op50 (n : Nat) : LongOp := { handle := 1, x := 0, op := 0x50, args := [1], data := [1, 2, 3, 4], done := n, total := 3 }
def onFw (a : Option FwActive) (s : Nat) : Dev := { onB 0 on with mail := { (onB 0 on).mail with fwA := { state := s }, activating := a } }
def onCt (sp : TSpace) (l : List Commit) : Dev :=
  { onS on with store := { on.store with spaces := [sp], commits := l, groups := [sg1], drives := fr5 2 1000000 } }
def cw5 : Commit := { ts := 1, epoch := 5, use := .catalog 0, kind := 3 }
def sp5 (o : List Nat) : TSpace := { sp1 with home := 1, lastEpoch := o.getLastD 4, open_ := o }
def jr (n : Nat) : Journal := { group := 1, twin := 0, head := n, recs := [(5, n, 1, 4)] }
def dcC (w : Bool) (u : DriveUse) : DCmd := { id := 9, drive := 71, write := w, use := u }
def hd1 : DCmd := { dcC false (.charge 1 0 0) with what := { ts := 1, ext := 3, blocks := 1, header := true } }
def onDc (c : DCmd) : Dev := { on with store := { dcmds := [c], nextCmd := 10 } }
def onDr (d : Drive) : Dev := { on with store := { drives := [(71, d)] } }
def drU : Drive := { present := true, power := true, refclk := true, perst := false, state := 1 }
def rb1 : Rebuild := { group := 1, pos := 4, drive := 71 }
def onRb (n : Nat) : Dev := { on with store := { groups := [{ sg1 with used := List.range n }], rebuilds := [rb1], drives := [(71, { dr1 with state := 7 })] } }
def tw0 : TwinSt := { up0 := true, rxNext := 7, state := 3, pairId := 5, pos := 0, lastRx := 0 }
def onT (t : TwinSt) : Dev := { on with twin := t }
def onTS (t : TwinSt) (sp : TSpace) (l : List Commit) : Dev := { onCt sp l with twin := t }
def txF (a : TAct) : TTx := { seq := 6, kind := 7, body := [], act := a }
def pc5 : PCmd := { x := 0, q := 1, idx := 0, entry := ent [(2, 2, 5)] }
def ckm : CkptMsg := { x := 0, q := 1, cid := 5, stage := 0, idx := 0, epoch := 4, autonomous := true }
/-- A twin with three drives in its witness set, and a witness block of its partner. -/
def onW (t : TwinSt) : Dev := { on with store := { groups := [sg1], drives := fr5 2 1000000 }, twin := t }
def wbH (seq fl : Nat) : Bytes := natLE 4 0x51E90A11 ++ natLE 1 1 ++ natLE 1 1 ++ natLE 2 fl ++ natLE 8 5 ++ natLE 8 seq ++ zeros 4068
def wb (seq fl crc : Nat) : Bytes := wbH seq fl ++ natLE 4 crc
def twD (n : Nat) : TwinSt := { tw0 with still := [20, 21], advanced := n }
def p5 : PwrSt := { aonGood := true, sysGood := true, mode := 5 }
def onP (p : PwrSt) : Dev := { on with pwr := p }
def ch0 : Change := { fromMode := 3, toMode := 5, units := [36], prepared := true, vddReady := true }
def onHs (n : Nat) (h : Hearth) : Dev :=
  { onP { p5 with mode := 6, ceiling := 120, samples := [1300] } with qry := { hearths := (List.range n).map (fun k => (k, h)) } }
def onA (u : StartSt) : Dev := { regs := [], start := u, pwr := { aonGood := true } }
def onB2 (u : StartSt) : Dev := { on with start := u }
def se1 : SecSession := { num := 1, transport := 2, auth := 1 }
def onSec (q : SecSession) (u : SecSt) : Dev := { on with sec := { u with sessions := [q] } }
def tk (a b : Nat) : Bytes := (ent [(5, 1, a), (6, 1, b)])
def onRc (r : RecSt) : Dev := { on with rcd := r }
/-- The RX4 window bound to column 0 of table 9, FIXED_BINARY of 8 bytes. -/
def spR : TSpace := { sp1 with tables := [{ tb9 with cols := [{ id := 0, ty := { ty := .fixedBinary, len := 8 }, added := 1 }] }] }
def onR (r : Rx4St) (en : BitVec 32) : Dev :=
  { onS on with store := { (onS on).store with spaces := [spR] }, regs := [(0x03000000, en), (0x03000004, 1), (0x03000008, 9)], rx4 := r
                mem := { units := [(7, { state := 2, gb := 16, rk := 1 }), (0, { state := 2, gb := 1, rk := 1 })] }, qry := { hearths := [(35, { powered := true })] } }
/-- A command block of n fields of 2 bytes at position 1, over 2 records of 8 bytes. -/
def rxB (op n : Nat) : Bytes :=
  natBE 4 0 ++ natBE 1 op ++ natBE 1 0 ++ natBE 1 n ++ natBE 1 0 ++ natBE 2 8 ++ natBE 2 0 ++ natBE 4 2 ++ zeros 8 ++ natBE 4 (if op = 5 then 1 else 0) ++
    zeros 4 ++ (List.range 8).flatMap (fun i => if i < n then natBE 2 1 ++ natBE 1 2 ++ zeros 1 else zeros 4)
def rxR (n : Nat) : Rx4Run := { block := rxB 1 1, done := n }
def onRr (r : Rx4Run) (n : Nat) : Dev := onR { run := some r, hearth := some 35, invalid := n } 1
def rxOk : Bytes := [0x12, 0x3C, 0, 0, 0, 0, 0, 0]
def rxBad : Bytes := [0xA2, 0x3C, 0, 0, 0, 0, 0, 0]
def rxK : TSpace × Table × Column := (spR, spR.tables[0]!, { id := 0, ty := { ty := .fixedBinary, len := 8 }, added := 1 })
def su : State := st (onX {})
/-- A unit in slice 0 of two slices, with constants, slots and scalars. -/
def xs2 : Exu :=
  { busy := true, ctx := { billets := [{ rows := 129, sel := List.replicate 129 true, slots := [(0, { ty := { ty := .utf8 }, vals := [some [65]] }), (1, { ty := { ty := .int32 }, vals := [some [1, 0, 0, 0]] })] }] } }
/-- A care-mask table whose verification copy never agrees with its one entry. -/
def xcm : Exu :=
  { v := [(512, 1)], vld := [(4, 1)], m0 := 1, cmt := { words := [(4096, { valid := true })], user := [(0, 0)] }
    ctx := { cares := [{ banks := [{ entries := [{ care := [0xFF], key := [], value := 0, prio := 0 }, { key := [1] }] }] }] } }

/-! ### Well-formedness: one ill-formed command for each check -/

theorem test_wf_request_fields :
    ([{ seq := 65536, bytes := 0 }, { seq := 0, ver := 256, bytes := 0 }, { seq := 0, rsv := 256, bytes := 0 }, { seq := 0, bytes := 65536 },
      { seq := 0, bytes := 0, gen := 2 ^ 32 }] : List MbReq).all (fun r => !(Instr.fwStatus 0 0 r).wf) = true := by decide +kernel
theorem test_wf_packet_half : (Instr.vxpData 0 { half := 16, addr := [], ce := false, data := [] }).wf = false := by decide +kernel
theorem test_wf_fault_record :
    ([{ lane := 128, cause := 1, addr := 0 }, { lane := 0, cause := 0, addr := 0 }, { lane := 0, cause := 6, addr := 0 },
      { lane := 0, cause := 15, addr := 0 }] : List XFault).all (fun f => !(Instr.xNop 0 {} (some f)).wf) = true := by decide +kernel
theorem test_wf_hearth : (Instr.xNop 36 {} none).wf = false ∧ (Instr.xNop 35 {} none).wf = true := by decide +kernel
/-- R232, R233, R639: a type or a predicate on an instruction without one, an unused field that is not zero, M8, a relation that CMP lacks, a count that
TST lacks, a misaligned group, a group past V31, M0 or S28 as a destination, a type that the instruction does not accept. -/
theorem test_wf_words :
    (Instr.xNop 0 { ty := 1 } none).wf = false ∧ (Instr.xNop 0 { pe := true } none).wf = false ∧ (Instr.xNop 0 { pm := 1 } none).wf = false ∧
    (Instr.xNop 0 { imm := 1 } none).wf = false ∧ (Instr.xAdd 0 { ty := 2, c := 1 } none).wf = false ∧ (Instr.xAdd 0 { ty := 2, mod := 1 } none).wf = false ∧
    (Instr.xMand 0 { d := 1, a := 8 } none).wf = false ∧ (Instr.xCmp 0 { ty := 2, d := 1, mod := 6 } none).wf = false ∧
    (Instr.xTst 0 { d := 1, mod := 7, c := 0 } none).wf = false ∧ (Instr.xAdd 0 { ty := 3, d := 1 } none).wf = false ∧
    (Instr.xWmul 0 { ty := 2, d := 31 } none).wf = false ∧ (Instr.xMand 0 { d := 0 } none).wf = false ∧ (Instr.xSadd 0 { d := 28 } none).wf = false ∧
    (Instr.xAdd 0 { ty := 8 } none).wf = false ∧ (Instr.xAdd 0 { ty := 15 } none).wf = false ∧ (Instr.xAdd 0 { ty := 2, d := 31, a := 31, b := 31 } none).wf = true := by
  decide +kernel
theorem test_wf_refuses_bounds_1 :
    ([.querySubmit 0 1026 0 0,
      .querySubmit 0 0 8192 0,
      .querySubmit 0 0 0 65536,
      .entryFetch 0 2 [],
      .qpSqDoorbell 0 0 0 (2 ^ 64),
      .registerWrite 0 0 0 9 0,
      .functionResetAbandon 0 36 0,
      .vfEnable 0 0 513,
      .atsInvalidation 0 0 (2 ^ 64),
      .ringStallPoll 0 0 16 none,
      .delayFire 0 8 none,
      .traceEnable 0 0 (2 ^ 64) 0 0,
      .traceEnable 0 0 0 (2 ^ 64) 0,
      .traceEnable 0 0 0 0 65536] : List Instr).all (fun c => !c.wf) = true := by decide +kernel
theorem test_wf_takes_bounds_1 :
    ([.querySubmit 0 (1026 - 1) 0 0,
      .querySubmit 0 0 (8192 - 1) 0,
      .querySubmit 0 0 0 (65536 - 1),
      .entryFetch 0 (2 - 1) [],
      .qpSqDoorbell 0 0 0 (2 ^ 64 - 1),
      .registerWrite 0 0 0 (9 - 1) 0,
      .functionResetAbandon 0 (36 - 1) 0,
      .vfEnable 0 0 (513 - 1),
      .atsInvalidation 0 0 (2 ^ 64 - 1),
      .ringStallPoll 0 0 (16 - 1) none,
      .delayFire 0 (8 - 1) none,
      .traceEnable 0 0 (2 ^ 64 - 1) 0 0,
      .traceEnable 0 0 0 (2 ^ 64 - 1) 0,
      .traceEnable 0 0 0 0 (65536 - 1)] : List Instr).all (fun c => c.wf) = true := by decide +kernel
theorem test_wf_refuses_bounds_2 :
    ([.rtoExpiry 0 65536 0,
      .rtoExpiry 0 0 65536,
      .fabricPortDown 0 16,
      .fabCtrlWrite 0 0 8 0 0 0,
      .frameMove 0 8 0 0,
      .frameMove 0 0 0 8,
      .bankRetentionEntry 0 0 12,
      .cacheRead 0 65536 0 .none,
      .cacheRead 0 0 (2 ^ 64) .none,
      .fwActivateFailed 0 0 65536,
      .commitDataWritten 0 0 (2 ^ 64),
      .journalCheckpoint 0 16,
      .driveResetTimeout 0 72,
      .twinHello 0 (2 ^ 32) {}] : List Instr).all (fun c => !c.wf) = true := by decide +kernel
theorem test_wf_takes_bounds_2 :
    ([.rtoExpiry 0 (65536 - 1) 0,
      .rtoExpiry 0 0 (65536 - 1),
      .fabricPortDown 0 (16 - 1),
      .fabCtrlWrite 0 0 (8 - 1) 0 0 0,
      .frameMove 0 (8 - 1) 0 0,
      .frameMove 0 0 0 (8 - 1),
      .bankRetentionEntry 0 0 (12 - 1),
      .cacheRead 0 (65536 - 1) 0 .none,
      .cacheRead 0 0 (2 ^ 64 - 1) .none,
      .fwActivateFailed 0 0 (65536 - 1),
      .commitDataWritten 0 0 (2 ^ 64 - 1),
      .journalCheckpoint 0 (16 - 1),
      .driveResetTimeout 0 (72 - 1),
      .twinHello 0 (2 ^ 32 - 1) {}] : List Instr).all (fun c => c.wf) = true := by decide +kernel
theorem test_wf_refuses_bounds_3 :
    ([.twinGroupDown 0 2,
      .witnessRead 0 72 none false,
      .unitAcknowledge 0 72,
      .hearthGroupReady 0 4,
      .emberWake 0 { src := 5 },
      .emberWake 0 { src := 3, pins := 65536 },
      .pldmFirmwareUpdate 0 2 [],
      .telemetryLost 0 16,
      .refclkLost 0 6,
      .deviceStop 0 5,
      .keyLoad 0 0 (2 ^ 32) [],
      .spdmRequest 0 3 (.certificate 0),
      .ideKm 0 0 5 false,
      .tamper 0 2 false,
      .mctpRecorderRead 0 0 65] : List Instr).all (fun c => !c.wf) = true := by decide +kernel
theorem test_wf_takes_bounds_3 :
    ([.twinGroupDown 0 (2 - 1),
      .witnessRead 0 (72 - 1) none false,
      .unitAcknowledge 0 (72 - 1),
      .hearthGroupReady 0 (4 - 1),
      .emberWake 0 { src := 5 - 1, pins := 65535 },
      .pldmFirmwareUpdate 0 (2 - 1) [],
      .telemetryLost 0 (16 - 1),
      .refclkLost 0 (6 - 1),
      .deviceStop 0 (5 - 1),
      .keyLoad 0 0 (2 ^ 32 - 1) [],
      .spdmRequest 0 (3 - 1) (.certificate 0),
      .ideKm 0 0 (5 - 1) false,
      .tamper 0 (2 - 1) false,
      .mctpRecorderRead 0 0 (65 - 1)] : List Instr).all (fun c => c.wf) = true := by decide +kernel
theorem test_wf_refuses_bounds_4 :
    ([.gpioFuncWrite 0 0 16 0 0 0,
      .pfcPauseFrame 0 0 256 0,
      .pfcPauseFrame 0 0 0 65536] : List Instr).all (fun c => !c.wf) = true := by decide +kernel
theorem test_wf_takes_bounds_4 :
    ([.gpioFuncWrite 0 0 (16 - 1) 0 0 0,
      .pfcPauseFrame 0 0 (256 - 1) 0,
      .pfcPauseFrame 0 0 0 (65536 - 1)] : List Instr).all (fun c => c.wf) = true := by decide +kernel

/-! ### Words of the expression unit (Table 7.11), each as the spec writes it out -/

theorem test_words_of_table_7_11 :
    xDecode 0x1050000000000001 = some (.vld, { ty := 5, d := 0, imm := 1 }) ∧ xDecode 0x1010080000000000 = some (.vld, { ty := 1, d := 1 }) ∧
    xDecode 0xB010100001000001 = some (.vgath, { ty := 1, d := 2, a := 0, mod := 1, imm := 1 }) ∧
    xDecode 0x3110184400000000 = some (.sub, { ty := 1, d := 3, a := 1, b := 2 }) ∧ xDecode 0x061000C000000000 = some (.outV, { ty := 1, a := 3 }) ∧
    xDecode 0x0100000000000000 = some (.endS, {}) := by decide +kernel

/-! ### Results at the limits (Tables 8.1, 8.4, 8.6 and 8.7) and the worked examples of chapters 8, 9, 2 and 22 -/

/-- A unit with row 0 selected and row 0 of groups 0, 4 and 8 holding three values of a type. -/
def rowU (t : XTy) (md : RMode) (a b c : Nat) : Exu :=
  let put := fun (r v : Nat) (x : Tab Word) => (List.range t.group).foldl (fun x j => tabSet 0 x (128 * r + j) (BitVec.ofNat 32 (v / 2 ^ (32 * j)))) x
  { v := put 8 c (put 4 b (put 0 a [])), vld := [(0, 1), (4, 1), (8, 1)], m0 := 1, ctx := { mode := md } }
/-- The value, the validity, ERR and OVF of row 0 of group 12 after an instruction. -/
def after (x : Exu) (c : Instr) (t : XTy) : Nat × Bool × Bool × Bool :=
  match exec c (st (onX x)) with
  | .next s => let y := (s.dev.hearth 35).exu; (y.lane t 12 0, y.valid 12 0, y.err.getLsbD 0, y.ovf.getLsbD 0)
  | _ => (0, false, true, true)
def wd (t : XTy) : XFields := { ty := BitVec.ofNat 4 t.code, d := 12, a := 0, b := 4 }

theorem test_add_at_the_limit : after (rowU .i8 .tiesToEven (XTy.i8.ofInt 127) 1 0) (.xAdd 35 (wd .i8) none) .i8 = (XTy.i8.ofInt (-128), true, false, true) := by decide +kernel
theorem test_sub_below_zero : after (rowU .u16 .tiesToEven 0 1 0) (.xSub 35 (wd .u16) none) .u16 = (65535, true, false, true) := by decide +kernel
theorem test_mul_min_by_min :
    after (rowU .i64 .tiesToEven (2 ^ 63) (2 ^ 63) 0) (.xMul 35 (wd .i64) none) .i64 = (0, true, false, true) ∧
    after (rowU .i64 .tiesToEven (2 ^ 63) (2 ^ 64 - 1) 0) (.xMul 35 (wd .i64) none) .i64 = (2 ^ 63, true, false, true) := by decide +kernel
theorem test_mulh_at_the_limit : after (rowU .i64 .tiesToEven (2 ^ 63) (2 ^ 63) 0) (.xMulh 35 (wd .i64) none) .i64 = (2 ^ 62, true, false, false) := by decide +kernel
theorem test_neg_of_the_least : after (rowU .i32 .tiesToEven (2 ^ 31) 0 0) (.xNeg 35 { wd .i32 with b := 0 } none) .i32 = (2 ^ 31, true, false, true) := by decide +kernel
theorem test_abs_of_the_least : after (rowU .i32 .tiesToEven (2 ^ 31) 0 0) (.xAbs 35 { wd .i32 with b := 0 } none) .i32 = (2 ^ 31, true, false, true) := by decide +kernel

theorem test_dadd_reaches_10_38 : after (rowU .d128 .tiesToEven (10 ^ 38 - 1) 1 0) (.xDadd 35 (wd .d128) none) .d128 = (10 ^ 38, true, false, true) := by decide +kernel
theorem test_dmul_reaches_10_38 : after (rowU .d128 .tiesToEven (10 ^ 19) (10 ^ 19) 0) (.xDmul 35 (wd .d128) none) .d128 = (10 ^ 38, true, false, true) := by decide +kernel
theorem test_ddiv_one_third :
    after (rowU .d128 .tiesToEven 1 3 0) (.xDdiv 35 { wd .d128 with imm := 38 } none) .d128 = ((10 ^ 38 - 1) / 3, true, false, false) ∧
    after (rowU .d128 .towardPositive 1 3 0) (.xDdiv 35 { wd .d128 with imm := 38 } none) .d128 = ((10 ^ 38 - 1) / 3 + 1, true, false, false) ∧
    after (rowU .d128 .tiesToEven 1 0 0) (.xDdiv 35 { wd .d128 with imm := 38 } none) .d128 = (2 ^ 128 - 1, true, true, false) := by decide +kernel
/-- 2.5 and −2.5 to scale 0 under the five modes. -/
theorem test_dscale_of_a_tie :
    ([.tiesToEven, .towardZero, .towardPositive, .towardNegative, .tiesToAway].map (fun md =>
      (after { rowU .d128 md 25 0 0 with ann := [(0, ⟨2, 1⟩)] } (.xDscale 35 { wd .d128 with b := 0 } none) .d128).1)) = [2, 2, 3, 2, 3] ∧
    ([.tiesToEven, .towardZero, .towardPositive, .towardNegative, .tiesToAway].map (fun md =>
      (after { rowU .d128 md (wrapNat 128 (-25)) 0 0 with ann := [(0, ⟨2, 1⟩)] } (.xDscale 35 { wd .d128 with b := 0 } none) .d128).1)) =
        [-2, -2, -2, -3, -3].map (wrapNat 128) := by decide +kernel

theorem test_fp_d_and_n_binary32 :
    let f := fmtF32
    let d := 1
    let n := 0x7F7FFFFF
    f.add .tiesToEven false false d d = (2, 0) ∧ f.add .towardNegative false true d d = (0x80000000, 0) ∧
    f.add .tiesToEven false false n n = (0x7F800000, flOverflow ||| flInexact) ∧ f.add .towardZero false false n n = (n, flOverflow ||| flInexact) ∧
    f.add .towardPositive false false n d = (0x7F800000, flOverflow ||| flInexact) ∧ f.add .towardZero false true n d = (0x7F7FFFFE, flInexact) ∧
    f.mul .tiesToEven false d d = (0, flUnderflow ||| flInexact) ∧ f.mul .towardPositive false d d = (d, flUnderflow ||| flInexact) ∧
    f.mul .tiesToEven false n d = (0x34FFFFFF, 0) ∧ f.div .tiesToEven false d d = (0x3F800000, 0) ∧ f.div .tiesToEven true d d = (f.nanBits, flInvalid) ∧
    f.div .tiesToEven true n d = (0x7F800000, flDivZero) ∧ f.div .tiesToEven false d 0 = (0x7F800000, flDivZero) ∧
    f.sqrt .tiesToEven false d = (0x1A3504F3, flInexact) ∧ f.sqrt .towardPositive false d = (0x1A3504F4, flInexact) ∧
    f.sqrt .tiesToEven false n = (0x5F7FFFFF, flInexact) ∧ f.sqrt .towardPositive false n = (0x5F800000, flInexact) ∧
    f.fma .towardPositive false d d d = (2, flUnderflow ||| flInexact) ∧ f.fma .tiesToEven false n 0x40000000 (n + 0x80000000) = (n, 0) := by decide +kernel

/-- Tables 8.15 and 8.16: a tariff's digits, the invalid third one, and a tie at scale 2. -/
theorem test_tariff_example :
    packedInt ([0x9C, 0x38] ++ zeros 14) = 389 ∧ packedInt ([0x0C, 0x41] ++ zeros 14) = 410 ∧ packedValid 7 ([0x9C, 0x38] ++ zeros 14) = true ∧
    packedValid 7 ([0x9C, 0x3B] ++ zeros 14) = false ∧
    after { rowU .d128 .tiesToEven 5125000 1000 0 with ann := [(0, ⟨19, 3⟩), (4, ⟨4, 0⟩)] } (.xDdiv 35 { wd .d128 with imm := 2 } none) .d128 = (512, true, false, false) ∧
    after { rowU .d128 .tiesToAway 5125000 1000 0 with ann := [(0, ⟨19, 3⟩), (4, ⟨4, 0⟩)] } (.xDdiv 35 { wd .d128 with imm := 2 } none) .d128 = (513, true, false, false) ∧
    after { rowU .d128 .tiesToEven 16055975 1000 0 with ann := [(0, ⟨19, 3⟩), (4, ⟨4, 0⟩)] } (.xDdiv 35 { wd .d128 with imm := 2 } none) .d128 = (1606, true, false, false) := by decide +kernel

/-- Table 9.10. -/
def bandTable : CareTable :=
  let e := fun (k c v p : Nat) => ({ key := [BitVec.ofNat 64 k], care := [BitVec.ofNat 64 c], value := v, prio := p } : CareEntry)
  { banks := [{ entries := [e 0 0xFFFFFFFFFFFFFFC0 1 10, e 0x40 0xFFFFFFFFFFFFFFE0 1 10, e 0x60 0xFFFFFFFFFFFFFFE0 2 10, e 0x80 0xFFFFFFFFFFFFFF80 3 10,
      e 0x70 0xFFFFFFFFFFFFFFF0 4 10, e 0 0 0 0] }] }
/-- Table 9.11, with the table in bank 1 of a hearth. -/
theorem test_banding_example :
    let c := (({ user := [(0, 0)] } : Cmt).loadBank 1 (bandTable.banks.getD 0 {}))
    ([61, 118, 0xFFFFFFFD, 300].map (fun k => careWord 0 (c.winners 0 k))) = [0x0008400000000001, 0x000C800200000002, 0x0008400500000000, 0x0008400500000000] := by decide +kernel
/-- The strike of the example: care bit 5 of entry 1 cleared; the false hit is rewritten and the result word is as before. -/
theorem test_banding_example_repaired :
    let c := (({ user := [(0, 0)] } : Cmt).loadBank 1 (bandTable.banks.getD 0 {}))
    let hit := { c with units := tabSet {} c.units 4097 ⟨0x40, 0xFFFFFFFFFFFFFFC0⟩ }
    (careLookup hit bandTable 0 118 0 2).2 = (1, some 0x000C800200000002) := by decide +kernel

/-- Chapter 22: one ARITH record, 41,275 + 389. -/
theorem test_rx4_arith_example :
    rxField 7 (rxValue [0, 0, 0, 0x41, 0x27, 0x5C] + rxValue [0, 0, 0, 0, 0x38, 0x9C]) = ([0, 0, 0, 0, 0x41, 0x66, 0x4C], false) ∧
    rxFault (rxB 1 1) rxBad = some (1, 1, 1) := by decide +kernel

/-- Chapter 2: the member that holds strip 5 of row 41,117 in a group of scheme 8+2, and the strip's first block. -/
theorem test_page_location_example :
    (5 + 41117) % (schemeK 1 + schemeM 1) = 2 ∧ 16384 + 41117 * stripBlocks 1 + 16 = 1332144 := by decide +kernel

/-! ### States and operands that meet the hypotheses of each statement -/

/-- R76 by hand: parity strip 1 of three strips, 1 xor 2·3 xor 4·5 and 2 xor 2·4 xor 4·0x80 in GF(2^8). -/
theorem test_parity_strip : parityStrip 1 [[1, 2], [3, 4], [5, 0x80]] = [0x13, 0x30] := by decide +kernel


theorem eq_ok {α β : Type} [DecidableEq β] {e : Except α β} {b : β} (h : (match e with | .ok x => decide (x = b) | .error _ => false) = true) : e = .ok b := by
  cases e with
  | ok x => simpa using h
  | error => simp at h
theorem structCheck_ok {b : Bytes} (h1 : headerFault 3 3 b.length b = none) (h2 : fieldAt b 0x78 4 = (crc32c (b.drop 0x80)).toNat)
    (h3 : directoryFault b = none) (h4 : recordsFault b = none) (h5 : refsFault (parseImage b) = none) (h6 : graphFault (parseImage b) = none)
    (h7 : codeFault (parseImage b) (deriveOuts (parseImage b)) = none) (h8 : paramsFault b (parseImage b) (deriveOuts (parseImage b)) = none)
    (h9 : pinsFault (parseImage b) = none) : structCheck 3 3 b.length b = .ok (parseImage b) := by
  simp only [structCheck, h1, h2, h3, h4, h5, h6, h7, h8, h9, Option.none_or, ne_eq, not_true_eq_false, if_false]
/-- CRC-32C with its register evaluated byte by byte, for the kernel. -/
def crcGo : Bytes → Nat → Nat
  | [], c => c
  | x :: r, c =>
    match (crcBits 8 (BitVec.ofNat 32 c ^^^ x.setWidth 32)).toNat with
    | 0 => crcGo r 0
    | k + 1 => crcGo r (k + 1)
theorem crcGo_eq (b : Bytes) (c : BitVec 32) : (b.foldl (fun c x => crcBits 8 (c ^^^ x.setWidth 32)) c).toNat = crcGo b c.toNat := by
  induction b generalizing c with
  | nil => rfl
  | cons x r ih =>
    rw [List.foldl_cons, ih, crcGo, BitVec.ofNat_toNat, BitVec.setWidth_eq]
    split <;> simp_all
theorem crc32c_toNat (b : Bytes) : (crc32c b).toNat = crcGo b 0xFFFFFFFF ^^^ 0xFFFFFFFF := by
  rw [crc32c, BitVec.toNat_xor, crcGo_eq]; rfl
theorem img_ok : structCheck 3 3 subI.descr.imageBytes img = .ok imI := by
  have hl : img.length = 640 := by decide +kernel
  have h := structCheck_ok (b := img) (by unfold headerFault; rw [crc32c_toNat]; decide +kernel) (by rw [crc32c_toNat]; decide +kernel) (by decide +kernel)
    (by decide +kernel) (by decide +kernel) (by decide +kernel) (by decide +kernel) (by decide +kernel) (by decide +kernel)
  rw [hl] at h
  simpa only [subI, imI] using h
theorem img2_ok : structCheck 3 3 img2.length img2 = .ok (parseImage img2) :=
  structCheck_ok (b := img2) (by unfold headerFault; rw [crc32c_toNat]; decide +kernel) (by rw [crc32c_toNat]; decide +kernel) (by decide +kernel)
    (by decide +kernel) (by decide +kernel) (by decide +kernel) (by decide +kernel) (by decide +kernel) (by decide +kernel)
theorem rqV_digest : sha 0 img2 = sliceAt rqV.payload 24 32 := by
  have h1 : ((ent [(0, 4, 1), (4, 4, 9), (16, 4, 704)]).take 24).length = 24 := by decide +kernel
  have h2 : (sha 0 img2).length = 32 := by decide +kernel
  rw [sliceAt, rqV, List.drop_append_of_le_length (Nat.le_of_eq h1.symm), List.drop_of_length_le (Nat.le_of_eq h1), List.nil_append, List.take_of_length_le (Nat.le_of_eq h2)]
theorem onW_set (t : TwinSt) : (onW t).witnessSet = [20, 21, 22] := by
  have h : (((onW t).store.drives.filter (fun p => ((onW t).memberAt p.1).isSome && p.2.present)).map (·.1)) = [20, 21, 22, 23, 24] := by
    show (((onW {}).store.drives.filter (fun p => ((onW {}).memberAt p.1).isSome && p.2.present)).map (·.1)) = [20, 21, 22, 23, 24]
    decide +kernel
  rw [Dev.witnessSet, h, List.mergeSort_of_pairwise (by decide)]; rfl
theorem wb_ok {seq fl crc : Nat} (h : crcGo (wbH seq fl) 0xFFFFFFFF ^^^ 0xFFFFFFFF = crc) (hl : (wbH seq fl).length = 4092) (hc : (natLE 4 crc).length = 4)
    (hr : fieldAt (natLE 4 crc) 0 4 = crc) (h0 : fieldAt (wbH seq fl ++ natLE 4 crc) 0 4 = 0x51E90A11) (h1 : fieldAt (wbH seq fl ++ natLE 4 crc) 4 1 = 1)
    (h2 : fieldAt (wbH seq fl ++ natLE 4 crc) 5 1 = 1) (h3 : fieldAt (wbH seq fl ++ natLE 4 crc) 8 8 = 5) : witnessOk (wb seq fl crc) 1 5 = true := by
  have e : fieldAt (wbH seq fl ++ natLE 4 crc) 0xFFC 4 = crc := by
    rw [fieldAt, List.drop_append_of_le_length (Nat.le_of_eq hl.symm), List.drop_of_length_le (Nat.le_of_eq hl)]; simpa [fieldAt] using hr
  have f : (wbH seq fl ++ natLE 4 crc).take 0xFFC = wbH seq fl := by
    rw [List.take_append_of_le_length (Nat.le_of_eq hl.symm), List.take_of_length_le (Nat.le_of_eq hl)]
  rw [wb, witnessOk, List.length_append, hl, hc, h0, h1, h2, h3, e, f, crc32c_toNat, h]; simp
theorem natLE_len (n x : Nat) : (natLE n x).length = n := by
  induction n generalizing x with
  | zero => rfl
  | succ n ih => simp [natLE, ih]
theorem wbH_len (seq fl : Nat) : (wbH seq fl).length = 4092 := by
  simp only [wbH, List.length_append, natLE_len, zeros, List.length_replicate]
theorem wb0_ok : witnessOk (wb 3 0 2071706386) 1 5 = true :=
  wb_ok (by decide +kernel) (wbH_len _ _) (by decide +kernel) (by decide +kernel) (by decide +kernel) (by decide +kernel) (by decide +kernel) (by decide +kernel)
theorem wb8_ok : witnessOk (wb 3 8 3437391270) 1 5 = true :=
  wb_ok (by decide +kernel) (wbH_len _ _) (by decide +kernel) (by decide +kernel) (by decide +kernel) (by decide +kernel) (by decide +kernel) (by decide +kernel)
theorem witness_QueueControl :
    (∃ (s : State) (x q : Nat), s.dev.serves x ∧ s.dev.hasQueue x q ∧ (s.dev.qp x q).state = .disabled) ∧
    (∃ (s : State) (x q : Nat), s.dev.serves x ∧ s.dev.hasQueue x q ∧ (s.dev.qp x q).state = .active) ∧
    (∃ (s : State) (x q : Nat), s.dev.serves x ∧ s.dev.hasQueue x q ∧ (s.dev.qp x q).state = .disabled) ∧
    (∃ (s : State) (x q : Nat), s.dev.serves x ∧ s.dev.hasQueue x q ∧ ((s.dev.qp x q).state = .active ∨ (s.dev.qp x q).state = .error) ∧ (∀ c ∈ (s.dev.qp x q).cmds, c.past)) ∧
    (∃ (s : State) (x q : Nat), (s.dev.qp x q).state = .resetting ∧ (s.dev.qp x q).cmds = [] ∧ (s.dev.qp x q).ready = []) := by
  exact ⟨⟨st on, 513, 4095, by decide +kernel⟩,
    ⟨st (onQ 513 4095 { state := .active }), 513, 4095, by decide +kernel⟩,
    ⟨st on, 513, 4095, by decide +kernel⟩,
    ⟨st (onQ 513 4095 { state := .error }), 513, 4095, by and_intros <;> decide +kernel⟩,
    ⟨st (onQ 1025 8191 { state := .resetting }), 1025, 8191, by decide +kernel⟩⟩

theorem witness_DoorbellsAndCompletions :
    (∃ (s : State) (x q : Nat), s.dev.serves x ∧ s.dev.hasQueue x q ∧ (s.dev.qp x q).state = .active) ∧
    (∃ (s : State) (x q : Nat), s.dev.serves x ∧ s.dev.hasQueue x q ∧ (s.dev.qp x q).state ≠ .disabled) ∧
    (∃ (s : State) (x q : Nat) (c : Compl) (r : List Compl), s.dev.sends x ∧ (s.dev.qp x q).ready = c :: r ∧ (c.acked ∨ s.dev.twin.alone) ∧ !s.dev.twin.stopped) ∧
    (∃ (s : State) (t x q : Nat), s.dev.sends x ∧ (s.dev.qp x q).vectorEn ∧ 0 < (s.dev.qp x q).unsignalled ∧ bitsOf (s.dev.qp x q).modNow 31 16 ≠ 0 ∧ (s.dev.qp x q).oldest + bitsOf (s.dev.qp x q).modNow 31 16 ≤ t ∧ !(((s.dev.fnGet x).msixWord (4 * (s.dev.qp x q).cqVector + 3)).getLsbD 0)) := by
  exact ⟨⟨st (onQ 513 4095 { state := .active }), 513, 4095, by decide +kernel⟩,
    ⟨st (onQ 513 4095 { state := .error }), 513, 4095, by decide +kernel⟩,
    ⟨st (onQ 0 8191 { state := .active, ready := [{ cid := 9 }] }), 0, 8191, { cid := 9 }, [], by decide +kernel⟩,
    ⟨st { onQ 0 1 { state := .active, cfg := 2 ^ 31, modNow := 65536, unsignalled := 1 } with host := { (onQ 0 1 { state := .active, cfg := 2 ^ 31, modNow := 65536, unsignalled := 1 }).host with fns := [(0, { msix := [(3, 0)] })] } }, 1, 0, 1, by decide +kernel⟩⟩

theorem witness_Submissions :
    (∃ (s : State) (x q cid : Nat) (c : Cmd) (sp : TSpace), s.dev.mayStartCmd x q cid 0x01 = some c ∧ s.dev.ownSpace x c.ts = .ok sp) ∧
    (∃ (s : State) (x q cid : Nat) (c : Cmd) (st : Nat), s.dev.mayStartCmd x q cid 0x01 = some c ∧ s.dev.ownSpace x c.ts = .error st) ∧
    (∃ (s : State) (x q cid : Nat) (sub : Submit) (b : Bytes) (im : Image) (l : List CacheEnt), s.dev.qry.subs = [sub] ∧ sub.x = x ∧ sub.q = q ∧ sub.cid = cid ∧ sub.missing ∧ sub.fetched = some (some b) ∧ sha 0 b = sub.descr.digest ∧ structCheck s.dev.supports.1 s.dev.supports.2 sub.descr.imageBytes b = .ok im ∧ s.dev.cacheHit (s.dev.groupKey x) sub.descr.digest = none ∧ makeRoom 4096 s.dev.qry.cache b.length = some l ∧ descrFits sub.descr im ∧ s.dev.placeFault im = none ∧ sub.descr.paramBytes ≠ 0) ∧
    (∃ (s : State) (x q cid : Nat) (sub : Submit) (b : Bytes), s.dev.qry.subs = [sub] ∧ sub.x = x ∧ sub.q = q ∧ sub.cid = cid ∧ sub.missing ∧ sub.fetched = some (some b) ∧ sha 0 b ≠ sub.descr.digest ∧ s.dev.qry.cache.all (fun c => !c.waits.contains (x, q, cid))) := by
  exact ⟨⟨st (onS (onC 0 1 [cm 1 []])), 0, 1, 5, cm 1 [], sp1, by and_intros <;> decide +kernel⟩,
    ⟨st (onC 0 1 [cm 1 []]), 0, 1, 5, cm 1 [], 0x2002, by and_intros <;> decide +kernel⟩,
    ⟨st { on with qry := { subs := [subI] } }, 0, 1, 5, subI, img, imI, [], by exact ⟨rfl, rfl, rfl, rfl, rfl, rfl, by simp only [subI], img_ok, by and_intros <;> decide +kernel⟩⟩,
    ⟨st { on with qry := { subs := [subE] } }, 0, 1, 5, subE, [], by decide +kernel⟩⟩

theorem witness_DataCommands :
    (∃ (s : State) (x q cid : Nat) (c : Cmd) (sp : TSpace), s.dev.mayStartCmd x q cid 0x02 = some c ∧ s.dev.dataSpace x c.ts = .ok sp ∧ isSlag (fieldAt c.entry 0x20 4) = false ∧ (sp.table (fieldAt c.entry 0x20 4) c.bind).isSome) ∧
    (∃ (s : State) (x q cid : Nat) (c : Cmd) (sp : TSpace), s.dev.mayStartCmd x q cid 0x02 = some c ∧ s.dev.dataSpace x c.ts = .ok sp ∧ isSlag (fieldAt c.entry 0x20 4)) ∧
    (∃ (s : State) (x q cid : Nat) (c : Cmd) (sp : TSpace) (e : Nat) (tb : Table) (cc : Column) (k : Extent) (dr n sc : Nat), s.dev.mayStartCmd x q cid 0x03 = some c ∧ s.dev.dataSpace x c.ts = .ok sp ∧ sp.readEpoch (fieldAt c.entry 0x30 8) = .ok e ∧ sp.table (fieldAt c.entry 0x20 4) e = some tb ∧ tb.column (fieldAt c.entry 0x24 2) e = some cc ∧ (sp.extentsOf (fieldAt c.entry 0x20 4) (fieldAt c.entry 0x24 2) e).find? (fun y => y.num == fieldAt c.entry 0x28 8) = some k ∧ s.dev.beyond k.group k.row = false ∧ fieldAt c.entry 0x26 1 = n ∧ fieldAt c.entry 0x27 1 = 1 ∧ n < k.slots ∧ s.dev.schemeOf k.group = sc ∧ s.dev.memberRead k.group ((16 * n / stripBlocks sc + k.row) % (schemeK sc + schemeM sc)) k.row = some dr) ∧
    (∃ (s : State) (x q cid : Nat) (c : Cmd), s.dev.mayStartCmd x q cid 0x07 = some c ∧ s.dev.job x q cid = none ∧ fieldAt c.entry 0x21 1 = 0 ∧ c.data ≠ []) ∧
    (∃ (s : State) (x q cid : Nat) (c : Cmd), s.dev.mayStartCmd x q cid 0x08 = some c ∧ s.dev.job x q cid = none ∧ c.data ≠ []) ∧
    (∃ (s : State) (tag : Nat) (r : HRead) (j : EngJob), s.dev.host.reads.find? (fun k => k.tag == tag) = some r ∧ r.use = .data 0 ∧ s.dev.job r.x r.q r.cid = some j ∧ j.bad = false ∧ j.pieces.length + 1 < j.want) := by
  exact ⟨⟨st (onS (onC 0 1 [cmI])), 0, 1, 5, cmI, sp1, by and_intros <;> decide +kernel⟩,
    ⟨st (onS (onC 0 1 [cm 2 [(0x20, 4, 0x80000001)]])), 0, 1, 5, cm 2 [(0x20, 4, 0x80000001)], sp1, by and_intros <;> decide +kernel⟩,
    ⟨st (onS2 (onC 0 1 [cm 3 [(0x20, 4, 9), (0x27, 1, 1), (0x28, 8, 3), (0x30, 8, 4)]])), 0, 1, 5, cm 3 [(0x20, 4, 9), (0x27, 1, 1), (0x28, 8, 3), (0x30, 8, 4)], sp2, 4, tb9, { id := 0, ty := { ty := .int32 }, added := 1 }, ex3, 20, 0, 0, by and_intros <;> decide +kernel⟩,
    ⟨st (onC 0 1 [cmD]), 0, 1, 5, cmD, by decide +kernel⟩,
    ⟨st (onC 0 1 [{ cm 8 [] with data := [(4096, 64)] }]), 0, 1, 5, { cm 8 [] with data := [(4096, 64)] }, by decide +kernel⟩,
    ⟨st { on with host := { on.host with reads := [⟨0, 0, 1, 5, .data 0, 4096, 64⟩], engJobs := [{ x := 0, q := 1, cid := 5, op := .digest 0 0, want := 2 }] } }, 0, ⟨0, 0, 1, 5, .data 0, 4096, 64⟩, { x := 0, q := 1, cid := 5, op := .digest 0 0, want := 2 }, by decide +kernel⟩⟩

theorem witness_OrderCommands :
    (∃ (s : State) (x q cid : Nat) (c : Cmd), s.dev.twin.alone ∧ s.dev.mayStartCmd x q cid 0x04 = some c ∧ s.dev.qpsOf x = [(q, s.dev.qp x q)] ∧ q < 8192 ∧ (s.dev.qp x q).cmds = [c] ∧ (s.dev.qp x q).state = .active ∧ c.cid = cid ∧ c.commits = false) ∧
    (∃ (s : State) (x q cid : Nat) (c k : Cmd), s.dev.twin.alone ∧ s.dev.mayStartCmd x q cid 0x05 = some c ∧ (s.dev.qp x q).cmds = [k, c] ∧ c.cid = cid ∧ k.cid ≠ cid ∧ c.commits = false ∧ k.commits = false ∧ s.dev.qpsOf x = [(q, s.dev.qp x q)] ∧ fieldAt c.entry 0x20 2 = q ∧ fieldAt c.entry 0x22 2 = k.cid ∧ k.op = 0x07 ∧ k.past = false ∧ s.dev.openCommit x q k.cid = none ∧ (∀ y ∈ s.dev.qry.queries, ¬ (y.x = x ∧ y.q = q ∧ y.cid = k.cid))) ∧
    (∃ (s : State) (x q cid : Nat) (c : Cmd), s.dev.twin.alone ∧ s.dev.mayStartCmd x q cid 0x05 = some c ∧ (s.dev.qp x q).cmds = [c] ∧ c.cid = cid ∧ c.commits = false ∧ s.dev.qpsOf x = [(q, s.dev.qp x q)] ∧ fieldAt c.entry 0x20 2 = q ∧ fieldAt c.entry 0x22 2 ≠ cid ∧ (s.dev.qp x q).ready = [] ∧ (s.dev.qp x q).posted = []) ∧
    (∃ (s : State) (x q cid : Nat) (c : Cmd) (sp : TSpace) (e : Nat), s.dev.twin.alone ∧ s.dev.mayStartCmd x q cid 0x06 = some c ∧ s.dev.ownSpace x c.ts = .ok sp ∧ fieldAt c.entry 0x20 1 = 0 ∧ sp.readEpoch (fieldAt c.entry 0x28 8) = .ok e ∧ (s.dev.store.holds.filter (fun h => h.x == x)).length < 64) ∧
    (∃ (s : State) (x q cid : Nat) (c : Cmd) (sp : TSpace) (h : Hold), s.dev.twin.alone ∧ s.dev.mayStartCmd x q cid 0x06 = some c ∧ s.dev.ownSpace x c.ts = .ok sp ∧ fieldAt c.entry 0x20 1 ≠ 0 ∧ s.dev.store.holds.find? (fun k => k.id == fieldAt c.entry 0x30 8 && k.x == x && k.ts == c.ts) = some h) := by
  exact ⟨⟨st (onC 0 8191 [cm 4 []]), 0, 8191, 5, cm 4 [], by decide +kernel⟩,
    ⟨st (onC 0 1 [{ cm 7 [] with cid := 6 }, cm 5 [(0x20, 2, 1), (0x22, 2, 6)]]), 0, 1, 5, cm 5 [(0x20, 2, 1), (0x22, 2, 6)], { cm 7 [] with cid := 6 }, by decide +kernel⟩,
    ⟨st (onC 0 1 [cm 5 [(0x20, 2, 1), (0x22, 2, 6)]]), 0, 1, 5, cm 5 [(0x20, 2, 1), (0x22, 2, 6)], by decide +kernel⟩,
    ⟨st (onS (onC 0 1 [cm 6 [(0x28, 8, 4)]])), 0, 1, 5, cm 6 [(0x28, 8, 4)], sp1, 4, by and_intros <;> decide +kernel⟩,
    ⟨st (onH (onC 0 1 [cm 6 [(0x20, 1, 1), (0x30, 8, 2)]])), 0, 1, 5, cm 6 [(0x20, 1, 1), (0x30, 8, 2)], sp1, ⟨2, 0, 1, 4⟩, by and_intros <;> decide +kernel⟩⟩

theorem witness_Fetching :
    (∃ (s : State) (port : Nat) (f : FetchEnt) (x q k1 : Nat) (r : List Nat) (l : List (Nat × Nat)) (e : Bytes), s.dev.nextQueue port 256 ((tabGet [] s.dev.host.pass port).headD 254) ((tabGet [] s.dev.host.pass port).drop 1) = some (qpKey x q, k1, r) ∧ q < 8192 ∧ (s.dev.qp x q).state = .active ∧ (s.dev.qp x q).unfetched ≠ 0 ∧ checkEntry (s.dev.qp x q) f = .ok l ∧ f.entry = some e ∧ s.dev.pwr.mode ≠ 3 ∧ s.dev.pwr.mode ≠ 7) ∧
    (∃ (s : State) (port : Nat) (f : FetchEnt) (x q k1 : Nat) (r : List Nat) (rs : Nat) (e : Bytes), s.dev.nextQueue port 256 ((tabGet [] s.dev.host.pass port).headD 254) ((tabGet [] s.dev.host.pass port).drop 1) = some (qpKey x q, k1, r) ∧ q < 8192 ∧ (s.dev.qp x q).state = .active ∧ (s.dev.qp x q).unfetched ≠ 0 ∧ checkEntry (s.dev.qp x q) f = .error rs ∧ f.entry = some e ∧ s.dev.twin.alone) := by
  exact ⟨⟨st onF, 0, { entry := some entF }, 0, 1, 0, [], [], entF, by and_intros <;> decide +kernel⟩,
    ⟨st onF, 0, { entry := some (zeros 64) }, 0, 1, 0, [], 1, zeros 64, by and_intros <;> decide +kernel⟩⟩

theorem witness_FunctionRegisters :
    (∃ (s : State) (x : Nat), s.dev.serves x ∧ (∀ p ∈ s.dev.qpsOf x, p.2.unsignalled = 0)) ∧
    (∃ (s : State) (x : Nat), s.dev.serves x ∧ (∀ o ∈ (s.dev.fnGet x).held, ∃ y a b, o = .hostWrite y a b)) ∧
    (∃ (s : State) (x : Nat), s.dev.serves x) ∧
    (∃ (s : State) (x i : Nat), s.dev.serves x ∧ i < 3) ∧
    (∃ (s : State) (x q v : Nat), s.dev.serves x ∧ s.dev.hasQueue x q ∧ barQp x + 64 * q < barSize x ∧ (s.dev.qp x q).state = .disabled ∧ v < 2 ^ 32) ∧
    (∃ (s : State) (x q v : Nat), s.dev.serves x ∧ s.dev.hasQueue x q ∧ barQp x + 64 * q < barSize x ∧ (s.dev.qp x q).state ≠ .disabled ∧ v < 2 ^ 32) ∧
    (∃ (s : State) (x o : Nat), s.dev.serves x ∧ o < barMsix x ∧ mailArea x o = false ∧ ¬ (x = 0 ∧ 0x2000 ≤ o ∧ o < 0x3000)) ∧
    (∃ (s : State) (x : Nat), s.dev.serves x) ∧
    (∃ (x q : Nat), barQp x + 64 * q + 0x34 < barSize x) ∧
    (∃ (x o : Nat), o < barMsix x ∧ mailArea x o = false ∧ ¬ (x = 0 ∧ 0x2000 ≤ o ∧ o < 0x3000)) := by
  exact ⟨⟨st on, 513, by decide +kernel⟩,
    ⟨st onD3, 513, by exact ⟨by decide +kernel, by intro o ho; rw [show ((st onD3).dev.fnGet 513).held = [.hostWrite 513 0 []] from by decide +kernel] at ho; exact ⟨_, _, _, List.mem_singleton.1 ho⟩⟩⟩,
    ⟨st on, 513, by decide +kernel⟩,
    ⟨st on, 513, 2, by decide +kernel⟩,
    ⟨st on, 513, 4095, 0, by decide +kernel⟩,
    ⟨st (onQ 513 4095 { state := .active }), 513, 4095, 0, by decide +kernel⟩,
    ⟨st on, 513, 0x3FFF, by decide +kernel⟩,
    ⟨st on, 513, by decide +kernel⟩, ⟨513, 15359, by decide⟩, ⟨513, 0x3FFF, by decide⟩⟩

theorem witness_FunctionResets :
    (∃ (s : State) (x : Nat), s.dev.serves x ∧ isVf x ∧ s.dev.inReset x = false ∧ s.dev.store.commits = [] ∧ s.dev.runningOps = [] ∧ s.dev.twin.xfer = none ∧ (∀ k ∈ s.dev.qry.queries, k.x ≠ x) ∧ (∀ p ∈ s.dev.qpsOf x, p.2.cmds = [])) ∧
    (∃ (s : State) (t h : Nat) (r : CRef) (q : Query) (b : Nat), (s.dev.hearth h).running = some r ∧ s.dev.query r.query = some q ∧ (q.x, b) ∈ s.dev.fn.resetting ∧ b + 5000 ≤ max s.dev.timeUs t) ∧
    (∃ (s : State) (x b : Nat), x < 513 ∧ isVf x ∧ s.dev.fnExists x ∧ s.dev.fn.resetting = [(x, b)] ∧ (∀ k ∈ s.dev.qry.queries, k.x ≠ x) ∧ (∀ c ∈ s.dev.mail.claims, c.x ≠ x) ∧ s.dev.start.service ∧ s.dev.mail.activating = none) ∧
    (∃ (s : State) (port n : Nat), port < 2 ∧ tabGet 0 s.dev.fn.numVfs port < n ∧ n ≤ 512 ∧ !s.dev.start.banked) ∧
    (∃ (s : State) (port n : Nat), port < 2 ∧ n < tabGet 0 s.dev.fn.numVfs port ∧ tabGet 0 s.dev.fn.numVfs port ≤ 512 ∧ s.dev.store.commits = [] ∧ s.dev.qry.queries = [] ∧ s.dev.runningOps = [] ∧ s.dev.host.qps = []) ∧
    (∃ (s : State) (port : Nat), s.dev.pwr.sysGood ∧ port < 2 ∧ tabGet 0 s.dev.fn.numVfs port = 0 ∧ s.dev.store.commits = [] ∧ s.dev.qry.queries = [] ∧ s.dev.runningOps = [] ∧ s.dev.host.qps = [] ∧ s.dev.rx4.hearth = none ∧ s.dev.rx4.run = none ∧ s.dev.inReset (pfOf port) = false) := by
  exact ⟨⟨st { on with fn := { numVfs := [(1, 512)] } }, 1025, by decide +kernel⟩,
    ⟨st { on with fn := { resetting := [(0, 0)] }, qry := { queries := [q1], hearths := [(0, { running := some ⟨1, 0, 0, .flow⟩ })] } }, 5000, 0, ⟨1, 0, 0, .flow⟩, q1, 0, by decide +kernel⟩,
    ⟨st { on with fn := { numVfs := [(0, 512)], resetting := [(512, 0)] } }, 512, 0, by decide +kernel⟩,
    ⟨st { on with fn := { numVfs := [(1, 511)] } }, 1, 512, by decide +kernel⟩,
    ⟨st { on with fn := { numVfs := [(1, 512)] } }, 1, 511, by decide +kernel⟩,
    ⟨st on, 1, by decide +kernel⟩⟩

theorem witness_ResultRings :
    (∃ (s : State) (id e : Nat) (q : Query) (r : Ring), s.dev.query id = some q ∧ q.ending = none ∧ q.rings[e]? = some r ∧ r.stalled ∧ r.wait = [] ∧ r.ended = false ∧ (s.dev.fnGet q.x).d3hot = false ∧ s.dev.sends q.x) ∧
    (∃ (s : State) (id e : Nat) (q : Query) (r : Ring) (b : RBuf) (rest : List RBuf), s.dev.query id = some q ∧ q.ending = none ∧ q.rings[e]? = some r ∧ r.closed = b :: rest ∧ b.charges = [] ∧ s.dev.sends q.x ∧ b.last = false ∧ r.vector = 0xFFFF) := by
  exact ⟨⟨st { on with qry := { queries := [{ q1 with rings := [rg] }] } }, 1, 0, { q1 with rings := [rg] }, rg, by decide +kernel⟩,
    ⟨st { on with qry := { queries := [{ q1 with rings := [rg] }] } }, 1, 0, { q1 with rings := [rg] }, rg, { num := 0, used := 128, batches := 1, rows := 3, last := false, charges := [] }, [], by decide +kernel⟩⟩

theorem witness_CuttingAndSlots :
    (∃ (s : State) (id i perUnit once : Nat) (q : Query) (c : Charge) (st : StageRun), s.dev.query id = some q ∧ i < q.stages.length ∧ q.ending = none ∧ q.refetch = false ∧ (q.stage i).waiting < 64 ∧ s.dev.nextCut q i ⟨perUnit, once⟩ = some (c, st) ∧ c.input.any (·.void) = false ∧ c.idx < 2 ^ 48) ∧
    (∃ (s : State) (h : Nat) (c : Cand) (q : Query) (k : Charge), s.dev.worksOn h ∧ (s.dev.hearth h).slots.length < 2 ∧ s.dev.slotPick h = some c ∧ s.dev.query c.ref.query = some q ∧ c.ref.stage < q.stages.length ∧ s.dev.charge c.ref = some k) := by
  exact ⟨⟨st (onQ3 { inq := [{ up := 7 }] } {}), 1, 1, 0, 0, q3 { inq := [{ up := 7 }] }, chR, { nextIdx := 8 }, by decide +kernel⟩,
    ⟨st (onQ3 { charges := [chR] } { hr with slots := [⟨1, 0, 0, .flow⟩] }), 35, ⟨0, ref1, 0, .ready, none, [], none⟩, q3 { charges := [chR] }, chR, by decide +kernel⟩⟩

theorem witness_StartingCharges :
    (∃ (s : State) (h : Nat) (r : CRef) (rest : List CRef) (q : Query) (c : Charge), s.dev.worksOn h ∧ s.dev.mail.activating = none ∧ (s.dev.hearth h).running = none ∧ (s.dev.hearth h).slots = r :: rest ∧ s.dev.query r.query = some q ∧ r.stage < q.stages.length ∧ s.dev.mayStart q r.stage ∧ s.dev.exchFault q r.stage = none ∧ s.dev.charge r = some c ∧ (∀ k ∈ c.input, k.src = none) ∧ (s.dev.usesKey q r.stage c && s.dev.lockedTs q.ts) = false ∧ (∀ p ∈ s.dev.chargeSlots q r.stage c, s.dev.beyond p.1.group p.1.row = false)) ∧
    (∃ (s : State) (t h : Nat) (c : Cand) (q : Query) (k : Charge), s.dev.worksOn h ∧ (s.dev.hearth h).running = none ∧ (s.dev.hearth h).slots = [] ∧ (s.dev.at t).stealPick h = some c ∧ s.dev.query c.ref.query = some q ∧ c.ref.stage < q.stages.length ∧ s.dev.charge c.ref = some k ∧ k.hearth = none) := by
  exact ⟨⟨st (onQ3 { charges := [{ chR with state := .slotted, hearth := some 35 }] } { hr with slots := [ref1] }), 35, ref1, [], q3 { charges := [{ chR with state := .slotted, hearth := some 35 }] }, { chR with state := .slotted, hearth := some 35 }, by decide +kernel⟩,
    ⟨st (onQ3 { charges := [chR], affinity := some 3 } hr), 50, 35, ⟨0, ref1, 0, .ready, some 3, [], none⟩, q3 { charges := [chR], affinity := some 3 }, chR, by decide +kernel⟩⟩

theorem witness_CompletionAndRelease :
    (∃ (s : State) (t h : Nat) (r : CRef) (q : Query) (c : Charge) (o : ChargeOut), (s.dev.hearth h).running = some r ∧ s.dev.query r.query = some q ∧ s.dev.charge r = some c ∧ r.stage < q.stages.length ∧ s.dev.store.dcmds = [] ∧ s.dev.chargeEngine q r.stage c = none ∧ (s.dev.hearth h).powered ∧ (s.dev.hearth h).exu.unres = false ∧ (s.dev.hearth h).exu.pend = none ∧ c.cancel = none ∧ q.ending = none ∧ s.dev.lockedTs q.ts = false ∧ c.lost = none ∧ c.todo.getD [] = [] ∧ (((s.dev.at t).runCode h).hearth h).exu.unres = false ∧ ((s.dev.at t).runCode h).chargeOut q r.stage c (((s.dev.at t).runCode h).hearth h).exu = .ok o ∧ o.unres = false ∧ o.cmt = none ∧ q.resume = [] ∧ (q.image.stages.getD r.stage {}).ordered ∧ (q.image.stages.getD r.stage {}).op ≠ 0x13 ∧ (q.image.stages.getD r.stage {}).op ≠ 0x11 ∧ r.gather = false ∧ s.dev.twin.alone ∧ c.told = false ∧ c.held = false) ∧
    (∃ (s : State) (id i j : Nat) (q : Query) (c : Charge) (e : EdgeRec), s.dev.query id = some q ∧ i < q.stages.length ∧ j < q.stages.length ∧ i ≠ j ∧ (q.image.stages.getD i {}).ordered ∧ (q.stage i).charge false (q.stage i).nextRel = some c ∧ c.state = .held ∧ c.work = .flow ∧ (q.image.stages.getD i {}).op = 0x03 ∧ q.image.edges.filter (fun e => e.src == i) = [e] ∧ e.srcPort < (q.image.stages.getD i {}).outP ∧ e.dst = j ∧ (q.image.stages.getD j {}).op ≠ 0x0F ∧ (q.image.stages.getD j {}).op ≠ 0x01) := by
  exact ⟨⟨st (run1 runC false), 0, 35, ref1, q3 { charges := [runC], nextRel := 7 }, runC, {}, by and_intros <;> decide +kernel⟩,
    ⟨st (run1 { chR with state := .held, held := true } false), 1, 1, 2, q3 { charges := [{ chR with state := .held, held := true }], nextRel := 7 }, { chR with state := .held, held := true }, { src := 1, dst := 2 }, by decide +kernel⟩⟩

theorem witness_CancelAndRestart :
    (∃ (s : State) (h : Nat) (r : CRef) (q : Query) (c : Charge) (cause : Nat), (s.dev.hearth h).running = some r ∧ s.dev.query r.query = some q ∧ s.dev.charge r = some c ∧ r.stage < q.stages.length ∧ c.state = .running ∧ c.cancel = some cause ∧ c.hearth = some h) ∧
    (∃ (s : State) (h : Nat) (r : CRef) (q : Query) (c : Charge), (s.dev.hearth h).exu.unres ∧ (s.dev.hearth h).running = some r ∧ s.dev.query r.query = some q ∧ s.dev.charge r = some c ∧ r.stage < q.stages.length ∧ c.cancel = none ∧ c.tries < 3) ∧
    (∃ (s : State) (h : Nat) (r : CRef) (q : Query) (c : Charge), (s.dev.hearth h).exu.unres ∧ (s.dev.hearth h).running = some r ∧ s.dev.query r.query = some q ∧ s.dev.charge r = some c ∧ r.stage < q.stages.length ∧ c.cancel = none ∧ c.tries = 3 ∧ c.state = .running ∧ q.ending = none) ∧
    (∃ (s : State) (h : Nat) (used : Spent) (r : CRef) (q : Query) (c : Charge), h < 36 ∧ (s.dev.hearth h).running = some r ∧ s.dev.query r.query = some q ∧ s.dev.charge r = some c ∧ s.dev.store.dcmds = [] ∧ s.dev.chargeEngine q r.stage c = none ∧ (s.dev.hearth h).powered ∧ (s.dev.hearth h).exu.unres = false ∧ (s.dev.hearth h).exu.pend = none ∧ c.cancel = none ∧ q.ending = none ∧ ((used.meets.any (·.sameWord) ∧ bitOf (q.image.resources.getD (q.image.stages.getD r.stage {}).res {}).flags 0 = false) ∨ (used.meets = [] ∧ used.poison ∧ (q.image.stages.getD r.stage {}).op ≠ 0x13)) ∧ (s.dev.hearth h).unresAt = [] ∧ s.dev.recovers 1 h = false) ∧
    (∃ (s : State) (h : Nat) (used : Spent) (r : CRef) (q : Query) (c : Charge), h < 36 ∧ (s.dev.hearth h).running = some r ∧ s.dev.query r.query = some q ∧ s.dev.charge r = some c ∧ s.dev.store.dcmds = [] ∧ s.dev.chargeEngine q r.stage c = none ∧ (s.dev.hearth h).powered ∧ (s.dev.hearth h).exu.unres = false ∧ (s.dev.hearth h).exu.pend = none ∧ c.cancel = none ∧ q.ending = none ∧ used.meets = [] ∧ used.poison ∧ (q.image.stages.getD r.stage {}).op ≠ 0x13 ∧ (s.dev.hearth h).unresAt = [] ∧ s.dev.recovers 1 h = false) := by
  exact ⟨⟨st (run1 { runC with cancel := some 1 } false), 35, ref1, q3 { charges := [{ runC with cancel := some 1 }], nextRel := 7 }, { runC with cancel := some 1 }, 1, by decide +kernel⟩,
    ⟨st (run1 { runC with tries := 2 } true), 35, ref1, q3 { charges := [{ runC with tries := 2 }], nextRel := 7 }, { runC with tries := 2 }, by decide +kernel⟩,
    ⟨st (run1 { runC with tries := 3 } true), 35, ref1, q3 { charges := [{ runC with tries := 3 }], nextRel := 7 }, { runC with tries := 3 }, by decide +kernel⟩,
    ⟨st (run1 runC false), 35, { meets := [⟨11, 4, true⟩] }, ref1, q3 { charges := [runC], nextRel := 7 }, runC, by and_intros <;> first | exact Or.inl (by decide +kernel) | decide +kernel⟩,
    ⟨st (run1 runC false), 35, { poison := true }, ref1, q3 { charges := [runC], nextRel := 7 }, runC, by and_intros <;> decide +kernel⟩⟩

theorem witness_DelayLists :
    (∃ (s : State) (t l : Nat) (e : Delay), s.dev.nextDelay l = some e ∧ e.due ≤ max s.dev.timeUs t / 10 ∧ e.rest ≠ 0) ∧
    (∃ (s : State) (t : Nat) (e : Delay) (k : DCmd), s.dev.nextDelay 0 = some e ∧ e.due ≤ max s.dev.timeUs t / 10 ∧ e.rest = 0 ∧ s.dev.dcmd e.tag = some k ∧ k.waiting ∧ (s.dev.drive k.drive).waking = false) ∧
    (∃ (s : State) (t l : Nat) (e : Delay), s.dev.nextDelay l = some e ∧ max s.dev.timeUs t / 10 < e.due) ∧
    (∃ (s : State) (l : Nat), 4096 ≤ s.dev.delayCount l) ∧
    (∃ (s : State) (t : Nat) (e : Delay) (es : List Delay) (w : Delay) (k : Nat), s.dev.nextDelay 7 = some e ∧ e.due ≤ max s.dev.timeUs t / 10 ∧ e.rest = 0 ∧
      s.dev.qry.delays.erase e = es ++ [w] ∧ (es.filter (·.list == 7)).length < 4096 ∧ (∀ y ∈ es, y.list = 7 → y.tried = none) ∧ w.list = 7 ∧ w.tried = some k) := by
  exact ⟨⟨st { on with qry := { delays := [⟨7, 5, 9, 1, none⟩] } }, 50, 7, ⟨7, 5, 9, 1, none⟩, by decide +kernel⟩,
    ⟨st { on with qry := { delays := [⟨0, 5, 9, 0, none⟩] }, store := { dcmds := [dcW] } }, 50, ⟨0, 5, 9, 0, none⟩, dcW, by decide +kernel⟩,
    ⟨st { on with qry := { delays := [⟨2, 5, 9, 1, none⟩] } }, 49, 2, ⟨2, 5, 9, 1, none⟩, by decide +kernel⟩,
    ⟨st { on with qry := { delays := List.replicate 4096 ⟨2, 5, 9, 1, none⟩ } }, 2, by decide +kernel⟩,
    ⟨st { on with qry := { delays := [⟨7, 5, 9, 0, none⟩, ⟨7, 3, 8, 0, some 1⟩] } }, 50, ⟨7, 5, 9, 0, none⟩, [], ⟨7, 3, 8, 0, some 1⟩, 1, by decide +kernel⟩⟩

theorem witness_TraceAndEngines :
    (∃ (s : State), s.dev.start.service ∧ s.dev.hostStopped = false ∧ s.dev.regN 0x02400040 % 2 = 0) ∧
    (∃ (s : State) (expected count : Nat), s.dev.start.service ∧ s.dev.hostStopped = false ∧ (expected % 2 ^ 32 ≠ s.dev.regN 0x02400040 ∨ count ≠ s.dev.writeCount 0x02400040)) ∧
    (∃ (s : State) (comp : Bool) (e : Nat) (en : Engine) (u : EngUser), (s.dev.engines comp)[e]? = some en ∧ en.now = some u ∧ u.isCharge) ∧
    (∃ (s : State) (comp : Bool) (e : Nat) (en : Engine) (u : EngUser) (j : EngJob), (s.dev.engines comp)[e]? = some en ∧ en.now = some u ∧ u.isCharge = false ∧ s.dev.job u.a u.b u.c = some j ∧ j.blocks + 1 < j.total) ∧
    (∃ (s : State) (e : Nat) (en : Engine) (u : EngUser) (j : EngJob) (alg res : Nat) (k : Cmd), s.dev.twin.alone ∧ (s.dev.engines false)[e]? = some en ∧ en.now = some u ∧ u.isCharge = false ∧ s.dev.job u.a u.b u.c = some j ∧ j.x = u.a ∧ j.q = u.b ∧ j.cid = u.c ∧ j.op = .digest alg res ∧ j.total ≤ j.blocks + 1 ∧ s.dev.sends u.a ∧ (s.dev.qp u.a u.b).cmds = [k] ∧ k.cid = u.c ∧ k.commits = false) ∧
    (∃ (s : State) (comp : Bool) (e : Nat) (en : Engine) (u : EngUser) (j : EngJob) (k : Cmd), s.dev.twin.alone ∧ (s.dev.engines comp)[e]? = some en ∧ en.now = some u ∧ u.isCharge = false ∧ s.dev.job u.a u.b u.c = some j ∧ j.x = u.a ∧ j.q = u.b ∧ j.cid = u.c ∧ s.dev.sends u.a ∧ (s.dev.qp u.a u.b).cmds = [k] ∧ k.cid = u.c ∧ k.commits = false) := by
  exact ⟨⟨st { on with regs := [(0x02400040, 0)] }, by decide +kernel⟩,
    ⟨st on, 0, 65535, by exact ⟨by decide +kernel, by decide +kernel, Or.inr (by decide +kernel)⟩⟩,
    ⟨st { on with host := { on.host with compEng := [en1 true] } }, true, 0, en1 true, { isCharge := true, a := 0, b := 1, c := 5 }, by decide +kernel⟩,
    ⟨st { on with host := { on.host with compEng := [en1 false], engJobs := [{ jb1 with want := 3, pieces := [(0, zeros 65537)] }] } }, true, 0, en1 false, { a := 0, b := 1, c := 5 }, { jb1 with want := 3, pieces := [(0, zeros 65537)] }, by exact ⟨rfl, rfl, rfl, rfl, by simp only [EngJob.total, EngJob.input, jb1, List.mergeSort_singleton, List.map_cons, List.map_nil, List.flatten_cons, List.flatten_nil, List.append_nil, zeros, List.length_replicate]; decide⟩⟩,
    ⟨st { onC 0 1 [cm 7 []] with host := { (onC 0 1 [cm 7 []]).host with digEng := [en1 false], engJobs := [jb1] } }, 0, en1 false, { a := 0, b := 1, c := 5 }, jb1, 0, 4096, cm 7 [], by decide +kernel⟩,
    ⟨st { onC 0 1 [cm 7 []] with host := { (onC 0 1 [cm 7 []]).host with digEng := [en1 false], engJobs := [jb1] } }, false, 0, en1 false, { a := 0, b := 1, c := 5 }, jb1, cm 7 [], by decide +kernel⟩⟩

theorem witness_DataSegments :
    (∃ (s : State) (k : VPkt) (a : Assoc) (v : VIn) (f : RFlow), s.dev.lets k 1 a v ∧ a.had v.psn = false ∧ s.dev.exchQueries (fieldAt v.hdr 0 4) (fieldAt v.hdr 4 2) ≠ [] ∧ s.dev.rflow v.dst v.src (fieldAt v.hdr 0 4) (fieldAt v.hdr 4 2) = some f ∧ f.got = [] ∧ f.parts = [] ∧ f.ended = none ∧ ptLt (fieldAt v.hdr 8 8 % 2 ^ 48, fieldAt v.hdr 8 8 / 2 ^ 48) (f.expCharge, f.expPiece) = false ∧ v.body.length < fieldAt v.hdr 0x10 4 ∧ (s.dev.flowsBegun v.src v.dst ∨ (s.dev.fab.rflows = [f] ∧ f.low = none ∧ (a.got v.psn).rxCum ≤ v.psn))) ∧
    (∃ (s : State) (k : VPkt), s.dev.unpaused ∧ (s.dev.half k.half).up ∧ s.dev.admitted k.addr = false) ∧
    (∃ (s : State) (k : VPkt), s.dev.unpaused ∧ (s.dev.half k.half).up ∧ s.dev.admitted k.addr ∧ parseVxp k.data = none) := by
  exact ⟨⟨st onVD, vp 1 dHdr (zeros 4), { as1 with seg := 4 }, vi 1 dHdr (zeros 4), rf1, by unfold Dev.lets Dev.unpaused Dev.flowsBegun; decide +kernel⟩,
    ⟨st (onV []), { half := 15, addr := [2], ce := false, data := [] }, by unfold Dev.unpaused; decide +kernel⟩,
    ⟨st (onV []), { half := 15, addr := [1], ce := false, data := [] }, by unfold Dev.unpaused; decide +kernel⟩⟩

theorem witness_Acknowledgements :
    (∃ (s : State) (k : VPkt) (a : Assoc) (v : VIn), s.dev.lets k 2 a v ∧ (∀ p ∈ a.unacked, p.psn < fieldAt v.hdr 0 4)) ∧
    (∃ (s : State) (k : VPkt) (a : Assoc) (v : VIn) (g : SFlow), s.dev.lets k 3 a v ∧ a.had v.psn = false ∧ s.dev.flowsBegun v.src v.dst ∧ s.dev.exchQueries (fieldAt v.hdr 0 4) (fieldAt v.hdr 4 2) = [] ∧ s.dev.fab.sflows = [g] ∧ g.exch = fieldAt v.hdr 0 4 ∧ g.stage = fieldAt v.hdr 4 2 ∧ g.sender = v.dst ∧ g.node = v.src ∧ (∀ m ∈ g.msgs, m.sent)) ∧
    (∃ (s : State) (k : VPkt) (a : Assoc) (v : VIn) (g : SFlow) (m : XMsg), s.dev.lets k 8 a v ∧ a.had v.psn = false ∧ s.dev.flowsBegun v.src v.dst ∧ s.dev.fab.sflows = [g] ∧ g.exch = fieldAt v.hdr 0 4 ∧ g.stage = fieldAt v.hdr 4 2 ∧ g.sender = v.dst ∧ g.node = v.src ∧ g.msgs = [m] ∧ m.charge = fieldAt v.hdr 8 8 % 2 ^ 48 ∧ m.piece = fieldAt v.hdr 8 8 / 2 ^ 48 ∧ m.data.length ≤ a.seg) ∧
    (∃ (s : State) (k : VPkt) (a : Assoc) (v : VIn), s.dev.lets k 9 a v ∧ s.dev.flowsBegun v.src v.dst) := by
  exact ⟨⟨st (onV [{ as1 with unacked := [tx1] }]), vp 2 aHdr [], { as1 with unacked := [tx1] }, vi 2 aHdr [], by unfold Dev.lets Dev.unpaused; decide +kernel⟩,
    ⟨st (onVF { sf1 with msgs := [sm1] }), vp 3 fHdr [], as1, vi 3 fHdr [], { sf1 with msgs := [sm1] }, by unfold Dev.lets Dev.unpaused Dev.flowsBegun; decide +kernel⟩,
    ⟨st (onVF { sf1 with msgs := [sm1] }), vp 8 rHdr [], as1, vi 8 rHdr [], { sf1 with msgs := [sm1] }, sm1, by unfold Dev.lets Dev.unpaused Dev.flowsBegun; decide +kernel⟩,
    ⟨st (onV [as1]), vp 9 [] [], as1, vi 9 [] [], by unfold Dev.lets Dev.unpaused Dev.flowsBegun; decide +kernel⟩⟩

theorem witness_Associations :
    (∃ (s : State) (k : VPkt) (v : VIn), s.dev.unpaused ∧ (s.dev.half k.half).up ∧ s.dev.admitted k.addr ∧ parseVxp k.data = some v ∧ v.kind = 4 ∧ s.dev.listed v.src k.addr ∧ s.dev.isMe v.dst ∧ s.dev.assocOf v.src v.dst = none ∧ fieldAt v.body 0 1 = s.dev.xp.1 ∧ s.dev.fab.sflows = []) ∧
    (∃ (s : State) (k : VPkt) (v : VIn), s.dev.unpaused ∧ (s.dev.half k.half).up ∧ s.dev.admitted k.addr ∧ parseVxp k.data = some v ∧ v.kind = 4 ∧ s.dev.listed v.src k.addr ∧ s.dev.isMe v.dst ∧ s.dev.assocOf v.src v.dst = none ∧ fieldAt v.body 0 1 ≠ s.dev.xp.1) ∧
    (∃ (s : State) (k : VPkt) (a : Assoc) (v : VIn), s.dev.unpaused ∧ (s.dev.half k.half).up ∧ s.dev.admitted k.addr ∧ parseVxp k.data = some v ∧ v.kind = 5 ∧ s.dev.listed v.src k.addr ∧ s.dev.isMe v.dst ∧ s.dev.assocOf v.src v.dst = some a ∧ a.opened = false ∧ a.refused = false ∧ s.dev.fab.sflows = []) := by
  exact ⟨⟨st (onV []), vp 4 [] (natLE 8 0x40000010001), vi 4 [] (natLE 8 0x40000010001), by unfold Dev.unpaused; decide +kernel⟩,
    ⟨st (onV []), vp 4 [] (natLE 8 0x40000010002), vi 4 [] (natLE 8 0x40000010002), by unfold Dev.unpaused; decide +kernel⟩,
    ⟨st (onV [as2]), vp 5 [] (natLE 8 0x40000010001), as2, vi 5 [] (natLE 8 0x40000010001), by unfold Dev.unpaused; decide +kernel⟩⟩

theorem witness_AdoptedAndLost :
    (∃ (s : State) (k : VPkt) (a : Assoc) (v : VIn) (f : SFlow), s.dev.lets k 6 a v ∧ a.had v.psn = false ∧ s.dev.flowsBegun v.src v.dst ∧ s.dev.fab.sflows = [f] ∧ f.node = fieldAt v.body 0 2 ∧ f.sender = v.dst ∧ fieldAt v.body 0 2 ≠ v.src) ∧
    (∃ (s : State) (k : VPkt) (a : Assoc) (v : VIn) (f : SFlow), s.dev.lets k 7 a v ∧ a.had v.psn = false ∧ s.dev.flowsBegun v.src v.dst ∧ s.dev.fab.sflows = [f] ∧ fieldAt v.body 0 4 = 1 ∧ f.exch = fieldAt v.body 4 4 ∧ f.stage = fieldAt v.body 8 2 ∧ f.node = v.src ∧ f.sender = v.dst ∧ (∀ m ∈ f.msgs, m.sent)) ∧
    (∃ (s : State) (k : VPkt) (a : Assoc) (v : VIn) (id i : Nat) (q : Query), s.dev.lets k 10 a v ∧ a.had v.psn = false ∧ s.dev.flowsBegun v.src v.dst ∧ fieldAt v.body 4 2 = 2 ∧ s.dev.exchIds (fieldAt v.body 0 4) = [(id, i)] ∧ s.dev.query id = some q ∧ q.ending = none) ∧
    (∃ (s : State) (t peer : Nat) (q : Query), s.dev.fab.assocs.any (fun a => a.peer == peer) ∧ (∀ a ∈ s.dev.fab.assocs, a.peer = peer → a.lastRx + 1000 * s.dev.regField 0x0250000C 15 0 ≤ max s.dev.timeUs t) ∧ s.dev.qry.queries = [q] ∧ q.ending = none ∧ q.image.stages.length = 1 ∧ (q.image.stages.getD 0 {}).op = 0x11 ∧ peer ∈ q.sendMap 0) := by
  exact ⟨⟨st (onVF { sf1 with node := 4, msgs := [sm1] }), vp 6 [] (natLE 8 4), as1, vi 6 [] (natLE 8 4), { sf1 with node := 4, msgs := [sm1] }, by unfold Dev.lets Dev.unpaused Dev.flowsBegun; decide +kernel⟩,
    ⟨st (onVF { sf1 with msgs := [sm1] }), vp 7 [] raB, as1, vi 7 [] raB, { sf1 with msgs := [sm1] }, by unfold Dev.lets Dev.unpaused Dev.flowsBegun; decide +kernel⟩,
    ⟨st { onV [as1] with qry := { queries := [qX 0x12] } }, vp 10 [] (natLE 8 0x200000007), as1, vi 10 [] (natLE 8 0x200000007), 1, 0, qX 0x12, by unfold Dev.lets Dev.unpaused Dev.flowsBegun; decide +kernel⟩,
    ⟨st { onV [as1] with qry := { queries := [qX 0x11] } }, 1000000, 2, qX 0x11, by decide +kernel⟩⟩

theorem witness_AssociationTimers :
    (∃ (s : State) (t peer me : Nat) (a : Assoc) (p : VTx), s.dev.unpaused ∧ s.dev.assocOf peer me = some a ∧ a.unacked = [p] ∧ p.sent + a.rto ≤ max s.dev.timeUs t) ∧
    (∃ (s : State) (peer me : Nat) (a : Assoc), s.dev.unpaused ∧ s.dev.assocOf peer me = some a) ∧
    (∃ (s : State) (peer me : Nat) (a : Assoc), s.dev.unpaused ∧ s.dev.assocOf peer me = some a ∧ a.sinceAck ≠ 0) ∧
    (∃ (s : State) (t peer me : Nat) (a : Assoc), s.dev.unpaused ∧ s.dev.assocOf peer me = some a ∧ a.opened ∧ a.lastTx + 125 * s.dev.regField 0x0250000C 15 0 ≤ max s.dev.timeUs t) := by
  exact ⟨⟨st (onV [{ as1 with unacked := [tx1] }]), 100, 2, 1, { as1 with unacked := [tx1] }, tx1, by unfold Dev.unpaused; decide +kernel⟩,
    ⟨st (onV [{ as1 with acked := 3, ceAcked := 1 }]), 2, 1, { as1 with acked := 3, ceAcked := 1 }, by unfold Dev.unpaused; decide +kernel⟩,
    ⟨st (onV [as1]), 2, 1, as1, by unfold Dev.unpaused; decide +kernel⟩,
    ⟨st (onV [as1]), 125000, 2, 1, as1, by unfold Dev.unpaused; decide +kernel⟩⟩

theorem witness_FabricPorts :
    (∃ (s : State) (h : Nat), h < 16 ∧ (s.dev.half h).up ∧ s.dev.recovers 5 h = false ∧ s.dev.fab.assocs = []) ∧
    (∃ (s : State) (h : Nat), h < 16 ∧ s.dev.regField (fabReg (h / 2)) 1 0 = 1 ∧ h ∉ s.dev.health.fabDisabled ∧ 3 ∉ s.dev.pwr.clocks ∧ s.dev.fab.sflows = []) ∧
    (∃ (s : State) (p value : Nat), p < 8 ∧ s.dev.start.service ∧ s.dev.hostStopped = false ∧ s.dev.fab.assocs = [] ∧ value % 4 ≤ 2 ∧ bitsOf value 9 8 ≤ 2 ∧ value < 1024 ∧ s.dev.regN (fabReg p) < 1024 ∧ value % 8 ≠ s.dev.regN (fabReg p) % 8) ∧
    (∃ (s : State) (h kind : Nat), (s.dev.half h).up ∧ kind ≤ 1) ∧
    (∃ (kind : Nat), 4 ≤ kind) ∧
    (∃ (s : State) (h mask : Nat), s.dev.unpaused ∧ h < 16 ∧ bitOf (s.dev.regN (fabReg (h / 2))) 4 ∧ bitOf mask (bitsOf (s.dev.regN (fabReg (h / 2))) 7 5)) := by
  exact ⟨⟨st { on with fab := { halves := [(15, { up := true, fec := true })] } }, 15, by decide +kernel⟩,
    ⟨st { on with regs := [(0x02510700, 1)] }, 15, by decide +kernel⟩,
    ⟨st on, 7, 5, by decide +kernel⟩,
    ⟨st (onV []), 15, 1, by decide +kernel⟩,
    ⟨4, by decide +kernel⟩,
    ⟨st { on with regs := [(0x02510700, 0xF0)] }, 15, 128, by unfold Dev.unpaused; decide +kernel⟩⟩

theorem witness_WideUnit :
    (∃ (s : State) (h : Nat) (p : XPend), (s.dev.hearth h).exu.pend = some p ∧ p.flt.cause ≠ 5 ∧ ((s.dev.hearth h).exu.done (s.dev.narrowOnly h) p.op p.w).unres = false ∧ ((s.dev.hearth h).exu.done (s.dev.narrowOnly h) p.op p.w).pend = none) ∧
    (∃ (s : State) (h : Nat), (s.dev.hearth h).exu.wide = .ready ∧ s.dev.wideIdleUs h ≠ 0) ∧
    (∃ (s : State) (h : Nat), (s.dev.hearth h).exu.wide = .poweringDown) ∧
    (∃ (s : State) (h : Nat), (s.dev.hearth h).exu.wide = .waking) ∧
    (∃ (s : State) (h value : Nat), h < 36 ∧ s.dev.start.service ∧ s.dev.hostStopped = false ∧ value < 2 ^ 17 ∧ s.dev.regN (0x02100000 + 0x1000 * h) < 2 ^ 17) := by
  exact ⟨⟨st (onX { pend := some pn1 }), 35, pn1, by decide +kernel⟩,
    ⟨st (onX { wide := .ready }), 35, by decide +kernel⟩,
    ⟨st (onX { wide := .poweringDown, wakeReq := true }), 35, by decide +kernel⟩,
    ⟨st (onX { wide := .waking }), 35, by decide +kernel⟩,
    ⟨st on, 35, 2 ^ 17 - 1, by decide +kernel⟩⟩

theorem witness_CareMaskTables :
    (∃ (s : State) (h : Nat), s.dev.scrubPaused h = false ∧ s.dev.mail.sysUpdate = none) ∧
    (∃ (s : State) (h : Nat), s.dev.scrubPaused h = false ∧ s.dev.mail.sysUpdate = none) ∧
    (∃ (s : State) (h : Nat) (u : SysUpdate), s.dev.mail.sysUpdate = some u ∧ (s.dev.hearth h).on ∧ h ∉ u.applied ∧ (∃ k ∈ s.dev.pipeHearths, k ≠ h ∧ k ∉ u.applied)) ∧
    (∃ (s : State) (h : Nat) (u : SysUpdate), s.dev.mail.sysUpdate = some u ∧ (s.dev.hearth h).on ∧ h ∉ u.applied ∧ (∀ k ∈ s.dev.pipeHearths, k = h ∨ k ∈ u.applied)) := by
  exact ⟨⟨st (onX { cmt := { scrubPos := 16383 } }), 35, by decide +kernel⟩,
    ⟨st (onX { cmt := { scrubPos := 4096 } }), 35, by decide +kernel⟩,
    ⟨st { onX {} with qry := { hearths := [(34, hr), (35, hr)] }, mail := { sysUpdate := some su1 } }, 35, su1, by exact ⟨rfl, rfl, by decide, 34, by decide +kernel⟩⟩,
    ⟨st { onX {} with mail := { sysUpdate := some su1 } }, 35, su1, by decide +kernel⟩⟩

theorem witness_Frames :
    (∃ (s : State) (u f dest : Nat) (e : XlEntry) (g : Nat), dest < 8 ∧ (s.dev.memUnit dest).state = 2 ∧ s.dev.mem.entries.find? (fun e => 4 * e.tier + e.unit == u && e.frame == f) = some e ∧ s.dev.freeFrame dest = some g ∧ f < 2 ^ 19 ∧ g < 2 ^ 19 ∧ tabWf 0 s.dev.mem.bytes ∧ (∀ i, i < frameBytes → tabGet 0 s.dev.mem.bytes (memKey dest (g * frameBytes + i)) = 0)) ∧
    (∃ (s : State) (u f : Nat), f ∈ (s.dev.memUnit u).dirty) := by
  exact ⟨⟨st (onM xl1 {}), 0, 0, 7, xl1, 0, by exact ⟨by decide, by decide +kernel, by decide +kernel, by decide +kernel, by decide, by decide, by decide +kernel, fun _ _ => rfl⟩⟩,
    ⟨st { onM xl1 {} with mem := { units := [(7, { dirty := [524287] })] } }, 7, 524287, by decide +kernel⟩⟩

theorem witness_DramTimers :
    (∃ (s : State) (u off : Nat), (u, off) ∈ s.dev.mem.due ∧ s.dev.backed u = []) ∧
    (∃ (s : State) (u : Nat), (s.dev.memUnit u).state = 2 ∧ (s.dev.memUnit u).gb ≠ 0 ∧ s.dev.regField (memRegs u (s.dev.decodeLine u ((s.dev.memUnit u).patrol * 128)) + 0xC) 7 0 ≠ 0) ∧
    (∃ (s : State), tabWf {} s.dev.mem.banks) ∧
    (∃ (s : State) (u : Nat), (s.dev.memUnit u).state = 2) ∧
    (∃ (s : State) (u : Nat), (s.dev.memUnit u).state = 2) := by
  exact ⟨⟨st { onM xl1 {} with mem := { (onM xl1 {}).mem with due := [(7, 0)] } }, 7, 0, by decide +kernel⟩,
    ⟨st { onM xl1 {} with regs := [(0x0260000C, 1)] }, 0, by decide +kernel⟩,
    ⟨st (onM xl1 {}), by decide +kernel⟩,
    ⟨st (onM xl1 {}), 7, by decide +kernel⟩,
    ⟨st (onM xl1 {}), 7, by decide +kernel⟩⟩

theorem witness_ScratchpadBanks :
    (∃ (s : State) (h b : Nat), h < 36 ∧ b < 12 ∧ bitOf (tabGet 0 s.dev.mem.retained h) b = false ∧ s.dev.heldBanks h ≤ b ∧ s.dev.regField (0x02100200 + 0x1000 * h) 15 0 ≠ 0) ∧
    (∃ (s : State) (h b : Nat), bitOf (tabGet 0 s.dev.mem.retained h) b) ∧
    (∃ (s : State) (h b : Nat), h < 36 ∧ b < 12 ∧ (s.dev.hearth h).running = none ∧ (s.dev.hearth h).quenched = false ∧ s.dev.spare h b < 2) := by
  exact ⟨⟨st { on with regs := [(0x02123200, 1)] }, 35, 11, by decide +kernel⟩,
    ⟨st { on with mem := { retained := [(35, 2048)] } }, 35, 11, by decide +kernel⟩,
    ⟨st { on with mem := { spares := [(431, 1)] } }, 35, 11, by decide +kernel⟩⟩

theorem witness_SystemCache :
    (∃ (s : State) (ctx dva : Nat) (e : XlEntry) (sl st w : Nat) (l : CLine), s.dev.xlEntry ctx (dva / frameBytes) = some e ∧ s.dev.placeLine (lineNo (4 * e.tier + e.unit) ((e.frame * frameBytes + dva % frameBytes) / 128 * 128)) = (sl, st) ∧ (s.dev.cset sl st).find (lineNo (4 * e.tier + e.unit) ((e.frame * frameBytes + dva % frameBytes) / 128 * 128)) = some w ∧ (s.dev.cset sl st).way w = some l ∧ (∀ k ∈ s.dev.mem.slices, bitCount 16 (tabGet 0 s.dev.mem.fenced k) < 5)) ∧
    (∃ (s : State) (ctx dva : Nat) (e : XlEntry) (sl st : Nat), s.dev.xlEntry ctx (dva / frameBytes) = some e ∧ e.noAlloc ∧ s.dev.placeLine (lineNo (4 * e.tier + e.unit) ((e.frame * frameBytes + dva % frameBytes) / 128 * 128)) = (sl, st) ∧ (s.dev.cset sl st).find (lineNo (4 * e.tier + e.unit) ((e.frame * frameBytes + dva % frameBytes) / 128 * 128)) = none ∧ s.dev.victims sl = [] ∧ (∀ k ∈ s.dev.mem.slices, bitCount 16 (tabGet 0 s.dev.mem.fenced k) < 5)) ∧
    (∃ (s : State) (ctx dva : Nat) (b : Bytes) (e : XlEntry) (sl st a : Nat), s.dev.xlEntry ctx (dva / frameBytes) = some e ∧ e.writable ∧ lineNo (4 * e.tier + e.unit) ((e.frame * frameBytes + dva % frameBytes) / 128 * 128) = a ∧ s.dev.placeLine a = (sl, st) ∧ (e.frame * frameBytes + dva % frameBytes) % 128 + b.length ≤ 128) ∧
    (∃ (s : State) (ctx dva : Nat) (e : XlEntry) (a i : Nat), s.dev.xlEntry ctx (dva / frameBytes) = some e ∧ e.writable ∧ lineNo (4 * e.tier + e.unit) ((e.frame * frameBytes + dva % frameBytes) / 128 * 128) = a ∧ i < 128) := by
  exact ⟨⟨st (onM xl1 cs1), 1, 127, xl1, 0, 0, 15, ln1, by decide +kernel⟩,
    ⟨st (onM { xl1 with noAlloc := true } {}), 1, 127, { xl1 with noAlloc := true }, 0, 0, by decide +kernel⟩,
    ⟨st (onM xl1 cs1), 1, 127, [1], xl1, 0, 0, 0, by decide +kernel⟩,
    ⟨st (onM xl1 cs1), 1, 0, xl1, 0, 127, by decide +kernel⟩⟩

theorem witness_MailboxRequests :
    (∃ (s : State) (x : Nat) (r : MbReq), s.dev.takes x 0x01 r ∧ fieldAt r.payload 0 1 = 2 ∧ fieldAt r.payload 1 1 ≤ s.dev.mail.minor) ∧
    (∃ (s : State) (x : Nat) (r : MbReq), s.dev.takes x 0x01 r ∧ s.dev.mail.minor < fieldAt r.payload 1 1) ∧
    (∃ (s : State) (x : Nat) (r : MbReq), s.dev.takes x 0x02 r) ∧
    (∃ (s : State) (x : Nat) (r : MbReq), s.dev.takes x 0x03 r) ∧
    (∃ (s : State) (x : Nat) (r : MbReq), s.dev.takes x 0x04 r) ∧
    (∃ (s : State) (x : Nat) (r : MbReq) (o : LongOp), s.dev.takes x 0x05 r ∧ s.dev.mail.ops.find? (fun o => o.handle == fieldAt r.payload 0 4 && o.x == x) = some o) ∧
    (∃ (s : State) (x : Nat) (r : MbReq) (o : LongOp), s.dev.takes x 0x06 r ∧ s.dev.mail.ops.find? (fun o => o.handle == fieldAt r.payload 0 4 && o.x == x) = some o ∧ o.state = 1 ∧ s.dev.cancellable o) ∧
    (∃ (s : State) (x : Nat) (r : MbReq), s.dev.takes x 0x06 r ∧ s.dev.mail.ops.find? (fun o => o.handle == fieldAt r.payload 0 4 && o.x == x) = none) ∧
    (∃ (s : State) (x : Nat) (r : MbReq), s.dev.takes x 0x53 r) ∧
    (∃ (s : State) (x : Nat), s.dev.mbReached x ∧ (s.dev.mbox x).busy.isSome ∧ (s.dev.mbox x).err < 2) ∧
    (∃ (s : State) (x : Nat) (r : MbReq) (n : Nat), s.dev.mbReached x ∧ (s.dev.mbox x).busy = none ∧ (s.dev.mbox x).ready ∧ s.dev.sec.halted = false ∧ s.dev.start.banked = false ∧ s.dev.mbReason x 0x03 r = n ∧ n ≠ 0) := by
  exact ⟨⟨st (onB 1025 onVf), 1025, rq 8 [(0, 1, 2), (2, 1, 4)], by unfold Dev.takes; decide +kernel⟩,
    ⟨st (onB 1025 onVf), 1025, rq 8 [(0, 1, 2), (1, 1, 5), (2, 1, 5)], by unfold Dev.takes; decide +kernel⟩,
    ⟨st (onB 1025 onVf), 1025, rq 0 [], by unfold Dev.takes; decide +kernel⟩,
    ⟨st (onB 1025 onVf), 1025, rq 0 [], by unfold Dev.takes; decide +kernel⟩,
    ⟨st { onB 1025 onVf with mail := { boxes := [(1025, { ready := true, session := some 0, events := [{ code := 1 }], lost := 2 })] } }, 1025, rq 2 [(0, 2, 4)], by unfold Dev.takes; decide +kernel⟩,
    ⟨st (onOp op1), 0, rq 4 [(0, 4, 1)], op1, by unfold Dev.takes; decide +kernel⟩,
    ⟨st (onOp op1), 0, rq 8 [(0, 4, 1)], op1, by unfold Dev.takes; decide +kernel⟩,
    ⟨st (onOp op1), 0, rq 8 [(0, 4, 2)], by unfold Dev.takes; decide +kernel⟩,
    ⟨st (onB 513 on), 513, rq 0 [], by unfold Dev.takes; decide +kernel⟩,
    ⟨st { on with mail := { boxes := [(513, { busy := some 3, err := 1 })] } }, 513, by decide +kernel⟩,
    ⟨st (onB 513 on), 513, { rq 0 [] with ver := 2 }, 3, by decide +kernel⟩⟩

theorem witness_MailboxRegisters :
    (∃ (s : State) (x : Nat) (r : MbReq) (i : Nat), s.dev.takes x 0x10 r ∧ i < fieldAt r.payload 4 2 ∧ secBlock (fieldAt r.payload 0 4 + 4 * i) ∧ regRow (fieldAt r.payload 0 4 + 4 * i) = none) ∧
    (∃ (s : State) (x : Nat) (r : MbReq), s.dev.takes x 0x10 r ∧ (∀ i, i < fieldAt r.payload 4 2 → secBlock (fieldAt r.payload 0 4 + 4 * i) → regRow (fieldAt r.payload 0 4 + 4 * i) ≠ none)) ∧
    (∃ (s : State) (x : Nat) (r : MbReq) (a : Nat), s.dev.takes x 0x11 r ∧ a ∈ [0x02500008, 0x0250000C, 0x02500010, 0x02900000, 0x02A00004, 0x02C00010, 0x02C10004, 0x02F00124] ∧ fieldAt r.payload 0 4 = a ∧ fieldAt r.payload 4 1 = 4 ∧ fieldAt r.payload 8 8 = 0xFFFFFFFF ∧ fieldAt r.payload 24 8 = s.dev.regN a ∧ fieldAt r.payload 6 2 = s.dev.writeCount a ∧ (fieldAt r.payload 16 8).land (cwMask a) = fieldAt r.payload 16 8 ∧ fieldAt r.payload 16 8 < 2 ^ 32 ∧ (s.dev.regN a).land (cwMask a) = s.dev.regN a ∧ cwOk a (fieldAt r.payload 16 8)) ∧
    (∃ (s : State) (x : Nat) (r : MbReq) (a : Nat), s.dev.takes x 0x11 r ∧ a ∈ [0x02500008, 0x0250000C, 0x02500010, 0x02900000, 0x02A00004, 0x02C00010, 0x02C10004, 0x02F00124] ∧ fieldAt r.payload 0 4 = a ∧ fieldAt r.payload 4 1 = 4 ∧ fieldAt r.payload 8 8 = 0xFFFFFFFF ∧ cwOk a (fieldAt r.payload 16 8) ∧ (fieldAt r.payload 16 8).land (cwMask a) = fieldAt r.payload 16 8 ∧ fieldAt r.payload 16 8 < 2 ^ 32 ∧ (s.dev.regN a).land (cwMask a) = s.dev.regN a ∧ (fieldAt r.payload 24 8 % 2 ^ 32 ≠ s.dev.regN a ∨ fieldAt r.payload 6 2 ≠ s.dev.writeCount a)) ∧
    (∃ (s : State) (x : Nat) (r : MbReq) (c : Claim), s.dev.takes x 0x12 r ∧ fieldAt r.payload 0 2 = 0 ∧ c ∈ s.dev.mail.claims ∧ c.cls = 3 ∧ c.x = x ∧ c.holder = 1 ∧ c.dva ≤ fieldAt r.payload 8 8 ∧ fieldAt r.payload 8 8 + fieldAt r.payload 16 4 ≤ c.dva + c.bytes ∧ s.dev.claimOf 3 0 = none ∧ s.dev.sends x ∧ bitOf (s.dev.mbox x).vector 31 = false) ∧
    (∃ (s : State) (x : Nat) (r : MbReq), s.dev.takes x 0x37 r) ∧
    (∃ (s : State) (n : Nat), s.dev.start.service ∧ s.dev.hostStopped = false ∧ s.dev.splitOk n ∧ s.dev.regN 0x02A00000 < 2 ^ 14) ∧
    (∃ (s : State) (n : Nat), s.dev.start.service ∧ s.dev.hostStopped = false ∧ n ≤ 8192 ∧ s.dev.splitOk n = false) := by
  exact ⟨⟨st (onB 513 on), 513, rq 6 [(0, 4, 0x02E00020), (4, 2, 2)], 1, by unfold Dev.takes; decide +kernel⟩,
    ⟨st { onB 513 on with regs := [(0x02500020, 7)] }, 513, rq 6 [(0, 4, 0x02500020), (4, 2, 2)], by unfold Dev.takes; decide +kernel⟩,
    ⟨st (onB 513 on), 513, wr8 65535 0x51E9, 0x02500008, by unfold Dev.takes; decide +kernel⟩,
    ⟨st (onB 513 on), 513, wr8 1024 0, 0x02500008, by unfold Dev.takes; and_intros <;> decide +kernel⟩,
    ⟨st (onCl 513 cl3), 513, rq 32 [(8, 8, 4194240), (16, 4, 64), (24, 8, 4096)], cl3, by unfold Dev.takes; decide +kernel⟩,
    ⟨st (onB 513 on), 513, rq 24 [(8, 8, 2097152), (16, 8, 64)], by unfold Dev.takes; decide +kernel⟩,
    ⟨st on, 8192, by decide +kernel⟩,
    ⟨st { on with fn := { numVfs := [(0, 1)], queues := [(1, 64)] } }, 63, by decide +kernel⟩⟩

/-- The one entry that the 40 zero bytes of a system table's update hold. -/
theorem bankZ_entries : (parseCareBank (zeros 40) 0 2 (fieldAt (rq 24 [(2, 2, 1), (4, 2, 2047)]).payload 2 2)).entries =
    [{ key := [0, 0], care := [0, 0], value := 0, prio := 0 }] := by decide +kernel
theorem witness_MailboxSettings :
    (∃ (s : State) (x : Nat) (r : MbReq), s.dev.takes x 0x13 r ∧ fieldAt r.payload 0 2 = 0xFFFF ∧ s.dev.mbGeneration 0x13 = r.gen) ∧
    (∃ (s : State) (x : Nat) (r : MbReq), s.dev.takes x 0x13 r ∧ fieldAt r.payload 0 2 = 0xFFFF ∧ s.dev.mbGeneration 0x13 ≠ r.gen) ∧
    (∃ (s : State) (x : Nat) (r : MbReq), s.dev.takes x 0x13 r ∧ fieldAt r.payload 0 2 ≠ 0xFFFF) ∧
    (∃ (s : State) (x : Nat) (r : MbReq) (b : Bytes) (l : List (Nat × List Bytes)), s.dev.takes x 0x14 r ∧ r.buf = some b ∧ r.gen = s.dev.mbGeneration 0x14 ∧ 136 * fieldAt r.payload 16 4 ≤ b.length ∧ (∀ i, i < fieldAt r.payload 16 4 → zeroAt b (136 * i + 4) 4) ∧ ((List.range (fieldAt r.payload 16 4)).map (136 * ·)).filterMap (nodeRec b) = l ∧ l.length = fieldAt r.payload 16 4 ∧ ((l.map (·.1)).eraseDups).length = fieldAt r.payload 16 4) ∧
    (∃ (s : State) (x : Nat) (r : MbReq), s.dev.takes x 0x15 r ∧ fieldAt r.payload 3 1 = 0) ∧
    (∃ (s : State) (x : Nat) (r : MbReq), s.dev.takes x 0x15 r ∧ fieldAt r.payload 3 1 = 1 ∧ fieldAt r.payload 2 1 ≠ 0) ∧
    (∃ (s : State) (x : Nat) (r : MbReq), s.dev.takes x 0x16 r ∧ fieldAt r.payload 0 1 = 0xFF ∧ s.dev.pwr.mode ≠ 6 ∧ s.dev.pwr.change = none ∧ s.dev.pwr.entry = none ∧ s.dev.mbGeneration 0x16 = r.gen) ∧
    (∃ (s : State) (x : Nat) (r : MbReq), s.dev.takes x 0x16 r ∧ fieldAt r.payload 0 1 ≤ 1 ∧ s.dev.pwr.change = none ∧ s.dev.pwr.entry = none ∧ s.dev.mbGeneration 0x16 = r.gen ∧ s.dev.entryBlocked = none) ∧
    (∃ (s : State) (x : Nat) (r : MbReq), s.dev.takes x 0x16 r ∧ s.dev.fn.directed ∧ 2 ≤ fieldAt r.payload 0 1 ∧ fieldAt r.payload 0 1 ≠ 0xFF ∧ fieldAt r.payload 0 1 ≠ 6 ∧ s.dev.pwr.change = none ∧ s.dev.pwr.entry = none ∧ s.dev.mbGeneration 0x16 = r.gen) ∧
    (∃ (s : State) (x : Nat) (r : MbReq), s.dev.takes x 0x16 r ∧ s.dev.fn.directed ∧ s.dev.pwr.change.isSome) ∧
    (∃ (s : State) (x : Nat) (r : MbReq) (y : Nat), s.dev.takes x 0x17 r ∧ y = pfOf (portOf x) + fieldAt r.payload 0 2 ∧ fieldAt r.payload 0 2 ≤ 512 ∧ fieldAt r.payload 2 2 = 0x1F ∧ fieldAt r.payload 8 2 ≠ 0 ∧ fieldAt r.payload 16 4 ≤ 6144) ∧
    (∃ (s : State) (x : Nat) (r : MbReq) (q : Nat), s.dev.takes x 0x17 r ∧ fieldAt r.payload 2 2 = 0x20 ∧ fieldAt r.payload 0 2 ≠ 0 ∧ fieldAt r.payload 0 2 ≤ 512 ∧ fieldAt r.payload 12 2 = q ∧ q ≤ 64 ∧ s.dev.grant (pfOf (portOf x) + fieldAt r.payload 0 2) < q ∧ s.dev.pool (portOf (pfOf (portOf x) + fieldAt r.payload 0 2)) < s.dev.granted (portOf (pfOf (portOf x) + fieldAt r.payload 0 2)) + (q - s.dev.grant (pfOf (portOf x) + fieldAt r.payload 0 2)) + s.dev.leastQueues (pfOf (portOf x))) ∧
    (∃ (s : State) (x : Nat) (r : MbReq) (b : Bytes), s.dev.takes x 0x18 r ∧ r.buf = some b ∧ fieldAt r.payload 1 1 = 0 ∧ s.dev.mail.sysUpdate = none ∧ s.dev.mail.sysTables = [] ∧ b.length = 40 * fieldAt r.payload 2 2 ∧ (∀ i, i < fieldAt r.payload 2 2 → zeroAt b (40 * i + 37) 3) ∧ (∀ e ∈ (parseCareBank b 0 2 (fieldAt r.payload 2 2)).entries, ∀ p ∈ e.key.zip e.care, p.1 &&& ~~~ p.2 = 0) ∧ s.dev.regN 0x02300000 = r.gen ∧ s.dev.pipeHearths ≠ []) := by
  exact ⟨⟨st (onB 513 on), 513, rq 3 [(0, 2, 0xFFFF), (2, 1, 1)], by unfold Dev.takes; decide +kernel⟩,
    ⟨st (onB 513 on), 513, { rq 3 [(0, 2, 0xFFFF), (2, 1, 1)] with gen := 65535 }, by unfold Dev.takes; decide +kernel⟩,
    ⟨st (onB 513 on), 513, rq 3 [(0, 2, 512)], by unfold Dev.takes; decide +kernel⟩,
    ⟨st (onB 513 on), 513, { rq 20 [(0, 2, 1), (16, 4, 1)] with buf := some nodeB }, nodeB, [(2, [zeros 16])], by unfold Dev.takes; decide +kernel⟩,
    ⟨st (onB 0 on), 0, rq 4 [(2, 1, 255)], by unfold Dev.takes; decide +kernel⟩,
    ⟨st { onB 0 on with qry := { sharing := [(0, 255)], cache := [{ group := 255, digest := [], image := {}, bytes := 64 }] } }, 0, rq 4 [(2, 1, 255), (3, 1, 1)], by unfold Dev.takes; decide +kernel⟩,
    ⟨st (onB 0 on), 0, rq 8 [(0, 1, 0xFF), (2, 2, 80)], by unfold Dev.takes; decide +kernel⟩,
    ⟨st onOff, 0, rq 8 [(0, 1, 1)], by unfold Dev.takes; decide +kernel⟩,
    ⟨st (onB 0 on), 0, rq 8 [(0, 1, 4), (1, 1, 31)], by unfold Dev.takes; decide +kernel⟩,
    ⟨st { onB 0 on with pwr := { on.pwr with change := some chg0 } }, 0, rq 8 [(0, 1, 7)], by unfold Dev.takes; decide +kernel⟩,
    ⟨st (onB 513 on), 513, rq 40 [(0, 2, 512), (2, 2, 0x1F), (8, 2, 65535), (16, 4, 6144)], 1025, by unfold Dev.takes; decide +kernel⟩,
    ⟨st { onB 0 on with regs := [(0x02A00000, 63)] }, 0, rq 40 [(0, 2, 512), (2, 2, 0x20), (12, 2, 64)], 64, by unfold Dev.takes; decide +kernel⟩,
    ⟨st { onB 0 on with qry := { hearths := [(0, hr)] } }, 0, { rq 24 [(2, 2, 1), (4, 2, 2047)] with buf := some (zeros 40) }, zeros 40,
      by unfold Dev.takes; decide +kernel, rfl, by decide +kernel, by decide +kernel, by decide +kernel, by decide +kernel, by decide +kernel,
      by rw [bankZ_entries]; simp, by decide +kernel, by decide +kernel⟩⟩

theorem witness_CatalogCommands :
    (∃ (s : State) (x : Nat) (r : MbReq) (k : SecKey), s.dev.takes x 0x20 r ∧ fnOfCode (fieldAt r.payload 0 2) = x ∧ s.dev.store.groups.any (fun g => g.id == fieldAt r.payload 4 2 && g.scheme == fieldAt r.payload 2 1) ∧ s.dev.store.spaces = [] ∧ s.dev.store.lastTs < 0xFFFFFFFF ∧ s.dev.sec.keys.find? (fun k => k.ref == fieldAt r.payload 12 4 && k.going.isNone) = some k) ∧
    (∃ (s : State) (x : Nat) (r : MbReq), s.dev.takes x 0x20 r ∧ fnOfCode (fieldAt r.payload 0 2) = x ∧ s.dev.store.groups.any (fun g => g.id == fieldAt r.payload 4 2 && g.scheme == fieldAt r.payload 2 1) ∧ s.dev.store.spaces = [] ∧ s.dev.store.lastTs < 0xFFFFFFFF ∧ s.dev.sec.keys = []) ∧
    (∃ (s : State) (x : Nat) (r : MbReq) (sp : TSpace), s.dev.takes x 0x22 r ∧ s.dev.mbSpace x (fieldAt r.payload 0 4) = .ok sp) ∧
    (∃ (s : State) (x : Nat) (r : MbReq) (sp : TSpace), s.dev.takes x 0x21 r ∧ s.dev.mbSpace x (fieldAt r.payload 0 4) = .ok sp ∧ s.dev.tsUser (fieldAt r.payload 0 4) = none ∧ s.dev.runningOps = [] ∧ s.dev.mayCommit sp ∧ (∀ o ∈ s.dev.mail.ops, o.handle ≠ s.dev.mail.nextHandle)) ∧
    (∃ (s : State) (x : Nat) (r : MbReq) (sp : TSpace), s.dev.takes x 0x28 r ∧ s.dev.mbSpace x (fieldAt r.payload 0 4) = .ok sp ∧ s.dev.tsUser (fieldAt r.payload 0 4) = none ∧ s.dev.runningOps = [] ∧ s.dev.mayCommit sp ∧ (∀ o ∈ s.dev.mail.ops, o.handle ≠ s.dev.mail.nextHandle)) ∧
    (∃ (s : State) (x : Nat) (r : MbReq) (sp : TSpace) (y : Nat), s.dev.takes x 0x21 r ∧ s.dev.mbSpace x (fieldAt r.payload 0 4) = .ok sp ∧ s.dev.tsUser (fieldAt r.payload 0 4) = some y) ∧
    (∃ (s : State) (x : Nat) (r : MbReq) (b : Bytes) (sp : TSpace) (l : List Column), s.dev.takes x 0x23 r ∧ r.buf = some b ∧ s.dev.mbSpace x (fieldAt r.payload 0 4) = .ok sp ∧ s.dev.mayCommit sp ∧ 24 * fieldAt r.payload 8 2 ≤ b.length ∧ (∀ i, i < fieldAt r.payload 8 2 → colRsv b (24 * i)) ∧ ((List.range (fieldAt r.payload 8 2)).map (24 * ·)).filterMap (colRec b) = l ∧ l.length = fieldAt r.payload 8 2 ∧ ((l.map (·.id)).eraseDups).length = fieldAt r.payload 8 2 ∧ s.dev.idUsed sp (fieldAt r.payload 4 4) = false ∧ sp.tables = []) ∧
    (∃ (s : State) (x : Nat) (r : MbReq) (sp : TSpace), s.dev.takes x 0x24 r ∧ s.dev.mbSpace x (fieldAt r.payload 0 4) = .ok sp ∧ s.dev.mayCommit sp ∧ isSlag (fieldAt r.payload 4 4) = false ∧ (sp.table (fieldAt r.payload 4 4) sp.visible).isSome) ∧
    (∃ (s : State) (x : Nat) (r : MbReq) (sp : TSpace), s.dev.takes x 0x24 r ∧ s.dev.mbSpace x (fieldAt r.payload 0 4) = .ok sp ∧ (sp.table (fieldAt r.payload 4 4) sp.visible) = none) ∧
    (∃ (s : State) (x : Nat) (r : MbReq) (sp : TSpace) (k : Table), s.dev.takes x 0x25 r ∧ s.dev.mbSpace x (fieldAt r.payload 0 4) = .ok sp ∧ s.dev.mayCommit sp ∧ isSlag (fieldAt r.payload 4 4) = false ∧ sp.table (fieldAt r.payload 4 4) sp.visible = some k ∧ fieldAt r.payload 8 1 = 2 ∧ (k.column (fieldAt r.payload 16 2) sp.visible).isSome ∧ 2 ≤ (k.liveCols sp.visible).length) ∧
    (∃ (s : State) (x : Nat) (r : MbReq) (sp : TSpace) (k : Table) (c : Column), s.dev.takes x 0x25 r ∧ s.dev.mbSpace x (fieldAt r.payload 0 4) = .ok sp ∧ s.dev.mayCommit sp ∧ isSlag (fieldAt r.payload 4 4) = false ∧ sp.table (fieldAt r.payload 4 4) sp.visible = some k ∧ fieldAt r.payload 8 1 = 1 ∧ colRec r.payload 16 = some c ∧ c.ty.nullable ∧ (∀ y ∈ k.cols, y.id ≠ c.id) ∧ s.dev.mail.asks = []) ∧
    (∃ (s : State) (x : Nat) (r : MbReq) (sp : TSpace) (k : Table), s.dev.takes x 0x25 r ∧ s.dev.mbSpace x (fieldAt r.payload 0 4) = .ok sp ∧ s.dev.mayCommit sp ∧ sp.table (fieldAt r.payload 4 4) sp.visible = some k ∧ fieldAt r.payload 8 1 = 3) ∧
    (∃ (s : State) (x : Nat) (r : MbReq) (sp : TSpace) (k : Table), s.dev.takes x 0x26 r ∧ s.dev.mbSpace x (fieldAt r.payload 0 4) = .ok sp ∧ sp.table (fieldAt r.payload 4 4) sp.visible = some k ∧ isSlag (fieldAt r.payload 4 4) = false ∧ fieldAt r.payload 16 4 = 0) ∧
    (∃ (s : State) (x : Nat) (r : MbReq) (b : List Byte) (sp : TSpace) (k : Table) (im : Image), s.dev.takes x 0x26 r ∧ r.buf = some b ∧ s.dev.mbSpace x (fieldAt r.payload 0 4) = .ok sp ∧ sp.table (fieldAt r.payload 4 4) sp.visible = some k ∧ isSlag (fieldAt r.payload 4 4) = false ∧ fieldAt r.payload 16 4 = b.length ∧ b ≠ [] ∧ sha 0 b = sliceAt r.payload 24 32 ∧ structCheck s.dev.supports.1 s.dev.supports.2 b.length b = .ok im ∧ validationFault im ((k.liveCols sp.visible).map (·.ty)) = none) ∧
    (∃ (s : State) (x : Nat) (r : MbReq) (sp : TSpace), s.dev.takes x 0x27 r ∧ s.dev.mbSpace x (fieldAt r.payload 0 4) = .ok sp ∧ s.dev.sends x ∧ bitOf (s.dev.mbox x).vector 31 = false ∧ 1 ≤ fieldAt r.payload 8 8 ∧ sp.floor ≤ fieldAt r.payload 8 8 ∧ fieldAt r.payload 8 8 ≤ sp.visible ∧ fieldAt r.payload 4 4 ≤ sp.visible + 1 - fieldAt r.payload 8 8) := by
  exact ⟨⟨st (onB 0 { on with store := { groups := [sg1], lastTs := 4294967294 }, sec := { keys := [k7] } }), 0, rq 16 [(4, 2, 1), (12, 4, 7)], k7, by unfold Dev.takes; decide +kernel⟩,
    ⟨st (onB 0 { on with store := { groups := [sg1], lastTs := 4294967294 } }), 0, rq 16 [(4, 2, 1), (12, 4, 7)], by unfold Dev.takes; decide +kernel⟩,
    ⟨st (onBS sp1), 0, rq 8 [(0, 4, 1), (4, 4, 3)], sp1, by and_intros <;> decide +kernel⟩,
    ⟨st (onBS sp1), 0, rq 8 [(0, 4, 1)], sp1, by and_intros <;> decide +kernel⟩,
    ⟨st (onBS sp1), 0, rq 8 [(0, 4, 1)], sp1, by and_intros <;> decide +kernel⟩,
    ⟨st (onB 0 (onH on)), 0, rq 8 [(0, 4, 1)], sp1, 0, by and_intros <;> decide +kernel⟩,
    ⟨st (onBS spE), 0, { rq 24 [(0, 4, 1), (4, 4, 10), (8, 2, 1)] with buf := some colB }, colB, spE, [{ id := 0, ty := { ty := .int32 } }], by and_intros <;> decide +kernel⟩,
    ⟨st (onBS sp1), 0, rq 8 [(0, 4, 1), (4, 4, 9)], sp1, by and_intros <;> decide +kernel⟩,
    ⟨st (onBS sp1), 0, rq 8 [(0, 4, 1), (4, 4, 10)], sp1, by and_intros <;> decide +kernel⟩,
    ⟨st (onBS { sp1 with tables := [tb2] }), 0, rq 40 [(0, 4, 1), (4, 4, 9), (8, 1, 2), (16, 2, 1)], { sp1 with tables := [tb2] }, tb2, by and_intros <;> first | decide +kernel | exact eq_ok (by decide +kernel) | (unfold Table.liveCols; rw [List.length_mergeSort]; decide +kernel)⟩,
    ⟨st (onBS sp1), 0, rq 40 [(0, 4, 1), (4, 4, 9), (8, 1, 1), (16, 2, 4094), (18, 1, 4), (19, 1, 1), (32, 1, 0xFF)], sp1, tb9, { id := 4094, ty := { ty := .int32, nullable := true } }, by and_intros <;> decide +kernel⟩,
    ⟨st (onBS sp1), 0, rq 40 [(0, 4, 1), (4, 4, 9), (8, 1, 3)], sp1, tb9, by and_intros <;> decide +kernel⟩,
    ⟨st (onBS sp1), 0, rq 56 [(0, 4, 1), (4, 4, 9)], sp1, tb9, by and_intros <;> decide +kernel⟩,
    ⟨st (onBS sp1), 0, rqV, img2, sp1, tb9, parseImage img2, by unfold Dev.takes; exact ⟨by decide +kernel, rfl, eq_ok (by decide +kernel), by decide +kernel, by decide +kernel, by decide +kernel, by decide +kernel, rqV_digest, img2_ok, by decide +kernel⟩⟩,
    ⟨st (onBS sp1), 0, rq 24 [(0, 4, 1), (4, 4, 1), (8, 8, 4), (16, 8, 4096)], sp1, by and_intros <;> decide +kernel⟩⟩

theorem witness_StoreCommands :
    (∃ (s : State) (x : Nat) (r : MbReq) (l : List Nat) (n : Nat), s.dev.takes x 0x30 r ∧ (r.payload.drop 2).map (·.toNat) = l ∧ s.dev.store.groups = [] ∧ s.dev.mbGeneration 0x30 = r.gen ∧ (∀ i ∈ l, (s.dev.drive i).link ∧ (s.dev.drive i).state = 4 ∧ (s.dev.drive i).blocks = n) ∧ 16384 + stripBlocks (fieldAt r.payload 0 1) ≤ n ∧ n < 2 ^ 64) ∧
    (∃ (s : State) (x : Nat) (r : MbReq) (i : Nat), s.dev.takes x 0x31 r ∧ fieldAt r.payload 0 1 = i ∧ (s.dev.drive i).link ∧ (s.dev.drive i).state = 4) ∧
    (∃ (s : State) (x : Nat) (r : MbReq) (g : SGroup), s.dev.takes x 0x32 r ∧ s.dev.store.groups.find? (fun q => q.id == fieldAt r.payload 0 2) = some g ∧ g.failed.contains (fieldAt r.payload 2 1) ∧ s.dev.store.rebuilds = [] ∧ s.dev.runningOps = [] ∧ (s.dev.drive (fieldAt r.payload 3 1)).state = 3 ∧ g.need ≤ (s.dev.drive (fieldAt r.payload 3 1)).blocks) ∧
    (∃ (s : State) (x : Nat) (r : MbReq) (sp : TSpace), s.dev.takes x 0x33 r ∧ s.dev.space (fieldAt r.payload 0 4) = some sp ∧ sp.deleting = false ∧ s.dev.spaceDown sp = false ∧ sp.replay = false ∧ s.dev.locked sp = false ∧ fieldAt r.payload 4 4 = 0 ∧ fieldAt r.payload 10 1 = 0xFF ∧ s.dev.runningOps = []) ∧
    (∃ (s : State) (x : Nat) (r : MbReq), s.dev.takes x 0x34 r ∧ fieldAt r.payload 0 1 = 1 ∧ (s.dev.memUnit (fieldAt r.payload 2 2)).state = 2 ∧ s.dev.runningOps = []) ∧
    (∃ (s : State) (x : Nat) (r : MbReq) (u : Nat), s.dev.takes x 0x35 r ∧ u = 4 + fieldAt r.payload 0 1 ∧ (s.dev.memUnit u).state = 2 ∧ (s.dev.memUnit u).leaving = false ∧ s.dev.backed u = [] ∧ s.dev.runningOps = []) ∧
    (∃ (s : State) (x : Nat) (r : MbReq) (u : Nat), s.dev.takes x 0x36 r ∧ u = 4 + fieldAt r.payload 0 1 ∧ (s.dev.memUnit u).state = 3 ∧ u ∉ s.dev.health.unitsFenced ∧ s.dev.runningOps = []) ∧
    (∃ (s : State) (x : Nat) (r : MbReq), s.dev.takes x 0x34 r ∧ fieldAt r.payload 0 1 = 1 ∧ (s.dev.memUnit (fieldAt r.payload 2 2)).state = 2 ∧ 8 ≤ s.dev.runningOps.length) ∧
    (∃ (s : State) (h : Nat) (f : StepIn) (o : LongOp), s.dev.longOp h = some o ∧ o.handle = h ∧ o.state = 1 ∧ o.op = 0x36 ∧ o.cancel = [] ∧ s.dev.mail.activating = none ∧ s.dev.hostStopped = false ∧ s.dev.start.service ∧ s.dev.sec.halted = false ∧ f.ok ∧ o.arg 0 < 4) ∧
    (∃ (s : State) (h : Nat) (f : StepIn) (o : LongOp), s.dev.longOp h = some o ∧ o.handle = h ∧ o.state = 1 ∧ o.op = 0x36 ∧ o.cancel = [] ∧ s.dev.mail.activating = none ∧ s.dev.hostStopped = false ∧ s.dev.start.service ∧ s.dev.sec.halted = false ∧ f.ok = false) ∧
    (∃ (s : State) (h : Nat) (o : LongOp), s.dev.longOp h = some o ∧ o.handle = h ∧ o.state = 1 ∧ o.op = 0x36 ∧ o.cancel ≠ [] ∧ s.dev.mail.activating = none ∧ s.dev.hostStopped = false ∧ s.dev.start.service ∧ s.dev.sec.halted = false ∧ s.dev.store.spaces = [] ∧ s.dev.twin.xfer = none) := by
  exact ⟨⟨st (onG (fr5 4 (16384 + stripBlocks 0)) []), 0, rq 7 [(1, 1, 5), (2, 5, 0x1817161514)], [20, 21, 22, 23, 24], 16384 + stripBlocks 0, by unfold Dev.takes; decide +kernel⟩,
    ⟨st (onG [(71, { dr1 with state := 4 })] []), 0, rq 1 [(0, 1, 71)], 71, by unfold Dev.takes; decide +kernel⟩,
    ⟨st (onG [(71, { dr1 with state := 3, blocks := 10000000 })] [{ sg1 with failed := [0] }]), 0, rq 8 [(0, 2, 1), (3, 1, 71)], { sg1 with failed := [0] }, by unfold Dev.takes; decide +kernel⟩,
    ⟨st (onBS sp1), 0, rq 36 [(0, 4, 1), (8, 2, 0xFFFF), (10, 1, 0xFF)], sp1, by unfold Dev.takes; decide +kernel⟩,
    ⟨st (onU 7 { state := 2, gb := 1 }), 0, rq 8 [(0, 1, 1), (2, 2, 7)], by unfold Dev.takes; decide +kernel⟩,
    ⟨st (onU 7 { state := 2, gb := 1 }), 0, rq 8 [(0, 1, 3)], 7, by unfold Dev.takes; decide +kernel⟩,
    ⟨st (onU 7 { state := 3 }), 0, rq 8 [(0, 1, 3)], 7, by unfold Dev.takes; decide +kernel⟩,
    ⟨st { onU 7 { state := 2, gb := 1 } with mail := { (onB 0 on).mail with ops := List.replicate 8 op1 } }, 0, rq 8 [(0, 1, 1), (2, 2, 7)], by unfold Dev.takes; decide +kernel⟩,
    ⟨st (onOp op36), 1, { gb := 256, rk := 1 }, op36, by decide +kernel⟩,
    ⟨st (onOp op36), 1, { ok := false }, op36, by decide +kernel⟩,
    ⟨st (onOp { op36 with cancel := [0] }), 1, { op36 with cancel := [0] }, by decide +kernel⟩⟩

theorem witness_ClaimsAndFirmware :
    (∃ (s : State) (x : Nat) (r : MbReq), s.dev.takes x 0x40 r ∧ fieldAt r.payload 0 1 ∈ [1, 4] ∧ s.dev.claimOf (fieldAt r.payload 0 1) (fieldAt r.payload 1 1) = none) ∧
    (∃ (s : State) (x : Nat) (r : MbReq) (c : Claim), s.dev.takes x 0x40 r ∧ fieldAt r.payload 0 1 ≠ 2 ∧ s.dev.claimOf (fieldAt r.payload 0 1) (fieldAt r.payload 1 1) = some c ∧ (s.dev.hearth (fieldAt r.payload 1 1)).quenched = false) ∧
    (∃ (s : State) (x : Nat) (r : MbReq) (c : Claim), s.dev.takes x 0x41 r ∧ s.dev.claimNum (fieldAt r.payload 0 2) = some c ∧ c.x = x ∧ c.holder = 1 ∧ c.cls = 4) ∧
    (∃ (s : State) (x : Nat) (r : MbReq) (c : Claim), s.dev.takes x 0x41 r ∧ s.dev.claimNum (fieldAt r.payload 0 2) = some c ∧ c.x ≠ x) ∧
    (∃ (s : State) (x : Nat) (r : MbReq) (c : Claim), s.dev.takes x 0x42 r ∧ s.dev.mail.claims = [c] ∧ fieldAt r.payload 0 2 < c.num) ∧
    (∃ (s : State) (x : Nat) (r : MbReq) (b : Bytes), s.dev.takes x 0x50 r ∧ r.buf = some b ∧ fieldAt r.payload 16 4 ≤ b.length ∧ fieldAt r.payload 0 1 ≠ s.dev.mail.running ∧ s.dev.runningOps = []) ∧
    (∃ (s : State) (x : Nat) (r : MbReq), s.dev.takes x 0x50 r ∧ fieldAt r.payload 0 1 = s.dev.mail.running) ∧
    (∃ (s : State) (h : Nat) (o : LongOp), s.dev.longOp h = some o ∧ o.handle = h ∧ o.state = 1 ∧ o.op = 0x50 ∧ o.cancel = [] ∧ s.dev.mail.activating = none ∧ s.dev.hostStopped = false ∧ s.dev.start.service ∧ s.dev.sec.halted = false ∧ o.done = 0) ∧
    (∃ (s : State) (h : Nat) (o : LongOp), s.dev.longOp h = some o ∧ o.handle = h ∧ o.state = 1 ∧ o.op = 0x50 ∧ o.cancel = [] ∧ s.dev.mail.activating = none ∧ s.dev.hostStopped = false ∧ s.dev.start.service ∧ s.dev.sec.halted = false ∧ o.done = 2) ∧
    (∃ (s : State) (x : Nat) (r : MbReq), s.dev.takes x 0x51 r ∧ s.dev.slotState (fieldAt r.payload 0 1) = 2 ∧ s.dev.sec.svnMin ≤ (s.dev.slotFw (fieldAt r.payload 0 1)).svn ∧ s.dev.sharesTp (fieldAt r.payload 0 1) ∧ s.dev.runningOps = []) ∧
    (∃ (s : State) (a : FwActive), s.dev.mail.activating = some a ∧ a.step < 4 ∧ (∀ x, (s.dev.mbox x).held = none)) ∧
    (∃ (s : State) (x : Nat) (r : MbReq), s.dev.takes x 0x52 r ∧ s.dev.slotState (fieldAt r.payload 0 1) = 2 ∧ s.dev.mbGeneration 0x52 = r.gen) ∧
    (∃ (s : State) (x : Nat) (r : MbReq), s.dev.takes x 0x52 r ∧ s.dev.slotState (fieldAt r.payload 0 1) ≠ 2) := by
  exact ⟨⟨st (onB 0 on), 0, rq 16 [(0, 1, 4), (1, 1, 63)], by unfold Dev.takes; decide +kernel⟩,
    ⟨st (onCl 0 cl4), 0, rq 16 [(0, 1, 4), (1, 1, 63)], cl4, by unfold Dev.takes; decide +kernel⟩,
    ⟨st (onCl 0 cl4), 0, rq 8 [(0, 2, 1)], cl4, by unfold Dev.takes; decide +kernel⟩,
    ⟨st (onCl 513 cl4), 513, rq 8 [(0, 2, 1)], cl4, by unfold Dev.takes; decide +kernel⟩,
    ⟨st (onCl 0 cl4), 0, rq 8 [], cl4, by unfold Dev.takes; decide +kernel⟩,
    ⟨st (onB 0 on), 0, { rq 20 [(0, 1, 1), (16, 4, 4)] with buf := some [1, 2, 3, 4] }, [1, 2, 3, 4], by unfold Dev.takes; decide +kernel⟩,
    ⟨st (onB 0 on), 0, { rq 20 [(16, 4, 4)] with buf := some [1, 2, 3, 4] }, by unfold Dev.takes; decide +kernel⟩,
    ⟨st (onOp (op50 0)), 1, op50 0, by decide +kernel⟩,
    ⟨st (onOp (op50 2)), 1, op50 2, by decide +kernel⟩,
    ⟨st (onFw none 2), 0, rq 1 [], by unfold Dev.takes; decide +kernel⟩,
    ⟨st { onFw (some { slot := 1, prev := 0, step := 3, handle := 1 }) 2 with mail := { activating := some { slot := 1, prev := 0, step := 3, handle := 1 } } }, { slot := 1, prev := 0, step := 3, handle := 1 }, by exact ⟨rfl, by decide, fun _ => rfl⟩⟩,
    ⟨st (onFw none 2), 0, rq 1 [], by unfold Dev.takes; decide +kernel⟩,
    ⟨st (onFw none 2), 0, rq 1 [(0, 1, 1)], by unfold Dev.takes; decide +kernel⟩⟩

theorem witness_CommitProtocol :
    (∃ (s : State) (ts e : Nat) (sp : TSpace) (c : Commit) (g : SGroup), s.dev.twin.alone ∧ s.dev.store.spaces = [sp] ∧ sp.id = ts ∧ s.dev.store.commits = [c] ∧ c.ts = ts ∧ c.epoch = e ∧ c.st = .writing ∧ c.waits = [] ∧ c.kind = 3 ∧ s.dev.store.groups = [g] ∧ g.id = sp.home ∧ g.failed.length ≤ schemeM g.scheme ∧ s.dev.locked sp = false ∧ s.dev.ringFits sp.home c.blocks ∧ s.dev.twin.xfer = none) ∧
    (∃ (s : State) (ts e : Nat) (sp : TSpace) (c : Commit), s.dev.twin.alone = false ∧ s.dev.store.spaces = [sp] ∧ sp.id = ts ∧ sp.owner = s.dev.twin.pos ∧ s.dev.store.commits = [c] ∧ c.ts = ts ∧ c.epoch = e ∧ c.st = .writing ∧ c.waits = [] ∧ c.kind = 3 ∧ s.dev.locked sp = false ∧ s.dev.twin.xfer = none) ∧
    (∃ (s : State) (ts e : Nat) (sp : TSpace) (c : Commit) (x n : Nat), s.dev.twin.alone ∧ s.dev.store.spaces = [sp] ∧ sp.id = ts ∧ s.dev.store.commits = [c] ∧ c.ts = ts ∧ c.epoch = e ∧ c.st = .recording ∧ c.waits = [] ∧ c.use = .catalog x ∧ c.change = none ∧ (s.dev.mbox x).busy = some n ∧ sp.open_ = [e] ∧ sp.lastEpoch = e ∧ sp.visible < e ∧ s.dev.twin.xfer = none) ∧
    (∃ (s : State) (ts e e0 : Nat) (sp : TSpace) (c : Commit), s.dev.twin.alone ∧ s.dev.store.spaces = [sp] ∧ sp.id = ts ∧ s.dev.store.commits = [c] ∧ c.ts = ts ∧ c.epoch = e ∧ c.st = .recording ∧ c.waits = [] ∧ sp.open_ = [e0, e] ∧ e0 < e ∧ sp.lastEpoch = e ∧ sp.visible + 1 = e0 ∧ c.change = none ∧ s.dev.twin.xfer = none) ∧
    (∃ (s : State) (g : Nat) (j : Journal), s.dev.journal g = some j ∧ 3072 ≤ j.usedBlocks ∧ s.dev.store.commits = [] ∧ (∀ sp ∈ s.dev.store.spaces, sp.home ≠ g)) ∧
    (∃ (s : State) (g : Nat) (j : Journal) (sp : TSpace) (x : Extent) (q : SGroup) (r : Nat), s.dev.journal g = some j ∧ 3072 ≤ j.usedBlocks ∧ s.dev.store.commits = [] ∧ s.dev.store.spaces = [sp] ∧ sp.home = g ∧ s.dev.owns sp.id ∧ sp.extents = [x] ∧ sp.dirs = [] ∧ s.dev.store.groups = [q] ∧ q.id = g ∧ q.failed = [] ∧ q.freeRow = some r) ∧
    (∃ (s : State) (t g : Nat) (j : Journal), s.dev.journal g = some j ∧ j.usedBlocks < 3072 ∧ max s.dev.timeUs t < j.last + 60000000 ∧ s.dev.store.commits = []) ∧
    (∃ (s : State) (ts : Nat) (sp : TSpace), s.dev.space ts = some sp ∧ (s.dev.twin.alone ∨ sp.owner = s.dev.twin.pos)) := by
  exact ⟨⟨st (onCt (sp5 [5]) [cw5]), 1, 5, sp5 [5], cw5, sg1, by decide +kernel⟩,
    ⟨st { onCt (sp5 [5]) [cw5] with twin := { state := 3 } }, 1, 5, sp5 [5], cw5, by decide +kernel⟩,
    ⟨st { onCt (sp5 [5]) [{ cw5 with st := .recording }] with mail := { boxes := [(0, { ready := true, session := some 4, busy := some 9 })] } }, 1, 5, sp5 [5], { cw5 with st := .recording }, 0, 9, by decide +kernel⟩,
    ⟨st (onCt (sp5 [5, 6]) [{ cw5 with epoch := 6, st := .recording }]), 1, 6, 5, sp5 [5, 6], { cw5 with epoch := 6, st := .recording }, by decide +kernel⟩,
    ⟨st { on with store := { groups := [sg1], journals := [jr 3072] } }, 1, jr 3072, by decide +kernel⟩,
    ⟨st { on with store := { groups := [sg1], journals := [jr 3072], spaces := [{ sp5 [] with home := 1, extents := [ex3] }] } }, 1, jr 3072, { sp5 [] with home := 1, extents := [ex3] }, ex3, sg1, 0, by decide +kernel⟩,
    ⟨st { on with store := { groups := [sg1], journals := [jr 3071] } }, 59999999, 1, jr 3071, by decide +kernel⟩,
    ⟨st (onCt (sp5 []) []), 1, sp5 [], by exact ⟨by decide +kernel, Or.inl (by decide +kernel)⟩⟩⟩

/-- A read that waits on delay list 0. -/
def dcP : DCmd := { dcC false (.charge 1 0 0) with waiting := true }

theorem witness_DriveCommands :
    (∃ (s : State) (n : Nat) (c : DCmd) (ts e : Nat), s.dev.dcmd n = some c ∧ c.write ∧ c.use = .commitData ts e) ∧
    (∃ (s : State) (n : Nat) (c : DCmd) (q i k : Nat) (got : List (Nat × Bytes)), s.dev.dcmd n = some c ∧ c.write = false ∧ c.use = .charge q i k ∧ c.retry < 3 ∧ s.dev.readGood c got ∧ (∀ h, s.dev.charge ⟨q, i, k, .flow⟩ = some h → h.todo = some [])) ∧
    (∃ (s : State) (n : Nat) (c : DCmd) (q i k : Nat) (got : List (Nat × Bytes)), s.dev.dcmd n = some c ∧ c.write = false ∧ c.use = .charge q i k ∧ c.retry = 0 ∧ s.dev.readGood c got = false ∧ (s.dev.drive c.drive).waking = false) ∧
    (∃ (s : State) (n : Nat) (c : DCmd) (q i k : Nat), s.dev.dcmd n = some c ∧ c.write = false ∧ c.use = .charge q i k ∧ c.retry = 0 ∧ (s.dev.drive c.drive).waking = false) ∧
    (∃ (s : State) (n : Nat) (c : DCmd) (q i k : Nat), s.dev.dcmd n = some c ∧ c.write = false ∧ c.use = .charge q i k ∧ c.retry = 1 ∧ s.dev.delayCount 0 < 4096) ∧
    (∃ (s : State) (n : Nat) (c : DCmd), s.dev.dcmd n = some c ∧ c.waiting ∧ (s.dev.drive c.drive).waking = false) ∧
    (∃ (s : State) (n : Nat) (c : DCmd), s.dev.dcmd n = some c ∧ c.waiting ∧ (s.dev.drive c.drive).waking ∧ c.use ≠ .power) ∧
    (∃ (s : State) (n : Nat) (c : DCmd), s.dev.dcmd n = some c ∧ c.use = .power ∧ (∀ k ∈ s.dev.store.dcmds, k.held = false)) ∧
    (∃ (s : State) (t n : Nat) (c : DCmd) (q i k : Nat), s.dev.dcmd n = some c ∧ c.write = false ∧ c.use = .charge q i k ∧ c.waiting = false ∧ c.held = false ∧ c.retry = 0 ∧ c.issued + 1000 * s.dev.regField 0x02900000 15 0 ≤ max s.dev.timeUs t ∧ (s.dev.drive c.drive).expiries = [] ∧ c.drive < 72 ∧ (∀ k ∈ s.dev.store.dcmds, k.id < s.dev.store.nextCmd)) ∧
    (∃ (s : State) (n : Nat) (c : DCmd), s.dev.dcmd n = some c ∧ c.use = .gone ∧ c.abort = 1) ∧
    (∃ (s : State) (i g p : Nat) (q : SGroup), (s.dev.drive i).resetting ∧ s.dev.memberAt i = some (g, p) ∧ s.dev.store.groups.find? (fun k => k.id == g) = some q ∧ s.dev.health.recovering = [] ∧ s.dev.store.dcmds = [] ∧ s.dev.store.commits = [] ∧ s.dev.store.spaces = [] ∧ s.dev.twin.xfer = none ∧ (∀ k ∈ s.dev.store.drives, k.2.state ≠ 3)) := by
  exact ⟨⟨st (onDc (dcC true (.commitData 1 5))), 9, dcC true (.commitData 1 5), 1, 5, by decide +kernel⟩,
    ⟨st (onDc (dcC false (.charge 1 0 0))), 9, dcC false (.charge 1 0 0), 1, 0, 0, [], by decide +kernel, rfl, rfl, by decide, by decide +kernel, fun _ h => nomatch h⟩,
    ⟨st { onDc hd1 with store := { (onDc hd1).store with spaces := [{ sp5 [] with extents := [ex3] }] } }, 9, hd1, 1, 0, 0, [(0, [])], by decide +kernel⟩,
    ⟨st (onDc (dcC false (.charge 1 0 0))), 9, dcC false (.charge 1 0 0), 1, 0, 0, by decide +kernel⟩,
    ⟨st (onDc { dcC false (.charge 1 0 0) with retry := 1 }), 9, { dcC false (.charge 1 0 0) with retry := 1 }, 1, 0, 0, by decide +kernel⟩,
    ⟨st (onDc { dcC false (.charge 1 0 0) with waiting := true }), 9, { dcC false (.charge 1 0 0) with waiting := true }, by decide +kernel⟩,
    ⟨st { on with store := { dcmds := [{ dcC false (.charge 1 0 0) with waiting := true }], drives := [(dcP.drive, { waking := true })] } }, 9, dcP, by decide +kernel⟩,
    ⟨st (onDc (dcC false .power)), 9, dcC false .power, by decide +kernel⟩,
    ⟨st (onDc (dcC false (.charge 1 0 0))), 500000, 9, dcC false (.charge 1 0 0), 1, 0, 0, by decide +kernel⟩,
    ⟨st (onDc { dcC false .gone with abort := 1 }), 9, { dcC false .gone with abort := 1 }, by decide +kernel⟩,
    ⟨st { on with store := { groups := [sg1], drives := [(20, { dr1 with resetting := true })] } }, 20, 1, 0, sg1, by decide +kernel⟩⟩

theorem witness_DrivesAndRebuilds :
    (∃ (s : State) (i : Nat), i < 72 ∧ (s.dev.drive i).present = false) ∧
    (∃ (s : State) (i : Nat), (s.dev.drive i).power) ∧
    (∃ (s : State) (i : Nat), (s.dev.drive i).refclk) ∧
    (∃ (s : State) (i : Nat) (f : DriveIn), (s.dev.drive i).present ∧ (s.dev.drive i).perst = false ∧ (s.dev.drive i).link = false ∧ s.dev.store.spaces = [] ∧ f.why = 0 ∧ f.label = none) ∧
    (∃ (s : State) (i : Nat) (f : DriveIn), (s.dev.drive i).present ∧ (s.dev.drive i).perst = false ∧ (s.dev.drive i).link = false ∧ s.dev.store.spaces = [] ∧ f.why ≠ 0) ∧
    (∃ (s : State) (i : Nat) (f : DriveIn) (l : Label), (s.dev.drive i).present ∧ (s.dev.drive i).perst = false ∧ (s.dev.drive i).link = false ∧ s.dev.store.spaces = [] ∧ f.why = 0 ∧ f.label = some l ∧ l.pair = s.dev.twin.pairId ∧ l.nguid = f.nguid ∧ l.role = 1) ∧
    (∃ (s : State) (i : Nat), (s.dev.drive i).present ∧ s.dev.memberAt i = none ∧ s.dev.store.rebuilds = []) ∧
    (∃ (s : State) (g pos : Nat) (r : Rebuild) (q : SGroup), s.dev.rebuildOf g pos = some r ∧ s.dev.store.groups.find? (fun k => k.id == g) = some q ∧ r.paused = false ∧ r.op = none ∧ s.dev.store.dcmds = [] ∧ q.rebuildRows r.done = [] ∧ pos < q.members.length) ∧
    (∃ (s : State) (g pos : Nat) (r : Rebuild) (q : SGroup), s.dev.rebuildOf g pos = some r ∧ s.dev.store.groups.find? (fun k => k.id == g) = some q ∧ r.paused = false ∧ r.op = none ∧ s.dev.store.dcmds = [] ∧ q.rebuildRows r.done ≠ [] ∧ (∀ k ∈ (q.rebuildRows r.done).take 16, s.dev.beyond g k = false)) := by
  exact ⟨⟨st on, 71, by decide +kernel⟩,
    ⟨st (onDr drU), 71, by decide +kernel⟩,
    ⟨st (onDr drU), 71, by decide +kernel⟩,
    ⟨st (onDr drU), 71, { i := 71 }, by decide +kernel⟩,
    ⟨st (onDr drU), 71, { i := 71, why := 1 }, by decide +kernel⟩,
    ⟨st (onDr drU), 71, { i := 71, nguid := 3, label := some { role := 1, nguid := 3 } }, { role := 1, nguid := 3 }, by decide +kernel⟩,
    ⟨st (onDr dr1), 71, by decide +kernel⟩,
    ⟨st (onRb 0), 1, 4, rb1, { sg1 with used := List.range 0 }, by exact ⟨by decide +kernel, by decide +kernel, rfl, rfl, rfl, by rw [← List.length_eq_zero_iff, SGroup.rebuildRows, List.length_mergeSort]; decide +kernel, by decide⟩⟩,
    ⟨st (onRb 17), 1, 4, rb1, { sg1 with used := List.range 17 }, by exact ⟨by decide +kernel, by decide +kernel, rfl, rfl, rfl, by rw [ne_eq, ← List.length_eq_zero_iff, SGroup.rebuildRows, List.length_mergeSort]; decide +kernel, fun _ _ => rfl⟩⟩⟩

theorem witness_TwinLink :
    (∃ (s : State) (seq : Nat) (h : THello), s.dev.nextFrame seq ∧ s.dev.sec.lifecycle = 3 ∧ s.dev.twin.pairId = 0 ∧ h.pairId = 0 ∧ h.pairEnable ∧ s.dev.regField 0x02B00000 0 0 = 1 ∧ h.hbm = Config.hbmGb ∧ max s.dev.mail.firmware.tp.1 h.tpMajorMin ≤ min s.dev.mail.firmware.tp.2.1 h.tpMajorMax) ∧
    (∃ (s : State) (seq : Nat), s.dev.nextFrame seq ∧ s.dev.sec.lifecycle ≠ 3 ∧ s.dev.twin.state = 1) ∧
    (∃ (s : State) (seq : Nat), s.dev.nextFrame seq) ∧
    (∃ (s : State) (seq : Nat), (s.dev.twin.up0 || s.dev.twin.up1) ∧ seq ≠ s.dev.twin.rxNext) ∧
    (∃ (s : State), (s.dev.twin.up0 || s.dev.twin.up1) ∧ (∀ f ∈ s.dev.twin.unacked, f.act = .none) ∧ s.dev.twin.xfer = none) ∧
    (∃ (s : State) (ack : Nat) (f : TTx) (x q cid : Nat) (c : Compl), (s.dev.twin.up0 || s.dev.twin.up1) ∧ s.dev.twin.unacked = [f] ∧ f.seq < ack ∧ f.act = .compl x q cid ∧ (s.dev.qp x q).ready = [c] ∧ c.cid = cid ∧ c.acked = false ∧ s.dev.twin.xfer = none) ∧
    (∃ (s : State) (t seq : Nat) (f : TTx), s.dev.twin.unacked.find? (fun f => f.seq == seq) = some f ∧ (s.dev.twin.up0 || s.dev.twin.up1) ∧ f.sent + 50 ≤ max s.dev.timeUs t ∧ s.dev.delayCount 4 < 4096) ∧
    (∃ (s : State), s.dev.twin.up0 ∧ s.dev.twin.up1 = false ∧ s.dev.delayCount 4 < 4096) ∧
    (∃ (s : State) (t : Nat), s.dev.twin.lastRx + 20000 ≤ max s.dev.timeUs t ∧ max s.dev.timeUs t - s.dev.twin.lastRx < 2 ^ 32) ∧
    (∃ (s : State) (t : Nat), max s.dev.timeUs t < s.dev.twin.lastRx + 20000) ∧
    (∃ (s : State) (f : TTx), s.dev.twin.up0 ∧ s.dev.twin.up1 ∧ s.dev.twin.unacked = [f] ∧ f.lane = 0 ∧ s.dev.delayCount 4 < 4096) ∧
    (∃ (s : State), s.dev.twin.up0 = false ∧ s.dev.twin.up1 = false ∧ s.dev.twin.state = 0) ∧
    (∃ (s : State), s.dev.start.service ∧ s.dev.hostStopped = false ∧ s.dev.twin.up0 = false ∧ s.dev.twin.up1 = false ∧ s.dev.regN 0x02B00000 < 4) ∧
    (∃ (s : State), s.dev.start.service ∧ s.dev.hostStopped = false ∧ s.dev.twin.up0 = false ∧ s.dev.twin.up1 = false ∧ s.dev.regN 0x02B00000 < 4) := by
  exact ⟨⟨st { on with twin := { up1 := true, rxNext := 7, state := 1 }, regs := [(0x02B00000, 1)] }, 7, { tpMajorMin := 1, tpMajorMax := 2, hbm := Config.hbmGb, pairEnable := true },
    by unfold Dev.nextFrame; decide +kernel, by decide +kernel, by decide +kernel, rfl, rfl, by decide +kernel, rfl, by decide +kernel⟩,
    ⟨st { on with twin := { up0 := true, rxNext := 7, state := 1 }, sec := { lifecycle := 2 } }, 7, by unfold Dev.nextFrame; decide +kernel⟩,
    ⟨st (onT tw0), 7, by unfold Dev.nextFrame; decide +kernel⟩,
    ⟨st (onT tw0), 6, by decide +kernel⟩,
    ⟨st (onT { tw0 with unacked := [txF .none] }), by decide +kernel⟩,
    ⟨st { onQ 0 1 { state := .active, ready := [{ cid := 5, acked := false }] } with twin := { tw0 with unacked := [txF (.compl 0 1 5)] } }, 7, txF (.compl 0 1 5), 0, 1, 5, { cid := 5, acked := false }, by decide +kernel⟩,
    ⟨st (onT { tw0 with unacked := [txF .none] }), 50, 6, txF .none, by decide +kernel⟩,
    ⟨st (onT tw0), by decide +kernel⟩,
    ⟨st (onT tw0), 20000, by decide +kernel⟩,
    ⟨st (onT tw0), 19999, by decide +kernel⟩,
    ⟨st (onT { tw0 with up1 := true, unacked := [txF .none] }), txF .none, by decide +kernel⟩,
    ⟨st (onT {}), by decide +kernel⟩,
    ⟨st { on with regs := [(0x02B00000, 3)] }, by decide +kernel⟩,
    ⟨st { on with regs := [(0x02B00000, 3)] }, by decide +kernel⟩⟩

theorem witness_TwinFrames :
    (∃ (s : State) (seq : Nat) (r : AllocReq) (sp : TSpace) (gs : List SGroup) (placed : List Extent), s.dev.nextFrame seq ∧ s.dev.twin.state = 3 ∧ r.form = 0 ∧ s.dev.space r.ts = some sp ∧ s.dev.allocates sp ∧ s.dev.locked sp = false ∧ sp.lastEpoch < maxEpoch ∧ sp.lastEpoch < sp.reserved ∧ r.extents ≤ 4096 ∧ placeExtents s.dev.store.groups sp.scheme ((List.range r.extents).map (fun i => { num := sp.nextExtent + i, table := r.table, col := 0, firstRow := 0, rows := 0, create := sp.lastEpoch + 1 })) = some (gs, placed)) ∧
    (∃ (s : State) (seq : Nat) (r : AllocReq), s.dev.nextFrame seq ∧ s.dev.twin.state = 3 ∧ r.form = 2) ∧
    (∃ (s : State) (seq : Nat) (g : AllocGrant) (c : Commit) (sp : TSpace) (x : Nat), s.dev.nextFrame seq ∧ s.dev.twin.state = 3 ∧ g.form = 0 ∧ s.dev.store.ingests = [] ∧ s.dev.qry.queries = [] ∧ s.dev.mail.asks = [c] ∧ c.use = .catalog x ∧ c.ts = g.ts ∧ g.fn = fnCode x ∧ g.q = 0xFFFF ∧ g.cid = 0 ∧ c.retired = [] ∧ s.dev.space g.ts = some sp ∧ g.epoch ≠ 0 ∧ s.dev.store.commits = []) ∧
    (∃ (s : State) (seq : Nat) (c k : Commit) (sp : TSpace), s.dev.nextFrame seq ∧ s.dev.twin.state = 3 ∧ s.dev.store.commits = [k] ∧ s.dev.store.spaces = [sp] ∧ sp.id = k.ts ∧ c.ts = k.ts ∧ c.epoch = k.epoch ∧ k.st = .asking ∧ k.kind = 3 ∧ s.dev.locked sp = false ∧ s.dev.twin.xfer = none) ∧
    (∃ (s : State) (seq : Nat) (c : Commit), s.dev.nextFrame seq ∧ s.dev.twin.state = 3 ∧ c.epoch ≠ 0 ∧ s.dev.commitOf c.ts c.epoch = none) ∧
    (∃ (s : State) (seq : Nat) (c k : Commit) (x : Nat), s.dev.nextFrame seq ∧ s.dev.twin.state = 3 ∧ c.epoch ≠ 0 ∧ s.dev.store.commits = [k] ∧ k.ts = c.ts ∧ k.epoch = c.epoch ∧ k.use = .catalog x) ∧
    (∃ (s : State) (seq : Nat) (m : CkptMsg) (c : PCmd), s.dev.nextFrame seq ∧ s.dev.twin.state = 3 ∧ m.gather = false ∧ s.dev.pcmd m.x m.q m.cid = some c ∧ c.resume = none) ∧
    (∃ (s : State) (seq : Nat), s.dev.nextFrame seq ∧ s.dev.twin.state = 3) ∧
    (∃ (s : State) (seq : Nat), s.dev.nextFrame seq ∧ s.dev.twin.state = 3 ∧ s.dev.store.commits = []) ∧
    (∃ (s : State) (seq : Nat) (p : Qp), s.dev.nextFrame seq ∧ s.dev.twin.state = 3 ∧ p.state = .active) ∧
    (∃ (s : State) (seq : Nat) (p : Qp), s.dev.nextFrame seq ∧ s.dev.twin.state = 3 ∧ p.state = .disabled) ∧
    (∃ (s : State) (seq : Nat) (h : Hold) (low : Nat), s.dev.nextFrame seq ∧ s.dev.twin.state = 3 ∧ (s.dev.space h.ts).isSome ∧ low < ones64) ∧
    (∃ (s : State) (seq : Nat) (h : Hold), s.dev.nextFrame seq ∧ s.dev.twin.state = 3 ∧ (s.dev.space h.ts).isSome) ∧
    (∃ (s : State) (seq : Nat), s.dev.nextFrame seq ∧ s.dev.twin.state = 3) ∧
    (∃ (s : State) (seq ts : Nat) (sp : TSpace), s.dev.nextFrame seq ∧ s.dev.twin.state = 3 ∧ s.dev.space ts = some sp ∧ s.dev.store.ingests = [] ∧ s.dev.qry.queries = [] ∧ s.dev.mail.asks = []) ∧
    (∃ (s : State) (seq : Nat) (r : TResync), s.dev.nextFrame seq ∧ s.dev.twin.state = 2 ∧ r.step = 4) ∧
    (∃ (s : State) (seq : Nat) (r : TResync), s.dev.nextFrame seq ∧ s.dev.twin.state = 2 ∧ r.step = 5) ∧
    (∃ (s : State) (ts : Nat) (sp : TSpace), s.dev.start.service ∧ s.dev.hostStopped = false ∧ s.dev.space ts = some sp ∧ ts < 2 ^ 32 ∧ s.dev.twin.state = 3 ∧ 2 ≤ s.dev.twin.tpMinor ∧ sp.owner = s.dev.twin.pos ∧ s.dev.twin.xfer = none ∧ s.dev.store.commits = []) := by
  exact ⟨⟨st (onTS tw0 sp1 []), 7, { ts := 1, table := 9, extents := 0 }, sp1, [sg1], [], by unfold Dev.nextFrame; decide +kernel⟩,
    ⟨st (onTS tw0 sp1 []), 7, { form := 2, ts := 1, spill := [(1, 0)] }, by unfold Dev.nextFrame; decide +kernel⟩,
    ⟨st { onTS tw0 { sp1 with owner := 1 } [] with mail := { asks := [{ cw5 with epoch := 0, st := .asking }] } }, 7, { ts := 1, q := 0xFFFF, epoch := 5 }, { cw5 with epoch := 0, st := .asking }, { sp1 with owner := 1 }, 0, by unfold Dev.nextFrame; decide +kernel⟩,
    ⟨st (onTS tw0 (sp5 [5]) [{ cw5 with st := .asking }]), 7, cw5, { cw5 with st := .asking }, sp5 [5], by unfold Dev.nextFrame; decide +kernel⟩,
    ⟨st (onTS tw0 sp1 []), 7, cw5, by unfold Dev.nextFrame; decide +kernel⟩,
    ⟨st (onTS tw0 { sp5 [5] with owner := 1 } [cw5]), 7, cw5, cw5, 0, by unfold Dev.nextFrame; decide +kernel⟩,
    ⟨st (onT { tw0 with cmds := [pc5] }), 7, ckm, pc5, by unfold Dev.nextFrame; decide +kernel⟩,
    ⟨st (onT tw0), 7, by unfold Dev.nextFrame; decide +kernel⟩,
    ⟨st (onT { tw0 with cmds := [pc5] }), 7, by unfold Dev.nextFrame; decide +kernel⟩,
    ⟨st (onT tw0), 7, { state := .active }, by unfold Dev.nextFrame; decide +kernel⟩,
    ⟨st (onT { tw0 with cmds := [pc5] }), 7, {}, by unfold Dev.nextFrame; decide +kernel⟩,
    ⟨st (onTS tw0 sp1 []), 7, ⟨3, 0, 1, 4⟩, 4, by unfold Dev.nextFrame; decide +kernel⟩,
    ⟨st (onTS tw0 sp1 []), 7, ⟨3, 0, 1, 4⟩, by unfold Dev.nextFrame; decide +kernel⟩,
    ⟨st (onT tw0), 7, by unfold Dev.nextFrame; decide +kernel⟩,
    ⟨st (onTS tw0 { sp1 with home := 1, owner := 1 } []), 7, 1, { sp1 with home := 1, owner := 1 }, by unfold Dev.nextFrame; decide +kernel⟩,
    ⟨st (onT { tw0 with state := 2 }), 7, { step := 4, cmds := [pc5] }, by unfold Dev.nextFrame; decide +kernel⟩,
    ⟨st (onT { tw0 with state := 2 }), 7, { step := 5 }, by unfold Dev.nextFrame; decide +kernel⟩,
    ⟨st (onTS { tw0 with tpMinor := 2 } sp1 []), 1, sp1, by decide +kernel⟩⟩

theorem witness_Failover :
    (∃ (s : State), s.dev.twin.pairId ≠ 0 ∧ s.dev.twin.stopped = false) ∧
    (∃ (s : State) (i : Nat) (b : Bytes), s.dev.twin.pairId ≠ 0 ∧ s.dev.twin.stopped = false ∧ i ∈ s.dev.witnessSet ∧ witnessOk b (1 - s.dev.twin.pos) s.dev.twin.pairId ∧ s.dev.twin.seen < fieldAt b 0x10 8) ∧
    (∃ (s : State) (i : Nat) (b : Bytes), s.dev.twin.pairId ≠ 0 ∧ s.dev.twin.stopped = false ∧ i ∈ s.dev.witnessSet ∧ witnessOk b (1 - s.dev.twin.pos) s.dev.twin.pairId ∧ fieldAt b 0x10 8 ≤ s.dev.twin.seen) ∧
    (∃ (s : State) (i : Nat) (b : Bytes), s.dev.twin.pairId ≠ 0 ∧ s.dev.twin.stopped = false ∧ i ∈ s.dev.witnessSet ∧ witnessOk b (1 - s.dev.twin.pos) s.dev.twin.pairId ∧ bitOf (fieldAt b 6 2) 3) ∧
    (∃ (s : State) (t : Nat), s.dev.twin.state = 3 ∧ s.dev.twin.lastRx + 20000 ≤ max s.dev.timeUs t ∧ s.dev.twin.advanced + 50000 ≤ max s.dev.timeUs t ∧ 2 ≤ (s.dev.twin.still.filter (fun i => s.dev.witnessSet.contains i)).length ∧ s.dev.twin.unacked = []) ∧
    (∃ (s : State) (t : Nat), s.dev.twin.state = 3 ∧ s.dev.twin.lastRx + 20000 ≤ max s.dev.timeUs t ∧ s.dev.twin.advanced + 50000 ≤ max s.dev.timeUs t ∧ 2 ≤ (s.dev.twin.still.filter (fun i => s.dev.witnessSet.contains i)).length) ∧
    (∃ (s : State) (t : Nat), s.dev.twin.state = 3 ∧ max s.dev.timeUs t < s.dev.twin.advanced + 50000) ∧
    (∃ (s : State) (t : Nat), s.dev.twin.state = 3 ∧ s.dev.twin.pos = 1 ∧ s.dev.twin.stopped = false ∧ s.dev.twin.lastRx + 20000 ≤ max s.dev.timeUs t ∧ max s.dev.timeUs t ≤ s.dev.twin.advanced + 20000) ∧
    (∃ (s : State), s.dev.twin.pairId ≠ 0 ∧ s.dev.twin.state ≠ 6) ∧
    (∃ (s : State) (sp : TSpace), s.dev.twin.state = 4 ∧ s.dev.twin.step = 1 ∧ s.dev.store.spaces = [sp] ∧ sp.owner ≠ s.dev.twin.pos ∧ s.dev.store.commits = [] ∧ s.dev.twin.records = [] ∧ s.dev.store.ingests = [] ∧ s.dev.qry.queries = [] ∧ s.dev.mail.asks = [] ∧ s.dev.twin.xfer = none) ∧
    (∃ (s : State) (x q sx base : Nat) (p : Qp), s.dev.twin.state = 4 ∧ s.dev.twin.step = 2 ∧ x < 1026 ∧ q < 8192 ∧ s.dev.twin.queues = [(qpKey x q, p)] ∧ p.state = .active ∧ s.dev.standby x = some (sx, base) ∧ (s.dev.qp sx (base + q)).state = .disabled ∧ base + q < 8192 ∧ s.dev.twin.cmds = [] ∧ s.dev.twin.dones = [] ∧ s.dev.twin.adopted = [] ∧ s.dev.twin.adoptedQ = []) ∧
    (∃ (s : State) (sx sq : Nat) (pc : PCmd) (c : Cmd), s.dev.twin.state = 4 ∧ s.dev.twin.step = 3 ∧ s.dev.twin.toResume = [(sx, sq, pc)] ∧ s.dev.mayStartCmd sx sq pc.cid 0x01 = some c ∧ s.dev.node = none) ∧
    (∃ (s : State), s.dev.twin.state = 4 ∧ s.dev.twin.step = 4 ∧ s.dev.twin.hello = false) := by
  exact ⟨⟨st (onT tw0), by decide +kernel⟩,
    ⟨st (onW tw0), 22, wb 3 0 2071706386, by exact ⟨by decide +kernel, rfl, by show 22 ∈ (onW tw0).witnessSet; rw [onW_set]; decide, wb0_ok, by decide +kernel⟩⟩,
    ⟨st (onW { tw0 with seen := 3 }), 22, wb 3 0 2071706386, by exact ⟨by decide +kernel, rfl, by show 22 ∈ (onW { tw0 with seen := 3 }).witnessSet; rw [onW_set]; decide, wb0_ok, by decide +kernel⟩⟩,
    ⟨st (onW tw0), 22, wb 3 8 3437391270, by exact ⟨by decide +kernel, rfl, by show 22 ∈ (onW tw0).witnessSet; rw [onW_set]; decide, wb8_ok, by decide +kernel⟩⟩,
    ⟨st (onW (twD 0)), 50000, by exact ⟨rfl, by decide +kernel, by decide +kernel, by show 2 ≤ ([20, 21].filter (fun i => (onW (twD 0)).witnessSet.contains i)).length; rw [onW_set]; decide, rfl⟩⟩,
    ⟨st (onW (twD 0)), 50000, by exact ⟨rfl, by decide +kernel, by decide +kernel, by show 2 ≤ ([20, 21].filter (fun i => (onW (twD 0)).witnessSet.contains i)).length; rw [onW_set]; decide⟩⟩,
    ⟨st (onW (twD 1)), 50000, by decide +kernel⟩,
    ⟨st (onT { twD 1 with pos := 1 }), 20001, by decide +kernel⟩,
    ⟨st (onT tw0), by decide +kernel⟩,
    ⟨st (onTS { tw0 with state := 4, step := 1 } { sp1 with owner := 1 } []), { sp1 with owner := 1 }, by decide +kernel⟩,
    ⟨st { onT { tw0 with state := 4, step := 2, queues := [(8191, { state := .active })], config := { adopt := [(0, 2 ^ 31 + 2 ^ 10)] } } with regs := [(0x02A00000, 0)] }, 0, 8191, 513, 0, { state := .active }, by decide +kernel⟩,
    ⟨st { onC 0 1 [cm 1 []] with twin := { tw0 with state := 4, step := 3, toResume := [(0, 1, pc5)] } }, 0, 1, { pc5 with entry := pc5.entry }, cm 1 [], by decide +kernel⟩,
    ⟨st (onT { tw0 with state := 4, step := 4, cmds := [pc5] }), by decide +kernel⟩⟩

theorem witness_PowerModes :
    (∃ (s : State) (t n : Nat) (c : Change) (u : Nat), s.dev.pwr.change = some c ∧ c.prepared ∧ n ∈ c.units ∧ n ∉ c.acked ∧ max s.dev.timeUs t ≤ c.sent + 2000 ∧ u ∈ c.units ∧ u ≠ n ∧ u ∉ c.acked ∧ 36 ≤ n ∧ s.dev.domTarget c.toMode c.toServe n = 2 ∧ s.dev.needsWait c n = false) ∧
    (∃ (s : State) (t n : Nat) (c : Change), s.dev.pwr.change = some c ∧ c.prepared ∧ c.units = [n] ∧ c.acked = [] ∧ max s.dev.timeUs t ≤ c.sent + 2000 ∧ 36 ≤ n ∧ c.by_ = none ∧ c.chosen = false) ∧
    (∃ (s : State) (t n : Nat) (c : Change) (x r : Nat), s.dev.pwr.change = some c ∧ c.prepared ∧ c.units = [n] ∧ c.acked = [] ∧ max s.dev.timeUs t ≤ c.sent + 2000 ∧ 36 ≤ n ∧ c.by_ = some x ∧ c.chosen = false ∧ (s.dev.mbox x).busy = some r) ∧
    (∃ (s : State) (t : Nat) (c : Change), s.dev.pwr.change = some c ∧ c.prepared ∧ c.sent + 2000 ≤ max s.dev.timeUs t ∧ c.acked = [] ∧ c.by_ = none) ∧
    (∃ (s : State) (c : Change), s.dev.pwr.change = some c ∧ c.wake = [] ∧ c.prepared = false ∧ c.units ≠ []) ∧
    (∃ (s : State) (c : Change) (g k : Nat) (rest : List Nat), s.dev.pwr.change = some c ∧ c.wake = g :: k :: rest) ∧
    (∃ (s : State), s.dev.fn.directed = false ∧ s.dev.pwr.change = none ∧ 4 ≤ s.dev.pwr.mode ∧ s.dev.pwr.mode ≤ 6 ∧ s.dev.anyCommand = false ∧ s.dev.workCharges = 0) ∧
    (∃ (s : State), s.dev.fn.directed) ∧
    (∃ (s : State) (k mode : Nat), s.dev.pwr.entry = some (mode, k) ∧ s.dev.start.ember = false) ∧
    (∃ (s : State) (w : WakeBy), s.dev.pwr.ember ∧ s.dev.pwr.entry = none ∧ s.dev.start.ember = false ∧ w.src < 5 ∧ bitOf (s.dev.regN 0x02C10004) w.src ∧ (w.src = 3 → s.dev.wakePins w.pins ≠ 0)) ∧
    (∃ (s : State), s.dev.pwr.ember ∧ s.dev.pwr.entry = none ∧ bitOf (s.dev.regN 0x02C10004) 4 ∧ s.dev.reg64 0x02C10010 ≠ 0 ∧ s.dev.reg64 0x02C10010 ≤ s.dev.opSec) ∧
    (∃ (s : State) (n : Nat), 3 ≤ s.dev.pwr.mode ∧ n < 72 ∧ s.dev.domFenced n = false ∧ s.dev.domTarget s.dev.pwr.mode s.dev.pwr.serve n ≠ 2) ∧
    (∃ (s : State) (t n : Nat), 36 ≤ n ∧ tabGet 0 s.dev.pwr.demand n ≠ 0 ∧ tabGet 0 s.dev.pwr.demand n + 1000 ≤ max s.dev.timeUs t + 1 ∧ s.dev.stillNeeded n = false) ∧
    (∃ (s : State) (n : Nat), s.dev.stillNeeded n) ∧
    (∃ (r : Nat), r < 16) ∧
    (∃ (s : State) (h : Nat), s.dev.pwr.mode = 6 ∧ 10 * s.dev.pwr.ceiling < s.dev.power1ms ∧ s.dev.runners.getLast? = some h ∧ 4 < s.dev.runners.length ∧ (s.dev.hearth h).slots = []) ∧
    (∃ (s : State), s.dev.pwr.mode = 6 ∧ 10 * s.dev.pwr.ceiling < s.dev.power1ms ∧ s.dev.runners.length ≤ 4) ∧
    (∃ (s : State) (h : Nat), s.dev.pwr.mode = 6 ∧ 100 * s.dev.power1ms < 95 * (10 * s.dev.pwr.ceiling) ∧ s.dev.parkedHearths.head? = some h) ∧
    (∃ (s : State) (tj : Int), s.dev.pwr.alert = false ∧ s.dev.pwr.clamp = false ∧ 10 * (s.dev.regField 0x02C00010 7 0 : Int) ≤ tj ∧ tj < 10 * (s.dev.regField 0x02C00010 15 8 : Int)) ∧
    (∃ (s : State) (tj : Int), 10 * (s.dev.regField 0x02C00010 15 8 : Int) ≤ tj) ∧
    (∃ (s : State) (t u : Nat), s.dev.pwr.clamp ∧ s.dev.pwr.coolSince = some u ∧ u + 100000 ≤ max s.dev.timeUs t) ∧
    (∃ (s : State) (t u : Nat), s.dev.pwr.clamp ∧ s.dev.pwr.coolSince = some u ∧ max s.dev.timeUs t < u + 100000) ∧
    (∃ (s : State), s.dev.pwr.sysGood ∧ s.dev.pwr.trip = false) := by
  exact ⟨⟨st (onP { p5 with change := some { ch0 with units := [36, 37] } }), 2000, 36, { ch0 with units := [36, 37] }, 37, by decide +kernel⟩,
    ⟨st (onP { p5 with change := some ch0 }), 2000, 36, ch0, by decide +kernel⟩,
    ⟨st { onP { p5 with change := some { ch0 with by_ := some 0 } } with mail := { boxes := [(0, { ready := true, session := some 4, busy := some 9 })] } }, 2000, 36, { ch0 with by_ := some 0 }, 0, 9, by decide +kernel⟩,
    ⟨st (onP { p5 with change := some ch0 }), 2000, ch0, by decide +kernel⟩,
    ⟨st (onP { p5 with change := some { ch0 with prepared := false } }), { ch0 with prepared := false }, by decide +kernel⟩,
    ⟨st (onP { p5 with change := some { ch0 with wake := [0, 1] } }), { ch0 with wake := [0, 1] }, 0, 1, [], by decide +kernel⟩,
    ⟨st { on with fn := { directed := false } }, by decide +kernel⟩,
    ⟨st { on with fn := { directed := true } }, by decide +kernel⟩,
    ⟨st (onP { p5 with entry := some (1, 0) }), 0, 1, by decide +kernel⟩,
    ⟨st { onCl 513 { num := 1, cls := 1, index := 15, x := 513, holder := 1 } with pwr := { p5 with ember := true, mode := 1 }, regs := [(0x0310003C, 2)] }, { src := 3, pins := 32768 }, by decide +kernel⟩,
    ⟨st { onP { p5 with ember := true, mode := 1 } with regs := [(0x02C10010, 5)], opSec := 5 }, by decide +kernel⟩,
    ⟨st (onP { p5 with mode := 3 }), 68, by decide +kernel⟩,
    ⟨st (onP { p5 with demand := [(36, 1)] }), 1000, 36, by decide +kernel⟩,
    ⟨st (onP { p5 with domains := [(36, 2), (64, 2)], demand := [(36, 1), (64, 1)] }), 36, by decide +kernel⟩,
    ⟨15, by decide +kernel⟩,
    ⟨st (onHs 5 hr), 4, by decide +kernel⟩,
    ⟨st (onHs 4 hr), by decide +kernel⟩,
    ⟨st { onHs 5 { hr with parked := true, powered := false } with pwr := { p5 with mode := 6, ceiling := 120, samples := [1100] } }, 0, by decide +kernel⟩,
    ⟨st on, 1000, by decide +kernel⟩,
    ⟨st on, 1050, by decide +kernel⟩,
    ⟨st (onP { p5 with clamp := true, coolSince := some 7 }), 100007, 7, by decide +kernel⟩,
    ⟨st (onP { p5 with clamp := true, coolSince := some 7 }), 100006, 7, by decide +kernel⟩,
    ⟨st on, by decide +kernel⟩⟩

theorem witness_StartAttempts :
    (∃ (s : State), s.dev.pwr.aonGood ∧ s.dev.start.ember = false ∧ s.dev.pwr.sysGood = false ∧ s.dev.start.open_ = false ∧ s.dev.pwr.trip = false ∧ s.dev.start.failures < 2) ∧
    (∃ (s : State), s.dev.pwr.aonGood ∧ s.dev.start.ember = false ∧ s.dev.pwr.sysGood = false ∧ s.dev.start.open_ ∧ s.dev.pwr.trip = false ∧ s.dev.start.failures = 0 ∧ s.dev.start.single = false ∧ s.dev.start.tripLatch = false) ∧
    (∃ (s : State), s.dev.pwr.aonGood ∧ s.dev.start.ember = false ∧ s.dev.pwr.sysGood = false ∧ s.dev.start.open_ = false ∧ s.dev.pwr.trip = false ∧ s.dev.start.failures = 2 ∧ s.dev.regField 0x02D00038 0 0 = 1 ∧ s.dev.mail.boot = 0 ∧ s.dev.slotState 1 = 2) ∧
    (∃ (s : State) (f : StageIn), s.dev.start.open_ ∧ s.dev.start.stage = 2 ∧ s.dev.slotState s.dev.start.slot = 2 ∧ s.dev.sec.svnMin ≤ (s.dev.slotFw s.dev.start.slot).svn ∧ f.cause = 0) ∧
    (∃ (s : State), s.dev.start.open_ ∧ s.dev.start.stage = 2 ∧ s.dev.slotState s.dev.start.slot ≠ 2 ∧ s.dev.start.single = false ∧ s.dev.start.failures < 2) ∧
    (∃ (s : State), s.dev.start.open_ ∧ s.dev.start.stage = 2 ∧ s.dev.slotState s.dev.start.slot ≠ 2 ∧ s.dev.start.failures = 2) ∧
    (∃ (s : State) (f : StageIn), s.dev.start.open_ ∧ s.dev.start.stage = 1 ∧ s.dev.start.bankNext ∧ s.dev.sec.lifecycle ≠ 0 ∧ s.dev.sec.lifecycle ≠ 5 ∧ f.cause = 0) ∧
    (∃ (s : State) (f : StageIn), s.dev.start.open_ ∧ s.dev.start.stage = 7 ∧ f.cause = 0 ∧ s.dev.store.spaces = [] ∧ (s.dev.mbox 0).held = none ∧ (s.dev.mbox 513).held = none) ∧
    (∃ (s : State) (t : Nat), s.dev.start.open_ ∧ s.dev.start.stage ≠ 0 ∧ s.dev.start.stage ≠ 6 ∧ s.dev.start.began + 20000000 ≤ max s.dev.timeUs t ∧ s.dev.start.single = false ∧ s.dev.start.failures < 2) ∧
    (∃ (s : State) (t : Nat), s.dev.start.open_ ∧ s.dev.start.stage = 6 ∧ s.dev.start.began + 20000000 ≤ max s.dev.timeUs t) ∧
    (∃ (s : State), s.dev.start.retry ∧ s.dev.pwr.sysGood) ∧
    (∃ (s : State) (slot : Nat) (image : List Byte), s.dev.hostStopped = false ∧ s.dev.start.service ∧ s.dev.start.banked = false ∧ slot ≤ 1 ∧ slot ≠ s.dev.mail.running ∧ image ≠ [] ∧ image.length ≤ 96 * 2 ^ 20 ∧ s.dev.runningOps = []) ∧
    (∃ (s : State) (slot : Nat), s.dev.hostStopped = false ∧ s.dev.start.service ∧ s.dev.start.banked = false ∧ slot ≤ 1 ∧ s.dev.slotState slot = 2 ∧ s.dev.sec.svnMin ≤ (s.dev.slotFw slot).svn ∧ s.dev.sharesTp slot ∧ s.dev.runningOps = []) ∧
    (∃ (s : State) (slot : Nat), s.dev.hostStopped = false ∧ s.dev.start.banked ∧ slot ≤ 1 ∧ s.dev.slotState slot = 2) ∧
    (∃ (s : State), s.dev.pwr.sysGood) ∧
    (∃ (s : State), s.dev.pwr.sysGood ∧ s.dev.pwr.stopped = none ∧ s.dev.start.open_ = false ∧ s.dev.start.service) ∧
    (∃ (s : State), s.dev.pwr.sysGood ∧ s.dev.pwr.stopped = none ∧ s.dev.start.open_ ∧ s.dev.start.single = false ∧ s.dev.start.failures < 2) ∧
    (∃ (s : State) (t rail : Nat), rail < 16 ∧ rail ∉ s.dev.pwr.rails ∧ (tabGet (0, 0) s.dev.pwr.railLast rail).2 + 1000 ≤ max s.dev.timeUs t + 1) ∧
    (∃ (s : State), 5 ∉ s.dev.pwr.clocks) ∧
    (∃ (s : State), 4 ∉ s.dev.pwr.clocks ∧ s.dev.pwr.sysGood ∧ s.dev.pwr.stopped = none) ∧
    (∃ (s : State), 0 ∉ s.dev.pwr.clocks ∧ (s.dev.link 0).perst = false ∧ s.dev.health.recovering = []) ∧
    (∃ (s : State) (c : Nat), s.dev.pwr.sysGood ∧ s.dev.pwr.stopped = none ∧ s.dev.start.open_ = false ∧ 1 ≤ c ∧ c ≤ 4) ∧
    (∃ (s : State) (port : Nat), s.dev.pwr.sysGood ∧ port < 2 ∧ (s.dev.link port).perst ∧ s.dev.pwr.stopped = none ∧ s.dev.start.banked = false ∧ port ∉ s.dev.pwr.clocks) ∧
    (∃ (s : State), s.dev.pwr.sysGood ∧ (s.dev.link 0).perst ∧ s.dev.pwr.stopped.isSome ∧ s.dev.start.open_ = false) ∧
    (∃ (s : State) (port : Nat), port < 2 ∧ (s.dev.link port).perst = false ∧ (s.dev.link port).held = false ∧ port ∉ s.dev.pwr.clocks) ∧
    (∃ (s : State), s.dev.pwr.sysGood = false) := by
  exact ⟨⟨st (onA {}), by decide +kernel⟩,
    ⟨st (onA { open_ := true, stage := 3 }), by decide +kernel⟩,
    ⟨st { onA { failures := 2 } with mail := { fwB := { state := 2 } } }, by decide +kernel⟩,
    ⟨st { onB2 { open_ := true, stage := 2 } with mail := { fwA := { state := 2 } } }, {}, by decide +kernel⟩,
    ⟨st (onB2 { open_ := true, stage := 2, slot := 1 }), by decide +kernel⟩,
    ⟨st (onB2 { open_ := true, stage := 2, slot := 1, failures := 2 }), by decide +kernel⟩,
    ⟨st (onB2 { open_ := true, stage := 1, bankNext := true }), {}, by decide +kernel⟩,
    ⟨st (onB2 { open_ := true, stage := 7 }), {}, by decide +kernel⟩,
    ⟨st (onB2 { open_ := true, stage := 3 }), 20000000, by decide +kernel⟩,
    ⟨st (onB2 { open_ := true, stage := 6 }), 20000000, by decide +kernel⟩,
    ⟨st (onB2 { retry := true }), by decide +kernel⟩,
    ⟨st on, 1, [1], by decide +kernel⟩,
    ⟨st { on with mail := { fwB := { state := 2 } } }, 1, by decide +kernel⟩,
    ⟨st { onB2 { banked := true } with mail := { fwB := { state := 2 } } }, 1, by decide +kernel⟩,
    ⟨st on, by decide +kernel⟩,
    ⟨st on, by decide +kernel⟩,
    ⟨st (onB2 { open_ := true, stage := 3 }), by decide +kernel⟩,
    ⟨st on, 1000, 15, by decide +kernel⟩,
    ⟨st on, by decide +kernel⟩,
    ⟨st on, by decide +kernel⟩,
    ⟨st on, by decide +kernel⟩,
    ⟨st on, 4, by decide +kernel⟩,
    ⟨st { on with host := {} }, 1, by decide +kernel⟩,
    ⟨st { onP { p5 with stopped := some 5 } with host := {} }, by decide +kernel⟩,
    ⟨st on, 1, by decide +kernel⟩,
    ⟨st (onP { aonGood := false }), by decide +kernel⟩⟩

theorem witness_SecurityBlock :
    (∃ (s : State) (n : Nat) (q : SecSession), s.dev.secOn ∧ s.dev.session n = some q ∧ s.dev.withdrawing = false) ∧
    (∃ (s : State) (n : Nat) (q : SecSession) (tok : Bytes), s.dev.secOn ∧ s.dev.session n = some q ∧ s.dev.withdrawing = false ∧ s.dev.sec.wipeFail = false ∧ fieldAt tok 5 1 = 2 ∧ fieldAt tok 6 1 ≠ 2) ∧
    (∃ (s : State) (n : Nat) (q : SecSession) (tok : Bytes), s.dev.secOn ∧ s.dev.session n = some q ∧ s.dev.withdrawing = false ∧ s.dev.sec.wipeFail = false ∧ fieldAt tok 5 1 = 1 ∧ s.dev.store.spaces = []) ∧
    (∃ (s : State) (n : Nat) (q : SecSession) (ref : Nat) (key : Bytes), s.dev.secOn ∧ s.dev.session n = some q ∧ s.dev.withdrawing = false ∧ q.auth = 1 ∧ s.dev.sec.lifecycle = 3 ∧ s.dev.sec.debug ≠ 2 ∧ s.dev.sec.wipeFail = false ∧ ref ≠ 0 ∧ ref ≤ 0xFFFFFFFF ∧ key.length = 64 ∧ key.take 32 ≠ key.drop 32 ∧ (∀ k ∈ s.dev.sec.keys, k.ref ≠ ref) ∧ (∀ k ∈ s.dev.store.spaces, k.key ≠ ref) ∧ s.dev.sec.keys.length < 4096) ∧
    (∃ (s : State) (n : Nat) (q : SecSession), s.dev.secOn ∧ s.dev.session n = some q ∧ s.dev.withdrawing = false ∧ q.auth ≠ 1) ∧
    (∃ (s : State) (n : Nat) (q : SecSession) (k : SecKey), s.dev.secOn ∧ s.dev.session n = some q ∧ q.auth = 1 ∧ s.dev.sec.keys = [k] ∧ k.going = none ∧ s.dev.store.spaces = [] ∧ s.dev.store.commits = [] ∧ s.dev.twin.xfer = none) ∧
    (∃ (s : State) (n : Nat) (q : SecSession), s.dev.secOn ∧ s.dev.session n = some q ∧ s.dev.withdrawing = false ∧ q.auth = 1) ∧
    (∃ (s : State) (n : Nat) (q : SecSession), s.dev.secOn ∧ s.dev.session n = some q ∧ s.dev.withdrawing = false ∧ s.dev.sec.lifecycle = 3 ∧ q.auth = 1 ∧ s.dev.start.failures = 0) ∧
    (∃ (s : State) (n : Nat) (q : SecSession), s.dev.secOn ∧ s.dev.session n = some q ∧ s.dev.withdrawing = false ∧ s.dev.sec.lifecycle ≠ 0) ∧
    (∃ (s : State) (t n : Nat) (q : SecSession) (a : SecAsk) (c : Instr), s.dev.secOn ∧ s.dev.session n = some q ∧ s.dev.withdrawing ∧ (a, c) ∈ [(SecAsk.nonceGet, Instr.nonceGet t n), (.keyStatus, .keyStatus t n), (.svnCommit, .svnCommit t n), (.debugLock, .debugLock t n)]) ∧
    (∃ (s : State) (tr : Nat), s.dev.secOn ∧ s.dev.sec.lost = false ∧ tr < 3 ∧ s.dev.sec.wipeFail = false ∧ (s.dev.sec.sessions.filter (fun k => k.transport == tr)).length < 4) ∧
    (∃ (s : State) (tr : Nat), s.dev.secOn ∧ s.dev.sec.lost = false ∧ tr < 3) ∧
    (∃ (s : State) (n : Nat) (q : SecSession) (stream : Nat), s.dev.secOn ∧ s.dev.session n = some q ∧ q.transport < 2 ∧ stream < 5) ∧
    (∃ (s : State) (n : Nat) (q : SecSession) (stream : Nat), s.dev.secOn ∧ s.dev.session n = some q ∧ q.transport < 2 ∧ stream < 5 ∧ s.dev.sec.ideStop = [] ∧ s.dev.sec.ideHeld = []) ∧
    (∃ (s : State) (port stream x : Nat), 8 * port + stream ∈ s.dev.sec.ide ∧ portOf x = port) ∧
    (∃ (s : State) (i : Nat), s.dev.pwr.aonGood ∧ i < 2 ∧ bitOf (s.dev.regN 0x02E0000C) i ∧ s.dev.secOn ∧ s.dev.store.spaces = [] ∧ s.dev.store.commits = [] ∧ s.dev.twin.xfer = none) ∧
    (∃ (s : State) (i : Nat), s.dev.pwr.aonGood ∧ i < 2 ∧ bitOf (s.dev.regN 0x02E0000C) i ∧ s.dev.secOn = false) ∧
    (∃ (s : State) (i : Nat), s.dev.pwr.aonGood ∧ i < 2 ∧ bitOf (s.dev.regN 0x02E0000C) i = false) ∧
    (∃ (s : State) (v : Nat), s.dev.start.service ∧ s.dev.hostStopped = false ∧ s.dev.sec.lifecycle ≠ 3 ∧ v < 4 ∧ s.dev.regN 0x02E0000C < 4) ∧
    (∃ (s : State) (v : Nat), s.dev.start.service ∧ s.dev.hostStopped = false ∧ s.dev.sec.lifecycle = 3 ∧ s.dev.regN 0x02E0000C = 3 ∧ v < 3) ∧
    (∃ (s : State), s.dev.pwr.sysGood ∧ s.dev.sec.debug = 2) ∧
    (∃ (s : State) (a : Nat), s.dev.pwr.sysGood ∧ 1 ≤ s.dev.sec.debug ∧ secBlock a = false) ∧
    (∃ (s : State) (op : JtagOp), s.dev.sec.debug < op.level) := by
  exact ⟨⟨st (onSec se1 {}), 1, se1, by decide +kernel⟩,
    ⟨st (onSec se1 {}), 1, se1, tk 2 1, by decide +kernel⟩,
    ⟨st (onSec se1 {}), 1, se1, tk 1 4, by decide +kernel⟩,
    ⟨st (onSec se1 {}), 1, se1, 0xFFFFFFFF, natLE 64 1, by decide +kernel⟩,
    ⟨st (onSec { se1 with auth := 2 } {}), 1, { se1 with auth := 2 }, by decide +kernel⟩,
    ⟨st (onSec se1 { keys := [k7] }), 1, se1, k7, by decide +kernel⟩,
    ⟨st (onSec se1 { keys := [k7], svnRun := 3 }), 1, se1, by decide +kernel⟩,
    ⟨st (onSec se1 { keys := [k7], svnRun := 3 }), 1, se1, by decide +kernel⟩,
    ⟨st (onSec se1 { debug := 2, halted := true }), 1, se1, by decide +kernel⟩,
    ⟨st (onSec se1 { keys := [{ k7 with going := some 1 }] }), 0, 1, se1, .nonceGet, .nonceGet 0 1, by decide +kernel⟩,
    ⟨st (onSec se1 {}), 2, by decide +kernel⟩,
    ⟨st (onSec se1 {}), 2, by decide +kernel⟩,
    ⟨st (onSec { se1 with transport := 1 } { ide := [12] }), 1, { se1 with transport := 1 }, 4, by decide +kernel⟩,
    ⟨st (onSec { se1 with transport := 1 } { ide := [12] }), 1, { se1 with transport := 1 }, 4, by decide +kernel⟩,
    ⟨st { on with sec := { ide := [12] } }, 1, 4, 513, by decide +kernel⟩,
    ⟨st { on with sec := { keys := [k7] } }, 1, by decide +kernel⟩,
    ⟨st { on with pwr := { aonGood := true }, sec := { keys := [k7] } }, 0, by decide +kernel⟩,
    ⟨st { on with regs := [(0x02E0000C, 1)] }, 1, by decide +kernel⟩,
    ⟨st { on with sec := { lifecycle := 4 } }, 3, by decide +kernel⟩,
    ⟨st { on with regs := [(0x02E0000C, 3)] }, 2, by decide +kernel⟩,
    ⟨st { on with sec := { debug := 2 } }, by decide +kernel⟩,
    ⟨st { on with sec := { debug := 1 } }, 0x02F0001C, by decide +kernel⟩,
    ⟨st { on with sec := { debug := 1 } }, .halt, by decide +kernel⟩⟩

theorem witness_Recorder :
    (∃ (s : State) (h : Nat), h < 36 ∧ (s.dev.hearth h).quenched = false ∧ (s.dev.hearth h).slots = [] ∧ (s.dev.hearth h).running = none ∧ (s.dev.hearth h).on = false ∧ (s.dev.hearth h).rx4 = false ∧ s.dev.pwr.change = none) ∧
    (∃ (s : State) (h k : Nat) (r : List Nat), h < 36 ∧ h ∈ s.dev.pipeHearths ∧ (s.dev.hearth h).quenched = false ∧ (s.dev.hearth h).slots = [] ∧ (s.dev.hearth h).running = none ∧ (s.dev.hearth h).rx4 = false ∧ s.dev.spareHearths = k :: r ∧ s.dev.pipeHearths.length ≤ 32 ∧ s.dev.pwr.change = none) ∧
    (∃ (s : State), s.dev.rcd.closeDue ∧ s.dev.rcd.frozen = false ∧ s.dev.rcd.lost = [] ∧ s.dev.rcd.acc.lat = [] ∧ s.dev.rcd.ring.length ≤ 152) ∧
    (∃ (s : State), s.dev.rcd.frozen) ∧
    (∃ (s : State), s.dev.rcd.archDue ∧ s.dev.rcd.frozen = false ∧ s.dev.rcd.lost = []) ∧
    (∃ (s : State), s.dev.rcd.archDue ∧ s.dev.rcd.frozen = false ∧ s.dev.rcd.lost = []) ∧
    (∃ (s : State), s.dev.start.service ∧ s.dev.hostStopped = false ∧ s.dev.regN 0x02F00100 < 8) ∧
    (∃ (s : State), s.dev.start.service ∧ s.dev.hostStopped = false ∧ s.dev.regN 0x02F00100 = 0 ∧ s.dev.rcd.freezeHost = none) ∧
    (∃ (s : State) (t u : Nat), s.dev.rcd.freezeHost = some u ∧ u + 10000000 ≤ max s.dev.timeUs t ∧ s.dev.rcd.freezeMgmt = none ∧ s.dev.rcd.waiting = [] ∧ s.dev.rcd.closeDue = false) ∧
    (∃ (s : State) (t u : Nat), s.dev.rcd.freezeHost = some u ∧ u + 10000000 ≤ max s.dev.timeUs t ∧ s.dev.rcd.freezeMgmt = none ∧ s.dev.rcd.waiting = [] ∧ s.dev.rcd.closeDue) ∧
    (∃ (s : State), 2 ≤ s.dev.pwr.mode ∧ s.dev.rcd.freezeMgmt = none) ∧
    (∃ (s : State) (a n : Nat), 2 ≤ s.dev.pwr.mode ∧ a % 4 = 0 ∧ 1 ≤ n ∧ n ≤ 64 ∧ mgmtReads a ∧ mgmtReads (a + 4 * (n - 1))) ∧
    (∃ (s : State) (v : Nat), s.dev.start.service ∧ s.dev.hostStopped = false ∧ s.dev.rcd.wall = none ∧ v < 2 ^ 64) ∧
    (∃ (s : State) (t v : Nat) (w : Int), s.dev.start.service ∧ s.dev.hostStopped = false ∧ (s.dev.at t).wallMs = some w ∧ v < 2 ^ 64 ∧ w + 2000 < signed 64 v ∧ s.dev.rcd.frozen = false ∧ s.dev.rcd.ring.length < 160) ∧
    (∃ (s : State), s.dev.pwr.aonGood) ∧
    (∃ (s : State) (port : Nat), port < 2 ∧ s.dev.host.qps = []) ∧
    (∃ (s : State) (port : Nat), port < 2 ∧ (s.dev.link port).perst = false ∧ (4, port) ∉ s.dev.health.recovering) ∧
    (∃ (s : State) (port : Nat), port < 2 ∧ (s.dev.link port).perst = false ∧ (4, port) ∈ s.dev.health.recovering) := by
  exact ⟨⟨st on, 35, by decide +kernel⟩,
    ⟨st { on with qry := { hearths := [(0, hr)] } }, 0, 1, (List.range 34).map (· + 2), by decide +kernel⟩,
    ⟨st (onRc { closeDue := true, ring := List.replicate 152 [] }), by decide +kernel⟩,
    ⟨st (onRc { freezeHost := some 7 }), by decide +kernel⟩,
    ⟨st (onRc { archDue := true, ring := [[1]] }), by decide +kernel⟩,
    ⟨st (onRc { archDue := true, ring := [[1]] }), by decide +kernel⟩,
    ⟨st on, by decide +kernel⟩,
    ⟨st on, by decide +kernel⟩,
    ⟨st (onRc { freezeHost := some 7 }), 10000007, 7, by decide +kernel⟩,
    ⟨st (onRc { freezeHost := some 7, closeDue := true }), 10000007, 7, by decide +kernel⟩,
    ⟨st on, by decide +kernel⟩,
    ⟨st on, 0x02F3FFFC, 1, by decide +kernel⟩,
    ⟨st on, 2 ^ 64 - 1, by decide +kernel⟩,
    ⟨st (onRc { wall := some (5, 0), ring := List.replicate 159 [] }), 0, 2006, 5, by decide +kernel⟩,
    ⟨st on, by decide +kernel⟩,
    ⟨st on, 1, by decide +kernel⟩,
    ⟨st on, 1, by decide +kernel⟩,
    ⟨st { on with health := { recovering := [(4, 1)] } }, 1, by decide +kernel⟩⟩

theorem witness_Rx4Window :
    (∃ (s : State) (sp : TSpace), s.dev.start.service ∧ s.dev.hostStopped = false ∧ s.dev.regN 0x03000000 = 0 ∧ s.dev.space s.dev.rx4Ts = some sp ∧ sp.x = 0 ∧ s.dev.rx4Owned ∧ s.dev.rx4Table.isSome ∧ (s.dev.hearth 35).quenched = false ∧ (s.dev.hearth 35).on = false ∧ (s.dev.hearth 35).slots = [] ∧ s.dev.mail.claims = [] ∧ 6 ≤ s.dev.freeFrames 0) ∧
    (∃ (s : State), s.dev.start.service ∧ s.dev.hostStopped = false ∧ s.dev.regN 0x03000000 = 0 ∧ s.dev.space s.dev.rx4Ts = none ∧ s.dev.rx4.claims = []) ∧
    (∃ (s : State), s.dev.start.service ∧ s.dev.hostStopped = false ∧ s.dev.regN 0x03000000 = 1 ∧ s.dev.rx4.run = none) ∧
    (∃ (s : State) (r : Rx4Run), s.dev.start.service ∧ s.dev.hostStopped = false ∧ s.dev.regN 0x03000000 = 1 ∧ s.dev.rx4.run = some r) ∧
    (∃ (s : State) (b : Bytes) (k : TSpace × Table × Column), s.dev.serves 0 ∧ s.dev.start.banked = false ∧ s.dev.rx4.run = none ∧ bitOf (s.dev.regN 0x03000000) 0 ∧ s.dev.rx4Owned ∧ s.dev.rx4Table = some k ∧ rxBlockOk (fitTo 64 (b.take 4 ++ [0x01#8] ++ b.drop 5)) k.2.2.ty.len) ∧
    (∃ (s : State) (b : Bytes) (k : TSpace × Table × Column), s.dev.serves 0 ∧ s.dev.start.banked = false ∧ s.dev.rx4.run = none ∧ bitOf (s.dev.regN 0x03000000) 0 ∧ s.dev.rx4Owned ∧ s.dev.rx4Table = some k ∧ rxBlockOk (fitTo 64 (b.take 4 ++ [0x02#8] ++ b.drop 5)) k.2.2.ty.len) ∧
    (∃ (s : State) (b : Bytes) (k : TSpace × Table × Column), s.dev.serves 0 ∧ s.dev.start.banked = false ∧ s.dev.rx4.run = none ∧ bitOf (s.dev.regN 0x03000000) 0 ∧ s.dev.rx4Owned ∧ s.dev.rx4Table = some k ∧ rxBlockOk (fitTo 64 (b.take 4 ++ [0x03#8] ++ b.drop 5)) k.2.2.ty.len) ∧
    (∃ (s : State) (b : Bytes) (k : TSpace × Table × Column), s.dev.serves 0 ∧ s.dev.start.banked = false ∧ s.dev.rx4.run = none ∧ bitOf (s.dev.regN 0x03000000) 0 ∧ s.dev.rx4Owned ∧ s.dev.rx4Table = some k ∧ rxBlockOk (fitTo 64 (b.take 4 ++ [0x04#8] ++ b.drop 5)) k.2.2.ty.len ∧ s.dev.pwr.mode ≠ 7 ∧ s.dev.locked k.1 = false ∧ s.dev.spaceDown k.1 = false) ∧
    (∃ (s : State) (b : Bytes) (k : TSpace × Table × Column) (l : List Bytes), s.dev.serves 0 ∧ s.dev.start.banked = false ∧ s.dev.rx4.run = none ∧ bitOf (s.dev.regN 0x03000000) 0 ∧ s.dev.rx4Owned ∧ s.dev.rx4Table = some k ∧ rxBlockOk (fitTo 64 (b.take 4 ++ [0x05#8] ++ b.drop 5)) k.2.2.ty.len ∧ s.dev.locked k.1 = false ∧ s.dev.spaceDown k.1 = false ∧ s.dev.rx4Beyond k.1 k.2.1 k.2.2 (rxU (fitTo 64 (b.take 4 ++ [0x05#8] ++ b.drop 5)) 0x18 4) (rxU (fitTo 64 (b.take 4 ++ [0x05#8] ++ b.drop 5)) 0xC 4) = false ∧ Dev.rx4File k.1 k.2.1 k.2.2 (rxU (fitTo 64 (b.take 4 ++ [0x05#8] ++ b.drop 5)) 0x18 4) (rxU (fitTo 64 (b.take 4 ++ [0x05#8] ++ b.drop 5)) 0xC 4) = some l) ∧
    (∃ (s : State), s.dev.serves 0 ∧ s.dev.start.banked = false ∧ s.dev.rx4.run = none ∧ bitOf (s.dev.regN 0x03000000) 0 = false) ∧
    (∃ (s : State) (r : Rx4Run) (h : Nat) (raw : Bytes), s.dev.rx4.run = some r ∧ s.dev.rx4.hearth = some h ∧ r.commit = none ∧ (s.dev.hearth h).powered ∧ s.dev.mail.activating = none ∧ rxU r.block 4 1 = 1 ∧ rxFault r.block (fitTo (rxU r.block 8 2) raw) = none ∧ r.done + 1 ≠ rxU r.block 0xC 4 ∧ s.dev.rx4.invalid ≠ 65) ∧
    (∃ (s : State) (r : Rx4Run) (h : Nat) (raw : Bytes) (f : Nat × Nat × Nat), s.dev.rx4.run = some r ∧ s.dev.rx4.hearth = some h ∧ r.commit = none ∧ (s.dev.hearth h).powered ∧ s.dev.mail.activating = none ∧ rxU r.block 4 1 ≤ 4 ∧ rxU r.block 4 1 ≠ 4 ∧ rxFault r.block (fitTo (rxU r.block 8 2) raw) = some f ∧ r.done + 1 ≠ rxU r.block 0xC 4 ∧ s.dev.rx4.invalid < 64) ∧
    (∃ (s : State) (r : Rx4Run) (h : Nat) (raw : Bytes), s.dev.rx4.run = some r ∧ s.dev.rx4.hearth = some h ∧ r.commit = none ∧ (s.dev.hearth h).powered ∧ s.dev.mail.activating = none ∧ rxU r.block 4 1 = 1 ∧ rxFault r.block (fitTo (rxU r.block 8 2) raw) = none ∧ r.done + 1 = rxU r.block 0xC 4 ∧ s.dev.rx4.invalid = 0) ∧
    (∃ (s : State) (r : Rx4Run) (h : Nat) (raw : Bytes) (f : Nat × Nat × Nat), s.dev.rx4.run = some r ∧ s.dev.rx4.hearth = some h ∧ r.commit = none ∧ (s.dev.hearth h).powered ∧ s.dev.mail.activating = none ∧ rxU r.block 4 1 = 1 ∧ rxFault r.block (fitTo (rxU r.block 8 2) raw) = some f ∧ s.dev.rx4.invalid = 64) ∧
    (∃ (s : State) (r : Rx4Run), s.dev.serves 0 ∧ s.dev.rx4.run = some r) ∧
    (∃ (s : State) (x p v : Nat) (c : Claim), s.dev.start.service ∧ s.dev.hostStopped = false ∧ p < 16 ∧ s.dev.claimOf 1 p = some c ∧ c.x = x ∧ c.holder = 1 ∧ v < 64 ∧ v % 8 < 5 ∧ s.dev.regN (0x03100000 + 4 * p) < 64) ∧
    (∃ (s : State) (p : Nat), s.dev.start.service ∧ s.dev.hostStopped = false ∧ p < 16 ∧ s.dev.claimOf 1 p = none) ∧
    (∃ (s : State) (v : Nat), s.dev.start.service ∧ s.dev.hostStopped = false ∧ v < 6 ∧ s.dev.regN 0x03200000 < 8 ∧ s.dev.regN 0x03200000 ≠ v) := by
  exact ⟨⟨st (onR {} 0), spR, by decide +kernel⟩,
    ⟨st on, by decide +kernel⟩,
    ⟨st (onR {} 1), by decide +kernel⟩,
    ⟨st (onR { run := some (rxR 0) } 1), rxR 0, by decide +kernel⟩,
    ⟨st (onR {} 1), rxB 0 1, rxK, by decide +kernel⟩,
    ⟨st (onR {} 1), rxB 0 3, rxK, by decide +kernel⟩,
    ⟨st (onR {} 1), rxB 0 1, rxK, by decide +kernel⟩,
    ⟨st (onR {} 1), rxB 0 8, rxK, by decide +kernel⟩,
    ⟨st (onR {} 1), rxB 5 0, rxK, [], by decide +kernel⟩,
    ⟨st (onR {} 0), by decide +kernel⟩,
    ⟨st (onRr (rxR 0) 0), rxR 0, 35, rxOk, by decide +kernel⟩,
    ⟨st (onRr (rxR 0) 63), rxR 0, 35, rxBad, (1, 1, 1), by decide +kernel⟩,
    ⟨st (onRr (rxR 1) 0), rxR 1, 35, rxOk, by decide +kernel⟩,
    ⟨st (onRr (rxR 0) 64), rxR 0, 35, rxBad, (1, 1, 1), by decide +kernel⟩,
    ⟨st (onRr (rxR 0) 0), rxR 0, by decide +kernel⟩,
    ⟨st (onCl 513 { num := 1, cls := 1, index := 15, x := 513, holder := 1 }), 513, 15, 60, { num := 1, cls := 1, index := 15, x := 513, holder := 1 }, by decide +kernel⟩,
    ⟨st on, 15, by decide +kernel⟩,
    ⟨st on, 5, by decide +kernel⟩⟩

theorem witness_UnitIssue :
    (∃ (s : State) (h : Nat) (op : XOp) (w : XFields), s.dev.issues h op w ∧ (op = .cml → ((s.dev.hearth h).exu.done (s.dev.narrowOnly h) op w).unres = false)) ∧
    (∃ (op : XOp) (w : XFields), xWordOk op w = false) ∧
    (∃ (s : State) (h : Nat) (op : XOp) (w : XFields), xWordOk op w = true ∧ s.dev.unitReady h = false) ∧
    (∃ (s : State) (h : Nat) (w : XFields), s.dev.issues h .nop w) ∧
    (∃ (s : State) (h : Nat) (w : XFields), s.dev.issues h .brz w) ∧
    (∃ (s : State) (h : Nat) (w : XFields), s.dev.issues h .brnz w) ∧
    (∃ (s : State) (h : Nat) (w : XFields), s.dev.issues h .brmz w) ∧
    (∃ (s : State) (h : Nat) (w : XFields) (b j : Nat) (rest : List (Nat × Nat)), s.dev.issues h .endS w ∧ (s.dev.hearth h).exu.busy = true ∧ ((sliceList (s.dev.hearth h).exu.ctx).dropWhile (fun p => p != ((s.dev.hearth h).exu.bil, (s.dev.hearth h).exu.slice))).drop 1 = (b, j) :: rest) ∧
    (∃ (s : State) (h : Nat) (w : XFields), s.dev.issues h .endS w ∧ (s.dev.hearth h).exu.busy = true ∧ ((sliceList (s.dev.hearth h).exu.ctx).dropWhile (fun p => p != ((s.dev.hearth h).exu.bil, (s.dev.hearth h).exu.slice))).drop 1 = []) ∧
    (∃ (s : State) (h : Nat) (w : XFields), s.dev.issues h .endS w ∧ (s.dev.hearth h).exu.busy = false) := by
  exact ⟨⟨su, 35, .add, { ty := 2, d := 1, a := 5, b := 5 }, by unfold Dev.issues; decide +kernel⟩,
    ⟨.add, { c := 1 }, by decide +kernel⟩,
    ⟨st (onX { unres := true }), 35, .add, { ty := 2, d := 1, a := 5, b := 5 }, by decide +kernel⟩,
    ⟨su, 35, {}, by unfold Dev.issues; decide +kernel⟩,
    ⟨su, 35, { a := 28 }, by unfold Dev.issues; decide +kernel⟩,
    ⟨su, 35, { a := 28 }, by unfold Dev.issues; decide +kernel⟩,
    ⟨su, 35, { a := 4 }, by unfold Dev.issues; decide +kernel⟩,
    ⟨st (onX xs2), 35, {}, 0, 1, [], by unfold Dev.issues; decide +kernel⟩,
    ⟨st (onX { xs2 with slice := 1 }), 35, {}, by unfold Dev.issues; decide +kernel⟩,
    ⟨su, 35, {}, by unfold Dev.issues; decide +kernel⟩⟩

theorem witness_UnitFaults :
    (∃ (s : State) (h : Nat) (op : XOp) (w : XFields) (f : XFault), s.dev.issues h op w ∧ 1 ≤ f.cause ∧ f.cause ≤ 4 ∧ s.dev.recovers 1 h = false ∧ (f.cause = 1 → ∀ r q, (s.dev.hearth h).running = some r → s.dev.query r.query = some q → ∃ e off, (s.dev.translate (ctxOf q.x) f.addr.toNat false).1 = .ok e off)) ∧
    (∃ (s : State) (h : Nat) (op : XOp) (w : XFields) (f : XFault), s.dev.issues h op w ∧ f.cause = 0x10 ∧ s.dev.recovers 1 h = false ∧ (recent s.dev.opSec (s.dev.hearth h).unresAt).length < 2) ∧
    (∃ (s : State) (h : Nat) (op : XOp) (w : XFields) (f : XFault), s.dev.issues h op w ∧ f.cause = 5 ∧ s.dev.recovers 1 h = false) := by
  exact ⟨⟨su, 35, .add, { ty := 2, d := 1, a := 5, b := 5 }, { lane := 127, cause := 1, addr := 0 }, by exact ⟨by unfold Dev.issues; decide +kernel, by decide, by decide, by decide +kernel, fun _ r q hr => by rw [show (su.dev.hearth 35).running = none by decide +kernel] at hr; cases hr⟩⟩,
    ⟨su, 35, .add, { ty := 2, d := 1, a := 5, b := 5 }, { lane := 127, cause := 16, addr := 0 }, by unfold Dev.issues; decide +kernel⟩,
    ⟨su, 35, .add, { ty := 2, d := 1, a := 5, b := 5 }, { lane := 127, cause := 5, addr := 0 }, by unfold Dev.issues; decide +kernel⟩⟩

theorem witness_IntegerLanes :
    (∃ (s : State) (h : Nat) (w : XFields) (i : Nat), s.dev.issues h .add w ∧ i < 128) ∧
    (∃ (s : State) (h : Nat) (w : XFields) (i : Nat), s.dev.issues h .sub w ∧ i < 128) ∧
    (∃ (s : State) (h : Nat) (w : XFields) (i : Nat), s.dev.issues h .mul w ∧ i < 128) ∧
    (∃ (s : State) (h : Nat) (w : XFields) (i : Nat), s.dev.issues h .neg w ∧ i < 128) ∧
    (∃ (s : State) (h : Nat) (w : XFields) (i : Nat), s.dev.issues h .abs w ∧ i < 128) ∧
    (∃ (s : State) (h : Nat) (w : XFields) (i : Nat), s.dev.issues h .mulh w ∧ i < 128) ∧
    (∃ (s : State) (h : Nat) (w : XFields) (i : Nat), s.dev.issues h .wmul w ∧ i < 128) ∧
    (∃ (s : State) (h : Nat) (w : XFields) (i : Nat), s.dev.issues h .and w ∧ i < 128) ∧
    (∃ (s : State) (h : Nat) (w : XFields) (i : Nat), s.dev.issues h .or w ∧ i < 128) ∧
    (∃ (s : State) (h : Nat) (w : XFields) (i : Nat), s.dev.issues h .xor w ∧ i < 128) ∧
    (∃ (s : State) (h : Nat) (w : XFields) (i : Nat), s.dev.issues h .not w ∧ i < 128) ∧
    (∃ (s : State) (h : Nat) (w : XFields) (i : Nat), s.dev.issues h .shl w ∧ i < 128) ∧
    (∃ (s : State) (h : Nat) (w : XFields) (i : Nat), s.dev.issues h .shr w ∧ i < 128) ∧
    (∃ (s : State) (h : Nat) (w : XFields) (i : Nat), s.dev.issues h .div w ∧ i < 128) ∧
    (∃ (s : State) (h : Nat) (w : XFields) (i : Nat), s.dev.issues h .rem w ∧ i < 128) ∧
    (∃ (s : State) (h : Nat) (w : XFields) (i : Nat), s.dev.issues h .divrem w ∧ i < 128 ∧ w.c ≠ w.d) ∧
    (∃ (s : State) (h : Nat) (w : XFields) (i : Nat), s.dev.issues h .divrem w ∧ w.c = w.d ∧ i < 128) ∧
    (∃ (s : State) (h : Nat) (w : XFields) (i : Nat), s.dev.issues h .dot8 w ∧ i < 128) ∧
    (∃ (s : State) (h : Nat) (w : XFields) (i : Nat), s.dev.issues h .dot16 w ∧ i < 128) ∧
    (∃ (s : State) (h : Nat) (w : XFields) (i : Nat), s.dev.issues h .viota w ∧ i < 128) ∧
    (∃ (s : State) (h : Nat) (w : XFields) (i : Nat), s.dev.issues h .vbs w ∧ i < 128) ∧
    (∃ (s : State) (h : Nat) (w : XFields) (i : Nat), s.dev.issues h .min w ∧ i < 128) ∧
    (∃ (s : State) (h : Nat) (w : XFields) (i : Nat), s.dev.issues h .max w ∧ i < 128) := by
  exact ⟨⟨su, 35, { ty := 2, d := 1, a := 5, b := 5 }, 127, by unfold Dev.issues; decide +kernel⟩,
    ⟨su, 35, { ty := 2, d := 1, a := 5, b := 5 }, 127, by unfold Dev.issues; decide +kernel⟩,
    ⟨su, 35, { ty := 2, d := 1, a := 5, b := 5 }, 127, by unfold Dev.issues; decide +kernel⟩,
    ⟨su, 35, { ty := 2, d := 1, a := 5 }, 127, by unfold Dev.issues; decide +kernel⟩,
    ⟨su, 35, { ty := 2, d := 1, a := 5 }, 127, by unfold Dev.issues; decide +kernel⟩,
    ⟨su, 35, { ty := 2, d := 1, a := 5, b := 5 }, 127, by unfold Dev.issues; decide +kernel⟩,
    ⟨su, 35, { ty := 1, d := 10, a := 10, b := 10 }, 127, by unfold Dev.issues; decide +kernel⟩,
    ⟨su, 35, { ty := 2, d := 1, a := 5, b := 5 }, 127, by unfold Dev.issues; decide +kernel⟩,
    ⟨su, 35, { ty := 2, d := 1, a := 5, b := 5 }, 127, by unfold Dev.issues; decide +kernel⟩,
    ⟨su, 35, { ty := 2, d := 1, a := 5, b := 5 }, 127, by unfold Dev.issues; decide +kernel⟩,
    ⟨su, 35, { ty := 2, d := 1, a := 5 }, 127, by unfold Dev.issues; decide +kernel⟩,
    ⟨su, 35, { ty := 2, d := 1, a := 5, b := 5 }, 127, by unfold Dev.issues; decide +kernel⟩,
    ⟨su, 35, { ty := 2, d := 1, a := 5, b := 5 }, 127, by unfold Dev.issues; decide +kernel⟩,
    ⟨su, 35, { ty := 2, d := 1, a := 5, b := 5 }, 127, by unfold Dev.issues; decide +kernel⟩,
    ⟨su, 35, { ty := 2, d := 1, a := 5, b := 5 }, 127, by unfold Dev.issues; decide +kernel⟩,
    ⟨su, 35, { ty := 2, d := 1, a := 5, b := 5, c := 6 }, 127, by unfold Dev.issues; decide +kernel⟩,
    ⟨su, 35, { ty := 2, d := 1, a := 5, b := 5, c := 1 }, 127, by unfold Dev.issues; decide +kernel⟩,
    ⟨su, 35, { ty := 4, d := 10, a := 10, b := 2 }, 127, by unfold Dev.issues; decide +kernel⟩,
    ⟨su, 35, { ty := 1, d := 10, a := 10, b := 10 }, 127, by unfold Dev.issues; decide +kernel⟩,
    ⟨su, 35, { ty := 6, d := 7 }, 127, by unfold Dev.issues; decide +kernel⟩,
    ⟨su, 35, { ty := 2, d := 1, a := 25 }, 127, by unfold Dev.issues; decide +kernel⟩,
    ⟨su, 35, { ty := 2, d := 1, a := 5, b := 5 }, 127, by unfold Dev.issues; decide +kernel⟩,
    ⟨su, 35, { ty := 2, d := 1, a := 5, b := 5 }, 127, by unfold Dev.issues; decide +kernel⟩⟩

theorem witness_FloatLanes :
    (∃ (s : State) (h : Nat) (w : XFields) (i : Nat), s.dev.issues h .fadd w ∧ i < 128) ∧
    (∃ (s : State) (h : Nat) (w : XFields) (i : Nat), s.dev.issues h .fsub w ∧ i < 128) ∧
    (∃ (s : State) (h : Nat) (w : XFields) (i : Nat), s.dev.issues h .fmul w ∧ i < 128) ∧
    (∃ (s : State) (h : Nat) (w : XFields) (i : Nat), s.dev.issues h .fdiv w ∧ i < 128) ∧
    (∃ (s : State) (h : Nat) (w : XFields) (i : Nat), s.dev.issues h .fsqrt w ∧ i < 128) ∧
    (∃ (s : State) (h : Nat) (w : XFields) (i : Nat), s.dev.issues h .fma w ∧ i < 128) ∧
    (∃ (s : State) (h : Nat) (w : XFields) (i : Nat), s.dev.issues h .fmin w ∧ i < 128) ∧
    (∃ (s : State) (h : Nat) (w : XFields) (i : Nat), s.dev.issues h .fmax w ∧ i < 128) ∧
    (∃ (s : State) (h : Nat) (w : XFields) (i : Nat), s.dev.issues h .fabs w ∧ i < 128) ∧
    (∃ (s : State) (h : Nat) (w : XFields) (i : Nat), s.dev.issues h .fneg w ∧ i < 128) ∧
    (∃ (s : State) (h : Nat) (w : XFields) (i : Nat) (src : XTy), s.dev.issues h .cvt w ∧ i < 128 ∧ XTy.ofCode w.mod.toNat = some src) := by
  exact ⟨⟨su, 35, { ty := 10, d := 5, a := 5, b := 4 }, 127, by unfold Dev.issues; decide +kernel⟩,
    ⟨su, 35, { ty := 10, d := 5, a := 5, b := 4 }, 127, by unfold Dev.issues; decide +kernel⟩,
    ⟨su, 35, { ty := 10, d := 5, a := 5, b := 4 }, 127, by unfold Dev.issues; decide +kernel⟩,
    ⟨su, 35, { ty := 10, d := 5, a := 5, b := 4 }, 127, by unfold Dev.issues; decide +kernel⟩,
    ⟨su, 35, { ty := 10, d := 5, a := 5 }, 127, by unfold Dev.issues; decide +kernel⟩,
    ⟨su, 35, { ty := 10, d := 5, a := 5, b := 4, c := 4 }, 127, by unfold Dev.issues; decide +kernel⟩,
    ⟨su, 35, { ty := 10, d := 5, a := 5, b := 4 }, 127, by unfold Dev.issues; decide +kernel⟩,
    ⟨su, 35, { ty := 10, d := 5, a := 5, b := 4 }, 127, by unfold Dev.issues; decide +kernel⟩,
    ⟨su, 35, { ty := 10, d := 5, a := 5 }, 127, by unfold Dev.issues; decide +kernel⟩,
    ⟨su, 35, { ty := 10, d := 5, a := 5 }, 127, by unfold Dev.issues; decide +kernel⟩,
    ⟨su, 35, { ty := 7, d := 4, a := 4 }, 127, .i8, by unfold Dev.issues; decide +kernel⟩⟩

theorem witness_DecimalLanes :
    (∃ (s : State) (h : Nat) (w : XFields) (i : Nat), s.dev.issues h .dadd w ∧ i < 128) ∧
    (∃ (s : State) (h : Nat) (w : XFields) (i : Nat), s.dev.issues h .dsub w ∧ i < 128) ∧
    (∃ (s : State) (h : Nat) (w : XFields) (i : Nat), s.dev.issues h .dmul w ∧ i < 128) ∧
    (∃ (s : State) (h : Nat) (w : XFields) (i : Nat), s.dev.issues h .ddiv w ∧ i < 128) ∧
    (∃ (s : State) (h : Nat) (w : XFields) (i : Nat), s.dev.issues h .dscale w ∧ i < 128) ∧
    (∃ (s : State) (h : Nat) (w : XFields) (i : Nat), s.dev.issues h .padd w ∧ i < 128) ∧
    (∃ (s : State) (h : Nat) (w : XFields) (i : Nat), s.dev.issues h .psub w ∧ i < 128) ∧
    (∃ (s : State) (h : Nat) (w : XFields) (i : Nat), s.dev.issues h .pchk w ∧ i < 128) := by
  exact ⟨⟨su, 35, { ty := 12, d := 28, a := 28, b := 28 }, 127, by unfold Dev.issues; decide +kernel⟩,
    ⟨su, 35, { ty := 12, d := 28, a := 28, b := 28 }, 127, by unfold Dev.issues; decide +kernel⟩,
    ⟨su, 35, { ty := 12, d := 28, a := 28, b := 28 }, 127, by unfold Dev.issues; decide +kernel⟩,
    ⟨su, 35, { ty := 12, d := 28, a := 28, b := 28, imm := 2 }, 127, by unfold Dev.issues; decide +kernel⟩,
    ⟨su, 35, { ty := 12, d := 28, a := 28, imm := 2 }, 127, by unfold Dev.issues; decide +kernel⟩,
    ⟨su, 35, { ty := 13, d := 20, a := 20, b := 20 }, 127, by unfold Dev.issues; decide +kernel⟩,
    ⟨su, 35, { ty := 13, d := 20, a := 20, b := 20 }, 127, by unfold Dev.issues; decide +kernel⟩,
    ⟨su, 35, { ty := 13, a := 20 }, 127, by unfold Dev.issues; decide +kernel⟩⟩

theorem witness_MaskRows :
    (∃ (s : State) (h : Nat) (w : XFields) (i : Nat), s.dev.issues h .cmp w ∧ i < 128) ∧
    (∃ (s : State) (h : Nat) (w : XFields) (i : Nat), s.dev.issues h .vsel w ∧ i < 128) ∧
    (∃ (s : State) (h : Nat) (w : XFields) (i : Nat), s.dev.issues h .valid w ∧ i < 128) ∧
    (∃ (s : State) (h : Nat) (w : XFields) (i : Nat), s.dev.issues h .setnull w ∧ i < 128) ∧
    (∃ (s : State) (h : Nat) (w : XFields) (i : Nat), s.dev.issues h .mand w ∧ i < 128) ∧
    (∃ (s : State) (h : Nat) (w : XFields) (i : Nat), s.dev.issues h .mor w ∧ i < 128) ∧
    (∃ (s : State) (h : Nat) (w : XFields) (i : Nat), s.dev.issues h .mxor w ∧ i < 128) ∧
    (∃ (s : State) (h : Nat) (w : XFields) (i : Nat), s.dev.issues h .mandn w ∧ i < 128) ∧
    (∃ (s : State) (h : Nat) (w : XFields) (i : Nat), s.dev.issues h .mnot w ∧ i < 128) ∧
    (∃ (s : State) (h : Nat) (w : XFields) (i : Nat), s.dev.issues h .mmov w ∧ i < 128) ∧
    (∃ (s : State) (h : Nat) (w : XFields) (i : Nat), s.dev.issues h .merr w ∧ i < 128) ∧
    (∃ (s : State) (h : Nat) (w : XFields) (i : Nat), s.dev.issues h .movf w ∧ i < 128) ∧
    (∃ (s : State) (h : Nat) (w : XFields) (i : Nat), s.dev.issues h .mld w ∧ i < 128) ∧
    (∃ (s : State) (h : Nat) (w : XFields) (i : Nat), s.dev.issues h .vldn w ∧ i < 128) ∧
    (∃ (s : State) (h : Nat) (w : XFields) (i : Nat) (c : XSlot), s.dev.issues h .tst w ∧ i < 128 ∧ (s.dev.hearth h).exu.slot (w.imm.toNat % 128) = some c) ∧
    (∃ (s : State) (h : Nat) (w : XFields) (i : Nat), s.dev.issues h .tst w ∧ i < 128 ∧ (s.dev.hearth h).exu.slot (w.imm.toNat % 128) = none) ∧
    (∃ (s : State) (h : Nat) (w : XFields), s.dev.issues h .eclr w) ∧
    (∃ (s : State) (h : Nat) (w : XFields), s.dev.issues h .setsel w) := by
  exact ⟨⟨su, 35, { ty := 5, d := 5, a := 9, b := 9 }, 127, by unfold Dev.issues; decide +kernel⟩,
    ⟨su, 35, { ty := 2, d := 1, a := 5, b := 5, c := 1 }, 127, by unfold Dev.issues; decide +kernel⟩,
    ⟨su, 35, { ty := 2, d := 1, a := 5 }, 127, by unfold Dev.issues; decide +kernel⟩,
    ⟨su, 35, { ty := 2, d := 1, a := 1 }, 127, by unfold Dev.issues; decide +kernel⟩,
    ⟨su, 35, { d := 1, a := 1, b := 1 }, 127, by unfold Dev.issues; decide +kernel⟩,
    ⟨su, 35, { d := 1, a := 1, b := 1 }, 127, by unfold Dev.issues; decide +kernel⟩,
    ⟨su, 35, { d := 1, a := 1, b := 1 }, 127, by unfold Dev.issues; decide +kernel⟩,
    ⟨su, 35, { d := 1, a := 1, b := 1 }, 127, by unfold Dev.issues; decide +kernel⟩,
    ⟨su, 35, { d := 1, a := 1 }, 127, by unfold Dev.issues; decide +kernel⟩,
    ⟨su, 35, { d := 1, a := 1 }, 127, by unfold Dev.issues; decide +kernel⟩,
    ⟨su, 35, { d := 1 }, 127, by unfold Dev.issues; decide +kernel⟩,
    ⟨su, 35, { d := 1 }, 127, by unfold Dev.issues; decide +kernel⟩,
    ⟨su, 35, { d := 4 }, 127, by unfold Dev.issues; decide +kernel⟩,
    ⟨su, 35, { d := 4 }, 127, by unfold Dev.issues; decide +kernel⟩,
    ⟨st (onX xs2), 35, { d := 1, mod := 9, imm := 1 }, 127, { ty := { ty := .int32 }, vals := [some [1, 0, 0, 0]] }, by unfold Dev.issues; decide +kernel⟩,
    ⟨su, 35, { d := 1, mod := 9 }, 127, by unfold Dev.issues; decide +kernel⟩,
    ⟨su, 35, { a := 7 }, by unfold Dev.issues; decide +kernel⟩,
    ⟨su, 35, { a := 7 }, by unfold Dev.issues; decide +kernel⟩⟩

theorem witness_Scalars :
    (∃ (s : State) (h : Nat) (w : XFields), s.dev.issues h .sadd w) ∧
    (∃ (s : State) (h : Nat) (w : XFields), s.dev.issues h .scalSsub w) ∧
    (∃ (s : State) (h : Nat) (w : XFields), s.dev.issues h .smul w) ∧
    (∃ (s : State) (h : Nat) (w : XFields), s.dev.issues h .sand w) ∧
    (∃ (s : State) (h : Nat) (w : XFields), s.dev.issues h .sor w) ∧
    (∃ (s : State) (h : Nat) (w : XFields), s.dev.issues h .sxor w) ∧
    (∃ (s : State) (h : Nat) (w : XFields), s.dev.issues h .sshl w) ∧
    (∃ (s : State) (h : Nat) (w : XFields), s.dev.issues h .sshr w) ∧
    (∃ (s : State) (h : Nat) (w : XFields), s.dev.issues h .smov w) ∧
    (∃ (s : State) (h : Nat) (w : XFields), s.dev.issues h .slt w) ∧
    (∃ (s : State) (h : Nat) (w : XFields), s.dev.issues h .sltu w) ∧
    (∃ (s : State) (h : Nat) (w : XFields), s.dev.issues h .mcnt w) ∧
    (∃ (s : State) (h : Nat) (w : XFields), s.dev.issues h .sli w) ∧
    (∃ (s : State) (h : Nat) (w : XFields), s.dev.issues h .slc w) ∧
    (∃ (s : State) (h : Nat) (w : XFields), s.dev.issues h .slp w) ∧
    (∃ (s : State) (h : Nat) (w : XFields), s.dev.issues h .radd w ∧ w.xty.isFp = false) ∧
    (∃ (s : State) (h : Nat) (w : XFields), s.dev.issues h .radd w ∧ w.xty.isFp = true) ∧
    (∃ (s : State) (h : Nat) (w : XFields), s.dev.issues h .rmin w) ∧
    (∃ (s : State) (h : Nat) (w : XFields), s.dev.issues h .rmax w) := by
  exact ⟨⟨su, 35, { d := 23, a := 15, b := 7 }, by unfold Dev.issues; decide +kernel⟩,
    ⟨su, 35, { d := 23, a := 15, b := 7 }, by unfold Dev.issues; decide +kernel⟩,
    ⟨su, 35, { d := 23, a := 15, b := 7 }, by unfold Dev.issues; decide +kernel⟩,
    ⟨su, 35, { d := 23, a := 15, b := 7 }, by unfold Dev.issues; decide +kernel⟩,
    ⟨su, 35, { d := 23, a := 15, b := 7 }, by unfold Dev.issues; decide +kernel⟩,
    ⟨su, 35, { d := 23, a := 15, b := 7 }, by unfold Dev.issues; decide +kernel⟩,
    ⟨su, 35, { d := 23, a := 15, b := 7 }, by unfold Dev.issues; decide +kernel⟩,
    ⟨su, 35, { d := 23, a := 15, b := 7 }, by unfold Dev.issues; decide +kernel⟩,
    ⟨su, 35, { d := 23, a := 15 }, by unfold Dev.issues; decide +kernel⟩,
    ⟨su, 35, { d := 23, a := 15, b := 7 }, by unfold Dev.issues; decide +kernel⟩,
    ⟨su, 35, { d := 23, a := 15, b := 7 }, by unfold Dev.issues; decide +kernel⟩,
    ⟨su, 35, { d := 23, a := 7 }, by unfold Dev.issues; decide +kernel⟩,
    ⟨su, 35, { d := 4 }, by unfold Dev.issues; decide +kernel⟩,
    ⟨su, 35, { d := 4 }, by unfold Dev.issues; decide +kernel⟩,
    ⟨su, 35, { d := 4 }, by unfold Dev.issues; decide +kernel⟩,
    ⟨su, 35, { ty := 2, d := 1, a := 5 }, by unfold Dev.issues; decide +kernel⟩,
    ⟨su, 35, { ty := 10, d := 1, a := 5 }, by unfold Dev.issues; decide +kernel⟩,
    ⟨su, 35, { ty := 2, d := 1, a := 5 }, by unfold Dev.issues; decide +kernel⟩,
    ⟨su, 35, { ty := 2, d := 1, a := 5 }, by unfold Dev.issues; decide +kernel⟩⟩

theorem witness_LoadsAndStores :
    (∃ (s : State) (h : Nat) (w : XFields) (i : Nat), s.dev.issues h .vld w ∧ i < 128 ∧ w.xty ≠ .str) ∧
    (∃ (s : State) (h : Nat) (w : XFields) (i : Nat), s.dev.issues h .vld w ∧ i < 128 ∧ w.xty = .str ∧ (s.dev.hearth h).exu.heap.length < 2 ^ 63) ∧
    (∃ (s : State) (h : Nat) (w : XFields) (c : XSlot), s.dev.issues h .vld w ∧ (s.dev.hearth h).exu.slot w.imm.toNat = some c ∧ w.xty ≠ .str) ∧
    (∃ (s : State) (h : Nat) (w : XFields) (i : Nat), s.dev.issues h .vbc w ∧ i < 128 ∧ w.xty ≠ .str) ∧
    (∃ (s : State) (h : Nat) (w : XFields) (i : Nat), s.dev.issues h .vbc w ∧ i < 128 ∧ w.xty = .str ∧ (s.dev.hearth h).exu.heap.length < 2 ^ 63) ∧
    (∃ (s : State) (h : Nat) (w : XFields) (i : Nat), s.dev.issues h .vbp w ∧ i < 128 ∧ w.xty ≠ .str) ∧
    (∃ (s : State) (h : Nat) (w : XFields) (i : Nat), s.dev.issues h .vbp w ∧ i < 128 ∧ w.xty = .str ∧ (s.dev.hearth h).exu.heap.length < 2 ^ 63) ∧
    (∃ (s : State) (h : Nat) (w : XFields) (i : Nat), s.dev.issues h .vldf w ∧ i < 128) ∧
    (∃ (s : State) (h : Nat) (w : XFields) (i f : Nat), s.dev.issues h .vld2 w ∧ i < 128 ∧ f < 2) ∧
    (∃ (s : State) (h : Nat) (w : XFields) (i f : Nat), s.dev.issues h .vld3 w ∧ i < 128 ∧ f < 3) ∧
    (∃ (s : State) (h : Nat) (w : XFields) (i f : Nat), s.dev.issues h .vld4 w ∧ i < 128 ∧ f < 4) ∧
    (∃ (s : State) (h : Nat) (w : XFields) (i : Nat), s.dev.issues h .vrow w ∧ i < 128) ∧
    (∃ (s : State) (h : Nat) (w : XFields) (i : Nat), s.dev.issues h .vgath w ∧ i < 128) ∧
    (∃ (s : State) (h : Nat) (w : XFields), s.dev.issues h .vscat w) ∧
    (∃ (s : State) (h : Nat) (w : XFields) (i : Nat), s.dev.issues h .vlds w ∧ i < 128 ∧ (let x := (s.dev.hearth h).exu; (x.sGet w.a.toNat).toNat % (4 * w.xty.group) = 0 ∧ (x.sGet w.a.toNat).toNat + 512 * w.xty.group ≤ 65536)) ∧
    (∃ (s : State) (h : Nat) (w : XFields) (i : Nat), s.dev.issues h .vsts w ∧ i < 128 ∧ (let x := (s.dev.hearth h).exu; (x.sGet w.a.toNat).toNat % (4 * w.xty.group) = 0 ∧ (x.sGet w.a.toNat).toNat + 512 * w.xty.group ≤ 65536)) ∧
    (∃ (s : State) (h : Nat) (w : XFields) (i : Nat), s.dev.issues h .vlds w ∧ i < 128 ∧ (let x := (s.dev.hearth h).exu; ¬ ((x.sGet w.a.toNat).toNat % (4 * w.xty.group) = 0 ∧ (x.sGet w.a.toNat).toNat + 512 * w.xty.group ≤ 65536))) ∧
    (∃ (s : State) (h : Nat) (w : XFields) (i : Nat), s.dev.issues h .vsts w ∧ i < 128 ∧ (let x := (s.dev.hearth h).exu; ¬ ((x.sGet w.a.toNat).toNat % (4 * w.xty.group) = 0 ∧ (x.sGet w.a.toNat).toNat + 512 * w.xty.group ≤ 65536))) ∧
    (∃ (s : State) (h : Nat) (w : XFields) (i : Nat), s.dev.issues h .outV w ∧ i < 128) ∧
    (∃ (s : State) (h : Nat) (w : XFields) (i : Nat), s.dev.issues h .mout w ∧ i < 128) := by
  exact ⟨⟨su, 35, { ty := 10, d := 4 }, 127, by unfold Dev.issues; decide +kernel⟩,
    ⟨su, 35, { ty := 14, d := 2 }, 127, by unfold Dev.issues; decide +kernel⟩,
    ⟨st (onX xs2), 35, { ty := 2, d := 1, imm := 1 }, { ty := { ty := .int32 }, vals := [some [1, 0, 0, 0]] }, by unfold Dev.issues; decide +kernel⟩,
    ⟨su, 35, { ty := 10, d := 4 }, 127, by unfold Dev.issues; decide +kernel⟩,
    ⟨su, 35, { ty := 14, d := 2 }, 127, by unfold Dev.issues; decide +kernel⟩,
    ⟨su, 35, { ty := 10, d := 4 }, 127, by unfold Dev.issues; decide +kernel⟩,
    ⟨su, 35, { ty := 14, d := 2 }, 127, by unfold Dev.issues; decide +kernel⟩,
    ⟨su, 35, { ty := 6, d := 8, imm := 3 }, 127, by unfold Dev.issues; decide +kernel⟩,
    ⟨su, 35, { ty := 7, d := 4, imm := 1 }, 127, 1, by unfold Dev.issues; decide +kernel⟩,
    ⟨su, 35, { ty := 7, d := 4, imm := 1 }, 127, 2, by unfold Dev.issues; decide +kernel⟩,
    ⟨su, 35, { ty := 7, d := 4, imm := 1 }, 127, 3, by unfold Dev.issues; decide +kernel⟩,
    ⟨su, 35, { ty := 7, d := 4 }, 127, by unfold Dev.issues; decide +kernel⟩,
    ⟨su, 35, { ty := 10, d := 4, a := 4, mod := 1 }, 127, by unfold Dev.issues; decide +kernel⟩,
    ⟨su, 35, { ty := 2, a := 5, b := 5 }, by unfold Dev.issues; decide +kernel⟩,
    ⟨st (onX { sr := [(25, 65024)] }), 35, { ty := 2, d := 1, a := 25 }, 127, by unfold Dev.issues; decide +kernel⟩,
    ⟨st (onX { sr := [(25, 65024)] }), 35, { ty := 2, a := 25, b := 5 }, 127, by unfold Dev.issues; decide +kernel⟩,
    ⟨st (onX { sr := [(25, 65025)] }), 35, { ty := 2, d := 1, a := 25 }, 127, by unfold Dev.issues; decide +kernel⟩,
    ⟨st (onX { sr := [(25, 65028)] }), 35, { ty := 2, a := 25, b := 5 }, 127, by unfold Dev.issues; decide +kernel⟩,
    ⟨su, 35, { ty := 10, a := 4 }, 127, by unfold Dev.issues; decide +kernel⟩,
    ⟨su, 35, { a := 4, b := 4 }, 127, by unfold Dev.issues; decide +kernel⟩⟩

theorem witness_StringsAndPatterns :
    (∃ (s : State) (h : Nat) (w : XFields) (i : Nat), s.dev.issues h .scmp w ∧ i < 128) ∧
    (∃ (s : State) (h : Nat) (w : XFields) (i : Nat), s.dev.issues h .spre w ∧ i < 128) ∧
    (∃ (s : State) (h : Nat) (w : XFields) (i : Nat), s.dev.issues h .ssuf w ∧ i < 128) ∧
    (∃ (s : State) (h : Nat) (w : XFields) (i : Nat), s.dev.issues h .sfind w ∧ i < 128) ∧
    (∃ (s : State) (h : Nat) (w : XFields) (i : Nat), s.dev.issues h .slen w ∧ i < 128) ∧
    (∃ (s : State) (h : Nat) (w : XFields) (i : Nat), s.dev.issues h .strSsub w ∧ i < 128 ∧ (s.dev.hearth h).exu.heap.length < 2 ^ 63) ∧
    (∃ (s : State) (h : Nat) (w : XFields) (i : Nat), s.dev.issues h .rpm w ∧ i < 128) ∧
    (∃ (s : State) (h : Nat) (w : XFields) (i : Nat), s.dev.issues h .rpx w ∧ i < 128 ∧ (s.dev.hearth h).exu.heap.length < 2 ^ 63) ∧
    (∃ (s : State) (h : Nat) (w : XFields) (i : Nat), s.dev.issues h .cml w ∧ i < 128 ∧ (let x := (s.dev.hearth h).exu; ∀ j, j < 128 → x.runs w j = true → x.valid w.a.toNat j = true → ∀ k ∈ x.cmt.winners w.imm.toNat (x.lane w.xty w.a.toNat j), falseHit (x.ctx.cares.getD w.imm.toNat {}) (x.lane w.xty w.a.toNat j) k = false)) ∧
    (∃ (s : State) (h : Nat) (w : XFields), s.dev.issues h .cml w ∧ (cmlLanes (s.dev.hearth h).exu w ((s.dev.hearth h).exu.execMask w) 128).2.2.2 = true ∧ s.dev.recovers 1 h = false ∧ (recent s.dev.opSec (s.dev.hearth h).unresAt).length < 2) := by
  exact ⟨⟨su, 35, { ty := 14, d := 3, a := 14, b := 14 }, 127, by unfold Dev.issues; decide +kernel⟩,
    ⟨su, 35, { ty := 14, d := 7, a := 14, b := 14 }, 127, by unfold Dev.issues; decide +kernel⟩,
    ⟨su, 35, { ty := 14, d := 7, a := 14, b := 14 }, 127, by unfold Dev.issues; decide +kernel⟩,
    ⟨su, 35, { ty := 14, d := 14, a := 14, b := 14 }, 127, by unfold Dev.issues; decide +kernel⟩,
    ⟨su, 35, { ty := 14, d := 14, a := 14 }, 127, by unfold Dev.issues; decide +kernel⟩,
    ⟨su, 35, { ty := 14, d := 14, a := 14, b := 14, c := 12 }, 127, by unfold Dev.issues; decide +kernel⟩,
    ⟨su, 35, { ty := 14, d := 2, a := 12 }, 127, by unfold Dev.issues; decide +kernel⟩,
    ⟨su, 35, { ty := 14, d := 12, a := 12 }, 127, by unfold Dev.issues; decide +kernel⟩,
    ⟨su, 35, { ty := 10, d := 4, a := 4 }, 127, by unfold Dev.issues; decide +kernel⟩,
    ⟨st (onX xcm), 35, { ty := 10, d := 4, a := 4 }, by unfold Dev.issues; decide +kernel⟩⟩

theorem witness_StepTakesFront :
    (∃ (s : State) (c : Instr) (r : List Instr), s.pending = c :: r) ∧ (∃ s : State, s.pending = []) ∧
    (∃ (c : Instr) (s s' : State), exec c s = .next s') := by
  exact ⟨⟨{ pending := [.powerLoss 0, .powerLoss 1] }, .powerLoss 0, [.powerLoss 1], rfl⟩, ⟨{}, rfl⟩, ⟨.xNop 36 {} none, {}, _, by rfl⟩⟩
theorem witness_WaitingStayWellFormed :
    ∃ s s' : State, (∀ c ∈ s.pending, c.wf = true) ∧ step s = .next s' := by
  exact ⟨{ pending := [.xNop 35 {} none, .powerLoss 0] }, _, by decide +kernel, by unfold step; rfl⟩
theorem witness_WordsEncodeAndDecode : ∃ x op w, xDecode x = some (op, w) := by
  exact ⟨0x3110184400000000, .sub, { ty := 1, d := 3, a := 1, b := 2 }, by decide +kernel⟩
theorem witness_UnitTables :
    ∃ (s : State) (op : XOp) (h : Nat) (w : XFields) (flt : Option XFault) (r : List Instr), s.pending = op.cmd h w flt :: r ∧
      (∀ f, flt = some f → f.cause ≠ 1) ∧ s.dev.recovers 1 h = false ∧ (recent s.dev.opSec (s.dev.hearth h).unresAt).length < 2 ∧
      (∀ k, (s.dev.hearth k).exu.wf = true) ∧ ∃ s', step s = .next s' := by
  refine ⟨{ pending := [.xNop 35 {} none], dev := onX {} }, .nop, 35, {}, none, [], rfl, by simp, by decide +kernel, by decide +kernel, fun k => ?_, ?_⟩
  · by_cases hk : k = 35
    · subst hk; decide +kernel
    · have h0 : (onX {}).hearth k = {} := by simp only [onX, on, Dev.hearth, tabGet]; split <;> first | exact absurd ‹35 = k›.symm hk | rfl
      show ((onX {}).hearth k).exu.wf = true
      rw [h0]; decide +kernel
  · exact ⟨_, by unfold step; rfl⟩
theorem witness_NanResults :
    (∃ f ∈ [fmtF16, fmtBF16, fmtF32, fmtF64], ∃ (md : RMode) (ftz : Bool) (x y : Nat), f.isNaN (f.mul md ftz x y).1 = true) ∧
    (∃ f ∈ [fmtF16, fmtBF16, fmtF32, fmtF64], ∃ x : Nat, f.decode (x % 2 ^ f.bits) = .nan true) ∧
    (∃ f ∈ [fmtF16, fmtBF16, fmtF32, fmtF64], ∃ x y z : Nat, f.decode (x % 2 ^ f.bits) = .nan false ∧ f.isNaN y = false ∧ f.isNaN z = false) := by
  exact ⟨⟨fmtF32, by simp, .tiesToEven, false, 0x7F800000, 0, by decide +kernel⟩, ⟨fmtF64, by simp, 0x7FF0000000000001, by decide +kernel⟩,
    ⟨fmtF16, by simp, 0x7FFF, 0, 0, by decide +kernel⟩⟩
theorem witness_ResetState : ∃ h : Nat, h < 36 := ⟨35, by decide⟩

end Sys2Proof.Tests
end

/-!
PROOF. Scalars and reductions: the instructions that write a scalar register (R226, R256): one rule for all of them, the row that RMIN and
RMAX pick (R243), and the statement of scalars and reductions assembled from both.
-/
namespace Sys2Proof.Machine

/-! ### An instruction that writes a scalar -/

/-- The command that issues an operation runs it on the hearth's unit. -/
theorem exec_cmd (op : XOp) (h : Nat) (w : XFields) (flt : Option XFault) (s : State) : exec (op.cmd h w flt) s = s.unit h op w flt := by
  cases op <;> rfl

/-- Neither END nor a branch names a scalar to write (Table 7.5): such an instruction goes on to the next word. -/
theorem Exu.retire_of_writes_scalar (x : Exu) (op : XOp) (w : XFields) (hd : op.shape.d = .s) (hu : (opRun op x w).unres = false) :
    x.retire op w = (opRun op x w).step := by
  unfold Exu.retire
  split
  case h_5 => simp [hu]
  all_goals cases hd

/-- A word whose operation writes a scalar names one of S0 to S27 (R226, R234). -/
theorem dest_lt_of_xWordOk {op : XOp} {w : XFields} (hw : xWordOk op w = true) (hd : op.shape.d = .s) : w.d.toNat < 28 := by
  unfold xWordOk xRegsOk at hw
  simp only [hd, Bool.and_eq_true] at hw
  obtain ⟨⟨_, _, hs⟩, _⟩ := hw
  simpa using hs

@[simp] theorem Exu.sSet_unres (x : Exu) (r : Nat) (v : Word64) : (x.sSet r v).unres = x.unres := by unfold Exu.sSet; split <;> rfl
@[simp] theorem Exu.sSet_pend (x : Exu) (r : Nat) (v : Word64) : (x.sSet r v).pend = x.pend := by unfold Exu.sSet; split <;> rfl

/-- An instruction that does nothing but write a scalar: S0 discards the value, and everything else is as it was. -/
theorem scalar_of {s : State} {h : Nat} {op : XOp} {w : XFields} {v : Word64} (hi : s.dev.issues h op w) (hd : op.shape.d = .s) (g : Exu → Word64)
    (hf : ∀ x : Exu, opRun op x w = x.sSet w.d.toNat (g x)) (hv : g ((s.dev.hearth h).exu.found (s.dev.narrowOnly h) op) = v) :
    Scalar (op.cmd h w none) h w s v := by
  refine retires_step _ s h op w _ hi (exec_cmd op h w none s) (opRun op · w)
    (fun x hu _ => x.retire_of_writes_scalar op w hd (by simp [hf, hu])) (fun x => by simp [hf]) ?_
  obtain ⟨hp, _, _⟩ := Dev.issues_unit hi
  obtain ⟨hsame, hother, hframe⟩ := ((s.dev.hearth h).exu.found (s.dev.narrowOnly h) op).sSet_spec w.d.toNat v (dest_lt_of_xWordOk hi.1 hd)
  simp only [hf, hv]
  refine ⟨?_, hother, ?_⟩
  · exact hsame.trans (by simp [BitVec.toNat_eq])
  · rw [hframe]
    simp only [Exu.step, Exu.moved, Exu.found, hp]

/-- An instruction of two scalars. -/
theorem scalar_of_two {s : State} {h : Nat} {op : XOp} {w : XFields} (hi : s.dev.issues h op w) (hd : op.shape.d = .s) (f : Word64 → Word64 → Word64)
    (hf : ∀ x : Exu, opRun op x w = x.scal2 w f) :
    Scalar (op.cmd h w none) h w s (f ((s.dev.hearth h).exu.sGet w.a.toNat) ((s.dev.hearth h).exu.sGet w.b.toNat)) :=
  scalar_of hi hd (fun x => f (x.sGet w.a.toNat) (x.sGet w.b.toNat)) hf rfl

/-! ### The values of SLT and SLTU, MCNT, SLC and SLP -/

theorem opSlt_eq (x : Exu) (w : XFields) :
    opSlt x w = x.sSet w.d.toNat (if (x.sGet w.a.toNat).toInt < (x.sGet w.b.toNat).toInt then 1 else 0) := by
  simp [opSlt, Exu.scal2, BitVec.slt]

theorem opSltu_eq (x : Exu) (w : XFields) :
    opSltu x w = x.sSet w.d.toNat (if (x.sGet w.a.toNat).toNat < (x.sGet w.b.toNat).toNat then 1 else 0) := by
  simp [opSltu, Exu.scal2, BitVec.ult]

theorem popBelow_eq_countP (m : Mask) (n : Nat) : popBelow m n = (List.range n).countP (fun i => m.getLsbD i) := by
  induction n with
  | zero => rfl
  | succ n ih => simp [popBelow, ih, List.range_succ, List.countP_append, List.countP_singleton]

theorem opMcnt_eq (x : Exu) (w : XFields) :
    opMcnt x w = x.sSet w.d.toNat (BitVec.ofNat 64 ((List.range 128).countP (fun i => (x.mGet w.a.toNat).getLsbD i))) := by
  rw [opMcnt, popCount, popBelow_eq_countP]

/-- The scalar of a constant or parameter (R234, rule 5); one that is not there reads as 0. -/
def operandScalar : Option (SlotTy × Val) → Word64
  | some (t, v) => scalarOf t v
  | none => 0

theorem opSlc_eq (x : Exu) (w : XFields) : opSlc x w = x.sSet w.d.toNat (operandScalar (x.operand 0 w.imm.toNat)) := by
  unfold opSlc; cases x.operand 0 w.imm.toNat <;> rfl
theorem opSlp_eq (x : Exu) (w : XFields) : opSlp x w = x.sSet w.d.toNat (operandScalar (x.operand 1 w.imm.toNat)) := by
  unfold opSlp; cases x.operand 1 w.imm.toNat <;> rfl

/-! ### RADD -/

/-- The integer sum that RADD wraps: 0 where no row qualifies. -/
theorem opRadd_int (x : Exu) (w : XFields) (ht : w.xty.isFp = false) :
    opRadd x w = x.sSet w.d.toNat (BitVec.ofInt 64 ((x.redRows w).map (fun i => w.xty.toInt (x.lane w.xty w.a.toNat i))).sum) := by
  unfold opRadd
  cases hr : x.redRows w with
  | nil => simp
  | cons i r => simp [ht, List.sum_eq_foldl, List.foldl_map]

/-- The floating-point sum of RADD: 0 where no row qualifies, else the exact sum rounded once to binary64. -/
theorem opRadd_fp (x : Exu) (w : XFields) (ht : w.xty.isFp = true) :
    opRadd x w = x.sSet w.d.toNat (if x.redRows w = [] then 0 else
      BitVec.ofNat 64 (((x.redRows w).foldl (fun k i => k.add w.xty.ffmt x.ctx.ftz (x.lane w.xty w.a.toNat i)) ({} : FSum)).result
        fmtF64 x.ctx.mode x.ctx.ftz).1) := by
  unfold opRadd
  simp [ht]

/-! ### RMIN and RMAX -/

/-- The integer whose order `minBefore` is, for the types that a reduction accepts. -/
def laneKey (t : XTy) (n : Nat) : Int := if t.isFp then t.ffmt.orderKey n else t.toInt n

/-- The order of MIN and MAX is that of a key, so it is total: the reason why a reduction's pick is an extremum of all its rows. -/
theorem minBefore_eq_decide_laneKey {t : XTy} (ht : t.narrow = true) (a b : Nat) : minBefore t a b = decide (laneKey t a < laneKey t b) := by
  cases t
  case str | d128 | pdec => cases ht
  case f16 | bf16 | f32 | f64 => simp [minBefore, laneKey, XTy.isFp]
  all_goals rfl

/-- Row j takes the place of row i in a reduction. -/
def Exu.displaces (x : Exu) (t : XTy) (a : Nat) (greatest : Bool) (j i : Nat) : Bool :=
  if greatest then minBefore t (x.lane t a i) (x.lane t a j) else minBefore t (x.lane t a j) (x.lane t a i)

/-- The key by which a reduction seeks the least row: for RMAX the negated key. -/
def Exu.pickKey (x : Exu) (t : XTy) (a : Nat) (greatest : Bool) (i : Nat) : Int :=
  if greatest then -laneKey t (x.lane t a i) else laneKey t (x.lane t a i)

theorem Exu.displaces_eq_false_iff (x : Exu) {t : XTy} (ht : t.narrow = true) (a : Nat) (greatest : Bool) (j i : Nat) :
    x.displaces t a greatest j i = false ↔ x.pickKey t a greatest i ≤ x.pickKey t a greatest j := by
  cases greatest <;> simp [Exu.displaces, Exu.pickKey, minBefore_eq_decide_laneKey ht]

theorem pickLane_cons_of_none {x : Exu} {t : XTy} {a i : Nat} {greatest : Bool} {r : List Nat} (h : pickLane x t a greatest r = none) :
    pickLane x t a greatest (i :: r) = some i := by
  simp [pickLane, h]

theorem pickLane_cons_of_some {x : Exu} {t : XTy} {a i j : Nat} {greatest : Bool} {r : List Nat} (h : pickLane x t a greatest r = some j) :
    pickLane x t a greatest (i :: r) = if x.displaces t a greatest j i then some j else some i := by
  simp only [pickLane, h]; rfl

/-- Of the rows it is given, `pickLane` picks one that no other displaces. -/
theorem pickLane_cons_spec (x : Exu) {t : XTy} (ht : t.narrow = true) (a : Nat) (greatest : Bool) (i : Nat) (r : List Nat) :
    ∃ k ∈ i :: r, pickLane x t a greatest (i :: r) = some k ∧ ∀ j ∈ i :: r, x.displaces t a greatest j k = false := by
  simp only [Exu.displaces_eq_false_iff x ht]
  induction r generalizing i with
  | nil => exact ⟨i, by simp, pickLane_cons_of_none rfl, by simp⟩
  | cons i' r ih =>
    obtain ⟨k, hk, hpick, hleast⟩ := ih i'
    rw [pickLane_cons_of_some hpick]
    cases hd : x.displaces t a greatest k i
    case false =>
      rw [Exu.displaces_eq_false_iff x ht] at hd
      exact ⟨i, by simp, rfl, List.forall_mem_cons.2 ⟨le_rfl, fun j hj => hd.trans (hleast j hj)⟩⟩
    case true =>
      have hle : x.pickKey t a greatest k ≤ x.pickKey t a greatest i := by
        have := mt (x.displaces_eq_false_iff ht a greatest k i).2 (by simp [hd])
        omega
      exact ⟨k, List.mem_cons_of_mem _ hk, rfl, List.forall_mem_cons.2 ⟨hle, hleast⟩⟩

/-- The value a reduction by key order writes (R243). -/
def Exu.picked (x : Exu) (w : XFields) (greatest : Bool) : Word64 :=
  match pickLane x w.xty w.a.toNat greatest (x.redRows w) with
  | some i => BitVec.ofNat 64 (x.lane w.xty w.a.toNat i % 2 ^ w.xty.bits)
  | none => 0

theorem Exu.redPick_eq (x : Exu) (w : XFields) (greatest : Bool) : x.redPick w greatest = x.sSet w.d.toNat (x.picked w greatest) := rfl

theorem Exu.picked_of_no_row {x : Exu} {w : XFields} (greatest : Bool) (hr : x.redRows w = []) : x.picked w greatest = 0 := by
  simp [Exu.picked, hr, pickLane]

theorem Exu.picked_of_rows {x : Exu} {w : XFields} (greatest : Bool) (ht : w.xty.narrow = true) (hr : x.redRows w ≠ []) :
    ∃ i ∈ x.redRows w, x.picked w greatest = BitVec.ofNat 64 (x.lane w.xty w.a.toNat i % 2 ^ w.xty.bits) ∧
      ∀ j ∈ x.redRows w, x.displaces w.xty w.a.toNat greatest j i = false := by
  obtain ⟨i₀, r, hcons⟩ := List.exists_cons_of_ne_nil hr
  obtain ⟨i, hi, hpick, hleast⟩ := pickLane_cons_spec x ht w.a.toNat greatest i₀ r
  rw [hcons]
  exact ⟨i, hi, by simp [Exu.picked, hcons, hpick], hleast⟩

/-- A well-formed word of an operation with a type field names a type that the operation accepts. -/
theorem xAccepts_xty {op : XOp} {w : XFields} (hw : xWordOk op w = true) (ht : op.shape.ty = true) : xAccepts op w.xty = true := by
  unfold xWordOk at hw
  simp only [ht, Bool.and_eq_true] at hw
  obtain ⟨_, hacc⟩ := hw
  unfold XFields.xty
  cases hc : XTy.ofCode w.ty.toNat <;> simp_all

/-- A pick reads the lanes alone. -/
theorem pickLane_congr {x y : Exu} {t : XTy} {a : Nat} (h : y.lane t a = x.lane t a) (greatest : Bool) (l : List Nat) :
    pickLane y t a greatest l = pickLane x t a greatest l := by
  induction l with
  | nil => rfl
  | cons i r ih => rw [pickLane, pickLane, ih, h]

/-- The issue of an instruction moves only the wide unit's power state, which no pick reads. -/
theorem Exu.picked_found (x : Exu) (no : Bool) (op : XOp) (w : XFields) (greatest : Bool) : (x.found no op).picked w greatest = x.picked w greatest := by
  unfold Exu.picked
  rw [pickLane_congr (show (x.found no op).lane w.xty w.a.toNat = x.lane w.xty w.a.toNat from rfl)]
  rfl

/-- A reduction by key order writes the value of the row that it picks. -/
theorem scalar_of_redPick {s : State} {h : Nat} {op : XOp} {w : XFields} (hi : s.dev.issues h op w) (hd : op.shape.d = .s) (greatest : Bool)
    (hf : ∀ x : Exu, opRun op x w = x.redPick w greatest) : Scalar (op.cmd h w none) h w s ((s.dev.hearth h).exu.picked w greatest) :=
  scalar_of hi hd (fun x => x.picked w greatest) (fun x => (hf x).trans (x.redPick_eq w greatest)) (Exu.picked_found ..)

/-! ### The statement -/

/-- Settles O51: each instruction is one use of `scalar_of` with the value that the model's operation gives. -/
theorem scalars : Obligations.Scalars := by
  unfold Obligations.Scalars
  refine ⟨fun s h w hi => scalar_of_two hi rfl (· + ·) (fun _ => rfl),
    fun s h w hi => scalar_of_two hi rfl (· - ·) (fun _ => rfl),
    fun s h w hi => scalar_of_two hi rfl (· * ·) (fun _ => rfl),
    fun s h w hi => scalar_of_two hi rfl (· &&& ·) (fun _ => rfl),
    fun s h w hi => scalar_of_two hi rfl (· ||| ·) (fun _ => rfl),
    fun s h w hi => scalar_of_two hi rfl (· ^^^ ·) (fun _ => rfl),
    fun s h w hi => scalar_of_two hi rfl (fun a b => if 64 ≤ b.toNat then 0 else a <<< b.toNat) (fun _ => rfl),
    fun s h w hi => scalar_of_two hi rfl (fun a b => if 64 ≤ b.toNat then 0 else a >>> b.toNat) (fun _ => rfl),
    fun s h w hi => scalar_of hi rfl (fun x => x.sGet w.a.toNat) (fun _ => rfl) rfl,
    fun s h w hi => scalar_of hi rfl _ (opSlt_eq · w) rfl,
    fun s h w hi => scalar_of hi rfl _ (opSltu_eq · w) rfl,
    fun s h w hi => scalar_of hi rfl _ (opMcnt_eq · w) rfl,
    fun s h w hi => scalar_of hi rfl (fun _ => w.imm.signExtend 64) (fun _ => rfl) rfl,
    fun s h w hi => ?slc, fun s h w hi => ?slp,
    fun s h w hi ht => scalar_of hi rfl _ (opRadd_int · w ht) rfl,
    fun s h w hi ht => scalar_of hi rfl _ (opRadd_fp · w ht) rfl,
    fun s h w hi => ?rmin, fun s h w hi => ?rmax⟩
  case slc =>
    refine scalar_of hi rfl (fun x => operandScalar (x.operand 0 w.imm.toNat)) (opSlc_eq · w) ?_
    change operandScalar ((s.dev.hearth h).exu.operand 0 w.imm.toNat) = _
    rcases (s.dev.hearth h).exu.operand 0 w.imm.toNat with _ | ⟨t, _ | b⟩ <;> rfl
  case slp =>
    refine scalar_of hi rfl (fun x => operandScalar (x.operand 1 w.imm.toNat)) (opSlp_eq · w) ?_
    change operandScalar ((s.dev.hearth h).exu.operand 1 w.imm.toNat) = _
    rcases (s.dev.hearth h).exu.operand 1 w.imm.toNat with _ | ⟨t, _ | b⟩ <;> rfl
  case rmin =>
    exact ⟨_, scalar_of_redPick hi rfl false (fun _ => rfl), Exu.picked_of_no_row false, Exu.picked_of_rows false (xAccepts_xty hi.1 rfl)⟩
  case rmax =>
    exact ⟨_, scalar_of_redPick hi rfl true (fun _ => rfl), Exu.picked_of_no_row true, Exu.picked_of_rows true (xAccepts_xty hi.1 rfl)⟩

end Sys2Proof.Machine

/-!
PROOF. Integer lanes: the instructions that write a group of lanes (R227, R229, R251): one rule for those that write one group, one for DIVREM,
which writes two, and the statement of integer lanes assembled from both.
-/
namespace Sys2Proof.Machine

/-! ### An instruction that writes a group of lanes -/

/-- Neither END nor a branch names a group to write (Table 7.5): such an instruction goes on to the next word. -/
theorem Exu.retire_of_writes_group (x : Exu) (op : XOp) (w : XFields) (hd : op.shape.d = .v) (hu : (opRun op x w).unres = false) :
    x.retire op w = (opRun op x w).step := by
  unfold Exu.retire
  split
  case h_5 => simp [hu]
  all_goals cases hd

/-- The lane functions of the model and of the statements give the same row: a null where an operand is null (R229). -/
theorem Exu.bin_eq_two (x : Exu) (w : XFields) (t : XTy) (f : Nat → Nat → LaneOut) (i : Nat) :
    x.bin t w.a.toNat w.b.toNat f i = x.two w t i f := by
  simp only [Exu.bin, Exu.two, Bool.and_eq_true]; rfl

section
variable {s : State} {h : Nat} {op : XOp} {w : XFields} {t : XTy} {i : Nat}

/-- An instruction whose effect is one group of lanes that the power state of the wide unit does not enter. -/
theorem lane_of_vec (hi : s.dev.issues h op w) (h128 : i < 128) (hd : op.shape.d = .v) {an : Exu → XAnn} (g : Exu → Nat → LaneOut)
    (hf : ∀ x : Exu, opRun op x w = x.vec w t w.d.toNat (an x) (g x))
    (hg : g ((s.dev.hearth h).exu.found (s.dev.narrowOnly h) op) i = g (s.dev.hearth h).exu i) :
    Lane (op.cmd h w none) h w s t i (g (s.dev.hearth h).exu i) :=
  lane_of _ s h op w t i _ hi h128 (exec_cmd op h w none s) an g hf
    (fun x hu _ => x.retire_of_writes_group op w hd (by rw [hf]; exact hu)) hg

/-- An instruction of two groups. -/
theorem lane_of_two (hi : s.dev.issues h op w) (h128 : i < 128) (hd : op.shape.d = .v) {an : Exu → XAnn} {u : XTy} {f : Nat → Nat → LaneOut}
    (hf : ∀ x : Exu, opRun op x w = x.vec w t w.d.toNat (an x) (x.bin u w.a.toNat w.b.toNat f)) :
    Lane (op.cmd h w none) h w s t i ((s.dev.hearth h).exu.two w u i f) :=
  Exu.bin_eq_two _ w u f i ▸ lane_of_vec hi h128 hd (fun x => x.bin u w.a.toNat w.b.toNat f) hf rfl

/-- An instruction of one group. -/
theorem lane_of_one (hi : s.dev.issues h op w) (h128 : i < 128) (hd : op.shape.d = .v) {an : Exu → XAnn} {u : XTy} {f : Nat → LaneOut}
    (hf : ∀ x : Exu, opRun op x w = x.vec w t w.d.toNat (an x) (x.un u w.a.toNat f)) :
    Lane (op.cmd h w none) h w s t i ((s.dev.hearth h).exu.one w u i f) :=
  lane_of_vec hi h128 hd (fun x => x.un u w.a.toNat f) hf rfl

end

/-! ### Shift counts (R233) -/

theorem wrapNat_ofNat (n x : Nat) : wrapNat n (Int.ofNat x) = x % 2 ^ n := rfl

/-- A lane read as a signed number is still the lane modulo 2^n. -/
theorem wrapNat_signed (n x : Nat) : wrapNat n (signed n x) = x % 2 ^ n := by
  unfold signed
  split
  · rw [wrapNat_ofNat, Nat.mod_mod]
  · rw [wrapNat, Int.sub_emod_right]
    exact (wrapNat_ofNat n _).trans (Nat.mod_mod x (2 ^ n))

theorem shiftCount_toInt (t : XTy) (b : Nat) : shiftCount t (t.toInt b) = b % 2 ^ t.bits := by
  unfold shiftCount XTy.toInt
  split
  · exact wrapNat_signed t.bits b
  · exact (wrapNat_ofNat t.bits _).trans (Nat.mod_mod b (2 ^ t.bits))

theorem opShl_eq (x : Exu) (w : XFields) :
    opShl x w = x.vec w w.xty w.d.toNat {} (x.bin w.xty w.a.toNat w.b.toNat (fun a b =>
      .ok (if w.xty.bits ≤ b % 2 ^ w.xty.bits then 0 else w.xty.ofInt (w.xty.toInt a * Int.ofNat (2 ^ (b % 2 ^ w.xty.bits)))))) := by
  simp only [opShl, Exu.int2, shiftCount_toInt]

theorem opShr_eq (x : Exu) (w : XFields) :
    opShr x w = x.vec w w.xty w.d.toNat {} (x.bin w.xty w.a.toNat w.b.toNat (fun a b =>
      .ok (if w.xty.bits ≤ b % 2 ^ w.xty.bits then (if w.xty.toInt a < 0 then w.xty.ofInt (-1) else 0)
        else w.xty.ofInt (w.xty.toInt a / Int.ofNat (2 ^ (b % 2 ^ w.xty.bits)))))) := by
  simp only [opShr, Exu.int2, shiftCount_toInt]

/-! ### Quotients and remainders (Table 8.2) -/

/-- What DIV gives a lane, row by row of Table 8.2. -/
theorem divRes_quotient (t : XTy) (a b : Int) :
    ({ val := t.ofInt (divRes t a b).1, valid := true, causes := (divRes t a b).2.2 } : LaneOut) =
      if b = 0 then { val := t.ofInt (if t.isSigned then -1 else t.maxInt), valid := true, causes := [0x02] }
      else if t.isSigned = true ∧ a = t.minInt ∧ b = -1 then { val := t.ofInt t.minInt, valid := true, causes := [0x03] }
      else .ok (t.ofInt (a.tdiv b)) := by
  unfold divRes
  split_ifs <;> rfl

/-- What REM gives a lane, row by row of Table 8.2. -/
theorem divRes_remainder (t : XTy) (a b : Int) :
    ({ val := t.ofInt (divRes t a b).2.1, valid := true, causes := (divRes t a b).2.2 } : LaneOut) =
      if b = 0 then { val := t.ofInt a, valid := true, causes := [0x02] }
      else if t.isSigned = true ∧ a = t.minInt ∧ b = -1 then { val := t.ofInt 0, valid := true, causes := [0x03] }
      else .ok (t.ofInt (a.tmod b)) := by
  unfold divRes
  split_ifs <;> rfl

/-! ### Dot products (R241) -/

/-- DOT8's four products, in the order of the fields. -/
theorem dotSum_four (t : XTy) (a b : Nat) :
    dotSum t a b 4 = t.toInt a * t.toInt b + t.toInt (a / 2 ^ (t.bits * 1)) * t.toInt (b / 2 ^ (t.bits * 1)) +
      t.toInt (a / 2 ^ (t.bits * 2)) * t.toInt (b / 2 ^ (t.bits * 2)) + t.toInt (a / 2 ^ (t.bits * 3)) * t.toInt (b / 2 ^ (t.bits * 3)) := by
  simp [dotSum]

/-- DOT16's two products. -/
theorem dotSum_two (t : XTy) (a b : Nat) :
    dotSum t a b 2 = t.toInt a * t.toInt b + t.toInt (a / 2 ^ (t.bits * 1)) * t.toInt (b / 2 ^ (t.bits * 1)) := by
  simp [dotSum]

/-- The row of a dot product of n fields: it reads the destination too, so a null there is a null. -/
def Exu.dotLane (x : Exu) (w : XFields) (dt : XTy) (n i : Nat) : LaneOut :=
  if x.valid w.a.toNat i = true ∧ x.valid w.b.toNat i = true ∧ x.valid w.d.toNat i = true then
    intRes dt (dt.toInt (x.lane dt w.d.toNat i) + dotSum w.xty (x.lane .u32 w.a.toNat i) (x.lane .u32 w.b.toNat i) n)
  else {}

theorem Exu.dot_eq (x : Exu) (w : XFields) (dt : XTy) (n : Nat) : x.dot w dt n = x.vec w dt w.d.toNat {} (x.dotLane w dt n) := by
  unfold Exu.dot Exu.dotLane
  simp only [Bool.and_eq_true, and_assoc]; rfl

theorem lane_of_dot {s : State} {h : Nat} {op : XOp} {w : XFields} {dt : XTy} {i : Nat} (n : Nat) (hi : s.dev.issues h op w) (h128 : i < 128)
    (hd : op.shape.d = .v) (hf : ∀ x : Exu, opRun op x w = x.dot w dt n) :
    Lane (op.cmd h w none) h w s dt i ((s.dev.hearth h).exu.dotLane w dt n i) :=
  lane_of_vec hi h128 hd (fun x => x.dotLane w dt n) (fun x => (hf x).trans (x.dot_eq w dt n)) rfl

/-! ### The order of MIN and MAX (R257, R260, R269, R274) -/

/-- What MIN and MAX pick by their order, type by type of those that they accept. -/
theorem ite_minBefore {t : XTy} (ht : t ≠ .str) (a b p q : Nat) :
    (if minBefore t a b then p else q) =
      if t.isInt then (if t.toInt a < t.toInt b then p else q)
      else if t.isFp then (if t.ffmt.orderKey a < t.ffmt.orderKey b then p else q)
      else if t = .d128 then (if signed 128 a < signed 128 b then p else q)
      else (let m := packedInt (natLE 16 a)
            let n := packedInt (natLE 16 b)
            if m < n ∨ (m = n ∧ cmpBytes (natLE 16 a) (natLE 16 b) = .lt) then p else q) := by
  cases t
  case str => exact absurd rfl ht
  case pdec =>
    have hlt : minBefore .pdec a b = true ↔ packedInt (natLE 16 a) < packedInt (natLE 16 b) ∨
        (packedInt (natLE 16 a) = packedInt (natLE 16 b) ∧ cmpBytes (natLE 16 a) (natLE 16 b) = .lt) := by
      rw [minBefore, Bool.or_eq_true, Bool.and_eq_true, decide_eq_true_iff, beq_iff_eq, beq_iff_eq]; rfl
    simp [hlt, XTy.isInt, XTy.isFp]
  all_goals simp [minBefore, XTy.isInt, XTy.isFp]

/-- MIN and MAX take no strings (R639). -/
theorem xty_ne_str {op : XOp} {w : XFields} (hw : xWordOk op w = true) (ht : op.shape.ty = true) (hs : xAccepts op .str = false) :
    w.xty ≠ .str := by
  intro he
  have := xAccepts_xty hw ht
  rw [he, hs] at this
  cases this

theorem opMin_eq {w : XFields} (ht : w.xty ≠ .str) (x : Exu) :
    opMin x w = x.vec w w.xty w.d.toNat (x.annOf w.a.toNat) (x.bin w.xty w.a.toNat w.b.toNat (fun a b => .ok (
      if w.xty.isInt then (if w.xty.toInt b < w.xty.toInt a then b else a)
      else if w.xty.isFp then (if w.xty.ffmt.orderKey b < w.xty.ffmt.orderKey a then b else a)
      else if w.xty = .d128 then (if signed 128 b < signed 128 a then b else a)
      else (let p := packedInt (natLE 16 a)
            let q := packedInt (natLE 16 b)
            if q < p ∨ (q = p ∧ cmpBytes (natLE 16 b) (natLE 16 a) = .lt) then b else a)))) := by
  simp only [opMin, ite_minBefore ht]

theorem opMax_eq {w : XFields} (ht : w.xty ≠ .str) (x : Exu) :
    opMax x w = x.vec w w.xty w.d.toNat (x.annOf w.a.toNat) (x.bin w.xty w.a.toNat w.b.toNat (fun a b => .ok (
      if w.xty.isInt then (if w.xty.toInt a < w.xty.toInt b then b else a)
      else if w.xty.isFp then (if w.xty.ffmt.orderKey a < w.xty.ffmt.orderKey b then b else a)
      else if w.xty = .d128 then (if signed 128 a < signed 128 b then b else a)
      else (let p := packedInt (natLE 16 a)
            let q := packedInt (natLE 16 b)
            if p < q ∨ (q = p ∧ cmpBytes (natLE 16 a) (natLE 16 b) = .lt) then b else a)))) := by
  simp only [opMax, ite_minBefore ht, @eq_comm Int]

/-! ### DIVREM (R259): two groups -/

/-- A group written twice: the second write decides, and a row that does not execute is as it was. -/
theorem Exu.wrote_trans {x y z : Exu} {w : XFields} {t : XTy} {d i : Nat} {o o' : LaneOut} (hxy : x.wrote y w t d i o) (hyz : y.wrote z w t d i o')
    (hr : y.runs w i = x.runs w i) : x.wrote z w t d i o' := by
  obtain ⟨hl, hv⟩ := hxy
  obtain ⟨hl', hv'⟩ := hyz
  rw [hr] at hl' hv'
  unfold Exu.wrote
  rw [hl', hv']
  split
  · exact ⟨rfl, rfl⟩
  · rename_i hn
    rw [if_neg hn] at hl hv
    exact ⟨hl, hv⟩

/-- A group outside the registers that an instruction writes keeps its rows. -/
theorem Exu.lane_of_keepsV {x y : Exu} {d e : Nat} (hk : x.keepsV y d e) {t : XTy} {c i : Nat} (hi : i < 128) (hc : c + t.group ≤ d ∨ e ≤ c) :
    y.lane t c i = x.lane t c i := by
  obtain ⟨hv, _⟩ := hk
  refine grpGet_congr _ _ _ _ _ _ fun j hj => hv _ ?_
  have hrow : (i + 1) * t.group ≤ 128 * t.group := Nat.mul_le_mul_right _ hi
  have hsucc : (i + 1) * t.group = i * t.group + t.group := by ring
  omega

theorem Exu.valid_of_keepsV {x y : Exu} {d e : Nat} (hk : x.keepsV y d e) {c i : Nat} (hc : c ≠ d) : y.valid c i = x.valid c i := by
  obtain ⟨_, htag⟩ := hk
  obtain ⟨hvld, _⟩ := htag c hc
  rw [Exu.valid, hvld, Exu.valid]

section
variable {x y z : Exu} {w : XFields} {t : XTy} {c d e i : Nat} {o : LaneOut}

/-- A write of another group after the write of a group leaves what that wrote. -/
theorem Exu.wrote_of_keepsV_after (hxy : x.wrote y w t c i o) (hyz : y.keepsV z d e) (hi : i < 128) (hc : c + t.group ≤ d ∨ e ≤ c) (hne : c ≠ d) :
    x.wrote z w t c i o := by
  unfold Exu.wrote
  rw [Exu.lane_of_keepsV hyz hi hc, Exu.valid_of_keepsV hyz hne]
  exact hxy

/-- A write of another group before the write of a group does not enter it. -/
theorem Exu.wrote_of_keepsV_before (hxy : x.keepsV y d e) (hyz : y.wrote z w t c i o) (hr : y.runs w i = x.runs w i) (hi : i < 128)
    (hc : c + t.group ≤ d ∨ e ≤ c) (hne : c ≠ d) : x.wrote z w t c i o := by
  unfold Exu.wrote at hyz
  rw [Exu.lane_of_keepsV hxy hi hc, Exu.valid_of_keepsV hxy hne, hr] at hyz
  exact hyz

/-- Two writes of one group keep the rest. -/
theorem Exu.keepsV_trans (hxy : x.keepsV y d e) (hyz : y.keepsV z d e) : x.keepsV z d e := by
  obtain ⟨hv, htag⟩ := hxy
  obtain ⟨hv', htag'⟩ := hyz
  exact ⟨fun k hk => (hv' k hk).trans (hv k hk), fun b hb => ⟨(htag' b hb).1.trans (htag b hb).1, (htag' b hb).2.trans (htag b hb).2⟩⟩

end

/-- The groups that a well-formed word writes are aligned (R227, R234). -/
theorem writes_aligned {op : XOp} {w : XFields} (hw : xWordOk op w = true) {r : Nat × XTy × Option XAnn} (hr : r ∈ xWrites op w {} none) :
    r.1 % r.2.1.group = 0 := by
  unfold xWordOk xRegsOk at hw
  simp only [Bool.and_eq_true, List.all_eq_true] at hw
  obtain ⟨⟨_, ⟨⟨_, hall⟩, _⟩, _⟩, _⟩ := hw
  obtain ⟨haligned, _⟩ := hall r hr
  simpa using haligned

/-- Two aligned groups of one type are the same or share no register. -/
theorem groups_disjoint {t : XTy} {c d : Nat} (hc : c % t.group = 0) (hd : d % t.group = 0) (hne : c ≠ d) : c + t.group ≤ d ∨ d + t.group ≤ c := by
  have hg : t.group = 1 ∨ t.group = 2 ∨ t.group = 4 := by cases t <;> simp [XTy.group]
  rcases hg with hg | hg | hg <;> rw [hg] at hc hd ⊢ <;> omega

/-- A row's quotient with the marks of the division (Table 8.2). -/
def Exu.quotLane (x : Exu) (w : XFields) (i : Nat) : LaneOut :=
  x.two w w.xty i (fun a b => let r := divRes w.xty (w.xty.toInt a) (w.xty.toInt b); { val := w.xty.ofInt r.1, valid := true, causes := r.2.2 })

/-- A row's remainder, which DIVREM marks no second time. -/
def Exu.remLane (x : Exu) (w : XFields) (i : Nat) : LaneOut :=
  x.two w w.xty i (fun a b => .ok (w.xty.ofInt (divRes w.xty (w.xty.toInt a) (w.xty.toInt b)).2.1))

theorem opDiv_eq_vec (x : Exu) (w : XFields) : opDiv x w = x.vec w w.xty w.d.toNat {} (x.quotLane w) := by
  unfold opDiv Exu.int2 Exu.quotLane
  simp only [← Exu.bin_eq_two]

/-- DIVREM is DIV, then a write of the remainders that leaves the marks of DIV. -/
theorem opDivrem_eq (x : Exu) (w : XFields) :
    opDivrem x w = { (opDiv x w).vec w w.xty w.c.toNat {} (x.remLane w) with
      err := (opDiv x w).err, ovf := (opDiv x w).ovf, recs := (opDiv x w).recs } := by
  unfold Exu.remLane
  simp only [← Exu.bin_eq_two]
  rfl

/-- What the first write of DIVREM leaves: the quotients and the marks. -/
theorem opDiv_spec (x : Exu) (w : XFields) {i : Nat} (hi : i < 128) :
    x.wrote (opDiv x w) w w.xty w.d.toNat i (x.quotLane w i) ∧ x.marked (opDiv x w) i (x.runs w i) (x.quotLane w i) ∧
      x.keepsV (opDiv x w) w.d.toNat (w.d.toNat + w.xty.group) := by
  rw [opDiv_eq_vec]
  obtain ⟨hwrote, hmarked, hkeeps, _⟩ := x.vec_spec w w.xty w.d.toNat {} (x.quotLane w) i hi _ rfl
  exact ⟨hwrote, hmarked, hkeeps⟩

/-- What the second write of DIVREM leaves: the remainders, and the marks as they were. -/
theorem opDivrem_spec (x : Exu) (w : XFields) {i : Nat} (hi : i < 128) :
    (opDiv x w).wrote (opDivrem x w) w w.xty w.c.toNat i (x.remLane w i) ∧
      (∀ o, x.marked (opDiv x w) i (x.runs w i) o → x.marked (opDivrem x w) i (x.runs w i) o) ∧
      (opDiv x w).keepsV (opDivrem x w) w.c.toNat (w.c.toNat + w.xty.group) := by
  rw [opDivrem_eq]
  obtain ⟨hwrote, _, hkeeps, _⟩ := (opDiv x w).vec_spec w w.xty w.c.toNat {} (x.remLane w) i hi _ rfl
  exact ⟨hwrote, fun o ho => Exu.marked_congr x _ _ i _ o ho rfl rfl rfl, hkeeps⟩

/-- The unit after DIVREM, at the next word. -/
def Exu.divremDone (x : Exu) (no : Bool) (w : XFields) : Exu := { (opDivrem (x.found no .divrem) w).step with rpe := 0, fixes := 0 }

/-- DIVREM changes nothing but groups, marks and records. -/
theorem Exu.divremDone_eq {x : Exu} (hp : x.pend = none) (no : Bool) (w : XFields) :
    let y := x.divremDone no w
    y = { x.moved y with v := y.v, vld := y.vld, ann := y.ann, err := y.err, ovf := y.ovf, recs := y.recs } := by
  simp only [Exu.moved, hp]
  rfl

section
variable {s : State} {h : Nat} {w : XFields} {i : Nat}

theorem retires_divrem (hi : s.dev.issues h .divrem w) {P : Exu → Prop} (hP : P ((s.dev.hearth h).exu.divremDone (s.dev.narrowOnly h) w)) :
    Retires (.xDivrem h w none) h s P :=
  retires_step _ s h .divrem w P hi rfl (opDivrem · w) (fun x hu _ => x.retire_of_writes_group .divrem w rfl hu) (fun _ => ⟨rfl, rfl⟩) hP

/-- DIVREM with two destinations: the quotient in d, the remainder in c, both from the operands as they stood (R251). -/
theorem divrem_of_ne (hi : s.dev.issues h .divrem w) (h128 : i < 128) (hcd : w.c ≠ w.d) :
    Retires (.xDivrem h w none) h s (fun y =>
      let x := (s.dev.hearth h).exu
      x.wrote y w w.xty w.d.toNat i (x.quotLane w i) ∧ x.marked y i (x.runs w i) (x.quotLane w i) ∧ x.wrote y w w.xty w.c.toNat i (x.remLane w i) ∧
      (∀ k, (k < 128 * w.d.toNat ∨ 128 * (w.d.toNat + w.xty.group) ≤ k) → (k < 128 * w.c.toNat ∨ 128 * (w.c.toNat + w.xty.group) ≤ k) →
        tabGet 0 y.v k = tabGet 0 x.v k) ∧
      (∀ b, b ≠ w.d.toNat → b ≠ w.c.toNat → tabGet 0 y.vld b = tabGet 0 x.vld b) ∧
      y = { x.moved y with v := y.v, vld := y.vld, ann := y.ann, err := y.err, ovf := y.ovf, recs := y.recs }) := by
  refine retires_divrem hi ?_
  obtain ⟨hp, _, _⟩ := Dev.issues_unit hi
  obtain ⟨hquot, hmark, hd⟩ := opDiv_spec ((s.dev.hearth h).exu.found (s.dev.narrowOnly h) .divrem) w h128
  obtain ⟨hrem, hmarks, hc⟩ := opDivrem_spec ((s.dev.hearth h).exu.found (s.dev.narrowOnly h) .divrem) w h128
  have hne : w.c.toNat ≠ w.d.toNat := fun he => hcd (BitVec.eq_of_toNat_eq he)
  have hdis : w.c.toNat + w.xty.group ≤ w.d.toNat ∨ w.d.toNat + w.xty.group ≤ w.c.toNat :=
    groups_disjoint (writes_aligned hi.1 (.tail _ (.head _))) (writes_aligned hi.1 (.head _)) hne
  have ⟨hdWords, hdTags⟩ := hd
  have ⟨hcWords, hcTags⟩ := hc
  exact ⟨Exu.wrote_of_keepsV_after hquot hc h128 hdis.symm hne.symm, hmarks _ hmark, Exu.wrote_of_keepsV_before hd hrem rfl h128 hdis hne,
    fun k hkd hkc => (hcWords k hkc).trans (hdWords k hkd), fun b hbd hbc => (hcTags b hbc).1.trans (hdTags b hbd).1, Exu.divremDone_eq hp _ w⟩

/-- DIVREM with one destination: the remainder stays, with the marks of the division (notes/assumptions/22.md). -/
theorem divrem_of_eq (hi : s.dev.issues h .divrem w) (h128 : i < 128) (hcd : w.c = w.d) {o : LaneOut}
    (hval : o.val = ((s.dev.hearth h).exu.remLane w i).val) (hvalid : o.valid = ((s.dev.hearth h).exu.remLane w i).valid)
    (hflags : o.flags = ((s.dev.hearth h).exu.quotLane w i).flags) (hcauses : o.causes = ((s.dev.hearth h).exu.quotLane w i).causes) :
    Lane (.xDivrem h w none) h w s w.xty i o := by
  refine retires_divrem hi ?_
  obtain ⟨hp, _, _⟩ := Dev.issues_unit hi
  obtain ⟨hquot, hmark, hd⟩ := opDiv_spec ((s.dev.hearth h).exu.found (s.dev.narrowOnly h) .divrem) w h128
  obtain ⟨hrem, hmarks, hc⟩ := opDivrem_spec ((s.dev.hearth h).exu.found (s.dev.narrowOnly h) .divrem) w h128
  rw [hcd] at hrem hc
  simp only [Exu.wrote, Exu.marked, hval, hvalid, hflags, hcauses]
  exact ⟨Exu.wrote_trans hquot hrem rfl, hmarks _ hmark, Exu.keepsV_trans hd hc, Exu.divremDone_eq hp _ w⟩

end

/-! ### The statement -/

/-- Settles O47: each instruction of one group is one use of `lane_of_two`, `lane_of_one`, `lane_of_dot` or `lane_of_vec` with the lane
function that the model's operation gives; DIVREM writes two groups. -/
theorem integerLanes : Obligations.IntegerLanes := by
  unfold Obligations.IntegerLanes
  refine ⟨fun s h w i hi h128 => lane_of_two hi h128 rfl (fun _ => rfl),
    fun s h w i hi h128 => lane_of_two hi h128 rfl (fun _ => rfl),
    fun s h w i hi h128 => lane_of_two hi h128 rfl (fun _ => rfl),
    fun s h w i hi h128 => lane_of_one hi h128 rfl (fun _ => rfl),
    fun s h w i hi h128 => lane_of_one hi h128 rfl (fun _ => rfl),
    fun s h w i hi h128 => lane_of_two hi h128 rfl (fun _ => rfl),
    fun s h w i hi h128 => lane_of_two hi h128 rfl (fun _ => rfl),
    fun s h w i hi h128 => lane_of_two hi h128 rfl (fun _ => rfl),
    fun s h w i hi h128 => lane_of_two hi h128 rfl (fun _ => rfl),
    fun s h w i hi h128 => lane_of_two hi h128 rfl (fun _ => rfl),
    fun s h w i hi h128 => lane_of_one hi h128 rfl (fun _ => rfl),
    fun s h w i hi h128 => lane_of_two hi h128 rfl (opShl_eq · w),
    fun s h w i hi h128 => lane_of_two hi h128 rfl (opShr_eq · w),
    fun s h w i hi h128 => ?div, fun s h w i hi h128 => ?rem,
    fun s h w i hi h128 hcd => divrem_of_ne hi h128 hcd,
    fun s h w i hi hcd h128 => ?divrem,
    fun s h w i hi h128 => ?dot8, fun s h w i hi h128 => ?dot16,
    fun s h w i hi h128 => lane_of_vec hi h128 rfl (fun _ i => .ok i) (fun _ => rfl) rfl,
    fun s h w i hi h128 => lane_of_vec hi h128 rfl
      (fun x _ => .ok (if w.xty.isInt then w.xty.ofInt (x.sGet w.a.toNat).toNat else (x.sGet w.a.toNat).toNat % 2 ^ w.xty.bits)) (fun _ => rfl) rfl,
    fun s h w i hi h128 => lane_of_two hi h128 rfl (opMin_eq (xty_ne_str hi.1 rfl rfl)),
    fun s h w i hi h128 => lane_of_two hi h128 rfl (opMax_eq (xty_ne_str hi.1 rfl rfl))⟩
  case div =>
    simp only [← divRes_quotient]
    exact lane_of_two hi h128 rfl (fun _ => rfl)
  case rem =>
    simp only [← divRes_remainder]
    exact lane_of_two hi h128 rfl (fun _ => rfl)
  case divrem =>
    refine divrem_of_eq hi h128 hcd rfl ?_ ?_ ?_
    all_goals
      simp only [Exu.remLane, Exu.quotLane, Exu.two]
      cases (s.dev.hearth h).exu.valid w.a.toNat i <;> cases (s.dev.hearth h).exu.valid w.b.toNat i <;> rfl
  case dot8 =>
    simp only [← dotSum_four]
    exact lane_of_dot 4 hi h128 rfl (fun _ => rfl)
  case dot16 =>
    simp only [← dotSum_two]
    exact lane_of_dot 2 hi h128 rfl (fun _ => rfl)

end Sys2Proof.Machine

/-!
PROOF. Instruction words (Table 7.3, R233): each field of a word that is encoded is the field it was made of, the fields of a word determine it, and
class and op number an operation.
-/
namespace Sys2Proof.Machine

/-! ### Class and op -/

/-- The lists of the classes hold each operation at its class and op (Table 7.5). -/
theorem xClass_shape (op : XOp) : (xClass op.shape.cls)[op.shape.op]? = some op := by cases op <;> rfl

theorem shape_lt (op : XOp) : op.shape.cls < 16 ∧ op.shape.op < 16 := by cases op <;> decide

/-- An operation that a class lists has that class, and its place there as op. -/
theorem shape_of_xClass : ∀ c < 16, ∀ o < 16, ∀ op, (xClass c)[o]? = some op → op.shape.cls = c ∧ op.shape.op = o := by
  decide +kernel

/-! ### The fields of a word -/

theorem xEncode_class (op : XOp) (w : XFields) : (xEncode op w).extractLsb' 60 4 = BitVec.ofNat 4 op.shape.cls := by
  simp (disch := decide) only [xEncode, BitVec.extractLsb'_append_eq_of_le, Nat.reduceSub, BitVec.extractLsb'_eq_self]

theorem xEncode_op (op : XOp) (w : XFields) : (xEncode op w).extractLsb' 56 4 = BitVec.ofNat 4 op.shape.op := by
  simp (disch := decide) only [xEncode, BitVec.extractLsb'_append_eq_of_le, Nat.reduceSub, BitVec.extractLsb'_append_eq_of_add_le, BitVec.extractLsb'_eq_self]

/-- Bit 51 as a field of one bit. -/
theorem getLsbD_51 (x : BitVec 64) : x.getLsbD 51 = (x.extractLsb' 51 1).getLsbD 0 := by simp

theorem ofBool_getLsbD_51 (x : BitVec 64) : BitVec.ofBool (x.getLsbD 51) = x.extractLsb' 51 1 := by
  ext i hi
  obtain rfl : i = 0 := by omega
  simp

theorem xFieldsOf_xEncode (op : XOp) (w : XFields) : xFieldsOf (xEncode op w) = w := by
  simp (disch := decide) only [xFieldsOf, getLsbD_51, xEncode, BitVec.extractLsb'_append_eq_of_le, Nat.reduceSub,
    BitVec.extractLsb'_append_eq_of_add_le, BitVec.extractLsb'_eq_self]
  simp

/-- A word is its class, its op and its fields side by side. -/
theorem xEncode_of_class_op {x : BitVec 64} {op : XOp} (hc : BitVec.ofNat 4 op.shape.cls = x.extractLsb' 60 4)
    (ho : BitVec.ofNat 4 op.shape.op = x.extractLsb' 56 4) : xEncode op (xFieldsOf x) = x := by
  simp only [xEncode, xFieldsOf, hc, ho, ofBool_getLsbD_51]
  open BitVec in
  rw [extractLsb'_append_extractLsb'_eq_extractLsb' (rfl : 60 = 56 + 4),
    extractLsb'_append_extractLsb'_eq_extractLsb' (rfl : 56 = 52 + 4),
    extractLsb'_append_extractLsb'_eq_extractLsb' (rfl : 52 = 51 + 1),
    extractLsb'_append_extractLsb'_eq_extractLsb' (rfl : 51 = 48 + 3),
    extractLsb'_append_extractLsb'_eq_extractLsb' (rfl : 48 = 43 + 5),
    extractLsb'_append_extractLsb'_eq_extractLsb' (rfl : 43 = 38 + 5),
    extractLsb'_append_extractLsb'_eq_extractLsb' (rfl : 38 = 33 + 5),
    extractLsb'_append_extractLsb'_eq_extractLsb' (rfl : 33 = 28 + 5),
    extractLsb'_append_extractLsb'_eq_extractLsb' (rfl : 28 = 24 + 4),
    extractLsb'_append_extractLsb'_eq_extractLsb' (rfl : 24 = 0 + 24)]
  exact BitVec.extractLsb'_eq_self

/-! ### The decoder -/

/-- The decoder looks the op up in the list of the class. -/
theorem xDecode_eq (x : BitVec 64) : xDecode x = ((xClass (x.toNat / 2 ^ 60))[x.toNat / 2 ^ 56 % 16]?).map (fun op => (op, xFieldsOf x)) := by
  have hc : (x.extractLsb' 60 4).toNat = x.toNat / 2 ^ 60 := by
    have := x.isLt
    simp [Nat.shiftRight_eq_div_pow]; omega
  have ho : (x.extractLsb' 56 4).toNat = x.toNat / 2 ^ 56 % 16 := by simp [Nat.shiftRight_eq_div_pow]
  simp only [xDecode, hc, ho]
  cases (xClass (x.toNat / 2 ^ 60))[x.toNat / 2 ^ 56 % 16]? <;> rfl

theorem xDecode_xEncode (op : XOp) (w : XFields) : xDecode (xEncode op w) = some (op, w) := by
  obtain ⟨hc, ho⟩ := shape_lt op
  have : (xClass (BitVec.ofNat 4 op.shape.cls).toNat)[(BitVec.ofNat 4 op.shape.op).toNat]? = some op := by
    rw [BitVec.toNat_ofNat, BitVec.toNat_ofNat, Nat.mod_eq_of_lt hc, Nat.mod_eq_of_lt ho, xClass_shape]
  simp only [xDecode, xEncode_class, xEncode_op, this, xFieldsOf_xEncode]

theorem xEncode_of_xDecode {x : BitVec 64} {op : XOp} {w : XFields} (h : xDecode x = some (op, w)) : xEncode op w = x := by
  unfold xDecode at h
  split at h
  case h_2 => cases h
  case h_1 op' hop =>
    cases h
    obtain ⟨hc, ho⟩ := shape_of_xClass _ (x.extractLsb' 60 4).isLt _ (x.extractLsb' 56 4).isLt _ hop
    exact xEncode_of_class_op (by rw [hc, BitVec.ofNat_toNat, BitVec.setWidth_eq]) (by rw [ho, BitVec.ofNat_toNat, BitVec.setWidth_eq])

/-- Settles O57: a word holds each field where Table 7.3 places it, and the lists of the classes number the operations. -/
theorem wordsEncodeAndDecode : Obligations.WordsEncodeAndDecode := by
  refine ⟨xDecode_xEncode, fun x op w => xEncode_of_xDecode, fun x => ?_⟩
  rw [xDecode_eq, Option.map_eq_none_iff, List.getElem?_eq_none_iff]

end Sys2Proof.Machine

/-!
PROOF. The block as a whole: what a command can answer, said once for all of them, and what a step keeps; the state before power comes.
-/
namespace Sys2Proof.Machine

/-! ### What a command answers -/

/-- A command that is an instruction of the expression unit is the one that issues its operation. -/
theorem eq_cmd_of_exu {c : Instr} {op : XOp} {h : Nat} {w : XFields} (hc : c.exu = some (op, h, w)) : ∃ flt, c = op.cmd h w flt := by
  cases c <;> cases hc <;> exact ⟨_, rfl⟩

/-- Any other command answers a next state, whose part alone differs. -/
theorem exec_of_not_exu {c : Instr} (hc : c.exu = none) (s : State) : ∃ d, exec c s = .next { s with dev := d } := by
  cases c <;> cases hc <;> exact ⟨_, rfl⟩

/-- An instruction answers a next state, whose part alone differs, or its word is one that the checks of a single word refuse (R234). -/
theorem exec_of_exu {c : Instr} {op : XOp} {h : Nat} {w : XFields} (hc : c.exu = some (op, h, w)) (s : State) :
    (xWordOk op w = true ∧ ∃ d, exec c s = .next { s with dev := d }) ∨ (xWordOk op w = false ∧ exec c s = .fault .staticFault) := by
  obtain ⟨flt, rfl⟩ := eq_cmd_of_exu hc
  rw [exec_cmd]
  unfold State.unit
  cases hw : xWordOk op w
  · exact .inr ⟨rfl, rfl⟩
  · exact .inl ⟨rfl, _, rfl⟩

/-- Every command answers a next state, whose part alone differs, or is an instruction that the checks of a single word refuse. -/
theorem exec_cases (c : Instr) (s : State) :
    (∃ d, exec c s = .next { s with dev := d }) ∨ (exec c s = .fault .staticFault ∧ ∃ e, c.exu = some e ∧ xWordOk e.1 e.2.2 = false) := by
  cases hc : c.exu with
  | none => exact .inl (exec_of_not_exu hc s)
  | some e =>
    rcases exec_of_exu (op := e.1) (h := e.2.1) (w := e.2.2) hc s with ⟨_, hd⟩ | ⟨hw, hf⟩
    · exact .inl hd
    · exact .inr ⟨hf, e, rfl, hw⟩

theorem pending_of_exec {c : Instr} {s s' : State} (h : exec c s = .next s') : s'.pending = s.pending := by
  rcases exec_cases c s with ⟨d, hd⟩ | ⟨hf, _⟩
  · cases hd.symm.trans h; rfl
  · cases hf.symm.trans h

/-! ### A step -/

theorem step_cons {s : State} {c : Instr} {r : List Instr} (h : s.pending = c :: r) : step s = exec c { s with pending := r } := by
  simp only [step, h]

theorem step_nil {s : State} (h : s.pending = []) : step s = .next s := by
  simp only [step, h]

/-- A step takes the front of the queue and nothing else. -/
theorem pending_of_step {s s' : State} (h : step s = .next s') : s'.pending = s.pending.drop 1 := by
  rcases hp : s.pending with _ | ⟨c, r⟩
  · rw [step_nil hp] at h; cases h; simp [hp]
  · rw [step_cons hp] at h; simpa using pending_of_exec h

/-- Settles O54: every command leaves the queue alone, and only a refused word stops. -/
theorem stepTakesFront : Obligations.StepTakesFront :=
  ⟨fun _ _ _ => step_cons, fun _ => step_nil, fun _ _ _ => pending_of_exec, fun c s => (exec_cases c s).imp (fun ⟨_, hd⟩ => ⟨_, hd⟩) id⟩

/-- Settles O55: what waits after a step is the rest of what waited. -/
theorem waitingStayWellFormed : Obligations.WaitingStayWellFormed := by
  intro s hwf s' h
  have hp := pending_of_step h
  exact ⟨fun c hc => hwf c (List.mem_of_mem_drop (hp ▸ hc)), hp⟩

end Sys2Proof.Machine

/-!
PROOF. The state before power comes (R228, R254, R600): what the register map gives each register, and a part in which nothing is written yet.
-/
namespace Sys2Proof.Machine

/-- A register that nothing has written holds its reset value (R12). -/
theorem reset_regN (a : Nat) : State.reset.dev.regN a = (regReset a).toNat := rfl

/-- The resets of the registers of each hearth (Tables 7.7 and 12.12). -/
theorem regReset_hearth : ∀ h < 36, regReset (0x02100000 + 0x1000 * h) = 0x64 ∧ regReset (0x02100010 + 0x1000 * h) = 0 ∧
    regReset (0x02100010 + 0x1000 * h + 4) = 0 ∧ regReset (0x02100200 + 0x1000 * h) = 0x14 := by decide +kernel

/-- The resets of the registers of the part that the statement names (Tables 10.8, 11.9, 14.7, 18.11, 19.6, 20.9 and 21.10). -/
theorem regReset_part : regReset 0x02400040 = 0 ∧ regReset 0x02400050 = 0x10 ∧ regReset 0x02500008 = 0x51E9 ∧ regReset 0x0250000C = 1000 ∧
    regReset 0x02900000 = 0x001401F4 ∧ regReset 0x02C00010 = 0x6964 ∧ regReset 0x02D00038 = 1 ∧ regReset 0x02E0000C = 3 ∧
    regReset 0x02F00100 = 0 := by decide +kernel

/-- A group of lanes none of whose words is listed reads 0. -/
theorem grpGet_nil (base i g n : Nat) : grpGet [] base i g n = 0 := by
  induction n with
  | zero => rfl
  | succ n ih => simp [grpGet, tabGet, ih]

/-- Settles O56: nothing is written before power comes, so every table is empty and every register is at its reset. -/
theorem resetState : Obligations.ResetState := by
  obtain ⟨h1, h2, h3, h4, h5, h6, h7, h8, h9⟩ := regReset_part
  refine ⟨rfl, rfl, rfl, fun _ _ => ⟨rfl, rfl⟩, fun h hh => ?_, fun h => ⟨rfl, rfl, rfl, fun r => ?_, fun t b i => ?_⟩, ?_, ?_, ?_, ?_, ?_, ?_, ?_, ?_, ?_,
    rfl, rfl, rfl⟩
  · obtain ⟨hc, hl, hu, hs⟩ := regReset_hearth h hh
    simp [Dev.wideIdleUs, Dev.narrowOnly, Dev.regField, Dev.reg64, reset_regN, hc, hl, hu, hs, bitsOf, bitOf]
  · unfold Exu.mGet; split <;> rfl
  · exact grpGet_nil _ _ _ _
  all_goals simp [reset_regN, *]

/-- Settles O58: an empty table is in canonical form. -/
theorem unitTablesAtReset : Obligations.UnitTablesAtReset := fun _ => rfl

end Sys2Proof.Machine

/-!
PROOF. Floating-point results that are no number (R272, R275): one rounding never gives a NaN, so an operation's NaN is the default NaN that its
special cases give, with invalid or with nothing.
-/
namespace Sys2Proof.Machine

/-! ### Patterns that are numbers -/

theorem FFmt.infBits_lt (f : FFmt) : f.infBits < 2 ^ (f.bits - 1) :=
  Nat.sub_lt (Nat.two_pow_pos _) (Nat.two_pow_pos _)

/-- A sign and a magnitude up to infinity's spell a number. -/
theorem FFmt.isNaN_signed (f : FFmt) (s : Bool) {b : Nat} (hb : b ≤ f.infBits) : f.isNaN (f.signBit s + b) = false := by
  have hlt := f.infBits_lt
  have hm : f.mag (f.signBit s + b) = b := by
    unfold FFmt.mag FFmt.signBit
    split
    · rw [Nat.add_mod_left, Nat.mod_eq_of_lt (by omega)]
    · rw [Nat.zero_add, Nat.mod_eq_of_lt (by omega)]
  simp [FFmt.isNaN, hm, hb]

theorem FFmt.isNaN_sign (f : FFmt) (s : Bool) : f.isNaN (f.signBit s) = false := f.isNaN_signed s (Nat.zero_le _)

theorem FFmt.isNaN_infBits (f : FFmt) : f.isNaN f.infBits = false := by
  simpa [FFmt.signBit] using f.isNaN_signed false le_rfl

theorem FFmt.overflowBits_le (f : FFmt) (md : RMode) (neg : Bool) : f.overflowBits md neg ≤ f.infBits := by
  have : f.maxBits ≤ f.infBits := Nat.sub_le _ _
  unfold FFmt.overflowBits
  cases md <;> cases neg <;> simp [this]

/-- One rounding gives a number (R270, R275). -/
theorem FFmt.isNaN_round (f : FFmt) (md : RMode) (ftz neg : Bool) (m : Nat) (e : Int) (sticky : Bool) :
    f.isNaN (f.round md ftz neg m e sticky).1 = false := by
  unfold FFmt.round
  split
  · exact f.isNaN_sign neg
  · extract_lets qU qMin q c r inexact cu ru tiny b
    split
    · exact f.isNaN_signed neg (f.overflowBits_le md neg)
    · split
      · exact f.isNaN_sign neg
      · exact f.isNaN_signed neg (by omega)

/-! ### What an operation answers -/

/-- The default NaN, with invalid or with no flag, or a number. -/
def FFmt.answer (f : FFmt) (r : Nat × FFlags) : Prop := f.isNaN r.1 = true → r.1 = f.nanBits ∧ (r.2 = 0 ∨ r.2 = flInvalid)

theorem FFmt.answer_nanRes (f : FFmt) (c : Bool) : f.answer (f.nanRes (if c then flInvalid else 0)) := fun _ => ⟨rfl, by cases c <;> simp [FFmt.nanRes]⟩

theorem FFmt.answer_invalid (f : FFmt) : f.answer (f.nanRes flInvalid) := fun _ => ⟨rfl, .inr rfl⟩

theorem FFmt.answer_number {f : FFmt} {r : Nat × FFlags} (h : f.isNaN r.1 = false) : f.answer r := fun h' => by rw [h] at h'; cases h'

section
variable (f : FFmt)

theorem FFmt.answer_inf (s : Bool) (fl : FFlags) : f.answer (f.signBit s + f.infBits, fl) := answer_number (f.isNaN_signed s le_rfl)

theorem FFmt.answer_sign (s : Bool) (fl : FFlags) : f.answer (f.signBit s, fl) := answer_number (f.isNaN_sign s)

theorem FFmt.answer_round (md : RMode) (ftz neg : Bool) (m : Nat) (e : Int) (sticky : Bool) : f.answer (f.round md ftz neg m e sticky) :=
  answer_number (f.isNaN_round md ftz neg m e sticky)

theorem FFmt.answer_ite {c : Prop} [Decidable c] {a b : Nat × FFlags} (ha : f.answer a) (hb : f.answer b) : f.answer (if c then a else b) := by
  split <;> assumption

theorem FFmt.answer_add (md : RMode) (ftz sub : Bool) (x y : Nat) : f.answer (f.add md ftz sub x y) := by
  unfold FFmt.add
  split
  · exact f.answer_nanRes _
  · exact f.answer_nanRes _
  · exact f.answer_nanRes _
  · exact f.answer_ite (f.answer_inf _ _) f.answer_invalid
  · exact f.answer_inf _ _
  · exact f.answer_inf _ _
  · exact f.answer_round _ _ _ _ _ _

theorem FFmt.answer_mul (md : RMode) (ftz : Bool) (x y : Nat) : f.answer (f.mul md ftz x y) := by
  unfold FFmt.mul
  split
  · exact f.answer_nanRes _
  · exact f.answer_nanRes _
  · exact f.answer_nanRes _
  · exact f.answer_inf _ _
  · exact f.answer_ite f.answer_invalid (f.answer_inf _ _)
  · exact f.answer_ite f.answer_invalid (f.answer_inf _ _)
  · exact f.answer_round _ _ _ _ _ _

theorem FFmt.answer_div (md : RMode) (ftz : Bool) (x y : Nat) : f.answer (f.div md ftz x y) := by
  unfold FFmt.div
  split
  · exact f.answer_nanRes _
  · exact f.answer_nanRes _
  · exact f.answer_nanRes _
  · exact f.answer_invalid
  · exact f.answer_inf _ _
  · exact f.answer_sign _ _
  · exact f.answer_ite (f.answer_ite f.answer_invalid (f.answer_inf _ _)) (f.answer_ite (f.answer_sign _ _) (f.answer_round _ _ _ _ _ _))

theorem FFmt.answer_sqrt (md : RMode) (ftz : Bool) (x : Nat) : f.answer (f.sqrt md ftz x) := by
  unfold FFmt.sqrt
  split
  · exact f.answer_nanRes _
  · exact f.answer_ite f.answer_invalid (answer_number f.isNaN_infBits)
  · exact f.answer_ite (f.answer_sign _ _) (f.answer_ite f.answer_invalid (f.answer_round _ _ _ _ _ _))

theorem FFmt.answer_infAdd (s : Bool) (c : FVal) (sig : Bool) : f.answer (FFmt.fma.infAdd f s c (if sig then flInvalid else 0)) := by
  cases c with
  | nan t => exact f.answer_nanRes _
  | inf t => exact f.answer_ite (f.answer_inf _ _) f.answer_invalid
  | fin => exact f.answer_inf _ _

theorem FFmt.answer_fma (md : RMode) (ftz : Bool) (x y z : Nat) : f.answer (f.fma md ftz x y z) := by
  unfold FFmt.fma
  dsimp only
  split
  · exact f.answer_nanRes _
  · exact f.answer_nanRes _
  · exact f.answer_infAdd _ _ _
  · exact f.answer_ite f.answer_invalid (f.answer_infAdd _ _ _)
  · exact f.answer_ite f.answer_invalid (f.answer_infAdd _ _ _)
  · split
    · exact f.answer_nanRes _
    · exact f.answer_inf _ _
    · exact f.answer_round _ _ _ _ _ _

end

/-! ### Operands that are NaNs -/

theorem FFmt.decode_eq_nan_iff (f : FFmt) (x : Nat) : (∃ t, f.decode x = .nan t) ↔ f.isNaN x = true := by
  unfold FFmt.decode FFmt.isNaN
  dsimp only
  split
  · simp [*]
  · split
    · simp [*]
    · split <;> simp [*]

/-- A format whose sign bit and exponent field have room (all four of Table 8.5). -/
def FFmt.sound (f : FFmt) : Prop := 1 ≤ f.p ∧ f.p < f.bits

theorem sound_of_mem {f : FFmt} (h : f ∈ [fmtF16, fmtBF16, fmtF32, fmtF64]) : f.sound := by
  simp only [List.mem_cons, List.not_mem_nil, or_false] at h
  rcases h with rfl | rfl | rfl | rfl <;> exact ⟨by decide, by decide⟩

theorem FFmt.minNormal_le_infBits {f : FFmt} (hf : f.sound) : f.minNormal ≤ f.infBits := by
  obtain ⟨h1, h2⟩ := hf
  have hp : 2 ^ (f.p - 1) + 2 ^ (f.p - 1) = 2 ^ f.p := by rw [← two_mul, ← pow_succ', Nat.sub_add_cancel h1]
  have hb : 2 ^ f.p ≤ 2 ^ (f.bits - 1) := Nat.pow_le_pow_right (by decide) (by omega)
  unfold FFmt.minNormal FFmt.infBits
  omega

theorem FFmt.isNaN_mod (f : FFmt) (x : Nat) : f.isNaN (x % 2 ^ f.bits) = f.isNaN x := by
  rw [FFmt.isNaN, FFmt.isNaN, FFmt.mag, FFmt.mag, Nat.mod_mod_of_dvd x (Nat.pow_dvd_pow 2 (Nat.sub_le f.bits 1))]

/-- No NaN is subnormal: ftz leaves it alone (R276). -/
theorem FFmt.flush_of_isNaN {f : FFmt} (hf : f.sound) (ftz : Bool) {x : Nat} (hx : f.isNaN x = true) : f.flush ftz x = x % 2 ^ f.bits := by
  have hsub : f.isSub x = false := by
    have := f.minNormal_le_infBits hf
    simp only [FFmt.isNaN, decide_eq_true_eq] at hx
    simp only [FFmt.isSub, Bool.and_eq_false_iff, decide_eq_false_iff_not]
    omega
  simp [FFmt.flush, hsub]

theorem FFmt.decode_flush_of_nan {f : FFmt} (hf : f.sound) (ftz : Bool) {x : Nat} {t : Bool} (hx : f.decode (x % 2 ^ f.bits) = .nan t) :
    f.decode (f.flush ftz x) = .nan t := by
  rw [f.flush_of_isNaN hf ftz ((f.isNaN_mod x).symm.trans ((f.decode_eq_nan_iff _).1 ⟨t, hx⟩)), hx]

theorem FFmt.isNaN_flush (f : FFmt) (ftz : Bool) {x : Nat} (hx : f.isNaN x = false) : f.isNaN (f.flush ftz x) = false := by
  unfold FFmt.flush
  split
  · exact f.isNaN_sign _
  · rw [f.isNaN_mod, hx]

/-- A second operand that does not change the answer of a NaN: any one where that signals, and otherwise a number. -/
def FVal.keeps (v : FVal) (t : Bool) : Prop := t = true ∨ ∀ u, v ≠ .nan u

theorem FVal.keeps_nan {t u : Bool} (h : (FVal.nan u).keeps t) : (t || u) = t := by
  rcases h with rfl | h
  · rfl
  · exact absurd rfl (h u)

theorem FFmt.keeps_of_number (f : FFmt) (t ftz : Bool) {y : Nat} (hy : f.isNaN y = false) : (f.decode (f.flush ftz y)).keeps t :=
  .inr fun u hu => by
    have := (f.decode_eq_nan_iff _).1 ⟨u, hu⟩
    rw [f.isNaN_flush ftz hy] at this
    cases this

section
variable {f : FFmt} {md : RMode} {ftz t : Bool} {x : Nat} (y z : Nat) (hx : f.decode (f.flush ftz x) = .nan t)
  (hy : (f.decode (f.flush ftz y)).keeps t) (hz : (f.decode (f.flush ftz z)).keeps t)
include hx

theorem FFmt.sqrt_nan : f.sqrt md ftz x = f.nanRes (if t then flInvalid else 0) := by
  simp only [FFmt.sqrt, hx]

include hy

theorem FFmt.add_nan (sub : Bool) : f.add md ftz sub x y = f.nanRes (if t then flInvalid else 0) := by
  unfold FFmt.add
  rw [hx]
  cases hd : f.decode (f.flush ftz y) with
  | nan u => simp only [FVal.keeps_nan (hd ▸ hy)]
  | inf => rfl
  | fin => rfl

theorem FFmt.mul_nan : f.mul md ftz x y = f.nanRes (if t then flInvalid else 0) := by
  unfold FFmt.mul
  rw [hx]
  cases hd : f.decode (f.flush ftz y) with
  | nan u => simp only [FVal.keeps_nan (hd ▸ hy)]
  | inf => rfl
  | fin => rfl

theorem FFmt.div_nan : f.div md ftz x y = f.nanRes (if t then flInvalid else 0) := by
  unfold FFmt.div
  rw [hx]
  cases hd : f.decode (f.flush ftz y) with
  | nan u => simp only [FVal.keeps_nan (hd ▸ hy)]
  | inf => rfl
  | fin => rfl

include hz

theorem FFmt.fma_nan : f.fma md ftz x y z = f.nanRes (if t then flInvalid else 0) := by
  have sig : ∀ v : FVal, v.keeps t → (t || (match v with | .nan u => u | _ => false)) = t := by
    intro v hv
    cases v with
    | nan u => exact FVal.keeps_nan hv
    | inf => exact Bool.or_false t
    | fin => exact Bool.or_false t
  simp only [FFmt.fma, hx]
  exact congrArg (fun c : Bool => f.nanRes (if c then flInvalid else 0)) ((congrArg (· || _) (sig _ hy)).trans (sig _ hz))

end

/-! ### The statement -/

/-- Settles O60: an answer is a rounding or a special case, and a first operand that is a NaN decides. -/
theorem nanResults : Obligations.NanResults := by
  intro f hf md ftz sub x y z
  have hs := sound_of_mem hf
  refine ⟨?_, fun hx => ?_, fun hx hy hz => ?_⟩
  · simp only [List.forall_mem_cons]
    exact ⟨f.answer_add md ftz sub x y, f.answer_mul md ftz x y, f.answer_div md ftz x y, f.answer_sqrt md ftz x, f.answer_fma md ftz x y z, by simp⟩
  all_goals have hx' := f.decode_flush_of_nan hs ftz hx
  · have any (v : FVal) : v.keeps true := .inl rfl
    simp [FFmt.add_nan y hx' (any _), FFmt.mul_nan y hx' (any _), FFmt.div_nan y hx' (any _), FFmt.sqrt_nan hx', FFmt.fma_nan y z hx' (any _) (any _), FFmt.nanRes]
  · have hy' := f.keeps_of_number false ftz hy
    simp [FFmt.add_nan y hx' hy', FFmt.mul_nan y hx' hy', FFmt.div_nan y hx' hy', FFmt.sqrt_nan hx', FFmt.fma_nan y z hx' hy' (f.keeps_of_number false ftz hz), FFmt.nanRes]

end Sys2Proof.Machine

/-!
PROOF. The units' tables (R225 to R228, R282, R292): each operation of the expression unit keeps the canonical form of what a unit keeps by number,
so every instruction does, with what the part does about a fault it meets.
-/
namespace Sys2Proof.Machine

/-! ### Tables written in runs -/

theorem putLanes_wf {v : Tab Word} (hv : tabWf 0 v = true) (base g : Nat) (ex : Mask) (f : Nat → Nat) (n : Nat) :
    tabWf 0 (putLanes v base g ex f n) = true := by
  have grp (u : Tab Word) (hu : tabWf 0 u = true) (i x k : Nat) : tabWf 0 (grpPut u base i g x k) = true := by
    induction k with
    | zero => exact hu
    | succ k ih => exact set_wf _ _ _ _ ih
  induction n with
  | zero => exact hv
  | succ n ih =>
    unfold putLanes
    dsimp only
    split
    · exact grp _ ih _ _ _
    · exact ih

theorem addRecs_wf {t : Tab RowRec} (ht : tabWf {} t = true) (ex : Mask) (f : Nat → LaneOut) (off n : Nat) : tabWf {} (addRecs t ex f off n) = true := by
  induction n with
  | zero => exact ht
  | succ n ih =>
    unfold addRecs
    dsimp only
    split
    · exact set_wf _ _ _ _ ih
    · exact ih

theorem clearRecs_wf {t : Tab RowRec} (ht : tabWf {} t = true) (k : Mask) (n : Nat) : tabWf {} (clearRecs t k n) = true := by
  induction n with
  | zero => exact ht
  | succ n ih =>
    unfold clearRecs
    split
    · exact set_wf _ _ _ _ ih
    · exact ih

theorem scatLanes_wf {x : Exu} (hx : tabWf 0 x.scratch = true) (w : XFields) (ex : Mask) (n : Nat) : tabWf 0 (scatLanes x w ex n) = true := by
  induction n with
  | zero => exact hx
  | succ n ih =>
    unfold scatLanes
    dsimp only
    split
    · exact setBytes_wf _ _ _ ih
    · exact ih

theorem storeLanes_wf {x : Exu} (hx : tabWf 0 x.scratch = true) (w : XFields) (ex : Mask) (addr n : Nat) :
    tabWf 0 (storeLanes x w ex addr n) = true := by
  induction n with
  | zero => exact hx
  | succ n ih =>
    unfold storeLanes
    dsimp only
    split
    · exact setBytes_wf _ _ _ ih
    · exact ih

theorem putUnits_wf (k c : List (BitVec 64)) : ∀ {u : Tab CareUnit} (base : Nat), tabWf {} u = true → tabWf {} (putUnits u base k c) = true := by
  induction k generalizing c with
  | nil => intro u base hu; exact hu
  | cons a k ih =>
    intro u base hu
    cases c with
    | nil => exact hu
    | cons b c => exact ih c _ (set_wf _ _ _ _ hu)

/-! ### The care-mask table under lookups (R300) -/

/-- The units and entry words of a care-mask table in canonical form. -/
def Cmt.Canon (c : Cmt) : Prop := tabWf {} c.units = true ∧ tabWf {} c.words = true

theorem Cmt.rewrite_canon {c : Cmt} (hc : c.Canon) (t : CareTable) (h : CareHit) : (c.rewrite t h).Canon := by
  unfold Cmt.rewrite
  split
  · exact ⟨putUnits_wf _ _ _ hc.1, hc.2⟩
  · exact ⟨hc.1, set_wf {} c.words (h.bank * 4096 + h.entry) {} hc.2⟩

theorem Cmt.rewrites_canon (t : CareTable) (l : List CareHit) : ∀ {c : Cmt}, c.Canon → (l.foldl (fun c h => c.rewrite t h) c).Canon := by
  induction l with
  | nil => exact fun hc => hc
  | cons a r ih => exact fun hc => ih (Cmt.rewrite_canon hc t a)

theorem careLookup_canon (t : CareTable) (table x : Nat) : ∀ (fuel : Nat) {c : Cmt} (fixes : Nat), c.Canon → (careLookup c t table x fixes fuel).1.Canon := by
  intro fuel
  induction fuel with
  | zero =>
    intro c fixes hc
    unfold careLookup
    dsimp only
    split <;> exact hc
  | succ n ih =>
    intro c fixes hc
    unfold careLookup
    dsimp only
    split
    · exact hc
    · exact ih _ (Cmt.rewrites_canon t _ hc)

theorem cmlLanes_canon {x : Exu} (hx : x.cmt.Canon) (w : XFields) (ex : Mask) (n : Nat) : (cmlLanes x w ex n).1.Canon := by
  induction n with
  | zero => exact hx
  | succ n ih =>
    unfold cmlLanes
    dsimp only
    split
    · have := careLookup_canon (x.ctx.cares.getD w.imm.toNat {}) w.imm.toNat (x.lane w.xty w.a.toNat n) 2 (cmlLanes x w ex n).2.1 ih
      split <;> rename_i heq <;> rw [heq] at this <;> exact this
    · exact ih

/-! ### The unit -/

/-- What a unit keeps by number, each table in canonical form. -/
structure Exu.Canon (x : Exu) : Prop where
  v : tabWf 0 x.v = true
  vld : tabWf 0 x.vld = true
  ann : tabWf {} x.ann = true
  m : tabWf 0 x.m = true
  sr : tabWf 0 x.sr = true
  recs : tabWf {} x.recs = true
  scratch : tabWf 0 x.scratch = true
  cmt : x.cmt.Canon

theorem Exu.wf_iff (x : Exu) : x.wf = true ↔ x.Canon := by
  simp only [Exu.wf, Bool.and_eq_true]
  constructor
  · rintro ⟨⟨⟨⟨⟨⟨⟨⟨h1, h2⟩, h3⟩, h4⟩, h5⟩, h6⟩, h7⟩, h8⟩, h9⟩
    exact ⟨h1, h2, h3, h4, h5, h6, h7, h8, h9⟩
  · rintro ⟨h1, h2, h3, h4, h5, h6, h7, h8, h9⟩
    exact ⟨⟨⟨⟨⟨⟨⟨⟨h1, h2⟩, h3⟩, h4⟩, h5⟩, h6⟩, h7⟩, h8⟩, h9⟩

namespace Exu.Canon
variable {x : Exu} (hx : x.Canon)
include hx

theorem mark (ex : Mask) (f : Nat → LaneOut) : (x.mark ex f).Canon := { hx with recs := addRecs_wf hx.recs _ _ _ _ }

theorem vec (w : XFields) (t : XTy) (d : Nat) (an : XAnn) (f : Nat → LaneOut) : (x.vec w t d an f).Canon :=
  { hx.mark (x.execMask w) f with v := putLanes_wf hx.v _ _ _ _ _, vld := set_wf _ _ _ _ hx.vld, ann := set_wf _ _ _ _ hx.ann }

theorem vecStr (w : XFields) (d : Nat) (f : Nat → Option Bytes × List Nat) : (x.vecStr w d f).Canon := { hx.vec w .str d {} _ with }

theorem mSet (r : Nat) (k : Mask) : (x.mSet r k).Canon := by
  unfold Exu.mSet
  split
  · exact hx
  · exact { hx with m := set_wf _ _ _ _ hx.m }

theorem mrow (w : XFields) (f : Nat → Bool) : (x.mrow w f).Canon := hx.mSet _ _

theorem cmpRow (w : XFields) (valid : Nat → Bool) (f : Nat → Bool × List Nat) : (x.cmpRow w valid f).Canon := (hx.mark _ _).mrow _ _

theorem sSet (r : Nat) (v : Word64) : (x.sSet r v).Canon := by
  unfold Exu.sSet
  split
  · exact hx
  · exact { hx with sr := set_wf _ _ _ _ hx.sr }

theorem load (w : XFields) (t : XTy) (d : Nat) (an : XAnn) (get : Nat → Val) : (x.load w t d an get).Canon := by
  unfold Exu.load
  split
  · exact hx.vecStr _ _ _
  · exact hx.vec _ _ _ _ _

theorem loadField {y : Exu} (w : XFields) (f : Nat) : (x.loadField y w f).Canon := hx.load _ _ _ _ _

theorem broadcast (w : XFields) (kind : Nat) : (x.broadcast w kind).Canon := by
  unfold Exu.broadcast
  split <;> exact hx.load _ _ _ _ _

end Exu.Canon

/-! ### Each operation -/

section
variable {x : Exu} (hx : x.Canon) (w : XFields)
include hx

theorem opTst_canon : (opTst x w).Canon := by
  unfold opTst
  dsimp only
  split
  · exact hx.mrow _ _
  · exact (hx.mark _ _).mrow _ _

theorem opSlc_canon : (opSlc x w).Canon := by rw [opSlc_eq]; exact hx.sSet _ _

theorem opSlp_canon : (opSlp x w).Canon := by rw [opSlp_eq]; exact hx.sSet _ _

theorem opOut_canon : (opOut x w).Canon := by
  unfold opOut
  dsimp only
  split
  · exact { hx.mark x.m0 _ with }
  · exact { hx with }

theorem opDivrem_canon : (opDivrem x w).Canon := by
  have hy : (opDiv x w).Canon := hx.vec _ _ _ _ _
  have ha : tabWf ({} : XAnn) (tabSet {} (opDiv x w).ann w.c.toNat {}) = true := set_wf _ _ _ _ hy.ann
  exact { hy with v := putLanes_wf hy.v _ _ _ _ _, vld := set_wf _ _ _ _ hy.vld, ann := ha }

theorem opVscat_canon : (opVscat x w).Canon := { hx.mark _ _ with scratch := scatLanes_wf hx.scratch _ _ _ }

theorem opVlds_canon : (opVlds x w).Canon := by
  unfold opVlds
  dsimp only
  split
  · exact hx.vec _ _ _ _ _
  · exact hx.mark _ _

theorem opVsts_canon : (opVsts x w).Canon := by
  unfold opVsts
  dsimp only
  split
  · exact { hx with scratch := storeLanes_wf hx.scratch _ _ _ _ }
  · exact hx.mark _ _

theorem opCml_canon : (opCml x w).Canon := by
  have hc := cmlLanes_canon hx.cmt w (x.execMask w) 128
  unfold opCml
  dsimp only
  split
  · exact { hx with cmt := hc }
  · exact { hx.vec w .u64 w.d.toNat {} _ with cmt := hc }

/-- Every operation keeps the canonical form: its result is one of the forms of a write. -/
theorem opRun_canon (op : XOp) : (opRun op x w).Canon := by
  cases op
  case nop | endS | brz | brnz | brmz => exact hx
  case setsel | mout => exact { hx with }
  case eclr => exact { hx with recs := clearRecs_wf hx.recs _ _ }
  case setnull => exact { hx with vld := set_wf _ _ _ _ hx.vld }
  case outV => exact opOut_canon hx w
  case tst => exact opTst_canon hx w
  case slc => exact opSlc_canon hx w
  case slp => exact opSlp_canon hx w
  case divrem => exact opDivrem_canon hx w
  case vscat => exact opVscat_canon hx w
  case vlds => exact opVlds_canon hx w
  case vsts => exact opVsts_canon hx w
  case cml => exact opCml_canon hx w
  case vld => exact hx.load _ _ _ _ _
  case vldf => exact hx.load w .u32 w.d.toNat {} _
  case vrow => exact hx.load w .u64 w.d.toNat {} _
  case vld2 => exact (hx.loadField _ _).loadField _ _
  case vld3 => exact ((hx.loadField _ _).loadField _ _).loadField _ _
  case vld4 => exact (((hx.loadField _ _).loadField _ _).loadField _ _).loadField _ _
  case vbc | vbp => exact hx.broadcast _ _
  case strSsub => exact hx.vecStr _ _ _
  case rpm => exact { hx.cmpRow w _ _ with }
  case rpx => exact { hx.vecStr w _ _ with }
  case pchk => exact hx.mark _ _
  case cmp | scmp | spre | ssuf => exact hx.cmpRow _ _ _
  case mld | vldn | valid | mand | mor | mxor | mandn | mnot | mmov | merr | movf => exact hx.mrow _ _
  case sli | mcnt | sadd | scalSsub | sand | sor | sxor | sshl | sshr | smul | smov | slt | sltu | radd | rmin | rmax => exact hx.sSet _ _
  all_goals exact hx.vec _ _ _ _ _

end

/-! ### An execution -/

theorem Exu.enter_canon {x : Exu} (hx : x.Canon) (b j : Nat) (new : Bool) : (x.enter b j new).Canon := by
  refine { hx with v := rfl, vld := rfl, ann := rfl, m := rfl, recs := rfl, sr := ?_, scratch := ?_ } <;> cases new
  · exact hx.sr
  · rfl
  · exact hx.scratch
  · rfl

theorem Exu.endSlice_canon {x : Exu} (hx : x.Canon) : x.endSlice.Canon := by
  have hy : ({ x with results := x.results ++ [x.result] } : Exu).Canon := { hx with }
  unfold Exu.endSlice
  dsimp only
  split
  · exact Exu.enter_canon hy _ _ _
  · exact { hy with }

theorem Exu.retire_canon {x : Exu} (hx : x.Canon) (op : XOp) (w : XFields) : (x.retire op w).Canon := by
  have hy := opRun_canon hx w op
  have step {y : Exu} (hy : y.Canon) : y.step.Canon := { hy with }
  unfold Exu.retire
  split
  case h_1 =>
    split
    · exact Exu.endSlice_canon hx
    · exact step hx
  case h_5 =>
    dsimp only
    split
    · exact hy
    · exact step hy
  all_goals
    split
    · exact { hx with }
    · exact step hx

theorem Exu.issue_canon {x : Exu} (hx : x.Canon) (no : Bool) (op : XOp) : (x.issue no op).1.Canon := by
  rw [Exu.issue_fst]
  exact { hx with }

/-- An execution keeps the canonical form, whether it retires, waits or is lost (R251 to R253). -/
theorem Exu.execute_canon {x : Exu} (hx : x.Canon) (no : Bool) (op : XOp) (w : XFields) (flt : Option XFault) : (x.execute no op w flt).1.Canon := by
  have hi := Exu.issue_canon hx no op
  have hr : ({ (x.issue no op).1 with pend := none } : Exu).Canon := { hi with }
  unfold Exu.execute
  dsimp only
  split
  · split <;> exact { hi with }
  · split <;> exact Exu.retire_canon hr op w

/-! ### The part around it -/

/-- Every unit of the part is in canonical form. -/
def Dev.unitsWf (d : Dev) : Prop := ∀ k, (d.hearth k).exu.wf = true

theorem Dev.unitsWf_congr {d e : Dev} (h : ∀ k, e.hearth k = d.hearth k) (hd : d.unitsWf) : e.unitsWf := fun k => h k ▸ hd k

theorem Dev.unitsWf_xRun {d : Dev} (hd : d.unitsWf) (h : Nat) (op : XOp) (w : XFields) (flt : Option XFault) : (d.xRun h op w flt).unitsWf := by
  intro k
  unfold Dev.xRun
  dsimp only
  rw [Dev.exuEvents_hearth]
  by_cases hk : k = h
  · subst hk
    rw [Dev.hearth_hearthUpd, Exu.wf_iff]
    exact { Exu.execute_canon ((Exu.wf_iff _).1 (hd k)) _ op w flt with }
  · rw [Dev.hearth_hearthUpd_ne _ _ _ _ hk]
    exact hd k

theorem Dev.exuEvents_opSec (d : Dev) (h : Nat) (x : Exu) (e : XEv) (rpe fixes : Nat) : (d.exuEvents h x e rpe fixes).opSec = d.opSec := by
  unfold Dev.exuEvents
  cases e.frec with
  | none => simp
  | some r => rw [Dev.setRegBytes_keep Dev.opSec (fun _ _ _ => rfl)]; simp

/-- What an execution leaves in the hearth's record besides its unit: the times of the faults it adds to (R253). -/
theorem Dev.xRun_hearth (d : Dev) (h : Nat) (op : XOp) (w : XFields) (flt : Option XFault) :
    ((d.xRun h op w flt).hearth h).quenched = (d.hearth h).quenched ∧ (d.xRun h op w flt).opSec = d.opSec ∧
      (((d.xRun h op w flt).hearth h).unresAt = (d.hearth h).unresAt ∨
        ((d.xRun h op w flt).hearth h).unresAt = recent d.opSec (d.hearth h).unresAt ++ [d.opSec]) := by
  unfold Dev.xRun
  dsimp only
  rw [Dev.exuEvents_hearth, Dev.hearth_hearthUpd, Dev.exuEvents_opSec]
  refine ⟨rfl, rfl, ?_⟩
  dsimp only
  split
  · exact .inl rfl
  · exact .inr rfl

/-- What the memory system does about a fault that is no translation fault (R377, R387) leaves every hearth and the time alone. -/
theorem Dev.memFault_spmUe_hearth (d : Dev) (h : Nat) (op : XOp) (w : XFields) {flt : Option XFault} (hf : ∀ f, flt = some f → f.cause ≠ 1) (k : Nat) :
    (((d.memFault h flt).spmUe h op w flt).hearth k) = d.hearth k ∧ ((d.memFault h flt).spmUe h op w flt).opSec = d.opSec := by
  have hm : (d.memFault h flt).hearth k = d.hearth k ∧ (d.memFault h flt).opSec = d.opSec := by
    unfold Dev.memFault
    split
    · exact ⟨rfl, rfl⟩
    · rw [if_neg (hf _ rfl)]
      split
      · simp
      · split <;> simp
  unfold Dev.spmUe
  split
  · split <;> simp [hm]
  · exact hm

/-- An instruction on a hearth is an execution there, or nothing where the unit waits (R252, R253). -/
theorem Dev.xCmd_cases (d : Dev) (h : Nat) (op : XOp) (w : XFields) {flt : Option XFault} (hf : ∀ f, flt = some f → f.cause ≠ 1) :
    d.xCmd h op w flt = d ∨
      ((∀ k, (d.xCmd h op w flt).hearth k = (d.xRun h op w flt).hearth k) ∧ (d.xCmd h op w flt).opSec = (d.xRun h op w flt).opSec) := by
  unfold Dev.xCmd
  split
  · exact .inl rfl
  · rename_i hw
    have hi : d.xIssue h op w flt = d.xRun h op w flt := if_neg hw
    rw [hi]
    exact .inr ⟨fun k => (Dev.memFault_spmUe_hearth _ h op w hf k).1, (Dev.memFault_spmUe_hearth _ h op w hf 0).2⟩

theorem recent_append_self (now : Nat) (l : List Nat) : (recent now (recent now l ++ [now])).length = (recent now l).length + 1 := by
  simp [recent, List.filter_append]

/-- A fault of a hearth that is not in recovery and has met fewer than three of them in a day quenches nothing (R588, R597). -/
theorem Dev.hearthFault_hearth {d d0 : Dev} {h : Nat} (hr : d0.recovers 1 h = false) (hu : (recent d.opSec (d.hearth h).unresAt).length < 3) (k : Nat) :
    (d.hearthFault d0 h).hearth k = d.hearth k := by
  have hrec : (d.recover 1 h).hearth k = d.hearth k := by simp [Dev.hearth]
  unfold Dev.hearthFault
  simp only [hr, Bool.false_eq_true, if_false, if_neg (Nat.not_le.2 hu)]
  split
  · rfl
  · split
    · exact hrec
    · split
      · split
        · exact hrec
        · rfl
      · rfl

/-- An instruction of the expression unit keeps every unit in canonical form. -/
theorem Dev.unitsWf_onHearth {d : Dev} (hd : d.unitsWf) (h : Nat) (op : XOp) (w : XFields) {flt : Option XFault} (hf : ∀ f, flt = some f → f.cause ≠ 1)
    (hr : d.recovers 1 h = false) (hu : (recent d.opSec (d.hearth h).unresAt).length < 2) :
    (d.onHearth h (fun d => d.xCmd h op w flt)).unitsWf := by
  have hx : (d.xCmd h op w flt).unitsWf ∧ ((d.xCmd h op w flt).hearth h).quenched = (d.hearth h).quenched ∧
      (recent (d.xCmd h op w flt).opSec ((d.xCmd h op w flt).hearth h).unresAt).length < 3 := by
    obtain ⟨hq, ho, ha⟩ := d.xRun_hearth h op w flt
    rcases d.xCmd_cases h op w hf with e | ⟨eh, eo⟩
    · rw [e]
      exact ⟨hd, rfl, by omega⟩
    · refine ⟨Dev.unitsWf_congr eh (Dev.unitsWf_xRun hd h op w flt), by rw [eh, hq], ?_⟩
      rw [eh, eo, ho]
      rcases ha with ha | ha <;> rw [ha]
      · omega
      · rw [recent_append_self]; omega
  obtain ⟨hwf, hq, hlen⟩ := hx
  have hk := Dev.hearthFault_hearth (d0 := d) hr hlen
  unfold Dev.onHearth Dev.ifQuenched
  dsimp only
  rw [if_neg (by rw [hk, hq]; cases (d.hearth h).quenched <;> simp)]
  exact Dev.unitsWf_congr hk hwf

/-- Settles O59: each operation keeps the tables, and what the part does about a fault leaves the units alone. -/
theorem unitTables : Obligations.UnitTables := by
  intro s op h w flt r hp hf hr hu hwf s' hs
  rw [step_cons hp, exec_cmd] at hs
  unfold State.unit at hs
  split at hs
  · cases hs
    exact Dev.unitsWf_onHearth hwf h op w hf hr hu
  · cases hs

end Sys2Proof.Machine

/-!
PROOF. Issue (R246, R247, R251): what an operation leaves of the unit's power state, what the counters of Table 7.7 count, branches and END, and the
statement of issue assembled from them.
-/
namespace Sys2Proof.Machine

/-! ### Registers that count -/

theorem Dev.regN_lt (d : Dev) (a : Nat) : d.regN a < 2 ^ 32 := (d.reg a).isLt

theorem Dev.regN_congr {d e : Dev} {a : Nat} (h : e.reg a = d.reg a) : e.regN a = d.regN a := by unfold Dev.regN; rw [h]

theorem satAdd_zero {n a : Nat} (h : a < 2 ^ n) : satAdd n a 0 = a := if_neg (by omega)

theorem satAdd_lt (n a b : Nat) : satAdd n a b < 2 ^ n := by
  have := Nat.two_pow_pos n
  unfold satAdd
  split <;> omega

/-- A counter after an addition, which may be of nothing. -/
theorem Dev.regN_bump_self (d : Dev) (a n : Nat) : (d.bump a n).regN a = satAdd 32 (d.regN a) n := by
  by_cases h : n = 0
  · subst h
    rw [satAdd_zero (d.regN_lt a)]
    rfl
  · rw [Dev.regN_bump _ _ _ h, Nat.mod_eq_of_lt (satAdd_lt _ _ _)]

theorem Dev.regN_bump_ne (d : Dev) (a n r : Nat) (h : r ≠ a) : (d.bump a n).regN r = d.regN r := Dev.regN_congr (d.reg_bump_ne a n r h)

theorem Dev.regN_count64_ne (d : Dev) (a n r : Nat) (h : r ≠ a) (h4 : r ≠ a + 4) : (d.count64 a n).regN r = d.regN r :=
  Dev.regN_congr (d.reg_count64_ne a n r h h4)

theorem Dev.regN_setReg (d : Dev) (a : Nat) (w : Word) (r : Nat) : (d.setReg a w).regN r = if r = a then w.toNat else d.regN r := by
  unfold Dev.regN
  rw [Dev.reg_setReg_at]
  split <;> rfl

theorem Dev.reg64_lt (d : Dev) (a : Nat) : d.reg64 a < 2 ^ 64 := by
  have h1 := d.regN_lt a
  have h2 := d.regN_lt (a + 4)
  unfold Dev.reg64
  omega

theorem Dev.reg64_setReg64 (d : Dev) (a v : Nat) : (d.setReg64 a v).reg64 a = v % 2 ^ 64 := by
  simp only [Dev.reg64, Dev.setReg64, Dev.regN_setReg, if_true, BitVec.toNat_ofNat]
  rw [if_neg (by omega)]
  omega

/-- A 64-bit counter after an addition, which may be of nothing. -/
theorem Dev.reg64_count64 (d : Dev) (a n : Nat) : (d.count64 a n).reg64 a = (d.reg64 a + n) % 2 ^ 64 := by
  unfold Dev.count64
  split
  · subst n
    exact (Nat.mod_eq_of_lt (d.reg64_lt a)).symm
  · exact d.reg64_setReg64 a _

theorem Dev.reg64_bump_ne (d : Dev) (a n r : Nat) (h : r ≠ a) (h4 : r + 4 ≠ a) : (d.bump a n).reg64 r = d.reg64 r := by
  unfold Dev.reg64
  rw [d.regN_bump_ne a n r h, d.regN_bump_ne a n _ h4]

theorem Dev.reg64_count64_ne (d : Dev) (a n r : Nat) (h : r + 4 < a ∨ a + 4 < r) : (d.count64 a n).reg64 r = d.reg64 r := by
  unfold Dev.reg64
  rw [d.regN_count64_ne a n r (by omega) (by omega), d.regN_count64_ne a n _ (by omega) (by omega)]

/-- What the counters of a hearth's unit count where no fault is recorded (Table 7.7). -/
theorem Dev.exuEvents_counters (d : Dev) (h : Nat) (x : Exu) (e : XEv) (rpe fixes : Nat) (he : e.frec = none) :
    (d.exuEvents h x e rpe fixes).reg64 (0x02100000 + 0x1000 * h + 0x10) = (d.reg64 (0x02100000 + 0x1000 * h + 0x10) + e.wide) % 2 ^ 64 ∧
      (d.exuEvents h x e rpe fixes).reg64 (0x02100000 + 0x1000 * h + 0x18) = (d.reg64 (0x02100000 + 0x1000 * h + 0x18) + e.narrow) % 2 ^ 64 ∧
      (d.exuEvents h x e rpe fixes).regN (0x02100000 + 0x1000 * h + 8) = satAdd 32 (d.regN (0x02100000 + 0x1000 * h + 8)) e.wakes := by
  unfold Dev.exuEvents
  simp only [he]
  generalize 0x02100000 + 0x1000 * h = b
  refine ⟨?_, ?_, ?_⟩
  · rw [Dev.reg64_bump_ne _ _ _ _ (by omega) (by omega), Dev.reg64_count64_ne _ _ _ _ (by omega), Dev.reg64_bump_ne _ _ _ _ (by omega) (by omega),
      Dev.reg64_bump_ne _ _ _ _ (by omega) (by omega), Dev.reg64_bump_ne _ _ _ _ (by omega) (by omega), Dev.reg64_count64_ne _ _ _ _ (by omega),
      Dev.reg64_count64]
  · rw [Dev.reg64_bump_ne _ _ _ _ (by omega) (by omega), Dev.reg64_count64_ne _ _ _ _ (by omega), Dev.reg64_bump_ne _ _ _ _ (by omega) (by omega),
      Dev.reg64_bump_ne _ _ _ _ (by omega) (by omega), Dev.reg64_bump_ne _ _ _ _ (by omega) (by omega), Dev.reg64_count64,
      Dev.reg64_count64_ne _ _ _ _ (by omega)]
  · rw [Dev.regN_bump_ne _ _ _ _ (by omega), Dev.regN_count64_ne _ _ _ _ (by omega) (by omega), Dev.regN_bump_ne _ _ _ _ (by omega),
      Dev.regN_bump_ne _ _ _ _ (by omega), Dev.regN_bump_self, Dev.regN_count64_ne _ _ _ _ (by omega) (by omega),
      Dev.regN_count64_ne _ _ _ _ (by omega) (by omega)]

/-! ### What an operation leaves of the unit's power state -/

/-- The power state of the wide unit and what the unit waits for, which no operation changes by itself. -/
structure Exu.Idle (x y : Exu) : Prop where
  wide : y.wide = x.wide
  wakeReq : y.wakeReq = x.wakeReq
  activeWide : y.activeWide = x.activeWide
  pend : y.pend = x.pend
  unres : y.unres = x.unres

namespace Exu.Idle

theorem refl (x : Exu) : x.Idle x := ⟨rfl, rfl, rfl, rfl, rfl⟩

theorem trans {x y z : Exu} (h : x.Idle y) (k : y.Idle z) : x.Idle z :=
  ⟨k.wide.trans h.wide, k.wakeReq.trans h.wakeReq, k.activeWide.trans h.activeWide, k.pend.trans h.pend, k.unres.trans h.unres⟩

theorem mark (x : Exu) (ex : Mask) (f : Nat → LaneOut) : x.Idle (x.mark ex f) := ⟨rfl, rfl, rfl, rfl, rfl⟩

theorem vec (x : Exu) (w : XFields) (t : XTy) (d : Nat) (an : XAnn) (f : Nat → LaneOut) : x.Idle (x.vec w t d an f) := ⟨rfl, rfl, rfl, rfl, rfl⟩

theorem vecStr (x : Exu) (w : XFields) (d : Nat) (f : Nat → Option Bytes × List Nat) : x.Idle (x.vecStr w d f) := ⟨rfl, rfl, rfl, rfl, rfl⟩

theorem mSet (x : Exu) (r : Nat) (k : Mask) : x.Idle (x.mSet r k) := by
  unfold Exu.mSet
  split <;> exact ⟨rfl, rfl, rfl, rfl, rfl⟩

theorem mrow (x : Exu) (w : XFields) (f : Nat → Bool) : x.Idle (x.mrow w f) := mSet x _ _

theorem cmpRow (x : Exu) (w : XFields) (valid : Nat → Bool) (f : Nat → Bool × List Nat) : x.Idle (x.cmpRow w valid f) := (mark x _ _).trans (mrow _ _ _)

theorem sSet (x : Exu) (r : Nat) (v : Word64) : x.Idle (x.sSet r v) := by
  unfold Exu.sSet
  split <;> exact ⟨rfl, rfl, rfl, rfl, rfl⟩

theorem load (x : Exu) (w : XFields) (t : XTy) (d : Nat) (an : XAnn) (get : Nat → Val) : x.Idle (x.load w t d an get) := by
  unfold Exu.load
  split
  · exact vecStr _ _ _ _
  · exact vec _ _ _ _ _ _

theorem loadField (y x : Exu) (w : XFields) (f : Nat) : y.Idle (y.loadField x w f) := load _ _ _ _ _ _

theorem broadcast (x : Exu) (w : XFields) (kind : Nat) : x.Idle (x.broadcast w kind) := by
  unfold Exu.broadcast
  split <;> exact load _ _ _ _ _ _

theorem tst (x : Exu) (w : XFields) : x.Idle (opTst x w) := by
  unfold opTst
  dsimp only
  split
  · exact mrow _ _ _
  · exact (mark _ _ _).trans (mrow _ _ _)

theorem out (x : Exu) (w : XFields) : x.Idle (opOut x w) := by
  unfold opOut
  dsimp only
  split <;> exact ⟨rfl, rfl, rfl, rfl, rfl⟩

theorem vlds (x : Exu) (w : XFields) : x.Idle (opVlds x w) := by
  unfold opVlds
  dsimp only
  split <;> exact ⟨rfl, rfl, rfl, rfl, rfl⟩

theorem vsts (x : Exu) (w : XFields) : x.Idle (opVsts x w) := by
  unfold opVsts
  dsimp only
  split <;> exact ⟨rfl, rfl, rfl, rfl, rfl⟩

/-- CML ends its attempt, or leaves what the unit waits for alone (R300). -/
theorem cml {x : Exu} {w : XFields} (hu : (opCml x w).unres = false) : x.Idle (opCml x w) := by
  unfold opCml at hu ⊢
  dsimp only at hu ⊢
  split at hu
  · cases hu
  · rename_i hc
    rw [if_neg hc]
    exact ⟨rfl, rfl, rfl, rfl, rfl⟩

end Exu.Idle

/-- An operation that does not end its attempt changes neither the power state nor what the unit waits for. -/
theorem opRun_idle (x : Exu) (w : XFields) (op : XOp) (hu : op = .cml → (opRun op x w).unres = false) : x.Idle (opRun op x w) := by
  open Exu.Idle in
  cases op
  case cml => exact cml (hu rfl)
  case tst => exact tst x w
  case outV => exact out x w
  case vlds => exact vlds x w
  case vsts => exact vsts x w
  case slc => rw [show opRun .slc x w = _ from opSlc_eq x w]; exact sSet _ _ _
  case slp => rw [show opRun .slp x w = _ from opSlp_eq x w]; exact sSet _ _ _
  case vld => exact load x w _ _ _ _
  case vldf => exact load x w .u32 _ _ _
  case vrow => exact load x w .u64 _ _ _
  case vld2 => exact (loadField _ _ _ _).trans (loadField _ _ _ _)
  case vld3 => exact ((loadField _ _ _ _).trans (loadField _ _ _ _)).trans (loadField _ _ _ _)
  case vld4 => exact (((loadField _ _ _ _).trans (loadField _ _ _ _)).trans (loadField _ _ _ _)).trans (loadField _ _ _ _)
  case vbc | vbp => exact broadcast _ _ _
  case rpm => exact (cmpRow x w _ _).trans ⟨rfl, rfl, rfl, rfl, rfl⟩
  case cmp | scmp | spre | ssuf => exact cmpRow _ _ _ _
  case mld | vldn | valid | mand | mor | mxor | mandn | mnot | mmov | merr | movf => exact mrow _ _ _
  case sli | mcnt | sadd | scalSsub | sand | sor | sxor | sshl | sshr | smul | smov | slt | sltu | radd | rmin | rmax => exact sSet _ _ _
  all_goals exact ⟨rfl, rfl, rfl, rfl, rfl⟩

theorem Exu.Idle.endSlice {x : Exu} (hp : x.pend = none) : x.Idle x.endSlice := by
  unfold Exu.endSlice
  dsimp only
  split
  · exact ⟨rfl, rfl, rfl, rfl, rfl⟩
  · exact ⟨rfl, rfl, rfl, hp.symm, rfl⟩

theorem Exu.Idle.step (x : Exu) : x.Idle x.step := ⟨rfl, rfl, rfl, rfl, rfl⟩

/-- A branch goes to the word that it names where it is taken (R234). -/
theorem Exu.Idle.branch (x : Exu) (n : Nat) (c : Prop) [Decidable c] : x.Idle (if c then { x with pos := n } else x.step) := by
  split <;> exact ⟨rfl, rfl, rfl, rfl, rfl⟩

/-- What goes on to the next word unless it ends its attempt. -/
theorem Exu.Idle.next (x : Exu) : x.Idle (if x.unres then x else x.step) := by
  split <;> exact ⟨rfl, rfl, rfl, rfl, rfl⟩

theorem retire_idle {x : Exu} (hp : x.pend = none) (op : XOp) (w : XFields) (hu : op = .cml → (x.retire op w).unres = false) :
    x.Idle (x.retire op w) := by
  unfold Exu.retire at hu ⊢
  split
  case h_1 =>
    split
    · exact Exu.Idle.endSlice hp
    · exact Exu.Idle.step x
  case h_5 =>
    refine (opRun_idle x w op fun he => ?_).trans (Exu.Idle.next _)
    subst he
    exact (Exu.Idle.next (opRun .cml x w)).unres.symm.trans (hu rfl)
  all_goals exact Exu.Idle.branch x _ _

/-! ### Issue -/

/-- The vector unit that an instruction issues on, the wakes that it starts and what is counted (R246, R247). -/
theorem Exu.issue_spec (x : Exu) (no : Bool) (op : XOp) :
    let free := op.isVector && !no && !x.fenced
    (x.issue no op).1.wide = (if free && x.wide == .off then .waking else x.wide) ∧
      (x.issue no op).1.wakeReq = (x.wakeReq || (free && x.wide == .poweringDown)) ∧
      (x.issue no op).1.activeWide = (if op.isVector then free && x.wide == .ready else x.activeWide) ∧
      (x.issue no op).2.wide = (if free && x.wide == .ready then 1 else 0) ∧
      (x.issue no op).2.narrow = (if op.isVector && !(free && x.wide == .ready) then 1 else 0) ∧
      (x.issue no op).2.wakes = (if free && x.wide == .off then 1 else 0) := by
  dsimp only
  unfold Exu.issue
  cases hv : op.isVector
  · simp
  · cases hn : no || x.fenced
    · obtain ⟨rfl, hf⟩ := Bool.or_eq_false_iff.1 hn
      cases x.wide <;> simp [hf]
    · have : (!no && !x.fenced) = false := by rw [← Bool.not_or, hn]; rfl
      simp [this]

/-- A unit that waits issues nothing (R252, R253). -/
theorem Dev.onHearth_not_ready {d : Dev} {h : Nat} (hr : d.unitReady h = false) (op : XOp) (w : XFields) (flt : Option XFault) :
    d.onHearth h (fun d => d.xCmd h op w flt) = d := by
  have hx : d.xCmd h op w flt = d := by
    unfold Dev.xCmd
    refine if_pos ?_
    revert hr
    unfold Dev.unitReady
    cases (d.hearth h).exu.pend <;> cases (d.hearth h).exu.unres <;> simp
  have hh : d.hearthFault d h = d := by
    unfold Dev.hearthFault
    rw [if_pos (by simp)]
  simp [Dev.onHearth, Dev.ifQuenched, hx, hh]

/-! ### Branches and END -/

/-- A branch that issues: the word that comes next is the one that it names, or the next (R234). -/
theorem retires_branch {s : State} {h : Nat} {op : XOp} {w : XFields} {c : Prop} [Decidable c] (hi : s.dev.issues h op w)
    (hc : (s.dev.hearth h).exu.taken op w = decide c)
    (hb : ∀ x : Exu, x.retire op w = if x.taken op w then { x with pos := x.pos + 1 + w.imm.toNat } else x.step) :
    Retires (op.cmd h w none) h s (fun y =>
      let x := (s.dev.hearth h).exu
      y = { x.moved y with pos := if c then x.pos + 1 + w.imm.toNat else x.pos + 1 }) := by
  obtain ⟨hp, hu, _⟩ := Dev.issues_unit hi
  have hd := (Exu.done_found (s.dev.hearth h).exu (s.dev.narrowOnly h) op w).trans (hb _)
  have ht : ((s.dev.hearth h).exu.found (s.dev.narrowOnly h) op).taken op w = (s.dev.hearth h).exu.taken op w := by cases op <;> rfl
  simp only [ht, hc, decide_eq_true_eq] at hd
  refine retires_of _ s h op w _ hi (exec_cmd op h w none s) ?_ ?_ ?_ <;> rw [hd] <;>
    by_cases c <;> simp [Exu.step, Exu.found, Exu.moved, *]

/-- END where nothing stands in its way: the slice ends, or the next word comes next where no slice is run (R234). -/
theorem retires_end {s : State} {h : Nat} {w : XFields} {P : Exu → Prop} (hi : s.dev.issues h .endS w)
    (hP : P { (if (s.dev.hearth h).exu.busy then ((s.dev.hearth h).exu.found (s.dev.narrowOnly h) .endS).endSlice
      else ((s.dev.hearth h).exu.found (s.dev.narrowOnly h) .endS).step) with rpe := 0, fixes := 0 }) :
    Retires (.xEnd h w none) h s P := by
  have hd : (s.dev.hearth h).exu.done (s.dev.narrowOnly h) .endS w = if (s.dev.hearth h).exu.busy then
      ((s.dev.hearth h).exu.found (s.dev.narrowOnly h) .endS).endSlice else ((s.dev.hearth h).exu.found (s.dev.narrowOnly h) .endS).step :=
    Exu.done_found ..
  have hidle := retire_idle (x := (s.dev.hearth h).exu.found (s.dev.narrowOnly h) .endS) rfl .endS w nofun
  rw [← Exu.done_found] at hidle
  refine retires_of _ s h .endS w P hi (exec_cmd .endS h w none s) ?_ ?_ (hd ▸ hP)
  · exact hidle.unres.trans (Dev.issues_unit hi).2.1
  · exact hidle.pend

/-! ### The statement -/

/-- Settles O45: issue decides the power state and the counters, and the operation leaves them alone. -/
theorem unitIssue : Obligations.UnitIssue := by
  refine ⟨fun s h op w hi hc => ?issue, fun s h op w flt hw => ?refused, fun s h op w flt hw hr => ?waits, fun s h w hi => ?nop,
    fun s h w hi => ?brz, fun s h w hi => ?brnz, fun s h w hi => ?brmz, fun s h w b j rest hi hb hl => ?next, fun s h w hi hb hl => ?last,
    fun s h w hi hb => ?idle⟩
  case issue =>
    obtain ⟨hp, hu, _⟩ := Dev.issues_unit hi
    have hidle := retire_idle (x := (s.dev.hearth h).exu.found (s.dev.narrowOnly h) op) rfl op w (by rwa [← Exu.done_found])
    rw [← Exu.done_found] at hidle
    obtain ⟨hx, hexu, honly⟩ := State.unit_next s h op w hi (hidle.unres.trans hu) hidle.pend
    obtain ⟨i1, i2, i3, i4, i5, i6⟩ := (s.dev.hearth h).exu.issue_spec (s.dev.narrowOnly h) op
    have hr := Dev.xRun_none s.dev h op w (hidle.unres.trans hu)
    obtain ⟨c1, c2, c3⟩ := Dev.exuEvents_counters (s.dev.hearthUpd h (fun k => { k with exu := { (s.dev.hearth h).exu.done (s.dev.narrowOnly h) op w with rpe := 0, fixes := 0 } })) h (s.dev.hearth h).exu ((s.dev.hearth h).exu.issue (s.dev.narrowOnly h) op).2
      ((s.dev.hearth h).exu.done (s.dev.narrowOnly h) op w).rpe ((s.dev.hearth h).exu.done (s.dev.narrowOnly h) op w).fixes (Exu.issue_frec ..)
    rw [← hr] at c1 c2 c3
    refine ⟨_, (exec_cmd op h w none s).trans hx, ?_⟩
    dsimp only
    rw [hexu]
    refine ⟨honly, hidle.pend, hidle.unres.trans hu, hidle.wide.trans i1, hidle.wakeReq.trans i2, hidle.activeWide.trans i3, ?_, ?_, ?_⟩
    · rw [c1, i4]; rfl
    · rw [c2, i5]; rfl
    · rw [c3, i6]; rfl
  case refused =>
    rw [exec_cmd]
    simp [State.unit, hw]
  case waits =>
    refine ⟨s.dev, ?_, rfl⟩
    rw [exec_cmd]
    unfold State.unit
    rw [if_pos hw, Dev.onHearth_not_ready hr]
  case nop =>
    refine retires_step _ s h .nop w _ hi rfl id (fun x hu _ => if_neg (by simp [opRun, opNop, hu])) (fun x => ⟨rfl, rfl⟩) ?_
    simp [Exu.step, Exu.found, Exu.moved, (Dev.issues_unit hi).1]
  case brz => exact retires_branch hi rfl (fun _ => rfl)
  case brnz => exact retires_branch hi (by simp [Exu.taken, bne, BEq.beq]) (fun _ => rfl)
  case brmz => exact retires_branch hi rfl (fun _ => rfl)
  case next =>
    refine retires_end hi ?_
    have he : ((s.dev.hearth h).exu.found (s.dev.narrowOnly h) .endS).endSlice =
        ({ (s.dev.hearth h).exu.found (s.dev.narrowOnly h) .endS with results := (s.dev.hearth h).exu.results ++ [(s.dev.hearth h).exu.result] } : Exu).enter
          b j (b != (s.dev.hearth h).exu.bil) := by
      unfold Exu.endSlice
      simp only [Exu.found, hl]
      rfl
    rw [if_pos hb, he]
    refine ⟨rfl, rfl, rfl, rfl, rfl, rfl, rfl, rfl, rfl, rfl, rfl, rfl, rfl, rfl, rfl, rfl, ?_, ?_⟩ <;>
      by_cases hbil : b = (s.dev.hearth h).exu.bil <;> simp [Exu.enter, Exu.found, hbil]
  case last =>
    refine retires_end hi ?_
    have he : ((s.dev.hearth h).exu.found (s.dev.narrowOnly h) .endS).endSlice =
        ({ (s.dev.hearth h).exu.found (s.dev.narrowOnly h) .endS with results := (s.dev.hearth h).exu.results ++ [(s.dev.hearth h).exu.result] } : Exu).halt := by
      unfold Exu.endSlice
      simp only [Exu.found, hl]
      rfl
    rw [if_pos hb, he]
    simp only [Exu.halt, Exu.found, Exu.moved, (Dev.issues_unit hi).1]
  case idle =>
    refine retires_end hi ?_
    simp [hb, Exu.step, Exu.found, Exu.moved, (Dev.issues_unit hi).1]

end Sys2Proof.Machine

/-!
PROOF. Faults (R250, R252, R253, Table 7.9): what an execution that meets a fault leaves in the unit and in the fault record, what a translation that
goes through leaves alone (R362), and the statement of faults assembled from both.
-/
namespace Sys2Proof.Machine

/-! ### Numbers as bytes -/

theorem natLE_length (n x : Nat) : (natLE n x).length = n := by
  induction n generalizing x with
  | zero => rfl
  | succ n ih => simp [natLE, ih]

theorem leNat_natLE (n x : Nat) : leNat (natLE n x) = x % 256 ^ n := by
  induction n generalizing x with
  | zero => simp [natLE, leNat, Nat.mod_one]
  | succ n ih => rw [natLE, leNat, ih, BitVec.toNat_ofNat, show 2 ^ 8 = 256 from rfl, pow_succ', Nat.mod_mul]

theorem leNat_append (a b : Bytes) : leNat (a ++ b) = leNat a + 256 ^ a.length * leNat b := by
  induction a with
  | nil => simp [leNat]
  | cons x r ih =>
    simp only [List.cons_append, leNat, ih, List.length_cons, pow_succ']
    ring

theorem leNat_lt (b : Bytes) : leNat b < 256 ^ b.length := by
  induction b with
  | nil => simp [leNat]
  | cons x r ih =>
    have := x.isLt
    simp only [leNat, List.length_cons, pow_succ']
    omega

theorem fieldAt_lt (b : Bytes) (off n : Nat) : fieldAt b off n < 256 ^ n :=
  (leNat_lt _).trans_le (Nat.pow_le_pow_right (by decide) (List.length_take_le _ _))

/-- A field that begins past the bytes in front. -/
theorem fieldAt_append_right (a b : Bytes) (off n : Nat) : fieldAt (a ++ b) (a.length + off) n = fieldAt b off n := by
  simp [fieldAt]

/-- A field that ends within the bytes in front. -/
theorem fieldAt_append_left (a b : Bytes) {off n : Nat} (h : off + n ≤ a.length) : fieldAt (a ++ b) off n = fieldAt a off n := by
  unfold fieldAt
  rw [List.drop_append_of_le_length (by omega), List.take_append_of_le_length (by simp; omega)]

theorem fieldAt_self (a : Bytes) : fieldAt a 0 a.length = leNat a := by simp [fieldAt]

/-! ### Bytes in consecutive registers -/

theorem Dev.setRegs_reg (l : List Nat) (a : Nat) (v : Nat → Word) (r : Nat) : ∀ d : Dev, (∀ i ∈ l, r ≠ a + 4 * i) →
    (l.foldl (fun d i => Dev.setReg d (a + 4 * i) (v i)) d).reg r = d.reg r := by
  induction l with
  | nil => exact fun _ _ => rfl
  | cons j l ih =>
    intro d h
    rw [List.foldl_cons, ih _ (fun i hi => h i (by simp [hi])), Dev.reg_setReg_at, if_neg (h j (by simp))]

theorem Dev.reg_setRegBytes_ne (d : Dev) (a : Nat) (b : Bytes) {r : Nat} (h : r < a ∨ a + 4 * ceilDiv b.length 4 ≤ r) :
    (d.setRegBytes a b).reg r = d.reg r :=
  Dev.setRegs_reg _ _ _ _ _ (fun i hi => by have := List.mem_range.1 hi; omega)

theorem Dev.regN_setRegBytes (d : Dev) (a : Nat) (b : Bytes) {i : Nat} (hi : i < ceilDiv b.length 4) :
    (d.setRegBytes a b).regN (a + 4 * i) = fieldAt b (4 * i) 4 := by
  have key : ∀ (n : Nat) (d : Dev), i < n →
      ((List.range n).foldl (fun d i => Dev.setReg d (a + 4 * i) (BitVec.ofNat 32 (fieldAt b (4 * i) 4))) d).reg (a + 4 * i) =
        BitVec.ofNat 32 (fieldAt b (4 * i) 4) := by
    intro n
    induction n with
    | zero => intro d h; omega
    | succ n ih =>
      intro d h
      rw [List.range_succ, List.foldl_append, List.foldl_cons, List.foldl_nil, Dev.reg_setReg_at]
      by_cases he : i = n
      · subst he; rw [if_pos rfl]
      · rw [if_neg (by omega), ih d (by omega)]
  unfold Dev.regN Dev.setRegBytes
  rw [key _ d hi, BitVec.toNat_ofNat]
  exact Nat.mod_eq_of_lt (fieldAt_lt b (4 * i) 4)

/-! ### The fault record (Table 7.9) -/

theorem faultRecord_length (x : Exu) (f : XFault) (n op : Nat) : (faultRecord x f n op).length = 32 := by
  simp [faultRecord, natLE_length, zeros]

theorem faultRecord_code (x : Exu) (f : XFault) (n op : Nat) : fieldAt (faultRecord x f n op) 0 4 = (x.ctx.codeOff + 8 * x.pos) % 2 ^ 32 := by
  simp [faultRecord, fieldAt, natLE, leNat]; omega

theorem faultRecord_where (x : Exu) {f : XFault} (hf : f.cause < 256) (n op : Nat) :
    fieldAt (faultRecord x f n op) 4 4 = x.ctx.stage % 2 ^ 16 + 2 ^ 16 * (f.lane % 2 ^ 8) + 2 ^ 24 * f.cause := by
  simp [faultRecord, fieldAt, natLE, leNat]; omega

theorem faultRecord_addr (x : Exu) {f : XFault} (hf : f.cause ≠ 5 ∧ f.cause ≠ 0x11) (n op : Nat) :
    fieldAt (faultRecord x f n op) 8 4 + 2 ^ 32 * fieldAt (faultRecord x f n op) 12 4 = f.addr.toNat := by
  have := f.addr.isLt
  simp [faultRecord, fieldAt, natLE, leNat, hf]; omega

theorem faultRecord_slice (x : Exu) (f : XFault) {n : Nat} (hn : n < 256) (op : Nat) :
    fieldAt (faultRecord x f n op) 16 4 = x.slice % 2 ^ 16 + 2 ^ 16 * n := by
  simp [faultRecord, fieldAt, natLE, leNat, zeros]; omega

/-- What a fault adds to a hearth's registers: its counters, and the fault record. -/
theorem Dev.exuEvents_fault (d : Dev) (h : Nat) (x : Exu) {e : XEv} (rpe fixes : Nat) {f : XFault} {n : Nat} (he : e.frec = some (f, n)) :
    (d.exuEvents h x e rpe fixes).regN (0x02100000 + 0x1000 * h + 8) = satAdd 32 (d.regN (0x02100000 + 0x1000 * h + 8)) e.wakes ∧
      (d.exuEvents h x e rpe fixes).regN (0x02100000 + 0x1000 * h + 0x20) = satAdd 32 (d.regN (0x02100000 + 0x1000 * h + 0x20)) e.faults ∧
      (d.exuEvents h x e rpe fixes).regN (0x02100000 + 0x1000 * h + 0x24) = satAdd 32 (d.regN (0x02100000 + 0x1000 * h + 0x24)) e.unres ∧
      (∀ i < 8, (d.exuEvents h x e rpe fixes).regN (0x02100000 + 0x1000 * h + 0x40 + 4 * i) = fieldAt (faultRecord x f n d.opSec) (4 * i) 4) := by
  unfold Dev.exuEvents
  simp only [he]
  generalize 0x02100000 + 0x1000 * h = b
  have out (d : Dev) (op : Nat) {r : Nat} (hr : r < b + 0x40) : (d.setRegBytes (b + 0x40) (faultRecord x f n op)).regN r = d.regN r :=
    Dev.regN_congr (d.reg_setRegBytes_ne _ _ (.inl hr))
  refine ⟨?_, ?_, ?_, fun i hi => ?_⟩
  · rw [out _ _ (by omega), Dev.regN_bump_ne _ _ _ _ (by omega), Dev.regN_count64_ne _ _ _ _ (by omega) (by omega), Dev.regN_bump_ne _ _ _ _ (by omega),
      Dev.regN_bump_ne _ _ _ _ (by omega), Dev.regN_bump_self, Dev.regN_count64_ne _ _ _ _ (by omega) (by omega),
      Dev.regN_count64_ne _ _ _ _ (by omega) (by omega)]
  · rw [out _ _ (by omega), Dev.regN_bump_ne _ _ _ _ (by omega), Dev.regN_count64_ne _ _ _ _ (by omega) (by omega), Dev.regN_bump_ne _ _ _ _ (by omega),
      Dev.regN_bump_self, Dev.regN_bump_ne _ _ _ _ (by omega), Dev.regN_count64_ne _ _ _ _ (by omega) (by omega),
      Dev.regN_count64_ne _ _ _ _ (by omega) (by omega)]
  · rw [out _ _ (by omega), Dev.regN_bump_ne _ _ _ _ (by omega), Dev.regN_count64_ne _ _ _ _ (by omega) (by omega), Dev.regN_bump_self,
      Dev.regN_bump_ne _ _ _ _ (by omega), Dev.regN_bump_ne _ _ _ _ (by omega), Dev.regN_count64_ne _ _ _ _ (by omega) (by omega),
      Dev.regN_count64_ne _ _ _ _ (by omega) (by omega)]
  · rw [Dev.regN_setRegBytes _ _ _ (by rw [faultRecord_length]; exact hi)]

/-! ### A translation that goes through (R362) -/

/-- The frame that backs a page is the memory system's choice, under the shares of functions. -/
theorem Dev.backFrame_mem_congr {d e : Dev} (hm : e.mem = d.mem) (hf : e.fn = d.fn) (r : Region) (page : Nat) :
    (e.backFrame r page).map Dev.mem = (d.backFrame r page).map Dev.mem := by
  have h1 : e.usableUnits r.tier = d.usableUnits r.tier := by simp only [Dev.usableUnits, Dev.memUnit, hm]
  have h2 : e.freeFrame = d.freeFrame := funext fun u => by simp only [Dev.freeFrame, Dev.backed, Dev.memUnit, hm]
  have h3 : e.frameQuota r.ctx r.tier = d.frameQuota r.ctx r.tier := by simp only [Dev.frameQuota, hf]
  have h4 : e.framesUsed r.ctx r.tier = d.framesUsed r.ctx r.tier := by simp only [Dev.framesUsed, hm]
  unfold Dev.backFrame
  simp only [h1, h2, h3, h4, hm, Option.map_map]
  rfl

/-- A translation looks at the memory system and at the shares of functions. -/
theorem Dev.translate_fst_congr {d e : Dev} (hm : e.mem = d.mem) (hf : e.fn = d.fn) (ctx dva : Nat) :
    (e.translate ctx dva false).1 = (d.translate ctx dva false).1 := by
  have hx {d e : Dev} (hm : e.mem = d.mem) (page : Nat) : e.xlEntry ctx page = d.xlEntry ctx page := by simp only [Dev.xlEntry, hm]
  have hr (page : Nat) : e.regionAt ctx page = d.regionAt ctx page := by simp only [Dev.regionAt, hm]
  unfold Dev.translate
  simp only [Bool.false_and, Bool.false_eq_true, if_false, hx hm, hr]
  split
  · rfl
  · split
    · rfl
    · rename_i r _
      have hb := Dev.backFrame_mem_congr hm hf r (dva / frameBytes)
      cases hd : d.backFrame r (dva / frameBytes) with
      | none =>
        rw [hd, Option.map_none, Option.map_eq_none_iff] at hb
        rw [hb]
      | some d1 =>
        rw [hd, Option.map_some] at hb
        obtain ⟨e1, he, h1⟩ := Option.map_eq_some_iff.1 hb
        simp only [he, hx h1]
        split <;> rfl

theorem Dev.xltFault_keeps (d : Dev) (ctx dva cond : Nat) : (∀ k, (d.xltFault ctx dva cond).hearth k = d.hearth k) ∧
    (d.xltFault ctx dva cond).health = d.health ∧ (∀ r, r < 0x02610010 → (d.xltFault ctx dva cond).reg r = d.reg r) := by
  unfold Dev.xltFault
  refine ⟨fun k => by simp, ?_, fun r hr => ?_⟩
  · rw [Dev.setRegBytes_keep Dev.health (fun _ _ _ => rfl)]; simp
  · rw [Dev.reg_setRegBytes_ne _ _ _ (.inl (by omega)), Dev.reg_bump_ne _ _ _ _ (by omega)]

theorem Dev.backFrame_keeps {d d1 : Dev} {r : Region} {page : Nat} (h : d.backFrame r page = some d1) :
    (∀ k, d1.hearth k = d.hearth k) ∧ d1.health = d.health ∧ d1.regs = d.regs := by
  unfold Dev.backFrame at h
  obtain ⟨p, _, rfl⟩ := Option.map_eq_some_iff.1 h
  exact ⟨fun _ => rfl, rfl, rfl⟩

/-- What a read's translation that goes through changes is the memory system's: a frame, and the registers of translation faults. -/
theorem Dev.translate_ok_keeps {d : Dev} {ctx dva : Nat} {e : XlEntry} {off : Nat} (h : (d.translate ctx dva false).1 = .ok e off) :
    (∀ k, (d.translate ctx dva false).2.hearth k = d.hearth k) ∧ (d.translate ctx dva false).2.health = d.health ∧
      (∀ r, r < 0x02610010 → (d.translate ctx dva false).2.reg r = d.reg r) := by
  unfold Dev.translate at h ⊢
  simp only [Bool.false_and, Bool.false_eq_true, if_false] at h ⊢
  split
  · exact ⟨fun _ => rfl, rfl, fun _ _ => rfl⟩
  · rename_i hx
    rw [hx] at h
    split
    · rename_i hr; simp [hr] at h
    · rename_i r hr
      simp only [hr] at h
      split
      · rename_i hb; simp [hb] at h
      · rename_i d1 hb
        simp only [hb] at h
        obtain ⟨b1, b2, b3⟩ := Dev.backFrame_keeps hb
        obtain ⟨f1, f2, f3⟩ := d1.xltFault_keeps ctx dva 1
        split
        · exact ⟨fun k => (f1 k).trans (b1 k), f2.trans b2, fun r hr => (f3 r hr).trans (by simp only [Dev.reg, b3])⟩
        · exact ⟨fun _ => rfl, rfl, fun _ _ => rfl⟩

/-! ### An execution that meets a fault -/

section
variable {x : Exu} (hp : x.pend = none) (no : Bool) (op : XOp) (w : XFields) {f : XFault}
include hp

/-- A resolvable fault: the instruction writes nothing and waits (R252). -/
theorem Exu.execute_resolvable (h1 : 1 ≤ f.cause) (h5 : f.cause ≤ 5) : x.execute no op w (some f) =
    ({ (x.issue no op).1 with pend := some ⟨op, w, f, 1⟩ }, { wakes := (x.issue no op).2.wakes, faults := 1, frec := some (f, 1) }) := by
  have ha : x.attempt = 1 := by simp [Exu.attempt, hp]
  simp [Exu.execute, ha, resolvable, h1, h5]

/-- An uncorrectable error: the attempt is lost (R253). -/
theorem Exu.execute_uncorrectable (hc : f.cause = 0x10) : x.execute no op w (some f) =
    ({ (x.issue no op).1 with pend := none, unres := true },
      { wakes := (x.issue no op).2.wakes, unres := 1, frec := some ({ f with cause := 0x10, addr := f.addr }, 1) }) := by
  have ha : x.attempt = 1 := by simp [Exu.attempt, hp]
  simp [Exu.execute, ha, resolvable, hc]

end

section
variable {s : State} {h : Nat} {op : XOp} {w : XFields} {f : XFault}

/-- An instruction that meets a fault: the execution, what the memory system does about it, and what the fault begins (R588, R597). -/
theorem gives_of_fault (hi : s.dev.issues h op w) {e : Dev} (he : ((s.dev.xRun h op w (some f)).memFault h (some f)).spmUe h op w (some f) = e)
    {P : Dev → Prop} (hq : ((e.hearthFault s.dev h).hearth h).quenched = (s.dev.hearth h).quenched) (hP : P (e.hearthFault s.dev h)) :
    Gives (op.cmd h w (some f)) s P := by
  obtain ⟨hp, hu, hh⟩ := Dev.issues_unit hi
  have hc : s.dev.xCmd h op w (some f) = e := by
    have hlt : ¬ hearthCount ≤ h := Nat.not_le.2 hh
    simp [Dev.xCmd, Dev.xIssue, hp, hu, hlt, he]
  refine ⟨_, ?_, hP⟩
  rw [exec_cmd]
  unfold State.unit Dev.onHearth Dev.ifQuenched
  simp only [hi.1, if_true, hc]
  rw [if_neg (by rw [hq]; cases (s.dev.hearth h).quenched <;> simp)]

/-- The hearth after an execution with a resolvable fault: the unit waits, and wide-unit faults are dated (R248, R252). -/
theorem Dev.xRun_resolvable (hi : s.dev.issues h op w) (h1 : 1 ≤ f.cause) (h5 : f.cause ≤ 5) :
    s.dev.xRun h op w (some f) = (s.dev.hearthUpd h (fun k => { k with
      exu := { ((s.dev.hearth h).exu.issue (s.dev.narrowOnly h) op).1 with pend := some ⟨op, w, f, 1⟩, rpe := 0, fixes := 0 }
      wideAt := if f.cause = 5 then recent s.dev.opSec k.wideAt ++ [s.dev.opSec] else k.wideAt })).exuEvents h (s.dev.hearth h).exu
        { wakes := ((s.dev.hearth h).exu.issue (s.dev.narrowOnly h) op).2.wakes, faults := 1, frec := some (f, 1) }
        ((s.dev.hearth h).exu.issue (s.dev.narrowOnly h) op).1.rpe ((s.dev.hearth h).exu.issue (s.dev.narrowOnly h) op).1.fixes := by
  unfold Dev.xRun
  simp only [Exu.execute_resolvable (Dev.issues_unit hi).1 _ op w h1 h5, beq_iff_eq, if_true]

/-- The hearth after an execution with an uncorrectable error: its attempt is lost, and the fault is dated (R253). -/
theorem Dev.xRun_uncorrectable (hi : s.dev.issues h op w) (hc : f.cause = 0x10) :
    s.dev.xRun h op w (some f) = (s.dev.hearthUpd h (fun k => { k with
      exu := { ((s.dev.hearth h).exu.issue (s.dev.narrowOnly h) op).1 with pend := none, unres := true, rpe := 0, fixes := 0 }
      unresAt := recent s.dev.opSec k.unresAt ++ [s.dev.opSec] })).exuEvents h (s.dev.hearth h).exu
        { wakes := ((s.dev.hearth h).exu.issue (s.dev.narrowOnly h) op).2.wakes, unres := 1, frec := some ({ f with cause := 0x10, addr := f.addr }, 1) }
        ((s.dev.hearth h).exu.issue (s.dev.narrowOnly h) op).1.rpe ((s.dev.hearth h).exu.issue (s.dev.narrowOnly h) op).1.fixes := by
  unfold Dev.xRun
  simp [Exu.execute_uncorrectable (Dev.issues_unit hi).1 _ op w hc, hc]

end

/-! ### What stands around it -/

/-- What registers and totals do not show, events of a unit do not change. -/
theorem Dev.exuEvents_keep {α : Type} (P : Dev → α) (hr : ∀ d a w, P (Dev.setReg d a w) = P d) (ht : ∀ (d : Dev) t, P { d with tally := t } = P d)
    (d : Dev) (h : Nat) (x : Exu) (e : XEv) (rpe fixes : Nat) : P (d.exuEvents h x e rpe fixes) = P d := by
  have hb (d : Dev) (a n : Nat) : P (d.bump a n) = P d := by
    unfold Dev.bump
    split
    · rfl
    · rw [hr, ht]
  have hc (d : Dev) (a n : Nat) : P (d.count64 a n) = P d := by
    unfold Dev.count64
    split
    · rfl
    · rw [Dev.setReg64, hr, hr]
  unfold Dev.exuEvents
  cases e.frec with
  | none => simp only [hb, hc]
  | some r => simp only [Dev.setRegBytes_keep P hr, hb, hc]

/-- What the memory system does about a fault that its translation comes through (R362, R377, R387). -/
theorem Dev.memFault_keeps {d : Dev} {h : Nat} {f : XFault} (ht : f.cause = 1 → ∀ r q, (d.hearth h).running = some r → d.query r.query = some q →
      ∃ e off, (d.translate (ctxOf q.x) f.addr.toNat false).1 = .ok e off) :
    (∀ k, (d.memFault h (some f)).hearth k = d.hearth k) ∧ (d.memFault h (some f)).health = d.health ∧
      (∀ r, r < 0x02610010 → r ≠ 0x0210020C + 0x1000 * h → (d.memFault h (some f)).reg r = d.reg r) := by
  have same : (∀ k, d.hearth k = d.hearth k) ∧ d.health = d.health ∧ (∀ r, r < 0x02610010 → r ≠ 0x0210020C + 0x1000 * h → d.reg r = d.reg r) :=
    ⟨fun _ => rfl, rfl, fun _ _ _ => rfl⟩
  unfold Dev.memFault
  dsimp only
  by_cases h1 : f.cause = 1
  · rw [if_pos h1]
    cases hr : (d.hearth h).running with
    | none => exact same
    | some r =>
      cases hq : d.query r.query with
      | none => simp [hq]
      | some q =>
        obtain ⟨e, off, he⟩ := ht h1 r q hr hq
        obtain ⟨t1, t2, t3⟩ := Dev.translate_ok_keeps he
        have hm : d.memRequest (ctxOf q.x) f.addr.toNat false (fun d _ _ => d) = (d.translate (ctxOf q.x) f.addr.toNat false).2 := by
          unfold Dev.memRequest
          rcases htr : d.translate (ctxOf q.x) f.addr.toNat false with ⟨v, d1⟩
          rw [htr] at he
          cases he
          rfl
        simp only [Option.bind_some, hq, hm]
        exact ⟨t1, t2, fun r hr _ => t3 r hr⟩
  · rw [if_neg h1]
    split
    · exact ⟨by simp, by simp, fun r _ hr => Dev.reg_bump_ne _ _ _ _ hr⟩
    · split
      · exact ⟨by simp, by simp, fun r hr _ => Dev.reg_bump_ne _ _ _ _ (by omega)⟩
      · exact same

/-- SPM_UE alone counts an uncorrectable error of the scratchpad (R377). -/
theorem Dev.spmUe_keeps (d : Dev) (h : Nat) (op : XOp) (w : XFields) (flt : Option XFault) :
    (∀ k, (d.spmUe h op w flt).hearth k = d.hearth k) ∧ (d.spmUe h op w flt).health = d.health ∧ (d.spmUe h op w flt).opSec = d.opSec ∧
      (∀ r, r ≠ 0x02100210 + 0x1000 * h → (d.spmUe h op w flt).reg r = d.reg r) := by
  unfold Dev.spmUe
  split
  · split
    · exact ⟨by simp, by simp, by simp, fun r hr => Dev.reg_bump_ne _ _ _ _ hr⟩
    · exact ⟨fun _ => rfl, rfl, rfl, fun _ _ => rfl⟩
  · exact ⟨fun _ => rfl, rfl, rfl, fun _ _ => rfl⟩

/-! ### The statement -/

section
variable {s : State} {h : Nat} {op : XOp} {w : XFields} {f : XFault}

/-- A fault with which a unit begins to wait: nothing but a wide-unit fault begins a recovery (R588). -/
theorem Dev.hearthFault_waits {d d0 : Dev} {h : Nat} {p : XPend} (hr : d0.recovers 1 h = false) (hp : (d.hearth h).exu.pend = some p)
    (h0 : (d0.hearth h).exu.pend = none) (hu : (d.hearth h).exu.unres = (d0.hearth h).exu.unres) :
    d.hearthFault d0 h = if p.flt.cause = 5 then d.recover 1 h else d := by
  unfold Dev.hearthFault
  cases hx : (d0.hearth h).exu.unres <;> simp [hp, h0, hu, hx, hr]

/-- A lost attempt begins the recovery of its hearth where that is not one too many (R588, R597). -/
theorem Dev.hearthFault_lost {d d0 : Dev} {h : Nat} (hr : d0.recovers 1 h = false) (hu : (d.hearth h).exu.unres = true)
    (h0 : (d0.hearth h).exu.unres = false) (hn : (recent d.opSec (d.hearth h).unresAt).length < 3) : d.hearthFault d0 h = d.recover 1 h := by
  have : ¬ 3 ≤ (recent d.opSec (d.hearth h).unresAt).length := by omega
  simp [Dev.hearthFault, hu, h0, hr, this]

theorem Dev.recover_spec {d : Dev} {c u : Nat} (hr : d.recovers c u = false) :
    (∀ k, (d.recover c u).hearth k = d.hearth k) ∧ (d.recover c u).health.recovering = d.health.recovering ++ [(c, u)] ∧
      (∀ r, (d.recover c u).regN r = d.regN r) := by
  unfold Dev.recover
  rw [if_neg (by simp [hr])]
  exact ⟨fun _ => rfl, rfl, fun _ => rfl⟩

/-- The unit that waits after a resolvable fault, and the counters and the record beside it (R252, Table 7.9). -/
theorem Dev.xRun_resolvable_spec (hi : s.dev.issues h op w) (h1 : 1 ≤ f.cause) (h5 : f.cause ≤ 5) :
    let d := s.dev.xRun h op w (some f)
    let b := 0x02100000 + 0x1000 * h
    let y := (s.dev.hearth h).exu.issue (s.dev.narrowOnly h) op
    d.hearth h = { s.dev.hearth h with
      exu := { y.1 with pend := some ⟨op, w, f, 1⟩, rpe := 0, fixes := 0 }
      wideAt := if f.cause = 5 then recent s.dev.opSec (s.dev.hearth h).wideAt ++ [s.dev.opSec] else (s.dev.hearth h).wideAt } ∧
    (∀ k, k ≠ h → d.hearth k = s.dev.hearth k) ∧ d.health = s.dev.health ∧ d.mem = s.dev.mem ∧ d.fn = s.dev.fn ∧ d.query = s.dev.query ∧
    d.regN (b + 8) = satAdd 32 (s.dev.regN (b + 8)) y.2.wakes ∧ d.regN (b + 0x20) = satAdd 32 (s.dev.regN (b + 0x20)) 1 ∧
    d.regN (b + 0x24) = s.dev.regN (b + 0x24) ∧
    (∀ i < 8, d.regN (b + 0x40 + 4 * i) = fieldAt (faultRecord (s.dev.hearth h).exu f 1 s.dev.opSec) (4 * i) 4) := by
  dsimp only
  rw [Dev.xRun_resolvable hi h1 h5]
  obtain ⟨c1, c2, c3, c4⟩ := Dev.exuEvents_fault (s.dev.hearthUpd h (fun k => { k with
      exu := { ((s.dev.hearth h).exu.issue (s.dev.narrowOnly h) op).1 with pend := some ⟨op, w, f, 1⟩, rpe := 0, fixes := 0 }
      wideAt := if f.cause = 5 then recent s.dev.opSec k.wideAt ++ [s.dev.opSec] else k.wideAt })) h (s.dev.hearth h).exu
    ((s.dev.hearth h).exu.issue (s.dev.narrowOnly h) op).1.rpe ((s.dev.hearth h).exu.issue (s.dev.narrowOnly h) op).1.fixes
    (e := { wakes := ((s.dev.hearth h).exu.issue (s.dev.narrowOnly h) op).2.wakes, faults := 1, frec := some (f, 1) }) rfl
  refine ⟨?_, fun k hk => ?_, ?_, ?_, ?_, ?_, c1, c2, c3.trans (satAdd_zero (Dev.regN_lt _ _)), c4⟩
  · rw [Dev.exuEvents_hearth, Dev.hearth_hearthUpd]
  · rw [Dev.exuEvents_hearth, Dev.hearth_hearthUpd_ne _ _ _ _ hk]
  · exact Dev.exuEvents_keep Dev.health (fun _ _ _ => rfl) (fun _ _ => rfl) ..
  · exact Dev.exuEvents_keep Dev.mem (fun _ _ _ => rfl) (fun _ _ => rfl) ..
  · exact Dev.exuEvents_keep Dev.fn (fun _ _ _ => rfl) (fun _ _ => rfl) ..
  · exact Dev.exuEvents_keep Dev.query (fun _ _ _ => rfl) (fun _ _ => rfl) ..

/-- The unit whose attempt is lost, and the counters beside it (R253). -/
theorem Dev.xRun_uncorrectable_spec (hi : s.dev.issues h op w) (hc : f.cause = 0x10) :
    let d := s.dev.xRun h op w (some f)
    let b := 0x02100000 + 0x1000 * h
    d.hearth h = { s.dev.hearth h with
      exu := { ((s.dev.hearth h).exu.issue (s.dev.narrowOnly h) op).1 with pend := none, unres := true, rpe := 0, fixes := 0 }
      unresAt := recent s.dev.opSec (s.dev.hearth h).unresAt ++ [s.dev.opSec] } ∧
    (∀ k, k ≠ h → d.hearth k = s.dev.hearth k) ∧ d.health = s.dev.health ∧ d.opSec = s.dev.opSec ∧
    d.regN (b + 0x24) = satAdd 32 (s.dev.regN (b + 0x24)) 1 ∧ d.regN (b + 0x20) = s.dev.regN (b + 0x20) := by
  dsimp only
  rw [Dev.xRun_uncorrectable hi hc]
  obtain ⟨_, c2, c3, _⟩ := Dev.exuEvents_fault (s.dev.hearthUpd h (fun k => { k with
      exu := { ((s.dev.hearth h).exu.issue (s.dev.narrowOnly h) op).1 with pend := none, unres := true, rpe := 0, fixes := 0 }
      unresAt := recent s.dev.opSec k.unresAt ++ [s.dev.opSec] })) h (s.dev.hearth h).exu
    ((s.dev.hearth h).exu.issue (s.dev.narrowOnly h) op).1.rpe ((s.dev.hearth h).exu.issue (s.dev.narrowOnly h) op).1.fixes
    (e := { wakes := ((s.dev.hearth h).exu.issue (s.dev.narrowOnly h) op).2.wakes, unres := 1, frec := some ({ f with cause := 0x10, addr := f.addr }, 1) }) rfl
  refine ⟨?_, fun k hk => ?_, ?_, ?_, c3, c2.trans (satAdd_zero (Dev.regN_lt _ _))⟩
  · rw [Dev.exuEvents_hearth, Dev.hearth_hearthUpd]
  · rw [Dev.exuEvents_hearth, Dev.hearth_hearthUpd_ne _ _ _ _ hk]
  · exact Dev.exuEvents_keep Dev.health (fun _ _ _ => rfl) (fun _ _ => rfl) ..
  · exact Dev.exuEvents_opSec ..

theorem issue_unres (x : Exu) (no : Bool) (op : XOp) : (x.issue no op).1.unres = x.unres := by rw [Exu.issue_fst]

theorem issue_pend (x : Exu) (no : Bool) (op : XOp) : (x.issue no op).1.pend = x.pend := by rw [Exu.issue_fst]

end

/-- Settles O46: the execution decides the unit and its record, the memory system adds its own, and the hearth's recovery follows. -/
theorem unitFaults : Obligations.UnitFaults := by
  refine ⟨fun s h op w f hi h1 h4 hr ht => ?resolvable, fun s h op w f hi hc hr hn => ?lost, fun s h op w f hi hc hr => ?wide⟩
  case resolvable =>
    obtain ⟨hp, hu, hh⟩ := Dev.issues_unit hi
    obtain ⟨x1, x2, x3, x4, x5, x6, x7, x8, x9, x10⟩ := Dev.xRun_resolvable_spec hi h1 (by omega)
    obtain ⟨m1, m2, m3⟩ := Dev.memFault_keeps (d := s.dev.xRun h op w (some f)) (h := h) (f := f) (by
      intro hc r q hrun hq
      rw [x1] at hrun
      rw [x6] at hq
      rw [Dev.translate_fst_congr x4 x5]
      exact ht hc r q hrun hq)
    have he : ((s.dev.xRun h op w (some f)).memFault h (some f)).spmUe h op w (some f) = (s.dev.xRun h op w (some f)).memFault h (some f) :=
      if_neg (by have : f.cause ≠ 0x10 := by omega
                 simp [this])
    have hf : ((s.dev.xRun h op w (some f)).memFault h (some f)).hearthFault s.dev h = (s.dev.xRun h op w (some f)).memFault h (some f) := by
      rw [Dev.hearthFault_waits hr (p := ⟨op, w, f, 1⟩) (by rw [m1, x1]) hp (by rw [m1, x1]; exact issue_unres _ _ _)]
      exact if_neg (by show f.cause ≠ 5; omega)
    have reg (r : Nat) (h1 : r < 0x02610010) (h2 : r ≠ 0x0210020C + 0x1000 * h) :
        ((s.dev.xRun h op w (some f)).memFault h (some f)).regN r = (s.dev.xRun h op w (some f)).regN r := Dev.regN_congr (m3 r h1 h2)
    have record (i : Nat) (hi : i < 8) : ((s.dev.xRun h op w (some f)).memFault h (some f)).regN (0x02100000 + 0x1000 * h + 0x40 + 4 * i) =
        fieldAt (faultRecord (s.dev.hearth h).exu f 1 s.dev.opSec) (4 * i) 4 :=
      (reg _ (by omega) (by omega)).trans (x10 i hi)
    refine gives_of_fault hi he ?_ ?_ <;> rw [hf]
    · rw [m1, x1]
    · refine ⟨by rw [m1, x1], ?_, fun k hk => by rw [m1, x2 k hk], ?_, ?_, ?_, ?_, ?_, ?_⟩
      · rw [reg _ (by omega) (by omega), x7]
      · rw [reg _ (by omega) (by omega), x8]
      · rw [reg _ (by omega) (by omega), x9]
      · exact (record 0 (by omega)).trans (faultRecord_code ..)
      · exact (record 1 (by omega)).trans (faultRecord_where _ (by omega) ..)
      · exact (congrArg₂ (fun a b => a + 2 ^ 32 * b) (record 2 (by omega)) (record 3 (by omega))).trans (faultRecord_addr _ (by omega) ..)
      · exact (record 4 (by omega)).trans (faultRecord_slice _ _ (by omega) _)
  case lost =>
    obtain ⟨hp, hu, hh⟩ := Dev.issues_unit hi
    obtain ⟨x1, x2, x3, x4, x5, x6⟩ := Dev.xRun_uncorrectable_spec hi hc
    have hm : (s.dev.xRun h op w (some f)).memFault h (some f) = s.dev.xRun h op w (some f) := by simp [Dev.memFault, hc]
    obtain ⟨m1, m2, m3, m4⟩ := (s.dev.xRun h op w (some f)).spmUe_keeps h op w (some f)
    rw [← hm] at m1 m2 m3 m4
    have hf := Dev.hearthFault_lost (d := ((s.dev.xRun h op w (some f)).memFault h (some f)).spmUe h op w (some f)) hr (h := h)
      (by rw [m1, hm, x1]) hu (by rw [m1, m3, hm, x1, x4, recent_append_self]; omega)
    obtain ⟨r1, r2, r3⟩ := Dev.recover_spec (d := ((s.dev.xRun h op w (some f)).memFault h (some f)).spmUe h op w (some f)) (c := 1) (u := h)
      (by rw [Dev.recovers, m2, hm, x3]; exact hr)
    refine gives_of_fault hi rfl ?_ ?_ <;> rw [hf]
    · rw [r1, m1, hm, x1]
    · refine ⟨?_, fun k hk => by rw [r1, m1, hm, x2 k hk], by rw [r2, m2, hm, x3], ?_, ?_⟩
      · rw [r1, m1, hm, x1]
        simp only [issue_pend, hp]
      · rw [r3, Dev.regN_congr (m4 _ (by omega)), hm, x5]
      · rw [r3, Dev.regN_congr (m4 _ (by omega)), hm, x6]
  case wide =>
    obtain ⟨hp, hu, hh⟩ := Dev.issues_unit hi
    obtain ⟨x1, x2, x3, _⟩ := Dev.xRun_resolvable_spec hi (by omega) (by omega : f.cause ≤ 5)
    have he : ((s.dev.xRun h op w (some f)).memFault h (some f)).spmUe h op w (some f) = s.dev.xRun h op w (some f) := by
      simp [Dev.memFault, Dev.spmUe, hc]
    have hf : (s.dev.xRun h op w (some f)).hearthFault s.dev h = (s.dev.xRun h op w (some f)).recover 1 h := by
      rw [Dev.hearthFault_waits hr (p := ⟨op, w, f, 1⟩) (by rw [x1]) hp (by rw [x1]; exact issue_unres _ _ _)]
      exact if_pos hc
    obtain ⟨r1, r2, _⟩ := Dev.recover_spec (d := s.dev.xRun h op w (some f)) (c := 1) (u := h) (by rw [Dev.recovers, x3]; exact hr)
    refine gives_of_fault hi he ?_ ?_ <;> rw [hf]
    · rw [r1, x1]
    · rw [r1, r2, x1, x3]
      exact ⟨rfl, rfl, if_pos hc⟩

end Sys2Proof.Machine

/-! PROOF. Queue pairs (13): writes to the control register, doorbells, completions and vectors (R394, R396, R397, R408 to R411, R416). -/
namespace Sys2Proof.Machine

/-- What a command that runs at a time gives. -/
theorem gives_run {i : Instr} {s : State} {t : Nat} {f : Dev → Dev} {P : Dev → Prop} (he : exec i s = .next (s.run t f)) (h : P (f (s.dev.at t))) :
    Gives i s P := ⟨_, he, h⟩

/-- What a command that runs at a time does before what falls due. -/
theorem effects_run {i : Instr} {s : State} {t : Nat} {f : Dev → Dev} {P : Dev → Prop} (he : exec i s = .next (s.run t (fun d => (f d).tidy)))
    (h : P (f (s.dev.at t))) : Effects i s P := ⟨_, he, h⟩

/-- What a host's command gives where its function is reached. -/
theorem gives_host {i : Instr} {s : State} {t x : Nat} {f : Dev → Dev} {P : Dev → Prop} (hs : s.dev.serves x = true)
    (he : exec i s = .next (s.run t (fun d => d.fromHost x f))) (h : P (f (s.dev.at t))) : Gives i s P :=
  gives_run he (by rwa [Dev.fromHost_serves _ _ _ _ hs])

/-- What a host's command does before what falls due, where its function is reached. -/
theorem effects_host {i : Instr} {s : State} {t x : Nat} {f : Dev → Dev} {P : Dev → Prop} (hs : s.dev.serves x = true)
    (he : exec i s = .next (s.run t (fun d => d.fromHost x (fun d => (f d).tidy)))) (h : P (f (s.dev.at t))) : Effects i s P :=
  ⟨f (s.dev.at t), by rw [he, State.run, Dev.fromHost_serves _ _ _ _ hs], h⟩

/-! ### The control register -/

@[simp] theorem Dev.hasQueue_at (d : Dev) (t x q : Nat) : (d.at t).hasQueue x q = d.hasQueue x q := rfl

theorem Dev.qp_queueEnable {d : Dev} {x q : Nat} (hq : d.hasQueue x q) (hd : (d.qp x q).state = .disabled) :
    (d.queueEnable x q).qp x q = if Dev.enableOk x (d.qp x q) then
      { d.qp x q with state := .active, reason := 0, sqHead := 0, sqTail := 0, cqHead := 0, cqTail := 0, posted := [] }
    else { d.qp x q with reason := 0x20 } := by
  unfold Dev.queueEnable
  by_cases hok : Dev.enableOk x (d.qp x q) <;> simp [hq, hd, hok]

theorem Dev.qp_queueDisable {d : Dev} {x q : Nat} (hq : d.hasQueue x q) (ha : (d.qp x q).state = .active) :
    (d.queueDisable x q).qp x q =
      if (d.qp x q).outstanding = 0 ∧ (d.qp x q).sqHead = (d.qp x q).sqTail then { d.qp x q with state := .disabled } else d.qp x q := by
  unfold Dev.queueDisable
  by_cases hi : (d.qp x q).outstanding = 0 ∧ (d.qp x q).sqHead = (d.qp x q).sqTail <;> simp [hq, ha, hi]

theorem Dev.qp_queueReset_disabled {d : Dev} {x q : Nat} (hq : d.hasQueue x q) (hd : (d.qp x q).state = .disabled) :
    (d.queueReset x q).qp x q = (d.qp x q).cleared := by
  unfold Dev.queueReset; simp [hq, hd]

/-- A queue whose commands are all past their points of no return waits for them. -/
theorem Dev.qp_queueReset_past {d : Dev} {x q : Nat} (hq : d.hasQueue x q) (hs : (d.qp x q).state = .active ∨ (d.qp x q).state = .error)
    (hp : ∀ c ∈ (d.qp x q).cmds, c.past) : (d.queueReset x q).qp x q = { d.qp x q with state := .resetting } := by
  have hn : (d.qp x q).state ≠ .resetting ∧ (d.qp x q).state ≠ .disabled := by obtain h | h := hs <;> simp [h]
  have stay : ∀ l : List Cmd, ∀ e : Dev, (∀ c ∈ (e.qp x q).cmds, c.past) →
      l.foldl (fun d c => match d.cmd x q c.cid with | some k => if k.past then d else d.stopCmd x q k 0x1005 1 | none => d) e = e := by
    intro l e he
    induction l with
    | nil => rfl
    | cons c r ih =>
      rw [List.foldl_cons]
      cases hk : e.cmd x q c.cid with
      | none => exact ih
      | some k => simp only [he k (List.mem_of_find?_eq_some hk), if_true, ih]
  unfold Dev.queueReset
  simp only [hq, hn, Bool.not_true, Bool.false_or, beq_iff_eq, if_false]
  rw [Dev.qp_queueState]
  exact (congrArg (fun e : Dev => e.qp x q) (stay _ _ (by simpa using hp))).trans (Dev.qp_qpUpd ..)

theorem Dev.qp_queueResetDone {d : Dev} {x q : Nat} (hs : (d.qp x q).state = .resetting) (hc : (d.qp x q).cmds = []) (hr : (d.qp x q).ready = []) :
    (d.queueResetDone x q).qp x q = (d.qp x q).cleared := by
  unfold Dev.queueResetDone; simp [hs, hc, hr]

/-- Settles O1: what each write to the control register makes of the queue pair. -/
theorem queueControl : Obligations.QueueControl :=
  ⟨fun _ _ _ _ hs hq hd => gives_host hs rfl (Dev.qp_queueEnable hq hd),
   fun _ _ _ _ hs hq ha => gives_host hs rfl (Dev.qp_queueDisable hq ha),
   fun _ _ _ _ hs hq hd => effects_host hs rfl (Dev.qp_queueReset_disabled hq hd),
   fun _ _ _ _ hs hq ha hp => effects_host hs rfl (Dev.qp_queueReset_past hq ha hp),
   fun _ _ _ _ hs hc hr => gives_run rfl (Dev.qp_queueResetDone hs hc hr)⟩

/-! ### Doorbells -/

theorem Dev.qp_sqDoorbell {d : Dev} {x q v : Nat} (hq : d.hasQueue x q) (ha : (d.qp x q).state = .active) :
    (d.sqDoorbell x q v).qp x q =
      if v < 2 * (d.qp x q).sqN ∧ (v + 2 * (d.qp x q).sqN - (d.qp x q).sqTail) % (2 * (d.qp x q).sqN) ≤ (d.qp x q).sqN - (d.qp x q).unfetched then
        { d.qp x q with sqTail := v }
      else { d.qp x q with state := .error, reason := 0x10, errIndex := (d.qp x q).sqTail } := by
  unfold Dev.sqDoorbell Qp.unfetched
  simp only [hq, ha, Bool.not_true, Bool.false_or, bne_self_eq_false, Bool.false_eq_true, if_false]
  split_ifs with h1 h2 h2
  · omega
  · simp
  · simp [ha]
  · omega

theorem Dev.qp_cqDoorbell {d : Dev} {x q v : Nat} (hq : d.hasQueue x q) (ha : (d.qp x q).state ≠ .disabled) :
    (d.cqDoorbell x q v).qp x q =
      let p := d.qp x q
      let k := (v + 2 * p.cqN - p.cqHead) % (2 * p.cqN)
      if v < 2 * p.cqN ∧ k ≤ p.written then { p with cqHead := v, posted := p.posted.drop k, stalled := p.stalled && k == 0 }
      else { p with state := .error, reason := 0x11, errIndex := p.cqHead } := by
  unfold Dev.cqDoorbell
  simp only [hq, ha, Bool.not_true, Bool.false_or, beq_iff_eq, if_false]
  split_ifs with h1 h2 h2
  · omega
  · simp
  · simp
  · omega

/-! ### Completions and vectors -/

theorem Dev.qp_signal (d : Dev) (x q : Nat) : (d.signal x q).qp x q = { d.qp x q with unsignalled := 0 } := by simp [Dev.signal]

theorem Dev.out_vector (d : Dev) (x v : Nat) : d.out ⊆ (d.vector x v).out := by
  unfold Dev.vector; dsimp only
  split_ifs <;> simp

theorem Dev.out_signal (d : Dev) (x q : Nat) : d.out ⊆ (d.signal x q).out :=
  Dev.out_vector (d.qpUpd x q fun p => { p with unsignalled := 0 }) _ _

@[simp] theorem Dev.sends_at (d : Dev) (t x : Nat) : (d.at t).sends x = d.sends x := rfl

@[simp] theorem Dev.sends_qpUpd (d : Dev) (y q x : Nat) (f : Qp → Qp) : (d.qpUpd y q f).sends x = d.sends x := rfl

/-- The oldest ready completion is written at the CQ tail, or the queue stalls. -/
theorem Dev.completionPost_spec {d : Dev} {x q : Nat} {c : Compl} {r : List Compl} (hs : d.sends x = true) (hr : (d.qp x q).ready = c :: r)
    (ha : c.acked = true ∨ d.twin.alone = true) (ht : d.twin.stopped = false) :
    if (d.qp x q).written < (d.qp x q).cqN then
      ((d.completionPost x q).qp x q).cqTail = ((d.qp x q).cqTail + 1) % (2 * (d.qp x q).cqN) ∧ ((d.completionPost x q).qp x q).ready = r ∧
        ((d.completionPost x q).qp x q).posted = (d.qp x q).posted ++ [(c.cid, c.isAbort)] ∧
        .hostWrite x ((d.qp x q).cqBase + 32 * ((d.qp x q).cqTail % (d.qp x q).cqN)) (c.entry.getD (complBytes (d.qp x q) (d.qp x q).cqTail c)) ∈
          (d.completionPost x q).out
    else (d.completionPost x q).qp x q = { d.qp x q with stalled := true } := by
  have hc : (!(c.acked || d.twin.alone) || d.twin.stopped) = false := by obtain h | h := ha <;> simp [h, ht]
  have he : (match c.entry with | some e => e | none => complBytes (d.qp x q) (d.qp x q).cqTail c) =
      c.entry.getD (complBytes (d.qp x q) (d.qp x q).cqTail c) := by cases c.entry <;> rfl
  unfold Dev.completionPost
  simp only [hr, hc, Bool.false_eq_true, if_false]
  by_cases hw : (d.qp x q).written < (d.qp x q).cqN
  · rw [if_pos hw, if_neg (by omega), Dev.hostWrite_sends _ _ _ _ hs]
    split_ifs
    · simp only [Dev.qp_signal, Dev.qp_qpUpd, Dev.qp_send, true_and]
      exact Dev.out_signal _ _ _ (List.mem_append_right _ (List.mem_singleton.2 (congrArg _ he.symm)))
    · simp only [Dev.qp_qpUpd, Dev.qp_send, true_and]
      exact List.mem_append_right _ (List.mem_singleton.2 (congrArg _ he.symm))
  · rw [if_neg hw, if_pos (by omega)]
    split_ifs with hst
    · rw [← hst, ← hr]
    · simp [hr]

theorem Dev.moderation_spec {d : Dev} {x q : Nat} (hs : d.sends x = true) (hv : (d.qp x q).vectorEn = true) (hu : 0 < (d.qp x q).unsignalled)
    (hm : bitsOf (d.qp x q).modNow 31 16 ≠ 0) (ht : (d.qp x q).oldest + bitsOf (d.qp x q).modNow 31 16 ≤ d.timeUs)
    (hk : ((d.fnGet x).msixWord (4 * (d.qp x q).cqVector + 3)).getLsbD 0 = false) :
    (d.moderation x q).qp x q = { d.qp x q with unsignalled := 0 } ∧ (d.moderation x q).out = d.out ++ [.vector x (d.qp x q).cqVector] := by
  have hd : d.moderation x q = d.signal x q := by
    unfold Dev.moderation; simp only [hv, hu, ht, decide_true, Bool.and_true, Bool.true_and, bne_iff_ne, ne_eq, hm, not_false_eq_true, if_true]
  rw [hd]
  exact ⟨Dev.qp_signal .., (congrArg Dev.out (Dev.vector_sends (d.qpUpd x q _) x _ hs hk)).trans rfl⟩

/-- Settles O2: each doorbell by the range of its value, each completion by the room in its CQ, and the moderation timer. -/
theorem doorbellsAndCompletions : Obligations.DoorbellsAndCompletions :=
  ⟨fun _ _ _ _ _ hs hq ha => gives_host hs rfl (Dev.qp_sqDoorbell hq ha),
   fun _ _ _ _ _ hs hq hd => gives_host hs rfl (Dev.qp_cqDoorbell hq hd),
   fun s t _ _ _ _ hs hr ha ht => gives_run rfl (Dev.completionPost_spec (d := s.dev.at t) hs hr ha (by simpa using ht)),
   fun s t _ _ hs hv hu hm ht hk => gives_run rfl
     (Dev.moderation_spec (d := s.dev.at t) hs hv hu hm (ht.trans (le_max_right _ _)) (by simpa using hk))⟩

end Sys2Proof.Machine

/-! PROOF. What the operations that end a command leave alone: the decision trace and the delay lists are the only parts of the query state that
a frame of the twin link, a delay or a trace record touches. -/
namespace Sys2Proof.Machine

/-- What every step of a fold keeps, the fold keeps. -/
theorem foldl_keep {α β γ : Type} {P : β → γ} {f : β → α → β} (h : ∀ b a, P (f b a) = P b) (l : List α) (b : β) : P (l.foldl f b) = P b := by
  induction l generalizing b with
  | nil => rfl
  | cons a r ih => exact (ih _).trans (h b a)

/-- The query state without its delay lists and its trace. -/
def QrySt.core (q : QrySt) : QrySt := { q with delays := [], trace := {} }

theorem QrySt.subs_of_core {a b : QrySt} (h : a.core = b.core) : a.subs = b.subs := by injection h
theorem QrySt.cache_of_core {a b : QrySt} (h : a.core = b.core) : a.cache = b.cache := by injection h
theorem QrySt.queries_of_core {a b : QrySt} (h : a.core = b.core) : a.queries = b.queries := by injection h
theorem QrySt.hearths_of_core {a b : QrySt} (h : a.core = b.core) : a.hearths = b.hearths := by injection h

theorem Dev.hearth_of_core {d e : Dev} (h : d.qry.core = e.qry.core) (k : Nat) : d.hearth k = e.hearth k := by
  change tabGet {} d.qry.core.hearths k = tabGet {} e.qry.core.hearths k
  rw [h]

@[simp] theorem Dev.tracePut_core (d : Dev) (r : TRec) : (d.tracePut r).1.qry.core = d.qry.core := by
  unfold Dev.tracePut; dsimp only; split_ifs <;> simp [QrySt.core]

@[simp] theorem Dev.trace_core (d : Dev) (r : TRec) : (d.trace r).qry.core = d.qry.core := by
  unfold Dev.trace; dsimp only
  split_ifs with _ _ h2
  · rfl
  · exact (Dev.tracePut_core _ _).trans (Dev.tracePut_core d { kind := 0x0E, c := d.qry.trace.lost })
  · simp
  · simp

@[simp] theorem Dev.delay_core (d : Dev) (l k tag : Nat) : (d.delay l k tag).qry.core = d.qry.core := by
  unfold Dev.delay; dsimp only
  split_ifs
  · exact (Dev.trace_core _ _).trans (by simp)
  · rfl

@[simp] theorem Dev.undelay_core (d : Dev) (l tag : Nat) : (d.undelay l tag).qry.core = d.qry.core := by
  unfold Dev.undelay Dev.setDelays; simp [QrySt.core]

@[simp] theorem Dev.twinFrame_core (d : Dev) (k : Nat) (b : List Nat) (x : Bytes) (a : TAct) : (d.twinFrame k b x a).qry.core = d.qry.core := by
  unfold Dev.twinFrame; dsimp only; split_ifs <;> simp

@[simp] theorem Dev.twinSend_core (d : Dev) (k : Nat) (b : List Nat) (x : Bytes) (a : TAct) : (d.twinSend k b x a).qry.core = d.qry.core := by
  unfold Dev.twinSend; split_ifs <;> simp

@[simp] theorem Dev.hearth_twinSend (d : Dev) (k : Nat) (b : List Nat) (x : Bytes) (a : TAct) (h : Nat) : (d.twinSend k b x a).hearth h = d.hearth h :=
  Dev.hearth_of_core (d.twinSend_core k b x a) h

/-- A twin that runs alone sends no frame. -/
theorem Dev.twinSend_alone {d : Dev} (h : d.twin.alone = true) (k : Nat) (b : List Nat) (x : Bytes) (a : TAct) : d.twinSend k b x a = d := if_pos h

/-! ### The end of a command -/

section
variable {α : Type} (P : Dev → α) (hq : ∀ d x q f, P (Dev.qpUpd d x q f) = P d) (ht : ∀ d k b c a, P (Dev.twinSend d k b c a) = P d)
include hq ht

theorem Dev.readyCompl_keep (d : Dev) (x q idx : Nat) (c : Compl) : P (d.readyCompl x q idx c) = P d := (ht ..).trans (hq ..)

theorem Dev.retire_keep (d : Dev) (x q cid : Nat) (c : Compl) : P (d.retire x q cid c) = P d := by
  unfold Dev.retire
  split
  · exact (Dev.readyCompl_keep P hq ht ..).trans (hq ..)
  · rfl

theorem Dev.flushes_keep (d : Dev) (x : Nat) : P (d.flushes x) = P d := by
  unfold Dev.flushes
  refine foldl_keep (fun d p => foldl_keep (fun d c => ?_) _ d) _ d
  split_ifs
  · exact Dev.retire_keep P hq ht ..
  · rfl

/-- What no update of a queue pair and no frame of the twin link touches stays as it is when a command completes. -/
theorem Dev.complete_keep (d : Dev) (x q cid : Nat) (c : Compl) : P (d.complete x q cid c) = P d :=
  (Dev.flushes_keep P hq ht ..).trans (Dev.retire_keep P hq ht ..)

end

@[simp] theorem Dev.complete_store (d : Dev) (x q cid : Nat) (c : Compl) : (d.complete x q cid c).store = d.store :=
  Dev.complete_keep Dev.store (by simp) (by simp) d x q cid c

@[simp] theorem Dev.complete_core (d : Dev) (x q cid : Nat) (c : Compl) : (d.complete x q cid c).qry.core = d.qry.core :=
  Dev.complete_keep (fun d => d.qry.core) (by simp) (by simp) d x q cid c

/-! ### The floor of a table space -/

@[simp] theorem Dev.tellHold_core (d : Dev) (ts hold e take : Nat) (a : TAct) : (d.tellHold ts hold e take a).qry.core = d.qry.core :=
  Dev.twinSend_core ..

@[simp] theorem Dev.tellLow_core (d : Dev) (ts : Nat) : (d.tellLow ts).qry.core = d.qry.core := by
  unfold Dev.tellLow
  split
  · split_ifs <;> simp
  · rfl

@[simp] theorem Dev.holdMoved_core (d : Dev) (ts : Nat) : (d.holdMoved ts).qry.core = d.qry.core := Dev.tellLow_core ..

@[simp] theorem Dev.tellHold_host (d : Dev) (ts hold e take : Nat) (a : TAct) : (d.tellHold ts hold e take a).host = d.host := Dev.twinSend_host ..

@[simp] theorem Dev.tellLow_host (d : Dev) (ts : Nat) : (d.tellLow ts).host = d.host := by
  unfold Dev.tellLow
  split
  · split_ifs <;> simp
  · rfl

@[simp] theorem Dev.holdMoved_host (d : Dev) (ts : Nat) : (d.holdMoved ts).host = d.host := Dev.tellLow_host ..

end Sys2Proof.Machine

/-! PROOF. QUERY_SUBMIT and IMAGE_FETCHED (R45, R139, R140, R407). -/
namespace Sys2Proof.Machine

/-- A command that may start is marked as started, and runs. -/
theorem Dev.startCmd_of {d : Dev} {x q cid op : Nat} {c : Cmd} (h : d.mayStartCmd x q cid op = some c) (f : Dev → Cmd → Dev) :
    d.startCmd x q cid op f = f (d.begun x q cid) c := by
  unfold Dev.startCmd; rw [h]; rfl

/-- The descriptor of a submission is read once its table space may be used. -/
theorem Dev.querySubmit_ok {d : Dev} {x q cid : Nat} {c : Cmd} {sp : TSpace} (hc : d.mayStartCmd x q cid 0x01 = some c) (hs : d.ownSpace x c.ts = .ok sp) :
    d.querySubmit x q cid =
      ({ d.begun x q cid with qry := { d.qry with subs := d.qry.subs ++ [{ x := x, q := q, cid := cid, ts := c.ts }] } } : Dev).hostRead x q cid
        .descriptor (fieldAt c.entry 0x10 8) 256 := by
  have hb : (d.begun x q cid).ownSpace x c.ts = .ok sp := hs
  unfold Dev.querySubmit
  simp only [Dev.startCmd_of hc, hb]; rfl

theorem Dev.querySubmit_error {d : Dev} {x q cid st : Nat} {c : Cmd} (hc : d.mayStartCmd x q cid 0x01 = some c) (hs : d.ownSpace x c.ts = .error st) :
    d.querySubmit x q cid = (d.begun x q cid).failCmd x q cid st := by
  have hb : (d.begun x q cid).ownSpace x c.ts = .error st := hs
  unfold Dev.querySubmit
  simp only [Dev.startCmd_of hc, hb]

theorem Dev.failCmd_core (d : Dev) (x q cid st : Nat) : (d.failCmd x q cid st).qry.core = d.qry.core := Dev.complete_core ..

/-! ### An image that was fetched -/

/-- The submission that awaits its image, once the image is there. -/
def Submit.got (s : Submit) : Submit := { s with missing := false, fetched := none }

/-- The part with one submission alone. -/
def Dev.onlySub (d : Dev) (s : Submit) : Dev := { d with qry := { d.qry with subs := [s] } }

theorem Dev.sub_onlySub (d : Dev) (s : Submit) : (d.onlySub s).sub s.x s.q s.cid = some s := by simp [Dev.sub, Dev.onlySub]

/-- The part with an image in the cache for the one submission that awaited it. -/
def Dev.cached (d : Dev) (s : Submit) (l : List CacheEnt) (im : Image) (n : Nat) : Dev :=
  { d with qry := { d.qry with
      subs := [s], cacheSeq := d.qry.cacheSeq + 1
      cache := l ++ [{ group := d.groupKey s.x, digest := s.descr.digest, image := im, bytes := n, waits := [(s.x, s.q, s.cid)], used := d.qry.cacheSeq }] } }

section
variable (d : Dev) {sub : Submit} (hs : d.qry.subs = [sub])
include hs

theorem Dev.sub_alone : d.sub sub.x sub.q sub.cid = some sub := by simp [Dev.sub, hs]

theorem Dev.subUpd_alone (f : Submit → Submit) : d.subUpd sub.x sub.q sub.cid f = d.onlySub (f sub) := by simp [Dev.subUpd, Dev.onlySub, updWhere, hs]

theorem Dev.waits_alone (hm : sub.missing = true) :
    d.qry.subs.filter (fun k => k.missing && d.groupKey k.x == d.groupKey sub.x && k.descr.digest == sub.descr.digest) = [sub] := by
  simp [hs, hm]

variable (hm : sub.missing = true) {b : Bytes} (hf : sub.fetched = some (some b))
include hm hf

/-- An image whose digest is another one ends the submission. -/
theorem Dev.imageFetched_digest (hd : sha 0 b ≠ sub.descr.digest) :
    d.imageFetched sub.x sub.q sub.cid = (d.onlySub sub.got).endSub sub.got { status := 0x3010 } := by
  have hu : d.subUpd sub.x sub.q sub.cid (fun k => { k with missing := false, fetched := none }) = d.onlySub sub.got := Dev.subUpd_alone d hs _
  have hg : (d.onlySub sub.got).sub sub.x sub.q sub.cid = some sub.got := Dev.sub_onlySub ..
  unfold Dev.imageFetched
  simp only [Dev.sub_alone d hs, hf, Dev.waits_alone d hs hm, List.isEmpty_cons, Bool.false_eq_true, if_false, ne_eq, hd, not_false_eq_true, if_true,
    List.foldl_cons, List.foldl_nil, hu, hg]

/-- An image that passes its digest and its checks enters the cache, and the submission goes on with it. -/
theorem Dev.imageFetched_cached {im : Image} {l : List CacheEnt} (hd : sha 0 b = sub.descr.digest)
    (hi : structCheck d.supports.1 d.supports.2 sub.descr.imageBytes b = .ok im) (hh : d.cacheHit (d.groupKey sub.x) sub.descr.digest = none)
    (hl : makeRoom 4096 d.qry.cache b.length = some l) :
    d.imageFetched sub.x sub.q sub.cid = (d.cached sub.got l im b.length).haveImage sub.got im := by
  have hu : d.subUpd sub.x sub.q sub.cid (fun k => { k with missing := false, fetched := none }) = d.onlySub sub.got := Dev.subUpd_alone d hs _
  have hn : (d.onlySub sub.got).cacheHit (d.groupKey sub.x) sub.descr.digest = none := hh
  have hr : makeRoom 4096 (d.onlySub sub.got).qry.cache b.length = some l := hl
  have hg : (d.cached sub.got l im b.length).sub sub.x sub.q sub.cid = some sub.got := by simp [Dev.sub, Dev.cached, Submit.got]
  unfold Dev.imageFetched
  simp only [Dev.sub_alone d hs, hf, Dev.waits_alone d hs hm, List.isEmpty_cons, Bool.false_eq_true, if_false, ne_eq, hd, not_true_eq_false, hi,
    List.foldl_cons, List.foldl_nil, hu, hn, hr, Option.isSome_none, List.map_cons, List.map_nil]
  exact (congrArg (fun o : Option Submit => match o with
    | some k1 => (d.cached sub.got l im b.length).haveImage k1 im | none => d.cached sub.got l im b.length) hg)

end

/-- A submission whose image may run reads its parameter block. -/
theorem Dev.haveImage_params (d : Dev) (s : Submit) {im : Image} (hd : descrFits s.descr im = true) (hp : d.placeFault im = none)
    (hb : s.descr.paramBytes ≠ 0) :
    d.haveImage s im = (d.subUpd s.x s.q s.cid (fun _ => { s with image := some im, missing := false })).hostRead s.x s.q s.cid .params
      s.descr.paramAddr s.descr.paramBytes := by
  unfold Dev.haveImage
  simp only [hd, Bool.not_true, Bool.false_eq_true, if_false, hp, hb]

/-- A submission that leaves and waits for nothing in the cache leaves the cache as it is. -/
theorem Dev.dropSub_alone {d : Dev} {s : Submit} (hs : d.qry.subs = [s]) (hc : d.qry.cache.all (fun e => !e.waits.contains (s.x, s.q, s.cid)) = true) :
    (d.dropSub s.x s.q s.cid).qry.core = ({ d.qry with subs := [] } : QrySt).core := by
  have hn : d.qry.cache.any (fun e => e.waits.contains (s.x, s.q, s.cid)) = false := by simpa using hc
  unfold Dev.dropSub QrySt.core
  simp only [hn, Bool.false_eq_true, if_false, hs]
  simp

/-- The end of the only submission: none is left, and the cache that it waits for nothing in stays. -/
theorem Dev.endSub_alone {d : Dev} {s : Submit} {c : Compl} (hs : d.qry.subs = [s]) (hm : s.missing = false)
    (hc : d.qry.cache.all (fun e => !e.waits.contains (s.x, s.q, s.cid)) = true) :
    (d.endSub s c).qry.core = ({ d.qry with subs := [] } : QrySt).core := by
  unfold Dev.endSub
  simp only [hm, Bool.false_eq_true, if_false, Dev.complete_core, Dev.holdMoved_core]
  split_ifs
  · exact Dev.dropSub_alone hs hc
  · exact Dev.dropSub_alone hs hc

/-- Settles O3: each outcome of QUERY_SUBMIT by the table space, each of IMAGE_FETCHED by the digest. -/
theorem submissions : Obligations.Submissions := by
  refine ⟨fun s t x q cid c sp hc hs => effects_run rfl ?_, fun s t x q cid c st hc hs => effects_run rfl ?_,
    fun s t x q cid sub b im l hs hx hq hi hm hf hd hk hh hl hfit hp hb => effects_run rfl ?_,
    fun s t x q cid sub b hs hx hq hi hm hf hd hw => effects_run rfl ?_⟩
  · have hd : (s.dev.at t).mayStartCmd x q cid 0x01 = some c := hc
    rw [Dev.querySubmit_ok hd hs]
    exact ⟨rfl, rfl, rfl, rfl, rfl, rfl⟩
  · have hd : (s.dev.at t).mayStartCmd x q cid 0x01 = some c := hc
    rw [Dev.querySubmit_error hd hs]
    exact ⟨QrySt.subs_of_core (Dev.failCmd_core ..), rfl⟩
  · subst hx hq hi
    rw [Dev.imageFetched_cached (s.dev.at t) hs hm hf hd hk hh hl, Dev.haveImage_params ((s.dev.at t).cached sub.got l im b.length) sub.got hfit hp hb]
    exact ⟨rfl, congrArg (fun d : Dev => d.qry.subs) (Dev.subUpd_alone ((s.dev.at t).cached sub.got l im b.length) rfl _), rfl⟩
  · subst hx hq hi
    rw [Dev.imageFetched_digest (s.dev.at t) hs hm hf hd]
    have he := @Dev.endSub_alone ((s.dev.at t).onlySub sub.got) sub.got { status := 0x3010 } rfl rfl hw
    exact ⟨QrySt.subs_of_core he, (QrySt.cache_of_core he).trans rfl, (QrySt.queries_of_core he).trans rfl⟩

end Sys2Proof.Machine

/-! PROOF. The end of a command on a device that runs alone, and FLUSH, ABORT and SNAPSHOT there (R68, R70, R414, R415). -/
namespace Sys2Proof.Machine

/-! ### The queue pairs of a function -/

theorem filter_erase {α : Type} (p : Nat × α → Bool) (t : Tab α) (k : Nat) : (tabErase t k).filter p = (t.filter p).filter (fun e => e.1 != k) := by
  induction t with
  | nil => rfl
  | cons e r ih =>
    obtain ⟨j, v⟩ := e
    by_cases hj : j = k
    · subst hj; cases hp : p (j, v) <;> simp [tabErase, hp, ih]
    · cases hp : p (j, v) <;> simp [tabErase, hp, hj, ih]

theorem filter_insert_nil {α : Type} (p : Nat × α → Bool) (t : Tab α) (k : Nat) (v : α) (ht : t.filter p = []) (hk : p (k, v) = true) :
    (tabInsert t k v).filter p = [(k, v)] := by
  induction t with
  | nil => simp [tabInsert, hk]
  | cons e r ih =>
    have he : p e = false ∧ r.filter p = [] := by
      cases hp : p e
      · exact ⟨rfl, by simpa [hp] using ht⟩
      · simp [hp] at ht
    unfold tabInsert
    split
    · simp [hk, he.1, he.2]
    · simp [he.1, ih he.2]

theorem erase_erase {α : Type} (t : Tab α) (k : Nat) : tabErase (tabErase t k) k = tabErase t k := by
  induction t with
  | nil => rfl
  | cons e r ih =>
    obtain ⟨j, v⟩ := e
    by_cases hj : j = k <;> simp [tabErase, hj, ih]

theorem erase_insert {α : Type} (t : Tab α) (k : Nat) (v : α) : tabErase (tabInsert t k v) k = tabErase t k := by
  induction t with
  | nil => simp [tabInsert, tabErase]
  | cons e r ih =>
    obtain ⟨j, u⟩ := e
    unfold tabInsert
    split
    · simp [tabErase]
    · by_cases hj : j = k <;> simp [tabErase, hj, ih]

theorem erase_set {α : Type} [DecidableEq α] (d : α) (t : Tab α) (k : Nat) (v : α) : tabErase (tabSet d t k v) k = tabErase t k := by
  unfold tabSet
  split
  · exact erase_erase t k
  · rw [erase_insert, erase_erase]

theorem tabSet_tabSet {α : Type} [DecidableEq α] (d : α) (t : Tab α) (k : Nat) (u v : α) : tabSet d (tabSet d t k u) k v = tabSet d t k v := by
  change (if v = d then tabErase (tabSet d t k u) k else tabInsert (tabErase (tabSet d t k u) k) k v) = _
  rw [erase_set]; rfl

/-- Two changes of one entry are one. -/
theorem tabUpd_tabUpd {α : Type} [DecidableEq α] (d : α) (t : Tab α) (k : Nat) (f g : α → α) : tabUpd d (tabUpd d t k f) k g = tabUpd d t k (fun a => g (f a)) := by
  unfold tabUpd
  rw [tabGet_set, if_pos rfl, tabSet_tabSet]

theorem Dev.qpUpd_qpUpd (d : Dev) (x q : Nat) (f g : Qp → Qp) : (d.qpUpd x q f).qpUpd x q g = d.qpUpd x q (fun p => g (f p)) := by
  unfold Dev.qpUpd
  simp only [tabUpd_tabUpd]

/-- A function's only queue pair stays its only one when it is changed. -/
theorem Dev.qpsOf_qpUpd {d : Dev} {x q : Nat} {p : Qp} (f : Qp → Qp) (h : d.qpsOf x = [(q, p)]) (hf : f (d.qp x q) ≠ {}) :
    (d.qpUpd x q f).qpsOf x = [(q, f (d.qp x q))] := by
  obtain ⟨e, he, h1, h2⟩ : ∃ e : Nat × Qp, d.host.qps.filter (fun p => p.1 / 8192 == x) = [e] ∧ e.1 % 8192 = q ∧ e.1 / 8192 = x := by
    unfold Dev.qpsOf at h
    obtain ⟨e, he, hp⟩ := List.map_eq_singleton_iff.1 h
    have hm : e ∈ d.host.qps.filter (fun p => p.1 / 8192 == x) := by rw [he]; simp
    exact ⟨e, he, congrArg Prod.fst hp, by simpa using (List.mem_filter.1 hm).2⟩
  have hk : e.1 = qpKey x q := by unfold qpKey; omega
  have hx : qpKey x q / 8192 = x ∧ qpKey x q % 8192 = q := by rw [← hk]; exact ⟨h2, h1⟩
  have hs : (d.qpUpd x q f).host.qps = tabInsert (tabErase d.host.qps (qpKey x q)) (qpKey x q) (f (d.qp x q)) := if_neg hf
  unfold Dev.qpsOf
  rw [hs, filter_insert_nil _ _ _ _ (by rw [filter_erase, he]; simp [hk]) (by simp [hx.1])]
  simp [hx.2, Dev.qp]

/-! ### A command that completes -/

/-- Nothing waits for the commands of a function that has no FLUSH. -/
theorem Dev.flushes_none {d : Dev} {x : Nat} (h : ∀ p ∈ d.qpsOf x, ∀ c ∈ p.2.cmds, c.op ≠ 0x04) : d.flushes x = d := by
  unfold Dev.flushes
  refine List.foldlRecOn (motive := fun e => e = d) _ _ rfl (fun e he p hp => ?_)
  refine List.foldlRecOn (motive := fun e => e = d) _ _ he (fun e he c hc => ?_)
  rw [if_neg (by simp [h p hp c hc]), he]

/-- A queue pair once one of its commands has left with its completion. -/
def Qp.retired (p : Qp) (cid : Nat) (c : Compl) : Qp := { p with cmds := p.cmds.filter (fun k => k.cid != cid), ready := p.ready ++ [{ c with cid := cid }] }

theorem Qp.retired_ne (p : Qp) (cid : Nat) (c : Compl) : p.retired cid c ≠ {} := fun h => by
  have := congrArg Qp.ready h
  simp [Qp.retired] at this

section
variable (d : Dev) (ha : d.twin.alone = true) {x q cid : Nat} {k : Cmd} (hk : d.cmd x q cid = some k)
include ha hk

/-- A device that runs alone ends a command at once. -/
theorem Dev.retire_alone (c : Compl) : d.retire x q cid c = d.qpUpd x q (fun p => p.retired cid c) := by
  unfold Dev.retire Dev.readyCompl
  simp only [hk, Dev.qpUpd_twin, ha, if_true, Dev.twinSend_alone, Dev.qpUpd_qpUpd]
  rfl

/-- A command leaves the function's only queue pair, in which no FLUSH waits. -/
theorem Dev.complete_alone {p : Qp} (hq : d.qpsOf x = [(q, p)]) (hf : ∀ k ∈ (d.qp x q).cmds, k.cid ≠ cid → k.op ≠ 0x04) (c : Compl) :
    d.complete x q cid c = d.qpUpd x q (fun p => p.retired cid c) := by
  unfold Dev.complete
  rw [Dev.retire_alone d ha hk, Dev.flushes_none]
  rw [Dev.qpsOf_qpUpd (fun p => p.retired cid c) hq (Qp.retired_ne _ _ _)]
  simpa [Qp.retired] using fun k hm hn => hf k hm hn

end

/-- A FLUSH that is its function's only command completes. -/
theorem Dev.flushes_flush {d : Dev} {x q : Nat} {p : Qp} (c : Cmd) (hq : d.qpsOf x = [(q, p)]) (hs : p.state ≠ .resetting) (hc : p.cmds = [c])
    (ho : c.op = 0x04) (hb : c.started = true) (hn : c.commits = false) : d.flushes x = d.retire x q c.cid {} := by
  unfold Dev.flushes
  simp [hq, hc, hs, ho, hb, hn]

/-! ### A command that starts -/

theorem Dev.qp_begun (d : Dev) (x q cid : Nat) :
    (d.begun x q cid).qp x q = { d.qp x q with cmds := updWhere (fun c => c.cid == cid) (fun k => { k with started := true }) (d.qp x q).cmds } :=
  Dev.qp_qpUpd ..

theorem Dev.qpsOf_begun {d : Dev} {x q cid : Nat} {p : Qp} (h : d.qpsOf x = [(q, p)]) (hn : (d.qp x q).cmds ≠ []) :
    (d.begun x q cid).qpsOf x = [(q, (d.begun x q cid).qp x q)] := by
  rw [Dev.qp_begun]
  exact Dev.qpsOf_qpUpd _ h (fun he => by have := congrArg Qp.cmds he; simp [updWhere, hn] at this)

theorem Dev.op_of_mayStart {d : Dev} {x q cid op : Nat} {c : Cmd} (h : d.mayStartCmd x q cid op = some c) : c.op = op := by
  unfold Dev.mayStartCmd at h
  split at h
  · dsimp only at h
    split_ifs at h with hc
    obtain rfl := Option.some.inj h
    simp only [Bool.and_eq_true, decide_eq_true_eq] at hc
    exact hc.1.1.1.1
  · cases h

/-- A FLUSH with nothing before it completes (R415). -/
theorem Dev.startFlush_alone (d : Dev) {x q cid : Nat} {c : Cmd} (ha : d.twin.alone = true) (hm : d.mayStartCmd x q cid 0x04 = some c)
    (hq : d.qpsOf x = [(q, d.qp x q)]) (hc : (d.qp x q).cmds = [c]) (hs : (d.qp x q).state = .active) (hi : c.cid = cid) (hn : c.commits = false) :
    (d.startFlush x q cid).qp x q = { d.qp x q with cmds := [], ready := (d.qp x q).ready ++ [{ cid := cid }] } := by
  subst hi
  have ho : c.op = 0x04 := Dev.op_of_mayStart hm
  have hb : ((d.begun x q c.cid).qp x q).cmds = [{ c with started := true }] := by simp [Dev.qp_begun, updWhere, hc]
  have hk : (d.begun x q c.cid).cmd x q c.cid = some { c with started := true } := by simp [Dev.cmd, hb]
  have hf : (d.begun x q c.cid).flushes x = (d.begun x q c.cid).retire x q c.cid {} :=
    Dev.flushes_flush { c with started := true } (Dev.qpsOf_begun hq (by simp [hc])) (by simp [Dev.qp_begun, hs]) hb ho rfl hn
  unfold Dev.startFlush
  rw [Dev.startCmd_of hm, hf, Dev.retire_alone (d.begun x q c.cid) ha hk, Dev.qp_qpUpd]
  simp [Qp.retired, Dev.qp_begun, updWhere, hc]

/-! ### What a command that is stopped leaves -/

theorem Dev.engJoin_keeps (d : Dev) (b : Bool) (u : EngUser) : (d.engJoin b u).host.qps = d.host.qps ∧ (d.engJoin b u).twin = d.twin := by
  unfold Dev.engJoin Dev.setEngines Dev.setEngWaiting
  split <;> split_ifs <;> exact ⟨rfl, rfl⟩

theorem Dev.engLeave_keeps (d : Dev) (b : Bool) (u : EngUser) : (d.engLeave b u).host.qps = d.host.qps ∧ (d.engLeave b u).twin = d.twin := by
  have hs : ∀ (e : Dev) (b : Bool) (l : List EngUser), (e.setEngWaiting b l).host.qps = e.host.qps ∧ (e.setEngWaiting b l).twin = e.twin := by
    intro e b l; unfold Dev.setEngWaiting; split_ifs <;> exact ⟨rfl, rfl⟩
  have he : ∀ (e : Dev) (b : Bool) (l : List Engine), (e.setEngines b l).host.qps = e.host.qps ∧ (e.setEngines b l).twin = e.twin := by
    intro e b l; unfold Dev.setEngines; split_ifs <;> exact ⟨rfl, rfl⟩
  unfold Dev.engLeave
  dsimp only
  split_ifs
  · simp [hs, he]
  · split
    · simp [Dev.engJoin_keeps, hs, he]
    · simp [hs, he]

theorem Dev.setDelays_keeps (d : Dev) (l : Nat) (es : List Delay) : (d.setDelays l es).host = d.host ∧ (d.setDelays l es).twin = d.twin := by
  simp [Dev.setDelays]

theorem Dev.dropCmds_keeps (d : Dev) (p : DCmd → Bool) : (d.dropCmds p).host = d.host ∧ (d.dropCmds p).twin = d.twin := by
  simp [Dev.dropCmds, Dev.setDelays_keeps]

theorem Dev.passFetch_keeps (d : Dev) (g : Nat) (b : Bytes) : (d.passFetch g b).host.qps = d.host.qps ∧ (d.passFetch g b).twin = d.twin := by
  unfold Dev.passFetch
  split
  · split_ifs <;> exact ⟨rfl, rfl⟩
  · exact ⟨rfl, rfl⟩

theorem Dev.tellLow_alone {d : Dev} (ha : d.twin.alone = true) (ts : Nat) : d.tellLow ts = d := by
  unfold Dev.tellLow
  split
  · simp [ha]
  · rfl

theorem Dev.holdMoved_alone {d : Dev} (ha : d.twin.alone = true) (ts : Nat) : d.holdMoved ts = d.raiseFloor ts := Dev.tellLow_alone (by exact ha) ts

theorem Dev.holdMoved_twin {d : Dev} (ha : d.twin.alone = true) (ts : Nat) : (d.holdMoved ts).twin = d.twin := by rw [Dev.holdMoved_alone ha]; rfl

/-- The work that a stopped command leaves off touches no queue pair and no twin that runs alone. -/
theorem Dev.stopWork_keeps {d : Dev} (ha : d.twin.alone = true) (x q : Nat) (c : Cmd) :
    (d.stopWork x q c).host.qps = d.host.qps ∧ (d.stopWork x q c).twin = d.twin := by
  unfold Dev.stopWork
  extract_lets y d1 d2 d3
  have h1 : d1.host.qps = d.host.qps ∧ d1.twin = d.twin := by
    unfold d1
    split
    · split_ifs
      · simp [y, Dev.passFetch_keeps, Dev.dropSub]
      · simp [y, Dev.dropSub]
    · exact ⟨rfl, rfl⟩
  have h2 : d2.host.qps = d.host.qps ∧ d2.twin = d.twin := by
    unfold d2
    split
    · simp [Dev.dropJob, Dev.engLeave_keeps, h1]
    · exact h1
  have h3 : d3.host.qps = d.host.qps ∧ d3.twin = d.twin := by
    unfold d3
    simp [Dev.dropCmds_keeps, Dev.dropIngest, Dev.engLeave_keeps, h2]
  clear_value d3
  exact ⟨by rw [Dev.holdMoved_host]; exact h3.1, (Dev.holdMoved_twin (h3.2 ▸ ha) c.ts).trans h3.2⟩

/-! ### ABORT -/

theorem Dev.cmd_of_cmds {d : Dev} {x q cid : Nat} {c : Cmd} (h : (d.qp x q).cmds = [c]) (hc : c.cid = cid) : d.cmd x q cid = some c := by
  simp [Dev.cmd, h, hc]

/-- An ABORT that finds no command of that number says so (R414). -/
theorem Dev.abort_unknown (d : Dev) {x q cid : Nat} {c : Cmd} (ha : d.twin.alone = true) (hm : d.mayStartCmd x q cid 0x05 = some c)
    (hc : (d.qp x q).cmds = [c]) (hi : c.cid = cid) (hq : d.qpsOf x = [(q, d.qp x q)]) (ht : fieldAt c.entry 0x20 2 = q)
    (hn : fieldAt c.entry 0x22 2 ≠ cid) (hr : (d.qp x q).ready = []) (hp : (d.qp x q).posted = []) :
    (d.abort x q cid).qp x q = ((d.begun x q cid).qp x q).retired cid { status := 0x2050, r0 := q + 65536 * fieldAt c.entry 0x22 2, isAbort := true } := by
  have ho : c.op = 0x05 := Dev.op_of_mayStart hm
  have hb : ((d.begun x q cid).qp x q).cmds = [{ c with started := true }] := by simp [Dev.qp_begun, updWhere, hc, hi]
  have hb' : ((d.begun x q cid).qp x q).ready = [] ∧ ((d.begun x q cid).qp x q).posted = [] := by simp [Dev.qp_begun, hr, hp]
  unfold Dev.abort
  simp only [Dev.startCmd_of hm, ht, hb, hb', List.find?_cons, List.find?_nil, hi, beq_eq_false_iff_ne.2 (Ne.symm hn),
    Bool.false_and, List.map_nil, List.append_nil, List.reverse_nil]
  rw [Dev.complete_alone (d.begun x q cid) ha (Dev.cmd_of_cmds hb hi) (Dev.qpsOf_begun hq (by simp [hc])) (by simp [hb, ho]), Dev.qp_qpUpd]

/-- The queue pairs of a part that a stopped command has left, and its completion. -/
theorem Dev.stopCmd_alone (d : Dev) {x q : Nat} (k : Cmd) (ha : d.twin.alone = true) (hk : d.cmd x q k.cid = some k) (hq : d.qpsOf x = [(q, d.qp x q)])
    (hf : ∀ c ∈ (d.qp x q).cmds, c.cid ≠ k.cid → c.op ≠ 0x04) (ho : d.openCommit x q k.cid = none)
    (hn : ∀ y ∈ d.qry.queries, ¬ (y.x = x ∧ y.q = q ∧ y.cid = k.cid)) (st cause : Nat) :
    (d.stopCmd x q k st cause).twin = d.twin ∧ (d.stopCmd x q k st cause).qpsOf x = [(q, (d.qp x q).retired k.cid { status := st })] ∧
      (d.stopCmd x q k st cause).qp x q = (d.qp x q).retired k.cid { status := st } := by
  obtain ⟨hw, ht⟩ := Dev.stopWork_keeps ha x q k
  have hq' : d.qry.queries.find? (fun y => y.x == x && y.q == q && y.cid == k.cid) = none := by
    simpa [and_assoc] using hn
  unfold Dev.stopCmd
  simp only [ho, hq']
  generalize d.stopWork x q k = e at hw ht ⊢
  have hp : ∀ y r, e.qp y r = d.qp y r := fun y r => by simp only [Dev.qp, hw]
  have hs : e.qpsOf x = [(q, d.qp x q)] := by rw [← hq]; simp only [Dev.qpsOf, hw]
  rw [Dev.complete_alone e (ht ▸ ha) (by rw [Dev.cmd, hp]; exact hk) hs (by rw [hp]; exact hf)]
  refine ⟨ht, ?_, ?_⟩
  · rw [Dev.qpsOf_qpUpd (fun p => p.retired k.cid { status := st }) hs (Qp.retired_ne _ _ _), hp]
  · rw [Dev.qp_qpUpd, hp]

/-- An ABORT ends a running DIGEST and completes after it (R414). -/
theorem Dev.abort_running (d : Dev) {x q cid : Nat} {c k : Cmd} (ha : d.twin.alone = true) (hm : d.mayStartCmd x q cid 0x05 = some c)
    (hc : (d.qp x q).cmds = [k, c]) (hi : c.cid = cid) (hk : k.cid ≠ cid) (hq : d.qpsOf x = [(q, d.qp x q)]) (ht : fieldAt c.entry 0x20 2 = q)
    (hn : fieldAt c.entry 0x22 2 = k.cid) (hop : k.op = 0x07) (hp : k.past = false) (ho : d.openCommit x q k.cid = none)
    (hy : ∀ y ∈ d.qry.queries, ¬ (y.x = x ∧ y.q = q ∧ y.cid = k.cid)) :
    (d.abort x q cid).qp x q =
      (((d.begun x q cid).qp x q).retired k.cid { status := 0x1004 }).retired cid { status := 0, r0 := q + 65536 * k.cid, isAbort := true } := by
  have hca : c.op = 0x05 := Dev.op_of_mayStart hm
  have hb : ((d.begun x q cid).qp x q).cmds = [k, { c with started := true }] := by simp [Dev.qp_begun, updWhere, hc, hi, hk]
  have hki : k.cid ≠ c.cid := hi ▸ hk
  have hf : (d.begun x q cid).cmd x q k.cid = some k := by simp [Dev.cmd, hb]
  obtain ⟨h1, h2, h3⟩ := Dev.stopCmd_alone (d.begun x q cid) k ha hf (Dev.qpsOf_begun hq (by simp [hc])) (by simp [hb, hop, hca]) ho hy 0x1004 1
  have hr : (((d.begun x q cid).qp x q).retired k.cid { status := 0x1004 }).cmds = [{ c with started := true }] := by
    simp [Qp.retired, hb, Ne.symm hki]
  have hstop : (d.abort x q cid) = ((d.begun x q cid).stopCmd x q k 0x1004 1).complete x q cid { status := 0, r0 := q + 65536 * k.cid, isAbort := true } := by
    unfold Dev.abort
    simp [Dev.startCmd_of hm, ht, hn, hb, hk, hop, hp]
  rw [hstop]
  generalize (d.begun x q cid).stopCmd x q k 0x1004 1 = e at h1 h2 h3 ⊢
  rw [Dev.complete_alone e (h1 ▸ ha) (Dev.cmd_of_cmds (show (e.qp x q).cmds = [{ c with started := true }] by rw [h3, hr]) hi) h2 (by rw [h3, hr]; simp [hca]), Dev.qp_qpUpd, h3]

/-! ### SNAPSHOT -/

/-- What both of two runs keep step by step, their ends have. -/
theorem foldl_rel {α β γ : Type} (R : β → γ → Prop) {f : β → α → β} {g : γ → α → γ} (h : ∀ b c a, R b c → R (f b a) (g c a)) (l : List α) {b : β} {c : γ}
    (hr : R b c) : R (l.foldl f b) (l.foldl g c) := by
  induction l generalizing b c with
  | nil => exact hr
  | cons a r ih => exact ih (h b c a hr)

/-- Two devices that run alone with the same host side. -/
def Dev.sameHost (d e : Dev) : Prop := d.host = e.host ∧ d.twin.alone = true ∧ e.twin.alone = true

theorem Dev.sameHost.retire {d e : Dev} (h : d.sameHost e) (x q cid : Nat) (c : Compl) : (d.retire x q cid c).sameHost (e.retire x q cid c) := by
  obtain ⟨hh, hd, he⟩ := h
  have hc : e.cmd x q cid = d.cmd x q cid := by unfold Dev.cmd Dev.qp; rw [hh]
  cases hk : d.cmd x q cid with
  | none =>
    have hn : d.retire x q cid c = d ∧ e.retire x q cid c = e := by unfold Dev.retire; simp [hc, hk]
    rw [hn.1, hn.2]; exact ⟨hh, hd, he⟩
  | some k =>
    rw [Dev.retire_alone d hd hk, Dev.retire_alone e he (hc.trans hk)]
    exact ⟨by unfold Dev.qpUpd; rw [hh], hd, he⟩

/-- What a completion makes of a queue pair rests on the host side alone. -/
theorem Dev.sameHost.complete {d e : Dev} (h : d.sameHost e) (x q cid : Nat) (c : Compl) : (d.complete x q cid c).sameHost (e.complete x q cid c) := by
  have hr := h.retire x q cid c
  have hq : (e.retire x q cid c).qpsOf x = (d.retire x q cid c).qpsOf x := by unfold Dev.qpsOf; rw [hr.1]
  unfold Dev.complete Dev.flushes
  rw [hq]
  dsimp only
  refine foldl_rel Dev.sameHost ?_ _ hr
  intro d e p h
  refine foldl_rel Dev.sameHost ?_ _ h
  intro d e c h
  split_ifs
  · exact h.retire ..
  · exact h

theorem Dev.sameHost.qp {d e : Dev} (h : d.sameHost e) (x q : Nat) : d.qp x q = e.qp x q := by unfold Dev.qp; rw [h.1]

theorem Dev.complete_qp_congr {d e : Dev} (h : d.sameHost e) (x q cid : Nat) (c : Compl) : (d.complete x q cid c).qp x q = (e.complete x q cid c).qp x q :=
  (h.complete x q cid c).qp x q

/-- A SNAPSHOT takes a hold on the epoch that it reads (R68, R70). -/
theorem Dev.snapshot_take (d : Dev) {x q cid e : Nat} {c : Cmd} {sp : TSpace} (ha : d.twin.alone = true) (hm : d.mayStartCmd x q cid 0x06 = some c)
    (hs : d.ownSpace x c.ts = .ok sp) (hf : fieldAt c.entry 0x20 1 = 0) (he : sp.readEpoch (fieldAt c.entry 0x28 8) = .ok e)
    (hl : (d.store.holds.filter (fun h => h.x == x)).length < 64) :
    d.snapshot x q cid =
      ({ d.begun x q cid with store := { d.store with
          holds := d.store.holds ++ [⟨2 * d.store.nextHold + d.twin.pos, x, c.ts, e⟩], nextHold := d.store.nextHold + 1 } } : Dev).complete x q cid
        { r0 := e, r1 := 2 * d.store.nextHold + d.twin.pos } := by
  have hb : (d.begun x q cid).ownSpace x c.ts = .ok sp := hs
  have hn : ¬ 64 ≤ ((d.begun x q cid).store.holds.filter (fun h => h.x == x)).length := Nat.not_le.2 hl
  have ht : (d.begun x q cid).twin.alone = true := ha
  unfold Dev.snapshot
  simp only [Dev.startCmd_of hm, hb, hf, he, hn, ht, if_true, if_false]
  rfl

/-- A SNAPSHOT releases the hold that it names. -/
theorem Dev.snapshot_release (d : Dev) {x q cid : Nat} {c : Cmd} {sp : TSpace} {h : Hold} (ha : d.twin.alone = true)
    (hm : d.mayStartCmd x q cid 0x06 = some c) (hs : d.ownSpace x c.ts = .ok sp) (hf : fieldAt c.entry 0x20 1 ≠ 0)
    (hh : d.store.holds.find? (fun k => k.id == fieldAt c.entry 0x30 8 && k.x == x && k.ts == c.ts) = some h) :
    d.snapshot x q cid =
      (({ d.begun x q cid with store := { d.store with holds := d.store.holds.filter (fun k => k.id != fieldAt c.entry 0x30 8) } } : Dev).raiseFloor
        c.ts).complete x q cid {} := by
  have hb : (d.begun x q cid).ownSpace x c.ts = .ok sp := hs
  have hh' : (d.begun x q cid).store.holds.find? (fun k => k.id == fieldAt c.entry 0x30 8 && k.x == x && k.ts == c.ts) = some h := hh
  have ht : (({ d.begun x q cid with store := { d.store with holds := d.store.holds.filter (fun k => k.id != fieldAt c.entry 0x30 8) } } : Dev).raiseFloor
    c.ts).twin.alone = true := ha
  unfold Dev.snapshot
  simp only [Dev.startCmd_of hm, hb, hf, hh', if_false]
  exact if_pos ht

/-- Settles O5: a FLUSH alone, an ABORT of a running command and one that finds none, and both SNAPSHOTs. -/
theorem orderCommands : Obligations.OrderCommands := by
  refine ⟨fun s t x q cid c ha hm hq _ hc hs hi hn => gives_run rfl ?_,
    fun s t x q cid c k ha hm hc hi hk _ _ hq ht hn hop hp ho hy => effects_run rfl ?_,
    fun s t x q cid c ha hm hc hi _ hq ht hn hr hp => effects_run rfl ?_,
    fun s t x q cid c sp e ha hm hs hf he hl => gives_run rfl ?_, fun s t x q cid c sp h ha hm hs hf hh => gives_run rfl ?_⟩
  · rw [Dev.startFlush_alone (s.dev.at t) ha hm hq hc hs hi hn]
    exact ⟨rfl, rfl⟩
  · rw [Dev.abort_running (s.dev.at t) ha hm hc hi hk hq ht hn hop hp ho hy]
    simp [Qp.retired, Dev.qp_begun, updWhere, hc, hi, hk]
  · rw [Dev.abort_unknown (s.dev.at t) ha hm hc hi hq ht hn hr hp]
    simp [Qp.retired, Dev.qp_begun, updWhere, hc, hi, hr]
  · rw [Dev.snapshot_take (s.dev.at t) ha hm hs hf he hl]
    refine ⟨?_, ?_, ?_, Dev.complete_qp_congr ?_ ..⟩
    · rw [Dev.complete_store]; rfl
    · rw [Dev.complete_store]; rfl
    · rw [Dev.complete_store]; rfl
    · exact ⟨rfl, ha, ha⟩
  · rw [Dev.snapshot_release (s.dev.at t) ha hm hs hf hh]
    refine ⟨?_, Dev.complete_qp_congr ?_ ..⟩
    · rw [Dev.complete_store]; rfl
    · exact ⟨rfl, ha, ha⟩

end Sys2Proof.Machine

/-! PROOF. Fetching entries (R399 to R401, R412, R528). -/
namespace Sys2Proof.Machine

@[simp] theorem qpKey_div (x : Nat) {q : Nat} (h : q < 8192) : qpKey x q / 8192 = x := by unfold qpKey; omega
@[simp] theorem qpKey_mod (x : Nat) {q : Nat} (h : q < 8192) : qpKey x q % 8192 = q := by unfold qpKey; omega

/-- A round that begins changes the shares of the arbiter alone. -/
theorem Dev.newRound_spec (d : Dev) (port : Nat) : ∃ a, d.newRound port = { d with host := { d.host with arbs := a } } := ⟨_, rfl⟩

/-- The arbiter's turn does not depend on the time. -/
theorem Dev.nextQueue_at (d : Dev) (t port fuel k : Nat) (l : List Nat) : (d.at t).nextQueue port fuel k l = d.nextQueue port fuel k l := by
  induction fuel generalizing d k l with
  | zero => rfl
  | succ n ih =>
    have hf : ∀ x q, (d.at t).fetchable x q = d.fetchable x q := fun _ _ => rfl
    have hp : ∀ e : Dev, (e.at t).passQueues port ((k + 1) % 255) = e.passQueues port ((k + 1) % 255) := fun _ => rfl
    have hr : (d.at t).newRound port = (d.newRound port).at t := rfl
    unfold Dev.nextQueue
    simp only [hf, hr]
    split
    · rfl
    · split_ifs
      · rw [ih, hp]
      · rw [ih, hp]

/-- In the arbiter's turn one entry is fetched from the queue that it comes to. -/
theorem Dev.entryFetch_one (d : Dev) {port x q k1 : Nat} {r : List Nat} (f : FetchEnt) (hq : q < 8192)
    (hn : d.nextQueue port 256 ((tabGet [] d.host.pass port).headD 254) ((tabGet [] d.host.pass port).drop 1) = some (qpKey x q, k1, r)) :
    ∃ a, d.entryFetch port [f] = ({ d with host := { d.host with arbs := a, pass := tabSet [] d.host.pass port (k1 :: r) } } : Dev).fetchOne x q f := by
  have h1 : ∀ n, min (2 ^ n) [f].length = 1 := fun n => by simp [Nat.one_le_two_pow]
  unfold Dev.entryFetch
  simp only [hn, h1, List.take_succ_cons, List.take_zero, List.foldl_cons, List.foldl_nil, qpKey_div _ hq, qpKey_mod _ hq]
  obtain ⟨a, ha⟩ := d.newRound_spec port
  split_ifs
  · exact ⟨a, by rw [ha]⟩
  · exact ⟨d.host.arbs, rfl⟩

/-- A checked entry becomes a command of its queue. -/
theorem Dev.fetchOne_ok (d : Dev) {x q : Nat} {f : FetchEnt} {l : List (Nat × Nat)} {e : Bytes} (hs : (d.qp x q).state = .active)
    (hu : (d.qp x q).unfetched ≠ 0) (hc : checkEntry (d.qp x q) f = .ok l) (he : f.entry = some e) (h3 : d.pwr.mode ≠ 3) (h7 : d.pwr.mode ≠ 7) :
    (d.fetchOne x q f).qp x q = { d.qp x q with
      sqHead := ((d.qp x q).sqHead + 1) % (2 * (d.qp x q).sqN)
      cmds := (d.qp x q).cmds ++ [{ cid := fieldAt e 2 2, idx := (d.qp x q).sqHead, op := fieldAt e 0 1, entry := e, data := l, seq := d.host.nextSeq,
                                    commits := fieldAt e 0 1 == 1 || fieldAt e 0 1 == 2, bind := d.visibleOf (fieldAt e 8 4) }] } ∧
    (d.fetchOne x q f).host.nextSeq = d.host.nextSeq + 1 ∧ (d.fetchOne x q f).host.pass = d.host.pass := by
  unfold Dev.fetchOne
  simp only [hs, hc, he, bne_self_eq_false, Bool.false_or, beq_eq_false_iff_ne.2 hu, Bool.false_eq_true, if_false, Option.getD_some]
  rw [if_neg (by simp [h7]), if_neg (by simp [h3])]
  refine ⟨?_, ?_, ?_⟩
  · rw [Dev.qp_twinSend]
    have hs' : (tabGet {} d.host.qps (qpKey x q)).state = .active := hs
    simp only [Dev.qp, Dev.qpUpd, tabGet_upd, if_true, Dev.visibleOf, Dev.space, hs']
  · rw [Dev.twinSend_host]; rfl
  · rw [Dev.twinSend_host]; rfl

theorem bitOf_add_pow {v i : Nat} (h : bitOf v i = false) : bitOf (v + 2 ^ i) i = true := by
  unfold bitOf at *
  have : (v + 2 ^ i) / 2 ^ i = v / 2 ^ i + 1 := Nat.add_div_right _ (Nat.two_pow_pos i)
  simp only [beq_eq_false_iff_ne, beq_iff_eq] at *
  omega

/-- What a vector does to its function: it is held, or pending. -/
theorem Dev.fnGet_vector (d : Dev) (y v x : Nat) : ∃ h p, (d.vector y v).fnGet x = { d.fnGet x with held := h, pba := p } := by
  have upd : ∀ f : Fn → Fn, (∃ h p, f (d.fnGet y) = { d.fnGet y with held := h, pba := p }) →
      ∃ h p, (d.fnUpd y f).fnGet x = { d.fnGet x with held := h, pba := p } := by
    rintro f ⟨h, p, hf⟩
    by_cases hx : x = y
    · subst hx; exact ⟨h, p, by rw [Dev.fnGet_fnUpd, hf]⟩
    · exact ⟨(d.fnGet x).held, (d.fnGet x).pba, by simp [Dev.fnGet, Dev.fnUpd, hx]⟩
  unfold Dev.vector; dsimp only
  split_ifs
  · exact ⟨_, _, rfl⟩
  · exact ⟨_, _, rfl⟩
  · exact upd _ ⟨_, _, rfl⟩
  · exact upd _ ⟨_, _, rfl⟩
  · exact ⟨_, _, rfl⟩

/-- An event of a function is shown in its register (R392). -/
theorem Dev.fnGet_fnEvent (d : Dev) (x b : Nat) (o : Option Nat) :
    bitOf ((d.fnEvent x b o).fnGet x).event b = true ∧ ((d.fnEvent x b o).fnGet x).eventQueue = o.getD (d.fnGet x).eventQueue ∧
      ((d.fnEvent x b o).fnGet x).bad = (d.fnGet x).bad := by
  have hv : ∀ (e : Dev) v, ((e.vector x v).fnGet x).event = (e.fnGet x).event ∧ ((e.vector x v).fnGet x).eventQueue = (e.fnGet x).eventQueue ∧
      ((e.vector x v).fnGet x).bad = (e.fnGet x).bad := by
    intro e v; obtain ⟨h, p, hp⟩ := e.fnGet_vector x v x; rw [hp]; exact ⟨rfl, rfl, rfl⟩
  have hb : bitOf (if bitOf (d.fnGet x).event b then (d.fnGet x).event else (d.fnGet x).event + 2 ^ b) b = true := by
    split
    case isTrue h => exact h
    case isFalse h => exact bitOf_add_pow (by simpa using h)
  unfold Dev.fnEvent; dsimp only
  split_ifs
  all_goals simp only [hv, Dev.fnGet_fnUpd]; exact ⟨hb, by cases o <;> rfl, trivial⟩

/-- A malformed entry completes with its reason, and its queue is in ERROR (R400). -/
theorem Dev.fetchOne_error (d : Dev) {x q : Nat} {f : FetchEnt} {r : Nat} {e : Bytes} (hs : (d.qp x q).state = .active)
    (hu : (d.qp x q).unfetched ≠ 0) (hc : checkEntry (d.qp x q) f = .error r) (he : f.entry = some e) (ha : d.twin.alone = true) :
    (d.fetchOne x q f).qp x q = { d.qp x q with
      sqHead := ((d.qp x q).sqHead + 1) % (2 * (d.qp x q).sqN), state := .error, reason := r, errIndex := (d.qp x q).sqHead
      ready := (d.qp x q).ready ++ [{ cid := fieldAt e 2 2, status := 0x2001, detail := (d.qp x q).sqHead, reason := r }] } ∧
    bitOf ((d.fetchOne x q f).fnGet x).event 0 = true ∧ ((d.fetchOne x q f).fnGet x).eventQueue = q := by
  unfold Dev.fetchOne
  simp only [hs, hc, he, bne_self_eq_false, Bool.false_or, beq_eq_false_iff_ne.2 hu, Bool.false_eq_true, if_false]
  refine ⟨?_, ?_⟩
  · simp only [Dev.qp_queueState, Dev.qp_queueError, Dev.readyCompl, Dev.qp_twinSend, Dev.qp_qpUpd, Dev.qpUpd_twin, ha, if_true]
  · have ht : ∀ k b c a (g : Dev), (g.twinSend k b c a).fnGet x = g.fnGet x := fun k b c a g => by simp [Dev.fnGet]
    unfold Dev.queueState Dev.queueError
    dsimp only
    rw [ht]
    obtain ⟨h1, h2, _⟩ := Dev.fnGet_fnEvent (((d.qpUpd x q (fun p => { p with sqHead := (p.sqHead + 1) % (2 * p.sqN) })).readyCompl x q (d.qp x q).sqHead
      { cid := fieldAt e 2 2, status := 0x2001, detail := (d.qp x q).sqHead, reason := r }).qpUpd x q
        (fun p => { p with state := .error, reason := r, errIndex := (d.qp x q).sqHead })) x 0 (some q)
    exact ⟨h1, h2⟩

/-- Settles O6: a checked and a malformed entry in the arbiter's turn. -/
theorem fetching : Obligations.Fetching := by
  refine ⟨fun s t port f x q k1 r l e hn hq hs hu hc he h3 h7 => ⟨_, rfl, ?_⟩, fun s t port f x q k1 r rs e hn hq hs hu hc he ha => ⟨_, rfl, ?_⟩⟩
  · obtain ⟨a, hf⟩ := (s.dev.at t).entryFetch_one f hq ((Dev.nextQueue_at ..).trans hn)
    obtain ⟨h1, h2, h3'⟩ := Dev.fetchOne_ok
      { s.dev.at t with host := { s.dev.host with arbs := a, pass := tabSet [] s.dev.host.pass port (k1 :: r) } } hs hu hc he h3 h7
    refine ⟨(congrArg (fun d : Dev => d.qp x q) hf).trans h1, (congrArg (fun d : Dev => d.host.nextSeq) hf).trans h2, ?_⟩
    rw [show ((s.dev.at t).entryFetch port [f]).host.pass = tabSet [] s.dev.host.pass port (k1 :: r) from
      (congrArg (fun d : Dev => d.host.pass) hf).trans h3', tabGet_set, if_pos rfl]
  · obtain ⟨a, hf⟩ := (s.dev.at t).entryFetch_one f hq ((Dev.nextQueue_at ..).trans hn)
    obtain ⟨h1, h2, h3⟩ := Dev.fetchOne_error
      { s.dev.at t with host := { s.dev.host with arbs := a, pass := tabSet [] s.dev.host.pass port (k1 :: r) } } hs hu hc he ha
    exact ⟨(congrArg (fun d : Dev => d.qp x q) hf).trans h1, (congrArg (fun d : Dev => bitOf (d.fnGet x).event 0) hf).trans h2,
      (congrArg (fun d : Dev => (d.fnGet x).eventQueue) hf).trans h3⟩

end Sys2Proof.Machine

/-! PROOF. Functions and their registers (R390 to R392, R412, R481). -/
namespace Sys2Proof.Machine

/-! ### Power states -/

theorem Dev.d3hot_quiet (d : Dev) {x : Nat} (h : ∀ p ∈ d.qpsOf x, p.2.unsignalled = 0) : d.d3hot x = d.fnUpd x (fun f => { f with d3hot := true }) := by
  unfold Dev.d3hot
  have hf : (d.qpsOf x).foldl (fun d p => if 0 < p.2.unsignalled then d.signal x p.1 else d) d = d :=
    List.foldlRecOn (motive := fun e => e = d) _ _ rfl (fun e he p hp => by rw [if_neg (by simp [h p hp]), he])
  simp only [hf]

/-- A function that returns to D0 lets go the writes that it held. -/
theorem Dev.d0_writes (d : Dev) {x : Nat} (h : ∀ o ∈ (d.fnGet x).held, ∃ y a b, o = .hostWrite y a b) :
    (d.d0 x).fnGet x = { d.fnGet x with d3hot := false, held := [], pmeSent := false } ∧ (d.d0 x).out = d.out ++ (d.fnGet x).held := by
  unfold Dev.d0
  extract_lets f isV d1 d2
  have hv : f.held.filter isV = [] := by
    rw [List.filter_eq_nil_iff]
    intro o ho
    obtain ⟨y, a, b, rfl⟩ := h o ho
    exact Bool.false_ne_true
  have hw : f.held.filter (fun o => !isV o) = f.held := by
    rw [List.filter_eq_self]
    intro o ho
    obtain ⟨y, a, b, rfl⟩ := h o ho
    rfl
  rw [hv]
  exact ⟨Dev.fnGet_fnUpd .., congrArg (d.out ++ ·) hw⟩

/-! ### Writes to BAR0 -/

/-- Outside the RX4 window of PF0 a write goes to BAR0. -/
theorem Dev.hostStore_bar (d : Dev) {x o : Nat} (h : ¬ (x = 0 ∧ 0x2000 ≤ o ∧ o < 0x3000)) (size v : Nat) : d.hostStore x o size v = d.barWrite x o size v :=
  if_neg h

/-- A word of BAR0 outside the mailbox's areas is written. -/
theorem Dev.barWrite_word (d : Dev) {x o : Nat} (hs : o < barSize x) (hm : mailArea x o = false) (h4 : o % 4 = 0) (v : Nat) :
    d.barWrite x o 4 v = d.barWord x o (v % 2 ^ 32) := by
  unfold Dev.barWrite
  rw [if_neg (by omega), if_neg (by simp [hm]), if_pos ⟨rfl, h4⟩]

/-- A half word of BAR0 is refused. -/
theorem Dev.barWrite_refused (d : Dev) {x o : Nat} (hs : o < barSize x) (hm : mailArea x o = false) (v : Nat) : d.barWrite x o 2 v = d.badAccess x := by
  unfold Dev.barWrite
  rw [if_neg (by omega), if_neg (by simp [hm]), if_neg (by omega), if_neg (by omega)]

/-- The function's first registers lie in BAR0, before the mailbox. -/
theorem fnReg_in_bar {x o : Nat} (h : o < 0x20) : o < barSize x ∧ mailArea x o = false := by
  unfold barSize mailArea
  cases isVf x <;> simp <;> omega

/-- The queue pairs' registers lie beyond the mailbox and the RX4 window. -/
theorem qpReg_in_bar {x o : Nat} (h : barQp x ≤ o) : 0x20 ≤ o ∧ mailArea x o = false ∧ ¬ (x = 0 ∧ 0x2000 ≤ o ∧ o < 0x3000) := by
  have h0 : isVf 0 = false := by decide
  unfold barQp at h
  unfold mailArea
  cases hx : isVf x
  · simp only [hx, Bool.false_eq_true, if_false] at h ⊢
    exact ⟨by omega, by simp; omega, by omega⟩
  · simp only [hx, if_true] at h ⊢
    exact ⟨by omega, by simp; omega, fun ⟨hz, _⟩ => by rw [hz, h0] at hx; cases hx⟩

theorem msix_in_bar {x o : Nat} (h : o < barMsix x) : o < barSize x := by
  unfold barMsix at h; unfold barSize; split_ifs at * <;> omega

theorem Dev.registerWrite_fn (d : Dev) {x o : Nat} (h : o < 0x20) (h4 : o % 4 = 0) (v : Nat) : d.hostStore x o 4 v = d.fnWrite x o (v % 2 ^ 32) := by
  obtain ⟨hs, hm⟩ := fnReg_in_bar (x := x) h
  rw [Dev.hostStore_bar d (by omega), Dev.barWrite_word d hs hm h4]
  exact if_pos h

/-- A word of a queue pair's registers. -/
theorem Dev.registerWrite_qp (d : Dev) {x q v : Nat} (hq : d.hasQueue x q = true) (hb : barQp x + 64 * q < barSize x) (hv : v < 2 ^ 32) :
    d.hostStore x (barQp x + 64 * q) 4 v = d.qpWrite x q 0 v := by
  obtain ⟨h20, hm, hw⟩ := qpReg_in_bar (x := x) (o := barQp x + 64 * q) (by omega)
  have h4 : (barQp x + 64 * q) % 4 = 0 := by unfold barQp; split_ifs <;> omega
  have hi : (barQp x + 64 * q - barQp x) / 64 = q ∧ (barQp x + 64 * q - barQp x) % 64 = 0 := by omega
  rw [Dev.hostStore_bar d hw, Dev.barWrite_word d hb hm h4, Nat.mod_eq_of_lt hv]
  unfold Dev.barWord
  rw [if_neg (by omega), if_pos (by omega)]
  simp only [hi, hq, if_true]

theorem Dev.qp_qpWrite_base (d : Dev) {x q v : Nat} (hs : (d.qp x q).state = .disabled) :
    (d.qpWrite x q 0 v).qp x q = { d.qp x q with sqBase := (d.qp x q).sqBase / 2 ^ 32 * 2 ^ 32 + v } := by
  unfold Dev.qpWrite
  simp [hs]

/-- The registers of a queue pair that is not DISABLED do not change (R393). -/
theorem Dev.qpWrite_enabled (d : Dev) {x q v : Nat} (hs : (d.qp x q).state ≠ .disabled) : d.qpWrite x q 0 v = d := by
  unfold Dev.qpWrite
  simp [hs]

/-- Write-1-to-clear bits of FN_EVENT (Table 13.2). -/
theorem bitOf_cleared (e v : Nat) {i : Nat} (h : i < 3) :
    bitOf (((List.range 3).filter (fun i => bitOf e i && !bitOf v i)).foldl (fun m i => m + 2 ^ i) 0) i = (bitOf e i && !bitOf v i) := by
  have hr : List.range 3 = [0, 1, 2] := rfl
  rw [hr]
  generalize hk : (fun i => bitOf e i && !bitOf v i) = keep
  rw [show (bitOf e i && !bitOf v i) = keep i from congrFun hk i]
  cases h0 : keep 0 <;> cases h1 : keep 1 <;> cases h2 : keep 2 <;>
    (obtain rfl | rfl | rfl : i = 0 ∨ i = 1 ∨ i = 2 := by omega) <;> simp [h0, h1, h2, bitOf]

/-- An access that R390 refuses is counted and shown. -/
theorem Dev.fnGet_badAccess (d : Dev) (x : Nat) :
    ((d.badAccess x).fnGet x).bad = satAdd 32 (d.fnGet x).bad 1 ∧ bitOf ((d.badAccess x).fnGet x).event 2 = true := by
  obtain ⟨h1, _, h3⟩ := Dev.fnGet_fnEvent (d.fnUpd x (fun f => { f with bad := satAdd 32 f.bad 1 })) x 2 none
  exact ⟨h3.trans (by rw [Dev.fnGet_fnUpd]), h1⟩

/-! ### Reads of BAR0 -/

theorem Dev.hostLoad_bar (d : Dev) {x o : Nat} (h : ¬ (x = 0 ∧ 0x2000 ≤ o ∧ o < 0x3000)) (size : Nat) : d.hostLoad x o size = d.barRead x o size := if_neg h

theorem Dev.barRead_word (d : Dev) {x o : Nat} (hs : o < barSize x) (hm : mailArea x o = false) (h4 : o % 4 = 0) :
    d.barRead x o 4 = (d.barShow x o, if o = 0x1C then d.fnUpd x (fun f => { f with bad := 0 }) else d) := by
  unfold Dev.barRead
  simp only [hm, h4, if_neg (Nat.not_le.2 hs), Bool.false_eq_true, if_false, and_self, if_true]

theorem Dev.barRead_refused (d : Dev) {x o : Nat} (hs : o < barSize x) (hm : mailArea x o = false) : d.barRead x o 2 = (0, d.badAccess x) := by
  unfold Dev.barRead
  simp only [hm, if_neg (Nat.not_le.2 hs), Bool.false_eq_true, if_false]
  rw [if_neg (by omega), if_neg (by omega)]

/-- The doorbells of a queue pair read as 0. -/
theorem Dev.barShow_doorbell (d : Dev) {x q o : Nat} (h : o = 0x30 ∨ o = 0x34) : d.barShow x (barQp x + 64 * q + o) = 0 := by
  have h20 : 0x20 ≤ barQp x + 64 * q + o := (qpReg_in_bar (x := x) (o := barQp x + 64 * q + o) (by omega)).1
  have hi : (barQp x + 64 * q + o - barQp x) / 64 = q ∧ (barQp x + 64 * q + o - barQp x) % 64 = o := by omega
  unfold Dev.barShow
  dsimp only
  rw [if_neg (by omega), if_pos (by omega), hi.1, hi.2]
  split_ifs
  · obtain rfl | rfl := h <;> rfl
  · rfl

theorem Dev.hostLoad_doorbell (d : Dev) {x q o : Nat} (ho : o = 0x30 ∨ o = 0x34) (h : barQp x + 64 * q + o < barSize x) :
    d.hostLoad x (barQp x + 64 * q + o) 4 = (0, d) := by
  obtain ⟨h20, hm, hw⟩ := qpReg_in_bar (x := x) (o := barQp x + 64 * q + o) (by omega)
  have h4 : (barQp x + 64 * q + o) % 4 = 0 := by unfold barQp; split_ifs <;> omega
  rw [Dev.hostLoad_bar d hw, Dev.barRead_word d h hm h4, Dev.barShow_doorbell d ho, if_neg (by omega)]

/-- Settles O7: the power states, the registers of BAR0 as they are written and read, and the accesses that are refused. -/
theorem functionRegisters : Obligations.FunctionRegisters := by
  refine ⟨fun s t x hs hq => gives_host hs rfl ?_, fun s t x hs ho => gives_host hs rfl ((s.dev.at t).d0_writes ho),
    fun s t x v hs => gives_host hs rfl ?_, fun s t x v i hs hi => gives_host hs rfl ?_, fun s t x q v hs hq hb hd hv => gives_host hs rfl ?_,
    fun s t x q v hs hq hb hd hv => gives_host hs rfl ?_, fun s t x o v hs ho hm hw => gives_host hs rfl ?_, fun s t x a hs => gives_host hs rfl rfl,
    fun d x => ?_, fun d x q hb => ⟨d.hostLoad_doorbell (Or.inl rfl) (by omega), d.hostLoad_doorbell (Or.inr rfl) hb⟩, fun d x o ho hm hw => ?_⟩
  · rw [(s.dev.at t).d3hot_quiet hq]
    exact ⟨Dev.fnGet_fnUpd .., rfl⟩
  · rw [Dev.registerWrite_fn _ (by omega) (by omega)]
    exact Dev.fnGet_fnUpd ..
  · rw [Dev.registerWrite_fn _ (by omega) (by omega)]
    exact (congrArg (fun f : Fn => bitOf f.event i) (Dev.fnGet_fnUpd ..)).trans (bitOf_cleared _ _ hi)
  · rw [Dev.registerWrite_qp (s.dev.at t) hq hb hv]
    exact Dev.qp_qpWrite_base (s.dev.at t) hd
  · rw [Dev.registerWrite_qp (s.dev.at t) hq hb hv]
    exact Dev.qpWrite_enabled (s.dev.at t) hd
  · rw [Dev.hostStore_bar _ hw, Dev.barWrite_refused _ (msix_in_bar ho) hm]
    exact Dev.fnGet_badAccess (s.dev.at t) x
  · obtain ⟨hs, hm⟩ := fnReg_in_bar (x := x) (by omega : 0x1C < 0x20)
    rw [Dev.hostLoad_bar d (by omega), Dev.barRead_word d hs hm (by omega)]
    exact ⟨rfl, Dev.fnGet_fnUpd ..⟩
  · rw [Dev.hostLoad_bar d hw, Dev.barRead_refused d (msix_in_bar ho) hm]
    exact ⟨rfl, (Dev.fnGet_badAccess d x).1⟩

end Sys2Proof.Machine

/-! PROOF. Function resets, SR-IOV and PERST# (R457, R481, R491 to R493, R543, R625). -/
namespace Sys2Proof.Machine

/-! ### What the commits that are due leave alone where none is open -/

/-- The host side, the functions, the mailboxes, the open commits and the queries stand as they stood. -/
structure Dev.Still (d e : Dev) : Prop where
  host : e.host = d.host
  fn : e.fn = d.fn
  mail : e.mail = d.mail
  commits : e.store.commits = d.store.commits
  core : e.qry.core = d.qry.core

theorem Dev.Still.refl (d : Dev) : d.Still d := ⟨rfl, rfl, rfl, rfl, rfl⟩

theorem Dev.Still.trans {d e f : Dev} (h : d.Still e) (k : e.Still f) : d.Still f :=
  ⟨k.host.trans h.host, k.fn.trans h.fn, k.mail.trans h.mail, k.commits.trans h.commits, k.core.trans h.core⟩

theorem Dev.Still.foldl {α : Type} {f : Dev → α → Dev} (h : ∀ (d : Dev) a, d.Still (f d a)) (l : List α) (d : Dev) : d.Still (l.foldl f d) := by
  induction l generalizing d with
  | nil => exact .refl d
  | cons a r ih => exact (h d a).trans (ih _)

theorem Dev.delay_still (d : Dev) (l k tag : Nat) : d.Still (d.delay l k tag) := ⟨by simp, by simp, by simp, by simp, by simp⟩

theorem Dev.twinSend_still (d : Dev) (k : Nat) (b : List Nat) (x : Bytes) (a : TAct) : d.Still (d.twinSend k b x a) := ⟨by simp, by simp, by simp, by simp, by simp⟩

theorem Dev.driveCmd_still (d : Dev) (c : DCmd) : d.Still (d.driveCmd c) := by
  have put : ∀ (e : Dev) n use, e.Still (e.putCmd n use) := fun e n use => (e.delay_still ..).trans ⟨rfl, rfl, rfl, rfl, rfl⟩
  unfold Dev.driveCmd
  dsimp only
  split_ifs
  · exact ⟨rfl, rfl, rfl, rfl, rfl⟩
  · refine Dev.Still.trans ?_ (put _ _ _)
    exact ⟨rfl, rfl, rfl, rfl, rfl⟩

theorem Dev.journalUpd_still (d : Dev) (g : Nat) (f : Journal → Journal) : d.Still (d.journalUpd g f) := by
  unfold Dev.journalUpd
  dsimp only
  split_ifs <;> exact ⟨rfl, rfl, rfl, rfl, rfl⟩

theorem Dev.writeRecord_still (d : Dev) (g k b ts e : Nat) (u : DriveUse) : d.Still (d.writeRecord g k b ts e u) :=
  (Dev.Still.foldl (fun d _ => d.driveCmd_still _) _ d).trans (Dev.journalUpd_still ..)

theorem Dev.xferStep_still (d : Dev) : d.Still d.xferStep := by
  unfold Dev.xferStep
  split
  · split_ifs
    · exact .refl d
    · split
      · refine Dev.Still.trans (Dev.Still.trans ?_ (Dev.writeRecord_still ..)) (Dev.twinSend_still ..)
        exact ⟨rfl, rfl, rfl, rfl, rfl⟩
      · exact ⟨rfl, rfl, rfl, rfl, rfl⟩
  · exact .refl d

theorem Dev.xferStep_none {d : Dev} (h : d.twin.xfer = none) : d.xferStep = d := by unfold Dev.xferStep; simp [h]

/-- A table space in which nothing commits keeps the rest of the part as it is. -/
theorem Dev.closeSpace_still {d : Dev} (h : d.store.commits = []) (ts : Nat) :
    d.Still (d.closeSpace ts) ∧ (d.closeSpace ts).out = d.out ∧ (d.closeSpace ts).twin = d.twin := by
  unfold Dev.closeSpace
  split
  · exact ⟨.refl d, rfl, rfl⟩
  · simp only [h, List.filter_nil, List.mergeSort_nil, List.foldl_nil]
    exact ⟨⟨rfl, rfl, rfl, by change d.store.commits.filter _ = _; rw [h]; rfl, rfl⟩, rfl, rfl⟩

theorem Dev.closeSpaces_still {d : Dev} (h : d.store.commits = []) (l : List TSpace) :
    d.Still (l.foldl (fun d s => d.closeSpace s.id) d) ∧ (l.foldl (fun d s => d.closeSpace s.id) d).out = d.out ∧
      (l.foldl (fun d s => d.closeSpace s.id) d).twin = d.twin := by
  induction l generalizing d with
  | nil => exact ⟨.refl d, rfl, rfl⟩
  | cons s r ih =>
    obtain ⟨h1, h2, h3⟩ := Dev.closeSpace_still h s.id
    obtain ⟨k1, k2, k3⟩ := ih (d := d.closeSpace s.id) (h1.commits.trans h)
    exact ⟨h1.trans k1, k2.trans h2, k3.trans h3⟩

/-- Where no commit is open none becomes visible. -/
theorem Dev.closeCommits_still {d : Dev} (h : d.store.commits = []) : d.Still d.closeCommits :=
  (Dev.closeSpaces_still h _).1.trans (Dev.xferStep_still _)

theorem Dev.closeCommits_out {d : Dev} (h : d.store.commits = []) (hx : d.twin.xfer = none) : d.closeCommits.out = d.out := by
  obtain ⟨_, h2, h3⟩ := Dev.closeSpaces_still h d.store.spaces
  unfold Dev.closeCommits
  rw [Dev.xferStep_none (by rw [h3, hx]), h2]

/-! ### The reset of a function that has no work -/

/-- A mailbox that a reset of its function has emptied. -/
def Mbox.emptied (m : Mbox) : Mbox :=
  { m with ready := false, session := none, busy := none, doneSeq := 0, vector := 0, err := 0, events := [], lost := 0, resp := [], held := none }

/-- A queue pair that a reset of its function has emptied. -/
def Qp.emptied (p : Qp) : Qp := { p with cmds := [], ready := [], unsignalled := 0 }

/-- A function's mailbox and requests as its reset leaves them. -/
def Dev.boxReset (d : Dev) (x : Nat) : Dev :=
  ((({ d with fn := { d.fn with resetting := d.fn.resetting ++ [(x, d.timeUs)] } } : Dev).mboxUpd x Mbox.emptied).mboxUpd x Mbox.emptied).forgetRequest x

/-- The queue pairs of a function emptied. -/
def Dev.qpsEmptied (d : Dev) (x : Nat) : Dev := (d.qpsOf x).foldl (fun d p => d.qpUpd x p.1 Qp.emptied) d

theorem Dev.qpsEmptied_spec (d : Dev) (x : Nat) : ∃ l, d.qpsEmptied x = { d with host := { d.host with qps := l } } := by
  unfold Dev.qpsEmptied
  generalize d.qpsOf x = ps
  induction ps generalizing d with
  | nil => exact ⟨d.host.qps, rfl⟩
  | cons p r ih =>
    obtain ⟨l, hl⟩ := ih (d.qpUpd x p.1 Qp.emptied)
    exact ⟨l, hl⟩

theorem Dev.qp_qpUpd_ne (d : Dev) {x q y r : Nat} (f : Qp → Qp) (h : qpKey y r ≠ qpKey x q) : (d.qpUpd x q f).qp y r = d.qp y r := by
  simp [Dev.qp, Dev.qpUpd, h]

theorem tabGet_absent {α : Type} (a : α) (t : Tab α) (k : Nat) (h : ∀ p ∈ t, p.1 ≠ k) : tabGet a t k = a := by
  induction t with
  | nil => rfl
  | cons p r ih =>
    obtain ⟨j, v⟩ := p
    have hj : j ≠ k := h (j, v) (by simp)
    simp only [tabGet, hj, if_false]
    exact ih (fun p hp => h p (by simp [hp]))

/-- Every queue pair of a function is emptied, listed or not. -/
theorem Dev.qp_qpsEmptied (d : Dev) (x : Nat) {q : Nat} (hq : q < 8192) : ((d.qpsEmptied x).qp x q).cmds = [] ∧ ((d.qpsEmptied x).qp x q).unsignalled = 0 := by
  have fold : ∀ (l : List (Nat × Qp)) (e : Dev), (∀ p ∈ l, p.1 < 8192) →
      (l.foldl (fun d p => d.qpUpd x p.1 Qp.emptied) e).qp x q = if q ∈ l.map Prod.fst then (e.qp x q).emptied else e.qp x q := by
    intro l
    induction l with
    | nil => exact fun e _ => rfl
    | cons p r ih =>
      intro e hl
      rw [List.foldl_cons, ih _ (fun a ha => hl a (by simp [ha]))]
      by_cases hp : p.1 = q
      · subst hp; simp [Qp.emptied]
      · have hk : qpKey x q ≠ qpKey x p.1 := fun h => hp ((qpKey_inj hq (hl p (by simp)) h).2.symm)
        rw [Dev.qp_qpUpd_ne _ _ hk]
        simp only [List.map_cons, List.mem_cons, Ne.symm hp, false_or]
  have hl : ∀ p ∈ d.qpsOf x, p.1 < 8192 := by
    intro p hp
    obtain ⟨k, _, rfl⟩ := List.mem_map.1 hp
    exact Nat.mod_lt _ (by omega)
  unfold Dev.qpsEmptied
  rw [fold _ _ hl]
  split
  · exact ⟨rfl, rfl⟩
  case isFalse h =>
    have : d.qp x q = {} := by
      refine tabGet_absent _ _ _ (fun p hp hk => h ?_)
      refine List.mem_map.2 ⟨(q, p.2), List.mem_map.2 ⟨p, List.mem_filter.2 ⟨hp, by simp [hk, qpKey_div x hq]⟩, by rw [hk, qpKey_mod x hq]⟩, rfl⟩
    rw [this]; exact ⟨rfl, rfl⟩

section
variable (d : Dev) {x : Nat} (hn : d.inReset x = false) (hc : d.store.commits = []) (hr : d.runningOps = []) (hq : ∀ k ∈ d.qry.queries, k.x ≠ x)
  (hp : ∀ p ∈ d.qpsOf x, p.2.cmds = [])
include hn hc hr hq hp

/-- A function without commits, operations, queries and commands is reset at once but for the commits that are due. -/
theorem Dev.beginReset_idle (hx : x = 0 → d.rx4.hearth = none ∧ d.rx4.run = none) :
    d.beginReset x = (if x = 0 then { (d.boxReset x).qpsEmptied x with rx4 := { reason := d.rx4.reason } } else (d.boxReset x).qpsEmptied x : Dev).closeCommits := by
  unfold Dev.beginReset
  rw [if_neg (by simp [hn])]
  extract_lets src d0 empty d1 d2 d3 d4 d5 d6
  have h1 : d1 = d.boxReset x := by
    have : (empty d0).resetOps x = empty d0 := by
      have hr' : (empty d0).runningOps = [] := hr
      unfold Dev.resetOps; rw [hr']; rfl
    unfold d1; rw [this]; rfl
  have h2 : d2 = d1 := by
    have hc1 : d1.store.commits = [] := by rw [h1]; change d.store.commits.map _ = []; rw [hc]; rfl
    unfold d2; rw [hc1]; rfl
  have h3 : d3 = d2 := by
    have hq2 : d2.qry.queries.filter (fun k => k.x == x) = [] := by
      rw [h2, h1]
      exact List.filter_eq_nil_iff.2 (fun k hk => by simpa using hq k hk)
    unfold d3; rw [hq2]; rfl
  have h4 : d4 = d3 := by
    have hp3 : d3.qpsOf x = d.qpsOf x := by rw [h3, h2, h1]; rfl
    unfold d4; rw [hp3]
    exact List.foldlRecOn (motive := fun e => e = d3) _ _ rfl (fun e he p hm => by rw [hp p hm]; exact he)
  have h5 : d5 = (d.boxReset x).qpsEmptied x := by unfold d5; rw [h4, h3, h2, h1]; rfl
  have hw : d5.rx4 = d.rx4 := by
    obtain ⟨l, hl⟩ := Dev.qpsEmptied_spec (d.boxReset x) x
    rw [h5, hl]; rfl
  have h6 : d6 = d5 := by
    unfold d6
    refine if_neg ?_
    rintro ⟨h0, h⟩
    rw [hw, (hx h0).1, (hx h0).2] at h
    simp at h
  rw [h6, h5] at *
  rw [hw]

/-- What the reset of an idle function leaves. -/
theorem Dev.beginReset_spec (hx : x = 0 → d.rx4.hearth = none ∧ d.rx4.run = none) :
    let e := d.beginReset x
    e.fn = { d.fn with resetting := d.fn.resetting ++ [(x, d.timeUs)] } ∧ e.mbox x = (d.mbox x).emptied ∧ e.host.links = d.host.links ∧
      (∀ q, q < 8192 → (e.qp x q).cmds = [] ∧ (e.qp x q).unsignalled = 0) ∧ (d.host.qps = [] → e.host.qps = []) ∧ e.store.commits = [] ∧
      e.qry.queries = d.qry.queries ∧ e.runningOps = [] ∧ (d.twin.xfer = none → e.out = d.out) := by
  intro e
  have hb : (d.boxReset x).store.commits = [] := by change d.store.commits.map _ = []; rw [hc]; rfl
  have hbox : (d.boxReset x).mbox x = (d.mbox x).emptied := by
    change ((Dev.mboxUpd (Dev.mboxUpd _ x Mbox.emptied) x Mbox.emptied).mbox x) = _
    rw [Dev.mbox_mboxUpd, Dev.mbox_mboxUpd]; rfl
  have hops : (d.boxReset x).runningOps = [] := by
    change (d.mail.ops.map _).filter _ = []
    rw [List.filter_map]
    exact (congrArg (List.map _) (show d.mail.ops.filter _ = [] from hr)).trans rfl
  obtain ⟨l, hl⟩ := Dev.qpsEmptied_spec (d.boxReset x) x
  have hqp := fun q (h : q < 8192) => Dev.qp_qpsEmptied (d.boxReset x) x h
  have hnil : d.host.qps = [] → l = [] := by
    intro h0
    have h1 : (d.boxReset x).qpsEmptied x = d.boxReset x := by
      unfold Dev.qpsEmptied Dev.qpsOf
      rw [show (d.boxReset x).host.qps = [] from h0]; rfl
    have := congrArg (fun d : Dev => d.host.qps) (hl.symm.trans h1)
    exact this.trans h0
  have he : e = _ := Dev.beginReset_idle d hn hc hr hq hp hx
  have key : ∀ f : Dev, e = f.closeCommits → f.fn = (d.boxReset x).fn → f.mail = (d.boxReset x).mail → f.host = { (d.boxReset x).host with qps := l } → f.store = (d.boxReset x).store →
      f.qry = d.qry → f.twin = d.twin → f.out = d.out →
      e.fn = { d.fn with resetting := d.fn.resetting ++ [(x, d.timeUs)] } ∧ e.mbox x = (d.mbox x).emptied ∧ e.host.links = d.host.links ∧
      (∀ q, q < 8192 → (e.qp x q).cmds = [] ∧ (e.qp x q).unsignalled = 0) ∧ (d.host.qps = [] → e.host.qps = []) ∧ e.store.commits = [] ∧
      e.qry.queries = d.qry.queries ∧ e.runningOps = [] ∧ (d.twin.xfer = none → e.out = d.out) := by
    intro f h8 h1 h2 h3 h4 h5 h6 h7
    have hf : f.store.commits = [] := by rw [h4]; exact hb
    obtain ⟨k1, k2, k3, k4, k5⟩ := Dev.closeCommits_still hf
    rw [← h8] at k1 k2 k3 k4 k5
    refine ⟨by rw [k2, h1]; rfl, by rw [Dev.mbox, k3, h2]; exact hbox, by rw [k1, h3]; rfl, fun q h => ?_, fun h0 => by rw [k1, h3]; exact hnil h0,
      by rw [k4, hf], by rw [QrySt.queries_of_core k5, h5], by rw [Dev.runningOps, k3, h2]; exact hops, fun h0 => ?_⟩
    · have := hqp q h
      rw [hl] at this
      rw [Dev.qp, k1, h3]; exact this
    · rw [h8, Dev.closeCommits_out hf (by rw [h6, h0]), h7]
  rw [hl] at he
  split_ifs at he
  · exact key _ he rfl rfl rfl rfl rfl rfl rfl
  · exact key _ he rfl rfl rfl rfl rfl rfl rfl

end

theorem Dev.inReset_append {d : Dev} {l m : List (Nat × Nat)} (h : d.fn.resetting = l ++ m) (x : Nat) :
    d.inReset x = (l.any (fun r => r.1 == x) || m.any (fun r => r.1 == x)) := by unfold Dev.inReset; rw [h, List.any_append]

/-! ### The end of a reset -/

/-- What neither a moved hold nor a queue state that is told touches. -/
def Dev.outline (d : Dev) : HostSt × FnSt × MailSt × List Hold × Nat × StartSt := (d.host, d.fn, d.mail, d.store.holds, d.timeUs, d.start)

theorem Dev.holdMoved_outline (d : Dev) (ts : Nat) : (d.holdMoved ts).outline = d.outline := by
  unfold Dev.holdMoved Dev.tellLow
  split
  · split_ifs
    · rfl
    · unfold Dev.tellHold Dev.outline
      simp only [Dev.twinSend_host, Dev.twinSend_fn, Dev.twinSend_mail, Dev.twinSend_store, Dev.twinSend_timeUs, Dev.twinSend_start]
      rfl
  · rfl

theorem Dev.queueState_outline (d : Dev) (x q : Nat) : (d.queueState x q).outline = d.outline := by simp [Dev.outline]

/-- A function that its reset has cleared. -/
theorem Dev.clearFn_outline (d : Dev) {x : Nat} (h : ∀ c ∈ d.mail.claims, c.x ≠ x) :
    (d.clearFn x).outline = ({ d.host with fns := tabSet {} d.host.fns x {}, qps := d.host.qps.filter (fun p => p.1 / 8192 != x)
                                           reads := d.host.reads.filter (fun r => r.x != x) },
      d.fn, d.mail, d.store.holds.filter (fun h => h.x != x), d.timeUs, d.start) := by
  unfold Dev.clearFn
  extract_lets ts qs src1 src2 src3 d1 d2 d3
  have h2 : d2.outline = d1.outline := foldl_keep Dev.holdMoved_outline ts _
  have h3 : d3.outline = d2.outline := by
    have hc : d2.mail.claims.filter (fun c => c.x == x && c.holder == 1) = [] := by
      have hm : d2.mail = d.mail := congrArg (fun o => o.2.2.1) h2
      rw [hm]
      exact List.filter_eq_nil_iff.2 (fun c hc => by simp [h c hc])
    unfold d3; rw [hc]; rfl
  exact (foldl_keep (fun d q => d.queueState_outline x q) qs d3).trans (h3.trans h2)

theorem Dev.fnGet_vector_ne (d : Dev) {y x : Nat} (v : Nat) (h : x ≠ y) : (d.vector y v).fnGet x = d.fnGet x := by
  unfold Dev.vector; dsimp only
  split_ifs
  · rfl
  · rfl
  · simp [Dev.fnGet, Dev.fnUpd, h]
  · simp [Dev.fnGet, Dev.fnUpd, h]
  · rfl

theorem Dev.mbox_mboxUpd_ne (d : Dev) {x y : Nat} (f : Mbox → Mbox) (h : y ≠ x) : (d.mboxUpd x f).mbox y = d.mbox y := by
  simp [Dev.mbox, Dev.mboxUpd, h]

theorem Dev.mboxVector_keeps (d : Dev) (x : Nat) :
    (d.mboxVector x).mail = d.mail ∧ (d.mboxVector x).fn = d.fn ∧ (d.mboxVector x).store = d.store ∧ (d.mboxVector x).host.qps = d.host.qps ∧
      ∀ y, y ≠ x → (d.mboxVector x).fnGet y = d.fnGet y := by
  have hq : ∀ v, (d.vector x v).host.qps = d.host.qps := fun v => by
    unfold Dev.vector; dsimp only; split_ifs <;> rfl
  unfold Dev.mboxVector
  dsimp only
  split_ifs
  · exact ⟨by simp, by simp, by simp, hq _, fun y hy => d.fnGet_vector_ne _ hy⟩
  · exact ⟨rfl, rfl, rfl, rfl, fun y _ => rfl⟩

/-- An event is the last that its function's mailbox shows, and nothing of another function moves. -/
theorem Dev.event_spec (d : Dev) (x code o v : Nat) :
    ((d.event x code o v).mbox x).events.getLast? = some ⟨code, o, v, d.eventTime⟩ ∧ (d.event x code o v).fn = d.fn ∧ (d.event x code o v).store = d.store ∧
      (d.event x code o v).host.qps = d.host.qps ∧ (∀ y, y ≠ x → (d.event x code o v).fnGet y = d.fnGet y ∧ (d.event x code o v).mbox y = d.mbox y) := by
  unfold Dev.event
  extract_lets m e d1
  have hm : (d1.mbox x).events.getLast? = some e := by
    unfold d1
    rw [Dev.mbox_mboxUpd]
    split_ifs <;> simp
  have hy : ∀ y, y ≠ x → d1.fnGet y = d.fnGet y ∧ d1.mbox y = d.mbox y := fun y hy => ⟨rfl, d.mbox_mboxUpd_ne _ hy⟩
  obtain ⟨h1, h2, h3, h4, h5⟩ := d1.mboxVector_keeps x
  split_ifs
  · exact ⟨by rw [Dev.mbox, h1]; exact hm, h2, h3, h4, fun y hne => ⟨(h5 y hne).trans (hy y hne).1, by rw [Dev.mbox, h1]; exact (hy y hne).2⟩⟩
  · exact ⟨hm, rfl, rfl, rfl, hy⟩

theorem Dev.qp_of_qps {d e : Dev} (h : e.host.qps = d.host.qps) (x q : Nat) : e.qp x q = d.qp x q := by unfold Dev.qp; rw [h]

/-- A VF of port A whose reset ends: it is cleared, its mailbox is ready, and its PF is told (R493). -/
theorem Dev.resetDone_spec (d : Dev) {x b : Nat} (hx : x < 513) (hv : isVf x = true) (he : d.fnExists x = true) (hr : d.fn.resetting = [(x, b)])
    (hq : ∀ k ∈ d.qry.queries, k.x ≠ x) (hc : ∀ c ∈ d.mail.claims, c.x ≠ x) (hs : d.start.service = true) (ha : d.mail.activating = none) :
    (d.resetDone x).fn = { d.fn with
        resetting := [], leaving := d.fn.leaving.filter (· != x)
        queues := if d.fn.leaving.contains x then tabSet 0 d.fn.queues x 0 else d.fn.queues } ∧
      (d.resetDone x).fnGet x = {} ∧ (∀ q, q < 8192 → (d.resetDone x).qp x q = {}) ∧ (∀ h ∈ (d.resetDone x).store.holds, h.x ≠ x) ∧
      ((d.resetDone x).mbox x).ready = true ∧
      (((d.resetDone x).mbox 0).events.getLast?).map (fun e => (e.code, e.object, e.data)) = some (0x0110, x, d.timeUs - b) := by
  have hn : vfNum x = x ∧ pfOf (portOf x) = 0 := by simp [vfNum, pfOf, portOf, hx]
  have h0 : x ≠ 0 := fun h => by subst h; exact absurd hv (by decide)
  have hany : d.qry.queries.any (fun k => k.x == x) = false := by simpa using hq
  have ho := d.clearFn_outline hc
  obtain ⟨o1, o2, o3, o4, o5, o6⟩ : (d.clearFn x).host = _ ∧ (d.clearFn x).fn = _ ∧ (d.clearFn x).mail = _ ∧ (d.clearFn x).store.holds = _ ∧
      (d.clearFn x).timeUs = _ ∧ (d.clearFn x).start = _ := by simpa only [Dev.outline, Prod.mk.injEq] using ho
  have hex : ∀ l q v, ({ d.clearFn x with fn := { (d.clearFn x).fn with resetting := l, queues := q, leaving := v } } : Dev).fnExists x = true := by
    intro l q v; unfold Dev.fnExists; dsimp only; rw [o2]; exact he
  unfold Dev.resetDone
  simp only [hr, List.find?_cons, beq_self_eq_true, hany, Bool.false_eq_true, if_false, hv, if_true, hn]
  have hready : ∀ l q v, (({ d.clearFn x with fn := { (d.clearFn x).fn with resetting := l, queues := q, leaving := v } } : Dev).fnExists x &&
      ((d.clearFn x).start.service || ((d.clearFn x).start.banked && x == 0)) && (d.clearFn x).mail.activating.isNone) = true := by
    intro l q v; rw [hex, o6, o3, hs, ha]; rfl
  have hbox : ∀ (e : Dev) (r : Bool), r = true → ((e.mboxUpd x (fun m => { m with ready := r })).mbox x).ready = true := by
    intro e r hr; rw [Dev.mbox_mboxUpd]; exact hr
  have ev := fun e : Dev => Dev.event_spec e 0 0x0110 x (d.timeUs - b)
  refine ⟨((ev _).2.1).trans ?_, (((ev _).2.2.2.2 x h0).1).trans ?_, fun q hq8 => (Dev.qp_of_qps (ev _).2.2.2.1 x q).trans ?_, ?_,
    (congrArg Mbox.ready ((ev _).2.2.2.2 x h0).2).trans (hbox _ _ (hready _ _ _)), ?_⟩
  · change { (d.clearFn x).fn with
        resetting := (d.clearFn x).fn.resetting.filter (fun r => r.1 != x)
        queues := if (d.clearFn x).fn.leaving.contains x then tabSet 0 (d.clearFn x).fn.queues x 0 else (d.clearFn x).fn.queues
        leaving := (d.clearFn x).fn.leaving.filter (· != x) } = _
    rw [o2, hr]
    simp
  · change tabGet {} (d.clearFn x).host.fns x = {}
    rw [o1]; simp
  · change tabGet {} (d.clearFn x).host.qps (qpKey x q) = {}
    rw [o1]
    exact tabGet_absent _ _ _ (fun p hp hk => by simpa [hk, qpKey_div x hq8] using (List.mem_filter.1 hp).2)
  · intro h hh
    rw [(ev _).2.2.1] at hh
    have hh' : h ∈ (d.clearFn x).store.holds := hh
    rw [o4] at hh'
    simpa using (List.mem_filter.1 hh').2
  · rw [(ev _).1]; rfl

theorem Dev.resetAbandon_due (d : Dev) {h b : Nat} {r : CRef} {q : Query} (clocks : Nat) (hr : (d.hearth h).running = some r) (hq : d.query r.query = some q)
    (hm : (q.x, b) ∈ d.fn.resetting) (hb : b + 5000 ≤ d.timeUs) : d.resetAbandon h clocks = d.cancelRunning h clocks := by
  unfold Dev.resetAbandon
  have : d.fn.resetting.any (fun r => r.1 == q.x && decide (r.2 + 5000 ≤ d.timeUs)) = true := List.any_eq_true.2 ⟨_, hm, by simpa using hb⟩
  simp only [hr, Option.bind_some, hq, this, if_true]

/-! ### VFs that come and go -/

theorem mem_drop_range (n m i : Nat) : i ∈ (List.range m).drop n ↔ n ≤ i ∧ i < m := by
  rw [List.mem_drop_iff_getElem]
  simp only [List.length_range, List.getElem_range, exists_prop]
  exact ⟨fun ⟨a, h1, h2⟩ => by omega, fun ⟨h1, h2⟩ => ⟨i - n, by omega, by omega⟩⟩

/-- Whether the mailbox of a function that becomes usable is ready. -/
def Dev.boxUsable (d : Dev) (x : Nat) : Bool := d.start.service && d.mail.activating.isNone && !d.inReset x

/-- The mailboxes of functions that become usable. -/
theorem Dev.mbox_usable (l : List Nat) (d : Dev) (x : Nat) :
    (l.foldl (fun d x => d.mboxUpd x (fun m => { m with ready := d.boxUsable x })) d).mbox x =
      if x ∈ l then { d.mbox x with ready := d.boxUsable x } else d.mbox x := by
  induction l generalizing d with
  | nil => rfl
  | cons y r ih =>
    have hu : (d.mboxUpd y (fun m => { m with ready := d.boxUsable y })).boxUsable x = d.boxUsable x := rfl
    rw [List.foldl_cons, ih, hu]
    by_cases hy : x = y
    · subst hy; simp
    · rw [Dev.mbox_mboxUpd_ne _ _ hy]; simp only [List.mem_cons, hy, false_or]

/-- What an update of mailboxes leaves alone. -/
theorem Dev.usable_keeps (l : List Nat) (d : Dev) :
    ((l.foldl (fun d x => d.mboxUpd x (fun m => { m with ready := d.boxUsable x })) d).fn,
      (l.foldl (fun d x => d.mboxUpd x (fun m => { m with ready := d.boxUsable x })) d).out) = (d.fn, d.out) :=
  @foldl_keep Nat Dev _ (fun d => (d.fn, d.out)) _ (fun _ _ => by rfl) l d

theorem Dev.vfEnable_spec (d : Dev) {port n : Nat} (hp : port < 2) (hn : tabGet 0 d.fn.numVfs port < n) (h5 : n ≤ 512) (hb : d.start.banked = false) :
    tabGet 0 (d.vfEnable port n).fn.numVfs port = n ∧
      (∀ i, tabGet 0 d.fn.numVfs port ≤ i → i < n → ((d.vfEnable port n).mbox (pfOf port + i + 1)).ready = d.boxUsable (pfOf port + i + 1)) ∧
      (∀ i, i < n → pfOf port + i + 1 ∈ (d.vfEnable port n).fn.seen) ∧ (d.vfEnable port n).out = d.out := by
  unfold Dev.vfEnable
  extract_lets old vs first src d1
  rw [if_neg (by simp [hb, old]; omega)]
  change tabGet 0 (Dev.fn (List.foldl (fun d x => d.mboxUpd x (fun m => { m with ready := d.boxUsable x })) d1 (vs.drop old))).numVfs port = n ∧ _
  obtain ⟨kf, ko⟩ := Prod.mk.inj (Dev.usable_keeps (vs.drop old) d1)
  refine ⟨by rw [kf]; simp [d1], fun i hi hin => ?_, fun i hi => ?_, ko⟩
  · refine (congrArg Mbox.ready (Dev.mbox_usable (vs.drop old) d1 _)).trans ?_
    have hmem : pfOf port + i + 1 ∈ vs.drop old := by
      rw [List.mem_drop_iff_getElem]
      exact ⟨i - old, by simp [vs, old]; omega, by simp [vs, old]; omega⟩
    rw [if_pos hmem]; rfl
  · change _ ∈ (Dev.fn (List.foldl (fun d x => d.mboxUpd x (fun m => { m with ready := d.boxUsable x })) d1 (vs.drop old))).seen
    rw [kf]
    have hv : pfOf port + i + 1 ∈ vs := List.mem_map.2 ⟨i, List.mem_range.2 hi, rfl⟩
    by_cases hs : pfOf port + i + 1 ∈ d.fn.seen
    · exact List.mem_append_left _ hs
    · exact List.mem_append_right _ (List.mem_filter.2 ⟨hv, by simpa using hs⟩)

/-- No commit is open, no query and no operation runs and no queue pair is in use. -/
structure Dev.Idle (d : Dev) : Prop where
  commits : d.store.commits = []
  queries : d.qry.queries = []
  ops : d.runningOps = []
  qps : d.host.qps = []

/-- The reset of a VF of an idle part. -/
theorem Dev.Idle.beginReset {d : Dev} (h : d.Idle) {x : Nat} (hx : x = 0 → d.rx4.hearth = none ∧ d.rx4.run = none) :
    (d.beginReset x).Idle ∧ (d.beginReset x).inReset x = true ∧
      ∃ l, (d.beginReset x).fn = { d.fn with resetting := d.fn.resetting ++ l } ∧ ∀ p ∈ l, p.1 = x := by
  cases hn : d.inReset x with
  | true =>
    have he : d.beginReset x = d := by unfold Dev.beginReset; simp [hn]
    rw [he]
    exact ⟨h, hn, [], by simp, nofun⟩
  | false =>
    have hq : d.qpsOf x = [] := by unfold Dev.qpsOf; rw [h.qps]; rfl
    obtain ⟨h1, _, _, _, h5, h6, h7, h8, _⟩ := Dev.beginReset_spec d hn h.commits h.ops (by simp [h.queries]) (by simp [hq]) hx
    refine ⟨⟨h6, h7.trans h.queries, h8, h5 h.qps⟩, ?_, [(x, d.timeUs)], h1, by simp⟩
    rw [Dev.inReset, h1]; simp

/-- The resets of several VFs. -/
theorem Dev.Idle.beginResets {l : List Nat} (hl : 0 ∉ l) {d : Dev} (h : d.Idle) :
    (∀ x ∈ l, (l.foldl (fun d x => d.beginReset x) d).inReset x = true) ∧
      ∃ m, (l.foldl (fun d x => d.beginReset x) d).fn = { d.fn with resetting := d.fn.resetting ++ m } ∧ ∀ p ∈ m, p.1 ∈ l := by
  induction l generalizing d with
  | nil => exact ⟨nofun, [], by simp, nofun⟩
  | cons y r ih =>
    have hy : y ≠ 0 := fun hz => hl (by simp [hz])
    obtain ⟨h1, h2, m, hm, hmx⟩ := h.beginReset (fun hz => absurd hz hy)
    obtain ⟨k1, m', hm', hmx'⟩ := ih (fun hz => hl (by simp [hz])) h1
    have hf : (r.foldl (fun d x => d.beginReset x) (d.beginReset y)).fn = { d.fn with resetting := d.fn.resetting ++ (m ++ m') } := by
      rw [hm', hm]; simp
    refine ⟨fun x hx => ?_, m ++ m', hf, fun p hp => ?_⟩
    · rcases List.mem_cons.1 hx with rfl | hx
      · rw [List.foldl_cons, Dev.inReset, hm', List.any_append, show (d.beginReset x).fn.resetting.any _ = true from h2, Bool.true_or]
      · exact k1 x hx
    · rcases List.mem_append.1 hp with hp | hp
      · exact List.mem_cons.2 (Or.inl (hmx p hp))
      · exact List.mem_cons_of_mem _ (hmx' p hp)

theorem Dev.vfDisable_spec (d : Dev) {port n : Nat} (hp : port < 2) (hn : n < tabGet 0 d.fn.numVfs port) (h : d.Idle) :
    tabGet 0 (d.vfDisable port n).fn.numVfs port = n ∧
      (∀ i, n ≤ i → i < tabGet 0 d.fn.numVfs port → (d.vfDisable port n).inReset (pfOf port + i + 1) = true ∧ pfOf port + i + 1 ∈ (d.vfDisable port n).fn.leaving) ∧
      (∀ x, (d.vfDisable port n).inReset x = true → d.inReset x = true ∨ ∃ i, n ≤ i ∧ i < tabGet 0 d.fn.numVfs port ∧ x = pfOf port + i + 1) := by
  unfold Dev.vfDisable
  extract_lets old gone d1
  rw [if_neg (by simp [old]; omega)]
  have hmem : ∀ x, x ∈ gone ↔ ∃ i, n ≤ i ∧ i < old ∧ x = pfOf port + i + 1 := by
    intro x
    simp only [gone, List.mem_map, mem_drop_range]
    exact ⟨fun ⟨i, ⟨h1, h2⟩, h⟩ => ⟨i, h1, h2, h.symm⟩, fun ⟨i, h1, h2, h⟩ => ⟨i, ⟨h1, h2⟩, h.symm⟩⟩
  have h0 : 0 ∉ gone := fun hz => by obtain ⟨i, _, _, hi⟩ := (hmem 0).1 hz; omega
  obtain ⟨k1, m, hm, hmx⟩ := h.beginResets h0
  refine ⟨by simp, fun i h1 h2 => ⟨k1 _ ((hmem _).2 ⟨i, h1, h2, rfl⟩), List.mem_append_right _ ((hmem _).2 ⟨i, h1, h2, rfl⟩)⟩, fun x hx => ?_⟩
  have hx' : d1.inReset x = true := hx
  rw [Dev.inReset, hm, List.any_append, Bool.or_eq_true] at hx'
  rcases hx' with hx' | hx'
  · exact Or.inl hx'
  · obtain ⟨p, hpm, hpx⟩ := List.any_eq_true.1 hx'
    have : p.1 = x := by simpa using hpx
    exact Or.inr ((hmem x).1 (this ▸ hmx p hpm))

/-! ### PERST# -/

theorem Dev.functionReset_pf (d : Dev) {port : Nat} (hp : port < 2) (hv : tabGet 0 d.fn.numVfs port = 0) :
    d.functionReset (pfOf port) = d.beginReset (pfOf port) := by
  have hx : vfNum (pfOf port) = 0 ∧ portOf (pfOf port) = port := by
    obtain rfl | rfl : port = 0 ∨ port = 1 := by omega
    · decide
    · decide
  unfold Dev.functionReset Dev.fnExists isVf
  simp [hx, hv]

/-- PERST# resets the port's PF and takes its link down (R543). -/
theorem Dev.perstAssert_spec (d : Dev) {port : Nat} (hg : d.pwr.sysGood = true) (hp : port < 2) (hv : tabGet 0 d.fn.numVfs port = 0) (h : d.Idle)
    (h1 : d.rx4.hearth = none) (h2 : d.rx4.run = none) (hn : d.inReset (pfOf port) = false) (t : Nat) :
    (d.perstAssert t port).link port = { d.link port with up := false, perst := true, held := false, recovering := false } ∧
      (d.perstAssert t port).inReset (pfOf port) = true ∧ ((d.perstAssert t port).mbox (pfOf port)).ready = false := by
  have hq : (d.at t).qpsOf (pfOf port) = [] := by unfold Dev.qpsOf; rw [show (d.at t).host.qps = [] from h.qps]; rfl
  obtain ⟨k1, k2, _⟩ := Dev.beginReset_spec (d.at t) hn h.commits h.ops (by simp [h.queries]) (by simp [hq]) (fun _ => ⟨h1, h2⟩)
  unfold Dev.perstAssert
  extract_lets d0 d1 xs d2
  rw [if_neg (by simp [d0, hg]; omega)]
  have hd1 : d1 = (d.at t).beginReset (pfOf port) := Dev.functionReset_pf (d.at t) hp hv
  obtain ⟨f1, f2⟩ : d2.fn = d1.fn ∧ d2.mail = d1.mail := by
    have := @foldl_keep Nat Dev _ (fun d => (d.fn, d.mail)) (fun d x => d.fnUpd x (fun f => { f with held := [], pmeSent := false }))
      (fun _ _ => by rfl) xs d1
    simpa only [Prod.mk.injEq] using this
  refine ⟨?_, ?_, ?_⟩
  · exact Dev.link_linkUpd d2 port _
  · change d2.fn.resetting.any _ = true
    rw [f1, hd1, k1]; simp
  · change (tabGet {} d2.mail.boxes (pfOf port)).ready = false
    rw [f2, hd1]; exact congrArg Mbox.ready k2

/-- Settles O8: a VF that an idle part resets, the abandoned charge, the end of a reset, VFs that come and go, and PERST#. -/
theorem functionResets : Obligations.FunctionResets := by
  refine ⟨fun s t x hs hv hn hc ho hx hq hp => effects_host hs rfl ?_, fun s t h clocks r q b hr hq hm hb => effects_run rfl ?_,
    fun s t x b hx hv he hr hq hc hs ha => ⟨_, rfl, Dev.resetDone_spec (s.dev.at t) hx hv he hr hq hc hs ha⟩,
    fun s t port n hp hn h5 hb => ⟨_, rfl, Dev.vfEnable_spec (s.dev.at t) hp hn h5 (by simpa using hb)⟩,
    fun s t port n hp hn _ hc hq ho hqp => effects_run rfl (Dev.vfDisable_spec (s.dev.at t) hp hn ⟨hc, hq, ho, hqp⟩),
    fun s t port hg hp hv hc hq ho hqp h1 h2 hn => effects_run rfl (Dev.perstAssert_spec (s.dev.at t) hg hp hv ⟨hc, hq, ho, hqp⟩ h1 h2 hn t)⟩
  · have h0 : x ≠ 0 := fun h => by subst h; exact absurd hv (by decide)
    have hex : (s.dev.at t).fnExists x = true := by
      have : s.dev.serves x = true := hs
      simp only [Dev.serves, Bool.and_eq_true] at this
      exact this.1.1.2
    have hf : (s.dev.at t).functionReset x = (s.dev.at t).beginReset x := by unfold Dev.functionReset; simp [hex, hv]
    obtain ⟨h1, h2, _, h4, _, _, _, _, h9⟩ := Dev.beginReset_spec (s.dev.at t) hn hc ho hq hp (fun h => absurd h h0)
    rw [hf]
    exact ⟨h1, by rw [h2]; rfl, by rw [h2]; rfl, by rw [h2]; rfl, by rw [h2]; rfl, by rw [h2]; rfl, h4, h9 hx⟩
  · rw [Dev.resetAbandon_due (s.dev.at t) clocks hr hq hm hb]

end Sys2Proof.Machine

/-! PROOF. Cutting and slots (R305, R311, R312): what a cut leaves of a stage's recorded choices. -/
namespace Sys2Proof.Machine

/-- What a command that runs at a time gives holds of the part that it runs to. -/
theorem gives_of_run {i : Instr} {s : State} {t : Nat} {f : Dev → Dev} {P : Dev → Prop} (he : exec i s = .next (s.run t f)) (h : Gives i s P) :
    P (f (s.dev.at t)) := by
  obtain ⟨d, hd, hp⟩ := h
  rw [he] at hd
  injection hd with hd
  injection hd with _ hd
  rwa [hd]

/-- A query whose one stage is ordered, has a chunk to cut, and has an autonomous choice that no charge has taken up. -/
def chosenQuery : Query :=
  { id := 1, x := 0, q := 0, cid := 0, ts := 0, epoch := 0, autonomous := false, image := { stages := [{ op := 3, flags := 1 }] }, digest := [], cached := true
    stages := [{ inq := [{}], decisions := [(1, 1)] }] }

def chosenState : State := { dev := { qry := { queries := [chosenQuery] } } }

theorem chosen_nextCut : chosenState.dev.nextCut chosenQuery 0 ⟨0, 0⟩ =
    some ({ idx := 0, input := [{}] }, { inq := [], nextIdx := 1, decisions := [(1, 1)] }) := by
  decide

/-- The charge takes the choice up, and the stage has none left (R42). -/
theorem chosen_cut : (((chosenState.dev.at 0).cut 1 0 ⟨0, 0⟩).query 1).map (fun q => (q.stage 0).decisions) = some [] := by
  decide

/-- Refutes O10: a cut moves the choices that a stage has recorded to the charge, so the stage does not keep them (R42). -/
theorem not_cuttingAndSlots : ¬ Obligations.CuttingAndSlots := by
  intro h
  have hq := (gives_of_run rfl
    (h.1 chosenState 0 1 0 0 0 chosenQuery _ _ rfl (by decide) rfl rfl (by decide) chosen_nextCut (by decide) (by decide))).1
  have hs := congrArg (Option.map StageRun.decisions) hq
  rw [Option.map_map] at hs
  exact absurd (chosen_cut.symm.trans hs) (by decide)

end Sys2Proof.Machine

/-!
PROOF. Floating-point and decimal lanes (R229, R260 to R280): one rule for an instruction of two groups and one for an instruction of one group,
whose lane function reads the image's context or the groups' annotations, and the two statements assembled from them.
-/
namespace Sys2Proof.Machine

/-! ### An instruction whose lane function reads the unit -/

theorem Exu.un_eq_one (x : Exu) (w : XFields) (t : XTy) (f : Nat → LaneOut) (i : Nat) : x.un t w.a.toNat f i = x.one w t i f := rfl

section
variable {s : State} {h : Nat} {op : XOp} {w : XFields} {t u : XTy} {i : Nat} {an : Exu → XAnn}

/-- An instruction of two groups whose lane function reads the image's context or the groups' annotations. -/
theorem lane_of_read_two (hi : s.dev.issues h op w) (h128 : i < 128) (hd : op.shape.d = .v) (f : Exu → Nat → Nat → LaneOut)
    (hf : ∀ x : Exu, opRun op x w = x.vec w t w.d.toNat (an x) (x.bin u w.a.toNat w.b.toNat (f x)))
    (hr : f ((s.dev.hearth h).exu.found (s.dev.narrowOnly h) op) = f (s.dev.hearth h).exu) :
    Lane (op.cmd h w none) h w s t i ((s.dev.hearth h).exu.two w u i (f (s.dev.hearth h).exu)) :=
  Exu.bin_eq_two _ w u _ i ▸ lane_of_vec hi h128 hd (fun x => x.bin u w.a.toNat w.b.toNat (f x)) hf (by rw [hr]; rfl)

/-- An instruction of one group whose lane function reads the image's context or the group's annotation. -/
theorem lane_of_read_one (hi : s.dev.issues h op w) (h128 : i < 128) (hd : op.shape.d = .v) (f : Exu → Nat → LaneOut)
    (hf : ∀ x : Exu, opRun op x w = x.vec w t w.d.toNat (an x) (x.un u w.a.toNat (f x)))
    (hr : f ((s.dev.hearth h).exu.found (s.dev.narrowOnly h) op) = f (s.dev.hearth h).exu) :
    Lane (op.cmd h w none) h w s t i ((s.dev.hearth h).exu.one w u i (f (s.dev.hearth h).exu)) :=
  lane_of_vec hi h128 hd (fun x => x.un u w.a.toNat (f x)) hf (by rw [hr]; rfl)

/-- The annotation of the group that an instruction writes. -/
theorem retires_annOf (hi : s.dev.issues h op w) (hd : op.shape.d = .v) (g : Exu → Nat → LaneOut) {a : XAnn}
    (hf : ∀ x : Exu, opRun op x w = x.vec w t w.d.toNat (an x) (g x)) (ha : an ((s.dev.hearth h).exu.found (s.dev.narrowOnly h) op) = a) :
    Retires (op.cmd h w none) h s (fun y => y.annOf w.d.toNat = a) := by
  refine retires_step _ s h op w _ hi (exec_cmd op h w none s) (fun x => x.vec w t w.d.toNat (an x) (g x))
    (fun x hu _ => ?_) (fun x => ⟨rfl, rfl⟩) ?_
  · rw [x.retire_of_writes_group op w hd (by rw [hf]; exact hu), hf]
  · simp [Exu.step, Exu.vec, Exu.annOf, ha]

end

/-! ### Floating point -/

/-- No flag, no mark: the lanes of FMIN, FMAX, FABS and FNEG. -/
theorem LaneOut.fp_no_flag (v : Nat) : LaneOut.fp (v, 0) = .ok v := by
  simp [LaneOut.fp, LaneOut.ok, flagCauses]

/-- A format has its type's width. -/
theorem XTy.ffmt_bits {t : XTy} (ht : t.isFp = true) : t.ffmt.bits = t.bits := by
  cases t <;> cases ht <;> rfl

/-- The sign bit of a lane, read in the two ways. -/
theorem FFmt.isNeg_iff (f : FFmt) (hf : 0 < f.bits) (a : Nat) : f.isNeg a = false ↔ a / 2 ^ (f.bits - 1) % 2 = 0 := by
  have hpow : 2 ^ f.bits = 2 ^ (f.bits - 1) * 2 := by rw [← Nat.pow_succ]; congr 1; omega
  have hmod : a % (2 ^ (f.bits - 1) * 2) = a % 2 ^ (f.bits - 1) + 2 ^ (f.bits - 1) * (a / 2 ^ (f.bits - 1) % 2) := Nat.mod_mul
  have hlt : a % 2 ^ (f.bits - 1) < 2 ^ (f.bits - 1) := Nat.mod_lt _ (by positivity)
  rw [FFmt.isNeg, decide_eq_false_iff_not, Nat.not_le, hpow, hmod]
  rcases Nat.mod_two_eq_zero_or_one (a / 2 ^ (f.bits - 1)) with hb | hb <;> rw [hb] <;> omega

theorem xty_isFp {op : XOp} {w : XFields} (hw : xWordOk op w = true) (ht : op.shape.ty = true) (hf : ∀ t, xAccepts op t = t.isFp) :
    w.xty.isFp = true := hf w.xty ▸ xAccepts_xty hw ht

theorem opFmin_eq (x : Exu) (w : XFields) : opFmin x w = x.vec w w.xty w.d.toNat {} (x.bin w.xty w.a.toNat w.b.toNat (fun a b =>
    .ok (if w.xty.ffmt.orderKey b < w.xty.ffmt.orderKey a then b else a))) := by
  simp only [opFmin, Exu.fp2, LaneOut.fp_no_flag, FFmt.minOp]

theorem opFmax_eq (x : Exu) (w : XFields) : opFmax x w = x.vec w w.xty w.d.toNat {} (x.bin w.xty w.a.toNat w.b.toNat (fun a b =>
    .ok (if w.xty.ffmt.orderKey a < w.xty.ffmt.orderKey b then b else a))) := by
  simp only [opFmax, Exu.fp2, LaneOut.fp_no_flag, FFmt.maxOp]

theorem opFabs_eq {w : XFields} (ht : w.xty.isFp = true) (x : Exu) :
    opFabs x w = x.vec w w.xty w.d.toNat {} (x.un w.xty w.a.toNat (fun a => .ok (a % 2 ^ (w.xty.bits - 1)))) := by
  simp only [opFabs, Exu.fp1, LaneOut.fp_no_flag, FFmt.mag, XTy.ffmt_bits ht]

theorem opFneg_eq {w : XFields} (ht : w.xty.isFp = true) (x : Exu) :
    opFneg x w = x.vec w w.xty w.d.toNat {} (x.un w.xty w.a.toNat (fun a => .ok (if a / 2 ^ (w.xty.bits - 1) % 2 = 0
      then a % 2 ^ (w.xty.bits - 1) + 2 ^ (w.xty.bits - 1) else a % 2 ^ (w.xty.bits - 1)))) := by
  have hb := XTy.ffmt_bits ht
  have hpos : 0 < w.xty.ffmt.bits := by rw [hb]; cases w.xty <;> simp [XTy.bits]
  have hlane : ∀ a, w.xty.ffmt.mag a + w.xty.ffmt.signBit (!w.xty.ffmt.isNeg a) = if a / 2 ^ (w.xty.bits - 1) % 2 = 0
      then a % 2 ^ (w.xty.bits - 1) + 2 ^ (w.xty.bits - 1) else a % 2 ^ (w.xty.bits - 1) := by
    intro a
    have hneg := w.xty.ffmt.isNeg_iff hpos a
    rw [hb] at hneg
    cases hn : w.xty.ffmt.isNeg a <;> rw [hn] at hneg <;> simp [FFmt.mag, FFmt.signBit, hb] at hneg ⊢ <;> simp [hneg]
  simp only [opFneg, Exu.fp1, LaneOut.fp_no_flag, hlane]

/-- The row of FMA: a null where one of its three operands is. -/
def Exu.fmaLane (x : Exu) (w : XFields) (i : Nat) : LaneOut :=
  if x.valid w.a.toNat i = true ∧ x.valid w.b.toNat i = true ∧ x.valid w.c.toNat i = true then
    .fp (w.xty.ffmt.fma x.ctx.mode x.ctx.ftz (x.lane w.xty w.a.toNat i) (x.lane w.xty w.b.toNat i) (x.lane w.xty w.c.toNat i)) else {}

theorem opFma_eq (x : Exu) (w : XFields) : opFma x w = x.vec w w.xty w.d.toNat {} (x.fmaLane w) := by
  unfold opFma Exu.fmaLane
  simp only [Bool.and_eq_true, and_assoc]; rfl

/-- Settles O48: each instruction is one use of `lane_of_read_two` or `lane_of_read_one` with the lane function that the model's operation
gives; the context that it reads is not what a wake of the wide unit changes. -/
theorem floatLanes : Obligations.FloatLanes := by
  unfold Obligations.FloatLanes
  refine ⟨fun s h w i hi h128 =>
      lane_of_read_two hi h128 rfl (fun x a b => .fp (w.xty.ffmt.add x.ctx.mode x.ctx.ftz false a b)) (fun _ => rfl) rfl,
    fun s h w i hi h128 => lane_of_read_two hi h128 rfl (fun x a b => .fp (w.xty.ffmt.add x.ctx.mode x.ctx.ftz true a b)) (fun _ => rfl) rfl,
    fun s h w i hi h128 => lane_of_read_two hi h128 rfl (fun x a b => .fp (w.xty.ffmt.mul x.ctx.mode x.ctx.ftz a b)) (fun _ => rfl) rfl,
    fun s h w i hi h128 => lane_of_read_two hi h128 rfl (fun x a b => .fp (w.xty.ffmt.div x.ctx.mode x.ctx.ftz a b)) (fun _ => rfl) rfl,
    fun s h w i hi h128 => lane_of_read_one hi h128 rfl (fun x a => .fp (w.xty.ffmt.sqrt x.ctx.mode x.ctx.ftz a)) (fun _ => rfl) rfl,
    fun s h w i hi h128 => lane_of_vec hi h128 rfl (fun x => x.fmaLane w) (opFma_eq · w) rfl,
    fun s h w i hi h128 => lane_of_two hi h128 rfl (opFmin_eq · w),
    fun s h w i hi h128 => lane_of_two hi h128 rfl (opFmax_eq · w),
    fun s h w i hi h128 => lane_of_one hi h128 rfl (opFabs_eq (xty_isFp hi.1 rfl (fun _ => rfl))),
    fun s h w i hi h128 => lane_of_one hi h128 rfl (opFneg_eq (xty_isFp hi.1 rfl (fun _ => rfl))),
    fun s h w i src hi h128 hsrc => ?cvt⟩
  case cvt =>
    refine @lane_of_read_one s h .cvt w w.xty src i (fun _ => cvtAnn w) hi h128 rfl (fun x => cvtLane x.ctx.mode x.ctx.ftz src w.xty (x.annOf w.a.toNat) (cvtAnn w)) (fun x => ?_) rfl
    change opCvt x w = _
    simp only [opCvt, hsrc, Option.getD_some]

/-! ### Decimals -/

/-- The scale that the word of DDIV and DSCALE names is one of R263's. -/
theorem decScale_le {op : XOp} {w : XFields} (hw : xWordOk op w = true) (ho : op = .ddiv ∨ op = .dscale) : w.imm.toNat ≤ 38 := by
  unfold xWordOk xEncOk at hw
  rcases ho with rfl | rfl <;> simp only [Bool.and_eq_true, decide_eq_true_eq] at hw <;> exact hw.1.1.2

theorem decScale_mod {op : XOp} {w : XFields} (hw : xWordOk op w = true) (ho : op = .ddiv ∨ op = .dscale) : w.imm.toNat % 256 = w.imm.toNat :=
  Nat.mod_eq_of_lt (by have := decScale_le hw ho; omega)

theorem alignDec_rawDec (a s s' : Nat) : alignDec (rawDec a) s s' = signed 128 a * 10 ^ (s' - s) := by
  simp [alignDec, rawDec]

/-- DDIV's row: the quotient at the result scale, rounded once in the image's mode. -/
def Exu.quotDec (x : Exu) (w : XFields) (a b : Nat) : LaneOut :=
  if signed 128 b = 0 then { val := 2 ^ 128 - 1, valid := true, causes := [0x02] } else
    decRes (divRound x.ctx.mode (signed 128 a * 10 ^ ((x.annOf w.b.toNat).s + w.imm.toNat)) (signed 128 b * 10 ^ (x.annOf w.a.toNat).s))

theorem opDdiv_eq {w : XFields} (hw : w.imm.toNat % 256 = w.imm.toNat) (x : Exu) :
    opDdiv x w = x.vec w .d128 w.d.toNat ⟨38, w.imm.toNat⟩ (x.bin .d128 w.a.toNat w.b.toNat (x.quotDec w)) := by
  simp only [opDdiv, Exu.dec2, hw, rawDec, Int.ofNat_eq_natCast, Nat.cast_pow, Nat.cast_ofNat]
  rfl

/-- DSCALE's row: exact to a scale at or above its own, rounded once below it. -/
def Exu.scaled (x : Exu) (w : XFields) (a : Nat) : LaneOut :=
  decRes (if (x.annOf w.a.toNat).s ≤ w.imm.toNat then signed 128 a * 10 ^ (w.imm.toNat - (x.annOf w.a.toNat).s)
    else roundRat x.ctx.mode (signed 128 a) (10 ^ ((x.annOf w.a.toNat).s - w.imm.toNat)))

theorem opDscale_eq {w : XFields} (hw : w.imm.toNat % 256 = w.imm.toNat) (x : Exu) :
    opDscale x w = x.vec w .d128 w.d.toNat ⟨38, w.imm.toNat⟩ (x.un .d128 w.a.toNat (x.scaled w)) := by
  simp only [opDscale, rescale, hw, rawDec, Int.ofNat_eq_natCast, Nat.cast_pow, Nat.cast_ofNat]
  rfl

/-- PADD's and PSUB's row: the result with its preferred sign, or PACKED_INVALID for an operand that is no packed decimal (R268). -/
def Exu.packedLane (x : Exu) (w : XFields) (f : Int → Int → Int) (a b : Nat) : LaneOut :=
  let r := min 31 (max (x.annOf w.a.toNat).p (x.annOf w.b.toNat).p + 1)
  let z := f (packedInt (natLE 16 a)) (packedInt (natLE 16 b))
  if packedValid (x.annOf w.a.toNat).p (natLE 16 a) = true ∧ packedValid (x.annOf w.b.toNat).p (natLE 16 b) = true then
    { val := leNat (packedOf r (decide (z < 0)) (z.natAbs % 10 ^ r)), valid := true, causes := if 10 ^ r ≤ z.natAbs then [0x07] else [] }
  else { val := leNat (packedOf r false 0), valid := true, causes := [0x08] }

theorem Exu.packed2_eq (x : Exu) (w : XFields) (f : Int → Int → Int) :
    x.packed2 w f = x.vec w .pdec w.d.toNat ⟨min 31 (max (x.annOf w.a.toNat).p (x.annOf w.b.toNat).p + 1), 0⟩
      (x.bin .pdec w.a.toNat w.b.toNat (x.packedLane w f)) := by
  unfold Exu.packed2 Exu.packedLane packedRes pdecBytes
  simp only [Bool.and_eq_true, decide_eq_true_eq]
  rfl

/-- What PCHK leaves: marks and no lane (R268). -/
theorem retires_pchk {s : State} {h : Nat} {w : XFields} {i : Nat} (hi : s.dev.issues h .pchk w) (h128 : i < 128) :
    Retires (.xPchk h w none) h s (fun y =>
      let x := (s.dev.hearth h).exu
      x.marked y i (x.runs w i) (x.one w .pdec i (fun a => { causes := if packedValid (x.annOf w.a.toNat).p (natLE 16 a) then [] else [0x08] })) ∧
      y = { x.moved y with err := y.err, ovf := y.ovf, recs := y.recs }) := by
  obtain ⟨hp, _, _⟩ := Dev.issues_unit hi
  refine retires_step _ s h .pchk w _ hi (exec_cmd .pchk h w none s) (opPchk · w) (fun x hu _ => ?_) (fun _ => ⟨rfl, rfl⟩) ⟨?_, ?_⟩
  · simp only [Exu.retire]
    exact if_neg (by change ¬ x.unres = true; rw [hu]; simp)
  · exact Exu.marked_congr _ _ _ _ _ _ (Exu.marked_mark _ _ _ i h128 _ (fun _ => rfl)) rfl rfl rfl
  · simp only [Exu.moved, hp]
    rfl

/-- Settles O49: DADD, DSUB, DMUL, DDIV, PADD and PSUB are uses of `lane_of_read_two`, DSCALE of `lane_of_read_one`, each with its annotation
by `retires_annOf`; PCHK marks only. -/
theorem decimalLanes : Obligations.DecimalLanes := by
  unfold Obligations.DecimalLanes
  refine ⟨fun s h w i hi h128 => ⟨?dadd, retires_annOf hi rfl _ (fun _ => rfl) rfl⟩,
    fun s h w i hi h128 => ⟨?dsub, retires_annOf hi rfl _ (fun _ => rfl) rfl⟩,
    fun s h w i hi h128 => ⟨?dmul, retires_annOf hi rfl _ (fun _ => rfl) rfl⟩,
    fun s h w i hi h128 => ⟨lane_of_read_two hi h128 rfl (fun x => x.quotDec w) (opDdiv_eq (decScale_mod hi.1 (.inl rfl))) rfl,
      retires_annOf hi rfl _ (opDdiv_eq (decScale_mod hi.1 (.inl rfl))) rfl⟩,
    fun s h w i hi h128 => ⟨lane_of_read_one hi h128 rfl (fun x => x.scaled w) (opDscale_eq (decScale_mod hi.1 (.inr rfl))) rfl,
      retires_annOf hi rfl _ (opDscale_eq (decScale_mod hi.1 (.inr rfl))) rfl⟩,
    fun s h w i hi h128 => lane_of_read_two hi h128 rfl (fun x => x.packedLane w (· + ·)) (fun x => x.packed2_eq w _) rfl,
    fun s h w i hi h128 => lane_of_read_two hi h128 rfl (fun x => x.packedLane w (· - ·)) (fun x => x.packed2_eq w _) rfl,
    fun s h w i hi h128 => retires_pchk hi h128⟩
  case dadd =>
    simp only [← alignDec_rawDec]
    exact lane_of_read_two hi h128 rfl (fun x a b => decRes (alignDec (rawDec a) (x.annOf w.a.toNat).s (max (x.annOf w.a.toNat).s (x.annOf w.b.toNat).s) +
      alignDec (rawDec b) (x.annOf w.b.toNat).s (max (x.annOf w.a.toNat).s (x.annOf w.b.toNat).s))) (fun _ => rfl) rfl
  case dsub =>
    simp only [← alignDec_rawDec]
    exact lane_of_read_two hi h128 rfl (fun x a b => decRes (alignDec (rawDec a) (x.annOf w.a.toNat).s (max (x.annOf w.a.toNat).s (x.annOf w.b.toNat).s) -
      alignDec (rawDec b) (x.annOf w.b.toNat).s (max (x.annOf w.a.toNat).s (x.annOf w.b.toNat).s))) (fun _ => rfl) rfl
  case dmul =>
    exact lane_of_read_two hi h128 rfl (fun _ a b => decRes (rawDec a * rawDec b)) (fun _ => rfl) rfl

end Sys2Proof.Machine

/-!
PROOF. Masks and marks (R225, R230, R231, R235, R269, R273, R282): one rule for the instructions that write a mask, with or without marks, the
values of CMP and TST, and the statement of masks and marks assembled from them.
-/
namespace Sys2Proof.Machine

/-! ### An instruction that writes a mask -/

/-- Neither END nor a branch names a mask to write (Table 7.5): such an instruction goes on to the next word. -/
theorem Exu.retire_of_writes_mask (x : Exu) (op : XOp) (w : XFields) (hd : op.shape.d = .m) (hu : (opRun op x w).unres = false) :
    x.retire op w = (opRun op x w).step := by
  unfold Exu.retire
  split
  case h_5 => simp [hu]
  all_goals cases hd

/-- A word whose operation writes a mask names one of M1 to M7 (R225, R234). -/
theorem dest_ne_of_xWordOk {op : XOp} {w : XFields} (hw : xWordOk op w = true) (hd : op.shape.d = .m) : w.d.toNat ≠ 0 := by
  unfold xWordOk xRegsOk at hw
  simp only [hd, Bool.and_eq_true] at hw
  obtain ⟨⟨_, ⟨_, hm⟩, _⟩, _⟩ := hw
  intro h0
  rw [show w.d = 0 from BitVec.eq_of_toNat_eq h0] at hm
  simp at hm

/-- What only adds to the marks and the records. -/
def Exu.marksOf (x y : Exu) : Exu := { x with err := y.err, ovf := y.ovf, recs := y.recs }

theorem Exu.marked_none (x : Exu) (i : Nat) (ex : Bool) : x.marked x i ex {} := by
  refine ⟨by simp, by simp, ?_⟩
  cases ex
  · rfl
  · exact (RowRec.add_nil _ _).symm

section
variable {s : State} {h : Nat} {op : XOp} {w : XFields} {i : Nat} {b : Bool}

/-- An instruction that marks rows, writes a mask, and may count what the pattern engine takes. -/
theorem row_of_marks (hi : s.dev.issues h op w) (h128 : i < 128) (hd : op.shape.d = .m) (k : Exu → Exu) (g : Exu → Nat → Bool) (r : Exu → Nat)
    {causes : List Nat} (hf : ∀ x : Exu, opRun op x w = { (k x).mrow w (g x) with rpe := r x }) (hk : ∀ x : Exu, k x = x.marksOf (k x))
    (hm : (s.dev.hearth h).exu.marked (k ((s.dev.hearth h).exu.found (s.dev.narrowOnly h) op)) i ((s.dev.hearth h).exu.runs w i) { causes := causes })
    (hg : g ((s.dev.hearth h).exu.found (s.dev.narrowOnly h) op) i = b) : Row (op.cmd h w none) h w s i b causes := by
  have hrow := fun x : Exu => (k x).mrow_spec w (g x) i h128 (dest_ne_of_xWordOk hi.1 hd)
  have hframe : ∀ x : Exu, opRun op x w = { x.marksOf (k x) with m := ((k x).mrow w (g x)).m, rpe := r x } := fun x => by
    obtain ⟨_, _, hm⟩ := hrow x
    rw [hf, hm, ← hk]
  refine retires_step _ s h op w _ hi (exec_cmd op h w none s) (opRun op · w)
    (fun x hu _ => x.retire_of_writes_mask op w hd (by rw [hframe]; exact hu)) (fun x => by rw [hframe]; exact ⟨rfl, rfl⟩) ?_
  obtain ⟨hp, _, _⟩ := Dev.issues_unit hi
  obtain ⟨hsame, hother, -⟩ := hrow ((s.dev.hearth h).exu.found (s.dev.narrowOnly h) op)
  have hruns : (k ((s.dev.hearth h).exu.found (s.dev.narrowOnly h) op)).runs w i = (s.dev.hearth h).exu.runs w i := by rw [hk]; rfl
  have hget : ∀ r, (k ((s.dev.hearth h).exu.found (s.dev.narrowOnly h) op)).mGet r = (s.dev.hearth h).exu.mGet r := fun r => by rw [hk]; rfl
  have hread : ∀ q, (opRun op ((s.dev.hearth h).exu.found (s.dev.narrowOnly h) op) w).mGet q =
      ((k ((s.dev.hearth h).exu.found (s.dev.narrowOnly h) op)).mrow w (g ((s.dev.hearth h).exu.found (s.dev.narrowOnly h) op))).mGet q :=
    fun q => by rw [hf]; rfl
  rw [hg, hruns, hget, ← hread] at hsame
  simp only [hget, ← hread] at hother
  refine ⟨hsame, Exu.marked_congr _ _ _ _ _ _ hm ?_ ?_ ?_, hother, ?_⟩
  · change (opRun op _ w).err = _; rw [hframe]; rfl
  · change (opRun op _ w).ovf = _; rw [hframe]; rfl
  · change (opRun op _ w).recs = _; rw [hframe]; rfl
  · simp only [hframe, Exu.step, Exu.moved, Exu.marksOf, Exu.found, hp]

/-- An instruction that does nothing but write a mask. -/
theorem row_of (hi : s.dev.issues h op w) (h128 : i < 128) (hd : op.shape.d = .m) (g : Exu → Nat → Bool)
    (hf : ∀ x : Exu, opRun op x w = x.mrow w (g x))
    (hg : g ((s.dev.hearth h).exu.found (s.dev.narrowOnly h) op) i = b) : Row (op.cmd h w none) h w s i b [] :=
  row_of_marks hi h128 hd id g (fun x => (x.mrow w (g x)).rpe) hf (fun _ => rfl) (Exu.marked_none _ i _) hg

/-- An instruction that compares the rows that are valid, and may count what the pattern engine takes. -/
theorem row_of_cmpRow (hi : s.dev.issues h op w) (h128 : i < 128) (hd : op.shape.d = .m) (v : Exu → Nat → Bool) (f : Exu → Nat → Bool × List Nat)
    (r : Exu → Nat) (hf : ∀ x : Exu, opRun op x w = { x.cmpRow w (v x) (f x) with rpe := r x })
    (hv : v ((s.dev.hearth h).exu.found (s.dev.narrowOnly h) op) i = v (s.dev.hearth h).exu i)
    (hr : f ((s.dev.hearth h).exu.found (s.dev.narrowOnly h) op) i = f (s.dev.hearth h).exu i) :
    let x := (s.dev.hearth h).exu
    Row (op.cmd h w none) h w s i (v x i && (f x i).1) (if v x i then (f x i).2 else []) := by
  intro x
  have hlane : (if v (x.found (s.dev.narrowOnly h) op) i then { causes := (f (x.found (s.dev.narrowOnly h) op) i).2 } else .null) =
      ({ causes := if v x i then (f x i).2 else [] } : LaneOut) := by
    rw [hv, hr]
    cases v x i <;> rfl
  refine row_of_marks hi h128 hd (fun x => x.mark (x.execMask w) (fun i => if v x i then { causes := (f x i).2 } else .null))
    (fun x i => v x i && (f x i).1) r hf (fun _ => rfl) ?_ ?_
  · exact Exu.marked_congr _ _ _ _ _ _ (Exu.marked_mark x _ _ i h128 _ (fun _ => hlane)) rfl rfl rfl
  · rw [hv, hr]

end

/-! ### The values of CMP and TST -/

/-- The packed decimals of a row of CMP are both well formed (R269). -/
def Exu.cmpGood (x : Exu) (w : XFields) (i : Nat) : Bool :=
  packedValid (x.annOf w.a.toNat).p (natLE 16 (x.lane w.xty w.a.toNat i)) && packedValid (x.annOf w.b.toNat).p (natLE 16 (x.lane w.xty w.b.toNat i))

/-- What CMP gives a row of two values, type by type. -/
def Exu.cmpBit (x : Exu) (w : XFields) (i : Nat) : Bool :=
  let t := w.xty
  let a := x.lane t w.a.toNat i
  let b := x.lane t w.b.toNat i
  if t.isInt then cmpOp w.mod.toNat (some (compare (t.toInt a) (t.toInt b)))
  else if t.isFp then cmpOp w.mod.toNat (t.ffmt.compare a b)
  else if t = .d128 then cmpOp w.mod.toNat (some (compare (signed 128 a * 10 ^ (x.annOf w.b.toNat).s) (signed 128 b * 10 ^ (x.annOf w.a.toNat).s)))
  else if t = .pdec then x.cmpGood w i && cmpOp w.mod.toNat (some (compare (packedInt (natLE 16 a)) (packedInt (natLE 16 b))))
  else cmpOp w.mod.toNat (some (cmpBytes (x.str w.a.toNat i) (x.str w.b.toNat i)))

theorem cmpLane_eq (x : Exu) (w : XFields) (i : Nat) :
    cmpLane x w.xty w.mod.toNat w.a.toNat w.b.toNat i = (x.cmpBit w i, if w.xty == .pdec && !x.cmpGood w i then [0x08] else []) := by
  unfold cmpLane Exu.cmpBit Exu.cmpGood
  generalize w.xty = t
  cases t
  case pdec =>
    cases hg : (packedValid (x.annOf w.a.toNat).p (natLE 16 (x.lane .pdec w.a.toNat i)) &&
      packedValid (x.annOf w.b.toNat).p (natLE 16 (x.lane .pdec w.b.toNat i))) <;>
      simp [XTy.isInt, XTy.isFp, pdecBytes, causePackedInvalid, -Bool.and_eq_true, -Bool.and_eq_false_imp, hg]
  all_goals simp [XTy.isInt, XTy.isFp, rawDec]

theorem row_of_cmp {s : State} {h : Nat} {w : XFields} {i : Nat} (hi : s.dev.issues h .cmp w) (h128 : i < 128) :
    let x := (s.dev.hearth h).exu
    let both := x.valid w.a.toNat i && x.valid w.b.toNat i
    Row (.xCmp h w none) h w s i (both && x.cmpBit w i) (if both && w.xty == .pdec && !x.cmpGood w i then [0x08] else []) := by
  intro x both
  have hrow := row_of_cmpRow hi h128 rfl (fun x i => x.valid w.a.toNat i && x.valid w.b.toNat i)
    (fun x => cmpLane x w.xty w.mod.toNat w.a.toNat w.b.toNat) (fun x => (opCmp x w).rpe) (fun _ => rfl) rfl rfl
  simp only [cmpLane_eq] at hrow
  have hcauses : (if both && w.xty == .pdec && !x.cmpGood w i then [0x08] else []) =
      if both then (if w.xty == .pdec && !x.cmpGood w i then [0x08] else []) else [] := by
    cases both <;> simp
  rw [hcauses]
  exact hrow

/-- A row's value is a packed decimal that a relation cannot read (R269). -/
def Exu.tstBad (x : Exu) (w : XFields) (c : XSlot) (i : Nat) : Bool :=
  c.ty.ty == .packedDecimal && decide (w.mod.toNat < 8) && ((x.slotVal (w.imm.toNat % 128) i).map (packedValid c.ty.a)).getD true == false

/-- The marks of TST: PACKED_INVALID for such a value. -/
def Exu.tstMark (x : Exu) (w : XFields) : Exu :=
  match x.slot (w.imm.toNat % 128) with
  | none => x
  | some c => x.mark (x.execMask w) (fun i => { causes := if x.tstBad w c i then [0x08] else [] })

/-- The bit of TST: the test's, where the slot is there and its value can be read. -/
def Exu.tstBit (x : Exu) (w : XFields) (i : Nat) : Bool :=
  match x.slot (w.imm.toNat % 128) with
  | none => false
  | some c => !x.tstBad w c i && testVal c.ty.ty w.mod.toNat (x.slotVal (w.imm.toNat % 128) i) (x.tstOperands w)

theorem Exu.tstBad_eq (x : Exu) (w : XFields) (c : XSlot) (i : Nat) :
    (match x.slotVal (w.imm.toNat % 128) i with
      | some b => c.ty.ty == .packedDecimal && decide (w.mod.toNat < 8) && !packedValid c.ty.a b
      | none => false) = x.tstBad w c i := by
  unfold Exu.tstBad
  cases x.slotVal (w.imm.toNat % 128) i <;> simp

theorem opTst_eq (x : Exu) (w : XFields) : opTst x w = (x.tstMark w).mrow w (x.tstBit w) := by
  unfold opTst Exu.tstMark Exu.tstBit
  cases hs : x.slot (w.imm.toNat % 128) with
  | none => simp only [hs]
  | some c => simp only [hs, ← Exu.tstBad_eq]; rfl

theorem Exu.tstMark_eq (x : Exu) (w : XFields) : x.tstMark w = x.marksOf (x.tstMark w) := by
  unfold Exu.tstMark
  cases x.slot (w.imm.toNat % 128) <;> rfl

theorem Exu.tstMark_some {x : Exu} {w : XFields} {c : XSlot} (hc : x.slot (w.imm.toNat % 128) = some c) :
    x.tstMark w = x.mark (x.execMask w) (fun i => { causes := if x.tstBad w c i then [0x08] else [] }) := by
  simp only [Exu.tstMark, hc]

theorem Exu.tstBit_some {x : Exu} {w : XFields} {c : XSlot} (hc : x.slot (w.imm.toNat % 128) = some c) (i : Nat) :
    x.tstBit w i = (!x.tstBad w c i && testVal c.ty.ty w.mod.toNat (x.slotVal (w.imm.toNat % 128) i) (x.tstOperands w)) := by
  simp only [Exu.tstBit, hc]

section
variable {s : State} {h : Nat} {w : XFields} {i : Nat}

/-- TST of a slot that is there. -/
theorem row_of_tst {c : XSlot} (hi : s.dev.issues h .tst w) (h128 : i < 128) (hc : (s.dev.hearth h).exu.slot (w.imm.toNat % 128) = some c) :
    let x := (s.dev.hearth h).exu
    Row (.xTst h w none) h w s i (!x.tstBad w c i && testVal c.ty.ty w.mod.toNat (x.slotVal (w.imm.toNat % 128) i) (x.tstOperands w))
      (if x.tstBad w c i then [0x08] else []) := by
  intro x
  have hc' : (x.found (s.dev.narrowOnly h) .tst).slot (w.imm.toNat % 128) = some c := hc
  refine row_of_marks hi h128 rfl (fun x => x.tstMark w) (fun x => x.tstBit w) (fun x => (opTst x w).rpe)
    (fun x => by change opTst x w = _; rw [← opTst_eq]) (fun x => x.tstMark_eq w) ?_ ?_
  · rw [Exu.tstMark_some hc']
    exact Exu.marked_congr _ _ _ _ _ _ (Exu.marked_mark x (x.execMask w) _ i h128 _ (fun _ => rfl)) rfl rfl rfl
  · exact Exu.tstBit_some hc' i

/-- TST of a slot that is not there: no row. -/
theorem row_of_tst_absent (hi : s.dev.issues h .tst w) (h128 : i < 128) (hc : (s.dev.hearth h).exu.slot (w.imm.toNat % 128) = none) :
    Row (.xTst h w none) h w s i false [] := by
  have hc' : ((s.dev.hearth h).exu.found (s.dev.narrowOnly h) .tst).slot (w.imm.toNat % 128) = none := hc
  refine row_of_marks hi h128 rfl (fun x => x.tstMark w) (fun x => x.tstBit w) (fun x => (opTst x w).rpe)
    (fun x => by change opTst x w = _; rw [← opTst_eq]) (fun x => x.tstMark_eq w) ?_ ?_
  · simp only [Exu.tstMark, hc']
    exact Exu.marked_none _ i _
  · simp only [Exu.tstBit, hc']

end

/-! ### ECLR -/

theorem tabGet_clearRecs (t : Tab RowRec) (k : Mask) (n i : Nat) :
    tabGet {} (clearRecs t k n) i = if i < n ∧ k.getLsbD i = true then {} else tabGet {} t i := by
  induction n with
  | zero => simp [clearRecs]
  | succ n ih =>
    simp only [clearRecs]
    by_cases hn : i = n
    · subst hn
      split <;> simp_all
    · have hlt : i < n + 1 ↔ i < n := by omega
      simp only [hlt]
      split
      · rw [tabGet_set_ne _ _ _ _ _ _ hn, ih]
      · rw [ih]

/-- Settles O50: the instructions that write a mask are uses of `row_of`, `row_of_cmp` and `row_of_tst`; VSEL writes a group; SETNULL, ECLR and
SETSEL write what each names. -/
theorem maskRowsHold : Obligations.MaskRows := by
  unfold Obligations.MaskRows
  refine ⟨fun s h w i hi h128 => row_of_cmp hi h128,
    fun s h w i hi h128 => ?vsel,
    fun s h w i hi h128 => row_of hi h128 rfl (fun x => x.valid w.a.toNat) (fun _ => rfl) rfl,
    fun s h w i hi h128 => ?setnull,
    fun s h w i hi h128 => row_of hi h128 rfl (fun x i => (x.mGet w.a.toNat).getLsbD i && (x.mGet w.b.toNat).getLsbD i) (fun _ => rfl) rfl,
    fun s h w i hi h128 => row_of hi h128 rfl (fun x i => (x.mGet w.a.toNat).getLsbD i || (x.mGet w.b.toNat).getLsbD i) (fun _ => rfl) rfl,
    fun s h w i hi h128 => row_of hi h128 rfl (fun x i => (x.mGet w.a.toNat).getLsbD i != (x.mGet w.b.toNat).getLsbD i) (fun _ => rfl) rfl,
    fun s h w i hi h128 => row_of hi h128 rfl (fun x i => (x.mGet w.a.toNat).getLsbD i && !(x.mGet w.b.toNat).getLsbD i) (fun _ => rfl) rfl,
    fun s h w i hi h128 => row_of hi h128 rfl (fun x i => !(x.mGet w.a.toNat).getLsbD i) (fun _ => rfl) rfl,
    fun s h w i hi h128 => row_of hi h128 rfl (fun x i => (x.mGet w.a.toNat).getLsbD i) (fun _ => rfl) rfl,
    fun s h w i hi h128 => row_of hi h128 rfl (fun x i => x.err.getLsbD i) (fun _ => rfl) rfl,
    fun s h w i hi h128 => row_of hi h128 rfl (fun x i => x.ovf.getLsbD i) (fun _ => rfl) rfl,
    fun s h w i hi h128 => ?mld,
    fun s h w i hi h128 => row_of hi h128 rfl (fun x i => (x.slotVal w.imm.toNat i).isSome) (fun _ => rfl) rfl,
    fun s h w i c hi h128 hc => row_of_tst hi h128 hc,
    fun s h w i hi h128 hc => row_of_tst_absent hi h128 hc,
    fun s h w hi => ?eclr, fun s h w hi => ?setsel⟩
  case vsel =>
    exact lane_of_vec hi h128 rfl (fun x i => { val := x.lane w.xty (if (x.mGet w.c.toNat).getLsbD i then w.a.toNat else w.b.toNat) i, valid := x.valid (if (x.mGet w.c.toNat).getLsbD i then w.a.toNat else w.b.toNat) i }) (fun _ => rfl) rfl
  case setnull =>
    obtain ⟨hp, _, _⟩ := Dev.issues_unit hi
    refine retires_step _ s h .setnull w _ hi (exec_cmd .setnull h w none s) (opSetnull · w) (fun x hu _ => ?_) (fun _ => ⟨rfl, rfl⟩) ⟨?_, ?_, ?_⟩
    · exact x.retire_of_writes_group .setnull w rfl hu
    · simp [opSetnull, Exu.step, Exu.valid, h128]
      rfl
    · intro b hb
      simp [opSetnull, Exu.step, hb]
      rfl
    · simp only [opSetnull, Exu.step, Exu.moved, Exu.found, hp]
  case mld =>
    exact row_of hi h128 rfl (fun x i => match x.slotVal w.imm.toNat i with | some b => leNat b != 0 | none => false) (fun _ => rfl) rfl
  case eclr =>
    obtain ⟨hp, _, _⟩ := Dev.issues_unit hi
    refine retires_step _ s h .eclr w _ hi (exec_cmd .eclr h w none s) (opEclr · w) (fun x hu _ => ?_) (fun _ => ⟨rfl, rfl⟩) ⟨rfl, rfl, ?_, ?_⟩
    · simp only [Exu.retire]
      exact if_neg (by change ¬ x.unres = true; rw [hu]; simp)
    · intro i h128
      refine (tabGet_clearRecs _ _ 128 i).trans ?_
      simp only [h128, true_and]
      rfl
    · simp only [opEclr, Exu.step, Exu.moved, Exu.found, hp]
  case setsel =>
    obtain ⟨hp, _, _⟩ := Dev.issues_unit hi
    refine retires_step _ s h .setsel w _ hi (exec_cmd .setsel h w none s) (opSetsel · w) (fun x hu _ => ?_) (fun _ => ⟨rfl, rfl⟩) ?_
    · simp only [Exu.retire]
      exact if_neg (by change ¬ x.unres = true; rw [hu]; simp)
    · simp only [opSetsel, Exu.step, Exu.moved, Exu.found, hp]
      rfl

end Sys2Proof.Machine

/-!
PROOF. Loads and stores (R229, R231, R240): VSCAT marks only a row where both its operands are valid (notes/assumptions/24.md), and the statement
wants the mark of INDEX_RANGE where the index alone is valid; a unit with such a row refutes it.
-/
namespace Sys2Proof.Machine

/-- The unit that an instruction without a fault leaves is what `Retires` speaks of. -/
theorem retires_run {s : State} {h : Nat} {op : XOp} {w : XFields} {P : Exu → Prop} (hi : s.dev.issues h op w)
    (hu : ((s.dev.hearth h).exu.done (s.dev.narrowOnly h) op w).unres = false)
    (hp : ((s.dev.hearth h).exu.done (s.dev.narrowOnly h) op w).pend = none) (hr : Retires (op.cmd h w none) h s P) :
    P { (s.dev.hearth h).exu.done (s.dev.narrowOnly h) op w with rpe := 0, fixes := 0 } := by
  obtain ⟨hnext, hexu, _⟩ := s.unit_next h op w hi hu hp
  obtain ⟨d, hd, hP, _⟩ := hr
  rw [exec_cmd, hnext] at hd
  injection hd with hd
  injection hd with _ hd
  rw [← hexu, hd]
  exact hP

/-- A unit whose row 0 executes with an index beyond the scratch in V1 and a null in V2. -/
def scatterUnit : Exu := { v := [(128, 0xFFFFFFFF)], vld := [(1, 1)], m0 := 1 }

def scatterState : State := { dev := { qry := { hearths := [(0, { exu := scatterUnit })] } } }

/-- VSCAT of V2 at V1, type I32. -/
def scatterWord : XFields := { ty := 2, a := 1, b := 2 }

theorem scatter_issues : scatterState.dev.issues 0 .vscat scatterWord := by
  constructor <;> decide +kernel

/-- The model marks nothing: the row's second operand is null. -/
theorem scatter_err : ((scatterState.dev.hearth 0).exu.done (scatterState.dev.narrowOnly 0) .vscat scatterWord).err.getLsbD 0 = false := by
  decide +kernel

/-- Refutes O52: VSCAT of a null at an index beyond the scratch marks no row, and the statement's marks follow the index alone. -/
theorem not_loadsAndStores : ¬ Obligations.LoadsAndStores := by
  unfold Obligations.LoadsAndStores
  rintro ⟨_, _, _, _, _, _, _, _, _, _, _, _, _, hscat, _⟩
  have hrun := retires_run scatter_issues (by decide +kernel) (by decide +kernel) (hscat scatterState 0 scatterWord scatter_issues)
  obtain ⟨_, _, hmark, _⟩ := hrun
  obtain ⟨herr, _⟩ := hmark 0 (by decide)
  exact absurd (scatter_err.symm.trans herr) (by decide +kernel)

end Sys2Proof.Machine

/-!
PROOF. Strings, automata and care-mask lookups (R242, R289, R293, R294, R300): the tests into a mask by `row_of_cmpRow`, the instructions that write
strings by one rule of their own, the lookups of CML, whose false hits the hypotheses exclude or keep, and the statement assembled from them.
-/
namespace Sys2Proof.Machine

/-! ### Prefixes, suffixes and places -/

theorem isPrefix_eq (p b : Bytes) : isPrefix p b = p.isPrefixOf b := by
  induction p generalizing b with
  | nil => cases b <;> rfl
  | cons x p ih => cases b with
    | nil => rfl
    | cons y b => simp [isPrefix, List.isPrefixOf, ih]

theorem isPrefix_reverse (p b : Bytes) : isPrefix p.reverse b.reverse = p.isSuffixOf b := isPrefix_eq _ _

/-- What `findBytes` finds is the first place; where it finds none there is none. -/
theorem findBytes_spec (p b : Bytes) (k : Nat) :
    match findBytes p b k with
    | none => ∀ j, j ≤ b.length → p.isPrefixOf (b.drop j) = false
    | some n => k ≤ n ∧ p.isPrefixOf (b.drop (n - k)) = true ∧ ∀ j, j < n - k → p.isPrefixOf (b.drop j) = false := by
  induction b generalizing k with
  | nil => cases p <;> simp [findBytes, List.isPrefixOf]
  | cons y b ih =>
    simp only [findBytes, isPrefix_eq]
    by_cases hp : p.isPrefixOf (y :: b) = true
    · simp [hp]
    · rw [if_neg hp]
      have h0 : p.isPrefixOf (y :: b) = false := Bool.eq_false_iff.2 hp
      have hk := ih (k + 1)
      cases hf : findBytes p b (k + 1) with
      | none =>
        rw [hf] at hk
        intro j hj
        cases j with
        | zero => exact h0
        | succ j => exact hk j (by simpa using hj)
      | some n =>
        rw [hf] at hk
        obtain ⟨hle, hat, hbefore⟩ := hk
        have hn : n - k = (n - (k + 1)) + 1 := by omega
        refine ⟨by omega, by rw [hn]; exact hat, fun j hj => ?_⟩
        cases j with
        | zero => exact h0
        | succ j => exact hbefore j (by omega)

/-- The place of a string in another as SFIND gives it (R242). -/
def findPlace (p b : Bytes) : Int := match findBytes p b 0 with | some k => Int.ofNat k | none => -1

theorem findPlace_spec (p b : Bytes) :
    (findPlace p b = -1 ∧ ∀ k, k ≤ b.length → p.isPrefixOf (b.drop k) = false) ∨
      (0 ≤ findPlace p b ∧ p.isPrefixOf (b.drop (findPlace p b).toNat) = true ∧ ∀ k, k < (findPlace p b).toNat → p.isPrefixOf (b.drop k) = false) := by
  have hspec := findBytes_spec p b 0
  unfold findPlace
  cases hf : findBytes p b 0 with
  | none => rw [hf] at hspec; exact .inl ⟨rfl, hspec⟩
  | some n =>
    rw [hf] at hspec
    obtain ⟨_, hat, hbefore⟩ := hspec
    exact .inr ⟨Int.natCast_nonneg n, hat, hbefore⟩

/-- A test of the rows that are valid, which marks none and may count what the pattern engine takes. -/
theorem row_of_test {s : State} {h : Nat} {op : XOp} {w : XFields} {i : Nat} (hi : s.dev.issues h op w) (h128 : i < 128) (hd : op.shape.d = .m)
    (v f : Exu → Nat → Bool) (r : Exu → Nat) (hf : ∀ x : Exu, opRun op x w = { x.cmpRow w (v x) (fun i => (f x i, [])) with rpe := r x })
    (hv : v ((s.dev.hearth h).exu.found (s.dev.narrowOnly h) op) i = v (s.dev.hearth h).exu i)
    (hr : f ((s.dev.hearth h).exu.found (s.dev.narrowOnly h) op) i = f (s.dev.hearth h).exu i) :
    Row (op.cmd h w none) h w s i (v (s.dev.hearth h).exu i && f (s.dev.hearth h).exu i) [] :=
  (ite_self (c := v (s.dev.hearth h).exu i = true) ([] : List Nat)) ▸
    row_of_cmpRow hi h128 hd v (fun x i => (f x i, [])) r hf hv (congrArg (·, []) hr)

/-! ### An instruction that writes strings -/

/-- What SSUB gives a row (R242): a null and STRING_ARG for a negative start or length. -/
def Exu.substring (x : Exu) (w : XFields) (i : Nat) : Option Bytes × List Nat :=
  let all := x.valid w.a.toNat i && x.valid w.b.toNat i && x.valid w.c.toNat i
  let st := XTy.i32.toInt (x.lane .i32 w.b.toNat i)
  let n := XTy.i32.toInt (x.lane .i32 w.c.toNat i)
  (if all = true ∧ 0 ≤ st ∧ 0 ≤ n then some (((x.str w.a.toNat i).drop st.toNat).take n.toNat) else none,
    if all = true ∧ ¬ (0 ≤ st ∧ 0 ≤ n) then [0x0C] else [])

theorem opStrSsub_eq (x : Exu) (w : XFields) : opStrSsub x w = x.vecStr w w.d.toNat (x.substring w) := by
  refine congrArg (x.vecStr w w.d.toNat) (funext fun i => ?_)
  unfold Exu.substring
  generalize XTy.i32.toInt (x.lane .i32 w.b.toNat i) = st
  generalize XTy.i32.toInt (x.lane .i32 w.c.toNat i) = n
  cases x.valid w.a.toNat i && x.valid w.b.toNat i && x.valid w.c.toNat i
  · simp
  · by_cases hneg : st < 0 ∨ n < 0
    · have : ¬ (0 ≤ st ∧ 0 ≤ n) := by omega
      simp [hneg, this, causeStringArg]
    · have : 0 ≤ st ∧ 0 ≤ n := by omega
      simp [hneg, this]

/-- What RPX gives a row: the match as a string, or a null (R289). -/
def Exu.matched (x : Exu) (w : XFields) (i : Nat) : Option Bytes × List Nat :=
  (if x.valid w.a.toNat i then
    (runAutomaton (x.ctx.autos.getD w.imm.toNat {}) (x.str w.a.toNat i)).1.map (fun m => ((x.str w.a.toNat i).drop m.1).take (m.2 - m.1)) else none, [])

theorem opRpx_eq (x : Exu) (w : XFields) : opRpx x w = { x.vecStr w w.d.toNat (x.matched w) with rpe := x.rpe + rpBytes x w } := by
  have hrow : x.matched w = fun i => if x.valid w.a.toNat i then
      ((runAutomaton (x.ctx.autos.getD w.imm.toNat {}) (x.str w.a.toNat i)).1.map (matchBytes (x.str w.a.toNat i)), []) else (none, []) := by
    funext i
    unfold Exu.matched
    cases x.valid w.a.toNat i <;> rfl
  rw [hrow]
  rfl

/-- What a group of strings is before the heap takes them: their places, which follow what the heap held. -/
def strLane (n : Nat) (f : Nat → Option Bytes × List Nat) (i : Nat) : LaneOut :=
  match f i with
  | (some _, cs) => { val := n + i, valid := true, causes := cs }
  | (none, cs) => { causes := cs }

theorem strLane_valid (n : Nat) (f : Nat → Option Bytes × List Nat) (i : Nat) : (strLane n f i).valid = (f i).1.isSome := by
  unfold strLane; split <;> simp_all

theorem strLane_causes (n : Nat) (f : Nat → Option Bytes × List Nat) (i : Nat) :
    (strLane n f i).causes = (f i).2 ∧ (strLane n f i).flags = 0 := by
  unfold strLane; split <;> simp_all

theorem strLane_val (n : Nat) (f : Nat → Option Bytes × List Nat) (i : Nat) : (strLane n f i).val = if (f i).1.isSome then n + i else 0 := by
  unfold strLane; split <;> simp_all

theorem Exu.vecStr_eq (x : Exu) (w : XFields) (d : Nat) (f : Nat → Option Bytes × List Nat) :
    x.vecStr w d f = { x.vec w .str d {} (strLane x.heap.length f) with heap := x.heap ++ (List.range 128).map (fun i => ((f i).1).getD []) } := rfl

/-- The string that a row finds in the heap is the one that was put there for it. -/
theorem heap_getD (a : List Bytes) (f : Nat → Option Bytes × List Nat) {i : Nat} (hi : i < 128) :
    (a ++ (List.range 128).map (fun i => ((f i).1).getD [])).getD (a.length + i) [] = ((f i).1).getD [] := by
  simp [List.getD, hi]

/-- An instruction that writes a group of strings, and may count what the pattern engine takes. -/
theorem laneStr_of {s : State} {h : Nat} {op : XOp} {w : XFields} {i : Nat} (hi : s.dev.issues h op w) (h128 : i < 128) (hd : op.shape.d = .v)
    (hheap : (s.dev.hearth h).exu.heap.length < 2 ^ 63) (f : Exu → Nat → Option Bytes × List Nat) (r : Exu → Nat)
    (hf : ∀ x : Exu, opRun op x w = { x.vecStr w w.d.toNat (f x) with rpe := r x })
    (hr : f ((s.dev.hearth h).exu.found (s.dev.narrowOnly h) op) i = f (s.dev.hearth h).exu i) :
    LaneStr (op.cmd h w none) h w s i (f (s.dev.hearth h).exu i).1 (f (s.dev.hearth h).exu i).2 := by
  rw [← hr]
  refine retires_step _ s h op w _ hi (exec_cmd op h w none s) (opRun op · w)
    (fun x hu _ => x.retire_of_writes_group op w hd (by rw [hf]; exact hu)) (fun x => by rw [hf]; exact ⟨rfl, rfl⟩) ?_
  obtain ⟨hp, _, _⟩ := Dev.issues_unit hi
  set x := (s.dev.hearth h).exu with hx
  set g := f (x.found (s.dev.narrowOnly h) op) with hg
  obtain ⟨hwrote, hmarked, hkeeps, -, -⟩ := (x.found (s.dev.narrowOnly h) op).vec_spec w .str w.d.toNat {} (strLane x.heap.length g) i h128 _ rfl
  obtain ⟨hlane, hvalid⟩ := hwrote
  have hsmall : (x.heap.length + i) % 2 ^ XTy.str.laneBits = x.heap.length + i := Nat.mod_eq_of_lt (by simp [XTy.laneBits, XTy.group]; omega)
  simp only [hf]
  refine ⟨fun hruns => ⟨?_, fun b hb => ?_, fun hn => ?_⟩, fun hruns => ⟨?_, ?_⟩, ?_, hkeeps, ?_, ?_⟩
  · exact hvalid.trans ((if_pos hruns).trans (strLane_valid _ _ _))
  · have hval : (strLane x.heap.length g i).val % 2 ^ XTy.str.laneBits = x.heap.length + i := by rw [strLane_val, hb]; exact hsmall
    refine (congrArg (fun k => (x.heap ++ (List.range 128).map (fun i => ((g i).1).getD [])).getD k []) (hlane.trans ((if_pos hruns).trans hval))).trans ?_
    exact (heap_getD _ _ h128).trans (by rw [hb]; rfl)
  · exact hlane.trans ((if_pos hruns).trans (by rw [strLane_val, hn]; rfl))
  · exact hvalid.trans (if_neg (by simp [show (x.found (s.dev.narrowOnly h) op).runs w i = false from hruns]))
  · exact hlane.trans (if_neg (by simp [show (x.found (s.dev.narrowOnly h) op).runs w i = false from hruns]))
  · obtain ⟨hc, hfl⟩ := strLane_causes x.heap.length g i
    simp only [Exu.marked, hc, hfl] at hmarked
    exact hmarked
  · exact List.prefix_append _ _
  · simp only [Exu.moved, hp]
    rfl

/-! ### Lookups of the care-mask table -/

/-- What a row that does not execute would get does not matter. -/
theorem Exu.wrote_of_runs {x y : Exu} {w : XFields} {t : XTy} {d i : Nat} {o o' : LaneOut} (hw : x.wrote y w t d i o)
    (he : x.runs w i = true → o = o') : x.wrote y w t d i o' := by
  unfold Exu.wrote at hw ⊢
  by_cases hr : x.runs w i = true
  · rwa [← he hr]
  · simpa [hr] using hw

theorem Exu.marked_of_runs {x y : Exu} {i : Nat} {r : Bool} {o o' : LaneOut} (hm : x.marked y i r o) (he : r = true → o = o') :
    x.marked y i r o' := by
  cases r
  · simpa [Exu.marked] using hm
  · rwa [← he rfl]

/-- A lookup whose hits are all as their copies say repairs nothing and gives the winners' word (R294, R300). -/
theorem careLookup_good {c : Cmt} {t : CareTable} {table a : Nat} (hgood : ∀ k ∈ c.winners table a, falseHit t a k = false) (fixes fuel : Nat) :
    careLookup c t table a fixes fuel = (c, fixes, some (careWord t.miss (c.winners table a))) := by
  have hnone : (c.winners table a).filter (falseHit t a) = [] := by simpa [List.filter_eq_nil_iff] using hgood
  cases fuel <;> simp [careLookup, hnone]

/-- The word that CML gives a row (R294). -/
def Exu.cmlWord (x : Exu) (w : XFields) (a : Nat) : Nat := careWord (x.ctx.cares.getD w.imm.toNat {}).miss (x.cmt.winners w.imm.toNat a)

/-- Every hit of the rows that execute and are valid is as its copy says. -/
def Exu.cmlGood (x : Exu) (w : XFields) : Prop :=
  ∀ j, j < 128 → x.runs w j = true → x.valid w.a.toNat j = true →
    ∀ k ∈ x.cmt.winners w.imm.toNat (x.lane w.xty w.a.toNat j), falseHit (x.ctx.cares.getD w.imm.toNat {}) (x.lane w.xty w.a.toNat j) k = false

/-- The lookups of the lanes below n: the table is as it was, and each row that executes and is valid has its word. -/
theorem cmlLanes_good {x : Exu} {w : XFields} (hgood : x.cmlGood w) {n : Nat} (hn : n ≤ 128) :
    ∃ l, cmlLanes x w (x.execMask w) n = (x.cmt, 0, l, false) ∧ (∀ p ∈ l, p.1 < n) ∧
      ∀ i, i < n → x.runs w i = true → x.valid w.a.toNat i = true →
        (l.find? (fun p => p.1 == i)).map (·.2) = some (x.cmlWord w (x.lane w.xty w.a.toNat i)) := by
  induction n with
  | zero => exact ⟨[], rfl, by simp, by simp⟩
  | succ n ih =>
    obtain ⟨l, hl, hlt, hword⟩ := ih (by omega)
    simp only [cmlLanes, hl]
    by_cases hx : ((x.execMask w).getLsbD n && x.valid w.a.toNat n) = true
    · have hpair : x.runs w n = true ∧ x.valid w.a.toNat n = true := by simpa [Exu.runs] using hx
      rw [if_pos hx, careLookup_good (hgood n (by omega) hpair.1 hpair.2)]
      refine ⟨(n, x.cmlWord w (x.lane w.xty w.a.toNat n)) :: l, rfl, ?_, fun i hi hr hv => ?_⟩
      · intro p hp
        rcases List.mem_cons.1 hp with rfl | hp
        · exact Nat.lt_succ_self n
        · exact Nat.lt_succ_of_lt (hlt p hp)
      · by_cases hin : n = i
        · subst hin; simp
        · rw [List.find?_cons_of_neg (by simpa using hin)]
          exact hword i (by omega) hr hv
    · rw [if_neg hx]
      refine ⟨l, rfl, fun p hp => Nat.lt_succ_of_lt (hlt p hp), fun i hi hr hv => hword i ?_ hr hv⟩
      rcases Nat.lt_succ_iff_lt_or_eq.1 hi with hlt | rfl
      · exact hlt
      · exact absurd (by simpa [Exu.runs] using ⟨hr, hv⟩) hx

/-- The group that CML writes where every hit is as its copy says: a row that executes has its winners' word, or is null. -/
theorem opCml_good {x : Exu} {w : XFields} (hgood : x.cmlGood w) :
    ∃ g, opCml x w = { x.vec w .u64 w.d.toNat {} g with cmt := x.cmt } ∧
      ∀ i, i < 128 → x.runs w i = true → g i = x.one w w.xty i (fun a => .ok (x.cmlWord w a)) := by
  obtain ⟨l, hl, -, hword⟩ := cmlLanes_good hgood (le_refl 128)
  refine ⟨fun i => if x.valid w.a.toNat i then .ok (((l.find? (fun p => p.1 == i)).map (·.2)).getD 0) else .null, ?_, fun i hi hr => ?_⟩
  · simp only [opCml, hl]
    rfl
  · unfold Exu.one
    cases hv : x.valid w.a.toNat i with
    | false => simp only [hv]; rfl
    | true => simp only [hv, hword i hi hr hv]; rfl

section
variable {s : State} {h : Nat} {w : XFields} {i : Nat}

/-- The lookups of CML where every hit is as its copy says. -/
theorem lane_of_cml (hi : s.dev.issues h .cml w) (h128 : i < 128) (hgood : (s.dev.hearth h).exu.cmlGood w) :
    let x := (s.dev.hearth h).exu
    Lane (.xCml h w none) h w s .u64 i (x.one w w.xty i (fun a => .ok (x.cmlWord w a))) := by
  intro x
  obtain ⟨hp, hu, _⟩ := Dev.issues_unit hi
  obtain ⟨g, hg, hrow⟩ := @opCml_good (x.found (s.dev.narrowOnly h) .cml) w hgood
  have hdone : x.done (s.dev.narrowOnly h) .cml w =
      Exu.step { (x.found (s.dev.narrowOnly h) .cml).vec w .u64 w.d.toNat {} g with cmt := x.cmt } := by
    rw [Exu.done_found, Exu.retire_of_writes_group _ .cml w rfl]
    · change (opCml _ w).step = _
      rw [hg]; rfl
    · change (opCml _ w).unres = false
      rw [hg]; exact hu
  refine retires_of _ s h .cml w _ hi rfl (by rw [hdone]; exact hu) (by rw [hdone]; rfl) ?_
  rw [hdone]
  obtain ⟨hwrote, hmarked, hkeeps, -, -⟩ := (x.found (s.dev.narrowOnly h) .cml).vec_spec w .u64 w.d.toNat {} g i h128 _ rfl
  refine ⟨Exu.wrote_of_runs hwrote (hrow i h128), ?_, hkeeps, ?_⟩
  · exact Exu.marked_congr _ _ _ _ _ _ (Exu.marked_of_runs hmarked (hrow i h128)) rfl rfl rfl
  · simp only [Exu.moved, hp]
    rfl

/-- The unit after a lookup whose false hit stays: it keeps its registers and marks, and its attempt is lost (R300). -/
theorem opCml_lost {x : Exu} (hbad : (cmlLanes x w (x.execMask w) 128).2.2.2 = true) :
    ∃ c n, opCml x w = { x with cmt := c, fixes := n, unres := true } := by
  unfold opCml
  rw [if_pos hbad]
  exact ⟨_, _, rfl⟩

/-- Lookups do not read what a wake of the wide unit changes. -/
theorem cmlLanes_found (x : Exu) (no : Bool) (op : XOp) (ex : Mask) (n : Nat) : cmlLanes (x.found no op) w ex n = cmlLanes x w ex n := by
  induction n with
  | zero => rfl
  | succ n ih => simp only [cmlLanes, ih]; rfl

/-- What a lost attempt without a fault record adds to its hearth's count. -/
theorem Dev.exuEvents_unres (d : Dev) (h : Nat) (x : Exu) {e : XEv} (rpe fixes : Nat) (he : e.frec = none) :
    (d.exuEvents h x e rpe fixes).regN (0x02100000 + 0x1000 * h + 0x24) = satAdd 32 (d.regN (0x02100000 + 0x1000 * h + 0x24)) e.unres := by
  unfold Dev.exuEvents
  simp only [he]
  rw [Dev.regN_bump_ne _ _ _ _ (by omega), Dev.regN_count64_ne _ _ _ _ (by omega) (by omega), Dev.regN_bump_self,
    Dev.regN_bump_ne _ _ _ _ (by omega), Dev.regN_bump_ne _ _ _ _ (by omega), Dev.regN_count64_ne _ _ _ _ (by omega) (by omega),
    Dev.regN_count64_ne _ _ _ _ (by omega) (by omega)]

/-- An instruction without a fault from outside: its execution, and what that begins (R588). -/
theorem gives_of_unit {op : XOp} (hi : s.dev.issues h op w) {P : Dev → Prop}
    (hq : (((s.dev.xRun h op w none).hearthFault s.dev h).hearth h).quenched = (s.dev.hearth h).quenched)
    (hP : P ((s.dev.xRun h op w none).hearthFault s.dev h)) : Gives (op.cmd h w none) s P := by
  obtain ⟨hp, hu, hh⟩ := Dev.issues_unit hi
  have hc : s.dev.xCmd h op w none = s.dev.xRun h op w none := by
    have hlt : ¬ hearthCount ≤ h := Nat.not_le.2 hh
    simp [Dev.xCmd, Dev.xIssue, Dev.memFault, Dev.spmUe, hp, hu, hlt]
  refine ⟨_, ?_, hP⟩
  rw [exec_cmd]
  unfold State.unit Dev.onHearth Dev.ifQuenched
  simp only [hi.1, if_true, hc]
  rw [if_neg (by rw [hq]; cases (s.dev.hearth h).quenched <;> simp)]

/-- CML with a false hit that stays: the attempt is lost to the hearth's recovery domain (R300, R588). -/
theorem gives_of_cml_lost (hi : s.dev.issues h .cml w)
    (hbad : (cmlLanes (s.dev.hearth h).exu w ((s.dev.hearth h).exu.execMask w) 128).2.2.2 = true) (hr : s.dev.recovers 1 h = false)
    (hn : (recent s.dev.opSec (s.dev.hearth h).unresAt).length < 2) :
    Gives (.xCml h w none) s (fun d =>
      (d.hearth h).exu.unres = true ∧ (d.hearth h).exu.v = (s.dev.hearth h).exu.v ∧ (d.hearth h).exu.vld = (s.dev.hearth h).exu.vld ∧
      (d.hearth h).exu.err = (s.dev.hearth h).exu.err ∧ d.health.recovering = s.dev.health.recovering ++ [(1, h)] ∧
      d.regN (0x02100024 + 0x1000 * h) = satAdd 32 (s.dev.regN (0x02100024 + 0x1000 * h)) 1) := by
  obtain ⟨hp, hu, hh⟩ := Dev.issues_unit hi
  obtain ⟨c, n, hc⟩ := @opCml_lost w ((s.dev.hearth h).exu.found (s.dev.narrowOnly h) .cml) ((congrArg (·.2.2.2) (cmlLanes_found ..)).trans hbad)
  have hdone : (s.dev.hearth h).exu.done (s.dev.narrowOnly h) .cml w =
      { (s.dev.hearth h).exu.found (s.dev.narrowOnly h) .cml with cmt := c, fixes := n, unres := true } := by
    rw [Exu.done_found]
    change (if (opCml _ w).unres then opCml _ w else _) = _
    rw [hc, if_pos rfl]
  have hrun : s.dev.xRun h .cml w none = (s.dev.hearthUpd h (fun k => { k with
      exu := { (s.dev.hearth h).exu.done (s.dev.narrowOnly h) .cml w with rpe := 0, fixes := 0 }
      unresAt := recent s.dev.opSec k.unresAt ++ [s.dev.opSec] })).exuEvents h (s.dev.hearth h).exu
        { unres := 1, wakes := ((s.dev.hearth h).exu.issue (s.dev.narrowOnly h) .cml).2.wakes }
        ((s.dev.hearth h).exu.done (s.dev.narrowOnly h) .cml w).rpe ((s.dev.hearth h).exu.done (s.dev.narrowOnly h) .cml w).fixes := by
    unfold Dev.xRun
    have hx : (s.dev.hearth h).exu.execute (s.dev.narrowOnly h) .cml w none = ((s.dev.hearth h).exu.done (s.dev.narrowOnly h) .cml w,
        { unres := 1, wakes := ((s.dev.hearth h).exu.issue (s.dev.narrowOnly h) .cml).2.wakes }) :=
      if_pos (by change ((s.dev.hearth h).exu.done (s.dev.narrowOnly h) .cml w).unres = true; rw [hdone])
    simp only [hx]
    rfl
  have hexu : (s.dev.xRun h .cml w none).hearth h = { s.dev.hearth h with
      exu := { (s.dev.hearth h).exu.done (s.dev.narrowOnly h) .cml w with rpe := 0, fixes := 0 }
      unresAt := recent s.dev.opSec (s.dev.hearth h).unresAt ++ [s.dev.opSec] } := by
    rw [hrun, Dev.exuEvents_hearth, Dev.hearth_hearthUpd]
  have hhealth : (s.dev.xRun h .cml w none).health = s.dev.health := by
    rw [hrun]; exact Dev.exuEvents_keep Dev.health (fun _ _ _ => rfl) (fun _ _ => rfl) ..
  have hsec : (s.dev.xRun h .cml w none).opSec = s.dev.opSec := by rw [hrun]; exact Dev.exuEvents_opSec ..
  have hreg : (s.dev.xRun h .cml w none).regN (0x02100024 + 0x1000 * h) = satAdd 32 (s.dev.regN (0x02100024 + 0x1000 * h)) 1 := by
    rw [show 0x02100024 + 0x1000 * h = 0x02100000 + 0x1000 * h + 0x24 by omega, hrun]
    exact Dev.exuEvents_unres _ _ _ _ _ rfl
  have hf := Dev.hearthFault_lost (d := s.dev.xRun h .cml w none) hr (h := h) (by rw [hexu, hdone]) hu (by rw [hexu, hsec, recent_append_self]; omega)
  obtain ⟨r1, r2, r3⟩ := Dev.recover_spec (d := s.dev.xRun h .cml w none) (c := 1) (u := h) (by rw [Dev.recovers, hhealth]; exact hr)
  refine gives_of_unit hi ?_ ?_ <;> rw [hf]
  · rw [r1, hexu]
  · rw [r1, r2, r3, hexu, hhealth, hreg, hdone]
    exact ⟨rfl, rfl, rfl, rfl, rfl, rfl⟩

end

/-- Settles O53: the tests into a mask are uses of `row_of_cmpRow`, SSUB and RPX of `laneStr_of`, SFIND and SLEN of `lane_of_vec`; a lookup is
`lane_of_cml` or, where a false hit stays, `gives_of_cml_lost`. -/
theorem stringsAndPatterns : Obligations.StringsAndPatterns := by
  unfold Obligations.StringsAndPatterns
  refine ⟨fun s h w i hi h128 => ?scmp, fun s h w i hi h128 => ?spre, fun s h w i hi h128 => ?ssuf,
    fun s h w i hi h128 => ⟨findPlace ((s.dev.hearth h).exu.str w.b.toNat i) ((s.dev.hearth h).exu.str w.a.toNat i), ?sfind, findPlace_spec _ _⟩,
    fun s h w i hi h128 => ?slen, fun s h w i hi h128 hheap => ?ssub, fun s h w i hi h128 => ?rpm, fun s h w i hi h128 hheap => ?rpx,
    fun s h w i hi h128 hgood => lane_of_cml hi h128 hgood, fun s h w hi hbad hr hn => gives_of_cml_lost hi hbad hr hn⟩
  case scmp =>
    exact row_of_test hi h128 rfl (fun x i => x.valid w.a.toNat i && x.valid w.b.toNat i)
      (fun x i => cmpOp w.mod.toNat (some (cmpBytes (x.str w.a.toNat i) (x.str w.b.toNat i)))) (fun x => (opScmp x w).rpe) (fun _ => rfl) rfl rfl
  case spre =>
    simp only [← isPrefix_eq]
    exact row_of_test hi h128 rfl (fun x i => x.valid w.a.toNat i && x.valid w.b.toNat i)
      (fun x i => isPrefix (x.str w.b.toNat i) (x.str w.a.toNat i)) (fun x => (opSpre x w).rpe) (fun _ => rfl) rfl rfl
  case ssuf =>
    simp only [← isPrefix_reverse]
    exact row_of_test hi h128 rfl (fun x i => x.valid w.a.toNat i && x.valid w.b.toNat i)
      (fun x i => isPrefix (x.str w.b.toNat i).reverse (x.str w.a.toNat i).reverse) (fun x => (opSsuf x w).rpe) (fun _ => rfl) rfl rfl
  case sfind =>
    simp only [← Bool.and_eq_true]
    exact lane_of_vec hi h128 rfl (fun x i => if x.valid w.a.toNat i && x.valid w.b.toNat i then
      .ok (XTy.i32.ofInt (findPlace (x.str w.b.toNat i) (x.str w.a.toNat i))) else {}) (fun _ => rfl) rfl
  case slen =>
    exact lane_of_vec hi h128 rfl (fun x i => if x.valid w.a.toNat i then .ok (XTy.i32.ofInt (x.str w.a.toNat i).length) else {}) (fun _ => rfl) rfl
  case ssub =>
    exact laneStr_of hi h128 rfl hheap (fun x => x.substring w) (fun x => (opStrSsub x w).rpe)
      (fun x => by change opStrSsub x w = _; rw [← opStrSsub_eq]) rfl
  case rpm =>
    exact row_of_test hi h128 rfl (fun x => x.valid w.a.toNat)
      (fun x i => (runAutomaton (x.ctx.autos.getD w.imm.toNat {}) (x.str w.a.toNat i)).1.isSome) (fun x => (opRpm x w).rpe) (fun _ => rfl) rfl rfl
  case rpx =>
    exact laneStr_of hi h128 rfl hheap (fun x => x.matched w) (fun x => x.rpe + rpBytes x w) (fun x => opRpx_eq x w) rfl

end Sys2Proof.Machine

/-!
PROOF. Delay lists (R322 to R326): what firing, insertion and removal leave of the lists, and the statement assembled from them.
-/
namespace Sys2Proof.Machine

/-! ### What the decision trace keeps -/

@[simp] theorem Dev.tracePut_delays (d : Dev) (r : TRec) : (d.tracePut r).1.qry.delays = d.qry.delays := by
  unfold Dev.tracePut; dsimp only; split_ifs <;> simp

@[simp] theorem Dev.trace_delays (d : Dev) (r : TRec) : (d.trace r).qry.delays = d.qry.delays := by
  unfold Dev.trace; dsimp only
  split_ifs with _ _ h2
  · rfl
  · exact (Dev.tracePut_delays _ _).trans (Dev.tracePut_delays d { kind := 0x0E, c := d.qry.trace.lost })
  · simp
  · simp

/-- The trace counts and points in its own registers only (R330). -/
theorem Dev.tracePut_reg (d : Dev) (r : TRec) {a : Nat} (h : a < 0x02400058 ∨ 0x0240006C ≤ a) : (d.tracePut r).1.reg a = d.reg a := by
  unfold Dev.tracePut; dsimp only
  split_ifs
  · exact Dev.reg_bump_ne _ _ _ _ (by omega)
  · unfold Dev.setReg64
    rw [Dev.reg_setReg_at, if_neg (by omega), Dev.reg_setReg_at, if_neg (by omega)]
    rfl
  · unfold Dev.setReg64
    rw [Dev.reg_setReg_at, if_neg (by omega), Dev.reg_setReg_at, if_neg (by omega)]
    rfl

theorem Dev.trace_reg (d : Dev) (r : TRec) {a : Nat} (h : a < 0x02400058 ∨ 0x0240006C ≤ a) : (d.trace r).reg a = d.reg a := by
  unfold Dev.trace; dsimp only
  split_ifs with _ _ h2
  · rfl
  · exact (Dev.tracePut_reg _ _ h).trans (Dev.tracePut_reg d { kind := 0x0E, c := d.qry.trace.lost } h)
  · exact Dev.tracePut_reg _ _ h
  · exact Dev.tracePut_reg _ _ h

theorem Dev.trace_nowTick (d : Dev) (r : TRec) : (d.trace r).nowTick = d.nowTick := by
  change max (d.trace r).qry.core.tick ((d.trace r).timeUs / 10) = max d.qry.core.tick (d.timeUs / 10)
  simp

/-! ### What the lists hold -/

theorem Dev.delay_full (d : Dev) {l : Nat} (hl : 4096 ≤ d.delayCount l) (ticks tag : Nat) :
    (d.delay l ticks tag).qry.delays =
      d.qry.delays ++ [⟨l, min ticks delayHorizon, tag, ticks - min ticks delayHorizon, some d.nowTick⟩] ∧
      (d.delay l ticks tag).regN 0x02400090 = satAdd 32 (d.regN 0x02400090) 1 := by
  unfold Dev.delay
  simp only [if_pos hl]
  refine ⟨by simp, (Dev.regN_congr (Dev.trace_reg _ _ (by omega))).trans (Dev.regN_bump_self _ _ _)⟩

/-- An insertion adds one entry of its list. -/
theorem Dev.delay_delays (d : Dev) (l ticks tag : Nat) : ∃ y : Delay, y.list = l ∧ (d.delay l ticks tag).qry.delays = d.qry.delays ++ [y] := by
  unfold Dev.delay
  split
  · exact ⟨⟨l, min ticks delayHorizon, tag, ticks - min ticks delayHorizon, some d.nowTick⟩, rfl, by simp⟩
  · exact ⟨_, rfl, rfl⟩

/-- An entry that stands after room was made stood before, under its list and tag. -/
theorem mem_roomMade {l tick : Nat} {es : List Delay} {y : Delay} (hy : y ∈ (roomMade l tick es).1) :
    ∃ e ∈ es, e.list = y.list ∧ e.tag = y.tag := by
  unfold roomMade at hy
  rcases List.mem_append.1 hy with hy | hy
  · rw [← List.diff_eq_foldl] at hy
    exact ⟨y, List.diff_subset _ _ hy, rfl, rfl⟩
  · obtain ⟨e, he, rfl⟩ := List.mem_map.1 hy
    exact ⟨e, (List.mem_filter.1 (List.mem_of_mem_take he)).1, rfl, rfl⟩

theorem Dev.setDelays_delays (d : Dev) (l : Nat) (es : List Delay) : (d.setDelays l es).qry.delays = (roomMade l d.nowTick es).1 := by
  simp [Dev.setDelays]

/-- The removal of a tag removes every entry of it. -/
theorem Dev.undelay_absent (d : Dev) (l tag : Nat) : ∀ y ∈ (d.undelay l tag).qry.delays, ¬ (y.list = l ∧ y.tag = tag) := by
  intro y hy ⟨hl, ht⟩
  rw [Dev.undelay, Dev.setDelays_delays] at hy
  obtain ⟨e, he, h1, h2⟩ := mem_roomMade hy
  have := (List.mem_filter.1 he).2
  simp [h1, h2, hl, ht] at this

/-- What no entry of a list is stays so under a removal and under an insertion elsewhere. -/
theorem Dev.undelay_keeps_absent {d : Dev} {l tag : Nat} (ha : ∀ y ∈ d.qry.delays, ¬ (y.list = l ∧ y.tag = tag)) (k n : Nat) :
    ∀ y ∈ (d.undelay k n).qry.delays, ¬ (y.list = l ∧ y.tag = tag) := by
  intro y hy
  rw [Dev.undelay, Dev.setDelays_delays] at hy
  obtain ⟨e, he, h1, h2⟩ := mem_roomMade hy
  rw [← h1, ← h2]
  exact ha e (List.mem_filter.1 he).1

theorem Dev.delay_keeps_absent {d : Dev} {l tag : Nat} (ha : ∀ y ∈ d.qry.delays, ¬ (y.list = l ∧ y.tag = tag)) {k : Nat} (hk : k ≠ l) (ticks n : Nat) :
    ∀ y ∈ (d.delay k ticks n).qry.delays, ¬ (y.list = l ∧ y.tag = tag) := by
  obtain ⟨z, hz, hd⟩ := d.delay_delays k ticks n
  rw [hd]
  intro y hy
  rcases List.mem_append.1 hy with hy | hy
  · exact ha y hy
  · rw [List.mem_singleton.1 hy, hz]
    exact fun h => hk h.1

/-- A full list from which one entry went takes the one that waits, at the next tick (R326). -/
theorem roomMade_one {l tick k : Nat} {es : List Delay} {w : Delay} (hn : (es.filter (·.list == l)).length < 4096)
    (ht : ∀ y ∈ es, y.list = l → y.tried = none) (hl : w.list = l) (hw : w.tried = some k) :
    (roomMade l tick (es ++ [w])).1 = es ++ [{ w with due := tick + 1 + w.due, tried := none }] := by
  have hwait : es.filter (fun e => e.list == l && e.tried.isSome) = [] := by
    rw [List.filter_eq_nil_iff]
    intro y hy
    by_cases h : y.list = l
    · simp [ht y hy h]
    · simp [h]
  have hcount : (es.filter (fun e => e.list == l && e.tried.isNone)).length < 4096 := by
    rwa [List.filter_congr (q := (·.list == l)) fun y hy => ?_]
    by_cases h : y.list = l
    · simp [ht y hy h]
    · simp [h]
  have hmem : w ∉ es := fun h => by rw [ht w h hl] at hw; cases hw
  have htake : ∀ n, 0 < n → [w].take n = [w] := fun n hn => List.take_of_length_le hn
  unfold roomMade
  simp only [List.filter_append, hwait, List.filter_cons, List.filter_nil, hl, hw, List.nil_append, beq_self_eq_true, Option.isSome_some,
    Option.isNone_some, Bool.and_self, Bool.and_false, if_true, Bool.false_eq_true, if_false, List.append_nil]
  rw [htake _ (by omega)]
  simp [List.erase_append_right _ hmem, hl]

/-! ### Firing -/

section
variable (d : Dev) {l : Nat} {e : Delay}

theorem Dev.fireDelay_due (hn : d.nextDelay l = some e) (hd : e.due ≤ d.timeUs / 10) (hr : e.rest = 0) :
    (d.fireDelay l (d.timeUs / 10)).qry.delays = (roomMade l d.nowTick (d.qry.delays.erase e)).1 := by
  unfold Dev.fireDelay
  simp only [hn, if_neg (Nat.not_lt.2 hd), if_pos hr]
  rw [Dev.trace_delays, Dev.setDelays_delays]
  simp [Dev.nowTick]

theorem Dev.fireDelay_again (hn : d.nextDelay l = some e) (hd : e.due ≤ d.timeUs / 10) (hr : e.rest ≠ 0) :
    (d.fireDelay l (d.timeUs / 10)).qry.delays = (roomMade l d.nowTick (d.qry.delays.erase e)).1 ++
      [⟨l, e.due + min e.rest delayHorizon, e.tag, e.rest - min e.rest delayHorizon, none⟩] := by
  unfold Dev.fireDelay
  simp only [hn, if_neg (Nat.not_lt.2 hd), if_neg hr]
  rw [Dev.setDelays_delays]
  simp [Dev.nowTick]

theorem Dev.fireDelay_store (l tick : Nat) : (d.fireDelay l tick).store = d.store := by
  unfold Dev.fireDelay
  split
  · rfl
  · split
    · rfl
    · simp only
      split <;> simp [Dev.setDelays]

theorem Dev.delayFire_again (hn : d.nextDelay l = some e) (hd : e.due ≤ d.timeUs / 10) (hr : e.rest ≠ 0) (v : Option Nat) :
    d.delayFire l v = (d.fireDelay l (d.timeUs / 10)).at (10 * (d.timeUs / 10) + 9) := by
  simp only [Dev.delayFire, hn, if_neg (Nat.not_lt.2 hd), if_pos hr]

theorem Dev.delayFire_short (hn : d.nextDelay 0 = some e) (hd : e.due ≤ d.timeUs / 10) (hr : e.rest = 0) (v : Option Nat) :
    d.delayFire 0 v = ((d.fireDelay 0 (d.timeUs / 10)).at (10 * (d.timeUs / 10) + 9)).shortReadRetry e.tag := by
  simp only [Dev.delayFire, hn, if_neg (Nat.not_lt.2 hd), if_neg (not_not.2 hr)]

theorem Dev.delayFire_other (hn : d.nextDelay 7 = some e) (hd : e.due ≤ d.timeUs / 10) (hr : e.rest = 0) (v : Option Nat) :
    d.delayFire 7 v = (d.fireDelay 7 (d.timeUs / 10)).at (10 * (d.timeUs / 10) + 9) := by
  simp only [Dev.delayFire, hn, if_neg (Nat.not_lt.2 hd), if_neg (not_not.2 hr)]

theorem Dev.delayFire_early (hn : d.nextDelay l = some e) (hd : d.timeUs / 10 < e.due) (v : Option Nat) : d.delayFire l v = d := by
  simp only [Dev.delayFire, hn, if_pos hd]

end

theorem find?_updWhere {α : Type} (p : α → Bool) (f : α → α) (hp : ∀ a, p a = true → p (f a) = true) (l : List α) :
    (updWhere p f l).find? p = (l.find? p).map f := by
  induction l with
  | nil => rfl
  | cons a l ih =>
    change ((if p a then f a else a) :: updWhere p f l).find? p = _
    cases ha : p a with
    | true => rw [if_pos rfl, List.find?_cons_of_pos (hp a ha), List.find?_cons_of_pos ha]; rfl
    | false =>
      have hn : ¬ p a = true := by simp [ha]
      rw [if_neg (by simp), List.find?_cons_of_neg hn, List.find?_cons_of_neg hn, ih]

/-- A drive command changed, its number kept. -/
theorem Dev.dcmd_dcmdUpd (d : Dev) (n : Nat) (f : DCmd → DCmd) (hf : ∀ c, (f c).id = c.id) : (d.dcmdUpd n f).dcmd n = (d.dcmd n).map f :=
  find?_updWhere _ f (fun c hc => by rw [hf]; exact hc) _

theorem Dev.dcmd_of_store {d e : Dev} (h : d.store = e.store) (n : Nat) : d.dcmd n = e.dcmd n := by rw [Dev.dcmd, h, Dev.dcmd]

/-- A short read that waits is tried again, and its delay is off the list (R421). -/
theorem Dev.shortReadRetry_spec {d : Dev} {n : Nat} {k : DCmd} (hk : d.dcmd n = some k) (hw : k.waiting = true)
    (hu : (d.drive k.drive).waking = false) :
    ((d.shortReadRetry n).dcmd n).map (·.waiting) = some false ∧ .drive n ∈ (d.shortReadRetry n).out ∧
      ∀ y ∈ (d.shortReadRetry n).qry.delays, ¬ (y.list = 0 ∧ y.tag = n) := by
  have hid : k.id = n := by simpa using List.find?_some hk
  have hnot : (k.use != .power && ((d.undelay 0 n).drive k.drive).waking) = false := by
    rw [show (d.undelay 0 n).drive k.drive = d.drive k.drive by simp [Dev.drive], hu, Bool.and_false]
  have hretry : d.shortReadRetry n = (((d.undelay 0 n).undelay 1 k.id).dcmdUpd k.id (fun c =>
      { c with waiting := false, issued := (d.undelay 0 n).timeUs, held := false })).putCmd k.id k.use := by
    simp only [Dev.shortReadRetry, hk, hw, if_true, Dev.resend, hnot, Bool.false_eq_true, if_false]
  rw [hretry, hid]
  have hdcmd : ((d.undelay 0 n).undelay 1 n).dcmd n = some k := by rw [← hk]; exact Dev.dcmd_of_store (by simp) n
  have habs := Dev.undelay_keeps_absent (d.undelay_absent 0 n) 1 n
  generalize (d.undelay 0 n).undelay 1 n = d2 at hdcmd habs ⊢
  generalize he : d2.dcmdUpd n _ = e
  have hwait : (e.dcmd n).map (·.waiting) = some false := by
    rw [← he]
    refine (congrArg (Option.map (·.waiting)) (Dev.dcmd_dcmdUpd d2 n _ ?_)).trans ?_
    · exact fun _ => rfl
    · rw [hdcmd]; rfl
  have hdelays : e.qry.delays = d2.qry.delays := by rw [← he]; rfl
  rw [← hdelays] at habs
  refine ⟨?_, List.mem_append_right _ (List.mem_singleton.2 rfl), Dev.delay_keeps_absent habs (by decide) _ _⟩
  rw [← hwait]
  exact congrArg (Option.map (·.waiting)) (Dev.dcmd_of_store (Dev.delay_store ..) n)

theorem exec_delayFire (s : State) (t l : Nat) (v : Option Nat) :
    exec (.delayFire t l v) s = .next (s.run t (fun d => (d.delayFire l v).tidy)) := rfl

theorem exec_delayFull (s : State) (t l ticks tag : Nat) :
    exec (.delayFull t l ticks tag) s = .next (s.run t (fun d => d.delayFull l ticks tag)) := rfl

/-- Settles O14: an entry that is due leaves its list by `fireDelay_due` or `fireDelay_again`; what waits enters by `roomMade_one`. -/
theorem delayLists : Obligations.DelayLists := by
  unfold Obligations.DelayLists
  refine ⟨fun s t l v e hn hd hr => effects_run (exec_delayFire ..) ?again, fun s t v e k hn hd hr hk hw hu => effects_run (exec_delayFire ..) ?retry,
    fun s t l v e hn hd => effects_run (exec_delayFire ..) ?early, fun s t l ticks tag hl => gives_run (exec_delayFull ..) ?full,
    fun s t v e es w k hn hd hr he hc ht hl hw => effects_run (exec_delayFire ..) ?room⟩
  case again =>
    rw [Dev.delayFire_again (s.dev.at t) hn hd hr]
    exact Dev.fireDelay_again (s.dev.at t) hn hd hr
  case retry =>
    rw [Dev.delayFire_short (s.dev.at t) hn hd hr]
    have hstore : (((s.dev.at t).fireDelay 0 ((s.dev.at t).timeUs / 10)).at (10 * ((s.dev.at t).timeUs / 10) + 9)).store = s.dev.store :=
      Dev.fireDelay_store ..
    refine Dev.shortReadRetry_spec (k := k) ?_ hw ?_
    · rw [Dev.dcmd, hstore]; exact hk
    · rw [Dev.drive, hstore]; exact hu
  case early => exact Dev.delayFire_early (s.dev.at t) hn hd v
  case full =>
    have hfull : (s.dev.at t).delayFull l ticks tag = (s.dev.at t).delay l ticks tag := if_pos hl
    rw [hfull]
    exact Dev.delay_full (s.dev.at t) hl ticks tag
  case room =>
    rw [Dev.delayFire_other (s.dev.at t) hn hd hr]
    refine (Dev.fireDelay_due (s.dev.at t) hn hd hr).trans ?_
    change (roomMade 7 _ (s.dev.qry.delays.erase e)).1 = _
    rw [he, roomMade_one hc ht hl hw, hl]

end Sys2Proof.Machine

/-!
PROOF. Compare-and-write registers of one word (R467): one lemma for a write that takes effect and one for a write that does not.
-/
namespace Sys2Proof.Machine

theorem Dev.regRead_lt (d : Dev) (a : Nat) : d.regRead a < 2 ^ 32 := by
  unfold Dev.regRead
  split
  · decide
  · split
    · exact Nat.mod_lt _ (by decide)
    · exact d.regN_lt a

/-- What a write of a word under a mask makes of a register (R467). -/
def cwPut (b mask old value : Nat) : Nat :=
  old - old.land ((mask % 2 ^ 32).land (cwMask b % 2 ^ 32)) + (value % 2 ^ 32).land ((mask % 2 ^ 32).land (cwMask b % 2 ^ 32))

/-- A word that is a compare-and-write register of its own, outside the registers of the keys. -/
structure CwWord (a : Nat) (r : RegRow) : Prop where
  row : regRow a = some r
  acc : r.acc = .cw
  words : r.words = 1
  start : r.start a = a
  align : a % 4 = 0
  open_ : ¬ (0x02E00000 ≤ a ∧ a < 0x02F00000 ∧ a ≠ 0x02E0000C ∧ a ≠ 0x02E00010)

section
variable (d : Dev) {a : Nat} {r : RegRow} (hr : CwWord a r) (x mask value expected count : Nat)
include hr

/-- The access of R467 to such a register, its parts named. -/
theorem Dev.regWrite_cw :
    d.regWrite x a 4 mask value expected count =
      let old := d.regRead a
      let new := cwPut r.base mask old value
      if !cwOk r.base new then (.refused 0x2001 5, d)
      else match d.cwRefuse x r.base a old new with
        | some p => (.refused p.1 p.2, d)
        | none =>
          if old = expected % 2 ^ 32 ∧ d.writeCount a = count ∧ d.cwVeto r.base old new = false then
            let d1 : Dev := { d.setReg a (BitVec.ofNat 32 new) with
              cwCount := tabSet 0 d.cwCount a ((d.writeCount a + 1) % 65536), cwFailed := d.cwFailed.filter (· != cwKey x a) }
            let d2 := d1.regEffect r.base a old new
            (.done (d2.regRead a % 2 ^ 32) ((d.writeCount a + 1) % 65536), d2)
          else (.failed old (d.writeCount a),
            { d with cwFailed := if d.cwFailed.contains (cwKey x a) then d.cwFailed else d.cwFailed ++ [cwKey x a] }) := by
  obtain ⟨hrow, hacc, hwords, hstart, halign, hopen⟩ := hr
  have hlt : d.regRead a % 2 ^ 32 = d.regRead a := Nat.mod_eq_of_lt (d.regRead_lt a)
  unfold Dev.regWrite
  rw [if_neg (by simp [halign]), if_neg hopen]
  have h48 : ¬ (4 : Nat) = 8 := by decide
  have h12 : ¬ (1 : Nat) = 2 := by decide
  simp only [hrow, hstart, hwords, hacc, Dev.regValue, Dev.setRegValue, if_true, if_false, h48, h12, false_and, Nat.pow_zero, Nat.div_one, Nat.mul_one,
    hlt, Nat.sub_self, Nat.zero_add, cwPut]
  rfl

/-- A value and a count as expected: the register takes the new value, and one more write is counted. -/
theorem Dev.regWrite_cw_done (hok : cwOk r.base (cwPut r.base mask (d.regRead a) value) = true)
    (href : d.cwRefuse x r.base a (d.regRead a) (cwPut r.base mask (d.regRead a) value) = none)
    (hveto : d.cwVeto r.base (d.regRead a) (cwPut r.base mask (d.regRead a) value) = false)
    (hexp : d.regRead a = expected % 2 ^ 32) (hcount : d.writeCount a = count) :
    d.regWrite x a 4 mask value expected count =
      let d2 := Dev.regEffect { d.setReg a (BitVec.ofNat 32 (cwPut r.base mask (d.regRead a) value)) with
        cwCount := tabSet 0 d.cwCount a ((d.writeCount a + 1) % 65536), cwFailed := d.cwFailed.filter (· != cwKey x a) }
        r.base a (d.regRead a) (cwPut r.base mask (d.regRead a) value)
      (.done (d2.regRead a % 2 ^ 32) ((d.writeCount a + 1) % 65536), d2) := by
  rw [d.regWrite_cw hr]
  simp only [hok, href, Bool.not_true, Bool.false_eq_true, if_false]
  rw [if_pos ⟨hexp, hcount, hveto⟩]

/-- Another value or count: no register changes, and the failure is noted. -/
theorem Dev.regWrite_cw_failed (hok : cwOk r.base (cwPut r.base mask (d.regRead a) value) = true)
    (href : d.cwRefuse x r.base a (d.regRead a) (cwPut r.base mask (d.regRead a) value) = none)
    (hne : d.regRead a ≠ expected % 2 ^ 32 ∨ d.writeCount a ≠ count) :
    d.regWrite x a 4 mask value expected count = (.failed (d.regRead a) (d.writeCount a),
      { d with cwFailed := if d.cwFailed.contains (cwKey x a) then d.cwFailed else d.cwFailed ++ [cwKey x a] }) := by
  rw [d.regWrite_cw hr]
  simp only [hok, href, Bool.not_true, Bool.false_eq_true, if_false]
  rw [if_neg]
  rintro ⟨h1, h2, _⟩
  exact hne.elim (absurd h1) (absurd h2)

end

end Sys2Proof.Machine

/-!
PROOF. The decision trace and the shared engines (R101, R330, R406, R467, R587): a compare-and-write of TRACE_CTRL, what a job's end leaves of the
engines, the completion of a queue's last command, and the statement assembled from them.
-/
namespace Sys2Proof.Machine

/-! ### The last command of a queue completes -/

theorem Dev.retire_none {d : Dev} {x q cid : Nat} (hk : d.cmd x q cid = none) (c : Compl) : d.retire x q cid c = d := by
  simp only [Dev.retire, hk]

/-- A queue pair without commands is the same after any completion. -/
theorem Dev.retire_qp_empty {d : Dev} {x q : Nat} (ha : d.twin.alone = true) (he : (d.qp x q).cmds = []) (y p cid : Nat) (c : Compl) :
    (d.retire y p cid c).qp x q = d.qp x q := by
  cases hk : d.cmd y p cid with
  | none => rw [Dev.retire_none hk]
  | some k =>
    rw [Dev.retire_alone d ha hk]
    refine Dev.qp_qpUpd_ne d _ fun hkey => ?_
    have hsame : d.qp y p = d.qp x q := by rw [Dev.qp, ← hkey, Dev.qp]
    rw [Dev.cmd, hsame, he] at hk
    cases hk

theorem Dev.retire_still_alone {d : Dev} (ha : d.twin.alone = true) (x q cid : Nat) (c : Compl) : (d.retire x q cid c).twin.alone = true := by
  cases hk : d.cmd x q cid with
  | none => rwa [Dev.retire_none hk]
  | some k => rw [Dev.retire_alone d ha hk]; exact ha

/-- What the FLUSHes that wait do when a command completes leaves a queue pair without commands as it is. -/
theorem Dev.flushes_qp_empty {d : Dev} {x q : Nat} (ha : d.twin.alone = true) (he : (d.qp x q).cmds = []) (y : Nat) :
    (d.flushes y).twin.alone = true ∧ (d.flushes y).qp x q = d.qp x q := by
  have hstep : ∀ e : Dev, e.twin.alone = true ∧ e.qp x q = d.qp x q → ∀ p cid c,
      (e.retire y p cid c).twin.alone = true ∧ (e.retire y p cid c).qp x q = d.qp x q := fun e ⟨h1, h2⟩ p cid c =>
    ⟨Dev.retire_still_alone h1 y p cid c, (Dev.retire_qp_empty h1 (by rw [h2, he]) y p cid c).trans h2⟩
  unfold Dev.flushes
  refine List.foldlRecOn (motive := fun e : Dev => e.twin.alone = true ∧ e.qp x q = d.qp x q) _ _ ⟨ha, rfl⟩ fun e h p _ =>
    List.foldlRecOn (motive := fun e : Dev => e.twin.alone = true ∧ e.qp x q = d.qp x q) _ _ h fun e h c _ => ?_
  dsimp only
  split_ifs
  · exact hstep e h _ _ _
  · exact h

/-- A queue's only command completes: it leaves, and its completion is ready. -/
theorem Dev.complete_last {d : Dev} (ha : d.twin.alone = true) {x q : Nat} {k : Cmd} (hk : (d.qp x q).cmds = [k]) (c : Compl) :
    (d.complete x q k.cid c).qp x q = (d.qp x q).retired k.cid c := by
  have hcmd : d.cmd x q k.cid = some k := by rw [Dev.cmd, hk]; simp
  have hqp : (d.retire x q k.cid c).qp x q = (d.qp x q).retired k.cid c := by rw [Dev.retire_alone d ha hcmd, Dev.qp_qpUpd]
  have hempty : ((d.retire x q k.cid c).qp x q).cmds = [] := by rw [hqp]; simp [Qp.retired, hk]
  exact (Dev.flushes_qp_empty (Dev.retire_still_alone ha ..) hempty x).2.trans hqp

/-- What no update of a queue pair touches stays as it is when a command of a twin that runs alone completes. -/
theorem Dev.complete_keep_alone {α : Type} (P : Dev → α) (hq : ∀ d x q f, P (Dev.qpUpd d x q f) = P d) {d : Dev} (ha : d.twin.alone = true)
    (x q cid : Nat) (c : Compl) : P (d.complete x q cid c) = P d := by
  have hretire : ∀ e : Dev, e.twin.alone = true ∧ P e = P d → ∀ p n k,
      (e.retire x p n k).twin.alone = true ∧ P (e.retire x p n k) = P d := fun e ⟨h1, h2⟩ p n k => by
    refine ⟨Dev.retire_still_alone h1 .., ?_⟩
    cases hk : e.cmd x p n with
    | none => rw [Dev.retire_none hk, h2]
    | some z => rw [Dev.retire_alone e h1 hk, hq, h2]
  unfold Dev.complete Dev.flushes
  refine And.right (List.foldlRecOn (motive := fun e : Dev => e.twin.alone = true ∧ P e = P d) _ _ (hretire d ⟨ha, rfl⟩ q cid c) fun e h p _ =>
    List.foldlRecOn (motive := fun e : Dev => e.twin.alone = true ∧ P e = P d) _ _ h fun e h k _ => ?_)
  dsimp only
  split_ifs
  · exact hretire e h _ _ _
  · exact h

/-! ### A job leaves its engine -/

/-- Only the engines, and what waits for them, differ. -/
def Dev.engOnly (d e : Dev) : Prop :=
  e = { d with host := { d.host with digEng := e.host.digEng, compEng := e.host.compEng, waitDig := e.host.waitDig, waitComp := e.host.waitComp } }

theorem Dev.engOnly.trans {a b c : Dev} (h1 : a.engOnly b) (h2 : b.engOnly c) : a.engOnly c := by
  unfold Dev.engOnly at h1 h2 ⊢
  rw [h1] at h2
  exact h2

theorem Dev.setEngines_engOnly (d : Dev) (b : Bool) (l : List Engine) : d.engOnly (d.setEngines b l) := by
  unfold Dev.setEngines; split <;> rfl

theorem Dev.setEngWaiting_engOnly (d : Dev) (b : Bool) (l : List EngUser) : d.engOnly (d.setEngWaiting b l) := by
  unfold Dev.setEngWaiting; split <;> rfl

theorem Dev.engJoin_engOnly (d : Dev) (b : Bool) (u : EngUser) : d.engOnly (d.engJoin b u) := by
  unfold Dev.engJoin
  split
  · exact Dev.setEngines_engOnly ..
  · exact Dev.setEngWaiting_engOnly ..

/-- A user that leaves an engine, and the one that takes its place, change nothing else (R101). -/
theorem Dev.engLeave_engOnly (d : Dev) (b : Bool) (u : EngUser) : d.engOnly (d.engLeave b u) := by
  unfold Dev.engLeave
  extract_lets drop had d1
  have h1 : d.engOnly d1 := (Dev.setEngines_engOnly ..).trans (Dev.setEngWaiting_engOnly ..)
  split_ifs
  · exact h1
  · split
    · exact (h1.trans (Dev.setEngWaiting_engOnly ..)).trans (Dev.engJoin_engOnly ..)
    · exact h1

/-- A job that ends is gone. -/
theorem Dev.job_dropJob (d : Dev) (j : EngJob) : (d.dropJob j).job j.x j.q j.cid = none := by
  unfold Dev.dropJob Dev.job
  rw [Dev.engLeave_engOnly _ _ _, List.find?_eq_none]
  intro k hk
  have hout := (List.mem_filter.1 hk).2
  rwa [Bool.not_eq_true', ← Bool.not_eq_true] at hout

/-- What a job's end leaves: everything but the engines and the jobs. -/
theorem Dev.dropJob_engOnly (d : Dev) (j : EngJob) :
    Dev.engOnly { d with host := { d.host with engJobs := d.host.engJobs.filter (fun k => !(k.x == j.x && k.q == j.q && k.cid == j.cid)) } } (d.dropJob j) :=
  Dev.engLeave_engOnly ..

/-! ### A block ends -/

/-- The engine's turn passes from a user to the next holder. -/
def Dev.turn (d : Dev) (comp : Bool) (e : Nat) (u : EngUser) : Dev :=
  d.setEngines comp (updAt (d.engines comp) e (fun k => { k with now := k.after u }))

theorem Dev.turn_engOnly (d : Dev) (comp : Bool) (e : Nat) (u : EngUser) : d.engOnly (d.turn comp e u) := Dev.setEngines_engOnly ..

theorem Dev.engOnly.job {d e : Dev} (h : d.engOnly e) (x q cid : Nat) : e.job x q cid = d.job x q cid := by rw [h]; rfl

theorem Dev.job_jobUpd (d : Dev) (x q cid : Nat) (f : EngJob → EngJob) (hf : ∀ j, (f j).x = j.x ∧ (f j).q = j.q ∧ (f j).cid = j.cid) :
    (d.jobUpd x q cid f).job x q cid = (d.job x q cid).map f :=
  find?_updWhere _ f (fun j hj => by obtain ⟨h1, h2, h3⟩ := hf j; rw [h1, h2, h3]; exact hj) _

section
variable {d : Dev} {comp : Bool} {e : Nat} {en : Engine} {u : EngUser}

theorem Dev.engines_turn (he : (d.engines comp)[e]? = some en) : ((d.turn comp e u).engines comp)[e]? = some { en with now := en.after u } := by
  cases comp <;> exact (List.getElem?_modify_eq _ _ _).trans (congrArg (Option.map _) he)

/-- A charge's block: the next holder is served. -/
theorem Dev.engineBlock_charge (he : (d.engines comp)[e]? = some en) (hu : en.now = some u) (hc : u.isCharge = true) :
    d.engineBlock comp e = d.turn comp e u := by
  simp only [Dev.engineBlock, he, hu, hc, if_true]
  rfl

/-- A job's block: the next holder is served, and the job ends with its last. -/
theorem Dev.engineBlock_job (he : (d.engines comp)[e]? = some en) (hu : en.now = some u) (hc : u.isCharge = false) {j : EngJob}
    (hj : d.job u.a u.b u.c = some j) :
    d.engineBlock comp e =
      let d2 := (d.turn comp e u).jobUpd u.a u.b u.c (fun j => { j with blocks := j.blocks + 1 })
      if j.total ≤ j.blocks + 1 then d2.finishJob { j with blocks := j.blocks + 1 } else d2 := by
  have hj2 : ((d.turn comp e u).jobUpd u.a u.b u.c (fun j => { j with blocks := j.blocks + 1 })).job u.a u.b u.c =
      some { j with blocks := j.blocks + 1 } := by
    refine (Dev.job_jobUpd _ _ _ _ _ ?_).trans ?_
    · exact fun _ => ⟨rfl, rfl, rfl⟩
    · rw [(Dev.turn_engOnly ..).job, hj]; rfl
  unfold Dev.turn at hj2
  simp only [Dev.engineBlock, he, hu, hc, Bool.false_eq_true, if_false, hj2]
  rfl

end

/-- A digest's end: the result is written, and its command completes (R406). -/
theorem Dev.finishJob_digest (d : Dev) (j : EngJob) {alg res : Nat} (ho : j.op = .digest alg res) :
    d.finishJob j = ((d.dropJob j).hostWrite j.x res (digestOf alg (j.key.getD []) j.input)).complete j.x j.q j.cid { r0 := j.input.length } := by
  simp only [Dev.finishJob, ho]

/-- A poisoned block of a command's job: the job ends, and its command fails (R587). -/
theorem Dev.engineFault_job {d : Dev} {comp : Bool} {e : Nat} {en : Engine} {u : EngUser} (he : (d.engines comp)[e]? = some en) (hu : en.now = some u)
    (hc : u.isCharge = false) {j : EngJob} (hj : d.job u.a u.b u.c = some j) :
    d.engineFault comp e = ((d.turn comp e u).dropJob j).failCmd u.a u.b u.c 0x5001 := by
  have hnone : d.userHearth u = none := by
    unfold Dev.userHearth
    rw [List.find?_eq_none]
    intro h _
    cases (d.hearth h).running with
    | none => simp
    | some r =>
      have : r.user ≠ u := fun hr => by rw [← hr] at hc; cases hc
      simpa using this
  have hj2 : (d.turn comp e u).job u.a u.b u.c = some j := by rw [(Dev.turn_engOnly ..).job, hj]
  unfold Dev.turn at hj2 ⊢
  simp only [Dev.engineFault, Dev.enginePoison, he, hu, Option.bind_some, hnone, hc, Bool.false_eq_true, if_false, hj2]

/-! ### A compare-and-write of TRACE_CTRL -/

theorem traceCtrl_row : CwWord 0x02400040 ⟨0x02400040, 0, 1, 1, .cw, 0, false⟩ where
  row := by decide +kernel
  acc := rfl
  words := rfl
  start := rfl
  align := rfl
  open_ := by decide

theorem Dev.regRead_traceCtrl (d : Dev) : d.regRead 0x02400040 = d.regN 0x02400040 := by
  simp [Dev.regRead, traceCtrl_row.row, Dev.shownLow]

/-- With the bit of the value set, an even register becomes odd. -/
theorem cwPut_enable {old : Nat} (he : old % 2 = 0) (value : Nat) : cwPut 0x02400040 (2 ^ 64 - 1) old (value ||| 1) % 2 = 1 := by
  have hmask : ((2 ^ 64 - 1) % 2 ^ 32).land (cwMask 0x02400040 % 2 ^ 32) = 0x3FFF0003 := by decide
  have hodd : ∀ n : Nat, n.land 0x3FFF0003 % 2 = n % 2 := fun n => by
    change (n &&& 0x3FFF0003) % 2 ^ 1 = n % 2 ^ 1
    rw [Nat.and_mod_two_pow]
    exact Nat.and_two_pow_sub_one_eq_mod (n % 2) 1 |>.trans (by omega)
  have hold : old.land 0x3FFF0003 % 2 = 0 := (hodd old).trans he
  have hnew : ((value ||| 1) % 2 ^ 32).land 0x3FFF0003 % 2 = 1 := by
    rw [hodd, Nat.mod_mod_of_dvd _ (by decide : 2 ∣ 2 ^ 32)]
    change (value ||| 1) % 2 ^ 1 = 1
    rw [Nat.or_mod_two_pow]
    rcases Nat.mod_two_eq_zero_or_one value with h | h <;> rw [Nat.pow_one, h] <;> rfl
  have hle : old.land 0x3FFF0003 ≤ old := Nat.and_le_left
  rw [cwPut, hmask]
  omega

theorem Dev.traceEnable_spec (d : Dev) : d.traceEnable.regN 0x02400040 = d.regN 0x02400040 ∧ d.traceEnable.reg64 0x02400058 = 0 ∧
    d.traceEnable.reg64 0x02400060 = 0 ∧ d.traceEnable.qry.trace = {} ∧ d.traceEnable.cwCount = d.cwCount := by
  have hreg : ∀ a, d.traceEnable.reg a = if a = 0x02400064 ∨ a = 0x02400060 ∨ a = 0x0240005C ∨ a = 0x02400058 then 0 else d.reg a := fun a => by
    change ((((d.setReg 0x02400058 0).setReg 0x0240005C 0).setReg 0x02400060 0).setReg 0x02400064 0).reg a = _
    simp only [Dev.reg_setReg_at]
    split_ifs <;> simp_all
  refine ⟨?_, ?_, ?_, rfl, rfl⟩
  · rw [Dev.regN, hreg, if_neg (by decide), Dev.regN]
  · simp [Dev.reg64, Dev.regN, hreg]
  · simp [Dev.reg64, Dev.regN, hreg]

/-- TRACE_CTRL's enable set: the trace begins anew (R330). -/
theorem Dev.traceWrite_done {d : Dev} (h0 : d.regN 0x02400040 % 2 = 0) (x value : Nat) :
    let e := (d.regWrite x 0x02400040 4 (2 ^ 64 - 1) (value ||| 1) (d.regN 0x02400040) (d.writeCount 0x02400040)).2
    e.regN 0x02400040 % 2 = 1 ∧ e.reg64 0x02400058 = 0 ∧ e.reg64 0x02400060 = 0 ∧ e.qry.trace = {} ∧
      e.writeCount 0x02400040 = (d.writeCount 0x02400040 + 1) % 65536 := by
  rw [d.regWrite_cw_done traceCtrl_row x _ _ _ _ rfl rfl rfl (by rw [d.regRead_traceCtrl, Nat.mod_eq_of_lt (d.regN_lt _)]) rfl]
  have hnew := cwPut_enable h0 value
  rw [d.regRead_traceCtrl]
  generalize cwPut 0x02400040 (2 ^ 64 - 1) (d.regN 0x02400040) (value ||| 1) = new at hnew
  have heff : ∀ e : Dev, e.regEffect 0x02400040 0x02400040 (d.regN 0x02400040) new = e.traceEnable := fun e => if_pos ⟨hnew, h0⟩
  simp only [heff]
  obtain ⟨hreg, hhead, htail, htrace, hcount⟩ := Dev.traceEnable_spec { d.setReg 0x02400040 (BitVec.ofNat 32 new) with
    cwCount := tabSet 0 d.cwCount 0x02400040 ((d.writeCount 0x02400040 + 1) % 65536), cwFailed := d.cwFailed.filter (· != cwKey x 0x02400040) }
  refine ⟨?_, hhead, htail, htrace, ?_⟩
  · rw [hreg]
    change ((d.setReg 0x02400040 (BitVec.ofNat 32 new)).reg 0x02400040).toNat % 2 = 1
    rw [Dev.reg_setReg_at, if_pos rfl, BitVec.toNat_ofNat, Nat.mod_mod_of_dvd _ (by decide : 2 ∣ 2 ^ 32), hnew]
  · rw [Dev.writeCount, hcount]
    simp

/-- Another value or count of TRACE_CTRL: no register changes. -/
theorem Dev.traceWrite_failed {d : Dev} {value expected count : Nat}
    (h : expected % 2 ^ 32 ≠ d.regN 0x02400040 ∨ count ≠ d.writeCount 0x02400040) (x : Nat) :
    let e := (d.regWrite x 0x02400040 4 (2 ^ 64 - 1) value expected count).2
    e.regs = d.regs ∧ e.cwCount = d.cwCount ∧ cwKey x 0x02400040 ∈ e.cwFailed ∧ e.qry = d.qry := by
  rw [d.regWrite_cw_failed traceCtrl_row x _ _ _ _ rfl rfl (by rw [d.regRead_traceCtrl]; exact h.imp Ne.symm Ne.symm)]
  refine ⟨rfl, rfl, ?_, rfl⟩
  dsimp only
  split_ifs with hc
  · exact List.contains_iff_mem.1 hc
  · simp

theorem exec_traceEnable {s : State} (t x value expected count : Nat) (hs : s.dev.start.service = true) (hh : s.dev.hostStopped = false) :
    exec (.traceEnable t x value expected count) s =
      .next (s.run t (fun d => ((d.at t).regWrite x 0x02400040 4 (2 ^ 64 - 1) (value ||| 1) expected count).2)) := by
  have hopen : (!s.dev.start.service || s.dev.hostStopped) = false := by rw [hs, hh]; rfl
  change Host.Outcome.next (State.mk s.pending (if (!s.dev.start.service || s.dev.hostStopped) = true then _ else _)) = _
  rw [hopen]
  rfl

/-! ### The statement -/

theorem exec_engineBlock (s : State) (t : Nat) (comp : Bool) (e : Nat) :
    exec (.engineBlockDone t comp { engine := e }) s = .next (s.run t (fun d => d.engineBlock comp e)) := rfl

theorem exec_enginePoison (s : State) (t : Nat) (comp : Bool) (e : Nat) :
    exec (.engineBlockDone t comp { engine := e, poison := true }) s = .next (s.run t (fun d => (d.engineFault comp e).tidy)) := rfl

section
variable {d : Dev} {e : Nat} {en : Engine} {u : EngUser} {j : EngJob}

/-- A job that leaves frees the context and touches no queue. -/
theorem Dev.dropJob_keeps (d : Dev) (j : EngJob) : (d.dropJob j).out = d.out ∧ (d.dropJob j).twin = d.twin ∧
    (∀ x q, (d.dropJob j).qp x q = d.qp x q) ∧ ∀ x, (d.dropJob j).sends x = d.sends x := by
  have h := d.dropJob_engOnly j
  refine ⟨by rw [h], by rw [h], fun x q => by rw [h]; rfl, fun x => by rw [h]; rfl⟩

/-- A job leaves its engine, and its command, the queue's only one, completes after what it wrote. -/
theorem Dev.jobDone_spec (ha : d.twin.alone = true) (hx : j.x = u.a) (hq : j.q = u.b) (hid : j.cid = u.c) {k : Cmd}
    (hk : (d.qp u.a u.b).cmds = [k]) (hkid : k.cid = u.c) (l : List Out) (c : Compl) :
    let r := Dev.complete { d.dropJob j with out := d.out ++ l } u.a u.b u.c c
    r.job u.a u.b u.c = none ∧ r.out = d.out ++ l ∧ (r.qp u.a u.b).ready = (d.qp u.a u.b).ready ++ [{ c with cid := u.c }] := by
  intro r
  obtain ⟨_, htwin, hqp, _⟩ := d.dropJob_keeps j
  have hk' : (({ d.dropJob j with out := d.out ++ l } : Dev).qp u.a u.b).cmds = [k] := (congrArg Qp.cmds (hqp _ _)).trans hk
  have ha' : ({ d.dropJob j with out := d.out ++ l } : Dev).twin.alone = true := htwin ▸ ha
  refine ⟨?_, Dev.complete_keep_alone Dev.out (fun _ _ _ _ => rfl) ha' .., ?_⟩
  · refine (Dev.complete_keep_alone (fun d => d.job u.a u.b u.c) (fun _ _ _ _ => rfl) ha' ..).trans ?_
    rw [← hx, ← hq, ← hid]
    exact d.job_dropJob j
  · have hlast := Dev.complete_last ha' hk' c
    rw [hkid] at hlast
    refine (congrArg Qp.ready hlast).trans ?_
    exact congrArg (· ++ _) (congrArg Qp.ready (hqp _ _))

/-- The last block of a digest (R406). -/
theorem Dev.engineBlock_digest (ha : d.twin.alone = true) (he : (d.engines false)[e]? = some en) (hu : en.now = some u) (hc : u.isCharge = false)
    (hj : d.job u.a u.b u.c = some j) (hx : j.x = u.a) (hq : j.q = u.b) (hid : j.cid = u.c) {alg res : Nat} (ho : j.op = .digest alg res)
    (ht : j.total ≤ j.blocks + 1) (hs : d.sends u.a = true) {k : Cmd} (hk : (d.qp u.a u.b).cmds = [k]) (hkid : k.cid = u.c) :
    let r := d.engineBlock false e
    r.job u.a u.b u.c = none ∧ r.out = d.out ++ [.hostWrite u.a res (digestOf alg (j.key.getD []) j.input)] ∧
      (r.qp u.a u.b).ready = (d.qp u.a u.b).ready ++ [{ cid := u.c, r0 := j.input.length }] := by
  rw [Dev.engineBlock_job he hu hc hj]
  dsimp only
  rw [if_pos ht]
  generalize hd2 : (d.turn false e u).jobUpd u.a u.b u.c _ = d2
  generalize hj2 : ({ j with blocks := j.blocks + 1 } : EngJob) = j2
  have hsame : j2.x = u.a ∧ j2.q = u.b ∧ j2.cid = u.c ∧ j2.op = .digest alg res ∧ j2.key = j.key ∧ j2.input = j.input := by
    rw [← hj2]; exact ⟨hx, hq, hid, ho, rfl, rfl⟩
  obtain ⟨hx2, hq2, hid2, ho2, hkey2, hinput2⟩ := hsame
  have hkeep : d2.twin = d.twin ∧ d2.out = d.out ∧ d2.qp u.a u.b = d.qp u.a u.b ∧ d2.sends u.a = d.sends u.a := by
    rw [← hd2, d.turn_engOnly false e u]
    exact ⟨rfl, rfl, rfl, rfl⟩
  obtain ⟨htwin, hout, hqp, hsends⟩ := hkeep
  obtain ⟨hdout, _, _, hdsends⟩ := d2.dropJob_keeps j2
  have hspec := Dev.jobDone_spec (d := d2) (htwin ▸ ha) hx2 hq2 hid2 (hqp ▸ hk) hkid
    [.hostWrite u.a res (digestOf alg (j.key.getD []) j.input)] { r0 := j.input.length }
  rw [← hdout] at hspec
  rw [Dev.finishJob_digest _ _ ho2, Dev.hostWrite_sends _ _ _ _ (by rw [hdsends, hx2, hsends, hs]), hx2, hq2, hid2, hkey2, hinput2, ← hout, ← hqp, ← hdout]
  exact hspec

/-- A poisoned block of a command's job (R587). -/
theorem Dev.engineFault_spec {comp : Bool} (ha : d.twin.alone = true) (he : (d.engines comp)[e]? = some en) (hu : en.now = some u) (hc : u.isCharge = false)
    (hj : d.job u.a u.b u.c = some j) (hx : j.x = u.a) (hq : j.q = u.b) (hid : j.cid = u.c) {k : Cmd} (hk : (d.qp u.a u.b).cmds = [k])
    (hkid : k.cid = u.c) :
    let r := d.engineFault comp e
    r.job u.a u.b u.c = none ∧ r.out = d.out ∧ (r.qp u.a u.b).ready = (d.qp u.a u.b).ready ++ [{ cid := u.c, status := 0x5001 }] := by
  rw [Dev.engineFault_job he hu hc hj]
  have hkeep : (d.turn comp e u).twin = d.twin ∧ (d.turn comp e u).out = d.out ∧ (d.turn comp e u).qp u.a u.b = d.qp u.a u.b := by
    rw [d.turn_engOnly comp e u]
    exact ⟨rfl, rfl, rfl⟩
  obtain ⟨htwin, hout, hqp⟩ := hkeep
  obtain ⟨hdout, _⟩ := (d.turn comp e u).dropJob_keeps j
  have hspec := Dev.jobDone_spec (d := d.turn comp e u) (htwin ▸ ha) hx hq hid (hqp ▸ hk) hkid [] { status := 0x5001 }
  rw [List.append_nil, ← hdout] at hspec
  rw [← hout, ← hqp, ← hdout]
  exact hspec

end

/-- Settles O15: TRACE_CTRL is a compare-and-write register; an engine's block passes its turn on, and a job's last block, or a poisoned one, completes
the queue's only command. -/
theorem traceAndEngines : Obligations.TraceAndEngines := by
  unfold Obligations.TraceAndEngines
  refine ⟨fun s t x value hs hh h0 => gives_run (exec_traceEnable t x value _ _ hs hh) (Dev.traceWrite_done (d := (s.dev.at t).at t) h0 x value),
    fun s t x value expected count hs hh hne =>
      gives_run (exec_traceEnable t x value _ _ hs hh) (Dev.traceWrite_failed (d := (s.dev.at t).at t) hne x),
    fun s t comp e en u he hu hc => gives_run (exec_engineBlock ..) ?charge,
    fun s t comp e en u j he hu hc hj ht => gives_run (exec_engineBlock ..) ?block,
    fun s t e en u j alg res k ha he hu hc hj hx hq hid ho ht hs hk hkid _ => gives_run (exec_engineBlock ..)
      (Dev.engineBlock_digest (d := s.dev.at t) ha he hu hc hj hx hq hid ho ht hs hk hkid),
    fun s t comp e en u j k ha he hu hc hj hx hq hid hs hk hkid _ => effects_run (exec_enginePoison ..)
      (Dev.engineFault_spec (d := s.dev.at t) ha he hu hc hj hx hq hid hk hkid)⟩
  case charge =>
    rw [Dev.engineBlock_charge (d := s.dev.at t) he hu hc]
    exact ⟨Dev.engines_turn (d := s.dev.at t) he, by rw [(s.dev.at t).turn_engOnly comp e u]; rfl⟩
  case block =>
    rw [Dev.engineBlock_job (d := s.dev.at t) he hu hc hj]
    dsimp only
    rw [if_neg (Nat.not_le.2 ht)]
    refine ⟨?_, ?_⟩
    · exact (Dev.engines_turn (d := s.dev.at t) he)
    · refine (Dev.job_jobUpd _ _ _ _ _ ?_).trans ?_
      · exact fun _ => ⟨rfl, rfl, rfl⟩
      · rw [((s.dev.at t).turn_engOnly comp e u).job]
        exact congrArg (Option.map _) hj

end Sys2Proof.Machine

/-!
PROOF. Faults and the wide unit (R246 to R248, R252): a resolved instruction runs again, the wide unit's timers, and EXU_CTRL as a
compare-and-write register.
-/
namespace Sys2Proof.Machine

/-! ### A resolved instruction -/

/-- A resolved instruction that meets no fault leaves what it leaves when it is issued, and nothing begins (R252). -/
theorem Dev.xResolved_hearth {d : Dev} {h : Nat} {p : XPend} (hp : (d.hearth h).exu.pend = some p) (h5 : p.flt.cause ≠ 5)
    (hu : ((d.hearth h).exu.done (d.narrowOnly h) p.op p.w).unres = false)
    (hn : ((d.hearth h).exu.done (d.narrowOnly h) p.op p.w).pend = none) :
    (d.onHearth h (fun d => d.xResolved h none)).hearth h =
      { d.hearth h with exu := { (d.hearth h).exu.done (d.narrowOnly h) p.op p.w with rpe := 0, fixes := 0 } } := by
  have hrun : d.xResolved h none = d.xRun h p.op p.w none := by
    simp [Dev.xResolved, Dev.faultResolved, Dev.memFault, hp, h5]
  have hexu : (d.xRun h p.op p.w none).hearth h =
      { d.hearth h with exu := { (d.hearth h).exu.done (d.narrowOnly h) p.op p.w with rpe := 0, fixes := 0 } } := by
    rw [Dev.xRun_none _ _ _ _ hu, Dev.exuEvents_hearth, Dev.hearth_hearthUpd]
  have hfault : (d.xRun h p.op p.w none).hearthFault d h = d.xRun h p.op p.w none := by
    unfold Dev.hearthFault
    simp [hexu, hu, hn]
  unfold Dev.onHearth Dev.ifQuenched
  simp only [hrun, hfault]
  rw [if_neg (by rw [hexu]; simp), hexu]

/-- The end of the power-down: a wake that was asked for begins (R246). -/
theorem Dev.wideDown_exu (d : Dev) {h : Nat} (hw : (d.hearth h).exu.wide = .poweringDown) :
    ((d.wideDown h).hearth h).exu = { (d.hearth h).exu with
      wide := if (d.hearth h).exu.wakeReq && !d.narrowOnly h then .waking else .off, wakeReq := false } := by
  unfold Dev.wideDown
  dsimp only
  rw [if_neg (not_not.2 hw)]
  split_ifs
  · rw [Dev.hearth, Dev.bump_qry]
    exact congrArg Hearth.exu (Dev.hearth_hearthUpd ..)
  · exact congrArg Hearth.exu (Dev.hearth_hearthUpd ..)

/-! ### EXU_CTRL -/

theorem exuCtrl_row {h : Nat} (hh : h < 36) : CwWord (0x02100000 + 0x1000 * h) ⟨0x02100000, 0x1000, 36, 1, .cw, 0x64, false⟩ where
  row := by
    have hall : ∀ h < 36, regRow (0x02100000 + 0x1000 * h) = some ⟨0x02100000, 0x1000, 36, 1, .cw, 0x64, false⟩ := by decide +kernel
    exact hall h hh
  acc := rfl
  words := rfl
  start := by simp [RegRow.start]; omega
  align := by omega
  open_ := by omega

theorem Dev.regRead_exuCtrl (d : Dev) {h : Nat} (hh : h < 36) : d.regRead (0x02100000 + 0x1000 * h) = d.regN (0x02100000 + 0x1000 * h) := by
  have hlow : d.shownLow (0x02100000 + 0x1000 * h) = none := by
    unfold Dev.shownLow
    rw [if_pos (by omega), show (0x02100000 + 0x1000 * h) % 0x1000 = 0 by omega]
    rfl
  simp only [Dev.regRead, (exuCtrl_row hh).row, Option.isNone_some, Bool.false_eq_true, if_false]
  rw [if_pos (by omega), hlow]

/-- Every bit of EXU_CTRL is written. -/
theorem cwPut_exuCtrl {old value : Nat} (ho : old < 2 ^ 17) (hv : value < 2 ^ 17) : cwPut 0x02100000 (2 ^ 64 - 1) old value = value := by
  have hmask : ((2 ^ 64 - 1) % 2 ^ 32).land (cwMask 0x02100000 % 2 ^ 32) = 2 ^ 17 - 1 := by decide
  have hland : ∀ n, n < 2 ^ 17 → n.land (2 ^ 17 - 1) = n := fun n hn =>
    (Nat.and_two_pow_sub_one_eq_mod n 17).trans (Nat.mod_eq_of_lt hn)
  rw [cwPut, hmask, hland old ho, Nat.mod_eq_of_lt (by omega : value < 2 ^ 32), hland value hv]
  omega

theorem exec_exuCtrlWrite {s : State} (t x h value expected count : Nat) (hs : s.dev.start.service = true) (hh : s.dev.hostStopped = false) :
    exec (.exuCtrlWrite t x h value expected count) s =
      .next (s.run t (fun d => ((d.at t).regWrite x (0x02100000 + 0x1000 * h) 4 (2 ^ 64 - 1) value expected count).2)) := by
  have hopen : (!s.dev.start.service || s.dev.hostStopped) = false := by rw [hs, hh]; rfl
  change Host.Outcome.next (State.mk s.pending (if (!s.dev.start.service || s.dev.hostStopped) = true then _ else _)) = _
  rw [hopen]
  rfl

/-- What force_narrow does to the wide unit (R248). -/
theorem Dev.forceNarrow_spec (d : Dev) (h : Nat) : (d.forceNarrow h).regs = d.regs ∧
    ((d.forceNarrow h).hearth h).exu.wide = if d.narrowOnly h = true ∧ (d.hearth h).exu.wide = .ready then .poweringDown else (d.hearth h).exu.wide := by
  unfold Dev.forceNarrow
  simp only [Bool.and_eq_true, beq_iff_eq]
  split_ifs
  · exact ⟨rfl, by simp [Dev.wideUpd]⟩
  · exact ⟨rfl, rfl⟩

theorem Dev.exuCtrl_spec {d : Dev} {h value : Nat} (hh : h < 36) (hv : value < 2 ^ 17) (ho : d.regN (0x02100000 + 0x1000 * h) < 2 ^ 17) (x : Nat) :
    let e := (d.regWrite x (0x02100000 + 0x1000 * h) 4 (2 ^ 64 - 1) value (d.regN (0x02100000 + 0x1000 * h)) (d.writeCount (0x02100000 + 0x1000 * h))).2
    e.regN (0x02100000 + 0x1000 * h) = value ∧ e.wideIdleUs h = value % 65536 ∧ e.narrowOnly h = bitOf value 16 ∧
      (e.hearth h).exu.wide = if bitOf value 16 = true ∧ (d.hearth h).exu.wide = .ready then .poweringDown else (d.hearth h).exu.wide := by
  rw [d.regWrite_cw_done (exuCtrl_row hh) x _ _ _ _ rfl rfl rfl (by rw [d.regRead_exuCtrl hh, Nat.mod_eq_of_lt (d.regN_lt _)]) rfl]
  rw [d.regRead_exuCtrl hh, cwPut_exuCtrl ho hv]
  have heff : ∀ e : Dev, e.regEffect 0x02100000 (0x02100000 + 0x1000 * h) (d.regN (0x02100000 + 0x1000 * h)) value = e.forceNarrow h := fun e =>
    congrArg e.forceNarrow (by omega)
  simp only [heff]
  generalize he : ({ d.setReg (0x02100000 + 0x1000 * h) (BitVec.ofNat 32 value) with
    cwCount := tabSet 0 d.cwCount (0x02100000 + 0x1000 * h) ((d.writeCount (0x02100000 + 0x1000 * h) + 1) % 65536)
    cwFailed := d.cwFailed.filter (· != cwKey x (0x02100000 + 0x1000 * h)) } : Dev) = e
  have hval : e.regN (0x02100000 + 0x1000 * h) = value := by
    rw [← he]
    change ((d.setReg _ _).reg _).toNat = value
    rw [Dev.reg_setReg_at, if_pos rfl, BitVec.toNat_ofNat, Nat.mod_eq_of_lt (by omega)]
  have hexu : e.hearth h = d.hearth h := by rw [← he]; rfl
  obtain ⟨hregs, hwide⟩ := e.forceNarrow_spec h
  have hreg : (e.forceNarrow h).regN (0x02100000 + 0x1000 * h) = value := by rw [Dev.regN, Dev.reg, hregs]; exact hval
  have hnarrow : e.narrowOnly h = bitOf value 16 := by rw [Dev.narrowOnly, hval]
  refine ⟨hreg, ?_, ?_, ?_⟩
  · rw [Dev.wideIdleUs, Dev.regField, hreg]; simp [bitsOf]
  · rw [Dev.narrowOnly, hreg]
  · rw [hwide, hnarrow, hexu]

/-- Settles O22: a resolved instruction by `xResolved_hearth`, the timers by their definitions, EXU_CTRL by `exuCtrl_spec`. -/
theorem wideUnit : Obligations.WideUnit := by
  unfold Obligations.WideUnit
  refine ⟨fun s t h p hp h5 hu hn => gives_run (f := fun d => d.onHearth h (fun d => d.xResolved h none)) rfl
      (congrArg Hearth.exu (Dev.xResolved_hearth (d := s.dev.at t) hp h5 hu hn)),
    fun s t h hw hi => gives_run (f := fun d => d.wideIdle h) rfl ?idle, fun s t h hw => gives_run (f := fun d => d.wideDown h) rfl ?down,
    fun s t h hw => gives_run (f := fun d => d.wideReady h) rfl ?ready,
    fun s t x h value hh hs ho hv hr => gives_run (exec_exuCtrlWrite t x h value _ _ hs ho) (Dev.exuCtrl_spec (d := (s.dev.at t).at t) hh hv hr x)⟩
  case idle =>
    have hidle : (s.dev.at t).wideIdle h = (s.dev.at t).wideUpd h (fun x => { x with wide := .poweringDown, activeWide := false }) :=
      if_pos (by simpa [Dev.hearth] using ⟨hw, hi⟩)
    rw [hidle]
    exact ⟨congrArg Hearth.exu (Dev.hearth_hearthUpd ..), rfl⟩
  case down =>
    exact Dev.wideDown_exu (s.dev.at t) hw
  case ready =>
    have hready : (s.dev.at t).wideReady h = (s.dev.at t).wideUpd h (fun x => { x with wide := if s.dev.narrowOnly h then .poweringDown else .ready }) :=
      if_pos hw
    rw [hready]
    exact congrArg Hearth.exu (Dev.hearth_hearthUpd ..)

end Sys2Proof.Machine

/-!
PROOF. The care-mask table (R298, R299): a scrub cycle, the hearths that apply a system table, and the answer of the last one.
-/
namespace Sys2Proof.Machine

/-! ### The answer of a mailbox -/

/-- What neither a mailbox nor a vector touches stays as it is when a mailbox answers (R456, R465). -/
theorem Dev.mbAnswer_keep {α : Type} (P : Dev → α) (hm : ∀ d x f, P (Dev.mboxUpd d x f) = P d) (hv : ∀ d x v, P (Dev.vector d x v) = P d)
    (d : Dev) (x status detail flags handle : Nat) (b : Bytes) : P (d.mbAnswer x status detail flags handle b) = P d := by
  unfold Dev.mbAnswer Dev.mboxVector
  split
  · rfl
  · dsimp only
    split_ifs
    · exact (hv ..).trans (hm ..)
    · exact hm ..

/-! ### Scrub cycles -/

section
variable (d : Dev) {h : Nat} (hp : d.scrubPaused h = false) (hu : d.mail.sysUpdate = none) (copyBad : Bool) (others : List CareUnit)
include hp hu

/-- A unit that is as its copy says: the cycle goes on to the next (R299). -/
theorem Dev.scrubUnit_good : d.scrubUnit h none copyBad others = d.scrubTo h ((d.hearth h).exu.cmt.scrubPos + 1) := by
  simp [Dev.scrubUnit, hp, hu]

/-- A unit that differs from a good copy: it is rewritten and counted (R299). -/
theorem Dev.scrubUnit_bad (v : CareUnit) : d.scrubUnit h (some v) false others =
    ((d.wideUpd h (fun x => { x with cmt := x.cmt.put (d.hearth h).exu.cmt.scrubPos v })).scrubFix h (d.hearth h).exu.cmt.scrubPos
      (d.scrubCopy h (d.hearth h).exu.cmt.scrubPos)).scrubTo h ((d.hearth h).exu.cmt.scrubPos + 1) := by
  simp [Dev.scrubUnit, hp, hu]

end

theorem Dev.hearth_wideUpd (d : Dev) (h : Nat) (f : Exu → Exu) : (d.wideUpd h f).hearth h = { d.hearth h with exu := f (d.hearth h).exu } :=
  Dev.hearth_hearthUpd ..

/-- The unit is put as the copy has it, one more is counted, and the cycle goes on. -/
theorem Dev.scrubbed_spec (d : Dev) (h pos : Nat) (v k : CareUnit) :
    let e := ((d.wideUpd h (fun x => { x with cmt := x.cmt.put pos v })).scrubFix h pos k).scrubTo h (pos + 1)
    (e.hearth h).exu.cmt = { ((d.hearth h).exu.cmt.put pos v).put pos k with scrubPos := (pos + 1) % 32768 } ∧
      e.regN (0x02100104 + 0x1000 * h) = satAdd 32 (d.regN (0x02100104 + 0x1000 * h)) 1 := by
  refine ⟨?_, Dev.regN_bump_self ..⟩
  have hfix : ((d.wideUpd h (fun x => { x with cmt := x.cmt.put pos v })).scrubFix h pos k).hearth h =
      { d.hearth h with exu := { (d.hearth h).exu with cmt := ((d.hearth h).exu.cmt.put pos v).put pos k } } := by
    unfold Dev.scrubFix
    rw [Dev.hearth, Dev.bump_qry]
    change (Dev.hearth (Dev.wideUpd _ h _) h) = _
    rw [Dev.hearth_wideUpd, Dev.hearth_wideUpd]
  change (Dev.hearth (Dev.wideUpd _ h _) h).exu.cmt = _
  rw [Dev.hearth_wideUpd, hfix]
  rfl

/-! ### System tables -/

section
variable {d : Dev} {h : Nat} {u : SysUpdate}

/-- The hearth's own copy of the system tables, and the note that it has it (R298). -/
def Dev.sysLoad (d : Dev) (h : Nat) (u : SysUpdate) : Dev :=
  Dev.loadSys { d with mail := { d.mail with sysUpdate := some { u with applied := u.applied ++ [h] } } } h d.mail.sysTables

theorem Dev.sysApply_eq (hu : d.mail.sysUpdate = some u) (ho : (d.hearth h).on = true) (ha : h ∉ u.applied) : d.sysApply h = (d.sysLoad h u).sysFinish := by
  have hc : u.applied.contains h = false := by simpa using ha
  simp only [Dev.sysApply, hu, ho, hc, Bool.not_true, Bool.or_self, Bool.false_eq_true, if_false]
  rfl

theorem Dev.hearth_sysLoad (d : Dev) (h : Nat) (u : SysUpdate) (k : Nat) : ((d.sysLoad h u).hearth k).on = (d.hearth k).on := by
  by_cases hk : k = h
  · subst hk; exact (congrArg Hearth.on (Dev.hearth_wideUpd _ k _)).trans rfl
  · exact congrArg Hearth.on (Dev.hearth_hearthUpd_ne _ _ _ _ hk)

theorem Dev.pipeHearths_sysLoad (d : Dev) (h : Nat) (u : SysUpdate) : (d.sysLoad h u).pipeHearths = d.pipeHearths := by
  unfold Dev.pipeHearths
  exact List.filter_congr fun k _ => d.hearth_sysLoad h u k

/-- While another hearth has still to apply the tables, the command waits. -/
theorem Dev.sysFinish_waits (hk : ∃ k ∈ d.pipeHearths, k ≠ h ∧ k ∉ u.applied) : (d.sysLoad h u).sysFinish = d.sysLoad h u := by
  have hany : (d.sysLoad h u).pipeHearths.any (fun k => !(u.applied ++ [h]).contains k) = true := by
    rw [Dev.pipeHearths_sysLoad, List.any_eq_true]
    obtain ⟨k, hm, hne, hna⟩ := hk
    exact ⟨k, hm, by simpa using ⟨hna, hne⟩⟩
  exact if_pos hany

/-- The last hearth completes the command, at the next generation (R298). -/
theorem Dev.sysFinish_last (hk : ∀ k ∈ d.pipeHearths, k = h ∨ k ∈ u.applied) :
    (d.sysLoad h u).sysFinish.mail.sysUpdate = none ∧ (d.sysLoad h u).sysFinish.regN 0x02300000 = (d.regN 0x02300000 + 1) % 65536 := by
  have hany : (d.sysLoad h u).pipeHearths.any (fun k => !(u.applied ++ [h]).contains k) = false := by
    rw [Dev.pipeHearths_sysLoad, List.any_eq_false]
    intro k hm
    simpa [or_iff_not_imp_left] using (hk k hm).symm
  have hfin : (d.sysLoad h u).sysFinish = Dev.mbOk (Dev.setReg { d.sysLoad h u with mail := { (d.sysLoad h u).mail with sysUpdate := none } }
      0x02300000 (BitVec.ofNat 32 ((d.regN 0x02300000 + 1) % 65536))) u.x (natLE 2 ((d.regN 0x02300000 + 1) % 65536) ++ zeros 6) :=
    if_neg (by rw [hany]; simp)
  rw [hfin]
  constructor
  · exact Dev.mbAnswer_keep (fun d => d.mail.sysUpdate) (fun _ _ _ => rfl) (by simp) ..
  · refine (Dev.mbAnswer_keep (fun d => d.regN 0x02300000) (fun _ _ _ => rfl) (fun d x v => by rw [Dev.regN, Dev.reg, Dev.vector_regs]; rfl) ..).trans ?_
    rw [Dev.regN, Dev.reg_setReg_at, if_pos rfl, BitVec.toNat_ofNat]
    omega

end

theorem exec_cmtScrub (s : State) (t h : Nat) (f : Option CareUnit) (b : Bool) (l : List CareUnit) :
    exec (.cmtScrub t h f b l) s = .next (s.run t (fun d => d.scrubUnit h f b l)) := rfl

theorem exec_systemTableApply (s : State) (t h : Nat) : exec (.systemTableApply t h) s = .next (s.run t (fun d => (d.sysApply h).tidy)) := rfl

/-- Settles O23: scrub cycles by `scrubUnit_good` and `scrubUnit_bad`, system tables by `sysFinish_waits` and `sysFinish_last`. -/
theorem careMaskTables : Obligations.CareMaskTables := by
  unfold Obligations.CareMaskTables
  refine ⟨fun s t h b l hp hu => gives_run (exec_cmtScrub ..) ?good, fun s t h v l hp hu => gives_run (exec_cmtScrub ..) ?bad,
    fun s t h u hu ho ha hk => effects_run (exec_systemTableApply ..) ?waits, fun s t h u hu ho ha hk => effects_run (exec_systemTableApply ..) ?last⟩
  case good =>
    rw [(s.dev.at t).scrubUnit_good hp hu]
    exact ⟨congrArg (fun k : Hearth => k.exu.cmt) (Dev.hearth_wideUpd ..), rfl⟩
  case bad =>
    rw [(s.dev.at t).scrubUnit_bad hp hu]
    exact Dev.scrubbed_spec ..
  case waits =>
    rw [Dev.sysApply_eq (d := s.dev.at t) hu ho ha, Dev.sysFinish_waits (d := s.dev.at t) hk]
    exact ⟨rfl, congrArg (fun k : Hearth => k.exu.cmt) (Dev.hearth_wideUpd ..)⟩
  case last =>
    rw [Dev.sysApply_eq (d := s.dev.at t) hu ho ha]
    exact Dev.sysFinish_last (d := s.dev.at t) hk

end Sys2Proof.Machine

/-!
PROOF. Frames of device memory (R359, R360, R363): what a range zeroed and a frame moved byte by byte leave of memory, and the statement.
-/
namespace Sys2Proof.Machine

/-! ### Bytes that a range keeps, loses or takes -/

section
variable {α : Type}

theorem tabGet_filter (a : α) (t : Tab α) (q : Nat → Bool) (k : Nat) :
    tabGet a (t.filter (fun p => q p.1)) k = if q k then tabGet a t k else a := by
  induction t with
  | nil => simp [tabGet]
  | cons p t ih =>
    obtain ⟨j, v⟩ := p
    by_cases hj : j = k
    · subst hj
      cases hq : q j <;> simp [hq, tabGet, ih]
    · cases hq : q j <;> simp [hq, tabGet, ih, hj]

/-- The entries of a range, numbered from its start. -/
def tabRange (t : Tab α) (k n : Nat) : Tab α :=
  (t.filter (fun p => decide (k ≤ p.1) && decide (p.1 < k + n))).map (fun p => (p.1 - k, p.2))

theorem tabGet_tabRange (a : α) (t : Tab α) {k n i : Nat} (hi : i < n) : tabGet a (tabRange t k n) i = tabGet a t (k + i) := by
  induction t with
  | nil => rfl
  | cons p t ih =>
    obtain ⟨j, v⟩ := p
    unfold tabRange at ih ⊢
    by_cases hin : k ≤ j ∧ j < k + n
    · rw [List.filter_cons_of_pos (by simpa using hin), List.map_cons]
      by_cases hj : j = k + i
      · subst hj; simp [tabGet]
      · have : ¬ j - k = i := by omega
        simp [tabGet, hj, this, ih]
    · rw [List.filter_cons_of_neg (by simpa using hin), ih]
      have hj : ¬ j = k + i := by omega
      simp [tabGet, hj]

theorem tabWf_distinct [DecidableEq α] {a : α} {t : Tab α} (h : tabWf a t = true) : t.Pairwise (fun p q => p.1 < q.1) := by
  induction t with
  | nil => exact List.Pairwise.nil
  | cons p t ih =>
    obtain ⟨j, v⟩ := p
    simp only [tabWf, Bool.and_eq_true, List.all_eq_true, decide_eq_true_eq] at h
    obtain ⟨⟨_, hlt⟩, hwf⟩ := h
    exact List.Pairwise.cons hlt (ih hwf)

theorem tabRange_distinct {t : Tab α} (h : t.Pairwise (fun p q => p.1 < q.1)) (k n : Nat) : (tabRange t k n).Pairwise (fun p q => p.1 ≠ q.1) := by
  unfold tabRange
  rw [List.pairwise_map]
  refine ((h.filter _).imp_of_mem fun {p q} hp hq hlt => ?_)
  have h1 := (List.mem_filter.1 hp).2
  have h2 := (List.mem_filter.1 hq).2
  simp only [Bool.and_eq_true, decide_eq_true_eq] at h1 h2
  omega

end

/-! ### A frame written byte by byte -/

/-- The bytes of a list written to a place of device memory. -/
def Dev.memWrites (d : Dev) (v g : Nat) (l : Tab Byte) : Dev := l.foldl (fun (d : Dev) p => d.memWrite v (g + p.1) [p.2]) d

theorem Dev.memWrite_byte (d : Dev) (v off : Nat) (b : Byte) (j : Nat) :
    tabGet 0 (d.memWrite v off [b]).mem.bytes j = if j = memKey v off then b else tabGet 0 d.mem.bytes j := by
  change tabGet 0 (tabSet 0 d.mem.bytes (memKey v off) b) j = _
  rw [tabGet_set]

theorem Dev.memWrites_other (d : Dev) (v g : Nat) {l : Tab Byte} {j : Nat} (h : ∀ p ∈ l, j ≠ memKey v (g + p.1)) :
    tabGet 0 (d.memWrites v g l).mem.bytes j = tabGet 0 d.mem.bytes j := by
  induction l generalizing d with
  | nil => rfl
  | cons p l ih =>
    refine (ih (d.memWrite v (g + p.1) [p.2]) fun q hq => h q (List.mem_cons_of_mem _ hq)).trans ?_
    rw [Dev.memWrite_byte, if_neg (h p List.mem_cons_self)]

/-- A place that held zeros takes the list's bytes. -/
theorem Dev.memWrites_byte (d : Dev) (v g : Nat) {l : Tab Byte} (hl : l.Pairwise (fun p q => p.1 ≠ q.1)) {i : Nat}
    (h0 : tabGet 0 d.mem.bytes (memKey v (g + i)) = 0) : tabGet 0 (d.memWrites v g l).mem.bytes (memKey v (g + i)) = tabGet 0 l i := by
  induction l generalizing d with
  | nil => exact h0
  | cons p l ih =>
    obtain ⟨j, b⟩ := p
    obtain ⟨hne, hl⟩ := List.pairwise_cons.1 hl
    change tabGet 0 ((d.memWrite v (g + j) [b]).memWrites v g l).mem.bytes _ = _
    by_cases hj : j = i
    · subst hj
      rw [Dev.memWrites_other, Dev.memWrite_byte, if_pos rfl]
      · simp [tabGet]
      · intro q hq he
        exact hne q hq (by simp [memKey] at he; omega)
    · rw [ih _ hl]
      · simp [tabGet, hj]
      · rw [Dev.memWrite_byte, if_neg (by simp [memKey]; omega), h0]

theorem Dev.memZero_byte (d : Dev) (u off n j : Nat) :
    tabGet 0 (d.memZero u off n).mem.bytes j = if memKey u off ≤ j ∧ j < memKey u off + n then 0 else tabGet 0 d.mem.bytes j := by
  refine (tabGet_filter (0 : Byte) d.mem.bytes (fun k => !(decide (memKey u off ≤ k) && decide (k < memKey u off + n))) j).trans ?_
  by_cases h : memKey u off ≤ j ∧ j < memKey u off + n
  · simp [h]
  · have hout : ¬ (decide (memKey u off ≤ j) && decide (j < memKey u off + n)) = true := by simpa using h
    rw [if_neg h, if_pos (by rw [Bool.not_eq_true'] ; exact Bool.eq_false_iff.2 hout)]

/-! ### The statement -/

/-- A zeroed free frame is no frame of an entry. -/
theorem Dev.freeFrame_ne {d : Dev} {u f v g : Nat} {e : XlEntry} (he : d.mem.entries.find? (fun e => 4 * e.tier + e.unit == u && e.frame == f) = some e)
    (hg : d.freeFrame v = some g) (huv : u = v) : f ≠ g := by
  intro hfg
  subst huv hfg
  have hmem := List.mem_of_find?_eq_some he
  have hprop := List.find?_some he
  simp only [Bool.and_eq_true, beq_iff_eq] at hprop
  have hfree := List.find?_some hg
  have hin : f ∈ d.backed u := List.mem_map.2 ⟨e, List.mem_filter.2 ⟨hmem, by simpa using hprop.1⟩, hprop.2⟩
  simp [hin] at hfree

/-- The entry of a moved page, in its new place (R360). -/
theorem xlEntry_moved {es : List XlEntry} {e : XlEntry} (he : e ∈ es) (t n g : Nat) :
    ((updWhere (fun k => k.ctx == e.ctx && k.page == e.page) (fun k => { k with tier := t, unit := n, frame := g }) es).find?
      (fun k => k.ctx == e.ctx && k.page == e.page)).map (fun k => (k.tier, k.unit, k.frame)) = some (t, n, g) := by
  refine (congrArg (Option.map _) (find?_updWhere _ _ ?_ es)).trans ?_
  · exact fun _ h => h
  · cases hf : es.find? (fun k => k.ctx == e.ctx && k.page == e.page) with
    | none => exact absurd (List.find?_eq_none.1 hf e he) (by simp)
    | some k => rfl

theorem Dev.memWrites_keeps (d : Dev) (v g : Nat) (l : Tab Byte) : (d.memWrites v g l).mem.entries = d.mem.entries ∧ (d.memWrites v g l).regs = d.regs := by
  unfold Dev.memWrites
  exact ⟨
    @foldl_keep _ _ _ (fun d => d.mem.entries) (fun d p => d.memWrite v (g + p.1) [p.2]) (fun _ _ => rfl) l d,
    @foldl_keep _ _ _ Dev.regs (fun d p => d.memWrite v (g + p.1) [p.2]) (fun _ _ => rfl) l d⟩

/-- A frame moved, its parts named: the bytes written, the old place zeroed, the page's entry and the count. -/
theorem Dev.moveFrame_eq {d : Dev} {u f v g : Nat} {e : XlEntry} (he : d.mem.entries.find? (fun e => 4 * e.tier + e.unit == u && e.frame == f) = some e)
    (hg : d.freeFrame v = some g) :
    let d2 := ((d.memWrites v (g * frameBytes) (tabRange d.mem.bytes (memKey u (f * frameBytes)) frameBytes)).memZero u (f * frameBytes) frameBytes).dropLines
      (lineIn u (f * frameBytes) frameBytes)
    d.moveFrame u f v = Dev.bump { d2 with mem := { d2.mem with
      entries := updWhere (fun k => k.ctx == e.ctx && k.page == e.page) (fun k => { k with tier := v / 4, unit := v % 4, frame := g }) d2.mem.entries } }
      0x02610014 1 := by
  unfold Dev.moveFrame
  simp only [he, hg]
  rfl

/-- What a move leaves (R360, R363). -/
theorem Dev.moveFrame_spec {d : Dev} {u f v g : Nat} {e : XlEntry} (he : d.mem.entries.find? (fun e => 4 * e.tier + e.unit == u && e.frame == f) = some e)
    (hg : d.freeFrame v = some g) (hf : f < 2 ^ 19) (hg19 : g < 2 ^ 19) (hwf : tabWf 0 d.mem.bytes = true)
    (h0 : ∀ i, i < frameBytes → tabGet 0 d.mem.bytes (memKey v (g * frameBytes + i)) = 0) :
    let r := d.moveFrame u f v
    (∀ i, i < frameBytes → tabGet 0 r.mem.bytes (memKey v (g * frameBytes + i)) = tabGet 0 d.mem.bytes (memKey u (f * frameBytes + i))) ∧
      (∀ i, i < frameBytes → tabGet 0 r.mem.bytes (memKey u (f * frameBytes + i)) = 0) ∧
      (r.xlEntry e.ctx e.page).map (fun k => (k.tier, k.unit, k.frame)) = some (v / 4, v % 4, g) ∧
      r.regN 0x02610014 = satAdd 32 (d.regN 0x02610014) 1 := by
  have hne := Dev.freeFrame_ne he hg
  rw [Dev.moveFrame_eq he hg]
  dsimp only
  generalize hl : tabRange d.mem.bytes (memKey u (f * frameBytes)) frameBytes = l
  obtain ⟨hent, hregs⟩ := d.memWrites_keeps v (g * frameBytes) l
  have hkey : ∀ i, memKey u (f * frameBytes) + i = memKey u (f * frameBytes + i) := fun i => by simp only [memKey]; omega
  have hbytes : ∀ j, tabGet 0 (((d.memWrites v (g * frameBytes) l).memZero u (f * frameBytes) frameBytes).mem.bytes) j =
      if memKey u (f * frameBytes) ≤ j ∧ j < memKey u (f * frameBytes) + frameBytes then 0 else tabGet 0 (d.memWrites v (g * frameBytes) l).mem.bytes j :=
    fun j => Dev.memZero_byte ..
  refine ⟨fun i hi => ?_, fun i hi => ?_, ?_, ?_⟩
  · rw [Dev.bump_bytes]
    refine (hbytes _).trans ?_
    rw [if_neg, Dev.memWrites_byte _ _ _ (hl ▸ tabRange_distinct (tabWf_distinct hwf) _ _) (h0 i hi), ← hl, tabGet_tabRange _ _ hi, hkey]
    simp only [memKey, frameBytes] at hi ⊢
    by_cases huv : u = v
    · have := hne huv; omega
    · omega
  · rw [Dev.bump_bytes]
    refine (hbytes _).trans (if_pos ?_)
    simp only [memKey] at hi ⊢
    omega
  · rw [Dev.xlEntry, Dev.bump_mem]
    refine xlEntry_moved ?_ _ _ _
    change e ∈ (d.memWrites v (g * frameBytes) l).mem.entries
    rw [hent]
    exact List.mem_of_find?_eq_some he
  · rw [Dev.regN_bump_self]
    refine congrArg (satAdd 32 · 1) ?_
    change (Dev.reg (d.memWrites v (g * frameBytes) l) _).toNat = _
    rw [Dev.reg, hregs]
    rfl

/-- What zeroing a freed frame leaves (R363). -/
theorem Dev.zeroFrame_spec {d : Dev} {u f : Nat} (hf : f ∈ (d.memUnit u).dirty) :
    let r := d.zeroFrame u f
    (r.memUnit u).dirty = (d.memUnit u).dirty.filter (· != f) ∧
      (∀ j, tabGet 0 r.mem.bytes j = if memKey u (f * frameBytes) ≤ j ∧ j < memKey u (f * frameBytes) + frameBytes then 0 else tabGet 0 d.mem.bytes j) ∧
      r.mem.entries = d.mem.entries := by
  have hz : d.zeroFrame u f = ((d.memZero u (f * frameBytes) frameBytes).dropLines (lineIn u (f * frameBytes) frameBytes)).memUnitUpd u
      (fun m => { m with dirty := m.dirty.filter (· != f) }) := if_pos (by simpa using hf)
  rw [hz]
  refine ⟨?_, fun j => Dev.memZero_byte .., rfl⟩
  simp only [Dev.memUnit, Dev.memUnitUpd, tabGet_upd, if_true]
  rfl

/-- Settles O24: the bytes of a moved frame by `memWrites_byte`, the zeroed ones by `memZero_byte`. -/
theorem framesHold : Obligations.Frames := by
  unfold Obligations.Frames
  refine ⟨fun s t u f dest e g hd hs he hg hf hg19 hwf h0 => gives_run (f := fun d => d.frameMove u f dest) rfl ?move,
    fun s t u f hf => gives_run (f := fun d => d.ownWork.zeroFrame u f) rfl ?zero⟩
  case move =>
    have hmove : (s.dev.at t).frameMove u f dest = (s.dev.at t).moveFrame u f dest :=
      if_pos (by rw [Bool.and_eq_true, decide_eq_true_eq, beq_iff_eq]; exact ⟨hd, hs⟩)
    rw [hmove]
    exact Dev.moveFrame_spec (d := s.dev.at t) he hg hf hg19 hwf h0
  case zero =>
    obtain ⟨hdirty, hbytes, hent⟩ := Dev.zeroFrame_spec (d := (s.dev.at t).ownWork) hf
    refine ⟨hdirty, fun i hi => ?_, fun k hk => ?_, hent⟩
    · rw [hbytes, if_pos (by simp only [memKey] at hi ⊢; omega)]
    · rw [hbytes, if_neg (by omega)]
      rfl

end Sys2Proof.Machine

/-! PROOF. DRAM in the field (12_memory.md): which part of a memory unit each timer changes, and the banks it leaves alone. -/

namespace Sys2Proof.Machine

/-- Only the banks of the memory system differ. -/
def Dev.banksOnly (d e : Dev) : Prop := ∃ b, e.mem = { d.mem with banks := b }

theorem Dev.banksOnly_refl (d : Dev) : d.banksOnly d := ⟨_, rfl⟩

theorem Dev.banksOnly_trans {d e g : Dev} : d.banksOnly e → e.banksOnly g → d.banksOnly g := by
  rintro ⟨b, hb⟩ ⟨c, hc⟩
  exact ⟨c, by rw [hc, hb]⟩

theorem Dev.banksOnly_bankUpd (d : Dev) (k : Nat) (f : DBank → DBank) : d.banksOnly (d.bankUpd k f) := ⟨_, rfl⟩

theorem Dev.banksOnly_foldl {α : Type} {f : Dev → α → Dev} (hf : ∀ (d : Dev) a, d.banksOnly (f d a)) (l : List α) (d : Dev) : d.banksOnly (l.foldl f d) := by
  induction l generalizing d with
  | nil => exact d.banksOnly_refl
  | cons a l ih => exact Dev.banksOnly_trans (hf d a) (ih _)

theorem Dev.banksOnly_activate (base rows k : Nat) : ∀ (n : Nat) (d : Dev) (r : Nat), d.banksOnly (Dev.activate d base rows k n r)
  | 0, d, _ => d.banksOnly_refl
  | n + 1, d, r => by
    unfold Dev.activate
    dsimp only
    split
    · exact d.banksOnly_bankUpd _ _
    · refine Dev.banksOnly_trans (Dev.banksOnly_trans (d.banksOnly_bankUpd _ _) (Dev.banksOnly_foldl (fun e q => ?_) _ _)) (Dev.banksOnly_bankUpd _ _ _)
      obtain ⟨b, hb⟩ := Dev.banksOnly_activate base rows k n e q
      exact ⟨b, by rw [Dev.bump_mem, hb]⟩

theorem Dev.banksOnly_dramAccess (d : Dev) (u off : Nat) : d.banksOnly (d.dramAccess u off) := by
  unfold Dev.dramAccess
  dsimp only
  split <;> split
  · exact Dev.banksOnly_trans (d.banksOnly_bankUpd _ _) (Dev.banksOnly_bankUpd _ _ _)
  · exact Dev.banksOnly_trans (Dev.banksOnly_trans (d.banksOnly_activate _ _ _ _ _) (Dev.banksOnly_bankUpd _ _ _)) (Dev.banksOnly_bankUpd _ _ _)
  · exact d.banksOnly_bankUpd _ _
  · exact Dev.banksOnly_trans (d.banksOnly_activate _ _ _ _ _) (Dev.banksOnly_bankUpd _ _ _)

theorem Dev.memUnit_memUnitUpd (d : Dev) (u : Nat) (f : MemUnit → MemUnit) : (d.memUnitUpd u f).memUnit u = f (d.memUnit u) := by
  simp only [Dev.memUnit, Dev.memUnitUpd, tabGet_upd, if_true]

theorem Dev.bank_bankUpd (d : Dev) (k : Nat) (f : DBank → DBank) : (d.bankUpd k f).bank k = f (d.bank k) := by
  simp only [Dev.bank, Dev.bankUpd, tabGet_upd, if_true]

theorem Dev.bank_bankUpd_ne (d : Dev) {j k : Nat} (f : DBank → DBank) (h : j ≠ k) : (d.bankUpd k f).bank j = d.bank j := by
  simp only [Dev.bank, Dev.bankUpd, tabGet_upd, if_neg h]

/-- A row that no frame of a query lies in leaves its unit as it was (R367). -/
theorem Dev.clearRow_unused {d : Dev} {u : Nat} (fs : List Nat) (h : d.backed u = []) :
    (d.clearRow u fs).memUnit u = d.memUnit u ∧ (d.clearRow u fs).mem.entries = d.mem.entries ∧ (d.clearRow u fs).mem.due = d.mem.due := by
  have hnone : fs.filter (d.backed u).contains = [] := by rw [h]; exact List.filter_eq_nil_iff.2 (fun _ _ => by simp)
  unfold Dev.clearRow
  dsimp only
  rw [hnone]
  exact ⟨by rw [List.foldl_nil, Dev.memUnit_memUnitUpd, Dev.memUnit_memUnitUpd], rfl, rfl⟩

/-- A repair of a row that is due and in no use, where the device has a spare row (R367). -/
theorem Dev.rowRepair_spec {d : Dev} {u off : Nat} (hdue : (u, off) ∈ d.mem.due) (hfree : d.backed u = []) :
    let r := d.rowRepair u off true
    (u, off) ∉ r.mem.due ∧ (r.memUnit u).repaired = (d.memUnit u).repaired + 1 ∧
      (r.memUnit u).left = (if (d.memUnit u).left = 0xFFFF then 0xFFFF else (d.memUnit u).left - 1) ∧ (r.memUnit u).retired = (d.memUnit u).retired := by
  obtain ⟨hunit, hent, hdues⟩ := Dev.clearRow_unused (d.rowFrames u off) hfree
  have hback : (d.clearRow u (d.rowFrames u off)).backed u = [] := by rw [← hfree, Dev.backed, hent, Dev.backed]
  have hany : (d.rowFrames u off).any ((d.clearRow u (d.rowFrames u off)).backed u).contains = false := by
    rw [hback]; exact List.any_eq_false.2 (fun _ _ => by simp)
  intro r
  have hmem : r.mem = { ((d.clearRow u (d.rowFrames u off)).memUnitUpd u (fun m =>
      { m with repaired := m.repaired + 1, left := if m.left = 0xFFFF then m.left else m.left - 1 })).mem with
      due := d.mem.due.filter (· != (u, off)) } := by
    simp only [r, Dev.rowRepair, hany, List.contains_iff_mem.2 hdue, Bool.not_true, Bool.false_eq_true, if_false, if_true, Dev.countRepair_mem]
    split <;> simp only [Dev.recovered_mem, Dev.memUnitUpd, hdues]
  simp only [Dev.memUnit, hmem]
  refine ⟨by simp [List.mem_filter], ?_⟩
  simp only [Dev.memUnitUpd, tabGet_upd, if_true]
  change (Dev.memUnit _ u).repaired + 1 = _ ∧ (if (Dev.memUnit _ u).left = _ then (Dev.memUnit _ u).left else (Dev.memUnit _ u).left - 1) = _ ∧ (Dev.memUnit _ u).retired = _
  rw [hunit]
  refine ⟨rfl, ?_, rfl⟩
  change (if (d.memUnit u).left = _ then _ else _) = if (d.memUnit u).left = _ then _ else _
  split
  · assumption
  · rfl

/-- A patrol step without errors moves on by the lines it read (R368). -/
theorem Dev.patrol_spec {d : Dev} {u lines : Nat} (hup : (d.memUnit u).state = 2) (hgb : (d.memUnit u).gb ≠ 0)
    (hon : d.regField (memRegs u (d.decodeLine u ((d.memUnit u).patrol * 128)) + 0xC) 7 0 ≠ 0) :
    (d.patrol u lines []).memUnit u = { d.memUnit u with patrol := ((d.memUnit u).patrol + lines) % (d.memUnit u).lines } ∧
      (d.patrol u lines []).mem.bytes = d.mem.bytes := by
  have hlines : (d.memUnit u).lines ≠ 0 := by unfold MemUnit.lines; omega
  have hrun : d.patrol u lines [] =
      (d.readOver u (d.memUnit u).patrol lines).memUnitUpd u (fun m => { m with patrol := (m.patrol + lines) % (d.memUnit u).lines }) :=
    if_neg (by simp only [hup, hon, hlines, ne_eq, not_true_eq_false, or_self, not_false_eq_true])
  obtain ⟨b, hb⟩ : d.banksOnly (d.readOver u (d.memUnit u).patrol lines) :=
    Dev.banksOnly_foldl (fun e i => e.banksOnly_dramAccess _ _) _ d
  rw [hrun, Dev.memUnit_memUnitUpd]
  refine ⟨?_, by rw [Dev.memUnitUpd_bytes, hb]⟩
  have : (d.readOver u (d.memUnit u).patrol lines).memUnit u = d.memUnit u := by rw [Dev.memUnit, hb]; rfl
  rw [this]

section
variable {α : Type}

theorem tabGet_map {a : α} {f : Nat → α → α} (hf : ∀ k, f k a = a) (t : Tab α) (k : Nat) :
    tabGet a (t.map (fun p => (p.1, f p.1 p.2))) k = f k (tabGet a t k) := by
  induction t with
  | nil => exact (hf k).symm
  | cons p t ih =>
    rw [List.map_cons, tabGet, tabGet]
    by_cases h : p.1 = k
    · rw [if_pos h, if_pos h, h]
    · rw [if_neg h, if_neg h, ih]

/-- Entries that hold the default are as good as none. -/
theorem tabGet_filter_default [DecidableEq α] {a : α} {t : Tab α} (hd : t.Pairwise (fun p q => p.1 < q.1)) (k : Nat) :
    tabGet a (t.filter (fun p => p.2 != a)) k = tabGet a t k := by
  induction t with
  | nil => rfl
  | cons p t ih =>
    obtain ⟨hp, ht⟩ := List.pairwise_cons.1 hd
    by_cases ha : p.2 = a
    · rw [List.filter_cons_of_neg (by simpa using ha), ih ht, tabGet]
      split
      next hk => rw [ha, tabGet_absent _ _ _ (fun q hq => by have := hp q hq; omega)]
      · rfl
    · rw [List.filter_cons_of_pos (by simpa using ha), tabGet, tabGet, ih ht]

end

/-- The end of a refresh window forgets the unit's activations (R369). -/
theorem Dev.windowEnd_bank {d : Dev} (u k : Nat) (hwf : tabWf {} d.mem.banks = true) :
    (d.windowEnd u).bank k = if k / 2 ^ 16 = u then { d.bank k with acts := [] } else d.bank k := by
  have hmap : (d.mem.banks.map (fun b => if b.1 / 2 ^ 16 = u then (b.1, { b.2 with acts := [] }) else b)) =
      d.mem.banks.map (fun b => (b.1, if b.1 / 2 ^ 16 = u then { b.2 with acts := [] } else b.2)) :=
    List.map_congr_left (fun b _ => by split <;> rfl)
  have hsort : (d.mem.banks.map (fun b => (b.1, if b.1 / 2 ^ 16 = u then { b.2 with acts := [] } else b.2))).Pairwise (fun p q => p.1 < q.1) :=
    List.pairwise_map.2 (tabWf_distinct hwf)
  unfold Dev.windowEnd Dev.bank
  dsimp only
  rw [hmap, tabGet_filter_default hsort]
  exact tabGet_map (f := fun k (b : DBank) => if k / 2 ^ 16 = u then { b with acts := [] } else b) (fun k => by split <;> rfl) _ _

/-- Settles O25: each timer's command, its one change by the lemma about it. -/
theorem dramTimers : Obligations.DramTimers := by
  unfold Obligations.DramTimers
  refine ⟨fun s t u off hdue hfree => gives_run (f := fun d => d.ownWork.rowRepair u off true) rfl ?repair,
    fun s t u lines hup hgb hon => effects_run (f := fun d => d.ownWork.patrol u lines []) rfl ?patrol,
    fun s t u k hwf => gives_run (f := fun d => d.windowEnd u) rfl ?window,
    fun s t u off => gives_run (f := fun d => d.rowIdle u off) rfl ?idle,
    fun s t u hup => gives_run (f := fun d => d.zqRun u) rfl ?zq, fun s t u hup => gives_run (f := fun d => d.dqsRun u) rfl ?dqs,
    fun s t u off rfm => gives_run (f := fun d => d.dramRefresh u off rfm) rfl ?refresh⟩
  case repair => exact Dev.rowRepair_spec (d := (s.dev.at t).ownWork) hdue hfree
  case patrol => exact Dev.patrol_spec (d := (s.dev.at t).ownWork) hup hgb hon
  case window => exact Dev.windowEnd_bank (d := s.dev.at t) u k hwf
  case idle => exact ⟨(s.dev.at t).bank_bankUpd _ _, fun k hk => (s.dev.at t).bank_bankUpd_ne _ hk⟩
  case zq => exact ((s.dev.at t).memUnit_memUnitUpd _ _).trans (if_pos hup)
  case dqs => exact ((s.dev.at t).memUnit_memUnitUpd _ _).trans (if_pos hup)
  case refresh =>
    refine ⟨?_, ?_, ?_⟩
    · rw [Dev.dramRefresh, Dev.bank, Dev.bump_mem]
      exact congrArg DBank.row ((s.dev.at t).bank_bankUpd (bankNo u (s.dev.decodeLine u off)) (fun b => { b with row := none, hits := 0 }))
    · rw [Dev.dramRefresh, Dev.memUnit, Dev.bump_mem]
      exact congrArg MemUnit.phase (((s.dev.at t).rowIdle u off).memUnit_memUnitUpd u _)
    · rw [Dev.dramRefresh, Dev.bump_mem]
      rfl

end Sys2Proof.Machine

/-! PROOF. Scratchpad banks (12_memory.md): retention, wake and a spare column. -/

namespace Sys2Proof.Machine

/-- An unheld bank of a hearth that lets its banks rest enters retention (R376). -/
theorem Dev.retain_spec {d : Dev} {h b : Nat} (hh : h < 36) (hb : b < 12) (hawake : bitOf (tabGet 0 d.mem.retained h) b = false)
    (hheld : d.heldBanks h ≤ b) (hon : d.regField (0x02100200 + 0x1000 * h) 15 0 ≠ 0) :
    tabGet 0 (d.retain h b).mem.retained h = tabGet 0 d.mem.retained h + 2 ^ b := by
  have hrun : d.retain h b = ({ d with mem := { d.mem with retained := tabSet 0 d.mem.retained h (tabGet 0 d.mem.retained h + 2 ^ b) } } : Dev).spmStatus h := by
    refine if_neg ?_
    have h36 : hearthCount = 36 := rfl
    simp only [hawake, h36, hon, Bool.or_eq_true, decide_eq_true_eq, beq_iff_eq, or_false, Bool.false_eq_true]
    omega
  rw [hrun]
  exact (tabGet_set _ _ _ _ _).trans (if_pos rfl)

/-- A bank that wakes is counted (R376). -/
theorem Dev.bankWake_spec {d : Dev} {h b : Nat} (hasleep : bitOf (tabGet 0 d.mem.retained h) b = true) :
    tabGet 0 (d.bankWake h b).mem.retained h = tabGet 0 d.mem.retained h - 2 ^ b ∧
      (d.bankWake h b).regN (0x02100214 + 0x1000 * h) = satAdd 32 (d.regN (0x02100214 + 0x1000 * h)) 1 := by
  have hrun : d.bankWake h b = (({ d with mem := { d.mem with retained := tabSet 0 d.mem.retained h (tabGet 0 d.mem.retained h - 2 ^ b) } } : Dev).spmStatus h).bump
      (0x02100214 + 0x1000 * h) 1 := if_neg (by simp [hasleep])
  rw [hrun]
  constructor
  · rw [Dev.bump_mem]
    exact (tabGet_set _ _ _ _ _).trans (if_pos rfl)
  · rw [Dev.regN_bump_self]
    refine congrArg (satAdd 32 · 1) (congrArg BitVec.toNat ?_)
    exact (Dev.reg_setReg_at _ _ _ _).trans (if_neg (by omega))

theorem Dev.recover_recovers (d : Dev) (c u : Nat) : (d.recover c u).recovers c u = true := by
  unfold Dev.recover
  split
  · assumption
  · simp [Dev.recovers]

/-- A bank of an idle hearth takes its next spare column, and the hearth's domain recovers (R378). -/
theorem Dev.columnRepair_spec {d : Dev} {h b : Nat} (hh : h < 36) (hb : b < 12) (hidle : (d.hearth h).running = none)
    (hup : (d.hearth h).quenched = false) (hspare : d.spare h b < 2) :
    let r := d.columnRepair h b
    r.spare h b = d.spare h b + 1 ∧ r.recovers 1 h = true ∧ (r.hearth h).quenched = false ∧ r.health.repairSeq = d.health.repairSeq + 1 := by
  have h36 : hearthCount = 36 := rfl
  have hrun : d.columnRepair h b = (((({ d with mem := { d.mem with spares := tabSet 0 d.mem.spares (12 * h + b) (d.spare h b + 1) } } : Dev).spmRepair h).recover 1 h).countRepair
      2).repairWritten := by
    have hin : (hearthCount ≤ h || 12 ≤ b || (d.hearth h).quenched) = false := by
      simp only [hup, h36, Bool.or_false, Bool.or_eq_false_iff, decide_eq_false_iff_not]; omega
    rw [Dev.columnRepair, hin, hidle, if_neg Bool.false_ne_true, if_neg (by simp), if_pos hspare]
  generalize hd1 : ({ d with mem := { d.mem with spares := tabSet 0 d.mem.spares (12 * h + b) (d.spare h b + 1) } } : Dev).spmRepair h = d1 at hrun
  intro r
  simp only [r, hrun]
  refine ⟨?_, ?_, ?_, ?_⟩
  · rw [Dev.spare, Dev.repairWritten, Dev.countRepair, Dev.recover_mem, ← hd1]
    simp only [Dev.spmRepair, Dev.setReg, tabGet_set, if_true]
  · exact d1.recover_recovers 1 h
  · have hqry : (((d1.recover 1 h).countRepair 2).repairWritten).qry = d.qry := by
      rw [Dev.repairWritten, Dev.countRepair, Dev.recover_qry, ← hd1, Dev.spmRepair, Dev.setReg]
    rw [Dev.hearth, hqry]
    exact hup
  · have hseq : (d1.recover 1 h).health.repairSeq = d1.health.repairSeq := by unfold Dev.recover; split <;> rfl
    rw [Dev.repairWritten, Dev.countRepair, hseq, ← hd1]
    simp only [Dev.spmRepair, Dev.setReg]

/-- Settles O26: the three commands, each by the lemma about its work on the bank. -/
theorem scratchpadBanks : Obligations.ScratchpadBanks := by
  unfold Obligations.ScratchpadBanks
  refine ⟨fun s t h b hh hb hawake hheld hon => gives_run (f := fun d => d.retain h b) rfl ?retain,
    fun s t h b hasleep => gives_run (f := fun d => d.bankWake h b) rfl ?wake,
    fun s t h b hh hb hidle hup hspare => gives_run (f := fun d => d.ifQuenched h (fun d => d.columnRepair h b)) rfl ?column⟩
  case retain => exact Dev.retain_spec (d := s.dev.at t) hh hb hawake hheld hon
  case wake => exact Dev.bankWake_spec (d := s.dev.at t) hasleep
  case column =>
    have hcol := Dev.columnRepair_spec (d := s.dev.at t) hh hb hidle hup hspare
    have hrun : (s.dev.at t).ifQuenched h (fun d => d.columnRepair h b) = (s.dev.at t).columnRepair h b :=
      if_neg (by rw [hcol.2.2.1]; simp)
    rw [hrun]
    exact hcol

end Sys2Proof.Machine

/-! PROOF. The system cache (12_memory.md): an access to a page that is mapped, and what a line that is read or written leaves. -/

namespace Sys2Proof.Machine

/-- The bytes' place in its unit's frame of an address whose page is mapped. -/
def XlEntry.off (e : XlEntry) (dva : Nat) : Nat := e.frame * frameBytes + dva % frameBytes

/-- The line of an address whose page is mapped. -/
def XlEntry.line (e : XlEntry) (dva : Nat) : Nat := lineNo (4 * e.tier + e.unit) (e.off dva / 128 * 128)

/-- A request to a page that is mapped and may be so used goes on to its frame (R362). -/
theorem Dev.memRequest_mapped {d : Dev} {ctx dva : Nat} {e : XlEntry} {w : Bool} (he : d.xlEntry ctx (dva / frameBytes) = some e)
    (hw : (w && !e.writable) = false) (f : Dev → XlEntry → Nat → Dev) : d.memRequest ctx dva w f = f d e (e.off dva) := by
  have : d.translate ctx dva w = (.ok e (e.off dva), d) := by
    simp only [Dev.translate, he, hw, Bool.false_eq_true, if_false]
    rfl
  rw [Dev.memRequest, this]

/-- No slice has as many ways fenced as take the slice out of use (R385). -/
def Dev.unfenced (d : Dev) : Prop := ∀ k ∈ d.mem.slices, bitCount 16 (tabGet 0 d.mem.fenced k) < 5

theorem Dev.unfenced_congr {d e : Dev} (hs : e.mem.slices = d.mem.slices) (hf : e.mem.fenced = d.mem.fenced) (h : d.unfenced) : e.unfenced := by
  rw [Dev.unfenced, hs, hf]
  exact h

theorem Dev.fenceSlices_none {d : Dev} (h : d.unfenced) : d.fenceSlices = d := by
  have hnone : d.mem.slices.filter (fun k => decide (5 ≤ bitCount 16 (tabGet 0 d.mem.fenced k))) = [] :=
    List.filter_eq_nil_iff.2 (fun k hk => by have := h k hk; rw [decide_eq_true_eq]; omega)
  rw [Dev.fenceSlices, hnone, List.foldl_nil]

/-- A line that a way holds is read there (R382). -/
theorem Dev.readLine_hit {d : Dev} {a sl st w : Nat} {l : CLine} (hp : d.placeLine a = (sl, st)) (hf : (d.cset sl st).find a = some w)
    (hw : (d.cset sl st).way w = some l) (lock : Nat) (na : Bool) :
    d.readLine a lock na .none = ((d.csetUpd sl st (fun k => k.use w)).count64 0x02700008 1, l.data) := by
  simp only [Dev.readLine, hp, hf, hw]

/-- A line in no way and no victim buffer, of a frame kept out of the cache, is read in memory (R382). -/
theorem Dev.readLine_miss {d : Dev} {a sl st : Nat} (hp : d.placeLine a = (sl, st)) (hf : (d.cset sl st).find a = none) (hv : d.victims sl = [])
    (lock : Nat) :
    d.readLine a lock true .none = ((d.count64 0x02700010 1).dramAccess (lineUnit a) (lineOff a), d.memRead (lineUnit a) (lineOff a) 128) := by
  simp only [Dev.readLine, hp, hf, hv, List.find?_nil, Dev.missLine, if_true]

theorem Dev.sets_dramAccess (d : Dev) (u off : Nat) : (d.dramAccess u off).mem.sets = d.mem.sets := by
  obtain ⟨b, hb⟩ := d.banksOnly_dramAccess u off
  rw [hb]

/-- No poison is marked on what is read. -/
def Dev.unpoisoned (d : Dev) : Dev := { d with mem := { d.mem with poison := false } }

/-- What a read answers. -/
def Dev.responds (d : Dev) (r : Nat × Bytes) : Dev := { d with mem := { d.mem with resp := r } }

theorem Dev.responds_resp (d : Dev) (r : Nat × Bytes) : (d.responds r).mem.resp = r := (rfl)
theorem Dev.responds_bytes (d : Dev) (r : Nat × Bytes) : (d.responds r).mem.bytes = d.mem.bytes := (rfl)
theorem Dev.responds_sets (d : Dev) (r : Nat × Bytes) : (d.responds r).mem.sets = d.mem.sets := (rfl)
theorem Dev.responds_cset (d : Dev) (r : Nat × Bytes) (sl st : Nat) : (d.responds r).cset sl st = d.cset sl st := (rfl)

/-- A read once its page is known. -/
def Dev.readMapped (d : Dev) (e : XlEntry) (off : Nat) : Dev :=
  let r := d.unpoisoned.readLine (lineNo (4 * e.tier + e.unit) (off / 128 * 128)) e.lock e.noAlloc .none
  (r.1.responds (off % 128 / 32, r.2)).fenceSlices

theorem Dev.cacheRead_eq (d : Dev) (ctx dva : Nat) : d.cacheRead ctx dva .none = d.memRequest ctx dva false Dev.readMapped := (rfl)

theorem Dev.fenceSlices_responds {d : Dev} (h : d.unfenced) (r : Nat × Bytes) : (d.responds r).fenceSlices = d.responds r :=
  Dev.fenceSlices_none (Dev.unfenced_congr (d := d) rfl rfl h)

/-- A read of a mapped address answers the line (R382). -/
theorem Dev.cacheRead_mapped {d : Dev} {ctx dva : Nat} {e : XlEntry} {b : Bytes} {g : Dev} (he : d.xlEntry ctx (dva / frameBytes) = some e)
    (hr : d.unpoisoned.readLine (e.line dva) e.lock e.noAlloc .none = (g, b))
    (hs : g.unfenced) :
    d.cacheRead ctx dva .none = g.responds (e.off dva % 128 / 32, b) := by
  rw [Dev.cacheRead_eq, Dev.memRequest_mapped he rfl, Dev.readMapped]
  rw [XlEntry.line] at hr
  rw [hr]
  exact Dev.fenceSlices_responds hs _

/-- A write to a line goes to memory, and keeps in step the copy that a way holds (R382). -/
theorem Dev.writeLine_bytes (d : Dev) (a o : Nat) (b : Bytes) :
    (d.writeLine a o b).mem.bytes = tabSetBytes d.mem.bytes (memKey (lineUnit a) (lineOff a + o)) b := by
  unfold Dev.writeLine
  dsimp only
  rw [Dev.setVictims_bytes]
  split <;> simp only [Dev.csetUpd_bytes, Dev.dramAccess_bytes] <;> rfl

theorem Dev.cset_csetUpd (d : Dev) (sl st : Nat) (f : CSet → CSet) : (d.csetUpd sl st f).cset sl st = f (d.cset sl st) := by
  simp only [Dev.cset, Dev.csetUpd, tabGet_upd, if_true]

/-- A line that a way holds changed in place. -/
def CSet.putWay (c : CSet) (w : Nat) (f : CLine → CLine) : CSet :=
  match c.way w with | some l => { c with ways := tabSet none c.ways w (some (f l)) } | none => c

theorem CSet.way_putWay {c : CSet} {w : Nat} {l : CLine} (h : c.way w = some l) (f : CLine → CLine) : (c.putWay w f).way w = some (f l) := by
  rw [CSet.putWay, h]
  simp only [CSet.way, tabGet_set, if_true]

theorem Dev.cset_setVictims (d : Dev) (k : Nat) (l : List CLine) (sl st : Nat) : (d.setVictims k l).cset sl st = d.cset sl st := (rfl)

theorem Dev.writeLine_way {d : Dev} {a sl st w : Nat} {l : CLine} (hp : d.placeLine a = (sl, st)) (hf : (d.cset sl st).find a = some w)
    (hw : (d.cset sl st).way w = some l) (o : Nat) (b : Bytes) :
    ((d.writeLine a o b).cset sl st).way w = some { l with data := putAt l.data o b } := by
  generalize hd1 : (d.memWrite (lineUnit a) (lineOff a + o) b).dramAccess (lineUnit a) (lineOff a) = d1
  have hset : d1.cset sl st = d.cset sl st := by rw [Dev.cset, ← hd1, Dev.sets_dramAccess]; rfl
  have hput : ((d.writeLine a o b).cset sl st) = (d.cset sl st).putWay w (fun l => { l with data := putAt l.data o b }) := by
    simp only [Dev.writeLine, hp, hd1, hset, hf]
    rw [← hset]
    rw [Dev.cset_setVictims, Dev.cset_csetUpd]
    rfl
  rw [hput]
  exact CSet.way_putWay hw _

theorem Dev.zeroLine_bytes (d : Dev) (a lock : Nat) :
    (d.zeroLine a lock).mem.bytes = tabSetBytes d.mem.bytes (memKey (lineUnit a) (lineOff a)) (zeros 128) := by
  unfold Dev.zeroLine
  dsimp only
  split
  · exact d.writeLine_bytes a 0 _
  · rw [Dev.install_bytes, Dev.setVictims_bytes]
    exact d.writeLine_bytes a 0 _

theorem XlEntry.off_eq (e : XlEntry) (dva : Nat) : e.frame * frameBytes + dva % frameBytes = e.off dva := (rfl)

theorem XlEntry.line_eq (e : XlEntry) (dva : Nat) : lineNo (4 * e.tier + e.unit) (e.off dva / 128 * 128) = e.line dva := (rfl)

theorem zeros_getD (n i : Nat) : (zeros n).getD i 0 = 0 := by
  rw [zeros, List.getD_eq_getElem?_getD, List.getElem?_replicate]
  split <;> rfl

/-- Settles O27: the mapped page takes the request to its line, and the line's lemma says what is read or written. -/
theorem systemCache : Obligations.SystemCache := by
  unfold Obligations.SystemCache
  simp only [XlEntry.off_eq, XlEntry.line_eq]
  refine ⟨fun s t ctx dva e sl st w l he hp hf hw hs => effects_run (f := fun d => d.cacheRead ctx dva .none) rfl ?hit,
    fun s t ctx dva e sl st he hna hp hf hv hs => effects_run (f := fun d => d.cacheRead ctx dva .none) rfl ?miss,
    fun s t ctx dva b e sl st a he hwr ha hp hb => effects_run (f := fun d => d.cacheWrite ctx dva b) rfl ?write,
    fun s t ctx dva e a i he hwr ha hi => effects_run (f := fun d => d.cacheZero ctx dva) rfl ?zero⟩
  case hit =>
    have hr := Dev.readLine_hit (d := (s.dev.at t).unpoisoned) hp hf hw e.lock e.noAlloc
    have hmem := Dev.count64_mem ((s.dev.at t).unpoisoned.csetUpd sl st (fun k => k.use w)) 0x02700008 1
    rw [Dev.cacheRead_mapped (d := s.dev.at t) he hr (Dev.unfenced_congr (d := s.dev) (by rw [hmem]; rfl) (by rw [hmem]; rfl) hs)]
    have hsets := congrArg (fun m => tabGet {} (MemSt.sets m) (2048 * sl + st)) hmem
    have hbytes := congrArg MemSt.bytes hmem
    rw [Dev.responds_resp, Dev.responds_cset, Dev.responds_bytes]
    exact ⟨rfl, hsets.trans ((s.dev.at t).unpoisoned.cset_csetUpd sl st _), hbytes⟩
  case miss =>
    have hr := Dev.readLine_miss (d := (s.dev.at t).unpoisoned) hp hf hv e.lock
    rw [← hna] at hr
    obtain ⟨c, hc⟩ := Dev.banksOnly_dramAccess ((s.dev.at t).unpoisoned.count64 0x02700010 1) (lineUnit (e.line dva)) (lineOff (e.line dva))
    rw [Dev.count64_mem] at hc
    have hsl := congrArg MemSt.slices hc
    have hfe := congrArg MemSt.fenced hc
    rw [Dev.cacheRead_mapped (d := s.dev.at t) he hr (Dev.unfenced_congr (d := s.dev) hsl hfe hs)]
    have hsets := congrArg MemSt.sets hc
    have hbytes := congrArg MemSt.bytes hc
    rw [Dev.responds_resp, Dev.responds_sets, Dev.responds_bytes]
    exact ⟨rfl, hsets, hbytes⟩
  case write =>
    subst ha
    have hrun : (s.dev.at t).cacheWrite ctx dva b = (s.dev.at t).writeLine (e.line dva) (e.off dva % 128) b := by
      rw [Dev.cacheWrite, Dev.memRequest_mapped (d := s.dev.at t) he (by simp [hwr]), List.take_of_length_le (by omega)]
      rfl
    rw [hrun, Dev.writeLine_bytes]
    refine ⟨fun i hi => ?_, fun k hk => ?_, fun w l hf hw => Dev.writeLine_way (d := s.dev.at t) hp hf hw _ b⟩
    · refine (tabGet_setBytes _ _ _ _).trans ((if_pos ?_).trans (congrArg (b.getD · 0) ?_)) <;> simp only [memKey] <;> omega
    · refine (tabGet_setBytes _ _ _ _).trans (if_neg ?_)
      omega
  case zero =>
    subst ha
    have hrun : (s.dev.at t).cacheZero ctx dva = (s.dev.at t).zeroLine (e.line dva) e.lock := by
      rw [Dev.cacheZero, Dev.memRequest_mapped (d := s.dev.at t) he (by simp [hwr])]
      rfl
    rw [hrun, Dev.zeroLine_bytes]
    refine (tabGet_setBytes _ _ _ _).trans ((if_pos ?_).trans ?_)
    · simp only [memKey, zeros, List.length_replicate]; omega
    · exact zeros_getD _ _

end Sys2Proof.Machine

/-! PROOF. Mailboxes (15_mailbox.md): a request that nothing refuses is taken and served, and an answer is what the host reads. -/

namespace Sys2Proof.Machine

/-! ### A request is taken -/

/-- The mailbox holds a request in hand. -/
def Dev.busied (d : Dev) (x : Nat) (r : MbReq) : Dev := d.mboxUpd x (fun m => { m with busy := some r.seq })

theorem Dev.mbox_busied (d : Dev) (x : Nat) (r : MbReq) : (d.busied x r).mbox x = { d.mbox x with busy := some r.seq } := d.mbox_mboxUpd x _

theorem Dev.mbox_of_mail {d e : Dev} (h : e.mail = d.mail) (x : Nat) : e.mbox x = d.mbox x := by rw [Dev.mbox, h, Dev.mbox]

/-- What refuses a request of the session looks at the session alone. -/
theorem Dev.mbReason_congr {d e : Dev} {x : Nat} (h : (e.mbox x).session = (d.mbox x).session) (op : Nat) (r : MbReq) :
    e.mbReason x op r = d.mbReason x op r := by simp only [Dev.mbReason, h]

/-- A request to a mailbox that is free and ready is served (R451, R452). -/
theorem Dev.mbRun_free {d : Dev} {x : Nat} (hr : d.mbReached x = true) (hb : (d.mbox x).busy = none) (hy : (d.mbox x).ready = true)
    (hh : d.sec.halted = false) (hk : d.start.banked = false) (op : Nat) (r : MbReq) :
    d.mbRun x op r = if d.mbReason x op r = 0 then (d.busied x r).mbDo x op r else (d.busied x r).mbRefuse x (d.mbReason x op r) := by
  have hreason : (d.busied x r).mbReason x op r = d.mbReason x op r := Dev.mbReason_congr (by rw [Dev.mbox_busied]) op r
  have hrun : d.mbRun x op r = d.mbServe x op r := by simp [Dev.mbRun, hr, hb, hy, hh]
  have hbank : (d.busied x r).bankedRefusal op r = none := if_pos (by rw [Bool.not_eq_true', ← hk]; rfl)
  rw [hrun, Dev.mbServe]
  change (match (d.busied x r).bankedRefusal op r with | some st => _ | none => _) = _
  rw [hbank]
  change (match (d.busied x r).mbReason x op r with | 0 => _ | n => _) = _
  rw [hreason]
  split
  next h0 => rw [if_pos h0]; rfl
  next h0 => rw [if_neg h0]; rfl

/-- What a request that nothing refuses gives. -/
theorem effects_request {i : Instr} {s : State} {t x op : Nat} {r : MbReq} {P : Dev → Prop}
    (he : exec i s = .next (s.run t (fun d => (d.mbRun x op r).tidy))) (ht : s.dev.takes x op r)
    (h : P (((s.dev.at t).busied x r).mbDo x op r)) : Effects i s P := by
  obtain ⟨hr, hb, hy, hh, hk, h0⟩ := ht
  refine effects_run he ?_
  rw [Dev.mbRun_free (d := s.dev.at t) hr hb hy hh hk op r, if_pos (show (s.dev.at t).mbReason x op r = 0 from h0)]
  exact h

/-! ### The answer -/

section
variable {d : Dev} {x : Nat} {r : MbReq} (hb : (d.mbox x).busy = some r.seq) (status detail flags handle : Nat) (b : Bytes)
include hb

theorem Dev.mbox_mbAnswer : (d.mbAnswer x status detail flags handle b).mbox x = { d.mbox x with
    busy := none, doneSeq := r.seq
    resp := natLE 2 status ++ natLE 2 r.seq ++ natLE 2 b.length ++ natLE 2 flags ++ natLE 4 detail ++ natLE 4 handle ++ b } := by
  unfold Dev.mbAnswer
  rw [hb]
  exact (Dev.mbox_of_mail (Dev.mboxVector_keeps _ x).1 x).trans (d.mbox_mboxUpd x _)

theorem Dev.answers_mbAnswer : (d.mbAnswer x status detail flags handle b).answers x r status detail flags handle b := by
  have h := Dev.mbox_mbAnswer hb status detail flags handle b
  exact ⟨by rw [h], by rw [h], by rw [h]⟩

end

theorem Dev.mail_mbAnswer {α : Type} (P : MailSt → α) (hP : ∀ m b, P { m with boxes := b } = P m) (d : Dev) (x status detail flags handle : Nat) (b : Bytes) :
    P (d.mbAnswer x status detail flags handle b).mail = P d.mail :=
  Dev.mbAnswer_keep (fun d => P d.mail) (fun d x f => hP d.mail _) (fun d x v => by rw [Dev.vector_mail]) d x status detail flags handle b

/-! ### Sessions, events and long operations -/

/-- The identity record tells nothing of the mailboxes. -/
theorem Dev.identity_mboxUpd (d : Dev) (y : Nat) (f : Mbox → Mbox) (x : Nat) : (d.mboxUpd y f).identity x = d.identity x := (rfl)

theorem zeros_length (n : Nat) : (zeros n).length = n := List.length_replicate ..

theorem fitTo_length (n : Nat) (b : Bytes) : (fitTo n b).length = n := by
  rw [fitTo, List.length_append, List.length_take, zeros_length]
  omega

theorem Dev.identity_length (d : Dev) (x : Nat) : (d.identity x).length = 96 := by
  unfold Dev.identity
  simp only [List.length_append, natLE_length, zeros_length, fitTo_length]

/-- A session is opened at the highest minor that both speak (R18, R456). -/
theorem Dev.mbOpen_shared {d : Dev} {x : Nat} {r : MbReq} (hb : (d.mbox x).busy = some r.seq) (hk : d.start.banked = false)
    (h2 : fieldAt r.payload 0 1 = 2) (hlo : fieldAt r.payload 1 1 ≤ d.mail.minor) :
    ((d.mbOpen x r.payload).mbox x).session = some (min d.mail.minor (fieldAt r.payload 2 1)) ∧
      (d.mbOpen x r.payload).answers x r 0 0 0 0 (d.sessionReply x 2 (min d.mail.minor (fieldAt r.payload 2 1)) d.mail.minor) := by
  have hopen : d.mbOpen x r.payload = (d.mboxUpd x (fun m => { m with session := some (min d.mail.minor (fieldAt r.payload 2 1)) })).mbOk x
      (d.sessionReply x 2 (min d.mail.minor (fieldAt r.payload 2 1)) d.mail.minor) := by
    simp only [Dev.mbOpen, hk, h2, Bool.false_eq_true, if_false, ne_eq, not_true_eq_false, false_or]
    exact if_neg (by omega)
  have hbusy : ((d.mboxUpd x (fun m => { m with session := some (min d.mail.minor (fieldAt r.payload 2 1)) })).mbox x).busy = some r.seq := by
    rw [Dev.mbox_mboxUpd]; exact hb
  rw [hopen]
  refine ⟨?_, Dev.answers_mbAnswer hbusy ..⟩
  rw [Dev.mbOk, Dev.mbox_mbAnswer hbusy, Dev.mbox_mboxUpd]

/-- A host whose lowest minor is above the device's is refused with VERSION (R18). -/
theorem Dev.mbOpen_above {d : Dev} {x : Nat} {r : MbReq} (hb : (d.mbox x).busy = some r.seq) (hk : d.start.banked = false)
    (hlo : d.mail.minor < fieldAt r.payload 1 1) :
    ((d.mbOpen x r.payload).mbox x).session = (d.mbox x).session ∧
      ((d.mbOpen x r.payload).mbox x).resp.take 12 = natLE 2 0x2001 ++ natLE 2 r.seq ++ natLE 2 104 ++ natLE 2 0 ++ natLE 4 3 := by
  have hopen : d.mbOpen x r.payload = d.mbAnswer x 0x2001 3 0 0 (natLE 2 0 ++ natLE 1 0 ++ natLE 1 d.mail.minor ++ zeros 4 ++ d.identity x) := by
    simp only [Dev.mbOpen, hk, Bool.false_eq_true, if_false]
    exact if_pos (Or.inr hlo)
  rw [hopen, Dev.mbox_mbAnswer hb]
  refine ⟨rfl, ?_⟩
  have hlen : (natLE 2 0 ++ natLE 1 0 ++ natLE 1 d.mail.minor ++ zeros 4 ++ d.identity x).length = 104 := by
    simp only [List.length_append, natLE_length, zeros_length, Dev.identity_length]
  rw [hlen, List.append_assoc, List.take_left']
  simp only [List.length_append, natLE_length]

theorem Dev.mbClose_spec {d : Dev} {x : Nat} {r : MbReq} (hb : (d.mbox x).busy = some r.seq) :
    ((d.mbClose x).mbox x).session = none ∧ (d.mbClose x).answers x r 0 0 0 0 [] := by
  have hbusy : ((d.mboxUpd x (fun m => { m with session := none })).mbox x).busy = some r.seq := by rw [Dev.mbox_mboxUpd]; exact hb
  refine ⟨?_, Dev.answers_mbAnswer hbusy ..⟩
  rw [Dev.mbClose, Dev.mbOk, Dev.mbox_mbAnswer hbusy, Dev.mbox_mboxUpd]

/-- Events are read oldest first, and the count of those lost begins again (R459, R461). -/
theorem Dev.mbEvents_spec {d : Dev} {x : Nat} {r : MbReq} (hb : (d.mbox x).busy = some r.seq) (n : Nat) :
    ((d.mbEvents x n).mbox x).events = (d.mbox x).events.drop n ∧ ((d.mbEvents x n).mbox x).lost = 0 ∧
      (d.mbEvents x n).answers x r 0 0 0 0 (natLE 4 (min (d.mbox x).lost 0xFFFFFFFF) ++ natLE 4 ((d.mbox x).events.take n).length ++
        (((d.mbox x).events.take n).map Event.bytes).flatten) := by
  have hbusy : ((d.mboxUpd x (fun m => { m with events := m.events.drop n, lost := 0 })).mbox x).busy = some r.seq := by
    rw [Dev.mbox_mboxUpd]; exact hb
  have hm := Dev.mbox_mbAnswer hbusy 0 0 0 0 (natLE 4 (min (d.mbox x).lost 0xFFFFFFFF) ++ natLE 4 ((d.mbox x).events.take n).length ++
    (((d.mbox x).events.take n).map Event.bytes).flatten)
  rw [Dev.mbox_mboxUpd] at hm
  exact ⟨congrArg Mbox.events hm, congrArg Mbox.lost hm, Dev.answers_mbAnswer hbusy ..⟩

section
variable {d : Dev} {x h : Nat}

/-- A long operation of the function tells its state (R463). -/
theorem Dev.mbOpStatus_known {o : LongOp} (ho : d.mail.ops.find? (fun o => o.handle == h && o.x == x) = some o) :
    d.mbOpStatus x h = d.mbOk x (natLE 1 o.state ++ natLE 1 o.percent ++ natLE 2 o.status ++ natLE 4 o.object) := by
  rw [Dev.mbOpStatus, ho]

/-- A cancellation waits for the operation's next step boundary (R464). -/
theorem Dev.mbCancel_runs {o : LongOp} (ho : d.mail.ops.find? (fun o => o.handle == h && o.x == x) = some o) (hr : o.state = 1)
    (hc : d.cancellable o = true) : d.mbCancel x h = d.opUpd h (fun o => { o with cancel := o.cancel ++ [x] }) := by
  rw [Dev.mbCancel, ho]
  exact if_neg (by simp [hr, hc])

theorem Dev.mbCancel_unknown (ho : d.mail.ops.find? (fun o => o.handle == h && o.x == x) = none) : d.mbCancel x h = d.mbFail x 0x2050 := by
  rw [Dev.mbCancel, ho]

end

/-- A doorbell while busy leaves the overrun mark (R452). -/
theorem Dev.mbOverrun_spec {d : Dev} {x : Nat} (hr : d.mbReached x = true) (hb : (d.mbox x).busy.isSome = true) :
    (d.mbOverrun x).mbox x = { d.mbox x with err := if bitOf (d.mbox x).err 0 then (d.mbox x).err else (d.mbox x).err + 1 } := by
  have hrun : d.mbOverrun x = d.mboxUpd x (fun m => { m with err := if bitOf m.err 0 then m.err else m.err + 1 }) := if_pos (by rw [hr, hb]; rfl)
  rw [hrun, Dev.mbox_mboxUpd]

/-- Settles O28: each request is taken (`effects_request`), and its answer is `answers_mbAnswer`. -/
theorem mailboxRequests : Obligations.MailboxRequests := by
  unfold Obligations.MailboxRequests
  refine ⟨fun s t x r ht h2 hlo => effects_request (op := 0x01) rfl ht ?sopen, fun s t x r ht hlo => effects_request (op := 0x01) rfl ht ?version,
    fun s t x r ht => effects_request (op := 0x02) rfl ht ?sclose, fun s t x r ht => effects_request (op := 0x03) rfl ht ?identify,
    fun s t x r ht => effects_request (op := 0x04) rfl ht ?events, fun s t x r o ht ho => effects_request (op := 0x05) rfl ht ?status,
    fun s t x r o ht ho hrun hcan => effects_request (op := 0x06) rfl ht ?cancel, fun s t x r ht ho => effects_request (op := 0x06) rfl ht ?nohandle,
    fun s t x r ht => effects_request (op := 0x53) rfl ht ?fw, fun s t x hr hb he => gives_run (f := fun d => d.mbOverrun x) rfl ?overrun,
    fun s t x r n hr hb hy hh hk hn hne => effects_run (f := fun d => d.mbRun x 0x03 r) rfl ?refused⟩
  case sopen => exact Dev.mbOpen_shared (d := (s.dev.at t).busied x r) (by rw [Dev.mbox_busied]) ht.2.2.2.2.1 h2 hlo
  case version =>
    have h := Dev.mbOpen_above (d := (s.dev.at t).busied x r) (by rw [Dev.mbox_busied]) ht.2.2.2.2.1 hlo
    rw [Dev.mbox_busied] at h
    exact h
  case sclose => exact Dev.mbClose_spec (d := (s.dev.at t).busied x r) (by rw [Dev.mbox_busied])
  case identify =>
    have hb : (((s.dev.at t).busied x r).mbox x).busy = some r.seq := by rw [Dev.mbox_busied]
    have hm := Dev.mbox_mbAnswer hb 0 0 0 0 (s.dev.identity x)
    rw [Dev.mbox_busied] at hm
    have hsession := congrArg Mbox.session hm
    have hevents := congrArg Mbox.events hm
    exact ⟨hsession, hevents, Dev.answers_mbAnswer hb ..⟩
  case events =>
    have h := Dev.mbEvents_spec (d := (s.dev.at t).busied x r) (by rw [Dev.mbox_busied]) (fieldAt r.payload 0 2)
    rw [Dev.mbox_busied] at h
    exact h
  case status =>
    have hb : (((s.dev.at t).busied x r).mbox x).busy = some r.seq := by rw [Dev.mbox_busied]
    have hdo : ((s.dev.at t).busied x r).mbDo x 0x05 r = _ := Dev.mbOpStatus_known (d := (s.dev.at t).busied x r) ho
    rw [hdo]
    refine ⟨?_, Dev.answers_mbAnswer hb ..⟩
    exact Dev.mail_mbAnswer MailSt.ops (fun _ _ => rfl) ..
  case cancel =>
    have hdo : ((s.dev.at t).busied x r).mbDo x 0x06 r = _ := Dev.mbCancel_runs (d := (s.dev.at t).busied x r) ho hrun hcan
    rw [hdo]
    refine ⟨?_, rfl⟩
    exact congrArg Mbox.busy ((s.dev.at t).mbox_busied x r)
  case nohandle =>
    have hb : (((s.dev.at t).busied x r).mbox x).busy = some r.seq := by rw [Dev.mbox_busied]
    have hdo : ((s.dev.at t).busied x r).mbDo x 0x06 r = _ := Dev.mbCancel_unknown (d := (s.dev.at t).busied x r) ho
    rw [hdo]
    refine ⟨?_, Dev.answers_mbAnswer hb ..⟩
    exact Dev.mail_mbAnswer MailSt.ops (fun _ _ => rfl) ..
  case fw => exact Dev.answers_mbAnswer (by rw [Dev.mbox_busied]) ..
  case overrun =>
    have hm := Dev.mbOverrun_spec (d := s.dev.at t) hr hb
    refine ⟨hm, ?_⟩
    rw [hm]
    change bitOf (if bitOf (s.dev.mbox x).err 0 then (s.dev.mbox x).err else (s.dev.mbox x).err + 1) 0 = true
    generalize (s.dev.mbox x).err = e at he
    interval_cases e <;> decide
  case refused =>
    have hb' : (((s.dev.at t).busied x r).mbox x).busy = some r.seq := by rw [Dev.mbox_busied]
    have hreason : (s.dev.at t).mbReason x 0x03 r = n := hn
    rw [Dev.mbRun_free (d := s.dev.at t) hr hb hy hh hk, hreason, if_neg hne]
    have hsession := congrArg Mbox.session ((Dev.mbox_mbAnswer hb' 0x2001 n 0 0 []))
    rw [Dev.mbox_busied] at hsession
    exact ⟨Dev.answers_mbAnswer hb' .., hsession⟩

end Sys2Proof.Machine

/-! PROOF. Claims and firmware through a mailbox (15_mailbox.md): the number of a new claim is free, and what an operation that ends leaves of the
firmware slots. -/

namespace Sys2Proof.Machine

/-- A request in hand stays in hand while its mailbox is as it was. -/
theorem Dev.busy_of (d : Dev) {e : Dev} {x : Nat} {r : MbReq} (h : e.mbox x = (d.busied x r).mbox x) : (e.mbox x).busy = some r.seq := by
  rw [h, Dev.mbox_busied]

/-! ### Claims -/

/-- There are more numbers than claims, so one is free. -/
theorem Dev.newClaimNum_free (d : Dev) : ∀ c ∈ d.mail.claims, c.num ≠ d.newClaimNum := by
  have hfree : ∃ k ∈ List.range (d.mail.claims.length + 1), (!d.mail.claims.any (fun c => c.num == k + 1)) = true := by
    by_contra hno
    have hall : ∀ k ∈ List.range (d.mail.claims.length + 1), k ∈ d.mail.claims.map (fun c => c.num - 1) := fun k hk => by
      have hany : d.mail.claims.any (fun c => c.num == k + 1) = true := by
        by_contra hf
        exact hno ⟨k, hk, by simpa using hf⟩
      obtain ⟨c, hc, hn⟩ := List.any_eq_true.1 hany
      exact List.mem_map.2 ⟨c, hc, by rw [beq_iff_eq.1 hn]; rfl⟩
    have hlen := (List.nodup_range.subperm hall).length_le
    rw [List.length_map, List.length_range] at hlen
    omega
  unfold Dev.newClaimNum
  obtain ⟨k, hk⟩ := Option.isSome_iff_exists.1 (List.find?_isSome.2 hfree)
  rw [hk, Option.getD_some]
  have hnone := List.find?_some hk
  intro c hc heq
  rw [Bool.not_eq_true', List.any_eq_false] at hnone
  exact hnone c hc (by rw [heq, beq_self_eq_true])

section
variable {d : Dev} {x : Nat}

/-- A core of an unclaimed class is granted (R472). -/
theorem Dev.claim_free {cls index n bytes : Nat} (hcls : cls ∈ [1, 4]) (hno : d.claimOf cls index = none) :
    d.claim x 1 cls index n bytes = (.granted { num := d.newClaimNum, cls := cls, index := index, x := x, holder := 1 },
      { d with mail := { d.mail with claims := d.mail.claims ++ [{ num := d.newClaimNum, cls := cls, index := index, x := x, holder := 1 }] } }) := by
  rcases List.mem_pair.1 hcls with rfl | rfl <;>
    · unfold Dev.claim
      rw [if_neg (by decide)]
      simp only [hno]
      rfl

/-- What is claimed already is refused to a host with its holder (R473). -/
theorem Dev.claim_taken {cls index n bytes : Nat} {c : Claim} (hcls : cls ≠ 2) (hc : d.claimOf cls index = some c) :
    d.claim x 1 cls index n bytes = (.refused 0x4002 c.word, d) := by
  unfold Dev.claim
  rw [if_neg hcls]
  simp only [hc]
  exact if_neg (by simp [preempts])

theorem Dev.mbClaim_free {p : Bytes} (hcls : fieldAt p 0 1 ∈ [1, 4]) (hno : d.claimOf (fieldAt p 0 1) (fieldAt p 1 1) = none) :
    d.mbClaim x p = Dev.mbOk { d with mail := { d.mail with
      claims := d.mail.claims ++ [{ num := d.newClaimNum, cls := fieldAt p 0 1, index := fieldAt p 1 1, x := x, holder := 1 }] } } x
      (natLE 2 d.newClaimNum ++ natLE 1 (fieldAt p 1 1) ++ zeros 5 ++ natLE 8 0) := by
  have hne : fieldAt p 0 1 ≠ 5 ∧ fieldAt p 0 1 ≠ 2 ∧ fieldAt p 0 1 ≠ 3 := by
    rcases List.mem_pair.1 hcls with h | h <;> rw [h] <;> decide
  unfold Dev.mbClaim
  simp only [Dev.claim_free hcls hno, hne.1, hne.2.1, hne.2.2, false_and, if_false]

theorem Dev.mbClaim_taken {p : Bytes} {c : Claim} (hcls : fieldAt p 0 1 ≠ 2) (hc : d.claimOf (fieldAt p 0 1) (fieldAt p 1 1) = some c)
    (hq : (d.hearth (fieldAt p 1 1)).quenched = false) : d.mbClaim x p = d.mbAnswer x 0x4002 c.word 0 0 [] := by
  unfold Dev.mbClaim
  simp only [Dev.claim_taken hcls hc, hq, Bool.false_eq_true, and_false, if_false]

end

section
variable {d : Dev} {x num : Nat} {c : Claim}

/-- A claim ends. -/
def Dev.unclaimed (d : Dev) (c : Claim) : Dev := { d with mail := { d.mail with claims := d.mail.claims.filter (fun k => k.num != c.num) } }

/-- A mailbox's own claim of class 4 ends when its function releases it (R474). -/
theorem Dev.mbRelease_own (hc : d.claimNum num = some c) (hx : c.x = x) (hh : c.holder = 1) (h4 : c.cls = 4) :
    d.mbRelease x num = (d.unclaimed c).mbOk x [] := by
  simp only [Dev.mbRelease, hc, hx, hh, and_self, if_true, Dev.endClaim, h4]
  rfl

theorem Dev.mbRelease_other (hc : d.claimNum num = some c) (hx : c.x ≠ x) : d.mbRelease x num = d.mbRefuse x 7 := by
  simp only [Dev.mbRelease, hc, hx, false_and, if_false]

theorem Dev.mbClaims_one {after : Nat} (hc : d.mail.claims = [c]) (hlt : after < c.num) :
    d.mbClaims x after = d.mbOk x (natLE 4 1 ++ zeros 4 ++ c.listed) := by
  simp [Dev.mbClaims, hc, hlt]

end

/-! ### What neither an event nor the end of an operation changes -/

/-- The firmware that runs and is stored, and the doorbells held. -/
def Dev.fwView (d : Dev) : (FwSlot × FwSlot × Nat × Nat × Nat × Option FwActive × Nat) × (Nat → Option (Nat × MbReq)) :=
  ((d.mail.fwA, d.mail.fwB, d.mail.running, d.mail.minor, d.mail.boot, d.mail.activating, d.sec.svnRun), fun x => (d.mbox x).held)

theorem Dev.fwView_mboxUpd (d : Dev) (x : Nat) {f : Mbox → Mbox} (hf : ∀ m, (f m).held = m.held) : (d.mboxUpd x f).fwView = d.fwView := by
  have hheld : ∀ y, ((d.mboxUpd x f).mbox y).held = (d.mbox y).held := fun y => by
    by_cases h : y = x
    · rw [h, Dev.mbox_mboxUpd, hf]
    · rw [Dev.mbox_mboxUpd_ne _ _ h]
  simp only [Dev.fwView, hheld]
  rfl

theorem Dev.fwView_of {d e : Dev} (hm : e.mail = d.mail) (hs : e.sec.svnRun = d.sec.svnRun) : e.fwView = d.fwView := by
  simp only [Dev.fwView, Dev.mbox, hm, hs]

theorem Dev.svnRun_vector (d : Dev) (x v : Nat) : (d.vector x v).sec.svnRun = d.sec.svnRun := by
  unfold Dev.vector
  dsimp only
  split_ifs <;> rfl

theorem Dev.fwView_mboxVector (d : Dev) (x : Nat) : (d.mboxVector x).fwView = d.fwView := by
  unfold Dev.mboxVector
  dsimp only
  split_ifs
  · exact Dev.fwView_of (Dev.vector_mail ..) (d.svnRun_vector ..)
  · rfl

theorem Dev.fwView_event (d : Dev) (x code o v : Nat) : (d.event x code o v).fwView = d.fwView := by
  unfold Dev.event
  dsimp only
  have hm := d.fwView_mboxUpd x (f := fun m => if 64 ≤ m.events.length then { m with events := m.events.drop 1 ++ [⟨code, o, v, d.eventTime⟩], lost := m.lost + 1 }
    else { m with events := m.events ++ [⟨code, o, v, d.eventTime⟩] }) (fun m => by split_ifs <;> rfl)
  split_ifs
  · exact (Dev.fwView_mboxVector _ x).trans hm
  · exact hm

theorem Dev.fwView_eventPf (d : Dev) (code o v : Nat) : (d.eventPf code o v).fwView = d.fwView := ((d.event 0 code o v).fwView_event ..).trans (d.fwView_event ..)

theorem Dev.fwView_mbAnswer (d : Dev) (x st det fl h : Nat) (b : Bytes) : (d.mbAnswer x st det fl h b).fwView = d.fwView := by
  unfold Dev.mbAnswer
  split
  · rfl
  · exact (Dev.fwView_mboxVector _ x).trans (d.fwView_mboxUpd x (fun _ => rfl))

theorem Dev.fwView_opEvent (d : Dev) (o : LongOp) (code v : Nat) : (d.opEvent o code v).fwView = d.fwView := by
  unfold Dev.opEvent
  split_ifs
  · exact d.fwView_eventPf ..
  · exact d.fwView_event ..

theorem Dev.fwView_opEnd (d : Dev) (h st : Nat) (c : Bool) (v : Nat) : (d.opEnd h st c v).fwView = d.fwView := by
  unfold Dev.opEnd
  split
  · rfl
  · split
    · rfl
    · exact (@foldl_keep _ _ _ Dev.fwView _ (fun d x => d.fwView_mbAnswer ..) _ _).trans ((Dev.fwView_opEvent ..).trans rfl)

/-! ### Firmware -/

theorem Dev.fwView_restartSub (d : Dev) (k : Submit) : (d.restartSub k).fwView = d.fwView := by
  unfold Dev.restartSub
  split
  · exact Dev.fwView_of rfl rfl
  · rfl

theorem Dev.fwView_refetchQuery (d : Dev) (id : Nat) : (d.refetchQuery id).fwView = d.fwView := by
  unfold Dev.refetchQuery
  split
  · exact Dev.fwView_of rfl rfl
  · rfl

theorem Dev.fwView_loadSys (d : Dev) (h : Nat) (l : List SysTable) : (d.loadSys h l).fwView = d.fwView := (rfl)

/-- The firmware of a slot is loaded: it runs, and the slots are as they were (R479). -/
theorem Dev.fwView_fwLoad (d : Dev) (s minor : Nat) : (d.fwLoad s minor).fwView =
    ((d.mail.fwA, d.mail.fwB, s, minor, d.mail.boot, d.mail.activating, (d.slotFw s).svn), fun x => (d.mbox x).held) := by
  unfold Dev.fwLoad
  dsimp only
  rw [@foldl_keep _ _ _ Dev.fwView _ (fun d h => d.fwView_loadSys ..), @foldl_keep _ _ _ Dev.fwView _ (fun d (q : Query) => d.fwView_refetchQuery q.id),
    @foldl_keep _ _ _ Dev.fwView _ (fun d k => d.fwView_restartSub k)]
  rfl

theorem Dev.fwView_fwResume (d : Dev) : d.fwResume.fwView = ((d.mail.fwA, d.mail.fwB, d.mail.running, d.mail.minor, d.mail.boot, none, d.sec.svnRun),
    fun x => (d.mbox x).held) := by
  exact @foldl_keep _ _ _ Dev.fwView (fun (d : Dev) x => d.mboxUpd x (fun m => { m with ready := !d.inReset x }))
    (fun d x => d.fwView_mboxUpd x (fun _ => rfl)) _ _

theorem Dev.fwView_closeOld (d : Dev) : d.closeOld.fwView = d.fwView := by
  refine @foldl_keep _ _ _ Dev.fwView _ (fun d x => ?_) _ _
  split
  · split_ifs
    · exact (Dev.fwView_event ..).trans (d.fwView_mboxUpd x (fun _ => rfl))
    · rfl
  · rfl

/-- With no doorbell held there is none to take. -/
theorem Dev.takeAll_none {d : Dev} (h : ∀ x, (d.mbox x).held = none) (l : List Nat) : l.foldl (fun (d : Dev) x => d.mbTake x) d = d := by
  induction l with
  | nil => rfl
  | cons x l ih =>
    have hx : d.mbTake x = d := by rw [Dev.mbTake, h x]
    rw [List.foldl_cons, hx, ih]

/-- The firmware of the slot before the activation is back (R479). -/
def Dev.fwBack (d : Dev) (a : FwActive) (minor : Nat) : Dev :=
  if 2 ≤ a.step then d.fwLoad a.prev minor else { d with
    mail := { d.mail with running := a.prev, minor := minor }
    sec := { d.sec with svnRun := (d.slotFw a.prev).svn } }

theorem Dev.fwView_fwBack (d : Dev) (a : FwActive) (minor : Nat) : (d.fwBack a minor).fwView =
    ((d.mail.fwA, d.mail.fwB, a.prev, minor, d.mail.boot, d.mail.activating, (d.slotFw a.prev).svn), fun x => (d.mbox x).held) := by
  unfold Dev.fwBack
  split_ifs
  · exact d.fwView_fwLoad ..
  · rfl

/-- The part once an activation has failed. -/
def Dev.fwUndone (d : Dev) (a : FwActive) (stage minor : Nat) : Dev :=
  (((d.fwBack a minor).fwResume.closeOld).eventPf 0x000A a.slot stage).opEnd a.handle 0x5001 false 0

theorem Dev.fwView_fwUndone (d : Dev) (a : FwActive) (stage minor : Nat) : (d.fwUndone a stage minor).fwView =
    ((d.mail.fwA, d.mail.fwB, a.prev, minor, d.mail.boot, none, (d.slotFw a.prev).svn), fun x => (d.mbox x).held) := by
  have hback := d.fwView_fwBack a minor
  simp only [Dev.fwView, Prod.mk.injEq] at hback
  obtain ⟨⟨hA, hB, hrun, hmin, hboot, -, hsvn⟩, hk⟩ := hback
  rw [Dev.fwUndone, Dev.fwView_opEnd, Dev.fwView_eventPf, Dev.fwView_closeOld, Dev.fwView_fwResume, hA, hB, hrun, hmin, hboot, hsvn, hk]

theorem Dev.fwFailed_eq {d : Dev} {t : Nat} (stage minor : Nat) {a : FwActive} (ha : (d.at t).mail.activating = some a) (hs : a.step < 4)
    (take : Dev → Nat → Dev) :
    d.fwFailed t stage minor take = ((d.at t).fwUndone a stage minor).boxFns.foldl take ((d.at t).fwUndone a stage minor) := by
  unfold Dev.fwFailed
  extract_lets d0
  split
  next hn => exact absurd (ha.symm.trans hn) (by simp)
  next b hb =>
    obtain rfl : b = a := Option.some.inj (hb.symm.trans ha)
    rw [if_neg (by omega)]
    rfl

/-- An activation that fails before its last step leaves the firmware of the slot before it (R479). -/
theorem Dev.fwFailed_spec {d : Dev} {t : Nat} (stage minor : Nat) {a : FwActive} (ha : (d.at t).mail.activating = some a) (hs : a.step < 4)
    (hh : ∀ x, ((d.at t).mbox x).held = none) :
    (d.fwFailed t stage minor (fun d x => d.mbTake x)).fwView =
      ((d.mail.fwA, d.mail.fwB, a.prev, minor, d.mail.boot, none, (d.slotFw a.prev).svn), fun _ => none) := by
  have hview := (d.at t).fwView_fwUndone a stage minor
  rw [show (fun x => ((d.at t).mbox x).held) = fun _ => none from funext hh] at hview
  rw [Dev.fwFailed_eq stage minor ha hs, Dev.takeAll_none (fun x => congrArg (fun v => v.2 x) hview)]
  exact hview

/-! ### Long operations -/

section
variable {d : Dev} {x : Nat} (hno : d.runningOps = [])
include hno

/-- With no other running, a long operation begins and its handle is answered (R462). -/
theorem Dev.mbLong_first (op : Nat) (args : List Nat) (data : Bytes) (total : Nat) {f : Dev → Nat → Except Nat Dev} {e : Dev}
    (hf : f { d with mail := { d.mail with
      ops := d.mail.ops ++ [{ handle := d.mail.nextHandle, x := x, op := op, args := args, data := data, total := total, object := args.headD 0 }]
      nextHandle := d.mail.nextHandle + 1 } } d.mail.nextHandle = .ok e) :
    d.mbLong x op args data total f = e.mbBegun x d.mail.nextHandle := by
  simp only [Dev.mbLong, Dev.openOp, hno, List.length_nil, List.find?_nil]
  rw [if_neg (by decide)]
  simp only [hf]

end

/-- The part with a new long operation of a function. -/
def Dev.opened (d : Dev) (x op : Nat) (args : List Nat) (data : Bytes) (total : Nat) : Dev :=
  { d with mail := { d.mail with
    ops := d.mail.ops ++ [{ handle := d.mail.nextHandle, x := x, op := op, args := args, data := data, total := total, object := args.headD 0 }]
    nextHandle := d.mail.nextHandle + 1 } }

section
variable {d : Dev} {x : Nat}

/-- Firmware is staged to the slot that does not run (R476). -/
theorem Dev.mbFwStage_free {p buf : Bytes} (hs : fieldAt p 0 1 ≠ d.mail.running) (hlen : fieldAt p 16 4 ≤ buf.length) (hno : d.runningOps = []) :
    d.mbFwStage x p buf = (d.opened x 0x50 [fieldAt p 0 1] (buf.take (fieldAt p 16 4)) 3).mbBegun x d.mail.nextHandle := by
  have hfree : d.slotFree (fieldAt p 0 1) = true := by rw [Dev.slotFree, bne_iff_ne.2 hs, Bool.or_true]
  have hlen' : ¬ buf.length < fieldAt p 16 4 := by omega
  simp only [Dev.mbFwStage, hfree, hlen', Bool.not_true, Bool.false_eq_true, if_false]
  exact Dev.mbLong_first hno _ _ _ _ rfl

theorem Dev.mbFwStage_running {p buf : Bytes} (hk : d.start.banked = false) (hs : fieldAt p 0 1 = d.mail.running) :
    d.mbFwStage x p buf = d.mbAnswer x 0x4002 (holderWord 0 6) 0 0 [] :=
  if_pos (by rw [Dev.slotFree, hk, hs]; simp)

/-- A verified slot whose svn and twin protocol do is activated in steps (R478). -/
theorem Dev.mbFwActivate_staged {k : Nat} (hs : d.slotState k = 2) (hb : d.start.banked = false) (hsvn : d.sec.svnMin ≤ (d.slotFw k).svn)
    (htp : d.sharesTp k = true) (hno : d.runningOps = []) : d.mbFwActivate x k = (d.opened x 0x51 [k] [] 5).mbBegun x d.mail.nextHandle := by
  have hact : d.activator = none := by rw [Dev.activator, hno]; rfl
  have hsvn' : ¬ (d.slotFw k).svn < d.sec.svnMin := by omega
  simp only [Dev.mbFwActivate, hs, hb, hsvn', htp, hact, ne_eq, not_true_eq_false, Bool.false_eq_true, Bool.true_eq_false, or_self, if_false]
  exact Dev.mbLong_first hno _ _ _ _ rfl

theorem Dev.mbFwSelect_staged {k gen : Nat} (hs : d.slotState k = 2) (hg : d.mbGeneration 0x52 = gen) :
    d.mbFwSelect x gen k = (({ d with mail := { d.mail with boot := k } } : Dev).mbNextGen 0x52).mbOk x [] := by
  simp only [Dev.mbFwSelect, hs, Dev.underGen, hg, ne_eq, not_true_eq_false, if_false, if_true]

end

theorem Dev.longOp_opUpd (d : Dev) (h : Nat) {f : LongOp → LongOp} (hf : ∀ o, (f o).handle = o.handle) : (d.opUpd h f).longOp h = (d.longOp h).map f :=
  find?_updWhere _ f (fun o ho => by rw [hf]; exact ho) _

/-- What neither a mailbox nor a vector touches stays as it is at an event (R459). -/
theorem Dev.event_keep {α : Type} (P : Dev → α) (hm : ∀ d x f, P (Dev.mboxUpd d x f) = P d) (hv : ∀ d x v, P (Dev.vector d x v) = P d)
    (d : Dev) (x code o v : Nat) : P (d.event x code o v) = P d := by
  unfold Dev.event Dev.mboxVector
  dsimp only
  split_ifs
  · exact (hv ..).trans (hm ..)
  · exact hm ..
  · exact hm ..

theorem Dev.ops_event (d : Dev) (x code o v : Nat) : (d.event x code o v).mail.ops = d.mail.ops :=
  Dev.event_keep (fun d => d.mail.ops) (fun _ _ _ => rfl) (fun d x v => congrArg MailSt.ops (Dev.vector_mail d x v)) d x code o v

theorem Dev.longOp_event (d : Dev) (x code o v : Nat) (h : Nat) : (d.event x code o v).longOp h = d.longOp h := by
  rw [Dev.longOp, Dev.ops_event, Dev.longOp]

theorem Dev.longOp_opEvent (d : Dev) (o : LongOp) (code v : Nat) (h : Nat) : (d.opEvent o code v).longOp h = d.longOp h := by
  unfold Dev.opEvent Dev.eventPf
  split_ifs
  · rw [Dev.longOp_event, Dev.longOp_event]
  · rw [Dev.longOp_event]

/-- An operation that nobody cancels ends with its status (R463). -/
theorem Dev.longOp_opEnd {d : Dev} {h : Nat} {o : LongOp} (ho : d.longOp h = some o) (hs : o.state = 1) (hc : o.cancel = []) (status extra : Nat) :
    (d.opEnd h status false extra).longOp h = some { o with state := 2, status := status, percent := 100, cancel := [] } := by
  simp only [Dev.opEnd, ho, hs, hc, ne_eq, not_true_eq_false, if_false, List.foldl_nil, Bool.false_eq_true]
  rw [Dev.longOp_opEvent]
  refine (d.longOp_opUpd h (f := fun o => { o with state := 2, status := status, percent := 100, cancel := [] }) (fun _ => rfl)).trans ?_
  rw [ho]
  simp only [Option.map_some]

theorem Dev.fwView_opStep (d : Dev) (h n : Nat) : (d.opStep h n).fwView = d.fwView := by
  unfold Dev.opStep
  split
  · rfl
  · dsimp only
    split
    · exact (Dev.fwView_opEvent ..).trans rfl
    · rfl

section
variable {d : Dev} {t h : Nat} {o : LongOp} (ho : (d.at t).longOp h = some o) (hs : o.state = 1) (hc : o.cancel = []) (ha : d.mail.activating = none)
  (hstop : d.hostStopped = false) (hserve : d.start.service = true) (hhalt : d.sec.halted = false) (f : StepIn)
include ho hs hc ha hstop hserve hhalt

/-- A step of staging runs where nothing holds it (R463). -/
theorem Dev.longOpStep_stage (hop : o.op = 0x50) : d.longOpStep t h f = (d.at t).stepStage o := by
  have ha' : (d.at t).mail.activating = none := ha
  have hstop' : (d.at t).hostStopped = false := hstop
  have hserve' : (d.at t).start.service = true := hserve
  have hhalt' : (d.at t).sec.halted = false := hhalt
  simp only [Dev.longOpStep, ho, hs, hc, ha', hstop', hserve', hhalt', hop, ne_eq, not_true_eq_false, decide_false, Bool.or_false, Bool.true_or, Bool.not_true,
    Bool.false_eq_true, if_false, List.isEmpty_nil, Bool.false_and]

end

section
variable (d : Dev) (o : LongOp)

theorem Dev.slotFw_slotUpd (s : Nat) (f : FwSlot → FwSlot) : (d.slotUpd s f).slotFw s = f (d.slotFw s) := by
  by_cases h : s = 0 <;> simp only [Dev.slotFw, Dev.slotUpd, h, if_true, if_false]

theorem Dev.slotState_eq (s : Nat) : d.slotState s = (d.slotFw s).state := by
  by_cases h : s = 0 <;> simp only [Dev.slotFw, Dev.slotState, h, if_true, if_false]

theorem Dev.slotFw_of_view {d e : Dev} (h : e.fwView = d.fwView) (s : Nat) : e.slotFw s = d.slotFw s := by
  simp only [Dev.fwView, Prod.mk.injEq] at h
  obtain ⟨⟨hA, hB, -⟩, -⟩ := h
  rw [Dev.slotFw, Dev.slotFw, hA, hB]

/-- The first step of staging marks the slot (R476). -/
theorem Dev.stepStage_first (h0 : o.done = 0) : (d.stepStage o).slotState (o.arg 0) = 1 := by
  have hrun : d.stepStage o = (d.slotUpd (o.arg 0) (fun _ => { state := 1 })).opStep o.handle 1 := by simp only [Dev.stepStage, h0]
  rw [hrun, Dev.slotState_eq, Dev.slotFw_of_view (Dev.fwView_opStep ..), Dev.slotFw_slotUpd]

theorem Dev.longOp_slotUpd (s h : Nat) (f : FwSlot → FwSlot) : (d.slotUpd s f).longOp h = d.longOp h := by
  unfold Dev.slotUpd; split_ifs <;> rfl

/-- The last step of staging verifies the image (R476, R477). -/
theorem Dev.stepStage_last {d : Dev} {o : LongOp} {h : Nat} (ho : d.longOp h = some o) (hh : o.handle = h) (hs : o.state = 1) (hc : o.cancel = [])
    (h2 : o.done = 2) :
    (fwVerify o.data d.sec.svnMin = true → ((d.stepStage o).slotFw (o.arg 0)).state = 2 ∧ ((d.stepStage o).slotFw (o.arg 0)).version = fieldAt o.data 8 4 ∧
        ((d.stepStage o).slotFw (o.arg 0)).digest = sha 1 o.data ∧ ((d.stepStage o).longOp h).map (fun o => (o.state, o.status)) = some (2, 0)) ∧
      (fwVerify o.data d.sec.svnMin = false → (d.stepStage o).slotState (o.arg 0) = d.slotState (o.arg 0) ∧
        ((d.stepStage o).longOp h).map (fun o => (o.state, o.status)) = some (2, 0x3010)) := by
  constructor
  · intro hv
    have hrun : d.stepStage o = (d.slotUpd (o.arg 0) (fun k => { k with
        state := 2, version := fieldAt o.data 8 4, digest := sha 1 o.data, svn := fieldAt o.data 7 1 })).opEnd h 0 false 0 := by
      simp only [Dev.stepStage, h2, hv, hh, if_true]
    rw [hrun, Dev.slotFw_of_view (Dev.fwView_opEnd ..), Dev.slotFw_slotUpd, Dev.longOp_opEnd (by rw [Dev.longOp_slotUpd]; exact ho) hs hc]
    exact ⟨rfl, rfl, rfl, rfl⟩
  · intro hv
    have hrun : d.stepStage o = d.opEnd h 0x3010 false 0 := by simp only [Dev.stepStage, h2, hv, hh, Bool.false_eq_true, if_false]
    rw [hrun, Dev.slotState_eq, Dev.slotFw_of_view (Dev.fwView_opEnd ..), ← Dev.slotState_eq, Dev.longOp_opEnd ho hs hc]
    exact ⟨rfl, rfl⟩

end

/-! ### The obligation -/

/-- Settles O33: requests by `effects_request` with the lemma about each, the steps of staging by `stepStage_first` and `stepStage_last`, a failed
activation by `fwFailed_spec`. -/
theorem claimsAndFirmware : Obligations.ClaimsAndFirmware := by
  unfold Obligations.ClaimsAndFirmware
  refine ⟨fun s t x r ht hcls hno => effects_request (op := 0x40) rfl ht ?free, fun s t x r c ht hcls hc hq => effects_request (op := 0x40) rfl ht ?taken,
    fun s t x r c ht hc hx hh h4 => effects_request (op := 0x41) rfl ht ?release, fun s t x r c ht hc hx => effects_request (op := 0x41) rfl ht ?other,
    fun s t x r c ht hc hlt => effects_request (op := 0x42) rfl ht ?list, fun s t x r b ht hbuf hlen hne hno => effects_request (op := 0x50) rfl ht ?stage,
    fun s t x r ht heq => effects_request (op := 0x50) rfl ht ?running,
    fun s t h f o ho hh hs hop hc ha hstop hserve hhalt h0 => effects_run (f := fun d => d.longOpStep t h f) rfl ?first,
    fun s t h f o ho hh hs hop hc ha hstop hserve hhalt h2 => effects_run (f := fun d => d.longOpStep t h f) rfl ?last,
    fun s t x r ht hs hsvn htp hno => effects_request (op := 0x51) rfl ht ?activate,
    fun s t stage minor a ha hs hh => effects_run (f := fun d => d.fwFailed t stage minor (fun d x => d.mbTake x)) rfl ?failed,
    fun s t x r ht hs hg => effects_request (op := 0x52) rfl ht ?select, fun s t x r ht hs => effects_request (op := 0x52) rfl ht ?unstaged⟩
  case first =>
    rw [Dev.longOpStep_stage (d := s.dev.at t) ho hs hc ha hstop hserve hhalt f hop]
    exact Dev.stepStage_first _ o h0
  case last =>
    rw [Dev.longOpStep_stage (d := s.dev.at t) ho hs hc ha hstop hserve hhalt f hop]
    exact Dev.stepStage_last (d := (s.dev.at t).at t) ho hh hs hc h2
  case failed =>
    have hview := Dev.fwFailed_spec (d := s.dev.at t) (t := t) stage minor ha hs hh
    simp only [Dev.fwView, Prod.mk.injEq] at hview
    obtain ⟨⟨hA, hB, hrun, hmin, hboot, hact, hsvn⟩, -⟩ := hview
    exact ⟨hact, hrun, hmin, hboot, hsvn, hA, hB⟩
  case free =>
    have hdo : ((s.dev.at t).busied x r).mbDo x 0x40 r = _ := Dev.mbClaim_free (d := (s.dev.at t).busied x r) hcls hno
    rw [hdo]
    exact ⟨Dev.mail_mbAnswer MailSt.claims (fun _ _ => rfl) .., s.dev.newClaimNum_free, Dev.answers_mbAnswer (by exact Dev.busy_of (s.dev.at t) rfl) ..⟩
  case taken =>
    have hdo : ((s.dev.at t).busied x r).mbDo x 0x40 r = _ := Dev.mbClaim_taken (d := (s.dev.at t).busied x r) hcls hc hq
    rw [hdo]
    exact ⟨Dev.mail_mbAnswer MailSt.claims (fun _ _ => rfl) .., Dev.answers_mbAnswer (by rw [Dev.mbox_busied]) ..⟩
  case release =>
    have hdo : ((s.dev.at t).busied x r).mbDo x 0x41 r = _ := Dev.mbRelease_own (d := (s.dev.at t).busied x r) hc hx hh h4
    rw [hdo]
    have hclaims := Dev.mail_mbAnswer MailSt.claims (fun _ _ => rfl) (((s.dev.at t).busied x r).unclaimed c) x 0 0 0 0 []
    refine ⟨hclaims, ?_, Dev.answers_mbAnswer (by exact Dev.busy_of (s.dev.at t) rfl) ..⟩
    have hnum : c.num = fieldAt r.payload 0 2 := beq_iff_eq.1 (List.find?_some hc :)
    refine List.find?_eq_none.2 (fun k hk => ?_)
    have hne := (List.mem_filter.1 (hclaims ▸ hk)).2
    rw [hnum] at hne
    simpa using hne
  case other =>
    have hdo : ((s.dev.at t).busied x r).mbDo x 0x41 r = _ := Dev.mbRelease_other (d := (s.dev.at t).busied x r) hc hx
    rw [hdo]
    exact ⟨Dev.mail_mbAnswer MailSt.claims (fun _ _ => rfl) .., Dev.answers_mbAnswer (by rw [Dev.mbox_busied]) ..⟩
  case list =>
    have hdo : ((s.dev.at t).busied x r).mbDo x 0x42 r = _ := Dev.mbClaims_one (d := (s.dev.at t).busied x r) hc hlt
    rw [hdo]
    exact ⟨(Dev.mail_mbAnswer MailSt.claims (fun _ _ => rfl) ..).trans hc, Dev.answers_mbAnswer (by rw [Dev.mbox_busied]) ..⟩
  case stage =>
    have hdo : ((s.dev.at t).busied x r).mbDo x 0x50 r = _ := Dev.mbFwStage_free (d := (s.dev.at t).busied x r) (buf := r.buf.getD []) hne (by rw [hbuf]; exact hlen) hno
    rw [hdo, hbuf]
    exact ⟨Dev.mail_mbAnswer MailSt.ops (fun _ _ => rfl) .., Dev.answers_mbAnswer (by exact Dev.busy_of (s.dev.at t) rfl) ..⟩
  case running =>
    have hdo : ((s.dev.at t).busied x r).mbDo x 0x50 r = _ := Dev.mbFwStage_running (d := (s.dev.at t).busied x r) (buf := r.buf.getD []) ht.2.2.2.2.1 heq
    rw [hdo]
    exact ⟨Dev.mail_mbAnswer MailSt.ops (fun _ _ => rfl) .., Dev.answers_mbAnswer (by rw [Dev.mbox_busied]) ..⟩
  case activate =>
    have hdo : ((s.dev.at t).busied x r).mbDo x 0x51 r = _ := Dev.mbFwActivate_staged (d := (s.dev.at t).busied x r) hs ht.2.2.2.2.1 hsvn htp hno
    rw [hdo]
    exact ⟨Dev.mail_mbAnswer MailSt.ops (fun _ _ => rfl) .., Dev.mail_mbAnswer MailSt.activating (fun _ _ => rfl) ..,
      Dev.answers_mbAnswer (by exact Dev.busy_of (s.dev.at t) rfl) ..⟩
  case select =>
    have hdo : ((s.dev.at t).busied x r).mbDo x 0x52 r = _ := Dev.mbFwSelect_staged (d := (s.dev.at t).busied x r) hs hg
    rw [hdo]
    refine ⟨Dev.mail_mbAnswer MailSt.boot (fun _ _ => rfl) .., Dev.mail_mbAnswer MailSt.running (fun _ _ => rfl) .., ?_,
      Dev.answers_mbAnswer (by exact Dev.busy_of (s.dev.at t) rfl) ..⟩
    have hgens : (Dev.mbGeneration _ 0x52) = _ := (congrArg (tabGet 0 · 0x52) (Dev.mail_mbAnswer MailSt.gens (fun _ _ => rfl)
      (({ (s.dev.at t).busied x r with mail := { ((s.dev.at t).busied x r).mail with boot := fieldAt r.payload 0 1 } } : Dev).mbNextGen 0x52) x 0 0 0 0 [])).trans
      ((tabGet_set _ _ _ _ _).trans (if_pos rfl))
    exact hgens.trans (by rw [← hg]; rfl)
  case unstaged =>
    have hdo : ((s.dev.at t).busied x r).mbDo x 0x52 r = _ := if_pos hs
    rw [hdo]
    exact ⟨Dev.mail_mbAnswer MailSt.boot (fun _ _ => rfl) .., Dev.answers_mbAnswer (by rw [Dev.mbox_busied]) ..⟩

end Sys2Proof.Machine

/-! PROOF. Drive commands (14_ingest_durability.md): a command that is sent again while list 1 is full leaves a record on the trace port before it. -/

namespace Sys2Proof.Machine

theorem roomMade_none {l tick : Nat} {es : List Delay} (h : ∀ e ∈ es, e.tried = none) : roomMade l tick es = (es, 0) := by
  have hwait : es.filter (fun e => e.list == l && e.tried.isSome) = [] := List.filter_eq_nil_iff.2 (fun e he => by simp [h e he])
  simp [roomMade, hwait]

/-- Nothing to take off a list that nothing waits for. -/
theorem Dev.undelay_none {d : Dev} {l tag : Nat} (hn : ∀ e ∈ d.qry.delays, e.tried = none) (ha : ∀ e ∈ d.qry.delays, ¬ (e.list = l ∧ e.tag = tag)) :
    d.undelay l tag = d := by
  have hfil : d.qry.delays.filter (fun e => !(e.list == l && e.tag == tag)) = d.qry.delays :=
    List.filter_eq_self.2 (fun e he => by
      simp only [Bool.not_eq_true', Bool.and_eq_false_iff, beq_eq_false_iff_ne]
      exact not_and_or.1 (ha e he))
  rw [Dev.undelay, hfil, Dev.setDelays, roomMade_none hn]
  rfl

/-- An insertion into a full list that is traced leaves a record on the trace port. -/
theorem Dev.delay_full_out {d : Dev} {l : Nat} (hl : 4096 ≤ d.delayCount l) (ht : d.regN 0x02400040 = 1 + 2 + 2 ^ 28) (hd : d.sec.debug = 1)
    (h0 : d.qry.trace.lost = 0) (ticks tag : Nat) : (d.delay l ticks tag).out.length = d.out.length + 1 := by
  have hreg : (d.bump 0x02400090 1).regN 0x02400040 = 1 + 2 + 2 ^ 28 := by
    rw [← ht]
    exact congrArg BitVec.toNat (Dev.reg_bump_ne _ _ _ _ (by decide))
  have hon : (d.bump 0x02400090 1).traces 0x0D = true := by rw [Dev.traces, hreg]; decide
  have hdelay : (d.delay l ticks tag).out = ((d.bump 0x02400090 1).trace { kind := 0x0D, a := l, c := tag }).out := by
    rw [Dev.delay, if_pos hl]
  have hput : ∀ r, ((d.bump 0x02400090 1).tracePut r).1.out.length = d.out.length + 1 := fun r => by
    have hover : bitOf ((d.bump 0x02400090 1).regN 0x02400040) 1 = true := by rw [hreg]; decide
    unfold Dev.tracePut
    dsimp only
    rw [hover, if_neg (by simp), Dev.bump_sec, hd]
    simp
  rw [hdelay, Dev.trace, hon, Dev.bump_qry, h0]
  exact hput _

/-- A read that waits for its second attempt, with the limits of n other commands on list 1, and the trace port on. -/
def crowdedDelays (n : Nat) : State := { dev :=
  { regs := [(0x02400040, BitVec.ofNat 32 (1 + 2 + 2 ^ 28))]
    sec := { debug := 1 }
    store := { dcmds := [{ id := 0, drive := 0, write := false, use := .journal, retry := 2, waiting := true }] }
    qry := { delays := List.replicate n { list := 1, due := 9, tag := 1 } } } }

/-- The retry leaves its trace record before the command. -/
theorem crowdedDelays_out {n : Nat} (hn : 4096 ≤ n) : (((crowdedDelays n).dev.at 0).shortReadRetry 0).out.length = 2 := by
  have hentry : ∀ e ∈ ((crowdedDelays n).dev.at 0).qry.delays, e = { list := 1, due := 9, tag := 1 } := fun e he => List.eq_of_mem_replicate he
  have hnone : ∀ e ∈ ((crowdedDelays n).dev.at 0).qry.delays, e.tried = none := fun e he => by rw [hentry e he]
  have habs : ∀ l, ∀ e ∈ ((crowdedDelays n).dev.at 0).qry.delays, ¬ (e.list = l ∧ e.tag = 0) := fun l e he => by rw [hentry e he]; simp
  have hcount : ((crowdedDelays n).dev.at 0).delayCount 1 = n := by
    rw [Dev.delayCount, List.filter_eq_self.2 (fun e he => by rw [hentry e he]; rfl)]
    exact List.length_replicate ..
  have hretry : ((crowdedDelays n).dev.at 0).shortReadRetry 0 =
      (((((crowdedDelays n).dev.at 0).undelay 0 0).undelay 1 0).dcmdUpd 0 (fun k => { k with
        waiting := false, issued := (((crowdedDelays n).dev.at 0).undelay 0 0).timeUs, held := false })).putCmd 0 .journal := by
    have hawake : ((((crowdedDelays n).dev.at 0).undelay 0 0).drive 0).waking = false := by rw [Dev.undelay_none hnone (habs 0)]; rfl
    have hcmd : ((crowdedDelays n).dev.at 0).dcmd 0 = some { id := 0, drive := 0, write := false, use := .journal, retry := 2, waiting := true } := rfl
    simp only [Dev.shortReadRetry, hcmd, if_true, Dev.resend, hawake, Bool.and_false, Bool.false_eq_true, if_false]
  rw [hretry, Dev.undelay_none hnone (habs 0), Dev.undelay_none hnone (habs 1), Dev.putCmd, Dev.send, List.length_append]
  refine congrArg (· + 1) (Dev.delay_full_out ?_ ?_ ?_ ?_ _ _)
  · exact le_of_le_of_eq hn hcount.symm
  all_goals rfl

/-- Refutes O35: where list 1 is full and the trace port is on, a read that is tried again leaves the record of the full list before it. -/
theorem not_driveCommands : ¬ Obligations.DriveCommands := by
  unfold Obligations.DriveCommands
  rintro ⟨_, _, _, _, _, hretry, _⟩
  have hgives := hretry (crowdedDelays 4096) 0 0 { id := 0, drive := 0, write := false, use := .journal, retry := 2, waiting := true } rfl rfl rfl
  obtain ⟨_, hout, _⟩ := gives_of_run (f := fun d => d.shortReadRetry 0) rfl hgives
  have hlen := congrArg List.length hout
  rw [crowdedDelays_out (Nat.le_refl _)] at hlen
  exact absurd hlen (by decide)

end Sys2Proof.Machine

/-! PROOF. The twin link (17_twin.md): a frame that is sent again where others wait for list 4 leaves a record on the trace port before it. -/

namespace Sys2Proof.Machine

theorem foldl_erase_self {α : Type} [BEq α] [LawfulBEq α] (l : List α) : l.foldl List.erase l = [] := by
  induction l with
  | nil => rfl
  | cons a l ih => rw [List.foldl_cons, List.erase_cons_head, ih]

/-- Where all wait and there is room for all, all enter. -/
theorem roomMade_all {l tick : Nat} {es : List Delay} (hl : ∀ e ∈ es, e.list = l) (hw : ∀ e ∈ es, e.tried.isSome = true) (hn : es.length ≤ 4096) :
    (roomMade l tick es).1 = es.map (fun e => { e with due := tick + 1 + e.due, tried := none }) := by
  have hwait : es.filter (fun e => e.list == l && e.tried.isSome) = es := List.filter_eq_self.2 (fun e he => by simp [hl e he, hw e he])
  have hin : es.filter (fun e => e.list == l && e.tried.isNone) = [] := List.filter_eq_nil_iff.2 (fun e he => by
    have := hw e he
    simp [Option.isSome_iff_ne_none.1 this])
  unfold roomMade
  rw [hwait, hin]
  have htake : es.take (4096 - ([] : List Delay).length) = es := List.take_of_length_le hn
  simp only [htake, foldl_erase_self, List.nil_append]

/-- A frame that waits for its acknowledgement, n others that wait for list 4, and the trace port on. -/
def crowdedLink (n : Nat) : State := { dev :=
  { regs := [(0x02400040, BitVec.ofNat 32 (1 + 2 + 2 ^ 28))]
    timeUs := 50
    sec := { debug := 1 }
    twin := { up0 := true, unacked := [{ seq := 0, kind := 2, body := [], sent := 0 }] }
    qry := { delays := List.replicate n { list := 4, due := 9, tag := 1, tried := some 0 } } } }

/-- The frame leaves its trace record before it. -/
theorem crowdedLink_out {n : Nat} (hn : n = 4096) : (((crowdedLink n).dev.at 0).twinRetry 0 0).out.length = 2 := by
  generalize hd : (crowdedLink n).dev.at 0 = d
  have hdel : d.qry.delays = List.replicate n { list := 4, due := 9, tag := 1, tried := some 0 } := by rw [← hd]; rfl
  have hretry : d.twinRetry 0 0 = d.resendFrame { seq := 0, kind := 2, body := [], sent := 0 } := by rw [← hd]; rfl
  have hroom : (d.undelay 4 0).delayCount 4 = n := by
    have hall : d.qry.delays.filter (fun e => !(e.list == 4 && e.tag == 0)) = d.qry.delays :=
      List.filter_eq_self.2 (fun e he => by rw [hdel] at he; rw [List.eq_of_mem_replicate he]; rfl)
    rw [Dev.delayCount, Dev.undelay, Dev.setDelays_delays, hall, hdel, roomMade_all (fun e he => by rw [List.eq_of_mem_replicate he])
      (fun e he => by rw [List.eq_of_mem_replicate he]; rfl) (by rw [List.length_replicate]; omega), List.map_replicate,
      List.filter_eq_self.2 (fun e he => by rw [List.eq_of_mem_replicate he]; rfl), List.length_replicate]
  generalize hd2 : ({ (d.undelay 4 0).bump 0x02B0002C 1 with twin := { ((d.undelay 4 0).bump 0x02B0002C 1).twin with
    unacked := updWhere (fun k => k.seq == 0) (fun k => { k with sent := d.timeUs, lane := if d.twin.up0 then 0 else 1 })
      ((d.undelay 4 0).bump 0x02B0002C 1).twin.unacked } } : Dev) = d2
  have hsend : d.resendFrame { seq := 0, kind := 2, body := [], sent := 0 } = (d2.delay 4 5 0).send (.twin (d2.linkFrame 2 0 [] [])) := by rw [← hd2]; rfl
  have hfull : 4096 ≤ d2.delayCount 4 := by
    rw [← hn, ← hroom, ← hd2, Dev.delayCount, Dev.delayCount, Dev.bump_qry]
  have hreg : d2.regN 0x02400040 = 1 + 2 + 2 ^ 28 := by
    rw [← hd2]
    change ((d.undelay 4 0).bump 0x02B0002C 1).regN 0x02400040 = _
    rw [Dev.regN, Dev.reg_bump_ne _ _ _ _ (by decide), Dev.undelay, Dev.setDelays, Dev.reg_bump_ne _ _ _ _ (by decide), ← hd]
    rfl
  have hsec : d2.sec.debug = 1 := by
    rw [← hd2, Dev.bump_sec, Dev.undelay_sec, ← hd]
    rfl
  have hlost : d2.qry.trace.lost = 0 := by
    rw [← hd2, Dev.bump_qry, Dev.undelay, Dev.setDelays, Dev.bump_qry, ← hd]
    rfl
  have hout : d2.out = [] := by
    rw [← hd2, Dev.bump_out, Dev.undelay_out, ← hd]
    rfl
  rw [hretry, hsend, Dev.send, List.length_append, Dev.delay_full_out hfull hreg hsec hlost, hout]
  rfl

/-- Refutes O37: where frames wait for list 4 and the trace port is on, a frame that is sent again leaves the record of the full list before it. -/
theorem not_twinLink : ¬ Obligations.TwinLink := by
  unfold Obligations.TwinLink
  rintro ⟨_, _, _, _, _, _, hretry, _⟩
  have hcount : (crowdedLink 4096).dev.delayCount 4 < 4096 := by
    rw [Dev.delayCount, List.filter_eq_nil_iff.2 (fun e he => by rw [List.eq_of_mem_replicate he]; simp)]
    decide
  have hgives := hretry (crowdedLink 4096) 0 0 { seq := 0, kind := 2, body := [], sent := 0 } rfl rfl (by decide) hcount
  obtain ⟨hout, _⟩ := gives_of_run (f := fun d => d.twinRetry 0 0) rfl hgives
  have hlen := congrArg List.length hout
  rw [crowdedLink_out rfl] at hlen
  exact absurd hlen (by decide)

end Sys2Proof.Machine

/-! PROOF. The security block (20_security_debug.md): a JTAG read of a counter of a link's physical layer does not clear what its register word holds. -/

namespace Sys2Proof.Machine

/-- While the control processor is halted no doorbell is taken. -/
theorem Dev.mbTakeAll_halted {d : Dev} (h : d.sec.halted = true) : d.mbTakeAll = d := by
  have htake : ∀ x, d.mbTake x = d := fun x => by
    unfold Dev.mbTake
    split
    · rw [h, Bool.not_true, Bool.and_false, if_neg Bool.false_ne_true]
    · rfl
  have hall : ∀ l : List Nat, l.foldl (fun (d : Dev) x => d.mbTake x) d = d := fun l => by
    induction l with
    | nil => rfl
    | cons x l ih => rw [List.foldl_cons, htake, ih]
  exact hall _

/-- A halted processor, debug level 1, and a value in the register word of a link counter. -/
def countedLink : State := { dev :=
  { regs := [(0x02510008, 5)], pwr := { sysGood := true }, sec := { debug := 1, halted := true } } }

/-- Refutes O42: JTAG reads the link counter at 0x02510008, which is RC, and its register word stays 5. -/
theorem not_securityBlock : ¬ Obligations.SecurityBlock := by
  unfold Obligations.SecurityBlock
  rintro ⟨_, _, _, _, _, _, _, _, _, _, _, _, _, _, _, _, _, _, _, _, _, _, hread, _⟩
  obtain ⟨d, hexec, hsec, hclear⟩ := hread countedLink 0 0x02510008 rfl (Nat.le_refl _) rfl
  have hhalt : d.sec.halted = true := by rw [hsec]; rfl
  rw [Dev.mbTakeAll_halted hhalt] at hexec
  have hrun : exec (.jtagAccess 0 (.regRead 0x02510008)) countedLink =
      .next { countedLink with dev := ((countedLink.dev.at 0).jtagAccess 0 (.regRead 0x02510008)).mbTakeAll } := rfl
  rw [hrun, Dev.mbTakeAll_halted (by decide +kernel)] at hexec
  injection hexec with hexec
  injection hexec with _ hdev
  have hword : (((countedLink.dev.at 0).jtagAccess 0 (.regRead 0x02510008)).regN 0x02510008) = 5 := by decide +kernel
  have hrow : regRow 0x02510008 = some ⟨0x02510008, 0x100, 8, 1, .rc, 0, false⟩ := by decide +kernel
  have hzero := hclear _ hrow rfl
  rw [← hdev, hword] at hzero
  exact absurd hzero (by decide)

end Sys2Proof.Machine

/-!
PROOF. The RX4 window and the pins (R608 to R616, R633, R634): enable and disable as compare-and-writes, the block of a command, and one record.
-/
namespace Sys2Proof.Machine

/-! ### Compare-and-writes that a host sends -/

/-- A register's new value, with one more write counted, before what the write starts (R467). -/
def Dev.cwDone (d : Dev) (x a new : Nat) : Dev :=
  { d.setReg a (BitVec.ofNat 32 new) with
    cwCount := tabSet 0 d.cwCount a ((d.writeCount a + 1) % 65536), cwFailed := d.cwFailed.filter (· != cwKey x a) }

theorem Dev.reg_cwDone (d : Dev) (x a new b : Nat) : (d.cwDone x a new).reg b = if b = a then BitVec.ofNat 32 new else d.reg b :=
  (Dev.reg_setReg_at ..)

theorem Dev.regN_cwDone (d : Dev) (x a : Nat) {new : Nat} (h : new < 2 ^ 32) : (d.cwDone x a new).regN a = new := by
  rw [Dev.regN, Dev.reg_cwDone, if_pos rfl, BitVec.toNat_ofNat, Nat.mod_eq_of_lt h]

theorem Dev.regN_cwDone_ne (d : Dev) (x new : Nat) {a b : Nat} (h : b ≠ a) : (d.cwDone x a new).regN b = d.regN b := by
  rw [Dev.regN, Dev.reg_cwDone, if_neg h, Dev.regN]

section
variable {d : Dev} {a : Nat} {r : RegRow} (hr : CwWord a r) (hs : d.start.service = true) (hh : d.hostStopped = false)
  (hn : d.regRead a = d.regN a) {old new value : Nat} (hold : d.regN a = old) (hput : cwPut r.base (2 ^ 64 - 1) old value = new) (x : Nat)
include hr hs hh hn hold hput

/-- A write with the value and count as they are, which nothing refuses. -/
theorem Dev.cwWrite_done (hok : cwOk r.base new = true) (href : d.cwRefuse x r.base a old new = none) (hveto : d.cwVeto r.base old new = false) :
    (if !d.start.service || d.hostStopped then d else (d.regWrite x a 4 (2 ^ 64 - 1) value old (d.writeCount a)).2) =
      (d.cwDone x a new).regEffect r.base a old new := by
  subst hold
  rw [hs, hh]
  change (d.regWrite x a 4 (2 ^ 64 - 1) value (d.regN a) (d.writeCount a)).2 = _
  rw [d.regWrite_cw_done hr x _ _ _ _ (by rw [hn, hput]; exact hok) (by rw [hn, hput]; exact href) (by rw [hn, hput]; exact hveto)
    (by rw [hn, Nat.mod_eq_of_lt (d.regN_lt a)]) rfl, hn, hput]
  rfl

/-- A write that the register's state rules out: it fails as a mismatch does. -/
theorem Dev.cwWrite_vetoed (hok : cwOk r.base new = true) (href : d.cwRefuse x r.base a old new = none) (hveto : d.cwVeto r.base old new = true)
    (expected count : Nat) :
    (if !d.start.service || d.hostStopped then d else (d.regWrite x a 4 (2 ^ 64 - 1) value expected count).2) =
      { d with cwFailed := if d.cwFailed.contains (cwKey x a) then d.cwFailed else d.cwFailed ++ [cwKey x a] } := by
  subst hold
  rw [hs, hh]
  change (d.regWrite x a 4 (2 ^ 64 - 1) value expected count).2 = _
  rw [d.regWrite_cw hr]
  simp only [hn, hput, hok, href, hveto, Bool.not_true, Bool.false_eq_true, if_false]
  rw [if_neg (by rintro ⟨_, _, h⟩; cases h)]

/-- A write that the function may not make. -/
theorem Dev.cwWrite_refused (href : (d.cwRefuse x r.base a old new).isSome) (expected count : Nat) :
    (if !d.start.service || d.hostStopped then d else (d.regWrite x a 4 (2 ^ 64 - 1) value expected count).2) = d := by
  subst hold
  rw [hs, hh]
  change (d.regWrite x a 4 (2 ^ 64 - 1) value expected count).2 = _
  obtain ⟨p, hp⟩ := Option.isSome_iff_exists.1 href
  rw [d.regWrite_cw hr]
  simp only [hn, hput, hp]
  split <;> rfl

end

/-- A mask of the low bits writes every bit of a value that fits in them. -/
theorem cwPut_low {b k old value : Nat} (hm : ((2 ^ 64 - 1) % 2 ^ 32).land (cwMask b % 2 ^ 32) = 2 ^ k - 1) (ho : old < 2 ^ k) (hv : value < 2 ^ k)
    (hk : k ≤ 32) : cwPut b (2 ^ 64 - 1) old value = value := by
  have hland : ∀ n, n < 2 ^ k → n.land (2 ^ k - 1) = n := fun n hn => (Nat.and_two_pow_sub_one_eq_mod n k).trans (Nat.mod_eq_of_lt hn)
  have h32 : value < 2 ^ 32 := hv.trans_le (Nat.pow_le_pow_right (by decide) hk)
  rw [cwPut, hm, hland old ho, Nat.mod_eq_of_lt h32, hland value hv]
  omega

theorem Dev.shownHigh_pins (d : Dev) {a : Nat} (h : 0x03000000 ≤ a) (hne : a ≠ 0x03100040) : d.shownHigh a = none := by
  unfold Dev.shownHigh
  rw [if_neg (by omega), if_neg (by omega), if_neg (by omega), if_neg (by omega)]
  extract_lets r q f w
  split <;> try omega
  rfl

theorem Dev.regRead_pins (d : Dev) {a : Nat} {r : RegRow} (hr : CwWord a r) (h : 0x03000000 ≤ a) (hne : a ≠ 0x03100040) : d.regRead a = d.regN a := by
  unfold Dev.regRead
  rw [hr.row, if_neg (by simp), if_neg (by omega), if_neg (by omega), d.shownHigh_pins h hne]

theorem rx4Ctrl_row : CwWord 0x03000000 ⟨0x03000000, 0, 1, 1, .cw, 0, false⟩ where
  row := by decide +kernel
  acc := rfl
  words := rfl
  start := rfl
  align := rfl
  open_ := by decide

theorem uartCtrl_row : CwWord 0x03200000 ⟨0x03200000, 0, 1, 1, .cw, 0, false⟩ where
  row := by decide +kernel
  acc := rfl
  words := rfl
  start := rfl
  align := rfl
  open_ := by decide

theorem gpioFunc_row {p : Nat} (hp : p < 16) : CwWord (0x03100000 + 4 * p) ⟨0x03100000, 4, 16, 1, .cw, 0, false⟩ where
  row := by
    have hall : ∀ p < 16, regRow (0x03100000 + 4 * p) = some ⟨0x03100000, 4, 16, 1, .cw, 0, false⟩ := by decide +kernel
    exact hall p hp
  acc := rfl
  words := rfl
  start := by simp [RegRow.start]; omega
  align := by omega
  open_ := by omega

/-! ### Enable and disable (R609) -/

/-- The claims of the window while it is enabled: the hearth and two ways. -/
def rx4HearthClaim : Claim := { num := 1, cls := 5, index := 35, x := 0, holder := 2 }
def rx4WaysClaim : Claim := { num := 2, cls := 2, index := 0, x := 0, holder := 2, ways := 192 }

theorem Dev.claim_rx4Hearth {d : Dev} (hc : d.mail.claims = []) : d.claim 0 2 5 35 0 0 = (.granted rx4HearthClaim, d.addClaim rx4HearthClaim) := by
  simp [Dev.claim, Dev.claimOf, Dev.newClaimNum, hc, rx4HearthClaim]

theorem Dev.claim_rx4Ways {d : Dev} (hc : d.mail.claims = [rx4HearthClaim]) :
    d.claim 0 2 2 0 2 0 = (.granted rx4WaysClaim, d.addClaim rx4WaysClaim) := by
  have hnum : d.newClaimNum = 2 := by rw [Dev.newClaimNum, hc]; decide
  have hof : ∀ i, d.claimOf 2 i = none := fun i => by rw [Dev.claimOf, hc]; simp [rx4HearthClaim]
  have hfree : d.freeWays = [7, 6, 5, 4, 3, 2, 1, 0] := by rw [Dev.freeWays, hc]; decide
  have hfind : (List.range 8).find? (fun i => (d.claimOf 2 i).isNone) = some 0 := by simp [hof, List.range, List.range.loop]
  rw [Dev.claim, if_pos rfl, Dev.claimWays]
  simp only [hfind, hfree, hnum]
  rfl

/-- The highest hearth that is not quenched, where hearth 35 is not. -/
theorem Dev.lastHearth {d : Dev} (hq : (d.hearth 35).quenched = false) :
    ((List.range hearthCount).reverse).find? (fun h => !(d.hearth h).quenched) = some 35 := by
  have hl : (List.range hearthCount).reverse = 35 :: (List.range 35).reverse := by decide
  rw [hl, List.find?_cons_of_pos (by simp [hq])]

/-- A hearth without slots leaves its work and is powered for the window; the registers tell it. -/
theorem Dev.rx4Powered {d : Dev} {h : Nat} (hsl : (d.hearth h).slots = []) :
    let e := (((d.leaveWork h).hearthUpd h (fun x => { x with powered := true, parked := false })).setReg 0x03000000 1).rx4Show
    e.regN 0x03000000 = 1 ∧ e.rx4 = d.rx4 ∧ e.hearth h = { d.hearth h with on := false, powered := true, parked := false } ∧ e.mail = d.mail := by
  have hleave : d.leaveWork h = d.hearthUpd h (fun x => { x with on := false }) := by rw [Dev.leaveWork, hsl]; rfl
  rw [hleave]
  refine ⟨?_, rfl, ?_, rfl⟩
  · rw [Dev.rx4Show, Dev.regN, Dev.reg_setReg_at, if_neg (by decide), Dev.reg_setReg_at, if_pos rfl]; rfl
  · refine (Dev.hearth_hearthUpd ..).trans ?_
    rw [Dev.hearth_hearthUpd]

/-- Enable with the space, the table, hearth 35 and the frames at hand: the window holds its hearth and its two ways. -/
theorem Dev.rx4Enable_granted {d : Dev} {sp : TSpace} (hsp : d.space d.rx4Ts = some sp) (hx : sp.x = 0) (ho : d.rx4Owned = true)
    (ht : d.rx4Table.isSome) (hq : (d.hearth 35).quenched = false) (hon : (d.hearth 35).on = false) (hsl : (d.hearth 35).slots = [])
    (hc : d.mail.claims = []) (hf : 6 ≤ d.freeFrames 0) :
    let e := d.rx4Enable
    e.regN 0x03000000 = 1 ∧ e.rx4.hearth = some 35 ∧ e.rx4.lock = some 0 ∧ (e.hearth 35).rx4 ∧ (e.hearth 35).powered ∧
      e.mail.claims = [rx4HearthClaim, rx4WaysClaim] := by
  have hnone : ¬ d.rx4Table.isNone = true := by rw [Option.isNone_iff_eq_none]; exact Option.isSome_iff_ne_none.1 ht
  have h1 : (d.addClaim rx4HearthClaim).mail.claims = [rx4HearthClaim] := congrArg (· ++ [rx4HearthClaim]) hc
  generalize hd2 : ({ d.addClaim rx4HearthClaim with rx4 := { (d.addClaim rx4HearthClaim).rx4 with hearth := some 35, claims := [1], reason := 0 } } : Dev) = d2
  have hc2 : d2.mail.claims = [rx4HearthClaim] := by rw [← hd2]; exact h1
  have hclaims : (d2.addClaim rx4WaysClaim).mail.claims = [rx4HearthClaim, rx4WaysClaim] := congrArg (· ++ [rx4WaysClaim]) hc2
  have hframes : ¬ (d2.addClaim rx4WaysClaim).freeFrames 0 < 6 := by
    have : (d2.addClaim rx4WaysClaim).freeFrames 0 = d.freeFrames 0 := by rw [← hd2]; rfl
    omega
  have hhearth : (d2.addClaim rx4WaysClaim).hearth 35 = { d.hearth 35 with rx4 := true } := by
    rw [← hd2]; exact Dev.hearth_hearthUpd d 35 (fun h => { h with rx4 := true })
  unfold Dev.rx4Enable
  simp only [hsp]
  rw [if_neg (by simp [hx]), if_neg (by simp [ho]), if_neg hnone]
  simp only [d.lastHearth hq, Dev.claim_rx4Hearth hc]
  have hcl : rx4HearthClaim.num = 1 := rfl
  simp only [hcl, hd2, Dev.claim_rx4Ways hc2]
  rw [if_neg hframes]
  simp only [hon, Bool.false_eq_true, if_false]
  generalize hd3 : d2.addClaim rx4WaysClaim = d3 at *
  have hrx : d3.rx4.hearth = some 35 := by rw [← hd3, ← hd2]; rfl
  generalize hd5 : ({ d3.openRegion 0 0 6 (rx4WaysClaim.index + 1) (.claim rx4WaysClaim.num) with
    rx4 := { (d3.openRegion 0 0 6 (rx4WaysClaim.index + 1) (.claim rx4WaysClaim.num)).rx4 with
      lock := some rx4WaysClaim.index
      claims := (d3.openRegion 0 0 6 (rx4WaysClaim.index + 1) (.claim rx4WaysClaim.num)).rx4.claims ++ [rx4WaysClaim.num] } } : Dev) = d5
  have h5 : d5.hearth 35 = { d.hearth 35 with rx4 := true } := by rw [← hd5]; exact hhearth
  obtain ⟨hreg, hrx4, hup, hmail⟩ := Dev.rx4Powered (d := d5) (h := 35) (by rw [h5]; exact hsl)
  refine ⟨hreg, ?_, ?_, ?_, ?_, ?_⟩
  · rw [hrx4, ← hd5]; exact hrx
  · rw [hrx4, ← hd5]; rfl
  · rw [hup, h5]
  · rw [hup]
  · rw [hmail, ← hd5]; exact hclaims

theorem Dev.setDomain_mail (d : Dev) (n st : Nat) : (d.setDomain n st).mail = d.mail := by
  unfold Dev.setDomain
  split_ifs <;> rfl

/-- The window off: enable clear, no hearth, no ways, and the reason. -/
theorem Dev.rx4Off_spec (d : Dev) (reason : Nat) :
    let e := d.rx4Off reason
    e.regN 0x03000000 = 0 ∧ e.rx4.hearth = none ∧ e.rx4.lock = none ∧ e.rx4.claims = [] ∧ e.rx4.reason = reason := by
  refine ⟨?_, rfl, rfl, rfl, rfl⟩
  unfold Dev.rx4Off
  rw [Dev.rx4Show, Dev.regN, Dev.reg_setReg_at, if_neg (by decide), Dev.reg_setReg_at, if_pos rfl]
  rfl

/-- The window off with no claims of its own: the claims of others stand. -/
theorem Dev.rx4Off_mail {d : Dev} (hc : d.rx4.claims = []) (reason : Nat) : (d.rx4Off reason).mail = d.mail := by
  unfold Dev.rx4Off
  rw [hc, List.foldl_nil]
  extract_lets d1 d2
  change d2.mail = d.mail
  unfold d2
  split
  · exact d.setDomain_mail _ _
  · rfl

section
variable (d : Dev) (x new : Nat)

theorem Dev.rx4Ts_ctrl : (d.cwDone x 0x03000000 new).rx4Ts = d.rx4Ts := d.regN_cwDone_ne x new (by decide)

theorem Dev.rx4Owned_ctrl : (d.cwDone x 0x03000000 new).rx4Owned = d.rx4Owned := by
  rw [Dev.rx4Owned, Dev.rx4Ts_ctrl]
  rfl

theorem Dev.rx4Table_ctrl : (d.cwDone x 0x03000000 new).rx4Table = d.rx4Table := by
  rw [Dev.rx4Table, Dev.rx4Ts_ctrl, d.regN_cwDone_ne x new (by decide)]
  rfl

end

/-- A bit of RX4_CTRL written. -/
theorem Dev.rx4Enable_write {d : Dev} (hs : d.start.service = true) (hh : d.hostStopped = false) (h0 : d.regN 0x03000000 = 0) (t : Nat) :
    (d.at t).cwWrite t 0 0x03000000 4 1 0 (d.writeCount 0x03000000) = (((d.at t).at t).cwDone 0 0x03000000 1).rx4Enable :=
  Dev.cwWrite_done (d := (d.at t).at t) rx4Ctrl_row hs hh (Dev.regRead_pins _ rx4Ctrl_row (by decide) (by decide)) h0 (new := 1) (value := 1) (by decide) 0 rfl rfl rfl

theorem Dev.rx4Disable_write {d : Dev} (hs : d.start.service = true) (hh : d.hostStopped = false) (h0 : d.regN 0x03000000 = 1) (hr : d.rx4.run = none)
    (t x : Nat) : (d.at t).cwWrite t x 0x03000000 4 0 1 (d.writeCount 0x03000000) = (((d.at t).at t).cwDone x 0x03000000 0).rx4Off 0 := by
  refine (Dev.cwWrite_done (d := (d.at t).at t) rx4Ctrl_row hs hh (Dev.regRead_pins _ rx4Ctrl_row (by decide) (by decide)) h0 (new := 0) (by decide) x
    rfl ?_ ?_).trans ?_
  · exact if_neg (by simp)
  · change (true && d.rx4.run.isSome) = false
    rw [hr]; rfl
  · exact if_neg (by change ¬ d.rx4.run.isSome = true; rw [hr]; simp)

theorem Dev.rx4Disable_vetoed {d : Dev} (hs : d.start.service = true) (hh : d.hostStopped = false) (h0 : d.regN 0x03000000 = 1) (hr : d.rx4.run.isSome)
    (t x : Nat) : (d.at t).cwWrite t x 0x03000000 4 0 1 (d.writeCount 0x03000000) = { ((d.at t).at t) with
      cwFailed := if d.cwFailed.contains (cwKey x 0x03000000) then d.cwFailed else d.cwFailed ++ [cwKey x 0x03000000] } := by
  refine Dev.cwWrite_vetoed (d := (d.at t).at t) rx4Ctrl_row hs hh (Dev.regRead_pins _ rx4Ctrl_row (by decide) (by decide)) h0 (new := 0) (by decide) x
    rfl ?_ ?_ _ _
  · exact if_neg (by simp)
  · change (true && d.rx4.run.isSome) = true
    rw [hr]; rfl

/-! ### The command block (R611, R612) -/

theorem tabBytes_setBytes (t : Tab Byte) (k : Nat) (b : Bytes) : tabBytes (tabSetBytes t k b) k b.length = b := by
  unfold tabBytes
  refine List.ext_getElem (by simp) (fun i h1 h2 => ?_)
  simp only [List.getElem_map, List.getElem_range, tabGet_setBytes]
  rw [if_pos (by omega)]
  simp [List.getD_eq_getElem?_getD, h2]

/-- The block of a command as the host wrote it, with the command's operation. -/
def rx4Block (op : Nat) (b : Bytes) : Bytes := fitTo 64 (b.take 4 ++ [BitVec.ofNat 8 op] ++ b.drop 5)

/-- A block that passes the checks holds its operation. -/
theorem rxU_rx4Block {op len : Nat} {b : Bytes} (hok : rxBlockOk (rx4Block op b) len = true) (h : op < 256) : rxU (rx4Block op b) 4 1 = op := by
  have hshort : rxU (rx4Block op b) 4 1 ≠ 0 := by
    intro h0
    unfold rxBlockOk at hok
    simp [h0] at hok
  have hlen : 4 < (rx4Block op b).length := by
    have : (rx4Block op b).length = 64 := fitTo_length ..
    omega
  have hbyte : rxU (rx4Block op b) 4 1 = ((rx4Block op b)[4]).toNat := by
    rw [rxU, List.drop_eq_getElem_cons hlen, List.take_succ_cons, List.take_zero]
    simp [beNat]
  rcases Nat.lt_or_ge b.length 4 with hb | hb
  · refine absurd ?_ hshort
    rw [hbyte]
    simp [rx4Block, fitTo, zeros, List.getElem_append]
    rw [dif_neg (by omega)]
    rfl
  · rw [hbyte]
    simp [rx4Block, fitTo, zeros, List.getElem_append]
    rw [dif_pos (by omega)]
    simp only [Nat.min_eq_left hb, Nat.sub_self, List.getElem_cons_zero, BitVec.toNat_ofNat]
    omega

/-- The block written where the window reads it. -/
def Dev.rx4Put (d : Dev) (b : Bytes) : Dev := { d with rx4 := { d.rx4 with cmd := tabSetBytes d.rx4.cmd 0 b } }

theorem Dev.rx4Cmd_put (d : Dev) (op : Nat) (b : Bytes) : (d.rx4Put (rx4Block op b)).rx4Cmd = rx4Block op b := by
  have hlen : (rx4Block op b).length = 64 := fitTo_length ..
  have := tabBytes_setBytes d.rx4.cmd 0 (rx4Block op b)
  rwa [hlen] at this

section
variable {d : Dev} {k : TSpace × Table × Column} (hrun : d.rx4.run = none) (hbit : bitOf (d.regN 0x03000000) 0 = true)
include hrun

/-- GO while the window is disabled (R612). -/
theorem Dev.rx4Go_disabled (hoff : bitOf (d.regN 0x03000000) 0 = false) : d.rx4Go =
    { d with rx4 := { d.rx4 with done := 0, invalid := 0, overflow := 0, table := [], run := none, state := 2, legacy := 4, status := 0x1003 } } := by
  unfold Dev.rx4Go
  rw [hrun, if_neg (by simp)]
  extract_lets b src d1 op
  rw [if_pos (by simp [hoff])]
  rfl

include hbit
variable (ho : d.rx4Owned = true) (ht : d.rx4Table = some k) (hok : rxBlockOk d.rx4Cmd k.2.2.ty.len = true)
include ho ht hok

/-- GO of a command of the records: it begins. -/
theorem Dev.rx4Go_begins (hop : rxU d.rx4Cmd 4 1 ≤ 4)
    (h4 : rxU d.rx4Cmd 4 1 = 4 → d.pwr.mode ≠ 7 ∧ d.locked k.1 = false ∧ d.spaceDown k.1 = false) : d.rx4Go =
    { d with rx4 := { d.rx4 with
      done := 0, invalid := 0, overflow := 0, table := [], run := some { block := d.rx4Cmd }, state := 1, legacy := 0, status := 0 } } := by
  obtain ⟨s, tb, c⟩ := k
  unfold Dev.rx4Go
  rw [hrun, if_neg (by simp)]
  extract_lets b src d1 op
  rw [if_neg (by simp [hbit]), if_neg (by simp [ho]), ht]
  dsimp only
  rw [if_neg (by simpa [b] using hok), if_neg (fun h => (h4 h.1).1 h.2), if_neg, if_neg, if_neg (by unfold op b; omega)]
  · intro h
    simp only [Bool.and_eq_true, decide_eq_true_eq] at h
    rw [(h4 (by unfold op b at h; omega)).2.2] at h
    exact absurd h.2 (by decide)
  · intro h
    simp only [Bool.and_eq_true, decide_eq_true_eq] at h
    rw [(h4 (by unfold op b at h; omega)).2.1] at h
    exact absurd h.2 (by decide)

/-- GO of FILE_IN: it begins on the values of the file at the visible epoch. -/
theorem Dev.rx4Go_fileIn {l : List Bytes} (hop : rxU d.rx4Cmd 4 1 = 5) (hlock : d.locked k.1 = false) (hdown : d.spaceDown k.1 = false)
    (hb : d.rx4Beyond k.1 k.2.1 k.2.2 (rxU d.rx4Cmd 0x18 4) (rxU d.rx4Cmd 0xC 4) = false)
    (hf : Dev.rx4File k.1 k.2.1 k.2.2 (rxU d.rx4Cmd 0x18 4) (rxU d.rx4Cmd 0xC 4) = some l) : d.rx4Go =
    { d with rx4 := { d.rx4 with
      done := 0, invalid := 0, overflow := 0, table := [], state := 1, legacy := 0, status := 0, epoch := k.1.visible
      run := some { block := d.rx4Cmd, file := l, epoch := k.1.visible } } } := by
  obtain ⟨s, tb, c⟩ := k
  unfold Dev.rx4Go
  rw [hrun, if_neg (by simp)]
  extract_lets b src d1 op
  rw [if_neg (by simp [hbit]), if_neg (by simp [ho]), ht]
  dsimp only
  rw [if_neg (by simpa [b] using hok), if_neg (by unfold op b; omega), if_neg (by simp [hlock]), if_neg (by simp [hdown]), if_pos hop, if_neg (by simp [b, hb])]
  simp only [b, hf]
  rfl

end

/-! ### One record (R613 to R615) -/

section
variable {d : Dev} {r : Rx4Run} {h : Nat} (hrun : d.rx4.run = some r) (hh : d.rx4.hearth = some h) (hc : r.commit = none)
  (hp : (d.hearth h).powered = true) (ha : d.mail.activating = none) (hop : rxU r.block 4 1 < 4) (t : Nat) (raw : Bytes)
include hrun hh hc hp ha hop

/-- A record that has been read, of a command that works on records. -/
theorem Dev.rx4Record_some : d.rx4Record t (some raw) =
    let b := r.block
    let n := r.done + 1
    let rec_ := fitTo (rxU b 8 2) raw
    let bad := d.rx4.invalid + b2n (rxFault b rec_).isSome
    if bad = 65 then ({ d.at t with rx4 := { d.rx4 with invalid := 65 } } : Dev).rx4End 3 2 0x3001
    else
      let p := match rxFault b rec_ with
        | some f => (({ d.at t with rx4 := { d.rx4 with invalid := bad, table := d.rx4.table ++ [rxEntry b n f] } } : Dev), r)
        | none => (d.at t).rx4Valid r n rec_
      let d2 : Dev := { p.1 with rx4 := { p.1.rx4 with run := some { p.2 with done := n }, done := n } }
      if n = rxU b 0xC 4 then d2.rx4Finish { p.2 with done := n } else d2 := by
  unfold Dev.rx4Record
  have hidle : ¬ (r.commit.isSome || !((d.at t).hearth h).powered || (d.at t).mail.activating.isSome) = true := by
    have : ((d.at t).hearth h).powered = true := hp
    rw [hc, this, show (d.at t).mail.activating = none from ha]
    decide
  extract_lets d0
  have h1 : d0.rx4.run = some r := hrun
  have h2 : d0.rx4.hearth = some h := hh
  simp only [h1, h2]
  rw [if_neg hidle, if_neg (by simp; omega), if_neg (by omega)]
  rfl

/-- A faulty record that is not the 65th: it is counted and noted. -/
theorem Dev.rx4Record_fault {f : Nat × Nat × Nat} (hf : rxFault r.block (fitTo (rxU r.block 8 2) raw) = some f) (hn : r.done + 1 ≠ rxU r.block 0xC 4)
    (hi : d.rx4.invalid < 64) : d.rx4Record t (some raw) = { d.at t with rx4 := { d.rx4 with
      invalid := d.rx4.invalid + 1, table := d.rx4.table ++ [rxEntry r.block (r.done + 1) f], run := some { r with done := r.done + 1 }, done := r.done + 1 } } := by
  rw [d.rx4Record_some hrun hh hc hp ha hop]
  simp only [hf]
  rw [if_neg (by simp [b2n]; omega), if_neg hn]
  rfl

/-- The 65th faulty record: the command ends (R615). -/
theorem Dev.rx4Record_stops {f : Nat × Nat × Nat} (hf : rxFault r.block (fitTo (rxU r.block 8 2) raw) = some f) (hi : d.rx4.invalid = 64) :
    d.rx4Record t (some raw) = ({ d.at t with rx4 := { d.rx4 with invalid := 65 } } : Dev).rx4End 3 2 0x3001 := by
  rw [d.rx4Record_some hrun hh hc hp ha hop]
  simp only [hf]
  rw [if_pos (by rw [hi]; rfl)]

variable (h1 : rxU r.block 4 1 = 1) (hf : rxFault r.block (fitTo (rxU r.block 8 2) raw) = none) (hi : d.rx4.invalid ≠ 65)
include h1 hf hi

/-- A record that VALIDATE finds without fault. -/
theorem Dev.rx4Record_valid : d.rx4Record t (some raw) =
    let d2 : Dev := { d.at t with rx4 := { d.rx4 with run := some { r with done := r.done + 1 }, done := r.done + 1 } }
    if r.done + 1 = rxU r.block 0xC 4 then d2.rx4Finish { r with done := r.done + 1 } else d2 := by
  rw [d.rx4Record_some hrun hh hc hp ha hop]
  have hv : ∀ rec_, (d.at t).rx4Valid r (r.done + 1) rec_ = (d.at t, r) := fun rec_ => by unfold Dev.rx4Valid; extract_lets b val; rw [show rxU b 4 1 = 1 from h1]; rfl
  simp only [hf, hv]
  rw [if_neg (by simpa [b2n] using hi)]
  rfl

end

/-- The end of a VALIDATE without a faulty record. -/
theorem Dev.rx4Finish_validate {d : Dev} {r : Rx4Run} (h1 : rxU r.block 4 1 = 1) (hi : d.rx4.invalid = 0) : d.rx4Finish r = d.rx4End 2 0 0 := by
  unfold Dev.rx4Finish
  extract_lets b
  rw [show rxU b 4 1 = 1 from h1, hi]
  rfl

/-! ### GPIO and UART (R633, R634) -/

theorem Dev.gpioFunc_write {d : Dev} {p v : Nat} {c : Claim} (hs : d.start.service = true) (hh : d.hostStopped = false) (hp : p < 16)
    (hc : d.claimOf 1 p = some c) (hold : c.holder = 1) (hv : v < 64) (h8 : v % 8 < 5) (hr : d.regN (0x03100000 + 4 * p) < 64) (t : Nat) :
    ((d.at t).cwWrite t c.x (0x03100000 + 4 * p) 4 v (d.regN (0x03100000 + 4 * p)) (d.writeCount (0x03100000 + 4 * p))).regN (0x03100000 + 4 * p) = v := by
  have hput : cwPut 0x03100000 (2 ^ 64 - 1) (d.regN (0x03100000 + 4 * p)) v = v := cwPut_low (k := 6) (by decide) hr hv (by decide)
  have href : ((d.at t).at t).cwRefuse c.x 0x03100000 (0x03100000 + 4 * p) (d.regN (0x03100000 + 4 * p)) v = none := by
    have hof : ((d.at t).at t).claimOf 1 ((0x03100000 + 4 * p - 0x03100000) / 4) = some c := by
      rw [show (0x03100000 + 4 * p - 0x03100000) / 4 = p by omega]; exact hc
    simp only [Dev.cwRefuse, hof, hold, and_self, if_true]
  rw [show (d.at t).cwWrite t c.x (0x03100000 + 4 * p) 4 v (d.regN (0x03100000 + 4 * p)) (d.writeCount (0x03100000 + 4 * p)) = _ from
    Dev.cwWrite_done (d := (d.at t).at t) (gpioFunc_row hp) hs hh (Dev.regRead_pins _ (gpioFunc_row hp) (by omega) (by omega)) rfl hput c.x
      (decide_eq_true h8) href rfl]
  exact Dev.regN_cwDone _ _ _ (by omega)

theorem Dev.gpioFunc_refused {d : Dev} {p : Nat} (hs : d.start.service = true) (hh : d.hostStopped = false) (hp : p < 16)
    (hc : d.claimOf 1 p = none) (t x v e c : Nat) : (d.at t).cwWrite t x (0x03100000 + 4 * p) 4 v e c = d.at t := by
  have hof : ((d.at t).at t).claimOf 1 ((0x03100000 + 4 * p - 0x03100000) / 4) = none := by
    rw [show (0x03100000 + 4 * p - 0x03100000) / 4 = p by omega]; exact hc
  refine (Dev.cwWrite_refused (d := (d.at t).at t) (gpioFunc_row hp) hs hh (Dev.regRead_pins _ (gpioFunc_row hp) (by omega) (by omega)) rfl rfl x ?_ e c).trans ?_
  · simp only [Dev.cwRefuse, hof]; rfl
  · rw [Dev.at_at, Nat.max_self]

theorem Dev.uartCtrl_write {d : Dev} {v : Nat} (hs : d.start.service = true) (hh : d.hostStopped = false) (hv : v < 6) (hr : d.regN 0x03200000 < 8)
    (hne : d.regN 0x03200000 ≠ v) (t x : Nat) :
    let e := (d.at t).cwWrite t x 0x03200000 4 v (d.regN 0x03200000) (d.writeCount 0x03200000)
    e.regN 0x03200000 = v ∧ e.pins.uartRate = v ∧ e.pins.uartQuiet = max d.timeUs t + 1000 := by
  have hput : cwPut 0x03200000 (2 ^ 64 - 1) (d.regN 0x03200000) v = v := cwPut_low (k := 3) (by decide) hr (by omega) (by decide)
  have hok : cwOk 0x03200000 v = true := by
    change (decide (0 ≤ v / 2 ^ 0 % 2 ^ 3) && decide (v / 2 ^ 0 % 2 ^ 3 ≤ 5)) = true
    simp; omega
  rw [show (d.at t).cwWrite t x 0x03200000 4 v (d.regN 0x03200000) (d.writeCount 0x03200000) = _ from
    Dev.cwWrite_done (d := (d.at t).at t) uartCtrl_row hs hh (Dev.regRead_pins _ uartCtrl_row (by decide) (by decide)) rfl hput x hok rfl rfl]
  refine ⟨Dev.regN_cwDone ((d.at t).at t) x _ (by omega), Nat.mod_eq_of_lt (by omega), ?_⟩
  refine (if_neg (Ne.symm hne)).trans ?_
  simp [Dev.cwDone, Dev.at]

/-! ### The obligation -/

section
variable {s : State} {b : Bytes} {k : TSpace × Table × Column} (hsv : s.dev.serves 0 = true) (hb : s.dev.start.banked = false)
  (hrun : s.dev.rx4.run = none)
include hsv hb hrun

/-- A command of the window begins on a block that passes the checks. -/
theorem gives_rx4Send {i : Instr} {t op : Nat} {P : Dev → Prop} (he : exec i s = .next (s.run t (fun d => d.fromHost 0 (fun d => d.rx4Send op b))))
    (hbit : bitOf (s.dev.regN 0x03000000) 0 = true) (ho : s.dev.rx4Owned = true) (ht : s.dev.rx4Table = some k)
    (hok : rxBlockOk (rx4Block op b) k.2.2.ty.len = true) (hop : op ≤ 4)
    (h4 : op = 4 → s.dev.pwr.mode ≠ 7 ∧ s.dev.locked k.1 = false ∧ s.dev.spaceDown k.1 = false)
    (h : ∀ cmd, tabBytes cmd 0 64 = rx4Block op b → P { s.dev.at t with rx4 := { s.dev.rx4 with
      cmd := cmd, done := 0, invalid := 0, overflow := 0, table := [], run := some { block := rx4Block op b }, state := 1, legacy := 0, status := 0 } }) :
    Gives i s P := by
  refine gives_host hsv he ?_
  have hcmd := (s.dev.at t).rx4Cmd_put op b
  have hrx := rxU_rx4Block hok (by omega)
  rw [show (s.dev.at t).rx4Send op b = (s.dev.at t).rx4Command op b from if_neg (by change ¬ s.dev.start.banked = true; rw [hb]; simp)]
  rw [show (s.dev.at t).rx4Command op b = _ from Dev.rx4Go_begins
    (d := (s.dev.at t).rx4Put (rx4Block op b)) (k := k) hrun hbit ho ht
    (by rw [hcmd]; exact hok) (by rw [hcmd, hrx]; exact hop) (by rw [hcmd, hrx]; exact h4), hcmd]
  exact h _ hcmd

theorem gives_fileIn {t : Nat} {l : List Bytes} {P : Dev → Prop}
    (hbit : bitOf (s.dev.regN 0x03000000) 0 = true) (ho : s.dev.rx4Owned = true) (ht : s.dev.rx4Table = some k)
    (hok : rxBlockOk (rx4Block 5 b) k.2.2.ty.len = true) (hlock : s.dev.locked k.1 = false) (hdown : s.dev.spaceDown k.1 = false)
    (hbey : s.dev.rx4Beyond k.1 k.2.1 k.2.2 (rxU (rx4Block 5 b) 0x18 4) (rxU (rx4Block 5 b) 0xC 4) = false)
    (hf : Dev.rx4File k.1 k.2.1 k.2.2 (rxU (rx4Block 5 b) 0x18 4) (rxU (rx4Block 5 b) 0xC 4) = some l)
    (h : ∀ cmd, P { s.dev.at t with rx4 := { s.dev.rx4 with
      cmd := cmd, done := 0, invalid := 0, overflow := 0, table := [], state := 1, legacy := 0, status := 0, epoch := k.1.visible
      run := some { block := rx4Block 5 b, file := l, epoch := k.1.visible } } }) :
    Gives (.fileIn t b) s P := by
  refine gives_host hsv (t := t) (f := fun d => d.rx4Send 5 b) rfl ?_
  have hcmd := (s.dev.at t).rx4Cmd_put 5 b
  have hrx := rxU_rx4Block hok (by omega)
  rw [show (s.dev.at t).rx4Send 5 b = (s.dev.at t).rx4Command 5 b from if_neg (by change ¬ s.dev.start.banked = true; rw [hb]; simp)]
  rw [show (s.dev.at t).rx4Command 5 b = _ from Dev.rx4Go_fileIn
    (d := (s.dev.at t).rx4Put (rx4Block 5 b)) (k := k) (l := l) hrun hbit ho ht
    (by rw [hcmd]; exact hok) (by rw [hcmd, hrx]) hlock hdown (by rw [hcmd]; exact hbey) (by rw [hcmd]; exact hf), hcmd]
  exact h _

end

/-- Settles O44: the compare-and-writes by `cwWrite_done`, `cwWrite_vetoed` and `cwWrite_refused`, the commands by `gives_rx4Send`, the records by
`rx4Record_some`. -/
theorem rx4Window : Obligations.Rx4Window := by
  unfold Obligations.Rx4Window
  refine ⟨fun s t sp hs hh h0 hsp hx ho ht hq hon hsl hc hf => effects_run (f := fun d => d.cwWrite t 0 0x03000000 4 1 0 (s.dev.writeCount 0x03000000)) rfl ?_,
    fun s t hs hh h0 hsp hc => effects_run (f := fun d => d.cwWrite t 0 0x03000000 4 1 0 (s.dev.writeCount 0x03000000)) rfl ?_,
    fun s t x hs hh h1 hr => effects_run (f := fun d => d.cwWrite t x 0x03000000 4 0 1 (s.dev.writeCount 0x03000000)) rfl ?_,
    fun s t x r hs hh h1 hr => effects_run (f := fun d => d.cwWrite t x 0x03000000 4 0 1 (s.dev.writeCount 0x03000000)) rfl ?_,
    fun s t b k hsv hb hr hbit ho ht hok => gives_rx4Send (op := 1) hsv hb hr rfl hbit ho ht hok (by decide) (fun h => absurd h (by decide)) (fun cmd hcmd => ⟨hcmd, congrArg (fun l => some ({ block := l } : Rx4Run)) hcmd.symm, rfl⟩),
    fun s t b k hsv hb hr hbit ho ht hok => gives_rx4Send (op := 2) hsv hb hr rfl hbit ho ht hok (by decide) (fun h => absurd h (by decide)) (fun _ _ => ⟨rfl, rfl⟩),
    fun s t b k hsv hb hr hbit ho ht hok => gives_rx4Send (op := 3) hsv hb hr rfl hbit ho ht hok (by decide) (fun h => absurd h (by decide)) (fun _ _ => ⟨rfl, rfl⟩),
    fun s t b k hsv hb hr hbit ho ht hok hm hl hd => gives_rx4Send (op := 4) hsv hb hr rfl hbit ho ht hok (by decide) (fun _ => ⟨hm, hl, hd⟩)
      (fun _ _ => ⟨rfl, rfl⟩),
    fun s t b k l hsv hb hr hbit ho ht hok hl hd hbey hf => gives_fileIn hsv hb hr hbit ho ht hok hl hd hbey hf (fun _ => ⟨rfl, rfl, rfl⟩),
    fun s t b hsv hb hr hoff => gives_host hsv (t := t) (f := fun d => d.rx4Send 1 b) rfl ?_,
    fun s t r h raw hr hh hc hp ha h1 hf hn hi => effects_run (f := fun d => d.rx4Record t (some raw)) rfl ?_,
    fun s t r h raw f hr hh hc hp ha hle h4 hf hn hi => effects_run (f := fun d => d.rx4Record t (some raw)) rfl ?_,
    fun s t r h raw hr hh hc hp ha h1 hf hn hi => effects_run (f := fun d => d.rx4Record t (some raw)) rfl ?_,
    fun s t r h raw f hr hh hc hp ha h1 hf hi => effects_run (f := fun d => d.rx4Record t (some raw)) rfl ?_,
    fun s t r hsv hr => gives_host hsv (t := t) (f := fun d => d.rx4Overrun) rfl ?_,
    fun s t x p v c hs hh hp hc hx hold hv h8 hr =>
      gives_run (f := fun d => d.cwWrite t x (0x03100000 + 4 * p) 4 v (s.dev.regN (0x03100000 + 4 * p)) (s.dev.writeCount (0x03100000 + 4 * p))) rfl ?_,
    fun s t x p v c hs hh hp hc => gives_run (f := fun d => d.cwWrite t x (0x03100000 + 4 * p) 4 v (s.dev.regN (0x03100000 + 4 * p)) c) rfl
      (s.dev.gpioFunc_refused hs hh hp hc ..),
    fun s t x v hs hh hv hr hne => gives_run (f := fun d => d.cwWrite t x 0x03200000 4 v (s.dev.regN 0x03200000) (s.dev.writeCount 0x03200000)) rfl
      (s.dev.uartCtrl_write hs hh hv hr hne t x)⟩
  · rw [Dev.rx4Enable_write hs hh h0 t]
    obtain ⟨h1, h2, h3, h4, h5, h6⟩ := Dev.rx4Enable_granted (d := ((s.dev.at t).at t).cwDone 0 0x03000000 1) (sp := sp)
      (by rw [Dev.rx4Ts_ctrl]; exact hsp) hx (by rw [Dev.rx4Owned_ctrl]; exact ho) (by rw [Dev.rx4Table_ctrl]; exact ht) hq hon hsl hc hf
    exact ⟨h1, h2, h3, h4, h5, by rw [h6]; rfl⟩
  · rw [Dev.rx4Enable_write hs hh h0 t]
    have hnone : (((s.dev.at t).at t).cwDone 0 0x03000000 1).space (((s.dev.at t).at t).cwDone 0 0x03000000 1).rx4Ts = none := by
      rw [Dev.rx4Ts_ctrl]; exact hsp
    have hclaims : (((s.dev.at t).at t).cwDone 0 0x03000000 1).rx4.claims = [] := hc
    have hmail : (((s.dev.at t).at t).cwDone 0 0x03000000 1).mail = s.dev.mail := rfl
    generalize ((s.dev.at t).at t).cwDone 0 0x03000000 1 = e at *
    unfold Dev.rx4Enable Dev.rx4Refuse
    rw [hnone]
    obtain ⟨h1, h2, _, _, h5⟩ := e.rx4Off_spec 1
    refine ⟨by rw [Dev.regN, Dev.reg_setReg_at, if_neg (by decide)]; exact h1, h2, h5, ?_⟩
    change (e.rx4Off 1).mail.claims = s.dev.mail.claims
    rw [Dev.rx4Off_mail hclaims, hmail]
  · rw [Dev.rx4Disable_write hs hh h1 hr t x]
    exact Dev.rx4Off_spec _ 0
  · rw [Dev.rx4Disable_vetoed hs hh h1 (by rw [hr]; rfl) t x]
    refine ⟨h1, rfl, ?_⟩
    dsimp only
    split_ifs with hc
    · exact List.contains_iff_mem.1 hc
    · simp
  · rw [show (s.dev.at t).rx4Send 1 b = _ from if_neg (by change ¬ s.dev.start.banked = true; rw [hb]; simp)]
    rw [show (s.dev.at t).rx4Command 1 b = _ from Dev.rx4Go_disabled (d := (s.dev.at t).rx4Put (rx4Block 1 b)) hr hoff]
    exact ⟨rfl, rfl⟩
  · rw [Dev.rx4Record_valid (d := s.dev.at t) hr hh hc hp ha (by omega) t raw h1 hf hi]
    dsimp only
    rw [if_neg hn]
    exact ⟨rfl, rfl⟩
  · rw [Dev.rx4Record_fault (d := s.dev.at t) hr hh hc hp ha (by omega) t raw hf hn hi]
    exact ⟨rfl, rfl, rfl, rfl⟩
  · rw [Dev.rx4Record_valid (d := s.dev.at t) hr hh hc hp ha (by omega) t raw h1 hf (by change s.dev.rx4.invalid ≠ 65; omega)]
    dsimp only
    rw [if_pos hn, Dev.rx4Finish_validate (r := { r with done := r.done + 1 }) h1]
    · exact ⟨rfl, rfl⟩
    · exact hi
  · rw [Dev.rx4Record_stops (d := s.dev.at t) hr hh hc hp ha (by omega) t raw hf hi]
    exact ⟨rfl, rfl⟩
  · unfold Dev.rx4Overrun Dev.rx4Go
    have h1 : (s.dev.at t).rx4.run.isSome = true := by rw [show (s.dev.at t).rx4.run = some r from hr]; rfl
    rw [if_pos h1, if_pos h1]
    rfl
  · subst hx
    exact s.dev.gpioFunc_write hs hh hp hc hold hv h8 hr t

end Sys2Proof.Machine

/-!
PROOF. Start attempts, Banked mode and stops (R432, R546 to R556, R586, R597, R622 to R629): what each step of an attempt leaves unchanged, and the
commands that follow.
-/
namespace Sys2Proof.Machine

/-! ### What the recorder, an event and a domain leave unchanged -/

theorem Dev.bump_only (d : Dev) (a n : Nat) : ∃ regs tally, d.bump a n = { d with regs := regs, tally := tally } := by
  unfold Dev.bump
  split_ifs
  · exact ⟨d.regs, d.tally, rfl⟩
  · exact ⟨_, _, rfl⟩

theorem Dev.recRing_only (d : Dev) (kind source interval : Nat) (body : Bytes) :
    ∃ rcd regs tally, d.recRing kind source interval body = { d with rcd := rcd, regs := regs, tally := tally } := by
  unfold Dev.recRing
  extract_lets b full d1 r
  obtain ⟨regs, tally, h⟩ : ∃ regs tally, d1 = { d with regs := regs, tally := tally } := by
    unfold d1
    split_ifs
    · exact d.bump_only _ _
    · exact ⟨_, _, rfl⟩
  exact ⟨_, regs, tally, by rw [h]⟩

theorem Dev.recNow_only (d : Dev) (kind source : Nat) (body : Bytes) :
    ∃ rcd regs tally, d.recNow kind source body = { d with rcd := rcd, regs := regs, tally := tally } := by
  unfold Dev.recNow
  split_ifs
  · exact ⟨_, d.regs, d.tally, rfl⟩
  · exact d.recRing_only _ _ _ _

/-- What follows a device's step that leaves all but the recorder and the counters as they are. -/
def Dev.recorderOnly (a b : Dev) : Prop := ∃ rcd regs tally, b = { a with rcd := rcd, regs := regs, tally := tally }

theorem Dev.recorderOnly_refl (d : Dev) : d.recorderOnly d := ⟨_, _, _, rfl⟩

theorem Dev.recorderOnly_trans {a b c : Dev} (h : a.recorderOnly b) (g : b.recorderOnly c) : a.recorderOnly c := by
  obtain ⟨r, s, t, rfl⟩ := h
  obtain ⟨r', s', t', rfl⟩ := g
  exact ⟨r', s', t', rfl⟩

theorem Dev.recorderOnly_foldl {α : Type} {f : Dev → α → Dev} (h : ∀ d a, Dev.recorderOnly d (f d a)) (l : List α) (d : Dev) :
    d.recorderOnly (l.foldl f d) := by
  induction l generalizing d with
  | nil => exact d.recorderOnly_refl
  | cons a r ih => exact Dev.recorderOnly_trans (h d a) (ih _)

theorem Dev.recLost_only (d : Dev) : d.recorderOnly d.recLost :=
  Dev.recorderOnly_foldl (fun d c => by
    dsimp only
    split_ifs
    · exact d.recorderOnly_refl
    · exact Dev.recorderOnly_trans ⟨_, d.regs, d.tally, rfl⟩ (Dev.recRing_only _ _ _ _ _)) _ d

theorem Dev.recClose_only (d : Dev) : d.recorderOnly d.recClose := by
  unfold Dev.recClose
  extract_lets a iv d1 d2 d3 d4
  have h1 : d.recorderOnly d1 := Dev.recorderOnly_trans d.recLost_only (Dev.recorderOnly_foldl (fun d p => d.recRing_only _ _ _ _) _ _)
  have h2 : d.recorderOnly d2 := Dev.recorderOnly_trans h1 (Dev.recorderOnly_foldl (fun d p => d.recRing_only _ _ _ _) _ _)
  have h3 : d.recorderOnly d3 := Dev.recorderOnly_trans h2 (Dev.recorderOnly_foldl (fun d p => d.recRing_only _ _ _ _) _ _)
  have h4 : d.recorderOnly d4 := Dev.recorderOnly_trans (Dev.recorderOnly_trans (Dev.recorderOnly_trans (Dev.recorderOnly_trans h3
    (Dev.recRing_only _ _ _ _ _)) (Dev.recRing_only _ _ _ _ _)) (Dev.recRing_only _ _ _ _ _)) (Dev.recRing_only _ _ _ _ _)
  exact Dev.recorderOnly_trans h4 ⟨_, d4.regs, d4.tally, rfl⟩

theorem Dev.mboxVector_only (d : Dev) (x : Nat) : d.mboxVector x =
    { d with out := (d.mboxVector x).out, host := { d.host with fns := (d.mboxVector x).host.fns }, sec := { d.sec with ideHeld := (d.mboxVector x).sec.ideHeld } } := by
  unfold Dev.mboxVector
  dsimp only
  split_ifs
  · unfold Dev.vector
    dsimp only
    split_ifs <;> rfl
  · rfl

/-- What an event leaves of a mailbox: all but its events. -/
def Mbox.eventsOnly (f : Mbox → Mbox) : Prop := ∀ m, ∃ evs lost, f m = { m with events := evs, lost := lost }

/-- A mailbox with an event more; a full one loses its oldest (R456). -/
def Mbox.putEvent (e : Event) (m : Mbox) : Mbox :=
  if 64 ≤ m.events.length then { m with events := m.events.drop 1 ++ [e], lost := m.lost + 1 } else { m with events := m.events ++ [e] }

/-- An event: its mailbox keeps all but its events; besides, the vector is sent or held. -/
theorem Dev.event_only (d : Dev) (x code o v : Nat) : ∃ f out fns held, Mbox.eventsOnly f ∧ d.event x code o v =
    { d.mboxUpd x f with out := out, host := { d.host with fns := fns }, sec := { d.sec with ideHeld := held } } := by
  unfold Dev.event
  extract_lets m e d1
  refine ⟨Mbox.putEvent e, (if m.events.isEmpty then d1.mboxVector x else d1).out, (if m.events.isEmpty then d1.mboxVector x else d1).host.fns,
    (if m.events.isEmpty then d1.mboxVector x else d1).sec.ideHeld, fun m => ?_, ?_⟩
  · unfold Mbox.putEvent
    split_ifs
    · exact ⟨_, _, rfl⟩
    · exact ⟨_, m.lost, rfl⟩
  · split_ifs
    · exact d1.mboxVector_only x
    · rfl

/-- What the start of the device shows: its record, its mode and its mailboxes as they take requests. -/
def Dev.startView (d : Dev) : StartSt × Nat × Nat × Nat × (Nat → Bool × Option (Nat × MbReq)) :=
  (d.start, d.pwr.mode, d.pwr.limit, d.mail.running, fun y => ((d.mbox y).ready, (d.mbox y).held))

theorem Dev.startView_event (d : Dev) (x code o v : Nat) : (d.event x code o v).startView = d.startView := by
  obtain ⟨f, out, fn, held, hf, h⟩ := d.event_only x code o v
  rw [h]
  have hbox : ∀ y, (((d.mboxUpd x f).mbox y).ready, ((d.mboxUpd x f).mbox y).held) = ((d.mbox y).ready, (d.mbox y).held) := fun y => by
    by_cases hy : y = x
    · subst hy
      obtain ⟨evs, lost, hm⟩ := hf (d.mbox y)
      rw [Dev.mbox_mboxUpd, hm]
    · rw [Dev.mbox_mboxUpd_ne _ _ hy]
  exact Prod.ext rfl (Prod.ext rfl (Prod.ext rfl (Prod.ext rfl (funext hbox))))

theorem Dev.startView_eventPf (d : Dev) (code o v : Nat) : (d.eventPf code o v).startView = d.startView :=
  (Dev.startView_event ..).trans (Dev.startView_event ..)

theorem Dev.startView_setDomain (d : Dev) (n st : Nat) : (d.setDomain n st).startView = d.startView := by
  unfold Dev.setDomain
  split_ifs <;> rfl

theorem Dev.startView_recorder {a b : Dev} (h : a.recorderOnly b) : b.startView = a.startView := by
  obtain ⟨r, s, t, rfl⟩ := h
  rfl

theorem Dev.showTimes_only (d : Dev) : ∃ regs, d.showTimes = { d with regs := regs } := by
  unfold Dev.showTimes
  extract_lets d1
  have h1 : ∃ regs, d1 = { d with regs := regs } := by
    unfold d1
    exact List.foldlRecOn (motive := fun e : Dev => ∃ regs, e = { d with regs := regs }) _ _ ⟨d.regs, rfl⟩
      (fun e he i _ => by obtain ⟨r, rfl⟩ := he; exact ⟨_, rfl⟩)
  obtain ⟨r, hr⟩ := h1
  rw [hr]
  exact ⟨_, rfl⟩

/-! ### A failed start and the attempt after it -/

theorem Dev.startRecord_only (d : Dev) (r : Nat) :
    ∃ rcd regs tally ctr, d.startRecord r = { d with rcd := rcd, regs := regs, tally := tally, freeCtr := ctr, start := { d.start with cause := 0 } } := by
  unfold Dev.startRecord
  extract_lets c
  split
  next n d1 hd =>
  obtain ⟨ctr, rfl⟩ : ∃ ctr, d1 = { d with freeCtr := ctr } := by
    split_ifs at hd
    · exact ⟨d.freeCtr, (Prod.ext_iff.1 hd).2.symm⟩
    · exact ⟨_, (Prod.ext_iff.1 hd).2.symm⟩
  extract_lets why body
  obtain ⟨rcd, regs, tally, h⟩ := Dev.recNow_only { d with freeCtr := ctr, start := { d.start with cause := 0 } } 0x08 0 body
  exact ⟨rcd, regs, tally, ctr, h⟩

/-- A failure counted: the record of starts, the recorder and the console. -/
theorem Dev.countFailed_only (d : Dev) (r : Nat) : ∃ rcd regs tally ctr, d.countFailed r =
    { d with
      rcd := rcd, regs := regs, tally := tally, freeCtr := ctr, pins := { d.pins with uart := d.pins.uart ++ [r] }
      start := { d.start with
        failures := min 3 (d.start.failures + 1), reasons := (r :: d.start.reasons).take 3, open_ := false, failed := satAdd 32 d.start.failed 1
        before := d.start.before + 1, cause := 0, seq := (d.start.seq + 1) % 2 ^ 32, recOp := d.opSec } } := by
  unfold Dev.countFailed
  extract_lets s d1
  obtain ⟨rcd, regs, tally, ctr, h⟩ := d1.startRecord_only r
  refine ⟨rcd, regs, tally, ctr, ?_⟩
  rw [h]
  rfl

/-- A stage that failed, timed and counted. -/
def Dev.failCounted (d : Dev) (cause : Nat) : Dev :=
  Dev.countFailed (Dev.showTimes { d with start := { d.start with
    times := d.start.times ++ [(d.timeUs - d.start.began) / 1000], total := (d.timeUs - d.start.opened) / 1000 } }) (256 * d.start.stage + cause)

theorem Dev.failCounted_spec (d : Dev) (cause : Nat) :
    (d.failCounted cause).start.open_ = false ∧ (d.failCounted cause).start.failures = min 3 (d.start.failures + 1) ∧
      (d.failCounted cause).start.reasons.head? = some (256 * d.start.stage + cause) ∧ (d.failCounted cause).mail = d.mail := by
  unfold Dev.failCounted
  obtain ⟨regs, h0⟩ := Dev.showTimes_only { d with start := { d.start with
    times := d.start.times ++ [(d.timeUs - d.start.began) / 1000], total := (d.timeUs - d.start.opened) / 1000 } }
  rw [h0]
  obtain ⟨rcd, regs', tally, ctr, h1⟩ := Dev.countFailed_only _ (256 * d.start.stage + cause)
  rw [h1]
  exact ⟨rfl, rfl, rfl, rfl⟩

/-- A start that fails below three failures: the next attempt waits. -/
theorem Dev.startFail_retry {d : Dev} (hs : d.start.single = false) (hf : d.start.failures < 2) (cause : Nat) :
    let e := d.startFail cause
    e.start.open_ = false ∧ e.start.retry = true ∧ e.start.failures = d.start.failures + 1 ∧ e.start.reasons.head? = some (256 * d.start.stage + cause) ∧
      e.start.service = false ∧ e.pwr.stopped = none := by
  obtain ⟨hopen, hfail, hreason, -⟩ := d.failCounted_spec cause
  have heq : d.startFail cause = { (d.failCounted cause).coldState with
      start := { (d.failCounted cause).coldState.start with retry := true, stage := d.start.stage }
      host := { (d.failCounted cause).coldState.host with
        links := (d.failCounted cause).coldState.host.links.map (fun p => (p.1, { p.2 with up := false })) } } :=
    if_neg (by change ¬ (d.start.single = true ∨ 3 ≤ (d.failCounted cause).start.failures); rw [hs, hfail]; simp; omega)
  rw [heq]
  refine ⟨hopen, rfl, ?_, hreason, rfl, rfl⟩
  change (d.failCounted cause).start.failures = _
  rw [hfail]; omega

/-- The third failure, or one of a single attempt: Banked mode. -/
theorem Dev.startFail_banked {d : Dev} (hf : d.start.failures = 2) (cause : Nat) :
    d.startFail cause = ({ d.failCounted cause with start := { (d.failCounted cause).start with failures := 3 } } : Dev).bankedEntry := by
  obtain ⟨-, hfail, -, -⟩ := d.failCounted_spec cause
  exact if_pos (by change d.start.single = true ∨ 3 ≤ (d.failCounted cause).start.failures; rw [hfail, hf]; exact .inr (by decide))

theorem Dev.startView_domains (d : Dev) (mode serve : Nat) (l : List Nat) :
    (l.foldl (fun (d : Dev) n => d.setDomain n (d.domTarget mode serve n)) d).startView = d.startView :=
  foldl_keep (P := Dev.startView) (fun d _ => d.startView_setDomain _ _) l d

/-- The state that Banked mode begins from (R552). -/
def Dev.bankedCold (d : Dev) : Dev :=
  { d.coldState with
    pwr := { d.coldState.pwr with mode := 2, limit := 18 }
    start := { d.coldState.start with banked := true, open_ := false, stage := 0, retry := false, single := false } }

theorem Dev.bankedEntry_cold (d : Dev) : ∃ d1, d.recorderOnly d1 ∧ d.bankedEntry =
    ((List.range 72).foldl (fun (d : Dev) n => d.setDomain n (d.domTarget 2 0 n)) d1.bankedCold).writeStart.mboxUpd 0 (fun m => { m with ready := true }) := by
  refine ⟨_, ?_, rfl⟩
  split_ifs
  · exact ⟨_, d.regs, d.tally, rfl⟩
  · exact d.recClose_only

/-- Banked mode: the record closed, the domains of the mode, and the mailbox of PF0. -/
theorem Dev.bankedEntry_spec (d : Dev) :
    let e := d.bankedEntry
    e.start.banked = true ∧ e.start.open_ = false ∧ e.start.failures = d.start.failures ∧ e.start.service = false ∧ e.pwr.mode = 2 ∧ e.pwr.limit = 18 ∧
      (e.mbox 0).ready = true := by
  obtain ⟨d1, h1, heq⟩ := d.bankedEntry_cold
  have hfail : d1.start.failures = d.start.failures := by obtain ⟨rcd, regs, tally, rfl⟩ := h1; rfl
  rw [heq]
  have hview := d1.bankedCold.startView_domains 2 0 (List.range 72)
  generalize (List.range 72).foldl (fun (d : Dev) n => d.setDomain n (d.domTarget 2 0 n)) d1.bankedCold = d4 at *
  have hstart : d4.start = d1.bankedCold.start := congrArg Prod.fst hview
  have hmode : d4.pwr.mode = 2 := congrArg (fun v => v.2.1) hview
  have hlimit : d4.pwr.limit = 18 := congrArg (fun v => v.2.2.1) hview
  have hw : (d4.writeStart.mboxUpd 0 (fun m => { m with ready := true })).start =
      { d1.bankedCold.start with seq := (d1.bankedCold.start.seq + 1) % 2 ^ 32, recOp := d4.opSec } := by rw [← hstart]; rfl
  intro e
  rw [show e.start = _ from hw]
  exact ⟨rfl, rfl, hfail, rfl, hmode, hlimit, congrArg Mbox.ready (Dev.mbox_mboxUpd ..)⟩

/-- An attempt falls back to the other slot after two failures, where that is enabled and the slot is valid (R550). -/
def Dev.fallsBack (d : Dev) (slot : Option Nat) : Bool :=
  slot.isNone && d.start.failures == 2 && d.coldState.regField 0x02D00038 0 0 == 1 && d.slotState (1 - d.mail.boot) == 2

theorem Dev.fallsBack_early {d : Dev} (h : d.start.failures < 2) (slot : Option Nat) : d.fallsBack slot = false := by
  have : (d.start.failures == 2) = false := by simp; omega
  simp [Dev.fallsBack, this]

/-- An attempt begins: its record, its stage and its clock; the queues, the stop and the claims are gone. -/
theorem Dev.beginAttempt_spec (d : Dev) {stage : Nat} (h : stage = 1 ∨ stage = 2) (slot : Option Nat) :
    let e := d.beginAttempt stage slot
    e.start.open_ = true ∧ e.start.stage = stage ∧ e.start.banked = false ∧ e.start.retry = false ∧ e.start.single = slot.isSome ∧
      e.start.slot = (match slot with | some s => s | none => if d.fallsBack slot then 1 - d.mail.boot else d.mail.boot) ∧ e.start.fallback = d.fallsBack slot ∧
      e.start.failures = d.start.failures ∧ e.start.reasons = d.start.reasons ∧ e.start.bankNext = false ∧
      e.cycles = (if stage = 1 then (d.cycles + 1) % 2 ^ 32 else d.cycles) ∧ e.pins.uart = d.pins.uart ++ [stage] ∧ e.out = d.out ∧
      e.pwr.sysGood = d.pwr.sysGood ∧ e.pwr.stopped = none := by
  rcases h with rfl | rfl <;> exact ⟨rfl, rfl, rfl, rfl, rfl, rfl, rfl, rfl, rfl, rfl, rfl, rfl, rfl, rfl, rfl⟩

/-! ### Stages (R546 to R548, R553) -/

/-- The stage after one that is done. -/
theorem Dev.nextStage_spec {d : Dev} (h : d.start.stage < 7) :
    ∃ regs, d.nextStage = Dev.beginStage { d with regs := regs, start := { d.start with
      times := d.start.times ++ [(d.timeUs - d.start.began) / 1000] } } (d.start.stage + 1) := by
  unfold Dev.nextStage
  extract_lets s d1
  obtain ⟨regs, h1⟩ := Dev.showTimes_only { d with start := { s with times := s.times ++ [(d.timeUs - s.began) / 1000] } }
  exact ⟨regs, (if_pos h).trans (congrArg (fun e : Dev => e.beginStage (s.stage + 1)) h1)⟩

section
variable {d : Dev} {t : Nat} {f : StageIn} (take : Dev → Nat → Dev) (ho : d.start.open_ = true) {n : Nat} (hn : d.start.stage = n) (h0 : n ≠ 0)
include ho hn h0

/-- A stage that passes its checks. -/
theorem Dev.stageComplete_passes (hw : (d.at t).stageRefuses n f = 0) (hb : n = 1 → d.start.bankNext = false) (h3 : n < 3 ∨ 5 < n) :
    d.stageComplete t f take = if n = 7 then (d.at t).nextStage.stageService f take else (d.at t).nextStage := by
  subst hn
  unfold Dev.stageComplete
  extract_lets d0 m why src d1 d2
  have hd1 : d1 = d0 := by
    have hm : m < 3 ∨ 5 < m := h3
    unfold d1
    generalize m = k at *
    match k with
    | 0 | 1 | 2 => rfl
    | 3 | 4 | 5 => omega
    | k + 6 => rfl
  have hwhy : why = 0 := hw
  rw [if_neg (by simpa [d0, m, Dev.at, ho] using h0), if_neg (not_not.2 hwhy), if_neg (fun h => by have := hb h.1; have := h.2; simp_all [d0, Dev.at])]
  unfold d2
  rw [hd1]
  rfl

/-- A stage that fails its checks. -/
theorem Dev.stageComplete_fails (hw : (d.at t).stageRefuses n f ≠ 0) : d.stageComplete t f take = (d.at t).startFail ((d.at t).stageRefuses n f) := by
  subst hn
  unfold Dev.stageComplete
  extract_lets d0 m why src d1 d2
  have hwhy : why ≠ 0 := hw
  rw [if_neg (by simpa [d0, m, Dev.at, ho] using h0), if_pos hwhy]
  rfl

end

/-- Stage 1 with Banked mode to follow it (R552). -/
theorem Dev.stageComplete_banks {d : Dev} {t : Nat} {f : StageIn} (take : Dev → Nat → Dev) (ho : d.start.open_ = true)
    (hn : d.start.stage = 1) (hw : (d.at t).stageRefuses 1 f = 0) (hb : d.start.bankNext = true) :
    d.stageComplete t f take = ({ d.at t with start := { d.start with open_ := false } } : Dev).bankedEntry := by
  unfold Dev.stageComplete
  extract_lets d0 m why src d1 d2
  have hm : m = 1 := hn
  rw [hm, if_neg (by simp [d0, Dev.at, ho]), if_neg (by simpa [why, hm] using hw), if_pos ⟨rfl, hb⟩]
  rfl

theorem Dev.startView_held {a b : Dev} (h : a.startView = b.startView) (y : Nat) : (a.mbox y).held = (b.mbox y).held :=
  congrArg Prod.snd (congrFun (congrArg (fun v => v.2.2.2.2) h) y)

theorem Dev.startView_ready {a b : Dev} (h : a.startView = b.startView) (y : Nat) : (a.mbox y).ready = (b.mbox y).ready :=
  congrArg Prod.fst (congrFun (congrArg (fun v => v.2.2.2.2) h) y)

theorem Dev.startView_loadSys (d : Dev) (h : Nat) (l : List SysTable) : (d.loadSys h l).startView = d.startView := rfl

theorem Dev.startView_showTimes (d : Dev) : d.showTimes.startView = d.startView := by
  obtain ⟨r, h⟩ := d.showTimes_only
  rw [h]
  rfl

theorem Dev.startView_showGroups (d : Dev) : d.showGroups.startView = d.startView := by
  unfold Dev.showGroups
  extract_lets d1 all now old src d2
  have h1 : d1.startView = d.startView := foldl_keep (P := Dev.startView) (fun d g => by
    dsimp only
    split_ifs
    · rfl
    · exact Dev.startView_eventPf ..) _ _
  refine (foldl_keep (P := Dev.startView) (fun d s => ?_) _ d2).trans h1
  dsimp only
  split_ifs
  · rfl
  · exact Dev.startView_eventPf ..
  · exact (Dev.startView_event ..).trans (Dev.startView_eventPf ..)

/-- A mailbox that holds no request takes none. -/
theorem Dev.mbTake_none {d : Dev} {x : Nat} (h : (d.mbox x).held = none) : d.mbTake x = d := by
  rw [Dev.mbTake, h]

/-- The device as the last stage leaves it: it serves, in Idle (R553). -/
def Dev.serveBegins (d1 : Dev) (s : StartSt) : Dev :=
  { d1 with
    mail := { d1.mail with running := s.slot, boot := if s.single ∨ s.fallback then s.slot else d1.mail.boot }
    sec := { d1.sec with svnRun := (d1.slotFw s.slot).svn }
    pwr := { d1.pwr with mode := 3, limit := modeLimit 3 0 290 }
    start := { d1.start with
      service := true, open_ := false, stage := 0, failures := 0, before := 0, single := false, served := satAdd 32 s.served 1
      total := (d1.timeUs - s.opened) / 1000 } }

/-- Its domains and banks, as Idle has them. -/
def Dev.serveDomains (d : Dev) : Dev :=
  ((List.range 72).foldl (fun (d : Dev) n => d.setDomain n (d.domTarget 3 0 n)) d.showTimes).retainBanks (List.range hearthCount)

/-- Its records, and its mailboxes ready. -/
def Dev.serveReady (d : Dev) : Dev :=
  ((d.startRecord 0).writeStart.mboxUpd 0 (fun m => { m with ready := true })).mboxUpd 513 (fun m => { m with ready := true })

/-- What it tells of the attempt. -/
def Dev.serveTells (d : Dev) (s : StartSt) : Dev :=
  let r := fun (i : Nat) => s.reasons.getD i 0
  let d6 := if s.before = 0 then d else d.eventPf 0x0140 s.before (r 0 + 65536 * r 1 + 2 ^ 32 * r 2)
  let d7 := if s.fallback then d6.eventPf 0x0141 s.slot 0 else d6
  (if s.single then d7.event 0 0x0004 0 1 else d7).showGroups

theorem Dev.startView_retainBanks (d : Dev) (l : List Nat) : (d.retainBanks l).startView = d.startView := rfl

theorem Dev.startView_serveDomains (d : Dev) : d.serveDomains.startView = d.startView := by
  rw [Dev.serveDomains, Dev.startView_retainBanks, Dev.startView_domains, Dev.startView_showTimes]

theorem Dev.startView_serveTells (d : Dev) (s : StartSt) : (d.serveTells s).startView = d.startView := by
  unfold Dev.serveTells
  extract_lets r d6 d7
  have h6 : d6.startView = d.startView := by unfold d6; split_ifs; exacts [rfl, Dev.startView_eventPf ..]
  have h7 : d7.startView = d6.startView := by unfold d7; split_ifs; exacts [Dev.startView_eventPf .., rfl]
  refine (Dev.startView_showGroups _).trans ?_
  split_ifs
  · exact (Dev.startView_event ..).trans (h7.trans h6)
  · exact h7.trans h6

theorem Dev.writeStart_record (d : Dev) : (d.startRecord 0).writeStart.start = { d.start with
    cause := 0, seq := (d.start.seq + 1) % 2 ^ 32, recOp := (d.startRecord 0).opSec } ∧ (d.startRecord 0).writeStart.pwr = d.pwr ∧
    (d.startRecord 0).writeStart.mail = d.mail := by
  obtain ⟨rcd, regs, tally, ctr, h⟩ := d.startRecord_only 0
  rw [h]
  exact ⟨rfl, rfl, rfl⟩

/-- The mailboxes of the two PFs are ready, and the rest of the view stands. -/
theorem Dev.serveReady_spec (d : Dev) :
    let e := d.serveReady
    e.start.service = d.start.service ∧ e.start.stage = d.start.stage ∧ e.start.open_ = d.start.open_ ∧ e.start.failures = d.start.failures ∧
      e.start.served = d.start.served ∧ e.pwr = d.pwr ∧ e.mail.running = d.mail.running ∧
      (∀ y, y = 0 ∨ y = 513 → (e.mbox y).ready = true) ∧ ∀ y, (e.mbox y).held = (d.mbox y).held := by
  unfold Dev.serveReady
  obtain ⟨hstart, hpwr, hmail⟩ := d.writeStart_record
  generalize (d.startRecord 0).writeStart = e at *
  have hput : ∀ (e : Dev) x y, ((e.mboxUpd x (fun m => { m with ready := true })).mbox y).held = (e.mbox y).held := fun e x y => by
    by_cases hy : y = x
    · subst hy; rw [Dev.mbox_mboxUpd]
    · rw [Dev.mbox_mboxUpd_ne _ _ hy]
  have hs : e.start.service = d.start.service ∧ e.start.stage = d.start.stage ∧ e.start.open_ = d.start.open_ ∧ e.start.failures = d.start.failures ∧
      e.start.served = d.start.served := by rw [hstart]; exact ⟨rfl, rfl, rfl, rfl, rfl⟩
  have hrun : e.mail.running = d.mail.running := by rw [hmail]
  obtain ⟨h1, h2, h3, h4, h5⟩ := hs
  refine ⟨h1, h2, h3, h4, h5, hpwr, hrun, fun y hy => ?_, fun y => ?_⟩
  · rcases hy with rfl | rfl
    · rw [Dev.mbox_mboxUpd_ne _ _ (by decide), Dev.mbox_mboxUpd]
    · rw [Dev.mbox_mboxUpd]
  · rw [hput, hput, Dev.mbox, hmail, Dev.mbox]

/-- The end of the last stage: the device serves, in Idle, and both mailboxes are ready (R553). -/
theorem Dev.stageService_spec {d : Dev} (f : StageIn) (hs : d.store.spaces = []) (h0 : (d.mbox 0).held = none) (h513 : (d.mbox 513).held = none) :
    let e := d.stageService f (fun d x => d.mbTake x)
    e.start.service = true ∧ e.start.stage = 0 ∧ e.start.open_ = false ∧ e.start.failures = 0 ∧ e.start.served = satAdd 32 d.start.served 1 ∧
      e.pwr.mode = 3 ∧ e.pwr.limit = 30 ∧ e.mail.running = d.start.slot ∧ (e.mbox 0).ready = true ∧ (e.mbox 513).ready = true := by
  have hreplay : (d.replayOwned f).finishRemovals.startView = d.startView := by
    unfold Dev.finishRemovals Dev.replayOwned
    simp only [hs, List.map_nil, List.foldl_nil, List.filter_nil]
    rfl
  obtain ⟨d1, hv1, heq⟩ : ∃ d1 : Dev, d1.startView = d.startView ∧ d.stageService f (fun d x => d.mbTake x) =
      [0, 513].foldl (fun (d : Dev) x => d.mbTake x) (((d1.serveBegins d.start).serveDomains.serveReady).serveTells d.start) :=
    ⟨_, (foldl_keep (P := Dev.startView) (fun _ _ => Dev.startView_loadSys ..) _ _).trans hreplay, rfl⟩
  have hv3 := (d1.serveBegins d.start).startView_serveDomains
  generalize (d1.serveBegins d.start).serveDomains = d3 at *
  obtain ⟨hsv, hst, hop, hfa, hse, hpwr, hrun, hready, hheld⟩ := d3.serveReady_spec
  have hv8 := d3.serveReady.startView_serveTells d.start
  have hnone : ∀ y, ((d3.serveReady.serveTells d.start).mbox y).held = (d.mbox y).held := fun y =>
    (Dev.startView_held hv8 y).trans ((hheld y).trans ((Dev.startView_held hv3 y).trans (Dev.startView_held hv1 y)))
  have hlast : d.stageService f (fun d x => d.mbTake x) = d3.serveReady.serveTells d.start := by
    rw [heq]
    change ((d3.serveReady.serveTells d.start).mbTake 0).mbTake 513 = _
    rw [Dev.mbTake_none ((hnone 0).trans h0), Dev.mbTake_none ((hnone 513).trans h513)]
  have hstart3 : d3.start = (d1.serveBegins d.start).start := congrArg Prod.fst hv3
  intro e
  rw [show e = _ from hlast, show (d3.serveReady.serveTells d.start).start = d3.serveReady.start from congrArg Prod.fst hv8,
    show (d3.serveReady.serveTells d.start).pwr.mode = d3.serveReady.pwr.mode from congrArg (fun v => v.2.1) hv8,
    show (d3.serveReady.serveTells d.start).pwr.limit = d3.serveReady.pwr.limit from congrArg (fun v => v.2.2.1) hv8,
    show (d3.serveReady.serveTells d.start).mail.running = d3.serveReady.mail.running from congrArg (fun v => v.2.2.2.1) hv8,
    hsv, hst, hop, hfa, hse, hpwr, hrun, hstart3, Dev.startView_ready hv8 0, Dev.startView_ready hv8 513]
  exact ⟨rfl, rfl, rfl, rfl, rfl, congrArg (fun v => v.2.1) hv3, congrArg (fun v => v.2.2.1) hv3, congrArg (fun v => v.2.2.2.1) hv3,
    hready 0 (.inl rfl), hready 513 (.inr rfl)⟩

/-! ### The commands -/

/-- SYS_PWRGD has risen. -/
def Dev.sysUp (d : Dev) : Dev := { d with pwr := { d.pwr with sysGood := true, trip := false } }

/-- The supplies have come: an attempt begins at stage 1 (R546). -/
theorem Dev.startAttempt_off {d : Dev} (ha : d.pwr.aonGood = true) (he : d.start.ember = false) (hs : d.pwr.sysGood = false) (ht : d.pwr.trip = false)
    (t : Nat) : d.startAttempt t =
      let d3 := (d.at t).sysUp.countLost.beginAttempt 1 none
      { d3 with start := { d3.start with bankNext := decide (3 ≤ d3.start.failures) } } := by
  have h1 : ¬ (!(d.at t).pwr.aonGood) = true := by simp [Dev.at, ha]
  have h2 : ¬ (d.at t).start.ember = true := by simp [Dev.at, he]
  have h3 : ¬ (d.at t).pwr.sysGood = true := by simp [Dev.at, hs]
  have h4 : ¬ (d.at t).pwr.trip = true := by simp [Dev.at, ht]
  refine (if_neg h1).trans ((if_neg h2).trans ((if_neg h3).trans ?_))
  dsimp only
  rw [if_neg h4]
  rfl

theorem Dev.countLost_closed {d : Dev} (h : d.start.open_ = false) : d.countLost = d := by simp [Dev.countLost, h]

theorem Dev.countLost_open {d : Dev} (h : d.start.open_ = true) (hs : d.start.single = false) (ht : d.start.tripLatch = false) :
    d.countLost = d.countFailed (256 * d.start.stage + 9) := by simp [Dev.countLost, h, hs, ht]

theorem Dev.startAttempt_first {d : Dev} (ha : d.pwr.aonGood = true) (he : d.start.ember = false) (hs : d.pwr.sysGood = false) (ht : d.pwr.trip = false)
    (ho : d.start.open_ = false) (hf : d.start.failures < 2) (t : Nat) :
    let e := d.startAttempt t
    e.pwr.sysGood = true ∧ e.start.open_ = true ∧ e.start.stage = 1 ∧ e.start.slot = d.mail.boot ∧ e.start.bankNext = false ∧
      e.start.failures = d.start.failures ∧ e.cycles = (d.cycles + 1) % 2 ^ 32 ∧ e.pins.uart = d.pins.uart ++ [1] ∧ e.out = d.out := by
  rw [Dev.startAttempt_off ha he hs ht, Dev.countLost_closed (d := (d.at t).sysUp) ho]
  obtain ⟨h1, h2, -, -, -, h6, -, h8, -, -, h11, h12, h13, h14, -⟩ :=
    Dev.beginAttempt_spec (d.at t).sysUp (.inl rfl) none
  refine ⟨h14, h1, h2, h6.trans ?_, ?_, h8, h11, h12, h13⟩
  · exact if_neg (by rw [Dev.fallsBack_early (d := (d.at t).sysUp) hf]; decide)
  · exact decide_eq_false (by rw [h8]; change ¬ 3 ≤ d.start.failures; omega)

theorem Dev.startAttempt_lost {d : Dev} (ha : d.pwr.aonGood = true) (he : d.start.ember = false) (hs : d.pwr.sysGood = false) (ht : d.pwr.trip = false)
    (ho : d.start.open_ = true) (hf : d.start.failures = 0) (h1 : d.start.single = false) (hl : d.start.tripLatch = false) (t : Nat) :
    let e := d.startAttempt t
    e.start.failures = 1 ∧ e.start.reasons.head? = some (256 * d.start.stage + 9) ∧ e.start.stage = 1 ∧ e.start.open_ = true := by
  rw [Dev.startAttempt_off ha he hs ht, Dev.countLost_open (d := (d.at t).sysUp) ho h1 hl]
  obtain ⟨rcd, regs, tally, ctr, hc⟩ :=
    Dev.countFailed_only (d.at t).sysUp (256 * d.start.stage + 9)
  obtain ⟨h1, h2, -, -, -, -, -, h8, h9, -⟩ := Dev.beginAttempt_spec
    (Dev.countFailed (d.at t).sysUp (256 * d.start.stage + 9)) (.inl rfl) none
  refine ⟨h8.trans ?_, (congrArg List.head? h9).trans ?_, h2, h1⟩
  · rw [hc]
    change min 3 (d.start.failures + 1) = 1
    rw [hf]; rfl
  · rw [hc]
    rfl

theorem Dev.startAttempt_fallback {d : Dev} (ha : d.pwr.aonGood = true) (he : d.start.ember = false) (hs : d.pwr.sysGood = false) (ht : d.pwr.trip = false)
    (ho : d.start.open_ = false) (hf : d.start.failures = 2) (hr : d.regField 0x02D00038 0 0 = 1) (hb : d.mail.boot = 0) (h1 : d.slotState 1 = 2) (t : Nat) :
    (d.startAttempt t).start.slot = 1 ∧ (d.startAttempt t).start.fallback = true := by
  rw [Dev.startAttempt_off ha he hs ht, Dev.countLost_closed (d := (d.at t).sysUp) ho]
  obtain ⟨-, -, -, -, -, h6, h7, -⟩ :=
    Dev.beginAttempt_spec (d.at t).sysUp (.inl rfl) none
  have hcold : (d.at t).sysUp.coldState.regField 0x02D00038 0 0 = 1 := by
    refine Eq.trans ?_ hr
    have hreg : (d.at t).sysUp.coldState.reg 0x02D00038 = d.reg 0x02D00038 := by
      change tabGet _ (d.regs.filter (fun p => aonReg p.1)) _ = tabGet _ d.regs _
      exact (tabGet_filter ..).trans (if_pos rfl)
    rw [Dev.regField, Dev.regField, Dev.regN, Dev.regN, hreg]
  have hother : (d.at t).sysUp.fallsBack none = true := by
    have hf2 : (d.at t).sysUp.start.failures = 2 := hf
    have hs2 : (d.at t).sysUp.slotState (1 - (d.at t).sysUp.mail.boot) = 2 := (congrArg (fun b => d.slotState (1 - b)) hb).trans h1
    rw [Dev.fallsBack, hf2, hcold, hs2]
    rfl
  refine ⟨h6.trans ((if_pos hother).trans ?_), h7.trans hother⟩
  exact congrArg (1 - ·) hb

/-- The bound of every stage is 20 s at most (Table 19.1). -/
theorem stageBound_le (stage : Nat) (ember reuse : Bool) : stageBound stage ember reuse ≤ 20000000 := by
  have hget : ∀ (l : List Nat) i, (∀ a ∈ l, a ≤ 20000) → l.getD i 0 ≤ 20000 := fun l i h => by
    rcases Nat.lt_or_ge i l.length with hi | hi
    · rw [List.getD_eq_getElem _ _ hi]
      exact h _ (List.getElem_mem hi)
    · rw [List.getD_eq_default _ _ hi]
      omega
  have h1 := hget [0, 400, 100, 300, 600, 300, 300] (stage - 1) (by decide)
  have h2 := hget [500, 2000, 1000, 20000, 12000, 5000, 4500] (stage - 1) (by decide)
  unfold stageBound
  split_ifs <;> omega

/-- A stage that passes every bound: the replay of stage 6 goes on, any other stage fails. -/
theorem Dev.stageTimeout_over {d : Dev} (ho : d.start.open_ = true) (h0 : d.start.stage ≠ 0) {t : Nat} (ht : d.start.began + 20000000 ≤ max d.timeUs t)
    (reuse : Bool) : d.stageTimeout t reuse = if d.start.stage = 6 then (d.at t).nextStage else (d.at t).startFail 4 := by
  unfold Dev.stageTimeout
  extract_lets d0 s saved short
  have hb := stageBound_le s.stage short saved
  have hlt : ¬ d0.timeUs < s.began + stageBound s.stage short saved := not_lt.2 ((Nat.add_le_add_left hb _).trans ht)
  have ho' : s.open_ = true := ho
  have h0' : ¬ s.stage = 0 := h0
  rw [if_neg (by rw [ho', decide_eq_false h0', decide_eq_false hlt]; decide)]
  rfl

/-- A long operation opens where none runs (R463). -/
theorem Dev.openOp_first {d : Dev} (hops : d.runningOps = []) (x op : Nat) (args : List Nat) (data : Bytes) (total : Nat) :
    d.openOp x op args data total = .ok (d.mail.nextHandle, d.opened x op args data total) := by
  unfold Dev.openOp
  rw [hops]
  rfl

/-- An open update of a slot over PLDM (R477). -/
theorem Dev.pldmUpdate_opens {d : Dev} {s : Nat} {image : Bytes} (hh : d.hostStopped = false) (hs : d.start.service = true) (hb : d.start.banked = false)
    (h1 : s ≤ 1) (hr : s ≠ d.mail.running) (hi : image ≠ []) (hl : image.length ≤ 96 * 2 ^ 20) (hops : d.runningOps = []) (t : Nat) :
    let e := d.pldmUpdate t s image
    e.mail.ops = d.mail.ops ++ [{ handle := d.mail.nextHandle, x := opOrphan, op := 0x50, args := [s], data := image, total := 3, object := s }] ∧
      e.out = d.out ++ [.mgmt [Config.pldm 0]] := by
  have hserves : (d.at t).mgmtServes = true := by
    change (!d.hostStopped && (d.start.service || d.start.banked)) = true
    rw [hh, hs]; rfl
  have hfree : (d.at t).slotFree s = true := by
    change (d.start.banked || s != d.mail.running) = true
    rw [hb]; simpa using hr
  have hok : ¬ (1 < s ∨ image.length = 0 ∨ 96 * 2 ^ 20 < image.length ∨ (d.at t).slotFree s = false) := by
    have := List.length_pos_iff.2 hi
    rw [hfree]
    simp only [Bool.true_eq_false, or_false]
    omega
  have heq : d.pldmUpdate t s image = ((d.at t).opened opOrphan 0x50 [s] image 3).pldm 0 := by
    unfold Dev.pldmUpdate
    extract_lets d0
    rw [if_neg (by simp [d0, hserves]), if_neg hok, show d0.openOp opOrphan 0x50 [s] image 3 = _ from Dev.openOp_first (d := d.at t) hops _ _ _ _ _]
  rw [heq]
  exact ⟨rfl, rfl⟩

section
variable {d : Dev} {s : Nat} (hh : d.hostStopped = false) (h1 : s ≤ 1) (hv : d.slotState s = 2) (t : Nat)
include hh h1 hv

/-- An open activation of a slot over PLDM (R477, R479). -/
theorem Dev.pldmActivate_opens (hs : d.start.service = true) (hb : d.start.banked = false) (hsvn : d.sec.svnMin ≤ (d.slotFw s).svn)
    (htp : d.sharesTp s = true) (hops : d.runningOps = []) :
    let e := d.pldmActivate t s
    e.mail.ops = d.mail.ops ++ [{ handle := d.mail.nextHandle, x := opOrphan, op := 0x51, args := [s], total := 5, object := s }] ∧
      e.out = d.out ++ [.mgmt [Config.pldm 0]] := by
  have hserves : (d.at t).mgmtServes = true := by
    change (!d.hostStopped && (d.start.service || d.start.banked)) = true
    rw [hh, hs]; rfl
  have hnil : (d.at t).runningOps = [] := hops
  have hidle : ¬ (d.at t).activator.isSome = true := by rw [Dev.activator, hnil]; decide
  have hok : ¬ (1 < s ∨ (d.at t).slotState s ≠ 2) := by
    rw [show (d.at t).slotState s = 2 from hv]; omega
  have hfit : ¬ (((d.at t).slotFw s).svn < (d.at t).sec.svnMin ∨ (d.at t).sharesTp s = false) := by
    rw [show (d.at t).sharesTp s = true from htp]
    have : (d.at t).sec.svnMin ≤ ((d.at t).slotFw s).svn := hsvn
    simpa using this
  have heq : d.pldmActivate t s = ((d.at t).opened opOrphan 0x51 [s] [] 5).pldm 0 := by
    unfold Dev.pldmActivate
    extract_lets d0
    rw [if_neg (by simp [d0, hserves]), if_neg hok, if_neg (by simp [d0, Dev.at, hb]), if_neg hfit, if_neg hidle,
      show d0.openOp opOrphan 0x51 [s] [] 5 = _ from Dev.openOp_first (d := d.at t) hops _ _ _ _ _]
  rw [heq]
  exact ⟨rfl, rfl⟩

/-- An activation in Banked mode begins a single attempt at stage 2 (R556). -/
theorem Dev.pldmActivate_banked (hb : d.start.banked = true) :
    let e := d.pldmActivate t s
    e.start.banked = false ∧ e.start.open_ = true ∧ e.start.single = true ∧ e.start.stage = 2 ∧ e.start.slot = s ∧ e.out = d.out ++ [.mgmt [Config.pldm 0]] := by
  have hserves : (d.at t).mgmtServes = true := by
    change (!d.hostStopped && (d.start.service || d.start.banked)) = true
    rw [hh, hb, Bool.or_true]; rfl
  have hok : ¬ (1 < s ∨ (d.at t).slotState s ≠ 2) := by
    rw [show (d.at t).slotState s = 2 from hv]; omega
  have heq : d.pldmActivate t s = ((d.at t).pldm 0).beginAttempt 2 (some s) := by
    unfold Dev.pldmActivate
    extract_lets d0
    rw [if_neg (by simp [d0, hserves]), if_neg hok, if_pos (show d0.start.banked = true from hb)]
    have : (((d.at t).pldm 0).start.banked && ((d.at t).pldm 0).slotState s == 2) = true := by
      rw [show ((d.at t).pldm 0).start.banked = true from hb, show ((d.at t).pldm 0).slotState s = 2 from hv]; rfl
    exact if_pos this
  rw [heq]
  obtain ⟨g1, g2, g3, -, g5, g6, -, -, -, -, -, -, g13, -⟩ := ((d.at t).pldm 0).beginAttempt_spec (.inr rfl) (some s)
  exact ⟨g3, g1, g5, g2, g6, g13⟩

end

/-- What a stop or a loss of power keeps of the table spaces. -/
theorem Dev.coldState_spaces (d : Dev) : d.coldState.store.spaces.map (fun k => (k.id, k.visible)) = d.store.spaces.map (fun k => (k.id, k.visible)) := by
  change (d.store.spaces.map _).map _ = _
  rw [List.map_map]
  rfl

/-- The always-on domain at its power-on reset, with what the flashes keep (R600, R603). -/
def Dev.aonReset (d : Dev) (op : Nat) : Dev :=
  { d with
    opSec := op
    regs := d.regs.filter (fun p => decide (p.1 < 0x02C10000) || decide (0x02F40000 ≤ p.1))
    cwCount := d.cwCount.filter (fun p => decide (p.1 < 0x02C10000) || decide (0x02F40000 ≤ p.1))
    rcd := { sectors := d.rcd.sectors, sector := d.rcd.sector, sectorSeq := d.rcd.sectorSeq, seq := d.rcd.seq, start := op, acc := { base := d.tally } }
    sec := { d.sec with latchA := false, latchB := false }
    start := { d.start with tripLatch := false, cause := 0 }
    pwr := { d.pwr with aonGood := true, ember := false, offRdy := false } }

theorem Dev.regN_aonReset (d : Dev) (op : Nat) : (d.aonReset op).regN 0x02C10004 = 0x1F := by
  have hreg : (d.aonReset op).reg 0x02C10004 = regReset 0x02C10004 := by
    change tabGet _ (d.regs.filter (fun p => decide (p.1 < 0x02C10000) || decide (0x02F40000 ≤ p.1))) _ = _
    exact (tabGet_filter _ _ (fun a => decide (a < 0x02C10000) || decide (0x02F40000 ≤ a)) _).trans (if_neg (by decide))
  have hreset : regReset 0x02C10004 = 0x1F := by decide +kernel
  rw [Dev.regN, hreg, hreset]
  rfl

/-- The AON supply has come: the counters of the always-on domain begin, and the recorder tells what was lost (R600, R603). -/
theorem Dev.aonPowerGood_spec {d : Dev} (hs : d.pwr.sysGood = false) (t : Nat) :
    let e := d.aonPowerGood t
    e.pwr.aonGood = true ∧ e.opSec = max d.start.recOp (archHighest d.rcd) + 1 ∧ e.rcd.ring.length = 1 ∧ e.rcd.wall = none ∧
      e.rcd.sectors = d.rcd.sectors ∧ e.start.tripLatch = false ∧ e.sec.latchA = false ∧ e.sec.latchB = false ∧ e.regN 0x02C10004 = 0x1F := by
  obtain ⟨k, body, heq⟩ : ∃ k body, d.aonPowerGood t =
      (((d.at t).draw.2.aonReset (max d.start.recOp (archHighest d.rcd) + 1)).bump 0x02F00120 k).recRing 0x0A 0 0 body :=
    ⟨_, _, if_neg (by change ¬ d.pwr.sysGood = true; rw [hs]; simp)⟩
  have hreg := ((d.at t).draw.2.aonReset (max d.start.recOp (archHighest d.rcd) + 1)).regN_bump_ne 0x02F00120 k 0x02C10004 (by decide)
  obtain ⟨regs, tally, hb⟩ := ((d.at t).draw.2.aonReset (max d.start.recOp (archHighest d.rcd) + 1)).bump_only 0x02F00120 k
  rw [Dev.regN_aonReset] at hreg
  rw [heq]
  rw [hb] at hreg ⊢
  exact ⟨rfl, rfl, rfl, rfl, rfl, rfl, rfl, rfl, hreg⟩

/-! ### Host links and reference clocks (R597, R629) -/

/-- A link that comes up leaves its recovery. -/
theorem Dev.hostLinkUp_up {d : Dev} {port : Nat} (hp : port < 2) (h : (d.link port).perst = false) (hh : (d.link port).held = false)
    (hc : port ∉ d.pwr.clocks) (t : Nat) :
    d.hostLinkUp t port = ((d.at t).linkUpd port (fun k => { k with up := true, recovering := false })).recovered 4 port := by
  have hp' : decide (2 ≤ port) = false := decide_eq_false (by omega)
  have hc' : (d.at t).pwr.clocks.contains port = false := by simpa using hc
  refine if_neg ?_
  rw [hp', show ((d.at t).link port).perst = false from h, show ((d.at t).link port).held = false from hh, hc']
  decide

theorem Dev.hostLinkUp_clocks (d : Dev) (t port : Nat) : (d.hostLinkUp t port).pwr = d.pwr := by
  unfold Dev.hostLinkUp
  dsimp only
  split_ifs <;> rfl

theorem Dev.refclkReturn_clocks (d : Dev) (t c : Nat) : (d.refclkReturn t c).pwr.clocks = d.pwr.clocks.filter (· != c) := by
  unfold Dev.refclkReturn
  extract_lets d0 p d1
  split_ifs
  · rw [Dev.hostLinkUp_clocks]
    rfl
  · rfl

theorem Dev.refclkLost_first {d : Dev} {c : Nat} (hc : c < 6) (h : c ∉ d.pwr.clocks) (t : Nat) :
    ¬ (decide (6 ≤ c) || (d.at t).pwr.clocks.contains c) = true := by
  have h1 : (d.at t).pwr.clocks.contains c = false := by simpa using h
  rw [h1, decide_eq_false (by omega)]
  decide

/-- A reference that does not answer any more. -/
def Dev.clockLost (d : Dev) (c : Nat) : Dev := { d with pwr := { d.pwr with clocks := d.pwr.clocks ++ [c] } }

theorem Dev.refclkLost_stops {d : Dev} (h : 4 ∉ d.pwr.clocks) (hs : d.pwr.sysGood = true) (hn : d.pwr.stopped = none) (t : Nat) :
    d.refclkLost t 4 = ((d.at t).clockLost 4).stopDevice 6 := by
  refine (if_neg (Dev.refclkLost_first (by decide) h t)).trans (if_pos ?_)
  change (d.pwr.sysGood && d.pwr.stopped.isNone) = true
  rw [hs, hn]
  rfl

theorem Dev.refclkLost_link {d : Dev} (h : 0 ∉ d.pwr.clocks) (t : Nat) : d.refclkLost t 0 = ((d.at t).clockLost 0).hostLinkDown t 0 :=
  if_neg (Dev.refclkLost_first (by decide) h t)

/-- A link that goes down begins its recovery. -/
theorem Dev.hostLinkDown_down {d : Dev} {port : Nat} (hp : port < 2) (h : (d.link port).perst = false) (hr : d.recovers 4 port = false) (t : Nat) :
    let e := d.hostLinkDown t port
    e.link port = { d.link port with up := false, recovering := true } ∧ e.health.recovering = d.health.recovering ++ [(4, port)] := by
  have h1 : ¬ (decide (2 ≤ port) || ((d.at t).link port).perst) = true := by
    rw [show ((d.at t).link port).perst = false from h, decide_eq_false (by omega)]; decide
  have h2 : ¬ d.recovers 4 port = true := by rw [hr]; decide
  have heq : d.hostLinkDown t port = { (d.at t).linkUpd port (fun k => { k with up := false, recovering := true }) with
      health := { d.health with recovering := d.health.recovering ++ [(4, port)] } } := (if_neg h1).trans ((if_neg h2).trans (if_neg h2))
  rw [heq]
  exact ⟨Dev.link_linkUpd .., rfl⟩

/-- PERST# released: the link is up where it may be. -/
theorem Dev.perstRelease_free {d : Dev} {port : Nat} (hs : d.pwr.sysGood = true) (hp : port < 2) (h : (d.link port).perst = true)
    (hn : ¬ (port = 0 ∧ d.pwr.stopped.isSome = true)) (t : Nat) : d.perstRelease t port = (d.at t).linkUpd port (fun k => { k with
      perst := false, up := !(d.start.banked && port == 1) && !d.pwr.clocks.contains port }) := by
  have h1 : ¬ (!(d.at t).pwr.sysGood || decide (2 ≤ port) || !((d.at t).link port).perst) = true := by
    rw [show ((d.at t).link port).perst = true from h, decide_eq_false (by omega), show (d.at t).pwr.sysGood = true from hs]; decide
  exact (if_neg h1).trans (if_neg hn)

/-- PERST# of port A released on a device that has been stopped: an attempt begins (R586). -/
theorem Dev.perstRelease_stopped {d : Dev} (hs : d.pwr.sysGood = true) (h : (d.link 0).perst = true) (hn : d.pwr.stopped.isSome = true)
    (ho : d.start.open_ = false) (t : Nat) : d.perstRelease t 0 = ((d.at t).linkUpd 0 (fun k => { k with
      perst := false, up := !(d.start.banked && 0 == 1) && !d.pwr.clocks.contains 0 })).beginAttempt 1 none := by
  have h1 : ¬ (!(d.at t).pwr.sysGood || decide (2 ≤ 0) || !((d.at t).link 0).perst) = true := by
    rw [show ((d.at t).link 0).perst = true from h, show (d.at t).pwr.sysGood = true from hs]; decide
  refine (if_neg h1).trans ((if_pos ⟨rfl, hn⟩).trans ?_)
  rw [Dev.countLost_closed]
  · rfl
  · exact ho

/-- An event of the device, as the mailbox of PF0 has it. -/
theorem Dev.eventPf_last (d : Dev) (code o v : Nat) :
    (((d.eventPf code o v).mbox 0).events.getLast?).map (fun e => (e.code, e.object, e.data)) = some (code, o, v) := by
  obtain ⟨-, -, -, -, h⟩ := (d.event 0 code o v).event_spec 513 code o v
  obtain ⟨h0, -⟩ := d.event_spec 0 code o v
  rw [Dev.eventPf, (h 0 (by decide)).2, h0]
  rfl

/-- Settles O41: the stages by `stageComplete_passes` and `stageService_spec`, the failures by `startFail_retry` and `startFail_banked`, the attempts by
`beginAttempt_spec`, stops and losses by what the cold state keeps. -/
theorem startAttempts : Obligations.StartAttempts := by
  unfold Obligations.StartAttempts
  refine ⟨fun s t ha he hs ho ht hf => gives_run (f := fun d => d.startAttempt t) rfl (Dev.startAttempt_first (d := s.dev.at t) ha he hs ht ho hf t),
    fun s t ha he hs ho ht hf h1 hl => gives_run (f := fun d => d.startAttempt t) rfl (Dev.startAttempt_lost (d := s.dev.at t) ha he hs ht ho hf h1 hl t),
    fun s t ha he hs ho ht hf hr hb h1 =>
      gives_run (f := fun d => d.startAttempt t) rfl (Dev.startAttempt_fallback (d := s.dev.at t) ha he hs ht ho hf hr hb h1 t),
    fun s t f ho hn hv hm hc => effects_run (f := fun d => d.stageComplete t f (fun d x => d.mbTake x)) rfl ?next,
    fun s t f ho hn hv h1 hf => effects_run (f := fun d => d.stageComplete t f (fun d x => d.mbTake x)) rfl ?retry,
    fun s t f ho hn hv hf => effects_run (f := fun d => d.stageComplete t f (fun d x => d.mbTake x)) rfl ?third,
    fun s t f ho hn hb h0 h5 hc => effects_run (f := fun d => d.stageComplete t f (fun d x => d.mbTake x)) rfl ?banks,
    fun s t f ho hn hc hsp h0 h513 => effects_run (f := fun d => d.stageComplete t f (fun d x => d.mbTake x)) rfl ?serves,
    fun s t reuse ho h0 h6 ht h1 hf => gives_run (f := fun d => d.stageTimeout t reuse) rfl ?late,
    fun s t reuse ho h6 ht => gives_run (f := fun d => d.stageTimeout t reuse) rfl ?replay,
    fun s t hr hs => gives_run (f := fun d => d.startRetry t) rfl ?again,
    fun s t slot image hh hs hb h1 hr hi hl hops =>
      gives_run (f := fun d => d.pldmUpdate t slot image) rfl (Dev.pldmUpdate_opens (d := s.dev.at t) hh hs hb h1 hr hi hl hops t),
    fun s t slot hh hs hb h1 hv hsvn htp hops =>
      gives_run (f := fun d => d.pldmActivate t slot) rfl (Dev.pldmActivate_opens (d := s.dev.at t) hh h1 hv t hs hb hsvn htp hops),
    fun s t slot hh hb h1 hv => gives_run (f := fun d => d.pldmActivate t slot) rfl (Dev.pldmActivate_banked (d := s.dev.at t) hh h1 hv t hb),
    fun s t hs => gives_run (f := fun d => d.powerLoss t) rfl ?loss,
    fun s t hs hn ho hv => gives_run (f := fun d => d.vrPgFall t) rfl ?stopped,
    fun s t hs hn ho h1 hf => gives_run (f := fun d => d.vrPgFall t) rfl ?failed,
    fun s t rail hr hn ht => gives_run (f := fun d => d.telemetryLost t rail) rfl ?rail,
    fun s t hc => effects_run (f := fun d => d.refclkLost t 5) rfl ?aon,
    fun s t hc hs hn => effects_run (f := fun d => d.refclkLost t 4) rfl ?sys,
    fun s t hc hp hr => effects_run (f := fun d => d.refclkLost t 0) rfl ?link,
    fun s t c hs hn ho h1 h4 => gives_run (f := fun d => d.deviceStop t c) rfl ?stop,
    fun s t port hs hp hl hn hb hc => gives_run (f := fun d => d.perstRelease t port) rfl ?release,
    fun s t hs hl hn ho => gives_run (f := fun d => d.perstRelease t 0) rfl ?restart,
    fun s t port hp hl hh hc => gives_run (f := fun d => d.hostLinkUp t port) rfl ?up,
    fun s t c => gives_run (f := fun d => d.refclkReturn t c) rfl ?back,
    fun s t hs => gives_run (f := fun d => d.aonPowerGood t) rfl (Dev.aonPowerGood_spec (d := s.dev.at t) hs t)⟩
  case next =>
    have hpass : ((s.dev.at t).at t).stageRefuses 2 f = 0 := by
      refine (if_neg (not_not.2 hv)).trans ((if_neg ?_).trans hc)
      exact Nat.not_lt.2 hm
    rw [Dev.stageComplete_passes (d := s.dev.at t) _ ho hn (by decide) hpass (fun h => absurd h (by decide)) (by decide), if_neg (by decide)]
    obtain ⟨regs, h⟩ := Dev.nextStage_spec (d := (s.dev.at t).at t) (show s.dev.start.stage < 7 by omega)
    rw [h]
    have hmax : max (max s.dev.timeUs t) t = max s.dev.timeUs t := by omega
    refine ⟨congrArg (· + 1) hn, ho, hmax, ?_⟩
    change s.dev.start.times ++ [(max (max s.dev.timeUs t) t - s.dev.start.began) / 1000] = _
    rw [hmax]
  case retry =>
    have hwhy : ((s.dev.at t).at t).stageRefuses 2 f = 3 := if_pos hv
    rw [Dev.stageComplete_fails (d := s.dev.at t) _ ho hn (by decide) (by rw [hwhy]; decide), hwhy]
    obtain ⟨g1, g2, g3, g4, g5, -⟩ := Dev.startFail_retry (d := (s.dev.at t).at t) h1 hf 3
    exact ⟨g1, g2, g3, g4.trans (by rw [show ((s.dev.at t).at t).start.stage = 2 from hn]), g5⟩
  case third =>
    have hwhy : ((s.dev.at t).at t).stageRefuses 2 f = 3 := if_pos hv
    rw [Dev.stageComplete_fails (d := s.dev.at t) _ ho hn (by decide) (by rw [hwhy]; decide), hwhy,
      Dev.startFail_banked (d := (s.dev.at t).at t) hf]
    obtain ⟨g1, g2, g3, g4, g5, -, g7⟩ := Dev.bankedEntry_spec
      { ((s.dev.at t).at t).failCounted 3 with start := { (((s.dev.at t).at t).failCounted 3).start with failures := 3 } }
    exact ⟨g1, g3, g2, g5, g7, g4⟩
  case banks =>
    have hpass : ((s.dev.at t).at t).stageRefuses 1 f = 0 := (if_neg (by rintro (h | h); exacts [h0 h, h5 h])).trans hc
    rw [Dev.stageComplete_banks (d := s.dev.at t) _ ho hn hpass hb]
    obtain ⟨g1, g2, -, -, g5, g6, g7⟩ := Dev.bankedEntry_spec { (s.dev.at t).at t with start := { s.dev.start with open_ := false } }
    exact ⟨g1, g2, g5, g6, g7⟩
  case serves =>
    rw [Dev.stageComplete_passes (d := s.dev.at t) _ ho hn (by decide) (show ((s.dev.at t).at t).stageRefuses 7 f = 0 from hc) (fun h => absurd h (by decide)) (by decide),
      if_pos rfl]
    have hnext : ∃ regs, ((s.dev.at t).at t).nextStage = { (s.dev.at t).at t with regs := regs, start := { s.dev.start with
        times := s.dev.start.times ++ [(((s.dev.at t).at t).timeUs - s.dev.start.began) / 1000] } } := by
      unfold Dev.nextStage
      extract_lets st d1
      obtain ⟨regs, h⟩ := Dev.showTimes_only { (s.dev.at t).at t with start := { st with
        times := st.times ++ [(((s.dev.at t).at t).timeUs - st.began) / 1000] } }
      refine ⟨regs, (if_neg ?_).trans h⟩
      change ¬ s.dev.start.stage < 7
      omega
    obtain ⟨regs, h⟩ := hnext
    obtain ⟨g1, g2, g3, g4, g5, g6, g7, g8, g9, g10⟩ := Dev.stageService_spec (d := ((s.dev.at t).at t).nextStage) f (by rw [h]; exact hsp)
      (by rw [h]; exact h0) (by rw [h]; exact h513)
    exact ⟨g1, g2, g3, g4, g5.trans (by rw [h]), g6, g7, g8.trans (by rw [h]), g9, g10⟩
  case late =>
    have hle : s.dev.start.began + 20000000 ≤ max (max s.dev.timeUs t) t := by omega
    rw [show (s.dev.at t).stageTimeout t reuse = _ from (Dev.stageTimeout_over (d := s.dev.at t) ho h0 hle reuse).trans (if_neg h6)]
    obtain ⟨g1, g2, g3, g4, -⟩ := Dev.startFail_retry (d := (s.dev.at t).at t) h1 hf 4
    exact ⟨g1, g2, g3, g4⟩
  case replay =>
    have hle : s.dev.start.began + 20000000 ≤ max (max s.dev.timeUs t) t := by omega
    have h0 : s.dev.start.stage ≠ 0 := by omega
    rw [show (s.dev.at t).stageTimeout t reuse = _ from (Dev.stageTimeout_over (d := s.dev.at t) ho h0 hle reuse).trans (if_pos h6)]
    obtain ⟨regs, h⟩ := Dev.nextStage_spec (d := (s.dev.at t).at t) (show s.dev.start.stage < 7 by omega)
    rw [h]
    exact ⟨ho, congrArg (· + 1) h6⟩
  case again =>
    have h : (s.dev.at t).startRetry t = ((s.dev.at t).at t).beginAttempt 1 none := if_pos (by
      change (s.dev.start.retry && s.dev.pwr.sysGood) = true
      rw [hr, hs]; rfl)
    rw [h]
    obtain ⟨g1, g2, -, g4, -, -, -, -, -, -, g11, -⟩ := ((s.dev.at t).at t).beginAttempt_spec (.inl rfl) none
    exact ⟨g1, g2, g4, g11⟩
  case loss =>
    have hpos : ¬ (!((s.dev.at t).at t).pwr.sysGood) = true := by simp [Dev.at, hs]
    rw [show (s.dev.at t).powerLoss t = _ from if_neg hpos]
    exact ⟨rfl, rfl, rfl, rfl, rfl, rfl, s.dev.coldState_spaces, rfl, rfl⟩
  case stopped =>
    have hpos : ¬ (!((s.dev.at t).at t).pwr.sysGood || ((s.dev.at t).at t).pwr.stopped.isSome) = true := by simp [Dev.at, hs, hn]
    have hshut : ¬ ((s.dev.at t).at t).start.open_ = true := by simp [Dev.at, ho]
    rw [show (s.dev.at t).vrPgFall t = _ from (if_neg hpos).trans ((if_neg hshut).trans (if_pos hv))]
    exact ⟨rfl, Bool.or_true _, rfl, rfl⟩
  case failed =>
    have hpos : ¬ (!((s.dev.at t).at t).pwr.sysGood || ((s.dev.at t).at t).pwr.stopped.isSome) = true := by simp [Dev.at, hs, hn]
    rw [show (s.dev.at t).vrPgFall t = _ from (if_neg hpos).trans (if_pos ho)]
    obtain ⟨-, g2, -, g4, -, g6⟩ := Dev.startFail_retry (d := (s.dev.at t).at t) h1 hf 8
    exact ⟨g6, g2, g4⟩
  case rail =>
    have hgo : ¬ (decide (supplies.length ≤ rail) || ((s.dev.at t).at t).pwr.rails.contains rail ||
        decide (((s.dev.at t).at t).timeUs + 1 < (tabGet (0, 0) ((s.dev.at t).at t).pwr.railLast rail).2 + 1000)) = true := by
      have h16 : supplies.length = 16 := rfl
      have hin : ((s.dev.at t).at t).pwr.rails.contains rail = false := by simpa [Dev.at] using hn
      have hlate : ¬ ((s.dev.at t).at t).timeUs + 1 < (tabGet (0, 0) ((s.dev.at t).at t).pwr.railLast rail).2 + 1000 := by
        change ¬ max (max s.dev.timeUs t) t + 1 < (tabGet (0, 0) s.dev.pwr.railLast rail).2 + 1000
        omega
      rw [h16, decide_eq_false (by omega), hin, decide_eq_false hlate]
      decide
    rw [show (s.dev.at t).telemetryLost t rail = _ from if_neg hgo]
    exact ⟨by rw [Dev.eventPf_pwr]; rfl, Dev.eventPf_last ..⟩
  case aon =>
    rw [show (s.dev.at t).refclkLost t 5 = _ from if_neg (Dev.refclkLost_first (d := s.dev.at t) (by decide) hc t)]
    exact ⟨by rw [Dev.eventPf_pwr]; rfl, Dev.eventPf_last ..⟩
  case sys =>
    rw [Dev.refclkLost_stops (d := s.dev.at t) hc hs hn t]
    exact ⟨rfl, Bool.or_true _⟩
  case link =>
    have hrec : (((s.dev.at t).at t).clockLost 0).recovers 4 0 = false := by
      change s.dev.health.recovering.contains (4, 0) = false
      rw [hr]; rfl
    rw [Dev.refclkLost_link (d := s.dev.at t) hc t]
    obtain ⟨g1, g2⟩ := Dev.hostLinkDown_down (d := ((s.dev.at t).at t).clockLost 0) (port := 0) (by decide) hp hrec t
    exact ⟨by rw [g1], by rw [g1], g2.trans (congrArg (· ++ [(4, 0)]) hr)⟩
  case stop =>
    have hpos : ¬ (!((s.dev.at t).at t).pwr.sysGood || ((s.dev.at t).at t).pwr.stopped.isSome || decide (c = 0) || decide (4 < c)) = true := by
      simp [Dev.at, hs, hn]; omega
    have hshut : ¬ (((s.dev.at t).at t).start.open_ && (decide (c = 1) || decide (c = 4))) = true := by simp [Dev.at, ho]
    rw [show (s.dev.at t).deviceStop t c = _ from (if_neg (by simpa using hpos)).trans (if_neg (by simpa using hshut))]
    exact ⟨rfl, Bool.or_true _, rfl, rfl, rfl, s.dev.coldState_spaces⟩
  case release =>
    rw [Dev.perstRelease_free (d := s.dev.at t) hs hp hl (fun h => by have := h.2; rw [show (s.dev.at t).pwr.stopped = none from hn] at this; cases this) t]
    have hup : (!((s.dev.at t).start.banked && port == 1) && !(s.dev.at t).pwr.clocks.contains port) = true := by simp [Dev.at, hb, hc]
    rw [hup]
    exact ⟨Dev.link_linkUpd .., rfl⟩
  case restart =>
    rw [Dev.perstRelease_stopped (d := s.dev.at t) hs hl hn ho t]
    obtain ⟨g1, g2, -, -, -, -, -, -, -, -, -, -, -, -, g15⟩ := Dev.beginAttempt_spec (((s.dev.at t).at t).linkUpd 0 (fun k => { k with
      perst := false, up := !((s.dev.at t).start.banked && 0 == 1) && !(s.dev.at t).pwr.clocks.contains 0 })) (.inl rfl) none
    exact ⟨g1, g2, g15⟩
  case up =>
    rw [Dev.hostLinkUp_up (d := s.dev.at t) hp hl hh hc]
    refine ⟨Dev.link_linkUpd .., ?_⟩
    simp [Dev.recovered]
  case back =>
    rw [Dev.refclkReturn_clocks]
    refine ⟨by simp, fun k hk => by simp [hk, Dev.at]⟩

end Sys2Proof.Machine

/-!
PROOF. Modes, domains and protection (R529 to R542, R623, R627): what a domain, a drive and the recorder leave unchanged, the two-phase change, Ember,
domains on demand, and the samples.
-/
namespace Sys2Proof.Machine

/-! ### The part's control: power, recorder, start and mailboxes -/

/-- The part's power, recorder, start and mailboxes. -/
def Dev.control (d : Dev) : PwrSt × RecSt × StartSt × MailSt := (d.pwr, d.rcd, d.start, d.mail)

theorem Dev.control_trace (d : Dev) (r : TRec) : (d.trace r).control = d.control := by
  have hput : ∀ (e : Dev) q, (e.tracePut q).1.control = e.control := fun e q => by
    unfold Dev.tracePut
    dsimp only
    split_ifs
    · exact congrArg₂ Prod.mk (Dev.bump_pwr ..) (congrArg₂ Prod.mk (by unfold Dev.bump; split <;> rfl)
        (congrArg₂ Prod.mk (Dev.bump_start ..) (Dev.bump_mail ..)))
    · rfl
    · rfl
  unfold Dev.trace
  split_ifs
  · rfl
  dsimp only
  rw [hput]
  split_ifs
  · exact (hput d _)
  · rfl
  · rfl

theorem Dev.control_delay (d : Dev) (l k tag : Nat) : (d.delay l k tag).control = d.control := by
  unfold Dev.delay
  dsimp only
  split_ifs
  · refine (Dev.control_trace _ _).trans ?_
    obtain ⟨regs, tally, h⟩ := d.bump_only 0x02400090 1
    rw [h]
    rfl
  · rfl

@[simp] theorem Dev.control_driveCmd (d : Dev) (c : DCmd) : (d.driveCmd c).control = d.control := by
  have put : ∀ (e : Dev) n use, (e.putCmd n use).control = e.control := fun e n use => (e.control_delay ..)
  unfold Dev.driveCmd
  dsimp only
  split_ifs
  · rfl
  · exact put _ _ _

theorem Dev.control_driveUpd (d : Dev) (i : Nat) (f : Drive → Drive) : (d.driveUpd i f).control = d.control := rfl

theorem Dev.control_wakeDrives (d : Dev) : d.wakeDrives.control = d.control :=
  foldl_keep (P := Dev.control) (fun d _ => (Dev.control_driveUpd ..).trans (d.control_driveCmd _)) _ _

theorem Dev.control_idleDrives (d : Dev) : d.idleDrives.control = d.control := by
  unfold Dev.idleDrives
  dsimp only
  split_ifs
  · rfl
  · exact foldl_keep (P := Dev.control) (fun d i => (Dev.control_driveUpd (d.send (.driveAdmin i 9 _)) i _).trans rfl) _ _

theorem Dev.control_journalUpd (d : Dev) (g : Nat) (f : Journal → Journal) : (d.journalUpd g f).control = d.control := by
  unfold Dev.journalUpd
  dsimp only
  split_ifs <;> rfl

theorem Dev.control_writeRecord (d : Dev) (g k b ts e : Nat) (u : DriveUse) : (d.writeRecord g k b ts e u).control = d.control :=
  (Dev.control_journalUpd ..).trans (foldl_keep (P := Dev.control) (fun d _ => d.control_driveCmd _) _ _)

theorem Dev.control_writeRow (d : Dev) (scheme group row slots : Nat) (use : DriveUse) : (d.writeRow scheme group row slots use).control = d.control :=
  foldl_keep (P := Dev.control) (fun d s => by
    dsimp only
    split
    · split_ifs <;> simp
    · rfl) _ _

theorem Dev.control_rewriteDirs (d : Dev) (s : TSpace) : (d.rewriteDirs s).control = d.control := by
  unfold Dev.rewriteDirs
  dsimp only
  refine (foldl_keep (P := fun a : Dev × List DirExt => a.1.control) (fun a f => ?_) _ (d, []))
  split
  · rfl
  · split
    · exact Dev.control_writeRow ..
    · rfl
  · rfl

theorem Dev.control_checkpoint (d : Dev) (g : Nat) : (d.checkpoint g).control = d.control := by
  unfold Dev.checkpoint
  refine (Dev.control_writeRecord ..).trans ((Dev.control_journalUpd ..).trans ?_)
  exact foldl_keep (P := Dev.control) (fun d s => d.control_rewriteDirs s) _ _

/-! ### The two-phase change (R534, R535) -/

/-- The power state without the states of the domains. -/
def PwrSt.rest (p : PwrSt) : PwrSt := { p with domains := [] }

/-- The part's control without the states of the domains. -/
def Dev.modeView (d : Dev) : PwrSt × RecSt × StartSt × MailSt := (d.pwr.rest, d.rcd, d.start, d.mail)

theorem Dev.modeView_control {a b : Dev} (h : a.control = b.control) : a.modeView = b.modeView :=
  congrArg (fun v : PwrSt × RecSt × StartSt × MailSt => (v.1.rest, v.2)) h

theorem Dev.modeView_setDomain (d : Dev) (n st : Nat) : (d.setDomain n st).modeView = d.modeView := by
  unfold Dev.setDomain
  split_ifs <;> rfl

theorem Dev.modeView_exuEvents (d : Dev) (h : Nat) (x : Exu) (e : XEv) (rpe fixes : Nat) : (d.exuEvents h x e rpe fixes).modeView = d.modeView :=
  Dev.exuEvents_keep Dev.modeView (fun _ _ _ => rfl) (fun _ _ => rfl) ..

theorem Dev.modeView_toBoundary (d : Dev) (h : Nat) : (d.toBoundary h).modeView = d.modeView := by
  unfold Dev.toBoundary
  split
  · rfl
  · split_ifs
    · rfl
    · exact Dev.modeView_exuEvents ..

theorem Dev.domain_setDomain {d : Dev} {n : Nat} (h : 36 ≤ n) (st k : Nat) :
    (d.setDomain n st).domain k = if k = n then st else d.domain k := by
  have hset : (d.setDomain n st).pwr = { d.pwr with domains := tabSet 0 d.pwr.domains n st } ∧ (d.setDomain n st).qry = d.qry := by
    unfold Dev.setDomain
    rw [if_neg (by omega)]
    split_ifs <;> exact ⟨rfl, rfl⟩
  obtain ⟨hp, hq⟩ := hset
  unfold Dev.domain
  simp only [Dev.hearth, hp, hq, tabGet_set]
  by_cases hk : k < 36
  · rw [if_pos hk, if_neg (show ¬ k = n by omega), if_pos hk]
    rfl
  · rw [if_neg hk, if_neg hk]

theorem Dev.leaveDomain_high {d : Dev} {n : Nat} (h : 36 ≤ n) (st : Nat) : d.leaveDomain n st = d.setDomain n st := if_neg (by omega)

/-- The counts of changes that commit (1) or revert (2). -/
def RecSt.counted (r : RecSt) (result : Nat) : RecSt :=
  { r with acc := { r.acc with commits := r.acc.commits + b2n (result == 1), reverts := r.acc.reverts + b2n (result == 2) } }

def Dev.changeCounted (d : Dev) (result : Nat) : Dev := { d with rcd := d.rcd.counted result }

theorem Dev.modeView_changeCounted (d : Dev) (result : Nat) :
    (d.changeCounted result).modeView = (d.modeView.1, d.modeView.2.1.counted result, d.modeView.2.2) := rfl

/-- A change noted: the 32 bytes of PWR_LAST_CHANGE, and the counts. -/
theorem Dev.noteChange_only (d : Dev) (c : Change) (result : Nat) (lag : List Nat) :
    ∃ b : Bytes, b.length = 32 ∧ d.noteChange c result lag = (d.setRegBytes 0x02C00040 b).changeCounted result :=
  ⟨[BitVec.ofNat 8 c.fromMode, BitVec.ofNat 8 c.toMode, BitVec.ofNat 8 result, 0] ++ natLE 4 (d.timeUs - c.began) ++ natLE 8 d.opSec ++
    natLE 16 ((lag.map (2 ^ ·)).sum), by simp [natLE_length], rfl⟩

theorem Dev.setRegBytes_only (d : Dev) (a : Nat) (b : Bytes) : ∃ regs, d.setRegBytes a b = { d with regs := regs } :=
  List.foldlRecOn (motive := fun e : Dev => ∃ regs, e = { d with regs := regs }) _ _ ⟨d.regs, rfl⟩
    (fun e he i _ => by obtain ⟨r, rfl⟩ := he; exact ⟨_, rfl⟩)

/-- A change noted: only the registers and the counts. -/
theorem Dev.noteChange_counts (d : Dev) (c : Change) (result : Nat) (lag : List Nat) :
    ∃ regs, d.noteChange c result lag = ({ d with regs := regs } : Dev).changeCounted result := by
  obtain ⟨b, -, h⟩ := d.noteChange_only c result lag
  obtain ⟨regs, hr⟩ := d.setRegBytes_only 0x02C00040 b
  exact ⟨regs, by rw [h, hr]⟩

theorem Dev.regN_noteChange (d : Dev) (c : Change) (result : Nat) (lag : List Nat) {a : Nat} (h : a < 0x02C00040 ∨ 0x02C00060 ≤ a) :
    (d.noteChange c result lag).regN a = d.regN a := by
  obtain ⟨b, hb, heq⟩ := d.noteChange_only c result lag
  rw [heq]
  have hreg := d.reg_setRegBytes_ne 0x02C00040 b (r := a) (by rw [hb]; exact h)
  exact congrArg BitVec.toNat hreg

/-- The mode of a change that commits, before its domains follow. -/
def Dev.modeTaken (d : Dev) (c : Change) : Dev :=
  { d with pwr := { d.pwr with
    mode := c.toMode, serve := c.toServe, ceiling := c.toCeil, limit := modeLimit c.toMode c.toServe c.toCeil, change := none, chosen := c.chosen
    told := if c.toMode = 3 then false else d.pwr.told, paced := false, demand := [] } }

/-- A change that commits, its domains and its drives, before it is traced and answered. -/
def Dev.committed (d : Dev) (c : Change) : Dev :=
  let d0 := (List.range hearthCount).foldl (fun (d : Dev) h => if c.toMode = 6 then d else d.hearthUpd h (fun x => { x with parked := false })) d
  let d1 := d0.modeTaken c
  let d2 := (powerOrder.reverse.filter c.units.contains).foldl (fun (d : Dev) n =>
    let t := d1.domTarget c.toMode c.toServe n; if t = 2 then d.setDomain n 2 else d.leaveDomain n t) d1
  (if c.toMode = 3 then (d2.idleDrives.retainBanks (List.range hearthCount)) else d2.wakeDrives).noteChange c 1 []

theorem Dev.commitChange_quiet {d : Dev} {c : Change} (hc : c.chosen = false) : d.commitChange c = match c.by_ with
    | some x => ({ d.committed c with mail := { (d.committed c).mail with
        gens := tabUpd 0 (d.committed c).mail.gens 0x0016 (fun n => (n + 1) % 65536) } } : Dev).mbOk x (modeReply c.toMode [])
    | none => d.committed c := by
  have h : d.commitChange c = match c.by_ with
    | some x => ({ (if c.chosen then (d.committed c).trace { kind := 0x0B, a := 5, b := c.toMode } else d.committed c) with
        mail := { (if c.chosen then (d.committed c).trace { kind := 0x0B, a := 5, b := c.toMode } else d.committed c).mail with
          gens := tabUpd 0 (if c.chosen then (d.committed c).trace { kind := 0x0B, a := 5, b := c.toMode } else d.committed c).mail.gens 0x0016
            (fun n => (n + 1) % 65536) } } : Dev).mbOk x (modeReply c.toMode [])
    | none => if c.chosen then (d.committed c).trace { kind := 0x0B, a := 5, b := c.toMode } else d.committed c := rfl
  rw [h, hc]
  rfl

/-- A change of domains other than hearths that commits: the mode is the new one, and one more commit is counted. -/
theorem Dev.modeView_committed {d : Dev} {c : Change} (hu : ∀ n ∈ c.units, 36 ≤ n) :
    (d.committed c).modeView = ((d.modeTaken c).changeCounted 1).modeView := by
  unfold Dev.committed
  extract_lets d0 d1 d2
  have h0 : d0.modeView = d.modeView := foldl_keep (P := Dev.modeView) (fun d h => by split_ifs <;> rfl) _ _
  have h1 : d1.modeView = (d.modeTaken c).modeView := by
    have hp : d0.pwr.rest = d.pwr.rest := congrArg Prod.fst h0
    have htake : ∀ e : Dev, (e.modeTaken c).pwr.rest = { e.pwr.rest with
        mode := c.toMode, serve := c.toServe, ceiling := c.toCeil, limit := modeLimit c.toMode c.toServe c.toCeil, change := none, chosen := c.chosen
        told := if c.toMode = 3 then false else e.pwr.rest.told, paced := false, demand := [] } := fun _ => rfl
    refine Prod.ext ?_ (congrArg Prod.snd h0 : d0.modeView.2 = _)
    change (d0.modeTaken c).pwr.rest = (d.modeTaken c).pwr.rest
    rw [htake, htake, hp]
  have h2 : d2.modeView = d1.modeView := by
    have hl : ∀ n ∈ powerOrder.reverse.filter c.units.contains, 36 ≤ n := fun n hn => hu n (by simpa using (List.mem_filter.1 hn).2)
    unfold d2
    generalize powerOrder.reverse.filter c.units.contains = l at hl
    generalize hs : d1 = e
    have hgo : ∀ e' : Dev, (l.foldl (fun (d : Dev) n =>
        let t := e.domTarget c.toMode c.toServe n; if t = 2 then d.setDomain n 2 else d.leaveDomain n t) e').modeView = e'.modeView := by
      induction l with
      | nil => exact fun _ => rfl
      | cons n l ih =>
        intro e'
        refine (ih (fun m hm => hl m (List.mem_cons_of_mem _ hm)) _).trans ?_
        dsimp only
        split_ifs
        · exact Dev.modeView_setDomain ..
        · rw [Dev.leaveDomain_high (hl n List.mem_cons_self)]
          exact Dev.modeView_setDomain ..
    exact hgo e
  have h3 : (if c.toMode = 3 then (d2.idleDrives.retainBanks (List.range hearthCount)) else d2.wakeDrives).modeView = d2.modeView := by
    split_ifs
    · exact Dev.modeView_control (Dev.control_idleDrives d2)
    · exact Dev.modeView_control (Dev.control_wakeDrives d2)
  generalize (if c.toMode = 3 then (d2.idleDrives.retainBanks (List.range hearthCount)) else d2.wakeDrives) = d3 at h3
  obtain ⟨regs, hn⟩ := d3.noteChange_counts c 1 []
  rw [hn]
  rw [Dev.modeView_changeCounted, Dev.modeView_changeCounted, show ({ d3 with regs := regs } : Dev).modeView = d3.modeView from rfl, h3, h2, h1]

/-! ### A unit acknowledges (R534) -/

/-- The events of a unit count in its own registers. -/
theorem Dev.reg_exuEvents_above (d : Dev) (h : Nat) (x : Exu) (e : XEv) (rpe fixes : Nat) {a : Nat} (ha : 0x02100200 + 0x1000 * h ≤ a) :
    (d.exuEvents h x e rpe fixes).reg a = d.reg a := by
  have hb : ∀ (d : Dev) k n, k < 0x200 → (d.bump (0x02100000 + 0x1000 * h + k) n).reg a = d.reg a := fun d k n hk => d.reg_bump_ne _ _ _ (by omega)
  have hc : ∀ (d : Dev) k n, k + 4 < 0x200 → (d.count64 (0x02100000 + 0x1000 * h + k) n).reg a = d.reg a := fun d k n hk =>
    d.reg_count64_ne _ _ _ (by omega) (by omega)
  have hcount : ((((((((d.count64 (0x02100000 + 0x1000 * h + 0x10) e.wide).count64 (0x02100000 + 0x1000 * h + 0x18) e.narrow).bump
      (0x02100000 + 0x1000 * h + 8) e.wakes).bump (0x02100000 + 0x1000 * h + 0x20) e.faults).bump (0x02100000 + 0x1000 * h + 0x24) e.unres).count64
      (0x02100000 + 0x1000 * h + 0x110) rpe).bump (0x02100000 + 0x1000 * h + 0x108) fixes)).reg a = d.reg a := by
    rw [hb _ _ _ (by decide), hc _ _ _ (by decide), hb _ _ _ (by decide), hb _ _ _ (by decide), hb _ _ _ (by decide), hc _ _ _ (by decide),
      hc _ _ _ (by decide)]
  unfold Dev.exuEvents
  dsimp only
  split
  next f n hf =>
    rw [Dev.reg_setRegBytes_ne _ _ _ (.inr _), hcount]
    rw [show ∀ op, (faultRecord x f n op).length = 32 from fun op => by simp [faultRecord, natLE_length, zeros]]
    change 0x02100000 + 0x1000 * h + 0x40 + 4 * 8 ≤ a
    omega
  next => exact hcount

/-- A unit brought to a step boundary keeps what its domain's target depends on. -/
theorem Dev.domTarget_toBoundary (d : Dev) {n : Nat} (h36 : 36 ≤ n) (mode serve : Nat) : (d.toBoundary n).domTarget mode serve n = d.domTarget mode serve n := by
  by_cases h72 : 72 ≤ n
  · have hz : ∀ e : Dev, e.domTarget mode serve n = 0 := fun e => by
      unfold Dev.domTarget
      exact if_pos (by simp [h72])
    rw [hz, hz]
  · have hreg : ∀ a, 0x02200000 ≤ a → (d.toBoundary n).regN a = d.regN a := fun a ha => by
      refine congrArg BitVec.toNat ?_
      unfold Dev.toBoundary
      split
      · rfl
      · split_ifs
        · rfl
        · exact Dev.reg_exuEvents_above _ _ _ _ _ _ (by omega)
    have hkeep : ∀ {α : Type} (P : Dev → α), (∀ d a w, P (Dev.setReg d a w) = P d) → (∀ (d : Dev) t, P { d with tally := t } = P d) →
        (∀ d f, P (Dev.hearthUpd d n f) = P d) → P (d.toBoundary n) = P d := fun P hr ht hu => by
      unfold Dev.toBoundary
      split
      · rfl
      · split_ifs
        · rfl
        · exact (Dev.exuEvents_keep P hr ht ..).trans (hu _ _)
    have hhealth : (d.toBoundary n).health = d.health := hkeep Dev.health (fun _ _ _ => rfl) (fun _ _ => rfl) (fun _ _ => rfl)
    have hmem : (d.toBoundary n).mem = d.mem := hkeep Dev.mem (fun _ _ _ => rfl) (fun _ _ => rfl) (fun _ _ => rfl)
    have hfenced : (d.toBoundary n).domFenced n = d.domFenced n := by
      unfold Dev.domFenced Dev.memUnit
      simp only [if_neg (show ¬ n < 36 by omega), hhealth, hmem]
    have hpair : ∀ p, (d.toBoundary n).regField (0x02510000 + 0x100 * p) 1 0 = d.regField (0x02510000 + 0x100 * p) 1 0 := fun p => by
      rw [Dev.regField, hreg _ (by omega), Dev.regField]
    have hspread : (d.toBoundary n).regField 0x02C10000 0 0 = d.regField 0x02C10000 0 0 := by
      rw [Dev.regField, hreg _ (by decide), Dev.regField]
    unfold Dev.domTarget
    simp only [hfenced, hpair, hspread, if_neg (show ¬ n < 36 by omega)]

/-- A single unit, outside the hearths, waits for no other. -/
theorem Dev.needsWait_single (d : Dev) {c : Change} {n : Nat} (h36 : 36 ≤ n) (hu : c.units = [n]) : d.needsWait c n = false := by
  have hself : ∀ set ∈ domainNeeds n, n ∉ set := by
    unfold domainNeeds
    dsimp only
    split_ifs <;> simp <;> omega
  unfold Dev.needsWait
  rw [List.any_eq_false]
  intro set hset
  have hno : (set.any fun m => c.units.contains m && !c.acked.contains m && d.domTarget c.toMode c.toServe m == 2) = false := by
    rw [List.any_eq_false]
    intro m hm
    have hne : m ≠ n := fun h => hself set hset (h ▸ hm)
    simp [hu, hne]
  rw [hno, Bool.and_false]
  decide

section
variable {d : Dev} {c : Change} {n t : Nat} (hc : d.pwr.change = some c) (hp : c.prepared = true) (hn : n ∈ c.units) (ha : n ∉ c.acked)
  (ht : max d.timeUs t ≤ c.sent + 2000) (hw : d.needsWait c n = false)
include hc hp hn ha ht hw

/-- A unit's acknowledgement that counts. -/
theorem Dev.unitAck_counts : d.unitAck t n =
    let k := { c with acked := c.acked ++ [n] }
    let db := (d.at t).toBoundary n
    let d1 := if db.domTarget c.toMode c.toServe n = 2 then db.setDomain n 2 else db
    if k.units.all (fun u => k.acked.contains u) then d1.commitChange k else { d1 with pwr := { d1.pwr with change := some k } } := by
  unfold Dev.unitAck
  have h1 : (d.at t).pwr.change = some c := hc
  have hgo : ¬ (!c.prepared || !c.units.contains n || c.acked.contains n || decide (c.sent + 2000 < (d.at t).timeUs) ||
      ((d.at t).domTarget c.toMode c.toServe n == 2 && (d.at t).needsWait c n)) = true := by
    have h2 : (d.at t).needsWait c n = false := hw
    have h3 : ¬ c.sent + 2000 < (d.at t).timeUs := Nat.not_lt.2 ht
    rw [h2, decide_eq_false h3]
    simpa [hp, hn] using ha
  simp only [h1]
  rw [if_neg hgo]

end

/-! ### Entry to Ember or Off, and the exit (R538, R541) -/

theorem Dev.recRelease_only (d : Dev) : d.recorderOnly d.recRelease := by
  unfold Dev.recRelease
  split_ifs
  · exact d.recorderOnly_refl
  extract_lets w src d1
  have h1 : d.recorderOnly d1 := Dev.recorderOnly_trans ⟨_, d.regs, d.tally, rfl⟩ (Dev.recorderOnly_foldl (fun d r => d.recRing_only _ _ _ _) _ _)
  split_ifs
  · exact Dev.recorderOnly_trans h1 d1.recClose_only
  · exact h1

theorem Dev.recArchive_only (d : Dev) (ok0 ok1 : Bool) : d.recorderOnly (d.recArchive ok0 ok1) := by
  unfold Dev.recArchive
  dsimp only
  refine Dev.recorderOnly_trans ?_ (Dev.recLost_only _)
  split_ifs <;> exact ⟨_, _, d.tally, rfl⟩

theorem Dev.recForce_only (d : Dev) : d.recorderOnly d.recForce := by
  unfold Dev.recForce
  refine Dev.recorderOnly_trans (Dev.recorderOnly_trans ?_ (Dev.recRelease_only _)) (Dev.recClose_only _)
  exact ⟨_, _, d.tally, rfl⟩

theorem Dev.writeWitness_start (d : Dev) (stood : Bool) : (d.writeWitness stood).start = d.start :=
  foldl_keep (P := Dev.start) (fun d _ => (rfl : (d.send _).start = d.start)) _ { d with twin := { d.twin with witSeq := d.twin.witSeq + 1 } }

/-- Before an entry: the checkpoints of the rings, a twin that stands down, and the drives shut down (R538). -/
def Dev.entryRings (d : Dev) : Dev :=
  (((d.store.journals.filter (fun j => j.twin == d.twin.pos)).map (·.group)).eraseDups).foldl (fun (d : Dev) g => (d.checkpoint g).writeRecord g 9 2 0 0 .journal) d

def Dev.entryTwin (d : Dev) : Dev :=
  if d.twin.state = 3 then
    let w := d.writeWitness true
    { w with twin := { w.twin with state := 5, stopped := true } }
  else d

def Dev.entryDrives (d : Dev) : Dev :=
  ((d.store.drives.filter (fun p => p.2.present && p.2.link)).map (·.1)).foldl (fun (d : Dev) i => (d.send (.driveAdmin i 8 0)).driveUpd i (fun k => { k with link := false })) d

/-- The part as an entry leaves it: everything but the always-on domain cold, in the mode entered. -/
def Dev.entered (d : Dev) (mode : Nat) (woken : Bool) : Dev :=
  let d5 := ({ d with start := { d.start with service := false, stage := 0, open_ := false } } : Dev).coldState
  { d5 with pwr := { d5.pwr with mode := mode, ember := mode == 1 && !woken, offRdy := mode == 0 } }

/-- Its domains, in an order. -/
def Dev.domainsFor (d : Dev) (mode : Nat) (l : List Nat) : Dev := l.foldl (fun (d : Dev) n => d.setDomain n (d.domTarget mode 0 n)) d

/-- The pins that tell of an entry. -/
def Dev.entryPins (d : Dev) (mode : Nat) (woken : Bool) : Dev :=
  if mode = 0 then d.send (.pin 3 0) else if woken then (d.send (.pin 2 0)).send (.pin 2 1) else d.send (.pin 2 0)

def Dev.entryEnds (d : Dev) (mode : Nat) : Dev := ((d.entered mode d.start.ember).domainsFor mode powerOrder.reverse).entryPins mode d.start.ember

theorem Dev.entrySequence_enters {d : Dev} {mode k : Nat} (he : d.pwr.entry = some (mode, k)) (t : Nat) (archive : Dev → Dev) :
    d.entrySequence t archive = (archive (d.at t).entryRings).entryTwin.entryDrives.entryEnds mode := by
  have h : d.entrySequence t archive = match (d.at t).pwr.entry with
      | none => d.at t
      | some (m, _) => (archive (d.at t).entryRings).entryTwin.entryDrives.entryEnds m := rfl
  rw [h, show (d.at t).pwr.entry = some (mode, k) from he]

theorem Dev.control_entryRings (d : Dev) : d.entryRings.control = d.control :=
  foldl_keep (P := Dev.control) (fun d g => (Dev.control_writeRecord ..).trans (d.control_checkpoint g)) _ d

theorem Dev.entryTwin_start (d : Dev) : d.entryTwin.start = d.start := by
  unfold Dev.entryTwin
  split_ifs
  · exact d.writeWitness_start true
  · rfl

theorem Dev.entryDrives_start (d : Dev) : d.entryDrives.start = d.start :=
  foldl_keep (P := Dev.start) (fun d i => (rfl : ((d.send _).driveUpd i _).start = d.start)) _ d

theorem Dev.domainsFor_keeps (d : Dev) (mode : Nat) (l : List Nat) : (d.domainsFor mode l).modeView = d.modeView ∧ (d.domainsFor mode l).host = d.host :=
  ⟨foldl_keep (P := Dev.modeView) (fun d _ => d.modeView_setDomain _ _) l d,
    foldl_keep (P := Dev.host) (fun d n => by unfold Dev.setDomain; split_ifs <;> rfl) l d⟩

/-- What an entry leaves: the mode, no queue and no mailbox. -/
theorem Dev.entered_spec (d : Dev) (mode : Nat) (l : List Nat) :
    let e := (d.entered mode false).domainsFor mode l
    e.pwr.mode = mode ∧ e.start.service = false ∧ e.pwr.ember = (mode == 1) ∧ e.pwr.offRdy = (mode == 0) ∧ e.pwr.entry = none ∧ e.host.qps = [] ∧
      e.mail.boxes = [] := by
  obtain ⟨hview, hhost⟩ := (d.entered mode false).domainsFor_keeps mode l
  have hp : ((d.entered mode false).domainsFor mode l).pwr.rest = (d.entered mode false).pwr.rest := congrArg Prod.fst hview
  have hst : ((d.entered mode false).domainsFor mode l).start = (d.entered mode false).start :=
    congrArg (fun v : PwrSt × RecSt × StartSt × MailSt => v.2.2.1) hview
  have hml : ((d.entered mode false).domainsFor mode l).mail = (d.entered mode false).mail :=
    congrArg (fun v : PwrSt × RecSt × StartSt × MailSt => v.2.2.2) hview
  exact ⟨congrArg PwrSt.mode hp, congrArg StartSt.service hst, (congrArg PwrSt.ember hp).trans (Bool.and_true _), congrArg PwrSt.offRdy hp,
    congrArg PwrSt.entry hp, congrArg HostSt.qps hhost, congrArg MailSt.boxes hml⟩

/-- The pins of an entry that nothing woke: all but the output stands. -/
theorem Dev.entryPins_asleep (d : Dev) (mode : Nat) : d.entryPins mode false = d.send (if mode = 0 then .pin 3 0 else .pin 2 0) := by
  unfold Dev.entryPins
  rw [if_neg Bool.false_ne_true]
  split_ifs <;> rfl

/-- The pins that wake fit in 16 bits. -/
theorem Dev.wakePins_lt (d : Dev) (pins : Nat) : d.wakePins pins < 2 ^ 16 := by
  have hsum : ∀ (l : List Nat), l.Sublist (List.range 16) → (l.map (2 ^ ·)).sum ≤ ((List.range 16).map (2 ^ ·)).sum := fun l h =>
    List.Sublist.sum_le_sum (h.map _) (fun _ _ => Nat.zero_le _)
  have h16 : ((List.range 16).map (2 ^ ·)).sum = 2 ^ 16 - 1 := by decide
  have := hsum _ (List.filter_sublist (p := fun p => bitOf pins p && (d.claimOf 1 p).isSome && d.regN (0x03100000 + 4 * p) % 8 == 2))
  unfold Dev.wakePins
  omega

section
variable {d : Dev} {w : WakeBy} (he : d.pwr.ember = true) (hn : d.pwr.entry = none) (h5 : w.src < 5) (hb : bitOf (d.regN 0x02C10004) w.src = true)
  (hp : w.src = 3 → d.wakePins w.pins ≠ 0) (t : Nat)
include he hn h5 hb hp

/-- A source that is enabled wakes the part from Ember: its bit and its pins are told. -/
theorem Dev.emberWake_wakes : ∃ old8 old44 : Nat, (d.start.ember = false → old8 = 0 ∧ old44 = 0) ∧ d.emberWake t w =
    Dev.send { (((d.at t).setReg 0x02C10008 (BitVec.ofNat 32 (old8 ||| 2 ^ w.src))).setReg 0x03100044
      (BitVec.ofNat 32 (old44 ||| (if w.src = 3 then d.wakePins w.pins else 0)))) with
      pwr := { d.pwr with ember := false }, start := { d.start with ember := true } } (.pin 2 1) := by
  refine ⟨if d.start.ember then (d.at t).regN 0x02C10008 else 0, if d.start.ember then (d.at t).regN 0x03100044 else 0, fun h => by simp [h], ?_⟩
  have hpins : (d.at t).wakePins w.pins = d.wakePins w.pins := rfl
  have hreg : (d.at t).regN 0x02C10004 = d.regN 0x02C10004 := rfl
  have hgo : (((d.at t).pwr.ember || false) && decide (w.src < 5) && bitOf ((d.at t).regN 0x02C10004) w.src &&
      (w.src != 3 || (if w.src = 3 then (d.at t).wakePins w.pins else 0) != 0)) = true := by
    rw [show (d.at t).pwr.ember = true from he, decide_eq_true h5, hreg, hb]
    by_cases h3 : w.src = 3
    · simp [h3, hpins, hp h3]
    · simp [h3]
  unfold Dev.emberWake
  extract_lets d0 during src pins
  have hdur : during = false := by
    unfold during
    rw [show d0.pwr.entry = none from hn]
  rw [hdur, if_pos hgo]
  rfl

end

/-! ### Domains on demand (R531, R532) -/

theorem Dev.wakeList_unfenced (d : Dev) (fuel n : Nat) : ∀ k ∈ d.wakeList fuel n, k = n ∨ d.domFenced k = false := by
  induction fuel generalizing n with
  | zero =>
    intro k hk
    exact .inl (by simpa [Dev.wakeList] using hk)
  | succ fuel ih =>
    intro k hk
    unfold Dev.wakeList at hk
    rcases List.mem_append.1 hk with h | h
    · rw [List.mem_eraseDups, List.mem_flatten] at h
      obtain ⟨l, hl, hkl⟩ := h
      obtain ⟨set, -, rfl⟩ := List.mem_map.1 hl
      split_ifs at hkl
      · cases hkl
      · split at hkl
        next m hm =>
          have hf : d.domFenced m = false := by simpa using List.find?_some hm
          rcases ih m k hkl with rfl | h
          · exact .inr hf
          · exact .inr h
        next => cases hkl
    · exact .inl (by simpa using h)

/-- A domain on demand: when it was asked for, and that it is up. -/
def Dev.wakeOne (d : Dev) (m : Nat) : Dev := ({ d with pwr := { d.pwr with demand := tabSet 0 d.pwr.demand m (d.timeUs + 1) } } : Dev).setDomain m 2

theorem Dev.wakeOne_spec (d : Dev) (m : Nat) : (d.wakeOne m).pwr.demand = tabSet 0 d.pwr.demand m (d.timeUs + 1) ∧ (d.wakeOne m).timeUs = d.timeUs ∧
    (∀ k, ((d.wakeOne m).hearth k).quenched = (d.hearth k).quenched) ∧ (∀ k, k ≠ m → (d.wakeOne m).domain k = d.domain k) ∧
    ((m < 36 → (d.hearth m).quenched = false) → (d.wakeOne m).domain m = 2) := by
  unfold Dev.wakeOne
  generalize hd1 : ({ d with pwr := { d.pwr with demand := tabSet 0 d.pwr.demand m (d.timeUs + 1) } } : Dev) = d1
  have hdom : ∀ k, d1.domain k = d.domain k := fun k => by rw [← hd1]; rfl
  have hh : ∀ k, d1.hearth k = d.hearth k := fun k => by rw [← hd1]; rfl
  have hpd : d1.pwr.demand = tabSet 0 d.pwr.demand m (d.timeUs + 1) ∧ d1.timeUs = d.timeUs := by rw [← hd1]; exact ⟨rfl, rfl⟩
  by_cases hm : m < 36
  · have hset : d1.setDomain m 2 = d1.hearthUpd m (fun h => { h with powered := true }) := if_pos hm
    rw [hset]
    refine ⟨hpd.1, hpd.2, fun k => ?_, fun k hk => ?_, fun hq => ?_⟩
    · by_cases hk : k = m
      · rw [hk, Dev.hearth_hearthUpd, hh]
      · rw [Dev.hearth_hearthUpd_ne _ _ _ _ hk, hh]
    · rw [← hdom k]
      unfold Dev.domain
      rw [Dev.hearth_hearthUpd_ne _ _ _ _ hk]
      rfl
    · unfold Dev.domain
      rw [if_pos hm, Dev.hearth_hearthUpd]
      dsimp only
      rw [hh, if_neg (by simp [hq hm]), if_pos rfl]
  · have h36 : 36 ≤ m := by omega
    have hkeep : (d1.setDomain m 2).pwr.demand = d1.pwr.demand ∧ (d1.setDomain m 2).timeUs = d1.timeUs ∧ (d1.setDomain m 2).qry = d1.qry := by
      unfold Dev.setDomain
      rw [if_neg hm]
      split_ifs <;> exact ⟨rfl, rfl, rfl⟩
    refine ⟨hkeep.1.trans hpd.1, hkeep.2.1.trans hpd.2, fun k => ?_, fun k hk => ?_, fun _ => ?_⟩
    · rw [Dev.hearth, hkeep.2.2]
      exact congrArg Hearth.quenched (hh k)
    · rw [Dev.domain_setDomain h36, if_neg hk, hdom]
    · rw [Dev.domain_setDomain h36, if_pos rfl]

/-- Domains woken one by one: each of them is up, and no other changes. -/
theorem Dev.wakeOne_foldl (l : List Nat) (d : Dev) : let e := l.foldl Dev.wakeOne d
    e.timeUs = d.timeUs ∧ (∀ k ∈ l, (k < 36 → (d.hearth k).quenched = false) → e.domain k = 2) ∧ ∀ k, k ∉ l → e.domain k = d.domain k := by
  induction l generalizing d with
  | nil => exact ⟨rfl, fun k hk => absurd hk List.not_mem_nil, fun _ _ => rfl⟩
  | cons m r ih =>
    obtain ⟨ht, hup, hother⟩ := ih (d.wakeOne m)
    obtain ⟨-, h2, h3, h4, h5⟩ := d.wakeOne_spec m
    refine ⟨ht.trans h2, fun k hk hq => ?_, fun k hk => ?_⟩
    · by_cases hr : k ∈ r
      · exact hup k hr (fun h => (h3 k).trans (hq h))
      · obtain rfl : k = m := (List.mem_cons.1 hk).resolve_right hr
        exact (hother k hr).trans (h5 hq)
    · rw [List.mem_cons, not_or] at hk
      exact (hother k hk.2).trans (h4 k hk.1)

theorem Dev.domainWake_wakes {d : Dev} {n : Nat} (hm : 3 ≤ d.pwr.mode) (hn : n < 72) (hf : d.domFenced n = false)
    (ht : d.domTarget d.pwr.mode d.pwr.serve n ≠ 2) (t : Nat) :
    let e := d.domainWake t n
    e.domain n = 2 ∧ tabGet 0 e.pwr.demand n = max d.timeUs t + 1 ∧ (∀ k ∈ d.wakeList 3 n, e.domain k = 2) ∧
      ∀ k, k ∉ d.wakeList 3 n → e.domain k = d.domain k := by
  have hgo : ¬ (decide ((d.at t).pwr.mode < 3) || decide (72 ≤ n) || (d.at t).domFenced n || (d.at t).domTarget (d.at t).pwr.mode (d.at t).pwr.serve n == 2) = true := by
    have h1 : (d.at t).domFenced n = false := hf
    have h2 : ((d.at t).domTarget (d.at t).pwr.mode (d.at t).pwr.serve n == 2) = false := beq_eq_false_iff_ne.2 ht
    have h3 : decide ((d.at t).pwr.mode < 3) = false := decide_eq_false (Nat.not_lt.2 hm)
    rw [h1, h2, h3, decide_eq_false (Nat.not_le.2 hn)]
    decide
  have heq : d.domainWake t n = ((d.at t).wakeList 3 n).foldl Dev.wakeOne (d.at t) := if_neg hgo
  obtain ⟨-, hup, hother⟩ := Dev.wakeOne_foldl ((d.at t).wakeList 3 n) (d.at t)
  have hunq : ∀ k ∈ (d.at t).wakeList 3 n, k < 36 → ((d.at t).hearth k).quenched = false := fun k hk h36 => by
    have hfk : (d.at t).domFenced k = false := ((d.at t).wakeList_unfenced 3 n k hk).elim (fun h => h ▸ hf) id
    unfold Dev.domFenced at hfk
    rwa [if_pos h36] at hfk
  have hlast : n ∈ (d.at t).wakeList 3 n := List.mem_append_right _ List.mem_cons_self
  rw [heq]
  refine ⟨hup n hlast (hunq n hlast), ?_, fun k hk => hup k hk (hunq k hk), fun k hk => (hother k hk)⟩
  obtain ⟨l, hl⟩ : ∃ l, (d.at t).wakeList 3 n = l ++ [n] := ⟨_, rfl⟩
  obtain ⟨htime, -⟩ := Dev.wakeOne_foldl l (d.at t)
  rw [hl, List.foldl_append]
  change tabGet 0 ((l.foldl Dev.wakeOne (d.at t)).wakeOne n).pwr.demand n = _
  rw [(Dev.wakeOne_spec _ _).1, htime, tabGet_set, if_pos rfl]
  rfl

/-- A domain that is needed no more takes the state of its mode. -/
theorem Dev.domainIdle_leaves {d : Dev} {n : Nat} (h36 : 36 ≤ n) (h0 : tabGet 0 d.pwr.demand n ≠ 0) {t : Nat}
    (ht : tabGet 0 d.pwr.demand n + 1000 ≤ max d.timeUs t + 1) (hs : d.stillNeeded n = false) :
    let e := d.domainIdle t n
    tabGet 0 e.pwr.demand n = 0 ∧ e.domain n = d.domTarget d.pwr.mode d.pwr.serve n := by
  have hgo : ¬ (decide (tabGet 0 (d.at t).pwr.demand n = 0) || decide ((d.at t).timeUs + 1 < tabGet 0 (d.at t).pwr.demand n + 1000) ||
      (d.at t).stillNeeded n) = true := by
    have h1 : ¬ (d.at t).timeUs + 1 < tabGet 0 (d.at t).pwr.demand n + 1000 := Nat.not_lt.2 ht
    have h2 : decide (tabGet 0 (d.at t).pwr.demand n = 0) = false := decide_eq_false h0
    rw [show (d.at t).stillNeeded n = false from hs, decide_eq_false h1, h2]
    decide
  rw [show d.domainIdle t n = _ from if_neg hgo]
  refine ⟨?_, ?_⟩
  · have hkeep : ∀ (e : Dev) st, (e.setDomain n st).pwr.demand = e.pwr.demand := fun e st => by unfold Dev.setDomain; split_ifs <;> rfl
    rw [hkeep]
    simp
  · rw [Dev.domain_setDomain h36, if_pos rfl]
    rfl

/-! ### Samples and protection (R539, R540, R623, R627) -/

theorem Dev.powerSample_one {d : Dev} {r : Nat} (hr : r < 16) (mv ma t : Nat) :
    let e := d.powerSample t [(r, mv, ma)]
    tabGet (0, 0) e.pwr.railLast r = (mv * ma, max d.timeUs t + 1) ∧ r ∉ e.pwr.rails ∧ e.pwr.samples = e.packagePower :: d.pwr.samples.take 99 ∧
      e.regN 0x02C00008 = min 0xFFFF e.power1ms := by
  have hl : ([(r, mv, ma)] : List (Nat × Nat × Nat)).filter (fun r => decide (r.1 < supplies.length)) = [(r, mv, ma)] := by
    have h16 : supplies.length = 16 := rfl
    simp [h16, hr]
  unfold Dev.powerSample
  rw [hl]
  dsimp only [List.foldl]
  refine ⟨?_, ?_, rfl, ?_⟩
  · change tabGet (0, 0) (tabSet (0, 0) d.pwr.railLast r (mv * ma, max d.timeUs t + 1)) r = _
    rw [tabGet_set, if_pos rfl]
  · change r ∉ d.pwr.rails.filter _
    simp
  · rw [Dev.regN, Dev.reg_setReg, BitVec.toNat_ofNat, Nat.mod_eq_of_lt]
    · rfl
    · omega

theorem Dev.bitOf_showThermal (d : Dev) : bitOf (d.showThermal.regN 0x02C0000C) 16 = d.pwr.alert ∧ bitOf (d.showThermal.regN 0x02C0000C) 17 = d.pwr.clamp := by
  have hlow : (d.pwr.tj % 65536).toNat < 65536 := by omega
  have hreg : d.showThermal.regN 0x02C0000C = (d.pwr.tj % 65536).toNat + 65536 * b2n d.pwr.alert + 131072 * b2n d.pwr.clamp := by
    have h1 : b2n d.pwr.alert ≤ 1 := by cases d.pwr.alert <;> decide
    have h2 : b2n d.pwr.clamp ≤ 1 := by cases d.pwr.clamp <;> decide
    rw [Dev.showThermal, Dev.regN, Dev.reg_setReg, BitVec.toNat_ofNat, Nat.mod_eq_of_lt (by omega)]
  rw [hreg]
  generalize (d.pwr.tj % 65536).toNat = k at hlow
  unfold bitOf
  cases d.pwr.alert <;> cases d.pwr.clamp <;> simp [b2n] <;> omega

/-! ### Parking under Capped (R539) -/

theorem Dev.hearth_toBoundary_ne (d : Dev) {h k : Nat} (hk : k ≠ h) : (d.toBoundary h).hearth k = d.hearth k := by
  unfold Dev.toBoundary
  split
  · rfl
  · split_ifs
    · rfl
    · exact (Dev.exuEvents_keep (fun e : Dev => e.hearth k) (fun _ _ _ => rfl) (fun _ _ => rfl) ..).trans (Dev.hearth_hearthUpd_ne _ _ _ _ hk)

/-- Where the power is above the ceiling and more than four hearths run, the last of them is parked at its boundary. -/
theorem Dev.parkCheck_parks {d : Dev} {h : Nat} (hm : d.pwr.mode = 6) (hp : 10 * d.pwr.ceiling < d.power1ms) (hr : d.runners.getLast? = some h)
    (hl : 4 < d.runners.length) (hs : (d.hearth h).slots = []) (t : Nat) :
    let e := d.parkCheck t
    e.hearth h = { ((d.at t).toBoundary h).hearth h with parked := true, powered := false } ∧ ∀ k, k ≠ h → e.hearth k = d.hearth k := by
  have h0 : (d.at t).runners.getLast? = some h := hr
  have hs0 : ((d.at t).hearth h).slots = [] := hs
  have heq : d.parkCheck t = (((d.at t).toBoundary h).hearthUpd h (fun x => { x with parked := true, powered := false })).retainBanks [h] := by
    refine (if_neg (not_not.2 hm)).trans ((if_pos hp).trans ?_)
    rw [h0]
    refine (if_neg (Nat.not_le.2 hl)).trans ?_
    rw [hs0]
    rfl
  rw [heq]
  refine ⟨Dev.hearth_hearthUpd .., fun k hk => (Dev.hearth_hearthUpd_ne _ _ _ _ hk).trans (Dev.hearth_toBoundary_ne _ hk)⟩

/-- Where four hearths or fewer run, none is parked: commands are paced. -/
theorem Dev.parkCheck_paces {d : Dev} (hm : d.pwr.mode = 6) (hp : 10 * d.pwr.ceiling < d.power1ms) (hl : d.runners.length ≤ 4) (t : Nat) :
    d.parkCheck t = { d.at t with pwr := { d.pwr with paced := true } } := by
  refine (if_neg (not_not.2 hm)).trans ((if_pos hp).trans ?_)
  split
  next h _ => exact if_pos hl
  next => rfl

/-- Where the power is below 95 % of the ceiling, the first parked hearth runs again. -/
theorem Dev.parkCheck_unparks {d : Dev} {h : Nat} (hm : d.pwr.mode = 6) (hp : 100 * d.power1ms < 95 * (10 * d.pwr.ceiling))
    (hk : d.parkedHearths.head? = some h) (t : Nat) :
    let e := d.parkCheck t
    e.hearth h = { d.hearth h with parked := false, powered := true } ∧ e.pwr.paced = false := by
  have hlow : ¬ 10 * (d.at t).pwr.ceiling < (d.at t).power1ms := by
    change ¬ 10 * d.pwr.ceiling < d.power1ms
    omega
  have hk0 : ({ d.at t with pwr := { (d.at t).pwr with paced := false } } : Dev).parkedHearths.head? = some h := hk
  have heq : d.parkCheck t = ({ d.at t with pwr := { d.pwr with paced := false, demand := tabSet 0 d.pwr.demand h 0 } } : Dev).hearthUpd h
      (fun x => { x with parked := false, powered := true }) := by
    refine (if_neg (not_not.2 hm)).trans ((if_neg hlow).trans ((if_pos hp).trans ?_))
    rw [hk0]
    rfl
  rw [heq]
  exact ⟨Dev.hearth_hearthUpd .., rfl⟩

/-! ### The thermal limits (R540) -/

theorem Dev.out_event (d : Dev) (x code o v : Nat) : d.out ⊆ (d.event x code o v).out := by
  unfold Dev.event Dev.mboxVector
  extract_lets m e d1
  split_ifs
  · exact d1.out_vector _ _
  · exact fun _ h => h
  · exact fun _ h => h

theorem Dev.regN_event (d : Dev) (x code o v a : Nat) : (d.event x code o v).regN a = d.regN a := by
  obtain ⟨f, out, fns, held, -, h⟩ := d.event_only x code o v
  rw [h]
  rfl

/-- Whether a reading of one sensor has the alert on, with its 5 °C of hysteresis, and the clamp. -/
def Dev.alertOf (d : Dev) (tj : Int) : Bool :=
  if d.pwr.alert then decide (10 * (d.regField 0x02C00010 7 0 : Int) - 50 ≤ tj) else decide (10 * (d.regField 0x02C00010 7 0 : Int) ≤ tj)
def Dev.clampOf (d : Dev) (tj : Int) : Bool := d.pwr.clamp || decide (10 * (d.regField 0x02C00010 15 8 : Int) ≤ tj)

/-- What one reading of one sensor leaves before the alert's change is told. -/
theorem Dev.thermalSample_one (d : Dev) (t n : Nat) (tj : Int) : ∃ d1 : Dev, (d1.pwr.alert = d.alertOf tj ∧ d1.pwr.clamp = d.clampOf tj ∧ d1.pwr.tj = tj) ∧
    d.thermalSample t [(n, tj)] = if d.alertOf tj && !d.pwr.alert then (d1.showThermal.send (.pin 1 0)).eventPf 0x0131 0 ((tj % 65536).toNat)
      else if d.pwr.alert && !d.alertOf tj then d1.showThermal.send (.pin 1 1) else d1.showThermal :=
  ⟨{ d.at t with
    pwr := { d.pwr with
      tj := tj, alert := d.alertOf tj, clamp := d.clampOf tj
      coolSince := if d.clampOf tj && decide (tj < 10 * (d.regField 0x02C00010 15 8 : Int) - 50) then
        (match d.pwr.coolSince with | some u => some u | none => some (d.at t).timeUs) else none }
    rcd := { d.rcd with acc := thermNote d.opSec d.rcd.acc n tj } }, ⟨rfl, rfl, rfl⟩, rfl⟩

/-- A sample below both limits that raises the alert. -/
theorem Dev.thermalSample_alerts {d : Dev} {tj : Int} (ha : d.pwr.alert = false) (hc : d.pwr.clamp = false)
    (h1 : 10 * (d.regField 0x02C00010 7 0 : Int) ≤ tj) (h2 : tj < 10 * (d.regField 0x02C00010 15 8 : Int)) (t n : Nat) :
    let e := d.thermalSample t [(n, tj)]
    e.pwr.alert ∧ e.pwr.clamp = false ∧ e.pwr.tj = tj ∧ .pin 1 0 ∈ e.out ∧ bitOf (e.regN 0x02C0000C) 16 ∧
      ((e.mbox 0).events.getLast?).map (fun e => (e.code, e.object)) = some (0x0131, 0) := by
  have halert : d.alertOf tj = true := by
    unfold Dev.alertOf
    rw [ha]
    exact decide_eq_true h1
  have hclamp : d.clampOf tj = false := by
    unfold Dev.clampOf
    rw [hc, decide_eq_false (Int.not_le.2 h2)]
    rfl
  obtain ⟨d1, ⟨g1, g2, g3⟩, heq⟩ := d.thermalSample_one t n tj
  rw [halert] at g1
  rw [hclamp] at g2
  rw [halert, ha, if_pos (by decide)] at heq
  have hpwr : ((d1.showThermal.send (.pin 1 0)).eventPf 0x0131 0 ((tj % 65536).toNat)).pwr = d1.pwr := Dev.eventPf_pwr ..
  have hreg : ((d1.showThermal.send (.pin 1 0)).eventPf 0x0131 0 ((tj % 65536).toNat)).regN 0x02C0000C = d1.showThermal.regN 0x02C0000C :=
    (Dev.regN_event ..).trans (Dev.regN_event ..)
  rw [heq]
  refine ⟨by rw [hpwr, g1], by rw [hpwr, g2], by rw [hpwr, g3], ?_, ?_, ?_⟩
  · exact Dev.out_event _ _ _ _ _ (Dev.out_event _ _ _ _ _ (List.mem_append_right _ List.mem_cons_self))
  · rw [hreg, (Dev.bitOf_showThermal d1).1, g1]
  · have hlast := Dev.eventPf_last (d1.showThermal.send (.pin 1 0)) 0x0131 0 ((tj % 65536).toNat)
    rw [Option.map_eq_some_iff] at hlast ⊢
    obtain ⟨e, he, hv⟩ := hlast
    exact ⟨e, he, congrArg (fun p : Nat × Nat × Nat => (p.1, p.2.1)) hv⟩

/-- A sample at the clamp limit clamps. -/
theorem Dev.thermalSample_clamps {d : Dev} {tj : Int} (h : 10 * (d.regField 0x02C00010 15 8 : Int) ≤ tj) (t n : Nat) :
    let e := d.thermalSample t [(n, tj)]
    e.pwr.clamp ∧ e.hearthMhz = 1200 ∧ bitOf (e.regN 0x02C0000C) 17 := by
  have hclamp : d.clampOf tj = true := by
    unfold Dev.clampOf
    rw [decide_eq_true h, Bool.or_true]
  obtain ⟨d1, ⟨-, g2, -⟩, heq⟩ := d.thermalSample_one t n tj
  rw [hclamp] at g2
  have hsame : (d.thermalSample t [(n, tj)]).pwr = d1.pwr ∧ (d.thermalSample t [(n, tj)]).regN 0x02C0000C = d1.showThermal.regN 0x02C0000C := by
    rw [heq]
    split_ifs
    · exact ⟨Dev.eventPf_pwr .., (Dev.regN_event ..).trans (Dev.regN_event ..)⟩
    · exact ⟨rfl, rfl⟩
    · exact ⟨rfl, rfl⟩
  obtain ⟨hp, hr⟩ := hsame
  refine ⟨by rw [hp, g2], ?_, ?_⟩
  · unfold Dev.hearthMhz
    rw [hp, if_pos (.inr g2)]
  · rw [hr, (Dev.bitOf_showThermal d1).2, g2]

section
variable {d : Dev} {u : Nat} (hc : d.pwr.clamp = true) (hu : d.pwr.coolSince = some u)
include hc hu

theorem Dev.clampRelease_due (t : Nat) : d.clampRelease t =
    if u + 100000 ≤ max d.timeUs t then ({ d.at t with pwr := { d.pwr with clamp := false, coolSince := none } } : Dev).showThermal else d.at t := by
  have h1 : (d.at t).pwr.clamp = true := hc
  have h2 : (d.at t).pwr.coolSince = some u := hu
  unfold Dev.clampRelease
  simp only [h1, h2]
  rfl

end

/-! ### THERMTRIP# (R627) -/

/-- Nothing of a hearth outlives a stop, but what is soldered. -/
theorem Dev.hearth_coldState (d : Dev) (h : Nat) : (d.coldState.hearth h).powered = false ∧ (d.coldState.hearth h).running = none := by
  have hl : ∀ l : Tab Hearth, (tabGet {} (l.map (fun p => (p.1, coldHearth p.2))) h).powered = false ∧
      (tabGet {} (l.map (fun p => (p.1, coldHearth p.2))) h).running = none := fun l => by
    induction l with
    | nil => exact ⟨rfl, rfl⟩
    | cons p r ih =>
      by_cases hk : p.1 = h
      · simp [tabGet, hk, coldHearth]
      · simpa [tabGet, hk] using ih
  exact hl d.qry.hearths

theorem Dev.thermTrip_trips {d : Dev} (hs : d.pwr.sysGood = true) (ht : d.pwr.trip = false) (t : Nat) :
    d.thermTrip t = ({ (d.at t).coldState with
      pwr := { (d.at t).coldState.pwr with trip := true }
      start := { (d.at t).coldState.start with tripLatch := true, banked := false, retry := false } } : Dev).send (.pin 0 0) := by
  have hgo : ¬ (!(d.at t).pwr.sysGood || (d.at t).pwr.trip) = true := by
    simp [Dev.at, hs, ht]
  exact if_neg hgo

/-! ### A change that is prepared, reverts, or is chosen (R529, R534, R535) -/

/-- The deadline of a change that no unit has acknowledged: everything is as it was. -/
theorem Dev.changeDeadline_reverts {d : Dev} {c : Change} (hc : d.pwr.change = some c) (hp : c.prepared = true) {t : Nat}
    (hs : c.sent + 2000 ≤ max d.timeUs t) (ha : c.acked = []) (hb : c.by_ = none) : ∃ lag, d.changeDeadline t =
      (({ d.at t with pwr := { d.pwr with change := none, limit := modeLimit c.fromMode c.fromServe c.fromCeil } } : Dev).bump 0x02C00060 1).noteChange c 2 lag := by
  have hgo : (c.prepared && decide (c.sent + 2000 ≤ (d.at t).timeUs)) = true := by
    rw [hp, Bool.true_and]
    exact decide_eq_true hs
  have h1 : (d.at t).pwr.change = some c := hc
  have hfold : ∀ (l : List (Nat × Nat)) (e : Dev), l.foldl (fun (d : Dev) o => if c.acked.contains o.1 then (if o.2 = 2 then d.setDomain o.1 2 else d.leaveDomain o.1 o.2) else d) e = e :=
    fun l e => List.foldlRecOn (motive := fun x => x = e) _ _ rfl (fun x hx o _ => by
      rw [hx, ha]
      exact if_neg (by simp))
  refine ⟨c.units.filter (fun n => !c.acked.contains n), ?_⟩
  unfold Dev.changeDeadline
  simp only [h1]
  rw [if_pos hgo]
  unfold Dev.revertChange
  simp only [hfold, hb]
  rfl

theorem Dev.idleTimer_chooses {d : Dev} (hf : d.fn.directed = false) (hc : d.pwr.change = none) (h4 : 4 ≤ d.pwr.mode) (h6 : d.pwr.mode ≤ 6)
    (ha : d.anyCommand = false) (hw : d.workCharges = 0) (t : Nat) : d.idleTimer t = (d.at t).chooseMode 3 0 d.pwr.ceiling := by
  have hgo : ¬ ((d.at t).fn.directed || (d.at t).pwr.change.isSome || !(decide (4 ≤ (d.at t).pwr.mode) && decide ((d.at t).pwr.mode ≤ 6)) ||
      (d.at t).anyCommand || decide (0 < (d.at t).workCharges)) = true := by
    have h1 : decide (4 ≤ (d.at t).pwr.mode) = true := decide_eq_true h4
    have h2 : decide ((d.at t).pwr.mode ≤ 6) = true := decide_eq_true h6
    rw [show (d.at t).fn.directed = false from hf, show (d.at t).pwr.change = none from hc, h1, h2, show (d.at t).anyCommand = false from ha,
      show (d.at t).workCharges = 0 from hw]
    decide
  exact if_neg hgo

/-! ### The last acknowledgement (R534) -/

section
variable {d : Dev} {c : Change} {n t : Nat} (hc : d.pwr.change = some c) (hp : c.prepared = true) (hu : c.units = [n]) (ha : c.acked = [])
  (ht : max d.timeUs t ≤ c.sent + 2000) (h36 : 36 ≤ n)
include hc hp hu ha ht h36

/-- The acknowledgement of the one unit of a change commits it. -/
theorem Dev.unitAck_last : ∃ e : Dev, e.modeView = d.modeView ∧ d.unitAck t n = e.commitChange { c with acked := [n] } := by
  have heq := Dev.unitAck_counts hc hp (by rw [hu]; exact List.mem_singleton_self n) (by rw [ha]; exact List.not_mem_nil) ht (d.needsWait_single h36 hu)
  rw [heq, hu, ha]
  refine ⟨_, ?_, if_pos (by simp)⟩
  have hb : ((d.at t).toBoundary n).modeView = d.modeView := Dev.modeView_toBoundary ..
  split_ifs
  · exact (Dev.modeView_setDomain ..).trans hb
  · exact hb

end

/-- What a change of one unit, outside the hearths, has taken once it commits. -/
theorem Dev.committed_takes {d e : Dev} {c : Change} {n : Nat} (hu : c.units = [n]) (h36 : 36 ≤ n) (hv : e.modeView = d.modeView) :
    let r := e.committed c
    r.pwr.change = none ∧ r.pwr.mode = c.toMode ∧ r.pwr.serve = c.toServe ∧ r.pwr.ceiling = c.toCeil ∧
      r.pwr.limit = modeLimit c.toMode c.toServe c.toCeil ∧ r.rcd.acc.commits = d.rcd.acc.commits + 1 ∧ r.mail = d.mail := by
  have hview : (e.committed c).modeView = ((e.modeTaken c).changeCounted 1).modeView :=
    Dev.modeView_committed (fun m hm => by rw [hu, List.mem_singleton] at hm; omega)
  have hrest : (e.committed c).pwr.rest = (e.modeTaken c).pwr.rest := congrArg Prod.fst hview
  have hrcd : (e.committed c).rcd = e.rcd.counted 1 := congrArg (fun v : PwrSt × RecSt × StartSt × MailSt => v.2.1) hview
  have hmail : (e.committed c).mail = e.mail := congrArg (fun v : PwrSt × RecSt × StartSt × MailSt => v.2.2.2) hview
  have hrcd0 : e.rcd = d.rcd := congrArg (fun v : PwrSt × RecSt × StartSt × MailSt => v.2.1) hv
  have hmail0 : e.mail = d.mail := congrArg (fun v : PwrSt × RecSt × StartSt × MailSt => v.2.2.2) hv
  refine ⟨congrArg PwrSt.change hrest, congrArg PwrSt.mode hrest, congrArg PwrSt.serve hrest, congrArg PwrSt.ceiling hrest, congrArg PwrSt.limit hrest, ?_,
    hmail.trans hmail0⟩
  rw [hrcd, hrcd0]
  rfl

/-- A unit's acknowledgement that leaves another to wait for. -/
theorem Dev.unitAck_more {d : Dev} {c : Change} {n u t : Nat} (hc : d.pwr.change = some c) (hp : c.prepared = true) (hn : n ∈ c.units) (ha : n ∉ c.acked)
    (ht : max d.timeUs t ≤ c.sent + 2000) (hu : u ∈ c.units) (hne : u ≠ n) (hua : u ∉ c.acked) (h36 : 36 ≤ n)
    (h2 : d.domTarget c.toMode c.toServe n = 2) (hw : d.needsWait c n = false) :
    let e := d.unitAck t n
    e.pwr.change = some { c with acked := c.acked ++ [n] } ∧ e.pwr.mode = d.pwr.mode ∧ e.domain n = 2 := by
  have hmore : ¬ (c.units.all (fun v => (c.acked ++ [n]).contains v)) = true := fun h => by
    have := List.all_eq_true.1 h u hu
    simp [hua, hne] at this
  have htarget : ((d.at t).toBoundary n).domTarget c.toMode c.toServe n = 2 := ((d.at t).domTarget_toBoundary h36 _ _).trans h2
  have hmode : (((d.at t).toBoundary n).setDomain n 2).pwr.rest = d.pwr.rest :=
    congrArg Prod.fst ((Dev.modeView_setDomain ..).trans (Dev.modeView_toBoundary ..) :
      (((d.at t).toBoundary n).setDomain n 2).modeView = (d.at t).modeView)
  have hdom : (((d.at t).toBoundary n).setDomain n 2).domain n = 2 := by rw [Dev.domain_setDomain h36, if_pos rfl]
  rw [(Dev.unitAck_counts hc hp hn ha ht hw).trans (if_neg hmore), htarget, if_pos rfl]
  have hm : (((d.at t).toBoundary n).setDomain n 2).pwr.mode = d.pwr.mode := by
    have h := congrArg PwrSt.mode hmode
    exact h
  refine ⟨rfl, hm, ?_⟩
  unfold Dev.domain at hdom ⊢
  rw [if_neg (by omega)] at hdom ⊢
  exact hdom

/-- What an entry leaves where nothing woke the part meanwhile. -/
def Dev.asleep (e : Dev) (mode : Nat) : Prop :=
  e.pwr.mode = mode ∧ e.start.service = false ∧ e.pwr.ember = (mode == 1) ∧ e.pwr.offRdy = (mode == 0) ∧ e.pwr.entry = none ∧ e.host.qps = [] ∧
    e.mail.boxes = [] ∧ e.out.getLast? = some (if mode = 0 then .pin 3 0 else .pin 2 0)

theorem Dev.asleep_send {r : Dev} {mode : Nat} (h : r.pwr.mode = mode ∧ r.start.service = false ∧ r.pwr.ember = (mode == 1) ∧
    r.pwr.offRdy = (mode == 0) ∧ r.pwr.entry = none ∧ r.host.qps = [] ∧ r.mail.boxes = []) :
    (r.send (if mode = 0 then .pin 3 0 else .pin 2 0)).asleep mode := by
  obtain ⟨g1, g2, g3, g4, g5, g6, g7⟩ := h
  exact ⟨g1, g2, g3, g4, g5, g6, g7, List.getLast?_concat⟩

theorem Dev.entryEnds_asleep {d : Dev} (h : d.start.ember = false) (mode : Nat) : (d.entryEnds mode).asleep mode := by
  unfold Dev.entryEnds
  generalize powerOrder.reverse = l
  rw [h, Dev.entryPins_asleep]
  exact Dev.asleep_send (d.entered_spec mode l)

theorem Dev.entrySequence_asleep {d : Dev} {mode k : Nat} (he : d.pwr.entry = some (mode, k)) (hs : d.start.ember = false) (t : Nat) (ok0 ok1 : Bool) :
    (d.entrySequence t (fun d => d.recForce.recArchive ok0 ok1)).asleep mode := by
  have hring : (d.at t).entryRings.start = d.start :=
    congrArg (fun v : PwrSt × RecSt × StartSt × MailSt => v.2.2.1) (d.at t).control_entryRings
  have hrec : ((d.at t).entryRings.recForce.recArchive ok0 ok1).start = (d.at t).entryRings.start := by
    obtain ⟨_, _, _, h⟩ := Dev.recorderOnly_trans (Dev.recForce_only (d.at t).entryRings) (Dev.recArchive_only _ ok0 ok1)
    rw [h]
  have hember : ((d.at t).entryRings.recForce.recArchive ok0 ok1).entryTwin.entryDrives.start.ember = false := by
    rw [Dev.entryDrives_start, Dev.entryTwin_start, hrec, hring, hs]
  rw [Dev.entrySequence_enters he]
  exact Dev.entryEnds_asleep hember mode

/-- What the registers tell of a source that wakes the part. -/
theorem Dev.emberWake_tells {d : Dev} {w : WakeBy} (he : d.pwr.ember = true) (hn : d.pwr.entry = none) (h5 : w.src < 5)
    (hb : bitOf (d.regN 0x02C10004) w.src = true) (hp : w.src = 3 → d.wakePins w.pins ≠ 0) (hs : d.start.ember = false) (t : Nat) :
    let e := d.emberWake t w
    e.pwr.ember = false ∧ e.start.ember ∧ e.regN 0x02C10008 = 2 ^ w.src ∧ e.regN 0x03100044 = (if w.src = 3 then d.wakePins w.pins else 0) ∧
      e.out = d.out ++ [.pin 2 1] := by
  obtain ⟨old8, old44, hold, heq⟩ := Dev.emberWake_wakes he hn h5 hb hp t
  obtain ⟨rfl, rfl⟩ := hold hs
  rw [heq]
  have hset : ∀ (e : Dev) a v, (e.setReg a v).reg a = v := fun e a v => Dev.reg_setReg ..
  refine ⟨rfl, rfl, ?_, ?_, rfl⟩
  · change (((((d.at t).setReg 0x02C10008 _).setReg 0x03100044 _).reg 0x02C10008)).toNat = _
    rw [Dev.reg_setReg_at, if_neg (by decide), hset, BitVec.toNat_ofNat, Nat.zero_or, Nat.mod_eq_of_lt]
    exact Nat.pow_lt_pow_right (by decide) (by omega)
  · change (((((d.at t).setReg 0x02C10008 _).setReg 0x03100044 _).reg 0x03100044)).toNat = _
    rw [hset, BitVec.toNat_ofNat, Nat.zero_or, Nat.mod_eq_of_lt]
    have := d.wakePins_lt w.pins
    split_ifs <;> omega

theorem bitOf_eq_testBit (x i : Nat) : bitOf x i = x.testBit i := by
  rw [Nat.testBit_eq_decide_div_mod_eq]
  rfl

theorem Dev.bellowsAlarm_wakes {d : Dev} (he : d.pwr.ember = true) (hn : d.pwr.entry = none) (hb : bitOf (d.regN 0x02C10004) 4 = true)
    (h0 : d.reg64 0x02C10010 ≠ 0) (hs : d.reg64 0x02C10010 ≤ d.opSec) (t : Nat) :
    let e := d.bellowsAlarm t
    e.pwr.ember = false ∧ e.start.ember ∧ bitOf (e.regN 0x02C10008) 4 ∧ e.out = d.out ++ [.pin 2 1] := by
  obtain ⟨old8, old44, -, heq⟩ := Dev.emberWake_wakes (d := d) (w := { src := 4 }) he hn (by decide) hb (fun h => absurd h (by decide)) t
  rw [show d.bellowsAlarm t = d.emberWake t { src := 4 } from if_pos ⟨h0, hs⟩, heq]
  refine ⟨rfl, rfl, ?_, rfl⟩
  change bitOf (((((d.at t).setReg 0x02C10008 (BitVec.ofNat 32 (old8 ||| 2 ^ 4))).setReg 0x03100044 _).reg 0x02C10008)).toNat 4 = true
  rw [Dev.reg_setReg_at, if_neg (by decide), Dev.reg_setReg, BitVec.toNat_ofNat, bitOf_eq_testBit, Nat.testBit_mod_two_pow, Nat.testBit_or,
    Nat.testBit_two_pow_self, Bool.or_true]
  rfl

theorem Dev.commitChange_none {d : Dev} {c : Change} (hc : c.chosen = false) (hb : c.by_ = none) : d.commitChange c = d.committed c := by
  rw [Dev.commitChange_quiet hc, hb]

/-- The regulator is ready, and no hearth group wakes: the units are asked (R534, R535). -/
theorem Dev.vddReady_prepares {d : Dev} {c : Change} (hc : d.pwr.change = some c) (hw : c.wake = []) (hp : c.prepared = false) (hu : c.units ≠ []) (t : Nat) :
    d.vddReady t = { d.at t with pwr := { d.pwr with change := some { c with vddReady := true, prepared := true, sent := max d.timeUs t } } } := by
  have hgo : ¬ (!true || !c.wake.isEmpty || c.prepared) = true := by rw [hw, hp]; decide
  have hsome : ¬ c.units.isEmpty = true := by simpa using hu
  have h1 : d.vddReady t = (d.at t).prepare { c with vddReady := true } := by
    unfold Dev.vddReady
    dsimp only
    rw [show (d.at t).pwr.change = some c from hc]
  rw [h1]
  exact (if_neg hgo).trans (if_neg hsome)

/-- A group is awake and another waits (R534). -/
theorem Dev.groupReady_next {d : Dev} {c : Change} {g k : Nat} {rest : List Nat} (hc : d.pwr.change = some c) (hw : c.wake = g :: k :: rest) (t : Nat) :
    d.groupReady t g = { d.at t with pwr := { d.pwr with change := some { c with wake := k :: rest } } } := by
  have hhead : c.wake.head? = some g := by rw [hw]; rfl
  have h1 : d.groupReady t g = (d.at t).prepare { c with wake := c.wake.drop 1 } := by
    unfold Dev.groupReady
    dsimp only
    rw [show (d.at t).pwr.change = some c from hc]
    exact if_pos hhead
  have hgo : (!c.vddReady || !(k :: rest).isEmpty || c.prepared) = true := by
    rw [show (!(k :: rest).isEmpty) = true from rfl, Bool.or_true, Bool.true_or]
  rw [h1, hw]
  exact if_pos hgo

/-- The one unit of a mailbox's change acknowledges: the request is answered, and the setting's generation is the next (R469, R530). -/
theorem Dev.commitChange_answers {d e : Dev} {c : Change} {n x q : Nat} (hu : c.units = [n]) (h36 : 36 ≤ n) (hv : e.modeView = d.modeView)
    (hc : c.chosen = false) (hx : c.by_ = some x) (hb : (d.mbox x).busy = some q) :
    let r := e.commitChange c
    r.pwr.mode = c.toMode ∧ r.mbGeneration 0x16 = (d.mbGeneration 0x16 + 1) % 65536 ∧ (r.mbox x).busy = none ∧ (r.mbox x).doneSeq = q ∧
      (r.mbox x).resp.drop 16 = modeReply c.toMode [] := by
  obtain ⟨-, hmode, -, -, -, -, hmail⟩ := Dev.committed_takes hu h36 hv
  rw [Dev.commitChange_quiet hc, hx]
  generalize e.committed c = r at hmode hmail
  dsimp only
  have hbusy : (({ r with mail := { r.mail with gens := tabUpd 0 r.mail.gens 0x0016 (fun n => (n + 1) % 65536) } } : Dev).mbox x).busy =
      some ({ seq := q, bytes := 0 } : MbReq).seq := by
    rw [← hb]
    exact congrArg (fun m : MailSt => (tabGet {} m.boxes x).busy) hmail
  have hbox := Dev.mbox_mbAnswer hbusy 0 0 0 0 (modeReply c.toMode [])
  refine ⟨?_, ?_, congrArg Mbox.busy hbox, congrArg Mbox.doneSeq hbox, ?_⟩
  · exact (Dev.mbAnswer_keep (fun d => d.pwr.mode) (fun _ _ _ => rfl) (fun d x v => by rw [Dev.vector_pwr]) ..).trans hmode
  · refine (Dev.mail_mbAnswer (fun m => tabGet 0 m.gens 0x16) (fun _ _ => rfl) _ x 0 0 0 0 (modeReply c.toMode [])).trans ?_
    change tabGet 0 (tabUpd 0 r.mail.gens 0x0016 (fun n => (n + 1) % 65536)) 0x16 = _
    rw [tabGet_upd, if_pos rfl, hmail]
    rfl
  · have hresp := congrArg Mbox.resp hbox
    refine (congrArg (List.drop 16) hresp).trans ?_
    exact List.drop_left' (by simp [natLE_length])

/-- Settles O40: the changes by the acknowledgements that count (`unitAck_more`, `unitAck_last`), by their deadline and by what prepares them; the entry by
`entrySequence_asleep`, the domains by the ones woken with them, and the samples against their limits. -/
theorem powerModes : Obligations.PowerModes := by
  refine ⟨?more, ?last, ?answered, ?late, ?vdd, ?group, ?idle, ?directed, ?entry, ?wake, ?alarm, ?demand, ?leave, ?needed, ?sample, ?park, ?pace,
    ?unpark, ?alert, ?clamp, ?release, ?soon, ?trip⟩
  case more =>
    exact fun s t n c u hc hp hn ha ht hu hne hua h36 h2 hw => effects_run rfl
      (Dev.unitAck_more (d := s.dev.at t) hc hp hn ha (by change max (max _ _) _ ≤ _; omega) hu hne hua h36 h2 hw)
  case last =>
    intro s t n c hc hp hu ha ht h36 hb hq
    refine effects_run rfl ?_
    obtain ⟨e, hv, heq⟩ := Dev.unitAck_last (d := s.dev.at t) (t := t) hc hp hu ha (by change max (max _ _) _ ≤ _; omega) h36
    rw [heq, Dev.commitChange_none (c := { c with acked := [n] }) hq hb]
    obtain ⟨g1, g2, g3, g4, g5, g6, -⟩ := Dev.committed_takes (c := { c with acked := [n] }) hu h36 hv
    exact ⟨g1, g2, g3, g4, g5, g6⟩
  case answered =>
    intro s t n c x r hc hp hu ha ht h36 hb hq hr
    refine effects_run rfl ?_
    obtain ⟨e, hv, heq⟩ := Dev.unitAck_last (d := s.dev.at t) (t := t) hc hp hu ha (by change max (max _ _) _ ≤ _; omega) h36
    rw [heq]
    exact Dev.commitChange_answers (c := { c with acked := [n] }) hu h36 hv hq hb hr
  case late =>
    intro s t c hc hp hs ha hb
    refine effects_run rfl ?_
    obtain ⟨lag, heq⟩ := Dev.changeDeadline_reverts (d := s.dev.at t) hc hp (t := t) (by change _ ≤ max (max _ _) _; omega) ha hb
    obtain ⟨regs, hn⟩ := Dev.noteChange_counts _ c 2 lag
    obtain ⟨regs', tally, hbump⟩ := Dev.bump_only { (s.dev.at t).at t with pwr := { (s.dev.at t).pwr with
      change := none, limit := modeLimit c.fromMode c.fromServe c.fromCeil } } 0x02C00060 1
    have hreg : ((s.dev.at t).changeDeadline t).regN 0x02C00060 = satAdd 32 (s.dev.regN 0x02C00060) 1 := by
      rw [heq, Dev.regN_noteChange _ _ _ _ (.inr (Nat.le_refl _)), Dev.regN_bump_self]
      rfl
    rw [heq, hn, hbump] at *
    exact ⟨rfl, rfl, rfl, rfl, hreg⟩
  case vdd =>
    intro s t c hc hw hp hu
    refine effects_run rfl ?_
    rw [Dev.vddReady_prepares (d := s.dev.at t) hc hw hp hu t, show max (s.dev.at t).timeUs t = max s.dev.timeUs t from by change max (max _ _) _ = _; omega]
    exact ⟨rfl, rfl⟩
  case group =>
    intro s t c g k rest hc hw
    refine effects_run rfl ?_
    rw [Dev.groupReady_next (d := s.dev.at t) hc hw t]
  case idle =>
    intro s t hf hc h4 h6 ha hw
    refine effects_run rfl ?_
    rw [Dev.idleTimer_chooses (d := s.dev.at t) hf hc h4 h6 ha hw]
    exact ⟨_, rfl, rfl, rfl, rfl, rfl, rfl⟩
  case directed =>
    intro s t hf
    refine effects_run rfl ?_
    have hno : ((s.dev.at t).at t).fn.directed = true := hf
    rw [show (s.dev.at t).idleTimer t = _ from if_pos (by rw [hno]; rfl), Dev.at_at, Nat.max_self]
  case entry => exact fun s t ok0 ok1 k mode he hs => gives_run rfl (Dev.entrySequence_asleep (d := s.dev.at t) he hs t ok0 ok1)
  case wake => exact fun s t w he hn hs h5 hb hp => gives_run rfl (Dev.emberWake_tells (d := s.dev.at t) he hn h5 hb hp hs t)
  case alarm => exact fun s t he hn hb h0 hs => gives_run rfl (Dev.bellowsAlarm_wakes (d := s.dev.at t) he hn hb h0 hs t)
  case demand =>
    intro s t n hm hn hf ht
    refine gives_run rfl ?_
    have h := Dev.domainWake_wakes (d := s.dev.at t) hm hn hf ht t
    rwa [show max (s.dev.at t).timeUs t = max s.dev.timeUs t from by change max (max _ _) _ = _; omega] at h
  case leave =>
    exact fun s t n h36 h0 ht hs => gives_run rfl (Dev.domainIdle_leaves (d := s.dev.at t) h36 h0 (by change tabGet 0 s.dev.pwr.demand n + 1000 ≤ max (max _ _) _ + 1; omega) hs)
  case needed =>
    intro s t n hs
    refine gives_run rfl ?_
    have hyes : ((s.dev.at t).at t).stillNeeded n = true := hs
    rw [show (s.dev.at t).domainIdle t n = _ from if_pos (by rw [hyes, Bool.or_true]), Dev.at_at, Nat.max_self]
  case sample =>
    intro s t r mv ma hr
    refine gives_run rfl ?_
    have h := Dev.powerSample_one (d := s.dev.at t) hr mv ma t
    rwa [show max (s.dev.at t).timeUs t = max s.dev.timeUs t from by change max (max _ _) _ = _; omega] at h
  case park =>
    intro s t h hm hp hr hl hs
    refine effects_run rfl ?_
    have hpark := Dev.parkCheck_parks (d := s.dev.at t) hm hp hr hl hs t
    rwa [Dev.at_at, Nat.max_self] at hpark
  case pace =>
    intro s t hm hp hl
    refine effects_run rfl ?_
    rw [Dev.parkCheck_paces (d := s.dev.at t) hm hp hl t]
    exact ⟨rfl, rfl⟩
  case unpark => exact fun s t h hm hp hk => effects_run rfl (Dev.parkCheck_unparks (d := s.dev.at t) hm hp hk t)
  case alert => exact fun s t n tj ha hc h1 h2 => effects_run rfl (Dev.thermalSample_alerts (d := s.dev.at t) ha hc h1 h2 t n)
  case clamp => exact fun s t n tj h => effects_run rfl (Dev.thermalSample_clamps (d := s.dev.at t) h t n)
  case release =>
    intro s t u hc hu ht
    refine effects_run rfl ?_
    rw [Dev.clampRelease_due (d := s.dev.at t) hc hu t, if_pos (by change _ ≤ max (max _ _) _; omega)]
    exact ⟨rfl, (Dev.bitOf_showThermal _).2⟩
  case soon =>
    intro s t u hc hu ht
    refine effects_run rfl ?_
    rw [Dev.clampRelease_due (d := s.dev.at t) hc hu t, if_neg (by change ¬ _ ≤ max (max _ _) _; omega), Dev.at_at, Nat.max_self]
  case trip =>
    intro s t hs ht
    refine gives_run rfl ?_
    rw [Dev.thermTrip_trips (d := s.dev.at t) hs ht t]
    refine ⟨rfl, rfl, rfl, fun h => Dev.hearth_coldState ((s.dev.at t).at t) h, rfl, ?_, rfl⟩
    have h := congrArg (List.map Prod.fst) s.dev.coldState_spaces
    rwa [List.map_map, List.map_map] at h

end Sys2Proof.Machine

/-!
PROOF. Packets of the exchange (11_exchange.md): what sending, timers and arrivals keep of a device, and the timers of an association (O20).
-/
namespace Sys2Proof.Machine

/-! ### What a packet keeps -/

/-- The fabric without its associations, their numbers and the halves. -/
def FabSt.flows (f : FabSt) : FabSt := { f with assocs := [], halves := [], usedIds := [] }

/-- What sending keeps of a device: the flows, the time, the queries and the mailboxes. -/
def Dev.traffic (d : Dev) : FabSt × Nat × List Query × MailSt := (d.fab.flows, d.timeUs, d.qry.queries, d.mail)

theorem Dev.traffic_delay (d : Dev) (l k tag : Nat) : (d.delay l k tag).traffic = d.traffic := by
  have hq : (d.delay l k tag).qry.queries = d.qry.queries := by
    have h := congrArg QrySt.queries (d.delay_core l k tag)
    exact h
  unfold Dev.traffic
  rw [Dev.delay_fab, Dev.delay_timeUs, Dev.delay_mail, hq]

theorem Dev.traffic_undelay (d : Dev) (l tag : Nat) : (d.undelay l tag).traffic = d.traffic := by
  have hq : (d.undelay l tag).qry.queries = d.qry.queries := by
    have h := congrArg QrySt.queries (d.undelay_core l tag)
    exact h
  unfold Dev.traffic
  rw [Dev.undelay_fab, Dev.undelay_timeUs, Dev.undelay_mail, hq]

theorem Dev.traffic_vxpTimer (d : Dev) (peer me kind us : Nat) : (d.vxpTimer peer me kind us).traffic = d.traffic := by
  unfold Dev.vxpTimer
  split_ifs
  · rfl
  · exact d.traffic_delay ..

theorem Dev.traffic_bump (d : Dev) (a n : Nat) : (d.bump a n).traffic = d.traffic := by
  obtain ⟨regs, tally, h⟩ := d.bump_only a n
  rw [h]
  rfl

theorem Dev.traffic_assocUpd (d : Dev) (peer me : Nat) (f : Assoc → Assoc) : (d.assocUpd peer me f).traffic = d.traffic := rfl

theorem Dev.traffic_emit (d : Dev) (a : Assoc) (path : Nat × Bytes) (kind psn : Nat) (body bytes : Bytes) :
    (d.emit a path kind psn body bytes).traffic = d.traffic := by
  unfold Dev.emit
  dsimp only
  split_ifs <;> rfl

theorem Dev.vxpTimer_fab (d : Dev) (peer me kind us : Nat) : (d.vxpTimer peer me kind us).fab = d.fab := by
  unfold Dev.vxpTimer
  split_ifs
  · rfl
  · exact Dev.delay_fab ..

theorem Dev.emit_assocs (d : Dev) (a : Assoc) (path : Nat × Bytes) (kind psn : Nat) (body bytes : Bytes) :
    (d.emit a path kind psn body bytes).fab.assocs = d.fab.assocs := by
  unfold Dev.emit
  dsimp only
  split_ifs <;> rfl

/-! ### Registers of the fabric, above the schedulers' -/

theorem Dev.reg_delay (d : Dev) (l k tag : Nat) {a : Nat} (h : 0x02500000 ≤ a) : (d.delay l k tag).reg a = d.reg a := by
  unfold Dev.delay
  dsimp only
  split_ifs
  · exact (Dev.trace_reg _ _ (.inr (by omega))).trans (d.reg_bump_ne _ _ _ (by omega))
  · rfl

theorem Dev.reg_undelay (d : Dev) (l tag : Nat) {a : Nat} (h : 0x02500000 ≤ a) : (d.undelay l tag).reg a = d.reg a :=
  Dev.reg_bump_ne _ _ _ _ (by omega)

theorem Dev.reg_vxpTimer (d : Dev) (peer me kind us : Nat) {a : Nat} (h : 0x02500000 ≤ a) : (d.vxpTimer peer me kind us).reg a = d.reg a := by
  unfold Dev.vxpTimer
  split_ifs
  · rfl
  · exact d.reg_delay _ _ _ h

theorem Dev.reg_emit (d : Dev) (x : Assoc) (path : Nat × Bytes) (kind psn : Nat) (body bytes : Bytes) (a : Nat) :
    (d.emit x path kind psn body bytes).reg a = d.reg a := by
  unfold Dev.emit
  dsimp only
  split_ifs <;> rfl

/-! ### One association -/

theorem Dev.assocOf_congr {d e : Dev} (h : e.fab.assocs = d.fab.assocs) (peer me : Nat) : e.assocOf peer me = d.assocOf peer me :=
  congrArg (List.find? (fun a : Assoc => a.peer == peer && a.me == me)) h

theorem Dev.assocOf_fab {d e : Dev} (h : e.fab = d.fab) (peer me : Nat) : e.assocOf peer me = d.assocOf peer me :=
  Dev.assocOf_congr (congrArg FabSt.assocs h) peer me

theorem Dev.assocOf_vxpTimer (d : Dev) (p m kind us peer me : Nat) : (d.vxpTimer p m kind us).assocOf peer me = d.assocOf peer me :=
  Dev.assocOf_fab (d.vxpTimer_fab ..) peer me

theorem Dev.assocOf_undelay (d : Dev) (l tag peer me : Nat) : (d.undelay l tag).assocOf peer me = d.assocOf peer me :=
  Dev.assocOf_fab (d.undelay_fab ..) peer me

theorem Dev.assocOf_bump (d : Dev) (a n peer me : Nat) : (d.bump a n).assocOf peer me = d.assocOf peer me := Dev.assocOf_fab (d.bump_fab ..) peer me

theorem Dev.assocOf_emit (d : Dev) (a : Assoc) (path : Nat × Bytes) (kind psn : Nat) (body bytes : Bytes) (peer me : Nat) :
    (d.emit a path kind psn body bytes).assocOf peer me = d.assocOf peer me := Dev.assocOf_congr (d.emit_assocs ..) peer me

/-- An association changed, its ends kept. -/
theorem Dev.assocOf_assocUpd (d : Dev) (peer me : Nat) {f : Assoc → Assoc} (hf : ∀ a, (f a).peer = a.peer ∧ (f a).me = a.me) :
    (d.assocUpd peer me f).assocOf peer me = (d.assocOf peer me).map f :=
  find?_updWhere _ f (fun a ha => by rw [(hf a).1, (hf a).2]; exact ha) _

theorem Dev.assocOf_assocUpd_ne (d : Dev) {peer me p m : Nat} (hne : p ≠ peer ∨ m ≠ me) {f : Assoc → Assoc}
    (hf : ∀ a, (f a).peer = a.peer ∧ (f a).me = a.me) : (d.assocUpd peer me f).assocOf p m = d.assocOf p m := by
  change (updWhere _ f d.fab.assocs).find? _ = d.fab.assocs.find? _
  induction d.fab.assocs with
  | nil => rfl
  | cons a l ih =>
    change ((if a.peer == peer && a.me == me then f a else a) :: updWhere _ f l).find? _ = _
    cases hk : (a.peer == peer && a.me == me) with
    | false => cases hq : (a.peer == p && a.me == m) <;> simp [hq, ih]
    | true =>
      have hno : (a.peer == p && a.me == m) = false := by
        simp only [Bool.and_eq_true, beq_iff_eq] at hk
        obtain ⟨rfl, rfl⟩ := hk
        rcases hne with h | h <;> simp [Ne.symm h]
      have hno' : ((f a).peer == p && (f a).me == m) = false := by rw [(hf a).1, (hf a).2, hno]
      simp [hno, hno', ih]

theorem Dev.assocOf_ends {d : Dev} {peer me : Nat} {a : Assoc} (h : d.assocOf peer me = some a) : a.peer = peer ∧ a.me = me := by
  have hp := List.find?_some h
  simpa using hp

/-! ### A packet sent (R335, R347) -/

/-- An association that has sent a packet of a kind. -/
def Assoc.sends (a : Assoc) (kind flags : Nat) (body payload : Bytes) (now : Nat) (path : Nat × Bytes) : Assoc :=
  { a with
    txPsn := if reliableKind kind then a.txPsn + 1 else a.txPsn
    unacked := if reliableKind kind then a.unacked ++ [⟨a.txPsn, kind, flags, body, payload, now, 0, path⟩] else a.unacked
    lastTx := now }

theorem Dev.traffic_vxpSend (d : Dev) (peer me kind flags : Nat) (body payload : Bytes) (hash : Nat) :
    (d.vxpSend peer me kind flags body payload hash).traffic = d.traffic := by
  unfold Dev.vxpSend
  split
  · rfl
  · extract_lets ps path d0 d1
    have h1 : d1.traffic = d.traffic := by
      unfold d1 d0
      rw [Dev.traffic_assocUpd]
      split_ifs
      · exact d.traffic_vxpTimer ..
      · rfl
    split_ifs
    · exact h1
    · exact (d1.traffic_emit ..).trans h1

theorem Dev.reg_vxpSend (d : Dev) (peer me kind flags : Nat) (body payload : Bytes) (hash : Nat) {r : Nat} (h : 0x02500000 ≤ r) :
    (d.vxpSend peer me kind flags body payload hash).reg r = d.reg r := by
  unfold Dev.vxpSend
  split
  · rfl
  · extract_lets ps path d0 d1
    have h1 : d1.reg r = d.reg r := by
      change d0.reg r = d.reg r
      unfold d0
      split_ifs
      · exact d.reg_vxpTimer _ _ _ _ h
      · rfl
    split_ifs
    · exact h1
    · exact (d1.reg_emit ..).trans h1

/-- What a packet changes of its association. -/
theorem Dev.assocOf_vxpSend {d : Dev} {peer me : Nat} {a : Assoc} (h : d.assocOf peer me = some a) (kind flags : Nat) (body payload : Bytes) (hash : Nat) :
    ∃ path, (d.vxpSend peer me kind flags body payload hash).assocOf peer me = some (a.sends kind flags body payload d.timeUs path) := by
  unfold Dev.vxpSend
  split
  next hn => rw [h] at hn; cases hn
  next b hb =>
    obtain rfl : a = b := Option.some.inj (h.symm.trans hb)
    extract_lets ps path d0 d1
    refine ⟨path, ?_⟩
    have h0 : d0.assocOf peer me = some a := by
      unfold d0
      split_ifs
      · rw [Dev.assocOf_vxpTimer, h]
      · exact h
    have h1 : d1.assocOf peer me = some (a.sends kind flags body payload d.timeUs path) := by
      refine (Dev.assocOf_assocUpd d0 peer me (f := fun a => a.sends kind flags body payload d.timeUs path) (fun _ => ⟨rfl, rfl⟩)).trans ?_
      rw [h0]
      rfl
    split_ifs
    · exact h1
    · rw [Dev.assocOf_emit, h1]

/-- A packet of one association changes no other. -/
theorem Dev.assocOf_vxpSend_ne (d : Dev) {peer me p m : Nat} (hne : p ≠ peer ∨ m ≠ me) (kind flags : Nat) (body payload : Bytes) (hash : Nat) :
    (d.vxpSend peer me kind flags body payload hash).assocOf p m = d.assocOf p m := by
  unfold Dev.vxpSend
  split
  · rfl
  · extract_lets ps path d0 d1
    have h0 : d0.assocOf p m = d.assocOf p m := by
      unfold d0
      split_ifs
      · exact d.assocOf_vxpTimer ..
      · rfl
    have h1 : d1.assocOf p m = d.assocOf p m := 
      (Dev.assocOf_assocUpd_ne d0 hne (f := fun a => a.sends kind flags body payload d.timeUs path) (fun _ => ⟨rfl, rfl⟩)).trans h0
    split_ifs
    · exact h1
    · exact (d1.assocOf_emit ..).trans h1

/-! ### Pauses (R347) -/

theorem Dev.unpause_unpaused {d : Dev} (h : d.unpaused) : d.unpause = d := by
  unfold Dev.unpause
  refine List.foldlRecOn (motive := fun e : Dev => e = d) _ _ rfl (fun e he n hn => ?_)
  rw [he]
  refine if_neg ?_
  rw [h n (List.mem_range.1 hn)]
  exact Bool.false_ne_true

/-! ### Timers of an association (R347) -/

/-- A packet that goes again. -/
def Assoc.resends (a : Assoc) (psn now : Nat) (path : Nat × Bytes) : Assoc :=
  { a with unacked := updWhere (fun t => t.psn == psn) (fun t => { t with later := 0, sent := now, path := path }) a.unacked, lastTx := now }

theorem Dev.assocOf_vxpResend {d : Dev} {peer me psn : Nat} {a : Assoc} {p : VTx} (h : d.assocOf peer me = some a)
    (hp : a.unacked.find? (fun t => t.psn == psn) = some p) :
    ∃ path, (d.vxpResend peer me psn).assocOf peer me = some (a.resends psn d.timeUs path) := by
  unfold Dev.vxpResend
  split
  next hn => rw [h] at hn; cases hn
  next b hb =>
    obtain rfl : a = b := Option.some.inj (h.symm.trans hb)
    split
    next hn => rw [hp] at hn; cases hn
    next q hq =>
      extract_lets ps path d1
      refine ⟨path, ?_⟩
      have h1 : d1.assocOf peer me = some (a.resends psn d.timeUs path) := by
        refine (Dev.assocOf_bump ..).trans ?_
        refine (Dev.assocOf_assocUpd d peer me (f := fun a => { a with
          unacked := updWhere (fun t => t.psn == psn) (fun t => { t with later := 0, sent := d.timeUs, path := path }) _, lastTx := d.timeUs })
          (fun _ => ⟨rfl, rfl⟩)).trans ?_
        rw [h]
        rfl
      split_ifs
      · exact h1
      · rw [Dev.assocOf_emit, h1]

/-- The one packet that waits for an acknowledgement is overdue: it goes again, and the RTO and the rate change. -/
theorem Dev.rtoExpiry_resends {d : Dev} {peer me : Nat} {a : Assoc} {p : VTx} (hd : d.unpaused) (ha : d.assocOf peer me = some a) (hu : a.unacked = [p])
    (hs : p.sent + a.rto ≤ d.timeUs) :
    ((d.rtoExpiry peer me).assocOf peer me).map (fun b => (b.rto, b.rate, b.timedOut, b.unacked.map (fun k => (k.psn, k.sent)))) =
      some (min 10000 (2 * a.rto), max d.rMin (a.rate / 2), true, [(p.psn, d.timeUs)]) := by
  have ha1 : (d.undelay 3 (vxpTag peer me 0)).assocOf peer me = some a := (d.assocOf_undelay ..).trans ha
  have hmin : (d.undelay 3 (vxpTag peer me 0)).rMin = d.rMin := by
    unfold Dev.rMin Dev.regField Dev.regN
    rw [d.reg_undelay _ _ (by decide)]
  have htime : (d.undelay 3 (vxpTag peer me 0)).timeUs = d.timeUs := d.undelay_timeUs ..
  unfold Dev.rtoExpiry
  rw [Dev.unpause_unpaused hd]
  generalize d.undelay 3 (vxpTag peer me 0) = e at ha1 hmin htime
  dsimp only
  rw [ha1]
  dsimp only
  have hlate : a.unacked.filter (fun t => decide (t.sent + a.rto ≤ e.timeUs)) = [p] := by
    rw [hu, htime]
    exact List.filter_cons_of_pos (decide_eq_true hs)
  rw [hlate, if_neg (by simp)]
  generalize hmute : (!a.opened && !a.refused && decide (a.lastTx + a.rto ≤ e.timeUs)) = mute
  have h0 : ∃ b : Assoc, (if mute then e.sayHello peer me else e).assocOf peer me = some b ∧ b.unacked = [p] ∧ b.rto = a.rto ∧ b.rate = a.rate ∧
      (if mute then e.sayHello peer me else e).timeUs = d.timeUs := by
    split_ifs
    · obtain ⟨path, h⟩ := Dev.assocOf_vxpSend ha1 4 0 [] ([BitVec.ofNat 8 e.xp.1, 0, BitVec.ofNat 8 e.xp.2, 0] ++ natLE 4 e.maxSeg) 0
      have ht := congrArg (fun v : FabSt × Nat × List Query × MailSt => v.2.1) (e.traffic_vxpSend peer me 4 0 [] ([BitVec.ofNat 8 e.xp.1, 0, BitVec.ofNat 8 e.xp.2, 0] ++ natLE 4 e.maxSeg) 0)
      exact ⟨_, h, hu, rfl, rfl, ht.trans htime⟩
    · exact ⟨a, ha1, hu, rfl, rfl, htime⟩
  generalize (if mute then e.sayHello peer me else e) = e0 at h0
  obtain ⟨b, hb, hbu, hrto, hrate, ht0⟩ := h0
  obtain ⟨path, hr⟩ := Dev.assocOf_vxpResend (psn := p.psn) hb (by rw [hbu]; exact List.find?_cons_of_pos (by simp))
  rw [Dev.assocOf_vxpTimer, Dev.assocOf_undelay]
  change (((e0.vxpResend peer me p.psn).assocUpd peer me _).assocOf peer me).map _ = _
  rw [Dev.assocOf_assocUpd _ _ _ (f := fun a => { a with rto := min 10000 (2 * a.rto), rate := max e.rMin (a.rate / 2), timedOut := true })
    (fun _ => ⟨rfl, rfl⟩), hr]
  simp only [Option.map_some, Assoc.resends, hbu, hrto, hrate, hmin, ht0, updWhere, List.map_cons, List.map_nil, beq_self_eq_true, if_true]

/-- Rates and segments read the ports' controls and the halves alone. -/
theorem Dev.bestRate_congr {d e : Dev} (hf : e.fab.halves = d.fab.halves) (hr : ∀ a, 0x02510000 ≤ a → e.reg a = d.reg a) : e.bestRate = d.bestRate := by
  have hup : e.upHalves = d.upHalves := by unfold Dev.upHalves; rw [hf]
  have hline : e.lineRate = d.lineRate := funext fun h => by
    unfold Dev.lineRate Dev.regField Dev.regN
    rw [hr _ (by omega)]
  unfold Dev.bestRate
  rw [hup, hline]

theorem Dev.maxSeg_congr {d e : Dev} (hf : e.fab.halves = d.fab.halves) (hr : ∀ a, 0x02510000 ≤ a → e.reg a = d.reg a) : e.maxSeg = d.maxSeg := by
  have hup : e.upHalves = d.upHalves := by unfold Dev.upHalves; rw [hf]
  have hmtu : ∀ p, e.mtu p = d.mtu p := fun p => by
    unfold Dev.mtu Dev.regField Dev.regN
    rw [hr _ (by omega)]
  unfold Dev.maxSeg
  simp only [hup, hmtu]

theorem Dev.ratePeriod_estimates {d : Dev} {peer me : Nat} {a : Assoc} (hd : d.unpaused) (ha : d.assocOf peer me = some a) :
    (d.ratePeriod peer me).assocOf peer me =
      let al := (15 * a.alpha + (if a.acked = 0 then 0 else a.ceAcked * 2 ^ 32 / a.acked)) / 16
      some { a with
        alpha := al, acked := 0, ceAcked := 0, timedOut := false
        rate := if a.ceAcked ≠ 0 then max d.rMin (a.rate - a.rate * al / 2 ^ 33)
          else if a.timedOut then a.rate else min d.bestRate (a.rate + d.rAi) } := by
  have ha1 : (d.undelay 3 (vxpTag peer me 1)).assocOf peer me = some a := (d.assocOf_undelay ..).trans ha
  have hreg : ∀ r, 0x02500000 ≤ r → ((d.undelay 3 (vxpTag peer me 1)).vxpTimer peer me 1 50).reg r = d.reg r := fun r hr =>
    (Dev.reg_vxpTimer _ _ _ _ _ hr).trans (d.reg_undelay _ _ hr)
  have hhalf : ((d.undelay 3 (vxpTag peer me 1)).vxpTimer peer me 1 50).fab.halves = d.fab.halves := by rw [Dev.vxpTimer_fab, Dev.undelay_fab]
  have ha2 : ((d.undelay 3 (vxpTag peer me 1)).vxpTimer peer me 1 50).assocOf peer me = some a := (Dev.assocOf_vxpTimer ..).trans ha1
  unfold Dev.ratePeriod
  rw [Dev.unpause_unpaused hd]
  dsimp only
  rw [ha1, if_pos (show (some a).isSome = true from rfl)]
  generalize (d.undelay 3 (vxpTag peer me 1)).vxpTimer peer me 1 50 = e at hreg hhalf ha2
  have hmin : e.rMin = d.rMin := by unfold Dev.rMin Dev.regField Dev.regN; rw [hreg _ (by decide)]
  have hai : e.rAi = d.rAi := by unfold Dev.rAi Dev.regField Dev.regN; rw [hreg _ (by decide)]
  have hbest : e.bestRate = d.bestRate := Dev.bestRate_congr hhalf (fun r hr => hreg r (by omega))
  rw [← hmin, ← hai, ← hbest]
  exact (Dev.assocOf_assocUpd e peer me (by exact fun _ => ⟨rfl, rfl⟩)).trans (congrArg _ ha2)

/-- An acknowledgement sent: nothing waits to be acknowledged. -/
theorem Dev.assocOf_vxpAck {d : Dev} {peer me : Nat} {a : Assoc} (ha : d.assocOf peer me = some a) :
    (d.vxpAck peer me).assocOf peer me = some { a with sinceAck := 0, ceSince := 0, lastTx := d.timeUs } := by
  unfold Dev.vxpAck
  split
  next hn => rw [ha] at hn; cases hn
  next b hb =>
    extract_lets sack
    obtain ⟨path, h⟩ := Dev.assocOf_vxpSend ha 2 0 (natLE 4 b.rxCum ++ natLE 8 sack ++ natLE 4 b.ceSince) [] 0
    rw [Dev.assocOf_undelay, Dev.assocOf_assocUpd _ _ _ (f := fun a => { a with sinceAck := 0, ceSince := 0 }) (fun _ => ⟨rfl, rfl⟩), h]
    rfl

theorem Dev.ackTimer_acks {d : Dev} {peer me : Nat} {a : Assoc} (hd : d.unpaused) (ha : d.assocOf peer me = some a) (hs : a.sinceAck ≠ 0) :
    (d.ackTimer peer me).assocOf peer me = some { a with sinceAck := 0, ceSince := 0, lastTx := d.timeUs } := by
  have ha1 : (d.undelay 3 (vxpTag peer me 2)).assocOf peer me = some a := (d.assocOf_undelay ..).trans ha
  have h := Dev.assocOf_vxpAck ha1
  rw [d.undelay_timeUs] at h
  unfold Dev.ackTimer
  rw [Dev.unpause_unpaused hd]
  dsimp only
  rw [ha1]
  dsimp only
  rw [if_neg hs, h]

theorem Dev.keepaliveTimer_sends {d : Dev} {peer me : Nat} {a : Assoc} (hd : d.unpaused) (ha : d.assocOf peer me = some a) (ho : a.opened = true)
    (hl : a.lastTx + 125 * d.regField 0x0250000C 15 0 ≤ d.timeUs) :
    ((d.keepaliveTimer peer me).assocOf peer me).map (fun b => (b.lastTx, b.txPsn, b.unacked.map (fun k => (k.psn, k.kind)))) =
      some (d.timeUs, a.txPsn + 1, a.unacked.map (fun k => (k.psn, k.kind)) ++ [(a.txPsn, 9)]) := by
  have ha1 : (d.undelay 3 (vxpTag peer me 3)).assocOf peer me = some a := (d.assocOf_undelay ..).trans ha
  have htime : (d.undelay 3 (vxpTag peer me 3)).timeUs = d.timeUs := d.undelay_timeUs ..
  have hper : (d.undelay 3 (vxpTag peer me 3)).regField 0x0250000C 15 0 = d.regField 0x0250000C 15 0 := by
    unfold Dev.regField Dev.regN
    rw [d.reg_undelay _ _ (by decide)]
  unfold Dev.keepaliveTimer
  rw [Dev.unpause_unpaused hd]
  generalize d.undelay 3 (vxpTag peer me 3) = e at ha1 htime hper
  dsimp only
  rw [ha1]
  dsimp only
  rw [hper, ho, htime, decide_eq_true hl, if_pos (show (true && true) = true from rfl)]
  generalize hf : e.vxpTimer peer me 3 (125 * d.regField 0x0250000C 15 0) = f
  have ha2 : f.assocOf peer me = some a := by rw [← hf, Dev.assocOf_vxpTimer, ha1]
  have ht2 : f.timeUs = d.timeUs := by
    have ht := congrArg (fun v : FabSt × Nat × List Query × MailSt => v.2.1) (e.traffic_vxpTimer peer me 3 (125 * d.regField 0x0250000C 15 0))
    rw [hf] at ht
    exact ht.trans htime
  obtain ⟨path, h⟩ := Dev.assocOf_vxpSend ha2 9 0 [] [] 0
  rw [h]
  simp [Assoc.sends, reliableKind, ht2]

/-- Settles O20: what is overdue goes again by `assocOf_vxpResend`, the estimate by the association's own numbers and the ports' rates, an ACK and a KEEPALIVE
by `assocOf_vxpSend`. -/
theorem associationTimers : Obligations.AssociationTimers :=
  ⟨fun s t _ _ _ _ hd ha hu hs => effects_run rfl (Dev.rtoExpiry_resends (d := s.dev.at t) hd ha hu hs),
    fun s t _ _ _ hd ha => gives_run rfl (Dev.ratePeriod_estimates (d := s.dev.at t) hd ha),
    fun s t _ _ _ hd ha hs => gives_run rfl (Dev.ackTimer_acks (d := s.dev.at t) hd ha hs),
    fun s t _ _ _ hd ha ho hl => gives_run rfl (Dev.keepaliveTimer_sends (d := s.dev.at t) hd ha ho hl)⟩

end Sys2Proof.Machine

/-!
PROOF. Fabric ports (11_exchange.md): a half that goes down and comes up, FAB_CTRL, other traffic and pauses (O21).
-/
namespace Sys2Proof.Machine

/-! ### The halves of a port (R333) -/

theorem Dev.half_halfUpd (d : Dev) (h : Nat) (f : FabHalf → FabHalf) : (d.halfUpd h f).half h = f (d.half h) := by simp [Dev.half, Dev.halfUpd]

theorem Dev.half_halfUpd_ne (d : Dev) {h k : Nat} (f : FabHalf → FabHalf) (hk : k ≠ h) : (d.halfUpd h f).half k = d.half k := by
  simp [Dev.half, Dev.halfUpd, hk]

/-- With no association, a half goes down alone. -/
theorem Dev.portDown_quiet {d : Dev} (ha : d.fab.assocs = []) (h : Nat) :
    d.portDown h = (d.halfUpd h (fun k => { k with up := false, fec := false, held := [] })).showPort (h / 2) := by
  have h1 : ((d.halfUpd h (fun k => { k with up := false, fec := false, held := [] })).showPort (h / 2)).fab.assocs = [] := ha
  unfold Dev.portDown
  dsimp only
  rw [h1]
  rfl

theorem Dev.fabricDown_first {d : Dev} {h : Nat} (hh : h < 16) (hu : (d.half h).up = true) (hr : d.recovers 5 h = false) (ha : d.fab.assocs = []) (t : Nat) :
    let e := d.fabricDown t h
    e.half h = { d.half h with up := false, fec := false, held := [] } ∧ e.recovers 5 h := by
  have heq : d.fabricDown t h = ((d.at t).portDown h).recover 5 h :=
    (if_neg (Nat.not_le.2 hh)).trans ((if_neg (by rw [show (d.at t).recovers 5 h = false from hr]; exact Bool.false_ne_true)).trans (if_pos hu))
  rw [heq]
  refine ⟨?_, Dev.recover_recovers ..⟩
  rw [Dev.portDown_quiet (d := d.at t) ha]
  unfold Dev.recover
  split_ifs <;> exact Dev.half_halfUpd ..

theorem Dev.fabricUp_trains {d : Dev} {h : Nat} (hh : h < 16) (hs : d.regField (fabReg (h / 2)) 1 0 = 1) (hf : h ∉ d.health.fabDisabled) (hc : 3 ∉ d.pwr.clocks)
    (hn : d.fab.sflows = []) (t : Nat) :
    let e := d.fabricUp t h
    e.half h = { d.half h with up := true, fec := true } ∧ e.recovers 5 h = false := by
  have hgo : ¬ ((d.at t).health.fabDisabled.contains h || (d.at t).pwr.clocks.contains 3) = true := by
    simpa [Dev.at] using ⟨hf, hc⟩
  have hs0 : (d.at t).regField (fabReg (h / 2)) 1 0 = 1 := hs
  have hlink : ¬ (16 ≤ h ∨ 2 ≤ (d.at t).regField (fabReg (h / 2)) 1 0 ∨ ((d.at t).regField (fabReg (h / 2)) 1 0 = 0 ∧ h % 2 = 1)) := by
    rw [hs0]
    omega
  have hup : (d.at t).portUp h = ((d.at t).halfUpd h (fun k => { k with up := true, fec := true })).showPort (h / 2) := by
    refine (if_neg hlink).trans ?_
    have h1 : (((d.at t).halfUpd h (fun k => { k with up := true, fec := true })).showPort (h / 2)).fab.sflows = [] := hn
    unfold Dev.pumpFlows
    rw [h1]
    rfl
  rw [show d.fabricUp t h = _ from if_neg hgo, hup]
  refine ⟨Dev.half_halfUpd .., ?_⟩
  simp [Dev.recovered, Dev.recovers]

/-! ### FAB_CTRL (R334) -/

theorem fabCtrl_row {p : Nat} (hp : p < 8) : CwWord (fabReg p) ⟨0x02510000, 0x100, 8, 1, .cw, 0, false⟩ where
  row := by
    have hall : ∀ p < 8, regRow (fabReg p) = some ⟨0x02510000, 0x100, 8, 1, .cw, 0, false⟩ := by decide +kernel
    exact hall p hp
  acc := rfl
  words := rfl
  start := by simp [RegRow.start, fabReg]; omega
  align := by unfold fabReg; omega
  open_ := by unfold fabReg; omega

theorem Dev.regRead_fabCtrl (d : Dev) {p : Nat} (hp : p < 8) : d.regRead (fabReg p) = d.regN (fabReg p) := by
  have hlow : d.shownLow (fabReg p) = none := by
    unfold Dev.shownLow fabReg
    rw [if_neg (by omega), if_neg (by omega), if_neg (by omega), if_pos (by omega), if_neg (by omega)]
  unfold Dev.regRead
  rw [(fabCtrl_row hp).row, if_neg (by simp), if_pos (by unfold fabReg; omega), hlow]

/-- A control whose split or medium changed, with no association: both halves of the port go down. -/
theorem Dev.fabricCtrl_retrains {d : Dev} {p old : Nat} (ha : d.fab.assocs = []) (hne : d.regN (fabReg p) % 8 ≠ old % 8) :
    let e := d.fabricCtrl p old
    e.regN (fabReg p) = d.regN (fabReg p) ∧ (e.half (2 * p)).up = false ∧ (e.half (2 * p + 1)).up = false ∧ e.cwCount = d.cwCount := by
  obtain ⟨d1, ⟨hregs, hfab, hcw⟩, heq⟩ : ∃ d1 : Dev, (d1.regs = d.regs ∧ d1.fab = d.fab ∧ d1.cwCount = d.cwCount) ∧
      d.fabCtrl p old = (d1.portDown (2 * p)).portDown (2 * p + 1) := by
    refine ⟨_, ?_, if_neg (by intro h; exact hne h.1.symm)⟩
    exact ⟨rfl, rfl, rfl⟩
  have hno : d1.fab.assocs = [] := by rw [hfab, ha]
  have hdown : ∀ (e : Dev) h, e.fab.assocs = [] → (e.portDown h).fab.assocs = [] ∧ (e.portDown h).cwCount = e.cwCount ∧ ((e.portDown h).half h).up = false ∧
      (∀ k, k ≠ h → (e.portDown h).half k = e.half k) ∧ (h / 2 = p → (e.portDown h).reg (fabReg p) = e.reg (fabReg p)) := fun e h he => by
    rw [Dev.portDown_quiet he]
    refine ⟨he, rfl, congrArg FabHalf.up (e.half_halfUpd h _), fun k hk => e.half_halfUpd_ne _ hk, fun hp => ?_⟩
    refine (Dev.reg_setReg_at ..).trans (if_neg ?_)
    rw [hp]
    omega
  obtain ⟨a1, c1, u1, -, r1⟩ := hdown d1 (2 * p) hno
  obtain ⟨-, c2, u2, o2, r2⟩ := hdown (d1.portDown (2 * p)) (2 * p + 1) a1
  have hreg : ((d1.portDown (2 * p)).portDown (2 * p + 1)).reg (fabReg p) = d.reg (fabReg p) := by
    rw [r2 (by omega), r1 (by omega), Dev.reg, hregs]
    rfl
  have hup : (((d1.portDown (2 * p)).portDown (2 * p + 1)).half (2 * p)).up = false := by rw [o2 _ (by omega), u1]
  have hcws : ((d1.portDown (2 * p)).portDown (2 * p + 1)).cwCount = d.cwCount := by rw [c2, c1, hcw]
  unfold Dev.fabricCtrl
  rw [heq]
  exact ⟨congrArg BitVec.toNat hreg, hup, u2, hcws⟩

theorem Dev.fabCtrl_write {d : Dev} {p v : Nat} (hp : p < 8) (hs : d.start.service = true) (hh : d.hostStopped = false) (ha : d.fab.assocs = [])
    (h2 : v % 4 ≤ 2) (h9 : bitsOf v 9 8 ≤ 2) (hv : v < 1024) (hr : d.regN (fabReg p) < 1024) (hne : v % 8 ≠ d.regN (fabReg p) % 8) (t x : Nat) :
    let e := (d.at t).cwWrite t x (fabReg p) 4 v (d.regN (fabReg p)) (d.writeCount (fabReg p))
    e.regN (fabReg p) = v ∧ (e.half (2 * p)).up = false ∧ (e.half (2 * p + 1)).up = false ∧
      e.writeCount (fabReg p) = (d.writeCount (fabReg p) + 1) % 65536 := by
  have hput : cwPut 0x02510000 (2 ^ 64 - 1) (d.regN (fabReg p)) v = v := cwPut_low (k := 10) (by decide) hr hv (by decide)
  have hok : cwOk 0x02510000 v = true := by
    have h1 : bitsOf v 1 0 ≤ 2 := by simpa [bitsOf] using h2
    change ((decide (0 ≤ bitsOf v 1 0) && decide (bitsOf v 1 0 ≤ 2)) && (decide (0 ≤ bitsOf v 9 8) && decide (bitsOf v 9 8 ≤ 2))) = true
    rw [decide_eq_true h1, decide_eq_true h9, decide_eq_true (Nat.zero_le _), decide_eq_true (Nat.zero_le _)]
    rfl
  have hport : (fabReg p - 0x02510000) / 0x100 = p := by unfold fabReg; omega
  have heq : (d.at t).cwWrite t x (fabReg p) 4 v (d.regN (fabReg p)) (d.writeCount (fabReg p)) =
      (((d.at t).at t).cwDone x (fabReg p) v).fabricCtrl p (d.regN (fabReg p)) := by
    refine (Dev.cwWrite_done (d := (d.at t).at t) (fabCtrl_row hp) hs hh (Dev.regRead_fabCtrl _ hp) rfl hput x hok rfl rfl).trans ?_
    change Dev.fabricCtrl _ ((fabReg p - 0x02510000) / 0x100) _ = _
    rw [hport]
    rfl
  have hnew : (((d.at t).at t).cwDone x (fabReg p) v).regN (fabReg p) = v := Dev.regN_cwDone _ _ _ (by omega)
  obtain ⟨g1, g2, g3, g4⟩ := Dev.fabricCtrl_retrains (d := ((d.at t).at t).cwDone x (fabReg p) v) (p := p) (old := d.regN (fabReg p)) ha (by rw [hnew]; exact hne)
  rw [heq]
  refine ⟨g1.trans hnew, g2, g3, ?_⟩
  unfold Dev.writeCount
  rw [g4]
  change tabGet 0 (tabSet 0 d.cwCount (fabReg p) _) (fabReg p) = _
  rw [tabGet_set, if_pos rfl]
  rfl

/-! ### Pauses (R347) -/

theorem Dev.pfcPause_holds {d : Dev} {h mask : Nat} (hd : d.unpaused) (hb : bitOf (d.regN (fabReg (h / 2))) 4 = true)
    (hm : bitOf mask (bitsOf (d.regN (fabReg (h / 2))) 7 5) = true) (quanta : Nat) :
    let e := d.pfcPause h mask quanta
    e.half h = { d.half h with pausedUntil := d.timeUs + ceilDiv (512 * quanta) (d.lineRate h) } ∧
      e.regN (fabReg (h / 2) + 0x10) = satAdd 32 (d.regN (fabReg (h / 2) + 0x10)) 1 := by
  have heq : d.pfcPause h mask quanta =
      ((d.bump (fabReg (h / 2) + 0x10) 1).halfUpd h (fun k => { k with pausedUntil := d.timeUs + ceilDiv (512 * quanta) (d.lineRate h) })).unpause :=
    (if_neg (by rw [hb]; exact Bool.false_ne_true)).trans (if_pos hm)
  have hhalf : ∀ k, (d.bump (fabReg (h / 2) + 0x10) 1).half k = d.half k := fun k => by
    unfold Dev.half
    rw [Dev.bump_fab]
  have hun : ((d.bump (fabReg (h / 2) + 0x10) 1).halfUpd h (fun k => { k with
      pausedUntil := d.timeUs + ceilDiv (512 * quanta) (d.lineRate h) })).unpaused := fun k hk => by
    by_cases hkh : k = h
    · rw [hkh, Dev.half_halfUpd, hhalf, ← hkh]
      exact hd k hk
    · rw [Dev.half_halfUpd_ne _ _ hkh, hhalf]
      exact hd k hk
  rw [heq, Dev.unpause_unpaused hun]
  exact ⟨by rw [Dev.half_halfUpd, hhalf], d.regN_bump_self _ _⟩

/-- Settles O21: a half alone, as no association sends by it; the control as a compare-and-write whose effect is `fabricCtrl`; and a pause where no packet is
held. -/
theorem fabricPorts : Obligations.FabricPorts := by
  refine ⟨fun s t h hh hu hr ha => effects_run rfl (Dev.fabricDown_first (d := s.dev.at t) hh hu hr ha t),
    fun s t h hh hs hf hc hn => effects_run rfl (Dev.fabricUp_trains (d := s.dev.at t) hh hs hf hc hn t),
    fun s t x p v hp hs hh ha h2 h9 hv hr hne => gives_run rfl (Dev.fabCtrl_write hp hs hh ha h2 h9 hv hr hne t x), ?frame, ?other,
    fun s t h mask quanta hd _ hb hm => gives_run rfl (Dev.pfcPause_holds (d := s.dev.at t) hd hb hm quanta)⟩
  case frame =>
    intro s t h kind b hu hk
    refine gives_run rfl (if_pos ?_)
    rw [show ((s.dev.at t).half h).up = true from hu, decide_eq_true hk]
    rfl
  case other =>
    intro s t h kind b hk
    refine gives_run rfl ?_
    have hno : ¬ (((s.dev.at t).half h).up && (decide (kind ≤ 1) || (decide (kind ≤ 3) && bitOf ((s.dev.at t).regN (fabReg (h / 2))) 3))) = true := by
      rw [decide_eq_false (by omega), decide_eq_false (by omega), Bool.false_and, Bool.or_false, Bool.and_false]
      exact Bool.false_ne_true
    rw [show (s.dev.at t).otherFrame h kind b = _ from if_neg hno]
    exact ⟨rfl, rfl⟩

end Sys2Proof.Machine

/-!
PROOF. What arrives on an association (11_exchange.md): DATA, acknowledgements, RESEND and KEEPALIVE (O16, O17).
-/
namespace Sys2Proof.Machine

/-! ### What arrives (R335, R336, R339) -/

/-- The CE mark of a packet counted. -/
def Dev.marked (d : Dev) (k : VPkt) : Dev := if k.ce then d.bump 0x0250002C 1 else d

/-- An association that has heard its peer. -/
def Assoc.hears (a : Assoc) (now : Nat) (ce : Bool) : Assoc := { a with lastRx := now, ceSince := a.ceSince + b2n ce }

/-- A packet that nothing drops, its association told. -/
def Dev.heard (d : Dev) (k : VPkt) (v : VIn) : Dev :=
  (d.marked k).assocUpd v.src v.dst (fun a => a.hears (d.marked k).timeUs k.ce)

theorem Dev.traffic_marked (d : Dev) (k : VPkt) : (d.marked k).traffic = d.traffic := by
  unfold Dev.marked
  split_ifs
  · exact d.traffic_bump ..
  · rfl

theorem Dev.marked_fab (d : Dev) (k : VPkt) : (d.marked k).fab = d.fab := by
  unfold Dev.marked
  split_ifs
  · exact d.bump_fab ..
  · rfl

theorem Dev.reg_marked (d : Dev) (k : VPkt) {a : Nat} (h : a ≠ 0x0250002C) : (d.marked k).reg a = d.reg a := by
  unfold Dev.marked
  split_ifs
  · exact d.reg_bump_ne _ _ _ h
  · rfl

theorem Dev.timeUs_marked (d : Dev) (k : VPkt) : (d.marked k).timeUs = d.timeUs :=
  congrArg (fun v : FabSt × Nat × List Query × MailSt => v.2.1) (d.traffic_marked k)

theorem Dev.traffic_heard (d : Dev) (k : VPkt) (v : VIn) : (d.heard k v).traffic = d.traffic := d.traffic_marked k

section
variable {d : Dev} {k : VPkt} {kind : Nat} {a : Assoc} {v : VIn} (h : d.lets k kind a v)
include h

/-- A packet of an association goes to what its kind does. -/
theorem Dev.arrive_lets (h4 : kind ≠ 4) (h5 : kind ≠ 5) (f : Dev → Assoc → VIn → Dev) : d.arrive k kind f = f (d.heard k v) a v := by
  obtain ⟨hd, hup, had, hv, hk, hl, hm, ha, ht, hseg, -⟩ := h
  have ha1 : (d.marked k).assocOf v.src v.dst = some a := (Dev.assocOf_fab (d.marked_fab k) ..).trans ha
  have hs : ¬ (decide (kind = 1) && !segOk a v) = true := by
    by_cases h1 : kind = 1
    · simp [hseg h1]
    · simp [h1]
  unfold Dev.arrive
  simp only [Dev.unpause_unpaused hd, hup, had, hv, hk, hl, hm, Bool.not_true, Bool.false_eq_true, if_false, ne_eq, not_true_eq_false, h4, h5]
  change (match (d.marked k).assocOf v.src v.dst with | none => _ | some a => _) = _
  rw [ha1]
  dsimp only
  rw [if_neg (not_not.2 ht), if_neg hs]
  rfl

theorem Dev.lets_ends : a.peer = v.src ∧ a.me = v.dst := by
  obtain ⟨-, -, -, -, -, -, -, ha, -⟩ := h
  exact Dev.assocOf_ends ha

theorem Dev.assocOf_heard : (d.heard k v).assocOf v.src v.dst = some (a.hears d.timeUs k.ce) := by
  obtain ⟨-, -, -, -, -, -, -, ha, -⟩ := h
  refine (Dev.assocOf_assocUpd (d.marked k) v.src v.dst (f := fun a => a.hears (d.marked k).timeUs k.ce) (fun _ => ⟨rfl, rfl⟩)).trans ?_
  rw [Dev.assocOf_fab (d.marked_fab k), ha, d.timeUs_marked]
  rfl

end

/-- A packet of a kind that no node lists, or that the admission table does not hold, is counted and dropped. -/
theorem Dev.arrive_dropped {d : Dev} {k : VPkt} (hd : d.unpaused) (hup : (d.half k.half).up = true) (ha : d.admitted k.addr = false) (kind : Nat)
    (f : Dev → Assoc → VIn → Dev) : d.arrive k kind f = d.bump 0x02500028 1 := by
  unfold Dev.arrive
  rw [Dev.unpause_unpaused hd]
  exact (if_neg (by rw [hup]; decide)).trans (if_pos (by rw [ha]; rfl))

/-- A packet that R339 finds malformed is counted and dropped. -/
theorem Dev.arrive_malformed {d : Dev} {k : VPkt} (hd : d.unpaused) (hup : (d.half k.half).up = true) (ha : d.admitted k.addr = true)
    (hv : parseVxp k.data = none) (kind : Nat) (f : Dev → Assoc → VIn → Dev) : d.arrive k kind f = d.bump 0x02500024 1 := by
  unfold Dev.arrive
  rw [Dev.unpause_unpaused hd]
  refine (if_neg (by rw [hup]; decide)).trans ((if_neg (by rw [ha]; decide)).trans ?_)
  rw [hv]

/-! ### Packets received (R347) -/

theorem Assoc.got_had (a : Assoc) (psn : Nat) : (a.got psn).had psn = true := by
  have hmono : ∀ (l : List Nat) (held : List Nat) (c : Nat), c ≤ l.foldl (fun c _ => if held.contains c then c + 1 else c) c := fun l held => by
    induction l with
    | nil => exact fun c => Nat.le_refl c
    | cons x l ih =>
      intro c
      refine Nat.le_trans ?_ (ih _)
      dsimp only
      split_ifs <;> omega
  unfold Assoc.got
  extract_lets held n
  have hn : a.rxCum ≤ n := hmono _ _ _
  unfold Assoc.had
  by_cases hlt : psn < n
  · simp [hlt]
  · have hmem : psn ∈ held := by
      unfold held
      split_ifs with hh
      · rw [Bool.or_eq_true, decide_eq_true_eq] at hh
        rcases hh with hh | hh
        · simpa using hh
        · omega
      · exact List.mem_append_right _ List.mem_cons_self
    simp [hmem, Nat.not_lt.1 hlt]

/-- No flow of an association's begins with what it has received. -/
def Dev.beginsNone (d : Dev) (peer me cum : Nat) : Prop :=
  ∀ f ∈ d.fab.rflows, f.me = me → f.sender = peer → f.fresh = true → ∀ p c k, f.low = some (p, c, k) → cum ≤ p

theorem Dev.flowsBegun_beginsNone {d : Dev} {peer me : Nat} (h : d.flowsBegun peer me) (cum : Nat) : d.beginsNone peer me cum :=
  fun f hf hm hs hfresh => absurd (hfresh.symm.trans (h f hf hm hs)) (by decide)

theorem Dev.beginFlows_none {d : Dev} {peer me cum : Nat} (h : d.beginsNone peer me cum) : d.beginFlows peer me cum = d := by
  unfold Dev.beginFlows
  refine List.foldlRecOn (motive := fun e : Dev => e = d) _ _ rfl (fun e he f hf => ?_)
  obtain ⟨hmem, hp⟩ := List.mem_filter.1 hf
  simp only [Bool.and_eq_true, beq_iff_eq] at hp
  obtain ⟨⟨hm, hs⟩, hfresh⟩ := hp
  split
  next p c k hl => rw [if_pos (h f hmem hm hs hfresh p c k hl), he]
  next => exact he

/-- A packet received that no acknowledgement is due for yet: its number is kept, and the timer of the acknowledgement runs. -/
def Dev.gotNote (d : Dev) (peer me psn : Nat) : Dev := (d.assocUpd peer me (fun a => a.got psn)).vxpTimer peer me 2 10

section
variable {d : Dev} {a b : Assoc} {psn : Nat} (hb : d.assocOf a.peer a.me = some b)
include hb

theorem Dev.gotPsn_quiet (hs : b.sinceAck < 15) (hq : d.beginsNone a.peer a.me (b.got psn).rxCum) : d.gotPsn a psn = d.gotNote a.peer a.me psn := by
  have h1 : (d.assocUpd a.peer a.me (fun a => a.got psn)).assocOf a.peer a.me = some (b.got psn) := by
    rw [Dev.assocOf_assocUpd d a.peer a.me (f := fun a => a.got psn) (fun _ => ⟨rfl, rfl⟩), hb]
    rfl
  have hq1 : (d.assocUpd a.peer a.me (fun a => a.got psn)).beginsNone a.peer a.me (b.got psn).rxCum := hq
  have hack : ¬ 16 ≤ (b.got psn).sinceAck := by
    change ¬ 16 ≤ b.sinceAck + 1
    omega
  unfold Dev.gotPsn
  dsimp only
  rw [h1]
  dsimp only
  rw [Dev.beginFlows_none hq1, h1]
  exact if_neg hack

theorem Dev.assocOf_gotNote : (d.gotNote a.peer a.me psn).assocOf a.peer a.me = some (b.got psn) := by
  rw [Dev.gotNote, Dev.assocOf_vxpTimer, Dev.assocOf_assocUpd d a.peer a.me (f := fun a => a.got psn) (fun _ => ⟨rfl, rfl⟩), hb]
  rfl

end

theorem Dev.traffic_gotNote (d : Dev) (peer me psn : Nat) : (d.gotNote peer me psn).traffic = d.traffic := Dev.traffic_vxpTimer ..

/-- What the traffic tells of a device. -/
theorem Dev.traffic_eq {d e : Dev} (h : e.traffic = d.traffic) : e.fab.sflows = d.fab.sflows ∧ e.fab.rflows = d.fab.rflows ∧ e.fab.nodes = d.fab.nodes ∧
    e.timeUs = d.timeUs ∧ e.qry.queries = d.qry.queries ∧ e.mail = d.mail := by
  unfold Dev.traffic FabSt.flows at h
  simp only [Prod.mk.injEq, FabSt.mk.injEq] at h
  obtain ⟨⟨h1, h2, -, h4, h5, h6, h7, -⟩, ht, hq, hm⟩ := h
  exact ⟨h4, h5, h1, ht, hq, hm⟩

section
variable {d : Dev} {k : VPkt} {kind : Nat} {a : Assoc} {v : VIn} (h : d.lets k kind a v)
include h

/-- What a packet of an association leaves where no flow begins with it. -/
theorem Dev.gotPsn_heard (hq : d.beginsNone v.src v.dst (a.got v.psn).rxCum) :
    (d.heard k v).gotPsn a v.psn = (d.heard k v).gotNote v.src v.dst v.psn ∧
      ((d.heard k v).gotNote v.src v.dst v.psn).assocOf v.src v.dst = some ((a.hears d.timeUs k.ce).got v.psn) ∧
      ((d.heard k v).gotNote v.src v.dst v.psn).traffic = d.traffic := by
  obtain ⟨hp, hm⟩ := Dev.lets_ends h
  obtain ⟨-, -, -, -, -, -, -, -, -, -, hs⟩ := id h
  have hh := Dev.assocOf_heard h
  rw [← hp, ← hm] at hh hq ⊢
  have hq1 : (d.heard k v).beginsNone a.peer a.me ((a.hears d.timeUs k.ce).got v.psn).rxCum := by
    obtain ⟨-, hr, -⟩ := Dev.traffic_eq (d.traffic_heard k v)
    unfold Dev.beginsNone
    rw [hr]
    exact hq
  exact ⟨Dev.gotPsn_quiet hh hs hq1, Dev.assocOf_gotNote hh, (Dev.traffic_gotNote ..).trans (d.traffic_heard k v)⟩

end

/-! ### Messages of the flows (R344) -/

/-- Where every message was sent, no flow has anything to send. -/
theorem Dev.pumpFlows_sent {d : Dev} (h : ∀ f ∈ d.fab.sflows, ∀ m ∈ f.msgs, m.sent = true) : d.pumpFlows = d := by
  have hone : ∀ (f : SFlow) n, d.pumpFlow f n = d := fun f n => by
    cases n with
    | zero => rfl
    | succ n =>
      unfold Dev.pumpFlow
      split
      · rfl
      next g hg =>
        split
        · rfl
        next m hm =>
          have hsent := h g (List.mem_of_find?_eq_some hg) m (List.mem_of_find?_eq_some hm)
          have hun := List.find?_some hm
          simp [hsent] at hun
  unfold Dev.pumpFlows
  exact List.foldlRecOn (motive := fun e : Dev => e = d) _ _ rfl (fun e he f _ => by rw [he]; exact hone f _)

/-! ### DATA (R343 to R345) -/

theorem Dev.exchQueries_congr {d e : Dev} (h : e.qry.queries = d.qry.queries) (exch stage : Nat) : e.exchQueries exch stage = d.exchQueries exch stage := by
  unfold Dev.exchQueries
  rw [h]

theorem Dev.rflow_congr {d e : Dev} (h : e.fab.rflows = d.fab.rflows) (me sender exch stage : Nat) : e.rflow me sender exch stage = d.rflow me sender exch stage := by
  unfold Dev.rflow
  rw [h]

theorem Dev.rflowUpd_some {d : Dev} {me sender exch stage : Nat} (h : (d.rflow me sender exch stage).isSome) (g : RFlow → RFlow) :
    d.rflowUpd me sender exch stage g =
      { d with fab := { d.fab with rflows := updWhere (fun f => f.me == me && f.sender == sender && f.exch == exch && f.stage == stage) g d.fab.rflows } } := by
  unfold Dev.rflowUpd
  rw [if_pos h]

/-- A flow changed, its ends kept. -/
theorem Dev.rflow_rflowUpd {d : Dev} {me sender exch stage : Nat} {f : RFlow} (h : d.rflow me sender exch stage = some f) {g : RFlow → RFlow}
    (hg : ∀ f, (g f).me = f.me ∧ (g f).sender = f.sender ∧ (g f).exch = f.exch ∧ (g f).stage = f.stage) :
    (d.rflowUpd me sender exch stage g).rflow me sender exch stage = some (g f) := by
  have hupd := find?_updWhere (fun f : RFlow => f.me == me && f.sender == sender && f.exch == exch && f.stage == stage) g
    (fun a ha => by
      obtain ⟨h1, h2, h3, h4⟩ := hg a
      rw [h1, h2, h3, h4]
      exact ha) d.fab.rflows
  rw [Dev.rflowUpd_some (by rw [h]; rfl)]
  refine hupd.trans ?_
  change (d.rflow me sender exch stage).map g = _
  rw [h]
  rfl

theorem RFlow.sees_keeps (f : RFlow) (psn charge piece : Nat) : (f.sees psn charge piece).me = f.me ∧ (f.sees psn charge piece).sender = f.sender ∧
    (f.sees psn charge piece).exch = f.exch ∧ (f.sees psn charge piece).stage = f.stage ∧ (f.sees psn charge piece).parts = f.parts := by
  unfold RFlow.sees
  split_ifs
  · exact ⟨rfl, rfl, rfl, rfl, rfl⟩
  · split
    · split_ifs <;> exact ⟨rfl, rfl, rfl, rfl, rfl⟩
    · exact ⟨rfl, rfl, rfl, rfl, rfl⟩

theorem RFlow.sees_begun {f : RFlow} (h : f.fresh = false) (psn charge piece : Nat) : f.sees psn charge piece = f := by
  unfold RFlow.sees
  rw [if_pos (by rw [h]; rfl)]

theorem RFlow.sees_low {f : RFlow} (h : f.low = none) (psn charge piece : Nat) :
    (f.sees psn charge piece).low = if f.fresh then some (psn, charge, piece) else none := by
  unfold RFlow.sees
  rw [h]
  cases f.fresh
  · exact h
  · rfl

section
variable {d : Dev} {k : VPkt} {a : Assoc} {v : VIn} {f : RFlow} (h : d.lets k 1 a v) (hh : a.had v.psn = false)
  (hr : d.exchQueries (fieldAt v.hdr 0 4) (fieldAt v.hdr 4 2) ≠ []) (hf : d.rflow v.dst v.src (fieldAt v.hdr 0 4) (fieldAt v.hdr 4 2) = some f) (hg : f.got = [])
  (hp : f.parts = []) (he : f.ended = none)
  (ho : ptLt (fieldAt v.hdr 8 8 % 2 ^ 48, fieldAt v.hdr 8 8 / 2 ^ 48) (f.expCharge, f.expPiece) = false) (hl : v.body.length < fieldAt v.hdr 0x10 4)
include h hh hr hf hg hp he ho hl

/-- The first segment of a message whose bytes are not all there. -/
theorem Dev.vxpData_first : d.vxpData k =
    (((d.heard k v).rflowUpd v.dst v.src (fieldAt v.hdr 0 4) (fieldAt v.hdr 4 2) (fun f => f.sees v.psn (fieldAt v.hdr 8 8 % 2 ^ 48) (fieldAt v.hdr 8 8 / 2 ^ 48))).gotPsn
      a v.psn).rflowUpd v.dst v.src (fieldAt v.hdr 0 4) (fieldAt v.hdr 4 2) (fun f => { f with parts :=
        (f.parts.filter (fun k => !(k.charge == fieldAt v.hdr 8 8 % 2 ^ 48 && k.piece == fieldAt v.hdr 8 8 / 2 ^ 48))) ++
          [{ charge := fieldAt v.hdr 8 8 % 2 ^ 48, piece := fieldAt v.hdr 8 8 / 2 ^ 48, flags := fieldAt v.hdr 6 2, bytes := fieldAt v.hdr 0x10 4
             segs := [(fieldAt v.hdr 0x14 4, v.body)] }] }) := by
  obtain ⟨hpeer, hme⟩ := Dev.lets_ends h
  obtain ⟨-, hrf, -, -, hq, -⟩ := Dev.traffic_eq (d.traffic_heard k v)
  have hf1 : (d.heard k v).rflow v.dst v.src (fieldAt v.hdr 0 4) (fieldAt v.hdr 4 2) = some f := (Dev.rflow_congr hrf ..).trans hf
  have hrun : ((d.heard k v).exchQueries (fieldAt v.hdr 0 4) (fieldAt v.hdr 4 2)).isEmpty = false := by
    rw [Dev.exchQueries_congr hq]
    simpa using hr
  rw [Dev.vxpData, Dev.arrive_lets h (by decide) (by decide)]
  generalize d.heard k v = e at hf1 hrun
  have hsum : ¬ ([(fieldAt v.hdr 0x14 4, v.body)].map (fun s : Nat × Bytes => s.2.length)).sum = fieldAt v.hdr 0x10 4 := by
    change ¬ v.body.length + 0 = _
    omega
  simp only [hpeer, hme, hf1, hrun, hh, ho, hg, hp, he, Option.getD_some, List.any_nil, List.find?_nil, Option.getD_none, Option.isSome_none, Bool.not_false,
    Bool.not_true, Bool.and_false, Bool.or_false, Bool.false_eq_true, if_false, if_true, List.nil_append]
  rw [if_neg hsum]

/-- What it leaves: the segment is kept, and its number. -/
theorem Dev.vxpData_keeps (hb : d.flowsBegun v.src v.dst ∨ (d.fab.rflows = [f] ∧ f.low = none ∧ (a.got v.psn).rxCum ≤ v.psn)) :
    (d.vxpData k).rflow v.dst v.src (fieldAt v.hdr 0 4) (fieldAt v.hdr 4 2) =
        some { (f.sees v.psn (fieldAt v.hdr 8 8 % 2 ^ 48) (fieldAt v.hdr 8 8 / 2 ^ 48)) with parts :=
          [{ charge := fieldAt v.hdr 8 8 % 2 ^ 48, piece := fieldAt v.hdr 8 8 / 2 ^ 48, flags := fieldAt v.hdr 6 2, bytes := fieldAt v.hdr 0x10 4
             segs := [(fieldAt v.hdr 0x14 4, v.body)] }] } ∧
      ((d.vxpData k).assocOf v.src v.dst).map (fun b => b.had v.psn) = some true ∧ (d.vxpData k).qry.queries = d.qry.queries := by
  rw [Dev.vxpData_first h hh hr hf hg hp he ho hl]
  obtain ⟨hpeer, hme⟩ := Dev.lets_ends h
  obtain ⟨-, -, -, -, -, -, -, -, -, -, hs⟩ := id h
  obtain ⟨-, hrf, -, -, hq, -⟩ := Dev.traffic_eq (d.traffic_heard k v)
  have hf1 : (d.heard k v).rflow v.dst v.src (fieldAt v.hdr 0 4) (fieldAt v.hdr 4 2) = some f := (Dev.rflow_congr hrf ..).trans hf
  have ha1 := Dev.assocOf_heard h
  generalize fieldAt v.hdr 8 8 % 2 ^ 48 = ch, fieldAt v.hdr 8 8 / 2 ^ 48 = pc, fieldAt v.hdr 0 4 = exch, fieldAt v.hdr 4 2 = stage at *
  have hseen := Dev.rflow_rflowUpd hf1 (g := fun f => f.sees v.psn ch pc)
    (fun f => by obtain ⟨h1, h2, h3, h4, -⟩ := f.sees_keeps v.psn ch pc; exact ⟨h1, h2, h3, h4⟩)
  have hupd := Dev.rflowUpd_some (d := d.heard k v) (me := v.dst) (sender := v.src) (exch := exch) (stage := stage) (by rw [hf1]; rfl) (fun f => f.sees v.psn ch pc)
  have hnone : ((d.heard k v).rflowUpd v.dst v.src exch stage (fun f => f.sees v.psn ch pc)).beginsNone v.src v.dst ((a.hears d.timeUs k.ce).got v.psn).rxCum := by
    rw [hupd]
    intro g hgm hm hsd hfr p c kk hlow
    change g ∈ updWhere _ _ (d.heard k v).fab.rflows at hgm
    rw [hrf] at hgm
    rcases hb with hb | ⟨h1, hlow0, hcum⟩
    · obtain ⟨g0, hg0, rfl⟩ := List.mem_map.1 hgm
      split_ifs at hm hsd hfr with hc
      · obtain ⟨k1, k2, -⟩ := g0.sees_keeps v.psn ch pc
        have hbeg := hb g0 hg0 (k1 ▸ hm) (k2 ▸ hsd)
        change (g0.sees v.psn ch pc).fresh = true at hfr
        rw [RFlow.sees_begun hbeg, hbeg] at hfr
        cases hfr
      · rw [hb g0 hg0 hm hsd] at hfr
        cases hfr
    · rw [h1] at hgm
      obtain ⟨g0, hg0, rfl⟩ := List.mem_map.1 hgm
      obtain rfl := List.mem_singleton.1 hg0
      split_ifs at hlow with hc
      · change (g0.sees v.psn ch pc).low = some (p, c, kk) at hlow
        rw [RFlow.sees_low hlow0] at hlow
        split_ifs at hlow
        cases hlow
        exact hcum
      · rw [hlow0] at hlow; cases hlow
  have ha2 : ((d.heard k v).rflowUpd v.dst v.src exch stage (fun f => f.sees v.psn ch pc)).assocOf a.peer a.me = some (a.hears d.timeUs k.ce) := by
    rw [hupd, hpeer, hme]
    exact ha1
  have hquiet := Dev.gotPsn_quiet (psn := v.psn) ha2 hs (by rw [hpeer, hme]; exact hnone)
  have ha3 := Dev.assocOf_gotNote (psn := v.psn) ha2
  have htr := Dev.traffic_gotNote ((d.heard k v).rflowUpd v.dst v.src exch stage (fun f => f.sees v.psn ch pc)) a.peer a.me v.psn
  rw [hquiet]
  obtain ⟨-, hr3, -, -, hq3, -⟩ := Dev.traffic_eq htr
  have hf3 := (Dev.rflow_congr hr3 v.dst v.src exch stage).trans hseen
  rw [hpeer, hme] at ha3 hf3 hq3 ⊢
  have hlast := Dev.rflow_rflowUpd hf3 (g := fun f => { f with parts := (f.parts.filter (fun k => !(k.charge == ch && k.piece == pc))) ++
    [{ charge := ch, piece := pc, flags := fieldAt v.hdr 6 2, bytes := fieldAt v.hdr 0x10 4, segs := [(fieldAt v.hdr 0x14 4, v.body)] }] })
    (fun _ => ⟨rfl, rfl, rfl, rfl⟩)
  obtain ⟨-, -, -, -, hparts⟩ := f.sees_keeps v.psn ch pc
  refine ⟨?_, ?_, ?_⟩
  · rw [hlast, hparts, hp]
    rfl
  · rw [Dev.rflowUpd_some (by rw [hf3]; rfl)]
    refine (congrArg (Option.map _) ha3).trans ?_
    simp [Assoc.got_had]
  · rw [Dev.rflowUpd_some (by rw [hf3]; rfl)]
    refine hq3.trans ?_
    rw [hupd]
    exact hq

end

/-- Settles O16: a segment by `vxpData_keeps`, and the drops of R335 and R339 by `arrive_dropped` and `arrive_malformed`. -/
theorem dataSegments : Obligations.DataSegments :=
  ⟨fun s t _ _ _ _ h hh hr hf hg hp he ho hl hb => effects_run rfl (Dev.vxpData_keeps (d := s.dev.at t) h hh hr hf hg hp he ho hl hb),
    fun s t _ hd hup ha => effects_run rfl (Dev.arrive_dropped (d := s.dev.at t) hd hup ha 1 _),
    fun s t _ hd hup ha hv => effects_run rfl (Dev.arrive_malformed (d := s.dev.at t) hd hup ha hv 1 _)⟩

/-! ### ACK, FLOW_ACK, RESEND and KEEPALIVE (R343, R344, R347) -/

section
variable {d : Dev} {k : VPkt} {a : Assoc} {v : VIn}

/-- An ACK that covers everything that was sent. -/
theorem Dev.vxpAcked_all (h : d.lets k 2 a v) (hall : ∀ p ∈ a.unacked, p.psn < fieldAt v.hdr 0 4) :
    ((d.vxpAcked k).assocOf v.src v.dst).map (fun b => (b.unacked, b.acked)) = some ([], a.acked + a.unacked.length) := by
  obtain ⟨hpeer, hme⟩ := Dev.lets_ends h
  have ha := Dev.assocOf_heard h
  rw [Dev.vxpAcked, Dev.arrive_lets h (by decide) (by decide), ← hpeer, ← hme]
  rw [← hpeer, ← hme] at ha
  generalize d.heard k v = e at ha
  extract_lets cum sack isAck gone left adv rtt srtt d1 d2
  have hcov : ∀ p ∈ a.unacked, isAck p.psn = true := fun p hp => by
    change (decide (p.psn < cum) || _) = true
    rw [decide_eq_true (hall p hp)]
    rfl
  have hgone : gone = a.unacked := List.filter_eq_self.2 hcov
  have hleft : left = [] := by
    unfold left
    rw [List.filter_eq_nil_iff.2 (fun p hp => by rw [hcov p hp]; decide)]
    rfl
  have h1 : (d1.assocOf a.peer a.me).map (fun b => (b.unacked, b.acked)) = some ([], a.acked + a.unacked.length) := by
    refine (congrArg (Option.map _) ((Dev.assocOf_assocUpd e a.peer a.me (by exact fun _ => ⟨rfl, rfl⟩)).trans (congrArg _ ha))).trans ?_
    change some (left, a.acked + gone.length) = _
    rw [hleft, hgone]
  have h2 : d2.assocOf a.peer a.me = d1.assocOf a.peer a.me := by
    unfold d2
    split_ifs
    · rfl
    · exact Dev.assocOf_undelay ..
    · exact (Dev.assocOf_vxpTimer ..).trans (Dev.assocOf_undelay ..)
  rw [hleft]
  change Option.map _ (d2.assocOf a.peer a.me) = _
  rw [h2, h1]

/-- A FLOW_ACK of the one flow, whose messages were all sent. -/
theorem Dev.vxpFlowAck_frees {g : SFlow} (h : d.lets k 3 a v) (hh : a.had v.psn = false) (hb : d.flowsBegun v.src v.dst)
    (hq : d.exchQueries (fieldAt v.hdr 0 4) (fieldAt v.hdr 4 2) = []) (hf : d.fab.sflows = [g]) (he : g.exch = fieldAt v.hdr 0 4) (hs : g.stage = fieldAt v.hdr 4 2)
    (hm : g.sender = v.dst) (hn : g.node = v.src) (hsent : ∀ m ∈ g.msgs, m.sent) :
    (d.vxpFlowAck k).fab.sflows = [g.ack (wordPt (fieldAt v.hdr 8 8)) (wordPt (fieldAt v.hdr 0x10 8))] := by
  obtain ⟨hpeer, hme⟩ := Dev.lets_ends h
  obtain ⟨hgot, -, htr⟩ := Dev.gotPsn_heard h (Dev.flowsBegun_beginsNone hb _)
  obtain ⟨hsf, -, -, -, hqr, -⟩ := Dev.traffic_eq htr
  obtain ⟨-, -, -, -, hqh, -⟩ := Dev.traffic_eq (d.traffic_heard k v)
  rw [Dev.vxpFlowAck, Dev.arrive_lets h (by decide) (by decide)]
  dsimp only
  rw [hh, if_neg Bool.false_ne_true, Dev.exchQueries_congr hqh, hq, hgot]
  generalize (d.heard k v).gotNote v.src v.dst v.psn = e at hsf
  have hfl : updWhere (fun g : SFlow => g.exch == fieldAt v.hdr 0 4 && g.stage == fieldAt v.hdr 4 2 && g.sender == a.me && g.node == a.peer)
      (fun g => g.ack (wordPt (fieldAt v.hdr 8 8)) (wordPt (fieldAt v.hdr 0x10 8))) e.fab.sflows =
      [g.ack (wordPt (fieldAt v.hdr 8 8)) (wordPt (fieldAt v.hdr 0x10 8))] := by
    rw [hsf, hf]
    simp [updWhere, he, hs, hm, hn, hpeer, hme]
  rw [hfl, Dev.pumpFlows_sent]
  · rfl
  · intro f hfm m hmm
    obtain rfl := List.mem_singleton.1 hfm
    exact hsent m (List.mem_of_mem_filter hmm)

/-- One message, in one segment, sent on its association. -/
theorem Dev.sendMsg_one {e : Dev} {g : SFlow} {m : XMsg} {b : Assoc} (hb : e.assocOf g.node g.sender = some b) (hl : m.data.length ≤ b.seg) :
    ((e.sendMsg g m).assocOf g.node g.sender).map (fun b => (b.txPsn, b.unacked.map (fun p => (p.psn, p.kind, p.payload)))) =
      some (b.txPsn + 1, b.unacked.map (fun p => (p.psn, p.kind, p.payload)) ++ [(b.txPsn, 1, m.data)]) := by
  have hn : max 1 (ceilDiv m.data.length b.seg) = 1 := by
    have hc : ceilDiv m.data.length b.seg ≤ 1 := by
      unfold ceilDiv
      rcases Nat.eq_zero_or_pos b.seg with h0 | h0
      · rw [h0, Nat.div_zero]
        omega
      · exact Nat.lt_succ_iff.1 ((Nat.div_lt_iff_lt_mul h0).2 (by omega))
    omega
  unfold Dev.sendMsg
  rw [hb]
  dsimp only [Option.getD_some]
  rw [hn]
  change Option.map _ ((e.vxpSend g.node g.sender 1 _ _ _ _).assocOf g.node g.sender) = _
  obtain ⟨path, hp⟩ := Dev.assocOf_vxpSend hb 1 (b2n (0 == 0) + 2 * b2n (0 + 1 == 1))
    (natLE 4 g.exch ++ natLE 2 g.stage ++ natLE 2 m.flags ++ natLE 8 (m.charge + 2 ^ 48 * m.piece) ++ natLE 4 m.data.length ++ natLE 4 (0 * b.seg))
    (sliceAt m.data (0 * b.seg) b.seg) (msgHash g.exch g.stage m.charge m.piece)
  have hdata : sliceAt m.data 0 b.seg = m.data := by
    rw [sliceAt, List.drop_zero, List.take_of_length_le hl]
  refine (congrArg (Option.map _) hp).trans ?_
  simp [Assoc.sends, reliableKind, hdata]

/-- RESEND of a message that is retained, of one segment. -/
theorem Dev.vxpResendMsg_sends {g : SFlow} {m : XMsg} (h : d.lets k 8 a v) (hh : a.had v.psn = false) (hb : d.flowsBegun v.src v.dst)
    (hf : d.fab.sflows = [g]) (he : g.exch = fieldAt v.hdr 0 4) (hs : g.stage = fieldAt v.hdr 4 2) (hm : g.sender = v.dst) (hn : g.node = v.src)
    (hmsgs : g.msgs = [m]) (hc : m.charge = fieldAt v.hdr 8 8 % 2 ^ 48) (hp : m.piece = fieldAt v.hdr 8 8 / 2 ^ 48) (hl : m.data.length ≤ a.seg) :
    ((d.vxpResendMsg k).assocOf v.src v.dst).map (fun b => (b.txPsn, b.unacked.map (fun p => (p.psn, p.kind, p.payload)))) =
      some (a.txPsn + 1, a.unacked.map (fun p => (p.psn, p.kind, p.payload)) ++ [(a.txPsn, 1, m.data)]) := by
  obtain ⟨hpeer, hme⟩ := Dev.lets_ends h
  obtain ⟨hgot, hassoc, htr⟩ := Dev.gotPsn_heard h (Dev.flowsBegun_beginsNone hb _)
  obtain ⟨hsf, -⟩ := Dev.traffic_eq htr
  rw [Dev.vxpResendMsg, Dev.arrive_lets h (by decide) (by decide)]
  dsimp only
  rw [hh, if_neg Bool.false_ne_true, hgot]
  generalize (d.heard k v).gotNote v.src v.dst v.psn = e at hsf hassoc
  have hflow : e.fab.sflows.find? (fun g => g.exch == fieldAt v.hdr 0 4 && g.stage == fieldAt v.hdr 4 2 && g.sender == a.me && g.node == a.peer) = some g := by
    rw [hsf, hf]
    exact List.find?_cons_of_pos (by simp [he, hs, hm, hn, hpeer, hme])
  have hmsg : g.msgs.find? (fun m => m.charge == fieldAt v.hdr 8 8 % 2 ^ 48 && m.piece == fieldAt v.hdr 8 8 / 2 ^ 48) = some m := by
    rw [hmsgs]
    exact List.find?_cons_of_pos (by simp [hc, hp])
  rw [hflow]
  dsimp only
  rw [hmsg]
  dsimp only
  rw [← hn, ← hm] at hassoc ⊢
  exact Dev.sendMsg_one (b := (a.hears d.timeUs k.ce).got v.psn) hassoc hl

theorem Dev.vxpKeepalive_hears (h : d.lets k 9 a v) (hb : d.flowsBegun v.src v.dst) :
    ((d.vxpKeepalive k).assocOf v.src v.dst).map (fun b => (b.lastRx, b.had v.psn)) = some (d.timeUs, true) := by
  obtain ⟨hgot, hassoc, -⟩ := Dev.gotPsn_heard h (Dev.flowsBegun_beginsNone hb _)
  rw [Dev.vxpKeepalive, Dev.arrive_lets h (by decide) (by decide), hgot, hassoc]
  change some (d.timeUs, ((a.hears d.timeUs k.ce).got v.psn).had v.psn) = _
  rw [Assoc.got_had]

end

/-- Settles O17: each by what its kind does to the association that heard it. -/
theorem acknowledgements : Obligations.Acknowledgements :=
  ⟨fun s t _ _ _ h hall => effects_run rfl (Dev.vxpAcked_all (d := s.dev.at t) h hall),
    fun s t _ _ _ _ h hh hb hq hf he hs hm hn hsent => effects_run rfl (Dev.vxpFlowAck_frees (d := s.dev.at t) h hh hb hq hf he hs hm hn hsent),
    fun s t _ _ _ _ _ h hh hb hf he hs hm hn hmsgs hc hp hl =>
      effects_run rfl (Dev.vxpResendMsg_sends (d := s.dev.at t) h hh hb hf he hs hm hn hmsgs hc hp hl),
    fun s t _ _ _ h hb => effects_run rfl (Dev.vxpKeepalive_hears (d := s.dev.at t) h hb)⟩

end Sys2Proof.Machine

/-!
PROOF. Associations and adopted nodes (11_exchange.md): HELLO, RESUME, CLOSE and lost peers (O18, O19).
-/
namespace Sys2Proof.Machine

/-! ### HELLO and HELLO_ACK (R336, R337) -/

/-- An association made anew. -/
def Dev.newAssoc (d : Dev) (peer me : Nat) : Assoc :=
  { peer := peer, me := me, own := 1 + (d.fab.usedIds.filter (fun p => p.1 == peer)).length, major := d.xp.1, minor := d.xp.2, rate := d.bestRate
    lastRx := d.timeUs, lastTx := d.timeUs }

theorem Dev.fresh_made (d : Dev) (peer me : Nat) : (d.fresh peer me).assocOf peer me = some (d.newAssoc peer me) := by
  unfold Dev.fresh
  rw [Dev.assocOf_vxpTimer, Dev.assocOf_vxpTimer]
  have hgone : (d.fab.assocs.filter (fun a => !(a.peer == peer && a.me == me))).find? (fun a => a.peer == peer && a.me == me) = none := by
    rw [List.find?_eq_none]
    intro a ha
    have h := (List.mem_filter.1 ha).2
    simpa [imp_iff_not_or] using h
  refine (List.find?_append ..).trans ?_
  rw [hgone, Option.none_or]
  exact List.find?_cons_of_pos (by simp)

theorem Dev.fresh_keeps (d : Dev) (peer me : Nat) : (d.fresh peer me).traffic = d.traffic ∧ (d.fresh peer me).fab.halves = d.fab.halves ∧
    (∀ a, 0x02500000 ≤ a → (d.fresh peer me).reg a = d.reg a) ∧ ∀ p m, p ≠ peer ∨ m ≠ me → (d.fresh peer me).assocOf p m = d.assocOf p m := by
  unfold Dev.fresh
  refine ⟨(Dev.traffic_vxpTimer ..).trans (Dev.traffic_vxpTimer ..), by rw [Dev.vxpTimer_fab, Dev.vxpTimer_fab], fun a ha => ?_, fun p m hne => ?_⟩
  · exact (Dev.reg_vxpTimer _ _ _ _ _ ha).trans (Dev.reg_vxpTimer _ _ _ _ _ ha)
  · rw [Dev.assocOf_vxpTimer, Dev.assocOf_vxpTimer]
    refine (List.find?_append ..).trans ?_
    have hnew : ∀ a : Assoc, a.peer = peer → a.me = me → [a].find? (fun a => a.peer == p && a.me == m) = none := fun a h1 h2 => by
      refine List.find?_cons_of_neg ?_
      rcases hne with h | h <;> simp [h1, h2, Ne.symm h]
    rw [hnew _ rfl rfl, Option.or_none, List.find?_filter]
    refine congrArg (fun q => List.find? q d.fab.assocs) (funext fun a => ?_)
    cases hq : (a.peer == p && a.me == m) with
    | false => simp
    | true =>
      simp only [Bool.and_eq_true, beq_iff_eq] at hq
      obtain ⟨rfl, rfl⟩ := hq
      rcases hne with h | h <;> simp [h]

/-- A HELLO goes to the association's answer, one of R336's checks having refused it. -/
theorem Dev.arrive_hello {d : Dev} {k : VPkt} {v : VIn} (hd : d.unpaused) (hup : (d.half k.half).up = true) (had : d.admitted k.addr = true)
    (hv : parseVxp k.data = some v) (hk : v.kind = 4) (hl : d.listed v.src k.addr = true) (hm : d.isMe v.dst = true) (f : Dev → Assoc → VIn → Dev) :
    d.arrive k 4 f = f (d.marked k) { peer := v.src, me := v.dst } v := by
  unfold Dev.arrive
  simp only [Dev.unpause_unpaused hd, hup, had, hv, hk, hl, hm, Bool.not_true, Bool.false_eq_true, if_false, ne_eq, not_true_eq_false, if_true]
  rfl

theorem Dev.arrive_helloAck {d : Dev} {k : VPkt} {a : Assoc} {v : VIn} (hd : d.unpaused) (hup : (d.half k.half).up = true) (had : d.admitted k.addr = true)
    (hv : parseVxp k.data = some v) (hk : v.kind = 5) (hl : d.listed v.src k.addr = true) (hm : d.isMe v.dst = true) (ha : d.assocOf v.src v.dst = some a)
    (f : Dev → Assoc → VIn → Dev) : d.arrive k 5 f = f (d.marked k) a v := by
  have ha1 : (d.marked k).assocOf v.src v.dst = some a := (Dev.assocOf_fab (d.marked_fab k) ..).trans ha
  unfold Dev.arrive
  simp only [Dev.unpause_unpaused hd, hup, had, hv, hk, hl, hm, Bool.not_true, Bool.false_eq_true, if_false, ne_eq, not_true_eq_false, if_true]
  change (match (d.marked k).assocOf v.src v.dst with | none => _ | some a => _) = _
  rw [ha1]
  rfl

theorem Dev.showAssocs_fab (d : Dev) : d.showAssocs.fab = d.fab := rfl

/-- A refused peering: its association is refused, and the refusal counted. -/
theorem Dev.refusePeer_refuses {d : Dev} {peer me : Nat} {a : Assoc} (ha : d.assocOf peer me = some a) (data : Nat) :
    (d.refusePeer peer me data).assocOf peer me = some { a with refused := true, opened := false } ∧
      (d.refusePeer peer me data).regN 0x02500030 = satAdd 32 (d.regN 0x02500030) 1 := by
  unfold Dev.refusePeer
  refine ⟨?_, ?_⟩
  · rw [Dev.assocOf_fab (Dev.showAssocs_fab _), Dev.assocOf_fab (Dev.eventPf_fab ..), Dev.assocOf_bump,
      Dev.assocOf_assocUpd _ _ _ (f := fun a => { a with refused := true, opened := false }) (fun _ => ⟨rfl, rfl⟩), ha]
    rfl
  · have hev : ∀ (e : Dev) c o x, (e.eventPf c o x).regN 0x02500030 = e.regN 0x02500030 := fun e c o x => by
      unfold Dev.regN Dev.reg
      rw [Dev.eventPf_regs]
    refine (congrArg BitVec.toNat ((Dev.reg_setReg_at ..).trans (if_neg (by decide)))).trans ?_
    refine (hev ..).trans ?_
    rw [Dev.regN_bump_self]
    rfl

section
variable {d : Dev} {k : VPkt} {v : VIn} (hd : d.unpaused) (hup : (d.half k.half).up = true) (had : d.admitted k.addr = true)
  (hv : parseVxp k.data = some v) (hl : d.listed v.src k.addr = true) (hm : d.isMe v.dst = true)
include hd hup had hv hl hm

section
variable (hk : v.kind = 4) (ha : d.assocOf v.src v.dst = none)
include hk ha

/-- The first HELLO of a peer is answered on an association made for it. -/
theorem Dev.vxpHello_first : d.vxpHello k =
    ((d.marked k).fresh v.src v.dst).helloAnswer v.src v.dst (fieldAt v.body 2 1) (fieldAt v.body 0 3) v := by
  have ha1 : (d.marked k).assocOf v.src v.dst = none := (Dev.assocOf_fab (d.marked_fab k) ..).trans ha
  rw [Dev.vxpHello, Dev.arrive_hello hd hup had hv hk hl hm]
  dsimp only
  rw [ha1]

theorem Dev.vxpHello_opens (hx : fieldAt v.body 0 1 = d.xp.1) (hf : d.fab.sflows = []) :
    ((d.vxpHello k).assocOf v.src v.dst).map (fun b => (b.opened, b.theirs, b.minor, b.seg)) =
      some (true, some v.id, min d.xp.2 (fieldAt v.body 2 1), segFor (min d.xp.2 (fieldAt v.body 2 1)) d.maxSeg (fieldAt v.body 4 4)) := by
  rw [Dev.vxpHello_first hd hup had hv hl hm hk ha]
  have hfa := (d.marked k).fresh_made v.src v.dst
  obtain ⟨htr, hhalf, hreg, -⟩ := (d.marked k).fresh_keeps v.src v.dst
  obtain ⟨hsf, -, -, -, -, hmail⟩ := Dev.traffic_eq (htr.trans (d.traffic_marked k))
  have hseg : ((d.marked k).fresh v.src v.dst).maxSeg = d.maxSeg :=
    Dev.maxSeg_congr (by rw [hhalf, d.marked_fab]) (fun r hr => (hreg r (by omega)).trans (d.reg_marked k (by omega)))
  have hxp : ((d.marked k).fresh v.src v.dst).xp = d.xp := congrArg (fun m : MailSt => m.firmware.xp) hmail
  generalize (d.marked k).newAssoc v.src v.dst = a at hfa
  generalize (d.marked k).fresh v.src v.dst = e at hfa hsf hseg hxp
  have hnone : ∀ e : Dev, e.fab.sflows = [] → e.pumpFlows = e := fun e he => Dev.pumpFlows_sent (fun f hfm => by rw [he] at hfm; cases hfm)
  unfold Dev.helloAnswer
  rw [hxp, if_neg (not_not.2 hx), hseg]
  extract_lets minor seg d1
  have h1 : d1.assocOf v.src v.dst = some { a with theirs := some v.id, opened := true, minor := minor, seg := seg, lastRx := e.timeUs } := by
    refine (Dev.assocOf_fab (Dev.showAssocs_fab _) ..).trans ?_
    rw [Dev.assocOf_assocUpd _ _ _ (f := fun a => { a with theirs := some v.id, opened := true, minor := minor, seg := seg, lastRx := e.timeUs })
      (fun _ => ⟨rfl, rfl⟩), hfa]
    rfl
  obtain ⟨path, hsend⟩ := Dev.assocOf_vxpSend h1 5 0 [] ([BitVec.ofNat 8 d.xp.1, BitVec.ofNat 8 minor, 0, 0] ++ natLE 4 seg) 0
  obtain ⟨hsf2, -⟩ := Dev.traffic_eq (d1.traffic_vxpSend v.src v.dst 5 0 [] ([BitVec.ofNat 8 d.xp.1, BitVec.ofNat 8 minor, 0, 0] ++ natLE 4 seg) 0)
  rw [hnone _ (hsf2.trans (hsf.trans hf)), hsend]
  rfl

theorem Dev.vxpHello_refuses (hx : fieldAt v.body 0 1 ≠ d.xp.1) :
    ((d.vxpHello k).assocOf v.src v.dst).map (fun b => (b.opened, b.refused)) = some (false, true) ∧
      (d.vxpHello k).regN 0x02500030 = satAdd 32 (d.regN 0x02500030) 1 := by
  rw [Dev.vxpHello_first hd hup had hv hl hm hk ha]
  have hfa := (d.marked k).fresh_made v.src v.dst
  obtain ⟨htr, -, hreg, -⟩ := (d.marked k).fresh_keeps v.src v.dst
  obtain ⟨-, -, -, -, -, hmail⟩ := Dev.traffic_eq (htr.trans (d.traffic_marked k))
  have hxp : ((d.marked k).fresh v.src v.dst).xp = d.xp := congrArg (fun m : MailSt => m.firmware.xp) hmail
  have hr : ((d.marked k).fresh v.src v.dst).reg 0x02500030 = d.reg 0x02500030 := (hreg _ (by decide)).trans (d.reg_marked k (by decide))
  generalize (d.marked k).newAssoc v.src v.dst = a at hfa
  generalize (d.marked k).fresh v.src v.dst = e at hfa hxp hr
  unfold Dev.helloAnswer
  rw [hxp, if_pos hx]
  obtain ⟨path, hsend⟩ := Dev.assocOf_vxpSend hfa 5 0 [] ([0, 0, 1, 0] ++ natLE 4 0) 0
  obtain ⟨h1, h2⟩ := Dev.refusePeer_refuses hsend (fieldAt v.body 0 3)
  refine ⟨by rw [h1]; rfl, h2.trans ?_⟩
  unfold Dev.regN
  rw [e.reg_vxpSend _ _ _ _ _ _ _ (by decide), hr]

end

theorem Dev.vxpHelloAck_opens {a : Assoc} (hk : v.kind = 5) (ha : d.assocOf v.src v.dst = some a) (ho : a.opened = false) (hr : a.refused = false)
    (hf : d.fab.sflows = []) :
    ((d.vxpHelloAck k).assocOf v.src v.dst).map (fun b => (b.opened, b.refused)) = some (if fieldAt v.body 2 1 = 1 then (false, true) else (true, false)) := by
  have ha1 : (d.marked k).assocOf v.src v.dst = some a := (Dev.assocOf_fab (d.marked_fab k) ..).trans ha
  have hf1 : (d.marked k).fab.sflows = [] := by rw [d.marked_fab, hf]
  obtain ⟨hp, hme⟩ := Dev.assocOf_ends ha
  rw [Dev.vxpHelloAck, Dev.arrive_helloAck hd hup had hv hk hl hm ha]
  rw [ho, hr, if_neg (by decide), hp, hme]
  split_ifs
  · rw [(Dev.refusePeer_refuses ha1 _).1]
    rfl
  · have hno : ∀ g, (((d.marked k).assocUpd v.src v.dst g).showAssocs).pumpFlows = ((d.marked k).assocUpd v.src v.dst g).showAssocs := fun g =>
      Dev.pumpFlows_sent (fun f hfm => by
        have hmem : f ∈ (d.marked k).fab.sflows := hfm
        rw [hf1] at hmem
        cases hmem)
    rw [hno, Dev.assocOf_fab (Dev.showAssocs_fab _), Dev.assocOf_assocUpd _ _ _ (by exact fun _ => ⟨rfl, rfl⟩), ha1]
    change some (true, a.refused) = _
    rw [hr]

end

/-- Settles O18: HELLO on an association made for it (`vxpHello_first`), and HELLO_ACK on the one that awaits it. -/
theorem associations : Obligations.Associations :=
  ⟨fun s t _ _ hd hup had hv hk hl hm ha hx hf => effects_run rfl (Dev.vxpHello_opens (d := s.dev.at t) hd hup had hv hl hm hk ha hx hf),
    fun s t _ _ hd hup had hv hk hl hm ha hx => effects_run rfl (Dev.vxpHello_refuses (d := s.dev.at t) hd hup had hv hl hm hk ha hx),
    fun s t _ _ _ hd hup had hv hk hl hm ha ho hr hf => effects_run rfl (Dev.vxpHelloAck_opens (d := s.dev.at t) hd hup had hv hl hm hk ha ho hr hf)⟩

/-! ### RESUME and RESUME_ACK (R355) -/

section
variable {d : Dev} {k : VPkt} {a : Assoc} {v : VIn} {f : SFlow}

theorem Dev.vxpResume_again (h : d.lets k 6 a v) (hh : a.had v.psn = false) (hb : d.flowsBegun v.src v.dst) (hf : d.fab.sflows = [f])
    (hn : f.node = fieldAt v.body 0 2) (hs : f.sender = v.dst) :
    ((d.vxpResume k).assocOf (fieldAt v.body 0 2) v.dst).isSome ∧
      (d.vxpResume k).fab.nodes = addAddrs d.fab.nodes (fieldAt v.body 0 2) ((assoc d.fab.nodes v.src).getD []) ∧
      (d.vxpResume k).fab.sflows = [{ f with taken := f.consumed, msgs := f.msgs.map (fun m => { m with sent := false }) }] := by
  obtain ⟨hpeer, hme⟩ := Dev.lets_ends h
  obtain ⟨hgot, -, htr⟩ := Dev.gotPsn_heard h (Dev.flowsBegun_beginsNone hb _)
  obtain ⟨hsf, -, hnodes, -⟩ := Dev.traffic_eq htr
  rw [Dev.vxpResume, Dev.arrive_lets h (by decide) (by decide)]
  dsimp only
  rw [hh, if_neg Bool.false_ne_true, hgot, hpeer, hme]
  generalize (d.heard k v).gotNote v.src v.dst v.psn = e at hsf hnodes
  rw [hnodes]
  generalize addAddrs d.fab.nodes (fieldAt v.body 0 2) ((assoc d.fab.nodes v.src).getD []) = nodes
  generalize hd2 : ({ e with fab := { e.fab with nodes := nodes } } : Dev) = d2
  have hsf2 : d2.fab.sflows = [f] := by rw [← hd2]; exact hsf.trans hf
  have hn2 : d2.fab.nodes = nodes := by rw [← hd2]
  have hfresh := d2.fresh_made (fieldAt v.body 0 2) v.dst
  obtain ⟨htr3, -⟩ := d2.fresh_keeps (fieldAt v.body 0 2) v.dst
  unfold Dev.hello Dev.sayHello
  generalize d2.fresh (fieldAt v.body 0 2) v.dst = d3 at hfresh htr3
  generalize ([BitVec.ofNat 8 d3.xp.1, 0, BitVec.ofNat 8 d3.xp.2, 0] ++ natLE 4 d3.maxSeg : Bytes) = offer
  obtain ⟨path, h4⟩ := Dev.assocOf_vxpSend hfresh 4 0 [] offer 0
  have htr4 := d3.traffic_vxpSend (fieldAt v.body 0 2) v.dst 4 0 [] offer 0
  generalize d3.vxpSend (fieldAt v.body 0 2) v.dst 4 0 [] offer 0 = d4 at h4 htr4
  generalize (d4.fab.rflows.filter (fun f => f.sender == fieldAt v.body 0 2 && f.me == v.dst)) = mine
  generalize (natLE 4 mine.length ++ (mine.map (fun f => natLE 4 f.exch ++ natLE 2 f.stage ++ zeros 2 ++ natLE 8 (ptWord f.consumed))).flatten : Bytes) = list
  obtain ⟨path', h5⟩ := Dev.assocOf_vxpSend h4 7 0 [] list 0
  have htr5 := d4.traffic_vxpSend (fieldAt v.body 0 2) v.dst 7 0 [] list 0
  generalize d4.vxpSend (fieldAt v.body 0 2) v.dst 7 0 [] list 0 = d5 at h5 htr5
  obtain ⟨hsf5, -, hn5, -⟩ := Dev.traffic_eq ((htr5.trans htr4).trans htr3)
  refine ⟨?_, hn5.trans hn2, ?_⟩
  · rw [Dev.assocOf_congr (show (d5.sendAgain (fieldAt v.body 0 2) v.dst).fab.assocs = d5.fab.assocs from rfl), h5]
    rfl
  · change updWhere _ _ d5.fab.sflows = _
    rw [hsf5, hsf2]
    simp [updWhere, hn, hs]

/-- An acknowledgement frees messages: what is left was sent where all were. -/
theorem SFlow.ack_sent {f : SFlow} (h : ∀ m ∈ f.msgs, m.sent = true) (x y : Option (Nat × Nat)) : ∀ m ∈ (f.ack x y).msgs, m.sent = true :=
  fun m hm => h m (List.mem_of_mem_filter hm)

theorem Dev.vxpResumeAck_frees (h : d.lets k 7 a v) (hh : a.had v.psn = false) (hb : d.flowsBegun v.src v.dst) (hf : d.fab.sflows = [f])
    (h1 : fieldAt v.body 0 4 = 1) (he : f.exch = fieldAt v.body 4 4) (hst : f.stage = fieldAt v.body 8 2) (hn : f.node = v.src) (hs : f.sender = v.dst)
    (hsent : ∀ m ∈ f.msgs, m.sent) : (d.vxpResumeAck k).fab.sflows = [f.ack none (wordPt (fieldAt v.body 12 8))] := by
  obtain ⟨hpeer, hme⟩ := Dev.lets_ends h
  obtain ⟨hgot, -, htr⟩ := Dev.gotPsn_heard h (Dev.flowsBegun_beginsNone hb _)
  obtain ⟨hsf, -⟩ := Dev.traffic_eq htr
  rw [Dev.vxpResumeAck, Dev.arrive_lets h (by decide) (by decide)]
  dsimp only
  rw [hh, if_neg Bool.false_ne_true, hgot, hpeer, hme, h1]
  generalize (d.heard k v).gotNote v.src v.dst v.psn = e at hsf
  have hfl : updWhere (fun g : SFlow => g.exch == fieldAt v.body 4 4 && g.stage == fieldAt v.body 8 2 && g.node == v.src && g.sender == v.dst)
      (fun g => g.ack none (wordPt (fieldAt v.body 12 8))) e.fab.sflows = [f.ack none (wordPt (fieldAt v.body 12 8))] := by
    rw [hsf, hf]
    simp [updWhere, he, hst, hn, hs]
  rw [Dev.pumpFlows_sent]
  · exact hfl
  · intro g hg
    change g ∈ updWhere _ _ _ at hg
    rw [hfl, List.mem_singleton] at hg
    rw [hg]
    exact SFlow.ack_sent hsent _ _

end

/-! ### Queries that end (R44, R354) -/

/-- The queries by number, with how they end. -/
def Dev.endings (d : Dev) : List (Nat × Option Ending) := d.qry.queries.map (fun q => (q.id, q.ending))

theorem Dev.query_ending (d : Dev) (id : Nat) : (d.query id).bind (·.ending) = (d.endings.find? (fun p => p.1 == id)).bind (·.2) := by
  unfold Dev.endings
  rw [List.find?_map, Option.bind_map]
  rfl

theorem Dev.endings_queryUpd (d : Dev) (id : Nat) {f : Query → Query} (hf : ∀ q, (f q).id = q.id ∧ (f q).ending = q.ending) :
    (d.queryUpd id f).endings = d.endings := by
  change (updWhere _ f d.qry.queries).map _ = d.qry.queries.map _
  unfold updWhere
  rw [List.map_map]
  refine List.map_congr_left (fun q _ => ?_)
  dsimp only [Function.comp]
  split_ifs
  · rw [(hf q).1, (hf q).2]
  · rfl

theorem Dev.endings_chargeUpd (d : Dev) (r : CRef) (f : Charge → Charge) : (d.chargeUpd r f).endings = d.endings :=
  d.endings_queryUpd _ (fun _ => ⟨rfl, rfl⟩)

theorem Dev.endings_trace (d : Dev) (r : TRec) : (d.trace r).endings = d.endings := by
  have h := congrArg QrySt.queries (d.trace_core r)
  exact congrArg (List.map _) h

theorem Dev.endings_bump (d : Dev) (a n : Nat) : (d.bump a n).endings = d.endings := by
  obtain ⟨regs, tally, h⟩ := d.bump_only a n
  rw [h]
  rfl

theorem Dev.endings_dropCmds (d : Dev) (p : DCmd → Bool) : (d.dropCmds p).endings = d.endings := by
  have hset : ∀ (e : Dev) l es, (e.setDelays l es).endings = e.endings := fun e l es => by
    unfold Dev.setDelays
    exact Dev.endings_bump ..
  unfold Dev.dropCmds
  exact (hset ..).trans (hset ..)

/-- A charge cancelled tells nothing of how its query ends. -/
theorem Dev.endings_cancelCharge (d : Dev) (r : CRef) (cause : Nat) : (d.cancelCharge r cause).endings = d.endings := by
  unfold Dev.cancelCharge
  split
  next q c hq hc =>
    split
    · rfl
    · extract_lets ord d1 d2 d3 d4
      have h2 : d2.endings = d.endings := by
        unfold d2
        split <;> exact d.endings_chargeUpd ..
      have h4 : d4.endings = d.endings := by
        unfold d4 d3
        split_ifs
        · exact (Dev.endings_trace ..).trans h2
        · exact (Dev.endings_dropCmds ..).trans ((Dev.endings_trace ..).trans h2)
      split_ifs
      · exact (Dev.endings_trace ..).trans ((Dev.endings_bump ..).trans h4)
      · exact h4
  next => rfl

theorem Dev.endings_cancelStage (d : Dev) (id i cause : Nat) : (d.cancelStage id i cause).endings = d.endings := by
  unfold Dev.cancelStage
  split
  next q _ =>
    refine foldl_keep (P := Dev.endings) (fun e c => ?_) _ d
    dsimp only
    split_ifs
    · exact e.endings_chargeUpd ..
    · exact e.endings_cancelCharge ..
  next => rfl

theorem Dev.query_queryUpd_of_id (d : Dev) (id : Nat) {f : Query → Query} (hf : ∀ q, (f q).id = q.id) : (d.queryUpd id f).query id = (d.query id).map f :=
  find?_updWhere (fun q : Query => q.id == id) f (fun q hq => by rw [hf]; exact hq) _

/-- A query that runs on ends as it is told. -/
theorem Dev.failAt_ends {d : Dev} {id : Nat} {q : Query} (hq : d.query id = some q) (he : q.ending = none) (status stage : Nat) :
    ((d.failAt id status stage).query id).bind (·.ending) = some { status := status, detail := stage } := by
  unfold Dev.failAt Dev.endQuery
  rw [hq]
  dsimp only
  rw [he, if_neg (show ¬ (none : Option Ending).isSome = true from Bool.false_ne_true), Dev.query_ending,
    foldl_keep (P := Dev.endings) (fun e i => e.endings_cancelStage id i 1), ← Dev.query_ending, Dev.query_queryUpd_of_id _ _ (by exact fun _ => rfl), hq]
  rfl

section
variable {d : Dev}

/-- CLOSE with reason 2 ends the exchange's one query. -/
theorem Dev.vxpClose_ends {k : VPkt} {a : Assoc} {v : VIn} {id i : Nat} (h : d.lets k 10 a v) (hh : a.had v.psn = false) (hb : d.flowsBegun v.src v.dst)
    (h2 : fieldAt v.body 4 2 = 2) (hx : d.exchIds (fieldAt v.body 0 4) = [(id, i)]) :
    d.vxpClose k = (((d.heard k v).gotNote v.src v.dst v.psn).failAt id 0x2042 i).advance id := by
  obtain ⟨hgot, -, htr⟩ := Dev.gotPsn_heard h (Dev.flowsBegun_beginsNone hb _)
  obtain ⟨-, -, -, -, hq, -⟩ := Dev.traffic_eq htr
  have hids : ((d.heard k v).gotNote v.src v.dst v.psn).exchIds (fieldAt v.body 0 4) = [(id, i)] := by
    rw [← hx]
    unfold Dev.exchIds
    rw [hq]
  rw [Dev.vxpClose, Dev.arrive_lets h (by decide) (by decide), hgot]
  dsimp only
  rw [hh, h2, if_neg (by decide), hids]
  rfl

/-- A peer silent for LOST_MS, whose one query sends to it. -/
theorem Dev.peerLost_ends {peer : Nat} {q : Query} (ha : d.fab.assocs.any (fun a => a.peer == peer))
    (hl : ∀ a ∈ d.fab.assocs, a.peer = peer → a.lastRx + 1000 * d.regField 0x0250000C 15 0 ≤ d.timeUs) (hq : d.qry.queries = [q])
    (h1 : q.image.stages.length = 1) (ho : (q.image.stages.getD 0 {}).op = 0x11) (hp : peer ∈ q.sendMap 0) :
    d.peerLost peer = (d.failAt q.id 0x5007 0).advance q.id := by
  have hgo : ¬ ((d.fab.assocs.filter (fun a => a.peer == peer)).isEmpty ||
      (d.fab.assocs.filter (fun a => a.peer == peer)).any (fun a => decide (d.timeUs < a.lastRx + 1000 * d.regField 0x0250000C 15 0))) = true := by
    have hsome : (d.fab.assocs.filter (fun a => a.peer == peer)).isEmpty = false := by
      obtain ⟨a, hm, hpa⟩ := List.any_eq_true.1 ha
      rw [List.isEmpty_eq_false_iff]
      exact List.ne_nil_of_mem (List.mem_filter.2 ⟨hm, hpa⟩)
    have hlate : (d.fab.assocs.filter (fun a => a.peer == peer)).any (fun a => decide (d.timeUs < a.lastRx + 1000 * d.regField 0x0250000C 15 0)) = false := by
      rw [List.any_eq_false]
      intro a hm
      obtain ⟨hmem, hpa⟩ := List.mem_filter.1 hm
      have := hl a hmem (by simpa using hpa)
      simpa using this
    rw [hsome, hlate]
    decide
  refine (if_neg hgo).trans ?_
  have hhit : (List.range q.image.stages.length).filter (fun i =>
      ((q.image.stages.getD i {}).op == 0x11 && (q.sendMap i).contains peer) || ((q.image.stages.getD i {}).op == 0x12 && (q.senders i).contains peer)) = [0] := by
    rw [h1]
    exact List.filter_cons_of_pos (by rw [ho, List.contains_iff_mem.2 hp]; rfl)
  rw [hq]
  dsimp only [List.map]
  rw [hhit]
  rfl

end

/-- Settles O19: the association and the flows of RESUME, the points of RESUME_ACK, and the query that a CLOSE or a lost peer ends (`failAt_ends`). -/
theorem adoptedAndLost : Obligations.AdoptedAndLost := by
  refine ⟨fun s t _ _ _ _ h hh hb hf hn hs _ => effects_run rfl (Dev.vxpResume_again (d := s.dev.at t) h hh hb hf hn hs),
    fun s t _ _ _ _ h hh hb hf h1 he hst hn hs hsent =>
      effects_run rfl (Dev.vxpResumeAck_frees (d := s.dev.at t) h hh hb hf h1 he hst hn hs hsent), ?close, ?lost⟩
  case close =>
    intro s t k a v id i q h hh hb h2 hx hq he
    have h0 : (s.dev.at t).lets k 10 a v := h
    obtain ⟨-, -, htr⟩ := Dev.gotPsn_heard h0 (Dev.flowsBegun_beginsNone (d := s.dev.at t) hb _)
    obtain ⟨-, -, -, -, hqr, -⟩ := Dev.traffic_eq htr
    refine ⟨(((s.dev.at t).heard k v).gotNote v.src v.dst v.psn).failAt id 0x2042 i, ?_, Dev.failAt_ends (q := q) ?_ he _ _⟩
    · dsimp only
      rw [← Dev.vxpClose_ends (d := s.dev.at t) h0 hh hb h2 hx]
      rfl
    · unfold Dev.query
      rw [hqr]
      exact hq
  case lost =>
    intro s t peer q ha hl hq he h1 ho hp
    refine ⟨(s.dev.at t).failAt q.id 0x5007 0, ?_, Dev.failAt_ends (q := q) ?_ he _ _⟩
    · dsimp only
      rw [← Dev.peerLost_ends (d := s.dev.at t) ha hl hq h1 ho hp]
      rfl
    · unfold Dev.query
      rw [show (s.dev.at t).qry.queries = [q] from hq]
      exact List.find?_cons_of_pos (by simp)

end Sys2Proof.Machine

/-!
PROOF. What the twins tell each other (17_twin.md): HOLD as a report alone (O38).
-/
namespace Sys2Proof.Machine

/-! ### HOLD (R68): the report alone -/

/-- A paired device with one table space, its link up. -/
def pairedHolds : State := { dev := { twin := { state := 3, up0 := true }, store := { spaces := [{ id := 1, x := 0 }] } } }

/-- HOLD with hold number 0 is a report alone: no hold is kept. -/
theorem twinHold_report : ((pairedHolds.dev.at 0).twinHold 0 0 { id := 0, x := 0, ts := 1, epoch := 0 } true 0 0 0).twin.holds = [] := rfl

/-- Refutes O38: HOLD with number 0 reports the lowest epoch alone, and takes no hold. -/
theorem not_twinFrames : ¬ Obligations.TwinFrames := by
  unfold Obligations.TwinFrames
  rintro ⟨_, _, _, _, _, _, _, _, _, _, _, hhold, _⟩
  have hgives := hhold pairedHolds 0 0 { id := 0, x := 0, ts := 1, epoch := 0 } 0 0 0 ⟨rfl, rfl⟩ rfl rfl (by decide)
  obtain ⟨hholds, _⟩ := gives_of_run (f := fun d => d.twinHold 0 0 { id := 0, x := 0, ts := 1, epoch := 0 } true 0 0 0) rfl hgives
  rw [twinHold_report] at hholds
  cases hholds

end Sys2Proof.Machine

/-!
PROOF. Cancellation and restart of charges (R310, R316, R327, R375, R587).
-/
namespace Sys2Proof.Machine

/-! ### What a unit at its boundary, an engine and the traces keep -/

/-- A unit brought to a step boundary: its own state, and registers. -/
theorem Dev.toBoundary_keep {α : Type} (P : Dev → α) {h : Nat} (hr : ∀ d a w, P (Dev.setReg d a w) = P d) (ht : ∀ (d : Dev) t, P { d with tally := t } = P d)
    (hu : ∀ (d : Dev) x, P (d.hearthUpd h (fun k => { k with exu := x })) = P d) (d : Dev) : P (d.toBoundary h) = P d := by
  unfold Dev.toBoundary
  split
  · rfl
  · dsimp only
    split_ifs
    · rfl
    · exact (Dev.exuEvents_keep P hr ht ..).trans (hu d _)

theorem Dev.qry_of_core {d e : Dev} (h : e.qry.core = d.qry.core) : e.qry.queries = d.qry.queries ∧ e.qry.hearths = d.qry.hearths ∧ e.qry.vf = d.qry.vf := by
  have hq := congrArg QrySt.queries h
  have hh := congrArg QrySt.hearths h
  have hv := congrArg QrySt.vf h
  exact ⟨hq, hh, hv⟩

theorem Dev.query_congr {d e : Dev} (h : e.qry.queries = d.qry.queries) (id : Nat) : e.query id = d.query id := by
  unfold Dev.query
  rw [h]

theorem Dev.charge_congr {d e : Dev} (h : e.qry.queries = d.qry.queries) (r : CRef) : e.charge r = d.charge r := by
  unfold Dev.charge
  rw [Dev.query_congr h]

theorem Dev.hearth_congr {d e : Dev} (h : e.qry.hearths = d.qry.hearths) (k : Nat) : e.hearth k = d.hearth k := by
  unfold Dev.hearth
  rw [h]

theorem Dev.dropCmds_core (d : Dev) (p : DCmd → Bool) : (d.dropCmds p).qry.core = d.qry.core := by
  have hset : ∀ (e : Dev) l es, (e.setDelays l es).qry.core = e.qry.core := fun e l es => by
    unfold Dev.setDelays
    rw [Dev.bump_qry]
    rfl
  unfold Dev.dropCmds
  exact (hset ..).trans (hset ..)

theorem Dev.reg_dropCmds (d : Dev) (p : DCmd → Bool) {a : Nat} (h : a ≠ 0x02400090) : (d.dropCmds p).reg a = d.reg a := by
  have hset : ∀ (e : Dev) l es, (e.setDelays l es).reg a = e.reg a := fun e l es => by
    unfold Dev.setDelays
    exact Dev.reg_bump_ne _ _ _ _ h
  unfold Dev.dropCmds
  exact (hset ..).trans (hset ..)

/-- An attempt that ends: the hearth is free, and its function's virtual time grows. -/
theorem Dev.endAttempt_spec (d : Dev) (h : Nat) (q : Query) (r : CRef) (clocks : Nat) : (d.endAttempt h q r clocks).qry =
    ((d.hearthUpd h (fun x => { x with running := none, exu := x.exu.halt })).addV q.x clocks).qry ∧ (d.endAttempt h q r clocks).regs = d.regs := by
  have heng : ∀ (e : Dev) b u, (e.engLeave b u).qry = e.qry ∧ (e.engLeave b u).regs = e.regs := fun e b u => by
    rw [Dev.engLeave_engOnly e b u]
    exact ⟨rfl, rfl⟩
  unfold Dev.endAttempt
  exact ⟨(heng ..).1.trans (heng ..).1, (heng ..).2.trans (heng ..).2⟩

/-! ### One charge changed -/

theorem find?_map_key {α : Type} {p : α → Bool} {m : α → α} (hm : ∀ a, p (m a) = p a) (l : List α) : (l.map m).find? p = (l.find? p).map m := by
  rw [List.find?_map]
  refine congrArg (Option.map m) (congrArg (fun g => List.find? g l) (funext fun a => ?_))
  exact hm a

/-- A change of some queries that keeps their numbers and stages keeps their charges. -/
theorem Dev.charge_queryUpd (d : Dev) (id : Nat) {f : Query → Query} (hf : ∀ q, (f q).id = q.id ∧ (f q).stages = q.stages) (r : CRef) :
    (d.queryUpd id f).charge r = d.charge r := by
  unfold Dev.charge Dev.query
  change (List.find? _ (updWhere _ f d.qry.queries)).bind _ = _
  unfold updWhere
  rw [find?_map_key (m := fun q => if q.id == id then f q else q) (fun q => by split_ifs <;> simp [(hf q).1])]
  rw [Option.bind_map]
  refine congrArg (Option.bind _) (funext fun q => ?_)
  dsimp only [Function.comp]
  split_ifs
  · unfold Query.stage
    rw [(hf q).2]
  · rfl

/-- What a change of one charge does to another: it is kept, or changed as that one. -/
theorem Dev.charge_chargeUpd_or {d : Dev} {r0 : CRef} {c : Charge} (h : d.charge r0 = some c) (r : CRef) {f : Charge → Charge}
    (hf : ∀ c, (f c).idx = c.idx ∧ (f c).work = c.work) : ∃ c', (d.chargeUpd r f).charge r0 = some c' ∧ (c' = c ∨ c' = f c) := by
  obtain ⟨q, hq, hc⟩ := Option.bind_eq_some_iff.1 h
  have hstage : ∀ i, (q.stageUpd r.stage (fun st => st.chargeUpd r.gather r.idx f)).stage i = q.stage i ∨
      (q.stageUpd r.stage (fun st => st.chargeUpd r.gather r.idx f)).stage i = (q.stage i).chargeUpd r.gather r.idx f := fun i => by
    unfold Query.stage Query.stageUpd updAt
    simp only [List.getD_eq_getElem?_getD, List.getElem?_modify]
    split_ifs
    · cases hs : q.stages[i]? with
      | none => exact .inl rfl
      | some st => exact .inr rfl
    · exact .inl (by simp)
  have hfind : ∀ st : StageRun, st.charge r0.gather r0.idx = some c → ∃ c', (st.chargeUpd r.gather r.idx f).charge r0.gather r0.idx = some c' ∧ (c' = c ∨ c' = f c) :=
    fun st hst => by
      refine ⟨if c.is r.gather r.idx then f c else c, ?_, ?_⟩
      · unfold StageRun.charge StageRun.chargeUpd updWhere
        dsimp only
        rw [find?_map_key (m := fun c : Charge => if c.is r.gather r.idx then f c else c)
          (fun c => by unfold Charge.is; split_ifs <;> simp [(hf c).1, (hf c).2])]
        unfold StageRun.charge at hst
        rw [hst]
        rfl
      · split_ifs
        · exact .inr rfl
        · exact .inl rfl
  have hq' : (d.chargeUpd r f).query r0.query = some (if q.id == r.query then q.stageUpd r.stage (fun st => st.chargeUpd r.gather r.idx f) else q) := by
    unfold Dev.query
    change List.find? _ (updWhere _ _ d.qry.queries) = _
    unfold updWhere
    rw [find?_map_key (m := fun q : Query => if q.id == r.query then q.stageUpd r.stage (fun st => st.chargeUpd r.gather r.idx f) else q)
      (fun q => by split_ifs <;> rfl)]
    unfold Dev.query at hq
    rw [hq]
    rfl
  unfold Dev.charge
  rw [hq']
  dsimp only [Option.bind]
  split_ifs
  · rcases hstage r0.stage with hst | hst
    · rw [hst]
      exact ⟨c, hc, .inl rfl⟩
    · rw [hst]
      exact hfind _ hc
  · exact ⟨c, hc, .inl rfl⟩

/-- The charge that is changed. -/
theorem Dev.charge_chargeUpd {d : Dev} {r : CRef} {q : Query} {c : Charge} (hq : d.query r.query = some q) (hc : d.charge r = some c)
    (hl : r.stage < q.stages.length) {f : Charge → Charge} (hf : ∀ c, (f c).idx = c.idx ∧ (f c).work = c.work) :
    (d.chargeUpd r f).query r.query = some (q.stageUpd r.stage (fun st => st.chargeUpd r.gather r.idx f)) ∧ (d.chargeUpd r f).charge r = some (f c) := by
  have hq' : (d.chargeUpd r f).query r.query = some (q.stageUpd r.stage (fun st => st.chargeUpd r.gather r.idx f)) := by
    refine (d.query_queryUpd_of_id r.query (f := fun q => q.stageUpd r.stage (fun st => st.chargeUpd r.gather r.idx f)) (fun _ => rfl)).trans ?_
    rw [hq]
    rfl
  refine ⟨hq', ?_⟩
  unfold Dev.charge at hc ⊢
  rw [hq] at hc
  rw [hq']
  dsimp only [Option.bind] at hc ⊢
  have hstage : (q.stageUpd r.stage (fun st => st.chargeUpd r.gather r.idx f)).stage r.stage = (q.stage r.stage).chargeUpd r.gather r.idx f := by
    unfold Query.stage Query.stageUpd updAt
    simp only [List.getD_eq_getElem?_getD, List.getElem?_modify, if_true, List.getElem?_eq_getElem hl]
    rfl
  rw [hstage]
  refine (find?_updWhere (fun c : Charge => c.is r.gather r.idx) f (fun c h => ?_) _).trans ?_
  · unfold Charge.is at h ⊢
    rw [(hf c).1, (hf c).2]
    exact h
  · exact (congrArg (Option.map f) hc).trans rfl

/-! ### Cancellation (R310) -/

/-- A cancelled charge and the hearth it has left. -/
def Dev.cancelledOn (d : Dev) (r : CRef) (c : Charge) : Dev :=
  let d1 := d.chargeUpd r (fun c => { c with state := .cancelled, input := [], rows := [], out := [], err := [], cancel := none })
  match c.hearth with
  | some h => d1.hearthUpd h (fun x =>
      { x with slots := x.slots.filter (· != r), running := if x.running = some r then none else x.running
               exu := if x.running = some r then x.exu.halt else x.exu })
  | none => d1

/-- What a cancellation changes of the queries and the hearths; a charge that is no more live is left alone. -/
theorem Dev.cancelCharge_core (d : Dev) (r : CRef) (cause : Nat) : (d.cancelCharge r cause).qry.core = d.qry.core ∨
    ∃ c, d.charge r = some c ∧ (d.cancelCharge r cause).qry.core = (d.cancelledOn r c).qry.core := by
  unfold Dev.cancelCharge
  split
  next q c hq hc =>
    split
    · exact .inl rfl
    · refine .inr ⟨c, hc, ?_⟩
      extract_lets ord d1 d2 d3 d4
      have h4 : d4.qry.core = d2.qry.core := by
        unfold d4 d3
        split_ifs
        · exact Dev.trace_core ..
        · exact (Dev.dropCmds_core ..).trans (Dev.trace_core ..)
      split_ifs
      · refine (Dev.trace_core ..).trans ?_
        rw [Dev.bump_qry]
        exact h4
      · exact h4
  next => exact .inl rfl

theorem Dev.cancelCharge_live {d : Dev} {r : CRef} {q : Query} {c : Charge} (hq : d.query r.query = some q) (hc : d.charge r = some c) (hl : c.state.live = true)
    (cause : Nat) : (d.cancelCharge r cause).qry.core = (d.cancelledOn r c).qry.core := by
  unfold Dev.cancelCharge
  split
  next q' c' hq' hc' =>
    obtain rfl : c' = c := Option.some.inj (hc'.symm.trans hc)
    rw [if_neg (by rw [hl]; decide)]
    extract_lets ord d1 d2 d3 d4
    have h4 : d4.qry.core = d2.qry.core := by
      unfold d4 d3
      split_ifs
      · exact Dev.trace_core ..
      · exact (Dev.dropCmds_core ..).trans (Dev.trace_core ..)
    split_ifs
    · refine (Dev.trace_core ..).trans ?_
      rw [Dev.bump_qry]
      exact h4
    · exact h4
  next h => exact absurd hc (h q c hq)

/-- The charge as a cancellation leaves it. -/
def Charge.cancelled (c : Charge) : Charge := { c with state := .cancelled, input := [], rows := [], out := [], err := [], cancel := none }

theorem Dev.charge_cancelledOn (d : Dev) (r : CRef) (c : Charge) (r0 : CRef) : (d.cancelledOn r c).charge r0 = (d.chargeUpd r Charge.cancelled).charge r0 := by
  unfold Dev.cancelledOn
  split <;> rfl

theorem Dev.vf_cancelledOn (d : Dev) (r : CRef) (c : Charge) : (d.cancelledOn r c).qry.vf = d.qry.vf := by
  unfold Dev.cancelledOn
  split <;> rfl

/-- A hearth that runs nothing goes on so. -/
theorem Dev.idle_cancelledOn {d : Dev} {k : Nat} (hk : (d.hearth k).running = none) (r : CRef) (c : Charge) : ((d.cancelledOn r c).hearth k).running = none := by
  unfold Dev.cancelledOn
  split
  next h _ =>
    by_cases hkh : k = h
    · subst hkh
      refine (congrArg Hearth.running (Dev.hearth_hearthUpd ..)).trans ?_
      change (if (d.hearth k).running = some r then none else (d.hearth k).running) = none
      rw [hk]
      rfl
    · exact (congrArg Hearth.running (Dev.hearth_hearthUpd_ne _ _ _ _ hkh)).trans hk
  next => exact hk

/-! ### An attempt that ends (R308, R316) -/

theorem Dev.idle_endAttempt (d : Dev) (h : Nat) (q : Query) (r : CRef) (clocks : Nat) : ((d.endAttempt h q r clocks).hearth h).running = none := by
  have he := congrArg QrySt.hearths (d.endAttempt_spec h q r clocks).1
  exact congrArg Hearth.running ((Dev.hearth_congr (d := d.hearthUpd h (fun x => { x with running := none, exu := x.exu.halt })) he h).trans
    (Dev.hearth_hearthUpd ..))

theorem Dev.queries_endAttempt (d : Dev) (h : Nat) (q : Query) (r : CRef) (clocks : Nat) : (d.endAttempt h q r clocks).qry.queries = d.qry.queries := by
  have he := congrArg QrySt.queries (d.endAttempt_spec h q r clocks).1
  exact he

theorem Dev.vOf_endAttempt (d : Dev) (h : Nat) (q : Query) (r : CRef) (clocks : Nat) :
    (d.endAttempt h q r clocks).vOf q.x = (d.vOf q.x + clocks * 65536 / max 1 (d.share q.x).hearthWeight) % 2 ^ 64 := by
  unfold Dev.vOf
  rw [congrArg QrySt.vf (d.endAttempt_spec h q r clocks).1]
  refine (tabGet_upd 0 d.qry.vf q.x q.x (fun v => (v + clocks * 65536 / max 1 ((d.hearthUpd h _).share q.x).hearthWeight) % 2 ^ 64)).trans ?_
  exact if_pos rfl

/-! ### What a cancelled charge and an idle hearth stay -/

/-- The charge `r` is cancelled, and the hearth `h` runs nothing. -/
def Dev.gone (h : Nat) (r : CRef) (d : Dev) : Prop := (d.hearth h).running = none ∧ (d.charge r).map (·.state) = some .cancelled

theorem Dev.gone_congr {d e : Dev} {h : Nat} {r : CRef} (hq : e.qry.core = d.qry.core) (hd : d.gone h r) : e.gone h r := by
  obtain ⟨hqs, hhs, -⟩ := Dev.qry_of_core hq
  unfold Dev.gone at hd ⊢
  rw [Dev.hearth_congr hhs, Dev.charge_congr hqs]
  exact hd

theorem Dev.gone_chargeUpd {d : Dev} {h : Nat} {r : CRef} (hd : d.gone h r) (r1 : CRef) {f : Charge → Charge}
    (hf : ∀ c, (f c).idx = c.idx ∧ (f c).work = c.work) (hs : ∀ c, c.state = .cancelled → (f c).state = .cancelled) : (d.chargeUpd r1 f).gone h r := by
  obtain ⟨hi, hc⟩ := hd
  obtain ⟨c, hc, hst⟩ := Option.map_eq_some_iff.1 hc
  refine ⟨hi, ?_⟩
  obtain ⟨c', hc', he⟩ := Dev.charge_chargeUpd_or hc r1 hf
  rw [hc']
  rcases he with rfl | rfl
  · exact congrArg some hst
  · exact congrArg some (hs c hst)

theorem Dev.gone_cancelCharge {d : Dev} {h : Nat} {r : CRef} (hd : d.gone h r) (r1 : CRef) (cause : Nat) : (d.cancelCharge r1 cause).gone h r := by
  rcases d.cancelCharge_core r1 cause with he | ⟨c, -, he⟩
  · exact Dev.gone_congr he hd
  · refine Dev.gone_congr he ⟨Dev.idle_cancelledOn hd.1 r1 c, ?_⟩
    rw [Dev.charge_cancelledOn]
    exact (Dev.gone_chargeUpd hd r1 (f := Charge.cancelled) (fun _ => ⟨rfl, rfl⟩) (fun _ _ => rfl)).2

theorem foldl_holds {α β : Type} {P : β → Prop} {f : β → α → β} (h : ∀ b a, P b → P (f b a)) (l : List α) (b : β) (hb : P b) : P (l.foldl f b) := by
  induction l generalizing b with
  | nil => exact hb
  | cons a r ih => exact ih _ (h b a hb)

theorem Dev.gone_cancelStage {d : Dev} {h : Nat} {r : CRef} (hd : d.gone h r) (id i cause : Nat) : (d.cancelStage id i cause).gone h r := by
  unfold Dev.cancelStage
  split
  next q _ =>
    refine foldl_holds (P := Dev.gone h r) (fun e c he => ?_) _ d hd
    dsimp only
    split_ifs
    · exact Dev.gone_chargeUpd he _ (fun _ => ⟨rfl, rfl⟩) (fun _ hc => hc)
    · exact Dev.gone_cancelCharge he ..
  next => exact hd

theorem Dev.gone_failAt {d : Dev} {h : Nat} {r : CRef} (hd : d.gone h r) (id status stage : Nat) : (d.failAt id status stage).gone h r := by
  unfold Dev.failAt Dev.endQuery
  split
  · split
    · exact hd
    · refine foldl_holds (P := Dev.gone h r) (fun e i he => Dev.gone_cancelStage he id i 1) _ _ ⟨hd.1, ?_⟩
      rw [Dev.charge_queryUpd _ _ (by exact fun _ => ⟨rfl, rfl⟩)]
      exact hd.2
  · exact hd

/-- A charge that a hearth ran, cancelled where its attempt has ended. -/
theorem Dev.cancelCharge_ended {d : Dev} {h : Nat} {r : CRef} {q : Query} {c : Charge} (hi : (d.hearth h).running = none) (hq : d.query r.query = some q)
    (hc : d.charge r = some c) (hl : r.stage < q.stages.length) (hs : c.state = .running) (cause : Nat) :
    ((d.cancelCharge r cause).hearth h).running = none ∧ (d.cancelCharge r cause).charge r = some c.cancelled ∧
      (d.cancelCharge r cause).qry.vf = d.qry.vf := by
  obtain ⟨hqs, hhs, hv⟩ := Dev.qry_of_core (Dev.cancelCharge_live hq hc (by rw [hs]; rfl) cause)
  refine ⟨?_, ?_, hv.trans (Dev.vf_cancelledOn ..)⟩
  · rw [Dev.hearth_congr hhs]
    exact Dev.idle_cancelledOn hi r c
  · rw [Dev.charge_congr hqs, Dev.charge_cancelledOn]
    exact (Dev.charge_chargeUpd hq hc hl (f := Charge.cancelled) (fun _ => ⟨rfl, rfl⟩)).2

/-- CANCEL: the attempt ends at the step boundary and its charge is cancelled (R310). -/
theorem Dev.cancelRunning_eq {d : Dev} {h : Nat} {r : CRef} {q : Query} {c : Charge} {cause : Nat} (hr : (d.hearth h).running = some r)
    (hq : d.query r.query = some q) (hc : d.charge r = some c) (hcc : c.cancel = some cause) (clocks : Nat) :
    d.cancelRunning h clocks = ((d.endAttempt h q r clocks).cancelCharge r cause).advance r.query := by
  unfold Dev.cancelRunning
  rw [hr]
  dsimp only
  rw [hq, hc]
  dsimp only [Option.bind]
  rw [hcc]

/-- What a step boundary keeps: what the hearth runs, the queries, the virtual times and the shares. -/
theorem Dev.toBoundary_spec (d : Dev) (h : Nat) : ((d.toBoundary h).hearth h).running = (d.hearth h).running ∧ (d.toBoundary h).qry.queries = d.qry.queries ∧
    (d.toBoundary h).qry.vf = d.qry.vf ∧ (d.toBoundary h).fn = d.fn :=
  ⟨Dev.toBoundary_keep (fun d => (d.hearth h).running) (fun _ _ _ => rfl) (fun _ _ => rfl)
      (fun d x => (congrArg Hearth.running (d.hearth_hearthUpd h (fun k => { k with exu := x }))).trans rfl) d,
    Dev.toBoundary_keep (fun d => d.qry.queries) (fun _ _ _ => rfl) (fun _ _ => rfl) (fun _ _ => rfl) d,
    Dev.toBoundary_keep (fun d => d.qry.vf) (fun _ _ _ => rfl) (fun _ _ => rfl) (fun _ _ => rfl) d,
    Dev.toBoundary_keep (fun d => d.fn) (fun _ _ _ => rfl) (fun _ _ => rfl) (fun _ _ => rfl) d⟩

/-! ### Restart (R327) -/

/-- The hearth of an attempt that has ended with a fault, its reads given up. -/
def Dev.attemptOver (d : Dev) (h : Nat) (q : Query) (r : CRef) (clocks : Nat) : Dev :=
  ((d.endAttempt h q r clocks).dropCmds (fun k => k.use == .charge r.query r.stage r.idx)).hearthUpd h
    (fun x => { x with exu := { x.exu with unres := false, pend := none } })

theorem Dev.attemptOver_spec (d : Dev) (h : Nat) (q : Query) (r : CRef) (clocks : Nat) : ((d.attemptOver h q r clocks).hearth h).running = none ∧
    ((d.attemptOver h q r clocks).hearth h).exu.unres = false ∧ (d.attemptOver h q r clocks).qry.queries = d.qry.queries ∧
    ∀ a, a ≠ 0x02400090 → (d.attemptOver h q r clocks).reg a = d.reg a := by
  obtain ⟨hqs, hhs, -⟩ := Dev.qry_of_core ((d.endAttempt h q r clocks).dropCmds_core (fun k => k.use == .charge r.query r.stage r.idx))
  have hreg : ∀ a, a ≠ 0x02400090 → ((d.endAttempt h q r clocks).dropCmds (fun k => k.use == .charge r.query r.stage r.idx)).reg a = d.reg a := fun a ha => by
    rw [Dev.reg_dropCmds _ _ ha]
    unfold Dev.reg
    rw [(d.endAttempt_spec h q r clocks).2]
  have hi := (congrArg Hearth.running (Dev.hearth_congr hhs h)).trans (d.idle_endAttempt h q r clocks)
  rw [d.queries_endAttempt] at hqs
  unfold Dev.attemptOver
  generalize (d.endAttempt h q r clocks).dropCmds (fun k => k.use == .charge r.query r.stage r.idx) = e at hqs hreg hi
  exact ⟨(congrArg Hearth.running (Dev.hearth_hearthUpd ..)).trans hi, congrArg (fun x => x.exu.unres) (Dev.hearth_hearthUpd ..), hqs, hreg⟩

/-- An attempt that returns its charge to READY. -/
theorem Dev.restart_again {d : Dev} {h : Nat} {r : CRef} {q : Query} {c : Charge} (hr : (d.hearth h).running = some r) (hq : d.query r.query = some q)
    (hc : d.charge r = some c) (hn : c.cancel = none) (ht : c.tries < 3) (clocks : Nat) :
    d.restart h 1 clocks = ((((d.attemptOver h q r clocks).chargeUpd r (fun k => { k with
      state := .ready, hearth := none, todo := none, got := [], lost := none, tries := c.tries + 1, failedOn := k.failedOn ++ [h] })).bump 0x0240000C 1).trace
        (q.trec r.stage r.idx 0x0A 1 (c.tries + 1) 0 h)) := by
  unfold Dev.restart
  rw [hr]
  dsimp only
  rw [hq, hc]
  dsimp only
  rw [if_neg (show ¬ c.cancel.isSome = true by rw [hn]; exact Bool.false_ne_true), if_pos rfl, if_neg (show ¬ 4 ≤ c.tries + 1 by omega)]
  rfl

/-- The fourth attempt that fails fails the query. -/
theorem Dev.restart_last {d : Dev} {h : Nat} {r : CRef} {q : Query} {c : Charge} (hr : (d.hearth h).running = some r) (hq : d.query r.query = some q)
    (hc : d.charge r = some c) (hn : c.cancel = none) (ht : c.tries = 3) (clocks : Nat) :
    d.restart h 1 clocks = ((((d.attemptOver h q r clocks).cancelCharge r 4).bump 0x02400014 1).failAt r.query 0x5006 r.stage).advance r.query := by
  unfold Dev.restart
  rw [hr]
  dsimp only
  rw [hq, hc]
  dsimp only
  rw [if_neg (show ¬ c.cancel.isSome = true by rw [hn]; exact Bool.false_ne_true), if_pos rfl, if_pos (show 4 ≤ c.tries + 1 by omega)]
  rfl

/-- What a command that runs at a time does before what comes after it. -/
theorem after_run {post f : Dev → Dev} {i : Instr} {s : State} {t : Nat} {P : Dev → Prop} {d : Dev} (he : exec i s = .next (s.run t f))
    (hf : f (s.dev.at t) = post d) (h : P d) : After post i s P := ⟨d, by rw [he, ← hf]; rfl, h⟩

theorem Dev.query_endAttempt (d : Dev) (h : Nat) (q : Query) (r : CRef) (clocks : Nat) (id : Nat) : (d.endAttempt h q r clocks).query id = d.query id :=
  Dev.query_congr (d.queries_endAttempt h q r clocks) id

theorem Dev.charge_endAttempt (d : Dev) (h : Nat) (q : Query) (r : CRef) (clocks : Nat) (r0 : CRef) : (d.endAttempt h q r clocks).charge r0 = d.charge r0 :=
  Dev.charge_congr (d.queries_endAttempt h q r clocks) r0

theorem cancel_ends {s : State} {t h clocks : Nat} {r : CRef} {q : Query} {c : Charge} {cause : Nat} (hr : (s.dev.hearth h).running = some r)
    (hq : s.dev.query r.query = some q) (hc : s.dev.charge r = some c) (hl : r.stage < q.stages.length) (hs : c.state = .running) (hcc : c.cancel = some cause) :
    After (fun d => (d.advance r.query).tidy) (.cancel t h clocks) s (fun d =>
      (d.hearth h).running = none ∧ (d.charge r).map (fun k => (k.state, k.out)) = some (.cancelled, []) ∧
      d.vOf q.x = (s.dev.vOf q.x + clocks * 65536 / max 1 (s.dev.share q.x).hearthWeight) % 2 ^ 64) := by
  obtain ⟨hb, hbq, hbv, hbf⟩ := (s.dev.at t).toBoundary_spec h
  have hr1 : (((s.dev.at t).toBoundary h).hearth h).running = some r := hb.trans hr
  have hq1 : ((s.dev.at t).toBoundary h).query r.query = some q := (Dev.query_congr hbq r.query).trans hq
  have hc1 : ((s.dev.at t).toBoundary h).charge r = some c := (Dev.charge_congr hbq r).trans hc
  have hv1 : ((s.dev.at t).toBoundary h).vOf q.x = s.dev.vOf q.x := by
    unfold Dev.vOf
    rw [hbv]
    rfl
  have hf1 : ((s.dev.at t).toBoundary h).share q.x = s.dev.share q.x := by
    unfold Dev.share
    rw [hbf]
    rfl
  refine after_run (f := fun d => ((d.toBoundary h).cancelRunning h clocks).tidy) rfl
    (congrArg Dev.tidy (Dev.cancelRunning_eq hr1 hq1 hc1 hcc clocks)) ?_
  · generalize hd1 : (s.dev.at t).toBoundary h = d1 at hr1 hq1 hc1 hv1 hf1
    obtain ⟨hi, hch, hv⟩ := Dev.cancelCharge_ended (d1.idle_endAttempt h q r clocks) ((d1.query_endAttempt h q r clocks r.query).trans hq1)
      ((d1.charge_endAttempt h q r clocks r).trans hc1) hl hs cause
    refine ⟨hi, by rw [hch]; rfl, ?_⟩
    have := d1.vOf_endAttempt h q r clocks
    rw [hv1, hf1] at this
    unfold Dev.vOf at this ⊢
    rw [hv]
    exact this

theorem restart_returns {s : State} {t h clocks : Nat} {r : CRef} {q : Query} {c : Charge} (hu : (s.dev.hearth h).exu.unres = true)
    (hr : (s.dev.hearth h).running = some r) (hq : s.dev.query r.query = some q) (hc : s.dev.charge r = some c) (hl : r.stage < q.stages.length)
    (hn : c.cancel = none) (ht : c.tries < 3) :
    Effects (.restart t h clocks) s (fun d =>
      (d.hearth h).running = none ∧ (d.hearth h).exu.unres = false ∧
      (d.charge r).map (fun k => (k.state, k.tries, k.failedOn, k.hearth)) = some (.ready, c.tries + 1, c.failedOn ++ [h], none) ∧
      d.regN 0x0240000C = satAdd 32 (s.dev.regN 0x0240000C) 1) := by
  refine effects_run (t := t) (f := fun d => d.restartFault h clocks) rfl ?_
  have he : (s.dev.at t).restartFault h clocks = (s.dev.at t).restart h 1 clocks := if_pos hu
  rw [he, Dev.restart_again (d := s.dev.at t) hr hq hc hn ht clocks]
  obtain ⟨hi, hun, hqs, hreg⟩ := (s.dev.at t).attemptOver_spec h q r clocks
  generalize hd1 : (s.dev.at t).attemptOver h q r clocks = d1 at hi hun hqs hreg
  have hq1 : d1.query r.query = some q := (Dev.query_congr (d := s.dev) hqs r.query).trans hq
  have hc1 : d1.charge r = some c := (Dev.charge_congr (d := s.dev) hqs r).trans hc
  obtain ⟨-, hch⟩ := Dev.charge_chargeUpd hq1 hc1 hl (f := fun k => { k with
      state := .ready, hearth := none, todo := none, got := [], lost := none, tries := c.tries + 1, failedOn := k.failedOn ++ [h] }) (fun _ => ⟨rfl, rfl⟩)
  generalize hd2 : d1.chargeUpd r _ = d2 at hch
  have hh2 : d2.hearth h = d1.hearth h := by
    rw [← hd2]
    rfl
  have hr2 : ∀ a, d2.reg a = d1.reg a := fun a => by
    rw [← hd2]
    rfl
  obtain ⟨hqs3, hhs3, -⟩ := Dev.qry_of_core (Dev.trace_core (d2.bump 0x0240000C 1) (q.trec r.stage r.idx 0x0A 1 (c.tries + 1) 0 h))
  rw [Dev.bump_qry] at hqs3 hhs3
  rw [Dev.hearth_congr (d := d2) hhs3, Dev.charge_congr (d := d2) hqs3, hh2, hch]
  refine ⟨hi, hun, rfl, ?_⟩
  rw [Dev.regN_congr (Dev.trace_reg _ _ (.inl (by decide))), Dev.regN_bump_self, Dev.regN_congr ((hr2 _).trans (hreg _ (by decide)))]
  rfl

theorem restart_fails {s : State} {t h clocks : Nat} {r : CRef} {q : Query} {c : Charge} (hu : (s.dev.hearth h).exu.unres = true)
    (hr : (s.dev.hearth h).running = some r) (hq : s.dev.query r.query = some q) (hc : s.dev.charge r = some c) (hl : r.stage < q.stages.length)
    (hn : c.cancel = none) (ht : c.tries = 3) (hs : c.state = .running) (hend : q.ending = none) :
    After (fun d => (d.advance r.query).tidy) (.restart t h clocks) s (fun d =>
      (d.hearth h).running = none ∧ (d.charge r).map (·.state) = some .cancelled ∧
      (d.query r.query).bind (·.ending) = some { status := 0x5006, detail := r.stage }) := by
  obtain ⟨hi, hun, hqs, hreg⟩ := (s.dev.at t).attemptOver_spec h q r clocks
  have he : (s.dev.at t).restartFault h clocks = (s.dev.at t).restart h 1 clocks := if_pos hu
  refine after_run (f := fun d => (d.restartFault h clocks).tidy) rfl
    (congrArg Dev.tidy (he.trans (Dev.restart_last (d := s.dev.at t) hr hq hc hn ht clocks))) ?_
  · generalize hd1 : (s.dev.at t).attemptOver h q r clocks = d1 at hi hun hqs hreg
    have hq1 : d1.query r.query = some q := (Dev.query_congr (d := s.dev) hqs r.query).trans hq
    have hc1 : d1.charge r = some c := (Dev.charge_congr (d := s.dev) hqs r).trans hc
    obtain ⟨hi2, hc2, -⟩ := Dev.cancelCharge_ended hi hq1 hc1 hl hs 4
    have hg : ((d1.cancelCharge r 4).bump 0x02400014 1).gone h r := Dev.gone_congr (d := d1.cancelCharge r 4) (by rw [Dev.bump_qry]) ⟨hi2, by rw [hc2]; rfl⟩
    obtain ⟨hi3, hc3⟩ := Dev.gone_failAt hg r.query 0x5006 r.stage
    refine ⟨hi3, hc3, ?_⟩
    have hend2 : ((((d1.cancelCharge r 4).bump 0x02400014 1)).query r.query).bind (·.ending) = none := by
      rw [Dev.query_ending, Dev.endings_bump, Dev.endings_cancelCharge, ← Dev.query_ending, hq1]
      exact hend
    obtain ⟨c', hc', -⟩ := Option.map_eq_some_iff.1 hg.2
    obtain ⟨q', hq', -⟩ := Option.bind_eq_some_iff.1 hc'
    rw [hq'] at hend2
    exact Dev.failAt_ends hq' hend2 ..

/-! ### Collisions and poisoned data (R375, R587) -/

/-- The collision counters of a hearth stand in 0x240 to 0x2FF of its registers. -/
theorem Dev.spmConflict_reg (d : Dev) (h bank loser : Nat) {a : Nat} (ha : a < 0x02100240 + 0x1000 * h) : (d.spmConflict h bank loser).reg a = d.reg a := by
  unfold Dev.spmConflict
  dsimp only
  split_ifs
  · rfl
  · exact (Dev.reg_setReg_at ..).trans (if_neg (by omega))

/-- The collisions of an attempt change registers alone. -/
theorem Dev.spmMet_keep {α : Type} (P : Dev → α) (hr : ∀ d a w, P (Dev.setReg d a w) = P d) (ht : ∀ (d : Dev) t, P { d with tally := t } = P d)
    (d : Dev) (h : Nat) (l : List SpmMeet) : P (d.spmMet h l) = P d := by
  unfold Dev.spmMet
  rw [show ∀ (e : Dev) a n, P (e.bump a n) = P e from fun e a n => by
    unfold Dev.bump
    split
    · rfl
    · rw [hr, ht]]
  refine foldl_keep (P := P) (fun e m => ?_) l d
  unfold Dev.spmConflict
  dsimp only
  split_ifs
  · rfl
  · exact hr ..

/-- What an attempt meets is counted. -/
theorem Dev.regN_spmMet (d : Dev) (h : Nat) (l : List SpmMeet) :
    (d.spmMet h l).regN (0x02100218 + 0x1000 * h) = satAdd 32 (d.regN (0x02100218 + 0x1000 * h)) (l.filter (·.sameWord)).length := by
  unfold Dev.spmMet
  rw [Dev.regN_bump_self, Dev.regN_congr (foldl_keep (P := fun e => e.reg (0x02100218 + 0x1000 * h)) (fun e m => e.spmConflict_reg h m.bank m.loser (by omega)) l d)]

/-- The attempt that is lost to a fault that nothing resolves. -/
theorem Dev.attemptFault_spec (d : Dev) (h : Nat) : ((d.attemptFault h).hearth h).running = (d.hearth h).running ∧ ((d.attemptFault h).hearth h).exu.unres = true ∧
    ((d.attemptFault h).hearth h).quenched = (d.hearth h).quenched ∧ ((d.attemptFault h).hearth h).unresAt = (d.hearth h).unresAt ++ [d.opSec] ∧
    (d.attemptFault h).health.recovering = d.health.recovering ∧ ∀ a, a ≠ 0x02100024 + 0x1000 * h → (d.attemptFault h).reg a = d.reg a := by
  have hh : (d.attemptFault h).hearth h = { d.hearth h with exu := { (d.hearth h).exu with unres := true }, unresAt := (d.hearth h).unresAt ++ [d.opSec] } := by
    unfold Dev.attemptFault
    rw [Dev.hearth_congr (congrArg QrySt.hearths (Dev.bump_qry ..))]
    exact Dev.hearth_hearthUpd ..
  rw [hh]
  refine ⟨rfl, rfl, rfl, rfl, ?_, fun a ha => ?_⟩
  · obtain ⟨regs, tally, he⟩ := (d.hearthUpd h (fun k => { k with exu := { k.exu with unres := true }, unresAt := k.unresAt ++ [d.opSec] })).bump_only (0x02100024 + 0x1000 * h) 1
    unfold Dev.attemptFault
    rw [he]
    rfl
  · exact (Dev.reg_bump_ne _ _ _ _ ha).trans rfl

theorem recent_length_le (now : Nat) (l : List Nat) : (recent now l).length ≤ l.length := List.length_filter_le ..

/-- An attempt lost on a hearth that no recovery holds: the hearth waits for its recovery. -/
theorem Dev.onHearth_lost {d : Dev} {h : Nat} {f : Dev → Dev} {l : List SpmMeet} {r : CRef} (hf : f d = (d.spmMet h l).attemptFault h)
    (hr : (d.hearth h).running = some r) (hu : (d.hearth h).exu.unres = false) (h0 : (d.hearth h).unresAt = []) (hrec : d.recovers 1 h = false) :
    ((d.onHearth h f).hearth h).running = some r ∧ ((d.onHearth h f).hearth h).exu.unres = true ∧ (1, h) ∈ (d.onHearth h f).health.recovering ∧
      (d.onHearth h f).regN (0x02100218 + 0x1000 * h) = satAdd 32 (d.regN (0x02100218 + 0x1000 * h)) (l.filter (·.sameWord)).length := by
  have hm : (d.spmMet h l).hearth h = d.hearth h := Dev.spmMet_keep (fun d => d.hearth h) (fun _ _ _ => rfl) (fun _ _ => rfl) d h l
  have hmr : (d.spmMet h l).health = d.health := Dev.spmMet_keep (fun d => d.health) (fun _ _ _ => rfl) (fun _ _ => rfl) d h l
  obtain ⟨ar, au, aq, aa, ahr, areg⟩ := (d.spmMet h l).attemptFault_spec h
  have hregN := (Dev.regN_congr (areg (0x02100218 + 0x1000 * h) (by omega))).trans (d.regN_spmMet h l)
  rw [hm] at ar aq aa
  rw [hmr] at ahr
  have hf1 : (f d).hearthFault d h = (f d).recover 1 h := by
    rw [hf]
    refine Dev.hearthFault_lost hrec au hu ?_
    refine (recent_length_le _ _).trans_lt ?_
    rw [aa, h0]
    exact show 1 < 3 by decide
  have hrec' : (f d).recovers 1 h = false := by
    rw [hf]
    unfold Dev.recovers at hrec ⊢
    rw [ahr]
    exact hrec
  obtain ⟨ch, crec, creg⟩ := Dev.recover_spec hrec'
  have hon : d.onHearth h f = (f d).recover 1 h := by
    unfold Dev.onHearth Dev.ifQuenched
    dsimp only
    rw [hf1]
    refine if_neg ?_
    rw [ch, hf, aq, Bool.and_not_self]
    exact Bool.false_ne_true
  rw [hon, ch, creg, crec, hf]
  exact ⟨ar.trans hr, au, List.mem_append_right _ List.mem_cons_self, hregN⟩

/-- An attempt that collides where no region is shared, or that meets poisoned data, is lost. -/
theorem Dev.chargeDone_lost {d : Dev} {h : Nat} {used : Spent} {r : CRef} {q : Query} {c : Charge} (hr : (d.hearth h).running = some r)
    (hq : d.query r.query = some q) (hc : d.charge r = some c) (hk : d.store.dcmds = []) (he : d.chargeEngine q r.stage c = none)
    (hp : (d.hearth h).powered = true) (hu : (d.hearth h).exu.unres = false) (hpe : (d.hearth h).exu.pend = none) (hn : c.cancel = none) (hend : q.ending = none)
    (hcase : (used.meets.any (·.sameWord) = true ∧ bitOf (q.image.resources.getD (q.image.stages.getD r.stage {}).res {}).flags 0 = false) ∨
      (used.meets = [] ∧ used.poison = true ∧ (q.image.stages.getD r.stage {}).op ≠ 0x13)) :
    d.chargeDone h used = (d.spmMet h used.meets).attemptFault h := by
  unfold Dev.chargeDone
  dsimp only
  rw [hr]
  dsimp only
  rw [hq, hc]
  dsimp only
  rw [hk, he, hp, hu, hpe, hn, hend]
  refine (if_neg (by exact Bool.false_ne_true)).trans ((if_neg (by exact Bool.false_ne_true)).trans ?_)
  rcases hcase with ⟨hm, hb⟩ | ⟨hm, hpo, hop⟩
  · rw [hm, hb]
    exact if_pos rfl
  · rw [hm, hpo, if_neg (show ¬ (([] : List SpmMeet).any (·.sameWord) && _) = true from Bool.false_ne_true), if_pos rfl, if_neg hop]

theorem attempt_lost {s : State} {t h : Nat} {used : Spent} {r : CRef} {q : Query} {c : Charge} (hr : (s.dev.hearth h).running = some r)
    (hq : s.dev.query r.query = some q) (hc : s.dev.charge r = some c) (hk : s.dev.store.dcmds = []) (he : s.dev.chargeEngine q r.stage c = none)
    (hp : (s.dev.hearth h).powered = true) (hu : (s.dev.hearth h).exu.unres = false) (hpe : (s.dev.hearth h).exu.pend = none) (hn : c.cancel = none)
    (hend : q.ending = none)
    (hcase : (used.meets.any (·.sameWord) = true ∧ bitOf (q.image.resources.getD (q.image.stages.getD r.stage {}).res {}).flags 0 = false) ∨
      (used.meets = [] ∧ used.poison = true ∧ (q.image.stages.getD r.stage {}).op ≠ 0x13))
    (h0 : (s.dev.hearth h).unresAt = []) (hrec : s.dev.recovers 1 h = false) :
    After (fun d => d.tidy.autoMode) (.chargeDone t h used) s (fun d =>
      (d.hearth h).running = some r ∧ (d.hearth h).exu.unres ∧ (1, h) ∈ d.health.recovering ∧
      d.regN (0x02100218 + 0x1000 * h) = satAdd 32 (s.dev.regN (0x02100218 + 0x1000 * h)) (used.meets.filter (·.sameWord)).length) :=
  after_run (f := fun d => ((d.onHearth h (fun d => d.chargeDone h used)).tidy).autoMode) rfl rfl
    (Dev.onHearth_lost (d := s.dev.at t) (Dev.chargeDone_lost (d := s.dev.at t) hr hq hc hk he hp hu hpe hn hend hcase) hr hu h0 hrec)

/-- Settles O13: each attempt that ends goes through `Dev.endAttempt`, whose charge is then cancelled or returned; what a cancelled charge and its
hearth stay is kept through the cancellation of all the query's other charges. -/
theorem cancelAndRestart : Obligations.CancelAndRestart := by
  unfold Obligations.CancelAndRestart
  refine ⟨?_, ?_, ?_, ?_⟩
  · intro s t h clocks r q c cause hr hq hc hl hs hcc _
    exact cancel_ends hr hq hc hl hs hcc
  · intro s t h clocks r q c hu hr hq hc hl hn ht
    exact restart_returns hu hr hq hc hl hn ht
  · intro s t h clocks r q c hu hr hq hc hl hn ht hs hend
    exact restart_fails hu hr hq hc hl hn ht hs hend
  · intro s t h used r q c _ hr hq hc hk he hp hu hpe hn hend hcase h0 hrec
    exact attempt_lost hr hq hc hk he hp hu hpe hn hend hcase h0 hrec

end Sys2Proof.Machine

/-!
PROOF. The witness, a twin that stands down, and a partner declared failed (R503 to R508).
-/
namespace Sys2Proof.Machine

/-! ### The witness (R503, R504) -/

/-- Messages sent one by one, each told by what no message changes. -/
theorem Dev.foldl_send {f : Dev → Nat → Out} (hf : ∀ d o i, f (d.send o) i = f d i) (l : List Nat) (d : Dev) :
    l.foldl (fun d i => d.send (f d i)) d = { d with out := d.out ++ l.map (f d) } := by
  induction l generalizing d with
  | nil => rw [List.map_nil, List.append_nil]; rfl
  | cons i l ih =>
    refine (ih (d.send (f d i))).trans ?_
    rw [show f (d.send (f d i)) = f d from funext (hf d _)]
    unfold Dev.send
    rw [List.map_cons, List.append_assoc]
    rfl

/-- The next witness. -/
def Dev.witnessed (d : Dev) : Dev := { d with twin := { d.twin with witSeq := d.twin.witSeq + 1 } }

/-- A witness written: its sequence number moves on, and each drive of the set takes the block. -/
theorem Dev.writeWitness_eq (d : Dev) (stood : Bool) : d.writeWitness stood = { d.witnessed with
    out := d.out ++ d.witnessSet.map (fun i => .driveBlock i (16 + d.twin.pos) (d.witnessed.witnessBlock stood d.twin.alone d.twin.fencedPartner)) } :=
  Dev.foldl_send (f := fun e i => .driveBlock i (16 + e.twin.pos) (d.witnessed.witnessBlock stood d.twin.alone d.twin.fencedPartner)) (fun _ _ _ => rfl) d.witnessSet d.witnessed

theorem witness_written {s : State} {t : Nat} (hp : s.dev.twin.pairId ≠ 0) (hs : s.dev.twin.stopped = false) :
    Gives (.witnessWrite t) s (fun d =>
      d.twin = { s.dev.twin with witSeq := s.dev.twin.witSeq + 1 } ∧
      d.out = s.dev.out ++ s.dev.witnessSet.map (fun i => .driveBlock i (16 + s.dev.twin.pos) (d.witnessBlock false d.twin.alone d.twin.fencedPartner))) := by
  refine gives_run (t := t) (f := fun d => d.witnessWrite t) rfl ?_
  have he : (s.dev.at t).witnessWrite t = ((s.dev.at t).at t).writeWitness false :=
    if_neg (show ¬ (decide (s.dev.twin.pairId = 0) || s.dev.twin.stopped) = true by simp [hp, hs])
  rw [he, Dev.writeWitness_eq]
  exact ⟨rfl, rfl⟩

section
variable {s : State} {t i : Nat} {b : Bytes} (hp : s.dev.twin.pairId ≠ 0) (hs : s.dev.twin.stopped = false) (hi : i ∈ s.dev.witnessSet)
  (hb : witnessOk b (1 - s.dev.twin.pos) s.dev.twin.pairId = true)

include hp hs hi hb

/-- A sound block of the partner's: the fence that it shows, or its sequence number. -/
theorem Dev.witnessRead_eq (registered : Bool) : (s.dev.at t).witnessRead t i (some b) registered =
    if bitOf (fieldAt b 6 2) 3 && !registered then ((s.dev.at t).at t).standDown true
    else if s.dev.twin.seen < fieldAt b 0x10 8 then { (s.dev.at t).at t with twin := { s.dev.twin with
      seen := fieldAt b 0x10 8, advanced := ((s.dev.at t).at t).timeUs, still := [], reads := (s.dev.twin.reads.filter (fun r => r.1 != i)) ++ [(i, ((s.dev.at t).at t).timeUs)] } }
    else { (s.dev.at t).at t with twin := { s.dev.twin with
      still := if s.dev.twin.still.contains i then s.dev.twin.still else s.dev.twin.still ++ [i]
      reads := (s.dev.twin.reads.filter (fun r => r.1 != i)) ++ [(i, ((s.dev.at t).at t).timeUs)] } } := by
  refine (if_neg (show ¬ (decide (s.dev.twin.pairId = 0) || s.dev.twin.stopped || !s.dev.witnessSet.contains i) = true by simp [hp, hs, hi])).trans ?_
  exact if_neg (show ¬ (!witnessOk b (1 - s.dev.twin.pos) s.dev.twin.pairId) = true by rw [hb]; decide)

theorem witness_advances (hsq : s.dev.twin.seen < fieldAt b 0x10 8) :
    Effects (.witnessRead t i (some b) true) s (fun d =>
      d.twin.seen = fieldAt b 0x10 8 ∧ d.twin.advanced = max s.dev.timeUs t ∧ d.twin.still = [] ∧ (i, max s.dev.timeUs t) ∈ d.twin.reads) := by
  refine effects_run (t := t) (f := fun d => d.witnessRead t i (some b) true) rfl ?_
  rw [Dev.witnessRead_eq hp hs hi hb, Bool.not_true, Bool.and_false, if_neg Bool.false_ne_true, if_pos hsq, Dev.at_at, Nat.max_self]
  exact ⟨rfl, rfl, rfl, List.mem_append_right _ List.mem_cons_self⟩

theorem witness_still (hsq : fieldAt b 0x10 8 ≤ s.dev.twin.seen) :
    Effects (.witnessRead t i (some b) true) s (fun d =>
      d.twin.seen = s.dev.twin.seen ∧ d.twin.advanced = s.dev.twin.advanced ∧ i ∈ d.twin.still) := by
  refine effects_run (t := t) (f := fun d => d.witnessRead t i (some b) true) rfl ?_
  rw [Dev.witnessRead_eq hp hs hi hb, Bool.not_true, Bool.and_false, if_neg Bool.false_ne_true, if_neg (Nat.not_lt.2 hsq)]
  refine ⟨rfl, rfl, ?_⟩
  dsimp only
  split_ifs with hc
  · exact List.contains_iff_mem.1 hc
  · exact List.mem_append_right _ List.mem_cons_self

end

/-! ### A twin that stands down (R506 to R508) -/

/-- Commits that have not passed their point of no return. -/
def Commit.unsettled (c : Commit) : Bool := c.st == .asking || c.st == .writing || c.st == .mirrored

theorem Dev.store_setDelays (d : Dev) (l : Nat) (es : List Delay) : (d.setDelays l es).store = d.store := by
  unfold Dev.setDelays
  rw [Dev.bump_store]

theorem Dev.commits_dropCmds (d : Dev) (p : DCmd → Bool) : (d.dropCmds p).store.commits = d.store.commits := by
  unfold Dev.dropCmds
  rw [Dev.store_setDelays, Dev.store_setDelays]

theorem Dev.abandonCommit_spec (d : Dev) (c : Commit) : (d.abandonCommit c).store.commits = d.store.commits.filter (fun k => !(k.ts == c.ts && k.epoch == c.epoch)) ∧
    (d.abandonCommit c).twin = d.twin ∧ ∀ a, a ≠ 0x02400090 → (d.abandonCommit c).reg a = d.reg a := by
  have hc := d.commits_dropCmds (fun k => k.use == .commitData c.ts c.epoch || k.use == .commitRecord c.ts c.epoch)
  have ht := (d.dropCmds_keeps (fun k => k.use == .commitData c.ts c.epoch || k.use == .commitRecord c.ts c.epoch)).2
  have hr := fun a ha => d.reg_dropCmds (fun k => k.use == .commitData c.ts c.epoch || k.use == .commitRecord c.ts c.epoch) (a := a) ha
  unfold Dev.abandonCommit
  generalize d.dropCmds _ = e at hc ht hr
  exact ⟨congrArg (List.filter _) hc, ht, hr⟩

/-- Commits given up leave only those that none of them names. -/
theorem Dev.foldl_abandon (l : List Commit) (d : Dev) :
    (∀ k ∈ (l.foldl (fun d c => d.abandonCommit c) d).store.commits, k ∈ d.store.commits ∧ ∀ c ∈ l, (k.ts == c.ts && k.epoch == c.epoch) = false) ∧
      (l.foldl (fun d c => d.abandonCommit c) d).twin = d.twin ∧ ∀ a, a ≠ 0x02400090 → (l.foldl (fun d c => d.abandonCommit c) d).reg a = d.reg a := by
  induction l generalizing d with
  | nil => exact ⟨fun k hk => ⟨hk, fun c hc => absurd hc List.not_mem_nil⟩, rfl, fun _ _ => rfl⟩
  | cons c l ih =>
    obtain ⟨hc, ht, hr⟩ := ih (d.abandonCommit c)
    obtain ⟨sc, st, sr⟩ := d.abandonCommit_spec c
    rw [List.foldl_cons]
    generalize d.abandonCommit c = e at hc ht hr sc st sr ⊢
    refine ⟨fun k hk => ?_, ht.trans st, fun a ha => (hr a ha).trans (sr a ha)⟩
    obtain ⟨hm, hl⟩ := hc k hk
    rw [sc] at hm
    obtain ⟨hm, hn⟩ := List.mem_filter.1 hm
    refine ⟨hm, fun c' hc' => ?_⟩
    rcases List.mem_cons.1 hc' with rfl | hc'
    · exact (Bool.not_eq_true' _).mp hn
    · exact hl c' hc'

theorem Dev.abandonOpen_spec (d : Dev) : (∀ c ∈ d.abandonOpen.store.commits, c.st = .recording ∨ c.st = .durable) ∧ d.abandonOpen.twin = d.twin ∧
    ∀ a, a ≠ 0x02400090 → d.abandonOpen.reg a = d.reg a := by
  obtain ⟨hc, ht, hr⟩ := Dev.foldl_abandon (d.store.commits.filter Commit.unsettled) d
  refine ⟨fun c hm => ?_, ht, hr⟩
  obtain ⟨hm, hl⟩ := hc c hm
  by_contra hst
  have hu : c.unsettled = true := by
    unfold Commit.unsettled
    cases hcs : c.st with
    | asking => rfl
    | writing => rfl
    | mirrored => rfl
    | recording => exact absurd (.inl hcs) hst
    | durable => exact absurd (.inr hcs) hst
  have := hl c (List.mem_filter.2 ⟨hm, hu⟩)
  rw [beq_self_eq_true, beq_self_eq_true] at this
  exact absurd this (by decide)

theorem Dev.standDown_spec (d : Dev) (fenced : Bool) : (d.standDown fenced).twin = { d.twin with
      witSeq := d.twin.witSeq + 1, state := if fenced then 6 else 5, stopped := true } ∧
    (∀ c ∈ (d.standDown fenced).store.commits, c.st = .recording ∨ c.st = .durable) ∧ ∀ a, a ≠ 0x02400090 → (d.standDown fenced).reg a = d.reg a := by
  unfold Dev.standDown
  dsimp only
  rw [Dev.writeWitness_eq]
  dsimp only
  obtain ⟨hc, ht, hr⟩ := Dev.abandonOpen_spec { d.witnessed with
    twin := { d.witnessed.twin with state := if fenced then 6 else 5, stopped := true }
    out := d.out ++ d.witnessSet.map (fun i => .driveBlock i (16 + d.twin.pos) (d.witnessed.witnessBlock true d.twin.alone d.twin.fencedPartner)) }
  exact ⟨ht, hc, hr⟩

theorem witness_fenced {s : State} {t i : Nat} {b : Bytes} (hp : s.dev.twin.pairId ≠ 0) (hs : s.dev.twin.stopped = false) (hi : i ∈ s.dev.witnessSet)
    (hb : witnessOk b (1 - s.dev.twin.pos) s.dev.twin.pairId = true) (hf : bitOf (fieldAt b 6 2) 3 = true) :
    Effects (.witnessRead t i (some b) false) s (fun d => d.twin.state = 6 ∧ d.twin.stopped ∧ d.hostStopped) := by
  refine effects_run (t := t) (f := fun d => d.witnessRead t i (some b) false) rfl ?_
  rw [Dev.witnessRead_eq hp hs hi hb, hf, if_pos (show (true && !false) = true from rfl)]
  obtain ⟨ht, -, -⟩ := ((s.dev.at t).at t).standDown_spec true
  unfold Dev.hostStopped
  rw [ht]
  exact ⟨rfl, rfl, rfl⟩

theorem conflict_stops {s : State} {t : Nat} (hp : s.dev.twin.pairId ≠ 0) (hs : s.dev.twin.state ≠ 6) :
    Effects (.reservationConflict t) s (fun d => d.twin.state = 6 ∧ d.twin.stopped ∧ ∀ c ∈ d.store.commits, c.st = .recording ∨ c.st = .durable) := by
  refine effects_run (t := t) (f := fun d => d.reservationConflict t) rfl ?_
  have he : (s.dev.at t).reservationConflict t = ((s.dev.at t).at t).standDown true :=
    if_neg (show ¬ (decide (s.dev.twin.pairId = 0) || s.dev.twin.state == 6) = true by simp [hp, hs])
  obtain ⟨ht, hc, -⟩ := ((s.dev.at t).at t).standDown_spec true
  rw [he, ht]
  exact ⟨rfl, rfl, hc⟩

theorem silent_standsDown {s : State} {t : Nat} (h3 : s.dev.twin.state = 3) (hp : s.dev.twin.pos = 1) (hs : s.dev.twin.stopped = false)
    (hr : s.dev.twin.lastRx + 20000 ≤ max s.dev.timeUs t) (ha : max s.dev.timeUs t ≤ s.dev.twin.advanced + 20000) :
    Effects (.standDown t) s (fun d =>
      d.twin.state = 5 ∧ d.twin.stopped ∧ d.twin.witSeq = s.dev.twin.witSeq + 1 ∧ ∀ c ∈ d.store.commits, c.st = .recording ∨ c.st = .durable) := by
  refine effects_run (t := t) (f := fun d => d.standDownCmd t) rfl ?_
  have hr' : s.dev.twin.lastRx + 20000 ≤ ((s.dev.at t).at t).timeUs := by
    rw [Dev.at_at, Nat.max_self]
    exact hr
  have ha' : ((s.dev.at t).at t).timeUs ≤ s.dev.twin.advanced + 20000 := by
    rw [Dev.at_at, Nat.max_self]
    exact ha
  have he : (s.dev.at t).standDownCmd t = ((s.dev.at t).at t).standDown false := by
    unfold Dev.standDownCmd
    refine if_pos ?_
    change (decide (s.dev.twin.state = 3) && s.dev.twin.pos == 1 && !s.dev.twin.stopped && decide (s.dev.twin.lastRx + 20000 ≤ ((s.dev.at t).at t).timeUs) &&
      (decide (((s.dev.at t).at t).timeUs ≤ s.dev.twin.advanced + 20000) || _)) = true
    rw [h3, hp, hs, decide_eq_true hr', decide_eq_true ha']
    rfl
  obtain ⟨ht, hc, -⟩ := ((s.dev.at t).at t).standDown_spec false
  rw [he, ht]
  exact ⟨rfl, rfl, rfl, hc⟩

/-! ### A declared failure (R505) -/

section
variable {s : State} {t : Nat}

theorem Dev.mayDeclare_iff (d : Dev) : d.mayDeclare = true ↔ d.twin.state = 3 ∧ d.twin.lastRx + 20000 ≤ d.timeUs ∧ d.twin.advanced + 50000 ≤ d.timeUs ∧
    2 ≤ (d.twin.still.filter (fun i => d.witnessSet.contains i)).length := by
  unfold Dev.mayDeclare
  simp only [Bool.and_eq_true, beq_iff_eq, decide_eq_true_eq, and_assoc]

theorem Dev.mayDeclare_at (h3 : s.dev.twin.state = 3) (hr : s.dev.twin.lastRx + 20000 ≤ max s.dev.timeUs t) (ha : s.dev.twin.advanced + 50000 ≤ max s.dev.timeUs t)
    (hw : 2 ≤ (s.dev.twin.still.filter (fun i => s.dev.witnessSet.contains i)).length) : ((s.dev.at t).at t).mayDeclare = true := by
  rw [Dev.at_at, Nat.max_self, Dev.mayDeclare_iff]
  exact ⟨h3, hr, ha, hw⟩

theorem declared_early (ha : max s.dev.timeUs t < s.dev.twin.advanced + 50000) (won : Bool) : Effects (.declareFailed t won) s (fun d => d = s.dev.at t) := by
  refine effects_run (t := t) (f := fun d => d.declareFailed t won) rfl ?_
  have hm : ((s.dev.at t).at t).mayDeclare = false := by
    rw [Dev.at_at, Nat.max_self, Bool.eq_false_iff, Ne, Dev.mayDeclare_iff]
    rintro ⟨-, -, h, -⟩
    exact absurd h (Nat.not_le.2 ha)
  unfold Dev.declareFailed
  dsimp only
  rw [hm, if_pos (show (!false) = true from rfl), Dev.at_at, Nat.max_self]

theorem declared_lost (h3 : s.dev.twin.state = 3) (hr : s.dev.twin.lastRx + 20000 ≤ max s.dev.timeUs t) (ha : s.dev.twin.advanced + 50000 ≤ max s.dev.timeUs t)
    (hw : 2 ≤ (s.dev.twin.still.filter (fun i => s.dev.witnessSet.contains i)).length) :
    Effects (.declareFailed t false) s (fun d => d.twin.state = 5 ∧ d.twin.stopped ∧ d.regN 0x02B00028 = satAdd 32 (s.dev.regN 0x02B00028) 1) := by
  refine effects_run (t := t) (f := fun d => d.declareFailed t false) rfl ?_
  have he : (s.dev.at t).declareFailed t false = (((s.dev.at t).at t).bump 0x02B00028 1).standDown false := by
    unfold Dev.declareFailed
    dsimp only
    rw [Dev.mayDeclare_at h3 hr ha hw, if_neg (show ¬ (!true) = true from Bool.false_ne_true), if_neg Bool.false_ne_true]
  obtain ⟨ht, -, hreg⟩ := (((s.dev.at t).at t).bump 0x02B00028 1).standDown_spec false
  rw [he, ht, Dev.regN_congr (hreg 0x02B00028 (by decide)), Dev.regN_bump_self]
  exact ⟨rfl, rfl, rfl⟩

end

/-- The drives of the pair that preempt the partner's keys, in their order. -/
def Dev.fenceOrder (d : Dev) : List Nat :=
  d.witnessSet.take 1 ++ (d.pairDrives.mergeSort (fun a b => decide (a ≤ b))).filter (fun i => !(d.witnessSet.take 1).contains i)

theorem Dev.mem_fenceOrder {d : Dev} {i : Nat} (h : i ∈ d.pairDrives) : i ∈ d.fenceOrder := by
  unfold Dev.fenceOrder
  by_cases hi : i ∈ d.witnessSet.take 1
  · exact List.mem_append_left _ hi
  · refine List.mem_append_right _ (List.mem_filter.2 ⟨List.mem_mergeSort.2 h, ?_⟩)
    rw [Bool.not_eq_true', Bool.eq_false_iff, Ne, List.contains_iff_mem]
    exact hi

/-- The survivor before its next witness: the partner's keys are taken away, and the failover begins. -/
def Dev.failoverBegun (d : Dev) : Dev :=
  let theirs := match d.twin.partner with | some h => twinKey h.serial h.pos | none => 0
  (((({ d with
    out := d.out ++ d.fenceOrder.map (fun i => .driveAdmin i 7 theirs)
    twin := { d.twin with
      state := 4, unacked := [], fencedPartner := true, declared := some d.opSec, declaredUs := d.timeUs, fencedUs := d.timeUs, step := 1
      xfer := none, resync := 0, hello := false, resubmitted := 0, resumed := 0, queuesTaken := 0, outcomes := [] } } : Dev).bump 0x02B00028 1).countRepair 11).pauseRebuilds true).recover 6 0

theorem Dev.survive_eq {d : Dev} (hu : d.twin.unacked = []) : d.survive = d.failoverBegun.writeWitness false := by
  unfold Dev.survive Dev.failoverBegun
  dsimp only
  rw [show ∀ (o : Nat → Out), (d.witnessSet.take 1 ++ (d.pairDrives.mergeSort (fun a b => decide (a ≤ b))).filter
      (fun i => !(d.witnessSet.take 1).contains i)).foldl (fun d i => d.send (o i)) d = { d with out := d.out ++ d.fenceOrder.map o } from
    fun o => Dev.foldl_send (f := fun _ i => o i) (fun _ _ _ => rfl) d.fenceOrder d]
  dsimp only
  rw [hu]
  rfl

theorem Dev.failoverBegun_spec (d : Dev) : d.failoverBegun.twin = { d.twin with
      state := 4, unacked := [], fencedPartner := true, declared := some d.opSec, declaredUs := d.timeUs, fencedUs := d.timeUs, step := 1
      xfer := none, resync := 0, hello := false, resubmitted := 0, resumed := 0, queuesTaken := 0, outcomes := [] } ∧
    d.failoverBegun.regN 0x02B00028 = satAdd 32 (d.regN 0x02B00028) 1 ∧ (∀ r ∈ d.failoverBegun.store.rebuilds, r.paused = true) ∧
    (6, 0) ∈ d.failoverBegun.health.recovering ∧
    d.failoverBegun.out = d.out ++ d.fenceOrder.map (fun i => .driveAdmin i 7 (match d.twin.partner with | some h => twinKey h.serial h.pos | none => 0)) := by
  unfold Dev.failoverBegun
  dsimp only
  generalize hd1 : ({ d with out := _, twin := _ } : Dev) = d1
  have hb := d1.regN_bump_self 0x02B00028 1
  obtain ⟨regs, tally, he⟩ := d1.bump_only 0x02B00028 1
  generalize d1.bump 0x02B00028 1 = d2 at hb he
  subst he hd1
  have hp : ∀ (e : Dev), ∀ r ∈ (e.pauseRebuilds true).store.rebuilds, r.paused = true := fun e r hr => by
    obtain ⟨k, -, rfl⟩ := List.mem_map.1 hr
    rfl
  unfold Dev.recover
  split_ifs with hrec
  · exact ⟨rfl, hb, hp _, List.contains_iff_mem.1 hrec, rfl⟩
  · exact ⟨rfl, hb, hp _, List.mem_append_right _ List.mem_cons_self, rfl⟩

theorem declared_won {s : State} {t : Nat} (h3 : s.dev.twin.state = 3) (hr : s.dev.twin.lastRx + 20000 ≤ max s.dev.timeUs t)
    (ha : s.dev.twin.advanced + 50000 ≤ max s.dev.timeUs t)
    (hw : 2 ≤ (s.dev.twin.still.filter (fun i => s.dev.witnessSet.contains i)).length) (hu : s.dev.twin.unacked = []) :
    Effects (.declareFailed t true) s (fun d =>
      d.twin.state = 4 ∧ d.twin.alone ∧ d.twin.step = 1 ∧ d.twin.fencedPartner ∧ d.twin.declared = some s.dev.opSec ∧ d.twin.witSeq = s.dev.twin.witSeq + 1 ∧
      d.regN 0x02B00028 = satAdd 32 (s.dev.regN 0x02B00028) 1 ∧ (∀ r ∈ d.store.rebuilds, r.paused) ∧ (6, 0) ∈ d.health.recovering ∧
      (∀ i ∈ s.dev.pairDrives, .driveAdmin i 7 (match s.dev.twin.partner with | some h => twinKey h.serial h.pos | none => 0) ∈ d.out)) := by
  refine effects_run (t := t) (f := fun d => d.declareFailed t true) rfl ?_
  have he : (s.dev.at t).declareFailed t true = ((s.dev.at t).at t).failoverBegun.writeWitness false := by
    unfold Dev.declareFailed
    dsimp only
    rw [Dev.mayDeclare_at h3 hr ha hw, if_neg (show ¬ (!true) = true from Bool.false_ne_true), if_pos rfl]
    exact Dev.survive_eq (d := (s.dev.at t).at t) hu
  rw [he, Dev.writeWitness_eq]
  obtain ⟨ht, hb, hp, hrec, ho⟩ := ((s.dev.at t).at t).failoverBegun_spec
  generalize ((s.dev.at t).at t).failoverBegun = d at ht hb hp hrec ho
  unfold Dev.witnessed
  dsimp only
  rw [ht]
  refine ⟨rfl, rfl, rfl, rfl, rfl, rfl, hb, hp, hrec, fun i hi => List.mem_append_left _ ?_⟩
  rw [ho]
  exact List.mem_append_right _ (List.mem_map_of_mem (Dev.mem_fenceOrder (d := (s.dev.at t).at t) hi))

end Sys2Proof.Machine

/-!
PROOF. Failover: the failed twin's rings replayed, and adopted queries resumed (R514, R517).
-/
namespace Sys2Proof.Machine

/-! ### What a replay reads and keeps (R514) -/

/-- What a change of epochs seen leaves of a table space. -/
def TSpace.kept (s : TSpace) : Nat × Nat × Nat × Nat × List Nat := (s.id, s.owner, s.reserved, s.lastEpoch, s.open_)

/-- The table spaces as `TSpace.kept` has them, and what a replay otherwise reads and keeps. -/
structure Ledger where
  spaces : List (Nat × Nat × Nat × Nat × List Nat)
  commits : List Commit
  ingests : List Ingest
  holds : List Hold
  twin : TwinSt
  asks : List Commit
  queries : List Query

def Dev.ledger (d : Dev) : Ledger := ⟨d.store.spaces.map TSpace.kept, d.store.commits, d.store.ingests, d.store.holds, d.twin, d.mail.asks, d.qry.queries⟩

theorem Dev.ledger_driveCmd (d : Dev) (c : DCmd) : (d.driveCmd c).ledger = d.ledger := by
  have hd : ∀ (e : Dev) l k tag, (e.delay l k tag).ledger = e.ledger := fun e l k tag => by
    unfold Dev.ledger
    rw [Dev.delay_store, Dev.delay_twin, Dev.delay_mail, (Dev.qry_of_core (e.delay_core l k tag)).1]
  unfold Dev.driveCmd
  dsimp only
  split_ifs
  · rfl
  · unfold Dev.putCmd
    exact hd _ 1 _ _

theorem Dev.ledger_journalUpd (d : Dev) (g : Nat) (f : Journal → Journal) : (d.journalUpd g f).ledger = d.ledger := by
  unfold Dev.journalUpd
  dsimp only
  split_ifs <;> rfl

theorem Dev.ledger_writeRecord (d : Dev) (g k b ts e : Nat) (u : DriveUse) : (d.writeRecord g k b ts e u).ledger = d.ledger :=
  (Dev.ledger_journalUpd ..).trans (foldl_keep (P := Dev.ledger) (fun d _ => d.ledger_driveCmd _) _ _)

/-- A change of a table space that keeps `TSpace.kept` keeps the ledger. -/
theorem Dev.ledger_spaceUpd (d : Dev) (id : Nat) {f : TSpace → TSpace} (hf : ∀ s, (f s).kept = s.kept) : (d.spaceUpd id f).ledger = d.ledger := by
  have : (d.spaceUpd id f).store.spaces.map TSpace.kept = d.store.spaces.map TSpace.kept := by
    change (List.map _ d.store.spaces).map TSpace.kept = _
    rw [List.map_map]
    refine List.map_congr_left fun s _ => ?_
    dsimp only [Function.comp]
    split_ifs
    · exact hf s
    · rfl
  exact congrArg (fun l => (⟨l, d.store.commits, d.store.ingests, d.store.holds, d.twin, d.mail.asks, d.qry.queries⟩ : Ledger)) this

theorem Dev.ledger_raiseFloor (d : Dev) (ts : Nat) : (d.raiseFloor ts).ledger = d.ledger := Dev.ledger_spaceUpd d ts (by exact fun _ => rfl)

/-- With no commit in progress the close of an epoch moves only what is visible and the floor. -/
theorem Dev.ledger_closeSpace {d : Dev} (hc : d.store.commits = []) (ts : Nat) : (d.closeSpace ts).ledger = d.ledger := by
  unfold Dev.closeSpace
  split
  next => rfl
  next s _ =>
    dsimp only
    rw [hc, List.filter_nil, List.mergeSort_nil, List.foldl_nil]
    have h1 : ((d.spaceUpd ts (fun k => { k with visible := max s.visible s.visibleNow })).raiseFloor ts).ledger = d.ledger :=
      (Dev.ledger_raiseFloor ..).trans (Dev.ledger_spaceUpd d ts (by exact fun _ => rfl))
    have h2 : ((d.spaceUpd ts (fun k => { k with visible := max s.visible s.visibleNow })).raiseFloor ts).store.commits = [] := (congrArg Ledger.commits h1).trans hc
    unfold Dev.ledger at h1 ⊢
    rw [h2] at h1 ⊢
    exact h1

theorem Dev.ledger_closeCommits {d : Dev} (hc : d.store.commits = []) (hx : d.twin.xfer = none) : d.closeCommits.ledger = d.ledger := by
  have hfold : ∀ l : List TSpace, (l.foldl (fun d s => d.closeSpace s.id) d).ledger = d.ledger := fun l =>
    foldl_holds (P := fun e => e.ledger = d.ledger) (fun e s he => (Dev.ledger_closeSpace ((congrArg Ledger.commits he).trans hc) s.id).trans he) l d rfl
  unfold Dev.closeCommits
  have h := hfold d.store.spaces
  generalize List.foldl _ d d.store.spaces = e at h
  have hx' : e.twin.xfer = none := (congrArg (fun l => l.twin.xfer) h).trans hx
  unfold Dev.xferStep
  rw [hx']
  exact h

/-- Nothing waits for the table space: nothing is tried again. -/
theorem Dev.ledger_retryCommits {d : Dev} (hi : d.store.ingests = []) (ha : d.mail.asks = []) (hq : d.qry.queries = []) (ts : Nat) :
    (d.retryCommits ts).ledger = d.ledger := by
  unfold Dev.retryCommits Dev.retryAsks
  dsimp only
  rw [hi, List.filter_nil, List.foldl_nil, ha, List.filter_nil, List.filter_nil, List.foldl_nil]
  rw [hq, List.filter_nil, List.foldl_nil]
  unfold Dev.ledger
  rw [ha]

/-- The table space that the survivor takes. -/
def Dev.taken (d : Dev) (sp : TSpace) (r own : Nat) : Dev :=
  (d.spaceUpd sp.id (fun s => { s with owner := own, reserved := max r sp.reserved + 4096, lastEpoch := max (max r sp.reserved) s.lastEpoch, open_ := [] })).writeRecord
    (d.homeOf sp.id) 7 2 sp.id (max r sp.reserved) .journal

/-- The partner's holds are the survivor's, and its rows of spill are given back. -/
def Dev.heldTaken (d : Dev) : Dev :=
  { d with
    store := { d.store with
      holds := d.store.holds ++ d.twin.holds
      groups := d.store.groups.map (fun g => { g with spill := g.spill.filter (fun s => decide (s.2 < partnerSpill 0)) }) }
    twin := { d.twin with holds := [], step := 2 } }

theorem Dev.failoverReplay_eq {d : Dev} {t : Nat} {sp : TSpace} {r : Nat} (h4 : d.twin.state = 4) (h1 : d.twin.step = 1) (hs : d.store.spaces = [sp])
    (ho : sp.owner ≠ d.twin.pos) (hc : d.store.commits = []) (hr : d.twin.records = []) :
    d.failoverReplay t [] [(sp.id, r)] = ((d.at t).taken sp r d.twin.pos).heldTaken.closeCommits.retryCommits sp.id := by
  have hsp : (d.at t).space sp.id = some sp := by
    change d.store.spaces.find? _ = _
    rw [hs]
    exact List.find?_cons_of_pos (beq_self_eq_true _)
  have htk : ((d.at t).store.spaces.filter (fun s => s.owner != (d.at t).twin.pos)).map (·.id) = [sp.id] := by
    change (d.store.spaces.filter (fun s => s.owner != d.twin.pos)).map (·.id) = _
    rw [hs, List.filter_cons_of_pos (by simpa using ho)]
    rfl
  have hfind : [(sp.id, r)].find? (fun p => p.1 == sp.id) = some (sp.id, r) := List.find?_cons_of_pos (beq_self_eq_true _)
  have hc' : (d.at t).store.commits = [] := hc
  have hr' : (d.at t).twin.records = [] := hr
  unfold Dev.failoverReplay
  refine (if_neg (show ¬ (decide (d.twin.state ≠ 4) || decide (d.twin.step ≠ 1)) = true by simp [h4, h1])).trans ?_
  dsimp only
  rw [htk, hc']
  simp only [List.filter_nil, List.foldl_nil, List.foldl_cons, hr', List.append_nil, List.map_nil, hsp, hfind]
  rfl

/-- The ledger once the one table space `sp` is taken. -/
def Ledger.taken (l : Ledger) (sp : TSpace) (r : Nat) : Ledger :=
  { l with
    spaces := [(sp.id, l.twin.pos, max r sp.reserved + 4096, max (max r sp.reserved) sp.lastEpoch, [])]
    holds := l.holds ++ l.twin.holds
    twin := { l.twin with holds := [], step := 2 } }

theorem ledger_taken {k : Dev} {l : Ledger} {sp : TSpace} {r : Nat} (hg : k.ledger = l.taken sp r) :
    (k.space sp.id).map (fun k => (k.owner, k.reserved, k.lastEpoch, k.open_)) = some (l.twin.pos, max r sp.reserved + 4096,
        max (max r sp.reserved) sp.lastEpoch, []) ∧ k.store.holds = l.holds ++ l.twin.holds ∧ k.twin.holds = [] ∧ k.twin.step = 2 := by
  refine ⟨?_, congrArg Ledger.holds hg, congrArg (fun l => l.twin.holds) hg, congrArg (fun l => l.twin.step) hg⟩
  obtain ⟨sp', hsp', hk⟩ := List.map_eq_singleton_iff.1 (congrArg Ledger.spaces hg)
  have hid : sp'.id = sp.id := congrArg Prod.fst hk
  unfold Dev.space
  rw [hsp', List.find?_cons_of_pos (by rw [hid]; exact beq_self_eq_true _)]
  exact congrArg (fun p => some p.2) hk

/-- What the commits that were in progress leave, where none is. -/
theorem Dev.ledger_replayed {e : Dev} {l : Ledger} {sp : TSpace} {r : Nat} (he : e.ledger = { l with
      spaces := [(sp.id, l.twin.pos, max r sp.reserved + 4096, max (max r sp.reserved) sp.lastEpoch, [])] })
    (hc : l.commits = []) (hi : l.ingests = []) (hq : l.queries = []) (ha : l.asks = []) (hx : l.twin.xfer = none) :
    (e.heldTaken.closeCommits.retryCommits sp.id).ledger = l.taken sp r := by
  have hheld : e.heldTaken.ledger = l.taken sp r := by
    have hrest : e.heldTaken.ledger = { e.ledger with holds := e.ledger.holds ++ e.ledger.twin.holds, twin := { e.ledger.twin with holds := [], step := 2 } } := rfl
    rw [hrest, he]
    rfl
  generalize e.heldTaken = f at hheld
  have hf := (Dev.ledger_closeCommits ((congrArg Ledger.commits hheld).trans hc) ((congrArg (fun l => l.twin.xfer) hheld).trans hx)).trans hheld
  generalize f.closeCommits = g at hf
  exact (Dev.ledger_retryCommits ((congrArg Ledger.ingests hf).trans hi) ((congrArg Ledger.asks hf).trans ha) ((congrArg Ledger.queries hf).trans hq) sp.id).trans hf

theorem Dev.ledger_spaceTaken {d : Dev} {sp : TSpace} (hs : d.store.spaces = [sp]) (r own : Nat) : (d.taken sp r own).ledger = { d.ledger with
      spaces := [(sp.id, own, max r sp.reserved + 4096, max (max r sp.reserved) sp.lastEpoch, [])] } := by
  unfold Dev.taken
  rw [Dev.ledger_writeRecord]
  refine congrArg (fun l => (⟨l, d.store.commits, d.store.ingests, d.store.holds, d.twin, d.mail.asks, d.qry.queries⟩ : Ledger)) ?_
  change (updWhere _ _ d.store.spaces).map TSpace.kept = _
  unfold updWhere
  rw [hs, List.map_cons, List.map_cons, if_pos (beq_self_eq_true _)]
  rfl

theorem failover_replays {s : State} {t : Nat} {sp : TSpace} {r : Nat} (h4 : s.dev.twin.state = 4) (h1 : s.dev.twin.step = 1) (hs : s.dev.store.spaces = [sp])
    (ho : sp.owner ≠ s.dev.twin.pos) (hc : s.dev.store.commits = []) (hr : s.dev.twin.records = []) (hi : s.dev.store.ingests = []) (hq : s.dev.qry.queries = [])
    (ha : s.dev.mail.asks = []) (hx : s.dev.twin.xfer = none) :
    Effects (.failoverReplay t [] [(sp.id, r)]) s (fun d =>
      (d.space sp.id).map (fun k => (k.owner, k.reserved, k.lastEpoch, k.open_)) = some (s.dev.twin.pos, max r sp.reserved + 4096,
        max (max r sp.reserved) sp.lastEpoch, []) ∧
      d.store.holds = s.dev.store.holds ++ s.dev.twin.holds ∧ d.twin.holds = [] ∧ d.twin.step = 2) := by
  refine effects_run (t := t) (f := fun d => d.failoverReplay t [] [(sp.id, r)]) rfl ?_
  rw [Dev.failoverReplay_eq (d := s.dev.at t) h4 h1 hs ho hc hr]
  refine ledger_taken (Dev.ledger_replayed (l := s.dev.ledger) ?_ hc hi hq ha hx)
  exact Dev.ledger_spaceTaken (d := (s.dev.at t).at t) hs r (s.dev.at t).twin.pos

/-! ### Adopted queries resume (R517) -/

/-- One adopted query that resumes. -/
def Dev.resumeOne (d : Dev) (r : Nat × Nat × PCmd) : Dev :=
  match d.mayStartCmd r.1 r.2.1 r.2.2.cid 0x01 with
  | some c =>
    let s : Submit := { x := r.1, q := r.2.1, cid := c.cid, ts := c.ts, resume := r.2.2.resume }
    let d1 := d.cmdUpd r.1 r.2.1 c.cid (fun k => { k with started := true })
    ({ d1 with qry := { d1.qry with subs := d1.qry.subs ++ [s] } } : Dev).hostRead r.1 r.2.1 c.cid .descriptor (fieldAt c.entry 0x10 8) 256
  | none => d

theorem Dev.resumeOne_some {d : Dev} {sx sq : Nat} {pc : PCmd} {c : Cmd} (hm : d.mayStartCmd sx sq pc.cid 0x01 = some c) :
    (d.resumeOne (sx, sq, pc)).qry.subs = d.qry.subs ++ [{ x := sx, q := sq, cid := c.cid, ts := c.ts, resume := pc.resume }] ∧
      (d.resumeOne (sx, sq, pc)).out = d.out ++ [.hostRead d.host.nextTag sx (fieldAt c.entry 0x10 8) 256] ∧
      (d.resumeOne (sx, sq, pc)).node = d.node ∧ (d.resumeOne (sx, sq, pc)).twin = d.twin := by
  unfold Dev.resumeOne
  dsimp only
  rw [hm]
  exact ⟨rfl, rfl, rfl, rfl⟩

/-- Without a node ID the node is not told. -/
theorem Dev.queryResumption_eq {d e : Dev} {t : Nat} (h4 : d.twin.state = 4) (h3 : d.twin.step = 3) (he : (d.at t).twin.toResume.foldl Dev.resumeOne (d.at t) = e)
    (hn : e.node = none) : d.queryResumption t = { e with twin := { e.twin with step := 4, resumed := e.twin.toResume.length } } := by
  have hset : ∀ d2 : Dev, d2 = e → ({ d2 with twin := { d2.twin with step := 4, resumed := d2.twin.toResume.length } } : Dev) =
      { e with twin := { e.twin with step := 4, resumed := e.twin.toResume.length } } := fun d2 h => by rw [h]
  unfold Dev.queryResumption
  refine (if_neg (show ¬ (decide (d.twin.state ≠ 4) || decide (d.twin.step ≠ 3)) = true by simp [h4, h3])).trans ?_
  refine hset _ ?_
  split
  next n me _ hme =>
    have hn' : e.node = some me := by
      rw [← he]
      exact hme
    exact absurd (hn.symm.trans hn') (by simp)
  next => exact he

theorem queries_resume {s : State} {t sx sq : Nat} {pc : PCmd} {c : Cmd} (h4 : s.dev.twin.state = 4) (h3 : s.dev.twin.step = 3)
    (hr : s.dev.twin.toResume = [(sx, sq, pc)]) (hm : s.dev.mayStartCmd sx sq pc.cid 0x01 = some c) (hn : s.dev.node = none) :
    Effects (.queryResumption t) s (fun d =>
      d.twin.step = 4 ∧ d.twin.resumed = 1 ∧ d.qry.subs = s.dev.qry.subs ++ [{ x := sx, q := sq, cid := c.cid, ts := c.ts, resume := pc.resume }] ∧
      d.out = s.dev.out ++ [.hostRead s.dev.host.nextTag sx (fieldAt c.entry 0x10 8) 256]) := by
  refine effects_run (t := t) (f := fun d => d.queryResumption t) rfl ?_
  obtain ⟨hs, ho, hd, ht⟩ := Dev.resumeOne_some (d := (s.dev.at t).at t) hm
  have he : ((s.dev.at t).at t).twin.toResume.foldl Dev.resumeOne ((s.dev.at t).at t) = ((s.dev.at t).at t).resumeOne (sx, sq, pc) := by
    rw [show ((s.dev.at t).at t).twin.toResume = [(sx, sq, pc)] from hr]
    rfl
  rw [Dev.queryResumption_eq (d := s.dev.at t) h4 h3 he (hd.trans hn)]
  refine ⟨rfl, ?_, hs, ho⟩
  dsimp only
  rw [ht]
  exact congrArg List.length hr

end Sys2Proof.Machine

/-!
PROOF. Failover: queues adopted, and the end of the recovery (R510, R520).
-/
namespace Sys2Proof.Machine

/-! ### What an adopted queue keeps while its completion and its events go out (R510) -/

/-- What the host has set up of a queue, and its commands. -/
def Qp.setUp (p : Qp) : QState × Nat × Nat × Nat × Nat × List Cmd := (p.state, p.sqBase, p.cqBase, p.cfg, p.sqHead, p.cmds)

/-- The twin's state, a queue as it is set up, and whether its function is adopted. -/
def Dev.adoption (sx sq : Nat) (d : Dev) : TwinSt × (QState × Nat × Nat × Nat × Nat × List Cmd) × Bool := (d.twin, (d.qp sx sq).setUp, (d.fnGet sx).adopted)

section
variable (d : Dev) (sx sq x : Nat)

theorem Dev.adoption_fnUpd {f : Fn → Fn} (hf : ∀ k, (f k).adopted = k.adopted) : (d.fnUpd x f).adoption sx sq = d.adoption sx sq := by
  have : ((d.fnUpd x f).fnGet sx).adopted = (d.fnGet sx).adopted := by
    refine (congrArg Fn.adopted (tabGet_upd ..)).trans ?_
    split_ifs with h
    · rw [h]; exact hf _
    · rfl
  exact congrArg (fun b => (d.twin, (d.qp sx sq).setUp, b)) this

theorem Dev.adoption_qpUpd (q : Nat) {f : Qp → Qp} (hf : ∀ k, (f k).setUp = k.setUp) : (d.qpUpd x q f).adoption sx sq = d.adoption sx sq := by
  have : ((d.qpUpd x q f).qp sx sq).setUp = (d.qp sx sq).setUp := by
    refine (congrArg Qp.setUp (tabGet_upd ..)).trans ?_
    split_ifs with h
    · refine (hf _).trans ?_
      unfold Dev.qp
      rw [h]
    · rfl
  exact congrArg (fun b => (d.twin, b, (d.fnGet sx).adopted)) this

theorem Dev.adoption_vector (v : Nat) : (d.vector x v).adoption sx sq = d.adoption sx sq := by
  unfold Dev.vector
  dsimp only
  split_ifs
  · rfl
  · rfl
  · exact d.adoption_fnUpd sx sq x (by exact fun _ => rfl)
  · exact d.adoption_fnUpd sx sq x (by exact fun _ => rfl)
  · rfl

theorem Dev.adoption_hostWrite (a : Nat) (b : Bytes) : (d.hostWrite x a b).adoption sx sq = d.adoption sx sq := by
  unfold Dev.hostWrite
  dsimp only
  split_ifs
  · rfl
  · rfl
  · exact d.adoption_fnUpd sx sq x (by exact fun _ => rfl)
  · exact (d.adoption_fnUpd sx sq x (by exact fun _ => rfl))
  · rfl

theorem Dev.adoption_fnEvent (bit : Nat) (q : Option Nat) : (d.fnEvent x bit q).adoption sx sq = d.adoption sx sq := by
  unfold Dev.fnEvent
  dsimp only
  split_ifs
  · exact (Dev.adoption_vector ..).trans (d.adoption_fnUpd sx sq x (by exact fun _ => rfl))
  · exact d.adoption_fnUpd sx sq x (by exact fun _ => rfl)

theorem Dev.adoption_event (c o v : Nat) : (d.event x c o v).adoption sx sq = d.adoption sx sq := by
  unfold Dev.event
  dsimp only
  split_ifs
  · unfold Dev.mboxVector
    dsimp only
    split_ifs
    · exact (Dev.adoption_vector ..).trans rfl
    · rfl
  · rfl

theorem Dev.adoption_eventPf (c o v : Nat) : (d.eventPf c o v).adoption sx sq = d.adoption sx sq :=
  (Dev.adoption_event ..).trans (Dev.adoption_event ..)

theorem Dev.adoption_signal (q : Nat) : (d.signal x q).adoption sx sq = d.adoption sx sq :=
  (Dev.adoption_vector ..).trans (Dev.adoption_qpUpd d sx sq x q (by exact fun _ => rfl))

theorem Dev.adoption_completionPost (q : Nat) : (d.completionPost x q).adoption sx sq = d.adoption sx sq := by
  unfold Dev.completionPost
  dsimp only
  split
  · rfl
  · split_ifs
    · rfl
    · rfl
    · exact (Dev.adoption_fnEvent ..).trans (Dev.adoption_qpUpd d sx sq x q (by exact fun _ => rfl))
    · exact (Dev.adoption_signal ..).trans ((Dev.adoption_qpUpd _ sx sq x q (by exact fun _ => rfl)).trans (Dev.adoption_hostWrite ..))
    · exact (Dev.adoption_qpUpd _ sx sq x q (by exact fun _ => rfl)).trans (Dev.adoption_hostWrite ..)

end

/-- A queue with no command of the failed twin's: it is set up as it was, and PATH_MOVED is its one completion. -/
theorem Dev.adoption_adoptQueue {d : Dev} {x q : Nat} {p : Qp} (hq : d.twin.queues = [(qpKey x q, p)]) (hp : p.state = .active) (hc : d.twin.cmds = [])
    (hd : d.twin.dones = []) (sx sq : Nat) (frags : List AFrag) : (d.adoptQueue x q sx sq frags).adoption sx sq =
      ({ d.twin with adoptedQ := d.twin.adoptedQ ++ [(x, q, sx, sq)], queuesTaken := d.twin.queuesTaken + 1 },
        (.active, p.sqBase, p.cqBase, p.cfg, p.sqHead, []), (d.fnGet sx).adopted) := by
  have hget : tabGet {} d.twin.queues (qpKey x q) = p := by
    rw [hq]
    simp [tabGet]
  unfold Dev.adoptQueue
  dsimp only
  rw [hc, hd, hget]
  simp only [List.filter_nil, List.foldl_nil]
  refine (Dev.adoption_completionPost ..).trans ?_
  unfold Dev.adoption
  refine Prod.ext (by dsimp only [Dev.qpUpd]; rw [hc, hd]) (Prod.ext ?_ rfl)
  unfold Dev.qp Dev.qpUpd
  dsimp only
  rw [tabGet_upd, if_pos rfl]
  unfold Qp.setUp
  dsimp only
  rw [hp]
  rfl

theorem Dev.adoption_adopted (d : Dev) (sx sq : Nat) : (d.fnUpd sx (fun f => { f with adopted := true })).adoption sx sq = (d.twin, (d.qp sx sq).setUp, true) :=
  congrArg (fun b => (d.twin, (d.qp sx sq).setUp, b)) (congrArg Fn.adopted (Dev.fnGet_fnUpd ..))

/-- A function of the failed twin's with one queue, whose standby function has room for it. -/
theorem Dev.adoption_adoptFn {d : Dev} {x q sx base : Nat} {p : Qp} (h8 : q < 8192) (hq : d.twin.queues = [(qpKey x q, p)]) (hp : p.state = .active)
    (hc : d.twin.cmds = []) (hd : d.twin.dones = []) (hs : d.standby x = some (sx, base)) (hfree : (d.qp sx (base + q)).state = .disabled) (frags : List AFrag) :
    (d.adoptFn x frags).adoption sx (base + q) =
      ({ d.twin with adopted := d.twin.adopted ++ [(x, sx)], adoptedQ := d.twin.adoptedQ ++ [(x, q, sx, base + q)], queuesTaken := d.twin.queuesTaken + 1 },
        (.active, p.sqBase, p.cqBase, p.cfg, p.sqHead, []), true) := by
  have hqs : (d.twin.queues.filter (fun p => p.1 / 8192 == x && p.2.state != .disabled)).map (fun p => p.1 % 8192) = [q] := by
    rw [hq, List.filter_cons_of_pos (by rw [qpKey_div _ h8, hp, beq_self_eq_true]; rfl), List.filter_nil, List.map_singleton, qpKey_mod _ h8]
  have hfr : [q].filter (fun q => (d.qp sx (base + q)).state == .disabled) = [q] := List.filter_cons_of_pos (by rw [hfree]; rfl)
  have hev : ∀ e : Dev, (if ((e.event sx 0x0120 (fnCode x) 1).mbox sx).session.isSome then (e.event sx 0x0120 (fnCode x) 1).event sx 0x0004 0 2
      else e.event sx 0x0120 (fnCode x) 1).adoption sx (base + q) = e.adoption sx (base + q) := fun e => by
    split_ifs
    · exact (Dev.adoption_event ..).trans (Dev.adoption_event ..)
    · exact Dev.adoption_event ..
  unfold Dev.adoptFn
  rw [hqs, hs]
  dsimp only
  rw [hfr]
  refine (hev _).trans ?_
  rw [if_neg (Nat.lt_irrefl _), if_neg (show ¬ [q].isEmpty = true from Bool.false_ne_true), List.foldl_cons, List.foldl_nil, Dev.adoption_adopted]
  generalize hheld : ({ d with twin := _, store := _ } : Dev) = held
  have hview := Dev.adoption_adoptQueue (d := held) (x := x) (q := q) (p := p) (by rw [← hheld]; exact hq) hp (by rw [← hheld]; exact hc) (by rw [← hheld]; exact hd)
    sx (base + q) frags
  have htw := congrArg Prod.fst hview
  have hsu := congrArg (fun v => v.2.1) hview
  refine Prod.ext (htw.trans ?_) (Prod.ext hsu rfl)
  rw [← hheld]

/-- The node ID of the failed twin, and the register that takes it. -/
def Dev.nodeTaken (d : Dev) : Option Nat := match d.twin.partner with | some h => h.node | none => none

def Dev.nodeSet (d : Dev) : Dev := match d.nodeTaken with | some n => d.setReg 0x02500004 (BitVec.ofNat 32 (n + 65536)) | none => d

theorem Dev.nodeSet_cases (d : Dev) : (d.nodeSet = d ∨ ∃ w, d.nodeSet = d.setReg 0x02500004 w) ∧ d.nodeSet.twin = d.twin := by
  unfold Dev.nodeSet
  cases d.nodeTaken with
  | some n => exact ⟨Or.inr (Exists.intro (BitVec.ofNat 32 (n + 65536)) (Eq.refl _)), Dev.setReg_twin ..⟩
  | none => exact ⟨.inl rfl, rfl⟩

/-- QUEUE_ADOPTION with one queue: its function is adopted between the node ID and the event. -/
theorem Dev.queueAdoption_eq {d : Dev} {t x q : Nat} {p : Qp} (h4 : d.twin.state = 4) (h2 : d.twin.step = 2) (h8 : q < 8192)
    (hq : d.twin.queues = [(qpKey x q, p)]) (hp : p.state = .active) (frags : List AFrag) :
    ∃ (e : Dev) (o : Nat), (e = d.at t ∨ ∃ w, e = (d.at t).setReg 0x02500004 w) ∧ d.queueAdoption t frags =
      { (e.adoptFn x frags).eventPf 0x0121 o 0 with twin := { ((e.adoptFn x frags).eventPf 0x0121 o 0).twin with
        step := 3, movedUs := ((e.adoptFn x frags).eventPf 0x0121 o 0).timeUs } } := by
  have hxs : ((d.twin.queues.filter (fun p => p.2.state != .disabled)).map (fun p => p.1 / 8192)).eraseDups = [x] := by
    rw [hq, List.filter_cons_of_pos (by rw [hp]; rfl), List.filter_nil, List.map_singleton, qpKey_div _ h8]
    rfl
  have hfold : ∀ e : Dev, e.twin = d.twin → ((e.twin.queues.filter (fun p => p.2.state != .disabled)).map (fun p => p.1 / 8192)).eraseDups.foldl
      (fun d x => d.adoptFn x frags) e = e.adoptFn x frags := fun e he => by
    rw [he, hxs]
    rfl
  have hrun : ∀ (e : Dev) (o : Nat), e.twin = d.twin → (let xs := ((e.twin.queues.filter (fun p => p.2.state != .disabled)).map (fun p => p.1 / 8192)).eraseDups
      let d3 := (xs.foldl (fun d x => d.adoptFn x frags) e).eventPf 0x0121 o 0
      ({ d3 with twin := { d3.twin with step := 3, movedUs := d3.timeUs } } : Dev)) =
      { (e.adoptFn x frags).eventPf 0x0121 o 0 with twin := { ((e.adoptFn x frags).eventPf 0x0121 o 0).twin with
        step := 3, movedUs := ((e.adoptFn x frags).eventPf 0x0121 o 0).timeUs } } := fun e o he => by
    dsimp only
    rw [hfold e he]
  obtain ⟨hcase, htw⟩ := (d.at t).nodeSet_cases
  refine ⟨(d.at t).nodeSet, (d.at t).nodeTaken.getD 0, hcase, ?_⟩
  unfold Dev.queueAdoption
  refine (if_neg (show ¬ (decide (d.twin.state ≠ 4) || decide (d.twin.step ≠ 2)) = true by simp [h4, h2])).trans ?_
  exact hrun (d.at t).nodeSet ((d.at t).nodeTaken.getD 0) htw

/-- The node ID that the failed twin had leaves what the adoption of a function reads alone. -/
theorem Dev.standby_setReg (d : Dev) (w : Word) (x : Nat) : (d.setReg 0x02500004 w).standby x = d.standby x := by
  have hr : (d.setReg 0x02500004 w).regField 0x02A00000 13 0 = d.regField 0x02A00000 13 0 := by
    unfold Dev.regField
    rw [Dev.regN_setReg, if_neg (by decide)]
  have hn : ∀ y, (d.setReg 0x02500004 w).fnQueues y = d.fnQueues y := fun y => by
    unfold Dev.fnQueues Dev.pool
    rw [hr]
    rfl
  unfold Dev.standby
  dsimp only
  rw [hn]
  rfl

theorem queue_adopted {s : State} {t x q sx base : Nat} {p : Qp} (h4 : s.dev.twin.state = 4) (h2 : s.dev.twin.step = 2) (h8 : q < 8192)
    (hq : s.dev.twin.queues = [(qpKey x q, p)]) (hp : p.state = .active) (hs : s.dev.standby x = some (sx, base))
    (hfree : (s.dev.qp sx (base + q)).state = .disabled) (hc : s.dev.twin.cmds = []) (hd : s.dev.twin.dones = [])
    (ha : s.dev.twin.adopted = []) (haq : s.dev.twin.adoptedQ = []) :
    Effects (.queueAdoption t []) s (fun d =>
      d.twin.step = 3 ∧ d.twin.adopted = [(x, sx)] ∧ d.twin.adoptedQ = [(x, q, sx, base + q)] ∧ (d.qp sx (base + q)).state = .active ∧
      (d.qp sx (base + q)).sqBase = p.sqBase ∧ (d.qp sx (base + q)).cqBase = p.cqBase ∧ (d.qp sx (base + q)).cfg = p.cfg ∧
      (d.qp sx (base + q)).sqHead = p.sqHead ∧ (d.qp sx (base + q)).cmds = [] ∧ (d.fnGet sx).adopted) := by
  refine effects_run (t := t) (f := fun d => d.queueAdoption t []) rfl ?_
  obtain ⟨e, o, he, heq⟩ := Dev.queueAdoption_eq (d := s.dev.at t) (t := t) h4 h2 h8 hq hp []
  rw [heq]
  have hkeep : e.twin = s.dev.twin ∧ e.standby x = some (sx, base) ∧ e.qp sx (base + q) = s.dev.qp sx (base + q) := by
    rcases he with rfl | ⟨w, rfl⟩
    · exact ⟨rfl, hs, rfl⟩
    · exact ⟨rfl, (Dev.standby_setReg ..).trans hs, rfl⟩
  obtain ⟨htw, hst, hqp⟩ := hkeep
  have hview := (Dev.adoption_eventPf _ sx (base + q) 0x0121 o 0).trans
    (Dev.adoption_adoptFn (d := e) h8 (by rw [htw]; exact hq) hp (by rw [htw]; exact hc) (by rw [htw]; exact hd) hst (by rw [hqp]; exact hfree) [])
  generalize (e.adoptFn x []).eventPf 0x0121 o 0 = f at hview
  rw [htw, ha, haq] at hview
  exact ⟨rfl, congrArg (fun v => v.1.adopted) hview, congrArg (fun v => v.1.adoptedQ) hview, congrArg (fun v => v.2.1.1) hview,
    congrArg (fun v => v.2.1.2.1) hview, congrArg (fun v => v.2.1.2.2.1) hview, congrArg (fun v => v.2.1.2.2.2.1) hview, congrArg (fun v => v.2.1.2.2.2.2.1) hview,
    congrArg (fun v => v.2.1.2.2.2.2.2) hview, congrArg (fun v => v.2.2) hview⟩

/-! ### Recovery ends (R520) -/

theorem fieldAt_natLE (n k x : Nat) (a b : Bytes) (ha : a.length = k) : fieldAt (a ++ natLE n x ++ b) k n = x % 256 ^ n := by
  unfold fieldAt
  rw [List.append_assoc, List.drop_left' ha, List.take_left' (natLE_length n x), leNat_natLE]

/-- What TWIN_LAST_FAILOVER holds: when the partner was declared failed, and how long fencing and the move of the queues took. -/
def TwinSt.lastFailover (w : TwinSt) (now : Nat) : Bytes :=
  natLE 8 (w.declared.getD 0) ++ natLE 4 (min 0xFFFFFFFF (w.fencedUs - w.declaredUs)) ++ natLE 4 (min 0xFFFFFFFF (w.movedUs - w.declaredUs)) ++
    natLE 4 (min 0xFFFFFFFF (now - w.declaredUs)) ++ natLE 4 w.queuesTaken ++ natLE 2 (w.resumed - w.resubmitted) ++ natLE 2 w.resubmitted ++ zeros 4

theorem TwinSt.lastFailover_length (w : TwinSt) (now : Nat) : (w.lastFailover now).length = 32 := by
  unfold TwinSt.lastFailover
  simp only [List.length_append, natLE_length]
  rfl

/-- The end of the recovery: what was kept for the failed twin is dropped. -/
def Dev.recoveryEnd (d : Dev) : Dev :=
  let d1 := (d.setRegBytes 0x02B00040 (d.twin.lastFailover d.timeUs)).recovered 6 0
  { d1 with
    twin := { d1.twin with step := 5, declared := none, toResume := [], cmds := [], dones := [], queues := [], records := [], hello := false }
    store := { d1.store with spaces := d1.store.spaces.map (fun s => { s with partnerLow := none }) } }

theorem Dev.recoveryComplete_eq {d : Dev} {t : Nat} (h4 : d.twin.state = 4) (hs : d.twin.step = 4) (hh : d.twin.hello = false) :
    d.recoveryComplete t = ((d.at t).recoveryEnd.store.spaces.foldl (fun d s => d.holdMoved s.id) (d.at t).recoveryEnd).pauseRebuilds false := by
  unfold Dev.recoveryComplete
  refine (if_neg (show ¬ (decide (d.twin.state ≠ 4) || decide (d.twin.step ≠ 4)) = true by simp [h4, hs])).trans ?_
  refine (if_neg (show ¬ d.twin.hello = true by rw [hh]; exact Bool.false_ne_true)).trans ?_
  rfl

theorem TwinSt.lastFailover_fields (w : TwinSt) (now : Nat) : fieldAt (w.lastFailover now) 0 4 = (w.declared.getD 0) % 2 ^ 32 ∧
    fieldAt (w.lastFailover now) 8 4 = min 0xFFFFFFFF (w.fencedUs - w.declaredUs) ∧ fieldAt (w.lastFailover now) 12 4 = min 0xFFFFFFFF (w.movedUs - w.declaredUs) := by
  have hsmall : ∀ u, min 0xFFFFFFFF u % 256 ^ 4 = min 0xFFFFFFFF u := fun u => Nat.mod_eq_of_lt (by omega)
  unfold TwinSt.lastFailover
  simp only [List.append_assoc]
  refine ⟨?_, ?_, ?_⟩
  · rw [show natLE 8 (w.declared.getD 0) = natLE 4 (w.declared.getD 0) ++ natLE 4 (w.declared.getD 0 / 256 / 256 / 256 / 256) from rfl, List.append_assoc]
    exact fieldAt_natLE 4 0 _ [] _ rfl
  · exact ((congrArg (fun b => fieldAt b 8 4) (List.append_assoc ..).symm).trans (fieldAt_natLE 4 8 _ _ _ (natLE_length ..))).trans (hsmall _)
  · rw [← List.append_assoc (natLE 8 _), ← List.append_assoc]
    refine (fieldAt_natLE 4 12 _ _ _ ?_).trans (hsmall _)
    rw [List.length_append, natLE_length, natLE_length]

theorem Dev.recoveryEnd_spec (d : Dev) : d.recoveryEnd.twin = { d.twin with
      step := 5, declared := none, toResume := [], cmds := [], dones := [], queues := [], records := [], hello := false } ∧
    (6, 0) ∉ d.recoveryEnd.health.recovering ∧ ∀ i, i < 8 → d.recoveryEnd.regN (0x02B00040 + 4 * i) = fieldAt (d.twin.lastFailover d.timeUs) (4 * i) 4 := by
  obtain ⟨regs, he⟩ := d.setRegBytes_only 0x02B00040 (d.twin.lastFailover d.timeUs)
  have hr := fun i (hi : i < 8) => d.regN_setRegBytes 0x02B00040 (d.twin.lastFailover d.timeUs) (i := i) (by rw [d.twin.lastFailover_length]; exact hi)
  unfold Dev.recoveryEnd
  rw [he] at hr ⊢
  refine ⟨rfl, fun hm => ?_, hr⟩
  have := (List.mem_filter.1 hm).2
  rw [bne_self_eq_false] at this
  exact absurd this Bool.false_ne_true

/-- The floors of a twin that runs alone rise, and nobody is told. -/
theorem Dev.holdsMoved_alone (l : List TSpace) {d : Dev} (ha : d.twin.alone = true) : (l.foldl (fun d s => d.holdMoved s.id) d).twin = d.twin ∧
    (l.foldl (fun d s => d.holdMoved s.id) d).health = d.health ∧ (l.foldl (fun d s => d.holdMoved s.id) d).regs = d.regs :=
  foldl_holds (P := fun e => e.twin = d.twin ∧ e.health = d.health ∧ e.regs = d.regs) (fun e s he => by
    rw [Dev.holdMoved_alone (by rw [he.1]; exact ha)]
    exact he) l d ⟨rfl, rfl, rfl⟩

theorem recovery_ends {s : State} {t : Nat} (h4 : s.dev.twin.state = 4) (hs : s.dev.twin.step = 4) (hh : s.dev.twin.hello = false) :
    Effects (.recoveryComplete t) s (fun d =>
      d.twin.step = 5 ∧ d.twin.declared = none ∧ d.twin.cmds = [] ∧ d.twin.queues = [] ∧ d.twin.records = [] ∧ (∀ r ∈ d.store.rebuilds, r.paused = false) ∧
      (6, 0) ∉ d.health.recovering ∧ d.regN 0x02B00040 = (s.dev.twin.declared.getD 0) % 2 ^ 32 ∧
      d.regN 0x02B00048 = min 0xFFFFFFFF (s.dev.twin.fencedUs - s.dev.twin.declaredUs) ∧
      d.regN 0x02B0004C = min 0xFFFFFFFF (s.dev.twin.movedUs - s.dev.twin.declaredUs)) := by
  refine effects_run (t := t) (f := fun d => d.recoveryComplete t) rfl ?_
  rw [Dev.recoveryComplete_eq (d := s.dev.at t) h4 hs hh]
  obtain ⟨ht, hrec, hreg⟩ := ((s.dev.at t).at t).recoveryEnd_spec
  obtain ⟨f0, f8, f12⟩ := s.dev.twin.lastFailover_fields ((s.dev.at t).at t).timeUs
  have ha : ((s.dev.at t).at t).recoveryEnd.twin.alone = true := by
    rw [ht]
    exact (congrArg (fun k => k != 3) h4).trans rfl
  obtain ⟨mt, mh, mr⟩ := Dev.holdsMoved_alone ((s.dev.at t).at t).recoveryEnd.store.spaces ha
  generalize ((s.dev.at t).at t).recoveryEnd.store.spaces.foldl (fun d s => d.holdMoved s.id) ((s.dev.at t).at t).recoveryEnd = e at mt mh mr
  have hregs : ∀ a, (e.pauseRebuilds false).regN a = ((s.dev.at t).at t).recoveryEnd.regN a := fun a => Dev.regN_congr (by
    unfold Dev.reg
    change tabGet _ e.regs a = _
    rw [mr])
  have htw : (e.pauseRebuilds false).twin = _ := mt.trans ht
  rw [htw, hregs, hregs, hregs]
  refine ⟨rfl, rfl, rfl, rfl, rfl, fun r hr => ?_, ?_, (hreg 0 (by decide)).trans f0, (hreg 2 (by decide)).trans f8, (hreg 3 (by decide)).trans f12⟩
  · obtain ⟨k, -, rfl⟩ := List.mem_map.1 hr
    rfl
  · change _ ∉ e.health.recovering
    rw [mh]
    exact hrec

/-- Settles O39: the witness and the states of a twin that is alone are read off `Dev.writeWitness`, `Dev.standDown` and `Dev.survive`; each step of the failover
is followed through what it keeps of the ledger, of the adopted queue and of the twin. -/
theorem failover : Obligations.Failover := by
  unfold Obligations.Failover
  refine ⟨?_, ?_, ?_, ?_, ?_, ?_, ?_, ?_, ?_, ?_, ?_, ?_, ?_⟩
  · intro s t hp hs
    exact witness_written hp hs
  · intro s t i b hp hs hi hb hq
    exact witness_advances hp hs hi hb hq
  · intro s t i b hp hs hi hb hq
    exact witness_still hp hs hi hb hq
  · intro s t i b hp hs hi hb hf
    exact witness_fenced hp hs hi hb hf
  · intro s t h3 hr ha hw hu
    exact declared_won h3 hr ha hw hu
  · intro s t h3 hr ha hw
    exact declared_lost h3 hr ha hw
  · intro s t _ ha won
    exact declared_early ha won
  · intro s t h3 hp hs hr ha
    exact silent_standsDown h3 hp hs hr ha
  · intro s t hp h6
    exact conflict_stops hp h6
  · intro s t sp r h4 h1 hs ho hc hr hi hq ha hx
    exact failover_replays h4 h1 hs ho hc hr hi hq ha hx
  · intro s t x q sx base p h4 h2 _ h8 hq hp hs hfree _ hc hd ha haq
    exact queue_adopted h4 h2 h8 hq hp hs hfree hc hd ha haq
  · intro s t sx sq pc c h4 h3 hr hm hn
    exact queries_resume h4 h3 hr hm hn
  · intro s t h4 hs hh
    exact recovery_ends h4 hs hh

end Sys2Proof.Machine

/-!
PROOF. A relation that everything that falls due after a command keeps (Dev.tidy): its definition, the operations that it turns on, and facts of
the model's helpers. Where a statement's state and the one that a command leaves come to the same after it, the relation tells them apart.
-/
namespace Sys2Proof.Machine

set_option Elab.async false

/-- A register that the model draws when it is read: nothing writes it. -/
def linkWord : Nat := 0x0251070C

/-- Whether a drive command writes the record of a commit. -/
def DriveUse.isRecord : DriveUse → Bool
  | .commitRecord .. => true
  | _ => false

/-- Whether a chunk that waits at a stage's input has a place on the ladder of levels. -/
def StageRun.stows (st : StageRun) : Prop := ∃ c ∈ st.inq, c.held ≠ []

/-- The same for a stage of a query among queries. -/
def stowsIn (l : List Query) (id i : Nat) : Prop := ∃ q, l.find? (fun q => q.id == id) = some q ∧ (q.stage i).stows

/-- A system table waits for a mailbox that has answered nothing. -/
def sysWaits (u : Option SysUpdate) (boxes : Tab Mbox) : Prop :=
  ∃ k, u = some k ∧ (tabGet {} boxes k.x).busy = none ∧ (tabGet {} boxes k.x).resp = []

/-- No wipe, no session of the security block, no mode change that committed (it ends pacing), and no hearth quenched since. -/
def Dev.Calm (d : Dev) (hearths : Tab Hearth) (wipes : Nat) (sessions : List SecSession) (paced : Bool) : Prop :=
  wipes = 0 ∧ sessions = [] ∧ paced = true ∧
    ∀ h, (tabGet {} hearths h).quenched = true → (d.hearth h).quenched = true

/-- What a state and a later one have to do with each other, in the parts of the later one that it speaks of; of the last three only those
that κ names. -/
structure Dev.SteadyParts (κ : Nat → Prop) (d : Dev) (out : List Out) (regs : Tab Word) (drives : Tab Drive) (cmds : List DCmd) (ops : List LongOp)
    (queries : List Query) (hearths : Tab Hearth) (wipes : Nat) (sessions : List SecSession) (commits : List Commit) (spaces : List TSpace)
    (paced : Bool) (mode : Nat) (change : Option Change) (sys : Option SysUpdate) (boxes : Tab Mbox) (cache : List CacheEnt) : Prop where
  service : d.start.service = true
  /-- What has been sent stays sent. -/
  sent : d.out ⊆ out
  link : d.reg linkWord = 0 → tabGet (regReset linkWord) regs linkWord = 0
  /-- A drive that wakes goes on waking. -/
  waking : ∀ i, (d.drive i).waking = true → (tabGet {} drives i).waking = true
  /-- No command that writes a commit's record is issued or changed. -/
  records : ∀ c ∈ cmds, c.use.isRecord = true → c ∈ d.store.dcmds
  handles : d.mail.ops.length ≤ ops.length
  /-- No chunk that waits gets a place. -/
  stows : ∀ id i, stowsIn queries id i → stowsIn d.qry.queries id i
  /-- No slot of a hearth is filled. -/
  slots : ∀ h, (tabGet {} hearths h).slots ⊆ (d.hearth h).slots
  quench : ∀ h, (d.hearth h).quenched = true → (tabGet {} hearths h).quenched = true
  wipe : wipes = 0 → d.sec.wipes = 0 ∧ (sessions = [] → d.sec.sessions = [])
  paces : paced = true → d.pwr.paced = true
  noSpaces : spaces = [] → d.store.spaces = []
  waits : sysWaits sys boxes → sysWaits d.mail.sysUpdate d.mail.boxes
  /-- Commits before their records go on. -/
  writing : κ 0 → d.Calm hearths wipes sessions paced → (∃ c ∈ d.store.commits, c.st = .writing) → ∃ c ∈ commits, c.st = .writing
  /-- The first spare hearth is not powered below Serve mode. -/
  power : κ 1 → d.Calm hearths wipes sessions paced → spaces = [] → mode < 3 → change = none →
    d.pwr.mode < 3 ∧ d.pwr.change = none ∧ ((tabGet {} hearths 1).powered = true → (d.hearth 1).powered = true)
  /-- No entry of the image cache goes. -/
  entries : κ 2 → d.Calm hearths wipes sessions paced → spaces = [] → sysWaits sys boxes → cache = [] → d.qry.cache = []

/-- The same while the part serves. -/
def Dev.SteadyOf (κ : Nat → Prop) (d : Dev) (start : StartSt) (out : List Out) (regs : Tab Word) (drives : Tab Drive) (cmds : List DCmd)
    (ops : List LongOp) (queries : List Query) (hearths : Tab Hearth) (wipes : Nat) (sessions : List SecSession) (commits : List Commit)
    (spaces : List TSpace) (paced : Bool) (mode : Nat) (change : Option Change) (sys : Option SysUpdate) (boxes : Tab Mbox) (cache : List CacheEnt) : Prop :=
  start.service = true → d.SteadyParts κ out regs drives cmds ops queries hearths wipes sessions commits spaces paced mode change sys boxes cache

/-- The relation between a state and a later one. -/
def Dev.Steady (κ : Nat → Prop) (d e : Dev) : Prop :=
  d.SteadyOf κ e.start e.out e.regs e.store.drives e.store.dcmds e.mail.ops e.qry.queries e.qry.hearths e.sec.wipes e.sec.sessions e.store.commits
    e.store.spaces e.pwr.paced e.pwr.mode e.pwr.change e.mail.sysUpdate e.mail.boxes e.qry.cache

theorem Dev.steadyOf {κ : Nat → Prop} {d e : Dev} (h : d.Steady κ e) :
    d.SteadyOf κ e.start e.out e.regs e.store.drives e.store.dcmds e.mail.ops e.qry.queries e.qry.hearths e.sec.wipes e.sec.sessions
      e.store.commits e.store.spaces e.pwr.paced e.pwr.mode e.pwr.change e.mail.sysUpdate e.mail.boxes e.qry.cache := h

theorem Dev.Steady.refl (κ : Nat → Prop) (d : Dev) : d.Steady κ d := fun hs =>
  { service := hs, sent := List.Subset.refl _, link := id, waking := fun _ => id, records := fun _ hc _ => hc, handles := Nat.le_refl _
    stows := fun _ _ => id, slots := fun _ => List.Subset.refl _, quench := fun _ => id, wipe := fun h => ⟨h, id⟩, paces := id, noSpaces := id
    waits := id, writing := fun _ _ => id, power := fun _ _ _ hm hc => ⟨hm, hc, id⟩, entries := fun _ _ _ _ => id }

theorem Dev.steady_mk {κ : Nat → Prop} {d : Dev}
    {t f out regs cw cf host store qry fn fab twin mail mem health rcd pwr start sec rx4 pins tally op cy} :
    d.Steady κ (Dev.mk t f out regs cw cf host store qry fn fab twin mail mem health rcd pwr start sec rx4 pins tally op cy) ↔
      d.SteadyOf κ start out regs store.drives store.dcmds mail.ops qry.queries qry.hearths sec.wipes sec.sessions store.commits store.spaces
        pwr.paced pwr.mode pwr.change mail.sysUpdate mail.boxes qry.cache := Iff.rfl

section

variable {κ : Nat → Prop} {d e : Dev}

/-- The parts that κ need not name. -/
theorem Dev.Steady.weaken {ρ : Nat → Prop} (hρ : ∀ i, ρ i → κ i) (h : d.Steady κ e) : d.Steady ρ e := fun hs =>
  { h hs with writing := fun h0 => (h hs).writing (hρ 0 h0), power := fun h1 => (h hs).power (hρ 1 h1), entries := fun h2 => (h hs).entries (hρ 2 h2) }

/-- After a wipe, a session, a mode change or a quench the last three parts say nothing. -/
theorem Dev.Steady.of_stir (h : d.Steady (fun _ => False) e) (hc : e.start.service = true → ¬ d.Calm e.qry.hearths e.sec.wipes e.sec.sessions e.pwr.paced) :
    d.Steady κ e := fun hs =>
  { h hs with
    writing := fun _ h0 => absurd h0 (hc hs)
    power := fun _ h0 => absurd h0 (hc hs)
    entries := fun _ h0 => absurd h0 (hc hs) }

/-- Where the later state has what the spare hearth's power or the cache's part does not speak of, they say nothing. -/
theorem Dev.Steady.of_powered (h : d.Steady (fun i => κ i ∧ i ≠ 1) e)
    (hc : e.start.service = true → e.store.spaces = [] → e.pwr.mode < 3 → e.pwr.change = none → False) : d.Steady κ e := fun hs =>
  { h hs with
    writing := fun h0 => (h hs).writing ⟨h0, by decide⟩
    power := fun _ _ hsp hm hn => (hc hs hsp hm hn).elim
    entries := fun h2 => (h hs).entries ⟨h2, by decide⟩ }

theorem Dev.Steady.of_cached (h : d.Steady (fun i => κ i ∧ i ≠ 2) e)
    (hc : e.start.service = true → e.store.spaces = [] → sysWaits e.mail.sysUpdate e.mail.boxes → False) : d.Steady κ e := fun hs =>
  { h hs with
    writing := fun h0 => (h hs).writing ⟨h0, by decide⟩
    power := fun h1 => (h hs).power ⟨h1, by decide⟩
    entries := fun _ _ hsp hw _ => (hc hs hsp hw).elim }

theorem Dev.steady_foldl {α : Type} {f : Dev → α → Dev} (hf : ∀ x a, d.Steady κ x → d.Steady κ (f x a)) (h : d.Steady κ e) (l : List α) :
    d.Steady κ (l.foldl f e) := by
  induction l generalizing e with
  | nil => exact h
  | cons a l ih => exact ih (hf e a h)

theorem Dev.steady_foldl_fst {α β : Type} {e : Dev × α} {f : Dev × α → β → Dev × α} (hf : ∀ x b, d.Steady κ x.1 → d.Steady κ (f x b).1)
    (h : d.Steady κ e.1) (l : List β) : d.Steady κ (l.foldl f e).1 := by
  induction l generalizing e with
  | nil => exact h
  | cons b l ih => exact ih (hf e b h)

theorem Dev.steady_ite {a b : Dev} {c : Prop} [Decidable c] (ha : d.Steady κ a) (hb : d.Steady κ b) : d.Steady κ (if c then a else b) := by
  split_ifs
  exacts [ha, hb]

theorem Dev.steady_send (h : d.Steady κ e) (o : Out) : d.Steady κ (e.send o) := fun hs =>
  { h hs with sent := List.Subset.trans (h hs).sent (List.subset_append_left _ _) }

/-! ### Registers -/

theorem Dev.steady_setWord (h : d.Steady κ e) {a : Nat} {w : Word} (hl : a = linkWord → w = 0) : d.Steady κ (e.setReg a w) := fun hs => by
  refine { h hs with link := fun h0 => ?_ }
  change (e.setReg a w).reg linkWord = 0
  rw [Dev.reg_setReg_at]
  split_ifs with ha
  · exact hl ha.symm
  · exact (h hs).link h0

theorem Dev.steady_setReg (h : d.Steady κ e) {a : Nat} (ha : a ≠ linkWord) (w : Word) : d.Steady κ (e.setReg a w) :=
  Dev.steady_setWord h (fun hl => absurd hl ha)

theorem Dev.steady_clearReg (h : d.Steady κ e) (a : Nat) : d.Steady κ (e.setReg a 0) := Dev.steady_setWord h (fun _ => rfl)

theorem Dev.steady_setReg64 (h : d.Steady κ e) {a : Nat} (ha : a ≠ linkWord) (ha4 : a + 4 ≠ linkWord) (v : Nat) :
    d.Steady κ (e.setReg64 a v) :=
  Dev.steady_setReg (Dev.steady_setReg h ha _) ha4 _

theorem Dev.steady_bump (h : d.Steady κ e) {a : Nat} (ha : a ≠ linkWord) (n : Nat) : d.Steady κ (e.bump a n) := by
  unfold Dev.bump
  split_ifs
  · exact h
  · exact Dev.steady_setReg (e := { e with tally := tabUpd 0 e.tally a (· + n) }) h ha _

theorem Dev.steady_count64 (h : d.Steady κ e) {a : Nat} (ha : a ≠ linkWord) (ha4 : a + 4 ≠ linkWord) (n : Nat) : d.Steady κ (e.count64 a n) := by
  unfold Dev.count64
  split_ifs
  · exact h
  · exact Dev.steady_setReg64 h ha ha4 _

theorem Dev.steady_setField (h : d.Steady κ e) {a : Nat} (ha : a ≠ linkWord) (hi lo v : Nat) : d.Steady κ (e.setField a hi lo v) :=
  Dev.steady_setReg h ha _

theorem Dev.steady_setRegBytes (h : d.Steady κ e) {a : Nat} {b : Bytes} (ha : ∀ i, i < ceilDiv b.length 4 → a + 4 * i ≠ linkWord) :
    d.Steady κ (e.setRegBytes a b) := by
  have key : ∀ l : List Nat, (∀ i ∈ l, i < ceilDiv b.length 4) → ∀ e, d.Steady κ e →
      d.Steady κ (l.foldl (fun d i => d.setReg (a + 4 * i) (BitVec.ofNat 32 (fieldAt b (4 * i) 4))) e) := fun l => by
    induction l with
    | nil => exact fun _ e he => he
    | cons i l ih =>
      exact fun hl e he => ih (fun j hj => hl j (List.mem_cons_of_mem _ hj)) _ (Dev.steady_setReg he (ha i (hl i List.mem_cons_self)) _)
  exact key _ (fun i hi => List.mem_range.1 hi) e h

/-! ### Drives, hearths, long operations, mailboxes, table spaces and commits -/

theorem Dev.steady_driveUpd (h : d.Steady κ e) (i : Nat) {f : Drive → Drive} (hf : ∀ k, k.waking = true → (f k).waking = true) :
    d.Steady κ (e.driveUpd i f) := fun hs => { h hs with
  waking := fun j hj => by
    have h6 := (h hs).waking j hj
    rw [Dev.driveUpd, tabGet_upd]
    split_ifs with hji
    · rw [hji] at h6; exact hf _ h6
    · exact h6 }

/-- A hearth whose slots do not fill, which stays quenched, and is powered only if it was, or the relation does not say. -/
def Hearth.Settles (p : Prop) (x y : Hearth) : Prop :=
  y.slots ⊆ x.slots ∧ (x.quenched = true → y.quenched = true) ∧ (y.powered = true → x.powered = true ∨ p)

theorem Dev.steady_hearths (h : d.Steady κ e) {l : Tab Hearth} (hl : ∀ k, (e.hearth k).Settles (k = 1 → ¬ κ 1) (tabGet {} l k)) :
    d.Steady κ { e with qry := { e.qry with hearths := l } } := fun hs => by
  have he := h hs
  have hcalm : d.Calm l e.sec.wipes e.sec.sessions e.pwr.paced → d.Calm e.qry.hearths e.sec.wipes e.sec.sessions e.pwr.paced :=
    fun ⟨hwipe, hsess, hreg, hq⟩ => ⟨hwipe, hsess, hreg, fun k hk => hq k ((hl k).2.1 hk)⟩
  exact { he with
    slots := fun k => List.Subset.trans (hl k).1 (he.slots k)
    quench := fun k hk => (hl k).2.1 (he.quench k hk)
    writing := fun h0 h1 => he.writing h0 (hcalm h1)
    power := fun h0 h1 hsp hm hc => by
      obtain ⟨hm', hc', hp⟩ := he.power h0 (hcalm h1) hsp hm hc
      exact ⟨hm', hc', fun hk => ((hl 1).2.2 hk).elim hp (fun hn => absurd h0 (hn rfl))⟩
    entries := fun h0 h1 => he.entries h0 (hcalm h1) }

theorem Hearth.settles_refl (p : Prop) (x : Hearth) : x.Settles p x := ⟨List.Subset.refl _, id, Or.inl⟩

theorem Dev.steady_hearthUpd (h : d.Steady κ e) (k : Nat) {f : Hearth → Hearth} (hf : ∀ x : Hearth, x.Settles (k = 1 → ¬ κ 1) (f x)) :
    d.Steady κ (e.hearthUpd k f) :=
  Dev.steady_hearths h fun j => by
    rw [tabGet_upd]
    split_ifs with hj
    · rw [hj]; exact hf _
    · exact Hearth.settles_refl _ _

theorem Dev.steady_opUpd (h : d.Steady κ e) (k : Nat) (f : LongOp → LongOp) : d.Steady κ (e.opUpd k f) := fun hs =>
  { h hs with handles := (h hs).handles.trans (Nat.le_of_eq (List.length_map ..).symm) }

theorem Dev.steady_mboxUpd (h : d.Steady κ e) (x : Nat) {f : Mbox → Mbox}
    (hf : ∀ m, (f m).busy = none → (f m).resp = [] → m.busy = none ∧ m.resp = []) :
    d.Steady κ (e.mboxUpd x f) := fun hs => by
  have he := h hs
  have hw : sysWaits e.mail.sysUpdate (tabUpd {} e.mail.boxes x f) → sysWaits e.mail.sysUpdate e.mail.boxes := fun ⟨u, hu, hb, hr⟩ => by
    refine ⟨u, hu, ?_⟩
    rw [tabGet_upd] at hb hr
    split_ifs at hb hr with hx
    · rw [hx]; exact hf _ hb hr
    · exact ⟨hb, hr⟩
  exact { he with waits := fun h0 => he.waits (hw h0), entries := fun h0 h1 h2 h3 => he.entries h0 h1 h2 (hw h3) }

theorem updWhere_eq_nil {α : Type} {p : α → Bool} {f : α → α} {l : List α} (h : updWhere p f l = []) : l = [] := List.map_eq_nil_iff.1 h

theorem Dev.steady_spaceUpd (h : d.Steady κ e) (id : Nat) (f : TSpace → TSpace) : d.Steady κ (e.spaceUpd id f) := fun hs =>
  { h hs with
    noSpaces := fun h0 => (h hs).noSpaces (updWhere_eq_nil h0)
    power := fun h0 h1 h2 => (h hs).power h0 h1 (updWhere_eq_nil h2)
    entries := fun h0 h1 h2 => (h hs).entries h0 h1 (updWhere_eq_nil h2) }

theorem Dev.steady_commitUpd (h : d.Steady κ e) (ts epoch : Nat) {f : Commit → Commit} (hf : ∀ c, c.st = .writing → (f c).st = .writing) :
    d.Steady κ (e.commitUpd ts epoch f) := fun hs =>
  { h hs with
    writing := fun h0 h1 h2 => by
      obtain ⟨c, hc, hst⟩ := (h hs).writing h0 h1 h2
      refine ⟨_, List.mem_map_of_mem hc, ?_⟩
      split_ifs
      exacts [hf c hst, hst] }

end

theorem regRow_linkWord : (regRow linkWord).map (·.acc) = some .rc := by decide +kernel

theorem regRows_writable_linkWord : ∀ r ∈ regRows, r.acc = .cw →
    linkWord < r.base ∨ ((linkWord - r.base) % r.stride ≠ 0 ∧ (linkWord - 4 - r.base) % r.stride ≠ 0) := by decide +kernel

/-- No register that a compare-and-write changes has the word that the model draws. -/
theorem RegRow.start_ne_linkWord {r : RegRow} {a : Nat} (hr : regRow a = some r) (hw : r.acc = .cw) :
    r.start a ≠ linkWord ∧ r.start a + 4 ≠ linkWord := by
  have h := regRows_writable_linkWord r (List.mem_of_find?_eq_some hr) hw
  have key : ∀ k : Nat, r.base + k * r.stride ≠ linkWord ∧ r.base + k * r.stride + 4 ≠ linkWord := fun k => by
    have h1 : (k * r.stride) % r.stride = 0 := Nat.mul_mod_left ..
    constructor <;> intro hk
    · rcases h with h | ⟨h2, -⟩
      · omega
      · rw [← hk, Nat.add_sub_cancel_left] at h2; exact h2 h1
    · rcases h with h | ⟨-, h2⟩
      · omega
      · rw [← hk, Nat.add_sub_cancel, Nat.add_sub_cancel_left] at h2; exact h2 h1
  unfold RegRow.start
  split_ifs
  · simpa using key 0
  · exact key _

theorem Dev.query_queryUpd_ne (d : Dev) {id k : Nat} {f : Query → Query} (hf : ∀ q, (f q).id = q.id) (hk : k ≠ id) :
    (d.queryUpd id f).query k = d.query k := by
  unfold Dev.query Dev.queryUpd
  dsimp only
  induction d.qry.queries with
  | nil => rfl
  | cons q l ih =>
    change ((if q.id == id then f q else q) :: updWhere (fun q => q.id == id) f l).find? _ = _
    by_cases hq : q.id = id
    · have hn : ¬ (q.id == k) = true := by simp only [beq_iff_eq]; omega
      rw [if_pos (beq_iff_eq.2 hq), List.find?_cons_of_neg (by rw [hf]; exact hn), ih]
      exact (List.find?_cons_of_neg (p := fun q : Query => q.id == k) hn).symm
    · rw [if_neg (by simpa using hq), List.find?_cons, List.find?_cons, ih]

/-- A change of a stage's run leaves the runs of the others. -/
theorem Query.stage_stageUpd (q : Query) (i j : Nat) (f : StageRun → StageRun) :
    (q.stageUpd i f).stage j = q.stage j ∨ j = i ∧ (q.stageUpd i f).stage j = f (q.stage j) := by
  change (updAt q.stages i f).getD j {} = q.stages.getD j {} ∨ _ ∧ (updAt q.stages i f).getD j {} = f (q.stages.getD j {})
  unfold updAt
  rw [List.getD_eq_getElem?_getD, List.getD_eq_getElem?_getD, List.getElem?_modify]
  by_cases hij : i = j
  · cases q.stages[j]? with
    | none => exact .inl rfl
    | some a => exact .inr ⟨hij.symm, by simp [hij]⟩
  · exact .inl (by simp [hij])

theorem StageRun.stows_of_inq {st st' : StageRun} (hi : st'.inq = st.inq) (h : st'.stows) : st.stows := by
  unfold StageRun.stows at h
  rwa [hi] at h

theorem tabGet_map_settles {p : Prop} {f : Hearth → Hearth} (hf : ∀ x : Hearth, x.Settles p (f x)) (l : Tab Hearth) (h : Nat) :
    (tabGet {} l h).Settles p (tabGet {} (l.map (fun x => (x.1, f x.2))) h) := by
  induction l with
  | nil => exact Hearth.settles_refl _ _
  | cons x l ih =>
    rw [List.map_cons, tabGet, tabGet]
    split_ifs
    · exact hf x.2
    · exact ih

theorem find?_of_filter_ne {l : List Query} {k id : Nat} {p : Query} (h : (l.filter (fun q => q.id != id)).find? (fun q => q.id == k) = some p) :
    l.find? (fun q => q.id == k) = some p := by
  rw [List.find?_filter] at h
  have hk : p.id ≠ id ∧ p.id = k := by simpa using List.find?_some h
  rw [← h]
  congr 1
  funext q
  by_cases hq : q.id = k
  · simp [hq, ← hk.2, hk.1]
  · simp [hq]

theorem StageRun.stows_of_append {st st' : StageRun} {c : Chunk} (hi : st'.inq = st.inq ++ [c]) (hc : c.held = []) (h : st'.stows) : st.stows := by
  obtain ⟨x, hx, hne⟩ := h
  rw [hi] at hx
  rcases List.mem_append.1 hx with hx | hx
  · exact ⟨x, hx, hne⟩
  · rw [List.mem_singleton.1 hx] at hne
    exact absurd hc hne

/-- A message that an EXCHANGE_RECV takes is a chunk with no place on the ladder of levels. -/
theorem recvLoop_stows (me : Nat) (q : Query) (i n : Nat) {fl : List RFlow} {st : StageRun} (h : (recvLoop me q i n fl st).2.stows) : st.stows := by
  induction n generalizing fl st with
  | zero => exact h
  | succ n ih =>
    unfold recvLoop at h
    extract_lets s p tys mine chunk want gone ss at h
    split at h
    · split at h
      · exact StageRun.stows_of_inq (by rfl) (ih h)
      · split at h
        · exact h
        · extract_lets f at h
          split at h
          · replace h := ih h
            split at h
            · exact h
            · exact StageRun.stows_of_append (by rfl) (by rfl) h
          · exact h
    · split at h
      · split at h
        · exact h
        · exact StageRun.stows_of_inq (by rfl) (ih h)
      · split at h
        · exact h
        · split at h
          · exact StageRun.stows_of_inq (by rfl) (ih h)
          · split at h
            · split at h
              · extract_lets _ st1 at h
                have h1 : st1.inq = st.inq := by unfold st1; split <;> rfl
                exact StageRun.stows_of_inq h1 (StageRun.stows_of_append (by rfl) (by rfl) (ih h))
              · exact h
            · split at h
              · exact StageRun.stows_of_inq (by rfl) (ih h)
              · exact h
            · exact h

/-- What each level of a recursion on fuel keeps, the recursion keeps: for a function whose equations are too large to unfold. -/
theorem brecOn_induct {α : Type} {P : α → Prop} {F : (n : Nat) → Nat.below (motive := fun _ => α → α) n → α → α}
    (h0 : ∀ b a, P a → P (F 0 b a))
    (hs : ∀ n (b : Nat.below (motive := fun _ => α → α) (n + 1)), (∀ a, P a → P (b.1 a)) → ∀ a, P a → P (F (n + 1) b a)) (n : Nat) {a : α}
    (ha : P a) : P (Nat.brecOn (motive := fun _ => α → α) n F a) := by
  induction n generalizing a with
  | zero => exact h0 _ a ha
  | succ n ih => exact hs n _ (fun b hb => ih hb) a ha

end Sys2Proof.Machine

/-!
PROOF. What falls due keeps the relation Dev.Steady: the state, memory, claims and the store.
-/
namespace Sys2Proof.Machine

set_option Elab.async false

section

variable {κ : Nat → Prop} {d₀ dev : Dev} (hd : d₀.Steady κ dev)
include hd

/-! ### The functions of Machine/Ops -/

theorem Dev.steady_draw : d₀.Steady κ dev.draw.2 := by
  exact hd

theorem Dev.steady_fnUpd (x : Nat) (f : Fn → Fn) : d₀.Steady κ (dev.fnUpd x f) := by
  unfold Dev.fnUpd
  simp +decide only [Dev.steady_mk, Dev.steadyOf, hd]

theorem Dev.steady_vector (x v : Nat) : d₀.Steady κ (dev.vector x v) := by
  unfold Dev.vector
  dsimp only
  (repeat' split) <;> simp +decide only [Dev.steady_fnUpd, Dev.steady_send, Dev.steady_mk, Dev.steadyOf, hd]

theorem Dev.steady_hostWrite (x addr : Nat) (b : Bytes) : d₀.Steady κ (dev.hostWrite x addr b) := by
  unfold Dev.hostWrite
  dsimp only
  (repeat' split) <;> simp +decide only [Dev.steady_fnUpd, Dev.steady_send, Dev.steady_mk, Dev.steadyOf, hd]

theorem Dev.steady_tracePut (r : TRec) : d₀.Steady κ (dev.tracePut r).1 := by
  unfold Dev.tracePut
  dsimp only
  split
  · exact Dev.steady_bump (by exact hd) (by decide) _
  · have hs : dev.out ⊆ if dev.sec.debug = 0 then dev.out
        else dev.out ++ [.tport (r.bytes (1000 * dev.timeUs) (dev.reg64 0x02400058))] := by
      split_ifs
      · exact List.Subset.refl _
      · exact List.subset_append_left _ _
    refine Dev.steady_setReg64 (fun h => ?_) (by decide) (by decide) _
    exact { hd h with sent := List.Subset.trans (hd h).sent hs }

theorem Dev.steady_trace (r : TRec) : d₀.Steady κ (dev.trace r) := by
  unfold Dev.trace
  dsimp only
  split
  · exact hd
  · exact Dev.steady_tracePut (Dev.steady_ite (Dev.steady_ite (by exact Dev.steady_tracePut hd _) hd) hd) _

theorem Dev.steady_delay (l ticks tag : Nat) : d₀.Steady κ (dev.delay l ticks tag) := by
  unfold Dev.delay
  dsimp only
  split
  · exact Dev.steady_trace (Dev.steady_bump hd (by decide) _) _
  · exact hd

theorem Dev.steady_setDelays (l : Nat) (es : List Delay) : d₀.Steady κ (dev.setDelays l es) := by
  unfold Dev.setDelays
  simp +decide only [Dev.steady_bump, Dev.steady_mk, Dev.steadyOf, hd]

theorem Dev.steady_dropCmds (p : DCmd → Bool) : d₀.Steady κ (dev.dropCmds p) := by
  unfold Dev.dropCmds
  refine Dev.steady_setDelays (Dev.steady_setDelays (fun hs => ?_) _ _) _ _
  exact { hd hs with records := fun c hc hr => (hd hs).records c (List.mem_of_mem_filter hc) hr }

theorem Dev.steady_qpUpd (x q : Nat) (f : Qp → Qp) : d₀.Steady κ (dev.qpUpd x q f) := by
  unfold Dev.qpUpd
  simp +decide only [Dev.steady_mk, Dev.steadyOf, hd]

theorem Dev.steady_twinFrame (kind : Nat) (body : List Nat) (data : Bytes) (act : TAct) : d₀.Steady κ (dev.twinFrame kind body data act) := by
  unfold Dev.twinFrame
  dsimp only
  split
  · exact hd
  · exact Dev.steady_send (Dev.steady_delay (by exact hd) _ _ _) _

theorem Dev.steady_twinSend (kind : Nat) (body : List Nat) (data : Bytes) (act : TAct := .none) :
    d₀.Steady κ (dev.twinSend kind body data act) := by
  unfold Dev.twinSend
  (repeat' split) <;> simp +decide only [Dev.steady_twinFrame, hd]

theorem Dev.steady_readyCompl (x q idx : Nat) (c : Compl) : d₀.Steady κ (dev.readyCompl x q idx c) := by
  unfold Dev.readyCompl
  simp +decide only [Dev.steady_twinSend, Dev.steady_qpUpd, hd]

theorem Dev.steady_retire (x q cid : Nat) (c : Compl) : d₀.Steady κ (dev.retire x q cid c) := by
  unfold Dev.retire
  (repeat' split) <;> simp +decide only [Dev.steady_readyCompl, Dev.steady_qpUpd, hd]

theorem Dev.steady_flushes (x : Nat) : d₀.Steady κ (dev.flushes x) := by
  unfold Dev.flushes
  exact Dev.steady_foldl (fun _ _ hx => Dev.steady_foldl (fun _ _ hx1 => Dev.steady_ite (Dev.steady_retire hx1 _ _ _ _) hx1) hx _) hd _

theorem Dev.steady_complete (x q cid : Nat) (c : Compl) : d₀.Steady κ (dev.complete x q cid c) := by
  unfold Dev.complete
  simp +decide only [Dev.steady_flushes, Dev.steady_retire, hd]


theorem Dev.steady_mboxVector (x : Nat) : d₀.Steady κ (dev.mboxVector x) := by
  unfold Dev.mboxVector
  dsimp only
  (repeat' split) <;> simp +decide only [Dev.steady_vector, hd]

theorem Dev.steady_event (x code object data : Nat) : d₀.Steady κ (dev.event x code object data) := by
  unfold Dev.event
  dsimp only
  have h1 : d₀.Steady κ (dev.mboxUpd x fun m => if 64 ≤ m.events.length
      then { m with events := m.events.drop 1 ++ [⟨code, object, data, dev.eventTime⟩], lost := m.lost + 1 }
      else { m with events := m.events ++ [⟨code, object, data, dev.eventTime⟩] }) :=
    Dev.steady_mboxUpd hd x fun m hb hr => by split at hb <;> split at hr <;> exact ⟨hb, hr⟩
  exact Dev.steady_ite (Dev.steady_mboxVector h1 _) h1

theorem Dev.steady_eventPf (code object data : Nat) : d₀.Steady κ (dev.eventPf code object data) := by
  unfold Dev.eventPf
  simp +decide only [Dev.steady_event, hd]

theorem Dev.steady_countRepair (i : Nat) : d₀.Steady κ (dev.countRepair i) := by
  unfold Dev.countRepair
  simp +decide only [Dev.steady_mk, Dev.steadyOf, hd]

theorem Dev.steady_recover (code unit : Nat) : d₀.Steady κ (dev.recover code unit) := by
  unfold Dev.recover
  (repeat' split) <;> simp +decide only [Dev.steady_mk, Dev.steadyOf, hd]

theorem Dev.steady_recovered (code unit : Nat) : d₀.Steady κ (dev.recovered code unit) := by
  unfold Dev.recovered
  simp +decide only [Dev.steady_mk, Dev.steadyOf, hd]

theorem Dev.steady_repairWritten : d₀.Steady κ dev.repairWritten := by
  unfold Dev.repairWritten
  simp +decide only [Dev.steady_mk, Dev.steadyOf, hd]

/-! ### The functions of Machine/Mem -/

theorem Dev.steady_memUnitUpd (u : Nat) (f : MemUnit → MemUnit) : d₀.Steady κ (dev.memUnitUpd u f) := by
  unfold Dev.memUnitUpd
  simp +decide only [Dev.steady_mk, Dev.steadyOf, hd]

theorem Dev.steady_dropLines (p : Nat → Bool) : d₀.Steady κ (dev.dropLines p) := by
  unfold Dev.dropLines
  simp +decide only [Dev.steady_mk, Dev.steadyOf, hd]

theorem Dev.steady_openRegion (ctx tier pages lock : Nat) (use : RegionFor) : d₀.Steady κ (dev.openRegion ctx tier pages lock use) := by
  unfold Dev.openRegion
  simp +decide only [Dev.steady_mk, Dev.steadyOf, hd]

theorem Dev.steady_closeRegions (use : RegionFor) : d₀.Steady κ (dev.closeRegions use) := by
  unfold Dev.closeRegions
  simp +decide +contextual only [Dev.steady_memUnitUpd, Dev.steady_mk, Dev.steadyOf, hd, Dev.steady_foldl, implies_true]

theorem Dev.steady_dramDomain (n st : Nat) : d₀.Steady κ (dev.dramDomain n st) := by
  unfold Dev.dramDomain
  simp +decide only [Dev.steady_memUnitUpd, Dev.steady_mk, Dev.steadyOf, hd]

theorem Dev.steady_invalidate (ctx dva n : Nat) : d₀.Steady κ (dev.invalidate ctx dva n) := by
  unfold Dev.invalidate
  exact Dev.steady_bump (Dev.steady_foldl (fun _ _ hx => Dev.steady_dropLines hx _) hd _) (by decide) _

theorem Dev.steady_setLock (i : Nat) (k : LockEnt) : d₀.Steady κ (dev.setLock i k) := by
  unfold Dev.setLock
  refine Dev.steady_setReg ?_ (by unfold linkWord; omega) _
  dsimp only
  split
  · exact hd
  · exact hd

/-! ### The functions of Machine/Claims -/

theorem Dev.steady_endClaim (c : Claim) : d₀.Steady κ (dev.endClaim c) := by
  unfold Dev.endClaim
  dsimp only
  split
  · exact Dev.steady_setReg (by exact hd) (by unfold linkWord; omega) _
  · split
    · exact Dev.steady_setLock (by exact hd) _ _
    · split
      · exact Dev.steady_closeRegions (by exact hd) _
      · split
        · exact Dev.steady_hearthUpd hd c.index (f := fun h => { h with rx4 := false }) (fun _ => ⟨List.Subset.refl _, id, Or.inl⟩)
        · exact hd

theorem Dev.steady_addClaim (c : Claim) : d₀.Steady κ (dev.addClaim c) := by
  unfold Dev.addClaim
  dsimp only
  split
  · exact Dev.steady_setLock (by exact hd) _ _
  · split
    · exact Dev.steady_hearthUpd hd c.index (f := fun h => { h with rx4 := true }) (fun _ => ⟨List.Subset.refl _, id, Or.inl⟩)
    · exact hd

theorem Dev.steady_claimWays (x feature n : Nat) : d₀.Steady κ (dev.claimWays x feature n).2 := by
  unfold Dev.claimWays
  dsimp only
  split
  · split
    · exact Dev.steady_addClaim hd _
    · exact hd
  · exact hd

theorem Dev.steady_claim (x feature cls index n bytes : Nat) : d₀.Steady κ (dev.claim x feature cls index n bytes).2 := by
  unfold Dev.claim
  split
  · exact Dev.steady_claimWays hd _ _ _
  · extract_lets pages take
    have ht : ∀ e, d₀.Steady κ e → d₀.Steady κ (take e).2 := fun e he => by
      dsimp only [take]
      split
      · split
        · exact he
        · exact Dev.steady_addClaim (Dev.steady_openRegion he _ _ _ _ _) _
      · exact Dev.steady_addClaim he _
    split
    · exact ht _ hd
    · split
      · refine ht _ ?_
        split
        · exact Dev.steady_event (Dev.steady_endClaim hd _) _ _ _ _
        · exact Dev.steady_endClaim hd _
      · exact hd

/-! ### The functions of Machine/Store -/


theorem Dev.steady_raiseFloor (ts : Nat) : d₀.Steady κ (dev.raiseFloor ts) := by
  unfold Dev.raiseFloor
  simp +decide only [Dev.steady_spaceUpd, hd]

theorem Dev.steady_tellHold (ts hold epoch take : Nat) (act : TAct) : d₀.Steady κ (dev.tellHold ts hold epoch take act) := by
  unfold Dev.tellHold
  simp +decide only [Dev.steady_twinSend, Dev.steady_spaceUpd, hd]

theorem Dev.steady_tellLow (ts : Nat) : d₀.Steady κ (dev.tellLow ts) := by
  unfold Dev.tellLow
  (repeat' split) <;> simp +decide only [Dev.steady_tellHold, hd]

theorem Dev.steady_holdMoved (ts : Nat) : d₀.Steady κ (dev.holdMoved ts) := by
  unfold Dev.holdMoved
  simp +decide only [Dev.steady_tellLow, Dev.steady_raiseFloor, hd]

end

end Sys2Proof.Machine

/-!
PROOF. What falls due keeps the relation Dev.Steady: queries, the fabric and commits.
-/
namespace Sys2Proof.Machine

set_option Elab.async false

section

variable {κ : Nat → Prop} {d₀ dev : Dev} (hd : d₀.Steady κ dev)
include hd

/-! ### The functions of Machine/QBase -/

theorem Dev.steady_emptyGroups (hκ : ¬ κ 2) (p : Nat → Bool) : d₀.Steady κ (dev.emptyGroups p) := fun hs =>
  { hd hs with entries := fun h => absurd h hκ }

theorem Dev.steady_queryUpd (id : Nat) {f : Query → Query} (hid : ∀ q, (f q).id = q.id)
    (hf : ∀ q, dev.query id = some q → ∀ i, ((f q).stage i).stows → (q.stage i).stows) : d₀.Steady κ (dev.queryUpd id f) := by
  intro hs
  refine { hd hs with stows := fun k i hk => (hd hs).stows k i ?_ }
  obtain ⟨q, hq, hst⟩ := hk
  change (dev.queryUpd id f).query k = some q at hq
  by_cases hkid : k = id
  · rw [hkid, Dev.query_queryUpd_of_id _ _ hid] at hq
    obtain ⟨p, hp, rfl⟩ := Option.map_eq_some_iff.1 hq
    exact ⟨p, by rw [hkid]; exact hp, hf p hp i hst⟩
  · exact ⟨q, by rw [← hq]; exact (Dev.query_queryUpd_ne _ hid hkid).symm, hst⟩

theorem Dev.steady_stageUpd (id i : Nat) {f : StageRun → StageRun} (hf : ∀ q, dev.query id = some q → (f (q.stage i)).stows → (q.stage i).stows) :
    d₀.Steady κ (dev.stageUpd id i f) := by
  refine Dev.steady_queryUpd hd id (fun _ => rfl) (fun q hq j hj => ?_)
  rcases q.stage_stageUpd i j f with h | ⟨rfl, h⟩
  · rwa [h] at hj
  · exact hf q hq (by rwa [h] at hj)

theorem Dev.steady_chargeUpd (r : CRef) (f : Charge → Charge) : d₀.Steady κ (dev.chargeUpd r f) := by
  exact Dev.steady_stageUpd hd _ _ (fun _ _ h => h)

theorem Dev.steady_addV (x clocks : Nat) : d₀.Steady κ (dev.addV x clocks) := by
  unfold Dev.addV
  simp +decide only [Dev.steady_mk, Dev.steadyOf, hd]

theorem Dev.steady_cancelCharge (r : CRef) (cause : Nat) : d₀.Steady κ (dev.cancelCharge r cause) := by
  unfold Dev.cancelCharge
  split
  · next q c _ _ =>
    split
    · exact hd
    · extract_lets ord d1 d2 d3 d4
      have h1 : d₀.Steady κ d1 := Dev.steady_chargeUpd hd _ _
      clear_value d1
      have h2 : d₀.Steady κ d2 := by
        dsimp only [d2]
        split
        · exact Dev.steady_hearthUpd h1 _ (fun _ => ⟨fun _ hy => List.mem_of_mem_filter hy, id, Or.inl⟩)
        · exact h1
      have h3 : d₀.Steady κ d3 := Dev.steady_trace h2 _
      have h4 : d₀.Steady κ d4 := Dev.steady_ite h3 (Dev.steady_dropCmds h3 _)
      exact Dev.steady_ite (Dev.steady_trace (Dev.steady_bump h4 (by decide) _) _) h4
  · exact hd

theorem Dev.steady_cancelStage (id i cause : Nat) : d₀.Steady κ (dev.cancelStage id i cause) := by
  unfold Dev.cancelStage
  dsimp only
  split
  · exact Dev.steady_foldl (fun _ _ hx => Dev.steady_ite (Dev.steady_chargeUpd hx _ _) (Dev.steady_cancelCharge hx _ _)) hd _
  · exact hd

theorem Dev.steady_endQuery (id : Nat) (e : Ending) (cause : Nat) : d₀.Steady κ (dev.endQuery id e cause) := by
  unfold Dev.endQuery
  split
  · refine Dev.steady_ite hd (Dev.steady_foldl (fun _ _ hx => Dev.steady_cancelStage hx _ _ _)
      (Dev.steady_queryUpd hd _ (fun _ => by rfl) (fun _ _ _ h => by exact h)) _)
  · exact hd

theorem Dev.steady_failAt (id status stage : Nat) : d₀.Steady κ (dev.failAt id status stage) := by
  unfold Dev.failAt
  simp +decide only [Dev.steady_endQuery, hd]

/-! ### The functions of Machine/Fabric -/

theorem Dev.steady_assocUpd (peer me : Nat) (f : Assoc → Assoc) : d₀.Steady κ (dev.assocUpd peer me f) := by
  unfold Dev.assocUpd
  simp +decide only [Dev.steady_mk, Dev.steadyOf, hd]

theorem Dev.steady_emit (a : Assoc) (path : Nat × Bytes) (kind psn : Nat) (body bytes : Bytes) :
    d₀.Steady κ (dev.emit a path kind psn body bytes) := by
  unfold Dev.emit
  dsimp only
  (repeat' split) <;> simp +decide only [Dev.steady_send, Dev.steady_mk, Dev.steadyOf, hd]

theorem Dev.steady_vxpTimer (peer me kind us : Nat) : d₀.Steady κ (dev.vxpTimer peer me kind us) := by
  unfold Dev.vxpTimer
  (repeat' split) <;> simp +decide only [Dev.steady_delay, hd]

theorem Dev.steady_vxpSend (peer me kind flags : Nat) (body payload : Bytes) (hash : Nat) :
    d₀.Steady κ (dev.vxpSend peer me kind flags body payload hash) := by
  unfold Dev.vxpSend
  dsimp only
  split
  · exact hd
  · split
    · exact Dev.steady_assocUpd (Dev.steady_ite (Dev.steady_vxpTimer hd _ _ _ _) hd) _ _ _
    · exact Dev.steady_emit (Dev.steady_assocUpd (Dev.steady_ite (Dev.steady_vxpTimer hd _ _ _ _) hd) _ _ _) _ _ _ _ _ _

theorem Dev.steady_vxpResend (peer me psn : Nat) : d₀.Steady κ (dev.vxpResend peer me psn) := by
  unfold Dev.vxpResend
  dsimp only
  split
  · exact hd
  · split
    · exact hd
    · split
      · exact Dev.steady_bump (Dev.steady_assocUpd hd _ _ _) (by decide) _
      · exact Dev.steady_emit (Dev.steady_bump (Dev.steady_assocUpd hd _ _ _) (by decide) _) _ _ _ _ _ _

theorem Dev.steady_fresh (peer me : Nat) : d₀.Steady κ (dev.fresh peer me) := by
  unfold Dev.fresh
  exact Dev.steady_vxpTimer (Dev.steady_vxpTimer (by exact hd) _ _ _ _) _ _ _ _

theorem Dev.steady_sayHello (peer me : Nat) : d₀.Steady κ (dev.sayHello peer me) := by
  unfold Dev.sayHello
  simp +decide only [Dev.steady_vxpSend, hd]

theorem Dev.steady_hello (peer me : Nat) : d₀.Steady κ (dev.hello peer me) := by
  unfold Dev.hello
  simp +decide only [Dev.steady_sayHello, Dev.steady_fresh, hd]

theorem Dev.steady_needAssoc (peer me : Nat) : d₀.Steady κ (dev.needAssoc peer me) := by
  unfold Dev.needAssoc
  (repeat' split) <;> simp +decide only [Dev.steady_hello, hd]

theorem Dev.steady_rflowUpd (me sender exch stage : Nat) (g : RFlow → RFlow) : d₀.Steady κ (dev.rflowUpd me sender exch stage g) := by
  unfold Dev.rflowUpd
  (repeat' split) <;> simp +decide only [Dev.steady_mk, Dev.steadyOf, hd]

theorem Dev.steady_pumpRecv (exch stage : Nat) : d₀.Steady κ (dev.pumpRecv exch stage) := by
  unfold Dev.pumpRecv
  refine Dev.steady_foldl (fun e p he => Dev.steady_ite he ?_) hd _
  split
  · exact he
  · next q hq =>
    extract_lets sink r _ d1
    have h1 : d₀.Steady κ d1 := Dev.steady_stageUpd (by exact he) _ _ (fun k hk hst => by
      have hid : q.id = p.1.id := by simpa using List.find?_some hq
      have hkq : k = q := Option.some.inj (by rw [← hk, hid]; exact hq)
      subst hkq
      unfold r at hst
      split at hst
      · exact hst
      · exact recvLoop_stows _ _ _ _ hst)
    clear_value d1
    exact Dev.steady_ite (Dev.steady_stageUpd h1 _ _ (fun k _ hst => by split at hst <;> exact hst)) h1

theorem Dev.steady_sendMsg (f : SFlow) (m : XMsg) : d₀.Steady κ (dev.sendMsg f m) := by
  unfold Dev.sendMsg
  simp +decide +contextual only [Dev.steady_vxpSend, hd, Dev.steady_foldl, implies_true]

theorem Dev.steady_pumpFlow (f : SFlow) (n : Nat) : d₀.Steady κ (dev.pumpFlow f n) := by
  induction n generalizing dev with
  | zero => exact hd
  | succ n ih =>
    unfold Dev.pumpFlow
    split
    · exact hd
    split
    · exact hd
    · extract_lets opened _ d1 d2
      refine Dev.steady_ite hd (ih (Dev.steady_ite (Dev.steady_pumpRecv (Dev.steady_rflowUpd (dev := d1) hd _ _ _ _ _) _ _) (Dev.steady_sendMsg (dev := d1) hd _ _)))

theorem Dev.steady_pumpFlows : d₀.Steady κ dev.pumpFlows := by
  unfold Dev.pumpFlows
  simp +decide +contextual only [Dev.steady_pumpFlow, hd, Dev.steady_foldl, implies_true]

theorem Dev.steady_flowAck (f : RFlow) : d₀.Steady κ (dev.flowAck f) := by
  unfold Dev.flowAck
  (repeat' split) <;> simp +decide only [Dev.steady_pumpFlows, Dev.steady_vxpSend, Dev.steady_mk, Dev.steadyOf, hd]

theorem Dev.steady_consumeMsg (me exch stage sender : Nat) (pt : Nat × Nat) : d₀.Steady κ (dev.consumeMsg me exch stage sender pt) := by
  unfold Dev.consumeMsg
  (repeat' split) <;> simp +decide only [Dev.steady_flowAck, Dev.steady_rflowUpd, hd]

theorem Dev.steady_closeExchanges (q : Query) (reason : Nat) : d₀.Steady κ (dev.closeExchanges q reason) := by
  unfold Dev.closeExchanges
  refine Dev.steady_foldl (fun _ _ hx => Dev.steady_ite hx ?_) hd _
  exact Dev.steady_foldl (fun _ _ hy => Dev.steady_vxpSend (Dev.steady_needAssoc hy _ _) _ _ _ _ _ _ _) hx _

/-! ### The functions of Machine/Commit -/

theorem Dev.steady_writeLabel (i : Nat) (f : Label → Label) : d₀.Steady κ (dev.writeLabel i f) := by
  unfold Dev.writeLabel
  simp +decide +contextual only [Dev.steady_send, Dev.steady_driveUpd, hd, implies_true, eq_self]

theorem Dev.steady_putCmd (n : Nat) (use : DriveUse) : d₀.Steady κ (dev.putCmd n use) := by
  unfold Dev.putCmd
  simp +decide only [Dev.steady_send, Dev.steady_delay, hd]

theorem Dev.steady_driveCmd {c : DCmd} (hc : c.use.isRecord = false) : d₀.Steady κ (dev.driveCmd c) := by
  unfold Dev.driveCmd
  extract_lets n wait _ d1
  have h1 : d₀.Steady κ d1 := fun hs => by
    refine { hd hs with records := fun k hk hr => ?_ }
    rcases List.mem_append.1 hk with hk | hk
    · exact (hd hs).records k hk hr
    · rw [List.mem_singleton.1 hk] at hr
      exact absurd (hr.symm.trans hc) (by decide)
  exact Dev.steady_ite h1 (Dev.steady_putCmd h1 _ _)

theorem Dev.steady_idleDrives : d₀.Steady κ dev.idleDrives := by
  unfold Dev.idleDrives
  dsimp only
  split
  · exact hd
  · exact Dev.steady_foldl (fun _ _ hx => Dev.steady_driveUpd (Dev.steady_send hx _) _
      (f := fun k => { k with ps := dev.regField 0x02900000 27 24 }) (fun _ h => h)) hd _

theorem Dev.steady_wakeDrives : d₀.Steady κ dev.wakeDrives := by
  unfold Dev.wakeDrives
  exact Dev.steady_foldl (fun _ _ hx => Dev.steady_driveUpd (Dev.steady_driveCmd hx rfl) _ (f := fun k => { k with waking := true }) (fun _ _ => rfl)) hd _

theorem Dev.steady_writeRow (scheme group row slots : Nat) {use : DriveUse} (hu : use.isRecord = false) :
    d₀.Steady κ (dev.writeRow scheme group row slots use) := by
  unfold Dev.writeRow
  refine Dev.steady_foldl (fun e s he => ?_) hd _
  dsimp only
  split
  · next drv _ =>
    refine Dev.steady_ite (Dev.steady_ite he (Dev.steady_driveCmd he ?_)) (Dev.steady_driveCmd (Dev.steady_ite he (Dev.steady_driveCmd he ?_)) ?_) <;> exact hu
  · exact he

theorem Dev.steady_writeExtent (scheme ts epoch : Nat) (x : Extent) : d₀.Steady κ (dev.writeExtent scheme ts epoch x) := by
  exact Dev.steady_writeRow hd _ _ _ _ rfl


theorem Dev.steady_journalUpd (g : Nat) (f : Journal → Journal) : d₀.Steady κ (dev.journalUpd g f) := by
  unfold Dev.journalUpd
  (repeat' split) <;> simp +decide only [Dev.steady_mk, Dev.steadyOf, hd]

theorem Dev.steady_writeRecord (g kind blocks ts epoch : Nat) {use : DriveUse} (hu : use.isRecord = false) :
    d₀.Steady κ (dev.writeRecord g kind blocks ts epoch use) := by
  unfold Dev.writeRecord
  exact Dev.steady_journalUpd (Dev.steady_foldl (fun _ _ he => Dev.steady_driveCmd he hu) hd _) _ _

theorem Dev.steady_rewriteDirs (s : TSpace) : d₀.Steady κ (dev.rewriteDirs s) := by
  unfold Dev.rewriteDirs
  extract_lets kept next gone d1
  have hn : d₀.Steady κ next.1 := Dev.steady_foldl_fst (fun acc f h => by
    dsimp only
    split
    · exact h
    · split
      · exact Dev.steady_writeRow (by exact h) _ _ _ _ rfl
      · exact h
    · exact h) hd _
  have h1 : d₀.Steady κ d1 := Dev.steady_spaceUpd hn _ _
  clear_value d1
  exact h1

theorem Dev.steady_checkpoint (g : Nat) : d₀.Steady κ (dev.checkpoint g) := by
  unfold Dev.checkpoint
  exact Dev.steady_writeRecord (Dev.steady_journalUpd (Dev.steady_foldl (fun _ _ hx => Dev.steady_rewriteDirs hx _) hd _) _ _) _ _ _ _ _ rfl

theorem Dev.steady_writeReserve (ts epoch home : Nat) : d₀.Steady κ (dev.writeReserve ts epoch home) := by
  unfold Dev.writeReserve
  split
  · exact Dev.steady_writeRecord hd _ _ _ _ _ rfl
  · exact Dev.steady_writeRecord (Dev.steady_checkpoint (Dev.steady_bump hd (by decide) _) _) _ _ _ _ _ rfl

theorem Dev.steady_allocEpoch (ts : Nat) {res : Nat × Dev} (hres : dev.allocEpoch ts = some res) : d₀.Steady κ res.2 := by
  unfold Dev.allocEpoch at hres
  split at hres
  · cases hres
  · split at hres
    · cases hres
    · cases hres
      exact Dev.steady_ite (Dev.steady_writeReserve (Dev.steady_spaceUpd hd _ _) _ _ _) (Dev.steady_spaceUpd hd _ _)

theorem Dev.steady_beginCommit (ts : Nat) (use : CommitFor) (kind table bound rows slagRows : Nat) (retireAll : Bool) (retired : List Nat) (change : Option CatChange)
    (mk mkSlag : Nat → Nat → Nat → List Extent) {res : Dev}
    (hres : dev.beginCommit ts use kind table bound rows slagRows retireAll retired change mk mkSlag = .ok res) :
    d₀.Steady κ res := by
  unfold Dev.beginCommit at hres
  split at hres
  · cases hres
  split at hres
  · cases hres
  split at hres
  · cases hres
  · next e d1 he =>
    have h1 := Dev.steady_allocEpoch hd _ he
    extract_lets rowOf first xs ys all mine used scheme at hres
    split at hres
    · cases hres
    split at hres
    · cases hres
    split at hres
    · cases hres
    · next gs placed _ =>
      extract_lets c d2 miss _ d3 d4 at hres
      have h2 : d₀.Steady κ d2 := Dev.steady_spaceUpd h1 ts _
      clear_value d2
      have h3 : d₀.Steady κ d3 := fun hs => { h2 hs with
        writing := fun h h' hw => ((h2 hs).writing h h' hw).imp fun _ hk => ⟨List.mem_append_left _ hk.1, hk.2⟩ }
      have h4 : d₀.Steady κ d4 := Dev.steady_foldl (fun _ _ hx => Dev.steady_writeExtent hx _ _ _ _) h3 _
      cases hres
      exact Dev.steady_commitUpd h4 _ _ (fun _ h => h)

theorem Dev.steady_abandonCommit (hκ : ¬ κ 0) (c : Commit) : d₀.Steady κ (dev.abandonCommit c) := by
  unfold Dev.abandonCommit
  extract_lets d0 _ d1
  have h0 : d₀.Steady κ d0 := Dev.steady_dropCmds hd _
  clear_value d0
  have h1 : d₀.Steady κ d1 := fun hs => { h0 hs with writing := fun h => absurd h hκ }
  exact Dev.steady_spaceUpd h1 _ _

/-! ### The functions of Machine/Ingest -/

theorem Dev.steady_commitRows (ts : Nat) (use : CommitFor) (kind : Nat) (t : Table) (bound reject : Nat) (retireAll : Bool) (rows : List InRow) {res : Dev}
    (hres : dev.commitRows ts use kind t bound reject retireAll rows = .ok res) :
    d₀.Steady κ res := by
  unfold Dev.commitRows at hres
  split at hres
  · cases hres
  · dsimp only at hres
    split at hres
    · next he => cases hres; exact Dev.steady_beginCommit hd _ _ _ _ _ _ _ _ _ _ _ _ he
    · cases hres

theorem Dev.steady_askAlloc (ts x q cid kind : Nat) (t : Table) (bound : Nat) (rows : List InRow) :
    d₀.Steady κ (dev.askAlloc ts x q cid kind t bound rows) := by
  unfold Dev.askAlloc
  (repeat' split) <;> simp +decide only [Dev.steady_twinSend, hd]

theorem Dev.steady_storeReady (q : Query) (i : Nat) : d₀.Steady κ (dev.storeReady q i) := by
  unfold Dev.storeReady
  split
  · exact Dev.steady_failAt hd _ _ _
  · extract_lets d1 fail
    have h1 : d₀.Steady κ d1 := Dev.steady_queryUpd hd _ (fun _ => by rfl) (fun _ _ _ h => by exact h)
    have hf : ∀ f, d₀.Steady κ (fail f) := fun f => Dev.steady_endQuery h1 _ _ _
    split
    · exact Dev.steady_queryUpd h1 _ (fun _ => by rfl) (fun _ _ _ h => by exact h)
    split
    · split
      · exact hf _
      · exact Dev.steady_askAlloc h1 _ _ _ _ _ _ _ _
    · split
      · next he => exact Dev.steady_commitRows h1 _ _ _ _ _ _ _ _ he
      · exact hf _

end

end Sys2Proof.Machine

/-!
PROOF. What falls due keeps the relation Dev.Steady: charges, from the scheduler to the expression unit.
-/
namespace Sys2Proof.Machine

set_option Elab.async false

section

variable {κ : Nat → Prop} {d₀ dev : Dev} (hd : d₀.Steady κ dev)
include hd

/-! ### The functions of Machine/Sched -/

theorem Dev.steady_writeSpill (id : Nat) (s : Spill) : d₀.Steady κ (dev.writeSpill id s) := by
  exact Dev.steady_foldl (fun _ _ hx => Dev.steady_writeRow hx _ _ _ _ rfl) hd _

theorem Dev.steady_spillPut (id : Nat) (l : List (Nat × Nat)) (s s1 : Spill) :
    d₀.Steady κ ((dev.queryUpd id (fun q => { q with granted := l, spills := updWhere (fun k => k.id == s.id) (fun _ => s1) q.spills })).writeSpill id s1) :=
  Dev.steady_writeSpill (Dev.steady_queryUpd hd _ (fun _ => by rfl) (fun _ _ _ h => by exact h)) _ _

theorem Dev.steady_spillRun (id n : Nat) : d₀.Steady κ (dev.spillRun id n) := by
  delta Dev.spillRun
  refine brecOn_induct (F := Dev.spillRun._f id) (fun _ _ he => he) (fun n b hb e he => ?_) n hd
  unfold Dev.spillRun._f
  split
  · next q s _ _ =>
    change d₀.Steady κ (ite _ _ _)
    have hh : ∀ (e : Dev) (l : List (Nat × Nat)), d₀.Steady κ e → d₀.Steady κ (b.1 ((e.queryUpd id (fun q => { q with
        granted := l.drop s.need, spills := updWhere (fun k => k.id == s.id) (fun _ => { s with rows := l.take s.need }) q.spills })).writeSpill id
        { s with rows := l.take s.need })) := fun e l he => hb _ (Dev.steady_spillPut he _ _ _ _)
    refine Dev.steady_ite (hh _ _ he) ?_
    split
    · exact Dev.steady_failAt he _ _ _
    · split
      · split
        · exact Dev.steady_failAt he _ _ _
        · exact hh _ _ (by exact he)
      · exact Dev.steady_ite he (Dev.steady_twinSend (Dev.steady_queryUpd he _ (fun _ => by rfl) (fun _ _ _ h => by exact h)) _ _ _)
  · exact he

theorem Dev.steady_addSpills (id stage : Nat) (l : List Nat) : d₀.Steady κ (dev.addSpills id stage l).2 := by
  unfold Dev.addSpills
  split
  · exact hd
  · exact Dev.steady_queryUpd hd _ (fun _ => by rfl) (fun _ _ _ h => by exact h)

theorem Dev.steady_retainMsgs (q : Query) (i : Nat) (ms : List (Nat × List XMsg)) {res : Dev × List (Nat × List XMsg)}
    (hres : dev.retainMsgs q i ms = some res) :
    d₀.Steady κ res.1 := by
  unfold Dev.retainMsgs at hres
  extract_lets used sizes at hres
  split at hres
  · cases hres
  · cases hres
    exact Dev.steady_spillRun (Dev.steady_addSpills hd _ _ _) _ _

theorem Dev.steady_addMsgs (q : Query) (i : Nat) (m : Nat × List XMsg) : d₀.Steady κ (dev.addMsgs q i m) := by
  unfold Dev.addMsgs
  exact Dev.steady_ite (Dev.steady_ite hd (by exact hd)) (Dev.steady_needAssoc (Dev.steady_ite hd (by exact hd)) _ _)

theorem Dev.steady_pumpSend (id i : Nat) (ovr : Bool) (n : Nat) : d₀.Steady κ (dev.pumpSend id i ovr n) := by
  induction n generalizing dev with
  | zero => exact Dev.steady_pumpFlows hd
  | succ n ih =>
    unfold Dev.pumpSend
    split
    · exact hd
    · extract_lets st nodes
      refine Dev.steady_ite (ih (Dev.steady_stageUpd hd _ _ (fun _ _ h => h))) ?_
      split
      · split
        · split
          · exact Dev.steady_failAt hd _ _ _
          · next he =>
            exact ih (Dev.steady_stageUpd (Dev.steady_foldl (fun _ _ hx => Dev.steady_addMsgs hx _ _ _) (Dev.steady_retainMsgs hd _ _ _ he) _) _ _ (fun _ _ h => h))
        · exact Dev.steady_pumpFlows hd
      · exact Dev.steady_ite (Dev.steady_pumpFlows (Dev.steady_stageUpd (Dev.steady_foldl (fun _ _ hx => Dev.steady_addMsgs hx _ _ _) hd _) _ _ (fun _ _ h => h)))
          (Dev.steady_pumpFlows hd)

theorem Dev.steady_sendCkpt (q : Query) (r : CRef) (k : Ckpt) (act : TAct) : d₀.Steady κ (dev.sendCkpt q r k act) := by
  unfold Dev.sendCkpt
  simp +decide only [Dev.steady_twinSend, hd]

theorem Dev.steady_retellCkpt (id stage idx : Nat) : d₀.Steady κ (dev.retellCkpt id stage idx) := by
  unfold Dev.retellCkpt
  (repeat' split) <;> simp +decide only [Dev.steady_sendCkpt, hd]

theorem Dev.steady_ringRun (id e stage : Nat) : d₀.Steady κ (dev.ringRun id e stage) := by
  unfold Dev.ringRun
  split
  · exact hd
  split
  · exact hd
  · next q _ r _ =>
    extract_lets y r1 r2 stall clear d1 d2 d3 d4
    have h2 : d₀.Steady κ d2 := Dev.steady_stageUpd (Dev.steady_queryUpd hd _ (fun _ => by rfl) (fun _ _ _ h => by exact h)) _ _ (fun q _ hst => by
      exact StageRun.stows_of_inq (foldl_keep (P := StageRun.inq) (fun _ _ => by rfl) _ _) hst)
    clear_value d2
    have h3 : d₀.Steady κ d3 := Dev.steady_ite (Dev.steady_hostWrite h2 _ _ _) h2
    have h4 : d₀.Steady κ d4 := Dev.steady_foldl (fun _ _ hx => Dev.steady_retellCkpt hx _ _ _)
      (Dev.steady_foldl (fun _ _ hx => Dev.steady_hostWrite hx _ _ _) h3 _) _
    clear_value d4
    exact Dev.steady_ite (Dev.steady_delay (Dev.steady_hostWrite h4 _ _ _) _ _ _) h4

theorem Dev.steady_giveChunk (id src dst port : Nat) {c : Chunk} (hb : c.billets = []) (hh : c.held = []) :
    d₀.Steady κ (dev.giveChunk id src dst port c) := by
  unfold Dev.giveChunk
  split
  · exact hd
  · next q _ =>
    extract_lets s y
    have hy : y = (dev, c) := by
      unfold y Dev.stageChunk
      exact if_pos (by rw [hb]; rfl)
    clear_value y
    subst hy
    refine Dev.steady_ite ?_ (Dev.steady_ite hd ?_)
    · split
      · split
        · exact Dev.steady_stageUpd hd _ _ (fun _ _ h => by exact h)
        · exact hd
      · exact hd
    · exact Dev.steady_stageUpd hd _ _ (fun k _ hst => by exact StageRun.stows_of_append (by rfl) (by exact hh) hst)

theorem Dev.steady_deliver (id i : Nat) (c : Charge) : d₀.Steady κ (dev.deliver id i c true) := by
  unfold Dev.deliver
  split
  · exact hd
  · exact Dev.steady_ite hd (Dev.steady_foldl (fun _ _ hx => Dev.steady_ite (Dev.steady_ite hx (Dev.steady_giveChunk hx _ _ _ _ rfl rfl))
      (Dev.steady_giveChunk hx _ _ _ _ rfl rfl)) hd _)

theorem Dev.steady_releaseVoids (id i n : Nat) : d₀.Steady κ (dev.releaseVoids id i n) := by
  induction n generalizing dev with
  | zero => exact hd
  | succ n ih =>
    unfold Dev.releaseVoids
    split
    · exact hd
    · refine Dev.steady_ite (ih (Dev.steady_stageUpd hd _ _ (fun _ _ h => h))) ?_
      split
      · exact Dev.steady_ite (ih (Dev.steady_deliver (Dev.steady_stageUpd hd _ _ (fun _ _ h => h)) _ _ _)) hd
      · exact hd

theorem Dev.steady_setWork (id i : Nat) (f : Finish) {put : StageRun → List Lot → StageRun} (hp : ∀ st l, (put st l).inq = st.inq) :
    d₀.Steady κ (dev.setWork id i f put) := by
  unfold Dev.setWork
  split
  · exact hd
  split
  · exact Dev.steady_failAt hd _ _ _
  split
  · exact Dev.steady_failAt hd _ _ _
  · extract_lets s deep y lots ds d1 told d2
    have h1 : d₀.Steady κ d1 := Dev.steady_foldl (fun _ _ hx => Dev.steady_trace hx _) (Dev.steady_addSpills hd _ _ _) _
    have h2 : d₀.Steady κ d2 := Dev.steady_foldl (fun _ _ hx => Dev.steady_stageUpd hx _ _ (fun _ _ h => by exact h)) h1 _
    clear_value d2
    exact Dev.steady_spillRun (Dev.steady_stageUpd h2 _ _ (fun k _ hst => by
      unfold StageRun.stows at hst ⊢
      dsimp only at hst
      rwa [hp] at hst)) _ _

theorem Dev.steady_startFinish (id i : Nat) : d₀.Steady κ (dev.startFinish id i) := by
  unfold Dev.startFinish
  split
  · exact hd
  · exact Dev.steady_ite hd (Dev.steady_ite (Dev.steady_setWork hd _ _ _ (fun _ _ => rfl)) (Dev.steady_ite hd
      (Dev.steady_ite (Dev.steady_setWork hd _ _ _ (fun _ _ => rfl)) (Dev.steady_setWork hd _ _ _ (fun _ _ => rfl)))))

theorem Dev.steady_endInputs (id i : Nat) : d₀.Steady κ (dev.endInputs id i) := by
  unfold Dev.endInputs
  split
  · exact hd
  · extract_lets s d1 k
    have h1 : d₀.Steady κ d1 := Dev.steady_foldl (fun _ _ hx => Dev.steady_stageUpd hx _ _ (fun _ _ hst => by split at hst <;> exact hst)) hd _
    clear_value d1
    exact Dev.steady_ite hd (Dev.steady_ite (Dev.steady_ringRun (Dev.steady_queryUpd h1 _ (fun _ => by rfl) (fun _ _ _ h => by exact h)) _ _ _)
      (Dev.steady_ite (Dev.steady_pumpSend h1 _ _ _ _) h1))

theorem Dev.steady_removeQuery (hκ : ¬ κ 2) (q : Query) : d₀.Steady κ (dev.removeQuery q) := by
  unfold Dev.removeQuery
  extract_lets _ _ d1 rows back d2
  have h0 := Dev.steady_hearths hd (fun k => tabGet_map_settles (f := fun x => { x with slots := x.slots.filter (fun r => r.query != q.id) })
    (fun _ => ⟨fun _ hy => List.mem_of_mem_filter hy, id, Or.inl⟩) dev.qry.hearths k)
  have h1 : d₀.Steady κ d1 := fun hs => { h0 hs with
    stows := fun k i hk => (h0 hs).stows k i (hk.imp fun _ hp => ⟨find?_of_filter_ne hp.1, hp.2⟩)
    entries := fun h => absurd h hκ }
  clear_value d1
  exact Dev.steady_closeRegions (Dev.steady_holdMoved (Dev.steady_dropCmds (Dev.steady_ite (Dev.steady_twinSend h1 _ _ _) h1) _) _) _

theorem Dev.steady_closeQuery (hκ : ¬ κ 2) (id : Nat) : d₀.Steady κ (dev.closeQuery id) := by
  unfold Dev.closeQuery
  dsimp only
  split
  · exact hd
  · split
    · split
      · exact hd
      · split
        · exact Dev.steady_qpUpd (Dev.steady_closeExchanges (Dev.steady_removeQuery hd hκ _) _ _) _ _ _
        · exact Dev.steady_complete (Dev.steady_closeExchanges (Dev.steady_removeQuery hd hκ _) _ _) _ _ _ _
    · split
      · exact hd
      · split
        · split
          · exact hd
          · exact Dev.steady_storeReady hd _ _
        · split
          · exact hd
          · exact Dev.steady_complete (Dev.steady_closeExchanges (Dev.steady_removeQuery hd hκ _) _ _) _ _ _ _

theorem Dev.steady_passOld (id i : Nat) : d₀.Steady κ (dev.passOld id i) := by
  unfold Dev.passOld
  split
  · exact hd
  · next q _ =>
    extract_lets st op b cks from_ whole new add rows d1
    have h1 : d₀.Steady κ d1 := Dev.steady_stageUpd (Dev.steady_queryUpd hd _ (fun _ => by rfl) (fun _ _ _ h => by exact h)) _ _ (fun _ _ h => h)
    clear_value d1
    exact Dev.steady_ite hd (Dev.steady_ite (Dev.steady_stageUpd h1 _ _ (fun _ _ h => absurd h (by rintro ⟨c, hc, -⟩; exact List.not_mem_nil hc))) h1)

theorem Dev.steady_settle (hκ : ¬ κ 2) (id : Nat) : d₀.Steady κ (dev.settle id) := by
  unfold Dev.settle
  split
  · exact hd
  · extract_lets d1 d2
    have h1 : d₀.Steady κ d1 := Dev.steady_foldl (fun _ _ hx =>
      Dev.steady_endInputs (Dev.steady_startFinish (Dev.steady_releaseVoids (Dev.steady_passOld hx _ _) _ _ _) _ _) _ _) hd _
    have h2 : d₀.Steady κ d2 := Dev.steady_closeQuery h1 hκ _
    clear_value d2
    split
    · exact Dev.steady_ite (Dev.steady_closeQuery h2 hκ _) h2
    · exact h2

theorem Dev.steady_wakeFn (x : Nat) : d₀.Steady κ (dev.wakeFn x) := by
  unfold Dev.wakeFn
  dsimp only
  (repeat' split) <;> simp +decide only [Dev.steady_mk, Dev.steadyOf, hd]

/-! ### The functions of Machine/Engines -/

theorem Dev.steady_setEngines (comp : Bool) (l : List Engine) : d₀.Steady κ (dev.setEngines comp l) := by
  unfold Dev.setEngines
  (repeat' split) <;> simp +decide only [Dev.steady_mk, Dev.steadyOf, hd]

theorem Dev.steady_setEngWaiting (comp : Bool) (l : List EngUser) : d₀.Steady κ (dev.setEngWaiting comp l) := by
  unfold Dev.setEngWaiting
  (repeat' split) <;> simp +decide only [Dev.steady_mk, Dev.steadyOf, hd]

theorem Dev.steady_engJoin (comp : Bool) (u : EngUser) : d₀.Steady κ (dev.engJoin comp u) := by
  unfold Dev.engJoin
  (repeat' split) <;> simp +decide only [Dev.steady_setEngines, Dev.steady_setEngWaiting, hd]

theorem Dev.steady_engLeave (comp : Bool) (u : EngUser) : d₀.Steady κ (dev.engLeave comp u) := by
  unfold Dev.engLeave
  dsimp only
  split
  · exact Dev.steady_setEngWaiting (Dev.steady_setEngines hd _ _) _ _
  · split
    · exact Dev.steady_engJoin (Dev.steady_setEngWaiting (Dev.steady_setEngWaiting (Dev.steady_setEngines hd _ _) _ _) _ _) _ _
    · exact Dev.steady_setEngWaiting (Dev.steady_setEngines hd _ _) _ _

/-! ### The functions of Machine/Charges -/

theorem Dev.steady_unslot (r : CRef) : d₀.Steady κ (dev.unslot r) := by
  unfold Dev.unslot
  split
  · refine Dev.steady_chargeUpd (Dev.steady_dropCmds ?_ _) _ _
    have h0 : d₀.Steady κ (match dev.query r.query with | some q => dev.wakeFn q.x | none => dev) := by
      split
      · exact Dev.steady_wakeFn hd _
      · exact hd
    split
    · exact Dev.steady_hearthUpd h0 _ (fun _ => ⟨fun _ hy => List.mem_of_mem_filter hy, id, Or.inl⟩)
    · exact h0
  · exact hd

theorem Dev.steady_exuEvents (h : Nat) (before : Exu) (e : XEv) (rpe fixes : Nat) : d₀.Steady κ (dev.exuEvents h before e rpe fixes) := by
  unfold Dev.exuEvents
  extract_lets b d1 d2
  have hb : ∀ k < 0x70C, b + k ≠ linkWord := fun k hk => by dsimp only [b]; unfold linkWord; omega
  have h1 : d₀.Steady κ d1 := Dev.steady_bump (Dev.steady_bump (Dev.steady_bump (Dev.steady_count64 (Dev.steady_count64 hd
    (hb _ (by decide)) (hb 0x14 (by decide)) _) (hb _ (by decide)) (hb 0x1C (by decide)) _) (hb _ (by decide)) _) (hb _ (by decide)) _) (hb _ (by decide)) _
  have h2 : d₀.Steady κ d2 := Dev.steady_bump (Dev.steady_count64 h1 (hb _ (by decide)) (hb 0x114 (by decide)) _) (hb _ (by decide)) _
  split
  · next f n _ =>
    refine Dev.steady_setRegBytes h2 fun i hi => ?_
    have hl : (faultRecord before f n dev.opSec).length = 32 := by simp only [faultRecord, List.length_append, natLE_length, zeros, List.length_replicate]
    rw [hl] at hi
    exact fun h0 => hb (0x40 + 4 * i) (by simp [ceilDiv] at hi; omega) (by omega)
  · exact h2

theorem Dev.steady_toBoundary (h : Nat) : d₀.Steady κ (dev.toBoundary h) := by
  unfold Dev.toBoundary
  dsimp only
  split
  · exact hd
  · exact Dev.steady_ite hd (Dev.steady_exuEvents (Dev.steady_hearthUpd hd _ (fun _ => by exact ⟨List.Subset.refl _, id, Or.inl⟩)) _ _ _ _ _)

theorem Dev.steady_consume (id : Nat) : d₀.Steady κ (dev.consume id) := by
  unfold Dev.consume
  split
  · exact hd
  · refine Dev.steady_foldl (fun _ _ hx => Dev.steady_foldl (fun _ _ hy => ?_) hx _) hd _
    split
    · split
      · exact Dev.steady_consumeMsg hy _ _ _ _ _
      · exact hy
    · exact hy

theorem Dev.steady_advance (hκ : ¬ κ 2) (id : Nat) : d₀.Steady κ (dev.advance id) := by
  unfold Dev.advance
  exact Dev.steady_closeQuery (Dev.steady_consume (Dev.steady_settle hd hκ _) _) hκ _

theorem Dev.steady_endAttempt (h : Nat) (q : Query) (r : CRef) (clocks : Nat) : d₀.Steady κ (dev.endAttempt h q r clocks) := by
  exact Dev.steady_engLeave (Dev.steady_engLeave (Dev.steady_addV
    (Dev.steady_hearthUpd hd h (f := fun x => { x with running := none, exu := x.exu.halt }) (fun _ => ⟨List.Subset.refl _, id, Or.inl⟩)) _ _) _ _) _ _

theorem Dev.steady_restart (hκ : ¬ κ 2) (h cause clocks : Nat) : d₀.Steady κ (dev.restart h cause clocks) := by
  unfold Dev.restart
  split
  · exact hd
  · next r _ =>
    split
    · next q c _ _ =>
      extract_lets n d0 d1
      have h1 : d₀.Steady κ d1 := Dev.steady_hearthUpd (Dev.steady_dropCmds (Dev.steady_endAttempt hd _ _ _ _) _) _ (fun _ => ⟨List.Subset.refl _, id, Or.inl⟩)
      clear_value d1
      refine Dev.steady_ite (Dev.steady_advance (Dev.steady_cancelCharge h1 _ _) hκ _) (Dev.steady_ite ?_ ?_)
      · exact Dev.steady_advance (Dev.steady_failAt (Dev.steady_bump (Dev.steady_cancelCharge h1 _ _) (by decide) _) _ _ _) hκ _
      · exact Dev.steady_trace (Dev.steady_bump (Dev.steady_chargeUpd h1 _ _) (by decide) _) _
    · exact hd

theorem Dev.steady_traceEnable : d₀.Steady κ dev.traceEnable := by
  have h := Dev.steady_setReg64 (Dev.steady_setReg64 hd (a := 0x02400058) (by decide) (by decide) 0) (a := 0x02400060) (by decide) (by decide) 0
  exact h

/-! ### The functions of Machine/HostCmds -/

theorem Dev.steady_dropIngest (x q cid : Nat) : d₀.Steady κ (dev.dropIngest x q cid) := by
  unfold Dev.dropIngest
  simp +decide only [Dev.steady_engLeave, Dev.steady_mk, Dev.steadyOf, hd]

/-! ### The functions of Machine/ExuCmd -/

theorem Dev.steady_wideUpd (h : Nat) (f : Exu → Exu) : d₀.Steady κ (dev.wideUpd h f) := by
  exact Dev.steady_hearthUpd hd _ (fun _ => ⟨List.Subset.refl _, id, Or.inl⟩)

theorem Dev.steady_forceNarrow (h : Nat) : d₀.Steady κ (dev.forceNarrow h) := by
  unfold Dev.forceNarrow
  (repeat' split) <;> simp +decide only [Dev.steady_wideUpd, hd]

theorem Dev.steady_loadSys (h : Nat) (l : List SysTable) : d₀.Steady κ (dev.loadSys h l) := by
  unfold Dev.loadSys
  simp +decide only [Dev.steady_wideUpd, hd]

end

end Sys2Proof.Machine

/-!
PROOF. What falls due keeps the relation Dev.Steady: health, durability and the twin.
-/
namespace Sys2Proof.Machine

set_option Elab.async false

section

variable {κ : Nat → Prop} {d₀ dev : Dev} (hd : d₀.Steady κ dev)
include hd

/-! ### The functions of Machine/FabricRx -/

theorem Dev.steady_halfUpd (h : Nat) (f : FabHalf → FabHalf) : d₀.Steady κ (dev.halfUpd h f) := by
  unfold Dev.halfUpd
  simp +decide only [Dev.steady_mk, Dev.steadyOf, hd]

theorem Dev.steady_showPort (p : Nat) : d₀.Steady κ (dev.showPort p) := by
  exact Dev.steady_setReg hd (by unfold fabReg linkWord; omega) _

theorem Dev.steady_portDown (h : Nat) : d₀.Steady κ (dev.portDown h) := by
  unfold Dev.portDown
  exact Dev.steady_foldl (fun _ _ hx => Dev.steady_foldl (fun _ _ hx1 => Dev.steady_vxpResend hx1 _ _ _) hx _)
    (Dev.steady_showPort (Dev.steady_halfUpd hd _ _) _) _

theorem Dev.steady_fabCtrl (p old : Nat) : d₀.Steady κ (dev.fabCtrl p old) := by
  unfold Dev.fabCtrl
  dsimp only
  split
  · exact hd
  · exact Dev.steady_portDown (Dev.steady_portDown (by exact hd) _) _

/-! ### The functions of Machine/MemCmds -/

theorem Dev.steady_spmRepair (h : Nat) : d₀.Steady κ (dev.spmRepair h) := by
  exact Dev.steady_setReg hd (by unfold linkWord; omega) _

/-! ### The functions of Machine/Health -/

theorem Dev.steady_setDomain {n st : Nat} (hp : n = 1 → st = 2 → ¬ κ 1) : d₀.Steady κ (dev.setDomain n st) := by
  unfold Dev.setDomain
  split_ifs
  · exact Dev.steady_hearthUpd hd _ (fun _ => ⟨List.Subset.refl _, id, fun h2 => .inr fun h1 => hp h1 (beq_iff_eq.1 h2)⟩)
  · exact Dev.steady_dramDomain hd _ _
  · exact hd

omit hd in
theorem Dev.domTarget_low {mode n : Nat} (hm : mode < 3) (hn : n < 36) (serve : Nat) : dev.domTarget mode serve n = 0 := by
  unfold Dev.domTarget
  split_ifs <;> rfl

/-- Below Serve mode, with no change of mode under way. -/
def Dev.low (d : Dev) : Prop := d.pwr.mode < 3 ∧ d.pwr.change = none

omit hd in
theorem Dev.low_setDomain (n st : Nat) : (dev.setDomain n st).low = dev.low := by
  unfold Dev.setDomain
  split_ifs <;> rfl

omit hd in
theorem Dev.domTarget_ahead {n : Nat} (hl : dev.low) (hn : n < 36) : dev.domTarget dev.modeAhead.1 dev.modeAhead.2 n = 0 := by
  unfold Dev.modeAhead
  rw [hl.2]
  exact Dev.domTarget_low hl.1 hn _

/-- A hearth in the state that the mode gives it: below Serve mode, without power. -/
theorem Dev.steady_setAhead (n : Nat) : d₀.Steady κ (dev.setDomain n (dev.domTarget dev.modeAhead.1 dev.modeAhead.2 n)) := by
  by_cases hl : dev.low
  · refine Dev.steady_setDomain hd fun hn h2 => ?_
    rw [Dev.domTarget_ahead hl (by omega)] at h2
    omega
  · exact Dev.Steady.of_powered (Dev.steady_setDomain (hd.weaken fun _ h => h.1) fun _ _ h => h.2 rfl) fun _ _ hm hc =>
      hl (Dev.low_setDomain (dev := dev) n _ ▸ ⟨hm, hc⟩)

theorem Dev.steady_tuneHearths : d₀.Steady κ dev.tuneHearths := by
  unfold Dev.tuneHearths
  extract_lets m
  by_cases hl : dev.low
  · rw [List.filter_eq_nil_iff.2 fun h hh => by
      rw [Dev.domTarget_ahead hl (List.mem_range.1 hh)]
      simp]
    exact hd
  · refine Dev.Steady.of_powered (Dev.steady_foldl (fun _ _ hx => Dev.steady_setDomain (by exact hx) fun _ _ h => h.2 rfl)
      (hd.weaken fun _ h => h.1) _) fun _ _ hm hc => hl ?_
    rw [← foldl_keep (P := Dev.low) (f := fun (d : Dev) h =>
      ({ d with pwr := { d.pwr with demand := tabSet 0 d.pwr.demand h 0 } } : Dev).setDomain h 2) (fun _ _ => Dev.low_setDomain ..) _ dev]
    exact ⟨hm, hc⟩

theorem Dev.steady_rx4End (state legacy status : Nat) : d₀.Steady κ (dev.rx4End state legacy status) := by
  unfold Dev.rx4End
  simp +decide only [Dev.steady_mk, Dev.steadyOf, hd]

theorem Dev.steady_rx4Show : d₀.Steady κ dev.rx4Show := by
  unfold Dev.rx4Show
  simp +decide only [Dev.steady_setReg, hd]

theorem Dev.steady_rx4Off (reason : Nat) : d₀.Steady κ (dev.rx4Off reason) := by
  unfold Dev.rx4Off
  extract_lets d1 d2
  have h1 : d₀.Steady κ d1 := Dev.steady_foldl (fun _ _ hx => by
    split
    · exact Dev.steady_endClaim (Dev.steady_closeRegions hx _) _
    · exact hx) hd _
  clear_value d1
  have h2 : d₀.Steady κ d2 := by
    unfold d2
    split
    · exact Dev.steady_setAhead h1 _
    · exact h1
  clear_value d2
  exact Dev.steady_rx4Show (Dev.steady_setReg (by exact h2) (by decide) _)

theorem Dev.steady_rx4Abandon (hκ : ¬ κ 0) : d₀.Steady κ dev.rx4Abandon := by
  unfold Dev.rx4Abandon
  split
  · exact Dev.steady_abandonCommit hd hκ _
  · exact hd

theorem Dev.steady_rx4Lost (hκ : ¬ κ 0) : d₀.Steady κ dev.rx4Lost := by
  unfold Dev.rx4Lost
  split
  · exact hd
  · extract_lets d1 d2
    have h1 : d₀.Steady κ d1 := Dev.steady_ite (Dev.steady_rx4End (Dev.steady_rx4Abandon hd hκ) _ _ _) hd
    clear_value d1
    have h2 : d₀.Steady κ d2 := by
      unfold d2
      split
      · exact Dev.steady_endClaim h1 _
      · exact h1
    clear_value d2
    split
    · exact Dev.steady_rx4Show (Dev.steady_tuneHearths (by exact Dev.steady_addClaim h2 _))
    · exact Dev.steady_rx4Off (by exact h2) _

theorem Dev.steady_wakeSpare : d₀.Steady κ dev.wakeSpare := by
  unfold Dev.wakeSpare
  split
  · split
    · exact Dev.steady_tuneHearths hd
    · exact Dev.steady_tuneHearths (Dev.steady_loadSys (Dev.steady_hearthUpd hd _ (f := fun x => { x with on := true }) (fun _ => ⟨List.Subset.refl _, id, Or.inl⟩)) _ _)
  · exact Dev.steady_tuneHearths hd

theorem Dev.steady_leaveWork (h : Nat) : d₀.Steady κ (dev.leaveWork h) := by
  unfold Dev.leaveWork
  exact Dev.steady_hearthUpd (Dev.steady_foldl (fun _ _ hx => Dev.steady_unslot hx _) hd _) _ (fun _ => ⟨List.Subset.refl _, id, Or.inl⟩)

theorem Dev.steady_quench (h : Nat) : d₀.Steady κ (dev.quench h) := by
  unfold Dev.quench
  extract_lets x d1 d2 d3 d4 d5
  split
  · exact hd
  next hx =>
    have after : ∀ a : Dev, a.Steady (fun _ => False) (d2.hearthUpd h (fun k => { k with powered := false, quenched := true, exu := k.exu.halt })) →
        a.Steady (fun _ => False) (d5.eventPf 0x0160 h d5.spareHearths.length) := fun a ha => by
      have h3 : a.Steady _ d3 := Dev.steady_countRepair (Dev.steady_repairWritten (Dev.steady_recovered ha _ _)) _
      have h4 : a.Steady _ d4 := Dev.steady_ite (Dev.steady_wakeSpare h3) h3
      have h5 : a.Steady _ d5 := Dev.steady_ite (Dev.steady_rx4Lost h4 id) h4
      exact Dev.steady_eventPf h5 _ _ _
    have whole : ∀ a : Dev, a.Steady (fun _ => False) dev → a.Steady (fun _ => False) (d5.eventPf 0x0160 h d5.spareHearths.length) := fun a ha =>
      after a (Dev.steady_hearthUpd (Dev.steady_restart (Dev.steady_leaveWork ha _) id _ _ _) h
        (fun _ => ⟨List.Subset.refl _, fun _ => rfl, fun hf => absurd hf Bool.false_ne_true⟩))
    refine Dev.Steady.of_stir (whole _ (hd.weaken fun _ hf => hf.elim)) fun hs hcalm => hx ?_
    have hq := (after _ (Dev.Steady.refl _ _) hs).quench h (by
      rw [Dev.hearth_hearthUpd])
    have hserve := (whole _ (Dev.Steady.refl _ dev) hs).service
    exact Bool.or_eq_true_iff.2 (.inr ((hd hserve).quench h (hcalm.2.2.2 h hq)))

theorem Dev.steady_columnRepair (h b : Nat) : d₀.Steady κ (dev.columnRepair h b) := by
  unfold Dev.columnRepair
  dsimp only
  split
  · exact hd
  · split
    · exact Dev.steady_hearthUpd hd _ (fun _ => ⟨List.Subset.refl _, id, Or.inl⟩)
    · split
      · exact Dev.steady_repairWritten (Dev.steady_countRepair (Dev.steady_recover (Dev.steady_spmRepair (by exact hd) _) _ _) _)
      · exact Dev.steady_quench hd _

/-! ### The functions of Machine/MailBase -/

theorem Dev.steady_mbAnswer (x status detail flags handle : Nat) (payload : Bytes) :
    d₀.Steady κ (dev.mbAnswer x status detail flags handle payload) := by
  unfold Dev.mbAnswer
  split
  · exact hd
  · exact Dev.steady_mboxVector (Dev.steady_mboxUpd hd _ fun _ _ hr => by simp [natLE] at hr) _

theorem Dev.steady_mbOk (x : Nat) (payload : Bytes) : d₀.Steady κ (dev.mbOk x payload) := by
  unfold Dev.mbOk
  simp +decide only [Dev.steady_mbAnswer, hd]

theorem Dev.steady_mbFail (x status : Nat) : d₀.Steady κ (dev.mbFail x status) := by
  unfold Dev.mbFail
  simp +decide only [Dev.steady_mbAnswer, hd]

theorem Dev.steady_mbRefuse (x reason : Nat) : d₀.Steady κ (dev.mbRefuse x reason) := by
  unfold Dev.mbRefuse
  simp +decide only [Dev.steady_mbAnswer, hd]

theorem Dev.steady_opEvent (o : LongOp) (code data : Nat) : d₀.Steady κ (dev.opEvent o code data) := by
  unfold Dev.opEvent
  (repeat' split) <;> simp +decide only [Dev.steady_eventPf, Dev.steady_event, hd]

theorem Dev.steady_opEnd (h status : Nat) (cancelled : Bool) (extra : Nat) : d₀.Steady κ (dev.opEnd h status cancelled extra) := by
  unfold Dev.opEnd
  dsimp only
  split
  · exact hd
  · split
    · exact hd
    · exact Dev.steady_foldl (fun _ _ hx => Dev.steady_mbFail hx _ _) (Dev.steady_opEvent (Dev.steady_opUpd hd _ _) _ _ _) _

/-! ### The functions of Machine/Durable -/

theorem Dev.steady_failCommit (h0 : ¬ κ 0) (h2 : ¬ κ 2) (c : Commit) (f : CommitFail) : d₀.Steady κ (dev.failCommit c f) := by
  unfold Dev.failCommit
  have h1 := Dev.steady_abandonCommit hd h0 c
  dsimp only
  split
  · exact Dev.steady_complete (Dev.steady_dropIngest h1 _ _ _) _ _ _ _
  · exact Dev.steady_settle (Dev.steady_endQuery h1 _ _ _) h2 _
  · exact Dev.steady_mbFail h1 _ _
  · exact Dev.steady_rx4End h1 _ _ _
  · exact Dev.steady_opEnd (Dev.steady_ite (Dev.steady_spaceUpd h1 _ _) h1) _ _ _ _
  · exact h1
  · exact Dev.steady_twinSend h1 _ _ _ _

theorem Dev.steady_endCommit (hκ : ¬ κ 2) (c : Commit) : d₀.Steady κ (dev.endCommit c) := by
  unfold Dev.endCommit
  have hq : ∀ id e, d₀.Steady κ (dev.queryUpd id (fun q => { q with storeEpoch := some e })) := fun id e =>
    Dev.steady_queryUpd hd _ (fun _ => by rfl) (fun _ _ _ h => by exact h)
  split
  · exact Dev.steady_complete (Dev.steady_dropIngest hd _ _ _) _ _ _ _
  · exact Dev.steady_advance (hq _ _) hκ _
  · exact Dev.steady_mbOk hd _ _
  · split
    · exact Dev.steady_rx4End (by exact hd) _ _ _
    · exact hd
  · exact hd
  · exact hd
  · split
    · exact Dev.steady_ite hd hd
    · split
      · exact Dev.steady_advance (hq _ _) hκ _
      · split
        · exact Dev.steady_ite (Dev.steady_complete hd _ _ _ _) hd
        · exact hd

/-- A space's commits as they become visible: they may end queries, which the image cache's part does not speak of. -/
theorem Dev.steady_closeVisible (hκ : ¬ κ 2) (ts : Nat) : d₀.Steady κ (dev.closeSpace ts) := by
  unfold Dev.closeSpace
  split
  · exact hd
  · extract_lets v ready d1 _ d2
    have h1 : d₀.Steady κ d1 := Dev.steady_raiseFloor (Dev.steady_spaceUpd hd _ _) _
    clear_value d1
    have h2 : d₀.Steady κ d2 := fun hs => { h1 hs with
      writing := fun h h' hw => ((h1 hs).writing h h' hw).imp fun c hc => ⟨List.mem_filter.2 ⟨hc.1, by simp [hc.2]⟩, hc.2⟩ }
    exact Dev.steady_foldl (fun _ _ hx => Dev.steady_endCommit hx hκ _) h2 _

theorem Dev.steady_closeSpace (ts : Nat) : d₀.Steady κ (dev.closeSpace ts) := by
  cases hsp : dev.space ts with
  | none => rw [show dev.closeSpace ts = dev by unfold Dev.closeSpace; rw [hsp]]; exact hd
  | some s =>
    refine Dev.Steady.of_cached (Dev.steady_closeVisible (hd.weaken fun _ h => h.1) (fun h => h.2 rfl) ts) fun hs hnil _ => ?_
    have h0 := (Dev.steady_closeVisible (Dev.Steady.refl (fun _ => False) dev) id ts hs).noSpaces hnil
    rw [Dev.space, h0] at hsp
    cases hsp

theorem Dev.steady_xferStep : d₀.Steady κ dev.xferStep := by
  unfold Dev.xferStep
  dsimp only
  split
  · split
    · exact hd
    · split
      · exact Dev.steady_twinSend (Dev.steady_writeRecord (by exact hd) _ _ _ _ _ rfl) _ _ _ _
      · exact hd
  · exact hd

theorem Dev.steady_closeCommits : d₀.Steady κ dev.closeCommits := by
  unfold Dev.closeCommits
  exact Dev.steady_xferStep (Dev.steady_foldl (fun _ _ hx => Dev.steady_closeSpace hx _) hd _)

theorem Dev.steady_startRebuild (g pos i : Nat) (rows : List Nat) (op : Option Nat) : d₀.Steady κ (dev.startRebuild g pos i rows op) := by
  unfold Dev.startRebuild
  extract_lets d1
  have h1 : d₀.Steady κ d1 := Dev.steady_writeLabel (Dev.steady_driveUpd (Dev.steady_dropCmds hd _) i (f := fun k => { k with state := 7 }) (fun _ h => h)) _ _
  clear_value d1
  exact h1

/-! ### The functions of Machine/Vf -/

theorem Dev.steady_sharesSet (pf : Nat) (b : Bytes) {res : Dev} (hres : dev.sharesSet pf b = .ok res) : d₀.Steady κ res := by
  unfold Dev.sharesSet at hres
  dsimp only at hres
  split at hres
  · cases hres
  split at hres
  · cases hres
  split at hres
  · cases hres
  split at hres
  · cases hres
  split at hres <;> cases hres
  · exact hd
  · exact hd

/-! ### The functions of Machine/Twin -/

theorem Dev.steady_sendHello : d₀.Steady κ dev.sendHello := by
  unfold Dev.sendHello
  simp +decide only [Dev.steady_twinFrame, hd]

theorem Dev.steady_registerKey : d₀.Steady κ dev.registerKey := by
  unfold Dev.registerKey
  exact Dev.steady_foldl (fun _ _ hx => Dev.steady_send (Dev.steady_send hx _) _) hd _

theorem Dev.steady_takePair (id pos : Nat) : d₀.Steady κ (dev.takePair id pos) := by
  unfold Dev.takePair
  exact Dev.steady_registerKey (Dev.steady_foldl (fun _ _ hx => by exact Dev.steady_writeLabel hx _ _) (by exact hd) _)

theorem Dev.steady_tellConfig : d₀.Steady κ dev.tellConfig := by
  unfold Dev.tellConfig
  simp +decide only [Dev.steady_twinSend, hd]

theorem Dev.steady_sendResync (step : Nat) : d₀.Steady κ (dev.sendResync step) := by
  unfold Dev.sendResync
  simp +decide only [Dev.steady_twinFrame, Dev.steady_mk, Dev.steadyOf, hd]

theorem Dev.steady_beginSync (from_ : Bool) : d₀.Steady κ (dev.beginSync from_) := by
  unfold Dev.beginSync
  dsimp only
  split
  · exact Dev.steady_sendResync (Dev.steady_recover (by exact hd) _ _) _
  · exact Dev.steady_recover (by exact hd) _ _

theorem Dev.steady_pairing : d₀.Steady κ dev.pairing := by
  unfold Dev.pairing
  split
  · exact hd
  · next it _ =>
    extract_lets me row minor _ d0
    have h0 : d₀.Steady κ d0 := Dev.steady_setReg (by exact hd) (by decide) _
    clear_value d0 row
    split
    · exact h0
    split
    · exact Dev.steady_beginSync (Dev.steady_takePair h0 _ _) _
    · split
      · exact h0
      split
      · exact Dev.steady_beginSync h0 _
      split
      · exact Dev.steady_registerKey (by exact h0)
      · exact Dev.steady_beginSync (Dev.steady_registerKey h0) _
    · split
      · exact Dev.steady_beginSync (Dev.steady_takePair h0 _ _) _
      · exact Dev.steady_beginSync h0 _
    · exact Dev.steady_eventPf (by exact h0) _ _ _

theorem Dev.steady_pairRetry : d₀.Steady κ dev.pairRetry := by
  unfold Dev.pairRetry
  dsimp only
  (repeat' split) <;> simp +decide only [Dev.steady_sendHello, Dev.steady_pairing, hd]

theorem Dev.steady_askCat (c : Commit) : d₀.Steady κ (dev.askCat c) := by
  unfold Dev.askCat
  (repeat' split) <;> simp +decide only [Dev.steady_twinSend, Dev.steady_mk, Dev.steadyOf, hd]

theorem Dev.steady_catCommit (c : Commit) {res : Dev} (hres : dev.catCommit c = .ok res) : d₀.Steady κ res := by
  unfold Dev.catCommit at hres
  split at hres
  · cases hres
  split at hres
  · cases hres
  split at hres
  · exact Dev.steady_beginCommit hd _ _ _ _ _ _ _ _ _ _ _ _ hres
  · cases hres
    exact Dev.steady_askCat hd _

theorem Dev.steady_ownXfer (ts : Nat) : d₀.Steady κ (dev.ownXfer ts) := by
  unfold Dev.ownXfer
  dsimp only
  split
  · split
    · exact hd
    · exact Dev.steady_xferStep (Dev.steady_setReg64 hd (by decide) (by decide) _)
  · exact hd

/-! ### The functions of Machine/Failover -/

theorem Dev.steady_writeWitness (stood : Bool) : d₀.Steady κ (dev.writeWitness stood) := by
  unfold Dev.writeWitness
  simp +decide +contextual only [Dev.steady_send, Dev.steady_mk, Dev.steadyOf, hd, Dev.steady_foldl, implies_true]

theorem Dev.steady_abandonOpen (hκ : ¬ κ 0) : d₀.Steady κ dev.abandonOpen := by
  unfold Dev.abandonOpen
  exact Dev.steady_foldl (fun _ _ hx => Dev.steady_abandonCommit hx hκ _) hd _

theorem Dev.steady_standDown (hκ : ¬ κ 0) (fenced : Bool) : d₀.Steady κ (dev.standDown fenced) := by
  unfold Dev.standDown
  exact Dev.steady_abandonOpen (Dev.steady_writeWitness hd _) hκ

end

end Sys2Proof.Machine

/-!
PROOF. What falls due keeps the relation Dev.Steady: power, the recorder, start attempts, security and the registers.
-/
namespace Sys2Proof.Machine

set_option Elab.async false

section

variable {κ : Nat → Prop} {d₀ dev : Dev} (hd : d₀.Steady κ dev)
include hd


/-! ### The functions of Machine/Power -/

theorem Dev.steady_retainBanks (l : List Nat) : d₀.Steady κ (dev.retainBanks l) := by
  unfold Dev.retainBanks
  simp +decide only [Dev.steady_mk, Dev.steadyOf, hd]

theorem Dev.steady_leaveDomain (h1 : ¬ κ 1) (h2 : ¬ κ 2) (n st : Nat) : d₀.Steady κ (dev.leaveDomain n st) := by
  unfold Dev.leaveDomain
  split
  · extract_lets d1 d2
    have h : d₀.Steady κ d1 := Dev.steady_foldl (fun _ _ hx => Dev.steady_unslot hx _) hd _
    clear_value d1
    exact Dev.steady_setDomain (Dev.steady_ite (Dev.steady_restart (Dev.steady_toBoundary h _) h2 _ _ _) h) fun _ _ => h1
  · exact Dev.steady_setDomain hd fun _ _ => h1

theorem Dev.steady_startChange (mode serve ceiling : Nat) (by_ : Option Nat) (chosen : Bool) :
    d₀.Steady κ (dev.startChange mode serve ceiling by_ chosen) := fun hs =>
  { hd hs with power := fun _ _ _ _ h => by cases h }

theorem Dev.steady_noteChange (c : Change) (result : Nat) (lag : List Nat) : d₀.Steady κ (dev.noteChange c result lag) := by
  unfold Dev.noteChange
  extract_lets mask b d1
  have h1 : d₀.Steady κ d1 := Dev.steady_setRegBytes hd fun i hi => by unfold linkWord; omega
  clear_value d1
  exact h1

theorem Dev.steady_commitChange (c : Change) : d₀.Steady κ (dev.commitChange c) := by
  unfold Dev.commitChange
  extract_lets d0 p d1 d2 d3 d4
  have after : ∀ a : Dev, a.Steady (fun _ => False) d1 → a.Steady (fun _ => False) (match c.by_ with
      | some x => ({ d4 with mail := { d4.mail with gens := tabUpd 0 d4.mail.gens 0x0016 (fun n => (n + 1) % 65536) } } : Dev).mbOk x (modeReply c.toMode [])
      | none => d4) := fun a ha => by
    have h2 : a.Steady _ d2 := Dev.steady_foldl (fun _ _ hx =>
      Dev.steady_ite (Dev.steady_setDomain hx fun _ _ => id) (Dev.steady_leaveDomain hx id id _ _)) ha _
    clear_value d2
    have h3 : a.Steady _ d3 := Dev.steady_noteChange (Dev.steady_ite (Dev.steady_retainBanks (Dev.steady_idleDrives h2) _) (Dev.steady_wakeDrives h2)) _ _ _
    have h4 : a.Steady _ d4 := Dev.steady_ite (Dev.steady_trace h3 _) h3
    clear_value d4
    split
    · exact Dev.steady_mbOk (by exact h4) _ _
    · exact h4
  have h0 : d₀.Steady (fun _ => False) d0 := Dev.steady_foldl (fun _ _ hx =>
    Dev.steady_ite hx (Dev.steady_hearthUpd hx _ (fun _ => by exact ⟨List.Subset.refl _, id, Or.inl⟩))) (hd.weaken fun _ h => h.elim) _
  have h1 : d₀.Steady (fun _ => False) d1 := fun hs =>
    { h0 hs with paces := fun h => absurd h Bool.false_ne_true, writing := fun h => h.elim, power := fun h => h.elim, entries := fun h => h.elim }
  exact Dev.Steady.of_stir (after _ h1) fun hs hcalm => Bool.false_ne_true ((after _ (Dev.Steady.refl _ _) hs).paces hcalm.2.2.1)

theorem Dev.steady_unitGone (n : Nat) : d₀.Steady κ (dev.unitGone n) := by
  unfold Dev.unitGone
  split
  · exact hd
  · refine Dev.steady_ite hd (Dev.steady_ite (Dev.steady_commitChange hd _) fun hs => ?_)
    exact { hd hs with power := fun _ _ _ _ h => by cases h }

/-! ### The functions of Machine/Recorder -/

theorem Dev.steady_recRing (kind source interval : Nat) (body : Bytes) : d₀.Steady κ (dev.recRing kind source interval body) := by
  unfold Dev.recRing
  dsimp only
  (repeat' split) <;> simp +decide only [Dev.steady_bump, Dev.steady_mk, Dev.steadyOf, hd]

theorem Dev.steady_recLost : d₀.Steady κ dev.recLost := by
  unfold Dev.recLost
  exact Dev.steady_foldl (fun _ _ hx => by exact Dev.steady_ite hx (Dev.steady_recRing (by exact hx) _ _ _ _)) hd _

theorem Dev.steady_recNow (kind source : Nat) (body : Bytes) : d₀.Steady κ (dev.recNow kind source body) := by
  unfold Dev.recNow
  (repeat' split) <;> simp +decide only [Dev.steady_recRing, Dev.steady_mk, Dev.steadyOf, hd]

theorem Dev.steady_recClose : d₀.Steady κ dev.recClose := by
  unfold Dev.recClose
  extract_lets a iv d1 d2 d3 d4
  have h1 : d₀.Steady κ d1 := Dev.steady_foldl (fun _ _ hx => Dev.steady_recRing hx _ _ _ _) (Dev.steady_recLost hd) _
  have h2 : d₀.Steady κ d2 := Dev.steady_foldl (fun _ _ hx => Dev.steady_recRing hx _ _ _ _) h1 _
  have h3 : d₀.Steady κ d3 := Dev.steady_foldl (fun _ _ hx => Dev.steady_recRing hx _ _ _ _) h2 _
  have h4 : d₀.Steady κ d4 := Dev.steady_recRing (Dev.steady_recRing (Dev.steady_recRing (Dev.steady_recRing h3 _ _ _ _) _ _ _ _) _ _ _ _) _ _ _ _
  clear_value d4
  exact h4

theorem Dev.steady_archiveNow : d₀.Steady κ dev.archiveNow := by
  unfold Dev.archiveNow
  simp +decide only [Dev.steady_setField, Dev.steady_mk, Dev.steadyOf, hd]

theorem Dev.steady_recRelease : d₀.Steady κ dev.recRelease := by
  unfold Dev.recRelease
  dsimp only
  split
  · exact hd
  · split
    · exact Dev.steady_recClose (Dev.steady_foldl (fun _ _ hx => by exact Dev.steady_recRing hx _ _ _ _) (by exact hd) _)
    · exact Dev.steady_foldl (fun _ _ hx => by exact Dev.steady_recRing hx _ _ _ _) (by exact hd) _

theorem Dev.steady_freezeHost (on : Bool) : d₀.Steady κ (dev.freezeHost on) := by
  unfold Dev.freezeHost
  dsimp only
  split
  · exact Dev.steady_setField hd (by decide) _ _ _
  · exact Dev.steady_recRelease (Dev.steady_setField hd (by decide) _ _ _)

theorem Dev.steady_setWall (v : ℤ) : d₀.Steady κ (dev.setWall v) := by
  unfold Dev.setWall
  (repeat' split) <;> simp +decide only [Dev.steady_recNow, Dev.steady_mk, Dev.steadyOf, hd]

/-! ### The functions of Machine/Start -/

theorem Dev.steady_writeStart : d₀.Steady κ dev.writeStart := by
  unfold Dev.writeStart
  exact hd

theorem Dev.steady_print (n : Nat) : d₀.Steady κ (dev.print n) := by
  unfold Dev.print
  simp +decide only [Dev.steady_mk, Dev.steadyOf, hd]

theorem Dev.steady_beginStage (n : Nat) : d₀.Steady κ (dev.beginStage n) := by
  unfold Dev.beginStage
  exact Dev.steady_print (Dev.steady_writeStart (by exact hd)) _

omit hd in
theorem Dev.steady_beginAttempt (stage : Nat) (slot : Option Nat) : d₀.Steady κ (dev.beginAttempt stage slot) := by
  unfold Dev.beginAttempt
  extract_lets d1 boot other use ember _ _ d2 _ d2a d3
  have h2 : d₀.Steady κ d2a := Dev.steady_ite (fun hs => absurd hs Bool.false_ne_true) (fun hs => absurd hs Bool.false_ne_true)
  have h3 : d₀.Steady κ d3 := Dev.steady_setDomain (n := 71) (st := 2) (Dev.steady_setDomain (n := 70) (st := 2)
    (Dev.steady_setDomain (n := 69) (st := 2) h2 fun h => absurd h (by decide)) fun h => absurd h (by decide)) fun h => absurd h (by decide)
  exact Dev.steady_beginStage h3 _

theorem Dev.steady_bankedActivate (slot : Nat) : d₀.Steady κ (dev.bankedActivate slot) := by
  unfold Dev.bankedActivate
  (repeat' split) <;> simp +decide only [Dev.steady_beginAttempt, hd]

/-! ### The functions of Machine/Security -/

theorem Dev.steady_secAnswer (s : SecSession) (code status reason : Nat) (payload : Bytes) :
    d₀.Steady κ (dev.secAnswer s code status reason payload) := by
  unfold Dev.secAnswer
  simp +decide only [Dev.steady_send, hd]

theorem Dev.steady_secRefuse (s : SecSession) (code reason : Nat) : d₀.Steady κ (dev.secRefuse s code reason) := by
  unfold Dev.secRefuse
  simp +decide only [Dev.steady_secAnswer, hd]

theorem Dev.steady_keyGone : d₀.Steady κ dev.keyGone := by
  unfold Dev.keyGone
  refine Dev.steady_foldl (fun e k he => ?_) hd _
  split
  · refine Dev.steady_ite he ?_
    extract_lets d1
    split
    · exact Dev.steady_secAnswer (by exact he) _ _ _ _ _
    · exact he
  · exact he

theorem Dev.steady_withdrawKeys (h0 : ¬ κ 0) (h2 : ¬ κ 2) (refs : List Nat) : d₀.Steady κ (dev.withdrawKeys refs) := by
  unfold Dev.withdrawKeys
  exact Dev.steady_closeCommits (Dev.steady_foldl (fun _ _ hx => Dev.steady_failCommit hx h0 h2 _ _) hd _)

theorem Dev.steady_wipe (h0 : ¬ κ 0) (h2 : ¬ κ 2) (ok : Bool) : d₀.Steady κ (dev.wipe ok) := by
  unfold Dev.wipe
  extract_lets refs _ d1 d2
  have hw : ∀ n, min 0xFFFF (n + 1) ≠ 0 := fun n => by omega
  have h1 : d₀.Steady κ d1 := fun hs => { hd hs with
    wipe := fun h => absurd h (hw _)
    power := fun _ h => absurd h.1 (hw _)
    writing := fun _ h => absurd h.1 (hw _)
    entries := fun _ h => absurd h.1 (hw _) }
  have hk : d₀.Steady κ d2 := Dev.steady_withdrawKeys h1 h0 h2 _
  exact Dev.steady_ite hk (Dev.steady_eventPf hk _ _ _)

theorem Dev.steady_setDebug (n : Nat) : d₀.Steady κ (dev.setDebug n) := by
  unfold Dev.setDebug
  simp +decide only [Dev.steady_mk, Dev.steadyOf, hd]

theorem Dev.steady_nonceGet (s : SecSession) : d₀.Steady κ (dev.nonceGet s) := by
  exact Dev.steady_secAnswer (by exact hd) _ _ _ _ _

theorem Dev.steady_transition (h0 : ¬ κ 0) (h2 : ¬ κ 2) (dest : Nat) (digest : Bytes) (ok : Bool) : d₀.Steady κ (dev.transition dest digest ok) := by
  unfold Dev.transition
  dsimp only
  split
  · exact Dev.steady_wipe hd h0 h2 _
  · exact Dev.steady_beginAttempt _ _

theorem Dev.steady_unlock (h0 : ¬ κ 0) (h2 : ¬ κ 2) (level : Nat) (ok : Bool) : d₀.Steady κ (dev.unlock level ok) := by
  unfold Dev.unlock
  dsimp only
  split
  · exact Dev.steady_setDebug (Dev.steady_wipe (Dev.steady_ite (Dev.steady_standDown (by exact hd) h0 _) (by exact hd)) h0 h2 _) _
  · exact Dev.steady_setDebug (by exact hd) _

theorem Dev.steady_tokenApply (h0 : ¬ κ 0) (h2 : ¬ κ 2) (s : SecSession) (tok : Bytes) (ok : Bool) : d₀.Steady κ (dev.tokenApply s tok ok) := by
  unfold Dev.tokenApply
  dsimp only
  split
  · exact Dev.steady_secRefuse hd _ _ _
  · split
    · exact Dev.steady_secRefuse (Dev.steady_ite (by exact hd) hd) _ _ _
    · split
      · split
        · exact Dev.steady_transition (Dev.steady_secAnswer (Dev.steady_ite (by exact hd) hd) _ _ _ _ _) h0 h2 _ _ _
        · exact Dev.steady_transition (Dev.steady_secRefuse (Dev.steady_ite (by exact hd) hd) _ _ _) h0 h2 _ _ _
      · exact Dev.steady_unlock (Dev.steady_secAnswer (Dev.steady_ite (by exact hd) hd) _ _ _ _ _) h0 h2 _ _

theorem Dev.steady_keyLoad (s : SecSession) (ref : Nat) (key : Bytes) : d₀.Steady κ (dev.keyLoad s ref key) := by
  unfold Dev.keyLoad
  dsimp only
  (repeat' split) <;> simp +decide only [Dev.steady_secRefuse, Dev.steady_secAnswer, Dev.steady_mk, Dev.steadyOf, hd]

theorem Dev.steady_keyUnload (h0 : ¬ κ 0) (h2 : ¬ κ 2) (s : SecSession) (ref : Nat) : d₀.Steady κ (dev.keyUnload s ref) := by
  unfold Dev.keyUnload
  dsimp only
  split
  · exact Dev.steady_secRefuse hd _ _ _
  · split
    · exact Dev.steady_secRefuse hd _ _ _
    · exact Dev.steady_keyGone (Dev.steady_withdrawKeys (by exact hd) h0 h2 _)

theorem Dev.steady_keyStatus (s : SecSession) : d₀.Steady κ (dev.keyStatus s) := by
  unfold Dev.keyStatus
  (repeat' split) <;> simp +decide only [Dev.steady_secRefuse, Dev.steady_secAnswer, hd]

theorem Dev.steady_svnCommit (s : SecSession) : d₀.Steady κ (dev.svnCommit s) := by
  unfold Dev.svnCommit
  dsimp only
  (repeat' split) <;> simp +decide only [Dev.steady_secRefuse, Dev.steady_secAnswer, Dev.steady_mk, Dev.steadyOf, hd]

theorem Dev.steady_debugLock (s : SecSession) : d₀.Steady κ (dev.debugLock s) := by
  unfold Dev.debugLock
  (repeat' split) <;> simp +decide only [Dev.steady_secRefuse, Dev.steady_secAnswer, Dev.steady_setDebug, hd]

theorem Dev.steady_tamperClear (value low : Nat) : d₀.Steady κ (dev.tamperClear value low) := by
  unfold Dev.tamperClear
  simp +decide only [Dev.steady_mk, Dev.steadyOf, hd]

/-! ### The functions of Machine/Rx4 -/

theorem Dev.steady_rx4Refuse (reason holder : Nat) : d₀.Steady κ (dev.rx4Refuse reason holder) := by
  unfold Dev.rx4Refuse
  simp +decide only [Dev.steady_setReg, Dev.steady_rx4Off, hd]

theorem Dev.steady_rx4Take (hκ : ¬ κ 1) : d₀.Steady κ dev.rx4Enable := by
  unfold Dev.rx4Enable
  split
  · exact Dev.steady_rx4Refuse hd _ _
  · split
    · exact Dev.steady_rx4Refuse hd _ _
    split
    · exact Dev.steady_rx4Refuse hd _ _
    split
    · exact Dev.steady_rx4Refuse hd _ _
    split
    · exact Dev.steady_rx4Refuse hd _ _
    · next h _ =>
      have h1 := Dev.steady_claim hd 0 2 5 h 0 0
      dsimp only
      split
      · next he => rw [he] at h1; exact Dev.steady_rx4Refuse h1 _ _
      · next c d1 he =>
        rw [he] at h1
        have h2 := Dev.steady_claim (d₀ := d₀) (dev := { d1 with rx4 := { d1.rx4 with hearth := some h, claims := [c.num], reason := 0 } }) h1 0 2 2 0 2 0
        split
        · next he2 => rw [he2] at h2; exact Dev.steady_rx4Refuse h2 _ _
        · next k d3 he2 =>
          rw [he2] at h2
          split
          · exact Dev.steady_rx4Refuse h2 _ _
          · have h4 := Dev.steady_openRegion h2 0 0 6 (k.index + 1) (.claim k.num)
            have h6 := Dev.steady_hearthUpd (Dev.steady_leaveWork (dev := { d3.openRegion 0 0 6 (k.index + 1) (.claim k.num) with
              rx4 := { (d3.openRegion 0 0 6 (k.index + 1) (.claim k.num)).rx4 with
                lock := some k.index, claims := (d3.openRegion 0 0 6 (k.index + 1) (.claim k.num)).rx4.claims ++ [k.num] } }) h4 h) h
              (f := fun x => { x with powered := true, parked := false }) (fun _ => ⟨List.Subset.refl _, id, fun _ => .inr fun _ => hκ⟩)
            refine Dev.steady_rx4Show (Dev.steady_setReg ?_ (by decide) _)
            split
            · exact Dev.steady_wakeSpare h6
            · exact h6

theorem Dev.steady_rx4Enable : d₀.Steady κ dev.rx4Enable := by
  cases hsp : dev.space dev.rx4Ts with
  | none => rw [show dev.rx4Enable = dev.rx4Refuse 1 0 by unfold Dev.rx4Enable; rw [hsp]]; exact Dev.steady_rx4Refuse hd _ _
  | some s =>
    refine Dev.Steady.of_powered (Dev.steady_rx4Take (hd.weaken fun _ h => h.1) fun h => h.2 rfl) fun hs hnil _ _ => ?_
    have h0 := (Dev.steady_rx4Take (Dev.Steady.refl (fun _ => False) dev) id hs).noSpaces hnil
    rw [Dev.space, h0] at hsp
    cases hsp

theorem Dev.steady_rx4Disable : d₀.Steady κ dev.rx4Disable := by
  unfold Dev.rx4Disable
  (repeat' split) <;> simp +decide only [Dev.steady_rx4Off, hd]

/-! ### The functions of Machine/Pins -/

theorem Dev.steady_fabricCtrl (p old : Nat) : d₀.Steady κ (dev.fabricCtrl p old) := by
  unfold Dev.fabricCtrl
  exact Dev.steady_recovered (Dev.steady_recovered (by exact Dev.steady_fabCtrl hd _ _) _ _) _ _

/-! ### The functions of Machine/Regs -/

theorem Dev.steady_regEffect (b a old new : Nat) : d₀.Steady κ (dev.regEffect b a old new) := by
  unfold Dev.regEffect
  (repeat' split) <;> simp +decide only [Dev.steady_forceNarrow, Dev.steady_traceEnable, Dev.steady_tellConfig, Dev.steady_fabricCtrl,
    Dev.steady_idleDrives, Dev.steady_pairRetry, Dev.steady_ownXfer, Dev.steady_freezeHost, Dev.steady_archiveNow, Dev.steady_setField,
    Dev.steady_setWall, Dev.steady_rx4Enable, Dev.steady_rx4Disable, Dev.steady_mk, Dev.steadyOf, hd]

theorem Dev.steady_setRegValue (r : RegRow) {s : Nat} (hs : s ≠ linkWord) (hs4 : s + 4 ≠ linkWord) (v : Nat) :
    d₀.Steady κ (dev.setRegValue r s v) := by
  unfold Dev.setRegValue
  split_ifs
  · exact Dev.steady_setReg64 hd hs hs4 _
  · exact Dev.steady_setReg hd hs _

theorem Dev.steady_regWrite (x a width mask value expected count : Nat) : d₀.Steady κ (dev.regWrite x a width mask value expected count).2 := by
  unfold Dev.regWrite
  split
  · exact hd
  split
  · exact hd
  split
  · split <;> exact hd
  · next r hr =>
    extract_lets s sh span old part m put new n _ _ _ hit low d1
    split
    · exact hd
    split
    · next hcw =>
      have hs := RegRow.start_ne_linkWord hr hcw
      split
      · exact hd
      split
      · exact hd
      split
      · exact Dev.steady_regEffect (dev := { dev.setRegValue r s new with
          cwCount := tabSet 0 dev.cwCount s ((n + 1) % 65536), cwFailed := dev.cwFailed.filter (· != cwKey x s) })
          (Dev.steady_setRegValue hd r hs.1 hs.2 new) _ _ _ _
      · exact hd
    · next hw =>
      refine Dev.steady_ite (Dev.steady_tamperClear hd _ _) (Dev.steady_setReg hd (fun ha => ?_) _)
      have hl := regRow_linkWord
      rw [← ha, hr, Option.map_some, hw] at hl
      cases hl
    · exact hd

theorem Dev.steady_readClear (a : Nat) : d₀.Steady κ (dev.readClear a) := by
  unfold Dev.readClear
  split
  · exact Dev.steady_draw hd
  · split
    · split
      · exact Dev.steady_clearReg hd _
      · exact hd
    · exact hd

theorem Dev.steady_regReads (x a n : Nat) : d₀.Steady κ (dev.regReads x a n).2 := by
  exact Dev.steady_foldl (fun _ _ hx => Dev.steady_readClear hx _) hd _

end

end Sys2Proof.Machine

/-!
PROOF. What falls due keeps the relation Dev.Steady: the mailbox, and all that falls due (Dev.tidy).
-/
namespace Sys2Proof.Machine

set_option Elab.async false

section

variable {κ : Nat → Prop} {d₀ dev : Dev} (hd : d₀.Steady κ dev)
include hd

/-! ### The functions of Machine/Mailbox -/

theorem Dev.steady_mbOpen (x : Nat) (p : Bytes) : d₀.Steady κ (dev.mbOpen x p) := by
  unfold Dev.mbOpen
  extract_lets hi lo minor
  refine Dev.steady_ite (Dev.steady_mbAnswer hd _ _ _ _ _ _) (Dev.steady_mbOk (Dev.steady_mboxUpd hd _ ?_) _ _)
  exact fun _ hb hr => ⟨hb, hr⟩

theorem Dev.steady_mbClose (x : Nat) : d₀.Steady κ (dev.mbClose x) := by
  unfold Dev.mbClose
  refine Dev.steady_mbOk (Dev.steady_mboxUpd hd _ ?_) _ _
  exact fun _ hb hr => ⟨hb, hr⟩

theorem Dev.steady_mbEvents (x n : Nat) : d₀.Steady κ (dev.mbEvents x n) := by
  unfold Dev.mbEvents
  refine Dev.steady_mbOk (Dev.steady_mboxUpd hd _ ?_) _ _
  exact fun _ hb hr => ⟨hb, hr⟩

theorem Dev.steady_mbOpStatus (x h : Nat) : d₀.Steady κ (dev.mbOpStatus x h) := by
  unfold Dev.mbOpStatus
  (repeat' split) <;> simp +decide only [Dev.steady_mbOk, Dev.steady_mbRefuse, hd]

theorem Dev.steady_mbCancel (x h : Nat) : d₀.Steady κ (dev.mbCancel x h) := by
  unfold Dev.mbCancel
  (repeat' split) <;> simp +decide only [Dev.steady_mbFail, Dev.steady_opUpd, hd]

theorem Dev.steady_mbRegRead (x a n : Nat) : d₀.Steady κ (dev.mbRegRead x a n) := by
  unfold Dev.mbRegRead
  split
  · exact Dev.steady_mbOk hd _ _
  · split
    · exact Dev.steady_mbAnswer hd _ _ _ _ _ _
    · exact Dev.steady_mbOk (Dev.steady_regReads hd x a n) _ _

theorem Dev.steady_mbRegWrite (x : Nat) (p : Bytes) : d₀.Steady κ (dev.mbRegWrite x p) := by
  unfold Dev.mbRegWrite
  extract_lets f
  have h := Dev.steady_regWrite hd x (f 0 4) (f 4 1) (f 8 8) (f 16 8) (f 24 8) (f 6 2)
  generalize dev.regWrite x (f 0 4) (f 4 1) (f 8 8) (f 16 8) (f 24 8) (f 6 2) = r at h ⊢
  rcases r with ⟨v | v | v, d1⟩
  · exact Dev.steady_mbOk (dev := d1) h _ _
  · exact Dev.steady_mbAnswer (dev := d1) h _ _ _ _ _ _
  · exact Dev.steady_mbAnswer (dev := d1) h _ _ _ _ _ _

theorem Dev.steady_mbMemRead (x : Nat) (p : Bytes) : d₀.Steady κ (dev.mbMemRead x p) := by
  unfold Dev.mbMemRead
  dsimp only
  (repeat' split) <;> simp +decide only [Dev.steady_mbRefuse, Dev.steady_mbOk, Dev.steady_hostWrite, hd]

theorem Dev.steady_mbNextGen (op : Nat) : d₀.Steady κ (dev.mbNextGen op) := by
  unfold Dev.mbNextGen
  simp +decide only [Dev.steady_mk, Dev.steadyOf, hd]

theorem Dev.steady_underGen (x op gen : Nat) {f : Dev → Dev} (hf : ∀ e, d₀.Steady κ e → d₀.Steady κ (f e)) :
    d₀.Steady κ (dev.underGen x op gen f) := by
  unfold Dev.underGen
  split
  · exact hf _ hd
  · exact Dev.steady_mbAnswer hd _ _ _ _ _ _

theorem Dev.steady_mbPolicy (x gen : Nat) (p : Bytes) : d₀.Steady κ (dev.mbPolicy x gen p) := by
  unfold Dev.mbPolicy
  extract_lets t auto y rest d1
  split
  · exact Dev.steady_underGen hd _ _ _ fun e he => Dev.steady_mbOk (Dev.steady_tellConfig (Dev.steady_mbNextGen (by exact he) _)) _ _
  · exact Dev.steady_mbOk (Dev.steady_tellConfig (by exact hd)) _ _

theorem Dev.steady_mbNode (x gen : Nat) (p buf : Bytes) : d₀.Steady κ (dev.mbNode x gen p buf) := by
  unfold Dev.mbNode
  extract_lets n id offs l
  split
  · exact Dev.steady_mbRefuse hd _ _
  split
  · exact Dev.steady_mbRefuse hd _ _
  split
  · exact Dev.steady_mbRefuse hd _ _
  · exact Dev.steady_underGen hd _ _ _ fun e he =>
      Dev.steady_mbOk (Dev.steady_tellConfig (Dev.steady_mbNextGen (Dev.steady_setReg (by exact he) (by decide) _) _)) _ _

theorem Dev.steady_mbSharing (hκ : ¬ κ 2) (x : Nat) (p : Bytes) : d₀.Steady κ (dev.mbSharing x p) := by
  unfold Dev.mbSharing
  dsimp only
  split
  · exact Dev.steady_mbOk (by exact hd) _ _
  · exact Dev.steady_mbOk (Dev.steady_emptyGroups hd hκ _) _ _

theorem Dev.steady_mbShares (x : Nat) (p : Bytes) : d₀.Steady κ (dev.mbShares x p) := by
  unfold Dev.mbShares
  split
  · next he => exact Dev.steady_mbOk (Dev.steady_sharesSet hd _ _ he) _ _
  · exact Dev.steady_mbAnswer hd _ _ _ _ _ _

theorem Dev.steady_mbMode (x : Nat) (r : MbReq) : d₀.Steady κ (dev.mbMode x r) := by
  unfold Dev.mbMode
  extract_lets m auto ceil
  split
  · exact Dev.steady_mbRefuse hd _ _
  split
  · exact hd
  · refine Dev.steady_underGen hd _ _ _ fun e he => ?_
    split
    · split
      · exact Dev.steady_startChange he _ _ _ _ _
      · exact Dev.steady_mbOk (Dev.steady_mbNextGen (by exact he) _) _ _
    · split
      · split
        · exact Dev.steady_mbAnswer he _ _ _ _ _ _
        · exact Dev.steady_mbOk (Dev.steady_mbNextGen (by exact he) _) _ _
      · exact Dev.steady_startChange he _ _ _ _ _

theorem Dev.steady_mbInvalidate (x : Nat) (p : Bytes) : d₀.Steady κ (dev.mbInvalidate x p) := by
  unfold Dev.mbInvalidate
  simp +decide only [Dev.steady_mbOk, Dev.steady_invalidate, hd]

theorem Dev.steady_mbClaim (x : Nat) (p : Bytes) : d₀.Steady κ (dev.mbClaim x p) := by
  unfold Dev.mbClaim
  extract_lets cls i was
  split
  · exact Dev.steady_mbRefuse hd _ _
  · have h := Dev.steady_claim hd x 1 cls i (fieldAt p 2 1) (fieldAt p 8 8)
    generalize dev.claim x 1 cls i (fieldAt p 2 1) (fieldAt p 8 8) = r at h ⊢
    rcases r with ⟨c | ⟨st, w⟩, d1⟩
    · have h1 := Dev.steady_leaveWork (dev := d1) h i
      exact Dev.steady_mbOk (Dev.steady_ite (Dev.steady_ite (Dev.steady_wakeSpare h1) h1) h) _ _
    · exact Dev.steady_mbAnswer (dev := d1) h _ _ _ _ _ _

theorem Dev.steady_mbRelease (x num : Nat) : d₀.Steady κ (dev.mbRelease x num) := by
  unfold Dev.mbRelease
  (repeat' split) <;> simp +decide only [Dev.steady_mbRefuse, Dev.steady_mbOk, Dev.steady_endClaim, hd]

theorem Dev.steady_mbClaims (x after : Nat) : d₀.Steady κ (dev.mbClaims x after) := by
  unfold Dev.mbClaims
  simp +decide only [Dev.steady_mbOk, hd]

/-! ### The functions of Machine/MbStore -/

theorem Dev.steady_sysFinish : d₀.Steady κ dev.sysFinish := by
  unfold Dev.sysFinish
  dsimp only
  split
  · exact hd
  · split
    · exact hd
    · refine Dev.steady_mbOk (Dev.steady_setReg (fun hs => ?_) (by decide) _) _ _
      exact { hd hs with
        waits := fun ⟨_, h, _⟩ => (Option.some_ne_none _ h.symm).elim
        entries := fun _ _ _ ⟨_, h, _⟩ => (Option.some_ne_none _ h.symm).elim }

theorem Dev.steady_mbSysTable (x : Nat) (hb : (dev.mbox x).busy ≠ none) (r : MbReq) (buf : Bytes) : d₀.Steady κ (dev.mbSysTable x r buf) := by
  unfold Dev.mbSysTable
  dsimp only
  split
  · exact hd
  · split
    · exact Dev.steady_mbRefuse hd _ _
    · split
      · exact Dev.steady_mbRefuse hd _ _
      · split
        · exact Dev.steady_mbRefuse hd _ _
        · split
          · exact Dev.steady_mbAnswer hd _ _ _ _ _ _
          · have h1 : ∀ e, d₀.Steady κ e → e.mail.boxes = dev.mail.boxes → ∀ l t, d₀.Steady κ
                { e with mail := { e.mail with sysTables := l, sysUpdate := some { x := x, table := t } } } := fun e he hm l t hs => by
              have hw : ¬ sysWaits (some { x := x, table := t }) e.mail.boxes := fun ⟨u, hu, hn, _⟩ => by
                rw [← Option.some.inj hu, hm] at hn
                exact hb hn
              exact { he hs with waits := fun h => absurd h hw, entries := fun _ _ _ h => absurd h hw }
            refine Dev.steady_sysFinish (h1 _ (Dev.steady_ite (Dev.steady_setReg hd (by decide) _) hd) ?_ _ _)
            split <;> rfl

theorem Dev.steady_tellCat (ts : Nat) (body : List Nat) : d₀.Steady κ (dev.tellCat ts body) := by
  unfold Dev.tellCat
  simp +decide only [Dev.steady_twinSend, hd]

theorem Dev.steady_mbTsCreate (x : Nat) (p : Bytes) : d₀.Steady κ (dev.mbTsCreate x p) := by
  unfold Dev.mbTsCreate
  extract_lets f y scheme home mine
  refine Dev.steady_ite (Dev.steady_mbRefuse hd _ _) (Dev.steady_ite (Dev.steady_mbRefuse hd _ _) (Dev.steady_ite (Dev.steady_mbFail hd _ _) ?_))
  split
  · exact Dev.steady_mbFail hd _ _
  · refine Dev.steady_ite (Dev.steady_mbFail hd _ _) (Dev.steady_mbOk (Dev.steady_tellCat (fun hs => ?_) _ _) _ _)
    exact { hd hs with
      noSpaces := fun h => absurd h (List.append_ne_nil_of_right_ne_nil _ (List.cons_ne_nil _ _))
      power := fun _ _ h => absurd h (List.append_ne_nil_of_right_ne_nil _ (List.cons_ne_nil _ _))
      entries := fun _ _ h => absurd h (List.append_ne_nil_of_right_ne_nil _ (List.cons_ne_nil _ _)) }

theorem Dev.steady_mbTsConfig (x : Nat) (p : Bytes) : d₀.Steady κ (dev.mbTsConfig x p) := by
  unfold Dev.mbTsConfig
  dsimp only
  split
  · exact Dev.steady_mbFail hd _ _
  · exact Dev.steady_mbOk (Dev.steady_tellCat (Dev.steady_raiseFloor (Dev.steady_spaceUpd hd _ _) _) _ _) _ _

theorem Dev.steady_mbCat (x ts table : Nat) (all : Bool) (change : Option CatChange) : d₀.Steady κ (dev.mbCat x ts table all change) := by
  unfold Dev.mbCat
  split
  · next he => exact Dev.steady_catCommit hd _ he
  · exact Dev.steady_mbFail hd _ _

theorem Dev.steady_mbTableCreate (x : Nat) (p buf : Bytes) : d₀.Steady κ (dev.mbTableCreate x p buf) := by
  unfold Dev.mbTableCreate
  dsimp only
  (repeat' split) <;> simp +decide only [Dev.steady_mbFail, Dev.steady_mbRefuse, Dev.steady_mbCat, hd]

theorem Dev.steady_mbTableDrop (x : Nat) (p : Bytes) : d₀.Steady κ (dev.mbTableDrop x p) := by
  unfold Dev.mbTableDrop
  dsimp only
  (repeat' split) <;> simp +decide only [Dev.steady_mbFail, Dev.steady_mbCat, hd]

theorem Dev.steady_mbTableAlter (x : Nat) (p : Bytes) : d₀.Steady κ (dev.mbTableAlter x p) := by
  unfold Dev.mbTableAlter
  dsimp only
  (repeat' split) <;> simp +decide only [Dev.steady_mbFail, Dev.steady_mbRefuse, Dev.steady_mbCat, hd]

theorem Dev.steady_mbValidation (x : Nat) (p buf : Bytes) : d₀.Steady κ (dev.mbValidation x p buf) := by
  unfold Dev.mbValidation
  dsimp only
  split
  · exact Dev.steady_mbFail hd _ _
  · split
    · exact Dev.steady_mbFail hd _ _
    · split
      · exact Dev.steady_mbFail hd _ _
      · split
        · exact Dev.steady_mbOk (Dev.steady_tellCat (Dev.steady_spaceUpd hd _ _) _ _) _ _
        · split
          · exact Dev.steady_mbFail hd _ _
          · split
            · exact Dev.steady_mbAnswer hd _ _ _ _ _ _
            · split
              · exact Dev.steady_mbAnswer hd _ _ _ _ _ _
              · exact Dev.steady_mbOk (Dev.steady_tellCat (Dev.steady_spaceUpd hd _ _) _ _) _ _

theorem Dev.steady_mbHistory (x : Nat) (p : Bytes) : d₀.Steady κ (dev.mbHistory x p) := by
  unfold Dev.mbHistory
  dsimp only
  (repeat' split) <;> simp +decide only [Dev.steady_mbFail, Dev.steady_mbOk, Dev.steady_hostWrite, hd]

theorem Dev.steady_mbGroup (x gen : Nat) (p : Bytes) : d₀.Steady κ (dev.mbGroup x gen p) := by
  unfold Dev.mbGroup
  extract_lets scheme l fit small rows
  split
  · exact Dev.steady_mbRefuse hd _ _
  split
  · exact Dev.steady_mbFail hd _ _
  · refine Dev.steady_underGen hd _ _ _ fun e he => ?_
    extract_lets d1 _ d3
    have h1 : d₀.Steady κ d1 := Dev.steady_foldl
      (fun _ _ hx => Dev.steady_writeLabel (Dev.steady_driveUpd hx _ (f := fun k => { k with state := 2 }) (fun _ h => h)) _ _) he _
    clear_value d1
    exact Dev.steady_mbOk (Dev.steady_mbNextGen (Dev.steady_tellCat (dev := d3) h1 _ _) _) _ _

theorem Dev.steady_mbSpare (x i : Nat) : d₀.Steady κ (dev.mbSpare x i) := by
  unfold Dev.mbSpare
  extract_lets k
  split
  · exact Dev.steady_mbOk (Dev.steady_writeLabel (Dev.steady_driveUpd hd _ (f := fun k => { k with state := 3 }) (fun _ h => h)) _ _) _ _
  · exact Dev.steady_mbRefuse hd _ _

theorem Dev.steady_openOp (x op : Nat) (args : List Nat) (data : Bytes) (total : Nat) {res : Nat × Dev} (hres : dev.openOp x op args data total = .ok res) :
    d₀.Steady κ res.2 := by
  unfold Dev.openOp at hres
  dsimp only at hres
  split at hres
  · cases hres
  split at hres
  · cases hres
  · cases hres
    exact fun hs => { hd hs with handles := (hd hs).handles.trans (by simp) }

theorem Dev.steady_mbBegun (x h : Nat) : d₀.Steady κ (dev.mbBegun x h) := by
  unfold Dev.mbBegun
  simp +decide only [Dev.steady_mbAnswer, hd]

theorem Dev.steady_mbLong (x op : Nat) (args : List Nat) (data : Bytes) (total : Nat) {f : Dev → Nat → Except Nat Dev}
    (hf : ∀ e h r, d₀.Steady κ e → f e h = .ok r → d₀.Steady κ r) : d₀.Steady κ (dev.mbLong x op args data total f) := by
  unfold Dev.mbLong
  split
  · exact Dev.steady_mbAnswer hd _ _ _ _ _ _
  · next he =>
    have h1 := Dev.steady_openOp hd _ _ _ _ _ he
    split
    · next hf2 => exact Dev.steady_mbBegun (hf _ _ _ h1 hf2) _ _
    · exact Dev.steady_mbFail hd _ _

theorem Dev.steady_mbTsRemove (x op : Nat) (p : Bytes) : d₀.Steady κ (dev.mbTsRemove x op p) := by
  unfold Dev.mbTsRemove
  extract_lets ts
  split
  · exact Dev.steady_mbFail hd _ _
  · split
    · exact Dev.steady_mbAnswer hd _ _ _ _ _ _
    · refine Dev.steady_mbLong hd _ _ _ _ _ fun e h r he hr => ?_
      split at hr
      · next hc => cases hr; exact Dev.steady_spaceUpd (Dev.steady_catCommit he _ hc) _ _
      · cases hr

theorem Dev.steady_mbRebuild (x : Nat) (p : Bytes) : d₀.Steady κ (dev.mbRebuild x p) := by
  unfold Dev.mbRebuild
  extract_lets g pos i k
  split
  · exact Dev.steady_mbRefuse hd _ _
  · refine Dev.steady_ite (Dev.steady_mbRefuse hd _ _) (Dev.steady_mbLong hd _ _ _ _ _ fun e h r he hr => ?_)
    have hs := Dev.steady_startRebuild he g pos i [] (some h)
    rwa [Except.ok.inj hr] at hs

theorem Dev.steady_mbRelayout (x : Nat) (p : Bytes) : d₀.Steady κ (dev.mbRelayout x p) := by
  unfold Dev.mbRelayout
  extract_lets f ts
  split
  · exact Dev.steady_mbFail hd _ _
  · extract_lets scheme
    split
    · exact Dev.steady_mbFail hd _ _
    split
    · exact Dev.steady_mbRefuse hd _ _
    split
    · exact Dev.steady_mbFail hd _ _
    · refine Dev.steady_mbLong hd _ _ _ _ _ fun e h r he hr => ?_
      cases hr
      exact he

theorem Dev.steady_mbScrub (x : Nat) (p : Bytes) : d₀.Steady κ (dev.mbScrub x p) := by
  unfold Dev.mbScrub
  extract_lets i
  have hl : ∀ args n, d₀.Steady κ (dev.mbLong x 0x34 args [] n (fun d _ => .ok d)) := fun args n =>
    Dev.steady_mbLong hd _ _ _ _ _ fun e h r he hr => by cases hr; exact he
  split
  · split
    · exact Dev.steady_mbRefuse hd _ _
    · exact hl _ _
  · split
    · exact Dev.steady_mbRefuse hd _ _
    · exact hl _ _

theorem Dev.steady_pairPower (pair st : Nat) : d₀.Steady κ (dev.pairPower pair st) := by
  unfold Dev.pairPower
  exact Dev.steady_setDomain (Dev.steady_setDomain hd (fun h => by omega)) (fun h => by omega)

theorem Dev.steady_mbPairOff (x pair : Nat) : d₀.Steady κ (dev.mbPairOff x pair) := by
  unfold Dev.mbPairOff
  extract_lets u n room
  split
  · exact Dev.steady_mbRefuse hd _ _
  · split
    · exact Dev.steady_mbFail hd _ _
    · refine Dev.steady_mbLong hd _ _ _ _ _ fun e h r he hr => ?_
      cases hr
      exact Dev.steady_memUnitUpd he _ _

theorem Dev.steady_mbPairOn (x pair : Nat) : d₀.Steady κ (dev.mbPairOn x pair) := by
  unfold Dev.mbPairOn
  extract_lets u
  split
  · exact Dev.steady_mbRefuse hd _ _
  · refine Dev.steady_mbLong hd _ _ _ _ _ fun e h r he hr => ?_
    cases hr
    exact Dev.steady_pairPower (Dev.steady_memUnitUpd he _ _) _ _

/-! ### The functions of Machine/MbFw -/

theorem Dev.steady_mbFwStage (x : Nat) (p buf : Bytes) : d₀.Steady κ (dev.mbFwStage x p buf) := by
  unfold Dev.mbFwStage
  extract_lets s n
  split
  · exact Dev.steady_mbAnswer hd _ _ _ _ _ _
  split
  · exact Dev.steady_mbRefuse hd _ _
  · refine Dev.steady_mbLong hd _ _ _ _ _ fun e h r he hr => ?_
    cases hr
    exact he

theorem Dev.steady_mbFwSelect (x gen s : Nat) : d₀.Steady κ (dev.mbFwSelect x gen s) := by
  unfold Dev.mbFwSelect
  split
  · exact Dev.steady_mbRefuse hd _ _
  · exact Dev.steady_underGen hd _ _ _ fun e he => Dev.steady_mbOk (Dev.steady_mbNextGen (by exact he) _) _ _

theorem Dev.steady_mbFwStatus (x : Nat) : d₀.Steady κ (dev.mbFwStatus x) := by
  unfold Dev.mbFwStatus
  simp +decide only [Dev.steady_mbOk, hd]

theorem Dev.steady_mbFwActivate (x s : Nat) : d₀.Steady κ (dev.mbFwActivate x s) := by
  unfold Dev.mbFwActivate
  split
  · exact Dev.steady_mbRefuse hd _ _
  split
  · exact Dev.steady_bankedActivate (Dev.steady_mbOk hd _ _) _
  split
  · exact Dev.steady_mbRefuse hd _ _
  split
  · exact Dev.steady_mbAnswer hd _ _ _ _ _ _
  · refine Dev.steady_mbLong hd _ _ _ _ _ fun e h r he hr => ?_
    cases hr
    exact he

theorem Dev.steady_mbDo {x op : Nat} (hb : (dev.mbox x).busy ≠ none) (hκ : op = 0x15 → ¬ κ 2) (r : MbReq) : d₀.Steady κ (dev.mbDo x op r) := by
  unfold Dev.mbDo
  (repeat' split) <;> simp +decide only [Dev.steady_mbOpen, Dev.steady_mbClose, Dev.steady_mbOk, Dev.steady_mbEvents, Dev.steady_mbOpStatus,
    Dev.steady_mbCancel, Dev.steady_mbRegRead, Dev.steady_mbRegWrite, Dev.steady_mbMemRead, Dev.steady_mbPolicy, Dev.steady_mbNode,
    Dev.steady_mbSharing, Dev.steady_mbMode, Dev.steady_mbShares, Dev.steady_mbSysTable, Dev.steady_mbTsCreate, Dev.steady_mbTsRemove,
    Dev.steady_mbTsConfig, Dev.steady_mbTableCreate, Dev.steady_mbTableDrop, Dev.steady_mbTableAlter, Dev.steady_mbValidation,
    Dev.steady_mbHistory, Dev.steady_mbGroup, Dev.steady_mbSpare, Dev.steady_mbRebuild, Dev.steady_mbRelayout, Dev.steady_mbScrub,
    Dev.steady_mbPairOff, Dev.steady_mbPairOn, Dev.steady_mbInvalidate, Dev.steady_mbClaim, Dev.steady_mbRelease, Dev.steady_mbClaims,
    Dev.steady_mbFwStage, Dev.steady_mbFwActivate, Dev.steady_mbFwSelect, Dev.steady_mbFwStatus, ne_eq, not_false_iff, hb, hκ, hd]

theorem Dev.steady_mbServe {op : Nat} (hκ : op = 0x15 → ¬ κ 2) (x : Nat) (r : MbReq) : d₀.Steady κ (dev.mbServe x op r) := by
  unfold Dev.mbServe
  extract_lets d1
  have h1 : d₀.Steady κ d1 := Dev.steady_mboxUpd hd _ fun _ hb _ => (Option.some_ne_none _ hb).elim
  have hb : (d1.mbox x).busy ≠ none := by
    unfold d1
    rw [Dev.mbox_mboxUpd]
    exact Option.some_ne_none _
  split
  · exact Dev.steady_mbAnswer h1 _ _ _ _ _ _
  · split
    · exact Dev.steady_mbDo h1 hb hκ _
    · exact Dev.steady_mbRefuse h1 _ _

theorem Dev.steady_mbTake (hκ : ¬ κ 2) (x : Nat) : d₀.Steady κ (dev.mbTake x) := by
  unfold Dev.mbTake
  split
  · split
    · refine Dev.steady_mbServe (Dev.steady_mboxUpd hd _ ?_) (fun _ => hκ) _ _
      exact fun _ hb hr => ⟨hb, hr⟩
    · exact hd
  · exact hd

theorem Dev.steady_mbTakeAll (hκ : ¬ κ 2) : d₀.Steady κ dev.mbTakeAll := by
  unfold Dev.mbTakeAll
  exact Dev.steady_foldl (fun _ _ hx => Dev.steady_mbTake hx hκ _) hd _

/-- A request that waited is served again; where a system table goes on being applied, none of those is a SHARING_GROUP_SET. -/
theorem Dev.steady_parked (l : List (Nat × Nat × MbReq)) (hκ : ∀ p ∈ l, p.2.1 = 0x15 → ¬ κ 2) :
    d₀.Steady κ (l.foldl (fun (d : Dev) (p : Nat × Nat × MbReq) => if (d.mbox p.1).busy.isSome then d.mbDo p.1 p.2.1 p.2.2 else d) dev) := by
  induction l generalizing dev with
  | nil => exact hd
  | cons p l ih =>
    refine ih ?_ fun q hq => hκ q (List.mem_cons_of_mem _ hq)
    dsimp only
    split
    · next hb => exact Dev.steady_mbDo hd (Option.isSome_iff_ne_none.1 hb) (hκ p List.mem_cons_self) _
    · exact hd

theorem Dev.steady_modeNext : d₀.Steady κ dev.modeNext := by
  unfold Dev.modeNext
  extract_lets mode sys due l
  split
  · exact hd
  · by_cases hu : dev.mail.sysUpdate = none
    · have hnone : ∀ ρ : Nat → Prop, ¬ ρ 2 → ∀ a : Dev, a.Steady ρ dev → a.Steady ρ (l.foldl (fun (d : Dev) (p : Nat × Nat × MbReq) =>
          if (d.mbox p.1).busy.isSome then d.mbDo p.1 p.2.1 p.2.2 else d)
          ({ dev with mail := { dev.mail with parked := dev.mail.parked.filter (fun p => !due p) } } : Dev)) :=
        fun ρ hρ a ha => Dev.steady_parked (by exact ha) l fun _ _ _ => hρ
      refine Dev.Steady.of_cached (hnone (fun i => κ i ∧ i ≠ 2) (fun h => h.2 rfl) d₀ (hd.weaken fun _ h => h.1)) fun hs _ hw => ?_
      obtain ⟨_, hsome, _⟩ := (hnone (fun _ => False) id dev (Dev.Steady.refl _ _) hs).waits hw
      rw [hu] at hsome
      cases hsome
    · refine Dev.steady_parked (by exact hd) l fun p hp h15 => absurd ?_ hu
      have hdue := List.of_mem_filter hp
      rw [show due p = sys from if_neg (by rw [h15]; decide)] at hdue
      exact Option.isNone_iff_eq_none.1 hdue

/-! ### The functions of Machine/CmdBase -/

theorem Dev.steady_mends : d₀.Steady κ dev.mends := by
  unfold Dev.mends
  refine Dev.steady_foldl (fun d p hx => ?_) hd _
  extract_lets d1
  have h1 : d₀.Steady κ d1 := Dev.steady_foldl (fun _ _ hy => Dev.steady_columnRepair hy _ _)
    (Dev.steady_hearthUpd hx _ (f := fun x => { x with mend := [] }) (fun _ => ⟨List.Subset.refl _, id, Or.inl⟩)) _
  exact Dev.steady_ite (Dev.steady_unitGone h1 _) h1

theorem Dev.steady_secServe (h0 : ¬ κ 0) (h2 : ¬ κ 2) (s : SecSession) (n : SecAsk) : d₀.Steady κ (dev.secServe s n) := by
  unfold Dev.secServe
  (repeat' split) <;> simp +decide only [Dev.steady_nonceGet, Dev.steady_mbTakeAll, Dev.steady_tokenApply, Dev.steady_keyLoad,
    Dev.steady_keyUnload, Dev.steady_keyStatus, Dev.steady_svnCommit, Dev.steady_debugLock, h0, h2, hd]

/-- What a session has served leaves the session, or counts a wipe. -/
theorem Dev.steady_secMsg (n : Nat) (a : SecAsk) : d₀.Steady κ (dev.secMsg n a) := by
  unfold Dev.secMsg
  split
  · next s _ hn =>
    split
    · exact hd
    · refine Dev.Steady.of_stir (Dev.steady_secServe (hd.weaken fun _ h => h.elim) id id s a) fun hs hcalm => ?_
      obtain ⟨hwipe, hsess, _⟩ := hcalm
      have hnil := ((Dev.steady_secServe (Dev.Steady.refl (fun _ => False) dev) id id s a hs).wipe hwipe).2 hsess
      rw [Dev.session, hnil] at hn
      cases hn
  · exact hd

theorem Dev.steady_secNext (n : Nat) : d₀.Steady κ (dev.secNext n) := by
  induction n generalizing dev with
  | zero => exact hd
  | succ n ih =>
    unfold Dev.secNext
    split
    · exact ih (Dev.steady_secMsg (by exact hd) _ _)
    · exact hd

theorem Dev.steady_tidy : d₀.Steady κ dev.tidy := by
  unfold Dev.tidy
  exact Dev.steady_modeNext (Dev.steady_mends (Dev.steady_sysFinish (Dev.steady_secNext (Dev.steady_keyGone (Dev.steady_closeCommits hd)) _)))

end

end Sys2Proof.Machine

/-!
PROOF. When the link of a drive that was waking comes up, no command that restores its power state is outstanding
(O36): the relation that what falls due keeps (Dev.Steady) carries the difference through it.
-/
namespace Sys2Proof.Machine

set_option Elab.async false

theorem effects_of_run {i : Instr} {s : State} {t : Nat} {f : Dev → Dev} {P : Dev → Prop} (he : exec i s = .next (s.run t (fun d => (f d).tidy)))
    (h : Effects i s P) : ∃ d, P d ∧ d.tidy = (f (s.dev.at t)).tidy := by
  obtain ⟨d, hd, hp⟩ := h
  rw [he] at hd
  injection hd with hd
  injection hd with _ hd
  exact ⟨d, hp, hd.symm⟩

/-- Where a part serves after what falls due, nothing of what the relation says changed before it. -/
theorem Dev.steady_of_tidy {d e : Dev} (h : d.tidy = e) : d.Steady (fun _ => True) e := by
  rw [← h]
  exact Dev.steady_tidy (Dev.Steady.refl _ d)

/-- A drive that is there, with its link down and a reset of its controller begun. -/
def wakingDrive : State := { dev := { start := { service := true }, store := { drives := [(0, { present := true, perst := false, waking := true })] } } }

theorem wakingDrive_linkUp : (((wakingDrive.dev.at 0).driveLink 0 { i := 0 } {}).tidy.start.service = true) ∧
    (((wakingDrive.dev.at 0).driveLink 0 { i := 0 } {}).tidy.drive 0).waking = false := by decide +kernel

/-- Refutes O36: when its link comes up, no command that restores its power state is outstanding to a drive that was waking. -/
theorem not_drivesAndRebuilds : ¬ Obligations.DrivesAndRebuilds := by
  unfold Obligations.DrivesAndRebuilds
  rintro ⟨_, _, _, hup, _⟩
  obtain ⟨d, hd, he⟩ := effects_of_run (f := fun d => d.driveLink 0 { i := 0 } {}) rfl
    (hup wakingDrive 0 0 { i := 0 } {} rfl rfl rfl rfl rfl rfl)
  obtain ⟨hserve, hawake⟩ := wakingDrive_linkUp
  have hdrive := (Dev.steady_of_tidy he hserve).waking 0 (by rw [hd]; rfl)
  exact Bool.false_ne_true (hawake.symm.trans hdrive)

end Sys2Proof.Machine

/-!
PROOF. A page is read of a drive that is waking (O4): the command is held back, and does not leave the part.
-/
namespace Sys2Proof.Machine

set_option Elab.async false

/-- A table space of function 0 in stripe group 1, its key loaded, with table 9 of one column and one extent of one page slot. -/
def readSpace : TSpace :=
  { id := 1, x := 0, visible := 4, lastEpoch := 4, key := 7
    tables := [{ id := 9, create := 1, cols := [{ id := 0, ty := { ty := .int32 }, added := 1 }] }]
    extents := [{ num := 3, table := 9, col := 0, firstRow := 0, rows := 1, create := 1, group := 1, row := 0, dictPages := [[1]], pages := [(1, [2])] }] }

/-- A READ_PAGES of the first slot of that extent at epoch 4. -/
def readCmd : Cmd :=
  { cid := 5, idx := 0, op := 3, seq := 0, entry := [(8, 4, 1), (0x20, 4, 9), (0x27, 1, 1), (0x28, 8, 3), (0x30, 8, 4)].foldl (fun b p => putAt b p.1 (natLE p.2.1 p.2.2)) (zeros 64) }

/-- The command waits in its queue, and the drive that holds the page is waking. -/
def wakingRead : State :=
  { dev := ({ start := { service := true }
              store := { spaces := [readSpace], groups := [{ id := 1, scheme := 0, members := [20, 21, 22, 23, 24], rows := 100 }]
                         drives := [20, 21, 22, 23, 24].map (fun i => (i, { present := true, perst := false, link := true, state := 2, waking := true })) }
              sec := { keys := [{ ref := 7, check := [] }] } } : Dev).qpUpd 0 1 (fun _ => { state := .active, cmds := [readCmd] }) }

theorem wakingRead_readPages : (((wakingRead.dev.at 0).readPages 0 1 5).tidy.start.service = true) ∧
    .drive 0 ∉ ((wakingRead.dev.at 0).readPages 0 1 5).tidy.out := by decide +kernel

/-- Refutes O4: a read of a drive that is waking is held back, and nothing of it leaves the part yet. -/
theorem not_dataCommands : ¬ Obligations.DataCommands := by
  unfold Obligations.DataCommands
  rintro ⟨_, _, hread, _⟩
  obtain ⟨d, ⟨_, _, hout⟩, he⟩ := effects_of_run (f := fun d => d.readPages 0 1 5) rfl
    (hread wakingRead 0 0 1 5 readCmd readSpace 4 { id := 9, create := 1, cols := [{ id := 0, ty := { ty := .int32 }, added := 1 }] }
      { id := 0, ty := { ty := .int32 }, added := 1 }
      { num := 3, table := 9, col := 0, firstRow := 0, rows := 1, create := 1, group := 1, row := 0, dictPages := [[1]], pages := [(1, [2])] } 20 0 0
      (by decide +kernel) (by decide +kernel) (by decide +kernel) (by decide +kernel) (by decide +kernel) (by decide +kernel) (by decide +kernel)
      (by decide +kernel) (by decide +kernel) (by decide +kernel) (by decide +kernel) (by decide +kernel))
  obtain ⟨hserve, hnot⟩ := wakingRead_readPages
  exact hnot ((Dev.steady_of_tidy he hserve).sent hout)

end Sys2Proof.Machine

/-!
PROOF. A stalled ring is polled and the host's count leaves no room (O9): the ring stays stalled.
-/
namespace Sys2Proof.Machine

set_option Elab.async false

theorem after_of_run {post g : Dev → Dev} {i : Instr} {s : State} {t : Nat} {P : Dev → Prop} (he : exec i s = .next (s.run t g)) (h : After post i s P) :
    ∃ d, P d ∧ post d = g (s.dev.at t) := by
  obtain ⟨d, hd, hp⟩ := h
  rw [he] at hd
  injection hd with hd
  injection hd with _ hd
  exact ⟨d, hp, hd.symm⟩

/-- A query whose one ring is stalled and has no buffer. -/
def stalledQuery : Query :=
  { id := 1, x := 0, q := 1, cid := 5, ts := 1, epoch := 4, autonomous := true, image := {}, digest := [], cached := false
    rings := [{ addr := 4096, buffers := 0, vector := 0xFFFF, bytes := 4096, addrs := [], stalled := true }] }

def stalledRing : State := { dev := { start := { service := true }, qry := { queries := [stalledQuery] } } }

theorem stalledRing_poll : (((stalledRing.dev.at 0).ringPoll 1 0 (some 0)).tidy.start.service = true) ∧
    ((stalledRing.dev.at 0).ringPoll 1 0 (some 0)).tidy.out = [] := by decide +kernel

/-- Refutes O9: where the count that the host has written leaves no room, the ring stays stalled and nothing is written. -/
theorem not_resultRings : ¬ Obligations.ResultRings := by
  unfold Obligations.ResultRings
  rintro ⟨hpoll, _⟩
  obtain ⟨d, ⟨_, hout, _⟩, he⟩ := after_of_run rfl
    (hpoll stalledRing 0 1 0 0 stalledQuery { addr := 4096, buffers := 0, vector := 0xFFFF, bytes := 4096, addrs := [], stalled := true }
      (by decide +kernel) rfl rfl rfl rfl rfl rfl (by decide +kernel))
  obtain ⟨hserve, hnone⟩ := stalledRing_poll
  have hs : d.Steady (fun _ => False) (d.advance 1).tidy := Dev.steady_tidy (Dev.steady_advance (Dev.Steady.refl _ d) id 1)
  rw [he] at hs
  have hkept := (hs hserve).sent
  rw [hnone, hout] at hkept
  exact List.not_mem_nil (hkept (List.mem_append_right _ List.mem_cons_self))

end Sys2Proof.Machine

/-!
PROOF. A charge is started whose spilled piece is lost (O11): it does not run.
-/
namespace Sys2Proof.Machine

set_option Elab.async false

def twiceRef : CRef := ⟨1, 1, 7, .flow⟩

/-- A charge whose spilled piece lies on a row that has lost more strips than its scheme can. -/
def spillCharge : Charge := { idx := 7, state := .slotted, spills := [0] }

/-- A query with that charge and with one that runs on hearth 34. -/
def spillQuery : Query :=
  { id := 1, x := 0, q := 1, cid := 5, ts := 1, epoch := 4, autonomous := true, digest := [], cached := false
    image := { ordered := true, stages := [{ op := 0x01, outP := 1 }, { op := 0x03, flags := 1, inP := 1, outP := 1 }, { op := 0x13, inP := 1 }]
               edges := [{ src := 0, dst := 1 }], resources := [{}] }
    stages := [{}, { charges := [spillCharge, { idx := 8, state := .running, hearth := some 34 }] }, {}]
    spills := [{ id := 0, stage := 1, bytes := 4096, rows := [(1, 0)] }] }

/-- Both slots of hearth 35 name the charge, which names no hearth. -/
def slottedTwice : State :=
  { dev := { start := { service := true }
             store := { spaces := [{ id := 1, x := 0, key := 7 }], groups := [{ id := 1, scheme := 0, members := [20, 21, 22, 23, 24], rows := 100, failed := [0, 1] }] }
             sec := { keys := [{ ref := 7, check := [] }] }
             qry := { queries := [spillQuery]
                      hearths := [(34, { on := true, powered := true, running := some ⟨1, 1, 8, .flow⟩ }), (35, { on := true, powered := true, slots := [twiceRef, twiceRef] })] } } }

theorem slottedTwice_startCharge : (((slottedTwice.dev.at 0).startCharge 35).tidy.start.service = true) ∧
    twiceRef ∈ (((slottedTwice.dev.at 0).startCharge 35).tidy.hearth 35).slots := by decide +kernel

/-- Refutes O11: the row of a charge's spilled piece is lost; the charge does not run, and one slot goes on naming it. -/
theorem not_startingCharges : ¬ Obligations.StartingCharges := by
  unfold Obligations.StartingCharges
  rintro ⟨hstart, _⟩
  obtain ⟨d, ⟨_, hslots, _⟩, he⟩ := effects_of_run (f := fun d => d.startCharge 35) rfl
    (hstart slottedTwice 0 35 twiceRef [twiceRef] spillQuery spillCharge (by decide +kernel) rfl rfl rfl rfl (by decide) (by decide +kernel)
      (by decide +kernel) (by decide +kernel) (fun _ hk => absurd hk List.not_mem_nil) (by decide +kernel) (by decide +kernel))
  obtain ⟨hserve, hstay⟩ := slottedTwice_startCharge
  have hgone := (Dev.steady_of_tidy he hserve).slots 35 hstay
  rw [hslots] at hgone
  exact absurd hgone (by decide)

end Sys2Proof.Machine

/-!
PROOF. A REG_READ of the one register that the model draws (O29): it answers the draw, and what the register holds stays.
-/
namespace Sys2Proof.Machine

set_option Elab.async false

/-- A REG_READ of the one register that the model draws. -/
def linkRead : MbReq := { seq := 9, bytes := 6, payload := natLE 4 linkWord ++ natLE 2 1 }

/-- A device in service whose function 513 has opened a session, and where that register holds 7. -/
def linkCounted : State :=
  { dev := { regs := [(linkWord, 7)], start := { service := true, stage := 7 }, pwr := { aonGood := true, sysGood := true, mode := 5 }
             host := { links := [(0, { up := true, perst := false }), (1, { up := true, perst := false })] }
             mail := { boxes := [(513, { ready := true, session := some 4 })] } } }

theorem linkCounted_read : ((linkCounted.dev.at 0).mbRun 513 0x10 linkRead).tidy.start.service = true ∧
    ((linkCounted.dev.at 0).mbRun 513 0x10 linkRead).tidy.reg linkWord ≠ 0 := by decide +kernel

/-- Refutes O29: the register that the model draws when it is read is not cleared. -/
theorem not_mailboxRegisters : ¬ Obligations.MailboxRegisters := by
  unfold Obligations.MailboxRegisters
  rintro ⟨_, hread, _⟩
  obtain ⟨d, ⟨_, hclear, _⟩, he⟩ := effects_of_run (f := fun d => d.mbRun 513 0x10 linkRead) rfl
    (hread linkCounted 0 513 linkRead (by unfold Dev.takes; decide +kernel) (by decide +kernel))
  obtain ⟨hserve, hstays⟩ := linkCounted_read
  have hword : fieldAt linkRead.payload 0 4 + 4 * 0 = linkWord := by decide +kernel
  have hrow : ∃ row, regRow linkWord = some row ∧ row.acc = .rc := Option.map_eq_some_iff.1 regRow_linkWord
  obtain ⟨row, hrow, hacc⟩ := hrow
  have hnat := hclear 0 row (by decide +kernel) (by rw [hword]; exact hrow) hacc
  rw [hword] at hnat
  exact hstays ((Dev.steady_of_tidy he hserve).link (BitVec.eq_of_toNat_eq hnat))

end Sys2Proof.Machine

/-!
PROOF. A RELAYOUT by a function that does not have the table space (O32): none begins.
-/
namespace Sys2Proof.Machine

set_option Elab.async false

/-- A RELAYOUT of all of table space 1 in its own scheme. -/
def relayoutReq : MbReq := { seq := 9, bytes := 36, payload := natLE 4 1 ++ natLE 4 0 ++ natLE 2 0xFFFF ++ natLE 1 0xFF ++ zeros 25 }

/-- A device in service where function 513 has opened a session and table space 1 is function 0's. -/
def foreignSpace : State :=
  { dev := { start := { service := true, stage := 7 }, pwr := { aonGood := true, sysGood := true, mode := 5 }
             host := { links := [(0, { up := true, perst := false }), (1, { up := true, perst := false })] }
             mail := { boxes := [(513, { ready := true, session := some 4 })] }
             store := { spaces := [{ id := 1, x := 0, key := 7 }] }, sec := { keys := [{ ref := 7, check := [] }] } } }

theorem foreignSpace_relayout : ((foreignSpace.dev.at 0).mbRun 513 0x33 relayoutReq).tidy.start.service = true ∧
    ((foreignSpace.dev.at 0).mbRun 513 0x33 relayoutReq).tidy.mail.ops = [] := by decide +kernel

/-- Refutes O32: a function that does not have the table space begins no RELAYOUT of it. -/
theorem not_storeCommands : ¬ Obligations.StoreCommands := by
  unfold Obligations.StoreCommands
  rintro ⟨_, _, _, hrelay, _⟩
  obtain ⟨d, ⟨hops, _⟩, he⟩ := effects_of_run (f := fun d => d.mbRun 513 0x33 relayoutReq) rfl
    (hrelay foreignSpace 0 513 relayoutReq { id := 1, x := 0, key := 7 } (by unfold Dev.takes; decide +kernel) (by decide +kernel) rfl (by decide +kernel) rfl
      (by decide +kernel) (by decide +kernel) (by decide +kernel) (by decide +kernel))
  obtain ⟨hserve, hnone⟩ := foreignSpace_relayout
  have hmore := (Dev.steady_of_tidy he hserve).handles
  rw [hnone, hops] at hmore
  exact absurd hmore (by decide)

end Sys2Proof.Machine

/-!
PROOF. The record of a commit goes to drives that are waking (O34): its writes are held back.
-/
namespace Sys2Proof.Machine

set_option Elab.async false

/-- A table space in stripe group 1, its key loaded, with epoch 5 open. -/
def commitSpace : TSpace := { id := 1, x := 0, visible := 4, lastEpoch := 5, key := 7, home := 1, open_ := [5] }

/-- The group, scheme 4 + 1. -/
def commitGroup : SGroup := { id := 1, scheme := 0, members := [20, 21, 22, 23, 24], rows := 100 }

/-- The commit of that epoch, whose record is to be written. -/
def openCommit : Commit := { ts := 1, epoch := 5, use := .catalog 0, kind := 3 }

/-- A twin that runs alone, and whose drives are waking. -/
def wakingRing : State :=
  { dev := { start := { service := true }, sec := { keys := [{ ref := 7, check := [] }] }
             store := { spaces := [commitSpace], groups := [commitGroup], commits := [openCommit]
                        drives := [20, 21, 22, 23, 24].map (fun i => (i, { present := true, perst := false, link := true, state := 2, waking := true })) } } }

theorem wakingRing_dataWritten : ((wakingRing.dev.at 0).dataWritten 1 5).tidy.start.service = true ∧
    ∃ c ∈ ((wakingRing.dev.at 0).dataWritten 1 5).tidy.store.dcmds, c.use.isRecord = true ∧ c.held = true := by decide +kernel

/-- Refutes O34: the writes of a record to drives that are waking are held back. -/
theorem not_commitProtocol : ¬ Obligations.CommitProtocol := by
  unfold Obligations.CommitProtocol
  rintro ⟨hrecord, _⟩
  obtain ⟨d, ⟨_, hcmds⟩, he⟩ := effects_of_run (f := fun d => d.dataWritten 1 5) rfl
    (hrecord wakingRing 0 1 5 commitSpace openCommit commitGroup (by decide +kernel) rfl rfl rfl rfl rfl rfl rfl rfl rfl rfl (by decide) (by decide +kernel)
      (by decide +kernel) rfl)
  obtain ⟨hserve, c, hc, hrec, hheld⟩ := wakingRing_dataWritten
  have hold := (Dev.steady_of_tidy he hserve).records c hc hrec
  rw [hcmds] at hold
  obtain ⟨i, -, rfl⟩ := List.mem_map.1 hold
  exact Bool.false_ne_true hheld

end Sys2Proof.Machine

/-!
PROOF. A charge is released whose output a hash partition stages (O12): the chunk that the next stage takes has a place on the ladder of levels.
-/
namespace Sys2Proof.Machine

set_option Elab.async false

/-- A charge held in its stage's order, with one row. -/
def heldCharge : Charge := { idx := 7, state := .held, held := true, out := [{}] }

/-- A query whose ordered first stage feeds the build side of a hash join that has no table yet. -/
def heldQuery : Query :=
  { id := 1, x := 0, q := 1, cid := 5, ts := 1, epoch := 4, autonomous := true, digest := [], cached := false
    image := { ordered := true, stages := [{ op := 0x03, flags := 1, outP := 1 }, { op := 0x08, inP := 2, outP := 1 }]
               edges := [{ src := 0, dst := 1 }], resources := [{}] }
    stages := [{ charges := [heldCharge], nextRel := 7 }, {}] }

def heldOutput : State := { dev := { start := { service := true }, qry := { queries := [heldQuery] } } }

theorem heldOutput_releaseNext : (((heldOutput.dev.at 0).releaseNext 1 0).tidy.start.service = true) ∧
    ((((heldOutput.dev.at 0).releaseNext 1 0).tidy.query 1).any (fun q => (q.stage 1).inq.any (fun c => !c.held.isEmpty))) = true := by decide +kernel

theorem stowsIn_of_any {d : Dev} {id i : Nat} (h : (d.query id).any (fun q => (q.stage i).inq.any (fun c => !c.held.isEmpty)) = true) :
    stowsIn d.qry.queries id i := by
  obtain ⟨q, hq, ha⟩ := Option.any_eq_true _ _ |>.1 h
  obtain ⟨c, hc, hne⟩ := List.any_eq_true.1 ha
  exact ⟨q, hq, c, hc, by simpa using hne⟩

/-- Refutes O12: the chunk that a hash join's build side takes before it has a table holds a place, which the statement's chunk does not. -/
theorem not_completionAndRelease : ¬ Obligations.CompletionAndRelease := by
  unfold Obligations.CompletionAndRelease
  rintro ⟨_, hrelease⟩
  obtain ⟨d, ⟨hq, _⟩, he⟩ := after_of_run (g := fun d => (d.releaseNext 1 0).tidy) rfl
    (hrelease heldOutput 0 1 0 1 heldQuery heldCharge { src := 0, dst := 1 } rfl (by decide) (by decide) (by decide) (by decide +kernel) rfl rfl rfl rfl
      (by decide +kernel) (by decide) rfl (by decide) (by decide))
  obtain ⟨hserve, hplaced⟩ := heldOutput_releaseNext
  have hs : d.Steady (fun _ => False) (d.advance 1).tidy := Dev.steady_tidy (Dev.steady_advance (Dev.Steady.refl _ d) id 1)
  rw [he] at hs
  obtain ⟨p, hp, c, hc, hne⟩ := (hs hserve).stows 1 1 (stowsIn_of_any hplaced)
  change d.query 1 = some p at hp
  rw [hp] at hq
  have hin := congrArg Prod.snd (Option.some.inj hq)
  change (p.stage 1).inq = _ at hin
  rw [hin] at hc
  rw [List.mem_singleton.1 hc] at hne
  exact hne rfl

end Sys2Proof.Machine

/-!
PROOF. A column of a table numbered 0 is dropped (O31): the request is refused and no commit of an epoch is under way.
-/
namespace Sys2Proof.Machine

set_option Elab.async false

theorem Dev.calm_of_hearths {d : Dev} {hearths : Tab Hearth} {wipes : Nat} {sessions : List SecSession} {paced : Bool} (hw : wipes = 0)
    (hs : sessions = []) (hp : paced = true) (hq : ∀ x ∈ hearths, x.2.quenched = true → (d.hearth x.1).quenched = true) :
    d.Calm hearths wipes sessions paced := by
  refine ⟨hw, hs, hp, fun h hh => ?_⟩
  induction hearths with
  | nil => cases hh
  | cons x l ih =>
    rw [tabGet] at hh
    split at hh
    · next hx => rw [← hx]; exact hq x List.mem_cons_self hh
    · exact ih (fun y hy => hq y (List.mem_cons_of_mem _ hy)) hh

/-- A TABLE_ALTER that drops column 1 of table 0 of table space 1. -/
def zeroAlter : MbReq := { seq := 9, bytes := 40, payload := natLE 4 1 ++ natLE 4 0 ++ natLE 1 2 ++ zeros 7 ++ natLE 2 1 ++ zeros 22 }

/-- A table of two columns whose number, 0, TABLE_CREATE gives to none. -/
def zeroNumbered : Table := { id := 0, create := 1, cols := [{ id := 0, ty := { ty := .int32 }, added := 1 }, { id := 1, ty := { ty := .int32 }, added := 1 }] }

def zeroSpace : TSpace := { id := 1, x := 513, visible := 4, lastEpoch := 4, reserved := 100, key := 7, tables := [zeroNumbered] }

/-- A device in service whose function 513 has that table space and has opened a session. -/
def zeroTable : State :=
  { dev := { start := { service := true, stage := 7 }, pwr := { aonGood := true, sysGood := true, mode := 5, paced := true }
             host := { links := [(0, { up := true, perst := false }), (1, { up := true, perst := false })] }
             mail := { boxes := [(513, { ready := true, session := some 4 })] }
             store := { spaces := [zeroSpace] }, sec := { keys := [{ ref := 7, check := [] }] } } }

def zeroTableAltered : Dev := ((zeroTable.dev.at 0).mbRun 513 0x25 zeroAlter).tidy

theorem zeroTable_alter : zeroTableAltered.start.service = true ∧ zeroTableAltered.sec.wipes = 0 ∧ zeroTableAltered.sec.sessions = [] ∧
    zeroTableAltered.pwr.paced = true ∧ zeroTableAltered.qry.hearths = [] ∧ zeroTableAltered.store.commits = [] := by decide +kernel

/-- Refutes O31: a TABLE_ALTER of a table numbered 0 is refused, and no commit begins. -/
theorem not_catalogCommands : ¬ Obligations.CatalogCommands := by
  unfold Obligations.CatalogCommands
  rintro ⟨_, _, _, _, _, _, _, _, _, halter, _⟩
  obtain ⟨d, ⟨⟨c, hc, _, _, _, _, _, hst⟩, _⟩, he⟩ := effects_of_run (f := fun d => d.mbRun 513 0x25 zeroAlter) rfl
    (halter zeroTable 0 513 zeroAlter zeroSpace zeroNumbered (by unfold Dev.takes; decide +kernel) (by decide +kernel)
      (by unfold Dev.mayCommit; decide +kernel) (by decide +kernel) (by decide +kernel) (by decide +kernel) rfl
      (by rw [Table.liveCols, List.length_mergeSort]; decide +kernel))
  obtain ⟨hserve, hwipes, hsess, hpaced, hhearths, hnone⟩ := zeroTable_alter
  have hcalm : d.Calm zeroTableAltered.qry.hearths _ _ _ := Dev.calm_of_hearths hwipes hsess hpaced fun x hx => absurd (hhearths ▸ hx) List.not_mem_nil
  have hsteady : d.Steady (fun _ => True) zeroTableAltered := Dev.steady_of_tidy he
  obtain ⟨c, hc, _⟩ := (hsteady hserve).writing trivial hcalm ⟨c, hc, hst⟩
  rw [hnone] at hc
  cases hc

end Sys2Proof.Machine

/-!
PROOF. A hearth of the pipeline is quenched below Serve mode (O43): the spare hearth that takes its place stays powered if it was.
-/
namespace Sys2Proof.Machine

set_option Elab.async false

/-- A device in Reach mode with one pipeline hearth, and a spare one that is powered. -/
def spareHearth : State :=
  { dev := { start := { service := true }, pwr := { paced := true }, qry := { hearths := [(0, { on := true }), (1, { powered := true })] } } }

def spareHearthTaken : Dev := (spareHearth.dev.at 0).ifQuenched 0 (fun d => d.quench 0)

theorem spareHearth_quench : spareHearthTaken.start.service = true ∧ spareHearthTaken.sec.wipes = 0 ∧ spareHearthTaken.sec.sessions = [] ∧
    spareHearthTaken.pwr.paced = true ∧ spareHearthTaken.store.spaces = [] ∧ spareHearthTaken.pwr.mode = 0 ∧ spareHearthTaken.pwr.change = none ∧
    (∀ x ∈ spareHearthTaken.qry.hearths, x.2.quenched = true → x.1 = 0) ∧ (spareHearthTaken.hearth 1).powered = true := by decide +kernel

/-- Refutes O43: a spare hearth that takes a quenched one's place below Serve mode stays powered. -/
theorem not_recorder : ¬ Obligations.Recorder := by
  unfold Obligations.Recorder
  rintro ⟨_, hquench, _⟩
  obtain ⟨d, ⟨hzero, _, hpowered⟩, he⟩ := after_of_run (g := fun d => d.ifQuenched 0 (fun d => d.quench 0)) rfl
    (hquench spareHearth 0 0 1 ((List.range 36).drop 2) (by decide) (by decide +kernel) rfl rfl rfl rfl (by decide +kernel) (by decide +kernel) rfl)
  obtain ⟨hserve, hwipes, hsess, hpaced, hspaces, hmode, hchange, hquenched, hon⟩ := spareHearth_quench
  have hcalm : d.Calm spareHearthTaken.qry.hearths _ _ _ := Dev.calm_of_hearths hwipes hsess hpaced fun x hx hq => by rw [hquenched x hx hq]; exact hzero
  have hsteady : d.Steady (fun _ => True) spareHearthTaken := Dev.steady_of_tidy he
  obtain ⟨_, _, hkeeps⟩ := (hsteady hserve).power trivial hcalm hspaces (by rw [hmode]; decide) hchange
  exact Bool.false_ne_true (hpowered.symm.trans (hkeeps hon))

end Sys2Proof.Machine

/-!
PROOF. A group of the image cache is emptied (O30): an entry that an earlier emptying has marked goes as well.
-/
namespace Sys2Proof.Machine

set_option Elab.async false

/-- A SHARING_GROUP_SET that empties group 1. -/
def emptyGroup : MbReq := { seq := 9, bytes := 4, payload := natLE 2 0x8000 ++ natLE 1 1 ++ natLE 1 1 }

/-- An entry of a group that has been emptied, which nothing pins. -/
def markedEntry : CacheEnt := { group := emptiedGroup, digest := [], image := {}, bytes := 0 }

/-- A device in service that holds that entry, where a system table of function 1 has still to be applied by hearth 0. -/
def markedCache : State :=
  { dev := { start := { service := true, stage := 7 }, pwr := { aonGood := true, sysGood := true, mode := 5, paced := true }
             host := { links := [(0, { up := true, perst := false }), (1, { up := true, perst := false })] }
             qry := { hearths := [(0, { on := true })], cache := [markedEntry] }
             mail := { boxes := [(513, { ready := true, session := some 4 })], sysUpdate := some { x := 1, table := 0 } } } }

def markedCacheEmptied : Dev := ((markedCache.dev.at 0).mbRun 513 0x15 emptyGroup).tidy

theorem markedCache_emptied : markedCacheEmptied.start.service = true ∧ markedCacheEmptied.sec.wipes = 0 ∧ markedCacheEmptied.sec.sessions = [] ∧
    markedCacheEmptied.pwr.paced = true ∧ (∀ x ∈ markedCacheEmptied.qry.hearths, x.2.quenched ≠ true) ∧ markedCacheEmptied.store.spaces = [] ∧
    markedCacheEmptied.mail.sysUpdate = some { x := 1, table := 0 } ∧ (markedCacheEmptied.mbox 1).busy = none ∧ (markedCacheEmptied.mbox 1).resp = [] ∧
    markedCacheEmptied.qry.cache = [] := by decide +kernel

/-- Refutes O30: when a group is emptied, an entry of no group that an earlier emptying has marked goes with it. -/
theorem not_mailboxSettings : ¬ Obligations.MailboxSettings := by
  unfold Obligations.MailboxSettings
  rintro ⟨_, _, _, _, _, hempty, _⟩
  obtain ⟨d, ⟨_, _, hstay⟩, he⟩ := effects_of_run (f := fun d => d.mbRun 513 0x15 emptyGroup) rfl
    (hempty markedCache 0 513 emptyGroup (by unfold Dev.takes; decide +kernel) (by decide +kernel) (by decide +kernel))
  obtain ⟨hserve, hwipes, hsess, hpaced, hquenched, hspaces, hsys, hbusy, hresp, hnone⟩ := markedCache_emptied
  have hcalm : d.Calm markedCacheEmptied.qry.hearths _ _ _ := Dev.calm_of_hearths hwipes hsess hpaced fun x hx hq => absurd hq (hquenched x hx)
  have hsteady : d.Steady (fun _ => True) markedCacheEmptied := Dev.steady_of_tidy he
  have hgone := (hsteady hserve).entries trivial hcalm hspaces ⟨_, hsys, hbusy, hresp⟩ hnone
  have hheld := hstay markedEntry (by decide +kernel) (by decide +kernel)
  rw [hgone] at hheld
  cases hheld

end Sys2Proof.Machine
